-- ==== Sys2Proof/Word.lean ====
section
/-! DEFINITION. The words of the GT4 module: bytes, 32-bit and 64-bit patterns (R8, R9, R12). -/

namespace Sys2Proof

/-- One byte of memory. -/
abbrev Byte := BitVec 8

/-- A 16-bit pattern (BF16, FP16). -/
abbrev Half := BitVec 16

/-- A 32-bit pattern (an FP32 value, a 32-bit register). -/
abbrev Word := BitVec 32

/-- A 64-bit pattern (an FP64 value, a 64-bit register; every register is held at this width). -/
abbrev DWord := BitVec 64

end Sys2Proof
end

