-- ==== Sys2Proof/Machine/Types.lean ====
section
/-! DEFINITION. The plain data the commands carry and the state holds: a Last image and its sections, stored
and staged segments, vector chains, wire blocks, frames and beacons, host records. -/

namespace Sys2Proof

/-- Bytes by address, strictly rising, none equal to what an unlisted address reads as. -/
abbrev Bytes := List (Nat × Byte)

/-- 64-bit values by number, in the same canonical form. -/
abbrev Regs := List (Nat × DWord)

/-- 32-bit values by number, in the same canonical form. -/
abbrev Words := List (Nat × Word)

/-- Natural numbers by number, in the same canonical form. -/
abbrev Counts := List (Nat × Nat)

/-- The element formats an operand, a rung or a stored segment may have (R79, R127). -/
inductive Fmt where
  | if4 | ii4 | if6 | if8 | bf16 | fp16
deriving DecidableEq, Repr

/-- The kinds of host-side reset (R340). -/
inductive ResetKind where
  | flr | hotReset | linkDisable | perst
deriving DecidableEq, Repr

/-! ## The Last image (R26 to R29) -/

/-- The header fields of R27; `reserved` is the value of the 96 reserved bytes read as one number. -/
structure ImageHeader where
  magic : Nat
  formatVersion : Nat
  headerLength : Nat
  partCode : Nat
  sectionCount : Nat
  imageLength : Nat
  imageId : Nat
  jobId : Nat
  rank : Nat
  jobSize : Nat
  securityVersion : Nat
  afrixVersion : Nat
  tickPeriod : Nat
  flags : Nat
  channelMap : BitVec 256
  publicKey : Nat
  reserved : Nat
deriving DecidableEq, Repr

/-- One directory entry (R28). -/
structure DirEntry where
  type : Nat
  flags : Nat
  reserved : Nat
  offset : Nat
  length : Nat
  digest : Nat
deriving DecidableEq, Repr

/-- The peer that TOPO names for a port: a rank and its port, or a port of a switch with the ranks reachable through it (R284). -/
inductive TopoPeer where
  | direct (rank port : Nat)
  | switched (port : Nat) (ranks : List Nat)
deriving DecidableEq, Repr

/-- A Pyurn port of TOPO: its width and its peer (R275, R284). -/
structure TopoPort where
  port : Nat
  width : Nat
  peer : TopoPeer
deriving DecidableEq, Repr

/-- The ranks reached through a port. -/
def TopoPort.peers (p : TopoPort) : List Nat :=
  match p.peer with
  | .direct r _ => [r]
  | .switched _ rs => rs

/-- One Class G ring: every rank of the job in ring order, and this module's ports to the next position and from the previous one
(R266). -/
structure RingEntry where
  ranks : List Nat
  send : Nat
  recv : Nat
deriving DecidableEq, Repr

/-- A Class G reduction in TOPO (R266, R267): its plot, its delivery mode (All, or else Scatter), the blocks of each ring's share,
and the plot whose buffer the update unit takes final blocks from. -/
structure GReduction where
  plot : Nat
  all : Bool
  shares : List Nat
  update : Nat
deriving DecidableEq, Repr

/-- The TOPO section as this module uses it (R29, R264, R266, R267, R270, R287). `treeChildren` pairs each child's
rank in the rank tree with the lowest rank it covers. -/
structure Topo where
  ports : List TopoPort
  beaconParent : Option Nat
  beaconChildren : List Nat
  treeParent : Option Nat
  treeChildren : List (Nat × Nat)
  rings : List RingEntry
  reductions : List GReduction
  dlogBase : Nat
  dlogSize : Nat
deriving DecidableEq, Repr

/-- A TENSOR entry (R29, R106, R237): class, shape, block size and axis, segment length, the address of the segment headers of
slab A, and the two slab addresses; none for a gradient that is never stored. -/
structure TensorEntry where
  cls : Nat
  rows : Nat
  cols : Nat
  frozen : Bool
  slabA : Option Nat
  slabB : Option Nat
  bytes : Nat
  segTiles : Nat
  block : Nat
  axisRows : Bool
  headers : Nat
deriving DecidableEq, Repr

/-- A FORMAT entry: one tensor class (R29, R95, R99, R110, R127). -/
structure FormatClass where
  ladder : List Fmt
  stochastic : Bool
  flush : List Fmt
  overflowInf : Bool
  budgetShift : Nat
  escapeShift : Nat
deriving DecidableEq, Repr

/-- A ROTATE entry (R122). -/
structure RotateEntry where
  cls : Nat
  n : Nat
  sign : BitVec 128
deriving DecidableEq, Repr

/-- A THRESH entry (R126). -/
structure ThreshEntry where
  layer : Nat
  cls : Nat
  segSat : Nat
  segZero : Nat
  blockSat : Nat
  blockZero : Nat
  layerSat : Nat
  layerZero : Nat
deriving DecidableEq, Repr

/-- A STILE entry (R299); `plot` is the Class S reduction of a job-wide stile (R302, R303). -/
structure StileDecl where
  stile : Nat
  jobWide : Bool
  plot : Nat
  target : Nat
  deadline : Nat
deriving DecidableEq, Repr

/-- A commit stile, the plot of its Class S reduction, and its offsets (R307). -/
structure CommitDecl where
  stile : Nat
  plot : Nat
  v : Nat
  dv : Nat
  dr : Nat
deriving DecidableEq, Repr

/-- The compiled fields of one plot (R303); `recv` says that this module is its receiving end. -/
structure PlotDecl where
  plot : Nat
  kind : Nat
  port : Nat
  credits : Nat
  peer : Nat
  buffer : Nat
  length : Nat
  recv : Bool
deriving DecidableEq, Repr

/-- The PLOT section: plots, chain pool, chain-table offset, reductions in flight (R265, R305, R306). -/
structure PlotSection where
  plots : List PlotDecl
  poolFirst : Nat
  poolSize : Nat
  chainTable : Nat
  classG : Nat
  classS : Nat
deriving DecidableEq, Repr

/-- One stitch record (R36, R41, R199, R250, R271). `classS` lists, for each Class S reduction that takes a
contribution in this stitch, the stitch named for its completion. -/
structure Stitch where
  layout : Nat
  phase : Nat
  duration : Nat
  hbmBytes : Nat
  commit : Bool
  update : Bool
  refresh : Bool
  slotTable : Nat
  cuts : List Nat
  classS : List Nat
  stiles : List Nat
  estimate : Nat
deriving DecidableEq, Repr

/-- A pattern variant of the ALT section (R37). -/
structure Variant where
  mask : BitVec 64
  tickPeriod : Nat
  stitches : List Stitch
deriving DecidableEq, Repr

/-- One update set of the UPDATE section (R246). -/
structure UpdateSet where
  rule : Nat
  lrPeak : Word
  lrFloor : Word
  warmup : Nat
  total : Nat
  shape : Nat
  b1 : Word
  b2 : Word
  eps : Word
  wd : Word
  gradScale : Word
  nesterov : Bool
  graft : Bool
  compensate : Bool
  iters : Nat
deriving DecidableEq, Repr

/-- A rule 2 block (R249, R250): its refresh group, its extent, the tensors that are its statistic and its root. -/
structure PreBlock where
  group : Nat
  d : Nat
  n : Nat
  stat : Nat
  root : Nat
deriving DecidableEq, Repr

/-- The UPDATE section (R241, R246, R250). -/
structure UpdateSection where
  period : Nat
  stepOffset : Nat
  clipNorm : Word
  recA : Nat
  recB : Nat
  sets : List UpdateSet
  blocks : List PreBlock
deriving DecidableEq, Repr

/-- One exchange stream of the EXPERT section (R292): rank and cluster of each expert, choices per token, capacities by source
rank and expert, capacity rule, record eyelet limit, the plot of each ordered pair of source and destination, and the cluster whose
slot assigner serves the stream on this module. -/
structure ExchangeStream where
  experts : List (Nat × Nat)
  choices : Nat
  capacity : List (List Nat)
  rule : Nat
  eyeletLimit : Nat
  plots : List (Nat × Nat × Nat)
  cluster : Nat
deriving DecidableEq, Repr

/-- A slot of each frame that a table reserves at an output, and the stream that it carries (R199). -/
structure SlotUse where
  router : Nat
  port : Nat
  slot : Nat
  stream : Nat
deriving DecidableEq, Repr

/-- A slot table of the ROUTE section: the reserved slots, and the most scratchpad-port cycles in 8 that it takes (R199, R200,
R206). -/
structure SlotTable where
  slots : List SlotUse
  spadMax : Nat
deriving DecidableEq, Repr

/-- The sections of an image, decoded (R29). `malformed` lists the types of the sections whose fields break the
layout or the range their chapter gives (R44 step 10). -/
structure Sections where
  topo : Topo
  pipelines : List (List Nat)
  routes : List SlotTable
  weights : List Nat
  tensors : List TensorEntry
  classes : List FormatClass
  rotate : List RotateEntry
  thresh : List ThreshEntry
  cleanSteps : List (Nat × Nat)
  plot : PlotSection
  stiles : List StileDecl
  commits : List CommitDecl
  layouts : List (List (Nat × Nat × Nat))
  primary : List Stitch
  layerGroups : List (Nat × Nat)
  primaryMask : BitVec 64
  converts : List (Nat × Nat)
  variants : List Variant
  resole : Nat
  maint : Nat
  memory : Nat
  floor : Nat
  emptyEstimate : Nat
  seeds : List DWord
  update : UpdateSection
  streams : List ExchangeStream
  usesExchange : Bool
  malformed : List Nat
deriving DecidableEq, Repr

/-- A Last image as fetched: its bytes, from which header, directory, digests and signature are read (R26 to R28, R45), and the
contents of its sections, whose encoding no chapter states (log 8). -/
structure ImageFile where
  raw : List Byte
  sections : Sections
deriving DecidableEq, Repr

/-- What a module sends a TOPO peer at START, and again after a reconciliation (R42, R315). -/
structure ExchangeMsg where
  jobId : Nat
  stitches : Nat
  layoutDigest : Nat
  epoch : Nat
  slabB : Bool
  unresolved : Bool
deriving DecidableEq, Repr

/-! ## Tiles and segments -/

/-- Where a segment lies: element codes, block scales, header with eyelet list (R107, R108). -/
structure SegDest where
  elems : Nat
  scales : Nat
  header : Nat
deriving DecidableEq, Repr

/-- Where the pattern puts a segment: at offsets from the address of its tensor's copy, which the state chooses (R237, R239),
with its header where TENSOR puts it (R106); or in an Orangery or a scratchpad (R131, R151). -/
inductive SegPlace where
  | tensor (elems scales : Nat)
  | near (d : SegDest)
deriving DecidableEq, Repr

/-- Where token records lie as a feeder streams them (R295): the first record, the bytes of one, the elements of its row. -/
structure RecordView where
  address : Nat
  bytes : Nat
  cols : Nat
deriving DecidableEq, Repr

/-- A strided view of a stored segment: element (r, c) is its element `base + r·rs + c·cs` (R107), or that element of consecutive
token records (R295). `places` gives the place of each rung, the consumer's branch of each resole branch; the rung released
chooses among them, or the branch number that came with the segment in a plot (R131). -/
structure View where
  tensor : Nat
  segment : Nat
  places : List SegPlace
  plot : Option Nat
  records : Option RecordView
  base : Nat
  rs : Nat
  cs : Nat
deriving DecidableEq, Repr

/-- A rotation applied to one operand: size and sign vector (R119, R122). -/
structure Rotation where
  n : Nat
  sign : BitVec 128
deriving DecidableEq, Repr

/-- Where a drained tile comes from (R149, R153, R161): half of an engine's tile buffer, a gathered tile on its way out, a tile of
the matrix-vector path by its number in the product. -/
inductive DrainSource where
  | held (engine : Fin 512) (half : Bool)
  | gathered (engine : Fin 512)
  | matrixVector (core : Fin 128) (tile : Nat)
deriving DecidableEq, Repr

/-- The staging place of a tile (R111 to R113, R133): its tensor, its number in the tensor's row-major tile order, its segment's
staging buffer, and the layer instances whose decisions the segment rests on. -/
structure StagePlace where
  tensor : Nat
  tile : Nat
  staging : Nat
  runAhead : List Nat
deriving DecidableEq, Repr

/-- Where a drained tile goes (R160). -/
inductive DrainDest where
  | stage (staging : Nat) (runAhead : List Nat)
  | scratchpad (core : Fin 128) (offset : Nat) (ready : Fin 64)
  | encoder (plot : Nat) (first : Nat)
deriving DecidableEq, Repr

/-- One drain of an FP32 output tile, by its number in its tensor (R102, R111, R160); the cycles that the drain lost at a
scratchpad port and its promotions there (R207). -/
structure DrainOp where
  source : DrainSource
  dest : DrainDest
  tensor : Nat
  tile : Nat
  lost : Nat
  promoted : Nat
deriving DecidableEq, Repr

/-- One finished segment conversion with the pattern's figures for it (R113 to R117, R127 to R137): the layer and layer instance
it belongs to, the cycle and the compiled remaining work, the compiled cost of the resole from each rung to the next, the place
of each rung, the plot that takes the segment to another module, whether it is the last of its instance, the instance's weight
tensor with the cost of a layer resole, the Class S reduction of R135 when the instance is spread over modules, and the drain tile
halves that hold run-ahead of this instance (R159). -/
structure ConvOp where
  tensor : Nat
  segment : Nat
  layer : Nat
  layerInst : Nat
  cycle : Nat
  remaining : Nat
  costs : List Nat
  places : List SegPlace
  plot : Option Nat
  instEnd : Bool
  weight : Nat
  layerCost : Nat
  spread : Option Nat
  squashes : List (Fin 512 × Bool)
deriving DecidableEq, Repr

/-! ## Matrix engines -/

/-- A weight operand that a layer's rung governs: its BF16 master, its layer and the layer instance that uses it (R132). -/
structure WeightUse where
  master : Nat
  layer : Nat
  inst : Nat
deriving DecidableEq, Repr

/-- A load into the idle bank of an engine's held store (R151): `first` is the first of the product's `length` reduction elements
that the block holds, `partner` the format in which the streamed operand is stored; `across` loads across the block axis, `marked`
says that the stitch record marks the product rotated (R119); tensor and segment are the product's output (R121); `lost` and
`promoted` are the loader's cycles and promotions at the scratchpad ports (R207). -/
structure HeldLoad where
  engine : Fin 512
  view : View
  partner : Fmt
  first : Nat
  length : Nat
  across : Bool
  marked : Bool
  weight : Option WeightUse
  tensor : Nat
  segment : Nat
  lost : Nat
  promoted : Nat
deriving DecidableEq, Repr

/-- A held pass: rows of the streamed view against the loaded bank (R149, R150), with the cycles it occupied the array (R155), its
stalls, the scratchpad port cycles it lost and its promotions there (R156, R207). -/
structure HeldPass where
  engine : Fin 512
  view : View
  rows : Nat
  firstRow : Nat
  half : Bool
  swapBank : Bool
  occupied : Nat
  stallRow : Nat
  stallCol : Nat
  stallCorr : Nat
  lag : Nat
  lost : Nat
  promoted : Nat
  tensor : Nat
  segment : Nat
deriving DecidableEq, Repr

/-- A gathered pass: both operands stream `steps` reduction steps (R152). -/
structure GatheredPass where
  engine : Fin 512
  rowView : View
  colView : View
  rows : Nat
  steps : Nat
  occupied : Nat
  stallRow : Nat
  stallCol : Nat
  stallCorr : Nat
  lag : Nat
  lost : Nat
  promoted : Nat
deriving DecidableEq, Repr

/-- A thin product on a core's matrix-vector path (R161): `rows` thin rows, `depth` reduction elements, `cols`
output columns, and the cycles that the path was busy (R408). -/
structure MvProduct where
  core : Fin 128
  thin : View
  streamed : View
  rows : Nat
  depth : Nat
  cols : Nat
  busy : Nat
  lost : Nat
  promoted : Nat
deriving DecidableEq, Repr

/-! ## Vector chains (R165 to R189) -/

/-- The format a chain runs in (R178). -/
inductive VFmt where
  | fp32 | bf16 | fp16 | fp64
deriving DecidableEq, Repr

/-- The predicates of CMP (R173). -/
inductive CmpOp where
  | eq | ne | lt | le | gt | ge | unord
deriving DecidableEq, Repr

/-- The function-unit operations of R175. -/
inductive FuOp where
  | rcp | rsqrt | exp | exp2 | log | log2 | tanh | sigmoid
deriving DecidableEq, Repr

/-- The number formats CVT converts among (R173, R176). -/
inductive CvtFmt where
  | fp32 | fp64 | bf16 | fp16 | int32
deriving DecidableEq, Repr

/-- The operations of a stage (R173). `i`-operations are the INT32 ones. -/
inductive VOp where
  | add | sub | mul | fma | fms | min | max | abs | neg | copy
  | iadd | isub | imul | imin | imax | iabs | ineg | icopy
  | and | or | xor | not | shl | shr | sra
  | cmp (c : CmpOp) | icmp (c : CmpOp) | sel
  | div | sqrt | fu (f : FuOp)
  | cvt (src dst : CvtFmt) (stochastic : Bool)
deriving DecidableEq, Repr

/-- Where a stage operand comes from (R171): `stage` is the result of an earlier stage of the chain. -/
inductive VSrc where
  | reg (n : Fin 32)
  | stream (i : Fin 2)
  | tileBuf (tb : Fin 4) (first : Nat)
  | colBcast (n : Fin 32)
  | rowBcast (n : Fin 32)
  | laneBcast (n : Fin 32) (lane : Nat)
  | colIdx (base : Word)
  | imm (v : DWord)
  | stage (k : Nat)
deriving DecidableEq, Repr

/-- One stage of a chain (R178). -/
structure VStage where
  op : VOp
  a : VSrc
  b : VSrc
  c : VSrc
deriving DecidableEq, Repr

/-- The reductions of R183. -/
inductive RedOp where
  | rsum | rprod | rmax | rmin | rand | ror | argmax | argmin
deriving DecidableEq, Repr

/-- A reduction that ends a chain (R181 to R184): its operand, `int` for INT32, `along` for the along form, `start` when the
accumulator starts at the identity, `emptyMask` the mask register an along reduction names. -/
structure Reduction where
  op : RedOp
  src : VSrc
  int : Bool
  along : Bool
  start : Bool
  emptyMask : Fin 8
deriving DecidableEq, Repr

/-- How a chain's results become Class S elements of 8 bytes (R269): numbers widened to FP64, INT32 values to INT64, or
INT32 words as the low half of a mask. -/
inductive SElem where
  | number | int | mask
deriving DecidableEq, Repr

/-- The one destination of a chain (R178, R187, R188). -/
inductive VDest where
  | reg (n : Fin 32)
  | tileBuf (tb : Fin 4) (first : Nat)
  | stream (offset : Nat)
  | mask (k : Fin 8)
  | stage (p : StagePlace)
  | classS (plot : Nat) (elem : SElem)
deriving DecidableEq, Repr

/-- A fused chain (R178): `count` positions, `whole` for a tile stream, the stream offsets in the core's
scratchpad, the mask and its mode, the 16-bit format that its final write converts to (R177; a 16-bit chain writes its own), the
class whose flush and overflow bits that write uses, the ready count it waits on, its wait and stall cycles, the cycles that
the engine and its function unit were busy (R408), the scratchpad port cycles it lost and its promotions there (R207), and the
words a drain wrote in the same cycle (R172). -/
structure VChain where
  fmt : VFmt
  stages : List VStage
  red : Option Reduction
  dst : VDest
  mask : Fin 8
  zero : Bool
  streams : List Nat
  count : Nat
  whole : Bool
  final : Option Fmt
  stochastic : Bool
  cls : Nat
  ready : Option (Fin 64 × Nat)
  wait : Nat
  stall : Nat
  busy : Nat
  fuBusy : Nat
  lost : Nat
  promoted : Nat
  collide : List (Nat × Word)
deriving DecidableEq, Repr

/-- A combination of expert results (R294, R296): the stream, the addresses of its route list and slot table, the tokens, the tensor
of the results and the plot whose BRANCH came with them, the record, the input buffer of each expert, whether the gate weights
apply (they do not to a gradient), and the address of the FP32 rows that it writes. -/
structure ExpertCombine where
  stream : Nat
  routes : Nat
  table : Nat
  tokens : Nat
  tensor : Nat
  plot : Nat
  record : RecordView
  inputs : List Nat
  gated : Bool
  output : Nat
deriving DecidableEq, Repr

/-- What the vector engine issues: a chain, one of the mask operations of R173, or the combination of R296. -/
inductive VeIssue where
  | chain (c : VChain)
  | kand (d a b : Fin 8)
  | kor (d a b : Fin 8)
  | knot (d a : Fin 8)
  | kld (d : Fin 8) (offset : Nat)
  | kst (a : Fin 8) (offset : Nat)
  | combine (c : ExpertCombine)
deriving DecidableEq, Repr

/-! ## Trellis -/

/-- The dynamic classes in the arbiter's order (R202), by weight index of R196. -/
inductive DynClass where
  | cloister | pyurn | hostDma | atomics | trace | management
deriving DecidableEq, Repr

/-- A requester of an output: an input port and a dynamic class (R202). -/
structure TrlReq where
  port : Fin 8
  cls : DynClass
deriving DecidableEq, Repr

/-! ## Memory -/

/-- Who reads or writes HBM (R223, MEM_UE_INFO.SOURCE of R236); `window` is BAR2, a load's fetch or the trace, `flush` the read that
merges an entry of the write-combining buffer (R234). -/
inductive Requester where
  | scheduled | update | hostDma (engine : Fin 8) | atomic | scrub | selfTest | image | window | flush
deriving DecidableEq, Repr

/-- Where a scheduled write goes: a device address, or, for one that the pattern marks as an update write, an offset in a tensor's
other copy (R239). -/
inductive WriteTarget where
  | to (addr : Nat)
  | update (tensor offset : Nat)
deriving DecidableEq, Repr

/-- The atomics of R235. -/
inductive AtomicOp where
  | add | max | min | swap
deriving DecidableEq, Repr

/-- Their element formats (R235). -/
inductive AtomicFmt where
  | fp32 | bf16 | int32 | int64 | raw
deriving DecidableEq, Repr

/-- A margin-scan result of one channel (R232). -/
structure ScanResult where
  channel : Fin 256
  timing : Nat
  volt : Nat
  pin : Nat
deriving DecidableEq, Repr

/-! ## Update units -/

/-- A segment of a scaled tensor as an update unit works it (R118): the tensor, and where its element codes and block scales lie,
counted from the tensor's address. -/
structure ScaledRef where
  tensor : Nat
  elems : Nat
  scales : Nat
deriving DecidableEq, Repr

/-- A rule 2 block as its gradient is staged (R244, R249): its number in the UPDATE section, the tensor's row and column at which
it begins. -/
structure GradBlock where
  block : Nat
  row : Nat
  col : Nat
deriving DecidableEq, Repr

/-- Elementwise work of an update unit on consecutive element indices of one segment of a tensor (R247 to R249): the update set,
the plot in whose buffer the gradient lies and the IW16 block that begins it (R244), the state tensors, the copy kept by COMPENSATE,
the IF4 forward copy, and the rule 2 block. -/
structure UpdElem where
  set : Nat
  segment : Nat
  first : Nat
  count : Nat
  plot : Nat
  wire : Nat
  state : List ScaledRef
  comp : Option ScaledRef
  if4 : ScaledRef
  pre : Option GradBlock
deriving DecidableEq, Repr

/-- What an update unit is given (R244, R250 to R252): elementwise work, a block's refresh, a gradient stream routed to a tensor
that is not worked here. -/
inductive UpdWork where
  | elementwise (e : UpdElem)
  | refresh (set : Nat) (g : GradBlock) (plot : Nat) (wire : Nat)
  | stream (blocks : Nat)
deriving DecidableEq, Repr

/-! ## Cloister -/

/-- An IW16 block: 32 mantissas, exponent, residue byte (R90). -/
structure WireBlock where
  mant : List Int
  exp : Nat
  res : Nat
deriving DecidableEq, Repr

/-- What hardware faults add in one attempt at an addition (R261, R262): to lane sums, and to mantissas of the re-encoded block. -/
structure AddFault where
  lanes : List (Nat × Int)
  outs : List (Nat × Int)
deriving DecidableEq, Repr

/-- A block that reaches this module's Cloister: the next one of a plot's stream on a port (R265). -/
structure BlockArrival where
  plot : Nat
  port : Fin 16
deriving DecidableEq, Repr

/-- An addition (R256): the reduction's plot and the block sequence number, whether the block from the ring is among its operands,
the plots in whose buffers the local contributions wait, the buffer plot that takes a partial sum of a larger fan-in, and what
faults add in its first attempt and in the repeat. -/
structure BlockAdd where
  plot : Nat
  seq : Nat
  ring : Bool
  locals : List Nat
  partialTo : Option Nat
  first : AddFault
  again : AddFault
deriving DecidableEq, Repr

/-- The Class S operations of R269. -/
inductive SOp where
  | fsum | fmax | fmin | isum | or | and
deriving DecidableEq, Repr

/-- What a Class S reduction is for: any compiled use, the gradient norm (R245), the non-finite veto (R269), the arrivals
of a job-wide stile (R302), the votes of the commit stile (R308), the requests of a layer instance spread over modules, with the
cycle and the compiled remaining work as it completes (R135). -/
inductive SUse where
  | plain | norm | veto
  | stile (n : Nat)
  | commit
  | resole (cycle remaining : Nat)
deriving DecidableEq, Repr

/-- A Class S reduction: its plot, operation and elements. -/
structure SReduce where
  plot : Nat
  op : SOp
  count : Nat
  use : SUse
deriving DecidableEq, Repr

/-! ## Pyurn -/

/-- A frame's control field and payload (R277, R278). -/
structure Frame where
  kind : Nat
  flits : Nat
  branch : Nat
  plot : Nat
  pos : Nat
  seq : Nat
  ack : Nat
  nak : Bool
  creditPlot : Nat
  creditCount : Nat
  beacon : Word
  payload : List Byte
deriving DecidableEq, Repr

/-- The rows that an exchange sends, in order of expert and slot: the tokens that a slot table places (R293), or results, which
follow the counts that a plot's occupancy frames gave, from the first row of each expert (R296). -/
inductive ExchangeRows where
  | tokens (routes table counts tokens : Nat)
  | results (plot : Nat) (firstRow : List Nat)
deriving DecidableEq, Repr

/-- The sending end of one exchange (R295, R296): stream, destination, the rows, the tensor that holds them, the places and survey
areas of its segments, and the position in the plot's stream at which it begins. -/
structure ExchangeSend where
  stream : Nat
  dest : Nat
  rows : ExchangeRows
  tensor : Nat
  places : List (List SegPlace)
  surveys : List Nat
  start : Nat
deriving DecidableEq, Repr

/-- Where a plot's stream comes from: what the Cloister has queued for the port, bytes of memory from a position of the stream on,
or an exchange. -/
inductive TxSource where
  | queued
  | memory (address length start : Nat)
  | exchange (x : ExchangeSend)
deriving DecidableEq, Repr

/-- A plot that the pattern lets a port send, in compiled order (R279, R281). -/
structure Offer where
  plot : Nat
  source : TxSource
deriving DecidableEq, Repr

/-- Where the records of an exchange plot go: bytes of a record, and address and slots of the compiled input buffer of
each expert, in expert order; for results, the slots that this module filled: the address of its counts, and the experts (R296). -/
structure ExchangeDest where
  record : Nat
  inputs : List (Nat × Nat)
  filled : Option (Nat × List Nat)
deriving DecidableEq, Repr

/-- What a port receives in one frame period, and what it has to send: the frame; the symbols that FEC corrected on each
physical lane, the uncorrectable codewords and the verdict of the CRC (R280, R283); the plots whose consumers have
finished with frames, and how many (R281); the frames ready to send; where exchange records go. -/
structure FrameIn where
  frame : Frame
  corr : List Nat
  uncorr : Nat
  crcBad : Bool
  done : List (Nat × Nat)
  offers : List Offer
  dest : Option ExchangeDest
deriving DecidableEq, Repr

/-- A beacon message (R286); GATE holds epoch, stale, floor and thermal in bits 0 to 3. -/
structure Beacon where
  down : Bool
  cause : Bool
  holds : Bool
  mismatch : Bool
  gate : BitVec 4
  tick : Nat
  stepId : Nat
  affected : BitVec 64
  covered : Nat
deriving DecidableEq, Repr

/-- A route list of one stream (R293): its address, where each token has an INT32 expert index and an FP32 gate weight for each
choice, the tokens, and the addresses to which the slot table and the counts of filled slots go. -/
structure RouteList where
  stream : Nat
  routes : Nat
  tokens : Nat
  table : Nat
  counts : Nat
deriving DecidableEq, Repr

/-! ## Host records -/

/-- A ticket (R66). -/
structure Ticket where
  stepId : Nat
  slot : Nat
  imageId : Nat
  input : Nat
  tag : Nat
  inputLength : Nat
  plots : Nat
deriving DecidableEq, Repr

/-- A DMA descriptor (R332). -/
structure Descriptor where
  source : Nat
  dest : Nat
  length : Nat
  toHost : Bool
  irq : Bool
  fence : Bool
  reserved : Nat
  tag : Nat
deriving DecidableEq, Repr

/-- How a host read of a DMA ended (R333). -/
inductive DmaHostEnd where
  | ok | failed (bytes : Nat) | poisoned (bytes : Nat)
deriving DecidableEq, Repr

/-- The status of a completion record (R74). -/
inductive StepStatus where
  | clean | spoiled | unmatched | halted
deriving DecidableEq, Repr

/-- A completion record (R74, R328). -/
structure Completion where
  tag : Nat
  stepId : Nat
  deadline : Nat
  status : StepStatus
  cause : Nat
deriving DecidableEq, Repr

/-- A commit decision (R309). -/
inductive Decision where
  | commit | skip (incomplete : Bool)
deriving DecidableEq, Repr

/-- A management request that the Lodge receives over I3C or the mailbox (R373, R377, R403). -/
inductive MctpReq where
  | control
  | identity
  | ledgerRead (offset length : Nat)
  | snapshotRead (offset length : Nat)
  | malformed
deriving DecidableEq, Repr

/-- The events that wake the module (R365). -/
inductive WakeKind where
  | pcieActivity | pyuActivity (port : Fin 16) | pyuPattern (port : Fin 16) | wakePin | pcieRequest
  | perst | management
deriving DecidableEq, Repr

/-- The functions that wake on demand (R368). -/
inductive OnDemand where
  | configShadow | mailbox | persistentRead
deriving DecidableEq, Repr

/-- One sample of every sensor (R373): input in mV, power in mW, temperatures in °C. -/
structure Samples where
  inputMv : Nat
  inputMw : Nat
  junctions : List Nat
  stackTemps : List Nat
  stages : List Nat
deriving DecidableEq, Repr

/-- A trace record (R410): tick and cycle stamps, code, source and 16-byte payload as one number. -/
structure TraceRec where
  die : Fin 2
  tick : Nat
  cycle : Nat
  code : Nat
  source : Nat
  payload : Nat
deriving DecidableEq, Repr

/-- A PCIe configuration request (R320, R341): a read or write of a byte offset of a function's configuration
space, or the write of the Resizable BAR capability that sets the size of BAR2 to `2^log2`. -/
inductive CfgReq where
  | read (function offset : Nat)
  | write (function offset : Nat) (data : Word)
  | resize (log2 : Nat)
deriving DecidableEq, Repr

end Sys2Proof
end

