-- ==== Sys2Proof/Syntax.lean ====
section
/-! DEFINITION. The commands: one constructor per row of spec/opcode_table.json, in the table's order, each
with the facts its event brings from outside the module. -/

namespace Sys2Proof

/-- A command of the block: what the host, a peer, the Lodge's surroundings or the pattern does to the
module. Each docstring-free constructor is the row of the opcode table whose mnemonic LAWS.json gives it.
`same` lists, for a clear command, the register and amount of the events of the same cycle (R439); `wrong`, for a read that the code
miscorrects, the symbols it takes itself to have corrected and the line it returns (R214). -/
inductive Instr where
  -- start-up (18)
  | powerValid48v (perst : Bool)
  | lodgeAlive
  | bootVerified
  | pyurnTrainingOpen
  | trainingRetry (port : Fin 16)
  | hbmTrainingDone (failed : List (Fin 256))
  | moduleReady
  -- host link and resets (15)
  | linkUp (speed width : Nat) (flit : Bool)
  | linkDown (moved : List (Fin 8 × Nat × List Byte))
  | hostSideReset (kind : ResetKind) (moved : List (Fin 8 × Nat × List Byte))
  | hostResetAfterCommit (moved : List (Fin 8 × Nat × List Byte))
  | perstDeassert
  -- the Last image (02)
  | load
  | imageFetchDone (file : ImageFile)
  | imageFetchDmaError (bytes : Nat)
  | imageChecksDone
  | start
  | startExchangeReply (peer : Nat) (reply : ExchangeMsg)
  | startMessageUp (child covered : Nat)
  | startMessageDown
  | startTimeout
  | unload
  | abort
  | imageRetire
  | imageRecheckDone
  -- ticks and admission (03)
  | tickEdge (late measured predicted : Nat)
  | stitchDone (cycle : Nat)
  | maintenanceSlot (temps : List Nat) (bad : List (Fin 256))
  | stitchOverrun (past : Nat)
  | edgeTimeoutHalt
  | ticketDoorbell
  | ticketDecision
  | admDonePop
  | tickClrStats (same : List (Nat × Nat))
  | deferredRequestStart
  -- drains, conversions (04 to 06)
  | tileDrain (op : DrainOp)
  | segmentConversionDone (ops : List ConvOp)
  | fmtClr (same : List (Nat × Nat))
  | qntClr (same : List (Nat × Nat))
  | qntStatClr (same : List (Nat × Nat))
  -- matrix engines (07)
  | heldBlockLoad (op : HeldLoad)
  | heldPass (op : HeldPass)
  | gatheredPass (op : GatheredPass)
  | gatheredDrain (engine : Fin 512)
  | mvProduct (op : MvProduct)
  | meTestStart
  | meTestDone (engines : List (Fin 512)) (paths : List (Fin 128))
  | meStatClr (same : List (Nat × Nat))
  -- vector engines (08)
  | vectorChain (core : Fin 128) (issue : VeIssue)
  | veTestStart
  | veTestDone (failed : List (Fin 128))
  | veStatClr (same : List (Nat × Nat))
  | veFlagsClr (same : List (Nat × Nat))
  -- Trellis (09)
  | dynamicArbitration (router : Fin 16) (port : Fin 8) (eligible : List TrlReq) (reuse : Bool) (wait : Nat)
  | seamCrcFail (die link : Fin 2) (again : Bool)
  | trlStatClr (same : List (Nat × Nat))
  -- memory (10)
  | hbmRead (addr : Nat) (who : Requester) (symbols : Nat) (wrong : Option (Nat × List Byte))
  | hbmReadRetry (addr : Nat) (who : Requester) (symbols : Nat) (bytes : List Byte) (wrong : Option (Nat × List Byte))
  | hbmWrite (target : WriteTarget) (data : List Byte)
  | writeBack (channel : Fin 256)
  | patrolScrub (channel : Fin 256) (symbols : Nat) (wrong : Option (Nat × List Byte))
  | writeCrcReject (addr : Nat) (times : Nat)
  | memoryAtomic (op : AtomicOp) (fmt : AtomicFmt) (addr : Nat) (data : List Byte) (fetch : Bool)
  | mapWrite (k : Fin 8) (value : Word)
  | mapInTestDone (channel : Fin 256) (pass : Bool)
  | hbmTempTimer (temps : List Nat)
  | memTestStart (ctrl : Word)
  | memTestDone (failed : List (Fin 256))
  | memScanStart (ctrl : Word)
  | memScanDone (results : List ScanResult)
  | memStatClr (same : List (Nat × Nat))
  -- update units (11)
  | updateBlock (unit : Fin 16) (tensor : Nat) (work : UpdWork)
  | updStatClr (same : List (Nat × Nat))
  -- Cloister (12)
  | cloisterBlockArrival (op : BlockArrival)
  | blockAddition (op : BlockAdd)
  | classSCombine (red : SReduce) (differ : Bool) (slack : Nat)
  | classSResult (red : SReduce) (slack : Nat)
  | classSDeadline (red : SReduce)
  | cloStatClr (same : List (Nat × Nat))
  -- Pyurn (13)
  | portTrainingDone (port : Fin 16) (lanes : BitVec 8)
  | helloFrame (port : Fin 16) (peer : DWord) (peerPort : Fin 16)
  | frameReceive (port : Fin 16) (arrival : FrameIn)
  | replayTimeout (port : Fin 16)
  | laneLockLoss (port : Fin 16) (lane : Fin 8)
  | retrain
  | wakeSend
  | beaconUp (child : Nat) (msg : Beacon) (delay : Nat)
  | beaconDown (msg : Beacon) (delay : Nat)
  | slotAssign (list : RouteList)
  | pyuStatClr (same : List (Nat × Nat))
  -- stiles, plots, commit (14)
  | stileArm (stile : Fin 131072)
  | stileArrive (stile : Fin 131072) (generation : Nat)
  | stileWait (stile : Fin 131072) (generation : Nat) (unit : Nat)
  | stileTimeout (stile : Fin 131072)
  | chainAppend (chain : Nat) (record : List Byte)
  | chainRead (chain offset length : Nat)
  | commitVote
  | commitDecide
  | voteDeadline
  | commitDecisionReceive (d : Decision)
  | commitRelease
  | lateCommit
  | keep
  | adopt
  | stlStatClr (same : List (Nat × Nat))
  | pltStatClr (same : List (Nat × Nat))
  -- host interface (15)
  | queueEnable (ctrl : Word)
  | queueDisable
  | queueDrainDone
  | tqTailWrite (index : Word)
  | ticketFetch (t : Ticket)
  | aqHeadWrite (index : Word)
  | cqHeadWrite (index : Word)
  | dmaEnable (engine : Fin 8) (ctrl : Word)
  | dmaDisable (engine : Fin 8) (moved : List (Fin 8 × Nat × List Byte))
  | dmaTailWrite (engine : Fin 8) (index : Word)
  | descriptorStart (engine : Fin 8) (d : Descriptor)
  | descriptorDone (engine : Fin 8) (tag : Nat) (data : List Byte)
  | msixCoalesceEnd (vector : Fin 32)
  | msixUnmask (vector : Fin 32)
  | bar2Read (offset length : Nat)
  | bar2Write (offset : Nat) (data : List Byte)
  | pciWinBaseWrite (value : DWord)
  | bar0BadAccess (offset size : Nat) (write : Bool)
  | poisonedTlp
  | malformedTlp
  | correctableLinkError
  | unsupportedRequest
  | completionTimeout (engine : Fin 8) (tag : Nat) (hostEnd : DmaHostEnd)
  | d3hotWrite
  | d0Write
  | d3hotDeferredEntry
  | doeDiscovery (index length : Nat)
  | doeAbort
  | pciStatClr (same : List (Nat × Nat))
  -- power (16)
  | powerControlPeriod (junctions : List Nat)
  | droopTrip (core : Fin 128)
  | droopRelease (core : Fin 128) (cycles : Nat)
  | capWrite (value : Word)
  | ackStale
  -- power states and the Lodge (17)
  | a1AutoEntry
  | targetA0
  | targetA1
  | targetA2
  | mgmtEnterA2
  | mgmtEnterA3
  | mgmtWake
  | mgmtRearm
  | entryDone
  | wakeEvent (kind : WakeKind)
  | wakeDomainReady (failed : List (Fin 256))
  | wakeFail
  | onDemandAccess (function : OnDemand)
  | sensorSample (s : Samples)
  | lodgeStop
  | mailboxGo (ctrl : Word) (req : MctpReq)
  | mctpI3cRequest (req : MctpReq)
  -- enrollment, PLDM, SPDM (18)
  | firstEnrollment (keyDigest : BitVec 256)
  | enrollmentGo
  | enrollmentCheck
  | queryDeviceIdentifiers
  | getFirmwareParameters
  | requestUpdate (outstanding : Nat)
  | passComponentTable (component : Nat)
  | updateComponent (component : Nat) (length : Nat)
  | requestFirmwareData (offset : Nat) (data : List Byte)
  | transferComplete
  | verifyComplete
  | applyComplete
  | activateFirmware
  | getStatus
  | cancelUpdate
  | getVersion
  | getCapabilities
  | negotiateAlgorithms (offered : List Nat)
  | getDigests
  | getCertificate (slot offset length : Nat)
  | challenge (slot : Nat) (nonce : Nat)
  | getMeasurements (index : Nat) (signed : Bool) (nonce : Nat)
  -- seed bank and ledger (19)
  | ledgerRead (offset length : Nat)
  | snapshotRead (offset length : Nat)
  | seedWrite (index : Fin 1024) (value : Word)
  | seedWritePersist
  | weeklySummary
  | allowancePeriod
  | hltSnap
  | hltSnapDone
  -- Belvedere (20)
  | belSnap
  | belSnapAtEdge
  | belSnapDone (cycle : Nat)
  | belMark (value : DWord)
  | traceRecordArrival (die : Fin 2) (failed : Bool)
  | traceGroupFlush (die : Fin 2) (failed : Bool)
  | ringEnable (die : Fin 2) (ctrl : Word)
  | ringHeadWrite (die : Fin 2) (value : DWord)
  -- register file (21)
  | topClrStats (same : List (Nat × Nat))
  | registerWrite (offset size value : Nat)
  | a1ReturnRequest
  | configurationRequest (req : CfgReq)
  | dynamicAddressAssignment (addr : BitVec 7)
deriving DecidableEq, Repr

end Sys2Proof
end

