-- ==== Sys2Proof/Config.lean ====
section
/-! DEFINITION. What one module fixes for itself (fused or set at test) and the free values: constants
without a body, so that no statement can rest on a value of theirs. -/

namespace Sys2Proof

/-- The 64-bit module identity, fused at test (R386, R424). -/
opaque Config.moduleId : DWord

/-- The boot ROM version, `TOP_ROM_VERSION` and measurement index 1: set in the ROM (R424). -/
opaque Config.romVersion : DWord

/-- Fused maximum frequency of a core, in steps of 25 MHz above 2,400 MHz, before it is held to the
range of R359 by `Config.fusedMhz`. -/
opaque Config.fusedStep : Nat → Nat

/-- Fused maximum frequency of a core: 2,400 to 2,900 MHz in steps of 25 (R20, R359). -/
def Config.fusedMhz (core : Nat) : Nat := 2400 + 25 * (Config.fusedStep core % 21)

/-- Spare rows in use in an engine before it is held to 0 to 4 (R164). -/
opaque Config.spareRowsRaw : Nat → Nat

/-- Spare columns in use in an engine before it is held to 0 to 2 (R164). -/
opaque Config.spareColsRaw : Nat → Nat

/-- Spare rows in use, 0 to 4 (R16, R164). -/
def Config.spareRows (engine : Nat) : Nat := Config.spareRowsRaw engine % 5

/-- Spare columns in use, 0 to 2 (R16, R164). -/
def Config.spareCols (engine : Nat) : Nat := Config.spareColsRaw engine % 3

/-- Whether an HBM channel passed test: the unwritten value of its bit in `MEM_MAP` (R392). -/
opaque Config.channelPassed : Nat → Bool

/-- Budget power in W that the fused per-core model gives for a stitch estimate at the cores'
frequencies (R353): the model itself is fused and nowhere stated. -/
opaque Config.predictPower : Nat → List Nat → Nat

/-- A core's lowest VCORE level for a frequency, in mV, before the 10 mV that R347 adds. -/
opaque Config.vcoreTable : Nat → Nat → Nat

/-- Free bits: the step reads a counter of the state and advances it, so every use is a fresh value. -/
opaque Config.freeBits : Nat → DWord

/-- Free choice of a result of a function-unit operation (R175 bounds its error and states no bits):
operation number, operand. -/
opaque Config.fuResult : Nat → Word → Word

/-- The upper half of the Class S mask element that a 32-bit word enters as (R269): no rule states it. -/
opaque Config.maskUpper : Word → Word

/-- The FP64 cosine of R245 (shape 2): no rule states its rounding. -/
opaque Config.cos64 : DWord → DWord

/-- The FP64 power `b^t` of R247: no rule states its rounding. -/
opaque Config.pow64 : DWord → Nat → DWord

/-- The verification of SLH-DSA-SHAKE-256s (FIPS 205, which R45 names): public key, message as HashSLH-DSA forms it, signature. -/
opaque Config.slhVerify : List Byte → List Byte → List Byte → Bool

/-- The digests of the four Sahuri boot keys in ROM (R382). -/
opaque Config.bootKey : Fin 4 → Nat

/-- The ROM boot keys that the bytes of a REVOKE section name (R384): no rule lays the section out. -/
opaque Config.revokeNames : List Byte → BitVec 4

/-- The signature that the device key makes over what an answer of SPDM carries (R386, R389): the key is fused. -/
opaque Config.deviceSign : List Byte → Nat

/-- The digest of a sequence of layout edges (R42): pairs of stitch index and layout. No rule states its function. -/
opaque Config.layoutDigest : List (Nat × Nat) → Nat

/-- The certificate chain of SPDM slot 0 (R386, R389), held in the persistent store: its length and bytes. -/
opaque Config.certLength : Nat

/-- A byte of the chain of slot 0. -/
opaque Config.certByte : Nat → Byte

/-- The SHAKE256 digest, 512 bits, of the chain of slot 0 (R389). -/
opaque Config.certDigest : Nat

end Sys2Proof
end

