-- ==== Sys2Proof/Machine/Parts.lean ====
section
/-! DEFINITION. The parts of the machine's state, one structure per block of the module. Registers that hold
their own value stand in `State.regs`; what stands here is the state behind the mirrored registers and the state
no register shows. -/

namespace Sys2Proof.Machine

/-! ## Seed bank and ledger (19) -/

/-- One entry of the seed bank's write queue: a single write, or the writes of one group (R393, R395). -/
structure SeedEntry where
  writes : List (Nat × Word)
deriving DecidableEq, Repr

/-- The seed bank: persisted values, write counts, write queue (R392 to R396). -/
structure SeedBank where
  vals : Words := []
  wear : Counts := []
  queue : List SeedEntry := []
deriving DecidableEq, Repr

/-- The health ledger and the live fields of the next summary (R397 to R403). `live` is keyed by the offset of
the field in the SUMMARY record; `allow` counts the records of each allowance type in this period; `powered` and
`lastSummary` are microseconds of powered time; `scans` holds results waiting for the next weekly summary. -/
structure Ledger where
  bytes : Bytes := []
  tail : Nat := 528
  records : Nat := 1
  allow : Counts := []
  live : Counts := []
  powered : Nat := 0
  lastSummary : Nat := 0
  scans : Counts := []
  scanDue : Bool := false
  snap : Bytes := []
  snapBusy : Bool := false
  bootSeq : Nat := 0
  closed : Bool := false
deriving DecidableEq, Repr

/-! ## Belvedere (20) -/

/-- The trace path of one die: records between source and Belvedere, records gathered for the next group write,
and the losses since the last LOSS record (R413 to R416). -/
structure TraceRing where
  inflight : List TraceRec := []
  group : List TraceRec := []
  lostRing : Nat := 0
  lostSrc : Nat := 0
  firstLost : Nat := 0
deriving DecidableEq, Repr

/-- Counters, snapshot and the two rings (R407 to R416). -/
structure Belvedere where
  cnt : Regs := []
  snap : Regs := []
  snapBusy : Bool := false
  snapAtEdge : Bool := false
  rings : List (Nat × TraceRing) := []
deriving DecidableEq, Repr

/-! ## Host interface (15) -/

/-- One MSI-X vector (R336): mask bit, pending bit, a message due, and whether a message was sent in this
coalescing interval. -/
structure MsixVec where
  masked : Bool := true
  pendingBit : Bool := false
  due : Bool := false
  cooling : Bool := false
deriving DecidableEq, Repr

/-- A descriptor in flight: its ring count, the bytes that reads delivered in place of the stored ones, each with whether its line was
uncorrectable (R214, R222, R333 code 1), how its host read ended (R337), and its status once it is done (R332). -/
structure DmaFlight where
  index : Nat
  desc : Descriptor
  bad : List (Nat × Byte × Bool) := []
  hostEnd : DmaHostEnd := .ok
  status : Option Nat := none
deriving DecidableEq, Repr

/-- A measurement block: index, value type, value (R390). -/
structure MeasBlock where
  index : Nat
  type : Nat
  value : List Byte
deriving DecidableEq, Repr

/-- What a DOE object of the module carries (R342, R389, R390). `nonce` is the module's, `signature` that of the device key. -/
inductive DoeAnswer where
  | discovery (vendor type next : Nat)
  | version (versions : List Nat)
  | capabilities (flags ctExponent size : Nat)
  | algorithms (asym hash : Option Nat) (measurementHash : Nat)
  | digests (digest : Nat)
  | certificate (data : List Byte) (remaining : Nat)
  | challengeAuth (digest nonce requesterNonce signature : Nat)
  | measurements (count : Nat) (blocks : List MeasBlock) (nonce requesterNonce : Nat) (signature : Option Nat)
  | error (code : Nat)
deriving DecidableEq, Repr

/-- The DOE mailbox (R342): Object Ready, Error, and the answer. -/
structure DoeMailbox where
  ready : Bool := false
  error : Bool := false
  answer : Option DoeAnswer := none
deriving DecidableEq, Repr

/-- The host interface beyond its registers. `wasUp` says that the link has been up before, `d3wait` that a refused D3hot
waits for its entry (R362); `windowBad` holds what reads delivered for the next BAR2 read, likewise (R214, R222);
`fetched` counts the ring tickets fetched and not yet answered; `config` holds what was written to configuration space,
each dword with bit 32 set. -/
structure HostIf where
  msix : List (Nat × MsixVec) := []
  flights : List (Nat × List DmaFlight) := []
  fetched : Nat := 0
  doe : DoeMailbox := {}
  d3hot : Bool := false
  d3wait : Bool := false
  perst : Bool := false
  wasUp : Bool := false
  waitingReset : Option ResetKind := none
  windowBad : List (Nat × Byte × Bool) := []
  config : Regs := []
deriving DecidableEq, Repr

/-! ## Start-up (18) and the image (02) -/

/-- The start-up sequence (R378 to R384): 48 V valid, the step reached (1 Lodge alive, 6 verified, 7 HBM trained, 8 ready),
the domains up since then (R367 steps 1 and 2), boot failed, Pyurn training open, a LOAD written before step 8, whether this
start is a wake from A3, and the booted bank with its digest and security version. `status` (as TOP_BOOT shows it) and
`cached` (the digest last verified) are the cached identity (R380). -/
structure Boot where
  powered : Bool := false
  step : Nat := 0
  domains : Nat := 0
  failed : Bool := false
  training : Bool := false
  heldLoad : Bool := false
  fromA3 : Bool := false
  bank : Option Nat := none
  digest : Nat := 0
  secver : Nat := 0
  status : Nat := 0
  cached : Nat := 0
deriving DecidableEq, Repr

/-- The image states of chapter 02. -/
inductive ImgState where
  | empty | loading | verifying | loaded | armed | running | retired
deriving DecidableEq, Repr

/-- The held image and its start (R43 to R52). `file` is the image being loaded or held; `passed` and `childUp` are the
conditions of R49, `exchanged` that the start exchange went out (R285); `map` is the channel map that the image was loaded
against and `mapChanged` says that the seed bank's map changed while the image was held (R51); `rechecking` is the state that the
recheck after A2 returns to (R52, R369). -/
structure ImageSt where
  st : ImgState := .empty
  file : Option ImageFile := none
  prevJob : Option Nat := none
  passed : List Nat := []
  exchanged : Bool := false
  peerUnresolved : List Nat := []
  childUp : List (Nat × Nat) := []
  sentUp : Bool := false
  map : BitVec 256 := 0
  mapChanged : Bool := false
  rechecking : Option ImgState := none
deriving DecidableEq, Repr

/-! ## Ticks, steps and admission (03, 06, 14) -/

/-- The step that a slot carries (R57, R138, R308 to R310): its ticket's step_id, slot and plot count, the variant it runs,
its first local cause (cause, stitch, tick), denial, a non-finite value found, vote, veto, the decision held, and the completion status once
E + Dr has passed. -/
structure RunStep where
  slot : Nat
  stepId : Nat
  plots : Nat
  input : Nat
  variant : Nat
  cause : Option (Nat × Nat × Nat) := none
  denied : Bool := false
  nonFinite : Bool := false
  voted : Bool := false
  veto : Bool := false
  decision : Option Decision := none
  acted : Option (StepStatus × Nat) := none
deriving DecidableEq, Repr

/-- The tick unit (R56 to R65): the tick number, whether ticks run, the maintenance slot, the end of the stitch and the
report sent, what the reserve account has been debited, the children's beacons for this tick, the combined report held
for it, the step_id latched at the binding edge, the running step and the raised set with its clean counters. -/
structure TickSt where
  ticking : Bool := false
  now : Nat := 0
  inMaint : Bool := false
  halted : Bool := false
  done : Bool := false
  overrun : Bool := false
  stopped : Bool := false
  debited : Nat := 0
  maintDue : Nat := 0
  own : Option Beacon := none
  kids : List (Nat × Beacon) := []
  sentUp : Bool := false
  held : Option Beacon := none
  latched : Option Nat := none
  step : Option RunStep := none
  raised : BitVec 64 := 0
  clean : Counts := []
  raises : Counts := []
deriving DecidableEq, Repr

/-- An answer of the gate (R68, R70): accepted with slot and deadline, or refused with reason and detail. -/
inductive Answer where
  | accept (slot deadline : Nat)
  | refuse (reason detail : Nat)
deriving DecidableEq, Repr

/-- A doorbell whose answer has not been written yet (R67): the ticket, whether it came by the ring, its number, and the answer
that the state at its decision instant gives. -/
structure Doorbell where
  ticket : Ticket
  ring : Bool
  seq : Nat
  answer : Answer
deriving DecidableEq, Repr

/-- A self-test, scan or calibration held under R76. -/
inductive Held where
  | matrix | vector | memTest | memScan
deriving DecidableEq, Repr

/-- The admission gate (R66 to R76): pending doorbells, accepted tickets by slot, unread completion records, free chain
plots, the latched gate conditions (ADM_GATE bits 1 to 8), held requests and the slots that running tests hold. -/
structure AdmSt where
  bells : List Doorbell := []
  accepted : List (Nat × Ticket) := []
  unread : List Completion := []
  freePlots : Nat := 0
  gate : BitVec 8 := 0
  seq : Nat := 0
  waiting : List Held := []
  slots : List (Held × List Nat) := []
  epochPeer : Bool := false
deriving DecidableEq, Repr

/-! ## Stiles and plots (14) -/

/-- One stile (R299, R300). -/
structure Stile where
  gen : Nat := 0
  count : Nat := 0
  early : Nat := 0
  armed : Bool := false
  target : Nat := 0
  waiters : List (Nat × Nat) := []
deriving DecidableEq, Repr

/-- One plot (R303). `arrived` counts the frames that have arrived on all its ports; `landed` lists the IW16 blocks that
wait in its buffer, by number (R244, R255). -/
structure Plot where
  kind : Nat := 0
  port : Nat := 0
  credits : Nat := 0
  branch : Nat := 0
  peer : Nat := 0
  held : Nat := 0
  buffer : Nat := 0
  length : Nat := 0
  recv : Bool := false
  position : Nat := 0
  base : Nat := 0
  limit : Nat := 0
  used : Nat := 0
  arrived : Nat := 0
  landed : List Nat := []
deriving DecidableEq, Repr

/-- The commit on this module (R307 to R316): outcome register fields, the votes held (lowest rank covered, arrivals,
veto), whether they went up, the coordinator's complete combination. `bound` pairs chain indices with pool plots. -/
structure CommitSt where
  outcome : Nat := 0
  veto : Bool := false
  incomplete : Bool := false
  lateCause : Nat := 0
  resolved : Bool := false
  votes : List (Nat × Nat × Bool) := []
  sent : Bool := false
  combo : Option (Nat × Bool) := none
  bound : List (Nat × Nat) := []
deriving DecidableEq, Repr

/-- Stiles and plots by number. -/
structure StilePlots where
  stiles : List (Nat × Stile) := []
  plots : List (Nat × Plot) := []
  commit : CommitSt := {}
deriving DecidableEq, Repr

/-! ## Memory (10) -/

/-- An entry of a channel's write-combining buffer: line number in the channel, the latest requester of its partial writes (R234), byte
mask, bytes (R233). -/
structure WcbEntry where
  line : Nat
  who : Requester
  mask : BitVec 64
  data : List Byte
deriving DecidableEq, Repr

/-- The memory system beyond its registers: training, the in-service map, channels under a map-in test, channels that failed one or
failed training (R217, R226, R227), write-combining and write-back queues by channel (oldest first; a write-back is its line and, where
the decoder returned other bytes than those stored, these bytes, R214), scrub pointers, hot stacks, the required shares of the last
readings, readings until each stack's condition clears, the calibration rotation, MEM_TEST_CTRL as the last request was made, and what
reads of the pattern, of an update unit or of the image delivered in place of the stored bytes, by memory key (R214, R222). -/
structure HbmSt where
  trained : Bool := false
  inService : BitVec 256 := 0
  mapIn : List Nat := []
  mapFailed : List Nat := []
  wcb : List (Nat × List WcbEntry) := []
  writeBacks : List (Nat × List (Nat × List Byte)) := []
  scrub : Counts := []
  hot : BitVec 8 := 0
  share : Counts := []
  cond : Counts := []
  calib : Nat := 0
  testCtrl : Nat := 0
  bad : List (Nat × Byte) := []
deriving DecidableEq, Repr

/-! ## Epochs (11) -/

/-- The other slab's state (R240). -/
inductive Shadow where
  | stale | writing | complete
deriving DecidableEq, Repr

/-- One segment of the other slab as the update units write it in a step (R118): the largest magnitude of the new values
without an eyelet, the eyelets given, a dominant block seen, the first non-finite value, the blocks written. -/
structure UpdSeg where
  m : Word := 0
  eyelets : List (Nat × Word × Bool) := []
  dominant : Bool := false
  nf : Option Nat := none
  blocks : Nat := 0
deriving DecidableEq, Repr

/-- Epoch, current slab, other slab (R238 to R240), the coefficients of the running step (R245: t, and clip in FP64), the
units' norm accumulators, whether a unit found a non-finite value in the step, the segments being written, whether
the step has refreshed a block, and the rule 2 work that waits for its whole block to be staged (R244). -/
structure UpdSt where
  epoch : Nat := 0
  slabB : Bool := false
  shadow : Shadow := .stale
  shadowStep : Nat := 0
  t : Nat := 0
  clip : DWord := 0
  norms : Regs := []
  nfStep : Bool := false
  segs : List (Nat × UpdSeg) := []
  refreshed : Bool := false
  waiting : List (Nat × Nat × UpdWork) := []
deriving DecidableEq, Repr

/-! ## Cloister (12) -/

/-- A Class S vector as a frame carries it: its elements, and whether a node marked it incomplete (R270, R271). -/
structure SVec where
  data : List DWord
  incomplete : Bool
deriving DecidableEq, Repr

/-- A Class S reduction of a plot at this node: the module's own contributions by contributor, whether the combination has gone up,
how many reductions of the plot are over in this step, the tick in which the latest one ended, its result. -/
structure SRed where
  own : List (Nat × List DWord) := []
  sent : Bool := false
  round : Nat := 0
  closedAt : Option Nat := none
  result : Option (List DWord) := none
deriving DecidableEq, Repr

/-- A digest state: blocks and vectors absorbed, and their bytes (R263). -/
structure DigestSt where
  count : Nat := 0
  bytes : List Byte := []
deriving DecidableEq, Repr

/-- Operands that arrived from a ring, by plot·2^32 + sequence number, with 1 + their place in the port's stream (R265); Class S
reductions by plot; digest states by (plot·16 + port)·2 + direction; blocks and vectors that have arrived on a port, and the vectors
not yet combined, by plot·16 + port; vectors of the next step from a peer whose edge came earlier, likewise (R309). -/
structure CloSt where
  ops : Counts := []
  sums : List (Nat × SRed) := []
  digests : List (Nat × DigestSt) := []
  taken : Counts := []
  vecs : List (Nat × List SVec) := []
  early : List (Nat × List SVec) := []
deriving DecidableEq, Repr

/-! ## Segments in staging (05, 06) -/

/-- A segment in its staging buffer (R111 to R113): its staging place, the core that drained or staged tile 0, the tiles so far, and
the first non-finite element. -/
structure Staged where
  staging : Nat
  runAhead : List Nat
  core : Nat
  tiles : Nat
  nf : Option Nat
deriving DecidableEq, Repr

/-- A layer instance (R127, R132, R133): its totals over the segments released, whether it took its layer resole, and
whether its decision is final. -/
structure LayerTot where
  sat : Nat := 0
  zero : Nat := 0
  count : Nat := 0
  resoled : Bool := false
  final : Bool := false
deriving DecidableEq, Repr

/-- Staging and conversion: staged segments by tensor·2^32 + segment, counts charged by rotated feeders (R121, R125),
layer instances, segments held by run-ahead, layer instances that wait for the Class S reduction of R135 (with the core of their
last segment), the cores' stochastic generators (R98), and the rung at which each segment was last written (R131), with the same key. -/
structure SegSt where
  staged : List (Nat × Staged) := []
  charges : Counts := []
  layers : List (Nat × LayerTot) := []
  waiting : List ConvOp := []
  spread : List (Nat × ConvOp) := []
  gens : Regs := []
  rungs : Counts := []
deriving DecidableEq, Repr

/-! ## Matrix engines (07) -/

/-- One element as a feeder sends it to the cells: its value without scales, its block and segment scale, the value and
index of an eyelet that stands in for it, and its FP32 value when the product runs in a 16-bit format. -/
structure Cell where
  val : Int
  exp : Int
  sm : Nat
  se : Int
  ey : Option (Nat × Word)
  wide : Option Word
deriving DecidableEq, Repr

/-- A held block: the product's format and reduction length, the reduction elements it holds (the first, and how many), the cells by
reduction position and column, the rotation that its product runs under, and whether a rotated window in it was not finite. -/
structure HeldBlock where
  fmt : Fmt
  length : Nat
  first : Nat
  depth : Nat
  cells : List (List Cell)
  rot : Option Rotation
  bad : Bool
deriving DecidableEq, Repr

/-- The engines' stores (R146): held banks by engine·2 + bank, the bank in use, drain tile halves by engine·16384 +
half·8192 + row·64 + column, accumulators by engine·8192 + row·64 + column, gathered tiles leaving by the drain, tiles of
the matrix-vector path by (core·2^20 + tile)·8192 + row·64 + column with the operand buffer by core (R161), the tile halves that a
non-finite rotated window fed, and log2 n of the rotation that fed a tile half, plus 1 (R120). A self-test overwrites the held
store, the accumulators and the tile buffer with values that no rule states (R163): `bankSeed`, `accSeed` and `tileSeed` number the
free values that then stand there, 0 for none (log 45). `resetSince` says that a reset has come since ME_FAIL last changed. -/
structure MatrixSt where
  banks : List (Nat × HeldBlock) := []
  bank : Counts := []
  tile : Words := []
  acc : Words := []
  leaving : Words := []
  thin : Words := []
  operand : List (Nat × List (List Cell)) := []
  flagged : Counts := []
  rotated : Counts := []
  bankSeed : Nat := 0
  accSeed : Nat := 0
  tileSeed : Nat := 0
  resetSince : Bool := false
deriving DecidableEq, Repr

/-! ## Vector engines (08) -/

/-- Registers by core·4096 + n·128 + lane, masks by core·8 + k, tile buffers by ((core·4 + b)·128 + vector)·128 + lane,
ready counts by core·64 + i, the vectors since each arg accumulator started, by core·32 + register, and the chains that wait on
a core for a ready count, in issue order (R172). -/
structure VectorSt where
  regs : Words := []
  masks : List (Nat × BitVec 256) := []
  bufs : Words := []
  ready : Counts := []
  since : Counts := []
  waiting : List (Nat × List VeIssue) := []
deriving DecidableEq, Repr

/-! ## Trellis (09) -/

/-- The dynamic arbiter of one output (R202): the class it visits and the grants taken there, each class's next port,
the grants that passed each requester over, and the promoted requesters in order. -/
structure Arbiter where
  cls : Nat := 0
  taken : Nat := 0
  ports : Counts := []
  passed : Counts := []
  promoted : List TrlReq := []
deriving DecidableEq, Repr

/-- Arbiters by router·8 + port, the failures in a row of the flit on each seam link, by die·2 + link, and the slot table
that the routers have loaded (R199). -/
structure TrellisSt where
  arbs : List (Nat × Arbiter) := []
  fails : Counts := []
  table : Nat := 0
deriving DecidableEq, Repr

/-! ## Pyurn (13) -/

/-- A Pyurn port (R275 to R291): state as PYU_PORT shows it, width, locked physical lanes, lane map in force since the
last training, partner; next SEQ to send and last good SEQ received; the replay buffer, oldest first, each frame with its
replays, and the place a replay has reached; whether NAK is being sent; credits to return; beacon message in progress and
those waiting; the lane adapted next; the generator of its calibration sequence, 0 before its first frame (R289). -/
structure Port where
  st : Nat := 0
  width : Nat := 0
  locked : BitVec 8 := 0
  map : Word := 0
  aligned : Bool := false
  peerId : DWord := 0
  peerPort : Nat := 0
  known : Bool := false
  txSeq : Nat := 0
  rxSeq : Nat := 4095
  sent : List (Frame × Nat) := []
  cursor : Option Nat := none
  asking : Bool := false
  returns : List (Nat × Nat) := []
  beacon : Nat := 0
  beacons : List Nat := []
  lane : Nat := 0
  prbs : Nat := 0
deriving DecidableEq, Repr

/-- What an exchange plot has delivered in this step: the filled slots of each expert held here, and bytes of records. -/
structure XchIn where
  counts : List Nat := []
  bytes : Nat := 0
deriving DecidableEq, Repr

/-- One end of a plot's stream at a port (R278, R281, R303): data frames sent or received in this step, those of the next step that
a peer with an earlier edge has sent, credits spent or frames occupied, the buffer slot of each frame received, of either step, and
the vectors that passed. -/
structure LinkEnd where
  frames : Nat := 0
  early : Nat := 0
  used : Nat := 0
  slots : List Nat := []
  earlySlots : List Nat := []
  vecs : Nat := 0
deriving DecidableEq, Repr

/-- What the Cloister has for a plot's stream at a port (R265, R279): blocks that wait for their turn, by place in the compiled order,
the place of the next one, bytes in order, whether the stream ends with them, and Class S vectors, each for a frame of its own. -/
structure TxStream where
  wait : List (Nat × WireBlock) := []
  next : Nat := 0
  bytes : List Byte := []
  ended : Bool := false
  vecs : List (List Byte) := []
deriving DecidableEq, Repr

/-- The sixteen ports, the exchange plots that are receiving, the ends of plots' streams by (plot·16 + port)·2 + direction (0 sent, 1
received), the streams to send by plot·16 + port, and the occupancy frames sent of an exchange, by plot: 4·(its start + 1) + their
number (R296). -/
structure PyurnSt where
  ports : List (Nat × Port) := []
  xch : List (Nat × XchIn) := []
  ends : List (Nat × LinkEnd) := []
  tx : List (Nat × TxStream) := []
  occ : Counts := []
deriving DecidableEq, Repr

/-! ## Power (16) -/

/-- The power controller (R345 to R356), which no register shows: core frequencies above 2,400 MHz in steps of 25, cores
held for temperature, cores in droop, the cap in force and the one waiting for the edge, the correction factor k as a
fraction, the run of divergent ticks (first tick, length, worst ratio as a fraction), the divergent ticks counted toward the
stale mark, the mark, and park. -/
structure PowerSt where
  freq : Counts := []
  hot : BitVec 128 := 0
  droop : BitVec 128 := 0
  cap : Nat := 2300
  capNext : Option Nat := none
  kNum : Nat := 1
  kDen : Nat := 1
  runFirst : Nat := 0
  runLen : Nat := 0
  streak : Nat := 0
  worst : Nat × Nat := (1, 1)
  stale : Bool := false
  parked : Bool := false
deriving DecidableEq, Repr

/-! ## Power states (17) -/

/-- The module's power states (R361). -/
inductive PState where
  | a0 | a1 | a2 | a3
deriving DecidableEq, Repr

/-- The Lodge and the power state (R360 to R376): the entry in progress, the wake step in progress (0 none), whether a wake
event was latched during the entry, whether a Pyurn event was recorded, the latest held request, the functions that woke on
demand, the last two samples, the consecutive samples beyond each limit by sensor number, the consecutive samples with every
limit clear, the powered times of the trips of the last hour, whether a request asked for the entry in progress, and the
dynamic address (R379). -/
structure LodgeSt where
  ps : PState := .a0
  entering : Option PState := none
  waking : Nat := 0
  latched : Bool := false
  pyuSeen : Bool := false
  held : Option PState := none
  onDemand : List OnDemand := []
  samples : List Samples := []
  beyond : Counts := []
  clear : Nat := 0
  trips : List Nat := []
  asked : Bool := false
  address : Option (BitVec 7) := none
deriving DecidableEq, Repr

/-! ## Security (18) -/

/-- The states of a firmware update (R385, DSP0267). -/
inductive PldmState where
  | idle | learn | ready | download | verify | apply
deriving DecidableEq, Repr

/-- How far an SPDM exchange has come (R389, DSP0274). -/
inductive SpdmState where
  | none | version | capabilities | algorithms
deriving DecidableEq, Repr

/-- Firmware update and attestation: the update's state, the component's length and whether the bank passed, the bytes
written to the boot banks (bank · 2^26 + offset), and the SPDM state with the algorithms selected. -/
structure SecSt where
  pldm : PldmState := .idle
  length : Nat := 0
  passed : Bool := false
  banks : Bytes := []
  spdm : SpdmState := .none
  asym : Bool := false
  hash : Bool := false
deriving DecidableEq, Repr

/-- An answer of the Lodge over MCTP (R373, R380, R385, R403). -/
inductive MctpAnswer where
  | control
  | identity (moduleId : DWord) (part : Nat) (rom : DWord) (status digest : Nat)
  | vendor (command : Nat) (data : List Byte)
  | pldm (code : Nat) (fields : List Nat)
deriving DecidableEq, Repr

/-! ## What leaves the module -/

/-- What the module sends: to the host (ring records and DMA writes, MSI-X, completions of reads, link reports), to its
peers, and over the management path. The newest is last in `State.out`. -/
inductive Output where
  | hostWrite (addr : Nat) (data : List Byte)
  | msix (vector : Nat)
  | readData (data : List Byte)
  | hostFetch (addr length : Nat)
  | unsupported
  | aer (severity : Nat)
  | completerAbort
  | retryStatus
  | configData (data : Word)
  | deviceReady
  | functionReady
  | startExchange (peer : Nat) (msg : ExchangeMsg)
  | startUp (parent covered : Nat)
  | startDown (child : Nat)
  | beaconUp (parent : Nat) (msg : Beacon)
  | beaconDown (child : Nat) (msg : Beacon)
  | decision (child : Nat) (d : Decision)
  | frame (port : Nat) (f : Frame)
  | training (port : Nat)
  | wakePattern (port : Nat)
  | fetched (data : List Byte)
  | mctp (a : MctpAnswer)
  | hotJoin
  | release (unit stile : Nat)
deriving DecidableEq, Repr

end Sys2Proof.Machine
end

