-- ==== Sys2Proof/Machine/RegMap.lean ====
section
/-! DEFINITION. The register map: the BAR0 offset of every register (block bases of R421, offsets of the block
tables), and one row per register with its width and the bits a host write may reach. -/

namespace Sys2Proof

/-- LAST_CTRL, 32 bits, WO (R54). -/
abbrev Reg.LAST_CTRL : Nat := 0x10000
/-- LAST_STATE, 32 bits, RO (R54). -/
abbrev Reg.LAST_STATE : Nat := 0x10004
/-- LAST_SRC, 64 bits, RW (R54). -/
abbrev Reg.LAST_SRC : Nat := 0x10008
/-- LAST_LEN, 32 bits, RW (R54). -/
abbrev Reg.LAST_LEN : Nat := 0x10010
/-- LAST_PROGRESS, 32 bits, RO (R54). -/
abbrev Reg.LAST_PROGRESS : Nat := 0x10014
/-- LAST_IMAGE_ID, 64 bits, RO (R54). -/
abbrev Reg.LAST_IMAGE_ID : Nat := 0x10018
/-- LAST_JOB_ID, 64 bits, RO (R54). -/
abbrev Reg.LAST_JOB_ID : Nat := 0x10020
/-- LAST_RANK, 32 bits, RO (R54). -/
abbrev Reg.LAST_RANK : Nat := 0x10028
/-- LAST_TICK_PERIOD, 32 bits, RO (R54). -/
abbrev Reg.LAST_TICK_PERIOD : Nat := 0x1002C
/-- LAST_POSITION, 32 bits, RO (R54). -/
abbrev Reg.LAST_POSITION : Nat := 0x10030
/-- LAST_ERR_OFFSET, 32 bits, RO (R54). -/
abbrev Reg.LAST_ERR_OFFSET : Nat := 0x10034
/-- LAST_EVENT, 32 bits, W1C (R54). -/
abbrev Reg.LAST_EVENT : Nat := 0x10038
/-- LAST_KEY, 32 bits, RO (R54). -/
abbrev Reg.LAST_KEY : Nat := 0x1003C
/-- LAST_DIGEST0–LAST_DIGEST15, 32 bits, RO, 16 of them every 0x4 bytes (R54). -/
abbrev Reg.LAST_DIGEST : Nat := 0x10040
/-- TICK_CTRL, 32 bits, RW (R77). -/
abbrev Reg.TICK_CTRL : Nat := 0x20000
/-- TICK_STATE, 32 bits, RO (R77). -/
abbrev Reg.TICK_STATE : Nat := 0x20004
/-- TICK_NOW, 64 bits, RO (R77). -/
abbrev Reg.TICK_NOW : Nat := 0x20008
/-- TICK_PERIOD_CYCLES, 32 bits, RO (R77). -/
abbrev Reg.TICK_PERIOD_CYCLES : Nat := 0x20010
/-- TICK_RESERVE, 32 bits, RO (R77). -/
abbrev Reg.TICK_RESERVE : Nat := 0x20014
/-- TICK_MAINT, 32 bits, RO (R77). -/
abbrev Reg.TICK_MAINT : Nat := 0x20018
/-- TICK_STEP_LEN, 32 bits, RO (R77). -/
abbrev Reg.TICK_STEP_LEN : Nat := 0x2001C
/-- TICK_SLIP, 64 bits, RO (R77). -/
abbrev Reg.TICK_SLIP : Nat := 0x20020
/-- TICK_LATE_MAX, 32 bits, RO (R77). -/
abbrev Reg.TICK_LATE_MAX : Nat := 0x20028
/-- TICK_LATE_COUNT, 32 bits, RO (R77). -/
abbrev Reg.TICK_LATE_COUNT : Nat := 0x2002C
/-- TICK_SLACK_MIN, 32 bits, RO (R77). -/
abbrev Reg.TICK_SLACK_MIN : Nat := 0x20030
/-- TICK_RESOLE_PEAK, 32 bits, RO (R77). -/
abbrev Reg.TICK_RESOLE_PEAK : Nat := 0x20034
/-- TICK_EVENT, 32 bits, W1C (R77). -/
abbrev Reg.TICK_EVENT : Nat := 0x20038
/-- ADM_TKT_STEP, 64 bits, RW (R78). -/
abbrev Reg.ADM_TKT_STEP : Nat := 0x30000
/-- ADM_TKT_SLOT, 64 bits, RW (R78). -/
abbrev Reg.ADM_TKT_SLOT : Nat := 0x30008
/-- ADM_TKT_IMAGE, 64 bits, RW (R78). -/
abbrev Reg.ADM_TKT_IMAGE : Nat := 0x30010
/-- ADM_TKT_INPUT, 64 bits, RW (R78). -/
abbrev Reg.ADM_TKT_INPUT : Nat := 0x30018
/-- ADM_TKT_TAG, 64 bits, RW (R78). -/
abbrev Reg.ADM_TKT_TAG : Nat := 0x30020
/-- ADM_TKT_INLEN, 32 bits, RW (R78). -/
abbrev Reg.ADM_TKT_INLEN : Nat := 0x30028
/-- ADM_TKT_PLOTS, 32 bits, RW (R78). -/
abbrev Reg.ADM_TKT_PLOTS : Nat := 0x3002C
/-- ADM_DOORBELL, 32 bits, WO (R78). -/
abbrev Reg.ADM_DOORBELL : Nat := 0x30030
/-- ADM_ANSWER, 32 bits, RO (R78). -/
abbrev Reg.ADM_ANSWER : Nat := 0x30034
/-- ADM_ANS_SLOT, 64 bits, RO (R78). -/
abbrev Reg.ADM_ANS_SLOT : Nat := 0x30038
/-- ADM_ANS_DEADLINE, 64 bits, RO (R78). -/
abbrev Reg.ADM_ANS_DEADLINE : Nat := 0x30040
/-- ADM_ANS_TAG, 64 bits, RO (R78). -/
abbrev Reg.ADM_ANS_TAG : Nat := 0x30048
/-- ADM_GATE, 32 bits, RO (R78). -/
abbrev Reg.ADM_GATE : Nat := 0x30050
/-- ADM_QUEUE, 32 bits, RO (R78). -/
abbrev Reg.ADM_QUEUE : Nat := 0x30054
/-- ADM_DONE_TAG, 64 bits, RO (R78). -/
abbrev Reg.ADM_DONE_TAG : Nat := 0x30058
/-- ADM_DONE_STEP, 64 bits, RO (R78). -/
abbrev Reg.ADM_DONE_STEP : Nat := 0x30060
/-- ADM_DONE_STATUS, 32 bits, RO (R78). -/
abbrev Reg.ADM_DONE_STATUS : Nat := 0x30068
/-- ADM_DONE_POP, 32 bits, WO (R78). -/
abbrev Reg.ADM_DONE_POP : Nat := 0x3006C
/-- ADM_EVENT, 32 bits, W1C (R78). -/
abbrev Reg.ADM_EVENT : Nat := 0x30070
/-- ADM_ACCEPT_COUNT, 32 bits, RO (R78). -/
abbrev Reg.ADM_ACCEPT_COUNT : Nat := 0x30074
/-- ADM_REFUSE1–ADM_REFUSE6, 32 bits, RO, 6 of them every 0x4 bytes (R78). -/
abbrev Reg.ADM_REFUSE : Nat := 0x30080
/-- FMT_CTRL, 32 bits, WO (R104). -/
abbrev Reg.FMT_CTRL : Nat := 0x40000
/-- FMT_STICKY, 32 bits, W1C (R104). -/
abbrev Reg.FMT_STICKY : Nat := 0x40004
/-- FMT_SAT_COUNT, 64 bits, RO (R104). -/
abbrev Reg.FMT_SAT_COUNT : Nat := 0x40008
/-- FMT_FLUSH_COUNT, 64 bits, RO (R104). -/
abbrev Reg.FMT_FLUSH_COUNT : Nat := 0x40010
/-- FMT_NF_COUNT, 32 bits, RO (R104). -/
abbrev Reg.FMT_NF_COUNT : Nat := 0x40018
/-- FMT_ORPHAN_COUNT, 32 bits, RO (R104). -/
abbrev Reg.FMT_ORPHAN_COUNT : Nat := 0x4001C
/-- FMT_NF_WHERE, 32 bits, RO (R104). -/
abbrev Reg.FMT_NF_WHERE : Nat := 0x40020
/-- FMT_NF_TENSOR, 32 bits, RO (R104). -/
abbrev Reg.FMT_NF_TENSOR : Nat := 0x40024
/-- FMT_NF_TILE, 32 bits, RO (R104). -/
abbrev Reg.FMT_NF_TILE : Nat := 0x40028
/-- FMT_NF_BITS, 32 bits, RO (R104). -/
abbrev Reg.FMT_NF_BITS : Nat := 0x4002C
/-- FMT_NF_TICK, 64 bits, RO (R104). -/
abbrev Reg.FMT_NF_TICK : Nat := 0x40030
/-- QNT_CTRL, 32 bits, WO (R124). -/
abbrev Reg.QNT_CTRL : Nat := 0x50000
/-- QNT_STICKY, 32 bits, W1C (R124). -/
abbrev Reg.QNT_STICKY : Nat := 0x50004
/-- QNT_SEG_COUNT, 64 bits, RO (R124). -/
abbrev Reg.QNT_SEG_COUNT : Nat := 0x50008
/-- QNT_EYELET_OUTLIER, 64 bits, RO (R124). -/
abbrev Reg.QNT_EYELET_OUTLIER : Nat := 0x50010
/-- QNT_EYELET_SPECIAL, 32 bits, RO (R124). -/
abbrev Reg.QNT_EYELET_SPECIAL : Nat := 0x50018
/-- QNT_BUDGET_OUT_COUNT, 32 bits, RO (R124). -/
abbrev Reg.QNT_BUDGET_OUT_COUNT : Nat := 0x5001C
/-- QNT_DOMINANT_COUNT, 64 bits, RO (R124). -/
abbrev Reg.QNT_DOMINANT_COUNT : Nat := 0x50020
/-- QNT_ZERO_BLOCK_COUNT, 64 bits, RO (R124). -/
abbrev Reg.QNT_ZERO_BLOCK_COUNT : Nat := 0x50028
/-- QNT_ROT_WINDOWS, 64 bits, RO (R124). -/
abbrev Reg.QNT_ROT_WINDOWS : Nat := 0x50030
/-- QNT_OUT_TENSOR, 32 bits, RO (R124). -/
abbrev Reg.QNT_OUT_TENSOR : Nat := 0x50038
/-- QNT_OUT_SEGMENT, 32 bits, RO (R124). -/
abbrev Reg.QNT_OUT_SEGMENT : Nat := 0x5003C
/-- QNT_OUT_TICK, 64 bits, RO (R124). -/
abbrev Reg.QNT_OUT_TICK : Nat := 0x50040
/-- QNT_RESOLE_OUT, 64 bits, RO (R145). -/
abbrev Reg.QNT_RESOLE_OUT : Nat := 0x50100
/-- QNT_RESOLE_LAYER, 64 bits, RO (R145). -/
abbrev Reg.QNT_RESOLE_LAYER : Nat := 0x50108
/-- QNT_RESOLE_DENIED, 32 bits, RO (R145). -/
abbrev Reg.QNT_RESOLE_DENIED : Nat := 0x50110
/-- QNT_RESOLE_SUPPRESSED, 32 bits, RO (R145). -/
abbrev Reg.QNT_RESOLE_SUPPRESSED : Nat := 0x50114
/-- QNT_TOP_CROSS, 32 bits, RO (R145). -/
abbrev Reg.QNT_TOP_CROSS : Nat := 0x50118
/-- QNT_SPOIL_COUNT, 32 bits, RO (R145). -/
abbrev Reg.QNT_SPOIL_COUNT : Nat := 0x5011C
/-- QNT_SPOIL_CAUSES, 32 bits, W1C (R145). -/
abbrev Reg.QNT_SPOIL_CAUSES : Nat := 0x50120
/-- QNT_SPOIL_LAST, 32 bits, RO (R145). -/
abbrev Reg.QNT_SPOIL_LAST : Nat := 0x50124
/-- QNT_SPOIL_TICK, 64 bits, RO (R145). -/
abbrev Reg.QNT_SPOIL_TICK : Nat := 0x50128
/-- QNT_RAISED, 64 bits, RO (R145). -/
abbrev Reg.QNT_RAISED : Nat := 0x50130
/-- QNT_RUN_MASK, 64 bits, RO (R145). -/
abbrev Reg.QNT_RUN_MASK : Nat := 0x50138
/-- QNT_AFFECTED, 64 bits, RO (R145). -/
abbrev Reg.QNT_AFFECTED : Nat := 0x50140
/-- QNT_GROUP_SEL, 32 bits, RW (R145). -/
abbrev Reg.QNT_GROUP_SEL : Nat := 0x50148
/-- QNT_GROUP_STATE, 32 bits, RO (R145). -/
abbrev Reg.QNT_GROUP_STATE : Nat := 0x5014C
/-- QNT_THR_SEL, 32 bits, RW (R145). -/
abbrev Reg.QNT_THR_SEL : Nat := 0x50150
/-- QNT_THR_SEG, 32 bits, RO (R145). -/
abbrev Reg.QNT_THR_SEG : Nat := 0x50154
/-- QNT_THR_BLOCK, 32 bits, RO (R145). -/
abbrev Reg.QNT_THR_BLOCK : Nat := 0x50158
/-- QNT_THR_LAYER, 32 bits, RO (R145). -/
abbrev Reg.QNT_THR_LAYER : Nat := 0x5015C
/-- QNT_STAT_CTRL, 32 bits, WO (R145). -/
abbrev Reg.QNT_STAT_CTRL : Nat := 0x50160
/-- ME_TEST_CTRL, 32 bits, RW (R164). -/
abbrev Reg.ME_TEST_CTRL : Nat := 0x60000
/-- ME_SEL, 32 bits, RW (R164). -/
abbrev Reg.ME_SEL : Nat := 0x60004
/-- ME_SPARES, 32 bits, RO (R164). -/
abbrev Reg.ME_SPARES : Nat := 0x60008
/-- ME_PASSES, 64 bits, RO (R164). -/
abbrev Reg.ME_PASSES : Nat := 0x60010
/-- ME_STALL_ROW, 64 bits, RO (R164). -/
abbrev Reg.ME_STALL_ROW : Nat := 0x60018
/-- ME_STALL_COL, 64 bits, RO (R164). -/
abbrev Reg.ME_STALL_COL : Nat := 0x60020
/-- ME_STALL_CORR, 64 bits, RO (R164). -/
abbrev Reg.ME_STALL_CORR : Nat := 0x60028
/-- ME_MV_PRODUCTS, 64 bits, RO (R164). -/
abbrev Reg.ME_MV_PRODUCTS : Nat := 0x60030
/-- ME_LAG_MAX, 32 bits, RO (R164). -/
abbrev Reg.ME_LAG_MAX : Nat := 0x60038
/-- ME_EVENT, 32 bits, W1C (R164). -/
abbrev Reg.ME_EVENT : Nat := 0x6003C
/-- ME_STAT_CTRL, 32 bits, WO (R164). -/
abbrev Reg.ME_STAT_CTRL : Nat := 0x60040
/-- ME_FAIL0–ME_FAIL15, 32 bits, RO, 16 of them every 0x4 bytes (R164). -/
abbrev Reg.ME_FAIL : Nat := 0x60080
/-- VE_TEST_CTRL, 32 bits, RW (R191). -/
abbrev Reg.VE_TEST_CTRL : Nat := 0x70000
/-- VE_SEL, 32 bits, RW (R191). -/
abbrev Reg.VE_SEL : Nat := 0x70004
/-- VE_FLAGS, 32 bits, W1C (R191). -/
abbrev Reg.VE_FLAGS : Nat := 0x70008
/-- VE_FLAGS_ANY, 32 bits, RO (R191). -/
abbrev Reg.VE_FLAGS_ANY : Nat := 0x7000C
/-- VE_CHAINS, 64 bits, RO (R191). -/
abbrev Reg.VE_CHAINS : Nat := 0x70010
/-- VE_STALL, 64 bits, RO (R191). -/
abbrev Reg.VE_STALL : Nat := 0x70018
/-- VE_WAIT, 64 bits, RO (R191). -/
abbrev Reg.VE_WAIT : Nat := 0x70020
/-- VE_TILEBUF, 64 bits, RO (R191). -/
abbrev Reg.VE_TILEBUF : Nat := 0x70028
/-- VE_DRAWS, 64 bits, RO (R191). -/
abbrev Reg.VE_DRAWS : Nat := 0x70030
/-- VE_EVENT, 32 bits, W1C (R191). -/
abbrev Reg.VE_EVENT : Nat := 0x70038
/-- VE_STAT_CTRL, 32 bits, WO (R191). -/
abbrev Reg.VE_STAT_CTRL : Nat := 0x7003C
/-- VE_FAIL0–VE_FAIL3, 32 bits, RO, 4 of them every 0x4 bytes (R191). -/
abbrev Reg.VE_FAIL : Nat := 0x70040
/-- TRL_STATE, 32 bits, RO (R212). -/
abbrev Reg.TRL_STATE : Nat := 0x80000
/-- TRL_WEIGHTS, 32 bits, RO (R212). -/
abbrev Reg.TRL_WEIGHTS : Nat := 0x80004
/-- TRL_SEL, 32 bits, RW (R212). -/
abbrev Reg.TRL_SEL : Nat := 0x80008
/-- TRL_RESV, 32 bits, RO (R212). -/
abbrev Reg.TRL_RESV : Nat := 0x8000C
/-- TRL_DYN_GRANTS, 64 bits, RO (R212). -/
abbrev Reg.TRL_DYN_GRANTS : Nat := 0x80010
/-- TRL_SLOT_REUSE, 64 bits, RO (R212). -/
abbrev Reg.TRL_SLOT_REUSE : Nat := 0x80018
/-- TRL_PROMOTIONS, 64 bits, RO (R212). -/
abbrev Reg.TRL_PROMOTIONS : Nat := 0x80020
/-- TRL_WAIT_MAX, 32 bits, RO (R212). -/
abbrev Reg.TRL_WAIT_MAX : Nat := 0x80028
/-- TRL_SEAM_REPLAY, 32 bits, RO (R212). -/
abbrev Reg.TRL_SEAM_REPLAY : Nat := 0x8002C
/-- TRL_SPAD_PROMOTE, 64 bits, RO (R212). -/
abbrev Reg.TRL_SPAD_PROMOTE : Nat := 0x80030
/-- TRL_EVENT, 32 bits, W1C (R212). -/
abbrev Reg.TRL_EVENT : Nat := 0x80038
/-- TRL_STAT_CTRL, 32 bits, WO (R212). -/
abbrev Reg.TRL_STAT_CTRL : Nat := 0x8003C
/-- MEM_STATE, 32 bits, RO (R236). -/
abbrev Reg.MEM_STATE : Nat := 0x90000
/-- MEM_THERM_CFG, 32 bits, PW (R236). -/
abbrev Reg.MEM_THERM_CFG : Nat := 0x90004
/-- MEM_SUSPECT_CFG, 32 bits, PW (R236). -/
abbrev Reg.MEM_SUSPECT_CFG : Nat := 0x90008
/-- MEM_SEL, 32 bits, RW (R236). -/
abbrev Reg.MEM_SEL : Nat := 0x9000C
/-- MEM_MAP0–MEM_MAP7, 32 bits, PW, 8 of them every 0x4 bytes (R236). -/
abbrev Reg.MEM_MAP : Nat := 0x90010
/-- MEM_INSERVICE0–MEM_INSERVICE7, 32 bits, RO, 8 of them every 0x4 bytes (R236). -/
abbrev Reg.MEM_INSERVICE : Nat := 0x90030
/-- MEM_SUSPECT0–MEM_SUSPECT7, 32 bits, W1C, 8 of them every 0x4 bytes (R236). -/
abbrev Reg.MEM_SUSPECT : Nat := 0x90050
/-- MEM_CE_COUNT, 64 bits, RO (R236). -/
abbrev Reg.MEM_CE_COUNT : Nat := 0x90070
/-- MEM_UE_COUNT, 32 bits, RO (R236). -/
abbrev Reg.MEM_UE_COUNT : Nat := 0x90078
/-- MEM_RETRY_COUNT, 32 bits, RO (R236). -/
abbrev Reg.MEM_RETRY_COUNT : Nat := 0x9007C
/-- MEM_UE_ADDR, 64 bits, RO (R236). -/
abbrev Reg.MEM_UE_ADDR : Nat := 0x90080
/-- MEM_UE_TICK, 64 bits, RO (R236). -/
abbrev Reg.MEM_UE_TICK : Nat := 0x90088
/-- MEM_UE_INFO, 32 bits, RO (R236). -/
abbrev Reg.MEM_UE_INFO : Nat := 0x90090
/-- MEM_TEMP0, 32 bits, RO (R236). -/
abbrev Reg.MEM_TEMP0 : Nat := 0x90094
/-- MEM_TEMP1, 32 bits, RO (R236). -/
abbrev Reg.MEM_TEMP1 : Nat := 0x90098
/-- MEM_THROTTLE0–MEM_THROTTLE3, 32 bits, RO, 4 of them every 0x4 bytes (R236). -/
abbrev Reg.MEM_THROTTLE : Nat := 0x9009C
/-- MEM_HEADROOM, 32 bits, RO (R236). -/
abbrev Reg.MEM_HEADROOM : Nat := 0x900AC
/-- MEM_WCB_EVICT, 64 bits, RO (R236). -/
abbrev Reg.MEM_WCB_EVICT : Nat := 0x900B0
/-- MEM_ATOMICS, 64 bits, RO (R236). -/
abbrev Reg.MEM_ATOMICS : Nat := 0x900B8
/-- MEM_WB_DROP, 32 bits, RO (R236). -/
abbrev Reg.MEM_WB_DROP : Nat := 0x900C0
/-- MEM_TEST_CTRL, 32 bits, RW (R236). -/
abbrev Reg.MEM_TEST_CTRL : Nat := 0x900C4
/-- MEM_SCAN_CTRL, 32 bits, RW (R236). -/
abbrev Reg.MEM_SCAN_CTRL : Nat := 0x900C8
/-- MEM_SCAN_RESULT, 32 bits, RO (R236). -/
abbrev Reg.MEM_SCAN_RESULT : Nat := 0x900CC
/-- MEM_EVENT, 32 bits, W1C (R236). -/
abbrev Reg.MEM_EVENT : Nat := 0x900D0
/-- MEM_STAT_CTRL, 32 bits, WO (R236). -/
abbrev Reg.MEM_STAT_CTRL : Nat := 0x900D4
/-- UPD_STATE, 32 bits, RO (R254). -/
abbrev Reg.UPD_STATE : Nat := 0xA0000
/-- UPD_CFG, 32 bits, RO (R254). -/
abbrev Reg.UPD_CFG : Nat := 0xA0004
/-- UPD_EPOCH, 64 bits, RO (R254). -/
abbrev Reg.UPD_EPOCH : Nat := 0xA0008
/-- UPD_SHADOW_STEP, 64 bits, RO (R254). -/
abbrev Reg.UPD_SHADOW_STEP : Nat := 0xA0010
/-- UPD_T, 64 bits, RO (R254). -/
abbrev Reg.UPD_T : Nat := 0xA0018
/-- UPD_LR, 32 bits, RO (R254). -/
abbrev Reg.UPD_LR : Nat := 0xA0020
/-- UPD_CLIP, 32 bits, RO (R254). -/
abbrev Reg.UPD_CLIP : Nat := 0xA0024
/-- UPD_GNORM, 32 bits, RO (R254). -/
abbrev Reg.UPD_GNORM : Nat := 0xA0028
/-- UPD_NS_RESID, 32 bits, RO (R254). -/
abbrev Reg.UPD_NS_RESID : Nat := 0xA002C
/-- UPD_PARAMS, 64 bits, RO (R254). -/
abbrev Reg.UPD_PARAMS : Nat := 0xA0030
/-- UPD_FROZEN_DROPS, 32 bits, RO (R254). -/
abbrev Reg.UPD_FROZEN_DROPS : Nat := 0xA0038
/-- UPD_NF_COUNT, 32 bits, RO (R254). -/
abbrev Reg.UPD_NF_COUNT : Nat := 0xA003C
/-- UPD_NF_TENSOR, 32 bits, RO (R254). -/
abbrev Reg.UPD_NF_TENSOR : Nat := 0xA0040
/-- UPD_REFRESHED, 32 bits, RO (R254). -/
abbrev Reg.UPD_REFRESHED : Nat := 0xA0044
/-- UPD_STICKY, 32 bits, W1C (R254). -/
abbrev Reg.UPD_STICKY : Nat := 0xA0048
/-- UPD_EVENT, 32 bits, W1C (R254). -/
abbrev Reg.UPD_EVENT : Nat := 0xA004C
/-- UPD_STAT_CTRL, 32 bits, WO (R254). -/
abbrev Reg.UPD_STAT_CTRL : Nat := 0xA0050
/-- CLO_CFG, 32 bits, RO (R273). -/
abbrev Reg.CLO_CFG : Nat := 0xB0000
/-- CLO_SEL, 32 bits, RW (R273). -/
abbrev Reg.CLO_SEL : Nat := 0xB0004
/-- CLO_RING, 32 bits, RO (R273). -/
abbrev Reg.CLO_RING : Nat := 0xB0008
/-- CLO_RING_POS, 32 bits, RO (R273). -/
abbrev Reg.CLO_RING_POS : Nat := 0xB000C
/-- CLO_BLOCKS_TX, 64 bits, RO (R273). -/
abbrev Reg.CLO_BLOCKS_TX : Nat := 0xB0010
/-- CLO_BLOCKS_RX, 64 bits, RO (R273). -/
abbrev Reg.CLO_BLOCKS_RX : Nat := 0xB0018
/-- CLO_ADDS, 64 bits, RO (R273). -/
abbrev Reg.CLO_ADDS : Nat := 0xB0020
/-- CLO_SAT_COUNT, 32 bits, RO (R273). -/
abbrev Reg.CLO_SAT_COUNT : Nat := 0xB0028
/-- CLO_RECOMPUTE, 32 bits, RO (R273). -/
abbrev Reg.CLO_RECOMPUTE : Nat := 0xB002C
/-- CLO_S_DONE, 32 bits, RO (R273). -/
abbrev Reg.CLO_S_DONE : Nat := 0xB0030
/-- CLO_S_LATE, 32 bits, RO (R273). -/
abbrev Reg.CLO_S_LATE : Nat := 0xB0034
/-- CLO_S_DROPS, 32 bits, RO (R273). -/
abbrev Reg.CLO_S_DROPS : Nat := 0xB0038
/-- CLO_S_SLACK_MIN, 32 bits, RO (R273). -/
abbrev Reg.CLO_S_SLACK_MIN : Nat := 0xB003C
/-- CLO_FAIL_INFO, 32 bits, RO (R273). -/
abbrev Reg.CLO_FAIL_INFO : Nat := 0xB0040
/-- CLO_FAIL_TICK, 64 bits, RO (R273). -/
abbrev Reg.CLO_FAIL_TICK : Nat := 0xB0048
/-- CLO_DLOG_BASE, 64 bits, RO (R273). -/
abbrev Reg.CLO_DLOG_BASE : Nat := 0xB0050
/-- CLO_DLOG_SIZE, 32 bits, RO (R273). -/
abbrev Reg.CLO_DLOG_SIZE : Nat := 0xB0058
/-- CLO_DLOG_HEAD, 32 bits, RO (R273). -/
abbrev Reg.CLO_DLOG_HEAD : Nat := 0xB005C
/-- CLO_EVENT, 32 bits, W1C (R273). -/
abbrev Reg.CLO_EVENT : Nat := 0xB0060
/-- CLO_STAT_CTRL, 32 bits, WO (R273). -/
abbrev Reg.CLO_STAT_CTRL : Nat := 0xB0064
/-- PYU_CTRL, 32 bits, WO (R298). -/
abbrev Reg.PYU_CTRL : Nat := 0xC0000
/-- PYU_SEL, 32 bits, RW (R298). -/
abbrev Reg.PYU_SEL : Nat := 0xC0004
/-- PYU_UP, 32 bits, RO (R298). -/
abbrev Reg.PYU_UP : Nat := 0xC0008
/-- PYU_PORT, 32 bits, RO (R298). -/
abbrev Reg.PYU_PORT : Nat := 0xC000C
/-- PYU_PEER_ID, 64 bits, RO (R298). -/
abbrev Reg.PYU_PEER_ID : Nat := 0xC0010
/-- PYU_FRAMES_TX, 64 bits, RO (R298). -/
abbrev Reg.PYU_FRAMES_TX : Nat := 0xC0018
/-- PYU_FRAMES_RX, 64 bits, RO (R298). -/
abbrev Reg.PYU_FRAMES_RX : Nat := 0xC0020
/-- PYU_FEC_CORR, 64 bits, RO (R298). -/
abbrev Reg.PYU_FEC_CORR : Nat := 0xC0028
/-- PYU_FEC_UNCORR, 32 bits, RO (R298). -/
abbrev Reg.PYU_FEC_UNCORR : Nat := 0xC0030
/-- PYU_REPLAYS, 32 bits, RO (R298). -/
abbrev Reg.PYU_REPLAYS : Nat := 0xC0034
/-- PYU_BEACON_MAX, 32 bits, RO (R298). -/
abbrev Reg.PYU_BEACON_MAX : Nat := 0xC0038
/-- PYU_WAKE, 32 bits, RW (R298). -/
abbrev Reg.PYU_WAKE : Nat := 0xC003C
/-- PYU_LANEMAP0–PYU_LANEMAP15, 32 bits, PW, 16 of them every 0x4 bytes (R298). -/
abbrev Reg.PYU_LANEMAP : Nat := 0xC0040
/-- PYU_XCH_ROUTED, 64 bits, RO (R298). -/
abbrev Reg.PYU_XCH_ROUTED : Nat := 0xC0080
/-- PYU_XCH_DROPS, 64 bits, RO (R298). -/
abbrev Reg.PYU_XCH_DROPS : Nat := 0xC0088
/-- PYU_XCH_BAD, 32 bits, RO (R298). -/
abbrev Reg.PYU_XCH_BAD : Nat := 0xC0090
/-- PYU_XCH_CUT, 32 bits, RO (R298). -/
abbrev Reg.PYU_XCH_CUT : Nat := 0xC0094
/-- PYU_XCH_DROP_MAX, 32 bits, RO (R298). -/
abbrev Reg.PYU_XCH_DROP_MAX : Nat := 0xC0098
/-- PYU_EVENT, 32 bits, W1C (R298). -/
abbrev Reg.PYU_EVENT : Nat := 0xC009C
/-- PYU_STAT_CTRL, 32 bits, WO (R298). -/
abbrev Reg.PYU_STAT_CTRL : Nat := 0xC00A0
/-- STL_COMMIT, 32 bits, RO (R316). -/
abbrev Reg.STL_COMMIT : Nat := 0xD0000
/-- STL_RECON_CTRL, 32 bits, RW (R316). -/
abbrev Reg.STL_RECON_CTRL : Nat := 0xD0004
/-- STL_COMMIT_STEP, 64 bits, RO (R316). -/
abbrev Reg.STL_COMMIT_STEP : Nat := 0xD0008
/-- STL_COMMIT_TICK, 64 bits, RO (R316). -/
abbrev Reg.STL_COMMIT_TICK : Nat := 0xD0010
/-- STL_RECON_STEP, 64 bits, RW (R316). -/
abbrev Reg.STL_RECON_STEP : Nat := 0xD0018
/-- STL_RECON_EPOCH, 64 bits, RW (R316). -/
abbrev Reg.STL_RECON_EPOCH : Nat := 0xD0020
/-- STL_SEL, 32 bits, RW (R316). -/
abbrev Reg.STL_SEL : Nat := 0xD0028
/-- STL_STATE, 32 bits, RO (R316). -/
abbrev Reg.STL_STATE : Nat := 0xD002C
/-- STL_RELEASES, 64 bits, RO (R316). -/
abbrev Reg.STL_RELEASES : Nat := 0xD0030
/-- STL_TIMEOUTS, 32 bits, RO (R316). -/
abbrev Reg.STL_TIMEOUTS : Nat := 0xD0038
/-- STL_OVER, 32 bits, RO (R316). -/
abbrev Reg.STL_OVER : Nat := 0xD003C
/-- STL_EVENT, 32 bits, W1C (R316). -/
abbrev Reg.STL_EVENT : Nat := 0xD0040
/-- STL_STAT_CTRL, 32 bits, WO (R316). -/
abbrev Reg.STL_STAT_CTRL : Nat := 0xD0044
/-- PLT_SEL, 32 bits, RW (R317). -/
abbrev Reg.PLT_SEL : Nat := 0xE0000
/-- PLT_STATE, 32 bits, RO (R317). -/
abbrev Reg.PLT_STATE : Nat := 0xE0004
/-- PLT_POSITION, 64 bits, RO (R317). -/
abbrev Reg.PLT_POSITION : Nat := 0xE0008
/-- PLT_USED, 64 bits, RO (R317). -/
abbrev Reg.PLT_USED : Nat := 0xE0010
/-- PLT_POOL, 32 bits, RO (R317). -/
abbrev Reg.PLT_POOL : Nat := 0xE0018
/-- PLT_CHAIN_FULL, 32 bits, RO (R317). -/
abbrev Reg.PLT_CHAIN_FULL : Nat := 0xE001C
/-- PLT_EVENT, 32 bits, W1C (R317). -/
abbrev Reg.PLT_EVENT : Nat := 0xE0020
/-- PLT_STAT_CTRL, 32 bits, WO (R317). -/
abbrev Reg.PLT_STAT_CTRL : Nat := 0xE0024
/-- PCI_LINK, 32 bits, RO (R343). -/
abbrev Reg.PCI_LINK : Nat := 0xF0000
/-- PCI_WIN_BASE, 64 bits, RW (R343). -/
abbrev Reg.PCI_WIN_BASE : Nat := 0xF0008
/-- PCI_WIN_SIZE, 32 bits, RO (R343). -/
abbrev Reg.PCI_WIN_SIZE : Nat := 0xF0010
/-- PCI_COALESCE, 32 bits, RW (R343). -/
abbrev Reg.PCI_COALESCE : Nat := 0xF0014
/-- PCI_QUEUE_CTRL, 32 bits, RW (R343). -/
abbrev Reg.PCI_QUEUE_CTRL : Nat := 0xF0018
/-- PCI_TQ_BASE, 64 bits, RW (R343). -/
abbrev Reg.PCI_TQ_BASE : Nat := 0xF0020
/-- PCI_AQ_BASE, 64 bits, RW (R343). -/
abbrev Reg.PCI_AQ_BASE : Nat := 0xF0028
/-- PCI_CQ_BASE, 64 bits, RW (R343). -/
abbrev Reg.PCI_CQ_BASE : Nat := 0xF0030
/-- PCI_TQ_TAIL, 32 bits, RW (R343). -/
abbrev Reg.PCI_TQ_TAIL : Nat := 0xF0038
/-- PCI_TQ_HEAD, 32 bits, RO (R343). -/
abbrev Reg.PCI_TQ_HEAD : Nat := 0xF003C
/-- PCI_AQ_HEAD, 32 bits, RW (R343). -/
abbrev Reg.PCI_AQ_HEAD : Nat := 0xF0040
/-- PCI_AQ_TAIL, 32 bits, RO (R343). -/
abbrev Reg.PCI_AQ_TAIL : Nat := 0xF0044
/-- PCI_CQ_HEAD, 32 bits, RW (R343). -/
abbrev Reg.PCI_CQ_HEAD : Nat := 0xF0048
/-- PCI_CQ_TAIL, 32 bits, RO (R343). -/
abbrev Reg.PCI_CQ_TAIL : Nat := 0xF004C
/-- PCI_EVENT, 32 bits, W1C (R343). -/
abbrev Reg.PCI_EVENT : Nat := 0xF0050
/-- PCI_STAT_CTRL, 32 bits, WO (R343). -/
abbrev Reg.PCI_STAT_CTRL : Nat := 0xF0054
/-- PCI_ERR_COUNT, 32 bits, RO (R343). -/
abbrev Reg.PCI_ERR_COUNT : Nat := 0xF0058
/-- PCI_BYTES_IN, 64 bits, RO (R343). -/
abbrev Reg.PCI_BYTES_IN : Nat := 0xF0060
/-- PCI_BYTES_OUT, 64 bits, RO (R343). -/
abbrev Reg.PCI_BYTES_OUT : Nat := 0xF0068
/-- PCI_DMAn_BASE, 64 bits, RW, 8 of them every 0x20 bytes (R343). -/
abbrev Reg.PCI_DMA_BASE : Nat := 0xF0100
/-- PCI_DMAn_CTRL, 32 bits, RW, 8 of them every 0x20 bytes (R343). -/
abbrev Reg.PCI_DMA_CTRL : Nat := 0xF0108
/-- PCI_DMAn_TAIL, 32 bits, RW, 8 of them every 0x20 bytes (R343). -/
abbrev Reg.PCI_DMA_TAIL : Nat := 0xF010C
/-- PCI_DMAn_HEAD, 32 bits, RO, 8 of them every 0x20 bytes (R343). -/
abbrev Reg.PCI_DMA_HEAD : Nat := 0xF0110
/-- PCI_DMAn_STATUS, 32 bits, RO, 8 of them every 0x20 bytes (R343). -/
abbrev Reg.PCI_DMA_STATUS : Nat := 0xF0114
/-- PWR_CAP, 32 bits, PW (R359). -/
abbrev Reg.PWR_CAP : Nat := 0x100000
/-- PWR_FLOOR, 32 bits, RO (R359). -/
abbrev Reg.PWR_FLOOR : Nat := 0x100004
/-- PWR_STATE, 32 bits, RO (R359). -/
abbrev Reg.PWR_STATE : Nat := 0x100008
/-- PWR_CTRL, 32 bits, WO (R359). -/
abbrev Reg.PWR_CTRL : Nat := 0x10000C
/-- PWR_SEL, 32 bits, RW (R359). -/
abbrev Reg.PWR_SEL : Nat := 0x100010
/-- PWR_FUSED, 32 bits, RO (R359). -/
abbrev Reg.PWR_FUSED : Nat := 0x100014
/-- PWR_LIMITS, 32 bits, RO (R359). -/
abbrev Reg.PWR_LIMITS : Nat := 0x100018
/-- LDG_STATE, 32 bits, RO (R376). -/
abbrev Reg.LDG_STATE : Nat := 0x110000
/-- LDG_PSTATE_CTRL, 32 bits, RW (R376). -/
abbrev Reg.LDG_PSTATE_CTRL : Nat := 0x110004
/-- LDG_CFG, 32 bits, RW (R376). -/
abbrev Reg.LDG_CFG : Nat := 0x110008
/-- LDG_WAKE_CAUSE, 32 bits, RO (R376). -/
abbrev Reg.LDG_WAKE_CAUSE : Nat := 0x11000C
/-- LDG_TRIP, 32 bits, RO (R376). -/
abbrev Reg.LDG_TRIP : Nat := 0x110010
/-- LDG_UPTIME, 64 bits, RO (R376). -/
abbrev Reg.LDG_UPTIME : Nat := 0x110018
/-- LDG_EVENT, 32 bits, W1C (R376). -/
abbrev Reg.LDG_EVENT : Nat := 0x110020
/-- LDG_MBOX_CTRL, 32 bits, RW (R376). -/
abbrev Reg.LDG_MBOX_CTRL : Nat := 0x110024
/-- LDG_MBOX0–LDG_MBOX63, 32 bits, RW, 64 of them every 0x4 bytes (R376). -/
abbrev Reg.LDG_MBOX : Nat := 0x110100
/-- SBK_STATUS, 32 bits, RO (R404). -/
abbrev Reg.SBK_STATUS : Nat := 0x120000
/-- SBK_SEL, 32 bits, RW (R404). -/
abbrev Reg.SBK_SEL : Nat := 0x120004
/-- SBK_WEAR, 32 bits, RO (R404). -/
abbrev Reg.SBK_WEAR : Nat := 0x120008
/-- SBK_FROZEN, 32 bits, W1C (R404). -/
abbrev Reg.SBK_FROZEN : Nat := 0x12000C
/-- SBK_EVENT, 32 bits, W1C (R404). -/
abbrev Reg.SBK_EVENT : Nat := 0x120010
/-- SBK_ENR_CTRL, 32 bits, RW (R404). -/
abbrev Reg.SBK_ENR_CTRL : Nat := 0x120014
/-- SBK_FROZEN_MAP0–SBK_FROZEN_MAP31, 32 bits, RO, 32 of them every 0x4 bytes (R404). -/
abbrev Reg.SBK_FROZEN_MAP : Nat := 0x120080
/-- SBK_REG0–SBK_REG1023, 32 bits, RO (0–511), PW (512–1,023), 1024 of them every 0x4 bytes (R404). -/
abbrev Reg.SBK_REG : Nat := 0x121000
/-- SBK_ENR_BUF0–SBK_ENR_BUF7479, 32 bits, RW, 7480 of them every 0x4 bytes (R404). -/
abbrev Reg.SBK_ENR_BUF : Nat := 0x128000
/-- HLT_STATE, 32 bits, RO (R405). -/
abbrev Reg.HLT_STATE : Nat := 0x140000
/-- HLT_TAIL, 32 bits, RO (R405). -/
abbrev Reg.HLT_TAIL : Nat := 0x140004
/-- HLT_RECORDS, 32 bits, RO (R405). -/
abbrev Reg.HLT_RECORDS : Nat := 0x140008
/-- HLT_LOST, 32 bits, RO (R405). -/
abbrev Reg.HLT_LOST : Nat := 0x14000C
/-- HLT_WIN_OFFSET, 32 bits, RW (R405). -/
abbrev Reg.HLT_WIN_OFFSET : Nat := 0x140010
/-- HLT_CTRL, 32 bits, WO (R405). -/
abbrev Reg.HLT_CTRL : Nat := 0x140014
/-- HLT_EVENT, 32 bits, W1C (R405). -/
abbrev Reg.HLT_EVENT : Nat := 0x140018
/-- HLT_WIN, 32 bits, RO, 16384 of them every 0x4 bytes (R405). -/
abbrev Reg.HLT_WIN : Nat := 0x150000
/-- HLT_SNAP, 32 bits, RO, 1024 of them every 0x4 bytes (R405). -/
abbrev Reg.HLT_SNAP : Nat := 0x160000
/-- BEL_CTRL, 32 bits, WO (R418). -/
abbrev Reg.BEL_CTRL : Nat := 0x180000
/-- BEL_STATE, 32 bits, RO (R418). -/
abbrev Reg.BEL_STATE : Nat := 0x180004
/-- BEL_TRACE_EN, 32 bits, RW (R418). -/
abbrev Reg.BEL_TRACE_EN : Nat := 0x180008
/-- BEL_MARK, 64 bits, WO (R418). -/
abbrev Reg.BEL_MARK : Nat := 0x180010
/-- BEL_SNAP_TICK, 64 bits, RO (R418). -/
abbrev Reg.BEL_SNAP_TICK : Nat := 0x180018
/-- BEL_SNAP_CYCLE, 32 bits, RO (R418). -/
abbrev Reg.BEL_SNAP_CYCLE : Nat := 0x180020
/-- BEL_EVENT, 32 bits, W1C (R418). -/
abbrev Reg.BEL_EVENT : Nat := 0x180024
/-- BEL_RINGd_BASE, 64 bits, RW, 2 of them every 0x40 bytes (R418). -/
abbrev Reg.BEL_RING_BASE : Nat := 0x180040
/-- BEL_RINGd_CTRL, 32 bits, RW, 2 of them every 0x40 bytes (R418). -/
abbrev Reg.BEL_RING_CTRL : Nat := 0x180048
/-- BEL_RINGd_HEAD, 64 bits, RW, 2 of them every 0x40 bytes (R418). -/
abbrev Reg.BEL_RING_HEAD : Nat := 0x180050
/-- BEL_RINGd_TAIL, 64 bits, RO, 2 of them every 0x40 bytes (R418). -/
abbrev Reg.BEL_RING_TAIL : Nat := 0x180058
/-- BEL_RINGd_LOST_SRC, 64 bits, RO, 2 of them every 0x40 bytes (R418). -/
abbrev Reg.BEL_RING_LOST_SRC : Nat := 0x180060
/-- BEL_RINGd_LOST_RING, 64 bits, RO, 2 of them every 0x40 bytes (R418). -/
abbrev Reg.BEL_RING_LOST_RING : Nat := 0x180068
/-- BEL_RINGd_LOST_SINK, 64 bits, RO, 2 of them every 0x40 bytes (R418). -/
abbrev Reg.BEL_RING_LOST_SINK : Nat := 0x180070
/-- BEL_RINGd_RECORDS, 64 bits, RO, 2 of them every 0x40 bytes (R418). -/
abbrev Reg.BEL_RING_RECORDS : Nat := 0x180078
/-- BEL_CNT0–BEL_CNT8191, 64 bits, RO, 8192 of them every 0x8 bytes (R418). -/
abbrev Reg.BEL_CNT : Nat := 0x190000
/-- BEL_SNAP0–BEL_SNAP8191, 64 bits, RO, 8192 of them every 0x8 bytes (R418). -/
abbrev Reg.BEL_SNAP : Nat := 0x1A0000
/-- TOP_PART, 32 bits, RO (R424). -/
abbrev Reg.TOP_PART : Nat := 0x0
/-- TOP_VERSION, 32 bits, RO (R424). -/
abbrev Reg.TOP_VERSION : Nat := 0x4
/-- TOP_MODULE_ID, 64 bits, RO (R424). -/
abbrev Reg.TOP_MODULE_ID : Nat := 0x8
/-- TOP_ROM_VERSION, 64 bits, RO (R424). -/
abbrev Reg.TOP_ROM_VERSION : Nat := 0x10
/-- TOP_STATUS, 32 bits, RO (R424). -/
abbrev Reg.TOP_STATUS : Nat := 0x18
/-- TOP_BOOT, 32 bits, RO (R424). -/
abbrev Reg.TOP_BOOT : Nat := 0x1C
/-- TOP_PENDING, 32 bits, RO (R424). -/
abbrev Reg.TOP_PENDING : Nat := 0x20
/-- TOP_CTRL, 32 bits, WO (R424). -/
abbrev Reg.TOP_CTRL : Nat := 0x24
/-- TOP_SCRATCH, 32 bits, RW (R424). -/
abbrev Reg.TOP_SCRATCH : Nat := 0x28
/-- TOP_ACCESS_ERR, 32 bits, W1C (R424). -/
abbrev Reg.TOP_ACCESS_ERR : Nat := 0x2C

/-- One register (or a run of `count` like registers every `stride` bytes): offset, width in bytes, and the
bits that a host write sets (RW), clears with 1 (W1C), triggers (WO) and queues to persist (PW). -/
structure RegRow where
  off : Nat
  width : Nat
  count : Nat
  stride : Nat
  rw : DWord
  w1c : DWord
  wo : DWord
  pw : DWord
deriving DecidableEq, Repr

/-- Rows of the LAST block. -/
def rowsLast0 : List RegRow :=
  [⟨Reg.LAST_CTRL, 4, 1, 0, 0x0, 0x0, 0xF, 0x0⟩,
   ⟨Reg.LAST_STATE, 4, 1, 0, 0x0, 0x0, 0x0, 0x0⟩,
   ⟨Reg.LAST_SRC, 8, 1, 0, 0xFFFFFFFFFFFFF000, 0x0, 0x0, 0x0⟩,
   ⟨Reg.LAST_LEN, 4, 1, 0, 0x7FFFFFFF, 0x0, 0x0, 0x0⟩,
   ⟨Reg.LAST_PROGRESS, 4, 1, 0, 0x0, 0x0, 0x0, 0x0⟩,
   ⟨Reg.LAST_IMAGE_ID, 8, 1, 0, 0x0, 0x0, 0x0, 0x0⟩,
   ⟨Reg.LAST_JOB_ID, 8, 1, 0, 0x0, 0x0, 0x0, 0x0⟩,
   ⟨Reg.LAST_RANK, 4, 1, 0, 0x0, 0x0, 0x0, 0x0⟩,
   ⟨Reg.LAST_TICK_PERIOD, 4, 1, 0, 0x0, 0x0, 0x0, 0x0⟩,
   ⟨Reg.LAST_POSITION, 4, 1, 0, 0x0, 0x0, 0x0, 0x0⟩,
   ⟨Reg.LAST_ERR_OFFSET, 4, 1, 0, 0x0, 0x0, 0x0, 0x0⟩,
   ⟨Reg.LAST_EVENT, 4, 1, 0, 0x0, 0x3F, 0x0, 0x0⟩,
   ⟨Reg.LAST_KEY, 4, 1, 0, 0x0, 0x0, 0x0, 0x0⟩,
   ⟨Reg.LAST_DIGEST, 4, 16, 4, 0x0, 0x0, 0x0, 0x0⟩]

/-- Rows of the TICK block. -/
def rowsTick0 : List RegRow :=
  [⟨Reg.TICK_CTRL, 4, 1, 0, 0xFF, 0x0, 0x100, 0x0⟩,
   ⟨Reg.TICK_STATE, 4, 1, 0, 0x0, 0x0, 0x0, 0x0⟩,
   ⟨Reg.TICK_NOW, 8, 1, 0, 0x0, 0x0, 0x0, 0x0⟩,
   ⟨Reg.TICK_PERIOD_CYCLES, 4, 1, 0, 0x0, 0x0, 0x0, 0x0⟩,
   ⟨Reg.TICK_RESERVE, 4, 1, 0, 0x0, 0x0, 0x0, 0x0⟩,
   ⟨Reg.TICK_MAINT, 4, 1, 0, 0x0, 0x0, 0x0, 0x0⟩,
   ⟨Reg.TICK_STEP_LEN, 4, 1, 0, 0x0, 0x0, 0x0, 0x0⟩,
   ⟨Reg.TICK_SLIP, 8, 1, 0, 0x0, 0x0, 0x0, 0x0⟩,
   ⟨Reg.TICK_LATE_MAX, 4, 1, 0, 0x0, 0x0, 0x0, 0x0⟩,
   ⟨Reg.TICK_LATE_COUNT, 4, 1, 0, 0x0, 0x0, 0x0, 0x0⟩,
   ⟨Reg.TICK_SLACK_MIN, 4, 1, 0, 0x0, 0x0, 0x0, 0x0⟩,
   ⟨Reg.TICK_RESOLE_PEAK, 4, 1, 0, 0x0, 0x0, 0x0, 0x0⟩,
   ⟨Reg.TICK_EVENT, 4, 1, 0, 0x0, 0x1F, 0x0, 0x0⟩]

/-- Rows of the ADM block. -/
def rowsAdm0 : List RegRow :=
  [⟨Reg.ADM_TKT_STEP, 8, 1, 0, 0xFFFFFFFFFFFFFFFF, 0x0, 0x0, 0x0⟩,
   ⟨Reg.ADM_TKT_SLOT, 8, 1, 0, 0xFFFFFFFFFFFFFFFF, 0x0, 0x0, 0x0⟩,
   ⟨Reg.ADM_TKT_IMAGE, 8, 1, 0, 0xFFFFFFFFFFFFFFFF, 0x0, 0x0, 0x0⟩,
   ⟨Reg.ADM_TKT_INPUT, 8, 1, 0, 0xFFFFFFFFFFFFFFFF, 0x0, 0x0, 0x0⟩,
   ⟨Reg.ADM_TKT_TAG, 8, 1, 0, 0xFFFFFFFFFFFFFFFF, 0x0, 0x0, 0x0⟩,
   ⟨Reg.ADM_TKT_INLEN, 4, 1, 0, 0xFFFFFFFF, 0x0, 0x0, 0x0⟩,
   ⟨Reg.ADM_TKT_PLOTS, 4, 1, 0, 0xFFFFFFFF, 0x0, 0x0, 0x0⟩,
   ⟨Reg.ADM_DOORBELL, 4, 1, 0, 0x0, 0x0, 0x1, 0x0⟩,
   ⟨Reg.ADM_ANSWER, 4, 1, 0, 0x0, 0x0, 0x0, 0x0⟩,
   ⟨Reg.ADM_ANS_SLOT, 8, 1, 0, 0x0, 0x0, 0x0, 0x0⟩,
   ⟨Reg.ADM_ANS_DEADLINE, 8, 1, 0, 0x0, 0x0, 0x0, 0x0⟩,
   ⟨Reg.ADM_ANS_TAG, 8, 1, 0, 0x0, 0x0, 0x0, 0x0⟩,
   ⟨Reg.ADM_GATE, 4, 1, 0, 0x0, 0x0, 0x0, 0x0⟩,
   ⟨Reg.ADM_QUEUE, 4, 1, 0, 0x0, 0x0, 0x0, 0x0⟩,
   ⟨Reg.ADM_DONE_TAG, 8, 1, 0, 0x0, 0x0, 0x0, 0x0⟩,
   ⟨Reg.ADM_DONE_STEP, 8, 1, 0, 0x0, 0x0, 0x0, 0x0⟩,
   ⟨Reg.ADM_DONE_STATUS, 4, 1, 0, 0x0, 0x0, 0x0, 0x0⟩,
   ⟨Reg.ADM_DONE_POP, 4, 1, 0, 0x0, 0x0, 0x1, 0x0⟩,
   ⟨Reg.ADM_EVENT, 4, 1, 0, 0x0, 0xF, 0x0, 0x0⟩,
   ⟨Reg.ADM_ACCEPT_COUNT, 4, 1, 0, 0x0, 0x0, 0x0, 0x0⟩]

/-- Rows of the ADM block, continued. -/
def rowsAdm1 : List RegRow :=
  [⟨Reg.ADM_REFUSE, 4, 6, 4, 0x0, 0x0, 0x0, 0x0⟩]

/-- Rows of the FMT block. -/
def rowsFmt0 : List RegRow :=
  [⟨Reg.FMT_CTRL, 4, 1, 0, 0x0, 0x0, 0x1, 0x0⟩,
   ⟨Reg.FMT_STICKY, 4, 1, 0, 0x0, 0xFF, 0x0, 0x0⟩,
   ⟨Reg.FMT_SAT_COUNT, 8, 1, 0, 0x0, 0x0, 0x0, 0x0⟩,
   ⟨Reg.FMT_FLUSH_COUNT, 8, 1, 0, 0x0, 0x0, 0x0, 0x0⟩,
   ⟨Reg.FMT_NF_COUNT, 4, 1, 0, 0x0, 0x0, 0x0, 0x0⟩,
   ⟨Reg.FMT_ORPHAN_COUNT, 4, 1, 0, 0x0, 0x0, 0x0, 0x0⟩,
   ⟨Reg.FMT_NF_WHERE, 4, 1, 0, 0x0, 0x0, 0x0, 0x0⟩,
   ⟨Reg.FMT_NF_TENSOR, 4, 1, 0, 0x0, 0x0, 0x0, 0x0⟩,
   ⟨Reg.FMT_NF_TILE, 4, 1, 0, 0x0, 0x0, 0x0, 0x0⟩,
   ⟨Reg.FMT_NF_BITS, 4, 1, 0, 0x0, 0x0, 0x0, 0x0⟩,
   ⟨Reg.FMT_NF_TICK, 8, 1, 0, 0x0, 0x0, 0x0, 0x0⟩]

/-- Rows of the QNT block. -/
def rowsQnt0 : List RegRow :=
  [⟨Reg.QNT_CTRL, 4, 1, 0, 0x0, 0x0, 0x1, 0x0⟩,
   ⟨Reg.QNT_STICKY, 4, 1, 0, 0x0, 0x1F, 0x0, 0x0⟩,
   ⟨Reg.QNT_SEG_COUNT, 8, 1, 0, 0x0, 0x0, 0x0, 0x0⟩,
   ⟨Reg.QNT_EYELET_OUTLIER, 8, 1, 0, 0x0, 0x0, 0x0, 0x0⟩,
   ⟨Reg.QNT_EYELET_SPECIAL, 4, 1, 0, 0x0, 0x0, 0x0, 0x0⟩,
   ⟨Reg.QNT_BUDGET_OUT_COUNT, 4, 1, 0, 0x0, 0x0, 0x0, 0x0⟩,
   ⟨Reg.QNT_DOMINANT_COUNT, 8, 1, 0, 0x0, 0x0, 0x0, 0x0⟩,
   ⟨Reg.QNT_ZERO_BLOCK_COUNT, 8, 1, 0, 0x0, 0x0, 0x0, 0x0⟩,
   ⟨Reg.QNT_ROT_WINDOWS, 8, 1, 0, 0x0, 0x0, 0x0, 0x0⟩,
   ⟨Reg.QNT_OUT_TENSOR, 4, 1, 0, 0x0, 0x0, 0x0, 0x0⟩,
   ⟨Reg.QNT_OUT_SEGMENT, 4, 1, 0, 0x0, 0x0, 0x0, 0x0⟩,
   ⟨Reg.QNT_OUT_TICK, 8, 1, 0, 0x0, 0x0, 0x0, 0x0⟩,
   ⟨Reg.QNT_RESOLE_OUT, 8, 1, 0, 0x0, 0x0, 0x0, 0x0⟩,
   ⟨Reg.QNT_RESOLE_LAYER, 8, 1, 0, 0x0, 0x0, 0x0, 0x0⟩,
   ⟨Reg.QNT_RESOLE_DENIED, 4, 1, 0, 0x0, 0x0, 0x0, 0x0⟩,
   ⟨Reg.QNT_RESOLE_SUPPRESSED, 4, 1, 0, 0x0, 0x0, 0x0, 0x0⟩,
   ⟨Reg.QNT_TOP_CROSS, 4, 1, 0, 0x0, 0x0, 0x0, 0x0⟩,
   ⟨Reg.QNT_SPOIL_COUNT, 4, 1, 0, 0x0, 0x0, 0x0, 0x0⟩,
   ⟨Reg.QNT_SPOIL_CAUSES, 4, 1, 0, 0x0, 0x3F, 0x0, 0x0⟩,
   ⟨Reg.QNT_SPOIL_LAST, 4, 1, 0, 0x0, 0x0, 0x0, 0x0⟩]

/-- Rows of the QNT block, continued. -/
def rowsQnt1 : List RegRow :=
  [⟨Reg.QNT_SPOIL_TICK, 8, 1, 0, 0x0, 0x0, 0x0, 0x0⟩,
   ⟨Reg.QNT_RAISED, 8, 1, 0, 0x0, 0x0, 0x0, 0x0⟩,
   ⟨Reg.QNT_RUN_MASK, 8, 1, 0, 0x0, 0x0, 0x0, 0x0⟩,
   ⟨Reg.QNT_AFFECTED, 8, 1, 0, 0x0, 0x0, 0x0, 0x0⟩,
   ⟨Reg.QNT_GROUP_SEL, 4, 1, 0, 0x3F, 0x0, 0x0, 0x0⟩,
   ⟨Reg.QNT_GROUP_STATE, 4, 1, 0, 0x0, 0x0, 0x0, 0x0⟩,
   ⟨Reg.QNT_THR_SEL, 4, 1, 0, 0x3FFFFF, 0x0, 0x0, 0x0⟩,
   ⟨Reg.QNT_THR_SEG, 4, 1, 0, 0x0, 0x0, 0x0, 0x0⟩,
   ⟨Reg.QNT_THR_BLOCK, 4, 1, 0, 0x0, 0x0, 0x0, 0x0⟩,
   ⟨Reg.QNT_THR_LAYER, 4, 1, 0, 0x0, 0x0, 0x0, 0x0⟩,
   ⟨Reg.QNT_STAT_CTRL, 4, 1, 0, 0x0, 0x0, 0x1, 0x0⟩]

/-- Rows of the ME block. -/
def rowsMe0 : List RegRow :=
  [⟨Reg.ME_TEST_CTRL, 4, 1, 0, 0x0, 0x0, 0x1, 0x0⟩,
   ⟨Reg.ME_SEL, 4, 1, 0, 0x1FF, 0x0, 0x0, 0x0⟩,
   ⟨Reg.ME_SPARES, 4, 1, 0, 0x0, 0x0, 0x0, 0x0⟩,
   ⟨Reg.ME_PASSES, 8, 1, 0, 0x0, 0x0, 0x0, 0x0⟩,
   ⟨Reg.ME_STALL_ROW, 8, 1, 0, 0x0, 0x0, 0x0, 0x0⟩,
   ⟨Reg.ME_STALL_COL, 8, 1, 0, 0x0, 0x0, 0x0, 0x0⟩,
   ⟨Reg.ME_STALL_CORR, 8, 1, 0, 0x0, 0x0, 0x0, 0x0⟩,
   ⟨Reg.ME_MV_PRODUCTS, 8, 1, 0, 0x0, 0x0, 0x0, 0x0⟩,
   ⟨Reg.ME_LAG_MAX, 4, 1, 0, 0x0, 0x0, 0x0, 0x0⟩,
   ⟨Reg.ME_EVENT, 4, 1, 0, 0x0, 0x7, 0x0, 0x0⟩,
   ⟨Reg.ME_STAT_CTRL, 4, 1, 0, 0x0, 0x0, 0x1, 0x0⟩,
   ⟨Reg.ME_FAIL, 4, 16, 4, 0x0, 0x0, 0x0, 0x0⟩]

/-- Rows of the VE block. -/
def rowsVe0 : List RegRow :=
  [⟨Reg.VE_TEST_CTRL, 4, 1, 0, 0x0, 0x0, 0x1, 0x0⟩,
   ⟨Reg.VE_SEL, 4, 1, 0, 0x7F, 0x0, 0x0, 0x0⟩,
   ⟨Reg.VE_FLAGS, 4, 1, 0, 0x0, 0xFF, 0x0, 0x0⟩,
   ⟨Reg.VE_FLAGS_ANY, 4, 1, 0, 0x0, 0x0, 0x0, 0x0⟩,
   ⟨Reg.VE_CHAINS, 8, 1, 0, 0x0, 0x0, 0x0, 0x0⟩,
   ⟨Reg.VE_STALL, 8, 1, 0, 0x0, 0x0, 0x0, 0x0⟩,
   ⟨Reg.VE_WAIT, 8, 1, 0, 0x0, 0x0, 0x0, 0x0⟩,
   ⟨Reg.VE_TILEBUF, 8, 1, 0, 0x0, 0x0, 0x0, 0x0⟩,
   ⟨Reg.VE_DRAWS, 8, 1, 0, 0x0, 0x0, 0x0, 0x0⟩,
   ⟨Reg.VE_EVENT, 4, 1, 0, 0x0, 0x7, 0x0, 0x0⟩,
   ⟨Reg.VE_STAT_CTRL, 4, 1, 0, 0x0, 0x0, 0x3, 0x0⟩,
   ⟨Reg.VE_FAIL, 4, 4, 4, 0x0, 0x0, 0x0, 0x0⟩]

/-- Rows of the TRL block. -/
def rowsTrl0 : List RegRow :=
  [⟨Reg.TRL_STATE, 4, 1, 0, 0x0, 0x0, 0x0, 0x0⟩,
   ⟨Reg.TRL_WEIGHTS, 4, 1, 0, 0x0, 0x0, 0x0, 0x0⟩,
   ⟨Reg.TRL_SEL, 4, 1, 0, 0x70F, 0x0, 0x0, 0x0⟩,
   ⟨Reg.TRL_RESV, 4, 1, 0, 0x0, 0x0, 0x0, 0x0⟩,
   ⟨Reg.TRL_DYN_GRANTS, 8, 1, 0, 0x0, 0x0, 0x0, 0x0⟩,
   ⟨Reg.TRL_SLOT_REUSE, 8, 1, 0, 0x0, 0x0, 0x0, 0x0⟩,
   ⟨Reg.TRL_PROMOTIONS, 8, 1, 0, 0x0, 0x0, 0x0, 0x0⟩,
   ⟨Reg.TRL_WAIT_MAX, 4, 1, 0, 0x0, 0x0, 0x0, 0x0⟩,
   ⟨Reg.TRL_SEAM_REPLAY, 4, 1, 0, 0x0, 0x0, 0x0, 0x0⟩,
   ⟨Reg.TRL_SPAD_PROMOTE, 8, 1, 0, 0x0, 0x0, 0x0, 0x0⟩,
   ⟨Reg.TRL_EVENT, 4, 1, 0, 0x0, 0x7, 0x0, 0x0⟩,
   ⟨Reg.TRL_STAT_CTRL, 4, 1, 0, 0x0, 0x0, 0x1, 0x0⟩]

/-- Rows of the MEM block. -/
def rowsMem0 : List RegRow :=
  [⟨Reg.MEM_STATE, 4, 1, 0, 0x0, 0x0, 0x0, 0x0⟩,
   ⟨Reg.MEM_THERM_CFG, 4, 1, 0, 0x0, 0x0, 0x0, 0xFF⟩,
   ⟨Reg.MEM_SUSPECT_CFG, 4, 1, 0, 0x0, 0x0, 0x0, 0xFFFF⟩,
   ⟨Reg.MEM_SEL, 4, 1, 0, 0xFF, 0x0, 0x0, 0x0⟩,
   ⟨Reg.MEM_MAP, 4, 8, 4, 0x0, 0x0, 0x0, 0xFFFFFFFF⟩,
   ⟨Reg.MEM_INSERVICE, 4, 8, 4, 0x0, 0x0, 0x0, 0x0⟩,
   ⟨Reg.MEM_SUSPECT, 4, 8, 4, 0x0, 0xFFFFFFFF, 0x0, 0x0⟩,
   ⟨Reg.MEM_CE_COUNT, 8, 1, 0, 0x0, 0x0, 0x0, 0x0⟩,
   ⟨Reg.MEM_UE_COUNT, 4, 1, 0, 0x0, 0x0, 0x0, 0x0⟩,
   ⟨Reg.MEM_RETRY_COUNT, 4, 1, 0, 0x0, 0x0, 0x0, 0x0⟩,
   ⟨Reg.MEM_UE_ADDR, 8, 1, 0, 0x0, 0x0, 0x0, 0x0⟩,
   ⟨Reg.MEM_UE_TICK, 8, 1, 0, 0x0, 0x0, 0x0, 0x0⟩,
   ⟨Reg.MEM_UE_INFO, 4, 1, 0, 0x0, 0x0, 0x0, 0x0⟩,
   ⟨Reg.MEM_TEMP0, 4, 1, 0, 0x0, 0x0, 0x0, 0x0⟩,
   ⟨Reg.MEM_TEMP1, 4, 1, 0, 0x0, 0x0, 0x0, 0x0⟩,
   ⟨Reg.MEM_THROTTLE, 4, 4, 4, 0x0, 0x0, 0x0, 0x0⟩,
   ⟨Reg.MEM_HEADROOM, 4, 1, 0, 0x0, 0x0, 0x0, 0x0⟩,
   ⟨Reg.MEM_WCB_EVICT, 8, 1, 0, 0x0, 0x0, 0x0, 0x0⟩,
   ⟨Reg.MEM_ATOMICS, 8, 1, 0, 0x0, 0x0, 0x0, 0x0⟩,
   ⟨Reg.MEM_WB_DROP, 4, 1, 0, 0x0, 0x0, 0x0, 0x0⟩]

/-- Rows of the MEM block, continued. -/
def rowsMem1 : List RegRow :=
  [⟨Reg.MEM_TEST_CTRL, 4, 1, 0, 0xFF30, 0x0, 0x1, 0x0⟩,
   ⟨Reg.MEM_SCAN_CTRL, 4, 1, 0, 0xFF30, 0x0, 0x1, 0x0⟩,
   ⟨Reg.MEM_SCAN_RESULT, 4, 1, 0, 0x0, 0x0, 0x0, 0x0⟩,
   ⟨Reg.MEM_EVENT, 4, 1, 0, 0x0, 0x7FF, 0x0, 0x0⟩,
   ⟨Reg.MEM_STAT_CTRL, 4, 1, 0, 0x0, 0x0, 0x1, 0x0⟩]

/-- Rows of the UPD block. -/
def rowsUpd0 : List RegRow :=
  [⟨Reg.UPD_STATE, 4, 1, 0, 0x0, 0x0, 0x0, 0x0⟩,
   ⟨Reg.UPD_CFG, 4, 1, 0, 0x0, 0x0, 0x0, 0x0⟩,
   ⟨Reg.UPD_EPOCH, 8, 1, 0, 0x0, 0x0, 0x0, 0x0⟩,
   ⟨Reg.UPD_SHADOW_STEP, 8, 1, 0, 0x0, 0x0, 0x0, 0x0⟩,
   ⟨Reg.UPD_T, 8, 1, 0, 0x0, 0x0, 0x0, 0x0⟩,
   ⟨Reg.UPD_LR, 4, 1, 0, 0x0, 0x0, 0x0, 0x0⟩,
   ⟨Reg.UPD_CLIP, 4, 1, 0, 0x0, 0x0, 0x0, 0x0⟩,
   ⟨Reg.UPD_GNORM, 4, 1, 0, 0x0, 0x0, 0x0, 0x0⟩,
   ⟨Reg.UPD_NS_RESID, 4, 1, 0, 0x0, 0x0, 0x0, 0x0⟩,
   ⟨Reg.UPD_PARAMS, 8, 1, 0, 0x0, 0x0, 0x0, 0x0⟩,
   ⟨Reg.UPD_FROZEN_DROPS, 4, 1, 0, 0x0, 0x0, 0x0, 0x0⟩,
   ⟨Reg.UPD_NF_COUNT, 4, 1, 0, 0x0, 0x0, 0x0, 0x0⟩,
   ⟨Reg.UPD_NF_TENSOR, 4, 1, 0, 0x0, 0x0, 0x0, 0x0⟩,
   ⟨Reg.UPD_REFRESHED, 4, 1, 0, 0x0, 0x0, 0x0, 0x0⟩,
   ⟨Reg.UPD_STICKY, 4, 1, 0, 0x0, 0x1F, 0x0, 0x0⟩,
   ⟨Reg.UPD_EVENT, 4, 1, 0, 0x0, 0x7, 0x0, 0x0⟩,
   ⟨Reg.UPD_STAT_CTRL, 4, 1, 0, 0x0, 0x0, 0x1, 0x0⟩]

/-- Rows of the CLO block. -/
def rowsClo0 : List RegRow :=
  [⟨Reg.CLO_CFG, 4, 1, 0, 0x0, 0x0, 0x0, 0x0⟩,
   ⟨Reg.CLO_SEL, 4, 1, 0, 0xF, 0x0, 0x0, 0x0⟩,
   ⟨Reg.CLO_RING, 4, 1, 0, 0x0, 0x0, 0x0, 0x0⟩,
   ⟨Reg.CLO_RING_POS, 4, 1, 0, 0x0, 0x0, 0x0, 0x0⟩,
   ⟨Reg.CLO_BLOCKS_TX, 8, 1, 0, 0x0, 0x0, 0x0, 0x0⟩,
   ⟨Reg.CLO_BLOCKS_RX, 8, 1, 0, 0x0, 0x0, 0x0, 0x0⟩,
   ⟨Reg.CLO_ADDS, 8, 1, 0, 0x0, 0x0, 0x0, 0x0⟩,
   ⟨Reg.CLO_SAT_COUNT, 4, 1, 0, 0x0, 0x0, 0x0, 0x0⟩,
   ⟨Reg.CLO_RECOMPUTE, 4, 1, 0, 0x0, 0x0, 0x0, 0x0⟩,
   ⟨Reg.CLO_S_DONE, 4, 1, 0, 0x0, 0x0, 0x0, 0x0⟩,
   ⟨Reg.CLO_S_LATE, 4, 1, 0, 0x0, 0x0, 0x0, 0x0⟩,
   ⟨Reg.CLO_S_DROPS, 4, 1, 0, 0x0, 0x0, 0x0, 0x0⟩,
   ⟨Reg.CLO_S_SLACK_MIN, 4, 1, 0, 0x0, 0x0, 0x0, 0x0⟩,
   ⟨Reg.CLO_FAIL_INFO, 4, 1, 0, 0x0, 0x0, 0x0, 0x0⟩,
   ⟨Reg.CLO_FAIL_TICK, 8, 1, 0, 0x0, 0x0, 0x0, 0x0⟩,
   ⟨Reg.CLO_DLOG_BASE, 8, 1, 0, 0x0, 0x0, 0x0, 0x0⟩,
   ⟨Reg.CLO_DLOG_SIZE, 4, 1, 0, 0x0, 0x0, 0x0, 0x0⟩,
   ⟨Reg.CLO_DLOG_HEAD, 4, 1, 0, 0x0, 0x0, 0x0, 0x0⟩,
   ⟨Reg.CLO_EVENT, 4, 1, 0, 0x0, 0x1F, 0x0, 0x0⟩,
   ⟨Reg.CLO_STAT_CTRL, 4, 1, 0, 0x0, 0x0, 0x1, 0x0⟩]

/-- Rows of the PYU block. -/
def rowsPyu0 : List RegRow :=
  [⟨Reg.PYU_CTRL, 4, 1, 0, 0x0, 0x0, 0x3, 0x0⟩,
   ⟨Reg.PYU_SEL, 4, 1, 0, 0x7F, 0x0, 0x0, 0x0⟩,
   ⟨Reg.PYU_UP, 4, 1, 0, 0x0, 0x0, 0x0, 0x0⟩,
   ⟨Reg.PYU_PORT, 4, 1, 0, 0x0, 0x0, 0x0, 0x0⟩,
   ⟨Reg.PYU_PEER_ID, 8, 1, 0, 0x0, 0x0, 0x0, 0x0⟩,
   ⟨Reg.PYU_FRAMES_TX, 8, 1, 0, 0x0, 0x0, 0x0, 0x0⟩,
   ⟨Reg.PYU_FRAMES_RX, 8, 1, 0, 0x0, 0x0, 0x0, 0x0⟩,
   ⟨Reg.PYU_FEC_CORR, 8, 1, 0, 0x0, 0x0, 0x0, 0x0⟩,
   ⟨Reg.PYU_FEC_UNCORR, 4, 1, 0, 0x0, 0x0, 0x0, 0x0⟩,
   ⟨Reg.PYU_REPLAYS, 4, 1, 0, 0x0, 0x0, 0x0, 0x0⟩,
   ⟨Reg.PYU_BEACON_MAX, 4, 1, 0, 0x0, 0x0, 0x0, 0x0⟩,
   ⟨Reg.PYU_WAKE, 4, 1, 0, 0xFFFFFFFF, 0x0, 0x0, 0x0⟩,
   ⟨Reg.PYU_LANEMAP, 4, 16, 4, 0x0, 0x0, 0x0, 0xFFFFFFFF⟩,
   ⟨Reg.PYU_XCH_ROUTED, 8, 1, 0, 0x0, 0x0, 0x0, 0x0⟩,
   ⟨Reg.PYU_XCH_DROPS, 8, 1, 0, 0x0, 0x0, 0x0, 0x0⟩,
   ⟨Reg.PYU_XCH_BAD, 4, 1, 0, 0x0, 0x0, 0x0, 0x0⟩,
   ⟨Reg.PYU_XCH_CUT, 4, 1, 0, 0x0, 0x0, 0x0, 0x0⟩,
   ⟨Reg.PYU_XCH_DROP_MAX, 4, 1, 0, 0x0, 0x0, 0x0, 0x0⟩,
   ⟨Reg.PYU_EVENT, 4, 1, 0, 0x0, 0xFF, 0x0, 0x0⟩,
   ⟨Reg.PYU_STAT_CTRL, 4, 1, 0, 0x0, 0x0, 0x1, 0x0⟩]

/-- Rows of the STL block. -/
def rowsStl0 : List RegRow :=
  [⟨Reg.STL_COMMIT, 4, 1, 0, 0x0, 0x0, 0x0, 0x0⟩,
   ⟨Reg.STL_RECON_CTRL, 4, 1, 0, 0x8, 0x0, 0x3, 0x0⟩,
   ⟨Reg.STL_COMMIT_STEP, 8, 1, 0, 0x0, 0x0, 0x0, 0x0⟩,
   ⟨Reg.STL_COMMIT_TICK, 8, 1, 0, 0x0, 0x0, 0x0, 0x0⟩,
   ⟨Reg.STL_RECON_STEP, 8, 1, 0, 0xFFFFFFFFFFFFFFFF, 0x0, 0x0, 0x0⟩,
   ⟨Reg.STL_RECON_EPOCH, 8, 1, 0, 0xFFFFFFFFFFFFFFFF, 0x0, 0x0, 0x0⟩,
   ⟨Reg.STL_SEL, 4, 1, 0, 0x1FFFF, 0x0, 0x0, 0x0⟩,
   ⟨Reg.STL_STATE, 4, 1, 0, 0x0, 0x0, 0x0, 0x0⟩,
   ⟨Reg.STL_RELEASES, 8, 1, 0, 0x0, 0x0, 0x0, 0x0⟩,
   ⟨Reg.STL_TIMEOUTS, 4, 1, 0, 0x0, 0x0, 0x0, 0x0⟩,
   ⟨Reg.STL_OVER, 4, 1, 0, 0x0, 0x0, 0x0, 0x0⟩,
   ⟨Reg.STL_EVENT, 4, 1, 0, 0x0, 0xF, 0x0, 0x0⟩,
   ⟨Reg.STL_STAT_CTRL, 4, 1, 0, 0x0, 0x0, 0x1, 0x0⟩]

/-- Rows of the PLT block. -/
def rowsPlt0 : List RegRow :=
  [⟨Reg.PLT_SEL, 4, 1, 0, 0x3FFFF, 0x0, 0x0, 0x0⟩,
   ⟨Reg.PLT_STATE, 4, 1, 0, 0x0, 0x0, 0x0, 0x0⟩,
   ⟨Reg.PLT_POSITION, 8, 1, 0, 0x0, 0x0, 0x0, 0x0⟩,
   ⟨Reg.PLT_USED, 8, 1, 0, 0x0, 0x0, 0x0, 0x0⟩,
   ⟨Reg.PLT_POOL, 4, 1, 0, 0x0, 0x0, 0x0, 0x0⟩,
   ⟨Reg.PLT_CHAIN_FULL, 4, 1, 0, 0x0, 0x0, 0x0, 0x0⟩,
   ⟨Reg.PLT_EVENT, 4, 1, 0, 0x0, 0x1, 0x0, 0x0⟩,
   ⟨Reg.PLT_STAT_CTRL, 4, 1, 0, 0x0, 0x0, 0x1, 0x0⟩]

/-- Rows of the PCI block. -/
def rowsPci0 : List RegRow :=
  [⟨Reg.PCI_LINK, 4, 1, 0, 0x0, 0x0, 0x0, 0x0⟩,
   ⟨Reg.PCI_WIN_BASE, 8, 1, 0, 0xFFFFFFFFFFFFFFFF, 0x0, 0x0, 0x0⟩,
   ⟨Reg.PCI_WIN_SIZE, 4, 1, 0, 0x0, 0x0, 0x0, 0x0⟩,
   ⟨Reg.PCI_COALESCE, 4, 1, 0, 0xFF, 0x0, 0x0, 0x0⟩,
   ⟨Reg.PCI_QUEUE_CTRL, 4, 1, 0, 0xFFF1, 0x0, 0x0, 0x0⟩,
   ⟨Reg.PCI_TQ_BASE, 8, 1, 0, 0xFFFFFFFFFFFFFFFF, 0x0, 0x0, 0x0⟩,
   ⟨Reg.PCI_AQ_BASE, 8, 1, 0, 0xFFFFFFFFFFFFFFFF, 0x0, 0x0, 0x0⟩,
   ⟨Reg.PCI_CQ_BASE, 8, 1, 0, 0xFFFFFFFFFFFFFFFF, 0x0, 0x0, 0x0⟩,
   ⟨Reg.PCI_TQ_TAIL, 4, 1, 0, 0xFFFF, 0x0, 0x0, 0x0⟩,
   ⟨Reg.PCI_TQ_HEAD, 4, 1, 0, 0x0, 0x0, 0x0, 0x0⟩,
   ⟨Reg.PCI_AQ_HEAD, 4, 1, 0, 0xFFFF, 0x0, 0x0, 0x0⟩,
   ⟨Reg.PCI_AQ_TAIL, 4, 1, 0, 0x0, 0x0, 0x0, 0x0⟩,
   ⟨Reg.PCI_CQ_HEAD, 4, 1, 0, 0xFFFF, 0x0, 0x0, 0x0⟩,
   ⟨Reg.PCI_CQ_TAIL, 4, 1, 0, 0x0, 0x0, 0x0, 0x0⟩,
   ⟨Reg.PCI_EVENT, 4, 1, 0, 0x0, 0x7F, 0x0, 0x0⟩,
   ⟨Reg.PCI_STAT_CTRL, 4, 1, 0, 0x0, 0x0, 0x1, 0x0⟩,
   ⟨Reg.PCI_ERR_COUNT, 4, 1, 0, 0x0, 0x0, 0x0, 0x0⟩,
   ⟨Reg.PCI_BYTES_IN, 8, 1, 0, 0x0, 0x0, 0x0, 0x0⟩,
   ⟨Reg.PCI_BYTES_OUT, 8, 1, 0, 0x0, 0x0, 0x0, 0x0⟩,
   ⟨Reg.PCI_DMA_BASE, 8, 8, 32, 0xFFFFFFFFFFFFFFFF, 0x0, 0x0, 0x0⟩]

/-- Rows of the PCI block, continued. -/
def rowsPci1 : List RegRow :=
  [⟨Reg.PCI_DMA_CTRL, 4, 8, 32, 0xF1, 0x0, 0x0, 0x0⟩,
   ⟨Reg.PCI_DMA_TAIL, 4, 8, 32, 0xFFFF, 0x0, 0x0, 0x0⟩,
   ⟨Reg.PCI_DMA_HEAD, 4, 8, 32, 0x0, 0x0, 0x0, 0x0⟩,
   ⟨Reg.PCI_DMA_STATUS, 4, 8, 32, 0x0, 0x0, 0x0, 0x0⟩]

/-- Rows of the PWR block. -/
def rowsPwr0 : List RegRow :=
  [⟨Reg.PWR_CAP, 4, 1, 0, 0x0, 0x0, 0x0, 0xFFF⟩,
   ⟨Reg.PWR_FLOOR, 4, 1, 0, 0x0, 0x0, 0x0, 0x0⟩,
   ⟨Reg.PWR_STATE, 4, 1, 0, 0x0, 0x0, 0x0, 0x0⟩,
   ⟨Reg.PWR_CTRL, 4, 1, 0, 0x0, 0x0, 0x1, 0x0⟩,
   ⟨Reg.PWR_SEL, 4, 1, 0, 0x7F, 0x0, 0x0, 0x0⟩,
   ⟨Reg.PWR_FUSED, 4, 1, 0, 0x0, 0x0, 0x0, 0x0⟩,
   ⟨Reg.PWR_LIMITS, 4, 1, 0, 0x0, 0x0, 0x0, 0x0⟩]

/-- Rows of the LDG block. -/
def rowsLdg0 : List RegRow :=
  [⟨Reg.LDG_STATE, 4, 1, 0, 0x0, 0x0, 0x0, 0x0⟩,
   ⟨Reg.LDG_PSTATE_CTRL, 4, 1, 0, 0x0, 0x0, 0x3, 0x0⟩,
   ⟨Reg.LDG_CFG, 4, 1, 0, 0xFFFF, 0x0, 0x0, 0x0⟩,
   ⟨Reg.LDG_WAKE_CAUSE, 4, 1, 0, 0x0, 0x0, 0x0, 0x0⟩,
   ⟨Reg.LDG_TRIP, 4, 1, 0, 0x0, 0x0, 0x0, 0x0⟩,
   ⟨Reg.LDG_UPTIME, 8, 1, 0, 0x0, 0x0, 0x0, 0x0⟩,
   ⟨Reg.LDG_EVENT, 4, 1, 0, 0x0, 0x1F, 0x0, 0x0⟩,
   ⟨Reg.LDG_MBOX_CTRL, 4, 1, 0, 0x7FC, 0x0, 0x1, 0x0⟩,
   ⟨Reg.LDG_MBOX, 4, 64, 4, 0xFFFFFFFF, 0x0, 0x0, 0x0⟩]

/-- Rows of the SBK block. -/
def rowsSbk0 : List RegRow :=
  [⟨Reg.SBK_STATUS, 4, 1, 0, 0x0, 0x0, 0x0, 0x0⟩,
   ⟨Reg.SBK_SEL, 4, 1, 0, 0x3FF, 0x0, 0x0, 0x0⟩,
   ⟨Reg.SBK_WEAR, 4, 1, 0, 0x0, 0x0, 0x0, 0x0⟩,
   ⟨Reg.SBK_FROZEN, 4, 1, 0, 0x0, 0x1, 0x0, 0x0⟩,
   ⟨Reg.SBK_EVENT, 4, 1, 0, 0x0, 0xF, 0x0, 0x0⟩,
   ⟨Reg.SBK_ENR_CTRL, 4, 1, 0, 0x0, 0x0, 0x1, 0x0⟩,
   ⟨Reg.SBK_FROZEN_MAP, 4, 32, 4, 0x0, 0x0, 0x0, 0x0⟩,
   ⟨Reg.SBK_REG, 4, 1024, 4, 0x0, 0x0, 0x0, 0xFFFFFFFF⟩,
   ⟨Reg.SBK_ENR_BUF, 4, 7480, 4, 0xFFFFFFFF, 0x0, 0x0, 0x0⟩]

/-- Rows of the HLT block. -/
def rowsHlt0 : List RegRow :=
  [⟨Reg.HLT_STATE, 4, 1, 0, 0x0, 0x0, 0x0, 0x0⟩,
   ⟨Reg.HLT_TAIL, 4, 1, 0, 0x0, 0x0, 0x0, 0x0⟩,
   ⟨Reg.HLT_RECORDS, 4, 1, 0, 0x0, 0x0, 0x0, 0x0⟩,
   ⟨Reg.HLT_LOST, 4, 1, 0, 0x0, 0x0, 0x0, 0x0⟩,
   ⟨Reg.HLT_WIN_OFFSET, 4, 1, 0, 0xFF, 0x0, 0x0, 0x0⟩,
   ⟨Reg.HLT_CTRL, 4, 1, 0, 0x0, 0x0, 0x1, 0x0⟩,
   ⟨Reg.HLT_EVENT, 4, 1, 0, 0x0, 0xF, 0x0, 0x0⟩,
   ⟨Reg.HLT_WIN, 4, 16384, 4, 0x0, 0x0, 0x0, 0x0⟩,
   ⟨Reg.HLT_SNAP, 4, 1024, 4, 0x0, 0x0, 0x0, 0x0⟩]

/-- Rows of the BEL block. -/
def rowsBel0 : List RegRow :=
  [⟨Reg.BEL_CTRL, 4, 1, 0, 0x0, 0x0, 0x3, 0x0⟩,
   ⟨Reg.BEL_STATE, 4, 1, 0, 0x0, 0x0, 0x0, 0x0⟩,
   ⟨Reg.BEL_TRACE_EN, 4, 1, 0, 0xFFFFFFFF, 0x0, 0x0, 0x0⟩,
   ⟨Reg.BEL_MARK, 8, 1, 0, 0x0, 0x0, 0xFFFFFFFFFFFFFFFF, 0x0⟩,
   ⟨Reg.BEL_SNAP_TICK, 8, 1, 0, 0x0, 0x0, 0x0, 0x0⟩,
   ⟨Reg.BEL_SNAP_CYCLE, 4, 1, 0, 0x0, 0x0, 0x0, 0x0⟩,
   ⟨Reg.BEL_EVENT, 4, 1, 0, 0x0, 0x1F, 0x0, 0x0⟩,
   ⟨Reg.BEL_RING_BASE, 8, 2, 64, 0xFFFFFFFFFFFFFFFF, 0x0, 0x0, 0x0⟩,
   ⟨Reg.BEL_RING_CTRL, 4, 2, 64, 0x3F03, 0x0, 0x0, 0x0⟩,
   ⟨Reg.BEL_RING_HEAD, 8, 2, 64, 0xFFFFFFFFFFFFFFFF, 0x0, 0x0, 0x0⟩,
   ⟨Reg.BEL_RING_TAIL, 8, 2, 64, 0x0, 0x0, 0x0, 0x0⟩,
   ⟨Reg.BEL_RING_LOST_SRC, 8, 2, 64, 0x0, 0x0, 0x0, 0x0⟩,
   ⟨Reg.BEL_RING_LOST_RING, 8, 2, 64, 0x0, 0x0, 0x0, 0x0⟩,
   ⟨Reg.BEL_RING_LOST_SINK, 8, 2, 64, 0x0, 0x0, 0x0, 0x0⟩,
   ⟨Reg.BEL_RING_RECORDS, 8, 2, 64, 0x0, 0x0, 0x0, 0x0⟩,
   ⟨Reg.BEL_CNT, 8, 8192, 8, 0x0, 0x0, 0x0, 0x0⟩,
   ⟨Reg.BEL_SNAP, 8, 8192, 8, 0x0, 0x0, 0x0, 0x0⟩]

/-- Rows of the TOP block. -/
def rowsTop0 : List RegRow :=
  [⟨Reg.TOP_PART, 4, 1, 0, 0x0, 0x0, 0x0, 0x0⟩,
   ⟨Reg.TOP_VERSION, 4, 1, 0, 0x0, 0x0, 0x0, 0x0⟩,
   ⟨Reg.TOP_MODULE_ID, 8, 1, 0, 0x0, 0x0, 0x0, 0x0⟩,
   ⟨Reg.TOP_ROM_VERSION, 8, 1, 0, 0x0, 0x0, 0x0, 0x0⟩,
   ⟨Reg.TOP_STATUS, 4, 1, 0, 0x0, 0x0, 0x0, 0x0⟩,
   ⟨Reg.TOP_BOOT, 4, 1, 0, 0x0, 0x0, 0x0, 0x0⟩,
   ⟨Reg.TOP_PENDING, 4, 1, 0, 0x0, 0x0, 0x0, 0x0⟩,
   ⟨Reg.TOP_CTRL, 4, 1, 0, 0x0, 0x0, 0x1, 0x0⟩,
   ⟨Reg.TOP_SCRATCH, 4, 1, 0, 0xFFFFFFFF, 0x0, 0x0, 0x0⟩,
   ⟨Reg.TOP_ACCESS_ERR, 4, 1, 0, 0x0, 0x80000000, 0x0, 0x0⟩]

/-- Every register of the module. -/
def regRows : List RegRow :=
  rowsLast0 ++ rowsTick0 ++ rowsAdm0 ++ rowsAdm1 ++ rowsFmt0 ++ rowsQnt0 ++
  rowsQnt1 ++ rowsMe0 ++ rowsVe0 ++ rowsTrl0 ++ rowsMem0 ++ rowsMem1 ++
  rowsUpd0 ++ rowsClo0 ++ rowsPyu0 ++ rowsStl0 ++ rowsPlt0 ++ rowsPci0 ++
  rowsPci1 ++ rowsPwr0 ++ rowsLdg0 ++ rowsSbk0 ++ rowsHlt0 ++ rowsBel0 ++
  rowsTop0

/-- The row and the base offset of the register that holds BAR0 byte `o`. -/
def regAt (o : Nat) : Option (RegRow × Nat) :=
  (regRows.find? fun r => r.off ≤ o && decide (o < r.off + (r.count - 1) * r.stride + r.width) &&
    decide ((o - r.off) % (if r.stride = 0 then r.width else r.stride) < r.width)).map fun r =>
    (r, if r.stride = 0 then r.off else r.off + (o - r.off) / r.stride * r.stride)

end Sys2Proof
end

