-- ==== Sys2Proof/Machine/State.lean ====
section
/-! DEFINITION. The state of the module: the command queue, the register file, memory, the free-value counter, what
has been sent, and one part per block. State.reset is the module before its input is valid. -/

namespace Sys2Proof.Machine

/-- The whole machine. `regs` is keyed by BAR0 offset (plus 2^26 times the number of the selected unit, for a register
that a selector banks); `mem` by device address, an HBM byte by its address in the channel window (R215, R419); `free`
counts the free values used. -/
structure State where
  pending : List Instr
  regs : Regs
  mem : Bytes
  free : Nat
  out : List Output
  heldOut : List Output
  boot : Boot
  image : ImageSt
  tick : TickSt
  adm : AdmSt
  seg : SegSt
  me : MatrixSt
  ve : VectorSt
  stl : StilePlots
  hbm : HbmSt
  upd : UpdSt
  clo : CloSt
  trl : TrellisSt
  pyu : PyurnSt
  pwr : PowerSt
  ldg : LodgeSt
  host : HostIf
  sec : SecSt
  sbk : SeedBank
  hlt : Ledger
  bel : Belvedere
deriving DecidableEq, Repr

/-- Why the machine stops with a fault: no command of the spec stops the module, and none of this model raises one. -/
inductive Fault where
deriving DecidableEq, Repr

/-- Why a command has no meaning. -/
inductive Refusal where
  /-- Raised by an arm of exec whose command has no meaning yet (safe). -/
  | notModelled (mnemonic : String)
deriving DecidableEq, Repr

/-- The registers whose table gives a reset value other than 0 (block tables; R236, R273, R298, R343, R359, R424). -/
def resetRegs : Regs :=
  [(Reg.TOP_PART, 0x04740512), (Reg.TOP_VERSION, 0x00010101), (Reg.TICK_CTRL, 4), (Reg.TICK_SLACK_MIN, 0x1FFFFFF),
   (Reg.TRL_WEIGHTS, 0x00114488), (Reg.MEM_TEMP0, 0xFFFFFFFF), (Reg.MEM_TEMP1, 0xFFFFFFFF),
   (Reg.CLO_S_SLACK_MIN, 0xFFFFFF), (Reg.PYU_WAKE, 0xFFFF), (Reg.PCI_WIN_SIZE, 28), (Reg.PWR_LIMITS, 0x0A8C04B0)]

/-- The ledger as shipped: the header of the SPARES record (R397 to R399); its 512 data bytes are fused (R16) and read
from Config. Further records of the test's power-ups are left out (DESIGN CHOICE, log 6). -/
def resetLedger : Ledger :=
  { bytes := [(0, 0x0B), (2, 0x10), (3, 0x02)] }

/-- The channel map of a module whose MEM_MAP was never written: the channels that passed test (R217, R392). -/
def shippedMap : BitVec 256 :=
  BitVec.ofNat 256 ((List.range 256).foldl (fun a ch => a + (Config.channelPassed ch).toNat * 2 ^ ch) 0)

/-- The module with no valid input: nothing powered, every register at the reset value of its table, the persistent
store as shipped. POWER_VALID_48V begins the start-up (R378). -/
def State.reset : State where
  pending := []
  regs := resetRegs
  mem := []
  free := 0
  out := []
  heldOut := []
  boot := {}
  image := {}
  tick := {}
  adm := {}
  seg := {}
  me := {}
  ve := {}
  stl := {}
  hbm := { inService := shippedMap }
  upd := {}
  clo := {}
  trl := {}
  pyu := {}
  pwr := {}
  ldg := {}
  host := {}
  sec := {}
  sbk := {}
  hlt := resetLedger
  bel := {}

end Sys2Proof.Machine
end

