-- ==== Sys2Proof/Machine/Store.lean ====
section
/-! DEFINITION. Sparse stores: what the state keeps by number (memory bytes, registers, per-unit records), as a
list of pairs in one canonical form. The same four operations serve every store. -/

namespace Sys2Proof.Machine

variable {α : Type} [DecidableEq α]

/-- The value a store holds for `k`; `d` is what an unlisted number reads as. -/
def storeGet (d : α) : List (Nat × α) → Nat → α
  | [], _ => d
  | (k', v) :: m, k => if k = k' then v else storeGet d m k

/-- Write `v` at `k`, keeping the canonical form: rising numbers, no entry equal to `d`. -/
def storeSet (d : α) : List (Nat × α) → Nat → α → List (Nat × α)
  | [], k, v => if v = d then [] else [(k, v)]
  | (k', v') :: m, k, v =>
    if k < k' then (if v = d then (k', v') :: m else (k, v) :: (k', v') :: m)
    else if k = k' then (if v = d then m else (k, v) :: m)
    else (k', v') :: storeSet d m k v

/-- The canonical form from number `lo` upward. -/
def storeFrom (d : α) : Nat → List (Nat × α) → Bool
  | _, [] => true
  | lo, (k, v) :: m => decide (lo ≤ k) && decide (v ≠ d) && storeFrom d (k + 1) m

/-- The canonical form: numbers strictly rising, no entry equal to what an unlisted number reads as. -/
def storeWf (d : α) (m : List (Nat × α)) : Bool := storeFrom d 0 m

/-- Write consecutive values from `k` upward. -/
def storeSetMany (d : α) (m : List (Nat × α)) (k : Nat) : List α → List (Nat × α)
  | [] => m
  | v :: vs => storeSetMany d (storeSet d m k v) (k + 1) vs

/-- Read `n` consecutive values from `k` upward. -/
def storeGetMany (d : α) (m : List (Nat × α)) (k : Nat) : Nat → List α
  | 0 => []
  | n + 1 => storeGet d m k :: storeGetMany d m (k + 1) n

/-- Drop every entry whose number satisfies `p`: those numbers then read as `d`. -/
def storeDrop (m : List (Nat × α)) (p : Nat → Bool) : List (Nat × α) := m.filter fun e => !p e.1

end Sys2Proof.Machine
end

