-- ==== Sys2Proof/Machine/Flags.lean ====
section
/-! DEFINITION. Registers, bit fields, counters, events with their MSI-X messages, trace records and free values: what
every command uses to touch the register file. -/

namespace Sys2Proof.Machine

/-! ## Bit fields and bytes -/

/-- Bits hi..lo of a number. -/
def bits (v hi lo : Nat) : Nat := v / 2 ^ lo % 2 ^ (hi + 1 - lo)

/-- `v` with `width` bits from `lo` replaced by the low bits of `x`. -/
def putBits (v lo width x : Nat) : Nat :=
  v % 2 ^ lo + 2 ^ lo * (x % 2 ^ width) + 2 ^ (lo + width) * (v / 2 ^ (lo + width))

/-- The low `n` bytes of a number, byte 0 first (R9). -/
def leBytes : Nat → Nat → List Byte
  | 0, _ => []
  | n + 1, v => BitVec.ofNat 8 v :: leBytes n (v / 256)

/-- The number a little-endian byte list holds (R9). -/
def ofLe : List Byte → Nat
  | [] => 0
  | b :: bs => b.toNat + 256 * ofLe bs

/-! ## The register file -/

/-- The key of a register's copy for unit `i` (a register that a selector banks). -/
def bankKey (off i : Nat) : Nat := off + 67108864 * i

/-- The value held for a register. -/
def State.reg (s : State) (o : Nat) : DWord := storeGet 0 s.regs o

/-- The state with a register's value replaced. -/
def State.setReg (s : State) (o : Nat) (v : DWord) : State := { s with regs := storeSet 0 s.regs o v }

/-- A register's value as a number. -/
def State.regN (s : State) (o : Nat) : Nat := (s.reg o).toNat

/-- Write a number to a register. -/
def State.setRegN (s : State) (o v : Nat) : State := s.setReg o (BitVec.ofNat 64 v)

/-- A field of a register. -/
def State.fld (s : State) (o hi lo : Nat) : Nat := bits (s.regN o) hi lo

/-- Write a field of a register. -/
def State.setFld (s : State) (o hi lo x : Nat) : State := s.setRegN o (putBits (s.regN o) lo (hi + 1 - lo) x)

/-- One bit of a register. -/
def State.bit (s : State) (o i : Nat) : Bool := (s.reg o).getLsbD i

/-- Write one bit of a register. -/
def State.setBit (s : State) (o i : Nat) (b : Bool) : State := s.setFld o i i b.toNat

/-- Set the bits of a mask. -/
def State.orReg (s : State) (o : Nat) (m : DWord) : State := s.setReg o (s.reg o ||| m)

/-- Clear the bits of a mask (a W1C write, R13). -/
def State.clearReg (s : State) (o : Nat) (m : DWord) : State := s.setReg o (s.reg o &&& ~~~m)

/-- Advance a count register of `w` bits, which saturates at all ones (block tables). -/
def State.count (s : State) (o w n : Nat) : State := s.setRegN o (min (s.regN o + n) (2 ^ w - 1))

/-- Raise a register to `v` if it holds less. -/
def State.maxReg (s : State) (o v : Nat) : State := s.setRegN o (max (s.regN o) v)

/-- Lower a register to `v` if it holds more. -/
def State.minReg (s : State) (o v : Nat) : State := s.setRegN o (min (s.regN o) v)

/-- Set several registers to 0. -/
def State.zeroRegs (s : State) : List Nat → State
  | [] => s
  | o :: os => State.zeroRegs (s.setReg o 0) os

/-- Drop every banked copy of the registers in the list: they read 0. -/
def State.zeroBanks (s : State) (offs : List Nat) : State :=
  { s with regs := storeDrop s.regs fun k => offs.contains (k % 67108864) }

/-- The events of a clear's own cycle: each register then reads the amount given for it (R439). -/
def State.sameCycle (s : State) : List (Nat × Nat) → State
  | [] => s
  | (o, n) :: rest => State.sameCycle (s.setRegN o n) rest

/-- `same` restricted to the registers that the clear resets. -/
def sameIn (offs : List Nat) (same : List (Nat × Nat)) : List (Nat × Nat) :=
  same.filter fun p => offs.contains (p.1 % 67108864)

/-! ## Free values -/

/-- The next free value: bits no rule states. -/
def State.fresh (s : State) : DWord := Config.freeBits s.free

/-- The free-value counter after one use. -/
def State.used (s : State) : State := { s with free := s.free + 1 }

/-! ## Output -/

/-- Something leaves the module. -/
def State.send (s : State) (x : Output) : State := { s with out := s.out ++ [x] }

/-- The host link is up (PCI_LINK.UP). -/
def State.linkUp (s : State) : Bool := s.bit Reg.PCI_LINK 10

/-- A ring write or message to the host: held while the link is down (R339). -/
def State.toHost (s : State) (x : Output) : State :=
  if s.linkUp then s.send x else { s with heldOut := s.heldOut ++ [x] }

/-! ## MSI-X (R335, R336) -/

/-- The vector that an EVENT register signals (R335); FMT, QNT and PWR have none. -/
def vectorOf (o : Nat) : Option Nat :=
  if o = Reg.PCI_EVENT then some 0 else if o = Reg.ADM_EVENT then some 1 else if o = Reg.TICK_EVENT then some 2
  else if o = Reg.LAST_EVENT then some 3 else if o = Reg.MEM_EVENT then some 12 else if o = Reg.CLO_EVENT then some 13
  else if o = Reg.PYU_EVENT then some 14 else if o = Reg.STL_EVENT then some 15 else if o = Reg.PLT_EVENT then some 16
  else if o = Reg.UPD_EVENT then some 17 else if o = Reg.ME_EVENT then some 18 else if o = Reg.VE_EVENT then some 19
  else if o = Reg.TRL_EVENT then some 20 else if o = Reg.LDG_EVENT then some 21 else if o = Reg.HLT_EVENT then some 22
  else if o = Reg.SBK_EVENT then some 23 else if o = Reg.BEL_EVENT then some 24 else none

/-- The state of a vector. -/
def State.vec (s : State) (v : Nat) : MsixVec := storeGet {} s.host.msix v

/-- Replace the state of a vector. -/
def State.setVec (s : State) (v : Nat) (x : MsixVec) : State :=
  { s with host := { s.host with msix := storeSet {} s.host.msix v x } }

/-- Send a vector's message, or set its pending bit if it is masked (R336). -/
def State.fire (s : State) (v : Nat) : State :=
  if (s.vec v).masked then s.setVec v { s.vec v with pendingBit := true, due := false }
  else
    (s.setVec v { s.vec v with pendingBit := false, due := false, cooling := decide (s.fld Reg.PCI_COALESCE 7 0 ≠ 0) }).toHost
      (.msix v)

/-- A vector's message falls due: sent at once, or at the end of the coalescing interval (R336). -/
def State.signal (s : State) (v : Nat) : State :=
  if (s.vec v).cooling && decide (s.fld Reg.PCI_COALESCE 7 0 ≠ 0) then s.setVec v { s.vec v with due := true }
  else s.fire v

/-- Set a bit of an EVENT register; a change from 0 to 1 makes its vector's message due (R336). -/
def State.event (s : State) (o i : Nat) : State :=
  if s.bit o i then s
  else match vectorOf o with
    | some v => (s.setBit o i true).signal v
    | none => s.setBit o i true

/-! ## Belvedere counters (R407) and live ledger fields (R402) -/

/-- Advance a counter of the Belvedere, which saturates at all ones. -/
def State.bel64 (s : State) (i n : Nat) : State :=
  { s with bel := { s.bel with
      cnt := storeSet 0 s.bel.cnt i (BitVec.ofNat 64 (min ((storeGet 0 s.bel.cnt i).toNat + n) (2 ^ 64 - 1))) } }

/-- Counter `k` of a core (R408). -/
def coreCnt (core k : Nat) : Nat := core / 64 * 4096 + 32 * (core % 64) + k

/-- Counter `k` of a cluster numbered die × 8 + cluster. -/
def clusterCnt (cl k : Nat) : Nat := cl / 8 * 4096 + 2048 + 64 * (cl % 8) + k

/-- Counter `k` of an HBM channel. -/
def chanCnt (ch k : Nat) : Nat := ch / 128 * 4096 + 2560 + 8 * (ch % 128) + k

/-- Counter `k` of a Pyurn port. -/
def portCnt (p k : Nat) : Nat := p / 8 * 4096 + 3584 + 32 * (p % 8) + k

/-- Counter `k` of a die. -/
def dieCnt (d k : Nat) : Nat := d * 4096 + 3840 + k

/-- Advance die counter `k` on both dies: those of the tick units, ticks, steps and stitches (R408). -/
def State.belBoth (s : State) (k n : Nat) : State := (s.bel64 (dieCnt 0 k) n).bel64 (dieCnt 1 k) n

/-- Advance a live field of the summary, by its offset in the record; its width is applied when the record is made. -/
def State.live (s : State) (off n : Nat) : State :=
  { s with hlt := { s.hlt with live := storeSet 0 s.hlt.live off (storeGet 0 s.hlt.live off + n) } }

/-- Advance a live field of which `scale` finer units make one: the finer count stands beside it, 65,536 higher. -/
def State.liveScaled (s : State) (off n scale : Nat) : State :=
  let s1 := s.live (off + 65536) n
  { s1 with hlt := { s1.hlt with live := storeSet 0 s1.hlt.live off (storeGet 0 s1.hlt.live (off + 65536) / scale) } }

/-- Raise a live field that keeps a highest value. -/
def State.liveMax (s : State) (off v : Nat) : State :=
  { s with hlt := { s.hlt with live := storeSet 0 s.hlt.live off (max (storeGet 0 s.hlt.live off) v) } }

/-! ## Trace (R410 to R416) -/

/-- The trace path of a die. -/
def State.ring (s : State) (d : Nat) : TraceRing := storeGet {} s.bel.rings d

/-- Replace the trace path of a die. -/
def State.setRing (s : State) (d : Nat) (r : TraceRing) : State :=
  { s with bel := { s.bel with rings := storeSet {} s.bel.rings d r } }

/-- The base offset of the registers of ring `d`. -/
def ringOff (d : Nat) : Nat := 64 * d

/-- TICK_NOW as records carry it: all ones while no image is RUNNING (R410). -/
def State.stampTick (s : State) : Nat := if s.image.st = .running then s.tick.now else 2 ^ 64 - 1

/-- A record is lost before the Belvedere: counted, remembered for the next LOSS record, BEL_EVENT.LOSS (R415, R416). -/
def State.loseSrc (s : State) (d : Nat) : State :=
  let r := s.ring d
  let first := if r.lostRing = 0 ∧ r.lostSrc = 0 then s.stampTick else r.firstLost
  ((s.setRing d { r with lostSrc := r.lostSrc + 1, firstLost := first }).count
    (Reg.BEL_RING_LOST_SRC + ringOff d) 64 1).event Reg.BEL_EVENT 1

/-- A source of die `d` produces a record while its code is enabled (R411); with 4 of its records waiting, or 256 on the
die, it is lost (R415). The cycle stamp is a free value: the model has no clock (log 4). -/
def State.trace (s : State) (d : Fin 2) (code source payload : Nat) : State :=
  if s.bit Reg.BEL_TRACE_EN code then
    let r := s.ring d
    if 4 ≤ (r.inflight.filter fun x => x.code = code ∧ x.source = source).length ∨ 256 ≤ r.inflight.length then
      s.loseSrc d
    else
      (s.setRing d { r with inflight := r.inflight ++
        [{ die := d, tick := s.stampTick, cycle := s.fresh.toNat % 2 ^ 25, code := code, source := source,
           payload := payload }] }).used
  else s

/-- A record of the tick units: each die's ring receives its own copy (R411). -/
def State.traceBoth (s : State) (code payload : Nat) : State := (s.trace 0 code 0 payload).trace 1 code 0 payload

/-- Whether a unit numbered 0 to 2n − 1, the first n on die 0, lies on die 1. -/
def dieOf (i n : Nat) : Fin 2 := if i < n then 0 else 1

end Sys2Proof.Machine
end

