-- ==== Sys2Proof/Machine/Digest.lean ====
section
/-! DEFINITION. SHAKE256 as FIPS 202 has it, which R28, R44, R45, R263 and R386 name: the permutation Keccak-f[1600] on 25 lanes of
64 bits, the sponge with a rate of 136 bytes, and the digests of 256 and 512 bits. -/

namespace Sys2Proof.Machine

/-- The rotation of each lane, lane (x, y) at x + 5·y. -/
def keccakRot : List Nat :=
  [0, 1, 62, 28, 27, 36, 44, 6, 55, 20, 3, 10, 43, 25, 39, 41, 45, 15, 21, 8, 18, 2, 61, 56, 14]

/-- The constants of the 24 rounds. -/
def keccakRounds : List DWord :=
  [0x0000000000000001, 0x0000000000008082, 0x800000000000808A, 0x8000000080008000, 0x000000000000808B, 0x0000000080000001,
   0x8000000080008081, 0x8000000000008009, 0x000000000000008A, 0x0000000000000088, 0x0000000080008009, 0x000000008000000A,
   0x000000008000808B, 0x800000000000008B, 0x8000000000008089, 0x8000000000008003, 0x8000000000008002, 0x8000000000000080,
   0x000000000000800A, 0x800000008000000A, 0x8000000080008081, 0x8000000000008080, 0x0000000080000001, 0x8000000080008008]

/-- A lane. -/
def lane (a : List DWord) (x y : Nat) : DWord := a.getD (x % 5 + 5 * (y % 5)) 0

/-- Lanes given by their place. -/
def lanes (f : Nat → Nat → DWord) : List DWord := (List.range 25).map fun i => f (i % 5) (i / 5)

/-- The parity of each column. -/
def columns (a : List DWord) : List DWord :=
  (List.range 5).map fun x => lane a x 0 ^^^ lane a x 1 ^^^ lane a x 2 ^^^ lane a x 3 ^^^ lane a x 4

/-- Theta. -/
def keccakTheta (a : List DWord) : List DWord :=
  let c := columns a
  lanes fun x y => lane a x y ^^^ c.getD ((x + 4) % 5) 0 ^^^ (c.getD ((x + 1) % 5) 0).rotateLeft 1

/-- Rho and pi: lane (x, y) of the result is lane (x + 3y, x), rotated. -/
def keccakRhoPi (a : List DWord) : List DWord :=
  lanes fun x y => (lane a (x + 3 * y) x).rotateLeft (keccakRot.getD ((x + 3 * y) % 5 + 5 * x) 0)

/-- Chi. -/
def keccakChi (a : List DWord) : List DWord := lanes fun x y => lane a x y ^^^ (~~~lane a (x + 1) y &&& lane a (x + 2) y)

/-- One round. -/
def keccakRound (a : List DWord) (rc : DWord) : List DWord :=
  match keccakChi (keccakRhoPi (keccakTheta a)) with
  | [] => []
  | l :: ls => (l ^^^ rc) :: ls

/-- Keccak-f[1600]. -/
def keccakF (a : List DWord) : List DWord := keccakRounds.foldl keccakRound a

/-- The rate of SHAKE256 in bytes. -/
def shakeRate : Nat := 136

/-- Absorb one block of the rate. -/
def absorbBlock (a : List DWord) (b : List Byte) : List DWord :=
  keccakF (lanes fun x y => lane a x y ^^^ BitVec.ofNat 64 (ofLe ((b.drop (8 * (x + 5 * y))).take 8)))

/-- The last block: what is left of the message, the suffix of SHAKE, and the final bit. -/
def lastBlock (b : List Byte) : List Byte :=
  if b.length + 1 = shakeRate then b ++ [0x9F]
  else b ++ 0x1F :: List.replicate (shakeRate - 2 - b.length) 0 ++ [0x80]

/-- Absorb a message; the fuel covers its blocks. -/
def absorbAll (a : List DWord) : Nat → List Byte → List DWord
  | 0, b => absorbBlock a (lastBlock b)
  | fuel + 1, b =>
    if b.length < shakeRate then absorbBlock a (lastBlock b)
    else absorbAll (absorbBlock a (b.take shakeRate)) fuel (b.drop shakeRate)

/-- The first `n` bytes of SHAKE256 of a message, for `n` up to the rate. -/
def shake256 (n : Nat) (m : List Byte) : List Byte :=
  ((absorbAll (List.replicate 25 0) (m.length / shakeRate) m).flatMap fun l => leBytes 8 l.toNat).take n

/-- The digest of 256 bits as a number (R9). -/
def digest256 (m : List Byte) : Nat := ofLe (shake256 32 m)

/-- The digest of 512 bits as a number. -/
def digest512 (m : List Byte) : Nat := ofLe (shake256 64 m)

end Sys2Proof.Machine
end

