-- ==== Sys2Proof/Machine/Header.lean ====
section
/-! DEFINITION. The bytes of a Last image: the header of R27, the directory of R28, the digests of R44 and the trailer's
verification of R45, all read from the image's own bytes; and the bytes that a header and an entry stand for. -/

namespace Sys2Proof

open Sys2Proof.Machine

/-- `n` bytes at an offset as a little-endian number (R9); bytes past the end read as 0 (R44). -/
def rawField (raw : List Byte) (off n : Nat) : Nat := ofLe ((raw.drop off).take n)

/-- The bytes of a span. -/
def rawBytes (raw : List Byte) (off n : Nat) : List Byte := (raw.drop off).take n

/-- The header as the bytes spell it (R27). -/
def headerOf (raw : List Byte) : ImageHeader where
  magic := rawField raw 0x00 4
  formatVersion := rawField raw 0x04 2
  headerLength := rawField raw 0x06 2
  partCode := rawField raw 0x08 4
  sectionCount := rawField raw 0x0C 4
  imageLength := rawField raw 0x10 8
  imageId := rawField raw 0x18 8
  jobId := rawField raw 0x20 8
  rank := rawField raw 0x28 4
  jobSize := rawField raw 0x2C 4
  securityVersion := rawField raw 0x30 4
  afrixVersion := rawField raw 0x34 4
  tickPeriod := rawField raw 0x38 4
  flags := rawField raw 0x3C 4
  channelMap := BitVec.ofNat 256 (rawField raw 0x40 32)
  publicKey := rawField raw 0x60 64
  reserved := rawField raw 0xA0 96

/-- The 256 bytes of a header (R27). -/
def headerBytes (h : ImageHeader) : List Byte :=
  leBytes 4 h.magic ++ leBytes 2 h.formatVersion ++ leBytes 2 h.headerLength ++ leBytes 4 h.partCode ++
  leBytes 4 h.sectionCount ++ leBytes 8 h.imageLength ++ leBytes 8 h.imageId ++ leBytes 8 h.jobId ++ leBytes 4 h.rank ++
  leBytes 4 h.jobSize ++ leBytes 4 h.securityVersion ++ leBytes 4 h.afrixVersion ++ leBytes 4 h.tickPeriod ++
  leBytes 4 h.flags ++ leBytes 32 h.channelMap.toNat ++ leBytes 64 h.publicKey ++ leBytes 96 h.reserved

/-- Every field fits its size in the table of R27. -/
def headerFits (h : ImageHeader) : Bool :=
  decide (h.magic < 2 ^ 32 ∧ h.formatVersion < 2 ^ 16 ∧ h.headerLength < 2 ^ 16 ∧ h.partCode < 2 ^ 32 ∧
    h.sectionCount < 2 ^ 32 ∧ h.imageLength < 2 ^ 64 ∧ h.imageId < 2 ^ 64 ∧ h.jobId < 2 ^ 64 ∧ h.rank < 2 ^ 32 ∧
    h.jobSize < 2 ^ 32 ∧ h.securityVersion < 2 ^ 32 ∧ h.afrixVersion < 2 ^ 32 ∧ h.tickPeriod < 2 ^ 32 ∧
    h.flags < 2 ^ 32 ∧ h.publicKey < 2 ^ 512 ∧ h.reserved < 2 ^ 768)

/-- The directory entry that starts at byte `o` (R28). -/
def entryAt (raw : List Byte) (o : Nat) : DirEntry where
  type := rawField raw o 2
  flags := rawField raw (o + 2) 2
  reserved := rawField raw (o + 4) 4
  offset := rawField raw (o + 8) 8
  length := rawField raw (o + 16) 8
  digest := rawField raw (o + 24) 64

/-- The 88 bytes of a directory entry (R28). -/
def entryBytes (d : DirEntry) : List Byte :=
  leBytes 2 d.type ++ leBytes 2 d.flags ++ leBytes 4 d.reserved ++ leBytes 8 d.offset ++ leBytes 8 d.length ++
  leBytes 64 d.digest

/-- The trailer's length (R26). -/
def trailerLength : Nat := 29792

/-- The image's header. -/
def ImageFile.header (f : ImageFile) : ImageHeader := headerOf f.raw

/-- The directory of an image's bytes: section_count entries from byte 256 on (R28); an image holds at most 64 sections (R27). -/
def dirOf (raw : List Byte) : List DirEntry :=
  (List.range (min (headerOf raw).sectionCount 64)).map fun i => entryAt raw (256 + 88 * i)

/-- The directory. -/
def ImageFile.dir (f : ImageFile) : List DirEntry := dirOf f.raw

/-- The bytes of the public key. -/
def keyOf (raw : List Byte) : List Byte := rawBytes raw 0x60 64

/-- The bytes of the public key. -/
def ImageFile.keyBytes (f : ImageFile) : List Byte := keyOf f.raw

/-- The SHAKE256 digest of the public key, 256 bits (R44 step 3). -/
def ImageFile.keyDigest (f : ImageFile) : Nat := digest256 f.keyBytes

/-- Where the trailer starts: the length of the signed region (R26). -/
def signedLengthOf (raw : List Byte) : Nat := (headerOf raw).imageLength - trailerLength

/-- Where the trailer starts. -/
def ImageFile.signedLength (f : ImageFile) : Nat := signedLengthOf f.raw

/-- The signed region: everything before the trailer. -/
def signedOf (raw : List Byte) : List Byte := raw.take (signedLengthOf raw)

/-- The signed region. -/
def ImageFile.signed (f : ImageFile) : List Byte := signedOf f.raw

/-- The image digest (R45). -/
def ImageFile.digest (f : ImageFile) : Nat := digest512 f.signed

/-- The SHAKE256 digest of a section's bytes, 512 bits (R28). -/
def sectionDigestOf (raw : List Byte) (d : DirEntry) : Nat := digest512 (rawBytes raw d.offset d.length)

/-- The SHAKE256 digest of a section's bytes. -/
def ImageFile.sectionDigest (f : ImageFile) (d : DirEntry) : Nat := sectionDigestOf f.raw d

/-- The context string "GT4-LAST" (R45). -/
def lastContext : List Byte := [0x47, 0x54, 0x34, 0x2D, 0x4C, 0x41, 0x53, 0x54]

/-- The context string "GT4-BOOT" of a boot image (R382). -/
def bootContext : List Byte := [0x47, 0x54, 0x34, 0x2D, 0x42, 0x4F, 0x4F, 0x54]

/-- The context string "GT4-ENRL" of an enrollment record (R388). -/
def enrollContext : List Byte := [0x47, 0x54, 0x34, 0x2D, 0x45, 0x4E, 0x52, 0x4C]

/-- The object identifier of SHAKE256 with its DER header, 2.16.840.1.101.3.4.2.12, as HashSLH-DSA puts it into the message. -/
def shakeOid : List Byte := [0x06, 0x09, 0x60, 0x86, 0x48, 0x01, 0x65, 0x03, 0x04, 0x02, 0x0C]

/-- The message that HashSLH-DSA verifies (R45, FIPS 205): the pre-hash mark, the context with its length, the identifier of
the pre-hash, and the pre-hash SHAKE256 of 512 bits. -/
def hashSlhMessage (context message : List Byte) : List Byte :=
  [1, BitVec.ofNat 8 context.length] ++ context ++ shakeOid ++ shake256 64 message

/-- The message that SLH-DSA verifies where no pre-hash is named (R388, FIPS 205; DEDUCED, log 83). -/
def pureSlhMessage (context message : List Byte) : List Byte := [0, BitVec.ofNat 8 context.length] ++ context ++ message

/-- The trailer verifies over the signed region under a context string (R45, R382). -/
def trailerValid (context raw : List Byte) : Bool :=
  Config.slhVerify (keyOf raw) (hashSlhMessage context (signedOf raw)) (rawBytes raw (signedLengthOf raw) trailerLength)

/-- The trailer verifies over the signed region (R45). -/
def ImageFile.sigValid (f : ImageFile) : Bool := trailerValid lastContext f.raw

end Sys2Proof
end

