-- ==== Sys2Proof/Machine/Ledger.lean ====
section
/-! DEFINITION. The seed bank's write queue, wear and freezing (R392 to R396), and appending to, rendering and reading the
health ledger (R397 to R403). -/

namespace Sys2Proof.Machine

/-! ## Seed bank -/

/-- What an unwritten register reads (R392, last column). -/
def seedUnwritten (i : Nat) : Word :=
  if i = 0 then 2300 else if i = 1 then 95 else if i = 2 then 4096
  else if 8 ≤ i ∧ i ≤ 15 then BitVec.ofNat 32 ((List.range 32).foldl
      (fun a b => a + (Config.channelPassed (32 * (i - 8) + b)).toNat * 2 ^ b) 0)
  else if 16 ≤ i ∧ i ≤ 31 then 0xFFFAC688
  else if i = 38 then Config.moduleId.setWidth 32 else if i = 39 then (Config.moduleId >>> 32).setWidth 32
  else 0

/-- The write count of a register. -/
def State.wear (s : State) (i : Nat) : Nat := storeGet 0 s.sbk.wear i

/-- A register is frozen from its 200,000th write onward (R396). -/
def State.frozen (s : State) (i : Nat) : Bool := decide (200000 ≤ s.wear i)

/-- The persisted value of a register. -/
def State.seedStored (s : State) (i : Nat) : Word := if s.wear i = 0 then seedUnwritten i else storeGet 0 s.sbk.vals i

/-- The latest write in a list of writes to register `i`, or the value given. -/
def lastWrite (i : Nat) (v : Word) : List (Nat × Word) → Word
  | [] => v
  | (j, w) :: ws => lastWrite i (if j = i then w else v) ws

/-- Every write the queue holds, oldest first. -/
def queued (q : List SeedEntry) : List (Nat × Word) := q.flatMap SeedEntry.writes

/-- What a register reads: from the moment a write is accepted, the new value (R393). -/
def State.seed (s : State) (i : Nat) : Word := lastWrite i (s.seedStored i) (queued s.sbk.queue)

/-- A write to a frozen register was ignored: HIT, and INDEX unless a record is held (R396). -/
def State.frozenHit (s : State) (i : Nat) : State :=
  let s := s.setBit Reg.SBK_FROZEN 0 true
  if s.bit Reg.SBK_FROZEN 31 then s else (s.setFld Reg.SBK_FROZEN 25 16 i).setBit Reg.SBK_FROZEN 31 true

/-- One write: ignored on a frozen register or a full queue, otherwise accepted (R393, R396). -/
def State.seedAccept (s : State) (i : Nat) (v : Word) : State :=
  if s.frozen i then s.frozenHit i
  else if 16 ≤ (queued s.sbk.queue).length then s.event Reg.SBK_EVENT 2
  else { s with sbk := { s.sbk with queue := s.sbk.queue ++ [⟨[(i, v)]⟩] } }

/-- Whether any register of a group is frozen. -/
def State.groupFrozen (s : State) (ws : List (Nat × Word)) : Bool := ws.any fun w => s.frozen w.1

/-- A group is accepted whole, or refused whole when a register of it is frozen or the queue lacks room (R393, R395). -/
def State.seedGroup (s : State) (ws : List (Nat × Word)) : State :=
  match ws.find? fun w => s.frozen w.1 with
  | some w => s.frozenHit w.1
  | none =>
    if 16 < (queued s.sbk.queue).length + ws.length then s.event Reg.SBK_EVENT 2
    else { s with sbk := { s.sbk with queue := s.sbk.queue ++ [⟨ws⟩] } }

/-! ## Appending to the ledger -/

/-- Size of the ledger, and the first offset of its reserve (R401). -/
def ledgerSize : Nat := 16777216

/-- The last 256 KiB are the reserve. -/
def reserveStart : Nat := 16777216 - 262144

/-- The types that may still be appended in the reserve: SUMMARY, BOOT, TRIP (R401). -/
def reserveType (ty : Nat) : Bool := decide (ty = 1 ∨ ty = 2 ∨ ty = 3)

/-- The summary's suppressed-count field of an allowance type (R402). -/
def suppressedAt (ty : Nat) : Nat := 0xC08 + 4 * (ty - 0x0D)

/-- A record that is not appended is counted in HLT_LOST. -/
def State.ledgerLost (s : State) : State := s.count Reg.HLT_LOST 32 1

/-- Write a record at HLT_TAIL with its header (R397, R398), and set the events of R405. -/
def State.ledgerWrite (s : State) (ty cls len : Nat) (body : List Byte) : State :=
  let tail := s.hlt.tail
  let rec16 := leBytes 1 ty ++ leBytes 1 cls ++ leBytes 2 len ++ leBytes 4 s.hlt.records ++
    leBytes 8 (s.regN Reg.LDG_UPTIME)
  let s1 : State := { s with hlt := { s.hlt with
    bytes := storeSetMany 0 s.hlt.bytes tail (rec16 ++ body), tail := tail + len, records := s.hlt.records + 1,
    allow := if cls = 1 then storeSet 0 s.hlt.allow ty (storeGet 0 s.hlt.allow ty + 1) else s.hlt.allow } }
  let s2 := if cls = 0 then s1.event Reg.HLT_EVENT 0 else s1
  let s3 := if tail < reserveStart ∧ reserveStart ≤ tail + len then s2.event Reg.HLT_EVENT 1 else s2
  if ledgerSize < tail + 64 + len ∧ tail + 64 ≤ ledgerSize then s3.event Reg.HLT_EVENT 2 else s3

/-- Append a record if R400 and R401 allow it; count it as lost otherwise. -/
def State.ledgerAppend (s : State) (ty cls len : Nat) (body : List Byte) : State :=
  if cls = 1 ∧ 4 ≤ storeGet 0 s.hlt.allow ty then (s.live (suppressedAt ty) 1).ledgerLost
  else if ledgerSize < s.hlt.tail + len ∨ (reserveStart ≤ s.hlt.tail ∧ reserveType ty = false) then s.ledgerLost
  else s.ledgerWrite ty cls len body

/-- The tick an event record carries: all ones when no tick runs (R398). -/
def State.recordTick (s : State) : Nat := if s.tick.ticking then s.tick.now else 2 ^ 64 - 1

/-- Pad a byte list with zeros to `n` bytes, or cut it. -/
def padTo (n : Nat) (bs : List Byte) : List Byte := (bs ++ List.replicate n 0).take n

/-- Append a 64-byte event record (R398). -/
def State.ledgerEvent (s : State) (ty cls subject detail : Nat) (data : List Byte) : State :=
  s.ledgerAppend ty cls 64 (leBytes 8 s.recordTick ++ leBytes 4 subject ++ leBytes 4 detail ++ padTo 32 data)

/-- A FATAL record (R399): its kind is the subject. -/
def State.ledgerFatal (s : State) (kind detail : Nat) : State := s.ledgerEvent 0x08 0 kind detail []

/-! ## Persisting the head of the queue (R394, R396) -/

/-- Drop from the queue every entry that writes a register now frozen; each such write sets HIT. -/
def State.dropFrozen (s : State) (i : Nat) : State :=
  let hit := s.sbk.queue.any fun e => e.writes.any fun w => w.1 = i
  let s' : State := { s with sbk := { s.sbk with
    queue := s.sbk.queue.filter fun e => !(e.writes.any fun w => decide (w.1 = i)) } }
  if hit then s'.frozenHit i else s'

/-- One persisted write: the value, the write count, the warning at 180,000 and the freeze at 200,000. -/
def State.persistOne (s : State) (i : Nat) (v : Word) : State :=
  let n := s.wear i + 1
  let s1 : State := { s with sbk := { s.sbk with
    vals := storeSet 0 s.sbk.vals i v, wear := storeSet 0 s.sbk.wear i n } }
  if n = 180000 then (s1.event Reg.SBK_EVENT 0).ledgerEvent 0x0A 0 i 0 []
  else if n = 200000 then ((s1.event Reg.SBK_EVENT 1).ledgerEvent 0x0A 0 i 1 []).dropFrozen i
  else s1

/-- Persist a list of writes in order. -/
def State.persistAll (s : State) : List (Nat × Word) → State
  | [] => s
  | (i, v) :: ws => State.persistAll (s.persistOne i v) ws

/-- The persisted cap, in W (R351). -/
def State.capSet (s : State) : Nat := (s.seedStored 0).toNat % 4096

/-- A persisted cap takes effect: at the next edge while an image is RUNNING, at once otherwise (R351). -/
def State.capPersisted (s : State) : State :=
  if s.image.st = .running then { s with pwr := { s.pwr with capNext := some s.capSet } }
  else { s with pwr := { s.pwr with cap := s.capSet, capNext := none } }

/-- Persist the head entry of the queue (a group whole, R395). -/
def State.seedPersist (s : State) : State :=
  match s.sbk.queue with
  | [] => s
  | e :: q =>
    let s1 := State.persistAll { s with sbk := { s.sbk with queue := q } } e.writes
    if e.writes.any fun w => w.1 = 0 then s1.capPersisted else s1

/-! ## The summary (R402) -/

/-- Seconds of powered time, and of the interval since the last summary. -/
def State.poweredSec (s : State) : Nat := s.hlt.powered / 1000000

/-- The highest write count of the seed bank. -/
def State.maxWear (s : State) : Nat := s.sbk.wear.foldl (fun m e => max m e.2) 0

/-- The number of frozen registers. -/
def State.frozenCount (s : State) : Nat := (s.sbk.wear.filter fun e => 200000 ≤ e.2).length

/-- The suspect map as one number. -/
def State.suspectMap (s : State) : Nat :=
  (List.range 8).foldl (fun a k => a + s.regN (Reg.MEM_SUSPECT + 4 * k) * 2 ^ (32 * k)) 0

/-- `n` live fields of `size` bytes each, from offset `off`, saturating at all ones. -/
def State.liveFields (s : State) (off size : Nat) : Nat → List Byte
  | 0 => []
  | n + 1 => leBytes size (min (storeGet 0 s.hlt.live off) (2 ^ (8 * size) - 1)) ++
      State.liveFields s (off + size) size n

/-- Bytes 0x10 to 0xFFF of a SUMMARY record. -/
def State.summaryBody (s : State) : List Byte :=
  leBytes 8 s.poweredSec ++ s.liveFields 0x018 4 1 ++
  leBytes 4 (s.poweredSec - s.hlt.lastSummary / 1000000) ++
  s.liveFields 0x020 4 256 ++ s.liveFields 0x420 1 256 ++
  leBytes 32 s.hbm.inService.toNat ++ leBytes 32 s.suspectMap ++
  s.liveFields 0x560 4 128 ++ s.liveFields 0x760 4 16 ++ s.liveFields 0x7A0 4 16 ++ s.liveFields 0x7E0 4 2 ++
  List.replicate 24 0 ++
  s.liveFields 0x800 8 4 ++ s.liveFields 0x820 4 2 ++ s.liveFields 0x828 4 6 ++
  s.liveFields 0x840 4 16 ++ s.liveFields 0x880 8 2 ++ s.liveFields 0x890 4 21 ++ List.replicate 28 0 ++
  s.liveFields 0x900 4 16 ++ s.liveFields 0x940 4 128 ++ s.liveFields 0xB40 1 128 ++ s.liveFields 0xBC0 1 8 ++
  s.liveFields 0xBC8 1 32 ++ s.liveFields 0xBE8 8 2 ++ s.liveFields 0xBF8 4 2 ++
  leBytes 4 s.maxWear ++ leBytes 4 s.frozenCount ++ s.liveFields 0xC08 4 3 ++ List.replicate 1004 0

/-- Append a SUMMARY; when it is appended, the interval fields start again (R401, R402). -/
def State.appendSummary (s : State) : State :=
  let s' := s.ledgerAppend 0x01 2 4096 s.summaryBody
  if s'.hlt.records = s.hlt.records then s'
  else { s' with hlt := { s'.hlt with
    live := storeDrop s'.hlt.live (fun k => decide (0x800 ≤ k)), lastSummary := s'.hlt.powered } }

/-- The 8 bytes per channel of a SCAN record (R399): results, flags (bit 0 scanned, bit 1 mapped out), BOOT sequence. -/
def State.scanBody (s : State) : Nat → List Byte
  | 0 => []
  | n + 1 =>
    let ch := 256 - (n + 1)
    let v := storeGet 0 s.hlt.scans ch
    leBytes 8 (putBits v 25 1 (!s.hbm.inService.getLsbD ch).toNat) ++ State.scanBody s n

/-! ## Reading the ledger (R397, R403) -/

/-- A byte of the ledger: zero at or beyond HLT_TAIL; the SPARES data is the fused count of spares (R16, R399). -/
def State.ledgerByte (s : State) (o : Nat) : Byte :=
  if s.hlt.tail ≤ o then 0
  else if 16 ≤ o ∧ o < 528 then BitVec.ofNat 8 (Config.spareRows (o - 16) + 16 * Config.spareCols (o - 16))
  else storeGet 0 s.hlt.bytes o

/-- `n` bytes of the ledger from offset `o`. -/
def State.ledgerBytes (s : State) (o n : Nat) : List Byte := (List.range n).map fun i => s.ledgerByte (o + i)

/-- HLT_STATE.AREA: 0 open, 1 reserve, 2 full (R405). -/
def State.ledgerArea (s : State) : Nat :=
  if ledgerSize < s.hlt.tail + 64 then 2 else if reserveStart ≤ s.hlt.tail then 1 else 0

/-- The live snapshot: a summary with sequence 0 (R403). -/
def State.snapshotBytes (s : State) : List Byte :=
  leBytes 1 1 ++ leBytes 1 2 ++ leBytes 2 4096 ++ leBytes 4 0 ++ leBytes 8 (s.regN Reg.LDG_UPTIME) ++ s.summaryBody

end Sys2Proof.Machine
end

