-- ==== Sys2Proof/Machine/Ops.lean ====
section
/-! DEFINITION. The named operations over memory, the image's figures, the step and the halt: device addresses and the
write-combining path (R215 to R218, R233, R419), spoil causes (R138), the completion ring (R328), stopped reports and
the halt (R65). -/

namespace Sys2Proof.Machine

/-! ## Device addresses (R215, R216, R419) -/

/-- Backed bytes of a channel. -/
def chanBytes : Nat := 2000000000

/-- The channel at full stripe position `p` (R216: by channel number, then by stack). -/
def stripeChannel (p : Nat) : Nat := 32 * (p % 8) + p / 8

/-- The in-service channels in stripe order. -/
def State.stripe (s : State) : List Nat :=
  ((List.range 256).map stripeChannel).filter fun ch => s.hbm.inService.getLsbD ch

/-- K, the number of channels in service. -/
def State.chans (s : State) : Nat := s.stripe.length

/-- The memory key of a byte of HBM: its device address in the channel window. -/
def hbmKey (ch o : Nat) : Nat := 2 ^ 39 + ch * 2 ^ 31 + o

/-- The channel and offset that a device address below 2^40 reaches; none where nothing is backed (R215, R216). -/
def State.hbmPlace (s : State) (a : Nat) : Option (Nat × Nat) :=
  if a < 2 ^ 39 then
    let k := s.chans
    if a < k * chanBytes then
      let g := a / 1024
      (s.stripe[g % k]?).map fun ch => (ch, g / k * 1024 + a % 1024)
    else none
  else
    let ch := (a - 2 ^ 39) / 2 ^ 31
    let o := (a - 2 ^ 39) % 2 ^ 31
    if s.hbm.inService.getLsbD ch ∧ o < chanBytes then some (ch, o) else none

/-- The Orangery window (R419). -/
def inOrangery (a : Nat) : Bool := decide (2 ^ 40 ≤ a ∧ a < 2 ^ 40 + 16 * 2 ^ 24)

/-- The scratchpad region, for scheduled traffic only (R419). -/
def inScratch (a : Nat) : Bool := decide (2 ^ 40 + 0x20000000 ≤ a ∧ a < 2 ^ 40 + 0x30000000)

/-- Device address of byte `o` of a core's scratchpad (R419). -/
def spadAddr (core o : Nat) : Nat := 2 ^ 40 + 0x20000000 + core * 2 ^ 21 + o % 2 ^ 21

/-- The memory key of a device address, none where the address is unassigned (R420). -/
def State.devKey (s : State) (a : Nat) : Option Nat :=
  if a < 2 ^ 40 then (s.hbmPlace a).map fun p => hbmKey p.1 p.2
  else if inOrangery a || inScratch a then some a else none

/-- Whether every byte of a span is HBM in service or Orangery: what the window and DMA may reach (R323, R333, R420). -/
def State.spanOk (s : State) (a n : Nat) : Bool :=
  if a < 2 ^ 39 then decide (a + n ≤ s.chans * chanBytes)
  else if a < 2 ^ 40 then
    s.hbm.inService.getLsbD ((a - 2 ^ 39) / 2 ^ 31) && decide ((a - 2 ^ 39) % 2 ^ 31 + n ≤ chanBytes)
  else decide (2 ^ 40 ≤ a ∧ a + n ≤ 2 ^ 40 + 16 * 2 ^ 24)

/-- First striped offset of the image region: the highest 1 GiB in service (R31, R216). -/
def State.imageStart (s : State) : Nat := s.chans * chanBytes - 2 ^ 30

/-- The striped offset of a byte of HBM. -/
def State.stripedOf (s : State) (ch o : Nat) : Nat :=
  (o / 1024 * s.chans + s.stripe.findIdx (· = ch)) * 1024 + o % 1024

/-- Whether a span of HBM ends in the image region; in both windows the region is the top of the span's channel or
stripe, so its last byte decides. -/
def State.touchesImage (s : State) (a n : Nat) : Bool :=
  if a < 2 ^ 39 then decide (s.imageStart < a + n)
  else if a < 2 ^ 40 then
    match s.hbmPlace (a + n - 1) with
    | some (ch, o) => decide (s.imageStart ≤ s.stripedOf ch o)
    | none => false
  else false

/-! ## Reading and writing memory -/

/-- The write-combining entries of a channel, oldest first. -/
def State.wcb (s : State) (ch : Nat) : List WcbEntry := storeGet [] s.hbm.wcb ch

/-- Replace a channel's write-combining entries. -/
def State.setWcb (s : State) (ch : Nat) (es : List WcbEntry) : State :=
  { s with hbm := { s.hbm with wcb := storeSet [] s.hbm.wcb ch es } }

/-- The write-backs queued for a channel: line, and bytes other than those stored. -/
def State.writeBacks (s : State) (ch : Nat) : List (Nat × List Byte) := storeGet [] s.hbm.writeBacks ch

/-- Replace a channel's queued write-backs. -/
def State.setWriteBacks (s : State) (ch : Nat) (q : List (Nat × List Byte)) : State :=
  { s with hbm := { s.hbm with writeBacks := storeSet [] s.hbm.writeBacks ch q } }

/-- A stored byte; what no write has reached reads as 0 (log 2). -/
def State.byteAt (s : State) (k : Nat) : Byte := storeGet 0 s.mem k

/-- A byte of HBM as a read returns it: what the channel delivers, with any entry's masked byte merged over it (R234). -/
def State.mergedByte (s : State) (ch o : Nat) (delivered : Byte) : Byte :=
  match (s.wcb ch).find? fun e => e.line = o / 64 ∧ e.mask.getLsbD (o % 64) with
  | some e => e.data.getD (o % 64) 0
  | none => delivered

/-- A byte of HBM as a read without error returns it. -/
def State.hbmByte (s : State) (ch o : Nat) : Byte := s.mergedByte ch o (s.byteAt (hbmKey ch o))

/-- A byte by device address; zero where nothing is assigned (R215, R420). -/
def State.devByte (s : State) (a : Nat) : Byte :=
  if a < 2 ^ 40 then
    match s.hbmPlace a with
    | some (ch, o) => s.hbmByte ch o
    | none => 0
  else if inOrangery a || inScratch a then s.byteAt a else 0

/-- `n` bytes by device address. -/
def State.devBytes (s : State) (a n : Nat) : List Byte := (List.range n).map fun i => s.devByte (a + i)

/-- A little-endian number of `n` bytes by device address (R9). -/
def State.devNat (s : State) (a n : Nat) : Nat := ofLe (s.devBytes a n)

/-- A byte as an engine, a converter, an update unit or the tick unit is given it: where the latest read of its line was uncorrectable
or miscorrected, what that read delivered (R214, R222). -/
def State.opByte (s : State) (a : Nat) : Byte :=
  match (s.devKey a).bind fun k => s.hbm.bad.find? fun e => e.1 = k, s.hbmPlace a with
  | some e, some (ch, o) => s.mergedByte ch o e.2
  | _, _ => s.devByte a

/-- `n` bytes as a unit of the pattern is given them. -/
def State.opBytes (s : State) (a n : Nat) : List Byte := (List.range n).map fun i => s.opByte (a + i)

/-- A little-endian number of `n` bytes as a unit of the pattern is given it. -/
def State.opNat (s : State) (a n : Nat) : Nat := ofLe (s.opBytes a n)

/-- Store bytes at consecutive memory keys. -/
def State.putBytes (s : State) (k : Nat) (bs : List Byte) : State := { s with mem := storeSetMany 0 s.mem k bs }

/-- Bytes of `old` with those of `new` where the mask is set. -/
def mergeBytes (mask : BitVec 64) (old new : List Byte) : List Byte :=
  (List.range 64).map fun i => if mask.getLsbD i then new.getD i 0 else old.getD i 0

/-- What earlier reads of `n` bytes at a memory key delivered is of no account to a later read. -/
def State.dropBad (s : State) (k n : Nat) : State :=
  { s with hbm := { s.hbm with bad := s.hbm.bad.filter fun e => !(decide (k ≤ e.1) && decide (e.1 < k + n)) } }

/-- A whole line served by the channel: its entry and any queued write-back of it are discarded (R221, R234). -/
def State.lineWrite (s : State) (ch line : Nat) (bs : List Byte) : State :=
  (((s.putBytes (hbmKey ch (64 * line)) bs).setWcb ch ((s.wcb ch).filter fun e => e.line ≠ line)).setWriteBacks ch
    ((s.writeBacks ch).filter fun l => l.1 ≠ line)).dropBad (hbmKey ch (64 * line)) 64

/-- Flush an entry over a line as it was read: the masked bytes are merged (R233). -/
def State.flushOver (s : State) (ch : Nat) (e : WcbEntry) (line : List Byte) : State :=
  s.lineWrite ch e.line (mergeBytes e.mask line e.data)

/-- Flush an entry: the stored line with the masked bytes merged (R233). -/
def State.flushEntry (s : State) (ch : Nat) (e : WcbEntry) : State :=
  s.flushOver ch e ((List.range 64).map fun i => s.byteAt (hbmKey ch (64 * e.line + i)))

/-- Flush a list of entries, oldest first. -/
def State.flushAll (s : State) (ch : Nat) : List WcbEntry → State
  | [] => s
  | e :: es => State.flushAll (s.flushEntry ch e) ch es

/-- Bytes of a partial write at offset `off` of a line, laid over 64 bytes. -/
def layBytes (off : Nat) (bs : List Byte) : List Byte := padTo 64 (List.replicate off 0 ++ bs)

/-- The byte mask of `n` bytes from `off`. -/
def byteMask (off n : Nat) : BitVec 64 := BitVec.ofNat 64 ((2 ^ n - 1) * 2 ^ off)

/-- A write of fewer than 64 bytes merges into its line's entry, allocating one, the oldest flushed first when none is
free (R233). -/
def State.partialWrite (s : State) (who : Requester) (ch line off : Nat) (bs : List Byte) : State :=
  let m := byteMask off bs.length
  let d := layBytes off bs
  match (s.wcb ch).find? fun e => e.line = line with
  | some _ => s.setWcb ch ((s.wcb ch).map fun e =>
      if e.line = line then { e with who := who, mask := e.mask ||| m, data := mergeBytes m e.data d } else e)
  | none =>
    match s.wcb ch with
    | e :: es =>
      if 32 ≤ (e :: es).length then
        let s' := ((s.flushEntry ch e).count Reg.MEM_WCB_EVICT 64 1).bel64 (chanCnt ch 7) 1
        s'.setWcb ch (s'.wcb ch ++ [⟨line, who, m, d⟩])
      else s.setWcb ch (e :: es ++ [⟨line, who, m, d⟩])
    | [] => s.setWcb ch [⟨line, who, m, d⟩]

/-- An access to an unbacked address (R215). -/
def State.addrErr (s : State) : State := s.event Reg.MEM_EVENT 10

/-- Scheduled traffic, for the channel counters. -/
def scheduledReq : Requester → Bool
  | .scheduled | .update => true
  | _ => false

/-- Write bytes that lie in one 64-byte line of a device address (R215, R218, R233). -/
def State.linePiece (s : State) (who : Requester) (a : Nat) (bs : List Byte) : State :=
  if a < 2 ^ 40 then
    match s.hbmPlace a with
    | some (ch, o) =>
      let s' := s.bel64 (chanCnt ch (if scheduledReq who then 1 else 2)) 1
      if o % 64 = 0 ∧ bs.length = 64 then s'.lineWrite ch (o / 64) bs else s'.partialWrite who ch (o / 64) (o % 64) bs
    | none => s.addrErr
  else if inOrangery a || inScratch a then s.putBytes a bs else s

/-- Cut a span into the pieces of its 64-byte lines. -/
def linePieces (a : Nat) : Nat → List Byte → List (Nat × List Byte)
  | 0, _ => []
  | fuel + 1, bs =>
    match bs with
    | [] => []
    | _ :: _ => (a, bs.take (64 - a % 64)) :: linePieces (a + (64 - a % 64)) fuel (bs.drop (64 - a % 64))

/-- Write the pieces in ascending order. -/
def State.writePieces (s : State) (who : Requester) : List (Nat × List Byte) → State
  | [] => s
  | (a, bs) :: ps => State.writePieces (s.linePiece who a bs) who ps

/-- Write a span of device addresses. -/
def State.devWrite (s : State) (who : Requester) (a : Nat) (bs : List Byte) : State :=
  s.writePieces who (linePieces a bs.length bs)

/-! ## The image's figures -/

/-- The held image: from LOADED onward, and while the recheck after A2 runs (R43, R52, R369). -/
def State.img (s : State) : Option ImageFile :=
  match s.image.st with
  | .loaded | .armed | .running | .retired => s.image.file
  | .verifying => if s.image.rechecking.isSome then s.image.file else none
  | _ => none

/-- LAST_STATE.STATE. -/
def ImgState.code : ImgState → Nat
  | .empty => 0 | .loading => 1 | .verifying => 2 | .loaded => 3 | .armed => 4 | .running => 5 | .retired => 6

/-- T, the tick period in cycles; 0 with no image (R56, R77). -/
def State.tickLen (s : State) : Nat := (s.img.map fun f => f.header.tickPeriod * 2400).getD 0

/-- The resole reserve in cycles (R34). -/
def State.resoleReserve (s : State) : Nat := (s.img.map fun f => s.tickLen * f.sections.resole / 100).getD 0

/-- M, the maintenance slot in cycles (R34). -/
def State.maintLen (s : State) : Nat := (s.img.map fun f => s.tickLen * f.sections.maint / 100).getD 0

/-- S, the stitches of a step (R57). -/
def State.stepLen (s : State) : Nat := (s.img.map fun f => f.sections.primary.length).getD 0

/-- Stitch index of the current tick in its slot. -/
def State.stitchIx (s : State) : Nat := s.tick.now % s.stepLen

/-- The slot of the current tick. -/
def State.slotNow (s : State) : Nat := s.tick.now / s.stepLen

/-- The job size of the held image. -/
def State.jobSize (s : State) : Nat := (s.img.map fun f => f.header.jobSize).getD 0

/-- The sections of the held image. -/
def State.sections? (s : State) : Option Sections := s.img.map ImageFile.sections

/-- The stitches of variant `v`: 0 is the primary (R37). -/
def stitchesOf (x : Sections) (v : Nat) : List Stitch :=
  if v = 0 then x.primary else (x.variants[v - 1]?.map Variant.stitches).getD []

/-- The layer groups that variant `v` runs one rung wider (R37). -/
def maskOf (x : Sections) (v : Nat) : BitVec 64 :=
  if v = 0 then x.primaryMask else (x.variants[v - 1]?.map Variant.mask).getD 0

/-- The stitch record of the current tick, of the variant that runs. -/
def State.stitch? (s : State) : Option Stitch :=
  s.sections?.bind fun x =>
    (stitchesOf x ((s.tick.step.map RunStep.variant).getD 0))[s.stitchIx]?

/-- The current stitch is the commit stitch of a running step. -/
def State.inCommit (s : State) : Bool := (s.stitch?.map Stitch.commit).getD false && s.tick.step.isSome

/-- The class entry of FORMAT. -/
def classOf (x : Sections) (c : Nat) : Option FormatClass := x.classes[c]?

/-- The tensor entry of TENSOR. -/
def State.tensor? (s : State) (t : Nat) : Option TensorEntry := s.sections?.bind fun x => x.tensors[t]?

/-- The format class of a tensor. -/
def State.classFor (s : State) (t : Nat) : Option FormatClass :=
  (s.tensor? t).bind fun e => s.sections?.bind fun x => classOf x e.cls

/-! ## Reports, spoil causes -/

/-- The module sends no further stitch-done report (R61 and the fatal rules): the job halts under R65. -/
def State.stopReports (s : State) : State := { s with tick := { s.tick with stopped := true } }

/-- Change the running step, if there is one. -/
def State.mapStep (s : State) (f : RunStep → RunStep) : State :=
  { s with tick := { s.tick with step := s.tick.step.map f } }

/-- A cause of R138 arises. Before the vote the first one is the step's local cause; after the vote the first one is
LATE_CAUSE (R312). QNT_SPOIL_CAUSES shows every one. Outside a step nothing follows. -/
def State.spoil (s : State) (c : Nat) : State :=
  match s.tick.step with
  | none => s
  | some r =>
    let s1 := (s.setBit Reg.QNT_SPOIL_CAUSES (c - 1) true).mapStep fun r =>
      { r with nonFinite := r.nonFinite || decide (c = 4) }
    if r.voted then
      if s1.stl.commit.lateCause = 0 then
        { s1 with stl := { s1.stl with commit := { s1.stl.commit with lateCause := c } } }
      else s1
    else
      match r.cause with
      | some _ => s1
      | none => (s1.mapStep fun r => { r with cause := some (c, s.stitchIx, s.tick.now) }).traceBoth 0x08
          (c + 256 * s.stitchIx)

/-- Whether a cause that arises now falls in a running step before this module's vote (MEM_UE_INFO.IN_STEP). -/
def State.beforeVote (s : State) : Bool := (s.tick.step.map fun r => !r.voted).getD false

/-! ## Completion records (R74, R328) -/

/-- Bits of a status. -/
def statusCode : StepStatus → Nat
  | .clean => 0 | .spoiled => 1 | .unmatched => 2 | .halted => 3

/-- PHASE of the record at a free-running count in a ring of 2^n entries (R329). -/
def ringPhase (count n : Nat) : Nat := 1 - count / 2 ^ n % 2

/-- The queue set is enabled. -/
def State.queueOn (s : State) : Bool := s.bit Reg.PCI_QUEUE_CTRL 0

/-- Write one completion record at PCI_CQ_TAIL, advance the tail, then signal vector 12 (R328, R329). -/
def State.cqWrite (s : State) (c : Completion) : State :=
  let n := s.fld Reg.PCI_QUEUE_CTRL 15 12
  let t := s.regN Reg.PCI_CQ_TAIL
  let rec32 := leBytes 8 c.tag ++ leBytes 8 c.stepId ++ leBytes 8 c.deadline ++
    leBytes 4 (16 * statusCode c.status + 256 * c.cause + 2 ^ 31 * ringPhase t n) ++ leBytes 4 0
  ((s.toHost (.hostWrite (s.regN Reg.PCI_CQ_BASE + 32 * (t % 2 ^ n)) rec32)).setRegN Reg.PCI_CQ_TAIL
    ((t + 1) % 65536)).signal 12

/-- A completion record: joins the unread list, sets ADM_EVENT.DONE, and goes to the ring while the set is enabled. -/
def State.complete (s : State) (c : Completion) : State :=
  let s1 : State := { s with adm := { s.adm with unread := s.adm.unread ++ [c] } }
  let s2 := s1.traceBoth 0x05 (c.tag + 2 ^ 64 * (16 * statusCode c.status + 256 * c.cause))
  (if s2.queueOn then s2.cqWrite c else s2).event Reg.ADM_EVENT 1

/-! ## Plots and chains (R303 to R306) -/

/-- A plot. -/
def State.plot (s : State) (p : Nat) : Plot := storeGet {} s.stl.plots p

/-- Replace a plot. -/
def State.setPlot (s : State) (p : Nat) (x : Plot) : State :=
  { s with stl := { s.stl with plots := storeSet {} s.stl.plots p x } }

/-- Device address of a plot's buffer: Orangery and offset (R303). -/
def plotBase (x : Plot) : Nat := 2 ^ 40 + x.buffer / 2 ^ 24 % 16 * 2 ^ 24 + x.buffer % 2 ^ 24

/-- Device address of a frame's space in a plot's buffer (R281, R303). -/
def frameAt (x : Plot) (slot : Nat) : Nat :=
  2 ^ 40 + x.buffer / 2 ^ 24 % 16 * 2 ^ 24 + (x.buffer % 2 ^ 24 + 5120 * slot) % 2 ^ 24

/-- Apply a change to every plot in the store. -/
def State.mapPlots (s : State) (f : Plot → Plot) : State :=
  { s with stl := { s.stl with plots := s.stl.plots.map fun e => (e.1, f e.2) } }

/-- Write USED of each bound chain plot back into its entry of the chain table (R306). -/
def State.chainBack (s : State) (table : Nat) : List (Nat × Nat) → State
  | [] => s
  | (i, p) :: rest =>
    State.chainBack (s.devWrite .scheduled (table + 24 * i + 16) (leBytes 8 (s.plot p).used)) table rest

/-- The address of the running step's chain table. -/
def State.chainTable (s : State) : Nat :=
  (s.tick.step.map RunStep.input).getD 0 + (s.sections?.map fun x => x.plot.chainTable).getD 0

/-! ## The halt (R65) -/

/-- The deadline tick of slot `k` (R70). -/
def State.deadline (s : State) (k : Nat) : Nat := (k + 1) * s.stepLen - 1

/-- The status and cause with which the ticket of slot `k` completes now: what the commit gave its step, or HALTED. -/
def State.haltStatus (s : State) (k : Nat) : StepStatus × Nat :=
  match s.tick.step with
  | some r => if r.slot = k then r.acted.getD (.halted, 0) else (.halted, 0)
  | none => (.halted, 0)

/-- Complete the accepted tickets of a list at a halt, in order of slot. -/
def State.completeAll (s : State) : List (Nat × Ticket) → State
  | [] => s
  | (k, t) :: rest =>
    let (st, c) := s.haltStatus k
    let s1 := if st = .clean then s.chainBack s.chainTable s.stl.commit.bound else s
    State.completeAll (s1.complete ⟨t.tag, t.stepId, s.deadline k, st, c⟩) rest

/-- The pool of chain plots as an image gives it. -/
def State.poolSize (s : State) : Nat := (s.sections?.map fun x => x.plot.poolSize).getD 0

/-! ## Class S contributions (R269) -/

/-- The Class S reduction of a plot. -/
def State.sred (s : State) (plot : Nat) : SRed := storeGet {} s.clo.sums plot

/-- Replace the Class S reduction of a plot. -/
def State.setSred (s : State) (plot : Nat) (r : SRed) : State :=
  { s with clo := { s.clo with sums := storeSet {} s.clo.sums plot r } }

/-- A contribution of a core to a Class S reduction; after the deadline, in the tick of the reduction, it is discarded and counted
(R271). -/
def State.contribute (s : State) (plot core : Nat) (xs : List DWord) : State :=
  let r := s.sred plot
  if r.closedAt = some s.tick.now then s.count Reg.CLO_S_DROPS 32 1 else s.setSred plot { r with own := r.own ++ [(core, xs)] }

end Sys2Proof.Machine
end

