-- ==== Sys2Proof/Machine/Access.lean ====
section
/-! DEFINITION. Power states as every request meets them: what a state loses, entry requests and their refusal, wake events
and the wakes they start (R360 to R366, R374, R427), and the path of a host request to the module (R322, R361, R365, R379,
R383). -/

namespace Sys2Proof.Machine

/-! ## What A3 and Off lose -/

/-- The keys of the LDG, SBK and HLT registers (R421). -/
def keptReg (k : Nat) : Bool := decide (0x110000 ≤ k ∧ k < 0x180000)

/-- The seed bank's channel map; a bit whose map-in test is not over, or has failed, and one that failed training are taken as 0
(R217, R227). -/
def State.wantedMap (s : State) : BitVec 256 :=
  BitVec.ofNat 256 ((List.range 256).foldl (fun a ch =>
    a + ((s.seed (8 + ch / 32)).getLsbD (ch % 32) && !s.hbm.mapIn.contains ch && !s.hbm.mapFailed.contains ch).toNat * 2 ^ ch) 0)

/-- Registers at reset and those kept, with ME_FAIL as it stands: only a self-test that passes clears it (R163). -/
def State.lostRegs (s : State) (kept : Regs) : Regs :=
  (List.range 16).foldl (fun m k => storeSet 0 m (Reg.ME_FAIL + 4 * k) (s.reg (Reg.ME_FAIL + 4 * k))) (resetRegs ++ kept)

/-- The module as A3 leaves it, and as a start-up finds it (R360, R427): everything but the persistent store, the Lodge
with its registers, and the cached identity is lost. Port wake listening is kept until the wake (R291). The in-service map is copied at
the reset (R217). -/
def State.lose (s : State) : State :=
  { State.reset with
    pending := s.pending
    regs := s.lostRegs (s.regs.filter (fun e => keptReg e.1))
    hbm := { inService := s.wantedMap, mapIn := s.hbm.mapIn, mapFailed := s.hbm.mapFailed }
    me := { resetSince := true }
    free := s.free
    out := s.out
    boot := { powered := s.boot.powered, step := min s.boot.step 1, status := s.boot.status, cached := s.boot.cached }
    pwr := { cap := (s.seedStored 0).toNat % 4096 }
    ldg := s.ldg
    host := { perst := s.host.perst }
    sec := { s.sec with spdm := .none, asym := false, hash := false }
    sbk := s.sbk
    hlt := { s.hlt with snap := [], snapBusy := false } }

/-! ## Wake events (R365, R366) -/

/-- LDG_STATE.TRIPPED. -/
def State.tripped (s : State) : Bool := s.bit Reg.LDG_STATE 4

/-- Change the Lodge's part. -/
def State.mapLdg (s : State) (f : LodgeSt → LodgeSt) : State := { s with ldg := f s.ldg }

/-- An event sets its bit in LDG_WAKE_CAUSE; the first Pyurn event names its port. -/
def State.noteWake (s : State) (bit : Nat) (port : Option Nat) : State :=
  let s1 := s.setBit Reg.LDG_WAKE_CAUSE bit true
  match port with
  | some p => if s.ldg.pyuSeen then s1 else (s1.setFld Reg.LDG_WAKE_CAUSE 15 12 p).mapLdg fun l => { l with pyuSeen := true }
  | none => s1

/-- The event acted on. -/
def State.firstWake (s : State) (bit : Nat) : State := s.setFld Reg.LDG_WAKE_CAUSE 10 8 bit

/-- The wake starts: from A2 along R367; from A3 the start-up sequence from its first step (R370). -/
def State.startWake (s : State) : State :=
  match s.ldg.ps with
  | .a2 => s.mapLdg fun l => { l with waking := 1 }
  | .a3 =>
    let s1 := (s.lose).mapLdg fun l => { l with waking := 1 }
    { s1 with boot := { s1.boot with step := 1, fromA3 := true } }
  | _ => s

/-- An entry to A2 or A3 is in progress. -/
def State.goingDown (s : State) : Bool := decide (s.ldg.entering = some .a2 ∨ s.ldg.entering = some .a3)

/-- A wake event: ignored while TRIPPED (R375); latched during an entry; during a wake it only sets its bit; in A2 and A3 it
starts a wake. -/
def State.wakeEvent (s : State) (bit : Nat) (port : Option Nat) : State :=
  if s.tripped then s
  else if s.goingDown then
    let s1 := s.noteWake bit port
    if s.ldg.latched then s1 else (s1.firstWake bit).mapLdg fun l => { l with latched := true }
  else if s.ldg.waking ≠ 0 then s.noteWake bit port
  else if s.ldg.ps = .a2 ∨ s.ldg.ps = .a3 then ((s.noteWake bit port).firstWake bit).startWake
  else s

/-! ## Entry requests (R361 to R363) -/

/-- A DMA engine is running: it has work and has not stopped. -/
def State.dmaBusy (s : State) (e : Nat) : Bool :=
  s.bit (Reg.PCI_DMA_CTRL + 32 * e) 0 && decide (s.fld (Reg.PCI_DMA_STATUS + 32 * e) 1 0 ≠ 2) &&
    (decide (s.regN (Reg.PCI_DMA_HEAD + 32 * e) ≠ s.regN (Reg.PCI_DMA_TAIL + 32 * e)) ||
      !(storeGet [] s.host.flights e).isEmpty)

/-- Any DMA engine is running. -/
def State.anyDma (s : State) : Bool := (List.range 8).any s.dmaBusy

/-- A self-test, margin scan or load is running. -/
def State.anyTest (s : State) : Bool :=
  decide (s.image.st = .loading ∨ s.image.st = .verifying) ||
    [Reg.ME_TEST_CTRL, Reg.VE_TEST_CTRL, Reg.MEM_TEST_CTRL, Reg.MEM_SCAN_CTRL].any fun o => s.fld o 3 1 = 1

/-- What refuses an entry (R361, R362). -/
def State.entryRefusal (s : State) (t : PState) : Option Nat :=
  if s.image.st = .armed ∨ s.image.st = .running then some 2
  else if s.anyDma then some 3
  else if s.anyTest then some 4
  else if t = .a3 ∧ s.stl.commit.outcome = 3 ∧ s.stl.commit.resolved = false then some 5
  else none

/-- LDG_PSTATE_CTRL.RESULT. -/
def State.entryResult (s : State) (code : Nat) : State := s.setFld Reg.LDG_PSTATE_CTRL 6 4 code

/-- An entry begins: a persisting write completes first; the wake causes are cleared (R363, R376). -/
def State.beginEntry (s : State) (t : PState) : State :=
  let s1 := (s.seedPersist.setReg Reg.LDG_WAKE_CAUSE 0).setBit Reg.LDG_STATE 3 false
  s1.mapLdg fun l => { l with
    entering := some t, latched := false, pyuSeen := false, onDemand := [], asked := false }

/-- How deep a state lies. -/
def PState.depth : PState → Nat
  | .a0 => 0 | .a1 => 1 | .a2 => 2 | .a3 => 3

/-- A transition is in progress. -/
def State.moving (s : State) : Bool := s.ldg.entering.isSome || decide (s.ldg.waking ≠ 0)

/-- An entry request: held during a transition, refused under R362, or begun. -/
def State.requestEntry (s : State) (t : PState) : State :=
  if s.moving then (s.mapLdg fun l => { l with held := some t }).entryResult 6
  else if t.depth ≤ s.ldg.ps.depth then (if t = s.ldg.ps then s.entryResult 1 else s)
  else match s.entryRefusal t with
    | some c => (s.entryResult c).event Reg.LDG_EVENT 2
    | none => (s.beginEntry t).mapLdg fun l => { l with asked := true }

/-- A transition ends: the latest held request is acted on. -/
def State.actHeld (s : State) : State :=
  match s.ldg.held with
  | some t => (s.mapLdg fun l => { l with held := none }).requestEntry t
  | none => s

/-- Return from A1, or from an entry to it (R361). -/
def State.leaveA1 (s : State) : State :=
  (s.mapLdg fun l => { l with ps := .a0, entering := none }).actHeld

/-! ## The path of a host request -/

/-- In A1, or on the way to it. -/
def State.inA1 (s : State) : Bool := decide (s.ldg.ps = .a1 ∨ s.ldg.entering = some .a1)

/-- In A2, or on the way to or from A2 or A3. -/
def State.asleep (s : State) : Bool :=
  decide (s.ldg.ps = .a2 ∨ s.ldg.ps = .a3) || s.goingDown || decide (s.ldg.waking ≠ 0)

/-- The module serves memory requests: the link is up, a boot bank has passed, and the module is in A0 or A1. -/
def State.serving (s : State) : Bool :=
  s.linkUp && decide (6 ≤ s.boot.step) && !s.boot.failed && !s.asleep

/-- A memory write of the host that acts by `f`: no request without a link; Unsupported Request before the boot image is
verified and after a failed boot (R379, R383); in A1 the module returns to A0 first (R361); in A2 the write is discarded and
wakes the module (R365). -/
def State.onHost (s : State) (f : State → State) : State :=
  if s.serving then f (if s.inA1 then s.leaveA1 else s)
  else if !s.linkUp then s
  else if s.boot.step < 6 ∨ s.boot.failed then s.send .unsupported
  else s.wakeEvent 4 none

/-- The same for a request that the Lodge serves in A2 as well: the LDG and HLT blocks (R365). -/
def State.onLodge (s : State) (f : State → State) : State :=
  if s.linkUp && decide (6 ≤ s.boot.step) && !s.boot.failed && s.asleep then f s else s.onHost f

end Sys2Proof.Machine
end

