-- ==== Sys2Proof/Machine/SelfTest.lean ====
section
/-! DEFINITION. Requests of self-tests and scans: STATUS, deferral, and the slots a test holds (R75, R76). -/

namespace Sys2Proof.Machine

/-- The register that a request reports in. -/
def testReg : Held → Nat
  | .matrix => Reg.ME_TEST_CTRL
  | .vector => Reg.VE_TEST_CTRL
  | .memTest => Reg.MEM_TEST_CTRL
  | .memScan => Reg.MEM_SCAN_CTRL

/-- STATUS, bits 3:1 of each of these registers. -/
def State.testStatus (s : State) (h : Held) : Nat := s.fld (testReg h) 3 1

/-- Report a status. -/
def State.setTestStatus (s : State) (h : Held) (code : Nat) : State := s.setFld (testReg h) 3 1 code

/-- The longest duration of a request in ms (R163, R190, R232). -/
def State.testMs (s : State) : Held → Nat
  | .matrix => 12
  | .vector => 4
  | .memTest => if s.hbm.testCtrl.testBit 4 then 320 else 30
  | .memScan => 400

/-- The module is idle (R76). -/
def State.idle (s : State) : Bool :=
  decide (s.image.st ≠ .running) || (s.adm.accepted.isEmpty && s.tick.step.isNone)

/-- The slots that a test of `ms` ms beginning now touches: those of its ticks. -/
def State.testSlots (s : State) (ms : Nat) : List Nat :=
  let ticks := (ms * 2400000 + s.tickLen - 1) / s.tickLen
  (List.range ((s.tick.now + ticks) / s.stepLen + 1 - s.slotNow)).map fun i => s.slotNow + i

/-- A request starts: STATUS 1, and while an image is RUNNING it holds its slots. -/
def State.startTest (s : State) (h : Held) : State :=
  let s1 := s.setTestStatus h 1
  if s.image.st = .running then
    { s1 with adm := { s1.adm with slots := s1.adm.slots ++ [(h, s.testSlots (s.testMs h))] } }
  else s1

/-- A request is answered DEFERRED and held. -/
def State.deferTest (s : State) (h : Held) : State :=
  let s1 := s.setTestStatus h 2
  { s1 with adm := { s1.adm with waiting := s1.adm.waiting ++ [h] } }

/-- A request made now: ignored while it runs or waits, started when the module is idle, deferred otherwise, and held
before the module is ready (R76, R379). -/
def State.requestTest (s : State) (h : Held) : State :=
  if s.testStatus h = 1 ∨ s.testStatus h = 2 then s
  else if s.idle && decide (8 ≤ s.boot.step) then s.startTest h else s.deferTest h

/-- A test ends: its slots are free again, STATUS tells its result. -/
def State.endTest (s : State) (h : Held) (fail : Bool) : State :=
  let s1 := s.setTestStatus h (if fail then 4 else 3)
  { s1 with adm := { s1.adm with slots := s1.adm.slots.filter fun e => e.1 ≠ h } }

end Sys2Proof.Machine
end

