-- ==== Sys2Proof/Machine/Operands.lean ====
section
/-! DEFINITION. The number formats (R79 to R101, R107, R115) and the IEEE 754 operations (R89, R174, R176) as exact integer
arithmetic that is rounded once at the end. -/

namespace Sys2Proof.Machine

/-! ## Exact numbers -/

/-- A finite number ±m·2^e. -/
structure Dy where
  neg : Bool
  m : Nat
  e : Int
deriving DecidableEq, Repr

/-- Zero. -/
def Dy.zero : Dy := ⟨false, 0, 0⟩

/-- The signed integer a number is at exponent `q`, at most its own. -/
def Dy.at (x : Dy) (q : Int) : Int :=
  let k : Int := x.m * 2 ^ (x.e - q).toNat
  if x.neg then -k else k

/-- The number n·2^q. -/
def Dy.ofInt (n q : Int) : Dy := ⟨decide (n < 0), n.natAbs, q⟩

/-- Exact sum. -/
def Dy.add (x y : Dy) : Dy :=
  if x.m = 0 then y else if y.m = 0 then x
  else let q := min x.e y.e; Dy.ofInt (x.at q + y.at q) q

/-- Exact product. -/
def Dy.mul (x y : Dy) : Dy := ⟨x.neg != y.neg, x.m * y.m, x.e + y.e⟩

/-- Magnitude comparison, |x| ≤ |y|. -/
def Dy.magLe (x y : Dy) : Bool :=
  if x.m = 0 then true else if y.m = 0 then false
  else let q := min x.e y.e; decide (x.m * 2 ^ (x.e - q).toNat ≤ y.m * 2 ^ (y.e - q).toNat)

/-- m·2^(−d) rounded to an integer, to nearest even, and whether it was exact (R96). -/
def roundShift (m : Nat) (d : Int) : Nat × Bool :=
  if d ≤ 0 then (m * 2 ^ (-d).toNat, true)
  else
    let p := 2 ^ d.toNat
    let k := m / p
    let r := m % p
    (if p < 2 * r ∨ (2 * r = p ∧ k % 2 = 1) then k + 1 else k, decide (r = 0))

/-! ## IEEE binary formats -/

/-- A binary interchange layout: exponent bits, mantissa bits (R79, R87). -/
structure FpFmt where
  eb : Nat
  mb : Nat
deriving DecidableEq, Repr

/-- FP32. -/
def fp32 : FpFmt := ⟨8, 23⟩
/-- FP64. -/
def fp64 : FpFmt := ⟨11, 52⟩
/-- BF16. -/
def bf16 : FpFmt := ⟨8, 7⟩
/-- FP16. -/
def fp16 : FpFmt := ⟨5, 10⟩

/-- Exponent of the smallest subnormal. -/
def FpFmt.qmin (f : FpFmt) : Int := 2 - 2 ^ (f.eb - 1) - f.mb

/-- The encoding of +∞. -/
def FpFmt.inf (f : FpFmt) : Nat := (2 ^ f.eb - 1) * 2 ^ f.mb

/-- The sign bit. -/
def FpFmt.sign (f : FpFmt) (neg : Bool) : Nat := if neg then 2 ^ (f.eb + f.mb) else 0

/-- The NaN that an invalid operation produces (R87, R176). -/
def FpFmt.nan (f : FpFmt) : Nat := f.inf + 2 ^ (f.mb - 1)

/-- A decoded encoding. -/
inductive FVal where
  | nan
  | inf (neg : Bool)
  | fin (x : Dy)
deriving DecidableEq, Repr

/-- The magnitude bits of an encoding. -/
def FpFmt.mag (f : FpFmt) (b : Nat) : Nat := b % 2 ^ (f.eb + f.mb)

/-- The sign of an encoding. -/
def FpFmt.isNeg (f : FpFmt) (b : Nat) : Bool := decide (b / 2 ^ (f.eb + f.mb) % 2 = 1)

/-- Decode an encoding. -/
def FpFmt.dec (f : FpFmt) (b : Nat) : FVal :=
  let g := f.mag b
  if f.inf < g then .nan else if g = f.inf then .inf (f.isNeg b)
  else
    let ex := g / 2 ^ f.mb
    if ex = 0 then .fin ⟨f.isNeg b, g, f.qmin⟩
    else .fin ⟨f.isNeg b, g % 2 ^ f.mb + 2 ^ f.mb, f.qmin + ex - 1⟩

/-- An encoding is a NaN. -/
def FpFmt.isNan (f : FpFmt) (b : Nat) : Bool := decide (f.inf < f.mag b)

/-- An encoding is a signalling NaN (IEEE 754-2019, 6.2.1: leading mantissa bit 0). -/
def FpFmt.isSnan (f : FpFmt) (b : Nat) : Bool := f.isNan b && decide (b / 2 ^ (f.mb - 1) % 2 = 0)

/-- Neither NaN nor infinity. -/
def FpFmt.isFin (f : FpFmt) (b : Nat) : Bool := decide (f.mag b < f.inf)

/-- Flags: INVALID 1, DIVZERO 2, OVERFLOW 4, UNDERFLOW 8, INEXACT 16 (VE_FLAGS), and 256 for an INVALID that IEEE 754 leaves
to the implementation (R185). -/
abbrev Flags := Nat

/-- The union of two flag sets. -/
def flagOr (a b : Flags) : Flags := a ||| b

/-- A result and the flags it raised. -/
structure FRes where
  bits : Nat
  flags : Flags
deriving DecidableEq, Repr

/-- Round an exact number to a format, to nearest even, tininess detected after rounding (R89, R185). -/
def FpFmt.round (f : FpFmt) (x : Dy) : FRes :=
  if x.m = 0 then ⟨f.sign x.neg, 0⟩
  else
    let lead : Int := Nat.log2 x.m + x.e
    let q := max (lead - f.mb) f.qmin
    let (k, exact) := roundShift x.m (q - x.e)
    let b := (q - f.qmin).toNat * 2 ^ f.mb + k
    if f.inf ≤ b then ⟨f.sign x.neg + f.inf, 20⟩
    else
      let (k', _) := roundShift x.m (lead - f.mb - x.e)
      let lead' := if k' = 2 ^ (f.mb + 1) then lead + 1 else lead
      ⟨f.sign x.neg + b, if exact then 0 else if lead' < f.qmin + f.mb then 24 else 16⟩

/-- A NaN made quiet, payload kept (R176). -/
def FpFmt.quiet (f : FpFmt) (b : Nat) : Nat := if b / 2 ^ (f.mb - 1) % 2 = 0 then b + 2 ^ (f.mb - 1) else b

/-- INVALID when any operand is a signalling NaN. -/
def FpFmt.snanFlag (f : FpFmt) (bs : List Nat) : Flags := if bs.any f.isSnan then 1 else 0

/-- With a NaN among the operands, the first NaN made quiet; otherwise `r` (R176). -/
def FpFmt.nanOr (f : FpFmt) (bs : List Nat) (r : FRes) : FRes :=
  match bs.find? f.isNan with
  | some b => ⟨f.quiet b, f.snanFlag bs⟩
  | none => r

/-- The result of an invalid operation. -/
def FpFmt.invalid (f : FpFmt) : FRes := ⟨f.nan, 1⟩

/-- An infinity as a result. -/
def FpFmt.infRes (f : FpFmt) (neg : Bool) (fl : Flags) : FRes := ⟨f.sign neg + f.inf, fl⟩

/-- The rounded sum of two finite numbers; an exact zero is −0 only when both are negative zeros or numbers. -/
def FpFmt.sum (f : FpFmt) (x y : Dy) : FRes :=
  if x.m = 0 ∧ y.m = 0 then ⟨f.sign (x.neg && y.neg), 0⟩
  else
    let z := x.add y
    if z.m = 0 then ⟨0, 0⟩ else f.round z

/-- Negate an encoding's sign (NaNs included). -/
def FpFmt.flip (f : FpFmt) (b : Nat) : Nat := if f.isNeg b then b - f.sign true else b + f.sign true

/-- Addition (R174). -/
def FpFmt.add (f : FpFmt) (a b : Nat) : FRes :=
  f.nanOr [a, b] <|
    match f.dec a, f.dec b with
    | .inf s, .inf t => if s = t then f.infRes s 0 else f.invalid
    | .inf s, _ => f.infRes s 0
    | _, .inf t => f.infRes t 0
    | .fin x, .fin y => f.sum x y
    | _, _ => f.invalid

/-- Subtraction: a NaN operand keeps its sign. -/
def FpFmt.sub (f : FpFmt) (a b : Nat) : FRes := f.nanOr [a, b] (f.add a (f.flip b))

/-- Multiplication. -/
def FpFmt.mul (f : FpFmt) (a b : Nat) : FRes :=
  f.nanOr [a, b] <|
    match f.dec a, f.dec b with
    | .inf s, .inf t => f.infRes (s != t) 0
    | .inf s, .fin y => if y.m = 0 then f.invalid else f.infRes (s != y.neg) 0
    | .fin x, .inf t => if x.m = 0 then f.invalid else f.infRes (x.neg != t) 0
    | .fin x, .fin y => f.round (x.mul y)
    | _, _ => f.invalid

/-- a·b + c with one rounding. ∞·0 with a quiet NaN as `c` leaves INVALID to the implementation. -/
def FpFmt.fma (f : FpFmt) (a b c : Nat) : FRes :=
  let bad : Bool := match f.dec a, f.dec b with
    | .inf _, .fin y => decide (y.m = 0)
    | .fin x, .inf _ => decide (x.m = 0)
    | _, _ => false
  if bad && f.isNan c then ⟨f.quiet c, if f.isSnan c then 1 else 256⟩
  else
    f.nanOr [a, b, c] <|
      match f.dec a, f.dec b, f.dec c with
      | .fin x, .fin y, .fin z => f.sum (x.mul y) z
      | .fin _, .fin _, .inf t => f.infRes t 0
      | _, _, .inf t => if bad then f.invalid
          else if (f.isNeg a != f.isNeg b) = t then f.infRes t 0 else f.invalid
      | _, _, _ => if bad then f.invalid else f.infRes (f.isNeg a != f.isNeg b) 0

/-- Division. The quotient carries a sticky bit below its rounding bits. -/
def FpFmt.div (f : FpFmt) (a b : Nat) : FRes :=
  f.nanOr [a, b] <|
    match f.dec a, f.dec b with
    | .inf _, .inf _ => f.invalid
    | .inf s, .fin y => f.infRes (s != y.neg) 0
    | .fin x, .inf t => ⟨f.sign (x.neg != t), 0⟩
    | .fin x, .fin y =>
      if y.m = 0 then (if x.m = 0 then f.invalid else f.infRes (x.neg != y.neg) 2)
      else if x.m = 0 then ⟨f.sign (x.neg != y.neg), 0⟩
      else
        let sh := f.mb + 4 + Nat.log2 y.m
        let n := x.m * 2 ^ sh
        f.round ⟨x.neg != y.neg, 2 * (n / y.m) + (if n % y.m = 0 then 0 else 1), x.e - y.e - sh - 1⟩
    | _, _ => f.invalid

/-- The integer square root, two bits at a time. -/
def isqrt : Nat → Nat → Nat
  | 0, _ => 0
  | fuel + 1, n => let r := 2 * isqrt fuel (n / 4); if (r + 1) * (r + 1) ≤ n then r + 1 else r

/-- Square root. -/
def FpFmt.sqrt (f : FpFmt) (a : Nat) : FRes :=
  f.nanOr [a] <|
    match f.dec a with
    | .inf false => f.infRes false 0
    | .fin x =>
      if x.m = 0 then ⟨f.sign x.neg, 0⟩
      else if x.neg then f.invalid
      else
        let sh := 2 * f.mb + 8 + (x.e % 2).toNat
        let n := x.m * 2 ^ sh
        let r := isqrt (f.mb * 2 + 64) n
        f.round ⟨false, 2 * r + (if r * r = n then 0 else 1), (x.e - sh) / 2 - 1⟩
    | _ => f.invalid

/-- A number that orders the encodings other than NaN, ±0 equal. -/
def FpFmt.key (f : FpFmt) (b : Nat) : Int := if f.isNeg b then -(f.mag b : Int) else f.mag b

/-- The same with −0 below +0 (R174, R184). -/
def FpFmt.totalKey (f : FpFmt) (b : Nat) : Int := if f.isNeg b then -(f.mag b : Int) - 1 else f.mag b

/-- IEEE minimum: a quiet NaN when either operand is a NaN, −0 below +0. -/
def FpFmt.min (f : FpFmt) (a b : Nat) : FRes :=
  f.nanOr [a, b] ⟨if f.totalKey b < f.totalKey a then b else a, 0⟩

/-- IEEE maximum. -/
def FpFmt.max (f : FpFmt) (a b : Nat) : FRes :=
  f.nanOr [a, b] ⟨if f.totalKey a < f.totalKey b then b else a, 0⟩

/-- The quiet comparison predicates; only a signalling NaN raises INVALID. -/
def FpFmt.cmp (f : FpFmt) (c : CmpOp) (a b : Nat) : Bool × Flags :=
  let un := f.isNan a || f.isNan b
  let x := f.key a
  let y := f.key b
  (match c with
    | .unord => un
    | .eq => !un && decide (x = y)
    | .ne => un || decide (x ≠ y)
    | .lt => !un && decide (x < y)
    | .le => !un && decide (x ≤ y)
    | .gt => !un && decide (y < x)
    | .ge => !un && decide (y ≤ x), f.snanFlag [a, b])

/-- convertFormat between two binary formats; a NaN keeps the leading bits of its payload. -/
def FpFmt.conv (f g : FpFmt) (a : Nat) : FRes :=
  match f.dec a with
  | .nan =>
    let q := f.quiet a
    let frac := q % 2 ^ f.mb
    ⟨g.sign (f.isNeg a) + g.inf + (if f.mb ≤ g.mb then frac * 2 ^ (g.mb - f.mb) else frac / 2 ^ (f.mb - g.mb)),
      f.snanFlag [a]⟩
  | .inf s => g.infRes s 0
  | .fin x => g.round x

/-- To INT32: to nearest even, saturating; a NaN gives 0; saturation or NaN sets INVALID (R176). -/
def FpFmt.toInt32 (f : FpFmt) (a : Nat) : FRes :=
  match f.dec a with
  | .nan => ⟨0, 1⟩
  | .inf s => ⟨if s then 2 ^ 31 else 2 ^ 31 - 1, 1⟩
  | .fin x =>
    let k := (roundShift x.m (-x.e)).1
    if x.neg then (if 2 ^ 31 < k then ⟨2 ^ 31, 1⟩ else ⟨(2 ^ 32 - k) % 2 ^ 32, 0⟩)
    else if 2 ^ 31 ≤ k then ⟨2 ^ 31 - 1, 1⟩ else ⟨k, 0⟩

/-- From INT32. -/
def FpFmt.ofInt32 (f : FpFmt) (a : Nat) : FRes := f.round (Dy.ofInt (BitVec.ofNat 32 a).toInt 0)

/-! ## FP32 shorthands (no flags kept) -/

/-- FP32 sum. -/
def addF (a b : Word) : Word := BitVec.ofNat 32 (fp32.add a.toNat b.toNat).bits
/-- FP32 difference. -/
def subF (a b : Word) : Word := BitVec.ofNat 32 (fp32.sub a.toNat b.toNat).bits
/-- FP32 product. -/
def mulF (a b : Word) : Word := BitVec.ofNat 32 (fp32.mul a.toNat b.toNat).bits
/-- FP32 quotient. -/
def divF (a b : Word) : Word := BitVec.ofNat 32 (fp32.div a.toNat b.toNat).bits
/-- FP32 square root. -/
def sqrtF (a : Word) : Word := BitVec.ofNat 32 (fp32.sqrt a.toNat).bits
/-- An exact number rounded to FP32. -/
def roundF (x : Dy) : Word := BitVec.ofNat 32 (fp32.round x).bits
/-- FP32 is neither NaN nor infinity. -/
def finF (a : Word) : Bool := fp32.isFin a.toNat
/-- A finite FP32 value, zero for the others. -/
def dyF (a : Word) : Dy := match fp32.dec a.toNat with | .fin x => x | _ => Dy.zero
/-- The magnitude pattern of an FP32 value. -/
def magF (a : Word) : Word := a &&& 0x7FFFFFFF
/-- 2^k as FP32, for k in the FP32 range. -/
def pow2F (k : Int) : Word := roundF ⟨false, 1, k⟩
/-- FP32 negation. -/
def negF (a : Word) : Word := a ^^^ 0x80000000

/-! ## The short formats -/

/-- Exponent bits, mantissa bits and exponent of the smallest subnormal of a short format's magnitude (R80 to R83, R87);
II4 counts in whole units. -/
def Fmt.shape : Fmt → Nat × Nat × Int
  | .if4 => (2, 1, -1)
  | .ii4 => (0, 3, 0)
  | .if6 => (3, 2, -4)
  | .if8 => (4, 3, -9)
  | .bf16 => (8, 7, -133)
  | .fp16 => (5, 10, -24)

end Sys2Proof.Machine

namespace Sys2Proof.Machine

/-- Bits of an element. -/
def fmtBits : Fmt → Nat
  | .if4 | .ii4 => 4 | .if6 => 6 | .if8 => 8 | .bf16 | .fp16 => 16

/-- The formats that carry block scales. -/
def scaledFmt : Fmt → Bool
  | .bf16 | .fp16 => false
  | _ => true

/-- The escape code (R84). -/
def escapeCode : Fmt → Nat
  | .if6 => 0x20 | .if8 => 0x80 | _ => 8

/-- The layout of a 16-bit format. -/
def wideFmt : Fmt → FpFmt
  | .fp16 => fp16 | _ => bf16

/-- The largest finite value F of a scaled format (R114). -/
def maxOf : Fmt → Nat
  | .if4 => 6 | .ii4 => 7 | .if6 => 28 | .if8 => 480 | .fp16 => 65504 | .bf16 => 255 * 2 ^ 120

/-- The overflow threshold of R94. -/
def overflowAt : Fmt → Dy
  | .if4 => ⟨false, 7, 0⟩ | .ii4 => ⟨false, 15, -1⟩ | .if6 => ⟨false, 30, 0⟩ | .if8 => ⟨false, 496, 0⟩
  | .fp16 => ⟨false, 65520, 0⟩ | .bf16 => ⟨false, 511, 119⟩

/-- The magnitude code of the largest finite value. -/
def maxCode : Fmt → Nat
  | .if4 => 7 | .ii4 => 7 | .if6 => 31 | .if8 => 127 | .fp16 => 0x7BFF | .bf16 => 0x7F7F

/-- Whether a magnitude code is a nonzero subnormal of a format that has them (R99). -/
def subnormalCode (f : Fmt) (c : Nat) : Bool :=
  match f with
  | .ii4 => false
  | _ => decide (0 < c ∧ c < 2 ^ (Fmt.shape f).2.1)

/-- The value of an element code of a scaled format other than the escape (R80 to R83). -/
def elemValue (f : Fmt) (c : Nat) : Dy :=
  match f with
  | .ii4 => Dy.ofInt (BitVec.ofNat 4 c).toInt 0
  | _ =>
    let (eb, mb, q) := Fmt.shape f
    let g := c % 2 ^ (eb + mb)
    let neg := decide (c / 2 ^ (eb + mb) % 2 = 1)
    if g / 2 ^ mb = 0 then ⟨neg, g, q⟩ else ⟨neg, g % 2 ^ mb + 2 ^ mb, q + (g / 2 ^ mb : Nat) - 1⟩

/-- The value of a nonzero IS8 code: 2^(e−7)·(1 + m/16) (R85). -/
def scaleValue (c : Nat) : Dy := ⟨false, 16 + c % 16, (c / 16 : Nat) - 11⟩

/-- One draw of a generator: the new state and the 16-bit draw (R98). -/
def drawOf (g : DWord) : DWord × Nat :=
  let a := g ^^^ (g <<< 13)
  let b := a ^^^ (a >>> 7)
  let c := b ^^^ (b <<< 17)
  (c, (c >>> 48).toNat)

/-- A generator's first state: the seed, or the constant of R98 for a seed of 0. -/
def seedGen (seed : DWord) : DWord := if seed = 0 then 0x9E3779B97F4A7C15 else seed

/-- What encoding one value did. -/
structure Enc where
  code : Nat
  sat : Bool := false
  inf : Bool := false
  flush : Bool := false
  drew : Bool := false
deriving DecidableEq, Repr

/-- The rounded magnitude code of a value below the overflow threshold, and the generator after it (R96, R97): `gen` is
the generator when the rounding is stochastic. -/
def roundCode (f : Fmt) (x : Dy) (gen : Option DWord) : Nat × Option DWord :=
  let (_, mb, qm) := Fmt.shape f
  let lead : Int := Nat.log2 x.m + x.e
  let q := match f with | .ii4 => 0 | _ => max (lead - mb) qm
  let lo := x.m * 2 ^ (x.e - q).toNat / 2 ^ (q - x.e).toNat
  let exact := decide (q ≤ x.e) || decide (x.m % 2 ^ (q - x.e).toNat = 0)
  let base := (q - qm).toNat * 2 ^ mb
  let lowCode := base + lo
  if x.m = 0 then (0, gen)
  else if exact then (min lowCode (maxCode f), gen)
  else if maxCode f ≤ lowCode then (maxCode f, gen)
  else
    match gen with
    | none => (min (base + (roundShift x.m (q - x.e)).1) (maxCode f), none)
    | some g =>
      let p := 2 ^ (q - x.e).toNat
      let k := x.m % p * 65536 / p
      let (g', u) := drawOf g
      (if 65536 ≤ k + u then lowCode + 1 else lowCode, some g')

/-- The code of a signed magnitude code: code 0 for any zero of a scaled format, two's complement for II4. -/
def signCode (f : Fmt) (neg : Bool) (c : Nat) : Nat :=
  match f with
  | .bf16 | .fp16 => if neg then 2 ^ 15 + c else c
  | .ii4 => if c = 0 then 0 else if neg then 16 - c else c
  | _ => if c = 0 then 0 else if neg then 2 ^ (fmtBits f - 1) + c else c

/-- Encode a finite scaled value (rules Q, Z and N of R93): overflow mode, subnormal mode bit, rounding. -/
def encodeFin (f : Fmt) (x : Dy) (ovfInf flushBit : Bool) (gen : Option DWord) : Enc × Option DWord :=
  if (overflowAt f).magLe x then
    (if ovfInf ∧ !scaledFmt f then { code := signCode f x.neg (maxCode f + 1), inf := true }
      else { code := signCode f x.neg (maxCode f), sat := true }, gen)
  else
    let (c, g) := roundCode f x gen
    let fl := flushBit && subnormalCode f c
    ({ code := signCode f x.neg (if fl then 0 else c), flush := fl, drew := decide (g ≠ gen) }, g)

/-- Encode any FP32 value in a 16-bit format: NaNs canonical, infinities kept (R88, rule N). -/
def encode16 (f : Fmt) (a : Word) (ovfInf flushBit : Bool) (gen : Option DWord) : Enc × Option DWord :=
  match fp32.dec a.toNat with
  | .nan => ({ code := (wideFmt f).nan }, gen)
  | .inf s => ({ code := (wideFmt f).sign s + (wideFmt f).inf }, gen)
  | .fin x => encodeFin f x ovfInf flushBit gen

/-- Decode a 16-bit encoding exactly to FP32; a NaN keeps no payload (R88). -/
def decode16 (f : Fmt) (c : Nat) : Word :=
  match (wideFmt f).dec c with
  | .nan => 0x7FC00000
  | .inf s => if s then 0xFF800000 else 0x7F800000
  | .fin x => roundF x

/-- Whether a decoded element times block scale times segment scale reaches the FP32 overflow threshold (R86). -/
def decodeOverflows (x : Dy) : Bool := Dy.magLe ⟨false, 2 ^ 25 - 1, 103⟩ x

/-- The FP32 value of an exact product of R86: rounded once; the largest finite value beyond the threshold. -/
def decodeValue (x : Dy) : Word :=
  if decodeOverflows x then (if x.neg then 0xFF7FFFFF else 0x7F7FFFFF) else roundF x

/-! ## Blocks and segments (R107, R115) -/

/-- The block that holds element `i` of a segment. -/
def blockOf (axisRows : Bool) (block i : Nat) : Nat :=
  let tile := i / 8192
  let row := i % 8192 / 64
  let col := i % 64
  tile * (8192 / block) + if axisRows then row / block * 64 + col else row * (64 / block) + col / block

/-- The element at position `p` of block `b`. -/
def elemOf (axisRows : Bool) (block b p : Nat) : Nat :=
  let per := 8192 / block
  let tile := b / per
  let r := b % per
  tile * 8192 + if axisRows then (r / 64 * block + p) * 64 + r % 64
    else r / (64 / block) * 64 + r % (64 / block) * block + p

/-- The smallest nonzero IS8 code whose value covers a magnitude, v·F·s ≥ m; none when no code does (R115). -/
def scaleCode (bigF : Nat) (segScale m : Dy) : Option Nat :=
  ((List.range 255).map (· + 1)).find? fun c => m.magLe (((scaleValue c).mul segScale).mul ⟨false, bigF, 0⟩)

/-- The least c with M / F ≤ 2^c (R114 step 5). -/
def scaleExp (bigF : Nat) (m : Dy) : Int :=
  let lo : Int := Nat.log2 m.m + m.e - Nat.log2 bigF - 2
  match (List.range 6).find? fun i => m.magLe ⟨false, bigF, lo + i⟩ with
  | some i => lo + i
  | none => lo + 6

/-! ## IW16 (R90, R91) -/

/-- x·2^(142−E) rounded to nearest even, signed. -/
def wireMant (x : Dy) (bigE : Nat) : Int :=
  let k := (roundShift x.m ((bigE : Int) - 142 - x.e)).1
  if x.neg then -(k : Int) else k

/-- Encode 32 finite FP32 values; the flag says that the block saturated (R91). -/
def wireEncode (xs : List Dy) : (List Int × Nat) × Bool :=
  let a := xs.foldl (fun m x => if m.magLe x then x else m) Dy.zero
  if a.m = 0 then ((xs.map fun _ => 0, 0), false)
  else
    match ((List.range 255).map (· + 1)).find? fun bigE => decide ((wireMant a bigE).natAbs ≤ 32767) with
    | some bigE => ((xs.map fun x => wireMant x bigE, bigE), false)
    | none => ((xs.map fun x => max (-32767) (min 32767 (wireMant x 255)), 255), true)

/-- The value of one element of a wire block. -/
def wireValue (mant : Int) (bigE : Nat) : Dy := if bigE = 0 then Dy.zero else Dy.ofInt mant ((bigE : Int) - 142)

end Sys2Proof.Machine
end

