-- ==== Sys2Proof/Machine/Hbm.lean ====
section
/-! DEFINITION. HBM: reads with their errors, writes, write-backs, scrub, atomics, the channel map, temperatures and
throttling, self-tests and scans (R213 to R236). -/

namespace Sys2Proof.Machine

/-! ## Suspects and errors -/

/-- A channel becomes suspect, unless its bit is already set (R224). -/
def State.suspect (s : State) (ch detail : Nat) : State :=
  if s.bit (Reg.MEM_SUSPECT + 4 * (ch / 32)) (ch % 32) then s
  else ((s.setBit (Reg.MEM_SUSPECT + 4 * (ch / 32)) (ch % 32) true).event Reg.MEM_EVENT 0).ledgerEvent 0x05 0 ch detail []

/-- The channel-window offset of a byte (R216). -/
def windowOffset (ch o : Nat) : Nat := ch * 2 ^ 31 + o

/-- Queue a write-back of a line that the code corrected, or drop it when 64 wait (R221); `bytes` where they are not those stored. -/
def State.queueWriteBack (s : State) (ch line : Nat) (bytes : List Byte) : State :=
  if 64 ≤ (s.writeBacks ch).length then (s.count Reg.MEM_WB_DROP 32 1).event Reg.MEM_EVENT 5
  else s.setWriteBacks ch (s.writeBacks ch ++ [(line, bytes)])

/-- A corrected read: counted, queued for write-back, and a suspect when it needed 3 symbols or reached the limit
(R221, R224). The module cannot tell a miscorrection, which returns `bytes`, from a correction (R214). -/
def State.corrected (s : State) (ch o symbols : Nat) (bytes : List Byte) : State :=
  let s1 := ((s.count (bankKey Reg.MEM_CE_COUNT ch) 64 1).bel64 (chanCnt ch 4) 1).live (0x20 + 4 * ch) 1
  let s2 := (s1.trace (dieOf ch 128) 0x0E ch (windowOffset ch o + 2 ^ 64 * symbols)).queueWriteBack ch (o / 64) bytes
  let s3 := if symbols = 3 then s2.suspect ch 2 else s2
  let limit := (s.seed 2).toNat % 65536
  if limit ≠ 0 ∧ limit ≤ s3.regN (bankKey Reg.MEM_CE_COUNT ch) then s3.suspect ch 3 else s3

/-- SOURCE of MEM_UE_INFO; BAR2, a load's fetch and the trace count as host DMA, scheduled traffic outside any step as scheduled, a
flush for no requester as a self-test (log 32). -/
def sourceCode : Requester → Nat
  | .scheduled => 0 | .update => 1 | .hostDma _ | .window => 2 | .atomic => 3 | .scrub => 4
  | .selfTest | .flush => 5 | .image => 6

/-- Whether an uncorrectable read of this requester raises cause 1 in the running step (R223). -/
def inStepFor (s : State) : Requester → Bool
  | .scheduled | .update => s.beforeVote
  | _ => false

/-- MEM_UE_INFO for a read. -/
def State.ueInfo (s : State) (who : Requester) : Nat := sourceCode who + 16 * (inStepFor s who).toNat + 2 ^ 31

/-- Record the first uncorrectable read since the last clear. -/
def State.recordUe (s : State) (ch o : Nat) (who : Requester) : State :=
  if s.bit Reg.MEM_UE_INFO 31 then s
  else ((s.setRegN Reg.MEM_UE_ADDR (windowOffset ch o)).setRegN Reg.MEM_UE_TICK s.tick.now).setRegN Reg.MEM_UE_INFO
    (s.ueInfo who)

/-- Bytes with their addresses. -/
def addrBytes (a : Nat) (bs : List Byte) : List (Nat × Byte) := bs.zipIdx.map fun e => (a + e.2, e.1)

/-- The flights of a DMA engine. -/
def State.flights (s : State) (e : Nat) : List DmaFlight := storeGet [] s.host.flights e

/-- Replace the flights of a DMA engine. -/
def State.setFlights (s : State) (e : Nat) (fs : List DmaFlight) : State :=
  { s with host := { s.host with flights := storeSet [] s.host.flights e fs } }

/-- The same, each with whether its line was uncorrectable. -/
def markedBytes (a : Nat) (ue : Bool) (bs : List Byte) : List (Nat × Byte × Bool) := bs.zipIdx.map fun e => (a + e.2, e.1, ue)

/-- The requester of a flush read: that of the entry's partial write (R234). -/
def State.flushFor (s : State) (ch o : Nat) : Option Requester :=
  ((s.wcb ch).find? fun e => e.line = o / 64).map WcbEntry.who

/-- The requester that the consequences of a read fall on. -/
def State.readFor (s : State) (ch o : Nat) : Requester → Requester
  | .flush => (s.flushFor ch o).getD .selfTest
  | w => w

/-- What a read delivers in place of the stored line reaches its requester (R214, R222, R223): a unit of the pattern or the tick unit
is given it, a DMA or BAR2 read returns it, an atomic applies to it, a flush merges over it. -/
def State.deliver (s : State) (ch o addr : Nat) (who : Requester) (bytes : List Byte) (ue : Bool) : State :=
  let a := addr / 64 * 64
  let k := hbmKey ch (o / 64 * 64)
  match who with
  | .scheduled | .update | .image =>
    let s1 := s.dropBad k 64
    { s1 with hbm := { s1.hbm with bad := s1.hbm.bad ++ addrBytes k (bytes.take 64) } }
  | .hostDma e => s.setFlights e ((s.flights e).map fun f => { f with bad := markedBytes a ue bytes ++ f.bad })
  | .window => { s with host := { s.host with windowBad := markedBytes a ue bytes ++ s.host.windowBad } }
  | .atomic => s.putBytes k (bytes.take 64)
  | .flush =>
    match (s.wcb ch).find? fun e => e.line = o / 64 with
    | some e => s.flushOver ch e bytes
    | none => s
  | .scrub | .selfTest => s

/-- The consequence of an uncorrectable read for its requester beyond the bytes (R223); a flush's falls on the partial write (R234). -/
def State.ueConsequence (s : State) (ch addr : Nat) (bytes : List Byte) (via : Requester) : Requester → State
  | .scheduled | .update => s.spoil 1
  | .image => ((s.event Reg.MEM_EVENT 2).ledgerFatal 7 ch).stopReports
  | .hostDma e =>
    if via = .flush then
      s.setFlights e ((s.flights e).map fun f => { f with bad := markedBytes (addr / 64 * 64) true bytes ++ f.bad })
    else s
  | .window | .atomic | .scrub | .selfTest | .flush => s

/-- An uncorrectable read (R222 to R224). -/
def State.uncorrectable (s : State) (ch o addr : Nat) (via : Requester) (bytes : List Byte) : State :=
  let who := s.readFor ch o via
  let info := s.ueInfo who
  let s1 := ((s.count (bankKey Reg.MEM_UE_COUNT ch) 32 1).bel64 (dieCnt (ch / 128) 17) 1).live (0x420 + ch) 1
  let s2 := ((s1.recordUe ch o who).event Reg.MEM_EVENT 1).ledgerEvent 0x04 0 ch info (leBytes 8 (windowOffset ch o))
  let s3 := (s2.trace (dieOf ch 128) 0x0F ch (windowOffset ch o + 2 ^ 64 * sourceCode who)).suspect ch 1
  (s3.deliver ch o addr via bytes true).ueConsequence ch addr bytes via who

/-- The channel and offset that a read reaches: a self-test reads a channel in service or not, through the channel window (R226,
R232). -/
def State.readPlace (s : State) (addr : Nat) (who : Requester) : Option (Nat × Nat) :=
  let o := (addr - 2 ^ 39) % 2 ^ 31
  if who = .selfTest ∧ 2 ^ 39 ≤ addr ∧ addr < 2 ^ 40 ∧ o < chanBytes then some ((addr - 2 ^ 39) / 2 ^ 31, o) else s.hbmPlace addr

/-- The decoder's verdict on a line with `symbols` in error: none where it finds it uncorrectable; otherwise the symbols it corrects,
and the line that it returns where that is not the stored one, which needs 6 symbols in error (R214). -/
def decodeLine (symbols : Nat) (wrong : Option (Nat × List Byte)) : Option (Nat × List Byte) :=
  if symbols ≤ 3 then some (symbols, [])
  else if 6 ≤ symbols then wrong.map fun w => (max 1 (min w.1 3), w.2)
  else none

/-- A read that the decoder corrects, rightly or not: what it returned goes to the requester (R214, R221). -/
def State.correctedFor (s : State) (ch o addr : Nat) (who : Requester) (found : Nat × List Byte) : State :=
  let s1 := s.corrected ch o found.1 found.2
  if found.2.isEmpty then s1 else s1.deliver ch o addr who found.2 false

/-- HBM_READ (R214, R221): a line found uncorrectable is read again by HBM_READ_RETRY. -/
def execHbmRead (addr : Nat) (who : Requester) (symbols : Nat) (wrong : Option (Nat × List Byte)) (s : State) :
    Host.Outcome State Fault Refusal :=
  .next (match s.readPlace addr who with
    | none => s.addrErr
    | some (ch, o) =>
      let s1 := (s.dropBad (hbmKey ch (o / 64 * 64)) 64).bel64 (chanCnt ch (if scheduledReq who then 0 else 2)) 1
      match decodeLine symbols wrong with
      | some found => if symbols = 0 then s1 else s1.correctedFor ch o addr who found
      | none => s1)

/-- HBM_READ_RETRY (R222): the second read corrects, or is uncorrectable and returns the bytes delivered. -/
def execHbmReadRetry (addr : Nat) (who : Requester) (symbols : Nat) (bytes : List Byte) (wrong : Option (Nat × List Byte))
    (s : State) : Host.Outcome State Fault Refusal :=
  .next (match s.readPlace addr who with
    | none => s.addrErr
    | some (ch, o) =>
      match decodeLine symbols wrong with
      | some found => (s.correctedFor ch o addr who found).count (bankKey Reg.MEM_RETRY_COUNT ch) 32 1
      | none => s.uncorrectable ch o addr who bytes)

/-- WRITE_BACK (R221): the oldest queued write-back of a channel is served; the stored bytes are the corrected ones, but for a
miscorrected line (R214). -/
def execWriteBack (channel : Fin 256) (s : State) : Host.Outcome State Fault Refusal :=
  .next (match s.writeBacks channel with
    | [] => s
    | (line, bytes) :: q =>
      ((s.setWriteBacks channel q).putBytes (hbmKey channel (64 * line)) (bytes.take 64)).bel64 (chanCnt channel 5) 1)

/-- Lines of a channel. -/
def chanLines : Nat := 31250000

/-- PATROL_SCRUB (R221): one line of an in-service channel is read, and corrected as any read is. -/
def execPatrolScrub (channel : Fin 256) (symbols : Nat) (wrong : Option (Nat × List Byte)) (s : State) :
    Host.Outcome State Fault Refusal :=
  .next (if s.hbm.inService.getLsbD channel then
    let line := storeGet 0 s.hbm.scrub channel
    let s1 : State := { s with hbm := { s.hbm with
      scrub := storeSet 0 s.hbm.scrub channel ((line + 1) % chanLines) } }
    match decodeLine symbols wrong with
    | some found => if symbols = 0 then s1 else s1.corrected channel (64 * line) found.1 found.2
    | none => s1
  else s)

/-- WRITE_CRC_REJECT (R225): after the write and its 8 repeats have all failed the channel is suspect and the module sends
no further report. -/
def execWriteCrcReject (addr : Nat) (times : Nat) (s : State) : Host.Outcome State Fault Refusal :=
  .next (match s.hbmPlace addr with
    | none => s.addrErr
    | some (ch, _) =>
      if 9 ≤ times then (((s.suspect ch 6).event Reg.MEM_EVENT 4).ledgerFatal 2 ch).stopReports else s)

/-! ## Atomics (R235) -/

/-- Bytes of an element. -/
def atomicSize : AtomicFmt → Nat
  | .fp32 | .int32 => 4 | .bf16 => 2 | .int64 => 8 | .raw => 1

/-- BF16 combined in FP32 and rounded, overflow mode 0, no flush. -/
def bf16Via (f : Word → Word → Word) (x y : Nat) : Nat :=
  (encode16 .bf16 (f (decode16 .bf16 x) (decode16 .bf16 y)) false false none).1.code

/-- FP32 maximum. -/
def maxF (a b : Word) : Word := BitVec.ofNat 32 (fp32.max a.toNat b.toNat).bits

/-- FP32 minimum. -/
def minF (a b : Word) : Word := BitVec.ofNat 32 (fp32.min a.toNat b.toNat).bits

/-- The FP32 operation of an atomic. -/
def atomicF : AtomicOp → Word → Word → Word
  | .add => addF | .max => maxF | .min => minF | .swap => fun _ y => y

/-- The integer operation of an atomic at a width. -/
def atomicI (w : Nat) (o : AtomicOp) (x y : Nat) : Nat :=
  let a := (BitVec.ofNat w x).toInt
  let b := (BitVec.ofNat w y).toInt
  match o with
  | .add => (x + y) % 2 ^ w
  | .max => if a < b then y else x
  | .min => if b < a then y else x
  | .swap => y

/-- One element of an atomic: the old value and the operand. -/
def atomicElem (o : AtomicOp) (f : AtomicFmt) (x y : Nat) : Nat :=
  match o, f with
  | .swap, _ => y
  | _, .fp32 => (atomicF o (BitVec.ofNat 32 x) (BitVec.ofNat 32 y)).toNat
  | _, .bf16 => bf16Via (atomicF o) x y
  | _, .int32 => atomicI 32 o x y
  | _, .int64 => atomicI 64 o x y
  | _, .raw => y

/-- Combine two byte lists element by element. -/
def atomicBytes (o : AtomicOp) (f : AtomicFmt) : Nat → List Byte → List Byte → List Byte
  | 0, _, _ => []
  | fuel + 1, xs, ys =>
    match ys with
    | [] => []
    | _ :: _ =>
      let n := atomicSize f
      leBytes n (atomicElem o f (ofLe (xs.take n)) (ofLe (ys.take n))) ++ atomicBytes o f fuel (xs.drop n) (ys.drop n)

/-- Flush the entries of the lines from `line` on (R234). -/
def State.flushLines (s : State) (ch line : Nat) : Nat → State
  | 0 => s
  | n + 1 =>
    match (s.wcb ch).find? fun e => e.line = line with
    | some e => State.flushLines (s.flushEntry ch e) ch (line + 1) n
    | none => State.flushLines s ch (line + 1) n

/-- The lines a span of bytes touches. -/
def lineCount (o n : Nat) : Nat := (o % 64 + n + 63) / 64

/-- MEMORY_ATOMIC (R234, R235): the line's entry is flushed first; a fetch returns the old bytes. -/
def execMemoryAtomic (op : AtomicOp) (fmt : AtomicFmt) (addr : Nat) (data : List Byte) (fetch : Bool) (s : State) :
    Host.Outcome State Fault Refusal :=
  .next (match s.hbmPlace addr with
    | none => let s1 := s.addrErr; if fetch then s1.send (.fetched (data.map fun _ => 0)) else s1
    | some (ch, o) =>
      let s1 := s.flushLines ch (o / 64) (lineCount o data.length)
      let old := (List.range data.length).map fun i => s1.byteAt (hbmKey ch (o + i))
      let s2 := (s1.putBytes (hbmKey ch o) (atomicBytes op fmt data.length old data)).dropBad (hbmKey ch (o / 64 * 64))
        (64 * lineCount o data.length)
      let s3 := s2.setWriteBacks ch ((s2.writeBacks ch).filter fun l =>
        l.1 < o / 64 || o / 64 + lineCount o data.length ≤ l.1)
      let s4 := (s3.count Reg.MEM_ATOMICS 64 1).bel64 (chanCnt ch 3) 1
      if fetch then s4.send (.fetched old) else s4)

/-! ## The channel map (R217, R226) -/

/-- Copy the map into MEM_INSERVICE; a change sets MAP_APPLIED. -/
def State.copyMap (s : State) : State :=
  if s.wantedMap = s.hbm.inService then s
  else ({ s with hbm := { s.hbm with inService := s.wantedMap } } : State).event Reg.MEM_EVENT 6

/-- The map is copied at once when no image is LOADED, ARMED or RUNNING, and only then (R217). -/
def State.applyMap (s : State) : State :=
  match s.image.st with
  | .loaded | .armed | .running => s
  | _ => s.copyMap

/-- Note that the seed bank's map changed while an image is held (R51). -/
def State.noteMap (s : State) : State :=
  if s.image.st = .empty then s else { s with image := { s.image with mapChanged := true } }

/-- Record the channels of group `k` that a write maps out, and start the map-in test of those it maps in. -/
def State.mapBits (s : State) (k : Nat) (old new : Word) : List Nat → State
  | [] => s
  | b :: bs =>
    let ch := 32 * k + b
    let s1 :=
      if old.getLsbD b && !new.getLsbD b then
        (({ s with hbm := { s.hbm with mapIn := s.hbm.mapIn.filter (· ≠ ch), mapFailed := s.hbm.mapFailed.filter (· ≠ ch) } } :
          State).ledgerEvent 0x06 0 ch 0 [])
      else if !old.getLsbD b && new.getLsbD b then
        { s with hbm := { s.hbm with mapIn := s.hbm.mapIn ++ [ch], mapFailed := s.hbm.mapFailed.filter (· ≠ ch) } }
      else s
    State.mapBits s1 k old new bs

/-- A write of a MEM_MAP register: one persistent write (R226). A write the seed bank does not take changes nothing. -/
def State.mapWrite (s : State) (k : Nat) (value : Word) : State :=
  let old := s.seed (8 + k)
  let s1 := s.seedAccept (8 + k) value
  if s1.sbk.queue = s.sbk.queue then s1
  else
    let s2 := s1.mapBits k old value (List.range 32)
    (if old = value then s2 else s2.noteMap).applyMap

/-- MAP_WRITE (R226). -/
def execMapWrite (k : Fin 8) (value : Word) (s : State) : Host.Outcome State Fault Refusal := .next (s.onHost fun s => s.mapWrite k value)

/-- Overwrite a channel with zeros (a march test, R232). -/
def State.zeroChannel (s : State) (ch : Nat) : State :=
  let lo := hbmKey ch 0
  ((({ s with mem := storeDrop s.mem fun a => lo ≤ a && a < lo + chanBytes } : State).setWcb ch []).setWriteBacks ch []).dropBad
    lo chanBytes

/-- The module writes a MEM_MAP register itself (R226, R227); an image that is held then retires (R51). -/
def State.ownMap (s : State) (k : Nat) (v : Word) : State :=
  let s1 := s.seedAccept (8 + k) v
  if s1.seed (8 + k) = s.seed (8 + k) then s1 else s1.noteMap

/-- MAP_IN_TEST_DONE (R226): a march test; a failure writes the bit back to 0, and the channel stays out of service though the seed
bank should not take that write (R217). -/
def execMapInTestDone (channel : Fin 256) (pass : Bool) (s : State) : Host.Outcome State Fault Refusal :=
  let ch := channel.val
  .next (if s.hbm.mapIn.contains ch then
    let s1 := s.zeroChannel ch
    let s2 : State := { s1 with hbm := { s1.hbm with mapIn := s1.hbm.mapIn.filter (· ≠ ch) } }
    if pass then (s2.ledgerEvent 0x06 0 ch 1 []).applyMap
    else
      let s3 := ({ s2 with hbm := { s2.hbm with mapFailed := s2.hbm.mapFailed ++ [ch] } } : State).ownMap (ch / 32)
        (s2.seed (8 + ch / 32) &&& ~~~(BitVec.ofNat 32 (2 ^ (ch % 32))))
      ((s3.event Reg.MEM_EVENT 9).ledgerEvent 0x06 0 ch 3 []).suspect ch 5
  else s)

/-! ## Temperature (R228 to R230) -/

/-- The threshold Θ. -/
def State.throttleAt (s : State) : Nat := (s.seed 1).toNat % 256

/-- The required idle share of a stack in units of 1/16 % (R229). -/
def State.required (s : State) (theta : Nat) : Nat := if theta < s.throttleAt then 0 else 32 * (theta - s.throttleAt + 1)

/-- H in units of 1/16 %, with an image held (R229, R236). -/
def headroom (reserve : Nat) (hot : Bool) : Nat := 16 * reserve - 25 - if hot then 32 else 0

/-- The memory reserve of the held image. -/
def State.memReserve (s : State) : Nat := (s.sections?.map Sections.memory).getD 0

/-- Show the applied share of a stack in MEM_THROTTLE. -/
def State.showShare (s : State) (k share : Nat) : State :=
  s.setFld (Reg.MEM_THROTTLE + 4 * (k / 2)) (16 * (k % 2) + 9) (16 * (k % 2)) share

/-- Show a stack's temperature, mark it hot at 85 °C or more, and keep the summary's highest (R228). -/
def State.showTemp (s : State) (k theta : Nat) : State :=
  let s1 := s.setFld (if k < 4 then Reg.MEM_TEMP0 else Reg.MEM_TEMP1) (8 * (k % 4) + 7) (8 * (k % 4)) theta
  ({ s1 with hbm := { s1.hbm with hot := if 85 ≤ theta then s1.hbm.hot ||| (BitVec.ofNat 8 (2 ^ k))
                                         else s1.hbm.hot &&& ~~~(BitVec.ofNat 8 (2 ^ k)) } } : State).liveMax (0xBC0 + k) theta

/-- The throttle condition of a stack while an image is RUNNING: it arises above H, and clears after 16 readings at or
below it (R230). -/
def State.throttleCond (s : State) (k theta req h : Nat) : State :=
  let c := storeGet 0 s.hbm.cond k
  let put (n : Nat) : State := { s with hbm := { s.hbm with cond := storeSet 0 s.hbm.cond k n } }
  if h < req then
    let s1 := (put 16).event Reg.MEM_EVENT 3
    if c = 0 then
      (s1.ledgerEvent 0x0F 1 k 0 (leBytes 4 theta ++ leBytes 4 req)).trace (dieOf k 4) 0x10 k (theta + 256 * min req h)
    else s1
  else if c = 0 then s else put (c - 1)

/-- One reading of a stack. While an image is RUNNING the share applies from the next edge; otherwise the full required
share applies at once and no condition arises (R229). -/
def State.readTemp (s : State) (k theta : Nat) : State :=
  let s1 := s.showTemp k theta
  let req := s1.required theta
  let s2 : State := { s1 with hbm := { s1.hbm with share := storeSet 0 s1.hbm.share k req } }
  if s2.image.st = .running then s2.throttleCond k theta req (headroom s2.memReserve (decide (85 ≤ theta)))
  else ({ s2 with hbm := { s2.hbm with cond := storeSet 0 s2.hbm.cond k 0 } } : State).showShare k req

/-- Readings of the stacks from number `k` upward. -/
def State.readTemps (s : State) (k : Nat) : List Nat → State
  | [] => s
  | t :: ts => State.readTemps (s.readTemp k (min t 255)) (k + 1) ts

/-- The share that a stack applies: the required one, and at most H while an image is RUNNING (R229). -/
def State.appliedShare (s : State) (k : Nat) : Nat :=
  let req := storeGet 0 s.hbm.share k
  if s.image.st = .running then min req (headroom s.memReserve (s.hbm.hot.getLsbD k)) else req

/-- The shares of the last readings apply (at an edge, and when an image stops RUNNING). -/
def State.applyShares (s : State) : Nat → State
  | 0 => s
  | n + 1 => (State.applyShares s n).showShare n (s.appliedShare n)

/-- HBM_TEMP_TIMER (R228): only while no image is RUNNING, in A0 and A1. -/
def execHbmTempTimer (temps : List Nat) (s : State) : Host.Outcome State Fault Refusal :=
  .next (if s.image.st ≠ .running ∧ (s.ldg.ps = .a0 ∨ s.ldg.ps = .a1) then s.readTemps 0 (temps.take 8) else s)

/-! ## Self-tests and scans (R232) -/

/-- The channels a request covers: all, or CHANNEL. -/
def coveredBy (ctrl : Nat) : List Nat := if ctrl.testBit 5 then List.range 256 else [bits ctrl 15 8]

/-- Whether a request touches an in-service channel. -/
def State.touchesInService (s : State) (ctrl : Nat) : Bool := (coveredBy ctrl).any fun ch => s.hbm.inService.getLsbD ch

/-- A request with its operands taken: confined to mapped-out channels it starts at once and holds no slot (R76). -/
def State.memRequest (s : State) (h : Held) (ctrl : Nat) : State :=
  if s.touchesInService ctrl then s.requestTest h else s.setTestStatus h 1

/-- MODE, ALL and CHANNEL are taken whenever the register is written (R13). -/
def State.takeCtrl (s : State) (o ctrl : Nat) : State := (s.setFld o 15 8 (bits ctrl 15 8)).setFld o 5 4 (bits ctrl 5 4)

/-- ALL and CHANNEL of a margin scan. -/
def State.takeScan (s : State) (ctrl : Nat) : State :=
  (s.setFld Reg.MEM_SCAN_CTRL 15 8 (bits ctrl 15 8)).setFld Reg.MEM_SCAN_CTRL 5 5 (bits ctrl 5 5)

/-- A march test of a channel in service is not started while an image is there (R232). -/
def State.marchRefused (s : State) (ctrl : Nat) : Bool :=
  ctrl.testBit 4 && s.touchesInService ctrl && decide (s.image.st ≠ .empty)

/-- The request is not started: REFUSED, and STATUS reads 0. -/
def State.refuseMarch (s : State) : State := (s.setTestStatus .memTest 0).setFld Reg.MEM_TEST_CTRL 16 16 1

/-- A self-test request that is not ignored: MODE, ALL and CHANNEL of the moment are the test's. -/
def State.newMemTest (s : State) (ctrl : Nat) : State :=
  { s.setFld Reg.MEM_TEST_CTRL 16 16 0 with hbm := { s.hbm with testCtrl := ctrl } }

/-- A write of MEM_TEST_CTRL with START 1 (R232). -/
def State.memTestStart (s : State) (ctrl : Nat) : State :=
  let s1 := s.takeCtrl Reg.MEM_TEST_CTRL ctrl
  if s.testStatus .memTest = 1 ∨ s.testStatus .memTest = 2 then s1
  else
    let s2 := s1.newMemTest ctrl
    if s.marchRefused ctrl then s2.refuseMarch else s2.memRequest .memTest ctrl

/-- MEM_TEST_START. -/
def execMemTestStart (ctrl : Word) (s : State) : Host.Outcome State Fault Refusal := .next (s.onHost fun s => s.memTestStart ctrl.toNat)

/-- Mark a list of channels suspect. -/
def State.suspectAll (s : State) (detail : Nat) : List (Fin 256) → State
  | [] => s
  | ch :: chs => State.suspectAll (s.suspect ch detail) detail chs

/-- A march test leaves zeros in every channel it covers. -/
def State.zeroChannels (s : State) : List Nat → State
  | [] => s
  | ch :: chs => State.zeroChannels (s.zeroChannel ch) chs

/-- MEM_TEST_DONE (R224, R232): only a running test ends. -/
def execMemTestDone (failed : List (Fin 256)) (s : State) : Host.Outcome State Fault Refusal :=
  .next (if s.testStatus .memTest = 1 then
    let ctrl := s.hbm.testCtrl
    let n := failed.length
    let s1 := if ctrl.testBit 4 then s.zeroChannels (coveredBy ctrl) else s
    let s2 := ((s1.endTest .memTest (decide (0 < n))).setFld Reg.MEM_TEST_CTRL 31 24 (min n 255)).suspectAll 5 failed
    let s3 := s2.event Reg.MEM_EVENT 8
    if 0 < n then s3.event Reg.MEM_EVENT 9 else s3
  else s)

/-- A write of MEM_SCAN_CTRL with START 1. -/
def State.memScanStart (s : State) (ctrl : Nat) : State :=
  let s1 := s.takeScan ctrl
  if s.testStatus .memScan = 1 ∨ s.testStatus .memScan = 2 then s1 else s1.memRequest .memScan ctrl

/-- MEM_SCAN_START. -/
def execMemScanStart (ctrl : Word) (s : State) : Host.Outcome State Fault Refusal := .next (s.onHost fun s => s.memScanStart ctrl.toNat)

/-- One channel's scan result: MEM_SCAN_RESULT, and the entry of the next SCAN record (R232, R399). -/
def State.scanOne (s : State) (r : ScanResult) : State :=
  let v := min r.timing 255 + 2 ^ 8 * min r.volt 255 + 2 ^ 16 * r.pin
  let s1 := s.setRegN (bankKey Reg.MEM_SCAN_RESULT r.channel) (v + 2 ^ 31)
  { s1 with hlt := { s1.hlt with scans := storeSet 0 s1.hlt.scans r.channel (v + 2 ^ 24 + 2 ^ 32 * s1.hlt.bootSeq),
                                 scanDue := true } }

/-- Every result of a scan. -/
def State.scanAll (s : State) : List ScanResult → State
  | [] => s
  | r :: rs => State.scanAll (s.scanOne r) rs

/-- MEM_SCAN_DONE (R232). -/
def execMemScanDone (results : List ScanResult) (s : State) : Host.Outcome State Fault Refusal :=
  .next (if s.testStatus .memScan = 1 then
    ((s.scanAll results).endTest .memScan false).event Reg.MEM_EVENT 8
  else s)

/-- The counters of the block that are banked by channel, and the others MEM_STAT_CTRL.CLR resets. -/
def memBanked : List Nat := [Reg.MEM_CE_COUNT, Reg.MEM_UE_COUNT, Reg.MEM_RETRY_COUNT]

/-- The package counters and the first uncorrectable record. -/
def memPlain : List Nat :=
  [Reg.MEM_WCB_EVICT, Reg.MEM_ATOMICS, Reg.MEM_WB_DROP, Reg.MEM_UE_ADDR, Reg.MEM_UE_TICK, Reg.MEM_UE_INFO]

/-- What MEM_STAT_CLR resets, with the events of its cycle (R439). -/
def State.memClr (s : State) (same : List (Nat × Nat)) : State :=
  ((s.zeroBanks memBanked).zeroRegs memPlain).sameCycle (sameIn (memBanked ++ memPlain) same)

/-- MEM_STAT_CLR (R236, R439). -/
def execMemStatClr (same : List (Nat × Nat)) (s : State) : Host.Outcome State Fault Refusal :=
  .next (s.onHost fun s => s.memClr same)

end Sys2Proof.Machine
end

