-- ==== Sys2Proof/Machine/Streams.lean ====
section
/-! DEFINITION. Plots as streams: the rings and trees of TOPO (R266, R270), the ends of a plot's stream at the ports (R279, R281,
R303), blocks in plot buffers (R90, R255), and the digests of what passes a port (R263, R264). -/

namespace Sys2Proof.Machine

/-! ## TOPO -/

/-- The TOPO section. -/
def State.topo? (s : State) : Option Topo := s.sections?.map Sections.topo

/-- This module's rank. -/
def State.rank (s : State) : Nat := (s.img.map fun f => f.header.rank).getD 0

/-- TOPO's entry for a port. -/
def State.topoPort (s : State) (p : Nat) : Option TopoPort := s.topo?.bind fun t => t.ports.find? fun e => e.port = p

/-- The port that reaches a rank. -/
def State.portOf (s : State) (rank : Nat) : Option Nat :=
  s.topo?.bind fun t => (t.ports.find? fun p => p.peers.contains rank).map TopoPort.port

/-- The children of the rank tree that a port reaches, in ascending order of the lowest rank each covers (R270). -/
def State.kidsAt (s : State) (t : Topo) (port : Nat) : List (Nat × Nat) :=
  (t.treeChildren.filter fun c => s.portOf c.1 = some port).insertionSort fun a b => a.2 ≤ b.2

/-- The parent of the rank tree lies behind a port. -/
def State.parentAt (s : State) (t : Topo) (port : Nat) : Bool :=
  match t.treeParent with
  | some r => decide (s.portOf r = some port)
  | none => false

/-- Class S vectors that a reduction brings to a port: one from each child there, and the result from the parent. -/
def State.vecsAt (s : State) (t : Topo) (port : Nat) : Nat := (s.kidsAt t port).length + (s.parentAt t port).toNat

/-! ## Class G rings (R266, R267) -/

/-- This module's position on a ring. -/
def State.ringPos (s : State) (r : RingEntry) : Nat := r.ranks.findIdx (· = s.rank)

/-- Blocks of a full chunk: ceil(n / P). -/
def chunkLen (n size : Nat) : Nat := (n + size - 1) / size

/-- The blocks of chunk `c` of a share of `n` blocks that starts at `start`. -/
def chunkSeqs (start n size c : Nat) : List Nat :=
  let k := chunkLen n size
  (List.range (min n ((c + 1) * k) - c * k)).map fun i => start + c * k + i

/-- The chunks that position `p` takes part in, in order: at steps 1 to P − 1 it is `off` behind p − s, modulo P. -/
def chunkTrip (p size off : Nat) : List Nat := (List.range (size - 1)).map fun s => (p + 2 * size - (s + 1) - off) % size

/-- A reduction on one ring: where its share starts, its blocks, the ring, the position. -/
structure RingShare where
  start : Nat
  n : Nat
  ring : RingEntry
  pos : Nat
deriving DecidableEq, Repr

/-- Positions of the ring. -/
def RingShare.size (x : RingShare) : Nat := x.ring.ranks.length

/-- The blocks of a list of chunks. -/
def RingShare.seqs (x : RingShare) (cs : List Nat) : List Nat := cs.flatMap (chunkSeqs x.start x.n x.size)

/-- The blocks received for addition, in order. -/
def RingShare.received (x : RingShare) : List Nat := x.seqs (chunkTrip x.pos x.size 1)

/-- The final blocks received on the second trip of mode All, in order. -/
def RingShare.finals (x : RingShare) : List Nat := x.seqs (chunkTrip x.pos x.size 0)

/-- The partial sums sent, in order. -/
def RingShare.sent (x : RingShare) : List Nat := x.seqs (chunkTrip x.pos x.size 0)

/-- The final blocks sent on the second trip of mode All: the own chunk first, then those received but for the last. -/
def RingShare.finalsSent (x : RingShare) : List Nat := x.seqs ((x.pos :: chunkTrip x.pos x.size 0).take (x.size - 1))

/-- The chunk of a block. -/
def RingShare.chunk (x : RingShare) (seq : Nat) : Nat := (seq - x.start) / max 1 (chunkLen x.n x.size)

/-- This position owns a block's chunk. -/
def RingShare.owns (x : RingShare) (seq : Nat) : Bool := decide (x.chunk seq = x.pos)

/-- A chunk's way starts here: its first contribution is this position's. -/
def RingShare.starts (x : RingShare) (seq : Nat) : Bool := decide ((x.chunk seq + 1) % x.size = x.pos)

/-- The shares of a reduction: consecutive runs of blocks in ascending order of ring. -/
def State.sharesFrom (s : State) (start : Nat) : List RingEntry → List Nat → List RingShare
  | r :: rs, n :: ns => ⟨start, n, r, s.ringPos r⟩ :: State.sharesFrom s (start + n) rs ns
  | _, _ => []

/-- A plot's reduction in TOPO. -/
def State.gReduction (s : State) (plot : Nat) : Option GReduction :=
  s.topo?.bind fun t => t.reductions.find? fun g => g.plot = plot

/-- Its shares. -/
def State.gShares (s : State) (g : GReduction) : List RingShare :=
  s.sharesFrom 0 ((s.topo?.map Topo.rings).getD []) g.shares

/-- The share of a block. -/
def State.shareOf (s : State) (g : GReduction) (seq : Nat) : Option RingShare :=
  (s.gShares g).find? fun x => decide (x.start ≤ seq ∧ seq < x.start + x.n)

/-- The share that comes in by a port. -/
def State.shareIn (s : State) (g : GReduction) (port : Nat) : Option RingShare :=
  (s.gShares g).find? fun x => x.ring.recv = port

/-- The place of a final block in the buffer of the update unit that takes it: its number among the blocks that this module owns, or
its block sequence number in mode All (R267). -/
def State.finalIndex (s : State) (g : GReduction) (seq : Nat) : Nat :=
  if g.all then seq
  else ((s.gShares g).flatMap fun x => chunkSeqs x.start x.n x.size x.pos).findIdx (· = seq)

/-! ## Ends of streams (R279, R281, R303) -/

/-- The key of a plot at a port. -/
def crossKey (plot port : Nat) : Nat := plot * 16 + port

/-- One end of a plot's stream. -/
def State.linkEnd (s : State) (plot port : Nat) (recv : Bool) : LinkEnd := storeGet {} s.pyu.ends (crossKey plot port * 2 + recv.toNat)

/-- Replace it. -/
def State.setEnd (s : State) (plot port : Nat) (recv : Bool) (e : LinkEnd) : State :=
  { s with pyu := { s.pyu with ends := storeSet {} s.pyu.ends (crossKey plot port * 2 + recv.toNat) e } }

/-- The end that the plot's own fields describe: its PORT, in its direction (R303). -/
def ownEnd (x : Plot) (port : Nat) (recv : Bool) : Bool := decide (x.port = port ∧ x.recv = recv)

/-- Whether a plot's stream crosses a port in a direction: by its own fields, a reduction on the ports of its rings (R266), or a
Class S reduction on the ports of the rank tree (R270). -/
def State.crosses (s : State) (plot port : Nat) (recv : Bool) : Bool :=
  let x := s.plot plot
  if x.kind = 0 ∨ x.kind = 4 then false
  else if ownEnd x port recv then true
  else
    match s.topo? with
    | none => false
    | some t =>
      if x.kind = 1 then (s.gReduction plot).isSome && t.rings.any fun r => decide ((if recv then r.recv else r.send) = port)
      else if x.kind = 2 then decide (0 < s.vecsAt t port)
      else false

/-- The credits that the sending end holds (R281). -/
def State.creditsAt (s : State) (plot port : Nat) : Nat :=
  let x := s.plot plot
  if ownEnd x port false then x.held else x.credits - (s.linkEnd plot port false).used

/-- A data frame leaves: a credit is spent and the position moves on (R281, R303). -/
def State.frameSent (s : State) (plot port : Nat) : State :=
  let x := s.plot plot
  let e := s.linkEnd plot port false
  if ownEnd x port false then
    (s.setPlot plot { x with held := x.held - 1, position := x.position + 1 }).setEnd plot port false { e with frames := e.frames + 1 }
  else s.setEnd plot port false { e with frames := e.frames + 1, used := e.used + 1 }

/-- Credits come back to the sending end (R281). -/
def State.creditsBack (s : State) (plot port n : Nat) : State :=
  let x := s.plot plot
  if n = 0 then s
  else if ownEnd x port false then s.setPlot plot { x with held := min 65535 (x.held + n) }
  else
    let e := s.linkEnd plot port false
    s.setEnd plot port false { e with used := e.used - n }

/-- The frames that occupy space at the receiving end. -/
def State.occupied (s : State) (plot port : Nat) : Nat :=
  let x := s.plot plot
  if ownEnd x port true then x.held else (s.linkEnd plot port true).used

/-- Space at the receiving end becomes free. -/
def State.freeFrames (s : State) (plot port n : Nat) : State :=
  let x := s.plot plot
  if ownEnd x port true then s.setPlot plot { x with held := x.held - n }
  else
    let e := s.linkEnd plot port true
    s.setEnd plot port true { e with used := e.used - n }

/-- This tick is the last of a slot. -/
def State.lastOfSlot (s : State) : Bool := decide ((s.tick.now + 1) % s.stepLen = 0)

/-- Whether a data frame belongs to the next step: with the last stitch of a slot done here, the streams of this step are over, and a
peer's edge into the next step may come before this module's (R62, R289, R309). -/
def State.earlyFrame (s : State) (e : LinkEnd) (pos : Nat) : Bool :=
  s.tick.ticking && s.lastOfSlot && s.tick.done && decide (pos = e.early % 65536)

/-- A data frame takes its place at the receiving end (R281, R303). -/
def State.frameTaken (s : State) (plot port branch : Nat) (early : Bool) : State :=
  let x := s.plot plot
  let e := s.linkEnd plot port true
  let slot := x.arrived % max x.credits 1
  let own := ownEnd x port true
  let e' := if early then { e with early := e.early + 1, earlySlots := e.earlySlots ++ [slot] }
    else { e with frames := e.frames + 1, slots := e.slots ++ [slot] }
  (s.setPlot plot { x with
    arrived := x.arrived + 1, branch := branch,
    held := if own then x.held + 1 else x.held,
    position := if own && !early then x.position + 1 else x.position }).setEnd plot port true
    { e' with used := if own then e'.used else e'.used + 1 }

/-- A step's first stitch: positions and what belongs to the step before return to 0; frames of this step that came before the edge
count from now on (R304). -/
def LinkEnd.nextStep (e : LinkEnd) : LinkEnd := { frames := e.early, used := e.used, slots := e.earlySlots }

/-- A byte of a plot's received stream at a port. -/
def State.streamByte (s : State) (plot port o : Nat) : Byte :=
  s.devByte (frameAt (s.plot plot) ((s.linkEnd plot port true).slots.getD (o / 5120) 0) + o % 5120)

/-! ## Blocks (R90, R255, R260) -/

/-- Residue modulo 255, taken in 0 to 254. -/
def res255 (x : Int) : Nat := (x % 255).toNat

/-- The residue byte of a block (R259). -/
def residueOf (ms : List Int) (e : Nat) : Nat := res255 (ms.sum + e)

/-- The image runs in digest mode (R27). -/
def State.digestMode (s : State) : Bool := (s.img.map fun f => f.header.flags.testBit 1).getD false

/-- The 66 bytes of a block (R90). -/
def blockBytes (b : WireBlock) : List Byte :=
  b.mant.flatMap (fun m => leBytes 2 (BitVec.ofInt 16 m).toNat) ++ leBytes 1 b.exp ++ leBytes 1 b.res

/-- The block that 66 bytes hold. -/
def blockOfBytes (bs : List Byte) : WireBlock :=
  ⟨(List.range 32).map fun i => (BitVec.ofNat 16 (ofLe ((bs.drop (2 * i)).take 2))).toInt, (bs.getD 64 0).toNat, (bs.getD 65 0).toNat⟩

/-- A block of a plot's buffer by number. -/
def State.bufferedBlock (s : State) (plot k : Nat) : WireBlock := blockOfBytes (s.devBytes (plotBase (s.plot plot) + 66 * k) 66)

/-- Put a block into a plot's buffer. -/
def State.landBlock (s : State) (plot k : Nat) (b : WireBlock) : State :=
  let s1 := s.devWrite .scheduled (plotBase (s.plot plot) + 66 * k) (blockBytes b)
  let x := s1.plot plot
  s1.setPlot plot { x with landed := if x.landed.contains k then x.landed else x.landed ++ [k] }

/-- A block leaves a plot's buffer. -/
def State.liftBlock (s : State) (plot k : Nat) : State :=
  let x := s.plot plot
  s.setPlot plot { x with landed := x.landed.filter (· ≠ k) }

/-- A malformed block: a mantissa of −32,768, or a nonzero mantissa under exponent 0. -/
def malformed (b : WireBlock) : Bool :=
  b.mant.any (fun m => decide (m = -32768)) || (decide (b.exp = 0) && b.mant.any fun m => decide (m ≠ 0))

/-- The failure of a block that reaches an adder or an update unit's buffer, as CLO_FAIL_INFO.KIND has it: 5 malformed, 1 residue
(R260, R263). -/
def State.blockFailure (s : State) (b : WireBlock) : Option Nat :=
  if malformed b then some 5
  else if !s.digestMode && decide (b.res ≠ residueOf b.mant b.exp) then some 1
  else none

/-! ## Fatal failures (R262) -/

/-- A fatal failure: first record, event, ledger record, and no further stitch-done report. -/
def State.cloFatal (s : State) (kind port plot : Nat) : State :=
  let s1 := if s.bit Reg.CLO_FAIL_INFO 31 then s
    else (s.setRegN Reg.CLO_FAIL_INFO (kind + 16 * port + 256 * (plot % 2 ^ 18) + 2 ^ 31)).setRegN Reg.CLO_FAIL_TICK
      s.tick.now
  ((s1.event Reg.CLO_EVENT 1).ledgerFatal 3 plot).stopReports

/-! ## Digest mode (R263, R264) -/

/-- The step_id of the running step. -/
def State.stepId (s : State) : Nat := (s.tick.step.map RunStep.stepId).getD 0

/-- The key of a digest state. -/
def digestKey (plot port dir : Nat) : Nat := crossKey plot port * 2 + dir

/-- Where the next record goes: CLO_DLOG_HEAD, brought inside a log that a load has made smaller (DESIGN CHOICE, log 80). -/
def State.dlogHead (s : State) (t : Topo) : Nat :=
  if s.regN Reg.CLO_DLOG_HEAD < t.dlogSize then s.regN Reg.CLO_DLOG_HEAD else 0

/-- Write a record to the digest log, a ring that wraps (R263, R264). -/
def State.digestRecord (s : State) (plot port dir peer : Nat) (d : DigestSt) : State :=
  match s.topo? with
  | none => s
  | some t =>
    let head := s.dlogHead t
    let body := leBytes 8 s.stepId ++ leBytes 8 s.tick.now ++ leBytes 4 plot ++ leBytes 2 peer ++
      leBytes 1 port ++ leBytes 1 dir ++ leBytes 8 d.count ++ leBytes 32 (digest256 d.bytes)
    let s1 := s.devWrite .scheduled (t.dlogBase + 64 * head) body
    let next := (head + 1) % t.dlogSize
    let s2 := s1.setRegN Reg.CLO_DLOG_HEAD next
    if next = 0 then s2.event Reg.CLO_EVENT 4 else s2

/-- Absorb bytes that pass a port; after the last ones of a reduction the digest is written. -/
def State.absorb (s : State) (plot port dir peer : Nat) (bs : List Byte) (last : Bool) : State :=
  if s.digestMode then
    let k := digestKey plot port dir
    let d := storeGet {} s.clo.digests k
    let d' : DigestSt := ⟨d.count + 1, d.bytes ++ bs⟩
    if last then
      ({ s with clo := { s.clo with digests := storeSet {} s.clo.digests k {} } } : State).digestRecord plot port dir peer d'
    else { s with clo := { s.clo with digests := storeSet {} s.clo.digests k d' } }
  else s

/-! ## What the Cloister has to send (R265, R279) -/

/-- A plot's stream at a port. -/
def State.tx (s : State) (plot port : Nat) : TxStream := storeGet {} s.pyu.tx (crossKey plot port)

/-- Replace it. -/
def State.setTx (s : State) (plot port : Nat) (x : TxStream) : State :=
  { s with pyu := { s.pyu with tx := storeSet {} s.pyu.tx (crossKey plot port) x } }

/-- Move the blocks whose turn has come into the stream, counted and absorbed in that order; `peer` is the rank at the other end and
`total` the blocks that the port sends of this reduction. -/
def State.flushBlocks (s : State) (plot port peer total : Nat) : Nat → State
  | 0 => s
  | fuel + 1 =>
    let x := s.tx plot port
    match x.wait.find? fun e => e.1 = x.next with
    | none => s
    | some (k, b) =>
      let last := decide (k + 1 = total)
      let s1 := s.setTx plot port { x with wait := x.wait.filter (fun e => e.1 ≠ k), next := k + 1,
                                           bytes := x.bytes ++ blockBytes b, ended := last }
      State.flushBlocks (((s1.count Reg.CLO_BLOCKS_TX 64 1).bel64 (portCnt port 19) 1).absorb plot port 0 peer (blockBytes b) last)
        plot port peer total fuel

/-- A block for the next position of a ring, at its place `k` in the order of the port (R265, R266). -/
def State.sendBlock (s : State) (g : GReduction) (x : RingShare) (k : Nat) (b : WireBlock) : State :=
  let port := x.ring.send
  let t := s.tx g.plot port
  let total := x.sent.length + (if g.all then x.finalsSent.length else 0)
  let peer := x.ring.ranks.getD ((x.pos + 1) % x.size) 0
  (s.setTx g.plot port { t with wait := t.wait ++ [(k, b)] }).flushBlocks g.plot port peer total (t.wait.length + 1)

/-! ## Class S vectors (R270, R279) -/

/-- The sum of a vector's 16-bit words modulo 255 (R270). -/
def vecRes (v : List DWord) : Nat := res255 ((v.map fun x => ((x.toNat % 65536 + x.toNat / 65536 % 65536 + x.toNat / 2 ^ 32 % 65536 +
  x.toNat / 2 ^ 48) : Nat)).sum : Nat)

/-- The frame of a Class S vector: residue, incomplete mark, number of elements, then the elements (DESIGN CHOICE, log 80). -/
def vecBytes (digest : Bool) (v : SVec) : List Byte :=
  leBytes 1 (if digest then 0 else vecRes v.data) ++ leBytes 1 v.incomplete.toNat ++ leBytes 1 v.data.length ++ leBytes 5 0 ++
    v.data.flatMap fun x => leBytes 8 x.toNat

/-- The vector of a frame, and its residue byte. -/
def vecOfBytes (bs : List Byte) : SVec × Nat :=
  let n := (bs.getD 2 0).toNat
  (⟨(List.range n).map fun i => BitVec.ofNat 64 (ofLe ((bs.drop (8 + 8 * i)).take 8)), decide (bs.getD 1 0 ≠ 0)⟩, (bs.getD 0 0).toNat)

/-- The vectors that this node sends by a port in one reduction: one to each child there, and one to the parent. -/
def State.lastVec (s : State) (t : Topo) (port n : Nat) : Bool :=
  let k := s.vecsAt t port
  decide (0 < k ∧ n % k = k - 1)

/-- A vector to a rank, up or down the rank tree: it takes a frame of its own (R270, R279). -/
def State.sendVec (s : State) (rank plot : Nat) (v : SVec) : State :=
  match s.topo?, s.portOf rank with
  | some t, some p =>
    let x := s.tx plot p
    let e := s.linkEnd plot p false
    let s1 := (s.setTx plot p { x with vecs := x.vecs ++ [vecBytes s.digestMode v] }).setEnd plot p false { e with vecs := e.vecs + 1 }
    s1.absorb plot p 0 rank (v.data.flatMap fun x => leBytes 8 x.toNat) (s.lastVec t p e.vecs)
  | _, _ => s

/-- A vector to each child. -/
def State.sendDown (s : State) (plot : Nat) (v : SVec) : List (Nat × Nat) → State
  | [] => s
  | (c, _) :: cs => State.sendDown (s.sendVec c plot v) plot v cs

/-- The vectors of a plot that have arrived at a port. -/
def State.vecs (s : State) (plot port : Nat) : List SVec := storeGet [] s.clo.vecs (crossKey plot port)

/-- Replace them. -/
def State.setVecs (s : State) (plot port : Nat) (vs : List SVec) : State :=
  { s with clo := { s.clo with vecs := storeSet [] s.clo.vecs (crossKey plot port) vs } }

/-- The rank whose vector is the `i`-th of a reduction at a port: the children there, then the parent. -/
def State.vecRank (s : State) (t : Topo) (port i : Nat) : Nat :=
  (((s.kidsAt t port)[i]?).map Prod.fst).getD (t.treeParent.getD 0)

/-- A Class S vector arrives: checked (R260, R270), absorbed, and kept for its reduction; of one that is over it is discarded and
counted (R271). -/
def State.takeVec (s : State) (plot port : Nat) (bs : List Byte) (early : Bool) : State :=
  match s.topo? with
  | none => s
  | some t =>
    let (v, res) := vecOfBytes bs
    if !s.digestMode && decide (res ≠ vecRes v.data) then s.cloFatal 1 port plot
    else
      let e := s.linkEnd plot port true
      if early then
        { s with clo := { s.clo with early := storeSet [] s.clo.early (crossKey plot port)
                                                (storeGet [] s.clo.early (crossKey plot port) ++ [v]) } }
      else
        let n := s.vecsAt t port
        let s1 := (s.setEnd plot port true { e with vecs := e.vecs + 1 }).absorb plot port 1 (s.vecRank t port (e.vecs % n))
          (v.data.flatMap fun x => leBytes 8 x.toNat) (s.lastVec t port e.vecs)
        if e.vecs / n < (s.sred plot).round then s1.count Reg.CLO_S_DROPS 32 1
        else s1.setVecs plot port (s1.vecs plot port ++ [v])

end Sys2Proof.Machine
end

