-- ==== Sys2Proof/Machine/Elementary.lean ====
section
/-! DEFINITION. The function unit's operations (R175): the exact values to 2^-150 of their size or better, in integer arithmetic, the
FP32 values within the stated error of them, and the special operands. -/

namespace Sys2Proof.Machine

/-! ## Exact values -/

/-- ln 2 · 2^200, rounded down. -/
def ln2Fix : Nat := 1113844574712631719546256151097547306333272293549090750737802

/-- The terms of Σ r^i / i! from `term` on, at 200 fraction bits. -/
def expTerms (r : Nat) : Nat → Nat → Nat → Nat
  | 0, _, _ => 0
  | fuel + 1, k, term => term + expTerms r fuel (k + 1) (term * r / 2 ^ 200 / (k + 1))

/-- e^r for r from 0 to 1, at 200 fraction bits. -/
def expFix (r : Nat) : Nat := expTerms r 64 0 (2 ^ 200)

/-- The terms of Σ y^(2i+1) / (2i+1) from `term` on, at 200 fraction bits. -/
def atanhTerms (y2 : Nat) : Nat → Nat → Nat → Nat
  | 0, _, _ => 0
  | fuel + 1, k, term => term / (2 * k + 1) + atanhTerms y2 fuel (k + 1) (term * y2 / 2 ^ 200)

/-- The integer part and the fraction, at 200 bits, of an integer at 200 fraction bits divided by a positive one. -/
def splitBy (x : Int) (d : Nat) : Int × Nat := (x / d, (x % d).toNat)

/-- A number as an integer at 200 fraction bits; a magnitude of 2^20 or more is taken as 2^20. -/
def fix200 (x : Dy) : Int :=
  if Dy.magLe ⟨false, 1, 20⟩ x then (if x.neg then -(2 ^ 220) else 2 ^ 220)
  else
    let k : Int := if -200 ≤ x.e then (x.m : Int) * 2 ^ (x.e + 200).toNat else (x.m : Int) / 2 ^ (-200 - x.e).toNat
    if x.neg then -k else k

/-- e^x. -/
def expDy (x : Dy) : Dy := let p := splitBy (fix200 x) ln2Fix; ⟨false, expFix p.2, p.1 - 200⟩

/-- 2^x: exact where x is an integer. -/
def exp2Dy (x : Dy) : Dy := let p := splitBy (fix200 x) (2 ^ 200); ⟨false, expFix (p.2 * ln2Fix / 2 ^ 200), p.1 - 200⟩

/-- ln x at 200 fraction bits, x positive. -/
def lnFix (x : Dy) : Int :=
  let lead := Nat.log2 x.m
  let f := x.m * 2 ^ 200 / 2 ^ lead
  let y := (f - 2 ^ 200) * 2 ^ 200 / (f + 2 ^ 200)
  2 * (atanhTerms (y * y / 2 ^ 200) 70 0 y : Nat) + ((lead : Int) + x.e) * ln2Fix

/-- ln x. -/
def lnDy (x : Dy) : Dy := Dy.ofInt (lnFix x) (-200)

/-- log2 x: exact where x is a power of two. -/
def log2Dy (x : Dy) : Dy := Dy.ofInt (lnFix x * 2 ^ 200 / ln2Fix) (-200)

/-- A quotient of positive numbers, to 200 bits beyond the divisor's. -/
def quotDy (x y : Dy) : Dy := let k := 200 + Nat.log2 y.m; ⟨x.neg != y.neg, x.m * 2 ^ k / y.m, x.e - y.e - k⟩

/-- A number of at most 2^20 in size at 200 fraction bits, rounded down. -/
def roundDy (x : Dy) : Dy := Dy.ofInt (fix200 x) (-200)

/-- tanh |x|: x − x³/3 + 2x⁵/15 below 2^-20, else (1 − e^(−2|x|)) / (1 + e^(−2|x|)). -/
def tanhDy (x : Dy) : Dy :=
  if x.m ≠ 0 ∧ (Nat.log2 x.m : Int) + x.e < -20 then
    let a : Dy := ⟨false, x.m, x.e⟩
    let a3 := a.mul (a.mul a)
    (a.add (quotDy ⟨true, a3.m, a3.e⟩ ⟨false, 3, 0⟩)).add (quotDy ((a3.mul (a.mul a)).mul ⟨false, 2, 0⟩) ⟨false, 15, 0⟩)
  else
    let e := roundDy (expDy ⟨true, 2 * x.m, x.e⟩)
    quotDy ((⟨false, 1, 0⟩ : Dy).add ⟨true, e.m, e.e⟩) ((⟨false, 1, 0⟩ : Dy).add e)

/-- 1 / (1 + e^(−x)), as e^x / (1 + e^x) for a negative x. -/
def sigmoidDy (x : Dy) : Dy :=
  let e := expDy ⟨true, x.m, x.e⟩
  let d := (⟨false, 1, 0⟩ : Dy).add (roundDy e)
  if x.neg then quotDy e d else quotDy ⟨false, 1, 0⟩ d

/-- 1 / √x, to 200 bits: exact where x is a power of four. -/
def rsqrtDy (x : Dy) : Dy :=
  let k := 400 + 2 * Nat.log2 x.m
  let odd := x.e % 2
  let n := 2 ^ k / (x.m * 2 ^ odd.toNat)
  ⟨false, isqrt (Nat.log2 n + 2) n, -((x.e - odd) / 2) - k / 2⟩

/-! ## Values within an error bound -/

/-- Exponent of the unit in the last place of a magnitude in FP32. -/
def ulpExp (x : Dy) : Int := max ((Nat.log2 x.m : Int) + x.e - 23) fp32.qmin

/-- The FP32 magnitude codes within `n` units in the last place of a magnitude below 2^128. -/
def nearCodes (x : Dy) (n : Nat) : List Nat :=
  let q := ulpExp x
  let base := (q - fp32.qmin).toNat * 2 ^ 23 + (if x.e < q then x.m / 2 ^ (q - x.e).toNat else x.m * 2 ^ (x.e - q).toNat)
  ((List.range (2 * n + 3)).map fun i => base + i - n - 1).filter fun c =>
    decide (c < fp32.inf) && Dy.magLe ((dyF (BitVec.ofNat 32 c)).add ⟨true, x.m, x.e⟩) ⟨false, n, q⟩

/-- A result within `n` units of the exact magnitude `x`, the free value `v` choosing among those; infinite beyond the range (R175).
It is inexact where it is not the exact value, and tiny below 2^-126. -/
def nearResult (neg : Bool) (x : Dy) (n v : Nat) : FRes :=
  if Dy.magLe ⟨false, 1, 128⟩ x then fp32.infRes neg 20
  else
    let cs := nearCodes x n
    let c := cs.getD (v % cs.length) (fp32.inf - 1)
    let y := dyF (BitVec.ofNat 32 c)
    let exact := y.magLe x && x.magLe y
    ⟨fp32.sign neg + c, if exact then 0 else if c < 2 ^ 23 then 24 else 16⟩

/-! ## The operations -/

/-- Function-unit numbers, for the free choices. -/
def fuCode : FuOp → Nat
  | .rcp => 0 | .rsqrt => 1 | .exp => 2 | .exp2 => 3 | .log => 4 | .log2 => 5 | .tanh => 6 | .sigmoid => 7

/-- A magnitude, its sign cleared. -/
def absDy (x : Dy) : Dy := ⟨false, x.m, x.e⟩

/-- A function-unit operation on FP32 (R175): special operands as the table gives them; any other result lies within the stated error
of the exact value, and which of those it is is a free value. -/
def fuOp (o : FuOp) (a : Nat) : FRes :=
  let v := (Config.fuResult (fuCode o) (BitVec.ofNat 32 a)).toNat
  fp32.nanOr [a] <|
    match o, fp32.dec a with
    | .rcp, .inf n => ⟨fp32.sign n, 0⟩
    | .rcp, .fin x => if x.m = 0 then fp32.infRes x.neg 2 else nearResult x.neg (quotDy ⟨false, 1, 0⟩ (absDy x)) 1 v
    | .rsqrt, .inf n => if n then fp32.invalid else ⟨0, 0⟩
    | .rsqrt, .fin x =>
      if x.m = 0 then fp32.infRes x.neg 2 else if x.neg then fp32.invalid else nearResult false (rsqrtDy x) 1 v
    | .exp, .inf n => if n then ⟨0, 0⟩ else fp32.infRes false 0
    | .exp, .fin x => if x.m = 0 then ⟨0x3F800000, 0⟩ else nearResult false (expDy x) 2 v
    | .exp2, .inf n => if n then ⟨0, 0⟩ else fp32.infRes false 0
    | .exp2, .fin x => if x.m = 0 then ⟨0x3F800000, 0⟩ else nearResult false (exp2Dy x) 2 v
    | .log, .inf n => if n then fp32.invalid else fp32.infRes false 0
    | .log, .fin x =>
      if x.m = 0 then fp32.infRes true 2 else if x.neg then fp32.invalid else if a = 0x3F800000 then ⟨0, 0⟩
      else nearResult (lnDy x).neg (absDy (lnDy x)) 2 v
    | .log2, .inf n => if n then fp32.invalid else fp32.infRes false 0
    | .log2, .fin x =>
      if x.m = 0 then fp32.infRes true 2 else if x.neg then fp32.invalid else if a = 0x3F800000 then ⟨0, 0⟩
      else nearResult (log2Dy x).neg (absDy (log2Dy x)) 2 v
    | .tanh, .inf n => ⟨fp32.sign n + 0x3F800000, 0⟩
    | .tanh, .fin x => if x.m = 0 then ⟨a, 0⟩ else nearResult x.neg (tanhDy x) 2 v
    | .sigmoid, .inf n => ⟨if n then 0 else 0x3F800000, 0⟩
    | .sigmoid, .fin x => nearResult false (sigmoidDy x) 2 v
    | _, .nan => fp32.invalid

end Sys2Proof.Machine
end

