-- ==== Sys2Proof/Machine/Tensors.lean ====
section
/-! DEFINITION. Tensors: their tiles and segments (R106, R107), the copy that is read and the copy that an update writes (R237, R239,
R251), and the place, format and rung of a stored segment (R106, R131). -/

namespace Sys2Proof.Machine

/-! ## Tiles and segments (R106) -/

/-- Tiles side by side. -/
def tilesAcross (te : TensorEntry) : Nat := (te.cols + 63) / 64

/-- Tiles of the tensor. -/
def tileCount (te : TensorEntry) : Nat := (te.rows + 127) / 128 * tilesAcross te

/-- Rows and columns of a tile that lie within the tensor; the rest of the tile is padding. -/
def tileExtent (te : TensorEntry) (t : Nat) : Nat × Nat :=
  (min 128 (te.rows - 128 * (t / tilesAcross te)), min 64 (te.cols - 64 * (t % tilesAcross te)))

/-- Tiles of a segment; the last one of a tensor may be shorter. -/
def segTileCount (te : TensorEntry) (seg : Nat) : Nat := min te.segTiles (tileCount te - seg * te.segTiles)

/-- The extents of a segment's tiles. -/
def segExtents (te : TensorEntry) (seg : Nat) : List (Nat × Nat) :=
  (List.range (segTileCount te seg)).map fun i => tileExtent te (seg * te.segTiles + i)

/-- Whether index `i` of a segment lies within the tensor. -/
def inTensor (extents : List (Nat × Nat)) (i : Nat) : Bool :=
  let e := extents.getD (i / 8192) (0, 0)
  decide (i % 8192 / 64 < e.1 ∧ i % 64 < e.2)

/-- Elements without padding (N of R126). -/
def elemCount (extents : List (Nat × Nat)) : Nat := (extents.map fun e => e.1 * e.2).sum

/-- Stored positions: from index 0 to the last element within the tensor (R107). -/
def storedCount (extents : List (Nat × Nat)) : Nat :=
  match extents.getLast? with
  | some e => (extents.length - 1) * 8192 + (e.1 - 1) * 64 + e.2
  | none => 0

/-- Stored blocks: those whose lowest index is stored. -/
def storedBlocks (axisRows : Bool) (block count tiles : Nat) : Nat :=
  ((List.range (tiles * (8192 / block))).filter fun b => elemOf axisRows block b 0 < count).length

/-- The position of an element in the tensor's storage order: tile by tile, row by row within a tile. -/
def orderOf (te : TensorEntry) (row col : Nat) : Nat :=
  (row / 128 * tilesAcross te + col / 64) * 8192 + row % 128 * 64 + col % 64

/-- Row and column of a position in the storage order. -/
def placeOf (te : TensorEntry) (i : Nat) : Nat × Nat :=
  (i / 8192 / tilesAcross te * 128 + i % 8192 / 64, i / 8192 % tilesAcross te * 64 + i % 64)

/-- The eyelet budget of `n` elements, padding among them (R110). -/
def eyeletBudget (fc : FormatClass) (n : Nat) : Nat := if fc.budgetShift = 0 then 0 else n / 2 ^ fc.budgetShift

/-- Where a segment's header lies from the first: each header is followed by the room of a full segment's eyelet list (R108,
R110; DEDUCED, log 76). -/
def headerOffset (te : TensorEntry) (fc : FormatClass) (seg : Nat) : Nat :=
  seg * (16 + 8 * eyeletBudget fc (8192 * te.segTiles))

/-! ## Copies (R237, R239, R251) -/

/-- Whether the current copy of a group's preconditioners is copy A: q is even (R251). -/
def currentIsA (epoch group period : Nat) : Bool := (epoch + period - 1 - group) / period % 2 = 0

/-- The rule 2 block that names a tensor as its statistic or its root (R237). -/
def preBlockOf (u : UpdateSection) (t : Nat) : Option PreBlock := u.blocks.find? fun b => b.stat = t ∨ b.root = t

/-- The update section of the held image. -/
def State.updSec? (s : State) : Option UpdateSection := s.sections?.map Sections.update

/-- Whether a tensor is read in its B copy: never a frozen one, a preconditioner's by its group, a slab tensor's in slab B when that
is current (R237). -/
def State.readsB (s : State) (t : Nat) (te : TensorEntry) : Bool :=
  if te.frozen then false
  else
    match s.updSec?.bind fun u => (preBlockOf u t).map fun b => currentIsA s.upd.epoch b.group u.period with
    | some a => !a
    | none => s.upd.slabB

/-- The address of a tensor's copy: the one that is read, or the other one, which update writes go to (R239). A single-copy tensor's
two addresses are equal. -/
def State.copyBase (s : State) (t : Nat) (te : TensorEntry) (update : Bool) : Nat :=
  let a := te.slabA.getD 0
  if te.frozen then a else if s.readsB t te != update then te.slabB.getD a else a

/-- Where a segment's bytes lie. The headers of the B copy lie as far from its address as those of the A copy (DESIGN CHOICE,
log 76). -/
def State.segDest (s : State) (t seg : Nat) (update : Bool) : SegPlace → SegDest
  | .near d => d
  | .tensor elems scales =>
    match s.tensor? t, s.classFor t with
    | some te, some fc =>
      let b := s.copyBase t te update
      ⟨b + elems, b + scales, te.headers + b - te.slabA.getD 0 + headerOffset te fc seg⟩
    | _, _ => ⟨elems, scales, 0⟩

/-! ## Stored segments -/

/-- The key of a segment. -/
def segKey (tensor segment : Nat) : Nat := tensor * 2 ^ 32 + segment

/-- The rung at which a segment was last written (R131). -/
def State.rungOf (s : State) (t seg : Nat) : Nat := storeGet 0 s.seg.rungs (segKey t seg)

/-- Record the rung of a segment as it is written. -/
def State.setRung (s : State) (t seg rung : Nat) : State :=
  { s with seg := { s.seg with rungs := storeSet 0 s.seg.rungs (segKey t seg) rung } }

/-- A stored segment as a reader takes it: format, place, elements, block size and axis, and the subnormal mode bit of its class for
this format (R99). -/
structure SegRef where
  fmt : Fmt
  dest : SegDest
  count : Nat
  block : Nat
  axisRows : Bool
  flush : Bool
deriving DecidableEq, Repr

/-- A segment of a tensor at a rung of its class, at a place. -/
def State.segRef (s : State) (t seg rung : Nat) (update : Bool) (p : SegPlace) : SegRef :=
  match s.tensor? t, s.classFor t with
  | some te, some fc =>
    let f := fc.ladder.getD rung .bf16
    ⟨f, s.segDest t seg update p, storedCount (segExtents te seg), te.block, te.axisRows, fc.flush.contains f⟩
  | _, _ => ⟨.bf16, s.segDest t seg update p, 0, 32, false, false⟩

/-- The rung that a consumer takes: the one recorded, or the branch number that came with the segment (R131). -/
def State.viewRung (s : State) (v : View) : Nat :=
  match v.plot with
  | some p => (storeGet {} s.stl.plots p).branch
  | none => s.rungOf v.tensor v.segment

/-- The segment that a view reads: the consumer's branch of its rung (R131). -/
def State.viewRef (s : State) (v : View) : SegRef :=
  let rung := s.viewRung v
  s.segRef v.tensor v.segment rung false ((v.places[rung]?).getD (v.places.getLast?.getD (.near ⟨0, 0, 0⟩)))

/-- The block size of a tensor. -/
def State.blockSize (s : State) (tensor : Nat) : Nat := ((s.tensor? tensor).map TensorEntry.block).getD 32

end Sys2Proof.Machine
end

