-- ==== Sys2Proof/Machine/Convert.lean ====
section
/-! DEFINITION. Reading a stored segment (R84 to R86, R106 to R109), surveying blocks (R111, R112), and setting and
encoding a segment (R114 to R118, R93 to R101), with the totals each conversion adds to FMT and QNT. -/

namespace Sys2Proof.Machine

/-! ## Totals -/

/-- What conversions and reads add to the FMT and QNT blocks: counts and sticky bits (R104, R124). -/
structure Tally where
  sat : Nat := 0
  flush : Nat := 0
  orphan : Nat := 0
  zeroed : Nat := 0
  fmt : DWord := 0
  qnt : DWord := 0
  zeroBlocks : Nat := 0
  dominant : Nat := 0
  outliers : Nat := 0
  specials : Nat := 0
  draws : Nat := 0
deriving DecidableEq, Repr

/-- The sum of two totals. -/
def Tally.add (a b : Tally) : Tally :=
  { sat := a.sat + b.sat, flush := a.flush + b.flush, orphan := a.orphan + b.orphan, zeroed := a.zeroed + b.zeroed,
    fmt := a.fmt ||| b.fmt, qnt := a.qnt ||| b.qnt, zeroBlocks := a.zeroBlocks + b.zeroBlocks,
    dominant := a.dominant + b.dominant, outliers := a.outliers + b.outliers, specials := a.specials + b.specials,
    draws := a.draws + b.draws }

/-- The sum of a list of totals. -/
def Tally.sum (ts : List Tally) : Tally := ts.foldl Tally.add {}

/-- Add totals to the registers of FMT and QNT. -/
def State.tally (s : State) (t : Tally) : State :=
  (((((((((s.count Reg.FMT_SAT_COUNT 64 t.sat).count Reg.FMT_FLUSH_COUNT 64 t.flush).count
    Reg.FMT_ORPHAN_COUNT 32 t.orphan).orReg Reg.FMT_STICKY t.fmt).orReg Reg.QNT_STICKY t.qnt).count
    Reg.QNT_ZERO_BLOCK_COUNT 64 t.zeroBlocks).count Reg.QNT_DOMINANT_COUNT 64 t.dominant).count
    Reg.QNT_EYELET_OUTLIER 64 t.outliers).count Reg.QNT_EYELET_SPECIAL 32 t.specials)

/-- What one encoding adds: saturation by target width, infinity under overflow mode 1, flush, draw (R94, R95, R99). -/
def encTally (f : Fmt) (e : Enc) : Tally :=
  { sat := e.sat.toNat + e.inf.toNat, flush := e.flush.toNat, draws := e.drew.toNat,
    fmt := (if e.flush then 1 else 0) ||| (if e.sat then (if scaledFmt f then 2 else 4) else 0) |||
      (if e.inf then 8 else 0) }

/-- A nonzero finite value whose 16-bit result is a zero of either sign counts as zeroed (R100 names no target;
DEDUCED). -/
def zeroedTally (w : Word) (code : Nat) : Tally :=
  if finF w ∧ magF w ≠ 0 ∧ code % 32768 = 0 then { zeroed := 1 } else {}

/-! ## Reading a stored segment -/

/-- A segment header (R108). -/
structure SegHead where
  scale : Word
  count : Nat
  hint : Int
deriving DecidableEq, Repr

/-- Read a header. -/
def State.segHead (s : State) (a : Nat) : SegHead :=
  { scale := BitVec.ofNat 32 (s.opNat a 4), count := s.opNat (a + 4) 4 % 2 ^ 21,
    hint := (BitVec.ofNat 8 (s.opNat (a + 7) 1)).toInt }

/-- The eyelets of a list that a reader uses: the first entry of each index below the segment's element count
(R109). -/
def firstEyelets (total : Nat) : List (Nat × Word) → List (Nat × Word)
  | [] => []
  | (i, v) :: es => if i < total then (i, v) :: (firstEyelets total es).filter (fun e => e.1 ≠ i) else firstEyelets total es

/-- The raw entries of an eyelet list. -/
def State.eyeletList (s : State) (a count : Nat) : List (Nat × Word) :=
  (List.range count).map fun k => (s.opNat (a + 16 + 8 * k) 3, BitVec.ofNat 32 (s.opNat (a + 20 + 8 * k) 4))

/-- A segment as a reader opens it: its scale, its eyelets, and whether an entry named an index beyond it. -/
structure OpenSeg where
  scale : Dy
  eyelets : List (Nat × Word)
  bad : Bool
deriving DecidableEq, Repr

/-- Open a segment; a 16-bit segment has no scales and no eyelets. -/
def State.openSeg (s : State) (r : SegRef) : OpenSeg :=
  if scaledFmt r.fmt then
    let h := s.segHead r.dest.header
    let raw := s.eyeletList r.dest.header h.count
    { scale := dyF h.scale, eyelets := firstEyelets r.count raw, bad := raw.any fun e => decide (r.count ≤ e.1) }
  else { scale := ⟨false, 1, 0⟩, eyelets := [], bad := false }

/-- The element code stored at index `i` of packed elements (R107). -/
def State.codeAt (s : State) (f : Fmt) (elems i : Nat) : Nat :=
  let b := i * fmtBits f
  s.opNat (elems + b / 8) 2 / 2 ^ (b % 8) % 2 ^ fmtBits f

/-- One element as a reader meets it: the stored value, its scale, the eyelet that gives its value, its FP32 value when
the format has no scales; and what the read counts (R84 to R86, R99). An index after the segment's last stored element is not
tested: whatever bytes lie at its place are decoded (DESIGN CHOICE, log 76). -/
def State.cellAt (s : State) (r : SegRef) (o : OpenSeg) (i : Nat) : Cell × Tally :=
  let c := s.codeAt r.fmt r.dest.elems i
  if scaledFmt r.fmt then
    let sc := s.opNat (r.dest.scales + blockOf r.axisRows r.block i) 1
    let k := (scaleValue sc).mul o.scale
    if sc = 0 then (⟨0, 0, 0, 0, none, none⟩, {})
    else
      match o.eyelets.find? fun e => e.1 = i with
      | some e => (⟨0, 0, k.m, k.e, some e, none⟩, {})
      | none =>
        if c = escapeCode r.fmt then (⟨0, 0, k.m, k.e, some (i, 0x7FC00000), none⟩, { orphan := 1, fmt := 32 })
        else if r.flush && subnormalCode r.fmt (c % 2 ^ (fmtBits r.fmt - 1)) then
          (⟨0, 0, k.m, k.e, none, none⟩, { flush := 1, fmt := 1 })
        else
          let x := elemValue r.fmt c
          (⟨if x.neg then -x.m else x.m, x.e, k.m, k.e, none, none⟩, {})
  else if r.flush && subnormalCode r.fmt (c % 32768) then
    (⟨0, 0, 1, 0, none, some (if c < 32768 then 0 else 0x80000000)⟩, { flush := 1, fmt := 1 })
  else (⟨0, 0, 1, 0, none, some (decode16 r.fmt c)⟩, {})

/-- The exact value of a cell's element times its scales. -/
def Cell.exact (c : Cell) : Dy := (Dy.ofInt c.val c.exp).mul ⟨false, c.sm, c.se⟩

/-- The FP32 value a cell decodes to (R86), and whether the decode saturated. -/
def Cell.decode (c : Cell) : Word × Tally :=
  match c.ey with
  | some e => (e.2, {})
  | none =>
    match c.wide with
    | some w => (w, {})
    | none => (decodeValue c.exact, if decodeOverflows c.exact then { fmt := 64 } else {})

/-! ## Surveys (R111, R112) -/

/-- The survey of one block: magnitudes, positions, finite nonzero elements, the first specials. Where no element of a kind is
recorded, its position stays 0: no rule states what POS1, POS2 and SPEC hold there (DESIGN CHOICE, log 76). -/
structure Survey where
  m1 : Word := 0
  m2 : Word := 0
  m3 : Word := 0
  p1 : Nat := 0
  p2 : Nat := 0
  nonzero : Nat := 0
  specs : List Nat := []
deriving DecidableEq, Repr

/-- Take one element into a survey; elements come in ascending position, so equal magnitudes rank by the lower. -/
def Survey.take (v : Survey) (p : Nat) (w : Word) : Survey :=
  let m := magF w
  if !finF w then { v with specs := if v.specs.length < 3 then v.specs ++ [p] else v.specs }
  else if m = 0 then v
  else
    let v' : Survey := { v with nonzero := v.nonzero + 1 }
    if v.m1.toNat < m.toNat then { v' with m1 := m, p1 := p, m2 := v.m1, p2 := v.p1, m3 := v.m2 }
    else if v.m2.toNat < m.toNat then { v' with m2 := m, p2 := p, m3 := v.m2 }
    else if v.m3.toNat < m.toNat then { v' with m3 := m }
    else v'

/-- Survey a block's elements from position `p` upward. -/
def surveyFrom (v : Survey) (p : Nat) : List Word → Survey
  | [] => v
  | w :: ws => surveyFrom (v.take p w) (p + 1) ws

/-- The survey of a block. -/
def surveyOf (ws : List Word) : Survey := surveyFrom {} 0 ws

/-- The 24 bytes of a survey, its counters 0 (R112). -/
def Survey.bytes (v : Survey) : List Byte :=
  leBytes 4 v.m1.toNat ++ leBytes 4 v.m2.toNat ++ leBytes 4 v.m3.toNat ++
  leBytes 4 (v.p1 + 32 * v.p2 + 2 ^ 10 * v.nonzero + 2 ^ 16 * v.specs.length + 2 ^ 18 * v.specs.getD 0 0 +
    2 ^ 23 * v.specs.getD 1 0) ++
  leBytes 4 (v.specs.getD 2 0) ++ leBytes 4 0

/-- Read a survey back. -/
def State.surveyAt (s : State) (a : Nat) : Survey :=
  let w := s.opNat (a + 12) 4
  { m1 := BitVec.ofNat 32 (s.opNat a 4), m2 := BitVec.ofNat 32 (s.opNat (a + 4) 4),
    m3 := BitVec.ofNat 32 (s.opNat (a + 8) 4), p1 := bits w 4 0, p2 := bits w 9 5, nonzero := bits w 15 10,
    specs := [bits w 22 18, bits w 27 23, s.opNat (a + 16) 1 % 32].take (bits w 17 16) }

/-! ## Setting a segment (R114 to R116, R118) -/

/-- How the blocks and eyelets of a segment are set. -/
structure SegRule where
  fmt : Fmt
  axisRows : Bool
  block : Nat
  escapeShift : Nat
  budget : Nat
  ovfInf : Bool
  flush : Bool
deriving DecidableEq, Repr

/-- Whether magnitude `a` is at least 2^q times magnitude `b`, both FP32 and finite. -/
def atLeast (q : Nat) (a b : Word) : Bool := ((dyF b).mul ⟨false, 1, q⟩).magLe (dyF a)

/-- The candidates of a block by position, the larger first (R114 step 2). -/
def candidates (q : Nat) (v : Survey) : List Nat :=
  if v.m2 ≠ 0 ∧ atLeast q v.m1 v.m2 then
    if v.m3 ≠ 0 ∧ atLeast q v.m2 v.m3 then [v.p1, v.p2] else [v.p1]
  else []

/-- The specials of a segment that may take eyelets, in ascending order of index: at most two of each block. -/
def specialsOf (axisRows : Bool) (block : Nat) (vs : List Survey) : List (Nat × Nat) :=
  (vs.zipIdx.flatMap fun e => (e.1.specs.take 2).map fun p => (elemOf axisRows block e.2 p, e.2)).insertionSort
    fun a b => a.1 ≤ b.1

/-- Eyelets given so far: their index, their block, and whether they are special. -/
abbrev Taken := List (Nat × Nat × Bool)

/-- Give an eyelet to an element while its block and its segment have room (R110, R114). -/
def giveEyelet (budget : Nat) (t : Taken) (index block : Nat) (special : Bool) : Taken :=
  if t.length < budget ∧ (t.filter fun e => e.2.1 = block).length < 2 then t ++ [(index, block, special)] else t

/-- Steps 1 to 3 of R114: specials in order of index, then candidates block by block. -/
def eyeletsFor (r : SegRule) (vs : List Survey) : Taken :=
  let t := (specialsOf r.axisRows r.block vs).foldl (fun t e => giveEyelet r.budget t e.1 e.2 true) []
  vs.zipIdx.foldl (fun t e => (candidates r.escapeShift e.1).foldl
    (fun t p => giveEyelet r.budget t (elemOf r.axisRows r.block e.2 p) e.2 false) t) t

/-- One block's setting: its scale code, the largest magnitude left to the code, the remaining candidate of a dominant
block (R116). -/
structure BlockSet where
  m : Word
  remaining : Option Nat
deriving DecidableEq, Repr

/-- The magnitude a block's scale must cover, and its remaining candidate: candidates that found an eyelet leave the next
magnitude. -/
def blockSet (r : SegRule) (t : Taken) (b : Nat) (v : Survey) : BlockSet :=
  let has (p : Nat) : Bool := t.any fun e => e.1 = elemOf r.axisRows r.block b p && !e.2.2
  { m := if v.m1 ≠ 0 ∧ has v.p1 then (if has v.p2 then v.m3 else v.m2) else v.m1,
    remaining := (candidates r.escapeShift v).find? fun p => !has p }

/-- The segment's M (R114 step 5). -/
def segMax (bs : List BlockSet) : Word := bs.foldl (fun a b => if a.toNat < b.m.toNat then b.m else a) 0

/-- Step 5 of R114: HINT, segment scale, and whether c was raised. -/
def segScale (f : Fmt) (m : Word) : Int × Dy × Bool :=
  if m = 0 then (-128, ⟨false, 1, 0⟩, false)
  else
    let c := scaleExp (maxOf f) (dyF m)
    (max c (-118), ⟨false, 1, max c (-118) - 8⟩, decide (c < -118))

/-- A block's IS8 code (R115): 0 for a block of zeros; 255 with the flag when no code covers it (R118). -/
def blockCode (f : Fmt) (scale : Dy) (v : Survey) (m : Word) : Nat × Bool :=
  if v.nonzero = 0 ∧ v.specs = [] then (0, false)
  else
    match scaleCode (maxOf f) scale (dyF m) with
    | some c => (c, false)
    | none => (255, true)

/-- One element's encoding result: its code, what it counts, the generator after it. -/
structure ElemOut where
  code : Nat
  tally : Tally := {}
  gen : Option DWord := none
deriving DecidableEq, Repr

/-- Encode a value divided by its unit (R114 step 7): a quotient beyond FP32 is out of range. -/
def encodeScaled (r : SegRule) (w unit : Word) (gen : Option DWord) : ElemOut :=
  let q := divF w unit
  if finF q then
    let (e, g) := encodeFin r.fmt (dyF q) r.ovfInf r.flush gen
    ⟨e.code, (encTally r.fmt e).add (if magF w ≠ 0 ∧ e.code = 0 then { zeroed := 1 } else {}), g⟩
  else
    let e : Enc := { code := signCode r.fmt (w.msb) (maxCode r.fmt), sat := true }
    ⟨e.code, encTally r.fmt e, gen⟩

/-- Encode one element of a scaled segment: `sc` its block's code, `rem` the index of a dominant block's remaining
candidate. -/
def encodeElem (r : SegRule) (t : Taken) (scale : Dy) (sc : Nat) (rem : Option Nat) (i : Nat) (w : Word)
    (gen : Option DWord) : ElemOut :=
  if sc = 0 then ⟨0, {}, gen⟩
  else if t.any fun e => e.1 = i then ⟨escapeCode r.fmt, {}, gen⟩
  else if !finF w then ⟨escapeCode r.fmt, { orphan := 1, fmt := 128 }, gen⟩
  else
    match rem with
    | some j => if i = j then encodeScaled r w (roundF ((scaleValue sc).mul scale)) gen
        else ⟨0, if magF w = 0 then {} else { zeroed := 1 }, gen⟩
    | none => encodeScaled r w (roundF ((scaleValue sc).mul scale)) gen

/-- A converted segment: codes of the stored positions in index order, one scale byte per stored block, eyelets in
ascending order, the header's scale and HINT, BUDGET_OUT, the block counters, the generator, the totals, and the elements that
overflow mode 1 made infinite (R95). -/
structure Converted where
  fmt : Fmt
  codes : List Nat
  scales : List Nat
  eyelets : List (Nat × Word × Bool)
  scale : Word
  hint : Int
  budgetOut : Bool
  sats : Counts
  zeros : Counts
  gen : Option DWord
  tally : Tally
  madeInf : List Nat
deriving DecidableEq, Repr

/-- The running part of an encoding. -/
structure EncRun where
  codes : List Nat := []
  sats : Counts := []
  zeros : Counts := []
  gen : Option DWord
  tally : Tally := {}
  madeInf : List Nat := []
deriving DecidableEq, Repr

/-- Add one element's result to the running encoding; padding is stored as code 0 and counts nothing. -/
def EncRun.push (a : EncRun) (i b : Nat) (o : ElemOut) : EncRun :=
  { codes := a.codes ++ [o.code],
    sats := if o.tally.sat = 0 then a.sats else storeSet 0 a.sats b (storeGet 0 a.sats b + o.tally.sat),
    zeros := if o.tally.zeroed = 0 then a.zeros else storeSet 0 a.zeros b (storeGet 0 a.zeros b + o.tally.zeroed),
    gen := o.gen, tally := a.tally.add o.tally,
    madeInf := if o.tally.fmt &&& 8 ≠ 0 then a.madeInf ++ [i] else a.madeInf }

/-- Encode the stored positions of a segment in index order: the value is none at a padding position. -/
def encodeAll (enc : Nat → Word → Option DWord → ElemOut) (blk : Nat → Nat) (a : EncRun) (i : Nat) :
    List (Option Word) → EncRun
  | [] => a
  | none :: vs => encodeAll enc blk { a with codes := a.codes ++ [0] } (i + 1) vs
  | some w :: vs => encodeAll enc blk (a.push i (blk i) (enc i w a.gen)) (i + 1) vs

/-- Convert a surveyed segment to a scaled format with a given segment scale (R114 steps 6 to 8; R118 gives its own
scale). `vs` holds the stored blocks' surveys. -/
def convertScaled (r : SegRule) (vs : List Survey) (given : Option Dy) (vals : List (Option Word))
    (gen : Option DWord) : Converted :=
  let t := eyeletsFor r vs
  let bs := vs.zipIdx.map fun e => blockSet r t e.2 e.1
  let (hint, own, raised) := segScale r.fmt (segMax bs)
  let scale := given.getD own
  let codes := (vs.zip bs).map fun e => blockCode r.fmt scale e.1 e.2.m
  let run := encodeAll (fun i w g =>
      let b := blockOf r.axisRows r.block i
      encodeElem r t scale ((codes.getD b (0, false)).1)
        (((bs[b]?).bind BlockSet.remaining).map (elemOf r.axisRows r.block b)) i w g)
    (blockOf r.axisRows r.block) { gen := gen } 0 vals
  let out := t.insertionSort fun a b => a.1 ≤ b.1
  let dom := (bs.filter fun b => b.remaining.isSome).length
  { fmt := r.fmt, codes := run.codes, scales := codes.map Prod.fst,
    eyelets := out.map fun e => (e.1, ((vals.getD e.1 none).getD 0), e.2.2),
    scale := roundF scale, hint := hint, budgetOut := decide (0 < dom), sats := run.sats, zeros := run.zeros,
    gen := run.gen, madeInf := [],
    tally := run.tally.add
      { zeroBlocks := (codes.filter fun c => c.1 = 0).length, dominant := dom,
        outliers := (t.filter fun e => !e.2.2).length, specials := (t.filter fun e => e.2.2).length,
        qnt := (if raised && given.isNone then 1 else 0) ||| (if codes.any Prod.snd then 2 else 0) ||| (if 0 < dom then 16 else 0) } }

/-- Convert a segment to a 16-bit rung (R108, R128): no scales and no eyelets. -/
def convertWide (r : SegRule) (vals : List (Option Word)) (gen : Option DWord) : Converted :=
  let run := encodeAll (fun _ w g =>
      let (e, g') := encode16 r.fmt w r.ovfInf r.flush g
      ⟨e.code, (encTally r.fmt e).add (zeroedTally w e.code), g'⟩)
    (blockOf r.axisRows r.block) { gen := gen } 0 vals
  { fmt := r.fmt, codes := run.codes, scales := [], eyelets := [], scale := 0x3F800000, hint := -128,
    budgetOut := false, sats := run.sats, zeros := run.zeros, gen := run.gen, tally := run.tally,
    madeInf := run.madeInf }

/-! ## Writing a converted segment (R107 to R109) -/

/-- A list of codes packed little-endian at `n` bits each. -/
def packCodes (n : Nat) : List Nat → Nat
  | [] => 0
  | c :: cs => c + 2 ^ n * packCodes n cs

/-- The bytes of packed codes. -/
def codeBytes (f : Fmt) (cs : List Nat) : List Byte :=
  leBytes ((cs.length * fmtBits f + 7) / 8) (packCodes (fmtBits f) cs)

/-- The 16 bytes of a header (R108). -/
def headBytes (scale : Word) (count : Nat) (hint : Int) (budgetOut : Bool) (nf : Option Nat) : List Byte :=
  leBytes 4 scale.toNat ++ leBytes 3 count ++ [BitVec.ofInt 8 hint] ++
  leBytes 4 (nf.getD 0 + 2 ^ 30 * budgetOut.toNat + 2 ^ 31 * nf.isSome.toNat) ++ leBytes 4 0

/-- The 8 bytes of an eyelet (R109). -/
def eyeletBytes (update : Bool) (e : Nat × Word × Bool) : List Byte :=
  leBytes 4 (e.1 + 2 ^ 24 * e.2.2.toNat + 2 ^ 25 * (!e.2.2).toNat + 2 ^ 26 * update.toNat) ++ leBytes 4 e.2.1.toNat

/-- Write a converted segment: elements, block scales, header and eyelet list. -/
def State.writeSegment (s : State) (d : SegDest) (c : Converted) (nf : Option Nat) (update : Bool) : State :=
  let s1 := s.devWrite .scheduled d.elems (codeBytes c.fmt c.codes)
  let s2 := s1.devWrite .scheduled d.scales (c.scales.map (BitVec.ofNat 8))
  s2.devWrite .scheduled d.header (headBytes c.scale c.eyelets.length c.hint c.budgetOut nf ++
    c.eyelets.flatMap (eyeletBytes update))

/-- Count one conversion in the QNT totals (R124, R129); the first segment with BUDGET_OUT is recorded. -/
def State.countConversion (s : State) (c : Converted) (tensor segment : Nat) (update : Bool) : State :=
  let s1 := (s.tally c.tally).count Reg.QNT_SEG_COUNT 64 1
  if c.budgetOut then
    let s2 := s1.count Reg.QNT_BUDGET_OUT_COUNT 32 1
    if s2.bit Reg.QNT_OUT_TENSOR 31 then s2
    else ((s2.setRegN Reg.QNT_OUT_TENSOR (tensor % 65536 + 65536 * update.toNat + 2 ^ 31)).setRegN
      Reg.QNT_OUT_SEGMENT (segment % 2 ^ 32)).setRegN Reg.QNT_OUT_TICK s.tick.now
  else s1

end Sys2Proof.Machine
end

