-- ==== Sys2Proof/Machine/Records.lean ====
section
/-! DEFINITION. Token records: how a row of a tensor travels, how a feeder reads it, and how the results of a token's choices are
combined (R293 to R296). -/

namespace Sys2Proof.Machine

/-! ## Layout (R295) -/

/-- Bytes of a row's elements. -/
def rowBytes (f : Fmt) (cols : Nat) : Nat := (cols * fmtBits f + 7) / 8

/-- Block scales of a row. -/
def rowScales (block cols : Nat) : Nat := (cols + block - 1) / block

/-- Where a record's fixed fields end and its eyelets begin. -/
def recordHead (f : Fmt) (block cols : Nat) : Nat := rowBytes f cols + rowScales block cols + 8

/-- Bytes of a record: those of a 16-bit format are the row's elements alone. -/
def recordBytes (f : Fmt) (block cols limit : Nat) : Nat :=
  if scaledFmt f then (recordHead f block cols + 8 * limit + 7) / 8 * 8 else rowBytes f cols

/-! ## Reading (R295, R150) -/

/-- A record as a segment of one row. -/
def recordRef (r : SegRef) (v : RecordView) (row : Nat) : SegRef :=
  let a := v.address + row * v.bytes
  { r with dest := ⟨a, a + rowBytes r.fmt v.cols, a + rowBytes r.fmt v.cols + rowScales r.block v.cols⟩,
           count := v.cols, axisRows := false }

/-- A record as a reader opens it: its own scale and eyelets, each indexed by its position in the row. -/
def State.openRecord (s : State) (r : SegRef) : OpenSeg :=
  if scaledFmt r.fmt then
    let a := r.dest.header
    let raw := (List.range (s.opNat (a + 4) 2)).map fun k => (s.opNat (a + 8 + 8 * k) 3, BitVec.ofNat 32 (s.opNat (a + 12 + 8 * k) 4))
    { scale := dyF (BitVec.ofNat 32 (s.opNat a 4)), eyelets := firstEyelets r.count raw, bad := raw.any fun e => decide (r.count ≤ e.1) }
  else { scale := ⟨false, 1, 0⟩, eyelets := [], bad := false }

/-- Element `i` of consecutive records. -/
def State.recordCell (s : State) (r : SegRef) (v : RecordView) (i : Nat) : Cell × Tally :=
  let x := recordRef r v (i / v.cols)
  s.cellAt x (s.openRecord x) (i % v.cols)

/-- Element `i` of what a view names: of its segment, or of its token records. -/
def State.viewCell (s : State) (v : View) (ref : SegRef) (o : OpenSeg) (i : Nat) : Cell × Tally :=
  match v.records with
  | some x => s.recordCell ref x i
  | none => s.cellAt ref o i

/-- The scale that a feeder takes for the row that holds element `i`: a record's own, or the segment's (R295). -/
def State.viewScale (s : State) (v : View) (i : Nat) : Dy :=
  match v.records with
  | some x => (s.openRecord (recordRef (s.viewRef v) x (i / x.cols))).scale
  | none => (s.openSeg (s.viewRef v)).scale

/-- An eyelet entry of what a view names lies beyond its elements (R109). -/
def State.viewBad (s : State) (v : View) (idx : List Nat) : Bool :=
  match v.records with
  | some x => ((idx.map (· / x.cols)).dedup).any fun r => (s.openRecord (recordRef (s.viewRef v) x r)).bad
  | none => (s.openSeg (s.viewRef v)).bad

/-! ## Building a record (R131, R295) -/

/-- Where a row of a stored tensor lies: the segment of its first element, which holds the whole row (DEDUCED, log 81), and the index
of element `col` in it. -/
def rowSegment (te : TensorEntry) (row : Nat) : Nat := orderOf te row 0 / (8192 * te.segTiles)

/-- The index of an element of a row in its segment. -/
def rowIndex (te : TensorEntry) (row col : Nat) : Nat := orderOf te row col % (8192 * te.segTiles)

/-- An eyelet of a row: its position, its value, whether it is a special. -/
structure RowEyelet where
  col : Nat
  value : Word
  special : Bool
deriving DecidableEq, Repr

/-- The eyelets of a row, in ascending order of position. -/
def State.rowEyelets (s : State) (te : TensorEntry) (r : SegRef) (row : Nat) : List RowEyelet :=
  let n := (s.segHead r.dest.header).count
  let es := (List.range n).map fun k =>
    (s.opNat (r.dest.header + 16 + 8 * k) 3, BitVec.ofNat 32 (s.opNat (r.dest.header + 20 + 8 * k) 4),
      decide (s.opNat (r.dest.header + 19 + 8 * k) 1 % 2 = 1))
  (List.range te.cols).filterMap fun c => (es.find? fun e => e.1 = rowIndex te row c).map fun e => ⟨c, e.2.1, e.2.2⟩

/-- The eyelets that a record keeps, specials first and then outliers, and those it leaves out. -/
def splitEyelets (limit : Nat) (es : List RowEyelet) : List RowEyelet × List RowEyelet :=
  let xs := es.filter RowEyelet.special ++ es.filter fun e => !e.special
  (xs.take limit, xs.drop limit)

/-- The code of the largest value of a sign. -/
def largestCode (f : Fmt) (neg : Bool) : Nat := signCode f neg (maxCode f)

/-- The bytes of a record: a row of a tensor whose segment lies where `r` says (R295). -/
def State.tokenRecord (s : State) (te : TensorEntry) (r : SegRef) (row limit : Nat) : List Byte :=
  let codes := (List.range te.cols).map fun c => s.codeAt r.fmt r.dest.elems (rowIndex te row c)
  if scaledFmt r.fmt then
    let (kept, cut) := splitEyelets limit (s.rowEyelets te r row)
    let codes' := codes.zipIdx.map fun x =>
      match cut.find? fun e => e.col = x.2 ∧ e.special = false with
      | some e => largestCode r.fmt e.value.msb
      | none => x.1
    let scales := (List.range (rowScales te.block te.cols)).map fun b =>
      s.opByte (r.dest.scales + blockOf r.axisRows te.block (rowIndex te row (b * te.block)))
    padTo (recordBytes r.fmt te.block te.cols limit)
      (codeBytes r.fmt codes' ++ scales ++ leBytes 4 (s.segHead r.dest.header).scale.toNat ++ leBytes 2 kept.length ++ leBytes 2 0 ++
        kept.flatMap fun e => eyeletBytes false (e.col, e.value, e.special))
  else codeBytes r.fmt codes

/-! ## Route lists and slot tables (R293) -/

/-- The slot entry of a pair without a slot. -/
def noSlot : Nat := 0xFFFFFFFF

/-- The expert index of a pair: token `i`, choice `j` of `k` (an INT32 index, then an FP32 gate weight; DESIGN CHOICE, log 81). -/
def State.routeExpert (s : State) (routes k i j : Nat) : Word := BitVec.ofNat 32 (s.opNat (routes + 8 * (i * k + j)) 4)

/-- Its gate weight. -/
def State.routeGate (s : State) (routes k i j : Nat) : Word := BitVec.ofNat 32 (s.opNat (routes + 8 * (i * k + j) + 4) 4)

/-- The slot of a pair in a slot table. -/
def State.slotOf (s : State) (table k i j : Nat) : Nat := s.opNat (table + 4 * (i * k + j)) 4

/-- The token that fills a slot of an expert. -/
def State.tokenAt (s : State) (routes table tokens k x slot : Nat) : Option Nat :=
  ((List.range (tokens * k)).find? fun p =>
    decide ((s.routeExpert routes k (p / k) (p % k)).toNat = x ∧ s.slotOf table k (p / k) (p % k) = slot)).map (· / k)

/-! ## Combining results (R294, R296) -/

/-- The exchange stream of the EXPERT section. -/
def State.exchangeStream (s : State) (n : Nat) : Option ExchangeStream := s.sections?.bind fun x => x.streams[n]?

/-- One element of a token's combined output: over its choices in ascending order, from +0, the result times its gate weight is added,
each rounded to FP32 (DESIGN CHOICE, log 81); a dropped pair adds zero (R294). -/
def State.combined (s : State) (c : ExpertCombine) (k : Nat) (ref : SegRef) (i col : Nat) : Word :=
  (List.range k).foldl (fun acc j =>
    let slot := s.slotOf c.table k i j
    if slot = noSlot then acc
    else
      let x := (s.routeExpert c.routes k i j).toNat
      let r := recordRef ref { c.record with address := c.inputs.getD x 0 } slot
      let w := (s.cellAt r (s.openRecord r) col).1.decode.1
      addF acc (if c.gated then mulF (s.routeGate c.routes k i j) w else w)) 0

/-- What the reads of a combination count. -/
def State.combineTally (s : State) (c : ExpertCombine) (k : Nat) (ref : SegRef) : Tally :=
  Tally.sum ((List.range (c.tokens * k)).flatMap fun p =>
    let slot := s.slotOf c.table k (p / k) (p % k)
    if slot = noSlot then []
    else
      let r := recordRef ref { c.record with address := c.inputs.getD (s.routeExpert c.routes k (p / k) (p % k)).toNat 0 } slot
      let o := s.openRecord r
      { qnt := if o.bad then 4 else 0 : Tally } :: (List.range c.record.cols).map fun col =>
        let x := s.cellAt r o col
        x.2.add x.1.decode.2)

/-- Combine the results of a stream's tokens into rows of FP32 (R296). -/
def State.combineExperts (s : State) (c : ExpertCombine) : State :=
  match s.exchangeStream c.stream with
  | none => s
  | some e =>
    let k := e.choices
    let ref := s.segRef c.tensor 0 (storeGet {} s.stl.plots c.plot).branch false (.near ⟨0, 0, 0⟩)
    ((List.range c.tokens).foldl (fun a i => a.devWrite .scheduled (c.output + 4 * i * c.record.cols)
      ((List.range c.record.cols).flatMap fun col => leBytes 4 (s.combined c k ref i col).toNat)) s).tally (s.combineTally c k ref)

end Sys2Proof.Machine
end

