-- ==== Sys2Proof/Machine/Matrix.lean ====
section
/-! DEFINITION. Matrix engines: loads, held and gathered passes, gathered drain, the matrix-vector path, self-test and
clear (R119 to R122, R146 to R164). -/

namespace Sys2Proof.Machine

/-! ## Cells -/

/-- A cell of zero. -/
def zeroCell : Cell := ⟨0, 0, 0, 0, none, none⟩

/-- The value of a cell without an eyelet's, as FP32: what an eyelet of the other operand multiplies. -/
def Cell.plain (c : Cell) : Word :=
  match c.wide with
  | some w => w
  | none => roundF c.exact

/-- Carry a cell into the format of the product: a scaled element that meets a 16-bit operand becomes BF16, without
counting (R148). -/
def widenCell (fmt : Fmt) (c : Cell) : Cell :=
  if scaledFmt fmt then c
  else
    match c.wide with
    | some _ => c
    | none => { c with wide := some (decode16 .bf16 (encode16 .bf16 (decodeValue c.exact) false false none).1.code) }

/-- What carrying cells into the format of the product counts: only the decode of R86 that meets a 16-bit operand. -/
def widenTally (fmt : Fmt) (cs : List (List (Cell × Tally))) : Tally :=
  if scaledFmt fmt then {} else Tally.sum (cs.flatten.map fun c => c.1.decode.2)

/-- Element (r, c) of a view. -/
def viewIndex (v : View) (r c : Nat) : Nat := v.base + r * v.rs + c * v.cs

/-- Read an `m` by `n` part of a view, with what the reads count. -/
def State.cells (s : State) (v : View) (m n : Nat) : List (List (Cell × Tally)) :=
  let ref := s.viewRef v
  let o := s.openSeg ref
  (List.range m).map fun r => (List.range n).map fun c => s.viewCell v ref o (viewIndex v r c)

/-- What a list of reads counts, with BAD_INDEX of its segment or of a token record among them (R109). -/
def State.readTally (s : State) (v : View) (cs : List (List (Cell × Tally))) : Tally :=
  let idx := cs.zipIdx.flatMap fun r => (List.range r.1.length).map fun c => viewIndex v r.2 c
  (Tally.sum (cs.flatten.map Prod.snd)).add { qnt := if s.viewBad v idx then 4 else 0 }

/-- Cycles and promotions of a requester at its core's scratchpad ports (R207). -/
def State.portShare (s : State) (core lost promoted : Nat) : State :=
  (s.count Reg.TRL_SPAD_PROMOTE 64 promoted).bel64 (coreCnt core 27) lost

/-! ## The format of a product (R147, R148) -/

/-- How wide a format's cells are. -/
def widthRank : Fmt → Nat
  | .if4 | .ii4 => 0 | .if6 => 1 | .if8 => 2 | .bf16 | .fp16 => 3

/-- The format in which a product of two stored formats runs: the wider one; IF8 where II4 meets IF6, BF16 where a scaled operand
meets a 16-bit one (R148). -/
def joinFmt (a b : Fmt) : Fmt :=
  if (a = .ii4 ∧ b = .if6) ∨ (a = .if6 ∧ b = .ii4) then .if8
  else if (scaledFmt a && !scaledFmt b) || (!scaledFmt a && scaledFmt b) then .bf16
  else if widthRank a < widthRank b then b else a

/-- The held depth of a format along the reduction axis (R147). -/
def heldDepth (f : Fmt) : Nat := if widthRank f = 0 then 128 else if widthRank f = 3 then 32 else 64

/-! ## Re-encoding in feeders and loaders (R120, R151) -/

/-- The rule of a class at a rung for a segment of `count` elements, padding among them (R95, R99, R110). -/
def segRule (fc : FormatClass) (f : Fmt) (axisRows : Bool) (block count : Nat) : SegRule :=
  { fmt := f, axisRows := axisRows, block := block, escapeShift := fc.escapeShift, budget := eyeletBudget fc count,
    ovfInf := fc.overflowInf, flush := fc.flush.contains f }

/-- The rule by which a feeder writes an operand of a tensor in a format: its class's bits, no eyelets (R120). -/
def State.feedRule (s : State) (tensor : Nat) (f : Fmt) : SegRule :=
  match s.classFor tensor with
  | some fc => { segRule fc f false (s.blockSize tensor) 0 with budget := 0 }
  | none => ⟨f, false, 32, 4, 0, false, false⟩

/-- Cut a list into pieces of `n`. -/
def chunksOf (n : Nat) : Nat → List Word → List (List Word)
  | 0, _ => []
  | fuel + 1, ws =>
    match ws with
    | [] => []
    | _ :: _ => ws.take n :: chunksOf n fuel (ws.drop n)

/-- One butterfly layer of the Hadamard transform in Sylvester order: pairs at distance `h`, FP32 additions. -/
def butterfly (h : Nat) (ws : List Word) : List Word :=
  (List.range ws.length).map fun i =>
    if i / h % 2 = 0 then addF (ws.getD i 0) (ws.getD (i + h) 0) else subF (ws.getD (i - h) 0) (ws.getD i 0)

/-- The transform of size 2^k. -/
def hadamard : Nat → List Word → List Word
  | 0, ws => ws
  | k + 1, ws => butterfly (2 ^ k) (hadamard k ws)

/-- A window after sign flip and transform (R120 steps 2 and 3). -/
def rotateWindow (r : Rotation) (ws : List Word) : List Word :=
  hadamard (Nat.log2 r.n) (ws.zipIdx.map fun e => if r.sign.getLsbD e.2 then negF e.1 else e.1)

/-- One re-encoded element of a scaled block: a value that is not finite becomes an escape without an eyelet (R101). -/
def feedElem (r : SegRule) (k : Dy) (i : Nat) (w : Word) : Cell × Tally :=
  if finF w then
    let o := encodeScaled r w (roundF k) none
    let x := elemValue r.fmt o.code
    (⟨if x.neg then -x.m else x.m, x.e, k.m, k.e, none, none⟩, o.tally)
  else (⟨0, 0, k.m, k.e, some (i, 0x7FC00000), none⟩, { orphan := 1, fmt := 128 })

/-- A re-encoded block from element `i` on: its cells, and what each element counts; a block taken as 0x00 is counted with its first
element (R115, R123). -/
def encodeBlock (r : SegRule) (scale : Dy) (i : Nat) (ws : List Word) : List (Cell × Tally) :=
  if scaledFmt r.fmt then
    let v := surveyOf ws
    let sc := (blockCode r.fmt scale v v.m1).1
    let k := (scaleValue sc).mul scale
    ws.zipIdx.map fun e =>
      if sc = 0 then (zeroCell, { zeroBlocks := if e.2 = 0 then 1 else 0 }) else feedElem r k (i + e.2) e.1
  else
    ws.map fun w =>
      let e := (encode16 r.fmt w r.ovfInf r.flush none).1
      (⟨0, 0, 1, 0, none, some (decode16 r.fmt e.code)⟩, (encTally r.fmt e).add (zeroedTally w e.code))

/-- Re-encode consecutive blocks from element `i` on. -/
def encodeBlocks (r : SegRule) (scale : Dy) (i : Nat) : List (List Word) → List (Cell × Tally)
  | [] => []
  | b :: bs => encodeBlock r scale i b ++ encodeBlocks r scale (i + b.length) bs

/-- One window of a feeder (R120, R121): fed as +0 when it holds a value that is not finite. Its blocks have the class's size; a
window of 16 elements under a block size of 32 is one block (DESIGN CHOICE, log 15). -/
def feedWindow (r : SegRule) (scale : Dy) (rot : Rotation) (i : Nat) (w : List Word) : List (Cell × Tally) :=
  if w.any fun x => !finF x then w.map fun _ => (zeroCell, {})
  else encodeBlocks r (scale.mul ⟨false, rot.n, 0⟩) i (chunksOf r.block (rot.n + 1) (rotateWindow rot w))

/-- The windows of a feeder, from element `i` on. -/
def feedWindows (r : SegRule) (scale : Dy) (rot : Rotation) (i : Nat) : List (List Word) → List (Cell × Tally)
  | [] => []
  | w :: ws => feedWindow r scale rot i w ++ feedWindows r scale rot (i + rot.n) ws

/-- The windows that cover `depth` reduction elements from `first`: where the first one begins, and how many there are. -/
def windowSpan (rot : Rotation) (first depth : Nat) : Nat × Nat :=
  let lo := first / rot.n * rot.n
  (lo, (first + depth - lo + rot.n - 1) / rot.n)

/-- A rotated run along the reduction axis: of the windows over `ws`, which begin at element `lo`, the `depth` elements from `first`;
how many windows begin among them; whether a window was not finite (R120, R121). -/
def rotateRun (r : SegRule) (scale : Dy) (rot : Rotation) (lo first depth : Nat) (ws : List Word) :
    List (Cell × Tally) × Nat × Bool :=
  let wins := chunksOf rot.n (ws.length + 1) ws
  let begun := (List.range wins.length).filter fun k => first ≤ lo + k * rot.n
  (((feedWindows r scale rot lo wins).drop (first - lo)).take depth, begun.length, ws.any fun x => !finF x)

/-- Key of the count charged by feeders to a block of an output segment: zeroed (1) or saturated (0) (R121, R125). -/
def chargeKey (tensor segment block kind : Nat) : Nat := ((tensor * 2 ^ 32 + segment) * 65536 + block) * 2 + kind

/-- Charge one element's counts. -/
def State.charge (s : State) (tensor segment block kind n : Nat) : State :=
  if n = 0 then s
  else
    let k := chargeKey tensor segment block kind
    { s with seg := { s.seg with charges := storeSet 0 s.seg.charges k (storeGet 0 s.seg.charges k + n) } }

/-- Charge a run of elements along the reduction axis to the output blocks of the same index, modulo the block size. -/
def State.chargeRun (s : State) (tensor segment block : Nat) : Nat → List Tally → State
  | _, [] => s
  | i, t :: ts =>
    State.chargeRun ((s.charge tensor segment (i % block) 0 t.sat).charge tensor segment (i % block) 1 t.zeroed)
      tensor segment block (i + 1) ts

/-- Charge several runs, each from the same element on. -/
def State.chargeRuns (s : State) (tensor segment block first : Nat) : List (List Tally) → State
  | [] => s
  | r :: rs => State.chargeRuns (s.chargeRun tensor segment block first r) tensor segment block first rs

/-- Rows become columns. -/
def flipCells {α : Type} (d : α) (n : Nat) (cs : List (List α)) : List (List α) :=
  (List.range n).map fun j => cs.map fun row => row.getD j d

/-- A feeder's rotation of runs along the reduction axis, each with the scale of its operand: cells, counts by run, windows, a window not finite. -/
def rotateRuns (r : SegRule) (rot : Rotation) (lo first depth : Nat) (runs : List (Dy × List Word)) :
    List (List (Cell × Tally)) × Nat × Bool :=
  let outs := runs.map fun x => rotateRun r x.1 rot lo first depth x.2
  (outs.map fun o => o.1, (outs.map fun o => o.2.1).sum, outs.any fun o => o.2.2)

/-- The ROTATE entry that a marked product runs under: that of its held operand's class; none leaves it unrotated (R119). -/
def State.rotationFor (s : State) (marked : Bool) (tensor : Nat) : Option Rotation :=
  if marked then
    (s.tensor? tensor).bind fun te => (s.sections?.bind fun x => x.rotate.find? fun e => e.cls = te.cls).map fun e => ⟨e.n, e.sign⟩
  else none

/-- Count the windows of a rotation and set ROT_NONFINITE (R121). -/
def State.countWindows (s : State) (core n : Nat) (bad : Bool) : State :=
  ((s.count Reg.QNT_ROT_WINDOWS 64 n).bel64 (coreCnt core 30) n).orReg Reg.QNT_STICKY (if bad then 8 else 0)

/-! ## Held loads (R151) -/

/-- The engine's core. -/
def engineCore (e : Fin 512) : Nat := e.val / 4

/-- The bank in use on an engine. -/
def State.bankOf (s : State) (e : Nat) : Nat := storeGet 0 s.me.bank e

/-- A bank that nothing has been loaded into. -/
def emptyBlock : HeldBlock := ⟨.if4, 0, 0, 0, [], none, false⟩

/-- The free word that a self-test left at place `k` of a store; 0 when none has run (R163). -/
def fillWord (seed k : Nat) : Word := if seed = 0 then 0 else (Config.freeBits (2 ^ 128 + 2 ^ 64 * seed + k)).setWidth 32

/-- A cell of free value. -/
def freeCell (seed k : Nat) : Cell := ⟨(fillWord seed k).toNat % 16, 0, (fillWord seed k).toNat / 16 % 32, -11, none, none⟩

/-- The block of a bank that a self-test wrote. -/
def freeBlock (seed bank : Nat) : HeldBlock :=
  ⟨.if4, 128, 0, 128, (List.range 128).map fun r => (List.range 64).map fun c => freeCell seed (bank * 8192 + r * 64 + c), none, false⟩

/-- The block that a bank holds. -/
def State.heldBlock (s : State) (k : Nat) : HeldBlock :=
  let b := storeGet emptyBlock s.me.banks k
  if b = emptyBlock ∧ s.me.bankSeed ≠ 0 then freeBlock s.me.bankSeed k else b

/-- Write a held block into the idle bank. -/
def State.setIdle (s : State) (e : Nat) (b : HeldBlock) : State :=
  let k := 2 * e + (1 - s.bankOf e)
  { s with me := { s.me with banks := storeSet emptyBlock s.me.banks k b } }

/-! ### The weight of a layer at its rung (R37, R132) -/

/-- Rungs above the stored copy at which a weight operand runs: one in a raised group, one in an instance that takes its layer
resole (DEDUCED, log 77). -/
def State.weightRung (s : State) (rungs : Nat) (w : WeightUse) : Nat :=
  let raised := (s.sections?.bind fun x => (x.layerGroups.find? fun e => e.1 = w.layer).map fun g =>
    (maskOf x ((s.tick.step.map RunStep.variant).getD 0)).getLsbD g.2).getD false
  min (rungs - 1) (raised.toNat + (storeGet {} s.seg.layers w.inst).resoled.toNat)

/-- A value of the BF16 master in its current slab, by the position of the weight's element in storage order. -/
def State.masterValue (s : State) (master i : Nat) : Word × Tally :=
  match s.tensor? master, s.classFor master with
  | some te, some fc =>
    let c := s.opNat (s.copyBase master te false + 2 * i) 2
    if fc.flush.contains .bf16 && subnormalCode .bf16 (c % 32768) then (if c < 32768 then 0 else 0x80000000, { flush := 1, fmt := 1 })
    else (decode16 .bf16 c, {})
  | _, _ => (0, {})

/-- The elements of a weight's segment as the master gives them, by index; padding is +0. -/
def State.masterElem (s : State) (te : TensorEntry) (seg master i : Nat) : Word × Tally :=
  if inTensor (segExtents te seg) i then s.masterValue master (seg * te.segTiles * 8192 + i) else (0, {})

/-- A block of such a segment. -/
def State.masterBlock (s : State) (te : TensorEntry) (seg master b : Nat) : List Word :=
  (List.range te.block).map fun p => (s.masterElem te seg master (elemOf te.axisRows te.block b p)).1

/-- The segment scale of a conversion from the master: R114 step 5 over the whole segment (DEDUCED, log 77). -/
def State.masterScale (s : State) (te : TensorEntry) (seg master : Nat) (f : Fmt) : Dy :=
  let ext := segExtents te seg
  let blocks := storedBlocks te.axisRows te.block (storedCount ext) ext.length
  let m := ((List.range blocks).map fun b => (surveyOf (s.masterBlock te seg master b)).m1).foldl
    (fun a x => if a.toNat < x.toNat then x else a) 0
  (segScale f m).2.1

/-- The cell of element `i` of a segment converted from the master at a rung (R132): its block's scale by R115, no eyelets, rounded
to nearest even (DEDUCED, log 77). -/
def State.masterCell (s : State) (te : TensorEntry) (v : View) (master : Nat) (f : Fmt) (scale : Dy) (i : Nat) : Cell × Tally :=
  let r := s.feedRule v.tensor f
  let x := s.masterElem te v.segment master i
  if scaledFmt f then
    let y := surveyOf (s.masterBlock te v.segment master (blockOf te.axisRows te.block i))
    let sc := (blockCode f scale y y.m1).1
    let e := if sc = 0 then (zeroCell, {}) else feedElem r ((scaleValue sc).mul scale) i x.1
    (e.1, x.2.add e.2)
  else
    let e := (encode16 f x.1 false r.flush none).1
    (⟨0, 0, 1, 0, none, some (decode16 f e.code)⟩, x.2.add (encTally f e))

/-- The master and the format from which the loader forms a weight operand; none where the stored copy is read. -/
def State.masterOf (s : State) (op : HeldLoad) : Option (Nat × Fmt) :=
  match op.weight, s.classFor op.view.tensor with
  | some w, some fc =>
    let rung := s.weightRung fc.ladder.length w
    if rung = 0 then none else some (w.master, fc.ladder.getD rung .bf16)
  | _, _ => none

/-- The format of the held operand as it is loaded. -/
def State.heldFmt (s : State) (op : HeldLoad) : Fmt := ((s.masterOf op).map Prod.snd).getD (s.viewRef op.view).fmt

/-- The operand's own segment scale (R120, R151). -/
def State.heldScale (s : State) (op : HeldLoad) : Dy :=
  match s.masterOf op, s.tensor? op.view.tensor with
  | some (master, f), some te => if scaledFmt f then s.masterScale te op.view.segment master f else ⟨false, 1, 0⟩
  | _, _ => s.viewScale op.view op.view.base

/-- `n` reduction elements of the held operand from `lo`, by 64 columns; past the reduction's end they are +0. -/
def State.heldCells (s : State) (op : HeldLoad) (lo n : Nat) : List (List (Cell × Tally)) :=
  let ref := s.viewRef op.view
  let o := s.openSeg ref
  let read := match s.masterOf op, s.tensor? op.view.tensor with
    | some (master, f), some te => s.masterCell te op.view master f (s.heldScale op)
    | _, _ => s.viewCell op.view ref o
  (List.range n).map fun r => (List.range 64).map fun c =>
    if lo + r < op.length then read (viewIndex op.view (lo + r) c) else (zeroCell, {})

/-- What the reads of a load count. -/
def State.loadTally (s : State) (op : HeldLoad) (cs : List (List (Cell × Tally))) : Tally :=
  if (s.masterOf op).isSome then Tally.sum (cs.flatten.map Prod.snd) else s.readTally op.view cs

/-- Re-encode one column of a load across the block axis: eyelets become code 0 and stay eyelets. -/
def acrossColumn (r : SegRule) (scale : Dy) (first : Nat) (col : List (Cell × Tally)) : List (Cell × Tally) :=
  if scaledFmt r.fmt then
    let ws := col.map fun c => if c.1.ey.isSome then (0 : Word) else c.1.decode.1
    let out := encodeBlocks r scale first (chunksOf r.block (ws.length + 1) ws)
    (out.zip col).map fun p => ({ p.1.1 with ey := p.2.1.ey }, { p.1.2 with zeroBlocks := 0 })
  else col.map fun c => (c.1, {})

/-- Mark that a rotated window of an output tile was not finite: the segment's tile half is flagged when it drains. -/
def State.flagHalf (s : State) (key : Nat) (bad : Bool) : State :=
  if bad then { s with me := { s.me with flagged := storeSet 0 s.me.flagged key 1 } } else s

/-- A load along the block axis: elements and block scales as stored, carried into the product's format. -/
def State.loadAlong (s : State) (op : HeldLoad) (fmt : Fmt) (depth : Nat) : State :=
  let cs := s.heldCells op op.first depth
  (s.tally ((s.loadTally op cs).add (widenTally fmt cs))).setIdle op.engine
    ⟨fmt, op.length, op.first, depth, cs.map (fun r => r.map fun c => widenCell fmt c.1), none, false⟩

/-- A load across the block axis. -/
def State.loadAcross (s : State) (op : HeldLoad) (fmt : Fmt) (depth : Nat) : State :=
  let cs := s.heldCells op op.first depth
  let r := s.feedRule op.view.tensor (s.heldFmt op)
  let cols := (flipCells (zeroCell, ({} : Tally)) 64 cs).map (acrossColumn r (s.heldScale op) op.first)
  let decodes := Tally.sum (cs.flatten.map fun c => c.1.decode.2)
  let enc := Tally.sum (cols.flatten.map Prod.snd)
  let s1 := (s.tally ((s.loadTally op cs).add (decodes.add enc))).bel64 (coreCnt (engineCore op.engine) 29) 1
  (s1.chargeRuns op.tensor op.segment (s.blockSize op.tensor) op.first (cols.map fun c => c.map Prod.snd)).setIdle op.engine
    ⟨fmt, op.length, op.first, depth, flipCells zeroCell depth (cols.map fun c => c.map fun x => widenCell fmt x.1), none, false⟩

/-- A rotated load: the windows that cover the block are rotated, and the block takes its own elements of them. -/
def State.loadRotated (s : State) (op : HeldLoad) (fmt : Fmt) (depth : Nat) (rot : Rotation) : State :=
  let (lo, wins) := windowSpan rot op.first depth
  let cs := s.heldCells op lo (wins * rot.n)
  let own := s.heldCells op op.first depth
  let (cols, n, bad) := rotateRuns (s.feedRule op.view.tensor fmt) rot lo op.first depth
    ((flipCells (zeroCell, ({} : Tally)) 64 cs).map fun run => (s.heldScale op, run.map fun c => c.1.decode.1))
  let decodes := Tally.sum (own.flatten.map fun c => c.1.decode.2)
  let enc := Tally.sum (cols.flatten.map Prod.snd)
  let s1 := (s.tally ((s.loadTally op own).add (decodes.add enc))).countWindows (engineCore op.engine) n bad
  (s1.chargeRuns op.tensor op.segment (s.blockSize op.tensor) op.first (cols.map fun c => c.map Prod.snd)).setIdle op.engine
    ⟨fmt, op.length, op.first, depth, flipCells zeroCell depth (cols.map fun c => c.map Prod.fst), some rot, bad⟩

/-- HELD_BLOCK_LOAD (R147, R151): the loader writes the idle bank with as many reduction elements as the product's format holds; the
last window of a rotated reduction is filled (R120). -/
def execHeldBlockLoad (op : HeldLoad) (s : State) : Host.Outcome State Fault Refusal :=
  let fmt := joinFmt (s.heldFmt op) op.partner
  let s1 := match s.rotationFor op.marked op.view.tensor with
    | some rot => s.loadRotated op fmt (min (heldDepth fmt) ((op.length + rot.n - 1) / rot.n * rot.n - op.first)) rot
    | none =>
      let depth := min (heldDepth fmt) (op.length - op.first)
      if op.across then s.loadAcross op fmt depth else s.loadAlong op fmt depth
  .next (s1.portShare (engineCore op.engine) op.lost op.promoted)

/-! ## Products (R150, R152, R154) -/

/-- The value of one group of up to 16 products (R150 steps 2 and 3). -/
def groupValue (fmt : Fmt) (ps : List (Cell × Cell)) : Word :=
  if scaledFmt fmt then
    roundF (ps.foldl (fun a p => a.add (p.1.exact.mul p.2.exact)) Dy.zero)
  else
    ps.foldl (fun a p => addF a (mulF (if p.1.ey.isSome then 0 else p.1.plain) (if p.2.ey.isSome then 0 else p.2.plain))) 0

/-- Cut a list of pairs into groups of 16. -/
def groups16 : Nat → List (Cell × Cell) → List (List (Cell × Cell))
  | 0, _ => []
  | fuel + 1, ps =>
    match ps with
    | [] => []
    | _ :: _ => ps.take 16 :: groups16 fuel (ps.drop 16)

/-- The array's sum over a run of the reduction axis (R150 step 4). -/
def runSum (fmt : Fmt) (ps : List (Cell × Cell)) : Word :=
  (groups16 (ps.length + 1) ps).foldl (fun a g => addF a (groupValue fmt g)) 0

/-- A finite FP32 value plus an exact product, rounded once; NaN and infinity stay. -/
def accExact (acc : Word) (x : Dy) : Word :=
  match fp32.dec acc.toNat with
  | .fin a => BitVec.ofNat 32 (fp32.sum a x).bits
  | _ => addF acc 0

/-- acc + a·b, rounded once. -/
def fmaF (a b acc : Word) : Word := BitVec.ofNat 32 (fp32.fma a.toNat b.toNat acc.toNat).bits

/-- ±1 or 0: what the sign of a cell's exact value makes of an infinity or a NaN that multiplies it. -/
def signF (x : Dy) : Word := if x.m = 0 then 0 else if x.neg then 0xBF800000 else 0x3F800000

/-- What an eyelet multiplies: another eyelet, a 16-bit operand's value, or a scaled element. -/
inductive Factor where
  | word (w : Word)
  | exact (x : Dy)
deriving DecidableEq, Repr

/-- The factor a cell is to an eyelet of the other operand, without its own eyelet. -/
def Cell.factor (c : Cell) : Factor :=
  match c.wide with
  | some w => .word w
  | none => .exact c.exact

/-- One eyelet's exact contribution, added and rounded (R154). -/
def corrTerm (acc ey : Word) : Factor → Word
  | .word w => fmaF ey w acc
  | .exact x => if finF ey then accExact acc ((dyF ey).mul x) else fmaF ey (signF x) acc

/-- The eyelet contributions to one output: index, eyelet value, the factor it multiplies. A product of two eyelets is
counted once, with the streamed one. Eyelets of the two operands with the same index are taken in the order of their reduction
position (DESIGN CHOICE, log 14). -/
def eyeletTerms (ps : List (Cell × Cell)) : List (Nat × Word × Factor) :=
  (ps.flatMap fun p =>
    (match p.1.ey with
      | some e => [(e.1, e.2, match p.2.ey with | some e' => .word e'.2 | none => p.2.factor)]
      | none => []) ++
    (match p.2.ey, p.1.ey with
      | some e, none => [(e.1, e.2, p.1.factor)]
      | _, _ => []))
    |>.insertionSort fun a b => a.1 ≤ b.1

/-- The corrector: each contribution is added exactly and rounded, in ascending order of index (R154). -/
def correct (acc : Word) (ts : List (Nat × Word × Factor)) : Word := ts.foldl (fun a t => corrTerm a t.2.1 t.2.2) acc

/-- One output of a held pass: the array's sum, then the corrector. -/
def heldOutput (fmt : Fmt) (old : Word) (ps : List (Cell × Cell)) : Word :=
  correct (addF old (runSum fmt ps)) (eyeletTerms ps)

/-- One output of a gathered pass (R152, R154). -/
def gatheredOutput (fmt : Fmt) (old : Word) (ps : List (Cell × Cell)) : Word :=
  let acc :=
    if scaledFmt fmt then ps.foldl (fun a p => accExact a (p.1.exact.mul p.2.exact)) old
    else ps.foldl (fun a p => fmaF (if p.1.ey.isSome then 0 else p.1.plain) (if p.2.ey.isSome then 0 else p.2.plain) a) old
  correct acc (eyeletTerms ps)

/-- Eyelets in a block of cells. -/
def eyeletCount (cs : List (List Cell)) : Nat := (cs.flatten.filter fun c => c.ey.isSome).length

/-- Key of an element of a drain tile half. -/
def tileKey (e : Nat) (half : Bool) (r c : Nat) : Nat := e * 16384 + half.toNat * 8192 + r * 64 + c

/-- Key of a cell accumulator. -/
def accKey (e r c : Nat) : Nat := e * 8192 + r * 64 + c

/-- Update a block of a store: `rows` by `cols` from key `k`, each element from its old value; `seed` numbers the free values that
stand under the store. -/
def updateTile (seed : Nat) (m : Words) (k rows cols : Nat) (f : Nat → Nat → Word → Word) : Words :=
  (List.range rows).foldl (fun m r => (List.range cols).foldl
    (fun m c =>
      let j := k + r * 64 + c
      storeSet 0 m j (f r c (storeGet 0 m j ^^^ fillWord seed j) ^^^ fillWord seed j)) m) m

/-- The word that a store holds at `k`, over the free values of a self-test. -/
def tileWord (seed : Nat) (m : Words) (k : Nat) : Word := storeGet 0 m k ^^^ fillWord seed k

/-- Set `n` words of a store to +0. -/
def clearRange (seed : Nat) (m : Words) (k n : Nat) : Words :=
  if seed = 0 then storeDrop m fun j => k ≤ j && j < k + n
  else (List.range n).foldl (fun m i => storeSet 0 m (k + i) (fillWord seed (k + i))) m

/-- What a pass counts: its mode's counters, the cycles it occupied the array, stalls and lag (R155 to R157, R164, R408). -/
def State.countPass (s : State) (e : Fin 512) (gathered : Bool) (occupied stallRow stallCol stallCorr lag eyelets : Nat) : State :=
  let core := engineCore e
  let s1 := (((s.count (bankKey Reg.ME_PASSES e) 64 1).count (bankKey Reg.ME_STALL_ROW e) 64 stallRow).count
    (bankKey Reg.ME_STALL_COL e) 64 stallCol).count (bankKey Reg.ME_STALL_CORR e) 64 stallCorr
  let s2 := s1.maxReg (bankKey Reg.ME_LAG_MAX e) (min lag 65535)
  let s3 := (((s2.bel64 (coreCnt core ((if gathered then 4 else 0) + e.val % 4)) 1).bel64 (coreCnt core (8 + e.val % 4)) occupied).bel64
    (coreCnt core (12 + e.val % 4)) (stallRow + stallCol + stallCorr)).bel64 (coreCnt core 16) eyelets
  if 8 < lag then s3.event Reg.ME_EVENT 2 else s3

/-- The streamed rows of a held pass against a block, rotated when the block's product is (R119, R120): cells with what each counts,
windows, a window not finite. -/
def State.streamRows (s : State) (op : HeldPass) (held : HeldBlock) : List (List (Cell × Tally)) × Nat × Bool :=
  let row := fun (lo n : Nat) => (s.cells { op.view with base := op.view.base + lo * op.view.cs } op.rows n).map fun r =>
    r.zipIdx.map fun e => if lo + e.2 < held.length then e.1 else (zeroCell, {})
  match held.rot with
  | none => ((row held.first held.depth).map fun r => r.map fun c => (widenCell held.fmt c.1, c.2), 0, false)
  | some rot =>
    let (lo, wins) := windowSpan rot held.first held.depth
    rotateRuns (s.feedRule op.view.tensor held.fmt) rot lo held.first held.depth
      ((row lo (wins * rot.n)).zipIdx.map fun r => (s.viewScale op.view (viewIndex op.view r.2 0), r.1.map fun c => c.1.decode.1))

/-- The streamed elements that lie within the reduction, as they are read. -/
def State.streamReads (s : State) (op : HeldPass) (held : HeldBlock) : List (List (Cell × Tally)) :=
  s.cells { op.view with base := op.view.base + held.first * op.view.cs } op.rows (min held.depth (held.length - held.first))

/-- HELD_PASS (R149, R150, R154): rows stream past the held block and add into half of the drain tile buffer. -/
def execHeldPass (op : HeldPass) (s : State) : Host.Outcome State Fault Refusal :=
  let e := op.engine.val
  let s0 : State := if op.swapBank then
      { s with me := { s.me with bank := storeSet 0 s.me.bank e (1 - s.bankOf e) } } else s
  let held := s0.heldBlock (2 * e + s0.bankOf e)
  let (rows, windows, bad) := s0.streamRows op held
  let reads := s0.streamReads op held
  let counts := if held.rot.isSome then
      (s0.readTally op.view reads).add ((Tally.sum (reads.flatten.map fun c => c.1.decode.2)).add
        (Tally.sum (rows.flatten.map Prod.snd)))
    else (s0.readTally op.view reads).add (widenTally held.fmt reads)
  let streamed := rows.map fun r => r.map Prod.fst
  let cols := flipCells zeroCell 64 held.cells
  let key := 2 * e + op.half.toNat
  let tile := updateTile s0.me.tileSeed s0.me.tile (tileKey e op.half op.firstRow 0) op.rows 64 fun r c old =>
    heldOutput held.fmt old ((streamed.getD r []).zip (cols.getD c []))
  let s1 : State := { s0 with me := { s0.me with
    tile := tile,
    rotated := storeSet 0 s0.me.rotated key ((held.rot.map fun r => Nat.log2 r.n + 1).getD 0) } }
  let s2 := (s1.tally counts).flagHalf key (bad || held.bad)
  let s3 := if held.rot.isSome then
      (s2.countWindows (engineCore op.engine) windows bad).chargeRuns op.tensor op.segment (s.blockSize op.tensor) held.first
        (rows.map fun r => r.map Prod.snd)
    else s2
  .next ((s3.portShare (engineCore op.engine) op.lost op.promoted).countPass op.engine false op.occupied op.stallRow op.stallCol op.stallCorr
    op.lag (eyeletCount streamed + eyeletCount held.cells))

/-- GATHERED_PASS (R152, R154): every cell adds its products into its accumulator, one reduction step at a time. -/
def execGatheredPass (op : GatheredPass) (s : State) : Host.Outcome State Fault Refusal :=
  let e := op.engine.val
  let fmt := joinFmt (s.viewRef op.rowView).fmt (s.viewRef op.colView).fmt
  let rs := s.cells op.rowView op.rows op.steps
  let cs := s.cells op.colView 64 op.steps
  let rows := rs.map fun r => r.map fun c => widenCell fmt c.1
  let cols := cs.map fun r => r.map fun c => widenCell fmt c.1
  let acc := updateTile s.me.accSeed s.me.acc (accKey e 0 0) op.rows 64 fun r c old =>
    gatheredOutput fmt old ((rows.getD r []).zip (cols.getD c []))
  let s1 : State := { s with me := { s.me with acc := acc } }
  let s2 := s1.tally (((s.readTally op.rowView rs).add (widenTally fmt rs)).add
    ((s.readTally op.colView cs).add (widenTally fmt cs)))
  .next ((s2.portShare (engineCore op.engine) op.lost op.promoted).countPass op.engine true op.occupied op.stallRow op.stallCol op.stallCorr
    op.lag (eyeletCount rows + eyeletCount cols))

/-- Copy `n` words of a store, over its free values, to another from the same key on. -/
def copyRange (seed : Nat) (src dst : Words) (k n : Nat) : Words :=
  let dst' := storeDrop dst fun j => k ≤ j && j < k + n
  if seed = 0 then (src.filter fun p => k ≤ p.1 && p.1 < k + n).foldl (fun m p => storeSet 0 m p.1 p.2) dst'
  else (List.range n).foldl (fun m i => storeSet 0 m (k + i) (tileWord seed src (k + i))) dst'

/-- GATHERED_DRAIN (R153): the accumulators are read and cleared in one sweep. -/
def execGatheredDrain (engine : Fin 512) (s : State) : Host.Outcome State Fault Refusal :=
  let lo := accKey engine 0 0
  .next { s with me := { s.me with
    leaving := copyRange s.me.accSeed s.me.acc s.me.leaving lo 8192,
    acc := clearRange s.me.accSeed s.me.acc lo 8192 } }

/-- Cut pairs into the parts of 8,192 reduction elements that the operand buffer holds (R161). -/
def mvParts : Nat → List (Cell × Cell) → List (List (Cell × Cell))
  | 0, _ => []
  | fuel + 1, ps =>
    match ps with
    | [] => []
    | _ :: _ => ps.take 8192 :: mvParts fuel (ps.drop 8192)

/-- The last part of a reduction's elements that the operand buffer takes. -/
def lastPart (cs : List Cell) : List Cell := cs.drop ((cs.length - 1) / 8192 * 8192)

/-- Key of an element of a tile of the matrix-vector path. -/
def thinKey (core tile i : Nat) : Nat := (core * 2 ^ 20 + tile) * 8192 + i

/-- MV_PRODUCT (R161): a thin product over tiles of 64 columns; longer reductions run in parts whose sums are added in ascending order.
Each part's eyelets are corrected after that part (DESIGN CHOICE, log 13). -/
def execMvProduct (op : MvProduct) (s : State) : Host.Outcome State Fault Refusal :=
  let ts := s.cells op.thin op.rows op.depth
  let ss := s.cells op.streamed op.cols op.depth
  let rows := ts.map fun r => r.map Prod.fst
  let cols := ss.map fun r => r.map Prod.fst
  let thin := (List.range ((op.cols + 63) / 64)).foldl (fun m t =>
    updateTile 0 m (thinKey op.core t 0) op.rows (min 64 (op.cols - 64 * t)) fun r c _ =>
      (mvParts (op.depth + 1) ((rows.getD r []).zip (cols.getD (64 * t + c) []))).foldl (heldOutput .if4) 0) s.me.thin
  let s1 : State := { s with me := { s.me with
    thin := thin, operand := storeSet [] s.me.operand op.core (rows.map lastPart) } }
  let s2 := s1.tally ((s.readTally op.thin ts).add (s.readTally op.streamed ss))
  .next (((((s2.count (bankKey Reg.ME_MV_PRODUCTS op.core) 64 1).bel64 (coreCnt op.core 17) 1).bel64 (coreCnt op.core 16)
    (eyeletCount rows + eyeletCount cols)).bel64 (coreCnt op.core 18) op.busy).portShare op.core op.lost op.promoted)

/-! ## Self-test and clear (R163, R164) -/

/-- ME_TEST_START: a write of 1 to ME_TEST_CTRL.START. -/
def execMeTestStart (s : State) : Host.Outcome State Fault Refusal := .next (s.onHost fun s => s.requestTest .matrix)

/-- Record failed engines: ME_FAIL bit and a UNIT_FAIL record each. -/
def State.failEngines (s : State) : List (Fin 512) → State
  | [] => s
  | e :: es =>
    State.failEngines ((s.setBit (Reg.ME_FAIL + 4 * (e.val / 32)) (e.val % 32) true).ledgerEvent 0x07 0 e.val 0 []) es

/-- Record failed matrix-vector paths. -/
def State.failPaths (s : State) : List (Fin 128) → State
  | [] => s
  | p :: ps => State.failPaths (s.ledgerEvent 0x07 0 p.val 1 []) ps

/-- A test that passes after a reset clears ME_FAIL (R163). -/
def State.passEngines (s : State) : State :=
  if s.me.resetSince then
    { s.zeroRegs ((List.range 16).map fun k => Reg.ME_FAIL + 4 * k) with me := { s.me with resetSince := false } }
  else s

/-- What a self-test leaves in the stores it writes: free values (R163). -/
def State.testStores (s : State) : State :=
  { s with
    free := s.free + 1
    me := { s.me with banks := [], tile := [], acc := [], flagged := [], rotated := [], bankSeed := 3 * s.free + 1,
                      accSeed := 3 * s.free + 2, tileSeed := 3 * s.free + 3 } }

/-- ME_TEST_DONE (R163). -/
def execMeTestDone (engines : List (Fin 512)) (paths : List (Fin 128)) (s : State) : Host.Outcome State Fault Refusal :=
  if s.testStatus .matrix ≠ 1 then .next s else
  let n := engines.length + paths.length
  let s1 := (((s.testStores).endTest .matrix (decide (0 < n))).setFld Reg.ME_TEST_CTRL 15 8 (min n 255)).failEngines engines
  let s2 := (s1.failPaths paths).event Reg.ME_EVENT 0
  .next (if 0 < n then s2.event Reg.ME_EVENT 1 else s2.passEngines)

/-- The per-engine counters that ME_STAT_CTRL.CLR resets. -/
def meCounters : List Nat :=
  [Reg.ME_PASSES, Reg.ME_STALL_ROW, Reg.ME_STALL_COL, Reg.ME_STALL_CORR, Reg.ME_MV_PRODUCTS, Reg.ME_LAG_MAX]

/-- What ME_STAT_CLR resets, with the events of its cycle (R439). -/
def State.meClr (s : State) (same : List (Nat × Nat)) : State :=
  (s.zeroBanks meCounters).sameCycle (sameIn meCounters same)

/-- ME_STAT_CLR (R164, R439). -/
def execMeStatClr (same : List (Nat × Nat)) (s : State) : Host.Outcome State Fault Refusal :=
  .next (s.onHost fun s => s.meClr same)

end Sys2Proof.Machine
end

