-- ==== Sys2Proof/Machine/Segments.lean ====
section
/-! DEFINITION. Tiles in staging (R102, R111 to R113), and the conversion of a complete segment with its tests, resoles, layer
decisions and run-ahead (R113 to R117, R125 to R137). -/

namespace Sys2Proof.Machine

/-! ## Staging -/

/-- A segment that nothing has been drained into. -/
def emptyStaged : Staged := ⟨0, [], 0, 0, none⟩

/-- The staged record of a segment. -/
def State.staged (s : State) (tensor segment : Nat) : Staged := storeGet emptyStaged s.seg.staged (segKey tensor segment)

/-- Replace the staged record of a segment. -/
def State.setStaged (s : State) (tensor segment : Nat) (x : Staged) : State :=
  { s with seg := { s.seg with staged := storeSet emptyStaged s.seg.staged (segKey tensor segment) x } }

/-- An entry for a tensor that the image does not name: one tile. -/
def oneTile : TensorEntry := ⟨0, 128, 64, false, none, none, 0, 1, 32, false, 0⟩

/-- The entry of a tensor. -/
def State.entryOf (s : State) (t : Nat) : TensorEntry := (s.tensor? t).getD oneTile

/-- A tile's values in row-major order, with padding as +0 beyond its extent (R106). -/
def tileValues (rows cols : Nat) (at_ : Nat → Nat → Word) : List Word :=
  (List.range 8192).map fun i => if i / 64 < rows ∧ i % 64 < cols then at_ (i / 64) (i % 64) else 0

/-- The first element of a tile that is not finite (R102). -/
def firstNonFinite (ws : List Word) : Option Nat := ws.findIdx? fun w => !finF w

/-- Record a flagged tile: counted, sticky, and the first record since the last clear (R102, R104). -/
def State.nfTile (s : State) (tensor tile core engine i : Nat) (w : Word) : State :=
  let s1 := ((s.count Reg.FMT_NF_COUNT 32 1).orReg Reg.FMT_STICKY 16).bel64 (coreCnt core 28) 1
  let s2 := s1.trace (dieOf core 64) 0x0A core
    (tensor % 65536 + 2 ^ 16 * (tile % 2 ^ 32) + 2 ^ 48 * (i / 64) + 2 ^ 56 * (i % 64) + 2 ^ 64 * w.toNat)
  if s2.bit Reg.FMT_NF_WHERE 31 then s2
  else
    ((((s2.setRegN Reg.FMT_NF_WHERE (i / 64 + 256 * (i % 64) + 2 ^ 31)).setRegN Reg.FMT_NF_TENSOR
      (tensor % 65536 + 65536 * core + 2 ^ 24 * engine)).setRegN Reg.FMT_NF_TILE (tile % 2 ^ 32)).setRegN Reg.FMT_NF_BITS
      w.toNat).setRegN Reg.FMT_NF_TICK s2.tick.now

/-- The blocks of one tile, with their elements in order of position. -/
def tileBlocks (axisRows : Bool) (block : Nat) (ws : List Word) : List (List Word) :=
  (List.range (8192 / block)).map fun b => (List.range block).map fun p => ws.getD (elemOf axisRows block b p) 0

/-- The smaller of a recorded index and a new one. -/
def minOpt (a : Option Nat) (b : Nat) : Option Nat := some (match a with | some x => min x b | none => b)

/-- The survey area of a segment follows its staging buffer of 4 bytes per element (R112). -/
def surveyBase (staging tiles : Nat) : Nat := staging + 32768 * tiles

/-- Write a tile into its segment's staging buffer with its survey (R111, R112), and count it towards the segment (R113). -/
def State.stageTile (s : State) (p : StagePlace) (core : Nat) (ws : List Word) (nf : Option Nat) : State :=
  let te := s.entryOf p.tensor
  let seg := p.tile / te.segTiles
  let k := p.tile % te.segTiles
  let s1 := s.devWrite .scheduled (p.staging + 32768 * k) (ws.flatMap fun w => leBytes 4 w.toNat)
  let s2 := s1.devWrite .scheduled (surveyBase p.staging (segTileCount te seg) + 24 * (k * (8192 / te.block)))
    ((tileBlocks te.axisRows te.block ws).flatMap fun b => (surveyOf b).bytes)
  let old := s2.staged p.tensor seg
  s2.setStaged p.tensor seg
    { staging := p.staging, runAhead := p.runAhead, core := if k = 0 then core else old.core, tiles := old.tiles + 1,
      nf := match nf with | some i => minOpt old.nf (k * 8192 + i) | none => old.nf }

/-! ## Converting at a rung -/

/-- What the conversion of one segment rests on: the command's figures, the tensor, its class, its limits, its staged record. -/
structure SegCtx where
  op : ConvOp
  te : TensorEntry
  fc : FormatClass
  lim : ThreshEntry
  st : Staged
deriving DecidableEq, Repr

/-- The extents of the segment's tiles. -/
def SegCtx.ext (x : SegCtx) : List (Nat × Nat) := segExtents x.te x.op.segment

/-- Its stored blocks. -/
def SegCtx.blocks (x : SegCtx) : Nat := storedBlocks x.te.axisRows x.te.block (storedCount x.ext) x.ext.length

/-- Its survey area. -/
def SegCtx.survey (x : SegCtx) : Nat := surveyBase x.st.staging x.ext.length

/-- Its staged values by index; none at a padding position. -/
def State.stagedValues (s : State) (x : SegCtx) : List (Option Word) :=
  (List.range (storedCount x.ext)).map fun i =>
    if inTensor x.ext i then some (BitVec.ofNat 32 (s.opNat (x.st.staging + 4 * i) 4)) else none

/-- Convert a staged segment at a rung (R114, R128). -/
def State.convertAt (s : State) (x : SegCtx) (rung : Nat) : Converted :=
  let f := x.fc.ladder.getD rung .bf16
  let r := segRule x.fc f x.te.axisRows x.te.block (8192 * x.ext.length)
  let gen := if x.fc.stochastic then some (storeGet 0 s.seg.gens x.st.core) else none
  if scaledFmt f then
    convertScaled r ((List.range x.blocks).map fun b => s.surveyAt (x.survey + 24 * b)) none (s.stagedValues x) gen
  else convertWide r (s.stagedValues x) gen

/-- The generator of a core after a conversion. -/
def State.setGen (s : State) (core : Nat) (g : Option DWord) : State :=
  match g with
  | some x => { s with seg := { s.seg with gens := storeSet 0 s.seg.gens core x } }
  | none => s

/-- A block counter with the feeders' charges, 0 to 32 (R121, R125). -/
def State.blockCount (s : State) (tensor segment : Nat) (cs : Counts) (b kind : Nat) : Nat :=
  min 32 (storeGet 0 cs b + storeGet 0 s.seg.charges (chargeKey tensor segment b kind))

/-- The saturated and zeroed counters of the blocks of a segment. -/
def State.blockCounts (s : State) (x : SegCtx) (c : Converted) : List (Nat × Nat) :=
  (List.range x.blocks).map fun b =>
    (s.blockCount x.op.tensor x.op.segment c.sats b 0, s.blockCount x.op.tensor x.op.segment c.zeros b 1)

/-- The sums of a segment's counters. -/
def sumCounts (cs : List (Nat × Nat)) : Nat × Nat := ((cs.map Prod.fst).sum, (cs.map Prod.snd).sum)

/-- A total crosses a limit z of 65,536 parts; 0xFFFF disables the test (R126). -/
def totalCross (z total n : Nat) : Bool := decide (z ≠ 0xFFFF ∧ z * n < total * 65536)

/-- The segment and block tests of R126. -/
def segCross (t : ThreshEntry) (n : Nat) (cs : List (Nat × Nat)) : Bool :=
  totalCross t.segSat (sumCounts cs).1 n || totalCross t.segZero (sumCounts cs).2 n ||
  (decide (t.blockSat ≠ 0) && cs.any fun c => decide (t.blockSat ≤ c.1)) ||
  (decide (t.blockZero ≠ 0) && cs.any fun c => decide (t.blockZero ≤ c.2))

/-- The layer tests of R126. -/
def layerCross (t : ThreshEntry) (l : LayerTot) : Bool :=
  totalCross t.layerSat l.sat l.count || totalCross t.layerZero l.zero l.count

/-- The THRESH entry of a layer and a class. -/
def threshOf (x : Sections) (layer cls : Nat) : Option ThreshEntry := x.thresh.find? fun t => t.layer = layer ∧ t.cls = cls

/-- The group of a layer (R37). -/
def groupOf (x : Sections) (layer : Nat) : Option Nat := (x.layerGroups.find? fun e => e.1 = layer).map Prod.snd

/-- The variant that the running step runs. -/
def State.variant (s : State) : Nat := (s.tick.step.map RunStep.variant).getD 0

/-- The rung at which the running step writes a layer's classes: one up in a raised group (R37, R132). -/
def State.startRung (s : State) (x : Sections) (layer rungs : Nat) : Nat :=
  match groupOf x layer with
  | some g => if (maskOf x s.variant).getLsbD g then min 1 (rungs - 1) else 0
  | none => 0

/-- What a conversion rests on; none where the image names no such tensor. -/
def State.segCtx (s : State) (op : ConvOp) : Option SegCtx :=
  match s.sections?, s.tensor? op.tensor, s.classFor op.tensor with
  | some x, some te, some fc =>
    some ⟨op, te, fc, (threshOf x op.layer te.cls).getD ⟨0, 0, 0xFFFF, 0xFFFF, 0, 0, 0xFFFF, 0xFFFF⟩, s.staged op.tensor op.segment⟩
  | _, _, _ => none

/-! ## Requests (R58, R136, R137) -/

/-- The step has had a denial: crossings are suppressed. -/
def State.deniedStep (s : State) : Bool := (s.tick.step.map RunStep.denied).getD false

/-- The two tests of R58. -/
def State.grants (s : State) (cycle remaining cost : Nat) : Bool :=
  decide (cost ≤ s.resoleReserve - s.tick.debited ∧ cycle + remaining + cost ≤ s.tickLen - s.maintLen)

/-- Debit a granted cost. -/
def State.debit (s : State) (cost : Nat) : State :=
  ({ s with tick := { s.tick with debited := s.tick.debited + cost } } : State).maxReg Reg.TICK_RESOLE_PEAK
    (s.tick.debited + cost)

/-- The group of a layer becomes affected (R137). -/
def State.affect (s : State) (layer : Nat) : State :=
  match s.sections?.bind fun x => groupOf x layer with
  | some g => s.setBit Reg.QNT_AFFECTED g true
  | none => s

/-- A request for a resole: what it is for, its core, the rung it asks for, its kind (0 output, 1 layer) and its cost. -/
structure Request where
  tensor : Nat
  segment : Nat
  layer : Nat
  core : Nat
  rung : Nat
  kind : Nat
  cost : Nat
deriving DecidableEq, Repr

/-- The payload of a RESOLE_GRANT or RESOLE_DENY record. -/
def Request.payload (q : Request) (kind : Nat) : Nat :=
  q.tensor % 65536 + 2 ^ 16 * (q.segment % 2 ^ 32) + 2 ^ 48 * q.rung + 2 ^ 56 * kind + 2 ^ 64 * q.cost

/-- A crossing after a denial: suppressed (R136). -/
def State.suppress (s : State) (q : Request) : State :=
  ((((s.count Reg.QNT_RESOLE_SUPPRESSED 32 1).live 0x824 1).bel64 (clusterCnt (q.core / 8) 4) 1).affect q.layer).trace
    (dieOf q.core 64) 0x07 q.core (q.payload (q.kind + 128))

/-- The first denial of the step: it spoils the step with cause 2 (R136). -/
def State.deny (s : State) (q : Request) : State :=
  let s1 := (((s.count Reg.QNT_RESOLE_DENIED 32 1).live 0x820 1).bel64 (clusterCnt (q.core / 8) 3) 1).affect q.layer
  ((s1.trace (dieOf q.core 64) 0x07 q.core (q.payload q.kind)).spoil 2).mapStep fun r => { r with denied := true }

/-- A granted request: debited and counted. -/
def State.grant (s : State) (q : Request) : State :=
  let s1 := s.debit q.cost
  let s2 := if q.kind = 0 then (s1.count Reg.QNT_RESOLE_OUT 64 1).live 0x810 1
    else (s1.count Reg.QNT_RESOLE_LAYER 64 1).live 0x818 1
  (s2.bel64 (clusterCnt (q.core / 8) (1 + q.kind)) 1).trace (dieOf q.core 64) 0x06 q.core (q.payload q.kind)

/-- A request at a cycle: suppressed after a denial, granted under both tests of R58, else denied; whether it was granted. -/
def State.request (s : State) (q : Request) (cycle remaining : Nat) : State × Bool :=
  if s.deniedStep then (s.suppress q, false)
  else if s.grants cycle remaining q.cost then (s.grant q, true)
  else (s.deny q, false)

/-- A crossing with no wider rung (R130). -/
def State.topCross (s : State) : State := s.count Reg.QNT_TOP_CROSS 32 1

/-! ## Releasing a segment (R127 to R131) -/

/-- Count one conversion, wherever it ends (R123, R129). -/
def State.countConv (s : State) (x : SegCtx) (c : Converted) : State :=
  let cl := x.st.core / 8
  let s1 := ((s.countConversion c x.op.tensor x.op.segment false).bel64 (clusterCnt cl 0) 1).bel64 (coreCnt x.st.core 24)
    c.tally.draws
  let s2 := (((s1.bel64 (clusterCnt cl 5) c.tally.outliers).bel64 (clusterCnt cl 6) c.tally.specials).bel64
    (clusterCnt cl 7) c.tally.dominant).bel64 (clusterCnt cl 8) c.tally.zeroBlocks
  let s3 := (s2.bel64 (clusterCnt cl 9) c.tally.sat).bel64 (clusterCnt cl 10) c.tally.zeroed
  if c.budgetOut then
    s3.trace (dieOf cl 8) 0x09 cl (x.op.tensor % 65536 + 2 ^ 16 * (x.op.segment % 2 ^ 32) + 2 ^ 48 * c.tally.dominant)
  else s3

/-- Write the counters of the released conversion into the survey area (R125). -/
def State.writeCounters (s : State) (survey : Nat) : Nat → List (Nat × Nat) → State
  | _, [] => s
  | b, (sat, zer) :: cs =>
    State.writeCounters (s.devWrite .scheduled (survey + 24 * b + 17) (leBytes 1 sat ++ leBytes 1 zer)) survey (b + 1) cs

/-- The first element of the segment that is not finite, those that overflow mode 1 made infinite among them (R95, R108). -/
def releaseNf (st : Staged) (c : Converted) : Option Nat :=
  match c.madeInf with
  | i :: _ => minOpt st.nf i
  | [] => st.nf

/-- The tiles that overflow mode 1 gave their first element that is not finite: each sets its flag and is counted (R95, R102). The
record names the core of tile 0 and engine 0 (DESIGN CHOICE, log 76). -/
def State.flagMade (s : State) (x : SegCtx) (vals : List (Option Word)) (c : Converted) : Nat → State
  | 0 => s
  | t + 1 =>
    let s1 := State.flagMade s x vals c t
    let bad := ((vals.drop (8192 * t)).take 8192).any fun v => !finF (v.getD 0)
    match c.madeInf.find? fun i => i / 8192 = t with
    | some i =>
      if bad then s1
      else s1.nfTile x.op.tensor (x.op.segment * x.te.segTiles + t) x.st.core 0 (i % 8192)
        (if ((vals.getD i none).getD 0).msb then 0xFF800000 else 0x7F800000)
    | none => s1

/-- The layer instance's totals. -/
def State.layer (s : State) (i : Nat) : LayerTot := storeGet {} s.seg.layers i

/-- Replace a layer instance's totals. -/
def State.setLayer (s : State) (i : Nat) (l : LayerTot) : State :=
  { s with seg := { s.seg with layers := storeSet {} s.seg.layers i l } }

/-- A segment bound for another module takes its branch number with it in its plot (R131). -/
def State.setBranch (s : State) (plot : Option Nat) (rung : Nat) : State :=
  match plot with
  | some p => s.setPlot p { s.plot p with branch := rung }
  | none => s

/-- Release a conversion: only the released rung is written, where its branch names (R128, R131). -/
def State.releaseSeg (s : State) (x : SegCtx) (c : Converted) (rung : Nat) : State :=
  let op := x.op
  let cs := s.blockCounts x c
  let l := s.layer op.layerInst
  let d := s.segDest op.tensor op.segment true ((op.places[rung]?).getD (op.places.getLast?.getD (.near ⟨0, 0, 0⟩)))
  let s1 := ((s.flagMade x (s.stagedValues x) c x.ext.length).writeCounters x.survey 0 cs).writeSegment d c (releaseNf x.st c) false
  let s2 := s1.setLayer op.layerInst { l with sat := l.sat + (sumCounts cs).1, zero := l.zero + (sumCounts cs).2,
                                              count := l.count + elemCount x.ext }
  let s3 := ((s2.setStaged op.tensor op.segment emptyStaged).setRung op.tensor op.segment rung).setBranch op.plot rung
  let k := segKey op.tensor op.segment
  { s3 with seg := { s3.seg with charges := storeDrop s3.seg.charges fun j => j / 131072 = k } }

/-! ## Layer decisions and run-ahead (R132 to R135) -/

/-- Set half of an engine's tile buffer to +0 and forget what fed it. -/
def State.clearHalf (s : State) (e : Fin 512) (half : Bool) : State :=
  let k := 2 * e.val + half.toNat
  { s with me := { s.me with
    tile := clearRange s.me.tileSeed s.me.tile (tileKey e half 0 0) 8192,
    flagged := storeSet 0 s.me.flagged k 0,
    rotated := storeSet 0 s.me.rotated k 0 } }

/-- Discard the run-ahead that consumed an instance's earlier outputs: staged segments, complete or not, held conversions, and the
drain tile halves of the squashed products (R134, R159). -/
def State.squash (s : State) (inst : Nat) (halves : List (Fin 512 × Bool)) : State :=
  let keys := (s.seg.staged.filter fun e => e.2.runAhead.contains inst).map Prod.fst
  let s1 : State := { s with seg := { s.seg with
    waiting := s.seg.waiting.filter fun o => !keys.contains (segKey o.tensor o.segment),
    staged := storeDrop s.seg.staged fun k => keys.contains k,
    charges := storeDrop s.seg.charges fun k => keys.contains (k / 131072) } }
  halves.foldl (fun s h => s.clearHalf h.1 h.2) s1

/-- The rung to which a layer resole takes the weight class; none when it runs on its top rung (R130, R132). -/
def State.layerNext (s : State) (x : Sections) (op : ConvOp) : Option Nat :=
  match s.classFor op.weight with
  | some fc =>
    let rung := s.startRung x op.layer fc.ladder.length + (s.layer op.layerInst).resoled.toNat
    if rung + 1 < fc.ladder.length then some (rung + 1) else none
  | none => none

/-- The instance's decision is final (R133). -/
def State.finalize (s : State) (inst : Nat) : State := s.setLayer inst { s.layer inst with final := true }

/-- Request the layer resole of an instance and act on the answer (R132, R134). -/
def State.layerRequest (s : State) (op : ConvOp) (core rung cycle remaining : Nat) : State :=
  let (s1, ok) := s.request ⟨op.tensor, op.segment, op.layer, core, rung, 1, op.layerCost⟩ cycle remaining
  if ok then (s1.squash op.layerInst op.squashes).setLayer op.layerInst { resoled := true } else s1.finalize op.layerInst

/-- The layer tests at the end of an instance, and what follows (R127, R130, R132, R135): an instance spread over modules sends its
request bit and waits for the reduction. -/
def State.layerTest (s : State) (x : SegCtx) (cycle remaining : Nat) : State :=
  let op := x.op
  let l := s.layer op.layerInst
  let cross := layerCross x.lim l
  match s.sections?.bind fun y => s.layerNext y op with
  | none => (if cross then s.topCross else s).finalize op.layerInst
  | some rung =>
    if l.resoled then s.finalize op.layerInst
    else
      match op.spread with
      | some p =>
        if cross && s.deniedStep then
          ((s.contribute p x.st.core [0]).suppress ⟨op.tensor, op.segment, op.layer, x.st.core, rung, 1, op.layerCost⟩).finalize op.layerInst
        else
          let s1 := s.contribute p x.st.core [if cross then 1 else 0]
          { s1 with seg := { s1.seg with spread := s1.seg.spread ++ [(x.st.core, op)] } }
      | none =>
        if cross then s.layerRequest op x.st.core rung cycle remaining else s.finalize op.layerInst

/-! ## Conversions in order (R117, R136) -/

/-- A conversion to make: its cycle, the compiled remaining work, the segment, its core, the rung. -/
structure ConvJob where
  time : Nat
  remaining : Nat
  op : ConvOp
  core : Nat
  rung : Nat
deriving DecidableEq, Repr

/-- The order of conversions and requests: cycle, then core, tensor and segment (R117, R136). -/
def ConvJob.le (a b : ConvJob) : Bool :=
  let ka := [a.time, a.core, a.op.tensor, a.op.segment]
  let kb := [b.time, b.core, b.op.tensor, b.op.segment]
  decide (ka ≤ kb)

/-- The first conversion of a complete segment. -/
def State.firstJob (s : State) (op : ConvOp) (time remaining : Nat) : ConvJob :=
  let rungs := ((s.classFor op.tensor).map fun fc => fc.ladder.length).getD 1
  ⟨time, remaining, op, (s.staged op.tensor op.segment).core,
    (s.sections?.map fun x => s.startRung x op.layer rungs).getD 0⟩

/-- The decision of a layer instance is final (R133). -/
def State.isFinal (s : State) (inst : Nat) : Bool := (s.layer inst).final

/-- Run-ahead may be released: the decisions of all the instances that feed it are final (R133). -/
def State.mayGo (s : State) (op : ConvOp) : Bool := (s.staged op.tensor op.segment).runAhead.all s.isFinal

/-- The held segments that may go on now, as conversions of this cycle. -/
def State.freed (s : State) (time remaining : Nat) : State × List ConvJob :=
  ({ s with seg := { s.seg with waiting := s.seg.waiting.filter fun o => !s.mayGo o } },
   (s.seg.waiting.filter s.mayGo).map fun o => s.firstJob o time remaining)

/-- A segment is complete: every tile has been drained or staged (R113). -/
def State.segComplete (s : State) (op : ConvOp) : Bool :=
  let n := segTileCount (s.entryOf op.tensor) op.segment
  decide (0 < n ∧ n ≤ (s.staged op.tensor op.segment).tiles)

/-- One conversion with its tests: a granted output resole converts again at the next rung, else the segment is released and, at its
instance's end, the layer is tested (R127, R128, R130, R132). Answers the conversions that follow. A segment that a squash has
discarded is not converted (R134). -/
def State.convJob (s : State) (j : ConvJob) : State × List ConvJob :=
  match if s.segComplete j.op then s.segCtx j.op else none with
  | none => (s, [])
  | some x =>
    let c := s.convertAt x j.rung
    let s1 := (s.countConv x c).setGen x.st.core c.gen
    let done := fun (s : State) =>
      let s2 := s.releaseSeg x c j.rung
      (if j.op.instEnd then s2.layerTest x j.time j.remaining else s2).freed j.time j.remaining
    if segCross x.lim (elemCount x.ext) (s1.blockCounts x c) then
      if x.fc.ladder.length ≤ j.rung + 1 then done s1.topCross
      else
        let cost := j.op.costs.getD j.rung 0
        let (s2, ok) := s1.request ⟨j.op.tensor, j.op.segment, j.op.layer, x.st.core, j.rung + 1, 0, cost⟩ j.time j.remaining
        if ok then (s2, [{ j with time := j.time + cost, rung := j.rung + 1 }]) else done s2
    else done s1

/-- Make conversions in their order until none is left. -/
def State.runJobs (s : State) : Nat → List ConvJob → State
  | 0, _ => s
  | fuel + 1, js =>
    match js.insertionSort fun a b => ConvJob.le a b with
    | [] => s
    | j :: rest =>
      let (s1, more) := s.convJob j
      State.runJobs s1 fuel (more ++ rest)

/-- Conversions that a list of segments and the held ones can need: one for each rung. -/
def State.jobFuel (s : State) (n : Nat) : Nat := 5 * (n + s.seg.waiting.length) + 1

/-- SEGMENT_CONVERSION_DONE (R114, R117, R127 to R137): the segments whose conversions end in one cycle. One that is not complete is
not converted; one of run-ahead is held until the decisions it rests on are final. -/
def execSegmentConversionDone (ops : List ConvOp) (s : State) : Host.Outcome State Fault Refusal :=
  let ready := ops.filter s.segComplete
  let s1 : State := { s with seg := { s.seg with waiting := s.seg.waiting ++ ready.filter fun o => !s.mayGo o } }
  .next (s1.runJobs (s1.jobFuel ready.length) ((ready.filter s.mayGo).map fun o => s1.firstJob o o.cycle o.remaining))

/-- The reduction of R135 delivers its result: the layer resole runs if any module asked for it. -/
def State.layerResult (s : State) (plot : Nat) (asked : Bool) (cycle remaining : Nat) : State :=
  match s.seg.spread.find? fun o => o.2.spread = some plot with
  | none => s
  | some (core, op) =>
    let s1 : State := { s with seg := { s.seg with spread := s.seg.spread.filter fun o => o.2.spread ≠ some plot } }
    let s2 := match s1.sections?.bind fun y => s1.layerNext y op with
      | none => s1.finalize op.layerInst
      | some rung => if asked then s1.layerRequest op core rung cycle remaining else s1.finalize op.layerInst
    let (s3, js) := s2.freed cycle remaining
    s3.runJobs (s3.jobFuel js.length) js

/-! ## Clears (R103, R123, R145, R439) -/

/-- The counts and first record that FMT_CTRL.CLR resets. -/
def fmtCounts : List Nat :=
  [Reg.FMT_SAT_COUNT, Reg.FMT_FLUSH_COUNT, Reg.FMT_NF_COUNT, Reg.FMT_ORPHAN_COUNT, Reg.FMT_NF_WHERE, Reg.FMT_NF_TENSOR,
   Reg.FMT_NF_TILE, Reg.FMT_NF_BITS, Reg.FMT_NF_TICK]

/-- What FMT_CLR resets, with the events of its cycle (R439). -/
def State.fmtClr (s : State) (same : List (Nat × Nat)) : State :=
  (s.zeroRegs fmtCounts).sameCycle (sameIn fmtCounts same)

/-- FMT_CLR. -/
def execFmtClr (same : List (Nat × Nat)) (s : State) : Host.Outcome State Fault Refusal :=
  .next (s.onHost fun s => s.fmtClr same)

/-- The counts and first budget record that QNT_CTRL.CLR resets. -/
def qntCounts : List Nat :=
  [Reg.QNT_SEG_COUNT, Reg.QNT_EYELET_OUTLIER, Reg.QNT_EYELET_SPECIAL, Reg.QNT_BUDGET_OUT_COUNT, Reg.QNT_DOMINANT_COUNT,
   Reg.QNT_ZERO_BLOCK_COUNT, Reg.QNT_ROT_WINDOWS, Reg.QNT_OUT_TENSOR, Reg.QNT_OUT_SEGMENT, Reg.QNT_OUT_TICK]

/-- What QNT_CLR resets, with the events of its cycle (R439). -/
def State.qntClr (s : State) (same : List (Nat × Nat)) : State :=
  (s.zeroRegs qntCounts).sameCycle (sameIn qntCounts same)

/-- QNT_CLR. -/
def execQntClr (same : List (Nat × Nat)) (s : State) : Host.Outcome State Fault Refusal :=
  .next (s.onHost fun s => s.qntClr same)

/-- What QNT_STAT_CTRL.CLR resets. -/
def qntStats : List Nat :=
  [Reg.QNT_RESOLE_OUT, Reg.QNT_RESOLE_LAYER, Reg.QNT_RESOLE_DENIED, Reg.QNT_RESOLE_SUPPRESSED, Reg.QNT_TOP_CROSS,
   Reg.QNT_SPOIL_COUNT, Reg.QNT_SPOIL_LAST, Reg.QNT_SPOIL_TICK]

/-- What QNT_STAT_CLR resets, with the events of its cycle (R439). -/
def State.qntStatClr (s : State) (same : List (Nat × Nat)) : State :=
  (s.zeroRegs qntStats).sameCycle (sameIn qntStats same)

/-- QNT_STAT_CLR. -/
def execQntStatClr (same : List (Nat × Nat)) (s : State) : Host.Outcome State Fault Refusal :=
  .next (s.onHost fun s => s.qntStatClr same)

end Sys2Proof.Machine
end

