-- ==== Sys2Proof/Machine/Vector.lean ====
section
/-! DEFINITION. Vector engines: fused chains over one vector or a tile stream, masks, reductions, staging stores and the
Class S input (R165 to R191). -/

namespace Sys2Proof.Machine

/-! ## Elements -/

/-- Elements of a vector (R166). -/
def lanesOf : VFmt → Nat
  | .fp32 => 128 | .bf16 | .fp16 => 256 | .fp64 => 64

/-- The layout a chain computes in: 16-bit chains compute in FP32 (R177). -/
def calcFmt : VFmt → FpFmt
  | .fp64 => fp64 | _ => fp32

/-- The 16-bit element format of a chain. -/
def shortFmt : VFmt → Fmt
  | .fp16 => .fp16 | _ => .bf16

/-- Whether a chain's elements are 16 bits wide. -/
def isShort : VFmt → Bool
  | .bf16 | .fp16 => true
  | _ => false

/-- A chain's rule for 16-bit conversions: overflow mode and subnormal mode of its class (R95, R99). -/
structure ShortRule where
  fmt : Fmt
  ovfInf : Bool
  flush : Bool
deriving DecidableEq, Repr

/-- The rule for a 16-bit format under a class. -/
def State.shortRule (s : State) (cls : Nat) (f : Fmt) : ShortRule :=
  match s.sections?.bind fun x => classOf x cls with
  | some c => ⟨f, c.overflowInf, c.flush.contains f⟩
  | none => ⟨f, false, false⟩

/-- An element as the chain reads it, from its stored bits: 16-bit elements are decoded exactly, a subnormal read as zero
under the class's mode bit; the flag says that a flush took place. -/
def readElem (f : VFmt) (r : ShortRule) (raw : Nat) : Nat × Bool :=
  if isShort f then
    if r.flush && subnormalCode r.fmt (raw % 32768) then (if raw < 32768 then (0, true) else (2 ^ 31, true))
    else ((decode16 r.fmt raw).toNat, false)
  else (raw, false)

/-- Bytes of an element in storage. -/
def elemBytes : VFmt → Nat
  | .fp32 => 4 | .bf16 | .fp16 => 2 | .fp64 => 8

/-- Raw element `i` of a vector given by its lanes (R166). -/
def laneElem (f : VFmt) (lane : Nat → Word) (i : Nat) : Nat :=
  match f with
  | .fp32 => (lane i).toNat
  | .bf16 | .fp16 => (lane (i / 2)).toNat / 2 ^ (16 * (i % 2)) % 65536
  | .fp64 => (lane (2 * i)).toNat + 2 ^ 32 * (lane (2 * i + 1)).toNat

/-- A lane with element `i` replaced by raw bits: the lanes to write. -/
def putElem (f : VFmt) (lane : Nat → Word) (i raw : Nat) : List (Nat × Word) :=
  match f with
  | .fp32 => [(i, BitVec.ofNat 32 raw)]
  | .bf16 | .fp16 => [(i / 2, BitVec.ofNat 32 (putBits (lane (i / 2)).toNat (16 * (i % 2)) 16 raw))]
  | .fp64 => [(2 * i, BitVec.ofNat 32 raw), (2 * i + 1, BitVec.ofNat 32 (raw / 2 ^ 32))]

/-- Key of a register lane; a lane past the register is one of the next register. -/
def regKey (core n lane : Nat) : Nat := core * 4096 + (n * 128 + lane) % 4096

/-- Key of a tile-buffer lane. -/
def bufKey (core b vec lane : Nat) : Nat := ((core * 4 + b) * 128 + vec) * 128 + lane

/-- A lane of a register. -/
def State.vreg (s : State) (core n lane : Nat) : Word := storeGet 0 s.ve.regs (regKey core n lane)

/-- A mask register; K0 reads as all ones (R167). -/
def State.vmask (s : State) (core k : Nat) : BitVec 256 :=
  if k = 0 then BitVec.allOnes 256 else storeGet 0 s.ve.masks (core * 8 + k)

/-- Write a mask register; K0 ignores writes. -/
def State.setMask (s : State) (core k : Nat) (m : BitVec 256) : State :=
  if k = 0 then s else { s with ve := { s.ve with masks := storeSet 0 s.ve.masks (core * 8 + k) m } }

/-- Write lanes of a register. -/
def State.setLanes (s : State) (core n : Nat) (ls : List (Nat × Word)) : State :=
  { s with ve := { s.ve with regs := ls.foldl (fun m l => storeSet 0 m (regKey core n l.1) l.2) s.ve.regs } }

/-- Write one raw element of a register. -/
def State.setElem (s : State) (f : VFmt) (core n i raw : Nat) : State :=
  s.setLanes core n (putElem f (s.vreg core n) i raw)

/-- Position of a tile column within its tile, for row broadcasts and row vectors (R171, R181). -/
def tileColumn (f : VFmt) (j : Nat) : Nat := if isShort f then j % 32 else j % 64

/-- The raw element of a source for element `i` at position `j`, stored in format `f`; the values of earlier stages are already
decoded. The vectors of a stream, and the further tiles of one, lie one after another; a chain names tile-buffer vector
(first + j) mod 128 for position j (DESIGN CHOICE, log 17). -/
def State.rawSource (s : State) (core : Nat) (c : VChain) (f : VFmt) (src : VSrc) (j i : Nat) : Nat :=
  match src with
  | .reg n => laneElem f (s.vreg core n) i
  | .stream k =>
    s.opNat (spadAddr core (c.streams.getD k 0 + lanesOf c.fmt * elemBytes f * j + elemBytes f * i)) (elemBytes f)
  | .tileBuf b first => laneElem f (fun l => storeGet 0 s.ve.bufs (bufKey core b ((first + j) % 128) l)) i
  | .colBcast n => laneElem f (s.vreg core n) (if isShort c.fmt then i % 128 else i)
  | .rowBcast n =>
    laneElem f (s.vreg core n) (if isShort c.fmt then 2 * tileColumn c.fmt j + i / 128 else tileColumn c.fmt j)
  | .laneBcast n l => laneElem f (s.vreg core n) l
  | .colIdx base => (base + BitVec.ofNat 32 j).toNat
  | .imm v => if f = .fp64 then v.toNat else if isShort f then v.toNat % 65536 else v.toNat % 2 ^ 32
  | .stage _ => 0

/-! ## Operations (R173 to R176) -/

/-- A shift by the second operand; an amount of 32 or more gives a free value, since no rule states it. -/
def shiftOp (kind : Nat) (a b : Nat) : Nat :=
  let x : Word := BitVec.ofNat 32 a
  if 32 ≤ b then (Config.fuResult (2 ^ 40 + 4 * b + kind) x).toNat
  else if kind = 0 then (x <<< b).toNat else if kind = 1 then (x >>> b).toNat else (x.sshiftRight b).toNat

/-- INT32 comparison (R173). -/
def intCmp (c : CmpOp) (x y : Int) : Bool :=
  match c with
  | .eq => decide (x = y) | .ne => decide (x ≠ y) | .lt => decide (x < y) | .le => decide (x ≤ y)
  | .gt => decide (y < x) | .ge => decide (y ≤ x) | .unord => false

/-- An INT32 pattern as an integer. -/
def toI (a : Nat) : Int := (BitVec.ofNat 32 a).toInt

/-- An integer modulo 2^32. -/
def ofI (x : Int) : Nat := (BitVec.ofInt 32 x).toNat

/-- One operation of a stage other than a conversion into 16 bits (R173, R174, R176). SEL takes its predicate from the
third operand. A NaN that ABS, NEG or COPY meets is made quiet with its sign and raises no flag (R176; DEDUCED, log 19). -/
def stageOp (f : FpFmt) (o : VOp) (a b c : Nat) : FRes :=
  match o with
  | .add => f.add a b
  | .sub => f.sub a b
  | .mul => f.mul a b
  | .fma => f.fma a b c
  | .fms => f.nanOr [a, b, c] (f.fma a b (f.flip c))
  | .min => f.min a b
  | .max => f.max a b
  | .abs => ⟨if f.isNan a then f.quiet a else f.mag a, 0⟩
  | .neg => ⟨if f.isNan a then f.quiet a else f.flip a, 0⟩
  | .copy => ⟨if f.isNan a then f.quiet a else a, 0⟩
  | .iadd => ⟨(a + b) % 2 ^ 32, 0⟩
  | .isub => ⟨ofI (toI a - toI b), 0⟩
  | .imul => ⟨ofI (toI a * toI b), 0⟩
  | .imin => ⟨if toI b < toI a then b else a, 0⟩
  | .imax => ⟨if toI a < toI b then b else a, 0⟩
  | .iabs => ⟨ofI (toI a).natAbs, 0⟩
  | .ineg => ⟨ofI (-toI a), 0⟩
  | .icopy => ⟨a, 0⟩
  | .and => ⟨Nat.land a b, 0⟩
  | .or => ⟨Nat.lor a b, 0⟩
  | .xor => ⟨Nat.xor a b, 0⟩
  | .not => ⟨2 ^ 32 - 1 - a % 2 ^ 32, 0⟩
  | .shl => ⟨shiftOp 0 a b, 0⟩
  | .shr => ⟨shiftOp 1 a b, 0⟩
  | .sra => ⟨shiftOp 2 a b, 0⟩
  | .cmp p => let r := f.cmp p a b; ⟨r.1.toNat, r.2⟩
  | .icmp p => ⟨(intCmp p (toI a) (toI b)).toNat, 0⟩
  | .sel => ⟨if c = 0 then b else a, 0⟩
  | .div => f.div a b
  | .sqrt => f.sqrt a
  | .fu g => fuOp g a
  | .cvt src dst _ =>
    match src, dst with
    | .fp64, .fp32 => fp64.conv fp32 a
    | .fp64, .int32 => fp64.toInt32 a
    | .int32, .fp64 => fp64.ofInt32 a
    | .int32, .fp32 => fp32.ofInt32 a
    | .int32, .int32 => ⟨a, 0⟩
    | .fp64, .fp64 => ⟨a, 0⟩
    | _, .fp64 => fp32.conv fp64 a
    | _, .int32 => fp32.toInt32 a
    | _, _ => ⟨a, 0⟩

/-- The 16-bit target of a conversion, and the FP32 value that enters it. -/
def shortTarget (o : VOp) (a : Nat) : Option (Fmt × Bool × Word) :=
  match o with
  | .cvt src dst stoch =>
    let w : Word := BitVec.ofNat 32 (match src with
      | .fp64 => (fp64.conv fp32 a).bits
      | .int32 => (fp32.ofInt32 a).bits
      | _ => a)
    match dst with
    | .bf16 => some (.bf16, stoch, w)
    | .fp16 => some (.fp16, stoch, w)
    | _ => none
  | _ => none

/-- An INVALID that IEEE 754 leaves open is a free choice. -/
def settleFlags (fl : Flags) (a b : Nat) : Flags :=
  if fl / 256 % 2 = 1 then (fl % 256) ||| ((Config.fuResult (2 ^ 41 + b) (BitVec.ofNat 32 a)).toNat % 2) else fl

/-! ## A vector through the stages -/

/-- What a chain gathers as it runs: flags, totals, the core's generator. -/
structure VRun where
  flags : Flags := 0
  tally : Tally := {}
  gen : DWord
deriving DecidableEq, Repr

/-- Convert into 16 bits: the stored code, and the run after it (R97, R98, R177). -/
def VRun.short (v : VRun) (r : ShortRule) (stoch : Bool) (w : Word) : Nat × VRun :=
  let (e, g) := encode16 r.fmt w r.ovfInf r.flush (if stoch then some v.gen else none)
  (e.code, { v with tally := v.tally.add (encTally r.fmt e), gen := g.getD v.gen })

/-- One stage over the elements of a vector, in ascending order; a masked element is not computed. -/
def runStage (f : FpFmt) (rule : Fmt → ShortRule) (o : VOp) (mask : BitVec 256) (opnd : Nat → (Nat × Nat × Nat) × Nat)
    (v : VRun) (i : Nat) : Nat → List Nat × VRun
  | 0 => ([], v)
  | n + 1 =>
    if mask.getLsbD i then
      let ((a, b, c), fl) := opnd i
      let v1 : VRun := { v with tally := v.tally.add { flush := fl, fmt := if fl = 0 then 0 else 1 } }
      match shortTarget o a with
      | some (g, stoch, w) =>
        let (code, v2) := v1.short (rule g) stoch w
        let (rest, v3) := runStage f rule o mask opnd v2 (i + 1) n
        ((decode16 g code).toNat :: rest, v3)
      | none =>
        let r := stageOp f o a b c
        let (rest, v3) := runStage f rule o mask opnd { v1 with flags := v1.flags ||| settleFlags r.flags a b } (i + 1) n
        (r.bits :: rest, v3)
    else
      let (rest, v3) := runStage f rule o mask opnd v (i + 1) n
      (0 :: rest, v3)

/-- Operands an operation has: stages with fewer operands read nothing for the others. -/
def arity : VOp → Nat
  | .fma | .fms | .sel => 3
  | .abs | .neg | .copy | .iabs | .ineg | .icopy | .not | .sqrt | .fu _ | .cvt _ _ _ => 1
  | _ => 2

/-- The format in which a stage reads its operands where they are stored: that of the chain, or the source format of a conversion. -/
def readFmt (c : VChain) : VOp → VFmt
  | .cvt .fp32 _ _ | .cvt .int32 _ _ => .fp32
  | .cvt .fp64 _ _ => .fp64
  | .cvt .bf16 _ _ => .bf16
  | .cvt .fp16 _ _ => .fp16
  | _ => c.fmt

/-- Whether a stage's result is 64 bits wide. -/
def resultWide (c : VChain) : VOp → Bool
  | .cvt _ d _ => decide (d = .fp64)
  | _ => decide (c.fmt = .fp64)

/-- A value carried between 32 and 64 bits, exactly when it widens. -/
def carryWidth (wide want : Bool) (x : Nat) : Nat :=
  if wide = want then x else if want then (fp32.conv fp64 x).bits else (fp64.conv fp32 x).bits

/-- The value of one operand, read in format `f`, and the flush of its read; an earlier result comes at the width that is wanted. -/
def State.operand (s : State) (core : Nat) (c : VChain) (f : VFmt) (done : List (List Nat)) (src : VSrc) (j i : Nat) :
    Nat × Bool :=
  match src with
  | .stage k =>
    let wide := ((c.stages[k]?).map fun st => resultWide c st.op).getD false
    (carryWidth wide (decide (f = .fp64)) ((done.getD k []).getD i 0), false)
  | .colIdx base => ((base + BitVec.ofNat 32 j).toNat, false)
  | _ => readElem f (s.shortRule c.cls (shortFmt f)) (s.rawSource core c f src j i)

/-- Run every stage of a chain at a position; the results of the stages so far are `done`. -/
def State.runStages (s : State) (core : Nat) (c : VChain) (mask : BitVec 256) (j : Nat) (v : VRun)
    (done : List (List Nat)) : List VStage → List (List Nat) × VRun
  | [] => (done, v)
  | st :: sts =>
    let f := readFmt c st.op
    let opnd := fun i =>
      let a := s.operand core c f done st.a j i
      let b := if 2 ≤ arity st.op then s.operand core c f done st.b j i else (0, false)
      let d := if 3 ≤ arity st.op then s.operand core c f done st.c j i else (0, false)
      ((a.1, b.1, d.1), a.2.toNat + b.2.toNat + d.2.toNat)
    let (out, v') := runStage (calcFmt c.fmt) (s.shortRule c.cls) st.op mask opnd v 0 (lanesOf c.fmt)
    State.runStages s core c mask j v' (done ++ [out]) sts

/-- The operand of a reduction over the elements of a vector (R178), with the flushes of its reads. -/
def State.reduceInput (s : State) (core : Nat) (c : VChain) (src : VSrc) (mask : BitVec 256) (j : Nat) (done : List (List Nat))
    (v : VRun) : List Nat × VRun :=
  let xs := (List.range (lanesOf c.fmt)).map fun i => s.operand core c c.fmt done src j i
  let fl := (xs.zipIdx.filter fun e => e.1.2 && mask.getLsbD e.2).length
  (xs.map Prod.fst, { v with tally := v.tally.add { flush := fl, fmt := if fl = 0 then 0 else 1 } })

/-! ## Writing a vector -/

/-- The format of a chain's stored results: the 16-bit format that the final write converts to, that of a conversion that ends the
chain, else the chain's own (R177, R178). -/
def storeFmt (c : VChain) : VFmt :=
  match c.final with
  | some .fp16 => .fp16
  | some _ => .bf16
  | none =>
    match (c.stages.getLast?).map VStage.op with
    | some (.cvt _ .bf16 _) => .bf16
    | some (.cvt _ .fp16 _) => .fp16
    | some (.cvt _ .fp32 _) | some (.cvt _ .int32 _) => if isShort c.fmt then c.fmt else .fp32
    | some (.cvt _ .fp64 _) => if isShort c.fmt then c.fmt else .fp64
    | _ => c.fmt

/-- The stored bits of a result of a given width: converted where 16 bits are stored (rule N of R93). -/
def State.finalBits (s : State) (c : VChain) (f : VFmt) (wide : Bool) (v : VRun) (x : Nat) : Nat × VRun :=
  if isShort f then v.short (s.shortRule c.cls (shortFmt f)) c.stochastic (BitVec.ofNat 32 (carryWidth wide false x))
  else (carryWidth wide (decide (f = .fp64)) x, v)

/-- The stored bits of a vector under its mask: none where the destination keeps its value (R180). -/
def State.finalVector (s : State) (c : VChain) (mask : BitVec 256) (wide : Bool) (v : VRun) (i : Nat) :
    List Nat → List (Option Nat) × VRun
  | [] => ([], v)
  | x :: xs =>
    if mask.getLsbD i then
      let (b, v1) := s.finalBits c (storeFmt c) wide v x
      let (rest, v2) := State.finalVector s c mask wide v1 (i + 1) xs
      (some b :: rest, v2)
    else
      let (rest, v2) := State.finalVector s c mask wide v (i + 1) xs
      ((if c.zero then some 0 else none) :: rest, v2)

/-- Write raw elements of a register, skipping those kept. -/
def State.writeReg (s : State) (f : VFmt) (core n i : Nat) : List (Option Nat) → State
  | [] => s
  | some b :: bs => State.writeReg (s.setElem f core n i b) f core n (i + 1) bs
  | none :: bs => State.writeReg s f core n (i + 1) bs

/-- Write raw elements of a tile-buffer vector. -/
def State.writeBuf (s : State) (f : VFmt) (core b vec i : Nat) : List (Option Nat) → State
  | [] => s
  | none :: bs => State.writeBuf s f core b vec (i + 1) bs
  | some x :: bs =>
    let lane := fun l => storeGet 0 s.ve.bufs (bufKey core b vec l)
    let bufs := (putElem f lane i x).foldl (fun m l => storeSet 0 m (bufKey core b vec l.1) l.2) s.ve.bufs
    State.writeBuf { s with ve := { s.ve with bufs := bufs } } f core b vec (i + 1) bs

/-- Write raw elements of a scratchpad stream. -/
def State.writeStream (s : State) (f : VFmt) (core offset i : Nat) : List (Option Nat) → State
  | [] => s
  | none :: bs => State.writeStream s f core offset (i + 1) bs
  | some x :: bs =>
    State.writeStream (s.devWrite .scheduled (spadAddr core (offset + elemBytes f * i)) (leBytes (elemBytes f) x)) f core offset
      (i + 1) bs

/-- A mask with the bits of a predicate where the governing mask is set. -/
def putMask (old mask : BitVec 256) (zero : Bool) (ps : List Nat) : BitVec 256 :=
  BitVec.ofNat 256 ((List.range 256).foldl (fun a i =>
    a + (if mask.getLsbD i then decide (ps.getD i 0 ≠ 0) else !zero && old.getLsbD i).toNat * 2 ^ i) 0)

/-! ## Reductions (R181 to R184) -/

/-- Combine two values. -/
def redOp (f : FpFmt) (int : Bool) (o : RedOp) (a b : Nat) : FRes :=
  match o with
  | .rsum => if int then ⟨(a + b) % 2 ^ 32, 0⟩ else f.add a b
  | .rprod => if int then ⟨ofI (toI a * toI b), 0⟩ else f.mul a b
  | .rmax => if int then ⟨if toI a < toI b then b else a, 0⟩ else f.max a b
  | .rmin => if int then ⟨if toI b < toI a then b else a, 0⟩ else f.min a b
  | .rand => ⟨Nat.land a b, 0⟩
  | .ror => ⟨Nat.lor a b, 0⟩
  | .argmax | .argmin => ⟨a, 0⟩

/-- The result over no elements (R183). -/
def redIdentity (f : FpFmt) (int : Bool) : RedOp → Nat
  | .rsum => 0
  | .rprod => if int then 1 else (2 ^ (f.eb - 1) - 1) * 2 ^ f.mb
  | .rmax | .argmax => if int then 2 ^ 31 else f.sign true + f.inf
  | .rmin | .argmin => if int then 2 ^ 31 - 1 else f.inf
  | .rand => 2 ^ 32 - 1
  | .ror => 0

/-- An arg reduction. -/
def isArg : RedOp → Bool
  | .argmax | .argmin => true
  | _ => false

/-- The value an arg reduction orders by: a NaN wins, −0 lies below +0 (R184). -/
def argKey (o : RedOp) (int : Bool) (a : Nat) : Int :=
  if int then (if o = .argmin then -toI a else toI a)
  else if fp32.isNan a then 2 ^ 33
  else if o = .argmin then -fp32.totalKey a else fp32.totalKey a

/-- A candidate of a reduction: its value, its index, the flags on the way. -/
structure Cand where
  val : Nat
  ix : Nat
  flags : Flags := 0
deriving DecidableEq, Repr

/-- Combine two candidates; a masked element contributes nothing. -/
def combine (f : FpFmt) (r : Reduction) (x y : Option Cand) : Option Cand :=
  match x, y with
  | none, z => z
  | z, none => z
  | some a, some b =>
    if isArg r.op then
      let w := if argKey r.op r.int a.val < argKey r.op r.int b.val ∨
          (argKey r.op r.int a.val = argKey r.op r.int b.val ∧ b.ix < a.ix) then b else a
      some { w with flags := a.flags ||| b.flags }
    else
      let z := redOp f r.int r.op a.val b.val
      some ⟨z.bits, a.ix, a.flags ||| b.flags ||| z.flags⟩

/-- One level of the tree: neighbours in pairs. -/
def treeLevel (f : FpFmt) (r : Reduction) : List (Option Cand) → List (Option Cand)
  | a :: b :: cs => combine f r a b :: treeLevel f r cs
  | cs => cs

/-- `n` levels. -/
def treeLevels (f : FpFmt) (r : Reduction) : Nat → List (Option Cand) → List (Option Cand)
  | 0, cs => cs
  | n + 1, cs => treeLevels f r n (treeLevel f r cs)

/-- Levels of a reduction over one vector, and over a tile stream, where a 16-bit vector keeps its two columns. -/
def levelsOf (f : VFmt) (whole : Bool) : Nat :=
  match f with
  | .fp32 => 7 | .fp64 => 6 | .bf16 | .fp16 => if whole then 7 else 8

/-- The candidates of a vector's elements; a NaN is made quiet as it enters (R176). -/
def candidatesOf (f : FpFmt) (r : Reduction) (mask : BitVec 256) (ix : Nat → Nat) (xs : List Nat) : List (Option Cand) :=
  xs.zipIdx.map fun e =>
    if mask.getLsbD e.2 then
      some ⟨if !r.int && f.isNan e.1 then f.quiet e.1 else e.1, ix e.2, if r.int then 0 else f.snanFlag [e.1]⟩
    else none

/-- Raise flags of a core (R185). -/
def State.veFlag (s : State) (core : Nat) (fl : Nat) : State :=
  s.orReg (bankKey Reg.VE_FLAGS core) (BitVec.ofNat 64 fl)

/-- Write the result of a reduction to element `e` of its register: identity and EMPTY for none, the index as INT32 to the next
register (R183, R184). -/
def State.writeResult (s : State) (c : VChain) (core n : Nat) (r : Reduction) (e : Nat) (x : Option Cand) (v : VRun) :
    State × VRun :=
  let f := calcFmt c.fmt
  let sf : VFmt := match c.final with | some .fp16 => .fp16 | some _ => .bf16 | none => c.fmt
  let val := (x.map Cand.val).getD (redIdentity f r.int r.op)
  let v1 : VRun := { v with flags := v.flags ||| (x.map Cand.flags).getD 32 }
  let (b, v2) := if r.int then (val, v1) else s.finalBits c sf (decide (c.fmt = .fp64)) v1 val
  let s1 := s.setElem (if r.int then .fp32 else sf) core n e b
  if isArg r.op then
    let ix := (x.map Cand.ix).getD 0xFFFF
    let far := x.isSome && decide (65533 < ix) && r.along
    (s1.setLanes core (n + 1) [(e, BitVec.ofNat 32 (if far then 0xFFFE else ix))],
      if far then { v2 with flags := v2.flags ||| 64 } else v2)
  else (s1, v2)

/-- Write a list of results from element `e` upward. -/
def State.writeResults (s : State) (c : VChain) (core n : Nat) (r : Reduction) (e : Nat) (v : VRun) :
    List (Option Cand) → State × VRun
  | [] => (s, v)
  | x :: xs =>
    let (s1, v1) := s.writeResult c core n r e x v
    State.writeResults s1 c core n r (e + 1) v1 xs

/-- The accumulator of an along reduction before a chain: empty at its start, else the register's values (R182), with the flushes
of its reads. -/
def State.accumulators (s : State) (c : VChain) (core n : Nat) (r : Reduction) : List (Option Cand) × Tally :=
  let rule := s.shortRule c.cls (shortFmt c.fmt)
  if r.start then ((List.range (lanesOf c.fmt)).map fun _ => none, {})
  else
    let xs := (List.range (lanesOf c.fmt)).map fun i =>
      (readElem c.fmt rule (laneElem c.fmt (s.vreg core n) i), (s.vreg core (n + 1) i).toNat)
    let fl := (xs.filter fun x => x.1.2).length
    (xs.map fun x => if isArg r.op ∧ x.2 = 0xFFFF then none else some ⟨x.1.1, if isArg r.op then x.2 else 0, 0⟩,
      { flush := fl, fmt := if fl = 0 then 0 else 1 })

/-- Combine a vector into the accumulators, lane by lane. -/
def alongStep (f : FpFmt) (r : Reduction) (acc xs : List (Option Cand)) : List (Option Cand) :=
  (acc.zip xs).map fun p => combine f r p.1 p.2

/-! ## Chains -/

/-- What a chain carries from position to position. -/
structure ChainRun where
  s : State
  v : VRun
  acc : List (Option Cand) := []
  touched : BitVec 256 := 0
  staged : List (List (Option Nat)) := []
deriving DecidableEq, Repr

/-- The register of a reduction or of a plain write. -/
def destReg : VDest → Nat
  | .reg n => n
  | _ => 0

/-- One position of a chain: stages, then the destination. A result wider than the chain's elements goes on in the next register,
buffer vector or bytes (DESIGN CHOICE, log 17). -/
def chainAt (core : Nat) (c : VChain) (base : Nat) (x : ChainRun) (j : Nat) : ChainRun :=
  let mask := x.s.vmask core c.mask
  let (done, v1) := x.s.runStages core c mask j x.v [] c.stages
  let last := done.getLast?.getD []
  let wide := ((c.stages.getLast?).map fun st => resultWide c st.op).getD false
  match c.red with
  | some r =>
    let f := calcFmt c.fmt
    let (input, v1) := x.s.reduceInput core c r.src mask j done v1
    if r.along then
      { x with v := v1, touched := x.touched ||| mask,
               acc := alongStep f r x.acc (candidatesOf f r mask (fun _ => base + j) input) }
    else
      let out := treeLevels f r (levelsOf c.fmt c.whole) (candidatesOf f r mask id input)
      let e := if !c.whole then 0 else if isShort c.fmt then 2 * tileColumn c.fmt j else tileColumn c.fmt j
      let (s2, v2) := x.s.writeResults c core (destReg c.dst) r e v1 out
      { x with s := s2, v := v2 }
  | none =>
    match c.dst with
    | .mask k => { x with s := x.s.setMask core k (putMask (x.s.vmask core k) mask c.zero last), v := v1 }
    | .reg n =>
      let (bs, v2) := x.s.finalVector c mask wide v1 0 last
      { x with s := x.s.writeReg (storeFmt c) core n 0 bs, v := v2 }
    | .tileBuf b first =>
      let (bs, v2) := x.s.finalVector c mask wide v1 0 last
      { x with s := x.s.writeBuf (storeFmt c) core b ((first + j) % 128) 0 bs, v := v2 }
    | .stream offset =>
      let (bs, v2) := x.s.finalVector c mask wide v1 0 last
      { x with s := x.s.writeStream (storeFmt c) core (offset + lanesOf c.fmt * elemBytes (storeFmt c) * j) 0 bs, v := v2 }
    | .stage _ | .classS _ _ =>
      let (bs, v2) := x.s.finalVector c mask wide v1 0 last
      { x with v := v2, staged := x.staged ++ [bs] }

/-- An empty lane's bit of an along reduction: every element masked since the accumulator started (R183). -/
def emptyBits (start : Bool) (old touched : BitVec 256) : BitVec 256 := if start then ~~~touched else old &&& ~~~touched

/-- End an along reduction: the accumulators, the empty mask, the vectors counted since the start. -/
def finishAlong (core : Nat) (c : VChain) (r : Reduction) (base : Nat) (x : ChainRun) : ChainRun :=
  let n := destReg c.dst
  let (s1, v1) := x.s.writeResults c core n r 0 x.v x.acc
  let s2 := s1.setMask core r.emptyMask (emptyBits r.start (s1.vmask core r.emptyMask) x.touched)
  { x with s := { s2 with ve := { s2.ve with since := storeSet 0 s2.ve.since (core * 32 + n) (base + c.count) } },
           v := v1 }

/-- The value at row `r`, column `j` of the tile that begins `first` columns into a stream, in its place of the staging buffer; a
kept element is the staged word from before. -/
def stagedWord (s : State) (place : Nat) (cols : List (List (Option Nat))) (r j : Nat) : Word :=
  match (cols.getD j []).getD r none with
  | some b => BitVec.ofNat 32 b
  | none => BitVec.ofNat 32 (s.opNat (place + 4 * (64 * r + j)) 4)

/-- One tile of an STS chain: staged with survey, non-finite check and completion (R187). -/
def State.stageStore (s : State) (core : Nat) (p : StagePlace) (cols : List (List (Option Nat))) : State :=
  let te := s.entryOf p.tensor
  let e := tileExtent te p.tile
  let ws := tileValues e.1 e.2 (stagedWord s (p.staging + 32768 * (p.tile % te.segTiles)) cols)
  match firstNonFinite ws with
  | some i => ((s.nfTile p.tensor p.tile core 0 i (ws.getD i 0)).veFlag core 128).stageTile p core ws (some i)
  | none => s.stageTile p core ws none

/-- The tiles of an STS chain, one after another: 64 columns each (R187). -/
def State.stageStores (s : State) (core : Nat) (p : StagePlace) (cols : List (List (Option Nat))) : Nat → State
  | 0 => s
  | n + 1 =>
    (State.stageStores s core p cols n).stageStore core { p with tile := p.tile + n } ((cols.drop (64 * n)).take 64)

/-- A number as a Class S element: FP32 widened exactly, FP64 as it is (R269). -/
def classSNumber (f : VFmt) (b : Nat) : DWord :=
  BitVec.ofNat 64 (match f with
    | .fp64 => b
    | .fp32 => (fp32.conv fp64 b).bits
    | .bf16 => (bf16.conv fp64 b).bits
    | .fp16 => (fp16.conv fp64 b).bits)

/-- Elements bound for Class S (R269): an INT32 value enters INT64 with its value; the upper half of a mask that a 32-bit
word gives is a free value. -/
def classSElems (f : VFmt) (e : SElem) (bs : List (Option Nat)) : List DWord :=
  (bs.take 32).map fun b =>
    let w := BitVec.ofNat 32 (b.getD 0)
    match e with
    | .number => classSNumber f (b.getD 0)
    | .int => w.signExtend 64
    | .mask => Config.maskUpper w ++ w

/-- Words that a drain wrote in the cycle of a chain's write: the drain's value is kept (R172). -/
def State.collisions (s : State) (core : Nat) : List (Nat × Word) → State
  | [] => s
  | (o, w) :: rest =>
    State.collisions ((s.devWrite .scheduled (spadAddr core o) (leBytes 4 w.toNat)).event Reg.VE_EVENT 2) core rest

/-- A chain uses a tile buffer. -/
def usesBuf (c : VChain) : Bool :=
  let src : VSrc → Bool := fun x => match x with | .tileBuf _ _ => true | _ => false
  (match c.dst with | .tileBuf _ _ => true | _ => false) || c.stages.any fun st => src st.a || src st.b || src st.c

/-- The counters of a chain (R191). -/
def State.countChain (s : State) (core : Nat) (c : VChain) (v : VRun) : State :=
  let s1 := (((s.count (bankKey Reg.VE_CHAINS core) 64 1).count (bankKey Reg.VE_STALL core) 64 c.stall).count
    (bankKey Reg.VE_WAIT core) 64 c.wait).count (bankKey Reg.VE_TILEBUF core) 64 (usesBuf c).toNat
  let s2 := (s1.count (bankKey Reg.VE_DRAWS core) 64 v.tally.draws).tally v.tally
  let s3 := ((((s2.bel64 (coreCnt core 19) 1).bel64 (coreCnt core 22) c.wait).bel64 (coreCnt core 23) c.stall).bel64 (coreCnt core 20)
    c.busy).bel64 (coreCnt core 21) c.fuBusy
  let s4 := s3.portShare core c.lost c.promoted
  (s4.bel64 (coreCnt core 24) v.tally.draws).veFlag core (v.flags % 256)

/-- What a chain carries at its first position. -/
def chainStart (s : State) (core : Nat) (c : VChain) : ChainRun :=
  let a := (c.red.map fun r => if r.along then s.accumulators c core (destReg c.dst) r else ([], {})).getD ([], {})
  { s := s, v := { gen := storeGet 0 s.seg.gens core, tally := a.2 }, acc := a.1 }

/-- The positions of a chain in order, then the end of an along reduction. -/
def chainBody (s : State) (core : Nat) (c : VChain) : ChainRun :=
  let base := if (c.red.map Reduction.start).getD true then 0 else storeGet 0 s.ve.since (core * 32 + destReg c.dst)
  let x := (List.range c.count).foldl (chainAt core c base) (chainStart s core c)
  match c.red with
  | some r => if r.along then finishAlong core c r base x else x
  | none => x

/-- What a chain gives to staging or to a Class S reduction. -/
def State.chainOut (s : State) (core : Nat) (c : VChain) (staged : List (List (Option Nat))) : State :=
  match c.dst with
  | .stage p => s.stageStores core p staged ((staged.length + 63) / 64)
  | .classS plot e => s.contribute plot core (classSElems (storeFmt c) e (staged.getD 0 []))
  | _ => s

/-- Run a chain whose ready count has been reached (R178). -/
def State.runChain (s : State) (core : Nat) (c : VChain) : State :=
  let x := chainBody s core c
  (((x.s.setGen core (some x.v.gen)).chainOut core c x.staged).collisions core c.collide).countChain core c x.v

/-- What an issue waits on has been signalled (R172). -/
def State.ready (s : State) (core : Nat) : VeIssue → Bool
  | .chain c =>
    match c.ready with
    | some (i, n) => decide (n ≤ storeGet 0 s.ve.ready (core * 64 + i.val))
    | none => true
  | _ => true

/-- A mask operation or a combination counts as a chain, since every instruction of the engine is one (R178; DEDUCED). -/
def State.countMaskOp (s : State) (core : Nat) : State :=
  (s.count (bankKey Reg.VE_CHAINS core) 64 1).bel64 (coreCnt core 19) 1

/-- Run one issue of a core (R173, R178). -/
def State.runIssue (s : State) (core : Nat) : VeIssue → State
  | .chain c => s.runChain core c
  | .kand d a b => (s.setMask core d (s.vmask core a &&& s.vmask core b)).countMaskOp core
  | .kor d a b => (s.setMask core d (s.vmask core a ||| s.vmask core b)).countMaskOp core
  | .knot d a => (s.setMask core d (~~~(s.vmask core a))).countMaskOp core
  | .kld d offset => (s.setMask core d (BitVec.ofNat 256 (s.opNat (spadAddr core offset) 32))).countMaskOp core
  | .kst a offset => (s.devWrite .scheduled (spadAddr core offset) (leBytes 32 (s.vmask core a).toNat)).countMaskOp core
  | .combine c => (s.combineExperts c).countMaskOp core

/-- The issues that wait on a core, in issue order (R172, R178). -/
def State.veWaiting (s : State) (core : Nat) : List VeIssue := storeGet [] s.ve.waiting core

/-- Replace the issues that wait on a core. -/
def State.setVeWaiting (s : State) (core : Nat) (q : List VeIssue) : State :=
  { s with ve := { s.ve with waiting := storeSet [] s.ve.waiting core q } }

/-- Run the waiting issues of a core, in order, up to one whose producer has not signalled. -/
def State.issueWaiting (s : State) (core : Nat) : List VeIssue → State
  | [] => s.setVeWaiting core []
  | i :: is => if s.ready core i then State.issueWaiting (s.runIssue core i) core is else s.setVeWaiting core (i :: is)

/-- A drain advances a ready count of a core, and the chains that waited for it run (R172). -/
def State.readyUp (s : State) (core i n : Nat) : State :=
  let k := core * 64 + i
  let s1 : State := { s with ve := { s.ve with ready := storeSet 0 s.ve.ready k (storeGet 0 s.ve.ready k + n) } }
  s1.issueWaiting core (s1.veWaiting core)

/-- VECTOR_CHAIN (R172, R178): chains issue in pattern order; one whose producer has not signalled waits, and those behind it. -/
def execVectorChain (core : Fin 128) (issue : VeIssue) (s : State) : Host.Outcome State Fault Refusal :=
  .next (s.issueWaiting core (s.veWaiting core ++ [issue]))

/-! ## Self-test and clears (R190, R191) -/

/-- VE_TEST_START. -/
def execVeTestStart (s : State) : Host.Outcome State Fault Refusal := .next (s.onHost fun s => s.requestTest .vector)

/-- Record failed engines: VE_FAIL bit and a UNIT_FAIL record each. -/
def State.failVectors (s : State) : List (Fin 128) → State
  | [] => s
  | e :: es =>
    State.failVectors ((s.setBit (Reg.VE_FAIL + 4 * (e.val / 32)) (e.val % 32) true).ledgerEvent 0x07 0 e.val 2 []) es

/-- VE_TEST_DONE (R190). -/
def execVeTestDone (failed : List (Fin 128)) (s : State) : Host.Outcome State Fault Refusal :=
  if s.testStatus .vector ≠ 1 then .next s else
  let n := failed.length
  let s1 := ((s.endTest .vector (decide (0 < n))).setFld Reg.VE_TEST_CTRL 15 8 (min n 128)).failVectors failed
  let s2 := s1.event Reg.VE_EVENT 0
  .next (if 0 < n then s2.event Reg.VE_EVENT 1 else s2)

/-- The per-core counters that VE_STAT_CTRL.CLR resets. -/
def veCounters : List Nat := [Reg.VE_CHAINS, Reg.VE_STALL, Reg.VE_WAIT, Reg.VE_TILEBUF, Reg.VE_DRAWS]

/-- What VE_STAT_CLR resets, with the events of its cycle (R439). -/
def State.veClr (s : State) (same : List (Nat × Nat)) : State :=
  (s.zeroBanks veCounters).sameCycle (sameIn veCounters same)

/-- VE_STAT_CLR. -/
def execVeStatClr (same : List (Nat × Nat)) (s : State) : Host.Outcome State Fault Refusal :=
  .next (s.onHost fun s => s.veClr same)

/-- What VE_FLAGS_CLR resets, with the events of its cycle (R439). -/
def State.veFlagsClr (s : State) (same : List (Nat × Nat)) : State :=
  (s.zeroBanks [Reg.VE_FLAGS]).sameCycle (sameIn [Reg.VE_FLAGS] same)

/-- VE_FLAGS_CLR: a flag set in the same cycle reads 1. -/
def execVeFlagsClr (same : List (Nat × Nat)) (s : State) : Host.Outcome State Fault Refusal :=
  .next (s.onHost fun s => s.veFlagsClr same)

end Sys2Proof.Machine
end

