-- ==== Sys2Proof/Machine/Update.lean ====
section
/-! DEFINITION. Update units: slabs and the other slab's life (R237 to R241), the step's coefficients (R245), the rules
(R247 to R249), the refresh (R250, R251), frozen and non-finite updates (R252, R253), scaled writes (R118). -/

namespace Sys2Proof.Machine

/-! ## FP64 shorthands -/

/-- FP64 sum. -/
def addD (a b : DWord) : DWord := BitVec.ofNat 64 (fp64.add a.toNat b.toNat).bits
/-- FP64 difference. -/
def subD (a b : DWord) : DWord := BitVec.ofNat 64 (fp64.sub a.toNat b.toNat).bits
/-- FP64 product. -/
def mulD (a b : DWord) : DWord := BitVec.ofNat 64 (fp64.mul a.toNat b.toNat).bits
/-- FP64 quotient. -/
def divD (a b : DWord) : DWord := BitVec.ofNat 64 (fp64.div a.toNat b.toNat).bits
/-- FP64 square root. -/
def sqrtD (a : DWord) : DWord := BitVec.ofNat 64 (fp64.sqrt a.toNat).bits
/-- FP64 minimum. -/
def minD (a b : DWord) : DWord := BitVec.ofNat 64 (fp64.min a.toNat b.toNat).bits
/-- FP32 widened to FP64. -/
def wideD (a : Word) : DWord := BitVec.ofNat 64 (fp32.conv fp64 a.toNat).bits
/-- FP64 rounded to FP32. -/
def narrowD (a : DWord) : Word := BitVec.ofNat 32 (fp64.conv fp32 a.toNat).bits
/-- An integer as FP64. -/
def natD (n : Nat) : DWord := BitVec.ofNat 64 (fp64.round ⟨false, n, 0⟩).bits
/-- FP64 one. -/
def oneD : DWord := 0x3FF0000000000000
/-- FP32 one. -/
def oneF : Word := 0x3F800000

/-! ## Epoch records and coefficients (R241, R245) -/

/-- The epoch record's address in a slab. -/
def recordAddr (u : UpdateSection) (slabB : Bool) : Nat := if slabB then u.recB else u.recA

/-- VALID of the current slab's epoch record. -/
def State.recordValid (s : State) : Bool :=
  match s.updSec? with
  | some u => (s.opNat (recordAddr u s.upd.slabB + 0x20) 4).testBit 0
  | none => false

/-- gnorm of the current slab's epoch record. -/
def State.recordNorm (s : State) : Word :=
  match s.updSec? with
  | some u => BitVec.ofNat 32 (s.opNat (recordAddr u s.upd.slabB + 0x18) 4)
  | none => 0

/-- The learning rate of a set at step number t, in FP64 (R245). -/
def lrOf (u : UpdateSet) (t : Nat) : DWord :=
  let peak := wideD u.lrPeak
  let floor := wideD u.lrFloor
  if t ≤ u.warmup then divD (mulD peak (natD t)) (natD u.warmup)
  else
    let p := minD oneD (divD (natD (t - u.warmup)) (natD (u.total - u.warmup)))
    if u.shape = 0 then peak
    else if u.shape = 1 then addD floor (mulD (subD peak floor) (subD oneD p))
    else addD floor (mulD (mulD (subD peak floor) 0x3FE0000000000000)
      (addD oneD (Config.cos64 (mulD 0x400921FB54442D18 p))))

/-- clip in FP64, and whether no record limits it (R245). -/
def State.clipOf (s : State) (u : UpdateSection) : DWord × Bool :=
  if magF u.clipNorm = 0 ∨ s.recordValid = false then (oneD, true)
  else (minD oneD (divD (wideD u.clipNorm) (addD (wideD s.recordNorm) 0x3EB0C6F7A0B5ED8D)), false)

/-- The start of a step: t, lr and clip, the accumulators at zero (R245). UPD_LR shows the first update set's rate. -/
def State.stepCoefficients (s : State) : State :=
  match s.updSec? with
  | none => s
  | some u =>
    let t := s.upd.epoch + 1 + u.stepOffset
    let (c, none_) := s.clipOf u
    let lr := (u.sets[0]?.map fun x => narrowD (lrOf x t)).getD 0
    let s1 : State := { s with
      upd := { s.upd with t := t, clip := c, norms := [], nfStep := false, segs := [],
                            refreshed := false, waiting := [] } }
    let s2 := ((s1.setRegN Reg.UPD_T t).setRegN Reg.UPD_LR lr.toNat).setRegN Reg.UPD_CLIP (narrowD c).toNat
    let s3 := if none_ then s2.orReg Reg.UPD_STICKY 16 else s2
    if fp64.key c.toNat < fp64.key oneD.toNat then s3.orReg Reg.UPD_STICKY 8 else s3

/-- The first update write of a step makes the other slab WRITING, with the step's step_id (R240). -/
def State.writing (s : State) : State :=
  { s with upd := { s.upd with shadow := .writing, shadowStep := s.stepId } }

/-- The epoch record of R241, written into the other slab. -/
def State.writeRecord (s : State) (gnorm : Word) : State :=
  match s.updSec? with
  | none => s
  | some u =>
    let clipped := decide (fp64.key s.upd.clip.toNat < fp64.key oneD.toNat)
    s.writing.devWrite .update (recordAddr u (!s.upd.slabB))
      (leBytes 8 (s.upd.epoch + 1) ++ leBytes 8 s.stepId ++ leBytes 8 s.upd.t ++ leBytes 4 gnorm.toNat ++
        leBytes 4 (s.regN Reg.UPD_LR) ++ leBytes 4 (1 + 2 * clipped.toNat) ++ leBytes 28 0)

/-- An update unit found a non-finite value (R253). -/
def State.updNonFinite (s : State) (tensor unit : Nat) : State :=
  let s1 := s.orReg Reg.UPD_STICKY 2
  let s2 := if s1.upd.nfStep then s1
    else ({ s1 with upd := { s1.upd with nfStep := true } } : State).count Reg.UPD_NF_COUNT 32 1
  let s3 := if s2.bit Reg.UPD_NF_TENSOR 31 then s2
    else s2.setRegN Reg.UPD_NF_TENSOR (tensor % 65536 + 65536 * unit + 2 ^ 31)
  s3.spoil 4

/-! ## Reading and writing a tensor's block -/

/-- A segment of a scaled tensor in the copy that is read, or in the other one (R237, R239): its class's first rung. -/
def State.updRef (s : State) (seg : Nat) (r : ScaledRef) (update : Bool) : SegRef :=
  s.segRef r.tensor seg 0 update (.tensor r.elems r.scales)

/-- Decode `n` elements from index `first` (R86, eyelets included), with what the reads count. -/
def State.readScaled (s : State) (seg : Nat) (r : ScaledRef) (first n : Nat) : List Word × Tally :=
  let v := s.updRef seg r false
  let o := s.openSeg v
  let cs := (List.range n).map fun i => s.cellAt v o (first + i)
  let ds := cs.map fun c => c.1.decode
  (ds.map Prod.fst, ((Tally.sum (cs.map Prod.snd)).add (Tally.sum (ds.map Prod.snd))).add
    { qnt := if o.bad then 4 else 0 })

/-- Replace the code of one element. -/
def State.putCode (s : State) (f : Fmt) (elems i code : Nat) : State :=
  let b := i * fmtBits f
  let n := (b % 8 + fmtBits f + 7) / 8
  s.devWrite .update (elems + b / 8) (leBytes n (putBits (s.devNat (elems + b / 8) n) (b % 8) (fmtBits f) code))

/-- Write the codes of a block at their indices. -/
def State.putCodes (s : State) (v : SegRef) (b p : Nat) : List Nat → State
  | [] => s
  | c :: cs => State.putCodes (s.putCode v.fmt v.dest.elems (elemOf v.axisRows v.block b p) c) v b (p + 1) cs

/-- The segment scale of an update unit's write (R118). -/
def updScale (hint : Int) : Dy := if hint = -128 then ⟨false, 1, 0⟩ else ⟨false, 1, hint - 7⟩

/-- The lower of a recorded index and one that a block may add. -/
def mergeNf (old new : Option Nat) : Option Nat :=
  match new with
  | some i => minOpt old i
  | none => old

/-- The rule by which a unit writes a segment: its class's budget over the whole segment, its escape ratio and bits (R110, R118). -/
def State.updRule (s : State) (t seg : Nat) (f : Fmt) : SegRule :=
  let te := s.entryOf t
  match s.classFor t with
  | some fc => segRule fc f te.axisRows te.block (8192 * segTileCount te seg)
  | none => ⟨f, te.axisRows, te.block, 4, 0, false, false⟩

/-- A segment of the other slab as the step has written it so far. -/
def State.updSeg (s : State) (t seg : Nat) : UpdSeg := storeGet {} s.upd.segs (segKey t seg)

/-- The segment scale that a unit writes: from the HINT of the segment it replaces (R118). -/
def State.updScaleOf (s : State) (seg : Nat) (r : ScaledRef) : Dy := updScale (s.segHead (s.updRef seg r false).dest.header).hint

/-- Write one block of new values (R118): its codes and scale, and the segment's eyelets and survey so far. IF8 state
that saturates sets STATE_SAT (R253). -/
def State.writeBlock (s : State) (seg : Nat) (r : ScaledRef) (b : Nat) (vals : List (Option Word)) : State :=
  let v := s.updRef seg r true
  let st := s.updSeg r.tensor seg
  let full := s.updRule r.tensor seg v.fmt
  let rule : SegRule := { full with axisRows := false, budget := full.budget - st.eyelets.length }
  let y := surveyOf (vals.map fun x => x.getD 0)
  let c := convertScaled rule [y] (some (s.updScaleOf seg r)) vals none
  let eye := c.eyelets.map fun e => (elemOf v.axisRows v.block b e.1, e.2)
  let left := (blockSet rule (eyeletsFor rule [y]) 0 y).m
  let nf := (vals.findIdx? fun x => !finF (x.getD 0)).map (elemOf v.axisRows v.block b)
  let st' : UpdSeg :=
    { m := if st.m.toNat < left.toNat then left else st.m, eyelets := st.eyelets ++ eye,
      dominant := st.dominant || c.budgetOut, nf := mergeNf st.nf nf, blocks := st.blocks + 1 }
  let s1 := (s.putCodes v b 0 c.codes).devWrite .update (v.dest.scales + b) (c.scales.map (BitVec.ofNat 8))
  let s2 := ({ s1 with upd := { s1.upd with segs := storeSet {} s1.upd.segs (segKey r.tensor seg) st' } } : State).tally c.tally
  if v.fmt = .if8 ∧ 0 < c.tally.sat then s2.orReg Reg.UPD_STICKY 4 else s2

/-- Stored blocks of a segment. -/
def State.segBlocks (s : State) (t seg : Nat) : Nat :=
  let te := s.entryOf t
  let ext := segExtents te seg
  storedBlocks te.axisRows te.block (storedCount ext) ext.length

/-- Write the header and the eyelet list of a segment as they stand (R108, R118); SCALE_CLAMP is set when the whole segment has been
written and its c was raised (R114 step 5). -/
def State.writeHead (s : State) (seg : Nat) (r : ScaledRef) : State :=
  let v := s.updRef seg r true
  let st := s.updSeg r.tensor seg
  let es := st.eyelets.insertionSort fun a b => a.1 ≤ b.1
  let h := segScale v.fmt st.m
  let s1 := (s.devWrite .update v.dest.header (headBytes (roundF (s.updScaleOf seg r)) es.length h.1 st.dominant st.nf ++
    es.flatMap (eyeletBytes true))).setRung r.tensor seg 0
  if h.2.2 && decide (st.blocks = s.segBlocks r.tensor seg) then s1.orReg Reg.QNT_STICKY 1 else s1

/-- The stored blocks whose first element lies in a range of indices. -/
def blocksIn (v : SegRef) (first n : Nat) : List Nat :=
  (List.range ((first + n + 8191) / 8192 * (8192 / v.block))).filter fun b =>
    let i := elemOf v.axisRows v.block b 0
    decide (first ≤ i ∧ i < first + n ∧ i < v.count)

/-- Write every block of a range. -/
def State.writeBlocks (s : State) (seg : Nat) (r : ScaledRef) (first : Nat) (xs : List Word) : List Nat → State
  | [] => s
  | b :: bs =>
    let v := s.updRef seg r true
    let vals := ((List.range v.block).map fun p => elemOf v.axisRows v.block b p).filter (· < v.count) |>.map fun i =>
      xs[i - first]?
    State.writeBlocks (s.writeBlock seg r b vals) seg r first xs bs

/-- Write new values into a scaled tensor's other copy (R118, R239); a segment is counted when its first block is written, and its
first dominant block makes it one with BUDGET_OUT. -/
def State.writeScaled (s : State) (seg : Nat) (r : ScaledRef) (first : Nat) (xs : List Word) : State :=
  let old := s.updSeg r.tensor seg
  let s1 := (s.writeBlocks seg r first xs (blocksIn (s.updRef seg r true) first xs.length)).writeHead seg r
  let new := s1.updSeg r.tensor seg
  let s2 := if old.blocks = 0 ∧ new.blocks ≠ 0 then s1.count Reg.QNT_SEG_COUNT 64 1 else s1
  if new.dominant && !old.dominant then
    let s3 := s2.count Reg.QNT_BUDGET_OUT_COUNT 32 1
    if s3.bit Reg.QNT_OUT_TENSOR 31 then s3
    else ((s3.setRegN Reg.QNT_OUT_TENSOR (r.tensor % 65536 + 65536 + 2 ^ 31)).setRegN Reg.QNT_OUT_SEGMENT
      (seg % 2 ^ 32)).setRegN Reg.QNT_OUT_TICK s3.tick.now
  else s2

/-! ## Matrices (R249, R250) -/

/-- A cell that holds a value rounded to BF16 (R250). -/
def bfCell (w : Word) : Cell := ⟨0, 0, 1, 0, none, some (decode16 .bf16 (encode16 .bf16 w false false none).1.code)⟩

/-- Cut pairs into passes of the depth that a BF16 block holds (R147). -/
def passes : Nat → List (Cell × Cell) → List (List (Cell × Cell))
  | 0, _ => []
  | fuel + 1, ps =>
    match ps with
    | [] => []
    | _ :: _ => ps.take 32 :: passes fuel (ps.drop 32)

/-- A product of two matrices at BF16 with FP32 accumulation, in held mode under R150; `ys` gives the second one's columns. -/
def bfProduct (xs ys : List (List Word)) : List (List Word) :=
  xs.map fun x => ys.map fun y =>
    (passes (x.length + 1) ((x.map bfCell).zip (y.map bfCell))).foldl (heldOutput .bf16) 0

/-- Rows become columns. -/
def transposed (n : Nat) (xs : List (List Word)) : List (List Word) := flipCells 0 n xs

/-- Sum of FP32 values in order. -/
def sumF (ws : List Word) : Word := ws.foldl addF 0

/-- One level of the across tree of the vector engines. -/
def sumPairs : List Word → List Word
  | a :: b :: ws => addF a b :: sumPairs ws
  | ws => ws

/-- `n` levels. -/
def sumTree : Nat → List Word → List Word
  | 0, ws => ws
  | n + 1, ws => sumTree n (sumPairs ws)

/-- Frobenius norm (R249): squares added lane by lane along vectors of 128 elements, then the lanes across the tree (DESIGN CHOICE,
log 78: the order of the values and the last step). -/
def fnormF (ws : List Word) : Word :=
  let lanes := (chunksOf 128 (ws.length + 1) ws).foldl
    (fun acc v => (List.range 128).map fun i => match v[i]? with
      | some w => addF (acc.getD i 0) (mulF w w)
      | none => acc.getD i 0) (List.replicate 128 0)
  sqrtF ((sumTree 7 lanes).getD 0 0)

/-- An integer as FP32. -/
def natF (n : Nat) : Word := roundF ⟨false, n, 0⟩

/-! ## The gradient as it is staged (R90, R244) -/

/-- Element `i` of IW16 block `k` in a plot buffer, decoded exactly. -/
def State.gradient (s : State) (plot k i : Nat) : Word :=
  let a := plotBase (s.plot plot) + 66 * k
  roundF (wireValue (BitVec.ofNat 16 (s.opNat (a + 2 * i) 2)).toInt (s.opNat (a + 64) 1))

/-- The tiles that a rule 2 block touches, in order. -/
def blockTiles (te : TensorEntry) (g : GradBlock) (b : PreBlock) : List Nat :=
  (List.range (tileCount te)).filter fun t =>
    let r := t / tilesAcross te
    let c := t % tilesAcross te
    decide (g.row < 128 * r + 128 ∧ 128 * r < g.row + b.d ∧ g.col < 64 * c + 64 ∧ 64 * c < g.col + b.n)

/-- The whole of a rule 2 block's gradient has landed: 256 IW16 blocks for each tile that it touches. -/
def State.wholeStaged (s : State) (te : TensorEntry) (g : GradBlock) (b : PreBlock) (plot wire : Nat) : Bool :=
  (List.range (256 * (blockTiles te g b).length)).all fun i => (s.plot plot).landed.contains (wire + i)

/-- The gradient of a rule 2 block by row and column, scaled by `k` (R249). -/
def State.gradMatrix (s : State) (te : TensorEntry) (g : GradBlock) (b : PreBlock) (plot wire : Nat) (k : Word) : List (List Word) :=
  let tiles := blockTiles te g b
  (List.range b.d).map fun i => (List.range b.n).map fun j =>
    let p := orderOf te (g.row + i) (g.col + j)
    mulF k (s.gradient plot (wire + 256 * tiles.findIdx (· = p / 8192) + p % 8192 / 32) (p % 32))

/-- A `d` by `d` matrix of BF16 values in a tensor's current copy (R249, R251). -/
def State.rootMatrix (s : State) (t d : Nat) : List (List Word) :=
  (List.range d).map fun i => (List.range d).map fun j => (s.masterValue t (orderOf (s.entryOf t) i j)).1

/-- What reading it counts. -/
def State.rootTally (s : State) (t d : Nat) : Tally :=
  Tally.sum ((List.range (d * d)).map fun k => (s.masterValue t (orderOf (s.entryOf t) (k / d) (k % d))).2)

/-- A `d` by `d` matrix of FP32 values in a tensor's current copy (R249, R251). -/
def State.statMatrix (s : State) (t d : Nat) : List (List Word) :=
  (List.range d).map fun i => (List.range d).map fun j =>
    BitVec.ofNat 32 (s.opNat (s.copyBase t (s.entryOf t) false + 4 * orderOf (s.entryOf t) i j) 4)

/-- Write pieces one by one. -/
def State.writeAt (s : State) : List (Nat × List Byte) → State
  | [] => s
  | p :: ps => State.writeAt (s.devWrite .update p.1 p.2) ps

/-- Write a matrix into a tensor's other copy, each element in `n` bytes (R251). -/
def State.writeMatrix (s : State) (t n : Nat) (m : List (List Word)) (bytes : Word → List Byte) : State :=
  let te := s.entryOf t
  s.writeAt (m.zipIdx.flatMap fun r => r.1.zipIdx.map fun x => (s.copyBase t te true + n * orderOf te r.2 x.2, bytes x.1))

/-! ## The rules (R247 to R249) -/

/-- The coefficients of a set in this step, in FP32: k, lr, c1, c2 (R245, R247). -/
structure Coef where
  k : Word
  lr : Word
  c1 : Word
  c2 : Word
deriving DecidableEq, Repr

/-- The coefficients of a set. -/
def State.coef (s : State) (u : UpdateSet) : Coef :=
  let t := s.upd.t
  let lr := lrOf u t
  { k := narrowD (mulD (wideD u.gradScale) s.upd.clip), lr := narrowD lr,
    c1 := narrowD (divD lr (subD oneD (Config.pow64 (wideD u.b1) t))),
    c2 := narrowD (divD oneD (sqrtD (subD oneD (Config.pow64 (wideD u.b2) t)))) }

/-- The coefficients that a rule computes (R253). -/
def Coef.checks (c : Coef) (u : UpdateSet) : List Word := if u.rule = 0 then [c.k, c.lr, c.c1, c.c2] else [c.k, c.lr]

/-- What one element's rule gives: new state values, x1, and the values to be checked (R253). -/
structure RuleOut where
  st : List Word
  x1 : Word
  checks : List Word
deriving DecidableEq, Repr

/-- x0 − step − lr·wd·x0. -/
def applyStep (c : Coef) (u : UpdateSet) (x0 step : Word) : Word :=
  subF (subF x0 step) (mulF (mulF c.lr u.wd) x0)

/-- One element under rule 0, 1 or 2; `h` is the preconditioned gradient of rule 2. -/
def ruleElem (c : Coef) (u : UpdateSet) (st : List Word) (x0 graw h : Word) : RuleOut :=
  let g := mulF c.k graw
  if u.rule = 0 then
    let m0 := st.getD 0 0
    let r0 := st.getD 1 0
    let m := addF (mulF u.b1 m0) (mulF (subF oneF u.b1) g)
    let v := addF (mulF (mulF u.b2 r0) r0) (mulF (mulF (subF oneF u.b2) g) g)
    let r := sqrtF v
    let den := addF (mulF c.c2 r) u.eps
    let x1 := applyStep c u x0 (divF (mulF c.c1 m) den)
    ⟨[m, r], x1, [g, m, v, r, den, x1]⟩
  else
    let g' := if u.rule = 2 then h else g
    let x := addF (mulF u.b1 (st.getD 0 0)) g'
    let d := if u.rule = 1 ∧ u.nesterov then addF g (mulF u.b1 x) else x
    let x1 := applyStep c u x0 (mulF c.lr d)
    ⟨[x], x1, [g, g', x, d, x1]⟩

/-- The preconditioned gradient of a rule 2 block by row and column, with the values it checks (R249, R253). -/
def State.precond (s : State) (u : UpdateSet) (te : TensorEntry) (g : GradBlock) (b : PreBlock) (plot wire : Nat) (k : Word) :
    List (List Word) × List Word :=
  let gm := s.gradMatrix te g b plot wire k
  let h := bfProduct (s.rootMatrix b.root b.d) (transposed b.n gm)
  if u.graft then
    let gn := fnormF gm.flatten
    let hn := fnormF h.flatten
    let f : Word := if magF hn = 0 then 0 else divF gn hn
    (h.map fun r => r.map fun x => mulF x f, h.flatten ++ [gn, hn, f])
  else (h, h.flatten)

/-- The update unit's accumulator with the squares of the gradients scaled by grad_scale (R245). -/
def normAdd (acc : DWord) (gs : List Word) : DWord := gs.foldl (fun a g => addD a (mulD (wideD g) (wideD g))) acc

/-- Write new state tensors one by one. -/
def State.writeStates (s : State) (seg first : Nat) : List ScaledRef → List (List Word) → State
  | r :: rs, xs :: xss => State.writeStates (s.writeScaled seg r first xs) seg first rs xss
  | _, _ => s

/-- BF16 values at consecutive addresses. -/
def halfBytes (cs : List Nat) : List Byte := cs.flatMap (leBytes 2)

/-- The rule 2 block that elementwise work names. -/
def preOf (u : UpdateSection) (g : GradBlock) : Option PreBlock := u.blocks[g.block]?

/-- The decoded gradients of elementwise work, one for each element: from block `wire` on in index order, or, under rule 2, those of
the staged block. -/
def State.rawGrads (s : State) (te : TensorEntry) (e : UpdElem) (b : Option (GradBlock × PreBlock)) : List Word :=
  match b with
  | none => (List.range e.count).map fun i => s.gradient e.plot (e.wire + i / 32) (i % 32)
  | some (g, b) =>
    let tiles := blockTiles te g b
    (List.range e.count).map fun i =>
      let p := e.segment * te.segTiles * 8192 + e.first + i
      s.gradient e.plot (e.wire + 256 * tiles.findIdx (· = p / 8192) + p % 8192 / 32) (p % 32)

/-- Elementwise work (R247 to R249). -/
def State.updElementwise (s : State) (unit tensor : Nat) (e : UpdElem) (u : UpdateSet) (b : Option (GradBlock × PreBlock)) : State :=
  let te := s.entryOf tensor
  let c := s.coef u
  let raw := s.rawGrads te e b
  let at_ := e.segment * te.segTiles * 8192 + e.first
  let states := e.state.map fun r => s.readScaled e.segment r e.first e.count
  let comp := match e.comp with
    | some r => if u.compensate then s.readScaled e.segment r e.first e.count else ([], {})
    | none => ([], {})
  let master := (List.range e.count).map fun i => s.masterValue tensor (at_ + i)
  let (h, hChecks) := match b with
    | some (g, b) => s.precond u te g b e.plot e.wire c.k
    | none => ([], [])
  let hAt := fun i => match b with
    | some (g, _) =>
      let rc := placeOf te (at_ + i)
      if g.row ≤ rc.1 ∧ g.col ≤ rc.2 then (h.getD (rc.1 - g.row) []).getD (rc.2 - g.col) 0 else 0
    | none => 0
  let outs := (List.range e.count).map fun i =>
    ruleElem c u (states.map fun x => x.1.getD i 0) (addF (master.getD i (0, {})).1 (comp.1.getD i 0)) (raw.getD i 0) (hAt i)
  let fl := ((s.classFor tensor).map fun f => f.flush.contains .bf16).getD false
  let encs := outs.map fun o => (encode16 .bf16 o.x1 (((s.classFor tensor).map FormatClass.overflowInf).getD false) fl none).1
  let ws := encs.map fun x => decode16 .bf16 x.code
  let errs := (outs.zip ws).map fun p => subF p.1.x1 p.2
  let scaled := raw.map (mulF u.gradScale)
  let acc := storeGet 0 s.upd.norms unit
  let s1 : State := { s.writing with
      upd := { s.writing.upd with norms := storeSet 0 s.upd.norms unit (normAdd acc scaled) } }
  let root := match b with
    | some (_, b) => s.rootTally b.root b.d
    | none => {}
  let s2 := s1.tally ((Tally.sum (states.map Prod.snd)).add (comp.2.add ((Tally.sum (master.map Prod.snd)).add
    ((Tally.sum (encs.map (encTally .bf16))).add root))))
  let s4 := s2.writeStates e.segment e.first e.state ((List.range e.state.length).map fun k => outs.map fun o => o.st.getD k 0)
  let s5 := match e.comp with
    | some r => if u.compensate then s4.writeScaled e.segment r e.first errs else s4
    | none => s4
  let s6 := (s5.devWrite .update (s.copyBase tensor te true + 2 * at_) (halfBytes (encs.map Enc.code))).writeScaled e.segment e.if4
    e.first ws
  let n := ((List.range e.count).filter fun i => inTensor (segExtents te e.segment) (e.first + i)).length
  let s7 := ((s6.count Reg.UPD_PARAMS 64 n).bel64 (clusterCnt unit 13) n).bel64 (clusterCnt unit 14) ((e.count + 31) / 32)
  let bad := (c.checks u ++ hChecks ++ scaled ++ ws ++ comp.1 ++ outs.flatMap RuleOut.checks ++ states.flatMap Prod.fst).any
    fun w => !finF w
  if bad then s7.updNonFinite tensor unit else s7

/-- Drop an update aimed at a frozen tensor (R252). -/
def State.frozenDrop (s : State) (unit blocks : Nat) : State :=
  let s1 := ((s.count Reg.UPD_FROZEN_DROPS 32 blocks).bel64 (clusterCnt unit 15) blocks).orReg Reg.UPD_STICKY 1
  let strict := (s.img.map fun f => f.header.flags.testBit 0).getD false
  if strict then s1.spoil 5 else s1

/-! ## Refresh (R250, R251) -/

/-- The larger of two FP32 residuals, both at least 0. -/
def maxResid (a b : Word) : Word := if a.toNat < b.toNat then b else a

/-- A matrix formed element by element from two others. -/
def zipMatrix (f : Word → Word → Word) (a b : List (List Word)) : List (List Word) :=
  a.zipWith (fun x y => x.zipWith f y) b

/-- The identity matrix *i*. -/
def unitMatrix (d : Nat) : List (List Word) :=
  (List.range d).map fun r => (List.range d).map fun c => if r = c then oneF else 0

/-- Sum of the diagonal in order (DESIGN CHOICE, log 78). -/
def traceF (a : List (List Word)) : Word := sumF (a.zipIdx.map fun r => r.1.getD r.2 0)

/-- The iteration of R250: y, z, and the last product z @ y. -/
def rootSteps (d : Nat) : Nat → List (List Word) × List (List Word) × List (List Word) → List (List Word) × List (List Word) × List (List Word)
  | 0, x => x
  | n + 1, (y, z, _) =>
    let zy := bfProduct z (transposed d y)
    let q := zipMatrix subF ((unitMatrix d).map fun r => r.map (mulF 0x3FC00000)) (zy.map fun r => r.map (mulF 0x3F000000))
    rootSteps d n (bfProduct y (transposed d q), bfProduct q (transposed d z), zy)

/-- What a refresh gives: the statistic, the root before it is rounded to BF16, the residual, and the scale c. -/
structure Refreshed where
  a : List (List Word)
  p : List (List Word)
  resid : Word
  c : Word
deriving DecidableEq, Repr

/-- The recurrence of R250 from the statistic a0 and the gradient; beta is the set's b2 (R246). -/
def refreshOf (u : UpdateSet) (d : Nat) (a0 g : List (List Word)) : Refreshed :=
  let gg := bfProduct g g
  let a := zipMatrix addF (a0.map fun r => r.map (mulF u.b2)) (gg.map fun r => r.map (mulF (subF oneF u.b2)))
  let c := addF (traceF a) (mulF (natF d) u.eps)
  let y := zipMatrix (fun x e => divF (addF x (mulF u.eps e)) c) a (unitMatrix d)
  let (_, z, zy) := rootSteps d u.iters (y, unitMatrix d, unitMatrix d)
  ⟨a, z.map fun r => r.map fun x => divF x (sqrtF c), divF (fnormF (zipMatrix subF (unitMatrix d) zy).flatten) (sqrtF (natF d)), c⟩

/-- A block's refresh: the statistic and the root go into their other copies (R250, R251). -/
def State.updRefresh (s : State) (unit tensor : Nat) (u : UpdateSet) (g : GradBlock) (b : PreBlock) (plot wire : Nat) : State :=
  let gm := s.gradMatrix (s.entryOf tensor) g b plot wire (s.coef u).k
  let x := refreshOf u b.d (s.statMatrix b.stat b.d) gm
  let root := x.p.map fun r => r.map fun w => (encode16 .bf16 w false false none).1.code
  let s1 := (s.writeMatrix b.stat 4 x.a fun w => leBytes 4 w.toNat).writeMatrix b.root 2
    (root.map fun r => r.map (BitVec.ofNat 32)) fun w => leBytes 2 w.toNat
  let s2 := (s1.count Reg.UPD_REFRESHED 32 1).bel64 (clusterCnt unit 16) 1
  let old : Word := if s.upd.refreshed then BitVec.ofNat 32 (s.regN Reg.UPD_NS_RESID) else 0
  let s3 := ({ s2 with upd := { s2.upd with refreshed := true } } : State).setRegN Reg.UPD_NS_RESID
    (maxResid old x.resid).toNat
  let bad := (x.c :: (gm.flatten ++ x.a.flatten ++ x.p.flatten ++ root.flatten.map (decode16 .bf16))).any fun w => !finF w
  if bad then s3.updNonFinite tensor unit else s3

/-! ## Update work -/

/-- The tensors that a rule 2 block names. -/
def blockTensors (u : UpdateSection) (g : GradBlock) : List Nat :=
  match preOf u g with
  | some b => [b.stat, b.root]
  | none => []

/-- The tensors that a piece of work names beside its own (R252). -/
def namedTensors (u : UpdateSection) : UpdWork → List Nat
  | .elementwise e =>
    e.if4.tensor :: (e.state.map ScaledRef.tensor ++ (e.comp.map ScaledRef.tensor).toList ++ (e.pre.map (blockTensors u)).getD [])
  | .refresh _ g _ _ => blockTensors u g
  | .stream _ => []

/-- IW16 blocks that a piece of work consumes; a refresh takes those of its block's elementwise work. -/
def workBlocks : UpdWork → Nat
  | .elementwise e => (e.count + 31) / 32
  | .refresh _ _ _ _ => 0
  | .stream n => n

/-- Work aimed at a frozen tensor (R252). -/
def State.aimedAtFrozen (s : State) (u : UpdateSection) (tensor : Nat) (w : UpdWork) : Bool :=
  (tensor :: namedTensors u w).any fun t => ((s.tensor? t).map TensorEntry.frozen).getD false

/-- Whether rule 2 work finds its whole block staged (R244); other work does not wait. -/
def State.stagedFor (s : State) (u : UpdateSection) (tensor : Nat) (w : UpdWork) : Bool :=
  match w with
  | .elementwise e =>
    match e.pre.bind fun g => (preOf u g).map fun b => (g, b) with
    | some (g, b) => s.wholeStaged (s.entryOf tensor) g b e.plot e.wire
    | none => true
  | .refresh _ g plot wire =>
    match preOf u g with
    | some b => s.wholeStaged (s.entryOf tensor) g b plot wire
    | none => true
  | .stream _ => true

/-- Work that is not frozen and whose block is staged. A refresh of a group that is not the step's is not worked (R250); work that
names no update set or block of the image has no rule to follow. -/
def State.workNow (s : State) (u : UpdateSection) (unit tensor : Nat) (w : UpdWork) : State :=
  match w with
  | .stream _ => s
  | .elementwise e =>
    match u.sets[e.set]? with
    | some x => s.updElementwise unit tensor e x (if x.rule = 2 then e.pre.bind fun g => (preOf u g).map fun b => (g, b) else none)
    | none => s
  | .refresh k g plot wire =>
    match u.sets[k]?, preOf u g with
    | some x, some b => if b.group = s.upd.epoch % u.period then s.updRefresh unit tensor x g b plot wire else s
    | _, _ => s

/-- A scheduled write: to an address, or, marked as an update write, to the other copy of a tensor, which makes the other slab WRITING;
one aimed at a frozen tensor is dropped (R233, R239, R240, R252). -/
def State.hbmWrite (s : State) (data : List Byte) : WriteTarget → State
  | .to a => s.devWrite .scheduled a data
  | .update t off =>
    match s.tensor? t, s.updSec? with
    | some te, some u =>
      if te.frozen then s.frozenDrop 0 0
      else (if (preBlockOf u t).isNone then s.writing else s).devWrite .scheduled (s.copyBase t te true + off) data
    | _, _ => s

/-- HBM_WRITE (R233, R239). -/
def execHbmWrite (target : WriteTarget) (data : List Byte) (s : State) : Host.Outcome State Fault Refusal :=
  .next (s.hbmWrite data target)

/-- Work at once, or hold it until its block is staged (R244). -/
def State.workOrWait (s : State) (u : UpdateSection) (unit tensor : Nat) (w : UpdWork) : State :=
  if s.aimedAtFrozen u tensor w then s.frozenDrop unit (workBlocks w)
  else if s.stagedFor u tensor w then s.workNow u unit tensor w
  else { s with upd := { s.upd with waiting := s.upd.waiting ++ [(unit, tensor, w)] } }

/-- Give each piece of a list to its unit, in order. -/
def State.workAll (s : State) (u : UpdateSection) : List (Nat × Nat × UpdWork) → State
  | [] => s
  | (unit, tensor, w) :: ws => State.workAll (s.workOrWait u unit tensor w) u ws

/-- After blocks have landed in a plot buffer, the work that waited is taken up again, in its order (R244). -/
def State.workWaiting (s : State) : State :=
  match s.updSec? with
  | some u => ({ s with upd := { s.upd with waiting := [] } } : State).workAll u s.upd.waiting
  | none => s

/-- UPDATE_BLOCK (R244): outside an image there is no update set. -/
def execUpdateBlock (unit : Fin 16) (tensor : Nat) (work : UpdWork) (s : State) : Host.Outcome State Fault Refusal :=
  .next (match s.updSec? with
    | none => s
    | some u => s.workOrWait u unit tensor work)

/-- What UPD_STAT_CTRL.CLR resets. -/
def updCounts : List Nat :=
  [Reg.UPD_PARAMS, Reg.UPD_FROZEN_DROPS, Reg.UPD_NF_COUNT, Reg.UPD_REFRESHED, Reg.UPD_NF_TENSOR]

/-- What UPD_STAT_CLR resets, with the events of its cycle (R439). -/
def State.updClr (s : State) (same : List (Nat × Nat)) : State :=
  (s.zeroRegs updCounts).sameCycle (sameIn updCounts same)

/-- UPD_STAT_CLR (R254, R439). -/
def execUpdStatClr (same : List (Nat × Nat)) (s : State) : Host.Outcome State Fault Refusal :=
  .next (s.onHost fun s => s.updClr same)

end Sys2Proof.Machine
end

