-- ==== Sys2Proof/Machine/Drain.lean ====
section
/-! DEFINITION. What leaves a drain: the output tile, its non-finite check, and its three destinations (R91, R102, R111, R160, R172,
R255). -/

namespace Sys2Proof.Machine

/-! ## Sources (R153, R160, R161) -/

/-- The core and the engine in it that a tile comes from; a tile of the matrix-vector path names engine 0 (DESIGN CHOICE, log 13). -/
def drainUnit : DrainSource → Nat × Nat
  | .held e _ => (e.val / 4, e.val % 4)
  | .gathered e => (e.val / 4, e.val % 4)
  | .matrixVector c _ => (c.val, 0)

/-- What a drain multiplies by: 1/n when a rotation of size n fed the tile half (R120). -/
def State.drainScale (s : State) : DrainSource → Word
  | .held e half => pow2F (1 - (max 1 (storeGet 0 s.me.rotated (2 * e.val + half.toNat)) : Nat))
  | _ => pow2F 0

/-- Element `i` of the tile in its source. -/
def State.sourceWord (s : State) (src : DrainSource) (i : Nat) : Word :=
  match src with
  | .held e half => tileWord s.me.tileSeed s.me.tile (tileKey e half 0 0 + i)
  | .gathered e => storeGet 0 s.me.leaving (accKey e 0 0 + i)
  | .matrixVector c t => storeGet 0 s.me.thin (thinKey c t i)

/-- The source after its tile has left. -/
def State.clearSource (s : State) : DrainSource → State
  | .held e half => s.clearHalf e half
  | .gathered e => { s with me := { s.me with leaving := clearRange 0 s.me.leaving (accKey e 0 0) 8192 } }
  | .matrixVector c t => { s with me := { s.me with thin := clearRange 0 s.me.thin (thinKey c t 0) 8192 } }

/-- A rotated window that was not finite fed this tile (R121). -/
def State.sourceFlagged (s : State) : DrainSource → Bool
  | .held e half => decide (storeGet 0 s.me.flagged (2 * e.val + half.toNat) ≠ 0)
  | _ => false

/-- The values of a drained tile, padding as +0 (R106). -/
def State.drained (s : State) (op : DrainOp) : List Word :=
  let e := tileExtent (s.entryOf op.tensor) op.tile
  tileValues e.1 e.2 fun r c => mulF (s.sourceWord op.source (64 * r + c)) (s.drainScale op.source)

/-- The first element of a drained tile that is not finite; a tile that a bad window fed is flagged at its first one (R102, R121). -/
def State.drainedNf (s : State) (op : DrainOp) : Option Nat :=
  if s.sourceFlagged op.source then some 0 else firstNonFinite (s.drained op)

/-! ## Destinations -/

/-- Store a tile column-major in a scratchpad (R170). -/
def State.spadTile (s : State) (core offset : Nat) (ws : List Word) : State :=
  (List.range 64).foldl (fun s j => s.devWrite .scheduled (spadAddr core (offset + 512 * j))
    ((List.range 128).flatMap fun r => leBytes 4 (ws.getD (64 * r + j) 0).toNat)) s

/-- A block saturated at an encoder or an adder (R91, R258). -/
def State.cloSat (s : State) : State := (s.count Reg.CLO_SAT_COUNT 32 1).event Reg.CLO_EVENT 3

/-- The block of 32 values with its residue, and whether it saturated; a flagged tile gives zero blocks (R91, R255, R259, R263). -/
def wireBlock (digest zero : Bool) (ws : List Word) : WireBlock × Bool :=
  let r := if zero then ((List.replicate 32 0, 0), false) else wireEncode (ws.map dyF)
  (⟨r.1.1, r.1.2, if digest then 0 else residueOf r.1.1 r.1.2⟩, r.2)

/-- The encoder of a cluster writes a tile's blocks into a plot's buffer from block `k` on: 32 consecutive elements of the row-major
order each, padding among them (DESIGN CHOICE, log 78). -/
def State.encodeTile (s : State) (plot cluster : Nat) (zero : Bool) (k : Nat) : List (List Word) → State
  | [] => s
  | ws :: rest =>
    let b := wireBlock s.digestMode zero ws
    let s1 := (s.landBlock plot k b.1).bel64 (clusterCnt cluster 49) 1
    State.encodeTile (if b.2 then s1.cloSat else s1) plot cluster zero (k + 1) rest

/-- A tile reaches its destination. -/
def State.deliverTile (s : State) (op : DrainOp) (ws : List Word) (nf : Option Nat) : State :=
  let core := (drainUnit op.source).1
  match op.dest with
  | .stage staging runAhead => s.stageTile ⟨op.tensor, op.tile, staging, runAhead⟩ core ws nf
  | .scratchpad c offset ready => ((s.portShare c op.lost op.promoted).spadTile c offset ws).readyUp c ready 1
  | .encoder plot first =>
    let s1 := (s.encodeTile plot (core / 8) nf.isSome first (chunksOf 32 257 ws)).workWaiting
    if nf.isSome then s1.spoil 4 else s1

/-- TILE_DRAIN (R102, R111, R160): the tile leaves for staging, a scratchpad or the IW16 encoder. -/
def execTileDrain (op : DrainOp) (s : State) : Host.Outcome State Fault Refusal :=
  let ws := s.drained op
  let nf := s.drainedNf op
  let s1 := s.clearSource op.source
  let s2 := match nf with
    | some i => s1.nfTile op.tensor op.tile (drainUnit op.source).1 (drainUnit op.source).2 i (ws.getD i 0)
    | none => s1
  .next (s2.deliverTile op ws nf)

end Sys2Proof.Machine
end

