-- ==== Sys2Proof/Machine/Stiles.lean ====
section
/-! DEFINITION. Stiles and sequence chains: arming, arrivals, waits and their release; appends and reads of chains
(R299 to R306). -/

namespace Sys2Proof.Machine

/-! ## Stiles (R299 to R302) -/

/-- A stile. -/
def State.stile (s : State) (n : Nat) : Stile := storeGet {} s.stl.stiles n

/-- Replace a stile. -/
def State.setStile (s : State) (n : Nat) (x : Stile) : State :=
  { s with stl := { s.stl with stiles := storeSet {} s.stl.stiles n x } }

/-- The STILE entry of a stile. -/
def State.stileDecl (s : State) (n : Nat) : Option StileDecl :=
  s.sections?.bind fun x => x.stiles.find? fun d => d.stile = n

/-- A stile's target: the one of its entry, or job_size for a job-wide stile (R299). -/
def State.stileTarget (s : State) (n : Nat) : Nat :=
  match s.stileDecl n with
  | some d => if d.jobWide then s.jobSize else d.target
  | none => 0

/-- A stile is job-wide. -/
def State.jobWide (s : State) (n : Nat) : Bool := ((s.stileDecl n).map StileDecl.jobWide).getD false

/-- The die of a stile (R299). -/
def stileDie (n : Nat) : Fin 2 := dieOf n 65536

/-- Let waiters through. -/
def State.sendReleases (s : State) (n : Nat) : List (Nat × Nat) → State
  | [] => s
  | (u, _) :: ws => State.sendReleases (s.send (.release u n)) n ws

/-- Release the open generation of a stile: it becomes unarmed and its waiters go on (R300). -/
def State.releaseStile (s : State) (n : Nat) : State :=
  let x := s.stile n
  let go := x.waiters.filter fun w => w.2 ≤ x.gen
  let s1 := s.setStile n { x with armed := false, waiters := x.waiters.filter fun w => x.gen < w.2 }
  let s2 := ((s1.count Reg.STL_RELEASES 64 1).bel64 (dieCnt (stileDie n) 11) 1).trace (stileDie n) 0x0C 0
    (n + 2 ^ 32 * (x.gen % 2) + 2 ^ 40 * s.stitchIx)
  s2.sendReleases n go

/-- Release the stile if it is armed, local, and its count has reached its target; a job-wide stile is released by its
Class S reduction (R302). -/
def State.checkStile (s : State) (n : Nat) : State :=
  let x := s.stile n
  if x.armed && decide (s.stileTarget n ≤ x.count) && !s.jobWide n then s.releaseStile n else s

/-- An arrival is discarded (R300). -/
def State.overArrival (s : State) (n : Nat) : State :=
  ((s.count Reg.STL_OVER 32 1).event Reg.STL_EVENT 1).bel64 (dieCnt (stileDie n) 12) 1

/-- STILE_ARM (R300): the next generation opens with the early count. -/
def execStileArm (stile : Fin 131072) (s : State) : Host.Outcome State Fault Refusal :=
  let x := s.stile stile
  .next ((s.setStile stile { x with gen := x.gen + 1, count := x.early, early := 0, armed := true }).checkStile stile)

/-- An arrival of the next generation (R300). -/
def State.earlyArrival (s : State) (n : Nat) : State :=
  let x := s.stile n
  if s.stileTarget n ≤ x.early then s.overArrival n else s.setStile n { x with early := x.early + 1 }

/-- STILE_ARRIVE (R300): by the parity of the generation it names. -/
def execStileArrive (stile : Fin 131072) (generation : Nat) (s : State) : Host.Outcome State Fault Refusal :=
  let x := s.stile stile
  .next (if generation % 2 ≠ x.gen % 2 then s.earlyArrival stile
    else if x.armed then (s.setStile stile { x with count := x.count + 1 }).checkStile stile
    else s.overArrival stile)

/-- STILE_WAIT (R300): the unit goes on at once when the generation is released already. -/
def execStileWait (stile : Fin 131072) (generation unit : Nat) (s : State) : Host.Outcome State Fault Refusal :=
  let x := s.stile stile
  .next (if generation < x.gen ∨ (generation = x.gen ∧ x.armed = false) then s.send (.release unit stile)
    else s.setStile stile { x with waiters := x.waiters ++ [(unit, generation)] })

/-! ## Sequence chains (R305, R306) -/

/-- The pool plot bound to a chain index. -/
def State.chainPlot (s : State) (chain : Nat) : Option Nat :=
  (s.stl.commit.bound.find? fun e => e.1 = chain).map Prod.snd

/-- The chain of an index; an unbound one has LIMIT 0. -/
def State.chain (s : State) (chain : Nat) : Plot := ((s.chainPlot chain).map s.plot).getD {}

/-- An append that would pass LIMIT is discarded. -/
def State.chainFull (s : State) : State := (s.count Reg.PLT_CHAIN_FULL 32 1).event Reg.PLT_EVENT 0

/-- CHAIN_APPEND (R306): the record goes to BASE + USED. -/
def execChainAppend (chain : Nat) (record : List Byte) (s : State) : Host.Outcome State Fault Refusal :=
  let x := s.chain chain
  .next (if x.limit < x.used + record.length then s.chainFull
    else match s.chainPlot chain with
      | none => s
      | some p => (s.devWrite .scheduled (x.base + x.used) record).setPlot p { x with used := x.used + record.length })

/-- What a read of a chain returns: zeros at and beyond USED. -/
def State.chainBytes (s : State) (x : Plot) (offset length : Nat) : List Byte :=
  (List.range length).map fun i => if offset + i < x.used then s.opByte (x.base + offset + i) else 0

/-- CHAIN_READ (R306). -/
def execChainRead (chain offset length : Nat) (s : State) : Host.Outcome State Fault Refusal :=
  .next (s.send (.fetched (s.chainBytes (s.chain chain) offset length)))

/-! ## Clears (R316, R317) -/

/-- What STL_STAT_CTRL.CLR resets. -/
def stlCounts : List Nat := [Reg.STL_RELEASES, Reg.STL_TIMEOUTS, Reg.STL_OVER]

/-- What STL_STAT_CLR resets, with the events of its cycle (R439). -/
def State.stlClr (s : State) (same : List (Nat × Nat)) : State :=
  (s.zeroRegs stlCounts).sameCycle (sameIn stlCounts same)

/-- STL_STAT_CLR (R316, R439). -/
def execStlStatClr (same : List (Nat × Nat)) (s : State) : Host.Outcome State Fault Refusal :=
  .next (s.onHost fun s => s.stlClr same)

/-- What PLT_STAT_CLR resets, with the events of its cycle (R439). -/
def State.pltClr (s : State) (same : List (Nat × Nat)) : State :=
  (s.zeroRegs [Reg.PLT_CHAIN_FULL]).sameCycle (sameIn [Reg.PLT_CHAIN_FULL] same)

/-- PLT_STAT_CLR (R317, R439). -/
def execPltStatClr (same : List (Nat × Nat)) (s : State) : Host.Outcome State Fault Refusal :=
  .next (s.onHost fun s => s.pltClr same)

end Sys2Proof.Machine
end

