-- ==== Sys2Proof/Machine/Cloister.lean ====
section
/-! DEFINITION. The Cloister: block arrival, addition with its residue checks, and Class S reductions (R255 to R273, R302). -/

namespace Sys2Proof.Machine

/-! ## Arrival (R260, R263, R265, R267) -/

/-- The key of a block of a plot. -/
def blockKey (plot seq : Nat) : Nat := plot * 2 ^ 32 + seq

/-- Blocks that have arrived of a plot's stream at a port. -/
def State.taken (s : State) (plot port : Nat) : Nat := storeGet 0 s.clo.taken (crossKey plot port)

/-- One more has arrived. -/
def State.takeOne (s : State) (plot port : Nat) : State :=
  { s with clo := { s.clo with taken := storeSet 0 s.clo.taken (crossKey plot port) (s.taken plot port + 1) } }

/-- The block at place `k` of a plot's received stream at a port. -/
def State.streamBlock (s : State) (plot port k : Nat) : WireBlock :=
  blockOfBytes ((List.range 66).map fun i => s.streamByte plot port (66 * k + i))

/-- The place from which the adder takes a ring's block: 1 + its place in the stream, 0 before it has arrived. -/
def State.ringPlace (s : State) (plot seq : Nat) : Nat := storeGet 0 s.clo.ops (blockKey plot seq)

/-- Set it. -/
def State.setRingPlace (s : State) (plot seq k : Nat) : State :=
  { s with clo := { s.clo with ops := storeSet 0 s.clo.ops (blockKey plot seq) k } }

/-- A final block reaches the update unit's plot buffer: it is checked (R260), and work that waited for it goes on (R244). -/
def State.takeFinal (s : State) (g : GReduction) (seq port : Nat) (b : WireBlock) : State :=
  match s.blockFailure b with
  | some kind => s.cloFatal kind port g.plot
  | none => (s.landBlock g.update (s.finalIndex g seq) b).workWaiting

/-- A final block goes on to the next position, unless it has been all around (R267). -/
def State.passFinal (s : State) (g : GReduction) (x : RingShare) (seq : Nat) (b : WireBlock) : State :=
  if g.all && x.finalsSent.contains seq then
    s.sendBlock g x (x.sent.length + x.finalsSent.findIdx (· = seq)) b
  else s

/-- The rank at the position before this one. -/
def RingShare.prevRank (x : RingShare) : Nat := x.ring.ranks.getD ((x.pos + x.size - 1) % x.size) 0

/-- Blocks that a share receives at its port: those to be added, and in mode All the final ones (R266, R267). -/
def shareTotal (g : GReduction) (x : RingShare) : Nat := x.received.length + (if g.all then x.finals.length else 0)

/-- The block at place `k` of a share's stream. -/
def State.arrive (s : State) (g : GReduction) (x : RingShare) (port k : Nat) (b : WireBlock) : State :=
  let s1 := s.absorb g.plot port 1 x.prevRank (blockBytes b) (decide (k + 1 = shareTotal g x))
  let n := x.received.length
  match s.blockFailure b with
  | some kind => s1.cloFatal kind port g.plot
  | none =>
    if k < n then s1.setRingPlace g.plot (x.received.getD k 0) (k + 1)
    else
      let seq := x.finals.getD (k - n) 0
      (s1.takeFinal g seq port b).passFinal g x seq b

/-- CLOISTER_BLOCK_ARRIVAL (R260, R263, R265): the next block of a plot's stream, once frames hold it; one that no reduction expects is
fatal. -/
def execCloisterBlockArrival (op : BlockArrival) (s : State) : Host.Outcome State Fault Refusal :=
  let port := op.port.val
  let k := s.taken op.plot port
  let s1 := ((s.takeOne op.plot port).count Reg.CLO_BLOCKS_RX 64 1).bel64 (portCnt port 20) 1
  .next (if (s.linkEnd op.plot port true).frames * 5120 < 66 * (k + 1) then s
    else
      match s.gReduction op.plot with
      | none => s1.cloFatal 6 port op.plot
      | some g =>
        match s.shareIn g port with
        | none => s1.cloFatal 6 port op.plot
        | some x =>
          if shareTotal g x ≤ k then s1.cloFatal 6 port op.plot
          else s1.arrive g x port k (s.streamBlock op.plot port k))

/-! ## Addition (R256 to R262) -/

/-- k of R257: how far the adder shifts the mantissas of an operand with exponent `ej`. -/
def adderShift (ea ej : Nat) : Int := 12 - ((ea : Int) - ej)

/-- One mantissa on the common exponent: m·2^k, rounded to nearest even on a right shift. -/
def widenMant (m : Int) (ea ej : Nat) : Int :=
  let k := (roundShift m.natAbs (-adderShift ea ej)).1
  if m < 0 then -(k : Int) else k

/-- The common exponent of the operands. -/
def commonExp (bs : List WireBlock) : Nat := bs.foldl (fun a b => max a b.exp) 0

/-- The lane sums. -/
def laneSums (bs : List WireBlock) (ea : Nat) : List Int :=
  (List.range 32).map fun i =>
    (bs.map fun b => if b.exp = 0 then 0 else widenMant (b.mant.getD i 0) ea b.exp).sum

/-- A lane sum re-encoded at exponent E′. -/
def reencodeMant (x : Int) (ea e' : Nat) : Int :=
  let k := (roundShift x.natAbs ((e' : Int) + 12 - ea)).1
  if x < 0 then -(k : Int) else k

/-- The lane sums re-encoded, and whether the block saturated (R258). -/
def reencode (ss : List Int) (ea : Nat) : (List Int × Nat) × Bool :=
  let top := ss.foldl (fun a x => max a x.natAbs) 0
  if top = 0 then ((ss.map fun _ => 0, 0), false)
  else
    match ((List.range 255).map (· + 1)).find? fun e' => decide ((reencodeMant top ea e').natAbs ≤ 32767) with
    | some e' => ((ss.map fun x => reencodeMant x ea e', e'), false)
    | none => ((ss.map fun x => max (-32767) (min 32767 (reencodeMant x ea 255)), 255), true)

/-- A residue times 2^k, for k of either sign: a rotation of its byte (R259). -/
def resTimes (x k : Int) : Nat := res255 (x * 2 ^ (k % 8).toNat)

/-- The parts that widening discards of an operand, in whole units of its mantissas (R261). -/
def widenLoss (b : WireBlock) (ea : Nat) : Int :=
  if 0 ≤ adderShift ea b.exp then 0
  else (b.mant.map fun m => m - widenMant m ea b.exp * 2 ^ (-adderShift ea b.exp).toNat).sum

/-- The sum check's prediction from the operands (R261). -/
def sumPrediction (bs : List WireBlock) (ea : Nat) : Nat :=
  res255 (bs.map fun b => if b.exp = 0 then (0 : Int) else
    resTimes ((b.res : Int) - b.exp - widenLoss b ea) (adderShift ea b.exp)).sum

/-- The re-encode check's prediction: from the lane sums, what rounding discards of them, and E′ (R261). -/
def reencodePrediction (ss ms : List Int) (ea e' : Nat) : Nat :=
  let k : Int := (ea : Int) - 12 - e'
  let q : Int := if 0 ≤ k then 0 else ((ss.zip ms).map fun p => p.1 - p.2 * 2 ^ (-k).toNat).sum
  res255 (e' + resTimes (ss.sum - q) k)

/-- Values with what a fault adds to them. -/
def faulted (xs : List Int) (f : List (Nat × Int)) : List Int :=
  xs.zipIdx.map fun x => x.1 + ((f.filter fun e => e.1 = x.2).map Prod.snd).sum

/-- One attempt at an addition: the block, whether it saturated, and the check that failed, as CLO_FAIL_INFO.KIND has it. -/
structure AddTry where
  block : WireBlock
  sat : Bool
  failed : Option Nat
deriving DecidableEq, Repr

/-- An attempt (R257, R258, R261): a saturated block skips the re-encode check. -/
def addTry (digest : Bool) (bs : List WireBlock) (f : AddFault) : AddTry :=
  let ea := commonExp bs
  let ss := faulted (laneSums bs ea) f.lanes
  let r := reencode ss ea
  let ms := faulted r.1.1 f.outs
  let gen := residueOf ms r.1.2
  { block := ⟨ms, r.1.2, if digest then 0 else gen⟩
    sat := r.2
    failed :=
      if digest then none
      else if sumPrediction bs ea ≠ res255 ss.sum then some 2
      else if !r.2 && decide (reencodePrediction ss r.1.1 ea r.1.2 ≠ gen) then some 3
      else none }

/-- A sum goes where it belongs: as a partial sum to a buffer (R256), to the owner's update unit (R267), to the next position (R266). -/
def State.placeSum (s : State) (op : BlockAdd) (g : GReduction) (x : RingShare) (b : WireBlock) : State :=
  match op.partialTo with
  | some p => s.landBlock p op.seq b
  | none =>
    if x.owns op.seq then (s.takeFinal g op.seq 0 b).passFinal g x op.seq b
    else s.sendBlock g x (x.sent.findIdx (· = op.seq)) b

/-- An addition whose output has passed: counted, its operands given up (R262). -/
def State.addDone (s : State) (op : BlockAdd) (g : GReduction) (x : RingShare) (t : AddTry) (repeated : Bool) : State :=
  let die := x.ring.send / 8
  let s1 := (s.count Reg.CLO_ADDS 64 1).bel64 (dieCnt die 7) 1
  let s2 := if repeated then
      ((s1.count Reg.CLO_RECOMPUTE 32 1).event Reg.CLO_EVENT 0).bel64 (dieCnt die 8) 1
    else s1
  (if t.sat then s2.cloSat else s2).placeSum op g x t.block

/-- The operands of an addition, the ring's first. -/
def State.addOperands (s : State) (op : BlockAdd) (x : RingShare) : List WireBlock :=
  (if op.ring then [s.streamBlock op.plot x.ring.recv (s.ringPlace op.plot op.seq - 1)] else []) ++
    op.locals.map fun p => s.bufferedBlock p op.seq

/-- Every operand that the pattern names is present, one to sixteen of them (R256). -/
def State.operandsThere (s : State) (op : BlockAdd) : Bool :=
  let n := op.ring.toNat + op.locals.length
  decide (1 ≤ n ∧ n ≤ 16) && (!op.ring || decide (s.ringPlace op.plot op.seq ≠ 0)) &&
    op.locals.all fun p => (s.plot p).landed.contains op.seq

/-- The first local contribution that fails as it reaches the adder (R260). -/
def State.localFailure (s : State) (op : BlockAdd) : Option Nat :=
  op.locals.findSome? fun p => s.blockFailure (s.bufferedBlock p op.seq)

/-- The operands leave their buffers. -/
def State.liftOperands (s : State) (op : BlockAdd) : State :=
  op.locals.foldl (fun s p => s.liftBlock p op.seq) (if op.ring then s.setRingPlace op.plot op.seq 0 else s)

/-- An addition of present operands. A single local contribution that starts its chunk's way goes on as it is (R266). -/
def State.addBlocks (s : State) (op : BlockAdd) (g : GReduction) (x : RingShare) : State :=
  match s.addOperands op x with
  | [b] => (s.liftOperands op).placeSum op g x b
  | bs =>
    let t := addTry s.digestMode bs op.first
    if t.failed.isNone then (s.liftOperands op).addDone op g x t false
    else
      let t2 := addTry s.digestMode bs op.again
      match t2.failed with
      | none => (s.liftOperands op).addDone op g x t2 true
      | some kind => s.cloFatal kind 0 op.plot

/-- BLOCK_ADDITION (R256 to R262): not before every operand is present. -/
def execBlockAddition (op : BlockAdd) (s : State) : Host.Outcome State Fault Refusal :=
  .next (match s.gReduction op.plot with
    | none => s
    | some g =>
      match s.shareOf g op.seq with
      | none => s
      | some x =>
        if !s.operandsThere op then s
        else match s.localFailure op with
          | some kind => s.cloFatal kind 0 op.plot
          | none => s.addBlocks op g x)

/-! ## Class S (R269 to R271) -/

/-- Combine two elements. -/
def sCombine (o : SOp) (a b : DWord) : DWord :=
  match o with
  | .fsum => addD a b
  | .fmax => BitVec.ofNat 64 (fp64.max a.toNat b.toNat).bits
  | .fmin => minD a b
  | .isum => a + b
  | .or => a ||| b
  | .and => a &&& b

/-- The substitute for a missing result. -/
def sSubstitute : SOp → DWord
  | .fsum | .fmax | .fmin => 0x7FF8000000000000
  | .isum | .and => 0
  | .or => BitVec.allOnes 64

/-- Combine a list of vectors from the first on. -/
def sFold (o : SOp) (n : Nat) : List (List DWord) → List DWord
  | [] => []
  | v :: vs => (List.range n).map fun i => vs.foldl (fun a w => sCombine o a (w.getD i 0)) (v.getD i 0)

/-- The module's own vectors: compiled contributions in ascending order of core, each core's in the order it made them; the units'
accumulators in order of unit for the norm; the module's own flag for the veto; the arrivals counted so far for a job-wide stile
(R135, R188, R245, R269, R272, R302). -/
def State.ownVector (s : State) (r : SReduce) : List (List DWord) :=
  match r.use with
  | .plain | .resole _ _ => ((s.sred r.plot).own.insertionSort fun a b => a.1 ≤ b.1).map Prod.snd
  | .norm => [[(List.range 16).foldl (fun a u => addD a (storeGet 0 s.upd.norms u)) 0]]
  | .veto => [[if (s.tick.step.map RunStep.nonFinite).getD false then 1 else 0]]
  | .stile n => if (s.stile n).count = 0 then [] else [[BitVec.ofNat 64 (s.stile n).count]]
  | .commit => []

/-- Vectors in ascending order of the lowest rank each covers (R270). -/
def orderParts (ps : List (Nat × List DWord)) : List (List DWord) :=
  (ps.insertionSort fun a b => a.1 ≤ b.1).map Prod.snd

/-! ### Partial results of the children, and the result from the parent (R270) -/

/-- A child's vector in the open reduction of a plot. -/
def State.kidVec (s : State) (t : Topo) (plot : Nat) (c : Nat × Nat) : Option SVec :=
  (s.portOf c.1).bind fun p => (s.vecs plot p)[(s.kidsAt t p).findIdx (· = c)]?

/-- The children's vectors that are there, with the lowest rank each covers. -/
def State.kidParts (s : State) (t : Topo) (plot : Nat) : List (Nat × SVec) :=
  t.treeChildren.filterMap fun c => (s.kidVec t plot c).map fun v => (c.2, v)

/-- The result in the open reduction of a plot, from the parent. -/
def State.parentVec (s : State) (t : Topo) (plot : Nat) : Option SVec :=
  (t.treeParent.bind s.portOf).bind fun p => (s.vecs plot p)[(s.kidsAt t p).length]?

/-- A child's vector is still missing. -/
def State.kidMissing (s : State) (t : Topo) (plot : Nat) : Bool :=
  decide ((s.kidParts t plot).length < t.treeChildren.length)

/-- This node's own vector and those of its children that are there, combined in order (R270). -/
def State.nodeVector (s : State) (t : Topo) (red : SReduce) : List DWord :=
  let own := s.ownVector red
  sFold red.op red.count (orderParts ((if own.isEmpty then [] else [(s.rank, sFold red.op red.count own)]) ++
    (s.kidParts t red.plot).map fun k => (k.1, k.2.data)))

/-! ### The end of a reduction -/

/-- Use a result: the gradient norm goes into the epoch record, and a norm that is not finite spoils the step (R241, R253); the
arrivals of a job-wide stile release it when all are there (R299, R302); the requests of R135 are answered. -/
def State.useResult (s : State) (r : SReduce) (v : List DWord) : State :=
  match r.use with
  | .norm =>
    let g := narrowD (sqrtD (v.getD 0 0))
    let s1 := s.writeRecord g
    if finF g then s1 else s1.spoil 4
  | .stile n => if s.jobSize ≤ (v.getD 0 0).toNat then s.releaseStile n else s
  | .resole cycle remaining => s.layerResult r.plot (decide (v.getD 0 0 ≠ 0)) cycle remaining
  | _ => s

/-- The vectors of a reduction that is over leave each port. -/
def State.dropVecs (s : State) (t : Topo) (plot round : Nat) : List Nat → State
  | [] => s
  | p :: ps =>
    let vs := s.vecs plot p
    let after := (s.linkEnd plot p true).vecs - (round + 1) * s.vecsAt t p
    State.dropVecs (s.setVecs plot p (vs.drop (vs.length - after))) t plot round ps

/-- The reduction is over on this module. -/
def State.closeSum (s : State) (t : Topo) (plot : Nat) (v : List DWord) : State :=
  let r := s.sred plot
  (s.dropVecs t plot r.round (List.range 16)).setSred plot
    { own := [], sent := false, round := r.round + 1, closedAt := some s.tick.now, result := some v }

/-- A complete result, `slack` cycles before the deadline. -/
def State.sDone (s : State) (t : Topo) (r : SReduce) (v : List DWord) (slack : Nat) : State :=
  let s1 := (((s.count Reg.CLO_S_DONE 32 1).minReg Reg.CLO_S_SLACK_MIN slack).bel64 (dieCnt 0 9) 1).trace 0 0x0D 0
    (r.plot + 2 ^ 32 * (slack % 2 ^ 32))
  (s1.closeSum t r.plot v).useResult r v

/-- A missing or incomplete result: the substitute, counted, and cause 3 (R271); a job-wide stile's waiters are released
(R302). -/
def State.sLate (s : State) (t : Topo) (r : SReduce) : State :=
  let v := List.replicate r.count (sSubstitute r.op)
  let s1 := (((s.count Reg.CLO_S_LATE 32 1).event Reg.CLO_EVENT 2).bel64 (dieCnt 0 10) 1).trace 0 0x0D 0
    (r.plot + 2 ^ 64)
  let s2 := ((s1.closeSum t r.plot v).spoil 3).useResult r v
  match r.use with
  | .stile n => s2.releaseStile n
  | _ => s2

/-- The reduction is open: it has 1 to 32 elements (R269), and none of its plot has ended in this tick. -/
def State.sumOpen (s : State) (r : SReduce) : Bool :=
  decide (1 ≤ r.count ∧ r.count ≤ 32) && decide ((s.sred r.plot).closedAt ≠ some s.tick.now)

/-! ## Votes of the commit stile (R308, R309) -/

/-- The commit as this module holds it. -/
def State.commit (s : State) : CommitSt := s.stl.commit

/-- Replace it. -/
def State.setCommit (s : State) (c : CommitSt) : State := { s with stl := { s.stl with commit := c } }

/-- The plot of the commit stile's reduction (R303, R307). -/
def State.commitPlot (s : State) : Nat := ((s.sections?.bind fun x => x.commits.head?).map CommitDecl.plot).getD 0

/-- Once this module has voted and holds every child's vote, the combination goes up the rank tree, or is complete at the
coordinator. -/
def State.tryVotes (s : State) : State :=
  match s.topo?, s.tick.step with
  | some t, some r =>
    let c := s.commit
    if r.voted && !c.sent && decide (t.treeChildren.length ≤ c.votes.length) then
      let n := 1 + (c.votes.map fun v => v.2.1).sum
      let veto := r.veto || c.votes.any fun v => v.2.2
      match t.treeParent with
      | some p => (s.setCommit { c with sent := true }).sendVec p s.commitPlot
          ⟨[BitVec.ofNat 64 n, if veto then 1 else 0], false⟩
      | none => s.setCommit { c with sent := true, combo := some (n, veto) }
    else s
  | _, _ => s

/-- Children's votes are taken: element 0 counts arrivals, element 1 is the OR of vetoes. -/
def State.childVotes (s : State) (t : Topo) : State :=
  let c := s.commit
  let new := ((s.kidParts t s.commitPlot).filter fun k => !c.votes.any fun v => decide (v.1 = k.1)).map fun k =>
    (k.1, (k.2.data.getD 0 0).toNat, decide (k.2.data.getD 1 0 ≠ 0))
  (s.setCommit { c with votes := c.votes ++ new }).tryVotes

/-! ## Commands of Class S -/

/-- A combination of a Class S reduction at this node (R270): once, and not before the own vector and every child's are there. -/
def State.combineSum (s : State) (t : Topo) (red : SReduce) (slack : Nat) : State :=
  if !s.sumOpen red || (s.sred red.plot).sent || (s.ownVector red).isEmpty || s.kidMissing t red.plot then s
  else
    let v := s.nodeVector t red
    let inc := (s.kidParts t red.plot).any fun k => k.2.incomplete
    match t.treeParent with
    | some p => (s.sendVec p red.plot ⟨v, inc⟩).setSred red.plot { s.sred red.plot with sent := true }
    | none =>
      let s1 := s.sendDown red.plot ⟨v, inc⟩ t.treeChildren
      if inc then s1.sLate t red else s1.sDone t red v slack

/-- CLASS_S_COMBINE (R270): a difference between the two combiners is fatal; the commit stile's votes follow R308 and R309. -/
def execClassSCombine (red : SReduce) (differ : Bool) (slack : Nat) (s : State) : Host.Outcome State Fault Refusal :=
  .next (match s.topo? with
    | none => s
    | some t =>
      if differ then s.cloFatal 4 0 red.plot
      else if red.use = .commit then s.childVotes t
      else s.combineSum t red slack)

/-- CLASS_S_RESULT (R270): the root's result has arrived from the parent and goes on to the children. -/
def execClassSResult (red : SReduce) (slack : Nat) (s : State) : Host.Outcome State Fault Refusal :=
  .next (match s.topo? with
    | none => s
    | some t =>
      match s.parentVec t red.plot with
      | none => s
      | some r =>
        if red.use = .commit || !s.sumOpen red then s
        else
          let s1 := s.sendDown red.plot r t.treeChildren
          if r.incomplete then s1.sLate t red else s1.sDone t red r.data slack)

/-- The deadline of an open reduction (R271): the node forwards what it holds, marked incomplete where a vector is missing, and uses
the substitute. -/
def State.deadlineSum (s : State) (t : Topo) (red : SReduce) : State :=
  if !s.sumOpen red then s
  else
    let inc := (s.ownVector red).isEmpty || s.kidMissing t red.plot || (s.kidParts t red.plot).any fun k => k.2.incomplete
    let v : SVec := ⟨s.nodeVector t red, inc⟩
    (match t.treeParent with
      | some p => if (s.sred red.plot).sent then s else s.sendVec p red.plot v
      | none => s.sendDown red.plot v t.treeChildren).sLate t red

/-- CLASS_S_DEADLINE (R271); the commit stile follows R309 in its place. -/
def execClassSDeadline (red : SReduce) (s : State) : Host.Outcome State Fault Refusal :=
  .next (match s.topo? with
    | none => s
    | some t => if red.use = .commit then s else s.deadlineSum t red)

/-! ## Deadlines of stiles (R302) -/

/-- The Class S reduction of a job-wide stile's arrivals. -/
def stileSum (d : StileDecl) : SReduce := ⟨d.plot, .isum, 1, .stile d.stile⟩

/-- A stile's deadline in this tick: something is outstanding on it, and its deadline stitch is the current one (R299). -/
def State.stileDue (s : State) (n : Nat) : Option StileDecl :=
  let x := s.stile n
  if x.armed || !x.waiters.isEmpty then (s.stileDecl n).bind fun d => if d.deadline = s.stitchIx then some d else none else none

/-- STILE_TIMEOUT (R302): a local stile past its deadline is a fault; at the deadline of a job-wide stile R271 applies to its
reduction. -/
def execStileTimeout (stile : Fin 131072) (s : State) : Host.Outcome State Fault Refusal :=
  .next (match s.stileDue stile, s.topo? with
    | some d, some t =>
      if d.jobWide then s.deadlineSum t (stileSum d)
      else (((s.count Reg.STL_TIMEOUTS 32 1).event Reg.STL_EVENT 0).ledgerFatal 5 stile).stopReports
    | _, _ => s)

/-! ## Clear (R273, R439) -/

/-- What CLO_STAT_CTRL.CLR resets; CLO_S_SLACK_MIN returns to its reset value. -/
def cloCounts : List Nat :=
  [Reg.CLO_BLOCKS_TX, Reg.CLO_BLOCKS_RX, Reg.CLO_ADDS, Reg.CLO_SAT_COUNT, Reg.CLO_RECOMPUTE, Reg.CLO_S_DONE,
   Reg.CLO_S_LATE, Reg.CLO_S_DROPS, Reg.CLO_FAIL_INFO, Reg.CLO_FAIL_TICK]

/-- What CLO_STAT_CLR resets, with the events of its cycle (R439). -/
def State.cloClr (s : State) (same : List (Nat × Nat)) : State :=
  ((s.zeroRegs cloCounts).setRegN Reg.CLO_S_SLACK_MIN 0xFFFFFF).sameCycle
    (sameIn (Reg.CLO_S_SLACK_MIN :: cloCounts) same)

/-- CLO_STAT_CLR (R273, R439). -/
def execCloStatClr (same : List (Nat × Nat)) (s : State) : Host.Outcome State Fault Refusal :=
  .next (s.onHost fun s => s.cloClr same)

end Sys2Proof.Machine
end

