-- ==== Sys2Proof/Machine/Ports.lean ====
section
/-! DEFINITION. Pyurn ports as the rest of the module uses them: their state, failure, training, the frames that they send, and the
beacon messages that leave by them (R275 to R289). -/

namespace Sys2Proof.Machine

/-! ## Ports -/

/-- A port. -/
def State.port (s : State) (p : Nat) : Port := storeGet {} s.pyu.ports p

/-- Replace a port. -/
def State.setPort (s : State) (p : Nat) (x : Port) : State :=
  { s with pyu := { s.pyu with ports := storeSet {} s.pyu.ports p x } }

/-- Port states of PYU_PORT.STATE. -/
def portOff : Nat := 0
/-- Powered, not yet answering training. -/
def portWaiting : Nat := 1
/-- In training. -/
def portTraining : Nat := 2
/-- UP. -/
def portUp : Nat := 3
/-- FAILED. -/
def portFailed : Nat := 4
/-- Listening for a wake (R291). -/
def portListen : Nat := 5

/-- A port is UP. -/
def State.isUp (s : State) (p : Nat) : Bool := decide ((s.port p).st = portUp)

/-- An image is RUNNING or ARMED. -/
def State.jobLive (s : State) : Bool := decide (s.image.st = .running ∨ s.image.st = .armed)

/-- A port fails (R282). -/
def State.portFail (s : State) (p : Nat) : State :=
  if (s.port p).st = portFailed then s
  else
    let s1 := ((s.setPort p { s.port p with st := portFailed }).event Reg.PYU_EVENT 0).ledgerFatal 4 p
    if s.jobLive then s1.stopReports else s1

/-- The lane map of a port (R275). -/
def State.laneMap (s : State) (p : Nat) : Word := s.seed (16 + p)

/-- The physical lane of logical lane `j` under a map. -/
def physicalLane (m : Word) (j : Nat) : Nat := bits m.toNat (3 * j + 2) (3 * j)

/-- A physical lane is in service under a map. -/
def laneInService (m : Word) (l : Nat) : Bool := m.getLsbD (24 + l)

/-- The physical lanes of a width. -/
def physLanes (m : Word) (width : Nat) : List Nat := (List.range width).map (physicalLane m)

/-- The width a port takes while no image names one: 8, else 4, as far as its lanes are in service. -/
def defaultWidth (m : Word) : Nat :=
  if (physLanes m 8).all (laneInService m) then 8 else if (physLanes m 4).all (laneInService m) then 4 else 0

/-- The width a port uses: TOPO's, or the default. -/
def State.widthOf (s : State) (p : Nat) : Nat :=
  match s.topoPort p with
  | some e => e.width
  | none => defaultWidth (s.laneMap p)

/-- A port begins its training with the lane map of now; its link starts afresh (R275, R298). -/
def State.trainPort (s : State) (p : Nat) : State :=
  s.setPort p { st := portTraining, width := s.widthOf p, map := s.laneMap p, peerId := (s.port p).peerId,
                peerPort := (s.port p).peerPort, known := (s.port p).known, lane := (s.port p).lane }

/-- Apply a change to each port of a list. -/
def State.eachPort (s : State) (f : State → Nat → State) : List Nat → State
  | [] => s
  | p :: ps => State.eachPort (f s p) f ps

/-- A port that TOPO names takes its width: one that is off trains, one that is up or training at another width trains again, with
the lane map of now; a FAILED one waits for RETRAIN (R275, R276, R282, R379). -/
def State.topoTrain (s : State) (p width : Nat) : State :=
  let x := s.port p
  if x.st = portFailed then s else if x.st = portOff ∨ x.width ≠ width then s.trainPort p else s

/-- At LOADED: a port that TOPO does not name powers down; one that it names takes TOPO's width (R275). -/
def State.topoPorts (s : State) : State :=
  s.eachPort (fun s p =>
    match s.topoPort p with
    | none => s.setPort p {}
    | some e => s.topoTrain p e.width)
    (List.range 16)

/-- With no image, every port with an in-service lane trains (R379). -/
def State.freePorts (s : State) : State :=
  s.eachPort (fun s p =>
    if (s.port p).st = portOff && (List.range 8).any (laneInService (s.laneMap p)) then s.trainPort p else s)
    (List.range 16)

/-- Every port that TOPO names is UP (R285). -/
def State.topoUp (s : State) : Bool := (s.topo?.map fun t => t.ports.all fun e => s.isUp e.port).getD false

/-! ## Frames (R277 to R281) -/

/-- The next SEQ. -/
def nextSeq (n : Nat) : Nat := (n + 1) % 4096

/-- Credits to return: one more entry, or more for a plot already waiting. -/
def addReturn (rs : List (Nat × Nat)) (plot n : Nat) : List (Nat × Nat) :=
  if rs.any fun r => decide (r.1 = plot) then rs.map fun r => if r.1 = plot then (r.1, r.2 + n) else r else rs ++ [(plot, n)]

/-- The credits that the next frame returns, and those left, round robin over plots (R281). -/
def takeReturn : List (Nat × Nat) → (Nat × Nat) × List (Nat × Nat)
  | [] => ((0, 0), [])
  | (q, n) :: rs => if 63 < n then ((q, 63), rs ++ [(q, n - 63)]) else ((q, n), rs)

/-- A frame without payload. -/
def idleFrame : Frame := ⟨0, 0, 0, 0, 0, 0, 0, false, 0, 0, 0, []⟩

/-- A new frame of a port: it takes the next SEQ, carries ACK, NAK, credits and its chunk of the beacon message in
progress, and joins the replay buffer (R278, R280, R281, R286). -/
def State.pushFrame (s : State) (p : Nat) (body : Frame) : State :=
  let x := s.port p
  let (b, bs) := if x.txSeq % 8 = 0 then (x.beacons.headD 0, x.beacons.drop 1) else (x.beacon, x.beacons)
  let ((q, n), rs) := takeReturn x.returns
  let f : Frame := { body with
    seq := x.txSeq, ack := x.rxSeq, nak := x.asking, creditPlot := q, creditCount := n,
    beacon := BitVec.ofNat 32 (b / 2 ^ (32 * (x.txSeq % 8))) }
  let s1 := s.setPort p { x with txSeq := nextSeq x.txSeq, sent := x.sent ++ [(f, 0)], returns := rs, beacon := b,
                                  beacons := bs }
  ((s1.bel64 (portCnt p 4) x.asking.toNat).bel64 (portCnt p 15) n).send (.frame p f)

/-- The frame at a place of the replay buffer goes again, with the acknowledgement of now (R280). -/
def State.sendAgain (s : State) (p i : Nat) : State :=
  let x := s.port p
  match x.sent[i]? with
  | none => s.setPort p { x with cursor := none }
  | some (f, _) =>
    let s1 := s.setPort p { x with cursor := if i + 1 < x.sent.length then some (i + 1) else none }
    (s1.bel64 (portCnt p 4) x.asking.toNat).send (.frame p { f with ack := x.rxSeq, nak := x.asking })

/-- A replay from the oldest unacknowledged frame; after 16 replays of one frame the port fails (R280, R282). -/
def State.startReplay (s : State) (p : Nat) : State :=
  let x := s.port p
  match x.sent with
  | [] => s
  | (f, n) :: _ =>
    if 16 ≤ n then s.portFail p
    else
      let s1 := s.setPort p { x with sent := x.sent.map fun e => (e.1, e.2 + 1), cursor := some 0 }
      (((s1.count (bankKey Reg.PYU_REPLAYS p) 32 1).live (0x7A0 + 4 * p) 1).bel64 (portCnt p 3) 1 |>.event
        Reg.PYU_EVENT 1).trace (dieOf p 8) 0x11 p (f.seq + 2 ^ 16 * (n + 1))

/-- One frame period of the sender (R277): a replay in progress goes on; with 64 frames unacknowledged one starts (R280); otherwise
`new` is sent. -/
def State.framePeriod (s : State) (p : Nat) (new : State → State) : State :=
  if (s.port p).st ≠ portUp then s
  else match (s.port p).cursor with
    | some i => s.sendAgain p i
    | none =>
      if 64 ≤ (s.port p).sent.length then
        let s1 := s.startReplay p
        if (s1.port p).st = portUp then s1.sendAgain p 0 else s1
      else new s

/-! ## Calibration (R289) -/

/-- The next `n` bits of PRBS31, as a number whose lowest bit comes first, with the generator after them. The polynomial x^31 + x^28 + 1
is the family's (PRESUMED, log 82). -/
def prbs31 (g : Nat) : Nat → Nat × Nat
  | 0 => (0, g)
  | n + 1 =>
    let bit := (g / 2 ^ 30 + g / 2 ^ 27) % 2
    let r := prbs31 ((2 * g + bit) % 2 ^ 31) n
    (bit + 2 * r.1, r.2)

/-- `n` bytes of the sequence. -/
def prbsBytes (g : Nat) : Nat → List Byte × Nat
  | 0 => ([], g)
  | n + 1 =>
    let b := prbs31 g 8
    let r := prbsBytes b.2 n
    (BitVec.ofNat 8 b.1 :: r.1, r.2)

/-- A calibration frame goes out; where the sequence of a port starts, no rule states: a free value. -/
def State.calibrate (s : State) (p : Nat) : State :=
  let x := s.port p
  let start := if x.prbs = 0 then 1 + s.fresh.toNat % (2 ^ 31 - 1) else x.prbs
  let r := prbsBytes start 5120
  let s1 := if x.prbs = 0 then s.used else s
  (s1.setPort p { x with prbs := r.2 }).pushFrame p { idleFrame with kind := 3, flits := 20, payload := r.1 }

/-- In the maintenance slot a port that is UP sends a calibration frame to its partner. -/
def State.calibratePort (s : State) (p : Nat) : State := s.framePeriod p fun s => s.calibrate p

/-! ## Beacon messages (R286) -/

/-- The 256 bits of a message. -/
def beaconBits (b : Beacon) : Nat :=
  1 + 2 * b.down.toNat + 4 * b.cause.toNat + 8 * b.holds.toNat + 16 * b.mismatch.toNat + 32 * b.gate.toNat +
    2 ^ 16 * (b.tick % 2 ^ 48) + 2 ^ 64 * (b.stepId % 2 ^ 64) + 2 ^ 128 * b.affected.toNat + 2 ^ 192 * (b.covered % 65536)

/-- A message waits at the port that reaches a rank, counted as one up (17) or down (18). -/
def State.queueBeacon (s : State) (rank : Nat) (b : Nat) (k : Nat) : State :=
  match s.portOf rank with
  | some p => (s.setPort p { s.port p with beacons := (s.port p).beacons ++ [b] }).bel64 (portCnt p k) 1
  | none => s

/-- Send a message to the parent. -/
def State.sendBeaconUp (s : State) (parent : Nat) (b : Beacon) : State :=
  (s.send (.beaconUp parent b)).queueBeacon parent (beaconBits b) 17

/-- Send a message to each child. -/
def State.sendBeaconDown (s : State) (b : Beacon) : List Nat → State
  | [] => s
  | c :: cs => State.sendBeaconDown ((s.send (.beaconDown c b)).queueBeacon c (beaconBits b) 18) b cs

/-- The TICK value of a start message (R49). -/
def startTick : Nat := 0xFFFFFFFFFFFF

/-- A start message (R49). -/
def startBeacon (down : Bool) (covered : Nat) : Beacon := ⟨down, false, false, false, 0, startTick, 0, 0, covered⟩

/-- Send the upward start message. -/
def State.sendStartUp (s : State) (parent covered : Nat) : State :=
  (s.send (.startUp parent covered)).queueBeacon parent (beaconBits (startBeacon false covered)) 17

/-- Send the downward start message to each child. -/
def State.sendStartDown (s : State) : List Nat → State
  | [] => s
  | c :: cs =>
    let n := s.jobSize - 1
    State.sendStartDown ((s.send (.startDown c)).queueBeacon c (beaconBits (startBeacon true n)) 18) cs

end Sys2Proof.Machine
end

