-- ==== Sys2Proof/Machine/Trellis.lean ====
section
/-! DEFINITION. The Trellis: the dynamic arbiter of an output, seam failures, and the clear (R193 to R212). -/

namespace Sys2Proof.Machine

/-- The dynamic classes in the arbiter's order (R202). -/
def dynOrder : List DynClass := [.cloister, .pyurn, .hostDma, .atomics, .trace, .management]

/-- A class's place in that order. -/
def dynIndex : DynClass → Nat
  | .cloister => 0 | .pyurn => 1 | .hostDma => 2 | .atomics => 3 | .trace => 4 | .management => 5

/-- The default weights (R203). -/
def defaultWeight : Nat → Nat
  | 0 | 1 => 8 | 2 | 3 => 4 | _ => 1

/-- A class's weight: the ROUTE section's, or the default where it gives 0 or no image is held (R203). -/
def State.weight (s : State) (k : Nat) : Nat :=
  let w := (s.sections?.map fun x => x.weights.getD k 0).getD 0
  if w = 0 then defaultWeight k else w

/-- The classes held at their sources during the maintenance slot (R205). -/
def heldClass : DynClass → Bool
  | .cloister | .pyurn | .atomics => true
  | _ => false

/-- A requester's number. -/
def reqKey (q : TrlReq) : Nat := q.port.val * 6 + dynIndex q.cls

/-- The requester of a class served next: the first eligible port from its round-robin place. -/
def nextPort (a : Arbiter) (es : List TrlReq) (k : Nat) : Option TrlReq :=
  ((List.range 8).map fun i => (storeGet 0 a.ports k + i) % 8).findSome? fun p =>
    es.find? fun q => q.port.val = p ∧ dynIndex q.cls = k

/-- The classes in the order the arbiter visits them now: the current one while it has weight left, then the others,
then the current one again. -/
def visits (a : Arbiter) (weight : Nat) : List Nat :=
  (if a.taken < weight then [a.cls] else []) ++ (List.range 6).map fun i => (a.cls + 1 + i) % 6

/-- The requester that a grant goes to (R202). -/
def pick (a : Arbiter) (es : List TrlReq) (weight : Nat) : Option TrlReq :=
  match a.promoted.find? fun q => es.contains q with
  | some q => some q
  | none => (visits a weight).findSome? (nextPort a es)

/-- The arbiter's weighted round robin after a grant to `q` that was not a promotion's. -/
def advance (a : Arbiter) (q : TrlReq) (weight : Nat) : Arbiter :=
  let k := dynIndex q.cls
  { a with ports := storeSet 0 a.ports k (q.port.val + 1), cls := k,
           taken := if k = a.cls ∧ a.taken < weight then a.taken + 1 else 1 }

/-- Count a grant against the eligible requesters it passed over; those at 64 are promoted, in order of port and class. -/
def passOver (a : Arbiter) (others : List TrlReq) : Arbiter × Nat :=
  let passed := others.foldl (fun m q => storeSet 0 m (reqKey q) (storeGet 0 m (reqKey q) + 1)) a.passed
  let new := (others.filter fun q => decide (64 ≤ storeGet 0 passed (reqKey q)) && !a.promoted.contains q).insertionSort
    fun x y => reqKey x ≤ reqKey y
  ({ a with passed := passed, promoted := a.promoted ++ new }, new.length)

/-- The arbiter after a grant, and how many requesters it promoted. -/
def granted (a : Arbiter) (q : TrlReq) (es : List TrlReq) (weight : Nat) : Arbiter × Nat :=
  let a1 := if a.promoted.contains q then { a with promoted := a.promoted.filter fun p => p ≠ q } else advance a q weight
  passOver { a1 with passed := storeSet 0 a1.passed (reqKey q) 0 } (es.filter fun p => p ≠ q)

/-- Usable slots per frame of an output; 0 for an unused port (R193, R194). -/
def portSlots (router port : Nat) : Nat :=
  let x := router % 8
  let row := x / 4
  let seam := (port = 1 ∧ router < 8 ∧ x % 4 = 3) ∨ (port = 3 ∧ 8 ≤ router ∧ x % 4 = 0)
  let edge := (port = 0 ∧ row = 0) ∨ (port = 2 ∧ row = 1) ∨ (port = 1 ∧ 8 ≤ router ∧ x % 4 = 3) ∨
    (port = 3 ∧ router < 8 ∧ x % 4 = 0)
  if seam then 1250
  else if edge then 0
  else if port = 5 then 256
  else if port = 6 then 128
  else if port = 7 ∧ x ≠ 0 ∧ x ≠ 1 ∧ x ≠ 2 then 0
  else 1536

/-- Least dynamic slots per frame of an output (R200): the seam links, HBM, PYU, else 12 lanes. -/
def leastDynamic (router port : Nat) : Nat :=
  if port = 5 then 32 else if port = 6 then 16
  else if (port = 1 ∧ (router = 3 ∨ router = 7)) ∨ (port = 3 ∧ (router = 8 ∨ router = 12)) then 157 else 192

/-- The requesters of an output: the six dynamic classes at each other port in use (R193, R202). -/
def requesters (router port : Nat) : Nat :=
  6 * ((List.range 8).filter fun p => decide (p ≠ port ∧ portSlots router p ≠ 0)).length

/-- The bound of R204 in cycles: 64 + R − 1 grants at the output's least dynamic slots, and one frame more. -/
def waitBound (router port : Nat) : Nat :=
  let d := leastDynamic router port
  ((63 + requesters router port + d - 1) / d + 1) * 128

/-- TRL_WEIGHTS: the weights in force (R203, R212). -/
def State.weights (s : State) : Nat := ((List.range 6).map fun k => s.weight k * 16 ^ k).sum

/-- The arbiter of an output. -/
def State.arbiter (s : State) (o : Nat) : Arbiter := storeGet {} s.trl.arbs o

/-- Count a grant (R212, R408). -/
def State.countGrant (s : State) (router port : Nat) (reuse : Bool) (wait promoted : Nat) : State :=
  let o := router * 8 + port
  let s1 := ((s.count (bankKey Reg.TRL_DYN_GRANTS o) 64 1).count (bankKey Reg.TRL_SLOT_REUSE o) 64 reuse.toNat).count
    (bankKey Reg.TRL_PROMOTIONS o) 64 promoted
  let s2 := s1.maxReg (bankKey Reg.TRL_WAIT_MAX o) (min wait 65535)
  ((s2.bel64 (clusterCnt router (17 + port)) 1).bel64 (clusterCnt router (33 + port)) reuse.toNat).bel64
    (clusterCnt router (41 + port)) promoted

/-- DYNAMIC_ARBITRATION (R202): one grant in a free or empty slot; with no eligible requester nothing happens. -/
def execDynamicArbitration (router : Fin 16) (port : Fin 8) (eligible : List TrlReq) (reuse : Bool) (wait : Nat)
    (s : State) : Host.Outcome State Fault Refusal :=
  let o := router.val * 8 + port.val
  let a := s.arbiter o
  let es := eligible.filter fun q => !(s.tick.inMaint && heldClass q.cls)
  let w := s.weight a.cls
  match pick a es w with
  | none => .next s
  | some q =>
    let (a', n) := granted a q es w
    let s1 : State := { s with trl := { s.trl with arbs := storeSet {} s.trl.arbs o a' } }
    let s2 := s1.countGrant router port reuse wait n
    .next (if waitBound router port < wait then (s2.event Reg.TRL_EVENT 0).ledgerFatal 6 router else s2)

/-- SEAM_CRC_FAIL (R211): the flit is replayed; the 16th failure in a row stops the module's reports. -/
def execSeamCrcFail (die link : Fin 2) (again : Bool) (s : State) : Host.Outcome State Fault Refusal :=
  let k := die.val * 2 + link.val
  let n := if again then storeGet 0 s.trl.fails k + 1 else 1
  let s1 : State := { s with trl := { s.trl with fails := storeSet 0 s.trl.fails k n } }
  .next (if 16 ≤ n then ((s1.event Reg.TRL_EVENT 2).ledgerFatal 1 link).stopReports
    else (((s1.count Reg.TRL_SEAM_REPLAY 32 1).event Reg.TRL_EVENT 1).live (0x7E0 + 4 * link) 1).bel64 (dieCnt die 15) 1)

/-- The registers of the block that are banked by output, and the others that TRL_STAT_CTRL.CLR resets. -/
def trlBanked : List Nat := [Reg.TRL_DYN_GRANTS, Reg.TRL_SLOT_REUSE, Reg.TRL_PROMOTIONS, Reg.TRL_WAIT_MAX]

/-- The package counters of the block. -/
def trlPlain : List Nat := [Reg.TRL_SEAM_REPLAY, Reg.TRL_SPAD_PROMOTE]

/-- What TRL_STAT_CLR resets, with the events of its cycle (R439). -/
def State.trlClr (s : State) (same : List (Nat × Nat)) : State :=
  ((s.zeroBanks trlBanked).zeroRegs trlPlain).sameCycle (sameIn (trlBanked ++ trlPlain) same)

/-- TRL_STAT_CLR (R212, R439). -/
def execTrlStatClr (same : List (Nat × Nat)) (s : State) : Host.Outcome State Fault Refusal :=
  .next (s.onHost fun s => s.trlClr same)

end Sys2Proof.Machine
end

