-- ==== Sys2Proof/Machine/Ticks.lean ====
section
/-! DEFINITION. Ticks: stitch-done reports and their combination, the halt, the edge with all that it closes and opens,
the maintenance slot (R56 to R65, R71 to R74, R141, R142). -/

namespace Sys2Proof.Machine

/-! ## Local conditions of the gate (R72) -/

/-- The cap floor of the held image (R35). -/
def State.capFloor (s : State) : Nat := (s.sections?.map Sections.floor).getD 0

/-- The persisted cap lies below the floor of a started image (R356). -/
def State.belowFloor (s : State) : Bool := s.jobLive && decide (s.capSet < s.capFloor)

/-- The local conditions: epoch, stale, floor, thermal, in bits 0 to 3 (R286). -/
def State.localGate (s : State) : BitVec 4 :=
  BitVec.ofNat 4 ((decide (s.commit.outcome = 3)).toNat + 2 * s.pwr.stale.toNat + 4 * s.belowFloor.toNat +
    8 * (!s.hbm.cond.isEmpty).toNat)

/-- Spread the four local conditions over the even places of ADM_GATE bits 1 to 8, the peers' over the odd ones. -/
def gateBits (own peer : BitVec 4) : BitVec 8 :=
  BitVec.ofNat 8 (((List.range 4).map fun i =>
    (own.getLsbD i).toNat * 2 ^ (2 * i) + (peer.getLsbD i).toNat * 2 ^ (2 * i + 1)).sum)

/-- An edge latches the gate; the first differing EPOCH of R315 shows as EPOCH_PEER (R72, R78). -/
def State.latchGate (s : State) (own job : BitVec 4) : State :=
  let g := gateBits own (job &&& ~~~own) ||| (if s.adm.epochPeer then 2 else 0)
  let s1 : State := { s with adm := { s.adm with gate := g } }
  if s.adm.gate = 0 ∧ g ≠ 0 then s1.event Reg.ADM_EVENT 2
  else if s.adm.gate ≠ 0 ∧ g = 0 then s1.event Reg.ADM_EVENT 3 else s1

/-! ## Reports (R62, R71, R141, R287) -/

/-- This module's own report as it stands now. In the commit stitch "a cause arose here" is this step's local cause, which one that
arises after the vote is not (R141, R312; DESIGN CHOICE, log 77); the last report of a slot carries the step_id latched at the
binding edge (R71). -/
def State.ownBeacon (s : State) : Beacon :=
  { down := false
    cause := s.inCommit && (s.tick.step.map fun r => r.cause.isSome).getD false
    holds := s.lastOfSlot && s.tick.latched.isSome
    mismatch := false
    gate := s.localGate
    tick := s.tick.now
    stepId := if s.lastOfSlot then s.tick.latched.getD 0 else 0
    affected := if s.inCommit then s.reg Reg.QNT_AFFECTED else 0
    covered := 0 }

/-- Combine two reports; a step that only one side holds is a mismatch (R286, R287). -/
def joinBeacon (a b : Beacon) : Beacon :=
  { down := false
    cause := a.cause || b.cause
    holds := a.holds && b.holds
    mismatch := a.mismatch || b.mismatch || decide (a.holds ≠ b.holds) || decide (a.stepId ≠ b.stepId)
    gate := a.gate ||| b.gate
    tick := a.tick
    stepId := a.stepId
    affected := a.affected ||| b.affected
    covered := a.covered + b.covered + 1 }

/-- The children's messages for this tick. -/
def State.kidsNow (s : State) : List Beacon :=
  ((s.topo?.map Topo.beaconChildren).getD []).filterMap fun c =>
    (s.tick.kids.find? fun k => k.1 = c ∧ k.2.tick = s.tick.now % 2 ^ 48).map Prod.snd

/-- Hold the combined report (R62), and forward it. -/
def State.holdReport (s : State) (b : Beacon) (delay : Nat) : State :=
  let s1 := (s.maxReg Reg.PYU_BEACON_MAX (min delay (2 ^ 32 - 1))).sendBeaconDown b
    ((s.topo?.map Topo.beaconChildren).getD [])
  { s1 with tick := { s1.tick with held := some b } }

/-- With its own report and one from every child, the module sends its upward message; the root sends the combination
down when it covers the job (R287). -/
def State.tryReport (s : State) (delay : Nat) : State :=
  match s.topo?, s.tick.own with
  | some t, some own =>
    if s.tick.sentUp || decide (s.kidsNow.length < t.beaconChildren.length) then s
    else
      let b := s.kidsNow.foldl joinBeacon own
      let s1 : State := { s with tick := { s.tick with sentUp := true } }
      match t.beaconParent with
      | some p => s1.sendBeaconUp p b
      | none =>
        if b.covered + 1 = s.jobSize then s1.holdReport { b with down := true } delay else s1.event Reg.TICK_EVENT 4
  | _, _ => s

/-- The module sends its stitch-done report, unless it has stopped its reports. -/
def State.sendReport (s : State) : State :=
  if s.tick.stopped || s.tick.own.isSome then s
  else ({ s with tick := { s.tick with own := some s.ownBeacon } } : State).tryReport 0

/-! ## Divergence (R353, R354) -/

/-- The ratio of two numbers, rounded once to FP32. -/
def ratioF (m p : Nat) : Word :=
  let q := m * 2 ^ 80 / p
  roundF ⟨false, 2 * q + (decide (m * 2 ^ 80 % p ≠ 0)).toNat, -81⟩

/-- A run of divergent ticks ends: its record. -/
def State.endRun (s : State) : State :=
  if s.pwr.runLen = 0 then s
  else
    let s1 := (s.ledgerEvent 0x0D 1 0 0 (leBytes 8 s.pwr.runFirst ++ leBytes 8 s.pwr.runLen ++
      leBytes 4 (ratioF s.pwr.worst.1 s.pwr.worst.2).toNat)).live 0xBF8 1
    { s1 with pwr := { s1.pwr with runLen := 0, streak := 0 } }

/-- |m − p|. -/
def gap (m p : Nat) : Nat := max m p - min m p

/-- The tick that ends was divergent. -/
def State.divergent (s : State) (m p : Nat) : State :=
  let w := s.pwr
  let first := if w.runLen = 0 then s.tick.now else w.runFirst
  let worst := if w.runLen = 0 ∨ gap w.worst.1 w.worst.2 * p < gap m p * w.worst.2 then (m, p) else w.worst
  let s1 : State := { s with pwr := { w with
    runFirst := first, runLen := w.runLen + 1, streak := w.streak + 1, worst := worst } }
  if w.streak + 1 = 64 ∧ w.stale = false then
    ({ s1 with pwr := { s1.pwr with stale := true } } : State).live 0xBFC 1
  else s1

/-- The edge forms k and judges the tick that ends; an empty stitch is not compared (R353, R354). -/
def State.powerEdge (s : State) (m p : Nat) : State :=
  match s.tick.step with
  | none => { s with pwr := { s.pwr with kNum := 1, kDen := 1 } }
  | some _ =>
    let s1 : State := { s with pwr := { s.pwr with kNum := if p < m then m else 1, kDen := if p < m then p else 1 } }
    if 15 * p < 100 * gap m p then s1.divergent m p else s1.endRun

/-! ## The raised set (R38, R141 to R143) -/

/-- clean_steps of a group. -/
def State.cleanSteps (s : State) (g : Nat) : Nat :=
  ((s.sections?.bind fun x => x.cleanSteps.find? fun e => e.1 = g).map Prod.snd).getD 0

/-- One group at the edge of R141. -/
def State.raiseGroup (s : State) (b : Beacon) (g : Nat) : State :=
  let t := s.tick
  let up := t.raised.getLsbD g
  let m := BitVec.ofNat 64 (2 ^ g)
  if b.affected.getLsbD g then
    { s with tick := { t with raised := t.raised ||| m, clean := storeSet 0 t.clean g 0,
                              raises := if up then t.raises else storeSet 0 t.raises g (storeGet 0 t.raises g + 1) } }
  else if up && !b.cause then
    let n := storeGet 0 t.clean g + 1
    if s.cleanSteps g ≤ n then
      { s with tick := { t with raised := t.raised &&& ~~~m, clean := storeSet 0 t.clean g 0 } }
    else { s with tick := { t with clean := storeSet 0 t.clean g n } }
  else s

/-- Every group. -/
def State.raiseGroups (s : State) (b : Beacon) : State := (List.range 64).foldl (fun s g => s.raiseGroup b g) s

/-- Bits set in a mask. -/
def popCount (m : BitVec 64) : Nat := ((List.range 64).filter fun i => m.getLsbD i).length

/-- The variant of a raised set: the fewest bits set among the masks that contain it, then the lowest index (R38). -/
def chooseVariant (x : Sections) (raised : BitVec 64) : Nat :=
  let fits := (List.range (x.variants.length + 1)).filter fun v => raised &&& ~~~(maskOf x v) = 0
  match fits with
  | [] => 0
  | v :: vs => vs.foldl (fun best w => if popCount (maskOf x w) < popCount (maskOf x best) then w else best) v

/-! ## Completing a slot (R73, R74, R305, R306) -/

/-- Chain plots return to the pool (R70). -/
def State.returnPlots (s : State) (n : Nat) : State :=
  { s with adm := { s.adm with freePlots := s.adm.freePlots + n } }

/-- The status of the ticket of slot `k` at the edge that ends its deadline tick: what the commit gave its step, or
UNMATCHED when the slot ran empty. -/
def State.slotStatus (s : State) (k : Nat) : StepStatus × Nat :=
  match s.tick.step with
  | some r => if r.slot = k then r.acted.getD (.halted, 0) else (.unmatched, 0)
  | none => (.unmatched, 0)

/-- Complete the ticket of a slot. -/
def State.completeSlot (s : State) (k : Nat) : State :=
  match s.adm.accepted.find? fun e => e.1 = k with
  | none => s
  | some (_, t) =>
    let (st, c) := s.slotStatus k
    let s1 := if st = .clean then s.chainBack s.chainTable s.commit.bound else s
    let s2 := (s1.complete ⟨t.tag, t.stepId, s.deadline k, st, c⟩).returnPlots t.plots
    { s2 with adm := { s2.adm with accepted := s2.adm.accepted.filter fun e => e.1 ≠ k } }

/-- The running step is over: LAST_POSITION.IN_STEP reads 0. -/
def State.endStep (s : State) : State :=
  ({ s with tick := { s.tick with step := none } } : State).setBit Reg.LAST_POSITION 16 false

/-! ## The halt (R65) -/

/-- Accumulators, vector registers, masks K1 to K7 and tile buffers are cleared at START, at a halt and at a load
(R153, R169); no chain waits then. -/
def State.clearEngines (s : State) : State :=
  { s with me := { s.me with acc := [], accSeed := 0 }
           ve := { s.ve with regs := [], masks := [], bufs := [], ready := [], waiting := [] } }

/-- Nothing of a reduction, a stream, a staged segment or update work reaches from one run into another: at START, at a halt and at a
load (R65, R272, R304). -/
def State.clearStreams (s : State) : State :=
  ({ s with clo := {}
            pyu := { s.pyu with xch := [], ends := [], tx := [], occ := [] }
            seg := { s.seg with staged := [], charges := [], layers := [], waiting := [], spread := [] }
            upd := { s.upd with waiting := [], segs := [] } } : State).mapPlots fun p => { p with arrived := 0, landed := [] }

/-- HELD takes CREDITS at the sending end, and no frame occupies a receiving one, at START and after a halt (R303, R304). -/
def State.fillCredits (s : State) : State := s.mapPlots fun p => { p with held := if p.recv then 0 else p.credits }

/-- Tickets in order of slot. -/
def bySlot (xs : List (Nat × Ticket)) : List (Nat × Ticket) := xs.insertionSort fun a b => a.1 ≤ b.1

/-- With no image RUNNING the full required shares apply, and no throttle condition stands (R229). -/
def State.unthrottle (s : State) : State := ({ s with hbm := { s.hbm with cond := [] } } : State).applyShares 8

/-- The module halts (R65, R74, R143). -/
def State.halt (s : State) : State :=
  let plots := (s.adm.accepted.map fun e => e.2.plots).sum
  let s1 := ((s.completeAll (bySlot s.adm.accepted)).returnPlots plots).endRun
  let s2 : State := { s1 with
    adm := { s1.adm with accepted := [], slots := [] }
    image := { s1.image with st := if s1.image.st = .running then .loaded else s1.image.st }
    tick := { s1.tick with ticking := false, halted := true, inMaint := false, own := none, kids := [], sentUp := false,
                           held := none, latched := none, raised := 0, clean := [], maintDue := 0 } }
  let s3 := s2.setCommit { s2.commit with bound := [] }
  (s3.endStep.fillCredits.clearEngines.clearStreams.unthrottle).event Reg.TICK_EVENT 2

/-- EDGE_TIMEOUT_HALT (R65): a report is still missing. -/
def execEdgeTimeoutHalt (s : State) : Host.Outcome State Fault Refusal :=
  .next (if s.tick.ticking && s.tick.held.isNone then s.halt else s)

/-! ## Closing a tick -/

/-- TICK_SLIP grows by a lateness; no rule says what a sum beyond 64 bits reads as, so that is a free value. -/
def State.slip (s : State) (late : Nat) : State :=
  let n := s.regN Reg.TICK_SLIP + late
  if n < 2 ^ 64 then s.setRegN Reg.TICK_SLIP n else (s.setReg Reg.TICK_SLIP s.fresh).used

/-- A late edge (R63). -/
def State.lateEdge (s : State) (late : Nat) : State :=
  if late = 0 then s
  else
    let s1 := ((s.slip late).maxReg Reg.TICK_LATE_MAX (min late (2 ^ 32 - 1))).count
      Reg.TICK_LATE_COUNT 32 1
    (((s1.event Reg.TICK_EVENT 0).belBoth 1 1).belBoth 2 late).traceBoth 0x03 late

/-- The last stitch of the running variant with update work (R240). -/
def State.lastUpdate (s : State) : Option Nat :=
  s.sections?.bind fun x =>
    let st := stitchesOf x ((s.tick.step.map RunStep.variant).getD 0)
    ((List.range st.length).filter fun i => (st[i]?.map Stitch.update).getD false).getLast?

/-- The other slab becomes COMPLETE at the edge that ends the last stitch carrying update work (R240). -/
def State.shadowEdge (s : State) : State :=
  if s.tick.step.isSome ∧ s.lastUpdate = some s.stitchIx ∧ s.upd.shadow = .writing ∧ s.upd.shadowStep = s.stepId then
    ({ s with upd := { s.upd with shadow := .complete } } : State).event Reg.UPD_EVENT 2
  else s

/-- What an edge closes: lateness, power, the raised set after the commit stitch, the other slab, the slot. -/
def State.closeTick (s : State) (late measured predicted : Nat) (b : Beacon) : State :=
  let s1 := (s.lateEdge late).powerEdge measured predicted
  let s2 := if s1.inCommit then s1.raiseGroups b else s1
  let s3 := s2.shadowEdge
  if s3.lastOfSlot then
    let s4 := (s3.completeSlot s3.slotNow).endStep
    s4.setCommit { s4.commit with bound := [] }
  else s3

/-! ## Opening a tick -/

/-- Bind a chain index to a pool plot: it loads its entry of the chain table (R305, R306). -/
def State.bindChain (s : State) (table first i : Nat) : State :=
  let a := table + 24 * i
  let p := first + i
  let s1 := s.setPlot p { s.plot p with base := s.opNat a 8, limit := s.opNat (a + 8) 8, used := s.opNat (a + 16) 8 }
  s1.bel64 (dieCnt (p / 131072) 13) 1

/-- Bind the chain indices 0 to n − 1. -/
def State.bindChains (s : State) (table first : Nat) : Nat → State
  | 0 => s
  | n + 1 => (State.bindChains s table first n).bindChain table first n

/-- A plot at the first stitch of a step: POSITION and BRANCH return to 0, but for frames of this step that came before the edge
(R304, R309). -/
def State.plotAtStart (s : State) (k : Nat) (p : Plot) : Plot :=
  let n := if p.recv then (s.linkEnd k p.port true).early else 0
  { p with position := n, branch := if n = 0 then 0 else p.branch, landed := [] }

/-- An end of a stream at the first stitch of a step: `key` is that of `PyurnSt.ends`. -/
def State.endAtStart (s : State) (key : Nat) (e : LinkEnd) : LinkEnd :=
  { e.nextStep with vecs := if key % 2 = 1 then (storeGet [] s.clo.early (key / 2)).length else 0 }

/-- The streams of a step begin: what came early counts from now on, and nothing of the step before is left (R265, R271, R304). -/
def State.stepStreams (s : State) : State :=
  { s with stl := { s.stl with plots := s.stl.plots.map fun e => (e.1, s.plotAtStart e.1 e.2) }
           clo := { vecs := s.clo.early }
           pyu := { s.pyu with ends := s.pyu.ends.map (fun e => (e.1, s.endAtStart e.1 e.2)), tx := [], occ := [] }
           seg := { s.seg with staged := [], charges := [], layers := [], waiting := [], spread := [] } }

/-- A step starts (R38, R57, R145, R245, R304, R305). QNT_RAISED, QNT_RUN_MASK and QNT_AFFECTED are set here, and keep the last step's
values while no step runs (DESIGN CHOICE, log 77). -/
def State.startStep (s : State) (x : Sections) (k : Nat) (t : Ticket) : State :=
  let v := chooseVariant x s.tick.raised
  let s1 : State := { s with
    tick := { s.tick with step := some { slot := k, stepId := t.stepId, plots := t.plots, input := t.input, variant := v } }
    pwr := { s.pwr with parked := false } }
  let s2 := s1.stepStreams.setCommit { s1.commit with
    votes := [], sent := false, combo := none, bound := (List.range t.plots).map fun i => (i, x.plot.poolFirst + i) }
  let s3 := (s2.bindChains s2.chainTable x.plot.poolFirst t.plots).stepCoefficients
  let s4 := ((s3.setReg Reg.QNT_AFFECTED 0).setReg Reg.QNT_RAISED s.tick.raised).setReg Reg.QNT_RUN_MASK (maskOf x v)
  s4.live 0x800 1

/-- The slot that opens carries the step that every module holds, or runs empty (R71). -/
def State.openSlot (s : State) (x : Sections) (b : Beacon) : State :=
  let k := s.slotNow
  match s.adm.accepted.find? fun e => e.1 = k, s.tick.latched with
  | some (_, t), some _ => if b.holds && !b.mismatch then s.startStep x k t else s.event Reg.TICK_EVENT 3
  | _, _ => if b.mismatch then s.event Reg.TICK_EVENT 3 else s

/-- The binding edge of slot k opens tick k·S − 1: the step_id held for it is latched (R69, R71). -/
def State.bindSlot (s : State) : State :=
  { s with tick := { s.tick with latched :=
      if s.lastOfSlot then (s.adm.accepted.find? fun e => e.1 = s.slotNow + 1).map fun e => e.2.stepId else none } }

/-- The stitch of the tick starts: its layout, phase and variant show (R40, R57), and a tick of an empty slot reports at
once (R60). -/
def State.startStitch (s : State) : State :=
  let v := (s.tick.step.map RunStep.variant).getD 0
  let (lay, ph) := (s.stitch?.map fun st => (st.layout, st.phase)).getD (0, 0)
  let s1 := (s.belBoth 0 1).traceBoth 0x01 (s.stitchIx + 2 ^ 32 * v + 2 ^ 40 * lay + 2 ^ 48 * ph)
  if s.tick.step.isSome then
    (s1.belBoth 3 1).setRegN Reg.LAST_POSITION (lay + 16 * ph + 256 * v + 65536)
  else
    let slack := s.tickLen - s.maintLen
    let s2 := ((s1.belBoth 4 1).minReg Reg.TICK_SLACK_MIN slack).traceBoth 0x02 (s.stitchIx + 2 ^ 32 * slack)
    ({ s2 with tick := { s2.tick with done := true } } : State).sendReport

/-- The cap waiting for an edge takes effect; below the floor the module parks once no ticket is left (R351, R356). -/
def State.capEdge (s : State) : State :=
  let s1 : State := { s with pwr := { s.pwr with cap := s.pwr.capNext.getD s.pwr.cap, capNext := none } }
  if s1.belowFloor && s1.adm.accepted.isEmpty && s1.tick.step.isNone then
    { s1 with pwr := { s1.pwr with parked := true } }
  else s1

/-- Begin tick `n`: its reserve account, no report yet, children's earlier messages dropped; shares and the cap apply
(R58, R229). -/
def State.beginTick (s : State) (n : Nat) : State :=
  let s1 : State := { s with
    tick := { s.tick with now := n, inMaint := false, done := false, overrun := false, debited := 0, own := none,
                          sentUp := false, held := none,
                          kids := s.tick.kids.filter fun k => n % 2 ^ 48 ≤ k.2.tick } }
  (s1.applyShares 8).capEdge

/-- The counters are copied at the last cycle before the edge when a snapshot waits for it (R409). -/
def State.belCopy (s : State) : State :=
  { (s.setRegN Reg.BEL_SNAP_TICK s.stampTick) with
    bel := { s.bel with snap := s.bel.cnt, snapAtEdge := false } }

/-- The slot table of the stitch that has opened is in force (R199). -/
def State.loadTable (s : State) : State :=
  { s with trl := { s.trl with table := (s.stitch?.map Stitch.slotTable).getD 0 } }

/-- The edge, with the combined report held (R62). -/
def State.edge (s : State) (x : Sections) (late measured predicted : Nat) (b : Beacon) : State :=
  let s0 := if s.bel.snapAtEdge then s.belCopy else s
  let own := (s0.tick.own.map Beacon.gate).getD 0
  let s1 := s0.closeTick late measured predicted b
  let s2 := (s1.beginTick (s1.tick.now + 1)).latchGate own b.gate
  let s3 := if s2.tick.now % s2.stepLen = 0 then s2.openSlot x b else s2
  s3.loadTable.bindSlot.startStitch

/-- TICK_EDGE (R62): the timer has expired; the next tick opens only while every report is held. -/
def execTickEdge (late measured predicted : Nat) (s : State) : Host.Outcome State Fault Refusal :=
  .next (match s.sections?, s.tick.held with
    | some x, some b => if s.tick.ticking then s.edge x late measured predicted b else s
    | _, _ => s)

/-! ## Inside the tick -/

/-- STITCH_DONE (R57, R61): `cycle` cycles after the edge the last core is done, and the report goes. -/
def execStitchDone (cycle : Nat) (s : State) : Host.Outcome State Fault Refusal :=
  .next (if s.tick.ticking && !s.tick.done then
    let slack := s.tickLen - s.maintLen - cycle
    let s1 := (s.minReg Reg.TICK_SLACK_MIN slack).traceBoth 0x02 (s.stitchIx + 2 ^ 32 * slack)
    ({ s1 with tick := { s1.tick with done := true } } : State).sendReport
  else s)

/-- STITCH_OVERRUN (R61): the stitch is not done at its deadline, and ends `past` cycles after it; the maintenance work
moves to the next slot. -/
def execStitchOverrun (past : Nat) (s : State) : Host.Outcome State Fault Refusal :=
  .next (if s.tick.ticking && !s.tick.done && !s.tick.overrun then
    let s1 := ((s.event Reg.TICK_EVENT 1).ledgerEvent 0x0E 1 s.stitchIx 0
      (leBytes 8 s.tick.now ++ leBytes 8 past)).minReg Reg.TICK_SLACK_MIN 0
    { s1 with tick := { s1.tick with overrun := true, maintDue := s1.tick.maintDue + 1 } }
  else s)

/-! ## The maintenance slot (R59, R231, R289) -/

/-- Each channel flushes its write-combining buffer. -/
def State.flushChannels (s : State) : Nat → State
  | 0 => s
  | n + 1 => (State.flushChannels s n).flushAll n (s.wcb n)

/-- One adaptation step on one lane of a port that is UP, lanes in turn, and a calibration frame to the partner (R289). -/
def State.adaptPort (s : State) (p : Nat) : State :=
  if (s.port p).st = portUp then (s.setPort p { s.port p with lane := (s.port p).lane + 1 }).calibratePort p else s

/-- The maintenance work of one slot. -/
def State.maintWork (s : State) (temps : List Nat) (bad : List (Fin 256)) : State :=
  let s1 := s.flushChannels 256
  let s2 : State := { s1 with hbm := { s1.hbm with calib := (s1.hbm.calib + 1) % 4 } }
  let s3 := ((s2.suspectAll 4 bad).readTemps 0 (temps.take 8)).eachPort State.adaptPort (List.range 16)
  (s3.belBoth 18 1).belBoth 19 1

/-- The raised set as the next edge finds it: after the commit stitch, with the job-wide mask of the report held (R141). -/
def State.nextRaised (s : State) : BitVec 64 :=
  match s.tick.held with
  | some b => if s.inCommit then (s.raiseGroups b).tick.raised else s.tick.raised
  | none => s.tick.raised

/-- The slot table of the stitch that the next edge opens, which every router loads (R199): at the first stitch of a step that of the
variant which its raised set chooses (R38). -/
def State.nextTable (s : State) : Nat :=
  ((s.sections?.bind fun x =>
    let i := (s.tick.now + 1) % s.stepLen
    let v := if i ≠ 0 then (s.tick.step.map RunStep.variant).getD 0
      else if s.tick.latched.isSome then chooseVariant x s.nextRaised else 0
    (stitchesOf x v)[i]?).map Stitch.slotTable).getD 0

/-- The maintenance work that overruns have moved here, once for each tick that moved its own (R61). -/
def State.maintMoved (s : State) (temps : List Nat) : Nat → State
  | 0 => s
  | n + 1 => (State.maintMoved s temps n).maintWork temps []

/-- MAINTENANCE_SLOT (R59, R61): the work of a tick that overran waits for the next slot, which does its own and all that was
moved to it. -/
def execMaintenanceSlot (temps : List Nat) (bad : List (Fin 256)) (s : State) : Host.Outcome State Fault Refusal :=
  .next (if s.tick.ticking && !s.tick.inMaint then
    let s1 : State := { s with tick := { s.tick with inMaint := true }, trl := { s.trl with table := s.nextTable } }
    if s.tick.overrun then s1
    else
      let s2 := (s1.maintWork temps bad).maintMoved temps s.tick.maintDue
      { s2 with tick := { s2.tick with maintDue := 0 } }
  else s)

/-- What TICK_CLR_STATS resets, with the events of its cycle (R439). -/
def State.tickClr (s : State) (same : List (Nat × Nat)) : State :=
  let offs := [Reg.TICK_LATE_MAX, Reg.TICK_LATE_COUNT, Reg.TICK_RESOLE_PEAK, Reg.TICK_SLACK_MIN]
  ((s.zeroRegs offs).setRegN Reg.TICK_SLACK_MIN 0x1FFFFFF).sameCycle (sameIn offs same)

/-- TICK_CLR_STATS (R77, R439): the statistics return to their reset values. -/
def execTickClrStats (same : List (Nat × Nat)) (s : State) : Host.Outcome State Fault Refusal :=
  .next (s.onHost fun s => s.tickClr same)

end Sys2Proof.Machine
end

