-- ==== Sys2Proof/Machine/Admission.lean ====
section
/-! DEFINITION. The admission gate: doorbells, decisions, answers, completion records, and requests held until the module
is idle (R66 to R70, R76, R78, R326 to R328). -/

namespace Sys2Proof.Machine

/-! ## Answers (R78, R327) -/

/-- The layout of ADM_ANSWER, with VALID 1. -/
def answerBits (a : Answer) (seq : Nat) : Nat :=
  match a with
  | .accept _ _ => 3 + 65536 * (seq % 65536)
  | .refuse r d => 1 + 16 * r + 256 * d + 65536 * (seq % 65536)

/-- The registers and counts of an answer. -/
def State.showAnswer (s : State) (tag : Nat) (a : Answer) (seq : Nat) : State :=
  let s1 := (s.setRegN Reg.ADM_ANSWER (answerBits a seq)).setRegN Reg.ADM_ANS_TAG tag
  match a with
  | .accept k d => ((s1.setRegN Reg.ADM_ANS_SLOT k).setRegN Reg.ADM_ANS_DEADLINE d).count Reg.ADM_ACCEPT_COUNT 32 1
  | .refuse r _ => s1.count (Reg.ADM_REFUSE + 4 * (r - 1)) 32 1

/-- The answer record of a fetched ticket, then its tail, then the message (R327, R329). -/
def State.aqWrite (s : State) (tag : Nat) (a : Answer) (seq : Nat) : State :=
  let n := s.fld Reg.PCI_QUEUE_CTRL 11 8
  let t := s.regN Reg.PCI_AQ_TAIL
  let (k, d) := match a with | .accept k d => (k, d) | .refuse _ _ => (0, 0)
  let rec32 := leBytes 8 tag ++ leBytes 8 k ++ leBytes 8 d ++ leBytes 4 (answerBits a seq + 4 * ringPhase t n) ++ leBytes 4 0
  let s1 := (s.toHost (.hostWrite (s.regN Reg.PCI_AQ_BASE + 32 * (t % 2 ^ n)) rec32)).setRegN Reg.PCI_AQ_TAIL ((t + 1) % 65536)
  ({ s1 with host := { s1.host with fetched := s1.host.fetched - 1 } } : State).signal 1

/-- Answer a doorbell. -/
def State.answer (s : State) (tag : Nat) (a : Answer) (seq : Nat) (ring : Bool) : State :=
  let s1 := (s.showAnswer tag a seq).traceBoth 0x04 (tag + 2 ^ 64 * answerBits a seq)
  (if ring then s1.aqWrite tag a seq else s1).event Reg.ADM_EVENT 0

/-! ## Doorbells (R67) -/

/-- The ticket in the ticket registers. -/
def State.ticketRegs (s : State) : Ticket :=
  { stepId := s.regN Reg.ADM_TKT_STEP, slot := s.regN Reg.ADM_TKT_SLOT, imageId := s.regN Reg.ADM_TKT_IMAGE,
    input := s.regN Reg.ADM_TKT_INPUT, tag := s.regN Reg.ADM_TKT_TAG, inputLength := s.regN Reg.ADM_TKT_INLEN,
    plots := s.regN Reg.ADM_TKT_PLOTS }

/-- Every slot that a running test holds. -/
def State.heldSlots (s : State) : List Nat := s.adm.slots.flatMap Prod.snd

/-! ## The decision (R68, R69) -/

/-- The slot value that asks for the earliest free slot (R66). -/
def earliestFree : Nat := 2 ^ 64 - 1

/-- Code 3, then codes 6, 4 and 2 in the order of their details. -/
def State.gateRefusal (s : State) (t : Ticket) : Option Answer :=
  let g := s.adm.gate
  if s.image.st ≠ .running ∧ s.image.st ≠ .retired then some (.refuse 3 1)
  else if t.imageId ≠ (s.img.map fun f => f.header.imageId).getD 0 then some (.refuse 3 2)
  else if s.image.st = .retired then some (.refuse 3 3)
  else if g.getLsbD 0 then some (.refuse 6 1)
  else if g.getLsbD 1 then some (.refuse 6 2)
  else if g.getLsbD 2 then some (.refuse 4 1)
  else if g.getLsbD 3 then some (.refuse 4 2)
  else if g.getLsbD 4 then some (.refuse 2 1)
  else if g.getLsbD 5 then some (.refuse 2 2)
  else if g.getLsbD 6 then some (.refuse 2 3)
  else if g.getLsbD 7 then some (.refuse 2 4)
  else none

/-- Tickets bound to a slot after `c`. -/
def State.waitingAfter (s : State) (c : Nat) : Nat := (s.adm.accepted.filter fun e => c < e.1).length

/-- A slot carries a ticket. -/
def State.slotTaken (s : State) (k : Nat) : Bool := s.adm.accepted.any fun e => e.1 = k

/-- Slots from `c` to the horizon whose binding edge comes after tick `t` and which carry no ticket (R69). -/
def State.qualifying (s : State) (c t : Nat) : List Nat :=
  ((List.range 6).map (c + ·)).filter fun k => decide (t + 1 < k * s.stepLen) && !s.slotTaken k

/-- The slot that a ticket gets by the checks of code 1, or its refusal. -/
def State.queueCheck (s : State) (x : Ticket) : Nat ⊕ Answer :=
  let t := s.tick.now
  let c := s.slotNow
  let k := x.slot
  if k = earliestFree ∧ 1 < s.jobSize then .inr (.refuse 1 7)
  else if 16 ≤ s.adm.unread.length + s.adm.accepted.length then .inr (.refuse 1 8)
  else if 4 ≤ s.waitingAfter c then .inr (.refuse 1 1)
  else if k = earliestFree then
    match (s.qualifying c t).find? fun k => !s.heldSlots.contains k with
    | some k => .inl k
    | none => .inr (.refuse 1 5)
  else if k * s.stepLen ≤ t + 1 then .inr (.refuse 1 3)
  else if c + 5 < k then .inr (.refuse 1 4)
  else if s.slotTaken k then .inr (.refuse 1 2)
  else if s.heldSlots.contains k then .inr (.refuse 1 5)
  else .inl k

/-- The gate's answer to a ticket whose decision instant is now (R68). -/
def State.gateDecide (s : State) (t : Ticket) : Answer :=
  match s.gateRefusal t with
  | some a => a
  | none =>
    match s.queueCheck t with
    | .inr a => a
    | .inl k => if s.adm.freePlots < t.plots then .refuse 5 0 else .accept k (s.deadline k)

/-- An accepted ticket takes its slot and debits its plots (R70). -/
def State.acceptTicket (s : State) (t : Ticket) : Answer → State
  | .accept k _ =>
    { s with adm := { s.adm with accepted := s.adm.accepted ++ [(k, t)], freePlots := s.adm.freePlots - t.plots } }
  | .refuse _ _ => s

/-- A doorbell (R67): its decision instant. The state of that instant decides the ticket, and an accepted one takes its slot then;
the answer is written by TICKET_DECISION (log 71). With 8 pending it is refused at once. -/
def State.doorbell (s : State) (t : Ticket) (ring : Bool) : State :=
  let n := s.adm.seq + 1
  let s1 : State := ({ s with adm := { s.adm with seq := n } } : State).setBit Reg.ADM_ANSWER 0 false
  if 8 ≤ s.adm.bells.length then s1.answer t.tag (.refuse 1 6) n ring
  else
    let s2 := s1.acceptTicket t (s.gateDecide t)
    { s2 with adm := { s2.adm with bells := s2.adm.bells ++ [⟨t, ring, n, s.gateDecide t⟩] } }

/-- TICKET_DOORBELL (R67). -/
def execTicketDoorbell (s : State) : Host.Outcome State Fault Refusal := .next (s.onHost fun s => s.doorbell s.ticketRegs false)

/-- TICKET_DECISION (R67, R68): the answer to the oldest pending doorbell is written. -/
def execTicketDecision (s : State) : Host.Outcome State Fault Refusal :=
  .next (match s.adm.bells with
    | [] => s
    | d :: ds => ({ s with adm := { s.adm with bells := ds } } : State).answer d.ticket.tag d.answer d.seq d.ring)

/-! ## Completion records (R78, R328) -/

/-- Remove the oldest `n` unread records. -/
def State.popUnread (s : State) (n : Nat) : State :=
  { s with adm := { s.adm with unread := s.adm.unread.drop n } }

/-- A pop: ignored when no record is unread; PCI_CQ_HEAD advances past a record that the ring holds. -/
def State.donePop (s : State) : State :=
  if s.adm.unread.isEmpty then s
  else
    let s1 := s.popUnread 1
    let h := s.regN Reg.PCI_CQ_HEAD
    if h = s.regN Reg.PCI_CQ_TAIL then s1 else s1.setRegN Reg.PCI_CQ_HEAD ((h + 1) % 65536)

/-- ADM_DONE_POP (R78, R328). -/
def execAdmDonePop (s : State) : Host.Outcome State Fault Refusal := .next (s.onHost State.donePop)

/-! ## Held requests (R76) -/

/-- Start one held request; a march test that an image now bars is refused (R232). -/
def State.startOne (s : State) (h : Held) : State :=
  if h = .memTest ∧ s.marchRefused s.hbm.testCtrl = true then s.refuseMarch else s.startTest h

/-- Start held requests in the order they were made. -/
def State.startHeld (s : State) : List Held → State
  | [] => s
  | h :: hs => State.startHeld (s.startOne h) hs

/-- DEFERRED_REQUEST_START (R76, R379): once the module is idle, and ready. -/
def execDeferredRequestStart (s : State) : Host.Outcome State Fault Refusal :=
  .next (if s.idle && decide (8 ≤ s.boot.step) then
    ({ s with adm := { s.adm with waiting := [] } } : State).startHeld s.adm.waiting
  else s)

end Sys2Proof.Machine
end

