-- ==== Sys2Proof/Machine/Commit.lean ====
section
/-! DEFINITION. The commit and its reconciliation: vote, decision, release, late-commit, keep and adopt, and the exchange
of epochs with peers (R42, R238, R307 to R315). -/

namespace Sys2Proof.Machine

/-! ## Vote and decision (R308, R309) -/

/-- This module votes: the veto says whether a cause has arisen in the step. -/
def State.castVote (s : State) (r : RunStep) : State :=
  let veto := r.cause.isSome
  let s1 := s.mapStep fun r => { r with voted := true, veto := veto }
  (s1.setCommit { s1.commit with veto := veto, lateCause := 0 }).tryVotes

/-- COMMIT_VOTE (R308): at E + v of the commit stitch, with the other slab COMPLETE for this step; otherwise the module
sends no further report. -/
def execCommitVote (s : State) : Host.Outcome State Fault Refusal :=
  .next (match s.tick.step with
    | none => s
    | some r =>
      if !s.inCommit || r.voted then s
      else if s.upd.shadow = .complete ∧ s.upd.shadowStep = r.stepId then s.castVote r
      else s.stopReports)

/-- This module is the coordinator: the root of the rank tree (R309). -/
def State.isCoordinator (s : State) : Bool := (s.topo?.map fun t => t.treeParent.isNone).getD false

/-- Send the decision to each child of the rank tree. -/
def State.sendDecision (s : State) (d : Decision) : List (Nat × Nat) → State
  | [] => s
  | (c, _) :: cs => State.sendDecision (s.send (.decision c d)) d cs

/-- Hold a decision and forward it. -/
def State.holdDecision (s : State) (d : Decision) : State :=
  (s.mapStep fun r => { r with decision := some d }).sendDecision d ((s.topo?.map Topo.treeChildren).getD [])

/-- A decision is still to be taken in the commit stitch. -/
def State.undecided (s : State) : Bool :=
  s.inCommit && (s.tick.step.map fun r => r.decision.isNone && r.acted.isNone).getD false

/-- The complete combination's verdict, when the coordinator holds it. -/
def State.verdict (s : State) : Option Decision :=
  match s.commit.combo with
  | some (n, veto) => if n = s.jobSize then some (if veto then .skip false else .commit) else none
  | none => none

/-- COMMIT_DECIDE (R309): the coordinator decides as soon as it holds the complete combination. -/
def execCommitDecide (s : State) : Host.Outcome State Fault Refusal :=
  .next (if s.isCoordinator && s.undecided then
    match s.verdict with
    | some d => s.holdDecision d
    | none => s
  else s)

/-- VOTE_DEADLINE (R309): at Dv the coordinator decides with what it holds; an incomplete combination is SKIP. -/
def execVoteDeadline (s : State) : Host.Outcome State Fault Refusal :=
  .next (if s.isCoordinator && s.undecided then s.holdDecision (s.verdict.getD (.skip true)) else s)

/-- COMMIT_DECISION_RECEIVE (R309, R310): held and forwarded; after Dr it is discarded. -/
def execCommitDecisionReceive (d : Decision) (s : State) : Host.Outcome State Fault Refusal :=
  .next (if !s.isCoordinator && s.undecided then s.holdDecision d else s)

/-! ## Release (R139, R238, R310, R311) -/

/-- A flip (R238). -/
def State.flip (s : State) : State :=
  ({ s with upd := { s.upd with epoch := (s.upd.epoch + 1) % 2 ^ 64, slabB := !s.upd.slabB, shadow := .stale } } :
    State).event Reg.UPD_EVENT 0

/-- STL_COMMIT, bits 7 to 0. -/
def State.commitBits (s : State) : Nat :=
  s.commit.outcome + 4 * s.commit.veto.toNat + 8 * s.commit.incomplete.toNat + 16 * s.commit.lateCause

/-- The outcome of this commit stitch, its step and tick, and the COMMIT record. -/
def State.recordOutcome (s : State) (outcome : Nat) (incomplete : Bool) (r : RunStep) : State :=
  let s1 := ((s.setCommit { s.commit with outcome := outcome, incomplete := incomplete, resolved := false }).setRegN
    Reg.STL_COMMIT_STEP r.stepId).setRegN Reg.STL_COMMIT_TICK s.tick.now
  s1.traceBoth 0x0B (r.stepId + 2 ^ 64 * (s1.upd.epoch % 2 ^ 32) + 2 ^ 96 * s1.commitBits)

/-- This module has acted at Dr. -/
def State.act (s : State) (st : StepStatus) (c : Nat) : State := s.mapStep fun r => { r with acted := some (st, c) }

/-- The step commits. -/
def State.commitStep (s : State) (r : RunStep) : State :=
  ((s.flip.recordOutcome 1 false r).act .clean 0).belBoth 5 1

/-- Where the reported cause arose: its cause, stitch index and tick. -/
def State.spoilPlace (s : State) (r : RunStep) (incomplete : Bool) : Nat × Nat × Nat :=
  match r.cause with
  | some p => p
  | none => (if incomplete then 3 else 6, s.stitchIx, s.tick.now)

/-- The skip end (R139, R145, R310): the epoch stays, the other slab stays COMPLETE. -/
def State.skipStep (s : State) (r : RunStep) (incomplete : Bool) : State :=
  let (c, ix, t) := s.spoilPlace r incomplete
  let s1 := if incomplete then s.setBit Reg.QNT_SPOIL_CAUSES 2 true else s
  let s2 := if c = 6 then s1.setBit Reg.QNT_SPOIL_CAUSES 5 true else s1
  let s3 := if r.cause.isNone then s2.traceBoth 0x08 (c + 256 * ix) else s2
  let s4 := if incomplete && r.cause.isNone then s3.mapStep fun r => { r with cause := some (3, ix, t) } else s3
  let s5 := ((s4.count Reg.QNT_SPOIL_COUNT 32 1).setRegN Reg.QNT_SPOIL_LAST (c + 16 * ix + 2 ^ 31)).setRegN
    Reg.QNT_SPOIL_TICK t
  let s6 := (((s5.live 0x808 1).live (0x828 + 4 * (c - 1)) 1).belBoth 6 1).event Reg.UPD_EVENT 1
  (s6.recordOutcome 2 incomplete r).act .spoiled c

/-- The module becomes unresolved and halts after a last report (R311). -/
def State.unresolvedStep (s : State) (r : RunStep) : State :=
  let s1 := ((s.recordOutcome 3 false r).ledgerEvent 0x09 0 0 0 (leBytes 8 r.stepId ++ leBytes 8 s.upd.epoch)).event
    Reg.STL_EVENT 2
  ((s1.act .halted 0).sendReport.stopReports).halt

/-- The action of R310 at E + Dr. -/
def State.commitRelease (s : State) : State :=
  match s.tick.step with
  | none => s
  | some r =>
    if !s.inCommit || r.acted.isSome then s
    else match r.decision with
      | some .commit => s.commitStep r
      | some (.skip i) => s.skipStep r i
      | none => s.unresolvedStep r

/-- COMMIT_RELEASE (R310, R311). -/
def execCommitRelease (s : State) : Host.Outcome State Fault Refusal := .next s.commitRelease

/-! ## The exchange with peers (R42, R315) -/

/-- The layout edges of the pattern: stitch index and layout named there. -/
def layoutEdges (xs : List Stitch) : List (Nat × Nat) :=
  (List.range xs.length).filterMap fun i =>
    match xs[i]?, xs[i + 1]? with
    | some a, some b => if a.layout = b.layout then none else some (i + 1, b.layout)
    | _, _ => none

/-- What this module sends its peers. -/
def State.exchangeMsg (s : State) (f : ImageFile) : ExchangeMsg :=
  { jobId := f.header.jobId, stitches := f.sections.primary.length,
    layoutDigest := Config.layoutDigest (layoutEdges f.sections.primary),
    epoch := s.upd.epoch, slabB := s.upd.slabB, unresolved := decide (s.commit.outcome = 3) }

/-- Every peer that TOPO names. -/
def topoPeers (t : Topo) : List Nat := t.ports.flatMap TopoPort.peers

/-- Send the exchange to a list of peers. -/
def State.sendExchange (s : State) (m : ExchangeMsg) : List Nat → State
  | [] => s
  | p :: ps => State.sendExchange (s.send (.startExchange p m)) m ps

/-- Exchange with every peer. -/
def State.exchange (s : State) : State :=
  match s.img with
  | some f => s.sendExchange (s.exchangeMsg f) (topoPeers f.sections.topo)
  | none => s

/-- A peer is unresolved, or its epoch or slab differs: detail 2 of code 6 (R315). -/
def State.comparePeer (s : State) (f : ImageFile) (peer : Nat) (m : ExchangeMsg) : State :=
  let own := s.exchangeMsg f
  let bad := m.unresolved || decide (m.epoch ≠ own.epoch) || decide (m.slabB ≠ own.slabB)
  let rest := s.image.peerUnresolved.filter (· ≠ peer)
  let now := if bad then rest ++ [peer] else rest
  { s with image := { s.image with peerUnresolved := now }, adm := { s.adm with epochPeer := !now.isEmpty } }

/-! ## Reconciliation (R314) -/

/-- The result of a command appears (R314, R316). -/
def State.reconResult (s : State) (code : Nat) : State := (s.setFld Reg.STL_RECON_CTRL 6 4 code).event Reg.STL_EVENT 3

/-- A ticket is accepted or running. -/
def State.busy (s : State) : Bool := !s.adm.accepted.isEmpty || s.tick.step.isSome

/-- What a LATE_COMMIT or KEEP is refused with, if it is. -/
def State.reconRefusal (s : State) (late : Bool) : Option Nat :=
  if s.busy then some 2
  else if s.commit.outcome ≠ 3 then some 3
  else if s.upd.epoch ≠ s.regN Reg.STL_RECON_EPOCH then some 4
  else if late && decide (s.upd.shadow ≠ .complete) then some 5
  else if late && decide (s.upd.shadowStep ≠ s.regN Reg.STL_RECON_STEP) then some 4
  else none

/-- After the command, a RUNNING image repeats the exchange (R315). -/
def State.afterRecon (s : State) : State :=
  (if s.image.st = .running then s.exchange else s).reconResult 1

/-- A LATE_COMMIT. -/
def State.lateCommit (s : State) : State :=
  match s.reconRefusal true with
  | some c => s.reconResult c
  | none =>
    let s1 := s.flip
    (s1.setCommit { s1.commit with outcome := 1, resolved := true }).afterRecon

/-- LATE_COMMIT (R314). -/
def execLateCommit (s : State) : Host.Outcome State Fault Refusal := .next (s.onHost State.lateCommit)

/-- A KEEP: the other slab stays COMPLETE. -/
def State.keep (s : State) : State :=
  match s.reconRefusal false with
  | some c => s.reconResult c
  | none => (s.setCommit { s.commit with outcome := 2, resolved := true }).afterRecon

/-- KEEP (R314). -/
def execKeep (s : State) : Host.Outcome State Fault Refusal := .next (s.onHost State.keep)

/-- An ADOPT. -/
def State.adopt (s : State) : State :=
  if s.image.st ≠ .loaded then s.reconResult 6
  else
    let s1 : State := { s with upd := { s.upd with
      epoch := s.regN Reg.STL_RECON_EPOCH, slabB := s.bit Reg.STL_RECON_CTRL 3, shadow := .stale } }
    (s1.setCommit { s1.commit with outcome := 0, resolved := false }).reconResult 1

/-- ADOPT (R314). -/
def execAdopt (s : State) : Host.Outcome State Fault Refusal := .next (s.onHost State.adopt)

end Sys2Proof.Machine
end

