-- ==== Sys2Proof/Machine/Checks.lean ====
section
/-! DEFINITION. The checks of a Last image, in the order of R44. A check that fails gives its step, its error code and the
offset concerned. -/

namespace Sys2Proof.Machine

/-- A failed check: step, error code of R53, offset concerned; no offset where nothing of the image is concerned. -/
structure Failure where
  step : Nat
  code : Nat
  offset : Option Nat
deriving DecidableEq, Repr

/-- A check at an offset: fails when the condition does not hold. -/
def need (step code off : Nat) (ok : Bool) : Option Failure := if ok then none else some ⟨step, code, some off⟩

/-- The first failure of a list of checks. -/
def firstFailure : List (Option Failure) → Option Failure
  | [] => none
  | some f :: _ => some f
  | none :: rest => firstFailure rest

/-- The entry of a section type. -/
def sectionOf (f : ImageFile) (ty : Nat) : Option DirEntry := f.dir.find? fun d => d.type = ty

/-- A check on the content of a section, at the section's offset. -/
def needIn (f : ImageFile) (step code ty : Nat) (ok : Bool) : Option Failure :=
  if ok then none else some ⟨step, code, (sectionOf f ty).map DirEntry.offset⟩

/-! ## Steps 1 to 5 -/

/-- Step 1: the header fields in ascending order of offset. -/
def headerCheck (h : ImageHeader) : Option Failure :=
  firstFailure
    [need 1 1 0 (h.magic = 0x54534C47), need 1 2 4 (h.formatVersion = 1), need 1 1 6 (h.headerLength = 256),
     need 1 3 8 (h.partCode = 0x04740512), need 1 1 0x0C (1 ≤ h.sectionCount ∧ h.sectionCount ≤ 64),
     need 1 1 0x28 (h.rank < h.jobSize), need 1 1 0x2C (1 ≤ h.jobSize ∧ h.jobSize ≤ 32768),
     need 1 1 0x38 (25 ≤ h.tickPeriod ∧ h.tickPeriod ≤ 10000), need 1 1 0x3C (h.flags < 4), need 1 1 0xA0 (h.reserved = 0)]

/-- Step 2: the length. -/
def lengthCheck (h : ImageHeader) (lastLen : Nat) : Option Failure :=
  need 2 4 0x10 (h.imageLength = lastLen ∧ 30240 ≤ h.imageLength ∧ h.imageLength ≤ 2 ^ 30)

/-- An enrolled key digest: eight words of the seed bank (R392). -/
def State.keyDigest (s : State) (slot : Nat) : Nat :=
  ((List.range 8).map fun i => (s.seed (40 + 8 * slot + i)).toNat * 2 ^ (32 * i)).sum

/-- The enrolled slot whose digest a key has. -/
def State.keySlot (s : State) (d : Nat) : Option Nat :=
  [0, 1].find? fun i => (s.seed 56).getLsbD i && decide (s.keyDigest i = d)

/-- Steps 3 to 5: key, signature, security version. A signature failure concerns the trailer, which is no header field, entry or
section; the offset recorded is where the trailer starts (DESIGN CHOICE, log 75). -/
def State.trustCheck (s : State) (f : ImageFile) : Option Failure :=
  firstFailure
    [need 3 5 0x60 (s.keySlot f.keyDigest).isSome,
     need 4 6 f.signedLength f.sigValid,
     need 5 7 0x30 ((s.seed 35).toNat ≤ f.header.securityVersion)]

/-! ## Steps 6 to 8 -/

/-- One directory entry: `lo` is where the section before it ends. -/
def entryOk (d : DirEntry) (lo hi : Nat) : Bool :=
  decide (lo ≤ d.offset ∧ d.offset + d.length ≤ hi ∧ d.offset % 64 = 0 ∧ 64 ≤ d.length ∧ d.flags < 2 ∧ d.reserved = 0)

/-- Step 6, from entry `i` on. -/
def dirCheck (hi : Nat) : Nat → Nat → List DirEntry → Option Failure
  | _, _, [] => none
  | i, lo, d :: ds => if entryOk d lo hi then dirCheck hi (i + 1) (d.offset + d.length) ds else some ⟨6, 8, some (256 + 88 * i)⟩

/-- Step 7: the SHAKE256 digest of each section's bytes is the one its entry gives. -/
def digestCheck (f : ImageFile) : List DirEntry → Option Failure
  | [] => none
  | d :: ds => if f.sectionDigest d = d.digest then digestCheck f ds else some ⟨7, 9, some d.offset⟩

/-- The required section types (R29). -/
def requiredTypes : List Nat := [1, 2, 3, 4, 5, 7, 8, 9, 10, 11, 12, 13, 14, 15, 16]

/-- Known section types (R29). -/
def knownType (ty : Nat) : Bool := decide (1 ≤ ty ∧ ty ≤ 0x12)

/-- A duplicate, or an unknown critical section, at an entry. -/
def entrySetCheck (seen : List Nat) : Nat → List DirEntry → Option Failure
  | _, [] => none
  | i, d :: ds =>
    if (knownType d.type && seen.contains d.type) || (!knownType d.type && d.flags % 2 = 1) then
      some ⟨8, 0x0A, some (256 + 88 * i)⟩
    else entrySetCheck (d.type :: seen) (i + 1) ds

/-- Step 8: a missing section concerns no offset of the image. -/
def setCheck (f : ImageFile) : Option Failure :=
  firstFailure
    [entrySetCheck [] 0 f.dir,
     if requiredTypes.all fun ty => (sectionOf f ty).isSome then none else some ⟨8, 0x0A, none⟩,
     if f.sections.usesExchange && (sectionOf f 0x11).isNone then some ⟨8, 0x0A, none⟩ else none]

/-! ## Step 9 -/

/-- The seed bank's channel map. -/
def State.seedMap (s : State) : BitVec 256 :=
  BitVec.ofNat 256 (((List.range 8).map fun k => (s.seed (8 + k)).toNat * 2 ^ (32 * k)).sum)

/-- A tensor's range lies in the channels of the map and outside the image region (R30). -/
def State.rangeOk (s : State) (a n : Nat) : Bool := decide (a < 2 ^ 40) && s.spanOk a n && !s.touchesImage a n

/-- Both addresses of a tensor; an entry with no address is not tested (R29). -/
def State.tensorOk (s : State) (t : TensorEntry) : Bool :=
  (t.slabA.map fun a => s.rangeOk a t.bytes).getD true && (t.slabB.map fun a => s.rangeOk a t.bytes).getD true

/-- Every lane a port of TOPO uses is in service (R275). -/
def State.lanesOk (s : State) (p : TopoPort) : Bool :=
  decide (p.port < 16 ∧ (p.width = 4 ∨ p.width = 8)) &&
    (physLanes (s.laneMap p.port) p.width).all (laneInService (s.laneMap p.port))

/-- Step 9: channel map, tensors, lanes. -/
def State.bindingCheck (s : State) (f : ImageFile) : Option Failure :=
  firstFailure
    [need 9 0x0B 0x40 (f.header.channelMap = s.seedMap), needIn f 9 0x0B 4 (f.sections.tensors.all s.tensorOk),
     needIn f 9 0x0B 1 (f.sections.topo.ports.all s.lanesOk)]

/-! ## Step 10 -/

/-- An FP32 value between two others, all finite. -/
def f32In (lo hi : Word) (v : Word) : Bool :=
  finF v && decide (fp32.key lo.toNat ≤ fp32.key v.toNat ∧ fp32.key v.toNat ≤ fp32.key hi.toNat)

/-- An update set's ranges (R246). -/
def updateSetOk (u : UpdateSet) : Bool :=
  decide (u.rule ≤ 2 ∧ u.shape ≤ 2 ∧ u.warmup < 2 ^ 32 ∧ u.warmup + 1 ≤ u.total ∧ u.total < 2 ^ 48 ∧ 4 ≤ u.iters ∧
      u.iters ≤ 40) &&
    f32In 0 oneF u.lrPeak && f32In 0 u.lrPeak u.lrFloor && f32In 0 0x3F7FFFFF u.b1 && f32In 0 0x3F7FFFFF u.b2 &&
    f32In 0x1F800000 oneF u.eps && f32In 0 oneF u.wd && f32In 0x1F800000 0x5F800000 u.gradScale

/-- A rule 2 block: a group below the period, d at most 1,024, d·n at most 1,048,576 (R249, R250). -/
def preBlockOk (period tensors : Nat) (b : PreBlock) : Bool :=
  decide (b.group < period ∧ 1 ≤ b.d ∧ b.d ≤ 1024 ∧ 1 ≤ b.n ∧ b.d * b.n ≤ 1048576 ∧ b.stat < tensors ∧ b.root < tensors)

/-- The UPDATE section's ranges (R29, R246, R249, R250). -/
def updateOk (tensors : Nat) (u : UpdateSection) : Bool :=
  decide (1 ≤ u.period ∧ u.period ≤ 65535 ∧ u.stepOffset < 2 ^ 48 ∧ 1 ≤ u.sets.length ∧ u.sets.length ≤ 256) &&
    f32In 0 0x7F7FFFFF u.clipNorm && u.sets.all updateSetOk && u.blocks.all (preBlockOk u.period tensors)

/-- A THRESH entry's ranges (R126). -/
def threshOk (t : ThreshEntry) : Bool :=
  decide (t.segSat ≤ 65535 ∧ t.segZero ≤ 65535 ∧ t.blockSat ≤ 32 ∧ t.blockZero ≤ 32 ∧ t.layerSat ≤ 65535 ∧
    t.layerZero ≤ 65535)

/-- Entries for every pair the pattern converts, and a clean-step count for every group in use (R126). -/
def threshComplete (x : Sections) : Bool :=
  (x.converts.all fun c => (threshOf x c.1 c.2).isSome) &&
    (x.layerGroups.all fun g => (x.cleanSteps.find? fun e => e.1 = g.2).isSome) &&
    x.cleanSteps.all fun e => decide (1 ≤ e.2 ∧ e.2 ≤ 65535)

/-- A plot's fields (R303). -/
def plotOk (p : PlotDecl) : Bool :=
  decide (p.plot < 262144 ∧ p.kind ≤ 5 ∧ (p.port < 16 ∨ p.port = 255) ∧ p.peer ≤ 32767) &&
    (if p.kind = 4 then decide (p.credits = 0) else decide (1 ≤ p.credits ∧ p.credits ≤ 255))

/-- Items of a list on one die, by number. -/
def onDie (per d : Nat) (ns : List Nat) : Nat := (ns.filter fun n => n / per = d).length

/-- The PLOT section (R29, R265). -/
def plotsOk (x : PlotSection) : Bool :=
  x.plots.all plotOk && decide (x.classG ≤ 64 ∧ x.classS ≤ 64)

/-- The plots on each die (R29). -/
def plotCountOk (x : PlotSection) : Bool :=
  let ns := x.plots.map PlotDecl.plot
  decide (onDie 131072 0 ns ≤ 131072 ∧ onDie 131072 1 ns ≤ 131072)

/-- The STILE section: targets, one commit stile, and every stile the pattern names (R299, R307). -/
def stilesOk (x : Sections) : Bool :=
  let ns := x.stiles.map StileDecl.stile
  (x.stiles.all fun d => decide (d.stile < 131072) && (d.jobWide || decide (1 ≤ d.target ∧ d.target ≤ 65535))) &&
    decide (x.commits.length = 1) &&
    ((x.primary ++ x.variants.flatMap Variant.stitches).all fun st => st.stiles.all fun n => ns.contains n)

/-- The stiles on each die (R29). -/
def stileCountOk (x : Sections) : Bool :=
  let ns := x.stiles.map StileDecl.stile
  decide (onDie 65536 0 ns ≤ 65536 ∧ onDie 65536 1 ns ≤ 65536)

/-- A source rank's capacities: one for each expert (R292). -/
def capacityOk (experts : Nat) (cs : List Nat) : Bool := decide (cs.length = experts) && cs.all (· ≤ 65535)

/-- A stream of the EXPERT section (R292): experts and clusters of ranks in the job, capacities of every source rank, one plot for an
ordered pair. -/
def streamOk (jobSize : Nat) (e : ExchangeStream) : Bool :=
  decide (1 ≤ e.experts.length ∧ e.experts.length ≤ 4096 ∧ 1 ≤ e.choices ∧ e.choices ≤ 8 ∧ e.rule ≤ 1 ∧ e.eyeletLimit ≤ 64 ∧
    e.cluster < 16 ∧ e.capacity.length = jobSize) &&
    e.experts.all (fun x => decide (x.1 < jobSize ∧ x.2 < 16)) && e.capacity.all (capacityOk e.experts.length) &&
    e.plots.all (fun p => decide (p.1 < jobSize ∧ p.2.1 < jobSize ∧ p.2.2 < 262144)) &&
    decide (e.plots.map fun p => (p.1, p.2.1)).Nodup

/-- The ladders that the module supports, and an FP16 rung alone (R99, R108, R127). -/
def ladderOk (l : List Fmt) : Bool :=
  [[.if4, .if6, .if8, .bf16], [.ii4, .if8, .bf16], [.if6, .if8, .bf16], [.if8, .bf16], [.bf16], [.fp16]].contains l

/-- The FORMAT section's fields (R110, R127). -/
def formatOk (c : FormatClass) : Bool :=
  ladderOk c.ladder && decide ((c.budgetShift = 0 ∨ 5 ≤ c.budgetShift ∧ c.budgetShift ≤ 16) ∧ 1 ≤ c.escapeShift ∧
    c.escapeShift ≤ 16)

/-- The addresses that an entry gives: slab A and, unless frozen, slab B; none for a gradient that is never stored (R29). -/
def slabsOk (t : TensorEntry) : Bool :=
  match t.slabA, t.slabB with
  | none, none => true
  | some _, none => t.frozen
  | some _, some _ => !t.frozen
  | none, some _ => false

/-- A TENSOR entry's fields (R29, R106). -/
def tensorFieldsOk (classes : Nat) (t : TensorEntry) : Bool :=
  slabsOk t && decide (t.cls < classes ∧ 1 ≤ t.segTiles ∧ t.segTiles ≤ 128 ∧ (t.block = 16 ∨ t.block = 32))

/-- The slots that a table reserves at an output. -/
def tableSlots (r : SlotTable) (router port : Nat) : List Nat :=
  (r.slots.filter fun e => e.router = router ∧ e.port = port).map SlotUse.slot

/-- A slot table reserves each slot once, at most 7/8 of the usable slots of an output in all, rounded down, and at most 4 of 8 cycles
of a scratchpad port (R199, R200, R206). -/
def routeOk (r : SlotTable) : Bool :=
  decide (r.spadMax ≤ 4) && (r.slots.all fun e => decide (e.router < 16 ∧ e.port < 8)) &&
    (List.range 16).all fun router => (List.range 8).all fun port =>
      let used := tableSlots r router port
      decide (used.length ≤ portSlots router port * 7 / 8 ∧ used.Nodup) && used.all (· < portSlots router port)

/-- The ROUTE section: slot tables, weights, and the table that every stitch names (R199, R200, R203). -/
def routesOk (x : Sections) : Bool :=
  x.routes.all routeOk && x.weights.all (fun w => decide (w ≤ 15)) &&
    (x.primary ++ x.variants.flatMap Variant.stitches).all fun st => decide (st.slotTable < x.routes.length)

/-- A count within its limits (R29). -/
def within (lo hi n : Nat) : Bool := decide (lo ≤ n ∧ n ≤ hi)

/-- The ranks that TOPO reaches lie within the job (R29). -/
def topoOk (f : ImageFile) : Bool :=
  f.sections.topo.ports.all fun p => p.peers.all (· < f.header.jobSize)

/-- A ring lists every rank of the job once, and its ports are ports of the module (R266). -/
def ringOk (jobSize : Nat) (r : RingEntry) : Bool :=
  decide (r.ranks.length = jobSize ∧ r.ranks.Nodup ∧ r.send < 16 ∧ r.recv < 16) && r.ranks.all (· < jobSize)

/-- TOPO's rings, trees and reductions: 1 to 16 rings where any reduction is to use one, no port sending for two of them, a share for
each ring, and at most 16 children in a tree (R266, R267, R270, R287). -/
def ringsOk (jobSize : Nat) (t : Topo) : Bool :=
  decide (1 ≤ t.rings.length ∧ t.rings.length ≤ 16 ∧ (t.rings.map RingEntry.send).Nodup ∧ t.treeChildren.length ≤ 16 ∧
    t.beaconChildren.length ≤ 16) &&
    t.rings.all (ringOk jobSize) && t.reductions.all fun g => decide (g.plot < 262144 ∧ g.shares.length = t.rings.length)

/-- Each cluster belongs to one pipeline or is idle (R29). -/
def pipesOk (ps : List (List Nat)) : Bool := (ps.flatMap id).all (· < 16) && decide (ps.flatMap id).Nodup

/-- The digest log's size, in digest mode (R264). -/
def dlogOk (f : ImageFile) : Bool :=
  !f.header.flags.testBit 1 || decide (1024 ≤ f.sections.topo.dlogSize ∧ f.sections.topo.dlogSize ≤ 1048576)

/-- Step 10: counts, layout of the sections, ranges. -/
def contentCheck (f : ImageFile) : Option Failure :=
  let x := f.sections
  firstFailure
    [needIn f 10 0x0C 4 (within 1 65536 x.tensors.length), needIn f 10 0x0C 5 (within 1 64 x.classes.length),
     needIn f 10 0x0C 2 (within 1 16 x.pipelines.length), needIn f 10 0x0C 10 (within 1 16 x.layouts.length),
     needIn f 10 0x0C 8 (plotCountOk x.plot), needIn f 10 0x0C 9 (stileCountOk x),
     needIn f 10 0x0C 12 (within 2 64 (x.variants.length + 1)), needIn f 10 0x0C 11 (within 1 1048576 x.primary.length),
     needIn f 10 0x0C 15 (x.seeds.length = 128), needIn f 10 0x0C 3 (x.routes.length ≤ 4096),
     x.malformed.head?.bind fun ty => needIn f 10 0x0C ty false,
     needIn f 10 0x0C 1 (topoOk f), needIn f 10 0x0C 1 (ringsOk f.header.jobSize x.topo), needIn f 10 0x0C 1 (dlogOk f),
     needIn f 10 0x0C 2 (pipesOk x.pipelines), needIn f 10 0x0C 3 (routesOk x),
     needIn f 10 0x0C 4 (x.tensors.all (tensorFieldsOk x.classes.length)), needIn f 10 0x0C 5 (x.classes.all formatOk),
     needIn f 10 0x0C 6 (x.rotate.all fun r => r.n = 16 ∨ r.n = 32 ∨ r.n = 64 ∨ r.n = 128),
     needIn f 10 0x0C 7 (x.thresh.all threshOk && threshComplete x), needIn f 10 0x0C 8 (plotsOk x.plot),
     needIn f 10 0x0C 9 (stilesOk x), needIn f 10 0x0C 16 (updateOk x.tensors.length x.update),
     needIn f 10 0x0C 17 ((sectionOf f 0x11).isNone ||
       (decide (1 ≤ x.streams.length ∧ x.streams.length ≤ 256) && x.streams.all (streamOk f.header.jobSize)))]

/-! ## Steps 11 and 12 -/

/-- Bytes of HBM traffic that a tick leaves after the memory reserve: 32 B a cycle on each channel in service (R22, R34). -/
def trafficBound (chans t memory : Nat) : Nat := 32 * chans * t * (100 - memory) / 100

/-- Every stitch of every variant. -/
def allStitches (x : Sections) : List Stitch := x.primary ++ x.variants.flatMap Variant.stitches

/-- The offsets of the commit stile (R307). -/
def offsetsOk (c : CommitDecl) (limit : Nat) : Bool := decide (c.v < c.dv ∧ c.dv < c.dr ∧ c.dr ≤ limit)

/-- Step 11: reserves, budgets, cap floor, commit offsets (R33 to R35, R307). -/
def State.timingCheck (s : State) (f : ImageFile) : Option Failure :=
  let x := f.sections
  let t := f.header.tickPeriod * 2400
  let m := t * x.maint / 100
  let r := t * x.resole / 100
  firstFailure
    [needIn f 11 0x0D 13 (5 ≤ x.resole ∧ x.resole ≤ 30 ∧ 1 ≤ x.maint ∧ x.maint ≤ 2 ∧ 5 ≤ x.memory ∧ x.memory ≤ 40),
     needIn f 11 0x0D 11 (x.primary.all fun st => st.duration ≤ t - r - m ∧ st.hbmBytes ≤ trafficBound s.chans t x.memory),
     needIn f 11 0x0D 12 ((x.variants.flatMap Variant.stitches).all fun st =>
       st.duration ≤ t - r - m ∧ st.hbmBytes ≤ trafficBound s.chans t x.memory),
     needIn f 11 0x0D 14 (1200 ≤ x.floor ∧ x.floor ≤ 2300),
     needIn f 11 0x0D 9 (x.commits.all fun c => offsetsOk c (t - m))]

/-- The groups to which ALT assigns a layer. -/
def groupsInUse (x : Sections) : BitVec 64 := x.layerGroups.foldl (fun m g => m ||| BitVec.ofNat 64 (2 ^ g.2)) 0

/-- Same layout and commit mark at each index. -/
def sameShape (a b : List Stitch) : Bool :=
  decide (a.map (fun st => (st.layout, st.commit)) = b.map fun st => (st.layout, st.commit))

/-- The rules of R37. -/
def altOk (f : ImageFile) : Bool :=
  let x := f.sections
  let masks := x.primaryMask :: x.variants.map Variant.mask
  decide (x.primaryMask = 0) && decide (x.layerGroups.map Prod.fst).Nodup && masks.all (fun m => m &&& ~~~(groupsInUse x) = 0) && decide ((masks.filter fun m => m = groupsInUse x).length = 1) &&
    decide masks.Nodup && x.layerGroups.all (fun g => g.2 < 64) &&
    x.variants.all fun v => decide (v.tickPeriod = f.header.tickPeriod) && sameShape v.stitches x.primary

/-- A layout maps a cut exactly once, to a rank of the job and a die (R39). -/
def cutOk (jobSize : Nat) (l : List (Nat × Nat × Nat)) (cut : Nat) : Bool :=
  match l.filter fun e => e.1 = cut with
  | [e] => decide (e.2.1 < jobSize ∧ e.2.2 < 2)
  | _ => false

/-- Every cut that a stitch uses is mapped by the layout the stitch names. -/
def layoutOk (f : ImageFile) (st : Stitch) : Bool :=
  match f.sections.layouts[st.layout]? with
  | some l => st.cuts.all (cutOk f.header.jobSize l)
  | none => false

/-- Every Class S reduction takes its contributions in the stitch it names (R271). -/
def classSOk (xs : List Stitch) : Bool := xs.zipIdx.all fun e => e.1.classS.all fun n => n = e.2

/-- Step 12: structure. -/
def structureCheck (f : ImageFile) : Option Failure :=
  let x := f.sections
  firstFailure
    [needIn f 12 0x0E 12 (altOk f), needIn f 12 0x0F 10 ((allStitches x).all (layoutOk f)),
     needIn f 12 0x0E 11 ((x.primary.filter Stitch.commit).length = 1),
     needIn f 12 0x0E 11 (classSOk x.primary && x.variants.all fun v => classSOk v.stitches),
     needIn f 12 0x0F 11 ((layoutEdges x.primary).length ≤ 255)]

/-- Every check, in order (R44). -/
def State.imageCheck (s : State) (f : ImageFile) : Option Failure :=
  firstFailure
    [headerCheck f.header, lengthCheck f.header (s.regN Reg.LAST_LEN), s.trustCheck f,
     dirCheck f.signedLength 0 (256 + 88 * f.header.sectionCount) f.dir, digestCheck f f.dir,
     setCheck f, s.bindingCheck f, contentCheck f, s.timingCheck f, structureCheck f]

end Sys2Proof.Machine
end

