-- ==== Sys2Proof/Machine/Image.lean ====
section
/-! DEFINITION. Loading, starting and discarding a Last image (R42 to R52). -/

namespace Sys2Proof.Machine

/-! ## Errors -/

/-- Record an error: its code and the step that failed, 0 for none (R53, R54). -/
def State.imageError (s : State) (code step : Nat) : State :=
  (s.setFld Reg.LAST_STATE 15 8 code).setFld Reg.LAST_STATE 23 16 step

/-- A command is ignored (R48, R50, R55). -/
def State.cmdIgnored (s : State) : State := s.event Reg.LAST_EVENT 4

/-- No image is held: EMPTY. The map is copied, and ports train as before an image (R217, R379). -/
def State.toEmpty (s : State) : State :=
  ({ s with image := { s.image with st := .empty, file := none, passed := [], exchanged := false, childUp := [],
                                    sentUp := false, mapChanged := false, rechecking := none,
                                    peerUnresolved := [] },
            adm := { s.adm with epochPeer := false } } : State).copyMap.freePorts

/-- A load ends in EMPTY with an error. -/
def State.loadFail (s : State) (code step : Nat) : State := ((s.imageError code step).toEmpty).event Reg.LAST_EVENT 1

/-! ## LOAD (R43) -/

/-- The present image stops: a RUNNING one halts and its reports stop. -/
def State.stopImage (s : State) : State := if s.image.st = .running then s.halt.stopReports else s

/-- An accepted LOAD: the present image is discarded and the fetch begins. -/
def State.beginLoad (s : State) : State :=
  let s1 := ((s.stopImage.toEmpty).imageError 0 0).zeroRegs [Reg.LAST_PROGRESS, Reg.LAST_ERR_OFFSET]
  ({ s1 with image := { s1.image with st := .loading } } : State).send
    (.hostFetch (s.regN Reg.LAST_SRC) (s.regN Reg.LAST_LEN))

/-- A LOAD: held before the module is ready, ignored while a load runs, refused while work is accepted or running
(R43, R379). -/
def State.load (s : State) : State :=
  if s.boot.step < 8 then { s with boot := { s.boot with heldLoad := true } }
  else match s.image.st with
    | .loading | .verifying => s
    | _ => if s.busy then s.imageError 0x10 0 else s.beginLoad

/-- LOAD (R43). -/
def execLoad (s : State) : Host.Outcome State Fault Refusal := .next (s.onHost State.load)

/-- Bytes fetched so far: how far a fetch has come between its commands is time the model does not hold, so it is a free value
up to LAST_LEN (log 75). -/
def State.fetched (s : State) : Nat := s.fresh.toNat % (s.regN Reg.LAST_LEN + 1)

/-- IMAGE_FETCH_DONE (R31, R44): the image lies in the image region and its checks run. -/
def execImageFetchDone (file : ImageFile) (s : State) : Host.Outcome State Fault Refusal :=
  .next (if s.image.st = .loading then
    let f : ImageFile := { file with raw := file.raw.take (s.regN Reg.LAST_LEN) }
    let s1 := (s.setRegN Reg.LAST_PROGRESS (s.regN Reg.LAST_LEN)).devWrite .window s.imageStart f.raw
    { s1 with image := { s1.image with st := .verifying, file := some f, map := s.hbm.inService } }
  else s)

/-- IMAGE_FETCH_DMA_ERROR (R44): the offset of the first byte not fetched. -/
def execImageFetchDmaError (bytes : Nat) (s : State) : Host.Outcome State Fault Refusal :=
  .next (if s.image.st = .loading then
    ((s.setRegN Reg.LAST_PROGRESS bytes).setRegN Reg.LAST_ERR_OFFSET bytes).loadFail 0x12 0
  else s)

/-! ## The checks end (R44, R46, R47) -/

/-- The plots of the PLOT section (R303). -/
def State.loadPlots (s : State) (ps : List PlotDecl) : State :=
  ps.foldl (fun s p => s.setPlot p.plot { kind := p.kind, port := p.port, credits := p.credits, peer := p.peer,
                                          buffer := p.buffer, length := p.length, recv := p.recv })
    { s with stl := { s.stl with plots := [], stiles := [] } }

/-- What carries over by job_id (R47, R240): under the same one the epoch and the current slab, and an unresolved outcome
with the other slab; otherwise nothing. -/
def State.carryOver (s : State) (same : Bool) : State :=
  if same then
    if s.commit.outcome = 3 then s else { s with upd := { s.upd with shadow := .stale } }
  else
    ({ s with upd := { s.upd with epoch := 0, slabB := false, shadow := .stale } } : State).setCommit
      { s.commit with outcome := 0 }

/-- The 16 words of the image digest. -/
def State.showDigest (s : State) (d : Nat) : Nat → State
  | 0 => s
  | n + 1 => (State.showDigest s d n).setRegN (Reg.LAST_DIGEST + 4 * n) (bits d (32 * n + 31) (32 * n))

/-- A new image clears what the last one left in the engines, the streams, the staging areas and the raised set (R143, R153,
R169). -/
def State.freshImage (s : State) : State :=
  ({ s.clearStreams with
            seg := { s.clearStreams.seg with rungs := [] }
            tick := { s.tick with raised := 0, clean := [], raises := [] } } : State).clearEngines

/-- The image reaches LOADED; a stale mark clears (R46, R47, R355). -/
def State.loaded (s : State) (f : ImageFile) : State :=
  let slot := (s.keySlot f.keyDigest).getD 0
  let s1 := ((s.carryOver (decide (s.image.prevJob = some f.header.jobId))).loadPlots f.sections.plot.plots).freshImage
  let s2 : State := { s1 with
    image := { s1.image with st := .loaded, prevJob := some f.header.jobId, mapChanged := false }
    pwr := { s1.pwr with stale := false, streak := 0 } }
  (((s2.showDigest f.digest 16).setRegN Reg.LAST_KEY (slot + 2)).topoPorts).event Reg.LAST_EVENT 0

/-- The offset that a failure concerns; where nothing of the image is concerned it is a free value. -/
def State.errOffset (s : State) : Option Nat → State
  | some o => s.setRegN Reg.LAST_ERR_OFFSET o
  | none => (s.setRegN Reg.LAST_ERR_OFFSET (s.fresh.toNat % 2 ^ 31)).used

/-- IMAGE_CHECKS_DONE (R44). -/
def execImageChecksDone (s : State) : Host.Outcome State Fault Refusal :=
  .next (match s.image.st, s.image.file with
    | .verifying, some f =>
      if s.image.rechecking.isSome then s
      else match s.imageCheck f with
        | some e => (s.errOffset e.offset).loadFail e.code e.step
        | none => s.loaded f
    | _, _ => s)

/-! ## START (R42, R48, R49) -/

/-- The generators take their seeds (R32, R98). -/
def seedGens (seeds : List DWord) : Regs := seeds.zipIdx.foldl (fun m e => storeSet 0 m e.2 (seedGen e.1)) []

/-- Tick 0 opens (R48, R57, R72): RUNNING; slot 0 runs empty. The chain pool is filled here, so ADM_QUEUE.FREE_PLOTS shows until then,
and after an UNLOAD, what it showed last (DESIGN CHOICE, log 75). -/
def State.openTickZero (s : State) : State :=
  let s1 := (s.setReg Reg.TICK_SLIP 0).setBit Reg.LAST_POSITION 16 false
  let s2 : State := { s1 with
    image := { s1.image with st := .running, childUp := [] }
    adm := { s1.adm with freePlots := s1.poolSize }
    tick := { s1.tick with ticking := true, maintDue := 0, latched := none, step := none, kids := [] } }
  let s3 := (s2.event Reg.LAST_EVENT 2).beginTick 0
  ((s3.latchGate s3.localGate s3.localGate).loadTable.bindSlot).startStitch

/-- The conditions of R49, as far as they are met: the exchange goes out once every port of TOPO is UP (R285); with the
exchange passed and every child's start message held the module's own goes up, and the root opens tick 0. -/
def State.progressStart (s : State) : State :=
  match s.image.st, s.topo? with
  | .armed, some t =>
    if !s.topoUp then s
    else
      let s1 := if s.image.exchanged then s
        else ({ s with image := { s.image with exchanged := true } } : State).exchange
      if s1.image.sentUp || !((topoPeers t).all s1.image.passed.contains) ||
          !(t.beaconChildren.all fun c => s1.image.childUp.any fun e => e.1 = c) then s1
      else
        let s2 : State := { s1 with image := { s1.image with sentUp := true } }
        let covered := (t.beaconChildren.map fun c => storeGet 0 s1.image.childUp c + 1).sum
        match t.beaconParent with
        | some p => s2.sendStartUp p covered
        | none =>
          if covered + 1 = s2.jobSize then (s2.sendStartDown t.beaconChildren).openTickZero
          else s2.event Reg.TICK_EVENT 4
  | _, _ => s

/-- An accepted START (R48): ARMED, with what a start resets (R32, R77, R143, R153, R169, R304). -/
def State.arm (s : State) (x : Sections) : State :=
  let s1 : State := { s with
    image := { s.image with st := .armed, passed := [], exchanged := false, sentUp := false, peerUnresolved := [] }
    adm := { s.adm with epochPeer := false }
    seg := { s.seg with gens := seedGens x.seeds }
    tick := { s.tick with halted := false, stopped := false, raised := 0, clean := [], raises := [] } }
  (s1.fillCredits.clearEngines.clearStreams).progressStart

/-- A START (R48). -/
def State.start (s : State) : State :=
  match s.image.st, s.sections? with
  | .loaded, some x => s.arm x
  | _, _ => s.cmdIgnored

/-- START (R48). -/
def execStart (s : State) : Host.Outcome State Fault Refusal := .next (s.onHost State.start)

/-- A start that fails: back to LOADED, and no further start message (R42, R49). -/
def State.startFail (s : State) (code : Nat) : State :=
  ({ s with image := { s.image with st := .loaded, passed := [], exchanged := false, sentUp := false, childUp := [] } } :
    State).imageError code 0

/-- The job, the stitches or the layout edges of a peer differ (R42). -/
def jobDiffers (a b : ExchangeMsg) : Bool :=
  decide (a.jobId ≠ b.jobId) || decide (a.stitches ≠ b.stitches) || decide (a.layoutDigest ≠ b.layoutDigest)

/-- START_EXCHANGE_REPLY (R42, R315): in ARMED the check of the start; while RUNNING the comparison after a
reconciliation. -/
def execStartExchangeReply (peer : Nat) (reply : ExchangeMsg) (s : State) : Host.Outcome State Fault Refusal :=
  .next (match s.img with
    | none => s
    | some f =>
      match s.image.st with
      | .armed =>
        if jobDiffers (s.exchangeMsg f) reply then s.startFail 0x15
        else
          let s1 := s.comparePeer f peer reply
          ({ s1 with image := { s1.image with passed := s1.image.passed ++ [peer] } } : State).progressStart
      | .running => s.comparePeer f peer reply
      | _ => s)

/-- START_MESSAGE_UP (R49): held from LOADED on, since a child may have started first. -/
def execStartMessageUp (child covered : Nat) (s : State) : Host.Outcome State Fault Refusal :=
  .next (match s.image.st with
    | .loaded | .armed =>
      ({ s with image := { s.image with
        childUp := s.image.childUp.filter (fun e => e.1 ≠ child) ++ [(child, covered)] } } : State).progressStart
    | _ => s)

/-- START_MESSAGE_DOWN (R49): tick 0 opens, and the message goes on to the children. -/
def execStartMessageDown (s : State) : Host.Outcome State Fault Refusal :=
  .next (match s.image.st, s.topo? with
    | .armed, some t => if t.beaconParent.isSome then (s.sendStartDown t.beaconChildren).openTickZero else s
    | _, _ => s)

/-- START_TIMEOUT (R49). -/
def execStartTimeout (s : State) : Host.Outcome State Fault Refusal :=
  .next (if s.image.st = .armed then (s.startFail 0x17).event Reg.LAST_EVENT 5 else s)

/-! ## UNLOAD, ABORT, retirement, recheck (R50 to R52) -/

/-- An UNLOAD (R50). -/
def State.unload (s : State) : State :=
  match s.image.st with
  | .loading | .verifying => s.cmdIgnored
  | _ => if s.busy then s.imageError 0x10 0 else s.stopImage.toEmpty

/-- UNLOAD (R50). -/
def execUnload (s : State) : Host.Outcome State Fault Refusal := .next (s.onHost State.unload)

/-- An ABORT (R50): of a fetch, LAST_PROGRESS keeps the bytes fetched. -/
def State.abort (s : State) : State :=
  match s.image.st with
  | .loading => (s.setRegN Reg.LAST_PROGRESS s.fetched).used.loadFail 0x11 0
  | .verifying => s.loadFail 0x11 0
  | _ => s.cmdIgnored

/-- ABORT (R50). -/
def execAbort (s : State) : Host.Outcome State Fault Refusal := .next (s.onHost State.abort)

/-- IMAGE_RETIRE (R51, R217): once the map has changed and no ticket is accepted or running. -/
def execImageRetire (s : State) : Host.Outcome State Fault Refusal :=
  .next (if s.image.mapChanged && !s.busy then
    match s.image.st with
    | .loaded | .armed | .running =>
      let s1 : State := { s with
        image := { s.image with st := .retired, mapChanged := false }
        tick := { s.tick with ticking := false, inMaint := false, stopped := true } }
      (s1.unthrottle.copyMap).event Reg.LAST_EVENT 3
    | _ => s
  else s)

/-- The bytes at the start of the image region as the image's own map lays it out (R31, R51). -/
def State.regionBytes (s : State) (n : Nat) : List Byte :=
  let s1 : State := { s with hbm := { s.hbm with inService := s.image.map } }
  s1.opBytes s1.imageStart n

/-- The image digest as recomputed over the image region (R52). -/
def State.regionDigest (s : State) (f : ImageFile) : Nat := digest512 (s.regionBytes f.signedLength)

/-- IMAGE_RECHECK_DONE (R52, R369): on return from A2 the digest is recomputed over the image region; an image whose digest is
unchanged is again in the state it had. -/
def execImageRecheckDone (s : State) : Host.Outcome State Fault Refusal :=
  .next (match s.image.rechecking, s.image.file with
    | some st, some f =>
      if s.regionDigest f = f.digest then { s with image := { s.image with st := st, rechecking := none } }
      else (s.imageError 0x16 0).toEmpty
    | _, _ => s)

end Sys2Proof.Machine
end

