-- ==== Sys2Proof/Machine/Dma.lean ====
section
/-! DEFINITION. The DMA engines and the memory window BAR2 (R323, R324, R331 to R334, R337). -/

namespace Sys2Proof.Machine

/-! ## Engine registers -/

/-- Offset of a register of DMA engine `e` from that of engine 0. -/
def dmaReg (o e : Nat) : Nat := o + 32 * e

/-- The engine has stopped (STATE 2). -/
def State.dmaStopped (s : State) (e : Nat) : Bool := decide (s.fld (dmaReg Reg.PCI_DMA_STATUS e) 1 0 = 2)

/-- The engine may take descriptors: enabled, not stopped, link up. -/
def State.dmaOn (s : State) (e : Nat) : Bool :=
  s.bit (dmaReg Reg.PCI_DMA_CTRL e) 0 && !s.dmaStopped e && s.linkUp

/-- log2 of the descriptor ring. -/
def State.dmaSize (s : State) (e : Nat) : Nat := s.fld (dmaReg Reg.PCI_DMA_CTRL e) 7 4

/-- How far a 16-bit free-running count lies ahead of another (R325). -/
def ahead (a b : Nat) : Nat := (a + 65536 - b % 65536) % 65536

/-- A pointer write that is ignored. -/
def State.ptrErr (s : State) : State := s.event Reg.PCI_EVENT 5

/-! ## Moving bytes -/

/-- A byte by device address as a read delivered it: `bad` holds what lines that were not read as stored gave. -/
def State.byteOver (s : State) (bad : List (Nat × Byte × Bool)) (a : Nat) : Byte :=
  match bad.find? (fun b => b.1 = a), s.hbmPlace a with
  | some b, some (ch, o) => s.mergedByte ch o b.2.1
  | _, _ => s.devByte a

/-- Bytes by device address as reads delivered them. -/
def State.readOver (s : State) (bad : List (Nat × Byte × Bool)) (a n : Nat) : List Byte :=
  (List.range n).map fun i => s.byteOver bad (a + i)

/-- The first `n` bytes of a descriptor move: into device memory (DIR 0), or to the host (DIR 1). -/
def State.moveBytes (s : State) (e : Nat) (f : DmaFlight) (n : Nat) (data : List Byte) : State :=
  if f.desc.toHost then
    (s.toHost (.hostWrite f.desc.dest (s.readOver f.bad f.desc.source n))).setRegN Reg.PCI_BYTES_OUT
      (min (s.regN Reg.PCI_BYTES_OUT + n) (2 ^ 64 - 1))
  else
    (s.devWrite (.hostDma (Fin.ofNat 8 e)) f.desc.dest (data.take n)).setRegN Reg.PCI_BYTES_IN
      (min (s.regN Reg.PCI_BYTES_IN + (data.take n).length) (2 ^ 64 - 1))

/-- The descriptor is malformed (R333 code 6). -/
def badDescriptor (d : Descriptor) : Bool :=
  decide (d.length = 0) || decide (1073741824 < d.length) || decide (d.reserved ≠ 0)

/-- Device address of a descriptor. -/
def deviceSide (d : Descriptor) : Nat := if d.toHost then d.source else d.dest

/-- The code of a descriptor that may move nothing, none otherwise (R333). -/
def State.dmaRefusal (s : State) (d : Descriptor) : Option Nat :=
  if badDescriptor d then some 6
  else if !s.spanOk (deviceSide d) d.length then some 2
  else if !d.toHost && decide (s.image.st ≠ .empty) && s.touchesImage d.dest d.length then some 3
  else none

/-- Bytes of uncorrectable lines lie in the source; or, as an entry was flushed, in the destination (R234). -/
def anyBad (f : DmaFlight) : Bool :=
  f.bad.any fun b => b.2.2 && decide (deviceSide f.desc ≤ b.1 ∧ b.1 < deviceSide f.desc + f.desc.length)

/-- The code with which a descriptor ends, and the bytes that it moved (R333). -/
def State.dmaEnd (s : State) (f : DmaFlight) : Nat × Nat :=
  match s.dmaRefusal f.desc with
  | some c => (c, 0)
  | none =>
    let c := if anyBad f then 1 else 0
    if f.desc.toHost then (c, f.desc.length)
    else match f.hostEnd with
      | .ok => (c, f.desc.length)
      | .failed n => (4, min n f.desc.length)
      | .poisoned n => (5, min n f.desc.length)

/-! ## Statuses (R332, R333) -/

/-- Write a descriptor's status into its ring entry, then advance the head, then the trace record and the message. -/
def State.writeStatus (s : State) (e : Nat) (f : DmaFlight) (code : Nat) : State :=
  let a := s.regN (dmaReg Reg.PCI_DMA_BASE e) + 32 * (f.index % 2 ^ s.dmaSize e) + 0x18
  let st := code + 2 ^ 31
  let s1 := (s.toHost (.hostWrite a (leBytes 4 st))).setRegN (dmaReg Reg.PCI_DMA_HEAD e) ((f.index + 1) % 65536)
  let s2 := s1.trace 0 0x13 e (f.index % 65536 + 2 ^ 16 * st + 2 ^ 48 * (f.desc.tag % 2 ^ 32))
  if f.desc.irq then s2.signal (4 + e) else s2

/-- A code other than 0 stops the engine (R333). -/
def State.dmaStop (s : State) (e index code : Nat) : State :=
  (s.setRegN (dmaReg Reg.PCI_DMA_STATUS e) (2 + 16 * code + 65536 * (index % 65536))).event Reg.PCI_EVENT 6

/-- Write the statuses that are due, in ring order, up to one that stops the engine; descriptors taken after that one are
taken again on restart. -/
def State.flushStatus (s : State) (e : Nat) : List DmaFlight → State
  | [] => s.setFlights e []
  | f :: fs =>
    match f.status with
    | none => s.setFlights e (f :: fs)
    | some 0 => State.flushStatus (s.writeStatus e f 0) e fs
    | some (c + 1) => ((s.writeStatus e f (c + 1)).setFlights e []).dmaStop e f.index (c + 1)

/-- Set the status of the oldest flight with a tag that has none. -/
def setStatus (tag code : Nat) : List DmaFlight → List DmaFlight
  | [] => []
  | f :: fs =>
    if f.desc.tag = tag ∧ f.status = none then { f with status := some code } :: fs else f :: setStatus tag code fs

/-! ## The engine's commands -/

/-- The ring pointer that the next descriptor to take has. -/
def State.dmaNext (s : State) (e : Nat) : Nat :=
  (s.regN (dmaReg Reg.PCI_DMA_HEAD e) + (s.flights e).length) % 65536

/-- DESCRIPTOR_START (R331, R332): in ring order, up to 4 in flight; one with FENCE waits for all before it. -/
def execDescriptorStart (engine : Fin 8) (d : Descriptor) (s : State) : Host.Outcome State Fault Refusal :=
  let fs := s.flights engine
  .next (if s.dmaOn engine && decide (s.dmaNext engine ≠ s.regN (dmaReg Reg.PCI_DMA_TAIL engine)) &&
      decide (fs.length < 4) && (!d.fence || fs.isEmpty) then
    (s.send (.hostFetch (s.regN (dmaReg Reg.PCI_DMA_BASE engine) + 32 * (s.dmaNext engine % 2 ^ s.dmaSize engine)) 32)).setFlights
      engine (fs ++ [{ index := s.dmaNext engine, desc := d }])
  else s)

/-- DESCRIPTOR_DONE (R332, R333): `data` holds the host's bytes of a DIR 0 descriptor. -/
def execDescriptorDone (engine : Fin 8) (tag : Nat) (data : List Byte) (s : State) : Host.Outcome State Fault Refusal :=
  let fs := s.flights engine
  .next (match fs.find? fun f => f.desc.tag = tag ∧ f.status = none with
    | none => s
    | some f =>
      if s.linkUp then
        let r := s.dmaEnd f
        (s.moveBytes engine f r.2 data).flushStatus engine (setStatus tag r.1 fs)
      else s)

/-- The bytes that had moved when a descriptor was aborted. -/
def movedOf (moved : List (Fin 8 × Nat × List Byte)) (e index : Nat) : List Byte :=
  match moved.find? fun m => m.1.val = e ∧ m.2.1 = index with
  | some m => m.2.2
  | none => []

/-- A descriptor in flight is aborted: the bytes before the abort have moved. -/
def State.abortMove (s : State) (e : Nat) (moved : List (Fin 8 × Nat × List Byte)) (f : DmaFlight) : State :=
  match f.status, s.dmaRefusal f.desc with
  | none, none => s.moveBytes e f (min (movedOf moved e f.index).length f.desc.length) (movedOf moved e f.index)
  | _, _ => s

/-- End every descriptor in flight with code 7, or with the status it already has (R333, R339). -/
def State.abortFlights (s : State) (e : Nat) (moved : List (Fin 8 × Nat × List Byte)) : List DmaFlight → State
  | [] => s.setFlights e []
  | f :: fs =>
    let c := f.status.getD 7
    let s1 := (s.abortMove e moved f).writeStatus e f c
    State.abortFlights (if c = 0 then s1 else s1.dmaStop e f.index c) e moved fs

/-- The engine's CTRL is written with ENABLE 1: it starts, or restarts from its head; the size is taken only while ENABLE
is 0. -/
def State.dmaEnable (s : State) (e ctrl : Nat) : State :=
  let o := dmaReg Reg.PCI_DMA_CTRL e
  let s1 := if s.bit o 0 then s else s.setFld o 7 4 (bits ctrl 7 4)
  (s1.setBit o 0 true).setFld (dmaReg Reg.PCI_DMA_STATUS e) 1 0 0

/-- The engine's CTRL is written with ENABLE 0: descriptors in flight end with code 7. -/
def State.dmaDisable (s : State) (e ctrl : Nat) (moved : List (Fin 8 × Nat × List Byte)) : State :=
  let o := dmaReg Reg.PCI_DMA_CTRL e
  if s.bit o 0 then (s.abortFlights e moved (s.flights e)).setBit o 0 false else s.setFld o 7 4 (bits ctrl 7 4)

/-- DMA_ENABLE (R333). -/
def execDmaEnable (engine : Fin 8) (ctrl : Word) (s : State) : Host.Outcome State Fault Refusal :=
  .next (s.onHost fun s => s.dmaEnable engine ctrl.toNat)

/-- DMA_DISABLE (R333). -/
def execDmaDisable (engine : Fin 8) (moved : List (Fin 8 × Nat × List Byte)) (s : State) :
    Host.Outcome State Fault Refusal :=
  .next (s.onHost fun s => s.dmaDisable engine (s.regN (dmaReg Reg.PCI_DMA_CTRL engine)) moved)

/-- A descriptor ring's tail is written: ignored when it lies further than the ring's size ahead of the head. -/
def State.dmaTail (s : State) (e index : Nat) : State :=
  if 2 ^ s.dmaSize e < ahead index (s.regN (dmaReg Reg.PCI_DMA_HEAD e)) then s.ptrErr
  else s.setRegN (dmaReg Reg.PCI_DMA_TAIL e) (index % 65536)

/-- DMA_TAIL_WRITE (R331). -/
def execDmaTailWrite (engine : Fin 8) (index : Word) (s : State) : Host.Outcome State Fault Refusal :=
  .next (s.onHost fun s => s.dmaTail engine index.toNat)

/-- COMPLETION_TIMEOUT (R333, R337): the host read of a descriptor ends early or poisoned. -/
def execCompletionTimeout (engine : Fin 8) (tag : Nat) (hostEnd : DmaHostEnd) (s : State) :
    Host.Outcome State Fault Refusal :=
  .next ((s.setFlights engine ((s.flights engine).map fun f =>
    if f.desc.tag = tag ∧ f.desc.toHost = false ∧ f.status = none then { f with hostEnd := hostEnd } else f)).send (.aer 1))

/-! ## The window (R323, R324) -/

/-- A window access that is discarded or reads zeros; unbacked HBM also counts under ADDR_ERR (R215, R420). -/
def State.winErr (s : State) (a : Nat) : State :=
  (if a < 2 ^ 40 ∧ s.hbmPlace a = none then s.addrErr else s).event Reg.PCI_EVENT 2

/-- What the window returns for a byte. -/
def State.windowByte (s : State) (a : Nat) : Byte :=
  if s.spanOk a 1 then s.byteOver s.host.windowBad a else 0

/-- The first byte of a span that the window does not reach. -/
def State.firstBad (s : State) (a n : Nat) : Option Nat :=
  ((List.range n).find? fun i => !s.spanOk (a + i) 1).map (a + ·)

/-- A read through the window. -/
def State.windowRead (s : State) (a n : Nat) : State :=
  let s1 := s.send (.readData ((List.range n).map fun i => s.windowByte (a + i)))
  let s2 := match s.firstBad a n with
    | some b => s1.winErr b
    | none => s1
  let s3 := if s.host.windowBad.any fun b => b.2.2 && a ≤ b.1 && decide (b.1 < a + n) then s2.event Reg.PCI_EVENT 3 else s2
  { s3 with host := { s3.host with windowBad := s3.host.windowBad.filter fun b => !(a ≤ b.1 && decide (b.1 < a + n)) } }

/-- Write the pieces of a window write, each within a 64-byte line. -/
def State.windowPieces (s : State) : List (Nat × List Byte) → State
  | [] => s
  | (a, bs) :: ps =>
    let s1 :=
      if !s.spanOk a bs.length then s.winErr a
      else if s.image.st ≠ .empty ∧ s.touchesImage a bs.length then s.event Reg.PCI_EVENT 2
      else s.linePiece .window a bs
    State.windowPieces s1 ps

/-- A write through the window. -/
def State.windowWrite (s : State) (a : Nat) (bs : List Byte) : State := s.windowPieces (linePieces a bs.length bs)

/-- log2 of the BAR2 size. -/
def State.winLog (s : State) : Nat := s.fld Reg.PCI_WIN_SIZE 5 0

/-- Device address of a BAR2 offset. -/
def State.winAddr (s : State) (o : Nat) : Nat := s.regN Reg.PCI_WIN_BASE + o

/-- BAR2_READ (R323, R324): in A2 the read wakes the module and completes with Completer Abort (R365); a span beyond the BAR is an
Unsupported Request (R337). -/
def execBar2Read (offset length : Nat) (s : State) : Host.Outcome State Fault Refusal :=
  .next (if 2 ^ s.winLog < offset + length then s.onHost fun s => s.send .unsupported
  else (if s.linkUp && s.asleep && decide (6 ≤ s.boot.step) && !s.boot.failed then s.send .completerAbort else s).onHost fun s =>
    s.windowRead (s.winAddr offset) length)

/-- BAR2_WRITE (R323). -/
def execBar2Write (offset : Nat) (data : List Byte) (s : State) : Host.Outcome State Fault Refusal :=
  .next (if 2 ^ s.winLog < offset + data.length then s.onHost fun s => s.send .unsupported
  else s.onHost fun s => s.windowWrite (s.winAddr offset) data)

/-- The window base is written: ignored when it is not aligned to the present size. -/
def State.winBase (s : State) (v : DWord) : State :=
  if v.toNat % 2 ^ s.winLog ≠ 0 then s.ptrErr else s.setReg Reg.PCI_WIN_BASE v

/-- PCI_WIN_BASE_WRITE (R323). -/
def execPciWinBaseWrite (value : DWord) (s : State) : Host.Outcome State Fault Refusal :=
  .next (s.onHost fun s => s.winBase value)

end Sys2Proof.Machine
end

