-- ==== Sys2Proof/Machine/Queues.lean ====
section
/-! DEFINITION. The ticket queues and MSI-X (R325 to R330, R335, R336, R425). -/

namespace Sys2Proof.Machine

/-! ## What a vector has to report (R425) -/

/-- The EVENT register of a vector's source (R335). -/
def eventReg (v : Nat) : Option Nat :=
  match v with
  | 0 => some Reg.PCI_EVENT | 1 => some Reg.ADM_EVENT | 2 => some Reg.TICK_EVENT | 3 => some Reg.LAST_EVENT
  | 12 => some Reg.MEM_EVENT | 13 => some Reg.CLO_EVENT | 14 => some Reg.PYU_EVENT | 15 => some Reg.STL_EVENT
  | 16 => some Reg.PLT_EVENT | 17 => some Reg.UPD_EVENT | 18 => some Reg.ME_EVENT | 19 => some Reg.VE_EVENT
  | 20 => some Reg.TRL_EVENT | 21 => some Reg.LDG_EVENT | 22 => some Reg.HLT_EVENT | 23 => some Reg.SBK_EVENT
  | 24 => some Reg.BEL_EVENT
  | _ => none

/-- A bit of the vector's EVENT register is set. -/
def State.eventSet (s : State) (v : Nat) : Bool :=
  match eventReg v with
  | some o => decide (s.reg o ≠ 0)
  | none => false

/-- The vector's ring holds an unread record. -/
def State.ringUnread (s : State) (v : Nat) : Bool :=
  if v = 1 then decide (s.regN Reg.PCI_AQ_HEAD ≠ s.regN Reg.PCI_AQ_TAIL)
  else if v = 12 then decide (s.regN Reg.PCI_CQ_HEAD ≠ s.regN Reg.PCI_CQ_TAIL)
  else false

/-- The source of vector `v` has something to report (R425). -/
def State.reports (s : State) (v : Nat) : Bool :=
  if 4 ≤ v ∧ v ≤ 11 then s.dmaStopped (v - 4)
  else if v = 25 then s.host.doe.ready
  else s.eventSet v || s.ringUnread v

/-! ## MSI-X -/

/-- MSIX_COALESCE_END (R336): the interval ends; a message that fell due in it is sent. -/
def execMsixCoalesceEnd (vector : Fin 32) (s : State) : Host.Outcome State Fault Refusal :=
  let x := s.vec vector
  .next (if x.cooling then
    let s1 := s.setVec vector { x with cooling := false }
    if x.due then s1.fire vector else s1
  else s)

/-- A vector is masked. -/
def State.mask (s : State) (v : Nat) : State := s.setVec v { s.vec v with masked := true }

/-- A vector is unmasked: one message goes if its source has something to report, and none otherwise. -/
def State.unmask (s : State) (v : Nat) : State :=
  let x := s.vec v
  if x.masked then
    let s1 := s.setVec v { x with masked := false, pendingBit := false, due := false }
    if s1.reports v then s1.signal v else s1
  else s

/-- MSIX_UNMASK (R336). -/
def execMsixUnmask (vector : Fin 32) (s : State) : Host.Outcome State Fault Refusal :=
  .next (s.onHost fun s => s.unmask vector)

/-! ## The queue set (R325, R330) -/

/-- DRAINING. -/
def State.draining (s : State) : Bool := s.bit Reg.PCI_QUEUE_CTRL 1

/-- The six ring pointers. -/
def queuePointers : List Nat :=
  [Reg.PCI_TQ_TAIL, Reg.PCI_TQ_HEAD, Reg.PCI_AQ_HEAD, Reg.PCI_AQ_TAIL, Reg.PCI_CQ_HEAD, Reg.PCI_CQ_TAIL]

/-- Write records to the completion ring. -/
def State.cqAll (s : State) : List Completion → State
  | [] => s
  | c :: cs => State.cqAll (s.cqWrite c) cs

/-- PCI_QUEUE_CTRL is written with ENABLE 1: ignored while the set is enabled or draining; otherwise the sizes are taken,
the pointers start at 0, and every unread record goes to the completion ring. -/
def State.queueEnable (s : State) (ctrl : Nat) : State :=
  if s.queueOn || s.draining then s
  else ((s.setFld Reg.PCI_QUEUE_CTRL 15 0 (16 * bits ctrl 15 4 + 1)).zeroRegs queuePointers).cqAll s.adm.unread

/-- PCI_QUEUE_CTRL is written with ENABLE 0: an enabled set drains; otherwise only the sizes are taken. -/
def State.queueDisable (s : State) (ctrl : Nat) : State :=
  if s.queueOn then (s.setBit Reg.PCI_QUEUE_CTRL 0 false).setBit Reg.PCI_QUEUE_CTRL 1 true
  else if s.draining then s
  else s.setFld Reg.PCI_QUEUE_CTRL 15 0 (16 * bits ctrl 15 4)

/-- QUEUE_ENABLE (R325). -/
def execQueueEnable (ctrl : Word) (s : State) : Host.Outcome State Fault Refusal :=
  .next (s.onHost fun s => s.queueEnable ctrl.toNat)

/-- QUEUE_DISABLE (R330). -/
def execQueueDisable (s : State) : Host.Outcome State Fault Refusal :=
  .next (s.onHost fun s => s.queueDisable (s.regN Reg.PCI_QUEUE_CTRL))

/-- QUEUE_DRAIN_DONE (R330): the last answer of a fetched ticket is written. -/
def execQueueDrainDone (s : State) : Host.Outcome State Fault Refusal :=
  .next (if s.draining && decide (s.host.fetched = 0) then s.setBit Reg.PCI_QUEUE_CTRL 1 false else s)

/-- The ticket ring's tail is written: ignored further than the ring's size ahead of the head, or behind it. -/
def State.tqTail (s : State) (index : Nat) : State :=
  if 2 ^ s.fld Reg.PCI_QUEUE_CTRL 7 4 < ahead index (s.regN Reg.PCI_TQ_HEAD) then s.ptrErr
  else s.setRegN Reg.PCI_TQ_TAIL (index % 65536)

/-- TQ_TAIL_WRITE (R326). -/
def execTqTailWrite (index : Word) (s : State) : Host.Outcome State Fault Refusal :=
  .next (s.onHost fun s => s.tqTail index.toNat)

/-- The answer ring has a free entry for another answer: those of tickets fetched and not yet answered are reserved. -/
def State.answerRoom (s : State) : Bool :=
  decide (ahead (s.regN Reg.PCI_AQ_TAIL) (s.regN Reg.PCI_AQ_HEAD) + s.host.fetched < 2 ^ s.fld Reg.PCI_QUEUE_CTRL 11 8)

/-- TICKET_FETCH (R326): the module fetches the ticket at the head, and it rings at the gate. -/
def execTicketFetch (t : Ticket) (s : State) : Host.Outcome State Fault Refusal :=
  let h := s.regN Reg.PCI_TQ_HEAD
  .next (if s.queueOn && s.linkUp && decide (h ≠ s.regN Reg.PCI_TQ_TAIL) && decide (s.adm.bells.length < 8) &&
      s.answerRoom && decide (s.ldg.ps = .a0) then
    let s1 := (s.send (.hostFetch (s.regN Reg.PCI_TQ_BASE + 64 * (h % 2 ^ s.fld Reg.PCI_QUEUE_CTRL 7 4)) 64)).setRegN
      Reg.PCI_TQ_HEAD ((h + 1) % 65536)
    ({ s1 with host := { s1.host with fetched := s1.host.fetched + 1 } } : State).doorbell t true
  else s)

/-- The host consumes answers: a head beyond the tail is ignored. -/
def State.aqHead (s : State) (index : Nat) : State :=
  let h := s.regN Reg.PCI_AQ_HEAD
  if ahead (s.regN Reg.PCI_AQ_TAIL) h < ahead index h then s.ptrErr else s.setRegN Reg.PCI_AQ_HEAD (index % 65536)

/-- AQ_HEAD_WRITE (R327). -/
def execAqHeadWrite (index : Word) (s : State) : Host.Outcome State Fault Refusal :=
  .next (s.onHost fun s => s.aqHead index.toNat)

/-- The host advances the completion ring's head past records: they are no longer unread. -/
def State.cqHead (s : State) (index : Nat) : State :=
  let h := s.regN Reg.PCI_CQ_HEAD
  if ahead (s.regN Reg.PCI_CQ_TAIL) h < ahead index h then s.ptrErr
  else (s.popUnread (ahead index h)).setRegN Reg.PCI_CQ_HEAD (index % 65536)

/-- CQ_HEAD_WRITE (R328). -/
def execCqHeadWrite (index : Word) (s : State) : Host.Outcome State Fault Refusal :=
  .next (s.onHost fun s => s.cqHead index.toNat)

end Sys2Proof.Machine
end

