-- ==== Sys2Proof/Machine/Host.lean ====
section
/-! DEFINITION. The host link, host-side resets, link errors, configuration space and DOE discovery (R318, R320, R337 to R343,
R364). -/

namespace Sys2Proof.Machine

/-! ## The link (R318, R339, R378) -/

/-- The link trains: PCI_LINK; when it comes up again the held records and messages go out in order. -/
def State.linkRise (s : State) (speed width : Nat) (flit : Bool) : State :=
  let s1 := s.setRegN Reg.PCI_LINK (speed % 16 + 16 * (width % 32) + 512 * flit.toNat + 1024)
  let s2 : State := { s1 with out := s1.out ++ s1.heldOut, heldOut := [], host := { s1.host with wasUp := true } }
  if s.host.wasUp then s2.event Reg.PCI_EVENT 1 else s2

/-- LINK_UP (R378 step 4): once the domains are up and PERST# is deasserted. -/
def execLinkUp (speed width : Nat) (flit : Bool) (s : State) : Host.Outcome State Fault Refusal :=
  .next (if s.boot.powered && decide (2 ≤ s.boot.domains) && !s.host.perst && !s.linkUp then
    s.linkRise speed width flit
  else s)

/-- An engine stops at link loss: its flights end with code 7 (R339). -/
def State.engineLoss (s : State) (moved : List (Fin 8 × Nat × List Byte)) (e : Nat) : State :=
  if s.bit (dmaReg Reg.PCI_DMA_CTRL e) 0 then
    (s.abortFlights e moved (s.flights e)).setFld (dmaReg Reg.PCI_DMA_STATUS e) 1 0 2
  else s

/-- LINK_DOWN (R339): the link goes down without a reset. -/
def execLinkDown (moved : List (Fin 8 × Nat × List Byte)) (s : State) : Host.Outcome State Fault Refusal :=
  .next (if s.linkUp then
    ((s.setReg Reg.PCI_LINK 0).event Reg.PCI_EVENT 0).eachPort (fun s e => s.engineLoss moved e) (List.range 8)
  else s)

/-! ## Host-side resets (R340, R427) -/

/-- The RW fields of the registers outside SBK, HLT, LDG and PCI return to their reset values, those of the Belvedere's
rings, BEL_TRACE_EN and BEL_EVENT whole; every register of PCI does. -/
def resetAt (k : Nat) (v : DWord) : DWord :=
  if keptReg k then v
  else if 0xF0000 ≤ k ∧ k < 0x100000 then storeGet 0 resetRegs k
  else if 0x3F00000 ≤ k ∧ k < 0x4000000 then 0
  else if k = Reg.BEL_EVENT ∨ k = Reg.BEL_TRACE_EN ∨ (Reg.BEL_RING_BASE ≤ k ∧ k < Reg.BEL_RING_BASE + 0x80) then 0
  else
    let rw := ((regAt (k % 67108864)).map fun r => r.1.rw).getD 0
    (v &&& ~~~rw) ||| (storeGet 0 resetRegs (k % 67108864) &&& rw)

/-- Rewrite each register of a list, and then those whose reset value is not 0. -/
def State.resetRegsOf (s : State) : List Nat → State
  | [] => s
  | k :: ks => State.resetRegsOf (s.setReg k (resetAt k (s.reg k))) ks

/-- The registers after a host-side reset. -/
def State.resetFields (s : State) : State := s.resetRegsOf (s.regs.map Prod.fst ++ resetRegs.map Prod.fst)

/-- Bytes of the descriptors in flight that had moved before the reset. -/
def State.moveAll (s : State) (moved : List (Fin 8 × Nat × List Byte)) (e : Nat) : State :=
  (s.flights e).foldl (fun s f => s.abortMove e moved f) s

/-- What the host's side loses beside its registers: the queue of pending doorbells, messages held for it, the trace rings
and every transaction. -/
def State.clearHost (s : State) (kind : ResetKind) : State :=
  { s with
    adm := { s.adm with unread := [], bells := [] }
    heldOut := []
    me := { s.me with resetSince := true }
    bel := { s.bel with rings := [] }
    host := { perst := decide (kind = .perst), wasUp := decide (kind = .flr) } }

/-- Halt and no further report, the image discarded, the host's side of the module reset (R340). -/
def State.resetHostSide (s : State) (kind : ResetKind) (moved : List (Fin 8 × Nat × List Byte)) : State :=
  let s1 := s.eachPort (fun s e => s.moveAll moved e) (List.range 8)
  let s2 := (if s1.image.st = .running then s1.halt.stopReports else s1.stopReports).toEmpty
  s2.resetFields.clearHost kind

/-- The host-side reset acts (R340). A Function Level Reset leaves the link up; every other kind takes it down, and PERST#
leads on to A2. -/
def State.hostReset (s : State) (kind : ResetKind) (moved : List (Fin 8 × Nat × List Byte)) : State :=
  let s1 := s.resetHostSide kind moved
  match kind with
  | .flr => (s1.setReg Reg.PCI_LINK (s.reg Reg.PCI_LINK)).send .functionReady
  | .hotReset | .linkDisable => s1
  | .perst =>
    if s1.moving then s1.mapLdg fun l => { l with held := some .a2 }
    else if s1.ldg.ps = .a2 then s1 else s1.beginEntry .a2

/-- A step waits for its action at Dr in the commit stitch. -/
def State.commitOpen (s : State) : Bool := s.inCommit && (s.tick.step.map fun r => r.acted.isNone).getD false

/-- HOST_SIDE_RESET (R340, R378): PERST# before the module is ready only holds the link. -/
def execHostSideReset (kind : ResetKind) (moved : List (Fin 8 × Nat × List Byte)) (s : State) :
    Host.Outcome State Fault Refusal :=
  .next (if !s.boot.powered || s.host.waitingReset.isSome then s
  else if kind = .perst ∧ s.boot.step < 8 then
    ({ s with host := { s.host with perst := true } } : State).setReg Reg.PCI_LINK 0
  else if s.commitOpen then { s with host := { s.host with waitingReset := some kind } }
  else s.hostReset kind moved)

/-- HOST_RESET_AFTER_COMMIT (R340): at E + Dr the module acts on the commit first. -/
def execHostResetAfterCommit (moved : List (Fin 8 × Nat × List Byte)) (s : State) : Host.Outcome State Fault Refusal :=
  .next (match s.host.waitingReset with
    | some kind => s.commitRelease.hostReset kind moved
    | none => s)

/-- PERST_DEASSERT (R340, R365): a wake event once the module sleeps. -/
def execPerstDeassert (s : State) : Host.Outcome State Fault Refusal :=
  .next (if s.host.perst then ({ s with host := { s.host with perst := false } } : State).wakeEvent 5 none else s)

/-! ## Errors (R337) -/

/-- POISONED_TLP: the write is discarded. -/
def execPoisonedTlp (s : State) : Host.Outcome State Fault Refusal :=
  .next (s.onHost fun s => (s.event Reg.PCI_EVENT 4).send (.aer 1))

/-- MALFORMED_TLP: dropped; the job is unaffected. -/
def execMalformedTlp (s : State) : Host.Outcome State Fault Refusal :=
  .next (if s.linkUp then s.send (.aer 2) else s)

/-- CORRECTABLE_LINK_ERROR. -/
def execCorrectableLinkError (s : State) : Host.Outcome State Fault Refusal :=
  .next (if s.linkUp then (s.count Reg.PCI_ERR_COUNT 32 1).send (.aer 0) else s)

/-- UNSUPPORTED_REQUEST. -/
def execUnsupportedRequest (s : State) : Host.Outcome State Fault Refusal :=
  .next (if s.linkUp then s.send .unsupported else s)

/-! ## Power management (R362, R364) -/

/-- Configuration requests are answered: the link is up and RRS has ended. -/
def State.configOn (s : State) : Bool := s.linkUp && decide (6 ≤ s.boot.step)

/-- D3HOT_WRITE: an A2 request; a refused one is made again by D3HOT_DEFERRED_ENTRY. -/
def execD3hotWrite (s : State) : Host.Outcome State Fault Refusal :=
  .next (if s.configOn then
    let s1 : State := { s with host := { s.host with d3hot := true } }
    let s2 := s1.requestEntry .a2
    { s2 with host := { s2.host with d3wait := !s1.moving && (s1.entryRefusal .a2).isSome } }
  else s)

/-- D0_WRITE: a wake. -/
def execD0Write (s : State) : Host.Outcome State Fault Refusal :=
  .next (if s.configOn then
    let s1 : State := { s with host := { s.host with d3hot := false, d3wait := false } }
    if s1.asleep then s1.wakeEvent 4 none else if s1.inA1 then s1.leaveA1 else s1
  else s)

/-- D3HOT_DEFERRED_ENTRY (R362): at the first moment at which nothing refuses. -/
def execD3hotDeferredEntry (s : State) : Host.Outcome State Fault Refusal :=
  .next (if s.host.d3hot && s.host.d3wait && !s.moving && decide (s.entryRefusal .a2 = none) then
    ({ s with host := { s.host with d3wait := false } } : State).beginEntry .a2
  else s)

/-! ## Configuration space (R318, R320, R321, R323, R341) -/

/-- A dword of the configuration header that no write changes (R320, R321). -/
def configFixed (o : Nat) : Option Word :=
  match o with
  | 0x00 => some 0x04741F3A
  | 0x08 => some 0x12000001
  | 0x20 => some 0
  | 0x24 => some 0
  | 0x2C => some 0x04741F3A
  | 0x30 => some 0
  | _ => none

/-- What dword `o` of the two BARs reads when it holds `w`: the address bits above the BAR's size and, in its low dword, the
type (R321); a boot-failed module reports a size of 0 (R383). Every other dword reads what it holds. -/
def State.barBits (s : State) (o : Nat) (w : Word) : Word :=
  if 0x10 ≤ o ∧ o ≤ 0x1C ∧ s.boot.failed = true then 0
  else if o = 0x10 then (w &&& 0xFC000000) ||| 4
  else if o = 0x18 then (w &&& BitVec.ofNat 32 (2 ^ 32 - 2 ^ s.fld Reg.PCI_WIN_SIZE 5 0)) ||| 12
  else if o = 0x1C then w &&& BitVec.ofNat 32 (2 ^ 32 - 2 ^ (s.fld Reg.PCI_WIN_SIZE 5 0 - 32))
  else w

/-- A configuration read: the fixed header, what was written, or a value of the standard's that no rule states. The header
type, bits 23 to 16 of the dword at 0x0C, reads 0 (R320). -/
def State.configWord (s : State) (o : Nat) : Word :=
  match configFixed o with
  | some v => v
  | none =>
    let v := storeGet 0 s.host.config o
    let w : Word := if v = 0 then s.fresh.setWidth 32 else v.setWidth 32
    if o = 0x0C then w &&& 0xFF00FFFF else s.barBits o w

/-- The Resizable BAR capability sets the size of BAR2 (R321, R343). -/
def State.resizeBar (s : State) (log2 : Nat) : State :=
  if 28 ≤ log2 ∧ log2 ≤ 40 then s.setRegN Reg.PCI_WIN_SIZE log2 else s

/-- A request to configuration space once it is answered. -/
def State.configAct (s : State) : CfgReq → State
  | .read f o => if f = 0 then (s.send (.configData (s.configWord (o / 4 * 4)))).used else s.send .unsupported
  | .write f o d =>
    if f ≠ 0 then s.send .unsupported
    else if (configFixed (o / 4 * 4)).isSome then s
    else { s with host := { s.host with config := storeSet 0 s.host.config (o / 4 * 4) (d.setWidth 64 ||| 0x100000000) } }
  | .resize n => s.resizeBar n

/-- CONFIGURATION_REQUEST (R341, R368, R379): Request Retry Status until the boot image is verified; in A2 the shadow
answers. -/
def execConfigurationRequest (req : CfgReq) (s : State) : Host.Outcome State Fault Refusal :=
  .next (if !s.linkUp then s
  else if s.boot.step < 6 then s.send .retryStatus
  else if s.asleep then s.configAct req
  else (if s.inA1 then s.leaveA1 else s).configAct req)

/-! ## DOE (R342, R391) -/

/-- DOE Busy: held in A2 and A3, where the mailbox answers nothing (R391); an exchange itself is one command. -/
def State.doeBusy (s : State) : Bool := s.asleep

/-- An answer object is ready; it signals vector 25. -/
def State.doeAnswer (s : State) (a : DoeAnswer) : State :=
  ({ s with host := { s.host with doe := { ready := true, answer := some a } } } : State).signal 25

/-- A request to the mailbox. -/
def State.onDoe (s : State) (f : State → State) : State :=
  if s.configOn && !s.doeBusy then f (if s.inA1 then s.leaveA1 else s) else s

/-- The answer to a discovery of index `i`: the two types supported, then none. -/
def discoveryAnswer (i : Nat) : DoeAnswer :=
  if i = 0 then .discovery 1 0 1 else if i = 1 then .discovery 1 1 0 else .discovery 0xFFFF 0xFF 0

/-- DOE_DISCOVERY (R342): an object longer than 64 KiB is discarded and sets the error bit. -/
def execDoeDiscovery (index length : Nat) (s : State) : Host.Outcome State Fault Refusal :=
  .next (s.onDoe fun s =>
    if 65536 < length then { s with host := { s.host with doe := { s.host.doe with error := true } } }
    else s.doeAnswer (discoveryAnswer index))

/-- DOE_ABORT (R342): the exchange is discarded. -/
def execDoeAbort (s : State) : Host.Outcome State Fault Refusal :=
  .next (if s.configOn then { s with host := { s.host with doe := {} } } else s)

/-- What PCI_STAT_CLR resets. -/
def pciCounts : List Nat := [Reg.PCI_ERR_COUNT, Reg.PCI_BYTES_IN, Reg.PCI_BYTES_OUT]

/-- What PCI_STAT_CLR resets, with the events of its cycle (R439). -/
def State.pciClr (s : State) (same : List (Nat × Nat)) : State := (s.zeroRegs pciCounts).sameCycle (sameIn pciCounts same)

/-- PCI_STAT_CLR (R343). -/
def execPciStatClr (same : List (Nat × Nat)) (s : State) : Host.Outcome State Fault Refusal :=
  .next (s.onHost fun s => s.pciClr same)

end Sys2Proof.Machine
end

