-- ==== Sys2Proof/Machine/Power.lean ====
section
/-! DEFINITION. The power controller: operating points within the budget, the thermal hold, droop, the cap, and the stale
mark (R347 to R356, R358). -/

namespace Sys2Proof.Machine

/-! ## Operating points (R347, R348, R350, R353) -/

/-- A core's frequency, in steps of 25 MHz above 2,400 MHz. -/
def State.freqStep (s : State) (core : Nat) : Nat := storeGet 0 s.pwr.freq core

/-- The hold of R350 after a reading of every junction: from 100 °C until 97 °C or less. -/
def hotHold (old : BitVec 128) (junctions : List Nat) : BitVec 128 :=
  BitVec.ofNat 128 ((List.range 128).foldl (fun a c =>
    let t := junctions.getD c 0
    a + (decide (100 ≤ t) || (old.getLsbD c && decide (97 < t))).toNat * 2 ^ c) 0)

/-- The highest step of a core: its fused maximum, or the schedule clock while it is held. -/
def topStep (hot : BitVec 128) (core : Nat) : Nat := if hot.getLsbD core then 0 else (Config.fusedMhz core - 2400) / 25

/-- The estimate that the prediction scales: that of the stitch and variant in progress, or the empty stitch's (R353). -/
def State.estimate (s : State) : Nat :=
  match s.tick.step, s.stitch? with
  | some _, some st => st.estimate
  | _, _ => (s.sections?.map Sections.emptyEstimate).getD 0

/-- Whether the budget power at the chosen points is at or below the cap: predicted × k ≤ cap. -/
def State.budgetFits (s : State) (steps : List Nat) : Bool :=
  decide (Config.predictPower s.estimate steps * s.pwr.kNum ≤ s.pwr.cap * s.pwr.kDen)

/-- The core that gives up 25 MHz: the one with the highest present frequency, the higher index on a tie. -/
def highest (steps : List Nat) : Nat :=
  (List.range steps.length).foldl (fun b i => if steps.getD b 0 ≤ steps.getD i 0 then i else b) 0

/-- Take 25 MHz at a time until the budget fits or every core is at 2,400 MHz. -/
def State.fitBudget (s : State) : Nat → List Nat → List Nat
  | 0, steps => steps
  | fuel + 1, steps =>
    if s.budgetFits steps || steps.all (· = 0) then steps
    else State.fitBudget s fuel (steps.set (highest steps) (steps.getD (highest steps) 0 - 1))

/-- The points of a control period. With the cap in force below the floor every core runs at the floor point (R356). -/
def State.chooseSteps (s : State) (hot : BitVec 128) : List Nat :=
  if s.jobLive ∧ s.pwr.cap < s.capFloor then List.replicate 128 0
  else s.fitBudget 2560 ((List.range 128).map (topStep hot))

/-- Each core's step joins the operating-point histogram, kept in control periods of 10 µs (R402). -/
def State.countSteps (s : State) : List Nat → State
  | [] => s
  | f :: fs => State.countSteps (s.liveScaled (0x890 + 4 * min f 20) 1 100000) fs

/-- POWER_CONTROL_PERIOD (R348): every 10 µs in A0. -/
def execPowerControlPeriod (junctions : List Nat) (s : State) : Host.Outcome State Fault Refusal :=
  .next (if s.boot.powered && decide (2 ≤ s.boot.domains) && decide (s.ldg.ps = .a0) then
    let hot := hotHold s.pwr.hot junctions
    let steps := s.chooseSteps hot
    ({ s with pwr := { s.pwr with
        hot := hot
        freq := steps.zipIdx.foldl (fun m e => storeSet 0 m e.2 e.1) [] } } : State).countSteps steps
  else s)

/-- A core's clock in MHz: half its frequency while its droop detector is tripped (R349). -/
def State.coreMhz (s : State) (core : Nat) : Nat :=
  let f := 2400 + 25 * s.freqStep core
  if s.pwr.droop.getLsbD core then f / 2 else f

/-! ## Droop (R349) -/

/-- DROOP_TRIP. -/
def execDroopTrip (core : Fin 128) (s : State) : Host.Outcome State Fault Refusal :=
  .next (if s.pwr.droop.getLsbD core then s
  else ({ s with pwr := { s.pwr with droop := s.pwr.droop ||| BitVec.ofNat 128 (2 ^ core.val) } } : State).live 0xBE8 1)

/-- DROOP_RELEASE: `cycles` core cycles ran stretched, 32 at the least. -/
def execDroopRelease (core : Fin 128) (cycles : Nat) (s : State) : Host.Outcome State Fault Refusal :=
  .next (if s.pwr.droop.getLsbD core then
    ({ s with pwr := { s.pwr with droop := s.pwr.droop &&& ~~~(BitVec.ofNat 128 (2 ^ core.val)) } } : State).live 0xBF0
      (max 32 cycles)
  else s)

/-! ## The cap and the stale mark (R351, R355) -/

/-- PWR_CAP is written: outside 1,200 W to 2,300 W the write is ignored. -/
def State.capWrite (s : State) (v : Nat) : State :=
  let w := v % 4096
  if 1200 ≤ w ∧ w ≤ 2300 then s.seedAccept 0 (BitVec.ofNat 32 w) else s

/-- CAP_WRITE (R351). -/
def execCapWrite (value : Word) (s : State) : Host.Outcome State Fault Refusal :=
  .next (s.onHost fun s => s.capWrite value.toNat)

/-- The stale mark clears, and the count of divergent ticks starts again at 0. -/
def State.ackStale (s : State) : State :=
  if s.pwr.stale then { s with pwr := { s.pwr with stale := false, streak := 0 } } else s

/-- ACK_STALE (R355). -/
def execAckStale (s : State) : Host.Outcome State Fault Refusal := .next (s.onHost State.ackStale)

end Sys2Proof.Machine
end

