-- ==== Sys2Proof/Machine/Lodge.lean ====
section
/-! DEFINITION. The Lodge: entries and wakes, sensors and the protective shutdown, management messages and the mailbox
(R360 to R377, R403). -/

namespace Sys2Proof.Machine

/-! ## Management requests -/

/-- A management request: from step 1 of the start-up; in A1 it returns the module to A0 (R361, R379). -/
def State.onMgmt (s : State) (f : State → State) : State :=
  if s.boot.powered && decide (1 ≤ s.boot.step) then f (if s.inA1 then s.leaveA1 else s) else s

/-! ## Requests of states (R361, R362, R365) -/

/-- TARGET 0: a wake event in A2; the module is in A0 otherwise. -/
def State.targetA0 (s : State) : State := if s.asleep then s.wakeEvent 4 none else s.entryResult 1

/-- TARGET_A0 (R365). -/
def execTargetA0 (s : State) : Host.Outcome State Fault Refusal := .next (s.onLodge State.targetA0)

/-- TARGET_A1 (R361). -/
def execTargetA1 (s : State) : Host.Outcome State Fault Refusal := .next (s.onLodge fun s => s.requestEntry .a1)

/-- TARGET_A2 (R362). -/
def execTargetA2 (s : State) : Host.Outcome State Fault Refusal := .next (s.onLodge fun s => s.requestEntry .a2)

/-- MGMT_ENTER_A2 (R362). -/
def execMgmtEnterA2 (s : State) : Host.Outcome State Fault Refusal := .next (s.onMgmt fun s => s.requestEntry .a2)

/-- MGMT_ENTER_A3 (R362). -/
def execMgmtEnterA3 (s : State) : Host.Outcome State Fault Refusal := .next (s.onMgmt fun s => s.requestEntry .a3)

/-- MGMT_WAKE (R365, R375). -/
def execMgmtWake (s : State) : Host.Outcome State Fault Refusal := .next (s.onMgmt fun s => s.wakeEvent 6 none)

/-- The module is quiet (R361). -/
def State.quiet (s : State) : Bool := decide (s.entryRefusal .a1 = none)

/-- A1_AUTO_ENTRY (R361): A1_DELAY µs have passed in quiet. -/
def execA1AutoEntry (s : State) : Host.Outcome State Fault Refusal :=
  .next (if s.boot.powered && decide (2 ≤ s.boot.domains) && decide (s.ldg.ps = .a0) && !s.moving &&
      decide (s.fld Reg.LDG_CFG 15 0 ≠ 0) && s.quiet then s.beginEntry .a1
  else s)

/-- A1_RETURN_REQUEST (R361): a host request other than a read of the LDG or TOP blocks. -/
def execA1ReturnRequest (s : State) : Host.Outcome State Fault Refusal :=
  .next (if s.linkUp && s.inA1 then s.leaveA1 else s)

/-! ## Entries (R360, R363, R366) -/

/-- In A2 and A3 a port listens as PYU_WAKE sets, and is off otherwise (R291). -/
def State.listenPort (s : State) (p : Nat) : State :=
  if (s.port p).st = portFailed then s
  else s.setPort p { s.port p with st := if s.bit Reg.PYU_WAKE p || s.bit Reg.PYU_WAKE (16 + p) then portListen else portOff }

/-- Every port listens. -/
def State.listen (s : State) : State := s.eachPort State.listenPort (List.range 16)

/-- Registers that keep their values in A3 (R228, R291). -/
def State.keepRegs (s old : State) : List Nat → State
  | [] => s
  | k :: ks => State.keepRegs (s.setReg k (old.reg k)) old ks

/-- A3 is reached: everything it does not keep is lost; the wake listeners keep PYU_WAKE, and MEM_TEMP keeps its last value until the
start-up (R228). -/
def State.toA3 (s : State) : State :=
  (s.lose.keepRegs s [Reg.PYU_WAKE, Reg.MEM_TEMP0, Reg.MEM_TEMP1]).listen.mapLdg fun l =>
    { l with ps := .a3, entering := none, waking := 0 }

/-- The state that the entry leads to. -/
def State.reachState (s : State) : PState → State
  | .a0 => s
  | .a1 => s.mapLdg fun l => { l with ps := .a1, entering := none }
  | .a2 => s.listen.mapLdg fun l => { l with ps := .a2, entering := none }
  | .a3 => s.toA3

/-- After an entry: a latched wake starts, otherwise the latest held request is acted on. -/
def State.afterEntry (s : State) : State :=
  let s1 := if s.ldg.asked then (s.entryResult 1).mapLdg fun l => { l with asked := false } else s
  if s1.ldg.latched then ((s1.setBit Reg.LDG_STATE 3 true).mapLdg fun l => { l with latched := false }).startWake
  else s1.actHeld

/-- ENTRY_DONE (R363, R366). -/
def execEntryDone (s : State) : Host.Outcome State Fault Refusal :=
  .next (match s.ldg.entering with
    | some t => (s.reachState t).afterEntry
    | none => s)

/-! ## Wakes (R365 to R370) -/

/-- A listening port reports a wake event to the Lodge (R291, R298); the Lodge acts on it unless TRIPPED is 1 (R375). -/
def State.portWake (s : State) (bit p : Nat) : State :=
  (if s.asleep then s.event Reg.PYU_EVENT 6 else s).wakeEvent bit (some p)

/-- WAKE_EVENT (R365): a Pyurn event counts where PYU_WAKE sets its bit, a PCIe request in A2 only. -/
def State.wakeBy (s : State) : WakeKind → State
  | .pcieActivity => s.wakeEvent 0 none
  | .pyuActivity p => if s.bit Reg.PYU_WAKE (16 + p.val) then s.portWake 1 p.val else s
  | .pyuPattern p => if s.bit Reg.PYU_WAKE p.val then s.portWake 2 p.val else s
  | .wakePin => s.wakeEvent 3 none
  | .pcieRequest => if s.ldg.ps = .a3 then s else s.wakeEvent 4 none
  | .perst => if s.host.perst then ({ s with host := { s.host with perst := false } } : State).wakeEvent 5 none else s
  | .management => s.wakeEvent 6 none

/-- WAKE_EVENT (R365, R366). -/
def execWakeEvent (kind : WakeKind) (s : State) : Host.Outcome State Fault Refusal :=
  .next (if s.boot.powered then s.wakeBy kind else s)

/-- The ports train again after A2: those of the held image's TOPO, or every one; a FAILED port stays as it is (R275, R282). -/
def State.retrainPorts (s : State) : State :=
  let s1 := s.eachPort (fun s p => if (s.port p).st = portFailed then s else s.setPort p { s.port p with st := portOff })
    (List.range 16)
  if s1.img.isSome then s1.topoPorts else s1.freePorts

/-- A held image is checked again on return from A2 (R52, R369). -/
def State.recheck (s : State) : State :=
  if s.img.isSome then { s with image := { s.image with st := .verifying, rechecking := some s.image.st } } else s

/-- The wake reaches A0. -/
def State.wakeDone (s : State) : State :=
  let s1 := match s.ldg.ps with
    | .a2 => s.retrainPorts.recheck
    | _ => { s with boot := { s.boot with domains := 2 } }
  ((s1.mapLdg fun l => { l with ps := .a0, waking := 0 }).event Reg.LDG_EVENT 0).actHeld

/-- WAKE_DOMAIN_READY (R367, R378): the next domain's step starts; from A2 the fourth ends the wake, from A3 and after 48 V
valid the second does, and the start-up goes on. As the memory is ready from A2, the channels that failed their calibration pass are
suspect (R224). -/
def execWakeDomainReady (failed : List (Fin 256)) (s : State) : Host.Outcome State Fault Refusal :=
  .next (if s.ldg.waking ≠ 0 then
    if (s.ldg.ps = .a2 ∧ 4 ≤ s.ldg.waking) ∨ (s.ldg.ps = .a3 ∧ 2 ≤ s.ldg.waking) then s.wakeDone
    else if s.ldg.ps = .a2 ∧ s.ldg.waking = 3 then (s.suspectAll 4 failed).mapLdg fun l => { l with waking := l.waking + 1 }
    else s.mapLdg fun l => { l with waking := l.waking + 1 }
  else if s.boot.powered && decide (1 ≤ s.boot.step) && decide (s.boot.domains < 2) && decide (s.ldg.ps = .a0) then
    { s with boot := { s.boot with domains := s.boot.domains + 1 } }
  else s)

/-- WAKE_FAIL (R367): a ledger record, and the module goes to A3. -/
def execWakeFail (s : State) : Host.Outcome State Fault Refusal :=
  .next (if s.ldg.waking = 0 then s else (((s.ledgerFatal 8 s.ldg.waking).toA3).event Reg.LDG_EVENT 1).actHeld)

/-- ON_DEMAND_ACCESS (R368): the first access in A2 or A3 readies the function, and the state is otherwise unchanged. -/
def execOnDemandAccess (function : OnDemand) (s : State) : Host.Outcome State Fault Refusal :=
  .next (if s.boot.powered && decide (s.ldg.ps = .a2 ∨ s.ldg.ps = .a3) && !s.ldg.onDemand.contains function then
    s.mapLdg fun l => { l with onDemand := l.onDemand ++ [function] }
  else s)

/-! ## Sensors (R373) -/

/-- Sensors by number: input voltage in mV, input power in mW, 128 junctions, 8 stacks, 32 stages in °C. -/
def sensor (x : Samples) (i : Nat) : Nat :=
  if i = 0 then x.inputMv else if i = 1 then x.inputMw
  else if i < 130 then x.junctions.getD (i - 2) 0
  else if i < 138 then x.stackTemps.getD (i - 130) 0
  else x.stages.getD (i - 138) 0

/-- The middle of three values. -/
def median3 (a b c : Nat) : Nat := max (min a b) (min (max a b) c)

/-- A filtered value lies beyond its sensor's limit. -/
def beyondLimit (i v : Nat) : Bool :=
  if i = 0 then decide (v < 38000 ∨ 62000 < v) else if i = 1 then decide (2700000 < v)
  else if i < 130 then decide (110 ≤ v) else if i < 138 then decide (105 ≤ v) else decide (125 ≤ v)

/-- Consecutive samples that make a crossing. -/
def crossAfter (i : Nat) : Nat := if i < 2 then 20 else if i < 130 then 3 else 5

/-- LDG_TRIP.CAUSE and SENSOR of a sensor number. -/
def tripCode (i : Nat) : Nat × Nat :=
  if i = 0 then (1, 0) else if i = 1 then (2, 0) else if i < 130 then (3, i - 2) else if i < 138 then (4, i - 130)
  else (5, i - 138)

/-- A filtered value in V, W or °C as FP32. -/
def tripValue (i v : Nat) : Word := if i < 2 then ratioF v 1000 else ratioF v 1

/-- The filtered values of a sample: the median of it and the two before. -/
def State.filtered (s : State) (x : Samples) (i : Nat) : Option Nat :=
  match s.ldg.samples with
  | [a, b] => some (median3 (sensor a i) (sensor b i) (sensor x i))
  | _ => none

/-- The consecutive samples beyond a sensor's limit, after this one. -/
def State.beyondCount (s : State) (x : Samples) (i : Nat) : Nat :=
  match s.filtered x i with
  | some v => if beyondLimit i v then storeGet 0 s.ldg.beyond i + 1 else 0
  | none => 0

/-! ## The protective shutdown (R374, R375) -/

/-- One hour in µs. -/
def hour : Nat := 3600000000

/-- The shutdown that sensor `i` makes at filtered value `v`: the record, A3, TRIPPED with its cause; the third trip within
an hour asks for REARM. -/
def State.shutdown (s : State) (i v : Nat) : State :=
  let (cause, sub) := tripCode i
  let trips := s.ldg.trips.filter (fun t => s.hlt.powered < t + hour) ++ [s.hlt.powered]
  let recent := min trips.length 3
  let s1 := (s.ledgerEvent 0x03 0 cause sub (leBytes 4 (tripValue i v).toNat ++ leBytes 4 recent)).toA3
  let s2 := (s1.setBit Reg.LDG_STATE 4 true).setRegN Reg.LDG_TRIP (cause + 16 * sub + 65536 * recent + 2 ^ 31)
  let s3 := s2.setBit Reg.LDG_STATE 5 (decide (3 ≤ recent))
  (s3.mapLdg fun l => { l with trips := trips, latched := false, held := none, clear := 0 }).event Reg.LDG_EVENT 3

/-- TRIPPED clears. -/
def State.clearTrip (s : State) : State := (s.setBit Reg.LDG_STATE 4 false).setBit Reg.LDG_STATE 5 false

/-- MGMT_REARM (R375): after the same second with every limit clear. -/
def execMgmtRearm (s : State) : Host.Outcome State Fault Refusal :=
  .next (s.onMgmt fun s =>
    if s.tripped && s.bit Reg.LDG_STATE 5 && decide (10000 ≤ s.ldg.clear) then s.clearTrip else s)

/-! ## Statistics of a sample (R402) -/

/-- The bin of a temperature: 16 bins of 5 °C from 40 °C. -/
def tempBin (t : Nat) : Nat := min ((t - 40) / 5) 15

/-- The junctions' histogram, in core-seconds, and the highest of each core. -/
def State.junctionStats (s : State) (core : Nat) : List Nat → State
  | [] => s
  | t :: ts =>
    State.junctionStats ((s.liveScaled (0x900 + 4 * tempBin t) 1 10000).liveMax (0xB40 + core) t) (core + 1) ts

/-- The stacks' histograms, in ms, and the highest of each. -/
def State.stackStats (s : State) (k : Nat) : List Nat → State
  | [] => s
  | t :: ts => State.stackStats ((s.liveScaled (0x940 + 64 * k + 4 * tempBin t) 1 10).liveMax (0xBC0 + k) t) (k + 1) ts

/-- The highest temperature of each conversion stage. -/
def State.stageStats (s : State) (k : Nat) : List Nat → State
  | [] => s
  | t :: ts => State.stageStats (s.liveMax (0xBC8 + k) t) (k + 1) ts

/-- Everything the summary keeps of a sample; samples come every 100 µs. -/
def State.sampleStats (s : State) (x : Samples) : State :=
  let s1 := s.liveScaled (0x840 + 4 * min (x.inputMw / 175000) 15) 1 10
  let s2 := if s.pwr.cap * 1000 < x.inputMw then s1.liveScaled 0x880 1 10 else s1
  let s3 := if s.pwr.parked then s2.liveScaled 0x888 1 10 else s2
  ((s3.junctionStats 0 (x.junctions.take 128)).stackStats 0 (x.stackTemps.take 8)).stageStats 0 (x.stages.take 32)

/-- The input falling below 38 V appends the closing summary (R401). -/
def State.closing (s : State) (x : Samples) : State :=
  if x.inputMv < 38000 then
    if s.hlt.closed then s
    else
      let s1 := s.appendSummary
      { s1 with hlt := { s1.hlt with closed := true } }
  else { s with hlt := { s.hlt with closed := false } }

/-- The comparison with the limits: a crossing shuts the module down; a second with every limit clear clears TRIPPED unless
REARM is needed. -/
def State.compare (s : State) (x : Samples) : State :=
  let counts := (List.range 170).map fun i => (i, s.beyondCount x i)
  let quiet := counts.all fun c => c.2 = 0
  let n := if quiet then s.ldg.clear + 1 else 0
  let s1 := s.mapLdg fun l => { l with
    beyond := counts.filter fun c => c.2 ≠ 0
    clear := n
    samples := (l.samples ++ [x]).drop (l.samples.length - 1) }
  match counts.find? fun c => c.2 = crossAfter c.1 with
  | some (i, _) => s1.shutdown i ((s.filtered x i).getD 0)
  | none => if s.tripped && !s.bit Reg.LDG_STATE 5 && decide (10000 ≤ n) then s1.clearTrip else s1

/-- SENSOR_SAMPLE (R373, R374, R375, R401): at 10 kHz. -/
def execSensorSample (x : Samples) (s : State) : Host.Outcome State Fault Refusal :=
  .next (if s.boot.powered && decide (1 ≤ s.boot.step) then
    let s1 := s.setRegN Reg.LDG_UPTIME (s.regN Reg.LDG_UPTIME + 100)
    let s2 : State := { s1 with hlt := { s1.hlt with powered := s1.hlt.powered + 100 } }
    ((s2.sampleStats x).closing x).compare x
  else s)

/-! ## Off (R374, R394) -/

/-- Persist every entry of the write queue. -/
def State.persistQueue (s : State) : Nat → State
  | 0 => s
  | n + 1 => State.persistQueue s.seedPersist n

/-- What Off keeps: the persistent store and the cached identity. Interval statistics of the summary are lost. -/
def State.toOff (s : State) : State :=
  let s1 := s.lose
  { s1 with
    regs := s.lostRegs []
    boot := { status := s.boot.status, cached := s.boot.cached }
    ldg := {}
    sec := { banks := s.sec.banks }
    hlt := { s1.hlt with closed := false, live := storeDrop s1.hlt.live (fun k => decide (0x800 ≤ k)) } }

/-- LODGE_STOP (R374): the write queue and the closing summary are finished, and the module is Off. -/
def execLodgeStop (s : State) : Host.Outcome State Fault Refusal :=
  .next (if s.boot.powered then
    let s1 := s.persistQueue s.sbk.queue.length
    (if s1.hlt.closed then s1 else s1.appendSummary).toOff
  else s)

/-! ## Management messages and the mailbox (R373, R377, R380, R403) -/

/-- The cached identity (R380). -/
def State.identity (s : State) : MctpAnswer :=
  .identity Config.moduleId 0x04740512 Config.romVersion s.boot.status s.boot.cached

/-- The Lodge's answer to a request; a malformed one has none. -/
def State.mctpAnswer (s : State) : MctpReq → Option MctpAnswer
  | .control => some .control
  | .identity => some s.identity
  | .ledgerRead o n => if n ≤ 192 then some (.vendor 2 (s.ledgerBytes o n)) else none
  | .snapshotRead o n => if n ≤ 192 then some (.vendor 3 ((s.snapshotBytes.drop o).take n)) else none
  | .malformed => none

/-- Answer over the management path. -/
def State.mctpReply (s : State) (r : MctpReq) : State :=
  match s.mctpAnswer r with
  | some a => s.send (.mctp a)
  | none => s

/-- The Lodge answers as an I3C target at its dynamic address. -/
def State.onI3c (s : State) (f : State → State) : State :=
  if s.ldg.address.isSome then s.onMgmt f else s

/-- MCTP_I3C_REQUEST (R373). -/
def execMctpI3cRequest (req : MctpReq) (s : State) : Host.Outcome State Fault Refusal :=
  .next (s.onI3c fun s => s.mctpReply req)

/-- DYNAMIC_ADDRESS_ASSIGNMENT (R379). -/
def execDynamicAddressAssignment (addr : BitVec 7) (s : State) : Host.Outcome State Fault Refusal :=
  .next (if s.boot.powered && decide (1 ≤ s.boot.step) then s.mapLdg fun l => { l with address := some addr } else s)

/-- LEDGER_READ (R403): MCTP command 0x02. -/
def execLedgerRead (offset length : Nat) (s : State) : Host.Outcome State Fault Refusal :=
  .next (s.onMgmt fun s => s.mctpReply (.ledgerRead offset length))

/-- SNAPSHOT_READ (R403): MCTP command 0x03. -/
def execSnapshotRead (offset length : Nat) (s : State) : Host.Outcome State Fault Refusal :=
  .next (s.onMgmt fun s => s.mctpReply (.snapshotRead offset length))

/-- The message that the mailbox buffer then holds. A vendor message begins with its type, vendor ID and command; no rule
lays out a control answer: free bytes. -/
def State.mailboxBytes (s : State) : MctpAnswer → List Byte
  | .control => leBytes 8 s.fresh.toNat
  | .identity m p r st d => leBytes 8 m.toNat ++ leBytes 4 p ++ leBytes 8 r.toNat ++ leBytes 4 st ++ leBytes 64 d
  | .vendor c d => leBytes 1 0x7E ++ leBytes 2 0x1F3A ++ leBytes 1 c ++ d
  | .pldm c fs => leBytes 1 c ++ fs.flatMap (leBytes 4)

/-- Lay bytes into the mailbox buffer, word by word, from word `k`. -/
def State.fillMailbox (s : State) (k : Nat) : Nat → List Byte → State
  | 0, _ => s
  | n + 1, bs =>
    match bs with
    | [] => s
    | _ :: _ => State.fillMailbox (s.setRegN (Reg.LDG_MBOX + 4 * k) (ofLe (bs.take 4))) (k + 1) n (bs.drop 4)

/-- A byte of the mailbox buffer (R377). -/
def State.mailboxByte (s : State) (i : Nat) : Nat := s.regN (Reg.LDG_MBOX + i / 4 * 4) / 2 ^ (8 * (i % 4)) % 256

/-- `n` bytes of the buffer as a number. -/
def State.mailboxField (s : State) (o n : Nat) : Nat :=
  (List.range n).foldl (fun a i => a + s.mailboxByte (o + i) * 2 ^ (8 * i)) 0

/-- The message in the buffer. A vendor-defined message of Sahuri is read from its bytes (R403): command 0x02 carries an offset of 8 and
a length of 2 bytes, 0x03 an offset (8 bytes, and 192 B are asked for; DEDUCED, log 59), and 0x01 is not taken here (R387). No rule lays
out any other message, and `req` is what it spells. -/
def State.mailboxReq (s : State) (req : MctpReq) : MctpReq :=
  if s.mailboxField 0 3 = 0x7E + 256 * 0x1F3A then
    if s.mailboxByte 3 = 2 then .ledgerRead (s.mailboxField 4 8) (s.mailboxField 12 2)
    else if s.mailboxByte 3 = 3 then .snapshotRead (s.mailboxField 4 8) 192
    else .malformed
  else req

/-- LDG_MBOX_CTRL is written: LENGTH is taken, and GO submits the request in the buffer. The answer replaces the request. -/
def State.mailbox (s : State) (v : Nat) (req : MctpReq) : State :=
  let s1 := s.setFld Reg.LDG_MBOX_CTRL 10 2 (bits v 10 2)
  if v % 2 = 0 then s1
  else if bits v 10 2 = 0 ∨ 256 < bits v 10 2 then s1.setBit Reg.LDG_MBOX_CTRL 12 true
  else match s1.mctpAnswer (s1.mailboxReq req) with
    | none => s1.setBit Reg.LDG_MBOX_CTRL 12 true
    | some a =>
      let bs := s1.mailboxBytes a
      let s2 := ((s1.fillMailbox 0 64 bs).setFld Reg.LDG_MBOX_CTRL 10 2 bs.length).setBit Reg.LDG_MBOX_CTRL 12 false
      s2.used.event Reg.LDG_EVENT 4

/-- MAILBOX_GO (R377). -/
def execMailboxGo (ctrl : Word) (req : MctpReq) (s : State) : Host.Outcome State Fault Refusal :=
  .next (s.onLodge fun s => s.mailbox (ctrl.toNat / 2 * 2 + 1) req)

/-! ## Pins of the sideband connector (R371, R372) -/

/-- ALERT_N is driven low while an LDG_EVENT bit is set; none is a floating pin. -/
def State.alertN (s : State) : Option Bool :=
  if s.boot.powered ∧ 1 ≤ s.boot.step ∧ s.reg Reg.LDG_EVENT ≠ 0 then some false else none

/-- TRIP_N is driven low while TRIPPED is 1. -/
def State.tripN (s : State) : Option Bool := if s.boot.powered ∧ 1 ≤ s.boot.step ∧ s.tripped then some false else none

/-- READY: driven by the logic domain, which is off in A2 and A3 and before it starts. -/
def State.readyPin (s : State) : Option Bool :=
  if s.boot.powered ∧ 2 ≤ s.boot.domains ∧ s.asleep = false then some (decide (8 ≤ s.boot.step)) else none

end Sys2Proof.Machine
end

