-- ==== Sys2Proof/Machine/Boot.lean ====
section
/-! DEFINITION. Start-up: from 48 V valid to a module that is ready for a Last image, and the checks of the boot banks (R378 to
R384, R227). -/

namespace Sys2Proof.Machine

/-! ## Steps 1 to 5 (R378) -/

/-- 48 V becomes valid: the sequence starts. A return of the input that is no 48 V cycle keeps TRIPPED and the trips
(R375, R431). -/
def State.powerUp (s : State) (perst : Bool) : State :=
  let again := s.boot.powered
  let trip := if again then s.reg Reg.LDG_STATE &&& 0x30 else 0
  let ldg : LodgeSt :=
    if again then { s.ldg with ps := .a0, entering := none, waking := 0, latched := false, held := none, asked := false }
    else {}
  let s1 := s.toOff
  let s2 : State := { s1 with
    boot := { s1.boot with powered := true }
    ldg := ldg
    host := { perst := perst } }
  (s2.setReg Reg.LDG_STATE trip).live 0x018 1

/-- POWER_VALID_48V (R378): from Off, or in A3 after a dip (R431). -/
def execPowerValid48v (perst : Bool) (s : State) : Host.Outcome State Fault Refusal :=
  .next (if s.boot.powered ∧ s.ldg.ps ≠ .a3 then s else s.powerUp perst)

/-- LODGE_ALIVE (R378 step 1). -/
def execLodgeAlive (s : State) : Host.Outcome State Fault Refusal :=
  .next (if s.boot.powered ∧ s.boot.step = 0 then
    ({ s with boot := { s.boot with step := 1 } } : State).send .hotJoin
  else s)

/-- PYURN_TRAINING_OPEN (R378 step 5): every port with an in-service lane trains (R379). -/
def execPyurnTrainingOpen (s : State) : Host.Outcome State Fault Refusal :=
  .next (if s.boot.powered && decide (2 ≤ s.boot.domains) && !s.boot.training then
    ({ s with boot := { s.boot with training := true } } : State).freePorts
  else s)

/-- TRAINING_RETRY (R379): every 10 ms, without end. -/
def execTrainingRetry (port : Fin 16) (s : State) : Host.Outcome State Fault Refusal :=
  .next (if s.boot.training && decide ((s.port port).st = portTraining) then s.send (.training port) else s)

/-! ## Boot banks (R381 to R384) -/

/-- The active bank of the boot policy. -/
def State.activeBank (s : State) : Nat := (s.seed 32).toNat % 2

/-- The boot floor. -/
def State.bootFloor (s : State) : Nat := (s.seed 33).toNat

/-- The bytes of a boot bank, which holds up to 64 MiB. -/
def bankSize : Nat := 67108864

/-- `n` bytes of a bank from its start. -/
def State.bankBytes (s : State) (bank n : Nat) : List Byte := storeGetMany 0 s.sec.banks (bank * bankSize) n

/-- A bank holds an image unless every byte of it is 0 (DEDUCED, log 83). -/
def State.bankHeld (s : State) (bank : Nat) : Bool := s.sec.banks.any fun e => decide (e.1 / bankSize = bank)

/-- The image in a bank: as many bytes as its header says, at most the bank's. -/
def State.bootImage (s : State) (bank : Nat) : Option (List Byte) :=
  if s.bankHeld bank then some (s.bankBytes bank (min (headerOf (s.bankBytes bank 256)).imageLength bankSize)) else none

/-- Check 1: magic "GBOT", format_version, part_code and the reserved bytes of the header. -/
def bootHeaderOk (raw : List Byte) : Bool :=
  let h := headerOf raw
  decide (h.magic = 0x544F4247 ∧ h.formatVersion = 1 ∧ h.partCode = 0x04740512 ∧ h.reserved = 0)

/-- Check 3: the ROM key, its revocation bit clear, whose digest is that of the image's public key. -/
def State.romKey (s : State) (raw : List Byte) : Option (Fin 4) :=
  [0, 1, 2, 3].find? fun k => decide (Config.bootKey k = digest256 (keyOf raw)) && !(s.seed 34).getLsbD k

/-- Check 6: every section digest. -/
def bootSectionsOk (raw : List Byte) : Bool := (dirOf raw).all fun d => decide (sectionDigestOf raw d = d.digest)

/-- The checks of a bank in their order: the result code (R382). -/
def State.bankCode (s : State) : Option (List Byte) → Nat
  | none => 6
  | some raw =>
    if !bootHeaderOk raw then 1
    else if bankSize < (headerOf raw).imageLength then 1
    else if (s.romKey raw).isNone then 2
    else if !trailerValid bootContext raw then 3
    else if (headerOf raw).securityVersion < s.bootFloor then 4
    else if !bootSectionsOk raw then 5
    else 0

/-- The digest of a boot image under R45. -/
def bootDigest (raw : List Byte) : Nat := digest512 (signedOf raw)

/-- What the boot ROM finds: the bank booted with its image, none when boot-failed; whether the other bank was tried; the
codes of banks 0 and 1, 0 for a bank that was not checked. -/
structure BootFound where
  booted : Option (Nat × List Byte)
  fallback : Bool
  code0 : Nat
  code1 : Nat
deriving DecidableEq, Repr

/-- The digest of the active bank equals the cached one, on a wake from A3 (R381). -/
def State.digestKnown (s : State) (active : Option (List Byte)) : Bool :=
  s.boot.fromA3 && (active.map fun b => decide (bootDigest b = s.boot.cached)).getD false

/-- Codes by bank from those of the active and the other one. -/
def byBank (active a b : Nat) : Nat × Nat := if active = 0 then (a, b) else (b, a)

/-- The ROM checks the active bank, then the other. -/
def State.bootFind (s : State) : BootFound :=
  let act := s.activeBank
  let a := s.bootImage act
  let o := s.bootImage (1 - act)
  let ca := if s.digestKnown a then 0 else s.bankCode a
  let co := if ca = 0 then 0 else s.bankCode o
  let (c0, c1) := byBank act ca co
  let found := if ca = 0 then a.map fun b => (act, b) else if co = 0 then o.map fun b => (1 - act, b) else none
  ⟨found, decide (ca ≠ 0), c0, c1⟩

/-- TOP_BOOT, and the boot status of the cached identity. -/
def bootBits (f : BootFound) : Nat :=
  ((f.booted.map Prod.fst).getD 2) + 4 * f.fallback.toNat + 16 * f.code0 + 256 * f.code1 + 2 ^ 31

/-- The BOOT record (R399). -/
def State.bootRecord (s : State) (f : BootFound) : State :=
  let n := s.hlt.records
  let s1 := s.ledgerEvent 0x02 0 ((f.booted.map Prod.fst).getD 2) (f.code0 + 256 * f.code1)
    (leBytes 4 s.bootFloor ++ leBytes 24 ((f.booted.map fun b => bootDigest b.2).getD 0))
  { s1 with hlt := { s1.hlt with bootSeq := n } }

/-- The keys that the image's REVOKE section names, but for the one that verified the image. -/
def State.revokeBits (s : State) (raw : List Byte) : BitVec 4 :=
  match (dirOf raw).find? fun d => decide (d.type = 0x20) with
  | some d =>
    Config.revokeNames (rawBytes raw d.offset d.length) &&&
      ~~~(match s.romKey raw with | some k => BitVec.ofNat 4 (2 ^ k.val) | none => 0)
  | none => 0

/-- The first boot of a bank above the floor raises it and applies its REVOKE section (R384). -/
def State.raiseFloor (s : State) (raw : List Byte) : State :=
  let v := (headerOf raw).securityVersion
  if s.bootFloor < v then
    let s1 := s.seedAccept 33 (BitVec.ofNat 32 v)
    let r := s1.seed 34 ||| (s.revokeBits raw).setWidth 32
    if r = s1.seed 34 then s1 else s1.seedAccept 34 r
  else s

/-- Step 6: RRS ends and Device Readiness Status goes; without a bank the module is boot-failed (R383). -/
def State.bootDone (s : State) (f : BootFound) : State :=
  let st := bootBits f
  let s1 : State := { s with
    boot := { s.boot with
      step := 6
      failed := f.booted.isNone
      bank := f.booted.map Prod.fst
      digest := (f.booted.map fun b => bootDigest b.2).getD 0
      secver := (f.booted.map fun b => (headerOf b.2).securityVersion).getD 0
      status := st
      cached := (f.booted.map fun b => bootDigest b.2).getD s.boot.cached } }
  let s2 := (s1.setRegN Reg.TOP_BOOT st).bootRecord f
  let s3 := match f.booted with
    | some b => s2.raiseFloor b.2
    | none => s2
  s3.send .deviceReady

/-- BOOT_VERIFIED (R382): the ROM has checked the bytes of the banks. -/
def execBootVerified (s : State) : Host.Outcome State Fault Refusal :=
  .next (if s.boot.powered ∧ s.boot.step = 1 ∧ s.ldg.ps ≠ .a2 ∧ (s.ldg.ps = .a3 → s.ldg.waking ≠ 0) then
    s.bootDone s.bootFind
  else s)

/-! ## Steps 7 and 8 -/

/-- The channels of a list that the map of register `k` has in. -/
def State.failedIn (s : State) (failed : List (Fin 256)) (k : Nat) : List Nat :=
  (failed.map Fin.val).filter fun ch => decide (ch / 32 = k) && (s.seed (8 + k)).getLsbD (ch % 32)

/-- A channel that fails training is mapped out: event and record (R227). -/
def State.autoMapOut (s : State) : List Nat → State
  | [] => s
  | ch :: chs => State.autoMapOut ((s.event Reg.MEM_EVENT 7).ledgerEvent 0x06 0 ch 2 []) chs

/-- The failed channels of MEM_MAPk: their bits are cleared by one write, and they stay out of service though the seed bank should not
take it (R217, R227). -/
def State.autoMapGroup (s : State) (failed : List (Fin 256)) (k : Nat) : State :=
  match s.failedIn failed k with
  | [] => s
  | c :: cs =>
    let mask := (c :: cs).foldl (fun m ch => m ||| BitVec.ofNat 32 (2 ^ (ch % 32))) (0 : Word)
    (({ s with hbm := { s.hbm with mapFailed := s.hbm.mapFailed ++ (c :: cs) } } : State).ownMap k
      (s.seed (8 + k) &&& ~~~mask)).autoMapOut (c :: cs)

/-- HBM_TRAINING_DONE (R378 step 7). -/
def execHbmTrainingDone (failed : List (Fin 256)) (s : State) : Host.Outcome State Fault Refusal :=
  .next (if s.boot.step = 6 ∧ s.boot.failed = false ∧ 2 ≤ s.boot.domains then
    let s1 := (s.eachPort (fun s k => s.autoMapGroup failed k) (List.range 8)).copyMap
    { s1 with hbm := { s1.hbm with trained := true }, boot := { s1.boot with step := 7 } }
  else s)

/-- MODULE_READY (R378 step 8, R379): a LOAD held since step 6 begins. -/
def execModuleReady (s : State) : Host.Outcome State Fault Refusal :=
  .next (if s.boot.step = 7 then
    let s1 : State := { s with boot := { s.boot with step := 8, heldLoad := false } }
    if s.boot.heldLoad then s1.load else s1
  else s)

end Sys2Proof.Machine
end

