-- ==== Sys2Proof/Machine/Security.lean ====
section
/-! DEFINITION. Enrollment records, firmware update over PLDM, and attestation over SPDM (R385 to R391). -/

namespace Sys2Proof.Machine

/-! ## Enrollment (R387, R388) -/

/-- The writes of a key digest into slot `k`. -/
def digestWrites (k : Nat) (d : BitVec 256) : List (Nat × Word) :=
  (List.range 8).map fun i => (40 + 8 * k + i, (d >>> (32 * i)).setWidth 32)

/-- A slot's digest. -/
def State.slotDigest (s : State) (k : Nat) : BitVec 256 :=
  BitVec.ofNat 256 ((List.range 8).foldl (fun a i => a + (s.seed (40 + 8 * k + i)).toNat * 2 ^ (32 * i)) 0)

/-- A slot is enrolled. -/
def State.enrolled (s : State) (k : Nat) : Bool := (s.seed 56).getLsbD k

/-- FIRST_ENROLLMENT (R387): over I3C only, while both slots are empty; the writes form a group (R395). -/
def execFirstEnrollment (keyDigest : BitVec 256) (s : State) : Host.Outcome State Fault Refusal :=
  .next (s.onI3c fun s =>
    if s.enrolled 0 || s.enrolled 1 then s
    else (s.seedGroup (digestWrites 0 keyDigest ++ [(56, 1)])).send (.mctp (.vendor 1 [])))

/-- SBK_ENR_CTRL.BUSY. -/
def State.enrBusy (s : State) : Bool := s.bit Reg.SBK_ENR_CTRL 1

/-- GO: ignored while BUSY is 1. -/
def State.enrGo (s : State) : State :=
  if s.enrBusy then s else (s.setBit Reg.SBK_ENR_CTRL 1 true).setBit Reg.SBK_ENR_CTRL 8 false

/-- ENROLLMENT_GO (R388). -/
def execEnrollmentGo (s : State) : Host.Outcome State Fault Refusal := .next (s.onHost State.enrGo)

/-- A field of `n` bytes at offset `o` of the record in SBK_ENR_BUF. -/
def State.enrField (s : State) (o n : Nat) : Nat :=
  (List.range n).foldl (fun a i =>
    a + (s.regN (Reg.SBK_ENR_BUF + (o + i) / 4 * 4) / 2 ^ (8 * ((o + i) % 4)) % 256) * 2 ^ (8 * i)) 0

/-- The enrollment counter. -/
def State.enrCounter (s : State) : Nat := (s.seed 36).toNat + 2 ^ 32 * (s.seed 37).toNat

/-- The registers that an accepted record writes. -/
def State.enrWrites (s : State) : List (Nat × Word) :=
  let slot := s.enrField 6 2
  let body :=
    match s.enrField 4 2 with
    | 1 => digestWrites slot (BitVec.ofNat 256 (s.enrField 0x20 32)) ++ [(56, s.seed 56 ||| BitVec.ofNat 32 (2 ^ slot))]
    | 2 => [(56, s.seed 56 &&& ~~~(BitVec.ofNat 32 (2 ^ slot)))]
    | _ => [(35, BitVec.ofNat 32 (s.enrField 0x18 4))]
  let n := s.enrField 0x10 8
  body ++ [(36, BitVec.ofNat 32 n), (37, BitVec.ofNat 32 (n / 2 ^ 32))]

/-- The fields of the record are valid (code 1 otherwise). -/
def State.enrShape (s : State) : Bool :=
  let c := s.enrField 4 2
  decide (s.enrField 0 4 = 0x524E4547) && decide (1 ≤ c ∧ c ≤ 3) &&
    (decide (c = 3) || decide (s.enrField 6 2 ≤ 1)) && decide (s.enrField 0x1C 4 = 0)

/-- Bytes of the record. -/
def State.enrBytes (s : State) (o n : Nat) : List Byte := leBytes n (s.enrField o n)

/-- The SHAKE256 digest of the signer's public key. -/
def State.enrSigner (s : State) : BitVec 256 := BitVec.ofNat 256 (digest256 (s.enrBytes 0x40 64))

/-- The record's signature over its bytes 0x00 to 0x7F verifies under the signer's key (R388). -/
def State.enrSigValid (s : State) : Bool :=
  Config.slhVerify (s.enrBytes 0x40 64) (pureSlhMessage enrollContext (s.enrBytes 0 0x80)) (s.enrBytes 0x80 trailerLength)

/-- The checks of R388 in their order, up to code 8. -/
def State.enrCode (s : State) : Nat :=
  let c := s.enrField 4 2
  let other := 1 - s.enrField 6 2
  let signer := s.enrSigner
  if !s.enrShape then 1
  else if !((s.enrolled 0 && s.slotDigest 0 = signer) || (s.enrolled 1 && s.slotDigest 1 = signer)) then 2
  else if !s.enrSigValid then 3
  else if s.enrField 8 8 ≠ 0 ∧ s.enrField 8 8 ≠ Config.moduleId.toNat then 4
  else if s.enrField 0x10 8 ≤ s.enrCounter then 5
  else if c = 3 ∧ s.enrField 0x18 4 ≤ (s.seed 35).toNat then 6
  else if c = 2 ∧ s.enrolled other = false then 7
  else if s.groupFrozen s.enrWrites then 8
  else 0

/-- The record has been checked: its result, and SBK_EVENT.ENR_DONE. -/
def State.enrResult (s : State) (code : Nat) : State :=
  (((s.setBit Reg.SBK_ENR_CTRL 1 false).setFld Reg.SBK_ENR_CTRL 7 4 code).setBit Reg.SBK_ENR_CTRL 8 true).event
    Reg.SBK_EVENT 3

/-- A load is in LOADING or VERIFYING (R388); the recheck after A2 is no load. -/
def State.loadRuns (s : State) : Bool :=
  decide (s.image.st = .loading) || (decide (s.image.st = .verifying) && s.image.rechecking.isNone)

/-- ENROLLMENT_CHECK (R388): held while a load runs, and until the write queue has room for the group. -/
def execEnrollmentCheck (s : State) : Host.Outcome State Fault Refusal :=
  .next (if !s.enrBusy || s.loadRuns then s
  else
    let c := s.enrCode
    if c = 0 then
      if (queued s.sbk.queue).length + s.enrWrites.length ≤ 16 then (s.seedGroup s.enrWrites).enrResult 0 else s
    else if c = 8 then (s.seedGroup s.enrWrites).enrResult 8
    else s.enrResult c)

/-! ## Firmware update (R385) -/

/-- The completion codes of DSP0240 and DSP0267 that the module gives (PRESUMED: those standards). -/
def pldmOk : Nat := 0
/-- NOT_IN_UPDATE_MODE. -/
def pldmNotUpdating : Nat := 0x80
/-- ALREADY_IN_UPDATE_MODE. -/
def pldmUpdating : Nat := 0x81
/-- INVALID_STATE_FOR_COMMAND. -/
def pldmBadState : Nat := 0x84

/-- A PLDM answer. -/
def State.pldmSend (s : State) (code : Nat) (fields : List Nat) : State := s.send (.mctp (.pldm code fields))

/-- The number of an update state, as GetStatus gives it. -/
def PldmState.code : PldmState → Nat
  | .idle => 0 | .learn => 1 | .ready => 2 | .download => 3 | .verify => 4 | .apply => 5

/-- Change the security part. -/
def State.mapSec (s : State) (f : SecSt → SecSt) : State := { s with sec := f s.sec }

/-- An update command that is due in state `want` only: it acts and is answered. -/
def State.pldmIn (s : State) (want : PldmState) (f : State → State) : State :=
  s.onMgmt fun s =>
    if s.sec.pldm = want then (f s).pldmSend pldmOk []
    else s.pldmSend (if s.sec.pldm = .idle then pldmNotUpdating else pldmBadState) []

/-- The inactive bank. -/
def State.otherBank (s : State) : Nat := 1 - s.activeBank

/-- QUERY_DEVICE_IDENTIFIERS: PCI vendor, device, subsystem vendor and subsystem IDs (R320). -/
def execQueryDeviceIdentifiers (s : State) : Host.Outcome State Fault Refusal :=
  .next (s.onMgmt fun s => s.pldmSend pldmOk [0x1F3A, 0x0474, 0x1F3A, 0x0474])

/-- GET_FIRMWARE_PARAMETERS: one component; the active bank, the booted bank and its security version, the boot floor. -/
def execGetFirmwareParameters (s : State) : Host.Outcome State Fault Refusal :=
  .next (s.onMgmt fun s => s.pldmSend pldmOk [1, s.activeBank, s.boot.bank.getD 2, s.boot.secver, s.bootFloor])

/-- REQUEST_UPDATE. -/
def execRequestUpdate (outstanding : Nat) (s : State) : Host.Outcome State Fault Refusal :=
  .next (s.onMgmt fun s =>
    if s.sec.pldm = .idle then
      (s.mapSec fun x => { x with pldm := .learn, passed := false, length := 0 }).pldmSend pldmOk [min outstanding 1]
    else s.pldmSend pldmUpdating [])

/-- PASS_COMPONENT_TABLE: the package carries one component, the boot image. -/
def execPassComponentTable (component : Nat) (s : State) : Host.Outcome State Fault Refusal :=
  .next (s.pldmIn .learn fun s => if component = 0 then s.mapSec fun x => { x with pldm := .ready } else s)

/-- UPDATE_COMPONENT: the transfer of the boot image begins. -/
def execUpdateComponent (component : Nat) (length : Nat) (s : State) : Host.Outcome State Fault Refusal :=
  .next (s.pldmIn .ready fun s =>
    if component = 0 ∧ length ≤ 67108864 then s.mapSec fun x => { x with pldm := .download, passed := false, length := length }
    else s)

/-- REQUEST_FIRMWARE_DATA: up to 192 B, written to the inactive bank. -/
def execRequestFirmwareData (offset : Nat) (data : List Byte) (s : State) : Host.Outcome State Fault Refusal :=
  .next (s.onMgmt fun s =>
    if s.sec.pldm = .download then
      s.mapSec fun x => { x with
        banks := storeSetMany 0 x.banks (s.otherBank * 67108864 + offset) ((data.take 192).take (x.length - offset)) }
    else s)

/-- TRANSFER_COMPLETE. -/
def execTransferComplete (s : State) : Host.Outcome State Fault Refusal :=
  .next (s.onMgmt fun s =>
    if s.sec.pldm = .download then (s.mapSec fun x => { x with pldm := .verify }).pldmSend pldmOk [] else s)

/-- VERIFY_COMPLETE: the checks of R382 run on the inactive bank; the answer carries their code. -/
def execVerifyComplete (s : State) : Host.Outcome State Fault Refusal :=
  .next (s.onMgmt fun s =>
    if s.sec.pldm = .verify then
      let c := s.bankCode (s.bootImage s.otherBank)
      (s.mapSec fun x => { x with pldm := if c = 0 then .apply else .ready, passed := decide (c = 0) }).pldmSend c []
    else s)

/-- APPLY_COMPLETE. -/
def execApplyComplete (s : State) : Host.Outcome State Fault Refusal :=
  .next (s.onMgmt fun s =>
    if s.sec.pldm = .apply then (s.mapSec fun x => { x with pldm := .ready }).pldmSend pldmOk [] else s)

/-- ACTIVATE_FIRMWARE: the bank that passed becomes the active one of the boot policy. -/
def execActivateFirmware (s : State) : Host.Outcome State Fault Refusal :=
  .next (s.onMgmt fun s =>
    if s.sec.pldm = .ready ∧ s.sec.passed then
      ((s.seedAccept 32 (s.seed 32 &&& ~~~1#32 ||| BitVec.ofNat 32 s.otherBank)).mapSec fun x =>
        { x with pldm := .idle, passed := false }).pldmSend pldmOk []
    else s.pldmSend (if s.sec.pldm = .idle then pldmNotUpdating else pldmBadState) [])

/-- GET_STATUS. -/
def execGetStatus (s : State) : Host.Outcome State Fault Refusal :=
  .next (s.onMgmt fun s => s.pldmSend pldmOk [s.sec.pldm.code])

/-- CANCEL_UPDATE: the update is abandoned. -/
def execCancelUpdate (s : State) : Host.Outcome State Fault Refusal :=
  .next (s.onMgmt fun s =>
    if s.sec.pldm = .idle then s.pldmSend pldmNotUpdating []
    else (s.mapSec fun x => { x with pldm := .idle, passed := false }).pldmSend pldmOk [])

/-! ## Attestation (R389 to R391) -/

/-- ERROR codes of DSP0274 (PRESUMED): InvalidRequest and UnexpectedRequest. -/
def spdmInvalid : Nat := 1
/-- UnexpectedRequest. -/
def spdmUnexpected : Nat := 4

/-- GET_VERSION: versions 1.2 and 1.3; an exchange starts afresh. -/
def execGetVersion (s : State) : Host.Outcome State Fault Refusal :=
  .next (s.onDoe fun s =>
    (s.mapSec fun x => { x with spdm := .version, asym := false, hash := false }).doeAnswer (.version [0x12, 0x13]))

/-- GET_CAPABILITIES: CERT_CAP, CHAL_CAP, MEAS_CAP 2 and MEAS_FRESH_CAP, CTExponent 20, sizes of 65,536 B. -/
def execGetCapabilities (s : State) : Host.Outcome State Fault Refusal :=
  .next (s.onDoe fun s =>
    if s.sec.spdm = .none then s.doeAnswer (.error spdmUnexpected)
    else (s.mapSec fun x => { x with spdm := .capabilities }).doeAnswer (.capabilities 0x36 20 65536))

/-- NEGOTIATE_ALGORITHMS: exactly the identifiers of R389, and only those that are offered. -/
def execNegotiateAlgorithms (offered : List Nat) (s : State) : Host.Outcome State Fault Refusal :=
  .next (s.onDoe fun s =>
    if s.sec.spdm = .none ∨ s.sec.spdm = .version then s.doeAnswer (.error spdmUnexpected)
    else
      let a := offered.contains 0xA501
      let h := offered.contains 0xA511
      (s.mapSec fun x => { x with spdm := .algorithms, asym := a, hash := h }).doeAnswer
        (.algorithms (if a then some 0xA501 else none) (if h then some 0xA511 else none) 1))

/-- A request after the algorithms are negotiated. -/
def State.spdmIn (s : State) (f : State → State) : State :=
  s.onDoe fun s => if s.sec.spdm = .algorithms then f s else s.doeAnswer (.error spdmUnexpected)

/-- The identifiers of a signature were selected. -/
def State.canSign (s : State) : Bool := s.sec.asym && s.sec.hash

/-- GET_DIGESTS. -/
def execGetDigests (s : State) : Host.Outcome State Fault Refusal :=
  .next (s.spdmIn fun s => s.doeAnswer (.digests Config.certDigest))

/-- GET_CERTIFICATE: a part of the chain of slot 0; the other slots are absent. -/
def execGetCertificate (slot offset length : Nat) (s : State) : Host.Outcome State Fault Refusal :=
  .next (s.spdmIn fun s =>
    if slot ≠ 0 ∨ Config.certLength ≤ offset then s.doeAnswer (.error spdmInvalid)
    else
      let n := min length (Config.certLength - offset)
      s.doeAnswer (.certificate ((List.range n).map fun i => Config.certByte (offset + i)) (Config.certLength - offset - n)))

/-- A fresh 32-byte nonce. -/
def State.nonce (s : State) : Nat :=
  (List.range 4).foldl (fun a i => a + (Config.freeBits (s.free + i)).toNat * 2 ^ (64 * i)) 0

/-- CHALLENGE. -/
def execChallenge (slot : Nat) (nonce : Nat) (s : State) : Host.Outcome State Fault Refusal :=
  .next (s.spdmIn fun s =>
    if !s.canSign then s.doeAnswer (.error spdmUnexpected)
    else if slot ≠ 0 then s.doeAnswer (.error spdmInvalid)
    else ({ s with free := s.free + 4 } : State).doeAnswer (.challengeAuth Config.certDigest s.nonce nonce
      (Config.deviceSign (leBytes 64 Config.certDigest ++ leBytes 32 s.nonce ++ leBytes 32 nonce))))

/-- The blocks that are always present (R390, indices 1 to 4 and 7). -/
def State.fixedBlocks (s : State) : List MeasBlock :=
  [⟨1, 0x80, leBytes 8 Config.romVersion.toNat⟩,
   ⟨2, 0x81, leBytes 64 s.boot.digest⟩,
   ⟨3, 0x87, leBytes 4 s.bootFloor ++ leBytes 4 s.boot.secver⟩,
   ⟨4, 0x83, leBytes 4 (s.seed 35).toNat ++ leBytes 4 (s.seed 36).toNat ++
     leBytes 32 (if s.enrolled 0 then (s.slotDigest 0).toNat else 0) ++
     leBytes 32 (if s.enrolled 1 then (s.slotDigest 1).toNat else 0)⟩]

/-- Index 7: booted bank, fallback taken and the two codes, 2 bytes each. -/
def State.modeBlock (s : State) : MeasBlock :=
  let b := s.boot.status
  ⟨7, 0x85, leBytes 2 (bits b 1 0) ++ leBytes 2 (bits b 2 2) ++ leBytes 2 (bits b 7 4) ++ leBytes 2 (bits b 11 8)⟩

/-- The blocks of the image, present while LAST_STATE is LOADED, ARMED, RUNNING or RETIRED. -/
def State.imageBlocks (s : State) : List MeasBlock × List MeasBlock :=
  match s.img, s.image.rechecking with
  | none, _ => ([], [])
  | some _, some _ => ([], [])
  | some f, none =>
    let h := f.header
    ([⟨5, 0x83, leBytes 64 f.digest⟩,
      ⟨6, 0x83, leBytes 8 h.imageId ++ leBytes 8 h.jobId ++ leBytes 4 h.rank ++ leBytes 4 h.jobSize ++
        leBytes 4 h.securityVersion ++ leBytes 4 s.image.st.code⟩],
     ((f.dir.take 64).zipIdx.map fun e => ⟨16 + e.2, 0x83, leBytes 64 e.1.digest⟩))

/-- Every block present, by index (R390). -/
def State.blocks (s : State) : List MeasBlock :=
  s.fixedBlocks ++ s.imageBlocks.1 ++ [s.modeBlock] ++ s.imageBlocks.2

/-- The blocks that an index asks for: none for 0, all for 0xFF, otherwise the one of that index. -/
def State.asked (s : State) (index : Nat) : Option (List MeasBlock) :=
  if index = 0 then some []
  else if index = 0xFF then some s.blocks
  else (s.blocks.find? fun b => b.index = index).map fun b => [b]

/-- GET_MEASUREMENTS (R391): from the values of this moment, with a fresh nonce. -/
def execGetMeasurements (index : Nat) (signed : Bool) (nonce : Nat) (s : State) : Host.Outcome State Fault Refusal :=
  .next (s.spdmIn fun s =>
    if signed && !s.canSign then s.doeAnswer (.error spdmUnexpected)
    else match s.asked index with
      | none => s.doeAnswer (.error spdmInvalid)
      | some bs =>
        ({ s with free := s.free + 4 } : State).doeAnswer (.measurements s.blocks.length bs s.nonce nonce
          (if signed then
            some (Config.deviceSign (bs.flatMap (fun b => leBytes 1 b.index ++ leBytes 1 b.type ++ b.value) ++ leBytes 32 s.nonce ++
              leBytes 32 nonce))
          else none)))

end Sys2Proof.Machine
end

