-- ==== Sys2Proof/Machine/Persist.lean ====
section
/-! DEFINITION. The seed bank's and the health ledger's own commands (R392 to R396, R400 to R403). -/

namespace Sys2Proof.Machine

/-! ## Seed bank -/

/-- The LOGICAL field of a lane map is a permutation of 0 to 7 (R298). -/
def lanePermutation (v : Word) : Bool :=
  (List.range 8).all fun l => ((List.range 8).map (physicalLane v)).contains l

/-- A lane map is written: ignored unless it is a permutation (R298). -/
def State.laneMapWrite (s : State) (p : Nat) (v : Word) : State := if lanePermutation v then s.seedAccept (16 + p) v else s

/-- MEM_THERM_CFG is written: ignored outside 80 to 100 °C (R236). -/
def State.thermWrite (s : State) (v : Word) : State :=
  if 80 ≤ v.toNat % 256 ∧ v.toNat % 256 ≤ 100 then s.seedAccept 1 (v &&& 0xFF) else s

/-- The host writes a seed-bank register: indices 0 to 31 by the rules of the registers that show them, 512 to 1,023 freely;
every other write is ignored and does not wear (R392). -/
def State.seedWrite (s : State) (i : Nat) (v : Word) : State :=
  if i = 0 then s.capWrite v.toNat
  else if i = 1 then s.thermWrite v
  else if i = 2 then s.seedAccept 2 (v &&& 0xFFFF)
  else if 8 ≤ i ∧ i < 16 then s.mapWrite (i - 8) v
  else if 16 ≤ i ∧ i < 32 then s.laneMapWrite (i - 16) v
  else if 512 ≤ i then s.seedAccept i v
  else s

/-- SEED_WRITE (R393). -/
def execSeedWrite (index : Fin 1024) (value : Word) (s : State) : Host.Outcome State Fault Refusal :=
  .next (s.onHost fun s => s.seedWrite index value)

/-- SEED_WRITE_PERSIST (R394). -/
def execSeedWritePersist (s : State) : Host.Outcome State Fault Refusal :=
  .next (if s.boot.powered then s.seedPersist else s)

/-! ## Health ledger -/

/-- The results of a margin scan are appended (R399, R401). -/
def State.appendScan (s : State) : State :=
  if s.hlt.scanDue then
    let s1 := s.ledgerAppend 0x0C 2 2064 (s.scanBody 256)
    { s1 with hlt := { s1.hlt with scanDue := false, scans := [] } }
  else s

/-- WEEKLY_SUMMARY (R401). -/
def execWeeklySummary (s : State) : Host.Outcome State Fault Refusal :=
  .next (if s.boot.powered then s.appendSummary.appendScan else s)

/-- ALLOWANCE_PERIOD (R400): a period of 24 hours of powered time begins. -/
def execAllowancePeriod (s : State) : Host.Outcome State Fault Refusal :=
  .next (if s.boot.powered then { s with hlt := { s.hlt with allow := [] } } else s)

/-- A snapshot is asked for: ignored while one is being copied. -/
def State.hltSnap (s : State) : State :=
  if s.hlt.snapBusy then s else { s with hlt := { s.hlt with snapBusy := true } }

/-- HLT_SNAP (R403). -/
def execHltSnap (s : State) : Host.Outcome State Fault Refusal := .next (s.onLodge State.hltSnap)

/-- HLT_SNAP_DONE (R403): the copy is ready. -/
def execHltSnapDone (s : State) : Host.Outcome State Fault Refusal :=
  .next (if s.hlt.snapBusy then
    ({ s with hlt := { s.hlt with snapBusy := false, snap := storeSetMany 0 [] 0 s.snapshotBytes } } : State).event
      Reg.HLT_EVENT 3
  else s)

end Sys2Proof.Machine
end

