-- ==== Sys2Proof/Machine/Pyurn.lean ====
section
/-! DEFINITION. Pyurn commands: training and hello, frames with their retry and credits, failures, wake, beacons, and the
expert exchange (R274 to R298). -/

namespace Sys2Proof.Machine

/-! ## Training and hello (R275, R276, R285) -/

/-- A hello frame carries the sender's module identity and its port number (R276; their places are a DESIGN CHOICE, log 82). -/
def helloFrame (p : Nat) : Frame :=
  { idleFrame with kind := 2, flits := 1, payload := leBytes 8 Config.moduleId.toNat ++ leBytes 1 p }

/-- PORT_TRAINING_DONE (R276): every lane of the port's width is trained and aligned; a hello frame goes out. -/
def execPortTrainingDone (port : Fin 16) (lanes : BitVec 8) (s : State) : Host.Outcome State Fault Refusal :=
  let x := s.port port
  .next (if x.st = portTraining ∧ x.width ≠ 0 ∧ (physLanes x.map x.width).all (fun l => lanes.getLsbD l) then
    (s.setPort port { x with locked := lanes, aligned := true }).pushFrame port (helloFrame port)
  else s)

/-- A partner's identity and port number are recorded; its hello frame was the next one of the link. -/
def State.meetPeer (s : State) (p : Nat) (peer : DWord) (peerPort : Nat) : State :=
  s.setPort p { s.port p with peerId := peer, peerPort := peerPort, known := true, rxSeq := nextSeq (s.port p).rxSeq }

/-- HELLO_FRAME (R276, R285): the port becomes UP; a changed identity while an image is ARMED or RUNNING is a failure. -/
def execHelloFrame (port : Fin 16) (peer : DWord) (peerPort : Fin 16) (s : State) : Host.Outcome State Fault Refusal :=
  let x := s.port port
  .next (if (x.st = portTraining ∧ x.aligned) ∨ x.st = portUp then
    let s1 := s.meetPeer port peer peerPort
    if x.known && decide (x.peerId ≠ peer) && s.jobLive then (s1.event Reg.PYU_EVENT 7).portFail port
    else (s1.setPort port { s1.port port with st := portUp }).progressStart
  else s)

/-- A retrain of the selected port, ignored while an image is RUNNING or ARMED (R282). -/
def State.retrain (s : State) : State :=
  let p := s.fld Reg.PYU_SEL 3 0
  let st := (s.port p).st
  if !s.jobLive && decide (st = portFailed ∨ st = portUp ∨ st = portTraining) then s.trainPort p else s

/-- RETRAIN (R282). -/
def execRetrain (s : State) : Host.Outcome State Fault Refusal := .next (s.onHost State.retrain)

/-- The wake pattern on the selected port (R291). -/
def State.wakeSend (s : State) : State := s.send (.wakePattern (s.fld Reg.PYU_SEL 3 0))

/-- WAKE_SEND (R291). -/
def execWakeSend (s : State) : Host.Outcome State Fault Refusal := .next (s.onHost State.wakeSend)

/-- LANE_LOCK_LOSS (R282, R290): `lane` is a physical lane; one in use fails a port that is UP. -/
def execLaneLockLoss (port : Fin 16) (lane : Fin 8) (s : State) : Host.Outcome State Fault Refusal :=
  let x := s.port port
  let s1 := s.setPort port { x with locked := x.locked &&& ~~~(BitVec.ofNat 8 (2 ^ lane.val)) }
  .next (if x.st = portUp ∧ (physLanes x.map x.width).contains lane.val then s1.portFail port else s1)

/-! ## What a port may send (R131, R279, R281, R295, R296) -/

/-- The experts of a stream that a rank holds, in expert order. -/
def expertsOf (e : ExchangeStream) (rank : Nat) : List Nat :=
  (List.range e.experts.length).filter fun x => (e.experts[x]?.map Prod.fst) = some rank

/-- Exchange state of a plot. -/
def State.xch (s : State) (plot : Nat) : XchIn := storeGet {} s.pyu.xch plot

/-- Replace it. -/
def State.setXch (s : State) (plot : Nat) (x : XchIn) : State :=
  { s with pyu := { s.pyu with xch := storeSet {} s.pyu.xch plot x } }

/-- A count of filled slots. -/
def State.filledAt (s : State) (counts x : Nat) : Nat := s.opNat (counts + 2 * x) 2

/-- The rows that an exchange sends, in expert order and then in slot order (R296). -/
def State.exchangeRows (s : State) (e : ExchangeStream) (dest : Nat) : ExchangeRows → List Nat
  | .tokens routes table counts tokens =>
    (expertsOf e dest).flatMap fun x => (List.range (s.filledAt counts x)).map fun n =>
      (s.tokenAt routes table tokens e.choices x n).getD 0
  | .results plot firstRow =>
    ((s.xch plot).counts.zip firstRow).flatMap fun c => (List.range c.1).map fun n => c.2 + n

/-- The counts that the occupancy frames of an exchange carry; results have none (R296). -/
def State.occupancyOf (s : State) (e : ExchangeStream) (dest : Nat) : ExchangeRows → List Nat
  | .tokens _ _ counts _ => (expertsOf e dest).map fun x => s.filledAt counts x
  | .results _ _ => []

/-- The segment of a row of an exchange's tensor, at the rung at which it was released (R131). -/
def State.exchangeRef (s : State) (x : ExchangeSend) (te : TensorEntry) (row : Nat) : SegRef :=
  let seg := rowSegment te row
  let rung := s.rungOf x.tensor seg
  let ps := x.places.getD seg []
  s.segRef x.tensor seg rung false ((ps[rung]?).getD (ps.getLast?.getD (.near ⟨0, 0, 0⟩)))

/-- The saturated counters, in the survey area, of the blocks whose outliers a record leaves out (R295). -/
def State.cutCounters (s : State) (x : ExchangeSend) (te : TensorEntry) (r : SegRef) (row limit : Nat) : List Nat :=
  ((splitEyelets limit (s.rowEyelets te r row)).2.filter fun e => !e.special).map fun e =>
    x.surveys.getD (rowSegment te row) 0 + 24 * blockOf te.axisRows te.block (rowIndex te row e.col) + 17

/-- What a port can send for an offer: the frame, the records that begin in it, the counters of the outliers that they leave out, and
whether they leave out any eyelet. -/
structure Ready where
  offer : Offer
  frame : Frame
  records : Nat := 0
  cut : List Nat := []
  left : Bool := false
deriving DecidableEq, Repr

/-- A frame of a plot: flits of 256 bytes, as many as the payload fills. -/
def plotFrame (kind plot branch pos : Nat) (bs : List Byte) : Frame :=
  { idleFrame with kind := kind, flits := (bs.length + 255) / 256, branch := branch % 16, plot := plot, pos := pos % 65536,
                   payload := bs }

/-- The records of an exchange that bytes `off` to `off` + 5,119 of its stream touch. -/
def State.recordFrame (s : State) (o : Offer) (x : ExchangeSend) (e : ExchangeStream) (te : TensorEntry) (frames : Nat) : Option Ready :=
  let rows := s.exchangeRows e x.dest x.rows
  let first := s.exchangeRef x te (rows.headD 0)
  let rb := recordBytes first.fmt te.block te.cols e.eyeletLimit
  let off := 5120 * (frames - x.start)
  if frames < x.start ∨ rb = 0 ∨ rows.length * rb ≤ off then none
  else
    let lo := off / rb
    let some' := (rows.drop lo).take ((off % rb + 5120 + rb - 1) / rb)
    let bytes := some'.flatMap fun row => s.tokenRecord te (s.exchangeRef x te row) row e.eyeletLimit
    let begun := if off % rb = 0 then some' else some'.drop 1
    let cut := begun.flatMap fun row => s.cutCounters x te (s.exchangeRef x te row) row e.eyeletLimit
    let left := scaledFmt first.fmt && begun.any fun row => decide (e.eyeletLimit < (s.rowEyelets te (s.exchangeRef x te row) row).length)
    some { offer := o, records := begun.length, cut := if scaledFmt first.fmt then cut else [], left := left,
           frame := plotFrame 1 o.plot (s.rungOf x.tensor (rowSegment te (rows.headD 0))) frames ((bytes.drop (off % rb)).take 5120) }

/-- The next frame of an exchange: its occupancy frames first (R296). -/
def State.exchangeFrame (s : State) (o : Offer) (x : ExchangeSend) (frames : Nat) : Option Ready :=
  match s.exchangeStream x.stream, s.tensor? x.tensor with
  | some e, some te =>
    let counts := s.occupancyOf e x.dest x.rows
    let st := storeGet 0 s.pyu.occ o.plot
    let n := if st / 4 = x.start + 1 then st % 4 else 0
    if n * 2560 < counts.length then
      some { offer := o, frame := plotFrame 4 o.plot (s.rungOf x.tensor 0) 0 (((counts.drop (n * 2560)).take 2560).flatMap (leBytes 2)) }
    else s.recordFrame o x e te frames
  | _, _ => none

/-- The next frame of what the Cloister has queued for a port: a vector in a frame of its own, or the next bytes of the blocks, full
frames until the stream ends (R279). -/
def State.queuedFrame (s : State) (o : Offer) (p frames : Nat) : Option Ready :=
  let t := s.tx o.plot p
  let b := (s.plot o.plot).branch
  match t.vecs with
  | v :: _ => some { offer := o, frame := plotFrame 1 o.plot b frames v }
  | [] =>
    let bs := (t.bytes.drop (5120 * frames)).take 5120
    if bs.length = 5120 ∨ (t.ended ∧ bs ≠ []) then some { offer := o, frame := plotFrame 1 o.plot b frames bs } else none

/-- What an offer can send now: the classes that feed ports are held in the maintenance slot (R205, R268, R289), and a data frame needs
a credit (R281). -/
def State.ready1 (s : State) (p : Nat) (o : Offer) : Option Ready :=
  let frames := (s.linkEnd o.plot p false).frames
  let r := match o.source with
    | .queued => s.queuedFrame o p frames
    | .memory a len start =>
      let off := 5120 * (frames - start)
      if frames < start ∨ len ≤ off then none
      else some { offer := o, frame := plotFrame 1 o.plot (s.plot o.plot).branch frames (s.opBytes (a + off) (min 5120 (len - off))) }
    | .exchange x => s.exchangeFrame o x frames
  if s.tick.inMaint || !s.crosses o.plot p false then none
  else r.bind fun r => if r.frame.kind = 4 ∨ 0 < s.creditsAt o.plot p then some r else none

/-! ## Sending (R277 to R281, R295) -/

/-- Advance the saturated counter at each address, within its 6 bits' range of 0 to 32 (R125, R295). -/
def State.bumpBytes (s : State) : List Nat → State
  | [] => s
  | a :: rest => State.bumpBytes (s.devWrite .scheduled a (leBytes 1 (min 32 (s.devNat a 1 + 1)))) rest

/-- A vector that has been sent leaves the queue. -/
def State.sentVec (s : State) (p : Nat) (o : Offer) : State :=
  let t := s.tx o.plot p
  if o.source = .queued then s.setTx o.plot p { t with vecs := t.vecs.drop 1 } else s

/-- One more occupancy frame of an exchange has been sent. -/
def State.sentOccupancy (s : State) (o : Offer) : State :=
  match o.source with
  | .exchange x =>
    let st := storeGet 0 s.pyu.occ o.plot
    let n := if st / 4 = x.start + 1 then st % 4 else 0
    { s with pyu := { s.pyu with occ := storeSet 0 s.pyu.occ o.plot (4 * (x.start + 1) + n + 1) } }
  | _ => s

/-- What sending an offer does besides: the credit spent, the position, the counts, eyelets left out of its records
(R281, R295, R303). -/
def State.spend (s : State) (p : Nat) (r : Ready) : State :=
  let s1 := if r.frame.kind = 4 then s.sentOccupancy r.offer
    else (((s.sentVec p r.offer).frameSent r.offer.plot p).count (bankKey Reg.PYU_FRAMES_TX p) 64 1).bel64 (portCnt p 0) 1
  let s2 := s1.bel64 (portCnt p 21) r.records
  let s3 := if r.left then s2.event Reg.PYU_EVENT 4 else s2
  if r.cut.isEmpty then s3 else (s3.count Reg.PYU_XCH_CUT 32 r.cut.length).bumpBytes r.cut

/-- A new frame: the first offer in compiled order that may go, or an idle frame (R281). -/
def State.sendNew (s : State) (p : Nat) (offers : List Offer) : State :=
  match offers.findSome? (s.ready1 p) with
  | some r => (s.spend p r).pushFrame p r.frame
  | none => (s.bel64 (portCnt p 2) 1).pushFrame p idleFrame

/-- One frame period of the sender. -/
def State.sendFrame (s : State) (p : Nat) (offers : List Offer) : State := s.framePeriod p fun s => s.sendNew p offers

/-- REPLAY_TIMEOUT (R280): 64 frames stay unacknowledged. -/
def execReplayTimeout (port : Fin 16) (s : State) : Host.Outcome State Fault Refusal :=
  let x := s.port port
  .next (if x.st = portUp ∧ 64 ≤ x.sent.length ∧ x.cursor = none then s.sendFrame port [] else s)

/-! ## Receiving (R278 to R283, R296) -/

/-- Corrected symbols of each physical lane from lane `l` on (R283). -/
def State.fecLanes (s : State) (p : Nat) : Nat → List Nat → State
  | _, [] => s
  | l, n :: ns =>
    State.fecLanes (((s.count (bankKey Reg.PYU_FEC_CORR (8 * p + l)) 64 n).live (0x560 + 4 * (8 * p + l)) n).bel64
      (portCnt p (6 + l)) n) p (l + 1) ns

/-- What the FEC reports for one frame (R283). -/
def State.fec (s : State) (p : Nat) (a : FrameIn) : State :=
  let s1 := s.fecLanes p 0 (a.corr.take 8)
  if a.uncorr = 0 then s1
  else (((s1.count (bankKey Reg.PYU_FEC_UNCORR p) 32 a.uncorr).live (0x760 + 4 * p) a.uncorr).bel64 (portCnt p 14)
    a.uncorr).event Reg.PYU_EVENT 2

/-- Drop the acknowledged frames from the replay buffer: every frame up to ACK. -/
def State.acked (s : State) (p ack : Nat) : State :=
  let x := s.port p
  match x.sent with
  | [] => s
  | (f, _) :: _ =>
    let k := (ack + 4096 - f.seq + 1) % 4096
    if k ≤ x.sent.length then s.setPort p { x with sent := x.sent.drop k, cursor := x.cursor.map fun i => i - k } else s

/-- NAK asks for a replay; a replay in progress answers it already (R280). -/
def State.naked (s : State) (p : Nat) (nak : Bool) : State :=
  if nak && (s.port p).cursor.isNone then s.startReplay p else s

/-- A consumer has finished with frames of a plot: their space is free and their credits go back (R281). -/
def State.consumed (s : State) (p : Nat) : List (Nat × Nat) → State
  | [] => s
  | (q, n) :: rest =>
    let k := min n (s.occupied q p)
    let s1 := s.freeFrames q p k
    let s2 := if k = 0 then s1 else s1.setPort p { s1.port p with returns := addReturn (s1.port p).returns q k }
    State.consumed s2 p rest

/-- The flits in use of a frame. -/
def usedBytes (f : Frame) : List Byte := f.payload.take (256 * min f.flits 20)

/-- Expert and slot of the n-th record of a stream, from the counts of filled slots (R296). -/
def recordPlace : List Nat → Nat → Nat → Option (Nat × Nat)
  | [], _, _ => none
  | c :: cs, e, n => if n < c then some (e, n) else recordPlace cs (e + 1) (n - c)

/-- Place a piece of the record stream that starts at byte `off`: record s of expert x goes to slot s of its input buffer. -/
def State.placeRecords (s : State) (d : ExchangeDest) (counts : List Nat) : Nat → Nat → List Byte → State
  | 0, _, _ => s
  | fuel + 1, off, bs =>
    match bs with
    | [] => s
    | _ :: _ =>
      let k := d.record - off % d.record
      let s1 := match recordPlace counts 0 (off / d.record) with
        | some (e, sl) => s.devWrite .scheduled ((d.inputs.getD e (0, 0)).1 + sl * d.record + off % d.record) (bs.take k)
        | none => s
      State.placeRecords s1 d counts fuel (off + k) (bs.drop k)

/-- The counts by which an exchange plot's records are placed: those of its occupancy frames, or for results the slots that this
module filled (R296). -/
def State.placedCounts (s : State) (plot : Nat) (d : ExchangeDest) : List Nat :=
  match d.filled with
  | some (counts, xs) => xs.map fun x => s.filledAt counts x
  | none => (s.xch plot).counts

/-- The records of an exchange plot's data frame; after the last record of an exchange the next one begins. -/
def State.exchangeData (s : State) (p plot : Nat) (bs : List Byte) : Option ExchangeDest → State
  | none => s
  | some d =>
    if d.record = 0 then s
    else
      let x := s.xch plot
      let counts := s.placedCounts plot d
      let at_ := if counts.sum * d.record ≤ x.bytes then 0 else x.bytes
      let n := min bs.length (counts.sum * d.record - at_)
      let s1 := s.placeRecords d counts bs.length at_ (bs.take n)
      (s1.setXch plot { x with bytes := at_ + n }).bel64 (portCnt p 22) ((at_ + n) / d.record - at_ / d.record)

/-- A good data frame: in its place it is stored and goes to its consumer, of this step or of the next; out of its place it is fatal
(R265, R279, R281, R303). -/
def State.dataFrame (s : State) (p : Nat) (a : FrameIn) : State :=
  let f := a.frame
  let e := s.linkEnd f.plot p true
  let early := s.earlyFrame e f.pos
  if s.crosses f.plot p true && (early || decide (f.pos = e.frames % 65536)) then
    let x := s.plot f.plot
    let s1 := (s.devWrite .scheduled (frameAt x (x.arrived % max x.credits 1)) (usedBytes f)).frameTaken f.plot p f.branch early
    let s2 := (s1.count (bankKey Reg.PYU_FRAMES_RX p) 64 1).bel64 (portCnt p 1) 1
    if x.kind = 3 then s2.exchangeData p f.plot (usedBytes f) a.dest
    else if x.kind = 2 then s2.takeVec f.plot p (usedBytes f) early
    else s2
  else s.cloFatal 6 p f.plot

/-- 16-bit counts of a byte list. -/
def counts16 : Nat → List Byte → List Nat
  | 0, _ => []
  | n + 1, bs => ofLe (bs.take 2) :: counts16 n (bs.drop 2)

/-- Fill the slots at and above the count with +0, expert by expert (R296). -/
def State.padInputs (s : State) (record : Nat) : List (Nat × Nat) → List Nat → State
  | (a, slots) :: ins, c :: cs =>
    State.padInputs (s.devWrite .scheduled (a + c * record) (List.replicate ((slots - c) * record) 0)) record ins cs
  | _, _ => s

/-- An occupancy frame (R296): counts in expert order, the second frame going on where the first ended; once every count
is there, the next one opens a new exchange. -/
def State.occupancy (s : State) (a : FrameIn) : State :=
  match a.dest with
  | none => s
  | some d =>
    let old := s.xch a.frame.plot
    let x : XchIn := if old.counts.length < d.inputs.length then old else {}
    let ins := d.inputs.drop x.counts.length
    let cs := counts16 (min 2560 ins.length) a.frame.payload
    (s.padInputs d.record ins cs).setXch a.frame.plot { x with counts := x.counts ++ cs }

/-- What a good frame delivers, by its KIND (R278). -/
def State.deliverFrame (s : State) (p : Nat) (a : FrameIn) : State :=
  if a.frame.kind = 1 then s.dataFrame p a else if a.frame.kind = 4 then s.occupancy a else s

/-- A frame that is good and in order: its ACK, NAK and credits are acted on, and it is delivered (R280, R281). -/
def State.goodFrame (s : State) (p : Nat) (a : FrameIn) : State :=
  let f := a.frame
  let s1 := s.setPort p { s.port p with rxSeq := f.seq, asking := false }
  (((s1.acked p f.ack).naked p f.nak).creditsBack f.creditPlot p f.creditCount).deliverFrame p a

/-- The receiver's part of a frame period (R280): a bad frame, and every frame after it until the next SEQ arrives good,
is discarded. -/
def State.receive (s : State) (p : Nat) (a : FrameIn) : State :=
  let s1 := s.fec p a
  let x := s1.port p
  if a.uncorr ≠ 0 ∨ a.crcBad then (s1.setPort p { x with asking := true }).bel64 (portCnt p 5) 1
  else if a.frame.seq = nextSeq x.rxSeq then s1.goodFrame p a else s1

/-- FRAME_RECEIVE (R277 to R283, R296): one frame arrives and, in the same period, one is sent. -/
def execFrameReceive (port : Fin 16) (arrival : FrameIn) (s : State) : Host.Outcome State Fault Refusal :=
  .next (if s.isUp port then ((s.receive port arrival).consumed port arrival.done).sendFrame port arrival.offers else s)

/-! ## Beacons (R286, R287) -/

/-- BEACON_UP (R287): a child's message joins the report of its tick; `delay` is the time since this module's own report. -/
def execBeaconUp (child : Nat) (msg : Beacon) (delay : Nat) (s : State) : Host.Outcome State Fault Refusal :=
  .next (if s.tick.ticking then
    ({ s with tick := { s.tick with
      kids := s.tick.kids.filter (fun k => k.1 ≠ child ∨ k.2.tick ≠ msg.tick) ++ [(child, msg)] } } : State).tryReport delay
  else s)

/-- BEACON_DOWN (R287): the combined report for this tick is held and forwarded unchanged. -/
def execBeaconDown (msg : Beacon) (delay : Nat) (s : State) : Host.Outcome State Fault Refusal :=
  .next (match s.topo? with
    | none => s
    | some t =>
      if s.tick.ticking && t.beaconParent.isSome && s.tick.held.isNone && decide (msg.tick = s.tick.now % 2 ^ 48) then
        s.holdReport msg delay
      else s)

/-! ## The slot assigner (R293, R294) -/

/-- The (token, choice) pairs in the order of a capacity rule. -/
def pairOrder (rule tokens choices : Nat) : List (Nat × Nat) :=
  if rule = 0 then (List.range tokens).flatMap fun i => (List.range choices).map fun j => (i, j)
  else (List.range choices).flatMap fun j => (List.range tokens).map fun i => (i, j)

/-- The assigner's running state: filled slots by expert, drops by expert, slots by pair, pairs assigned, dropped, and
invalid. -/
structure Assign where
  filled : Counts := []
  drops : Counts := []
  slots : Counts := []
  routed : Nat := 0
  dropped : Nat := 0
  bad : Nat := 0
deriving DecidableEq, Repr

/-- One pair: `key` numbers it in token order. -/
def assignPair (e : ExchangeStream) (rank : Nat) (a : Assign) (key : Nat) (x : Word) : Assign :=
  if x = BitVec.allOnes 32 then a
  else
    let i := x.toNat
    if e.experts.length ≤ i then { a with bad := a.bad + 1, dropped := a.dropped + 1 }
    else
      let n := storeGet 0 a.filled i
      if n < (e.capacity.getD rank []).getD i 0 then
        { a with filled := storeSet 0 a.filled i (n + 1), slots := storeSet noSlot a.slots key n, routed := a.routed + 1 }
      else { a with drops := storeSet 0 a.drops i (storeGet 0 a.drops i + 1), dropped := a.dropped + 1 }

/-- Every pair of a route list, in the rule's order; this rank's capacities hold (R293). -/
def State.assignAll (s : State) (e : ExchangeStream) (r : RouteList) : Assign :=
  (pairOrder e.rule r.tokens e.choices).foldl (fun a (i, j) =>
    assignPair e s.rank a (i * e.choices + j) (s.routeExpert r.routes e.choices i j)) {}

/-- The slot table in token order, 4 bytes a pair. -/
def slotBytes (a : Assign) (n : Nat) : List Byte := (List.range n).flatMap fun k => leBytes 4 (storeGet noSlot a.slots k)

/-- The counts of filled slots, 2 bytes an expert. -/
def filledBytes (a : Assign) (n : Nat) : List Byte := (List.range n).flatMap fun x => leBytes 2 (storeGet 0 a.filled x)

/-- One XCH_DROP record for each expert with drops (R411). -/
def State.traceDrops (s : State) (cl stream : Nat) : Counts → State
  | [] => s
  | (x, n) :: rest => State.traceDrops (s.trace (dieOf cl 8) 0x12 cl (stream + 2 ^ 8 * x + 2 ^ 24 * n)) cl stream rest

/-- The counts and flags of one stream instance. -/
def State.countAssign (s : State) (a : Assign) : State :=
  let s1 := ((s.count Reg.PYU_XCH_ROUTED 64 a.routed).count Reg.PYU_XCH_DROPS 64 a.dropped).maxReg Reg.PYU_XCH_DROP_MAX
    (min a.dropped (2 ^ 32 - 1))
  let s2 := if a.bad = 0 then s1 else (s1.count Reg.PYU_XCH_BAD 32 a.bad).event Reg.PYU_EVENT 3
  if a.dropped = 0 then s2 else s2.event Reg.PYU_EVENT 5

/-- SLOT_ASSIGN (R293, R294). -/
def execSlotAssign (list : RouteList) (s : State) : Host.Outcome State Fault Refusal :=
  .next (match s.exchangeStream list.stream with
    | none => s
    | some e =>
      let a := s.assignAll e list
      let s1 := (s.devWrite .scheduled list.table (slotBytes a (list.tokens * e.choices))).devWrite .scheduled list.counts
        (filledBytes a e.experts.length)
      (s1.countAssign a).traceDrops e.cluster list.stream a.drops)

/-! ## Clear (R298) -/

/-- Counts of the block that are banked by port or lane. -/
def pyuBanked : List Nat :=
  [Reg.PYU_FRAMES_TX, Reg.PYU_FRAMES_RX, Reg.PYU_FEC_CORR, Reg.PYU_FEC_UNCORR, Reg.PYU_REPLAYS]

/-- The others. -/
def pyuPlain : List Nat :=
  [Reg.PYU_BEACON_MAX, Reg.PYU_XCH_ROUTED, Reg.PYU_XCH_DROPS, Reg.PYU_XCH_BAD, Reg.PYU_XCH_CUT, Reg.PYU_XCH_DROP_MAX]

/-- What PYU_STAT_CLR resets, with the events of its cycle (R439). -/
def State.pyuClr (s : State) (same : List (Nat × Nat)) : State :=
  ((s.zeroBanks pyuBanked).zeroRegs pyuPlain).sameCycle (sameIn (pyuBanked ++ pyuPlain) same)

/-- PYU_STAT_CLR (R298, R439). -/
def execPyuStatClr (same : List (Nat × Nat)) (s : State) : Host.Outcome State Fault Refusal :=
  .next (s.onHost fun s => s.pyuClr same)

end Sys2Proof.Machine
end

