-- ==== Sys2Proof/Machine/Observe.lean ====
section
/-! DEFINITION. The Belvedere's commands: counter snapshots, marks, and the trace rings (R409 to R417). -/

namespace Sys2Proof.Machine

/-! ## Snapshots (R409) -/

/-- A snapshot of all counters is taken now and becomes readable with BEL_SNAP_DONE. -/
def State.belSnapNow (s : State) : State := { s.belCopy with bel := { s.belCopy.bel with snapBusy := true } }

/-- SNAP without AT_EDGE: ignored while SNAP_BUSY is 1. -/
def State.belSnap (s : State) : State := if s.bel.snapBusy then s else s.belSnapNow

/-- SNAP with AT_EDGE: without a running image it behaves as without. -/
def State.belSnapEdge (s : State) : State :=
  if s.bel.snapBusy then s
  else if s.image.st = .running then { s with bel := { s.bel with snapBusy := true, snapAtEdge := true } }
  else s.belSnapNow

/-- BEL_SNAP (R409). -/
def execBelSnap (s : State) : Host.Outcome State Fault Refusal := .next (s.onHost State.belSnap)

/-- BEL_SNAP_AT_EDGE (R409). -/
def execBelSnapAtEdge (s : State) : Host.Outcome State Fault Refusal := .next (s.onHost State.belSnapEdge)

/-- BEL_SNAP_DONE (R409): `cycle` is CYCLE of the snapshot cycle. -/
def execBelSnapDone (cycle : Nat) (s : State) : Host.Outcome State Fault Refusal :=
  .next (if s.bel.snapBusy && !s.bel.snapAtEdge then
    (({ s with bel := { s.bel with snapBusy := false } } : State).setRegN Reg.BEL_SNAP_CYCLE (cycle % 2 ^ 25)).event
      Reg.BEL_EVENT 0
  else s)

/-- BEL_MARK (R411): one MARK record in the ring of die 0. -/
def execBelMark (value : DWord) (s : State) : Host.Outcome State Fault Refusal :=
  .next (s.onHost fun s => s.trace 0 0x14 0 value.toNat)

/-! ## The rings (R412 to R416) -/

/-- The ring of a die is enabled. -/
def State.ringOn (s : State) (d : Nat) : Bool := s.bit (Reg.BEL_RING_CTRL + ringOff d) 0

/-- A ring's size in bytes. -/
def State.ringSize (s : State) (d : Nat) : Nat := 2 ^ s.fld (Reg.BEL_RING_CTRL + ringOff d) 13 8

/-- Bytes written, and bytes consumed by the host. -/
def State.ringTail (s : State) (d : Nat) : Nat := s.regN (Reg.BEL_RING_TAIL + ringOff d)

/-- Bytes consumed by the host. -/
def State.ringHead (s : State) (d : Nat) : Nat := s.regN (Reg.BEL_RING_HEAD + ringOff d)

/-- A record as it lies in the ring at free-running count `n` (R410, R414). -/
def traceBytes (size n : Nat) (r : TraceRec) : List Byte :=
  leBytes 8 r.tick ++ leBytes 4 (r.cycle % 2 ^ 25 + 2 ^ 31 * (1 - n / size % 2)) ++ leBytes 2 r.code ++
    leBytes 2 (2 ^ 15 * r.die.val + r.source % 2 ^ 15) ++ leBytes 16 r.payload

/-- The bytes of a list of records from count `n`. -/
def groupBytes (size n : Nat) : List TraceRec → List Byte
  | [] => []
  | r :: rs => traceBytes size n r ++ groupBytes size (n + 32) rs

/-- A group is lost at the sink: counted in records (R415). -/
def State.loseSink (s : State) (d n : Nat) : State :=
  (s.count (Reg.BEL_RING_LOST_SINK + ringOff d) 64 n).event Reg.BEL_EVENT 1

/-- Write the records gathered: to the host or to HBM; `full` says that the sink had no room. A host link that is down, and
A2, lose the write as well (R415, R417). -/
def State.writeGroup (s : State) (d : Nat) (full : Bool) : State :=
  let g := (s.ring d).group
  let start := s.ringTail d - 32 * g.length
  let host := s.bit (Reg.BEL_RING_CTRL + ringOff d) 1
  let a := s.regN (Reg.BEL_RING_BASE + ringOff d) + start % s.ringSize d
  let bs := groupBytes (s.ringSize d) start g
  let s1 := s.setRing d { s.ring d with group := [] }
  if g.isEmpty then s
  else if full || s.asleep || (host && !s.linkUp) then s1.loseSink d g.length
  else if host then s1.send (.hostWrite a bs) else s1.devWrite .window a bs

/-- The ring has room for a record (R413). -/
def State.ringRoom (s : State) (d : Nat) : Bool := decide (s.ringTail d + 32 ≤ s.ringHead d + s.ringSize d)

/-- A record is placed at TAIL; a group of 256 B is written; reaching half the size is an event. -/
def State.place (s : State) (d : Nat) (r : TraceRec) (full : Bool) : State :=
  let used := s.ringTail d - s.ringHead d
  let s1 := ((s.setRing d { s.ring d with group := (s.ring d).group ++ [r] }).setRegN (Reg.BEL_RING_TAIL + ringOff d)
    (s.ringTail d + 32)).count (Reg.BEL_RING_RECORDS + ringOff d) 64 1
  let s2 := if s1.ringTail d % 256 = 0 then s1.writeGroup d full else s1
  if used < s.ringSize d / 2 ∧ s.ringSize d / 2 ≤ used + 32 then s2.event Reg.BEL_EVENT (3 + d) else s2

/-- A record is lost to a full ring. -/
def State.loseRing (s : State) (d tick : Nat) : State :=
  let r := s.ring d
  let first := if r.lostRing = 0 ∧ r.lostSrc = 0 then tick else r.firstLost
  ((s.setRing d { r with lostRing := r.lostRing + 1, firstLost := first }).count (Reg.BEL_RING_LOST_RING + ringOff d) 64
    1).event Reg.BEL_EVENT 1

/-- A LOSS record: the counts since the last one and the tick of the first loss (R411, R416); its stamps are those of the
record it goes before. -/
def State.lossRecord (s : State) (d : Fin 2) (r : TraceRec) : TraceRec :=
  let x := s.ring d
  { die := d, tick := r.tick, cycle := r.cycle, code := 0x15, source := 0,
    payload := min x.lostRing (2 ^ 32 - 1) + 2 ^ 32 * min x.lostSrc (2 ^ 32 - 1) + 2 ^ 64 * (x.firstLost % 2 ^ 64) }

/-- After a loss, a LOSS record goes before the next record that fits. -/
def State.placeLoss (s : State) (d : Fin 2) (r : TraceRec) (full : Bool) : State :=
  let x := s.ring d
  if x.lostRing = 0 ∧ x.lostSrc = 0 then s
  else
    let s1 := s.place d (s.lossRecord d r) full
    s1.setRing d { s1.ring d with lostRing := 0, lostSrc := 0, firstLost := 0 }

/-- A record reaches the Belvedere: placed if the ring has room, lost otherwise. -/
def State.arriveRec (s : State) (d : Fin 2) (r : TraceRec) (full : Bool) : State :=
  if !s.ringRoom d then s.loseRing d r.tick
  else
    let s1 := s.placeLoss d r full
    if s1.ringRoom d then (s1.place d r full).bel64 (dieCnt d 16) 1 else s1.loseRing d r.tick

/-- TRACE_RECORD_ARRIVAL (R413): the oldest record on its way; with the ring off nothing is written. -/
def execTraceRecordArrival (die : Fin 2) (failed : Bool) (s : State) : Host.Outcome State Fault Refusal :=
  .next (match (s.ring die).inflight with
    | [] => s
    | r :: rs =>
      let s1 := s.setRing die { s.ring die with inflight := rs }
      if s.ringOn die then s1.arriveRec die r failed else s1)

/-- TRACE_GROUP_FLUSH (R413): 1,024 cycles after a group's first record. -/
def execTraceGroupFlush (die : Fin 2) (failed : Bool) (s : State) : Host.Outcome State Fault Refusal :=
  .next (s.writeGroup die failed)

/-- BASE is valid for HOST and SIZE (R412). -/
def State.ringValid (s : State) (d : Nat) : Bool :=
  let base := s.regN (Reg.BEL_RING_BASE + ringOff d)
  let size := s.fld (Reg.BEL_RING_CTRL + ringOff d) 13 8
  decide (16 ≤ size ∧ size ≤ 32) && decide (base % 2 ^ size = 0) &&
    (s.bit (Reg.BEL_RING_CTRL + ringOff d) 1 ||
      (decide (base < 2 ^ 40) && s.spanOk base (2 ^ size) && !s.touchesImage base (2 ^ size)))

/-- BEL_RINGd_CTRL is written: HOST and SIZE only while ENABLE is 0; ENABLE 1 checks BASE and starts the counts at 0;
ENABLE 0 writes what was gathered. -/
def State.ringCtrl (s : State) (d v : Nat) : State :=
  let o := Reg.BEL_RING_CTRL + ringOff d
  if s.bit o 0 then (if v % 2 = 1 then s else (s.writeGroup d false).setBit o 0 false)
  else
    let s1 := s.setRegN o (2 * bits v 1 1 + 256 * bits v 13 8)
    if v % 2 = 0 then s1
    else if s1.ringValid d then
      ((s1.setBit o 0 true).setReg (Reg.BEL_RING_HEAD + ringOff d) 0).setReg (Reg.BEL_RING_TAIL + ringOff d) 0
    else s1.event Reg.BEL_EVENT 2

/-- RING_ENABLE (R412). -/
def execRingEnable (die : Fin 2) (ctrl : Word) (s : State) : Host.Outcome State Fault Refusal :=
  .next (s.onHost fun s => s.ringCtrl die ctrl.toNat)

/-- The host frees space: a head beyond TAIL or behind the present one is ignored (R414). -/
def State.ringHeadWrite (s : State) (d : Nat) (v : DWord) : State :=
  if v.toNat < s.ringHead d ∨ s.ringTail d < v.toNat then s.event Reg.BEL_EVENT 2
  else s.setReg (Reg.BEL_RING_HEAD + ringOff d) v

/-- RING_HEAD_WRITE (R414). -/
def execRingHeadWrite (die : Fin 2) (value : DWord) (s : State) : Host.Outcome State Fault Refusal :=
  .next (s.onHost fun s => s.ringHeadWrite die value)

end Sys2Proof.Machine
end

