-- ==== Sys2Proof/Machine/Regs.lean ====
section
/-! DEFINITION. What the host reads in each register: values held, values banked by a selector, and values mirrored from the
state that a block's own chapter defines (the block tables, R423 to R425). -/

namespace Sys2Proof.Machine

/-- `n` flags as a number, flag 0 in bit 0. -/
def flagBits (n : Nat) (f : Nat → Bool) : Nat := (List.range n).foldl (fun a i => a + (f i).toNat * 2 ^ i) 0

/-! ## The image, the ticks and admission (R54, R55, R77, R78) -/

/-- A figure of the held image, 0 when none is held. -/
def State.ofImage (s : State) (f : ImageFile → Nat) : Nat := (s.img.map f).getD 0

/-- The LAST block. -/
def State.readLast (s : State) (off i : Nat) : Nat :=
  if off = Reg.LAST_STATE then putBits (s.regN off) 0 4 s.image.st.code
  else if off = Reg.LAST_PROGRESS then (if s.image.st = .loading then s.fetched else s.regN off)
  else if off = Reg.LAST_SRC then s.regN off / 4096 * 4096
  else if off = Reg.LAST_IMAGE_ID then s.ofImage fun f => f.header.imageId
  else if off = Reg.LAST_JOB_ID then s.ofImage fun f => f.header.jobId
  else if off = Reg.LAST_RANK then s.ofImage fun f => f.header.rank + 65536 * (f.header.jobSize - 1)
  else if off = Reg.LAST_TICK_PERIOD then s.ofImage fun f => f.header.tickPeriod
  else if off = Reg.LAST_KEY ∨ off = Reg.LAST_DIGEST then (if s.img.isSome then s.regN (off + 4 * i) else 0)
  else s.regN off

/-- The TICK block. With ticks stopped no stitch is current, and STITCH reads 0 (DESIGN CHOICE, log 75), while TICK_NOW keeps its last
value (R77). -/
def State.readTick (s : State) (off : Nat) : Nat :=
  if off = Reg.TICK_STATE then
    s.tick.ticking.toNat + 2 * s.tick.inMaint.toNat + 4 * s.tick.halted.toNat + 256 * (if s.tick.ticking then s.stitchIx else 0)
  else if off = Reg.TICK_NOW then s.tick.now
  else if off = Reg.TICK_PERIOD_CYCLES then s.tickLen
  else if off = Reg.TICK_RESERVE then s.resoleReserve
  else if off = Reg.TICK_MAINT then s.maintLen
  else if off = Reg.TICK_STEP_LEN then s.stepLen
  else s.regN off

/-- ADM_GATE: code 3 applies, and the latched conditions (R72, R78). -/
def State.gateReg (s : State) : Nat := (decide (s.image.st ≠ .running)).toNat + 2 * s.adm.gate.toNat

/-- A pending doorbell whose ticket was accepted for slot `k`. -/
def State.bellFor (s : State) (k : Nat) : Bool :=
  s.adm.bells.any fun d => match d.answer with | .accept j _ => decide (j = k) | .refuse _ _ => false

/-- Accepted tickets bound to a slot after the current one (R69), but for those that still count as pending doorbells. -/
def State.waitingTickets (s : State) : Nat :=
  (s.adm.accepted.filter fun e => decide (s.slotNow < e.1) && !s.bellFor e.1).length

/-- ADM_QUEUE. -/
def State.queueReg (s : State) : Nat :=
  s.waitingTickets + 16 * s.tick.step.isSome.toNat + 256 * s.adm.bells.length + 4096 * s.adm.freePlots

/-- ADM_DONE_STATUS. -/
def State.doneReg (s : State) : Nat :=
  match s.adm.unread with
  | [] => 0
  | c :: _ => 1 + 16 * statusCode c.status + 256 * c.cause + 65536 * s.adm.unread.length

/-- The ADM block. -/
def State.readAdm (s : State) (off i : Nat) : Nat :=
  if off = Reg.ADM_GATE then s.gateReg
  else if off = Reg.ADM_QUEUE then s.queueReg
  else if off = Reg.ADM_DONE_TAG then (s.adm.unread.head?.map Completion.tag).getD 0
  else if off = Reg.ADM_DONE_STEP then (s.adm.unread.head?.map Completion.stepId).getD 0
  else if off = Reg.ADM_DONE_STATUS then s.doneReg
  else if off = Reg.ADM_REFUSE then s.regN (off + 4 * i)
  else s.regN off

/-! ## Error control (R145) -/

/-- The THRESH entry that QNT_THR_SEL selects. -/
def State.threshold (s : State) : Option ThreshEntry :=
  s.sections?.bind fun x =>
    x.thresh.find? fun e => e.layer = s.fld Reg.QNT_THR_SEL 15 0 ∧ e.cls = s.fld Reg.QNT_THR_SEL 21 16

/-- QNT_GROUP_STATE. -/
def State.groupReg (s : State) : Nat :=
  let g := s.fld Reg.QNT_GROUP_SEL 5 0
  let up := s.tick.raised.getLsbD g
  let used := (s.sections?.map fun x => x.layerGroups.any fun e => e.2 = g).getD false
  (if up then storeGet 0 s.tick.clean g else 0) + 65536 * min (storeGet 0 s.tick.raises g) 4095 + 2 ^ 30 * up.toNat +
    2 ^ 31 * used.toNat

/-- clean_steps of the group of a layer. -/
def State.layerClean (s : State) (layer : Nat) : Nat :=
  ((s.sections?.bind fun x => groupOf x layer).map s.cleanSteps).getD 0

/-- The QNT block. -/
def State.readQnt (s : State) (off : Nat) : Nat :=
  if off = Reg.QNT_GROUP_STATE then s.groupReg
  else if off = Reg.QNT_THR_SEG then (s.threshold.map fun e => e.segSat + 65536 * e.segZero).getD 0
  else if off = Reg.QNT_THR_BLOCK then
    (s.threshold.map fun e => e.blockSat + 256 * e.blockZero + 2 ^ 15 * s.layerClean e.layer + 2 ^ 31).getD 0
  else if off = Reg.QNT_THR_LAYER then (s.threshold.map fun e => e.layerSat + 65536 * e.layerZero).getD 0
  else s.regN off

/-! ## Engines and fabric (R164, R191, R212) -/

/-- The ME block. -/
def State.readMe (s : State) (off i : Nat) : Nat :=
  let e := s.fld Reg.ME_SEL 8 0
  if off = Reg.ME_SPARES then Config.spareRows e + 16 * Config.spareCols e
  else if off = Reg.ME_MV_PRODUCTS then s.regN (bankKey off (e / 4))
  else if Reg.ME_PASSES ≤ off ∧ off ≤ Reg.ME_LAG_MAX then s.regN (bankKey off e)
  else s.regN (off + 4 * i)

/-- VE_FLAGS_ANY. -/
def State.flagsAny (s : State) : DWord :=
  (List.range 128).foldl (fun a c => a ||| s.reg (bankKey Reg.VE_FLAGS c)) 0

/-- The VE block. -/
def State.readVe (s : State) (off i : Nat) : Nat :=
  if off = Reg.VE_FLAGS_ANY then s.flagsAny.toNat
  else if off = Reg.VE_FLAGS ∨ (Reg.VE_CHAINS ≤ off ∧ off ≤ Reg.VE_DRAWS) then s.regN (bankKey off (s.fld Reg.VE_SEL 6 0))
  else s.regN (off + 4 * i)

/-- The slot table in force, none when no image is RUNNING. -/
def State.slotTable? (s : State) : Option SlotTable :=
  if s.image.st = .running then s.sections?.bind fun x => x.routes[s.trl.table]? else none

/-- Slots that the table in force reserves at an output. -/
def State.reservedSlots (s : State) (router port : Nat) : Nat :=
  match s.slotTable? with
  | some t => (tableSlots t router port).length
  | none => 0

/-- The TRL block. -/
def State.readTrl (s : State) (off : Nat) : Nat :=
  let router := s.fld Reg.TRL_SEL 3 0
  let port := s.fld Reg.TRL_SEL 10 8
  if off = Reg.TRL_STATE then
    (if s.slotTable?.isSome then s.trl.table + 8192 else 0) + 4096 * s.tick.inMaint.toNat
  else if off = Reg.TRL_WEIGHTS then s.weights
  else if off = Reg.TRL_RESV then s.reservedSlots router port + 65536 * portSlots router port
  else if Reg.TRL_DYN_GRANTS ≤ off ∧ off ≤ Reg.TRL_WAIT_MAX then s.regN (bankKey off (8 * router + port))
  else s.regN off

/-! ## Memory, updates and the Cloister (R236, R254, R273) -/

/-- MEM_MAP differs from MEM_INSERVICE. -/
def State.mapPending (s : State) : Bool :=
  (List.range 8).any fun k => decide (s.seed (8 + k) ≠ (s.hbm.inService >>> (32 * k)).setWidth 32)

/-- MEM_HEADROOM: 0 while no image is RUNNING (R229). -/
def State.headroomReg (s : State) : Nat :=
  if s.image.st = .running then headroom s.memReserve false + 65536 * headroom s.memReserve true else 0

/-- The MEM block. -/
def State.readMem (s : State) (off i : Nat) : Nat :=
  let ch := s.fld Reg.MEM_SEL 7 0
  if off = Reg.MEM_STATE then
    s.hbm.trained.toNat + 2 * s.mapPending.toNat + 256 * s.chans + 2 ^ 24 * s.hbm.hot.toNat
  else if off = Reg.MEM_THERM_CFG then s.throttleAt
  else if off = Reg.MEM_SUSPECT_CFG then (s.seed 2).toNat % 65536
  else if off = Reg.MEM_MAP then (s.seed (8 + i)).toNat
  else if off = Reg.MEM_INSERVICE then ((s.hbm.inService >>> (32 * i)).setWidth 32 : Word).toNat
  else if off = Reg.MEM_HEADROOM then s.headroomReg
  else if off = Reg.MEM_CE_COUNT ∨ off = Reg.MEM_UE_COUNT ∨ off = Reg.MEM_RETRY_COUNT ∨ off = Reg.MEM_SCAN_RESULT then
    s.regN (bankKey off ch)
  else s.regN (off + 4 * i)

/-- UPD_STATE.SHADOW. -/
def Shadow.code : Shadow → Nat
  | .stale => 0 | .writing => 1 | .complete => 2

/-- The UPD block. -/
def State.readUpd (s : State) (off : Nat) : Nat :=
  if off = Reg.UPD_STATE then
    s.upd.slabB.toNat + 2 * s.upd.shadow.code +
      8 * (s.tick.step.isSome && (s.stitch?.map Stitch.update).getD false).toNat + 16 * s.recordValid.toNat
  else if off = Reg.UPD_CFG then (s.updSec?.map fun u => u.period + 65536 * u.sets.length).getD 0
  else if off = Reg.UPD_EPOCH then s.upd.epoch
  else if off = Reg.UPD_SHADOW_STEP then s.upd.shadowStep
  else if off = Reg.UPD_GNORM then s.recordNorm.toNat
  else s.regN off

/-- The ring that CLO_SEL selects. -/
def State.ringEntry? (s : State) : Option RingEntry := s.topo?.bind fun t => t.rings[s.fld Reg.CLO_SEL 3 0]?

/-- A figure of the held image's TOPO, 0 when none is held. -/
def State.ofTopo (s : State) (f : Topo → Nat) : Nat := (s.topo?.map f).getD 0

/-- The CLO block. -/
def State.readClo (s : State) (off : Nat) : Nat :=
  if off = Reg.CLO_CFG then
    s.digestMode.toNat + s.ofTopo fun t =>
      2 * t.rings.length + 256 * t.treeChildren.length + 2 ^ 13 * t.treeParent.isNone.toNat
  else if off = Reg.CLO_RING then (s.ringEntry?.map fun r => r.send + 16 * r.recv + 2 ^ 31).getD 0
  else if off = Reg.CLO_RING_POS then (s.ringEntry?.map fun r => s.ringPos r + 65536 * (r.ranks.length - 1)).getD 0
  else if off = Reg.CLO_DLOG_BASE then (if s.digestMode then s.ofTopo Topo.dlogBase else 0)
  else if off = Reg.CLO_DLOG_SIZE then (if s.digestMode then s.ofTopo Topo.dlogSize else 0)
  else if off = Reg.CLO_DLOG_HEAD then (if s.digestMode then s.regN off else 0)
  else s.regN off

/-! ## Ports, stiles, plots (R298, R316, R317) -/

/-- PYU_PORT of a port: a powered port waits until training opens (R379). -/
def State.portReg (s : State) (p : Nat) : Nat :=
  let x := s.port p
  let st := if x.st = portOff ∧ s.boot.powered ∧ s.boot.training = false then portWaiting else x.st
  st + 16 * x.width + 256 * (s.topoPort p).isSome.toNat + 65536 * x.peerPort + 2 ^ 24 * x.locked.toNat

/-- The PYU block. -/
def State.readPyu (s : State) (off i : Nat) : Nat :=
  let p := s.fld Reg.PYU_SEL 3 0
  if off = Reg.PYU_UP then
    flagBits 16 (fun p => decide ((s.port p).st = portUp)) + 65536 * flagBits 16 fun p => decide ((s.port p).st = portFailed)
  else if off = Reg.PYU_PORT then s.portReg p
  else if off = Reg.PYU_PEER_ID then (s.port p).peerId.toNat
  else if off = Reg.PYU_FEC_CORR then s.regN (bankKey off (8 * p + s.fld Reg.PYU_SEL 6 4))
  else if off = Reg.PYU_FRAMES_TX ∨ off = Reg.PYU_FRAMES_RX ∨ off = Reg.PYU_FEC_UNCORR ∨ off = Reg.PYU_REPLAYS then
    s.regN (bankKey off p)
  else if off = Reg.PYU_LANEMAP then (s.seed (16 + i)).toNat
  else s.regN off

/-- The STL block. -/
def State.readStl (s : State) (off : Nat) : Nat :=
  let x := storeGet {} s.stl.stiles (s.fld Reg.STL_SEL 16 0)
  if off = Reg.STL_COMMIT then s.commitBits + 256 * s.commit.resolved.toNat
  else if off = Reg.STL_STATE then
    x.count % 65536 + 65536 * min x.early 16383 + 2 ^ 30 * x.armed.toNat + 2 ^ 31 * (x.gen % 2)
  else s.regN off

/-- The PLT block. -/
def State.readPlt (s : State) (off : Nat) : Nat :=
  let x := s.plot (s.fld Reg.PLT_SEL 17 0)
  if off = Reg.PLT_STATE then
    x.kind % 8 + 16 * (x.port % 16) + 256 * (decide (x.port ≠ 0xFF)).toNat + 65536 * min x.held 255 + 2 ^ 24 * (x.credits % 256)
  else if off = Reg.PLT_POSITION then x.position
  else if off = Reg.PLT_USED then x.used
  else if off = Reg.PLT_POOL then s.poolSize
  else s.regN off

/-! ## The host, power and the Lodge (R343, R359, R376) -/

/-- PCI_DMAn_STATUS: a stopped engine stays so; otherwise it is idle or running. -/
def State.dmaStatus (s : State) (e : Nat) : Nat :=
  let v := s.regN (dmaReg Reg.PCI_DMA_STATUS e)
  if s.dmaStopped e then v else putBits v 0 2 (s.dmaBusy e).toNat

/-- The PCI block. -/
def State.readPci (s : State) (off i : Nat) : Nat :=
  if off = Reg.PCI_DMA_STATUS then s.dmaStatus i else s.regN (off + 32 * i)

/-- PWR_STATE. -/
def State.powerReg (s : State) : Nat :=
  (decide (s.pwr.cap < s.capFloor)).toNat + 2 * s.pwr.stale.toNat + 4 * s.pwr.capNext.isSome.toNat

/-- A write of register `i` waits in the seed bank's queue. -/
def State.seedBusy (s : State) (i : Nat) : Bool := (queued s.sbk.queue).any fun w => w.1 = i

/-- The PWR block. -/
def State.readPwr (s : State) (off : Nat) : Nat :=
  if off = Reg.PWR_CAP then (s.seed 0).toNat % 4096 + 2 ^ 31 * (s.seedBusy 0).toNat
  else if off = Reg.PWR_FLOOR then s.capFloor
  else if off = Reg.PWR_STATE then s.powerReg
  else if off = Reg.PWR_FUSED then Config.fusedMhz (s.fld Reg.PWR_SEL 6 0)
  else s.regN off

/-- LDG_STATE.STATE. -/
def PState.code : PState → Nat
  | .a0 => 0 | .a1 => 1 | .a2 => 2 | .a3 => 3

/-- The LDG block. -/
def State.readLdg (s : State) (off i : Nat) : Nat :=
  if off = Reg.LDG_STATE then putBits (s.regN off) 0 3 (s.ldg.ps.code + 4 * s.moving.toNat)
  else s.regN (off + 4 * i)

/-! ## The persistent store and the Belvedere (R404, R405, R418) -/

/-- The SBK block. -/
def State.readSbk (s : State) (off i : Nat) : Nat :=
  let sel := s.fld Reg.SBK_SEL 9 0
  let n := (queued s.sbk.queue).length
  if off = Reg.SBK_STATUS then (decide (0 < n)).toNat + 16 * n + 65536 * s.frozenCount
  else if off = Reg.SBK_WEAR then s.wear sel + 2 ^ 31 * (s.frozen sel).toNat
  else if off = Reg.SBK_FROZEN_MAP then flagBits 32 fun b => s.frozen (32 * i + b)
  else if off = Reg.SBK_REG then (s.seed i).toNat
  else s.regN (off + 4 * i)

/-- The HLT block. -/
def State.readHlt (s : State) (off i : Nat) : Nat :=
  if off = Reg.HLT_STATE then s.ledgerArea + 4 * s.hlt.snapBusy.toNat
  else if off = Reg.HLT_TAIL then s.hlt.tail
  else if off = Reg.HLT_RECORDS then s.hlt.records
  else if off = Reg.HLT_WIN then ofLe (s.ledgerBytes (65536 * s.fld Reg.HLT_WIN_OFFSET 7 0 + 4 * i) 4)
  else if off = Reg.HLT_SNAP then ofLe (storeGetMany 0 s.hlt.snap (4 * i) 4)
  else s.regN off

/-- The BEL block. -/
def State.readBel (s : State) (off i : Nat) : Nat :=
  if off = Reg.BEL_STATE then s.bel.snapBusy.toNat + 2 * (s.ringOn 0).toNat + 4 * (s.ringOn 1).toNat
  else if off = Reg.BEL_CNT then (storeGet 0 s.bel.cnt i).toNat
  else if off = Reg.BEL_SNAP then (storeGet 0 s.bel.snap i).toNat
  else s.regN (off + ringOff i)

/-! ## The TOP block (R423 to R425) -/

/-- A bit of ME_FAIL or VE_FAIL is set. -/
def State.unitFailed (s : State) : Bool :=
  ((List.range 16).any fun k => decide (s.reg (Reg.ME_FAIL + 4 * k) ≠ 0)) ||
    ((List.range 4).any fun k => decide (s.reg (Reg.VE_FAIL + 4 * k) ≠ 0))

/-- The outcome of a commit is unresolved. -/
def State.unresolved (s : State) : Bool := decide (s.commit.outcome = 3) && !s.commit.resolved

/-- TOP_STATUS. -/
def State.statusReg (s : State) : Nat :=
  (decide (8 ≤ s.boot.step)).toNat + 2 * s.boot.failed.toNat + 4 * s.hbm.trained.toNat + 16 * s.ldg.ps.code +
    256 * s.image.st.code + 2048 * s.tick.ticking.toNat + 4096 * (decide (s.gateReg = 0)).toNat +
    8192 * s.unresolved.toNat + 16384 * s.unitFailed.toNat + 32768 * s.pwr.stale.toNat

/-- TOP_PENDING. -/
def State.pendingReg (s : State) : Nat := flagBits 26 s.reports

/-- The TOP block. -/
def State.readTop (s : State) (off : Nat) : Nat :=
  if off = Reg.TOP_MODULE_ID then Config.moduleId.toNat
  else if off = Reg.TOP_ROM_VERSION then Config.romVersion.toNat
  else if off = Reg.TOP_STATUS then s.statusReg
  else if off = Reg.TOP_PENDING then s.pendingReg
  else s.regN off

/-! ## Every register -/

/-- Copy `i` of the register whose row begins at `off`. -/
def State.readReg (s : State) (off i : Nat) : Nat :=
  match off / 65536 with
  | 0 => s.readTop off
  | 1 => s.readLast off i
  | 2 => s.readTick off
  | 3 => s.readAdm off i
  | 5 => s.readQnt off
  | 6 => s.readMe off i
  | 7 => s.readVe off i
  | 8 => s.readTrl off
  | 9 => s.readMem off i
  | 10 => s.readUpd off
  | 11 => s.readClo off
  | 12 => s.readPyu off i
  | 13 => s.readStl off
  | 14 => s.readPlt off
  | 15 => s.readPci off i
  | 16 => s.readPwr off
  | 17 => s.readLdg off i
  | 18 => s.readSbk off i
  | 20 | 21 | 22 => s.readHlt off i
  | 24 | 25 | 26 => s.readBel off i
  | _ => s.regN off

/-- WO fields read 0 (R13): the bits that a row's write only triggers. -/
def readMask (r : RegRow) (v : Nat) : Nat := (BitVec.ofNat 64 v &&& ~~~r.wo).toNat

/-- The MSI-X structures (R321, R336): table entries of 16 B with the mask bit in the last word, and the pending bits. -/
def State.readMsix (s : State) (o : Nat) : Byte :=
  if 0x3F00000 ≤ o ∧ o < 0x3F00200 then
    let v := (o - 0x3F00000) / 16
    if o % 16 = 12 then (if (s.vec v).masked then 1 else 0)
    else if 12 < o % 16 then 0
    else BitVec.ofNat 8 (s.regN (o / 4 * 4) / 2 ^ (8 * (o % 4)))
  else if 0x3F80000 ≤ o ∧ o < 0x3F80008 then
    BitVec.ofNat 8 (flagBits 8 fun b => (s.vec (8 * (o - 0x3F80000) + b)).pendingBit)
  else 0

/-- A byte of BAR0: of the register that lies there, zero where none does (R322). -/
def State.bar0Byte (s : State) (o : Nat) : Byte :=
  match regAt o with
  | some (r, base) =>
    let i := if r.stride = 0 then 0 else (base - r.off) / r.stride
    BitVec.ofNat 8 (readMask r (s.readReg r.off i) / 2 ^ (8 * (o - base)))
  | none => s.readMsix o

/-- `n` bytes of BAR0. -/
def State.bar0Bytes (s : State) (o n : Nat) : List Byte := (List.range n).map fun k => s.bar0Byte (o + k)

end Sys2Proof.Machine
end

