-- ==== Sys2Proof/Machine/Bar0.lean ====
section
/-! DEFINITION. Host writes and accesses of BAR0: the access codes of every field, the commands that registers carry, accesses
that are ignored, and the clear of all statistics (R12 to R14, R55, R322, R421, R422, R426). -/

namespace Sys2Proof.Machine

/-! ## All statistics (R426) -/

/-- Every clear that TOP_CTRL.CLR_STATS names. -/
def State.topClr (s : State) (same : List (Nat × Nat)) : State :=
  let s1 := ((((s.tickClr same).fmtClr same).qntClr same).qntStatClr same).meClr same
  let s2 := ((((s1.veClr same).trlClr same).memClr same).updClr same).cloClr same
  (((s2.pyuClr same).stlClr same).pltClr same).pciClr same

/-- TOP_CLR_STATS (R426). -/
def execTopClrStats (same : List (Nat × Nat)) (s : State) : Host.Outcome State Fault Refusal :=
  .next (s.onHost fun s => s.topClr same)

/-! ## Field access codes (R13, R14) -/

/-- A register's value after a write: RW fields take the bits written, W1C fields lose the bits written as 1, everything
else stays. -/
def fieldWrite (r : RegRow) (old v : DWord) : DWord :=
  ((old &&& ~~~r.rw) ||| (v &&& r.rw)) &&& ~~~(v &&& r.w1c)

/-- A write under the field access codes alone, at the register with key `k`. -/
def State.writeFields (s : State) (r : RegRow) (k : Nat) (v : DWord) : State := s.setReg k (fieldWrite r (s.reg k) v)

/-! ## Registers whose writes act -/

/-- LAST_CTRL (R43, R48, R50, R55). -/
def State.writeLastCtrl (s : State) (v : Nat) : State :=
  match v % 16 with
  | 0 => s
  | 1 => s.load
  | 2 => s.start
  | 4 => s.unload
  | 8 => s.abort
  | _ => s.cmdIgnored

/-- A write whose bit 0 is a command. -/
def State.command (s : State) (v : Nat) (f : State → State) : State := if v % 2 = 1 then f s else s

/-- VE_STAT_CTRL: the counters, and the flags (R191). -/
def State.writeVeStat (s : State) (v : Nat) : State :=
  let s1 := if v.testBit 0 then s.veClr [] else s
  if v.testBit 1 then s1.veFlagsClr [] else s1

/-- PYU_CTRL (R282, R291). -/
def State.writePyuCtrl (s : State) (v : Nat) : State :=
  let s1 := if v.testBit 0 then s.retrain else s
  if v.testBit 1 then s1.wakeSend else s1

/-- STL_RECON_CTRL: SLAB is taken, then the command acts (R314). -/
def State.writeRecon (s : State) (v : Nat) : State :=
  let s1 := s.setBit Reg.STL_RECON_CTRL 3 (v.testBit 3)
  match v % 4 with
  | 0 => s1
  | 1 => s1.lateCommit
  | 2 => s1.keep
  | _ => s1.adopt

/-- PCI_QUEUE_CTRL (R325, R330). -/
def State.writeQueueCtrl (s : State) (v : Nat) : State := if v % 2 = 1 then s.queueEnable v else s.queueDisable v

/-- PCI_DMAn_CTRL (R333). A disable with descriptors in flight is DMA_DISABLE, whose operands say what had moved. -/
def State.writeDmaCtrl (s : State) (e v : Nat) : State := if v % 2 = 1 then s.dmaEnable e v else s.dmaDisable e v []

/-- LDG_PSTATE_CTRL.TARGET (R361, R365). -/
def State.writeTarget (s : State) (v : Nat) : State :=
  match v % 4 with
  | 0 => s.targetA0
  | 1 => s.requestEntry .a1
  | 2 => s.requestEntry .a2
  | _ => s

/-- BEL_CTRL (R409). -/
def State.writeBelCtrl (s : State) (v : Nat) : State :=
  if v % 2 = 0 then s else if v.testBit 1 then s.belSnapEdge else s.belSnap

/-- SBK_FROZEN: clearing HIT clears INDEX and VALID with it (R404). -/
def State.writeFrozen (s : State) (v : Nat) : State := s.command v fun s => s.setReg Reg.SBK_FROZEN 0

/-- TOP_ACCESS_ERR: clearing VALID clears the record (R426). -/
def State.writeAccessErr (s : State) (v : Nat) : State := if v.testBit 31 then s.setReg Reg.TOP_ACCESS_ERR 0 else s

/-- A write of SBK_REG: only indices 512 to 1,023 are PW there (R404). -/
def State.writeSeedReg (s : State) (i : Nat) (v : Word) : State := if 512 ≤ i then s.seedWrite i v else s

/-! ## A write to one register -/

/-- The writes of blocks 0 to 8 that act by more than the access codes; `plain` is a write that does not. -/
def State.actLow (s : State) (off v : Nat) (plain : State) : State :=
  if off = Reg.LAST_CTRL then s.writeLastCtrl v
  else if off = Reg.LAST_SRC ∨ off = Reg.LAST_LEN then
    (if s.image.st = .loading ∨ s.image.st = .verifying then s else plain)
  else if off = Reg.TICK_CTRL then (if v.testBit 8 then plain.tickClr [] else plain)
  else if off = Reg.ADM_DOORBELL then s.command v fun s => s.doorbell s.ticketRegs false
  else if off = Reg.ADM_DONE_POP then s.command v State.donePop
  else if off = Reg.FMT_CTRL then s.command v fun s => s.fmtClr []
  else if off = Reg.QNT_CTRL then s.command v fun s => s.qntClr []
  else if off = Reg.QNT_STAT_CTRL then s.command v fun s => s.qntStatClr []
  else if off = Reg.ME_TEST_CTRL then s.command v fun s => s.requestTest .matrix
  else if off = Reg.ME_STAT_CTRL then s.command v fun s => s.meClr []
  else if off = Reg.VE_TEST_CTRL then s.command v fun s => s.requestTest .vector
  else if off = Reg.VE_STAT_CTRL then s.writeVeStat v
  else if off = Reg.TRL_STAT_CTRL then s.command v fun s => s.trlClr []
  else if off = Reg.TOP_CTRL then s.command v fun s => s.topClr []
  else if off = Reg.TOP_ACCESS_ERR then s.writeAccessErr v
  else plain

/-- The same for blocks 9 to 14. -/
def State.actMid (s : State) (off i v : Nat) (plain : State) : State :=
  if off = Reg.MEM_THERM_CFG then s.seedWrite 1 (BitVec.ofNat 32 v)
  else if off = Reg.MEM_SUSPECT_CFG then s.seedWrite 2 (BitVec.ofNat 32 v)
  else if off = Reg.MEM_MAP then s.mapWrite i (BitVec.ofNat 32 v)
  else if off = Reg.MEM_TEST_CTRL then (if v % 2 = 1 then s.memTestStart v else s.takeCtrl Reg.MEM_TEST_CTRL v)
  else if off = Reg.MEM_SCAN_CTRL then (if v % 2 = 1 then s.memScanStart v else s.takeScan v)
  else if off = Reg.MEM_STAT_CTRL then s.command v fun s => s.memClr []
  else if off = Reg.UPD_STAT_CTRL then s.command v fun s => s.updClr []
  else if off = Reg.CLO_STAT_CTRL then s.command v fun s => s.cloClr []
  else if off = Reg.PYU_CTRL then s.writePyuCtrl v
  else if off = Reg.PYU_LANEMAP then s.laneMapWrite i (BitVec.ofNat 32 v)
  else if off = Reg.PYU_STAT_CTRL then s.command v fun s => s.pyuClr []
  else if off = Reg.STL_RECON_CTRL then s.writeRecon v
  else if off = Reg.STL_STAT_CTRL then s.command v fun s => s.stlClr []
  else if off = Reg.PLT_STAT_CTRL then s.command v fun s => s.pltClr []
  else plain

/-- The same for the PCI and PWR blocks. -/
def State.actPci (s : State) (off i v : Nat) (plain : State) : State :=
  if off = Reg.PCI_WIN_BASE then s.winBase (BitVec.ofNat 64 v)
  else if off = Reg.PCI_QUEUE_CTRL then s.writeQueueCtrl v
  else if off = Reg.PCI_TQ_BASE ∨ off = Reg.PCI_AQ_BASE ∨ off = Reg.PCI_CQ_BASE then
    (if s.queueOn || s.draining then s else plain)
  else if off = Reg.PCI_TQ_TAIL then s.tqTail v
  else if off = Reg.PCI_AQ_HEAD then s.aqHead v
  else if off = Reg.PCI_CQ_HEAD then s.cqHead v
  else if off = Reg.PCI_STAT_CTRL then s.command v fun s => s.pciClr []
  else if off = Reg.PCI_DMA_BASE then (if s.bit (dmaReg Reg.PCI_DMA_CTRL i) 0 then s else plain)
  else if off = Reg.PCI_DMA_CTRL then s.writeDmaCtrl i v
  else if off = Reg.PCI_DMA_TAIL then s.dmaTail i v
  else if off = Reg.PWR_CAP then s.capWrite v
  else if off = Reg.PWR_CTRL then s.command v State.ackStale
  else plain

/-- The same for the LDG, SBK, HLT and BEL blocks. -/
def State.actHigh (s : State) (off i v : Nat) (plain : State) : State :=
  if off = Reg.LDG_PSTATE_CTRL then s.writeTarget v
  else if off = Reg.LDG_MBOX_CTRL then s.mailbox v .malformed
  else if off = Reg.SBK_FROZEN then s.writeFrozen v
  else if off = Reg.SBK_ENR_CTRL then s.command v State.enrGo
  else if off = Reg.SBK_ENR_BUF then (if s.enrBusy then s else plain)
  else if off = Reg.SBK_REG then s.writeSeedReg i (BitVec.ofNat 32 v)
  else if off = Reg.HLT_CTRL then s.command v State.hltSnap
  else if off = Reg.BEL_CTRL then s.writeBelCtrl v
  else if off = Reg.BEL_MARK then s.trace 0 0x14 0 v
  else if off = Reg.BEL_RING_BASE then (if s.ringOn i then s else plain)
  else if off = Reg.BEL_RING_CTRL then s.ringCtrl i v
  else if off = Reg.BEL_RING_HEAD then s.ringHeadWrite i (BitVec.ofNat 64 v)
  else plain

/-- What a write of a register does: its own effect, or the plain write. -/
def State.acts (s : State) (off i v : Nat) (plain : State) : State :=
  if off < 0x90000 then s.actLow off v plain
  else if off < 0xF0000 then s.actMid off i v plain
  else if off < 0x110000 then s.actPci off i v plain
  else s.actHigh off i v plain

/-- The key under which a written register is held: VE_FLAGS is banked by VE_SEL. -/
def State.writeKey (s : State) (off base : Nat) : Nat := if off = Reg.VE_FLAGS then bankKey off (s.fld Reg.VE_SEL 6 0) else base

/-- A write of a whole register: of the row `r`, whose copy lies at `base`. -/
def State.regWrite (s : State) (r : RegRow) (base : Nat) (v : DWord) : State :=
  let i := if r.stride = 0 then 0 else (base - r.off) / r.stride
  s.acts r.off i v.toNat (s.writeFields r (s.writeKey r.off base) v)

/-! ## Accesses (R12, R322, R422) -/

/-- An access that is ignored or answered with zeros: TOP_ACCESS_ERR keeps the first. -/
def State.badAccess (s : State) (offset kind : Nat) : State :=
  if s.bit Reg.TOP_ACCESS_ERR 31 then s
  else s.setRegN Reg.TOP_ACCESS_ERR (offset % 2 ^ 26 + 2 ^ 28 * kind + 2 ^ 31)

/-- A vector's mask bit is written (R336). -/
def State.writeMask (s : State) (v : Nat) (m : Bool) : State := if m then s.mask v else s.unmask v

/-- An aligned word of the MSI-X table (R321): the last word of an entry holds its mask bit. -/
def State.writeMsix (s : State) (o v : Nat) : State :=
  if 0x3F00000 ≤ o ∧ o < 0x3F00200 then
    (if o % 16 = 12 then s.writeMask ((o - 0x3F00000) / 16) (v.testBit 0) else s.setRegN o (v % 2 ^ 32))
  else s

/-- A write of an aligned 4-byte word: half of a 64-bit register is ignored and recorded. -/
def State.write4 (s : State) (o v : Nat) : State :=
  match regAt o with
  | some (r, base) => if r.width = 8 then s.badAccess o 3 else s.regWrite r base (BitVec.ofNat 64 (v % 2 ^ 32))
  | none => s.writeMsix o v

/-- A write of an aligned 8-byte span: one 64-bit register whole, or two words, the lower first. -/
def State.write8 (s : State) (o : Nat) (v : DWord) : State :=
  match regAt o with
  | some (r, base) =>
    if r.width = 8 then s.regWrite r base v else (s.write4 o (v.toNat % 2 ^ 32)).write4 (o + 4) (v.toNat / 2 ^ 32)
  | none => (s.write4 o (v.toNat % 2 ^ 32)).write4 (o + 4) (v.toNat / 2 ^ 32)

/-- A write of `n` aligned words from offset `o`, in ascending order; a 64-bit register wholly within takes its two halves as one
8-byte write (R422). -/
def State.writeSpan (s : State) : Nat → Nat → Nat → State
  | 0, _, _ => s
  | 1, o, v => s.write4 o (v % 2 ^ 32)
  | n + 2, o, v =>
    match regAt o with
    | some (r, base) =>
      if r.width = 8 ∧ base = o then (s.regWrite r base (BitVec.ofNat 64 v)).writeSpan n (o + 8) (v / 2 ^ 64)
      else (s.write4 o (v % 2 ^ 32)).writeSpan (n + 1) (o + 4) (v / 2 ^ 32)
    | none => (s.write4 o (v % 2 ^ 32)).writeSpan (n + 1) (o + 4) (v / 2 ^ 32)

/-- More than 8 bytes, aligned to 4 (R422). -/
def longSpan (o size : Nat) : Bool := decide (8 < size ∧ o % 4 = 0 ∧ size % 4 = 0)

/-- 1 or 2 bytes within one aligned 4-byte word. -/
def narrow (o size : Nat) : Bool := decide (size < 4 ∧ o % 4 + size ≤ 4)

/-- A write to BAR0 of `size` bytes. -/
def State.bar0Write (s : State) (o size v : Nat) : State :=
  if narrow o size then s.badAccess o 1
  else if size = 4 ∧ o % 4 = 0 then s.write4 o v
  else if size = 8 ∧ o % 8 = 0 then s.write8 o (BitVec.ofNat 64 v)
  else if longSpan o size then s.writeSpan (size / 4) o v
  else s.badAccess o 2

/-- A read of BAR0 of `size` bytes: misaligned ones read zeros and are recorded. -/
def State.bar0Read (s : State) (o size : Nat) : State :=
  if narrow o size ∨ ((size = 4 ∨ size = 8) ∧ o % size = 0) ∨ longSpan o size then s.send (.readData (s.bar0Bytes o size))
  else (s.badAccess o 2).send (.readData (List.replicate size 0))

/-- The offset lies in a block that the Lodge serves in A2 as well: LDG, HLT (R365, R376). -/
def lodgeServed (o : Nat) : Bool := decide ((0x110000 ≤ o ∧ o < 0x120000) ∨ (0x140000 ≤ o ∧ o < 0x180000))

/-- A memory request to BAR0. -/
def State.onBar0 (s : State) (o : Nat) (f : State → State) : State := if lodgeServed o then s.onLodge f else s.onHost f

/-- A read of BAR0: in A2 the Lodge serves those of its blocks and of the SBK block; any other wakes the module and completes
with Completer Abort (R365, R368). -/
def State.onBar0Read (s : State) (o : Nat) (f : State → State) : State :=
  if lodgeServed o || decide (0x120000 ≤ o ∧ o < 0x140000) then s.onLodge f
  else (if s.linkUp && s.asleep && decide (6 ≤ s.boot.step) && !s.boot.failed then s.send .completerAbort else s).onHost f

/-- REGISTER_WRITE (R13, R14, R322, R422). -/
def execRegisterWrite (offset size value : Nat) (s : State) : Host.Outcome State Fault Refusal :=
  .next (s.onBar0 offset fun s => s.bar0Write offset size value)

/-- A write that R422 ignores: narrow, to half of a 64-bit register, or not aligned to its size. -/
def State.badWrite (s : State) (o size : Nat) : State :=
  if narrow o size then s.badAccess o 1
  else if size = 4 ∧ o % 4 = 0 then s.badAccess o 3
  else s.badAccess o 2

/-- BAR0_BAD_ACCESS (R422). -/
def execBar0BadAccess (offset size : Nat) (write : Bool) (s : State) : Host.Outcome State Fault Refusal :=
  .next (if write then s.onBar0 offset fun s => s.badWrite offset size
  else s.onBar0Read offset fun s => s.bar0Read offset size)

end Sys2Proof.Machine
end

