-- ==== Sys2Proof/Machine/Dispatch.lean ====
section
/-! DEFINITION. The meaning of every command: one arm each. -/

namespace Sys2Proof.Machine

/-- The effect of a command on everything but the queue. -/
def exec (i : Instr) (s : State) : Host.Outcome State Fault Refusal :=
  match i with
  | .powerValid48v perst => Sys2Proof.Machine.execPowerValid48v perst s
  | .lodgeAlive => Sys2Proof.Machine.execLodgeAlive s
  | .bootVerified => Sys2Proof.Machine.execBootVerified s
  | .pyurnTrainingOpen => Sys2Proof.Machine.execPyurnTrainingOpen s
  | .trainingRetry port => Sys2Proof.Machine.execTrainingRetry port s
  | .hbmTrainingDone failed => Sys2Proof.Machine.execHbmTrainingDone failed s
  | .moduleReady => Sys2Proof.Machine.execModuleReady s
  | .linkUp speed width flit => Sys2Proof.Machine.execLinkUp speed width flit s
  | .linkDown moved => Sys2Proof.Machine.execLinkDown moved s
  | .hostSideReset kind moved => Sys2Proof.Machine.execHostSideReset kind moved s
  | .hostResetAfterCommit moved => Sys2Proof.Machine.execHostResetAfterCommit moved s
  | .perstDeassert => Sys2Proof.Machine.execPerstDeassert s
  | .load => Sys2Proof.Machine.execLoad s
  | .imageFetchDone file => Sys2Proof.Machine.execImageFetchDone file s
  | .imageFetchDmaError bytes => Sys2Proof.Machine.execImageFetchDmaError bytes s
  | .imageChecksDone => Sys2Proof.Machine.execImageChecksDone s
  | .start => Sys2Proof.Machine.execStart s
  | .startExchangeReply peer reply => Sys2Proof.Machine.execStartExchangeReply peer reply s
  | .startMessageUp child covered => Sys2Proof.Machine.execStartMessageUp child covered s
  | .startMessageDown => Sys2Proof.Machine.execStartMessageDown s
  | .startTimeout => Sys2Proof.Machine.execStartTimeout s
  | .unload => Sys2Proof.Machine.execUnload s
  | .abort => Sys2Proof.Machine.execAbort s
  | .imageRetire => Sys2Proof.Machine.execImageRetire s
  | .imageRecheckDone => Sys2Proof.Machine.execImageRecheckDone s
  | .tickEdge late measured predicted => Sys2Proof.Machine.execTickEdge late measured predicted s
  | .stitchDone cycle => Sys2Proof.Machine.execStitchDone cycle s
  | .maintenanceSlot temps bad => Sys2Proof.Machine.execMaintenanceSlot temps bad s
  | .stitchOverrun past => Sys2Proof.Machine.execStitchOverrun past s
  | .edgeTimeoutHalt => Sys2Proof.Machine.execEdgeTimeoutHalt s
  | .ticketDoorbell => Sys2Proof.Machine.execTicketDoorbell s
  | .ticketDecision => Sys2Proof.Machine.execTicketDecision s
  | .admDonePop => Sys2Proof.Machine.execAdmDonePop s
  | .tickClrStats same => Sys2Proof.Machine.execTickClrStats same s
  | .deferredRequestStart => Sys2Proof.Machine.execDeferredRequestStart s
  | .tileDrain op => Sys2Proof.Machine.execTileDrain op s
  | .segmentConversionDone op => Sys2Proof.Machine.execSegmentConversionDone op s
  | .fmtClr same => Sys2Proof.Machine.execFmtClr same s
  | .qntClr same => Sys2Proof.Machine.execQntClr same s
  | .qntStatClr same => Sys2Proof.Machine.execQntStatClr same s
  | .heldBlockLoad op => Sys2Proof.Machine.execHeldBlockLoad op s
  | .heldPass op => Sys2Proof.Machine.execHeldPass op s
  | .gatheredPass op => Sys2Proof.Machine.execGatheredPass op s
  | .gatheredDrain engine => Sys2Proof.Machine.execGatheredDrain engine s
  | .mvProduct op => Sys2Proof.Machine.execMvProduct op s
  | .meTestStart => Sys2Proof.Machine.execMeTestStart s
  | .meTestDone engines paths => Sys2Proof.Machine.execMeTestDone engines paths s
  | .meStatClr same => Sys2Proof.Machine.execMeStatClr same s
  | .vectorChain core issue => Sys2Proof.Machine.execVectorChain core issue s
  | .veTestStart => Sys2Proof.Machine.execVeTestStart s
  | .veTestDone failed => Sys2Proof.Machine.execVeTestDone failed s
  | .veStatClr same => Sys2Proof.Machine.execVeStatClr same s
  | .veFlagsClr same => Sys2Proof.Machine.execVeFlagsClr same s
  | .dynamicArbitration router port eligible reuse wait => Sys2Proof.Machine.execDynamicArbitration router port eligible reuse wait s
  | .seamCrcFail die link again => Sys2Proof.Machine.execSeamCrcFail die link again s
  | .trlStatClr same => Sys2Proof.Machine.execTrlStatClr same s
  | .hbmRead addr who symbols wrong => Sys2Proof.Machine.execHbmRead addr who symbols wrong s
  | .hbmReadRetry addr who symbols bytes wrong => Sys2Proof.Machine.execHbmReadRetry addr who symbols bytes wrong s
  | .hbmWrite target data => Sys2Proof.Machine.execHbmWrite target data s
  | .writeBack channel => Sys2Proof.Machine.execWriteBack channel s
  | .patrolScrub channel symbols wrong => Sys2Proof.Machine.execPatrolScrub channel symbols wrong s
  | .writeCrcReject addr times => Sys2Proof.Machine.execWriteCrcReject addr times s
  | .memoryAtomic op fmt addr data fetch => Sys2Proof.Machine.execMemoryAtomic op fmt addr data fetch s
  | .mapWrite k value => Sys2Proof.Machine.execMapWrite k value s
  | .mapInTestDone channel pass => Sys2Proof.Machine.execMapInTestDone channel pass s
  | .hbmTempTimer temps => Sys2Proof.Machine.execHbmTempTimer temps s
  | .memTestStart ctrl => Sys2Proof.Machine.execMemTestStart ctrl s
  | .memTestDone failed => Sys2Proof.Machine.execMemTestDone failed s
  | .memScanStart ctrl => Sys2Proof.Machine.execMemScanStart ctrl s
  | .memScanDone results => Sys2Proof.Machine.execMemScanDone results s
  | .memStatClr same => Sys2Proof.Machine.execMemStatClr same s
  | .updateBlock unit tensor work => Sys2Proof.Machine.execUpdateBlock unit tensor work s
  | .updStatClr same => Sys2Proof.Machine.execUpdStatClr same s
  | .cloisterBlockArrival op => Sys2Proof.Machine.execCloisterBlockArrival op s
  | .blockAddition op => Sys2Proof.Machine.execBlockAddition op s
  | .classSCombine red differ slack => Sys2Proof.Machine.execClassSCombine red differ slack s
  | .classSResult red slack => Sys2Proof.Machine.execClassSResult red slack s
  | .classSDeadline red => Sys2Proof.Machine.execClassSDeadline red s
  | .cloStatClr same => Sys2Proof.Machine.execCloStatClr same s
  | .portTrainingDone port lanes => Sys2Proof.Machine.execPortTrainingDone port lanes s
  | .helloFrame port peer peerPort => Sys2Proof.Machine.execHelloFrame port peer peerPort s
  | .frameReceive port arrival => Sys2Proof.Machine.execFrameReceive port arrival s
  | .replayTimeout port => Sys2Proof.Machine.execReplayTimeout port s
  | .laneLockLoss port lane => Sys2Proof.Machine.execLaneLockLoss port lane s
  | .retrain => Sys2Proof.Machine.execRetrain s
  | .wakeSend => Sys2Proof.Machine.execWakeSend s
  | .beaconUp child msg delay => Sys2Proof.Machine.execBeaconUp child msg delay s
  | .beaconDown msg delay => Sys2Proof.Machine.execBeaconDown msg delay s
  | .slotAssign list => Sys2Proof.Machine.execSlotAssign list s
  | .pyuStatClr same => Sys2Proof.Machine.execPyuStatClr same s
  | .stileArm stile => Sys2Proof.Machine.execStileArm stile s
  | .stileArrive stile generation => Sys2Proof.Machine.execStileArrive stile generation s
  | .stileWait stile generation unit => Sys2Proof.Machine.execStileWait stile generation unit s
  | .stileTimeout stile => Sys2Proof.Machine.execStileTimeout stile s
  | .chainAppend chain record => Sys2Proof.Machine.execChainAppend chain record s
  | .chainRead chain offset length => Sys2Proof.Machine.execChainRead chain offset length s
  | .commitVote => Sys2Proof.Machine.execCommitVote s
  | .commitDecide => Sys2Proof.Machine.execCommitDecide s
  | .voteDeadline => Sys2Proof.Machine.execVoteDeadline s
  | .commitDecisionReceive d => Sys2Proof.Machine.execCommitDecisionReceive d s
  | .commitRelease => Sys2Proof.Machine.execCommitRelease s
  | .lateCommit => Sys2Proof.Machine.execLateCommit s
  | .keep => Sys2Proof.Machine.execKeep s
  | .adopt => Sys2Proof.Machine.execAdopt s
  | .stlStatClr same => Sys2Proof.Machine.execStlStatClr same s
  | .pltStatClr same => Sys2Proof.Machine.execPltStatClr same s
  | .queueEnable ctrl => Sys2Proof.Machine.execQueueEnable ctrl s
  | .queueDisable => Sys2Proof.Machine.execQueueDisable s
  | .queueDrainDone => Sys2Proof.Machine.execQueueDrainDone s
  | .tqTailWrite index => Sys2Proof.Machine.execTqTailWrite index s
  | .ticketFetch t => Sys2Proof.Machine.execTicketFetch t s
  | .aqHeadWrite index => Sys2Proof.Machine.execAqHeadWrite index s
  | .cqHeadWrite index => Sys2Proof.Machine.execCqHeadWrite index s
  | .dmaEnable engine ctrl => Sys2Proof.Machine.execDmaEnable engine ctrl s
  | .dmaDisable engine moved => Sys2Proof.Machine.execDmaDisable engine moved s
  | .dmaTailWrite engine index => Sys2Proof.Machine.execDmaTailWrite engine index s
  | .descriptorStart engine d => Sys2Proof.Machine.execDescriptorStart engine d s
  | .descriptorDone engine tag data => Sys2Proof.Machine.execDescriptorDone engine tag data s
  | .msixCoalesceEnd vector => Sys2Proof.Machine.execMsixCoalesceEnd vector s
  | .msixUnmask vector => Sys2Proof.Machine.execMsixUnmask vector s
  | .bar2Read offset length => Sys2Proof.Machine.execBar2Read offset length s
  | .bar2Write offset data => Sys2Proof.Machine.execBar2Write offset data s
  | .pciWinBaseWrite value => Sys2Proof.Machine.execPciWinBaseWrite value s
  | .bar0BadAccess offset size write => Sys2Proof.Machine.execBar0BadAccess offset size write s
  | .poisonedTlp => Sys2Proof.Machine.execPoisonedTlp s
  | .malformedTlp => Sys2Proof.Machine.execMalformedTlp s
  | .correctableLinkError => Sys2Proof.Machine.execCorrectableLinkError s
  | .unsupportedRequest => Sys2Proof.Machine.execUnsupportedRequest s
  | .completionTimeout engine tag hostEnd => Sys2Proof.Machine.execCompletionTimeout engine tag hostEnd s
  | .d3hotWrite => Sys2Proof.Machine.execD3hotWrite s
  | .d0Write => Sys2Proof.Machine.execD0Write s
  | .d3hotDeferredEntry => Sys2Proof.Machine.execD3hotDeferredEntry s
  | .doeDiscovery index length => Sys2Proof.Machine.execDoeDiscovery index length s
  | .doeAbort => Sys2Proof.Machine.execDoeAbort s
  | .pciStatClr same => Sys2Proof.Machine.execPciStatClr same s
  | .powerControlPeriod junctions => Sys2Proof.Machine.execPowerControlPeriod junctions s
  | .droopTrip core => Sys2Proof.Machine.execDroopTrip core s
  | .droopRelease core cycles => Sys2Proof.Machine.execDroopRelease core cycles s
  | .capWrite value => Sys2Proof.Machine.execCapWrite value s
  | .ackStale => Sys2Proof.Machine.execAckStale s
  | .a1AutoEntry => Sys2Proof.Machine.execA1AutoEntry s
  | .targetA0 => Sys2Proof.Machine.execTargetA0 s
  | .targetA1 => Sys2Proof.Machine.execTargetA1 s
  | .targetA2 => Sys2Proof.Machine.execTargetA2 s
  | .mgmtEnterA2 => Sys2Proof.Machine.execMgmtEnterA2 s
  | .mgmtEnterA3 => Sys2Proof.Machine.execMgmtEnterA3 s
  | .mgmtWake => Sys2Proof.Machine.execMgmtWake s
  | .mgmtRearm => Sys2Proof.Machine.execMgmtRearm s
  | .entryDone => Sys2Proof.Machine.execEntryDone s
  | .wakeEvent kind => Sys2Proof.Machine.execWakeEvent kind s
  | .wakeDomainReady failed => Sys2Proof.Machine.execWakeDomainReady failed s
  | .wakeFail => Sys2Proof.Machine.execWakeFail s
  | .onDemandAccess function => Sys2Proof.Machine.execOnDemandAccess function s
  | .sensorSample x => Sys2Proof.Machine.execSensorSample x s
  | .lodgeStop => Sys2Proof.Machine.execLodgeStop s
  | .mailboxGo ctrl req => Sys2Proof.Machine.execMailboxGo ctrl req s
  | .mctpI3cRequest req => Sys2Proof.Machine.execMctpI3cRequest req s
  | .firstEnrollment keyDigest => Sys2Proof.Machine.execFirstEnrollment keyDigest s
  | .enrollmentGo => Sys2Proof.Machine.execEnrollmentGo s
  | .enrollmentCheck => Sys2Proof.Machine.execEnrollmentCheck s
  | .queryDeviceIdentifiers => Sys2Proof.Machine.execQueryDeviceIdentifiers s
  | .getFirmwareParameters => Sys2Proof.Machine.execGetFirmwareParameters s
  | .requestUpdate outstanding => Sys2Proof.Machine.execRequestUpdate outstanding s
  | .passComponentTable component => Sys2Proof.Machine.execPassComponentTable component s
  | .updateComponent component length => Sys2Proof.Machine.execUpdateComponent component length s
  | .requestFirmwareData offset data => Sys2Proof.Machine.execRequestFirmwareData offset data s
  | .transferComplete => Sys2Proof.Machine.execTransferComplete s
  | .verifyComplete => Sys2Proof.Machine.execVerifyComplete s
  | .applyComplete => Sys2Proof.Machine.execApplyComplete s
  | .activateFirmware => Sys2Proof.Machine.execActivateFirmware s
  | .getStatus => Sys2Proof.Machine.execGetStatus s
  | .cancelUpdate => Sys2Proof.Machine.execCancelUpdate s
  | .getVersion => Sys2Proof.Machine.execGetVersion s
  | .getCapabilities => Sys2Proof.Machine.execGetCapabilities s
  | .negotiateAlgorithms offered => Sys2Proof.Machine.execNegotiateAlgorithms offered s
  | .getDigests => Sys2Proof.Machine.execGetDigests s
  | .getCertificate slot offset length => Sys2Proof.Machine.execGetCertificate slot offset length s
  | .challenge slot nonce => Sys2Proof.Machine.execChallenge slot nonce s
  | .getMeasurements index signed nonce => Sys2Proof.Machine.execGetMeasurements index signed nonce s
  | .ledgerRead offset length => Sys2Proof.Machine.execLedgerRead offset length s
  | .snapshotRead offset length => Sys2Proof.Machine.execSnapshotRead offset length s
  | .seedWrite index value => Sys2Proof.Machine.execSeedWrite index value s
  | .seedWritePersist => Sys2Proof.Machine.execSeedWritePersist s
  | .weeklySummary => Sys2Proof.Machine.execWeeklySummary s
  | .allowancePeriod => Sys2Proof.Machine.execAllowancePeriod s
  | .hltSnap => Sys2Proof.Machine.execHltSnap s
  | .hltSnapDone => Sys2Proof.Machine.execHltSnapDone s
  | .belSnap => Sys2Proof.Machine.execBelSnap s
  | .belSnapAtEdge => Sys2Proof.Machine.execBelSnapAtEdge s
  | .belSnapDone cycle => Sys2Proof.Machine.execBelSnapDone cycle s
  | .belMark value => Sys2Proof.Machine.execBelMark value s
  | .traceRecordArrival die failed => Sys2Proof.Machine.execTraceRecordArrival die failed s
  | .traceGroupFlush die failed => Sys2Proof.Machine.execTraceGroupFlush die failed s
  | .ringEnable die ctrl => Sys2Proof.Machine.execRingEnable die ctrl s
  | .ringHeadWrite die value => Sys2Proof.Machine.execRingHeadWrite die value s
  | .topClrStats same => Sys2Proof.Machine.execTopClrStats same s
  | .registerWrite offset size value => Sys2Proof.Machine.execRegisterWrite offset size value s
  | .a1ReturnRequest => Sys2Proof.Machine.execA1ReturnRequest s
  | .configurationRequest req => Sys2Proof.Machine.execConfigurationRequest req s
  | .dynamicAddressAssignment addr => Sys2Proof.Machine.execDynamicAddressAssignment addr s

end Sys2Proof.Machine
end

