-- ==== Sys2Proof/Safety.lean ====
section
/-! DEFINITION. What a safe state is, and the terms in which statements speak of two states: canonical stores, the parts
that a command leaves alone, the records that only grow, and the conditions under which a request acts at once. -/

namespace Sys2Proof.Machine

/-- Memory is in canonical form: addresses strictly rising, no byte equal to 0. -/
def Memory.wf (m : Bytes) : Bool := storeWf 0 m

/-- A state whose memory and register file are in canonical form. -/
def State.inv (s : State) : Prop := Memory.wf s.mem = true ∧ storeWf 0 s.regs = true

/-- The channels' buffers are as the module fills them (R221, R233): canonical stores, and for each channel write-combining
entries of distinct lines of the channel, each with the 64 bytes of its line. -/
def State.combineOk (s : State) : Prop :=
  storeWf [] s.hbm.wcb = true ∧ storeWf [] s.hbm.writeBacks = true ∧ storeWf 0 s.hbm.scrub = true ∧ ∀ p ∈ s.hbm.wcb, (p.2.map WcbEntry.line).Nodup ∧
    ∀ e ∈ p.2, e.line < 31250000 ∧ e.data.length = 64

/-- The stores of the engines, of the arbiters and of the adder's operands are in canonical form. -/
def State.enginesOk (s : State) : Prop :=
  storeWf 0 s.me.tile = true ∧ storeWf 0 s.me.acc = true ∧ storeWf 0 s.me.leaving = true ∧ storeWf 0 s.me.thin = true ∧
    storeWf 0 s.me.bank = true ∧ storeWf 0 s.ve.regs = true ∧ storeWf 0 s.ve.masks = true ∧ storeWf 0 s.ve.bufs = true ∧
    storeWf 0 s.clo.ops = true ∧ storeWf {} s.trl.arbs = true ∧ ∀ p ∈ s.trl.arbs, storeWf 0 p.2.passed = true

/-- The parts of the state, one name per field. -/
inductive Part where
  | pending | regs | mem | free | out | heldOut | boot | image | tick | adm | seg | me | ve
  | stl | hbm | upd | clo | trl | pyu | pwr | ldg | host | sec | sbk | hlt | bel
deriving DecidableEq, Repr

/-- A part is the same in two states. -/
def State.agree (s t : State) : Part → Prop
  | .pending => t.pending = s.pending
  | .regs => t.regs = s.regs
  | .mem => t.mem = s.mem
  | .free => t.free = s.free
  | .out => t.out = s.out
  | .heldOut => t.heldOut = s.heldOut
  | .boot => t.boot = s.boot
  | .image => t.image = s.image
  | .tick => t.tick = s.tick
  | .adm => t.adm = s.adm
  | .seg => t.seg = s.seg
  | .me => t.me = s.me
  | .ve => t.ve = s.ve
  | .stl => t.stl = s.stl
  | .hbm => t.hbm = s.hbm
  | .upd => t.upd = s.upd
  | .clo => t.clo = s.clo
  | .trl => t.trl = s.trl
  | .pyu => t.pyu = s.pyu
  | .pwr => t.pwr = s.pwr
  | .ldg => t.ldg = s.ldg
  | .host => t.host = s.host
  | .sec => t.sec = s.sec
  | .sbk => t.sbk = s.sbk
  | .hlt => t.hlt = s.hlt
  | .bel => t.bel = s.bel

/-- Every part but those listed is the same in two states. -/
def State.keeps (s t : State) (but : List Part) : Prop := ∀ p, p ∉ but → s.agree t p

/-- Every register but those listed is the same in two states. -/
def State.sameRegs (s t : State) (but : List Nat) : Prop := ∀ o, o ∉ but → t.reg o = s.reg o

/-- Every byte reads the same by its device address in two states. -/
def State.sameBytes (s t : State) : Prop := ∀ a, t.devByte a = s.devByte a

/-- Only the listed parts may differ, in the register file only the listed registers; every byte of memory reads as before. -/
def State.touches (s t : State) (parts : List Part) (regs : List Nat) : Prop :=
  s.keeps t parts ∧ s.sameRegs t regs ∧ s.sameBytes t

/-- Epoch, current slab, and the state of the other one are the same in two states. -/
def State.sameSlabs (s t : State) : Prop :=
  t.upd.epoch = s.upd.epoch ∧ t.upd.slabB = s.upd.slabB ∧ t.upd.shadow = s.upd.shadow ∧ t.upd.shadowStep = s.upd.shadowStep

/-- The parts that an event may change: its register, and its vector's message. -/
def Part.signalled : List Part := [.regs, .out, .heldOut, .host]

/-- The health ledger only grows: what was written stays, HLT_TAIL and the sequence number never go back (R397, R398). -/
def Ledger.grows (a b : Ledger) : Prop :=
  a.tail ≤ b.tail ∧ a.records ≤ b.records ∧ ∀ k, k < a.tail → storeGet 0 b.bytes k = storeGet 0 a.bytes k

/-- A memory request of the host acts at once: the module serves it, and no return from A1 comes before it. -/
def State.hosted (s : State) : Prop := s.serving = true ∧ s.inA1 = false

/-- A management request acts at once: the Lodge is alive, and no return from A1 comes before it. -/
def State.managed (s : State) : Prop := s.boot.powered = true ∧ 1 ≤ s.boot.step ∧ s.inA1 = false

/-- A request to the DOE mailbox acts at once. -/
def State.mailed (s : State) : Prop := s.configOn = true ∧ s.asleep = false ∧ s.inA1 = false

/-! ## Statistics clears (R439) -/

/-- What a statistics clear resets: the registers that a selector banks by unit, each to 0; the others, each with its value
after the clear. -/
structure Cleared where
  banked : List Nat := []
  plain : List (Nat × Nat) := []

def Cleared.join (a b : Cleared) : Cleared := ⟨a.banked ++ b.banked, a.plain ++ b.plain⟩

/-- TICK_CTRL.CLR_STATS (R77). -/
def clearedTick : Cleared :=
  { plain := [(Reg.TICK_LATE_MAX, 0), (Reg.TICK_LATE_COUNT, 0), (Reg.TICK_RESOLE_PEAK, 0), (Reg.TICK_SLACK_MIN, 0x1FFFFFF)] }

/-- FMT_CTRL.CLR (R104). -/
def clearedFmt : Cleared :=
  { plain := [(Reg.FMT_SAT_COUNT, 0), (Reg.FMT_FLUSH_COUNT, 0), (Reg.FMT_NF_COUNT, 0), (Reg.FMT_ORPHAN_COUNT, 0),
      (Reg.FMT_NF_WHERE, 0), (Reg.FMT_NF_TENSOR, 0), (Reg.FMT_NF_TILE, 0), (Reg.FMT_NF_BITS, 0), (Reg.FMT_NF_TICK, 0)] }

/-- QNT_CTRL.CLR (R123). -/
def clearedQnt : Cleared :=
  { plain := [(Reg.QNT_SEG_COUNT, 0), (Reg.QNT_EYELET_OUTLIER, 0), (Reg.QNT_EYELET_SPECIAL, 0),
      (Reg.QNT_BUDGET_OUT_COUNT, 0), (Reg.QNT_DOMINANT_COUNT, 0), (Reg.QNT_ZERO_BLOCK_COUNT, 0), (Reg.QNT_ROT_WINDOWS, 0),
      (Reg.QNT_OUT_TENSOR, 0), (Reg.QNT_OUT_SEGMENT, 0), (Reg.QNT_OUT_TICK, 0)] }

/-- QNT_STAT_CTRL.CLR (R145). -/
def clearedResole : Cleared :=
  { plain := [(Reg.QNT_RESOLE_OUT, 0), (Reg.QNT_RESOLE_LAYER, 0), (Reg.QNT_RESOLE_DENIED, 0),
      (Reg.QNT_RESOLE_SUPPRESSED, 0), (Reg.QNT_TOP_CROSS, 0), (Reg.QNT_SPOIL_COUNT, 0), (Reg.QNT_SPOIL_LAST, 0),
      (Reg.QNT_SPOIL_TICK, 0)] }

/-- ME_STAT_CTRL.CLR (R164). -/
def clearedMe : Cleared :=
  { banked := [Reg.ME_PASSES, Reg.ME_STALL_ROW, Reg.ME_STALL_COL, Reg.ME_STALL_CORR, Reg.ME_MV_PRODUCTS, Reg.ME_LAG_MAX] }

/-- VE_STAT_CTRL.CLR (R191). -/
def clearedVe : Cleared := { banked := [Reg.VE_CHAINS, Reg.VE_STALL, Reg.VE_WAIT, Reg.VE_TILEBUF, Reg.VE_DRAWS] }

/-- TRL_STAT_CTRL.CLR (R212). -/
def clearedTrl : Cleared :=
  { banked := [Reg.TRL_DYN_GRANTS, Reg.TRL_SLOT_REUSE, Reg.TRL_PROMOTIONS, Reg.TRL_WAIT_MAX],
    plain := [(Reg.TRL_SEAM_REPLAY, 0), (Reg.TRL_SPAD_PROMOTE, 0)] }

/-- MEM_STAT_CTRL.CLR (R236). -/
def clearedMem : Cleared :=
  { banked := [Reg.MEM_CE_COUNT, Reg.MEM_UE_COUNT, Reg.MEM_RETRY_COUNT],
    plain := [(Reg.MEM_WCB_EVICT, 0), (Reg.MEM_ATOMICS, 0), (Reg.MEM_WB_DROP, 0), (Reg.MEM_UE_ADDR, 0), (Reg.MEM_UE_TICK, 0),
      (Reg.MEM_UE_INFO, 0)] }

/-- UPD_STAT_CTRL.CLR (R254). -/
def clearedUpd : Cleared :=
  { plain := [(Reg.UPD_PARAMS, 0), (Reg.UPD_FROZEN_DROPS, 0), (Reg.UPD_NF_COUNT, 0), (Reg.UPD_REFRESHED, 0),
      (Reg.UPD_NF_TENSOR, 0)] }

/-- CLO_STAT_CTRL.CLR (R273). -/
def clearedClo : Cleared :=
  { plain := [(Reg.CLO_BLOCKS_TX, 0), (Reg.CLO_BLOCKS_RX, 0), (Reg.CLO_ADDS, 0), (Reg.CLO_SAT_COUNT, 0),
      (Reg.CLO_RECOMPUTE, 0), (Reg.CLO_S_DONE, 0), (Reg.CLO_S_LATE, 0), (Reg.CLO_S_DROPS, 0), (Reg.CLO_FAIL_INFO, 0),
      (Reg.CLO_FAIL_TICK, 0), (Reg.CLO_S_SLACK_MIN, 0xFFFFFF)] }

/-- PYU_STAT_CTRL.CLR (R298). -/
def clearedPyu : Cleared :=
  { banked := [Reg.PYU_FRAMES_TX, Reg.PYU_FRAMES_RX, Reg.PYU_FEC_CORR, Reg.PYU_FEC_UNCORR, Reg.PYU_REPLAYS],
    plain := [(Reg.PYU_BEACON_MAX, 0), (Reg.PYU_XCH_ROUTED, 0), (Reg.PYU_XCH_DROPS, 0), (Reg.PYU_XCH_BAD, 0),
      (Reg.PYU_XCH_CUT, 0), (Reg.PYU_XCH_DROP_MAX, 0)] }

/-- STL_STAT_CTRL.CLR (R316). -/
def clearedStl : Cleared := { plain := [(Reg.STL_RELEASES, 0), (Reg.STL_TIMEOUTS, 0), (Reg.STL_OVER, 0)] }

/-- PLT_STAT_CTRL.CLR (R317). -/
def clearedPlt : Cleared := { plain := [(Reg.PLT_CHAIN_FULL, 0)] }

/-- PCI_STAT_CTRL.CLR (R343). -/
def clearedPci : Cleared := { plain := [(Reg.PCI_ERR_COUNT, 0), (Reg.PCI_BYTES_IN, 0), (Reg.PCI_BYTES_OUT, 0)] }

/-- TOP_CTRL.CLR_STATS: every clear of a block, but for VE_FLAGS (R426). -/
def clearedTop : Cleared :=
  [clearedFmt, clearedQnt, clearedResole, clearedMe, clearedVe, clearedTrl, clearedMem, clearedUpd, clearedClo, clearedPyu,
    clearedStl, clearedPlt, clearedPci].foldl Cleared.join clearedTick

/-- What a statistics clear resets, and the amounts that the events of its cycle added. -/
def clearOf : Instr → Option (Cleared × List (Nat × Nat))
  | .tickClrStats same => some (clearedTick, same)
  | .fmtClr same => some (clearedFmt, same)
  | .qntClr same => some (clearedQnt, same)
  | .qntStatClr same => some (clearedResole, same)
  | .meStatClr same => some (clearedMe, same)
  | .veStatClr same => some (clearedVe, same)
  | .veFlagsClr same => some ({ banked := [Reg.VE_FLAGS] }, same)
  | .trlStatClr same => some (clearedTrl, same)
  | .memStatClr same => some (clearedMem, same)
  | .updStatClr same => some (clearedUpd, same)
  | .cloStatClr same => some (clearedClo, same)
  | .pyuStatClr same => some (clearedPyu, same)
  | .stlStatClr same => some (clearedStl, same)
  | .pltStatClr same => some (clearedPlt, same)
  | .pciStatClr same => some (clearedPci, same)
  | .topClrStats same => some (clearedTop, same)
  | _ => none

/-- The amount that the events of a clear's cycle added to a register, if any. -/
def amountOf (same : List (Nat × Nat)) (o : Nat) : Option Nat := (same.reverse.find? fun p => p.1 = o).map Prod.snd

end Sys2Proof.Machine
end

