-- ==== Sys2Proof/WellFormed.lean ====
section
/-! DEFINITION. Well-formed commands: operands as the spec's senders can give them. No meaning rests on it: every command has
its effect on any operands. -/

namespace Sys2Proof

/-- One reading for each of the eight stacks, in °C (R231, R236). -/
def tempsOk (temps : List Nat) : Bool := decide (temps.length = 8) && temps.all fun t => decide (t < 256)

/-- A staging buffer and the survey area after it lie in an Orangery: device addresses (R111, R419). -/
def stagingOk (staging : Nat) : Bool := decide (staging < 2 ^ 41)

/-- A drain stages a tile, writes it at a 512-B column of its core's scratchpad, or sends it to an encoder in whole blocks (R106, R160,
R170, R255). -/
def DrainOp.wf (op : DrainOp) : Bool :=
  match op.dest with
  | .stage staging _ => stagingOk staging
  | .encoder plot first => decide (plot < 262144 ∧ first % 32 = 0)
  | .scratchpad _ offset _ => decide (offset < 2097152)

/-- A conversion gives every rung that it may reach a place, one cost less than places, and a plot of the module (R127, R131, R137). -/
def ConvOp.wf (op : ConvOp) : Bool :=
  decide (1 ≤ op.places.length ∧ op.places.length ≤ op.costs.length + 1) && (op.plot.map fun p => decide (p < 262144)).getD true

/-- A chain has 1 to 8 stages; one with a reduction only may have none before it (R178). A combination names the plot of its results
and as many input buffers as the stream has experts, at most 512 (R292, R296). -/
def VeIssue.wf : VeIssue → Bool
  | .chain c => decide (c.stages.length + c.red.isSome.toNat ≤ 8 ∧ 1 ≤ c.stages.length + c.red.isSome.toNat)
  | .combine c => decide (c.plot < 262144 ∧ c.inputs.length ≤ 512)
  | .kand _ _ _ | .kor _ _ _ | .knot _ _ | .kld _ _ | .kst _ _ => true

/-- What a miscorrected read returns: from 1 to 3 symbols that the decoder takes itself to have corrected, and a line (R214). -/
def wrongOk (wrong : Option (Nat × List Byte)) : Bool :=
  (wrong.map fun w => decide (1 ≤ w.1 ∧ w.1 ≤ 3 ∧ w.2.length = 64)).getD true

/-- A write names an address or an offset in an update's other copy, and data (R239, R419). -/
def hbmWriteWf (target : WriteTarget) (data : List Byte) : Bool :=
  decide (1 ≤ data.length) && match target with
    | .to addr => decide (addr < 2 ^ 41)
    | .update _ _ => true

/-- An addition has 2 to 16 operands, the block from the ring among them or not (R256); one local contribution alone starts a chunk's
way (R266). -/
def BlockAdd.wf (op : BlockAdd) : Bool := decide (1 ≤ op.locals.length ∧ op.locals.length + op.ring.toNat ≤ 16)

/-- A Class S vector has 1 to 32 elements (R269). -/
def SReduce.wf (r : SReduce) : Bool := decide (1 ≤ r.count ∧ r.count ≤ 32)

/-- Bytes of an atomic's element (R235); a swap has any whole number of bytes. -/
def AtomicFmt.bytes : AtomicFmt → Nat
  | .fp32 => 4 | .bf16 => 2 | .int32 => 4 | .int64 => 8 | .raw => 1

/-- An atomic covers 4 to 256 B, a whole number of elements, naturally aligned, within one 256-B block (R235). -/
def atomicWf (op : AtomicOp) (fmt : AtomicFmt) (addr : Nat) (data : List Byte) : Bool :=
  let n := data.length
  decide (4 ≤ n ∧ n ≤ 256 ∧ n % fmt.bytes = 0 ∧ addr % fmt.bytes = 0 ∧ addr % 256 + n ≤ 256) &&
    (decide (op = .swap) || decide (fmt ≠ .raw))

/-- The fields of a frame's control word (R277, R278). -/
def Frame.wf (f : Frame) : Bool :=
  decide (f.kind < 16 ∧ f.flits ≤ 20 ∧ f.plot < 262144 ∧ f.seq < 4096 ∧ f.ack < 4096 ∧ f.payload.length ≤ 5120)

/-- Every sensor is sampled (R373). -/
def Samples.wf (x : Samples) : Bool :=
  decide (x.junctions.length = 128 ∧ x.stackTemps.length = 8 ∧ x.stages.length = 32)

/-- The BAR2 sizes of the Resizable BAR capability (R321). -/
def CfgReq.wf : CfgReq → Bool
  | .resize n => decide (28 ≤ n ∧ n ≤ 40)
  | .read _ _ | .write _ _ _ => true

/-- An access that R422 does not let through as it stands: anything but an aligned write of 4 bytes to a 32-bit register, or
an aligned access of 8; a write of an aligned word is one to half of a 64-bit register. -/
def badAccessWf (offset size : Nat) (write : Bool) : Bool :=
  decide (offset < 67108864) && (decide (size = 1) || decide (size = 2) || decide (size = 4) || decide (size = 8)) &&
    !(write && decide (size = 8) && decide (offset % 8 = 0))

/-- A write of 4 or 8 bytes, or of more in whole aligned words (R422). -/
def registerWriteWf (offset size value : Nat) : Bool :=
  decide (offset < 67108864 ∧ value < 2 ^ (8 * size)) &&
    (decide (size = 4) || decide (size = 8) || decide (8 < size ∧ size % 4 = 0 ∧ offset % 4 = 0))

/-- A command as its sender can give it. -/
def Instr.wf : Instr → Bool
  | .powerValid48v _ => true
  | .lodgeAlive => true
  | .bootVerified => true
  | .pyurnTrainingOpen => true
  | .trainingRetry _ => true
  | .hbmTrainingDone _ => true
  | .moduleReady => true
  | .linkUp speed width _ => decide (1 ≤ speed ∧ speed ≤ 7 ∧ 1 ≤ width ∧ width ≤ 16)
  | .linkDown _ => true
  | .hostSideReset _ _ => true
  | .hostResetAfterCommit _ => true
  | .perstDeassert => true
  | .load => true
  | .imageFetchDone file => decide (file.raw.length ≤ 1073741824)
  | .imageFetchDmaError _ => true
  | .imageChecksDone => true
  | .start => true
  | .startExchangeReply _ _ => true
  | .startMessageUp _ covered => decide (covered < 32768)
  | .startMessageDown => true
  | .startTimeout => true
  | .unload => true
  | .abort => true
  | .imageRetire => true
  | .imageRecheckDone => true
  | .tickEdge _ _ _ => true
  | .stitchDone _ => true
  | .maintenanceSlot temps _ => tempsOk temps
  | .stitchOverrun _ => true
  | .edgeTimeoutHalt => true
  | .ticketDoorbell => true
  | .ticketDecision => true
  | .admDonePop => true
  | .tickClrStats _ => true
  | .deferredRequestStart => true
  | .tileDrain op => op.wf
  | .segmentConversionDone ops => decide (1 ≤ ops.length) && ops.all ConvOp.wf
  | .fmtClr _ => true
  | .qntClr _ => true
  | .qntStatClr _ => true
  | .heldBlockLoad op => decide (op.first < op.length)
  | .heldPass op => decide (1 ≤ op.rows ∧ op.firstRow + op.rows ≤ 128)
  | .gatheredPass op => decide (1 ≤ op.rows ∧ op.rows ≤ 128)
  | .gatheredDrain _ => true
  | .mvProduct op => decide (1 ≤ op.rows ∧ op.rows ≤ 8 ∧ 1 ≤ op.depth ∧ 1 ≤ op.cols)
  | .meTestStart => true
  | .meTestDone _ _ => true
  | .meStatClr _ => true
  | .vectorChain _ issue => issue.wf
  | .veTestStart => true
  | .veTestDone _ => true
  | .veStatClr _ => true
  | .veFlagsClr _ => true
  | .dynamicArbitration _ _ eligible _ _ => decide eligible.Nodup
  | .seamCrcFail _ _ _ => true
  | .trlStatClr _ => true
  | .hbmRead _ _ _ wrong => wrongOk wrong
  | .hbmReadRetry _ _ _ bytes wrong => decide (bytes.length = 64) && wrongOk wrong
  | .hbmWrite target data => hbmWriteWf target data
  | .writeBack _ => true
  | .patrolScrub _ _ wrong => wrongOk wrong
  | .writeCrcReject _ times => decide (1 ≤ times)
  | .memoryAtomic op fmt addr data _ => atomicWf op fmt addr data
  | .mapWrite _ _ => true
  | .mapInTestDone _ _ => true
  | .hbmTempTimer temps => tempsOk temps
  | .memTestStart _ => true
  | .memTestDone _ => true
  | .memScanStart _ => true
  | .memScanDone results => results.all fun r => decide (r.pin < 72)
  | .memStatClr _ => true
  | .updateBlock _ _ _ => true
  | .updStatClr _ => true
  | .cloisterBlockArrival op => decide (op.plot < 262144)
  | .blockAddition op => op.wf
  | .classSCombine red _ _ => red.wf
  | .classSResult red _ => red.wf
  | .classSDeadline red => red.wf
  | .cloStatClr _ => true
  | .portTrainingDone _ _ => true
  | .helloFrame _ _ _ => true
  | .frameReceive _ arrival => arrival.frame.wf
  | .replayTimeout _ => true
  | .laneLockLoss _ _ => true
  | .retrain => true
  | .wakeSend => true
  | .beaconUp _ _ _ => true
  | .beaconDown _ _ => true
  | .slotAssign _ => true
  | .pyuStatClr _ => true
  | .stileArm _ => true
  | .stileArrive _ _ => true
  | .stileWait _ _ _ => true
  | .stileTimeout _ => true
  | .chainAppend _ record => decide (1 ≤ record.length)
  | .chainRead _ _ _ => true
  | .commitVote => true
  | .commitDecide => true
  | .voteDeadline => true
  | .commitDecisionReceive _ => true
  | .commitRelease => true
  | .lateCommit => true
  | .keep => true
  | .adopt => true
  | .stlStatClr _ => true
  | .pltStatClr _ => true
  | .queueEnable _ => true
  | .queueDisable => true
  | .queueDrainDone => true
  | .tqTailWrite _ => true
  | .ticketFetch _ => true
  | .aqHeadWrite _ => true
  | .cqHeadWrite _ => true
  | .dmaEnable _ _ => true
  | .dmaDisable _ _ => true
  | .dmaTailWrite _ _ => true
  | .descriptorStart _ _ => true
  | .descriptorDone _ _ _ => true
  | .msixCoalesceEnd _ => true
  | .msixUnmask _ => true
  | .bar2Read _ length => decide (1 ≤ length)
  | .bar2Write _ data => decide (1 ≤ data.length)
  | .pciWinBaseWrite _ => true
  | .bar0BadAccess offset size write => badAccessWf offset size write
  | .poisonedTlp => true
  | .malformedTlp => true
  | .correctableLinkError => true
  | .unsupportedRequest => true
  | .completionTimeout _ _ _ => true
  | .d3hotWrite => true
  | .d0Write => true
  | .d3hotDeferredEntry => true
  | .doeDiscovery _ _ => true
  | .doeAbort => true
  | .pciStatClr _ => true
  | .powerControlPeriod junctions => decide (junctions.length = 128)
  | .droopTrip _ => true
  | .droopRelease _ _ => true
  | .capWrite _ => true
  | .ackStale => true
  | .a1AutoEntry => true
  | .targetA0 => true
  | .targetA1 => true
  | .targetA2 => true
  | .mgmtEnterA2 => true
  | .mgmtEnterA3 => true
  | .mgmtWake => true
  | .mgmtRearm => true
  | .entryDone => true
  | .wakeEvent _ => true
  | .wakeDomainReady _ => true
  | .wakeFail => true
  | .onDemandAccess _ => true
  | .sensorSample x => x.wf
  | .lodgeStop => true
  | .mailboxGo _ _ => true
  | .mctpI3cRequest _ => true
  | .firstEnrollment _ => true
  | .enrollmentGo => true
  | .enrollmentCheck => true
  | .queryDeviceIdentifiers => true
  | .getFirmwareParameters => true
  | .requestUpdate _ => true
  | .passComponentTable _ => true
  | .updateComponent _ _ => true
  | .requestFirmwareData _ _ => true
  | .transferComplete => true
  | .verifyComplete => true
  | .applyComplete => true
  | .activateFirmware => true
  | .getStatus => true
  | .cancelUpdate => true
  | .getVersion => true
  | .getCapabilities => true
  | .negotiateAlgorithms _ => true
  | .getDigests => true
  | .getCertificate _ _ _ => true
  | .challenge _ _ => true
  | .getMeasurements _ _ _ => true
  | .ledgerRead _ _ => true
  | .snapshotRead _ _ => true
  | .seedWrite _ _ => true
  | .seedWritePersist => true
  | .weeklySummary => true
  | .allowancePeriod => true
  | .hltSnap => true
  | .hltSnapDone => true
  | .belSnap => true
  | .belSnapAtEdge => true
  | .belSnapDone _ => true
  | .belMark _ => true
  | .traceRecordArrival _ _ => true
  | .traceGroupFlush _ _ => true
  | .ringEnable _ _ => true
  | .ringHeadWrite _ _ => true
  | .topClrStats _ => true
  | .registerWrite offset size value => registerWriteWf offset size value
  | .a1ReturnRequest => true
  | .configurationRequest req => req.wf
  | .dynamicAddressAssignment _ => true

end Sys2Proof
end

