-- ==== Sys2Proof/Certificates/Slice0/Obligations.lean ====
section
/-! DEFINITION. The statements about the model that the provers prove: the whole machine first, then family by family. -/

open Sys2Proof Sys2Proof.Machine

/-! ## The whole machine -/

/-- A step takes the command at the front of the queue and runs it on the state with the queue's rest. That an empty queue idles
is the model's choice (log 1). A step only takes the command at the front of the queue away. -/
def Obligations.StepRunsFrontCommand : Prop :=
  (∀ s : State, (∀ c rest, s.pending = c :: rest → step s = exec c { s with pending := rest }) ∧
     (s.pending = [] → step s = .next s)) ∧
  (∀ s t : State, step s = .next t → t.pending = s.pending.tail)

/-- Every command is answered by a next state: none stops the module. -/
def Obligations.EveryCommandAnswers : Prop :=
  ∀ (c : Instr) (s : State), ∃ t, exec c s = .next t

/-- The register file after reset: the values the block tables give. A register without a value there reads 0. After reset no
image is held, no tick runs, the epoch counter reads 0, slab A is current, the ledger ends at 528 with one record, and the
stores are in canonical form. -/
def Obligations.ResetState : Prop :=
  (∀ o : Nat, State.reset.reg o =
     if o = Reg.TOP_PART then 0x04740512
     else if o = Reg.TOP_VERSION then 0x00010101
     else if o = Reg.TICK_CTRL then 0x00000004
     else if o = Reg.TICK_SLACK_MIN then 0x01FFFFFF
     else if o = Reg.TRL_WEIGHTS then 0x00114488
     else if o = Reg.MEM_TEMP0 then 0xFFFFFFFF
     else if o = Reg.MEM_TEMP1 then 0xFFFFFFFF
     else if o = Reg.CLO_S_SLACK_MIN then 0x00FFFFFF
     else if o = Reg.PYU_WAKE then 0x0000FFFF
     else if o = Reg.PCI_WIN_SIZE then 0x0000001C
     else if o = Reg.PWR_LIMITS then 0x0A8C04B0
     else 0) ∧
  (State.reset.inv ∧ State.reset.image.st = .empty ∧ State.reset.tick.ticking = false ∧ State.reset.upd.epoch = 0 ∧
     State.reset.upd.slabB = false ∧ State.reset.hlt.tail = 528 ∧ State.reset.hlt.records = 1 ∧ State.reset.pending = [])

/-- Every step keeps the canonical form of memory and of the register file, in every state, reachable or not. -/
def Obligations.StepKeepsCanonicalStores : Prop :=
  ∀ s t : State, s.inv → step s = .next t → t.inv

/-- Whatever a step does, nothing that was sent is taken back, no write count falls, and no byte of the ledger below HLT_TAIL
is rewritten, nor do HLT_TAIL and the number of records go back. -/
def Obligations.StepKeepsRecords : Prop :=
  ∀ s t : State, step s = .next t → s.out <+: t.out ∧ (∀ i, s.wear i ≤ t.wear i) ∧ s.hlt.grows t.hlt

/-- The epoch counter and the current slab change only by a flip, by an adoption, or back to 0 and slab A at a load or when the
module loses power; a flip adds 1 and makes the other slab current, and only the release of the commit stile (also the one
before a host-side reset) and a late-commit flip. -/
def Obligations.EpochMovesByFlip : Prop :=
  ∀ (c : Instr) (s t : State), exec c s = .next t →
    (t.upd.epoch = s.upd.epoch ∧ t.upd.slabB = s.upd.slabB) ∨
    (t.upd.epoch = (s.upd.epoch + 1) % 2 ^ 64 ∧ t.upd.slabB = !s.upd.slabB ∧
      (c = .commitRelease ∨ c = .lateCommit ∨ (∃ m, c = .hostResetAfterCommit m) ∨ ∃ o n v, c = .registerWrite o n v)) ∨
    (t.upd.epoch = s.regN Reg.STL_RECON_EPOCH ∧ (c = .adopt ∨ ∃ o n v, c = .registerWrite o n v)) ∨
    (t.upd.epoch = 0 ∧ t.upd.slabB = false)

/-! ## Statistics clears -/

/-- A statistics clear of a block, and the clear of them all: each register it names then reads what the events of its own
cycle added, and its reset value where none did; a register that a selector banks does so for every unit. No other register
changes, and nothing but registers does. -/
def Obligations.StatisticsClearsReset : Prop :=
  ∀ (c : Instr) (k : Cleared) (same : List (Nat × Nat)), clearOf c = some (k, same) →
    ∀ s : State, s.inv → s.hosted → ∃ t, exec c s = .next t ∧
      (∀ o n, (o % 67108864 ∈ k.banked ∨ o ∈ k.plain.map Prod.fst) → amountOf same o = some n → t.reg o = BitVec.ofNat 64 n) ∧
      (∀ o, o % 67108864 ∈ k.banked → amountOf same o = none → t.reg o = 0) ∧
      (∀ o v, (o, v) ∈ k.plain → amountOf same o = none → t.reg o = BitVec.ofNat 64 v) ∧
      (∀ o, o % 67108864 ∉ k.banked → o % 67108864 ∉ k.plain.map Prod.fst → t.reg o = s.reg o) ∧
      s.keeps t [.regs] ∧ s.sameBytes t

/-! ## Start-up -/

/-- 48 V becomes valid on a module that is Off: the sequence begins with every register at its reset value but ME_FAIL, which only
a self-test that passes clears, memory and the image lost, and the persistent store kept. The steps after it: the Lodge comes alive and asks to join the I3C bus; the ports that
are off and have an in-service lane begin to train, and ask again while they do; the HBM is trained; the module is ready,
and a LOAD written before that begins. -/
def Obligations.StartUpRuns : Prop :=
  (∀ (perst : Bool) (s : State), s.boot.powered = false → ∃ t, exec (.powerValid48v perst) s = .next t ∧
     t.boot.powered = true ∧ t.boot.step = 0 ∧ t.boot.domains = 0 ∧ t.host.perst = perst ∧
     (∀ o, (∀ k, k < 16 → o ≠ Reg.ME_FAIL + 4 * k) → t.reg o = State.reset.reg o) ∧
     (∀ k, k < 16 → t.reg (Reg.ME_FAIL + 4 * k) = s.reg (Reg.ME_FAIL + 4 * k)) ∧ (∀ k, t.byteAt k = 0) ∧
     t.image = {} ∧ t.tick = {} ∧ t.upd = {} ∧ t.adm = {} ∧ t.ldg = {} ∧
     t.boot.status = s.boot.status ∧ t.boot.cached = s.boot.cached ∧
     t.sbk = s.sbk ∧ t.hlt.bytes = s.hlt.bytes ∧ t.hlt.tail = s.hlt.tail ∧ t.hlt.records = s.hlt.records ∧
     t.out = s.out ∧ t.pending = s.pending) ∧
  (∀ s : State,
     (s.boot.powered = true → s.boot.step = 0 → exec .lodgeAlive s =
       .next { s with boot := { s.boot with step := 1 }, out := s.out ++ [.hotJoin] }) ∧
     (s.boot.powered = true → 2 ≤ s.boot.domains → s.boot.training = false → ∃ t, exec .pyurnTrainingOpen s = .next t ∧
       t.boot = { s.boot with training := true } ∧
       (∀ p : Fin 16, (s.port p).st = portOff → (List.range 8).any (laneInService (s.laneMap p)) = true →
         (t.port p).st = portTraining ∧ (t.port p).map = s.laneMap p) ∧
       (∀ p : Fin 16, (s.port p).st ≠ portOff → t.port p = s.port p) ∧ s.touches t [.boot, .pyu] []) ∧
     (∀ p : Fin 16, s.boot.training = true → (s.port p).st = portTraining → exec (.trainingRetry p) s =
       .next { s with out := s.out ++ [.training p] }) ∧
     (s.boot.step = 6 → s.boot.failed = false → 2 ≤ s.boot.domains → ∃ t, exec (.hbmTrainingDone []) s = .next t ∧
       t.boot = { s.boot with step := 7 } ∧ t.hbm = { s.hbm with trained := true, inService := s.wantedMap } ∧
       s.keeps t (.boot :: .hbm :: Part.signalled) ∧ s.sameRegs t [Reg.MEM_EVENT]) ∧
     (s.boot.step = 7 → s.boot.heldLoad = false → exec .moduleReady s =
       .next { s with boot := { s.boot with step := 8, heldLoad := false } }) ∧
     (s.boot.step = 7 → s.boot.heldLoad = true → s.image.st = .empty → s.busy = false → ∃ t, exec .moduleReady s = .next t ∧
       t.boot.step = 8 ∧ t.boot.heldLoad = false ∧ t.image.st = .loading))

/-- The boot ROM's check of the two banks: the active bank boots when its checks pass, else the other one, and with neither the
module is boot-failed. TOP_BOOT shows it, and Device Readiness Status goes to the host. -/
def Obligations.BootRomPicksBank : Prop :=
  ∀ s : State, s.inv → s.boot.powered = true → s.boot.step = 1 → s.ldg.ps = .a0 →
    s.boot.fromA3 = false → ∃ t, exec .bootVerified s = .next t ∧ t.boot.step = 6 ∧
      (let act := s.bootImage s.activeBank
       let oth := s.bootImage (1 - s.activeBank)
       (s.bankCode act = 0 → t.boot.failed = false ∧ t.boot.bank = some s.activeBank) ∧
       (s.bankCode act ≠ 0 → s.bankCode oth = 0 → t.boot.failed = false ∧ t.boot.bank = some (1 - s.activeBank)) ∧
       (s.bankCode act ≠ 0 → s.bankCode oth ≠ 0 → t.boot.failed = true ∧ t.boot.bank = none)) ∧
      t.bit Reg.TOP_BOOT 31 = true ∧ t.boot.status = t.regN Reg.TOP_BOOT ∧ t.hbm = s.hbm ∧
      (∃ l, t.out = s.out ++ l ++ [.deviceReady]) ∧ t.upd = s.upd ∧ t.image = s.image ∧ t.mem = s.mem

/-! ## The host link and host-side resets -/

/-- The link comes up: PCI_LINK shows speed, width and mode, and the records and messages held since it went down go out in
order. It goes down without a reset: PCI_LINK reads 0, LINK_DOWN is set, every enabled engine stops; no step is spoiled, no
epoch changes. A host-side reset that takes the link down or resets the function discards the image, the queue of doorbells
and the unread completions, returns every PCI register to its reset value (a Function Level Reset keeps the link up), and
keeps the epoch. PERST# before the module is ready only holds the link; during a commit stitch the reset waits for the
commit. A reset that waited for the commit stitch acts after the commit; PERST# released is a wake event once the module
sleeps. -/
def Obligations.LinkAndResetsAct : Prop :=
  (∀ s : State, s.inv →
     (∀ speed width flit, speed < 16 → width < 32 → s.boot.powered = true → 2 ≤ s.boot.domains → s.host.perst = false →
       s.linkUp = false → ∃ t, exec (.linkUp speed width flit) s = .next t ∧
         t.regN Reg.PCI_LINK = speed + 16 * width + 512 * flit.toNat + 1024 ∧ t.linkUp = true ∧
         s.out ++ s.heldOut <+: t.out ∧ t.heldOut = [] ∧ (s.host.wasUp = true → t.bit Reg.PCI_EVENT 1 = true) ∧
         s.touches t Part.signalled [Reg.PCI_LINK, Reg.PCI_EVENT]) ∧
     (∀ moved, s.linkUp = true → ∃ t, exec (.linkDown moved) s = .next t ∧ t.reg Reg.PCI_LINK = 0 ∧ t.linkUp = false ∧
         t.bit Reg.PCI_EVENT 0 = true ∧
         (∀ e : Fin 8, s.bit (Reg.PCI_DMA_CTRL + 32 * e) 0 = true → t.fld (Reg.PCI_DMA_STATUS + 32 * e) 1 0 = 2) ∧
         s.keeps t [.regs, .mem, .free, .out, .heldOut, .hbm, .host, .bel])) ∧
  (∀ (kind : ResetKind) (s : State), s.inv → s.boot.powered = true → s.host.waitingReset = none →
     (kind = .perst → s.boot.step < 8 → ∀ moved, exec (.hostSideReset kind moved) s =
       .next (({ s with host := { s.host with perst := true } } : State).setReg Reg.PCI_LINK 0)) ∧
     (kind ≠ .perst → s.commitOpen = true → ∀ moved, exec (.hostSideReset kind moved) s =
       .next { s with host := { s.host with waitingReset := some kind } }) ∧
     (kind ≠ .perst → s.commitOpen = false → ∀ moved, ∃ t, exec (.hostSideReset kind moved) s = .next t ∧
       t.image.st = .empty ∧ t.adm.bells = [] ∧ t.adm.unread = [] ∧ t.heldOut = [] ∧ t.bel.rings = [] ∧
       t.host.waitingReset = none ∧ t.host.flights = [] ∧
       (∀ o, 0xF0000 ≤ o → o < 0x100000 → (kind = .flr → o ≠ Reg.PCI_LINK) → t.reg o = State.reset.reg o) ∧
       (kind = .flr → t.reg Reg.PCI_LINK = s.reg Reg.PCI_LINK) ∧
       s.sameSlabs t ∧ t.boot = s.boot ∧ t.sec = s.sec)) ∧
  (∀ s : State, s.inv →
     (∀ kind moved, s.host.waitingReset = some kind → kind ≠ .perst →
       ∃ t, exec (.hostResetAfterCommit moved) s = .next t ∧ t.host.waitingReset = none ∧ t.image.st = .empty ∧
         t.adm.bells = [] ∧ t.heldOut = [] ∧ t.boot = s.boot) ∧
     (s.host.perst = true → s.asleep = false → exec .perstDeassert s =
       .next { s with host := { s.host with perst := false } }) ∧
     (s.host.perst = true → s.tripped = false → s.ldg.entering = none → s.ldg.waking = 0 → s.ldg.ps = .a2 →
       ∃ t, exec .perstDeassert s = .next t ∧ t.host.perst = false ∧ t.ldg.waking = 1 ∧
         t.bit Reg.LDG_WAKE_CAUSE 5 = true ∧ t.fld Reg.LDG_WAKE_CAUSE 10 8 = 5 ∧
         s.touches t [.regs, .ldg, .host] [Reg.LDG_WAKE_CAUSE]))

/-! ## The Last image -/

/-- LOAD: before the module is ready it is held; during a load it is ignored; with a ticket accepted or running it is refused
with error 0x10; otherwise the present image is discarded, a RUNNING one halting, and the fetch of LAST_LEN bytes begins.
The fetch ends: the image lies in the image region and its checks run; or a DMA error ends the load, with error 0x12 and the
offset of the first byte not fetched. The checks end: a failure shows its code and step, and the module is EMPTY; otherwise
the image is LOADED, its digest shows, and epoch and current slab carry over under the same job_id only. -/
def Obligations.LoadsEndInAnImage : Prop :=
  (∀ s : State, s.inv → s.hosted →
     (s.boot.step < 8 → exec .load s = .next { s with boot := { s.boot with heldLoad := true } }) ∧
     (8 ≤ s.boot.step → (s.image.st = .loading ∨ s.image.st = .verifying) → exec .load s = .next s) ∧
     (8 ≤ s.boot.step → s.image.st ≠ .loading → s.image.st ≠ .verifying → s.busy = true → ∃ t, exec .load s = .next t ∧
       t.fld Reg.LAST_STATE 15 8 = 0x10 ∧ t.fld Reg.LAST_STATE 23 16 = 0 ∧ s.touches t [.regs] [Reg.LAST_STATE]) ∧
     (8 ≤ s.boot.step → s.image.st ≠ .loading → s.image.st ≠ .verifying → s.busy = false → ∃ t, exec .load s = .next t ∧
       t.image.st = .loading ∧ t.image.file = none ∧ t.regN Reg.LAST_PROGRESS = 0 ∧ t.fld Reg.LAST_STATE 15 8 = 0 ∧
       t.fld Reg.LAST_STATE 23 16 = 0 ∧ (∃ l, t.out = s.out ++ l ++ [.hostFetch (s.regN Reg.LAST_SRC) (s.regN Reg.LAST_LEN)]) ∧
       (s.image.st = .running → t.tick.ticking = false ∧ t.tick.halted = true ∧ t.tick.stopped = true) ∧ s.sameSlabs t)) ∧
  (∀ s : State, s.inv → s.image.st = .loading →
     (∀ file : ImageFile, let fetched := { file with raw := file.raw.take (s.regN Reg.LAST_LEN) }
       ∃ t, exec (.imageFetchDone file) s = .next t ∧
       t.image = { s.image with st := .verifying, file := some fetched, map := s.hbm.inService } ∧
       t.reg Reg.LAST_PROGRESS = s.reg Reg.LAST_LEN ∧
       (∀ a, t.devByte a = (s.devWrite .window s.imageStart fetched.raw).devByte a) ∧
       s.keeps t ([.mem, .hbm, .image, .bel] ++ Part.signalled)) ∧
     (∀ n, n < 2 ^ 64 → ∃ t, exec (.imageFetchDmaError n) s = .next t ∧ t.image.st = .empty ∧ t.image.file = none ∧
       t.regN Reg.LAST_ERR_OFFSET = n ∧ t.regN Reg.LAST_PROGRESS = n ∧ t.fld Reg.LAST_STATE 15 8 = 0x12 ∧
       t.fld Reg.LAST_STATE 23 16 = 0 ∧ t.bit Reg.LAST_EVENT 1 = true ∧ t.upd = s.upd ∧ t.mem = s.mem)) ∧
  (∀ (s : State) (f : ImageFile), s.inv → s.image.st = .verifying → s.image.file = some f → s.image.rechecking = none →
     (∀ e, s.imageCheck f = some e → ∃ t, exec .imageChecksDone s = .next t ∧ t.image.st = .empty ∧ t.image.file = none ∧
       t.fld Reg.LAST_STATE 15 8 = e.code % 256 ∧ t.fld Reg.LAST_STATE 23 16 = e.step % 256 ∧
       (∀ o, e.offset = some o → t.regN Reg.LAST_ERR_OFFSET = o % 2 ^ 64) ∧ t.bit Reg.LAST_EVENT 1 = true ∧ t.upd = s.upd) ∧
     (s.imageCheck f = none → ∃ t, exec .imageChecksDone s = .next t ∧ t.image.st = .loaded ∧ t.image.file = some f ∧
       t.image.prevJob = some f.header.jobId ∧ t.upd.epoch = (if s.image.prevJob = some f.header.jobId then s.upd.epoch else 0) ∧
       (t.upd.slabB = true ↔ s.image.prevJob = some f.header.jobId ∧ s.upd.slabB = true) ∧
       (∀ i, i < 16 → t.regN (Reg.LAST_DIGEST + 4 * i) = bits f.digest (32 * i + 31) (32 * i)) ∧
       t.bit Reg.LAST_EVENT 0 = true ∧ t.pwr.stale = false ∧ t.tick.raised = 0 ∧ t.me.acc = [] ∧ t.ve.regs = [] ∧
       t.mem = s.mem))

/-- START of an image that is not LOADED is ignored. Of a LOADED one it is accepted: the generators take their seeds, the raised
set and the accumulators are cleared; with a port of TOPO not yet UP nothing is sent; with all UP the exchange goes to every
peer; a job of one module opens tick 0. The start of a job: a peer whose job, step length or layout edges differ ends it
with error 0x15; a peer that agrees is noted; a child's message is held from LOADED on; with every peer passed and every
child's message held the module's own goes up; the parent's message opens tick 0 and goes on; without it the start ends with
error 0x17. -/
def Obligations.StartsRunTheJob : Prop :=
  (∀ s : State, s.inv → s.hosted →
     (s.image.st ≠ .loaded → ∃ t, exec .start s = .next t ∧ t.bit Reg.LAST_EVENT 4 = true ∧
       s.touches t Part.signalled [Reg.LAST_EVENT]) ∧
     (∀ f, s.image.st = .loaded → s.image.file = some f →
       (s.topoUp = false → ∃ t, exec .start s = .next t ∧ t.image.st = .armed ∧ t.image.exchanged = false ∧
         t.image.passed = [] ∧ t.seg.gens = seedGens f.sections.seeds ∧ t.tick.raised = 0 ∧ t.tick.halted = false ∧
         t.me.acc = [] ∧ t.out = s.out ∧ s.sameSlabs t ∧
         s.touches t [.image, .adm, .seg, .tick, .stl, .me, .ve, .upd, .clo, .pyu] []) ∧
       (s.topoUp = true → topoPeers f.sections.topo ≠ [] → ∃ t, exec .start s = .next t ∧ t.image.st = .armed ∧
         t.image.exchanged = true ∧ t.seg.gens = seedGens f.sections.seeds ∧
         t.out = s.out ++ (topoPeers f.sections.topo).map (fun p => .startExchange p (s.exchangeMsg f))) ∧
       (s.topoUp = true → topoPeers f.sections.topo = [] → f.sections.topo.beaconChildren = [] →
         f.sections.topo.beaconParent = none → f.header.jobSize = 1 → ∃ t, exec .start s = .next t ∧ t.image.st = .running ∧
         t.tick.ticking = true ∧ t.tick.now = 0 ∧ t.tick.step = none ∧ t.adm.freePlots = f.sections.plot.poolSize ∧
         t.bit Reg.LAST_EVENT 2 = true ∧ s.sameSlabs t))) ∧
  (∀ (s : State) (f : ImageFile), s.inv → s.image.file = some f →
     (∀ peer reply, s.image.st = .armed → jobDiffers (s.exchangeMsg f) reply = true →
       ∃ t, exec (.startExchangeReply peer reply) s = .next t ∧ t.image.st = .loaded ∧ t.fld Reg.LAST_STATE 15 8 = 0x15 ∧
         s.touches t [.regs, .image] [Reg.LAST_STATE]) ∧
     (∀ peer reply, s.image.st = .armed → jobDiffers (s.exchangeMsg f) reply = false → s.topoUp = true →
       (∃ p ∈ topoPeers f.sections.topo, p ≠ peer ∧ p ∉ s.image.passed) →
       ∃ t, exec (.startExchangeReply peer reply) s = .next t ∧ t.image.st = .armed ∧
         t.image.passed = s.image.passed ++ [peer] ∧
         (reply.unresolved = true ∨ reply.epoch ≠ s.upd.epoch ∨ reply.slabB ≠ s.upd.slabB → t.adm.epochPeer = true)) ∧
     (∀ child n, s.image.st = .loaded → exec (.startMessageUp child n) s = .next { s with image := { s.image with
       childUp := s.image.childUp.filter (fun e => e.1 ≠ child) ++ [(child, n)] } }) ∧
     (∀ child n p, s.image.st = .armed → s.topoUp = true → s.image.exchanged = true → s.image.sentUp = false →
       (topoPeers f.sections.topo).all s.image.passed.contains = true → f.sections.topo.beaconParent = some p →
       f.sections.topo.beaconChildren = [child] → s.image.childUp = [] →
       ∃ t, exec (.startMessageUp child n) s = .next t ∧ t.image.sentUp = true ∧ t.image.st = .armed ∧
         t.out = s.out ++ [.startUp p (n + 1)] ∧ s.touches t [.image, .out, .pyu, .bel] []) ∧
     (s.image.st = .armed → f.sections.topo.beaconParent.isSome = true → ∃ t, exec .startMessageDown s = .next t ∧
       t.image.st = .running ∧ t.tick.ticking = true ∧ t.tick.now = 0 ∧ t.bit Reg.LAST_EVENT 2 = true ∧
       (∀ c ∈ f.sections.topo.beaconChildren, .startDown c ∈ t.out) ∧ t.upd = s.upd) ∧
     (s.image.st = .armed → ∃ t, exec .startTimeout s = .next t ∧ t.image.st = .loaded ∧ t.image.exchanged = false ∧
       t.fld Reg.LAST_STATE 15 8 = 0x17 ∧ t.bit Reg.LAST_EVENT 5 = true ∧
       s.touches t (.image :: Part.signalled) [Reg.LAST_STATE, Reg.LAST_EVENT]))

/-- UNLOAD and ABORT: an UNLOAD is ignored during a load, refused with error 0x10 while work is accepted or running, and
discards the image otherwise; an ABORT ends a load with error 0x11 and is ignored at any other time. A held image whose
channel map has changed is retired once no ticket is left, and the map is copied; the recheck after A2 recomputes the digest over
the image region: an image whose digest is unchanged is again in the state it had, any other is discarded with error 0x16. -/
def Obligations.ImagesEnd : Prop :=
  (∀ s : State, s.inv → s.hosted →
     ((s.image.st = .loading ∨ s.image.st = .verifying) → ∃ t, exec .unload s = .next t ∧ t.bit Reg.LAST_EVENT 4 = true ∧
       s.touches t Part.signalled [Reg.LAST_EVENT]) ∧
     (s.image.st ≠ .loading → s.image.st ≠ .verifying → s.busy = true → ∃ t, exec .unload s = .next t ∧
       t.fld Reg.LAST_STATE 15 8 = 0x10 ∧ s.touches t [.regs] [Reg.LAST_STATE]) ∧
     (s.image.st ≠ .loading → s.image.st ≠ .verifying → s.busy = false → ∃ t, exec .unload s = .next t ∧
       t.image.st = .empty ∧ t.image.file = none ∧ (s.image.st = .running → t.tick.halted = true ∧ t.tick.stopped = true) ∧
       s.sameSlabs t ∧ t.mem = s.mem) ∧
     ((s.image.st = .loading ∨ s.image.st = .verifying) → ∃ t, exec .abort s = .next t ∧ t.image.st = .empty ∧
       t.image.file = none ∧ t.fld Reg.LAST_STATE 15 8 = 0x11 ∧ t.bit Reg.LAST_EVENT 1 = true ∧ t.upd = s.upd ∧ t.mem = s.mem) ∧
     (s.image.st ≠ .loading → s.image.st ≠ .verifying → ∃ t, exec .abort s = .next t ∧ t.bit Reg.LAST_EVENT 4 = true ∧
       s.touches t Part.signalled [Reg.LAST_EVENT])) ∧
  (∀ s : State, s.inv →
     (s.image.mapChanged = true → s.busy = false → (s.image.st = .loaded ∨ s.image.st = .armed ∨ s.image.st = .running) →
       ∃ t, exec .imageRetire s = .next t ∧ t.image = { s.image with st := .retired, mapChanged := false } ∧
         t.tick.ticking = false ∧ t.tick.stopped = true ∧ t.hbm = { s.hbm with inService := s.wantedMap, cond := [] } ∧
         t.bit Reg.LAST_EVENT 3 = true ∧ t.mem = s.mem ∧
         s.keeps t ([.image, .tick, .hbm] ++ Part.signalled) ∧
         s.sameRegs t ([Reg.LAST_EVENT, Reg.MEM_EVENT] ++ (List.range 4).map fun i => Reg.MEM_THROTTLE + 4 * i)) ∧
     (∀ f st, s.image.rechecking = some st → s.image.file = some f →
       (s.regionDigest f = f.digest → exec .imageRecheckDone s =
         .next { s with image := { s.image with st := st, rechecking := none } }) ∧
       (s.regionDigest f ≠ f.digest → ∃ t, exec .imageRecheckDone s = .next t ∧ t.image.st = .empty ∧ t.image.file = none ∧
         t.fld Reg.LAST_STATE 15 8 = 0x16 ∧ t.upd = s.upd ∧ t.mem = s.mem)))

/-! ## Ticks -/

/-- The last core is done: slack goes to TICK_SLACK_MIN if it is the lowest, and the module's own report is formed unless it
sends none; a module alone in its job then holds the combination. A stitch not done at its deadline is recorded, its slack
is 0, and the maintenance work of its tick is left to the next slot, beside what others left there; a report still missing at the timeout halts the module:
every ticket completes in order of slot, the chain plots return, and the image is LOADED again with its accumulators
cleared. -/
def Obligations.StitchesReportOrHalt : Prop :=
  (∀ (s : State) (cycle : Nat), s.inv → s.tick.ticking = true → s.tick.done = false →
     ∃ t, exec (.stitchDone cycle) s = .next t ∧ t.tick.done = true ∧
       t.regN Reg.TICK_SLACK_MIN = min (s.regN Reg.TICK_SLACK_MIN) (s.tickLen - s.maintLen - cycle) ∧
       (s.tick.stopped = false → s.tick.own = none → t.tick.own = some s.ownBeacon) ∧
       ((s.tick.stopped = true ∨ s.tick.own.isSome = true) → t.tick.own = s.tick.own ∧ t.tick.held = s.tick.held) ∧
       (∀ x, s.topo? = some x → x.beaconChildren = [] → x.beaconParent = none → s.jobSize = 1 → s.tick.stopped = false →
         s.tick.own = none → s.tick.sentUp = false →
         t.tick.held = some { s.ownBeacon with down := true }) ∧
       t.tick.now = s.tick.now ∧ t.tick.step = s.tick.step ∧ t.tick.ticking = true ∧
       s.keeps t ([.free, .tick, .pyu, .bel] ++ Part.signalled) ∧ s.sameBytes t) ∧
  (∀ s : State, s.inv → s.tick.ticking = true →
     (∀ past, s.tick.done = false → s.tick.overrun = false → ∃ t, exec (.stitchOverrun past) s = .next t ∧
       t.tick = { s.tick with overrun := true, maintDue := s.tick.maintDue + 1 } ∧ t.bit Reg.TICK_EVENT 1 = true ∧
       t.reg Reg.TICK_SLACK_MIN = 0 ∧ s.hlt.grows t.hlt ∧ s.keeps t ([.tick, .hlt] ++ Part.signalled) ∧ s.sameBytes t) ∧
     (s.tick.held = none → ∃ t, exec .edgeTimeoutHalt s = .next t ∧ t.tick.ticking = false ∧ t.tick.halted = true ∧
       t.tick.step = none ∧ t.tick.raised = 0 ∧ t.bit Reg.TICK_EVENT 2 = true ∧
       (s.image.st = .running → t.image = { s.image with st := .loaded }) ∧ t.adm.accepted = [] ∧
       t.adm.unread = s.adm.unread ++ (bySlot s.adm.accepted).map (fun e =>
         ⟨e.2.tag, e.2.stepId, s.deadline e.1, (s.haltStatus e.1).1, (s.haltStatus e.1).2⟩) ∧
       t.adm.freePlots = s.adm.freePlots + (s.adm.accepted.map fun e => e.2.plots).sum ∧
       t.me.acc = [] ∧ t.ve.regs = [] ∧ t.ve.masks = [] ∧ t.ve.bufs = [] ∧ s.sameSlabs t ∧ t.seg.gens = s.seg.gens))

/-- The edge: the next tick opens, lateness is counted, a waiting cap takes effect, and the gate latches what the module and its
peers reported. Within a slot the step goes on; the last edge of a slot completes its ticket, and opens the next slot with the
step that every module holds for it. -/
def Obligations.EdgeClosesAndOpens : Prop :=
  ∀ (s : State) (x : Sections) (b : Beacon) (late measured predicted : Nat), s.inv → s.tick.ticking = true →
    s.sections? = some x → s.tick.held = some b → ∃ t, exec (.tickEdge late measured predicted) s = .next t ∧
      t.tick.ticking = true ∧ t.tick.now = s.tick.now + 1 ∧ t.tick.inMaint = false ∧ t.tick.overrun = false ∧
      t.tick.debited = 0 ∧ t.pwr.capNext = none ∧ t.pwr.cap = s.pwr.capNext.getD s.pwr.cap ∧
      (late = 0 → t.reg Reg.TICK_SLIP = s.reg Reg.TICK_SLIP ∧ t.reg Reg.TICK_LATE_COUNT = s.reg Reg.TICK_LATE_COUNT) ∧
      (late ≠ 0 → t.regN Reg.TICK_LATE_COUNT = min (s.regN Reg.TICK_LATE_COUNT + 1) (2 ^ 32 - 1) ∧
        t.regN Reg.TICK_LATE_MAX = max (s.regN Reg.TICK_LATE_MAX) (min late (2 ^ 32 - 1)) ∧ t.bit Reg.TICK_EVENT 0 = true ∧
        (s.regN Reg.TICK_SLIP + late < 2 ^ 64 → t.regN Reg.TICK_SLIP = s.regN Reg.TICK_SLIP + late)) ∧
      (let own := (s.tick.own.map Beacon.gate).getD 0
       t.adm.gate = gateBits own (b.gate &&& ~~~own) ||| (if s.adm.epochPeer then 2 else 0)) ∧
      (s.lastOfSlot = false → t.tick.step = s.tick.step ∧ t.adm.accepted = s.adm.accepted ∧
        t.adm.unread = s.adm.unread) ∧
      (s.lastOfSlot = true → t.adm.accepted = s.adm.accepted.filter (fun e => e.1 ≠ s.slotNow)) ∧
      (∀ k, s.lastOfSlot = true → s.adm.accepted.find? (fun e => e.1 = s.slotNow) = some (s.slotNow, k) →
        t.adm.unread = s.adm.unread ++
          [⟨k.tag, k.stepId, s.deadline s.slotNow, (s.slotStatus s.slotNow).1, (s.slotStatus s.slotNow).2⟩] ∧
        t.adm.freePlots = s.adm.freePlots + k.plots) ∧
      (∀ k id, s.lastOfSlot = true → s.adm.accepted.find? (fun e => e.1 = s.slotNow + 1) = some (s.slotNow + 1, k) →
        s.tick.latched = some id → b.holds = true → b.mismatch = false → ∃ r, t.tick.step = some r ∧
          r.slot = s.slotNow + 1 ∧ r.stepId = k.stepId ∧ r.input = k.input ∧ r.plots = k.plots ∧ r.cause = none ∧
          r.acted = none) ∧
      (s.lastOfSlot = true → (b.holds = false ∨ b.mismatch = true ∨ s.tick.latched = none) → t.tick.step = none) ∧
      t.image = s.image ∧ t.sbk = s.sbk

/-- The maintenance slot: the routers load the table of the next stitch; every channel flushes its write-combining buffer, and no
byte reads differently for it; a quarter of the calibration rotation is done, and one more for each slot whose work was left here.
After an overrun the work waits. Reports stop only where the calibration frame of a port that cannot send begins a replay. -/
def Obligations.MaintenanceSlotWorks : Prop :=
  ∀ (s : State) (temps : List Nat) (bad : List (Fin 256)), s.inv → s.combineOk → s.tick.ticking = true →
    s.tick.inMaint = false →
    (s.tick.overrun = true → exec (.maintenanceSlot temps bad) s = .next { s with
      tick := { s.tick with inMaint := true }, trl := { s.trl with table := s.nextTable } }) ∧
    (s.tick.overrun = false → ∃ t, exec (.maintenanceSlot temps bad) s = .next t ∧
      t.tick = { s.tick with inMaint := true, maintDue := 0, stopped := t.tick.stopped } ∧
      ((∀ p, (s.port p).sent.length + s.tick.maintDue < 64) → (∀ p, (s.port p).cursor = none) → t.tick.stopped = s.tick.stopped) ∧
      t.trl = { s.trl with table := s.nextTable } ∧
      t.hbm.calib = (s.hbm.calib + 1 + s.tick.maintDue) % 4 ∧ (∀ ch, ch < 256 → t.wcb ch = []) ∧ s.sameBytes t ∧
      t.hbm.inService = s.hbm.inService ∧ t.image = s.image ∧ t.adm = s.adm ∧ t.upd = s.upd)

/-! ## The admission gate -/

/-- A doorbell is its ticket's decision instant, and makes ADM_ANSWER invalid: an accepted ticket takes its slot and its chain plots
at once, a refused one takes nothing, and the answer waits its turn; a ninth one is refused at once with code 1, detail 6. The
answer of the oldest doorbell is written, and counted. -/
def Obligations.DoorbellsAreDecided : Prop :=
  (∀ s : State, s.inv → s.hosted →
     (s.adm.bells.length < 8 → ∃ t, exec .ticketDoorbell s = .next t ∧
       t.adm.bells = s.adm.bells ++ [⟨s.ticketRegs, false, s.adm.seq + 1, s.gateDecide s.ticketRegs⟩] ∧
       t.adm.seq = s.adm.seq + 1 ∧ t.adm.unread = s.adm.unread ∧ t.adm.gate = s.adm.gate ∧
       (∀ k dl, s.gateDecide s.ticketRegs = .accept k dl → t.adm.accepted = s.adm.accepted ++ [(k, s.ticketRegs)] ∧
         t.adm.freePlots = s.adm.freePlots - s.ticketRegs.plots) ∧
       (∀ r n, s.gateDecide s.ticketRegs = .refuse r n → t.adm.accepted = s.adm.accepted ∧
         t.adm.freePlots = s.adm.freePlots) ∧
       t.bit Reg.ADM_ANSWER 0 = false ∧ s.touches t [.regs, .adm] [Reg.ADM_ANSWER]) ∧
     (8 ≤ s.adm.bells.length → ∃ t, exec .ticketDoorbell s = .next t ∧ t.adm = { s.adm with seq := s.adm.seq + 1 } ∧
       t.fld Reg.ADM_ANSWER 3 0 = 1 ∧ t.fld Reg.ADM_ANSWER 7 4 = 1 ∧ t.fld Reg.ADM_ANSWER 15 8 = 6 ∧
       t.fld Reg.ADM_ANSWER 31 16 = (s.adm.seq + 1) % 65536 ∧ t.reg Reg.ADM_ANS_TAG = s.reg Reg.ADM_TKT_TAG ∧
       t.regN Reg.ADM_REFUSE = min (s.regN Reg.ADM_REFUSE + 1) (2 ^ 32 - 1) ∧ t.bit Reg.ADM_EVENT 0 = true ∧
       s.keeps t ([.adm, .free, .bel] ++ Part.signalled))) ∧
  (∀ (s : State) (d : Doorbell) (ds : List Doorbell), s.inv → s.adm.bells = d :: ds →
     (∀ k dl, d.answer = .accept k dl → ∃ t, exec .ticketDecision s = .next t ∧ t.adm = { s.adm with bells := ds } ∧
         t.regN Reg.ADM_ANSWER = 3 + 65536 * (d.seq % 65536) ∧ t.regN Reg.ADM_ANS_TAG = d.ticket.tag % 2 ^ 64 ∧
         t.regN Reg.ADM_ANS_SLOT = k % 2 ^ 64 ∧ t.regN Reg.ADM_ANS_DEADLINE = dl % 2 ^ 64 ∧
         t.regN Reg.ADM_ACCEPT_COUNT = min (s.regN Reg.ADM_ACCEPT_COUNT + 1) (2 ^ 32 - 1) ∧
         t.bit Reg.ADM_EVENT 0 = true ∧ s.keeps t ([.adm, .free, .bel] ++ Part.signalled)) ∧
     (∀ r n, d.answer = .refuse r n → 1 ≤ r → r ≤ 6 → n ≤ 8 → ∃ t, exec .ticketDecision s = .next t ∧
         t.adm = { s.adm with bells := ds } ∧
         t.regN Reg.ADM_ANSWER = 1 + 16 * r + 256 * n + 65536 * (d.seq % 65536) ∧
         t.regN Reg.ADM_ANS_TAG = d.ticket.tag % 2 ^ 64 ∧
         t.regN (Reg.ADM_REFUSE + 4 * (r - 1)) = min (s.regN (Reg.ADM_REFUSE + 4 * (r - 1)) + 1) (2 ^ 32 - 1) ∧
         t.bit Reg.ADM_EVENT 0 = true ∧ s.keeps t ([.adm, .free, .bel] ++ Part.signalled)))

/-- What an accepted ticket meets at its decision instant: no gate condition, its image RUNNING, room for its completion, fewer than
four tickets waiting, a free slot whose binding edge is still to come, at most five slots ahead, and free chain plots. A refusal
has a code of 1 to 6 and a detail of at most 8. -/
def Obligations.AcceptedTicketsFit : Prop :=
  (∀ (s : State) (t : Ticket) (k dl : Nat), s.gateDecide t = .accept k dl →
    s.image.st = .running ∧ t.imageId = (s.img.map fun f => f.header.imageId).getD 0 ∧ s.adm.gate = 0 ∧
      s.adm.unread.length + s.adm.accepted.length < 16 ∧ s.waitingAfter s.slotNow < 4 ∧
      s.tick.now + 1 < k * s.stepLen ∧ k ≤ s.slotNow + 5 ∧ s.slotTaken k = false ∧ k ∉ s.heldSlots ∧
      t.plots ≤ s.adm.freePlots ∧ dl = (k + 1) * s.stepLen - 1 ∧
      (t.slot ≠ 2 ^ 64 - 1 → k = t.slot) ∧ (t.slot = 2 ^ 64 - 1 → s.jobSize ≤ 1)) ∧
  (∀ (s : State) (t : Ticket) (r n : Nat), s.gateDecide t = .refuse r n → 1 ≤ r ∧ r ≤ 6 ∧ n ≤ 8)

/-- A pop removes the oldest unread record, and PCI_CQ_HEAD passes it where the ring holds it. Tests held for an idle module
start when it is idle; a held march test that an image bars is refused then. A self-test or scan that runs or waits is not asked for twice. Otherwise it starts at once on an idle
module, and waits on one that is not; a memory request confined to mapped-out channels starts at once; a march test of an
in-service channel is refused while an image is held or loading. The end of a running test: STATUS 3, or 4 with a failure,
the number that failed, its slots free again, and each failed unit marked; one of the matrix engines that passes after a reset clears
ME_FAIL; a march test leaves zeros in the channels it
covered and no other byte of memory changed; a scan shows each result. -/
def Obligations.PopsAndTestsRun : Prop :=
  (∀ s : State, s.inv →
     (s.hosted → s.adm.unread = [] → exec .admDonePop s = .next s) ∧
     (s.hosted → s.adm.unread ≠ [] → ∃ t, exec .admDonePop s = .next t ∧ t.adm.unread = s.adm.unread.tail ∧
       t.adm.accepted = s.adm.accepted ∧
       t.regN Reg.PCI_CQ_HEAD = (if s.regN Reg.PCI_CQ_HEAD = s.regN Reg.PCI_CQ_TAIL then s.regN Reg.PCI_CQ_HEAD
         else (s.regN Reg.PCI_CQ_HEAD + 1) % 65536) ∧ s.touches t [.regs, .adm] [Reg.PCI_CQ_HEAD]) ∧
     (s.idle = true → 8 ≤ s.boot.step → ∃ t, exec .deferredRequestStart s = .next t ∧ t.adm.waiting = [] ∧
       (∀ h ∈ s.adm.waiting, (h ≠ .memTest ∨ s.marchRefused s.hbm.testCtrl = false) → t.testStatus h = 1) ∧
       (.memTest ∈ s.adm.waiting → s.marchRefused s.hbm.testCtrl = true → t.testStatus .memTest = 0 ∧
         t.bit Reg.MEM_TEST_CTRL 16 = true) ∧ (s.image.st ≠ .running → t.adm.slots = s.adm.slots) ∧
       s.touches t [.regs, .adm] [Reg.ME_TEST_CTRL, Reg.VE_TEST_CTRL, Reg.MEM_TEST_CTRL, Reg.MEM_SCAN_CTRL])) ∧
  (∀ s : State, s.inv → s.hosted →
     (∀ p ∈ [(Instr.meTestStart, Held.matrix), (Instr.veTestStart, Held.vector)],
       ((s.testStatus p.2 = 1 ∨ s.testStatus p.2 = 2) → exec p.1 s = .next s) ∧
       (s.testStatus p.2 ≠ 1 → s.testStatus p.2 ≠ 2 → ∃ t, exec p.1 s = .next t ∧
         (s.idle = true → 8 ≤ s.boot.step → t.testStatus p.2 = 1 ∧ t.adm.waiting = s.adm.waiting) ∧
         ((s.idle = false ∨ s.boot.step < 8) → t.testStatus p.2 = 2 ∧ t.adm.waiting = s.adm.waiting ++ [p.2]) ∧
         (s.image.st ≠ .running → t.adm.slots = s.adm.slots) ∧ s.touches t [.regs, .adm] [testReg p.2])) ∧
     (∀ ctrl : Word, ∀ h : Held, ∀ c : Instr,
       (c = .memTestStart ctrl ∧ h = .memTest) ∨ (c = .memScanStart ctrl ∧ h = .memScan) →
       ∃ t, exec c s = .next t ∧ t.fld (testReg h) 15 8 = bits ctrl.toNat 15 8 ∧
         t.bit (testReg h) 5 = ctrl.getLsbD 5 ∧
         ((s.testStatus h = 1 ∨ s.testStatus h = 2) → t.testStatus h = s.testStatus h ∧ t.adm = s.adm) ∧
         (s.testStatus h ≠ 1 → s.testStatus h ≠ 2 →
           (s.touchesInService ctrl.toNat = false → t.testStatus h = 1 ∧ t.adm = s.adm) ∧
           (s.touchesInService ctrl.toNat = true → h = .memTest → ctrl.getLsbD 4 = true → s.image.st ≠ .empty →
             t.testStatus h = 0 ∧ t.bit Reg.MEM_TEST_CTRL 16 = true ∧ t.adm = s.adm) ∧
           (s.touchesInService ctrl.toNat = true → (h = .memScan ∨ ctrl.getLsbD 4 = false ∨ s.image.st = .empty) →
             (s.idle = true → 8 ≤ s.boot.step → t.testStatus h = 1) ∧
             ((s.idle = false ∨ s.boot.step < 8) → t.testStatus h = 2 ∧ t.adm.waiting = s.adm.waiting ++ [h]))) ∧
         s.touches t [.regs, .adm, .hbm] [testReg h])) ∧
  (∀ s : State, s.inv →
     (∀ engines paths, s.testStatus .matrix = 1 → ∃ t, exec (.meTestDone engines paths) s = .next t ∧
       t.testStatus .matrix = (if engines = [] ∧ paths = [] then 3 else 4) ∧
       t.fld Reg.ME_TEST_CTRL 15 8 = min (engines.length + paths.length) 255 ∧
       (∀ e ∈ engines, t.bit (Reg.ME_FAIL + 4 * (e.val / 32)) (e.val % 32) = true) ∧ t.bit Reg.ME_EVENT 0 = true ∧
       (engines ≠ [] → t.bit Reg.ME_EVENT 1 = true) ∧ t.adm.slots = s.adm.slots.filter (fun x => x.1 ≠ .matrix) ∧
       (engines = [] → paths = [] → s.me.resetSince = true → ∀ k, k < 16 → t.reg (Reg.ME_FAIL + 4 * k) = 0) ∧
       s.keeps t ([.adm, .hlt, .me, .free] ++ Part.signalled) ∧ s.sameBytes t) ∧
     (∀ failed, s.testStatus .vector = 1 → ∃ t, exec (.veTestDone failed) s = .next t ∧
       t.testStatus .vector = (if failed = [] then 3 else 4) ∧ t.fld Reg.VE_TEST_CTRL 15 8 = min failed.length 128 ∧
       (∀ e ∈ failed, t.bit (Reg.VE_FAIL + 4 * (e.val / 32)) (e.val % 32) = true) ∧ t.bit Reg.VE_EVENT 0 = true ∧
       (failed ≠ [] → t.bit Reg.VE_EVENT 1 = true) ∧ t.adm.slots = s.adm.slots.filter (fun x => x.1 ≠ .vector) ∧
       s.keeps t ([.adm, .hlt] ++ Part.signalled) ∧ s.sameBytes t) ∧
     (∀ failed, s.testStatus .memTest = 1 → ∃ t, exec (.memTestDone failed) s = .next t ∧
       t.testStatus .memTest = (if failed = [] then 3 else 4) ∧ t.fld Reg.MEM_TEST_CTRL 31 24 = min failed.length 255 ∧
       (∀ ch ∈ failed, t.bit (Reg.MEM_SUSPECT + 4 * (ch.val / 32)) (ch.val % 32) = true) ∧ t.bit Reg.MEM_EVENT 8 = true ∧
       (failed ≠ [] → t.bit Reg.MEM_EVENT 9 = true) ∧
       (∀ ch o, ch < 256 → o < 2000000000 → t.byteAt (hbmKey ch o) =
         if s.hbm.testCtrl.testBit 4 ∧ ch ∈ coveredBy s.hbm.testCtrl then 0 else s.byteAt (hbmKey ch o)) ∧
       s.keeps t ([.mem, .adm, .hbm, .hlt] ++ Part.signalled)) ∧
     (∀ r : ScanResult, s.testStatus .memScan = 1 → r.pin < 72 → ∃ t, exec (.memScanDone [r]) s = .next t ∧
       t.testStatus .memScan = 3 ∧ t.bit Reg.MEM_EVENT 8 = true ∧ t.regN (bankKey Reg.MEM_SCAN_RESULT r.channel) =
         min r.timing 255 + 256 * min r.volt 255 + 65536 * r.pin + 2 ^ 31 ∧ t.hlt.scanDue = true ∧
       t.hlt.bytes = s.hlt.bytes ∧ s.keeps t ([.adm, .hlt] ++ Part.signalled) ∧ s.sameBytes t))

/-! ## Tiles and segments -/

/-- A tile leaves its engine: each element is multiplied by 1/n after a rotation of size n, padding reads +0, a tile with an
element that is not finite is counted, and the source is cleared. In staging it lies in FP32 with its survey and counts towards its
segment; in a scratchpad its ready count rises, and the vector chains that waited for it run; towards a plot it is encoded in blocks
of 32, as zero blocks with cause 4 when it is not finite, and the update blocks that waited for them are worked. A segment with tiles
missing is not converted, and one of run-ahead waits for the decisions that it rests on. A complete segment is converted at the rung
its layer starts at and released there: elements, scales and header are written where the rung's branch names, the rung is recorded
and goes with the segment's plot, and its counters join the layer's. Where its counters cross a limit: with no wider rung that is
counted; after a denial in the step it is suppressed; a request that fails a test of R58 is denied, which spoils the step with cause
2; a granted one is debited, and the next rung is released. -/
def Obligations.DrainsConvertAndRelease : Prop :=
  (∀ (op : DrainOp) (s : State), s.inv → s.enginesOk → (Instr.tileDrain op).wf = true →
     let ws := s.drained op
     let nf := s.drainedNf op
     let te := s.entryOf op.tensor
     let seg := op.tile / te.segTiles
     let k := op.tile % te.segTiles
     ∃ t u, exec (.tileDrain op) s = .next t ∧
       t = (match op.dest with
         | .stage _ _ => u
         | .scratchpad c _ _ => u.issueWaiting c (s.veWaiting c)
         | .encoder _ _ => if nf.isSome then u.workWaiting.spoil 4 else u.workWaiting) ∧
       (∀ i, i < 8192 → t.sourceWord op.source i = 0) ∧ t.me.acc = s.me.acc ∧ t.me.banks = s.me.banks ∧
       u.regN Reg.FMT_NF_COUNT =
         (if nf.isSome then min (s.regN Reg.FMT_NF_COUNT + 1) (2 ^ 32 - 1) else s.regN Reg.FMT_NF_COUNT) ∧
       (nf.isSome = true → u.bit Reg.FMT_STICKY 4 = true) ∧
       s.keeps u ([.mem, .free, .seg, .me, .ve, .stl, .hbm, .bel] ++ Part.signalled) ∧
       (∀ staging runAhead, op.dest = .stage staging runAhead →
         let old := s.staged op.tensor seg
         u.staged op.tensor seg = ⟨staging, runAhead, if k = 0 then (drainUnit op.source).1 else old.core, old.tiles + 1,
           match nf with | some i => minOpt old.nf (k * 8192 + i) | none => old.nf⟩ ∧
         (∀ a, u.devByte a = ((s.devWrite .scheduled (staging + 32768 * k) (ws.flatMap fun w => leBytes 4 w.toNat)).devWrite .scheduled
           (staging + 32768 * segTileCount te seg + 24 * (k * (8192 / te.block)))
           ((tileBlocks te.axisRows te.block ws).flatMap fun b => (surveyOf b).bytes)).devByte a) ∧
         u.ve = s.ve ∧ u.stl = s.stl) ∧
       (∀ c offset ready, op.dest = .scratchpad c offset ready →
         storeGet 0 u.ve.ready (c.val * 64 + ready.val) = storeGet 0 s.ve.ready (c.val * 64 + ready.val) + 1 ∧
         (∀ a, u.devByte a = (s.spadTile c offset ws).devByte a) ∧ u.seg = s.seg ∧ u.stl = s.stl ∧ u.ve.regs = s.ve.regs) ∧
       (∀ plot first, op.dest = .encoder plot first →
         (∀ j, j < 256 → first + j ∈ (u.plot plot).landed) ∧
         (∀ a, u.devByte a = ((chunksOf 32 257 ws).zipIdx.foldl (fun s b => s.devWrite .scheduled (plotBase (s.plot plot) + 66 * (first + b.2))
           (blockBytes (wireBlock s.digestMode nf.isSome b.1).1)) s).devByte a) ∧
         (nf.isSome = true → s.tick.step.isSome = true → t.bit Reg.QNT_SPOIL_CAUSES 3 = true) ∧ u.ve = s.ve ∧ u.seg = s.seg)) ∧
  (∀ (ops : List ConvOp) (s : State),
     ((∀ op ∈ ops, s.segComplete op = false) → exec (.segmentConversionDone ops) s = .next s) ∧
     ((∀ op ∈ ops, s.segComplete op = true ∧ s.mayGo op = false) →
       exec (.segmentConversionDone ops) s = .next { s with seg := { s.seg with waiting := s.seg.waiting ++ ops } })) ∧
  (∀ (op : ConvOp) (s : State) (x : SegCtx), s.inv →
     storeWf emptyStaged s.seg.staged = true → storeWf 0 s.seg.rungs = true → storeWf {} s.stl.plots = true →
     s.segCtx op = some x → s.segComplete op = true → s.mayGo op = true → s.seg.waiting = [] →
     op.instEnd = false → 0 < elemCount x.ext →
     let r0 := (s.firstJob op op.cycle op.remaining).rung
     let c0 := s.convertAt x r0
     let cs := s.blockCounts x c0
     let place := (op.places[r0]?).getD (op.places.getLast?.getD (.near ⟨0, 0, 0⟩))
     let cross := segCross x.lim (elemCount x.ext) cs
     let cost := op.costs.getD r0 0
     let wider := r0 + 1 < x.fc.ladder.length
     ∃ t, exec (.segmentConversionDone [op]) s = .next t ∧ t.staged op.tensor op.segment = emptyStaged ∧
       t.me = s.me ∧ t.upd = s.upd ∧ t.image = s.image ∧ t.seg.waiting = [] ∧
       ((cross = false ∨ ¬ wider ∨ s.deniedStep = true ∨ s.grants op.cycle op.remaining cost = false) →
         (∀ a, t.devByte a = ((s.writeCounters x.survey 0 cs).writeSegment (s.segDest op.tensor op.segment true place) c0
           (releaseNf x.st c0) false).devByte a) ∧
         t.rungOf op.tensor op.segment = r0 ∧ (∀ p, op.plot = some p → (t.plot p).branch = r0) ∧
         (t.layer op.layerInst).sat = (s.layer op.layerInst).sat + (sumCounts cs).1 ∧
         (t.layer op.layerInst).zero = (s.layer op.layerInst).zero + (sumCounts cs).2 ∧
         (t.layer op.layerInst).count = (s.layer op.layerInst).count + elemCount x.ext ∧
         t.tick.debited = s.tick.debited ∧ t.reg Reg.QNT_RESOLE_OUT = s.reg Reg.QNT_RESOLE_OUT) ∧
       (cross = false → t.tick = s.tick ∧ t.reg Reg.QNT_TOP_CROSS = s.reg Reg.QNT_TOP_CROSS ∧
         t.reg Reg.QNT_RESOLE_DENIED = s.reg Reg.QNT_RESOLE_DENIED ∧
         t.reg Reg.QNT_RESOLE_SUPPRESSED = s.reg Reg.QNT_RESOLE_SUPPRESSED ∧ t.reg Reg.QNT_AFFECTED = s.reg Reg.QNT_AFFECTED) ∧
       (cross = true → ¬ wider → t.tick = s.tick ∧
         t.regN Reg.QNT_TOP_CROSS = min (s.regN Reg.QNT_TOP_CROSS + 1) (2 ^ 32 - 1)) ∧
       (cross = true → wider → s.deniedStep = true → t.tick = s.tick ∧
         t.regN Reg.QNT_RESOLE_SUPPRESSED = min (s.regN Reg.QNT_RESOLE_SUPPRESSED + 1) (2 ^ 32 - 1)) ∧
       (cross = true → wider → s.deniedStep = false → s.grants op.cycle op.remaining cost = false →
         t.regN Reg.QNT_RESOLE_DENIED = min (s.regN Reg.QNT_RESOLE_DENIED + 1) (2 ^ 32 - 1) ∧
         ∀ r, s.tick.step = some r → t.bit Reg.QNT_SPOIL_CAUSES 1 = true ∧ ∃ r', t.tick.step = some r' ∧ r'.denied = true ∧
           (r.voted = false → r.cause = none → r'.cause = some (2, s.stitchIx, s.tick.now)) ∧
           (r.voted = true ∨ r.cause.isSome = true → r'.cause = r.cause)) ∧
       (cross = true → x.fc.ladder.length = r0 + 2 → s.deniedStep = false → s.grants op.cycle op.remaining cost = true →
         t.tick = { s.tick with debited := s.tick.debited + cost } ∧ t.rungOf op.tensor op.segment = r0 + 1 ∧
         t.regN Reg.QNT_RESOLE_OUT = min (s.regN Reg.QNT_RESOLE_OUT + 1) (2 ^ 64 - 1)))

/-! ## The matrix engines -/

/-- A loader writes the idle bank with as many reduction elements as the product's format holds, those past the reduction's end
as +0: the elements as stored where it loads along the block axis, columns re-encoded where it loads across it, or the rotated windows under
the entry of the operand's class. The bank in use, the tiles and the accumulators stay. A held pass adds to each element of its rows the products of the streamed row with a
column of the held block, and a drain of its tile half then multiplies by 1/n of the block's rotation; every other element of the
drain tiles, and every accumulator, stays. -/
def Obligations.HeldBlocksMultiply : Prop :=
  (∀ (op : HeldLoad) (s : State), (Instr.heldBlockLoad op).wf = true →
     let fmt := joinFmt (s.heldFmt op) op.partner
     let rot := s.rotationFor op.marked op.view.tensor
     let idle := 2 * op.engine.val + (1 - s.bankOf op.engine)
     ∃ t, exec (.heldBlockLoad op) s = .next t ∧
       (let b := storeGet emptyBlock t.me.banks idle
        b.fmt = fmt ∧ b.length = op.length ∧ b.first = op.first ∧ b.rot = rot ∧
        (rot = none → b.depth = min (heldDepth fmt) (op.length - op.first) ∧ b.bad = false ∧
          (op.across = false → b.cells = (s.heldCells op op.first b.depth).map fun r => r.map fun c => widenCell fmt c.1) ∧
          (op.across = true → b.cells = flipCells zeroCell b.depth (((flipCells (zeroCell, {}) 64 (s.heldCells op op.first b.depth)).map
            (acrossColumn (s.feedRule op.view.tensor (s.heldFmt op)) (s.heldScale op) op.first)).map fun c =>
              c.map fun x => widenCell fmt x.1))) ∧
        (∀ r, rot = some r → b.depth = min (heldDepth fmt) ((op.length + r.n - 1) / r.n * r.n - op.first) ∧
          let span := windowSpan r op.first b.depth
          let out := rotateRuns (s.feedRule op.view.tensor fmt) r span.1 op.first b.depth
            ((flipCells (zeroCell, {}) 64 (s.heldCells op span.1 (span.2 * r.n))).map fun run =>
              (s.heldScale op, run.map fun c => c.1.decode.1))
          b.bad = out.2.2 ∧ b.cells = flipCells zeroCell b.depth (out.1.map fun c => c.map Prod.fst))) ∧
       (∀ k, k ≠ idle → storeGet emptyBlock t.me.banks k = storeGet emptyBlock s.me.banks k) ∧
       t.me.bank = s.me.bank ∧ t.me.tile = s.me.tile ∧ t.me.acc = s.me.acc ∧ t.me.leaving = s.me.leaving ∧
       s.keeps t [.regs, .seg, .me, .bel] ∧ s.sameBytes t) ∧
  (∀ (op : HeldPass) (s : State), s.enginesOk → (Instr.heldPass op).wf = true →
     let bank := if op.swapBank then 1 - s.bankOf op.engine else s.bankOf op.engine
     let held := s.heldBlock (2 * op.engine.val + bank)
     let streamed := (s.streamRows op held).1.map fun r => r.map Prod.fst
     let cols := flipCells zeroCell 64 held.cells
     ∃ t, exec (.heldPass op) s = .next t ∧ t.bankOf op.engine = bank ∧
       (∀ r c, r < op.rows → c < 64 → tileWord t.me.tileSeed t.me.tile (tileKey op.engine op.half (op.firstRow + r) c) =
         heldOutput held.fmt (tileWord s.me.tileSeed s.me.tile (tileKey op.engine op.half (op.firstRow + r) c))
           ((streamed.getD r []).zip (cols.getD c []))) ∧
       (∀ k, (∀ r c, r < op.rows → c < 64 → k ≠ tileKey op.engine op.half (op.firstRow + r) c) →
         tileWord t.me.tileSeed t.me.tile k = tileWord s.me.tileSeed s.me.tile k) ∧
       (∀ r, held.rot = some r → t.drainScale (.held op.engine op.half) = pow2F (-(Nat.log2 r.n : Int))) ∧
       t.me.banks = s.me.banks ∧ t.me.acc = s.me.acc ∧ t.me.leaving = s.me.leaving ∧ t.me.thin = s.me.thin ∧
       s.keeps t ([.seg, .me, .bel] ++ Part.signalled) ∧ s.sameBytes t)

/-- A gathered pass adds to each accumulator of its rows; a gathered drain moves the engine's accumulators to its tile and clears
them; a thin product writes the tiles of its core's matrix-vector path, one for each 64 output columns, from the sums of its parts in
order, and counts as one product. Nothing else of the stores changes. -/
def Obligations.GatheredAndThinProducts : Prop :=
  ∀ s : State, s.enginesOk →
    (∀ op : GatheredPass, (Instr.gatheredPass op).wf = true → ∃ t, exec (.gatheredPass op) s = .next t ∧
      (let fmt := joinFmt (s.viewRef op.rowView).fmt (s.viewRef op.colView).fmt
       let row := fun r => ((s.cells op.rowView op.rows op.steps).getD r []).map fun c => widenCell fmt c.1
       let col := fun c => ((s.cells op.colView 64 op.steps).getD c []).map fun x => widenCell fmt x.1
       ∀ r c, r < op.rows → c < 64 → tileWord t.me.accSeed t.me.acc (accKey op.engine r c) =
         gatheredOutput fmt (tileWord s.me.accSeed s.me.acc (accKey op.engine r c)) ((row r).zip (col c))) ∧
      (∀ k, (∀ r c, r < op.rows → c < 64 → k ≠ accKey op.engine r c) →
        tileWord t.me.accSeed t.me.acc k = tileWord s.me.accSeed s.me.acc k) ∧
      t.me.tile = s.me.tile ∧ t.me.banks = s.me.banks ∧ s.keeps t ([.me, .bel] ++ Part.signalled) ∧ s.sameBytes t) ∧
    (∀ e : Fin 512, ∃ t, exec (.gatheredDrain e) s = .next t ∧
      (∀ r c, r < 128 → c < 64 →
        storeGet 0 t.me.leaving (accKey e r c) = tileWord s.me.accSeed s.me.acc (accKey e r c) ∧
        tileWord t.me.accSeed t.me.acc (accKey e r c) = 0) ∧
      (∀ k, (∀ r c, r < 128 → c < 64 → k ≠ accKey e r c) → storeGet 0 t.me.leaving k = storeGet 0 s.me.leaving k ∧
        tileWord t.me.accSeed t.me.acc k = tileWord s.me.accSeed s.me.acc k) ∧
      t.me.tile = s.me.tile ∧ t.me.banks = s.me.banks ∧ s.touches t [.me] []) ∧
    (∀ op : MvProduct, (Instr.mvProduct op).wf = true → ∃ t, exec (.mvProduct op) s = .next t ∧
      (let row := fun r => ((s.cells op.thin op.rows op.depth).getD r []).map Prod.fst
       let col := fun c => ((s.cells op.streamed op.cols op.depth).getD c []).map Prod.fst
       ∀ r c, r < op.rows → c < op.cols → storeGet 0 t.me.thin (thinKey op.core (c / 64) (r * 64 + c % 64)) =
         (mvParts (op.depth + 1) ((row r).zip (col c))).foldl (heldOutput .if4) 0) ∧
      (∀ k, (∀ r c, r < op.rows → c < op.cols → k ≠ thinKey op.core (c / 64) (r * 64 + c % 64)) →
        storeGet 0 t.me.thin k = storeGet 0 s.me.thin k) ∧
      t.regN (bankKey Reg.ME_MV_PRODUCTS op.core) = min (s.regN (bankKey Reg.ME_MV_PRODUCTS op.core) + 1) (2 ^ 64 - 1) ∧
      t.me.tile = s.me.tile ∧ t.me.acc = s.me.acc ∧ s.keeps t [.regs, .me, .bel] ∧ s.sameBytes t)

/-! ## The vector engines -/

/-- K0 reads as all ones and ignores writes: a mask operation writes its result to K1 to K7 alone, and counts as one instruction
of the engine. A mask store writes the 32 bytes of a mask to the scratchpad. A combination writes the tokens' rows of FP32 to device
memory. What waits for a producer keeps back all that comes after it on its core. A chain of one stage with FP32 results writes each lane
that its mask selects with the stage's result; the other lanes keep their value, or read 0 in ZERO mode; no other register of any
core changes. A reduction of one FP32 vector combines neighbours in pairs, a masked lane contributing nothing, and writes element 0 of
its register: the identity, with EMPTY, when every lane is masked. -/
def Obligations.VectorChainsRun : Prop :=
  (∀ (core : Fin 128) (s : State), s.enginesOk → s.veWaiting core = [] → s.vmask core 0 = BitVec.allOnes 256 ∧
     (∀ (i : VeIssue) (d : Fin 8) (v : BitVec 256),
       ((∃ a b, i = .kand d a b ∧ v = s.vmask core a &&& s.vmask core b) ∨
         (∃ a b, i = .kor d a b ∧ v = s.vmask core a ||| s.vmask core b) ∨
         (∃ a, i = .knot d a ∧ v = ~~~(s.vmask core a)) ∨
         (∃ o, i = .kld d o ∧ v = BitVec.ofNat 256 (s.opNat (spadAddr core o) 32))) →
       ∃ t, exec (.vectorChain core i) s = .next t ∧ (d.val = 0 → t.vmask core 0 = BitVec.allOnes 256) ∧
         (d.val ≠ 0 → t.vmask core d = v) ∧
         (∀ c k : Nat, c < 128 → k < 8 → (c ≠ core ∨ k ≠ d) → t.vmask c k = s.vmask c k) ∧ t.ve.regs = s.ve.regs ∧
         t.ve.bufs = s.ve.bufs ∧ t.regN (bankKey Reg.VE_CHAINS core) = min (s.regN (bankKey Reg.VE_CHAINS core) + 1) (2 ^ 64 - 1) ∧
         s.touches t [.regs, .ve, .bel] [bankKey Reg.VE_CHAINS core]) ∧
     (∀ (a : Fin 8) (o : Nat), ∃ t, exec (.vectorChain core (.kst a o)) s = .next t ∧
       (∀ x, t.devByte x = (s.devWrite .scheduled (spadAddr core o) (leBytes 32 (s.vmask core a).toNat)).devByte x) ∧
       t.ve.regs = s.ve.regs ∧ t.ve.masks = s.ve.masks ∧ t.ve.bufs = s.ve.bufs ∧ s.keeps t ([.mem, .ve, .hbm, .bel] ++ Part.signalled)) ∧
     (∀ (c : ExpertCombine) (e : ExchangeStream), s.exchangeStream c.stream = some e →
       let ref := s.segRef c.tensor 0 (s.plot c.plot).branch false (.near ⟨0, 0, 0⟩)
       ∃ t, exec (.vectorChain core (.combine c)) s = .next t ∧
         (∀ x, t.devByte x = ((List.range c.tokens).foldl (fun a i => a.devWrite .scheduled (c.output + 4 * i * c.record.cols)
           ((List.range c.record.cols).flatMap fun col => leBytes 4 (s.combined c e.choices ref i col).toNat)) s).devByte x) ∧
         t.ve.regs = s.ve.regs ∧ t.ve.masks = s.ve.masks ∧ t.ve.bufs = s.ve.bufs ∧
         s.keeps t ([.mem, .ve, .hbm, .bel] ++ Part.signalled))) ∧
  (∀ (core : Fin 128) (i : VeIssue) (s : State),
     (∀ j js, s.veWaiting core = j :: js → s.ready core j = false →
       exec (.vectorChain core i) s = .next (s.setVeWaiting core (j :: js ++ [i]))) ∧
     (s.veWaiting core = [] → s.ready core i = false → exec (.vectorChain core i) s = .next (s.setVeWaiting core [i])) ∧
     (∀ c k n, i = .chain c → c.ready = some (k, n) → s.ready core i = decide (n ≤ storeGet 0 s.ve.ready (core.val * 64 + k.val)))) ∧
  (∀ (core : Fin 128) (c : VChain) (st : VStage) (n : Fin 32) (s : State), s.enginesOk → s.veWaiting core = [] →
     s.ready core (.chain c) = true → c.fmt = .fp32 → c.stages = [st] → c.red = none → c.final = none → storeFmt c = .fp32 →
     c.dst = .reg n → c.count = 1 → c.collide = [] → (∀ a, shortTarget st.op a = none) →
     let operand := fun src i => (s.operand core c (readFmt c st.op) [] src 0 i).1
     let result := fun i => stageOp fp32 st.op (operand st.a i) (if 2 ≤ arity st.op then operand st.b i else 0)
       (if 3 ≤ arity st.op then operand st.c i else 0)
     ∃ t, exec (.vectorChain core (.chain c)) s = .next t ∧
       (∀ i, i < 128 → t.vreg core n i = if (s.vmask core c.mask).getLsbD i then BitVec.ofNat 32 (result i).bits
         else if c.zero then 0 else s.vreg core n i) ∧
       (∀ k, (∀ i, i < 128 → k ≠ regKey core n i) → storeGet 0 t.ve.regs k = storeGet 0 s.ve.regs k) ∧
       t.ve.masks = s.ve.masks ∧ t.ve.bufs = s.ve.bufs ∧ t.ve.ready = s.ve.ready ∧
       t.regN (bankKey Reg.VE_CHAINS core) = min (s.regN (bankKey Reg.VE_CHAINS core) + 1) (2 ^ 64 - 1) ∧
       s.keeps t [.regs, .seg, .ve, .bel] ∧ s.sameBytes t) ∧
  (∀ (core : Fin 128) (c : VChain) (r : Reduction) (n : Fin 32) (s : State), s.inv → s.enginesOk → s.veWaiting core = [] →
     s.ready core (.chain c) = true → c.fmt = .fp32 → c.red = some r → r.along = false → isArg r.op = false →
     c.final = none → c.dst = .reg n → c.count = 1 → c.whole = false → c.collide = [] →
     let mask := s.vmask core c.mask
     let done := (s.runStages core c mask 0 (chainStart s core c).v [] c.stages).1
     let input := (List.range 128).map fun i => (s.operand core c .fp32 done r.src 0 i).1
     ∃ t, exec (.vectorChain core (.chain c)) s = .next t ∧
       (let x := (treeLevels fp32 r 7 (candidatesOf fp32 r mask id input)).head?.join
        t.vreg core n 0 = BitVec.ofNat 32 ((x.map Cand.val).getD (redIdentity fp32 r.int r.op))) ∧
       ((∀ i, i < 128 → mask.getLsbD i = false) →
         t.vreg core n 0 = BitVec.ofNat 32 (redIdentity fp32 r.int r.op) ∧ t.bit (bankKey Reg.VE_FLAGS core) 5 = true) ∧
       (∀ k, k ≠ regKey core n 0 → storeGet 0 t.ve.regs k = storeGet 0 s.ve.regs k) ∧
       t.ve.masks = s.ve.masks ∧ t.ve.bufs = s.ve.bufs ∧ s.keeps t [.regs, .seg, .ve, .bel] ∧ s.sameBytes t)

/-! ## Self-tests and scans -/

/-! ## The Trellis -/

/-- In a slot that is free one eligible requester is granted: the one promoted first if any is promoted; a class held in the
maintenance slot is not eligible. The grant clears its count, and counts against every other eligible requester. A wait
beyond the bound of R204 is fatal. A flit that fails its CRC is replayed and counted; the sixteenth failure in a row stops
the module's reports. -/
def Obligations.TrellisArbitrates : Prop :=
  (∀ (router : Fin 16) (port : Fin 8) (eligible : List TrlReq) (reuse : Bool) (wait : Nat) (s : State), s.inv →
     s.enginesOk → eligible.Nodup →
     let o := router.val * 8 + port.val
     let es := eligible.filter fun q => !(s.tick.inMaint && heldClass q.cls)
     (es = [] → exec (.dynamicArbitration router port eligible reuse wait) s = .next s) ∧
     (es ≠ [] → ∃ q ∈ es, ∃ t, exec (.dynamicArbitration router port eligible reuse wait) s = .next t ∧
       (∀ p, (s.arbiter o).promoted.find? (fun p => es.contains p) = some p → q = p) ∧
       storeGet 0 (t.arbiter o).passed (reqKey q) = 0 ∧ (q ∈ (s.arbiter o).promoted → q ∉ (t.arbiter o).promoted) ∧
       (∀ p ∈ es, p ≠ q → storeGet 0 (t.arbiter o).passed (reqKey p) = storeGet 0 (s.arbiter o).passed (reqKey p) + 1 ∧
         (64 ≤ storeGet 0 (t.arbiter o).passed (reqKey p) → p ∈ (t.arbiter o).promoted)) ∧
       (∀ k, k ≠ o → t.arbiter k = s.arbiter k) ∧
       t.regN (bankKey Reg.TRL_DYN_GRANTS o) = min (s.regN (bankKey Reg.TRL_DYN_GRANTS o) + 1) (2 ^ 64 - 1) ∧
       t.regN (bankKey Reg.TRL_WAIT_MAX o) = max (s.regN (bankKey Reg.TRL_WAIT_MAX o)) (min wait 65535) ∧
       (waitBound router port < wait → t.bit Reg.TRL_EVENT 0 = true) ∧
       (wait ≤ waitBound router port → t.hlt = s.hlt ∧ t.out = s.out) ∧
       s.keeps t ([.trl, .hlt, .bel] ++ Part.signalled) ∧ s.sameBytes t)) ∧
  (∀ (die link : Fin 2) (again : Bool) (s : State), s.inv →
     let n := if again then storeGet 0 s.trl.fails (die.val * 2 + link.val) + 1 else 1
     ∃ t, exec (.seamCrcFail die link again) s = .next t ∧ storeGet 0 t.trl.fails (die.val * 2 + link.val) = n ∧
       (n < 16 → t.regN Reg.TRL_SEAM_REPLAY = min (s.regN Reg.TRL_SEAM_REPLAY + 1) (2 ^ 32 - 1) ∧
         t.bit Reg.TRL_EVENT 1 = true ∧ t.tick = s.tick) ∧
       (16 ≤ n → t.bit Reg.TRL_EVENT 2 = true ∧ t.tick = { s.tick with stopped := true }) ∧
       s.keeps t ([.tick, .trl, .hlt, .bel] ++ Part.signalled) ∧ s.sameBytes t)

/-! ## Memory -/

/-- A write of backed bytes: each address of a byte written reads it, through either window, and every other address reads as
before, whatever the write-combining buffers do. One marked as an update write goes to the tensor's other copy and makes the other
slab WRITING, but for a preconditioner's; aimed at a frozen tensor it is dropped. -/
def Obligations.WrittenBytesReadBack : Prop :=
  (∀ (s : State) (addr : Nat) (data : List Byte), s.inv → s.combineOk →
    (∀ i, i < data.length → (s.devKey (addr + i)).isSome = true) →
    ∃ t, exec (.hbmWrite (.to addr) data) s = .next t ∧
      (∀ i b, i < data.length → s.devKey b = s.devKey (addr + i) → t.devByte b = data.getD i 0) ∧
      (∀ b, (∀ i, i < data.length → s.devKey b ≠ s.devKey (addr + i)) → t.devByte b = s.devByte b) ∧
      t.hbm.inService = s.hbm.inService ∧ s.keeps t ([.mem, .hbm, .bel] ++ Part.signalled)) ∧
  (∀ (s : State) (n off : Nat) (te : TensorEntry) (u : UpdateSection) (data : List Byte), s.inv → s.combineOk →
    s.tensor? n = some te → s.updSec? = some u →
    let addr := s.copyBase n te true + off
    (te.frozen = false → (∀ i, i < data.length → (s.devKey (addr + i)).isSome = true) →
      ∃ t, exec (.hbmWrite (.update n off) data) s = .next t ∧
        (∀ i b, i < data.length → s.devKey b = s.devKey (addr + i) → t.devByte b = data.getD i 0) ∧
        (∀ b, (∀ i, i < data.length → s.devKey b ≠ s.devKey (addr + i)) → t.devByte b = s.devByte b) ∧
        (preBlockOf u n = none → t.upd = { s.upd with shadow := .writing, shadowStep := s.stepId }) ∧
        ((preBlockOf u n).isSome = true → t.upd = s.upd) ∧ s.keeps t ([.mem, .hbm, .upd, .bel] ++ Part.signalled)) ∧
    (te.frozen = true → ∃ t, exec (.hbmWrite (.update n off) data) s = .next t ∧ t.bit Reg.UPD_STICKY 0 = true ∧
      t.upd = s.upd ∧ s.sameBytes t))

/-- The buffers of the channels keep their form in every step: distinct lines of the channel in canonical stores. The stores of
the engines and arbiters keep their canonical form in every step. -/
def Obligations.StepKeepsBuffers : Prop :=
  (∀ s t : State, s.combineOk → step s = .next t → t.combineOk) ∧
  (∀ s t : State, s.enginesOk → step s = .next t → t.enginesOk)

/-- A read: of an unbacked address it is an address error; with 1 to 3 symbols in error it is corrected, counted and its line
queued for write-back, or dropped behind 64 others; a correction of 3 symbols makes the channel suspect. With 6 or more the code may
miscorrect, which the module takes for a correction: what it returned is delivered and queued for write-back. A second read that
fails too is uncorrectable: counted, recorded if it is the first since the last clear, its channel suspect, and what it delivered goes
to its requester; scheduled traffic of a step spoils it with cause 1, a DMA read keeps its bytes, a read of the image region stops
the module's reports, and a flush merges its entry over what was delivered; its consequence falls on the entry's partial write. -/
def Obligations.ReadsCorrectOrFail : Prop :=
  (∀ (addr : Nat) (who : Requester) (s : State), s.inv → s.combineOk →
     (∀ n wrong, s.readPlace addr who = none → ∃ t, exec (.hbmRead addr who n wrong) s = .next t ∧ t.bit Reg.MEM_EVENT 10 = true ∧
       s.touches t Part.signalled [Reg.MEM_EVENT]) ∧
     (∀ n wrong ch o, s.readPlace addr who = some (ch, o) → (n = 0 ∨ decodeLine n wrong = none) →
       ∃ t, exec (.hbmRead addr who n wrong) s = .next t ∧ t.hbm = { s.hbm with bad := t.hbm.bad } ∧ s.touches t [.hbm, .bel] []) ∧
     (∀ n wrong ch o found, s.readPlace addr who = some (ch, o) → 1 ≤ n → decodeLine n wrong = some found →
       ∀ c ∈ [Instr.hbmRead addr who n wrong, Instr.hbmReadRetry addr who n [] wrong], ∃ t, exec c s = .next t ∧
         t.regN (bankKey Reg.MEM_CE_COUNT ch) = min (s.regN (bankKey Reg.MEM_CE_COUNT ch) + 1) (2 ^ 64 - 1) ∧
         (c = .hbmReadRetry addr who n [] wrong → t.regN (bankKey Reg.MEM_RETRY_COUNT ch) =
           min (s.regN (bankKey Reg.MEM_RETRY_COUNT ch) + 1) (2 ^ 32 - 1)) ∧
         (who ≠ .flush → (s.writeBacks ch).length < 64 → t.writeBacks ch = s.writeBacks ch ++ [(o / 64, found.2)]) ∧
         (who ≠ .flush → 64 ≤ (s.writeBacks ch).length → t.writeBacks ch = s.writeBacks ch ∧ t.bit Reg.MEM_EVENT 5 = true ∧
           t.regN Reg.MEM_WB_DROP = min (s.regN Reg.MEM_WB_DROP + 1) (2 ^ 32 - 1)) ∧
         (found.1 = 3 → t.bit (Reg.MEM_SUSPECT + 4 * (ch / 32)) (ch % 32) = true) ∧
         (who = .scheduled ∨ who = .update ∨ who = .image → found.2 ≠ [] → ∀ i, i < min 64 found.2.length →
           (hbmKey ch (o / 64 * 64) + i, found.2.getD i 0) ∈ t.hbm.bad) ∧
         s.keeps t ([.mem, .free, .hbm, .hlt, .bel] ++ Part.signalled) ∧
         (found.2 = [] ∨ (who ≠ .atomic ∧ who ≠ .flush) → s.sameBytes t))) ∧
  (∀ (addr : Nat) (via : Requester) (n ch o : Nat) (bytes : List Byte) (wrong : Option (Nat × List Byte)) (s : State), s.inv →
     s.combineOk → s.readPlace addr via = some (ch, o) → decodeLine n wrong = none →
     let who := s.readFor ch o via
     ∃ t, exec (.hbmReadRetry addr via n bytes wrong) s = .next t ∧
       t.regN (bankKey Reg.MEM_UE_COUNT ch) = min (s.regN (bankKey Reg.MEM_UE_COUNT ch) + 1) (2 ^ 32 - 1) ∧
       t.bit Reg.MEM_EVENT 1 = true ∧ t.bit (Reg.MEM_SUSPECT + 4 * (ch / 32)) (ch % 32) = true ∧
       (s.bit Reg.MEM_UE_INFO 31 = false → t.regN Reg.MEM_UE_ADDR = windowOffset ch o ∧
         t.regN Reg.MEM_UE_TICK = s.tick.now % 2 ^ 64 ∧ t.regN Reg.MEM_UE_INFO = s.ueInfo who) ∧
       ((who = .scheduled ∨ who = .update) → ∀ r, s.tick.step = some r → t.bit Reg.QNT_SPOIL_CAUSES 0 = true ∧
         (r.voted = false → r.cause = none → t.tick.step = some { r with cause := some (1, s.stitchIx, s.tick.now) })) ∧
       (who ≠ .scheduled → who ≠ .update → who ≠ .image → t.tick = s.tick) ∧
       (who = .image → t.tick = { s.tick with stopped := true } ∧ t.bit Reg.MEM_EVENT 2 = true) ∧
       (∀ e : Fin 8, who = .hostDma e → ∀ f ∈ s.flights e,
         { f with bad := markedBytes (addr / 64 * 64) true bytes ++ f.bad } ∈ t.flights e) ∧
       (via = .scheduled ∨ via = .update ∨ via = .image → ∀ i, i < min 64 bytes.length →
         (hbmKey ch (o / 64 * 64) + i, bytes.getD i 0) ∈ t.hbm.bad) ∧
       (via = .flush → ∀ e ∈ s.wcb ch, e.line = o / 64 → t.wcb ch = (s.wcb ch).filter (fun x => x.line ≠ o / 64) ∧
         ∀ i, i < 64 → t.byteAt (hbmKey ch (64 * (o / 64)) + i) = (mergeBytes e.mask bytes e.data).getD i 0) ∧
       (via ≠ .atomic → via ≠ .flush → s.sameBytes t) ∧ s.hlt.grows t.hlt)

/-- The channel's own work: the oldest write-back is served; scrub reads the next line of a channel in service, correcting it;
a write rejected with all its repeats makes the channel suspect and stops the module's reports, and a shorter run of rejections
changes nothing. -/
def Obligations.ChannelsTendThemselves : Prop :=
  ∀ s : State, s.inv → s.combineOk →
    (∀ ch : Fin 256, s.writeBacks ch = [] → exec (.writeBack ch) s = .next s) ∧
    (∀ (ch : Fin 256) l bytes q, s.writeBacks ch = (l, bytes) :: q → ∃ t, exec (.writeBack ch) s = .next t ∧ t.writeBacks ch = q ∧
      s.keeps t [.mem, .hbm, .bel] ∧ (bytes = [] → s.sameBytes t) ∧
      (∀ i, i < min 64 bytes.length → t.byteAt (hbmKey ch (64 * l) + i) = bytes.getD i 0)) ∧
    (∀ (ch : Fin 256) n wrong, s.hbm.inService.getLsbD ch = true → ∃ t, exec (.patrolScrub ch n wrong) s = .next t ∧
      storeGet 0 t.hbm.scrub ch = (storeGet 0 s.hbm.scrub ch + 1) % 31250000 ∧
      t.regN (bankKey Reg.MEM_CE_COUNT ch) = (if 1 ≤ n ∧ (decodeLine n wrong).isSome
        then min (s.regN (bankKey Reg.MEM_CE_COUNT ch) + 1) (2 ^ 64 - 1) else s.regN (bankKey Reg.MEM_CE_COUNT ch)) ∧
      s.keeps t ([.free, .hbm, .hlt, .bel] ++ Part.signalled) ∧ s.sameBytes t) ∧
    (∀ (ch : Fin 256) n wrong, s.hbm.inService.getLsbD ch = false → exec (.patrolScrub ch n wrong) s = .next s) ∧
    (∀ addr ch o n, s.hbmPlace addr = some (ch, o) → 9 ≤ n → ∃ t, exec (.writeCrcReject addr n) s = .next t ∧
      t.bit (Reg.MEM_SUSPECT + 4 * (ch / 32)) (ch % 32) = true ∧ t.bit Reg.MEM_EVENT 4 = true ∧
      t.tick = { s.tick with stopped := true } ∧ s.keeps t ([.tick, .hlt] ++ Part.signalled) ∧ s.sameBytes t) ∧
    (∀ addr ch o n, s.hbmPlace addr = some (ch, o) → n < 9 → exec (.writeCrcReject addr n) s = .next s)

/-- An atomic on backed HBM combines the operand with the bytes that a read returned before it, element by element; a fetch
returns those bytes; no other address reads differently. -/
def Obligations.AtomicsApplyWhole : Prop :=
  ∀ (op : AtomicOp) (fmt : AtomicFmt) (addr : Nat) (data : List Byte) (fetch : Bool) (s : State) (ch o : Nat), s.inv →
    s.combineOk → (Instr.memoryAtomic op fmt addr data fetch).wf = true → s.hbmPlace addr = some (ch, o) →
    ∃ t, exec (.memoryAtomic op fmt addr data fetch) s = .next t ∧
      (∀ i, i < data.length → t.devByte (addr + i) =
        (atomicBytes op fmt data.length (s.devBytes addr data.length) data).getD i 0) ∧
      (∀ b, (∀ i, i < data.length → s.devKey b ≠ s.devKey (addr + i)) → t.devByte b = s.devByte b) ∧
      (fetch = true → t.out = s.out ++ [.fetched (s.devBytes addr data.length)]) ∧ (fetch = false → t.out = s.out) ∧
      t.regN Reg.MEM_ATOMICS = min (s.regN Reg.MEM_ATOMICS + 1) (2 ^ 64 - 1) ∧
      s.keeps t [.regs, .mem, .out, .hbm, .bel]

/-- A write of the channel map that the seed bank takes reads back at once; with no image held the channels it maps out leave
service at once and those it maps in wait for their test; with one LOADED, ARMED or RUNNING service does not change and the
image is marked. The end of a channel's test leaves zeros in it: a pass puts it into service when no image is held, a
failure clears its bit, keeps the channel out of service and marks an image that is held. Readings on the timer, while no image is RUNNING: each stack's temperature shows, 85 °C marks it
hot, and the full required idle share applies at once; while one is RUNNING, and in A2 and A3, the timer reads nothing. -/
def Obligations.MapsAndHeatChange : Prop :=
  (∀ s : State, s.inv → s.combineOk →
     (∀ (k : Fin 8) (v : Word), s.hosted → s.frozen (8 + k) = false → (queued s.sbk.queue).length < 16 →
       ∃ t, exec (.mapWrite k v) s = .next t ∧ t.seed (8 + k) = v ∧
         (∀ b, b < 32 → ((s.seed (8 + k)).getLsbD b = false → v.getLsbD b = true → (32 * k.val + b) ∈ t.hbm.mapIn) ∧
           ((s.seed (8 + k)).getLsbD b = true → v.getLsbD b = false → (32 * k.val + b) ∉ t.hbm.mapIn)) ∧
         (s.image.st = .empty → t.hbm.inService = t.wantedMap ∧ t.image = s.image) ∧
         ((s.image.st = .loaded ∨ s.image.st = .armed ∨ s.image.st = .running) → t.hbm.inService = s.hbm.inService ∧
           (v ≠ s.seed (8 + k) → t.image = { s.image with mapChanged := true })) ∧ t.mem = s.mem) ∧
     (∀ (ch : Fin 256) (pass : Bool), ch.val ∈ s.hbm.mapIn → s.frozen (8 + ch / 32) = false →
       (queued s.sbk.queue).length < 16 → ∃ t, exec (.mapInTestDone ch pass) s = .next t ∧ ch.val ∉ t.hbm.mapIn ∧
         (∀ o, o < 2000000000 → t.byteAt (hbmKey ch o) = 0) ∧
         (∀ c o, c < 256 → c ≠ ch → o < 2000000000 → t.byteAt (hbmKey c o) = s.byteAt (hbmKey c o)) ∧
         (pass = true → s.image.st = .empty → t.hbm.inService = t.wantedMap) ∧
         (pass = true → s.image.st = .running → t.hbm.inService = s.hbm.inService) ∧
         (pass = false → (t.seed (8 + ch / 32)).getLsbD (ch % 32) = false ∧ t.bit Reg.MEM_EVENT 9 = true ∧
           t.bit (Reg.MEM_SUSPECT + 4 * (ch.val / 32)) (ch.val % 32) = true ∧ t.hbm.inService = s.hbm.inService ∧
           ch.val ∈ t.hbm.mapFailed ∧
           t.image = (if s.image.st = .empty ∨ (s.seed (8 + ch / 32)).getLsbD (ch % 32) = false then s.image
             else { s.image with mapChanged := true })) ∧
         (pass = true → t.image = s.image))) ∧
  (∀ (temps : List Nat) (s : State), s.inv → temps.length = 8 →
     (s.image.st ≠ .running → (s.ldg.ps = .a0 ∨ s.ldg.ps = .a1) → ∃ t, exec (.hbmTempTimer temps) s = .next t ∧
       (∀ k, k < 8 → let θ := min (temps.getD k 0) 255
         t.fld (if k < 4 then Reg.MEM_TEMP0 else Reg.MEM_TEMP1) (8 * (k % 4) + 7) (8 * (k % 4)) = θ ∧
         t.hbm.hot.getLsbD k = decide (85 ≤ θ) ∧
         t.fld (Reg.MEM_THROTTLE + 4 * (k / 2)) (16 * (k % 2) + 9) (16 * (k % 2)) =
           (if θ < s.throttleAt then 0 else 32 * (θ - s.throttleAt + 1)) % 1024) ∧
       t.hbm.inService = s.hbm.inService ∧
       s.touches t [.regs, .hbm, .hlt] ([Reg.MEM_TEMP0, Reg.MEM_TEMP1] ++ (List.range 4).map fun i => Reg.MEM_THROTTLE + 4 * i)) ∧
     ((s.image.st = .running ∨ s.ldg.ps = .a2 ∨ s.ldg.ps = .a3) → exec (.hbmTempTimer temps) s = .next s))

/-! ## The update units -/

/-- Work that names a frozen tensor is dropped and its blocks are counted, which spoils the step with cause 5 under the image's strict
flag. Rule 2 work waits until its whole block is staged. A refresh of another group than the step's is not worked; one of the step's
writes the statistic and the root into their other copies. Elementwise work makes the other slab WRITING for this step and adds the
squares of its scaled gradients to the unit's norm. Epoch and current slab stay. -/
def Obligations.UpdateUnitsWork : Prop :=
  ∀ (unit : Fin 16) (tensor : Nat) (s : State) (u : UpdateSection), s.inv → s.updSec? = some u →
    (∀ w : UpdWork, s.aimedAtFrozen u tensor w = true →
      ∃ t, exec (.updateBlock unit tensor w) s = .next t ∧ t.bit Reg.UPD_STICKY 0 = true ∧
        t.regN Reg.UPD_FROZEN_DROPS = min (s.regN Reg.UPD_FROZEN_DROPS + workBlocks w) (2 ^ 32 - 1) ∧ t.upd = s.upd ∧ s.sameBytes t ∧
        ((s.img.map fun f => f.header.flags.testBit 0).getD false = false → s.touches t [.regs, .bel]
          [Reg.UPD_STICKY, Reg.UPD_FROZEN_DROPS]) ∧
        ((s.img.map fun f => f.header.flags.testBit 0).getD false = true → s.tick.step.isSome = true →
          t.bit Reg.QNT_SPOIL_CAUSES 4 = true)) ∧
    (∀ w : UpdWork, s.aimedAtFrozen u tensor w = false → s.stagedFor u tensor w = false →
      exec (.updateBlock unit tensor w) s = .next { s with upd := { s.upd with waiting := s.upd.waiting ++ [(unit.val, tensor, w)] } }) ∧
    (∀ n, s.aimedAtFrozen u tensor (.stream n) = false → exec (.updateBlock unit tensor (.stream n)) s = .next s) ∧
    (∀ k g plot wire x b, u.sets[k]? = some x → preOf u g = some b → s.aimedAtFrozen u tensor (.refresh k g plot wire) = false →
      s.stagedFor u tensor (.refresh k g plot wire) = true →
      (b.group ≠ s.upd.epoch % u.period → exec (.updateBlock unit tensor (.refresh k g plot wire)) s = .next s) ∧
      (b.group = s.upd.epoch % u.period →
        let r := refreshOf x b.d (s.statMatrix b.stat b.d) (s.gradMatrix (s.entryOf tensor) g b plot wire (s.coef x).k)
        let root := r.p.map fun row => row.map fun w => (encode16 .bf16 w false false none).1.code
        ∃ t, exec (.updateBlock unit tensor (.refresh k g plot wire)) s = .next t ∧
          (∀ a, t.devByte a = ((s.writeMatrix b.stat 4 r.a fun w => leBytes 4 w.toNat).writeMatrix b.root 2
            (root.map fun row => row.map (BitVec.ofNat 32)) fun w => leBytes 2 w.toNat).devByte a) ∧
          t.regN Reg.UPD_REFRESHED = min (s.regN Reg.UPD_REFRESHED + 1) (2 ^ 32 - 1) ∧ s.sameSlabs t ∧ t.image = s.image)) ∧
    (∀ (e : UpdElem) (x : UpdateSet), s.aimedAtFrozen u tensor (.elementwise e) = false →
      s.stagedFor u tensor (.elementwise e) = true → u.sets[e.set]? = some x → storeWf 0 s.upd.norms = true →
      let te := s.entryOf tensor
      let b := if x.rule = 2 then e.pre.bind fun g => (preOf u g).map fun b => (g, b) else none
      ∃ t, exec (.updateBlock unit tensor (.elementwise e)) s = .next t ∧
        t.upd.shadow = .writing ∧ t.upd.shadowStep = s.stepId ∧ t.upd.epoch = s.upd.epoch ∧ t.upd.slabB = s.upd.slabB ∧
        storeGet 0 t.upd.norms unit = normAdd (storeGet 0 s.upd.norms unit) ((s.rawGrads te e b).map (mulF x.gradScale)) ∧
        t.regN Reg.UPD_PARAMS = min (s.regN Reg.UPD_PARAMS + ((List.range e.count).filter fun i =>
          inTensor (segExtents te e.segment) (e.first + i)).length) (2 ^ 64 - 1) ∧ t.image = s.image ∧ t.me = s.me)

/-! ## The Cloister -/

/-- The next block of a plot's stream is taken once frames hold it. One that no reduction expects, a malformed one, or, but in digest
mode, one with a wrong residue byte is fatal: the first such is recorded, and the module's reports stop. A good one waits for its
addition or, as a finished sum, goes to the update unit's plot buffer and, in mode All, on to the next position. An addition waits for
its operands, adds them whole, gives them up and places the sum: in a buffer, at its owner's update unit, or in the stream to the next
position; one local contribution alone goes on as it is. A check that fails once has the addition repeated and counted, one that fails
twice is fatal. -/
def Obligations.BlocksArriveAndAdd : Prop :=
  (∀ (op : BlockArrival) (s : State), s.inv →
     let port := op.port.val
     let k := s.taken op.plot port
     let b := s.streamBlock op.plot port k
     let fatal := fun (kind : Nat) => ∃ t, exec (.cloisterBlockArrival op) s = .next t ∧
       t.regN Reg.CLO_BLOCKS_RX = min (s.regN Reg.CLO_BLOCKS_RX + 1) (2 ^ 64 - 1) ∧ t.taken op.plot port = k + 1 ∧
       t.bit Reg.CLO_EVENT 1 = true ∧ t.tick = { s.tick with stopped := true } ∧ t.clo.ops = s.clo.ops ∧
       (s.bit Reg.CLO_FAIL_INFO 31 = false →
         t.regN Reg.CLO_FAIL_INFO = kind + 16 * port + 256 * (op.plot % 2 ^ 18) + 2 ^ 31 ∧ t.regN Reg.CLO_FAIL_TICK = s.tick.now % 2 ^ 64)
     ((s.linkEnd op.plot port true).frames * 5120 < 66 * (k + 1) → exec (.cloisterBlockArrival op) s = .next s) ∧
     (66 * (k + 1) ≤ (s.linkEnd op.plot port true).frames * 5120 →
       (s.gReduction op.plot = none → fatal 6) ∧
       (∀ g, s.gReduction op.plot = some g → (s.shareIn g port = none → fatal 6) ∧
         ∀ x, s.shareIn g port = some x → (shareTotal g x ≤ k → fatal 6) ∧
           (k < shareTotal g x → (∀ kind, s.blockFailure b = some kind → fatal kind) ∧
             (s.blockFailure b = none → ∃ t, exec (.cloisterBlockArrival op) s = .next t ∧
               t.regN Reg.CLO_BLOCKS_RX = min (s.regN Reg.CLO_BLOCKS_RX + 1) (2 ^ 64 - 1) ∧ t.taken op.plot port = k + 1 ∧
               (k < x.received.length → t.ringPlace op.plot (x.received.getD k 0) = k + 1 ∧ t.tick = s.tick ∧
                 (s.digestMode = false → s.sameBytes t)) ∧
               (x.received.length ≤ k → s.digestMode = false → s.upd.waiting = [] →
                 let seq := x.finals.getD (k - x.received.length) 0
                 t.tick = s.tick ∧ s.finalIndex g seq ∈ (t.plot g.update).landed ∧
                 (∀ a, t.devByte a = (s.devWrite .scheduled (plotBase (s.plot g.update) + 66 * s.finalIndex g seq)
                   (blockBytes b)).devByte a) ∧
                 t.tx g.plot x.ring.send = (s.passFinal g x seq b).tx g.plot x.ring.send)))))) ∧
  (∀ (op : BlockAdd) (s : State) (g : GReduction) (x : RingShare), s.inv → s.enginesOk → storeWf {} s.stl.plots = true →
     op.wf = true → s.gReduction op.plot = some g → s.shareOf g op.seq = some x →
     let bs := s.addOperands op x
     let t1 := addTry s.digestMode bs op.first
     let t2 := addTry s.digestMode bs op.again
     let fatal := fun (kind : Nat) => ∃ t, exec (.blockAddition op) s = .next t ∧ t.bit Reg.CLO_EVENT 1 = true ∧
       t.tick = { s.tick with stopped := true } ∧ s.sameBytes t ∧ t.reg Reg.CLO_ADDS = s.reg Reg.CLO_ADDS ∧
       (s.bit Reg.CLO_FAIL_INFO 31 = false → t.regN Reg.CLO_FAIL_INFO = kind + 256 * (op.plot % 2 ^ 18) + 2 ^ 31)
     let placed := fun (t : State) (b : WireBlock) => s.digestMode = false → s.upd.waiting = [] →
       (∀ p, op.partialTo = some p → t.tick = s.tick ∧ op.seq ∈ (t.plot p).landed ∧
         ∀ a, t.devByte a = (s.devWrite .scheduled (plotBase (s.plot p) + 66 * op.seq) (blockBytes b)).devByte a) ∧
       (op.partialTo = none → x.owns op.seq = false → t.tick = s.tick ∧ s.sameBytes t ∧
         t.tx g.plot x.ring.send = (s.sendBlock g x (x.sent.findIdx (· = op.seq)) b).tx g.plot x.ring.send ∧
         (∀ p ∈ op.locals, op.seq ∉ (t.plot p).landed)) ∧
       (op.partialTo = none → x.owns op.seq = true → s.blockFailure b = none → t.tick = s.tick ∧
         s.finalIndex g op.seq ∈ (t.plot g.update).landed ∧
         ∀ a, t.devByte a = (s.devWrite .scheduled (plotBase (s.plot g.update) + 66 * s.finalIndex g op.seq) (blockBytes b)).devByte a)
     (s.operandsThere op = false → exec (.blockAddition op) s = .next s) ∧
     (s.operandsThere op = true →
       (∀ kind, s.localFailure op = some kind → fatal kind) ∧
       (s.localFailure op = none → bs.length = 1 → ∃ t, exec (.blockAddition op) s = .next t ∧
         t.reg Reg.CLO_ADDS = s.reg Reg.CLO_ADDS ∧ ∀ b ∈ bs, placed t b) ∧
       (s.localFailure op = none → 2 ≤ bs.length → (t1.failed = none ∨ t2.failed = none) →
         let r := if t1.failed = none then t1 else t2
         ∃ t, exec (.blockAddition op) s = .next t ∧ t.regN Reg.CLO_ADDS = min (s.regN Reg.CLO_ADDS + 1) (2 ^ 64 - 1) ∧
           t.regN Reg.CLO_SAT_COUNT = (if r.sat then min (s.regN Reg.CLO_SAT_COUNT + 1) (2 ^ 32 - 1) else s.regN Reg.CLO_SAT_COUNT) ∧
           t.regN Reg.CLO_RECOMPUTE = (if t1.failed = none then s.regN Reg.CLO_RECOMPUTE
             else min (s.regN Reg.CLO_RECOMPUTE + 1) (2 ^ 32 - 1)) ∧
           (op.ring = true → t.ringPlace op.plot op.seq = 0) ∧ placed t r.block) ∧
       (s.localFailure op = none → 2 ≤ bs.length → t1.failed.isSome = true → ∀ kind, t2.failed = some kind → fatal kind)))

/-- A Class S reduction at this node, outside the commit stile: one that is over, that has gone up, or that misses an input does
nothing; a difference between the two combiners is fatal; whole, it goes up the tree, and at the root it is the result. A result that
is complete is counted and used; for one that is incomplete, or missing at its deadline, the operation's substitute stands in for
every element, a running step has cause 3, and at the deadline the node still sends on what it holds, marked. -/
def Obligations.ClassSReduces : Prop :=
  ∀ (red : SReduce) (s : State) (x : Topo), s.inv → s.topo? = some x → red.use ≠ .commit → red.wf = true →
    let own := s.ownVector red
    let inc := (s.kidParts x red.plot).any fun k => k.2.incomplete
    let v := s.nodeVector x red
    let whole := own ≠ [] ∧ s.kidMissing x red.plot = false
    let substitute := List.replicate red.count (sSubstitute red.op)
    let ended := fun (u : State) (r : List DWord) =>
      (u.sred red.plot).result = some r ∧ (u.sred red.plot).closedAt = some s.tick.now ∧ u.tick = s.tick
    let down := fun (u : State) (w : SVec) => ∀ c ∈ x.treeChildren, ∀ p, s.portOf c.1 = some p →
      vecBytes s.digestMode w ∈ (u.tx red.plot p).vecs
    let done := fun (c : Instr) (w : SVec) (slack : Nat) => ∃ u, exec c s = .next (u.useResult red w.data) ∧ ended u w.data ∧ down u w ∧
      u.regN Reg.CLO_S_DONE = min (s.regN Reg.CLO_S_DONE + 1) (2 ^ 32 - 1) ∧
      u.regN Reg.CLO_S_SLACK_MIN = min (s.regN Reg.CLO_S_SLACK_MIN) slack
    let late := fun (c : Instr) (sent : State → Prop) => ∃ u t, exec c s = .next t ∧ ended u substitute ∧ sent u ∧
      u.regN Reg.CLO_S_LATE = min (s.regN Reg.CLO_S_LATE + 1) (2 ^ 32 - 1) ∧ u.bit Reg.CLO_EVENT 2 = true ∧
      t = (match red.use with
        | .stile n => ((u.spoil 3).useResult red substitute).releaseStile n
        | _ => (u.spoil 3).useResult red substitute) ∧
      (∀ r, red.use = .plain → s.tick.step = some r → t.bit Reg.QNT_SPOIL_CAUSES 2 = true ∧
        (r.voted = false → r.cause = none → t.tick.step = some { r with cause := some (3, s.stitchIx, s.tick.now) }) ∧
        (r.voted = true → s.commit.lateCause = 0 → t.commit.lateCause = 3))
    (∀ slack, ∃ t, exec (.classSCombine red true slack) s = .next t ∧ t.bit Reg.CLO_EVENT 1 = true ∧
      t.tick = { s.tick with stopped := true } ∧ t.clo = s.clo) ∧
    (∀ slack, (s.sumOpen red = false ∨ (s.sred red.plot).sent = true ∨ ¬ whole) →
      exec (.classSCombine red false slack) s = .next s) ∧
    (∀ slack, s.sumOpen red = true → (s.sred red.plot).sent = false → whole →
      (∀ p port, x.treeParent = some p → s.portOf p = some port → ∃ t, exec (.classSCombine red false slack) s = .next t ∧
        (t.tx red.plot port).vecs = (s.tx red.plot port).vecs ++ [vecBytes s.digestMode ⟨v, inc⟩] ∧
        (t.sred red.plot).sent = true ∧ t.tick = s.tick) ∧
      (x.treeParent = none → (inc = false → done (.classSCombine red false slack) ⟨v, false⟩ slack) ∧
        (inc = true → late (.classSCombine red false slack) fun u => down u ⟨v, true⟩))) ∧
    (∀ slack, (s.parentVec x red.plot = none ∨ s.sumOpen red = false) → exec (.classSResult red slack) s = .next s) ∧
    (∀ slack w, s.parentVec x red.plot = some w → s.sumOpen red = true →
      (w.incomplete = false → done (.classSResult red slack) w slack) ∧
      (w.incomplete = true → late (.classSResult red slack) fun u => down u w)) ∧
    (s.sumOpen red = false → exec (.classSDeadline red) s = .next s) ∧
    (s.sumOpen red = true → late (.classSDeadline red) fun u =>
      let w : SVec := ⟨v, own.isEmpty || s.kidMissing x red.plot || inc⟩
      (x.treeParent = none → down u w) ∧
      (∀ p port, x.treeParent = some p → (s.sred red.plot).sent = false → s.portOf p = some port →
        (u.tx red.plot port).vecs = (s.tx red.plot port).vecs ++ [vecBytes s.digestMode w]))

/-! ## Pyurn -/

/-- A port whose lanes are trained and aligned sends its hello in a frame; a hello makes it UP and records the partner, and a changed
identity under a job fails it, as does the loss of a lane in use; a failed port stops the reports of a job. RETRAIN trains a
port that is up or failed outside a job; WAKE_SEND sends the wake pattern on the selected port. -/
def Obligations.PortsTrainMeetAndFail : Prop :=
  ∀ (p : Fin 16) (s : State), s.inv →
    (∀ lanes : BitVec 8, (s.port p).st = portTraining → (s.port p).width ≠ 0 →
      (physLanes (s.port p).map (s.port p).width).all (fun l => lanes.getLsbD l) = true →
      ∃ t f, exec (.portTrainingDone p lanes) s = .next t ∧ t.out = s.out ++ [.frame p f] ∧ f.kind = 2 ∧ f.seq = (s.port p).txSeq ∧
        f.payload = leBytes 8 Config.moduleId.toNat ++ leBytes 1 p.val ∧ (t.port p).locked = lanes ∧ (t.port p).aligned = true ∧
        (t.port p).st = portTraining ∧ (t.port p).sent = (s.port p).sent ++ [(f, 0)] ∧
        (t.port p).txSeq = ((s.port p).txSeq + 1) % 4096 ∧ (∀ q, q ≠ p.val → t.port q = s.port q) ∧ s.touches t [.pyu, .out, .bel] []) ∧
    (∀ peer peerPort, (((s.port p).st = portTraining ∧ (s.port p).aligned = true) ∨ (s.port p).st = portUp) →
      (s.jobLive = false → ∃ t, exec (.helloFrame p peer peerPort) s = .next t ∧ (t.port p).st = portUp ∧
        (t.port p).peerId = peer ∧ (t.port p).peerPort = peerPort ∧ (t.port p).known = true ∧
        (t.port p).rxSeq = ((s.port p).rxSeq + 1) % 4096 ∧ s.touches t [.pyu] []) ∧
      (s.jobLive = true → (s.port p).known = true → (s.port p).peerId ≠ peer →
        ∃ t, exec (.helloFrame p peer peerPort) s = .next t ∧ (t.port p).st = portFailed ∧ t.bit Reg.PYU_EVENT 7 = true ∧
          t.bit Reg.PYU_EVENT 0 = true ∧ t.tick = { s.tick with stopped := true } ∧ t.image = s.image)) ∧
    (∀ lane : Fin 8, (s.port p).st = portUp → ∃ t, exec (.laneLockLoss p lane) s = .next t ∧
      (t.port p).locked.getLsbD lane = false ∧
      (lane.val ∈ physLanes (s.port p).map (s.port p).width → (t.port p).st = portFailed ∧ t.bit Reg.PYU_EVENT 0 = true ∧
        t.tick.stopped = (s.tick.stopped || s.jobLive)) ∧
      (lane.val ∉ physLanes (s.port p).map (s.port p).width → (t.port p).st = portUp ∧ s.touches t [.pyu] []) ∧
      (∀ q, q ≠ p.val → t.port q = s.port q)) ∧
    (s.hosted → s.jobLive = true → exec .retrain s = .next s) ∧
    (s.hosted → s.jobLive = false → s.fld Reg.PYU_SEL 3 0 = p →
      ((s.port p).st = portFailed ∨ (s.port p).st = portUp ∨ (s.port p).st = portTraining) →
      ∃ t, exec .retrain s = .next t ∧ (t.port p).st = portTraining ∧ (t.port p).map = s.laneMap p ∧
        (t.port p).sent = [] ∧ (∀ q, q ≠ p.val → t.port q = s.port q) ∧ s.touches t [.pyu] []) ∧
    (s.hosted → exec .wakeSend s = .next { s with out := s.out ++ [.wakePattern (s.fld Reg.PYU_SEL 3 0)] })

/-- A frame period of a port that is UP, with nothing to send but the idle frame: a bad frame is discarded and asked for again
by NAK with the last good SEQ; a good frame out of order is discarded; one in order is acknowledged, and the credits that it brings
return to their sender; a data frame in its place is stored, a misplaced one is fatal. A port that is not UP receives nothing. A data
frame goes out only against a credit of its plot, which it takes, and not in the maintenance slot; with none to go the port sends an
idle frame. A NAK, and 64 frames left unacknowledged, begin a replay: the oldest frame goes again with the acknowledgement of now,
counted once; the frame that has been replayed 16 times fails the port. -/
def Obligations.FramesFlowAndReplay : Prop :=
  (∀ (p : Fin 16) (a : FrameIn) (s : State), s.inv → storeWf {} s.pyu.ends = true →
     ((s.port p).st ≠ portUp → exec (.frameReceive p a) s = .next s) ∧
     ((s.port p).st = portUp → (s.port p).sent = [] → (s.port p).cursor = none → a.done = [] → a.offers = [] →
       let bad := a.uncorr ≠ 0 ∨ a.crcBad = true
       let next := a.frame.seq = ((s.port p).rxSeq + 1) % 4096
       let x := s.plot a.frame.plot
       let e := s.linkEnd a.frame.plot p true
       let early := s.earlyFrame e a.frame.pos
       let expected := s.crosses a.frame.plot p true && (early || decide (a.frame.pos = e.frames % 65536))
       ∃ t f, exec (.frameReceive p a) s = .next t ∧ .frame p f ∈ t.out ∧ f.kind = 0 ∧ f.seq = (s.port p).txSeq ∧
         f.ack = (t.port p).rxSeq ∧ f.nak = (t.port p).asking ∧ (t.port p).txSeq = ((s.port p).txSeq + 1) % 4096 ∧
         (t.port p).sent = [(f, 0)] ∧
         (bad → (t.port p).rxSeq = (s.port p).rxSeq ∧ (t.port p).asking = true ∧ s.sameBytes t) ∧
         (¬ bad → ¬ next → (t.port p).rxSeq = (s.port p).rxSeq ∧ (t.port p).asking = (s.port p).asking ∧ s.sameBytes t) ∧
         (¬ bad → next → (t.port p).rxSeq = a.frame.seq ∧ (t.port p).asking = false) ∧
         (¬ bad → next → a.frame.kind = 0 → a.frame.creditCount ≠ 0 →
           let q := a.frame.creditPlot
           (ownEnd (s.plot q) p false = true → (t.plot q).held = min 65535 ((s.plot q).held + a.frame.creditCount)) ∧
           (ownEnd (s.plot q) p false = false → (t.linkEnd q p false).used = (s.linkEnd q p false).used - a.frame.creditCount)) ∧
         (¬ bad → next → a.frame.kind = 1 → a.frame.creditCount = 0 → expected = true →
           (t.plot a.frame.plot).arrived = x.arrived + 1 ∧ (t.plot a.frame.plot).branch = a.frame.branch ∧
           (early = false → (t.linkEnd a.frame.plot p true).frames = e.frames + 1) ∧
           (early = true → (t.linkEnd a.frame.plot p true).early = e.early + 1) ∧
           (ownEnd x p true = true → (t.plot a.frame.plot).held = x.held + 1 ∧
             (early = false → (t.plot a.frame.plot).position = x.position + 1)) ∧
           t.regN (bankKey Reg.PYU_FRAMES_RX p) = min (s.regN (bankKey Reg.PYU_FRAMES_RX p) + 1) (2 ^ 64 - 1) ∧
           (x.kind = 1 → ∀ b, t.devByte b = (s.devWrite .scheduled (frameAt x (x.arrived % max x.credits 1))
             (usedBytes a.frame)).devByte b)) ∧
         (¬ bad → next → a.frame.kind = 1 → a.frame.creditCount = 0 → expected = false →
           t.bit Reg.CLO_EVENT 1 = true ∧ t.tick.stopped = true ∧ s.sameBytes t) ∧
         (¬ bad → next → a.frame.kind = 4 → a.frame.creditCount = 0 →
           t.xch a.frame.plot = (s.occupancy a).xch a.frame.plot ∧ ∀ b, t.devByte b = (s.occupancy a).devByte b))) ∧
  (∀ (p : Fin 16) (o : Offer) (a : FrameIn) (s : State), s.inv → (s.port p).st = portUp → (s.port p).sent = [] →
     (s.port p).cursor = none → a.done = [] → a.offers = [o] → a.uncorr = 0 → a.crcBad = true →
     (s.ready1 p o = none → ∃ t f, exec (.frameReceive p a) s = .next t ∧ .frame p f ∈ t.out ∧ f.kind = 0 ∧
       t.plot o.plot = s.plot o.plot) ∧
     (∀ r, s.ready1 p o = some r → (r.frame.kind ≠ 4 → 0 < s.creditsAt o.plot p) ∧ s.tick.inMaint = false ∧
       s.crosses o.plot p false = true ∧ ∃ t f, exec (.frameReceive p a) s = .next t ∧ .frame p f ∈ t.out ∧ f.kind = r.frame.kind ∧
       f.plot = r.frame.plot ∧ f.branch = r.frame.branch ∧ f.payload = r.frame.payload ∧ f.pos = r.frame.pos ∧
       f.seq = (s.port p).txSeq ∧
       (r.frame.kind ≠ 4 → (t.linkEnd o.plot p false).frames = (s.linkEnd o.plot p false).frames + 1 ∧
         (ownEnd (s.plot o.plot) p false = true → (t.plot o.plot).held = (s.plot o.plot).held - 1 ∧
           (t.plot o.plot).position = (s.plot o.plot).position + 1) ∧
         t.regN (bankKey Reg.PYU_FRAMES_TX p) = min (s.regN (bankKey Reg.PYU_FRAMES_TX p) + 1) (2 ^ 64 - 1)))) ∧
  (∀ (p : Fin 16) (f : Frame) (n : Nat) (rest : List (Frame × Nat)) (s : State), s.inv → (s.port p).st = portUp →
     (s.port p).cursor = none → (s.port p).sent = (f, n) :: rest →
     ∀ c, (c = .replayTimeout p ∧ 63 ≤ rest.length) ∨
       (∃ a : FrameIn, c = .frameReceive p a ∧ a.uncorr = 0 ∧ a.crcBad = true ∧ a.done = [] ∧ 63 ≤ rest.length) ∨
       (∃ a : FrameIn, c = .frameReceive p a ∧ a.uncorr = 0 ∧ a.crcBad = false ∧ a.done = [] ∧ a.offers = [] ∧
         a.frame.seq = ((s.port p).rxSeq + 1) % 4096 ∧ a.frame.nak = true ∧ a.frame.kind = 0 ∧ a.frame.creditCount = 0 ∧
         f.seq < 4096 ∧ (a.frame.ack + 1) % 4096 = f.seq) →
       (n < 16 → ∃ t, exec c s = .next t ∧ .frame p { f with ack := (t.port p).rxSeq, nak := (t.port p).asking } ∈ t.out ∧
         (t.port p).sent = ((f, n) :: rest).map (fun e => (e.1, e.2 + 1)) ∧ (t.port p).st = portUp ∧
         t.bit Reg.PYU_EVENT 1 = true ∧
         t.regN (bankKey Reg.PYU_REPLAYS p) = min (s.regN (bankKey Reg.PYU_REPLAYS p) + 1) (2 ^ 32 - 1)) ∧
       (16 ≤ n → ∃ t, exec c s = .next t ∧ (t.port p).st = portFailed ∧ t.bit Reg.PYU_EVENT 0 = true ∧
         t.tick.stopped = (s.tick.stopped || s.jobLive)))

/-- A child's report of this tick joins the module's own, and with every child's in, the combination goes up, or, at the root of a
job it covers, is held and goes down; a report from the parent is held and goes to each child. -/
def Obligations.BeaconsCombine : Prop :=
  ∀ (s : State) (x : Topo) (m : Beacon) (delay : Nat), s.inv → s.tick.ticking = true → s.topo? = some x →
    m.tick = s.tick.now % 2 ^ 48 →
    (∀ child own, x.beaconChildren = [child] → s.tick.own = some own → s.tick.sentUp = false →
      let b := joinBeacon own m
      (∀ parent, x.beaconParent = some parent → ∃ t, exec (.beaconUp child m delay) s = .next t ∧ t.tick.sentUp = true ∧
        t.out = s.out ++ [.beaconUp parent b] ∧ t.tick.held = s.tick.held ∧ s.touches t [.tick, .out, .pyu, .bel] []) ∧
      (x.beaconParent = none → b.covered + 1 = s.jobSize → ∃ t, exec (.beaconUp child m delay) s = .next t ∧
        t.tick.held = some { b with down := true } ∧ t.out = s.out ++ [.beaconDown child { b with down := true }] ∧
        t.regN Reg.PYU_BEACON_MAX = max (s.regN Reg.PYU_BEACON_MAX) (min delay (2 ^ 32 - 1)) ∧
        s.touches t [.regs, .tick, .out, .pyu, .bel] [Reg.PYU_BEACON_MAX]) ∧
      (x.beaconParent = none → b.covered + 1 ≠ s.jobSize → ∃ t, exec (.beaconUp child m delay) s = .next t ∧
        t.bit Reg.TICK_EVENT 4 = true ∧ t.tick.held = s.tick.held)) ∧
    (∀ child, s.tick.own = none → ∃ t, exec (.beaconUp child m delay) s = .next t ∧ (child, m) ∈ t.tick.kids ∧
      t.tick.held = s.tick.held ∧ s.touches t [.tick] []) ∧
    (x.beaconParent.isSome = true → s.tick.held = none → ∃ t, exec (.beaconDown m delay) s = .next t ∧
      t.tick = { s.tick with held := some m } ∧ t.out = s.out ++ x.beaconChildren.map (fun c => .beaconDown c m) ∧
      t.regN Reg.PYU_BEACON_MAX = max (s.regN Reg.PYU_BEACON_MAX) (min delay (2 ^ 32 - 1)) ∧
      s.touches t [.regs, .tick, .out, .pyu, .bel] [Reg.PYU_BEACON_MAX])

/-- The slot assigner reads the route list and writes the slot table and the counts of filled slots; no expert gets more slots than
this rank's capacity, and no two pairs of an expert the same slot; pairs routed and dropped are counted. -/
def Obligations.SlotsAssigned : Prop :=
  ∀ (r : RouteList) (s : State) (e : ExchangeStream), s.inv → s.exchangeStream r.stream = some e → 1 ≤ e.choices →
    let a := s.assignAll e r
    let n := r.tokens * e.choices
    let expert := fun k => s.routeExpert r.routes e.choices (k / e.choices) (k % e.choices)
    (∀ i, storeGet 0 a.filled i ≤ (e.capacity.getD s.rank []).getD i 0) ∧
    (∀ k l, k < n → l < n → expert k = expert l →
      storeGet noSlot a.slots k = storeGet noSlot a.slots l → storeGet noSlot a.slots k ≠ noSlot → k = l) ∧
    ∃ t, exec (.slotAssign r) s = .next t ∧
      (∀ b, t.devByte b = ((s.devWrite .scheduled r.table (slotBytes a n)).devWrite .scheduled r.counts
        (filledBytes a e.experts.length)).devByte b) ∧
      t.regN Reg.PYU_XCH_ROUTED = min (s.regN Reg.PYU_XCH_ROUTED + a.routed) (2 ^ 64 - 1) ∧
      t.regN Reg.PYU_XCH_DROPS = min (s.regN Reg.PYU_XCH_DROPS + a.dropped) (2 ^ 64 - 1) ∧
      (a.dropped ≠ 0 → t.bit Reg.PYU_EVENT 5 = true) ∧ (a.bad ≠ 0 → t.bit Reg.PYU_EVENT 3 = true) ∧
      s.keeps t ([.mem, .free, .hbm, .bel] ++ Part.signalled)

/-! ## Stiles, chains, commit -/

/-- A stile's arming opens the next generation with the early arrivals, and a local target already reached releases it at once;
an arrival counts by the parity of the generation that it names, the one that completes the target releases the stile, and
one too many is discarded; a wait goes on at once when its generation is over, and joins the waiters otherwise. A stile with
nothing outstanding misses no deadline. A local one past its deadline is a fault that stops the reports of the job; at the deadline of
a job-wide one its Class S reduction is over as at a deadline of its own: its waiters go, and the step is spoiled with cause 3. An append to a sequence chain goes to BASE + USED, and USED
moves past it; one that would pass LIMIT is discarded and counted. A read returns the bytes below USED, and zeros beyond. -/
def Obligations.StilesAndChains : Prop :=
  (∀ (n : Fin 131072) (s : State), s.inv →
     let x := s.stile n
     let free := fun g => x.waiters.filter (fun w => decide (w.2 ≤ g))
     (s.jobWide n = true ∨ x.early < s.stileTarget n → ∃ t, exec (.stileArm n) s = .next t ∧
       t.stile n = { x with gen := x.gen + 1, count := x.early, early := 0, armed := true } ∧ s.touches t [.stl] []) ∧
     (s.jobWide n = false → s.stileTarget n ≤ x.early → ∃ t l, exec (.stileArm n) s = .next t ∧
       (t.stile n).armed = false ∧ (t.stile n).gen = x.gen + 1 ∧ t.out = s.out ++ l ++ (free (x.gen + 1)).map (fun w =>
         .release w.1 n) ∧ t.regN Reg.STL_RELEASES = min (s.regN Reg.STL_RELEASES + 1) (2 ^ 64 - 1) ∧ s.sameBytes t ∧
       s.keeps t ([.stl, .free, .bel] ++ Part.signalled)) ∧
     (∀ g, g % 2 = x.gen % 2 → x.armed = true → (s.jobWide n = true ∨ x.count + 1 < s.stileTarget n) →
       ∃ t, exec (.stileArrive n g) s = .next t ∧ t.stile n = { x with count := x.count + 1 } ∧ s.touches t [.stl] []) ∧
     (∀ g, g % 2 = x.gen % 2 → x.armed = true → s.jobWide n = false → s.stileTarget n ≤ x.count + 1 →
       ∃ t l, exec (.stileArrive n g) s = .next t ∧ (t.stile n).armed = false ∧ (t.stile n).count = x.count + 1 ∧
         t.out = s.out ++ l ++ (free x.gen).map (fun w => .release w.1 n) ∧ s.sameBytes t) ∧
     (∀ g, g % 2 ≠ x.gen % 2 → x.early < s.stileTarget n → ∃ t, exec (.stileArrive n g) s = .next t ∧
       t.stile n = { x with early := x.early + 1 } ∧ s.touches t [.stl] []) ∧
     (∀ g, ((g % 2 ≠ x.gen % 2 ∧ s.stileTarget n ≤ x.early) ∨ (g % 2 = x.gen % 2 ∧ x.armed = false)) →
       ∃ t, exec (.stileArrive n g) s = .next t ∧ t.stl = s.stl ∧ t.bit Reg.STL_EVENT 1 = true ∧
         t.regN Reg.STL_OVER = min (s.regN Reg.STL_OVER + 1) (2 ^ 32 - 1) ∧
         s.touches t (.bel :: Part.signalled) [Reg.STL_OVER, Reg.STL_EVENT]) ∧
     (∀ g u, (g < x.gen ∨ (g = x.gen ∧ x.armed = false)) →
       exec (.stileWait n g u) s = .next { s with out := s.out ++ [.release u n] }) ∧
     (∀ g u, (x.gen < g ∨ (g = x.gen ∧ x.armed = true)) → ∃ t, exec (.stileWait n g u) s = .next t ∧
       t.stile n = { x with waiters := x.waiters ++ [(u, g)] } ∧ s.touches t [.stl] [])) ∧
  (∀ (n : Fin 131072) (s : State), s.inv →
     ((s.stile n).armed = false → (s.stile n).waiters = [] → exec (.stileTimeout n) s = .next s) ∧
     (s.stileDue n = none → exec (.stileTimeout n) s = .next s) ∧
     (∀ d x, s.stileDue n = some d → s.topo? = some x → d.jobWide = false →
       ∃ t, exec (.stileTimeout n) s = .next t ∧ t.stl = s.stl ∧ t.tick = { s.tick with stopped := true } ∧
         t.bit Reg.STL_EVENT 0 = true ∧ t.regN Reg.STL_TIMEOUTS = min (s.regN Reg.STL_TIMEOUTS + 1) (2 ^ 32 - 1) ∧
         s.keeps t ([.tick, .hlt] ++ Part.signalled) ∧ s.sameBytes t) ∧
     (∀ d x, s.stileDue n = some d → s.topo? = some x → d.jobWide = true →
       exec (.stileTimeout n) s = exec (.classSDeadline (stileSum d)) s ∧
       (s.sumOpen (stileSum d) = true → 0 < (s.stile n).gen → ∃ t, exec (.stileTimeout n) s = .next t ∧ (t.stile n).armed = false ∧
         (∀ w ∈ (s.stile n).waiters, w.2 ≤ (s.stile n).gen → .release w.1 n ∈ t.out ∧ w ∉ (t.stile n).waiters) ∧
         t.regN Reg.CLO_S_LATE = min (s.regN Reg.CLO_S_LATE + 1) (2 ^ 32 - 1) ∧
         (∀ r, s.tick.step = some r → t.bit Reg.QNT_SPOIL_CAUSES 2 = true ∧
           (r.voted = false → r.cause = none → ∃ r', t.tick.step = some r' ∧
             r'.cause = some (3, s.stitchIx, s.tick.now)))))) ∧
  (∀ (chain : Nat) (s : State), s.inv →
     (∀ p record, s.chainPlot chain = some p → record ≠ [] → (s.plot p).used + record.length ≤ (s.plot p).limit →
       ∃ t, exec (.chainAppend chain record) s = .next t ∧
         t.plot p = { s.plot p with used := (s.plot p).used + record.length } ∧
         (∀ a, t.devByte a = (s.devWrite .scheduled ((s.plot p).base + (s.plot p).used) record).devByte a) ∧
         s.keeps t ([.mem, .hbm, .stl, .bel] ++ Part.signalled)) ∧
     (∀ record, (s.chain chain).limit < (s.chain chain).used + record.length →
       ∃ t, exec (.chainAppend chain record) s = .next t ∧ t.bit Reg.PLT_EVENT 0 = true ∧
         t.regN Reg.PLT_CHAIN_FULL = min (s.regN Reg.PLT_CHAIN_FULL + 1) (2 ^ 32 - 1) ∧
         s.touches t Part.signalled [Reg.PLT_CHAIN_FULL, Reg.PLT_EVENT]) ∧
     (∀ offset length, ∃ bs, exec (.chainRead chain offset length) s = .next { s with out := s.out ++ [.fetched bs] } ∧
       bs.length = length ∧ ∀ i, i < length → bs.getD i 0 =
         if offset + i < (s.chain chain).used then s.opByte ((s.chain chain).base + offset + i) else 0))

/-- In the commit stitch a module votes once, with a veto if a cause has arisen, and with the other slab complete for the step; the
children's votes are taken as they arrive. Its combination goes up, or the coordinator decides by it: commit when every module voted and none vetoed, skip otherwise,
and skip too what is incomplete at the deadline. The decision is held and sent to each child. At the release a held commit
flips the slabs and advances the epoch; a skip leaves both and the other slab, and the step is spoiled; without a decision
the module becomes unresolved and halts. -/
def Obligations.CommitDecidesAndActs : Prop :=
  (∀ (s : State) (x : Topo) (r : RunStep), s.inv → s.topo? = some x → s.tick.step = some r → s.inCommit = true →
     (r.voted = false → (s.upd.shadow ≠ .complete ∨ s.upd.shadowStep ≠ r.stepId) →
       exec .commitVote s = .next { s with tick := { s.tick with stopped := true } }) ∧
     (r.voted = true → exec .commitVote s = .next s) ∧
     (r.voted = false → s.upd.shadow = .complete → s.upd.shadowStep = r.stepId → s.stl.commit.sent = false →
       x.treeChildren.length ≤ s.stl.commit.votes.length →
       let n := 1 + (s.stl.commit.votes.map fun v => v.2.1).sum
       let veto := r.cause.isSome || s.stl.commit.votes.any fun v => v.2.2
       ∃ t, exec .commitVote s = .next t ∧ t.tick.step = some { r with voted := true, veto := r.cause.isSome } ∧
         t.stl.commit.sent = true ∧ (s.digestMode = false → s.touches t [.tick, .stl, .pyu] []) ∧
         (∀ p port, x.treeParent = some p → s.portOf p = some port → (t.tx s.commitPlot port).vecs =
           (s.tx s.commitPlot port).vecs ++ [vecBytes s.digestMode ⟨[BitVec.ofNat 64 n, if veto then 1 else 0], false⟩]) ∧
         (x.treeParent = none → t.pyu = s.pyu ∧ t.stl.commit.combo = some (n, veto))) ∧
     (∀ red slack, red.use = .commit → r.voted = false →
       exec (.classSCombine red false slack) s = .next (s.setCommit { s.commit with
         votes := s.commit.votes ++ ((s.kidParts x s.commitPlot).filter fun k => !s.commit.votes.any fun v => decide (v.1 = k.1)).map
           fun k => (k.1, (k.2.data.getD 0 0).toNat, decide (k.2.data.getD 1 0 ≠ 0)) })) ∧
     (r.decision = none → r.acted = none → x.treeParent = none → ∀ c d,
       (c = .commitDecide ∧ s.stl.commit.combo = some (s.jobSize, false) ∧ d = .commit) ∨
       (c = .commitDecide ∧ s.stl.commit.combo = some (s.jobSize, true) ∧ d = .skip false) ∨
       (c = .voteDeadline ∧ s.stl.commit.combo = some (s.jobSize, false) ∧ d = .commit) ∨
       (c = .voteDeadline ∧ s.stl.commit.combo = some (s.jobSize, true) ∧ d = .skip false) ∨
       (c = .voteDeadline ∧ (∀ v, s.stl.commit.combo ≠ some (s.jobSize, v)) ∧ d = .skip true) →
       ∃ t, exec c s = .next t ∧ t.tick.step = some { r with decision := some d } ∧
         t.out = s.out ++ x.treeChildren.map (fun k => .decision k.1 d) ∧ s.touches t [.tick, .out] []) ∧
     (∀ d, r.decision = none → r.acted = none → x.treeParent ≠ none →
       ∃ t, exec (.commitDecisionReceive d) s = .next t ∧ t.tick.step = some { r with decision := some d } ∧
         t.out = s.out ++ x.treeChildren.map (fun k => .decision k.1 d) ∧ s.touches t [.tick, .out] []) ∧
     (∀ d, r.acted ≠ none → exec (.commitDecisionReceive d) s = .next s)) ∧
  (∀ (s : State) (r : RunStep), s.inv → s.tick.step = some r → s.inCommit = true → r.acted = none →
     (r.decision = some .commit → ∃ t, exec .commitRelease s = .next t ∧
       t.upd = { s.upd with epoch := (s.upd.epoch + 1) % 2 ^ 64, slabB := !s.upd.slabB, shadow := .stale } ∧
       t.stl.commit.outcome = 1 ∧ t.tick.step = some { r with acted := some (.clean, 0) } ∧ t.bit Reg.UPD_EVENT 0 = true ∧
       t.regN Reg.STL_COMMIT_STEP = r.stepId % 2 ^ 64 ∧ t.regN Reg.STL_COMMIT_TICK = s.tick.now % 2 ^ 64 ∧
       s.keeps t ([.tick, .upd, .stl, .free, .bel] ++ Part.signalled) ∧ s.sameBytes t) ∧
     (∀ i, r.decision = some (.skip i) → ∃ t r', exec .commitRelease s = .next t ∧ t.upd = s.upd ∧
       t.stl.commit.outcome = 2 ∧ t.stl.commit.incomplete = i ∧ t.tick.step = some r' ∧
       r'.acted = some (.spoiled, (r.cause.map Prod.fst).getD (if i = true then 3 else 6)) ∧ t.bit Reg.UPD_EVENT 1 = true ∧
       t.regN Reg.QNT_SPOIL_COUNT = min (s.regN Reg.QNT_SPOIL_COUNT + 1) (2 ^ 32 - 1) ∧
       s.keeps t ([.tick, .stl, .hlt, .free, .bel] ++ Part.signalled) ∧ s.sameBytes t) ∧
     (r.decision = none → ∃ t, exec .commitRelease s = .next t ∧ s.sameSlabs t ∧ t.stl.commit.outcome = 3 ∧
       t.tick.ticking = false ∧ t.tick.halted = true ∧ t.tick.stopped = true ∧ t.adm.accepted = [] ∧
       t.bit Reg.STL_EVENT 2 = true))

/-- LATE_COMMIT and KEEP resolve an unresolved step of the named epoch on a module without work: a late commit flips, for the
step whose slab is complete; a keep does not. Either is refused otherwise, with its code. ADOPT sets epoch and slab of a LOADED
image, and clears the outcome. -/
def Obligations.ReconciliationResolves : Prop :=
  ∀ s : State, s.inv → s.hosted →
    (∀ c, c = .lateCommit ∨ c = .keep → ∀ code,
      (s.busy = true ∧ code = 2) ∨
      (s.busy = false ∧ s.stl.commit.outcome ≠ 3 ∧ code = 3) ∨
      (s.busy = false ∧ s.stl.commit.outcome = 3 ∧ s.upd.epoch ≠ s.regN Reg.STL_RECON_EPOCH ∧ code = 4) ∨
      (c = .lateCommit ∧ s.busy = false ∧ s.stl.commit.outcome = 3 ∧ s.upd.epoch = s.regN Reg.STL_RECON_EPOCH ∧
        s.upd.shadow ≠ .complete ∧ code = 5) →
      ∃ t, exec c s = .next t ∧ t.fld Reg.STL_RECON_CTRL 6 4 = code ∧ t.bit Reg.STL_EVENT 3 = true ∧
        s.touches t Part.signalled [Reg.STL_RECON_CTRL, Reg.STL_EVENT]) ∧
    (s.busy = false → s.stl.commit.outcome = 3 → s.upd.epoch = s.regN Reg.STL_RECON_EPOCH →
      (s.upd.shadow = .complete → s.upd.shadowStep = s.regN Reg.STL_RECON_STEP → ∃ t, exec .lateCommit s = .next t ∧
        t.upd = { s.upd with epoch := (s.upd.epoch + 1) % 2 ^ 64, slabB := !s.upd.slabB, shadow := .stale } ∧
        t.stl.commit = { s.stl.commit with outcome := 1, resolved := true } ∧ t.fld Reg.STL_RECON_CTRL 6 4 = 1 ∧
        t.bit Reg.STL_EVENT 3 = true ∧ s.keeps t ([.upd, .stl] ++ Part.signalled) ∧ s.sameBytes t) ∧
      (∃ t, exec .keep s = .next t ∧ t.stl.commit = { s.stl.commit with outcome := 2, resolved := true } ∧
        t.fld Reg.STL_RECON_CTRL 6 4 = 1 ∧ t.bit Reg.STL_EVENT 3 = true ∧
        s.touches t (.stl :: Part.signalled) [Reg.STL_RECON_CTRL, Reg.STL_EVENT])) ∧
    (s.image.st = .loaded → ∃ t, exec .adopt s = .next t ∧ t.upd.epoch = s.regN Reg.STL_RECON_EPOCH ∧
      t.upd.slabB = s.bit Reg.STL_RECON_CTRL 3 ∧ t.upd.shadow = .stale ∧ t.stl.commit.outcome = 0 ∧ t.fld Reg.STL_RECON_CTRL 6 4 = 1 ∧ s.touches t ([.upd, .stl] ++ Part.signalled) [Reg.STL_RECON_CTRL, Reg.STL_EVENT]) ∧
    (s.image.st ≠ .loaded → ∃ t, exec .adopt s = .next t ∧ t.fld Reg.STL_RECON_CTRL 6 4 = 6 ∧
      s.touches t Part.signalled [Reg.STL_RECON_CTRL, Reg.STL_EVENT])

/-! ## The host interface -/

/-- The queue set: enabling it takes the sizes, starts all six pointers at 0 and writes every unread record to the completion
ring; disabling lets it drain; a pointer write out of range is ignored; a ticket is fetched while there is room for it and
its answer, and rings at the gate, which decides it then. MSI-X: at the end of a coalescing interval the message that fell due in it goes, or pends
while the vector is masked; an unmasked vector sends one message if its source still has something to report, and none
otherwise. -/
def Obligations.QueuesAndVectorsRun : Prop :=
  (∀ s : State, s.inv →
     (∀ ctrl, s.hosted → s.queueOn = false → s.draining = false → ∃ t, exec (.queueEnable ctrl) s = .next t ∧
       t.fld Reg.PCI_QUEUE_CTRL 15 0 = 16 * bits ctrl.toNat 15 4 + 1 ∧
       (∀ o ∈ [Reg.PCI_TQ_TAIL, Reg.PCI_TQ_HEAD, Reg.PCI_AQ_HEAD, Reg.PCI_AQ_TAIL, Reg.PCI_CQ_HEAD], t.reg o = 0) ∧
       t.regN Reg.PCI_CQ_TAIL = s.adm.unread.length % 65536 ∧ t.adm = s.adm ∧
       (∀ c, s.adm.unread = [c] → .hostWrite (s.regN Reg.PCI_CQ_BASE) (leBytes 8 c.tag ++ leBytes 8 c.stepId ++
         leBytes 8 c.deadline ++ leBytes 4 (16 * statusCode c.status + 256 * c.cause + 2 ^ 31) ++ leBytes 4 0) ∈ t.out) ∧
       s.touches t Part.signalled (Reg.PCI_QUEUE_CTRL :: queuePointers)) ∧
     (s.hosted → s.queueOn = true → ∃ t, exec .queueDisable s = .next t ∧ t.queueOn = false ∧ t.draining = true ∧
       s.touches t [.regs] [Reg.PCI_QUEUE_CTRL]) ∧
     (s.draining = true → s.host.fetched = 0 → ∃ t, exec .queueDrainDone s = .next t ∧ t.draining = false ∧
       t.queueOn = s.queueOn ∧ s.touches t [.regs] [Reg.PCI_QUEUE_CTRL]) ∧
     (∀ v : Word, s.hosted → ahead v.toNat (s.regN Reg.PCI_TQ_HEAD) ≤ 2 ^ s.fld Reg.PCI_QUEUE_CTRL 7 4 →
       ∃ t, exec (.tqTailWrite v) s = .next t ∧ t.regN Reg.PCI_TQ_TAIL = v.toNat % 65536 ∧
         s.touches t [.regs] [Reg.PCI_TQ_TAIL]) ∧
     (∀ v : Word, s.hosted → 2 ^ s.fld Reg.PCI_QUEUE_CTRL 7 4 < ahead v.toNat (s.regN Reg.PCI_TQ_HEAD) →
       ∃ t, exec (.tqTailWrite v) s = .next t ∧ t.bit Reg.PCI_EVENT 5 = true ∧
         s.touches t Part.signalled [Reg.PCI_EVENT]) ∧
     (∀ k, s.queueOn = true → s.linkUp = true → s.regN Reg.PCI_TQ_HEAD ≠ s.regN Reg.PCI_TQ_TAIL →
       s.adm.bells.length < 8 → ahead (s.regN Reg.PCI_AQ_TAIL) (s.regN Reg.PCI_AQ_HEAD) + s.host.fetched <
         2 ^ s.fld Reg.PCI_QUEUE_CTRL 11 8 → s.ldg.ps = .a0 →
       ∃ t, exec (.ticketFetch k) s = .next t ∧
         t.adm.bells = s.adm.bells ++ [⟨k, true, s.adm.seq + 1, s.gateDecide k⟩] ∧ t.host.fetched = s.host.fetched + 1 ∧
         t.regN Reg.PCI_TQ_HEAD = (s.regN Reg.PCI_TQ_HEAD + 1) % 65536 ∧
         t.out = s.out ++ [.hostFetch (s.regN Reg.PCI_TQ_BASE + 64 * (s.regN Reg.PCI_TQ_HEAD %
           2 ^ s.fld Reg.PCI_QUEUE_CTRL 7 4)) 64] ∧
         s.touches t [.regs, .out, .host, .adm] [Reg.PCI_TQ_HEAD, Reg.ADM_ANSWER]) ∧
     (∀ v : Word, s.hosted → ahead v.toNat (s.regN Reg.PCI_AQ_HEAD) ≤
         ahead (s.regN Reg.PCI_AQ_TAIL) (s.regN Reg.PCI_AQ_HEAD) → ∃ t, exec (.aqHeadWrite v) s = .next t ∧
       t.regN Reg.PCI_AQ_HEAD = v.toNat % 65536 ∧ s.touches t [.regs] [Reg.PCI_AQ_HEAD]) ∧
     (∀ v : Word, s.hosted → ahead v.toNat (s.regN Reg.PCI_CQ_HEAD) ≤
         ahead (s.regN Reg.PCI_CQ_TAIL) (s.regN Reg.PCI_CQ_HEAD) → ∃ t, exec (.cqHeadWrite v) s = .next t ∧
       t.regN Reg.PCI_CQ_HEAD = v.toNat % 65536 ∧
       t.adm.unread = s.adm.unread.drop (ahead v.toNat (s.regN Reg.PCI_CQ_HEAD)) ∧
       s.touches t [.regs, .adm] [Reg.PCI_CQ_HEAD])) ∧
  (∀ (v : Fin 32) (s : State), s.inv →
     ((s.vec v).cooling = false → exec (.msixCoalesceEnd v) s = .next s) ∧
     ((s.vec v).cooling = true → (s.vec v).due = true → (s.vec v).masked = false → s.linkUp = true →
       ∃ t, exec (.msixCoalesceEnd v) s = .next t ∧ t.out = s.out ++ [.msix v] ∧ (t.vec v).due = false ∧
         s.touches t [.out, .host] []) ∧
     ((s.vec v).cooling = true → (s.vec v).due = true → (s.vec v).masked = true →
       ∃ t, exec (.msixCoalesceEnd v) s = .next t ∧ (t.vec v).pendingBit = true ∧ (t.vec v).due = false ∧
         (t.vec v).cooling = false ∧ s.touches t [.host] []) ∧
     ((s.vec v).cooling = true → (s.vec v).due = false → { s.vec v with cooling := false } ≠ ({} : MsixVec) →
       ∃ t, exec (.msixCoalesceEnd v) s = .next t ∧ t.vec v = { s.vec v with cooling := false } ∧ s.touches t [.host] []) ∧
     (s.hosted → (s.vec v).masked = false → exec (.msixUnmask v) s = .next s) ∧
     (s.hosted → (s.vec v).masked = true → s.reports v = false → ∃ t, exec (.msixUnmask v) s = .next t ∧
       (t.vec v).masked = false ∧ (t.vec v).pendingBit = false ∧ t.out = s.out ∧ s.touches t [.host] []) ∧
     (s.hosted → (s.vec v).masked = true → s.reports v = true →
       ((s.vec v).cooling = false ∨ s.fld Reg.PCI_COALESCE 7 0 = 0) → ∃ t, exec (.msixUnmask v) s = .next t ∧
       (t.vec v).masked = false ∧ (t.vec v).pendingBit = false ∧ t.out = s.out ++ [.msix v] ∧ s.touches t [.out, .host] []))

/-- A DMA engine: enabling it clears its state, disabling it ends what is in flight with code 7; it takes descriptors in ring
order, up to four at a time. One that is done has its status written and the head moves past it; its bytes have moved, or none
have where it is refused, and then the engine stops with its code. -/
def Obligations.EnginesMoveDescriptors : Prop :=
  ∀ (e : Fin 8) (s : State), s.inv →
    (∀ ctrl, s.hosted → ∃ t, exec (.dmaEnable e ctrl) s = .next t ∧ t.bit (dmaReg Reg.PCI_DMA_CTRL e) 0 = true ∧
      t.fld (dmaReg Reg.PCI_DMA_STATUS e) 1 0 = 0 ∧
      t.dmaSize e = (if s.bit (dmaReg Reg.PCI_DMA_CTRL e) 0 = true then s.dmaSize e else bits ctrl.toNat 7 4) ∧
      s.touches t [.regs] [dmaReg Reg.PCI_DMA_CTRL e, dmaReg Reg.PCI_DMA_STATUS e]) ∧
    (∀ f, s.hosted → s.bit (dmaReg Reg.PCI_DMA_CTRL e) 0 = true → s.flights e = [f] → f.status = none →
      ∃ t, exec (.dmaDisable e []) s = .next t ∧ t.bit (dmaReg Reg.PCI_DMA_CTRL e) 0 = false ∧
        t.regN (dmaReg Reg.PCI_DMA_STATUS e) = 2 + 16 * 7 + 65536 * (f.index % 65536) ∧ t.bit Reg.PCI_EVENT 6 = true ∧
        t.regN (dmaReg Reg.PCI_DMA_HEAD e) = (f.index + 1) % 65536 ∧ s.sameBytes t) ∧
    (∀ v : Word, s.hosted → ahead v.toNat (s.regN (dmaReg Reg.PCI_DMA_HEAD e)) ≤ 2 ^ s.dmaSize e →
      ∃ t, exec (.dmaTailWrite e v) s = .next t ∧ t.regN (dmaReg Reg.PCI_DMA_TAIL e) = v.toNat % 65536 ∧
        s.touches t [.regs] [dmaReg Reg.PCI_DMA_TAIL e]) ∧
    (∀ v : Word, s.hosted → 2 ^ s.dmaSize e < ahead v.toNat (s.regN (dmaReg Reg.PCI_DMA_HEAD e)) →
      ∃ t, exec (.dmaTailWrite e v) s = .next t ∧ t.bit Reg.PCI_EVENT 5 = true ∧
        s.touches t Part.signalled [Reg.PCI_EVENT]) ∧
    (∀ d, s.dmaOn e = true → s.dmaNext e ≠ s.regN (dmaReg Reg.PCI_DMA_TAIL e) → (s.flights e).length < 4 →
      (d.fence = true → s.flights e = []) → ∃ t, exec (.descriptorStart e d) s = .next t ∧
      t.flights e = s.flights e ++ [{ index := s.dmaNext e, desc := d }] ∧ s.touches t [.host, .out] []) ∧
    (∀ f data, s.linkUp = true → s.flights e = [f] → f.status = none → f.index < 65536 →
      let code := (s.dmaEnd f).1
      ∃ t, exec (.descriptorDone e f.desc.tag data) s = .next t ∧
        .hostWrite (s.regN (dmaReg Reg.PCI_DMA_BASE e) + 32 * (f.index % 2 ^ s.dmaSize e) + 0x18)
          (leBytes 4 (code + 2 ^ 31)) ∈ t.out ∧
        t.regN (dmaReg Reg.PCI_DMA_HEAD e) = (f.index + 1) % 65536 ∧
        (code ≠ 0 → t.regN (dmaReg Reg.PCI_DMA_STATUS e) = 2 + 16 * code + 65536 * f.index ∧
          t.bit Reg.PCI_EVENT 6 = true) ∧
        (code = 0 → t.reg (dmaReg Reg.PCI_DMA_STATUS e) = s.reg (dmaReg Reg.PCI_DMA_STATUS e)) ∧
        (s.dmaRefusal f.desc = none → f.desc.toHost = true →
          .hostWrite f.desc.dest (s.readOver f.bad f.desc.source f.desc.length) ∈ t.out) ∧
        ((s.dmaRefusal f.desc ≠ none ∨ f.desc.toHost = true) → s.sameBytes t) ∧
        (s.dmaRefusal f.desc = none → f.desc.toHost = false → f.hostEnd = .ok → data.length = f.desc.length →
          ∀ a, t.devByte a = (s.devWrite (.hostDma e) f.desc.dest data).devByte a) ∧
        s.keeps t ([.mem, .free, .hbm, .bel] ++ Part.signalled)) ∧
    (∀ tag ending, s.flights e ≠ [] → ∃ t, exec (.completionTimeout e tag ending) s = .next t ∧
      t.flights e = (s.flights e).map (fun f =>
        if f.desc.tag = tag ∧ f.desc.toHost = false ∧ f.status = none then { f with hostEnd := ending } else f) ∧
      t.out = s.out ++ [.aer 1] ∧ s.touches t [.host, .out] [])

/-- The memory window reads and writes what its base and the offset reach; a read of anything else returns zeros, a write of it
is discarded, and PCI_EVENT tells; a base that is not aligned to the size is ignored. An access beyond the BAR is an Unsupported
Request. A poisoned write is discarded, a malformed packet dropped; link errors are counted and reported. -/
def Obligations.WindowAndLinkErrors : Prop :=
  ∀ s : State, s.inv →
    (∀ offset length, s.hosted → offset + length ≤ 2 ^ s.winLog → ∃ t bs, exec (.bar2Read offset length) s = .next t ∧
      .readData bs ∈ t.out ∧ bs.length = length ∧ (∀ i, i < length → bs.getD i 0 = s.windowByte (s.winAddr offset + i)) ∧
      ((∃ i, i < length ∧ s.spanOk (s.winAddr offset + i) 1 = false) → t.bit Reg.PCI_EVENT 2 = true) ∧
      s.touches t Part.signalled [Reg.PCI_EVENT, Reg.MEM_EVENT]) ∧
    (∀ a, s.host.windowBad = [] → s.windowByte a = if s.spanOk a 1 = true then s.devByte a else 0) ∧
    (∀ offset length, s.hosted → 2 ^ s.winLog < offset + length →
      exec (.bar2Read offset length) s = .next { s with out := s.out ++ [.unsupported] }) ∧
    (∀ offset data, s.hosted → 2 ^ s.winLog < offset + data.length →
      exec (.bar2Write offset data) s = .next { s with out := s.out ++ [.unsupported] }) ∧
    (∀ offset data, s.hosted → offset + data.length ≤ 2 ^ s.winLog →
      let pieces := linePieces (s.winAddr offset) data.length data
      let free := fun q : Nat × List Byte => s.spanOk q.1 q.2.length &&
        (decide (s.image.st = .empty) || !s.touchesImage q.1 q.2.length)
      ((∀ q ∈ pieces, free q = true) → ∃ t, exec (.bar2Write offset data) s = .next t ∧
        (∀ a, t.devByte a = (s.devWrite .window (s.winAddr offset) data).devByte a) ∧
        s.keeps t ([.mem, .hbm, .bel] ++ Part.signalled)) ∧
      ((∀ q ∈ pieces, free q = false) → data ≠ [] → ∃ t, exec (.bar2Write offset data) s = .next t ∧
        t.bit Reg.PCI_EVENT 2 = true ∧ s.touches t Part.signalled [Reg.PCI_EVENT, Reg.MEM_EVENT])) ∧
    (∀ v : DWord, s.hosted → v.toNat % 2 ^ s.winLog = 0 → ∃ t, exec (.pciWinBaseWrite v) s = .next t ∧
      t.reg Reg.PCI_WIN_BASE = v ∧ s.touches t [.regs] [Reg.PCI_WIN_BASE]) ∧
    (∀ v : DWord, s.hosted → v.toNat % 2 ^ s.winLog ≠ 0 → ∃ t, exec (.pciWinBaseWrite v) s = .next t ∧
      t.bit Reg.PCI_EVENT 5 = true ∧ s.touches t Part.signalled [Reg.PCI_EVENT]) ∧
    (s.hosted → ∃ t l, exec .poisonedTlp s = .next t ∧ t.bit Reg.PCI_EVENT 4 = true ∧ t.out = s.out ++ l ++ [.aer 1] ∧
      s.touches t Part.signalled [Reg.PCI_EVENT]) ∧
    (s.linkUp = true → exec .malformedTlp s = .next { s with out := s.out ++ [.aer 2] } ∧
      exec .unsupportedRequest s = .next { s with out := s.out ++ [.unsupported] } ∧
      ∃ t, exec .correctableLinkError s = .next t ∧ t.out = s.out ++ [.aer 0] ∧
        t.regN Reg.PCI_ERR_COUNT = min (s.regN Reg.PCI_ERR_COUNT + 1) (2 ^ 32 - 1) ∧
        s.touches t [.regs, .out] [Reg.PCI_ERR_COUNT])

/-! ## The register file and configuration space -/

/-- A whole, aligned write of a register that no rule gives an effect of its own changes its RW fields to the bits written and
clears its W1C fields where ones are written. Narrow, split and misaligned writes are ignored, and TOP_ACCESS_ERR keeps the
first; a read that is narrow or aligned is answered, a misaligned one returns zeros. A register that carries a command runs
it. Configuration space: no answer without a link, Request Retry Status until the boot image is verified; then the fixed
dwords ignore writes, another one keeps what is written, a BAR only the address bits above its size (64 MiB, and that of
BAR2), with its type in the low bits as PCI Express lays it out (PRESUMED, log 49), and both BARs read 0 on a boot-failed
module; function 0 is the only one, and Resizable BAR sets the size of BAR2. -/
def Obligations.RegistersAndHeaderTakeWrites : Prop :=
  ((∀ (o v : Nat) (r : RegRow) (base : Nat) (s : State), s.inv → s.hosted → regAt o = some (r, base) →
     (∀ size (w : DWord), (size = 4 ∧ o % 4 = 0 ∧ r.width ≠ 8 ∧ w = BitVec.ofNat 64 (v % 2 ^ 32)) ∨
         (size = 8 ∧ o % 8 = 0 ∧ r.width = 8 ∧ w = BitVec.ofNat 64 v) →
       (∀ p, s.acts r.off (if r.stride = 0 then 0 else (base - r.off) / r.stride) w.toNat p = p) →
       let k := s.writeKey r.off base
       ∃ t, exec (.registerWrite o size v) s = .next t ∧
         t.reg k = ((s.reg k &&& ~~~r.rw) ||| (w &&& r.rw)) &&& ~~~(w &&& r.w1c) ∧ s.touches t [.regs] [k])) ∧
   (∀ (o size v kind : Nat) (s : State) (c : Instr), s.inv → s.hosted →
     (c = .bar0BadAccess o size true ∧ narrow o size = true ∧ kind = 1) ∨
       (c = .bar0BadAccess o size true ∧ narrow o size = false ∧ size = 4 ∧ o % 4 = 0 ∧ kind = 3) ∨
       (c = .bar0BadAccess o size true ∧ narrow o size = false ∧ ¬(size = 4 ∧ o % 4 = 0) ∧ kind = 2) ∨
       (c = .registerWrite o 4 v ∧ o % 4 = 0 ∧ (regAt o).map (fun r => r.1.width) = some 8 ∧ kind = 3) ∨
       (c = .registerWrite o size v ∧ (size = 4 ∨ size = 8) ∧ o % size ≠ 0 ∧ kind = 2 ∧ narrow o size = false) →
     (s.bit Reg.TOP_ACCESS_ERR 31 = true → exec c s = .next s) ∧
     (s.bit Reg.TOP_ACCESS_ERR 31 = false → ∃ t, exec c s = .next t ∧
       t.regN Reg.TOP_ACCESS_ERR = o % 2 ^ 26 + 2 ^ 28 * kind + 2 ^ 31 ∧ s.touches t [.regs] [Reg.TOP_ACCESS_ERR])) ∧
   (∀ (o size : Nat) (s : State), s.inv → s.hosted →
     ((narrow o size = true ∨ ((size = 4 ∨ size = 8) ∧ o % size = 0) ∨ (8 < size ∧ o % 4 = 0 ∧ size % 4 = 0)) →
       exec (.bar0BadAccess o size false) s = .next { s with out := s.out ++ [.readData (s.bar0Bytes o size)] }) ∧
     (narrow o size = false → ¬((size = 4 ∨ size = 8) ∧ o % size = 0) → ¬(8 < size ∧ o % 4 = 0 ∧ size % 4 = 0) → ∃ t, exec (.bar0BadAccess o size false) s = .next t ∧
       t.out = s.out ++ [.readData (List.replicate size 0)] ∧ s.touches t [.regs, .out] [Reg.TOP_ACCESS_ERR])) ∧
   (∀ s : State, exec (.registerWrite Reg.LAST_CTRL 4 1) s = exec .load s ∧
     exec (.registerWrite Reg.LAST_CTRL 4 2) s = exec .start s ∧ exec (.registerWrite Reg.LAST_CTRL 4 4) s = exec .unload s ∧
     exec (.registerWrite Reg.LAST_CTRL 4 8) s = exec .abort s ∧
     exec (.registerWrite Reg.ADM_DOORBELL 4 1) s = exec .ticketDoorbell s ∧
     exec (.registerWrite Reg.ADM_DONE_POP 4 1) s = exec .admDonePop s ∧
     exec (.registerWrite Reg.TOP_CTRL 4 1) s = exec (.topClrStats []) s ∧
     exec (.registerWrite Reg.LDG_PSTATE_CTRL 4 2) s = exec .targetA2 s ∧
     exec (.registerWrite Reg.HLT_CTRL 4 1) s = exec .hltSnap s ∧ exec (.registerWrite Reg.BEL_CTRL 4 1) s = exec .belSnap s ∧
     exec (.registerWrite Reg.PWR_CTRL 4 1) s = exec .ackStale s ∧
     ∀ w : Word, exec (.registerWrite Reg.PCI_TQ_TAIL 4 w.toNat) s = exec (.tqTailWrite w) s ∧
       exec (.registerWrite Reg.PWR_CAP 4 w.toNat) s = exec (.capWrite w) s)) ∧
  (∀ s : State, s.inv →
     (∀ q, s.linkUp = false → exec (.configurationRequest q) s = .next s) ∧
     (∀ q, s.linkUp = true → s.boot.step < 6 →
       exec (.configurationRequest q) s = .next { s with out := s.out ++ [.retryStatus] }) ∧
     (s.configOn = true → s.inA1 = false →
       (∀ o, exec (.configurationRequest (.read 0 o)) s =
         .next { s with out := s.out ++ [.configData (s.configWord (o / 4 * 4))], free := s.free + 1 }) ∧
       (∀ o d, (o / 4 * 4 = 0 ∨ o / 4 * 4 = 8 ∨ o / 4 * 4 = 0x2C) →
         exec (.configurationRequest (.write 0 o d)) s = .next s) ∧
       (∀ o d, configFixed (o / 4 * 4) = none → o / 4 ≠ 3 → (o / 4 < 4 ∨ 7 < o / 4) →
         ∃ t, exec (.configurationRequest (.write 0 o d)) s = .next t ∧ t.configWord (o / 4 * 4) = d ∧ s.touches t [.host] []) ∧
       (∀ o d, 4 ≤ o / 4 → o / 4 ≤ 7 → 28 ≤ s.winLog → ∃ t, exec (.configurationRequest (.write 0 o d)) s = .next t ∧
         s.touches t [.host] [] ∧ (s.boot.failed = true → t.configWord (o / 4 * 4) = 0) ∧
         (s.boot.failed = false → ∀ i, i < 32 → (t.configWord (o / 4 * 4)).getLsbD i =
           if o / 4 = 4 then i = 2 ∨ (26 ≤ i ∧ d.getLsbD i = true)
           else if o / 4 = 6 then i = 2 ∨ i = 3 ∨ (s.winLog ≤ i ∧ d.getLsbD i = true)
           else if o / 4 = 7 then s.winLog ≤ i + 32 ∧ d.getLsbD i = true else d.getLsbD i = true)) ∧
       (∀ f o d, f ≠ 0 → exec (.configurationRequest (.write f o d)) s = .next { s with out := s.out ++ [.unsupported] } ∧
         exec (.configurationRequest (.read f o)) s = .next { s with out := s.out ++ [.unsupported] }) ∧
       (∀ n, 28 ≤ n → n ≤ 40 → ∃ t, exec (.configurationRequest (.resize n)) s = .next t ∧
         t.regN Reg.PCI_WIN_SIZE = n ∧ s.touches t [.regs] [Reg.PCI_WIN_SIZE])))

/-! ## Security -/

/-- The DOE mailbox: discovery names its two types, an abort clears it, and an object that is too long sets the error bit. The
attestation answers in order: version, capabilities, algorithms, then digests, certificates, challenges and measurements, each
of the last two with a fresh nonce; a request out of order is an error. -/
def Obligations.AttestationAnswers : Prop :=
  ∀ s : State, s.mailed →
    let gives := fun (c : Instr) (a : DoeAnswer) => ∃ t, exec c s = .next t ∧ t.host.doe = ⟨true, false, some a⟩ ∧
      s.touches t [.out, .host, .sec, .free] []
    (∀ n, n ≤ 65536 → gives (.doeDiscovery 0 n) (.discovery 1 0 1) ∧ gives (.doeDiscovery 1 n) (.discovery 1 1 0)) ∧
    (∀ i n, 65536 < n → ∃ t, exec (.doeDiscovery i n) s = .next t ∧ t.host.doe = { s.host.doe with error := true } ∧
      s.touches t [.host] []) ∧
    (∃ t, exec .doeAbort s = .next t ∧ t.host.doe = {} ∧ s.touches t [.host] []) ∧
    (gives .getVersion (.version [0x12, 0x13]) ∧ ∀ t, exec .getVersion s = .next t → t.sec.spdm = .version) ∧
    (s.sec.spdm ≠ .none → gives .getCapabilities (.capabilities 0x36 20 65536) ∧
      ∀ t, exec .getCapabilities s = .next t → t.sec.spdm = .capabilities) ∧
    (∀ offered, s.sec.spdm ≠ .none → s.sec.spdm ≠ .version →
      gives (.negotiateAlgorithms offered) (.algorithms (if offered.contains 0xA501 = true then some 0xA501 else none)
        (if offered.contains 0xA511 = true then some 0xA511 else none) 1) ∧
      ∀ t, exec (.negotiateAlgorithms offered) s = .next t → t.sec.spdm = .algorithms ∧
        t.sec.asym = offered.contains 0xA501 ∧ t.sec.hash = offered.contains 0xA511) ∧
    (s.sec.spdm = .algorithms → gives .getDigests (.digests Config.certDigest) ∧
      (∀ o n, let k := min n (Config.certLength - o)
        gives (.getCertificate 0 o n) (if o < Config.certLength then .certificate ((List.range k).map fun i =>
          Config.certByte (o + i)) (Config.certLength - o - k) else .error 1)) ∧
      (∀ x nonce, s.canSign = true → gives (.challenge 0 nonce) (.challengeAuth Config.certDigest s.nonce nonce
          (Config.deviceSign (leBytes 64 Config.certDigest ++ leBytes 32 s.nonce ++ leBytes 32 nonce))) ∧
        ∀ t, exec (.challenge x nonce) s = .next t → x = 0 → t.free = s.free + 4) ∧
      (∀ signed nonce, (signed = true → s.canSign = true) →
        let signs := fun bs : List MeasBlock => if signed = true then some (Config.deviceSign
          (bs.flatMap (fun b => leBytes 1 b.index ++ leBytes 1 b.type ++ b.value) ++ leBytes 32 s.nonce ++ leBytes 32 nonce)) else none
        gives (.getMeasurements 0 signed nonce) (.measurements s.blocks.length [] s.nonce nonce (signs [])) ∧
        gives (.getMeasurements 0xFF signed nonce) (.measurements s.blocks.length s.blocks s.nonce nonce (signs s.blocks)) ∧
        ∀ b ∈ s.fixedBlocks, gives (.getMeasurements b.index signed nonce)
          (.measurements s.blocks.length [b] s.nonce nonce (signs [b])))) ∧
    (s.sec.spdm ≠ .algorithms → ∀ a b c d, gives .getDigests (.error 4) ∧ gives (.getCertificate a b c) (.error 4) ∧
      gives (.challenge a b) (.error 4) ∧ gives (.getMeasurements a d b) (.error 4))

/-- A firmware update in order: requested, component table, component, bytes of the inactive bank, transfer, checks, apply, and
activation, which makes the bank that passed the active one. Commands out of order are refused and change nothing.
Enrollment: the first key goes into slot 0 over I3C while both slots are empty; a record in the buffer is checked once, and
its writes enter the queue together when every check passes; any other result leaves the seed bank alone. -/
def Obligations.FirmwareAndKeysUpdate : Prop :=
  (∀ s : State, s.managed →
     let answers := fun (c : Instr) (code : Nat) (fields : List Nat) => ∃ t, exec c s = .next t ∧
       t.out = s.out ++ [.mctp (.pldm code fields)] ∧ s.touches t [.sec, .out] []
     let becomes := fun (c : Instr) (p : PldmState) => ∀ t, exec c s = .next t → t.sec.pldm = p
     answers .queryDeviceIdentifiers 0 [0x1F3A, 0x0474, 0x1F3A, 0x0474] ∧
     answers .getFirmwareParameters 0 [1, s.activeBank, s.boot.bank.getD 2, s.boot.secver, s.bootFloor] ∧
     answers .getStatus 0 [s.sec.pldm.code] ∧
     (∀ n, s.sec.pldm = .idle → answers (.requestUpdate n) 0 [min n 1] ∧ becomes (.requestUpdate n) .learn) ∧
     (∀ n, s.sec.pldm ≠ .idle → answers (.requestUpdate n) 0x81 [] ∧ becomes (.requestUpdate n) s.sec.pldm) ∧
     (s.sec.pldm = .learn → answers (.passComponentTable 0) 0 [] ∧ becomes (.passComponentTable 0) .ready) ∧
     (∀ n, s.sec.pldm = .ready → n ≤ 67108864 → answers (.updateComponent 0 n) 0 [] ∧
       becomes (.updateComponent 0 n) .download) ∧
     (∀ o data, s.sec.pldm = .download → ∃ t, exec (.requestFirmwareData o data) s = .next t ∧
       t.sec.banks = storeSetMany 0 s.sec.banks ((1 - s.activeBank) * 67108864 + o)
         ((data.take 192).take (s.sec.length - o)) ∧ t.sec.pldm = .download ∧ s.touches t [.sec] []) ∧
     (s.sec.pldm = .download → answers .transferComplete 0 [] ∧ becomes .transferComplete .verify) ∧
     (s.sec.pldm = .verify → answers .verifyComplete (s.bankCode (s.bootImage s.otherBank)) [] ∧
       becomes .verifyComplete (if s.bankCode (s.bootImage s.otherBank) = 0 then .apply else .ready) ∧
       ∀ t, exec .verifyComplete s = .next t → t.sec.passed = decide (s.bankCode (s.bootImage s.otherBank) = 0)) ∧
     (s.sec.pldm = .apply → answers .applyComplete 0 [] ∧ becomes .applyComplete .ready) ∧
     (s.sec.pldm = .ready → s.sec.passed = true → s.frozen 32 = false → (queued s.sbk.queue).length < 16 →
       ∃ t, exec .activateFirmware s = .next t ∧ t.activeBank = 1 - s.activeBank ∧ t.sec.pldm = .idle ∧
         t.out = s.out ++ [.mctp (.pldm 0 [])] ∧ s.touches t [.sec, .sbk, .out] []) ∧
     (s.sec.pldm ≠ .idle → answers .cancelUpdate 0 [] ∧ becomes .cancelUpdate .idle) ∧
     (s.sec.pldm = .idle → ∀ c, c = .cancelUpdate ∨ c = .activateFirmware ∨ c = .passComponentTable 0 ∨
       c = .updateComponent 0 0 → answers c 0x80 [] ∧ becomes c .idle)) ∧
  (∀ s : State, s.inv →
     (∀ d, s.ldg.address.isSome = true → s.managed → s.enrolled 0 = false → s.enrolled 1 = false →
       s.groupFrozen (digestWrites 0 d ++ [(56, 1)]) = false → (queued s.sbk.queue).length ≤ 7 →
       ∃ t, exec (.firstEnrollment d) s = .next t ∧
         t.sbk.queue = s.sbk.queue ++ [⟨digestWrites 0 d ++ [(56, 1)]⟩] ∧ t.slotDigest 0 = d ∧ t.enrolled 0 = true ∧
         s.touches t [.sbk, .out] []) ∧
     (∀ d, s.ldg.address.isSome = true → s.managed → (s.enrolled 0 = true ∨ s.enrolled 1 = true) →
       exec (.firstEnrollment d) s = .next s) ∧
     (s.hosted → s.enrBusy = false → ∃ t, exec .enrollmentGo s = .next t ∧ t.enrBusy = true ∧
       t.bit Reg.SBK_ENR_CTRL 8 = false ∧ s.touches t [.regs] [Reg.SBK_ENR_CTRL]) ∧
     (s.hosted → s.enrBusy = true → exec .enrollmentGo s = .next s) ∧
     (s.enrBusy = true → s.loadRuns = true → exec .enrollmentCheck s = .next s) ∧
     (s.enrBusy = true → s.loadRuns = false → s.enrCode ≠ 0 →
       ∃ t, exec .enrollmentCheck s = .next t ∧ t.enrBusy = false ∧ t.fld Reg.SBK_ENR_CTRL 7 4 = s.enrCode ∧
         t.bit Reg.SBK_ENR_CTRL 8 = true ∧ t.bit Reg.SBK_EVENT 3 = true ∧
         s.touches t Part.signalled [Reg.SBK_ENR_CTRL, Reg.SBK_EVENT, Reg.SBK_FROZEN]) ∧
     (s.enrBusy = true → s.loadRuns = false → s.enrCode = 0 →
       (queued s.sbk.queue).length + s.enrWrites.length ≤ 16 → ∃ t, exec .enrollmentCheck s = .next t ∧
         t.sbk = { s.sbk with queue := s.sbk.queue ++ [⟨s.enrWrites⟩] } ∧ t.enrBusy = false ∧
         t.fld Reg.SBK_ENR_CTRL 7 4 = 0 ∧ t.bit Reg.SBK_ENR_CTRL 8 = true ∧ t.bit Reg.SBK_EVENT 3 = true ∧
         s.touches t (.sbk :: Part.signalled) [Reg.SBK_ENR_CTRL, Reg.SBK_EVENT]))

/-! ## Power states -/

/-- A request for a deeper state begins its entry when nothing refuses, which clears the wake causes; otherwise it is refused
with its code and LDG_EVENT; in a transition it is held. The entry to A1 comes of itself in quiet, and any host request ends
it. D3hot is a request for A2, made again once nothing refuses it. An entry ends in its state: A1 changes nothing else; in
A2 each port listens as PYU_WAKE sets, or is off, but for a FAILED one; A3 keeps the persistent store, the Lodge's registers,
PYU_WAKE, MEM_TEMP and ME_FAIL, and loses memory, image, epoch and the rest. -/
def Obligations.EntriesBeginAndEnd : Prop :=
  (∀ s : State, s.inv →
     (∀ c p, (c = .targetA1 ∧ p = .a1 ∧ s.hosted) ∨ (c = .targetA2 ∧ p = .a2 ∧ s.hosted) ∨
         (c = .mgmtEnterA2 ∧ p = .a2 ∧ s.managed) ∨ (c = .mgmtEnterA3 ∧ p = .a3 ∧ s.managed) → s.moving = false →
       (s.ldg.ps.depth < p.depth → s.entryRefusal p = none → ∃ t, exec c s = .next t ∧ t.ldg.entering = some p ∧
         t.ldg.asked = true ∧ t.ldg.latched = false ∧ t.ldg.ps = s.ldg.ps ∧ t.reg Reg.LDG_WAKE_CAUSE = 0 ∧
         s.keeps t ([.ldg, .sbk, .hlt, .pwr] ++ Part.signalled) ∧ s.sameBytes t) ∧
       (∀ code, s.ldg.ps.depth < p.depth → s.entryRefusal p = some code → ∃ t, exec c s = .next t ∧
         t.fld Reg.LDG_PSTATE_CTRL 6 4 = code ∧ t.bit Reg.LDG_EVENT 2 = true ∧
         s.touches t Part.signalled [Reg.LDG_PSTATE_CTRL, Reg.LDG_EVENT]) ∧
       (s.ldg.ps = p → ∃ t, exec c s = .next t ∧ t.fld Reg.LDG_PSTATE_CTRL 6 4 = 1 ∧
         s.touches t [.regs] [Reg.LDG_PSTATE_CTRL])) ∧
     (∀ c p, (c = .mgmtEnterA2 ∧ p = .a2) ∨ (c = .mgmtEnterA3 ∧ p = .a3) → s.managed → s.moving = true →
       ∃ t, exec c s = .next t ∧ t.ldg = { s.ldg with held := some p } ∧ t.fld Reg.LDG_PSTATE_CTRL 6 4 = 6 ∧
         s.touches t [.regs, .ldg] [Reg.LDG_PSTATE_CTRL]) ∧
     (s.hosted → ∃ t, exec .targetA0 s = .next t ∧ t.fld Reg.LDG_PSTATE_CTRL 6 4 = 1 ∧
       s.touches t [.regs] [Reg.LDG_PSTATE_CTRL]) ∧
     (s.boot.powered = true → 2 ≤ s.boot.domains → s.ldg.ps = .a0 → s.moving = false → s.fld Reg.LDG_CFG 15 0 ≠ 0 →
       s.entryRefusal .a1 = none → ∃ t, exec .a1AutoEntry s = .next t ∧ t.ldg.entering = some .a1 ∧
         s.keeps t ([.ldg, .sbk, .hlt, .pwr] ++ Part.signalled) ∧ s.sameBytes t) ∧
     (s.linkUp = true → s.inA1 = true → s.ldg.held = none → exec .a1ReturnRequest s =
       .next { s with ldg := { s.ldg with ps := .a0, entering := none } }) ∧
     (s.configOn = true → s.moving = false → s.ldg.ps = .a0 → s.entryRefusal .a2 = none → ∃ t, exec .d3hotWrite s = .next t ∧
       t.host.d3hot = true ∧ t.host.d3wait = false ∧ t.ldg.entering = some .a2 ∧ s.sameBytes t) ∧
     (∀ code, s.configOn = true → s.moving = false → s.ldg.ps = .a0 → s.entryRefusal .a2 = some code →
       ∃ t, exec .d3hotWrite s = .next t ∧ t.host.d3hot = true ∧ t.host.d3wait = true ∧ t.ldg = s.ldg ∧
         t.fld Reg.LDG_PSTATE_CTRL 6 4 = code ∧ t.bit Reg.LDG_EVENT 2 = true) ∧
     (s.host.d3hot = true → s.host.d3wait = true → s.moving = false → s.entryRefusal .a2 = none →
       ∃ t, exec .d3hotDeferredEntry s = .next t ∧ t.ldg.entering = some .a2 ∧ t.host.d3wait = false) ∧
     (s.configOn = true → s.asleep = false → s.inA1 = false → ∃ t, exec .d0Write s = .next t ∧ t.host.d3hot = false ∧
       t.host.d3wait = false ∧ s.touches t [.host] []) ∧
     (s.configOn = true → s.ldg.ps = .a2 → s.ldg.entering = none → s.ldg.waking = 0 → s.tripped = false →
       ∃ t, exec .d0Write s = .next t ∧ t.host.d3hot = false ∧ t.ldg.waking = 1 ∧ t.bit Reg.LDG_WAKE_CAUSE 4 = true ∧
         s.touches t [.regs, .ldg, .host] [Reg.LDG_WAKE_CAUSE])) ∧
  (∀ s : State, s.inv → s.ldg.asked = false → s.ldg.latched = false → s.ldg.held = none →
     (s.ldg.entering = some .a1 → exec .entryDone s =
       .next { s with ldg := { s.ldg with ps := .a1, entering := none } }) ∧
     (s.ldg.entering = some .a2 → ∃ t, exec .entryDone s = .next t ∧
       t.ldg = { s.ldg with ps := .a2, entering := none } ∧
       (∀ p : Fin 16, (s.port p).st ≠ portFailed → (s.bit Reg.PYU_WAKE p = true ∨ s.bit Reg.PYU_WAKE (16 + p) = true) →
         (t.port p).st = portListen) ∧
       (∀ p : Fin 16, (s.port p).st = portFailed → t.port p = s.port p) ∧ s.touches t [.ldg, .pyu] []) ∧
     (s.ldg.entering = some .a3 → ∃ t, exec .entryDone s = .next t ∧ t.ldg.ps = .a3 ∧ t.ldg.entering = none ∧
       (∀ k, t.byteAt k = 0) ∧ t.image = {} ∧ t.upd = {} ∧ t.adm = {} ∧ t.tick = {} ∧ t.stl = {} ∧
       (∀ o, keptReg o = true → t.reg o = s.reg o) ∧
       (∀ o, keptReg o = false → o ≠ Reg.PYU_WAKE → o ≠ Reg.MEM_TEMP0 → o ≠ Reg.MEM_TEMP1 →
         (∀ k, k < 16 → o ≠ Reg.ME_FAIL + 4 * k) → t.reg o = State.reset.reg o) ∧
       (∀ k, k < 16 → t.reg (Reg.ME_FAIL + 4 * k) = s.reg (Reg.ME_FAIL + 4 * k)) ∧
       t.reg Reg.PYU_WAKE = s.reg Reg.PYU_WAKE ∧ t.reg Reg.MEM_TEMP0 = s.reg Reg.MEM_TEMP0 ∧
       t.reg Reg.MEM_TEMP1 = s.reg Reg.MEM_TEMP1 ∧ t.sbk = s.sbk ∧ t.hlt.bytes = s.hlt.bytes ∧ t.hlt.tail = s.hlt.tail ∧
       t.boot.cached = s.boot.cached ∧ t.out = s.out))

/-- A wake event in A2 sets its cause, is the event acted on, and starts the wake, or in A3 the start-up; while the module has
tripped it is ignored. A listening port that sees it sets PYU_EVENT as well. Each domain that is ready starts the next step, and a
channel that fails its calibration is suspect; the last one makes the module A0 again, with a held image checked anew and a FAILED
port as it was. A wake that fails leaves the module in A3. A function accessed on demand is noted and changes nothing else. -/
def Obligations.WakesRun : Prop :=
  ∀ s : State, s.inv →
    (∀ k n, (k = .pcieActivity ∧ n = 0) ∨ (∃ p : Fin 16, k = .pyuActivity p ∧ n = 1 ∧ s.bit Reg.PYU_WAKE (16 + p) = true) ∨
        (∃ p : Fin 16, k = .pyuPattern p ∧ n = 2 ∧ s.bit Reg.PYU_WAKE p = true) ∨ (k = .wakePin ∧ n = 3) ∨
        (k = .pcieRequest ∧ n = 4 ∧ s.ldg.ps = .a2) ∨ (k = .management ∧ n = 6) →
      s.boot.powered = true → s.ldg.entering = none → s.ldg.waking = 0 →
      (s.tripped = true → n ≠ 1 → n ≠ 2 → exec (.wakeEvent k) s = .next s) ∧
      (s.tripped = true → (n = 1 ∨ n = 2) → (s.ldg.ps = .a2 ∨ s.ldg.ps = .a3) → ∃ t, exec (.wakeEvent k) s = .next t ∧
        t.bit Reg.PYU_EVENT 6 = true ∧ s.touches t Part.signalled [Reg.PYU_EVENT]) ∧
      (s.tripped = false → s.ldg.ps = .a2 → ∃ t, exec (.wakeEvent k) s = .next t ∧ t.bit Reg.LDG_WAKE_CAUSE n = true ∧
        t.fld Reg.LDG_WAKE_CAUSE 10 8 = n ∧ t.ldg.waking = 1 ∧ t.ldg.ps = .a2 ∧
        (n ≠ 1 → n ≠ 2 → s.touches t [.regs, .ldg] [Reg.LDG_WAKE_CAUSE]) ∧
        (n = 1 ∨ n = 2 → t.bit Reg.PYU_EVENT 6 = true ∧
          s.touches t (.ldg :: Part.signalled) [Reg.LDG_WAKE_CAUSE, Reg.PYU_EVENT])) ∧
      (s.tripped = false → s.ldg.ps = .a3 → ∃ t, exec (.wakeEvent k) s = .next t ∧ t.bit Reg.LDG_WAKE_CAUSE n = true ∧
        t.ldg.waking = 1 ∧ t.boot.step = 1 ∧ t.boot.fromA3 = true ∧ t.boot.cached = s.boot.cached ∧ t.sbk = s.sbk)) ∧
    (s.managed → exec .mgmtWake s = exec (.wakeEvent .management) s) ∧
    (s.managed → s.tripped = true → s.bit Reg.LDG_STATE 5 = true → 10000 ≤ s.ldg.clear → ∃ t, exec .mgmtRearm s = .next t ∧
      t.tripped = false ∧ t.bit Reg.LDG_STATE 5 = false ∧ s.touches t [.regs] [Reg.LDG_STATE]) ∧
    (∀ failed, s.ldg.ps = .a2 → s.ldg.waking ≠ 0 → s.ldg.waking < 4 → (s.ldg.waking ≠ 3 ∨ failed = []) →
      exec (.wakeDomainReady failed) s = .next { s with ldg := { s.ldg with waking := s.ldg.waking + 1 } }) ∧
    (∀ ch : Fin 256, s.ldg.ps = .a2 → s.ldg.waking = 3 → s.bit (Reg.MEM_SUSPECT + 4 * (ch / 32)) (ch % 32) = false →
      ∃ t, exec (.wakeDomainReady [ch]) s = .next t ∧ t.ldg = { s.ldg with waking := 4 } ∧
        t.bit (Reg.MEM_SUSPECT + 4 * (ch / 32)) (ch % 32) = true ∧ t.bit Reg.MEM_EVENT 0 = true ∧ s.hlt.grows t.hlt ∧
        s.keeps t ([.ldg, .hlt] ++ Part.signalled) ∧ s.sameBytes t) ∧
    (∀ failed, s.ldg.ps = .a2 → s.ldg.waking = 4 → s.ldg.held = none → ∃ t, exec (.wakeDomainReady failed) s = .next t ∧
      t.ldg = { s.ldg with ps := .a0, waking := 0 } ∧ t.bit Reg.LDG_EVENT 0 = true ∧
      (s.img.isSome = true → t.image = { s.image with st := .verifying, rechecking := some s.image.st }) ∧
      (s.img = none → t.image = s.image) ∧ (∀ p : Fin 16, (s.port p).st = portFailed → (t.port p).st = portFailed) ∧
      s.sameBytes t) ∧
    (∀ failed, s.ldg.ps = .a0 → s.ldg.waking = 0 → s.boot.powered = true → 1 ≤ s.boot.step → s.boot.domains < 2 →
      exec (.wakeDomainReady failed) s = .next { s with boot := { s.boot with domains := s.boot.domains + 1 } }) ∧
    (∀ failed, s.ldg.ps = .a3 → s.ldg.waking = 2 → s.ldg.held = none → ∃ t, exec (.wakeDomainReady failed) s = .next t ∧
      t.boot = { s.boot with domains := 2 } ∧ t.ldg = { s.ldg with ps := .a0, waking := 0 } ∧
      t.bit Reg.LDG_EVENT 0 = true ∧ s.touches t ([.boot, .ldg] ++ Part.signalled) [Reg.LDG_EVENT]) ∧
    (s.ldg.waking ≠ 0 → s.ldg.held = none → ∃ t, exec .wakeFail s = .next t ∧ t.ldg.ps = .a3 ∧ t.ldg.waking = 0 ∧
      t.ldg.entering = none ∧ t.bit Reg.LDG_EVENT 1 = true ∧ (∀ k, t.byteAt k = 0) ∧ t.image = {} ∧ s.hlt.grows t.hlt) ∧
    (∀ f, s.boot.powered = true → (s.ldg.ps = .a2 ∨ s.ldg.ps = .a3) → s.ldg.onDemand.contains f = false →
      exec (.onDemandAccess f) s = .next { s with ldg := { s.ldg with onDemand := s.ldg.onDemand ++ [f] } })

/-! ## The Lodge -/

/-- A sample advances the uptime by 100 µs. The first sensor whose limit has been crossed for its count of samples shuts the
module down to A3: TRIPPED, its cause, and LDG_EVENT; without a crossing the module goes on as it is. Losing the input ends
in Off: the write queue is persisted, the rest is lost. Management: an address once assigned, the Lodge answers over I3C;
reads of the ledger and of a snapshot return up to 192 bytes, and nothing for more; the mailbox reads a vendor message from its
buffer and gives the same answers there with LDG_EVENT, and a malformed request sets its error bit. -/
def Obligations.LodgeProtectsAndAnswers : Prop :=
  (∀ (s : State) (x : Samples), s.inv →
     (s.boot.powered = true → 1 ≤ s.boot.step →
       (∃ t, exec (.sensorSample x) s = .next t ∧ t.regN Reg.LDG_UPTIME = (s.regN Reg.LDG_UPTIME + 100) % 2 ^ 64 ∧
         t.hlt.powered = s.hlt.powered + 100 ∧ s.hlt.grows t.hlt ∧
         (∀ i, i < 170 → s.beyondCount x i = crossAfter i → (∀ j, j < i → s.beyondCount x j ≠ crossAfter j) →
           t.ldg.ps = .a3 ∧ t.tripped = true ∧ t.fld Reg.LDG_TRIP 3 0 = (tripCode i).1 ∧
           t.fld Reg.LDG_TRIP 15 4 = (tripCode i).2 ∧ t.bit Reg.LDG_TRIP 31 = true ∧ t.bit Reg.LDG_EVENT 3 = true ∧
           t.image = {} ∧ (∀ k, t.byteAt k = 0) ∧ t.sbk = s.sbk) ∧
         ((∀ i, i < 170 → s.beyondCount x i ≠ crossAfter i) → t.ldg.ps = s.ldg.ps ∧
           (s.tripped = false → t.tripped = false) ∧ s.keeps t ([.ldg, .hlt] ++ Part.signalled) ∧ s.sameBytes t))) ∧
     (s.boot.powered = true → ∃ t, exec .lodgeStop s = .next t ∧ t.boot.powered = false ∧ t.boot.step = 0 ∧
       t.sbk.queue = [] ∧ t.image = {} ∧ t.ldg = {} ∧ (∀ k, t.byteAt k = 0) ∧
       (∀ o, (∀ k, k < 16 → o ≠ Reg.ME_FAIL + 4 * k) → t.reg o = State.reset.reg o) ∧
       (∀ k, k < 16 → t.reg (Reg.ME_FAIL + 4 * k) = s.reg (Reg.ME_FAIL + 4 * k)) ∧
       (∀ i, s.wear i ≤ t.wear i) ∧ t.sec.banks = s.sec.banks) ∧
     (s.boot.powered = false → exec .lodgeStop s = .next s ∧ exec (.sensorSample x) s = .next s)) ∧
  (∀ s : State, s.inv →
     (∀ a, s.boot.powered = true → 1 ≤ s.boot.step → exec (.dynamicAddressAssignment a) s =
       .next { s with ldg := { s.ldg with address := some a } }) ∧
     (s.managed → s.ldg.address.isSome = true → exec (.mctpI3cRequest .identity) s = .next { s with out := s.out ++
         [.mctp (.identity Config.moduleId 0x04740512 Config.romVersion s.boot.status s.boot.cached)] } ∧
       exec (.mctpI3cRequest .malformed) s = .next s ∧
       exec (.mctpI3cRequest .control) s = .next { s with out := s.out ++ [.mctp .control] }) ∧
     (∀ q, s.ldg.address = none → exec (.mctpI3cRequest q) s = .next s) ∧
     (∀ o n, s.managed → n ≤ 192 → exec (.ledgerRead o n) s =
         .next { s with out := s.out ++ [.mctp (.vendor 2 (s.ledgerBytes o n))] } ∧
       exec (.snapshotRead o n) s = .next { s with out := s.out ++ [.mctp (.vendor 3 ((s.snapshotBytes.drop o).take n))] }) ∧
     (∀ o n, s.managed → 192 < n → exec (.ledgerRead o n) s = .next s ∧ exec (.snapshotRead o n) s = .next s) ∧
     (∀ q, (s.mailboxField 0 3 ≠ 0x1F3A7E → s.mailboxReq q = q) ∧ (s.mailboxField 0 4 = 0x021F3A7E →
       s.mailboxReq q = .ledgerRead (s.mailboxField 4 8) (s.mailboxField 12 2))) ∧
     (∀ (ctrl : Word) q o n, s.hosted → 1 ≤ bits ctrl.toNat 10 2 → bits ctrl.toNat 10 2 ≤ 256 →
       s.mailboxReq q = .ledgerRead o n → n ≤ 192 → ∃ t, exec (.mailboxGo ctrl q) s = .next t ∧ t.bit Reg.LDG_EVENT 4 = true ∧
         t.bit Reg.LDG_MBOX_CTRL 12 = false ∧ t.fld Reg.LDG_MBOX_CTRL 10 2 = n + 4 ∧ t.regN Reg.LDG_MBOX = 0x021F3A7E ∧
         (∀ k, 4 * k < n → t.regN (Reg.LDG_MBOX + 4 * (k + 1)) = ofLe (s.ledgerBytes (o + 4 * k) (min 4 (n - 4 * k)))) ∧
         s.keeps t (.free :: Part.signalled)) ∧
     (∀ (ctrl : Word) q, s.hosted → (s.mailboxReq q = .malformed ∨ bits ctrl.toNat 10 2 = 0 ∨ 256 < bits ctrl.toNat 10 2) →
       ∃ t, exec (.mailboxGo ctrl q) s = .next t ∧ t.bit Reg.LDG_MBOX_CTRL 12 = true ∧
         s.touches t [.regs] [Reg.LDG_MBOX_CTRL]))

/-! ## Power -/

/-- Every control period in A0: a core at 100 °C or more is held until 97 °C or less; every core runs at or below its highest
allowed frequency, a held core at the schedule clock; with the cap in force below the floor every core runs at the schedule
clock, and otherwise the predicted power is within the cap unless every core already does. Droop halves and releases a core's
clock. The cap takes values of its range only, and ACK_STALE clears the mark. -/
def Obligations.PowerHolds : Prop :=
  ∀ s : State, s.inv →
    (∀ temps, s.boot.powered = true → 2 ≤ s.boot.domains → s.ldg.ps = .a0 →
      ∃ t, exec (.powerControlPeriod temps) s = .next t ∧
        (∀ c, c < 128 → t.pwr.hot.getLsbD c =
          (decide (100 ≤ temps.getD c 0) || (s.pwr.hot.getLsbD c && decide (97 < temps.getD c 0)))) ∧
        (∀ c, c < 128 → 2400 + 25 * t.freqStep c ≤ Config.fusedMhz c ∧ (t.pwr.hot.getLsbD c = true → t.freqStep c = 0)) ∧
        (s.jobLive = true → s.pwr.cap < s.capFloor → ∀ c, t.freqStep c = 0) ∧
        (¬(s.jobLive = true ∧ s.pwr.cap < s.capFloor) →
          Config.predictPower s.estimate ((List.range 128).map t.freqStep) * s.pwr.kNum ≤ s.pwr.cap * s.pwr.kDen ∨
            ∀ c, c < 128 → t.freqStep c = 0) ∧
        s.touches t [.pwr, .hlt] []) ∧
    (∀ c : Fin 128, s.pwr.droop.getLsbD c = false → ∃ t, exec (.droopTrip c) s = .next t ∧
      t.pwr.droop.getLsbD c = true ∧ (∀ k : Fin 128, k ≠ c → t.pwr.droop.getLsbD k = s.pwr.droop.getLsbD k) ∧
      t.coreMhz c = (2400 + 25 * s.freqStep c) / 2 ∧ s.touches t [.pwr, .hlt] []) ∧
    (∀ (c : Fin 128) n, s.pwr.droop.getLsbD c = true → ∃ t, exec (.droopRelease c n) s = .next t ∧
      t.pwr.droop.getLsbD c = false ∧ t.coreMhz c = 2400 + 25 * s.freqStep c ∧ s.touches t [.pwr, .hlt] []) ∧
    (∀ v : Word, s.hosted → (v.toNat % 4096 < 1200 ∨ 2300 < v.toNat % 4096) → exec (.capWrite v) s = .next s) ∧
    (∀ v : Word, s.hosted → 1200 ≤ v.toNat % 4096 → v.toNat % 4096 ≤ 2300 → s.frozen 0 = false →
      (queued s.sbk.queue).length < 16 → ∃ t, exec (.capWrite v) s = .next t ∧ (t.seed 0).toNat = v.toNat % 4096 ∧
        (∀ i, i ≠ 0 → t.seed i = s.seed i) ∧ t.pwr = s.pwr ∧ s.touches t [.sbk] []) ∧
    (s.hosted → s.pwr.stale = true → ∃ t, exec .ackStale s = .next t ∧
      t.pwr = { s.pwr with stale := false, streak := 0 } ∧ s.touches t [.pwr] []) ∧
    (s.hosted → s.pwr.stale = false → exec .ackStale s = .next s)

/-! ## Seed bank and ledger -/

/-- A seed-bank write of the host is accepted into the queue and reads back at once; a frozen register and a full queue refuse
it; registers that the host may not write, and values out of range, are ignored. Persisting the oldest entry counts its
wear, warns at 180,000 writes and freezes at 200,000. The weekly summary is appended while the ledger has room for it, and
its interval fields start again; an allowance period starts its counts again; a snapshot copies the live summary once, and
its readiness is signalled. -/
def Obligations.SeedAndLedgerPersist : Prop :=
  (∀ s : State, s.inv →
     (∀ (i : Fin 1024) (v : Word), s.hosted → (512 ≤ i.val ∨ (i.val = 1 ∧ 80 ≤ v.toNat ∧ v.toNat ≤ 100) ∨
         (i.val = 2 ∧ v.toNat < 65536) ∨ (16 ≤ i.val ∧ i.val < 32 ∧ lanePermutation v = true)) →
       (s.frozen i = false → (queued s.sbk.queue).length < 16 → ∃ t, exec (.seedWrite i v) s = .next t ∧ t.seed i = v ∧
         (∀ j, j ≠ i.val → t.seed j = s.seed j) ∧ t.sbk.queue = s.sbk.queue ++ [⟨[(i.val, v)]⟩] ∧
         s.touches t [.sbk] []) ∧
       (s.frozen i = false → 16 ≤ (queued s.sbk.queue).length → ∃ t, exec (.seedWrite i v) s = .next t ∧
         t.bit Reg.SBK_EVENT 2 = true ∧ s.touches t Part.signalled [Reg.SBK_EVENT]) ∧
       (s.frozen i = true → ∃ t, exec (.seedWrite i v) s = .next t ∧ t.bit Reg.SBK_FROZEN 0 = true ∧
         s.touches t [.regs] [Reg.SBK_FROZEN])) ∧
     (∀ (i : Fin 1024) (v : Word), s.hosted → ((3 ≤ i.val ∧ i.val < 8) ∨ (32 ≤ i.val ∧ i.val < 512) ∨
         (i.val = 1 ∧ (v.toNat % 256 < 80 ∨ 100 < v.toNat % 256)) ∨
         (16 ≤ i.val ∧ i.val < 32 ∧ lanePermutation v = false)) → exec (.seedWrite i v) s = .next s) ∧
     (∀ i v rest, s.boot.powered = true → s.sbk.queue = ⟨[(i, v)]⟩ :: rest → i ≠ 0 → storeWf 0 s.sbk.vals = true →
       ∃ t, exec .seedWritePersist s = .next t ∧ t.wear i = s.wear i + 1 ∧ (∀ j, j ≠ i → t.wear j = s.wear j) ∧
         t.seedStored i = v ∧ (s.wear i + 1 ≠ 200000 → t.sbk.queue = rest) ∧
         (s.wear i + 1 = 180000 → t.bit Reg.SBK_EVENT 0 = true) ∧
         (s.wear i + 1 = 200000 → t.bit Reg.SBK_EVENT 1 = true ∧ t.frozen i = true ∧
           ∀ e ∈ t.sbk.queue, ∀ w ∈ e.writes, w.1 ≠ i) ∧
         s.keeps t ([.sbk, .hlt] ++ Part.signalled) ∧ s.sameBytes t)) ∧
  (∀ s : State, s.inv →
     (s.boot.powered = true → s.hlt.scanDue = false → s.hlt.tail + 4096 ≤ 16777216 → ∃ t, exec .weeklySummary s = .next t ∧
       t.hlt.tail = s.hlt.tail + 4096 ∧ t.hlt.records = s.hlt.records + 1 ∧ t.hlt.lastSummary = s.hlt.powered ∧
       (∀ k, 0x800 ≤ k → storeGet 0 t.hlt.live k = 0) ∧ (∀ k, k < 0x800 → storeGet 0 t.hlt.live k = storeGet 0 s.hlt.live k) ∧
       s.hlt.grows t.hlt ∧ s.touches t (.hlt :: Part.signalled) [Reg.HLT_EVENT]) ∧
     (s.boot.powered = true → s.hlt.scanDue = false → 16777216 < s.hlt.tail + 4096 → ∃ t, exec .weeklySummary s = .next t ∧
       t.hlt = s.hlt ∧ t.regN Reg.HLT_LOST = min (s.regN Reg.HLT_LOST + 1) (2 ^ 32 - 1) ∧
       s.touches t [.regs] [Reg.HLT_LOST]) ∧
     (s.boot.powered = true → exec .allowancePeriod s = .next { s with hlt := { s.hlt with allow := [] } }) ∧
     (s.hosted → exec .hltSnap s = .next { s with hlt := { s.hlt with snapBusy := true } }) ∧
     (s.hlt.snapBusy = false → exec .hltSnapDone s = .next s) ∧
     (s.hlt.snapBusy = true → ∃ t, exec .hltSnapDone s = .next t ∧ t.hlt.snapBusy = false ∧
       (∀ k, storeGet 0 t.hlt.snap k = s.snapshotBytes.getD k 0) ∧ t.hlt.bytes = s.hlt.bytes ∧ t.hlt.tail = s.hlt.tail ∧
       t.bit Reg.HLT_EVENT 3 = true ∧ s.touches t (.hlt :: Part.signalled) [Reg.HLT_EVENT]))

/-! ## Belvedere -/

/-- A snapshot copies every counter at once, or at the next edge of a RUNNING image; a second one is ignored until the first is
done, which shows its cycle. A mark is a record of the trace. Without loss a record that arrives at a ring with room moves TAIL
by 32 and is counted; a flush writes what is gathered. A ring is enabled only over a valid base, and starts at 0. -/
def Obligations.SnapshotsAndRings : Prop :=
  ∀ s : State, s.inv →
    (∀ c, c = .belSnap ∨ (c = .belSnapAtEdge ∧ s.image.st ≠ .running) → s.hosted → s.bel.snapBusy = false →
      ∃ t, exec c s = .next t ∧ t.bel.snap = s.bel.cnt ∧ t.bel.cnt = s.bel.cnt ∧ t.bel.snapBusy = true ∧
        s.touches t [.regs, .bel] [Reg.BEL_SNAP_TICK]) ∧
    (s.hosted → s.bel.snapBusy = false → s.image.st = .running → exec .belSnapAtEdge s =
      .next { s with bel := { s.bel with snapBusy := true, snapAtEdge := true } }) ∧
    (∀ c, c = .belSnap ∨ c = .belSnapAtEdge → s.hosted → s.bel.snapBusy = true → exec c s = .next s) ∧
    (∀ n, s.bel.snapBusy = true → s.bel.snapAtEdge = false → ∃ t, exec (.belSnapDone n) s = .next t ∧
      t.bel = { s.bel with snapBusy := false } ∧ t.regN Reg.BEL_SNAP_CYCLE = n % 2 ^ 25 ∧ t.bit Reg.BEL_EVENT 0 = true ∧
      s.touches t (.bel :: Part.signalled) [Reg.BEL_SNAP_CYCLE, Reg.BEL_EVENT]) ∧
    (∀ v : DWord, s.hosted → s.bit Reg.BEL_TRACE_EN 0x14 = true → (s.ring 0).inflight = [] →
      ∃ t r, exec (.belMark v) s = .next t ∧ (t.ring 0).inflight = [r] ∧ r.code = 0x14 ∧ r.payload = v.toNat ∧
        r.tick = s.stampTick ∧ s.touches t [.free, .bel] []) ∧
    (∀ v : DWord, s.hosted → s.bit Reg.BEL_TRACE_EN 0x14 = false → exec (.belMark v) s = .next s) ∧
    (∀ (d : Fin 2) r rest, storeWf {} s.bel.rings = true → (s.ring d).inflight = r :: rest → s.ringOn d = true →
      s.ringTail d + 32 ≤ s.ringHead d + s.ringSize d → (s.ring d).lostRing = 0 → (s.ring d).lostSrc = 0 → (s.ringTail d + 32) % 256 ≠ 0 → s.ringTail d + 32 < 2 ^ 64 →
      ∃ t, exec (.traceRecordArrival d false) s = .next t ∧ (t.ring d).inflight = rest ∧
        (t.ring d).group = (s.ring d).group ++ [r] ∧ t.ringTail d = s.ringTail d + 32 ∧ t.ringHead d = s.ringHead d ∧
        t.regN (Reg.BEL_RING_RECORDS + ringOff d) = min (s.regN (Reg.BEL_RING_RECORDS + ringOff d) + 1) (2 ^ 64 - 1) ∧
        s.sameBytes t) ∧
    (∀ (d : Fin 2) g gs, (s.ring d).group = g :: gs → s.asleep = false → s.bit (Reg.BEL_RING_CTRL + ringOff d) 1 = false →
      ∃ t, exec (.traceGroupFlush d false) s = .next t ∧
        (∀ a, t.devByte a = (s.devWrite .window (s.regN (Reg.BEL_RING_BASE + ringOff d) +
          (s.ringTail d - 32 * (g :: gs).length) % s.ringSize d)
          (groupBytes (s.ringSize d) (s.ringTail d - 32 * (g :: gs).length) (g :: gs))).devByte a) ∧
        s.keeps t ([.mem, .hbm, .bel] ++ Part.signalled)) ∧
    (∀ (d : Fin 2) (ctrl : Word), s.hosted → s.ringOn d = false → ctrl.getLsbD 0 = true →
      let host := ctrl.getLsbD 1
      let size := bits ctrl.toNat 13 8
      let base := s.regN (Reg.BEL_RING_BASE + ringOff d)
      let valid := 16 ≤ size ∧ size ≤ 32 ∧ base % 2 ^ size = 0 ∧
        (host = true ∨ (base < 2 ^ 40 ∧ s.spanOk base (2 ^ size) = true ∧ s.touchesImage base (2 ^ size) = false))
      (valid → ∃ t, exec (.ringEnable d ctrl) s = .next t ∧ t.ringOn d = true ∧ t.ringSize d = 2 ^ size ∧
        t.ringHead d = 0 ∧ t.ringTail d = 0 ∧ s.touches t [.regs]
          [Reg.BEL_RING_CTRL + ringOff d, Reg.BEL_RING_HEAD + ringOff d, Reg.BEL_RING_TAIL + ringOff d]) ∧
      (¬valid → ∃ t, exec (.ringEnable d ctrl) s = .next t ∧ t.ringOn d = false ∧ t.bit Reg.BEL_EVENT 2 = true ∧
        s.touches t Part.signalled [Reg.BEL_RING_CTRL + ringOff d, Reg.BEL_EVENT]))

/-! ## Single rules -/

/-- Rounding to nearest even in every short format: a magnitude below the overflow threshold takes the nearest code, and at a
tie the one whose lowest mantissa bit is 0; the halfway points of IF4 take the codes that R96 lists. -/
def Obligations.RoundingIsNearestEven : Prop :=
  (∀ (f : Fmt) (x : Dy), x.neg = false → (overflowAt f).magLe x = false →
    let c := (roundCode f x none).1
    let unit := min x.e (min (Fmt.shape f).2.2 0)
    let far := fun k => (x.at unit - (elemValue f k).at unit).natAbs
    c ≤ maxCode f ∧ ∀ k, k ≤ maxCode f → far c ≤ far k ∧ (k ≠ c → far k = far c → c % 2 = 0)) ∧
  [1, 3, 5, 7, 10, 14, 20].map (fun m => ((elemValue .if4 (roundCode .if4 ⟨false, m, -2⟩ none).1).at (-1))) =
    [0, 2, 2, 4, 4, 8, 8]

/-- The residue byte of a block is the sum of its exponent and mantissas modulo 255, from 0 to 254; a zero block has residue 0;
multiplying by a power of two rotates the residue's bits left, and dividing by one rotates them right. -/
def Obligations.ResiduesRotate : Prop :=
  (∀ (ms : List Int) (e : Nat), (residueOf ms e : Int) = (e + ms.sum) % 255 ∧ residueOf ms e < 255) ∧
  residueOf (List.replicate 32 0) 0 = 0 ∧
  (∀ (x : Int) (k : Nat), BitVec.ofNat 8 (res255 (x * 2 ^ k)) = (BitVec.ofNat 8 (res255 x)).rotateLeft (k % 8) ∧
    BitVec.ofNat 8 (res255 x) = (BitVec.ofNat 8 (res255 (x * 2 ^ k))).rotateRight (k % 8))

/-- A cause that arises after the module's vote changes neither the vote nor the outcome: the first is the late cause of the
commit, and each shows in QNT_SPOIL_CAUSES. -/
def Obligations.LateCausesChangeNothing : Prop :=
  ∀ (s : State) (r : RunStep) (c : Nat), s.inv → s.tick.step = some r → r.voted = true → 1 ≤ c → c ≤ 6 →
    (s.spoil c).bit Reg.QNT_SPOIL_CAUSES (c - 1) = true ∧
    (∃ r', (s.spoil c).tick.step = some r' ∧ r'.voted = true ∧ r'.veto = r.veto ∧ r'.cause = r.cause ∧
      r'.decision = r.decision ∧ r'.acted = r.acted) ∧
    (s.spoil c).stl.commit.lateCause = (if s.stl.commit.lateCause = 0 then c else s.stl.commit.lateCause) ∧
    (s.spoil c).stl.commit.outcome = s.stl.commit.outcome ∧ (s.spoil c).stl.commit.votes = s.stl.commit.votes ∧
    (s.spoil c).stl.commit.combo = s.stl.commit.combo ∧ s.touches (s.spoil c) [.regs, .tick, .stl] [Reg.QNT_SPOIL_CAUSES]

/-- The configuration header: vendor and subsystem vendor 0x1F3A, device and subsystem 0x0474, revision 1, class 0x120000,
header type 0. -/
def Obligations.ConfigurationHeaderReads : Prop :=
  ∀ s : State, s.configOn = true → s.inA1 = false → ∃ a b c d,
    exec (.configurationRequest (.read 0 0x00)) s = .next { s with out := s.out ++ [.configData a], free := s.free + 1 } ∧
    exec (.configurationRequest (.read 0 0x08)) s = .next { s with out := s.out ++ [.configData b], free := s.free + 1 } ∧
    exec (.configurationRequest (.read 0 0x0C)) s = .next { s with out := s.out ++ [.configData c], free := s.free + 1 } ∧
    exec (.configurationRequest (.read 0 0x2C)) s = .next { s with out := s.out ++ [.configData d], free := s.free + 1 } ∧
    bits a.toNat 15 0 = 0x1F3A ∧ bits a.toNat 31 16 = 0x0474 ∧ bits d.toNat 15 0 = 0x1F3A ∧ bits d.toNat 31 16 = 0x0474 ∧
    bits b.toNat 7 0 = 1 ∧ bits b.toNat 31 8 = 0x120000 ∧ bits c.toNat 23 16 = 0

/-- A wake event during an entry is latched and named FIRST; with the entry's end LATCHED reads 1 and the wake starts. Further
events during the entry, and every event during a wake, set their bits only; those of a port set PYU_EVENT too. -/
def Obligations.WakesAreLatched : Prop :=
  ∀ s : State, s.inv → s.boot.powered = true → s.tripped = false →
    (∀ k n, (k = .pcieActivity ∧ n = 0) ∨ (k = .wakePin ∧ n = 3) ∨ (k = .management ∧ n = 6) ∨
        (∃ p : Fin 16, k = .pyuActivity p ∧ n = 1 ∧ s.bit Reg.PYU_WAKE (16 + p) = true) ∨
        (∃ p : Fin 16, k = .pyuPattern p ∧ n = 2 ∧ s.bit Reg.PYU_WAKE p = true) →
      ∃ t, exec (.wakeEvent k) s = .next t ∧
        (s.goingDown = true ∨ s.ldg.waking ≠ 0 → t.bit Reg.LDG_WAKE_CAUSE n = true ∧ t.ldg.ps = s.ldg.ps ∧
          t.ldg.entering = s.ldg.entering ∧ t.ldg.waking = s.ldg.waking ∧
          (n ≠ 1 → n ≠ 2 → s.touches t [.regs, .ldg] [Reg.LDG_WAKE_CAUSE]) ∧
          (n = 1 ∨ n = 2 → t.bit Reg.PYU_EVENT 6 = true ∧
            s.touches t (.ldg :: Part.signalled) [Reg.LDG_WAKE_CAUSE, Reg.PYU_EVENT])) ∧
        (s.goingDown = true → s.ldg.latched = false → t.ldg.latched = true ∧ t.fld Reg.LDG_WAKE_CAUSE 10 8 = n) ∧
        ((s.goingDown = true ∧ s.ldg.latched = true) ∨ (s.goingDown = false ∧ s.ldg.waking ≠ 0) →
          t.ldg.latched = s.ldg.latched ∧ t.fld Reg.LDG_WAKE_CAUSE 10 8 = s.fld Reg.LDG_WAKE_CAUSE 10 8)) ∧
    (∀ p, (p = .a2 ∨ p = .a3) → s.ldg.entering = some p → s.ldg.latched = true → ∃ t, exec .entryDone s = .next t ∧
      t.ldg.ps = p ∧ t.ldg.entering = none ∧ t.ldg.waking = 1 ∧ t.bit Reg.LDG_STATE 3 = true)

/-- An entry request in a transition is held, and the latest held one is acted on at its end; a write that is persisting is
completed before an entry begins. -/
def Obligations.RequestsInTransitionsAreHeld : Prop :=
  ∀ s : State, s.inv → s.managed → s.ldg.asked = false → s.ldg.latched = false →
    (∀ c p, (c = .mgmtEnterA2 ∧ p = .a2) ∨ (c = .mgmtEnterA3 ∧ p = .a3) →
      (s.moving = true → ∃ t, exec c s = .next t ∧ t.ldg = { s.ldg with held := some p } ∧ t.sbk = s.sbk) ∧
      (s.moving = false → s.ldg.ps.depth < p.depth → s.entryRefusal p = none → ∃ t, exec c s = .next t ∧
        t.ldg.entering = some p ∧ t.sbk = s.seedPersist.sbk)) ∧
    (∀ c p, (c = .targetA1 ∧ p = .a1) ∨ (c = .targetA2 ∧ p = .a2) → s.linkUp = true → 6 ≤ s.boot.step →
      s.boot.failed = false → s.asleep = true → s.moving = true → ∃ t, exec c s = .next t ∧
        t.ldg = { s.ldg with held := some p } ∧ t.sbk = s.sbk) ∧
    (s.ldg.entering = some .a2 → s.ldg.held = some .a3 → s.ldg.waking = 0 → s.entryRefusal .a3 = none →
      ∃ t, exec .entryDone s = .next t ∧ t.ldg.ps = .a2 ∧ t.ldg.entering = some .a3 ∧ t.ldg.held = none ∧
        t.sbk = s.seedPersist.sbk) ∧
    (s.ldg.ps = .a2 → s.ldg.waking = 4 → s.ldg.entering = none → s.ldg.held = some .a2 → s.image.st = .empty →
      s.anyDma = false → s.anyTest = false → ∀ failed, ∃ t, exec (.wakeDomainReady failed) s = .next t ∧ t.ldg.ps = .a0 ∧ t.ldg.entering = some .a2 ∧
        t.ldg.held = none)

/-- PHASE of a trace record is 1 on the first pass through the ring after it is enabled and alternates after it; the host's head
moves between its old place and TAIL only, and any other write is ignored with PTR_ERR. -/
def Obligations.RingHeadsAndPhases : Prop :=
  (∀ (size n : Nat) (r : TraceRec), (traceBytes size n r).length = 32 ∧
    ofLe (((traceBytes size n r).drop 8).take 4) / 2 ^ 31 = 1 - n / size % 2) ∧
  ∀ (d : Fin 2) (v : DWord) (s : State), s.inv → s.hosted →
    (s.ringHead d ≤ v.toNat → v.toNat ≤ s.ringTail d → ∃ t, exec (.ringHeadWrite d v) s = .next t ∧
      t.ringHead d = v.toNat ∧ s.touches t [.regs] [Reg.BEL_RING_HEAD + ringOff d]) ∧
    (v.toNat < s.ringHead d ∨ s.ringTail d < v.toNat → ∃ t, exec (.ringHeadWrite d v) s = .next t ∧
      t.bit Reg.BEL_EVENT 2 = true ∧ s.touches t Part.signalled [Reg.BEL_EVENT])

/-! ## Loads, drains and sums complete -/

/-- What these commands do where nothing stands in their way. LOAD of an idle module begins the fetch; its end starts the checks, its
error or a failed check leaves the module EMPTY with the error, and a good image is LOADED. A drained tile reaches its destination and
leaves its source at 0. A complete segment within its limits is converted and its rung recorded. A good block of a ring is held for its
addition; an addition of good operands counts, gives them up and places the sum. A Class S reduction goes up the tree, or ends with its
result at the root, with the parent's, or with the substitute at its deadline. -/
def Obligations.LoadsDrainsAndSumsComplete : Prop :=
  (∀ s : State, s.inv → s.hosted → 8 ≤ s.boot.step → s.busy = false → (s.image.st = .empty ∨ s.image.st = .loaded) →
     ∃ t, exec .load s = .next t ∧ t.image.st = .loading ∧ t.image.file = none ∧ t.regN Reg.LAST_PROGRESS = 0 ∧
       .hostFetch (s.regN Reg.LAST_SRC) (s.regN Reg.LAST_LEN) ∈ t.out) ∧
  (∀ s : State, s.inv → s.image.st = .loading →
     (∀ file : ImageFile, ∃ t, exec (.imageFetchDone file) s = .next t ∧ t.image.st = .verifying ∧
       t.image.file = some { file with raw := file.raw.take (s.regN Reg.LAST_LEN) } ∧
       t.regN Reg.LAST_PROGRESS = s.regN Reg.LAST_LEN) ∧
     (∀ n, n < 2 ^ 64 → ∃ t, exec (.imageFetchDmaError n) s = .next t ∧ t.image.st = .empty ∧
       t.fld Reg.LAST_STATE 15 8 = 0x12 ∧ t.regN Reg.LAST_ERR_OFFSET = n)) ∧
  (∀ (s : State) (f : ImageFile), s.inv → s.image.st = .verifying → s.image.file = some f → s.image.rechecking = none →
     ∃ t, exec .imageChecksDone s = .next t ∧
       match s.imageCheck f with
       | some e => t.image.st = .empty ∧ t.fld Reg.LAST_STATE 15 8 = e.code % 256 ∧ t.fld Reg.LAST_STATE 23 16 = e.step % 256
       | none => t.image.st = .loaded ∧ t.image.file = some f ∧ t.bit Reg.LAST_EVENT 0 = true) ∧
  (∀ (op : DrainOp) (s : State), s.inv → s.enginesOk → op.wf = true → s.upd.waiting = [] → (∀ c, s.veWaiting c = []) →
     ∃ t, exec (.tileDrain op) s = .next t ∧ (∀ i, i < 8192 → t.sourceWord op.source i = 0) ∧
       match op.dest with
       | .stage staging runAhead =>
         let seg := op.tile / (s.entryOf op.tensor).segTiles
         (t.staged op.tensor seg).tiles = (s.staged op.tensor seg).tiles + 1 ∧ (t.staged op.tensor seg).staging = staging ∧
           (t.staged op.tensor seg).runAhead = runAhead
       | .scratchpad c _ ready =>
         storeGet 0 t.ve.ready (c.val * 64 + ready.val) = storeGet 0 s.ve.ready (c.val * 64 + ready.val) + 1
       | .encoder plot first => ∀ j, j < 256 → first + j ∈ (t.plot plot).landed) ∧
  (∀ (op : ConvOp) (s : State) (x : SegCtx), s.inv →
     storeWf emptyStaged s.seg.staged = true → storeWf 0 s.seg.rungs = true → storeWf {} s.stl.plots = true →
     s.segCtx op = some x → s.segComplete op = true → s.mayGo op = true → s.seg.waiting = [] → op.instEnd = false →
     let r0 := (s.firstJob op op.cycle op.remaining).rung
     segCross x.lim (elemCount x.ext) (s.blockCounts x (s.convertAt x r0)) = false →
     ∃ t, exec (.segmentConversionDone [op]) s = .next t ∧ t.staged op.tensor op.segment = emptyStaged ∧
       t.rungOf op.tensor op.segment = r0 ∧ (t.layer op.layerInst).count = (s.layer op.layerInst).count + elemCount x.ext) ∧
  (∀ (op : BlockArrival) (s : State) (g : GReduction) (x : RingShare), s.inv →
     let k := s.taken op.plot op.port
     66 * (k + 1) ≤ (s.linkEnd op.plot op.port true).frames * 5120 → s.gReduction op.plot = some g →
     s.shareIn g op.port = some x → k < x.received.length → s.blockFailure (s.streamBlock op.plot op.port k) = none →
     ∃ t, exec (.cloisterBlockArrival op) s = .next t ∧ t.taken op.plot op.port = k + 1 ∧
       t.ringPlace g.plot (x.received.getD k 0) = k + 1) ∧
  (∀ (op : BlockAdd) (s : State) (g : GReduction) (x : RingShare), s.inv → storeWf 0 s.clo.ops = true → op.wf = true →
     s.gReduction op.plot = some g → s.shareOf g op.seq = some x → s.operandsThere op = true → s.localFailure op = none →
     2 ≤ (s.addOperands op x).length → (addTry s.digestMode (s.addOperands op x) op.first).failed = none →
     ∃ t, exec (.blockAddition op) s = .next t ∧ t.regN Reg.CLO_ADDS = min (s.regN Reg.CLO_ADDS + 1) (2 ^ 64 - 1) ∧
       (op.ring = true → t.ringPlace op.plot op.seq = 0)) ∧
  (∀ (red : SReduce) (s : State) (x : Topo), s.inv → s.topo? = some x → red.use = .plain → s.sumOpen red = true →
     (∀ slack p port, s.ownVector red ≠ [] → s.kidMissing x red.plot = false → (s.sred red.plot).sent = false →
       x.treeParent = some p → s.portOf p = some port →
       ∃ t, exec (.classSCombine red false slack) s = .next t ∧ (t.sred red.plot).sent = true ∧
         (t.tx red.plot port).vecs = (s.tx red.plot port).vecs ++
           [vecBytes s.digestMode ⟨s.nodeVector x red, (s.kidParts x red.plot).any fun k => k.2.incomplete⟩]) ∧
     (∀ slack, s.ownVector red ≠ [] → s.kidMissing x red.plot = false → (s.sred red.plot).sent = false →
       x.treeParent = none → (s.kidParts x red.plot).any (fun k => k.2.incomplete) = false →
       ∃ t, exec (.classSCombine red false slack) s = .next t ∧ (t.sred red.plot).result = some (s.nodeVector x red) ∧
         t.regN Reg.CLO_S_DONE = min (s.regN Reg.CLO_S_DONE + 1) (2 ^ 32 - 1)) ∧
     (∀ slack w, s.parentVec x red.plot = some w → w.incomplete = false →
       ∃ t, exec (.classSResult red slack) s = .next t ∧ (t.sred red.plot).result = some w.data ∧
         t.regN Reg.CLO_S_DONE = min (s.regN Reg.CLO_S_DONE + 1) (2 ^ 32 - 1)) ∧
     (∃ t, exec (.classSDeadline red) s = .next t ∧
       (t.sred red.plot).result = some (List.replicate red.count (sSubstitute red.op)) ∧
       t.regN Reg.CLO_S_LATE = min (s.regN Reg.CLO_S_LATE + 1) (2 ^ 32 - 1)))
end

