-- ==== Sys2Proof/Laws/Store.lean ====
section
/-! SUPPORT. Sparse stores: what a read after a write gives, and that every operation keeps the canonical form. -/

namespace Sys2Proof.Machine

variable {α : Type} [DecidableEq α]

/-! ## Reading after writing -/

theorem storeGet_storeSet_ne (d : α) (m : List (Nat × α)) (k j : Nat) (v : α) (h : j ≠ k) :
    storeGet d (storeSet d m k v) j = storeGet d m j := by
  induction m with
  | nil => unfold storeSet; split <;> simp [storeGet, h]
  | cons e m ih =>
    obtain ⟨k', v'⟩ := e
    unfold storeSet
    split
    · split <;> simp [storeGet, h]
    · split
      · rename_i hk
        split <;> simp [storeGet, h, ← hk]
      · simp [storeGet, ih]

theorem storeFrom_mono (d : α) (m : List (Nat × α)) (a b : Nat) (h : a ≤ b) (hw : storeFrom d b m = true) :
    storeFrom d a m = true := by
  cases m with
  | nil => rfl
  | cons e m =>
    simp only [storeFrom, Bool.and_eq_true, decide_eq_true_eq] at hw ⊢
    exact ⟨⟨Nat.le_trans h hw.1.1, hw.1.2⟩, hw.2⟩

theorem storeGet_below (d : α) (m : List (Nat × α)) (lo k : Nat) (hw : storeFrom d lo m = true) (h : k < lo) :
    storeGet d m k = d := by
  induction m generalizing lo with
  | nil => rfl
  | cons e m ih =>
    simp only [storeFrom, Bool.and_eq_true, decide_eq_true_eq] at hw
    unfold storeGet
    rw [if_neg (by omega)]
    exact ih (e.1 + 1) hw.2 (by omega)

theorem storeGet_storeSet_same (d : α) (m : List (Nat × α)) (k : Nat) (v : α) (hw : storeWf d m = true) :
    storeGet d (storeSet d m k v) k = v := by
  unfold storeWf at hw
  revert hw
  generalize 0 = lo
  intro hw
  induction m generalizing lo with
  | nil => unfold storeSet; split <;> simp_all [storeGet]
  | cons e m ih =>
    simp only [storeFrom, Bool.and_eq_true, decide_eq_true_eq] at hw
    unfold storeSet
    split
    · split
      · rename_i hv
        unfold storeGet
        rw [if_neg (by omega), storeGet_below d m (e.1 + 1) k hw.2 (by omega), hv]
      · simp [storeGet]
    · split
      · split
        · rename_i hk hv
          rw [storeGet_below d m (e.1 + 1) k hw.2 (by omega), hv]
        · simp [storeGet]
      · unfold storeGet
        rw [if_neg (by assumption)]
        exact ih (e.1 + 1) hw.2

/-- In any list, a value that is not the unlisted one is read back. -/
theorem storeGet_storeSet_new (d : α) (m : List (Nat × α)) (k : Nat) (v : α) (h : v ≠ d) :
    storeGet d (storeSet d m k v) k = v := by
  induction m with
  | nil => unfold storeSet; simp [h, storeGet]
  | cons e m ih =>
    unfold storeSet
    split
    · simp [storeGet]
    · split
      · simp [storeGet]
      · unfold storeGet; rw [if_neg (by assumption)]; exact ih

theorem storeGet_storeSetMany_below (d : α) (vs : List α) (m : List (Nat × α)) (k j : Nat) (h : j < k) :
    storeGet d (storeSetMany d m k vs) j = storeGet d m j := by
  induction vs generalizing m k with
  | nil => rfl
  | cons v vs ih =>
    unfold storeSetMany
    rw [ih _ (k + 1) (by omega), storeGet_storeSet_ne d m k j v (by omega)]

theorem storeGet_storeSetMany_above (d : α) (vs : List α) (m : List (Nat × α)) (k j : Nat) (h : k + vs.length ≤ j) :
    storeGet d (storeSetMany d m k vs) j = storeGet d m j := by
  induction vs generalizing m k with
  | nil => rfl
  | cons v vs ih =>
    unfold storeSetMany
    simp only [List.length_cons] at h
    rw [ih _ (k + 1) (by omega), storeGet_storeSet_ne d m k j v (by omega)]

omit [DecidableEq α] in
/-- Dropping numbers changes no other number's value. -/
theorem storeGet_storeDrop (d : α) (m : List (Nat × α)) (p : Nat → Bool) (k : Nat) :
    storeGet d (storeDrop m p) k = if p k then d else storeGet d m k := by
  induction m with
  | nil => simp [storeDrop, storeGet]
  | cons e m ih =>
    unfold storeDrop at ih ⊢
    by_cases hp : p e.1 = true
    · simp only [List.filter_cons, hp, Bool.not_true, Bool.false_eq_true, if_false]
      rw [ih]
      by_cases hk : k = e.1
      · simp [hk, hp]
      · simp [storeGet, hk]
    · simp only [List.filter_cons, hp, Bool.not_false, if_true]
      unfold storeGet
      by_cases hk : k = e.1
      · simp [hk, hp]
      · simp [hk, ih]

/-! ## The canonical form -/

theorem storeFrom_storeSet (d : α) (m : List (Nat × α)) (lo k : Nat) (v : α) (hw : storeFrom d lo m = true) (h : lo ≤ k) :
    storeFrom d lo (storeSet d m k v) = true := by
  induction m generalizing lo with
  | nil => unfold storeSet; split <;> simp_all [storeFrom]
  | cons e m ih =>
    have hw' := hw
    simp only [storeFrom, Bool.and_eq_true, decide_eq_true_eq] at hw'
    obtain ⟨⟨h1, h2⟩, h3⟩ := hw'
    unfold storeSet
    split
    · split
      · exact hw
      · simp only [storeFrom, Bool.and_eq_true, decide_eq_true_eq]
        exact ⟨⟨h, by assumption⟩, ⟨by omega, h2⟩, h3⟩
    · split
      · split
        · exact storeFrom_mono d m lo (e.1 + 1) (by omega) h3
        · simp only [storeFrom, Bool.and_eq_true, decide_eq_true_eq]
          exact ⟨⟨h, by assumption⟩, by simp_all⟩
      · simp only [storeFrom, Bool.and_eq_true, decide_eq_true_eq]
        exact ⟨⟨h1, h2⟩, ih (e.1 + 1) h3 (by omega)⟩

theorem storeWf_storeSet (d : α) (m : List (Nat × α)) (k : Nat) (v : α) (hw : storeWf d m = true) :
    storeWf d (storeSet d m k v) = true := storeFrom_storeSet d m 0 k v hw (Nat.zero_le k)

theorem storeWf_storeSetMany (d : α) (vs : List α) (m : List (Nat × α)) (k : Nat) (hw : storeWf d m = true) :
    storeWf d (storeSetMany d m k vs) = true := by
  induction vs generalizing m k with
  | nil => exact hw
  | cons v vs ih => exact ih _ (k + 1) (storeWf_storeSet d m k v hw)

theorem storeFrom_filter (d : α) (m : List (Nat × α)) (lo : Nat) (q : Nat × α → Bool) (hw : storeFrom d lo m = true) :
    storeFrom d lo (m.filter q) = true := by
  induction m generalizing lo with
  | nil => rfl
  | cons e m ih =>
    simp only [storeFrom, Bool.and_eq_true, decide_eq_true_eq] at hw
    rw [List.filter_cons]
    split
    · simp only [storeFrom, Bool.and_eq_true, decide_eq_true_eq]
      exact ⟨hw.1, ih (e.1 + 1) hw.2⟩
    · exact ih lo (storeFrom_mono d m lo (e.1 + 1) (by omega) hw.2)

theorem storeWf_storeDrop (d : α) (m : List (Nat × α)) (p : Nat → Bool) (hw : storeWf d m = true) :
    storeWf d (storeDrop m p) = true := storeFrom_filter d m 0 (fun e => !p e.1) hw

/-- Two canonical stores in a row, every number of the first below `b`, every number of the second at or above it. -/
theorem storeFrom_append (d : α) (m n : List (Nat × α)) (lo b : Nat) (hm : storeFrom d lo m = true)
    (hn : storeFrom d b n = true) (hlo : lo ≤ b) (h : ∀ e ∈ m, e.1 < b) : storeFrom d lo (m ++ n) = true := by
  induction m generalizing lo with
  | nil => exact storeFrom_mono d n lo b hlo hn
  | cons e m ih =>
    simp only [storeFrom, Bool.and_eq_true, decide_eq_true_eq, List.cons_append] at hm ⊢
    exact ⟨hm.1, ih (e.1 + 1) hm.2 (h e (by simp)) (fun x hx => h x (by simp [hx]))⟩

/-- A canonical store of which every number is at least `b` is canonical from `b` on. -/
theorem storeFrom_raise (d : α) (m : List (Nat × α)) (lo b : Nat) (hm : storeFrom d lo m = true)
    (h : ∀ e ∈ m, b ≤ e.1) : storeFrom d b m = true := by
  cases m with
  | nil => rfl
  | cons e m =>
    simp only [storeFrom, Bool.and_eq_true, decide_eq_true_eq] at hm ⊢
    exact ⟨⟨h e (by simp), hm.1.2⟩, hm.2⟩

end Sys2Proof.Machine
end

