-- ==== Sys2Proof/Laws/Evolves.lean ====
section
/-! SUPPORT. One relation that says what an operation may do: which parts of the state it may change, and that it keeps
the canonical forms, the queue, what has been sent, the wear counts and the ledger. Every operation has one such law. -/

namespace Sys2Proof.Machine

/-- `t` comes from `s` by operations that change only the parts in `P`. -/
structure Evolves (P : List Part) (s t : State) : Prop where
  keep : ∀ p, p ∉ P → s.agree t p
  mem : Memory.wf s.mem = true → Memory.wf t.mem = true
  regs : storeWf 0 s.regs = true → storeWf 0 t.regs = true
  out : s.out <+: t.out
  wear : ∀ i, s.wear i ≤ t.wear i
  ledger : s.hlt.grows t.hlt

theorem Ledger.grows_refl (a : Ledger) : a.grows a := ⟨Nat.le_refl _, Nat.le_refl _, fun _ _ => rfl⟩

theorem Ledger.grows_trans {a b c : Ledger} (h : a.grows b) (g : b.grows c) : a.grows c :=
  ⟨Nat.le_trans h.1 g.1, Nat.le_trans h.2.1 g.2.1, fun k hk =>
    (g.2.2 k (Nat.lt_of_lt_of_le hk h.1)).trans (h.2.2 k hk)⟩

theorem State.agree_refl (s : State) (p : Part) : s.agree s p := by cases p <;> rfl

theorem State.agree_trans {s t u : State} {p : Part} (h : s.agree t p) (g : t.agree u p) : s.agree u p := by
  cases p <;> exact Eq.trans g h

/-- Nothing changes. -/
theorem Evolves.refl {P : List Part} (s : State) : Evolves P s s :=
  ⟨fun p _ => s.agree_refl p, id, id, List.prefix_refl _, fun _ => Nat.le_refl _, Ledger.grows_refl _⟩

/-- One operation after another; the second changes parts among those of the first. -/
theorem Evolves.step {P Q : List Part} {s t u : State} (h : Evolves Q s t) (g : Evolves P t u)
    (hp : (P.all fun p => Q.contains p) = true) : Evolves Q s u := by
  refine ⟨fun p hq => State.agree_trans (h.keep p hq) (g.keep p fun hP => hq ?_), g.mem ∘ h.mem, g.regs ∘ h.regs,
    h.out.trans g.out, fun i => (h.wear i).trans (g.wear i), Ledger.grows_trans h.ledger g.ledger⟩
  have := List.all_eq_true.mp hp p hP
  simpa using this

/-- More parts may be named. -/
theorem Evolves.widen {P Q : List Part} {s t : State} (g : Evolves P s t)
    (hp : (P.all fun p => Q.contains p) = true) : Evolves Q s t := (Evolves.refl s).step g hp

/-- Every part of a list is in that list. -/
theorem Evolves.covers_self (P : List Part) : (P.all fun p => P.contains p) = true := by simp

/-- What a list of operations does, if each does no more than `P`. -/
theorem Evolves.foldl {α : Type} {P : List Part} {f : State → α → State} (h : ∀ s a, Evolves P s (f s a)) (l : List α)
    (s : State) : Evolves P s (l.foldl f s) := by
  induction l generalizing s with
  | nil => exact Evolves.refl s
  | cons a l ih => exact (h s a).step (ih _) (by simp)

/-- One of two operations. -/
theorem Evolves.ite {P : List Part} {s t u : State} (c : Prop) [Decidable c] (h : Evolves P s t) (g : Evolves P s u) :
    Evolves P s (if c then t else u) := by split <;> assumption

/-- A part may be changed, or is the same. -/
def Evolves.part {α : Type} (P : List Part) (p : Part) (a b : α) : Prop := P.contains p = true ∨ a = b

theorem Evolves.part_in {α : Type} {P : List Part} {p : Part} {a b : α} (h : P.contains p = true) :
    Evolves.part P p a b := Or.inl h

theorem Evolves.part_same {α : Type} {P : List Part} {p : Part} {a : α} : Evolves.part P p a a := Or.inr rfl

/-- An update of parts that hold neither memory, registers, the queue, the output, nor the two logs. -/
theorem Evolves.update {P : List Part} {s t : State} (h : Evolves P s t)
    {free heldOut boot image tick adm seg me ve stl hbm upd clo trl pyu pwr ldg host sec sbk hlt bel}
    (h_free : Evolves.part P .free free t.free)
    (h_heldOut : Evolves.part P .heldOut heldOut t.heldOut)
    (h_boot : Evolves.part P .boot boot t.boot)
    (h_image : Evolves.part P .image image t.image)
    (h_tick : Evolves.part P .tick tick t.tick)
    (h_adm : Evolves.part P .adm adm t.adm)
    (h_seg : Evolves.part P .seg seg t.seg)
    (h_me : Evolves.part P .me me t.me)
    (h_ve : Evolves.part P .ve ve t.ve)
    (h_stl : Evolves.part P .stl stl t.stl)
    (h_hbm : Evolves.part P .hbm hbm t.hbm)
    (h_upd : Evolves.part P .upd upd t.upd)
    (h_clo : Evolves.part P .clo clo t.clo)
    (h_trl : Evolves.part P .trl trl t.trl)
    (h_pyu : Evolves.part P .pyu pyu t.pyu)
    (h_pwr : Evolves.part P .pwr pwr t.pwr)
    (h_ldg : Evolves.part P .ldg ldg t.ldg)
    (h_host : Evolves.part P .host host t.host)
    (h_sec : Evolves.part P .sec sec t.sec)
    (h_sbk : Evolves.part P .sbk sbk t.sbk)
    (h_hlt : Evolves.part P .hlt hlt t.hlt)
    (h_bel : Evolves.part P .bel bel t.bel)
    (hs : sbk.wear = t.sbk.wear) (hl : hlt.bytes = t.hlt.bytes ∧ hlt.tail = t.hlt.tail ∧ hlt.records = t.hlt.records) :
    Evolves P s ⟨t.pending, t.regs, t.mem, free, t.out, heldOut, boot, image, tick, adm, seg, me, ve, stl, hbm, upd, clo, trl,
      pyu, pwr, ldg, host, sec, sbk, hlt, bel⟩ := by
  refine h.step (P := P) ⟨?_, id, id, List.prefix_refl _, ?_, ?_⟩ (by simp)
  · intro p hp
    cases p
    · rfl
    · rfl
    · rfl
    · exact h_free.resolve_left (by simpa using hp)
    · rfl
    · exact h_heldOut.resolve_left (by simpa using hp)
    · exact h_boot.resolve_left (by simpa using hp)
    · exact h_image.resolve_left (by simpa using hp)
    · exact h_tick.resolve_left (by simpa using hp)
    · exact h_adm.resolve_left (by simpa using hp)
    · exact h_seg.resolve_left (by simpa using hp)
    · exact h_me.resolve_left (by simpa using hp)
    · exact h_ve.resolve_left (by simpa using hp)
    · exact h_stl.resolve_left (by simpa using hp)
    · exact h_hbm.resolve_left (by simpa using hp)
    · exact h_upd.resolve_left (by simpa using hp)
    · exact h_clo.resolve_left (by simpa using hp)
    · exact h_trl.resolve_left (by simpa using hp)
    · exact h_pyu.resolve_left (by simpa using hp)
    · exact h_pwr.resolve_left (by simpa using hp)
    · exact h_ldg.resolve_left (by simpa using hp)
    · exact h_host.resolve_left (by simpa using hp)
    · exact h_sec.resolve_left (by simpa using hp)
    · exact h_sbk.resolve_left (by simpa using hp)
    · exact h_hlt.resolve_left (by simpa using hp)
    · exact h_bel.resolve_left (by simpa using hp)
  · intro i; unfold State.wear; simp only [hs]; exact Nat.le_refl _
  · exact ⟨Nat.le_of_eq hl.2.1.symm, Nat.le_of_eq hl.2.2.symm, fun k _ => by rw [hl.1]⟩

end Sys2Proof.Machine
end

