-- ==== Sys2Proof/Laws/Shared.lean ====
section
/-! SUPPORT. What each operation may do to the state (Laws/Evolves.lean): the operations that every family of commands uses: registers, events, messages, trace, ledger, memory, power states, tests. -/

namespace Sys2Proof.Machine

/-! ## Flags -/

theorem State.setReg_evolves (s : State) (o) (v) : Evolves [.regs] s (State.setReg s o v) := by
  refine ⟨?_, id, fun h => storeWf_storeSet 0 s.regs o v h, List.prefix_refl _, fun _ => Nat.le_refl _,
      Ledger.grows_refl _⟩
  intro p hp
  cases p <;> first | rfl | exact absurd (by decide) hp

theorem State.setRegN_evolves (s : State) (o) (v) :
    Evolves [.regs] s (State.setRegN s o v) := by
  unfold State.setRegN
  repeat' first
    | with_reducible apply Evolves.refl
    | with_reducible apply Evolves.step (g := State.setReg_evolves _ _ _)
    | with_reducible apply Evolves.part_same
    | ((with_reducible apply Evolves.part_in); rfl)
    | with_reducible exact And.intro rfl (And.intro rfl rfl)
    | (show _ = _; rfl)
    | with_reducible apply Evolves.ite
    | dsimp only
    | split
    | with_reducible apply Evolves.update

theorem State.setFld_evolves (s : State) (o) (hi) (lo) (x) :
    Evolves [.regs] s (State.setFld s o hi lo x) := by
  unfold State.setFld
  repeat' first
    | with_reducible apply Evolves.refl
    | with_reducible apply Evolves.step (g := State.setRegN_evolves _ _ _)
    | with_reducible apply Evolves.part_same
    | ((with_reducible apply Evolves.part_in); rfl)
    | with_reducible exact And.intro rfl (And.intro rfl rfl)
    | (show _ = _; rfl)
    | with_reducible apply Evolves.ite
    | dsimp only
    | split
    | with_reducible apply Evolves.update

theorem State.setBit_evolves (s : State) (o) (i) (b) :
    Evolves [.regs] s (State.setBit s o i b) := by
  unfold State.setBit
  repeat' first
    | with_reducible apply Evolves.refl
    | with_reducible apply Evolves.step (g := State.setFld_evolves _ _ _ _ _)
    | with_reducible apply Evolves.part_same
    | ((with_reducible apply Evolves.part_in); rfl)
    | with_reducible exact And.intro rfl (And.intro rfl rfl)
    | (show _ = _; rfl)
    | with_reducible apply Evolves.ite
    | dsimp only
    | split
    | with_reducible apply Evolves.update

theorem State.orReg_evolves (s : State) (o) (m) :
    Evolves [.regs] s (State.orReg s o m) := by
  unfold State.orReg
  repeat' first
    | with_reducible apply Evolves.refl
    | with_reducible apply Evolves.step (g := State.setReg_evolves _ _ _)
    | with_reducible apply Evolves.part_same
    | ((with_reducible apply Evolves.part_in); rfl)
    | with_reducible exact And.intro rfl (And.intro rfl rfl)
    | (show _ = _; rfl)
    | with_reducible apply Evolves.ite
    | dsimp only
    | split
    | with_reducible apply Evolves.update

theorem State.clearReg_evolves (s : State) (o) (m) :
    Evolves [.regs] s (State.clearReg s o m) := by
  unfold State.clearReg
  repeat' first
    | with_reducible apply Evolves.refl
    | with_reducible apply Evolves.step (g := State.setReg_evolves _ _ _)
    | with_reducible apply Evolves.part_same
    | ((with_reducible apply Evolves.part_in); rfl)
    | with_reducible exact And.intro rfl (And.intro rfl rfl)
    | (show _ = _; rfl)
    | with_reducible apply Evolves.ite
    | dsimp only
    | split
    | with_reducible apply Evolves.update

theorem State.count_evolves (s : State) (o) (w) (n) :
    Evolves [.regs] s (State.count s o w n) := by
  unfold State.count
  repeat' first
    | with_reducible apply Evolves.refl
    | with_reducible apply Evolves.step (g := State.setRegN_evolves _ _ _)
    | with_reducible apply Evolves.part_same
    | ((with_reducible apply Evolves.part_in); rfl)
    | with_reducible exact And.intro rfl (And.intro rfl rfl)
    | (show _ = _; rfl)
    | with_reducible apply Evolves.ite
    | dsimp only
    | split
    | with_reducible apply Evolves.update

theorem State.maxReg_evolves (s : State) (o) (v) :
    Evolves [.regs] s (State.maxReg s o v) := by
  unfold State.maxReg
  repeat' first
    | with_reducible apply Evolves.refl
    | with_reducible apply Evolves.step (g := State.setRegN_evolves _ _ _)
    | with_reducible apply Evolves.part_same
    | ((with_reducible apply Evolves.part_in); rfl)
    | with_reducible exact And.intro rfl (And.intro rfl rfl)
    | (show _ = _; rfl)
    | with_reducible apply Evolves.ite
    | dsimp only
    | split
    | with_reducible apply Evolves.update

theorem State.minReg_evolves (s : State) (o) (v) :
    Evolves [.regs] s (State.minReg s o v) := by
  unfold State.minReg
  repeat' first
    | with_reducible apply Evolves.refl
    | with_reducible apply Evolves.step (g := State.setRegN_evolves _ _ _)
    | with_reducible apply Evolves.part_same
    | ((with_reducible apply Evolves.part_in); rfl)
    | with_reducible exact And.intro rfl (And.intro rfl rfl)
    | (show _ = _; rfl)
    | with_reducible apply Evolves.ite
    | dsimp only
    | split
    | with_reducible apply Evolves.update

theorem State.zeroRegs_evolves (s : State) (x1) :
    Evolves [.regs] s (State.zeroRegs s x1) := by
  fun_induction State.zeroRegs s x1
  all_goals repeat' first
    | with_reducible apply Evolves.refl
    | with_reducible assumption
    | with_reducible apply Evolves.step (g := State.setReg_evolves _ _ _)
    | with_reducible apply Evolves.step (g := by assumption)
    | with_reducible apply Evolves.part_same
    | ((with_reducible apply Evolves.part_in); rfl)
    | with_reducible exact And.intro rfl (And.intro rfl rfl)
    | (show _ = _; rfl)
    | with_reducible apply Evolves.ite
    | dsimp only
    | split
    | with_reducible apply Evolves.update

theorem State.zeroBanks_evolves (s : State) (offs) : Evolves [.regs] s (State.zeroBanks s offs) := by
  refine ⟨?_, id, fun h => storeWf_storeDrop 0 s.regs (fun k => offs.contains (k % 67108864)) h, List.prefix_refl _,
    fun _ => Nat.le_refl _, Ledger.grows_refl _⟩
  intro p hp
  cases p <;> first | rfl | exact absurd (by decide) hp

theorem State.sameCycle_evolves (s : State) (x1) :
    Evolves [.regs] s (State.sameCycle s x1) := by
  fun_induction State.sameCycle s x1
  all_goals repeat' first
    | with_reducible apply Evolves.refl
    | with_reducible assumption
    | with_reducible apply Evolves.step (g := State.setRegN_evolves _ _ _)
    | with_reducible apply Evolves.step (g := by assumption)
    | with_reducible apply Evolves.part_same
    | ((with_reducible apply Evolves.part_in); rfl)
    | with_reducible exact And.intro rfl (And.intro rfl rfl)
    | (show _ = _; rfl)
    | with_reducible apply Evolves.ite
    | dsimp only
    | split
    | with_reducible apply Evolves.update

theorem State.used_evolves (s : State) :
    Evolves [.free] s (State.used s) := by
  unfold State.used
  repeat' first
    | with_reducible apply Evolves.refl
    | with_reducible apply Evolves.part_same
    | ((with_reducible apply Evolves.part_in); rfl)
    | with_reducible exact And.intro rfl (And.intro rfl rfl)
    | (show _ = _; rfl)
    | with_reducible apply Evolves.ite
    | dsimp only
    | split
    | with_reducible apply Evolves.update

theorem State.send_evolves (s : State) (x) : Evolves [.out] s (State.send s x) := by
  refine ⟨?_, id, id, List.prefix_append _ _, fun _ => Nat.le_refl _, Ledger.grows_refl _⟩
  intro p hp
  cases p <;> first | rfl | exact absurd (by decide) hp

theorem State.toHost_evolves (s : State) (x) :
    Evolves [.out, .heldOut] s (State.toHost s x) := by
  unfold State.toHost
  repeat' first
    | with_reducible apply Evolves.refl
    | with_reducible apply Evolves.step (g := State.send_evolves _ _)
    | with_reducible apply Evolves.part_same
    | ((with_reducible apply Evolves.part_in); rfl)
    | with_reducible exact And.intro rfl (And.intro rfl rfl)
    | (show _ = _; rfl)
    | with_reducible apply Evolves.ite
    | dsimp only
    | split
    | with_reducible apply Evolves.update

theorem State.setVec_evolves (s : State) (v) (x) :
    Evolves [.host] s (State.setVec s v x) := by
  unfold State.setVec
  repeat' first
    | with_reducible apply Evolves.refl
    | with_reducible apply Evolves.part_same
    | ((with_reducible apply Evolves.part_in); rfl)
    | with_reducible exact And.intro rfl (And.intro rfl rfl)
    | (show _ = _; rfl)
    | with_reducible apply Evolves.ite
    | dsimp only
    | split
    | with_reducible apply Evolves.update

theorem State.fire_evolves (s : State) (v) :
    Evolves [.out, .heldOut, .host] s (State.fire s v) := by
  unfold State.fire
  repeat' first
    | with_reducible apply Evolves.refl
    | with_reducible apply Evolves.step (g := State.toHost_evolves _ _)
    | with_reducible apply Evolves.step (g := State.setVec_evolves _ _ _)
    | with_reducible apply Evolves.part_same
    | ((with_reducible apply Evolves.part_in); rfl)
    | with_reducible exact And.intro rfl (And.intro rfl rfl)
    | (show _ = _; rfl)
    | with_reducible apply Evolves.ite
    | dsimp only
    | split
    | with_reducible apply Evolves.update

theorem State.signal_evolves (s : State) (v) :
    Evolves [.out, .heldOut, .host] s (State.signal s v) := by
  unfold State.signal
  repeat' first
    | with_reducible apply Evolves.refl
    | with_reducible apply Evolves.step (g := State.setVec_evolves _ _ _)
    | with_reducible apply Evolves.step (g := State.fire_evolves _ _)
    | with_reducible apply Evolves.part_same
    | ((with_reducible apply Evolves.part_in); rfl)
    | with_reducible exact And.intro rfl (And.intro rfl rfl)
    | (show _ = _; rfl)
    | with_reducible apply Evolves.ite
    | dsimp only
    | split
    | with_reducible apply Evolves.update

theorem State.event_evolves (s : State) (o) (i) :
    Evolves [.regs, .out, .heldOut, .host] s (State.event s o i) := by
  unfold State.event
  repeat' first
    | with_reducible apply Evolves.refl
    | with_reducible apply Evolves.step (g := State.setBit_evolves _ _ _ _)
    | with_reducible apply Evolves.step (g := State.signal_evolves _ _)
    | with_reducible apply Evolves.part_same
    | ((with_reducible apply Evolves.part_in); rfl)
    | with_reducible exact And.intro rfl (And.intro rfl rfl)
    | (show _ = _; rfl)
    | with_reducible apply Evolves.ite
    | dsimp only
    | split
    | with_reducible apply Evolves.update

theorem State.bel64_evolves (s : State) (i) (n) :
    Evolves [.bel] s (State.bel64 s i n) := by
  unfold State.bel64
  repeat' first
    | with_reducible apply Evolves.refl
    | with_reducible apply Evolves.part_same
    | ((with_reducible apply Evolves.part_in); rfl)
    | with_reducible exact And.intro rfl (And.intro rfl rfl)
    | (show _ = _; rfl)
    | with_reducible apply Evolves.ite
    | dsimp only
    | split
    | with_reducible apply Evolves.update

theorem State.belBoth_evolves (s : State) (k) (n) :
    Evolves [.bel] s (State.belBoth s k n) := by
  unfold State.belBoth
  repeat' first
    | with_reducible apply Evolves.refl
    | with_reducible apply Evolves.step (g := State.bel64_evolves _ _ _)
    | with_reducible apply Evolves.part_same
    | ((with_reducible apply Evolves.part_in); rfl)
    | with_reducible exact And.intro rfl (And.intro rfl rfl)
    | (show _ = _; rfl)
    | with_reducible apply Evolves.ite
    | dsimp only
    | split
    | with_reducible apply Evolves.update

theorem State.live_evolves (s : State) (off) (n) :
    Evolves [.hlt] s (State.live s off n) := by
  unfold State.live
  repeat' first
    | with_reducible apply Evolves.refl
    | with_reducible apply Evolves.part_same
    | ((with_reducible apply Evolves.part_in); rfl)
    | with_reducible exact And.intro rfl (And.intro rfl rfl)
    | (show _ = _; rfl)
    | with_reducible apply Evolves.ite
    | dsimp only
    | split
    | with_reducible apply Evolves.update

theorem State.liveScaled_evolves (s : State) (off) (n) (scale) :
    Evolves [.hlt] s (State.liveScaled s off n scale) := by
  unfold State.liveScaled
  repeat' first
    | with_reducible apply Evolves.refl
    | with_reducible apply Evolves.step (g := State.live_evolves _ _ _)
    | with_reducible apply Evolves.part_same
    | ((with_reducible apply Evolves.part_in); rfl)
    | with_reducible exact And.intro rfl (And.intro rfl rfl)
    | (show _ = _; rfl)
    | with_reducible apply Evolves.ite
    | dsimp only
    | split
    | with_reducible apply Evolves.update

theorem State.liveMax_evolves (s : State) (off) (v) :
    Evolves [.hlt] s (State.liveMax s off v) := by
  unfold State.liveMax
  repeat' first
    | with_reducible apply Evolves.refl
    | with_reducible apply Evolves.part_same
    | ((with_reducible apply Evolves.part_in); rfl)
    | with_reducible exact And.intro rfl (And.intro rfl rfl)
    | (show _ = _; rfl)
    | with_reducible apply Evolves.ite
    | dsimp only
    | split
    | with_reducible apply Evolves.update

theorem State.setRing_evolves (s : State) (d) (r) :
    Evolves [.bel] s (State.setRing s d r) := by
  unfold State.setRing
  repeat' first
    | with_reducible apply Evolves.refl
    | with_reducible apply Evolves.part_same
    | ((with_reducible apply Evolves.part_in); rfl)
    | with_reducible exact And.intro rfl (And.intro rfl rfl)
    | (show _ = _; rfl)
    | with_reducible apply Evolves.ite
    | dsimp only
    | split
    | with_reducible apply Evolves.update

theorem State.loseSrc_evolves (s : State) (d) :
    Evolves [.regs, .out, .heldOut, .host, .bel] s (State.loseSrc s d) := by
  unfold State.loseSrc
  repeat' first
    | with_reducible apply Evolves.refl
    | with_reducible apply Evolves.step (g := State.count_evolves _ _ _ _)
    | with_reducible apply Evolves.step (g := State.event_evolves _ _ _)
    | with_reducible apply Evolves.step (g := State.setRing_evolves _ _ _)
    | with_reducible apply Evolves.part_same
    | ((with_reducible apply Evolves.part_in); rfl)
    | with_reducible exact And.intro rfl (And.intro rfl rfl)
    | (show _ = _; rfl)
    | with_reducible apply Evolves.ite
    | dsimp only
    | split
    | with_reducible apply Evolves.update

theorem State.trace_evolves (s : State) (d) (code) (source) (payload) :
    Evolves [.regs, .free, .out, .heldOut, .host, .bel] s (State.trace s d code source payload) := by
  unfold State.trace
  repeat' first
    | with_reducible apply Evolves.refl
    | with_reducible apply Evolves.step (g := State.used_evolves _)
    | with_reducible apply Evolves.step (g := State.setRing_evolves _ _ _)
    | with_reducible apply Evolves.step (g := State.loseSrc_evolves _ _)
    | with_reducible apply Evolves.part_same
    | ((with_reducible apply Evolves.part_in); rfl)
    | with_reducible exact And.intro rfl (And.intro rfl rfl)
    | (show _ = _; rfl)
    | with_reducible apply Evolves.ite
    | dsimp only
    | split
    | with_reducible apply Evolves.update

theorem State.traceBoth_evolves (s : State) (code) (payload) :
    Evolves [.regs, .free, .out, .heldOut, .host, .bel] s (State.traceBoth s code payload) := by
  unfold State.traceBoth
  repeat' first
    | with_reducible apply Evolves.refl
    | with_reducible apply Evolves.step (g := State.trace_evolves _ _ _ _ _)
    | with_reducible apply Evolves.part_same
    | ((with_reducible apply Evolves.part_in); rfl)
    | with_reducible exact And.intro rfl (And.intro rfl rfl)
    | (show _ = _; rfl)
    | with_reducible apply Evolves.ite
    | dsimp only
    | split
    | with_reducible apply Evolves.update

/-! ## Ledger -/

theorem State.frozenHit_evolves (s : State) (i) :
    Evolves [.regs] s (State.frozenHit s i) := by
  unfold State.frozenHit
  repeat' first
    | with_reducible apply Evolves.refl
    | with_reducible apply Evolves.step (g := State.setFld_evolves _ _ _ _ _)
    | with_reducible apply Evolves.step (g := State.setBit_evolves _ _ _ _)
    | with_reducible apply Evolves.part_same
    | ((with_reducible apply Evolves.part_in); rfl)
    | with_reducible exact And.intro rfl (And.intro rfl rfl)
    | (show _ = _; rfl)
    | with_reducible apply Evolves.ite
    | dsimp only
    | split
    | with_reducible apply Evolves.update

theorem State.seedAccept_evolves (s : State) (i) (v) :
    Evolves [.regs, .out, .heldOut, .host, .sbk] s (State.seedAccept s i v) := by
  unfold State.seedAccept
  repeat' first
    | with_reducible apply Evolves.refl
    | with_reducible apply Evolves.step (g := State.event_evolves _ _ _)
    | with_reducible apply Evolves.step (g := State.frozenHit_evolves _ _)
    | with_reducible apply Evolves.part_same
    | ((with_reducible apply Evolves.part_in); rfl)
    | with_reducible exact And.intro rfl (And.intro rfl rfl)
    | (show _ = _; rfl)
    | with_reducible apply Evolves.ite
    | dsimp only
    | split
    | with_reducible apply Evolves.update

theorem State.seedGroup_evolves (s : State) (ws) :
    Evolves [.regs, .out, .heldOut, .host, .sbk] s (State.seedGroup s ws) := by
  unfold State.seedGroup
  repeat' first
    | with_reducible apply Evolves.refl
    | with_reducible apply Evolves.step (g := State.event_evolves _ _ _)
    | with_reducible apply Evolves.step (g := State.frozenHit_evolves _ _)
    | with_reducible apply Evolves.part_same
    | ((with_reducible apply Evolves.part_in); rfl)
    | with_reducible exact And.intro rfl (And.intro rfl rfl)
    | (show _ = _; rfl)
    | with_reducible apply Evolves.ite
    | dsimp only
    | split
    | with_reducible apply Evolves.update

theorem State.ledgerLost_evolves (s : State) :
    Evolves [.regs] s (State.ledgerLost s) := by
  unfold State.ledgerLost
  repeat' first
    | with_reducible apply Evolves.refl
    | with_reducible apply Evolves.step (g := State.count_evolves _ _ _ _)
    | with_reducible apply Evolves.part_same
    | ((with_reducible apply Evolves.part_in); rfl)
    | with_reducible exact And.intro rfl (And.intro rfl rfl)
    | (show _ = _; rfl)
    | with_reducible apply Evolves.ite
    | dsimp only
    | split
    | with_reducible apply Evolves.update

/-- A record written at HLT_TAIL, before its events. -/
theorem Evolves.ledgerTail {P : List Part} {s t : State} (h : Evolves P s t) (hp : P.contains .hlt = true) (l : Ledger)
    (bs : List Byte) (n : Nat) (hb : l.bytes = storeSetMany 0 t.hlt.bytes t.hlt.tail bs) (ht : l.tail = t.hlt.tail + n)
    (hr : l.records = t.hlt.records + 1) : Evolves P s { t with hlt := l } := by
  refine h.step (P := [.hlt]) ⟨?_, id, id, List.prefix_refl _, fun _ => Nat.le_refl _, ?_⟩ (by simpa using hp)
  · intro p hq
    cases p <;> first | rfl | exact absurd (by decide) hq
  · refine ⟨by simp only [ht]; omega, by simp only [hr]; omega, fun k hk => ?_⟩
    simp only [hb]
    exact storeGet_storeSetMany_below 0 bs t.hlt.bytes t.hlt.tail k hk

/-- An event that a condition sets. -/
theorem Evolves.eventIf {P : List Part} {s t : State} (h : Evolves P s t) (c : Prop) [Decidable c] (o i : Nat)
    (hp : (([.regs, .out, .heldOut, .host] : List Part).all fun p => P.contains p) = true) :
    Evolves P s (if c then t.event o i else t) := by
  split
  · exact h.step (t.event_evolves o i) hp
  · exact h

theorem State.ledgerWrite_evolves (s : State) (ty) (cls) (len) (body) :
    Evolves [.regs, .out, .heldOut, .host, .hlt] s (State.ledgerWrite s ty cls len body) := by
  unfold State.ledgerWrite
  dsimp only
  refine Evolves.eventIf (Evolves.eventIf (Evolves.eventIf ?_ _ _ _ rfl) _ _ _ rfl) _ _ _ rfl
  refine Evolves.ledgerTail (Evolves.refl s) rfl _ ?_ ?_ ?_ ?_ ?_
  rotate_left 2
  · with_reducible rfl
  · with_reducible rfl
  · with_reducible rfl

theorem State.ledgerAppend_evolves (s : State) (ty) (cls) (len) (body) :
    Evolves [.regs, .out, .heldOut, .host, .hlt] s (State.ledgerAppend s ty cls len body) := by
  unfold State.ledgerAppend
  repeat' first
    | with_reducible apply Evolves.refl
    | with_reducible apply Evolves.step (g := State.live_evolves _ _ _)
    | with_reducible apply Evolves.step (g := State.ledgerLost_evolves _)
    | with_reducible apply Evolves.step (g := State.ledgerWrite_evolves _ _ _ _ _)
    | with_reducible apply Evolves.part_same
    | ((with_reducible apply Evolves.part_in); rfl)
    | with_reducible exact And.intro rfl (And.intro rfl rfl)
    | (show _ = _; rfl)
    | with_reducible apply Evolves.ite
    | dsimp only
    | split
    | with_reducible apply Evolves.update

theorem State.ledgerEvent_evolves (s : State) (ty) (cls) (subject) (detail) (data) :
    Evolves [.regs, .out, .heldOut, .host, .hlt] s (State.ledgerEvent s ty cls subject detail data) := by
  unfold State.ledgerEvent
  repeat' first
    | with_reducible apply Evolves.refl
    | with_reducible apply Evolves.step (g := State.ledgerAppend_evolves _ _ _ _ _)
    | with_reducible apply Evolves.part_same
    | ((with_reducible apply Evolves.part_in); rfl)
    | with_reducible exact And.intro rfl (And.intro rfl rfl)
    | (show _ = _; rfl)
    | with_reducible apply Evolves.ite
    | dsimp only
    | split
    | with_reducible apply Evolves.update

theorem State.ledgerFatal_evolves (s : State) (kind) (detail) :
    Evolves [.regs, .out, .heldOut, .host, .hlt] s (State.ledgerFatal s kind detail) := by
  unfold State.ledgerFatal
  repeat' first
    | with_reducible apply Evolves.refl
    | with_reducible apply Evolves.step (g := State.ledgerEvent_evolves _ _ _ _ _ _)
    | with_reducible apply Evolves.part_same
    | ((with_reducible apply Evolves.part_in); rfl)
    | with_reducible exact And.intro rfl (And.intro rfl rfl)
    | (show _ = _; rfl)
    | with_reducible apply Evolves.ite
    | dsimp only
    | split
    | with_reducible apply Evolves.update

theorem State.dropFrozen_evolves (s : State) (i) :
    Evolves [.regs, .sbk] s (State.dropFrozen s i) := by
  unfold State.dropFrozen
  repeat' first
    | with_reducible apply Evolves.refl
    | with_reducible apply Evolves.step (g := State.frozenHit_evolves _ _)
    | with_reducible apply Evolves.part_same
    | ((with_reducible apply Evolves.part_in); rfl)
    | with_reducible exact And.intro rfl (And.intro rfl rfl)
    | (show _ = _; rfl)
    | with_reducible apply Evolves.ite
    | dsimp only
    | split
    | with_reducible apply Evolves.update

/-- A write count that grows. -/
theorem Evolves.worn (s : State) (i : Nat) (vals : Words) : Evolves [.sbk] s
    { s with sbk := { s.sbk with vals := vals, wear := storeSet 0 s.sbk.wear i (s.wear i + 1) } } := by
  refine ⟨?_, id, id, List.prefix_refl _, fun j => ?_, Ledger.grows_refl _⟩
  · intro p hp
    cases p <;> first | rfl | exact absurd (by decide) hp
  · unfold State.wear
    by_cases h : j = i
    · subst h
      rw [storeGet_storeSet_new 0 s.sbk.wear j _ (by omega)]
      omega
    · rw [storeGet_storeSet_ne 0 s.sbk.wear i j _ h]

theorem State.persistOne_evolves (s : State) (i) (v) : Evolves [.regs, .out, .heldOut, .host, .sbk, .hlt]
    s (State.persistOne s i v) := by
  unfold State.persistOne
  repeat' first
    | with_reducible apply Evolves.step (g := State.dropFrozen_evolves _ _)
    | with_reducible apply Evolves.step (g := State.ledgerEvent_evolves _ _ _ _ _ _)
    | with_reducible apply Evolves.step (g := State.event_evolves _ _ _)
    | (show _ = _; rfl)
    | split
    | dsimp only
    | exact (Evolves.worn _ _ _).widen rfl

theorem State.persistAll_evolves (s : State) (x1) :
    Evolves [.regs, .out, .heldOut, .host, .sbk, .hlt] s (State.persistAll s x1) := by
  fun_induction State.persistAll s x1
  all_goals repeat' first
    | with_reducible apply Evolves.refl
    | with_reducible assumption
    | with_reducible apply Evolves.step (g := State.persistOne_evolves _ _ _)
    | with_reducible apply Evolves.step (g := by assumption)
    | with_reducible apply Evolves.part_same
    | ((with_reducible apply Evolves.part_in); rfl)
    | with_reducible exact And.intro rfl (And.intro rfl rfl)
    | (show _ = _; rfl)
    | with_reducible apply Evolves.ite
    | dsimp only
    | split
    | with_reducible apply Evolves.update

theorem State.capPersisted_evolves (s : State) :
    Evolves [.pwr] s (State.capPersisted s) := by
  unfold State.capPersisted
  repeat' first
    | with_reducible apply Evolves.refl
    | with_reducible apply Evolves.part_same
    | ((with_reducible apply Evolves.part_in); rfl)
    | with_reducible exact And.intro rfl (And.intro rfl rfl)
    | (show _ = _; rfl)
    | with_reducible apply Evolves.ite
    | dsimp only
    | split
    | with_reducible apply Evolves.update

theorem State.seedPersist_evolves (s : State) :
    Evolves [.regs, .out, .heldOut, .pwr, .host, .sbk, .hlt] s (State.seedPersist s) := by
  unfold State.seedPersist
  repeat' first
    | with_reducible apply Evolves.refl
    | with_reducible apply Evolves.step (g := State.persistAll_evolves _ _)
    | with_reducible apply Evolves.step (g := State.capPersisted_evolves _)
    | with_reducible apply Evolves.part_same
    | ((with_reducible apply Evolves.part_in); rfl)
    | with_reducible exact And.intro rfl (And.intro rfl rfl)
    | (show _ = _; rfl)
    | with_reducible apply Evolves.ite
    | dsimp only
    | split
    | with_reducible apply Evolves.update

theorem State.appendSummary_evolves (s : State) :
    Evolves [.regs, .out, .heldOut, .host, .hlt] s (State.appendSummary s) := by
  unfold State.appendSummary
  repeat' first
    | with_reducible apply Evolves.refl
    | with_reducible apply Evolves.step (g := State.ledgerAppend_evolves _ _ _ _ _)
    | with_reducible apply Evolves.part_same
    | ((with_reducible apply Evolves.part_in); rfl)
    | with_reducible exact And.intro rfl (And.intro rfl rfl)
    | (show _ = _; rfl)
    | with_reducible apply Evolves.ite
    | dsimp only
    | split
    | with_reducible apply Evolves.update

/-! ## Ops -/

theorem State.setWcb_evolves (s : State) (ch) (es) :
    Evolves [.hbm] s (State.setWcb s ch es) := by
  unfold State.setWcb
  repeat' first
    | with_reducible apply Evolves.refl
    | with_reducible apply Evolves.part_same
    | ((with_reducible apply Evolves.part_in); rfl)
    | with_reducible exact And.intro rfl (And.intro rfl rfl)
    | (show _ = _; rfl)
    | with_reducible apply Evolves.ite
    | dsimp only
    | split
    | with_reducible apply Evolves.update

theorem State.setWriteBacks_evolves (s : State) (ch) (q) :
    Evolves [.hbm] s (State.setWriteBacks s ch q) := by
  unfold State.setWriteBacks
  repeat' first
    | with_reducible apply Evolves.refl
    | with_reducible apply Evolves.part_same
    | ((with_reducible apply Evolves.part_in); rfl)
    | with_reducible exact And.intro rfl (And.intro rfl rfl)
    | (show _ = _; rfl)
    | with_reducible apply Evolves.ite
    | dsimp only
    | split
    | with_reducible apply Evolves.update

theorem State.putBytes_evolves (s : State) (k) (bs) : Evolves [.mem] s (State.putBytes s k bs) := by
  refine ⟨?_, fun h => storeWf_storeSetMany 0 bs s.mem k h, id, List.prefix_refl _, fun _ => Nat.le_refl _,
    Ledger.grows_refl _⟩
  intro p hp
  cases p <;> first | rfl | exact absurd (by decide) hp

theorem State.dropBad_evolves (s : State) (k) (n) :
    Evolves [.hbm] s (State.dropBad s k n) := by
  unfold State.dropBad
  repeat' first
    | with_reducible apply Evolves.refl
    | with_reducible apply Evolves.part_same
    | ((with_reducible apply Evolves.part_in); rfl)
    | with_reducible exact And.intro rfl (And.intro rfl rfl)
    | (show _ = _; rfl)
    | with_reducible apply Evolves.ite
    | dsimp only
    | split
    | with_reducible apply Evolves.update

theorem State.lineWrite_evolves (s : State) (ch) (line) (bs) :
    Evolves [.mem, .hbm] s (State.lineWrite s ch line bs) := by
  unfold State.lineWrite
  repeat' first
    | with_reducible apply Evolves.refl
    | with_reducible apply Evolves.step (g := State.setWcb_evolves _ _ _)
    | with_reducible apply Evolves.step (g := State.setWriteBacks_evolves _ _ _)
    | with_reducible apply Evolves.step (g := State.putBytes_evolves _ _ _)
    | with_reducible apply Evolves.step (g := State.dropBad_evolves _ _ _)
    | with_reducible apply Evolves.part_same
    | ((with_reducible apply Evolves.part_in); rfl)
    | with_reducible exact And.intro rfl (And.intro rfl rfl)
    | (show _ = _; rfl)
    | with_reducible apply Evolves.ite
    | dsimp only
    | split
    | with_reducible apply Evolves.update

theorem State.flushOver_evolves (s : State) (ch) (e) (line) :
    Evolves [.mem, .hbm] s (State.flushOver s ch e line) := by
  unfold State.flushOver
  repeat' first
    | with_reducible apply Evolves.refl
    | with_reducible apply Evolves.step (g := State.lineWrite_evolves _ _ _ _)
    | with_reducible apply Evolves.part_same
    | ((with_reducible apply Evolves.part_in); rfl)
    | with_reducible exact And.intro rfl (And.intro rfl rfl)
    | (show _ = _; rfl)
    | with_reducible apply Evolves.ite
    | dsimp only
    | split
    | with_reducible apply Evolves.update

theorem State.flushEntry_evolves (s : State) (ch) (e) :
    Evolves [.mem, .hbm] s (State.flushEntry s ch e) := by
  unfold State.flushEntry
  repeat' first
    | with_reducible apply Evolves.refl
    | with_reducible apply Evolves.step (g := State.flushOver_evolves _ _ _ _)
    | with_reducible apply Evolves.part_same
    | ((with_reducible apply Evolves.part_in); rfl)
    | with_reducible exact And.intro rfl (And.intro rfl rfl)
    | (show _ = _; rfl)
    | with_reducible apply Evolves.ite
    | dsimp only
    | split
    | with_reducible apply Evolves.update

theorem State.flushAll_evolves (s : State) (ch) (x1) :
    Evolves [.mem, .hbm] s (State.flushAll s ch x1) := by
  fun_induction State.flushAll s ch x1
  all_goals repeat' first
    | with_reducible apply Evolves.refl
    | with_reducible assumption
    | with_reducible apply Evolves.step (g := State.flushEntry_evolves _ _ _)
    | with_reducible apply Evolves.step (g := by assumption)
    | with_reducible apply Evolves.part_same
    | ((with_reducible apply Evolves.part_in); rfl)
    | with_reducible exact And.intro rfl (And.intro rfl rfl)
    | (show _ = _; rfl)
    | with_reducible apply Evolves.ite
    | dsimp only
    | split
    | with_reducible apply Evolves.update

theorem State.partialWrite_evolves (s : State) (who) (ch) (line) (off) (bs) :
    Evolves [.regs, .mem, .hbm, .bel] s (State.partialWrite s who ch line off bs) := by
  unfold State.partialWrite
  repeat' first
    | with_reducible apply Evolves.refl
    | with_reducible apply Evolves.step (g := State.count_evolves _ _ _ _)
    | with_reducible apply Evolves.step (g := State.bel64_evolves _ _ _)
    | with_reducible apply Evolves.step (g := State.setWcb_evolves _ _ _)
    | with_reducible apply Evolves.step (g := State.flushEntry_evolves _ _ _)
    | with_reducible apply Evolves.part_same
    | ((with_reducible apply Evolves.part_in); rfl)
    | with_reducible exact And.intro rfl (And.intro rfl rfl)
    | (show _ = _; rfl)
    | with_reducible apply Evolves.ite
    | dsimp only
    | split
    | with_reducible apply Evolves.update

theorem State.addrErr_evolves (s : State) :
    Evolves [.regs, .out, .heldOut, .host] s (State.addrErr s) := by
  unfold State.addrErr
  repeat' first
    | with_reducible apply Evolves.refl
    | with_reducible apply Evolves.step (g := State.event_evolves _ _ _)
    | with_reducible apply Evolves.part_same
    | ((with_reducible apply Evolves.part_in); rfl)
    | with_reducible exact And.intro rfl (And.intro rfl rfl)
    | (show _ = _; rfl)
    | with_reducible apply Evolves.ite
    | dsimp only
    | split
    | with_reducible apply Evolves.update

theorem State.linePiece_evolves (s : State) (who) (a) (bs) :
    Evolves [.regs, .mem, .out, .heldOut, .hbm, .host, .bel] s (State.linePiece s who a bs) := by
  unfold State.linePiece
  repeat' first
    | with_reducible apply Evolves.refl
    | with_reducible apply Evolves.step (g := State.bel64_evolves _ _ _)
    | with_reducible apply Evolves.step (g := State.putBytes_evolves _ _ _)
    | with_reducible apply Evolves.step (g := State.lineWrite_evolves _ _ _ _)
    | with_reducible apply Evolves.step (g := State.partialWrite_evolves _ _ _ _ _ _)
    | with_reducible apply Evolves.step (g := State.addrErr_evolves _)
    | with_reducible apply Evolves.part_same
    | ((with_reducible apply Evolves.part_in); rfl)
    | with_reducible exact And.intro rfl (And.intro rfl rfl)
    | (show _ = _; rfl)
    | with_reducible apply Evolves.ite
    | dsimp only
    | split
    | with_reducible apply Evolves.update

theorem State.writePieces_evolves (s : State) (who) (x1) :
    Evolves [.regs, .mem, .out, .heldOut, .hbm, .host, .bel] s (State.writePieces s who x1) := by
  fun_induction State.writePieces s who x1
  all_goals repeat' first
    | with_reducible apply Evolves.refl
    | with_reducible assumption
    | with_reducible apply Evolves.step (g := State.linePiece_evolves _ _ _ _)
    | with_reducible apply Evolves.step (g := by assumption)
    | with_reducible apply Evolves.part_same
    | ((with_reducible apply Evolves.part_in); rfl)
    | with_reducible exact And.intro rfl (And.intro rfl rfl)
    | (show _ = _; rfl)
    | with_reducible apply Evolves.ite
    | dsimp only
    | split
    | with_reducible apply Evolves.update

theorem State.devWrite_evolves (s : State) (who) (a) (bs) :
    Evolves [.regs, .mem, .out, .heldOut, .hbm, .host, .bel] s (State.devWrite s who a bs) := by
  unfold State.devWrite
  repeat' first
    | with_reducible apply Evolves.refl
    | with_reducible apply Evolves.step (g := State.writePieces_evolves _ _ _)
    | with_reducible apply Evolves.part_same
    | ((with_reducible apply Evolves.part_in); rfl)
    | with_reducible exact And.intro rfl (And.intro rfl rfl)
    | (show _ = _; rfl)
    | with_reducible apply Evolves.ite
    | dsimp only
    | split
    | with_reducible apply Evolves.update

theorem State.stopReports_evolves (s : State) :
    Evolves [.tick] s (State.stopReports s) := by
  unfold State.stopReports
  repeat' first
    | with_reducible apply Evolves.refl
    | with_reducible apply Evolves.part_same
    | ((with_reducible apply Evolves.part_in); rfl)
    | with_reducible exact And.intro rfl (And.intro rfl rfl)
    | (show _ = _; rfl)
    | with_reducible apply Evolves.ite
    | dsimp only
    | split
    | with_reducible apply Evolves.update

theorem State.mapStep_evolves (s : State) (f) :
    Evolves [.tick] s (State.mapStep s f) := by
  unfold State.mapStep
  repeat' first
    | with_reducible apply Evolves.refl
    | with_reducible apply Evolves.part_same
    | ((with_reducible apply Evolves.part_in); rfl)
    | with_reducible exact And.intro rfl (And.intro rfl rfl)
    | (show _ = _; rfl)
    | with_reducible apply Evolves.ite
    | dsimp only
    | split
    | with_reducible apply Evolves.update

theorem State.spoil_evolves (s : State) (c) :
    Evolves [.regs, .free, .out, .heldOut, .tick, .stl, .host, .bel] s (State.spoil s c) := by
  unfold State.spoil
  repeat' first
    | with_reducible apply Evolves.refl
    | with_reducible apply Evolves.step (g := State.setBit_evolves _ _ _ _)
    | with_reducible apply Evolves.step (g := State.traceBoth_evolves _ _ _)
    | with_reducible apply Evolves.step (g := State.mapStep_evolves _ _)
    | with_reducible apply Evolves.part_same
    | ((with_reducible apply Evolves.part_in); rfl)
    | with_reducible exact And.intro rfl (And.intro rfl rfl)
    | (show _ = _; rfl)
    | with_reducible apply Evolves.ite
    | dsimp only
    | split
    | with_reducible apply Evolves.update

theorem State.cqWrite_evolves (s : State) (c) :
    Evolves [.regs, .out, .heldOut, .host] s (State.cqWrite s c) := by
  unfold State.cqWrite
  repeat' first
    | with_reducible apply Evolves.refl
    | with_reducible apply Evolves.step (g := State.setRegN_evolves _ _ _)
    | with_reducible apply Evolves.step (g := State.toHost_evolves _ _)
    | with_reducible apply Evolves.step (g := State.signal_evolves _ _)
    | with_reducible apply Evolves.part_same
    | ((with_reducible apply Evolves.part_in); rfl)
    | with_reducible exact And.intro rfl (And.intro rfl rfl)
    | (show _ = _; rfl)
    | with_reducible apply Evolves.ite
    | dsimp only
    | split
    | with_reducible apply Evolves.update

theorem State.complete_evolves (s : State) (c) :
    Evolves [.regs, .free, .out, .heldOut, .adm, .host, .bel] s (State.complete s c) := by
  unfold State.complete
  repeat' first
    | with_reducible apply Evolves.refl
    | with_reducible apply Evolves.step (g := State.event_evolves _ _ _)
    | with_reducible apply Evolves.step (g := State.traceBoth_evolves _ _ _)
    | with_reducible apply Evolves.step (g := State.cqWrite_evolves _ _)
    | with_reducible apply Evolves.part_same
    | ((with_reducible apply Evolves.part_in); rfl)
    | with_reducible exact And.intro rfl (And.intro rfl rfl)
    | (show _ = _; rfl)
    | with_reducible apply Evolves.ite
    | dsimp only
    | split
    | with_reducible apply Evolves.update

theorem State.setPlot_evolves (s : State) (p) (x) :
    Evolves [.stl] s (State.setPlot s p x) := by
  unfold State.setPlot
  repeat' first
    | with_reducible apply Evolves.refl
    | with_reducible apply Evolves.part_same
    | ((with_reducible apply Evolves.part_in); rfl)
    | with_reducible exact And.intro rfl (And.intro rfl rfl)
    | (show _ = _; rfl)
    | with_reducible apply Evolves.ite
    | dsimp only
    | split
    | with_reducible apply Evolves.update

theorem State.mapPlots_evolves (s : State) (f) :
    Evolves [.stl] s (State.mapPlots s f) := by
  unfold State.mapPlots
  repeat' first
    | with_reducible apply Evolves.refl
    | with_reducible apply Evolves.part_same
    | ((with_reducible apply Evolves.part_in); rfl)
    | with_reducible exact And.intro rfl (And.intro rfl rfl)
    | (show _ = _; rfl)
    | with_reducible apply Evolves.ite
    | dsimp only
    | split
    | with_reducible apply Evolves.update

theorem State.chainBack_evolves (s : State) (table) (x1) :
    Evolves [.regs, .mem, .out, .heldOut, .hbm, .host, .bel] s (State.chainBack s table x1) := by
  fun_induction State.chainBack s table x1
  all_goals repeat' first
    | with_reducible apply Evolves.refl
    | with_reducible assumption
    | with_reducible apply Evolves.step (g := State.devWrite_evolves _ _ _ _)
    | with_reducible apply Evolves.step (g := by assumption)
    | with_reducible apply Evolves.part_same
    | ((with_reducible apply Evolves.part_in); rfl)
    | with_reducible exact And.intro rfl (And.intro rfl rfl)
    | (show _ = _; rfl)
    | with_reducible apply Evolves.ite
    | dsimp only
    | split
    | with_reducible apply Evolves.update

theorem State.completeAll_evolves (s : State) (x1) :
    Evolves [.regs, .mem, .free, .out, .heldOut, .adm, .hbm, .host, .bel] s (State.completeAll s x1) := by
  fun_induction State.completeAll s x1
  all_goals repeat' first
    | with_reducible apply Evolves.refl
    | with_reducible assumption
    | with_reducible apply Evolves.step (g := State.complete_evolves _ _)
    | with_reducible apply Evolves.step (g := State.chainBack_evolves _ _ _)
    | with_reducible apply Evolves.step (g := by assumption)
    | with_reducible apply Evolves.part_same
    | ((with_reducible apply Evolves.part_in); rfl)
    | with_reducible exact And.intro rfl (And.intro rfl rfl)
    | (show _ = _; rfl)
    | with_reducible apply Evolves.ite
    | dsimp only
    | split
    | with_reducible apply Evolves.update

theorem State.setSred_evolves (s : State) (plot) (r) :
    Evolves [.clo] s (State.setSred s plot r) := by
  unfold State.setSred
  repeat' first
    | with_reducible apply Evolves.refl
    | with_reducible apply Evolves.part_same
    | ((with_reducible apply Evolves.part_in); rfl)
    | with_reducible exact And.intro rfl (And.intro rfl rfl)
    | (show _ = _; rfl)
    | with_reducible apply Evolves.ite
    | dsimp only
    | split
    | with_reducible apply Evolves.update

theorem State.contribute_evolves (s : State) (plot) (core) (xs) :
    Evolves [.regs, .clo] s (State.contribute s plot core xs) := by
  unfold State.contribute
  repeat' first
    | with_reducible apply Evolves.refl
    | with_reducible apply Evolves.step (g := State.count_evolves _ _ _ _)
    | with_reducible apply Evolves.step (g := State.setSred_evolves _ _ _)
    | with_reducible apply Evolves.part_same
    | ((with_reducible apply Evolves.part_in); rfl)
    | with_reducible exact And.intro rfl (And.intro rfl rfl)
    | (show _ = _; rfl)
    | with_reducible apply Evolves.ite
    | dsimp only
    | split
    | with_reducible apply Evolves.update

/-! ## Access -/

theorem resetRegs_wf : storeWf 0 resetRegs = true := by decide

/-- ME_FAIL carried over a reset keeps the canonical form. -/
theorem State.lostRegs_wf (s : State) (kept : Regs) (h : storeWf 0 (resetRegs ++ kept) = true) :
    storeWf 0 (s.lostRegs kept) = true := by
  unfold State.lostRegs
  generalize hm : resetRegs ++ kept = m at h ⊢
  generalize List.range 16 = l
  clear hm
  induction l generalizing m with
  | nil => exact h
  | cons k l ih => exact ih _ (storeWf_storeSet 0 _ _ _ h)

theorem State.lose_regs_wf (s : State) (h : storeWf 0 s.regs = true) :
    storeWf 0 (resetRegs ++ s.regs.filter fun e => keptReg e.1) = true := by
  refine storeFrom_append 0 resetRegs _ 0 0x110000 resetRegs_wf ?_ (by omega) (by decide)
  refine storeFrom_raise 0 _ 0 0x110000 (storeFrom_filter 0 s.regs 0 _ h) ?_
  intro e he
  have := (List.mem_filter.mp he).2
  simp only [keptReg, decide_eq_true_eq] at this
  exact this.1

theorem State.lose_keeps (s : State) : s.keeps s.lose [.regs, .mem, .heldOut, .boot, .image, .tick, .adm, .seg, .me, .ve,
    .stl, .hbm, .upd, .clo, .trl, .pyu, .pwr, .host, .sec, .hlt, .bel] := by
  intro p hp
  unfold State.lose
  cases p <;> first | exact absurd (by decide) hp | (dsimp only [State.agree])

theorem State.lose_evolves (s : State) :
    Evolves [.regs, .mem, .heldOut, .boot, .image, .tick, .adm, .seg, .me, .ve, .stl, .hbm, .upd, .clo, .trl, .pyu, .pwr,
        .host, .sec, .hlt, .bel] s (State.lose s) := by
  refine ⟨s.lose_keeps, ?_, ?_, ?_, ?_, ?_⟩ <;> unfold State.lose
  · exact fun _ => rfl
  · intro h
    have h1 := s.lostRegs_wf (s.regs.filter fun e => keptReg e.1) (s.lose_regs_wf h)
    dsimp only
    exact h1
  · exact List.prefix_refl _
  · intro i
    unfold State.wear
    exact Nat.le_refl _
  · exact ⟨Nat.le_refl _, Nat.le_refl _, fun _ _ => rfl⟩

theorem State.mapLdg_evolves (s : State) (f) :
    Evolves [.ldg] s (State.mapLdg s f) := by
  unfold State.mapLdg
  repeat' first
    | with_reducible apply Evolves.refl
    | with_reducible apply Evolves.part_same
    | ((with_reducible apply Evolves.part_in); rfl)
    | with_reducible exact And.intro rfl (And.intro rfl rfl)
    | (show _ = _; rfl)
    | with_reducible apply Evolves.ite
    | dsimp only
    | split
    | with_reducible apply Evolves.update

theorem State.noteWake_evolves (s : State) (bit) (port) :
    Evolves [.regs, .ldg] s (State.noteWake s bit port) := by
  unfold State.noteWake
  repeat' first
    | with_reducible apply Evolves.refl
    | with_reducible apply Evolves.step (g := State.setFld_evolves _ _ _ _ _)
    | with_reducible apply Evolves.step (g := State.setBit_evolves _ _ _ _)
    | with_reducible apply Evolves.step (g := State.mapLdg_evolves _ _)
    | with_reducible apply Evolves.part_same
    | ((with_reducible apply Evolves.part_in); rfl)
    | with_reducible exact And.intro rfl (And.intro rfl rfl)
    | (show _ = _; rfl)
    | with_reducible apply Evolves.ite
    | dsimp only
    | split
    | with_reducible apply Evolves.update

theorem State.firstWake_evolves (s : State) (bit) :
    Evolves [.regs] s (State.firstWake s bit) := by
  unfold State.firstWake
  repeat' first
    | with_reducible apply Evolves.refl
    | with_reducible apply Evolves.step (g := State.setFld_evolves _ _ _ _ _)
    | with_reducible apply Evolves.part_same
    | ((with_reducible apply Evolves.part_in); rfl)
    | with_reducible exact And.intro rfl (And.intro rfl rfl)
    | (show _ = _; rfl)
    | with_reducible apply Evolves.ite
    | dsimp only
    | split
    | with_reducible apply Evolves.update

theorem State.startWake_evolves (s : State) :
    Evolves [.regs, .mem, .heldOut, .boot, .image, .tick, .adm, .seg, .me, .ve, .stl, .hbm, .upd, .clo, .trl, .pyu, .pwr,
        .ldg, .host, .sec, .hlt, .bel]
      s (State.startWake s) := by
  unfold State.startWake
  repeat' first
    | with_reducible apply Evolves.refl
    | with_reducible apply Evolves.step (g := State.lose_evolves _)
    | with_reducible apply Evolves.step (g := State.mapLdg_evolves _ _)
    | with_reducible apply Evolves.part_same
    | ((with_reducible apply Evolves.part_in); rfl)
    | with_reducible exact And.intro rfl (And.intro rfl rfl)
    | (show _ = _; rfl)
    | with_reducible apply Evolves.ite
    | dsimp only
    | split
    | with_reducible apply Evolves.update

theorem State.wakeEvent_evolves (s : State) (bit) (port) :
    Evolves [.regs, .mem, .heldOut, .boot, .image, .tick, .adm, .seg, .me, .ve, .stl, .hbm, .upd, .clo, .trl, .pyu, .pwr,
        .ldg, .host, .sec, .hlt, .bel]
      s (State.wakeEvent s bit port) := by
  unfold State.wakeEvent
  repeat' first
    | with_reducible apply Evolves.refl
    | with_reducible apply Evolves.step (g := State.mapLdg_evolves _ _)
    | with_reducible apply Evolves.step (g := State.noteWake_evolves _ _ _)
    | with_reducible apply Evolves.step (g := State.firstWake_evolves _ _)
    | with_reducible apply Evolves.step (g := State.startWake_evolves _)
    | with_reducible apply Evolves.part_same
    | ((with_reducible apply Evolves.part_in); rfl)
    | with_reducible exact And.intro rfl (And.intro rfl rfl)
    | (show _ = _; rfl)
    | with_reducible apply Evolves.ite
    | dsimp only
    | split
    | with_reducible apply Evolves.update

theorem State.entryResult_evolves (s : State) (code) :
    Evolves [.regs] s (State.entryResult s code) := by
  unfold State.entryResult
  repeat' first
    | with_reducible apply Evolves.refl
    | with_reducible apply Evolves.step (g := State.setFld_evolves _ _ _ _ _)
    | with_reducible apply Evolves.part_same
    | ((with_reducible apply Evolves.part_in); rfl)
    | with_reducible exact And.intro rfl (And.intro rfl rfl)
    | (show _ = _; rfl)
    | with_reducible apply Evolves.ite
    | dsimp only
    | split
    | with_reducible apply Evolves.update

theorem State.beginEntry_evolves (s : State) (t) :
    Evolves [.regs, .out, .heldOut, .pwr, .ldg, .host, .sbk, .hlt] s (State.beginEntry s t) := by
  unfold State.beginEntry
  repeat' first
    | with_reducible apply Evolves.refl
    | with_reducible apply Evolves.step (g := State.setReg_evolves _ _ _)
    | with_reducible apply Evolves.step (g := State.setBit_evolves _ _ _ _)
    | with_reducible apply Evolves.step (g := State.seedPersist_evolves _)
    | with_reducible apply Evolves.step (g := State.mapLdg_evolves _ _)
    | with_reducible apply Evolves.part_same
    | ((with_reducible apply Evolves.part_in); rfl)
    | with_reducible exact And.intro rfl (And.intro rfl rfl)
    | (show _ = _; rfl)
    | with_reducible apply Evolves.ite
    | dsimp only
    | split
    | with_reducible apply Evolves.update

theorem State.requestEntry_evolves (s : State) (t) :
    Evolves [.regs, .out, .heldOut, .pwr, .ldg, .host, .sbk, .hlt] s (State.requestEntry s t) := by
  unfold State.requestEntry
  repeat' first
    | with_reducible apply Evolves.refl
    | with_reducible apply Evolves.step (g := State.event_evolves _ _ _)
    | with_reducible apply Evolves.step (g := State.mapLdg_evolves _ _)
    | with_reducible apply Evolves.step (g := State.entryResult_evolves _ _)
    | with_reducible apply Evolves.step (g := State.beginEntry_evolves _ _)
    | with_reducible apply Evolves.part_same
    | ((with_reducible apply Evolves.part_in); rfl)
    | with_reducible exact And.intro rfl (And.intro rfl rfl)
    | (show _ = _; rfl)
    | with_reducible apply Evolves.ite
    | dsimp only
    | split
    | with_reducible apply Evolves.update

theorem State.actHeld_evolves (s : State) :
    Evolves [.regs, .out, .heldOut, .pwr, .ldg, .host, .sbk, .hlt] s (State.actHeld s) := by
  unfold State.actHeld
  repeat' first
    | with_reducible apply Evolves.refl
    | with_reducible apply Evolves.step (g := State.mapLdg_evolves _ _)
    | with_reducible apply Evolves.step (g := State.requestEntry_evolves _ _)
    | with_reducible apply Evolves.part_same
    | ((with_reducible apply Evolves.part_in); rfl)
    | with_reducible exact And.intro rfl (And.intro rfl rfl)
    | (show _ = _; rfl)
    | with_reducible apply Evolves.ite
    | dsimp only
    | split
    | with_reducible apply Evolves.update

theorem State.leaveA1_evolves (s : State) :
    Evolves [.regs, .out, .heldOut, .pwr, .ldg, .host, .sbk, .hlt] s (State.leaveA1 s) := by
  unfold State.leaveA1
  repeat' first
    | with_reducible apply Evolves.refl
    | with_reducible apply Evolves.step (g := State.mapLdg_evolves _ _)
    | with_reducible apply Evolves.step (g := State.actHeld_evolves _)
    | with_reducible apply Evolves.part_same
    | ((with_reducible apply Evolves.part_in); rfl)
    | with_reducible exact And.intro rfl (And.intro rfl rfl)
    | (show _ = _; rfl)
    | with_reducible apply Evolves.ite
    | dsimp only
    | split
    | with_reducible apply Evolves.update

theorem State.onHost_evolves {P : List Part} (s : State) (f : State → State)
    (hf : ∀ t, Evolves P t (f t)) (hp : (([.regs, .mem, .out, .heldOut, .boot, .image, .tick, .adm, .seg, .me, .ve,
    .stl, .hbm, .upd, .clo, .trl, .pyu, .pwr, .ldg, .host, .sec, .sbk, .hlt, .bel]
    : List Part).all fun p => P.contains p) = true) :
    Evolves P s (s.onHost f) := by
  unfold State.onHost
  repeat' split
  · exact ((Evolves.refl s).step (s.leaveA1_evolves.widen rfl) hp).step (hf _) (Evolves.covers_self P)
  · exact hf _
  · exact Evolves.refl _
  · exact (Evolves.refl s).step ((s.send_evolves _).widen rfl) hp
  · exact (Evolves.refl s).step ((s.wakeEvent_evolves _ _).widen rfl) hp

theorem State.onLodge_evolves {P : List Part} (s : State) (f : State → State)
    (hf : ∀ t, Evolves P t (f t)) (hp : (([.regs, .mem, .out, .heldOut, .boot, .image, .tick, .adm, .seg, .me, .ve,
    .stl, .hbm, .upd, .clo, .trl, .pyu, .pwr, .ldg, .host, .sec, .sbk, .hlt, .bel]
    : List Part).all fun p => P.contains p) = true) :
    Evolves P s (s.onLodge f) := by
  unfold State.onLodge
  split
  · exact hf _
  · exact s.onHost_evolves f hf hp

/-! ## SelfTest -/

theorem State.setTestStatus_evolves (s : State) (h) (code) :
    Evolves [.regs] s (State.setTestStatus s h code) := by
  unfold State.setTestStatus
  repeat' first
    | with_reducible apply Evolves.refl
    | with_reducible apply Evolves.step (g := State.setFld_evolves _ _ _ _ _)
    | with_reducible apply Evolves.part_same
    | ((with_reducible apply Evolves.part_in); rfl)
    | with_reducible exact And.intro rfl (And.intro rfl rfl)
    | (show _ = _; rfl)
    | with_reducible apply Evolves.ite
    | dsimp only
    | split
    | with_reducible apply Evolves.update

theorem State.startTest_evolves (s : State) (h) :
    Evolves [.regs, .adm] s (State.startTest s h) := by
  unfold State.startTest
  repeat' first
    | with_reducible apply Evolves.refl
    | with_reducible apply Evolves.step (g := State.setTestStatus_evolves _ _ _)
    | with_reducible apply Evolves.part_same
    | ((with_reducible apply Evolves.part_in); rfl)
    | with_reducible exact And.intro rfl (And.intro rfl rfl)
    | (show _ = _; rfl)
    | with_reducible apply Evolves.ite
    | dsimp only
    | split
    | with_reducible apply Evolves.update

theorem State.deferTest_evolves (s : State) (h) :
    Evolves [.regs, .adm] s (State.deferTest s h) := by
  unfold State.deferTest
  repeat' first
    | with_reducible apply Evolves.refl
    | with_reducible apply Evolves.step (g := State.setTestStatus_evolves _ _ _)
    | with_reducible apply Evolves.part_same
    | ((with_reducible apply Evolves.part_in); rfl)
    | with_reducible exact And.intro rfl (And.intro rfl rfl)
    | (show _ = _; rfl)
    | with_reducible apply Evolves.ite
    | dsimp only
    | split
    | with_reducible apply Evolves.update

theorem State.requestTest_evolves (s : State) (h) :
    Evolves [.regs, .adm] s (State.requestTest s h) := by
  unfold State.requestTest
  repeat' first
    | with_reducible apply Evolves.refl
    | with_reducible apply Evolves.step (g := State.startTest_evolves _ _)
    | with_reducible apply Evolves.step (g := State.deferTest_evolves _ _)
    | with_reducible apply Evolves.part_same
    | ((with_reducible apply Evolves.part_in); rfl)
    | with_reducible exact And.intro rfl (And.intro rfl rfl)
    | (show _ = _; rfl)
    | with_reducible apply Evolves.ite
    | dsimp only
    | split
    | with_reducible apply Evolves.update

theorem State.endTest_evolves (s : State) (h) (fail) :
    Evolves [.regs, .adm] s (State.endTest s h fail) := by
  unfold State.endTest
  repeat' first
    | with_reducible apply Evolves.refl
    | with_reducible apply Evolves.step (g := State.setTestStatus_evolves _ _ _)
    | with_reducible apply Evolves.part_same
    | ((with_reducible apply Evolves.part_in); rfl)
    | with_reducible exact And.intro rfl (And.intro rfl rfl)
    | (show _ = _; rfl)
    | with_reducible apply Evolves.ite
    | dsimp only
    | split
    | with_reducible apply Evolves.update

end Sys2Proof.Machine
end

