-- ==== Sys2Proof/Laws/Engines.lean ====
section
/-! SUPPORT. What each operation may do to the state (Laws/Evolves.lean): the matrix and vector engines, conversion, the Trellis, memory and the update units. -/

namespace Sys2Proof.Machine

/-! ## Tensors -/

theorem State.setRung_evolves (s : State) (t) (seg) (rung) :
    Evolves [.seg] s (State.setRung s t seg rung) := by
  unfold State.setRung
  repeat' first
    | with_reducible apply Evolves.refl
    | with_reducible apply Evolves.part_same
    | ((with_reducible apply Evolves.part_in); rfl)
    | with_reducible exact And.intro rfl (And.intro rfl rfl)
    | (show _ = _; rfl)
    | with_reducible apply Evolves.ite
    | dsimp only
    | split
    | with_reducible apply Evolves.update

/-! ## Convert -/

theorem State.tally_evolves (s : State) (t) :
    Evolves [.regs] s (State.tally s t) := by
  unfold State.tally
  repeat' first
    | with_reducible apply Evolves.refl
    | with_reducible apply Evolves.step (g := State.orReg_evolves _ _ _)
    | with_reducible apply Evolves.step (g := State.count_evolves _ _ _ _)
    | with_reducible apply Evolves.part_same
    | ((with_reducible apply Evolves.part_in); rfl)
    | with_reducible exact And.intro rfl (And.intro rfl rfl)
    | (show _ = _; rfl)
    | with_reducible apply Evolves.ite
    | dsimp only
    | split
    | with_reducible apply Evolves.update

theorem State.writeSegment_evolves (s : State) (d) (c) (nf) (update) :
    Evolves [.regs, .mem, .out, .heldOut, .hbm, .host, .bel] s (State.writeSegment s d c nf update) := by
  unfold State.writeSegment
  repeat' first
    | with_reducible apply Evolves.refl
    | with_reducible apply Evolves.step (g := State.devWrite_evolves _ _ _ _)
    | with_reducible apply Evolves.part_same
    | ((with_reducible apply Evolves.part_in); rfl)
    | with_reducible exact And.intro rfl (And.intro rfl rfl)
    | (show _ = _; rfl)
    | with_reducible apply Evolves.ite
    | dsimp only
    | split
    | with_reducible apply Evolves.update

theorem State.countConversion_evolves (s : State) (c) (tensor) (segment) (update) :
    Evolves [.regs] s (State.countConversion s c tensor segment update) := by
  unfold State.countConversion
  repeat' first
    | with_reducible apply Evolves.refl
    | with_reducible apply Evolves.step (g := State.setRegN_evolves _ _ _)
    | with_reducible apply Evolves.step (g := State.count_evolves _ _ _ _)
    | with_reducible apply Evolves.step (g := State.tally_evolves _ _)
    | with_reducible apply Evolves.part_same
    | ((with_reducible apply Evolves.part_in); rfl)
    | with_reducible exact And.intro rfl (And.intro rfl rfl)
    | (show _ = _; rfl)
    | with_reducible apply Evolves.ite
    | dsimp only
    | split
    | with_reducible apply Evolves.update

/-! ## Records -/

theorem State.combineExperts_evolves (s : State) (c) :
    Evolves [.regs, .mem, .out, .heldOut, .hbm, .host, .bel] s (State.combineExperts s c) := by
  unfold State.combineExperts
  repeat' first
    | with_reducible apply Evolves.refl
    | with_reducible apply Evolves.step (g := State.devWrite_evolves _ _ _ _)
    | with_reducible apply Evolves.step (g := State.tally_evolves _ _)
    | with_reducible apply Evolves.step (P := [.regs, .mem, .out, .heldOut, .hbm, .host, .bel]) (g := Evolves.foldl (fun _ _ => ?_) _ _)
    | (intro _)
    | with_reducible apply Evolves.part_same
    | ((with_reducible apply Evolves.part_in); rfl)
    | with_reducible exact And.intro rfl (And.intro rfl rfl)
    | (show _ = _; rfl)
    | with_reducible apply Evolves.ite
    | dsimp only
    | split
    | with_reducible apply Evolves.update

/-! ## Matrix -/

theorem State.portShare_evolves (s : State) (core) (lost) (promoted) :
    Evolves [.regs, .bel] s (State.portShare s core lost promoted) := by
  unfold State.portShare
  repeat' first
    | with_reducible apply Evolves.refl
    | with_reducible apply Evolves.step (g := State.count_evolves _ _ _ _)
    | with_reducible apply Evolves.step (g := State.bel64_evolves _ _ _)
    | with_reducible apply Evolves.part_same
    | ((with_reducible apply Evolves.part_in); rfl)
    | with_reducible exact And.intro rfl (And.intro rfl rfl)
    | (show _ = _; rfl)
    | with_reducible apply Evolves.ite
    | dsimp only
    | split
    | with_reducible apply Evolves.update

theorem State.charge_evolves (s : State) (tensor) (segment) (block) (kind) (n) :
    Evolves [.seg] s (State.charge s tensor segment block kind n) := by
  unfold State.charge
  repeat' first
    | with_reducible apply Evolves.refl
    | with_reducible apply Evolves.part_same
    | ((with_reducible apply Evolves.part_in); rfl)
    | with_reducible exact And.intro rfl (And.intro rfl rfl)
    | (show _ = _; rfl)
    | with_reducible apply Evolves.ite
    | dsimp only
    | split
    | with_reducible apply Evolves.update

theorem State.chargeRun_evolves (s : State) (tensor) (segment) (block) (x1) (x2) :
    Evolves [.seg] s (State.chargeRun s tensor segment block x1 x2) := by
  fun_induction State.chargeRun s tensor segment block x1 x2
  all_goals repeat' first
    | with_reducible apply Evolves.refl
    | with_reducible assumption
    | with_reducible apply Evolves.step (g := State.charge_evolves _ _ _ _ _ _)
    | with_reducible apply Evolves.step (g := by assumption)
    | with_reducible apply Evolves.part_same
    | ((with_reducible apply Evolves.part_in); rfl)
    | with_reducible exact And.intro rfl (And.intro rfl rfl)
    | (show _ = _; rfl)
    | with_reducible apply Evolves.ite
    | dsimp only
    | split
    | with_reducible apply Evolves.update

theorem State.chargeRuns_evolves (s : State) (tensor) (segment) (block) (first) (x1) :
    Evolves [.seg] s (State.chargeRuns s tensor segment block first x1) := by
  fun_induction State.chargeRuns s tensor segment block first x1
  all_goals repeat' first
    | with_reducible apply Evolves.refl
    | with_reducible assumption
    | with_reducible apply Evolves.step (g := State.chargeRun_evolves _ _ _ _ _ _)
    | with_reducible apply Evolves.step (g := by assumption)
    | with_reducible apply Evolves.part_same
    | ((with_reducible apply Evolves.part_in); rfl)
    | with_reducible exact And.intro rfl (And.intro rfl rfl)
    | (show _ = _; rfl)
    | with_reducible apply Evolves.ite
    | dsimp only
    | split
    | with_reducible apply Evolves.update

theorem State.countWindows_evolves (s : State) (core) (n) (bad) :
    Evolves [.regs, .bel] s (State.countWindows s core n bad) := by
  unfold State.countWindows
  repeat' first
    | with_reducible apply Evolves.refl
    | with_reducible apply Evolves.step (g := State.orReg_evolves _ _ _)
    | with_reducible apply Evolves.step (g := State.count_evolves _ _ _ _)
    | with_reducible apply Evolves.step (g := State.bel64_evolves _ _ _)
    | with_reducible apply Evolves.part_same
    | ((with_reducible apply Evolves.part_in); rfl)
    | with_reducible exact And.intro rfl (And.intro rfl rfl)
    | (show _ = _; rfl)
    | with_reducible apply Evolves.ite
    | dsimp only
    | split
    | with_reducible apply Evolves.update

theorem State.setIdle_evolves (s : State) (e) (b) :
    Evolves [.me] s (State.setIdle s e b) := by
  unfold State.setIdle
  repeat' first
    | with_reducible apply Evolves.refl
    | with_reducible apply Evolves.part_same
    | ((with_reducible apply Evolves.part_in); rfl)
    | with_reducible exact And.intro rfl (And.intro rfl rfl)
    | (show _ = _; rfl)
    | with_reducible apply Evolves.ite
    | dsimp only
    | split
    | with_reducible apply Evolves.update

theorem State.flagHalf_evolves (s : State) (key) (bad) :
    Evolves [.me] s (State.flagHalf s key bad) := by
  unfold State.flagHalf
  repeat' first
    | with_reducible apply Evolves.refl
    | with_reducible apply Evolves.part_same
    | ((with_reducible apply Evolves.part_in); rfl)
    | with_reducible exact And.intro rfl (And.intro rfl rfl)
    | (show _ = _; rfl)
    | with_reducible apply Evolves.ite
    | dsimp only
    | split
    | with_reducible apply Evolves.update

theorem State.loadAlong_evolves (s : State) (op) (fmt) (depth) :
    Evolves [.regs, .me] s (State.loadAlong s op fmt depth) := by
  unfold State.loadAlong
  repeat' first
    | with_reducible apply Evolves.refl
    | with_reducible apply Evolves.step (g := State.tally_evolves _ _)
    | with_reducible apply Evolves.step (g := State.setIdle_evolves _ _ _)
    | with_reducible apply Evolves.part_same
    | ((with_reducible apply Evolves.part_in); rfl)
    | with_reducible exact And.intro rfl (And.intro rfl rfl)
    | (show _ = _; rfl)
    | with_reducible apply Evolves.ite
    | dsimp only
    | split
    | with_reducible apply Evolves.update

theorem State.loadAcross_evolves (s : State) (op) (fmt) (depth) :
    Evolves [.regs, .seg, .me, .bel] s (State.loadAcross s op fmt depth) := by
  unfold State.loadAcross
  repeat' first
    | with_reducible apply Evolves.refl
    | with_reducible apply Evolves.step (g := State.bel64_evolves _ _ _)
    | with_reducible apply Evolves.step (g := State.tally_evolves _ _)
    | with_reducible apply Evolves.step (g := State.chargeRuns_evolves _ _ _ _ _ _)
    | with_reducible apply Evolves.step (g := State.setIdle_evolves _ _ _)
    | with_reducible apply Evolves.part_same
    | ((with_reducible apply Evolves.part_in); rfl)
    | with_reducible exact And.intro rfl (And.intro rfl rfl)
    | (show _ = _; rfl)
    | with_reducible apply Evolves.ite
    | dsimp only
    | split
    | with_reducible apply Evolves.update

theorem State.loadRotated_evolves (s : State) (op) (fmt) (depth) (rot) :
    Evolves [.regs, .seg, .me, .bel] s (State.loadRotated s op fmt depth rot) := by
  unfold State.loadRotated
  repeat' first
    | with_reducible apply Evolves.refl
    | with_reducible apply Evolves.step (g := State.tally_evolves _ _)
    | with_reducible apply Evolves.step (g := State.chargeRuns_evolves _ _ _ _ _ _)
    | with_reducible apply Evolves.step (g := State.countWindows_evolves _ _ _ _)
    | with_reducible apply Evolves.step (g := State.setIdle_evolves _ _ _)
    | with_reducible apply Evolves.part_same
    | ((with_reducible apply Evolves.part_in); rfl)
    | with_reducible exact And.intro rfl (And.intro rfl rfl)
    | (show _ = _; rfl)
    | with_reducible apply Evolves.ite
    | dsimp only
    | split
    | with_reducible apply Evolves.update

theorem State.countPass_evolves (s : State) (e) (gathered) (occupied) (stallRow) (stallCol) (stallCorr) (lag) (eyelets) :
    Evolves [.regs, .out, .heldOut, .host, .bel]
      s (State.countPass s e gathered occupied stallRow stallCol stallCorr lag eyelets) := by
  unfold State.countPass
  repeat' first
    | with_reducible apply Evolves.refl
    | with_reducible apply Evolves.step (g := State.count_evolves _ _ _ _)
    | with_reducible apply Evolves.step (g := State.maxReg_evolves _ _ _)
    | with_reducible apply Evolves.step (g := State.event_evolves _ _ _)
    | with_reducible apply Evolves.step (g := State.bel64_evolves _ _ _)
    | with_reducible apply Evolves.part_same
    | ((with_reducible apply Evolves.part_in); rfl)
    | with_reducible exact And.intro rfl (And.intro rfl rfl)
    | (show _ = _; rfl)
    | with_reducible apply Evolves.ite
    | dsimp only
    | split
    | with_reducible apply Evolves.update

theorem State.failEngines_evolves (s : State) (x1) :
    Evolves [.regs, .out, .heldOut, .host, .hlt] s (State.failEngines s x1) := by
  fun_induction State.failEngines s x1
  all_goals repeat' first
    | with_reducible apply Evolves.refl
    | with_reducible assumption
    | with_reducible apply Evolves.step (g := State.setBit_evolves _ _ _ _)
    | with_reducible apply Evolves.step (g := State.ledgerEvent_evolves _ _ _ _ _ _)
    | with_reducible apply Evolves.step (g := by assumption)
    | with_reducible apply Evolves.part_same
    | ((with_reducible apply Evolves.part_in); rfl)
    | with_reducible exact And.intro rfl (And.intro rfl rfl)
    | (show _ = _; rfl)
    | with_reducible apply Evolves.ite
    | dsimp only
    | split
    | with_reducible apply Evolves.update

theorem State.failPaths_evolves (s : State) (x1) :
    Evolves [.regs, .out, .heldOut, .host, .hlt] s (State.failPaths s x1) := by
  fun_induction State.failPaths s x1
  all_goals repeat' first
    | with_reducible apply Evolves.refl
    | with_reducible assumption
    | with_reducible apply Evolves.step (g := State.ledgerEvent_evolves _ _ _ _ _ _)
    | with_reducible apply Evolves.step (g := by assumption)
    | with_reducible apply Evolves.part_same
    | ((with_reducible apply Evolves.part_in); rfl)
    | with_reducible exact And.intro rfl (And.intro rfl rfl)
    | (show _ = _; rfl)
    | with_reducible apply Evolves.ite
    | dsimp only
    | split
    | with_reducible apply Evolves.update

theorem State.passEngines_evolves (s : State) :
    Evolves [.regs, .me] s (State.passEngines s) := by
  unfold State.passEngines
  repeat' first
    | with_reducible apply Evolves.refl
    | with_reducible apply Evolves.step (g := State.zeroRegs_evolves _ _)
    | with_reducible apply Evolves.part_same
    | ((with_reducible apply Evolves.part_in); rfl)
    | with_reducible exact And.intro rfl (And.intro rfl rfl)
    | (show _ = _; rfl)
    | with_reducible apply Evolves.ite
    | dsimp only
    | split
    | with_reducible apply Evolves.update

theorem State.testStores_evolves (s : State) :
    Evolves [.free, .me] s (State.testStores s) := by
  unfold State.testStores
  repeat' first
    | with_reducible apply Evolves.refl
    | with_reducible apply Evolves.part_same
    | ((with_reducible apply Evolves.part_in); rfl)
    | with_reducible exact And.intro rfl (And.intro rfl rfl)
    | (show _ = _; rfl)
    | with_reducible apply Evolves.ite
    | dsimp only
    | split
    | with_reducible apply Evolves.update

theorem State.meClr_evolves (s : State) (same) :
    Evolves [.regs] s (State.meClr s same) := by
  unfold State.meClr
  repeat' first
    | with_reducible apply Evolves.refl
    | with_reducible apply Evolves.step (g := State.zeroBanks_evolves _ _)
    | with_reducible apply Evolves.step (g := State.sameCycle_evolves _ _)
    | with_reducible apply Evolves.part_same
    | ((with_reducible apply Evolves.part_in); rfl)
    | with_reducible exact And.intro rfl (And.intro rfl rfl)
    | (show _ = _; rfl)
    | with_reducible apply Evolves.ite
    | dsimp only
    | split
    | with_reducible apply Evolves.update

/-! ## Segments -/

theorem State.setStaged_evolves (s : State) (tensor) (segment) (x) :
    Evolves [.seg] s (State.setStaged s tensor segment x) := by
  unfold State.setStaged
  repeat' first
    | with_reducible apply Evolves.refl
    | with_reducible apply Evolves.part_same
    | ((with_reducible apply Evolves.part_in); rfl)
    | with_reducible exact And.intro rfl (And.intro rfl rfl)
    | (show _ = _; rfl)
    | with_reducible apply Evolves.ite
    | dsimp only
    | split
    | with_reducible apply Evolves.update

theorem State.nfTile_evolves (s : State) (tensor) (tile) (core) (engine) (i) (w) :
    Evolves [.regs, .free, .out, .heldOut, .host, .bel] s (State.nfTile s tensor tile core engine i w) := by
  unfold State.nfTile
  repeat' first
    | with_reducible apply Evolves.refl
    | with_reducible apply Evolves.step (g := State.setRegN_evolves _ _ _)
    | with_reducible apply Evolves.step (g := State.orReg_evolves _ _ _)
    | with_reducible apply Evolves.step (g := State.count_evolves _ _ _ _)
    | with_reducible apply Evolves.step (g := State.bel64_evolves _ _ _)
    | with_reducible apply Evolves.step (g := State.trace_evolves _ _ _ _ _)
    | with_reducible apply Evolves.part_same
    | ((with_reducible apply Evolves.part_in); rfl)
    | with_reducible exact And.intro rfl (And.intro rfl rfl)
    | (show _ = _; rfl)
    | with_reducible apply Evolves.ite
    | dsimp only
    | split
    | with_reducible apply Evolves.update

theorem State.stageTile_evolves (s : State) (p) (core) (ws) (nf) :
    Evolves [.regs, .mem, .out, .heldOut, .seg, .hbm, .host, .bel] s (State.stageTile s p core ws nf) := by
  unfold State.stageTile
  repeat' first
    | with_reducible apply Evolves.refl
    | with_reducible apply Evolves.step (g := State.devWrite_evolves _ _ _ _)
    | with_reducible apply Evolves.step (g := State.setStaged_evolves _ _ _ _)
    | with_reducible apply Evolves.part_same
    | ((with_reducible apply Evolves.part_in); rfl)
    | with_reducible exact And.intro rfl (And.intro rfl rfl)
    | (show _ = _; rfl)
    | with_reducible apply Evolves.ite
    | dsimp only
    | split
    | with_reducible apply Evolves.update

theorem State.setGen_evolves (s : State) (core) (g) :
    Evolves [.seg] s (State.setGen s core g) := by
  unfold State.setGen
  repeat' first
    | with_reducible apply Evolves.refl
    | with_reducible apply Evolves.part_same
    | ((with_reducible apply Evolves.part_in); rfl)
    | with_reducible exact And.intro rfl (And.intro rfl rfl)
    | (show _ = _; rfl)
    | with_reducible apply Evolves.ite
    | dsimp only
    | split
    | with_reducible apply Evolves.update

theorem State.debit_evolves (s : State) (cost) :
    Evolves [.regs, .tick] s (State.debit s cost) := by
  unfold State.debit
  repeat' first
    | with_reducible apply Evolves.refl
    | with_reducible apply Evolves.step (g := State.maxReg_evolves _ _ _)
    | with_reducible apply Evolves.part_same
    | ((with_reducible apply Evolves.part_in); rfl)
    | with_reducible exact And.intro rfl (And.intro rfl rfl)
    | (show _ = _; rfl)
    | with_reducible apply Evolves.ite
    | dsimp only
    | split
    | with_reducible apply Evolves.update

theorem State.affect_evolves (s : State) (layer) :
    Evolves [.regs] s (State.affect s layer) := by
  unfold State.affect
  repeat' first
    | with_reducible apply Evolves.refl
    | with_reducible apply Evolves.step (g := State.setBit_evolves _ _ _ _)
    | with_reducible apply Evolves.part_same
    | ((with_reducible apply Evolves.part_in); rfl)
    | with_reducible exact And.intro rfl (And.intro rfl rfl)
    | (show _ = _; rfl)
    | with_reducible apply Evolves.ite
    | dsimp only
    | split
    | with_reducible apply Evolves.update

theorem State.suppress_evolves (s : State) (q) :
    Evolves [.regs, .free, .out, .heldOut, .host, .hlt, .bel] s (State.suppress s q) := by
  unfold State.suppress
  repeat' first
    | with_reducible apply Evolves.refl
    | with_reducible apply Evolves.step (g := State.count_evolves _ _ _ _)
    | with_reducible apply Evolves.step (g := State.bel64_evolves _ _ _)
    | with_reducible apply Evolves.step (g := State.live_evolves _ _ _)
    | with_reducible apply Evolves.step (g := State.trace_evolves _ _ _ _ _)
    | with_reducible apply Evolves.step (g := State.affect_evolves _ _)
    | with_reducible apply Evolves.part_same
    | ((with_reducible apply Evolves.part_in); rfl)
    | with_reducible exact And.intro rfl (And.intro rfl rfl)
    | (show _ = _; rfl)
    | with_reducible apply Evolves.ite
    | dsimp only
    | split
    | with_reducible apply Evolves.update

theorem State.deny_evolves (s : State) (q) :
    Evolves [.regs, .free, .out, .heldOut, .tick, .stl, .host, .hlt, .bel] s (State.deny s q) := by
  unfold State.deny
  repeat' first
    | with_reducible apply Evolves.refl
    | with_reducible apply Evolves.step (g := State.count_evolves _ _ _ _)
    | with_reducible apply Evolves.step (g := State.bel64_evolves _ _ _)
    | with_reducible apply Evolves.step (g := State.live_evolves _ _ _)
    | with_reducible apply Evolves.step (g := State.trace_evolves _ _ _ _ _)
    | with_reducible apply Evolves.step (g := State.mapStep_evolves _ _)
    | with_reducible apply Evolves.step (g := State.spoil_evolves _ _)
    | with_reducible apply Evolves.step (g := State.affect_evolves _ _)
    | with_reducible apply Evolves.part_same
    | ((with_reducible apply Evolves.part_in); rfl)
    | with_reducible exact And.intro rfl (And.intro rfl rfl)
    | (show _ = _; rfl)
    | with_reducible apply Evolves.ite
    | dsimp only
    | split
    | with_reducible apply Evolves.update

theorem State.grant_evolves (s : State) (q) :
    Evolves [.regs, .free, .out, .heldOut, .tick, .host, .hlt, .bel] s (State.grant s q) := by
  unfold State.grant
  repeat' first
    | with_reducible apply Evolves.refl
    | with_reducible apply Evolves.step (g := State.count_evolves _ _ _ _)
    | with_reducible apply Evolves.step (g := State.bel64_evolves _ _ _)
    | with_reducible apply Evolves.step (g := State.live_evolves _ _ _)
    | with_reducible apply Evolves.step (g := State.trace_evolves _ _ _ _ _)
    | with_reducible apply Evolves.step (g := State.debit_evolves _ _)
    | with_reducible apply Evolves.part_same
    | ((with_reducible apply Evolves.part_in); rfl)
    | with_reducible exact And.intro rfl (And.intro rfl rfl)
    | (show _ = _; rfl)
    | with_reducible apply Evolves.ite
    | dsimp only
    | split
    | with_reducible apply Evolves.update

theorem State.request_evolves (s : State) (q) (cycle) (remaining) :
    Evolves [.regs, .free, .out, .heldOut, .tick, .stl, .host, .hlt, .bel] s (State.request s q cycle remaining).1 := by
  unfold State.request
  repeat' first
    | with_reducible apply Evolves.refl
    | with_reducible apply Evolves.step (g := State.suppress_evolves _ _)
    | with_reducible apply Evolves.step (g := State.deny_evolves _ _)
    | with_reducible apply Evolves.step (g := State.grant_evolves _ _)
    | with_reducible apply Evolves.part_same
    | ((with_reducible apply Evolves.part_in); rfl)
    | with_reducible exact And.intro rfl (And.intro rfl rfl)
    | (show _ = _; rfl)
    | with_reducible apply Evolves.ite
    | dsimp only
    | split
    | with_reducible apply Evolves.update

theorem State.topCross_evolves (s : State) :
    Evolves [.regs] s (State.topCross s) := by
  unfold State.topCross
  repeat' first
    | with_reducible apply Evolves.refl
    | with_reducible apply Evolves.step (g := State.count_evolves _ _ _ _)
    | with_reducible apply Evolves.part_same
    | ((with_reducible apply Evolves.part_in); rfl)
    | with_reducible exact And.intro rfl (And.intro rfl rfl)
    | (show _ = _; rfl)
    | with_reducible apply Evolves.ite
    | dsimp only
    | split
    | with_reducible apply Evolves.update

theorem State.countConv_evolves (s : State) (x) (c) :
    Evolves [.regs, .free, .out, .heldOut, .host, .bel] s (State.countConv s x c) := by
  unfold State.countConv
  repeat' first
    | with_reducible apply Evolves.refl
    | with_reducible apply Evolves.step (g := State.bel64_evolves _ _ _)
    | with_reducible apply Evolves.step (g := State.trace_evolves _ _ _ _ _)
    | with_reducible apply Evolves.step (g := State.countConversion_evolves _ _ _ _ _)
    | with_reducible apply Evolves.part_same
    | ((with_reducible apply Evolves.part_in); rfl)
    | with_reducible exact And.intro rfl (And.intro rfl rfl)
    | (show _ = _; rfl)
    | with_reducible apply Evolves.ite
    | dsimp only
    | split
    | with_reducible apply Evolves.update

theorem State.writeCounters_evolves (s : State) (survey) (x1) (x2) :
    Evolves [.regs, .mem, .out, .heldOut, .hbm, .host, .bel] s (State.writeCounters s survey x1 x2) := by
  fun_induction State.writeCounters s survey x1 x2
  all_goals repeat' first
    | with_reducible apply Evolves.refl
    | with_reducible assumption
    | with_reducible apply Evolves.step (g := State.devWrite_evolves _ _ _ _)
    | with_reducible apply Evolves.step (g := by assumption)
    | with_reducible apply Evolves.part_same
    | ((with_reducible apply Evolves.part_in); rfl)
    | with_reducible exact And.intro rfl (And.intro rfl rfl)
    | (show _ = _; rfl)
    | with_reducible apply Evolves.ite
    | dsimp only
    | split
    | with_reducible apply Evolves.update

theorem State.flagMade_evolves (s : State) (x) (vals) (c) (x1) :
    Evolves [.regs, .free, .out, .heldOut, .host, .bel] s (State.flagMade s x vals c x1) := by
  fun_induction State.flagMade s x vals c x1
  all_goals repeat' first
    | with_reducible apply Evolves.refl
    | with_reducible assumption
    | with_reducible apply Evolves.step (g := State.nfTile_evolves _ _ _ _ _ _ _)
    | with_reducible apply Evolves.step (g := by assumption)
    | with_reducible apply Evolves.part_same
    | ((with_reducible apply Evolves.part_in); rfl)
    | with_reducible exact And.intro rfl (And.intro rfl rfl)
    | (show _ = _; rfl)
    | with_reducible apply Evolves.ite
    | dsimp only
    | split
    | with_reducible apply Evolves.update

theorem State.setLayer_evolves (s : State) (i) (l) :
    Evolves [.seg] s (State.setLayer s i l) := by
  unfold State.setLayer
  repeat' first
    | with_reducible apply Evolves.refl
    | with_reducible apply Evolves.part_same
    | ((with_reducible apply Evolves.part_in); rfl)
    | with_reducible exact And.intro rfl (And.intro rfl rfl)
    | (show _ = _; rfl)
    | with_reducible apply Evolves.ite
    | dsimp only
    | split
    | with_reducible apply Evolves.update

theorem State.setBranch_evolves (s : State) (plot) (rung) :
    Evolves [.stl] s (State.setBranch s plot rung) := by
  unfold State.setBranch
  repeat' first
    | with_reducible apply Evolves.refl
    | with_reducible apply Evolves.step (g := State.setPlot_evolves _ _ _)
    | with_reducible apply Evolves.part_same
    | ((with_reducible apply Evolves.part_in); rfl)
    | with_reducible exact And.intro rfl (And.intro rfl rfl)
    | (show _ = _; rfl)
    | with_reducible apply Evolves.ite
    | dsimp only
    | split
    | with_reducible apply Evolves.update

theorem State.releaseSeg_evolves (s : State) (x) (c) (rung) :
    Evolves [.regs, .mem, .free, .out, .heldOut, .seg, .stl, .hbm, .host, .bel] s (State.releaseSeg s x c rung) := by
  unfold State.releaseSeg
  repeat' first
    | with_reducible apply Evolves.refl
    | with_reducible apply Evolves.step (g := State.setRung_evolves _ _ _ _)
    | with_reducible apply Evolves.step (g := State.writeSegment_evolves _ _ _ _ _)
    | with_reducible apply Evolves.step (g := State.setStaged_evolves _ _ _ _)
    | with_reducible apply Evolves.step (g := State.writeCounters_evolves _ _ _ _)
    | with_reducible apply Evolves.step (g := State.flagMade_evolves _ _ _ _ _)
    | with_reducible apply Evolves.step (g := State.setLayer_evolves _ _ _)
    | with_reducible apply Evolves.step (g := State.setBranch_evolves _ _ _)
    | with_reducible apply Evolves.part_same
    | ((with_reducible apply Evolves.part_in); rfl)
    | with_reducible exact And.intro rfl (And.intro rfl rfl)
    | (show _ = _; rfl)
    | with_reducible apply Evolves.ite
    | dsimp only
    | split
    | with_reducible apply Evolves.update

theorem State.clearHalf_evolves (s : State) (e) (half) :
    Evolves [.me] s (State.clearHalf s e half) := by
  unfold State.clearHalf
  repeat' first
    | with_reducible apply Evolves.refl
    | with_reducible apply Evolves.part_same
    | ((with_reducible apply Evolves.part_in); rfl)
    | with_reducible exact And.intro rfl (And.intro rfl rfl)
    | (show _ = _; rfl)
    | with_reducible apply Evolves.ite
    | dsimp only
    | split
    | with_reducible apply Evolves.update

theorem State.squash_evolves (s : State) (inst) (halves) :
    Evolves [.seg, .me] s (State.squash s inst halves) := by
  unfold State.squash
  repeat' first
    | with_reducible apply Evolves.refl
    | with_reducible apply Evolves.step (g := State.clearHalf_evolves _ _ _)
    | with_reducible apply Evolves.step (P := [.seg, .me]) (g := Evolves.foldl (fun _ _ => ?_) _ _)
    | (intro _)
    | with_reducible apply Evolves.part_same
    | ((with_reducible apply Evolves.part_in); rfl)
    | with_reducible exact And.intro rfl (And.intro rfl rfl)
    | (show _ = _; rfl)
    | with_reducible apply Evolves.ite
    | dsimp only
    | split
    | with_reducible apply Evolves.update

theorem State.finalize_evolves (s : State) (inst) :
    Evolves [.seg] s (State.finalize s inst) := by
  unfold State.finalize
  repeat' first
    | with_reducible apply Evolves.refl
    | with_reducible apply Evolves.step (g := State.setLayer_evolves _ _ _)
    | with_reducible apply Evolves.part_same
    | ((with_reducible apply Evolves.part_in); rfl)
    | with_reducible exact And.intro rfl (And.intro rfl rfl)
    | (show _ = _; rfl)
    | with_reducible apply Evolves.ite
    | dsimp only
    | split
    | with_reducible apply Evolves.update

theorem State.layerRequest_evolves (s : State) (op) (core) (rung) (cycle) (remaining) :
    Evolves [.regs, .free, .out, .heldOut, .tick, .seg, .me, .stl, .host, .hlt, .bel]
      s (State.layerRequest s op core rung cycle remaining) := by
  unfold State.layerRequest
  repeat' first
    | with_reducible apply Evolves.refl
    | with_reducible apply Evolves.step (g := State.request_evolves _ _ _ _)
    | with_reducible apply Evolves.step (g := State.setLayer_evolves _ _ _)
    | with_reducible apply Evolves.step (g := State.squash_evolves _ _ _)
    | with_reducible apply Evolves.step (g := State.finalize_evolves _ _)
    | with_reducible apply Evolves.part_same
    | ((with_reducible apply Evolves.part_in); rfl)
    | with_reducible exact And.intro rfl (And.intro rfl rfl)
    | (show _ = _; rfl)
    | with_reducible apply Evolves.ite
    | dsimp only
    | split
    | with_reducible apply Evolves.update

theorem State.layerTest_evolves (s : State) (x) (cycle) (remaining) :
    Evolves [.regs, .free, .out, .heldOut, .tick, .seg, .me, .stl, .clo, .host, .hlt, .bel]
      s (State.layerTest s x cycle remaining) := by
  unfold State.layerTest
  repeat' first
    | with_reducible apply Evolves.refl
    | with_reducible apply Evolves.step (g := State.contribute_evolves _ _ _ _)
    | with_reducible apply Evolves.step (g := State.suppress_evolves _ _)
    | with_reducible apply Evolves.step (g := State.topCross_evolves _)
    | with_reducible apply Evolves.step (g := State.finalize_evolves _ _)
    | with_reducible apply Evolves.step (g := State.layerRequest_evolves _ _ _ _ _ _)
    | with_reducible apply Evolves.part_same
    | ((with_reducible apply Evolves.part_in); rfl)
    | with_reducible exact And.intro rfl (And.intro rfl rfl)
    | (show _ = _; rfl)
    | with_reducible apply Evolves.ite
    | dsimp only
    | split
    | with_reducible apply Evolves.update

theorem State.freed_evolves (s : State) (time) (remaining) :
    Evolves [.seg] s (State.freed s time remaining).1 := by
  unfold State.freed
  repeat' first
    | with_reducible apply Evolves.refl
    | with_reducible apply Evolves.part_same
    | ((with_reducible apply Evolves.part_in); rfl)
    | with_reducible exact And.intro rfl (And.intro rfl rfl)
    | (show _ = _; rfl)
    | with_reducible apply Evolves.ite
    | dsimp only
    | split
    | with_reducible apply Evolves.update

theorem State.convJob_evolves (s : State) (j) :
    Evolves [.regs, .mem, .free, .out, .heldOut, .tick, .seg, .me, .stl, .hbm, .clo, .host, .hlt, .bel]
      s (State.convJob s j).1 := by
  unfold State.convJob
  repeat' first
    | with_reducible apply Evolves.refl
    | with_reducible apply Evolves.step (g := State.setGen_evolves _ _ _)
    | with_reducible apply Evolves.step (g := State.request_evolves _ _ _ _)
    | with_reducible apply Evolves.step (g := State.topCross_evolves _)
    | with_reducible apply Evolves.step (g := State.countConv_evolves _ _ _)
    | with_reducible apply Evolves.step (g := State.releaseSeg_evolves _ _ _ _)
    | with_reducible apply Evolves.step (g := State.layerTest_evolves _ _ _ _)
    | with_reducible apply Evolves.step (g := State.freed_evolves _ _ _)
    | with_reducible apply Evolves.part_same
    | ((with_reducible apply Evolves.part_in); rfl)
    | with_reducible exact And.intro rfl (And.intro rfl rfl)
    | (show _ = _; rfl)
    | with_reducible apply Evolves.ite
    | dsimp only
    | split
    | with_reducible apply Evolves.update

theorem State.runJobs_evolves (s : State) (n) (js) :
    Evolves [.regs, .mem, .free, .out, .heldOut, .tick, .seg, .me, .stl, .hbm, .clo, .host, .hlt,
        .bel] s (State.runJobs s n js) := by
  induction n generalizing s js with
  | zero => exact Evolves.refl s
  | succ n ih =>
    unfold State.runJobs
    split
    · exact Evolves.refl s
    · exact ((s.convJob_evolves _).widen (Q := [.regs, .mem, .free, .out, .heldOut, .tick, .seg, .me, .stl, .hbm, .clo,
        .host, .hlt, .bel]) rfl).step (ih ..) rfl

theorem State.layerResult_evolves (s : State) (plot) (asked) (cycle) (remaining) :
    Evolves [.regs, .mem, .free, .out, .heldOut, .tick, .seg, .me, .stl, .hbm, .clo, .host, .hlt, .bel]
      s (State.layerResult s plot asked cycle remaining) := by
  unfold State.layerResult
  repeat' first
    | with_reducible apply Evolves.refl
    | with_reducible apply Evolves.step (g := State.finalize_evolves _ _)
    | with_reducible apply Evolves.step (g := State.layerRequest_evolves _ _ _ _ _ _)
    | with_reducible apply Evolves.step (g := State.freed_evolves _ _ _)
    | with_reducible apply Evolves.step (g := State.runJobs_evolves _ _ _)
    | with_reducible apply Evolves.part_same
    | ((with_reducible apply Evolves.part_in); rfl)
    | with_reducible exact And.intro rfl (And.intro rfl rfl)
    | (show _ = _; rfl)
    | with_reducible apply Evolves.ite
    | dsimp only
    | split
    | with_reducible apply Evolves.update

theorem State.fmtClr_evolves (s : State) (same) :
    Evolves [.regs] s (State.fmtClr s same) := by
  unfold State.fmtClr
  repeat' first
    | with_reducible apply Evolves.refl
    | with_reducible apply Evolves.step (g := State.zeroRegs_evolves _ _)
    | with_reducible apply Evolves.step (g := State.sameCycle_evolves _ _)
    | with_reducible apply Evolves.part_same
    | ((with_reducible apply Evolves.part_in); rfl)
    | with_reducible exact And.intro rfl (And.intro rfl rfl)
    | (show _ = _; rfl)
    | with_reducible apply Evolves.ite
    | dsimp only
    | split
    | with_reducible apply Evolves.update

theorem State.qntClr_evolves (s : State) (same) :
    Evolves [.regs] s (State.qntClr s same) := by
  unfold State.qntClr
  repeat' first
    | with_reducible apply Evolves.refl
    | with_reducible apply Evolves.step (g := State.zeroRegs_evolves _ _)
    | with_reducible apply Evolves.step (g := State.sameCycle_evolves _ _)
    | with_reducible apply Evolves.part_same
    | ((with_reducible apply Evolves.part_in); rfl)
    | with_reducible exact And.intro rfl (And.intro rfl rfl)
    | (show _ = _; rfl)
    | with_reducible apply Evolves.ite
    | dsimp only
    | split
    | with_reducible apply Evolves.update

theorem State.qntStatClr_evolves (s : State) (same) :
    Evolves [.regs] s (State.qntStatClr s same) := by
  unfold State.qntStatClr
  repeat' first
    | with_reducible apply Evolves.refl
    | with_reducible apply Evolves.step (g := State.zeroRegs_evolves _ _)
    | with_reducible apply Evolves.step (g := State.sameCycle_evolves _ _)
    | with_reducible apply Evolves.part_same
    | ((with_reducible apply Evolves.part_in); rfl)
    | with_reducible exact And.intro rfl (And.intro rfl rfl)
    | (show _ = _; rfl)
    | with_reducible apply Evolves.ite
    | dsimp only
    | split
    | with_reducible apply Evolves.update

/-! ## Vector -/

theorem State.setMask_evolves (s : State) (core) (k) (m) :
    Evolves [.ve] s (State.setMask s core k m) := by
  unfold State.setMask
  repeat' first
    | with_reducible apply Evolves.refl
    | with_reducible apply Evolves.part_same
    | ((with_reducible apply Evolves.part_in); rfl)
    | with_reducible exact And.intro rfl (And.intro rfl rfl)
    | (show _ = _; rfl)
    | with_reducible apply Evolves.ite
    | dsimp only
    | split
    | with_reducible apply Evolves.update

theorem State.setLanes_evolves (s : State) (core) (n) (ls) :
    Evolves [.ve] s (State.setLanes s core n ls) := by
  unfold State.setLanes
  repeat' first
    | with_reducible apply Evolves.refl
    | with_reducible apply Evolves.step (P := [.ve]) (g := Evolves.foldl (fun _ _ => ?_) _ _)
    | (intro _)
    | with_reducible apply Evolves.part_same
    | ((with_reducible apply Evolves.part_in); rfl)
    | with_reducible exact And.intro rfl (And.intro rfl rfl)
    | (show _ = _; rfl)
    | with_reducible apply Evolves.ite
    | dsimp only
    | split
    | with_reducible apply Evolves.update

theorem State.setElem_evolves (s : State) (f) (core) (n) (i) (raw) :
    Evolves [.ve] s (State.setElem s f core n i raw) := by
  unfold State.setElem
  repeat' first
    | with_reducible apply Evolves.refl
    | with_reducible apply Evolves.step (g := State.setLanes_evolves _ _ _ _)
    | with_reducible apply Evolves.part_same
    | ((with_reducible apply Evolves.part_in); rfl)
    | with_reducible exact And.intro rfl (And.intro rfl rfl)
    | (show _ = _; rfl)
    | with_reducible apply Evolves.ite
    | dsimp only
    | split
    | with_reducible apply Evolves.update

theorem State.writeReg_evolves (s : State) (f) (core) (n) (i) (x1) :
    Evolves [.ve] s (State.writeReg s f core n i x1) := by
  fun_induction State.writeReg s f core n i x1
  all_goals repeat' first
    | with_reducible apply Evolves.refl
    | with_reducible assumption
    | with_reducible apply Evolves.step (g := State.setElem_evolves _ _ _ _ _ _)
    | with_reducible apply Evolves.step (g := by assumption)
    | with_reducible apply Evolves.part_same
    | ((with_reducible apply Evolves.part_in); rfl)
    | with_reducible exact And.intro rfl (And.intro rfl rfl)
    | (show _ = _; rfl)
    | with_reducible apply Evolves.ite
    | dsimp only
    | split
    | with_reducible apply Evolves.update

theorem State.writeBuf_evolves (s : State) (f) (core) (b) (vec) (i) (x1) :
    Evolves [.ve] s (State.writeBuf s f core b vec i x1) := by
  fun_induction State.writeBuf s f core b vec i x1
  all_goals repeat' first
    | with_reducible apply Evolves.refl
    | with_reducible assumption
    | with_reducible apply Evolves.step (P := [.ve]) (g := Evolves.foldl (fun _ _ => ?_) _ _)
    | with_reducible apply Evolves.step (g := by assumption)
    | (intro _)
    | with_reducible apply Evolves.part_same
    | ((with_reducible apply Evolves.part_in); rfl)
    | with_reducible exact And.intro rfl (And.intro rfl rfl)
    | (show _ = _; rfl)
    | with_reducible apply Evolves.ite
    | dsimp only
    | split
    | with_reducible apply Evolves.update

theorem State.writeStream_evolves (s : State) (f) (core) (offset) (i) (x1) :
    Evolves [.regs, .mem, .out, .heldOut, .hbm, .host, .bel] s (State.writeStream s f core offset i x1) := by
  fun_induction State.writeStream s f core offset i x1
  all_goals repeat' first
    | with_reducible apply Evolves.refl
    | with_reducible assumption
    | with_reducible apply Evolves.step (g := State.devWrite_evolves _ _ _ _)
    | with_reducible apply Evolves.step (g := by assumption)
    | with_reducible apply Evolves.part_same
    | ((with_reducible apply Evolves.part_in); rfl)
    | with_reducible exact And.intro rfl (And.intro rfl rfl)
    | (show _ = _; rfl)
    | with_reducible apply Evolves.ite
    | dsimp only
    | split
    | with_reducible apply Evolves.update

theorem State.veFlag_evolves (s : State) (core) (fl) :
    Evolves [.regs] s (State.veFlag s core fl) := by
  unfold State.veFlag
  repeat' first
    | with_reducible apply Evolves.refl
    | with_reducible apply Evolves.step (g := State.orReg_evolves _ _ _)
    | with_reducible apply Evolves.part_same
    | ((with_reducible apply Evolves.part_in); rfl)
    | with_reducible exact And.intro rfl (And.intro rfl rfl)
    | (show _ = _; rfl)
    | with_reducible apply Evolves.ite
    | dsimp only
    | split
    | with_reducible apply Evolves.update

theorem State.writeResult_evolves (s : State) (c) (core) (n) (r) (e) (x) (v) :
    Evolves [.ve] s (State.writeResult s c core n r e x v).1 := by
  unfold State.writeResult
  repeat' first
    | with_reducible apply Evolves.refl
    | with_reducible apply Evolves.step (g := State.setLanes_evolves _ _ _ _)
    | with_reducible apply Evolves.step (g := State.setElem_evolves _ _ _ _ _ _)
    | with_reducible apply Evolves.part_same
    | ((with_reducible apply Evolves.part_in); rfl)
    | with_reducible exact And.intro rfl (And.intro rfl rfl)
    | (show _ = _; rfl)
    | with_reducible apply Evolves.ite
    | dsimp only
    | split
    | with_reducible apply Evolves.update

theorem State.writeResults_evolves (s : State) (c) (core) (n) (r) (e) (v) (l) :
    Evolves [.ve] s (State.writeResults s c core n r e v l).1 := by
  induction l generalizing s e v with
  | nil => exact Evolves.refl s
  | cons x l ih => exact (s.writeResult_evolves c core n r e x v).step (ih ..) rfl

theorem chainAt_evolves (core) (c) (base) (x : ChainRun) (j) :
    Evolves [.regs, .mem, .out, .heldOut, .ve, .hbm, .host, .bel] x.s (chainAt core c base x j).s := by
  unfold chainAt
  dsimp only
  split
  · split
    · exact Evolves.refl _
    · exact (State.writeResults_evolves ..).widen rfl
  · split
    · exact (State.setMask_evolves ..).widen rfl
    · exact (State.writeReg_evolves ..).widen rfl
    · exact (State.writeBuf_evolves ..).widen rfl
    · exact (State.writeStream_evolves ..).widen rfl
    · exact Evolves.refl _
    · exact Evolves.refl _

theorem chainAt_foldl_evolves (core) (c) (base) (x : ChainRun) (l : List Nat) :
    Evolves [.regs, .mem, .out, .heldOut, .ve, .hbm, .host, .bel] x.s (l.foldl (chainAt core c base) x).s := by
  induction l generalizing x with
  | nil => exact Evolves.refl _
  | cons j l ih => exact (chainAt_evolves core c base x j).step (ih _) rfl

theorem finishAlong_evolves (core) (c) (r) (base) (x : ChainRun) :
    Evolves [.ve] x.s (finishAlong core c r base x).s := by
  unfold finishAlong
  dsimp only
  refine Evolves.update ((x.s.writeResults_evolves c core (destReg c.dst) r 0 x.v x.acc).step
    (State.setMask_evolves _ _ _ _) rfl) ?_ ?_ ?_ ?_ ?_ ?_ ?_ ?_ ?_ ?_ ?_ ?_ ?_ ?_ ?_ ?_ ?_ ?_ ?_ ?_ ?_ ?_ ?_ ?_
  all_goals first
    | with_reducible exact Evolves.part_same
    | exact Evolves.part_in rfl
    | with_reducible rfl
    | with_reducible exact And.intro rfl (And.intro rfl rfl)

theorem State.stageStore_evolves (s : State) (core) (p) (cols) :
    Evolves [.regs, .mem, .free, .out, .heldOut, .seg, .hbm, .host, .bel] s (State.stageStore s core p cols) := by
  unfold State.stageStore
  repeat' first
    | with_reducible apply Evolves.refl
    | with_reducible apply Evolves.step (g := State.nfTile_evolves _ _ _ _ _ _ _)
    | with_reducible apply Evolves.step (g := State.stageTile_evolves _ _ _ _ _)
    | with_reducible apply Evolves.step (g := State.veFlag_evolves _ _ _)
    | with_reducible apply Evolves.part_same
    | ((with_reducible apply Evolves.part_in); rfl)
    | with_reducible exact And.intro rfl (And.intro rfl rfl)
    | (show _ = _; rfl)
    | with_reducible apply Evolves.ite
    | dsimp only
    | split
    | with_reducible apply Evolves.update

theorem State.stageStores_evolves (s : State) (core) (p) (cols) (x1) :
    Evolves [.regs, .mem, .free, .out, .heldOut, .seg, .hbm, .host, .bel] s (State.stageStores s core p cols x1) := by
  fun_induction State.stageStores s core p cols x1
  all_goals repeat' first
    | with_reducible apply Evolves.refl
    | with_reducible assumption
    | with_reducible apply Evolves.step (g := State.stageStore_evolves _ _ _ _)
    | with_reducible apply Evolves.step (g := by assumption)
    | with_reducible apply Evolves.part_same
    | ((with_reducible apply Evolves.part_in); rfl)
    | with_reducible exact And.intro rfl (And.intro rfl rfl)
    | (show _ = _; rfl)
    | with_reducible apply Evolves.ite
    | dsimp only
    | split
    | with_reducible apply Evolves.update

theorem State.collisions_evolves (s : State) (core) (x1) :
    Evolves [.regs, .mem, .out, .heldOut, .hbm, .host, .bel] s (State.collisions s core x1) := by
  fun_induction State.collisions s core x1
  all_goals repeat' first
    | with_reducible apply Evolves.refl
    | with_reducible assumption
    | with_reducible apply Evolves.step (g := State.event_evolves _ _ _)
    | with_reducible apply Evolves.step (g := State.devWrite_evolves _ _ _ _)
    | with_reducible apply Evolves.step (g := by assumption)
    | with_reducible apply Evolves.part_same
    | ((with_reducible apply Evolves.part_in); rfl)
    | with_reducible exact And.intro rfl (And.intro rfl rfl)
    | (show _ = _; rfl)
    | with_reducible apply Evolves.ite
    | dsimp only
    | split
    | with_reducible apply Evolves.update

theorem State.countChain_evolves (s : State) (core) (c) (v) :
    Evolves [.regs, .bel] s (State.countChain s core c v) := by
  unfold State.countChain
  repeat' first
    | with_reducible apply Evolves.refl
    | with_reducible apply Evolves.step (g := State.count_evolves _ _ _ _)
    | with_reducible apply Evolves.step (g := State.bel64_evolves _ _ _)
    | with_reducible apply Evolves.step (g := State.tally_evolves _ _)
    | with_reducible apply Evolves.step (g := State.portShare_evolves _ _ _ _)
    | with_reducible apply Evolves.step (g := State.veFlag_evolves _ _ _)
    | with_reducible apply Evolves.part_same
    | ((with_reducible apply Evolves.part_in); rfl)
    | with_reducible exact And.intro rfl (And.intro rfl rfl)
    | (show _ = _; rfl)
    | with_reducible apply Evolves.ite
    | dsimp only
    | split
    | with_reducible apply Evolves.update

theorem chainBody_evolves (s : State) (core) (c) : Evolves [.regs, .mem, .out, .heldOut, .ve, .hbm, .host, .bel]
    s (chainBody s core c).s := by
  unfold chainBody
  have h (b) (l) := chainAt_foldl_evolves core c b (chainStart s core c) l
  dsimp only
  split
  · split
    · exact (h _ _).step (finishAlong_evolves ..) rfl
    · exact h _ _
  · exact h _ _

theorem State.chainOut_evolves (s : State) (core) (c) (staged) :
    Evolves [.regs, .mem, .free, .out, .heldOut, .seg, .hbm, .clo, .host, .bel] s (State.chainOut s core c staged) := by
  unfold State.chainOut
  repeat' first
    | with_reducible apply Evolves.refl
    | with_reducible apply Evolves.step (g := State.contribute_evolves _ _ _ _)
    | with_reducible apply Evolves.step (g := State.stageStores_evolves _ _ _ _ _)
    | with_reducible apply Evolves.part_same
    | ((with_reducible apply Evolves.part_in); rfl)
    | with_reducible exact And.intro rfl (And.intro rfl rfl)
    | (show _ = _; rfl)
    | with_reducible apply Evolves.ite
    | dsimp only
    | split
    | with_reducible apply Evolves.update

theorem State.runChain_evolves (s : State) (core) (c) :
    Evolves [.regs, .mem, .free, .out, .heldOut, .seg, .ve, .hbm, .clo, .host, .bel] s (State.runChain s core c) := by
  unfold State.runChain
  repeat' first
    | with_reducible apply Evolves.refl
    | with_reducible apply Evolves.step (g := State.setGen_evolves _ _ _)
    | with_reducible apply Evolves.step (g := State.collisions_evolves _ _ _)
    | with_reducible apply Evolves.step (g := State.countChain_evolves _ _ _ _)
    | with_reducible apply Evolves.step (g := chainBody_evolves _ _ _)
    | with_reducible apply Evolves.step (g := State.chainOut_evolves _ _ _ _)
    | with_reducible apply Evolves.part_same
    | ((with_reducible apply Evolves.part_in); rfl)
    | with_reducible exact And.intro rfl (And.intro rfl rfl)
    | (show _ = _; rfl)
    | with_reducible apply Evolves.ite
    | dsimp only
    | split
    | with_reducible apply Evolves.update

theorem State.countMaskOp_evolves (s : State) (core) :
    Evolves [.regs, .bel] s (State.countMaskOp s core) := by
  unfold State.countMaskOp
  repeat' first
    | with_reducible apply Evolves.refl
    | with_reducible apply Evolves.step (g := State.count_evolves _ _ _ _)
    | with_reducible apply Evolves.step (g := State.bel64_evolves _ _ _)
    | with_reducible apply Evolves.part_same
    | ((with_reducible apply Evolves.part_in); rfl)
    | with_reducible exact And.intro rfl (And.intro rfl rfl)
    | (show _ = _; rfl)
    | with_reducible apply Evolves.ite
    | dsimp only
    | split
    | with_reducible apply Evolves.update

theorem State.runIssue_evolves (s : State) (core) (x1) :
    Evolves [.regs, .mem, .free, .out, .heldOut, .seg, .ve, .hbm, .clo, .host, .bel] s (State.runIssue s core x1) := by
  unfold State.runIssue
  repeat' first
    | with_reducible apply Evolves.refl
    | with_reducible apply Evolves.step (g := State.devWrite_evolves _ _ _ _)
    | with_reducible apply Evolves.step (g := State.combineExperts_evolves _ _)
    | with_reducible apply Evolves.step (g := State.setMask_evolves _ _ _ _)
    | with_reducible apply Evolves.step (g := State.runChain_evolves _ _ _)
    | with_reducible apply Evolves.step (g := State.countMaskOp_evolves _ _)
    | with_reducible apply Evolves.part_same
    | ((with_reducible apply Evolves.part_in); rfl)
    | with_reducible exact And.intro rfl (And.intro rfl rfl)
    | (show _ = _; rfl)
    | with_reducible apply Evolves.ite
    | dsimp only
    | split
    | with_reducible apply Evolves.update

theorem State.setVeWaiting_evolves (s : State) (core) (q) :
    Evolves [.ve] s (State.setVeWaiting s core q) := by
  unfold State.setVeWaiting
  repeat' first
    | with_reducible apply Evolves.refl
    | with_reducible apply Evolves.part_same
    | ((with_reducible apply Evolves.part_in); rfl)
    | with_reducible exact And.intro rfl (And.intro rfl rfl)
    | (show _ = _; rfl)
    | with_reducible apply Evolves.ite
    | dsimp only
    | split
    | with_reducible apply Evolves.update

theorem State.issueWaiting_evolves (s : State) (core) (x1) :
    Evolves [.regs, .mem, .free, .out, .heldOut, .seg, .ve, .hbm, .clo, .host, .bel] s (State.issueWaiting s core x1) := by
  fun_induction State.issueWaiting s core x1
  all_goals repeat' first
    | with_reducible apply Evolves.refl
    | with_reducible assumption
    | with_reducible apply Evolves.step (g := State.runIssue_evolves _ _ _)
    | with_reducible apply Evolves.step (g := State.setVeWaiting_evolves _ _ _)
    | with_reducible apply Evolves.step (g := by assumption)
    | with_reducible apply Evolves.part_same
    | ((with_reducible apply Evolves.part_in); rfl)
    | with_reducible exact And.intro rfl (And.intro rfl rfl)
    | (show _ = _; rfl)
    | with_reducible apply Evolves.ite
    | dsimp only
    | split
    | with_reducible apply Evolves.update

theorem State.readyUp_evolves (s : State) (core) (i) (n) :
    Evolves [.regs, .mem, .free, .out, .heldOut, .seg, .ve, .hbm, .clo, .host, .bel] s (State.readyUp s core i n) := by
  unfold State.readyUp
  repeat' first
    | with_reducible apply Evolves.refl
    | with_reducible apply Evolves.step (g := State.issueWaiting_evolves _ _ _)
    | with_reducible apply Evolves.part_same
    | ((with_reducible apply Evolves.part_in); rfl)
    | with_reducible exact And.intro rfl (And.intro rfl rfl)
    | (show _ = _; rfl)
    | with_reducible apply Evolves.ite
    | dsimp only
    | split
    | with_reducible apply Evolves.update

theorem State.failVectors_evolves (s : State) (x1) :
    Evolves [.regs, .out, .heldOut, .host, .hlt] s (State.failVectors s x1) := by
  fun_induction State.failVectors s x1
  all_goals repeat' first
    | with_reducible apply Evolves.refl
    | with_reducible assumption
    | with_reducible apply Evolves.step (g := State.setBit_evolves _ _ _ _)
    | with_reducible apply Evolves.step (g := State.ledgerEvent_evolves _ _ _ _ _ _)
    | with_reducible apply Evolves.step (g := by assumption)
    | with_reducible apply Evolves.part_same
    | ((with_reducible apply Evolves.part_in); rfl)
    | with_reducible exact And.intro rfl (And.intro rfl rfl)
    | (show _ = _; rfl)
    | with_reducible apply Evolves.ite
    | dsimp only
    | split
    | with_reducible apply Evolves.update

theorem State.veClr_evolves (s : State) (same) :
    Evolves [.regs] s (State.veClr s same) := by
  unfold State.veClr
  repeat' first
    | with_reducible apply Evolves.refl
    | with_reducible apply Evolves.step (g := State.zeroBanks_evolves _ _)
    | with_reducible apply Evolves.step (g := State.sameCycle_evolves _ _)
    | with_reducible apply Evolves.part_same
    | ((with_reducible apply Evolves.part_in); rfl)
    | with_reducible exact And.intro rfl (And.intro rfl rfl)
    | (show _ = _; rfl)
    | with_reducible apply Evolves.ite
    | dsimp only
    | split
    | with_reducible apply Evolves.update

theorem State.veFlagsClr_evolves (s : State) (same) :
    Evolves [.regs] s (State.veFlagsClr s same) := by
  unfold State.veFlagsClr
  repeat' first
    | with_reducible apply Evolves.refl
    | with_reducible apply Evolves.step (g := State.zeroBanks_evolves _ _)
    | with_reducible apply Evolves.step (g := State.sameCycle_evolves _ _)
    | with_reducible apply Evolves.part_same
    | ((with_reducible apply Evolves.part_in); rfl)
    | with_reducible exact And.intro rfl (And.intro rfl rfl)
    | (show _ = _; rfl)
    | with_reducible apply Evolves.ite
    | dsimp only
    | split
    | with_reducible apply Evolves.update

/-! ## Hbm -/

theorem State.suspect_evolves (s : State) (ch) (detail) :
    Evolves [.regs, .out, .heldOut, .host, .hlt] s (State.suspect s ch detail) := by
  unfold State.suspect
  repeat' first
    | with_reducible apply Evolves.refl
    | with_reducible apply Evolves.step (g := State.setBit_evolves _ _ _ _)
    | with_reducible apply Evolves.step (g := State.event_evolves _ _ _)
    | with_reducible apply Evolves.step (g := State.ledgerEvent_evolves _ _ _ _ _ _)
    | with_reducible apply Evolves.part_same
    | ((with_reducible apply Evolves.part_in); rfl)
    | with_reducible exact And.intro rfl (And.intro rfl rfl)
    | (show _ = _; rfl)
    | with_reducible apply Evolves.ite
    | dsimp only
    | split
    | with_reducible apply Evolves.update

theorem State.queueWriteBack_evolves (s : State) (ch) (line) (bytes) :
    Evolves [.regs, .out, .heldOut, .hbm, .host] s (State.queueWriteBack s ch line bytes) := by
  unfold State.queueWriteBack
  repeat' first
    | with_reducible apply Evolves.refl
    | with_reducible apply Evolves.step (g := State.count_evolves _ _ _ _)
    | with_reducible apply Evolves.step (g := State.event_evolves _ _ _)
    | with_reducible apply Evolves.step (g := State.setWriteBacks_evolves _ _ _)
    | with_reducible apply Evolves.part_same
    | ((with_reducible apply Evolves.part_in); rfl)
    | with_reducible exact And.intro rfl (And.intro rfl rfl)
    | (show _ = _; rfl)
    | with_reducible apply Evolves.ite
    | dsimp only
    | split
    | with_reducible apply Evolves.update

theorem State.corrected_evolves (s : State) (ch) (o) (symbols) (bytes) :
    Evolves [.regs, .free, .out, .heldOut, .hbm, .host, .hlt, .bel] s (State.corrected s ch o symbols bytes) := by
  unfold State.corrected
  repeat' first
    | with_reducible apply Evolves.refl
    | with_reducible apply Evolves.step (g := State.count_evolves _ _ _ _)
    | with_reducible apply Evolves.step (g := State.bel64_evolves _ _ _)
    | with_reducible apply Evolves.step (g := State.live_evolves _ _ _)
    | with_reducible apply Evolves.step (g := State.trace_evolves _ _ _ _ _)
    | with_reducible apply Evolves.step (g := State.suspect_evolves _ _ _)
    | with_reducible apply Evolves.step (g := State.queueWriteBack_evolves _ _ _ _)
    | with_reducible apply Evolves.part_same
    | ((with_reducible apply Evolves.part_in); rfl)
    | with_reducible exact And.intro rfl (And.intro rfl rfl)
    | (show _ = _; rfl)
    | with_reducible apply Evolves.ite
    | dsimp only
    | split
    | with_reducible apply Evolves.update

theorem State.recordUe_evolves (s : State) (ch) (o) (who) :
    Evolves [.regs] s (State.recordUe s ch o who) := by
  unfold State.recordUe
  repeat' first
    | with_reducible apply Evolves.refl
    | with_reducible apply Evolves.step (g := State.setRegN_evolves _ _ _)
    | with_reducible apply Evolves.part_same
    | ((with_reducible apply Evolves.part_in); rfl)
    | with_reducible exact And.intro rfl (And.intro rfl rfl)
    | (show _ = _; rfl)
    | with_reducible apply Evolves.ite
    | dsimp only
    | split
    | with_reducible apply Evolves.update

theorem State.setFlights_evolves (s : State) (e) (fs) :
    Evolves [.host] s (State.setFlights s e fs) := by
  unfold State.setFlights
  repeat' first
    | with_reducible apply Evolves.refl
    | with_reducible apply Evolves.part_same
    | ((with_reducible apply Evolves.part_in); rfl)
    | with_reducible exact And.intro rfl (And.intro rfl rfl)
    | (show _ = _; rfl)
    | with_reducible apply Evolves.ite
    | dsimp only
    | split
    | with_reducible apply Evolves.update

theorem State.deliver_evolves (s : State) (ch) (o) (addr) (who) (bytes) (ue) :
    Evolves [.mem, .hbm, .host] s (State.deliver s ch o addr who bytes ue) := by
  unfold State.deliver
  repeat' first
    | with_reducible apply Evolves.refl
    | with_reducible apply Evolves.step (g := State.putBytes_evolves _ _ _)
    | with_reducible apply Evolves.step (g := State.dropBad_evolves _ _ _)
    | with_reducible apply Evolves.step (g := State.flushOver_evolves _ _ _ _)
    | with_reducible apply Evolves.step (g := State.setFlights_evolves _ _ _)
    | with_reducible apply Evolves.part_same
    | ((with_reducible apply Evolves.part_in); rfl)
    | with_reducible exact And.intro rfl (And.intro rfl rfl)
    | (show _ = _; rfl)
    | with_reducible apply Evolves.ite
    | dsimp only
    | split
    | with_reducible apply Evolves.update

theorem State.ueConsequence_evolves (s : State) (ch) (addr) (bytes) (via) (x1) :
    Evolves [.regs, .free, .out, .heldOut, .tick, .stl, .host, .hlt, .bel] s (State.ueConsequence s ch addr bytes via x1) := by
  unfold State.ueConsequence
  repeat' first
    | with_reducible apply Evolves.refl
    | with_reducible apply Evolves.step (g := State.event_evolves _ _ _)
    | with_reducible apply Evolves.step (g := State.ledgerFatal_evolves _ _ _)
    | with_reducible apply Evolves.step (g := State.stopReports_evolves _)
    | with_reducible apply Evolves.step (g := State.spoil_evolves _ _)
    | with_reducible apply Evolves.step (g := State.setFlights_evolves _ _ _)
    | with_reducible apply Evolves.part_same
    | ((with_reducible apply Evolves.part_in); rfl)
    | with_reducible exact And.intro rfl (And.intro rfl rfl)
    | (show _ = _; rfl)
    | with_reducible apply Evolves.ite
    | dsimp only
    | split
    | with_reducible apply Evolves.update

theorem State.uncorrectable_evolves (s : State) (ch) (o) (addr) (via) (bytes) :
    Evolves [.regs, .mem, .free, .out, .heldOut, .tick, .stl, .hbm, .host, .hlt, .bel]
      s (State.uncorrectable s ch o addr via bytes) := by
  unfold State.uncorrectable
  refine Evolves.step ?_ (State.ueConsequence_evolves ..) rfl
  refine Evolves.step ?_ (State.deliver_evolves ..) rfl
  refine Evolves.step ?_ (State.suspect_evolves ..) rfl
  refine Evolves.step ?_ (State.trace_evolves ..) rfl
  refine Evolves.step ?_ (State.ledgerEvent_evolves ..) rfl
  refine Evolves.step ?_ (State.event_evolves ..) rfl
  refine Evolves.step ?_ (State.recordUe_evolves ..) rfl
  refine Evolves.step ?_ (State.live_evolves ..) rfl
  refine Evolves.step ?_ (State.bel64_evolves ..) rfl
  exact (State.count_evolves ..).widen rfl

theorem State.correctedFor_evolves (s : State) (ch) (o) (addr) (who) (found) :
    Evolves [.regs, .mem, .free, .out, .heldOut, .hbm, .host, .hlt, .bel] s (State.correctedFor s ch o addr who found) := by
  unfold State.correctedFor
  repeat' first
    | with_reducible apply Evolves.refl
    | with_reducible apply Evolves.step (g := State.corrected_evolves _ _ _ _ _)
    | with_reducible apply Evolves.step (g := State.deliver_evolves _ _ _ _ _ _ _)
    | with_reducible apply Evolves.part_same
    | ((with_reducible apply Evolves.part_in); rfl)
    | with_reducible exact And.intro rfl (And.intro rfl rfl)
    | (show _ = _; rfl)
    | with_reducible apply Evolves.ite
    | dsimp only
    | split
    | with_reducible apply Evolves.update

theorem State.flushLines_evolves (s : State) (ch) (line) (x1) :
    Evolves [.mem, .hbm] s (State.flushLines s ch line x1) := by
  fun_induction State.flushLines s ch line x1
  all_goals repeat' first
    | with_reducible apply Evolves.refl
    | with_reducible assumption
    | with_reducible apply Evolves.step (g := State.flushEntry_evolves _ _ _)
    | with_reducible apply Evolves.step (g := by assumption)
    | with_reducible apply Evolves.part_same
    | ((with_reducible apply Evolves.part_in); rfl)
    | with_reducible exact And.intro rfl (And.intro rfl rfl)
    | (show _ = _; rfl)
    | with_reducible apply Evolves.ite
    | dsimp only
    | split
    | with_reducible apply Evolves.update

theorem State.copyMap_evolves (s : State) :
    Evolves [.regs, .out, .heldOut, .hbm, .host] s (State.copyMap s) := by
  unfold State.copyMap
  repeat' first
    | with_reducible apply Evolves.refl
    | with_reducible apply Evolves.step (g := State.event_evolves _ _ _)
    | with_reducible apply Evolves.part_same
    | ((with_reducible apply Evolves.part_in); rfl)
    | with_reducible exact And.intro rfl (And.intro rfl rfl)
    | (show _ = _; rfl)
    | with_reducible apply Evolves.ite
    | dsimp only
    | split
    | with_reducible apply Evolves.update

theorem State.applyMap_evolves (s : State) :
    Evolves [.regs, .out, .heldOut, .hbm, .host] s (State.applyMap s) := by
  unfold State.applyMap
  repeat' first
    | with_reducible apply Evolves.refl
    | with_reducible apply Evolves.step (g := State.copyMap_evolves _)
    | with_reducible apply Evolves.part_same
    | ((with_reducible apply Evolves.part_in); rfl)
    | with_reducible exact And.intro rfl (And.intro rfl rfl)
    | (show _ = _; rfl)
    | with_reducible apply Evolves.ite
    | dsimp only
    | split
    | with_reducible apply Evolves.update

theorem State.noteMap_evolves (s : State) :
    Evolves [.image] s (State.noteMap s) := by
  unfold State.noteMap
  repeat' first
    | with_reducible apply Evolves.refl
    | with_reducible apply Evolves.part_same
    | ((with_reducible apply Evolves.part_in); rfl)
    | with_reducible exact And.intro rfl (And.intro rfl rfl)
    | (show _ = _; rfl)
    | with_reducible apply Evolves.ite
    | dsimp only
    | split
    | with_reducible apply Evolves.update

theorem State.mapBits_evolves (s : State) (k) (old) (new) (x1) :
    Evolves [.regs, .out, .heldOut, .hbm, .host, .hlt] s (State.mapBits s k old new x1) := by
  fun_induction State.mapBits s k old new x1
  all_goals repeat' first
    | with_reducible apply Evolves.refl
    | with_reducible assumption
    | with_reducible apply Evolves.step (g := State.ledgerEvent_evolves _ _ _ _ _ _)
    | with_reducible apply Evolves.step (g := by assumption)
    | with_reducible apply Evolves.part_same
    | ((with_reducible apply Evolves.part_in); rfl)
    | with_reducible exact And.intro rfl (And.intro rfl rfl)
    | (show _ = _; rfl)
    | with_reducible apply Evolves.ite
    | dsimp only
    | split
    | with_reducible apply Evolves.update

theorem State.mapWrite_evolves (s : State) (k) (value) :
    Evolves [.regs, .out, .heldOut, .image, .hbm, .host, .sbk, .hlt] s (State.mapWrite s k value) := by
  unfold State.mapWrite
  repeat' first
    | with_reducible apply Evolves.refl
    | with_reducible apply Evolves.step (g := State.seedAccept_evolves _ _ _)
    | with_reducible apply Evolves.step (g := State.applyMap_evolves _)
    | with_reducible apply Evolves.step (g := State.noteMap_evolves _)
    | with_reducible apply Evolves.step (g := State.mapBits_evolves _ _ _ _ _)
    | with_reducible apply Evolves.part_same
    | ((with_reducible apply Evolves.part_in); rfl)
    | with_reducible exact And.intro rfl (And.intro rfl rfl)
    | (show _ = _; rfl)
    | with_reducible apply Evolves.ite
    | dsimp only
    | split
    | with_reducible apply Evolves.update

theorem State.zeroChannel_evolves (s : State) (ch) : Evolves [.mem, .hbm] s (State.zeroChannel s ch) := by
  unfold State.zeroChannel
  refine Evolves.step (Evolves.step (Evolves.step ?_ (State.setWcb_evolves _ _ _) rfl) (State.setWriteBacks_evolves _ _ _) rfl) (State.dropBad_evolves _ _ _) rfl
  refine ⟨?_,
      fun h => storeWf_storeDrop 0 s.mem (fun a => decide (hbmKey ch 0 ≤ a) && decide (a < hbmKey ch 0 + chanBytes)) h, id, List.prefix_refl _, fun _ => Nat.le_refl _, Ledger.grows_refl _⟩
  intro p hp
  cases p <;> first | rfl | exact absurd (by decide) hp

theorem State.ownMap_evolves (s : State) (k) (v) :
    Evolves [.regs, .out, .heldOut, .image, .host, .sbk] s (State.ownMap s k v) := by
  unfold State.ownMap
  repeat' first
    | with_reducible apply Evolves.refl
    | with_reducible apply Evolves.step (g := State.seedAccept_evolves _ _ _)
    | with_reducible apply Evolves.step (g := State.noteMap_evolves _)
    | with_reducible apply Evolves.part_same
    | ((with_reducible apply Evolves.part_in); rfl)
    | with_reducible exact And.intro rfl (And.intro rfl rfl)
    | (show _ = _; rfl)
    | with_reducible apply Evolves.ite
    | dsimp only
    | split
    | with_reducible apply Evolves.update

theorem State.showShare_evolves (s : State) (k) (share) :
    Evolves [.regs] s (State.showShare s k share) := by
  unfold State.showShare
  repeat' first
    | with_reducible apply Evolves.refl
    | with_reducible apply Evolves.step (g := State.setFld_evolves _ _ _ _ _)
    | with_reducible apply Evolves.part_same
    | ((with_reducible apply Evolves.part_in); rfl)
    | with_reducible exact And.intro rfl (And.intro rfl rfl)
    | (show _ = _; rfl)
    | with_reducible apply Evolves.ite
    | dsimp only
    | split
    | with_reducible apply Evolves.update

theorem State.showTemp_evolves (s : State) (k) (theta) :
    Evolves [.regs, .hbm, .hlt] s (State.showTemp s k theta) := by
  unfold State.showTemp
  repeat' first
    | with_reducible apply Evolves.refl
    | with_reducible apply Evolves.step (g := State.setFld_evolves _ _ _ _ _)
    | with_reducible apply Evolves.step (g := State.liveMax_evolves _ _ _)
    | with_reducible apply Evolves.part_same
    | ((with_reducible apply Evolves.part_in); rfl)
    | with_reducible exact And.intro rfl (And.intro rfl rfl)
    | (show _ = _; rfl)
    | with_reducible apply Evolves.ite
    | dsimp only
    | split
    | with_reducible apply Evolves.update

theorem State.throttleCond_evolves (s : State) (k) (theta) (req) (h) :
    Evolves [.regs, .free, .out, .heldOut, .hbm, .host, .hlt, .bel] s (State.throttleCond s k theta req h) := by
  unfold State.throttleCond
  repeat' first
    | with_reducible apply Evolves.refl
    | with_reducible apply Evolves.step (g := State.event_evolves _ _ _)
    | with_reducible apply Evolves.step (g := State.trace_evolves _ _ _ _ _)
    | with_reducible apply Evolves.step (g := State.ledgerEvent_evolves _ _ _ _ _ _)
    | with_reducible apply Evolves.part_same
    | ((with_reducible apply Evolves.part_in); rfl)
    | with_reducible exact And.intro rfl (And.intro rfl rfl)
    | (show _ = _; rfl)
    | with_reducible apply Evolves.ite
    | dsimp only
    | split
    | with_reducible apply Evolves.update

theorem State.readTemp_evolves (s : State) (k) (theta) :
    Evolves [.regs, .free, .out, .heldOut, .hbm, .host, .hlt, .bel] s (State.readTemp s k theta) := by
  unfold State.readTemp
  repeat' first
    | with_reducible apply Evolves.refl
    | with_reducible apply Evolves.step (g := State.showShare_evolves _ _ _)
    | with_reducible apply Evolves.step (g := State.showTemp_evolves _ _ _)
    | with_reducible apply Evolves.step (g := State.throttleCond_evolves _ _ _ _ _)
    | with_reducible apply Evolves.part_same
    | ((with_reducible apply Evolves.part_in); rfl)
    | with_reducible exact And.intro rfl (And.intro rfl rfl)
    | (show _ = _; rfl)
    | with_reducible apply Evolves.ite
    | dsimp only
    | split
    | with_reducible apply Evolves.update

theorem State.readTemps_evolves (s : State) (k) (x1) :
    Evolves [.regs, .free, .out, .heldOut, .hbm, .host, .hlt, .bel] s (State.readTemps s k x1) := by
  fun_induction State.readTemps s k x1
  all_goals repeat' first
    | with_reducible apply Evolves.refl
    | with_reducible assumption
    | with_reducible apply Evolves.step (g := State.readTemp_evolves _ _ _)
    | with_reducible apply Evolves.step (g := by assumption)
    | with_reducible apply Evolves.part_same
    | ((with_reducible apply Evolves.part_in); rfl)
    | with_reducible exact And.intro rfl (And.intro rfl rfl)
    | (show _ = _; rfl)
    | with_reducible apply Evolves.ite
    | dsimp only
    | split
    | with_reducible apply Evolves.update

theorem State.applyShares_evolves (s : State) (x1) :
    Evolves [.regs] s (State.applyShares s x1) := by
  fun_induction State.applyShares s x1
  all_goals repeat' first
    | with_reducible apply Evolves.refl
    | with_reducible assumption
    | with_reducible apply Evolves.step (g := State.showShare_evolves _ _ _)
    | with_reducible apply Evolves.step (g := by assumption)
    | with_reducible apply Evolves.part_same
    | ((with_reducible apply Evolves.part_in); rfl)
    | with_reducible exact And.intro rfl (And.intro rfl rfl)
    | (show _ = _; rfl)
    | with_reducible apply Evolves.ite
    | dsimp only
    | split
    | with_reducible apply Evolves.update

theorem State.memRequest_evolves (s : State) (h) (ctrl) :
    Evolves [.regs, .adm] s (State.memRequest s h ctrl) := by
  unfold State.memRequest
  repeat' first
    | with_reducible apply Evolves.refl
    | with_reducible apply Evolves.step (g := State.setTestStatus_evolves _ _ _)
    | with_reducible apply Evolves.step (g := State.requestTest_evolves _ _)
    | with_reducible apply Evolves.part_same
    | ((with_reducible apply Evolves.part_in); rfl)
    | with_reducible exact And.intro rfl (And.intro rfl rfl)
    | (show _ = _; rfl)
    | with_reducible apply Evolves.ite
    | dsimp only
    | split
    | with_reducible apply Evolves.update

theorem State.takeCtrl_evolves (s : State) (o) (ctrl) :
    Evolves [.regs] s (State.takeCtrl s o ctrl) := by
  unfold State.takeCtrl
  repeat' first
    | with_reducible apply Evolves.refl
    | with_reducible apply Evolves.step (g := State.setFld_evolves _ _ _ _ _)
    | with_reducible apply Evolves.part_same
    | ((with_reducible apply Evolves.part_in); rfl)
    | with_reducible exact And.intro rfl (And.intro rfl rfl)
    | (show _ = _; rfl)
    | with_reducible apply Evolves.ite
    | dsimp only
    | split
    | with_reducible apply Evolves.update

theorem State.takeScan_evolves (s : State) (ctrl) :
    Evolves [.regs] s (State.takeScan s ctrl) := by
  unfold State.takeScan
  repeat' first
    | with_reducible apply Evolves.refl
    | with_reducible apply Evolves.step (g := State.setFld_evolves _ _ _ _ _)
    | with_reducible apply Evolves.part_same
    | ((with_reducible apply Evolves.part_in); rfl)
    | with_reducible exact And.intro rfl (And.intro rfl rfl)
    | (show _ = _; rfl)
    | with_reducible apply Evolves.ite
    | dsimp only
    | split
    | with_reducible apply Evolves.update

theorem State.refuseMarch_evolves (s : State) :
    Evolves [.regs] s (State.refuseMarch s) := by
  unfold State.refuseMarch
  repeat' first
    | with_reducible apply Evolves.refl
    | with_reducible apply Evolves.step (g := State.setFld_evolves _ _ _ _ _)
    | with_reducible apply Evolves.step (g := State.setTestStatus_evolves _ _ _)
    | with_reducible apply Evolves.part_same
    | ((with_reducible apply Evolves.part_in); rfl)
    | with_reducible exact And.intro rfl (And.intro rfl rfl)
    | (show _ = _; rfl)
    | with_reducible apply Evolves.ite
    | dsimp only
    | split
    | with_reducible apply Evolves.update

theorem State.newMemTest_evolves (s : State) (ctrl) :
    Evolves [.regs, .hbm] s (State.newMemTest s ctrl) := by
  unfold State.newMemTest
  repeat' first
    | with_reducible apply Evolves.refl
    | with_reducible apply Evolves.step (g := State.setFld_evolves _ _ _ _ _)
    | with_reducible apply Evolves.part_same
    | ((with_reducible apply Evolves.part_in); rfl)
    | with_reducible exact And.intro rfl (And.intro rfl rfl)
    | (show _ = _; rfl)
    | with_reducible apply Evolves.ite
    | dsimp only
    | split
    | with_reducible apply Evolves.update

theorem State.memTestStart_evolves (s : State) (ctrl) :
    Evolves [.regs, .adm, .hbm] s (State.memTestStart s ctrl) := by
  unfold State.memTestStart
  repeat' first
    | with_reducible apply Evolves.refl
    | with_reducible apply Evolves.step (g := State.memRequest_evolves _ _ _)
    | with_reducible apply Evolves.step (g := State.takeCtrl_evolves _ _ _)
    | with_reducible apply Evolves.step (g := State.refuseMarch_evolves _)
    | with_reducible apply Evolves.step (g := State.newMemTest_evolves _ _)
    | with_reducible apply Evolves.part_same
    | ((with_reducible apply Evolves.part_in); rfl)
    | with_reducible exact And.intro rfl (And.intro rfl rfl)
    | (show _ = _; rfl)
    | with_reducible apply Evolves.ite
    | dsimp only
    | split
    | with_reducible apply Evolves.update

theorem State.suspectAll_evolves (s : State) (detail) (x1) :
    Evolves [.regs, .out, .heldOut, .host, .hlt] s (State.suspectAll s detail x1) := by
  fun_induction State.suspectAll s detail x1
  all_goals repeat' first
    | with_reducible apply Evolves.refl
    | with_reducible assumption
    | with_reducible apply Evolves.step (g := State.suspect_evolves _ _ _)
    | with_reducible apply Evolves.step (g := by assumption)
    | with_reducible apply Evolves.part_same
    | ((with_reducible apply Evolves.part_in); rfl)
    | with_reducible exact And.intro rfl (And.intro rfl rfl)
    | (show _ = _; rfl)
    | with_reducible apply Evolves.ite
    | dsimp only
    | split
    | with_reducible apply Evolves.update

theorem State.zeroChannels_evolves (s : State) (x1) :
    Evolves [.mem, .hbm] s (State.zeroChannels s x1) := by
  fun_induction State.zeroChannels s x1
  all_goals repeat' first
    | with_reducible apply Evolves.refl
    | with_reducible assumption
    | with_reducible apply Evolves.step (g := State.zeroChannel_evolves _ _)
    | with_reducible apply Evolves.step (g := by assumption)
    | with_reducible apply Evolves.part_same
    | ((with_reducible apply Evolves.part_in); rfl)
    | with_reducible exact And.intro rfl (And.intro rfl rfl)
    | (show _ = _; rfl)
    | with_reducible apply Evolves.ite
    | dsimp only
    | split
    | with_reducible apply Evolves.update

theorem State.memScanStart_evolves (s : State) (ctrl) :
    Evolves [.regs, .adm] s (State.memScanStart s ctrl) := by
  unfold State.memScanStart
  repeat' first
    | with_reducible apply Evolves.refl
    | with_reducible apply Evolves.step (g := State.memRequest_evolves _ _ _)
    | with_reducible apply Evolves.step (g := State.takeScan_evolves _ _)
    | with_reducible apply Evolves.part_same
    | ((with_reducible apply Evolves.part_in); rfl)
    | with_reducible exact And.intro rfl (And.intro rfl rfl)
    | (show _ = _; rfl)
    | with_reducible apply Evolves.ite
    | dsimp only
    | split
    | with_reducible apply Evolves.update

theorem State.scanOne_evolves (s : State) (r) :
    Evolves [.regs, .hlt] s (State.scanOne s r) := by
  unfold State.scanOne
  repeat' first
    | with_reducible apply Evolves.refl
    | with_reducible apply Evolves.step (g := State.setRegN_evolves _ _ _)
    | with_reducible apply Evolves.part_same
    | ((with_reducible apply Evolves.part_in); rfl)
    | with_reducible exact And.intro rfl (And.intro rfl rfl)
    | (show _ = _; rfl)
    | with_reducible apply Evolves.ite
    | dsimp only
    | split
    | with_reducible apply Evolves.update

theorem State.scanAll_evolves (s : State) (x1) :
    Evolves [.regs, .hlt] s (State.scanAll s x1) := by
  fun_induction State.scanAll s x1
  all_goals repeat' first
    | with_reducible apply Evolves.refl
    | with_reducible assumption
    | with_reducible apply Evolves.step (g := State.scanOne_evolves _ _)
    | with_reducible apply Evolves.step (g := by assumption)
    | with_reducible apply Evolves.part_same
    | ((with_reducible apply Evolves.part_in); rfl)
    | with_reducible exact And.intro rfl (And.intro rfl rfl)
    | (show _ = _; rfl)
    | with_reducible apply Evolves.ite
    | dsimp only
    | split
    | with_reducible apply Evolves.update

theorem State.memClr_evolves (s : State) (same) :
    Evolves [.regs] s (State.memClr s same) := by
  unfold State.memClr
  repeat' first
    | with_reducible apply Evolves.refl
    | with_reducible apply Evolves.step (g := State.zeroRegs_evolves _ _)
    | with_reducible apply Evolves.step (g := State.zeroBanks_evolves _ _)
    | with_reducible apply Evolves.step (g := State.sameCycle_evolves _ _)
    | with_reducible apply Evolves.part_same
    | ((with_reducible apply Evolves.part_in); rfl)
    | with_reducible exact And.intro rfl (And.intro rfl rfl)
    | (show _ = _; rfl)
    | with_reducible apply Evolves.ite
    | dsimp only
    | split
    | with_reducible apply Evolves.update

/-! ## Trellis -/

theorem State.countGrant_evolves (s : State) (router) (port) (reuse) (wait) (promoted) :
    Evolves [.regs, .bel] s (State.countGrant s router port reuse wait promoted) := by
  unfold State.countGrant
  repeat' first
    | with_reducible apply Evolves.refl
    | with_reducible apply Evolves.step (g := State.count_evolves _ _ _ _)
    | with_reducible apply Evolves.step (g := State.maxReg_evolves _ _ _)
    | with_reducible apply Evolves.step (g := State.bel64_evolves _ _ _)
    | with_reducible apply Evolves.part_same
    | ((with_reducible apply Evolves.part_in); rfl)
    | with_reducible exact And.intro rfl (And.intro rfl rfl)
    | (show _ = _; rfl)
    | with_reducible apply Evolves.ite
    | dsimp only
    | split
    | with_reducible apply Evolves.update

theorem State.trlClr_evolves (s : State) (same) :
    Evolves [.regs] s (State.trlClr s same) := by
  unfold State.trlClr
  repeat' first
    | with_reducible apply Evolves.refl
    | with_reducible apply Evolves.step (g := State.zeroRegs_evolves _ _)
    | with_reducible apply Evolves.step (g := State.zeroBanks_evolves _ _)
    | with_reducible apply Evolves.step (g := State.sameCycle_evolves _ _)
    | with_reducible apply Evolves.part_same
    | ((with_reducible apply Evolves.part_in); rfl)
    | with_reducible exact And.intro rfl (And.intro rfl rfl)
    | (show _ = _; rfl)
    | with_reducible apply Evolves.ite
    | dsimp only
    | split
    | with_reducible apply Evolves.update

end Sys2Proof.Machine
end

