-- ==== Sys2Proof/Laws/Job.lean ====
section
/-! SUPPORT. What each operation may do to the state (Laws/Evolves.lean): the job: ports and streams, the Cloister, ticks, the commit, the image. -/

namespace Sys2Proof.Machine

/-! ## Streams -/

theorem State.setEnd_evolves (s : State) (plot) (port) (recv) (e) :
    Evolves [.pyu] s (State.setEnd s plot port recv e) := by
  unfold State.setEnd
  repeat' first
    | with_reducible apply Evolves.refl
    | with_reducible apply Evolves.part_same
    | ((with_reducible apply Evolves.part_in); rfl)
    | with_reducible exact And.intro rfl (And.intro rfl rfl)
    | (show _ = _; rfl)
    | with_reducible apply Evolves.ite
    | dsimp only
    | split
    | with_reducible apply Evolves.update

theorem State.frameSent_evolves (s : State) (plot) (port) :
    Evolves [.stl, .pyu] s (State.frameSent s plot port) := by
  unfold State.frameSent
  repeat' first
    | with_reducible apply Evolves.refl
    | with_reducible apply Evolves.step (g := State.setPlot_evolves _ _ _)
    | with_reducible apply Evolves.step (g := State.setEnd_evolves _ _ _ _ _)
    | with_reducible apply Evolves.part_same
    | ((with_reducible apply Evolves.part_in); rfl)
    | with_reducible exact And.intro rfl (And.intro rfl rfl)
    | (show _ = _; rfl)
    | with_reducible apply Evolves.ite
    | dsimp only
    | split
    | with_reducible apply Evolves.update

theorem State.creditsBack_evolves (s : State) (plot) (port) (n) :
    Evolves [.stl, .pyu] s (State.creditsBack s plot port n) := by
  unfold State.creditsBack
  repeat' first
    | with_reducible apply Evolves.refl
    | with_reducible apply Evolves.step (g := State.setPlot_evolves _ _ _)
    | with_reducible apply Evolves.step (g := State.setEnd_evolves _ _ _ _ _)
    | with_reducible apply Evolves.part_same
    | ((with_reducible apply Evolves.part_in); rfl)
    | with_reducible exact And.intro rfl (And.intro rfl rfl)
    | (show _ = _; rfl)
    | with_reducible apply Evolves.ite
    | dsimp only
    | split
    | with_reducible apply Evolves.update

theorem State.freeFrames_evolves (s : State) (plot) (port) (n) :
    Evolves [.stl, .pyu] s (State.freeFrames s plot port n) := by
  unfold State.freeFrames
  repeat' first
    | with_reducible apply Evolves.refl
    | with_reducible apply Evolves.step (g := State.setPlot_evolves _ _ _)
    | with_reducible apply Evolves.step (g := State.setEnd_evolves _ _ _ _ _)
    | with_reducible apply Evolves.part_same
    | ((with_reducible apply Evolves.part_in); rfl)
    | with_reducible exact And.intro rfl (And.intro rfl rfl)
    | (show _ = _; rfl)
    | with_reducible apply Evolves.ite
    | dsimp only
    | split
    | with_reducible apply Evolves.update

theorem State.frameTaken_evolves (s : State) (plot) (port) (branch) (early) :
    Evolves [.stl, .pyu] s (State.frameTaken s plot port branch early) := by
  unfold State.frameTaken
  repeat' first
    | with_reducible apply Evolves.refl
    | with_reducible apply Evolves.step (g := State.setPlot_evolves _ _ _)
    | with_reducible apply Evolves.step (g := State.setEnd_evolves _ _ _ _ _)
    | with_reducible apply Evolves.part_same
    | ((with_reducible apply Evolves.part_in); rfl)
    | with_reducible exact And.intro rfl (And.intro rfl rfl)
    | (show _ = _; rfl)
    | with_reducible apply Evolves.ite
    | dsimp only
    | split
    | with_reducible apply Evolves.update

theorem State.landBlock_evolves (s : State) (plot) (k) (b) :
    Evolves [.regs, .mem, .out, .heldOut, .stl, .hbm, .host, .bel] s (State.landBlock s plot k b) := by
  unfold State.landBlock
  repeat' first
    | with_reducible apply Evolves.refl
    | with_reducible apply Evolves.step (g := State.devWrite_evolves _ _ _ _)
    | with_reducible apply Evolves.step (g := State.setPlot_evolves _ _ _)
    | with_reducible apply Evolves.part_same
    | ((with_reducible apply Evolves.part_in); rfl)
    | with_reducible exact And.intro rfl (And.intro rfl rfl)
    | (show _ = _; rfl)
    | with_reducible apply Evolves.ite
    | dsimp only
    | split
    | with_reducible apply Evolves.update

theorem State.liftBlock_evolves (s : State) (plot) (k) :
    Evolves [.stl] s (State.liftBlock s plot k) := by
  unfold State.liftBlock
  repeat' first
    | with_reducible apply Evolves.refl
    | with_reducible apply Evolves.step (g := State.setPlot_evolves _ _ _)
    | with_reducible apply Evolves.part_same
    | ((with_reducible apply Evolves.part_in); rfl)
    | with_reducible exact And.intro rfl (And.intro rfl rfl)
    | (show _ = _; rfl)
    | with_reducible apply Evolves.ite
    | dsimp only
    | split
    | with_reducible apply Evolves.update

theorem State.cloFatal_evolves (s : State) (kind) (port) (plot) :
    Evolves [.regs, .out, .heldOut, .tick, .host, .hlt] s (State.cloFatal s kind port plot) := by
  unfold State.cloFatal
  repeat' first
    | with_reducible apply Evolves.refl
    | with_reducible apply Evolves.step (g := State.setRegN_evolves _ _ _)
    | with_reducible apply Evolves.step (g := State.event_evolves _ _ _)
    | with_reducible apply Evolves.step (g := State.ledgerFatal_evolves _ _ _)
    | with_reducible apply Evolves.step (g := State.stopReports_evolves _)
    | with_reducible apply Evolves.part_same
    | ((with_reducible apply Evolves.part_in); rfl)
    | with_reducible exact And.intro rfl (And.intro rfl rfl)
    | (show _ = _; rfl)
    | with_reducible apply Evolves.ite
    | dsimp only
    | split
    | with_reducible apply Evolves.update

theorem State.digestRecord_evolves (s : State) (plot) (port) (dir) (peer) (d) :
    Evolves [.regs, .mem, .out, .heldOut, .hbm, .host, .bel] s (State.digestRecord s plot port dir peer d) := by
  unfold State.digestRecord
  repeat' first
    | with_reducible apply Evolves.refl
    | with_reducible apply Evolves.step (g := State.setRegN_evolves _ _ _)
    | with_reducible apply Evolves.step (g := State.event_evolves _ _ _)
    | with_reducible apply Evolves.step (g := State.devWrite_evolves _ _ _ _)
    | with_reducible apply Evolves.part_same
    | ((with_reducible apply Evolves.part_in); rfl)
    | with_reducible exact And.intro rfl (And.intro rfl rfl)
    | (show _ = _; rfl)
    | with_reducible apply Evolves.ite
    | dsimp only
    | split
    | with_reducible apply Evolves.update

theorem State.absorb_evolves (s : State) (plot) (port) (dir) (peer) (bs) (last) :
    Evolves [.regs, .mem, .out, .heldOut, .hbm, .clo, .host, .bel] s (State.absorb s plot port dir peer bs last) := by
  unfold State.absorb
  repeat' first
    | with_reducible apply Evolves.refl
    | with_reducible apply Evolves.step (g := State.digestRecord_evolves _ _ _ _ _ _)
    | with_reducible apply Evolves.part_same
    | ((with_reducible apply Evolves.part_in); rfl)
    | with_reducible exact And.intro rfl (And.intro rfl rfl)
    | (show _ = _; rfl)
    | with_reducible apply Evolves.ite
    | dsimp only
    | split
    | with_reducible apply Evolves.update

theorem State.setTx_evolves (s : State) (plot) (port) (x) :
    Evolves [.pyu] s (State.setTx s plot port x) := by
  unfold State.setTx
  repeat' first
    | with_reducible apply Evolves.refl
    | with_reducible apply Evolves.part_same
    | ((with_reducible apply Evolves.part_in); rfl)
    | with_reducible exact And.intro rfl (And.intro rfl rfl)
    | (show _ = _; rfl)
    | with_reducible apply Evolves.ite
    | dsimp only
    | split
    | with_reducible apply Evolves.update

theorem State.flushBlocks_evolves (s : State) (plot) (port) (peer) (total) (x1) :
    Evolves [.regs, .mem, .out, .heldOut, .hbm, .clo, .pyu, .host, .bel] s (State.flushBlocks s plot port peer total x1) := by
  fun_induction State.flushBlocks s plot port peer total x1
  all_goals repeat' first
    | with_reducible apply Evolves.refl
    | with_reducible assumption
    | with_reducible apply Evolves.step (g := State.count_evolves _ _ _ _)
    | with_reducible apply Evolves.step (g := State.bel64_evolves _ _ _)
    | with_reducible apply Evolves.step (g := State.absorb_evolves _ _ _ _ _ _ _)
    | with_reducible apply Evolves.step (g := State.setTx_evolves _ _ _ _)
    | with_reducible apply Evolves.step (g := by assumption)
    | with_reducible apply Evolves.part_same
    | ((with_reducible apply Evolves.part_in); rfl)
    | with_reducible exact And.intro rfl (And.intro rfl rfl)
    | (show _ = _; rfl)
    | with_reducible apply Evolves.ite
    | dsimp only
    | split
    | with_reducible apply Evolves.update

theorem State.sendBlock_evolves (s : State) (g) (x) (k) (b) :
    Evolves [.regs, .mem, .out, .heldOut, .hbm, .clo, .pyu, .host, .bel] s (State.sendBlock s g x k b) := by
  unfold State.sendBlock
  repeat' first
    | with_reducible apply Evolves.refl
    | with_reducible apply Evolves.step (g := State.setTx_evolves _ _ _ _)
    | with_reducible apply Evolves.step (g := State.flushBlocks_evolves _ _ _ _ _ _)
    | with_reducible apply Evolves.part_same
    | ((with_reducible apply Evolves.part_in); rfl)
    | with_reducible exact And.intro rfl (And.intro rfl rfl)
    | (show _ = _; rfl)
    | with_reducible apply Evolves.ite
    | dsimp only
    | split
    | with_reducible apply Evolves.update

theorem State.sendVec_evolves (s : State) (rank) (plot) (v) :
    Evolves [.regs, .mem, .out, .heldOut, .hbm, .clo, .pyu, .host, .bel] s (State.sendVec s rank plot v) := by
  unfold State.sendVec
  repeat' first
    | with_reducible apply Evolves.refl
    | with_reducible apply Evolves.step (g := State.setEnd_evolves _ _ _ _ _)
    | with_reducible apply Evolves.step (g := State.absorb_evolves _ _ _ _ _ _ _)
    | with_reducible apply Evolves.step (g := State.setTx_evolves _ _ _ _)
    | with_reducible apply Evolves.part_same
    | ((with_reducible apply Evolves.part_in); rfl)
    | with_reducible exact And.intro rfl (And.intro rfl rfl)
    | (show _ = _; rfl)
    | with_reducible apply Evolves.ite
    | dsimp only
    | split
    | with_reducible apply Evolves.update

theorem State.sendDown_evolves (s : State) (plot) (v) (x1) :
    Evolves [.regs, .mem, .out, .heldOut, .hbm, .clo, .pyu, .host, .bel] s (State.sendDown s plot v x1) := by
  fun_induction State.sendDown s plot v x1
  all_goals repeat' first
    | with_reducible apply Evolves.refl
    | with_reducible assumption
    | with_reducible apply Evolves.step (g := State.sendVec_evolves _ _ _ _)
    | with_reducible apply Evolves.step (g := by assumption)
    | with_reducible apply Evolves.part_same
    | ((with_reducible apply Evolves.part_in); rfl)
    | with_reducible exact And.intro rfl (And.intro rfl rfl)
    | (show _ = _; rfl)
    | with_reducible apply Evolves.ite
    | dsimp only
    | split
    | with_reducible apply Evolves.update

theorem State.setVecs_evolves (s : State) (plot) (port) (vs) :
    Evolves [.clo] s (State.setVecs s plot port vs) := by
  unfold State.setVecs
  repeat' first
    | with_reducible apply Evolves.refl
    | with_reducible apply Evolves.part_same
    | ((with_reducible apply Evolves.part_in); rfl)
    | with_reducible exact And.intro rfl (And.intro rfl rfl)
    | (show _ = _; rfl)
    | with_reducible apply Evolves.ite
    | dsimp only
    | split
    | with_reducible apply Evolves.update

theorem State.takeVec_evolves (s : State) (plot) (port) (bs) (early) :
    Evolves [.regs, .mem, .out, .heldOut, .tick, .hbm, .clo, .pyu, .host, .hlt,
        .bel] s (State.takeVec s plot port bs early) := by
  unfold State.takeVec
  repeat' first
    | with_reducible apply Evolves.refl
    | with_reducible apply Evolves.step (g := State.count_evolves _ _ _ _)
    | with_reducible apply Evolves.step (g := State.setEnd_evolves _ _ _ _ _)
    | with_reducible apply Evolves.step (g := State.cloFatal_evolves _ _ _ _)
    | with_reducible apply Evolves.step (g := State.absorb_evolves _ _ _ _ _ _ _)
    | with_reducible apply Evolves.step (g := State.setVecs_evolves _ _ _ _)
    | with_reducible apply Evolves.part_same
    | ((with_reducible apply Evolves.part_in); rfl)
    | with_reducible exact And.intro rfl (And.intro rfl rfl)
    | (show _ = _; rfl)
    | with_reducible apply Evolves.ite
    | dsimp only
    | split
    | with_reducible apply Evolves.update

/-! ## Update -/

theorem State.stepCoefficients_evolves (s : State) :
    Evolves [.regs, .upd] s (State.stepCoefficients s) := by
  unfold State.stepCoefficients
  repeat' first
    | with_reducible apply Evolves.refl
    | with_reducible apply Evolves.step (g := State.setRegN_evolves _ _ _)
    | with_reducible apply Evolves.step (g := State.orReg_evolves _ _ _)
    | with_reducible apply Evolves.part_same
    | ((with_reducible apply Evolves.part_in); rfl)
    | with_reducible exact And.intro rfl (And.intro rfl rfl)
    | (show _ = _; rfl)
    | with_reducible apply Evolves.ite
    | dsimp only
    | split
    | with_reducible apply Evolves.update

theorem State.writing_evolves (s : State) :
    Evolves [.upd] s (State.writing s) := by
  unfold State.writing
  repeat' first
    | with_reducible apply Evolves.refl
    | with_reducible apply Evolves.part_same
    | ((with_reducible apply Evolves.part_in); rfl)
    | with_reducible exact And.intro rfl (And.intro rfl rfl)
    | (show _ = _; rfl)
    | with_reducible apply Evolves.ite
    | dsimp only
    | split
    | with_reducible apply Evolves.update

theorem State.writeRecord_evolves (s : State) (gnorm) :
    Evolves [.regs, .mem, .out, .heldOut, .hbm, .upd, .host, .bel] s (State.writeRecord s gnorm) := by
  unfold State.writeRecord
  repeat' first
    | with_reducible apply Evolves.refl
    | with_reducible apply Evolves.step (g := State.devWrite_evolves _ _ _ _)
    | with_reducible apply Evolves.step (g := State.writing_evolves _)
    | with_reducible apply Evolves.part_same
    | ((with_reducible apply Evolves.part_in); rfl)
    | with_reducible exact And.intro rfl (And.intro rfl rfl)
    | (show _ = _; rfl)
    | with_reducible apply Evolves.ite
    | dsimp only
    | split
    | with_reducible apply Evolves.update

theorem State.updNonFinite_evolves (s : State) (tensor) (unit) :
    Evolves [.regs, .free, .out, .heldOut, .tick, .stl, .upd, .host, .bel] s (State.updNonFinite s tensor unit) := by
  unfold State.updNonFinite
  repeat' first
    | with_reducible apply Evolves.refl
    | with_reducible apply Evolves.step (g := State.setRegN_evolves _ _ _)
    | with_reducible apply Evolves.step (g := State.orReg_evolves _ _ _)
    | with_reducible apply Evolves.step (g := State.count_evolves _ _ _ _)
    | with_reducible apply Evolves.step (g := State.spoil_evolves _ _)
    | with_reducible apply Evolves.part_same
    | ((with_reducible apply Evolves.part_in); rfl)
    | with_reducible exact And.intro rfl (And.intro rfl rfl)
    | (show _ = _; rfl)
    | with_reducible apply Evolves.ite
    | dsimp only
    | split
    | with_reducible apply Evolves.update

theorem State.putCode_evolves (s : State) (f) (elems) (i) (code) :
    Evolves [.regs, .mem, .out, .heldOut, .hbm, .host, .bel] s (State.putCode s f elems i code) := by
  unfold State.putCode
  repeat' first
    | with_reducible apply Evolves.refl
    | with_reducible apply Evolves.step (g := State.devWrite_evolves _ _ _ _)
    | with_reducible apply Evolves.part_same
    | ((with_reducible apply Evolves.part_in); rfl)
    | with_reducible exact And.intro rfl (And.intro rfl rfl)
    | (show _ = _; rfl)
    | with_reducible apply Evolves.ite
    | dsimp only
    | split
    | with_reducible apply Evolves.update

theorem State.putCodes_evolves (s : State) (v) (b) (p) (x1) :
    Evolves [.regs, .mem, .out, .heldOut, .hbm, .host, .bel] s (State.putCodes s v b p x1) := by
  fun_induction State.putCodes s v b p x1
  all_goals repeat' first
    | with_reducible apply Evolves.refl
    | with_reducible assumption
    | with_reducible apply Evolves.step (g := State.putCode_evolves _ _ _ _ _)
    | with_reducible apply Evolves.step (g := by assumption)
    | with_reducible apply Evolves.part_same
    | ((with_reducible apply Evolves.part_in); rfl)
    | with_reducible exact And.intro rfl (And.intro rfl rfl)
    | (show _ = _; rfl)
    | with_reducible apply Evolves.ite
    | dsimp only
    | split
    | with_reducible apply Evolves.update

theorem State.writeBlock_evolves (s : State) (seg) (r) (b) (vals) :
    Evolves [.regs, .mem, .out, .heldOut, .hbm, .upd, .host, .bel] s (State.writeBlock s seg r b vals) := by
  unfold State.writeBlock
  repeat' first
    | with_reducible apply Evolves.refl
    | with_reducible apply Evolves.step (g := State.orReg_evolves _ _ _)
    | with_reducible apply Evolves.step (g := State.devWrite_evolves _ _ _ _)
    | with_reducible apply Evolves.step (g := State.tally_evolves _ _)
    | with_reducible apply Evolves.step (g := State.putCodes_evolves _ _ _ _ _)
    | with_reducible apply Evolves.part_same
    | ((with_reducible apply Evolves.part_in); rfl)
    | with_reducible exact And.intro rfl (And.intro rfl rfl)
    | (show _ = _; rfl)
    | with_reducible apply Evolves.ite
    | dsimp only
    | split
    | with_reducible apply Evolves.update

theorem State.writeHead_evolves (s : State) (seg) (r) :
    Evolves [.regs, .mem, .out, .heldOut, .seg, .hbm, .host, .bel] s (State.writeHead s seg r) := by
  unfold State.writeHead
  repeat' first
    | with_reducible apply Evolves.refl
    | with_reducible apply Evolves.step (g := State.orReg_evolves _ _ _)
    | with_reducible apply Evolves.step (g := State.devWrite_evolves _ _ _ _)
    | with_reducible apply Evolves.step (g := State.setRung_evolves _ _ _ _)
    | with_reducible apply Evolves.part_same
    | ((with_reducible apply Evolves.part_in); rfl)
    | with_reducible exact And.intro rfl (And.intro rfl rfl)
    | (show _ = _; rfl)
    | with_reducible apply Evolves.ite
    | dsimp only
    | split
    | with_reducible apply Evolves.update

theorem State.writeBlocks_evolves (s : State) (seg) (r) (first) (xs) (x1) :
    Evolves [.regs, .mem, .out, .heldOut, .hbm, .upd, .host, .bel] s (State.writeBlocks s seg r first xs x1) := by
  fun_induction State.writeBlocks s seg r first xs x1
  all_goals repeat' first
    | with_reducible apply Evolves.refl
    | with_reducible assumption
    | with_reducible apply Evolves.step (g := State.writeBlock_evolves _ _ _ _ _)
    | with_reducible apply Evolves.step (g := by assumption)
    | with_reducible apply Evolves.part_same
    | ((with_reducible apply Evolves.part_in); rfl)
    | with_reducible exact And.intro rfl (And.intro rfl rfl)
    | (show _ = _; rfl)
    | with_reducible apply Evolves.ite
    | dsimp only
    | split
    | with_reducible apply Evolves.update

theorem State.writeScaled_evolves (s : State) (seg) (r) (first) (xs) :
    Evolves [.regs, .mem, .out, .heldOut, .seg, .hbm, .upd, .host, .bel] s (State.writeScaled s seg r first xs) := by
  unfold State.writeScaled
  repeat' first
    | with_reducible apply Evolves.refl
    | with_reducible apply Evolves.step (g := State.setRegN_evolves _ _ _)
    | with_reducible apply Evolves.step (g := State.count_evolves _ _ _ _)
    | with_reducible apply Evolves.step (g := State.writeHead_evolves _ _ _)
    | with_reducible apply Evolves.step (g := State.writeBlocks_evolves _ _ _ _ _ _)
    | with_reducible apply Evolves.part_same
    | ((with_reducible apply Evolves.part_in); rfl)
    | with_reducible exact And.intro rfl (And.intro rfl rfl)
    | (show _ = _; rfl)
    | with_reducible apply Evolves.ite
    | dsimp only
    | split
    | with_reducible apply Evolves.update

theorem State.writeAt_evolves (s : State) (x1) :
    Evolves [.regs, .mem, .out, .heldOut, .hbm, .host, .bel] s (State.writeAt s x1) := by
  fun_induction State.writeAt s x1
  all_goals repeat' first
    | with_reducible apply Evolves.refl
    | with_reducible assumption
    | with_reducible apply Evolves.step (g := State.devWrite_evolves _ _ _ _)
    | with_reducible apply Evolves.step (g := by assumption)
    | with_reducible apply Evolves.part_same
    | ((with_reducible apply Evolves.part_in); rfl)
    | with_reducible exact And.intro rfl (And.intro rfl rfl)
    | (show _ = _; rfl)
    | with_reducible apply Evolves.ite
    | dsimp only
    | split
    | with_reducible apply Evolves.update

theorem State.writeMatrix_evolves (s : State) (t) (n) (m) (bytes) :
    Evolves [.regs, .mem, .out, .heldOut, .hbm, .host, .bel] s (State.writeMatrix s t n m bytes) := by
  unfold State.writeMatrix
  repeat' first
    | with_reducible apply Evolves.refl
    | with_reducible apply Evolves.step (g := State.writeAt_evolves _ _)
    | with_reducible apply Evolves.part_same
    | ((with_reducible apply Evolves.part_in); rfl)
    | with_reducible exact And.intro rfl (And.intro rfl rfl)
    | (show _ = _; rfl)
    | with_reducible apply Evolves.ite
    | dsimp only
    | split
    | with_reducible apply Evolves.update

theorem State.writeStates_evolves (s : State) (seg) (first) (x1) (x2) :
    Evolves [.regs, .mem, .out, .heldOut, .seg, .hbm, .upd, .host, .bel] s (State.writeStates s seg first x1 x2) := by
  fun_induction State.writeStates s seg first x1 x2
  all_goals repeat' first
    | with_reducible apply Evolves.refl
    | with_reducible assumption
    | with_reducible apply Evolves.step (g := State.writeScaled_evolves _ _ _ _ _)
    | with_reducible apply Evolves.step (g := by assumption)
    | with_reducible apply Evolves.part_same
    | ((with_reducible apply Evolves.part_in); rfl)
    | with_reducible exact And.intro rfl (And.intro rfl rfl)
    | (show _ = _; rfl)
    | with_reducible apply Evolves.ite
    | dsimp only
    | split
    | with_reducible apply Evolves.update

theorem State.updElementwise_evolves (s : State) (unit) (tensor) (e) (u) (b) :
    Evolves [.regs, .mem, .free, .out, .heldOut, .tick, .seg, .stl, .hbm, .upd, .host, .bel]
      s (State.updElementwise s unit tensor e u b) := by
  unfold State.updElementwise
  repeat' first
    | with_reducible apply Evolves.refl
    | with_reducible apply Evolves.step (g := State.count_evolves _ _ _ _)
    | with_reducible apply Evolves.step (g := State.bel64_evolves _ _ _)
    | with_reducible apply Evolves.step (g := State.devWrite_evolves _ _ _ _)
    | with_reducible apply Evolves.step (g := State.tally_evolves _ _)
    | with_reducible apply Evolves.step (g := State.writing_evolves _)
    | with_reducible apply Evolves.step (g := State.updNonFinite_evolves _ _ _)
    | with_reducible apply Evolves.step (g := State.writeScaled_evolves _ _ _ _ _)
    | with_reducible apply Evolves.step (g := State.writeStates_evolves _ _ _ _ _)
    | with_reducible apply Evolves.part_same
    | ((with_reducible apply Evolves.part_in); rfl)
    | with_reducible exact And.intro rfl (And.intro rfl rfl)
    | (show _ = _; rfl)
    | with_reducible apply Evolves.ite
    | dsimp only
    | split
    | with_reducible apply Evolves.update

theorem State.frozenDrop_evolves (s : State) (unit) (blocks) :
    Evolves [.regs, .free, .out, .heldOut, .tick, .stl, .host, .bel] s (State.frozenDrop s unit blocks) := by
  unfold State.frozenDrop
  repeat' first
    | with_reducible apply Evolves.refl
    | with_reducible apply Evolves.step (g := State.orReg_evolves _ _ _)
    | with_reducible apply Evolves.step (g := State.count_evolves _ _ _ _)
    | with_reducible apply Evolves.step (g := State.bel64_evolves _ _ _)
    | with_reducible apply Evolves.step (g := State.spoil_evolves _ _)
    | with_reducible apply Evolves.part_same
    | ((with_reducible apply Evolves.part_in); rfl)
    | with_reducible exact And.intro rfl (And.intro rfl rfl)
    | (show _ = _; rfl)
    | with_reducible apply Evolves.ite
    | dsimp only
    | split
    | with_reducible apply Evolves.update

theorem State.updRefresh_evolves (s : State) (unit) (tensor) (u) (g) (b) (plot) (wire) :
    Evolves [.regs, .mem, .free, .out, .heldOut, .tick, .stl, .hbm, .upd, .host, .bel]
      s (State.updRefresh s unit tensor u g b plot wire) := by
  unfold State.updRefresh
  repeat' first
    | with_reducible apply Evolves.refl
    | with_reducible apply Evolves.step (g := State.setRegN_evolves _ _ _)
    | with_reducible apply Evolves.step (g := State.count_evolves _ _ _ _)
    | with_reducible apply Evolves.step (g := State.bel64_evolves _ _ _)
    | with_reducible apply Evolves.step (g := State.updNonFinite_evolves _ _ _)
    | with_reducible apply Evolves.step (g := State.writeMatrix_evolves _ _ _ _ _)
    | with_reducible apply Evolves.part_same
    | ((with_reducible apply Evolves.part_in); rfl)
    | with_reducible exact And.intro rfl (And.intro rfl rfl)
    | (show _ = _; rfl)
    | with_reducible apply Evolves.ite
    | dsimp only
    | split
    | with_reducible apply Evolves.update

theorem State.workNow_evolves (s : State) (u) (unit) (tensor) (w) :
    Evolves [.regs, .mem, .free, .out, .heldOut, .tick, .seg, .stl, .hbm, .upd, .host, .bel]
      s (State.workNow s u unit tensor w) := by
  unfold State.workNow
  repeat' first
    | with_reducible apply Evolves.refl
    | with_reducible apply Evolves.step (g := State.updElementwise_evolves _ _ _ _ _ _)
    | with_reducible apply Evolves.step (g := State.updRefresh_evolves _ _ _ _ _ _ _ _)
    | with_reducible apply Evolves.part_same
    | ((with_reducible apply Evolves.part_in); rfl)
    | with_reducible exact And.intro rfl (And.intro rfl rfl)
    | (show _ = _; rfl)
    | with_reducible apply Evolves.ite
    | dsimp only
    | split
    | with_reducible apply Evolves.update

theorem State.hbmWrite_evolves (s : State) (data) (x1) :
    Evolves [.regs, .mem, .free, .out, .heldOut, .tick, .stl, .hbm, .upd, .host, .bel] s (State.hbmWrite s data x1) := by
  unfold State.hbmWrite
  repeat' first
    | with_reducible apply Evolves.refl
    | with_reducible apply Evolves.step (g := State.devWrite_evolves _ _ _ _)
    | with_reducible apply Evolves.step (g := State.writing_evolves _)
    | with_reducible apply Evolves.step (g := State.frozenDrop_evolves _ _ _)
    | with_reducible apply Evolves.part_same
    | ((with_reducible apply Evolves.part_in); rfl)
    | with_reducible exact And.intro rfl (And.intro rfl rfl)
    | (show _ = _; rfl)
    | with_reducible apply Evolves.ite
    | dsimp only
    | split
    | with_reducible apply Evolves.update

theorem State.workOrWait_evolves (s : State) (u) (unit) (tensor) (w) :
    Evolves [.regs, .mem, .free, .out, .heldOut, .tick, .seg, .stl, .hbm, .upd, .host, .bel]
      s (State.workOrWait s u unit tensor w) := by
  unfold State.workOrWait
  repeat' first
    | with_reducible apply Evolves.refl
    | with_reducible apply Evolves.step (g := State.frozenDrop_evolves _ _ _)
    | with_reducible apply Evolves.step (g := State.workNow_evolves _ _ _ _ _)
    | with_reducible apply Evolves.part_same
    | ((with_reducible apply Evolves.part_in); rfl)
    | with_reducible exact And.intro rfl (And.intro rfl rfl)
    | (show _ = _; rfl)
    | with_reducible apply Evolves.ite
    | dsimp only
    | split
    | with_reducible apply Evolves.update

theorem State.workAll_evolves (s : State) (u) (x1) :
    Evolves [.regs, .mem, .free, .out, .heldOut, .tick, .seg, .stl, .hbm, .upd, .host, .bel] s (State.workAll s u x1) := by
  fun_induction State.workAll s u x1
  all_goals repeat' first
    | with_reducible apply Evolves.refl
    | with_reducible assumption
    | with_reducible apply Evolves.step (g := State.workOrWait_evolves _ _ _ _ _)
    | with_reducible apply Evolves.step (g := by assumption)
    | with_reducible apply Evolves.part_same
    | ((with_reducible apply Evolves.part_in); rfl)
    | with_reducible exact And.intro rfl (And.intro rfl rfl)
    | (show _ = _; rfl)
    | with_reducible apply Evolves.ite
    | dsimp only
    | split
    | with_reducible apply Evolves.update

theorem State.workWaiting_evolves (s : State) :
    Evolves [.regs, .mem, .free, .out, .heldOut, .tick, .seg, .stl, .hbm, .upd, .host, .bel] s (State.workWaiting s) := by
  unfold State.workWaiting
  repeat' first
    | with_reducible apply Evolves.refl
    | with_reducible apply Evolves.step (g := State.workAll_evolves _ _ _)
    | with_reducible apply Evolves.part_same
    | ((with_reducible apply Evolves.part_in); rfl)
    | with_reducible exact And.intro rfl (And.intro rfl rfl)
    | (show _ = _; rfl)
    | with_reducible apply Evolves.ite
    | dsimp only
    | split
    | with_reducible apply Evolves.update

theorem State.updClr_evolves (s : State) (same) :
    Evolves [.regs] s (State.updClr s same) := by
  unfold State.updClr
  repeat' first
    | with_reducible apply Evolves.refl
    | with_reducible apply Evolves.step (g := State.zeroRegs_evolves _ _)
    | with_reducible apply Evolves.step (g := State.sameCycle_evolves _ _)
    | with_reducible apply Evolves.part_same
    | ((with_reducible apply Evolves.part_in); rfl)
    | with_reducible exact And.intro rfl (And.intro rfl rfl)
    | (show _ = _; rfl)
    | with_reducible apply Evolves.ite
    | dsimp only
    | split
    | with_reducible apply Evolves.update

/-! ## Drain -/

theorem State.clearSource_evolves (s : State) (x1) :
    Evolves [.me] s (State.clearSource s x1) := by
  unfold State.clearSource
  repeat' first
    | with_reducible apply Evolves.refl
    | with_reducible apply Evolves.step (g := State.clearHalf_evolves _ _ _)
    | with_reducible apply Evolves.part_same
    | ((with_reducible apply Evolves.part_in); rfl)
    | with_reducible exact And.intro rfl (And.intro rfl rfl)
    | (show _ = _; rfl)
    | with_reducible apply Evolves.ite
    | dsimp only
    | split
    | with_reducible apply Evolves.update

theorem State.spadTile_evolves (s : State) (core) (offset) (ws) :
    Evolves [.regs, .mem, .out, .heldOut, .hbm, .host, .bel] s (State.spadTile s core offset ws) := by
  unfold State.spadTile
  repeat' first
    | with_reducible apply Evolves.refl
    | with_reducible apply Evolves.step (g := State.devWrite_evolves _ _ _ _)
    | with_reducible apply Evolves.step (P := [.regs, .mem, .out, .heldOut, .hbm, .host, .bel]) (g := Evolves.foldl (fun _ _ => ?_) _ _)
    | (intro _)
    | with_reducible apply Evolves.part_same
    | ((with_reducible apply Evolves.part_in); rfl)
    | with_reducible exact And.intro rfl (And.intro rfl rfl)
    | (show _ = _; rfl)
    | with_reducible apply Evolves.ite
    | dsimp only
    | split
    | with_reducible apply Evolves.update

theorem State.cloSat_evolves (s : State) :
    Evolves [.regs, .out, .heldOut, .host] s (State.cloSat s) := by
  unfold State.cloSat
  repeat' first
    | with_reducible apply Evolves.refl
    | with_reducible apply Evolves.step (g := State.count_evolves _ _ _ _)
    | with_reducible apply Evolves.step (g := State.event_evolves _ _ _)
    | with_reducible apply Evolves.part_same
    | ((with_reducible apply Evolves.part_in); rfl)
    | with_reducible exact And.intro rfl (And.intro rfl rfl)
    | (show _ = _; rfl)
    | with_reducible apply Evolves.ite
    | dsimp only
    | split
    | with_reducible apply Evolves.update

theorem State.encodeTile_evolves (s : State) (plot) (cluster) (zero) (k) (x1) :
    Evolves [.regs, .mem, .out, .heldOut, .stl, .hbm, .host, .bel] s (State.encodeTile s plot cluster zero k x1) := by
  fun_induction State.encodeTile s plot cluster zero k x1
  all_goals repeat' first
    | with_reducible apply Evolves.refl
    | with_reducible assumption
    | with_reducible apply Evolves.step (g := State.bel64_evolves _ _ _)
    | with_reducible apply Evolves.step (g := State.landBlock_evolves _ _ _ _)
    | with_reducible apply Evolves.step (g := State.cloSat_evolves _)
    | with_reducible apply Evolves.step (g := by assumption)
    | with_reducible apply Evolves.part_same
    | ((with_reducible apply Evolves.part_in); rfl)
    | with_reducible exact And.intro rfl (And.intro rfl rfl)
    | (show _ = _; rfl)
    | with_reducible apply Evolves.ite
    | dsimp only
    | split
    | with_reducible apply Evolves.update

theorem State.deliverTile_evolves (s : State) (op) (ws) (nf) :
    Evolves [.regs, .mem, .free, .out, .heldOut, .tick, .seg, .ve, .stl, .hbm, .upd, .clo, .host, .bel]
      s (State.deliverTile s op ws nf) := by
  unfold State.deliverTile
  repeat' first
    | with_reducible apply Evolves.refl
    | with_reducible apply Evolves.step (g := State.spoil_evolves _ _)
    | with_reducible apply Evolves.step (g := State.portShare_evolves _ _ _ _)
    | with_reducible apply Evolves.step (g := State.stageTile_evolves _ _ _ _ _)
    | with_reducible apply Evolves.step (g := State.readyUp_evolves _ _ _ _)
    | with_reducible apply Evolves.step (g := State.workWaiting_evolves _)
    | with_reducible apply Evolves.step (g := State.spadTile_evolves _ _ _ _)
    | with_reducible apply Evolves.step (g := State.encodeTile_evolves _ _ _ _ _ _)
    | with_reducible apply Evolves.part_same
    | ((with_reducible apply Evolves.part_in); rfl)
    | with_reducible exact And.intro rfl (And.intro rfl rfl)
    | (show _ = _; rfl)
    | with_reducible apply Evolves.ite
    | dsimp only
    | split
    | with_reducible apply Evolves.update

/-! ## Stiles -/

theorem State.setStile_evolves (s : State) (n) (x) :
    Evolves [.stl] s (State.setStile s n x) := by
  unfold State.setStile
  repeat' first
    | with_reducible apply Evolves.refl
    | with_reducible apply Evolves.part_same
    | ((with_reducible apply Evolves.part_in); rfl)
    | with_reducible exact And.intro rfl (And.intro rfl rfl)
    | (show _ = _; rfl)
    | with_reducible apply Evolves.ite
    | dsimp only
    | split
    | with_reducible apply Evolves.update

theorem State.sendReleases_evolves (s : State) (n) (x1) :
    Evolves [.out] s (State.sendReleases s n x1) := by
  fun_induction State.sendReleases s n x1
  all_goals repeat' first
    | with_reducible apply Evolves.refl
    | with_reducible assumption
    | with_reducible apply Evolves.step (g := State.send_evolves _ _)
    | with_reducible apply Evolves.step (g := by assumption)
    | with_reducible apply Evolves.part_same
    | ((with_reducible apply Evolves.part_in); rfl)
    | with_reducible exact And.intro rfl (And.intro rfl rfl)
    | (show _ = _; rfl)
    | with_reducible apply Evolves.ite
    | dsimp only
    | split
    | with_reducible apply Evolves.update

theorem State.releaseStile_evolves (s : State) (n) :
    Evolves [.regs, .free, .out, .heldOut, .stl, .host, .bel] s (State.releaseStile s n) := by
  unfold State.releaseStile
  repeat' first
    | with_reducible apply Evolves.refl
    | with_reducible apply Evolves.step (g := State.count_evolves _ _ _ _)
    | with_reducible apply Evolves.step (g := State.bel64_evolves _ _ _)
    | with_reducible apply Evolves.step (g := State.trace_evolves _ _ _ _ _)
    | with_reducible apply Evolves.step (g := State.setStile_evolves _ _ _)
    | with_reducible apply Evolves.step (g := State.sendReleases_evolves _ _ _)
    | with_reducible apply Evolves.part_same
    | ((with_reducible apply Evolves.part_in); rfl)
    | with_reducible exact And.intro rfl (And.intro rfl rfl)
    | (show _ = _; rfl)
    | with_reducible apply Evolves.ite
    | dsimp only
    | split
    | with_reducible apply Evolves.update

theorem State.checkStile_evolves (s : State) (n) :
    Evolves [.regs, .free, .out, .heldOut, .stl, .host, .bel] s (State.checkStile s n) := by
  unfold State.checkStile
  repeat' first
    | with_reducible apply Evolves.refl
    | with_reducible apply Evolves.step (g := State.releaseStile_evolves _ _)
    | with_reducible apply Evolves.part_same
    | ((with_reducible apply Evolves.part_in); rfl)
    | with_reducible exact And.intro rfl (And.intro rfl rfl)
    | (show _ = _; rfl)
    | with_reducible apply Evolves.ite
    | dsimp only
    | split
    | with_reducible apply Evolves.update

theorem State.overArrival_evolves (s : State) (n) :
    Evolves [.regs, .out, .heldOut, .host, .bel] s (State.overArrival s n) := by
  unfold State.overArrival
  repeat' first
    | with_reducible apply Evolves.refl
    | with_reducible apply Evolves.step (g := State.count_evolves _ _ _ _)
    | with_reducible apply Evolves.step (g := State.event_evolves _ _ _)
    | with_reducible apply Evolves.step (g := State.bel64_evolves _ _ _)
    | with_reducible apply Evolves.part_same
    | ((with_reducible apply Evolves.part_in); rfl)
    | with_reducible exact And.intro rfl (And.intro rfl rfl)
    | (show _ = _; rfl)
    | with_reducible apply Evolves.ite
    | dsimp only
    | split
    | with_reducible apply Evolves.update

theorem State.earlyArrival_evolves (s : State) (n) :
    Evolves [.regs, .out, .heldOut, .stl, .host, .bel] s (State.earlyArrival s n) := by
  unfold State.earlyArrival
  repeat' first
    | with_reducible apply Evolves.refl
    | with_reducible apply Evolves.step (g := State.setStile_evolves _ _ _)
    | with_reducible apply Evolves.step (g := State.overArrival_evolves _ _)
    | with_reducible apply Evolves.part_same
    | ((with_reducible apply Evolves.part_in); rfl)
    | with_reducible exact And.intro rfl (And.intro rfl rfl)
    | (show _ = _; rfl)
    | with_reducible apply Evolves.ite
    | dsimp only
    | split
    | with_reducible apply Evolves.update

theorem State.chainFull_evolves (s : State) :
    Evolves [.regs, .out, .heldOut, .host] s (State.chainFull s) := by
  unfold State.chainFull
  repeat' first
    | with_reducible apply Evolves.refl
    | with_reducible apply Evolves.step (g := State.count_evolves _ _ _ _)
    | with_reducible apply Evolves.step (g := State.event_evolves _ _ _)
    | with_reducible apply Evolves.part_same
    | ((with_reducible apply Evolves.part_in); rfl)
    | with_reducible exact And.intro rfl (And.intro rfl rfl)
    | (show _ = _; rfl)
    | with_reducible apply Evolves.ite
    | dsimp only
    | split
    | with_reducible apply Evolves.update

theorem State.stlClr_evolves (s : State) (same) :
    Evolves [.regs] s (State.stlClr s same) := by
  unfold State.stlClr
  repeat' first
    | with_reducible apply Evolves.refl
    | with_reducible apply Evolves.step (g := State.zeroRegs_evolves _ _)
    | with_reducible apply Evolves.step (g := State.sameCycle_evolves _ _)
    | with_reducible apply Evolves.part_same
    | ((with_reducible apply Evolves.part_in); rfl)
    | with_reducible exact And.intro rfl (And.intro rfl rfl)
    | (show _ = _; rfl)
    | with_reducible apply Evolves.ite
    | dsimp only
    | split
    | with_reducible apply Evolves.update

theorem State.pltClr_evolves (s : State) (same) :
    Evolves [.regs] s (State.pltClr s same) := by
  unfold State.pltClr
  repeat' first
    | with_reducible apply Evolves.refl
    | with_reducible apply Evolves.step (g := State.zeroRegs_evolves _ _)
    | with_reducible apply Evolves.step (g := State.sameCycle_evolves _ _)
    | with_reducible apply Evolves.part_same
    | ((with_reducible apply Evolves.part_in); rfl)
    | with_reducible exact And.intro rfl (And.intro rfl rfl)
    | (show _ = _; rfl)
    | with_reducible apply Evolves.ite
    | dsimp only
    | split
    | with_reducible apply Evolves.update

/-! ## Cloister -/

theorem State.takeOne_evolves (s : State) (plot) (port) :
    Evolves [.clo] s (State.takeOne s plot port) := by
  unfold State.takeOne
  repeat' first
    | with_reducible apply Evolves.refl
    | with_reducible apply Evolves.part_same
    | ((with_reducible apply Evolves.part_in); rfl)
    | with_reducible exact And.intro rfl (And.intro rfl rfl)
    | (show _ = _; rfl)
    | with_reducible apply Evolves.ite
    | dsimp only
    | split
    | with_reducible apply Evolves.update

theorem State.setRingPlace_evolves (s : State) (plot) (seq) (k) :
    Evolves [.clo] s (State.setRingPlace s plot seq k) := by
  unfold State.setRingPlace
  repeat' first
    | with_reducible apply Evolves.refl
    | with_reducible apply Evolves.part_same
    | ((with_reducible apply Evolves.part_in); rfl)
    | with_reducible exact And.intro rfl (And.intro rfl rfl)
    | (show _ = _; rfl)
    | with_reducible apply Evolves.ite
    | dsimp only
    | split
    | with_reducible apply Evolves.update

theorem State.takeFinal_evolves (s : State) (g) (seq) (port) (b) :
    Evolves [.regs, .mem, .free, .out, .heldOut, .tick, .seg, .stl, .hbm, .upd, .host, .hlt, .bel]
      s (State.takeFinal s g seq port b) := by
  unfold State.takeFinal
  repeat' first
    | with_reducible apply Evolves.refl
    | with_reducible apply Evolves.step (g := State.landBlock_evolves _ _ _ _)
    | with_reducible apply Evolves.step (g := State.cloFatal_evolves _ _ _ _)
    | with_reducible apply Evolves.step (g := State.workWaiting_evolves _)
    | with_reducible apply Evolves.part_same
    | ((with_reducible apply Evolves.part_in); rfl)
    | with_reducible exact And.intro rfl (And.intro rfl rfl)
    | (show _ = _; rfl)
    | with_reducible apply Evolves.ite
    | dsimp only
    | split
    | with_reducible apply Evolves.update

theorem State.passFinal_evolves (s : State) (g) (x) (seq) (b) :
    Evolves [.regs, .mem, .out, .heldOut, .hbm, .clo, .pyu, .host, .bel] s (State.passFinal s g x seq b) := by
  unfold State.passFinal
  repeat' first
    | with_reducible apply Evolves.refl
    | with_reducible apply Evolves.step (g := State.sendBlock_evolves _ _ _ _ _)
    | with_reducible apply Evolves.part_same
    | ((with_reducible apply Evolves.part_in); rfl)
    | with_reducible exact And.intro rfl (And.intro rfl rfl)
    | (show _ = _; rfl)
    | with_reducible apply Evolves.ite
    | dsimp only
    | split
    | with_reducible apply Evolves.update

theorem State.arrive_evolves (s : State) (g) (x) (port) (k) (b) :
    Evolves [.regs, .mem, .free, .out, .heldOut, .tick, .seg, .stl, .hbm, .upd, .clo, .pyu, .host, .hlt, .bel]
      s (State.arrive s g x port k b) := by
  unfold State.arrive
  repeat' first
    | with_reducible apply Evolves.refl
    | with_reducible apply Evolves.step (g := State.cloFatal_evolves _ _ _ _)
    | with_reducible apply Evolves.step (g := State.absorb_evolves _ _ _ _ _ _ _)
    | with_reducible apply Evolves.step (g := State.setRingPlace_evolves _ _ _ _)
    | with_reducible apply Evolves.step (g := State.takeFinal_evolves _ _ _ _ _)
    | with_reducible apply Evolves.step (g := State.passFinal_evolves _ _ _ _ _)
    | with_reducible apply Evolves.part_same
    | ((with_reducible apply Evolves.part_in); rfl)
    | with_reducible exact And.intro rfl (And.intro rfl rfl)
    | (show _ = _; rfl)
    | with_reducible apply Evolves.ite
    | dsimp only
    | split
    | with_reducible apply Evolves.update

theorem State.placeSum_evolves (s : State) (op) (g) (x) (b) :
    Evolves [.regs, .mem, .free, .out, .heldOut, .tick, .seg, .stl, .hbm, .upd, .clo, .pyu, .host, .hlt, .bel]
      s (State.placeSum s op g x b) := by
  unfold State.placeSum
  repeat' first
    | with_reducible apply Evolves.refl
    | with_reducible apply Evolves.step (g := State.landBlock_evolves _ _ _ _)
    | with_reducible apply Evolves.step (g := State.sendBlock_evolves _ _ _ _ _)
    | with_reducible apply Evolves.step (g := State.takeFinal_evolves _ _ _ _ _)
    | with_reducible apply Evolves.step (g := State.passFinal_evolves _ _ _ _ _)
    | with_reducible apply Evolves.part_same
    | ((with_reducible apply Evolves.part_in); rfl)
    | with_reducible exact And.intro rfl (And.intro rfl rfl)
    | (show _ = _; rfl)
    | with_reducible apply Evolves.ite
    | dsimp only
    | split
    | with_reducible apply Evolves.update

theorem State.addDone_evolves (s : State) (op) (g) (x) (t) (repeated) :
    Evolves [.regs, .mem, .free, .out, .heldOut, .tick, .seg, .stl, .hbm, .upd, .clo, .pyu, .host, .hlt, .bel]
      s (State.addDone s op g x t repeated) := by
  unfold State.addDone
  repeat' first
    | with_reducible apply Evolves.refl
    | with_reducible apply Evolves.step (g := State.count_evolves _ _ _ _)
    | with_reducible apply Evolves.step (g := State.event_evolves _ _ _)
    | with_reducible apply Evolves.step (g := State.bel64_evolves _ _ _)
    | with_reducible apply Evolves.step (g := State.cloSat_evolves _)
    | with_reducible apply Evolves.step (g := State.placeSum_evolves _ _ _ _ _)
    | with_reducible apply Evolves.part_same
    | ((with_reducible apply Evolves.part_in); rfl)
    | with_reducible exact And.intro rfl (And.intro rfl rfl)
    | (show _ = _; rfl)
    | with_reducible apply Evolves.ite
    | dsimp only
    | split
    | with_reducible apply Evolves.update

theorem State.liftOperands_evolves (s : State) (op) :
    Evolves [.stl, .clo] s (State.liftOperands s op) := by
  unfold State.liftOperands
  repeat' first
    | with_reducible apply Evolves.refl
    | with_reducible apply Evolves.step (g := State.liftBlock_evolves _ _ _)
    | with_reducible apply Evolves.step (g := State.setRingPlace_evolves _ _ _ _)
    | with_reducible apply Evolves.step (P := [.stl, .clo]) (g := Evolves.foldl (fun _ _ => ?_) _ _)
    | (intro _)
    | with_reducible apply Evolves.part_same
    | ((with_reducible apply Evolves.part_in); rfl)
    | with_reducible exact And.intro rfl (And.intro rfl rfl)
    | (show _ = _; rfl)
    | with_reducible apply Evolves.ite
    | dsimp only
    | split
    | with_reducible apply Evolves.update

theorem State.addBlocks_evolves (s : State) (op) (g) (x) :
    Evolves [.regs, .mem, .free, .out, .heldOut, .tick, .seg, .stl, .hbm, .upd, .clo, .pyu, .host, .hlt, .bel]
      s (State.addBlocks s op g x) := by
  unfold State.addBlocks
  repeat' first
    | with_reducible apply Evolves.refl
    | with_reducible apply Evolves.step (g := State.cloFatal_evolves _ _ _ _)
    | with_reducible apply Evolves.step (g := State.placeSum_evolves _ _ _ _ _)
    | with_reducible apply Evolves.step (g := State.addDone_evolves _ _ _ _ _ _)
    | with_reducible apply Evolves.step (g := State.liftOperands_evolves _ _)
    | with_reducible apply Evolves.part_same
    | ((with_reducible apply Evolves.part_in); rfl)
    | with_reducible exact And.intro rfl (And.intro rfl rfl)
    | (show _ = _; rfl)
    | with_reducible apply Evolves.ite
    | dsimp only
    | split
    | with_reducible apply Evolves.update

theorem State.useResult_evolves (s : State) (r) (v) :
    Evolves [.regs, .mem, .free, .out, .heldOut, .tick, .seg, .me, .stl, .hbm, .upd, .clo, .host, .hlt, .bel]
      s (State.useResult s r v) := by
  unfold State.useResult
  repeat' first
    | with_reducible apply Evolves.refl
    | with_reducible apply Evolves.step (g := State.spoil_evolves _ _)
    | with_reducible apply Evolves.step (g := State.layerResult_evolves _ _ _ _ _)
    | with_reducible apply Evolves.step (g := State.writeRecord_evolves _ _)
    | with_reducible apply Evolves.step (g := State.releaseStile_evolves _ _)
    | with_reducible apply Evolves.part_same
    | ((with_reducible apply Evolves.part_in); rfl)
    | with_reducible exact And.intro rfl (And.intro rfl rfl)
    | (show _ = _; rfl)
    | with_reducible apply Evolves.ite
    | dsimp only
    | split
    | with_reducible apply Evolves.update

theorem State.dropVecs_evolves (s : State) (t) (plot) (round) (x1) :
    Evolves [.clo] s (State.dropVecs s t plot round x1) := by
  fun_induction State.dropVecs s t plot round x1
  all_goals repeat' first
    | with_reducible apply Evolves.refl
    | with_reducible assumption
    | with_reducible apply Evolves.step (g := State.setVecs_evolves _ _ _ _)
    | with_reducible apply Evolves.step (g := by assumption)
    | with_reducible apply Evolves.part_same
    | ((with_reducible apply Evolves.part_in); rfl)
    | with_reducible exact And.intro rfl (And.intro rfl rfl)
    | (show _ = _; rfl)
    | with_reducible apply Evolves.ite
    | dsimp only
    | split
    | with_reducible apply Evolves.update

theorem State.closeSum_evolves (s : State) (t) (plot) (v) :
    Evolves [.clo] s (State.closeSum s t plot v) := by
  unfold State.closeSum
  repeat' first
    | with_reducible apply Evolves.refl
    | with_reducible apply Evolves.step (g := State.setSred_evolves _ _ _)
    | with_reducible apply Evolves.step (g := State.dropVecs_evolves _ _ _ _ _)
    | with_reducible apply Evolves.part_same
    | ((with_reducible apply Evolves.part_in); rfl)
    | with_reducible exact And.intro rfl (And.intro rfl rfl)
    | (show _ = _; rfl)
    | with_reducible apply Evolves.ite
    | dsimp only
    | split
    | with_reducible apply Evolves.update

theorem State.sDone_evolves (s : State) (t) (r) (v) (slack) :
    Evolves [.regs, .mem, .free, .out, .heldOut, .tick, .seg, .me, .stl, .hbm, .upd, .clo, .host, .hlt, .bel]
      s (State.sDone s t r v slack) := by
  unfold State.sDone
  repeat' first
    | with_reducible apply Evolves.refl
    | with_reducible apply Evolves.step (g := State.count_evolves _ _ _ _)
    | with_reducible apply Evolves.step (g := State.minReg_evolves _ _ _)
    | with_reducible apply Evolves.step (g := State.bel64_evolves _ _ _)
    | with_reducible apply Evolves.step (g := State.trace_evolves _ _ _ _ _)
    | with_reducible apply Evolves.step (g := State.useResult_evolves _ _ _)
    | with_reducible apply Evolves.step (g := State.closeSum_evolves _ _ _ _)
    | with_reducible apply Evolves.part_same
    | ((with_reducible apply Evolves.part_in); rfl)
    | with_reducible exact And.intro rfl (And.intro rfl rfl)
    | (show _ = _; rfl)
    | with_reducible apply Evolves.ite
    | dsimp only
    | split
    | with_reducible apply Evolves.update

theorem State.sLate_evolves (s : State) (t) (r) :
    Evolves [.regs, .mem, .free, .out, .heldOut, .tick, .seg, .me, .stl, .hbm, .upd, .clo, .host, .hlt, .bel]
      s (State.sLate s t r) := by
  unfold State.sLate
  repeat' first
    | with_reducible apply Evolves.refl
    | with_reducible apply Evolves.step (g := State.count_evolves _ _ _ _)
    | with_reducible apply Evolves.step (g := State.event_evolves _ _ _)
    | with_reducible apply Evolves.step (g := State.bel64_evolves _ _ _)
    | with_reducible apply Evolves.step (g := State.trace_evolves _ _ _ _ _)
    | with_reducible apply Evolves.step (g := State.spoil_evolves _ _)
    | with_reducible apply Evolves.step (g := State.releaseStile_evolves _ _)
    | with_reducible apply Evolves.step (g := State.useResult_evolves _ _ _)
    | with_reducible apply Evolves.step (g := State.closeSum_evolves _ _ _ _)
    | with_reducible apply Evolves.part_same
    | ((with_reducible apply Evolves.part_in); rfl)
    | with_reducible exact And.intro rfl (And.intro rfl rfl)
    | (show _ = _; rfl)
    | with_reducible apply Evolves.ite
    | dsimp only
    | split
    | with_reducible apply Evolves.update

theorem State.setCommit_evolves (s : State) (c) :
    Evolves [.stl] s (State.setCommit s c) := by
  unfold State.setCommit
  repeat' first
    | with_reducible apply Evolves.refl
    | with_reducible apply Evolves.part_same
    | ((with_reducible apply Evolves.part_in); rfl)
    | with_reducible exact And.intro rfl (And.intro rfl rfl)
    | (show _ = _; rfl)
    | with_reducible apply Evolves.ite
    | dsimp only
    | split
    | with_reducible apply Evolves.update

theorem State.tryVotes_evolves (s : State) :
    Evolves [.regs, .mem, .out, .heldOut, .stl, .hbm, .clo, .pyu, .host, .bel] s (State.tryVotes s) := by
  unfold State.tryVotes
  repeat' first
    | with_reducible apply Evolves.refl
    | with_reducible apply Evolves.step (g := State.sendVec_evolves _ _ _ _)
    | with_reducible apply Evolves.step (g := State.setCommit_evolves _ _)
    | with_reducible apply Evolves.part_same
    | ((with_reducible apply Evolves.part_in); rfl)
    | with_reducible exact And.intro rfl (And.intro rfl rfl)
    | (show _ = _; rfl)
    | with_reducible apply Evolves.ite
    | dsimp only
    | split
    | with_reducible apply Evolves.update

theorem State.childVotes_evolves (s : State) (t) :
    Evolves [.regs, .mem, .out, .heldOut, .stl, .hbm, .clo, .pyu, .host, .bel] s (State.childVotes s t) := by
  unfold State.childVotes
  repeat' first
    | with_reducible apply Evolves.refl
    | with_reducible apply Evolves.step (g := State.setCommit_evolves _ _)
    | with_reducible apply Evolves.step (g := State.tryVotes_evolves _)
    | with_reducible apply Evolves.part_same
    | ((with_reducible apply Evolves.part_in); rfl)
    | with_reducible exact And.intro rfl (And.intro rfl rfl)
    | (show _ = _; rfl)
    | with_reducible apply Evolves.ite
    | dsimp only
    | split
    | with_reducible apply Evolves.update

theorem State.combineSum_evolves (s : State) (t) (red) (slack) :
    Evolves [.regs, .mem, .free, .out, .heldOut, .tick, .seg, .me, .stl, .hbm, .upd, .clo, .pyu, .host, .hlt, .bel]
      s (State.combineSum s t red slack) := by
  unfold State.combineSum
  repeat' first
    | with_reducible apply Evolves.refl
    | with_reducible apply Evolves.step (g := State.setSred_evolves _ _ _)
    | with_reducible apply Evolves.step (g := State.sendVec_evolves _ _ _ _)
    | with_reducible apply Evolves.step (g := State.sendDown_evolves _ _ _ _)
    | with_reducible apply Evolves.step (g := State.sDone_evolves _ _ _ _ _)
    | with_reducible apply Evolves.step (g := State.sLate_evolves _ _ _)
    | with_reducible apply Evolves.part_same
    | ((with_reducible apply Evolves.part_in); rfl)
    | with_reducible exact And.intro rfl (And.intro rfl rfl)
    | (show _ = _; rfl)
    | with_reducible apply Evolves.ite
    | dsimp only
    | split
    | with_reducible apply Evolves.update

theorem State.deadlineSum_evolves (s : State) (t) (red) :
    Evolves [.regs, .mem, .free, .out, .heldOut, .tick, .seg, .me, .stl, .hbm, .upd, .clo, .pyu, .host, .hlt, .bel]
      s (State.deadlineSum s t red) := by
  unfold State.deadlineSum
  repeat' first
    | with_reducible apply Evolves.refl
    | with_reducible apply Evolves.step (g := State.sendVec_evolves _ _ _ _)
    | with_reducible apply Evolves.step (g := State.sendDown_evolves _ _ _ _)
    | with_reducible apply Evolves.step (g := State.sLate_evolves _ _ _)
    | with_reducible apply Evolves.part_same
    | ((with_reducible apply Evolves.part_in); rfl)
    | with_reducible exact And.intro rfl (And.intro rfl rfl)
    | (show _ = _; rfl)
    | with_reducible apply Evolves.ite
    | dsimp only
    | split
    | with_reducible apply Evolves.update

theorem State.cloClr_evolves (s : State) (same) :
    Evolves [.regs] s (State.cloClr s same) := by
  unfold State.cloClr
  repeat' first
    | with_reducible apply Evolves.refl
    | with_reducible apply Evolves.step (g := State.setRegN_evolves _ _ _)
    | with_reducible apply Evolves.step (g := State.zeroRegs_evolves _ _)
    | with_reducible apply Evolves.step (g := State.sameCycle_evolves _ _)
    | with_reducible apply Evolves.part_same
    | ((with_reducible apply Evolves.part_in); rfl)
    | with_reducible exact And.intro rfl (And.intro rfl rfl)
    | (show _ = _; rfl)
    | with_reducible apply Evolves.ite
    | dsimp only
    | split
    | with_reducible apply Evolves.update

/-! ## Ports -/

theorem State.setPort_evolves (s : State) (p) (x) :
    Evolves [.pyu] s (State.setPort s p x) := by
  unfold State.setPort
  repeat' first
    | with_reducible apply Evolves.refl
    | with_reducible apply Evolves.part_same
    | ((with_reducible apply Evolves.part_in); rfl)
    | with_reducible exact And.intro rfl (And.intro rfl rfl)
    | (show _ = _; rfl)
    | with_reducible apply Evolves.ite
    | dsimp only
    | split
    | with_reducible apply Evolves.update

theorem State.portFail_evolves (s : State) (p) :
    Evolves [.regs, .out, .heldOut, .tick, .pyu, .host, .hlt] s (State.portFail s p) := by
  unfold State.portFail
  repeat' first
    | with_reducible apply Evolves.refl
    | with_reducible apply Evolves.step (g := State.event_evolves _ _ _)
    | with_reducible apply Evolves.step (g := State.ledgerFatal_evolves _ _ _)
    | with_reducible apply Evolves.step (g := State.stopReports_evolves _)
    | with_reducible apply Evolves.step (g := State.setPort_evolves _ _ _)
    | with_reducible apply Evolves.part_same
    | ((with_reducible apply Evolves.part_in); rfl)
    | with_reducible exact And.intro rfl (And.intro rfl rfl)
    | (show _ = _; rfl)
    | with_reducible apply Evolves.ite
    | dsimp only
    | split
    | with_reducible apply Evolves.update

theorem State.trainPort_evolves (s : State) (p) :
    Evolves [.pyu] s (State.trainPort s p) := by
  unfold State.trainPort
  repeat' first
    | with_reducible apply Evolves.refl
    | with_reducible apply Evolves.step (g := State.setPort_evolves _ _ _)
    | with_reducible apply Evolves.part_same
    | ((with_reducible apply Evolves.part_in); rfl)
    | with_reducible exact And.intro rfl (And.intro rfl rfl)
    | (show _ = _; rfl)
    | with_reducible apply Evolves.ite
    | dsimp only
    | split
    | with_reducible apply Evolves.update

theorem State.eachPort_evolves {P : List Part} (s : State) (f) (l : List Nat)
    (hf : ∀ t p, Evolves P t (f t p)) : Evolves P s (s.eachPort f l) := by
  induction l generalizing s with
  | nil => exact Evolves.refl s
  | cons p l ih => exact Evolves.step (hf s p) (ih _) (Evolves.covers_self P)

theorem State.topoTrain_evolves (s : State) (p) (width) :
    Evolves [.pyu] s (State.topoTrain s p width) := by
  unfold State.topoTrain
  repeat' first
    | with_reducible apply Evolves.refl
    | with_reducible apply Evolves.step (g := State.trainPort_evolves _ _)
    | with_reducible apply Evolves.part_same
    | ((with_reducible apply Evolves.part_in); rfl)
    | with_reducible exact And.intro rfl (And.intro rfl rfl)
    | (show _ = _; rfl)
    | with_reducible apply Evolves.ite
    | dsimp only
    | split
    | with_reducible apply Evolves.update

theorem State.topoPorts_evolves (s : State) :
    Evolves [.pyu] s (State.topoPorts s) := by
  unfold State.topoPorts
  repeat' first
    | with_reducible apply Evolves.refl
    | with_reducible apply Evolves.step (g := State.setPort_evolves _ _ _)
    | with_reducible apply Evolves.step (P := [.pyu]) (g := State.eachPort_evolves _ _ _ ?_)
    | with_reducible apply Evolves.step (g := State.topoTrain_evolves _ _ _)
    | (intro _)
    | with_reducible apply Evolves.part_same
    | ((with_reducible apply Evolves.part_in); rfl)
    | with_reducible exact And.intro rfl (And.intro rfl rfl)
    | (show _ = _; rfl)
    | with_reducible apply Evolves.ite
    | dsimp only
    | split
    | with_reducible apply Evolves.update

theorem State.freePorts_evolves (s : State) :
    Evolves [.pyu] s (State.freePorts s) := by
  unfold State.freePorts
  repeat' first
    | with_reducible apply Evolves.refl
    | with_reducible apply Evolves.step (g := State.trainPort_evolves _ _)
    | with_reducible apply Evolves.step (P := [.pyu]) (g := State.eachPort_evolves _ _ _ ?_)
    | (intro _)
    | with_reducible apply Evolves.part_same
    | ((with_reducible apply Evolves.part_in); rfl)
    | with_reducible exact And.intro rfl (And.intro rfl rfl)
    | (show _ = _; rfl)
    | with_reducible apply Evolves.ite
    | dsimp only
    | split
    | with_reducible apply Evolves.update

theorem State.pushFrame_evolves (s : State) (p) (body) :
    Evolves [.out, .pyu, .bel] s (State.pushFrame s p body) := by
  unfold State.pushFrame
  repeat' first
    | with_reducible apply Evolves.refl
    | with_reducible apply Evolves.step (g := State.send_evolves _ _)
    | with_reducible apply Evolves.step (g := State.bel64_evolves _ _ _)
    | with_reducible apply Evolves.step (g := State.setPort_evolves _ _ _)
    | with_reducible apply Evolves.part_same
    | ((with_reducible apply Evolves.part_in); rfl)
    | with_reducible exact And.intro rfl (And.intro rfl rfl)
    | (show _ = _; rfl)
    | with_reducible apply Evolves.ite
    | dsimp only
    | split
    | with_reducible apply Evolves.update

theorem State.sendAgain_evolves (s : State) (p) (i) :
    Evolves [.out, .pyu, .bel] s (State.sendAgain s p i) := by
  unfold State.sendAgain
  repeat' first
    | with_reducible apply Evolves.refl
    | with_reducible apply Evolves.step (g := State.send_evolves _ _)
    | with_reducible apply Evolves.step (g := State.bel64_evolves _ _ _)
    | with_reducible apply Evolves.step (g := State.setPort_evolves _ _ _)
    | with_reducible apply Evolves.part_same
    | ((with_reducible apply Evolves.part_in); rfl)
    | with_reducible exact And.intro rfl (And.intro rfl rfl)
    | (show _ = _; rfl)
    | with_reducible apply Evolves.ite
    | dsimp only
    | split
    | with_reducible apply Evolves.update

theorem State.startReplay_evolves (s : State) (p) :
    Evolves [.regs, .free, .out, .heldOut, .tick, .pyu, .host, .hlt, .bel] s (State.startReplay s p) := by
  unfold State.startReplay
  repeat' first
    | with_reducible apply Evolves.refl
    | with_reducible apply Evolves.step (g := State.count_evolves _ _ _ _)
    | with_reducible apply Evolves.step (g := State.event_evolves _ _ _)
    | with_reducible apply Evolves.step (g := State.bel64_evolves _ _ _)
    | with_reducible apply Evolves.step (g := State.live_evolves _ _ _)
    | with_reducible apply Evolves.step (g := State.trace_evolves _ _ _ _ _)
    | with_reducible apply Evolves.step (g := State.setPort_evolves _ _ _)
    | with_reducible apply Evolves.step (g := State.portFail_evolves _ _)
    | with_reducible apply Evolves.part_same
    | ((with_reducible apply Evolves.part_in); rfl)
    | with_reducible exact And.intro rfl (And.intro rfl rfl)
    | (show _ = _; rfl)
    | with_reducible apply Evolves.ite
    | dsimp only
    | split
    | with_reducible apply Evolves.update

theorem State.framePeriod_evolves {P : List Part} (s : State) (p) (new) (hn : ∀ t, Evolves P t (new t))
    (hp : ([.regs, .free, .out, .heldOut, .tick, .pyu, .host, .hlt,
        .bel].all fun q => P.contains q) = true) : Evolves P s (s.framePeriod p new) := by
  unfold State.framePeriod
  split
  · exact Evolves.refl s
  · split
    · exact ((s.sendAgain_evolves ..).widen (Q := [.regs, .free, .out, .heldOut, .tick, .pyu, .host, .hlt, .bel]) rfl).widen hp
    · split
      · dsimp only
        split
        · exact (((s.startReplay_evolves p).widen (Q := [.regs, .free, .out, .heldOut, .tick, .pyu, .host, .hlt,
            .bel]) rfl).step (State.sendAgain_evolves ..) rfl).widen hp
        · exact ((s.startReplay_evolves p).widen (Q := [.regs, .free, .out, .heldOut, .tick, .pyu, .host, .hlt,
            .bel]) rfl).widen hp
      · exact hn s

theorem State.calibrate_evolves (s : State) (p) :
    Evolves [.free, .out, .pyu, .bel] s (State.calibrate s p) := by
  unfold State.calibrate
  repeat' first
    | with_reducible apply Evolves.refl
    | with_reducible apply Evolves.step (g := State.used_evolves _)
    | with_reducible apply Evolves.step (g := State.setPort_evolves _ _ _)
    | with_reducible apply Evolves.step (g := State.pushFrame_evolves _ _ _)
    | with_reducible apply Evolves.part_same
    | ((with_reducible apply Evolves.part_in); rfl)
    | with_reducible exact And.intro rfl (And.intro rfl rfl)
    | (show _ = _; rfl)
    | with_reducible apply Evolves.ite
    | dsimp only
    | split
    | with_reducible apply Evolves.update

theorem State.calibratePort_evolves (s : State) (p) :
    Evolves [.regs, .free, .out, .heldOut, .tick, .pyu, .host, .hlt, .bel] s (State.calibratePort s p) := by
  unfold State.calibratePort
  repeat' first
    | with_reducible apply Evolves.refl
    | with_reducible apply Evolves.step (P := [.regs, .free, .out, .heldOut, .tick, .pyu, .host, .hlt, .bel]) (g := State.framePeriod_evolves _ _ _ ?_ ?_)
    | with_reducible apply Evolves.step (g := State.calibrate_evolves _ _)
    | (intro _)
    | with_reducible apply Evolves.part_same
    | ((with_reducible apply Evolves.part_in); rfl)
    | with_reducible exact And.intro rfl (And.intro rfl rfl)
    | (show _ = _; rfl)
    | with_reducible apply Evolves.ite
    | dsimp only
    | split
    | with_reducible apply Evolves.update

theorem State.queueBeacon_evolves (s : State) (rank) (b) (k) :
    Evolves [.pyu, .bel] s (State.queueBeacon s rank b k) := by
  unfold State.queueBeacon
  repeat' first
    | with_reducible apply Evolves.refl
    | with_reducible apply Evolves.step (g := State.bel64_evolves _ _ _)
    | with_reducible apply Evolves.step (g := State.setPort_evolves _ _ _)
    | with_reducible apply Evolves.part_same
    | ((with_reducible apply Evolves.part_in); rfl)
    | with_reducible exact And.intro rfl (And.intro rfl rfl)
    | (show _ = _; rfl)
    | with_reducible apply Evolves.ite
    | dsimp only
    | split
    | with_reducible apply Evolves.update

theorem State.sendBeaconUp_evolves (s : State) (parent) (b) :
    Evolves [.out, .pyu, .bel] s (State.sendBeaconUp s parent b) := by
  unfold State.sendBeaconUp
  repeat' first
    | with_reducible apply Evolves.refl
    | with_reducible apply Evolves.step (g := State.send_evolves _ _)
    | with_reducible apply Evolves.step (g := State.queueBeacon_evolves _ _ _ _)
    | with_reducible apply Evolves.part_same
    | ((with_reducible apply Evolves.part_in); rfl)
    | with_reducible exact And.intro rfl (And.intro rfl rfl)
    | (show _ = _; rfl)
    | with_reducible apply Evolves.ite
    | dsimp only
    | split
    | with_reducible apply Evolves.update

theorem State.sendBeaconDown_evolves (s : State) (b) (x1) :
    Evolves [.out, .pyu, .bel] s (State.sendBeaconDown s b x1) := by
  fun_induction State.sendBeaconDown s b x1
  all_goals repeat' first
    | with_reducible apply Evolves.refl
    | with_reducible assumption
    | with_reducible apply Evolves.step (g := State.send_evolves _ _)
    | with_reducible apply Evolves.step (g := State.queueBeacon_evolves _ _ _ _)
    | with_reducible apply Evolves.step (g := by assumption)
    | with_reducible apply Evolves.part_same
    | ((with_reducible apply Evolves.part_in); rfl)
    | with_reducible exact And.intro rfl (And.intro rfl rfl)
    | (show _ = _; rfl)
    | with_reducible apply Evolves.ite
    | dsimp only
    | split
    | with_reducible apply Evolves.update

theorem State.sendStartUp_evolves (s : State) (parent) (covered) :
    Evolves [.out, .pyu, .bel] s (State.sendStartUp s parent covered) := by
  unfold State.sendStartUp
  repeat' first
    | with_reducible apply Evolves.refl
    | with_reducible apply Evolves.step (g := State.send_evolves _ _)
    | with_reducible apply Evolves.step (g := State.queueBeacon_evolves _ _ _ _)
    | with_reducible apply Evolves.part_same
    | ((with_reducible apply Evolves.part_in); rfl)
    | with_reducible exact And.intro rfl (And.intro rfl rfl)
    | (show _ = _; rfl)
    | with_reducible apply Evolves.ite
    | dsimp only
    | split
    | with_reducible apply Evolves.update

theorem State.sendStartDown_evolves (s : State) (x1) :
    Evolves [.out, .pyu, .bel] s (State.sendStartDown s x1) := by
  fun_induction State.sendStartDown s x1
  all_goals repeat' first
    | with_reducible apply Evolves.refl
    | with_reducible assumption
    | with_reducible apply Evolves.step (g := State.send_evolves _ _)
    | with_reducible apply Evolves.step (g := State.queueBeacon_evolves _ _ _ _)
    | with_reducible apply Evolves.step (g := by assumption)
    | with_reducible apply Evolves.part_same
    | ((with_reducible apply Evolves.part_in); rfl)
    | with_reducible exact And.intro rfl (And.intro rfl rfl)
    | (show _ = _; rfl)
    | with_reducible apply Evolves.ite
    | dsimp only
    | split
    | with_reducible apply Evolves.update

/-! ## Ticks -/

theorem State.latchGate_evolves (s : State) (own) (job) :
    Evolves [.regs, .out, .heldOut, .adm, .host] s (State.latchGate s own job) := by
  unfold State.latchGate
  repeat' first
    | with_reducible apply Evolves.refl
    | with_reducible apply Evolves.step (g := State.event_evolves _ _ _)
    | with_reducible apply Evolves.part_same
    | ((with_reducible apply Evolves.part_in); rfl)
    | with_reducible exact And.intro rfl (And.intro rfl rfl)
    | (show _ = _; rfl)
    | with_reducible apply Evolves.ite
    | dsimp only
    | split
    | with_reducible apply Evolves.update

theorem State.holdReport_evolves (s : State) (b) (delay) :
    Evolves [.regs, .out, .tick, .pyu, .bel] s (State.holdReport s b delay) := by
  unfold State.holdReport
  repeat' first
    | with_reducible apply Evolves.refl
    | with_reducible apply Evolves.step (g := State.maxReg_evolves _ _ _)
    | with_reducible apply Evolves.step (g := State.sendBeaconDown_evolves _ _ _)
    | with_reducible apply Evolves.part_same
    | ((with_reducible apply Evolves.part_in); rfl)
    | with_reducible exact And.intro rfl (And.intro rfl rfl)
    | (show _ = _; rfl)
    | with_reducible apply Evolves.ite
    | dsimp only
    | split
    | with_reducible apply Evolves.update

theorem State.tryReport_evolves (s : State) (delay) :
    Evolves [.regs, .out, .heldOut, .tick, .pyu, .host, .bel] s (State.tryReport s delay) := by
  unfold State.tryReport
  repeat' first
    | with_reducible apply Evolves.refl
    | with_reducible apply Evolves.step (g := State.event_evolves _ _ _)
    | with_reducible apply Evolves.step (g := State.sendBeaconUp_evolves _ _ _)
    | with_reducible apply Evolves.step (g := State.holdReport_evolves _ _ _)
    | with_reducible apply Evolves.step (P := [.regs, .out, .heldOut, .tick, .pyu, .host, .bel]) (g := Evolves.foldl (fun _ _ => ?_) _ _)
    | (intro _)
    | with_reducible apply Evolves.part_same
    | ((with_reducible apply Evolves.part_in); rfl)
    | with_reducible exact And.intro rfl (And.intro rfl rfl)
    | (show _ = _; rfl)
    | with_reducible apply Evolves.ite
    | dsimp only
    | split
    | with_reducible apply Evolves.update

theorem State.sendReport_evolves (s : State) :
    Evolves [.regs, .out, .heldOut, .tick, .pyu, .host, .bel] s (State.sendReport s) := by
  unfold State.sendReport
  repeat' first
    | with_reducible apply Evolves.refl
    | with_reducible apply Evolves.step (g := State.tryReport_evolves _ _)
    | with_reducible apply Evolves.part_same
    | ((with_reducible apply Evolves.part_in); rfl)
    | with_reducible exact And.intro rfl (And.intro rfl rfl)
    | (show _ = _; rfl)
    | with_reducible apply Evolves.ite
    | dsimp only
    | split
    | with_reducible apply Evolves.update

theorem State.endRun_evolves (s : State) :
    Evolves [.regs, .out, .heldOut, .pwr, .host, .hlt] s (State.endRun s) := by
  unfold State.endRun
  repeat' first
    | with_reducible apply Evolves.refl
    | with_reducible apply Evolves.step (g := State.live_evolves _ _ _)
    | with_reducible apply Evolves.step (g := State.ledgerEvent_evolves _ _ _ _ _ _)
    | with_reducible apply Evolves.part_same
    | ((with_reducible apply Evolves.part_in); rfl)
    | with_reducible exact And.intro rfl (And.intro rfl rfl)
    | (show _ = _; rfl)
    | with_reducible apply Evolves.ite
    | dsimp only
    | split
    | with_reducible apply Evolves.update

theorem State.divergent_evolves (s : State) (m) (p) :
    Evolves [.pwr, .hlt] s (State.divergent s m p) := by
  unfold State.divergent
  repeat' first
    | with_reducible apply Evolves.refl
    | with_reducible apply Evolves.step (g := State.live_evolves _ _ _)
    | with_reducible apply Evolves.part_same
    | ((with_reducible apply Evolves.part_in); rfl)
    | with_reducible exact And.intro rfl (And.intro rfl rfl)
    | (show _ = _; rfl)
    | with_reducible apply Evolves.ite
    | dsimp only
    | split
    | with_reducible apply Evolves.update

theorem State.powerEdge_evolves (s : State) (m) (p) :
    Evolves [.regs, .out, .heldOut, .pwr, .host, .hlt] s (State.powerEdge s m p) := by
  unfold State.powerEdge
  repeat' first
    | with_reducible apply Evolves.refl
    | with_reducible apply Evolves.step (g := State.endRun_evolves _)
    | with_reducible apply Evolves.step (g := State.divergent_evolves _ _ _)
    | with_reducible apply Evolves.part_same
    | ((with_reducible apply Evolves.part_in); rfl)
    | with_reducible exact And.intro rfl (And.intro rfl rfl)
    | (show _ = _; rfl)
    | with_reducible apply Evolves.ite
    | dsimp only
    | split
    | with_reducible apply Evolves.update

theorem State.raiseGroup_evolves (s : State) (b) (g) :
    Evolves [.tick] s (State.raiseGroup s b g) := by
  unfold State.raiseGroup
  repeat' first
    | with_reducible apply Evolves.refl
    | with_reducible apply Evolves.part_same
    | ((with_reducible apply Evolves.part_in); rfl)
    | with_reducible exact And.intro rfl (And.intro rfl rfl)
    | (show _ = _; rfl)
    | with_reducible apply Evolves.ite
    | dsimp only
    | split
    | with_reducible apply Evolves.update

theorem State.raiseGroups_evolves (s : State) (b) :
    Evolves [.tick] s (State.raiseGroups s b) := by
  unfold State.raiseGroups
  repeat' first
    | with_reducible apply Evolves.refl
    | with_reducible apply Evolves.step (g := State.raiseGroup_evolves _ _ _)
    | with_reducible apply Evolves.step (P := [.tick]) (g := Evolves.foldl (fun _ _ => ?_) _ _)
    | (intro _)
    | with_reducible apply Evolves.part_same
    | ((with_reducible apply Evolves.part_in); rfl)
    | with_reducible exact And.intro rfl (And.intro rfl rfl)
    | (show _ = _; rfl)
    | with_reducible apply Evolves.ite
    | dsimp only
    | split
    | with_reducible apply Evolves.update

theorem State.returnPlots_evolves (s : State) (n) :
    Evolves [.adm] s (State.returnPlots s n) := by
  unfold State.returnPlots
  repeat' first
    | with_reducible apply Evolves.refl
    | with_reducible apply Evolves.part_same
    | ((with_reducible apply Evolves.part_in); rfl)
    | with_reducible exact And.intro rfl (And.intro rfl rfl)
    | (show _ = _; rfl)
    | with_reducible apply Evolves.ite
    | dsimp only
    | split
    | with_reducible apply Evolves.update

theorem State.completeSlot_evolves (s : State) (k) :
    Evolves [.regs, .mem, .free, .out, .heldOut, .adm, .hbm, .host, .bel] s (State.completeSlot s k) := by
  unfold State.completeSlot
  repeat' first
    | with_reducible apply Evolves.refl
    | with_reducible apply Evolves.step (g := State.complete_evolves _ _)
    | with_reducible apply Evolves.step (g := State.chainBack_evolves _ _ _)
    | with_reducible apply Evolves.step (g := State.returnPlots_evolves _ _)
    | with_reducible apply Evolves.part_same
    | ((with_reducible apply Evolves.part_in); rfl)
    | with_reducible exact And.intro rfl (And.intro rfl rfl)
    | (show _ = _; rfl)
    | with_reducible apply Evolves.ite
    | dsimp only
    | split
    | with_reducible apply Evolves.update

theorem State.endStep_evolves (s : State) :
    Evolves [.regs, .tick] s (State.endStep s) := by
  unfold State.endStep
  repeat' first
    | with_reducible apply Evolves.refl
    | with_reducible apply Evolves.step (g := State.setBit_evolves _ _ _ _)
    | with_reducible apply Evolves.part_same
    | ((with_reducible apply Evolves.part_in); rfl)
    | with_reducible exact And.intro rfl (And.intro rfl rfl)
    | (show _ = _; rfl)
    | with_reducible apply Evolves.ite
    | dsimp only
    | split
    | with_reducible apply Evolves.update

theorem State.clearEngines_evolves (s : State) :
    Evolves [.me, .ve] s (State.clearEngines s) := by
  unfold State.clearEngines
  repeat' first
    | with_reducible apply Evolves.refl
    | with_reducible apply Evolves.part_same
    | ((with_reducible apply Evolves.part_in); rfl)
    | with_reducible exact And.intro rfl (And.intro rfl rfl)
    | (show _ = _; rfl)
    | with_reducible apply Evolves.ite
    | dsimp only
    | split
    | with_reducible apply Evolves.update

theorem State.clearStreams_evolves (s : State) :
    Evolves [.seg, .stl, .upd, .clo, .pyu] s (State.clearStreams s) := by
  unfold State.clearStreams
  repeat' first
    | with_reducible apply Evolves.refl
    | with_reducible apply Evolves.step (g := State.mapPlots_evolves _ _)
    | with_reducible apply Evolves.part_same
    | ((with_reducible apply Evolves.part_in); rfl)
    | with_reducible exact And.intro rfl (And.intro rfl rfl)
    | (show _ = _; rfl)
    | with_reducible apply Evolves.ite
    | dsimp only
    | split
    | with_reducible apply Evolves.update

theorem State.fillCredits_evolves (s : State) :
    Evolves [.stl] s (State.fillCredits s) := by
  unfold State.fillCredits
  repeat' first
    | with_reducible apply Evolves.refl
    | with_reducible apply Evolves.step (g := State.mapPlots_evolves _ _)
    | with_reducible apply Evolves.part_same
    | ((with_reducible apply Evolves.part_in); rfl)
    | with_reducible exact And.intro rfl (And.intro rfl rfl)
    | (show _ = _; rfl)
    | with_reducible apply Evolves.ite
    | dsimp only
    | split
    | with_reducible apply Evolves.update

theorem State.unthrottle_evolves (s : State) :
    Evolves [.regs, .hbm] s (State.unthrottle s) := by
  unfold State.unthrottle
  repeat' first
    | with_reducible apply Evolves.refl
    | with_reducible apply Evolves.step (g := State.applyShares_evolves _ _)
    | with_reducible apply Evolves.part_same
    | ((with_reducible apply Evolves.part_in); rfl)
    | with_reducible exact And.intro rfl (And.intro rfl rfl)
    | (show _ = _; rfl)
    | with_reducible apply Evolves.ite
    | dsimp only
    | split
    | with_reducible apply Evolves.update

theorem State.halt_evolves (s : State) :
    Evolves [.regs, .mem, .free, .out, .heldOut, .image, .tick, .adm, .seg, .me, .ve, .stl, .hbm, .upd, .clo, .pyu, .pwr,
        .host, .hlt, .bel]
      s (State.halt s) := by
  unfold State.halt
  repeat' first
    | with_reducible apply Evolves.refl
    | with_reducible apply Evolves.step (g := State.event_evolves _ _ _)
    | with_reducible apply Evolves.step (g := State.completeAll_evolves _ _)
    | with_reducible apply Evolves.step (g := State.setCommit_evolves _ _)
    | with_reducible apply Evolves.step (g := State.endRun_evolves _)
    | with_reducible apply Evolves.step (g := State.returnPlots_evolves _ _)
    | with_reducible apply Evolves.step (g := State.endStep_evolves _)
    | with_reducible apply Evolves.step (g := State.clearEngines_evolves _)
    | with_reducible apply Evolves.step (g := State.clearStreams_evolves _)
    | with_reducible apply Evolves.step (g := State.fillCredits_evolves _)
    | with_reducible apply Evolves.step (g := State.unthrottle_evolves _)
    | with_reducible apply Evolves.part_same
    | ((with_reducible apply Evolves.part_in); rfl)
    | with_reducible exact And.intro rfl (And.intro rfl rfl)
    | (show _ = _; rfl)
    | with_reducible apply Evolves.ite
    | dsimp only
    | split
    | with_reducible apply Evolves.update

theorem State.slip_evolves (s : State) (late) :
    Evolves [.regs, .free] s (State.slip s late) := by
  unfold State.slip
  repeat' first
    | with_reducible apply Evolves.refl
    | with_reducible apply Evolves.step (g := State.setReg_evolves _ _ _)
    | with_reducible apply Evolves.step (g := State.setRegN_evolves _ _ _)
    | with_reducible apply Evolves.step (g := State.used_evolves _)
    | with_reducible apply Evolves.part_same
    | ((with_reducible apply Evolves.part_in); rfl)
    | with_reducible exact And.intro rfl (And.intro rfl rfl)
    | (show _ = _; rfl)
    | with_reducible apply Evolves.ite
    | dsimp only
    | split
    | with_reducible apply Evolves.update

theorem State.lateEdge_evolves (s : State) (late) :
    Evolves [.regs, .free, .out, .heldOut, .host, .bel] s (State.lateEdge s late) := by
  unfold State.lateEdge
  repeat' first
    | with_reducible apply Evolves.refl
    | with_reducible apply Evolves.step (g := State.count_evolves _ _ _ _)
    | with_reducible apply Evolves.step (g := State.maxReg_evolves _ _ _)
    | with_reducible apply Evolves.step (g := State.event_evolves _ _ _)
    | with_reducible apply Evolves.step (g := State.belBoth_evolves _ _ _)
    | with_reducible apply Evolves.step (g := State.traceBoth_evolves _ _ _)
    | with_reducible apply Evolves.step (g := State.slip_evolves _ _)
    | with_reducible apply Evolves.part_same
    | ((with_reducible apply Evolves.part_in); rfl)
    | with_reducible exact And.intro rfl (And.intro rfl rfl)
    | (show _ = _; rfl)
    | with_reducible apply Evolves.ite
    | dsimp only
    | split
    | with_reducible apply Evolves.update

theorem State.shadowEdge_evolves (s : State) :
    Evolves [.regs, .out, .heldOut, .upd, .host] s (State.shadowEdge s) := by
  unfold State.shadowEdge
  repeat' first
    | with_reducible apply Evolves.refl
    | with_reducible apply Evolves.step (g := State.event_evolves _ _ _)
    | with_reducible apply Evolves.part_same
    | ((with_reducible apply Evolves.part_in); rfl)
    | with_reducible exact And.intro rfl (And.intro rfl rfl)
    | (show _ = _; rfl)
    | with_reducible apply Evolves.ite
    | dsimp only
    | split
    | with_reducible apply Evolves.update

theorem State.closeTick_evolves (s : State) (late) (measured) (predicted) (b) :
    Evolves [.regs, .mem, .free, .out, .heldOut, .tick, .adm, .stl, .hbm, .upd, .pwr, .host, .hlt, .bel]
      s (State.closeTick s late measured predicted b) := by
  unfold State.closeTick
  repeat' first
    | with_reducible apply Evolves.refl
    | with_reducible apply Evolves.step (g := State.setCommit_evolves _ _)
    | with_reducible apply Evolves.step (g := State.powerEdge_evolves _ _ _)
    | with_reducible apply Evolves.step (g := State.raiseGroups_evolves _ _)
    | with_reducible apply Evolves.step (g := State.completeSlot_evolves _ _)
    | with_reducible apply Evolves.step (g := State.endStep_evolves _)
    | with_reducible apply Evolves.step (g := State.lateEdge_evolves _ _)
    | with_reducible apply Evolves.step (g := State.shadowEdge_evolves _)
    | with_reducible apply Evolves.part_same
    | ((with_reducible apply Evolves.part_in); rfl)
    | with_reducible exact And.intro rfl (And.intro rfl rfl)
    | (show _ = _; rfl)
    | with_reducible apply Evolves.ite
    | dsimp only
    | split
    | with_reducible apply Evolves.update

theorem State.bindChain_evolves (s : State) (table) (first) (i) :
    Evolves [.stl, .bel] s (State.bindChain s table first i) := by
  unfold State.bindChain
  repeat' first
    | with_reducible apply Evolves.refl
    | with_reducible apply Evolves.step (g := State.bel64_evolves _ _ _)
    | with_reducible apply Evolves.step (g := State.setPlot_evolves _ _ _)
    | with_reducible apply Evolves.part_same
    | ((with_reducible apply Evolves.part_in); rfl)
    | with_reducible exact And.intro rfl (And.intro rfl rfl)
    | (show _ = _; rfl)
    | with_reducible apply Evolves.ite
    | dsimp only
    | split
    | with_reducible apply Evolves.update

theorem State.bindChains_evolves (s : State) (table) (first) (x1) :
    Evolves [.stl, .bel] s (State.bindChains s table first x1) := by
  fun_induction State.bindChains s table first x1
  all_goals repeat' first
    | with_reducible apply Evolves.refl
    | with_reducible assumption
    | with_reducible apply Evolves.step (g := State.bindChain_evolves _ _ _ _)
    | with_reducible apply Evolves.step (g := by assumption)
    | with_reducible apply Evolves.part_same
    | ((with_reducible apply Evolves.part_in); rfl)
    | with_reducible exact And.intro rfl (And.intro rfl rfl)
    | (show _ = _; rfl)
    | with_reducible apply Evolves.ite
    | dsimp only
    | split
    | with_reducible apply Evolves.update

theorem State.stepStreams_evolves (s : State) :
    Evolves [.seg, .stl, .clo, .pyu] s (State.stepStreams s) := by
  unfold State.stepStreams
  repeat' first
    | with_reducible apply Evolves.refl
    | with_reducible apply Evolves.part_same
    | ((with_reducible apply Evolves.part_in); rfl)
    | with_reducible exact And.intro rfl (And.intro rfl rfl)
    | (show _ = _; rfl)
    | with_reducible apply Evolves.ite
    | dsimp only
    | split
    | with_reducible apply Evolves.update

theorem State.startStep_evolves (s : State) (x) (k) (t) :
    Evolves [.regs, .tick, .seg, .stl, .upd, .clo, .pyu, .pwr, .hlt, .bel] s (State.startStep s x k t) := by
  unfold State.startStep
  repeat' first
    | with_reducible apply Evolves.refl
    | with_reducible apply Evolves.step (g := State.setReg_evolves _ _ _)
    | with_reducible apply Evolves.step (g := State.live_evolves _ _ _)
    | with_reducible apply Evolves.step (g := State.stepCoefficients_evolves _)
    | with_reducible apply Evolves.step (g := State.setCommit_evolves _ _)
    | with_reducible apply Evolves.step (g := State.bindChains_evolves _ _ _ _)
    | with_reducible apply Evolves.step (g := State.stepStreams_evolves _)
    | with_reducible apply Evolves.part_same
    | ((with_reducible apply Evolves.part_in); rfl)
    | with_reducible exact And.intro rfl (And.intro rfl rfl)
    | (show _ = _; rfl)
    | with_reducible apply Evolves.ite
    | dsimp only
    | split
    | with_reducible apply Evolves.update

theorem State.openSlot_evolves (s : State) (x) (b) :
    Evolves [.regs, .out, .heldOut, .tick, .seg, .stl, .upd, .clo, .pyu, .pwr, .host, .hlt, .bel] s (State.openSlot s x b) := by
  unfold State.openSlot
  repeat' first
    | with_reducible apply Evolves.refl
    | with_reducible apply Evolves.step (g := State.event_evolves _ _ _)
    | with_reducible apply Evolves.step (g := State.startStep_evolves _ _ _ _)
    | with_reducible apply Evolves.part_same
    | ((with_reducible apply Evolves.part_in); rfl)
    | with_reducible exact And.intro rfl (And.intro rfl rfl)
    | (show _ = _; rfl)
    | with_reducible apply Evolves.ite
    | dsimp only
    | split
    | with_reducible apply Evolves.update

theorem State.bindSlot_evolves (s : State) :
    Evolves [.tick] s (State.bindSlot s) := by
  unfold State.bindSlot
  repeat' first
    | with_reducible apply Evolves.refl
    | with_reducible apply Evolves.part_same
    | ((with_reducible apply Evolves.part_in); rfl)
    | with_reducible exact And.intro rfl (And.intro rfl rfl)
    | (show _ = _; rfl)
    | with_reducible apply Evolves.ite
    | dsimp only
    | split
    | with_reducible apply Evolves.update

theorem State.startStitch_evolves (s : State) :
    Evolves [.regs, .free, .out, .heldOut, .tick, .pyu, .host, .bel] s (State.startStitch s) := by
  unfold State.startStitch
  repeat' first
    | with_reducible apply Evolves.refl
    | with_reducible apply Evolves.step (g := State.setRegN_evolves _ _ _)
    | with_reducible apply Evolves.step (g := State.minReg_evolves _ _ _)
    | with_reducible apply Evolves.step (g := State.belBoth_evolves _ _ _)
    | with_reducible apply Evolves.step (g := State.traceBoth_evolves _ _ _)
    | with_reducible apply Evolves.step (g := State.sendReport_evolves _)
    | with_reducible apply Evolves.part_same
    | ((with_reducible apply Evolves.part_in); rfl)
    | with_reducible exact And.intro rfl (And.intro rfl rfl)
    | (show _ = _; rfl)
    | with_reducible apply Evolves.ite
    | dsimp only
    | split
    | with_reducible apply Evolves.update

theorem State.capEdge_evolves (s : State) :
    Evolves [.pwr] s (State.capEdge s) := by
  unfold State.capEdge
  repeat' first
    | with_reducible apply Evolves.refl
    | with_reducible apply Evolves.part_same
    | ((with_reducible apply Evolves.part_in); rfl)
    | with_reducible exact And.intro rfl (And.intro rfl rfl)
    | (show _ = _; rfl)
    | with_reducible apply Evolves.ite
    | dsimp only
    | split
    | with_reducible apply Evolves.update

theorem State.beginTick_evolves (s : State) (n) :
    Evolves [.regs, .tick, .pwr] s (State.beginTick s n) := by
  unfold State.beginTick
  repeat' first
    | with_reducible apply Evolves.refl
    | with_reducible apply Evolves.step (g := State.applyShares_evolves _ _)
    | with_reducible apply Evolves.step (g := State.capEdge_evolves _)
    | with_reducible apply Evolves.part_same
    | ((with_reducible apply Evolves.part_in); rfl)
    | with_reducible exact And.intro rfl (And.intro rfl rfl)
    | (show _ = _; rfl)
    | with_reducible apply Evolves.ite
    | dsimp only
    | split
    | with_reducible apply Evolves.update

theorem State.belCopy_evolves (s : State) :
    Evolves [.regs, .bel] s (State.belCopy s) := by
  unfold State.belCopy
  repeat' first
    | with_reducible apply Evolves.refl
    | with_reducible apply Evolves.step (g := State.setRegN_evolves _ _ _)
    | with_reducible apply Evolves.part_same
    | ((with_reducible apply Evolves.part_in); rfl)
    | with_reducible exact And.intro rfl (And.intro rfl rfl)
    | (show _ = _; rfl)
    | with_reducible apply Evolves.ite
    | dsimp only
    | split
    | with_reducible apply Evolves.update

theorem State.loadTable_evolves (s : State) :
    Evolves [.trl] s (State.loadTable s) := by
  unfold State.loadTable
  repeat' first
    | with_reducible apply Evolves.refl
    | with_reducible apply Evolves.part_same
    | ((with_reducible apply Evolves.part_in); rfl)
    | with_reducible exact And.intro rfl (And.intro rfl rfl)
    | (show _ = _; rfl)
    | with_reducible apply Evolves.ite
    | dsimp only
    | split
    | with_reducible apply Evolves.update

theorem State.edge_evolves (s : State) (x) (late) (measured) (predicted) (b) :
    Evolves [.regs, .mem, .free, .out, .heldOut, .tick, .adm, .seg, .stl, .hbm, .upd, .clo, .trl, .pyu, .pwr, .host, .hlt, .bel]
      s (State.edge s x late measured predicted b) := by
  unfold State.edge
  repeat' first
    | with_reducible apply Evolves.refl
    | with_reducible apply Evolves.step (g := State.latchGate_evolves _ _ _)
    | with_reducible apply Evolves.step (g := State.closeTick_evolves _ _ _ _ _)
    | with_reducible apply Evolves.step (g := State.openSlot_evolves _ _ _)
    | with_reducible apply Evolves.step (g := State.bindSlot_evolves _)
    | with_reducible apply Evolves.step (g := State.startStitch_evolves _)
    | with_reducible apply Evolves.step (g := State.beginTick_evolves _ _)
    | with_reducible apply Evolves.step (g := State.belCopy_evolves _)
    | with_reducible apply Evolves.step (g := State.loadTable_evolves _)
    | with_reducible apply Evolves.part_same
    | ((with_reducible apply Evolves.part_in); rfl)
    | with_reducible exact And.intro rfl (And.intro rfl rfl)
    | (show _ = _; rfl)
    | with_reducible apply Evolves.ite
    | dsimp only
    | split
    | with_reducible apply Evolves.update

theorem State.flushChannels_evolves (s : State) (x1) :
    Evolves [.mem, .hbm] s (State.flushChannels s x1) := by
  fun_induction State.flushChannels s x1
  all_goals repeat' first
    | with_reducible apply Evolves.refl
    | with_reducible assumption
    | with_reducible apply Evolves.step (g := State.flushAll_evolves _ _ _)
    | with_reducible apply Evolves.step (g := by assumption)
    | with_reducible apply Evolves.part_same
    | ((with_reducible apply Evolves.part_in); rfl)
    | with_reducible exact And.intro rfl (And.intro rfl rfl)
    | (show _ = _; rfl)
    | with_reducible apply Evolves.ite
    | dsimp only
    | split
    | with_reducible apply Evolves.update

theorem State.adaptPort_evolves (s : State) (p) :
    Evolves [.regs, .free, .out, .heldOut, .tick, .pyu, .host, .hlt, .bel] s (State.adaptPort s p) := by
  unfold State.adaptPort
  repeat' first
    | with_reducible apply Evolves.refl
    | with_reducible apply Evolves.step (g := State.setPort_evolves _ _ _)
    | with_reducible apply Evolves.step (g := State.calibratePort_evolves _ _)
    | with_reducible apply Evolves.part_same
    | ((with_reducible apply Evolves.part_in); rfl)
    | with_reducible exact And.intro rfl (And.intro rfl rfl)
    | (show _ = _; rfl)
    | with_reducible apply Evolves.ite
    | dsimp only
    | split
    | with_reducible apply Evolves.update

theorem State.maintWork_evolves (s : State) (temps) (bad) :
    Evolves [.regs, .mem, .free, .out, .heldOut, .tick, .hbm, .pyu, .host, .hlt, .bel] s (State.maintWork s temps bad) := by
  unfold State.maintWork
  repeat' first
    | with_reducible apply Evolves.refl
    | with_reducible apply Evolves.step (g := State.belBoth_evolves _ _ _)
    | with_reducible apply Evolves.step (P := [.regs, .mem, .free, .out, .heldOut, .tick, .hbm, .pyu, .host, .hlt, .bel]) (g := State.eachPort_evolves _ _ _ ?_)
    | with_reducible apply Evolves.step (g := State.readTemps_evolves _ _ _)
    | with_reducible apply Evolves.step (g := State.suspectAll_evolves _ _ _)
    | with_reducible apply Evolves.step (g := State.flushChannels_evolves _ _)
    | with_reducible apply Evolves.step (g := State.adaptPort_evolves _ _)
    | (intro _)
    | with_reducible apply Evolves.part_same
    | ((with_reducible apply Evolves.part_in); rfl)
    | with_reducible exact And.intro rfl (And.intro rfl rfl)
    | (show _ = _; rfl)
    | with_reducible apply Evolves.ite
    | dsimp only
    | split
    | with_reducible apply Evolves.update

theorem State.maintMoved_evolves (s : State) (temps) (x1) :
    Evolves [.regs, .mem, .free, .out, .heldOut, .tick, .hbm, .pyu, .host, .hlt, .bel] s (State.maintMoved s temps x1) := by
  fun_induction State.maintMoved s temps x1
  all_goals repeat' first
    | with_reducible apply Evolves.refl
    | with_reducible assumption
    | with_reducible apply Evolves.step (g := State.maintWork_evolves _ _ _)
    | with_reducible apply Evolves.step (g := by assumption)
    | with_reducible apply Evolves.part_same
    | ((with_reducible apply Evolves.part_in); rfl)
    | with_reducible exact And.intro rfl (And.intro rfl rfl)
    | (show _ = _; rfl)
    | with_reducible apply Evolves.ite
    | dsimp only
    | split
    | with_reducible apply Evolves.update

theorem State.tickClr_evolves (s : State) (same) :
    Evolves [.regs] s (State.tickClr s same) := by
  unfold State.tickClr
  repeat' first
    | with_reducible apply Evolves.refl
    | with_reducible apply Evolves.step (g := State.setRegN_evolves _ _ _)
    | with_reducible apply Evolves.step (g := State.zeroRegs_evolves _ _)
    | with_reducible apply Evolves.step (g := State.sameCycle_evolves _ _)
    | with_reducible apply Evolves.part_same
    | ((with_reducible apply Evolves.part_in); rfl)
    | with_reducible exact And.intro rfl (And.intro rfl rfl)
    | (show _ = _; rfl)
    | with_reducible apply Evolves.ite
    | dsimp only
    | split
    | with_reducible apply Evolves.update

/-! ## Admission -/

theorem State.showAnswer_evolves (s : State) (tag) (a) (seq) :
    Evolves [.regs] s (State.showAnswer s tag a seq) := by
  unfold State.showAnswer
  repeat' first
    | with_reducible apply Evolves.refl
    | with_reducible apply Evolves.step (g := State.setRegN_evolves _ _ _)
    | with_reducible apply Evolves.step (g := State.count_evolves _ _ _ _)
    | with_reducible apply Evolves.part_same
    | ((with_reducible apply Evolves.part_in); rfl)
    | with_reducible exact And.intro rfl (And.intro rfl rfl)
    | (show _ = _; rfl)
    | with_reducible apply Evolves.ite
    | dsimp only
    | split
    | with_reducible apply Evolves.update

theorem State.aqWrite_evolves (s : State) (tag) (a) (seq) :
    Evolves [.regs, .out, .heldOut, .host] s (State.aqWrite s tag a seq) := by
  unfold State.aqWrite
  repeat' first
    | with_reducible apply Evolves.refl
    | with_reducible apply Evolves.step (g := State.setRegN_evolves _ _ _)
    | with_reducible apply Evolves.step (g := State.toHost_evolves _ _)
    | with_reducible apply Evolves.step (g := State.signal_evolves _ _)
    | with_reducible apply Evolves.part_same
    | ((with_reducible apply Evolves.part_in); rfl)
    | with_reducible exact And.intro rfl (And.intro rfl rfl)
    | (show _ = _; rfl)
    | with_reducible apply Evolves.ite
    | dsimp only
    | split
    | with_reducible apply Evolves.update

theorem State.answer_evolves (s : State) (tag) (a) (seq) (ring) :
    Evolves [.regs, .free, .out, .heldOut, .host, .bel] s (State.answer s tag a seq ring) := by
  unfold State.answer
  repeat' first
    | with_reducible apply Evolves.refl
    | with_reducible apply Evolves.step (g := State.event_evolves _ _ _)
    | with_reducible apply Evolves.step (g := State.traceBoth_evolves _ _ _)
    | with_reducible apply Evolves.step (g := State.showAnswer_evolves _ _ _ _)
    | with_reducible apply Evolves.step (g := State.aqWrite_evolves _ _ _ _)
    | with_reducible apply Evolves.part_same
    | ((with_reducible apply Evolves.part_in); rfl)
    | with_reducible exact And.intro rfl (And.intro rfl rfl)
    | (show _ = _; rfl)
    | with_reducible apply Evolves.ite
    | dsimp only
    | split
    | with_reducible apply Evolves.update

theorem State.acceptTicket_evolves (s : State) (t) (x1) :
    Evolves [.adm] s (State.acceptTicket s t x1) := by
  unfold State.acceptTicket
  repeat' first
    | with_reducible apply Evolves.refl
    | with_reducible apply Evolves.part_same
    | ((with_reducible apply Evolves.part_in); rfl)
    | with_reducible exact And.intro rfl (And.intro rfl rfl)
    | (show _ = _; rfl)
    | with_reducible apply Evolves.ite
    | dsimp only
    | split
    | with_reducible apply Evolves.update

theorem State.doorbell_evolves (s : State) (t) (ring) :
    Evolves [.regs, .free, .out, .heldOut, .adm, .host, .bel] s (State.doorbell s t ring) := by
  unfold State.doorbell
  repeat' first
    | with_reducible apply Evolves.refl
    | with_reducible apply Evolves.step (g := State.setBit_evolves _ _ _ _)
    | with_reducible apply Evolves.step (g := State.answer_evolves _ _ _ _ _)
    | with_reducible apply Evolves.step (g := State.acceptTicket_evolves _ _ _)
    | with_reducible apply Evolves.part_same
    | ((with_reducible apply Evolves.part_in); rfl)
    | with_reducible exact And.intro rfl (And.intro rfl rfl)
    | (show _ = _; rfl)
    | with_reducible apply Evolves.ite
    | dsimp only
    | split
    | with_reducible apply Evolves.update

theorem State.popUnread_evolves (s : State) (n) :
    Evolves [.adm] s (State.popUnread s n) := by
  unfold State.popUnread
  repeat' first
    | with_reducible apply Evolves.refl
    | with_reducible apply Evolves.part_same
    | ((with_reducible apply Evolves.part_in); rfl)
    | with_reducible exact And.intro rfl (And.intro rfl rfl)
    | (show _ = _; rfl)
    | with_reducible apply Evolves.ite
    | dsimp only
    | split
    | with_reducible apply Evolves.update

theorem State.donePop_evolves (s : State) :
    Evolves [.regs, .adm] s (State.donePop s) := by
  unfold State.donePop
  repeat' first
    | with_reducible apply Evolves.refl
    | with_reducible apply Evolves.step (g := State.setRegN_evolves _ _ _)
    | with_reducible apply Evolves.step (g := State.popUnread_evolves _ _)
    | with_reducible apply Evolves.part_same
    | ((with_reducible apply Evolves.part_in); rfl)
    | with_reducible exact And.intro rfl (And.intro rfl rfl)
    | (show _ = _; rfl)
    | with_reducible apply Evolves.ite
    | dsimp only
    | split
    | with_reducible apply Evolves.update

theorem State.startOne_evolves (s : State) (h) :
    Evolves [.regs, .adm] s (State.startOne s h) := by
  unfold State.startOne
  repeat' first
    | with_reducible apply Evolves.refl
    | with_reducible apply Evolves.step (g := State.startTest_evolves _ _)
    | with_reducible apply Evolves.step (g := State.refuseMarch_evolves _)
    | with_reducible apply Evolves.part_same
    | ((with_reducible apply Evolves.part_in); rfl)
    | with_reducible exact And.intro rfl (And.intro rfl rfl)
    | (show _ = _; rfl)
    | with_reducible apply Evolves.ite
    | dsimp only
    | split
    | with_reducible apply Evolves.update

theorem State.startHeld_evolves (s : State) (x1) :
    Evolves [.regs, .adm] s (State.startHeld s x1) := by
  fun_induction State.startHeld s x1
  all_goals repeat' first
    | with_reducible apply Evolves.refl
    | with_reducible assumption
    | with_reducible apply Evolves.step (g := State.startOne_evolves _ _)
    | with_reducible apply Evolves.step (g := by assumption)
    | with_reducible apply Evolves.part_same
    | ((with_reducible apply Evolves.part_in); rfl)
    | with_reducible exact And.intro rfl (And.intro rfl rfl)
    | (show _ = _; rfl)
    | with_reducible apply Evolves.ite
    | dsimp only
    | split
    | with_reducible apply Evolves.update

/-! ## Commit -/

theorem State.castVote_evolves (s : State) (r) :
    Evolves [.regs, .mem, .out, .heldOut, .tick, .stl, .hbm, .clo, .pyu, .host, .bel] s (State.castVote s r) := by
  unfold State.castVote
  repeat' first
    | with_reducible apply Evolves.refl
    | with_reducible apply Evolves.step (g := State.mapStep_evolves _ _)
    | with_reducible apply Evolves.step (g := State.setCommit_evolves _ _)
    | with_reducible apply Evolves.step (g := State.tryVotes_evolves _)
    | with_reducible apply Evolves.part_same
    | ((with_reducible apply Evolves.part_in); rfl)
    | with_reducible exact And.intro rfl (And.intro rfl rfl)
    | (show _ = _; rfl)
    | with_reducible apply Evolves.ite
    | dsimp only
    | split
    | with_reducible apply Evolves.update

theorem State.sendDecision_evolves (s : State) (d) (x1) :
    Evolves [.out] s (State.sendDecision s d x1) := by
  fun_induction State.sendDecision s d x1
  all_goals repeat' first
    | with_reducible apply Evolves.refl
    | with_reducible assumption
    | with_reducible apply Evolves.step (g := State.send_evolves _ _)
    | with_reducible apply Evolves.step (g := by assumption)
    | with_reducible apply Evolves.part_same
    | ((with_reducible apply Evolves.part_in); rfl)
    | with_reducible exact And.intro rfl (And.intro rfl rfl)
    | (show _ = _; rfl)
    | with_reducible apply Evolves.ite
    | dsimp only
    | split
    | with_reducible apply Evolves.update

theorem State.holdDecision_evolves (s : State) (d) :
    Evolves [.out, .tick] s (State.holdDecision s d) := by
  unfold State.holdDecision
  repeat' first
    | with_reducible apply Evolves.refl
    | with_reducible apply Evolves.step (g := State.mapStep_evolves _ _)
    | with_reducible apply Evolves.step (g := State.sendDecision_evolves _ _ _)
    | with_reducible apply Evolves.part_same
    | ((with_reducible apply Evolves.part_in); rfl)
    | with_reducible exact And.intro rfl (And.intro rfl rfl)
    | (show _ = _; rfl)
    | with_reducible apply Evolves.ite
    | dsimp only
    | split
    | with_reducible apply Evolves.update

theorem State.flip_evolves (s : State) :
    Evolves [.regs, .out, .heldOut, .upd, .host] s (State.flip s) := by
  unfold State.flip
  repeat' first
    | with_reducible apply Evolves.refl
    | with_reducible apply Evolves.step (g := State.event_evolves _ _ _)
    | with_reducible apply Evolves.part_same
    | ((with_reducible apply Evolves.part_in); rfl)
    | with_reducible exact And.intro rfl (And.intro rfl rfl)
    | (show _ = _; rfl)
    | with_reducible apply Evolves.ite
    | dsimp only
    | split
    | with_reducible apply Evolves.update

theorem State.recordOutcome_evolves (s : State) (outcome) (incomplete) (r) :
    Evolves [.regs, .free, .out, .heldOut, .stl, .host, .bel] s (State.recordOutcome s outcome incomplete r) := by
  unfold State.recordOutcome
  repeat' first
    | with_reducible apply Evolves.refl
    | with_reducible apply Evolves.step (g := State.setRegN_evolves _ _ _)
    | with_reducible apply Evolves.step (g := State.traceBoth_evolves _ _ _)
    | with_reducible apply Evolves.step (g := State.setCommit_evolves _ _)
    | with_reducible apply Evolves.part_same
    | ((with_reducible apply Evolves.part_in); rfl)
    | with_reducible exact And.intro rfl (And.intro rfl rfl)
    | (show _ = _; rfl)
    | with_reducible apply Evolves.ite
    | dsimp only
    | split
    | with_reducible apply Evolves.update

theorem State.act_evolves (s : State) (st) (c) :
    Evolves [.tick] s (State.act s st c) := by
  unfold State.act
  repeat' first
    | with_reducible apply Evolves.refl
    | with_reducible apply Evolves.step (g := State.mapStep_evolves _ _)
    | with_reducible apply Evolves.part_same
    | ((with_reducible apply Evolves.part_in); rfl)
    | with_reducible exact And.intro rfl (And.intro rfl rfl)
    | (show _ = _; rfl)
    | with_reducible apply Evolves.ite
    | dsimp only
    | split
    | with_reducible apply Evolves.update

theorem State.commitStep_evolves (s : State) (r) :
    Evolves [.regs, .free, .out, .heldOut, .tick, .stl, .upd, .host, .bel] s (State.commitStep s r) := by
  unfold State.commitStep
  repeat' first
    | with_reducible apply Evolves.refl
    | with_reducible apply Evolves.step (g := State.belBoth_evolves _ _ _)
    | with_reducible apply Evolves.step (g := State.flip_evolves _)
    | with_reducible apply Evolves.step (g := State.recordOutcome_evolves _ _ _ _)
    | with_reducible apply Evolves.step (g := State.act_evolves _ _ _)
    | with_reducible apply Evolves.part_same
    | ((with_reducible apply Evolves.part_in); rfl)
    | with_reducible exact And.intro rfl (And.intro rfl rfl)
    | (show _ = _; rfl)
    | with_reducible apply Evolves.ite
    | dsimp only
    | split
    | with_reducible apply Evolves.update

theorem State.skipStep_evolves (s : State) (r) (incomplete) :
    Evolves [.regs, .free, .out, .heldOut, .tick, .stl, .host, .hlt, .bel] s (State.skipStep s r incomplete) := by
  unfold State.skipStep
  repeat' first
    | with_reducible apply Evolves.refl
    | with_reducible apply Evolves.step (g := State.setRegN_evolves _ _ _)
    | with_reducible apply Evolves.step (g := State.setBit_evolves _ _ _ _)
    | with_reducible apply Evolves.step (g := State.count_evolves _ _ _ _)
    | with_reducible apply Evolves.step (g := State.event_evolves _ _ _)
    | with_reducible apply Evolves.step (g := State.belBoth_evolves _ _ _)
    | with_reducible apply Evolves.step (g := State.live_evolves _ _ _)
    | with_reducible apply Evolves.step (g := State.traceBoth_evolves _ _ _)
    | with_reducible apply Evolves.step (g := State.mapStep_evolves _ _)
    | with_reducible apply Evolves.step (g := State.recordOutcome_evolves _ _ _ _)
    | with_reducible apply Evolves.step (g := State.act_evolves _ _ _)
    | with_reducible apply Evolves.part_same
    | ((with_reducible apply Evolves.part_in); rfl)
    | with_reducible exact And.intro rfl (And.intro rfl rfl)
    | (show _ = _; rfl)
    | with_reducible apply Evolves.ite
    | dsimp only
    | split
    | with_reducible apply Evolves.update

theorem State.unresolvedStep_evolves (s : State) (r) :
    Evolves [.regs, .mem, .free, .out, .heldOut, .image, .tick, .adm, .seg, .me, .ve, .stl, .hbm, .upd, .clo, .pyu, .pwr,
        .host, .hlt, .bel]
      s (State.unresolvedStep s r) := by
  unfold State.unresolvedStep
  repeat' first
    | with_reducible apply Evolves.refl
    | with_reducible apply Evolves.step (g := State.event_evolves _ _ _)
    | with_reducible apply Evolves.step (g := State.ledgerEvent_evolves _ _ _ _ _ _)
    | with_reducible apply Evolves.step (g := State.stopReports_evolves _)
    | with_reducible apply Evolves.step (g := State.sendReport_evolves _)
    | with_reducible apply Evolves.step (g := State.halt_evolves _)
    | with_reducible apply Evolves.step (g := State.recordOutcome_evolves _ _ _ _)
    | with_reducible apply Evolves.step (g := State.act_evolves _ _ _)
    | with_reducible apply Evolves.part_same
    | ((with_reducible apply Evolves.part_in); rfl)
    | with_reducible exact And.intro rfl (And.intro rfl rfl)
    | (show _ = _; rfl)
    | with_reducible apply Evolves.ite
    | dsimp only
    | split
    | with_reducible apply Evolves.update

theorem State.commitRelease_evolves (s : State) :
    Evolves [.regs, .mem, .free, .out, .heldOut, .image, .tick, .adm, .seg, .me, .ve, .stl, .hbm, .upd, .clo, .pyu, .pwr,
        .host, .hlt, .bel]
      s (State.commitRelease s) := by
  unfold State.commitRelease
  repeat' first
    | with_reducible apply Evolves.refl
    | with_reducible apply Evolves.step (g := State.commitStep_evolves _ _)
    | with_reducible apply Evolves.step (g := State.skipStep_evolves _ _ _)
    | with_reducible apply Evolves.step (g := State.unresolvedStep_evolves _ _)
    | with_reducible apply Evolves.part_same
    | ((with_reducible apply Evolves.part_in); rfl)
    | with_reducible exact And.intro rfl (And.intro rfl rfl)
    | (show _ = _; rfl)
    | with_reducible apply Evolves.ite
    | dsimp only
    | split
    | with_reducible apply Evolves.update

theorem State.sendExchange_evolves (s : State) (m) (x1) :
    Evolves [.out] s (State.sendExchange s m x1) := by
  fun_induction State.sendExchange s m x1
  all_goals repeat' first
    | with_reducible apply Evolves.refl
    | with_reducible assumption
    | with_reducible apply Evolves.step (g := State.send_evolves _ _)
    | with_reducible apply Evolves.step (g := by assumption)
    | with_reducible apply Evolves.part_same
    | ((with_reducible apply Evolves.part_in); rfl)
    | with_reducible exact And.intro rfl (And.intro rfl rfl)
    | (show _ = _; rfl)
    | with_reducible apply Evolves.ite
    | dsimp only
    | split
    | with_reducible apply Evolves.update

theorem State.exchange_evolves (s : State) :
    Evolves [.out] s (State.exchange s) := by
  unfold State.exchange
  repeat' first
    | with_reducible apply Evolves.refl
    | with_reducible apply Evolves.step (g := State.sendExchange_evolves _ _ _)
    | with_reducible apply Evolves.part_same
    | ((with_reducible apply Evolves.part_in); rfl)
    | with_reducible exact And.intro rfl (And.intro rfl rfl)
    | (show _ = _; rfl)
    | with_reducible apply Evolves.ite
    | dsimp only
    | split
    | with_reducible apply Evolves.update

theorem State.comparePeer_evolves (s : State) (f) (peer) (m) :
    Evolves [.image, .adm] s (State.comparePeer s f peer m) := by
  unfold State.comparePeer
  repeat' first
    | with_reducible apply Evolves.refl
    | with_reducible apply Evolves.part_same
    | ((with_reducible apply Evolves.part_in); rfl)
    | with_reducible exact And.intro rfl (And.intro rfl rfl)
    | (show _ = _; rfl)
    | with_reducible apply Evolves.ite
    | dsimp only
    | split
    | with_reducible apply Evolves.update

theorem State.reconResult_evolves (s : State) (code) :
    Evolves [.regs, .out, .heldOut, .host] s (State.reconResult s code) := by
  unfold State.reconResult
  repeat' first
    | with_reducible apply Evolves.refl
    | with_reducible apply Evolves.step (g := State.setFld_evolves _ _ _ _ _)
    | with_reducible apply Evolves.step (g := State.event_evolves _ _ _)
    | with_reducible apply Evolves.part_same
    | ((with_reducible apply Evolves.part_in); rfl)
    | with_reducible exact And.intro rfl (And.intro rfl rfl)
    | (show _ = _; rfl)
    | with_reducible apply Evolves.ite
    | dsimp only
    | split
    | with_reducible apply Evolves.update

theorem State.afterRecon_evolves (s : State) :
    Evolves [.regs, .out, .heldOut, .host] s (State.afterRecon s) := by
  unfold State.afterRecon
  repeat' first
    | with_reducible apply Evolves.refl
    | with_reducible apply Evolves.step (g := State.exchange_evolves _)
    | with_reducible apply Evolves.step (g := State.reconResult_evolves _ _)
    | with_reducible apply Evolves.part_same
    | ((with_reducible apply Evolves.part_in); rfl)
    | with_reducible exact And.intro rfl (And.intro rfl rfl)
    | (show _ = _; rfl)
    | with_reducible apply Evolves.ite
    | dsimp only
    | split
    | with_reducible apply Evolves.update

theorem State.lateCommit_evolves (s : State) :
    Evolves [.regs, .out, .heldOut, .stl, .upd, .host] s (State.lateCommit s) := by
  unfold State.lateCommit
  repeat' first
    | with_reducible apply Evolves.refl
    | with_reducible apply Evolves.step (g := State.setCommit_evolves _ _)
    | with_reducible apply Evolves.step (g := State.flip_evolves _)
    | with_reducible apply Evolves.step (g := State.reconResult_evolves _ _)
    | with_reducible apply Evolves.step (g := State.afterRecon_evolves _)
    | with_reducible apply Evolves.part_same
    | ((with_reducible apply Evolves.part_in); rfl)
    | with_reducible exact And.intro rfl (And.intro rfl rfl)
    | (show _ = _; rfl)
    | with_reducible apply Evolves.ite
    | dsimp only
    | split
    | with_reducible apply Evolves.update

theorem State.keep_evolves (s : State) :
    Evolves [.regs, .out, .heldOut, .stl, .host] s (State.keep s) := by
  unfold State.keep
  repeat' first
    | with_reducible apply Evolves.refl
    | with_reducible apply Evolves.step (g := State.setCommit_evolves _ _)
    | with_reducible apply Evolves.step (g := State.reconResult_evolves _ _)
    | with_reducible apply Evolves.step (g := State.afterRecon_evolves _)
    | with_reducible apply Evolves.part_same
    | ((with_reducible apply Evolves.part_in); rfl)
    | with_reducible exact And.intro rfl (And.intro rfl rfl)
    | (show _ = _; rfl)
    | with_reducible apply Evolves.ite
    | dsimp only
    | split
    | with_reducible apply Evolves.update

theorem State.adopt_evolves (s : State) :
    Evolves [.regs, .out, .heldOut, .stl, .upd, .host] s (State.adopt s) := by
  unfold State.adopt
  repeat' first
    | with_reducible apply Evolves.refl
    | with_reducible apply Evolves.step (g := State.setCommit_evolves _ _)
    | with_reducible apply Evolves.step (g := State.reconResult_evolves _ _)
    | with_reducible apply Evolves.part_same
    | ((with_reducible apply Evolves.part_in); rfl)
    | with_reducible exact And.intro rfl (And.intro rfl rfl)
    | (show _ = _; rfl)
    | with_reducible apply Evolves.ite
    | dsimp only
    | split
    | with_reducible apply Evolves.update

/-! ## Image -/

theorem State.imageError_evolves (s : State) (code) (step) :
    Evolves [.regs] s (State.imageError s code step) := by
  unfold State.imageError
  repeat' first
    | with_reducible apply Evolves.refl
    | with_reducible apply Evolves.step (g := State.setFld_evolves _ _ _ _ _)
    | with_reducible apply Evolves.part_same
    | ((with_reducible apply Evolves.part_in); rfl)
    | with_reducible exact And.intro rfl (And.intro rfl rfl)
    | (show _ = _; rfl)
    | with_reducible apply Evolves.ite
    | dsimp only
    | split
    | with_reducible apply Evolves.update

theorem State.cmdIgnored_evolves (s : State) :
    Evolves [.regs, .out, .heldOut, .host] s (State.cmdIgnored s) := by
  unfold State.cmdIgnored
  repeat' first
    | with_reducible apply Evolves.refl
    | with_reducible apply Evolves.step (g := State.event_evolves _ _ _)
    | with_reducible apply Evolves.part_same
    | ((with_reducible apply Evolves.part_in); rfl)
    | with_reducible exact And.intro rfl (And.intro rfl rfl)
    | (show _ = _; rfl)
    | with_reducible apply Evolves.ite
    | dsimp only
    | split
    | with_reducible apply Evolves.update

theorem State.toEmpty_evolves (s : State) :
    Evolves [.regs, .out, .heldOut, .image, .adm, .hbm, .pyu, .host] s (State.toEmpty s) := by
  unfold State.toEmpty
  repeat' first
    | with_reducible apply Evolves.refl
    | with_reducible apply Evolves.step (g := State.freePorts_evolves _)
    | with_reducible apply Evolves.step (g := State.copyMap_evolves _)
    | with_reducible apply Evolves.part_same
    | ((with_reducible apply Evolves.part_in); rfl)
    | with_reducible exact And.intro rfl (And.intro rfl rfl)
    | (show _ = _; rfl)
    | with_reducible apply Evolves.ite
    | dsimp only
    | split
    | with_reducible apply Evolves.update

theorem State.loadFail_evolves (s : State) (code) (step) :
    Evolves [.regs, .out, .heldOut, .image, .adm, .hbm, .pyu, .host] s (State.loadFail s code step) := by
  unfold State.loadFail
  repeat' first
    | with_reducible apply Evolves.refl
    | with_reducible apply Evolves.step (g := State.event_evolves _ _ _)
    | with_reducible apply Evolves.step (g := State.imageError_evolves _ _ _)
    | with_reducible apply Evolves.step (g := State.toEmpty_evolves _)
    | with_reducible apply Evolves.part_same
    | ((with_reducible apply Evolves.part_in); rfl)
    | with_reducible exact And.intro rfl (And.intro rfl rfl)
    | (show _ = _; rfl)
    | with_reducible apply Evolves.ite
    | dsimp only
    | split
    | with_reducible apply Evolves.update

theorem State.stopImage_evolves (s : State) :
    Evolves [.regs, .mem, .free, .out, .heldOut, .image, .tick, .adm, .seg, .me, .ve, .stl, .hbm, .upd, .clo, .pyu, .pwr,
        .host, .hlt, .bel]
      s (State.stopImage s) := by
  unfold State.stopImage
  repeat' first
    | with_reducible apply Evolves.refl
    | with_reducible apply Evolves.step (g := State.stopReports_evolves _)
    | with_reducible apply Evolves.step (g := State.halt_evolves _)
    | with_reducible apply Evolves.part_same
    | ((with_reducible apply Evolves.part_in); rfl)
    | with_reducible exact And.intro rfl (And.intro rfl rfl)
    | (show _ = _; rfl)
    | with_reducible apply Evolves.ite
    | dsimp only
    | split
    | with_reducible apply Evolves.update

theorem State.beginLoad_evolves (s : State) :
    Evolves [.regs, .mem, .free, .out, .heldOut, .image, .tick, .adm, .seg, .me, .ve, .stl, .hbm, .upd, .clo, .pyu, .pwr,
        .host, .hlt, .bel]
      s (State.beginLoad s) := by
  unfold State.beginLoad
  repeat' first
    | with_reducible apply Evolves.refl
    | with_reducible apply Evolves.step (g := State.zeroRegs_evolves _ _)
    | with_reducible apply Evolves.step (g := State.send_evolves _ _)
    | with_reducible apply Evolves.step (g := State.imageError_evolves _ _ _)
    | with_reducible apply Evolves.step (g := State.toEmpty_evolves _)
    | with_reducible apply Evolves.step (g := State.stopImage_evolves _)
    | with_reducible apply Evolves.part_same
    | ((with_reducible apply Evolves.part_in); rfl)
    | with_reducible exact And.intro rfl (And.intro rfl rfl)
    | (show _ = _; rfl)
    | with_reducible apply Evolves.ite
    | dsimp only
    | split
    | with_reducible apply Evolves.update

theorem State.load_evolves (s : State) :
    Evolves [.regs, .mem, .free, .out, .heldOut, .boot, .image, .tick, .adm, .seg, .me, .ve, .stl, .hbm, .upd, .clo, .pyu,
        .pwr, .host, .hlt, .bel]
      s (State.load s) := by
  unfold State.load
  repeat' first
    | with_reducible apply Evolves.refl
    | with_reducible apply Evolves.step (g := State.imageError_evolves _ _ _)
    | with_reducible apply Evolves.step (g := State.beginLoad_evolves _)
    | with_reducible apply Evolves.part_same
    | ((with_reducible apply Evolves.part_in); rfl)
    | with_reducible exact And.intro rfl (And.intro rfl rfl)
    | (show _ = _; rfl)
    | with_reducible apply Evolves.ite
    | dsimp only
    | split
    | with_reducible apply Evolves.update

theorem State.loadPlots_evolves (s : State) (ps) :
    Evolves [.stl] s (State.loadPlots s ps) := by
  unfold State.loadPlots
  repeat' first
    | with_reducible apply Evolves.refl
    | with_reducible apply Evolves.step (g := State.setPlot_evolves _ _ _)
    | with_reducible apply Evolves.step (P := [.stl]) (g := Evolves.foldl (fun _ _ => ?_) _ _)
    | (intro _)
    | with_reducible apply Evolves.part_same
    | ((with_reducible apply Evolves.part_in); rfl)
    | with_reducible exact And.intro rfl (And.intro rfl rfl)
    | (show _ = _; rfl)
    | with_reducible apply Evolves.ite
    | dsimp only
    | split
    | with_reducible apply Evolves.update

theorem State.carryOver_evolves (s : State) (same) :
    Evolves [.stl, .upd] s (State.carryOver s same) := by
  unfold State.carryOver
  repeat' first
    | with_reducible apply Evolves.refl
    | with_reducible apply Evolves.step (g := State.setCommit_evolves _ _)
    | with_reducible apply Evolves.part_same
    | ((with_reducible apply Evolves.part_in); rfl)
    | with_reducible exact And.intro rfl (And.intro rfl rfl)
    | (show _ = _; rfl)
    | with_reducible apply Evolves.ite
    | dsimp only
    | split
    | with_reducible apply Evolves.update

theorem State.showDigest_evolves (s : State) (d) (x1) :
    Evolves [.regs] s (State.showDigest s d x1) := by
  fun_induction State.showDigest s d x1
  all_goals repeat' first
    | with_reducible apply Evolves.refl
    | with_reducible assumption
    | with_reducible apply Evolves.step (g := State.setRegN_evolves _ _ _)
    | with_reducible apply Evolves.step (g := by assumption)
    | with_reducible apply Evolves.part_same
    | ((with_reducible apply Evolves.part_in); rfl)
    | with_reducible exact And.intro rfl (And.intro rfl rfl)
    | (show _ = _; rfl)
    | with_reducible apply Evolves.ite
    | dsimp only
    | split
    | with_reducible apply Evolves.update

theorem State.freshImage_evolves (s : State) :
    Evolves [.tick, .seg, .me, .ve, .stl, .upd, .clo, .pyu] s (State.freshImage s) := by
  unfold State.freshImage
  repeat' first
    | with_reducible apply Evolves.refl
    | with_reducible apply Evolves.step (g := State.clearEngines_evolves _)
    | with_reducible apply Evolves.step (g := State.clearStreams_evolves _)
    | with_reducible apply Evolves.part_same
    | ((with_reducible apply Evolves.part_in); rfl)
    | with_reducible exact And.intro rfl (And.intro rfl rfl)
    | (show _ = _; rfl)
    | with_reducible apply Evolves.ite
    | dsimp only
    | split
    | with_reducible apply Evolves.update

theorem State.loaded_evolves (s : State) (f) :
    Evolves [.regs, .out, .heldOut, .image, .tick, .seg, .me, .ve, .stl, .upd, .clo, .pyu, .pwr,
        .host] s (State.loaded s f) := by
  unfold State.loaded
  repeat' first
    | with_reducible apply Evolves.refl
    | with_reducible apply Evolves.step (g := State.setRegN_evolves _ _ _)
    | with_reducible apply Evolves.step (g := State.event_evolves _ _ _)
    | with_reducible apply Evolves.step (g := State.topoPorts_evolves _)
    | with_reducible apply Evolves.step (g := State.loadPlots_evolves _ _)
    | with_reducible apply Evolves.step (g := State.carryOver_evolves _ _)
    | with_reducible apply Evolves.step (g := State.showDigest_evolves _ _ _)
    | with_reducible apply Evolves.step (g := State.freshImage_evolves _)
    | with_reducible apply Evolves.part_same
    | ((with_reducible apply Evolves.part_in); rfl)
    | with_reducible exact And.intro rfl (And.intro rfl rfl)
    | (show _ = _; rfl)
    | with_reducible apply Evolves.ite
    | dsimp only
    | split
    | with_reducible apply Evolves.update

theorem State.errOffset_evolves (s : State) (x1) :
    Evolves [.regs, .free] s (State.errOffset s x1) := by
  unfold State.errOffset
  repeat' first
    | with_reducible apply Evolves.refl
    | with_reducible apply Evolves.step (g := State.setRegN_evolves _ _ _)
    | with_reducible apply Evolves.step (g := State.used_evolves _)
    | with_reducible apply Evolves.part_same
    | ((with_reducible apply Evolves.part_in); rfl)
    | with_reducible exact And.intro rfl (And.intro rfl rfl)
    | (show _ = _; rfl)
    | with_reducible apply Evolves.ite
    | dsimp only
    | split
    | with_reducible apply Evolves.update

theorem State.openTickZero_evolves (s : State) :
    Evolves [.regs, .free, .out, .heldOut, .image, .tick, .adm, .trl, .pyu, .pwr, .host, .bel] s (State.openTickZero s) := by
  unfold State.openTickZero
  repeat' first
    | with_reducible apply Evolves.refl
    | with_reducible apply Evolves.step (g := State.setReg_evolves _ _ _)
    | with_reducible apply Evolves.step (g := State.setBit_evolves _ _ _ _)
    | with_reducible apply Evolves.step (g := State.event_evolves _ _ _)
    | with_reducible apply Evolves.step (g := State.latchGate_evolves _ _ _)
    | with_reducible apply Evolves.step (g := State.bindSlot_evolves _)
    | with_reducible apply Evolves.step (g := State.startStitch_evolves _)
    | with_reducible apply Evolves.step (g := State.beginTick_evolves _ _)
    | with_reducible apply Evolves.step (g := State.loadTable_evolves _)
    | with_reducible apply Evolves.part_same
    | ((with_reducible apply Evolves.part_in); rfl)
    | with_reducible exact And.intro rfl (And.intro rfl rfl)
    | (show _ = _; rfl)
    | with_reducible apply Evolves.ite
    | dsimp only
    | split
    | with_reducible apply Evolves.update

theorem State.progressStart_evolves (s : State) :
    Evolves [.regs, .free, .out, .heldOut, .image, .tick, .adm, .trl, .pyu, .pwr, .host, .bel] s (State.progressStart s) := by
  unfold State.progressStart
  repeat' first
    | with_reducible apply Evolves.refl
    | with_reducible apply Evolves.step (g := State.event_evolves _ _ _)
    | with_reducible apply Evolves.step (g := State.sendStartUp_evolves _ _ _)
    | with_reducible apply Evolves.step (g := State.sendStartDown_evolves _ _)
    | with_reducible apply Evolves.step (g := State.exchange_evolves _)
    | with_reducible apply Evolves.step (g := State.openTickZero_evolves _)
    | with_reducible apply Evolves.part_same
    | ((with_reducible apply Evolves.part_in); rfl)
    | with_reducible exact And.intro rfl (And.intro rfl rfl)
    | (show _ = _; rfl)
    | with_reducible apply Evolves.ite
    | dsimp only
    | split
    | with_reducible apply Evolves.update

theorem State.arm_evolves (s : State) (x) :
    Evolves [.regs, .free, .out, .heldOut, .image, .tick, .adm, .seg, .me, .ve, .stl, .upd, .clo, .trl, .pyu, .pwr, .host, .bel]
      s (State.arm s x) := by
  unfold State.arm
  repeat' first
    | with_reducible apply Evolves.refl
    | with_reducible apply Evolves.step (g := State.clearEngines_evolves _)
    | with_reducible apply Evolves.step (g := State.clearStreams_evolves _)
    | with_reducible apply Evolves.step (g := State.fillCredits_evolves _)
    | with_reducible apply Evolves.step (g := State.progressStart_evolves _)
    | with_reducible apply Evolves.part_same
    | ((with_reducible apply Evolves.part_in); rfl)
    | with_reducible exact And.intro rfl (And.intro rfl rfl)
    | (show _ = _; rfl)
    | with_reducible apply Evolves.ite
    | dsimp only
    | split
    | with_reducible apply Evolves.update

theorem State.start_evolves (s : State) :
    Evolves [.regs, .free, .out, .heldOut, .image, .tick, .adm, .seg, .me, .ve, .stl, .upd, .clo, .trl, .pyu, .pwr, .host, .bel]
      s (State.start s) := by
  unfold State.start
  repeat' first
    | with_reducible apply Evolves.refl
    | with_reducible apply Evolves.step (g := State.cmdIgnored_evolves _)
    | with_reducible apply Evolves.step (g := State.arm_evolves _ _)
    | with_reducible apply Evolves.part_same
    | ((with_reducible apply Evolves.part_in); rfl)
    | with_reducible exact And.intro rfl (And.intro rfl rfl)
    | (show _ = _; rfl)
    | with_reducible apply Evolves.ite
    | dsimp only
    | split
    | with_reducible apply Evolves.update

theorem State.startFail_evolves (s : State) (code) :
    Evolves [.regs, .image] s (State.startFail s code) := by
  unfold State.startFail
  repeat' first
    | with_reducible apply Evolves.refl
    | with_reducible apply Evolves.step (g := State.imageError_evolves _ _ _)
    | with_reducible apply Evolves.part_same
    | ((with_reducible apply Evolves.part_in); rfl)
    | with_reducible exact And.intro rfl (And.intro rfl rfl)
    | (show _ = _; rfl)
    | with_reducible apply Evolves.ite
    | dsimp only
    | split
    | with_reducible apply Evolves.update

theorem State.unload_evolves (s : State) :
    Evolves [.regs, .mem, .free, .out, .heldOut, .image, .tick, .adm, .seg, .me, .ve, .stl, .hbm, .upd, .clo, .pyu, .pwr,
        .host, .hlt, .bel]
      s (State.unload s) := by
  unfold State.unload
  repeat' first
    | with_reducible apply Evolves.refl
    | with_reducible apply Evolves.step (g := State.imageError_evolves _ _ _)
    | with_reducible apply Evolves.step (g := State.cmdIgnored_evolves _)
    | with_reducible apply Evolves.step (g := State.toEmpty_evolves _)
    | with_reducible apply Evolves.step (g := State.stopImage_evolves _)
    | with_reducible apply Evolves.part_same
    | ((with_reducible apply Evolves.part_in); rfl)
    | with_reducible exact And.intro rfl (And.intro rfl rfl)
    | (show _ = _; rfl)
    | with_reducible apply Evolves.ite
    | dsimp only
    | split
    | with_reducible apply Evolves.update

theorem State.abort_evolves (s : State) :
    Evolves [.regs, .free, .out, .heldOut, .image, .adm, .hbm, .pyu, .host] s (State.abort s) := by
  unfold State.abort
  repeat' first
    | with_reducible apply Evolves.refl
    | with_reducible apply Evolves.step (g := State.setRegN_evolves _ _ _)
    | with_reducible apply Evolves.step (g := State.used_evolves _)
    | with_reducible apply Evolves.step (g := State.cmdIgnored_evolves _)
    | with_reducible apply Evolves.step (g := State.loadFail_evolves _ _ _)
    | with_reducible apply Evolves.part_same
    | ((with_reducible apply Evolves.part_in); rfl)
    | with_reducible exact And.intro rfl (And.intro rfl rfl)
    | (show _ = _; rfl)
    | with_reducible apply Evolves.ite
    | dsimp only
    | split
    | with_reducible apply Evolves.update

/-! ## Pyurn -/

theorem State.meetPeer_evolves (s : State) (p) (peer) (peerPort) :
    Evolves [.pyu] s (State.meetPeer s p peer peerPort) := by
  unfold State.meetPeer
  repeat' first
    | with_reducible apply Evolves.refl
    | with_reducible apply Evolves.step (g := State.setPort_evolves _ _ _)
    | with_reducible apply Evolves.part_same
    | ((with_reducible apply Evolves.part_in); rfl)
    | with_reducible exact And.intro rfl (And.intro rfl rfl)
    | (show _ = _; rfl)
    | with_reducible apply Evolves.ite
    | dsimp only
    | split
    | with_reducible apply Evolves.update

theorem State.retrain_evolves (s : State) :
    Evolves [.pyu] s (State.retrain s) := by
  unfold State.retrain
  repeat' first
    | with_reducible apply Evolves.refl
    | with_reducible apply Evolves.step (g := State.trainPort_evolves _ _)
    | with_reducible apply Evolves.part_same
    | ((with_reducible apply Evolves.part_in); rfl)
    | with_reducible exact And.intro rfl (And.intro rfl rfl)
    | (show _ = _; rfl)
    | with_reducible apply Evolves.ite
    | dsimp only
    | split
    | with_reducible apply Evolves.update

theorem State.wakeSend_evolves (s : State) :
    Evolves [.out] s (State.wakeSend s) := by
  unfold State.wakeSend
  repeat' first
    | with_reducible apply Evolves.refl
    | with_reducible apply Evolves.step (g := State.send_evolves _ _)
    | with_reducible apply Evolves.part_same
    | ((with_reducible apply Evolves.part_in); rfl)
    | with_reducible exact And.intro rfl (And.intro rfl rfl)
    | (show _ = _; rfl)
    | with_reducible apply Evolves.ite
    | dsimp only
    | split
    | with_reducible apply Evolves.update

theorem State.setXch_evolves (s : State) (plot) (x) :
    Evolves [.pyu] s (State.setXch s plot x) := by
  unfold State.setXch
  repeat' first
    | with_reducible apply Evolves.refl
    | with_reducible apply Evolves.part_same
    | ((with_reducible apply Evolves.part_in); rfl)
    | with_reducible exact And.intro rfl (And.intro rfl rfl)
    | (show _ = _; rfl)
    | with_reducible apply Evolves.ite
    | dsimp only
    | split
    | with_reducible apply Evolves.update

theorem State.bumpBytes_evolves (s : State) (x1) :
    Evolves [.regs, .mem, .out, .heldOut, .hbm, .host, .bel] s (State.bumpBytes s x1) := by
  fun_induction State.bumpBytes s x1
  all_goals repeat' first
    | with_reducible apply Evolves.refl
    | with_reducible assumption
    | with_reducible apply Evolves.step (g := State.devWrite_evolves _ _ _ _)
    | with_reducible apply Evolves.step (g := by assumption)
    | with_reducible apply Evolves.part_same
    | ((with_reducible apply Evolves.part_in); rfl)
    | with_reducible exact And.intro rfl (And.intro rfl rfl)
    | (show _ = _; rfl)
    | with_reducible apply Evolves.ite
    | dsimp only
    | split
    | with_reducible apply Evolves.update

theorem State.sentVec_evolves (s : State) (p) (o) :
    Evolves [.pyu] s (State.sentVec s p o) := by
  unfold State.sentVec
  repeat' first
    | with_reducible apply Evolves.refl
    | with_reducible apply Evolves.step (g := State.setTx_evolves _ _ _ _)
    | with_reducible apply Evolves.part_same
    | ((with_reducible apply Evolves.part_in); rfl)
    | with_reducible exact And.intro rfl (And.intro rfl rfl)
    | (show _ = _; rfl)
    | with_reducible apply Evolves.ite
    | dsimp only
    | split
    | with_reducible apply Evolves.update

theorem State.sentOccupancy_evolves (s : State) (o) :
    Evolves [.pyu] s (State.sentOccupancy s o) := by
  unfold State.sentOccupancy
  repeat' first
    | with_reducible apply Evolves.refl
    | with_reducible apply Evolves.part_same
    | ((with_reducible apply Evolves.part_in); rfl)
    | with_reducible exact And.intro rfl (And.intro rfl rfl)
    | (show _ = _; rfl)
    | with_reducible apply Evolves.ite
    | dsimp only
    | split
    | with_reducible apply Evolves.update

theorem State.spend_evolves (s : State) (p) (r) :
    Evolves [.regs, .mem, .out, .heldOut, .stl, .hbm, .pyu, .host, .bel] s (State.spend s p r) := by
  unfold State.spend
  repeat' first
    | with_reducible apply Evolves.refl
    | with_reducible apply Evolves.step (g := State.count_evolves _ _ _ _)
    | with_reducible apply Evolves.step (g := State.event_evolves _ _ _)
    | with_reducible apply Evolves.step (g := State.bel64_evolves _ _ _)
    | with_reducible apply Evolves.step (g := State.frameSent_evolves _ _ _)
    | with_reducible apply Evolves.step (g := State.bumpBytes_evolves _ _)
    | with_reducible apply Evolves.step (g := State.sentVec_evolves _ _ _)
    | with_reducible apply Evolves.step (g := State.sentOccupancy_evolves _ _)
    | with_reducible apply Evolves.part_same
    | ((with_reducible apply Evolves.part_in); rfl)
    | with_reducible exact And.intro rfl (And.intro rfl rfl)
    | (show _ = _; rfl)
    | with_reducible apply Evolves.ite
    | dsimp only
    | split
    | with_reducible apply Evolves.update

theorem State.sendNew_evolves (s : State) (p) (offers) :
    Evolves [.regs, .mem, .out, .heldOut, .stl, .hbm, .pyu, .host, .bel] s (State.sendNew s p offers) := by
  unfold State.sendNew
  repeat' first
    | with_reducible apply Evolves.refl
    | with_reducible apply Evolves.step (g := State.bel64_evolves _ _ _)
    | with_reducible apply Evolves.step (g := State.pushFrame_evolves _ _ _)
    | with_reducible apply Evolves.step (g := State.spend_evolves _ _ _)
    | with_reducible apply Evolves.part_same
    | ((with_reducible apply Evolves.part_in); rfl)
    | with_reducible exact And.intro rfl (And.intro rfl rfl)
    | (show _ = _; rfl)
    | with_reducible apply Evolves.ite
    | dsimp only
    | split
    | with_reducible apply Evolves.update

theorem State.sendFrame_evolves (s : State) (p) (offers) :
    Evolves [.regs, .mem, .free, .out, .heldOut, .tick, .stl, .hbm, .pyu, .host, .hlt,
        .bel] s (State.sendFrame s p offers) := by
  unfold State.sendFrame
  repeat' first
    | with_reducible apply Evolves.refl
    | with_reducible apply Evolves.step (P := [.regs, .mem, .free, .out, .heldOut, .tick, .stl, .hbm, .pyu, .host, .hlt, .bel]) (g := State.framePeriod_evolves _ _ _ ?_ ?_)
    | with_reducible apply Evolves.step (g := State.sendNew_evolves _ _ _)
    | (intro _)
    | with_reducible apply Evolves.part_same
    | ((with_reducible apply Evolves.part_in); rfl)
    | with_reducible exact And.intro rfl (And.intro rfl rfl)
    | (show _ = _; rfl)
    | with_reducible apply Evolves.ite
    | dsimp only
    | split
    | with_reducible apply Evolves.update

theorem State.fecLanes_evolves (s : State) (p) (x1) (x2) :
    Evolves [.regs, .hlt, .bel] s (State.fecLanes s p x1 x2) := by
  fun_induction State.fecLanes s p x1 x2
  all_goals repeat' first
    | with_reducible apply Evolves.refl
    | with_reducible assumption
    | with_reducible apply Evolves.step (g := State.count_evolves _ _ _ _)
    | with_reducible apply Evolves.step (g := State.bel64_evolves _ _ _)
    | with_reducible apply Evolves.step (g := State.live_evolves _ _ _)
    | with_reducible apply Evolves.step (g := by assumption)
    | with_reducible apply Evolves.part_same
    | ((with_reducible apply Evolves.part_in); rfl)
    | with_reducible exact And.intro rfl (And.intro rfl rfl)
    | (show _ = _; rfl)
    | with_reducible apply Evolves.ite
    | dsimp only
    | split
    | with_reducible apply Evolves.update

theorem State.fec_evolves (s : State) (p) (a) :
    Evolves [.regs, .out, .heldOut, .host, .hlt, .bel] s (State.fec s p a) := by
  unfold State.fec
  repeat' first
    | with_reducible apply Evolves.refl
    | with_reducible apply Evolves.step (g := State.count_evolves _ _ _ _)
    | with_reducible apply Evolves.step (g := State.event_evolves _ _ _)
    | with_reducible apply Evolves.step (g := State.bel64_evolves _ _ _)
    | with_reducible apply Evolves.step (g := State.live_evolves _ _ _)
    | with_reducible apply Evolves.step (g := State.fecLanes_evolves _ _ _ _)
    | with_reducible apply Evolves.part_same
    | ((with_reducible apply Evolves.part_in); rfl)
    | with_reducible exact And.intro rfl (And.intro rfl rfl)
    | (show _ = _; rfl)
    | with_reducible apply Evolves.ite
    | dsimp only
    | split
    | with_reducible apply Evolves.update

theorem State.acked_evolves (s : State) (p) (ack) :
    Evolves [.pyu] s (State.acked s p ack) := by
  unfold State.acked
  repeat' first
    | with_reducible apply Evolves.refl
    | with_reducible apply Evolves.step (g := State.setPort_evolves _ _ _)
    | with_reducible apply Evolves.part_same
    | ((with_reducible apply Evolves.part_in); rfl)
    | with_reducible exact And.intro rfl (And.intro rfl rfl)
    | (show _ = _; rfl)
    | with_reducible apply Evolves.ite
    | dsimp only
    | split
    | with_reducible apply Evolves.update

theorem State.naked_evolves (s : State) (p) (nak) :
    Evolves [.regs, .free, .out, .heldOut, .tick, .pyu, .host, .hlt, .bel] s (State.naked s p nak) := by
  unfold State.naked
  repeat' first
    | with_reducible apply Evolves.refl
    | with_reducible apply Evolves.step (g := State.startReplay_evolves _ _)
    | with_reducible apply Evolves.part_same
    | ((with_reducible apply Evolves.part_in); rfl)
    | with_reducible exact And.intro rfl (And.intro rfl rfl)
    | (show _ = _; rfl)
    | with_reducible apply Evolves.ite
    | dsimp only
    | split
    | with_reducible apply Evolves.update

theorem State.consumed_evolves (s : State) (p) (x1) :
    Evolves [.stl, .pyu] s (State.consumed s p x1) := by
  fun_induction State.consumed s p x1
  all_goals repeat' first
    | with_reducible apply Evolves.refl
    | with_reducible assumption
    | with_reducible apply Evolves.step (g := State.freeFrames_evolves _ _ _ _)
    | with_reducible apply Evolves.step (g := State.setPort_evolves _ _ _)
    | with_reducible apply Evolves.step (g := by assumption)
    | with_reducible apply Evolves.part_same
    | ((with_reducible apply Evolves.part_in); rfl)
    | with_reducible exact And.intro rfl (And.intro rfl rfl)
    | (show _ = _; rfl)
    | with_reducible apply Evolves.ite
    | dsimp only
    | split
    | with_reducible apply Evolves.update

theorem State.placeRecords_evolves (s : State) (d) (counts) (x1) (x2) (x3) :
    Evolves [.regs, .mem, .out, .heldOut, .hbm, .host, .bel] s (State.placeRecords s d counts x1 x2 x3) := by
  fun_induction State.placeRecords s d counts x1 x2 x3
  all_goals repeat' first
    | with_reducible apply Evolves.refl
    | with_reducible assumption
    | with_reducible apply Evolves.step (g := State.devWrite_evolves _ _ _ _)
    | with_reducible apply Evolves.step (g := by assumption)
    | with_reducible apply Evolves.part_same
    | ((with_reducible apply Evolves.part_in); rfl)
    | with_reducible exact And.intro rfl (And.intro rfl rfl)
    | (show _ = _; rfl)
    | with_reducible apply Evolves.ite
    | dsimp only
    | split
    | with_reducible apply Evolves.update

theorem State.exchangeData_evolves (s : State) (p) (plot) (bs) (x1) :
    Evolves [.regs, .mem, .out, .heldOut, .hbm, .pyu, .host, .bel] s (State.exchangeData s p plot bs x1) := by
  unfold State.exchangeData
  repeat' first
    | with_reducible apply Evolves.refl
    | with_reducible apply Evolves.step (g := State.bel64_evolves _ _ _)
    | with_reducible apply Evolves.step (g := State.setXch_evolves _ _ _)
    | with_reducible apply Evolves.step (g := State.placeRecords_evolves _ _ _ _ _ _)
    | with_reducible apply Evolves.part_same
    | ((with_reducible apply Evolves.part_in); rfl)
    | with_reducible exact And.intro rfl (And.intro rfl rfl)
    | (show _ = _; rfl)
    | with_reducible apply Evolves.ite
    | dsimp only
    | split
    | with_reducible apply Evolves.update

theorem State.dataFrame_evolves (s : State) (p) (a) :
    Evolves [.regs, .mem, .out, .heldOut, .tick, .stl, .hbm, .clo, .pyu, .host, .hlt, .bel] s (State.dataFrame s p a) := by
  unfold State.dataFrame
  repeat' first
    | with_reducible apply Evolves.refl
    | with_reducible apply Evolves.step (g := State.count_evolves _ _ _ _)
    | with_reducible apply Evolves.step (g := State.bel64_evolves _ _ _)
    | with_reducible apply Evolves.step (g := State.devWrite_evolves _ _ _ _)
    | with_reducible apply Evolves.step (g := State.frameTaken_evolves _ _ _ _ _)
    | with_reducible apply Evolves.step (g := State.cloFatal_evolves _ _ _ _)
    | with_reducible apply Evolves.step (g := State.takeVec_evolves _ _ _ _ _)
    | with_reducible apply Evolves.step (g := State.exchangeData_evolves _ _ _ _ _)
    | with_reducible apply Evolves.part_same
    | ((with_reducible apply Evolves.part_in); rfl)
    | with_reducible exact And.intro rfl (And.intro rfl rfl)
    | (show _ = _; rfl)
    | with_reducible apply Evolves.ite
    | dsimp only
    | split
    | with_reducible apply Evolves.update

theorem State.padInputs_evolves (s : State) (record) (x1) (x2) :
    Evolves [.regs, .mem, .out, .heldOut, .hbm, .host, .bel] s (State.padInputs s record x1 x2) := by
  fun_induction State.padInputs s record x1 x2
  all_goals repeat' first
    | with_reducible apply Evolves.refl
    | with_reducible assumption
    | with_reducible apply Evolves.step (g := State.devWrite_evolves _ _ _ _)
    | with_reducible apply Evolves.step (g := by assumption)
    | with_reducible apply Evolves.part_same
    | ((with_reducible apply Evolves.part_in); rfl)
    | with_reducible exact And.intro rfl (And.intro rfl rfl)
    | (show _ = _; rfl)
    | with_reducible apply Evolves.ite
    | dsimp only
    | split
    | with_reducible apply Evolves.update

theorem State.occupancy_evolves (s : State) (a) :
    Evolves [.regs, .mem, .out, .heldOut, .hbm, .pyu, .host, .bel] s (State.occupancy s a) := by
  unfold State.occupancy
  repeat' first
    | with_reducible apply Evolves.refl
    | with_reducible apply Evolves.step (g := State.setXch_evolves _ _ _)
    | with_reducible apply Evolves.step (g := State.padInputs_evolves _ _ _ _)
    | with_reducible apply Evolves.part_same
    | ((with_reducible apply Evolves.part_in); rfl)
    | with_reducible exact And.intro rfl (And.intro rfl rfl)
    | (show _ = _; rfl)
    | with_reducible apply Evolves.ite
    | dsimp only
    | split
    | with_reducible apply Evolves.update

theorem State.deliverFrame_evolves (s : State) (p) (a) :
    Evolves [.regs, .mem, .out, .heldOut, .tick, .stl, .hbm, .clo, .pyu, .host, .hlt, .bel] s (State.deliverFrame s p a) := by
  unfold State.deliverFrame
  repeat' first
    | with_reducible apply Evolves.refl
    | with_reducible apply Evolves.step (g := State.dataFrame_evolves _ _ _)
    | with_reducible apply Evolves.step (g := State.occupancy_evolves _ _)
    | with_reducible apply Evolves.part_same
    | ((with_reducible apply Evolves.part_in); rfl)
    | with_reducible exact And.intro rfl (And.intro rfl rfl)
    | (show _ = _; rfl)
    | with_reducible apply Evolves.ite
    | dsimp only
    | split
    | with_reducible apply Evolves.update

theorem State.goodFrame_evolves (s : State) (p) (a) :
    Evolves [.regs, .mem, .free, .out, .heldOut, .tick, .stl, .hbm, .clo, .pyu, .host, .hlt,
        .bel] s (State.goodFrame s p a) := by
  unfold State.goodFrame
  repeat' first
    | with_reducible apply Evolves.refl
    | with_reducible apply Evolves.step (g := State.creditsBack_evolves _ _ _ _)
    | with_reducible apply Evolves.step (g := State.setPort_evolves _ _ _)
    | with_reducible apply Evolves.step (g := State.acked_evolves _ _ _)
    | with_reducible apply Evolves.step (g := State.naked_evolves _ _ _)
    | with_reducible apply Evolves.step (g := State.deliverFrame_evolves _ _ _)
    | with_reducible apply Evolves.part_same
    | ((with_reducible apply Evolves.part_in); rfl)
    | with_reducible exact And.intro rfl (And.intro rfl rfl)
    | (show _ = _; rfl)
    | with_reducible apply Evolves.ite
    | dsimp only
    | split
    | with_reducible apply Evolves.update

theorem State.receive_evolves (s : State) (p) (a) :
    Evolves [.regs, .mem, .free, .out, .heldOut, .tick, .stl, .hbm, .clo, .pyu, .host, .hlt, .bel] s (State.receive s p a) := by
  unfold State.receive
  repeat' first
    | with_reducible apply Evolves.refl
    | with_reducible apply Evolves.step (g := State.bel64_evolves _ _ _)
    | with_reducible apply Evolves.step (g := State.setPort_evolves _ _ _)
    | with_reducible apply Evolves.step (g := State.fec_evolves _ _ _)
    | with_reducible apply Evolves.step (g := State.goodFrame_evolves _ _ _)
    | with_reducible apply Evolves.part_same
    | ((with_reducible apply Evolves.part_in); rfl)
    | with_reducible exact And.intro rfl (And.intro rfl rfl)
    | (show _ = _; rfl)
    | with_reducible apply Evolves.ite
    | dsimp only
    | split
    | with_reducible apply Evolves.update

theorem State.traceDrops_evolves (s : State) (cl) (stream) (x1) :
    Evolves [.regs, .free, .out, .heldOut, .host, .bel] s (State.traceDrops s cl stream x1) := by
  fun_induction State.traceDrops s cl stream x1
  all_goals repeat' first
    | with_reducible apply Evolves.refl
    | with_reducible assumption
    | with_reducible apply Evolves.step (g := State.trace_evolves _ _ _ _ _)
    | with_reducible apply Evolves.step (g := by assumption)
    | with_reducible apply Evolves.part_same
    | ((with_reducible apply Evolves.part_in); rfl)
    | with_reducible exact And.intro rfl (And.intro rfl rfl)
    | (show _ = _; rfl)
    | with_reducible apply Evolves.ite
    | dsimp only
    | split
    | with_reducible apply Evolves.update

theorem State.countAssign_evolves (s : State) (a) :
    Evolves [.regs, .out, .heldOut, .host] s (State.countAssign s a) := by
  unfold State.countAssign
  repeat' first
    | with_reducible apply Evolves.refl
    | with_reducible apply Evolves.step (g := State.count_evolves _ _ _ _)
    | with_reducible apply Evolves.step (g := State.maxReg_evolves _ _ _)
    | with_reducible apply Evolves.step (g := State.event_evolves _ _ _)
    | with_reducible apply Evolves.part_same
    | ((with_reducible apply Evolves.part_in); rfl)
    | with_reducible exact And.intro rfl (And.intro rfl rfl)
    | (show _ = _; rfl)
    | with_reducible apply Evolves.ite
    | dsimp only
    | split
    | with_reducible apply Evolves.update

theorem State.pyuClr_evolves (s : State) (same) :
    Evolves [.regs] s (State.pyuClr s same) := by
  unfold State.pyuClr
  repeat' first
    | with_reducible apply Evolves.refl
    | with_reducible apply Evolves.step (g := State.zeroRegs_evolves _ _)
    | with_reducible apply Evolves.step (g := State.zeroBanks_evolves _ _)
    | with_reducible apply Evolves.step (g := State.sameCycle_evolves _ _)
    | with_reducible apply Evolves.part_same
    | ((with_reducible apply Evolves.part_in); rfl)
    | with_reducible exact And.intro rfl (And.intro rfl rfl)
    | (show _ = _; rfl)
    | with_reducible apply Evolves.ite
    | dsimp only
    | split
    | with_reducible apply Evolves.update

end Sys2Proof.Machine
end

