-- ==== Sys2Proof/Laws/HostSide.lean ====
section
/-! SUPPORT. What each operation may do to the state (Laws/Evolves.lean): the host's side: queues, DMA, power states and the Lodge, start-up, security, observation, BAR0. -/

namespace Sys2Proof.Machine

/-! ## Dma -/

theorem State.ptrErr_evolves (s : State) :
    Evolves [.regs, .out, .heldOut, .host] s (State.ptrErr s) := by
  unfold State.ptrErr
  repeat' first
    | with_reducible apply Evolves.refl
    | with_reducible apply Evolves.step (g := State.event_evolves _ _ _)
    | with_reducible apply Evolves.part_same
    | ((with_reducible apply Evolves.part_in); rfl)
    | with_reducible exact And.intro rfl (And.intro rfl rfl)
    | (show _ = _; rfl)
    | with_reducible apply Evolves.ite
    | dsimp only
    | split
    | with_reducible apply Evolves.update

theorem State.moveBytes_evolves (s : State) (e) (f) (n) (data) :
    Evolves [.regs, .mem, .out, .heldOut, .hbm, .host, .bel] s (State.moveBytes s e f n data) := by
  unfold State.moveBytes
  repeat' first
    | with_reducible apply Evolves.refl
    | with_reducible apply Evolves.step (g := State.setRegN_evolves _ _ _)
    | with_reducible apply Evolves.step (g := State.toHost_evolves _ _)
    | with_reducible apply Evolves.step (g := State.devWrite_evolves _ _ _ _)
    | with_reducible apply Evolves.part_same
    | ((with_reducible apply Evolves.part_in); rfl)
    | with_reducible exact And.intro rfl (And.intro rfl rfl)
    | (show _ = _; rfl)
    | with_reducible apply Evolves.ite
    | dsimp only
    | split
    | with_reducible apply Evolves.update

theorem State.writeStatus_evolves (s : State) (e) (f) (code) :
    Evolves [.regs, .free, .out, .heldOut, .host, .bel] s (State.writeStatus s e f code) := by
  unfold State.writeStatus
  repeat' first
    | with_reducible apply Evolves.refl
    | with_reducible apply Evolves.step (g := State.setRegN_evolves _ _ _)
    | with_reducible apply Evolves.step (g := State.toHost_evolves _ _)
    | with_reducible apply Evolves.step (g := State.signal_evolves _ _)
    | with_reducible apply Evolves.step (g := State.trace_evolves _ _ _ _ _)
    | with_reducible apply Evolves.part_same
    | ((with_reducible apply Evolves.part_in); rfl)
    | with_reducible exact And.intro rfl (And.intro rfl rfl)
    | (show _ = _; rfl)
    | with_reducible apply Evolves.ite
    | dsimp only
    | split
    | with_reducible apply Evolves.update

theorem State.dmaStop_evolves (s : State) (e) (index) (code) :
    Evolves [.regs, .out, .heldOut, .host] s (State.dmaStop s e index code) := by
  unfold State.dmaStop
  repeat' first
    | with_reducible apply Evolves.refl
    | with_reducible apply Evolves.step (g := State.setRegN_evolves _ _ _)
    | with_reducible apply Evolves.step (g := State.event_evolves _ _ _)
    | with_reducible apply Evolves.part_same
    | ((with_reducible apply Evolves.part_in); rfl)
    | with_reducible exact And.intro rfl (And.intro rfl rfl)
    | (show _ = _; rfl)
    | with_reducible apply Evolves.ite
    | dsimp only
    | split
    | with_reducible apply Evolves.update

theorem State.flushStatus_evolves (s : State) (e) (x1) :
    Evolves [.regs, .free, .out, .heldOut, .host, .bel] s (State.flushStatus s e x1) := by
  fun_induction State.flushStatus s e x1
  all_goals repeat' first
    | with_reducible apply Evolves.refl
    | with_reducible assumption
    | with_reducible apply Evolves.step (g := State.setFlights_evolves _ _ _)
    | with_reducible apply Evolves.step (g := State.writeStatus_evolves _ _ _ _)
    | with_reducible apply Evolves.step (g := State.dmaStop_evolves _ _ _ _)
    | with_reducible apply Evolves.step (g := by assumption)
    | with_reducible apply Evolves.part_same
    | ((with_reducible apply Evolves.part_in); rfl)
    | with_reducible exact And.intro rfl (And.intro rfl rfl)
    | (show _ = _; rfl)
    | with_reducible apply Evolves.ite
    | dsimp only
    | split
    | with_reducible apply Evolves.update

theorem State.abortMove_evolves (s : State) (e) (moved) (f) :
    Evolves [.regs, .mem, .out, .heldOut, .hbm, .host, .bel] s (State.abortMove s e moved f) := by
  unfold State.abortMove
  repeat' first
    | with_reducible apply Evolves.refl
    | with_reducible apply Evolves.step (g := State.moveBytes_evolves _ _ _ _ _)
    | with_reducible apply Evolves.part_same
    | ((with_reducible apply Evolves.part_in); rfl)
    | with_reducible exact And.intro rfl (And.intro rfl rfl)
    | (show _ = _; rfl)
    | with_reducible apply Evolves.ite
    | dsimp only
    | split
    | with_reducible apply Evolves.update

theorem State.abortFlights_evolves (s : State) (e) (moved) (x1) :
    Evolves [.regs, .mem, .free, .out, .heldOut, .hbm, .host, .bel] s (State.abortFlights s e moved x1) := by
  fun_induction State.abortFlights s e moved x1
  all_goals repeat' first
    | with_reducible apply Evolves.refl
    | with_reducible assumption
    | with_reducible apply Evolves.step (g := State.setFlights_evolves _ _ _)
    | with_reducible apply Evolves.step (g := State.writeStatus_evolves _ _ _ _)
    | with_reducible apply Evolves.step (g := State.dmaStop_evolves _ _ _ _)
    | with_reducible apply Evolves.step (g := State.abortMove_evolves _ _ _ _)
    | with_reducible apply Evolves.step (g := by assumption)
    | with_reducible apply Evolves.part_same
    | ((with_reducible apply Evolves.part_in); rfl)
    | with_reducible exact And.intro rfl (And.intro rfl rfl)
    | (show _ = _; rfl)
    | with_reducible apply Evolves.ite
    | dsimp only
    | split
    | with_reducible apply Evolves.update

theorem State.dmaEnable_evolves (s : State) (e) (ctrl) :
    Evolves [.regs] s (State.dmaEnable s e ctrl) := by
  unfold State.dmaEnable
  repeat' first
    | with_reducible apply Evolves.refl
    | with_reducible apply Evolves.step (g := State.setFld_evolves _ _ _ _ _)
    | with_reducible apply Evolves.step (g := State.setBit_evolves _ _ _ _)
    | with_reducible apply Evolves.part_same
    | ((with_reducible apply Evolves.part_in); rfl)
    | with_reducible exact And.intro rfl (And.intro rfl rfl)
    | (show _ = _; rfl)
    | with_reducible apply Evolves.ite
    | dsimp only
    | split
    | with_reducible apply Evolves.update

theorem State.dmaDisable_evolves (s : State) (e) (ctrl) (moved) :
    Evolves [.regs, .mem, .free, .out, .heldOut, .hbm, .host, .bel] s (State.dmaDisable s e ctrl moved) := by
  unfold State.dmaDisable
  repeat' first
    | with_reducible apply Evolves.refl
    | with_reducible apply Evolves.step (g := State.setFld_evolves _ _ _ _ _)
    | with_reducible apply Evolves.step (g := State.setBit_evolves _ _ _ _)
    | with_reducible apply Evolves.step (g := State.abortFlights_evolves _ _ _ _)
    | with_reducible apply Evolves.part_same
    | ((with_reducible apply Evolves.part_in); rfl)
    | with_reducible exact And.intro rfl (And.intro rfl rfl)
    | (show _ = _; rfl)
    | with_reducible apply Evolves.ite
    | dsimp only
    | split
    | with_reducible apply Evolves.update

theorem State.dmaTail_evolves (s : State) (e) (index) :
    Evolves [.regs, .out, .heldOut, .host] s (State.dmaTail s e index) := by
  unfold State.dmaTail
  repeat' first
    | with_reducible apply Evolves.refl
    | with_reducible apply Evolves.step (g := State.setRegN_evolves _ _ _)
    | with_reducible apply Evolves.step (g := State.ptrErr_evolves _)
    | with_reducible apply Evolves.part_same
    | ((with_reducible apply Evolves.part_in); rfl)
    | with_reducible exact And.intro rfl (And.intro rfl rfl)
    | (show _ = _; rfl)
    | with_reducible apply Evolves.ite
    | dsimp only
    | split
    | with_reducible apply Evolves.update

theorem State.winErr_evolves (s : State) (a) :
    Evolves [.regs, .out, .heldOut, .host] s (State.winErr s a) := by
  unfold State.winErr
  repeat' first
    | with_reducible apply Evolves.refl
    | with_reducible apply Evolves.step (g := State.event_evolves _ _ _)
    | with_reducible apply Evolves.step (g := State.addrErr_evolves _)
    | with_reducible apply Evolves.part_same
    | ((with_reducible apply Evolves.part_in); rfl)
    | with_reducible exact And.intro rfl (And.intro rfl rfl)
    | (show _ = _; rfl)
    | with_reducible apply Evolves.ite
    | dsimp only
    | split
    | with_reducible apply Evolves.update

theorem State.windowRead_evolves (s : State) (a) (n) :
    Evolves [.regs, .out, .heldOut, .host] s (State.windowRead s a n) := by
  unfold State.windowRead
  repeat' first
    | with_reducible apply Evolves.refl
    | with_reducible apply Evolves.step (g := State.send_evolves _ _)
    | with_reducible apply Evolves.step (g := State.event_evolves _ _ _)
    | with_reducible apply Evolves.step (g := State.winErr_evolves _ _)
    | with_reducible apply Evolves.part_same
    | ((with_reducible apply Evolves.part_in); rfl)
    | with_reducible exact And.intro rfl (And.intro rfl rfl)
    | (show _ = _; rfl)
    | with_reducible apply Evolves.ite
    | dsimp only
    | split
    | with_reducible apply Evolves.update

theorem State.windowPieces_evolves (s : State) (x1) :
    Evolves [.regs, .mem, .out, .heldOut, .hbm, .host, .bel] s (State.windowPieces s x1) := by
  fun_induction State.windowPieces s x1
  all_goals repeat' first
    | with_reducible apply Evolves.refl
    | with_reducible assumption
    | with_reducible apply Evolves.step (g := State.event_evolves _ _ _)
    | with_reducible apply Evolves.step (g := State.linePiece_evolves _ _ _ _)
    | with_reducible apply Evolves.step (g := State.winErr_evolves _ _)
    | with_reducible apply Evolves.step (g := by assumption)
    | with_reducible apply Evolves.part_same
    | ((with_reducible apply Evolves.part_in); rfl)
    | with_reducible exact And.intro rfl (And.intro rfl rfl)
    | (show _ = _; rfl)
    | with_reducible apply Evolves.ite
    | dsimp only
    | split
    | with_reducible apply Evolves.update

theorem State.windowWrite_evolves (s : State) (a) (bs) :
    Evolves [.regs, .mem, .out, .heldOut, .hbm, .host, .bel] s (State.windowWrite s a bs) := by
  unfold State.windowWrite
  repeat' first
    | with_reducible apply Evolves.refl
    | with_reducible apply Evolves.step (g := State.windowPieces_evolves _ _)
    | with_reducible apply Evolves.part_same
    | ((with_reducible apply Evolves.part_in); rfl)
    | with_reducible exact And.intro rfl (And.intro rfl rfl)
    | (show _ = _; rfl)
    | with_reducible apply Evolves.ite
    | dsimp only
    | split
    | with_reducible apply Evolves.update

theorem State.winBase_evolves (s : State) (v) :
    Evolves [.regs, .out, .heldOut, .host] s (State.winBase s v) := by
  unfold State.winBase
  repeat' first
    | with_reducible apply Evolves.refl
    | with_reducible apply Evolves.step (g := State.setReg_evolves _ _ _)
    | with_reducible apply Evolves.step (g := State.ptrErr_evolves _)
    | with_reducible apply Evolves.part_same
    | ((with_reducible apply Evolves.part_in); rfl)
    | with_reducible exact And.intro rfl (And.intro rfl rfl)
    | (show _ = _; rfl)
    | with_reducible apply Evolves.ite
    | dsimp only
    | split
    | with_reducible apply Evolves.update

/-! ## Queues -/

theorem State.mask_evolves (s : State) (v) :
    Evolves [.host] s (State.mask s v) := by
  unfold State.mask
  repeat' first
    | with_reducible apply Evolves.refl
    | with_reducible apply Evolves.step (g := State.setVec_evolves _ _ _)
    | with_reducible apply Evolves.part_same
    | ((with_reducible apply Evolves.part_in); rfl)
    | with_reducible exact And.intro rfl (And.intro rfl rfl)
    | (show _ = _; rfl)
    | with_reducible apply Evolves.ite
    | dsimp only
    | split
    | with_reducible apply Evolves.update

theorem State.unmask_evolves (s : State) (v) :
    Evolves [.out, .heldOut, .host] s (State.unmask s v) := by
  unfold State.unmask
  repeat' first
    | with_reducible apply Evolves.refl
    | with_reducible apply Evolves.step (g := State.setVec_evolves _ _ _)
    | with_reducible apply Evolves.step (g := State.signal_evolves _ _)
    | with_reducible apply Evolves.part_same
    | ((with_reducible apply Evolves.part_in); rfl)
    | with_reducible exact And.intro rfl (And.intro rfl rfl)
    | (show _ = _; rfl)
    | with_reducible apply Evolves.ite
    | dsimp only
    | split
    | with_reducible apply Evolves.update

theorem State.cqAll_evolves (s : State) (x1) :
    Evolves [.regs, .out, .heldOut, .host] s (State.cqAll s x1) := by
  fun_induction State.cqAll s x1
  all_goals repeat' first
    | with_reducible apply Evolves.refl
    | with_reducible assumption
    | with_reducible apply Evolves.step (g := State.cqWrite_evolves _ _)
    | with_reducible apply Evolves.step (g := by assumption)
    | with_reducible apply Evolves.part_same
    | ((with_reducible apply Evolves.part_in); rfl)
    | with_reducible exact And.intro rfl (And.intro rfl rfl)
    | (show _ = _; rfl)
    | with_reducible apply Evolves.ite
    | dsimp only
    | split
    | with_reducible apply Evolves.update

theorem State.queueEnable_evolves (s : State) (ctrl) :
    Evolves [.regs, .out, .heldOut, .host] s (State.queueEnable s ctrl) := by
  unfold State.queueEnable
  repeat' first
    | with_reducible apply Evolves.refl
    | with_reducible apply Evolves.step (g := State.setFld_evolves _ _ _ _ _)
    | with_reducible apply Evolves.step (g := State.zeroRegs_evolves _ _)
    | with_reducible apply Evolves.step (g := State.cqAll_evolves _ _)
    | with_reducible apply Evolves.part_same
    | ((with_reducible apply Evolves.part_in); rfl)
    | with_reducible exact And.intro rfl (And.intro rfl rfl)
    | (show _ = _; rfl)
    | with_reducible apply Evolves.ite
    | dsimp only
    | split
    | with_reducible apply Evolves.update

theorem State.queueDisable_evolves (s : State) (ctrl) :
    Evolves [.regs] s (State.queueDisable s ctrl) := by
  unfold State.queueDisable
  repeat' first
    | with_reducible apply Evolves.refl
    | with_reducible apply Evolves.step (g := State.setFld_evolves _ _ _ _ _)
    | with_reducible apply Evolves.step (g := State.setBit_evolves _ _ _ _)
    | with_reducible apply Evolves.part_same
    | ((with_reducible apply Evolves.part_in); rfl)
    | with_reducible exact And.intro rfl (And.intro rfl rfl)
    | (show _ = _; rfl)
    | with_reducible apply Evolves.ite
    | dsimp only
    | split
    | with_reducible apply Evolves.update

theorem State.tqTail_evolves (s : State) (index) :
    Evolves [.regs, .out, .heldOut, .host] s (State.tqTail s index) := by
  unfold State.tqTail
  repeat' first
    | with_reducible apply Evolves.refl
    | with_reducible apply Evolves.step (g := State.setRegN_evolves _ _ _)
    | with_reducible apply Evolves.step (g := State.ptrErr_evolves _)
    | with_reducible apply Evolves.part_same
    | ((with_reducible apply Evolves.part_in); rfl)
    | with_reducible exact And.intro rfl (And.intro rfl rfl)
    | (show _ = _; rfl)
    | with_reducible apply Evolves.ite
    | dsimp only
    | split
    | with_reducible apply Evolves.update

theorem State.aqHead_evolves (s : State) (index) :
    Evolves [.regs, .out, .heldOut, .host] s (State.aqHead s index) := by
  unfold State.aqHead
  repeat' first
    | with_reducible apply Evolves.refl
    | with_reducible apply Evolves.step (g := State.setRegN_evolves _ _ _)
    | with_reducible apply Evolves.step (g := State.ptrErr_evolves _)
    | with_reducible apply Evolves.part_same
    | ((with_reducible apply Evolves.part_in); rfl)
    | with_reducible exact And.intro rfl (And.intro rfl rfl)
    | (show _ = _; rfl)
    | with_reducible apply Evolves.ite
    | dsimp only
    | split
    | with_reducible apply Evolves.update

theorem State.cqHead_evolves (s : State) (index) :
    Evolves [.regs, .out, .heldOut, .adm, .host] s (State.cqHead s index) := by
  unfold State.cqHead
  repeat' first
    | with_reducible apply Evolves.refl
    | with_reducible apply Evolves.step (g := State.setRegN_evolves _ _ _)
    | with_reducible apply Evolves.step (g := State.popUnread_evolves _ _)
    | with_reducible apply Evolves.step (g := State.ptrErr_evolves _)
    | with_reducible apply Evolves.part_same
    | ((with_reducible apply Evolves.part_in); rfl)
    | with_reducible exact And.intro rfl (And.intro rfl rfl)
    | (show _ = _; rfl)
    | with_reducible apply Evolves.ite
    | dsimp only
    | split
    | with_reducible apply Evolves.update

/-! ## Host -/

theorem State.linkRise_evolves (s : State) (speed) (width) (flit) :
    Evolves [.regs, .out, .heldOut, .host] s (State.linkRise s speed width flit) := by
  have h (t : State) (h : HostIf) : Evolves [.out, .heldOut, .host] t
      { t with out := t.out ++ t.heldOut, heldOut := [], host := h } := by
    refine ⟨?_, id, id, List.prefix_append _ _, fun _ => Nat.le_refl _, Ledger.grows_refl _⟩
    intro p hp
    cases p <;> first | rfl | exact absurd (by decide) hp
  unfold State.linkRise
  have g := ((State.setRegN_evolves s Reg.PCI_LINK (speed % 16 + 16 * (width % 32) + 512 * flit.toNat + 1024)).widen
    (Q := [.regs, .out, .heldOut, .host]) rfl).step (h _ { s.host with wasUp := true }) rfl
  dsimp only
  split
  · exact g.step (State.event_evolves _ _ _) rfl
  · exact g

theorem State.engineLoss_evolves (s : State) (moved) (e) :
    Evolves [.regs, .mem, .free, .out, .heldOut, .hbm, .host, .bel] s (State.engineLoss s moved e) := by
  unfold State.engineLoss
  repeat' first
    | with_reducible apply Evolves.refl
    | with_reducible apply Evolves.step (g := State.setFld_evolves _ _ _ _ _)
    | with_reducible apply Evolves.step (g := State.abortFlights_evolves _ _ _ _)
    | with_reducible apply Evolves.part_same
    | ((with_reducible apply Evolves.part_in); rfl)
    | with_reducible exact And.intro rfl (And.intro rfl rfl)
    | (show _ = _; rfl)
    | with_reducible apply Evolves.ite
    | dsimp only
    | split
    | with_reducible apply Evolves.update

theorem State.resetRegsOf_evolves (s : State) (x1) :
    Evolves [.regs] s (State.resetRegsOf s x1) := by
  fun_induction State.resetRegsOf s x1
  all_goals repeat' first
    | with_reducible apply Evolves.refl
    | with_reducible assumption
    | with_reducible apply Evolves.step (g := State.setReg_evolves _ _ _)
    | with_reducible apply Evolves.step (g := by assumption)
    | with_reducible apply Evolves.part_same
    | ((with_reducible apply Evolves.part_in); rfl)
    | with_reducible exact And.intro rfl (And.intro rfl rfl)
    | (show _ = _; rfl)
    | with_reducible apply Evolves.ite
    | dsimp only
    | split
    | with_reducible apply Evolves.update

theorem State.resetFields_evolves (s : State) :
    Evolves [.regs] s (State.resetFields s) := by
  unfold State.resetFields
  repeat' first
    | with_reducible apply Evolves.refl
    | with_reducible apply Evolves.step (g := State.resetRegsOf_evolves _ _)
    | with_reducible apply Evolves.part_same
    | ((with_reducible apply Evolves.part_in); rfl)
    | with_reducible exact And.intro rfl (And.intro rfl rfl)
    | (show _ = _; rfl)
    | with_reducible apply Evolves.ite
    | dsimp only
    | split
    | with_reducible apply Evolves.update

theorem State.moveAll_evolves (s : State) (moved) (e) :
    Evolves [.regs, .mem, .out, .heldOut, .hbm, .host, .bel] s (State.moveAll s moved e) := by
  unfold State.moveAll
  repeat' first
    | with_reducible apply Evolves.refl
    | with_reducible apply Evolves.step (g := State.abortMove_evolves _ _ _ _)
    | with_reducible apply Evolves.step (P := [.regs, .mem, .out, .heldOut, .hbm, .host, .bel]) (g := Evolves.foldl (fun _ _ => ?_) _ _)
    | (intro _)
    | with_reducible apply Evolves.part_same
    | ((with_reducible apply Evolves.part_in); rfl)
    | with_reducible exact And.intro rfl (And.intro rfl rfl)
    | (show _ = _; rfl)
    | with_reducible apply Evolves.ite
    | dsimp only
    | split
    | with_reducible apply Evolves.update

theorem State.clearHost_evolves (s : State) (kind) :
    Evolves [.heldOut, .adm, .me, .host, .bel] s (State.clearHost s kind) := by
  unfold State.clearHost
  repeat' first
    | with_reducible apply Evolves.refl
    | with_reducible apply Evolves.part_same
    | ((with_reducible apply Evolves.part_in); rfl)
    | with_reducible exact And.intro rfl (And.intro rfl rfl)
    | (show _ = _; rfl)
    | with_reducible apply Evolves.ite
    | dsimp only
    | split
    | with_reducible apply Evolves.update

theorem State.resetHostSide_evolves (s : State) (kind) (moved) :
    Evolves [.regs, .mem, .free, .out, .heldOut, .image, .tick, .adm, .seg, .me, .ve, .stl, .hbm, .upd, .clo, .pyu, .pwr,
        .host, .hlt, .bel]
      s (State.resetHostSide s kind moved) := by
  unfold State.resetHostSide
  repeat' first
    | with_reducible apply Evolves.refl
    | with_reducible apply Evolves.step (g := State.stopReports_evolves _)
    | with_reducible apply Evolves.step (P := [.regs, .mem, .free, .out, .heldOut, .image, .tick, .adm, .seg, .me, .ve, .stl, .hbm, .upd, .clo, .pyu, .pwr, .host, .hlt, .bel]) (g := State.eachPort_evolves _ _ _ ?_)
    | with_reducible apply Evolves.step (g := State.halt_evolves _)
    | with_reducible apply Evolves.step (g := State.toEmpty_evolves _)
    | with_reducible apply Evolves.step (g := State.resetFields_evolves _)
    | with_reducible apply Evolves.step (g := State.moveAll_evolves _ _ _)
    | with_reducible apply Evolves.step (g := State.clearHost_evolves _ _)
    | (intro _)
    | with_reducible apply Evolves.part_same
    | ((with_reducible apply Evolves.part_in); rfl)
    | with_reducible exact And.intro rfl (And.intro rfl rfl)
    | (show _ = _; rfl)
    | with_reducible apply Evolves.ite
    | dsimp only
    | split
    | with_reducible apply Evolves.update

theorem State.hostReset_evolves (s : State) (kind) (moved) :
    Evolves [.regs, .mem, .free, .out, .heldOut, .image, .tick, .adm, .seg, .me, .ve, .stl, .hbm, .upd, .clo, .pyu, .pwr,
        .ldg, .host, .sbk, .hlt, .bel]
      s (State.hostReset s kind moved) := by
  unfold State.hostReset
  repeat' first
    | with_reducible apply Evolves.refl
    | with_reducible apply Evolves.step (g := State.setReg_evolves _ _ _)
    | with_reducible apply Evolves.step (g := State.send_evolves _ _)
    | with_reducible apply Evolves.step (g := State.mapLdg_evolves _ _)
    | with_reducible apply Evolves.step (g := State.beginEntry_evolves _ _)
    | with_reducible apply Evolves.step (g := State.resetHostSide_evolves _ _ _)
    | with_reducible apply Evolves.part_same
    | ((with_reducible apply Evolves.part_in); rfl)
    | with_reducible exact And.intro rfl (And.intro rfl rfl)
    | (show _ = _; rfl)
    | with_reducible apply Evolves.ite
    | dsimp only
    | split
    | with_reducible apply Evolves.update

theorem State.resizeBar_evolves (s : State) (log2) :
    Evolves [.regs] s (State.resizeBar s log2) := by
  unfold State.resizeBar
  repeat' first
    | with_reducible apply Evolves.refl
    | with_reducible apply Evolves.step (g := State.setRegN_evolves _ _ _)
    | with_reducible apply Evolves.part_same
    | ((with_reducible apply Evolves.part_in); rfl)
    | with_reducible exact And.intro rfl (And.intro rfl rfl)
    | (show _ = _; rfl)
    | with_reducible apply Evolves.ite
    | dsimp only
    | split
    | with_reducible apply Evolves.update

theorem State.configAct_evolves (s : State) (x1) :
    Evolves [.regs, .free, .out, .host] s (State.configAct s x1) := by
  unfold State.configAct
  repeat' first
    | with_reducible apply Evolves.refl
    | with_reducible apply Evolves.step (g := State.used_evolves _)
    | with_reducible apply Evolves.step (g := State.send_evolves _ _)
    | with_reducible apply Evolves.step (g := State.resizeBar_evolves _ _)
    | with_reducible apply Evolves.part_same
    | ((with_reducible apply Evolves.part_in); rfl)
    | with_reducible exact And.intro rfl (And.intro rfl rfl)
    | (show _ = _; rfl)
    | with_reducible apply Evolves.ite
    | dsimp only
    | split
    | with_reducible apply Evolves.update

theorem State.doeAnswer_evolves (s : State) (a) :
    Evolves [.out, .heldOut, .host] s (State.doeAnswer s a) := by
  unfold State.doeAnswer
  repeat' first
    | with_reducible apply Evolves.refl
    | with_reducible apply Evolves.step (g := State.signal_evolves _ _)
    | with_reducible apply Evolves.part_same
    | ((with_reducible apply Evolves.part_in); rfl)
    | with_reducible exact And.intro rfl (And.intro rfl rfl)
    | (show _ = _; rfl)
    | with_reducible apply Evolves.ite
    | dsimp only
    | split
    | with_reducible apply Evolves.update

theorem State.onDoe_evolves {P : List Part} (s : State) (f : State → State)
    (hf : ∀ t, Evolves P t (f t)) (hp : (([.regs, .out, .heldOut, .pwr, .ldg, .host, .sbk, .hlt]
    : List Part).all fun p => P.contains p) = true) :
    Evolves P s (s.onDoe f) := by
  unfold State.onDoe
  split
  · refine Evolves.step ?_ (hf _) (Evolves.covers_self P)
    split
    · exact (Evolves.refl s).step (s.leaveA1_evolves.widen rfl) hp
    · exact Evolves.refl s
  · exact Evolves.refl s

theorem State.pciClr_evolves (s : State) (same) :
    Evolves [.regs] s (State.pciClr s same) := by
  unfold State.pciClr
  repeat' first
    | with_reducible apply Evolves.refl
    | with_reducible apply Evolves.step (g := State.zeroRegs_evolves _ _)
    | with_reducible apply Evolves.step (g := State.sameCycle_evolves _ _)
    | with_reducible apply Evolves.part_same
    | ((with_reducible apply Evolves.part_in); rfl)
    | with_reducible exact And.intro rfl (And.intro rfl rfl)
    | (show _ = _; rfl)
    | with_reducible apply Evolves.ite
    | dsimp only
    | split
    | with_reducible apply Evolves.update

/-! ## Observe -/

theorem State.belSnapNow_evolves (s : State) :
    Evolves [.regs, .bel] s (State.belSnapNow s) := by
  unfold State.belSnapNow
  repeat' first
    | with_reducible apply Evolves.refl
    | with_reducible apply Evolves.step (g := State.belCopy_evolves _)
    | with_reducible apply Evolves.part_same
    | ((with_reducible apply Evolves.part_in); rfl)
    | with_reducible exact And.intro rfl (And.intro rfl rfl)
    | (show _ = _; rfl)
    | with_reducible apply Evolves.ite
    | dsimp only
    | split
    | with_reducible apply Evolves.update

theorem State.belSnap_evolves (s : State) :
    Evolves [.regs, .bel] s (State.belSnap s) := by
  unfold State.belSnap
  repeat' first
    | with_reducible apply Evolves.refl
    | with_reducible apply Evolves.step (g := State.belSnapNow_evolves _)
    | with_reducible apply Evolves.part_same
    | ((with_reducible apply Evolves.part_in); rfl)
    | with_reducible exact And.intro rfl (And.intro rfl rfl)
    | (show _ = _; rfl)
    | with_reducible apply Evolves.ite
    | dsimp only
    | split
    | with_reducible apply Evolves.update

theorem State.belSnapEdge_evolves (s : State) :
    Evolves [.regs, .bel] s (State.belSnapEdge s) := by
  unfold State.belSnapEdge
  repeat' first
    | with_reducible apply Evolves.refl
    | with_reducible apply Evolves.step (g := State.belSnapNow_evolves _)
    | with_reducible apply Evolves.part_same
    | ((with_reducible apply Evolves.part_in); rfl)
    | with_reducible exact And.intro rfl (And.intro rfl rfl)
    | (show _ = _; rfl)
    | with_reducible apply Evolves.ite
    | dsimp only
    | split
    | with_reducible apply Evolves.update

theorem State.loseSink_evolves (s : State) (d) (n) :
    Evolves [.regs, .out, .heldOut, .host] s (State.loseSink s d n) := by
  unfold State.loseSink
  repeat' first
    | with_reducible apply Evolves.refl
    | with_reducible apply Evolves.step (g := State.count_evolves _ _ _ _)
    | with_reducible apply Evolves.step (g := State.event_evolves _ _ _)
    | with_reducible apply Evolves.part_same
    | ((with_reducible apply Evolves.part_in); rfl)
    | with_reducible exact And.intro rfl (And.intro rfl rfl)
    | (show _ = _; rfl)
    | with_reducible apply Evolves.ite
    | dsimp only
    | split
    | with_reducible apply Evolves.update

theorem State.writeGroup_evolves (s : State) (d) (full) :
    Evolves [.regs, .mem, .out, .heldOut, .hbm, .host, .bel] s (State.writeGroup s d full) := by
  unfold State.writeGroup
  repeat' first
    | with_reducible apply Evolves.refl
    | with_reducible apply Evolves.step (g := State.send_evolves _ _)
    | with_reducible apply Evolves.step (g := State.setRing_evolves _ _ _)
    | with_reducible apply Evolves.step (g := State.devWrite_evolves _ _ _ _)
    | with_reducible apply Evolves.step (g := State.loseSink_evolves _ _ _)
    | with_reducible apply Evolves.part_same
    | ((with_reducible apply Evolves.part_in); rfl)
    | with_reducible exact And.intro rfl (And.intro rfl rfl)
    | (show _ = _; rfl)
    | with_reducible apply Evolves.ite
    | dsimp only
    | split
    | with_reducible apply Evolves.update

theorem State.place_evolves (s : State) (d) (r) (full) :
    Evolves [.regs, .mem, .out, .heldOut, .hbm, .host, .bel] s (State.place s d r full) := by
  unfold State.place
  repeat' first
    | with_reducible apply Evolves.refl
    | with_reducible apply Evolves.step (g := State.setRegN_evolves _ _ _)
    | with_reducible apply Evolves.step (g := State.count_evolves _ _ _ _)
    | with_reducible apply Evolves.step (g := State.event_evolves _ _ _)
    | with_reducible apply Evolves.step (g := State.setRing_evolves _ _ _)
    | with_reducible apply Evolves.step (g := State.writeGroup_evolves _ _ _)
    | with_reducible apply Evolves.part_same
    | ((with_reducible apply Evolves.part_in); rfl)
    | with_reducible exact And.intro rfl (And.intro rfl rfl)
    | (show _ = _; rfl)
    | with_reducible apply Evolves.ite
    | dsimp only
    | split
    | with_reducible apply Evolves.update

theorem State.loseRing_evolves (s : State) (d) (tick) :
    Evolves [.regs, .out, .heldOut, .host, .bel] s (State.loseRing s d tick) := by
  unfold State.loseRing
  repeat' first
    | with_reducible apply Evolves.refl
    | with_reducible apply Evolves.step (g := State.count_evolves _ _ _ _)
    | with_reducible apply Evolves.step (g := State.event_evolves _ _ _)
    | with_reducible apply Evolves.step (g := State.setRing_evolves _ _ _)
    | with_reducible apply Evolves.part_same
    | ((with_reducible apply Evolves.part_in); rfl)
    | with_reducible exact And.intro rfl (And.intro rfl rfl)
    | (show _ = _; rfl)
    | with_reducible apply Evolves.ite
    | dsimp only
    | split
    | with_reducible apply Evolves.update

theorem State.placeLoss_evolves (s : State) (d) (r) (full) :
    Evolves [.regs, .mem, .out, .heldOut, .hbm, .host, .bel] s (State.placeLoss s d r full) := by
  unfold State.placeLoss
  repeat' first
    | with_reducible apply Evolves.refl
    | with_reducible apply Evolves.step (g := State.setRing_evolves _ _ _)
    | with_reducible apply Evolves.step (g := State.place_evolves _ _ _ _)
    | with_reducible apply Evolves.part_same
    | ((with_reducible apply Evolves.part_in); rfl)
    | with_reducible exact And.intro rfl (And.intro rfl rfl)
    | (show _ = _; rfl)
    | with_reducible apply Evolves.ite
    | dsimp only
    | split
    | with_reducible apply Evolves.update

theorem State.arriveRec_evolves (s : State) (d) (r) (full) :
    Evolves [.regs, .mem, .out, .heldOut, .hbm, .host, .bel] s (State.arriveRec s d r full) := by
  unfold State.arriveRec
  repeat' first
    | with_reducible apply Evolves.refl
    | with_reducible apply Evolves.step (g := State.bel64_evolves _ _ _)
    | with_reducible apply Evolves.step (g := State.place_evolves _ _ _ _)
    | with_reducible apply Evolves.step (g := State.loseRing_evolves _ _ _)
    | with_reducible apply Evolves.step (g := State.placeLoss_evolves _ _ _ _)
    | with_reducible apply Evolves.part_same
    | ((with_reducible apply Evolves.part_in); rfl)
    | with_reducible exact And.intro rfl (And.intro rfl rfl)
    | (show _ = _; rfl)
    | with_reducible apply Evolves.ite
    | dsimp only
    | split
    | with_reducible apply Evolves.update

theorem State.ringCtrl_evolves (s : State) (d) (v) :
    Evolves [.regs, .mem, .out, .heldOut, .hbm, .host, .bel] s (State.ringCtrl s d v) := by
  unfold State.ringCtrl
  repeat' first
    | with_reducible apply Evolves.refl
    | with_reducible apply Evolves.step (g := State.setReg_evolves _ _ _)
    | with_reducible apply Evolves.step (g := State.setRegN_evolves _ _ _)
    | with_reducible apply Evolves.step (g := State.setBit_evolves _ _ _ _)
    | with_reducible apply Evolves.step (g := State.event_evolves _ _ _)
    | with_reducible apply Evolves.step (g := State.writeGroup_evolves _ _ _)
    | with_reducible apply Evolves.part_same
    | ((with_reducible apply Evolves.part_in); rfl)
    | with_reducible exact And.intro rfl (And.intro rfl rfl)
    | (show _ = _; rfl)
    | with_reducible apply Evolves.ite
    | dsimp only
    | split
    | with_reducible apply Evolves.update

theorem State.ringHeadWrite_evolves (s : State) (d) (v) :
    Evolves [.regs, .out, .heldOut, .host] s (State.ringHeadWrite s d v) := by
  unfold State.ringHeadWrite
  repeat' first
    | with_reducible apply Evolves.refl
    | with_reducible apply Evolves.step (g := State.setReg_evolves _ _ _)
    | with_reducible apply Evolves.step (g := State.event_evolves _ _ _)
    | with_reducible apply Evolves.part_same
    | ((with_reducible apply Evolves.part_in); rfl)
    | with_reducible exact And.intro rfl (And.intro rfl rfl)
    | (show _ = _; rfl)
    | with_reducible apply Evolves.ite
    | dsimp only
    | split
    | with_reducible apply Evolves.update

/-! ## Power -/

theorem State.countSteps_evolves (s : State) (x1) :
    Evolves [.hlt] s (State.countSteps s x1) := by
  fun_induction State.countSteps s x1
  all_goals repeat' first
    | with_reducible apply Evolves.refl
    | with_reducible assumption
    | with_reducible apply Evolves.step (g := State.liveScaled_evolves _ _ _ _)
    | with_reducible apply Evolves.step (g := by assumption)
    | with_reducible apply Evolves.part_same
    | ((with_reducible apply Evolves.part_in); rfl)
    | with_reducible exact And.intro rfl (And.intro rfl rfl)
    | (show _ = _; rfl)
    | with_reducible apply Evolves.ite
    | dsimp only
    | split
    | with_reducible apply Evolves.update

theorem State.capWrite_evolves (s : State) (v) :
    Evolves [.regs, .out, .heldOut, .host, .sbk] s (State.capWrite s v) := by
  unfold State.capWrite
  repeat' first
    | with_reducible apply Evolves.refl
    | with_reducible apply Evolves.step (g := State.seedAccept_evolves _ _ _)
    | with_reducible apply Evolves.part_same
    | ((with_reducible apply Evolves.part_in); rfl)
    | with_reducible exact And.intro rfl (And.intro rfl rfl)
    | (show _ = _; rfl)
    | with_reducible apply Evolves.ite
    | dsimp only
    | split
    | with_reducible apply Evolves.update

theorem State.ackStale_evolves (s : State) :
    Evolves [.pwr] s (State.ackStale s) := by
  unfold State.ackStale
  repeat' first
    | with_reducible apply Evolves.refl
    | with_reducible apply Evolves.part_same
    | ((with_reducible apply Evolves.part_in); rfl)
    | with_reducible exact And.intro rfl (And.intro rfl rfl)
    | (show _ = _; rfl)
    | with_reducible apply Evolves.ite
    | dsimp only
    | split
    | with_reducible apply Evolves.update

/-! ## Lodge -/

theorem State.onMgmt_evolves {P : List Part} (s : State) (f : State → State)
    (hf : ∀ t, Evolves P t (f t)) (hp : (([.regs, .out, .heldOut, .pwr, .ldg, .host, .sbk, .hlt]
    : List Part).all fun p => P.contains p) = true) :
    Evolves P s (s.onMgmt f) := by
  unfold State.onMgmt
  split
  · refine Evolves.step ?_ (hf _) (Evolves.covers_self P)
    split
    · exact (Evolves.refl s).step (s.leaveA1_evolves.widen rfl) hp
    · exact Evolves.refl s
  · exact Evolves.refl s

theorem State.targetA0_evolves (s : State) :
    Evolves [.regs, .mem, .heldOut, .boot, .image, .tick, .adm, .seg, .me, .ve, .stl, .hbm, .upd, .clo, .trl, .pyu, .pwr,
        .ldg, .host, .sec, .hlt, .bel]
      s (State.targetA0 s) := by
  unfold State.targetA0
  repeat' first
    | with_reducible apply Evolves.refl
    | with_reducible apply Evolves.step (g := State.wakeEvent_evolves _ _ _)
    | with_reducible apply Evolves.step (g := State.entryResult_evolves _ _)
    | with_reducible apply Evolves.part_same
    | ((with_reducible apply Evolves.part_in); rfl)
    | with_reducible exact And.intro rfl (And.intro rfl rfl)
    | (show _ = _; rfl)
    | with_reducible apply Evolves.ite
    | dsimp only
    | split
    | with_reducible apply Evolves.update

theorem State.listenPort_evolves (s : State) (p) :
    Evolves [.pyu] s (State.listenPort s p) := by
  unfold State.listenPort
  repeat' first
    | with_reducible apply Evolves.refl
    | with_reducible apply Evolves.step (g := State.setPort_evolves _ _ _)
    | with_reducible apply Evolves.part_same
    | ((with_reducible apply Evolves.part_in); rfl)
    | with_reducible exact And.intro rfl (And.intro rfl rfl)
    | (show _ = _; rfl)
    | with_reducible apply Evolves.ite
    | dsimp only
    | split
    | with_reducible apply Evolves.update

theorem State.listen_evolves (s : State) :
    Evolves [.pyu] s (State.listen s) := by
  unfold State.listen
  repeat' first
    | with_reducible apply Evolves.refl
    | with_reducible apply Evolves.step (P := [.pyu]) (g := State.eachPort_evolves _ _ _ ?_)
    | with_reducible apply Evolves.step (g := State.listenPort_evolves _ _)
    | (intro _)
    | with_reducible apply Evolves.part_same
    | ((with_reducible apply Evolves.part_in); rfl)
    | with_reducible exact And.intro rfl (And.intro rfl rfl)
    | (show _ = _; rfl)
    | with_reducible apply Evolves.ite
    | dsimp only
    | split
    | with_reducible apply Evolves.update

theorem State.keepRegs_evolves (s : State) (old : State) (x1) :
    Evolves [.regs] s (State.keepRegs s old x1) := by
  fun_induction State.keepRegs s old x1
  all_goals repeat' first
    | with_reducible apply Evolves.refl
    | with_reducible assumption
    | with_reducible apply Evolves.step (g := State.setReg_evolves _ _ _)
    | with_reducible apply Evolves.step (g := by assumption)
    | with_reducible apply Evolves.part_same
    | ((with_reducible apply Evolves.part_in); rfl)
    | with_reducible exact And.intro rfl (And.intro rfl rfl)
    | (show _ = _; rfl)
    | with_reducible apply Evolves.ite
    | dsimp only
    | split
    | with_reducible apply Evolves.update

theorem State.toA3_evolves (s : State) :
    Evolves [.regs, .mem, .heldOut, .boot, .image, .tick, .adm, .seg, .me, .ve, .stl, .hbm, .upd, .clo, .trl, .pyu, .pwr,
        .ldg, .host, .sec, .hlt, .bel]
      s (State.toA3 s) := by
  unfold State.toA3
  repeat' first
    | with_reducible apply Evolves.refl
    | with_reducible apply Evolves.step (g := State.lose_evolves _)
    | with_reducible apply Evolves.step (g := State.mapLdg_evolves _ _)
    | with_reducible apply Evolves.step (g := State.listen_evolves _)
    | with_reducible apply Evolves.step (g := State.keepRegs_evolves _ _ _)
    | with_reducible apply Evolves.part_same
    | ((with_reducible apply Evolves.part_in); rfl)
    | with_reducible exact And.intro rfl (And.intro rfl rfl)
    | (show _ = _; rfl)
    | with_reducible apply Evolves.ite
    | dsimp only
    | split
    | with_reducible apply Evolves.update

theorem State.reachState_evolves (s : State) (x1) :
    Evolves [.regs, .mem, .heldOut, .boot, .image, .tick, .adm, .seg, .me, .ve, .stl, .hbm, .upd, .clo, .trl, .pyu, .pwr,
        .ldg, .host, .sec, .hlt, .bel]
      s (State.reachState s x1) := by
  unfold State.reachState
  repeat' first
    | with_reducible apply Evolves.refl
    | with_reducible apply Evolves.step (g := State.mapLdg_evolves _ _)
    | with_reducible apply Evolves.step (g := State.listen_evolves _)
    | with_reducible apply Evolves.step (g := State.toA3_evolves _)
    | with_reducible apply Evolves.part_same
    | ((with_reducible apply Evolves.part_in); rfl)
    | with_reducible exact And.intro rfl (And.intro rfl rfl)
    | (show _ = _; rfl)
    | with_reducible apply Evolves.ite
    | dsimp only
    | split
    | with_reducible apply Evolves.update

theorem State.afterEntry_evolves (s : State) :
    Evolves [.regs, .mem, .out, .heldOut, .boot, .image, .tick, .adm, .seg, .me, .ve, .stl, .hbm, .upd, .clo, .trl, .pyu,
        .pwr, .ldg, .host, .sec, .sbk, .hlt, .bel]
      s (State.afterEntry s) := by
  unfold State.afterEntry
  repeat' first
    | with_reducible apply Evolves.refl
    | with_reducible apply Evolves.step (g := State.setBit_evolves _ _ _ _)
    | with_reducible apply Evolves.step (g := State.mapLdg_evolves _ _)
    | with_reducible apply Evolves.step (g := State.startWake_evolves _)
    | with_reducible apply Evolves.step (g := State.entryResult_evolves _ _)
    | with_reducible apply Evolves.step (g := State.actHeld_evolves _)
    | with_reducible apply Evolves.part_same
    | ((with_reducible apply Evolves.part_in); rfl)
    | with_reducible exact And.intro rfl (And.intro rfl rfl)
    | (show _ = _; rfl)
    | with_reducible apply Evolves.ite
    | dsimp only
    | split
    | with_reducible apply Evolves.update

theorem State.portWake_evolves (s : State) (bit) (p) :
    Evolves [.regs, .mem, .out, .heldOut, .boot, .image, .tick, .adm, .seg, .me, .ve, .stl, .hbm, .upd, .clo, .trl, .pyu,
        .pwr, .ldg, .host, .sec, .hlt, .bel]
      s (State.portWake s bit p) := by
  unfold State.portWake
  repeat' first
    | with_reducible apply Evolves.refl
    | with_reducible apply Evolves.step (g := State.event_evolves _ _ _)
    | with_reducible apply Evolves.step (g := State.wakeEvent_evolves _ _ _)
    | with_reducible apply Evolves.part_same
    | ((with_reducible apply Evolves.part_in); rfl)
    | with_reducible exact And.intro rfl (And.intro rfl rfl)
    | (show _ = _; rfl)
    | with_reducible apply Evolves.ite
    | dsimp only
    | split
    | with_reducible apply Evolves.update

theorem State.wakeBy_evolves (s : State) (x1) :
    Evolves [.regs, .mem, .out, .heldOut, .boot, .image, .tick, .adm, .seg, .me, .ve, .stl, .hbm, .upd, .clo, .trl, .pyu,
        .pwr, .ldg, .host, .sec, .hlt, .bel]
      s (State.wakeBy s x1) := by
  unfold State.wakeBy
  repeat' first
    | with_reducible apply Evolves.refl
    | with_reducible apply Evolves.step (g := State.wakeEvent_evolves _ _ _)
    | with_reducible apply Evolves.step (g := State.portWake_evolves _ _ _)
    | with_reducible apply Evolves.part_same
    | ((with_reducible apply Evolves.part_in); rfl)
    | with_reducible exact And.intro rfl (And.intro rfl rfl)
    | (show _ = _; rfl)
    | with_reducible apply Evolves.ite
    | dsimp only
    | split
    | with_reducible apply Evolves.update

theorem State.retrainPorts_evolves (s : State) :
    Evolves [.pyu] s (State.retrainPorts s) := by
  unfold State.retrainPorts
  repeat' first
    | with_reducible apply Evolves.refl
    | with_reducible apply Evolves.step (g := State.setPort_evolves _ _ _)
    | with_reducible apply Evolves.step (P := [.pyu]) (g := State.eachPort_evolves _ _ _ ?_)
    | with_reducible apply Evolves.step (g := State.topoPorts_evolves _)
    | with_reducible apply Evolves.step (g := State.freePorts_evolves _)
    | (intro _)
    | with_reducible apply Evolves.part_same
    | ((with_reducible apply Evolves.part_in); rfl)
    | with_reducible exact And.intro rfl (And.intro rfl rfl)
    | (show _ = _; rfl)
    | with_reducible apply Evolves.ite
    | dsimp only
    | split
    | with_reducible apply Evolves.update

theorem State.recheck_evolves (s : State) :
    Evolves [.image] s (State.recheck s) := by
  unfold State.recheck
  repeat' first
    | with_reducible apply Evolves.refl
    | with_reducible apply Evolves.part_same
    | ((with_reducible apply Evolves.part_in); rfl)
    | with_reducible exact And.intro rfl (And.intro rfl rfl)
    | (show _ = _; rfl)
    | with_reducible apply Evolves.ite
    | dsimp only
    | split
    | with_reducible apply Evolves.update

theorem State.wakeDone_evolves (s : State) :
    Evolves [.regs, .out, .heldOut, .boot, .image, .pyu, .pwr, .ldg, .host, .sbk, .hlt] s (State.wakeDone s) := by
  unfold State.wakeDone
  repeat' first
    | with_reducible apply Evolves.refl
    | with_reducible apply Evolves.step (g := State.event_evolves _ _ _)
    | with_reducible apply Evolves.step (g := State.mapLdg_evolves _ _)
    | with_reducible apply Evolves.step (g := State.actHeld_evolves _)
    | with_reducible apply Evolves.step (g := State.retrainPorts_evolves _)
    | with_reducible apply Evolves.step (g := State.recheck_evolves _)
    | with_reducible apply Evolves.part_same
    | ((with_reducible apply Evolves.part_in); rfl)
    | with_reducible exact And.intro rfl (And.intro rfl rfl)
    | (show _ = _; rfl)
    | with_reducible apply Evolves.ite
    | dsimp only
    | split
    | with_reducible apply Evolves.update

theorem State.shutdown_evolves (s : State) (i) (v) :
    Evolves [.regs, .mem, .out, .heldOut, .boot, .image, .tick, .adm, .seg, .me, .ve, .stl, .hbm, .upd, .clo, .trl, .pyu,
        .pwr, .ldg, .host, .sec, .hlt, .bel]
      s (State.shutdown s i v) := by
  unfold State.shutdown
  repeat' first
    | with_reducible apply Evolves.refl
    | with_reducible apply Evolves.step (g := State.setRegN_evolves _ _ _)
    | with_reducible apply Evolves.step (g := State.setBit_evolves _ _ _ _)
    | with_reducible apply Evolves.step (g := State.event_evolves _ _ _)
    | with_reducible apply Evolves.step (g := State.ledgerEvent_evolves _ _ _ _ _ _)
    | with_reducible apply Evolves.step (g := State.mapLdg_evolves _ _)
    | with_reducible apply Evolves.step (g := State.toA3_evolves _)
    | with_reducible apply Evolves.part_same
    | ((with_reducible apply Evolves.part_in); rfl)
    | with_reducible exact And.intro rfl (And.intro rfl rfl)
    | (show _ = _; rfl)
    | with_reducible apply Evolves.ite
    | dsimp only
    | split
    | with_reducible apply Evolves.update

theorem State.clearTrip_evolves (s : State) :
    Evolves [.regs] s (State.clearTrip s) := by
  unfold State.clearTrip
  repeat' first
    | with_reducible apply Evolves.refl
    | with_reducible apply Evolves.step (g := State.setBit_evolves _ _ _ _)
    | with_reducible apply Evolves.part_same
    | ((with_reducible apply Evolves.part_in); rfl)
    | with_reducible exact And.intro rfl (And.intro rfl rfl)
    | (show _ = _; rfl)
    | with_reducible apply Evolves.ite
    | dsimp only
    | split
    | with_reducible apply Evolves.update

theorem State.junctionStats_evolves (s : State) (core) (x1) :
    Evolves [.hlt] s (State.junctionStats s core x1) := by
  fun_induction State.junctionStats s core x1
  all_goals repeat' first
    | with_reducible apply Evolves.refl
    | with_reducible assumption
    | with_reducible apply Evolves.step (g := State.liveScaled_evolves _ _ _ _)
    | with_reducible apply Evolves.step (g := State.liveMax_evolves _ _ _)
    | with_reducible apply Evolves.step (g := by assumption)
    | with_reducible apply Evolves.part_same
    | ((with_reducible apply Evolves.part_in); rfl)
    | with_reducible exact And.intro rfl (And.intro rfl rfl)
    | (show _ = _; rfl)
    | with_reducible apply Evolves.ite
    | dsimp only
    | split
    | with_reducible apply Evolves.update

theorem State.stackStats_evolves (s : State) (k) (x1) :
    Evolves [.hlt] s (State.stackStats s k x1) := by
  fun_induction State.stackStats s k x1
  all_goals repeat' first
    | with_reducible apply Evolves.refl
    | with_reducible assumption
    | with_reducible apply Evolves.step (g := State.liveScaled_evolves _ _ _ _)
    | with_reducible apply Evolves.step (g := State.liveMax_evolves _ _ _)
    | with_reducible apply Evolves.step (g := by assumption)
    | with_reducible apply Evolves.part_same
    | ((with_reducible apply Evolves.part_in); rfl)
    | with_reducible exact And.intro rfl (And.intro rfl rfl)
    | (show _ = _; rfl)
    | with_reducible apply Evolves.ite
    | dsimp only
    | split
    | with_reducible apply Evolves.update

theorem State.stageStats_evolves (s : State) (k) (x1) :
    Evolves [.hlt] s (State.stageStats s k x1) := by
  fun_induction State.stageStats s k x1
  all_goals repeat' first
    | with_reducible apply Evolves.refl
    | with_reducible assumption
    | with_reducible apply Evolves.step (g := State.liveMax_evolves _ _ _)
    | with_reducible apply Evolves.step (g := by assumption)
    | with_reducible apply Evolves.part_same
    | ((with_reducible apply Evolves.part_in); rfl)
    | with_reducible exact And.intro rfl (And.intro rfl rfl)
    | (show _ = _; rfl)
    | with_reducible apply Evolves.ite
    | dsimp only
    | split
    | with_reducible apply Evolves.update

theorem State.sampleStats_evolves (s : State) (x) :
    Evolves [.hlt] s (State.sampleStats s x) := by
  unfold State.sampleStats
  repeat' first
    | with_reducible apply Evolves.refl
    | with_reducible apply Evolves.step (g := State.liveScaled_evolves _ _ _ _)
    | with_reducible apply Evolves.step (g := State.junctionStats_evolves _ _ _)
    | with_reducible apply Evolves.step (g := State.stackStats_evolves _ _ _)
    | with_reducible apply Evolves.step (g := State.stageStats_evolves _ _ _)
    | with_reducible apply Evolves.part_same
    | ((with_reducible apply Evolves.part_in); rfl)
    | with_reducible exact And.intro rfl (And.intro rfl rfl)
    | (show _ = _; rfl)
    | with_reducible apply Evolves.ite
    | dsimp only
    | split
    | with_reducible apply Evolves.update

theorem State.closing_evolves (s : State) (x) :
    Evolves [.regs, .out, .heldOut, .host, .hlt] s (State.closing s x) := by
  unfold State.closing
  repeat' first
    | with_reducible apply Evolves.refl
    | with_reducible apply Evolves.step (g := State.appendSummary_evolves _)
    | with_reducible apply Evolves.part_same
    | ((with_reducible apply Evolves.part_in); rfl)
    | with_reducible exact And.intro rfl (And.intro rfl rfl)
    | (show _ = _; rfl)
    | with_reducible apply Evolves.ite
    | dsimp only
    | split
    | with_reducible apply Evolves.update

theorem State.compare_evolves (s : State) (x) :
    Evolves [.regs, .mem, .out, .heldOut, .boot, .image, .tick, .adm, .seg, .me, .ve, .stl, .hbm, .upd, .clo, .trl, .pyu,
        .pwr, .ldg, .host, .sec, .hlt, .bel]
      s (State.compare s x) := by
  unfold State.compare
  repeat' first
    | with_reducible apply Evolves.refl
    | with_reducible apply Evolves.step (g := State.mapLdg_evolves _ _)
    | with_reducible apply Evolves.step (g := State.shutdown_evolves _ _ _)
    | with_reducible apply Evolves.step (g := State.clearTrip_evolves _)
    | with_reducible apply Evolves.part_same
    | ((with_reducible apply Evolves.part_in); rfl)
    | with_reducible exact And.intro rfl (And.intro rfl rfl)
    | (show _ = _; rfl)
    | with_reducible apply Evolves.ite
    | dsimp only
    | split
    | with_reducible apply Evolves.update

theorem State.persistQueue_evolves (s : State) (x1) :
    Evolves [.regs, .out, .heldOut, .pwr, .host, .sbk, .hlt] s (State.persistQueue s x1) := by
  fun_induction State.persistQueue s x1
  all_goals repeat' first
    | with_reducible apply Evolves.refl
    | with_reducible assumption
    | with_reducible apply Evolves.step (g := State.seedPersist_evolves _)
    | with_reducible apply Evolves.step (g := by assumption)
    | with_reducible apply Evolves.part_same
    | ((with_reducible apply Evolves.part_in); rfl)
    | with_reducible exact And.intro rfl (And.intro rfl rfl)
    | (show _ = _; rfl)
    | with_reducible apply Evolves.ite
    | dsimp only
    | split
    | with_reducible apply Evolves.update

theorem State.toOff_evolves (s : State) :
    Evolves [.regs, .mem, .heldOut, .boot, .image, .tick, .adm, .seg, .me, .ve, .stl, .hbm, .upd, .clo, .trl, .pyu, .pwr,
        .ldg, .host, .sec, .hlt, .bel] s (State.toOff s) := by
  unfold State.toOff
  refine (s.lose_evolves.widen (Q := [.regs, .mem, .heldOut, .boot, .image, .tick, .adm, .seg, .me, .ve, .stl, .hbm, .upd,
      .clo, .trl, .pyu, .pwr, .ldg, .host, .sec, .hlt, .bel]) rfl).step (P := [.regs, .boot, .ldg, .sec, .hlt]) ?_ rfl
  generalize s.lose = t
  refine ⟨?_, id, fun _ => ?_, List.prefix_refl _, fun i => ?_, ⟨Nat.le_refl _, Nat.le_refl _, fun _ _ => rfl⟩⟩
  · intro p hp
    cases p <;> first | exact absurd (by decide) hp | (dsimp only [State.agree])
  · have h1 := s.lostRegs_wf [] (by rw [List.append_nil]; exact resetRegs_wf)
    dsimp only
    exact h1
  · unfold State.wear
    exact Nat.le_refl _

theorem State.mctpReply_evolves (s : State) (r) :
    Evolves [.out] s (State.mctpReply s r) := by
  unfold State.mctpReply
  repeat' first
    | with_reducible apply Evolves.refl
    | with_reducible apply Evolves.step (g := State.send_evolves _ _)
    | with_reducible apply Evolves.part_same
    | ((with_reducible apply Evolves.part_in); rfl)
    | with_reducible exact And.intro rfl (And.intro rfl rfl)
    | (show _ = _; rfl)
    | with_reducible apply Evolves.ite
    | dsimp only
    | split
    | with_reducible apply Evolves.update

theorem State.onI3c_evolves {P : List Part} (s : State) (f : State → State)
    (hf : ∀ t, Evolves P t (f t)) (hp : (([.regs, .out, .heldOut, .pwr, .ldg, .host, .sbk, .hlt]
    : List Part).all fun p => P.contains p) = true) :
    Evolves P s (s.onI3c f) := by
  unfold State.onI3c
  split
  · exact s.onMgmt_evolves f hf hp
  · exact Evolves.refl s

theorem State.fillMailbox_evolves (s : State) (k) (x1) (x2) :
    Evolves [.regs] s (State.fillMailbox s k x1 x2) := by
  fun_induction State.fillMailbox s k x1 x2
  all_goals repeat' first
    | with_reducible apply Evolves.refl
    | with_reducible assumption
    | with_reducible apply Evolves.step (g := State.setRegN_evolves _ _ _)
    | with_reducible apply Evolves.step (g := by assumption)
    | with_reducible apply Evolves.part_same
    | ((with_reducible apply Evolves.part_in); rfl)
    | with_reducible exact And.intro rfl (And.intro rfl rfl)
    | (show _ = _; rfl)
    | with_reducible apply Evolves.ite
    | dsimp only
    | split
    | with_reducible apply Evolves.update

theorem State.mailbox_evolves (s : State) (v) (req) :
    Evolves [.regs, .free, .out, .heldOut, .host] s (State.mailbox s v req) := by
  unfold State.mailbox
  repeat' first
    | with_reducible apply Evolves.refl
    | with_reducible apply Evolves.step (g := State.setFld_evolves _ _ _ _ _)
    | with_reducible apply Evolves.step (g := State.setBit_evolves _ _ _ _)
    | with_reducible apply Evolves.step (g := State.used_evolves _)
    | with_reducible apply Evolves.step (g := State.event_evolves _ _ _)
    | with_reducible apply Evolves.step (g := State.fillMailbox_evolves _ _ _ _)
    | with_reducible apply Evolves.part_same
    | ((with_reducible apply Evolves.part_in); rfl)
    | with_reducible exact And.intro rfl (And.intro rfl rfl)
    | (show _ = _; rfl)
    | with_reducible apply Evolves.ite
    | dsimp only
    | split
    | with_reducible apply Evolves.update

/-! ## Boot -/

theorem State.powerUp_evolves (s : State) (perst) :
    Evolves [.regs, .mem, .heldOut, .boot, .image, .tick, .adm, .seg, .me, .ve, .stl, .hbm, .upd, .clo, .trl, .pyu, .pwr,
        .ldg, .host, .sec, .hlt, .bel]
      s (State.powerUp s perst) := by
  unfold State.powerUp
  repeat' first
    | with_reducible apply Evolves.refl
    | with_reducible apply Evolves.step (g := State.setReg_evolves _ _ _)
    | with_reducible apply Evolves.step (g := State.live_evolves _ _ _)
    | with_reducible apply Evolves.step (g := State.toOff_evolves _)
    | with_reducible apply Evolves.part_same
    | ((with_reducible apply Evolves.part_in); rfl)
    | with_reducible exact And.intro rfl (And.intro rfl rfl)
    | (show _ = _; rfl)
    | with_reducible apply Evolves.ite
    | dsimp only
    | split
    | with_reducible apply Evolves.update

theorem State.bootRecord_evolves (s : State) (f) :
    Evolves [.regs, .out, .heldOut, .host, .hlt] s (State.bootRecord s f) := by
  unfold State.bootRecord
  repeat' first
    | with_reducible apply Evolves.refl
    | with_reducible apply Evolves.step (g := State.ledgerEvent_evolves _ _ _ _ _ _)
    | with_reducible apply Evolves.part_same
    | ((with_reducible apply Evolves.part_in); rfl)
    | with_reducible exact And.intro rfl (And.intro rfl rfl)
    | (show _ = _; rfl)
    | with_reducible apply Evolves.ite
    | dsimp only
    | split
    | with_reducible apply Evolves.update

theorem State.raiseFloor_evolves (s : State) (raw) :
    Evolves [.regs, .out, .heldOut, .host, .sbk] s (State.raiseFloor s raw) := by
  unfold State.raiseFloor
  repeat' first
    | with_reducible apply Evolves.refl
    | with_reducible apply Evolves.step (g := State.seedAccept_evolves _ _ _)
    | with_reducible apply Evolves.part_same
    | ((with_reducible apply Evolves.part_in); rfl)
    | with_reducible exact And.intro rfl (And.intro rfl rfl)
    | (show _ = _; rfl)
    | with_reducible apply Evolves.ite
    | dsimp only
    | split
    | with_reducible apply Evolves.update

theorem State.bootDone_evolves (s : State) (f) :
    Evolves [.regs, .out, .heldOut, .boot, .host, .sbk, .hlt] s (State.bootDone s f) := by
  unfold State.bootDone
  repeat' first
    | with_reducible apply Evolves.refl
    | with_reducible apply Evolves.step (g := State.setRegN_evolves _ _ _)
    | with_reducible apply Evolves.step (g := State.send_evolves _ _)
    | with_reducible apply Evolves.step (g := State.bootRecord_evolves _ _)
    | with_reducible apply Evolves.step (g := State.raiseFloor_evolves _ _)
    | with_reducible apply Evolves.part_same
    | ((with_reducible apply Evolves.part_in); rfl)
    | with_reducible exact And.intro rfl (And.intro rfl rfl)
    | (show _ = _; rfl)
    | with_reducible apply Evolves.ite
    | dsimp only
    | split
    | with_reducible apply Evolves.update

theorem State.autoMapOut_evolves (s : State) (x1) :
    Evolves [.regs, .out, .heldOut, .host, .hlt] s (State.autoMapOut s x1) := by
  fun_induction State.autoMapOut s x1
  all_goals repeat' first
    | with_reducible apply Evolves.refl
    | with_reducible assumption
    | with_reducible apply Evolves.step (g := State.event_evolves _ _ _)
    | with_reducible apply Evolves.step (g := State.ledgerEvent_evolves _ _ _ _ _ _)
    | with_reducible apply Evolves.step (g := by assumption)
    | with_reducible apply Evolves.part_same
    | ((with_reducible apply Evolves.part_in); rfl)
    | with_reducible exact And.intro rfl (And.intro rfl rfl)
    | (show _ = _; rfl)
    | with_reducible apply Evolves.ite
    | dsimp only
    | split
    | with_reducible apply Evolves.update

theorem State.autoMapGroup_evolves (s : State) (failed) (k) :
    Evolves [.regs, .out, .heldOut, .image, .hbm, .host, .sbk, .hlt] s (State.autoMapGroup s failed k) := by
  unfold State.autoMapGroup
  repeat' first
    | with_reducible apply Evolves.refl
    | with_reducible apply Evolves.step (g := State.ownMap_evolves _ _ _)
    | with_reducible apply Evolves.step (g := State.autoMapOut_evolves _ _)
    | with_reducible apply Evolves.step (P := [.regs, .out, .heldOut, .image, .hbm, .host, .sbk, .hlt]) (g := Evolves.foldl (fun _ _ => ?_) _ _)
    | (intro _)
    | with_reducible apply Evolves.part_same
    | ((with_reducible apply Evolves.part_in); rfl)
    | with_reducible exact And.intro rfl (And.intro rfl rfl)
    | (show _ = _; rfl)
    | with_reducible apply Evolves.ite
    | dsimp only
    | split
    | with_reducible apply Evolves.update

/-! ## Security -/

theorem State.enrGo_evolves (s : State) :
    Evolves [.regs] s (State.enrGo s) := by
  unfold State.enrGo
  repeat' first
    | with_reducible apply Evolves.refl
    | with_reducible apply Evolves.step (g := State.setBit_evolves _ _ _ _)
    | with_reducible apply Evolves.part_same
    | ((with_reducible apply Evolves.part_in); rfl)
    | with_reducible exact And.intro rfl (And.intro rfl rfl)
    | (show _ = _; rfl)
    | with_reducible apply Evolves.ite
    | dsimp only
    | split
    | with_reducible apply Evolves.update

theorem State.enrResult_evolves (s : State) (code) :
    Evolves [.regs, .out, .heldOut, .host] s (State.enrResult s code) := by
  unfold State.enrResult
  repeat' first
    | with_reducible apply Evolves.refl
    | with_reducible apply Evolves.step (g := State.setFld_evolves _ _ _ _ _)
    | with_reducible apply Evolves.step (g := State.setBit_evolves _ _ _ _)
    | with_reducible apply Evolves.step (g := State.event_evolves _ _ _)
    | with_reducible apply Evolves.part_same
    | ((with_reducible apply Evolves.part_in); rfl)
    | with_reducible exact And.intro rfl (And.intro rfl rfl)
    | (show _ = _; rfl)
    | with_reducible apply Evolves.ite
    | dsimp only
    | split
    | with_reducible apply Evolves.update

theorem State.pldmSend_evolves (s : State) (code) (fields) :
    Evolves [.out] s (State.pldmSend s code fields) := by
  unfold State.pldmSend
  repeat' first
    | with_reducible apply Evolves.refl
    | with_reducible apply Evolves.step (g := State.send_evolves _ _)
    | with_reducible apply Evolves.part_same
    | ((with_reducible apply Evolves.part_in); rfl)
    | with_reducible exact And.intro rfl (And.intro rfl rfl)
    | (show _ = _; rfl)
    | with_reducible apply Evolves.ite
    | dsimp only
    | split
    | with_reducible apply Evolves.update

theorem State.mapSec_evolves (s : State) (f) :
    Evolves [.sec] s (State.mapSec s f) := by
  unfold State.mapSec
  repeat' first
    | with_reducible apply Evolves.refl
    | with_reducible apply Evolves.part_same
    | ((with_reducible apply Evolves.part_in); rfl)
    | with_reducible exact And.intro rfl (And.intro rfl rfl)
    | (show _ = _; rfl)
    | with_reducible apply Evolves.ite
    | dsimp only
    | split
    | with_reducible apply Evolves.update

theorem State.pldmIn_evolves {P : List Part} (s : State) (want) (f : State → State)
    (hf : ∀ t, Evolves P t (f t)) (hp : (([.regs, .out, .heldOut, .pwr, .ldg, .host, .sbk, .hlt]
    : List Part).all fun p => P.contains p) = true) :
    Evolves P s (s.pldmIn want f) := by
  refine s.onMgmt_evolves _ (fun t => ?_) hp
  split
  · exact (hf t).step ((State.pldmSend_evolves _ _ _).widen rfl) hp
  · exact (Evolves.refl t).step ((State.pldmSend_evolves _ _ _).widen rfl) hp

theorem State.spdmIn_evolves {P : List Part} (s : State) (f : State → State)
    (hf : ∀ t, Evolves P t (f t)) (hp : (([.regs, .out, .heldOut, .pwr, .ldg, .host, .sbk, .hlt]
    : List Part).all fun p => P.contains p) = true) :
    Evolves P s (s.spdmIn f) := by
  refine s.onDoe_evolves _ (fun t => ?_) hp
  split
  · exact hf t
  · exact (Evolves.refl t).step ((State.doeAnswer_evolves _ _).widen rfl) hp

/-! ## Persist -/

theorem State.laneMapWrite_evolves (s : State) (p) (v) :
    Evolves [.regs, .out, .heldOut, .host, .sbk] s (State.laneMapWrite s p v) := by
  unfold State.laneMapWrite
  repeat' first
    | with_reducible apply Evolves.refl
    | with_reducible apply Evolves.step (g := State.seedAccept_evolves _ _ _)
    | with_reducible apply Evolves.part_same
    | ((with_reducible apply Evolves.part_in); rfl)
    | with_reducible exact And.intro rfl (And.intro rfl rfl)
    | (show _ = _; rfl)
    | with_reducible apply Evolves.ite
    | dsimp only
    | split
    | with_reducible apply Evolves.update

theorem State.thermWrite_evolves (s : State) (v) :
    Evolves [.regs, .out, .heldOut, .host, .sbk] s (State.thermWrite s v) := by
  unfold State.thermWrite
  repeat' first
    | with_reducible apply Evolves.refl
    | with_reducible apply Evolves.step (g := State.seedAccept_evolves _ _ _)
    | with_reducible apply Evolves.part_same
    | ((with_reducible apply Evolves.part_in); rfl)
    | with_reducible exact And.intro rfl (And.intro rfl rfl)
    | (show _ = _; rfl)
    | with_reducible apply Evolves.ite
    | dsimp only
    | split
    | with_reducible apply Evolves.update

theorem State.seedWrite_evolves (s : State) (i) (v) :
    Evolves [.regs, .out, .heldOut, .image, .hbm, .host, .sbk, .hlt] s (State.seedWrite s i v) := by
  unfold State.seedWrite
  repeat' first
    | with_reducible apply Evolves.refl
    | with_reducible apply Evolves.step (g := State.seedAccept_evolves _ _ _)
    | with_reducible apply Evolves.step (g := State.mapWrite_evolves _ _ _)
    | with_reducible apply Evolves.step (g := State.capWrite_evolves _ _)
    | with_reducible apply Evolves.step (g := State.laneMapWrite_evolves _ _ _)
    | with_reducible apply Evolves.step (g := State.thermWrite_evolves _ _)
    | with_reducible apply Evolves.part_same
    | ((with_reducible apply Evolves.part_in); rfl)
    | with_reducible exact And.intro rfl (And.intro rfl rfl)
    | (show _ = _; rfl)
    | with_reducible apply Evolves.ite
    | dsimp only
    | split
    | with_reducible apply Evolves.update

theorem State.appendScan_evolves (s : State) :
    Evolves [.regs, .out, .heldOut, .host, .hlt] s (State.appendScan s) := by
  unfold State.appendScan
  repeat' first
    | with_reducible apply Evolves.refl
    | with_reducible apply Evolves.step (g := State.ledgerAppend_evolves _ _ _ _ _)
    | with_reducible apply Evolves.part_same
    | ((with_reducible apply Evolves.part_in); rfl)
    | with_reducible exact And.intro rfl (And.intro rfl rfl)
    | (show _ = _; rfl)
    | with_reducible apply Evolves.ite
    | dsimp only
    | split
    | with_reducible apply Evolves.update

theorem State.hltSnap_evolves (s : State) :
    Evolves [.hlt] s (State.hltSnap s) := by
  unfold State.hltSnap
  repeat' first
    | with_reducible apply Evolves.refl
    | with_reducible apply Evolves.part_same
    | ((with_reducible apply Evolves.part_in); rfl)
    | with_reducible exact And.intro rfl (And.intro rfl rfl)
    | (show _ = _; rfl)
    | with_reducible apply Evolves.ite
    | dsimp only
    | split
    | with_reducible apply Evolves.update

/-! ## Bar0 -/

theorem State.topClr_evolves (s : State) (same) :
    Evolves [.regs] s (State.topClr s same) := by
  unfold State.topClr
  repeat' first
    | with_reducible apply Evolves.refl
    | with_reducible apply Evolves.step (g := State.meClr_evolves _ _)
    | with_reducible apply Evolves.step (g := State.fmtClr_evolves _ _)
    | with_reducible apply Evolves.step (g := State.qntClr_evolves _ _)
    | with_reducible apply Evolves.step (g := State.qntStatClr_evolves _ _)
    | with_reducible apply Evolves.step (g := State.veClr_evolves _ _)
    | with_reducible apply Evolves.step (g := State.updClr_evolves _ _)
    | with_reducible apply Evolves.step (g := State.stlClr_evolves _ _)
    | with_reducible apply Evolves.step (g := State.pltClr_evolves _ _)
    | with_reducible apply Evolves.step (g := State.cloClr_evolves _ _)
    | with_reducible apply Evolves.step (g := State.memClr_evolves _ _)
    | with_reducible apply Evolves.step (g := State.trlClr_evolves _ _)
    | with_reducible apply Evolves.step (g := State.tickClr_evolves _ _)
    | with_reducible apply Evolves.step (g := State.pciClr_evolves _ _)
    | with_reducible apply Evolves.step (g := State.pyuClr_evolves _ _)
    | with_reducible apply Evolves.part_same
    | ((with_reducible apply Evolves.part_in); rfl)
    | with_reducible exact And.intro rfl (And.intro rfl rfl)
    | (show _ = _; rfl)
    | with_reducible apply Evolves.ite
    | dsimp only
    | split
    | with_reducible apply Evolves.update

theorem State.writeFields_evolves (s : State) (r) (k) (v) :
    Evolves [.regs] s (State.writeFields s r k v) := by
  unfold State.writeFields
  repeat' first
    | with_reducible apply Evolves.refl
    | with_reducible apply Evolves.step (g := State.setReg_evolves _ _ _)
    | with_reducible apply Evolves.part_same
    | ((with_reducible apply Evolves.part_in); rfl)
    | with_reducible exact And.intro rfl (And.intro rfl rfl)
    | (show _ = _; rfl)
    | with_reducible apply Evolves.ite
    | dsimp only
    | split
    | with_reducible apply Evolves.update

theorem State.writeLastCtrl_evolves (s : State) (v) :
    Evolves [.regs, .mem, .free, .out, .heldOut, .boot, .image, .tick, .adm, .seg, .me, .ve, .stl, .hbm, .upd, .clo, .trl,
        .pyu, .pwr, .host, .hlt, .bel]
      s (State.writeLastCtrl s v) := by
  unfold State.writeLastCtrl
  repeat' first
    | with_reducible apply Evolves.refl
    | with_reducible apply Evolves.step (g := State.cmdIgnored_evolves _)
    | with_reducible apply Evolves.step (g := State.load_evolves _)
    | with_reducible apply Evolves.step (g := State.start_evolves _)
    | with_reducible apply Evolves.step (g := State.unload_evolves _)
    | with_reducible apply Evolves.step (g := State.abort_evolves _)
    | with_reducible apply Evolves.part_same
    | ((with_reducible apply Evolves.part_in); rfl)
    | with_reducible exact And.intro rfl (And.intro rfl rfl)
    | (show _ = _; rfl)
    | with_reducible apply Evolves.ite
    | dsimp only
    | split
    | with_reducible apply Evolves.update

theorem State.command_evolves {P : List Part} (s : State) (v) (f : State → State)
    (hf : ∀ t, Evolves P t (f t)) : Evolves P s (s.command v f) := by
  unfold State.command
  split
  · exact hf s
  · exact Evolves.refl s

theorem State.writeVeStat_evolves (s : State) (v) :
    Evolves [.regs] s (State.writeVeStat s v) := by
  unfold State.writeVeStat
  repeat' first
    | with_reducible apply Evolves.refl
    | with_reducible apply Evolves.step (g := State.veClr_evolves _ _)
    | with_reducible apply Evolves.step (g := State.veFlagsClr_evolves _ _)
    | with_reducible apply Evolves.part_same
    | ((with_reducible apply Evolves.part_in); rfl)
    | with_reducible exact And.intro rfl (And.intro rfl rfl)
    | (show _ = _; rfl)
    | with_reducible apply Evolves.ite
    | dsimp only
    | split
    | with_reducible apply Evolves.update

theorem State.writePyuCtrl_evolves (s : State) (v) :
    Evolves [.out, .pyu] s (State.writePyuCtrl s v) := by
  unfold State.writePyuCtrl
  repeat' first
    | with_reducible apply Evolves.refl
    | with_reducible apply Evolves.step (g := State.retrain_evolves _)
    | with_reducible apply Evolves.step (g := State.wakeSend_evolves _)
    | with_reducible apply Evolves.part_same
    | ((with_reducible apply Evolves.part_in); rfl)
    | with_reducible exact And.intro rfl (And.intro rfl rfl)
    | (show _ = _; rfl)
    | with_reducible apply Evolves.ite
    | dsimp only
    | split
    | with_reducible apply Evolves.update

theorem State.writeRecon_evolves (s : State) (v) :
    Evolves [.regs, .out, .heldOut, .stl, .upd, .host] s (State.writeRecon s v) := by
  unfold State.writeRecon
  repeat' first
    | with_reducible apply Evolves.refl
    | with_reducible apply Evolves.step (g := State.setBit_evolves _ _ _ _)
    | with_reducible apply Evolves.step (g := State.lateCommit_evolves _)
    | with_reducible apply Evolves.step (g := State.keep_evolves _)
    | with_reducible apply Evolves.step (g := State.adopt_evolves _)
    | with_reducible apply Evolves.part_same
    | ((with_reducible apply Evolves.part_in); rfl)
    | with_reducible exact And.intro rfl (And.intro rfl rfl)
    | (show _ = _; rfl)
    | with_reducible apply Evolves.ite
    | dsimp only
    | split
    | with_reducible apply Evolves.update

theorem State.writeQueueCtrl_evolves (s : State) (v) :
    Evolves [.regs, .out, .heldOut, .host] s (State.writeQueueCtrl s v) := by
  unfold State.writeQueueCtrl
  repeat' first
    | with_reducible apply Evolves.refl
    | with_reducible apply Evolves.step (g := State.queueEnable_evolves _ _)
    | with_reducible apply Evolves.step (g := State.queueDisable_evolves _ _)
    | with_reducible apply Evolves.part_same
    | ((with_reducible apply Evolves.part_in); rfl)
    | with_reducible exact And.intro rfl (And.intro rfl rfl)
    | (show _ = _; rfl)
    | with_reducible apply Evolves.ite
    | dsimp only
    | split
    | with_reducible apply Evolves.update

theorem State.writeDmaCtrl_evolves (s : State) (e) (v) :
    Evolves [.regs, .mem, .free, .out, .heldOut, .hbm, .host, .bel] s (State.writeDmaCtrl s e v) := by
  unfold State.writeDmaCtrl
  repeat' first
    | with_reducible apply Evolves.refl
    | with_reducible apply Evolves.step (g := State.dmaEnable_evolves _ _ _)
    | with_reducible apply Evolves.step (g := State.dmaDisable_evolves _ _ _ _)
    | with_reducible apply Evolves.part_same
    | ((with_reducible apply Evolves.part_in); rfl)
    | with_reducible exact And.intro rfl (And.intro rfl rfl)
    | (show _ = _; rfl)
    | with_reducible apply Evolves.ite
    | dsimp only
    | split
    | with_reducible apply Evolves.update

theorem State.writeTarget_evolves (s : State) (v) :
    Evolves [.regs, .mem, .out, .heldOut, .boot, .image, .tick, .adm, .seg, .me, .ve, .stl, .hbm, .upd, .clo, .trl, .pyu,
        .pwr, .ldg, .host, .sec, .sbk, .hlt, .bel]
      s (State.writeTarget s v) := by
  unfold State.writeTarget
  repeat' first
    | with_reducible apply Evolves.refl
    | with_reducible apply Evolves.step (g := State.requestEntry_evolves _ _)
    | with_reducible apply Evolves.step (g := State.targetA0_evolves _)
    | with_reducible apply Evolves.part_same
    | ((with_reducible apply Evolves.part_in); rfl)
    | with_reducible exact And.intro rfl (And.intro rfl rfl)
    | (show _ = _; rfl)
    | with_reducible apply Evolves.ite
    | dsimp only
    | split
    | with_reducible apply Evolves.update

theorem State.writeBelCtrl_evolves (s : State) (v) :
    Evolves [.regs, .bel] s (State.writeBelCtrl s v) := by
  unfold State.writeBelCtrl
  repeat' first
    | with_reducible apply Evolves.refl
    | with_reducible apply Evolves.step (g := State.belSnap_evolves _)
    | with_reducible apply Evolves.step (g := State.belSnapEdge_evolves _)
    | with_reducible apply Evolves.part_same
    | ((with_reducible apply Evolves.part_in); rfl)
    | with_reducible exact And.intro rfl (And.intro rfl rfl)
    | (show _ = _; rfl)
    | with_reducible apply Evolves.ite
    | dsimp only
    | split
    | with_reducible apply Evolves.update

theorem State.writeFrozen_evolves (s : State) (v) :
    Evolves [.regs] s (State.writeFrozen s v) := by
  unfold State.writeFrozen
  repeat' first
    | with_reducible apply Evolves.refl
    | with_reducible apply Evolves.step (g := State.setReg_evolves _ _ _)
    | with_reducible apply Evolves.step (P := [.regs]) (g := State.command_evolves _ _ _ ?_)
    | (intro _)
    | with_reducible apply Evolves.part_same
    | ((with_reducible apply Evolves.part_in); rfl)
    | with_reducible exact And.intro rfl (And.intro rfl rfl)
    | (show _ = _; rfl)
    | with_reducible apply Evolves.ite
    | dsimp only
    | split
    | with_reducible apply Evolves.update

theorem State.writeAccessErr_evolves (s : State) (v) :
    Evolves [.regs] s (State.writeAccessErr s v) := by
  unfold State.writeAccessErr
  repeat' first
    | with_reducible apply Evolves.refl
    | with_reducible apply Evolves.step (g := State.setReg_evolves _ _ _)
    | with_reducible apply Evolves.part_same
    | ((with_reducible apply Evolves.part_in); rfl)
    | with_reducible exact And.intro rfl (And.intro rfl rfl)
    | (show _ = _; rfl)
    | with_reducible apply Evolves.ite
    | dsimp only
    | split
    | with_reducible apply Evolves.update

theorem State.writeSeedReg_evolves (s : State) (i) (v) :
    Evolves [.regs, .out, .heldOut, .image, .hbm, .host, .sbk, .hlt] s (State.writeSeedReg s i v) := by
  unfold State.writeSeedReg
  repeat' first
    | with_reducible apply Evolves.refl
    | with_reducible apply Evolves.step (g := State.seedWrite_evolves _ _ _)
    | with_reducible apply Evolves.part_same
    | ((with_reducible apply Evolves.part_in); rfl)
    | with_reducible exact And.intro rfl (And.intro rfl rfl)
    | (show _ = _; rfl)
    | with_reducible apply Evolves.ite
    | dsimp only
    | split
    | with_reducible apply Evolves.update

theorem State.actLow_evolves (s : State) (off) (v) (plain : State) (h : Evolves [.regs, .mem, .free, .out, .heldOut, .boot,
    .image, .tick, .adm, .seg, .me, .ve, .stl, .hbm, .upd, .clo, .trl, .pyu, .pwr, .ldg, .host, .sec, .sbk, .hlt,
    .bel] s plain) :
    Evolves [.regs, .mem, .free, .out, .heldOut, .boot, .image, .tick, .adm, .seg, .me, .ve, .stl, .hbm, .upd, .clo, .trl,
        .pyu, .pwr, .ldg, .host, .sec, .sbk, .hlt, .bel]
      s (State.actLow s off v plain) := by
  unfold State.actLow
  repeat' first
    | with_reducible exact h
    | with_reducible apply Evolves.refl
    | with_reducible apply Evolves.step (g := State.requestTest_evolves _ _)
    | with_reducible apply Evolves.step (g := State.meClr_evolves _ _)
    | with_reducible apply Evolves.step (g := State.fmtClr_evolves _ _)
    | with_reducible apply Evolves.step (g := State.qntClr_evolves _ _)
    | with_reducible apply Evolves.step (g := State.qntStatClr_evolves _ _)
    | with_reducible apply Evolves.step (g := State.trlClr_evolves _ _)
    | with_reducible apply Evolves.step (g := State.tickClr_evolves _ _)
    | with_reducible apply Evolves.step (g := State.doorbell_evolves _ _ _)
    | with_reducible apply Evolves.step (g := State.donePop_evolves _)
    | with_reducible apply Evolves.step (g := State.topClr_evolves _ _)
    | with_reducible apply Evolves.step (g := State.writeLastCtrl_evolves _ _)
    | with_reducible apply Evolves.step (P := [.regs, .mem, .free, .out, .heldOut, .boot, .image, .tick, .adm, .seg, .me, .ve, .stl, .hbm, .upd, .clo, .trl, .pyu, .pwr, .ldg, .host, .sec, .sbk, .hlt, .bel]) (g := State.command_evolves _ _ _ ?_)
    | with_reducible apply Evolves.step (g := State.writeVeStat_evolves _ _)
    | with_reducible apply Evolves.step (g := State.writeAccessErr_evolves _ _)
    | (intro _)
    | with_reducible apply Evolves.part_same
    | ((with_reducible apply Evolves.part_in); rfl)
    | with_reducible exact And.intro rfl (And.intro rfl rfl)
    | (show _ = _; rfl)
    | with_reducible apply Evolves.ite
    | dsimp only
    | split
    | with_reducible apply Evolves.update

theorem State.actMid_evolves (s : State) (off) (i) (v) (plain : State) (h : Evolves [.regs, .mem, .free, .out, .heldOut,
    .boot, .image, .tick, .adm, .seg, .me, .ve, .stl, .hbm, .upd, .clo, .trl, .pyu, .pwr, .ldg, .host, .sec, .sbk, .hlt,
    .bel] s plain) :
    Evolves [.regs, .mem, .free, .out, .heldOut, .boot, .image, .tick, .adm, .seg, .me, .ve, .stl, .hbm, .upd, .clo, .trl,
        .pyu, .pwr, .ldg, .host, .sec, .sbk, .hlt, .bel]
      s (State.actMid s off i v plain) := by
  unfold State.actMid
  repeat' first
    | with_reducible exact h
    | with_reducible apply Evolves.refl
    | with_reducible apply Evolves.step (g := State.updClr_evolves _ _)
    | with_reducible apply Evolves.step (g := State.stlClr_evolves _ _)
    | with_reducible apply Evolves.step (g := State.pltClr_evolves _ _)
    | with_reducible apply Evolves.step (g := State.cloClr_evolves _ _)
    | with_reducible apply Evolves.step (g := State.mapWrite_evolves _ _ _)
    | with_reducible apply Evolves.step (g := State.takeCtrl_evolves _ _ _)
    | with_reducible apply Evolves.step (g := State.takeScan_evolves _ _)
    | with_reducible apply Evolves.step (g := State.memTestStart_evolves _ _)
    | with_reducible apply Evolves.step (g := State.memScanStart_evolves _ _)
    | with_reducible apply Evolves.step (g := State.memClr_evolves _ _)
    | with_reducible apply Evolves.step (g := State.laneMapWrite_evolves _ _ _)
    | with_reducible apply Evolves.step (g := State.seedWrite_evolves _ _ _)
    | with_reducible apply Evolves.step (g := State.pyuClr_evolves _ _)
    | with_reducible apply Evolves.step (P := [.regs, .mem, .free, .out, .heldOut, .boot, .image, .tick, .adm, .seg, .me, .ve, .stl, .hbm, .upd, .clo, .trl, .pyu, .pwr, .ldg, .host, .sec, .sbk, .hlt, .bel]) (g := State.command_evolves _ _ _ ?_)
    | with_reducible apply Evolves.step (g := State.writePyuCtrl_evolves _ _)
    | with_reducible apply Evolves.step (g := State.writeRecon_evolves _ _)
    | (intro _)
    | with_reducible apply Evolves.part_same
    | ((with_reducible apply Evolves.part_in); rfl)
    | with_reducible exact And.intro rfl (And.intro rfl rfl)
    | (show _ = _; rfl)
    | with_reducible apply Evolves.ite
    | dsimp only
    | split
    | with_reducible apply Evolves.update

theorem State.actPci_evolves (s : State) (off) (i) (v) (plain : State) (h : Evolves [.regs, .mem, .free, .out, .heldOut,
    .boot, .image, .tick, .adm, .seg, .me, .ve, .stl, .hbm, .upd, .clo, .trl, .pyu, .pwr, .ldg, .host, .sec, .sbk, .hlt,
    .bel] s plain) :
    Evolves [.regs, .mem, .free, .out, .heldOut, .boot, .image, .tick, .adm, .seg, .me, .ve, .stl, .hbm, .upd, .clo, .trl,
        .pyu, .pwr, .ldg, .host, .sec, .sbk, .hlt, .bel]
      s (State.actPci s off i v plain) := by
  unfold State.actPci
  repeat' first
    | with_reducible exact h
    | with_reducible apply Evolves.refl
    | with_reducible apply Evolves.step (g := State.dmaTail_evolves _ _ _)
    | with_reducible apply Evolves.step (g := State.winBase_evolves _ _)
    | with_reducible apply Evolves.step (g := State.tqTail_evolves _ _)
    | with_reducible apply Evolves.step (g := State.aqHead_evolves _ _)
    | with_reducible apply Evolves.step (g := State.cqHead_evolves _ _)
    | with_reducible apply Evolves.step (g := State.pciClr_evolves _ _)
    | with_reducible apply Evolves.step (g := State.capWrite_evolves _ _)
    | with_reducible apply Evolves.step (g := State.ackStale_evolves _)
    | with_reducible apply Evolves.step (P := [.regs, .mem, .free, .out, .heldOut, .boot, .image, .tick, .adm, .seg, .me, .ve, .stl, .hbm, .upd, .clo, .trl, .pyu, .pwr, .ldg, .host, .sec, .sbk, .hlt, .bel]) (g := State.command_evolves _ _ _ ?_)
    | with_reducible apply Evolves.step (g := State.writeQueueCtrl_evolves _ _)
    | with_reducible apply Evolves.step (g := State.writeDmaCtrl_evolves _ _ _)
    | (intro _)
    | with_reducible apply Evolves.part_same
    | ((with_reducible apply Evolves.part_in); rfl)
    | with_reducible exact And.intro rfl (And.intro rfl rfl)
    | (show _ = _; rfl)
    | with_reducible apply Evolves.ite
    | dsimp only
    | split
    | with_reducible apply Evolves.update

theorem State.actHigh_evolves (s : State) (off) (i) (v) (plain : State) (h : Evolves [.regs, .mem, .free, .out, .heldOut,
    .boot, .image, .tick, .adm, .seg, .me, .ve, .stl, .hbm, .upd, .clo, .trl, .pyu, .pwr, .ldg, .host, .sec, .sbk, .hlt,
    .bel] s plain) :
    Evolves [.regs, .mem, .free, .out, .heldOut, .boot, .image, .tick, .adm, .seg, .me, .ve, .stl, .hbm, .upd, .clo, .trl,
        .pyu, .pwr, .ldg, .host, .sec, .sbk, .hlt, .bel]
      s (State.actHigh s off i v plain) := by
  unfold State.actHigh
  repeat' first
    | with_reducible exact h
    | with_reducible apply Evolves.refl
    | with_reducible apply Evolves.step (g := State.trace_evolves _ _ _ _ _)
    | with_reducible apply Evolves.step (g := State.ringCtrl_evolves _ _ _)
    | with_reducible apply Evolves.step (g := State.ringHeadWrite_evolves _ _ _)
    | with_reducible apply Evolves.step (g := State.mailbox_evolves _ _ _)
    | with_reducible apply Evolves.step (g := State.enrGo_evolves _)
    | with_reducible apply Evolves.step (g := State.hltSnap_evolves _)
    | with_reducible apply Evolves.step (P := [.regs, .mem, .free, .out, .heldOut, .boot, .image, .tick, .adm, .seg, .me, .ve, .stl, .hbm, .upd, .clo, .trl, .pyu, .pwr, .ldg, .host, .sec, .sbk, .hlt, .bel]) (g := State.command_evolves _ _ _ ?_)
    | with_reducible apply Evolves.step (g := State.writeTarget_evolves _ _)
    | with_reducible apply Evolves.step (g := State.writeBelCtrl_evolves _ _)
    | with_reducible apply Evolves.step (g := State.writeFrozen_evolves _ _)
    | with_reducible apply Evolves.step (g := State.writeSeedReg_evolves _ _ _)
    | (intro _)
    | with_reducible apply Evolves.part_same
    | ((with_reducible apply Evolves.part_in); rfl)
    | with_reducible exact And.intro rfl (And.intro rfl rfl)
    | (show _ = _; rfl)
    | with_reducible apply Evolves.ite
    | dsimp only
    | split
    | with_reducible apply Evolves.update

theorem State.acts_evolves (s : State) (off) (i) (v) (plain : State) (h : Evolves [.regs, .mem, .free, .out, .heldOut,
    .boot, .image, .tick, .adm, .seg, .me, .ve, .stl, .hbm, .upd, .clo, .trl, .pyu, .pwr, .ldg, .host, .sec, .sbk, .hlt,
    .bel] s plain) :
    Evolves [.regs, .mem, .free, .out, .heldOut, .boot, .image, .tick, .adm, .seg, .me, .ve, .stl, .hbm, .upd, .clo, .trl,
        .pyu, .pwr, .ldg, .host, .sec, .sbk, .hlt, .bel]
      s (State.acts s off i v plain) := by
  unfold State.acts
  repeat' first
    | with_reducible exact h
    | with_reducible apply Evolves.refl
    | with_reducible apply State.actLow_evolves
    | with_reducible apply State.actMid_evolves
    | with_reducible apply State.actPci_evolves
    | with_reducible apply State.actHigh_evolves
    | with_reducible apply Evolves.part_same
    | ((with_reducible apply Evolves.part_in); rfl)
    | with_reducible exact And.intro rfl (And.intro rfl rfl)
    | (show _ = _; rfl)
    | with_reducible apply Evolves.ite
    | dsimp only
    | split
    | with_reducible apply Evolves.update

theorem State.regWrite_evolves (s : State) (r) (base) (v) :
    Evolves [.regs, .mem, .free, .out, .heldOut, .boot, .image, .tick, .adm, .seg, .me, .ve, .stl, .hbm, .upd, .clo, .trl,
        .pyu, .pwr, .ldg, .host, .sec, .sbk, .hlt, .bel]
      s (State.regWrite s r base v) := by
  unfold State.regWrite
  repeat' first
    | with_reducible apply Evolves.refl
    | with_reducible apply Evolves.step (g := State.writeFields_evolves _ _ _ _)
    | with_reducible apply State.acts_evolves
    | with_reducible apply Evolves.part_same
    | ((with_reducible apply Evolves.part_in); rfl)
    | with_reducible exact And.intro rfl (And.intro rfl rfl)
    | (show _ = _; rfl)
    | with_reducible apply Evolves.ite
    | dsimp only
    | split
    | with_reducible apply Evolves.update

theorem State.badAccess_evolves (s : State) (offset) (kind) :
    Evolves [.regs] s (State.badAccess s offset kind) := by
  unfold State.badAccess
  repeat' first
    | with_reducible apply Evolves.refl
    | with_reducible apply Evolves.step (g := State.setRegN_evolves _ _ _)
    | with_reducible apply Evolves.part_same
    | ((with_reducible apply Evolves.part_in); rfl)
    | with_reducible exact And.intro rfl (And.intro rfl rfl)
    | (show _ = _; rfl)
    | with_reducible apply Evolves.ite
    | dsimp only
    | split
    | with_reducible apply Evolves.update

theorem State.writeMask_evolves (s : State) (v) (m) :
    Evolves [.out, .heldOut, .host] s (State.writeMask s v m) := by
  unfold State.writeMask
  repeat' first
    | with_reducible apply Evolves.refl
    | with_reducible apply Evolves.step (g := State.mask_evolves _ _)
    | with_reducible apply Evolves.step (g := State.unmask_evolves _ _)
    | with_reducible apply Evolves.part_same
    | ((with_reducible apply Evolves.part_in); rfl)
    | with_reducible exact And.intro rfl (And.intro rfl rfl)
    | (show _ = _; rfl)
    | with_reducible apply Evolves.ite
    | dsimp only
    | split
    | with_reducible apply Evolves.update

theorem State.writeMsix_evolves (s : State) (o) (v) :
    Evolves [.regs, .out, .heldOut, .host] s (State.writeMsix s o v) := by
  unfold State.writeMsix
  repeat' first
    | with_reducible apply Evolves.refl
    | with_reducible apply Evolves.step (g := State.setRegN_evolves _ _ _)
    | with_reducible apply Evolves.step (g := State.writeMask_evolves _ _ _)
    | with_reducible apply Evolves.part_same
    | ((with_reducible apply Evolves.part_in); rfl)
    | with_reducible exact And.intro rfl (And.intro rfl rfl)
    | (show _ = _; rfl)
    | with_reducible apply Evolves.ite
    | dsimp only
    | split
    | with_reducible apply Evolves.update

theorem State.write4_evolves (s : State) (o) (v) :
    Evolves [.regs, .mem, .free, .out, .heldOut, .boot, .image, .tick, .adm, .seg, .me, .ve, .stl, .hbm, .upd, .clo, .trl,
        .pyu, .pwr, .ldg, .host, .sec, .sbk, .hlt, .bel]
      s (State.write4 s o v) := by
  unfold State.write4
  repeat' first
    | with_reducible apply Evolves.refl
    | with_reducible apply Evolves.step (g := State.regWrite_evolves _ _ _ _)
    | with_reducible apply Evolves.step (g := State.badAccess_evolves _ _ _)
    | with_reducible apply Evolves.step (g := State.writeMsix_evolves _ _ _)
    | with_reducible apply Evolves.part_same
    | ((with_reducible apply Evolves.part_in); rfl)
    | with_reducible exact And.intro rfl (And.intro rfl rfl)
    | (show _ = _; rfl)
    | with_reducible apply Evolves.ite
    | dsimp only
    | split
    | with_reducible apply Evolves.update

theorem State.write8_evolves (s : State) (o) (v) :
    Evolves [.regs, .mem, .free, .out, .heldOut, .boot, .image, .tick, .adm, .seg, .me, .ve, .stl, .hbm, .upd, .clo, .trl,
        .pyu, .pwr, .ldg, .host, .sec, .sbk, .hlt, .bel]
      s (State.write8 s o v) := by
  unfold State.write8
  repeat' first
    | with_reducible apply Evolves.refl
    | with_reducible apply Evolves.step (g := State.regWrite_evolves _ _ _ _)
    | with_reducible apply Evolves.step (g := State.write4_evolves _ _ _)
    | with_reducible apply Evolves.part_same
    | ((with_reducible apply Evolves.part_in); rfl)
    | with_reducible exact And.intro rfl (And.intro rfl rfl)
    | (show _ = _; rfl)
    | with_reducible apply Evolves.ite
    | dsimp only
    | split
    | with_reducible apply Evolves.update

theorem State.writeSpan_evolves (s : State) (x1) (x2) (x3) :
    Evolves [.regs, .mem, .free, .out, .heldOut, .boot, .image, .tick, .adm, .seg, .me, .ve, .stl, .hbm, .upd, .clo, .trl,
        .pyu, .pwr, .ldg, .host, .sec, .sbk, .hlt, .bel]
      s (State.writeSpan s x1 x2 x3) := by
  fun_induction State.writeSpan s x1 x2 x3
  all_goals repeat' first
    | with_reducible apply Evolves.refl
    | with_reducible assumption
    | with_reducible apply Evolves.step (g := State.regWrite_evolves _ _ _ _)
    | with_reducible apply Evolves.step (g := State.write4_evolves _ _ _)
    | with_reducible apply Evolves.step (g := by assumption)
    | with_reducible apply Evolves.part_same
    | ((with_reducible apply Evolves.part_in); rfl)
    | with_reducible exact And.intro rfl (And.intro rfl rfl)
    | (show _ = _; rfl)
    | with_reducible apply Evolves.ite
    | dsimp only
    | split
    | with_reducible apply Evolves.update

theorem State.bar0Write_evolves (s : State) (o) (size) (v) :
    Evolves [.regs, .mem, .free, .out, .heldOut, .boot, .image, .tick, .adm, .seg, .me, .ve, .stl, .hbm, .upd, .clo, .trl,
        .pyu, .pwr, .ldg, .host, .sec, .sbk, .hlt, .bel]
      s (State.bar0Write s o size v) := by
  unfold State.bar0Write
  repeat' first
    | with_reducible apply Evolves.refl
    | with_reducible apply Evolves.step (g := State.badAccess_evolves _ _ _)
    | with_reducible apply Evolves.step (g := State.write4_evolves _ _ _)
    | with_reducible apply Evolves.step (g := State.write8_evolves _ _ _)
    | with_reducible apply Evolves.step (g := State.writeSpan_evolves _ _ _ _)
    | with_reducible apply Evolves.part_same
    | ((with_reducible apply Evolves.part_in); rfl)
    | with_reducible exact And.intro rfl (And.intro rfl rfl)
    | (show _ = _; rfl)
    | with_reducible apply Evolves.ite
    | dsimp only
    | split
    | with_reducible apply Evolves.update

theorem State.bar0Read_evolves (s : State) (o) (size) :
    Evolves [.regs, .out] s (State.bar0Read s o size) := by
  unfold State.bar0Read
  repeat' first
    | with_reducible apply Evolves.refl
    | with_reducible apply Evolves.step (g := State.send_evolves _ _)
    | with_reducible apply Evolves.step (g := State.badAccess_evolves _ _ _)
    | with_reducible apply Evolves.part_same
    | ((with_reducible apply Evolves.part_in); rfl)
    | with_reducible exact And.intro rfl (And.intro rfl rfl)
    | (show _ = _; rfl)
    | with_reducible apply Evolves.ite
    | dsimp only
    | split
    | with_reducible apply Evolves.update

theorem State.onBar0_evolves {P : List Part} (s : State) (o) (f : State → State)
    (hf : ∀ t, Evolves P t (f t)) (hp : (([.regs, .mem, .out, .heldOut, .boot, .image, .tick, .adm, .seg, .me, .ve,
    .stl, .hbm, .upd, .clo, .trl, .pyu, .pwr, .ldg, .host, .sec, .sbk, .hlt, .bel]
    : List Part).all fun p => P.contains p) = true) :
    Evolves P s (s.onBar0 o f) := by
  unfold State.onBar0
  split
  · exact s.onLodge_evolves f hf hp
  · exact s.onHost_evolves f hf hp

theorem State.onBar0Read_evolves {P : List Part} (s : State) (o) (f : State → State)
    (hf : ∀ t, Evolves P t (f t)) (hp : (([.regs, .mem, .out, .heldOut, .boot, .image, .tick, .adm, .seg, .me, .ve,
    .stl, .hbm, .upd, .clo, .trl, .pyu, .pwr, .ldg, .host, .sec, .sbk, .hlt, .bel]
    : List Part).all fun p => P.contains p) = true) :
    Evolves P s (s.onBar0Read o f) := by
  unfold State.onBar0Read
  split
  · exact s.onLodge_evolves f hf hp
  · refine Evolves.step ?_ (State.onHost_evolves _ f hf hp) (Evolves.covers_self P)
    split
    · exact (Evolves.refl s).step ((s.send_evolves _).widen rfl) hp
    · exact Evolves.refl s

theorem State.badWrite_evolves (s : State) (o) (size) :
    Evolves [.regs] s (State.badWrite s o size) := by
  unfold State.badWrite
  repeat' first
    | with_reducible apply Evolves.refl
    | with_reducible apply Evolves.step (g := State.badAccess_evolves _ _ _)
    | with_reducible apply Evolves.part_same
    | ((with_reducible apply Evolves.part_in); rfl)
    | with_reducible exact And.intro rfl (And.intro rfl rfl)
    | (show _ = _; rfl)
    | with_reducible apply Evolves.ite
    | dsimp only
    | split
    | with_reducible apply Evolves.update

/-! ## Step -/

end Sys2Proof.Machine
end

