-- ==== Sys2Proof/Laws/State.lean ====
section
/-! SUPPORT. What each small update of the state leaves alone, and what a register reads after an update of a register. -/

namespace Sys2Proof.Machine

/-! ## Registers -/

theorem State.reg_setReg_ne (s : State) (o k : Nat) (v : DWord) (h : k ≠ o) : (s.setReg o v).reg k = s.reg k :=
  storeGet_storeSet_ne 0 s.regs o k v h

theorem State.reg_setReg (s : State) (o : Nat) (v : DWord) (h : storeWf 0 s.regs = true) : (s.setReg o v).reg o = v :=
  storeGet_storeSet_same 0 s.regs o v h

/-- A value other than 0 reads back whatever the register file holds. -/
theorem State.reg_setReg_new (s : State) (o : Nat) (v : DWord) (h : v ≠ 0) : (s.setReg o v).reg o = v :=
  storeGet_storeSet_new 0 s.regs o v h

theorem State.regs_setReg (s : State) (o : Nat) (v : DWord) (h : storeWf 0 s.regs = true) :
    storeWf 0 (s.setReg o v).regs = true := storeWf_storeSet 0 s.regs o v h

theorem State.reg_setRegN_ne (s : State) (o k v : Nat) (h : k ≠ o) : (s.setRegN o v).reg k = s.reg k :=
  s.reg_setReg_ne o k _ h

theorem State.regN_setRegN (s : State) (o v : Nat) (h : storeWf 0 s.regs = true) (hv : v < 2 ^ 64) :
    (s.setRegN o v).regN o = v := by
  unfold State.regN State.setRegN
  rw [s.reg_setReg o _ h, BitVec.toNat_ofNat, Nat.mod_eq_of_lt hv]

theorem State.reg_setFld_ne (s : State) (o hi lo x k : Nat) (h : k ≠ o) : (s.setFld o hi lo x).reg k = s.reg k :=
  s.reg_setRegN_ne o k _ h

theorem State.reg_setBit_ne (s : State) (o i : Nat) (b : Bool) (k : Nat) (h : k ≠ o) : (s.setBit o i b).reg k = s.reg k :=
  s.reg_setFld_ne o i i _ k h

theorem State.reg_orReg_ne (s : State) (o : Nat) (m : DWord) (k : Nat) (h : k ≠ o) : (s.orReg o m).reg k = s.reg k :=
  s.reg_setReg_ne o k _ h

theorem State.reg_count_ne (s : State) (o w n k : Nat) (h : k ≠ o) : (s.count o w n).reg k = s.reg k :=
  s.reg_setRegN_ne o k _ h

theorem State.reg_maxReg_ne (s : State) (o v k : Nat) (h : k ≠ o) : (s.maxReg o v).reg k = s.reg k :=
  s.reg_setRegN_ne o k _ h

/-- A count register advances and saturates at its width. -/
theorem State.regN_count (s : State) (o w n : Nat) (h : storeWf 0 s.regs = true) (hw : w ≤ 64) :
    (s.count o w n).regN o = min (s.regN o + n) (2 ^ w - 1) := by
  refine s.regN_setRegN o _ h ?_
  have : 2 ^ w ≤ 2 ^ 64 := Nat.pow_le_pow_right (by decide) hw
  have : 0 < 2 ^ w := Nat.two_pow_pos w
  omega

/-! ## Messages and events touch no register but the event register -/

@[simp] theorem State.regs_toHost (s : State) (x : Output) : (s.toHost x).regs = s.regs := by
  unfold State.toHost
  split <;> rfl

@[simp] theorem State.regs_fire (s : State) (v : Nat) : (s.fire v).regs = s.regs := by
  unfold State.fire
  split
  · rfl
  · rw [State.regs_toHost]; rfl

@[simp] theorem State.regs_signal (s : State) (v : Nat) : (s.signal v).regs = s.regs := by
  unfold State.signal
  split
  · rfl
  · exact s.regs_fire v

theorem State.reg_event_ne (s : State) (o i k : Nat) (h : k ≠ o) : (s.event o i).reg k = s.reg k := by
  unfold State.event
  split
  · rfl
  · split
    · exact (congrArg (fun r => storeGet 0 r k) (State.regs_signal _ _)).trans (s.reg_setBit_ne o i true k h)
    · exact s.reg_setBit_ne o i true k h

/-- An event that is already pending changes nothing. -/
theorem State.event_pending (s : State) (o i : Nat) (h : s.bit o i = true) : s.event o i = s := by
  unfold State.event
  rw [if_pos h]

/-- The bit of a register written with a field of one bit. -/
theorem State.bit_setBit (s : State) (o i : Nat) (b : Bool) (h : storeWf 0 s.regs = true) (hi : i < 64) :
    (s.setBit o i b).bit o i = b := by
  unfold State.bit State.setBit State.setFld State.setRegN
  rw [s.reg_setReg o _ h, BitVec.getLsbD_ofNat]
  have h1 : putBits (s.regN o) i (i + 1 - i) b.toNat / 2 ^ i % 2 = b.toNat := by
    unfold putBits
    rw [show i + 1 - i = 1 by omega]
    have hlt : s.regN o % 2 ^ i < 2 ^ i := Nat.mod_lt _ (Nat.two_pow_pos i)
    have e : s.regN o % 2 ^ i + 2 ^ i * (b.toNat % 2 ^ 1) + 2 ^ (i + 1) * (s.regN o / 2 ^ (i + 1)) =
        s.regN o % 2 ^ i + 2 ^ i * (b.toNat % 2 + 2 * (s.regN o / 2 ^ (i + 1))) := by
      rw [Nat.pow_succ]; ring
    rw [e, Nat.add_mul_div_left _ _ (Nat.two_pow_pos i), Nat.div_eq_of_lt hlt]
    cases b <;> simp
  cases b <;> simp_all [Nat.testBit, Nat.shiftRight_eq_div_pow]

theorem State.bit_of_regs (s t : State) (o i : Nat) (h : t.regs = s.regs) : t.bit o i = s.bit o i := by
  unfold State.bit State.reg
  rw [h]

/-- After an event its bit is set. -/
theorem State.bit_event (s : State) (o i : Nat) (h : storeWf 0 s.regs = true) (hi : i < 64) :
    (s.event o i).bit o i = true := by
  unfold State.event
  split
  · assumption
  · split
    · rw [State.bit_of_regs _ _ o i (State.regs_signal _ _)]
      exact s.bit_setBit o i true h hi
    · exact s.bit_setBit o i true h hi

/-! ## The registers that a row of operations may change -/

theorem State.sameRegs_refl (s : State) (L : List Nat) : s.sameRegs s L := fun _ _ => rfl

theorem State.sameRegs_of_regs (s t : State) (L : List Nat) (h : t.regs = s.regs) : s.sameRegs t L := fun o _ => by
  unfold State.reg
  rw [h]

theorem State.sameRegs_trans {s t u : State} {L M : List Nat} (h : s.sameRegs t L) (g : t.sameRegs u M)
    (hm : ∀ o, o ∈ M → o ∈ L) : s.sameRegs u L := fun o ho => (g o fun hM => ho (hm o hM)).trans (h o ho)

theorem State.sameRegs_setReg (s : State) (o : Nat) (v : DWord) : s.sameRegs (s.setReg o v) [o] :=
  fun k hk => s.reg_setReg_ne o k v (by simpa using hk)

theorem State.sameRegs_event (s : State) (o i : Nat) : s.sameRegs (s.event o i) [o] :=
  fun k hk => s.reg_event_ne o i k (by simpa using hk)

/-! ## Lists of registers -/

theorem State.reg_zeroRegs_ne (s : State) (l : List Nat) (k : Nat) (h : k ∉ l) : (s.zeroRegs l).reg k = s.reg k := by
  induction l generalizing s with
  | nil => rfl
  | cons o l ih =>
    simp only [List.mem_cons, not_or] at h
    exact (ih (s.setReg o 0) h.2).trans (s.reg_setReg_ne o k 0 h.1)

theorem State.regs_zeroRegs (s : State) (l : List Nat) (h : storeWf 0 s.regs = true) :
    storeWf 0 (s.zeroRegs l).regs = true := by
  induction l generalizing s with
  | nil => exact h
  | cons o l ih => exact ih _ (s.regs_setReg o 0 h)

theorem State.reg_zeroRegs (s : State) (l : List Nat) (k : Nat) (hk : k ∈ l) (h : storeWf 0 s.regs = true) :
    (s.zeroRegs l).reg k = 0 := by
  induction l generalizing s with
  | nil => cases hk
  | cons o l ih =>
    by_cases hl : k ∈ l
    · exact ih _ hl (s.regs_setReg o 0 h)
    · have e : k = o := by simpa [hl] using hk
      subst e
      exact (State.reg_zeroRegs_ne _ l k hl).trans (s.reg_setReg k 0 h)

theorem State.reg_sameCycle_ne (s : State) (l : List (Nat × Nat)) (k : Nat) (h : ∀ p, p ∈ l → p.1 ≠ k) :
    (s.sameCycle l).reg k = s.reg k := by
  induction l generalizing s with
  | nil => rfl
  | cons p l ih =>
    obtain ⟨o, n⟩ := p
    exact (ih (s.setRegN o n) fun p hp => h p (List.mem_cons_of_mem _ hp)).trans
      (s.reg_setRegN_ne o k n fun e => h (o, n) (List.mem_cons_self ..) e.symm)

theorem State.reg_zeroBanks (s : State) (offs : List Nat) (k : Nat) :
    (s.zeroBanks offs).reg k = if offs.contains (k % 67108864) then 0 else s.reg k := by
  unfold State.reg State.zeroBanks
  rw [storeGet_storeDrop]

/-! ## What each update leaves alone -/

/-! ### setReg -/

@[simp] theorem State.setReg_pending (s : State) (a : Nat) (b : DWord) : (s.setReg a b).pending = s.pending := rfl
@[simp] theorem State.setReg_mem (s : State) (a : Nat) (b : DWord) : (s.setReg a b).mem = s.mem := rfl
@[simp] theorem State.setReg_free (s : State) (a : Nat) (b : DWord) : (s.setReg a b).free = s.free := rfl
@[simp] theorem State.setReg_out (s : State) (a : Nat) (b : DWord) : (s.setReg a b).out = s.out := rfl
@[simp] theorem State.setReg_heldOut (s : State) (a : Nat) (b : DWord) : (s.setReg a b).heldOut = s.heldOut := rfl
@[simp] theorem State.setReg_boot (s : State) (a : Nat) (b : DWord) : (s.setReg a b).boot = s.boot := rfl
@[simp] theorem State.setReg_image (s : State) (a : Nat) (b : DWord) : (s.setReg a b).image = s.image := rfl
@[simp] theorem State.setReg_tick (s : State) (a : Nat) (b : DWord) : (s.setReg a b).tick = s.tick := rfl
@[simp] theorem State.setReg_adm (s : State) (a : Nat) (b : DWord) : (s.setReg a b).adm = s.adm := rfl
@[simp] theorem State.setReg_seg (s : State) (a : Nat) (b : DWord) : (s.setReg a b).seg = s.seg := rfl
@[simp] theorem State.setReg_me (s : State) (a : Nat) (b : DWord) : (s.setReg a b).me = s.me := rfl
@[simp] theorem State.setReg_ve (s : State) (a : Nat) (b : DWord) : (s.setReg a b).ve = s.ve := rfl
@[simp] theorem State.setReg_stl (s : State) (a : Nat) (b : DWord) : (s.setReg a b).stl = s.stl := rfl
@[simp] theorem State.setReg_hbm (s : State) (a : Nat) (b : DWord) : (s.setReg a b).hbm = s.hbm := rfl
@[simp] theorem State.setReg_upd (s : State) (a : Nat) (b : DWord) : (s.setReg a b).upd = s.upd := rfl
@[simp] theorem State.setReg_clo (s : State) (a : Nat) (b : DWord) : (s.setReg a b).clo = s.clo := rfl
@[simp] theorem State.setReg_trl (s : State) (a : Nat) (b : DWord) : (s.setReg a b).trl = s.trl := rfl
@[simp] theorem State.setReg_pyu (s : State) (a : Nat) (b : DWord) : (s.setReg a b).pyu = s.pyu := rfl
@[simp] theorem State.setReg_pwr (s : State) (a : Nat) (b : DWord) : (s.setReg a b).pwr = s.pwr := rfl
@[simp] theorem State.setReg_ldg (s : State) (a : Nat) (b : DWord) : (s.setReg a b).ldg = s.ldg := rfl
@[simp] theorem State.setReg_host (s : State) (a : Nat) (b : DWord) : (s.setReg a b).host = s.host := rfl
@[simp] theorem State.setReg_sec (s : State) (a : Nat) (b : DWord) : (s.setReg a b).sec = s.sec := rfl
@[simp] theorem State.setReg_sbk (s : State) (a : Nat) (b : DWord) : (s.setReg a b).sbk = s.sbk := rfl
@[simp] theorem State.setReg_hlt (s : State) (a : Nat) (b : DWord) : (s.setReg a b).hlt = s.hlt := rfl
@[simp] theorem State.setReg_bel (s : State) (a : Nat) (b : DWord) : (s.setReg a b).bel = s.bel := rfl

/-! ### setRegN -/

@[simp] theorem State.setRegN_pending (s : State) (a : Nat) (b : Nat) : (s.setRegN a b).pending = s.pending := rfl
@[simp] theorem State.setRegN_mem (s : State) (a : Nat) (b : Nat) : (s.setRegN a b).mem = s.mem := rfl
@[simp] theorem State.setRegN_free (s : State) (a : Nat) (b : Nat) : (s.setRegN a b).free = s.free := rfl
@[simp] theorem State.setRegN_out (s : State) (a : Nat) (b : Nat) : (s.setRegN a b).out = s.out := rfl
@[simp] theorem State.setRegN_heldOut (s : State) (a : Nat) (b : Nat) : (s.setRegN a b).heldOut = s.heldOut := rfl
@[simp] theorem State.setRegN_boot (s : State) (a : Nat) (b : Nat) : (s.setRegN a b).boot = s.boot := rfl
@[simp] theorem State.setRegN_image (s : State) (a : Nat) (b : Nat) : (s.setRegN a b).image = s.image := rfl
@[simp] theorem State.setRegN_tick (s : State) (a : Nat) (b : Nat) : (s.setRegN a b).tick = s.tick := rfl
@[simp] theorem State.setRegN_adm (s : State) (a : Nat) (b : Nat) : (s.setRegN a b).adm = s.adm := rfl
@[simp] theorem State.setRegN_seg (s : State) (a : Nat) (b : Nat) : (s.setRegN a b).seg = s.seg := rfl
@[simp] theorem State.setRegN_me (s : State) (a : Nat) (b : Nat) : (s.setRegN a b).me = s.me := rfl
@[simp] theorem State.setRegN_ve (s : State) (a : Nat) (b : Nat) : (s.setRegN a b).ve = s.ve := rfl
@[simp] theorem State.setRegN_stl (s : State) (a : Nat) (b : Nat) : (s.setRegN a b).stl = s.stl := rfl
@[simp] theorem State.setRegN_hbm (s : State) (a : Nat) (b : Nat) : (s.setRegN a b).hbm = s.hbm := rfl
@[simp] theorem State.setRegN_upd (s : State) (a : Nat) (b : Nat) : (s.setRegN a b).upd = s.upd := rfl
@[simp] theorem State.setRegN_clo (s : State) (a : Nat) (b : Nat) : (s.setRegN a b).clo = s.clo := rfl
@[simp] theorem State.setRegN_trl (s : State) (a : Nat) (b : Nat) : (s.setRegN a b).trl = s.trl := rfl
@[simp] theorem State.setRegN_pyu (s : State) (a : Nat) (b : Nat) : (s.setRegN a b).pyu = s.pyu := rfl
@[simp] theorem State.setRegN_pwr (s : State) (a : Nat) (b : Nat) : (s.setRegN a b).pwr = s.pwr := rfl
@[simp] theorem State.setRegN_ldg (s : State) (a : Nat) (b : Nat) : (s.setRegN a b).ldg = s.ldg := rfl
@[simp] theorem State.setRegN_host (s : State) (a : Nat) (b : Nat) : (s.setRegN a b).host = s.host := rfl
@[simp] theorem State.setRegN_sec (s : State) (a : Nat) (b : Nat) : (s.setRegN a b).sec = s.sec := rfl
@[simp] theorem State.setRegN_sbk (s : State) (a : Nat) (b : Nat) : (s.setRegN a b).sbk = s.sbk := rfl
@[simp] theorem State.setRegN_hlt (s : State) (a : Nat) (b : Nat) : (s.setRegN a b).hlt = s.hlt := rfl
@[simp] theorem State.setRegN_bel (s : State) (a : Nat) (b : Nat) : (s.setRegN a b).bel = s.bel := rfl

/-! ### setFld -/

@[simp] theorem State.setFld_pending (s : State) (a : Nat) (b : Nat) (c : Nat) (d : Nat) : (s.setFld a b c d).pending = s.pending :=
  rfl
@[simp] theorem State.setFld_mem (s : State) (a : Nat) (b : Nat) (c : Nat) (d : Nat) : (s.setFld a b c d).mem = s.mem :=
  rfl
@[simp] theorem State.setFld_free (s : State) (a : Nat) (b : Nat) (c : Nat) (d : Nat) : (s.setFld a b c d).free = s.free :=
  rfl
@[simp] theorem State.setFld_out (s : State) (a : Nat) (b : Nat) (c : Nat) (d : Nat) : (s.setFld a b c d).out = s.out :=
  rfl
@[simp] theorem State.setFld_heldOut (s : State) (a : Nat) (b : Nat) (c : Nat) (d : Nat) : (s.setFld a b c d).heldOut = s.heldOut :=
  rfl
@[simp] theorem State.setFld_boot (s : State) (a : Nat) (b : Nat) (c : Nat) (d : Nat) : (s.setFld a b c d).boot = s.boot :=
  rfl
@[simp] theorem State.setFld_image (s : State) (a : Nat) (b : Nat) (c : Nat) (d : Nat) : (s.setFld a b c d).image = s.image :=
  rfl
@[simp] theorem State.setFld_tick (s : State) (a : Nat) (b : Nat) (c : Nat) (d : Nat) : (s.setFld a b c d).tick = s.tick :=
  rfl
@[simp] theorem State.setFld_adm (s : State) (a : Nat) (b : Nat) (c : Nat) (d : Nat) : (s.setFld a b c d).adm = s.adm :=
  rfl
@[simp] theorem State.setFld_seg (s : State) (a : Nat) (b : Nat) (c : Nat) (d : Nat) : (s.setFld a b c d).seg = s.seg :=
  rfl
@[simp] theorem State.setFld_me (s : State) (a : Nat) (b : Nat) (c : Nat) (d : Nat) : (s.setFld a b c d).me = s.me :=
  rfl
@[simp] theorem State.setFld_ve (s : State) (a : Nat) (b : Nat) (c : Nat) (d : Nat) : (s.setFld a b c d).ve = s.ve :=
  rfl
@[simp] theorem State.setFld_stl (s : State) (a : Nat) (b : Nat) (c : Nat) (d : Nat) : (s.setFld a b c d).stl = s.stl :=
  rfl
@[simp] theorem State.setFld_hbm (s : State) (a : Nat) (b : Nat) (c : Nat) (d : Nat) : (s.setFld a b c d).hbm = s.hbm :=
  rfl
@[simp] theorem State.setFld_upd (s : State) (a : Nat) (b : Nat) (c : Nat) (d : Nat) : (s.setFld a b c d).upd = s.upd :=
  rfl
@[simp] theorem State.setFld_clo (s : State) (a : Nat) (b : Nat) (c : Nat) (d : Nat) : (s.setFld a b c d).clo = s.clo :=
  rfl
@[simp] theorem State.setFld_trl (s : State) (a : Nat) (b : Nat) (c : Nat) (d : Nat) : (s.setFld a b c d).trl = s.trl :=
  rfl
@[simp] theorem State.setFld_pyu (s : State) (a : Nat) (b : Nat) (c : Nat) (d : Nat) : (s.setFld a b c d).pyu = s.pyu :=
  rfl
@[simp] theorem State.setFld_pwr (s : State) (a : Nat) (b : Nat) (c : Nat) (d : Nat) : (s.setFld a b c d).pwr = s.pwr :=
  rfl
@[simp] theorem State.setFld_ldg (s : State) (a : Nat) (b : Nat) (c : Nat) (d : Nat) : (s.setFld a b c d).ldg = s.ldg :=
  rfl
@[simp] theorem State.setFld_host (s : State) (a : Nat) (b : Nat) (c : Nat) (d : Nat) : (s.setFld a b c d).host = s.host :=
  rfl
@[simp] theorem State.setFld_sec (s : State) (a : Nat) (b : Nat) (c : Nat) (d : Nat) : (s.setFld a b c d).sec = s.sec :=
  rfl
@[simp] theorem State.setFld_sbk (s : State) (a : Nat) (b : Nat) (c : Nat) (d : Nat) : (s.setFld a b c d).sbk = s.sbk :=
  rfl
@[simp] theorem State.setFld_hlt (s : State) (a : Nat) (b : Nat) (c : Nat) (d : Nat) : (s.setFld a b c d).hlt = s.hlt :=
  rfl
@[simp] theorem State.setFld_bel (s : State) (a : Nat) (b : Nat) (c : Nat) (d : Nat) : (s.setFld a b c d).bel = s.bel :=
  rfl

/-! ### setBit -/

@[simp] theorem State.setBit_pending (s : State) (a : Nat) (b : Nat) (c : Bool) : (s.setBit a b c).pending = s.pending :=
  rfl
@[simp] theorem State.setBit_mem (s : State) (a : Nat) (b : Nat) (c : Bool) : (s.setBit a b c).mem = s.mem := rfl
@[simp] theorem State.setBit_free (s : State) (a : Nat) (b : Nat) (c : Bool) : (s.setBit a b c).free = s.free := rfl
@[simp] theorem State.setBit_out (s : State) (a : Nat) (b : Nat) (c : Bool) : (s.setBit a b c).out = s.out := rfl
@[simp] theorem State.setBit_heldOut (s : State) (a : Nat) (b : Nat) (c : Bool) : (s.setBit a b c).heldOut = s.heldOut :=
  rfl
@[simp] theorem State.setBit_boot (s : State) (a : Nat) (b : Nat) (c : Bool) : (s.setBit a b c).boot = s.boot := rfl
@[simp] theorem State.setBit_image (s : State) (a : Nat) (b : Nat) (c : Bool) : (s.setBit a b c).image = s.image := rfl
@[simp] theorem State.setBit_tick (s : State) (a : Nat) (b : Nat) (c : Bool) : (s.setBit a b c).tick = s.tick := rfl
@[simp] theorem State.setBit_adm (s : State) (a : Nat) (b : Nat) (c : Bool) : (s.setBit a b c).adm = s.adm := rfl
@[simp] theorem State.setBit_seg (s : State) (a : Nat) (b : Nat) (c : Bool) : (s.setBit a b c).seg = s.seg := rfl
@[simp] theorem State.setBit_me (s : State) (a : Nat) (b : Nat) (c : Bool) : (s.setBit a b c).me = s.me := rfl
@[simp] theorem State.setBit_ve (s : State) (a : Nat) (b : Nat) (c : Bool) : (s.setBit a b c).ve = s.ve := rfl
@[simp] theorem State.setBit_stl (s : State) (a : Nat) (b : Nat) (c : Bool) : (s.setBit a b c).stl = s.stl := rfl
@[simp] theorem State.setBit_hbm (s : State) (a : Nat) (b : Nat) (c : Bool) : (s.setBit a b c).hbm = s.hbm := rfl
@[simp] theorem State.setBit_upd (s : State) (a : Nat) (b : Nat) (c : Bool) : (s.setBit a b c).upd = s.upd := rfl
@[simp] theorem State.setBit_clo (s : State) (a : Nat) (b : Nat) (c : Bool) : (s.setBit a b c).clo = s.clo := rfl
@[simp] theorem State.setBit_trl (s : State) (a : Nat) (b : Nat) (c : Bool) : (s.setBit a b c).trl = s.trl := rfl
@[simp] theorem State.setBit_pyu (s : State) (a : Nat) (b : Nat) (c : Bool) : (s.setBit a b c).pyu = s.pyu := rfl
@[simp] theorem State.setBit_pwr (s : State) (a : Nat) (b : Nat) (c : Bool) : (s.setBit a b c).pwr = s.pwr := rfl
@[simp] theorem State.setBit_ldg (s : State) (a : Nat) (b : Nat) (c : Bool) : (s.setBit a b c).ldg = s.ldg := rfl
@[simp] theorem State.setBit_host (s : State) (a : Nat) (b : Nat) (c : Bool) : (s.setBit a b c).host = s.host := rfl
@[simp] theorem State.setBit_sec (s : State) (a : Nat) (b : Nat) (c : Bool) : (s.setBit a b c).sec = s.sec := rfl
@[simp] theorem State.setBit_sbk (s : State) (a : Nat) (b : Nat) (c : Bool) : (s.setBit a b c).sbk = s.sbk := rfl
@[simp] theorem State.setBit_hlt (s : State) (a : Nat) (b : Nat) (c : Bool) : (s.setBit a b c).hlt = s.hlt := rfl
@[simp] theorem State.setBit_bel (s : State) (a : Nat) (b : Nat) (c : Bool) : (s.setBit a b c).bel = s.bel := rfl

/-! ### orReg -/

@[simp] theorem State.orReg_pending (s : State) (a : Nat) (b : DWord) : (s.orReg a b).pending = s.pending := rfl
@[simp] theorem State.orReg_mem (s : State) (a : Nat) (b : DWord) : (s.orReg a b).mem = s.mem := rfl
@[simp] theorem State.orReg_free (s : State) (a : Nat) (b : DWord) : (s.orReg a b).free = s.free := rfl
@[simp] theorem State.orReg_out (s : State) (a : Nat) (b : DWord) : (s.orReg a b).out = s.out := rfl
@[simp] theorem State.orReg_heldOut (s : State) (a : Nat) (b : DWord) : (s.orReg a b).heldOut = s.heldOut := rfl
@[simp] theorem State.orReg_boot (s : State) (a : Nat) (b : DWord) : (s.orReg a b).boot = s.boot := rfl
@[simp] theorem State.orReg_image (s : State) (a : Nat) (b : DWord) : (s.orReg a b).image = s.image := rfl
@[simp] theorem State.orReg_tick (s : State) (a : Nat) (b : DWord) : (s.orReg a b).tick = s.tick := rfl
@[simp] theorem State.orReg_adm (s : State) (a : Nat) (b : DWord) : (s.orReg a b).adm = s.adm := rfl
@[simp] theorem State.orReg_seg (s : State) (a : Nat) (b : DWord) : (s.orReg a b).seg = s.seg := rfl
@[simp] theorem State.orReg_me (s : State) (a : Nat) (b : DWord) : (s.orReg a b).me = s.me := rfl
@[simp] theorem State.orReg_ve (s : State) (a : Nat) (b : DWord) : (s.orReg a b).ve = s.ve := rfl
@[simp] theorem State.orReg_stl (s : State) (a : Nat) (b : DWord) : (s.orReg a b).stl = s.stl := rfl
@[simp] theorem State.orReg_hbm (s : State) (a : Nat) (b : DWord) : (s.orReg a b).hbm = s.hbm := rfl
@[simp] theorem State.orReg_upd (s : State) (a : Nat) (b : DWord) : (s.orReg a b).upd = s.upd := rfl
@[simp] theorem State.orReg_clo (s : State) (a : Nat) (b : DWord) : (s.orReg a b).clo = s.clo := rfl
@[simp] theorem State.orReg_trl (s : State) (a : Nat) (b : DWord) : (s.orReg a b).trl = s.trl := rfl
@[simp] theorem State.orReg_pyu (s : State) (a : Nat) (b : DWord) : (s.orReg a b).pyu = s.pyu := rfl
@[simp] theorem State.orReg_pwr (s : State) (a : Nat) (b : DWord) : (s.orReg a b).pwr = s.pwr := rfl
@[simp] theorem State.orReg_ldg (s : State) (a : Nat) (b : DWord) : (s.orReg a b).ldg = s.ldg := rfl
@[simp] theorem State.orReg_host (s : State) (a : Nat) (b : DWord) : (s.orReg a b).host = s.host := rfl
@[simp] theorem State.orReg_sec (s : State) (a : Nat) (b : DWord) : (s.orReg a b).sec = s.sec := rfl
@[simp] theorem State.orReg_sbk (s : State) (a : Nat) (b : DWord) : (s.orReg a b).sbk = s.sbk := rfl
@[simp] theorem State.orReg_hlt (s : State) (a : Nat) (b : DWord) : (s.orReg a b).hlt = s.hlt := rfl
@[simp] theorem State.orReg_bel (s : State) (a : Nat) (b : DWord) : (s.orReg a b).bel = s.bel := rfl

/-! ### clearReg -/

@[simp] theorem State.clearReg_pending (s : State) (a : Nat) (b : DWord) : (s.clearReg a b).pending = s.pending := rfl
@[simp] theorem State.clearReg_mem (s : State) (a : Nat) (b : DWord) : (s.clearReg a b).mem = s.mem := rfl
@[simp] theorem State.clearReg_free (s : State) (a : Nat) (b : DWord) : (s.clearReg a b).free = s.free := rfl
@[simp] theorem State.clearReg_out (s : State) (a : Nat) (b : DWord) : (s.clearReg a b).out = s.out := rfl
@[simp] theorem State.clearReg_heldOut (s : State) (a : Nat) (b : DWord) : (s.clearReg a b).heldOut = s.heldOut := rfl
@[simp] theorem State.clearReg_boot (s : State) (a : Nat) (b : DWord) : (s.clearReg a b).boot = s.boot := rfl
@[simp] theorem State.clearReg_image (s : State) (a : Nat) (b : DWord) : (s.clearReg a b).image = s.image := rfl
@[simp] theorem State.clearReg_tick (s : State) (a : Nat) (b : DWord) : (s.clearReg a b).tick = s.tick := rfl
@[simp] theorem State.clearReg_adm (s : State) (a : Nat) (b : DWord) : (s.clearReg a b).adm = s.adm := rfl
@[simp] theorem State.clearReg_seg (s : State) (a : Nat) (b : DWord) : (s.clearReg a b).seg = s.seg := rfl
@[simp] theorem State.clearReg_me (s : State) (a : Nat) (b : DWord) : (s.clearReg a b).me = s.me := rfl
@[simp] theorem State.clearReg_ve (s : State) (a : Nat) (b : DWord) : (s.clearReg a b).ve = s.ve := rfl
@[simp] theorem State.clearReg_stl (s : State) (a : Nat) (b : DWord) : (s.clearReg a b).stl = s.stl := rfl
@[simp] theorem State.clearReg_hbm (s : State) (a : Nat) (b : DWord) : (s.clearReg a b).hbm = s.hbm := rfl
@[simp] theorem State.clearReg_upd (s : State) (a : Nat) (b : DWord) : (s.clearReg a b).upd = s.upd := rfl
@[simp] theorem State.clearReg_clo (s : State) (a : Nat) (b : DWord) : (s.clearReg a b).clo = s.clo := rfl
@[simp] theorem State.clearReg_trl (s : State) (a : Nat) (b : DWord) : (s.clearReg a b).trl = s.trl := rfl
@[simp] theorem State.clearReg_pyu (s : State) (a : Nat) (b : DWord) : (s.clearReg a b).pyu = s.pyu := rfl
@[simp] theorem State.clearReg_pwr (s : State) (a : Nat) (b : DWord) : (s.clearReg a b).pwr = s.pwr := rfl
@[simp] theorem State.clearReg_ldg (s : State) (a : Nat) (b : DWord) : (s.clearReg a b).ldg = s.ldg := rfl
@[simp] theorem State.clearReg_host (s : State) (a : Nat) (b : DWord) : (s.clearReg a b).host = s.host := rfl
@[simp] theorem State.clearReg_sec (s : State) (a : Nat) (b : DWord) : (s.clearReg a b).sec = s.sec := rfl
@[simp] theorem State.clearReg_sbk (s : State) (a : Nat) (b : DWord) : (s.clearReg a b).sbk = s.sbk := rfl
@[simp] theorem State.clearReg_hlt (s : State) (a : Nat) (b : DWord) : (s.clearReg a b).hlt = s.hlt := rfl
@[simp] theorem State.clearReg_bel (s : State) (a : Nat) (b : DWord) : (s.clearReg a b).bel = s.bel := rfl

/-! ### count -/

@[simp] theorem State.count_pending (s : State) (a : Nat) (b : Nat) (c : Nat) : (s.count a b c).pending = s.pending :=
  rfl
@[simp] theorem State.count_mem (s : State) (a : Nat) (b : Nat) (c : Nat) : (s.count a b c).mem = s.mem := rfl
@[simp] theorem State.count_free (s : State) (a : Nat) (b : Nat) (c : Nat) : (s.count a b c).free = s.free := rfl
@[simp] theorem State.count_out (s : State) (a : Nat) (b : Nat) (c : Nat) : (s.count a b c).out = s.out := rfl
@[simp] theorem State.count_heldOut (s : State) (a : Nat) (b : Nat) (c : Nat) : (s.count a b c).heldOut = s.heldOut :=
  rfl
@[simp] theorem State.count_boot (s : State) (a : Nat) (b : Nat) (c : Nat) : (s.count a b c).boot = s.boot := rfl
@[simp] theorem State.count_image (s : State) (a : Nat) (b : Nat) (c : Nat) : (s.count a b c).image = s.image := rfl
@[simp] theorem State.count_tick (s : State) (a : Nat) (b : Nat) (c : Nat) : (s.count a b c).tick = s.tick := rfl
@[simp] theorem State.count_adm (s : State) (a : Nat) (b : Nat) (c : Nat) : (s.count a b c).adm = s.adm := rfl
@[simp] theorem State.count_seg (s : State) (a : Nat) (b : Nat) (c : Nat) : (s.count a b c).seg = s.seg := rfl
@[simp] theorem State.count_me (s : State) (a : Nat) (b : Nat) (c : Nat) : (s.count a b c).me = s.me := rfl
@[simp] theorem State.count_ve (s : State) (a : Nat) (b : Nat) (c : Nat) : (s.count a b c).ve = s.ve := rfl
@[simp] theorem State.count_stl (s : State) (a : Nat) (b : Nat) (c : Nat) : (s.count a b c).stl = s.stl := rfl
@[simp] theorem State.count_hbm (s : State) (a : Nat) (b : Nat) (c : Nat) : (s.count a b c).hbm = s.hbm := rfl
@[simp] theorem State.count_upd (s : State) (a : Nat) (b : Nat) (c : Nat) : (s.count a b c).upd = s.upd := rfl
@[simp] theorem State.count_clo (s : State) (a : Nat) (b : Nat) (c : Nat) : (s.count a b c).clo = s.clo := rfl
@[simp] theorem State.count_trl (s : State) (a : Nat) (b : Nat) (c : Nat) : (s.count a b c).trl = s.trl := rfl
@[simp] theorem State.count_pyu (s : State) (a : Nat) (b : Nat) (c : Nat) : (s.count a b c).pyu = s.pyu := rfl
@[simp] theorem State.count_pwr (s : State) (a : Nat) (b : Nat) (c : Nat) : (s.count a b c).pwr = s.pwr := rfl
@[simp] theorem State.count_ldg (s : State) (a : Nat) (b : Nat) (c : Nat) : (s.count a b c).ldg = s.ldg := rfl
@[simp] theorem State.count_host (s : State) (a : Nat) (b : Nat) (c : Nat) : (s.count a b c).host = s.host := rfl
@[simp] theorem State.count_sec (s : State) (a : Nat) (b : Nat) (c : Nat) : (s.count a b c).sec = s.sec := rfl
@[simp] theorem State.count_sbk (s : State) (a : Nat) (b : Nat) (c : Nat) : (s.count a b c).sbk = s.sbk := rfl
@[simp] theorem State.count_hlt (s : State) (a : Nat) (b : Nat) (c : Nat) : (s.count a b c).hlt = s.hlt := rfl
@[simp] theorem State.count_bel (s : State) (a : Nat) (b : Nat) (c : Nat) : (s.count a b c).bel = s.bel := rfl

/-! ### maxReg -/

@[simp] theorem State.maxReg_pending (s : State) (a : Nat) (b : Nat) : (s.maxReg a b).pending = s.pending := rfl
@[simp] theorem State.maxReg_mem (s : State) (a : Nat) (b : Nat) : (s.maxReg a b).mem = s.mem := rfl
@[simp] theorem State.maxReg_free (s : State) (a : Nat) (b : Nat) : (s.maxReg a b).free = s.free := rfl
@[simp] theorem State.maxReg_out (s : State) (a : Nat) (b : Nat) : (s.maxReg a b).out = s.out := rfl
@[simp] theorem State.maxReg_heldOut (s : State) (a : Nat) (b : Nat) : (s.maxReg a b).heldOut = s.heldOut := rfl
@[simp] theorem State.maxReg_boot (s : State) (a : Nat) (b : Nat) : (s.maxReg a b).boot = s.boot := rfl
@[simp] theorem State.maxReg_image (s : State) (a : Nat) (b : Nat) : (s.maxReg a b).image = s.image := rfl
@[simp] theorem State.maxReg_tick (s : State) (a : Nat) (b : Nat) : (s.maxReg a b).tick = s.tick := rfl
@[simp] theorem State.maxReg_adm (s : State) (a : Nat) (b : Nat) : (s.maxReg a b).adm = s.adm := rfl
@[simp] theorem State.maxReg_seg (s : State) (a : Nat) (b : Nat) : (s.maxReg a b).seg = s.seg := rfl
@[simp] theorem State.maxReg_me (s : State) (a : Nat) (b : Nat) : (s.maxReg a b).me = s.me := rfl
@[simp] theorem State.maxReg_ve (s : State) (a : Nat) (b : Nat) : (s.maxReg a b).ve = s.ve := rfl
@[simp] theorem State.maxReg_stl (s : State) (a : Nat) (b : Nat) : (s.maxReg a b).stl = s.stl := rfl
@[simp] theorem State.maxReg_hbm (s : State) (a : Nat) (b : Nat) : (s.maxReg a b).hbm = s.hbm := rfl
@[simp] theorem State.maxReg_upd (s : State) (a : Nat) (b : Nat) : (s.maxReg a b).upd = s.upd := rfl
@[simp] theorem State.maxReg_clo (s : State) (a : Nat) (b : Nat) : (s.maxReg a b).clo = s.clo := rfl
@[simp] theorem State.maxReg_trl (s : State) (a : Nat) (b : Nat) : (s.maxReg a b).trl = s.trl := rfl
@[simp] theorem State.maxReg_pyu (s : State) (a : Nat) (b : Nat) : (s.maxReg a b).pyu = s.pyu := rfl
@[simp] theorem State.maxReg_pwr (s : State) (a : Nat) (b : Nat) : (s.maxReg a b).pwr = s.pwr := rfl
@[simp] theorem State.maxReg_ldg (s : State) (a : Nat) (b : Nat) : (s.maxReg a b).ldg = s.ldg := rfl
@[simp] theorem State.maxReg_host (s : State) (a : Nat) (b : Nat) : (s.maxReg a b).host = s.host := rfl
@[simp] theorem State.maxReg_sec (s : State) (a : Nat) (b : Nat) : (s.maxReg a b).sec = s.sec := rfl
@[simp] theorem State.maxReg_sbk (s : State) (a : Nat) (b : Nat) : (s.maxReg a b).sbk = s.sbk := rfl
@[simp] theorem State.maxReg_hlt (s : State) (a : Nat) (b : Nat) : (s.maxReg a b).hlt = s.hlt := rfl
@[simp] theorem State.maxReg_bel (s : State) (a : Nat) (b : Nat) : (s.maxReg a b).bel = s.bel := rfl

/-! ### minReg -/

@[simp] theorem State.minReg_pending (s : State) (a : Nat) (b : Nat) : (s.minReg a b).pending = s.pending := rfl
@[simp] theorem State.minReg_mem (s : State) (a : Nat) (b : Nat) : (s.minReg a b).mem = s.mem := rfl
@[simp] theorem State.minReg_free (s : State) (a : Nat) (b : Nat) : (s.minReg a b).free = s.free := rfl
@[simp] theorem State.minReg_out (s : State) (a : Nat) (b : Nat) : (s.minReg a b).out = s.out := rfl
@[simp] theorem State.minReg_heldOut (s : State) (a : Nat) (b : Nat) : (s.minReg a b).heldOut = s.heldOut := rfl
@[simp] theorem State.minReg_boot (s : State) (a : Nat) (b : Nat) : (s.minReg a b).boot = s.boot := rfl
@[simp] theorem State.minReg_image (s : State) (a : Nat) (b : Nat) : (s.minReg a b).image = s.image := rfl
@[simp] theorem State.minReg_tick (s : State) (a : Nat) (b : Nat) : (s.minReg a b).tick = s.tick := rfl
@[simp] theorem State.minReg_adm (s : State) (a : Nat) (b : Nat) : (s.minReg a b).adm = s.adm := rfl
@[simp] theorem State.minReg_seg (s : State) (a : Nat) (b : Nat) : (s.minReg a b).seg = s.seg := rfl
@[simp] theorem State.minReg_me (s : State) (a : Nat) (b : Nat) : (s.minReg a b).me = s.me := rfl
@[simp] theorem State.minReg_ve (s : State) (a : Nat) (b : Nat) : (s.minReg a b).ve = s.ve := rfl
@[simp] theorem State.minReg_stl (s : State) (a : Nat) (b : Nat) : (s.minReg a b).stl = s.stl := rfl
@[simp] theorem State.minReg_hbm (s : State) (a : Nat) (b : Nat) : (s.minReg a b).hbm = s.hbm := rfl
@[simp] theorem State.minReg_upd (s : State) (a : Nat) (b : Nat) : (s.minReg a b).upd = s.upd := rfl
@[simp] theorem State.minReg_clo (s : State) (a : Nat) (b : Nat) : (s.minReg a b).clo = s.clo := rfl
@[simp] theorem State.minReg_trl (s : State) (a : Nat) (b : Nat) : (s.minReg a b).trl = s.trl := rfl
@[simp] theorem State.minReg_pyu (s : State) (a : Nat) (b : Nat) : (s.minReg a b).pyu = s.pyu := rfl
@[simp] theorem State.minReg_pwr (s : State) (a : Nat) (b : Nat) : (s.minReg a b).pwr = s.pwr := rfl
@[simp] theorem State.minReg_ldg (s : State) (a : Nat) (b : Nat) : (s.minReg a b).ldg = s.ldg := rfl
@[simp] theorem State.minReg_host (s : State) (a : Nat) (b : Nat) : (s.minReg a b).host = s.host := rfl
@[simp] theorem State.minReg_sec (s : State) (a : Nat) (b : Nat) : (s.minReg a b).sec = s.sec := rfl
@[simp] theorem State.minReg_sbk (s : State) (a : Nat) (b : Nat) : (s.minReg a b).sbk = s.sbk := rfl
@[simp] theorem State.minReg_hlt (s : State) (a : Nat) (b : Nat) : (s.minReg a b).hlt = s.hlt := rfl
@[simp] theorem State.minReg_bel (s : State) (a : Nat) (b : Nat) : (s.minReg a b).bel = s.bel := rfl

/-! ### zeroBanks -/

@[simp] theorem State.zeroBanks_pending (s : State) (a : List Nat) : (s.zeroBanks a).pending = s.pending := rfl
@[simp] theorem State.zeroBanks_mem (s : State) (a : List Nat) : (s.zeroBanks a).mem = s.mem := rfl
@[simp] theorem State.zeroBanks_free (s : State) (a : List Nat) : (s.zeroBanks a).free = s.free := rfl
@[simp] theorem State.zeroBanks_out (s : State) (a : List Nat) : (s.zeroBanks a).out = s.out := rfl
@[simp] theorem State.zeroBanks_heldOut (s : State) (a : List Nat) : (s.zeroBanks a).heldOut = s.heldOut := rfl
@[simp] theorem State.zeroBanks_boot (s : State) (a : List Nat) : (s.zeroBanks a).boot = s.boot := rfl
@[simp] theorem State.zeroBanks_image (s : State) (a : List Nat) : (s.zeroBanks a).image = s.image := rfl
@[simp] theorem State.zeroBanks_tick (s : State) (a : List Nat) : (s.zeroBanks a).tick = s.tick := rfl
@[simp] theorem State.zeroBanks_adm (s : State) (a : List Nat) : (s.zeroBanks a).adm = s.adm := rfl
@[simp] theorem State.zeroBanks_seg (s : State) (a : List Nat) : (s.zeroBanks a).seg = s.seg := rfl
@[simp] theorem State.zeroBanks_me (s : State) (a : List Nat) : (s.zeroBanks a).me = s.me := rfl
@[simp] theorem State.zeroBanks_ve (s : State) (a : List Nat) : (s.zeroBanks a).ve = s.ve := rfl
@[simp] theorem State.zeroBanks_stl (s : State) (a : List Nat) : (s.zeroBanks a).stl = s.stl := rfl
@[simp] theorem State.zeroBanks_hbm (s : State) (a : List Nat) : (s.zeroBanks a).hbm = s.hbm := rfl
@[simp] theorem State.zeroBanks_upd (s : State) (a : List Nat) : (s.zeroBanks a).upd = s.upd := rfl
@[simp] theorem State.zeroBanks_clo (s : State) (a : List Nat) : (s.zeroBanks a).clo = s.clo := rfl
@[simp] theorem State.zeroBanks_trl (s : State) (a : List Nat) : (s.zeroBanks a).trl = s.trl := rfl
@[simp] theorem State.zeroBanks_pyu (s : State) (a : List Nat) : (s.zeroBanks a).pyu = s.pyu := rfl
@[simp] theorem State.zeroBanks_pwr (s : State) (a : List Nat) : (s.zeroBanks a).pwr = s.pwr := rfl
@[simp] theorem State.zeroBanks_ldg (s : State) (a : List Nat) : (s.zeroBanks a).ldg = s.ldg := rfl
@[simp] theorem State.zeroBanks_host (s : State) (a : List Nat) : (s.zeroBanks a).host = s.host := rfl
@[simp] theorem State.zeroBanks_sec (s : State) (a : List Nat) : (s.zeroBanks a).sec = s.sec := rfl
@[simp] theorem State.zeroBanks_sbk (s : State) (a : List Nat) : (s.zeroBanks a).sbk = s.sbk := rfl
@[simp] theorem State.zeroBanks_hlt (s : State) (a : List Nat) : (s.zeroBanks a).hlt = s.hlt := rfl
@[simp] theorem State.zeroBanks_bel (s : State) (a : List Nat) : (s.zeroBanks a).bel = s.bel := rfl

/-! ### used -/

@[simp] theorem State.used_pending (s : State) : (s.used).pending = s.pending := rfl
@[simp] theorem State.used_regs (s : State) : (s.used).regs = s.regs := rfl
@[simp] theorem State.used_mem (s : State) : (s.used).mem = s.mem := rfl
@[simp] theorem State.used_out (s : State) : (s.used).out = s.out := rfl
@[simp] theorem State.used_heldOut (s : State) : (s.used).heldOut = s.heldOut := rfl
@[simp] theorem State.used_boot (s : State) : (s.used).boot = s.boot := rfl
@[simp] theorem State.used_image (s : State) : (s.used).image = s.image := rfl
@[simp] theorem State.used_tick (s : State) : (s.used).tick = s.tick := rfl
@[simp] theorem State.used_adm (s : State) : (s.used).adm = s.adm := rfl
@[simp] theorem State.used_seg (s : State) : (s.used).seg = s.seg := rfl
@[simp] theorem State.used_me (s : State) : (s.used).me = s.me := rfl
@[simp] theorem State.used_ve (s : State) : (s.used).ve = s.ve := rfl
@[simp] theorem State.used_stl (s : State) : (s.used).stl = s.stl := rfl
@[simp] theorem State.used_hbm (s : State) : (s.used).hbm = s.hbm := rfl
@[simp] theorem State.used_upd (s : State) : (s.used).upd = s.upd := rfl
@[simp] theorem State.used_clo (s : State) : (s.used).clo = s.clo := rfl
@[simp] theorem State.used_trl (s : State) : (s.used).trl = s.trl := rfl
@[simp] theorem State.used_pyu (s : State) : (s.used).pyu = s.pyu := rfl
@[simp] theorem State.used_pwr (s : State) : (s.used).pwr = s.pwr := rfl
@[simp] theorem State.used_ldg (s : State) : (s.used).ldg = s.ldg := rfl
@[simp] theorem State.used_host (s : State) : (s.used).host = s.host := rfl
@[simp] theorem State.used_sec (s : State) : (s.used).sec = s.sec := rfl
@[simp] theorem State.used_sbk (s : State) : (s.used).sbk = s.sbk := rfl
@[simp] theorem State.used_hlt (s : State) : (s.used).hlt = s.hlt := rfl
@[simp] theorem State.used_bel (s : State) : (s.used).bel = s.bel := rfl

/-! ### send -/

@[simp] theorem State.send_pending (s : State) (a : Output) : (s.send a).pending = s.pending := rfl
@[simp] theorem State.send_regs (s : State) (a : Output) : (s.send a).regs = s.regs := rfl
@[simp] theorem State.send_mem (s : State) (a : Output) : (s.send a).mem = s.mem := rfl
@[simp] theorem State.send_free (s : State) (a : Output) : (s.send a).free = s.free := rfl
@[simp] theorem State.send_heldOut (s : State) (a : Output) : (s.send a).heldOut = s.heldOut := rfl
@[simp] theorem State.send_boot (s : State) (a : Output) : (s.send a).boot = s.boot := rfl
@[simp] theorem State.send_image (s : State) (a : Output) : (s.send a).image = s.image := rfl
@[simp] theorem State.send_tick (s : State) (a : Output) : (s.send a).tick = s.tick := rfl
@[simp] theorem State.send_adm (s : State) (a : Output) : (s.send a).adm = s.adm := rfl
@[simp] theorem State.send_seg (s : State) (a : Output) : (s.send a).seg = s.seg := rfl
@[simp] theorem State.send_me (s : State) (a : Output) : (s.send a).me = s.me := rfl
@[simp] theorem State.send_ve (s : State) (a : Output) : (s.send a).ve = s.ve := rfl
@[simp] theorem State.send_stl (s : State) (a : Output) : (s.send a).stl = s.stl := rfl
@[simp] theorem State.send_hbm (s : State) (a : Output) : (s.send a).hbm = s.hbm := rfl
@[simp] theorem State.send_upd (s : State) (a : Output) : (s.send a).upd = s.upd := rfl
@[simp] theorem State.send_clo (s : State) (a : Output) : (s.send a).clo = s.clo := rfl
@[simp] theorem State.send_trl (s : State) (a : Output) : (s.send a).trl = s.trl := rfl
@[simp] theorem State.send_pyu (s : State) (a : Output) : (s.send a).pyu = s.pyu := rfl
@[simp] theorem State.send_pwr (s : State) (a : Output) : (s.send a).pwr = s.pwr := rfl
@[simp] theorem State.send_ldg (s : State) (a : Output) : (s.send a).ldg = s.ldg := rfl
@[simp] theorem State.send_host (s : State) (a : Output) : (s.send a).host = s.host := rfl
@[simp] theorem State.send_sec (s : State) (a : Output) : (s.send a).sec = s.sec := rfl
@[simp] theorem State.send_sbk (s : State) (a : Output) : (s.send a).sbk = s.sbk := rfl
@[simp] theorem State.send_hlt (s : State) (a : Output) : (s.send a).hlt = s.hlt := rfl
@[simp] theorem State.send_bel (s : State) (a : Output) : (s.send a).bel = s.bel := rfl

/-! ### setVec -/

@[simp] theorem State.setVec_pending (s : State) (a : Nat) (b : MsixVec) : (s.setVec a b).pending = s.pending := rfl
@[simp] theorem State.setVec_regs (s : State) (a : Nat) (b : MsixVec) : (s.setVec a b).regs = s.regs := rfl
@[simp] theorem State.setVec_mem (s : State) (a : Nat) (b : MsixVec) : (s.setVec a b).mem = s.mem := rfl
@[simp] theorem State.setVec_free (s : State) (a : Nat) (b : MsixVec) : (s.setVec a b).free = s.free := rfl
@[simp] theorem State.setVec_out (s : State) (a : Nat) (b : MsixVec) : (s.setVec a b).out = s.out := rfl
@[simp] theorem State.setVec_heldOut (s : State) (a : Nat) (b : MsixVec) : (s.setVec a b).heldOut = s.heldOut := rfl
@[simp] theorem State.setVec_boot (s : State) (a : Nat) (b : MsixVec) : (s.setVec a b).boot = s.boot := rfl
@[simp] theorem State.setVec_image (s : State) (a : Nat) (b : MsixVec) : (s.setVec a b).image = s.image := rfl
@[simp] theorem State.setVec_tick (s : State) (a : Nat) (b : MsixVec) : (s.setVec a b).tick = s.tick := rfl
@[simp] theorem State.setVec_adm (s : State) (a : Nat) (b : MsixVec) : (s.setVec a b).adm = s.adm := rfl
@[simp] theorem State.setVec_seg (s : State) (a : Nat) (b : MsixVec) : (s.setVec a b).seg = s.seg := rfl
@[simp] theorem State.setVec_me (s : State) (a : Nat) (b : MsixVec) : (s.setVec a b).me = s.me := rfl
@[simp] theorem State.setVec_ve (s : State) (a : Nat) (b : MsixVec) : (s.setVec a b).ve = s.ve := rfl
@[simp] theorem State.setVec_stl (s : State) (a : Nat) (b : MsixVec) : (s.setVec a b).stl = s.stl := rfl
@[simp] theorem State.setVec_hbm (s : State) (a : Nat) (b : MsixVec) : (s.setVec a b).hbm = s.hbm := rfl
@[simp] theorem State.setVec_upd (s : State) (a : Nat) (b : MsixVec) : (s.setVec a b).upd = s.upd := rfl
@[simp] theorem State.setVec_clo (s : State) (a : Nat) (b : MsixVec) : (s.setVec a b).clo = s.clo := rfl
@[simp] theorem State.setVec_trl (s : State) (a : Nat) (b : MsixVec) : (s.setVec a b).trl = s.trl := rfl
@[simp] theorem State.setVec_pyu (s : State) (a : Nat) (b : MsixVec) : (s.setVec a b).pyu = s.pyu := rfl
@[simp] theorem State.setVec_pwr (s : State) (a : Nat) (b : MsixVec) : (s.setVec a b).pwr = s.pwr := rfl
@[simp] theorem State.setVec_ldg (s : State) (a : Nat) (b : MsixVec) : (s.setVec a b).ldg = s.ldg := rfl
@[simp] theorem State.setVec_sec (s : State) (a : Nat) (b : MsixVec) : (s.setVec a b).sec = s.sec := rfl
@[simp] theorem State.setVec_sbk (s : State) (a : Nat) (b : MsixVec) : (s.setVec a b).sbk = s.sbk := rfl
@[simp] theorem State.setVec_hlt (s : State) (a : Nat) (b : MsixVec) : (s.setVec a b).hlt = s.hlt := rfl
@[simp] theorem State.setVec_bel (s : State) (a : Nat) (b : MsixVec) : (s.setVec a b).bel = s.bel := rfl

/-! ### bel64 -/

@[simp] theorem State.bel64_pending (s : State) (a : Nat) (b : Nat) : (s.bel64 a b).pending = s.pending := rfl
@[simp] theorem State.bel64_regs (s : State) (a : Nat) (b : Nat) : (s.bel64 a b).regs = s.regs := rfl
@[simp] theorem State.bel64_mem (s : State) (a : Nat) (b : Nat) : (s.bel64 a b).mem = s.mem := rfl
@[simp] theorem State.bel64_free (s : State) (a : Nat) (b : Nat) : (s.bel64 a b).free = s.free := rfl
@[simp] theorem State.bel64_out (s : State) (a : Nat) (b : Nat) : (s.bel64 a b).out = s.out := rfl
@[simp] theorem State.bel64_heldOut (s : State) (a : Nat) (b : Nat) : (s.bel64 a b).heldOut = s.heldOut := rfl
@[simp] theorem State.bel64_boot (s : State) (a : Nat) (b : Nat) : (s.bel64 a b).boot = s.boot := rfl
@[simp] theorem State.bel64_image (s : State) (a : Nat) (b : Nat) : (s.bel64 a b).image = s.image := rfl
@[simp] theorem State.bel64_tick (s : State) (a : Nat) (b : Nat) : (s.bel64 a b).tick = s.tick := rfl
@[simp] theorem State.bel64_adm (s : State) (a : Nat) (b : Nat) : (s.bel64 a b).adm = s.adm := rfl
@[simp] theorem State.bel64_seg (s : State) (a : Nat) (b : Nat) : (s.bel64 a b).seg = s.seg := rfl
@[simp] theorem State.bel64_me (s : State) (a : Nat) (b : Nat) : (s.bel64 a b).me = s.me := rfl
@[simp] theorem State.bel64_ve (s : State) (a : Nat) (b : Nat) : (s.bel64 a b).ve = s.ve := rfl
@[simp] theorem State.bel64_stl (s : State) (a : Nat) (b : Nat) : (s.bel64 a b).stl = s.stl := rfl
@[simp] theorem State.bel64_hbm (s : State) (a : Nat) (b : Nat) : (s.bel64 a b).hbm = s.hbm := rfl
@[simp] theorem State.bel64_upd (s : State) (a : Nat) (b : Nat) : (s.bel64 a b).upd = s.upd := rfl
@[simp] theorem State.bel64_clo (s : State) (a : Nat) (b : Nat) : (s.bel64 a b).clo = s.clo := rfl
@[simp] theorem State.bel64_trl (s : State) (a : Nat) (b : Nat) : (s.bel64 a b).trl = s.trl := rfl
@[simp] theorem State.bel64_pyu (s : State) (a : Nat) (b : Nat) : (s.bel64 a b).pyu = s.pyu := rfl
@[simp] theorem State.bel64_pwr (s : State) (a : Nat) (b : Nat) : (s.bel64 a b).pwr = s.pwr := rfl
@[simp] theorem State.bel64_ldg (s : State) (a : Nat) (b : Nat) : (s.bel64 a b).ldg = s.ldg := rfl
@[simp] theorem State.bel64_host (s : State) (a : Nat) (b : Nat) : (s.bel64 a b).host = s.host := rfl
@[simp] theorem State.bel64_sec (s : State) (a : Nat) (b : Nat) : (s.bel64 a b).sec = s.sec := rfl
@[simp] theorem State.bel64_sbk (s : State) (a : Nat) (b : Nat) : (s.bel64 a b).sbk = s.sbk := rfl
@[simp] theorem State.bel64_hlt (s : State) (a : Nat) (b : Nat) : (s.bel64 a b).hlt = s.hlt := rfl

/-! ### live -/

@[simp] theorem State.live_pending (s : State) (a : Nat) (b : Nat) : (s.live a b).pending = s.pending := rfl
@[simp] theorem State.live_regs (s : State) (a : Nat) (b : Nat) : (s.live a b).regs = s.regs := rfl
@[simp] theorem State.live_mem (s : State) (a : Nat) (b : Nat) : (s.live a b).mem = s.mem := rfl
@[simp] theorem State.live_free (s : State) (a : Nat) (b : Nat) : (s.live a b).free = s.free := rfl
@[simp] theorem State.live_out (s : State) (a : Nat) (b : Nat) : (s.live a b).out = s.out := rfl
@[simp] theorem State.live_heldOut (s : State) (a : Nat) (b : Nat) : (s.live a b).heldOut = s.heldOut := rfl
@[simp] theorem State.live_boot (s : State) (a : Nat) (b : Nat) : (s.live a b).boot = s.boot := rfl
@[simp] theorem State.live_image (s : State) (a : Nat) (b : Nat) : (s.live a b).image = s.image := rfl
@[simp] theorem State.live_tick (s : State) (a : Nat) (b : Nat) : (s.live a b).tick = s.tick := rfl
@[simp] theorem State.live_adm (s : State) (a : Nat) (b : Nat) : (s.live a b).adm = s.adm := rfl
@[simp] theorem State.live_seg (s : State) (a : Nat) (b : Nat) : (s.live a b).seg = s.seg := rfl
@[simp] theorem State.live_me (s : State) (a : Nat) (b : Nat) : (s.live a b).me = s.me := rfl
@[simp] theorem State.live_ve (s : State) (a : Nat) (b : Nat) : (s.live a b).ve = s.ve := rfl
@[simp] theorem State.live_stl (s : State) (a : Nat) (b : Nat) : (s.live a b).stl = s.stl := rfl
@[simp] theorem State.live_hbm (s : State) (a : Nat) (b : Nat) : (s.live a b).hbm = s.hbm := rfl
@[simp] theorem State.live_upd (s : State) (a : Nat) (b : Nat) : (s.live a b).upd = s.upd := rfl
@[simp] theorem State.live_clo (s : State) (a : Nat) (b : Nat) : (s.live a b).clo = s.clo := rfl
@[simp] theorem State.live_trl (s : State) (a : Nat) (b : Nat) : (s.live a b).trl = s.trl := rfl
@[simp] theorem State.live_pyu (s : State) (a : Nat) (b : Nat) : (s.live a b).pyu = s.pyu := rfl
@[simp] theorem State.live_pwr (s : State) (a : Nat) (b : Nat) : (s.live a b).pwr = s.pwr := rfl
@[simp] theorem State.live_ldg (s : State) (a : Nat) (b : Nat) : (s.live a b).ldg = s.ldg := rfl
@[simp] theorem State.live_host (s : State) (a : Nat) (b : Nat) : (s.live a b).host = s.host := rfl
@[simp] theorem State.live_sec (s : State) (a : Nat) (b : Nat) : (s.live a b).sec = s.sec := rfl
@[simp] theorem State.live_sbk (s : State) (a : Nat) (b : Nat) : (s.live a b).sbk = s.sbk := rfl
@[simp] theorem State.live_bel (s : State) (a : Nat) (b : Nat) : (s.live a b).bel = s.bel := rfl

/-! ### liveMax -/

@[simp] theorem State.liveMax_pending (s : State) (a : Nat) (b : Nat) : (s.liveMax a b).pending = s.pending := rfl
@[simp] theorem State.liveMax_regs (s : State) (a : Nat) (b : Nat) : (s.liveMax a b).regs = s.regs := rfl
@[simp] theorem State.liveMax_mem (s : State) (a : Nat) (b : Nat) : (s.liveMax a b).mem = s.mem := rfl
@[simp] theorem State.liveMax_free (s : State) (a : Nat) (b : Nat) : (s.liveMax a b).free = s.free := rfl
@[simp] theorem State.liveMax_out (s : State) (a : Nat) (b : Nat) : (s.liveMax a b).out = s.out := rfl
@[simp] theorem State.liveMax_heldOut (s : State) (a : Nat) (b : Nat) : (s.liveMax a b).heldOut = s.heldOut := rfl
@[simp] theorem State.liveMax_boot (s : State) (a : Nat) (b : Nat) : (s.liveMax a b).boot = s.boot := rfl
@[simp] theorem State.liveMax_image (s : State) (a : Nat) (b : Nat) : (s.liveMax a b).image = s.image := rfl
@[simp] theorem State.liveMax_tick (s : State) (a : Nat) (b : Nat) : (s.liveMax a b).tick = s.tick := rfl
@[simp] theorem State.liveMax_adm (s : State) (a : Nat) (b : Nat) : (s.liveMax a b).adm = s.adm := rfl
@[simp] theorem State.liveMax_seg (s : State) (a : Nat) (b : Nat) : (s.liveMax a b).seg = s.seg := rfl
@[simp] theorem State.liveMax_me (s : State) (a : Nat) (b : Nat) : (s.liveMax a b).me = s.me := rfl
@[simp] theorem State.liveMax_ve (s : State) (a : Nat) (b : Nat) : (s.liveMax a b).ve = s.ve := rfl
@[simp] theorem State.liveMax_stl (s : State) (a : Nat) (b : Nat) : (s.liveMax a b).stl = s.stl := rfl
@[simp] theorem State.liveMax_hbm (s : State) (a : Nat) (b : Nat) : (s.liveMax a b).hbm = s.hbm := rfl
@[simp] theorem State.liveMax_upd (s : State) (a : Nat) (b : Nat) : (s.liveMax a b).upd = s.upd := rfl
@[simp] theorem State.liveMax_clo (s : State) (a : Nat) (b : Nat) : (s.liveMax a b).clo = s.clo := rfl
@[simp] theorem State.liveMax_trl (s : State) (a : Nat) (b : Nat) : (s.liveMax a b).trl = s.trl := rfl
@[simp] theorem State.liveMax_pyu (s : State) (a : Nat) (b : Nat) : (s.liveMax a b).pyu = s.pyu := rfl
@[simp] theorem State.liveMax_pwr (s : State) (a : Nat) (b : Nat) : (s.liveMax a b).pwr = s.pwr := rfl
@[simp] theorem State.liveMax_ldg (s : State) (a : Nat) (b : Nat) : (s.liveMax a b).ldg = s.ldg := rfl
@[simp] theorem State.liveMax_host (s : State) (a : Nat) (b : Nat) : (s.liveMax a b).host = s.host := rfl
@[simp] theorem State.liveMax_sec (s : State) (a : Nat) (b : Nat) : (s.liveMax a b).sec = s.sec := rfl
@[simp] theorem State.liveMax_sbk (s : State) (a : Nat) (b : Nat) : (s.liveMax a b).sbk = s.sbk := rfl
@[simp] theorem State.liveMax_bel (s : State) (a : Nat) (b : Nat) : (s.liveMax a b).bel = s.bel := rfl

/-! ### setRing -/

@[simp] theorem State.setRing_pending (s : State) (a : Nat) (b : TraceRing) : (s.setRing a b).pending = s.pending := rfl
@[simp] theorem State.setRing_regs (s : State) (a : Nat) (b : TraceRing) : (s.setRing a b).regs = s.regs := rfl
@[simp] theorem State.setRing_mem (s : State) (a : Nat) (b : TraceRing) : (s.setRing a b).mem = s.mem := rfl
@[simp] theorem State.setRing_free (s : State) (a : Nat) (b : TraceRing) : (s.setRing a b).free = s.free := rfl
@[simp] theorem State.setRing_out (s : State) (a : Nat) (b : TraceRing) : (s.setRing a b).out = s.out := rfl
@[simp] theorem State.setRing_heldOut (s : State) (a : Nat) (b : TraceRing) : (s.setRing a b).heldOut = s.heldOut := rfl
@[simp] theorem State.setRing_boot (s : State) (a : Nat) (b : TraceRing) : (s.setRing a b).boot = s.boot := rfl
@[simp] theorem State.setRing_image (s : State) (a : Nat) (b : TraceRing) : (s.setRing a b).image = s.image := rfl
@[simp] theorem State.setRing_tick (s : State) (a : Nat) (b : TraceRing) : (s.setRing a b).tick = s.tick := rfl
@[simp] theorem State.setRing_adm (s : State) (a : Nat) (b : TraceRing) : (s.setRing a b).adm = s.adm := rfl
@[simp] theorem State.setRing_seg (s : State) (a : Nat) (b : TraceRing) : (s.setRing a b).seg = s.seg := rfl
@[simp] theorem State.setRing_me (s : State) (a : Nat) (b : TraceRing) : (s.setRing a b).me = s.me := rfl
@[simp] theorem State.setRing_ve (s : State) (a : Nat) (b : TraceRing) : (s.setRing a b).ve = s.ve := rfl
@[simp] theorem State.setRing_stl (s : State) (a : Nat) (b : TraceRing) : (s.setRing a b).stl = s.stl := rfl
@[simp] theorem State.setRing_hbm (s : State) (a : Nat) (b : TraceRing) : (s.setRing a b).hbm = s.hbm := rfl
@[simp] theorem State.setRing_upd (s : State) (a : Nat) (b : TraceRing) : (s.setRing a b).upd = s.upd := rfl
@[simp] theorem State.setRing_clo (s : State) (a : Nat) (b : TraceRing) : (s.setRing a b).clo = s.clo := rfl
@[simp] theorem State.setRing_trl (s : State) (a : Nat) (b : TraceRing) : (s.setRing a b).trl = s.trl := rfl
@[simp] theorem State.setRing_pyu (s : State) (a : Nat) (b : TraceRing) : (s.setRing a b).pyu = s.pyu := rfl
@[simp] theorem State.setRing_pwr (s : State) (a : Nat) (b : TraceRing) : (s.setRing a b).pwr = s.pwr := rfl
@[simp] theorem State.setRing_ldg (s : State) (a : Nat) (b : TraceRing) : (s.setRing a b).ldg = s.ldg := rfl
@[simp] theorem State.setRing_host (s : State) (a : Nat) (b : TraceRing) : (s.setRing a b).host = s.host := rfl
@[simp] theorem State.setRing_sec (s : State) (a : Nat) (b : TraceRing) : (s.setRing a b).sec = s.sec := rfl
@[simp] theorem State.setRing_sbk (s : State) (a : Nat) (b : TraceRing) : (s.setRing a b).sbk = s.sbk := rfl
@[simp] theorem State.setRing_hlt (s : State) (a : Nat) (b : TraceRing) : (s.setRing a b).hlt = s.hlt := rfl

/-! ### setWcb -/

@[simp] theorem State.setWcb_pending (s : State) (a : Nat) (b : List WcbEntry) : (s.setWcb a b).pending = s.pending :=
  rfl
@[simp] theorem State.setWcb_regs (s : State) (a : Nat) (b : List WcbEntry) : (s.setWcb a b).regs = s.regs := rfl
@[simp] theorem State.setWcb_mem (s : State) (a : Nat) (b : List WcbEntry) : (s.setWcb a b).mem = s.mem := rfl
@[simp] theorem State.setWcb_free (s : State) (a : Nat) (b : List WcbEntry) : (s.setWcb a b).free = s.free := rfl
@[simp] theorem State.setWcb_out (s : State) (a : Nat) (b : List WcbEntry) : (s.setWcb a b).out = s.out := rfl
@[simp] theorem State.setWcb_heldOut (s : State) (a : Nat) (b : List WcbEntry) : (s.setWcb a b).heldOut = s.heldOut :=
  rfl
@[simp] theorem State.setWcb_boot (s : State) (a : Nat) (b : List WcbEntry) : (s.setWcb a b).boot = s.boot := rfl
@[simp] theorem State.setWcb_image (s : State) (a : Nat) (b : List WcbEntry) : (s.setWcb a b).image = s.image := rfl
@[simp] theorem State.setWcb_tick (s : State) (a : Nat) (b : List WcbEntry) : (s.setWcb a b).tick = s.tick := rfl
@[simp] theorem State.setWcb_adm (s : State) (a : Nat) (b : List WcbEntry) : (s.setWcb a b).adm = s.adm := rfl
@[simp] theorem State.setWcb_seg (s : State) (a : Nat) (b : List WcbEntry) : (s.setWcb a b).seg = s.seg := rfl
@[simp] theorem State.setWcb_me (s : State) (a : Nat) (b : List WcbEntry) : (s.setWcb a b).me = s.me := rfl
@[simp] theorem State.setWcb_ve (s : State) (a : Nat) (b : List WcbEntry) : (s.setWcb a b).ve = s.ve := rfl
@[simp] theorem State.setWcb_stl (s : State) (a : Nat) (b : List WcbEntry) : (s.setWcb a b).stl = s.stl := rfl
@[simp] theorem State.setWcb_upd (s : State) (a : Nat) (b : List WcbEntry) : (s.setWcb a b).upd = s.upd := rfl
@[simp] theorem State.setWcb_clo (s : State) (a : Nat) (b : List WcbEntry) : (s.setWcb a b).clo = s.clo := rfl
@[simp] theorem State.setWcb_trl (s : State) (a : Nat) (b : List WcbEntry) : (s.setWcb a b).trl = s.trl := rfl
@[simp] theorem State.setWcb_pyu (s : State) (a : Nat) (b : List WcbEntry) : (s.setWcb a b).pyu = s.pyu := rfl
@[simp] theorem State.setWcb_pwr (s : State) (a : Nat) (b : List WcbEntry) : (s.setWcb a b).pwr = s.pwr := rfl
@[simp] theorem State.setWcb_ldg (s : State) (a : Nat) (b : List WcbEntry) : (s.setWcb a b).ldg = s.ldg := rfl
@[simp] theorem State.setWcb_host (s : State) (a : Nat) (b : List WcbEntry) : (s.setWcb a b).host = s.host := rfl
@[simp] theorem State.setWcb_sec (s : State) (a : Nat) (b : List WcbEntry) : (s.setWcb a b).sec = s.sec := rfl
@[simp] theorem State.setWcb_sbk (s : State) (a : Nat) (b : List WcbEntry) : (s.setWcb a b).sbk = s.sbk := rfl
@[simp] theorem State.setWcb_hlt (s : State) (a : Nat) (b : List WcbEntry) : (s.setWcb a b).hlt = s.hlt := rfl
@[simp] theorem State.setWcb_bel (s : State) (a : Nat) (b : List WcbEntry) : (s.setWcb a b).bel = s.bel := rfl

/-! ### setWriteBacks -/

@[simp] theorem State.setWriteBacks_pending (s : State) (a : Nat) (b : List (Nat × List Byte)) : (s.setWriteBacks a b).pending = s.pending :=
  rfl
@[simp] theorem State.setWriteBacks_regs (s : State) (a : Nat) (b : List (Nat × List Byte)) : (s.setWriteBacks a b).regs = s.regs :=
  rfl
@[simp] theorem State.setWriteBacks_mem (s : State) (a : Nat) (b : List (Nat × List Byte)) : (s.setWriteBacks a b).mem = s.mem :=
  rfl
@[simp] theorem State.setWriteBacks_free (s : State) (a : Nat) (b : List (Nat × List Byte)) : (s.setWriteBacks a b).free = s.free :=
  rfl
@[simp] theorem State.setWriteBacks_out (s : State) (a : Nat) (b : List (Nat × List Byte)) : (s.setWriteBacks a b).out = s.out :=
  rfl
@[simp] theorem State.setWriteBacks_heldOut (s : State) (a : Nat) (b : List (Nat × List Byte)) : (s.setWriteBacks a b).heldOut = s.heldOut :=
  rfl
@[simp] theorem State.setWriteBacks_boot (s : State) (a : Nat) (b : List (Nat × List Byte)) : (s.setWriteBacks a b).boot = s.boot :=
  rfl
@[simp] theorem State.setWriteBacks_image (s : State) (a : Nat) (b : List (Nat × List Byte)) : (s.setWriteBacks a b).image = s.image :=
  rfl
@[simp] theorem State.setWriteBacks_tick (s : State) (a : Nat) (b : List (Nat × List Byte)) : (s.setWriteBacks a b).tick = s.tick :=
  rfl
@[simp] theorem State.setWriteBacks_adm (s : State) (a : Nat) (b : List (Nat × List Byte)) : (s.setWriteBacks a b).adm = s.adm :=
  rfl
@[simp] theorem State.setWriteBacks_seg (s : State) (a : Nat) (b : List (Nat × List Byte)) : (s.setWriteBacks a b).seg = s.seg :=
  rfl
@[simp] theorem State.setWriteBacks_me (s : State) (a : Nat) (b : List (Nat × List Byte)) : (s.setWriteBacks a b).me = s.me :=
  rfl
@[simp] theorem State.setWriteBacks_ve (s : State) (a : Nat) (b : List (Nat × List Byte)) : (s.setWriteBacks a b).ve = s.ve :=
  rfl
@[simp] theorem State.setWriteBacks_stl (s : State) (a : Nat) (b : List (Nat × List Byte)) : (s.setWriteBacks a b).stl = s.stl :=
  rfl
@[simp] theorem State.setWriteBacks_upd (s : State) (a : Nat) (b : List (Nat × List Byte)) : (s.setWriteBacks a b).upd = s.upd :=
  rfl
@[simp] theorem State.setWriteBacks_clo (s : State) (a : Nat) (b : List (Nat × List Byte)) : (s.setWriteBacks a b).clo = s.clo :=
  rfl
@[simp] theorem State.setWriteBacks_trl (s : State) (a : Nat) (b : List (Nat × List Byte)) : (s.setWriteBacks a b).trl = s.trl :=
  rfl
@[simp] theorem State.setWriteBacks_pyu (s : State) (a : Nat) (b : List (Nat × List Byte)) : (s.setWriteBacks a b).pyu = s.pyu :=
  rfl
@[simp] theorem State.setWriteBacks_pwr (s : State) (a : Nat) (b : List (Nat × List Byte)) : (s.setWriteBacks a b).pwr = s.pwr :=
  rfl
@[simp] theorem State.setWriteBacks_ldg (s : State) (a : Nat) (b : List (Nat × List Byte)) : (s.setWriteBacks a b).ldg = s.ldg :=
  rfl
@[simp] theorem State.setWriteBacks_host (s : State) (a : Nat) (b : List (Nat × List Byte)) : (s.setWriteBacks a b).host = s.host :=
  rfl
@[simp] theorem State.setWriteBacks_sec (s : State) (a : Nat) (b : List (Nat × List Byte)) : (s.setWriteBacks a b).sec = s.sec :=
  rfl
@[simp] theorem State.setWriteBacks_sbk (s : State) (a : Nat) (b : List (Nat × List Byte)) : (s.setWriteBacks a b).sbk = s.sbk :=
  rfl
@[simp] theorem State.setWriteBacks_hlt (s : State) (a : Nat) (b : List (Nat × List Byte)) : (s.setWriteBacks a b).hlt = s.hlt :=
  rfl
@[simp] theorem State.setWriteBacks_bel (s : State) (a : Nat) (b : List (Nat × List Byte)) : (s.setWriteBacks a b).bel = s.bel :=
  rfl

/-! ### dropBad -/

@[simp] theorem State.dropBad_pending (s : State) (a : Nat) (b : Nat) : (s.dropBad a b).pending = s.pending := rfl
@[simp] theorem State.dropBad_regs (s : State) (a : Nat) (b : Nat) : (s.dropBad a b).regs = s.regs := rfl
@[simp] theorem State.dropBad_mem (s : State) (a : Nat) (b : Nat) : (s.dropBad a b).mem = s.mem := rfl
@[simp] theorem State.dropBad_free (s : State) (a : Nat) (b : Nat) : (s.dropBad a b).free = s.free := rfl
@[simp] theorem State.dropBad_out (s : State) (a : Nat) (b : Nat) : (s.dropBad a b).out = s.out := rfl
@[simp] theorem State.dropBad_heldOut (s : State) (a : Nat) (b : Nat) : (s.dropBad a b).heldOut = s.heldOut := rfl
@[simp] theorem State.dropBad_boot (s : State) (a : Nat) (b : Nat) : (s.dropBad a b).boot = s.boot := rfl
@[simp] theorem State.dropBad_image (s : State) (a : Nat) (b : Nat) : (s.dropBad a b).image = s.image := rfl
@[simp] theorem State.dropBad_tick (s : State) (a : Nat) (b : Nat) : (s.dropBad a b).tick = s.tick := rfl
@[simp] theorem State.dropBad_adm (s : State) (a : Nat) (b : Nat) : (s.dropBad a b).adm = s.adm := rfl
@[simp] theorem State.dropBad_seg (s : State) (a : Nat) (b : Nat) : (s.dropBad a b).seg = s.seg := rfl
@[simp] theorem State.dropBad_me (s : State) (a : Nat) (b : Nat) : (s.dropBad a b).me = s.me := rfl
@[simp] theorem State.dropBad_ve (s : State) (a : Nat) (b : Nat) : (s.dropBad a b).ve = s.ve := rfl
@[simp] theorem State.dropBad_stl (s : State) (a : Nat) (b : Nat) : (s.dropBad a b).stl = s.stl := rfl
@[simp] theorem State.dropBad_upd (s : State) (a : Nat) (b : Nat) : (s.dropBad a b).upd = s.upd := rfl
@[simp] theorem State.dropBad_clo (s : State) (a : Nat) (b : Nat) : (s.dropBad a b).clo = s.clo := rfl
@[simp] theorem State.dropBad_trl (s : State) (a : Nat) (b : Nat) : (s.dropBad a b).trl = s.trl := rfl
@[simp] theorem State.dropBad_pyu (s : State) (a : Nat) (b : Nat) : (s.dropBad a b).pyu = s.pyu := rfl
@[simp] theorem State.dropBad_pwr (s : State) (a : Nat) (b : Nat) : (s.dropBad a b).pwr = s.pwr := rfl
@[simp] theorem State.dropBad_ldg (s : State) (a : Nat) (b : Nat) : (s.dropBad a b).ldg = s.ldg := rfl
@[simp] theorem State.dropBad_host (s : State) (a : Nat) (b : Nat) : (s.dropBad a b).host = s.host := rfl
@[simp] theorem State.dropBad_sec (s : State) (a : Nat) (b : Nat) : (s.dropBad a b).sec = s.sec := rfl
@[simp] theorem State.dropBad_sbk (s : State) (a : Nat) (b : Nat) : (s.dropBad a b).sbk = s.sbk := rfl
@[simp] theorem State.dropBad_hlt (s : State) (a : Nat) (b : Nat) : (s.dropBad a b).hlt = s.hlt := rfl
@[simp] theorem State.dropBad_bel (s : State) (a : Nat) (b : Nat) : (s.dropBad a b).bel = s.bel := rfl

/-! ### putBytes -/

@[simp] theorem State.putBytes_pending (s : State) (a : Nat) (b : List Byte) : (s.putBytes a b).pending = s.pending :=
  rfl
@[simp] theorem State.putBytes_regs (s : State) (a : Nat) (b : List Byte) : (s.putBytes a b).regs = s.regs := rfl
@[simp] theorem State.putBytes_free (s : State) (a : Nat) (b : List Byte) : (s.putBytes a b).free = s.free := rfl
@[simp] theorem State.putBytes_out (s : State) (a : Nat) (b : List Byte) : (s.putBytes a b).out = s.out := rfl
@[simp] theorem State.putBytes_heldOut (s : State) (a : Nat) (b : List Byte) : (s.putBytes a b).heldOut = s.heldOut :=
  rfl
@[simp] theorem State.putBytes_boot (s : State) (a : Nat) (b : List Byte) : (s.putBytes a b).boot = s.boot := rfl
@[simp] theorem State.putBytes_image (s : State) (a : Nat) (b : List Byte) : (s.putBytes a b).image = s.image := rfl
@[simp] theorem State.putBytes_tick (s : State) (a : Nat) (b : List Byte) : (s.putBytes a b).tick = s.tick := rfl
@[simp] theorem State.putBytes_adm (s : State) (a : Nat) (b : List Byte) : (s.putBytes a b).adm = s.adm := rfl
@[simp] theorem State.putBytes_seg (s : State) (a : Nat) (b : List Byte) : (s.putBytes a b).seg = s.seg := rfl
@[simp] theorem State.putBytes_me (s : State) (a : Nat) (b : List Byte) : (s.putBytes a b).me = s.me := rfl
@[simp] theorem State.putBytes_ve (s : State) (a : Nat) (b : List Byte) : (s.putBytes a b).ve = s.ve := rfl
@[simp] theorem State.putBytes_stl (s : State) (a : Nat) (b : List Byte) : (s.putBytes a b).stl = s.stl := rfl
@[simp] theorem State.putBytes_hbm (s : State) (a : Nat) (b : List Byte) : (s.putBytes a b).hbm = s.hbm := rfl
@[simp] theorem State.putBytes_upd (s : State) (a : Nat) (b : List Byte) : (s.putBytes a b).upd = s.upd := rfl
@[simp] theorem State.putBytes_clo (s : State) (a : Nat) (b : List Byte) : (s.putBytes a b).clo = s.clo := rfl
@[simp] theorem State.putBytes_trl (s : State) (a : Nat) (b : List Byte) : (s.putBytes a b).trl = s.trl := rfl
@[simp] theorem State.putBytes_pyu (s : State) (a : Nat) (b : List Byte) : (s.putBytes a b).pyu = s.pyu := rfl
@[simp] theorem State.putBytes_pwr (s : State) (a : Nat) (b : List Byte) : (s.putBytes a b).pwr = s.pwr := rfl
@[simp] theorem State.putBytes_ldg (s : State) (a : Nat) (b : List Byte) : (s.putBytes a b).ldg = s.ldg := rfl
@[simp] theorem State.putBytes_host (s : State) (a : Nat) (b : List Byte) : (s.putBytes a b).host = s.host := rfl
@[simp] theorem State.putBytes_sec (s : State) (a : Nat) (b : List Byte) : (s.putBytes a b).sec = s.sec := rfl
@[simp] theorem State.putBytes_sbk (s : State) (a : Nat) (b : List Byte) : (s.putBytes a b).sbk = s.sbk := rfl
@[simp] theorem State.putBytes_hlt (s : State) (a : Nat) (b : List Byte) : (s.putBytes a b).hlt = s.hlt := rfl
@[simp] theorem State.putBytes_bel (s : State) (a : Nat) (b : List Byte) : (s.putBytes a b).bel = s.bel := rfl

/-! ### mapStep -/

@[simp] theorem State.mapStep_pending (s : State) (a : RunStep → RunStep) : (s.mapStep a).pending = s.pending := rfl
@[simp] theorem State.mapStep_regs (s : State) (a : RunStep → RunStep) : (s.mapStep a).regs = s.regs := rfl
@[simp] theorem State.mapStep_mem (s : State) (a : RunStep → RunStep) : (s.mapStep a).mem = s.mem := rfl
@[simp] theorem State.mapStep_free (s : State) (a : RunStep → RunStep) : (s.mapStep a).free = s.free := rfl
@[simp] theorem State.mapStep_out (s : State) (a : RunStep → RunStep) : (s.mapStep a).out = s.out := rfl
@[simp] theorem State.mapStep_heldOut (s : State) (a : RunStep → RunStep) : (s.mapStep a).heldOut = s.heldOut := rfl
@[simp] theorem State.mapStep_boot (s : State) (a : RunStep → RunStep) : (s.mapStep a).boot = s.boot := rfl
@[simp] theorem State.mapStep_image (s : State) (a : RunStep → RunStep) : (s.mapStep a).image = s.image := rfl
@[simp] theorem State.mapStep_adm (s : State) (a : RunStep → RunStep) : (s.mapStep a).adm = s.adm := rfl
@[simp] theorem State.mapStep_seg (s : State) (a : RunStep → RunStep) : (s.mapStep a).seg = s.seg := rfl
@[simp] theorem State.mapStep_me (s : State) (a : RunStep → RunStep) : (s.mapStep a).me = s.me := rfl
@[simp] theorem State.mapStep_ve (s : State) (a : RunStep → RunStep) : (s.mapStep a).ve = s.ve := rfl
@[simp] theorem State.mapStep_stl (s : State) (a : RunStep → RunStep) : (s.mapStep a).stl = s.stl := rfl
@[simp] theorem State.mapStep_hbm (s : State) (a : RunStep → RunStep) : (s.mapStep a).hbm = s.hbm := rfl
@[simp] theorem State.mapStep_upd (s : State) (a : RunStep → RunStep) : (s.mapStep a).upd = s.upd := rfl
@[simp] theorem State.mapStep_clo (s : State) (a : RunStep → RunStep) : (s.mapStep a).clo = s.clo := rfl
@[simp] theorem State.mapStep_trl (s : State) (a : RunStep → RunStep) : (s.mapStep a).trl = s.trl := rfl
@[simp] theorem State.mapStep_pyu (s : State) (a : RunStep → RunStep) : (s.mapStep a).pyu = s.pyu := rfl
@[simp] theorem State.mapStep_pwr (s : State) (a : RunStep → RunStep) : (s.mapStep a).pwr = s.pwr := rfl
@[simp] theorem State.mapStep_ldg (s : State) (a : RunStep → RunStep) : (s.mapStep a).ldg = s.ldg := rfl
@[simp] theorem State.mapStep_host (s : State) (a : RunStep → RunStep) : (s.mapStep a).host = s.host := rfl
@[simp] theorem State.mapStep_sec (s : State) (a : RunStep → RunStep) : (s.mapStep a).sec = s.sec := rfl
@[simp] theorem State.mapStep_sbk (s : State) (a : RunStep → RunStep) : (s.mapStep a).sbk = s.sbk := rfl
@[simp] theorem State.mapStep_hlt (s : State) (a : RunStep → RunStep) : (s.mapStep a).hlt = s.hlt := rfl
@[simp] theorem State.mapStep_bel (s : State) (a : RunStep → RunStep) : (s.mapStep a).bel = s.bel := rfl

/-! ### setPlot -/

@[simp] theorem State.setPlot_pending (s : State) (a : Nat) (b : Plot) : (s.setPlot a b).pending = s.pending := rfl
@[simp] theorem State.setPlot_regs (s : State) (a : Nat) (b : Plot) : (s.setPlot a b).regs = s.regs := rfl
@[simp] theorem State.setPlot_mem (s : State) (a : Nat) (b : Plot) : (s.setPlot a b).mem = s.mem := rfl
@[simp] theorem State.setPlot_free (s : State) (a : Nat) (b : Plot) : (s.setPlot a b).free = s.free := rfl
@[simp] theorem State.setPlot_out (s : State) (a : Nat) (b : Plot) : (s.setPlot a b).out = s.out := rfl
@[simp] theorem State.setPlot_heldOut (s : State) (a : Nat) (b : Plot) : (s.setPlot a b).heldOut = s.heldOut := rfl
@[simp] theorem State.setPlot_boot (s : State) (a : Nat) (b : Plot) : (s.setPlot a b).boot = s.boot := rfl
@[simp] theorem State.setPlot_image (s : State) (a : Nat) (b : Plot) : (s.setPlot a b).image = s.image := rfl
@[simp] theorem State.setPlot_tick (s : State) (a : Nat) (b : Plot) : (s.setPlot a b).tick = s.tick := rfl
@[simp] theorem State.setPlot_adm (s : State) (a : Nat) (b : Plot) : (s.setPlot a b).adm = s.adm := rfl
@[simp] theorem State.setPlot_seg (s : State) (a : Nat) (b : Plot) : (s.setPlot a b).seg = s.seg := rfl
@[simp] theorem State.setPlot_me (s : State) (a : Nat) (b : Plot) : (s.setPlot a b).me = s.me := rfl
@[simp] theorem State.setPlot_ve (s : State) (a : Nat) (b : Plot) : (s.setPlot a b).ve = s.ve := rfl
@[simp] theorem State.setPlot_hbm (s : State) (a : Nat) (b : Plot) : (s.setPlot a b).hbm = s.hbm := rfl
@[simp] theorem State.setPlot_upd (s : State) (a : Nat) (b : Plot) : (s.setPlot a b).upd = s.upd := rfl
@[simp] theorem State.setPlot_clo (s : State) (a : Nat) (b : Plot) : (s.setPlot a b).clo = s.clo := rfl
@[simp] theorem State.setPlot_trl (s : State) (a : Nat) (b : Plot) : (s.setPlot a b).trl = s.trl := rfl
@[simp] theorem State.setPlot_pyu (s : State) (a : Nat) (b : Plot) : (s.setPlot a b).pyu = s.pyu := rfl
@[simp] theorem State.setPlot_pwr (s : State) (a : Nat) (b : Plot) : (s.setPlot a b).pwr = s.pwr := rfl
@[simp] theorem State.setPlot_ldg (s : State) (a : Nat) (b : Plot) : (s.setPlot a b).ldg = s.ldg := rfl
@[simp] theorem State.setPlot_host (s : State) (a : Nat) (b : Plot) : (s.setPlot a b).host = s.host := rfl
@[simp] theorem State.setPlot_sec (s : State) (a : Nat) (b : Plot) : (s.setPlot a b).sec = s.sec := rfl
@[simp] theorem State.setPlot_sbk (s : State) (a : Nat) (b : Plot) : (s.setPlot a b).sbk = s.sbk := rfl
@[simp] theorem State.setPlot_hlt (s : State) (a : Nat) (b : Plot) : (s.setPlot a b).hlt = s.hlt := rfl
@[simp] theorem State.setPlot_bel (s : State) (a : Nat) (b : Plot) : (s.setPlot a b).bel = s.bel := rfl

/-! ### mapPlots -/

@[simp] theorem State.mapPlots_pending (s : State) (a : Plot → Plot) : (s.mapPlots a).pending = s.pending := rfl
@[simp] theorem State.mapPlots_regs (s : State) (a : Plot → Plot) : (s.mapPlots a).regs = s.regs := rfl
@[simp] theorem State.mapPlots_mem (s : State) (a : Plot → Plot) : (s.mapPlots a).mem = s.mem := rfl
@[simp] theorem State.mapPlots_free (s : State) (a : Plot → Plot) : (s.mapPlots a).free = s.free := rfl
@[simp] theorem State.mapPlots_out (s : State) (a : Plot → Plot) : (s.mapPlots a).out = s.out := rfl
@[simp] theorem State.mapPlots_heldOut (s : State) (a : Plot → Plot) : (s.mapPlots a).heldOut = s.heldOut := rfl
@[simp] theorem State.mapPlots_boot (s : State) (a : Plot → Plot) : (s.mapPlots a).boot = s.boot := rfl
@[simp] theorem State.mapPlots_image (s : State) (a : Plot → Plot) : (s.mapPlots a).image = s.image := rfl
@[simp] theorem State.mapPlots_tick (s : State) (a : Plot → Plot) : (s.mapPlots a).tick = s.tick := rfl
@[simp] theorem State.mapPlots_adm (s : State) (a : Plot → Plot) : (s.mapPlots a).adm = s.adm := rfl
@[simp] theorem State.mapPlots_seg (s : State) (a : Plot → Plot) : (s.mapPlots a).seg = s.seg := rfl
@[simp] theorem State.mapPlots_me (s : State) (a : Plot → Plot) : (s.mapPlots a).me = s.me := rfl
@[simp] theorem State.mapPlots_ve (s : State) (a : Plot → Plot) : (s.mapPlots a).ve = s.ve := rfl
@[simp] theorem State.mapPlots_hbm (s : State) (a : Plot → Plot) : (s.mapPlots a).hbm = s.hbm := rfl
@[simp] theorem State.mapPlots_upd (s : State) (a : Plot → Plot) : (s.mapPlots a).upd = s.upd := rfl
@[simp] theorem State.mapPlots_clo (s : State) (a : Plot → Plot) : (s.mapPlots a).clo = s.clo := rfl
@[simp] theorem State.mapPlots_trl (s : State) (a : Plot → Plot) : (s.mapPlots a).trl = s.trl := rfl
@[simp] theorem State.mapPlots_pyu (s : State) (a : Plot → Plot) : (s.mapPlots a).pyu = s.pyu := rfl
@[simp] theorem State.mapPlots_pwr (s : State) (a : Plot → Plot) : (s.mapPlots a).pwr = s.pwr := rfl
@[simp] theorem State.mapPlots_ldg (s : State) (a : Plot → Plot) : (s.mapPlots a).ldg = s.ldg := rfl
@[simp] theorem State.mapPlots_host (s : State) (a : Plot → Plot) : (s.mapPlots a).host = s.host := rfl
@[simp] theorem State.mapPlots_sec (s : State) (a : Plot → Plot) : (s.mapPlots a).sec = s.sec := rfl
@[simp] theorem State.mapPlots_sbk (s : State) (a : Plot → Plot) : (s.mapPlots a).sbk = s.sbk := rfl
@[simp] theorem State.mapPlots_hlt (s : State) (a : Plot → Plot) : (s.mapPlots a).hlt = s.hlt := rfl
@[simp] theorem State.mapPlots_bel (s : State) (a : Plot → Plot) : (s.mapPlots a).bel = s.bel := rfl

/-! ### mapLdg -/

@[simp] theorem State.mapLdg_pending (s : State) (a : LodgeSt → LodgeSt) : (s.mapLdg a).pending = s.pending := rfl
@[simp] theorem State.mapLdg_regs (s : State) (a : LodgeSt → LodgeSt) : (s.mapLdg a).regs = s.regs := rfl
@[simp] theorem State.mapLdg_mem (s : State) (a : LodgeSt → LodgeSt) : (s.mapLdg a).mem = s.mem := rfl
@[simp] theorem State.mapLdg_free (s : State) (a : LodgeSt → LodgeSt) : (s.mapLdg a).free = s.free := rfl
@[simp] theorem State.mapLdg_out (s : State) (a : LodgeSt → LodgeSt) : (s.mapLdg a).out = s.out := rfl
@[simp] theorem State.mapLdg_heldOut (s : State) (a : LodgeSt → LodgeSt) : (s.mapLdg a).heldOut = s.heldOut := rfl
@[simp] theorem State.mapLdg_boot (s : State) (a : LodgeSt → LodgeSt) : (s.mapLdg a).boot = s.boot := rfl
@[simp] theorem State.mapLdg_image (s : State) (a : LodgeSt → LodgeSt) : (s.mapLdg a).image = s.image := rfl
@[simp] theorem State.mapLdg_tick (s : State) (a : LodgeSt → LodgeSt) : (s.mapLdg a).tick = s.tick := rfl
@[simp] theorem State.mapLdg_adm (s : State) (a : LodgeSt → LodgeSt) : (s.mapLdg a).adm = s.adm := rfl
@[simp] theorem State.mapLdg_seg (s : State) (a : LodgeSt → LodgeSt) : (s.mapLdg a).seg = s.seg := rfl
@[simp] theorem State.mapLdg_me (s : State) (a : LodgeSt → LodgeSt) : (s.mapLdg a).me = s.me := rfl
@[simp] theorem State.mapLdg_ve (s : State) (a : LodgeSt → LodgeSt) : (s.mapLdg a).ve = s.ve := rfl
@[simp] theorem State.mapLdg_stl (s : State) (a : LodgeSt → LodgeSt) : (s.mapLdg a).stl = s.stl := rfl
@[simp] theorem State.mapLdg_hbm (s : State) (a : LodgeSt → LodgeSt) : (s.mapLdg a).hbm = s.hbm := rfl
@[simp] theorem State.mapLdg_upd (s : State) (a : LodgeSt → LodgeSt) : (s.mapLdg a).upd = s.upd := rfl
@[simp] theorem State.mapLdg_clo (s : State) (a : LodgeSt → LodgeSt) : (s.mapLdg a).clo = s.clo := rfl
@[simp] theorem State.mapLdg_trl (s : State) (a : LodgeSt → LodgeSt) : (s.mapLdg a).trl = s.trl := rfl
@[simp] theorem State.mapLdg_pyu (s : State) (a : LodgeSt → LodgeSt) : (s.mapLdg a).pyu = s.pyu := rfl
@[simp] theorem State.mapLdg_pwr (s : State) (a : LodgeSt → LodgeSt) : (s.mapLdg a).pwr = s.pwr := rfl
@[simp] theorem State.mapLdg_host (s : State) (a : LodgeSt → LodgeSt) : (s.mapLdg a).host = s.host := rfl
@[simp] theorem State.mapLdg_sec (s : State) (a : LodgeSt → LodgeSt) : (s.mapLdg a).sec = s.sec := rfl
@[simp] theorem State.mapLdg_sbk (s : State) (a : LodgeSt → LodgeSt) : (s.mapLdg a).sbk = s.sbk := rfl
@[simp] theorem State.mapLdg_hlt (s : State) (a : LodgeSt → LodgeSt) : (s.mapLdg a).hlt = s.hlt := rfl
@[simp] theorem State.mapLdg_bel (s : State) (a : LodgeSt → LodgeSt) : (s.mapLdg a).bel = s.bel := rfl

/-! ### mapSec -/

@[simp] theorem State.mapSec_pending (s : State) (a : SecSt → SecSt) : (s.mapSec a).pending = s.pending := rfl
@[simp] theorem State.mapSec_regs (s : State) (a : SecSt → SecSt) : (s.mapSec a).regs = s.regs := rfl
@[simp] theorem State.mapSec_mem (s : State) (a : SecSt → SecSt) : (s.mapSec a).mem = s.mem := rfl
@[simp] theorem State.mapSec_free (s : State) (a : SecSt → SecSt) : (s.mapSec a).free = s.free := rfl
@[simp] theorem State.mapSec_out (s : State) (a : SecSt → SecSt) : (s.mapSec a).out = s.out := rfl
@[simp] theorem State.mapSec_heldOut (s : State) (a : SecSt → SecSt) : (s.mapSec a).heldOut = s.heldOut := rfl
@[simp] theorem State.mapSec_boot (s : State) (a : SecSt → SecSt) : (s.mapSec a).boot = s.boot := rfl
@[simp] theorem State.mapSec_image (s : State) (a : SecSt → SecSt) : (s.mapSec a).image = s.image := rfl
@[simp] theorem State.mapSec_tick (s : State) (a : SecSt → SecSt) : (s.mapSec a).tick = s.tick := rfl
@[simp] theorem State.mapSec_adm (s : State) (a : SecSt → SecSt) : (s.mapSec a).adm = s.adm := rfl
@[simp] theorem State.mapSec_seg (s : State) (a : SecSt → SecSt) : (s.mapSec a).seg = s.seg := rfl
@[simp] theorem State.mapSec_me (s : State) (a : SecSt → SecSt) : (s.mapSec a).me = s.me := rfl
@[simp] theorem State.mapSec_ve (s : State) (a : SecSt → SecSt) : (s.mapSec a).ve = s.ve := rfl
@[simp] theorem State.mapSec_stl (s : State) (a : SecSt → SecSt) : (s.mapSec a).stl = s.stl := rfl
@[simp] theorem State.mapSec_hbm (s : State) (a : SecSt → SecSt) : (s.mapSec a).hbm = s.hbm := rfl
@[simp] theorem State.mapSec_upd (s : State) (a : SecSt → SecSt) : (s.mapSec a).upd = s.upd := rfl
@[simp] theorem State.mapSec_clo (s : State) (a : SecSt → SecSt) : (s.mapSec a).clo = s.clo := rfl
@[simp] theorem State.mapSec_trl (s : State) (a : SecSt → SecSt) : (s.mapSec a).trl = s.trl := rfl
@[simp] theorem State.mapSec_pyu (s : State) (a : SecSt → SecSt) : (s.mapSec a).pyu = s.pyu := rfl
@[simp] theorem State.mapSec_pwr (s : State) (a : SecSt → SecSt) : (s.mapSec a).pwr = s.pwr := rfl
@[simp] theorem State.mapSec_ldg (s : State) (a : SecSt → SecSt) : (s.mapSec a).ldg = s.ldg := rfl
@[simp] theorem State.mapSec_host (s : State) (a : SecSt → SecSt) : (s.mapSec a).host = s.host := rfl
@[simp] theorem State.mapSec_sbk (s : State) (a : SecSt → SecSt) : (s.mapSec a).sbk = s.sbk := rfl
@[simp] theorem State.mapSec_hlt (s : State) (a : SecSt → SecSt) : (s.mapSec a).hlt = s.hlt := rfl
@[simp] theorem State.mapSec_bel (s : State) (a : SecSt → SecSt) : (s.mapSec a).bel = s.bel := rfl

/-! ### setStile -/

@[simp] theorem State.setStile_pending (s : State) (a : Nat) (b : Stile) : (s.setStile a b).pending = s.pending := rfl
@[simp] theorem State.setStile_regs (s : State) (a : Nat) (b : Stile) : (s.setStile a b).regs = s.regs := rfl
@[simp] theorem State.setStile_mem (s : State) (a : Nat) (b : Stile) : (s.setStile a b).mem = s.mem := rfl
@[simp] theorem State.setStile_free (s : State) (a : Nat) (b : Stile) : (s.setStile a b).free = s.free := rfl
@[simp] theorem State.setStile_out (s : State) (a : Nat) (b : Stile) : (s.setStile a b).out = s.out := rfl
@[simp] theorem State.setStile_heldOut (s : State) (a : Nat) (b : Stile) : (s.setStile a b).heldOut = s.heldOut := rfl
@[simp] theorem State.setStile_boot (s : State) (a : Nat) (b : Stile) : (s.setStile a b).boot = s.boot := rfl
@[simp] theorem State.setStile_image (s : State) (a : Nat) (b : Stile) : (s.setStile a b).image = s.image := rfl
@[simp] theorem State.setStile_tick (s : State) (a : Nat) (b : Stile) : (s.setStile a b).tick = s.tick := rfl
@[simp] theorem State.setStile_adm (s : State) (a : Nat) (b : Stile) : (s.setStile a b).adm = s.adm := rfl
@[simp] theorem State.setStile_seg (s : State) (a : Nat) (b : Stile) : (s.setStile a b).seg = s.seg := rfl
@[simp] theorem State.setStile_me (s : State) (a : Nat) (b : Stile) : (s.setStile a b).me = s.me := rfl
@[simp] theorem State.setStile_ve (s : State) (a : Nat) (b : Stile) : (s.setStile a b).ve = s.ve := rfl
@[simp] theorem State.setStile_hbm (s : State) (a : Nat) (b : Stile) : (s.setStile a b).hbm = s.hbm := rfl
@[simp] theorem State.setStile_upd (s : State) (a : Nat) (b : Stile) : (s.setStile a b).upd = s.upd := rfl
@[simp] theorem State.setStile_clo (s : State) (a : Nat) (b : Stile) : (s.setStile a b).clo = s.clo := rfl
@[simp] theorem State.setStile_trl (s : State) (a : Nat) (b : Stile) : (s.setStile a b).trl = s.trl := rfl
@[simp] theorem State.setStile_pyu (s : State) (a : Nat) (b : Stile) : (s.setStile a b).pyu = s.pyu := rfl
@[simp] theorem State.setStile_pwr (s : State) (a : Nat) (b : Stile) : (s.setStile a b).pwr = s.pwr := rfl
@[simp] theorem State.setStile_ldg (s : State) (a : Nat) (b : Stile) : (s.setStile a b).ldg = s.ldg := rfl
@[simp] theorem State.setStile_host (s : State) (a : Nat) (b : Stile) : (s.setStile a b).host = s.host := rfl
@[simp] theorem State.setStile_sec (s : State) (a : Nat) (b : Stile) : (s.setStile a b).sec = s.sec := rfl
@[simp] theorem State.setStile_sbk (s : State) (a : Nat) (b : Stile) : (s.setStile a b).sbk = s.sbk := rfl
@[simp] theorem State.setStile_hlt (s : State) (a : Nat) (b : Stile) : (s.setStile a b).hlt = s.hlt := rfl
@[simp] theorem State.setStile_bel (s : State) (a : Nat) (b : Stile) : (s.setStile a b).bel = s.bel := rfl

/-! ### setPort -/

@[simp] theorem State.setPort_pending (s : State) (a : Nat) (b : Port) : (s.setPort a b).pending = s.pending := rfl
@[simp] theorem State.setPort_regs (s : State) (a : Nat) (b : Port) : (s.setPort a b).regs = s.regs := rfl
@[simp] theorem State.setPort_mem (s : State) (a : Nat) (b : Port) : (s.setPort a b).mem = s.mem := rfl
@[simp] theorem State.setPort_free (s : State) (a : Nat) (b : Port) : (s.setPort a b).free = s.free := rfl
@[simp] theorem State.setPort_out (s : State) (a : Nat) (b : Port) : (s.setPort a b).out = s.out := rfl
@[simp] theorem State.setPort_heldOut (s : State) (a : Nat) (b : Port) : (s.setPort a b).heldOut = s.heldOut := rfl
@[simp] theorem State.setPort_boot (s : State) (a : Nat) (b : Port) : (s.setPort a b).boot = s.boot := rfl
@[simp] theorem State.setPort_image (s : State) (a : Nat) (b : Port) : (s.setPort a b).image = s.image := rfl
@[simp] theorem State.setPort_tick (s : State) (a : Nat) (b : Port) : (s.setPort a b).tick = s.tick := rfl
@[simp] theorem State.setPort_adm (s : State) (a : Nat) (b : Port) : (s.setPort a b).adm = s.adm := rfl
@[simp] theorem State.setPort_seg (s : State) (a : Nat) (b : Port) : (s.setPort a b).seg = s.seg := rfl
@[simp] theorem State.setPort_me (s : State) (a : Nat) (b : Port) : (s.setPort a b).me = s.me := rfl
@[simp] theorem State.setPort_ve (s : State) (a : Nat) (b : Port) : (s.setPort a b).ve = s.ve := rfl
@[simp] theorem State.setPort_stl (s : State) (a : Nat) (b : Port) : (s.setPort a b).stl = s.stl := rfl
@[simp] theorem State.setPort_hbm (s : State) (a : Nat) (b : Port) : (s.setPort a b).hbm = s.hbm := rfl
@[simp] theorem State.setPort_upd (s : State) (a : Nat) (b : Port) : (s.setPort a b).upd = s.upd := rfl
@[simp] theorem State.setPort_clo (s : State) (a : Nat) (b : Port) : (s.setPort a b).clo = s.clo := rfl
@[simp] theorem State.setPort_trl (s : State) (a : Nat) (b : Port) : (s.setPort a b).trl = s.trl := rfl
@[simp] theorem State.setPort_pwr (s : State) (a : Nat) (b : Port) : (s.setPort a b).pwr = s.pwr := rfl
@[simp] theorem State.setPort_ldg (s : State) (a : Nat) (b : Port) : (s.setPort a b).ldg = s.ldg := rfl
@[simp] theorem State.setPort_host (s : State) (a : Nat) (b : Port) : (s.setPort a b).host = s.host := rfl
@[simp] theorem State.setPort_sec (s : State) (a : Nat) (b : Port) : (s.setPort a b).sec = s.sec := rfl
@[simp] theorem State.setPort_sbk (s : State) (a : Nat) (b : Port) : (s.setPort a b).sbk = s.sbk := rfl
@[simp] theorem State.setPort_hlt (s : State) (a : Nat) (b : Port) : (s.setPort a b).hlt = s.hlt := rfl
@[simp] theorem State.setPort_bel (s : State) (a : Nat) (b : Port) : (s.setPort a b).bel = s.bel := rfl

/-! ### setEnd -/

@[simp] theorem State.setEnd_pending (s : State) (a : Nat) (b : Nat) (c : Bool) (d : LinkEnd) : (s.setEnd a b c d).pending = s.pending :=
  rfl
@[simp] theorem State.setEnd_regs (s : State) (a : Nat) (b : Nat) (c : Bool) (d : LinkEnd) : (s.setEnd a b c d).regs = s.regs :=
  rfl
@[simp] theorem State.setEnd_mem (s : State) (a : Nat) (b : Nat) (c : Bool) (d : LinkEnd) : (s.setEnd a b c d).mem = s.mem :=
  rfl
@[simp] theorem State.setEnd_free (s : State) (a : Nat) (b : Nat) (c : Bool) (d : LinkEnd) : (s.setEnd a b c d).free = s.free :=
  rfl
@[simp] theorem State.setEnd_out (s : State) (a : Nat) (b : Nat) (c : Bool) (d : LinkEnd) : (s.setEnd a b c d).out = s.out :=
  rfl
@[simp] theorem State.setEnd_heldOut (s : State) (a : Nat) (b : Nat) (c : Bool) (d : LinkEnd) : (s.setEnd a b c d).heldOut = s.heldOut :=
  rfl
@[simp] theorem State.setEnd_boot (s : State) (a : Nat) (b : Nat) (c : Bool) (d : LinkEnd) : (s.setEnd a b c d).boot = s.boot :=
  rfl
@[simp] theorem State.setEnd_image (s : State) (a : Nat) (b : Nat) (c : Bool) (d : LinkEnd) : (s.setEnd a b c d).image = s.image :=
  rfl
@[simp] theorem State.setEnd_tick (s : State) (a : Nat) (b : Nat) (c : Bool) (d : LinkEnd) : (s.setEnd a b c d).tick = s.tick :=
  rfl
@[simp] theorem State.setEnd_adm (s : State) (a : Nat) (b : Nat) (c : Bool) (d : LinkEnd) : (s.setEnd a b c d).adm = s.adm :=
  rfl
@[simp] theorem State.setEnd_seg (s : State) (a : Nat) (b : Nat) (c : Bool) (d : LinkEnd) : (s.setEnd a b c d).seg = s.seg :=
  rfl
@[simp] theorem State.setEnd_me (s : State) (a : Nat) (b : Nat) (c : Bool) (d : LinkEnd) : (s.setEnd a b c d).me = s.me :=
  rfl
@[simp] theorem State.setEnd_ve (s : State) (a : Nat) (b : Nat) (c : Bool) (d : LinkEnd) : (s.setEnd a b c d).ve = s.ve :=
  rfl
@[simp] theorem State.setEnd_stl (s : State) (a : Nat) (b : Nat) (c : Bool) (d : LinkEnd) : (s.setEnd a b c d).stl = s.stl :=
  rfl
@[simp] theorem State.setEnd_hbm (s : State) (a : Nat) (b : Nat) (c : Bool) (d : LinkEnd) : (s.setEnd a b c d).hbm = s.hbm :=
  rfl
@[simp] theorem State.setEnd_upd (s : State) (a : Nat) (b : Nat) (c : Bool) (d : LinkEnd) : (s.setEnd a b c d).upd = s.upd :=
  rfl
@[simp] theorem State.setEnd_clo (s : State) (a : Nat) (b : Nat) (c : Bool) (d : LinkEnd) : (s.setEnd a b c d).clo = s.clo :=
  rfl
@[simp] theorem State.setEnd_trl (s : State) (a : Nat) (b : Nat) (c : Bool) (d : LinkEnd) : (s.setEnd a b c d).trl = s.trl :=
  rfl
@[simp] theorem State.setEnd_pwr (s : State) (a : Nat) (b : Nat) (c : Bool) (d : LinkEnd) : (s.setEnd a b c d).pwr = s.pwr :=
  rfl
@[simp] theorem State.setEnd_ldg (s : State) (a : Nat) (b : Nat) (c : Bool) (d : LinkEnd) : (s.setEnd a b c d).ldg = s.ldg :=
  rfl
@[simp] theorem State.setEnd_host (s : State) (a : Nat) (b : Nat) (c : Bool) (d : LinkEnd) : (s.setEnd a b c d).host = s.host :=
  rfl
@[simp] theorem State.setEnd_sec (s : State) (a : Nat) (b : Nat) (c : Bool) (d : LinkEnd) : (s.setEnd a b c d).sec = s.sec :=
  rfl
@[simp] theorem State.setEnd_sbk (s : State) (a : Nat) (b : Nat) (c : Bool) (d : LinkEnd) : (s.setEnd a b c d).sbk = s.sbk :=
  rfl
@[simp] theorem State.setEnd_hlt (s : State) (a : Nat) (b : Nat) (c : Bool) (d : LinkEnd) : (s.setEnd a b c d).hlt = s.hlt :=
  rfl
@[simp] theorem State.setEnd_bel (s : State) (a : Nat) (b : Nat) (c : Bool) (d : LinkEnd) : (s.setEnd a b c d).bel = s.bel :=
  rfl

/-! ### setTx -/

@[simp] theorem State.setTx_pending (s : State) (a : Nat) (b : Nat) (c : TxStream) : (s.setTx a b c).pending = s.pending :=
  rfl
@[simp] theorem State.setTx_regs (s : State) (a : Nat) (b : Nat) (c : TxStream) : (s.setTx a b c).regs = s.regs := rfl
@[simp] theorem State.setTx_mem (s : State) (a : Nat) (b : Nat) (c : TxStream) : (s.setTx a b c).mem = s.mem := rfl
@[simp] theorem State.setTx_free (s : State) (a : Nat) (b : Nat) (c : TxStream) : (s.setTx a b c).free = s.free := rfl
@[simp] theorem State.setTx_out (s : State) (a : Nat) (b : Nat) (c : TxStream) : (s.setTx a b c).out = s.out := rfl
@[simp] theorem State.setTx_heldOut (s : State) (a : Nat) (b : Nat) (c : TxStream) : (s.setTx a b c).heldOut = s.heldOut :=
  rfl
@[simp] theorem State.setTx_boot (s : State) (a : Nat) (b : Nat) (c : TxStream) : (s.setTx a b c).boot = s.boot := rfl
@[simp] theorem State.setTx_image (s : State) (a : Nat) (b : Nat) (c : TxStream) : (s.setTx a b c).image = s.image :=
  rfl
@[simp] theorem State.setTx_tick (s : State) (a : Nat) (b : Nat) (c : TxStream) : (s.setTx a b c).tick = s.tick := rfl
@[simp] theorem State.setTx_adm (s : State) (a : Nat) (b : Nat) (c : TxStream) : (s.setTx a b c).adm = s.adm := rfl
@[simp] theorem State.setTx_seg (s : State) (a : Nat) (b : Nat) (c : TxStream) : (s.setTx a b c).seg = s.seg := rfl
@[simp] theorem State.setTx_me (s : State) (a : Nat) (b : Nat) (c : TxStream) : (s.setTx a b c).me = s.me := rfl
@[simp] theorem State.setTx_ve (s : State) (a : Nat) (b : Nat) (c : TxStream) : (s.setTx a b c).ve = s.ve := rfl
@[simp] theorem State.setTx_stl (s : State) (a : Nat) (b : Nat) (c : TxStream) : (s.setTx a b c).stl = s.stl := rfl
@[simp] theorem State.setTx_hbm (s : State) (a : Nat) (b : Nat) (c : TxStream) : (s.setTx a b c).hbm = s.hbm := rfl
@[simp] theorem State.setTx_upd (s : State) (a : Nat) (b : Nat) (c : TxStream) : (s.setTx a b c).upd = s.upd := rfl
@[simp] theorem State.setTx_clo (s : State) (a : Nat) (b : Nat) (c : TxStream) : (s.setTx a b c).clo = s.clo := rfl
@[simp] theorem State.setTx_trl (s : State) (a : Nat) (b : Nat) (c : TxStream) : (s.setTx a b c).trl = s.trl := rfl
@[simp] theorem State.setTx_pwr (s : State) (a : Nat) (b : Nat) (c : TxStream) : (s.setTx a b c).pwr = s.pwr := rfl
@[simp] theorem State.setTx_ldg (s : State) (a : Nat) (b : Nat) (c : TxStream) : (s.setTx a b c).ldg = s.ldg := rfl
@[simp] theorem State.setTx_host (s : State) (a : Nat) (b : Nat) (c : TxStream) : (s.setTx a b c).host = s.host := rfl
@[simp] theorem State.setTx_sec (s : State) (a : Nat) (b : Nat) (c : TxStream) : (s.setTx a b c).sec = s.sec := rfl
@[simp] theorem State.setTx_sbk (s : State) (a : Nat) (b : Nat) (c : TxStream) : (s.setTx a b c).sbk = s.sbk := rfl
@[simp] theorem State.setTx_hlt (s : State) (a : Nat) (b : Nat) (c : TxStream) : (s.setTx a b c).hlt = s.hlt := rfl
@[simp] theorem State.setTx_bel (s : State) (a : Nat) (b : Nat) (c : TxStream) : (s.setTx a b c).bel = s.bel := rfl

/-! ### setCommit -/

@[simp] theorem State.setCommit_pending (s : State) (a : CommitSt) : (s.setCommit a).pending = s.pending := rfl
@[simp] theorem State.setCommit_regs (s : State) (a : CommitSt) : (s.setCommit a).regs = s.regs := rfl
@[simp] theorem State.setCommit_mem (s : State) (a : CommitSt) : (s.setCommit a).mem = s.mem := rfl
@[simp] theorem State.setCommit_free (s : State) (a : CommitSt) : (s.setCommit a).free = s.free := rfl
@[simp] theorem State.setCommit_out (s : State) (a : CommitSt) : (s.setCommit a).out = s.out := rfl
@[simp] theorem State.setCommit_heldOut (s : State) (a : CommitSt) : (s.setCommit a).heldOut = s.heldOut := rfl
@[simp] theorem State.setCommit_boot (s : State) (a : CommitSt) : (s.setCommit a).boot = s.boot := rfl
@[simp] theorem State.setCommit_image (s : State) (a : CommitSt) : (s.setCommit a).image = s.image := rfl
@[simp] theorem State.setCommit_tick (s : State) (a : CommitSt) : (s.setCommit a).tick = s.tick := rfl
@[simp] theorem State.setCommit_adm (s : State) (a : CommitSt) : (s.setCommit a).adm = s.adm := rfl
@[simp] theorem State.setCommit_seg (s : State) (a : CommitSt) : (s.setCommit a).seg = s.seg := rfl
@[simp] theorem State.setCommit_me (s : State) (a : CommitSt) : (s.setCommit a).me = s.me := rfl
@[simp] theorem State.setCommit_ve (s : State) (a : CommitSt) : (s.setCommit a).ve = s.ve := rfl
@[simp] theorem State.setCommit_hbm (s : State) (a : CommitSt) : (s.setCommit a).hbm = s.hbm := rfl
@[simp] theorem State.setCommit_upd (s : State) (a : CommitSt) : (s.setCommit a).upd = s.upd := rfl
@[simp] theorem State.setCommit_clo (s : State) (a : CommitSt) : (s.setCommit a).clo = s.clo := rfl
@[simp] theorem State.setCommit_trl (s : State) (a : CommitSt) : (s.setCommit a).trl = s.trl := rfl
@[simp] theorem State.setCommit_pyu (s : State) (a : CommitSt) : (s.setCommit a).pyu = s.pyu := rfl
@[simp] theorem State.setCommit_pwr (s : State) (a : CommitSt) : (s.setCommit a).pwr = s.pwr := rfl
@[simp] theorem State.setCommit_ldg (s : State) (a : CommitSt) : (s.setCommit a).ldg = s.ldg := rfl
@[simp] theorem State.setCommit_host (s : State) (a : CommitSt) : (s.setCommit a).host = s.host := rfl
@[simp] theorem State.setCommit_sec (s : State) (a : CommitSt) : (s.setCommit a).sec = s.sec := rfl
@[simp] theorem State.setCommit_sbk (s : State) (a : CommitSt) : (s.setCommit a).sbk = s.sbk := rfl
@[simp] theorem State.setCommit_hlt (s : State) (a : CommitSt) : (s.setCommit a).hlt = s.hlt := rfl
@[simp] theorem State.setCommit_bel (s : State) (a : CommitSt) : (s.setCommit a).bel = s.bel := rfl

/-! ### setXch -/

@[simp] theorem State.setXch_pending (s : State) (a : Nat) (b : XchIn) : (s.setXch a b).pending = s.pending := rfl
@[simp] theorem State.setXch_regs (s : State) (a : Nat) (b : XchIn) : (s.setXch a b).regs = s.regs := rfl
@[simp] theorem State.setXch_mem (s : State) (a : Nat) (b : XchIn) : (s.setXch a b).mem = s.mem := rfl
@[simp] theorem State.setXch_free (s : State) (a : Nat) (b : XchIn) : (s.setXch a b).free = s.free := rfl
@[simp] theorem State.setXch_out (s : State) (a : Nat) (b : XchIn) : (s.setXch a b).out = s.out := rfl
@[simp] theorem State.setXch_heldOut (s : State) (a : Nat) (b : XchIn) : (s.setXch a b).heldOut = s.heldOut := rfl
@[simp] theorem State.setXch_boot (s : State) (a : Nat) (b : XchIn) : (s.setXch a b).boot = s.boot := rfl
@[simp] theorem State.setXch_image (s : State) (a : Nat) (b : XchIn) : (s.setXch a b).image = s.image := rfl
@[simp] theorem State.setXch_tick (s : State) (a : Nat) (b : XchIn) : (s.setXch a b).tick = s.tick := rfl
@[simp] theorem State.setXch_adm (s : State) (a : Nat) (b : XchIn) : (s.setXch a b).adm = s.adm := rfl
@[simp] theorem State.setXch_seg (s : State) (a : Nat) (b : XchIn) : (s.setXch a b).seg = s.seg := rfl
@[simp] theorem State.setXch_me (s : State) (a : Nat) (b : XchIn) : (s.setXch a b).me = s.me := rfl
@[simp] theorem State.setXch_ve (s : State) (a : Nat) (b : XchIn) : (s.setXch a b).ve = s.ve := rfl
@[simp] theorem State.setXch_stl (s : State) (a : Nat) (b : XchIn) : (s.setXch a b).stl = s.stl := rfl
@[simp] theorem State.setXch_hbm (s : State) (a : Nat) (b : XchIn) : (s.setXch a b).hbm = s.hbm := rfl
@[simp] theorem State.setXch_upd (s : State) (a : Nat) (b : XchIn) : (s.setXch a b).upd = s.upd := rfl
@[simp] theorem State.setXch_clo (s : State) (a : Nat) (b : XchIn) : (s.setXch a b).clo = s.clo := rfl
@[simp] theorem State.setXch_trl (s : State) (a : Nat) (b : XchIn) : (s.setXch a b).trl = s.trl := rfl
@[simp] theorem State.setXch_pwr (s : State) (a : Nat) (b : XchIn) : (s.setXch a b).pwr = s.pwr := rfl
@[simp] theorem State.setXch_ldg (s : State) (a : Nat) (b : XchIn) : (s.setXch a b).ldg = s.ldg := rfl
@[simp] theorem State.setXch_host (s : State) (a : Nat) (b : XchIn) : (s.setXch a b).host = s.host := rfl
@[simp] theorem State.setXch_sec (s : State) (a : Nat) (b : XchIn) : (s.setXch a b).sec = s.sec := rfl
@[simp] theorem State.setXch_sbk (s : State) (a : Nat) (b : XchIn) : (s.setXch a b).sbk = s.sbk := rfl
@[simp] theorem State.setXch_hlt (s : State) (a : Nat) (b : XchIn) : (s.setXch a b).hlt = s.hlt := rfl
@[simp] theorem State.setXch_bel (s : State) (a : Nat) (b : XchIn) : (s.setXch a b).bel = s.bel := rfl

/-! ### setLayer -/

@[simp] theorem State.setLayer_pending (s : State) (a : Nat) (b : LayerTot) : (s.setLayer a b).pending = s.pending :=
  rfl
@[simp] theorem State.setLayer_regs (s : State) (a : Nat) (b : LayerTot) : (s.setLayer a b).regs = s.regs := rfl
@[simp] theorem State.setLayer_mem (s : State) (a : Nat) (b : LayerTot) : (s.setLayer a b).mem = s.mem := rfl
@[simp] theorem State.setLayer_free (s : State) (a : Nat) (b : LayerTot) : (s.setLayer a b).free = s.free := rfl
@[simp] theorem State.setLayer_out (s : State) (a : Nat) (b : LayerTot) : (s.setLayer a b).out = s.out := rfl
@[simp] theorem State.setLayer_heldOut (s : State) (a : Nat) (b : LayerTot) : (s.setLayer a b).heldOut = s.heldOut :=
  rfl
@[simp] theorem State.setLayer_boot (s : State) (a : Nat) (b : LayerTot) : (s.setLayer a b).boot = s.boot := rfl
@[simp] theorem State.setLayer_image (s : State) (a : Nat) (b : LayerTot) : (s.setLayer a b).image = s.image := rfl
@[simp] theorem State.setLayer_tick (s : State) (a : Nat) (b : LayerTot) : (s.setLayer a b).tick = s.tick := rfl
@[simp] theorem State.setLayer_adm (s : State) (a : Nat) (b : LayerTot) : (s.setLayer a b).adm = s.adm := rfl
@[simp] theorem State.setLayer_me (s : State) (a : Nat) (b : LayerTot) : (s.setLayer a b).me = s.me := rfl
@[simp] theorem State.setLayer_ve (s : State) (a : Nat) (b : LayerTot) : (s.setLayer a b).ve = s.ve := rfl
@[simp] theorem State.setLayer_stl (s : State) (a : Nat) (b : LayerTot) : (s.setLayer a b).stl = s.stl := rfl
@[simp] theorem State.setLayer_hbm (s : State) (a : Nat) (b : LayerTot) : (s.setLayer a b).hbm = s.hbm := rfl
@[simp] theorem State.setLayer_upd (s : State) (a : Nat) (b : LayerTot) : (s.setLayer a b).upd = s.upd := rfl
@[simp] theorem State.setLayer_clo (s : State) (a : Nat) (b : LayerTot) : (s.setLayer a b).clo = s.clo := rfl
@[simp] theorem State.setLayer_trl (s : State) (a : Nat) (b : LayerTot) : (s.setLayer a b).trl = s.trl := rfl
@[simp] theorem State.setLayer_pyu (s : State) (a : Nat) (b : LayerTot) : (s.setLayer a b).pyu = s.pyu := rfl
@[simp] theorem State.setLayer_pwr (s : State) (a : Nat) (b : LayerTot) : (s.setLayer a b).pwr = s.pwr := rfl
@[simp] theorem State.setLayer_ldg (s : State) (a : Nat) (b : LayerTot) : (s.setLayer a b).ldg = s.ldg := rfl
@[simp] theorem State.setLayer_host (s : State) (a : Nat) (b : LayerTot) : (s.setLayer a b).host = s.host := rfl
@[simp] theorem State.setLayer_sec (s : State) (a : Nat) (b : LayerTot) : (s.setLayer a b).sec = s.sec := rfl
@[simp] theorem State.setLayer_sbk (s : State) (a : Nat) (b : LayerTot) : (s.setLayer a b).sbk = s.sbk := rfl
@[simp] theorem State.setLayer_hlt (s : State) (a : Nat) (b : LayerTot) : (s.setLayer a b).hlt = s.hlt := rfl
@[simp] theorem State.setLayer_bel (s : State) (a : Nat) (b : LayerTot) : (s.setLayer a b).bel = s.bel := rfl

/-! ### setRung -/

@[simp] theorem State.setRung_pending (s : State) (a : Nat) (b : Nat) (c : Nat) : (s.setRung a b c).pending = s.pending :=
  rfl
@[simp] theorem State.setRung_regs (s : State) (a : Nat) (b : Nat) (c : Nat) : (s.setRung a b c).regs = s.regs := rfl
@[simp] theorem State.setRung_mem (s : State) (a : Nat) (b : Nat) (c : Nat) : (s.setRung a b c).mem = s.mem := rfl
@[simp] theorem State.setRung_free (s : State) (a : Nat) (b : Nat) (c : Nat) : (s.setRung a b c).free = s.free := rfl
@[simp] theorem State.setRung_out (s : State) (a : Nat) (b : Nat) (c : Nat) : (s.setRung a b c).out = s.out := rfl
@[simp] theorem State.setRung_heldOut (s : State) (a : Nat) (b : Nat) (c : Nat) : (s.setRung a b c).heldOut = s.heldOut :=
  rfl
@[simp] theorem State.setRung_boot (s : State) (a : Nat) (b : Nat) (c : Nat) : (s.setRung a b c).boot = s.boot := rfl
@[simp] theorem State.setRung_image (s : State) (a : Nat) (b : Nat) (c : Nat) : (s.setRung a b c).image = s.image := rfl
@[simp] theorem State.setRung_tick (s : State) (a : Nat) (b : Nat) (c : Nat) : (s.setRung a b c).tick = s.tick := rfl
@[simp] theorem State.setRung_adm (s : State) (a : Nat) (b : Nat) (c : Nat) : (s.setRung a b c).adm = s.adm := rfl
@[simp] theorem State.setRung_me (s : State) (a : Nat) (b : Nat) (c : Nat) : (s.setRung a b c).me = s.me := rfl
@[simp] theorem State.setRung_ve (s : State) (a : Nat) (b : Nat) (c : Nat) : (s.setRung a b c).ve = s.ve := rfl
@[simp] theorem State.setRung_stl (s : State) (a : Nat) (b : Nat) (c : Nat) : (s.setRung a b c).stl = s.stl := rfl
@[simp] theorem State.setRung_hbm (s : State) (a : Nat) (b : Nat) (c : Nat) : (s.setRung a b c).hbm = s.hbm := rfl
@[simp] theorem State.setRung_upd (s : State) (a : Nat) (b : Nat) (c : Nat) : (s.setRung a b c).upd = s.upd := rfl
@[simp] theorem State.setRung_clo (s : State) (a : Nat) (b : Nat) (c : Nat) : (s.setRung a b c).clo = s.clo := rfl
@[simp] theorem State.setRung_trl (s : State) (a : Nat) (b : Nat) (c : Nat) : (s.setRung a b c).trl = s.trl := rfl
@[simp] theorem State.setRung_pyu (s : State) (a : Nat) (b : Nat) (c : Nat) : (s.setRung a b c).pyu = s.pyu := rfl
@[simp] theorem State.setRung_pwr (s : State) (a : Nat) (b : Nat) (c : Nat) : (s.setRung a b c).pwr = s.pwr := rfl
@[simp] theorem State.setRung_ldg (s : State) (a : Nat) (b : Nat) (c : Nat) : (s.setRung a b c).ldg = s.ldg := rfl
@[simp] theorem State.setRung_host (s : State) (a : Nat) (b : Nat) (c : Nat) : (s.setRung a b c).host = s.host := rfl
@[simp] theorem State.setRung_sec (s : State) (a : Nat) (b : Nat) (c : Nat) : (s.setRung a b c).sec = s.sec := rfl
@[simp] theorem State.setRung_sbk (s : State) (a : Nat) (b : Nat) (c : Nat) : (s.setRung a b c).sbk = s.sbk := rfl
@[simp] theorem State.setRung_hlt (s : State) (a : Nat) (b : Nat) (c : Nat) : (s.setRung a b c).hlt = s.hlt := rfl
@[simp] theorem State.setRung_bel (s : State) (a : Nat) (b : Nat) (c : Nat) : (s.setRung a b c).bel = s.bel := rfl

/-! ### setSred -/

@[simp] theorem State.setSred_pending (s : State) (a : Nat) (b : SRed) : (s.setSred a b).pending = s.pending := rfl
@[simp] theorem State.setSred_regs (s : State) (a : Nat) (b : SRed) : (s.setSred a b).regs = s.regs := rfl
@[simp] theorem State.setSred_mem (s : State) (a : Nat) (b : SRed) : (s.setSred a b).mem = s.mem := rfl
@[simp] theorem State.setSred_free (s : State) (a : Nat) (b : SRed) : (s.setSred a b).free = s.free := rfl
@[simp] theorem State.setSred_out (s : State) (a : Nat) (b : SRed) : (s.setSred a b).out = s.out := rfl
@[simp] theorem State.setSred_heldOut (s : State) (a : Nat) (b : SRed) : (s.setSred a b).heldOut = s.heldOut := rfl
@[simp] theorem State.setSred_boot (s : State) (a : Nat) (b : SRed) : (s.setSred a b).boot = s.boot := rfl
@[simp] theorem State.setSred_image (s : State) (a : Nat) (b : SRed) : (s.setSred a b).image = s.image := rfl
@[simp] theorem State.setSred_tick (s : State) (a : Nat) (b : SRed) : (s.setSred a b).tick = s.tick := rfl
@[simp] theorem State.setSred_adm (s : State) (a : Nat) (b : SRed) : (s.setSred a b).adm = s.adm := rfl
@[simp] theorem State.setSred_seg (s : State) (a : Nat) (b : SRed) : (s.setSred a b).seg = s.seg := rfl
@[simp] theorem State.setSred_me (s : State) (a : Nat) (b : SRed) : (s.setSred a b).me = s.me := rfl
@[simp] theorem State.setSred_ve (s : State) (a : Nat) (b : SRed) : (s.setSred a b).ve = s.ve := rfl
@[simp] theorem State.setSred_stl (s : State) (a : Nat) (b : SRed) : (s.setSred a b).stl = s.stl := rfl
@[simp] theorem State.setSred_hbm (s : State) (a : Nat) (b : SRed) : (s.setSred a b).hbm = s.hbm := rfl
@[simp] theorem State.setSred_upd (s : State) (a : Nat) (b : SRed) : (s.setSred a b).upd = s.upd := rfl
@[simp] theorem State.setSred_trl (s : State) (a : Nat) (b : SRed) : (s.setSred a b).trl = s.trl := rfl
@[simp] theorem State.setSred_pyu (s : State) (a : Nat) (b : SRed) : (s.setSred a b).pyu = s.pyu := rfl
@[simp] theorem State.setSred_pwr (s : State) (a : Nat) (b : SRed) : (s.setSred a b).pwr = s.pwr := rfl
@[simp] theorem State.setSred_ldg (s : State) (a : Nat) (b : SRed) : (s.setSred a b).ldg = s.ldg := rfl
@[simp] theorem State.setSred_host (s : State) (a : Nat) (b : SRed) : (s.setSred a b).host = s.host := rfl
@[simp] theorem State.setSred_sec (s : State) (a : Nat) (b : SRed) : (s.setSred a b).sec = s.sec := rfl
@[simp] theorem State.setSred_sbk (s : State) (a : Nat) (b : SRed) : (s.setSred a b).sbk = s.sbk := rfl
@[simp] theorem State.setSred_hlt (s : State) (a : Nat) (b : SRed) : (s.setSred a b).hlt = s.hlt := rfl
@[simp] theorem State.setSred_bel (s : State) (a : Nat) (b : SRed) : (s.setSred a b).bel = s.bel := rfl

/-! ### setVecs -/

@[simp] theorem State.setVecs_pending (s : State) (a : Nat) (b : Nat) (c : List SVec) : (s.setVecs a b c).pending = s.pending :=
  rfl
@[simp] theorem State.setVecs_regs (s : State) (a : Nat) (b : Nat) (c : List SVec) : (s.setVecs a b c).regs = s.regs :=
  rfl
@[simp] theorem State.setVecs_mem (s : State) (a : Nat) (b : Nat) (c : List SVec) : (s.setVecs a b c).mem = s.mem := rfl
@[simp] theorem State.setVecs_free (s : State) (a : Nat) (b : Nat) (c : List SVec) : (s.setVecs a b c).free = s.free :=
  rfl
@[simp] theorem State.setVecs_out (s : State) (a : Nat) (b : Nat) (c : List SVec) : (s.setVecs a b c).out = s.out := rfl
@[simp] theorem State.setVecs_heldOut (s : State) (a : Nat) (b : Nat) (c : List SVec) : (s.setVecs a b c).heldOut = s.heldOut :=
  rfl
@[simp] theorem State.setVecs_boot (s : State) (a : Nat) (b : Nat) (c : List SVec) : (s.setVecs a b c).boot = s.boot :=
  rfl
@[simp] theorem State.setVecs_image (s : State) (a : Nat) (b : Nat) (c : List SVec) : (s.setVecs a b c).image = s.image :=
  rfl
@[simp] theorem State.setVecs_tick (s : State) (a : Nat) (b : Nat) (c : List SVec) : (s.setVecs a b c).tick = s.tick :=
  rfl
@[simp] theorem State.setVecs_adm (s : State) (a : Nat) (b : Nat) (c : List SVec) : (s.setVecs a b c).adm = s.adm := rfl
@[simp] theorem State.setVecs_seg (s : State) (a : Nat) (b : Nat) (c : List SVec) : (s.setVecs a b c).seg = s.seg := rfl
@[simp] theorem State.setVecs_me (s : State) (a : Nat) (b : Nat) (c : List SVec) : (s.setVecs a b c).me = s.me := rfl
@[simp] theorem State.setVecs_ve (s : State) (a : Nat) (b : Nat) (c : List SVec) : (s.setVecs a b c).ve = s.ve := rfl
@[simp] theorem State.setVecs_stl (s : State) (a : Nat) (b : Nat) (c : List SVec) : (s.setVecs a b c).stl = s.stl := rfl
@[simp] theorem State.setVecs_hbm (s : State) (a : Nat) (b : Nat) (c : List SVec) : (s.setVecs a b c).hbm = s.hbm := rfl
@[simp] theorem State.setVecs_upd (s : State) (a : Nat) (b : Nat) (c : List SVec) : (s.setVecs a b c).upd = s.upd := rfl
@[simp] theorem State.setVecs_trl (s : State) (a : Nat) (b : Nat) (c : List SVec) : (s.setVecs a b c).trl = s.trl := rfl
@[simp] theorem State.setVecs_pyu (s : State) (a : Nat) (b : Nat) (c : List SVec) : (s.setVecs a b c).pyu = s.pyu := rfl
@[simp] theorem State.setVecs_pwr (s : State) (a : Nat) (b : Nat) (c : List SVec) : (s.setVecs a b c).pwr = s.pwr := rfl
@[simp] theorem State.setVecs_ldg (s : State) (a : Nat) (b : Nat) (c : List SVec) : (s.setVecs a b c).ldg = s.ldg := rfl
@[simp] theorem State.setVecs_host (s : State) (a : Nat) (b : Nat) (c : List SVec) : (s.setVecs a b c).host = s.host :=
  rfl
@[simp] theorem State.setVecs_sec (s : State) (a : Nat) (b : Nat) (c : List SVec) : (s.setVecs a b c).sec = s.sec := rfl
@[simp] theorem State.setVecs_sbk (s : State) (a : Nat) (b : Nat) (c : List SVec) : (s.setVecs a b c).sbk = s.sbk := rfl
@[simp] theorem State.setVecs_hlt (s : State) (a : Nat) (b : Nat) (c : List SVec) : (s.setVecs a b c).hlt = s.hlt := rfl
@[simp] theorem State.setVecs_bel (s : State) (a : Nat) (b : Nat) (c : List SVec) : (s.setVecs a b c).bel = s.bel := rfl

/-! ### setRingPlace -/

@[simp] theorem State.setRingPlace_pending (s : State) (a : Nat) (b : Nat) (c : Nat) : (s.setRingPlace a b c).pending = s.pending :=
  rfl
@[simp] theorem State.setRingPlace_regs (s : State) (a : Nat) (b : Nat) (c : Nat) : (s.setRingPlace a b c).regs = s.regs :=
  rfl
@[simp] theorem State.setRingPlace_mem (s : State) (a : Nat) (b : Nat) (c : Nat) : (s.setRingPlace a b c).mem = s.mem :=
  rfl
@[simp] theorem State.setRingPlace_free (s : State) (a : Nat) (b : Nat) (c : Nat) : (s.setRingPlace a b c).free = s.free :=
  rfl
@[simp] theorem State.setRingPlace_out (s : State) (a : Nat) (b : Nat) (c : Nat) : (s.setRingPlace a b c).out = s.out :=
  rfl
@[simp] theorem State.setRingPlace_heldOut (s : State) (a : Nat) (b : Nat) (c : Nat) : (s.setRingPlace a b c).heldOut = s.heldOut :=
  rfl
@[simp] theorem State.setRingPlace_boot (s : State) (a : Nat) (b : Nat) (c : Nat) : (s.setRingPlace a b c).boot = s.boot :=
  rfl
@[simp] theorem State.setRingPlace_image (s : State) (a : Nat) (b : Nat) (c : Nat) : (s.setRingPlace a b c).image = s.image :=
  rfl
@[simp] theorem State.setRingPlace_tick (s : State) (a : Nat) (b : Nat) (c : Nat) : (s.setRingPlace a b c).tick = s.tick :=
  rfl
@[simp] theorem State.setRingPlace_adm (s : State) (a : Nat) (b : Nat) (c : Nat) : (s.setRingPlace a b c).adm = s.adm :=
  rfl
@[simp] theorem State.setRingPlace_seg (s : State) (a : Nat) (b : Nat) (c : Nat) : (s.setRingPlace a b c).seg = s.seg :=
  rfl
@[simp] theorem State.setRingPlace_me (s : State) (a : Nat) (b : Nat) (c : Nat) : (s.setRingPlace a b c).me = s.me :=
  rfl
@[simp] theorem State.setRingPlace_ve (s : State) (a : Nat) (b : Nat) (c : Nat) : (s.setRingPlace a b c).ve = s.ve :=
  rfl
@[simp] theorem State.setRingPlace_stl (s : State) (a : Nat) (b : Nat) (c : Nat) : (s.setRingPlace a b c).stl = s.stl :=
  rfl
@[simp] theorem State.setRingPlace_hbm (s : State) (a : Nat) (b : Nat) (c : Nat) : (s.setRingPlace a b c).hbm = s.hbm :=
  rfl
@[simp] theorem State.setRingPlace_upd (s : State) (a : Nat) (b : Nat) (c : Nat) : (s.setRingPlace a b c).upd = s.upd :=
  rfl
@[simp] theorem State.setRingPlace_trl (s : State) (a : Nat) (b : Nat) (c : Nat) : (s.setRingPlace a b c).trl = s.trl :=
  rfl
@[simp] theorem State.setRingPlace_pyu (s : State) (a : Nat) (b : Nat) (c : Nat) : (s.setRingPlace a b c).pyu = s.pyu :=
  rfl
@[simp] theorem State.setRingPlace_pwr (s : State) (a : Nat) (b : Nat) (c : Nat) : (s.setRingPlace a b c).pwr = s.pwr :=
  rfl
@[simp] theorem State.setRingPlace_ldg (s : State) (a : Nat) (b : Nat) (c : Nat) : (s.setRingPlace a b c).ldg = s.ldg :=
  rfl
@[simp] theorem State.setRingPlace_host (s : State) (a : Nat) (b : Nat) (c : Nat) : (s.setRingPlace a b c).host = s.host :=
  rfl
@[simp] theorem State.setRingPlace_sec (s : State) (a : Nat) (b : Nat) (c : Nat) : (s.setRingPlace a b c).sec = s.sec :=
  rfl
@[simp] theorem State.setRingPlace_sbk (s : State) (a : Nat) (b : Nat) (c : Nat) : (s.setRingPlace a b c).sbk = s.sbk :=
  rfl
@[simp] theorem State.setRingPlace_hlt (s : State) (a : Nat) (b : Nat) (c : Nat) : (s.setRingPlace a b c).hlt = s.hlt :=
  rfl
@[simp] theorem State.setRingPlace_bel (s : State) (a : Nat) (b : Nat) (c : Nat) : (s.setRingPlace a b c).bel = s.bel :=
  rfl

/-! ### setFlights -/

@[simp] theorem State.setFlights_pending (s : State) (a : Nat) (b : List DmaFlight) : (s.setFlights a b).pending = s.pending :=
  rfl
@[simp] theorem State.setFlights_regs (s : State) (a : Nat) (b : List DmaFlight) : (s.setFlights a b).regs = s.regs :=
  rfl
@[simp] theorem State.setFlights_mem (s : State) (a : Nat) (b : List DmaFlight) : (s.setFlights a b).mem = s.mem := rfl
@[simp] theorem State.setFlights_free (s : State) (a : Nat) (b : List DmaFlight) : (s.setFlights a b).free = s.free :=
  rfl
@[simp] theorem State.setFlights_out (s : State) (a : Nat) (b : List DmaFlight) : (s.setFlights a b).out = s.out := rfl
@[simp] theorem State.setFlights_heldOut (s : State) (a : Nat) (b : List DmaFlight) : (s.setFlights a b).heldOut = s.heldOut :=
  rfl
@[simp] theorem State.setFlights_boot (s : State) (a : Nat) (b : List DmaFlight) : (s.setFlights a b).boot = s.boot :=
  rfl
@[simp] theorem State.setFlights_image (s : State) (a : Nat) (b : List DmaFlight) : (s.setFlights a b).image = s.image :=
  rfl
@[simp] theorem State.setFlights_tick (s : State) (a : Nat) (b : List DmaFlight) : (s.setFlights a b).tick = s.tick :=
  rfl
@[simp] theorem State.setFlights_adm (s : State) (a : Nat) (b : List DmaFlight) : (s.setFlights a b).adm = s.adm := rfl
@[simp] theorem State.setFlights_seg (s : State) (a : Nat) (b : List DmaFlight) : (s.setFlights a b).seg = s.seg := rfl
@[simp] theorem State.setFlights_me (s : State) (a : Nat) (b : List DmaFlight) : (s.setFlights a b).me = s.me := rfl
@[simp] theorem State.setFlights_ve (s : State) (a : Nat) (b : List DmaFlight) : (s.setFlights a b).ve = s.ve := rfl
@[simp] theorem State.setFlights_stl (s : State) (a : Nat) (b : List DmaFlight) : (s.setFlights a b).stl = s.stl := rfl
@[simp] theorem State.setFlights_hbm (s : State) (a : Nat) (b : List DmaFlight) : (s.setFlights a b).hbm = s.hbm := rfl
@[simp] theorem State.setFlights_upd (s : State) (a : Nat) (b : List DmaFlight) : (s.setFlights a b).upd = s.upd := rfl
@[simp] theorem State.setFlights_clo (s : State) (a : Nat) (b : List DmaFlight) : (s.setFlights a b).clo = s.clo := rfl
@[simp] theorem State.setFlights_trl (s : State) (a : Nat) (b : List DmaFlight) : (s.setFlights a b).trl = s.trl := rfl
@[simp] theorem State.setFlights_pyu (s : State) (a : Nat) (b : List DmaFlight) : (s.setFlights a b).pyu = s.pyu := rfl
@[simp] theorem State.setFlights_pwr (s : State) (a : Nat) (b : List DmaFlight) : (s.setFlights a b).pwr = s.pwr := rfl
@[simp] theorem State.setFlights_ldg (s : State) (a : Nat) (b : List DmaFlight) : (s.setFlights a b).ldg = s.ldg := rfl
@[simp] theorem State.setFlights_sec (s : State) (a : Nat) (b : List DmaFlight) : (s.setFlights a b).sec = s.sec := rfl
@[simp] theorem State.setFlights_sbk (s : State) (a : Nat) (b : List DmaFlight) : (s.setFlights a b).sbk = s.sbk := rfl
@[simp] theorem State.setFlights_hlt (s : State) (a : Nat) (b : List DmaFlight) : (s.setFlights a b).hlt = s.hlt := rfl
@[simp] theorem State.setFlights_bel (s : State) (a : Nat) (b : List DmaFlight) : (s.setFlights a b).bel = s.bel := rfl

/-! ### takeOne -/

@[simp] theorem State.takeOne_pending (s : State) (a : Nat) (b : Nat) : (s.takeOne a b).pending = s.pending := rfl
@[simp] theorem State.takeOne_regs (s : State) (a : Nat) (b : Nat) : (s.takeOne a b).regs = s.regs := rfl
@[simp] theorem State.takeOne_mem (s : State) (a : Nat) (b : Nat) : (s.takeOne a b).mem = s.mem := rfl
@[simp] theorem State.takeOne_free (s : State) (a : Nat) (b : Nat) : (s.takeOne a b).free = s.free := rfl
@[simp] theorem State.takeOne_out (s : State) (a : Nat) (b : Nat) : (s.takeOne a b).out = s.out := rfl
@[simp] theorem State.takeOne_heldOut (s : State) (a : Nat) (b : Nat) : (s.takeOne a b).heldOut = s.heldOut := rfl
@[simp] theorem State.takeOne_boot (s : State) (a : Nat) (b : Nat) : (s.takeOne a b).boot = s.boot := rfl
@[simp] theorem State.takeOne_image (s : State) (a : Nat) (b : Nat) : (s.takeOne a b).image = s.image := rfl
@[simp] theorem State.takeOne_tick (s : State) (a : Nat) (b : Nat) : (s.takeOne a b).tick = s.tick := rfl
@[simp] theorem State.takeOne_adm (s : State) (a : Nat) (b : Nat) : (s.takeOne a b).adm = s.adm := rfl
@[simp] theorem State.takeOne_seg (s : State) (a : Nat) (b : Nat) : (s.takeOne a b).seg = s.seg := rfl
@[simp] theorem State.takeOne_me (s : State) (a : Nat) (b : Nat) : (s.takeOne a b).me = s.me := rfl
@[simp] theorem State.takeOne_ve (s : State) (a : Nat) (b : Nat) : (s.takeOne a b).ve = s.ve := rfl
@[simp] theorem State.takeOne_stl (s : State) (a : Nat) (b : Nat) : (s.takeOne a b).stl = s.stl := rfl
@[simp] theorem State.takeOne_hbm (s : State) (a : Nat) (b : Nat) : (s.takeOne a b).hbm = s.hbm := rfl
@[simp] theorem State.takeOne_upd (s : State) (a : Nat) (b : Nat) : (s.takeOne a b).upd = s.upd := rfl
@[simp] theorem State.takeOne_trl (s : State) (a : Nat) (b : Nat) : (s.takeOne a b).trl = s.trl := rfl
@[simp] theorem State.takeOne_pyu (s : State) (a : Nat) (b : Nat) : (s.takeOne a b).pyu = s.pyu := rfl
@[simp] theorem State.takeOne_pwr (s : State) (a : Nat) (b : Nat) : (s.takeOne a b).pwr = s.pwr := rfl
@[simp] theorem State.takeOne_ldg (s : State) (a : Nat) (b : Nat) : (s.takeOne a b).ldg = s.ldg := rfl
@[simp] theorem State.takeOne_host (s : State) (a : Nat) (b : Nat) : (s.takeOne a b).host = s.host := rfl
@[simp] theorem State.takeOne_sec (s : State) (a : Nat) (b : Nat) : (s.takeOne a b).sec = s.sec := rfl
@[simp] theorem State.takeOne_sbk (s : State) (a : Nat) (b : Nat) : (s.takeOne a b).sbk = s.sbk := rfl
@[simp] theorem State.takeOne_hlt (s : State) (a : Nat) (b : Nat) : (s.takeOne a b).hlt = s.hlt := rfl
@[simp] theorem State.takeOne_bel (s : State) (a : Nat) (b : Nat) : (s.takeOne a b).bel = s.bel := rfl

/-! ### setStaged -/

@[simp] theorem State.setStaged_pending (s : State) (a : Nat) (b : Nat) (c : Staged) : (s.setStaged a b c).pending = s.pending :=
  rfl
@[simp] theorem State.setStaged_regs (s : State) (a : Nat) (b : Nat) (c : Staged) : (s.setStaged a b c).regs = s.regs :=
  rfl
@[simp] theorem State.setStaged_mem (s : State) (a : Nat) (b : Nat) (c : Staged) : (s.setStaged a b c).mem = s.mem :=
  rfl
@[simp] theorem State.setStaged_free (s : State) (a : Nat) (b : Nat) (c : Staged) : (s.setStaged a b c).free = s.free :=
  rfl
@[simp] theorem State.setStaged_out (s : State) (a : Nat) (b : Nat) (c : Staged) : (s.setStaged a b c).out = s.out :=
  rfl
@[simp] theorem State.setStaged_heldOut (s : State) (a : Nat) (b : Nat) (c : Staged) : (s.setStaged a b c).heldOut = s.heldOut :=
  rfl
@[simp] theorem State.setStaged_boot (s : State) (a : Nat) (b : Nat) (c : Staged) : (s.setStaged a b c).boot = s.boot :=
  rfl
@[simp] theorem State.setStaged_image (s : State) (a : Nat) (b : Nat) (c : Staged) : (s.setStaged a b c).image = s.image :=
  rfl
@[simp] theorem State.setStaged_tick (s : State) (a : Nat) (b : Nat) (c : Staged) : (s.setStaged a b c).tick = s.tick :=
  rfl
@[simp] theorem State.setStaged_adm (s : State) (a : Nat) (b : Nat) (c : Staged) : (s.setStaged a b c).adm = s.adm :=
  rfl
@[simp] theorem State.setStaged_me (s : State) (a : Nat) (b : Nat) (c : Staged) : (s.setStaged a b c).me = s.me := rfl
@[simp] theorem State.setStaged_ve (s : State) (a : Nat) (b : Nat) (c : Staged) : (s.setStaged a b c).ve = s.ve := rfl
@[simp] theorem State.setStaged_stl (s : State) (a : Nat) (b : Nat) (c : Staged) : (s.setStaged a b c).stl = s.stl :=
  rfl
@[simp] theorem State.setStaged_hbm (s : State) (a : Nat) (b : Nat) (c : Staged) : (s.setStaged a b c).hbm = s.hbm :=
  rfl
@[simp] theorem State.setStaged_upd (s : State) (a : Nat) (b : Nat) (c : Staged) : (s.setStaged a b c).upd = s.upd :=
  rfl
@[simp] theorem State.setStaged_clo (s : State) (a : Nat) (b : Nat) (c : Staged) : (s.setStaged a b c).clo = s.clo :=
  rfl
@[simp] theorem State.setStaged_trl (s : State) (a : Nat) (b : Nat) (c : Staged) : (s.setStaged a b c).trl = s.trl :=
  rfl
@[simp] theorem State.setStaged_pyu (s : State) (a : Nat) (b : Nat) (c : Staged) : (s.setStaged a b c).pyu = s.pyu :=
  rfl
@[simp] theorem State.setStaged_pwr (s : State) (a : Nat) (b : Nat) (c : Staged) : (s.setStaged a b c).pwr = s.pwr :=
  rfl
@[simp] theorem State.setStaged_ldg (s : State) (a : Nat) (b : Nat) (c : Staged) : (s.setStaged a b c).ldg = s.ldg :=
  rfl
@[simp] theorem State.setStaged_host (s : State) (a : Nat) (b : Nat) (c : Staged) : (s.setStaged a b c).host = s.host :=
  rfl
@[simp] theorem State.setStaged_sec (s : State) (a : Nat) (b : Nat) (c : Staged) : (s.setStaged a b c).sec = s.sec :=
  rfl
@[simp] theorem State.setStaged_sbk (s : State) (a : Nat) (b : Nat) (c : Staged) : (s.setStaged a b c).sbk = s.sbk :=
  rfl
@[simp] theorem State.setStaged_hlt (s : State) (a : Nat) (b : Nat) (c : Staged) : (s.setStaged a b c).hlt = s.hlt :=
  rfl
@[simp] theorem State.setStaged_bel (s : State) (a : Nat) (b : Nat) (c : Staged) : (s.setStaged a b c).bel = s.bel :=
  rfl

/-! ### setIdle -/

@[simp] theorem State.setIdle_pending (s : State) (a : Nat) (b : HeldBlock) : (s.setIdle a b).pending = s.pending := rfl
@[simp] theorem State.setIdle_regs (s : State) (a : Nat) (b : HeldBlock) : (s.setIdle a b).regs = s.regs := rfl
@[simp] theorem State.setIdle_mem (s : State) (a : Nat) (b : HeldBlock) : (s.setIdle a b).mem = s.mem := rfl
@[simp] theorem State.setIdle_free (s : State) (a : Nat) (b : HeldBlock) : (s.setIdle a b).free = s.free := rfl
@[simp] theorem State.setIdle_out (s : State) (a : Nat) (b : HeldBlock) : (s.setIdle a b).out = s.out := rfl
@[simp] theorem State.setIdle_heldOut (s : State) (a : Nat) (b : HeldBlock) : (s.setIdle a b).heldOut = s.heldOut := rfl
@[simp] theorem State.setIdle_boot (s : State) (a : Nat) (b : HeldBlock) : (s.setIdle a b).boot = s.boot := rfl
@[simp] theorem State.setIdle_image (s : State) (a : Nat) (b : HeldBlock) : (s.setIdle a b).image = s.image := rfl
@[simp] theorem State.setIdle_tick (s : State) (a : Nat) (b : HeldBlock) : (s.setIdle a b).tick = s.tick := rfl
@[simp] theorem State.setIdle_adm (s : State) (a : Nat) (b : HeldBlock) : (s.setIdle a b).adm = s.adm := rfl
@[simp] theorem State.setIdle_seg (s : State) (a : Nat) (b : HeldBlock) : (s.setIdle a b).seg = s.seg := rfl
@[simp] theorem State.setIdle_ve (s : State) (a : Nat) (b : HeldBlock) : (s.setIdle a b).ve = s.ve := rfl
@[simp] theorem State.setIdle_stl (s : State) (a : Nat) (b : HeldBlock) : (s.setIdle a b).stl = s.stl := rfl
@[simp] theorem State.setIdle_hbm (s : State) (a : Nat) (b : HeldBlock) : (s.setIdle a b).hbm = s.hbm := rfl
@[simp] theorem State.setIdle_upd (s : State) (a : Nat) (b : HeldBlock) : (s.setIdle a b).upd = s.upd := rfl
@[simp] theorem State.setIdle_clo (s : State) (a : Nat) (b : HeldBlock) : (s.setIdle a b).clo = s.clo := rfl
@[simp] theorem State.setIdle_trl (s : State) (a : Nat) (b : HeldBlock) : (s.setIdle a b).trl = s.trl := rfl
@[simp] theorem State.setIdle_pyu (s : State) (a : Nat) (b : HeldBlock) : (s.setIdle a b).pyu = s.pyu := rfl
@[simp] theorem State.setIdle_pwr (s : State) (a : Nat) (b : HeldBlock) : (s.setIdle a b).pwr = s.pwr := rfl
@[simp] theorem State.setIdle_ldg (s : State) (a : Nat) (b : HeldBlock) : (s.setIdle a b).ldg = s.ldg := rfl
@[simp] theorem State.setIdle_host (s : State) (a : Nat) (b : HeldBlock) : (s.setIdle a b).host = s.host := rfl
@[simp] theorem State.setIdle_sec (s : State) (a : Nat) (b : HeldBlock) : (s.setIdle a b).sec = s.sec := rfl
@[simp] theorem State.setIdle_sbk (s : State) (a : Nat) (b : HeldBlock) : (s.setIdle a b).sbk = s.sbk := rfl
@[simp] theorem State.setIdle_hlt (s : State) (a : Nat) (b : HeldBlock) : (s.setIdle a b).hlt = s.hlt := rfl
@[simp] theorem State.setIdle_bel (s : State) (a : Nat) (b : HeldBlock) : (s.setIdle a b).bel = s.bel := rfl

/-! ### setLanes -/

@[simp] theorem State.setLanes_pending (s : State) (a : Nat) (b : Nat) (c : List (Nat × Word)) : (s.setLanes a b c).pending = s.pending :=
  rfl
@[simp] theorem State.setLanes_regs (s : State) (a : Nat) (b : Nat) (c : List (Nat × Word)) : (s.setLanes a b c).regs = s.regs :=
  rfl
@[simp] theorem State.setLanes_mem (s : State) (a : Nat) (b : Nat) (c : List (Nat × Word)) : (s.setLanes a b c).mem = s.mem :=
  rfl
@[simp] theorem State.setLanes_free (s : State) (a : Nat) (b : Nat) (c : List (Nat × Word)) : (s.setLanes a b c).free = s.free :=
  rfl
@[simp] theorem State.setLanes_out (s : State) (a : Nat) (b : Nat) (c : List (Nat × Word)) : (s.setLanes a b c).out = s.out :=
  rfl
@[simp] theorem State.setLanes_heldOut (s : State) (a : Nat) (b : Nat) (c : List (Nat × Word)) : (s.setLanes a b c).heldOut = s.heldOut :=
  rfl
@[simp] theorem State.setLanes_boot (s : State) (a : Nat) (b : Nat) (c : List (Nat × Word)) : (s.setLanes a b c).boot = s.boot :=
  rfl
@[simp] theorem State.setLanes_image (s : State) (a : Nat) (b : Nat) (c : List (Nat × Word)) : (s.setLanes a b c).image = s.image :=
  rfl
@[simp] theorem State.setLanes_tick (s : State) (a : Nat) (b : Nat) (c : List (Nat × Word)) : (s.setLanes a b c).tick = s.tick :=
  rfl
@[simp] theorem State.setLanes_adm (s : State) (a : Nat) (b : Nat) (c : List (Nat × Word)) : (s.setLanes a b c).adm = s.adm :=
  rfl
@[simp] theorem State.setLanes_seg (s : State) (a : Nat) (b : Nat) (c : List (Nat × Word)) : (s.setLanes a b c).seg = s.seg :=
  rfl
@[simp] theorem State.setLanes_me (s : State) (a : Nat) (b : Nat) (c : List (Nat × Word)) : (s.setLanes a b c).me = s.me :=
  rfl
@[simp] theorem State.setLanes_stl (s : State) (a : Nat) (b : Nat) (c : List (Nat × Word)) : (s.setLanes a b c).stl = s.stl :=
  rfl
@[simp] theorem State.setLanes_hbm (s : State) (a : Nat) (b : Nat) (c : List (Nat × Word)) : (s.setLanes a b c).hbm = s.hbm :=
  rfl
@[simp] theorem State.setLanes_upd (s : State) (a : Nat) (b : Nat) (c : List (Nat × Word)) : (s.setLanes a b c).upd = s.upd :=
  rfl
@[simp] theorem State.setLanes_clo (s : State) (a : Nat) (b : Nat) (c : List (Nat × Word)) : (s.setLanes a b c).clo = s.clo :=
  rfl
@[simp] theorem State.setLanes_trl (s : State) (a : Nat) (b : Nat) (c : List (Nat × Word)) : (s.setLanes a b c).trl = s.trl :=
  rfl
@[simp] theorem State.setLanes_pyu (s : State) (a : Nat) (b : Nat) (c : List (Nat × Word)) : (s.setLanes a b c).pyu = s.pyu :=
  rfl
@[simp] theorem State.setLanes_pwr (s : State) (a : Nat) (b : Nat) (c : List (Nat × Word)) : (s.setLanes a b c).pwr = s.pwr :=
  rfl
@[simp] theorem State.setLanes_ldg (s : State) (a : Nat) (b : Nat) (c : List (Nat × Word)) : (s.setLanes a b c).ldg = s.ldg :=
  rfl
@[simp] theorem State.setLanes_host (s : State) (a : Nat) (b : Nat) (c : List (Nat × Word)) : (s.setLanes a b c).host = s.host :=
  rfl
@[simp] theorem State.setLanes_sec (s : State) (a : Nat) (b : Nat) (c : List (Nat × Word)) : (s.setLanes a b c).sec = s.sec :=
  rfl
@[simp] theorem State.setLanes_sbk (s : State) (a : Nat) (b : Nat) (c : List (Nat × Word)) : (s.setLanes a b c).sbk = s.sbk :=
  rfl
@[simp] theorem State.setLanes_hlt (s : State) (a : Nat) (b : Nat) (c : List (Nat × Word)) : (s.setLanes a b c).hlt = s.hlt :=
  rfl
@[simp] theorem State.setLanes_bel (s : State) (a : Nat) (b : Nat) (c : List (Nat × Word)) : (s.setLanes a b c).bel = s.bel :=
  rfl

/-! ### setVeWaiting -/

@[simp] theorem State.setVeWaiting_pending (s : State) (a : Nat) (b : List VeIssue) : (s.setVeWaiting a b).pending = s.pending :=
  rfl
@[simp] theorem State.setVeWaiting_regs (s : State) (a : Nat) (b : List VeIssue) : (s.setVeWaiting a b).regs = s.regs :=
  rfl
@[simp] theorem State.setVeWaiting_mem (s : State) (a : Nat) (b : List VeIssue) : (s.setVeWaiting a b).mem = s.mem :=
  rfl
@[simp] theorem State.setVeWaiting_free (s : State) (a : Nat) (b : List VeIssue) : (s.setVeWaiting a b).free = s.free :=
  rfl
@[simp] theorem State.setVeWaiting_out (s : State) (a : Nat) (b : List VeIssue) : (s.setVeWaiting a b).out = s.out :=
  rfl
@[simp] theorem State.setVeWaiting_heldOut (s : State) (a : Nat) (b : List VeIssue) : (s.setVeWaiting a b).heldOut = s.heldOut :=
  rfl
@[simp] theorem State.setVeWaiting_boot (s : State) (a : Nat) (b : List VeIssue) : (s.setVeWaiting a b).boot = s.boot :=
  rfl
@[simp] theorem State.setVeWaiting_image (s : State) (a : Nat) (b : List VeIssue) : (s.setVeWaiting a b).image = s.image :=
  rfl
@[simp] theorem State.setVeWaiting_tick (s : State) (a : Nat) (b : List VeIssue) : (s.setVeWaiting a b).tick = s.tick :=
  rfl
@[simp] theorem State.setVeWaiting_adm (s : State) (a : Nat) (b : List VeIssue) : (s.setVeWaiting a b).adm = s.adm :=
  rfl
@[simp] theorem State.setVeWaiting_seg (s : State) (a : Nat) (b : List VeIssue) : (s.setVeWaiting a b).seg = s.seg :=
  rfl
@[simp] theorem State.setVeWaiting_me (s : State) (a : Nat) (b : List VeIssue) : (s.setVeWaiting a b).me = s.me := rfl
@[simp] theorem State.setVeWaiting_stl (s : State) (a : Nat) (b : List VeIssue) : (s.setVeWaiting a b).stl = s.stl :=
  rfl
@[simp] theorem State.setVeWaiting_hbm (s : State) (a : Nat) (b : List VeIssue) : (s.setVeWaiting a b).hbm = s.hbm :=
  rfl
@[simp] theorem State.setVeWaiting_upd (s : State) (a : Nat) (b : List VeIssue) : (s.setVeWaiting a b).upd = s.upd :=
  rfl
@[simp] theorem State.setVeWaiting_clo (s : State) (a : Nat) (b : List VeIssue) : (s.setVeWaiting a b).clo = s.clo :=
  rfl
@[simp] theorem State.setVeWaiting_trl (s : State) (a : Nat) (b : List VeIssue) : (s.setVeWaiting a b).trl = s.trl :=
  rfl
@[simp] theorem State.setVeWaiting_pyu (s : State) (a : Nat) (b : List VeIssue) : (s.setVeWaiting a b).pyu = s.pyu :=
  rfl
@[simp] theorem State.setVeWaiting_pwr (s : State) (a : Nat) (b : List VeIssue) : (s.setVeWaiting a b).pwr = s.pwr :=
  rfl
@[simp] theorem State.setVeWaiting_ldg (s : State) (a : Nat) (b : List VeIssue) : (s.setVeWaiting a b).ldg = s.ldg :=
  rfl
@[simp] theorem State.setVeWaiting_host (s : State) (a : Nat) (b : List VeIssue) : (s.setVeWaiting a b).host = s.host :=
  rfl
@[simp] theorem State.setVeWaiting_sec (s : State) (a : Nat) (b : List VeIssue) : (s.setVeWaiting a b).sec = s.sec :=
  rfl
@[simp] theorem State.setVeWaiting_sbk (s : State) (a : Nat) (b : List VeIssue) : (s.setVeWaiting a b).sbk = s.sbk :=
  rfl
@[simp] theorem State.setVeWaiting_hlt (s : State) (a : Nat) (b : List VeIssue) : (s.setVeWaiting a b).hlt = s.hlt :=
  rfl
@[simp] theorem State.setVeWaiting_bel (s : State) (a : Nat) (b : List VeIssue) : (s.setVeWaiting a b).bel = s.bel :=
  rfl

end Sys2Proof.Machine
end

