-- ==== Sys2Proof/Tests/Slice0.lean ====
section
/-! SUPPORT. Small tests: an ill-formed command for each check of WellFormed, results that the spec works out, and for each
statement a state and operands that meet its hypotheses (theorems named witness). -/

namespace Sys2Proof.Tests

open Sys2Proof Sys2Proof.Machine

set_option Elab.async false

/-! ## Small states -/

/-- The job of one module: no peer, a ring of its own. -/
def alone : Topo := ⟨[], none, [], none, [], [⟨[0], 0, 0⟩], [], 0, 0⟩

def edgeStitch : Stitch := ⟨0, 0, 0, 0, false, false, false, 0, [0], [], [1], 0⟩

def commitStitch : Stitch := { edgeStitch with commit := true, stiles := [0] }

def rule0 : UpdateSet := ⟨0, 0x3F800000, 0, 0, 1, 0, 0, 0, 0x3F800000, 0, 0x3F800000, false, false, false, 4⟩

/-- An exchange of one expert on rank 0, of capacity 1. -/
def oneExpert : ExchangeStream := ⟨[(0, 0)], 1, [[1]], 0, 0, [], 0⟩

def sections : Sections where
  topo := alone
  pipelines := [[0]]
  routes := [⟨[], 0⟩]
  weights := [8, 8, 4, 4, 1, 1]
  tensors := [⟨0, 1, 2, false, some 0, some 4096, 4096, 1, 32, false, 2048⟩, ⟨0, 1, 2, true, some 8192, none, 4096, 1, 32, false, 10240⟩]
  classes := [⟨[.if8, .bf16], false, [], false, 0, 1⟩]
  rotate := []
  thresh := [⟨0, 0, 0xFFFF, 0, 0, 0, 0xFFFF, 0xFFFF⟩]
  cleanSteps := [(0, 1)]
  plot := ⟨[], 100, 4, 0, 0, 0⟩
  stiles := [⟨0, true, 9, 0, 100⟩, ⟨1, false, 0, 2, 0⟩]
  commits := [⟨0, 8, 10, 20, 30⟩]
  layouts := [[(0, 0, 0)]]
  primary := [edgeStitch, commitStitch]
  layerGroups := [(0, 0)]
  primaryMask := 0
  converts := []
  variants := [⟨1, 25, [edgeStitch, commitStitch]⟩]
  resole := 10
  maint := 1
  memory := 10
  floor := 1200
  emptyEstimate := 0
  seeds := List.replicate 128 1
  update := ⟨1, 0, 0, 0, 0, [rule0], []⟩
  streams := [oneExpert]
  usesExchange := false
  malformed := []

def header : ImageHeader := ⟨0x54534C47, 1, 256, 0x04740512, 15, 32352, 7, 9, 0, 1, 0, 0, 25, 0, 0xFF, 0, 0⟩

/-- The header of an image of two stitches, the second its commit stitch, for a module alone in its job. -/
def tiny : ImageFile := ⟨headerBytes header, sections⟩

/-- With another header. -/
def withHeader (h : ImageHeader) (f : ImageFile) : ImageFile := { f with raw := headerBytes h }

/-- The same image with another TOPO section, in a job of two modules. -/
def paired (x : Topo) : ImageFile := ⟨headerBytes { header with jobSize := 2 }, { sections with topo := x }⟩

/-- Rank 1 through port 0, directly. -/
def toRank1 : TopoPort := ⟨0, 8, .direct 1 0⟩

/-- Rank 0 and rank 1 in one ring over port 0. -/
def twoRing : RingEntry := ⟨[0, 1], 0, 0⟩

/-- A module that reaches rank 1 through port 0 and has it as child in both trees. -/
def parentTopo : Topo := ⟨[toRank1], none, [1], none, [(1, 1)], [twoRing], [], 0, 0⟩

/-- A module that reaches rank 1 through port 0 and has it as parent in both trees. -/
def childTopo : Topo := ⟨[toRank1], some 1, [], some 1, [], [twoRing], [], 0, 0⟩

/-- A module that has rank 1 as parent and rank 2 as child. -/
def middleTopo : Topo := ⟨[toRank1, ⟨1, 8, .direct 2 0⟩], some 1, [2], some 1, [(2, 2)], [twoRing], [], 0, 0⟩

/-- The words of the digest of a key of zero bytes. -/
def keyWords : List (Nat × Word) :=
  [(40, 3941770622), (41, 3733427358), (42, 2341557063), (43, 3943191487), (44, 409270929), (45, 1433150345), (46, 3035367639),
   (47, 912942809)]

/-- The seed bank with channels 0 to 7 in service and that key in slot 0. -/
def seeds : SeedBank where
  vals := (8, 0xFF) :: keyWords ++ [(56, 1)]
  wear := [8, 9, 10, 11, 12, 13, 14, 15, 40, 41, 42, 43, 44, 45, 46, 47, 56].map fun i => (i, 1)

/-- Off, with that seed bank. -/
def off : State := { State.reset with sbk := seeds }

/-- Started, without a host link. -/
def started : State :=
  { off with
    boot := { powered := true, step := 8, domains := 2, training := true, bank := some 0 }
    hbm := { trained := true, inService := 0xFF } }

/-- Started, with the host link up. -/
def up : State := started.setReg Reg.PCI_LINK 0x506

/-- With an image held in a given state. -/
def State.holding (s : State) (i : ImgState) (f : ImageFile) : State := { s with image := { st := i, file := some f, map := 0xFF } }

/-- A running step of slot 0. -/
def step0 : RunStep := ⟨0, 3, 1, 0, 0, none, false, false, false, false, none, none⟩

/-- RUNNING at tick 0 with no step. -/
def live : State := { State.holding up .running tiny with tick := { ticking := true } }

/-- RUNNING in the first stitch of a step. -/
def busy : State := { live with tick := { live.tick with step := some step0 } }

/-- RUNNING in the commit stitch of a step. -/
def committing : State := { busy with tick := { busy.tick with now := 1 } }

/-- A job of two modules, in the commit stitch. -/
def pair (x : Topo) : State := { committing with image := { committing.image with file := some (paired x) } }

/-- SHAKE256 of 64 zero bytes, as another program gives it. -/
def zeroDigest : Nat :=
  511587026277421385606262690278405390637656443363434286455755057591706183059103058092015495346056336612290515998439303888211103392141713239653623725729150

/-- The directory of the whole image: sections of 64 bytes from byte 1600 on. -/
def part (ty k : Nat) : DirEntry := ⟨ty, 1, 0, 1600 + 64 * k, 64, zeroDigest⟩

/-- The bytes of the whole image: every section of zeros, and a trailer of zeros. -/
def wholeRaw : List Byte :=
  headerBytes header ++ ([1, 2, 3, 4, 5, 7, 8, 9, 10, 11, 12, 13, 14, 15, 16].zipIdx.flatMap fun e => entryBytes (part e.1 e.2)) ++
    List.replicate 30776 0

/-- The whole of the image. -/
def whole : ImageFile := ⟨wholeRaw, sections⟩
/-! ## Commands -/

/-- A drain of the first tile to staging. -/
def drain : DrainOp := ⟨.held 0 false, .stage 0 [], 0, 0, 0, 0⟩

/-- A conversion of the first segment of tensor 0, with a place for each of two rungs. -/
def conv : ConvOp := ⟨0, 0, 0, 0, 100, 0, [5], [.tensor 0 1024, .tensor 256 1024], none, false, 0, 0, none, []⟩

/-- A view of the first segment of tensor 0, one element a row. -/
def view : View := ⟨0, 0, [.tensor 0 1024], none, none, 0, 64, 1⟩

def held : HeldLoad := ⟨0, view, .if8, 0, 1, false, false, none, 0, 0, 0, 0⟩

def pass : HeldPass := ⟨0, view, 1, 127, false, true, 0, 0, 0, 0, 0, 0, 0, 0, 0⟩

def gathered : GatheredPass := ⟨0, view, view, 128, 1, 0, 0, 0, 0, 0, 0, 0⟩

def thin : MvProduct := ⟨0, view, view, 8, 1, 65, 0, 0, 0⟩

/-- One FP32 addition of V1 and V2 into V3 under K1. -/
def chain : VChain :=
  ⟨.fp32, [⟨.add, .reg 1, .reg 2, .reg 0⟩], none, .reg 3, 1, false, [], 1, false, none, false, 0, none, 0, 0, 0, 0, 0, 0, []⟩

/-- A combination of one token's result. -/
def combine : ExpertCombine := ⟨0, 0, 4096, 1, 0, 0, ⟨0, 96, 32⟩, [8192], true, 16384⟩

def arrival : BlockArrival := ⟨3, 0⟩

/-- An addition of the block from the ring and one local contribution. -/
def addition : BlockAdd := ⟨3, 0, true, [4], none, ⟨[], []⟩, ⟨[], []⟩⟩

def sred : SReduce := ⟨3, .fsum, 1, .plain⟩

/-- An idle frame. -/
def idle : Frame := ⟨0, 0, 0, 0, 0, 0, 4095, false, 0, 0, 0, []⟩

def frameIn : FrameIn := ⟨idle, [], 0, false, [], [], none⟩

def samples : Samples := ⟨48000, 100000, List.replicate 128 50, List.replicate 8 50, List.replicate 32 50⟩

/-! ## Well-formed commands -/

theorem test_wf_holds : ([.tileDrain drain, .segmentConversionDone [conv], .heldBlockLoad held, .heldPass pass, .gatheredPass gathered,
    .mvProduct thin, .vectorChain 0 (.chain chain), .vectorChain 0 (.combine combine), .cloisterBlockArrival arrival,
    .blockAddition addition, .classSCombine sred false 0, .frameReceive 0 frameIn, .sensorSample samples] : List Instr).all
    Instr.wf = true := by decide +kernel

theorem test_wf_link_up : (Instr.linkUp 0 16 false).wf = false := by decide +kernel

theorem test_wf_start_message : (Instr.startMessageUp 1 32768).wf = false := by decide +kernel

theorem test_wf_maintenance_temps : (Instr.maintenanceSlot [1, 2, 3] []).wf = false := by decide +kernel

theorem test_wf_drain_staging : (Instr.tileDrain { drain with dest := .stage (2 ^ 41) [] }).wf = false := by decide +kernel

theorem test_wf_drain_encoder : (Instr.tileDrain { drain with dest := .encoder 0 31 }).wf = false ∧
    (Instr.tileDrain { drain with dest := .encoder 262144 0 }).wf = false := by decide +kernel

theorem test_wf_drain_scratchpad : (Instr.tileDrain { drain with dest := .scratchpad 0 2097152 0 }).wf = false := by decide +kernel

theorem test_wf_conversions_none : (Instr.segmentConversionDone []).wf = false := by decide +kernel

theorem test_wf_conversion_places : (Instr.segmentConversionDone [{ conv with places := [] }]).wf = false ∧
    (Instr.segmentConversionDone [{ conv with costs := [] }]).wf = false := by decide +kernel

theorem test_wf_conversion_plot : (Instr.segmentConversionDone [{ conv with plot := some 262144 }]).wf = false := by decide +kernel

theorem test_wf_held_first : (Instr.heldBlockLoad { held with first := 1 }).wf = false := by decide +kernel

theorem test_wf_pass_rows : (Instr.heldPass { pass with rows := 2 }).wf = false := by decide +kernel

theorem test_wf_gathered_rows : (Instr.gatheredPass { gathered with rows := 0 }).wf = false := by decide +kernel

theorem test_wf_thin_rows : (Instr.mvProduct { thin with rows := 9 }).wf = false := by decide +kernel

theorem test_wf_chain_empty : (Instr.vectorChain 0 (.chain { chain with stages := [] })).wf = false := by decide +kernel

theorem test_wf_combine_plot : (Instr.vectorChain 0 (.combine { combine with plot := 262144 })).wf = false ∧
    (Instr.vectorChain 0 (.combine { combine with inputs := List.replicate 513 0 })).wf = false := by decide +kernel

theorem test_wf_arbitration_twice : (Instr.dynamicArbitration 0 0 [⟨0, .trace⟩, ⟨0, .trace⟩] false 0).wf = false := by decide +kernel

theorem test_wf_read_wrong : (Instr.hbmRead 0 .scheduled 6 (some (4, List.replicate 64 0))).wf = false := by decide +kernel

theorem test_wf_retry_line : (Instr.hbmReadRetry 0 .scheduled 4 [] none).wf = false := by decide +kernel

theorem test_wf_scrub_wrong : (Instr.patrolScrub 0 6 (some (1, []))).wf = false := by decide +kernel

theorem test_wf_write : (Instr.hbmWrite (.to 0) []).wf = false ∧ (Instr.hbmWrite (.to (2 ^ 41)) [1]).wf = false := by decide +kernel

theorem test_wf_reject_none : (Instr.writeCrcReject 0 0).wf = false := by decide +kernel

theorem test_wf_atomic_aligned : (Instr.memoryAtomic .add .fp32 2 [0, 0, 0, 0] false).wf = false := by decide +kernel

theorem test_wf_atomic_short : (Instr.memoryAtomic .swap .raw 0 [0, 0] false).wf = false := by decide +kernel

theorem test_wf_atomic_raw : (Instr.memoryAtomic .add .raw 0 [0, 0, 0, 0] false).wf = false := by decide +kernel

theorem test_wf_timer_temps : (Instr.hbmTempTimer []).wf = false := by decide +kernel

theorem test_wf_scan_pin : (Instr.memScanDone [⟨0, 0, 0, 72⟩]).wf = false := by decide +kernel

theorem test_wf_block_plot : (Instr.cloisterBlockArrival { arrival with plot := 262144 }).wf = false := by decide +kernel

theorem test_wf_addition : (Instr.blockAddition { addition with locals := [] }).wf = false ∧
    (Instr.blockAddition { addition with locals := List.replicate 16 0 }).wf = false := by decide +kernel

theorem test_wf_combine_count : (Instr.classSCombine { sred with count := 33 } false 0).wf = false := by decide +kernel

theorem test_wf_result_count : (Instr.classSResult { sred with count := 33 } 0).wf = false := by decide +kernel

theorem test_wf_deadline_count : (Instr.classSDeadline { sred with count := 0 }).wf = false := by decide +kernel

theorem test_wf_frame_kind : (Instr.frameReceive 0 { frameIn with frame := { idle with kind := 16 } }).wf = false := by decide +kernel

theorem test_wf_append_empty : (Instr.chainAppend 0 []).wf = false := by decide +kernel

theorem test_wf_bar2_read : (Instr.bar2Read 0 0).wf = false := by decide +kernel

theorem test_wf_bar2_write : (Instr.bar2Write 0 []).wf = false := by decide +kernel

theorem test_wf_bad_access_good : (Instr.bar0BadAccess 8 8 true).wf = false := by decide +kernel

theorem test_wf_bad_access_size : (Instr.bar0BadAccess 8 3 true).wf = false := by decide +kernel

theorem test_wf_period_junctions : (Instr.powerControlPeriod []).wf = false := by decide +kernel

theorem test_wf_sample_sensors : (Instr.sensorSample { samples with stages := [] }).wf = false := by decide +kernel

theorem test_wf_write_offset : (Instr.registerWrite 67108864 4 0).wf = false := by decide +kernel

theorem test_wf_write_size : (Instr.registerWrite 0 2 0).wf = false ∧ (Instr.registerWrite 0 4 (2 ^ 32)).wf = false := by decide +kernel

theorem test_wf_resize : (Instr.configurationRequest (.resize 27)).wf = false := by decide +kernel

/-- An image of more than 1 GiB. -/
theorem test_wf_image_length (bs : List Byte) (h : 1073741824 < bs.length) :
    (Instr.imageFetchDone { tiny with raw := bs }).wf = false := by
  simpa [Instr.wf] using h
/-! ## Witnesses: the whole machine, start-up, link -/

theorem witness_StepRunsFrontCommand : ({ up with pending := [.load] } : State).pending = .load :: [] ∧ up.pending = [] ∧
    ∃ t, step up = .next t := ⟨rfl, rfl, _, rfl⟩

theorem reset_inv : State.reset.inv := by unfold State.inv; decide +kernel

theorem up_inv : up.inv := by unfold State.inv; decide +kernel

theorem live_inv : live.inv := by unfold State.inv; decide +kernel

theorem committing_inv : committing.inv := by unfold State.inv; decide +kernel

theorem up_hosted : up.hosted := by unfold State.hosted; decide +kernel

theorem live_hosted : live.hosted := by unfold State.hosted; decide +kernel

theorem up_managed : up.managed := by unfold State.managed; decide +kernel

theorem up_mailed : up.mailed := by unfold State.mailed; decide +kernel

theorem up_combineOk : up.combineOk := by unfold State.combineOk; decide +kernel

theorem up_enginesOk : up.enginesOk := by unfold State.enginesOk; decide +kernel

theorem witness_StepKeepsCanonicalStores : up.inv ∧ ∃ t, step up = .next t := ⟨up_inv, _, rfl⟩

theorem witness_StepKeepsRecords : ∃ t, step { up with pending := [.load] } = .next t := ⟨_, rfl⟩

theorem witness_EpochMovesByFlip : ∃ t, exec .commitRelease committing = .next t := ⟨_, rfl⟩

theorem witness_StatisticsClearsReset : clearOf (.memStatClr [(Reg.MEM_ATOMICS, 1)]) = some (clearedMem, [(Reg.MEM_ATOMICS, 1)]) ∧
    up.inv ∧ up.hosted ∧ amountOf [(Reg.MEM_ATOMICS, 1)] Reg.MEM_ATOMICS = some 1 ∧ Reg.MEM_ATOMICS ∈ clearedMem.plain.map Prod.fst ∧
    amountOf [(Reg.MEM_ATOMICS, 1)] Reg.MEM_CE_COUNT = none ∧ Reg.MEM_CE_COUNT ∈ clearedMem.banked ∧
    (Reg.MEM_WCB_EVICT, 0) ∈ clearedMem.plain ∧ amountOf [(Reg.MEM_ATOMICS, 1)] Reg.MEM_WCB_EVICT = none :=
  ⟨rfl, up_inv, up_hosted, by decide +kernel⟩

theorem witness_StartUpRuns :
    off.boot.powered = false ∧
    (let s : State := { off with boot := { powered := true } }
     s.boot.powered = true ∧ s.boot.step = 0) ∧
    (let s : State := { off with boot := { powered := true, step := 1, domains := 2 } }
     s.boot.powered = true ∧ 2 ≤ s.boot.domains ∧ s.boot.training = false ∧ (s.port 15).st = portOff ∧
       (List.range 8).any (laneInService (s.laneMap 15)) = true) ∧
    (let s : State := { up with pyu := { ports := [(15, { st := portTraining })] } }
     s.boot.training = true ∧ (s.port 15).st = portTraining) ∧
    (let s : State := { started with boot := { started.boot with step := 6 } }
     s.boot.step = 6 ∧ s.boot.failed = false ∧ 2 ≤ s.boot.domains) ∧
    (let s : State := { started with boot := { started.boot with step := 7 } }
     s.boot.step = 7 ∧ s.boot.heldLoad = false) ∧
    (let s : State := { started with boot := { started.boot with step := 7, heldLoad := true } }
     s.boot.step = 7 ∧ s.boot.heldLoad = true ∧ s.image.st = .empty ∧ s.busy = false) := by decide +kernel

/-- The header of a boot image without sections. -/
def bootHeader : List Byte := headerBytes { header with magic := 0x544F4247, sectionCount := 0, imageLength := 256 }

/-- At step 1 of the start-up, with that image in the active bank and nothing in the other. -/
def booting : State :=
  { off with boot := { powered := true, step := 1 }, sec := { banks := storeSetMany 0 [] 0 bootHeader } }

theorem witness_BootRomPicksBank :
    (Memory.wf booting.mem = true ∧ storeWf 0 booting.regs = true) ∧ booting.boot.powered = true ∧ booting.boot.step = 1 ∧
      booting.ldg.ps = .a0 ∧ booting.boot.fromA3 = false ∧ booting.activeBank = 0 ∧ booting.bankCode (booting.bootImage 1) ≠ 0 ∧
      off.bankCode (off.bootImage 0) ≠ 0 ∧ off.bankCode (off.bootImage 1) ≠ 0 := by decide +kernel

theorem booting_image : booting.bootImage 0 = some bootHeader := by decide +kernel

theorem bootHeader_checks : bootHeaderOk bootHeader = true ∧ (headerOf bootHeader).imageLength = 256 ∧
    (headerOf bootHeader).securityVersion = 0 ∧ bootSectionsOk bootHeader = true ∧ (booting.seed 34)[0] = false ∧ booting.bootFloor = 0 := by
  decide +kernel

/-- The active bank passes where a ROM key is the image's key and its signature verifies: both are free constants. -/
theorem witness_BootRomPicksBank_passes (hk : Config.bootKey 0 = digest256 (keyOf bootHeader))
    (hv : ∀ k m g, Config.slhVerify k m g = true) : booting.bankCode (booting.bootImage 0) = 0 := by
  obtain ⟨h1, h2, h3, h4, h5, h6⟩ := bootHeader_checks
  have hr : (booting.romKey bootHeader).isNone = false := by
    simp [State.romKey, List.find?, hk, h5]
  simp [booting_image, State.bankCode, h1, h2, h3, h4, h6, hr, trailerValid, hv, bankSize]

theorem witness_LinkAndResetsAct :
    (Memory.wf started.mem = true ∧ storeWf 0 started.regs = true) ∧
    (15 < 16 ∧ 31 < 32 ∧ started.boot.powered = true ∧ 2 ≤ started.boot.domains ∧ started.host.perst = false ∧
      started.linkUp = false) ∧ up.linkUp = true ∧
    (up.boot.powered = true ∧ up.host.waitingReset = none ∧ up.commitOpen = false) ∧
    (let s : State := { up with boot := { up.boot with step := 7 } }
     s.boot.powered = true ∧ s.host.waitingReset = none ∧ s.boot.step < 8) ∧
    (committing.boot.powered = true ∧ committing.host.waitingReset = none ∧ committing.commitOpen = true) ∧
    (let s : State := { up with host := { up.host with waitingReset := some .flr } }
     s.host.waitingReset = some .flr ∧ ResetKind.flr ≠ .perst) ∧
    (let s : State := { up with host := { up.host with perst := true } }
     s.host.perst = true ∧ s.asleep = false) ∧
    (let s : State := { started with host := { perst := true }, ldg := { ps := .a2 } }
     s.host.perst = true ∧ s.tripped = false ∧ s.ldg.entering = none ∧ s.ldg.waking = 0 ∧ s.ldg.ps = .a2) := by decide +kernel

/-! ## The checks of a whole image -/

/-- SHAKE256 of 64 zero bytes. -/
theorem test_zero_digest : digest512 (List.replicate 64 0) = zeroDigest := by decide +kernel

/-- Of the empty message, as FIPS 202 has it: 46b9dd2b 0ba88d13 … first. -/
theorem test_empty_digest : shake256 8 [] = [0x46, 0xB9, 0xDD, 0x2B, 0x0B, 0xA8, 0x8D, 0x13] := by decide +kernel

/-- Sections of 64 zero bytes with that digest pass step 7. -/
theorem digestCheck_zeros (f : ImageFile) (ds : List DirEntry)
    (h : ∀ d ∈ ds, rawBytes f.raw d.offset d.length = List.replicate 64 0 ∧ d.digest = zeroDigest) : digestCheck f ds = none := by
  induction ds with
  | nil => rfl
  | cons d ds ih =>
    have hd := h d (List.mem_cons_self ..)
    have hz : f.sectionDigest d = d.digest := by
      simp only [ImageFile.sectionDigest, sectionDigestOf]
      rw [hd.1, hd.2, test_zero_digest]
    simp only [digestCheck]
    rw [if_pos hz]
    exact ih fun e he => h e (List.mem_cons_of_mem _ he)

/-- With the whole of the image in memory. -/
def verifying : State := (State.holding up .verifying whole).setReg Reg.LAST_LEN 32352

theorem whole_sections : ∀ d ∈ whole.dir, rawBytes whole.raw d.offset d.length = List.replicate 64 0 ∧ d.digest = zeroDigest := by
  decide +kernel

theorem whole_header : whole.header = header ∧ whole.signedLength = 2560 := by decide +kernel

theorem whole_key : (verifying.keySlot whole.keyDigest).isSome = true ∧ (verifying.seed 35).toNat ≤ whole.header.securityVersion := by
  decide +kernel

theorem whole_dir : dirCheck whole.signedLength 0 (256 + 88 * whole.header.sectionCount) whole.dir = none := by decide +kernel

theorem whole_set : setCheck whole = none := by decide +kernel

theorem whole_binding : verifying.bindingCheck whole = none := by decide +kernel

theorem whole_content : contentCheck whole = none := by decide +kernel

theorem whole_structure : verifying.timingCheck whole = none ∧ structureCheck whole = none := by decide +kernel

/-- The image passes every check where its signature verifies, which is a free constant. -/
theorem witness_LoadsEndInAnImage_passes (hv : ∀ k m g, Config.slhVerify k m g = true) : verifying.imageCheck whole = none := by
  have h1 : headerCheck whole.header = none := by rw [whole_header.1]; decide +kernel
  have h2 : lengthCheck whole.header (verifying.regN Reg.LAST_LEN) = none := by rw [whole_header.1]; decide +kernel
  have h3 : verifying.trustCheck whole = none := by
    simp [State.trustCheck, firstFailure, need, ImageFile.sigValid, trailerValid, hv, whole_key.1, whole_key.2]
  simp [State.imageCheck, firstFailure, h1, h2, h3, whole_dir, digestCheck_zeros whole _ whole_sections, whole_set, whole_binding,
    whole_content, whole_structure.1, whole_structure.2]

theorem witness_LoadsEndInAnImage :
    (let s : State := { up with boot := { up.boot with step := 6 } }
     (Memory.wf s.mem = true ∧ storeWf 0 s.regs = true) ∧ (s.serving = true ∧ s.inA1 = false) ∧ s.boot.step < 8) ∧
    (8 ≤ up.boot.step ∧ up.image.st ≠ .loading ∧ up.image.st ≠ .verifying ∧ up.busy = false) ∧
    (8 ≤ verifying.boot.step ∧ verifying.image.st = .verifying) ∧
    (8 ≤ busy.boot.step ∧ busy.image.st ≠ .loading ∧ busy.image.st ≠ .verifying ∧ busy.busy = true) ∧
    (Memory.wf verifying.mem = true ∧ storeWf 0 verifying.regs = true) ∧ 2 ^ 64 - 1 < 2 ^ 64 ∧
    (State.holding up .loading tiny).image.st = .loading ∧ verifying.image.rechecking = none ∧
    up.imageCheck tiny = some ⟨2, 4, some 0x10⟩ := by decide +kernel

/-! ## Witnesses: the image -/

theorem witness_StartsRunTheJob :
    (let s := State.holding up .loaded tiny
     s.image.st = .loaded ∧ s.image.file = some tiny ∧ s.topoUp = true ∧ topoPeers tiny.sections.topo = [] ∧
       tiny.sections.topo.beaconChildren = [] ∧ tiny.sections.topo.beaconParent = none ∧ tiny.header.jobSize = 1) ∧
    (let s := State.holding up .loaded (paired parentTopo)
     s.image.st = .loaded ∧ s.topoUp = false) ∧
    (let s : State := { State.holding up .loaded (paired parentTopo) with pyu := { ports := [(0, { st := portUp })] } }
     s.topoUp = true ∧ topoPeers (paired parentTopo).sections.topo ≠ []) ∧
    up.image.st ≠ .loaded ∧
    (let f := paired middleTopo
     let s : State := { State.holding up .armed f with pyu := { ports := [(0, { st := portUp }), (1, { st := portUp })] } }
     (Memory.wf s.mem = true ∧ storeWf 0 s.regs = true) ∧ s.image.st = .armed ∧
       jobDiffers (s.exchangeMsg f) { s.exchangeMsg f with jobId := 8 } = true ∧ s.topoUp = true ∧
       (∃ p ∈ topoPeers f.sections.topo, p ≠ 1 ∧ p ∉ s.image.passed)) ∧
    (let s : State := { State.holding up .armed (paired middleTopo) with
        image := { st := .armed, file := some (paired middleTopo), exchanged := true, passed := [1, 2] },
        pyu := { ports := [(0, { st := portUp }), (1, { st := portUp })] } }
     s.image.st = .armed ∧ s.topoUp = true ∧ s.image.exchanged = true ∧ s.image.sentUp = false ∧
       (topoPeers middleTopo).all s.image.passed.contains = true ∧ middleTopo.beaconParent = some 1 ∧
       middleTopo.beaconChildren = [2] ∧ s.image.childUp = []) := by decide +kernel

theorem witness_StartsRunTheJob_agreed (s : State) (f : ImageFile) : jobDiffers (s.exchangeMsg f) (s.exchangeMsg f) = false := by
  simp [jobDiffers]

/-- The image held, its channel map changed. -/
def remapped : State :=
  { State.holding up .loaded tiny with image := { st := .loaded, file := some tiny, mapChanged := true } }

/-- The recheck of an image of nothing after A2: the region that it covers has no byte. -/
def rechecking : State :=
  { State.holding up .verifying (withHeader { header with imageLength := 29792 } tiny) with
    image := { st := .verifying, file := some (withHeader { header with imageLength := 29792 } tiny), rechecking := some .retired } }

theorem witness_ImagesEnd :
    verifying.image.st = .verifying ∧ busy.busy = true ∧ busy.image.st ≠ .loading ∧ busy.image.st ≠ .verifying ∧
    up.busy = false ∧ up.image.st ≠ .loading ∧ up.image.st ≠ .verifying ∧
    (remapped.image.mapChanged = true ∧ remapped.busy = false ∧ remapped.image.st = .loaded) ∧
    (let f := withHeader { header with imageLength := 29792 } tiny
     rechecking.image.rechecking = some .retired ∧ rechecking.image.file = some f ∧ rechecking.regionDigest f = f.digest) := by
  decide +kernel
/-! ## Witnesses: ticks, admission, tests -/

/-- The combination held for the next edge, which releases the step of slot 1. -/
def combined : Beacon := ⟨true, false, true, false, 0, 1, 4, 0, 0⟩

/-- A ticket for a slot. -/
def ticket (slot : Nat) : Ticket := ⟨4, slot, 7, 0, 5, 64, 1⟩

/-- At the last edge of slot 0, with a ticket running and one accepted for slot 1. -/
def closing : State :=
  { committing with
    tick := { committing.tick with held := some combined, latched := some 4 }
    adm := { accepted := [(0, ticket 0), (1, ticket 1)], freePlots := 2 } }

theorem witness_StitchesReportOrHalt :
    (Memory.wf live.mem = true ∧ storeWf 0 live.regs = true) ∧ live.tick.ticking = true ∧ live.tick.done = false ∧
    live.tick.stopped = false ∧ live.tick.own = none ∧ live.tick.overrun = false ∧ live.tick.held = none ∧
    live.image.st = .running ∧ live.topo? = some alone ∧ alone.beaconChildren = [] ∧ alone.beaconParent = none ∧
    live.jobSize = 1 ∧ live.tick.sentUp = false := by decide +kernel

theorem witness_EdgeClosesAndOpens :
    (Memory.wf closing.mem = true ∧ storeWf 0 closing.regs = true) ∧ closing.tick.ticking = true ∧
    closing.sections? = some sections ∧ closing.tick.held = some combined ∧ closing.lastOfSlot = true ∧
    closing.adm.accepted.find? (fun e => e.1 = closing.slotNow) = some (closing.slotNow, ticket 0) ∧
    closing.adm.accepted.find? (fun e => e.1 = closing.slotNow + 1) = some (closing.slotNow + 1, ticket 1) ∧
    closing.tick.latched = some 4 ∧ combined.holds = true ∧ combined.mismatch = false ∧
    closing.regN Reg.TICK_SLIP + (2 ^ 64 - 1) < 2 ^ 64 ∧ busy.lastOfSlot = false ∧ committing.tick.latched = none := by
  decide +kernel

theorem witness_MaintenanceSlotWorks :
    live.tick.ticking = true ∧ live.tick.inMaint = false ∧ live.tick.overrun = false ∧
    (let s : State := { live with tick := { live.tick with overrun := true } }
     s.tick.ticking = true ∧ s.tick.inMaint = false ∧ s.tick.overrun = true) := by decide +kernel

theorem live_combineOk : live.combineOk := by unfold State.combineOk; decide +kernel

theorem witness_MaintenanceSlotWorks_ports : (∀ p, (live.port p).sent.length + live.tick.maintDue < 64) ∧
    ∀ p, (live.port p).cursor = none := ⟨fun _ => (by decide : 0 + 0 < 64), fun _ => rfl⟩

/-- A doorbell whose ticket the gate has refused for its slot. -/
def bell : Doorbell := ⟨ticket 5, false, 1, .refuse 1 3⟩

/-- The registers of the gate ask for slot 5, with plots to give and an answer outstanding. -/
def asked : State :=
  { (live.setRegN Reg.ADM_TKT_SLOT 5).setRegN Reg.ADM_TKT_IMAGE 7 with adm := { bells := [bell], freePlots := 4 } }

theorem witness_DoorbellsAreDecided :
    ((Memory.wf asked.mem = true ∧ storeWf 0 asked.regs = true) ∧ (asked.serving = true ∧ asked.inA1 = false)) ∧
    asked.adm.bells.length < 8 ∧ 8 ≤ (List.replicate 8 bell).length ∧ asked.adm.bells = bell :: [] ∧
    asked.gateDecide asked.ticketRegs = .accept 5 11 ∧ live.gateDecide live.ticketRegs = .refuse 3 2 ∧
    bell.answer = .refuse 1 3 ∧ { bell with answer := .accept 5 11 }.answer = .accept 5 11 := by decide +kernel

theorem witness_AcceptedTicketsFit : asked.gateDecide asked.ticketRegs = .accept 5 11 ∧ asked.ticketRegs.slot ≠ 2 ^ 64 - 1 ∧
    asked.gateDecide (ticket (2 ^ 64 - 1)) = .accept 1 3 := by decide +kernel

theorem witness_PopsAndTestsRun :
    up.adm.unread = [] ∧ ({ up with adm := { unread := [⟨5, 4, 3, .clean, 0⟩] } } : State).adm.unread ≠ [] ∧
    up.idle = true ∧ 8 ≤ up.boot.step ∧ busy.idle = false ∧ up.testStatus .matrix = 0 ∧ up.testStatus .vector = 0 ∧
    (let s := up.setReg Reg.ME_TEST_CTRL 2
     s.testStatus .matrix = 1 ∧ (up.setReg Reg.VE_TEST_CTRL 2).testStatus .vector = 1 ∧
       (up.setReg Reg.VE_TEST_CTRL 4).testStatus .vector = 2) ∧
    (up.setReg Reg.MEM_TEST_CTRL 2).testStatus .memTest = 1 ∧ (up.setReg Reg.MEM_SCAN_CTRL 2).testStatus .memScan = 1 ∧
    up.touchesInService 0xFF00 = false ∧ up.touchesInService 0x710 = true ∧ (0x710 : Word).getLsbD 4 = true ∧
    live.image.st ≠ .empty ∧ up.image.st = .empty ∧ 71 < 72 ∧
    ({ up with me := { up.me with resetSince := true } } : State).me.resetSince = true ∧
    (let s : State := { State.holding up .loaded tiny with adm := { waiting := [.memTest, .vector] }, hbm := { up.hbm with testCtrl := 0x710 } }
     s.idle = true ∧ 8 ≤ s.boot.step ∧ .memTest ∈ s.adm.waiting ∧ s.marchRefused s.hbm.testCtrl = true ∧ .vector ∈ s.adm.waiting) := by
  decide +kernel

/-! ## Witnesses: tiles and segments -/

/-- Two elements staged as segment 0 of tensor 0, from the first byte of channel 0 in the channel window on, with the survey of
their block behind their tile. -/
def stagedAs (v w : Word) (runAhead : List Nat) (s : State) : State :=
  { s with
    mem := storeSetMany 0 (storeSetMany 0 [] (hbmKey 0 0) (leBytes 4 v.toNat ++ leBytes 4 w.toNat)) (hbmKey 0 32768)
      (surveyOf [v, w]).bytes
    seg := { s.seg with staged := [(segKey 0 0, ⟨2 ^ 39, runAhead, 0, 1, none⟩)] } }

/-- A class with a BF16 rung alone. -/
def bf16Class : FormatClass := ⟨[.bf16], false, [.bf16], false, 0, 1⟩

/-- A class with a wider rung. -/
def if8Class : FormatClass := ⟨[.if8, .bf16], false, [], false, 0, 1⟩

/-- The busy module, its sections replaced. -/
def busyWith (x : Sections) : State := { busy with image := { busy.image with file := some { tiny with sections := x } } }

/-- With class 0 replaced, and two elements staged. -/
def converting (fc : FormatClass) (w : Word) (denied : Bool) : State :=
  stagedAs 0x3F800000 w [] { busyWith { sections with classes := [fc] } with
    tick := { busy.tick with step := some { step0 with denied := denied } } }

/-- Whether the conversion of the staged segment crosses a limit, as its statement names it. -/
def crossesIn (s : State) (op : ConvOp) : Bool :=
  match s.segCtx op with
  | some x => segCross x.lim (elemCount x.ext) (s.blockCounts x (s.convertAt x (s.firstJob op op.cycle op.remaining).rung))
  | none => false

/-- The context that a conversion has, with its elements. -/
def ctxIn (s : State) (op : ConvOp) : Option (FormatClass × Nat) := (s.segCtx op).map fun x => (x.fc, elemCount x.ext)

theorem witness_DrainsConvertAndRelease :
    (Memory.wf up.mem = true ∧ storeWf 0 up.regs = true) ∧ (Instr.tileDrain drain).wf = true ∧
    (Instr.tileDrain { drain with dest := .scratchpad 0 0 0 }).wf = true ∧
    (Instr.tileDrain { drain with dest := .encoder 4 0 }).wf = true ∧ live.segComplete conv = false ∧
    (let s := stagedAs 1 1 [1] live
     s.segComplete conv = true ∧ s.mayGo conv = false) ∧
    (let s := converting bf16Class 0x3F800000 false
     (Memory.wf s.mem = true ∧ storeWf 0 s.regs = true) ∧ storeWf emptyStaged s.seg.staged = true ∧ storeWf 0 s.seg.rungs = true ∧
       storeWf {} s.stl.plots = true ∧ s.segComplete conv = true ∧ s.mayGo conv = true ∧ s.seg.waiting = [] ∧
       conv.instEnd = false ∧ ctxIn s conv = some (bf16Class, 2)) := by decide +kernel

/-- A tile with an element that is not finite, drained to an encoder within a step. -/
theorem witness_drain_nonfinite :
    (let s : State := { busy with me := { busy.me with tile := [(0, 0x7F800000)] } }
     (s.drainedNf { drain with dest := .encoder 4 0 }).isSome = true ∧ s.tick.step.isSome = true) := by decide +kernel

/-- A value that BF16 holds crosses no limit. -/
theorem witness_conversion_clean : crossesIn (converting bf16Class 0x3F800000 false) conv = false := by decide +kernel

/-- One that becomes zero crosses the limit of no zeros. -/
theorem witness_conversion_crosses : crossesIn (converting bf16Class 0x00000001 false) conv = true ∧
    crossesIn (converting bf16Class 0x00000001 true) conv = true := by decide +kernel

/-- With a wider rung, with the reserve and without it, and after a denial. -/
theorem witness_conversion_resoles : (let s := converting if8Class 0x00000001 false
    crossesIn s conv = true ∧ ctxIn s conv = some (if8Class, 2) ∧ (s.firstJob conv conv.cycle conv.remaining).rung = 0 ∧
      if8Class.ladder.length = 0 + 2 ∧ s.deniedStep = false ∧
      s.grants conv.cycle conv.remaining (conv.costs.getD 0 0) = true ∧ s.grants conv.cycle conv.remaining 60000 = false ∧
      s.tick.step = some step0 ∧ step0.voted = false ∧ step0.cause = none ∧
      (converting if8Class 0x00000001 true).deniedStep = true) := by decide +kernel

/-! ## Witnesses: engines -/

/-- With a rotation of size 16 for class 0. -/
def rotating : State := busyWith { sections with rotate := [⟨0, 16, 0⟩] }

/-- A held block that runs under that rotation. -/
def rotatedBlock : HeldBlock := ⟨.if8, 16, 0, 16, [], some ⟨16, 0⟩, false⟩

theorem witness_HeldBlocksMultiply : (Instr.heldBlockLoad held).wf = true ∧
    (busy.rotationFor held.marked held.view.tensor = none ∧ held.across = false) ∧
    (busy.rotationFor held.marked held.view.tensor = none ∧ { held with across := true }.across = true) ∧
    rotating.rotationFor true held.view.tensor = some ⟨16, 0⟩ ∧ (Instr.heldPass pass).wf = true ∧
    (let s : State := { busy with me := { busy.me with banks := [(1, rotatedBlock)] } }
     (s.heldBlock (2 * (pass.engine : Nat) + 1)).rot = some ⟨16, 0⟩) := by decide +kernel

theorem witness_GatheredAndThinProducts : up.enginesOk ∧ (Instr.gatheredPass gathered).wf = true ∧ (Instr.mvProduct thin).wf = true :=
  ⟨up_enginesOk, by decide +kernel⟩

theorem busy_enginesOk : busy.enginesOk := by unfold State.enginesOk; decide +kernel

theorem witness_VectorChainsRun :
    (busy.enginesOk ∧ busy.veWaiting 0 = []) ∧
    (∃ a b, VeIssue.kand 7 0 1 = .kand 7 a b ∧ busy.vmask 0 0 &&& busy.vmask 0 1 = busy.vmask 0 a &&& busy.vmask 0 b) ∧
    busy.exchangeStream combine.stream = some oneExpert ∧
    (let i : VeIssue := .chain { chain with ready := some (0, 1) }
     let s : State := { busy with ve := { busy.ve with waiting := [(0, [i])] } }
     busy.ready 0 i = false ∧ s.veWaiting 0 = i :: [] ∧ s.ready 0 i = false) ∧
    busy.ready 0 (.chain chain) = true ∧ chain.fmt = .fp32 ∧ chain.red = none ∧ chain.final = none ∧ storeFmt chain = .fp32 ∧
    chain.dst = .reg 3 ∧ chain.count = 1 ∧ chain.collide = [] ∧ (∀ a, shortTarget .add a = none) ∧
    (let r : Reduction := ⟨.rsum, .stage 0, false, false, true, 0⟩
     let c : VChain := { chain with red := some r }
     c.red = some r ∧ r.along = false ∧ isArg r.op = false ∧ c.whole = false ∧ busy.ready 0 (.chain c) = true) ∧
    (∀ i, i < 128 → (busy.vmask 0 1).getLsbD i = false) :=
  ⟨⟨busy_enginesOk, by decide +kernel⟩, ⟨0, 1, rfl, rfl⟩, by decide +kernel, by decide +kernel, by decide +kernel, rfl, rfl, rfl,
    by decide +kernel, rfl, rfl, rfl, fun _ => rfl, by decide +kernel, by decide +kernel⟩
/-! ## Witnesses: Trellis, memory -/

theorem witness_TrellisArbitrates :
    (let es : List TrlReq := [⟨1, .trace⟩, ⟨2, .atomics⟩]
     es.Nodup ∧ es.filter (fun q => !(up.tick.inMaint && heldClass q.cls)) ≠ [] ∧
       (let s : State := { up with trl := { up.trl with arbs := [(0, { promoted := [⟨2, .atomics⟩] })] } }
        (s.arbiter 0).promoted.find? (fun p => es.contains p) = some ⟨2, .atomics⟩ ∧ storeWf {} s.trl.arbs = true)) ∧
    waitBound 0 0 < 65535 ∧
    ({ up with trl := { up.trl with fails := [(0, 15)] } } : State).trl.fails = [(0, 15)] := by decide +kernel

/-- With the statistic of a rule 2 block in tensor 0 and its root in tensor 2. -/
def blockOf0 (group : Nat) : State :=
  busyWith { sections with update := { sections.update with period := 2, blocks := [⟨group, 1, 2, 0, 2⟩] } }

theorem busy_combineOk : busy.combineOk := by unfold State.combineOk; decide +kernel

theorem witness_WrittenBytesReadBack : up.inv ∧ up.combineOk ∧
    (∀ i, i < [(1 : Byte), 2].length → (up.devKey (1023 + i)).isSome = true) ∧
    up.devKey (2 ^ 39) = up.devKey 0 ∧ up.devKey 5000 ≠ up.devKey 1023 ∧
    (busy.tensor? 0).map TensorEntry.frozen = some false ∧ busy.updSec? = some sections.update ∧
    ((busy.tensor? 0).map fun te => (busy.devKey (busy.copyBase 0 te true)).isSome) = some true ∧
    preBlockOf sections.update 0 = none ∧ ((blockOf0 0).updSec?.bind fun u => preBlockOf u 0).isSome = true ∧
    (busy.tensor? 1).map TensorEntry.frozen = some true :=
  ⟨up_inv, up_combineOk, by decide +kernel⟩

theorem witness_StepKeepsBuffers : up.combineOk ∧ up.enginesOk ∧ ∃ t, step up = .next t := ⟨up_combineOk, up_enginesOk, _, rfl⟩

/-- A line in channel 0's write-combining buffer whose partial writes a DMA engine made. -/
def combining : State :=
  { up with hbm := { up.hbm with wcb := [(0, [⟨0, .hostDma 3, 1, List.replicate 64 9⟩])] } }

theorem witness_ReadsCorrectOrFail : up.inv ∧ up.combineOk ∧ started.readPlace (2 ^ 40 - 1) .scheduled = none ∧
    up.readPlace 1023 .scheduled = some (0, 1023) ∧ decodeLine 4 none = none ∧ decodeLine 3 none = some (3, []) ∧
    decodeLine 6 (some (1, List.replicate 64 5)) = some (1, List.replicate 64 5) ∧ (up.writeBacks 0).length < 64 ∧
    (let s : State := { up with hbm := { up.hbm with writeBacks := [(0, List.replicate 64 (1, []))] } }
     64 ≤ (s.writeBacks 0).length ∧ s.readPlace 1023 .scheduled = some (0, 1023)) ∧
    up.bit Reg.MEM_UE_INFO 31 = false ∧ busy.readPlace 1023 .scheduled = some (0, 1023) ∧ busy.tick.step = some step0 ∧
    step0.voted = false ∧ step0.cause = none ∧
    (let s : State := { up with host := { up.host with flights := [(7, [⟨0, ⟨0, 0, 64, true, false, false, 0, 1⟩, [], .ok, none⟩])] } }
     (s.flights 7).length = 1) ∧
    (combining.readPlace 0 .flush = some (0, 0) ∧ combining.readFor 0 0 .flush = .hostDma 3 ∧ (combining.wcb 0).length = 1) :=
  ⟨up_inv, up_combineOk, by decide +kernel⟩

theorem combining_combineOk : combining.combineOk := by unfold State.combineOk; decide +kernel

theorem witness_ChannelsTendThemselves : up.writeBacks 255 = [] ∧
    ({ up with hbm := { up.hbm with writeBacks := [(0, [(3, [])])] } } : State).writeBacks 0 = (3, []) :: [] ∧
    up.hbm.inService.getLsbD 7 = true ∧ up.hbm.inService.getLsbD 8 = false ∧ up.hbmPlace 0 = some (0, 0) ∧ 9 ≤ 9 ∧ 8 < 9 := by
  decide +kernel

theorem witness_AtomicsApplyWhole : (Instr.memoryAtomic .add .bf16 254 [0, 0] false).wf = false ∧
    (Instr.memoryAtomic .add .int32 252 [0, 0, 0, 0] true).wf = true ∧ up.hbmPlace 252 = some (0, 252) ∧
    up.devKey 256 ≠ up.devKey 252 := by decide +kernel

/-- With channel 9 waiting for its test. -/
def mapping : State := { up with hbm := { up.hbm with mapIn := [9] } }

theorem witness_MapsAndHeatChange : up.frozen 8 = false ∧ (queued up.sbk.queue).length < 16 ∧ up.image.st = .empty ∧
    (up.seed 8).getLsbD 9 = false ∧ (0x2FF : Word).getLsbD 9 = true ∧ (up.seed 8).getLsbD 0 = true ∧
    live.image.st = .running ∧ 0x2FF ≠ live.seed 8 ∧
    (9 ∈ mapping.hbm.mapIn ∧ mapping.frozen 8 = false ∧ (queued mapping.sbk.queue).length < 16) ∧
    (List.replicate 8 85).length = 8 ∧ up.image.st ≠ .running ∧ up.ldg.ps = .a0 := by decide +kernel

/-! ## Witnesses: update units -/

/-- An elementwise block of one element of tensor `t`. -/
def elem (t : Nat) : UpdElem := ⟨0, 0, 0, 1, 3, 0, [], none, ⟨t, 0, 1024⟩, none⟩

/-- A refresh of the rule 2 block at the origin of its tensor, staged in plot 3. -/
def refresh : UpdWork := .refresh 0 ⟨0, 0, 0⟩ 3 0

/-- With a rule 2 block of tensor 0 in a group, whole or not yet staged. -/
def refreshing (group : Nat) (landed : List Nat) : State :=
  { blockOf0 group with stl := { busy.stl with plots := [(3, { landed := landed })] } }

theorem witness_UpdateUnitsWork : (Memory.wf busy.mem = true ∧ storeWf 0 busy.regs = true) ∧ busy.updSec? = some sections.update ∧
    busy.aimedAtFrozen sections.update 1 (.stream 1) = true ∧ busy.aimedAtFrozen sections.update 0 (.stream 1) = false ∧
    (busy.img.map fun f => f.header.flags.testBit 0).getD false = false ∧
    (let s : State := { busy with image := { busy.image with file := some (withHeader { header with flags := 1 } tiny) } }
     s.updSec? = some sections.update ∧ (s.img.map fun f => f.header.flags.testBit 0).getD false = true ∧ s.tick.step.isSome = true) ∧
    (let s := refreshing 0 []
     ∀ u, s.updSec? = some u → s.aimedAtFrozen u 0 refresh = false ∧ s.stagedFor u 0 refresh = false) ∧
    (let s := refreshing 0 (List.range 256)
     ∀ u, s.updSec? = some u → u.sets[0]? = some rule0 ∧ preOf u ⟨0, 0, 0⟩ = some ⟨0, 1, 2, 0, 2⟩ ∧ s.aimedAtFrozen u 0 refresh = false ∧
       s.stagedFor u 0 refresh = true ∧ 0 = s.upd.epoch % u.period) ∧
    (let s := refreshing 1 (List.range 256)
     ∀ u, s.updSec? = some u → preOf u ⟨0, 0, 0⟩ = some ⟨1, 1, 2, 0, 2⟩ ∧ s.stagedFor u 0 refresh = true ∧ 1 ≠ s.upd.epoch % u.period) ∧
    busy.aimedAtFrozen sections.update 0 (.elementwise (elem 0)) = false ∧
    busy.stagedFor sections.update 0 (.elementwise (elem 0)) = true ∧ sections.update.sets[(elem 0).set]? = some rule0 ∧
    storeWf 0 busy.upd.norms = true := by
  refine ⟨by decide +kernel, by decide +kernel, by decide +kernel, by decide +kernel, by decide +kernel, by decide +kernel, ?_, ?_, ?_, by decide +kernel⟩
  all_goals
    intro s u hu
    obtain rfl := Option.some.inj hu
    decide +kernel

/-! ## Witnesses: the Cloister -/

/-- A reduction of two blocks in plot 3, whose finals go to plot 5. -/
def gsum (all : Bool) : GReduction := ⟨3, all, [2], 5⟩

/-- Its share on the ring, of rank 0. -/
def share : RingShare := ⟨0, 2, twoRing, 0⟩

/-- A job of two modules with that reduction; a frame of zero blocks has come in by port 0, of which `taken` have been taken; a local
contribution waits in plot 4 for each block, and the ring's block 0 is there. -/
def adding (all : Bool) (taken : Nat) : State :=
  { pair { parentTopo with reductions := [gsum all] } with
    pyu := { ends := [(crossKey 3 0 * 2 + 1, { frames := 1, slots := [0] }), (crossKey 3 1 * 2 + 1, { frames := 1, slots := [0] })] }
    clo := { ops := [(blockKey 3 0, 1)], taken := [(crossKey 3 0, taken)] }
    stl := { committing.stl with plots := [(4, { landed := [0, 1], buffer := 65536 })] } }

/-- With a wrong residue byte in block 0 of the frame, or of the local contribution. -/
def spoilt (o : Nat) : State := { adding false 0 with mem := [(2 ^ 40 + o + 65, 7)] }

theorem adding_ok : (adding false 0).inv ∧ (adding false 0).enginesOk ∧ storeWf {} (adding false 0).stl.plots = true := by
  unfold State.inv State.enginesOk; decide +kernel

/-- What the statement needs of an arriving block at port 0 or 1. -/
def arrivalAt (s : State) (port : Nat) : Option Nat × Nat × Nat :=
  (((s.gReduction 3).bind fun g => (s.shareIn g port).map fun x => shareTotal g x), s.taken 3 port, (s.linkEnd 3 port true).frames)

theorem witness_BlocksArriveAndAdd :
    (live.linkEnd 3 0 true).frames * 5120 < 66 * (live.taken 3 0 + 1) ∧
    (let s : State := { pair parentTopo with pyu := (adding false 0).pyu }
     arrivalAt s 0 = (none, 0, 1) ∧ s.gReduction 3 = none) ∧
    ((adding false 0).gReduction 3 = some (gsum false) ∧ (adding false 0).shareIn (gsum false) 1 = none ∧
      (adding false 0).shareIn (gsum false) 0 = some share ∧ share.received.length = 1) ∧
    arrivalAt (adding false 1) 0 = (some 1, 1, 1) ∧ arrivalAt (adding false 0) 0 = (some 1, 0, 1) ∧
    arrivalAt (adding true 1) 0 = (some 2, 1, 1) ∧ (adding true 1).gReduction 3 = some (gsum true) ∧
    (spoilt 0).blockFailure ((spoilt 0).streamBlock 3 0 0) = some 1 ∧
    (adding false 0).blockFailure ((adding false 0).streamBlock 3 0 0) = none ∧ (adding false 0).digestMode = false ∧
    (adding false 0).upd.waiting = [] ∧ (adding false 0).bit Reg.CLO_FAIL_INFO 31 = false ∧
    (addition.wf = true ∧ (adding false 0).shareOf (gsum false) 0 = some share ∧ (pair parentTopo).operandsThere addition = false ∧
      (adding false 0).operandsThere addition = true) ∧
    ((spoilt 65536).localFailure addition = some 1 ∧ (spoilt 65536).operandsThere addition = true) ∧
    (let op : BlockAdd := { addition with seq := 1, ring := false }
     let s := adding false 0
     op.wf = true ∧ s.operandsThere op = true ∧ s.localFailure op = none ∧ (s.addOperands op share).length = 1 ∧
       share.owns op.seq = false ∧ op.partialTo = none) ∧
    (let s := adding false 0
     s.localFailure addition = none ∧ (s.addOperands addition share).length = 2 ∧ share.owns 0 = true ∧
       (addTry false (s.addOperands addition share) ⟨[], []⟩).failed = none ∧
       (addTry false (s.addOperands addition share) ⟨[(0, 1)], []⟩).failed = some 2 ∧
       (addTry false (s.addOperands addition share) ⟨[], [(0, 1)]⟩).failed = some 3 ∧
       s.blockFailure (addTry false (s.addOperands addition share) ⟨[], []⟩).block = none) := by decide +kernel

/-- In digest mode no residue is compared. -/
theorem witness_digest_mode :
    (let s := { adding false 0 with image := { st := .running, file := some { paired { parentTopo with reductions := [gsum false] } with
        raw := headerBytes { header with jobSize := 2, flags := 2 } } } }
     s.digestMode = true ∧ (addTry true (s.addOperands addition share) ⟨[(0, 1)], []⟩).failed = none) := by decide +kernel

/-- A reduction of plot 3 with the module's own contribution, and vectors that have come in. -/
def reducing (x : Topo) (vecs : List (Nat × List SVec)) : State :=
  { pair x with clo := { sums := [(3, { own := [(0, [1])] })], vecs := vecs } }

/-- The same after it has ended in this tick. -/
def reduced (x : Topo) : State :=
  { pair x with clo := { sums := [(3, { closedAt := some 1 })], vecs := [(crossKey 3 0, [⟨[1], false⟩])] } }

/-- What the statement needs of a reduction: open, sent, own vector there, a child's missing, an incomplete child. -/
def sumState (s : State) (x : Topo) : List Bool :=
  [s.sumOpen sred, (s.sred 3).sent, !(s.ownVector sred).isEmpty, s.kidMissing x 3, (s.kidParts x 3).any fun k => k.2.incomplete]

theorem witness_ClassSReduces :
    (let s := reducing parentTopo [(crossKey 3 0, [⟨[2], false⟩])]
     (Memory.wf s.mem = true ∧ storeWf 0 s.regs = true) ∧ s.topo? = some parentTopo ∧ sred.use ≠ .commit ∧ sred.wf = true ∧
       sumState s parentTopo = [true, false, true, false, false] ∧ parentTopo.treeParent = none) ∧
    sumState (reducing parentTopo [(crossKey 3 0, [⟨[2], true⟩])]) parentTopo = [true, false, true, false, true] ∧
    sumState (reducing parentTopo []) parentTopo = [true, false, true, true, false] ∧
    sumState (reduced parentTopo) parentTopo = [false, false, false, false, false] ∧
    (let s := reducing middleTopo [(crossKey 3 1, [⟨[2], false⟩])]
     s.topo? = some middleTopo ∧ sumState s middleTopo = [true, false, true, false, false] ∧ middleTopo.treeParent = some 1 ∧
       s.portOf 1 = some 0 ∧ s.parentVec middleTopo 3 = none) ∧
    (reducing childTopo [(crossKey 3 0, [⟨[2], false⟩])]).parentVec childTopo 3 = some ⟨[2], false⟩ ∧
    (reducing childTopo [(crossKey 3 0, [⟨[2], true⟩])]).parentVec childTopo 3 = some ⟨[2], true⟩ ∧
    (reduced childTopo).parentVec childTopo 3 = some ⟨[1], false⟩ ∧ (reduced childTopo).sumOpen sred = false ∧
    (let s := reducing parentTopo []
     s.tick.step = some step0 ∧ step0.voted = false ∧ step0.cause = none ∧
       (let v : State := { s with tick := { s.tick with step := some { step0 with voted := true } } }
        v.tick.step = some { step0 with voted := true } ∧ v.commit.lateCause = 0)) := by decide +kernel
/-! ## Witnesses: Pyurn -/

/-- Port 3 in a given state. -/
def withPort (p : Port) (s : State) : State := { s with pyu := { ports := [(3, p)] } }

theorem witness_PortsTrainMeetAndFail :
    (let s := withPort { st := portTraining, width := 4, map := 0xFFFAC688 } up
     (s.port 3).st = portTraining ∧ (s.port 3).width ≠ 0 ∧
       (physLanes (s.port 3).map (s.port 3).width).all (fun l => (0x0F : BitVec 8).getLsbD l) = true) ∧
    (let s := withPort { st := portTraining, aligned := true } up
     (s.port 3).st = portTraining ∧ (s.port 3).aligned = true ∧ s.jobLive = false) ∧
    (let s := withPort { st := portUp, known := true, peerId := 1 } live
     (s.port 3).st = portUp ∧ s.jobLive = true ∧ (s.port 3).known = true ∧ (s.port 3).peerId ≠ 2 ∧
       (Memory.wf s.mem = true ∧ storeWf 0 s.regs = true)) ∧
    (let s := withPort { st := portUp, width := 4, map := 0xFFFAC688 } up
     (s.port 3).st = portUp ∧ 3 ∈ physLanes (s.port 3).map (s.port 3).width ∧ 4 ∉ physLanes (s.port 3).map (s.port 3).width) ∧
    (let s := (withPort { st := portFailed } up).setReg Reg.PYU_SEL 3
     (s.serving = true ∧ s.inA1 = false) ∧ s.jobLive = false ∧ s.fld Reg.PYU_SEL 3 0 = 3 ∧ (s.port 3).st = portFailed) := by
  decide +kernel

/-- Plot 5 receives data frames on port 3, plot 6 sends them, and plot 7 an exchange. -/
def receiving : State :=
  let s := withPort { st := portUp, width := 4, rxSeq := 4095 } live
  { s with stl := { s.stl with plots := [(5, { kind := 1, port := 3, credits := 4, recv := true, length := 4096 }),
    (6, { kind := 1, port := 3, credits := 4, held := 2 }), (7, { kind := 3, port := 3, credits := 4, recv := true })] } }

/-- A data frame of plot 5, its first. -/
def dataFrame : Frame := { idle with kind := 1, flits := 1, plot := 5, payload := List.replicate 256 7 }

/-- What port 3 offers from plot 6: 100 bytes from the start of memory. -/
def offer : Offer := ⟨6, .memory 0 100 0⟩

theorem witness_FramesFlowAndReplay :
    (up.port 3).st ≠ portUp ∧
    ((receiving.port 3).st = portUp ∧ (receiving.port 3).sent = [] ∧ (receiving.port 3).cursor = none ∧ frameIn.done = [] ∧
      frameIn.offers = [] ∧ frameIn.frame.seq = ((receiving.port 3).rxSeq + 1) % 4096 ∧ storeWf {} receiving.pyu.ends = true) ∧
    { frameIn with crcBad := true }.crcBad = true ∧ { idle with seq := 9 }.seq ≠ ((receiving.port 3).rxSeq + 1) % 4096 ∧
    { idle with creditPlot := 6, creditCount := 2 }.creditCount ≠ 0 ∧ ownEnd (receiving.plot 6) 3 false = true ∧
    ownEnd (receiving.plot 5) 3 false = false ∧
    (dataFrame.kind = 1 ∧ dataFrame.creditCount = 0 ∧ receiving.crosses 5 3 true = true ∧
      dataFrame.pos = (receiving.linkEnd 5 3 true).frames % 65536 ∧ { dataFrame with pos := 1 }.pos ≠ (receiving.linkEnd 5 3 true).frames % 65536 ∧
      ownEnd (receiving.plot 5) 3 true = true ∧ (receiving.plot 5).kind = 1 ∧
      receiving.earlyFrame (receiving.linkEnd 5 3 true) 0 = false) ∧
    (let s : State := { receiving with tick := { receiving.tick with now := 1, done := true } }
     s.earlyFrame (s.linkEnd 5 3 true) 0 = true) ∧
    { dataFrame with kind := 4, plot := 7 }.kind = 4 ∧
    (receiving.ready1 3 offer).isSome = true ∧ receiving.ready1 3 { offer with plot := 5 } = none ∧
    ((receiving.ready1 3 offer).map fun r => r.frame.kind) = some 1 ∧
    (let s := withPort { st := portUp, sent := [(idle, 15)] } live
     (s.port 3).st = portUp ∧ (s.port 3).cursor = none ∧ (s.port 3).sent = (idle, 15) :: [] ∧
       (let a : FrameIn := { frameIn with frame := { idle with nak := true, ack := 4095 } }
        a.uncorr = 0 ∧ a.crcBad = false ∧ a.frame.seq = ((s.port 3).rxSeq + 1) % 4096 ∧ a.frame.nak = true ∧
          a.frame.kind = 0 ∧ a.frame.creditCount = 0 ∧ idle.seq < 4096 ∧ (a.frame.ack + 1) % 4096 = idle.seq)) ∧
    (let s := withPort { st := portUp, sent := List.replicate 64 (idle, 16) } live
     (s.port 3).sent = (idle, 16) :: List.replicate 63 (idle, 16) ∧ 63 ≤ (List.replicate 63 (idle, 16)).length) := by
  decide +kernel

/-- A report without a step, of tick 0, from a child that covers no other. -/
def report : Beacon := ⟨false, false, false, false, 0, 0, 0, 0, 0⟩

/-- RUNNING, with its own report formed. -/
def reporting (x : Topo) : State :=
  { State.holding up .running (paired x) with tick := { ticking := true, own := some report } }

theorem witness_BeaconsCombine :
    (let s := reporting parentTopo
     (Memory.wf s.mem = true ∧ storeWf 0 s.regs = true) ∧ s.tick.ticking = true ∧ s.topo? = some parentTopo ∧
       report.tick = s.tick.now % 2 ^ 48 ∧ parentTopo.beaconChildren = [1] ∧ s.tick.own = some report ∧
       s.tick.sentUp = false ∧ parentTopo.beaconParent = none ∧ (joinBeacon report report).covered + 1 = s.jobSize ∧
       (joinBeacon report { report with covered := 1 }).covered + 1 ≠ s.jobSize) ∧
    (let s := reporting middleTopo
     s.topo? = some middleTopo ∧ middleTopo.beaconChildren = [2] ∧ middleTopo.beaconParent = some 1 ∧ s.tick.held = none) ∧
    (State.holding up .running tiny).tick.own = none := by decide +kernel

/-- Two tokens routed to the one expert, whose capacity is 1; the list lies in the Orangery. -/
def routed : RouteList := ⟨0, 2 ^ 40, 2, 2 ^ 40 + 4096, 2 ^ 40 + 8192⟩

theorem witness_SlotsAssigned :
    (Memory.wf live.mem = true ∧ storeWf 0 live.regs = true) ∧ live.exchangeStream routed.stream = some oneExpert ∧
      1 ≤ oneExpert.choices ∧ (live.assignAll oneExpert routed).dropped = 1 ∧
      storeGet noSlot (live.assignAll oneExpert routed).slots 0 ≠ noSlot ∧
      (let s : State := { live with mem := [(2 ^ 40, 1)] }
       (s.assignAll oneExpert routed).bad = 1) := by decide +kernel

/-! ## Witnesses: stiles, chains, commit -/

/-- With stiles 0 and 1, the latter of local target 2, in a given state. -/
def withStile (x : Stile) : State := { busy with stl := { stiles := [(1, x), (0, x)] } }

/-- With the deadline of the job-wide stile 0 in this tick, armed with a waiter. -/
def dueStile : State :=
  { busyWith { sections with stiles := [⟨0, true, 9, 0, 0⟩, ⟨1, false, 0, 2, 0⟩] } with
    stl := { stiles := [(0, { gen := 1, armed := true, waiters := [(4, 1)] })] } }

theorem witness_StilesAndChains :
    (busy.jobWide 0 = true ∧ busy.jobWide 1 = false ∧ busy.stileTarget 1 = 2 ∧ (busy.stile 1).early < busy.stileTarget 1) ∧
    (let s := withStile { early := 2, waiters := [(4, 1)] }
     s.jobWide 1 = false ∧ s.stileTarget 1 ≤ (s.stile 1).early ∧ 1 % 2 ≠ (s.stile 1).gen % 2) ∧
    (let s := withStile { gen := 1, armed := true }
     1 % 2 = (s.stile 1).gen % 2 ∧ (s.stile 1).armed = true ∧ (s.stile 1).count + 1 < s.stileTarget 1 ∧
       s.stileDue 1 = some ⟨1, false, 0, 2, 0⟩ ∧ s.topo? = some alone ∧ s.stileDue 0 = none) ∧
    (let s := withStile { gen := 1, armed := true, count := 1 }
     (s.stile 1).armed = true ∧ s.stileTarget 1 ≤ (s.stile 1).count + 1) ∧
    (let s := withStile { gen := 2 }
     2 % 2 = (s.stile 1).gen % 2 ∧ (s.stile 1).armed = false ∧ 1 < (s.stile 1).gen ∧ (s.stile 1).gen < 3) ∧
    ((busy.stile 131071).armed = false ∧ (busy.stile 131071).waiters = []) ∧
    (dueStile.stileDue 0 = some ⟨0, true, 9, 0, 0⟩ ∧ dueStile.topo? = some alone ∧ dueStile.sumOpen (stileSum ⟨0, true, 9, 0, 0⟩) = true ∧
      0 < (dueStile.stile 0).gen ∧ (4, 1) ∈ (dueStile.stile 0).waiters ∧ 1 ≤ (dueStile.stile 0).gen ∧ dueStile.tick.step = some step0 ∧
      step0.voted = false ∧ step0.cause = none) ∧
    (let s : State := { up with stl := { plots := [(100, { used := 60, limit := 64 })], commit := { bound := [(0, 100)] } } }
     s.chainPlot 0 = some 100 ∧ [(1 : Byte), 2, 3, 4] ≠ [] ∧ (s.plot 100).used + 4 ≤ (s.plot 100).limit ∧
       (s.chain 0).limit < (s.chain 0).used + 5) := by decide +kernel

/-- In the commit stitch, the other slab complete for the step. -/
def ready (x : Topo) : State :=
  { pair x with
    upd := { shadow := .complete, shadowStep := 3 }
    stl := { commit := { votes := [(1, 1, false)] } } }

/-- The running step with a decision, or none. -/
def decided (d : Option Decision) : State :=
  { committing with tick := { committing.tick with step := some { step0 with decision := d } } }

theorem witness_CommitDecidesAndActs :
    ((Memory.wf (ready parentTopo).mem = true ∧ storeWf 0 (ready parentTopo).regs = true) ∧
      (ready parentTopo).topo? = some parentTopo ∧ (ready parentTopo).tick.step = some step0 ∧ (ready parentTopo).inCommit = true ∧
      step0.voted = false ∧ (ready parentTopo).upd.shadow = .complete ∧ (ready parentTopo).upd.shadowStep = step0.stepId ∧
      (ready parentTopo).stl.commit.sent = false ∧ (ready parentTopo).digestMode = false ∧
      parentTopo.treeChildren.length ≤ (ready parentTopo).stl.commit.votes.length ∧ parentTopo.treeParent = none ∧
      step0.decision = none ∧ step0.acted = none ∧ ∀ v, (ready parentTopo).stl.commit.combo ≠ some ((ready parentTopo).jobSize, v)) ∧
    ((ready middleTopo).topo? = some middleTopo ∧ (ready middleTopo).inCommit = true ∧ middleTopo.treeParent = some 1 ∧
      (ready middleTopo).portOf 1 = some 0 ∧ middleTopo.treeChildren.length ≤ (ready middleTopo).stl.commit.votes.length) ∧
    ((pair parentTopo).upd.shadow ≠ .complete ∧ (pair parentTopo).inCommit = true ∧ { sred with use := .commit }.use = .commit) ∧
    (let s : State := { ready parentTopo with stl := { commit := { combo := some (2, true) } } }
     s.stl.commit.combo = some (s.jobSize, true)) ∧
    (let s : State := { ready parentTopo with stl := { commit := { combo := some (2, false) } } }
     s.stl.commit.combo = some (s.jobSize, false)) ∧
    (let s : State := { committing with tick := { committing.tick with step := some { step0 with voted := true, acted := some (.clean, 0) } } }
     s.tick.step = some { step0 with voted := true, acted := some (.clean, 0) } ∧ s.inCommit = true) ∧
    ((decided (some .commit)).inCommit = true ∧ (decided (some (.skip true))).inCommit = true ∧ (decided none).inCommit = true) := by
  decide +kernel

/-- A commit whose decision never came, of epoch 0 and step 3. -/
def unresolved : State :=
  ({ State.holding up .loaded tiny with
    upd := { shadow := .complete, shadowStep := 3 }
    stl := { commit := { outcome := 3 } } } : State).setReg Reg.STL_RECON_STEP 3

theorem witness_ReconciliationResolves :
    ((Memory.wf unresolved.mem = true ∧ storeWf 0 unresolved.regs = true) ∧ (unresolved.serving = true ∧ unresolved.inA1 = false) ∧
      unresolved.busy = false ∧ unresolved.stl.commit.outcome = 3 ∧ unresolved.upd.epoch = unresolved.regN Reg.STL_RECON_EPOCH ∧
      unresolved.upd.shadow = .complete ∧ unresolved.upd.shadowStep = unresolved.regN Reg.STL_RECON_STEP ∧
      unresolved.image.st = .loaded) ∧
    busy.busy = true ∧ (up.busy = false ∧ up.stl.commit.outcome ≠ 3 ∧ up.image.st ≠ .loaded) ∧
    (let s := unresolved.setReg Reg.STL_RECON_EPOCH 1
     s.busy = false ∧ s.stl.commit.outcome = 3 ∧ s.upd.epoch ≠ s.regN Reg.STL_RECON_EPOCH) ∧
    (let s : State := { unresolved with upd := { shadow := .stale } }
     s.upd.shadow ≠ .complete ∧ s.upd.epoch = s.regN Reg.STL_RECON_EPOCH) := by decide +kernel

/-! ## Witnesses: loads, drains and sums complete -/

theorem conv_lies : storeWf 0 (converting bf16Class 0x3F800000 false).seg.rungs = true ∧
    storeWf {} (converting bf16Class 0x3F800000 false).stl.plots = true := by decide +kernel

theorem witness_LoadsDrainsAndSumsComplete :
    (8 ≤ up.boot.step ∧ up.busy = false ∧ up.image.st = .empty) ∧ (State.holding up .loading tiny).image.st = .loading ∧
    2 ^ 64 - 1 < 2 ^ 64 ∧ (verifying.image.st = .verifying ∧ verifying.image.rechecking = none) ∧
    ((Instr.tileDrain drain).wf = true ∧ up.upd.waiting = []) ∧
    (let s := converting bf16Class 0x3F800000 false
     (s.segCtx conv).isSome = true ∧ s.segComplete conv = true ∧ s.mayGo conv = true ∧ s.seg.waiting = [] ∧ conv.instEnd = false ∧
       crossesIn s conv = false) ∧
    (let s := adding false 0
     (Memory.wf s.mem = true ∧ storeWf 0 s.regs = true) ∧ s.taken 3 0 = 0 ∧ 66 * (0 + 1) ≤ (s.linkEnd 3 0 true).frames * 5120 ∧
       s.gReduction 3 = some (gsum false) ∧ s.shareIn (gsum false) 0 = some share ∧ 0 < share.received.length ∧
       s.blockFailure (s.streamBlock 3 0 0) = none ∧ storeWf 0 s.clo.ops = true ∧ addition.wf = true ∧
       s.shareOf (gsum false) 0 = some share ∧ s.operandsThere addition = true ∧ s.localFailure addition = none ∧
       2 ≤ (s.addOperands addition share).length ∧ (addTry s.digestMode (s.addOperands addition share) addition.first).failed = none) ∧
    (let s := reducing middleTopo [(crossKey 3 1, [⟨[2], false⟩])]
     s.topo? = some middleTopo ∧ sred.use = .plain ∧ sumState s middleTopo = [true, false, true, false, false] ∧
       middleTopo.treeParent = some 1 ∧ s.portOf 1 = some 0) ∧
    sumState (reducing parentTopo [(crossKey 3 0, [⟨[2], false⟩])]) parentTopo = [true, false, true, false, false] ∧
    (reducing childTopo [(crossKey 3 0, [⟨[2], false⟩])]).parentVec childTopo 3 = some ⟨[2], false⟩ := by decide +kernel

theorem witness_LoadsDrainsAndSumsComplete_waiting : ∀ c, up.veWaiting c = [] := fun _ => rfl

theorem witness_LoadsDrainsAndSumsComplete_file : verifying.image.file = some whole := rfl
/-! ## Witnesses: the host interface -/

/-- The queue set enabled with rings of 16 entries, a ticket waiting. -/
def queued16 : State := (up.setReg Reg.PCI_QUEUE_CTRL 0x4441).setReg Reg.PCI_TQ_TAIL 1

/-- With vector 0 in a given state. -/
def withVec (v : MsixVec) : State := { up with host := { up.host with msix := [(0, v)] } }

theorem witness_QueuesAndVectorsRun :
    (up.queueOn = false ∧ up.draining = false) ∧
    (queued16.queueOn = true ∧ queued16.linkUp = true ∧ queued16.regN Reg.PCI_TQ_HEAD ≠ queued16.regN Reg.PCI_TQ_TAIL ∧
      queued16.adm.bells.length < 8 ∧ queued16.ldg.ps = .a0 ∧
      ahead (queued16.regN Reg.PCI_AQ_TAIL) (queued16.regN Reg.PCI_AQ_HEAD) + queued16.host.fetched <
        2 ^ queued16.fld Reg.PCI_QUEUE_CTRL 11 8) ∧
    ((up.setReg Reg.PCI_QUEUE_CTRL 2).draining = true ∧ (up.setReg Reg.PCI_QUEUE_CTRL 2).host.fetched = 0) ∧
    ahead (16 : Word).toNat (queued16.regN Reg.PCI_TQ_HEAD) ≤ 2 ^ queued16.fld Reg.PCI_QUEUE_CTRL 7 4 ∧
    2 ^ queued16.fld Reg.PCI_QUEUE_CTRL 7 4 < ahead (17 : Word).toNat (queued16.regN Reg.PCI_TQ_HEAD) ∧
    ahead (0 : Word).toNat (up.regN Reg.PCI_AQ_HEAD) ≤ ahead (up.regN Reg.PCI_AQ_TAIL) (up.regN Reg.PCI_AQ_HEAD) ∧
    ahead (0 : Word).toNat (up.regN Reg.PCI_CQ_HEAD) ≤ ahead (up.regN Reg.PCI_CQ_TAIL) (up.regN Reg.PCI_CQ_HEAD) ∧
    (up.vec 31).cooling = false ∧
    (let s := withVec { masked := false, due := true, cooling := true }
     (s.vec 0).cooling = true ∧ (s.vec 0).due = true ∧ (s.vec 0).masked = false ∧ s.linkUp = true) ∧
    (let s := withVec { masked := true, due := true, cooling := true }
     (s.vec 0).cooling = true ∧ (s.vec 0).due = true ∧ (s.vec 0).masked = true) ∧
    (let s := withVec { masked := false, cooling := true }
     (s.vec 0).due = false ∧ { s.vec 0 with cooling := false } ≠ ({} : MsixVec) ∧ (s.vec 0).masked = false) ∧
    ((up.vec 0).masked = true ∧ up.reports 0 = false) ∧
    (let s := up.setReg Reg.ADM_EVENT 1
     ∃ v : Fin 32, (s.vec v).masked = true ∧ s.reports v = true ∧ (s.vec v).cooling = false) := by decide +kernel

/-- Engine 7 on, with a flight to the host and without. -/
def engine (fs : List DmaFlight) : State :=
  let s := (up.setReg (dmaReg Reg.PCI_DMA_CTRL 7) 0x41).setReg (dmaReg Reg.PCI_DMA_TAIL 7) 2
  { s with host := { s.host with flights := [(7, fs)] } }

def toHost : DmaFlight := ⟨0, ⟨0, 0x1000, 64, true, false, false, 0, 1⟩, [], .ok, none⟩

def toModule : DmaFlight := { toHost with desc := ⟨0x1000, 0, 64, false, false, false, 0, 1⟩ }

theorem witness_EnginesMoveDescriptors :
    ((Memory.wf (engine [toHost]).mem = true ∧ storeWf 0 (engine [toHost]).regs = true) ∧
      ((engine [toHost]).serving = true ∧ (engine [toHost]).inA1 = false) ∧
      (engine [toHost]).bit (dmaReg Reg.PCI_DMA_CTRL 7) 0 = true ∧ (engine [toHost]).flights 7 = [toHost] ∧
      toHost.status = none ∧ (engine [toHost]).linkUp = true ∧ toHost.index < 65536 ∧
      (engine [toHost]).dmaRefusal toHost.desc = none ∧ toHost.desc.toHost = true ∧ (engine [toHost]).flights 7 ≠ []) ∧
    ((engine [toModule]).flights 7 = [toModule] ∧ (engine [toModule]).dmaRefusal toModule.desc = none ∧
      toModule.desc.toHost = false ∧ toModule.hostEnd = .ok ∧ (List.replicate 64 (0 : Byte)).length = toModule.desc.length) ∧
    (engine [toHost]).dmaRefusal { toHost.desc with length := 0 } = some 6 ∧
    ahead (16 : Word).toNat ((engine []).regN (dmaReg Reg.PCI_DMA_HEAD 7)) ≤ 2 ^ (engine []).dmaSize 7 ∧
    2 ^ (engine []).dmaSize 7 < ahead (17 : Word).toNat ((engine []).regN (dmaReg Reg.PCI_DMA_HEAD 7)) ∧
    ((engine []).dmaOn 7 = true ∧ (engine []).dmaNext 7 ≠ (engine []).regN (dmaReg Reg.PCI_DMA_TAIL 7) ∧
      ((engine []).flights 7).length < 4 ∧ (engine []).flights 7 = []) := by decide +kernel

theorem witness_WindowAndLinkErrors :
    (up.serving = true ∧ up.inA1 = false) ∧ 2 ^ 28 - 1 + 1 ≤ 2 ^ up.winLog ∧ up.spanOk (up.winAddr 0) 1 = true ∧
    up.host.windowBad = [] ∧ 2 ^ up.winLog < 2 ^ 28 + 1 ∧
    (let s := up.setReg Reg.PCI_WIN_BASE (2 ^ 34)
     s.spanOk (s.winAddr (2 ^ 28 - 1)) 1 = false ∧
       ∀ q ∈ linePieces (s.winAddr (2 ^ 28 - 1)) 1 [1], (s.spanOk q.1 q.2.length &&
         (decide (s.image.st = .empty) || !s.touchesImage q.1 q.2.length)) = false) ∧
    (∀ q ∈ linePieces (up.winAddr 60) 8 (List.replicate 8 1), (up.spanOk q.1 q.2.length &&
      (decide (up.image.st = .empty) || !up.touchesImage q.1 q.2.length)) = true) ∧
    (2 ^ 28 : DWord).toNat % 2 ^ up.winLog = 0 ∧ (64 : DWord).toNat % 2 ^ up.winLog ≠ 0 ∧ up.linkUp = true := by decide +kernel

theorem witness_RegistersAndHeaderTakeWrites :
    regAt Reg.TOP_SCRATCH = some (⟨Reg.TOP_SCRATCH, 4, 1, 0, 0xFFFFFFFF, 0, 0, 0⟩, Reg.TOP_SCRATCH) ∧
    Reg.TOP_SCRATCH % 4 = 0 ∧ (∀ p, up.acts Reg.TOP_SCRATCH 0 5 p = p) ∧
    (regAt Reg.LAST_SRC).map (fun r => (r.1.width, r.2)) = some (8, Reg.LAST_SRC) ∧
    (∀ p, up.acts Reg.LAST_SRC 0 5 p = p) ∧
    (8 < 16 ∧ 4 % 4 = 0 ∧ 16 % 4 = 0 ∧ narrow 4 16 = false) ∧ (narrow 3 1 = true ∧ narrow 3 2 = false ∧ narrow 4 4 = false ∧ narrow 1 8 = false) ∧
    (regAt Reg.LAST_SRC).map (fun r => r.1.width) = some 8 ∧ 4 % 8 ≠ 0 ∧
    up.bit Reg.TOP_ACCESS_ERR 31 = false ∧ (up.setReg Reg.TOP_ACCESS_ERR (2 ^ 31)).bit Reg.TOP_ACCESS_ERR 31 = true ∧
    started.linkUp = false ∧
    (let s : State := { up with boot := { up.boot with step := 5 } }
     s.linkUp = true ∧ s.boot.step < 6) ∧
    (up.configOn = true ∧ up.inA1 = false) ∧ (configFixed 4 = none ∧ 4 / 4 ≠ 3 ∧ 4 / 4 < 4) ∧
    (configFixed 0x34 = none ∧ 7 < 0x34 / 4) ∧ (4 ≤ 0x10 / 4 ∧ 0x1F / 4 ≤ 7 ∧ 28 ≤ up.winLog ∧ up.boot.failed = false) ∧
    (let s : State := { up with boot := { up.boot with failed := true } }
     s.configOn = true ∧ s.inA1 = false ∧ s.boot.failed = true ∧ 28 ≤ s.winLog) :=
  ⟨by decide +kernel, by decide, fun _ => rfl, by decide +kernel, fun _ => rfl, by decide +kernel⟩

/-! ## Witnesses: security, power states, the Lodge, power, ledger, Belvedere -/

theorem witness_AttestationAnswers : up.mailed ∧ 65536 ≤ 65536 ∧ 65536 < 65537 ∧ up.sec.spdm ≠ .algorithms ∧
    (let s : State := { up with sec := { up.sec with spdm := .algorithms, asym := true, hash := true } }
     s.sec.spdm = .algorithms ∧ s.sec.spdm ≠ .none ∧ s.sec.spdm ≠ .version ∧ s.canSign = true ∧ s.configOn = true ∧
       s.asleep = false ∧ s.inA1 = false) := ⟨up_mailed, by decide +kernel⟩

theorem witness_fixedBlocks (s : State) : ∃ b, b ∈ s.fixedBlocks := ⟨_, List.mem_cons_self⟩

/-- With the Lodge's address assigned. -/
def addressed : State := { up with ldg := { up.ldg with address := some 8 } }

/-- The same with no key enrolled. -/
def unenrolled : State := { addressed with sbk := { seeds with vals := [(8, 0xFF)] } }

/-- An enrollment record of command 3, floor 1, counter 1 in the buffer, and ENR_GO. -/
def enrolling : State :=
  ((((up.setReg Reg.SBK_ENR_CTRL 2).setReg Reg.SBK_ENR_BUF 0x524E4547).setReg (Reg.SBK_ENR_BUF + 4) 3).setReg
    (Reg.SBK_ENR_BUF + 0x10) 1).setReg (Reg.SBK_ENR_BUF + 0x18) 1

/-- The same with a record that does not begin as one. -/
def enrollingBad : State := enrolling.setReg Reg.SBK_ENR_BUF 0

/-- With a firmware update in a given state. -/
def updating (p : PldmState) : State := { up with sec := { up.sec with pldm := p, length := 1000, passed := true } }

theorem witness_FirmwareAndKeysUpdate :
    up.sec.pldm = .idle ∧ (updating .learn).sec.pldm = .learn ∧ (updating .ready).sec.pldm = .ready ∧ 67108864 ≤ 67108864 ∧
    (updating .download).sec.pldm = .download ∧ (updating .verify).sec.pldm = .verify ∧ (updating .apply).sec.pldm = .apply ∧
    ((updating .ready).sec.passed = true ∧ (updating .ready).frozen 32 = false ∧ (queued (updating .ready).sbk.queue).length < 16) ∧
    ((updating .ready).boot.powered = true ∧ 1 ≤ (updating .ready).boot.step ∧ (updating .ready).inA1 = false) ∧
    (unenrolled.ldg.address.isSome = true ∧ unenrolled.enrolled 0 = false ∧ unenrolled.enrolled 1 = false ∧
      unenrolled.groupFrozen (digestWrites 0 5 ++ [(56, 1)]) = false ∧ (queued unenrolled.sbk.queue).length ≤ 7) ∧
    (addressed.ldg.address.isSome = true ∧ addressed.enrolled 0 = true) ∧
    up.enrBusy = false ∧ (verifying.setReg Reg.SBK_ENR_CTRL 2).enrBusy = true ∧ (verifying.setReg Reg.SBK_ENR_CTRL 2).loadRuns = true ∧
    (enrollingBad.enrBusy = true ∧ enrollingBad.loadRuns = false ∧ enrollingBad.enrCode ≠ 0) ∧
    (enrolling.enrBusy = true ∧ enrolling.loadRuns = false ∧
      (queued enrolling.sbk.queue).length + enrolling.enrWrites.length ≤ 16) := by decide +kernel

theorem witness_FirmwareAndKeysUpdate_enrolls (hv : ∀ k m g, Config.slhVerify k m g = true) : enrolling.enrCode = 0 := by
  have h : enrolling.enrShape = true ∧ enrolling.enrField 8 8 = 0 ∧ ¬enrolling.enrField 0x10 8 ≤ enrolling.enrCounter ∧
      enrolling.enrField 4 2 = 3 ∧ ¬enrolling.enrField 0x18 4 ≤ (enrolling.seed 35).toNat ∧
      enrolling.groupFrozen enrolling.enrWrites = false := by decide +kernel
  have hk : (enrolling.enrolled 0 && decide (enrolling.slotDigest 0 = enrolling.enrSigner)) = true := by decide +kernel
  obtain ⟨h1, h2, h3, h4, h5, h6⟩ := h
  simp [State.enrCode, h1, h2, h3, h4, h5, h6, hk, State.enrSigValid, hv]

/-- In a power state. -/
def sleeping (p : PState) : State := { started with ldg := { ps := p } }

/-- On the way into a power state. -/
def entering (p : PState) : State := { started with ldg := { entering := some p } }

theorem witness_EntriesBeginAndEnd :
    (up.moving = false ∧ up.ldg.ps.depth < PState.a1.depth ∧ up.entryRefusal .a3 = none) ∧ live.entryRefusal .a1 = some 2 ∧
    (sleeping .a2).ldg.ps = .a2 ∧ Reg.LAST_STATE ≠ Reg.PYU_WAKE ∧ keptReg Reg.LAST_STATE = false ∧
    (let s : State := { up with ldg := { ps := .a1 } }
     s.inA1 = true ∧ s.linkUp = true ∧ s.ldg.held = none ∧ s.boot.powered = true) ∧
    ((entering .a3).moving = true ∧ (entering .a3).boot.powered = true ∧ 1 ≤ (entering .a3).boot.step ∧ (entering .a3).inA1 = false) ∧
    (let s := up.setReg Reg.LDG_CFG 1
     s.boot.powered = true ∧ 2 ≤ s.boot.domains ∧ s.ldg.ps = .a0 ∧ s.moving = false ∧ s.fld Reg.LDG_CFG 15 0 ≠ 0 ∧
       s.entryRefusal .a1 = none) ∧
    (up.configOn = true ∧ up.moving = false ∧ up.ldg.ps = .a0 ∧ up.entryRefusal .a2 = none ∧ up.asleep = false ∧ up.inA1 = false) ∧
    (live.configOn = true ∧ live.moving = false ∧ live.ldg.ps = .a0 ∧ live.entryRefusal .a2 = some 2) ∧
    (let s : State := { up with host := { up.host with d3hot := true, d3wait := true } }
     s.host.d3hot = true ∧ s.host.d3wait = true ∧ s.moving = false ∧ s.entryRefusal .a2 = none) ∧
    (let s : State := { up with ldg := { ps := .a2 } }
     s.configOn = true ∧ s.ldg.ps = .a2 ∧ s.ldg.entering = none ∧ s.ldg.waking = 0 ∧ s.tripped = false) ∧
    ((Memory.wf (entering .a3).mem = true ∧ storeWf 0 (entering .a3).regs = true) ∧ (entering .a1).ldg.entering = some .a1 ∧
      (entering .a2).ldg.entering = some .a2 ∧ (entering .a3).ldg.entering = some .a3 ∧ (entering .a3).ldg.asked = false ∧
      (entering .a3).ldg.latched = false ∧ (entering .a3).ldg.held = none ∧ (entering .a2).bit Reg.PYU_WAKE 15 = true) := by
  decide +kernel

/-- A wake in progress. -/
def waking (p : PState) (n : Nat) : State := { started with ldg := { ps := p, waking := n } }

/-- Tripped, and clear of its limits for a second. -/
def trippedState : State :=
  ({ started with ldg := { clear := 10000 } } : State).setReg Reg.LDG_STATE 0x30

theorem witness_WakesRun :
    ((sleeping .a2).boot.powered = true ∧ (sleeping .a2).ldg.entering = none ∧ (sleeping .a2).ldg.waking = 0 ∧
      (sleeping .a2).tripped = false ∧ (sleeping .a2).bit Reg.PYU_WAKE 15 = true ∧
      ((sleeping .a2).setReg Reg.PYU_WAKE 0x10000).bit Reg.PYU_WAKE 16 = true) ∧
    ((sleeping .a3).ldg.ps = .a3 ∧ (sleeping .a3).tripped = false) ∧
    (trippedState.tripped = true ∧ trippedState.bit Reg.LDG_STATE 5 = true ∧ 10000 ≤ trippedState.ldg.clear ∧
      trippedState.boot.powered = true ∧ 1 ≤ trippedState.boot.step ∧ trippedState.inA1 = false ∧
      trippedState.ldg.entering = none ∧ trippedState.ldg.waking = 0) ∧
    ((waking .a2 3).ldg.waking ≠ 0 ∧ (waking .a2 3).ldg.waking < 4 ∧ (waking .a2 1).ldg.waking ≠ 3 ∧
      (waking .a2 3).bit (Reg.MEM_SUSPECT + 4 * (255 / 32)) (255 % 32) = false) ∧
    ((trippedState.setReg Reg.LDG_STATE 0x30).tripped = true ∧
      ({ trippedState with ldg := { trippedState.ldg with ps := .a3 } } : State).ldg.ps = .a3) ∧
    ((waking .a2 4).ldg.ps = .a2 ∧ (waking .a2 4).ldg.waking = 4 ∧ (waking .a2 4).ldg.held = none ∧
      (waking .a2 4).img = none ∧ (State.holding (waking .a2 4) .retired tiny).img.isSome = true ∧
      (({ waking .a2 4 with pyu := { ports := [(3, { st := portFailed })] } } : State).port 3).st = portFailed) ∧
    (let s : State := { off with boot := { powered := true, step := 1, domains := 1 } }
     s.ldg.ps = .a0 ∧ s.ldg.waking = 0 ∧ s.boot.powered = true ∧ 1 ≤ s.boot.step ∧ s.boot.domains < 2) ∧
    ((waking .a3 2).ldg.ps = .a3 ∧ (waking .a3 2).ldg.waking = 2 ∧ (waking .a3 2).ldg.held = none) ∧
    ((sleeping .a3).boot.powered = true ∧ (sleeping .a3).ldg.onDemand.contains .mailbox = false) := by decide +kernel

/-- A core at 120 °C. -/
def hotSample : Samples := { samples with junctions := 120 :: List.replicate 127 50 }

/-- After two samples with that core hot, both beyond its limit. -/
def heating : State := { started with ldg := { samples := [hotSample, hotSample], beyond := [(2, 2)] } }

theorem witness_LodgeProtectsAndAnswers :
    ((Memory.wf heating.mem = true ∧ storeWf 0 heating.regs = true) ∧ heating.boot.powered = true ∧ 1 ≤ heating.boot.step ∧
      2 < 170 ∧ heating.beyondCount hotSample 2 = crossAfter 2 ∧
      (∀ j, j < 2 → heating.beyondCount hotSample j ≠ crossAfter j)) ∧
    ((∀ i, i < 170 → started.beyondCount samples i ≠ crossAfter i) ∧ started.tripped = false) ∧ off.boot.powered = false ∧
    (addressed.ldg.address.isSome = true ∧ addressed.boot.powered = true ∧ 1 ≤ addressed.boot.step ∧ addressed.inA1 = false) ∧
    up.ldg.address = none ∧ 192 ≤ 192 ∧ 192 < 193 ∧
    (1 ≤ bits (0x400 : Word).toNat 10 2 ∧ bits (0x400 : Word).toNat 10 2 ≤ 256) ∧ bits (0 : Word).toNat 10 2 = 0 ∧
    256 < bits (0x404 : Word).toNat 10 2 ∧
    (addressed.mailboxField 0 3 ≠ 0x1F3A7E ∧ addressed.mailboxReq .malformed = .malformed) ∧
    (let s := ((addressed.setReg Reg.LDG_MBOX 0x021F3A7E).setReg (Reg.LDG_MBOX + 4) 64).setReg (Reg.LDG_MBOX + 12) 192
     s.mailboxField 0 4 = 0x021F3A7E ∧ s.mailboxReq .malformed = .ledgerRead 64 192) := by decide +kernel

theorem witness_PowerHolds :
    (up.boot.powered = true ∧ 2 ≤ up.boot.domains ∧ up.ldg.ps = .a0) ∧
    (let s : State := { live with pwr := { live.pwr with cap := 1199 } }
     s.jobLive = true ∧ s.pwr.cap < s.capFloor) ∧ ¬(live.jobLive = true ∧ live.pwr.cap < live.capFloor) ∧
    up.pwr.droop.getLsbD 127 = false ∧ ({ up with pwr := { up.pwr with droop := 1 } } : State).pwr.droop.getLsbD 0 = true ∧
    (1199 : Word).toNat % 4096 < 1200 ∧ 2300 < (2301 : Word).toNat % 4096 ∧ 1200 ≤ (1200 : Word).toNat % 4096 ∧
    (2300 : Word).toNat % 4096 ≤ 2300 ∧ up.frozen 0 = false ∧ (queued up.sbk.queue).length < 16 ∧
    ({ up with pwr := { up.pwr with stale := true } } : State).pwr.stale = true ∧ up.pwr.stale = false := by decide +kernel

/-- A queue of one write of register 600, with a write count. -/
def persisting (n : Nat) : State :=
  { started with sbk := { vals := [(600, 1)], wear := [(600, n)], queue := [⟨[(600, 2)]⟩] } }

theorem witness_SeedAndLedgerPersist :
    ((80 ≤ (80 : Word).toNat ∧ (100 : Word).toNat ≤ 100 ∧ (65535 : Word).toNat < 65536 ∧ lanePermutation 0xFFFAC688 = true ∧
      lanePermutation 0 = false) ∧ up.frozen 512 = false ∧ (queued up.sbk.queue).length < 16 ∧
      ({ up with sbk := { seeds with queue := [⟨List.replicate 16 (600, 1)⟩] } } : State).frozen 600 = false ∧
      16 ≤ (queued [⟨List.replicate 16 (600, (1 : Word))⟩]).length ∧ (persisting 200000).frozen 600 = true) ∧
    ((79 : Word).toNat % 256 < 80 ∧ 100 < (101 : Word).toNat % 256) ∧
    ((persisting 179999).boot.powered = true ∧ (persisting 179999).sbk.queue = ⟨[(600, 2)]⟩ :: [] ∧
      storeWf 0 (persisting 179999).sbk.vals = true ∧ (persisting 179999).wear 600 + 1 = 180000 ∧
      (persisting 199999).wear 600 + 1 = 200000 ∧ (persisting 0).wear 600 + 1 ≠ 200000) ∧
    (started.boot.powered = true ∧ started.hlt.scanDue = false ∧ started.hlt.tail + 4096 ≤ 16777216) ∧
    (let s : State := { started with hlt := { started.hlt with tail := 16777216 - 4095 } }
     s.boot.powered = true ∧ s.hlt.scanDue = false ∧ 16777216 < s.hlt.tail + 4096) ∧
    started.hlt.snapBusy = false ∧ ({ started with hlt := { started.hlt with snapBusy := true } } : State).hlt.snapBusy = true := by
  decide +kernel

/-- A record of the trace. -/
def record : TraceRec := ⟨0, 0, 0x14, 0, 0, 5⟩

/-- Ring 1 enabled, of 64 KiB, with its stores. -/
def ringing (r : TraceRing) : State :=
  let s := up.setReg (Reg.BEL_RING_CTRL + ringOff 1) 0x1001
  { s with bel := { s.bel with rings := [(1, r)] } }

theorem witness_SnapshotsAndRings :
    (up.bel.snapBusy = false ∧ up.image.st ≠ .running ∧ live.image.st = .running ∧ live.bel.snapBusy = false) ∧
    (let s : State := { up with bel := { up.bel with snapBusy := true } }
     s.bel.snapBusy = true ∧ s.bel.snapAtEdge = false) ∧
    ((up.setReg Reg.BEL_TRACE_EN 0x100000).bit Reg.BEL_TRACE_EN 0x14 = true ∧ (up.ring 0).inflight = [] ∧
      up.bit Reg.BEL_TRACE_EN 0x14 = false) ∧
    (let s := ringing { inflight := [record] }
     storeWf {} s.bel.rings = true ∧ (s.ring 1).inflight = record :: [] ∧ s.ringOn 1 = true ∧
       s.ringTail 1 + 32 ≤ s.ringHead 1 + s.ringSize 1 ∧ (s.ring 1).lostRing = 0 ∧ (s.ring 1).lostSrc = 0 ∧
       (s.ringTail 1 + 32) % 256 ≠ 0 ∧ s.ringTail 1 + 32 < 2 ^ 64) ∧
    (let s := ringing { group := [record] }
     (s.ring 1).group = record :: [] ∧ s.asleep = false ∧ s.bit (Reg.BEL_RING_CTRL + ringOff 1) 1 = false) ∧
    (up.ringOn 1 = false ∧ (0x1001 : Word).getLsbD 0 = true ∧ (0x1001 : Word).getLsbD 1 = false ∧
      bits (0x1001 : Word).toNat 13 8 = 16 ∧ up.regN (Reg.BEL_RING_BASE + ringOff 1) % 2 ^ 16 = 0 ∧
      up.regN (Reg.BEL_RING_BASE + ringOff 1) < 2 ^ 40 ∧ up.spanOk 0 (2 ^ 16) = true ∧ up.touchesImage 0 (2 ^ 16) = false ∧
      bits (0x2001 : Word).toNat 13 8 = 32 ∧ bits (0x2101 : Word).toNat 13 8 = 33) := by decide +kernel

theorem witness_RoundingIsNearestEven : (⟨false, 5, -2⟩ : Dy).neg = false ∧ (overflowAt .if4).magLe ⟨false, 5, -2⟩ = false := by
  decide +kernel

theorem witness_LateCausesChangeNothing :
    (let s : State := { busy with tick := { busy.tick with step := some { step0 with voted := true } } }
     (Memory.wf s.mem = true ∧ storeWf 0 s.regs = true) ∧ s.tick.step = some { step0 with voted := true } ∧ 1 ≤ 6 ∧
       s.stl.commit.lateCause = 0) := by decide +kernel

theorem witness_ConfigurationHeaderReads : up.configOn = true ∧ up.inA1 = false := by decide +kernel

theorem witness_WakesAreLatched :
    (let s := entering .a2
     (Memory.wf s.mem = true ∧ storeWf 0 s.regs = true) ∧ s.boot.powered = true ∧ s.tripped = false ∧ s.goingDown = true ∧
       s.ldg.latched = false ∧ s.bit Reg.PYU_WAKE 0 = true) ∧
    ((waking .a2 1).goingDown = false ∧ (waking .a2 1).ldg.waking ≠ 0 ∧ (waking .a2 1).tripped = false) ∧
    (let s : State := { started with ldg := { entering := some .a3, latched := true } }
     s.goingDown = true ∧ s.ldg.latched = true ∧ s.ldg.entering = some .a3 ∧ s.tripped = false) := by decide +kernel

theorem witness_RequestsInTransitionsAreHeld :
    (let s := entering .a2
     (Memory.wf s.mem = true ∧ storeWf 0 s.regs = true) ∧ (s.boot.powered = true ∧ 1 ≤ s.boot.step ∧ s.inA1 = false) ∧
       s.ldg.asked = false ∧ s.ldg.latched = false ∧ s.moving = true ∧
       ((s.setReg Reg.PCI_LINK 0x506).linkUp = true ∧ 6 ≤ s.boot.step ∧ s.boot.failed = false ∧ s.asleep = true)) ∧
    (started.moving = false ∧ started.ldg.ps.depth < PState.a3.depth ∧ started.entryRefusal .a3 = none) ∧
    (let s : State := { started with ldg := { entering := some .a2, held := some .a3 } }
     s.ldg.entering = some .a2 ∧ s.ldg.held = some .a3 ∧ s.ldg.waking = 0 ∧ s.entryRefusal .a3 = none) ∧
    (let s : State := { started with ldg := { ps := .a2, waking := 4, held := some .a2 } }
     s.ldg.ps = .a2 ∧ s.ldg.waking = 4 ∧ s.ldg.entering = none ∧ s.ldg.held = some .a2 ∧ s.image.st = .empty ∧
       s.anyDma = false ∧ s.anyTest = false) := by decide +kernel

theorem witness_RingHeadsAndPhases :
    (let s := (ringing {}).setReg (Reg.BEL_RING_TAIL + ringOff 1) 64
     s.ringHead 1 ≤ (64 : DWord).toNat ∧ (64 : DWord).toNat ≤ s.ringTail 1 ∧ s.ringTail 1 < (65 : DWord).toNat) ∧
    (let s := (ringing {}).setReg (Reg.BEL_RING_HEAD + ringOff 1) 64
     (63 : DWord).toNat < s.ringHead 1) ∧ (up.serving = true ∧ up.inA1 = false) := by decide +kernel

/-! ## Results that the spec works out -/

/-- The command answers a next state with a property. -/
def after (c : Instr) (s : State) (p : State → Bool) : Bool :=
  match exec c s with
  | .next t => p t
  | _ => false

/-- Example under R86: IF4 code 5 with scale 0x7A and segment scale 2^-6 is 39/512, 78/1024. -/
theorem test_decode_scaled : (((elemValue .if4 5).mul (scaleValue 0x7A)).mul ⟨false, 1, -6⟩).at (-10) = 78 := by decide +kernel

/-- Example under R91: 0.75, 0.001 and -0.3 in one IW16 block. -/
theorem test_wire_encode : wireEncode ([0x3F400000, 0x3A83126F, 0xBE99999A].map dyF) = (([24576, 33, -9830], 127), false) := by
  decide +kernel

/-- The block of R115's example takes 160, its elements the codes 6, -4, 1 and 0. -/
theorem test_block_scale : scaleCode 6 ⟨false, 1, -9⟩ (dyF 0x3FE66666) = some 0xE4 ∧
    scaleCode 6 ⟨false, 1, -9⟩ (dyF 0x402CCCCD) = some 0xED ∧ scaleCode 6 ⟨false, 1, -5⟩ (dyF 0x42200000) = some 0xEB ∧
    scaleCode 6 ⟨false, 1, -5⟩ (dyF 0x402CCCCD) = some 0xAD := by decide +kernel

theorem test_encode_if4 : ([0x3FE66666, 0xBF8CCCCD, 0x3E99999A, 0x3D4CCCCD].map fun w =>
    (encodeScaled ⟨.if4, false, 32, 4, 32, false, false⟩ w 0x3EA00000 none).code) = [7, 14, 2, 0] := by decide +kernel

/-- The zeroed total of R129's example crosses its limit, 128 does not. -/
theorem test_zero_limit : totalCross 1024 150 8192 = true ∧ totalCross 1024 128 8192 = false := by decide +kernel

/-- The two blocks of the worked addition (R256 to R262), their residues, their sum and its residue. -/
def blockA : WireBlock := ⟨[24576, 33, -9830] ++ List.replicate 29 0, 127, 116⟩

def blockB : WireBlock := ⟨[20000, -100, 5] ++ List.replicate 29 0, 125, 140⟩

theorem test_block_sum : residueOf blockA.mant blockA.exp = 116 ∧ residueOf blockB.mant blockB.exp = 140 ∧
    addTry false [blockA, blockB] ⟨[], []⟩ = ⟨⟨[29576, 8, -9829] ++ List.replicate 29 0, 127, 247⟩, false, none⟩ := by decide +kernel

/-- R261: a wrong lane is seen by the sum check, a wrong mantissa by the re-encode check. -/
theorem test_block_faults : (addTry false [blockA, blockB] ⟨[(0, 1)], []⟩).failed.isSome = true ∧
    (addTry false [blockA, blockB] ⟨[], [(0, 1)]⟩).failed.isSome = true := by decide +kernel

/-- The variants of R38's example. -/
def masks (ms : List (BitVec 64)) : Sections := { sections with variants := ms.map fun m => ⟨m, 25, []⟩ }

theorem test_variant : chooseVariant (masks [8, 0x288, 0x88, 0xFFF]) 0x88 = 3 ∧ chooseVariant (masks [8, 0x288, 0xFFF]) 0x88 = 2 ∧
    chooseVariant (masks [8, 0xFFF]) 0x88 = 2 := by decide +kernel

/-- The address of R216's example, channels S2.C5, S6.C20 and S7.C31 mapped out. -/
def mapped : State :=
  { up with hbm := { up.hbm with inService := BitVec.allOnes 256 &&& ~~~(BitVec.ofNat 256 (2 ^ 69 + 2 ^ 212 + 2 ^ 255)) } }

theorem test_decode_address : mapped.hbmPlace 0x1234567890 = some (42, 309041296) ∧ windowOffset 42 309041296 = 0x15126B9890 ∧
    mapped.imageStart = 504926258176 ∧ mapped.hbmPlace 505999999999 ≠ none ∧ mapped.hbmPlace 506000000000 = none := by
  decide +kernel

/-- The required idle shares of R230's example: none at 94 °C, 2 % at 95, 10 % at 99. -/
theorem test_throttle : after (.hbmTempTimer [94, 95, 97, 98, 99, 0, 0, 0]) up (fun t => decide ([t.fld Reg.MEM_THROTTLE 9 0, t.fld Reg.MEM_THROTTLE 25 16, t.fld (Reg.MEM_THROTTLE + 4) 9 0,
        t.fld (Reg.MEM_THROTTLE + 4) 25 16, t.fld (Reg.MEM_THROTTLE + 8) 9 0] = [0, 32, 96, 128, 160])) = true := by decide +kernel

/-- The overload example of chapter 3: 500 stitches, slots 21 to 24 held at tick 10,050. -/
def loaded500 (now : Nat) (waiting : List Nat) : State :=
  { live with
    image := { live.image with file := some { tiny with sections := { sections with primary := List.replicate 500 edgeStitch } } }
    tick := { live.tick with now := now }
    adm := { accepted := waiting.map fun k => (k, ticket k), freePlots := 100 } }

theorem test_overload : (loaded500 10050 [20, 21, 22, 23, 24]).gateDecide (ticket (2 ^ 64 - 1)) = .refuse 1 1 ∧
    (loaded500 10500 [21, 22, 23, 24]).gateDecide (ticket (2 ^ 64 - 1)) = .accept 25 12999 ∧
    (loaded500 15000 [30, 31, 32, 33]).gateDecide (ticket (2 ^ 64 - 1)) = .accept 34 17499 := by decide +kernel

/-- The resoles of R136's example: a tick of 480,000 cycles, a reserve of 48,000. -/
def tick200 (debited : Nat) : State :=
  { live with
    image := { live.image with file := some (withHeader { header with tickPeriod := 200 } tiny) }
    tick := { live.tick with debited := debited } }

theorem test_resole_tests : (tick200 0).grants 96000 331200 2048 = true ∧ (tick200 2048).grants 140000 280000 25600 = true ∧
    (tick200 27648).grants 210000 236000 25600 = false ∧ (tick200 0).grants 475000 0 201 = false := by decide +kernel

/-- The AdamW step of R249's example leaves the BF16 master at 0.5 and moves the FP32 value down by 2.4 · 10^-4. -/
theorem test_adamw : (let u : UpdateSet := { rule0 with b1 := 0x3F666666, b2 := 0x3F733333, eps := 0x322BCC77, wd := 0x3DCCCCCD }
    let o := ruleElem ⟨0x3F800000, 0x399D4952, 0x3A16BE48, 0x3FE90CB3⟩ u [0x3B03126F, 0x3B449BA6] 0x3F000000 0x3B83126F 0
    (encode16 .bf16 o.x1 false false none).1.code = 0x3F00 ∧
      (dyF o.x1).at (-40) ≤ 499757763 * 2 ^ 40 / 10 ^ 9 + 2 ^ 20 ∧ 499757762 * 2 ^ 40 / 10 ^ 9 - 2 ^ 20 ≤ (dyF o.x1).at (-40)) := by
  decide +kernel

/-- The late commit of the laggard in chapter 14: epoch 7,351 becomes 7,352. -/
def laggard : State :=
  (({ unresolved with upd := { epoch := 7351, shadow := .complete, shadowStep := 52117 } } : State).setReg Reg.STL_RECON_STEP
    52117).setReg Reg.STL_RECON_EPOCH 7351

theorem test_late_commit : after .lateCommit laggard (fun t => decide (t.upd.epoch = 7352 ∧ t.upd.slabB = true ∧ t.stl.commit.outcome = 1)) = true := by decide +kernel

/-- The full ring of chapter 20: a record that arrives is lost, and counted. -/
def fullRing (head : DWord) : State :=
  ((ringing { inflight := [{ record with tick := 10412 }] }).setReg (Reg.BEL_RING_TAIL + ringOff 1) 65536).setReg
    (Reg.BEL_RING_HEAD + ringOff 1) head

theorem test_ring_full : after (.traceRecordArrival 1 false) (fullRing 0) (fun t => decide (t.ringTail 1 = 65536 ∧ (t.ring 1).lostRing = 1 ∧ (t.ring 1).firstLost = 10412)) = true := by decide +kernel

/-- PHASE is 1 on the first pass, 0 on the second. -/
theorem test_ring_phase : after (.traceRecordArrival 1 false) (fullRing 32768) (fun t => decide (t.ringTail 1 = 65568 ∧ (t.ring 1).group.length = 1)) = true ∧ ofLe (((traceBytes 65536 0 record).drop 8).take 4) / 2 ^ 31 = 1 ∧
      ofLe (((traceBytes 65536 65536 record).drop 8).take 4) / 2 ^ 31 = 0 := by decide +kernel

/-- The wait bound of an E port in R204's example, 256 cycles. -/
theorem test_wait_bound : waitBound 0 0 = 256 := by decide +kernel

/-- R13: a write takes effect in full. -/
theorem test_register_scratch : after (.registerWrite Reg.TOP_SCRATCH 4 0x12345678) up (fun t => decide (t.reg Reg.TOP_SCRATCH = 0x12345678)) = true := by decide +kernel

/-- R422: a 4-byte write to half of a 64-bit register is ignored and recorded with KIND 3. -/
theorem test_half_write : after (.registerWrite (Reg.LAST_SRC + 4) 4 5) up (fun t => decide (t.reg Reg.LAST_SRC = 0 ∧ t.fld Reg.TOP_ACCESS_ERR 30 28 = 3 ∧ t.fld Reg.TOP_ACCESS_ERR 25 0 = Reg.LAST_SRC + 4)) = true := by decide +kernel

/-- R310: a release with COMMIT held flips the slabs. -/
theorem test_commit : after .commitRelease (decided (some .commit)) (fun t => decide (t.upd.epoch = 1 ∧ t.upd.slabB = true)) = true := by decide +kernel

/-- R65: a halt completes every accepted ticket with status HALTED, in order of slot. -/
theorem test_halt : after .edgeTimeoutHalt { closing with tick := { closing.tick with held := none } } (fun t => decide (t.adm.unread.map Completion.tag = [5, 5] ∧ t.adm.unread.all (fun c => decide (c.status = .halted)) = true ∧
        t.image.st = .loaded)) = true := by decide +kernel

/-- With tensor 0 of an IF4 class. -/
def ofIf4 : Sections := { sections with classes := [⟨[.if4, .bf16], false, [], false, 0, 1⟩] }

/-- The element of R86's example stored alone in tensor 0: IF4 code 5, block scale 0x7A, segment scale 2^-6. -/
def oneElement : State :=
  (((State.holding up .loaded { tiny with sections := ofIf4 }).devWrite .scheduled 0 [5]).devWrite .scheduled 1024
    [0x7A]).devWrite .scheduled 2048 (leBytes 4 0x3C800000)

/-- R149, R151: its square, (39/512)^2, in FP32. -/
theorem test_product : after (.heldBlockLoad { held with partner := .if4 }) oneElement (fun s =>
    after (.heldPass { pass with firstRow := 0 }) s fun t =>
      decide (storeGet 0 t.me.tile (tileKey 0 false 0 0) = 0x3BBE2000 ∧ storeGet 0 t.me.tile (tileKey 0 false 0 1) = 0)) = true := by
  decide +kernel

/-- R173: 1 + 2 is 3 in the lane that K1 selects; the other lanes keep their value. -/
theorem test_vector_add : after (.vectorChain 0 (.chain chain))
    { up with ve := { up.ve with regs := [(regKey 0 1 0, 0x3F800000), (regKey 0 2 0, 0x40000000), (regKey 0 3 1, 7)], masks := [(1, 1)] } }
    (fun t => decide (t.vreg 0 3 0 = 0x40400000 ∧ t.vreg 0 3 1 = 7)) = true := by decide +kernel

/-- R183: the sum of lanes 0 to 3 of 1, 2, 3 and 4. -/
theorem test_reduction : after (.vectorChain 0 (.chain { chain with
      stages := [], red := some ⟨.rsum, .reg 1, false, false, true, 0⟩ }))
    { up with ve := { up.ve with
      regs := [(regKey 0 1 0, 0x3F800000), (regKey 0 1 1, 0x40000000), (regKey 0 1 2, 0x40400000), (regKey 0 1 3, 0x40800000)],
      masks := [(1, 15)] } }
    (fun t => decide (t.vreg 0 3 0 = 0x41200000)) = true := by decide +kernel

/-- R235: an INT32 sum wraps. -/
theorem test_atomic_wraps : after (.memoryAtomic .add .int32 64 [0xFF, 0xFF, 0xFF, 0xFF] false)
    (up.devWrite .scheduled 64 [0, 0, 0, 0]) (fun t => decide (t.devBytes 64 4 = [0xFF, 0xFF, 0xFF, 0xFF])) = true := by decide +kernel

/-- R221, R233: a line written through the buffer reads back before it is flushed. -/
theorem test_write_combining : after (.hbmWrite (.to 100) [1, 2, 3]) up (fun t => decide (t.devBytes 99 5 = [0, 1, 2, 3, 0])) = true := by
  decide +kernel

/-- R393: an accepted seed-bank write reads back at once, a register reserved to the module ignores it. -/
theorem test_seed_write : after (.seedWrite 600 9) up (fun t => decide (t.seed 600 = 9)) = true ∧
    after (.seedWrite 40 9) up (fun t => decide (t.seed 40 = 3941770622)) = true := by decide +kernel

/-- R300: the arrival that reaches the target releases the unit that waits. -/
theorem test_stile_release : after (.stileArrive 1 1) (withStile { gen := 1, armed := true, count := 1, waiters := [(4, 1)] })
    (fun t => decide ((t.stile 1).armed = false ∧ .release 4 1 ∈ t.out)) = true := by decide +kernel

/-- R306: an append lies at BASE + USED. -/
theorem test_append : after (.chainAppend 0 [7, 8])
    { up with stl := { plots := [(100, { base := 4096, used := 6, limit := 8 })], commit := { bound := [(0, 100)] } } }
    (fun t => decide ((t.plot 100).used = 8 ∧ t.devBytes 4102 2 = [7, 8])) = true := by decide +kernel

/-- R351: a cap below 1,200 W is ignored, 1,200 W reads back. -/
theorem test_cap : after (.capWrite 1199) up (fun t => decide (t.seed 0 = 2300)) = true ∧
    after (.capWrite 1200) up (fun t => decide (t.seed 0 = 1200)) = true := by decide +kernel

/-- R365, R376: a wake event acted on sets its cause bit and FIRST. -/
theorem test_wake : after (.wakeEvent .wakePin) (sleeping .a2)
    (fun t => t.bit Reg.LDG_WAKE_CAUSE 3 && decide (t.fld Reg.LDG_WAKE_CAUSE 10 8 = 3 ∧ t.ldg.waking = 1)) = true := by
  decide +kernel

/-- R385: a firmware update begins once. -/
theorem test_update_begins : after (.requestUpdate 1) up (fun t => decide (t.sec.pldm = .learn)) = true := by decide +kernel

/-- R373: the third sample beyond 110 °C trips the module. -/
theorem test_trip : after (.sensorSample hotSample) heating (fun t => decide (t.ldg.ps = .a3) && t.tripped) = true := by decide +kernel

/-- R321: after a sizing write of all ones BAR0 reads its 64 MiB and type 4, BAR2 its 2^28 and type 12; R383: 0 when boot-failed. -/
theorem test_bar_sizes : after (.configurationRequest (.write 0 0x10 0xFFFFFFFF)) up (fun t => decide (t.configWord 0x10 = 0xFC000004)) = true ∧
    after (.configurationRequest (.write 0 0x18 0xFFFFFFFF)) up (fun t => decide (t.configWord 0x18 = 0xF000000C)) = true ∧
    ({ up with boot := { up.boot with failed := true } } : State).configWord 0x18 = 0 := by decide +kernel


end Sys2Proof.Tests
end

/-! Rounding to nearest even in the short formats (R96): the codes of a format are points of a growing grid, `roundShift`
rounds to nearest even on the multiples of one power of two, and near the value to be rounded the two grids agree. -/

namespace Sys2Proof.Machine

/-! ## Rounding between the points of a growing grid -/

/-- `r` is one of the grid points `c` and `c + 1` around `X`: the nearer one, at a tie the even one. -/
def RoundsTo (W : Nat → Nat) (X c r : Nat) : Prop :=
  W c ≤ X ∧ X < W (c + 1) ∧
    (r = c ∧ (2 * X < W c + W (c + 1) ∨ 2 * X = W c + W (c + 1) ∧ c % 2 = 0) ∨
      r = c + 1 ∧ (W c + W (c + 1) < 2 * X ∨ 2 * X = W c + W (c + 1) ∧ c % 2 = 1))

/-- On a growing grid the nearer neighbour is the nearest of all points, and a tie is resolved to the even point. -/
theorem RoundsTo.nearest {W : Nat → Nat} {X c r : Nat} (hW : StrictMono W) (h : RoundsTo W X c r) (k : Nat) :
    ((X : Int) - W r).natAbs ≤ ((X : Int) - W k).natAbs ∧
      (k ≠ r → ((X : Int) - W k).natAbs = ((X : Int) - W r).natAbs → r % 2 = 0) := by
  obtain ⟨hlo, hhi, hr⟩ := h
  have hside : W k < W c ∧ k < c ∨ k = c ∨ k = c + 1 ∨ W (c + 1) < W k ∧ c + 1 < k := by
    rcases Nat.lt_trichotomy k c with hk | hk | hk
    · exact .inl ⟨hW hk, hk⟩
    · exact .inr (.inl hk)
    · rcases Nat.eq_or_lt_of_le hk with hk | hk
      · exact .inr (.inr (.inl hk.symm))
      · exact .inr (.inr (.inr ⟨hW hk, hk⟩))
  rcases hr with ⟨rfl, hr⟩ | ⟨rfl, hr⟩ <;> rcases hside with ⟨hk, hkc⟩ | rfl | rfl | ⟨hk, hkc⟩ <;> omega

/-- Below the midpoint of `M` and the point after it, rounding does not pass `M`. -/
theorem RoundsTo.le_of_lt_midpoint {W : Nat → Nat} {X c r M : Nat} (hW : StrictMono W) (h : RoundsTo W X c r)
    (hX : 2 * X < W M + W (M + 1)) : r ≤ M := by
  obtain ⟨hlo, hhi, hr⟩ := h
  have hstep : W M < W (M + 1) := hW M.lt_succ_self
  have hc : c ≤ M := Nat.lt_succ_iff.1 (hW.lt_iff_lt.1 (show W c < W (M + 1) by omega))
  rcases Nat.eq_or_lt_of_le hc with rfl | hc <;> omega

/-- Rounding sees the two neighbours only, so it carries over to a grid that agrees there, shifted by an even number. -/
theorem RoundsTo.shift {V W : Nat → Nat} {X c r b : Nat} (hb : b % 2 = 0) (h0 : W (b + c) = V c)
    (h1 : W (b + (c + 1)) = V (c + 1)) (h : RoundsTo V X c r) : RoundsTo W X (b + c) (b + r) := by
  obtain ⟨hlo, hhi, hr⟩ := h
  rw [← Nat.add_assoc] at h1
  refine ⟨by omega, by omega, ?_⟩
  rw [h0, h1]
  omega

/-- Rounding does not depend on the unit in which the grid and the number are counted. -/
theorem RoundsTo.scale {W : Nat → Nat} {X c r S : Nat} (hS : 0 < S) (h : RoundsTo W X c r) :
    RoundsTo (fun n => W n * S) (X * S) c r := by
  have hlt (a b : Nat) : a * S < b * S ↔ a < b := Nat.mul_lt_mul_right hS
  have heq (a b : Nat) : a * S = b * S ↔ a = b := Nat.mul_left_inj hS.ne'
  simpa only [RoundsTo, ← Nat.add_mul, ← Nat.mul_assoc, hlt, heq, Nat.mul_le_mul_right_iff hS] using h

/-- A whole number is its own rounding. -/
theorem roundsTo_self (n : Nat) : RoundsTo id n n n := by
  unfold RoundsTo id
  omega

/-- Without discarded bits `roundShift` is exact. -/
theorem roundShift_of_nonpos (m : Nat) {d : Int} (hd : d ≤ 0) : (roundShift m d).1 = m * 2 ^ (-d).toNat := by
  rw [roundShift, if_pos hd]

/-- With `d` bits to discard `roundShift` rounds to nearest even on the multiples of 2^d. -/
theorem roundShift_roundsTo_of_pos (m : Nat) {d : Int} (hd : 0 < d) :
    RoundsTo (· * 2 ^ d.toNat) m (m / 2 ^ d.toNat) (roundShift m d).1 := by
  have hm := Nat.div_add_mod' m (2 ^ d.toNat)
  have hr := Nat.mod_lt m (Nat.two_pow_pos d.toNat)
  simp only [RoundsTo, roundShift, if_neg hd.not_ge, Nat.succ_mul]
  split <;> omega

/-- `roundShift m (q − e)` rounds m·2^e to nearest even on the multiples of 2^q, here counted in units of 2^u. -/
theorem roundShift_roundsTo (m : Nat) {e q u : Int} (he : u ≤ e) (hq : u ≤ q) :
    RoundsTo (fun n => n * 2 ^ (q - u).toNat) (m * 2 ^ (e - u).toNat) (m * 2 ^ (e - q).toNat / 2 ^ (q - e).toNat)
      (roundShift m (q - e)).1 := by
  rcases le_or_gt q e with hd | hd
  · have hexp : (e - u).toNat = (e - q).toNat + (q - u).toNat := by omega
    have hzero : (q - e).toNat = 0 := by omega
    rw [roundShift_of_nonpos m (by omega), hzero, pow_zero, Nat.div_one, neg_sub, hexp, pow_add, ← Nat.mul_assoc]
    exact (roundsTo_self _).scale (Nat.two_pow_pos _)
  · have hexp : (q - u).toNat = (q - e).toNat + (e - u).toNat := by omega
    have hzero : (e - q).toNat = 0 := by omega
    simpa only [hzero, hexp, pow_zero, Nat.mul_one, pow_add, Nat.mul_assoc] using
      (roundShift_roundsTo_of_pos m (d := q - e) (by omega)).scale (Nat.two_pow_pos (e - u).toNat)

/-! ## The magnitudes of a format's codes -/

/-- The magnitude of code `k` of a format with `mb` mantissa bits, in units of its smallest subnormal (R80 to R83, R87). -/
def codeMag (mb k : Nat) : Nat :=
  if k / 2 ^ mb = 0 then k else (k % 2 ^ mb + 2 ^ mb) * 2 ^ (k / 2 ^ mb - 1)

/-- The codes of one binade, its upper end included, count the multiples of its unit 2^j; binade 0 holds the subnormals too. -/
theorem codeMag_binade {mb j n : Nat} (hlow : j = 0 ∨ 2 ^ mb ≤ n) (hhigh : n ≤ 2 ^ (mb + 1)) :
    codeMag mb (j * 2 ^ mb + n) = n * 2 ^ j := by
  have hp : 0 < 2 ^ mb := Nat.two_pow_pos mb
  rw [pow_succ] at hhigh
  obtain hn | ⟨a, rfl, ha⟩ | rfl : n < 2 ^ mb ∨ (∃ a, n = 2 ^ mb + a ∧ a < 2 ^ mb) ∨ n = 2 ^ mb * 2 := by
    rcases Nat.lt_or_ge n (2 ^ mb) with h | h
    · exact .inl h
    · rcases Nat.eq_or_lt_of_le hhigh with h' | h'
      · exact .inr (.inr h')
      · exact .inr (.inl ⟨n - 2 ^ mb, by omega, by omega⟩)
  · obtain rfl : j = 0 := hlow.resolve_right (by omega)
    simp [codeMag, Nat.div_eq_of_lt hn]
  · have hk : j * 2 ^ mb + (2 ^ mb + a) = a + 2 ^ mb * (j + 1) := by ring
    rw [codeMag, hk, Nat.add_mul_div_left _ _ hp, Nat.add_mul_mod_self_left, Nat.div_eq_of_lt ha, Nat.mod_eq_of_lt ha,
      if_neg (by omega)]
    simp [Nat.add_comm]
  · have hk : j * 2 ^ mb + 2 ^ mb * 2 = 2 ^ mb * (j + 2) := by ring
    rw [codeMag, hk, Nat.mul_div_cancel_left _ hp, Nat.mul_mod_right, if_neg (by omega)]
    simp [pow_succ]
    ring

/-- The magnitudes grow with the code: two codes that follow each other lie in one binade. -/
theorem codeMag_strictMono (mb : Nat) : StrictMono (codeMag mb) := by
  refine strictMono_nat_of_lt_succ fun k => ?_
  have hdm := Nat.div_add_mod' k (2 ^ mb)
  have hlt := Nat.mod_lt k (Nat.two_pow_pos mb)
  obtain ⟨j, n, rfl, hlow, hhigh⟩ :
      ∃ j n, k = j * 2 ^ mb + n ∧ (j = 0 ∨ 2 ^ mb ≤ n) ∧ n < 2 ^ (mb + 1) := by
    rw [pow_succ]
    rcases hj : k / 2 ^ mb with _ | j <;> rw [hj] at hdm
    · exact ⟨0, k, by omega, .inl rfl, by omega⟩
    · rw [Nat.succ_mul] at hdm
      exact ⟨j, 2 ^ mb + k % 2 ^ mb, by omega, by omega, by omega⟩
  rw [Nat.add_assoc, codeMag_binade hlow hhigh.le, codeMag_binade (by omega) hhigh]
  exact Nat.mul_lt_mul_of_pos_right n.lt_succ_self (Nat.two_pow_pos j)

/-- The codes' magnitudes in units of 2^u. -/
def codeGrid (f : Fmt) (u : Int) (k : Nat) : Nat := codeMag (Fmt.shape f).2.1 k * 2 ^ ((Fmt.shape f).2.2 - u).toNat

/-- The codes' magnitudes grow in every unit. -/
theorem codeGrid_strictMono (f : Fmt) (u : Int) : StrictMono (codeGrid f u) :=
  (codeMag_strictMono _).mul_const (Nat.two_pow_pos _)

/-- Zero is the point of code 0. -/
theorem roundsTo_zero (f : Fmt) (u : Int) : RoundsTo (codeGrid f u) 0 0 0 := by
  have h0 : codeGrid f u 0 = 0 := by simp [codeGrid, codeMag]
  have h1 : codeGrid f u 0 < codeGrid f u (0 + 1) := codeGrid_strictMono f u one_pos
  unfold RoundsTo
  omega

/-- A number without sign at an exponent not above its own. -/
theorem Dy.at_of_pos {x : Dy} (hx : x.neg = false) (u : Int) : x.at u = (x.m * 2 ^ (x.e - u).toNat : Nat) := by
  simp [Dy.at, hx]

/-- The exponent and mantissa bits hold every finite magnitude code. -/
theorem maxCode_lt (f : Fmt) : maxCode f < 2 ^ ((Fmt.shape f).1 + (Fmt.shape f).2.1) := by
  cases f <;> decide

/-- The value of a finite magnitude code: a subnormal, or a mantissa with its leading 1 in a binade (R80 to R83, R87). -/
theorem elemValue_of_le {f : Fmt} {k : Nat} (hk : k ≤ maxCode f) :
    elemValue f k =
      if k / 2 ^ (Fmt.shape f).2.1 = 0 then ⟨false, k, (Fmt.shape f).2.2⟩
      else ⟨false, k % 2 ^ (Fmt.shape f).2.1 + 2 ^ (Fmt.shape f).2.1,
        (Fmt.shape f).2.2 + (k / 2 ^ (Fmt.shape f).2.1 : Nat) - 1⟩ := by
  have hlt := hk.trans_lt (maxCode_lt f)
  cases f
  case ii4 => clear hlt; revert k; decide
  all_goals
    simp only [elemValue, Nat.mod_eq_of_lt hlt, Nat.div_eq_of_lt hlt]
    rfl

/-- A finite magnitude code at an exponent not above the smallest subnormal's. -/
theorem elemValue_at {f : Fmt} {k : Nat} {u : Int} (hk : k ≤ maxCode f) (hu : u ≤ (Fmt.shape f).2.2) :
    (elemValue f k).at u = codeGrid f u k := by
  rw [elemValue_of_le hk, codeGrid, codeMag]
  generalize (Fmt.shape f).2.1 = mb, (Fmt.shape f).2.2 = qm at *
  split
  next => rw [Dy.at_of_pos rfl]
  next h =>
    have hexp (b : Nat) (hb : b ≠ 0) : (qm + b - 1 - u).toNat = (b - 1) + (qm - u).toNat := by omega
    rw [Dy.at_of_pos rfl, hexp _ h, pow_add, Nat.mul_assoc]

/-! ## Below the overflow threshold -/

/-- Comparison of magnitudes in any unit that measures both numbers. -/
theorem Dy.lt_of_magLe_eq_false {x y : Dy} {u : Int} (hx : u ≤ x.e) (hy : u ≤ y.e) (h : y.magLe x = false) :
    x.m * 2 ^ (x.e - u).toNat < y.m * 2 ^ (y.e - u).toNat := by
  have hym : y.m ≠ 0 := fun h0 => by simp [Dy.magLe, h0] at h
  rcases Nat.eq_zero_or_pos x.m with hxm | hxm
  · rw [hxm, Nat.zero_mul]
    positivity
  · have hlt : x.m * 2 ^ (x.e - min y.e x.e).toNat < y.m * 2 ^ (y.e - min y.e x.e).toNat := by
      simpa [Dy.magLe, hym, hxm.ne'] using h
    have hxe : (x.e - u).toNat = (x.e - min y.e x.e).toNat + (min y.e x.e - u).toNat := by omega
    have hye : (y.e - u).toNat = (y.e - min y.e x.e).toNat + (min y.e x.e - u).toNat := by omega
    rw [hxe, hye, pow_add, pow_add, ← Nat.mul_assoc, ← Nat.mul_assoc]
    exact Nat.mul_lt_mul_of_pos_right hlt (Nat.two_pow_pos _)

/-- R94: the overflow threshold lies midway between the largest finite value and the value that would come next. -/
theorem overflowAt_midpoint (f : Fmt) :
    (Fmt.shape f).2.2 - 1 ≤ (overflowAt f).e ∧
      (overflowAt f).m * 2 ^ ((overflowAt f).e - ((Fmt.shape f).2.2 - 1)).toNat =
        codeMag (Fmt.shape f).2.1 (maxCode f) + codeMag (Fmt.shape f).2.1 (maxCode f + 1) := by
  cases f <;> decide +kernel

/-- A magnitude below the overflow threshold lies below the midpoint after the largest finite code. -/
theorem lt_midpoint_of_not_overflow {f : Fmt} {x : Dy} {u : Int} (hx : u ≤ x.e) (hu : u ≤ (Fmt.shape f).2.2)
    (h : (overflowAt f).magLe x = false) :
    2 * (x.m * 2 ^ (x.e - u).toNat) < codeGrid f u (maxCode f) + codeGrid f u (maxCode f + 1) := by
  obtain ⟨hle, hmid⟩ := overflowAt_midpoint f
  have hlt := Dy.lt_of_magLe_eq_false (u := u - 1) (by omega) (by omega) h
  have hxe : (x.e - (u - 1)).toNat = (x.e - u).toNat + 1 := by omega
  have hoe : ((overflowAt f).e - (u - 1)).toNat =
      ((overflowAt f).e - ((Fmt.shape f).2.2 - 1)).toNat + ((Fmt.shape f).2.2 - u).toNat := by omega
  rw [hxe, hoe, pow_add, pow_add, ← Nat.mul_assoc, ← Nat.mul_assoc, hmid, Nat.add_mul] at hlt
  simp only [codeGrid]
  omega

/-! ## The code that `roundCode` answers -/

/-- The exponent of the unit in which a format rounds `x`: that of its binade, not below the smallest subnormal's. -/
def roundExp (f : Fmt) (x : Dy) : Int := max (Nat.log2 x.m + x.e - (Fmt.shape f).2.1) (Fmt.shape f).2.2

/-- No unit lies below that of the subnormals. -/
theorem qmin_le_roundExp (f : Fmt) (x : Dy) : (Fmt.shape f).2.2 ≤ roundExp f x := le_max_right _ _

/-- The integers of II4 have one unit throughout: a magnitude below the threshold lies below 8. -/
theorem roundExp_ii4 {x : Dy} (hm : x.m ≠ 0) (h : (overflowAt .ii4).magLe x = false) : roundExp .ii4 x = 0 := by
  have hlt := lt_midpoint_of_not_overflow (u := min x.e 0) (min_le_left _ _) (min_le_right _ _) h
  have hlog : 2 ^ (Nat.log2 x.m + (x.e - min x.e 0).toNat) < 2 ^ (3 + (0 - min x.e 0).toNat) := by
    have hle := Nat.mul_le_mul_right (2 ^ (x.e - min x.e 0).toNat) (Nat.log2_self_le hm)
    have h15 : codeMag 3 7 = 7 ∧ codeMag 3 8 = 8 := by decide
    simp only [codeGrid, Fmt.shape, maxCode, h15] at hlt
    rw [pow_add, pow_add]
    omega
  have hlead := (Nat.pow_lt_pow_iff_right (by decide)).1 hlog
  simp only [roundExp, Fmt.shape]
  omega

/-- Where the discarded bits are 0, `roundShift` answers what is left. -/
theorem roundShift_of_exact {m : Nat} {e q : Int} (h : q ≤ e ∨ m % 2 ^ (q - e).toNat = 0) :
    (roundShift m (q - e)).1 = m * 2 ^ (e - q).toNat / 2 ^ (q - e).toNat := by
  rcases le_or_gt q e with hq | hq
  · have hzero : (q - e).toNat = 0 := by omega
    rw [roundShift_of_nonpos m (by omega), hzero, neg_sub, pow_zero, Nat.div_one]
  · have hzero : (e - q).toNat = 0 := by omega
    have hdvd : m % 2 ^ (q - e).toNat = 0 := h.resolve_left hq.not_ge
    simp [roundShift, hq.not_ge, hzero, hdvd, (Nat.two_pow_pos (q - e).toNat).ne]

/-- Rounding to nearest even in one equation: the shortcuts of `roundCode` for exact values and at the largest finite code
answer what the general case answers. -/
theorem roundCode_none {f : Fmt} {x : Dy} (hm : x.m ≠ 0) (h : (overflowAt f).magLe x = false) :
    (roundCode f x none).1 = min ((roundExp f x - (Fmt.shape f).2.2).toNat * 2 ^ (Fmt.shape f).2.1 +
      (roundShift x.m (roundExp f x - x.e)).1) (maxCode f) := by
  have hshort (q : Int) (base M : Nat) :
      (if (decide (q ≤ x.e) || decide (x.m % 2 ^ (q - x.e).toNat = 0)) = true then
          min (base + x.m * 2 ^ (x.e - q).toNat / 2 ^ (q - x.e).toNat) M
        else if M ≤ base + x.m * 2 ^ (x.e - q).toNat / 2 ^ (q - x.e).toNat then M
        else min (base + (roundShift x.m (q - x.e)).1) M) = min (base + (roundShift x.m (q - x.e)).1) M := by
    split_ifs with hexact hmax
    · rw [roundShift_of_exact (by simpa using hexact)]
    · obtain ⟨-, -, hr⟩ := roundShift_roundsTo x.m (min_le_left x.e q) (min_le_right x.e q)
      omega
    · rfl
  simp only [roundCode, if_neg hm, apply_ite Prod.fst, hshort]
  cases f
  case ii4 => rw [roundExp_ii4 hm h]
  all_goals rfl

/-- In the unit of its binade a number has at most one bit more than the mantissa, and fewer only among the subnormals. -/
theorem scaled_bounds (f : Fmt) {x : Dy} (hm : x.m ≠ 0) :
    let n := x.m * 2 ^ (x.e - roundExp f x).toNat / 2 ^ (roundExp f x - x.e).toNat
    ((roundExp f x - (Fmt.shape f).2.2).toNat = 0 ∨ 2 ^ (Fmt.shape f).2.1 ≤ n) ∧ n < 2 ^ ((Fmt.shape f).2.1 + 1) := by
  have hq : roundExp f x = max (Nat.log2 x.m + x.e - (Fmt.shape f).2.1) (Fmt.shape f).2.2 := rfl
  have hlow := Nat.log2_self_le hm
  have hhigh := Nat.lt_log2_self (n := x.m)
  generalize roundExp f x = q, (Fmt.shape f).2.1 = mb, (Fmt.shape f).2.2 = qm, Nat.log2 x.m = l at *
  dsimp only
  rw [Nat.le_div_iff_mul_le (Nat.two_pow_pos _), Nat.div_lt_iff_lt_mul (Nat.two_pow_pos _), ← pow_add, ← pow_add]
  constructor
  · by_cases hsub : (q - qm).toNat = 0
    · exact .inl hsub
    · refine .inr ?_
      calc 2 ^ (mb + (q - x.e).toNat) ≤ 2 ^ (l + (x.e - q).toNat) := Nat.pow_le_pow_right (by decide) (by omega)
        _ = 2 ^ l * 2 ^ (x.e - q).toNat := pow_add ..
        _ ≤ x.m * 2 ^ (x.e - q).toNat := Nat.mul_le_mul_right _ hlow
  · calc x.m * 2 ^ (x.e - q).toNat < 2 ^ (l + 1) * 2 ^ (x.e - q).toNat :=
          Nat.mul_lt_mul_of_pos_right hhigh (Nat.two_pow_pos _)
      _ = 2 ^ (l + 1 + (x.e - q).toNat) := (pow_add ..).symm
      _ ≤ 2 ^ (mb + 1 + (q - x.e).toNat) := Nat.pow_le_pow_right (by decide) (by omega)

/-- Around `x` the codes count the multiples of the unit in which `x` is rounded, from an even code on. -/
theorem codeGrid_binade {f : Fmt} {x : Dy} {u : Int} {n : Nat} (hu : u ≤ (Fmt.shape f).2.2)
    (hlow : (roundExp f x - (Fmt.shape f).2.2).toNat = 0 ∨ 2 ^ (Fmt.shape f).2.1 ≤ n)
    (hhigh : n ≤ 2 ^ ((Fmt.shape f).2.1 + 1)) :
    codeGrid f u ((roundExp f x - (Fmt.shape f).2.2).toNat * 2 ^ (Fmt.shape f).2.1 + n) =
      n * 2 ^ (roundExp f x - u).toNat := by
  have hqm := qmin_le_roundExp f x
  have hexp : (roundExp f x - u).toNat =
      (roundExp f x - (Fmt.shape f).2.2).toNat + ((Fmt.shape f).2.2 - u).toNat := by omega
  rw [codeGrid, codeMag_binade hlow hhigh, hexp, pow_add, Nat.mul_assoc]

/-- R96: below the overflow threshold `roundCode` rounds to nearest even on the grid of the format's codes, and answers a
finite one. -/
theorem roundCode_roundsTo {f : Fmt} {x : Dy} {u : Int} (hx : u ≤ x.e) (hu : u ≤ (Fmt.shape f).2.2)
    (h : (overflowAt f).magLe x = false) :
    (roundCode f x none).1 ≤ maxCode f ∧
      ∃ c, RoundsTo (codeGrid f u) (x.m * 2 ^ (x.e - u).toNat) c (roundCode f x none).1 := by
  rcases eq_or_ne x.m 0 with hm | hm
  · have hcode : (roundCode f x none).1 = 0 := by simp [roundCode, hm]
    rw [hcode, hm, Nat.zero_mul]
    exact ⟨Nat.zero_le _, 0, roundsTo_zero f u⟩
  · obtain ⟨hlow, hhigh⟩ := scaled_bounds f hm
    have heven : 2 ∣ 2 ^ (Fmt.shape f).2.1 := dvd_pow_self 2 (by cases f <;> decide)
    have hpoint := codeGrid_binade hu hlow hhigh.le
    have hnext := codeGrid_binade hu (hlow.imp_right Nat.le_succ_of_le) hhigh
    have hround := (roundShift_roundsTo x.m hx (hu.trans (qmin_le_roundExp f x))).shift
      (Nat.mod_eq_zero_of_dvd (heven.mul_left _)) hpoint hnext
    have hle := hround.le_of_lt_midpoint (codeGrid_strictMono f u) (lt_midpoint_of_not_overflow hx hu h)
    rw [roundCode_none hm h, min_eq_left hle]
    exact ⟨hle, _, hround⟩

/-- Settles O53: `roundCode` picks the nearer neighbour on the codes' growing grid, hence the nearest of all codes; the
halfway points of IF4 are evaluated. -/
theorem roundingIsNearestEven : Obligations.RoundingIsNearestEven := by
  refine ⟨fun f x hneg h => ?_, by decide +kernel⟩
  dsimp only
  have hx : min x.e (min (Fmt.shape f).2.2 0) ≤ x.e := by omega
  have hu : min x.e (min (Fmt.shape f).2.2 0) ≤ (Fmt.shape f).2.2 := by omega
  generalize min x.e (min (Fmt.shape f).2.2 0) = u at *
  obtain ⟨hmax, c, hround⟩ := roundCode_roundsTo hx hu h
  refine ⟨hmax, fun k hk => ?_⟩
  rw [Dy.at_of_pos hneg, elemValue_at hmax hu, elemValue_at hk hu]
  exact hround.nearest (codeGrid_strictMono f u) k

end Sys2Proof.Machine

/-! Residue bytes (R259): `2 ^ 8` leaves 1 modulo 255, so a rotation left of a byte other than 0xFF is a multiplication by a
power of two modulo 255, and the rotation right undoes it. -/

namespace Sys2Proof.Machine

/-! ## Rotations of a word -/

/-- Rotating right undoes a rotation left. -/
theorem rotateRight_rotateLeft {w r : Nat} (b : BitVec w) (hr : r < w) : (b.rotateLeft r).rotateRight r = b := by
  refine BitVec.eq_of_getLsbD_eq fun i hi => ?_
  rw [BitVec.getLsbD_rotateRight_of_lt hr, BitVec.getLsbD_rotateLeft_of_le hr, BitVec.getLsbD_rotateLeft_of_le hr]
  by_cases hlow : i < w - r
  · simp [hlow, show r + i < w by omega]
  · simp [hlow, hi, show i - (w - r) < r by omega, show w - r + (i - (w - r)) = i by omega]

/-- The bits that leave at the top come back in at the bottom. -/
theorem toNat_rotateLeft_eq_add {w r : Nat} (b : BitVec w) (hr : r < w) :
    (b.rotateLeft r).toNat = b.toNat % 2 ^ (w - r) * 2 ^ r + b.toNat / 2 ^ (w - r) := by
  have hsplit : 2 ^ w = 2 ^ (w - r) * 2 ^ r := by rw [← pow_add, Nat.sub_add_cancel hr.le]
  have hout : b.toNat / 2 ^ (w - r) < 2 ^ r := Nat.div_lt_of_lt_mul (hsplit ▸ b.isLt)
  rw [BitVec.toNat_rotateLeft, Nat.mod_eq_of_lt hr, Nat.shiftRight_eq_div_pow, Nat.shiftLeft_eq, hsplit,
    Nat.mul_mod_mul_right, ← Nat.shiftLeft_eq, ← Nat.shiftLeft_add_eq_or_of_lt hout]

/-- A rotation left multiplies by a power of two, as `2 ^ w` leaves 1. -/
theorem rotateLeft_modEq {w r : Nat} (b : BitVec w) (hr : r < w) :
    (b.rotateLeft r).toNat ≡ b.toNat * 2 ^ r [MOD 2 ^ w - 1] := by
  have hone : 1 ≡ 2 ^ (w - r) * 2 ^ r [MOD 2 ^ w - 1] := by
    rw [← pow_add, Nat.sub_add_cancel hr.le]
    exact (Nat.modEq_sub Nat.one_le_two_pow).symm
  calc (b.rotateLeft r).toNat
      = b.toNat % 2 ^ (w - r) * 2 ^ r + b.toNat / 2 ^ (w - r) * 1 := by rw [toNat_rotateLeft_eq_add b hr, mul_one]
    _ ≡ b.toNat % 2 ^ (w - r) * 2 ^ r + b.toNat / 2 ^ (w - r) * (2 ^ (w - r) * 2 ^ r) [MOD 2 ^ w - 1] :=
        (hone.mul_left _).add_left _
    _ = (b.toNat % 2 ^ (w - r) + 2 ^ (w - r) * (b.toNat / 2 ^ (w - r))) * 2 ^ r := by ring
    _ = b.toNat * 2 ^ r := by rw [Nat.mod_add_div]

/-- Rotating a word of ones right leaves it as it is. -/
theorem rotateRight_allOnes (w r : Nat) : (BitVec.allOnes w).rotateRight r = BitVec.allOnes w := by
  ext i hi
  simp [BitVec.getElem_rotateRight]

/-- Only a word of ones rotates to a word of ones. -/
theorem rotateLeft_ne_allOnes {w r : Nat} {b : BitVec w} (hr : r < w) (hb : b ≠ BitVec.allOnes w) :
    b.rotateLeft r ≠ BitVec.allOnes w := fun h => hb <| by
  rw [← rotateRight_rotateLeft b hr, h, rotateRight_allOnes]

/-- The bytes below 255 are those other than 0xFF. -/
theorem byte_lt_255_iff (b : BitVec 8) : b.toNat < 255 ↔ b ≠ BitVec.allOnes 8 := by
  have hlt := b.isLt
  rw [← BitVec.toNat_inj.ne, BitVec.toNat_allOnes]
  omega

/-! ## Residues modulo 255 -/

/-- A residue as an integer. -/
theorem res255_cast (x : Int) : (res255 x : Int) = x % 255 := Int.toNat_of_nonneg (Int.emod_nonneg x (by decide))

/-- The byte 0xFF never occurs. -/
theorem res255_lt (x : Int) : res255 x < 255 := by
  have := res255_cast x
  omega

/-- Residues depend on the class modulo 255 only. -/
theorem res255_congr {x y : Int} (h : x ≡ y [ZMOD 255]) : res255 x = res255 y := congrArg Int.toNat h

/-- A number below 255 is its own residue. -/
theorem res255_natCast {n : Nat} (h : n < 255) : res255 n = n := by
  have := res255_cast n
  omega

/-- Powers of two repeat modulo 255 after eight. -/
theorem two_pow_modEq_mod_eight (k : Nat) : (2 ^ k : Int) ≡ 2 ^ (k % 8) [ZMOD 255] := by
  have h256 : (2 ^ 8 : Int) ≡ 1 [ZMOD 255] := by decide
  calc (2 ^ k : Int) = (2 ^ 8) ^ (k / 8) * 2 ^ (k % 8) := by rw [← pow_mul, ← pow_add, Nat.div_add_mod]
    _ ≡ 1 ^ (k / 8) * 2 ^ (k % 8) [ZMOD 255] := (h256.pow _).mul_right _
    _ = 2 ^ (k % 8) := by rw [one_pow, one_mul]

/-- R259: multiplying by `2 ^ k` rotates the residue's byte left by `k` mod 8. -/
theorem res255_mul_two_pow (x : Int) (k : Nat) :
    BitVec.ofNat 8 (res255 (x * 2 ^ k)) = (BitVec.ofNat 8 (res255 x)).rotateLeft (k % 8) := by
  have hr : k % 8 < 8 := Nat.mod_lt _ (by decide)
  have hbyte : (BitVec.ofNat 8 (res255 x)).toNat = res255 x :=
    Nat.mod_eq_of_lt ((res255_lt x).trans (by decide))
  generalize BitVec.ofNat 8 (res255 x) = b at *
  have hrot : (b.rotateLeft (k % 8)).toNat < 255 :=
    (byte_lt_255_iff _).mpr (rotateLeft_ne_allOnes hr ((byte_lt_255_iff b).mp (hbyte ▸ res255_lt x)))
  have hcongr : x * 2 ^ k ≡ (b.rotateLeft (k % 8)).toNat [ZMOD 255] :=
    calc x * 2 ^ k ≡ b.toNat * 2 ^ (k % 8) [ZMOD 255] := by
          rw [hbyte, res255_cast]
          exact (Int.mod_modEq x 255).symm.mul (two_pow_modEq_mod_eight k)
      _ ≡ (b.rotateLeft (k % 8)).toNat [ZMOD 255] :=
        mod_cast Int.natCast_modEq_iff.mpr (rotateLeft_modEq b hr).symm
  rw [res255_congr hcongr, res255_natCast hrot, BitVec.ofNat_toNat, BitVec.setWidth_eq]

/-- Settles O54: a rotation left of a byte other than 0xFF multiplies it modulo 255, and the rotation right undoes it. -/
theorem residuesRotate : Obligations.ResiduesRotate := by
  refine ⟨fun ms e => ⟨?_, res255_lt _⟩, by decide, fun x k => ⟨res255_mul_two_pow x k, ?_⟩⟩
  · rw [residueOf, res255_cast, add_comm]
  · rw [res255_mul_two_pow, rotateRight_rotateLeft _ (Nat.mod_lt _ (by decide))]

end Sys2Proof.Machine

/-! Causes that arise after the module's vote (R312): what is left of `State.spoil` once the running step has voted is one
update of the state, which records the cause and changes neither the vote nor the outcome. -/

namespace Sys2Proof.Machine

/-- R312: the first cause after the vote is the late cause of the commit, and a later one leaves it as it is. -/
def CommitSt.late (m : CommitSt) (c : Nat) : CommitSt := { m with lateCause := if m.lateCause = 0 then c else m.lateCause }

/-- A commit that holds a late cause keeps it. -/
theorem CommitSt.late_of_ne_zero {m : CommitSt} (h : m.lateCause ≠ 0) (c : Nat) : m.late c = m := by
  rw [CommitSt.late, if_neg h]

/-- R312, R138: after the vote a cause sets its bit of QNT_SPOIL_CAUSES, cause 4 marks the step, and the commit notes it. -/
theorem State.spoil_of_voted {s : State} {r : RunStep} (hstep : s.tick.step = some r) (hvoted : r.voted = true) (c : Nat) :
    s.spoil c = { s.setBit Reg.QNT_SPOIL_CAUSES (c - 1) true with
      tick := { s.tick with step := some { r with nonFinite := r.nonFinite || decide (c = 4) } }
      stl := { s.stl with commit := s.stl.commit.late c } } := by
  by_cases hlate : s.stl.commit.lateCause = 0
  · simp [State.spoil, hstep, hvoted, hlate, State.mapStep, CommitSt.late]
  · simp [State.spoil, hstep, hvoted, hlate, State.mapStep, CommitSt.late_of_ne_zero hlate]

/-- Memory is read through the parts that hold it, so a register's bit, the ticks and the stiles do not show there. -/
theorem State.touches_setBit_tick_stl (s : State) (o i : Nat) (b : Bool) (tick : TickSt) (stl : StilePlots) :
    s.touches { s.setBit o i b with tick := tick, stl := stl } [.regs, .tick, .stl] [o] := by
  refine ⟨fun p hp => ?_, fun k hk => s.reg_setBit_ne o i b k (by simpa using hk), fun _ => rfl⟩
  cases p
  case regs | tick | stl => exact absurd (by decide) hp
  all_goals rfl

/-- Settles O55: after the vote a cause changes its spoil bit, the non-finite mark and, if it is the first, the late cause. -/
theorem lateCausesChangeNothing : Obligations.LateCausesChangeNothing := by
  intro s r c hinv hstep hvoted _ hc
  obtain ⟨_, hregs⟩ := hinv
  rw [State.spoil_of_voted hstep hvoted]
  have hbit := s.bit_setBit Reg.QNT_SPOIL_CAUSES (c - 1) true hregs (by omega)
  exact ⟨hbit, ⟨_, rfl, hvoted, rfl, rfl, rfl, rfl⟩, rfl, rfl, rfl, rfl, s.touches_setBit_tick_stl ..⟩

end Sys2Proof.Machine

/-! The configuration header (R320): out of A1 a read of configuration space is answered at once with the dword that it names;
the header's dwords are fixed whole, but for the one at 0x0C, where only the header type is. -/

namespace Sys2Proof.Machine

/-- R341: out of A1, while configuration space answers, a request is acted on at once. -/
theorem exec_configurationRequest {s : State} (hon : s.configOn = true) (hA1 : s.inA1 = false) (req : CfgReq) :
    exec (.configurationRequest req) s = .next (s.configAct req) := by
  obtain ⟨hlink, hstep⟩ : s.linkUp = true ∧ 6 ≤ s.boot.step := by simpa [State.configOn] using hon
  change execConfigurationRequest req s = _
  simp [execConfigurationRequest, hlink, hstep.not_gt, hA1]

/-- A read of function 0 sends what the dword reads and takes one free value. -/
theorem exec_configurationRead {s : State} (hon : s.configOn = true) (hA1 : s.inA1 = false) (o : Nat) :
    exec (.configurationRequest (.read 0 o)) s =
      .next { s with out := s.out ++ [.configData (s.configWord (o / 4 * 4))], free := s.free + 1 } := by
  rw [exec_configurationRequest hon hA1]
  rfl

/-- R320: a dword that no write changes reads its fixed value. -/
theorem State.configWord_of_fixed (s : State) {o : Nat} {v : Word} (h : configFixed o = some v) : s.configWord o = v := by
  rw [State.configWord, h]

/-- The dword at 0x0C reads with the byte of the header type masked off, whatever it holds. -/
theorem State.configWord_0x0C_masked (s : State) : ∃ w : Word, s.configWord 0x0C = w &&& 0xFF00FFFF := ⟨_, rfl⟩

/-- A field of a conjunction is the conjunction of the fields. -/
theorem bits_and (a b hi lo : Nat) : bits (a &&& b) hi lo = bits a hi lo &&& bits b hi lo := by
  rw [bits, Nat.and_div_two_pow, Nat.and_mod_two_pow, bits, bits]

/-- R320: the header type reads 0. -/
theorem State.headerType_configWord (s : State) : bits (s.configWord 0x0C).toNat 23 16 = 0 := by
  obtain ⟨w, hw⟩ := s.configWord_0x0C_masked
  have hmask : bits (0xFF00FFFF : Word).toNat 23 16 = 0 := by decide
  rw [hw, BitVec.toNat_and, bits_and, hmask, Nat.and_zero]

/-- Settles O56: the dwords of the IDs and of the class are fixed, and that of the header type has its byte masked off. -/
theorem configurationHeaderReads : Obligations.ConfigurationHeaderReads := by
  intro s hon hA1
  have hread := exec_configurationRead hon hA1
  have hid : s.configWord 0x00 = 0x04741F3A := s.configWord_of_fixed rfl
  have hclass : s.configWord 0x08 = 0x12000001 := s.configWord_of_fixed rfl
  have hsub : s.configWord 0x2C = 0x04741F3A := s.configWord_of_fixed rfl
  refine ⟨_, _, _, _, hread 0x00, hread 0x08, hread 0x0C, hread 0x2C, ?_⟩
  rw [hid, hclass, hsub]
  exact ⟨by decide, by decide, by decide, by decide, by decide, by decide, s.headerType_configWord⟩

end Sys2Proof.Machine

/-! What an operation of the Lodge leaves behind (R360 to R366): fields of a register, the parts and registers that stay, and
the causes of a wake. -/

namespace Sys2Proof.Machine

/-! ## Fields of a register -/

/-- The field written holds the new bits, the rest of the number the old ones. -/
theorem testBit_putBits (v lo width x i : Nat) :
    (putBits v lo width x).testBit i = if lo ≤ i ∧ i < lo + width then x.testBit (i - lo) else v.testBit i := by
  have hinner : v % 2 ^ lo + 2 ^ lo * (x % 2 ^ width) < 2 ^ (lo + width) := by
    have hv : v % 2 ^ lo < 2 ^ lo := Nat.mod_lt _ (Nat.two_pow_pos lo)
    have hx : x % 2 ^ width + 1 ≤ 2 ^ width := Nat.mod_lt _ (Nat.two_pow_pos width)
    calc v % 2 ^ lo + 2 ^ lo * (x % 2 ^ width) < 2 ^ lo * (x % 2 ^ width + 1) := by rw [Nat.mul_succ]; omega
      _ ≤ 2 ^ lo * 2 ^ width := Nat.mul_le_mul_left _ hx
      _ = 2 ^ (lo + width) := (pow_add ..).symm
  rw [putBits, Nat.add_comm, Nat.testBit_two_pow_mul_add _ hinner, Nat.add_comm (v % 2 ^ lo),
    Nat.testBit_two_pow_mul_add _ (Nat.mod_lt _ (Nat.two_pow_pos lo)), Nat.testBit_mod_two_pow, Nat.testBit_mod_two_pow,
    Nat.testBit_div_two_pow]
  by_cases hbelow : i < lo
  · simp [hbelow, show i < lo + width by omega, show ¬ lo ≤ i by omega]
  · by_cases hin : i < lo + width
    · simp [hbelow, hin, show lo ≤ i by omega, show i - lo < width by omega]
    · simp [hin, Nat.sub_add_cancel (Nat.le_of_not_lt hin)]

/-- A bit of a register is the bit of its number. -/
theorem State.bit_eq_testBit (s : State) (o i : Nat) : s.bit o i = (s.regN o).testBit i := (BitVec.testBit_toNat _).symm

/-- A bit of a register after one of its fields was written. -/
theorem State.bit_setFld (s : State) (o : Nat) {hi lo : Nat} (x i : Nat) (h : storeWf 0 s.regs = true) (hhi : hi < 64) :
    (s.setFld o hi lo x).bit o i = if lo ≤ i ∧ i ≤ hi then x.testBit (i - lo) else s.bit o i := by
  have hfield : lo ≤ i ∧ i < lo + (hi + 1 - lo) ↔ lo ≤ i ∧ i ≤ hi := by omega
  rw [State.bit, State.setFld, State.setRegN, s.reg_setReg o _ h, BitVec.getLsbD_ofNat, testBit_putBits,
    ← s.bit_eq_testBit]
  simp only [hfield]
  split
  · simp [show i < 64 by omega]
  · by_cases hlt : i < 64
    · simp [hlt]
    · simp [hlt, State.bit, BitVec.getLsbD_of_ge _ _ (Nat.le_of_not_lt hlt)]

/-- The bits of a field are bits of its register. -/
theorem State.testBit_fld (s : State) (o hi lo i : Nat) :
    (s.fld o hi lo).testBit i = (decide (i < hi + 1 - lo) && s.bit o (lo + i)) := by
  rw [State.fld, bits, Nat.testBit_mod_two_pow, Nat.testBit_div_two_pow, s.bit_eq_testBit, Nat.add_comm i]

/-- A field reads as before if each of its bits does. -/
theorem State.fld_eq_of_bit_eq {s t : State} {o hi lo : Nat} (h : ∀ i, lo ≤ i → i ≤ hi → t.bit o i = s.bit o i) :
    t.fld o hi lo = s.fld o hi lo := by
  refine Nat.eq_of_testBit_eq fun i => ?_
  rw [s.testBit_fld, t.testBit_fld]
  by_cases hin : i < hi + 1 - lo
  · rw [h (lo + i) (by omega) (by omega)]
  · simp [hin]

/-- A field that was written reads the value written. -/
theorem State.fld_setFld (s : State) (o : Nat) {hi lo x : Nat} (h : storeWf 0 s.regs = true) (hhi : hi < 64)
    (hx : x < 2 ^ (hi + 1 - lo)) : (s.setFld o hi lo x).fld o hi lo = x := by
  refine Nat.eq_of_testBit_eq fun i => ?_
  rw [State.testBit_fld, s.bit_setFld o x _ h hhi]
  by_cases hin : i < hi + 1 - lo
  · rw [if_pos (by omega)]
    simp [hin]
  · have hxi : x.testBit i = false :=
      Nat.testBit_lt_two_pow (hx.trans_le (Nat.pow_le_pow_right (by decide) (Nat.le_of_not_lt hin)))
    simp [hin, hxi]

/-! ## Registers and parts after an operation -/

/-- A bit of an equal register. -/
theorem State.bit_of_reg {s t : State} {o : Nat} (h : t.reg o = s.reg o) (i : Nat) : t.bit o i = s.bit o i := by
  rw [State.bit, h, State.bit]

/-- A field of an equal register. -/
theorem State.fld_of_reg {s t : State} {o : Nat} (h : t.reg o = s.reg o) (hi lo : Nat) : t.fld o hi lo = s.fld o hi lo := by
  rw [State.fld, State.regN, h, State.fld, State.regN]

/-- A byte is read from memory and from the channels' buffers. -/
theorem State.sameBytes_of_mem_hbm {s t : State} (hmem : t.mem = s.mem) (hhbm : t.hbm = s.hbm) : s.sameBytes t := fun a =>
  calc t.devByte a = State.devByte { State.reset with mem := t.mem, hbm := t.hbm } a := rfl
    _ = State.devByte { State.reset with mem := s.mem, hbm := s.hbm } a := by rw [hmem, hhbm]
    _ = s.devByte a := rfl

/-- One operation after another touches what either touches. -/
theorem State.touches_trans {s t u : State} {P Q R : List Part} {L M N : List Nat} (h : s.touches t P L) (g : t.touches u Q M)
    (hP : P ⊆ R) (hQ : Q ⊆ R) (hL : L ⊆ N) (hM : M ⊆ N) : s.touches u R N := by
  obtain ⟨hkeep, hregs, hbytes⟩ := h
  obtain ⟨gkeep, gregs, gbytes⟩ := g
  exact ⟨fun p hp => State.agree_trans (hkeep p (mt (@hP p) hp)) (gkeep p (mt (@hQ p) hp)),
    fun o ho => (gregs o (mt (@hM o) ho)).trans (hregs o (mt (@hL o) ho)), fun a => (gbytes a).trans (hbytes a)⟩

/-- An operation that changes neither memory nor its buffers touches the parts that its law names. -/
theorem Evolves.touches {P : List Part} {s t : State} {L : List Nat} (h : Evolves P s t) (hregs : s.sameRegs t L)
    (hmem : .mem ∉ P) (hhbm : .hbm ∉ P) : s.touches t P L :=
  ⟨h.keep, hregs, State.sameBytes_of_mem_hbm (h.keep .mem hmem) (h.keep .hbm hhbm)⟩

/-! ## The causes of a wake (R366, R376) -/

/-- A wake event changes no register but the one of the causes. -/
theorem State.reg_noteWake_ne (s : State) (n : Nat) (port : Option Nat) {o : Nat} (h : o ≠ Reg.LDG_WAKE_CAUSE) :
    (s.noteWake n port).reg o = s.reg o := by
  have hbit := s.reg_setBit_ne Reg.LDG_WAKE_CAUSE n true o h
  cases port with
  | none => exact hbit
  | some p =>
    rw [State.noteWake]
    split
    · exact hbit
    · exact (State.reg_setFld_ne _ _ 15 12 p o h).trans hbit

/-- Below the field of the port a wake event sets its own bit of the causes and leaves the others. -/
theorem State.bit_noteWake (s : State) {n i : Nat} (port : Option Nat) (h : storeWf 0 s.regs = true) (hn : n < 64)
    (hi : i < 12) :
    (s.noteWake n port).bit Reg.LDG_WAKE_CAUSE i = (decide (i = n) || s.bit Reg.LDG_WAKE_CAUSE i) := by
  have hbit : (s.setBit Reg.LDG_WAKE_CAUSE n true).bit Reg.LDG_WAKE_CAUSE i =
      (decide (i = n) || s.bit Reg.LDG_WAKE_CAUSE i) := by
    rw [State.setBit, s.bit_setFld _ _ _ h hn]
    by_cases hin : i = n
    · simp [hin]
    · simp [hin, show ¬ (n ≤ i ∧ i ≤ n) by omega]
  cases port with
  | none => exact hbit
  | some p =>
    rw [State.noteWake]
    split
    · exact hbit
    · refine Eq.trans ?_ hbit
      refine (State.bit_setFld _ _ _ _ ((s.setBit_evolves _ n true).regs h) (by decide)).trans ?_
      rw [if_neg (by omega)]

/-- Of the Lodge's part a wake event changes only whether a port's was recorded. -/
theorem State.noteWake_ldg (s : State) (n : Nat) (port : Option Nat) :
    ∃ seen, (s.noteWake n port).ldg = { s.ldg with pyuSeen := seen } := by
  cases port with
  | none => exact ⟨s.ldg.pyuSeen, rfl⟩
  | some p =>
    rw [State.noteWake]
    split
    · exact ⟨s.ldg.pyuSeen, rfl⟩
    · exact ⟨true, rfl⟩

/-- The event acted on is named in its field and leaves the causes below it. -/
theorem State.bit_firstWake (s : State) (n : Nat) {i : Nat} (h : storeWf 0 s.regs = true) (hi : i < 8) :
    (s.firstWake n).bit Reg.LDG_WAKE_CAUSE i = s.bit Reg.LDG_WAKE_CAUSE i := by
  rw [State.firstWake, s.bit_setFld _ _ _ h (by decide), if_neg (by omega)]

/-- A wake event leaves FIRST as it was. -/
theorem State.fld_noteWake (s : State) {n : Nat} (port : Option Nat) (h : storeWf 0 s.regs = true) (hn : n < 8) :
    (s.noteWake n port).fld Reg.LDG_WAKE_CAUSE 10 8 = s.fld Reg.LDG_WAKE_CAUSE 10 8 :=
  State.fld_eq_of_bit_eq fun i hlo hhi => by
    rw [s.bit_noteWake port h (by omega) (by omega), decide_eq_false (by omega), Bool.false_or]

end Sys2Proof.Machine

/-! Wake events of an entry or a wake in progress (R366). -/

namespace Sys2Proof.Machine

/-- The first wake event of an entry is latched, and named as the one that will be acted on. -/
theorem State.wakeEvent_of_entering {s : State} (htrip : s.tripped = false) (hdown : s.goingDown = true)
    (hlatched : s.ldg.latched = false) (n : Nat) (port : Option Nat) :
    s.wakeEvent n port = ((s.noteWake n port).firstWake n).mapLdg fun l => { l with latched := true } := by
  simp [State.wakeEvent, htrip, hdown, hlatched]

/-- A further event of an entry is noted only. -/
theorem State.wakeEvent_of_latched {s : State} (htrip : s.tripped = false) (hdown : s.goingDown = true)
    (hlatched : s.ldg.latched = true) (n : Nat) (port : Option Nat) : s.wakeEvent n port = s.noteWake n port := by
  simp [State.wakeEvent, htrip, hdown, hlatched]

/-- An event of a wake is noted only. -/
theorem State.wakeEvent_of_waking {s : State} (htrip : s.tripped = false) (hdown : s.goingDown = false)
    (hwaking : s.ldg.waking ≠ 0) (n : Nat) (port : Option Nat) : s.wakeEvent n port = s.noteWake n port := by
  simp [State.wakeEvent, htrip, hdown, hwaking]

/-- R366: `t` comes from `s`, which enters a state or wakes, by wake event `n`. -/
structure WakeNoted (s t : State) (n : Nat) : Prop where
  cause : t.bit Reg.LDG_WAKE_CAUSE n = true
  ps : t.ldg.ps = s.ldg.ps
  entering : t.ldg.entering = s.ldg.entering
  waking : t.ldg.waking = s.ldg.waking
  latches : s.goingDown = true → s.ldg.latched = false → t.ldg.latched = true ∧ t.fld Reg.LDG_WAKE_CAUSE 10 8 = n
  later : (s.goingDown = true ∧ s.ldg.latched = true) ∨ (s.goingDown = false ∧ s.ldg.waking ≠ 0) →
    t.ldg.latched = s.ldg.latched ∧ t.fld Reg.LDG_WAKE_CAUSE 10 8 = s.fld Reg.LDG_WAKE_CAUSE 10 8

/-- What a wake event leaves depends on the Lodge's part and on the causes noted before it. -/
theorem WakeNoted.of_same {s u t : State} {n : Nat} (hldg : u.ldg = s.ldg)
    (hcause : u.reg Reg.LDG_WAKE_CAUSE = s.reg Reg.LDG_WAKE_CAUSE) (h : WakeNoted u t n) : WakeNoted s t n := by
  obtain ⟨cause, ps, entering, waking, latches, later⟩ := h
  simp only [State.goingDown, hldg, State.fld_of_reg hcause] at *
  exact ⟨cause, ps, entering, waking, latches, later⟩

/-- An event that is latched. -/
theorem State.wakeNoted_latch {s : State} {n : Nat} (port : Option Nat) (h : storeWf 0 s.regs = true) (hn : n < 8)
    (hdown : s.goingDown = true) (hlatched : s.ldg.latched = false) :
    WakeNoted s (((s.noteWake n port).firstWake n).mapLdg fun l => { l with latched := true }) n := by
  have hwf := (s.noteWake_evolves n port).regs h
  obtain ⟨seen, hldg⟩ := s.noteWake_ldg n port
  have hfirst : (((s.noteWake n port).firstWake n).mapLdg fun l => { l with latched := true }).ldg =
      { s.ldg with pyuSeen := seen, latched := true } := congrArg (fun l => { l with latched := true }) hldg
  refine ⟨?_, by rw [hfirst], by rw [hfirst], by rw [hfirst],
    fun _ _ => ⟨rfl, State.fld_setFld _ _ hwf (by decide) hn⟩, ?_⟩
  · refine ((s.noteWake n port).bit_firstWake n hwf hn).trans ?_
    rw [s.bit_noteWake port h (by omega) (by omega), decide_eq_true rfl, Bool.true_or]
  · simp [hdown, hlatched]

/-- An event that is noted only. -/
theorem State.wakeNoted_noteWake {s : State} {n : Nat} (port : Option Nat) (h : storeWf 0 s.regs = true) (hn : n < 8)
    (hlater : s.goingDown = true → s.ldg.latched = true) : WakeNoted s (s.noteWake n port) n := by
  obtain ⟨seen, hldg⟩ := s.noteWake_ldg n port
  refine ⟨?_, by rw [hldg], by rw [hldg], by rw [hldg], fun hdown hlatched => ?_,
    fun _ => ⟨by rw [hldg], s.fld_noteWake port h hn⟩⟩
  · rw [s.bit_noteWake port h (by omega) (by omega), decide_eq_true rfl, Bool.true_or]
  · simp [hlater hdown] at hlatched

/-- R366: in an entry or a wake a wake event changes the causes and the Lodge's part only, as `WakeNoted` says. -/
theorem State.wakeEvent_noted {s : State} {n : Nat} (port : Option Nat) (h : storeWf 0 s.regs = true)
    (htrip : s.tripped = false) (hn : n < 8) (hmove : s.goingDown = true ∨ s.ldg.waking ≠ 0) :
    WakeNoted s (s.wakeEvent n port) n ∧ s.touches (s.wakeEvent n port) [.regs, .ldg] [Reg.LDG_WAKE_CAUSE] := by
  have hnote : s.touches (s.noteWake n port) [.regs, .ldg] [Reg.LDG_WAKE_CAUSE] :=
    (s.noteWake_evolves n port).touches (fun o ho => s.reg_noteWake_ne n port (by simpa using ho)) (by decide) (by decide)
  cases hdown : s.goingDown with
  | false =>
    rw [State.wakeEvent_of_waking htrip hdown (hmove.resolve_left (by simp [hdown]))]
    exact ⟨State.wakeNoted_noteWake port h hn (by simp [hdown]), hnote⟩
  | true =>
    cases hlatched : s.ldg.latched with
    | true =>
      rw [State.wakeEvent_of_latched htrip hdown hlatched]
      exact ⟨State.wakeNoted_noteWake port h hn fun _ => hlatched, hnote⟩
    | false =>
      rw [State.wakeEvent_of_entering htrip hdown hlatched]
      refine ⟨State.wakeNoted_latch port h hn hdown hlatched, Evolves.touches ?_ ?_ (by decide) (by decide)⟩
      · exact ((s.noteWake_evolves n port).step (State.firstWake_evolves _ n) rfl).step (State.mapLdg_evolves _ _) rfl
      · exact State.sameRegs_trans hnote.2.1 (fun o ho => State.reg_setFld_ne _ _ 10 8 n o (by simpa using ho)) fun _ => id

/-- R283: an event of a port sets PYU_EVENT as well. -/
theorem State.portWake_noted {s : State} {n : Nat} (p : Nat) (h : storeWf 0 s.regs = true) (htrip : s.tripped = false)
    (hn : n < 8) (hmove : s.goingDown = true ∨ s.ldg.waking ≠ 0) :
    WakeNoted s (s.portWake n p) n ∧ (s.portWake n p).bit Reg.PYU_EVENT 6 = true ∧
      s.touches (s.portWake n p) (.ldg :: Part.signalled) [Reg.LDG_WAKE_CAUSE, Reg.PYU_EVENT] := by
  have hasleep : s.asleep = true := by
    rcases hmove with hdown | hwaking
    · simp [State.asleep, hdown]
    · simp [State.asleep, hwaking]
  have hwake : s.portWake n p = (s.event Reg.PYU_EVENT 6).wakeEvent n (some p) := by rw [State.portWake, if_pos hasleep]
  have hev := s.event_evolves Reg.PYU_EVENT 6
  have hldg : (s.event Reg.PYU_EVENT 6).ldg = s.ldg := hev.keep .ldg (by decide)
  have htouch := hev.touches (s.sameRegs_event Reg.PYU_EVENT 6) (by decide) (by decide)
  rw [hwake]
  generalize hu : s.event Reg.PYU_EVENT 6 = u at *
  obtain ⟨hnoted, hwaketouch⟩ := u.wakeEvent_noted (some p) (hev.regs h)
    ((State.bit_of_reg (htouch.2.1 _ (by decide)) 4).trans htrip) hn (by simpa only [State.goingDown, hldg] using hmove)
  refine ⟨hnoted.of_same hldg (htouch.2.1 _ (by decide)), ?_,
    State.touches_trans htouch hwaketouch (by decide) (by decide) (by decide) (by decide)⟩
  rw [State.bit_of_reg (hwaketouch.2.1 _ (by decide)), ← hu]
  exact s.bit_event Reg.PYU_EVENT 6 h (by decide)

/-- R365: a wake event of kind `k`, which has bit `n` of the causes, counts as the module listens. -/
def State.listensTo (s : State) (k : WakeKind) (n : Nat) : Prop :=
  (k = .pcieActivity ∧ n = 0) ∨ (k = .wakePin ∧ n = 3) ∨ (k = .management ∧ n = 6) ∨
    (∃ p : Fin 16, k = .pyuActivity p ∧ n = 1 ∧ s.bit Reg.PYU_WAKE (16 + p) = true) ∨
    (∃ p : Fin 16, k = .pyuPattern p ∧ n = 2 ∧ s.bit Reg.PYU_WAKE p = true)

/-- Only the events of a port are told by PYU_EVENT. -/
theorem State.wakeBy_of_listensTo {s : State} {k : WakeKind} {n : Nat} (h : s.listensTo k n) :
    n < 8 ∧ ((n ≠ 1 ∧ n ≠ 2 ∧ s.wakeBy k = s.wakeEvent n none) ∨
      ((n = 1 ∨ n = 2) ∧ ∃ p, s.wakeBy k = s.portWake n p)) := by
  rcases h with ⟨rfl, rfl⟩ | ⟨rfl, rfl⟩ | ⟨rfl, rfl⟩ | ⟨p, rfl, rfl, hwake⟩ | ⟨p, rfl, rfl, hwake⟩
  · exact ⟨by decide, .inl ⟨by decide, by decide, rfl⟩⟩
  · exact ⟨by decide, .inl ⟨by decide, by decide, rfl⟩⟩
  · exact ⟨by decide, .inl ⟨by decide, by decide, rfl⟩⟩
  · exact ⟨by decide, .inr ⟨.inl rfl, p, if_pos hwake⟩⟩
  · exact ⟨by decide, .inr ⟨.inr rfl, p, if_pos hwake⟩⟩

/-- R366, R283: an event that counts, in an entry or a wake. -/
theorem State.wakeBy_noted {s : State} {k : WakeKind} {n : Nat} (h : storeWf 0 s.regs = true) (htrip : s.tripped = false)
    (hk : s.listensTo k n) (hmove : s.goingDown = true ∨ s.ldg.waking ≠ 0) :
    WakeNoted s (s.wakeBy k) n ∧
      (n ≠ 1 → n ≠ 2 → s.touches (s.wakeBy k) [.regs, .ldg] [Reg.LDG_WAKE_CAUSE]) ∧
      (n = 1 ∨ n = 2 → (s.wakeBy k).bit Reg.PYU_EVENT 6 = true ∧
        s.touches (s.wakeBy k) (.ldg :: Part.signalled) [Reg.LDG_WAKE_CAUSE, Reg.PYU_EVENT]) := by
  obtain ⟨hn, ⟨hn1, hn2, hact⟩ | ⟨hport, p, hact⟩⟩ := State.wakeBy_of_listensTo hk
  · obtain ⟨hnoted, htouch⟩ := s.wakeEvent_noted none h htrip hn hmove
    rw [hact]
    exact ⟨hnoted, fun _ _ => htouch, fun hport => absurd hport (not_or_intro hn1 hn2)⟩
  · obtain ⟨hnoted, hevent⟩ := s.portWake_noted p h htrip hn hmove
    rw [hact]
    exact ⟨hnoted, fun h1 h2 => absurd hport (not_or_intro h1 h2), fun _ => hevent⟩

/-- A powered module acts on a wake event by its kind. -/
theorem exec_wakeEvent {s : State} (hpow : s.boot.powered = true) (k : WakeKind) :
    exec (.wakeEvent k) s = .next (s.wakeBy k) := by
  change execWakeEvent k s = _
  rw [execWakeEvent, if_pos hpow]

end Sys2Proof.Machine

/-! The end of an entry with a wake latched (R366): the wake starts in the state that was entered. -/

namespace Sys2Proof.Machine

/-- A number that the first list does not name reads as in the second. -/
theorem storeGet_append_of_notMem {α : Type} (d : α) {m : List (Nat × α)} (m' : List (Nat × α)) {k : Nat}
    (h : k ∉ m.map Prod.fst) :
    storeGet d (m ++ m') k = storeGet d m' k := by
  induction m with
  | nil => rfl
  | cons e m ih =>
    rw [List.map_cons, List.mem_cons, not_or] at h
    exact (if_neg h.1).trans (ih h.2)

/-- Only the copies of ME_FAIL are carried over what a loss keeps. -/
theorem State.storeGet_lostRegs (s : State) (kept : Regs) {o : Nat} (h : ∀ k < 16, o ≠ Reg.ME_FAIL + 4 * k) :
    storeGet 0 (s.lostRegs kept) o = storeGet 0 (resetRegs ++ kept) o := by
  have hfold : ∀ l : List Nat, (∀ k ∈ l, k < 16) → ∀ m, storeGet 0 (l.foldl (fun m k =>
      storeSet 0 m (Reg.ME_FAIL + 4 * k) (s.reg (Reg.ME_FAIL + 4 * k))) m) o = storeGet 0 m o := by
    intro l
    induction l with
    | nil => exact fun _ _ => rfl
    | cons k l ih =>
      intro hl m
      exact (ih (fun j hj => hl j (List.mem_cons_of_mem k hj)) _).trans
        (storeGet_storeSet_ne 0 m _ o _ (h k (hl k List.mem_cons_self)))
  exact hfold _ (fun k => List.mem_range.mp) _

/-- The register file that a loss leaves. -/
theorem State.lose_regs (s : State) : s.lose.regs = s.lostRegs (s.regs.filter fun e => keptReg e.1) := by
  unfold State.lose
  dsimp only

/-- R360: the registers of the Lodge, the seed bank and the ledger outlast A3. -/
theorem State.reg_lose (s : State) {o : Nat} (h : keptReg o = true) : s.lose.reg o = s.reg o := by
  have hblock : 0x110000 ≤ o ∧ o < 0x180000 := by simpa [keptReg] using h
  have hreset : o ∉ resetRegs.map Prod.fst := fun ho =>
    absurd hblock.1 (Nat.not_le_of_lt ((by decide : ∀ k ∈ resetRegs.map Prod.fst, k < 0x110000) o ho))
  have hfail : ∀ k < 16, o ≠ Reg.ME_FAIL + 4 * k := fun k hk ho =>
    absurd hblock.1 (Nat.not_le_of_lt (ho ▸ (by decide : ∀ k < 16, Reg.ME_FAIL + 4 * k < 0x110000) k hk))
  have hkept : s.regs.filter (fun e => keptReg e.1) = storeDrop s.regs fun k => !keptReg k := by simp [storeDrop]
  calc s.lose.reg o = storeGet 0 (s.lostRegs (s.regs.filter fun e => keptReg e.1)) o := by rw [State.reg, s.lose_regs]
    _ = storeGet 0 (storeDrop s.regs fun k => !keptReg k) o := by
        rw [s.storeGet_lostRegs _ hfail, storeGet_append_of_notMem 0 _ hreset, hkept]
    _ = s.reg o := by rw [storeGet_storeDrop, h, Bool.not_true, if_neg Bool.false_ne_true, State.reg]

/-- A wake starts with its first step. -/
theorem State.startWake_ldg {s : State} (h : s.ldg.ps = .a2 ∨ s.ldg.ps = .a3) :
    s.startWake.ldg = { s.ldg with waking := 1 } := by
  have hlose : s.lose.ldg = s.ldg := s.lose_keeps .ldg (by decide)
  rw [State.startWake]
  split
  case h_1 => rfl
  case h_2 =>
    dsimp only [State.mapLdg]
    rw [hlose]
  case h_3 => exact absurd h (by rintro (h | h) <;> contradiction)

/-- The Lodge's registers keep their values when a wake starts. -/
theorem State.reg_startWake (s : State) {o : Nat} (ho : keptReg o = true) : s.startWake.reg o = s.reg o := by
  have hlose := s.reg_lose ho
  rw [State.startWake]
  split
  case h_1 => rfl
  case h_2 => simpa only [State.reg, State.mapLdg] using hlose
  case h_3 => rfl

/-- A2 is reached: the ports listen. -/
theorem State.reachState_a2 (s : State) :
    s.reachState .a2 = s.listen.mapLdg fun l => { l with ps := .a2, entering := none } := rfl

/-- The Lodge's part at the end of an entry to A2. -/
theorem State.reachState_a2_ldg (s : State) : (s.reachState .a2).ldg = { s.ldg with ps := .a2, entering := none } :=
  congrArg (fun l : LodgeSt => { l with ps := .a2, entering := none }) (s.listen_evolves.keep .ldg (by decide))

/-- The Lodge's part at the end of an entry to A3. -/
theorem State.reachState_a3_ldg (s : State) :
    (s.reachState .a3).ldg = { s.ldg with ps := .a3, entering := none, waking := 0 } :=
  congrArg (fun l : LodgeSt => { l with ps := .a3, entering := none, waking := 0 })
    (((s.lose_evolves.step (State.keepRegs_evolves _ s _) rfl).step (State.listen_evolves _) rfl).keep .ldg (by decide))

/-- An entry to A2 or A3 ends in that state with the wakes and requests that came meanwhile. -/
theorem State.reachState_ldg (s : State) {p : PState} (h : p = .a2 ∨ p = .a3) :
    (s.reachState p).ldg.ps = p ∧ (s.reachState p).ldg.entering = none ∧ (s.reachState p).ldg.latched = s.ldg.latched := by
  rcases h with rfl | rfl
  · rw [s.reachState_a2_ldg]
    exact ⟨rfl, rfl, rfl⟩
  · rw [s.reachState_a3_ldg]
    exact ⟨rfl, rfl, rfl⟩

/-- R366: a wake that was latched starts, and LATCHED reads 1. -/
theorem State.startWake_of_latched {s : State} (h : storeWf 0 s.regs = true) (hps : s.ldg.ps = .a2 ∨ s.ldg.ps = .a3) :
    let t := ((s.setBit Reg.LDG_STATE 3 true).mapLdg fun l => { l with latched := false }).startWake
    t.ldg = { s.ldg with latched := false, waking := 1 } ∧ t.bit Reg.LDG_STATE 3 = true := by
  refine ⟨State.startWake_ldg hps, ?_⟩
  rw [State.bit_of_reg (State.reg_startWake _ (by decide))]
  exact s.bit_setBit Reg.LDG_STATE 3 true h (by decide)

/-- R366: the entry of a module with a wake latched ends with the wake's first step, whether it was asked for or not. -/
theorem State.afterEntry_of_latched {s : State} (h : storeWf 0 s.regs = true) (hps : s.ldg.ps = .a2 ∨ s.ldg.ps = .a3)
    (hlatched : s.ldg.latched = true) : s.afterEntry.ldg.ps = s.ldg.ps ∧ s.afterEntry.ldg.entering = s.ldg.entering ∧
      s.afterEntry.ldg.waking = 1 ∧ s.afterEntry.bit Reg.LDG_STATE 3 = true := by
  cases hasked : s.ldg.asked with
  | false =>
    obtain ⟨hldg, hbit⟩ := State.startWake_of_latched h hps
    simp only [State.afterEntry, hasked, hlatched, if_true, Bool.false_eq_true, if_false]
    exact ⟨by rw [hldg], by rw [hldg], by rw [hldg], hbit⟩
  | true =>
    have hanswer : ((s.entryResult 1).mapLdg fun l => { l with asked := false }).ldg = { s.ldg with asked := false } := rfl
    obtain ⟨hldg, hbit⟩ := State.startWake_of_latched (s := (s.entryResult 1).mapLdg fun l => { l with asked := false })
      ((s.entryResult_evolves 1).regs h) hps
    simp only [State.afterEntry, hasked, hanswer, hlatched, if_true]
    exact ⟨by rw [hldg, hanswer], by rw [hldg, hanswer], by rw [hldg], hbit⟩

/-- An entry in progress ends in its state. -/
theorem exec_entryDone {s : State} {p : PState} (h : s.ldg.entering = some p) :
    exec .entryDone s = .next (s.reachState p).afterEntry := by
  change execEntryDone s = _
  rw [execEntryDone, h]

/-- Settles O57: an event that arrives in an entry or a wake is noted or latched, and the end of the entry starts the wake. -/
theorem wakesAreLatched : Obligations.WakesAreLatched := by
  intro s hinv hpow htrip
  obtain ⟨_, hregs⟩ := hinv
  refine ⟨fun k n hk => ?_, fun p hp hentering hlatched => ?_⟩
  · have hnoted := State.wakeBy_noted hregs htrip hk
    refine ⟨_, exec_wakeEvent hpow k, fun hmove => ?_, fun hdown => (hnoted (.inl hdown)).1.latches hdown, fun hlater => ?_⟩
    · obtain ⟨⟨hcause, hps, hent, hwak, _, _⟩, htouch⟩ := hnoted hmove
      exact ⟨hcause, hps, hent, hwak, htouch⟩
    · exact (hnoted (hlater.imp And.left And.right)).1.later hlater
  · obtain ⟨hreached, hended, hkept⟩ := s.reachState_ldg hp
    obtain ⟨hps, hent, hwak, hbit⟩ := State.afterEntry_of_latched (s := s.reachState p)
      ((s.reachState_evolves p).regs hregs) (by rw [hreached]; exact hp) (hkept.trans hlatched)
    exact ⟨_, exec_entryDone hentering, hps.trans hreached, hent.trans hended, hwak, hbit⟩

end Sys2Proof.Machine

/-! Entry requests in a transition and at its end (R363). -/

namespace Sys2Proof.Machine

/-! ## Persisting depends on the seed bank alone -/

/-- A record leaves the seed bank as it is. -/
theorem State.ledgerEvent_sbk (s : State) (ty cls subject detail : Nat) (data : List Byte) :
    (s.ledgerEvent ty cls subject detail data).sbk = s.sbk :=
  (s.ledgerEvent_evolves ty cls subject detail data).keep .sbk (by decide)

/-- An event leaves the seed bank as it is. -/
theorem State.event_sbk (s : State) (o i : Nat) : (s.event o i).sbk = s.sbk := (s.event_evolves o i).keep .sbk (by decide)

/-- A freeze takes the entries that write the register off the queue. -/
theorem State.dropFrozen_sbk (s : State) (i : Nat) : (s.dropFrozen i).sbk = { s.sbk with
    queue := s.sbk.queue.filter fun e => !(e.writes.any fun w => decide (w.1 = i)) } := by
  rw [State.dropFrozen]
  dsimp only
  split
  · exact (State.frozenHit_evolves _ i).keep .sbk (by decide)
  · rfl

/-- One write persists alike in two states with the same seed bank. -/
theorem State.persistOne_sbk_congr {s t : State} (h : t.sbk = s.sbk) (i : Nat) (v : Word) :
    (t.persistOne i v).sbk = (s.persistOne i v).sbk := by
  have hwear : t.wear i = s.wear i := by rw [State.wear, h, State.wear]
  rw [State.persistOne, State.persistOne, hwear]
  dsimp only
  split
  · rw [State.ledgerEvent_sbk, State.ledgerEvent_sbk, State.event_sbk, State.event_sbk, h]
  · split
    · rw [State.dropFrozen_sbk, State.dropFrozen_sbk, State.ledgerEvent_sbk, State.ledgerEvent_sbk, State.event_sbk,
        State.event_sbk, h]
    · rw [h]

/-- So does a list of writes. -/
theorem State.persistAll_sbk_congr (ws : List (Nat × Word)) {s t : State} (h : t.sbk = s.sbk) :
    (t.persistAll ws).sbk = (s.persistAll ws).sbk := by
  induction ws generalizing s t with
  | nil => exact h
  | cons w ws ih => exact ih (State.persistOne_sbk_congr h w.1 w.2)

/-- A persisted cap leaves the seed bank as it is. -/
theorem State.capPersisted_sbk (s : State) : s.capPersisted.sbk = s.sbk := s.capPersisted_evolves.keep .sbk (by decide)

/-- What persisting leaves in the seed bank depends on the seed bank alone. -/
theorem State.seedPersist_sbk_congr {s t : State} (h : t.sbk = s.sbk) : t.seedPersist.sbk = s.seedPersist.sbk := by
  rw [State.seedPersist, State.seedPersist, h]
  split
  · exact h
  case h_2 e q _ =>
    have hall := State.persistAll_sbk_congr e.writes (s := { s with sbk := { s.sbk with queue := q } })
      (t := { t with sbk := { s.sbk with queue := q } }) rfl
    dsimp only
    split
    · rw [State.capPersisted_sbk, State.capPersisted_sbk, hall]
    · exact hall

/-! ## What refuses an entry -/

/-- A message to the host changes no DMA engine. -/
theorem State.host_toHost (s : State) (x : Output) : (s.toHost x).host = s.host := by
  rw [State.toHost]
  split <;> rfl

/-- A vector's message changes no DMA engine. -/
theorem State.flights_signal (s : State) (v : Nat) : (s.signal v).host.flights = s.host.flights := by
  rw [State.signal]
  split
  · rfl
  · rw [State.fire]
    split
    · rfl
    · rw [State.host_toHost, State.setVec]

/-- An event changes no DMA engine. -/
theorem State.flights_event (s : State) (o i : Nat) : (s.event o i).host.flights = s.host.flights := by
  rw [State.event]
  split
  · rfl
  · split
    · exact State.flights_signal _ _
    · rfl

/-- Two tests that agree on the members of a list answer alike for the list. -/
theorem any_eq_of_forall_mem {α : Type} {l : List α} {p q : α → Bool} (h : ∀ a ∈ l, p a = q a) :
    l.any p = l.any q := by
  rw [Bool.eq_iff_iff, List.any_eq_true, List.any_eq_true]
  exact exists_congr fun a => and_congr_right fun ha => by rw [h a ha]

/-- The registers of an engine lie outside the Lodge's blocks. -/
theorem keptReg_dma {e : Nat} (he : e < 8) {o : Nat}
    (ho : o ∈ [Reg.PCI_DMA_CTRL, Reg.PCI_DMA_STATUS, Reg.PCI_DMA_HEAD, Reg.PCI_DMA_TAIL]) : keptReg (o + 32 * e) = false := by
  have hbelow : o + 32 * 8 < 0x110000 := (by decide : ∀ k ∈ [Reg.PCI_DMA_CTRL, Reg.PCI_DMA_STATUS, Reg.PCI_DMA_HEAD,
    Reg.PCI_DMA_TAIL], k + 32 * 8 < 0x110000) o ho
  exact decide_eq_false (by omega)

/-- Registers outside the Lodge's blocks and the descriptors in flight tell whether a DMA engine runs. -/
theorem State.anyDma_congr {s t : State} (hflights : t.host.flights = s.host.flights)
    (hregs : ∀ o, keptReg o = false → t.reg o = s.reg o) : t.anyDma = s.anyDma := by
  refine any_eq_of_forall_mem fun e he => ?_
  have hreg := fun o ho => hregs (o + 32 * e) (keptReg_dma (o := o) (List.mem_range.mp he) ho)
  have hhead : t.regN (Reg.PCI_DMA_HEAD + 32 * e) = _ := congrArg BitVec.toNat (hreg _ (by decide))
  have htail : t.regN (Reg.PCI_DMA_TAIL + 32 * e) = _ := congrArg BitVec.toNat (hreg _ (by decide))
  rw [State.dmaBusy, State.bit_of_reg (hreg Reg.PCI_DMA_CTRL (by decide)),
    State.fld_of_reg (hreg Reg.PCI_DMA_STATUS (by decide)), hhead, htail, hflights]
  rfl

/-- The image's state and registers outside the Lodge's blocks tell whether a test or a load runs. -/
theorem State.anyTest_congr {s t : State} (himage : t.image = s.image)
    (hregs : ∀ o, keptReg o = false → t.reg o = s.reg o) : t.anyTest = s.anyTest := by
  rw [State.anyTest, State.anyTest, himage]
  refine congrArg _ (any_eq_of_forall_mem fun o ho => ?_)
  have houtside : ∀ k ∈ [Reg.ME_TEST_CTRL, Reg.VE_TEST_CTRL, Reg.MEM_TEST_CTRL, Reg.MEM_SCAN_CTRL], keptReg k = false := by
    decide
  rw [State.fld_of_reg (hregs o (houtside o ho))]

/-- R362: what refuses an entry lies outside the Lodge and its blocks. -/
theorem State.entryRefusal_congr {s t : State} (himage : t.image = s.image) (hstl : t.stl = s.stl)
    (hflights : t.host.flights = s.host.flights) (hregs : ∀ o, keptReg o = false → t.reg o = s.reg o) (p : PState) :
    t.entryRefusal p = s.entryRefusal p := by
  rw [State.entryRefusal, State.entryRefusal, State.anyDma_congr hflights hregs, State.anyTest_congr himage hregs, himage, hstl]

/-- What refuses an entry depends neither on the ports nor on the Lodge's part. -/
theorem Evolves.entryRefusal_eq {s t : State} (h : Evolves [.pyu, .ldg] s t) (p : PState) :
    t.entryRefusal p = s.entryRefusal p :=
  State.entryRefusal_congr (h.keep .image (by decide)) (h.keep .stl (by decide))
    (congrArg HostIf.flights (h.keep .host (by decide)))
    (fun o _ => congrArg (fun r => storeGet 0 r o) (h.keep .regs (by decide))) p

/-- An event of the Lodge refuses no entry. -/
theorem State.entryRefusal_event (s : State) {o : Nat} (ho : keptReg o = true) (i : Nat) (p : PState) :
    (s.event o i).entryRefusal p = s.entryRefusal p :=
  have h := s.event_evolves o i
  State.entryRefusal_congr (h.keep .image (by decide)) (h.keep .stl (by decide)) (s.flights_event o i)
    (fun k hk => s.reg_event_ne o i k fun e => absurd ho (by simp [← e, hk])) p

/-- R362: an empty module at rest may enter A2. -/
theorem State.entryRefusal_a2_of_empty {s : State} (himage : s.image.st = .empty) (hdma : s.anyDma = false)
    (htest : s.anyTest = false) : s.entryRefusal .a2 = none := by
  simp [State.entryRefusal, himage, hdma, htest]

/-! ## A request that is held, and one that begins its entry -/

/-- No transition is in progress. -/
theorem State.moving_eq_false {s : State} (hentering : s.ldg.entering = none) (hwaking : s.ldg.waking = 0) :
    s.moving = false := by
  simp [State.moving, hentering, hwaking]

/-- R363: in a transition a request is held, in place of one held before, and RESULT tells so. -/
theorem State.requestEntry_of_moving {s : State} (h : s.moving = true) (p : PState) :
    s.requestEntry p = (s.mapLdg fun l => { l with held := some p }).entryResult 6 := by
  rw [State.requestEntry, if_pos h]

/-- R362: a request for a deeper state begins its entry where nothing refuses it. -/
theorem State.requestEntry_of_admitted {s : State} {p : PState} (h : s.moving = false) (hdeep : s.ldg.ps.depth < p.depth)
    (hrefuse : s.entryRefusal p = none) : s.requestEntry p = (s.beginEntry p).mapLdg fun l => { l with asked := true } := by
  simp [State.requestEntry, h, Nat.not_le_of_lt hdeep, hrefuse]

/-- The Lodge's part as an entry begins. -/
theorem State.beginEntry_ldg (s : State) (p : PState) : (s.beginEntry p).ldg = { s.ldg with
    entering := some p, latched := false, pyuSeen := false, onDemand := [], asked := false } := by
  have hpersist : s.seedPersist.ldg = s.ldg := s.seedPersist_evolves.keep .ldg (by decide)
  rw [← hpersist]
  rfl

/-- R363: a write that is persisting is completed as an entry begins. -/
theorem State.beginEntry_sbk (s : State) (p : PState) : (s.beginEntry p).sbk = s.seedPersist.sbk := rfl

/-- R363: what a request leaves in a transition. -/
theorem State.requestEntry_held {s : State} (h : s.moving = true) (p : PState) :
    (s.requestEntry p).ldg = { s.ldg with held := some p } ∧ (s.requestEntry p).sbk = s.sbk := by
  rw [State.requestEntry_of_moving h]
  exact ⟨rfl, rfl⟩

/-- R362, R363: what a request leaves that begins its entry. -/
theorem State.requestEntry_begins {s : State} {p : PState} (h : s.moving = false) (hdeep : s.ldg.ps.depth < p.depth)
    (hrefuse : s.entryRefusal p = none) : (s.requestEntry p).ldg = { s.ldg with
      entering := some p, latched := false, pyuSeen := false, onDemand := [], asked := true } ∧
      (s.requestEntry p).sbk = s.seedPersist.sbk := by
  rw [State.requestEntry_of_admitted h hdeep hrefuse]
  exact ⟨congrArg (fun l : LodgeSt => { l with asked := true }) (s.beginEntry_ldg p), s.beginEntry_sbk p⟩

/-- R363: the held request begins its entry at the end of a transition, where nothing refuses it. -/
theorem State.actHeld_begins {s : State} {p : PState} (hheld : s.ldg.held = some p) (hentering : s.ldg.entering = none)
    (hwaking : s.ldg.waking = 0) (hdeep : s.ldg.ps.depth < p.depth) (hrefuse : s.entryRefusal p = none) :
    s.actHeld.ldg.ps = s.ldg.ps ∧ s.actHeld.ldg.entering = some p ∧ s.actHeld.ldg.held = none ∧
      s.actHeld.sbk = s.seedPersist.sbk := by
  have hact : s.actHeld = (s.mapLdg fun l => { l with held := none }).requestEntry p := by rw [State.actHeld, hheld]
  have hfree := ((s.mapLdg_evolves fun l => { l with held := none }).widen (Q := [.pyu, .ldg]) rfl).entryRefusal_eq p
  obtain ⟨hldg, hsbk⟩ := State.requestEntry_begins (s := s.mapLdg fun l => { l with held := none })
    (State.moving_eq_false hentering hwaking) hdeep (hfree.trans hrefuse)
  rw [hact]
  exact ⟨by rw [hldg]; rfl, by rw [hldg], by rw [hldg]; rfl, hsbk.trans (State.seedPersist_sbk_congr rfl)⟩

/-! ## The commands -/

/-- A management request acts at once on a module that the Lodge serves. -/
theorem State.onMgmt_of_managed {s : State} (h : s.managed) (f : State → State) : s.onMgmt f = f s := by
  obtain ⟨hpow, hstep, hA1⟩ := h
  simp [State.onMgmt, hpow, hstep, hA1]

/-- A request that the Lodge serves acts at once on a sleeping module. -/
theorem State.onLodge_of_asleep {s : State} (hlink : s.linkUp = true) (hstep : 6 ≤ s.boot.step)
    (hboot : s.boot.failed = false) (hasleep : s.asleep = true) (f : State → State) : s.onLodge f = f s := by
  simp [State.onLodge, hlink, hstep, hboot, hasleep]

/-- R362: the management command for a state requests its entry. -/
theorem exec_mgmtEnter {s : State} (h : s.managed) {c : Instr} {p : PState}
    (hc : (c = .mgmtEnterA2 ∧ p = .a2) ∨ (c = .mgmtEnterA3 ∧ p = .a3)) : exec c s = .next (s.requestEntry p) := by
  rcases hc with ⟨rfl, rfl⟩ | ⟨rfl, rfl⟩
  · exact congrArg Host.Outcome.next (State.onMgmt_of_managed h _)
  · exact congrArg Host.Outcome.next (State.onMgmt_of_managed h _)

/-- R361, R362: a write of TARGET that the Lodge serves requests the entry of its state. -/
theorem exec_target {s : State} (hlink : s.linkUp = true) (hstep : 6 ≤ s.boot.step) (hboot : s.boot.failed = false)
    (hasleep : s.asleep = true) {c : Instr} {p : PState} (hc : (c = .targetA1 ∧ p = .a1) ∨ (c = .targetA2 ∧ p = .a2)) :
    exec c s = .next (s.requestEntry p) := by
  rcases hc with ⟨rfl, rfl⟩ | ⟨rfl, rfl⟩
  · exact congrArg Host.Outcome.next (State.onLodge_of_asleep hlink hstep hboot hasleep _)
  · exact congrArg Host.Outcome.next (State.onLodge_of_asleep hlink hstep hboot hasleep _)

/-- An entry that nobody asked for, and no event interrupted, ends with the held request. -/
theorem State.afterEntry_of_unasked {s : State} (hasked : s.ldg.asked = false) (hlatched : s.ldg.latched = false) :
    s.afterEntry = s.actHeld := by
  simp [State.afterEntry, hasked, hlatched]

/-- The fourth domain of a wake from A2 ends it. -/
theorem exec_wakeDomainReady_last {s : State} (hps : s.ldg.ps = .a2) (hwaking : s.ldg.waking = 4) (failed : List (Fin 256)) :
    exec (.wakeDomainReady failed) s = .next s.wakeDone := by
  change execWakeDomainReady failed s = _
  simp [execWakeDomainReady, hps, hwaking]

/-- R52: with no image there is nothing to check again. -/
theorem State.recheck_of_empty {s : State} (h : s.image.st = .empty) : s.recheck = s := by
  simp [State.recheck, State.img, h]

/-- R363: where nobody asked for an entry to A2 and nothing interrupted it, the held request follows it. -/
theorem State.afterEntry_a2_begins {s : State} {p : PState} (hasked : s.ldg.asked = false) (hlatched : s.ldg.latched = false)
    (hheld : s.ldg.held = some p) (hwaking : s.ldg.waking = 0) (hdeep : PState.a2.depth < p.depth)
    (hrefuse : s.entryRefusal p = none) :
    (s.reachState .a2).afterEntry.ldg.ps = .a2 ∧ (s.reachState .a2).afterEntry.ldg.entering = some p ∧
      (s.reachState .a2).afterEntry.ldg.held = none ∧ (s.reachState .a2).afterEntry.sbk = s.seedPersist.sbk := by
  have hevol : Evolves [.pyu, .ldg] s (s.reachState .a2) := by
    rw [s.reachState_a2]
    exact (s.listen_evolves.widen rfl).step (State.mapLdg_evolves _ _) rfl
  have hldg : (s.reachState .a2).ldg = { s.ldg with ps := .a2, entering := none } := s.reachState_a2_ldg
  have hsbk : (s.reachState .a2).sbk = s.sbk := hevol.keep .sbk (by decide)
  have hfree := (hevol.entryRefusal_eq p).trans hrefuse
  generalize s.reachState .a2 = u at *
  rw [State.afterEntry_of_unasked (by rw [hldg, hasked]) (by rw [hldg, hlatched])]
  obtain ⟨hps, hent, hnone, hpersist⟩ := State.actHeld_begins (s := u) (p := p) (by rw [hldg, hheld]) (by rw [hldg])
    (by rw [hldg, hwaking]) (by rw [hldg]; exact hdeep) hfree
  exact ⟨hps.trans (by rw [hldg]), hent, hnone, hpersist.trans (State.seedPersist_sbk_congr hsbk)⟩

/-- R367: with no image a wake from A2 ends as the ports train again, and a held request is acted on. -/
theorem State.wakeDone_of_a2 {s : State} (hps : s.ldg.ps = .a2) (hempty : s.image.st = .empty) : s.wakeDone =
    ((s.retrainPorts.mapLdg fun l => { l with ps := .a0, waking := 0 }).event Reg.LDG_EVENT 0).actHeld := by
  have himage : s.retrainPorts.image = s.image := s.retrainPorts_evolves.keep .image (by decide)
  have hrecheck : s.retrainPorts.recheck = s.retrainPorts := State.recheck_of_empty (by rw [himage, hempty])
  rw [State.wakeDone, hps]
  dsimp only
  rw [hrecheck]

/-- R363: where there is no image, the held request follows a wake from A2. -/
theorem State.wakeDone_a2_begins {s : State} {p : PState} (hps : s.ldg.ps = .a2) (hempty : s.image.st = .empty)
    (hheld : s.ldg.held = some p) (hentering : s.ldg.entering = none) (hdeep : PState.a0.depth < p.depth)
    (hrefuse : s.entryRefusal p = none) :
    s.wakeDone.ldg.ps = .a0 ∧ s.wakeDone.ldg.entering = some p ∧ s.wakeDone.ldg.held = none := by
  have htrain : s.retrainPorts.ldg = s.ldg := s.retrainPorts_evolves.keep .ldg (by decide)
  have hevol : Evolves [.pyu, .ldg] s (s.retrainPorts.mapLdg fun l => { l with ps := .a0, waking := 0 }) :=
    (s.retrainPorts_evolves.widen rfl).step (State.mapLdg_evolves _ _) rfl
  have hldg : (s.retrainPorts.mapLdg fun l => { l with ps := .a0, waking := 0 }).ldg =
      { s.ldg with ps := .a0, waking := 0 } := congrArg (fun l : LodgeSt => { l with ps := .a0, waking := 0 }) htrain
  rw [State.wakeDone_of_a2 hps hempty]
  generalize (s.retrainPorts.mapLdg fun l => { l with ps := .a0, waking := 0 }) = u at *
  have hevent : (u.event Reg.LDG_EVENT 0).ldg = { s.ldg with ps := .a0, waking := 0 } :=
    ((u.event_evolves Reg.LDG_EVENT 0).keep .ldg (by decide)).trans hldg
  have hfree := (u.entryRefusal_event (o := Reg.LDG_EVENT) (by decide) 0 p).trans ((hevol.entryRefusal_eq p).trans hrefuse)
  obtain ⟨hawake, hent, hnone, _⟩ := State.actHeld_begins (s := u.event Reg.LDG_EVENT 0) (p := p) (by rw [hevent, hheld])
    (by rw [hevent, hentering]) (by rw [hevent]) (by rw [hevent]; exact hdeep) hfree
  exact ⟨hawake.trans (by rw [hevent]), hent, hnone⟩

/-- Settles O58: a request in a transition is held, and the end of an entry or of a wake begins the entry that is held. -/
theorem requestsInTransitionsAreHeld : Obligations.RequestsInTransitionsAreHeld := by
  intro s _ hmanaged hasked hlatched
  refine ⟨fun c p hc => ⟨fun hmove => ?_, fun hstill hdeep hrefuse => ?_⟩,
    fun c p hc hlink hstep hboot hasleep hmove => ?_, fun hentering hheld hwaking hrefuse => ?_,
    fun hps hwaking hentering hheld hempty hdma htest failed => ?_⟩
  · exact ⟨_, exec_mgmtEnter hmanaged hc, State.requestEntry_held hmove p⟩
  · obtain ⟨hldg, hsbk⟩ := State.requestEntry_begins hstill hdeep hrefuse
    exact ⟨_, exec_mgmtEnter hmanaged hc, by rw [hldg], hsbk⟩
  · exact ⟨_, exec_target hlink hstep hboot hasleep hc, State.requestEntry_held hmove p⟩
  · exact ⟨_, exec_entryDone hentering,
      State.afterEntry_a2_begins hasked hlatched hheld hwaking (by decide) hrefuse⟩
  · exact ⟨_, exec_wakeDomainReady_last hps hwaking failed,
      State.wakeDone_a2_begins hps hempty hheld hentering (by decide) (State.entryRefusal_a2_of_empty hempty hdma htest)⟩

end Sys2Proof.Machine

/-! Records and heads of the trace rings (R410, R414): a record's stamp holds PHASE in its top bit, and a write of a head acts by
where the value lies. -/

namespace Sys2Proof.Machine

/-! ## Bytes of a number -/

/-- A number of `n` bytes takes `n` bytes. -/
@[simp] theorem length_leBytes (n v : Nat) : (leBytes n v).length = n := by
  induction n generalizing v with
  | zero => rfl
  | succ n ih => rw [leBytes, List.length_cons, ih]

/-- The low `n` bytes of a number hold its remainder modulo `256 ^ n`. -/
theorem ofLe_leBytes (n v : Nat) : ofLe (leBytes n v) = v % 256 ^ n := by
  induction n generalizing v with
  | zero => rw [leBytes, ofLe, pow_zero, Nat.mod_one]
  | succ n ih => rw [leBytes, ofLe, ih, BitVec.toNat_ofNat, pow_succ' 256, Nat.mod_mul]

/-! ## A trace record (R410) -/

/-- A record takes 32 bytes. -/
theorem length_traceBytes (size n : Nat) (r : TraceRec) : (traceBytes size n r).length = 32 := by
  simp [traceBytes]

/-- The stamp, four bytes from byte 8, holds CYCLE and in bit 31 PHASE. -/
theorem traceBytes_stamp (size n : Nat) (r : TraceRec) :
    ((traceBytes size n r).drop 8).take 4 = leBytes 4 (r.cycle % 2 ^ 25 + 2 ^ 31 * (1 - n / size % 2)) := by
  simp only [traceBytes, List.append_assoc]
  rw [List.drop_left' (length_leBytes ..), List.take_left' (length_leBytes ..)]

/-- R414: bit 31 of the stamp is 1 in an even pass through the ring and 0 in an odd one. -/
theorem traceBytes_phase (size n : Nat) (r : TraceRec) :
    ofLe (((traceBytes size n r).drop 8).take 4) / 2 ^ 31 = 1 - n / size % 2 := by
  rw [traceBytes_stamp, ofLe_leBytes]
  omega

/-! ## The head of a ring (R414) -/

/-- A request of a module that serves it, and is not in A1, acts at once. -/
theorem State.onHost_of_hosted {s : State} (h : s.hosted) (f : State → State) : s.onHost f = f s := by
  obtain ⟨hserving, hA1⟩ := h
  rw [State.onHost, if_pos hserving, hA1]
  rfl

/-- The write of a head acts at once on the ring. -/
theorem exec_ringHeadWrite {s : State} (h : s.hosted) (d : Fin 2) (v : DWord) :
    exec (.ringHeadWrite d v) s = .next (s.ringHeadWrite d v) :=
  congrArg _ (State.onHost_of_hosted h _)

/-- A head from the present one up to TAIL is written. -/
theorem State.ringHeadWrite_of_between {s : State} {d : Nat} {v : DWord} (hhead : s.ringHead d ≤ v.toNat)
    (htail : v.toNat ≤ s.ringTail d) : s.ringHeadWrite d v = s.setReg (Reg.BEL_RING_HEAD + ringOff d) v := by
  rw [State.ringHeadWrite, if_neg (by omega)]

/-- Any other head is an error. -/
theorem State.ringHeadWrite_of_outside {s : State} {d : Nat} {v : DWord}
    (h : v.toNat < s.ringHead d ∨ s.ringTail d < v.toNat) : s.ringHeadWrite d v = s.event Reg.BEL_EVENT 2 := by
  rw [State.ringHeadWrite, if_pos h]

/-- The head that was written reads back. -/
theorem State.ringHead_setReg (s : State) (d : Nat) (v : DWord) (h : storeWf 0 s.regs = true) :
    (s.setReg (Reg.BEL_RING_HEAD + ringOff d) v).ringHead d = v.toNat :=
  congrArg BitVec.toNat (s.reg_setReg _ v h)

/-- The write of a register touches it alone. -/
theorem State.touches_setReg (s : State) (o : Nat) (v : DWord) : s.touches (s.setReg o v) [.regs] [o] :=
  (s.setReg_evolves o v).touches (s.sameRegs_setReg o v) (by decide) (by decide)

/-- An event touches its register and, with a message, what is signalled to the host. -/
theorem State.touches_event (s : State) (o i : Nat) : s.touches (s.event o i) Part.signalled [o] :=
  (s.event_evolves o i).touches (s.sameRegs_event o i) (by decide) (by decide)

/-- Settles O59: PHASE is the top bit of a record's stamp; a head in range is one register write, any other one event. -/
theorem ringHeadsAndPhases : Obligations.RingHeadsAndPhases := by
  refine ⟨fun size n r => ⟨length_traceBytes size n r, traceBytes_phase size n r⟩, fun d v s hinv hhosted => ?_⟩
  obtain ⟨_, hregs⟩ := hinv
  rw [exec_ringHeadWrite hhosted]
  refine ⟨fun hhead htail => ⟨_, rfl, ?_⟩, fun hout => ⟨_, rfl, ?_⟩⟩
  · rw [State.ringHeadWrite_of_between hhead htail]
    exact ⟨s.ringHead_setReg d v hregs, s.touches_setReg _ v⟩
  · rw [State.ringHeadWrite_of_outside hout]
    exact ⟨s.bit_event Reg.BEL_EVENT 2 hregs (by decide), s.touches_event ..⟩

end Sys2Proof.Machine

/-! The form of the channels' buffers and of the engines' stores (R221, R233): what an operation does to them. -/

namespace Sys2Proof.Machine

set_option Elab.async false

/-! ## The parts that hold the stores -/

/-- The stores that the forms speak of, and nothing else, are the same in two states. -/
structure State.SameStores (s t : State) : Prop where
  wcb : t.hbm.wcb = s.hbm.wcb
  writeBacks : t.hbm.writeBacks = s.hbm.writeBacks
  scrub : t.hbm.scrub = s.hbm.scrub
  me : t.me.tile = s.me.tile ∧ t.me.acc = s.me.acc ∧ t.me.leaving = s.me.leaving ∧ t.me.thin = s.me.thin ∧
    t.me.bank = s.me.bank
  ve : t.ve.regs = s.ve.regs ∧ t.ve.masks = s.ve.masks ∧ t.ve.bufs = s.ve.bufs
  ops : t.clo.ops = s.clo.ops
  arbs : t.trl.arbs = s.trl.arbs

/-- `t` comes from `s` by operations that keep the form of the channels' buffers and of the engines' stores. -/
structure Forms (s t : State) : Prop where
  combine : s.combineOk → t.combineOk
  engines : s.enginesOk → t.enginesOk

theorem Forms.refl (s : State) : Forms s s := ⟨id, id⟩

theorem Forms.trans {s t u : State} (h : Forms s t) (g : Forms t u) : Forms s u :=
  ⟨g.combine ∘ h.combine, g.engines ∘ h.engines⟩

/-- The forms depend on the stores alone. -/
theorem State.SameStores.forms {s t : State} (h : s.SameStores t) : Forms s t := by
  obtain ⟨hw, hb, hs, ⟨m1, m2, m3, m4, m5⟩, ⟨v1, v2, v3⟩, ho, ha⟩ := h
  constructor
  · unfold State.combineOk
    rw [hw, hb, hs]
    exact id
  · unfold State.enginesOk
    rw [m1, m2, m3, m4, m5, v1, v2, v3, ho, ha]
    exact id

/-- The parts beside those that hold the stores. -/
def Part.aside : List Part :=
  [.regs, .mem, .free, .out, .heldOut, .boot, .image, .tick, .adm, .seg, .stl, .upd, .pyu, .pwr, .ldg, .host, .sec, .sbk,
    .hlt, .bel]

/-- An operation on other parts keeps the forms. -/
theorem Evolves.forms {P : List Part} {s t : State} (g : Evolves P s t)
    (hp : (P.all fun p => Part.aside.contains p) = true) : Forms s t := by
  have keep (p : Part) (h : p ∉ Part.aside) : s.agree t p := g.keep p fun hP => h <| by
    simpa using List.all_eq_true.mp hp p hP
  have hbm : t.hbm = s.hbm := keep .hbm (by decide)
  have me : t.me = s.me := keep .me (by decide)
  have ve : t.ve = s.ve := keep .ve (by decide)
  have clo : t.clo = s.clo := keep .clo (by decide)
  have trl : t.trl = s.trl := keep .trl (by decide)
  exact State.SameStores.forms (by constructor <;> simp [hbm, me, ve, clo, trl])

/-- An operation on other parts comes after one that keeps the forms. -/
theorem Forms.aside {P : List Part} {s t u : State} (h : Forms s t) (g : Evolves P t u)
    (hp : (P.all fun p => Part.aside.contains p) = true := by decide) : Forms s u := h.trans (g.forms hp)

/-- An update of parts of a state that leaves the stores as they are. -/
theorem Forms.same {s t u : State} (h : Forms s t) (g : t.SameStores u) : Forms s u := h.trans g.forms

/-- One operation for each element of a list. -/
theorem Forms.foldl {α : Type} {f : State → α → State} (h : ∀ s a, Forms s (f s a)) (l : List α) (s : State) :
    Forms s (l.foldl f s) := by
  induction l generalizing s with
  | nil => exact Forms.refl s
  | cons a l ih => exact (h s a).trans (ih _)

/-- One of two operations. -/
theorem Forms.ite {s t u : State} (c : Prop) [Decidable c] (h : Forms s t) (g : Forms s u) :
    Forms s (if c then t else u) := by split <;> assumption

/-- An update that leaves the stores as they are. -/
theorem Forms.update {s t : State} (h : Forms s t)
    {regs mem free out heldOut boot image tick adm seg me ve stl hbm upd clo trl pyu pwr ldg host sec sbk hlt bel}
    (hbm_same : hbm.wcb = t.hbm.wcb ∧ hbm.writeBacks = t.hbm.writeBacks ∧ hbm.scrub = t.hbm.scrub)
    (me_same : me.tile = t.me.tile ∧ me.acc = t.me.acc ∧ me.leaving = t.me.leaving ∧ me.thin = t.me.thin ∧
      me.bank = t.me.bank)
    (ve_same : ve.regs = t.ve.regs ∧ ve.masks = t.ve.masks ∧ ve.bufs = t.ve.bufs) (ops_same : clo.ops = t.clo.ops)
    (arbs_same : trl.arbs = t.trl.arbs) :
    Forms s ⟨t.pending, regs, mem, free, out, heldOut, boot, image, tick, adm, seg, me, ve, stl, hbm, upd, clo, trl,
      pyu, pwr, ldg, host, sec, sbk, hlt, bel⟩ :=
  h.same ⟨hbm_same.1, hbm_same.2.1, hbm_same.2.2, me_same, ve_same, ops_same, arbs_same⟩

end Sys2Proof.Machine

/-! What each operation does to the forms of the channels' buffers and of the engines' stores, in the order of the operations' own laws. -/

namespace Sys2Proof.Machine

set_option Elab.async false

/-- Entries as the module fills them: distinct lines of the channel, each with the 64 bytes of its line. -/
def combines (es : List WcbEntry) : Prop :=
  (es.map WcbEntry.line).Nodup ∧ ∀ e ∈ es, e.line < 31250000 ∧ e.data.length = 64

/-- A number's entry in a store is one of its pairs, or the value an unlisted number reads as. -/
theorem storeGet_mem {α : Type} (d : α) (m : List (Nat × α)) (k : Nat) : storeGet d m k = d ∨ (k, storeGet d m k) ∈ m := by
  induction m with
  | nil => exact .inl rfl
  | cons e m ih =>
    obtain ⟨k', v⟩ := e
    unfold storeGet
    split
    · next h => exact .inr (h ▸ List.mem_cons_self)
    · exact ih.imp_right (List.mem_cons_of_mem _)

/-- A pair of a store after a write is the one written, or was there. -/
theorem mem_storeSet {α : Type} [DecidableEq α] {d : α} {m : List (Nat × α)} {k : Nat} {v : α} {p : Nat × α}
    (h : p ∈ storeSet d m k v) : p = (k, v) ∨ p ∈ m := by
  induction m with
  | nil => unfold storeSet at h; split at h <;> simp_all
  | cons e m ih =>
    obtain ⟨k', v'⟩ := e
    unfold storeSet at h
    split at h
    · split at h <;> simp_all
    · split at h
      · split at h <;> simp_all
        tauto
      · rcases List.mem_cons.mp h with h | h
        · exact .inr (h ▸ List.mem_cons_self)
        · exact (ih h).imp_right (List.mem_cons_of_mem _)

/-- The entries of each channel, for channels in form. -/
theorem State.combines_wcb {s : State} (h : s.combineOk) (ch : Nat) : combines (s.wcb ch) := by
  obtain ⟨-, -, -, hwcb⟩ := h
  rcases storeGet_mem [] s.hbm.wcb ch with h0 | hmem
  · unfold State.wcb
    rw [h0]
    exact ⟨List.nodup_nil, by simp⟩
  · exact hwcb _ hmem

theorem combines.filter {es : List WcbEntry} (h : combines es) (p : WcbEntry → Bool) : combines (es.filter p) :=
  ⟨h.1.sublist (List.filter_sublist.map _), fun e he => h.2 e (List.mem_of_mem_filter he)⟩

/-- A channel is given entries in form. -/
theorem Forms.setWcb {u s : State} (h : Forms u s) (ch : Nat) {es : List WcbEntry} (hes : u.combineOk → combines es) :
    Forms u (s.setWcb ch es) where
  combine hu := by
    obtain ⟨hwcb, hback, hscrub, hall⟩ := h.combine hu
    refine ⟨storeWf_storeSet _ _ _ _ hwcb, hback, hscrub, fun p hp => ?_⟩
    rcases mem_storeSet hp with rfl | hp
    · exact hes hu
    · exact hall p hp
  engines := h.engines

theorem State.setWriteBacks_forms (s : State) (ch) (q) : Forms s (State.setWriteBacks s ch q) where
  combine := fun ⟨hwcb, hback, hrest⟩ => ⟨hwcb, storeWf_storeSet _ _ _ _ hback, hrest⟩
  engines := id

theorem State.dropBad_forms (s : State) (k) (n) :
    Forms s (State.dropBad s k n) := by
  unfold State.dropBad
  repeat' first
    | with_reducible exact Forms.refl _
    | with_reducible apply Forms.ite
    | split
    | dsimp only
    | with_reducible apply Forms.update
    | with_reducible exact And.intro rfl (And.intro rfl rfl)
    | with_reducible exact And.intro rfl (And.intro rfl (And.intro rfl (And.intro rfl rfl)))

theorem State.lineWrite_forms (s : State) (ch) (line) (bs) : Forms s (State.lineWrite s ch line bs) := by
  unfold State.lineWrite
  refine Forms.trans ?_ (State.dropBad_forms ..)
  refine Forms.trans ?_ (State.setWriteBacks_forms ..)
  exact Forms.setWcb ((State.putBytes_evolves ..).forms rfl) ch fun hs => (State.combines_wcb hs ch).filter _

theorem State.flushOver_forms (s : State) (ch) (e) (line) :
    Forms s (State.flushOver s ch e line) := by
  unfold State.flushOver
  repeat' first
    | with_reducible exact Forms.refl _
    | with_reducible apply Forms.trans (g := State.lineWrite_forms _ _ _ _)

theorem State.flushEntry_forms (s : State) (ch) (e) :
    Forms s (State.flushEntry s ch e) := by
  unfold State.flushEntry
  repeat' first
    | with_reducible exact Forms.refl _
    | with_reducible apply Forms.trans (g := State.flushOver_forms _ _ _ _)

theorem State.flushAll_forms (s : State) (ch) (x1) :
    Forms s (State.flushAll s ch x1) := by
  fun_induction State.flushAll s ch x1
  all_goals repeat' first
    | with_reducible exact Forms.refl _
    | with_reducible assumption
    | with_reducible apply Forms.trans (g := State.flushEntry_forms _ _ _)
    | with_reducible apply Forms.trans (g := by assumption)

theorem State.wcb_of_hbm {s t : State} {ch : Nat} (h : t.hbm = s.hbm) : t.wcb ch = s.wcb ch := by
  rw [State.wcb, h, State.wcb]

/-- A flush leaves the other entries of its channel. -/
theorem State.wcb_flushEntry {s : State} {ch : Nat} (e : WcbEntry) (h : storeWf [] s.hbm.wcb = true) :
    (s.flushEntry ch e).wcb ch = (s.wcb ch).filter fun x => x.line ≠ e.line := by
  unfold State.flushEntry State.flushOver State.lineWrite State.setWriteBacks State.dropBad State.setWcb State.putBytes
  exact storeGet_storeSet_same _ _ _ _ h

theorem mergeBytes_length (mask : BitVec 64) (old new : List Byte) : (mergeBytes mask old new).length = 64 := by
  simp [mergeBytes]

theorem layBytes_length (off : Nat) (bs : List Byte) : (layBytes off bs).length = 64 := by
  simp only [layBytes, padTo, List.length_take, List.length_append, List.length_replicate]
  omega

/-- A partial write is merged into the entry of its line, or makes one; with 32 entries the oldest is flushed. -/
theorem State.partialWrite_forms (s : State) (who) (ch) {line : Nat} (off) (bs) (hline : line < 31250000) :
    Forms s (State.partialWrite s who ch line off bs) := by
  have appended {es : List WcbEntry} (h : combines es) (hnew : line ∉ es.map WcbEntry.line) :
      combines (es ++ [⟨line, who, byteMask off bs.length, layBytes off bs⟩]) := by
    refine ⟨?_, fun e he => ?_⟩
    · rw [List.map_append]
      exact h.1.append (List.nodup_singleton _) (by simpa [List.Disjoint] using hnew)
    · rcases List.mem_append.mp he with he | he
      · exact h.2 e he
      · rw [List.mem_singleton.mp he]
        exact ⟨hline, layBytes_length off bs⟩
  unfold State.partialWrite
  split
  · refine (Forms.refl s).setWcb ch fun hs => ?_
    have h := State.combines_wcb hs ch
    refine ⟨?_, fun e he => ?_⟩
    · have hlines : ((s.wcb ch).map fun e => if e.line = line then
          { e with who := who, mask := e.mask ||| byteMask off bs.length,
                   data := mergeBytes (byteMask off bs.length) e.data (layBytes off bs) } else e).map WcbEntry.line =
          (s.wcb ch).map WcbEntry.line := by
        rw [List.map_map]
        exact List.map_congr_left fun e _ => by simp only [Function.comp]; split <;> rfl
      exact hlines ▸ h.1
    · obtain ⟨e', he', rfl⟩ := List.mem_map.mp he
      split
      · exact ⟨(h.2 e' he').1, mergeBytes_length _ _ _⟩
      · exact h.2 e' he'
  · next hnone =>
    have hnew : line ∉ (s.wcb ch).map WcbEntry.line := by
      simpa using hnone
    split
    · next e es heq =>
      split
      · have hcount := State.count_evolves (s.flushEntry ch e) Reg.MEM_WCB_EVICT 64 1
        have hbel := State.bel64_evolves ((s.flushEntry ch e).count Reg.MEM_WCB_EVICT 64 1) (chanCnt ch 7) 1
        have hflush := ((State.flushEntry_forms s ch e).aside hcount).aside hbel
        refine hflush.setWcb ch fun hs => appended (State.combines_wcb (hflush.combine hs) ch) ?_
        have hkept : ∀ x ∈ (s.flushEntry ch e).wcb ch, x ∈ s.wcb ch := by
          rw [State.wcb_flushEntry e hs.1]
          exact fun x hx => List.mem_of_mem_filter hx
        rw [State.wcb_of_hbm ((hbel.keep .hbm (by decide)).trans (hcount.keep .hbm (by decide)))]
        exact fun hmem => hnew (List.map_subset _ hkept hmem)
      · exact (Forms.refl s).setWcb ch fun hs => appended (heq ▸ State.combines_wcb hs ch) (heq ▸ hnew)
    · exact (Forms.refl s).setWcb ch fun _ => appended (es := []) ⟨List.nodup_nil, by simp⟩ (by simp)

/-- What a device address reaches lies within its channel. -/
theorem State.hbmPlace_lt {s : State} {a ch o : Nat} (h : s.hbmPlace a = some (ch, o)) : o < chanBytes := by
  have hchan : chanBytes = 1953125 * 1024 := rfl
  simp only [State.hbmPlace] at h
  split at h
  · split at h
    · next hlt =>
      obtain ⟨c, -, hc⟩ := Option.map_eq_some_iff.mp h
      obtain ⟨-, rfl⟩ := Prod.mk.inj hc
      have hrow : a / 1024 / s.chans < 1953125 := by
        refine Nat.div_lt_of_lt_mul (Nat.div_lt_of_lt_mul ?_)
        calc a < s.chans * chanBytes := hlt
          _ = 1024 * (s.chans * 1953125) := by rw [hchan]; ring
      omega
    · cases h
  · split at h
    · next hin =>
      obtain ⟨-, rfl⟩ := Prod.mk.inj (Option.some.inj h)
      exact hin.2
    · cases h

/-- A backed byte lies in one of the channel's lines. -/
theorem State.line_lt_of_hbmPlace {s : State} {a ch o : Nat} (h : s.hbmPlace a = some (ch, o)) : o / 64 < 31250000 :=
  Nat.div_lt_of_lt_mul (State.hbmPlace_lt h)

theorem State.linePiece_forms (s : State) (who) (a) (bs) : Forms s (State.linePiece s who a bs) := by
  unfold State.linePiece
  split
  · split
    · next ch o hplace =>
      refine ((State.bel64_evolves ..).forms rfl).trans (Forms.ite _ (State.lineWrite_forms ..) ?_)
      exact State.partialWrite_forms _ _ _ _ _ (State.line_lt_of_hbmPlace hplace)
    · exact (State.addrErr_evolves s).forms rfl
  · exact Forms.ite _ ((State.putBytes_evolves ..).forms rfl) (Forms.refl s)

theorem State.writePieces_forms (s : State) (who) (x1) :
    Forms s (State.writePieces s who x1) := by
  fun_induction State.writePieces s who x1
  all_goals repeat' first
    | with_reducible exact Forms.refl _
    | with_reducible assumption
    | with_reducible apply Forms.trans (g := State.linePiece_forms _ _ _ _)
    | with_reducible apply Forms.trans (g := by assumption)

theorem State.devWrite_forms (s : State) (who) (a) (bs) :
    Forms s (State.devWrite s who a bs) := by
  unfold State.devWrite
  repeat' first
    | with_reducible exact Forms.refl _
    | with_reducible apply Forms.trans (g := State.writePieces_forms _ _ _)

theorem State.chainBack_forms (s : State) (table) (x1) :
    Forms s (State.chainBack s table x1) := by
  fun_induction State.chainBack s table x1
  all_goals repeat' first
    | with_reducible exact Forms.refl _
    | with_reducible assumption
    | with_reducible apply Forms.trans (g := State.devWrite_forms _ _ _ _)
    | with_reducible apply Forms.trans (g := by assumption)

theorem State.completeAll_forms (s : State) (x1) :
    Forms s (State.completeAll s x1) := by
  fun_induction State.completeAll s x1
  all_goals repeat' first
    | with_reducible exact Forms.refl _
    | with_reducible assumption
    | with_reducible apply Forms.aside (g := State.complete_evolves _ _)
    | with_reducible apply Forms.trans (g := State.chainBack_forms _ _ _)
    | with_reducible apply Forms.trans (g := by assumption)
    | with_reducible apply Forms.ite

theorem State.setSred_forms (s : State) (plot) (r) :
    Forms s (State.setSred s plot r) := by
  unfold State.setSred
  repeat' first
    | with_reducible exact Forms.refl _
    | with_reducible apply Forms.ite
    | split
    | dsimp only
    | with_reducible apply Forms.update
    | with_reducible exact And.intro rfl (And.intro rfl rfl)
    | with_reducible exact And.intro rfl (And.intro rfl (And.intro rfl (And.intro rfl rfl)))

theorem State.contribute_forms (s : State) (plot) (core) (xs) :
    Forms s (State.contribute s plot core xs) := by
  unfold State.contribute
  repeat' first
    | with_reducible exact Forms.refl _
    | with_reducible apply Forms.aside (g := State.count_evolves _ _ _ _)
    | with_reducible apply Forms.trans (g := State.setSred_forms _ _ _)
    | with_reducible apply Forms.ite

/-- A1 apart, every store is empty after a loss of power. -/
theorem State.lose_forms (s : State) : Forms s s.lose :=
  ⟨fun _ => ⟨rfl, rfl, rfl, fun _ h => absurd h List.not_mem_nil⟩,
    fun _ => ⟨rfl, rfl, rfl, rfl, rfl, rfl, rfl, rfl, rfl, rfl, fun _ h => absurd h List.not_mem_nil⟩⟩

theorem State.startWake_forms (s : State) :
    Forms s (State.startWake s) := by
  unfold State.startWake
  repeat' first
    | with_reducible exact Forms.refl _
    | with_reducible apply Forms.trans (g := State.lose_forms _)
    | with_reducible apply Forms.aside (g := State.mapLdg_evolves _ _)
    | with_reducible apply Forms.ite
    | split
    | dsimp only
    | with_reducible apply Forms.update
    | with_reducible exact And.intro rfl (And.intro rfl rfl)
    | with_reducible exact And.intro rfl (And.intro rfl (And.intro rfl (And.intro rfl rfl)))

theorem State.wakeEvent_forms (s : State) (bit) (port) :
    Forms s (State.wakeEvent s bit port) := by
  unfold State.wakeEvent
  repeat' first
    | with_reducible exact Forms.refl _
    | with_reducible apply Forms.aside (g := State.mapLdg_evolves _ _)
    | with_reducible apply Forms.aside (g := State.noteWake_evolves _ _ _)
    | with_reducible apply Forms.aside (g := State.firstWake_evolves _ _)
    | with_reducible apply Forms.trans (g := State.startWake_forms _)
    | with_reducible apply Forms.ite

theorem State.onHost_forms (s : State) (f : State → State) (hf : ∀ t, Forms t (f t)) : Forms s (s.onHost f) := by
  unfold State.onHost
  split
  · refine Forms.trans ?_ (hf _)
    exact Forms.ite _ (s.leaveA1_evolves.forms rfl) (Forms.refl s)
  · refine Forms.ite _ (Forms.refl s) (Forms.ite _ ((s.send_evolves _).forms rfl) (s.wakeEvent_forms ..))

theorem State.onLodge_forms (s : State) (f : State → State) (hf : ∀ t, Forms t (f t)) : Forms s (s.onLodge f) := by
  unfold State.onLodge
  exact Forms.ite _ (hf s) (s.onHost_forms f hf)

theorem State.writeSegment_forms (s : State) (d) (c) (nf) (update) :
    Forms s (State.writeSegment s d c nf update) := by
  unfold State.writeSegment
  repeat' first
    | with_reducible exact Forms.refl _
    | with_reducible apply Forms.trans (g := State.devWrite_forms _ _ _ _)

theorem State.combineExperts_forms (s : State) (c) :
    Forms s (State.combineExperts s c) := by
  unfold State.combineExperts
  repeat' first
    | with_reducible exact Forms.refl _
    | with_reducible apply Forms.trans (g := State.devWrite_forms _ _ _ _)
    | with_reducible apply Forms.aside (g := State.tally_evolves _ _)
    | with_reducible apply Forms.trans (g := Forms.foldl (fun _ _ => ?_) _ _)
    | (intro _)
    | with_reducible apply Forms.ite
    | split

theorem State.setIdle_forms (s : State) (e) (b) :
    Forms s (State.setIdle s e b) := by
  unfold State.setIdle
  repeat' first
    | with_reducible exact Forms.refl _
    | with_reducible apply Forms.ite
    | split
    | dsimp only
    | with_reducible apply Forms.update
    | with_reducible exact And.intro rfl (And.intro rfl rfl)
    | with_reducible exact And.intro rfl (And.intro rfl (And.intro rfl (And.intro rfl rfl)))

theorem State.flagHalf_forms (s : State) (key) (bad) :
    Forms s (State.flagHalf s key bad) := by
  unfold State.flagHalf
  repeat' first
    | with_reducible exact Forms.refl _
    | with_reducible apply Forms.ite
    | split
    | dsimp only
    | with_reducible apply Forms.update
    | with_reducible exact And.intro rfl (And.intro rfl rfl)
    | with_reducible exact And.intro rfl (And.intro rfl (And.intro rfl (And.intro rfl rfl)))

theorem State.loadAlong_forms (s : State) (op) (fmt) (depth) :
    Forms s (State.loadAlong s op fmt depth) := by
  unfold State.loadAlong
  repeat' first
    | with_reducible exact Forms.refl _
    | with_reducible apply Forms.aside (g := State.tally_evolves _ _)
    | with_reducible apply Forms.trans (g := State.setIdle_forms _ _ _)

theorem State.loadAcross_forms (s : State) (op) (fmt) (depth) :
    Forms s (State.loadAcross s op fmt depth) := by
  unfold State.loadAcross
  repeat' first
    | with_reducible exact Forms.refl _
    | with_reducible apply Forms.aside (g := State.bel64_evolves _ _ _)
    | with_reducible apply Forms.aside (g := State.tally_evolves _ _)
    | with_reducible apply Forms.aside (g := State.chargeRuns_evolves _ _ _ _ _ _)
    | with_reducible apply Forms.trans (g := State.setIdle_forms _ _ _)

theorem State.loadRotated_forms (s : State) (op) (fmt) (depth) (rot) :
    Forms s (State.loadRotated s op fmt depth rot) := by
  unfold State.loadRotated
  repeat' first
    | with_reducible exact Forms.refl _
    | with_reducible apply Forms.aside (g := State.tally_evolves _ _)
    | with_reducible apply Forms.aside (g := State.chargeRuns_evolves _ _ _ _ _ _)
    | with_reducible apply Forms.aside (g := State.countWindows_evolves _ _ _ _)
    | with_reducible apply Forms.trans (g := State.setIdle_forms _ _ _)

theorem State.passEngines_forms (s : State) :
    Forms s (State.passEngines s) := by
  unfold State.passEngines
  repeat' first
    | with_reducible exact Forms.refl _
    | with_reducible apply Forms.aside (g := State.zeroRegs_evolves _ _)
    | with_reducible apply Forms.ite
    | split
    | dsimp only
    | with_reducible apply Forms.update
    | with_reducible exact And.intro rfl (And.intro rfl rfl)
    | with_reducible exact And.intro rfl (And.intro rfl (And.intro rfl (And.intro rfl rfl)))

theorem State.testStores_forms (s : State) : Forms s s.testStores where
  combine := id
  engines := fun ⟨_, _, h⟩ => ⟨rfl, rfl, h⟩

theorem State.stageTile_forms (s : State) (p) (core) (ws) (nf) :
    Forms s (State.stageTile s p core ws nf) := by
  unfold State.stageTile
  repeat' first
    | with_reducible exact Forms.refl _
    | with_reducible apply Forms.trans (g := State.devWrite_forms _ _ _ _)
    | with_reducible apply Forms.aside (g := State.setStaged_evolves _ _ _ _)

theorem State.writeCounters_forms (s : State) (survey) (x1) (x2) :
    Forms s (State.writeCounters s survey x1 x2) := by
  fun_induction State.writeCounters s survey x1 x2
  all_goals repeat' first
    | with_reducible exact Forms.refl _
    | with_reducible assumption
    | with_reducible apply Forms.trans (g := State.devWrite_forms _ _ _ _)
    | with_reducible apply Forms.trans (g := by assumption)

theorem State.releaseSeg_forms (s : State) (x) (c) (rung) :
    Forms s (State.releaseSeg s x c rung) := by
  unfold State.releaseSeg
  repeat' first
    | with_reducible exact Forms.refl _
    | with_reducible apply Forms.aside (g := State.setRung_evolves _ _ _ _)
    | with_reducible apply Forms.trans (g := State.writeSegment_forms _ _ _ _ _)
    | with_reducible apply Forms.aside (g := State.setStaged_evolves _ _ _ _)
    | with_reducible apply Forms.trans (g := State.writeCounters_forms _ _ _ _)
    | with_reducible apply Forms.aside (g := State.flagMade_evolves _ _ _ _ _)
    | with_reducible apply Forms.aside (g := State.setLayer_evolves _ _ _)
    | with_reducible apply Forms.aside (g := State.setBranch_evolves _ _ _)
    | with_reducible apply Forms.ite
    | split
    | dsimp only
    | with_reducible apply Forms.update
    | with_reducible exact And.intro rfl (And.intro rfl rfl)
    | with_reducible exact And.intro rfl (And.intro rfl (And.intro rfl (And.intro rfl rfl)))

/-- Writing one number after another keeps the canonical form. -/
theorem storeWf_foldl {α β : Type} [DecidableEq α] {d : α} {f : List (Nat × α) → β → List (Nat × α)} (l : List β)
    (hf : ∀ m x, storeWf d m = true → storeWf d (f m x) = true) {m : List (Nat × α)} (h : storeWf d m = true) :
    storeWf d (l.foldl f m) = true := by
  induction l generalizing m with
  | nil => exact h
  | cons x l ih => exact ih (hf m x h)

theorem clearRange_wf {m : Words} (seed k n : Nat) (h : storeWf 0 m = true) : storeWf 0 (clearRange seed m k n) = true := by
  unfold clearRange
  split
  · exact storeWf_storeDrop _ _ _ h
  · exact storeWf_foldl _ (fun _ _ => storeWf_storeSet _ _ _ _) h

theorem State.clearHalf_forms (s : State) (e) (half) : Forms s (State.clearHalf s e half) where
  combine := id
  engines := fun ⟨htile, h⟩ => ⟨clearRange_wf _ _ _ htile, h⟩

theorem State.squash_forms (s : State) (inst) (halves) :
    Forms s (State.squash s inst halves) := by
  unfold State.squash
  repeat' first
    | with_reducible exact Forms.refl _
    | with_reducible apply Forms.trans (g := State.clearHalf_forms _ _ _)
    | with_reducible apply Forms.trans (g := Forms.foldl (fun _ _ => ?_) _ _)
    | (intro _)
    | with_reducible apply Forms.ite
    | split
    | dsimp only
    | with_reducible apply Forms.update
    | with_reducible exact And.intro rfl (And.intro rfl rfl)
    | with_reducible exact And.intro rfl (And.intro rfl (And.intro rfl (And.intro rfl rfl)))

theorem State.layerRequest_forms (s : State) (op) (core) (rung) (cycle) (remaining) :
    Forms s (State.layerRequest s op core rung cycle remaining) := by
  unfold State.layerRequest
  repeat' first
    | with_reducible exact Forms.refl _
    | with_reducible apply Forms.aside (g := State.request_evolves _ _ _ _)
    | with_reducible apply Forms.aside (g := State.setLayer_evolves _ _ _)
    | with_reducible apply Forms.trans (g := State.squash_forms _ _ _)
    | with_reducible apply Forms.aside (g := State.finalize_evolves _ _)
    | with_reducible apply Forms.ite

theorem State.layerTest_forms (s : State) (x) (cycle) (remaining) :
    Forms s (State.layerTest s x cycle remaining) := by
  unfold State.layerTest
  repeat' first
    | with_reducible exact Forms.refl _
    | with_reducible apply Forms.trans (g := State.contribute_forms _ _ _ _)
    | with_reducible apply Forms.aside (g := State.suppress_evolves _ _)
    | with_reducible apply Forms.aside (g := State.topCross_evolves _)
    | with_reducible apply Forms.aside (g := State.finalize_evolves _ _)
    | with_reducible apply Forms.trans (g := State.layerRequest_forms _ _ _ _ _ _)
    | with_reducible apply Forms.ite
    | split
    | dsimp only
    | with_reducible apply Forms.update
    | with_reducible exact And.intro rfl (And.intro rfl rfl)
    | with_reducible exact And.intro rfl (And.intro rfl (And.intro rfl (And.intro rfl rfl)))

theorem State.convJob_forms (s : State) (j) :
    Forms s (State.convJob s j).1 := by
  unfold State.convJob
  repeat' first
    | with_reducible exact Forms.refl _
    | with_reducible apply Forms.aside (g := State.setGen_evolves _ _ _)
    | with_reducible apply Forms.aside (g := State.request_evolves _ _ _ _)
    | with_reducible apply Forms.aside (g := State.topCross_evolves _)
    | with_reducible apply Forms.aside (g := State.countConv_evolves _ _ _)
    | with_reducible apply Forms.trans (g := State.releaseSeg_forms _ _ _ _)
    | with_reducible apply Forms.trans (g := State.layerTest_forms _ _ _ _)
    | with_reducible apply Forms.aside (g := State.freed_evolves _ _ _)
    | with_reducible apply Forms.ite
    | split
    | dsimp only

theorem State.runJobs_forms (s : State) (n : Nat) (js : List ConvJob) : Forms s (s.runJobs n js) := by
  induction n generalizing s js with
  | zero => exact Forms.refl s
  | succ n ih =>
    unfold State.runJobs
    split
    · exact Forms.refl s
    · exact (s.convJob_forms _).trans (ih ..)

theorem State.layerResult_forms (s : State) (plot) (asked) (cycle) (remaining) :
    Forms s (State.layerResult s plot asked cycle remaining) := by
  unfold State.layerResult
  repeat' first
    | with_reducible exact Forms.refl _
    | with_reducible apply Forms.aside (g := State.finalize_evolves _ _)
    | with_reducible apply Forms.trans (g := State.layerRequest_forms _ _ _ _ _ _)
    | with_reducible apply Forms.aside (g := State.freed_evolves _ _ _)
    | with_reducible apply Forms.trans (g := State.runJobs_forms _ _ _)
    | with_reducible apply Forms.ite
    | split
    | dsimp only
    | with_reducible apply Forms.update
    | with_reducible exact And.intro rfl (And.intro rfl rfl)
    | with_reducible exact And.intro rfl (And.intro rfl (And.intro rfl (And.intro rfl rfl)))

theorem State.setMask_forms (s : State) (core) (k) (m) : Forms s (State.setMask s core k m) := by
  unfold State.setMask
  refine Forms.ite _ (Forms.refl s) ⟨id, fun ⟨h1, h2, h3, h4, h5, hregs, hmasks, h⟩ => ?_⟩
  exact ⟨h1, h2, h3, h4, h5, hregs, storeWf_storeSet _ _ _ _ hmasks, h⟩

theorem State.setLanes_forms (s : State) (core) (n) (ls) : Forms s (State.setLanes s core n ls) where
  combine := id
  engines := fun ⟨h1, h2, h3, h4, h5, hregs, h⟩ =>
    ⟨h1, h2, h3, h4, h5, storeWf_foldl _ (fun _ _ => storeWf_storeSet _ _ _ _) hregs, h⟩

theorem State.setElem_forms (s : State) (f) (core) (n) (i) (raw) :
    Forms s (State.setElem s f core n i raw) := by
  unfold State.setElem
  repeat' first
    | with_reducible exact Forms.refl _
    | with_reducible apply Forms.trans (g := State.setLanes_forms _ _ _ _)

theorem State.writeReg_forms (s : State) (f) (core) (n) (i) (x1) :
    Forms s (State.writeReg s f core n i x1) := by
  fun_induction State.writeReg s f core n i x1
  all_goals repeat' first
    | with_reducible exact Forms.refl _
    | with_reducible assumption
    | with_reducible apply Forms.trans (g := State.setElem_forms _ _ _ _ _ _)
    | with_reducible apply Forms.trans (g := by assumption)

theorem State.writeBuf_forms (s : State) (f : VFmt) (core b vec i : Nat) (xs : List (Option Nat)) :
    Forms s (s.writeBuf f core b vec i xs) := by
  induction xs generalizing s i with
  | nil => exact Forms.refl s
  | cons x xs ih =>
    cases x with
    | none => exact ih s (i + 1)
    | some x =>
      let bufs := (putElem f (fun l => storeGet 0 s.ve.bufs (bufKey core b vec l)) i x).foldl
        (fun m l => storeSet 0 m (bufKey core b vec l.1) l.2) s.ve.bufs
      have hwrite : Forms s { s with ve := { s.ve with bufs := bufs } } :=
        ⟨id, fun ⟨h1, h2, h3, h4, h5, hregs, hmasks, hbufs, h⟩ =>
          ⟨h1, h2, h3, h4, h5, hregs, hmasks, storeWf_foldl _ (fun _ _ => storeWf_storeSet _ _ _ _) hbufs, h⟩⟩
      exact hwrite.trans (ih _ (i + 1))

theorem State.writeStream_forms (s : State) (f) (core) (offset) (i) (x1) :
    Forms s (State.writeStream s f core offset i x1) := by
  fun_induction State.writeStream s f core offset i x1
  all_goals repeat' first
    | with_reducible exact Forms.refl _
    | with_reducible assumption
    | with_reducible apply Forms.trans (g := State.devWrite_forms _ _ _ _)
    | with_reducible apply Forms.trans (g := by assumption)

theorem State.writeResult_forms (s : State) (c) (core) (n) (r) (e) (x) (v) :
    Forms s (State.writeResult s c core n r e x v).1 := by
  unfold State.writeResult
  repeat' first
    | with_reducible exact Forms.refl _
    | with_reducible apply Forms.trans (g := State.setLanes_forms _ _ _ _)
    | with_reducible apply Forms.trans (g := State.setElem_forms _ _ _ _ _ _)
    | with_reducible apply Forms.ite
    | split

theorem State.writeResults_forms (s : State) (c : VChain) (core n : Nat) (r : Reduction) (e : Nat) (v : VRun)
    (l : List (Option Cand)) : Forms s (s.writeResults c core n r e v l).1 := by
  induction l generalizing s e v with
  | nil => exact Forms.refl s
  | cons x l ih => exact (s.writeResult_forms c core n r e x v).trans (ih ..)

theorem State.stageStore_forms (s : State) (core) (p) (cols) :
    Forms s (State.stageStore s core p cols) := by
  unfold State.stageStore
  repeat' first
    | with_reducible exact Forms.refl _
    | with_reducible apply Forms.aside (g := State.nfTile_evolves _ _ _ _ _ _ _)
    | with_reducible apply Forms.trans (g := State.stageTile_forms _ _ _ _ _)
    | with_reducible apply Forms.aside (g := State.veFlag_evolves _ _ _)
    | with_reducible apply Forms.ite
    | split
    | dsimp only

theorem State.stageStores_forms (s : State) (core) (p) (cols) (x1) :
    Forms s (State.stageStores s core p cols x1) := by
  fun_induction State.stageStores s core p cols x1
  all_goals repeat' first
    | with_reducible exact Forms.refl _
    | with_reducible assumption
    | with_reducible apply Forms.trans (g := State.stageStore_forms _ _ _ _)

theorem State.collisions_forms (s : State) (core) (x1) :
    Forms s (State.collisions s core x1) := by
  fun_induction State.collisions s core x1
  all_goals repeat' first
    | with_reducible exact Forms.refl _
    | with_reducible assumption
    | with_reducible apply Forms.aside (g := State.event_evolves _ _ _)
    | with_reducible apply Forms.trans (g := State.devWrite_forms _ _ _ _)
    | with_reducible apply Forms.trans (g := by assumption)

theorem chainAt_forms (core) (c) (base) (x : ChainRun) (j) : Forms x.s (chainAt core c base x j).s := by
  unfold chainAt
  dsimp only
  split
  · split
    · exact Forms.refl _
    · exact State.writeResults_forms ..
  · split
    · exact State.setMask_forms ..
    · exact State.writeReg_forms ..
    · exact State.writeBuf_forms ..
    · exact State.writeStream_forms ..
    · exact Forms.refl _
    · exact Forms.refl _

theorem chainAt_foldl_forms (core) (c) (base) (x : ChainRun) (l : List Nat) :
    Forms x.s (l.foldl (chainAt core c base) x).s := by
  induction l generalizing x with
  | nil => exact Forms.refl _
  | cons j l ih => exact (chainAt_forms core c base x j).trans (ih _)

theorem finishAlong_forms (core) (c) (r) (base) (x : ChainRun) : Forms x.s (finishAlong core c r base x).s :=
  Forms.update ((State.writeResults_forms ..).trans (State.setMask_forms ..)) ⟨rfl, rfl, rfl⟩
    ⟨rfl, rfl, rfl, rfl, rfl⟩ ⟨rfl, rfl, rfl⟩ rfl rfl

theorem chainBody_forms (s : State) (core) (c) : Forms s (chainBody s core c).s := by
  have hbody (b) (l) := chainAt_foldl_forms core c b (chainStart s core c) l
  unfold chainBody
  dsimp only
  split
  · split
    · exact (hbody _ _).trans (finishAlong_forms ..)
    · exact hbody _ _
  · exact hbody _ _

theorem State.chainOut_forms (s : State) (core) (c) (staged) :
    Forms s (State.chainOut s core c staged) := by
  unfold State.chainOut
  repeat' first
    | with_reducible exact Forms.refl _
    | with_reducible apply Forms.trans (g := State.contribute_forms _ _ _ _)
    | with_reducible apply Forms.trans (g := State.stageStores_forms _ _ _ _ _)
    | with_reducible apply Forms.ite
    | split

theorem State.runChain_forms (s : State) (core) (c) :
    Forms s (State.runChain s core c) := by
  unfold State.runChain
  repeat' first
    | with_reducible exact Forms.refl _
    | with_reducible apply Forms.aside (g := State.setGen_evolves _ _ _)
    | with_reducible apply Forms.trans (g := State.collisions_forms _ _ _)
    | with_reducible apply Forms.aside (g := State.countChain_evolves _ _ _ _)
    | with_reducible apply Forms.trans (g := chainBody_forms _ _ _)
    | with_reducible apply Forms.trans (g := State.chainOut_forms _ _ _ _)

theorem State.runIssue_forms (s : State) (core) (x1) :
    Forms s (State.runIssue s core x1) := by
  unfold State.runIssue
  repeat' first
    | with_reducible exact Forms.refl _
    | with_reducible apply Forms.trans (g := State.devWrite_forms _ _ _ _)
    | with_reducible apply Forms.trans (g := State.combineExperts_forms _ _)
    | with_reducible apply Forms.trans (g := State.setMask_forms _ _ _ _)
    | with_reducible apply Forms.trans (g := State.runChain_forms _ _ _)
    | with_reducible apply Forms.aside (g := State.countMaskOp_evolves _ _)
    | with_reducible apply Forms.ite
    | split

theorem State.setVeWaiting_forms (s : State) (core) (q) :
    Forms s (State.setVeWaiting s core q) := by
  unfold State.setVeWaiting
  repeat' first
    | with_reducible exact Forms.refl _
    | with_reducible apply Forms.ite
    | split
    | dsimp only
    | with_reducible apply Forms.update
    | with_reducible exact And.intro rfl (And.intro rfl rfl)
    | with_reducible exact And.intro rfl (And.intro rfl (And.intro rfl (And.intro rfl rfl)))

theorem State.issueWaiting_forms (s : State) (core) (x1) :
    Forms s (State.issueWaiting s core x1) := by
  fun_induction State.issueWaiting s core x1
  all_goals repeat' first
    | with_reducible exact Forms.refl _
    | with_reducible assumption
    | with_reducible apply Forms.trans (g := State.runIssue_forms _ _ _)
    | with_reducible apply Forms.trans (g := State.setVeWaiting_forms _ _ _)
    | with_reducible apply Forms.trans (g := by assumption)

theorem State.readyUp_forms (s : State) (core) (i) (n) :
    Forms s (State.readyUp s core i n) := by
  unfold State.readyUp
  repeat' first
    | with_reducible exact Forms.refl _
    | with_reducible apply Forms.trans (g := State.issueWaiting_forms _ _ _)
    | with_reducible apply Forms.ite
    | split
    | dsimp only
    | with_reducible apply Forms.update
    | with_reducible exact And.intro rfl (And.intro rfl rfl)
    | with_reducible exact And.intro rfl (And.intro rfl (And.intro rfl (And.intro rfl rfl)))

theorem State.queueWriteBack_forms (s : State) (ch) (line) (bytes) :
    Forms s (State.queueWriteBack s ch line bytes) := by
  unfold State.queueWriteBack
  repeat' first
    | with_reducible exact Forms.refl _
    | with_reducible apply Forms.aside (g := State.count_evolves _ _ _ _)
    | with_reducible apply Forms.aside (g := State.event_evolves _ _ _)
    | with_reducible apply Forms.trans (g := State.setWriteBacks_forms _ _ _)
    | with_reducible apply Forms.ite

theorem State.corrected_forms (s : State) (ch) (o) (symbols) (bytes) :
    Forms s (State.corrected s ch o symbols bytes) := by
  unfold State.corrected
  repeat' first
    | with_reducible exact Forms.refl _
    | with_reducible apply Forms.aside (g := State.count_evolves _ _ _ _)
    | with_reducible apply Forms.aside (g := State.bel64_evolves _ _ _)
    | with_reducible apply Forms.aside (g := State.live_evolves _ _ _)
    | with_reducible apply Forms.aside (g := State.trace_evolves _ _ _ _ _)
    | with_reducible apply Forms.aside (g := State.suspect_evolves _ _ _)
    | with_reducible apply Forms.trans (g := State.queueWriteBack_forms _ _ _ _)
    | with_reducible apply Forms.ite

theorem State.deliver_forms (s : State) (ch) (o) (addr) (who) (bytes) (ue) :
    Forms s (State.deliver s ch o addr who bytes ue) := by
  unfold State.deliver
  repeat' first
    | with_reducible exact Forms.refl _
    | with_reducible apply Forms.aside (g := State.putBytes_evolves _ _ _)
    | with_reducible apply Forms.trans (g := State.dropBad_forms _ _ _)
    | with_reducible apply Forms.trans (g := State.flushOver_forms _ _ _ _)
    | with_reducible apply Forms.aside (g := State.setFlights_evolves _ _ _)
    | with_reducible apply Forms.ite
    | split
    | dsimp only
    | with_reducible apply Forms.update
    | with_reducible exact And.intro rfl (And.intro rfl rfl)
    | with_reducible exact And.intro rfl (And.intro rfl (And.intro rfl (And.intro rfl rfl)))

theorem State.uncorrectable_forms (s : State) (ch) (o) (addr) (via) (bytes) :
    Forms s (State.uncorrectable s ch o addr via bytes) := by
  unfold State.uncorrectable
  repeat' first
    | with_reducible exact Forms.refl _
    | with_reducible apply Forms.aside (g := State.ueConsequence_evolves _ _ _ _ _ _)
    | with_reducible apply Forms.trans (g := State.deliver_forms _ _ _ _ _ _ _)
    | with_reducible apply Forms.aside (g := State.suspect_evolves _ _ _)
    | with_reducible apply Forms.aside (g := State.trace_evolves _ _ _ _ _)
    | with_reducible apply Forms.aside (g := State.ledgerEvent_evolves _ _ _ _ _ _)
    | with_reducible apply Forms.aside (g := State.event_evolves _ _ _)
    | with_reducible apply Forms.aside (g := State.recordUe_evolves _ _ _ _)
    | with_reducible apply Forms.aside (g := State.live_evolves _ _ _)
    | with_reducible apply Forms.aside (g := State.bel64_evolves _ _ _)
    | with_reducible apply Forms.aside (g := State.count_evolves _ _ _ _)

theorem State.correctedFor_forms (s : State) (ch) (o) (addr) (who) (found) :
    Forms s (State.correctedFor s ch o addr who found) := by
  unfold State.correctedFor
  repeat' first
    | with_reducible exact Forms.refl _
    | with_reducible apply Forms.trans (g := State.corrected_forms _ _ _ _ _)
    | with_reducible apply Forms.trans (g := State.deliver_forms _ _ _ _ _ _ _)
    | with_reducible apply Forms.ite

theorem State.flushLines_forms (s : State) (ch) (line) (x1) :
    Forms s (State.flushLines s ch line x1) := by
  fun_induction State.flushLines s ch line x1
  all_goals repeat' first
    | with_reducible exact Forms.refl _
    | with_reducible assumption
    | with_reducible apply Forms.trans (g := State.flushEntry_forms _ _ _)
    | with_reducible apply Forms.trans (g := by assumption)

theorem State.copyMap_forms (s : State) :
    Forms s (State.copyMap s) := by
  unfold State.copyMap
  repeat' first
    | with_reducible exact Forms.refl _
    | with_reducible apply Forms.aside (g := State.event_evolves _ _ _)
    | with_reducible apply Forms.ite
    | split
    | dsimp only
    | with_reducible apply Forms.update
    | with_reducible exact And.intro rfl (And.intro rfl rfl)
    | with_reducible exact And.intro rfl (And.intro rfl (And.intro rfl (And.intro rfl rfl)))

theorem State.applyMap_forms (s : State) :
    Forms s (State.applyMap s) := by
  unfold State.applyMap
  repeat' first
    | with_reducible exact Forms.refl _
    | with_reducible apply Forms.trans (g := State.copyMap_forms _)
    | with_reducible apply Forms.ite
    | split

theorem State.mapBits_forms (s : State) (k) (old) (new) (x1) :
    Forms s (State.mapBits s k old new x1) := by
  fun_induction State.mapBits s k old new x1
  all_goals repeat' first
    | with_reducible exact Forms.refl _
    | with_reducible assumption
    | with_reducible apply Forms.aside (g := State.ledgerEvent_evolves _ _ _ _ _ _)
    | with_reducible apply Forms.trans (g := by assumption)
    | with_reducible apply Forms.ite
    | split
    | dsimp only
    | with_reducible apply Forms.update
    | with_reducible exact And.intro rfl (And.intro rfl rfl)
    | with_reducible exact And.intro rfl (And.intro rfl (And.intro rfl (And.intro rfl rfl)))

theorem State.mapWrite_forms (s : State) (k) (value) :
    Forms s (State.mapWrite s k value) := by
  unfold State.mapWrite
  repeat' first
    | with_reducible exact Forms.refl _
    | with_reducible apply Forms.aside (g := State.seedAccept_evolves _ _ _)
    | with_reducible apply Forms.trans (g := State.applyMap_forms _)
    | with_reducible apply Forms.aside (g := State.noteMap_evolves _)
    | with_reducible apply Forms.trans (g := State.mapBits_forms _ _ _ _ _)
    | with_reducible apply Forms.ite

theorem State.zeroChannel_forms (s : State) (ch) : Forms s (State.zeroChannel s ch) := by
  unfold State.zeroChannel
  refine Forms.trans ?_ (State.dropBad_forms ..)
  refine Forms.trans ?_ (State.setWriteBacks_forms ..)
  have hempty : combines [] := ⟨List.nodup_nil, fun _ h => absurd h List.not_mem_nil⟩
  have hmem (m : Bytes) : Forms s { s with mem := m } := ⟨id, id⟩
  exact (hmem _).setWcb ch fun _ => hempty

theorem State.showTemp_forms (s : State) (k) (theta) :
    Forms s (State.showTemp s k theta) := by
  unfold State.showTemp
  repeat' first
    | with_reducible exact Forms.refl _
    | with_reducible apply Forms.aside (g := State.setFld_evolves _ _ _ _ _)
    | with_reducible apply Forms.aside (g := State.liveMax_evolves _ _ _)
    | with_reducible apply Forms.ite
    | split
    | dsimp only
    | with_reducible apply Forms.update
    | with_reducible exact And.intro rfl (And.intro rfl rfl)
    | with_reducible exact And.intro rfl (And.intro rfl (And.intro rfl (And.intro rfl rfl)))

theorem State.throttleCond_forms (s : State) (k) (theta) (req) (h) :
    Forms s (State.throttleCond s k theta req h) := by
  unfold State.throttleCond
  repeat' first
    | with_reducible exact Forms.refl _
    | with_reducible apply Forms.aside (g := State.event_evolves _ _ _)
    | with_reducible apply Forms.aside (g := State.trace_evolves _ _ _ _ _)
    | with_reducible apply Forms.aside (g := State.ledgerEvent_evolves _ _ _ _ _ _)
    | with_reducible apply Forms.ite
    | split
    | dsimp only
    | with_reducible apply Forms.update
    | with_reducible exact And.intro rfl (And.intro rfl rfl)
    | with_reducible exact And.intro rfl (And.intro rfl (And.intro rfl (And.intro rfl rfl)))

theorem State.readTemp_forms (s : State) (k) (theta) :
    Forms s (State.readTemp s k theta) := by
  unfold State.readTemp
  repeat' first
    | with_reducible exact Forms.refl _
    | with_reducible apply Forms.aside (g := State.showShare_evolves _ _ _)
    | with_reducible apply Forms.trans (g := State.showTemp_forms _ _ _)
    | with_reducible apply Forms.trans (g := State.throttleCond_forms _ _ _ _ _)
    | with_reducible apply Forms.ite
    | split
    | dsimp only
    | with_reducible apply Forms.update
    | with_reducible exact And.intro rfl (And.intro rfl rfl)
    | with_reducible exact And.intro rfl (And.intro rfl (And.intro rfl (And.intro rfl rfl)))

theorem State.readTemps_forms (s : State) (k) (x1) :
    Forms s (State.readTemps s k x1) := by
  fun_induction State.readTemps s k x1
  all_goals repeat' first
    | with_reducible exact Forms.refl _
    | with_reducible assumption
    | with_reducible apply Forms.trans (g := State.readTemp_forms _ _ _)
    | with_reducible apply Forms.trans (g := by assumption)

theorem State.newMemTest_forms (s : State) (ctrl) :
    Forms s (State.newMemTest s ctrl) := by
  unfold State.newMemTest
  repeat' first
    | with_reducible exact Forms.refl _
    | with_reducible apply Forms.aside (g := State.setFld_evolves _ _ _ _ _)
    | with_reducible apply Forms.ite
    | split
    | dsimp only
    | with_reducible apply Forms.update
    | with_reducible exact And.intro rfl (And.intro rfl rfl)
    | with_reducible exact And.intro rfl (And.intro rfl (And.intro rfl (And.intro rfl rfl)))

theorem State.memTestStart_forms (s : State) (ctrl) :
    Forms s (State.memTestStart s ctrl) := by
  unfold State.memTestStart
  repeat' first
    | with_reducible exact Forms.refl _
    | with_reducible apply Forms.aside (g := State.memRequest_evolves _ _ _)
    | with_reducible apply Forms.aside (g := State.takeCtrl_evolves _ _ _)
    | with_reducible apply Forms.aside (g := State.refuseMarch_evolves _)
    | with_reducible apply Forms.trans (g := State.newMemTest_forms _ _)
    | with_reducible apply Forms.ite

theorem State.zeroChannels_forms (s : State) (x1) :
    Forms s (State.zeroChannels s x1) := by
  fun_induction State.zeroChannels s x1
  all_goals repeat' first
    | with_reducible exact Forms.refl _
    | with_reducible assumption
    | with_reducible apply Forms.trans (g := State.zeroChannel_forms _ _)
    | with_reducible apply Forms.trans (g := by assumption)

theorem State.landBlock_forms (s : State) (plot) (k) (b) :
    Forms s (State.landBlock s plot k b) := by
  unfold State.landBlock
  repeat' first
    | with_reducible exact Forms.refl _
    | with_reducible apply Forms.trans (g := State.devWrite_forms _ _ _ _)
    | with_reducible apply Forms.aside (g := State.setPlot_evolves _ _ _)

theorem State.digestRecord_forms (s : State) (plot) (port) (dir) (peer) (d) :
    Forms s (State.digestRecord s plot port dir peer d) := by
  unfold State.digestRecord
  repeat' first
    | with_reducible exact Forms.refl _
    | with_reducible apply Forms.aside (g := State.setRegN_evolves _ _ _)
    | with_reducible apply Forms.aside (g := State.event_evolves _ _ _)
    | with_reducible apply Forms.trans (g := State.devWrite_forms _ _ _ _)
    | with_reducible apply Forms.ite
    | split

theorem State.absorb_forms (s : State) (plot) (port) (dir) (peer) (bs) (last) :
    Forms s (State.absorb s plot port dir peer bs last) := by
  unfold State.absorb
  repeat' first
    | with_reducible exact Forms.refl _
    | with_reducible apply Forms.trans (g := State.digestRecord_forms _ _ _ _ _ _)
    | with_reducible apply Forms.ite
    | split
    | dsimp only
    | with_reducible apply Forms.update
    | with_reducible exact And.intro rfl (And.intro rfl rfl)
    | with_reducible exact And.intro rfl (And.intro rfl (And.intro rfl (And.intro rfl rfl)))

theorem State.flushBlocks_forms (s : State) (plot) (port) (peer) (total) (x1) :
    Forms s (State.flushBlocks s plot port peer total x1) := by
  fun_induction State.flushBlocks s plot port peer total x1
  all_goals repeat' first
    | with_reducible exact Forms.refl _
    | with_reducible assumption
    | with_reducible apply Forms.aside (g := State.count_evolves _ _ _ _)
    | with_reducible apply Forms.aside (g := State.bel64_evolves _ _ _)
    | with_reducible apply Forms.trans (g := State.absorb_forms _ _ _ _ _ _ _)
    | with_reducible apply Forms.aside (g := State.setTx_evolves _ _ _ _)
    | with_reducible apply Forms.trans (g := by assumption)

theorem State.sendBlock_forms (s : State) (g) (x) (k) (b) :
    Forms s (State.sendBlock s g x k b) := by
  unfold State.sendBlock
  repeat' first
    | with_reducible exact Forms.refl _
    | with_reducible apply Forms.aside (g := State.setTx_evolves _ _ _ _)
    | with_reducible apply Forms.trans (g := State.flushBlocks_forms _ _ _ _ _ _)

theorem State.sendVec_forms (s : State) (rank) (plot) (v) :
    Forms s (State.sendVec s rank plot v) := by
  unfold State.sendVec
  repeat' first
    | with_reducible exact Forms.refl _
    | with_reducible apply Forms.aside (g := State.setEnd_evolves _ _ _ _ _)
    | with_reducible apply Forms.trans (g := State.absorb_forms _ _ _ _ _ _ _)
    | with_reducible apply Forms.aside (g := State.setTx_evolves _ _ _ _)
    | with_reducible apply Forms.ite
    | split

theorem State.sendDown_forms (s : State) (plot) (v) (x1) :
    Forms s (State.sendDown s plot v x1) := by
  fun_induction State.sendDown s plot v x1
  all_goals repeat' first
    | with_reducible exact Forms.refl _
    | with_reducible assumption
    | with_reducible apply Forms.trans (g := State.sendVec_forms _ _ _ _)
    | with_reducible apply Forms.trans (g := by assumption)

theorem State.setVecs_forms (s : State) (plot) (port) (vs) :
    Forms s (State.setVecs s plot port vs) := by
  unfold State.setVecs
  repeat' first
    | with_reducible exact Forms.refl _
    | with_reducible apply Forms.ite
    | split
    | dsimp only
    | with_reducible apply Forms.update
    | with_reducible exact And.intro rfl (And.intro rfl rfl)
    | with_reducible exact And.intro rfl (And.intro rfl (And.intro rfl (And.intro rfl rfl)))

theorem State.takeVec_forms (s : State) (plot) (port) (bs) (early) :
    Forms s (State.takeVec s plot port bs early) := by
  unfold State.takeVec
  repeat' first
    | with_reducible exact Forms.refl _
    | with_reducible apply Forms.aside (g := State.count_evolves _ _ _ _)
    | with_reducible apply Forms.aside (g := State.setEnd_evolves _ _ _ _ _)
    | with_reducible apply Forms.aside (g := State.cloFatal_evolves _ _ _ _)
    | with_reducible apply Forms.trans (g := State.absorb_forms _ _ _ _ _ _ _)
    | with_reducible apply Forms.trans (g := State.setVecs_forms _ _ _ _)
    | with_reducible apply Forms.ite
    | split
    | dsimp only
    | with_reducible apply Forms.update
    | with_reducible exact And.intro rfl (And.intro rfl rfl)
    | with_reducible exact And.intro rfl (And.intro rfl (And.intro rfl (And.intro rfl rfl)))

theorem State.writeRecord_forms (s : State) (gnorm) :
    Forms s (State.writeRecord s gnorm) := by
  unfold State.writeRecord
  repeat' first
    | with_reducible exact Forms.refl _
    | with_reducible apply Forms.trans (g := State.devWrite_forms _ _ _ _)
    | with_reducible apply Forms.aside (g := State.writing_evolves _)
    | with_reducible apply Forms.ite
    | split

theorem State.putCode_forms (s : State) (f) (elems) (i) (code) :
    Forms s (State.putCode s f elems i code) := by
  unfold State.putCode
  repeat' first
    | with_reducible exact Forms.refl _
    | with_reducible apply Forms.trans (g := State.devWrite_forms _ _ _ _)

theorem State.putCodes_forms (s : State) (v) (b) (p) (x1) :
    Forms s (State.putCodes s v b p x1) := by
  fun_induction State.putCodes s v b p x1
  all_goals repeat' first
    | with_reducible exact Forms.refl _
    | with_reducible assumption
    | with_reducible apply Forms.trans (g := State.putCode_forms _ _ _ _ _)
    | with_reducible apply Forms.trans (g := by assumption)

theorem State.writeBlock_forms (s : State) (seg) (r) (b) (vals) :
    Forms s (State.writeBlock s seg r b vals) := by
  unfold State.writeBlock
  repeat' first
    | with_reducible exact Forms.refl _
    | with_reducible apply Forms.aside (g := State.orReg_evolves _ _ _)
    | with_reducible apply Forms.trans (g := State.devWrite_forms _ _ _ _)
    | with_reducible apply Forms.aside (g := State.tally_evolves _ _)
    | with_reducible apply Forms.trans (g := State.putCodes_forms _ _ _ _ _)
    | with_reducible apply Forms.ite
    | split
    | dsimp only
    | with_reducible apply Forms.update
    | with_reducible exact And.intro rfl (And.intro rfl rfl)
    | with_reducible exact And.intro rfl (And.intro rfl (And.intro rfl (And.intro rfl rfl)))

theorem State.writeHead_forms (s : State) (seg) (r) :
    Forms s (State.writeHead s seg r) := by
  unfold State.writeHead
  repeat' first
    | with_reducible exact Forms.refl _
    | with_reducible apply Forms.aside (g := State.orReg_evolves _ _ _)
    | with_reducible apply Forms.trans (g := State.devWrite_forms _ _ _ _)
    | with_reducible apply Forms.aside (g := State.setRung_evolves _ _ _ _)
    | with_reducible apply Forms.ite

theorem State.writeBlocks_forms (s : State) (seg) (r) (first) (xs) (x1) :
    Forms s (State.writeBlocks s seg r first xs x1) := by
  fun_induction State.writeBlocks s seg r first xs x1
  all_goals repeat' first
    | with_reducible exact Forms.refl _
    | with_reducible assumption
    | with_reducible apply Forms.trans (g := State.writeBlock_forms _ _ _ _ _)
    | with_reducible apply Forms.trans (g := by assumption)

theorem State.writeScaled_forms (s : State) (seg) (r) (first) (xs) :
    Forms s (State.writeScaled s seg r first xs) := by
  unfold State.writeScaled
  repeat' first
    | with_reducible exact Forms.refl _
    | with_reducible apply Forms.aside (g := State.setRegN_evolves _ _ _)
    | with_reducible apply Forms.aside (g := State.count_evolves _ _ _ _)
    | with_reducible apply Forms.trans (g := State.writeHead_forms _ _ _)
    | with_reducible apply Forms.trans (g := State.writeBlocks_forms _ _ _ _ _ _)
    | with_reducible apply Forms.ite

theorem State.writeAt_forms (s : State) (x1) :
    Forms s (State.writeAt s x1) := by
  fun_induction State.writeAt s x1
  all_goals repeat' first
    | with_reducible exact Forms.refl _
    | with_reducible assumption
    | with_reducible apply Forms.trans (g := State.devWrite_forms _ _ _ _)
    | with_reducible apply Forms.trans (g := by assumption)

theorem State.writeMatrix_forms (s : State) (t) (n) (m) (bytes) :
    Forms s (State.writeMatrix s t n m bytes) := by
  unfold State.writeMatrix
  repeat' first
    | with_reducible exact Forms.refl _
    | with_reducible apply Forms.trans (g := State.writeAt_forms _ _)

theorem State.writeStates_forms (s : State) (seg) (first) (x1) (x2) :
    Forms s (State.writeStates s seg first x1 x2) := by
  fun_induction State.writeStates s seg first x1 x2
  all_goals repeat' first
    | with_reducible exact Forms.refl _
    | with_reducible assumption
    | with_reducible apply Forms.trans (g := State.writeScaled_forms _ _ _ _ _)
    | with_reducible apply Forms.trans (g := by assumption)

theorem State.updElementwise_forms (s : State) (unit) (tensor) (e) (u) (b) :
    Forms s (State.updElementwise s unit tensor e u b) := by
  unfold State.updElementwise
  repeat' first
    | with_reducible exact Forms.refl _
    | with_reducible apply Forms.aside (g := State.count_evolves _ _ _ _)
    | with_reducible apply Forms.aside (g := State.bel64_evolves _ _ _)
    | with_reducible apply Forms.trans (g := State.devWrite_forms _ _ _ _)
    | with_reducible apply Forms.aside (g := State.tally_evolves _ _)
    | with_reducible apply Forms.aside (g := State.writing_evolves _)
    | with_reducible apply Forms.aside (g := State.updNonFinite_evolves _ _ _)
    | with_reducible apply Forms.trans (g := State.writeScaled_forms _ _ _ _ _)
    | with_reducible apply Forms.trans (g := State.writeStates_forms _ _ _ _ _)
    | with_reducible apply Forms.ite
    | split
    | dsimp only
    | with_reducible apply Forms.update
    | with_reducible exact And.intro rfl (And.intro rfl rfl)
    | with_reducible exact And.intro rfl (And.intro rfl (And.intro rfl (And.intro rfl rfl)))

theorem State.updRefresh_forms (s : State) (unit) (tensor) (u) (g) (b) (plot) (wire) :
    Forms s (State.updRefresh s unit tensor u g b plot wire) := by
  unfold State.updRefresh
  repeat' first
    | with_reducible exact Forms.refl _
    | with_reducible apply Forms.aside (g := State.setRegN_evolves _ _ _)
    | with_reducible apply Forms.aside (g := State.count_evolves _ _ _ _)
    | with_reducible apply Forms.aside (g := State.bel64_evolves _ _ _)
    | with_reducible apply Forms.aside (g := State.updNonFinite_evolves _ _ _)
    | with_reducible apply Forms.trans (g := State.writeMatrix_forms _ _ _ _ _)
    | with_reducible apply Forms.ite
    | split
    | dsimp only
    | with_reducible apply Forms.update
    | with_reducible exact And.intro rfl (And.intro rfl rfl)
    | with_reducible exact And.intro rfl (And.intro rfl (And.intro rfl (And.intro rfl rfl)))

theorem State.workNow_forms (s : State) (u) (unit) (tensor) (w) :
    Forms s (State.workNow s u unit tensor w) := by
  unfold State.workNow
  repeat' first
    | with_reducible exact Forms.refl _
    | with_reducible apply Forms.trans (g := State.updElementwise_forms _ _ _ _ _ _)
    | with_reducible apply Forms.trans (g := State.updRefresh_forms _ _ _ _ _ _ _ _)
    | with_reducible apply Forms.ite
    | split

theorem State.hbmWrite_forms (s : State) (data) (x1) :
    Forms s (State.hbmWrite s data x1) := by
  unfold State.hbmWrite
  repeat' first
    | with_reducible exact Forms.refl _
    | with_reducible apply Forms.trans (g := State.devWrite_forms _ _ _ _)
    | with_reducible apply Forms.aside (g := State.writing_evolves _)
    | with_reducible apply Forms.aside (g := State.frozenDrop_evolves _ _ _)
    | with_reducible apply Forms.ite
    | split

theorem State.workOrWait_forms (s : State) (u) (unit) (tensor) (w) :
    Forms s (State.workOrWait s u unit tensor w) := by
  unfold State.workOrWait
  repeat' first
    | with_reducible exact Forms.refl _
    | with_reducible apply Forms.aside (g := State.frozenDrop_evolves _ _ _)
    | with_reducible apply Forms.trans (g := State.workNow_forms _ _ _ _ _)
    | with_reducible apply Forms.ite
    | split
    | dsimp only
    | with_reducible apply Forms.update
    | with_reducible exact And.intro rfl (And.intro rfl rfl)
    | with_reducible exact And.intro rfl (And.intro rfl (And.intro rfl (And.intro rfl rfl)))

theorem State.workAll_forms (s : State) (u) (x1) :
    Forms s (State.workAll s u x1) := by
  fun_induction State.workAll s u x1
  all_goals repeat' first
    | with_reducible exact Forms.refl _
    | with_reducible assumption
    | with_reducible apply Forms.trans (g := State.workOrWait_forms _ _ _ _ _)
    | with_reducible apply Forms.trans (g := by assumption)

theorem State.workWaiting_forms (s : State) :
    Forms s (State.workWaiting s) := by
  unfold State.workWaiting
  repeat' first
    | with_reducible exact Forms.refl _
    | with_reducible apply Forms.trans (g := State.workAll_forms _ _ _)
    | with_reducible apply Forms.ite
    | split
    | dsimp only
    | with_reducible apply Forms.update
    | with_reducible exact And.intro rfl (And.intro rfl rfl)
    | with_reducible exact And.intro rfl (And.intro rfl (And.intro rfl (And.intro rfl rfl)))

theorem State.clearSource_forms (s : State) (src : DrainSource) : Forms s (s.clearSource src) := by
  cases src with
  | held e half => exact s.clearHalf_forms e half
  | gathered e => exact ⟨id, fun ⟨h1, h2, h3, h⟩ => ⟨h1, h2, clearRange_wf 0 (accKey e 0 0) 8192 h3, h⟩⟩
  | matrixVector c t =>
    exact ⟨id, fun ⟨h1, h2, h3, h4, h⟩ => ⟨h1, h2, h3, clearRange_wf 0 (thinKey c t 0) 8192 h4, h⟩⟩

theorem State.spadTile_forms (s : State) (core) (offset) (ws) :
    Forms s (State.spadTile s core offset ws) := by
  unfold State.spadTile
  repeat' first
    | with_reducible exact Forms.refl _
    | with_reducible apply Forms.trans (g := State.devWrite_forms _ _ _ _)
    | with_reducible apply Forms.trans (g := Forms.foldl (fun _ _ => ?_) _ _)

theorem State.encodeTile_forms (s : State) (plot) (cluster) (zero) (k) (x1) :
    Forms s (State.encodeTile s plot cluster zero k x1) := by
  fun_induction State.encodeTile s plot cluster zero k x1
  all_goals repeat' first
    | with_reducible exact Forms.refl _
    | with_reducible assumption
    | with_reducible apply Forms.aside (g := State.bel64_evolves _ _ _)
    | with_reducible apply Forms.trans (g := State.landBlock_forms _ _ _ _)
    | with_reducible apply Forms.aside (g := State.cloSat_evolves _)
    | with_reducible apply Forms.trans (g := by assumption)
    | with_reducible apply Forms.ite

theorem State.deliverTile_forms (s : State) (op) (ws) (nf) :
    Forms s (State.deliverTile s op ws nf) := by
  unfold State.deliverTile
  repeat' first
    | with_reducible exact Forms.refl _
    | with_reducible apply Forms.aside (g := State.spoil_evolves _ _)
    | with_reducible apply Forms.aside (g := State.portShare_evolves _ _ _ _)
    | with_reducible apply Forms.trans (g := State.stageTile_forms _ _ _ _ _)
    | with_reducible apply Forms.trans (g := State.readyUp_forms _ _ _ _)
    | with_reducible apply Forms.trans (g := State.workWaiting_forms _)
    | with_reducible apply Forms.trans (g := State.spadTile_forms _ _ _ _)
    | with_reducible apply Forms.trans (g := State.encodeTile_forms _ _ _ _ _ _)
    | with_reducible apply Forms.ite
    | split

theorem State.takeOne_forms (s : State) (plot) (port) :
    Forms s (State.takeOne s plot port) := by
  unfold State.takeOne
  repeat' first
    | with_reducible exact Forms.refl _
    | with_reducible apply Forms.ite
    | split
    | dsimp only
    | with_reducible apply Forms.update
    | with_reducible exact And.intro rfl (And.intro rfl rfl)
    | with_reducible exact And.intro rfl (And.intro rfl (And.intro rfl (And.intro rfl rfl)))

theorem State.setRingPlace_forms (s : State) (plot) (seq) (k) : Forms s (State.setRingPlace s plot seq k) where
  combine := id
  engines := fun ⟨h1, h2, h3, h4, h5, h6, h7, h8, hops, h⟩ =>
    ⟨h1, h2, h3, h4, h5, h6, h7, h8, storeWf_storeSet _ _ _ _ hops, h⟩

theorem State.takeFinal_forms (s : State) (g) (seq) (port) (b) :
    Forms s (State.takeFinal s g seq port b) := by
  unfold State.takeFinal
  repeat' first
    | with_reducible exact Forms.refl _
    | with_reducible apply Forms.trans (g := State.landBlock_forms _ _ _ _)
    | with_reducible apply Forms.aside (g := State.cloFatal_evolves _ _ _ _)
    | with_reducible apply Forms.trans (g := State.workWaiting_forms _)
    | with_reducible apply Forms.ite
    | split

theorem State.passFinal_forms (s : State) (g) (x) (seq) (b) :
    Forms s (State.passFinal s g x seq b) := by
  unfold State.passFinal
  repeat' first
    | with_reducible exact Forms.refl _
    | with_reducible apply Forms.trans (g := State.sendBlock_forms _ _ _ _ _)
    | with_reducible apply Forms.ite

theorem State.arrive_forms (s : State) (g) (x) (port) (k) (b) :
    Forms s (State.arrive s g x port k b) := by
  unfold State.arrive
  repeat' first
    | with_reducible exact Forms.refl _
    | with_reducible apply Forms.aside (g := State.cloFatal_evolves _ _ _ _)
    | with_reducible apply Forms.trans (g := State.absorb_forms _ _ _ _ _ _ _)
    | with_reducible apply Forms.trans (g := State.setRingPlace_forms _ _ _ _)
    | with_reducible apply Forms.trans (g := State.takeFinal_forms _ _ _ _ _)
    | with_reducible apply Forms.trans (g := State.passFinal_forms _ _ _ _ _)
    | with_reducible apply Forms.ite
    | split

theorem State.placeSum_forms (s : State) (op) (g) (x) (b) :
    Forms s (State.placeSum s op g x b) := by
  unfold State.placeSum
  repeat' first
    | with_reducible exact Forms.refl _
    | with_reducible apply Forms.trans (g := State.landBlock_forms _ _ _ _)
    | with_reducible apply Forms.trans (g := State.sendBlock_forms _ _ _ _ _)
    | with_reducible apply Forms.trans (g := State.takeFinal_forms _ _ _ _ _)
    | with_reducible apply Forms.trans (g := State.passFinal_forms _ _ _ _ _)
    | with_reducible apply Forms.ite
    | split

theorem State.addDone_forms (s : State) (op) (g) (x) (t) (repeated) :
    Forms s (State.addDone s op g x t repeated) := by
  unfold State.addDone
  repeat' first
    | with_reducible exact Forms.refl _
    | with_reducible apply Forms.aside (g := State.count_evolves _ _ _ _)
    | with_reducible apply Forms.aside (g := State.event_evolves _ _ _)
    | with_reducible apply Forms.aside (g := State.bel64_evolves _ _ _)
    | with_reducible apply Forms.aside (g := State.cloSat_evolves _)
    | with_reducible apply Forms.trans (g := State.placeSum_forms _ _ _ _ _)
    | with_reducible apply Forms.ite

theorem State.liftOperands_forms (s : State) (op) :
    Forms s (State.liftOperands s op) := by
  unfold State.liftOperands
  repeat' first
    | with_reducible exact Forms.refl _
    | with_reducible apply Forms.aside (g := State.liftBlock_evolves _ _ _)
    | with_reducible apply Forms.trans (g := State.setRingPlace_forms _ _ _ _)
    | with_reducible apply Forms.trans (g := Forms.foldl (fun _ _ => ?_) _ _)
    | (intro _)
    | with_reducible apply Forms.ite

theorem State.addBlocks_forms (s : State) (op) (g) (x) :
    Forms s (State.addBlocks s op g x) := by
  unfold State.addBlocks
  repeat' first
    | with_reducible exact Forms.refl _
    | with_reducible apply Forms.aside (g := State.cloFatal_evolves _ _ _ _)
    | with_reducible apply Forms.trans (g := State.placeSum_forms _ _ _ _ _)
    | with_reducible apply Forms.trans (g := State.addDone_forms _ _ _ _ _ _)
    | with_reducible apply Forms.trans (g := State.liftOperands_forms _ _)
    | with_reducible apply Forms.ite
    | split
    | dsimp only

theorem State.useResult_forms (s : State) (r) (v) :
    Forms s (State.useResult s r v) := by
  unfold State.useResult
  repeat' first
    | with_reducible exact Forms.refl _
    | with_reducible apply Forms.aside (g := State.spoil_evolves _ _)
    | with_reducible apply Forms.trans (g := State.layerResult_forms _ _ _ _ _)
    | with_reducible apply Forms.trans (g := State.writeRecord_forms _ _)
    | with_reducible apply Forms.aside (g := State.releaseStile_evolves _ _)
    | with_reducible apply Forms.ite
    | split

theorem State.dropVecs_forms (s : State) (t) (plot) (round) (x1) :
    Forms s (State.dropVecs s t plot round x1) := by
  fun_induction State.dropVecs s t plot round x1
  all_goals repeat' first
    | with_reducible exact Forms.refl _
    | with_reducible assumption
    | with_reducible apply Forms.trans (g := State.setVecs_forms _ _ _ _)
    | with_reducible apply Forms.trans (g := by assumption)

theorem State.closeSum_forms (s : State) (t) (plot) (v) :
    Forms s (State.closeSum s t plot v) := by
  unfold State.closeSum
  repeat' first
    | with_reducible exact Forms.refl _
    | with_reducible apply Forms.trans (g := State.setSred_forms _ _ _)
    | with_reducible apply Forms.trans (g := State.dropVecs_forms _ _ _ _ _)

theorem State.sDone_forms (s : State) (t) (r) (v) (slack) :
    Forms s (State.sDone s t r v slack) := by
  unfold State.sDone
  repeat' first
    | with_reducible exact Forms.refl _
    | with_reducible apply Forms.aside (g := State.count_evolves _ _ _ _)
    | with_reducible apply Forms.aside (g := State.minReg_evolves _ _ _)
    | with_reducible apply Forms.aside (g := State.bel64_evolves _ _ _)
    | with_reducible apply Forms.aside (g := State.trace_evolves _ _ _ _ _)
    | with_reducible apply Forms.trans (g := State.useResult_forms _ _ _)
    | with_reducible apply Forms.trans (g := State.closeSum_forms _ _ _ _)

theorem State.sLate_forms (s : State) (t) (r) :
    Forms s (State.sLate s t r) := by
  unfold State.sLate
  repeat' first
    | with_reducible exact Forms.refl _
    | with_reducible apply Forms.aside (g := State.count_evolves _ _ _ _)
    | with_reducible apply Forms.aside (g := State.event_evolves _ _ _)
    | with_reducible apply Forms.aside (g := State.bel64_evolves _ _ _)
    | with_reducible apply Forms.aside (g := State.trace_evolves _ _ _ _ _)
    | with_reducible apply Forms.aside (g := State.spoil_evolves _ _)
    | with_reducible apply Forms.aside (g := State.releaseStile_evolves _ _)
    | with_reducible apply Forms.trans (g := State.useResult_forms _ _ _)
    | with_reducible apply Forms.trans (g := State.closeSum_forms _ _ _ _)
    | with_reducible apply Forms.ite
    | split

theorem State.tryVotes_forms (s : State) :
    Forms s (State.tryVotes s) := by
  unfold State.tryVotes
  repeat' first
    | with_reducible exact Forms.refl _
    | with_reducible apply Forms.trans (g := State.sendVec_forms _ _ _ _)
    | with_reducible apply Forms.aside (g := State.setCommit_evolves _ _)
    | with_reducible apply Forms.ite
    | split

theorem State.childVotes_forms (s : State) (t) :
    Forms s (State.childVotes s t) := by
  unfold State.childVotes
  repeat' first
    | with_reducible exact Forms.refl _
    | with_reducible apply Forms.aside (g := State.setCommit_evolves _ _)
    | with_reducible apply Forms.trans (g := State.tryVotes_forms _)

theorem State.combineSum_forms (s : State) (t) (red) (slack) :
    Forms s (State.combineSum s t red slack) := by
  unfold State.combineSum
  repeat' first
    | with_reducible exact Forms.refl _
    | with_reducible apply Forms.trans (g := State.setSred_forms _ _ _)
    | with_reducible apply Forms.trans (g := State.sendVec_forms _ _ _ _)
    | with_reducible apply Forms.trans (g := State.sendDown_forms _ _ _ _)
    | with_reducible apply Forms.trans (g := State.sDone_forms _ _ _ _ _)
    | with_reducible apply Forms.trans (g := State.sLate_forms _ _ _)
    | with_reducible apply Forms.ite
    | split

theorem State.deadlineSum_forms (s : State) (t) (red) :
    Forms s (State.deadlineSum s t red) := by
  unfold State.deadlineSum
  repeat' first
    | with_reducible exact Forms.refl _
    | with_reducible apply Forms.trans (g := State.sendVec_forms _ _ _ _)
    | with_reducible apply Forms.trans (g := State.sendDown_forms _ _ _ _)
    | with_reducible apply Forms.trans (g := State.sLate_forms _ _ _)
    | with_reducible apply Forms.ite
    | split

theorem State.eachPort_forms (s : State) (f) (l : List Nat) (hf : ∀ t p, Forms t (f t p)) : Forms s (s.eachPort f l) := by
  induction l generalizing s with
  | nil => exact Forms.refl s
  | cons p l ih => exact (hf s p).trans (ih _)

theorem State.framePeriod_forms (s : State) (p) (new) (hn : ∀ t, Forms t (new t)) : Forms s (s.framePeriod p new) := by
  have hreplay := (s.startReplay_evolves p).forms rfl
  unfold State.framePeriod
  refine Forms.ite _ (Forms.refl s) ?_
  split
  · exact (State.sendAgain_evolves ..).forms rfl
  · exact Forms.ite _ (Forms.ite _ (hreplay.aside (State.sendAgain_evolves ..)) hreplay) (hn s)

theorem State.completeSlot_forms (s : State) (k) :
    Forms s (State.completeSlot s k) := by
  unfold State.completeSlot
  repeat' first
    | with_reducible exact Forms.refl _
    | with_reducible apply Forms.aside (g := State.complete_evolves _ _)
    | with_reducible apply Forms.trans (g := State.chainBack_forms _ _ _)
    | with_reducible apply Forms.aside (g := State.returnPlots_evolves _ _)
    | with_reducible apply Forms.ite
    | split
    | dsimp only
    | with_reducible apply Forms.update
    | with_reducible exact And.intro rfl (And.intro rfl rfl)
    | with_reducible exact And.intro rfl (And.intro rfl (And.intro rfl (And.intro rfl rfl)))

theorem State.clearEngines_forms (s : State) : Forms s s.clearEngines where
  combine := id
  engines := fun ⟨h1, _, h3, h4, h5, _, _, _, h⟩ => ⟨h1, rfl, h3, h4, h5, rfl, rfl, rfl, h⟩

theorem State.clearStreams_forms (s : State) : Forms s s.clearStreams := by
  unfold State.clearStreams
  apply Forms.aside (g := State.mapPlots_evolves _ _)
  exact ⟨id, fun ⟨h1, h2, h3, h4, h5, h6, h7, h8, _, h⟩ => ⟨h1, h2, h3, h4, h5, h6, h7, h8, rfl, h⟩⟩

theorem State.unthrottle_forms (s : State) :
    Forms s (State.unthrottle s) := by
  unfold State.unthrottle
  repeat' first
    | with_reducible exact Forms.refl _
    | with_reducible apply Forms.aside (g := State.applyShares_evolves _ _)
    | with_reducible apply Forms.ite
    | split
    | dsimp only
    | with_reducible apply Forms.update
    | with_reducible exact And.intro rfl (And.intro rfl rfl)
    | with_reducible exact And.intro rfl (And.intro rfl (And.intro rfl (And.intro rfl rfl)))

theorem State.halt_forms (s : State) :
    Forms s (State.halt s) := by
  unfold State.halt
  repeat' first
    | with_reducible exact Forms.refl _
    | with_reducible apply Forms.aside (g := State.event_evolves _ _ _)
    | with_reducible apply Forms.trans (g := State.completeAll_forms _ _)
    | with_reducible apply Forms.aside (g := State.setCommit_evolves _ _)
    | with_reducible apply Forms.aside (g := State.endRun_evolves _)
    | with_reducible apply Forms.aside (g := State.returnPlots_evolves _ _)
    | with_reducible apply Forms.aside (g := State.endStep_evolves _)
    | with_reducible apply Forms.trans (g := State.clearEngines_forms _)
    | with_reducible apply Forms.trans (g := State.clearStreams_forms _)
    | with_reducible apply Forms.aside (g := State.fillCredits_evolves _)
    | with_reducible apply Forms.trans (g := State.unthrottle_forms _)
    | with_reducible apply Forms.ite
    | split
    | dsimp only
    | with_reducible apply Forms.update
    | with_reducible exact And.intro rfl (And.intro rfl rfl)
    | with_reducible exact And.intro rfl (And.intro rfl (And.intro rfl (And.intro rfl rfl)))

theorem State.closeTick_forms (s : State) (late) (measured) (predicted) (b) :
    Forms s (State.closeTick s late measured predicted b) := by
  unfold State.closeTick
  repeat' first
    | with_reducible exact Forms.refl _
    | with_reducible apply Forms.aside (g := State.setCommit_evolves _ _)
    | with_reducible apply Forms.aside (g := State.powerEdge_evolves _ _ _)
    | with_reducible apply Forms.aside (g := State.raiseGroups_evolves _ _)
    | with_reducible apply Forms.trans (g := State.completeSlot_forms _ _)
    | with_reducible apply Forms.aside (g := State.endStep_evolves _)
    | with_reducible apply Forms.aside (g := State.lateEdge_evolves _ _)
    | with_reducible apply Forms.aside (g := State.shadowEdge_evolves _)
    | with_reducible apply Forms.ite

theorem State.stepStreams_forms (s : State) : Forms s s.stepStreams where
  combine := id
  engines := fun ⟨h1, h2, h3, h4, h5, h6, h7, h8, _, h⟩ => ⟨h1, h2, h3, h4, h5, h6, h7, h8, rfl, h⟩

theorem State.startStep_forms (s : State) (x) (k) (t) :
    Forms s (State.startStep s x k t) := by
  unfold State.startStep
  repeat' first
    | with_reducible exact Forms.refl _
    | with_reducible apply Forms.aside (g := State.setReg_evolves _ _ _)
    | with_reducible apply Forms.aside (g := State.live_evolves _ _ _)
    | with_reducible apply Forms.aside (g := State.stepCoefficients_evolves _)
    | with_reducible apply Forms.aside (g := State.setCommit_evolves _ _)
    | with_reducible apply Forms.aside (g := State.bindChains_evolves _ _ _ _)
    | with_reducible apply Forms.trans (g := State.stepStreams_forms _)
    | with_reducible apply Forms.ite
    | split
    | dsimp only
    | with_reducible apply Forms.update
    | with_reducible exact And.intro rfl (And.intro rfl rfl)
    | with_reducible exact And.intro rfl (And.intro rfl (And.intro rfl (And.intro rfl rfl)))

theorem State.openSlot_forms (s : State) (x) (b) :
    Forms s (State.openSlot s x b) := by
  unfold State.openSlot
  repeat' first
    | with_reducible exact Forms.refl _
    | with_reducible apply Forms.aside (g := State.event_evolves _ _ _)
    | with_reducible apply Forms.trans (g := State.startStep_forms _ _ _ _)
    | with_reducible apply Forms.ite
    | split
    | dsimp only

theorem State.loadTable_forms (s : State) :
    Forms s (State.loadTable s) := by
  unfold State.loadTable
  repeat' first
    | with_reducible exact Forms.refl _
    | with_reducible apply Forms.ite
    | split
    | dsimp only
    | with_reducible apply Forms.update
    | with_reducible exact And.intro rfl (And.intro rfl rfl)
    | with_reducible exact And.intro rfl (And.intro rfl (And.intro rfl (And.intro rfl rfl)))

theorem State.edge_forms (s : State) (x) (late) (measured) (predicted) (b) :
    Forms s (State.edge s x late measured predicted b) := by
  unfold State.edge
  repeat' first
    | with_reducible exact Forms.refl _
    | with_reducible apply Forms.aside (g := State.latchGate_evolves _ _ _)
    | with_reducible apply Forms.trans (g := State.closeTick_forms _ _ _ _ _)
    | with_reducible apply Forms.trans (g := State.openSlot_forms _ _ _)
    | with_reducible apply Forms.aside (g := State.bindSlot_evolves _)
    | with_reducible apply Forms.aside (g := State.startStitch_evolves _)
    | with_reducible apply Forms.aside (g := State.beginTick_evolves _ _)
    | with_reducible apply Forms.aside (g := State.belCopy_evolves _)
    | with_reducible apply Forms.trans (g := State.loadTable_forms _)
    | with_reducible apply Forms.ite

theorem State.flushChannels_forms (s : State) (x1) :
    Forms s (State.flushChannels s x1) := by
  fun_induction State.flushChannels s x1
  all_goals repeat' first
    | with_reducible exact Forms.refl _
    | with_reducible assumption
    | with_reducible apply Forms.trans (g := State.flushAll_forms _ _ _)

theorem State.maintWork_forms (s : State) (temps) (bad) :
    Forms s (State.maintWork s temps bad) := by
  unfold State.maintWork
  repeat' first
    | with_reducible exact Forms.refl _
    | with_reducible apply Forms.aside (g := State.belBoth_evolves _ _ _)
    | with_reducible apply Forms.trans (g := State.eachPort_forms _ _ _ ?_)
    | with_reducible apply Forms.trans (g := State.readTemps_forms _ _ _)
    | with_reducible apply Forms.aside (g := State.suspectAll_evolves _ _ _)
    | with_reducible apply Forms.trans (g := State.flushChannels_forms _ _)
    | with_reducible apply Forms.aside (g := State.adaptPort_evolves _ _)
    | (intro _)
    | with_reducible apply Forms.ite
    | split
    | dsimp only
    | with_reducible apply Forms.update
    | with_reducible exact And.intro rfl (And.intro rfl rfl)
    | with_reducible exact And.intro rfl (And.intro rfl (And.intro rfl (And.intro rfl rfl)))

theorem State.maintMoved_forms (s : State) (temps) (x1) :
    Forms s (State.maintMoved s temps x1) := by
  fun_induction State.maintMoved s temps x1
  all_goals repeat' first
    | with_reducible exact Forms.refl _
    | with_reducible assumption
    | with_reducible apply Forms.trans (g := State.maintWork_forms _ _ _)

theorem State.castVote_forms (s : State) (r) :
    Forms s (State.castVote s r) := by
  unfold State.castVote
  repeat' first
    | with_reducible exact Forms.refl _
    | with_reducible apply Forms.aside (g := State.mapStep_evolves _ _)
    | with_reducible apply Forms.aside (g := State.setCommit_evolves _ _)
    | with_reducible apply Forms.trans (g := State.tryVotes_forms _)

theorem State.unresolvedStep_forms (s : State) (r) :
    Forms s (State.unresolvedStep s r) := by
  unfold State.unresolvedStep
  repeat' first
    | with_reducible exact Forms.refl _
    | with_reducible apply Forms.aside (g := State.event_evolves _ _ _)
    | with_reducible apply Forms.aside (g := State.ledgerEvent_evolves _ _ _ _ _ _)
    | with_reducible apply Forms.aside (g := State.stopReports_evolves _)
    | with_reducible apply Forms.aside (g := State.sendReport_evolves _)
    | with_reducible apply Forms.trans (g := State.halt_forms _)
    | with_reducible apply Forms.aside (g := State.recordOutcome_evolves _ _ _ _)
    | with_reducible apply Forms.aside (g := State.act_evolves _ _ _)

theorem State.commitRelease_forms (s : State) :
    Forms s (State.commitRelease s) := by
  unfold State.commitRelease
  repeat' first
    | with_reducible exact Forms.refl _
    | with_reducible apply Forms.aside (g := State.commitStep_evolves _ _)
    | with_reducible apply Forms.aside (g := State.skipStep_evolves _ _ _)
    | with_reducible apply Forms.trans (g := State.unresolvedStep_forms _ _)
    | with_reducible apply Forms.ite
    | split

theorem State.toEmpty_forms (s : State) :
    Forms s (State.toEmpty s) := by
  unfold State.toEmpty
  repeat' first
    | with_reducible exact Forms.refl _
    | with_reducible apply Forms.aside (g := State.freePorts_evolves _)
    | with_reducible apply Forms.trans (g := State.copyMap_forms _)
    | with_reducible apply Forms.ite
    | split
    | dsimp only
    | with_reducible apply Forms.update
    | with_reducible exact And.intro rfl (And.intro rfl rfl)
    | with_reducible exact And.intro rfl (And.intro rfl (And.intro rfl (And.intro rfl rfl)))

theorem State.loadFail_forms (s : State) (code) (step) :
    Forms s (State.loadFail s code step) := by
  unfold State.loadFail
  repeat' first
    | with_reducible exact Forms.refl _
    | with_reducible apply Forms.aside (g := State.event_evolves _ _ _)
    | with_reducible apply Forms.aside (g := State.imageError_evolves _ _ _)
    | with_reducible apply Forms.trans (g := State.toEmpty_forms _)

theorem State.stopImage_forms (s : State) :
    Forms s (State.stopImage s) := by
  unfold State.stopImage
  repeat' first
    | with_reducible exact Forms.refl _
    | with_reducible apply Forms.aside (g := State.stopReports_evolves _)
    | with_reducible apply Forms.trans (g := State.halt_forms _)
    | with_reducible apply Forms.ite

theorem State.beginLoad_forms (s : State) :
    Forms s (State.beginLoad s) := by
  unfold State.beginLoad
  repeat' first
    | with_reducible exact Forms.refl _
    | with_reducible apply Forms.aside (g := State.zeroRegs_evolves _ _)
    | with_reducible apply Forms.aside (g := State.send_evolves _ _)
    | with_reducible apply Forms.aside (g := State.imageError_evolves _ _ _)
    | with_reducible apply Forms.trans (g := State.toEmpty_forms _)
    | with_reducible apply Forms.trans (g := State.stopImage_forms _)
    | with_reducible apply Forms.ite
    | split
    | dsimp only
    | with_reducible apply Forms.update
    | with_reducible exact And.intro rfl (And.intro rfl rfl)
    | with_reducible exact And.intro rfl (And.intro rfl (And.intro rfl (And.intro rfl rfl)))

theorem State.load_forms (s : State) :
    Forms s (State.load s) := by
  unfold State.load
  repeat' first
    | with_reducible exact Forms.refl _
    | with_reducible apply Forms.aside (g := State.imageError_evolves _ _ _)
    | with_reducible apply Forms.trans (g := State.beginLoad_forms _)
    | with_reducible apply Forms.ite
    | split
    | dsimp only
    | with_reducible apply Forms.update
    | with_reducible exact And.intro rfl (And.intro rfl rfl)
    | with_reducible exact And.intro rfl (And.intro rfl (And.intro rfl (And.intro rfl rfl)))

theorem State.freshImage_forms (s : State) :
    Forms s (State.freshImage s) := by
  unfold State.freshImage
  repeat' first
    | with_reducible exact Forms.refl _
    | with_reducible apply Forms.trans (g := State.clearEngines_forms _)
    | with_reducible apply Forms.trans (g := State.clearStreams_forms _)
    | with_reducible apply Forms.ite
    | split
    | dsimp only
    | with_reducible apply Forms.update
    | with_reducible exact And.intro rfl (And.intro rfl rfl)
    | with_reducible exact And.intro rfl (And.intro rfl (And.intro rfl (And.intro rfl rfl)))

theorem State.loaded_forms (s : State) (f) :
    Forms s (State.loaded s f) := by
  unfold State.loaded
  repeat' first
    | with_reducible exact Forms.refl _
    | with_reducible apply Forms.aside (g := State.setRegN_evolves _ _ _)
    | with_reducible apply Forms.aside (g := State.event_evolves _ _ _)
    | with_reducible apply Forms.aside (g := State.topoPorts_evolves _)
    | with_reducible apply Forms.aside (g := State.loadPlots_evolves _ _)
    | with_reducible apply Forms.aside (g := State.carryOver_evolves _ _)
    | with_reducible apply Forms.aside (g := State.showDigest_evolves _ _ _)
    | with_reducible apply Forms.trans (g := State.freshImage_forms _)
    | with_reducible apply Forms.ite
    | split
    | dsimp only
    | with_reducible apply Forms.update
    | with_reducible exact And.intro rfl (And.intro rfl rfl)
    | with_reducible exact And.intro rfl (And.intro rfl (And.intro rfl (And.intro rfl rfl)))

theorem State.openTickZero_forms (s : State) :
    Forms s (State.openTickZero s) := by
  unfold State.openTickZero
  repeat' first
    | with_reducible exact Forms.refl _
    | with_reducible apply Forms.aside (g := State.setReg_evolves _ _ _)
    | with_reducible apply Forms.aside (g := State.setBit_evolves _ _ _ _)
    | with_reducible apply Forms.aside (g := State.event_evolves _ _ _)
    | with_reducible apply Forms.aside (g := State.latchGate_evolves _ _ _)
    | with_reducible apply Forms.aside (g := State.bindSlot_evolves _)
    | with_reducible apply Forms.aside (g := State.startStitch_evolves _)
    | with_reducible apply Forms.aside (g := State.beginTick_evolves _ _)
    | with_reducible apply Forms.trans (g := State.loadTable_forms _)
    | with_reducible apply Forms.ite
    | split
    | dsimp only
    | with_reducible apply Forms.update
    | with_reducible exact And.intro rfl (And.intro rfl rfl)
    | with_reducible exact And.intro rfl (And.intro rfl (And.intro rfl (And.intro rfl rfl)))

theorem State.progressStart_forms (s : State) :
    Forms s (State.progressStart s) := by
  unfold State.progressStart
  repeat' first
    | with_reducible exact Forms.refl _
    | with_reducible apply Forms.aside (g := State.event_evolves _ _ _)
    | with_reducible apply Forms.aside (g := State.sendStartUp_evolves _ _ _)
    | with_reducible apply Forms.aside (g := State.sendStartDown_evolves _ _)
    | with_reducible apply Forms.aside (g := State.exchange_evolves _)
    | with_reducible apply Forms.trans (g := State.openTickZero_forms _)
    | with_reducible apply Forms.ite
    | split
    | dsimp only
    | with_reducible apply Forms.update
    | with_reducible exact And.intro rfl (And.intro rfl rfl)
    | with_reducible exact And.intro rfl (And.intro rfl (And.intro rfl (And.intro rfl rfl)))

theorem State.arm_forms (s : State) (x) :
    Forms s (State.arm s x) := by
  unfold State.arm
  repeat' first
    | with_reducible exact Forms.refl _
    | with_reducible apply Forms.trans (g := State.clearEngines_forms _)
    | with_reducible apply Forms.trans (g := State.clearStreams_forms _)
    | with_reducible apply Forms.aside (g := State.fillCredits_evolves _)
    | with_reducible apply Forms.trans (g := State.progressStart_forms _)
    | with_reducible apply Forms.ite
    | split
    | dsimp only
    | with_reducible apply Forms.update
    | with_reducible exact And.intro rfl (And.intro rfl rfl)
    | with_reducible exact And.intro rfl (And.intro rfl (And.intro rfl (And.intro rfl rfl)))

theorem State.start_forms (s : State) :
    Forms s (State.start s) := by
  unfold State.start
  repeat' first
    | with_reducible exact Forms.refl _
    | with_reducible apply Forms.aside (g := State.cmdIgnored_evolves _)
    | with_reducible apply Forms.trans (g := State.arm_forms _ _)
    | with_reducible apply Forms.ite
    | split

theorem State.unload_forms (s : State) :
    Forms s (State.unload s) := by
  unfold State.unload
  repeat' first
    | with_reducible exact Forms.refl _
    | with_reducible apply Forms.aside (g := State.imageError_evolves _ _ _)
    | with_reducible apply Forms.aside (g := State.cmdIgnored_evolves _)
    | with_reducible apply Forms.trans (g := State.toEmpty_forms _)
    | with_reducible apply Forms.trans (g := State.stopImage_forms _)
    | with_reducible apply Forms.ite
    | split

theorem State.abort_forms (s : State) :
    Forms s (State.abort s) := by
  unfold State.abort
  repeat' first
    | with_reducible exact Forms.refl _
    | with_reducible apply Forms.aside (g := State.setRegN_evolves _ _ _)
    | with_reducible apply Forms.aside (g := State.used_evolves _)
    | with_reducible apply Forms.aside (g := State.cmdIgnored_evolves _)
    | with_reducible apply Forms.trans (g := State.loadFail_forms _ _ _)
    | with_reducible apply Forms.ite
    | split

theorem State.bumpBytes_forms (s : State) (x1) :
    Forms s (State.bumpBytes s x1) := by
  fun_induction State.bumpBytes s x1
  all_goals repeat' first
    | with_reducible exact Forms.refl _
    | with_reducible assumption
    | with_reducible apply Forms.trans (g := State.devWrite_forms _ _ _ _)
    | with_reducible apply Forms.trans (g := by assumption)

theorem State.spend_forms (s : State) (p) (r) :
    Forms s (State.spend s p r) := by
  unfold State.spend
  repeat' first
    | with_reducible exact Forms.refl _
    | with_reducible apply Forms.aside (g := State.count_evolves _ _ _ _)
    | with_reducible apply Forms.aside (g := State.event_evolves _ _ _)
    | with_reducible apply Forms.aside (g := State.bel64_evolves _ _ _)
    | with_reducible apply Forms.aside (g := State.frameSent_evolves _ _ _)
    | with_reducible apply Forms.trans (g := State.bumpBytes_forms _ _)
    | with_reducible apply Forms.aside (g := State.sentVec_evolves _ _ _)
    | with_reducible apply Forms.aside (g := State.sentOccupancy_evolves _ _)
    | with_reducible apply Forms.ite

theorem State.sendNew_forms (s : State) (p) (offers) :
    Forms s (State.sendNew s p offers) := by
  unfold State.sendNew
  repeat' first
    | with_reducible exact Forms.refl _
    | with_reducible apply Forms.aside (g := State.bel64_evolves _ _ _)
    | with_reducible apply Forms.aside (g := State.pushFrame_evolves _ _ _)
    | with_reducible apply Forms.trans (g := State.spend_forms _ _ _)
    | with_reducible apply Forms.ite
    | split

theorem State.sendFrame_forms (s : State) (p) (offers) :
    Forms s (State.sendFrame s p offers) := by
  unfold State.sendFrame
  repeat' first
    | with_reducible exact Forms.refl _
    | with_reducible apply Forms.trans (g := State.framePeriod_forms _ _ _ ?_)
    | with_reducible apply Forms.trans (g := State.sendNew_forms _ _ _)
    | (intro _)

theorem State.placeRecords_forms (s : State) (d) (counts) (x1) (x2) (x3) :
    Forms s (State.placeRecords s d counts x1 x2 x3) := by
  fun_induction State.placeRecords s d counts x1 x2 x3
  all_goals repeat' first
    | with_reducible exact Forms.refl _
    | with_reducible assumption
    | with_reducible apply Forms.trans (g := State.devWrite_forms _ _ _ _)
    | with_reducible apply Forms.trans (g := by assumption)
    | with_reducible apply Forms.ite
    | split
    | dsimp only
    | with_reducible apply Forms.update
    | with_reducible exact And.intro rfl (And.intro rfl rfl)
    | with_reducible exact And.intro rfl (And.intro rfl (And.intro rfl (And.intro rfl rfl)))

theorem State.exchangeData_forms (s : State) (p) (plot) (bs) (x1) :
    Forms s (State.exchangeData s p plot bs x1) := by
  unfold State.exchangeData
  repeat' first
    | with_reducible exact Forms.refl _
    | with_reducible apply Forms.aside (g := State.bel64_evolves _ _ _)
    | with_reducible apply Forms.aside (g := State.setXch_evolves _ _ _)
    | with_reducible apply Forms.trans (g := State.placeRecords_forms _ _ _ _ _ _)
    | with_reducible apply Forms.ite
    | split

theorem State.dataFrame_forms (s : State) (p) (a) :
    Forms s (State.dataFrame s p a) := by
  unfold State.dataFrame
  repeat' first
    | with_reducible exact Forms.refl _
    | with_reducible apply Forms.aside (g := State.count_evolves _ _ _ _)
    | with_reducible apply Forms.aside (g := State.bel64_evolves _ _ _)
    | with_reducible apply Forms.trans (g := State.devWrite_forms _ _ _ _)
    | with_reducible apply Forms.aside (g := State.frameTaken_evolves _ _ _ _ _)
    | with_reducible apply Forms.aside (g := State.cloFatal_evolves _ _ _ _)
    | with_reducible apply Forms.trans (g := State.takeVec_forms _ _ _ _ _)
    | with_reducible apply Forms.trans (g := State.exchangeData_forms _ _ _ _ _)
    | with_reducible apply Forms.ite

theorem State.padInputs_forms (s : State) (record) (x1) (x2) :
    Forms s (State.padInputs s record x1 x2) := by
  fun_induction State.padInputs s record x1 x2
  all_goals repeat' first
    | with_reducible exact Forms.refl _
    | with_reducible assumption
    | with_reducible apply Forms.trans (g := State.devWrite_forms _ _ _ _)
    | with_reducible apply Forms.trans (g := by assumption)

theorem State.occupancy_forms (s : State) (a) :
    Forms s (State.occupancy s a) := by
  unfold State.occupancy
  repeat' first
    | with_reducible exact Forms.refl _
    | with_reducible apply Forms.aside (g := State.setXch_evolves _ _ _)
    | with_reducible apply Forms.trans (g := State.padInputs_forms _ _ _ _)
    | with_reducible apply Forms.ite
    | split

theorem State.deliverFrame_forms (s : State) (p) (a) :
    Forms s (State.deliverFrame s p a) := by
  unfold State.deliverFrame
  repeat' first
    | with_reducible exact Forms.refl _
    | with_reducible apply Forms.trans (g := State.dataFrame_forms _ _ _)
    | with_reducible apply Forms.trans (g := State.occupancy_forms _ _)
    | with_reducible apply Forms.ite

theorem State.goodFrame_forms (s : State) (p) (a) :
    Forms s (State.goodFrame s p a) := by
  unfold State.goodFrame
  repeat' first
    | with_reducible exact Forms.refl _
    | with_reducible apply Forms.aside (g := State.creditsBack_evolves _ _ _ _)
    | with_reducible apply Forms.aside (g := State.setPort_evolves _ _ _)
    | with_reducible apply Forms.aside (g := State.acked_evolves _ _ _)
    | with_reducible apply Forms.aside (g := State.naked_evolves _ _ _)
    | with_reducible apply Forms.trans (g := State.deliverFrame_forms _ _ _)

theorem State.receive_forms (s : State) (p) (a) :
    Forms s (State.receive s p a) := by
  unfold State.receive
  repeat' first
    | with_reducible exact Forms.refl _
    | with_reducible apply Forms.aside (g := State.bel64_evolves _ _ _)
    | with_reducible apply Forms.aside (g := State.setPort_evolves _ _ _)
    | with_reducible apply Forms.aside (g := State.fec_evolves _ _ _)
    | with_reducible apply Forms.trans (g := State.goodFrame_forms _ _ _)
    | with_reducible apply Forms.ite

theorem State.moveBytes_forms (s : State) (e) (f) (n) (data) :
    Forms s (State.moveBytes s e f n data) := by
  unfold State.moveBytes
  repeat' first
    | with_reducible exact Forms.refl _
    | with_reducible apply Forms.aside (g := State.setRegN_evolves _ _ _)
    | with_reducible apply Forms.aside (g := State.toHost_evolves _ _)
    | with_reducible apply Forms.trans (g := State.devWrite_forms _ _ _ _)
    | with_reducible apply Forms.ite

theorem State.abortMove_forms (s : State) (e) (moved) (f) :
    Forms s (State.abortMove s e moved f) := by
  unfold State.abortMove
  repeat' first
    | with_reducible exact Forms.refl _
    | with_reducible apply Forms.trans (g := State.moveBytes_forms _ _ _ _ _)
    | with_reducible apply Forms.ite
    | split

theorem State.abortFlights_forms (s : State) (e) (moved) (x1) :
    Forms s (State.abortFlights s e moved x1) := by
  fun_induction State.abortFlights s e moved x1
  all_goals repeat' first
    | with_reducible exact Forms.refl _
    | with_reducible assumption
    | with_reducible apply Forms.aside (g := State.setFlights_evolves _ _ _)
    | with_reducible apply Forms.aside (g := State.writeStatus_evolves _ _ _ _)
    | with_reducible apply Forms.aside (g := State.dmaStop_evolves _ _ _ _)
    | with_reducible apply Forms.trans (g := State.abortMove_forms _ _ _ _)
    | with_reducible apply Forms.trans (g := by assumption)
    | with_reducible apply Forms.ite

theorem State.dmaDisable_forms (s : State) (e) (ctrl) (moved) :
    Forms s (State.dmaDisable s e ctrl moved) := by
  unfold State.dmaDisable
  repeat' first
    | with_reducible exact Forms.refl _
    | with_reducible apply Forms.aside (g := State.setFld_evolves _ _ _ _ _)
    | with_reducible apply Forms.aside (g := State.setBit_evolves _ _ _ _)
    | with_reducible apply Forms.trans (g := State.abortFlights_forms _ _ _ _)
    | with_reducible apply Forms.ite

theorem State.windowPieces_forms (s : State) (x1) :
    Forms s (State.windowPieces s x1) := by
  fun_induction State.windowPieces s x1
  all_goals repeat' first
    | with_reducible exact Forms.refl _
    | with_reducible assumption
    | with_reducible apply Forms.aside (g := State.event_evolves _ _ _)
    | with_reducible apply Forms.trans (g := State.linePiece_forms _ _ _ _)
    | with_reducible apply Forms.aside (g := State.winErr_evolves _ _)
    | with_reducible apply Forms.trans (g := by assumption)
    | with_reducible apply Forms.ite

theorem State.windowWrite_forms (s : State) (a) (bs) :
    Forms s (State.windowWrite s a bs) := by
  unfold State.windowWrite
  repeat' first
    | with_reducible exact Forms.refl _
    | with_reducible apply Forms.trans (g := State.windowPieces_forms _ _)

theorem State.engineLoss_forms (s : State) (moved) (e) :
    Forms s (State.engineLoss s moved e) := by
  unfold State.engineLoss
  repeat' first
    | with_reducible exact Forms.refl _
    | with_reducible apply Forms.aside (g := State.setFld_evolves _ _ _ _ _)
    | with_reducible apply Forms.trans (g := State.abortFlights_forms _ _ _ _)
    | with_reducible apply Forms.ite

theorem State.moveAll_forms (s : State) (moved) (e) :
    Forms s (State.moveAll s moved e) := by
  unfold State.moveAll
  repeat' first
    | with_reducible exact Forms.refl _
    | with_reducible apply Forms.trans (g := State.abortMove_forms _ _ _ _)
    | with_reducible apply Forms.trans (g := Forms.foldl (fun _ _ => ?_) _ _)

theorem State.clearHost_forms (s : State) (kind) :
    Forms s (State.clearHost s kind) := by
  unfold State.clearHost
  repeat' first
    | with_reducible exact Forms.refl _
    | with_reducible apply Forms.ite
    | split
    | dsimp only
    | with_reducible apply Forms.update
    | with_reducible exact And.intro rfl (And.intro rfl rfl)
    | with_reducible exact And.intro rfl (And.intro rfl (And.intro rfl (And.intro rfl rfl)))

theorem State.resetHostSide_forms (s : State) (kind) (moved) :
    Forms s (State.resetHostSide s kind moved) := by
  unfold State.resetHostSide
  repeat' first
    | with_reducible exact Forms.refl _
    | with_reducible apply Forms.aside (g := State.stopReports_evolves _)
    | with_reducible apply Forms.trans (g := State.eachPort_forms _ _ _ ?_)
    | with_reducible apply Forms.trans (g := State.halt_forms _)
    | with_reducible apply Forms.trans (g := State.toEmpty_forms _)
    | with_reducible apply Forms.aside (g := State.resetFields_evolves _)
    | with_reducible apply Forms.trans (g := State.moveAll_forms _ _ _)
    | with_reducible apply Forms.trans (g := State.clearHost_forms _ _)
    | (intro _)
    | with_reducible apply Forms.ite

theorem State.hostReset_forms (s : State) (kind) (moved) :
    Forms s (State.hostReset s kind moved) := by
  unfold State.hostReset
  repeat' first
    | with_reducible exact Forms.refl _
    | with_reducible apply Forms.aside (g := State.setReg_evolves _ _ _)
    | with_reducible apply Forms.aside (g := State.send_evolves _ _)
    | with_reducible apply Forms.aside (g := State.mapLdg_evolves _ _)
    | with_reducible apply Forms.aside (g := State.beginEntry_evolves _ _)
    | with_reducible apply Forms.trans (g := State.resetHostSide_forms _ _ _)
    | with_reducible apply Forms.ite
    | split

theorem State.onDoe_forms (s : State) (f : State → State) (hf : ∀ t, Forms t (f t)) : Forms s (s.onDoe f) := by
  unfold State.onDoe
  refine Forms.ite _ (Forms.trans ?_ (hf _)) (Forms.refl s)
  exact Forms.ite _ (s.leaveA1_evolves.forms rfl) (Forms.refl s)

theorem State.writeGroup_forms (s : State) (d) (full) :
    Forms s (State.writeGroup s d full) := by
  unfold State.writeGroup
  repeat' first
    | with_reducible exact Forms.refl _
    | with_reducible apply Forms.aside (g := State.send_evolves _ _)
    | with_reducible apply Forms.aside (g := State.setRing_evolves _ _ _)
    | with_reducible apply Forms.trans (g := State.devWrite_forms _ _ _ _)
    | with_reducible apply Forms.aside (g := State.loseSink_evolves _ _ _)
    | with_reducible apply Forms.ite

theorem State.place_forms (s : State) (d) (r) (full) :
    Forms s (State.place s d r full) := by
  unfold State.place
  repeat' first
    | with_reducible exact Forms.refl _
    | with_reducible apply Forms.aside (g := State.setRegN_evolves _ _ _)
    | with_reducible apply Forms.aside (g := State.count_evolves _ _ _ _)
    | with_reducible apply Forms.aside (g := State.event_evolves _ _ _)
    | with_reducible apply Forms.aside (g := State.setRing_evolves _ _ _)
    | with_reducible apply Forms.trans (g := State.writeGroup_forms _ _ _)
    | with_reducible apply Forms.ite

theorem State.placeLoss_forms (s : State) (d) (r) (full) :
    Forms s (State.placeLoss s d r full) := by
  unfold State.placeLoss
  repeat' first
    | with_reducible exact Forms.refl _
    | with_reducible apply Forms.aside (g := State.setRing_evolves _ _ _)
    | with_reducible apply Forms.trans (g := State.place_forms _ _ _ _)
    | with_reducible apply Forms.ite

theorem State.arriveRec_forms (s : State) (d) (r) (full) :
    Forms s (State.arriveRec s d r full) := by
  unfold State.arriveRec
  repeat' first
    | with_reducible exact Forms.refl _
    | with_reducible apply Forms.aside (g := State.bel64_evolves _ _ _)
    | with_reducible apply Forms.trans (g := State.place_forms _ _ _ _)
    | with_reducible apply Forms.aside (g := State.loseRing_evolves _ _ _)
    | with_reducible apply Forms.trans (g := State.placeLoss_forms _ _ _ _)
    | with_reducible apply Forms.ite

theorem State.ringCtrl_forms (s : State) (d) (v) :
    Forms s (State.ringCtrl s d v) := by
  unfold State.ringCtrl
  repeat' first
    | with_reducible exact Forms.refl _
    | with_reducible apply Forms.aside (g := State.setReg_evolves _ _ _)
    | with_reducible apply Forms.aside (g := State.setRegN_evolves _ _ _)
    | with_reducible apply Forms.aside (g := State.setBit_evolves _ _ _ _)
    | with_reducible apply Forms.aside (g := State.event_evolves _ _ _)
    | with_reducible apply Forms.trans (g := State.writeGroup_forms _ _ _)
    | with_reducible apply Forms.ite

theorem State.onMgmt_forms (s : State) (f : State → State) (hf : ∀ t, Forms t (f t)) : Forms s (s.onMgmt f) := by
  unfold State.onMgmt
  refine Forms.ite _ (Forms.trans ?_ (hf _)) (Forms.refl s)
  exact Forms.ite _ (s.leaveA1_evolves.forms rfl) (Forms.refl s)

theorem State.targetA0_forms (s : State) :
    Forms s (State.targetA0 s) := by
  unfold State.targetA0
  repeat' first
    | with_reducible exact Forms.refl _
    | with_reducible apply Forms.trans (g := State.wakeEvent_forms _ _ _)
    | with_reducible apply Forms.aside (g := State.entryResult_evolves _ _)
    | with_reducible apply Forms.ite

theorem State.toA3_forms (s : State) :
    Forms s (State.toA3 s) := by
  unfold State.toA3
  repeat' first
    | with_reducible exact Forms.refl _
    | with_reducible apply Forms.trans (g := State.lose_forms _)
    | with_reducible apply Forms.aside (g := State.mapLdg_evolves _ _)
    | with_reducible apply Forms.aside (g := State.listen_evolves _)
    | with_reducible apply Forms.aside (g := State.keepRegs_evolves _ _ _)

theorem State.reachState_forms (s : State) (x1) :
    Forms s (State.reachState s x1) := by
  unfold State.reachState
  repeat' first
    | with_reducible exact Forms.refl _
    | with_reducible apply Forms.aside (g := State.mapLdg_evolves _ _)
    | with_reducible apply Forms.aside (g := State.listen_evolves _)
    | with_reducible apply Forms.trans (g := State.toA3_forms _)
    | with_reducible apply Forms.ite
    | split

theorem State.afterEntry_forms (s : State) :
    Forms s (State.afterEntry s) := by
  unfold State.afterEntry
  repeat' first
    | with_reducible exact Forms.refl _
    | with_reducible apply Forms.aside (g := State.setBit_evolves _ _ _ _)
    | with_reducible apply Forms.aside (g := State.mapLdg_evolves _ _)
    | with_reducible apply Forms.trans (g := State.startWake_forms _)
    | with_reducible apply Forms.aside (g := State.entryResult_evolves _ _)
    | with_reducible apply Forms.aside (g := State.actHeld_evolves _)
    | with_reducible apply Forms.ite

theorem State.portWake_forms (s : State) (bit) (p) :
    Forms s (State.portWake s bit p) := by
  unfold State.portWake
  repeat' first
    | with_reducible exact Forms.refl _
    | with_reducible apply Forms.aside (g := State.event_evolves _ _ _)
    | with_reducible apply Forms.trans (g := State.wakeEvent_forms _ _ _)
    | with_reducible apply Forms.ite

theorem State.wakeBy_forms (s : State) (x1) :
    Forms s (State.wakeBy s x1) := by
  unfold State.wakeBy
  repeat' first
    | with_reducible exact Forms.refl _
    | with_reducible apply Forms.trans (g := State.wakeEvent_forms _ _ _)
    | with_reducible apply Forms.trans (g := State.portWake_forms _ _ _)
    | with_reducible apply Forms.ite
    | split
    | dsimp only
    | with_reducible apply Forms.update
    | with_reducible exact And.intro rfl (And.intro rfl rfl)
    | with_reducible exact And.intro rfl (And.intro rfl (And.intro rfl (And.intro rfl rfl)))

theorem State.shutdown_forms (s : State) (i) (v) :
    Forms s (State.shutdown s i v) := by
  unfold State.shutdown
  repeat' first
    | with_reducible exact Forms.refl _
    | with_reducible apply Forms.aside (g := State.setRegN_evolves _ _ _)
    | with_reducible apply Forms.aside (g := State.setBit_evolves _ _ _ _)
    | with_reducible apply Forms.aside (g := State.event_evolves _ _ _)
    | with_reducible apply Forms.aside (g := State.ledgerEvent_evolves _ _ _ _ _ _)
    | with_reducible apply Forms.aside (g := State.mapLdg_evolves _ _)
    | with_reducible apply Forms.trans (g := State.toA3_forms _)

theorem State.compare_forms (s : State) (x) :
    Forms s (State.compare s x) := by
  unfold State.compare
  repeat' first
    | with_reducible exact Forms.refl _
    | with_reducible apply Forms.aside (g := State.mapLdg_evolves _ _)
    | with_reducible apply Forms.trans (g := State.shutdown_forms _ _ _)
    | with_reducible apply Forms.aside (g := State.clearTrip_evolves _)
    | with_reducible apply Forms.ite
    | split
    | dsimp only

theorem State.toOff_forms (s : State) : Forms s s.toOff :=
  Forms.update s.lose_forms ⟨rfl, rfl, rfl⟩ ⟨rfl, rfl, rfl, rfl, rfl⟩ ⟨rfl, rfl, rfl⟩ rfl rfl

theorem State.onI3c_forms (s : State) (f : State → State) (hf : ∀ t, Forms t (f t)) : Forms s (s.onI3c f) := by
  unfold State.onI3c
  exact Forms.ite _ (s.onMgmt_forms f hf) (Forms.refl s)

theorem State.powerUp_forms (s : State) (perst) :
    Forms s (State.powerUp s perst) := by
  unfold State.powerUp
  repeat' first
    | with_reducible exact Forms.refl _
    | with_reducible apply Forms.aside (g := State.setReg_evolves _ _ _)
    | with_reducible apply Forms.aside (g := State.live_evolves _ _ _)
    | with_reducible apply Forms.trans (g := State.toOff_forms _)
    | with_reducible apply Forms.ite
    | split
    | dsimp only
    | with_reducible apply Forms.update
    | with_reducible exact And.intro rfl (And.intro rfl rfl)
    | with_reducible exact And.intro rfl (And.intro rfl (And.intro rfl (And.intro rfl rfl)))

theorem State.autoMapGroup_forms (s : State) (failed) (k) :
    Forms s (State.autoMapGroup s failed k) := by
  unfold State.autoMapGroup
  repeat' first
    | with_reducible exact Forms.refl _
    | with_reducible apply Forms.aside (g := State.ownMap_evolves _ _ _)
    | with_reducible apply Forms.aside (g := State.autoMapOut_evolves _ _)
    | with_reducible apply Forms.trans (g := Forms.foldl (fun _ _ => ?_) _ _)
    | (intro _)
    | with_reducible apply Forms.ite
    | split
    | dsimp only
    | with_reducible apply Forms.update
    | with_reducible exact And.intro rfl (And.intro rfl rfl)
    | with_reducible exact And.intro rfl (And.intro rfl (And.intro rfl (And.intro rfl rfl)))

theorem State.pldmIn_forms (s : State) (want) (f : State → State) (hf : ∀ t, Forms t (f t)) :
    Forms s (s.pldmIn want f) := by
  refine s.onMgmt_forms _ fun t => ?_
  split
  · exact (hf t).aside (State.pldmSend_evolves ..)
  · exact (State.pldmSend_evolves ..).forms rfl

theorem State.spdmIn_forms (s : State) (f : State → State) (hf : ∀ t, Forms t (f t)) : Forms s (s.spdmIn f) :=
  s.onDoe_forms _ fun t => Forms.ite _ (hf t) ((State.doeAnswer_evolves ..).forms rfl)

theorem State.seedWrite_forms (s : State) (i) (v) :
    Forms s (State.seedWrite s i v) := by
  unfold State.seedWrite
  repeat' first
    | with_reducible exact Forms.refl _
    | with_reducible apply Forms.aside (g := State.seedAccept_evolves _ _ _)
    | with_reducible apply Forms.trans (g := State.mapWrite_forms _ _ _)
    | with_reducible apply Forms.aside (g := State.capWrite_evolves _ _)
    | with_reducible apply Forms.aside (g := State.laneMapWrite_evolves _ _ _)
    | with_reducible apply Forms.aside (g := State.thermWrite_evolves _ _)
    | with_reducible apply Forms.ite

theorem State.writeLastCtrl_forms (s : State) (v) :
    Forms s (State.writeLastCtrl s v) := by
  unfold State.writeLastCtrl
  repeat' first
    | with_reducible exact Forms.refl _
    | with_reducible apply Forms.aside (g := State.cmdIgnored_evolves _)
    | with_reducible apply Forms.trans (g := State.load_forms _)
    | with_reducible apply Forms.trans (g := State.start_forms _)
    | with_reducible apply Forms.trans (g := State.unload_forms _)
    | with_reducible apply Forms.trans (g := State.abort_forms _)
    | with_reducible apply Forms.ite
    | split

theorem State.command_forms (s : State) (v) (f : State → State) (hf : ∀ t, Forms t (f t)) : Forms s (s.command v f) := by
  unfold State.command
  exact Forms.ite _ (hf s) (Forms.refl s)

theorem State.writeDmaCtrl_forms (s : State) (e) (v) :
    Forms s (State.writeDmaCtrl s e v) := by
  unfold State.writeDmaCtrl
  repeat' first
    | with_reducible exact Forms.refl _
    | with_reducible apply Forms.aside (g := State.dmaEnable_evolves _ _ _)
    | with_reducible apply Forms.trans (g := State.dmaDisable_forms _ _ _ _)
    | with_reducible apply Forms.ite

theorem State.writeTarget_forms (s : State) (v) :
    Forms s (State.writeTarget s v) := by
  unfold State.writeTarget
  repeat' first
    | with_reducible exact Forms.refl _
    | with_reducible apply Forms.aside (g := State.requestEntry_evolves _ _)
    | with_reducible apply Forms.trans (g := State.targetA0_forms _)
    | with_reducible apply Forms.ite
    | split

theorem State.writeSeedReg_forms (s : State) (i) (v) :
    Forms s (State.writeSeedReg s i v) := by
  unfold State.writeSeedReg
  repeat' first
    | with_reducible exact Forms.refl _
    | with_reducible apply Forms.trans (g := State.seedWrite_forms _ _ _)
    | with_reducible apply Forms.ite

theorem State.actLow_forms (s : State) (off) (v) (plain : State) (h : Forms s plain) :
    Forms s (State.actLow s off v plain) := by
  unfold State.actLow
  repeat' first
    | with_reducible exact Forms.refl _
    | with_reducible exact h
    | with_reducible apply Forms.aside (g := State.requestTest_evolves _ _)
    | with_reducible apply Forms.aside (g := State.meClr_evolves _ _)
    | with_reducible apply Forms.aside (g := State.fmtClr_evolves _ _)
    | with_reducible apply Forms.aside (g := State.qntClr_evolves _ _)
    | with_reducible apply Forms.aside (g := State.qntStatClr_evolves _ _)
    | with_reducible apply Forms.aside (g := State.trlClr_evolves _ _)
    | with_reducible apply Forms.aside (g := State.tickClr_evolves _ _)
    | with_reducible apply Forms.aside (g := State.doorbell_evolves _ _ _)
    | with_reducible apply Forms.aside (g := State.donePop_evolves _)
    | with_reducible apply Forms.aside (g := State.topClr_evolves _ _)
    | with_reducible apply Forms.trans (g := State.writeLastCtrl_forms _ _)
    | with_reducible apply Forms.trans (g := State.command_forms _ _ _ ?_)
    | with_reducible apply Forms.aside (g := State.writeVeStat_evolves _ _)
    | with_reducible apply Forms.aside (g := State.writeAccessErr_evolves _ _)
    | (intro _)
    | with_reducible apply Forms.ite

theorem State.actMid_forms (s : State) (off) (i) (v) (plain : State) (h : Forms s plain) :
    Forms s (State.actMid s off i v plain) := by
  unfold State.actMid
  repeat' first
    | with_reducible exact Forms.refl _
    | with_reducible exact h
    | with_reducible apply Forms.aside (g := State.updClr_evolves _ _)
    | with_reducible apply Forms.aside (g := State.stlClr_evolves _ _)
    | with_reducible apply Forms.aside (g := State.pltClr_evolves _ _)
    | with_reducible apply Forms.aside (g := State.cloClr_evolves _ _)
    | with_reducible apply Forms.trans (g := State.mapWrite_forms _ _ _)
    | with_reducible apply Forms.aside (g := State.takeCtrl_evolves _ _ _)
    | with_reducible apply Forms.aside (g := State.takeScan_evolves _ _)
    | with_reducible apply Forms.trans (g := State.memTestStart_forms _ _)
    | with_reducible apply Forms.aside (g := State.memScanStart_evolves _ _)
    | with_reducible apply Forms.aside (g := State.memClr_evolves _ _)
    | with_reducible apply Forms.aside (g := State.laneMapWrite_evolves _ _ _)
    | with_reducible apply Forms.trans (g := State.seedWrite_forms _ _ _)
    | with_reducible apply Forms.aside (g := State.pyuClr_evolves _ _)
    | with_reducible apply Forms.trans (g := State.command_forms _ _ _ ?_)
    | with_reducible apply Forms.aside (g := State.writePyuCtrl_evolves _ _)
    | with_reducible apply Forms.aside (g := State.writeRecon_evolves _ _)
    | (intro _)
    | with_reducible apply Forms.ite

theorem State.actPci_forms (s : State) (off) (i) (v) (plain : State) (h : Forms s plain) :
    Forms s (State.actPci s off i v plain) := by
  unfold State.actPci
  repeat' first
    | with_reducible exact Forms.refl _
    | with_reducible exact h
    | with_reducible apply Forms.aside (g := State.dmaTail_evolves _ _ _)
    | with_reducible apply Forms.aside (g := State.winBase_evolves _ _)
    | with_reducible apply Forms.aside (g := State.tqTail_evolves _ _)
    | with_reducible apply Forms.aside (g := State.aqHead_evolves _ _)
    | with_reducible apply Forms.aside (g := State.cqHead_evolves _ _)
    | with_reducible apply Forms.aside (g := State.pciClr_evolves _ _)
    | with_reducible apply Forms.aside (g := State.capWrite_evolves _ _)
    | with_reducible apply Forms.aside (g := State.ackStale_evolves _)
    | with_reducible apply Forms.trans (g := State.command_forms _ _ _ ?_)
    | with_reducible apply Forms.aside (g := State.writeQueueCtrl_evolves _ _)
    | with_reducible apply Forms.trans (g := State.writeDmaCtrl_forms _ _ _)
    | (intro _)
    | with_reducible apply Forms.ite

theorem State.actHigh_forms (s : State) (off) (i) (v) (plain : State) (h : Forms s plain) :
    Forms s (State.actHigh s off i v plain) := by
  unfold State.actHigh
  repeat' first
    | with_reducible exact Forms.refl _
    | with_reducible exact h
    | with_reducible apply Forms.aside (g := State.trace_evolves _ _ _ _ _)
    | with_reducible apply Forms.trans (g := State.ringCtrl_forms _ _ _)
    | with_reducible apply Forms.aside (g := State.ringHeadWrite_evolves _ _ _)
    | with_reducible apply Forms.aside (g := State.mailbox_evolves _ _ _)
    | with_reducible apply Forms.aside (g := State.enrGo_evolves _)
    | with_reducible apply Forms.aside (g := State.hltSnap_evolves _)
    | with_reducible apply Forms.trans (g := State.command_forms _ _ _ ?_)
    | with_reducible apply Forms.trans (g := State.writeTarget_forms _ _)
    | with_reducible apply Forms.aside (g := State.writeBelCtrl_evolves _ _)
    | with_reducible apply Forms.aside (g := State.writeFrozen_evolves _ _)
    | with_reducible apply Forms.trans (g := State.writeSeedReg_forms _ _ _)
    | (intro _)
    | with_reducible apply Forms.ite

theorem State.acts_forms (s : State) (off) (i) (v) (plain : State) (h : Forms s plain) :
    Forms s (State.acts s off i v plain) := by
  unfold State.acts
  repeat' first
    | with_reducible exact Forms.refl _
    | with_reducible exact h
    | with_reducible apply State.actLow_forms
    | with_reducible apply State.actMid_forms
    | with_reducible apply State.actPci_forms
    | with_reducible apply State.actHigh_forms
    | with_reducible apply Forms.ite

theorem State.regWrite_forms (s : State) (r) (base) (v) :
    Forms s (State.regWrite s r base v) := by
  unfold State.regWrite
  repeat' first
    | with_reducible exact Forms.refl _
    | with_reducible apply Forms.aside (g := State.writeFields_evolves _ _ _ _)
    | with_reducible apply State.acts_forms

theorem State.write4_forms (s : State) (o) (v) :
    Forms s (State.write4 s o v) := by
  unfold State.write4
  repeat' first
    | with_reducible exact Forms.refl _
    | with_reducible apply Forms.trans (g := State.regWrite_forms _ _ _ _)
    | with_reducible apply Forms.aside (g := State.badAccess_evolves _ _ _)
    | with_reducible apply Forms.aside (g := State.writeMsix_evolves _ _ _)
    | with_reducible apply Forms.ite
    | split

theorem State.write8_forms (s : State) (o) (v) :
    Forms s (State.write8 s o v) := by
  unfold State.write8
  repeat' first
    | with_reducible exact Forms.refl _
    | with_reducible apply Forms.trans (g := State.regWrite_forms _ _ _ _)
    | with_reducible apply Forms.trans (g := State.write4_forms _ _ _)
    | with_reducible apply Forms.ite
    | split

theorem State.writeSpan_forms (s : State) (x1) (x2) (x3) :
    Forms s (State.writeSpan s x1 x2 x3) := by
  fun_induction State.writeSpan s x1 x2 x3
  all_goals repeat' first
    | with_reducible exact Forms.refl _
    | with_reducible assumption
    | with_reducible apply Forms.trans (g := State.regWrite_forms _ _ _ _)
    | with_reducible apply Forms.trans (g := State.write4_forms _ _ _)
    | with_reducible apply Forms.trans (g := by assumption)

theorem State.bar0Write_forms (s : State) (o) (size) (v) :
    Forms s (State.bar0Write s o size v) := by
  unfold State.bar0Write
  repeat' first
    | with_reducible exact Forms.refl _
    | with_reducible apply Forms.aside (g := State.badAccess_evolves _ _ _)
    | with_reducible apply Forms.trans (g := State.write4_forms _ _ _)
    | with_reducible apply Forms.trans (g := State.write8_forms _ _ _)
    | with_reducible apply Forms.trans (g := State.writeSpan_forms _ _ _ _)
    | with_reducible apply Forms.ite

theorem State.onBar0_forms (s : State) (o) (f : State → State) (hf : ∀ t, Forms t (f t)) : Forms s (s.onBar0 o f) := by
  unfold State.onBar0
  exact Forms.ite _ (s.onLodge_forms f hf) (s.onHost_forms f hf)

theorem State.onBar0Read_forms (s : State) (o) (f : State → State) (hf : ∀ t, Forms t (f t)) :
    Forms s (s.onBar0Read o f) := by
  unfold State.onBar0Read
  refine Forms.ite _ (s.onLodge_forms f hf) (Forms.trans ?_ (State.onHost_forms _ f hf))
  exact Forms.ite _ ((s.send_evolves _).forms rfl) (Forms.refl s)

end Sys2Proof.Machine

/-! What every command does: it answers a next state, and leaves the queue, the records and every canonical form in order. -/

namespace Sys2Proof.Machine

set_option Elab.async false

/-- Every part but the queue. -/
def Part.run : List Part :=
  [.regs, .mem, .free, .out, .heldOut, .boot, .image, .tick, .adm, .seg, .me, .ve, .stl, .hbm, .upd, .clo, .trl, .pyu, .pwr,
    .ldg, .host, .sec, .sbk, .hlt, .bel]

/-- `t` comes from `s` by operations that leave the queue alone and keep every form and record. -/
structure Runs (s t : State) : Prop where
  evolves : Evolves Part.run s t
  forms : Forms s t

theorem Runs.refl (s : State) : Runs s s := ⟨Evolves.refl s, Forms.refl s⟩

theorem Runs.trans {s t u : State} (h : Runs s t) (g : Runs t u) : Runs s u :=
  ⟨h.evolves.step g.evolves rfl, h.forms.trans g.forms⟩

/-- One more operation, by its two laws. -/
theorem Runs.step {P : List Part} {s t u : State} (h : Runs s t) (e : Evolves P t u) (f : Forms t u)
    (hp : (P.all fun p => Part.run.contains p) = true := by decide) : Runs s u :=
  ⟨h.evolves.step e hp, h.forms.trans f⟩

/-- Other parts than those that hold the stores are parts beside the queue. -/
theorem Part.run_of_aside {P : List Part} (hp : (P.all fun p => Part.aside.contains p) = true) :
    (P.all fun p => Part.run.contains p) = true := by
  refine List.all_eq_true.mpr fun p h => ?_
  have haside := List.all_eq_true.mp hp p h
  revert haside
  cases p <;> decide

/-- One more operation, on other parts than those that hold the stores. -/
theorem Runs.aside {P : List Part} {s t u : State} (h : Runs s t) (e : Evolves P t u)
    (hp : (P.all fun p => Part.aside.contains p) = true := by decide) : Runs s u :=
  h.step e (e.forms hp) (Part.run_of_aside hp)

theorem Runs.ite {s t u : State} (c : Prop) [Decidable c] (h : Runs s t) (g : Runs s u) :
    Runs s (if c then t else u) := by split <;> assumption

/-- An update of a state that leaves what `Runs` speaks of as it is. -/
theorem Runs.update {s t : State} (h : Runs s t)
    {free heldOut boot image tick adm seg me ve stl hbm upd clo trl pyu pwr ldg host sec sbk hlt bel}
    (hbm_same : hbm.wcb = t.hbm.wcb ∧ hbm.writeBacks = t.hbm.writeBacks ∧ hbm.scrub = t.hbm.scrub)
    (me_same : me.tile = t.me.tile ∧ me.acc = t.me.acc ∧ me.leaving = t.me.leaving ∧ me.thin = t.me.thin ∧
      me.bank = t.me.bank)
    (ve_same : ve.regs = t.ve.regs ∧ ve.masks = t.ve.masks ∧ ve.bufs = t.ve.bufs) (ops_same : clo.ops = t.clo.ops)
    (arbs_same : trl.arbs = t.trl.arbs) (wear_same : sbk.wear = t.sbk.wear)
    (hlt_same : hlt.bytes = t.hlt.bytes ∧ hlt.tail = t.hlt.tail ∧ hlt.records = t.hlt.records) :
    Runs s ⟨t.pending, t.regs, t.mem, free, t.out, heldOut, boot, image, tick, adm, seg, me, ve, stl, hbm, upd, clo, trl,
      pyu, pwr, ldg, host, sec, sbk, hlt, bel⟩ :=
  h.step (P := Part.run)
    (by refine Evolves.update (Evolves.refl t) ?_ ?_ ?_ ?_ ?_ ?_ ?_ ?_ ?_ ?_ ?_ ?_ ?_ ?_ ?_ ?_ ?_ ?_ ?_ ?_ ?_ ?_
          wear_same hlt_same <;> exact Evolves.part_in rfl)
    (Forms.update (Forms.refl t) hbm_same me_same ve_same ops_same arbs_same)

theorem Evolves.hbm (s : State) (hbm : HbmSt) {P : List Part} (hp : P.contains .hbm = true) :
    Evolves P s { s with hbm := hbm } := by
  refine Evolves.update (Evolves.refl s) ?_ ?_ ?_ ?_ ?_ ?_ ?_ ?_ ?_ ?_ (Evolves.part_in hp) ?_ ?_ ?_ ?_ ?_ ?_ ?_ ?_ ?_ ?_ ?_
    rfl ⟨rfl, rfl, rfl⟩ <;> exact Evolves.part_same

theorem Evolves.trl (s : State) (trl : TrellisSt) {P : List Part} (hp : P.contains .trl = true) :
    Evolves P s { s with trl := trl } := by
  refine Evolves.update (Evolves.refl s) ?_ ?_ ?_ ?_ ?_ ?_ ?_ ?_ ?_ ?_ ?_ ?_ ?_ (Evolves.part_in hp) ?_ ?_ ?_ ?_ ?_ ?_ ?_ ?_
    rfl ⟨rfl, rfl, rfl⟩ <;> exact Evolves.part_same

/-- The stores of the matrix engines are in canonical form. -/
def MatrixSt.ok (m : MatrixSt) : Prop :=
  storeWf 0 m.tile = true ∧ storeWf 0 m.acc = true ∧ storeWf 0 m.leaving = true ∧ storeWf 0 m.thin = true ∧
    storeWf 0 m.bank = true

/-- An update of the matrix engines that keeps the form of their stores. -/
theorem Runs.me {s t : State} (h : Runs s t) {me : MatrixSt} (hme : t.me.ok → me.ok) : Runs s { t with me := me } := by
  refine h.step (P := [.me]) ?_ ⟨id, fun ⟨h1, h2, h3, h4, h5, hrest⟩ => ?_⟩
  · refine Evolves.update (Evolves.refl t) ?_ ?_ ?_ ?_ ?_ ?_ ?_ (Evolves.part_in rfl) ?_ ?_ ?_ ?_ ?_ ?_ ?_ ?_ ?_ ?_ ?_ ?_ ?_ ?_
      rfl ⟨rfl, rfl, rfl⟩ <;> exact Evolves.part_same
  · obtain ⟨k1, k2, k3, k4, k5⟩ := hme ⟨h1, h2, h3, h4, h5⟩
    exact ⟨k1, k2, k3, k4, k5, hrest⟩

theorem updateTile_wf (seed : Nat) {m : Words} (k rows cols : Nat) (f : Nat → Nat → Word → Word) (h : storeWf 0 m = true) :
    storeWf 0 (updateTile seed m k rows cols f) = true :=
  storeWf_foldl _ (fun _ _ hm => storeWf_foldl _ (fun _ _ => storeWf_storeSet _ _ _ _) hm) h

theorem copyRange_wf (seed : Nat) (src : Words) {dst : Words} (k n : Nat) (h : storeWf 0 dst = true) :
    storeWf 0 (copyRange seed src dst k n) = true := by
  unfold copyRange
  dsimp only
  split
  all_goals exact storeWf_foldl _ (fun _ _ => storeWf_storeSet _ _ _ _) (storeWf_storeDrop _ _ _ h)

/-! ## Requests that act at once, or wake the module -/

theorem Runs.onHost (s : State) (f : State → State) (hf : ∀ t, Runs t (f t)) : Runs s (s.onHost f) :=
  ⟨s.onHost_evolves f (fun t => (hf t).evolves) rfl, s.onHost_forms f fun t => (hf t).forms⟩

theorem Runs.onLodge (s : State) (f : State → State) (hf : ∀ t, Runs t (f t)) : Runs s (s.onLodge f) :=
  ⟨s.onLodge_evolves f (fun t => (hf t).evolves) rfl, s.onLodge_forms f fun t => (hf t).forms⟩

theorem Runs.onDoe (s : State) (f : State → State) (hf : ∀ t, Runs t (f t)) : Runs s (s.onDoe f) :=
  ⟨s.onDoe_evolves f (fun t => (hf t).evolves) rfl, s.onDoe_forms f fun t => (hf t).forms⟩

theorem Runs.onMgmt (s : State) (f : State → State) (hf : ∀ t, Runs t (f t)) : Runs s (s.onMgmt f) :=
  ⟨s.onMgmt_evolves f (fun t => (hf t).evolves) rfl, s.onMgmt_forms f fun t => (hf t).forms⟩

theorem Runs.onI3c (s : State) (f : State → State) (hf : ∀ t, Runs t (f t)) : Runs s (s.onI3c f) :=
  ⟨s.onI3c_evolves f (fun t => (hf t).evolves) rfl, s.onI3c_forms f fun t => (hf t).forms⟩

theorem Runs.pldmIn (s : State) (want) (f : State → State) (hf : ∀ t, Runs t (f t)) : Runs s (s.pldmIn want f) :=
  ⟨s.pldmIn_evolves want f (fun t => (hf t).evolves) rfl, s.pldmIn_forms want f fun t => (hf t).forms⟩

theorem Runs.spdmIn (s : State) (f : State → State) (hf : ∀ t, Runs t (f t)) : Runs s (s.spdmIn f) :=
  ⟨s.spdmIn_evolves f (fun t => (hf t).evolves) rfl, s.spdmIn_forms f fun t => (hf t).forms⟩

theorem Runs.onBar0 (s : State) (o) (f : State → State) (hf : ∀ t, Runs t (f t)) : Runs s (s.onBar0 o f) :=
  ⟨s.onBar0_evolves o f (fun t => (hf t).evolves) rfl, s.onBar0_forms o f fun t => (hf t).forms⟩

theorem Runs.onBar0Read (s : State) (o) (f : State → State) (hf : ∀ t, Runs t (f t)) : Runs s (s.onBar0Read o f) :=
  ⟨s.onBar0Read_evolves o f (fun t => (hf t).evolves) rfl, s.onBar0Read_forms o f fun t => (hf t).forms⟩

theorem Runs.eachPort (s : State) (f) (l : List Nat) (hf : ∀ t p, Runs t (f t p)) : Runs s (s.eachPort f l) :=
  ⟨s.eachPort_evolves f l fun t p => (hf t p).evolves, s.eachPort_forms f l fun t p => (hf t p).forms⟩

/-! ## Commands -/

/-- A command that answers a next state, which comes from `s` in order. -/
def Answers (s : State) (o : Host.Outcome State Fault Refusal) : Prop := ∃ t, o = .next t ∧ Runs s t

theorem Answers.next {s t : State} (h : Runs s t) : Answers s (.next t) := ⟨t, rfl, h⟩

end Sys2Proof.Machine

/-! What each command does: it answers a next state, and keeps every form and record. -/

namespace Sys2Proof.Machine

set_option Elab.async false

theorem execHbmRead_runs (addr : Nat) (who : Requester) (symbols : Nat) (wrong : Option (Nat × List Byte)) (s : State) :
    Answers s (execHbmRead addr who symbols wrong s) := by
  unfold execHbmRead
  repeat' first
    | with_reducible exact Runs.refl _
    | with_reducible apply Answers.next
    | with_reducible apply Runs.aside (e := State.bel64_evolves _ _ _)
    | with_reducible apply Runs.step (e := State.dropBad_evolves _ _ _) (f := State.dropBad_forms _ _ _)
    | with_reducible apply Runs.aside (e := State.addrErr_evolves _)
    | with_reducible apply Runs.step (e := State.correctedFor_evolves _ _ _ _ _ _) (f := State.correctedFor_forms _ _ _ _ _ _)
    | with_reducible apply Runs.ite
    | split

theorem execHbmReadRetry_runs (addr : Nat) (who : Requester) (symbols : Nat) (bytes : List Byte) (wrong : Option (Nat × List Byte))
    (s : State) :
    Answers s (execHbmReadRetry addr who symbols bytes wrong s) := by
  unfold execHbmReadRetry
  repeat' first
    | with_reducible exact Runs.refl _
    | with_reducible apply Answers.next
    | with_reducible apply Runs.aside (e := State.count_evolves _ _ _ _)
    | with_reducible apply Runs.aside (e := State.addrErr_evolves _)
    | with_reducible apply Runs.step (e := State.uncorrectable_evolves _ _ _ _ _ _) (f := State.uncorrectable_forms _ _ _ _ _ _)
    | with_reducible apply Runs.step (e := State.correctedFor_evolves _ _ _ _ _ _) (f := State.correctedFor_forms _ _ _ _ _ _)
    | with_reducible apply Runs.ite
    | split

theorem execWriteBack_runs (channel : Fin 256) (s : State) :
    Answers s (execWriteBack channel s) := by
  unfold execWriteBack
  repeat' first
    | with_reducible exact Runs.refl _
    | with_reducible apply Answers.next
    | with_reducible apply Runs.aside (e := State.bel64_evolves _ _ _)
    | with_reducible apply Runs.step (e := State.setWriteBacks_evolves _ _ _) (f := State.setWriteBacks_forms _ _ _)
    | with_reducible apply Runs.aside (e := State.putBytes_evolves _ _ _)
    | with_reducible apply Runs.ite
    | split

theorem execPatrolScrub_runs (channel : Fin 256) (symbols : Nat) (wrong : Option (Nat × List Byte)) (s : State) :
    Answers s (execPatrolScrub channel symbols wrong s) := by
  have hscrub : Runs s { s with hbm := { s.hbm with
      scrub := storeSet 0 s.hbm.scrub channel ((storeGet 0 s.hbm.scrub channel + 1) % chanLines) } } := by
    refine ⟨Evolves.hbm s _ (by decide), fun ⟨h1, h2, h3, h⟩ => ⟨h1, h2, ?_, h⟩, id⟩
    exact storeWf_storeSet _ _ _ _ h3
  refine Answers.next (Runs.ite _ ?_ (Runs.refl s))
  dsimp only
  split
  · exact Runs.ite _ hscrub (hscrub.step (State.corrected_evolves ..) (State.corrected_forms ..))
  · exact hscrub

theorem execWriteCrcReject_runs (addr : Nat) (times : Nat) (s : State) :
    Answers s (execWriteCrcReject addr times s) := by
  unfold execWriteCrcReject
  repeat' first
    | with_reducible exact Runs.refl _
    | with_reducible apply Answers.next
    | with_reducible apply Runs.aside (e := State.event_evolves _ _ _)
    | with_reducible apply Runs.aside (e := State.ledgerFatal_evolves _ _ _)
    | with_reducible apply Runs.aside (e := State.addrErr_evolves _)
    | with_reducible apply Runs.aside (e := State.stopReports_evolves _)
    | with_reducible apply Runs.aside (e := State.suspect_evolves _ _ _)
    | with_reducible apply Runs.ite
    | split

theorem execMemoryAtomic_runs (op : AtomicOp) (fmt : AtomicFmt) (addr : Nat) (data : List Byte) (fetch : Bool) (s : State) :
    Answers s (execMemoryAtomic op fmt addr data fetch s) := by
  unfold execMemoryAtomic
  repeat' first
    | with_reducible exact Runs.refl _
    | with_reducible apply Answers.next
    | with_reducible apply Runs.aside (e := State.count_evolves _ _ _ _)
    | with_reducible apply Runs.aside (e := State.send_evolves _ _)
    | with_reducible apply Runs.aside (e := State.bel64_evolves _ _ _)
    | with_reducible apply Runs.step (e := State.setWriteBacks_evolves _ _ _) (f := State.setWriteBacks_forms _ _ _)
    | with_reducible apply Runs.aside (e := State.putBytes_evolves _ _ _)
    | with_reducible apply Runs.step (e := State.dropBad_evolves _ _ _) (f := State.dropBad_forms _ _ _)
    | with_reducible apply Runs.aside (e := State.addrErr_evolves _)
    | with_reducible apply Runs.step (e := State.flushLines_evolves _ _ _ _) (f := State.flushLines_forms _ _ _ _)
    | with_reducible apply Runs.ite
    | split

theorem execMapWrite_runs (k : Fin 8) (value : Word) (s : State) : Answers s (execMapWrite k value s) :=
  Answers.next <| Runs.onHost _ _ fun t => (Runs.refl t).step (t.mapWrite_evolves ..) (t.mapWrite_forms ..)

theorem execMapInTestDone_runs (channel : Fin 256) (pass : Bool) (s : State) :
    Answers s (execMapInTestDone channel pass s) := by
  unfold execMapInTestDone
  repeat' first
    | with_reducible exact Runs.refl _
    | with_reducible apply Answers.next
    | with_reducible apply Runs.aside (e := State.event_evolves _ _ _)
    | with_reducible apply Runs.aside (e := State.ledgerEvent_evolves _ _ _ _ _ _)
    | with_reducible apply Runs.aside (e := State.suspect_evolves _ _ _)
    | with_reducible apply Runs.step (e := State.applyMap_evolves _) (f := State.applyMap_forms _)
    | with_reducible apply Runs.step (e := State.zeroChannel_evolves _ _) (f := State.zeroChannel_forms _ _)
    | with_reducible apply Runs.aside (e := State.ownMap_evolves _ _ _)
    | with_reducible apply Runs.ite
    | split
    | dsimp only
    | with_reducible apply Runs.update
    | with_reducible exact And.intro rfl (And.intro rfl rfl)
    | with_reducible exact And.intro rfl (And.intro rfl (And.intro rfl (And.intro rfl rfl)))

theorem execHbmTempTimer_runs (temps : List Nat) (s : State) :
    Answers s (execHbmTempTimer temps s) := by
  unfold execHbmTempTimer
  repeat' first
    | with_reducible exact Runs.refl _
    | with_reducible apply Answers.next
    | with_reducible apply Runs.step (e := State.readTemps_evolves _ _ _) (f := State.readTemps_forms _ _ _)
    | with_reducible apply Runs.ite

theorem execMemTestStart_runs (ctrl : Word) (s : State) : Answers s (execMemTestStart ctrl s) :=
  Answers.next <| Runs.onHost _ _ fun t => (Runs.refl t).step (t.memTestStart_evolves ..) (t.memTestStart_forms ..)

theorem execMemTestDone_runs (failed : List (Fin 256)) (s : State) :
    Answers s (execMemTestDone failed s) := by
  unfold execMemTestDone
  repeat' first
    | with_reducible exact Runs.refl _
    | with_reducible apply Answers.next
    | with_reducible apply Runs.aside (e := State.setFld_evolves _ _ _ _ _)
    | with_reducible apply Runs.aside (e := State.event_evolves _ _ _)
    | with_reducible apply Runs.aside (e := State.endTest_evolves _ _ _)
    | with_reducible apply Runs.aside (e := State.suspectAll_evolves _ _ _)
    | with_reducible apply Runs.step (e := State.zeroChannels_evolves _ _) (f := State.zeroChannels_forms _ _)
    | with_reducible apply Runs.ite

theorem execMemScanStart_runs (ctrl : Word) (s : State) : Answers s (execMemScanStart ctrl s) :=
  Answers.next <| Runs.onHost _ _ fun t => (Runs.refl t).aside (t.memScanStart_evolves ..)

theorem execMemScanDone_runs (results : List ScanResult) (s : State) :
    Answers s (execMemScanDone results s) := by
  unfold execMemScanDone
  repeat' first
    | with_reducible exact Runs.refl _
    | with_reducible apply Answers.next
    | with_reducible apply Runs.aside (e := State.event_evolves _ _ _)
    | with_reducible apply Runs.aside (e := State.endTest_evolves _ _ _)
    | with_reducible apply Runs.aside (e := State.scanAll_evolves _ _)
    | with_reducible apply Runs.ite

theorem execMemStatClr_runs (same : List (Nat × Nat)) (s : State) : Answers s (execMemStatClr same s) :=
  Answers.next <| Runs.onHost _ _ fun t => (Runs.refl t).aside (t.memClr_evolves ..)

theorem execHeldBlockLoad_runs (op : HeldLoad) (s : State) :
    Answers s (execHeldBlockLoad op s) := by
  unfold execHeldBlockLoad
  repeat' first
    | with_reducible exact Runs.refl _
    | with_reducible apply Answers.next
    | with_reducible apply Runs.aside (e := State.portShare_evolves _ _ _ _)
    | with_reducible apply Runs.step (e := State.loadAlong_evolves _ _ _ _) (f := State.loadAlong_forms _ _ _ _)
    | with_reducible apply Runs.step (e := State.loadAcross_evolves _ _ _ _) (f := State.loadAcross_forms _ _ _ _)
    | with_reducible apply Runs.step (e := State.loadRotated_evolves _ _ _ _ _) (f := State.loadRotated_forms _ _ _ _ _)
    | with_reducible apply Runs.ite
    | split

theorem execHeldPass_runs (op : HeldPass) (s : State) : Answers s (execHeldPass op s) := by
  unfold execHeldPass
  refine Answers.next ?_
  with_reducible
    apply Runs.aside (e := State.countPass_evolves _ _ _ _ _ _ _ _ _)
    apply Runs.aside (e := State.portShare_evolves _ _ _ _)
  generalize hs0 : (if op.swapBank = true then _ else s : State) = s0
  have hbank : Runs s s0 := by
    rw [← hs0]
    refine Runs.ite _ (Runs.me (Runs.refl s) fun ⟨h1, h2, h3, h4, h5⟩ => ⟨h1, h2, h3, h4, ?_⟩) (Runs.refl s)
    exact storeWf_storeSet _ _ _ _ h5
  have htile {rows} (f) {rotated} : Runs s { s0 with me := { s0.me with
      tile := updateTile s0.me.tileSeed s0.me.tile (tileKey op.engine op.half op.firstRow 0) rows 64 f, rotated := rotated } } :=
    Runs.me hbank fun ⟨h1, h⟩ => ⟨updateTile_wf _ _ _ _ _ h1, h⟩
  refine Runs.ite _ ?_ ?_
  · with_reducible
      apply Runs.aside (e := State.chargeRuns_evolves _ _ _ _ _ _)
      apply Runs.aside (e := State.countWindows_evolves _ _ _ _)
      apply Runs.step (e := State.flagHalf_evolves _ _ _) (f := State.flagHalf_forms _ _ _)
      apply Runs.aside (e := State.tally_evolves _ _)
    exact htile _
  · with_reducible
      apply Runs.step (e := State.flagHalf_evolves _ _ _) (f := State.flagHalf_forms _ _ _)
      apply Runs.aside (e := State.tally_evolves _ _)
    exact htile _

theorem execGatheredPass_runs (op : GatheredPass) (s : State) : Answers s (execGatheredPass op s) := by
  have hacc (f) : Runs s { s with me := { s.me with
      acc := updateTile s.me.accSeed s.me.acc (accKey op.engine 0 0) op.rows 64 f } } :=
    Runs.me (Runs.refl s) fun ⟨h1, h2, h3⟩ => ⟨h1, updateTile_wf _ _ _ _ _ h2, h3⟩
  unfold execGatheredPass
  refine Answers.next ?_
  with_reducible
    apply Runs.aside (e := State.countPass_evolves _ _ _ _ _ _ _ _ _)
    apply Runs.aside (e := State.portShare_evolves _ _ _ _)
    apply Runs.aside (e := State.tally_evolves _ _)
  exact hacc _

theorem execGatheredDrain_runs (engine : Fin 512) (s : State) : Answers s (execGatheredDrain engine s) :=
  Answers.next <| Runs.me (Runs.refl s) fun ⟨h1, h2, h3, h4⟩ =>
    ⟨h1, clearRange_wf _ _ _ h2, copyRange_wf _ _ _ _ h3, h4⟩

theorem execMvProduct_runs (op : MvProduct) (s : State) : Answers s (execMvProduct op s) := by
  unfold execMvProduct
  refine Answers.next ?_
  with_reducible
    apply Runs.aside (e := State.portShare_evolves _ _ _ _)
    apply Runs.aside (e := State.bel64_evolves _ _ _)
    apply Runs.aside (e := State.bel64_evolves _ _ _)
    apply Runs.aside (e := State.bel64_evolves _ _ _)
    apply Runs.aside (e := State.count_evolves _ _ _ _)
    apply Runs.aside (e := State.tally_evolves _ _)
  refine Runs.me (Runs.refl s) fun ⟨h1, h2, h3, h4, h5⟩ => ⟨h1, h2, h3, ?_, h5⟩
  exact storeWf_foldl _ (fun _ _ hm => updateTile_wf _ _ _ _ _ hm) h4

theorem execMeTestStart_runs (s : State) : Answers s (execMeTestStart s) :=
  Answers.next <| Runs.onHost _ _ fun t => (Runs.refl t).aside (t.requestTest_evolves ..)

theorem execMeTestDone_runs (engines : List (Fin 512)) (paths : List (Fin 128)) (s : State) :
    Answers s (execMeTestDone engines paths s) := by
  unfold execMeTestDone
  repeat' first
    | with_reducible exact Runs.refl _
    | with_reducible apply Answers.next
    | with_reducible apply Runs.aside (e := State.setFld_evolves _ _ _ _ _)
    | with_reducible apply Runs.aside (e := State.event_evolves _ _ _)
    | with_reducible apply Runs.aside (e := State.endTest_evolves _ _ _)
    | with_reducible apply Runs.aside (e := State.failEngines_evolves _ _)
    | with_reducible apply Runs.aside (e := State.failPaths_evolves _ _)
    | with_reducible apply Runs.step (e := State.passEngines_evolves _) (f := State.passEngines_forms _)
    | with_reducible apply Runs.step (e := State.testStores_evolves _) (f := State.testStores_forms _)
    | with_reducible apply Runs.ite
    | split

theorem execMeStatClr_runs (same : List (Nat × Nat)) (s : State) : Answers s (execMeStatClr same s) :=
  Answers.next <| Runs.onHost _ _ fun t => (Runs.refl t).aside (t.meClr_evolves ..)

theorem execSegmentConversionDone_runs (ops : List ConvOp) (s : State) :
    Answers s (execSegmentConversionDone ops s) := by
  unfold execSegmentConversionDone
  repeat' first
    | with_reducible exact Runs.refl _
    | with_reducible apply Answers.next
    | with_reducible apply Runs.step (e := State.runJobs_evolves _ _ _) (f := State.runJobs_forms _ _ _)
    | with_reducible apply Runs.ite
    | split
    | dsimp only
    | with_reducible apply Runs.update
    | with_reducible exact And.intro rfl (And.intro rfl rfl)
    | with_reducible exact And.intro rfl (And.intro rfl (And.intro rfl (And.intro rfl rfl)))

theorem execFmtClr_runs (same : List (Nat × Nat)) (s : State) : Answers s (execFmtClr same s) :=
  Answers.next <| Runs.onHost _ _ fun t => (Runs.refl t).aside (t.fmtClr_evolves ..)

theorem execQntClr_runs (same : List (Nat × Nat)) (s : State) : Answers s (execQntClr same s) :=
  Answers.next <| Runs.onHost _ _ fun t => (Runs.refl t).aside (t.qntClr_evolves ..)

theorem execQntStatClr_runs (same : List (Nat × Nat)) (s : State) : Answers s (execQntStatClr same s) :=
  Answers.next <| Runs.onHost _ _ fun t => (Runs.refl t).aside (t.qntStatClr_evolves ..)

theorem execVectorChain_runs (core : Fin 128) (issue : VeIssue) (s : State) :
    Answers s (execVectorChain core issue s) :=
  Answers.next <| (Runs.refl s).step (s.issueWaiting_evolves ..) (s.issueWaiting_forms ..)

theorem execVeTestStart_runs (s : State) : Answers s (execVeTestStart s) :=
  Answers.next <| Runs.onHost _ _ fun t => (Runs.refl t).aside (t.requestTest_evolves ..)

theorem execVeTestDone_runs (failed : List (Fin 128)) (s : State) :
    Answers s (execVeTestDone failed s) := by
  unfold execVeTestDone
  repeat' first
    | with_reducible exact Runs.refl _
    | with_reducible apply Answers.next
    | with_reducible apply Runs.aside (e := State.setFld_evolves _ _ _ _ _)
    | with_reducible apply Runs.aside (e := State.event_evolves _ _ _)
    | with_reducible apply Runs.aside (e := State.endTest_evolves _ _ _)
    | with_reducible apply Runs.aside (e := State.failVectors_evolves _ _)
    | with_reducible apply Runs.ite
    | split

theorem execVeStatClr_runs (same : List (Nat × Nat)) (s : State) : Answers s (execVeStatClr same s) :=
  Answers.next <| Runs.onHost _ _ fun t => (Runs.refl t).aside (t.veClr_evolves ..)

theorem execVeFlagsClr_runs (same : List (Nat × Nat)) (s : State) : Answers s (execVeFlagsClr same s) :=
  Answers.next <| Runs.onHost _ _ fun t => (Runs.refl t).aside (t.veFlagsClr_evolves ..)

theorem execHbmWrite_runs (target : WriteTarget) (data : List Byte) (s : State) :
    Answers s (execHbmWrite target data s) :=
  Answers.next <| (Runs.refl s).step (s.hbmWrite_evolves ..) (s.hbmWrite_forms ..)

theorem execUpdateBlock_runs (unit : Fin 16) (tensor : Nat) (work : UpdWork) (s : State) :
    Answers s (execUpdateBlock unit tensor work s) := by
  unfold execUpdateBlock
  repeat' first
    | with_reducible exact Runs.refl _
    | with_reducible apply Answers.next
    | with_reducible apply Runs.step (e := State.workOrWait_evolves _ _ _ _ _) (f := State.workOrWait_forms _ _ _ _ _)
    | with_reducible apply Runs.ite
    | split

theorem execUpdStatClr_runs (same : List (Nat × Nat)) (s : State) : Answers s (execUpdStatClr same s) :=
  Answers.next <| Runs.onHost _ _ fun t => (Runs.refl t).aside (t.updClr_evolves ..)

theorem execTileDrain_runs (op : DrainOp) (s : State) :
    Answers s (execTileDrain op s) := by
  unfold execTileDrain
  repeat' first
    | with_reducible exact Runs.refl _
    | with_reducible apply Answers.next
    | with_reducible apply Runs.aside (e := State.nfTile_evolves _ _ _ _ _ _ _)
    | with_reducible apply Runs.step (e := State.clearSource_evolves _ _) (f := State.clearSource_forms _ _)
    | with_reducible apply Runs.step (e := State.deliverTile_evolves _ _ _ _) (f := State.deliverTile_forms _ _ _ _)
    | with_reducible apply Runs.ite
    | split

theorem execStileArm_runs (stile : Fin 131072) (s : State) :
    Answers s (execStileArm stile s) := by
  unfold execStileArm
  repeat' first
    | with_reducible exact Runs.refl _
    | with_reducible apply Answers.next
    | with_reducible apply Runs.aside (e := State.setStile_evolves _ _ _)
    | with_reducible apply Runs.aside (e := State.checkStile_evolves _ _)

theorem execStileArrive_runs (stile : Fin 131072) (generation : Nat) (s : State) :
    Answers s (execStileArrive stile generation s) := by
  unfold execStileArrive
  repeat' first
    | with_reducible exact Runs.refl _
    | with_reducible apply Answers.next
    | with_reducible apply Runs.aside (e := State.count_evolves _ _ _ _)
    | with_reducible apply Runs.aside (e := State.setStile_evolves _ _ _)
    | with_reducible apply Runs.aside (e := State.checkStile_evolves _ _)
    | with_reducible apply Runs.aside (e := State.overArrival_evolves _ _)
    | with_reducible apply Runs.aside (e := State.earlyArrival_evolves _ _)
    | with_reducible apply Runs.ite

theorem execStileWait_runs (stile : Fin 131072) (generation unit : Nat) (s : State) :
    Answers s (execStileWait stile generation unit s) := by
  unfold execStileWait
  repeat' first
    | with_reducible exact Runs.refl _
    | with_reducible apply Answers.next
    | with_reducible apply Runs.aside (e := State.send_evolves _ _)
    | with_reducible apply Runs.aside (e := State.setStile_evolves _ _ _)
    | with_reducible apply Runs.ite

theorem execChainAppend_runs (chain : Nat) (record : List Byte) (s : State) :
    Answers s (execChainAppend chain record s) := by
  unfold execChainAppend
  repeat' first
    | with_reducible exact Runs.refl _
    | with_reducible apply Answers.next
    | with_reducible apply Runs.aside (e := State.used_evolves _)
    | with_reducible apply Runs.step (e := State.devWrite_evolves _ _ _ _) (f := State.devWrite_forms _ _ _ _)
    | with_reducible apply Runs.aside (e := State.setPlot_evolves _ _ _)
    | with_reducible apply Runs.aside (e := State.chainFull_evolves _)
    | with_reducible apply Runs.ite
    | split

theorem execChainRead_runs (chain offset length : Nat) (s : State) : Answers s (execChainRead chain offset length s) :=
  Answers.next <| (Runs.refl s).aside (s.send_evolves ..)

theorem execStlStatClr_runs (same : List (Nat × Nat)) (s : State) : Answers s (execStlStatClr same s) :=
  Answers.next <| Runs.onHost _ _ fun t => (Runs.refl t).aside (t.stlClr_evolves ..)

theorem execPltStatClr_runs (same : List (Nat × Nat)) (s : State) : Answers s (execPltStatClr same s) :=
  Answers.next <| Runs.onHost _ _ fun t => (Runs.refl t).aside (t.pltClr_evolves ..)

theorem execCloisterBlockArrival_runs (op : BlockArrival) (s : State) :
    Answers s (execCloisterBlockArrival op s) := by
  unfold execCloisterBlockArrival
  repeat' first
    | with_reducible exact Runs.refl _
    | with_reducible apply Answers.next
    | with_reducible apply Runs.aside (e := State.count_evolves _ _ _ _)
    | with_reducible apply Runs.aside (e := State.bel64_evolves _ _ _)
    | with_reducible apply Runs.aside (e := State.cloFatal_evolves _ _ _ _)
    | with_reducible apply Runs.step (e := State.takeOne_evolves _ _ _) (f := State.takeOne_forms _ _ _)
    | with_reducible apply Runs.step (e := State.arrive_evolves _ _ _ _ _ _) (f := State.arrive_forms _ _ _ _ _ _)
    | with_reducible apply Runs.ite
    | split

theorem execBlockAddition_runs (op : BlockAdd) (s : State) :
    Answers s (execBlockAddition op s) := by
  unfold execBlockAddition
  repeat' first
    | with_reducible exact Runs.refl _
    | with_reducible apply Answers.next
    | with_reducible apply Runs.aside (e := State.cloFatal_evolves _ _ _ _)
    | with_reducible apply Runs.step (e := State.addBlocks_evolves _ _ _ _) (f := State.addBlocks_forms _ _ _ _)
    | with_reducible apply Runs.ite
    | split

theorem execClassSCombine_runs (red : SReduce) (differ : Bool) (slack : Nat) (s : State) :
    Answers s (execClassSCombine red differ slack s) := by
  unfold execClassSCombine
  repeat' first
    | with_reducible exact Runs.refl _
    | with_reducible apply Answers.next
    | with_reducible apply Runs.aside (e := State.cloFatal_evolves _ _ _ _)
    | with_reducible apply Runs.step (e := State.childVotes_evolves _ _) (f := State.childVotes_forms _ _)
    | with_reducible apply Runs.step (e := State.combineSum_evolves _ _ _ _) (f := State.combineSum_forms _ _ _ _)
    | with_reducible apply Runs.ite
    | split

theorem execClassSResult_runs (red : SReduce) (slack : Nat) (s : State) :
    Answers s (execClassSResult red slack s) := by
  unfold execClassSResult
  repeat' first
    | with_reducible exact Runs.refl _
    | with_reducible apply Answers.next
    | with_reducible apply Runs.step (e := State.sendDown_evolves _ _ _ _) (f := State.sendDown_forms _ _ _ _)
    | with_reducible apply Runs.step (e := State.sDone_evolves _ _ _ _ _) (f := State.sDone_forms _ _ _ _ _)
    | with_reducible apply Runs.step (e := State.sLate_evolves _ _ _) (f := State.sLate_forms _ _ _)
    | with_reducible apply Runs.ite
    | split

theorem execClassSDeadline_runs (red : SReduce) (s : State) :
    Answers s (execClassSDeadline red s) := by
  unfold execClassSDeadline
  repeat' first
    | with_reducible exact Runs.refl _
    | with_reducible apply Answers.next
    | with_reducible apply Runs.step (e := State.deadlineSum_evolves _ _ _) (f := State.deadlineSum_forms _ _ _)
    | with_reducible apply Runs.ite
    | split

theorem execStileTimeout_runs (stile : Fin 131072) (s : State) :
    Answers s (execStileTimeout stile s) := by
  unfold execStileTimeout
  repeat' first
    | with_reducible exact Runs.refl _
    | with_reducible apply Answers.next
    | with_reducible apply Runs.aside (e := State.count_evolves _ _ _ _)
    | with_reducible apply Runs.aside (e := State.event_evolves _ _ _)
    | with_reducible apply Runs.aside (e := State.ledgerFatal_evolves _ _ _)
    | with_reducible apply Runs.aside (e := State.stopReports_evolves _)
    | with_reducible apply Runs.step (e := State.deadlineSum_evolves _ _ _) (f := State.deadlineSum_forms _ _ _)
    | with_reducible apply Runs.ite
    | split

theorem execCloStatClr_runs (same : List (Nat × Nat)) (s : State) : Answers s (execCloStatClr same s) :=
  Answers.next <| Runs.onHost _ _ fun t => (Runs.refl t).aside (t.cloClr_evolves ..)

/-- A grant counts against the requesters passed over, in a canonical store. -/

theorem granted_passed_wf {a : Arbiter} (q : TrlReq) (es : List TrlReq) (w : Nat) (h : storeWf 0 a.passed = true) :
    storeWf 0 (granted a q es w).1.passed = true := by
  unfold granted passOver
  refine storeWf_foldl _ (fun _ _ => storeWf_storeSet _ _ _ _) (storeWf_storeSet _ _ _ _ ?_)
  split
  · exact h
  · exact h

theorem execDynamicArbitration_runs (router : Fin 16) (port : Fin 8) (eligible : List TrlReq) (reuse : Bool) (wait : Nat)
    (s : State) : Answers s (execDynamicArbitration router port eligible reuse wait s) := by
  unfold execDynamicArbitration
  dsimp only
  split
  · exact Answers.next (Runs.refl s)
  · next q _ =>
    refine Answers.next ?_
    generalize s.weight (s.arbiter (router.val * 8 + port.val)).cls = w
    generalize (eligible.filter fun q => !(s.tick.inMaint && heldClass q.cls)) = es
    have harb : Runs s { s with trl := { s.trl with
        arbs := storeSet {} s.trl.arbs (router.val * 8 + port.val) (granted (s.arbiter (router.val * 8 + port.val)) q es w).1 } } := by
      refine ⟨Evolves.trl s _ (by decide), id, ?_⟩
      rintro ⟨h1, h2, h3, h4, h5, h6, h7, h8, h9, harbs, hpassed⟩
      refine ⟨h1, h2, h3, h4, h5, h6, h7, h8, h9, storeWf_storeSet _ _ _ _ harbs, fun p hp => ?_⟩
      rcases mem_storeSet hp with rfl | hp
      · refine granted_passed_wf q es w ?_
        rcases storeGet_mem ({} : Arbiter) s.trl.arbs (router.val * 8 + port.val) with h0 | hmem
        · exact congrArg (fun a => storeWf 0 a.passed) h0
        · exact hpassed _ hmem
      · exact hpassed p hp
    have hcount := harb.aside (State.countGrant_evolves _ router port reuse wait (granted (s.arbiter (router.val * 8 + port.val)) q es w).2)
    exact Runs.ite _ ((hcount.aside (State.event_evolves ..)).aside (State.ledgerFatal_evolves ..)) hcount

theorem execSeamCrcFail_runs (die link : Fin 2) (again : Bool) (s : State) :
    Answers s (execSeamCrcFail die link again s) := by
  unfold execSeamCrcFail
  repeat' first
    | with_reducible exact Runs.refl _
    | with_reducible apply Answers.next
    | with_reducible apply Runs.aside (e := State.count_evolves _ _ _ _)
    | with_reducible apply Runs.aside (e := State.event_evolves _ _ _)
    | with_reducible apply Runs.aside (e := State.bel64_evolves _ _ _)
    | with_reducible apply Runs.aside (e := State.live_evolves _ _ _)
    | with_reducible apply Runs.aside (e := State.ledgerFatal_evolves _ _ _)
    | with_reducible apply Runs.aside (e := State.stopReports_evolves _)
    | with_reducible apply Runs.ite
    | split
    | dsimp only
    | with_reducible apply Runs.update
    | with_reducible exact And.intro rfl (And.intro rfl rfl)
    | with_reducible exact And.intro rfl (And.intro rfl (And.intro rfl (And.intro rfl rfl)))

theorem execTrlStatClr_runs (same : List (Nat × Nat)) (s : State) : Answers s (execTrlStatClr same s) :=
  Answers.next <| Runs.onHost _ _ fun t => (Runs.refl t).aside (t.trlClr_evolves ..)

theorem execEdgeTimeoutHalt_runs (s : State) :
    Answers s (execEdgeTimeoutHalt s) := by
  unfold execEdgeTimeoutHalt
  repeat' first
    | with_reducible exact Runs.refl _
    | with_reducible apply Answers.next
    | with_reducible apply Runs.step (e := State.halt_evolves _) (f := State.halt_forms _)
    | with_reducible apply Runs.ite

theorem execTickEdge_runs (late measured predicted : Nat) (s : State) :
    Answers s (execTickEdge late measured predicted s) := by
  unfold execTickEdge
  repeat' first
    | with_reducible exact Runs.refl _
    | with_reducible apply Answers.next
    | with_reducible apply Runs.step (e := State.edge_evolves _ _ _ _ _ _) (f := State.edge_forms _ _ _ _ _ _)
    | with_reducible apply Runs.ite
    | split

theorem execStitchDone_runs (cycle : Nat) (s : State) :
    Answers s (execStitchDone cycle s) := by
  unfold execStitchDone
  repeat' first
    | with_reducible exact Runs.refl _
    | with_reducible apply Answers.next
    | with_reducible apply Runs.aside (e := State.minReg_evolves _ _ _)
    | with_reducible apply Runs.aside (e := State.traceBoth_evolves _ _ _)
    | with_reducible apply Runs.aside (e := State.sendReport_evolves _)
    | with_reducible apply Runs.ite
    | split
    | dsimp only
    | with_reducible apply Runs.update
    | with_reducible exact And.intro rfl (And.intro rfl rfl)
    | with_reducible exact And.intro rfl (And.intro rfl (And.intro rfl (And.intro rfl rfl)))

theorem execStitchOverrun_runs (past : Nat) (s : State) :
    Answers s (execStitchOverrun past s) := by
  unfold execStitchOverrun
  repeat' first
    | with_reducible exact Runs.refl _
    | with_reducible apply Answers.next
    | with_reducible apply Runs.aside (e := State.minReg_evolves _ _ _)
    | with_reducible apply Runs.aside (e := State.event_evolves _ _ _)
    | with_reducible apply Runs.aside (e := State.ledgerEvent_evolves _ _ _ _ _ _)
    | with_reducible apply Runs.ite
    | split
    | dsimp only
    | with_reducible apply Runs.update
    | with_reducible exact And.intro rfl (And.intro rfl rfl)
    | with_reducible exact And.intro rfl (And.intro rfl (And.intro rfl (And.intro rfl rfl)))

theorem execMaintenanceSlot_runs (temps : List Nat) (bad : List (Fin 256)) (s : State) :
    Answers s (execMaintenanceSlot temps bad s) := by
  unfold execMaintenanceSlot
  repeat' first
    | with_reducible exact Runs.refl _
    | with_reducible apply Answers.next
    | with_reducible apply Runs.step (e := State.maintWork_evolves _ _ _) (f := State.maintWork_forms _ _ _)
    | with_reducible apply Runs.step (e := State.maintMoved_evolves _ _ _) (f := State.maintMoved_forms _ _ _)
    | with_reducible apply Runs.ite
    | split
    | dsimp only
    | with_reducible apply Runs.update
    | with_reducible exact And.intro rfl (And.intro rfl rfl)
    | with_reducible exact And.intro rfl (And.intro rfl (And.intro rfl (And.intro rfl rfl)))

theorem execTickClrStats_runs (same : List (Nat × Nat)) (s : State) : Answers s (execTickClrStats same s) :=
  Answers.next <| Runs.onHost _ _ fun t => (Runs.refl t).aside (t.tickClr_evolves ..)

theorem execTicketDoorbell_runs (s : State) : Answers s (execTicketDoorbell s) :=
  Answers.next <| Runs.onHost _ _ fun t => (Runs.refl t).aside (t.doorbell_evolves ..)

theorem execTicketDecision_runs (s : State) :
    Answers s (execTicketDecision s) := by
  unfold execTicketDecision
  repeat' first
    | with_reducible exact Runs.refl _
    | with_reducible apply Answers.next
    | with_reducible apply Runs.aside (e := State.answer_evolves _ _ _ _ _)
    | with_reducible apply Runs.ite
    | split
    | dsimp only
    | with_reducible apply Runs.update
    | with_reducible exact And.intro rfl (And.intro rfl rfl)
    | with_reducible exact And.intro rfl (And.intro rfl (And.intro rfl (And.intro rfl rfl)))

theorem execAdmDonePop_runs (s : State) : Answers s (execAdmDonePop s) :=
  Answers.next <| Runs.onHost _ _ fun t => (Runs.refl t).aside (t.donePop_evolves ..)

theorem execDeferredRequestStart_runs (s : State) :
    Answers s (execDeferredRequestStart s) := by
  unfold execDeferredRequestStart
  repeat' first
    | with_reducible exact Runs.refl _
    | with_reducible apply Answers.next
    | with_reducible apply Runs.aside (e := State.startHeld_evolves _ _)
    | with_reducible apply Runs.ite
    | split
    | dsimp only
    | with_reducible apply Runs.update
    | with_reducible exact And.intro rfl (And.intro rfl rfl)
    | with_reducible exact And.intro rfl (And.intro rfl (And.intro rfl (And.intro rfl rfl)))

theorem execCommitVote_runs (s : State) :
    Answers s (execCommitVote s) := by
  unfold execCommitVote
  repeat' first
    | with_reducible exact Runs.refl _
    | with_reducible apply Answers.next
    | with_reducible apply Runs.aside (e := State.stopReports_evolves _)
    | with_reducible apply Runs.aside (e := State.complete_evolves _ _)
    | with_reducible apply Runs.step (e := State.castVote_evolves _ _) (f := State.castVote_forms _ _)
    | with_reducible apply Runs.ite
    | split

theorem execCommitDecide_runs (s : State) :
    Answers s (execCommitDecide s) := by
  unfold execCommitDecide
  repeat' first
    | with_reducible exact Runs.refl _
    | with_reducible apply Answers.next
    | with_reducible apply Runs.aside (e := State.holdDecision_evolves _ _)
    | with_reducible apply Runs.ite
    | split

theorem execVoteDeadline_runs (s : State) :
    Answers s (execVoteDeadline s) := by
  unfold execVoteDeadline
  repeat' first
    | with_reducible exact Runs.refl _
    | with_reducible apply Answers.next
    | with_reducible apply Runs.aside (e := State.holdDecision_evolves _ _)
    | with_reducible apply Runs.ite

theorem execCommitDecisionReceive_runs (d : Decision) (s : State) :
    Answers s (execCommitDecisionReceive d s) := by
  unfold execCommitDecisionReceive
  repeat' first
    | with_reducible exact Runs.refl _
    | with_reducible apply Answers.next
    | with_reducible apply Runs.aside (e := State.holdDecision_evolves _ _)
    | with_reducible apply Runs.ite

theorem execCommitRelease_runs (s : State) : Answers s (execCommitRelease s) :=
  Answers.next <| (Runs.refl s).step (s.commitRelease_evolves ..) (s.commitRelease_forms ..)

theorem execLateCommit_runs (s : State) : Answers s (execLateCommit s) :=
  Answers.next <| Runs.onHost _ _ fun t => (Runs.refl t).aside (t.lateCommit_evolves ..)

theorem execKeep_runs (s : State) : Answers s (execKeep s) :=
  Answers.next <| Runs.onHost _ _ fun t => (Runs.refl t).aside (t.keep_evolves ..)

theorem execAdopt_runs (s : State) : Answers s (execAdopt s) :=
  Answers.next <| Runs.onHost _ _ fun t => (Runs.refl t).aside (t.adopt_evolves ..)

theorem execLoad_runs (s : State) : Answers s (execLoad s) :=
  Answers.next <| Runs.onHost _ _ fun t => (Runs.refl t).step (t.load_evolves ..) (t.load_forms ..)

theorem execImageFetchDone_runs (file : ImageFile) (s : State) :
    Answers s (execImageFetchDone file s) := by
  unfold execImageFetchDone
  repeat' first
    | with_reducible exact Runs.refl _
    | with_reducible apply Answers.next
    | with_reducible apply Runs.aside (e := State.setRegN_evolves _ _ _)
    | with_reducible apply Runs.step (e := State.devWrite_evolves _ _ _ _) (f := State.devWrite_forms _ _ _ _)
    | with_reducible apply Runs.ite
    | split
    | dsimp only
    | with_reducible apply Runs.update
    | with_reducible exact And.intro rfl (And.intro rfl rfl)
    | with_reducible exact And.intro rfl (And.intro rfl (And.intro rfl (And.intro rfl rfl)))

theorem execImageFetchDmaError_runs (bytes : Nat) (s : State) :
    Answers s (execImageFetchDmaError bytes s) := by
  unfold execImageFetchDmaError
  repeat' first
    | with_reducible exact Runs.refl _
    | with_reducible apply Answers.next
    | with_reducible apply Runs.aside (e := State.setRegN_evolves _ _ _)
    | with_reducible apply Runs.step (e := State.loadFail_evolves _ _ _) (f := State.loadFail_forms _ _ _)
    | with_reducible apply Runs.ite

theorem execImageChecksDone_runs (s : State) :
    Answers s (execImageChecksDone s) := by
  unfold execImageChecksDone
  repeat' first
    | with_reducible exact Runs.refl _
    | with_reducible apply Answers.next
    | with_reducible apply Runs.step (e := State.loadFail_evolves _ _ _) (f := State.loadFail_forms _ _ _)
    | with_reducible apply Runs.step (e := State.loaded_evolves _ _) (f := State.loaded_forms _ _)
    | with_reducible apply Runs.aside (e := State.errOffset_evolves _ _)
    | with_reducible apply Runs.ite
    | split

theorem execStart_runs (s : State) : Answers s (execStart s) :=
  Answers.next <| Runs.onHost _ _ fun t => (Runs.refl t).step (t.start_evolves ..) (t.start_forms ..)

theorem execStartExchangeReply_runs (peer : Nat) (reply : ExchangeMsg) (s : State) :
    Answers s (execStartExchangeReply peer reply s) := by
  unfold execStartExchangeReply
  repeat' first
    | with_reducible exact Runs.refl _
    | with_reducible apply Answers.next
    | with_reducible apply Runs.aside (e := State.comparePeer_evolves _ _ _ _)
    | with_reducible apply Runs.step (e := State.progressStart_evolves _) (f := State.progressStart_forms _)
    | with_reducible apply Runs.aside (e := State.startFail_evolves _ _)
    | with_reducible apply Runs.ite
    | split
    | dsimp only
    | with_reducible apply Runs.update
    | with_reducible exact And.intro rfl (And.intro rfl rfl)
    | with_reducible exact And.intro rfl (And.intro rfl (And.intro rfl (And.intro rfl rfl)))

theorem execStartMessageUp_runs (child covered : Nat) (s : State) :
    Answers s (execStartMessageUp child covered s) := by
  unfold execStartMessageUp
  repeat' first
    | with_reducible exact Runs.refl _
    | with_reducible apply Answers.next
    | with_reducible apply Runs.step (e := State.loaded_evolves _ _) (f := State.loaded_forms _ _)
    | with_reducible apply Runs.step (e := State.progressStart_evolves _) (f := State.progressStart_forms _)
    | with_reducible apply Runs.ite
    | split
    | dsimp only
    | with_reducible apply Runs.update
    | with_reducible exact And.intro rfl (And.intro rfl rfl)
    | with_reducible exact And.intro rfl (And.intro rfl (And.intro rfl (And.intro rfl rfl)))

theorem execStartMessageDown_runs (s : State) :
    Answers s (execStartMessageDown s) := by
  unfold execStartMessageDown
  repeat' first
    | with_reducible exact Runs.refl _
    | with_reducible apply Answers.next
    | with_reducible apply Runs.aside (e := State.sendStartDown_evolves _ _)
    | with_reducible apply Runs.step (e := State.openTickZero_evolves _) (f := State.openTickZero_forms _)
    | with_reducible apply Runs.ite
    | split

theorem execStartTimeout_runs (s : State) :
    Answers s (execStartTimeout s) := by
  unfold execStartTimeout
  repeat' first
    | with_reducible exact Runs.refl _
    | with_reducible apply Answers.next
    | with_reducible apply Runs.aside (e := State.event_evolves _ _ _)
    | with_reducible apply Runs.aside (e := State.startFail_evolves _ _)
    | with_reducible apply Runs.ite

theorem execUnload_runs (s : State) : Answers s (execUnload s) :=
  Answers.next <| Runs.onHost _ _ fun t => (Runs.refl t).step (t.unload_evolves ..) (t.unload_forms ..)

theorem execAbort_runs (s : State) : Answers s (execAbort s) :=
  Answers.next <| Runs.onHost _ _ fun t => (Runs.refl t).step (t.abort_evolves ..) (t.abort_forms ..)

theorem execImageRetire_runs (s : State) :
    Answers s (execImageRetire s) := by
  unfold execImageRetire
  repeat' first
    | with_reducible exact Runs.refl _
    | with_reducible apply Answers.next
    | with_reducible apply Runs.aside (e := State.event_evolves _ _ _)
    | with_reducible apply Runs.step (e := State.copyMap_evolves _) (f := State.copyMap_forms _)
    | with_reducible apply Runs.step (e := State.unthrottle_evolves _) (f := State.unthrottle_forms _)
    | with_reducible apply Runs.step (e := State.loaded_evolves _ _) (f := State.loaded_forms _ _)
    | with_reducible apply Runs.ite
    | split
    | dsimp only
    | with_reducible apply Runs.update
    | with_reducible exact And.intro rfl (And.intro rfl rfl)
    | with_reducible exact And.intro rfl (And.intro rfl (And.intro rfl (And.intro rfl rfl)))

theorem execImageRecheckDone_runs (s : State) :
    Answers s (execImageRecheckDone s) := by
  unfold execImageRecheckDone
  repeat' first
    | with_reducible exact Runs.refl _
    | with_reducible apply Answers.next
    | with_reducible apply Runs.aside (e := State.imageError_evolves _ _ _)
    | with_reducible apply Runs.step (e := State.toEmpty_evolves _) (f := State.toEmpty_forms _)
    | with_reducible apply Runs.ite
    | split
    | dsimp only
    | with_reducible apply Runs.update
    | with_reducible exact And.intro rfl (And.intro rfl rfl)
    | with_reducible exact And.intro rfl (And.intro rfl (And.intro rfl (And.intro rfl rfl)))

theorem execDescriptorStart_runs (engine : Fin 8) (d : Descriptor) (s : State) :
    Answers s (execDescriptorStart engine d s) := by
  unfold execDescriptorStart
  repeat' first
    | with_reducible exact Runs.refl _
    | with_reducible apply Answers.next
    | with_reducible apply Runs.aside (e := State.send_evolves _ _)
    | with_reducible apply Runs.aside (e := State.setFlights_evolves _ _ _)
    | with_reducible apply Runs.ite

theorem execDescriptorDone_runs (engine : Fin 8) (tag : Nat) (data : List Byte) (s : State) :
    Answers s (execDescriptorDone engine tag data s) := by
  unfold execDescriptorDone
  repeat' first
    | with_reducible exact Runs.refl _
    | with_reducible apply Answers.next
    | with_reducible apply Runs.step (e := State.moveBytes_evolves _ _ _ _ _) (f := State.moveBytes_forms _ _ _ _ _)
    | with_reducible apply Runs.aside (e := State.flushStatus_evolves _ _ _)
    | with_reducible apply Runs.ite
    | split

theorem execDmaEnable_runs (engine : Fin 8) (ctrl : Word) (s : State) : Answers s (execDmaEnable engine ctrl s) :=
  Answers.next <| Runs.onHost _ _ fun t => (Runs.refl t).aside (t.dmaEnable_evolves ..)

theorem execDmaDisable_runs (engine : Fin 8) (moved : List (Fin 8 × Nat × List Byte)) (s : State) :
    Answers s (execDmaDisable engine moved s) :=
  Answers.next <| Runs.onHost _ _ fun t => (Runs.refl t).step (t.dmaDisable_evolves ..) (t.dmaDisable_forms ..)

theorem execDmaTailWrite_runs (engine : Fin 8) (index : Word) (s : State) :
    Answers s (execDmaTailWrite engine index s) :=
  Answers.next <| Runs.onHost _ _ fun t => (Runs.refl t).aside (t.dmaTail_evolves ..)

theorem execCompletionTimeout_runs (engine : Fin 8) (tag : Nat) (hostEnd : DmaHostEnd) (s : State) :
    Answers s (execCompletionTimeout engine tag hostEnd s) := by
  unfold execCompletionTimeout
  repeat' first
    | with_reducible exact Runs.refl _
    | with_reducible apply Answers.next
    | with_reducible apply Runs.aside (e := State.send_evolves _ _)
    | with_reducible apply Runs.aside (e := State.toHost_evolves _ _)
    | with_reducible apply Runs.aside (e := State.setFlights_evolves _ _ _)

theorem execBar2Read_runs (offset length : Nat) (s : State) :
    Answers s (execBar2Read offset length s) := by
  unfold execBar2Read
  repeat' first
    | with_reducible exact Runs.refl _
    | with_reducible apply Answers.next
    | with_reducible apply Runs.aside (e := State.send_evolves _ _)
    | with_reducible apply Runs.trans (g := Runs.onHost _ _ fun _ => ?_)
    | with_reducible apply Runs.aside (e := State.windowRead_evolves _ _ _)
    | with_reducible apply Runs.ite

theorem execBar2Write_runs (offset : Nat) (data : List Byte) (s : State) :
    Answers s (execBar2Write offset data s) := by
  unfold execBar2Write
  repeat' first
    | with_reducible exact Runs.refl _
    | with_reducible apply Answers.next
    | with_reducible apply Runs.aside (e := State.send_evolves _ _)
    | with_reducible apply Runs.trans (g := Runs.onHost _ _ fun _ => ?_)
    | with_reducible apply Runs.step (e := State.windowWrite_evolves _ _ _) (f := State.windowWrite_forms _ _ _)
    | with_reducible apply Runs.ite

theorem execPciWinBaseWrite_runs (value : DWord) (s : State) : Answers s (execPciWinBaseWrite value s) :=
  Answers.next <| Runs.onHost _ _ fun t => (Runs.refl t).aside (t.winBase_evolves ..)

theorem execMsixCoalesceEnd_runs (vector : Fin 32) (s : State) :
    Answers s (execMsixCoalesceEnd vector s) := by
  unfold execMsixCoalesceEnd
  repeat' first
    | with_reducible exact Runs.refl _
    | with_reducible apply Answers.next
    | with_reducible apply Runs.aside (e := State.setVec_evolves _ _ _)
    | with_reducible apply Runs.aside (e := State.fire_evolves _ _)
    | with_reducible apply Runs.ite

theorem execMsixUnmask_runs (vector : Fin 32) (s : State) : Answers s (execMsixUnmask vector s) :=
  Answers.next <| Runs.onHost _ _ fun t => (Runs.refl t).aside (t.unmask_evolves ..)

theorem execQueueEnable_runs (ctrl : Word) (s : State) : Answers s (execQueueEnable ctrl s) :=
  Answers.next <| Runs.onHost _ _ fun t => (Runs.refl t).aside (t.queueEnable_evolves ..)

theorem execQueueDisable_runs (s : State) : Answers s (execQueueDisable s) :=
  Answers.next <| Runs.onHost _ _ fun t => (Runs.refl t).aside (t.queueDisable_evolves ..)

theorem execQueueDrainDone_runs (s : State) :
    Answers s (execQueueDrainDone s) := by
  unfold execQueueDrainDone
  repeat' first
    | with_reducible exact Runs.refl _
    | with_reducible apply Answers.next
    | with_reducible apply Runs.aside (e := State.setBit_evolves _ _ _ _)
    | with_reducible apply Runs.ite

theorem execTqTailWrite_runs (index : Word) (s : State) : Answers s (execTqTailWrite index s) :=
  Answers.next <| Runs.onHost _ _ fun t => (Runs.refl t).aside (t.tqTail_evolves ..)

theorem execTicketFetch_runs (t : Ticket) (s : State) :
    Answers s (execTicketFetch t s) := by
  unfold execTicketFetch
  repeat' first
    | with_reducible exact Runs.refl _
    | with_reducible apply Answers.next
    | with_reducible apply Runs.aside (e := State.setRegN_evolves _ _ _)
    | with_reducible apply Runs.aside (e := State.send_evolves _ _)
    | with_reducible apply Runs.aside (e := State.doorbell_evolves _ _ _)
    | with_reducible apply Runs.ite
    | split
    | dsimp only
    | with_reducible apply Runs.update
    | with_reducible exact And.intro rfl (And.intro rfl rfl)
    | with_reducible exact And.intro rfl (And.intro rfl (And.intro rfl (And.intro rfl rfl)))

theorem execAqHeadWrite_runs (index : Word) (s : State) : Answers s (execAqHeadWrite index s) :=
  Answers.next <| Runs.onHost _ _ fun t => (Runs.refl t).aside (t.aqHead_evolves ..)

theorem execCqHeadWrite_runs (index : Word) (s : State) : Answers s (execCqHeadWrite index s) :=
  Answers.next <| Runs.onHost _ _ fun t => (Runs.refl t).aside (t.cqHead_evolves ..)

theorem execLinkUp_runs (speed width : Nat) (flit : Bool) (s : State) :
    Answers s (execLinkUp speed width flit s) := by
  unfold execLinkUp
  repeat' first
    | with_reducible exact Runs.refl _
    | with_reducible apply Answers.next
    | with_reducible apply Runs.aside (e := State.linkRise_evolves _ _ _ _)
    | with_reducible apply Runs.ite

theorem execLinkDown_runs (moved : List (Fin 8 × Nat × List Byte)) (s : State) :
    Answers s (execLinkDown moved s) := by
  unfold execLinkDown
  repeat' first
    | with_reducible exact Runs.refl _
    | with_reducible apply Answers.next
    | with_reducible apply Runs.aside (e := State.setReg_evolves _ _ _)
    | with_reducible apply Runs.aside (e := State.event_evolves _ _ _)
    | with_reducible apply Runs.trans (g := Runs.eachPort _ _ _ fun _ _ => ?_)
    | with_reducible apply Runs.step (e := State.engineLoss_evolves _ _ _) (f := State.engineLoss_forms _ _ _)
    | with_reducible apply Runs.ite

theorem execHostSideReset_runs (kind : ResetKind) (moved : List (Fin 8 × Nat × List Byte)) (s : State) :
    Answers s (execHostSideReset kind moved s) := by
  unfold execHostSideReset
  repeat' first
    | with_reducible exact Runs.refl _
    | with_reducible apply Answers.next
    | with_reducible apply Runs.aside (e := State.setReg_evolves _ _ _)
    | with_reducible apply Runs.step (e := State.hostReset_evolves _ _ _) (f := State.hostReset_forms _ _ _)
    | with_reducible apply Runs.ite
    | split
    | dsimp only
    | with_reducible apply Runs.update
    | with_reducible exact And.intro rfl (And.intro rfl rfl)
    | with_reducible exact And.intro rfl (And.intro rfl (And.intro rfl (And.intro rfl rfl)))

theorem execHostResetAfterCommit_runs (moved : List (Fin 8 × Nat × List Byte)) (s : State) :
    Answers s (execHostResetAfterCommit moved s) := by
  unfold execHostResetAfterCommit
  repeat' first
    | with_reducible exact Runs.refl _
    | with_reducible apply Answers.next
    | with_reducible apply Runs.step (e := State.commitRelease_evolves _) (f := State.commitRelease_forms _)
    | with_reducible apply Runs.step (e := State.hostReset_evolves _ _ _) (f := State.hostReset_forms _ _ _)
    | with_reducible apply Runs.ite
    | split

theorem execPerstDeassert_runs (s : State) :
    Answers s (execPerstDeassert s) := by
  unfold execPerstDeassert
  repeat' first
    | with_reducible exact Runs.refl _
    | with_reducible apply Answers.next
    | with_reducible apply Runs.step (e := State.wakeEvent_evolves _ _ _) (f := State.wakeEvent_forms _ _ _)
    | with_reducible apply Runs.ite
    | split
    | dsimp only
    | with_reducible apply Runs.update
    | with_reducible exact And.intro rfl (And.intro rfl rfl)
    | with_reducible exact And.intro rfl (And.intro rfl (And.intro rfl (And.intro rfl rfl)))

theorem execPoisonedTlp_runs (s : State) :
    Answers s (execPoisonedTlp s) := by
  unfold execPoisonedTlp
  repeat' first
    | with_reducible exact Runs.refl _
    | with_reducible apply Answers.next
    | with_reducible apply Runs.aside (e := State.send_evolves _ _)
    | with_reducible apply Runs.aside (e := State.event_evolves _ _ _)
    | with_reducible apply Runs.trans (g := Runs.onHost _ _ fun _ => ?_)

theorem execMalformedTlp_runs (s : State) :
    Answers s (execMalformedTlp s) := by
  unfold execMalformedTlp
  repeat' first
    | with_reducible exact Runs.refl _
    | with_reducible apply Answers.next
    | with_reducible apply Runs.aside (e := State.send_evolves _ _)
    | with_reducible apply Runs.ite

theorem execCorrectableLinkError_runs (s : State) :
    Answers s (execCorrectableLinkError s) := by
  unfold execCorrectableLinkError
  repeat' first
    | with_reducible exact Runs.refl _
    | with_reducible apply Answers.next
    | with_reducible apply Runs.aside (e := State.count_evolves _ _ _ _)
    | with_reducible apply Runs.aside (e := State.send_evolves _ _)
    | with_reducible apply Runs.ite

theorem execUnsupportedRequest_runs (s : State) :
    Answers s (execUnsupportedRequest s) := by
  unfold execUnsupportedRequest
  repeat' first
    | with_reducible exact Runs.refl _
    | with_reducible apply Answers.next
    | with_reducible apply Runs.aside (e := State.send_evolves _ _)
    | with_reducible apply Runs.ite

theorem execD3hotWrite_runs (s : State) :
    Answers s (execD3hotWrite s) := by
  unfold execD3hotWrite
  repeat' first
    | with_reducible exact Runs.refl _
    | with_reducible apply Answers.next
    | with_reducible apply Runs.aside (e := State.requestEntry_evolves _ _)
    | with_reducible apply Runs.ite
    | split
    | dsimp only
    | with_reducible apply Runs.update
    | with_reducible exact And.intro rfl (And.intro rfl rfl)
    | with_reducible exact And.intro rfl (And.intro rfl (And.intro rfl (And.intro rfl rfl)))

theorem execD0Write_runs (s : State) :
    Answers s (execD0Write s) := by
  unfold execD0Write
  repeat' first
    | with_reducible exact Runs.refl _
    | with_reducible apply Answers.next
    | with_reducible apply Runs.step (e := State.wakeEvent_evolves _ _ _) (f := State.wakeEvent_forms _ _ _)
    | with_reducible apply Runs.aside (e := State.leaveA1_evolves _)
    | with_reducible apply Runs.ite
    | split
    | dsimp only
    | with_reducible apply Runs.update
    | with_reducible exact And.intro rfl (And.intro rfl rfl)
    | with_reducible exact And.intro rfl (And.intro rfl (And.intro rfl (And.intro rfl rfl)))

theorem execD3hotDeferredEntry_runs (s : State) :
    Answers s (execD3hotDeferredEntry s) := by
  unfold execD3hotDeferredEntry
  repeat' first
    | with_reducible exact Runs.refl _
    | with_reducible apply Answers.next
    | with_reducible apply Runs.aside (e := State.beginEntry_evolves _ _)
    | with_reducible apply Runs.ite
    | split
    | dsimp only
    | with_reducible apply Runs.update
    | with_reducible exact And.intro rfl (And.intro rfl rfl)
    | with_reducible exact And.intro rfl (And.intro rfl (And.intro rfl (And.intro rfl rfl)))

theorem execConfigurationRequest_runs (req : CfgReq) (s : State) :
    Answers s (execConfigurationRequest req s) := by
  unfold execConfigurationRequest
  repeat' first
    | with_reducible exact Runs.refl _
    | with_reducible apply Answers.next
    | with_reducible apply Runs.aside (e := State.send_evolves _ _)
    | with_reducible apply Runs.aside (e := State.leaveA1_evolves _)
    | with_reducible apply Runs.aside (e := State.configAct_evolves _ _)
    | with_reducible apply Runs.ite

theorem execDoeDiscovery_runs (index length : Nat) (s : State) :
    Answers s (execDoeDiscovery index length s) := by
  unfold execDoeDiscovery
  repeat' first
    | with_reducible exact Runs.refl _
    | with_reducible apply Answers.next
    | with_reducible apply Runs.aside (e := State.doeAnswer_evolves _ _)
    | with_reducible apply Runs.trans (g := Runs.onDoe _ _ fun _ => ?_)
    | with_reducible apply Runs.ite
    | split
    | dsimp only
    | with_reducible apply Runs.update
    | with_reducible exact And.intro rfl (And.intro rfl rfl)
    | with_reducible exact And.intro rfl (And.intro rfl (And.intro rfl (And.intro rfl rfl)))

theorem execDoeAbort_runs (s : State) :
    Answers s (execDoeAbort s) := by
  unfold execDoeAbort
  repeat' first
    | with_reducible exact Runs.refl _
    | with_reducible apply Answers.next
    | with_reducible apply Runs.ite
    | split
    | dsimp only
    | with_reducible apply Runs.update
    | with_reducible exact And.intro rfl (And.intro rfl rfl)
    | with_reducible exact And.intro rfl (And.intro rfl (And.intro rfl (And.intro rfl rfl)))

theorem execPciStatClr_runs (same : List (Nat × Nat)) (s : State) : Answers s (execPciStatClr same s) :=
  Answers.next <| Runs.onHost _ _ fun t => (Runs.refl t).aside (t.pciClr_evolves ..)

theorem execPowerControlPeriod_runs (junctions : List Nat) (s : State) :
    Answers s (execPowerControlPeriod junctions s) := by
  unfold execPowerControlPeriod
  repeat' first
    | with_reducible exact Runs.refl _
    | with_reducible apply Answers.next
    | with_reducible apply Runs.aside (e := State.countSteps_evolves _ _)
    | with_reducible apply Runs.ite
    | split
    | dsimp only
    | with_reducible apply Runs.update
    | with_reducible exact And.intro rfl (And.intro rfl rfl)
    | with_reducible exact And.intro rfl (And.intro rfl (And.intro rfl (And.intro rfl rfl)))

theorem execDroopTrip_runs (core : Fin 128) (s : State) :
    Answers s (execDroopTrip core s) := by
  unfold execDroopTrip
  repeat' first
    | with_reducible exact Runs.refl _
    | with_reducible apply Answers.next
    | with_reducible apply Runs.aside (e := State.live_evolves _ _ _)
    | with_reducible apply Runs.ite
    | split
    | dsimp only
    | with_reducible apply Runs.update
    | with_reducible exact And.intro rfl (And.intro rfl rfl)
    | with_reducible exact And.intro rfl (And.intro rfl (And.intro rfl (And.intro rfl rfl)))

theorem execDroopRelease_runs (core : Fin 128) (cycles : Nat) (s : State) :
    Answers s (execDroopRelease core cycles s) := by
  unfold execDroopRelease
  repeat' first
    | with_reducible exact Runs.refl _
    | with_reducible apply Answers.next
    | with_reducible apply Runs.aside (e := State.live_evolves _ _ _)
    | with_reducible apply Runs.ite
    | split
    | dsimp only
    | with_reducible apply Runs.update
    | with_reducible exact And.intro rfl (And.intro rfl rfl)
    | with_reducible exact And.intro rfl (And.intro rfl (And.intro rfl (And.intro rfl rfl)))

theorem execCapWrite_runs (value : Word) (s : State) : Answers s (execCapWrite value s) :=
  Answers.next <| Runs.onHost _ _ fun t => (Runs.refl t).aside (t.capWrite_evolves ..)

theorem execAckStale_runs (s : State) : Answers s (execAckStale s) :=
  Answers.next <| Runs.onHost _ _ fun t => (Runs.refl t).aside (t.ackStale_evolves ..)

theorem execTargetA0_runs (s : State) : Answers s (execTargetA0 s) :=
  Answers.next <| Runs.onLodge _ _ fun t => (Runs.refl t).step (t.targetA0_evolves ..) (t.targetA0_forms ..)

theorem execTargetA1_runs (s : State) : Answers s (execTargetA1 s) :=
  Answers.next <| Runs.onLodge _ _ fun t => (Runs.refl t).aside (t.requestEntry_evolves ..)

theorem execTargetA2_runs (s : State) : Answers s (execTargetA2 s) :=
  Answers.next <| Runs.onLodge _ _ fun t => (Runs.refl t).aside (t.requestEntry_evolves ..)

theorem execMgmtEnterA2_runs (s : State) : Answers s (execMgmtEnterA2 s) :=
  Answers.next <| Runs.onMgmt _ _ fun t => (Runs.refl t).aside (t.requestEntry_evolves ..)

theorem execMgmtEnterA3_runs (s : State) : Answers s (execMgmtEnterA3 s) :=
  Answers.next <| Runs.onMgmt _ _ fun t => (Runs.refl t).aside (t.requestEntry_evolves ..)

theorem execMgmtWake_runs (s : State) : Answers s (execMgmtWake s) :=
  Answers.next <| Runs.onMgmt _ _ fun t => (Runs.refl t).step (t.wakeEvent_evolves ..) (t.wakeEvent_forms ..)

theorem execA1AutoEntry_runs (s : State) :
    Answers s (execA1AutoEntry s) := by
  unfold execA1AutoEntry
  repeat' first
    | with_reducible exact Runs.refl _
    | with_reducible apply Answers.next
    | with_reducible apply Runs.aside (e := State.beginEntry_evolves _ _)
    | with_reducible apply Runs.ite

theorem execA1ReturnRequest_runs (s : State) :
    Answers s (execA1ReturnRequest s) := by
  unfold execA1ReturnRequest
  repeat' first
    | with_reducible exact Runs.refl _
    | with_reducible apply Answers.next
    | with_reducible apply Runs.aside (e := State.leaveA1_evolves _)
    | with_reducible apply Runs.ite

theorem execEntryDone_runs (s : State) :
    Answers s (execEntryDone s) := by
  unfold execEntryDone
  repeat' first
    | with_reducible exact Runs.refl _
    | with_reducible apply Answers.next
    | with_reducible apply Runs.step (e := State.reachState_evolves _ _) (f := State.reachState_forms _ _)
    | with_reducible apply Runs.step (e := State.afterEntry_evolves _) (f := State.afterEntry_forms _)
    | with_reducible apply Runs.ite
    | split

theorem execWakeEvent_runs (kind : WakeKind) (s : State) :
    Answers s (execWakeEvent kind s) := by
  unfold execWakeEvent
  repeat' first
    | with_reducible exact Runs.refl _
    | with_reducible apply Answers.next
    | with_reducible apply Runs.step (e := State.wakeBy_evolves _ _) (f := State.wakeBy_forms _ _)
    | with_reducible apply Runs.ite

theorem execWakeDomainReady_runs (failed : List (Fin 256)) (s : State) :
    Answers s (execWakeDomainReady failed s) := by
  unfold execWakeDomainReady
  repeat' first
    | with_reducible exact Runs.refl _
    | with_reducible apply Answers.next
    | with_reducible apply Runs.aside (e := State.mapLdg_evolves _ _)
    | with_reducible apply Runs.aside (e := State.suspectAll_evolves _ _ _)
    | with_reducible apply Runs.aside (e := State.wakeDone_evolves _)
    | with_reducible apply Runs.ite
    | split
    | dsimp only
    | with_reducible apply Runs.update
    | with_reducible exact And.intro rfl (And.intro rfl rfl)
    | with_reducible exact And.intro rfl (And.intro rfl (And.intro rfl (And.intro rfl rfl)))

theorem execWakeFail_runs (s : State) :
    Answers s (execWakeFail s) := by
  unfold execWakeFail
  repeat' first
    | with_reducible exact Runs.refl _
    | with_reducible apply Answers.next
    | with_reducible apply Runs.aside (e := State.event_evolves _ _ _)
    | with_reducible apply Runs.aside (e := State.ledgerFatal_evolves _ _ _)
    | with_reducible apply Runs.aside (e := State.actHeld_evolves _)
    | with_reducible apply Runs.step (e := State.toA3_evolves _) (f := State.toA3_forms _)
    | with_reducible apply Runs.ite

theorem execOnDemandAccess_runs (function : OnDemand) (s : State) :
    Answers s (execOnDemandAccess function s) := by
  unfold execOnDemandAccess
  repeat' first
    | with_reducible exact Runs.refl _
    | with_reducible apply Answers.next
    | with_reducible apply Runs.aside (e := State.mapLdg_evolves _ _)
    | with_reducible apply Runs.ite

theorem execMgmtRearm_runs (s : State) :
    Answers s (execMgmtRearm s) := by
  unfold execMgmtRearm
  repeat' first
    | with_reducible exact Runs.refl _
    | with_reducible apply Answers.next
    | with_reducible apply Runs.trans (g := Runs.onMgmt _ _ fun _ => ?_)
    | with_reducible apply Runs.aside (e := State.clearTrip_evolves _)
    | with_reducible apply Runs.ite

theorem execSensorSample_runs (x : Samples) (s : State) :
    Answers s (execSensorSample x s) := by
  unfold execSensorSample
  repeat' first
    | with_reducible exact Runs.refl _
    | with_reducible apply Answers.next
    | with_reducible apply Runs.aside (e := State.setRegN_evolves _ _ _)
    | with_reducible apply Runs.aside (e := State.sampleStats_evolves _ _)
    | with_reducible apply Runs.aside (e := State.closing_evolves _ _)
    | with_reducible apply Runs.step (e := State.compare_evolves _ _) (f := State.compare_forms _ _)
    | with_reducible apply Runs.ite
    | split
    | dsimp only
    | with_reducible apply Runs.update
    | with_reducible exact And.intro rfl (And.intro rfl rfl)
    | with_reducible exact And.intro rfl (And.intro rfl (And.intro rfl (And.intro rfl rfl)))

theorem execLodgeStop_runs (s : State) :
    Answers s (execLodgeStop s) := by
  unfold execLodgeStop
  repeat' first
    | with_reducible exact Runs.refl _
    | with_reducible apply Answers.next
    | with_reducible apply Runs.aside (e := State.appendSummary_evolves _)
    | with_reducible apply Runs.aside (e := State.persistQueue_evolves _ _)
    | with_reducible apply Runs.step (e := State.toOff_evolves _) (f := State.toOff_forms _)
    | with_reducible apply Runs.ite

theorem execMctpI3cRequest_runs (req : MctpReq) (s : State) : Answers s (execMctpI3cRequest req s) :=
  Answers.next <| Runs.onI3c _ _ fun t => (Runs.refl t).aside (t.mctpReply_evolves ..)

theorem execDynamicAddressAssignment_runs (addr : BitVec 7) (s : State) :
    Answers s (execDynamicAddressAssignment addr s) := by
  unfold execDynamicAddressAssignment
  repeat' first
    | with_reducible exact Runs.refl _
    | with_reducible apply Answers.next
    | with_reducible apply Runs.aside (e := State.mapLdg_evolves _ _)
    | with_reducible apply Runs.ite

theorem execLedgerRead_runs (offset length : Nat) (s : State) : Answers s (execLedgerRead offset length s) :=
  Answers.next <| Runs.onMgmt _ _ fun t => (Runs.refl t).aside (t.mctpReply_evolves ..)

theorem execSnapshotRead_runs (offset length : Nat) (s : State) : Answers s (execSnapshotRead offset length s) :=
  Answers.next <| Runs.onMgmt _ _ fun t => (Runs.refl t).aside (t.mctpReply_evolves ..)

theorem execMailboxGo_runs (ctrl : Word) (req : MctpReq) (s : State) : Answers s (execMailboxGo ctrl req s) :=
  Answers.next <| Runs.onLodge _ _ fun t => (Runs.refl t).aside (t.mailbox_evolves ..)

theorem execPowerValid48v_runs (perst : Bool) (s : State) :
    Answers s (execPowerValid48v perst s) := by
  unfold execPowerValid48v
  repeat' first
    | with_reducible exact Runs.refl _
    | with_reducible apply Answers.next
    | with_reducible apply Runs.step (e := State.powerUp_evolves _ _) (f := State.powerUp_forms _ _)
    | with_reducible apply Runs.ite

theorem execLodgeAlive_runs (s : State) :
    Answers s (execLodgeAlive s) := by
  unfold execLodgeAlive
  repeat' first
    | with_reducible exact Runs.refl _
    | with_reducible apply Answers.next
    | with_reducible apply Runs.aside (e := State.send_evolves _ _)
    | with_reducible apply Runs.ite
    | split
    | dsimp only
    | with_reducible apply Runs.update
    | with_reducible exact And.intro rfl (And.intro rfl rfl)
    | with_reducible exact And.intro rfl (And.intro rfl (And.intro rfl (And.intro rfl rfl)))

theorem execPyurnTrainingOpen_runs (s : State) :
    Answers s (execPyurnTrainingOpen s) := by
  unfold execPyurnTrainingOpen
  repeat' first
    | with_reducible exact Runs.refl _
    | with_reducible apply Answers.next
    | with_reducible apply Runs.aside (e := State.freePorts_evolves _)
    | with_reducible apply Runs.ite
    | split
    | dsimp only
    | with_reducible apply Runs.update
    | with_reducible exact And.intro rfl (And.intro rfl rfl)
    | with_reducible exact And.intro rfl (And.intro rfl (And.intro rfl (And.intro rfl rfl)))

theorem execTrainingRetry_runs (port : Fin 16) (s : State) :
    Answers s (execTrainingRetry port s) := by
  unfold execTrainingRetry
  repeat' first
    | with_reducible exact Runs.refl _
    | with_reducible apply Answers.next
    | with_reducible apply Runs.aside (e := State.send_evolves _ _)
    | with_reducible apply Runs.ite

theorem execBootVerified_runs (s : State) :
    Answers s (execBootVerified s) := by
  unfold execBootVerified
  repeat' first
    | with_reducible exact Runs.refl _
    | with_reducible apply Answers.next
    | with_reducible apply Runs.aside (e := State.bootDone_evolves _ _)
    | with_reducible apply Runs.ite

theorem execHbmTrainingDone_runs (failed : List (Fin 256)) (s : State) : Answers s (execHbmTrainingDone failed s) := by
  have hmap : Runs s ((s.eachPort (fun s k => s.autoMapGroup failed k) (List.range 8)).copyMap) := by
    refine (Runs.eachPort s _ _ fun t k => ?_).step (State.copyMap_evolves _) (State.copyMap_forms _)
    exact (Runs.refl t).step (State.autoMapGroup_evolves ..) (State.autoMapGroup_forms ..)
  have hdone (t : State) (h : Runs s t) :
      Runs s { t with hbm := { t.hbm with trained := true }, boot := { t.boot with step := 7 } } :=
    Runs.update h ⟨rfl, rfl, rfl⟩ ⟨rfl, rfl, rfl, rfl, rfl⟩ ⟨rfl, rfl, rfl⟩ rfl rfl rfl ⟨rfl, rfl, rfl⟩
  unfold execHbmTrainingDone
  exact Answers.next (Runs.ite _ (hdone _ hmap) (Runs.refl s))

theorem execModuleReady_runs (s : State) :
    Answers s (execModuleReady s) := by
  unfold execModuleReady
  repeat' first
    | with_reducible exact Runs.refl _
    | with_reducible apply Answers.next
    | with_reducible apply Runs.step (e := State.load_evolves _) (f := State.load_forms _)
    | with_reducible apply Runs.ite
    | split
    | dsimp only
    | with_reducible apply Runs.update
    | with_reducible exact And.intro rfl (And.intro rfl rfl)
    | with_reducible exact And.intro rfl (And.intro rfl (And.intro rfl (And.intro rfl rfl)))

theorem execFirstEnrollment_runs (keyDigest : BitVec 256) (s : State) :
    Answers s (execFirstEnrollment keyDigest s) := by
  unfold execFirstEnrollment
  repeat' first
    | with_reducible exact Runs.refl _
    | with_reducible apply Answers.next
    | with_reducible apply Runs.aside (e := State.send_evolves _ _)
    | with_reducible apply Runs.aside (e := State.seedGroup_evolves _ _)
    | with_reducible apply Runs.trans (g := Runs.onI3c _ _ fun _ => ?_)
    | with_reducible apply Runs.ite

theorem execEnrollmentGo_runs (s : State) : Answers s (execEnrollmentGo s) :=
  Answers.next <| Runs.onHost _ _ fun t => (Runs.refl t).aside (t.enrGo_evolves ..)

theorem execEnrollmentCheck_runs (s : State) :
    Answers s (execEnrollmentCheck s) := by
  unfold execEnrollmentCheck
  repeat' first
    | with_reducible exact Runs.refl _
    | with_reducible apply Answers.next
    | with_reducible apply Runs.aside (e := State.seedGroup_evolves _ _)
    | with_reducible apply Runs.aside (e := State.enrResult_evolves _ _)
    | with_reducible apply Runs.ite

theorem execQueryDeviceIdentifiers_runs (s : State) : Answers s (execQueryDeviceIdentifiers s) :=
  Answers.next <| Runs.onMgmt _ _ fun t => (Runs.refl t).aside (t.pldmSend_evolves ..)

theorem execGetFirmwareParameters_runs (s : State) : Answers s (execGetFirmwareParameters s) :=
  Answers.next <| Runs.onMgmt _ _ fun t => (Runs.refl t).aside (t.pldmSend_evolves ..)

theorem execRequestUpdate_runs (outstanding : Nat) (s : State) :
    Answers s (execRequestUpdate outstanding s) := by
  unfold execRequestUpdate
  repeat' first
    | with_reducible exact Runs.refl _
    | with_reducible apply Answers.next
    | with_reducible apply Runs.trans (g := Runs.onMgmt _ _ fun _ => ?_)
    | with_reducible apply Runs.aside (e := State.pldmSend_evolves _ _ _)
    | with_reducible apply Runs.aside (e := State.mapSec_evolves _ _)
    | with_reducible apply Runs.ite

theorem execPassComponentTable_runs (component : Nat) (s : State) :
    Answers s (execPassComponentTable component s) := by
  unfold execPassComponentTable
  repeat' first
    | with_reducible exact Runs.refl _
    | with_reducible apply Answers.next
    | with_reducible apply Runs.aside (e := State.mapSec_evolves _ _)
    | with_reducible apply Runs.trans (g := Runs.pldmIn _ _ _ fun _ => ?_)
    | with_reducible apply Runs.ite

theorem execUpdateComponent_runs (component : Nat) (length : Nat) (s : State) :
    Answers s (execUpdateComponent component length s) := by
  unfold execUpdateComponent
  repeat' first
    | with_reducible exact Runs.refl _
    | with_reducible apply Answers.next
    | with_reducible apply Runs.aside (e := State.mapSec_evolves _ _)
    | with_reducible apply Runs.trans (g := Runs.pldmIn _ _ _ fun _ => ?_)
    | with_reducible apply Runs.ite

theorem execRequestFirmwareData_runs (offset : Nat) (data : List Byte) (s : State) :
    Answers s (execRequestFirmwareData offset data s) := by
  unfold execRequestFirmwareData
  repeat' first
    | with_reducible exact Runs.refl _
    | with_reducible apply Answers.next
    | with_reducible apply Runs.trans (g := Runs.onMgmt _ _ fun _ => ?_)
    | with_reducible apply Runs.aside (e := State.mapSec_evolves _ _)
    | with_reducible apply Runs.ite

theorem execTransferComplete_runs (s : State) :
    Answers s (execTransferComplete s) := by
  unfold execTransferComplete
  repeat' first
    | with_reducible exact Runs.refl _
    | with_reducible apply Answers.next
    | with_reducible apply Runs.trans (g := Runs.onMgmt _ _ fun _ => ?_)
    | with_reducible apply Runs.aside (e := State.pldmSend_evolves _ _ _)
    | with_reducible apply Runs.aside (e := State.mapSec_evolves _ _)
    | with_reducible apply Runs.ite

theorem execVerifyComplete_runs (s : State) :
    Answers s (execVerifyComplete s) := by
  unfold execVerifyComplete
  repeat' first
    | with_reducible exact Runs.refl _
    | with_reducible apply Answers.next
    | with_reducible apply Runs.trans (g := Runs.onMgmt _ _ fun _ => ?_)
    | with_reducible apply Runs.aside (e := State.pldmSend_evolves _ _ _)
    | with_reducible apply Runs.aside (e := State.mapSec_evolves _ _)
    | with_reducible apply Runs.ite

theorem execApplyComplete_runs (s : State) :
    Answers s (execApplyComplete s) := by
  unfold execApplyComplete
  repeat' first
    | with_reducible exact Runs.refl _
    | with_reducible apply Answers.next
    | with_reducible apply Runs.trans (g := Runs.onMgmt _ _ fun _ => ?_)
    | with_reducible apply Runs.aside (e := State.pldmSend_evolves _ _ _)
    | with_reducible apply Runs.aside (e := State.mapSec_evolves _ _)
    | with_reducible apply Runs.ite

theorem execActivateFirmware_runs (s : State) :
    Answers s (execActivateFirmware s) := by
  unfold execActivateFirmware
  repeat' first
    | with_reducible exact Runs.refl _
    | with_reducible apply Answers.next
    | with_reducible apply Runs.aside (e := State.seedAccept_evolves _ _ _)
    | with_reducible apply Runs.trans (g := Runs.onMgmt _ _ fun _ => ?_)
    | with_reducible apply Runs.aside (e := State.pldmSend_evolves _ _ _)
    | with_reducible apply Runs.aside (e := State.mapSec_evolves _ _)
    | with_reducible apply Runs.ite

theorem execGetStatus_runs (s : State) : Answers s (execGetStatus s) :=
  Answers.next <| Runs.onMgmt _ _ fun t => (Runs.refl t).aside (t.pldmSend_evolves ..)

theorem execCancelUpdate_runs (s : State) :
    Answers s (execCancelUpdate s) := by
  unfold execCancelUpdate
  repeat' first
    | with_reducible exact Runs.refl _
    | with_reducible apply Answers.next
    | with_reducible apply Runs.trans (g := Runs.onMgmt _ _ fun _ => ?_)
    | with_reducible apply Runs.aside (e := State.pldmSend_evolves _ _ _)
    | with_reducible apply Runs.aside (e := State.mapSec_evolves _ _)
    | with_reducible apply Runs.ite

theorem execGetVersion_runs (s : State) :
    Answers s (execGetVersion s) := by
  unfold execGetVersion
  repeat' first
    | with_reducible exact Runs.refl _
    | with_reducible apply Answers.next
    | with_reducible apply Runs.aside (e := State.doeAnswer_evolves _ _)
    | with_reducible apply Runs.trans (g := Runs.onDoe _ _ fun _ => ?_)
    | with_reducible apply Runs.aside (e := State.mapSec_evolves _ _)

theorem execGetCapabilities_runs (s : State) :
    Answers s (execGetCapabilities s) := by
  unfold execGetCapabilities
  repeat' first
    | with_reducible exact Runs.refl _
    | with_reducible apply Answers.next
    | with_reducible apply Runs.aside (e := State.doeAnswer_evolves _ _)
    | with_reducible apply Runs.trans (g := Runs.onDoe _ _ fun _ => ?_)
    | with_reducible apply Runs.aside (e := State.mapSec_evolves _ _)
    | with_reducible apply Runs.ite

theorem execNegotiateAlgorithms_runs (offered : List Nat) (s : State) :
    Answers s (execNegotiateAlgorithms offered s) := by
  unfold execNegotiateAlgorithms
  repeat' first
    | with_reducible exact Runs.refl _
    | with_reducible apply Answers.next
    | with_reducible apply Runs.aside (e := State.doeAnswer_evolves _ _)
    | with_reducible apply Runs.trans (g := Runs.onDoe _ _ fun _ => ?_)
    | with_reducible apply Runs.aside (e := State.mapSec_evolves _ _)
    | with_reducible apply Runs.ite

theorem execGetDigests_runs (s : State) : Answers s (execGetDigests s) :=
  Answers.next <| Runs.spdmIn _ _ fun t => (Runs.refl t).aside (t.doeAnswer_evolves ..)

theorem execGetCertificate_runs (slot offset length : Nat) (s : State) :
    Answers s (execGetCertificate slot offset length s) := by
  unfold execGetCertificate
  repeat' first
    | with_reducible exact Runs.refl _
    | with_reducible apply Answers.next
    | with_reducible apply Runs.aside (e := State.doeAnswer_evolves _ _)
    | with_reducible apply Runs.trans (g := Runs.spdmIn _ _ fun _ => ?_)
    | with_reducible apply Runs.ite

theorem execChallenge_runs (slot : Nat) (nonce : Nat) (s : State) :
    Answers s (execChallenge slot nonce s) := by
  unfold execChallenge
  repeat' first
    | with_reducible exact Runs.refl _
    | with_reducible apply Answers.next
    | with_reducible apply Runs.aside (e := State.doeAnswer_evolves _ _)
    | with_reducible apply Runs.trans (g := Runs.spdmIn _ _ fun _ => ?_)
    | with_reducible apply Runs.ite
    | split
    | dsimp only
    | with_reducible apply Runs.update
    | with_reducible exact And.intro rfl (And.intro rfl rfl)
    | with_reducible exact And.intro rfl (And.intro rfl (And.intro rfl (And.intro rfl rfl)))

theorem execGetMeasurements_runs (index : Nat) (signed : Bool) (nonce : Nat) (s : State) :
    Answers s (execGetMeasurements index signed nonce s) := by
  unfold execGetMeasurements
  repeat' first
    | with_reducible exact Runs.refl _
    | with_reducible apply Answers.next
    | with_reducible apply Runs.aside (e := State.doeAnswer_evolves _ _)
    | with_reducible apply Runs.trans (g := Runs.spdmIn _ _ fun _ => ?_)
    | with_reducible apply Runs.ite
    | split
    | dsimp only
    | with_reducible apply Runs.update
    | with_reducible exact And.intro rfl (And.intro rfl rfl)
    | with_reducible exact And.intro rfl (And.intro rfl (And.intro rfl (And.intro rfl rfl)))

theorem execSeedWrite_runs (index : Fin 1024) (value : Word) (s : State) : Answers s (execSeedWrite index value s) :=
  Answers.next <| Runs.onHost _ _ fun t => (Runs.refl t).step (t.seedWrite_evolves ..) (t.seedWrite_forms ..)

theorem execSeedWritePersist_runs (s : State) :
    Answers s (execSeedWritePersist s) := by
  unfold execSeedWritePersist
  repeat' first
    | with_reducible exact Runs.refl _
    | with_reducible apply Answers.next
    | with_reducible apply Runs.aside (e := State.seedPersist_evolves _)
    | with_reducible apply Runs.ite

theorem execWeeklySummary_runs (s : State) :
    Answers s (execWeeklySummary s) := by
  unfold execWeeklySummary
  repeat' first
    | with_reducible exact Runs.refl _
    | with_reducible apply Answers.next
    | with_reducible apply Runs.aside (e := State.appendSummary_evolves _)
    | with_reducible apply Runs.aside (e := State.appendScan_evolves _)
    | with_reducible apply Runs.ite

theorem execAllowancePeriod_runs (s : State) :
    Answers s (execAllowancePeriod s) := by
  unfold execAllowancePeriod
  repeat' first
    | with_reducible exact Runs.refl _
    | with_reducible apply Answers.next
    | with_reducible apply Runs.ite
    | split
    | dsimp only
    | with_reducible apply Runs.update
    | with_reducible exact And.intro rfl (And.intro rfl rfl)
    | with_reducible exact And.intro rfl (And.intro rfl (And.intro rfl (And.intro rfl rfl)))

theorem execHltSnap_runs (s : State) : Answers s (execHltSnap s) :=
  Answers.next <| Runs.onLodge _ _ fun t => (Runs.refl t).aside (t.hltSnap_evolves ..)

theorem execHltSnapDone_runs (s : State) :
    Answers s (execHltSnapDone s) := by
  unfold execHltSnapDone
  repeat' first
    | with_reducible exact Runs.refl _
    | with_reducible apply Answers.next
    | with_reducible apply Runs.aside (e := State.event_evolves _ _ _)
    | with_reducible apply Runs.ite
    | split
    | dsimp only
    | with_reducible apply Runs.update
    | with_reducible exact And.intro rfl (And.intro rfl rfl)
    | with_reducible exact And.intro rfl (And.intro rfl (And.intro rfl (And.intro rfl rfl)))

theorem execPortTrainingDone_runs (port : Fin 16) (lanes : BitVec 8) (s : State) :
    Answers s (execPortTrainingDone port lanes s) := by
  unfold execPortTrainingDone
  repeat' first
    | with_reducible exact Runs.refl _
    | with_reducible apply Answers.next
    | with_reducible apply Runs.aside (e := State.setPort_evolves _ _ _)
    | with_reducible apply Runs.aside (e := State.pushFrame_evolves _ _ _)
    | with_reducible apply Runs.ite

theorem execHelloFrame_runs (port : Fin 16) (peer : DWord) (peerPort : Fin 16) (s : State) :
    Answers s (execHelloFrame port peer peerPort s) := by
  unfold execHelloFrame
  repeat' first
    | with_reducible exact Runs.refl _
    | with_reducible apply Answers.next
    | with_reducible apply Runs.aside (e := State.event_evolves _ _ _)
    | with_reducible apply Runs.aside (e := State.setPort_evolves _ _ _)
    | with_reducible apply Runs.aside (e := State.portFail_evolves _ _)
    | with_reducible apply Runs.step (e := State.progressStart_evolves _) (f := State.progressStart_forms _)
    | with_reducible apply Runs.aside (e := State.meetPeer_evolves _ _ _ _)
    | with_reducible apply Runs.ite

theorem execRetrain_runs (s : State) : Answers s (execRetrain s) :=
  Answers.next <| Runs.onHost _ _ fun t => (Runs.refl t).aside (t.retrain_evolves ..)

theorem execWakeSend_runs (s : State) : Answers s (execWakeSend s) :=
  Answers.next <| Runs.onHost _ _ fun t => (Runs.refl t).aside (t.wakeSend_evolves ..)

theorem execLaneLockLoss_runs (port : Fin 16) (lane : Fin 8) (s : State) :
    Answers s (execLaneLockLoss port lane s) := by
  unfold execLaneLockLoss
  repeat' first
    | with_reducible exact Runs.refl _
    | with_reducible apply Answers.next
    | with_reducible apply Runs.aside (e := State.setPort_evolves _ _ _)
    | with_reducible apply Runs.aside (e := State.portFail_evolves _ _)
    | with_reducible apply Runs.ite

theorem execReplayTimeout_runs (port : Fin 16) (s : State) :
    Answers s (execReplayTimeout port s) := by
  unfold execReplayTimeout
  repeat' first
    | with_reducible exact Runs.refl _
    | with_reducible apply Answers.next
    | with_reducible apply Runs.step (e := State.sendFrame_evolves _ _ _) (f := State.sendFrame_forms _ _ _)
    | with_reducible apply Runs.ite

theorem execFrameReceive_runs (port : Fin 16) (arrival : FrameIn) (s : State) :
    Answers s (execFrameReceive port arrival s) := by
  unfold execFrameReceive
  repeat' first
    | with_reducible exact Runs.refl _
    | with_reducible apply Answers.next
    | with_reducible apply Runs.step (e := State.sendFrame_evolves _ _ _) (f := State.sendFrame_forms _ _ _)
    | with_reducible apply Runs.aside (e := State.consumed_evolves _ _ _)
    | with_reducible apply Runs.step (e := State.receive_evolves _ _ _) (f := State.receive_forms _ _ _)
    | with_reducible apply Runs.ite

theorem execBeaconUp_runs (child : Nat) (msg : Beacon) (delay : Nat) (s : State) :
    Answers s (execBeaconUp child msg delay s) := by
  unfold execBeaconUp
  repeat' first
    | with_reducible exact Runs.refl _
    | with_reducible apply Answers.next
    | with_reducible apply Runs.aside (e := State.tryReport_evolves _ _)
    | with_reducible apply Runs.ite
    | split
    | dsimp only
    | with_reducible apply Runs.update
    | with_reducible exact And.intro rfl (And.intro rfl rfl)
    | with_reducible exact And.intro rfl (And.intro rfl (And.intro rfl (And.intro rfl rfl)))

theorem execBeaconDown_runs (msg : Beacon) (delay : Nat) (s : State) :
    Answers s (execBeaconDown msg delay s) := by
  unfold execBeaconDown
  repeat' first
    | with_reducible exact Runs.refl _
    | with_reducible apply Answers.next
    | with_reducible apply Runs.aside (e := State.holdReport_evolves _ _ _)
    | with_reducible apply Runs.ite
    | split

theorem execSlotAssign_runs (list : RouteList) (s : State) :
    Answers s (execSlotAssign list s) := by
  unfold execSlotAssign
  repeat' first
    | with_reducible exact Runs.refl _
    | with_reducible apply Answers.next
    | with_reducible apply Runs.step (e := State.devWrite_evolves _ _ _ _) (f := State.devWrite_forms _ _ _ _)
    | with_reducible apply Runs.aside (e := State.traceDrops_evolves _ _ _ _)
    | with_reducible apply Runs.aside (e := State.countAssign_evolves _ _)
    | with_reducible apply Runs.ite
    | split

theorem execPyuStatClr_runs (same : List (Nat × Nat)) (s : State) : Answers s (execPyuStatClr same s) :=
  Answers.next <| Runs.onHost _ _ fun t => (Runs.refl t).aside (t.pyuClr_evolves ..)

theorem execBelSnap_runs (s : State) : Answers s (execBelSnap s) :=
  Answers.next <| Runs.onHost _ _ fun t => (Runs.refl t).aside (t.belSnap_evolves ..)

theorem execBelSnapAtEdge_runs (s : State) : Answers s (execBelSnapAtEdge s) :=
  Answers.next <| Runs.onHost _ _ fun t => (Runs.refl t).aside (t.belSnapEdge_evolves ..)

theorem execBelSnapDone_runs (cycle : Nat) (s : State) :
    Answers s (execBelSnapDone cycle s) := by
  unfold execBelSnapDone
  repeat' first
    | with_reducible exact Runs.refl _
    | with_reducible apply Answers.next
    | with_reducible apply Runs.aside (e := State.setRegN_evolves _ _ _)
    | with_reducible apply Runs.aside (e := State.event_evolves _ _ _)
    | with_reducible apply Runs.ite
    | split
    | dsimp only
    | with_reducible apply Runs.update
    | with_reducible exact And.intro rfl (And.intro rfl rfl)
    | with_reducible exact And.intro rfl (And.intro rfl (And.intro rfl (And.intro rfl rfl)))

theorem execBelMark_runs (value : DWord) (s : State) : Answers s (execBelMark value s) :=
  Answers.next <| Runs.onHost _ _ fun t => (Runs.refl t).aside (t.trace_evolves ..)

theorem execTraceRecordArrival_runs (die : Fin 2) (failed : Bool) (s : State) :
    Answers s (execTraceRecordArrival die failed s) := by
  unfold execTraceRecordArrival
  repeat' first
    | with_reducible exact Runs.refl _
    | with_reducible apply Answers.next
    | with_reducible apply Runs.aside (e := State.setRing_evolves _ _ _)
    | with_reducible apply Runs.step (e := State.arriveRec_evolves _ _ _ _) (f := State.arriveRec_forms _ _ _ _)
    | with_reducible apply Runs.ite
    | split

theorem execTraceGroupFlush_runs (die : Fin 2) (failed : Bool) (s : State) :
    Answers s (execTraceGroupFlush die failed s) :=
  Answers.next <| (Runs.refl s).step (s.writeGroup_evolves ..) (s.writeGroup_forms ..)

theorem execRingEnable_runs (die : Fin 2) (ctrl : Word) (s : State) : Answers s (execRingEnable die ctrl s) :=
  Answers.next <| Runs.onHost _ _ fun t => (Runs.refl t).step (t.ringCtrl_evolves ..) (t.ringCtrl_forms ..)

theorem execRingHeadWrite_runs (die : Fin 2) (value : DWord) (s : State) : Answers s (execRingHeadWrite die value s) :=
  Answers.next <| Runs.onHost _ _ fun t => (Runs.refl t).aside (t.ringHeadWrite_evolves ..)

theorem execTopClrStats_runs (same : List (Nat × Nat)) (s : State) : Answers s (execTopClrStats same s) :=
  Answers.next <| Runs.onHost _ _ fun t => (Runs.refl t).aside (t.topClr_evolves ..)

theorem execRegisterWrite_runs (offset size value : Nat) (s : State) :
    Answers s (execRegisterWrite offset size value s) :=
  Answers.next <| Runs.onBar0 _ _ _ fun t => (Runs.refl t).step (t.bar0Write_evolves ..) (t.bar0Write_forms ..)

theorem execBar0BadAccess_runs (offset size : Nat) (write : Bool) (s : State) :
    Answers s (execBar0BadAccess offset size write s) := by
  unfold execBar0BadAccess
  repeat' first
    | with_reducible exact Runs.refl _
    | with_reducible apply Answers.next
    | with_reducible apply Runs.aside (e := State.bar0Read_evolves _ _ _)
    | with_reducible apply Runs.trans (g := Runs.onBar0 _ _ _ fun _ => ?_)
    | with_reducible apply Runs.trans (g := Runs.onBar0Read _ _ _ fun _ => ?_)
    | with_reducible apply Runs.aside (e := State.badWrite_evolves _ _ _)
    | with_reducible apply Runs.ite

end Sys2Proof.Machine

/-! Every command answers a next state, and every step keeps the records and the canonical forms (R396 to R398, R221, R233). -/

namespace Sys2Proof.Machine

set_option Elab.async false

/-- What a command may do, command by command. -/
theorem exec_answers (s : State) : ∀ c : Instr, Answers s (exec c s)
  | .powerValid48v perst => execPowerValid48v_runs ..
  | .lodgeAlive => execLodgeAlive_runs ..
  | .bootVerified => execBootVerified_runs ..
  | .pyurnTrainingOpen => execPyurnTrainingOpen_runs ..
  | .trainingRetry port => execTrainingRetry_runs ..
  | .hbmTrainingDone failed => execHbmTrainingDone_runs ..
  | .moduleReady => execModuleReady_runs ..
  | .linkUp speed width flit => execLinkUp_runs ..
  | .linkDown moved => execLinkDown_runs ..
  | .hostSideReset kind moved => execHostSideReset_runs ..
  | .hostResetAfterCommit moved => execHostResetAfterCommit_runs ..
  | .perstDeassert => execPerstDeassert_runs ..
  | .load => execLoad_runs ..
  | .imageFetchDone file => execImageFetchDone_runs ..
  | .imageFetchDmaError bytes => execImageFetchDmaError_runs ..
  | .imageChecksDone => execImageChecksDone_runs ..
  | .start => execStart_runs ..
  | .startExchangeReply peer reply => execStartExchangeReply_runs ..
  | .startMessageUp child covered => execStartMessageUp_runs ..
  | .startMessageDown => execStartMessageDown_runs ..
  | .startTimeout => execStartTimeout_runs ..
  | .unload => execUnload_runs ..
  | .abort => execAbort_runs ..
  | .imageRetire => execImageRetire_runs ..
  | .imageRecheckDone => execImageRecheckDone_runs ..
  | .tickEdge late measured predicted => execTickEdge_runs ..
  | .stitchDone cycle => execStitchDone_runs ..
  | .maintenanceSlot temps bad => execMaintenanceSlot_runs ..
  | .stitchOverrun past => execStitchOverrun_runs ..
  | .edgeTimeoutHalt => execEdgeTimeoutHalt_runs ..
  | .ticketDoorbell => execTicketDoorbell_runs ..
  | .ticketDecision => execTicketDecision_runs ..
  | .admDonePop => execAdmDonePop_runs ..
  | .tickClrStats same => execTickClrStats_runs ..
  | .deferredRequestStart => execDeferredRequestStart_runs ..
  | .tileDrain op => execTileDrain_runs ..
  | .segmentConversionDone op => execSegmentConversionDone_runs ..
  | .fmtClr same => execFmtClr_runs ..
  | .qntClr same => execQntClr_runs ..
  | .qntStatClr same => execQntStatClr_runs ..
  | .heldBlockLoad op => execHeldBlockLoad_runs ..
  | .heldPass op => execHeldPass_runs ..
  | .gatheredPass op => execGatheredPass_runs ..
  | .gatheredDrain engine => execGatheredDrain_runs ..
  | .mvProduct op => execMvProduct_runs ..
  | .meTestStart => execMeTestStart_runs ..
  | .meTestDone engines paths => execMeTestDone_runs ..
  | .meStatClr same => execMeStatClr_runs ..
  | .vectorChain core issue => execVectorChain_runs ..
  | .veTestStart => execVeTestStart_runs ..
  | .veTestDone failed => execVeTestDone_runs ..
  | .veStatClr same => execVeStatClr_runs ..
  | .veFlagsClr same => execVeFlagsClr_runs ..
  | .dynamicArbitration router port eligible reuse wait => execDynamicArbitration_runs ..
  | .seamCrcFail die link again => execSeamCrcFail_runs ..
  | .trlStatClr same => execTrlStatClr_runs ..
  | .hbmRead addr who symbols wrong => execHbmRead_runs ..
  | .hbmReadRetry addr who symbols bytes wrong => execHbmReadRetry_runs ..
  | .hbmWrite target data => execHbmWrite_runs ..
  | .writeBack channel => execWriteBack_runs ..
  | .patrolScrub channel symbols wrong => execPatrolScrub_runs ..
  | .writeCrcReject addr times => execWriteCrcReject_runs ..
  | .memoryAtomic op fmt addr data fetch => execMemoryAtomic_runs ..
  | .mapWrite k value => execMapWrite_runs ..
  | .mapInTestDone channel pass => execMapInTestDone_runs ..
  | .hbmTempTimer temps => execHbmTempTimer_runs ..
  | .memTestStart ctrl => execMemTestStart_runs ..
  | .memTestDone failed => execMemTestDone_runs ..
  | .memScanStart ctrl => execMemScanStart_runs ..
  | .memScanDone results => execMemScanDone_runs ..
  | .memStatClr same => execMemStatClr_runs ..
  | .updateBlock unit tensor work => execUpdateBlock_runs ..
  | .updStatClr same => execUpdStatClr_runs ..
  | .cloisterBlockArrival op => execCloisterBlockArrival_runs ..
  | .blockAddition op => execBlockAddition_runs ..
  | .classSCombine red differ slack => execClassSCombine_runs ..
  | .classSResult red slack => execClassSResult_runs ..
  | .classSDeadline red => execClassSDeadline_runs ..
  | .cloStatClr same => execCloStatClr_runs ..
  | .portTrainingDone port lanes => execPortTrainingDone_runs ..
  | .helloFrame port peer peerPort => execHelloFrame_runs ..
  | .frameReceive port arrival => execFrameReceive_runs ..
  | .replayTimeout port => execReplayTimeout_runs ..
  | .laneLockLoss port lane => execLaneLockLoss_runs ..
  | .retrain => execRetrain_runs ..
  | .wakeSend => execWakeSend_runs ..
  | .beaconUp child msg delay => execBeaconUp_runs ..
  | .beaconDown msg delay => execBeaconDown_runs ..
  | .slotAssign list => execSlotAssign_runs ..
  | .pyuStatClr same => execPyuStatClr_runs ..
  | .stileArm stile => execStileArm_runs ..
  | .stileArrive stile generation => execStileArrive_runs ..
  | .stileWait stile generation unit => execStileWait_runs ..
  | .stileTimeout stile => execStileTimeout_runs ..
  | .chainAppend chain record => execChainAppend_runs ..
  | .chainRead chain offset length => execChainRead_runs ..
  | .commitVote => execCommitVote_runs ..
  | .commitDecide => execCommitDecide_runs ..
  | .voteDeadline => execVoteDeadline_runs ..
  | .commitDecisionReceive d => execCommitDecisionReceive_runs ..
  | .commitRelease => execCommitRelease_runs ..
  | .lateCommit => execLateCommit_runs ..
  | .keep => execKeep_runs ..
  | .adopt => execAdopt_runs ..
  | .stlStatClr same => execStlStatClr_runs ..
  | .pltStatClr same => execPltStatClr_runs ..
  | .queueEnable ctrl => execQueueEnable_runs ..
  | .queueDisable => execQueueDisable_runs ..
  | .queueDrainDone => execQueueDrainDone_runs ..
  | .tqTailWrite index => execTqTailWrite_runs ..
  | .ticketFetch t => execTicketFetch_runs ..
  | .aqHeadWrite index => execAqHeadWrite_runs ..
  | .cqHeadWrite index => execCqHeadWrite_runs ..
  | .dmaEnable engine ctrl => execDmaEnable_runs ..
  | .dmaDisable engine moved => execDmaDisable_runs ..
  | .dmaTailWrite engine index => execDmaTailWrite_runs ..
  | .descriptorStart engine d => execDescriptorStart_runs ..
  | .descriptorDone engine tag data => execDescriptorDone_runs ..
  | .msixCoalesceEnd vector => execMsixCoalesceEnd_runs ..
  | .msixUnmask vector => execMsixUnmask_runs ..
  | .bar2Read offset length => execBar2Read_runs ..
  | .bar2Write offset data => execBar2Write_runs ..
  | .pciWinBaseWrite value => execPciWinBaseWrite_runs ..
  | .bar0BadAccess offset size write => execBar0BadAccess_runs ..
  | .poisonedTlp => execPoisonedTlp_runs ..
  | .malformedTlp => execMalformedTlp_runs ..
  | .correctableLinkError => execCorrectableLinkError_runs ..
  | .unsupportedRequest => execUnsupportedRequest_runs ..
  | .completionTimeout engine tag hostEnd => execCompletionTimeout_runs ..
  | .d3hotWrite => execD3hotWrite_runs ..
  | .d0Write => execD0Write_runs ..
  | .d3hotDeferredEntry => execD3hotDeferredEntry_runs ..
  | .doeDiscovery index length => execDoeDiscovery_runs ..
  | .doeAbort => execDoeAbort_runs ..
  | .pciStatClr same => execPciStatClr_runs ..
  | .powerControlPeriod junctions => execPowerControlPeriod_runs ..
  | .droopTrip core => execDroopTrip_runs ..
  | .droopRelease core cycles => execDroopRelease_runs ..
  | .capWrite value => execCapWrite_runs ..
  | .ackStale => execAckStale_runs ..
  | .a1AutoEntry => execA1AutoEntry_runs ..
  | .targetA0 => execTargetA0_runs ..
  | .targetA1 => execTargetA1_runs ..
  | .targetA2 => execTargetA2_runs ..
  | .mgmtEnterA2 => execMgmtEnterA2_runs ..
  | .mgmtEnterA3 => execMgmtEnterA3_runs ..
  | .mgmtWake => execMgmtWake_runs ..
  | .mgmtRearm => execMgmtRearm_runs ..
  | .entryDone => execEntryDone_runs ..
  | .wakeEvent kind => execWakeEvent_runs ..
  | .wakeDomainReady failed => execWakeDomainReady_runs ..
  | .wakeFail => execWakeFail_runs ..
  | .onDemandAccess function => execOnDemandAccess_runs ..
  | .sensorSample x => execSensorSample_runs ..
  | .lodgeStop => execLodgeStop_runs ..
  | .mailboxGo ctrl req => execMailboxGo_runs ..
  | .mctpI3cRequest req => execMctpI3cRequest_runs ..
  | .firstEnrollment keyDigest => execFirstEnrollment_runs ..
  | .enrollmentGo => execEnrollmentGo_runs ..
  | .enrollmentCheck => execEnrollmentCheck_runs ..
  | .queryDeviceIdentifiers => execQueryDeviceIdentifiers_runs ..
  | .getFirmwareParameters => execGetFirmwareParameters_runs ..
  | .requestUpdate outstanding => execRequestUpdate_runs ..
  | .passComponentTable component => execPassComponentTable_runs ..
  | .updateComponent component length => execUpdateComponent_runs ..
  | .requestFirmwareData offset data => execRequestFirmwareData_runs ..
  | .transferComplete => execTransferComplete_runs ..
  | .verifyComplete => execVerifyComplete_runs ..
  | .applyComplete => execApplyComplete_runs ..
  | .activateFirmware => execActivateFirmware_runs ..
  | .getStatus => execGetStatus_runs ..
  | .cancelUpdate => execCancelUpdate_runs ..
  | .getVersion => execGetVersion_runs ..
  | .getCapabilities => execGetCapabilities_runs ..
  | .negotiateAlgorithms offered => execNegotiateAlgorithms_runs ..
  | .getDigests => execGetDigests_runs ..
  | .getCertificate slot offset length => execGetCertificate_runs ..
  | .challenge slot nonce => execChallenge_runs ..
  | .getMeasurements index signed nonce => execGetMeasurements_runs ..
  | .ledgerRead offset length => execLedgerRead_runs ..
  | .snapshotRead offset length => execSnapshotRead_runs ..
  | .seedWrite index value => execSeedWrite_runs ..
  | .seedWritePersist => execSeedWritePersist_runs ..
  | .weeklySummary => execWeeklySummary_runs ..
  | .allowancePeriod => execAllowancePeriod_runs ..
  | .hltSnap => execHltSnap_runs ..
  | .hltSnapDone => execHltSnapDone_runs ..
  | .belSnap => execBelSnap_runs ..
  | .belSnapAtEdge => execBelSnapAtEdge_runs ..
  | .belSnapDone cycle => execBelSnapDone_runs ..
  | .belMark value => execBelMark_runs ..
  | .traceRecordArrival die failed => execTraceRecordArrival_runs ..
  | .traceGroupFlush die failed => execTraceGroupFlush_runs ..
  | .ringEnable die ctrl => execRingEnable_runs ..
  | .ringHeadWrite die value => execRingHeadWrite_runs ..
  | .topClrStats same => execTopClrStats_runs ..
  | .registerWrite offset size value => execRegisterWrite_runs ..
  | .a1ReturnRequest => execA1ReturnRequest_runs ..
  | .configurationRequest req => execConfigurationRequest_runs ..
  | .dynamicAddressAssignment addr => execDynamicAddressAssignment_runs ..

/-- A step does no more than its command, and takes it from the queue. -/
theorem step_runs {s t : State} (h : step s = .next t) :
    t.pending = s.pending.tail ∧ Runs { s with pending := s.pending.tail } t := by
  unfold step at h
  split at h
  · next hnil =>
    obtain rfl := Host.Outcome.next.inj h
    have hs : { s with pending := s.pending.tail } = s := by rw [hnil, List.tail_nil, ← hnil]
    exact ⟨by rw [hnil]; rfl, by rw [hs]; exact Runs.refl s⟩
  · next c rest hcons =>
    obtain ⟨u, hu, hruns⟩ := exec_answers { s with pending := rest } c
    obtain rfl := Host.Outcome.next.inj (hu.symm.trans h)
    rw [hcons, List.tail_cons]
    exact ⟨hruns.evolves.keep .pending (by decide), hruns⟩

/-- Settles O1: a step is its command on the queue's rest, and no command touches the queue. -/
theorem stepRunsFrontCommand : Obligations.StepRunsFrontCommand := by
  refine ⟨fun s => ⟨fun c rest h => ?_, fun h => ?_⟩, fun s t h => (step_runs h).1⟩
  · unfold step
    rw [h]
  · unfold step
    rw [h]

/-- Settles O2: each command has a law that says what it answers. -/
theorem everyCommandAnswers : Obligations.EveryCommandAnswers := fun c s =>
  (exec_answers s c).imp fun _ h => h.1

/-- Settles O4: each command keeps the canonical form of memory and of the register file. -/
theorem stepKeepsCanonicalStores : Obligations.StepKeepsCanonicalStores := fun _ _ hinv h =>
  have hruns := (step_runs h).2
  ⟨hruns.evolves.mem hinv.1, hruns.evolves.regs hinv.2⟩

/-- Settles O5: each command only appends to the output, and lowers no count. -/
theorem stepKeepsRecords : Obligations.StepKeepsRecords := fun _ _ h =>
  have hruns := (step_runs h).2
  ⟨hruns.evolves.out, hruns.evolves.wear, hruns.evolves.ledger⟩

/-- Settles O26: each command keeps the form of the channels' buffers and of the engines' stores. -/
theorem stepKeepsBuffers : Obligations.StepKeepsBuffers :=
  ⟨fun _ _ hs h => (step_runs h).2.forms.combine hs, fun _ _ hs h => (step_runs h).2.forms.engines hs⟩

end Sys2Proof.Machine

/-! Statistics clears (R439): what a register reads after a clear, and after the clear of every block. -/

namespace Sys2Proof.Machine

set_option Elab.async false

/-! ## The amounts that the events of a clear's cycle add -/

/-- The last amount given for a register is the one it reads. -/
theorem amountOf_cons (p : Nat × Nat) (l : List (Nat × Nat)) (o : Nat) :
    amountOf (p :: l) o = (amountOf l o).or (if p.1 = o then some p.2 else none) := by
  unfold amountOf
  rw [List.reverse_cons, List.find?_append]
  cases hl : List.find? (fun q => decide (q.1 = o)) l.reverse with
  | some q => simp
  | none => by_cases hp : p.1 = o <;> simp [hp]

theorem amountOf_sameIn (offs : List Nat) (same : List (Nat × Nat)) (o : Nat) :
    amountOf (sameIn offs same) o = if offs.contains (o % 67108864) then amountOf same o else none := by
  induction same with
  | nil => simp [sameIn, amountOf]
  | cons p same ih =>
    have hcons : sameIn offs (p :: same) = if offs.contains (p.1 % 67108864) then p :: sameIn offs same else
        sameIn offs same := by rw [sameIn, List.filter_cons]; rfl
    rw [hcons, amountOf_cons]
    by_cases hp : p.1 = o
    · subst hp
      by_cases hin : offs.contains (p.1 % 67108864) = true
      · rw [if_pos hin, amountOf_cons, ih, if_pos hin, if_pos hin]
      · rw [if_neg hin, ih, if_neg hin]
        exact (if_neg hin).symm
    · split
      · rw [amountOf_cons, ih]; simp [hp]
      · rw [ih]; simp

theorem State.reg_sameCycle {s : State} (h : storeWf 0 s.regs = true) (l : List (Nat × Nat)) (o : Nat) :
    (s.sameCycle l).reg o = ((amountOf l o).map (BitVec.ofNat 64)).getD (s.reg o) := by
  induction l generalizing s with
  | nil => rfl
  | cons p l ih =>
    obtain ⟨k, n⟩ := p
    rw [State.sameCycle, ih (s := s.setRegN k n) (s.regs_setReg k _ h), amountOf_cons]
    cases amountOf l o with
    | some m => rfl
    | none =>
      by_cases hk : k = o
      · subst hk
        rw [if_pos rfl]
        exact s.reg_setReg k _ h
      · simpa [hk] using s.reg_setRegN_ne k o n (Ne.symm hk)

/-! ## One clear -/

/-- The registers that a clear names, by their offsets. -/
def Cleared.offs (k : Cleared) : List Nat := k.banked ++ k.plain.map Prod.fst

/-- What a clear leaves in the registers before the events of its cycle are added. -/
structure Cleared.Reset (k : Cleared) (s t : State) : Prop where
  evolves : Evolves [.regs] s t
  banked : ∀ o, o % 67108864 ∈ k.banked → t.reg o = 0
  plain : ∀ o v, (o, v) ∈ k.plain → t.reg o = BitVec.ofNat 64 v
  frame : ∀ o, o % 67108864 ∉ k.offs → t.reg o = s.reg o

/-- What a clear leaves in the registers. -/
structure Cleared.Done (k : Cleared) (same : List (Nat × Nat)) (s t : State) : Prop where
  evolves : Evolves [.regs] s t
  amount : ∀ o n, (o % 67108864 ∈ k.banked ∨ o ∈ k.plain.map Prod.fst) → amountOf same o = some n →
    t.reg o = BitVec.ofNat 64 n
  banked : ∀ o, o % 67108864 ∈ k.banked → amountOf same o = none → t.reg o = 0
  plain : ∀ o v, (o, v) ∈ k.plain → amountOf same o = none → t.reg o = BitVec.ofNat 64 v
  frame : ∀ o, o % 67108864 ∉ k.offs → t.reg o = s.reg o

/-- Every register outside the banks stands at an offset of BAR0. -/
abbrev Cleared.ok (k : Cleared) : Prop := ∀ p ∈ k.plain, p.1 < 67108864

theorem Cleared.mem_offs_of_plain {k : Cleared} (hk : k.ok) {o : Nat} (h : o ∈ k.plain.map Prod.fst) :
    o % 67108864 ∈ k.offs := by
  obtain ⟨p, hp, rfl⟩ := List.mem_map.mp h
  rw [Nat.mod_eq_of_lt (hk p hp)]
  exact List.mem_append_right _ h

/-- The events of the cycle come on top of what the clear leaves. -/
theorem Cleared.Reset.done {k : Cleared} {s t : State} (h : k.Reset s t) (hwf : storeWf 0 s.regs = true) (hk : k.ok)
    {offs : List Nat} (hoffs : ∀ o, o ∈ offs ↔ o ∈ k.offs) (same : List (Nat × Nat)) :
    k.Done same s (t.sameCycle (sameIn offs same)) := by
  have hread (o : Nat) : (t.sameCycle (sameIn offs same)).reg o =
      ((if o % 67108864 ∈ k.offs then amountOf same o else none).map (BitVec.ofNat 64)).getD (t.reg o) := by
    rw [State.reg_sameCycle (h.evolves.regs hwf), amountOf_sameIn]
    simp [hoffs]
  have hin {o : Nat} : (o % 67108864 ∈ k.banked ∨ o ∈ k.plain.map Prod.fst) → o % 67108864 ∈ k.offs :=
    fun hor => hor.elim (List.mem_append_left _) (Cleared.mem_offs_of_plain hk)
  refine ⟨h.evolves.step (State.sameCycle_evolves ..) rfl, fun o n hor hn => ?_, fun o ho hn => ?_, fun o v ho hn => ?_,
    fun o ho => ?_⟩
  · rw [hread, if_pos (hin hor), hn]
    rfl
  · rw [hread, if_pos (hin (.inl ho)), hn]
    exact h.banked o ho
  · rw [hread, if_pos (hin (.inr (List.mem_map.mpr ⟨(o, v), ho, rfl⟩))), hn]
    exact h.plain o v ho
  · rw [hread, if_neg ho]
    exact h.frame o ho

/-- One clear after another, of other registers. -/
theorem Cleared.Done.join {a b : Cleared} {same : List (Nat × Nat)} {s t u : State} (h : a.Done same s t)
    (g : b.Done same t u) (ha : a.ok) (hb : b.ok) (hab : ∀ o ∈ a.offs, o ∉ b.offs) : (a.join b).Done same s u := by
  have hplain {o : Nat} (ho : o ∈ a.plain.map Prod.fst) : u.reg o = t.reg o :=
    g.frame o (hab _ (Cleared.mem_offs_of_plain ha ho))
  have hbank {o : Nat} (ho : o % 67108864 ∈ a.banked) : u.reg o = t.reg o :=
    g.frame o (hab _ (List.mem_append_left _ ho))
  refine ⟨h.evolves.step g.evolves rfl, fun o n hor hn => ?_, fun o ho hn => ?_, fun o v ho hn => ?_, fun o ho => ?_⟩
  · simp only [Cleared.join, List.map_append, List.mem_append] at hor
    rcases hor with (ho | ho) | (ho | ho)
    · exact (hbank ho).trans (h.amount o n (.inl ho) hn)
    · exact g.amount o n (.inl ho) hn
    · exact (hplain ho).trans (h.amount o n (.inr ho) hn)
    · exact g.amount o n (.inr ho) hn
  · rcases List.mem_append.mp ho with ho | ho
    · exact (hbank ho).trans (h.banked o ho hn)
    · exact g.banked o ho hn
  · rcases List.mem_append.mp ho with ho | ho
    · exact (hplain (List.mem_map.mpr ⟨(o, v), ho, rfl⟩)).trans (h.plain o v ho hn)
    · exact g.plain o v ho hn
  · have hoffs : o % 67108864 ∉ a.offs ∧ o % 67108864 ∉ b.offs := by
      simp only [Cleared.join, Cleared.offs, List.map_append, List.mem_append, not_or] at ho ⊢
      exact ⟨⟨ho.1.1, ho.2.1⟩, ho.1.2, ho.2.2⟩
    exact (g.frame o hoffs.2).trans (h.frame o hoffs.1)

theorem Cleared.join_ok {a b : Cleared} (ha : a.ok) (hb : b.ok) : (a.join b).ok := fun p hp =>
  (List.mem_append.mp hp).elim (ha p) (hb p)

/-! ## What the clears of the blocks write -/

/-- Banks dropped and registers set to 0. -/
theorem Cleared.reset_zero {s : State} (h : storeWf 0 s.regs = true) {bs ps : List Nat} (hps : ∀ o ∈ ps, o < 67108864) :
    Cleared.Reset ⟨bs, ps.map fun o => (o, 0)⟩ s ((s.zeroBanks bs).zeroRegs ps) := by
  have hwf : storeWf 0 (s.zeroBanks bs).regs = true := (s.zeroBanks_evolves bs).regs h
  refine ⟨(s.zeroBanks_evolves bs).step (State.zeroRegs_evolves _ ps) rfl, fun o ho => ?_, fun o v ho => ?_, fun o ho => ?_⟩
  · by_cases hp : o ∈ ps
    · exact State.reg_zeroRegs _ ps o hp hwf
    · rw [State.reg_zeroRegs_ne _ ps o hp, State.reg_zeroBanks, if_pos (by simpa using ho)]
  · obtain ⟨q, hq, he⟩ := List.mem_map.mp ho
    obtain ⟨rfl, rfl⟩ := Prod.mk.inj he
    exact State.reg_zeroRegs _ ps _ hq hwf
  · simp only [Cleared.offs, List.map_map, Function.comp_def, List.map_id', List.mem_append, not_or] at ho
    have hp : o ∉ ps := fun hp => ho.2 (by rwa [Nat.mod_eq_of_lt (hps o hp)])
    rw [State.reg_zeroRegs_ne _ ps o hp, State.reg_zeroBanks, if_neg (by simpa using ho.1)]

/-- Without banks, registers set to 0 and one to another value. -/
theorem Cleared.reset_value {s : State} (h : storeWf 0 s.regs = true) {ps : List Nat} (hps : ∀ o ∈ ps, o < 67108864)
    {x v : Nat} (hx : x < 67108864) {k : Cleared} (hbanked : k.banked = [])
    (hplain : ∀ p ∈ k.plain, p = (x, v) ∨ p.1 ≠ x ∧ p.1 ∈ ps ∧ p.2 = 0)
    (hnamed : ∀ o ∈ x :: ps, o ∈ k.plain.map Prod.fst) : k.Reset s ((s.zeroRegs ps).setRegN x v) := by
  have hwf := s.regs_zeroRegs ps h
  refine ⟨(s.zeroRegs_evolves ps).step (State.setRegN_evolves ..) rfl, fun o ho => ?_, fun o w ho => ?_, fun o ho => ?_⟩
  · rw [hbanked] at ho
    cases ho
  · rcases hplain _ ho with he | ⟨hne, hin, hw⟩
    · obtain ⟨rfl, rfl⟩ := Prod.mk.inj he
      exact State.reg_setReg _ _ _ hwf
    · obtain rfl : w = 0 := hw
      exact (State.reg_setRegN_ne _ x o v hne).trans (s.reg_zeroRegs ps o hin h)
  · have hout {p : Nat} (hp : p < 67108864) (hin : p ∈ x :: ps) : o ≠ p := fun he => ho <| by
      rw [he, Nat.mod_eq_of_lt hp]
      exact List.mem_append_right _ (hnamed p hin)
    rw [State.reg_setRegN_ne _ x o v (hout hx List.mem_cons_self)]
    exact s.reg_zeroRegs_ne ps o fun hp => hout (hps o hp) (List.mem_cons_of_mem _ hp) rfl

/-- A block's clear of registers outside the banks. -/
theorem Cleared.done_zeroRegs {s : State} (h : storeWf 0 s.regs = true) {ps : List Nat} (hps : ∀ o ∈ ps, o < 67108864)
    (same : List (Nat × Nat)) :
    Cleared.Done ⟨[], ps.map fun o => (o, 0)⟩ same s ((s.zeroRegs ps).sameCycle (sameIn ps same)) := by
  have hnone : s.zeroBanks [] = s := by simp [State.zeroBanks, storeDrop]
  have hreset := Cleared.reset_zero h (bs := []) hps
  rw [hnone] at hreset
  exact hreset.done h (by simpa [Cleared.ok] using hps) (by simp [Cleared.offs, Function.comp_def]) same

/-- A block's clear of banks. -/
theorem Cleared.done_zeroBanks {s : State} (h : storeWf 0 s.regs = true) (bs : List Nat) (same : List (Nat × Nat)) :
    Cleared.Done ⟨bs, []⟩ same s ((s.zeroBanks bs).sameCycle (sameIn bs same)) :=
  (Cleared.reset_zero h (ps := []) (by simp)).done h (by simp [Cleared.ok]) (by simp [Cleared.offs]) same

/-- A block's clear of banks and of registers outside them. -/
theorem Cleared.done_both {s : State} (h : storeWf 0 s.regs = true) (bs : List Nat) {ps : List Nat}
    (hps : ∀ o ∈ ps, o < 67108864) (same : List (Nat × Nat)) :
    Cleared.Done ⟨bs, ps.map fun o => (o, 0)⟩ same s
      (((s.zeroBanks bs).zeroRegs ps).sameCycle (sameIn (bs ++ ps) same)) :=
  (Cleared.reset_zero h hps).done h (by simpa [Cleared.ok] using hps) (by simp [Cleared.offs, Function.comp_def]) same

section
variable {s : State} (h : storeWf 0 s.regs = true) (same : List (Nat × Nat))
include h

theorem State.tickClr_done : clearedTick.Done same s (s.tickClr same) :=
  (Cleared.reset_value h (by decide) (by decide) rfl (by decide) (by decide)).done h (by decide)
    (by simp [Cleared.offs, clearedTick]) same

theorem State.fmtClr_done : clearedFmt.Done same s (s.fmtClr same) := Cleared.done_zeroRegs h (ps := fmtCounts) (by decide) same

theorem State.qntClr_done : clearedQnt.Done same s (s.qntClr same) := Cleared.done_zeroRegs h (ps := qntCounts) (by decide) same

theorem State.qntStatClr_done : clearedResole.Done same s (s.qntStatClr same) := Cleared.done_zeroRegs h (ps := qntStats) (by decide) same

theorem State.meClr_done : clearedMe.Done same s (s.meClr same) := Cleared.done_zeroBanks h _ same

theorem State.veClr_done : clearedVe.Done same s (s.veClr same) := Cleared.done_zeroBanks h _ same

theorem State.veFlagsClr_done : Cleared.Done { banked := [Reg.VE_FLAGS] } same s (s.veFlagsClr same) :=
  Cleared.done_zeroBanks h _ same

theorem State.trlClr_done : clearedTrl.Done same s (s.trlClr same) := Cleared.done_both h _ (ps := trlPlain) (by decide) same

theorem State.memClr_done : clearedMem.Done same s (s.memClr same) := Cleared.done_both h _ (ps := memPlain) (by decide) same

theorem State.updClr_done : clearedUpd.Done same s (s.updClr same) := Cleared.done_zeroRegs h (ps := updCounts) (by decide) same

theorem State.cloClr_done : clearedClo.Done same s (s.cloClr same) :=
  (Cleared.reset_value h (by decide) (by decide) rfl (by decide) (by decide)).done h (by decide)
    (by simp [Cleared.offs, clearedClo, cloCounts]; tauto) same

theorem State.pyuClr_done : clearedPyu.Done same s (s.pyuClr same) := Cleared.done_both h _ (ps := pyuPlain) (by decide) same

theorem State.stlClr_done : clearedStl.Done same s (s.stlClr same) := Cleared.done_zeroRegs h (ps := stlCounts) (by decide) same

theorem State.pltClr_done : clearedPlt.Done same s (s.pltClr same) := Cleared.done_zeroRegs h (ps := [Reg.PLT_CHAIN_FULL]) (by decide) same

theorem State.pciClr_done : clearedPci.Done same s (s.pciClr same) := Cleared.done_zeroRegs h (ps := pciCounts) (by decide) same

/-- The clear of every block is their clears in a row, each of its own registers. -/
theorem State.topClr_done : clearedTop.Done same s (s.topClr same) := by
  have join {a b : Cleared} {t u : State} (ha : a.Done same s t ∧ a.ok) (hb : storeWf 0 t.regs = true → b.Done same t u)
      (hok : b.ok) (hab : ∀ o ∈ a.offs, o ∉ b.offs) : (a.join b).Done same s u ∧ (a.join b).ok :=
    ⟨ha.1.join (hb (ha.1.evolves.regs h)) ha.2 hok hab, Cleared.join_ok ha.2 hok⟩
  have hfmt := join ⟨State.tickClr_done h same, by decide⟩ (State.fmtClr_done · same) (by decide) (by decide)
  have hqnt := join hfmt (State.qntClr_done · same) (by decide) (by decide)
  have hresole := join hqnt (State.qntStatClr_done · same) (by decide) (by decide)
  have hme := join hresole (State.meClr_done · same) (by decide) (by decide)
  have hve := join hme (State.veClr_done · same) (by decide) (by decide)
  have htrl := join hve (State.trlClr_done · same) (by decide) (by decide)
  have hmem := join htrl (State.memClr_done · same) (by decide) (by decide)
  have hupd := join hmem (State.updClr_done · same) (by decide) (by decide)
  have hclo := join hupd (State.cloClr_done · same) (by decide) (by decide)
  have hpyu := join hclo (State.pyuClr_done · same) (by decide) (by decide)
  have hstl := join hpyu (State.stlClr_done · same) (by decide) (by decide)
  have hplt := join hstl (State.pltClr_done · same) (by decide) (by decide)
  exact (join hplt (State.pciClr_done · same) (by decide) (by decide)).1

end

/-- A command that is a clear of the host does what its clear does. -/
theorem exec_clear {c : Instr} {k : Cleared} {same : List (Nat × Nat)} (hc : clearOf c = some (k, same)) {s : State}
    (hinv : s.inv) (hhost : s.hosted) : ∃ t, exec c s = .next t ∧ k.Done same s t := by
  have acts {f : State → State} (hf : k.Done same s (f s)) :
      ∃ t, (Host.Outcome.next (s.onHost f) : Host.Outcome State Fault Refusal) = .next t ∧ k.Done same s t :=
    ⟨f s, by rw [State.onHost_of_hosted hhost], hf⟩
  cases c <;> cases hc
  case tickClrStats => exact acts (State.tickClr_done hinv.2 same)
  case fmtClr => exact acts (State.fmtClr_done hinv.2 same)
  case qntClr => exact acts (State.qntClr_done hinv.2 same)
  case qntStatClr => exact acts (State.qntStatClr_done hinv.2 same)
  case meStatClr => exact acts (State.meClr_done hinv.2 same)
  case veStatClr => exact acts (State.veClr_done hinv.2 same)
  case veFlagsClr => exact acts (State.veFlagsClr_done hinv.2 same)
  case trlStatClr => exact acts (State.trlClr_done hinv.2 same)
  case memStatClr => exact acts (State.memClr_done hinv.2 same)
  case updStatClr => exact acts (State.updClr_done hinv.2 same)
  case cloStatClr => exact acts (State.cloClr_done hinv.2 same)
  case pyuStatClr => exact acts (State.pyuClr_done hinv.2 same)
  case stlStatClr => exact acts (State.stlClr_done hinv.2 same)
  case pltStatClr => exact acts (State.pltClr_done hinv.2 same)
  case pciStatClr => exact acts (State.pciClr_done hinv.2 same)
  case topClrStats => exact acts (State.topClr_done hinv.2 same)

/-- Settles O7: each clear resets its registers before the events of its cycle are added. -/
theorem statisticsClearsReset : Obligations.StatisticsClearsReset := by
  intro c k same hc s hinv hhost
  obtain ⟨t, hexec, hdone⟩ := exec_clear hc hinv hhost
  refine ⟨t, hexec, hdone.amount, hdone.banked, hdone.plain, fun o hb hp => hdone.frame o ?_, hdone.evolves.keep,
    State.sameBytes_of_mem_hbm (hdone.evolves.keep .mem (by decide)) (hdone.evolves.keep .hbm (by decide))⟩
  exact fun ho => (List.mem_append.mp ho).elim hb hp

end Sys2Proof.Machine

/-! What an operation may write: the parts of the state that its law names, and the registers of a list. -/

namespace Sys2Proof.Machine

set_option Elab.async false

/-- `t` comes from `s` by operations that change only the parts in `P` and only the registers in `L`. -/
structure Writes (P : List Part) (L : List Nat) (s t : State) : Prop where
  evolves : Evolves P s t
  regs : s.sameRegs t L

theorem Writes.refl {P : List Part} {L : List Nat} (s : State) : Writes P L s s := ⟨Evolves.refl s, s.sameRegs_refl L⟩

/-- One operation after another; the second writes what the first may write. -/
theorem Writes.step {P Q : List Part} {L M : List Nat} {s t u : State} (h : Writes Q M s t) (g : Writes P L t u)
    (hp : (P.all fun p => Q.contains p) = true := by decide) (hl : ∀ o ∈ L, o ∈ M := by simp) : Writes Q M s u :=
  ⟨h.evolves.step g.evolves hp, State.sameRegs_trans h.regs g.regs hl⟩

theorem Writes.widen {P Q : List Part} {L M : List Nat} {s t : State} (g : Writes P L s t)
    (hp : (P.all fun p => Q.contains p) = true := by decide) (hl : ∀ o ∈ L, o ∈ M := by simp) : Writes Q M s t :=
  (Writes.refl s).step g hp hl

theorem Writes.ite {P : List Part} {L : List Nat} {s t u : State} (c : Prop) [Decidable c] (h : Writes P L s t)
    (g : Writes P L s u) : Writes P L s (if c then t else u) := by split <;> assumption

/-- What a list of operations writes, if each writes no more. -/
theorem Writes.foldl {α : Type} {P : List Part} {L : List Nat} {f : State → α → State} (h : ∀ s a, Writes P L s (f s a))
    (l : List α) (s : State) : Writes P L s (l.foldl f s) := by
  induction l generalizing s with
  | nil => exact Writes.refl s
  | cons a l ih => exact (h s a).step (ih _) (by simp) (fun _ ho => ho)

/-- An operation on other parts writes no register. -/
theorem Evolves.writes {P : List Part} {s t : State} (h : Evolves P s t) (hregs : .regs ∉ P := by decide) :
    Writes P [] s t := ⟨h, State.sameRegs_of_regs s t [] (h.keep .regs hregs)⟩

theorem State.sameRegs_mono {s t : State} {L M : List Nat} (h : s.sameRegs t L) (hl : ∀ o ∈ L, o ∈ M := by simp) :
    s.sameRegs t M := fun o ho => h o fun hL => ho (hl o hL)

/-- The parts and registers written, where memory and its buffers are not among them. -/
theorem Writes.touches {P : List Part} {L : List Nat} {s t : State} (h : Writes P L s t) (hmem : .mem ∉ P := by decide)
    (hhbm : .hbm ∉ P := by decide) : s.touches t P L := h.evolves.touches h.regs hmem hhbm

theorem Writes.reg {P : List Part} {L : List Nat} {s t : State} (h : Writes P L s t) {o : Nat} (ho : o ∉ L) :
    t.reg o = s.reg o := h.regs o ho

theorem Writes.wf {P : List Part} {L : List Nat} {s t : State} (h : Writes P L s t) (hs : storeWf 0 s.regs = true) :
    storeWf 0 t.regs = true := h.evolves.regs hs

theorem Writes.bit {P : List Part} {L : List Nat} {s t : State} (h : Writes P L s t) {o : Nat} (ho : o ∉ L) (i : Nat) :
    t.bit o i = s.bit o i := State.bit_of_reg (h.reg ho) i

theorem Writes.fld {P : List Part} {L : List Nat} {s t : State} (h : Writes P L s t) {o : Nat} (ho : o ∉ L) (hi lo : Nat) :
    t.fld o hi lo = s.fld o hi lo := State.fld_of_reg (h.reg ho) hi lo

theorem Writes.regN {P : List Part} {L : List Nat} {s t : State} (h : Writes P L s t) {o : Nat} (ho : o ∉ L) :
    t.regN o = s.regN o := congrArg BitVec.toNat (h.reg ho)

/-! ## The operations on registers -/

theorem State.setReg_writes (s : State) (o : Nat) (v : DWord) : Writes [.regs] [o] s (s.setReg o v) :=
  ⟨s.setReg_evolves o v, s.sameRegs_setReg o v⟩

theorem State.setRegN_writes (s : State) (o v : Nat) : Writes [.regs] [o] s (s.setRegN o v) := s.setReg_writes o _

theorem State.setFld_writes (s : State) (o hi lo x : Nat) : Writes [.regs] [o] s (s.setFld o hi lo x) := s.setReg_writes o _

theorem State.setBit_writes (s : State) (o i : Nat) (b : Bool) : Writes [.regs] [o] s (s.setBit o i b) := s.setReg_writes o _

theorem State.orReg_writes (s : State) (o : Nat) (m : DWord) : Writes [.regs] [o] s (s.orReg o m) := s.setReg_writes o _

theorem State.clearReg_writes (s : State) (o : Nat) (m : DWord) : Writes [.regs] [o] s (s.clearReg o m) := s.setReg_writes o _

theorem State.count_writes (s : State) (o w n : Nat) : Writes [.regs] [o] s (s.count o w n) := s.setReg_writes o _

theorem State.maxReg_writes (s : State) (o v : Nat) : Writes [.regs] [o] s (s.maxReg o v) := s.setReg_writes o _

theorem State.minReg_writes (s : State) (o v : Nat) : Writes [.regs] [o] s (s.minReg o v) := s.setReg_writes o _

theorem State.zeroRegs_writes (s : State) (l : List Nat) : Writes [.regs] l s (s.zeroRegs l) :=
  ⟨s.zeroRegs_evolves l, fun o ho => s.reg_zeroRegs_ne l o ho⟩

theorem State.event_writes (s : State) (o i : Nat) : Writes Part.signalled [o] s (s.event o i) :=
  ⟨(s.event_evolves o i).widen rfl, s.sameRegs_event o i⟩

/-! ## An update of one part of the state -/

theorem State.evolves_free (s : State) (free : Nat) : Evolves [.free] s { s with free := free } := by
  refine Evolves.update (Evolves.refl s) (Evolves.part_in rfl) ?_ ?_ ?_ ?_ ?_ ?_ ?_ ?_ ?_ ?_ ?_ ?_ ?_ ?_ ?_ ?_ ?_ ?_ ?_ ?_ ?_
    rfl ⟨rfl, rfl, rfl⟩ <;> exact Evolves.part_same

theorem State.evolves_heldOut (s : State) (heldOut : List Output) : Evolves [.heldOut] s { s with heldOut := heldOut } := by
  refine Evolves.update (Evolves.refl s) ?_ (Evolves.part_in rfl) ?_ ?_ ?_ ?_ ?_ ?_ ?_ ?_ ?_ ?_ ?_ ?_ ?_ ?_ ?_ ?_ ?_ ?_ ?_ ?_
    rfl ⟨rfl, rfl, rfl⟩ <;> exact Evolves.part_same

theorem State.evolves_boot (s : State) (boot : Boot) : Evolves [.boot] s { s with boot := boot } := by
  refine Evolves.update (Evolves.refl s) ?_ ?_ (Evolves.part_in rfl) ?_ ?_ ?_ ?_ ?_ ?_ ?_ ?_ ?_ ?_ ?_ ?_ ?_ ?_ ?_ ?_ ?_ ?_ ?_
    rfl ⟨rfl, rfl, rfl⟩ <;> exact Evolves.part_same

theorem State.evolves_image (s : State) (image : ImageSt) : Evolves [.image] s { s with image := image } := by
  refine Evolves.update (Evolves.refl s) ?_ ?_ ?_ (Evolves.part_in rfl) ?_ ?_ ?_ ?_ ?_ ?_ ?_ ?_ ?_ ?_ ?_ ?_ ?_ ?_ ?_ ?_ ?_ ?_
    rfl ⟨rfl, rfl, rfl⟩ <;> exact Evolves.part_same

theorem State.evolves_tick (s : State) (tick : TickSt) : Evolves [.tick] s { s with tick := tick } := by
  refine Evolves.update (Evolves.refl s) ?_ ?_ ?_ ?_ (Evolves.part_in rfl) ?_ ?_ ?_ ?_ ?_ ?_ ?_ ?_ ?_ ?_ ?_ ?_ ?_ ?_ ?_ ?_ ?_
    rfl ⟨rfl, rfl, rfl⟩ <;> exact Evolves.part_same

theorem State.evolves_adm (s : State) (adm : AdmSt) : Evolves [.adm] s { s with adm := adm } := by
  refine Evolves.update (Evolves.refl s) ?_ ?_ ?_ ?_ ?_ (Evolves.part_in rfl) ?_ ?_ ?_ ?_ ?_ ?_ ?_ ?_ ?_ ?_ ?_ ?_ ?_ ?_ ?_ ?_
    rfl ⟨rfl, rfl, rfl⟩ <;> exact Evolves.part_same

theorem State.evolves_seg (s : State) (seg : SegSt) : Evolves [.seg] s { s with seg := seg } := by
  refine Evolves.update (Evolves.refl s) ?_ ?_ ?_ ?_ ?_ ?_ (Evolves.part_in rfl) ?_ ?_ ?_ ?_ ?_ ?_ ?_ ?_ ?_ ?_ ?_ ?_ ?_ ?_ ?_
    rfl ⟨rfl, rfl, rfl⟩ <;> exact Evolves.part_same

theorem State.evolves_me (s : State) (me : MatrixSt) : Evolves [.me] s { s with me := me } := by
  refine Evolves.update (Evolves.refl s) ?_ ?_ ?_ ?_ ?_ ?_ ?_ (Evolves.part_in rfl) ?_ ?_ ?_ ?_ ?_ ?_ ?_ ?_ ?_ ?_ ?_ ?_ ?_ ?_
    rfl ⟨rfl, rfl, rfl⟩ <;> exact Evolves.part_same

theorem State.evolves_ve (s : State) (ve : VectorSt) : Evolves [.ve] s { s with ve := ve } := by
  refine Evolves.update (Evolves.refl s) ?_ ?_ ?_ ?_ ?_ ?_ ?_ ?_ (Evolves.part_in rfl) ?_ ?_ ?_ ?_ ?_ ?_ ?_ ?_ ?_ ?_ ?_ ?_ ?_
    rfl ⟨rfl, rfl, rfl⟩ <;> exact Evolves.part_same

theorem State.evolves_stl (s : State) (stl : StilePlots) : Evolves [.stl] s { s with stl := stl } := by
  refine Evolves.update (Evolves.refl s) ?_ ?_ ?_ ?_ ?_ ?_ ?_ ?_ ?_ (Evolves.part_in rfl) ?_ ?_ ?_ ?_ ?_ ?_ ?_ ?_ ?_ ?_ ?_ ?_
    rfl ⟨rfl, rfl, rfl⟩ <;> exact Evolves.part_same

theorem State.evolves_upd (s : State) (upd : UpdSt) : Evolves [.upd] s { s with upd := upd } := by
  refine Evolves.update (Evolves.refl s) ?_ ?_ ?_ ?_ ?_ ?_ ?_ ?_ ?_ ?_ ?_ (Evolves.part_in rfl) ?_ ?_ ?_ ?_ ?_ ?_ ?_ ?_ ?_ ?_
    rfl ⟨rfl, rfl, rfl⟩ <;> exact Evolves.part_same

theorem State.evolves_clo (s : State) (clo : CloSt) : Evolves [.clo] s { s with clo := clo } := by
  refine Evolves.update (Evolves.refl s) ?_ ?_ ?_ ?_ ?_ ?_ ?_ ?_ ?_ ?_ ?_ ?_ (Evolves.part_in rfl) ?_ ?_ ?_ ?_ ?_ ?_ ?_ ?_ ?_
    rfl ⟨rfl, rfl, rfl⟩ <;> exact Evolves.part_same

theorem State.evolves_pyu (s : State) (pyu : PyurnSt) : Evolves [.pyu] s { s with pyu := pyu } := by
  refine Evolves.update (Evolves.refl s) ?_ ?_ ?_ ?_ ?_ ?_ ?_ ?_ ?_ ?_ ?_ ?_ ?_ ?_ (Evolves.part_in rfl) ?_ ?_ ?_ ?_ ?_ ?_ ?_
    rfl ⟨rfl, rfl, rfl⟩ <;> exact Evolves.part_same

theorem State.evolves_pwr (s : State) (pwr : PowerSt) : Evolves [.pwr] s { s with pwr := pwr } := by
  refine Evolves.update (Evolves.refl s) ?_ ?_ ?_ ?_ ?_ ?_ ?_ ?_ ?_ ?_ ?_ ?_ ?_ ?_ ?_ (Evolves.part_in rfl) ?_ ?_ ?_ ?_ ?_ ?_
    rfl ⟨rfl, rfl, rfl⟩ <;> exact Evolves.part_same

theorem State.evolves_ldg (s : State) (ldg : LodgeSt) : Evolves [.ldg] s { s with ldg := ldg } := by
  refine Evolves.update (Evolves.refl s) ?_ ?_ ?_ ?_ ?_ ?_ ?_ ?_ ?_ ?_ ?_ ?_ ?_ ?_ ?_ ?_ (Evolves.part_in rfl) ?_ ?_ ?_ ?_ ?_
    rfl ⟨rfl, rfl, rfl⟩ <;> exact Evolves.part_same

theorem State.evolves_host (s : State) (host : HostIf) : Evolves [.host] s { s with host := host } := by
  refine Evolves.update (Evolves.refl s) ?_ ?_ ?_ ?_ ?_ ?_ ?_ ?_ ?_ ?_ ?_ ?_ ?_ ?_ ?_ ?_ ?_ (Evolves.part_in rfl) ?_ ?_ ?_ ?_
    rfl ⟨rfl, rfl, rfl⟩ <;> exact Evolves.part_same

theorem State.evolves_sec (s : State) (sec : SecSt) : Evolves [.sec] s { s with sec := sec } := by
  refine Evolves.update (Evolves.refl s) ?_ ?_ ?_ ?_ ?_ ?_ ?_ ?_ ?_ ?_ ?_ ?_ ?_ ?_ ?_ ?_ ?_ ?_ (Evolves.part_in rfl) ?_ ?_ ?_
    rfl ⟨rfl, rfl, rfl⟩ <;> exact Evolves.part_same

theorem State.evolves_bel (s : State) (bel : Belvedere) : Evolves [.bel] s { s with bel := bel } := by
  refine Evolves.update (Evolves.refl s) ?_ ?_ ?_ ?_ ?_ ?_ ?_ ?_ ?_ ?_ ?_ ?_ ?_ ?_ ?_ ?_ ?_ ?_ ?_ ?_ ?_ (Evolves.part_in rfl)
    rfl ⟨rfl, rfl, rfl⟩ <;> exact Evolves.part_same

/-! ## Fields of a register -/

/-- A field beside the one that was written reads as before. -/
theorem State.fld_setFld_ne (s : State) (o : Nat) {hi lo hi' lo' : Nat} (x : Nat) (h : storeWf 0 s.regs = true)
    (hhi : hi < 64) (hne : hi' < lo ∨ hi < lo') : (s.setFld o hi lo x).fld o hi' lo' = s.fld o hi' lo' :=
  State.fld_eq_of_bit_eq fun i hlo hhi' => by rw [s.bit_setFld o x i h hhi, if_neg (by omega)]

/-- A bit beside the field that was written reads as before. -/
theorem State.bit_setFld_ne (s : State) (o : Nat) {hi lo : Nat} (x : Nat) {i : Nat} (h : storeWf 0 s.regs = true)
    (hhi : hi < 64) (hne : i < lo ∨ hi < i) : (s.setFld o hi lo x).bit o i = s.bit o i := by
  rw [s.bit_setFld o x i h hhi, if_neg (by omega)]

end Sys2Proof.Machine

/-! Start-up (R376 to R380): the sequence after 48 V, the ports, the HBM and the module that is ready. -/

namespace Sys2Proof.Machine

set_option Elab.async false

/-! ## The loss of the 48 V supply, and its return -/

/-- What a loss writes into the register file of the copies of ME_FAIL reads as it was. -/
theorem State.storeGet_lostRegs_fail (s : State) (kept : Regs) (hwf : storeWf 0 (resetRegs ++ kept) = true) {k : Nat}
    (hk : k < 16) : storeGet 0 (s.lostRegs kept) (Reg.ME_FAIL + 4 * k) = s.reg (Reg.ME_FAIL + 4 * k) := by
  have hfold : ∀ l : List Nat, k ∈ l → ∀ m, storeWf 0 m = true → storeGet 0 (l.foldl (fun m k =>
      storeSet 0 m (Reg.ME_FAIL + 4 * k) (s.reg (Reg.ME_FAIL + 4 * k))) m) (Reg.ME_FAIL + 4 * k) =
        s.reg (Reg.ME_FAIL + 4 * k) := by
    intro l
    induction l using List.reverseRecOn with
    | nil => exact fun h => absurd h List.not_mem_nil
    | append_singleton l j ih =>
      intro hmem m hm
      rw [List.foldl_append, List.foldl_cons, List.foldl_nil]
      by_cases hj : k = j
      · subst hj
        exact storeGet_storeSet_same 0 _ _ _ (storeWf_foldl l (fun m _ hm => storeWf_storeSet 0 m _ _ hm) hm)
      · rw [storeGet_storeSet_ne 0 _ _ _ _ (by omega)]
        exact ih ((List.mem_append.mp hmem).resolve_right (by simpa using hj)) m hm
  exact hfold _ (List.mem_range.mpr hk) _ hwf

/-- The parts of a module that has lost its supply. -/
theorem State.toOff_parts (s : State) :
    s.toOff.mem = [] ∧ s.toOff.image = {} ∧ s.toOff.tick = {} ∧ s.toOff.upd = {} ∧ s.toOff.adm = {} ∧
      s.toOff.boot = { status := s.boot.status, cached := s.boot.cached } ∧ s.toOff.regs = s.lostRegs [] := by
  unfold State.toOff State.lose
  dsimp only
  exact ⟨rfl, rfl, rfl, rfl, rfl, rfl, rfl⟩

/-- R376: a module that was Off starts from what the loss of its supply left. -/
theorem State.powerUp_of_off {s : State} (hoff : s.boot.powered = false) (perst : Bool) : s.powerUp perst =
    ((({ s.toOff with boot := { s.toOff.boot with powered := true }, ldg := {}, host := { perst := perst } } : State)).setReg
      Reg.LDG_STATE 0).live 0x018 1 := by
  unfold State.powerUp
  simp only [hoff, Bool.false_eq_true, if_false]

/-- The registers after the return of the supply. -/
theorem State.reg_powerUp {s : State} (hoff : s.boot.powered = false) (perst : Bool) (o : Nat) :
    (s.powerUp perst).reg o = storeGet 0 (s.lostRegs []) o := by
  rw [State.powerUp_of_off hoff]
  have hwf : storeWf 0 (s.lostRegs []) = true := s.lostRegs_wf [] (by decide)
  have hregs : s.toOff.regs = s.lostRegs [] := s.toOff_parts.2.2.2.2.2.2
  generalize s.toOff = u at *
  change storeGet 0 (storeSet 0 u.regs Reg.LDG_STATE 0) o = _
  rw [hregs]
  by_cases ho : o = Reg.LDG_STATE
  · subst ho
    rw [storeGet_storeSet_same 0 _ _ _ hwf, State.storeGet_lostRegs s [] (by decide)]
    rfl
  · exact storeGet_storeSet_ne 0 _ _ _ _ ho

/-! ## Work on the ports in order -/

/-- Of a row of operations, each on its own port, the one of a port meets that port as it was. -/
theorem State.port_eachPort {P : List Part} {f : State → Nat → State} (hlaw : ∀ s q, Evolves P s (f s q))
    (hown : ∀ s q p, p ≠ q → (f s q).port p = s.port p) {l : List Nat} {p : Nat} (s : State) (hl : l.Nodup) :
    (p ∉ l → (s.eachPort f l).port p = s.port p) ∧
    (p ∈ l → ∃ u, Evolves P s u ∧ u.port p = s.port p ∧ (s.eachPort f l).port p = (f u p).port p) := by
  induction l generalizing s with
  | nil => exact ⟨fun _ => rfl, fun h => absurd h List.not_mem_nil⟩
  | cons q l ih =>
    obtain ⟨hq, hl⟩ := List.nodup_cons.mp hl
    obtain ⟨hout, hin⟩ := ih (f s q) hl
    rw [State.eachPort]
    refine ⟨fun h => ?_, fun h => ?_⟩
    · obtain ⟨hne, hnot⟩ := not_or.mp (mt List.mem_cons.mpr h)
      exact (hout hnot).trans (hown s q p hne)
    · by_cases hp : p = q
      · subst hp
        exact ⟨s, Evolves.refl s, rfl, hout hq⟩
      · obtain ⟨u, hu, hport, heq⟩ := hin ((List.mem_cons.mp h).resolve_left hp)
        exact ⟨u, (hlaw s q).step hu (Evolves.covers_self P), hport.trans (hown s q p hp), heq⟩

theorem State.port_setPort_ne (s : State) (q : Nat) (x : Port) {p : Nat} (h : p ≠ q) : (s.setPort q x).port p = s.port p :=
  storeGet_storeSet_ne ({} : Port) s.pyu.ports q p x h

/-- A port other than one that is off and knows nothing reads back. -/
theorem State.port_setPort_new (s : State) (p : Nat) {x : Port} (h : x ≠ {}) : (s.setPort p x).port p = x :=
  storeGet_storeSet_new ({} : Port) s.pyu.ports p x h

/-- A port that begins to train. -/
theorem State.port_trainPort (s : State) (p : Nat) :
    ((s.trainPort p).port p).st = portTraining ∧ ((s.trainPort p).port p).map = s.laneMap p := by
  rw [State.trainPort, State.port_setPort_new _ _ fun h => absurd (congrArg Port.st h) (by decide : portTraining ≠ portOff)]
  exact ⟨rfl, rfl⟩

/-- R276: a port that is off trains if it has a lane in service; the others stay. -/
theorem State.port_freePorts (s : State) (p : Fin 16) :
    ((s.port p).st = portOff → (List.range 8).any (laneInService (s.laneMap p)) = true →
      (s.freePorts.port p).st = portTraining ∧ (s.freePorts.port p).map = s.laneMap p) ∧
    ((s.port p).st ≠ portOff → s.freePorts.port p = s.port p) := by
  obtain ⟨u, hlaw, hport, heq⟩ := (State.port_eachPort (P := [.pyu]) (p := p) (f := fun s p =>
      if (s.port p).st = portOff && (List.range 8).any (laneInService (s.laneMap p)) then s.trainPort p else s)
    (fun s q => Evolves.ite _ (s.trainPort_evolves q) (Evolves.refl s))
    (fun s q p h => by split <;> [exact s.port_setPort_ne q _ h; rfl]) s (List.nodup_range (n := 16))).2
    (List.mem_range.mpr p.isLt)
  have hmap : u.laneMap p = s.laneMap p := by
    have hsbk : u.sbk = s.sbk := hlaw.keep .sbk (by decide)
    rw [State.laneMap, State.seed, State.seedStored, State.wear, hsbk]
    rfl
  rw [State.freePorts, heq]
  beta_reduce
  rw [hport, hmap]
  refine ⟨fun hoff hlane => ?_, fun hon => ?_⟩
  · rw [if_pos (by simp [hoff, hlane]), ← hmap]
    exact u.port_trainPort p
  · rw [if_neg (by simp [hon])]
    exact hport

/-! ## The map of the channels -/

/-- Channels that trained are the ones that the map wants, in service. -/
theorem State.copyMap_parts (s : State) : s.copyMap.hbm = { s.hbm with inService := s.wantedMap } ∧
    Writes (.hbm :: Part.signalled) [Reg.MEM_EVENT] s s.copyMap := by
  rw [State.copyMap]
  split
  next h => exact ⟨by rw [h], Writes.refl s⟩
  next h =>
    have hset := (Evolves.hbm (P := [.hbm]) s { s.hbm with inService := s.wantedMap } rfl).writes
    exact ⟨(State.event_evolves _ _ _).keep .hbm (by decide), (hset.widen).step (State.event_writes _ _ _)⟩

/-- A training that failed no channel maps none out. -/
theorem State.eachPort_autoMapGroup_nil (s : State) (l : List Nat) :
    s.eachPort (fun s k => s.autoMapGroup [] k) l = s := by
  induction l generalizing s with
  | nil => rfl
  | cons k l ih => exact ih s

/-! ## The steps of start-up -/

theorem exec_powerValid48v {s : State} (hoff : s.boot.powered = false) (perst : Bool) :
    exec (.powerValid48v perst) s = .next (s.powerUp perst) := by
  change execPowerValid48v perst s = _
  rw [execPowerValid48v, if_neg (by simp [hoff])]

theorem exec_pyurnTrainingOpen {s : State} (hpow : s.boot.powered = true) (hdom : 2 ≤ s.boot.domains)
    (htrain : s.boot.training = false) : exec .pyurnTrainingOpen s =
      .next ({ s with boot := { s.boot with training := true } } : State).freePorts := by
  change execPyurnTrainingOpen s = _
  rw [execPyurnTrainingOpen, if_pos (by simp [hpow, hdom, htrain])]

theorem exec_hbmTrainingDone_nil {s : State} (hstep : s.boot.step = 6) (hok : s.boot.failed = false)
    (hdom : 2 ≤ s.boot.domains) : exec (.hbmTrainingDone []) s =
      .next { s.copyMap with hbm := { s.copyMap.hbm with trained := true }, boot := { s.copyMap.boot with step := 7 } } := by
  change execHbmTrainingDone [] s = _
  rw [execHbmTrainingDone, if_pos ⟨hstep, hok, hdom⟩, s.eachPort_autoMapGroup_nil]

/-- R45: a load that nothing refuses begins its fetch. -/
theorem State.load_begins {s : State} (hstep : 8 ≤ s.boot.step) (hload : s.image.st ≠ .loading)
    (hverify : s.image.st ≠ .verifying) (hidle : s.busy = false) : s.load = s.beginLoad := by
  rw [State.load, if_neg (Nat.not_lt.mpr hstep)]
  split
  next h => exact absurd h hload
  next h => exact absurd h hverify
  next => rw [if_neg (by simp [hidle])]

/-- R377: what 48 V finds on a module that was Off. -/
theorem powerUp_starts {s : State} (hoff : s.boot.powered = false) (perst : Bool) :
    let t := s.powerUp perst
    t.boot.powered = true ∧ t.boot.step = 0 ∧ t.boot.domains = 0 ∧ t.host.perst = perst ∧
      (∀ o, (∀ k, k < 16 → o ≠ Reg.ME_FAIL + 4 * k) → t.reg o = State.reset.reg o) ∧
      (∀ k, k < 16 → t.reg (Reg.ME_FAIL + 4 * k) = s.reg (Reg.ME_FAIL + 4 * k)) ∧ (∀ k, t.byteAt k = 0) ∧
      t.image = {} ∧ t.tick = {} ∧ t.upd = {} ∧ t.adm = {} ∧ t.ldg = {} ∧
      t.boot.status = s.boot.status ∧ t.boot.cached = s.boot.cached ∧
      t.sbk = s.sbk ∧ t.hlt.bytes = s.hlt.bytes ∧ t.hlt.tail = s.hlt.tail ∧ t.hlt.records = s.hlt.records ∧
      t.out = s.out ∧ t.pending = s.pending := by
  intro t
  have hreg (o : Nat) : t.reg o = storeGet 0 (s.lostRegs []) o := State.reg_powerUp hoff perst o
  have ht : t = ((({ s.toOff with boot := { s.toOff.boot with powered := true }, ldg := {}, host := { perst := perst } } :
      State)).setReg Reg.LDG_STATE 0).live 0x018 1 := State.powerUp_of_off hoff perst
  obtain ⟨hmem, himage, htick, hupd, hadm, hboot, _⟩ := s.toOff_parts
  have hout : s.toOff.out = s.out := s.toOff_evolves.keep .out (by decide)
  have hsbk : s.toOff.sbk = s.sbk := s.toOff_evolves.keep .sbk (by decide)
  have hpending : s.toOff.pending = s.pending := s.toOff_evolves.keep .pending (by decide)
  have hlt : s.toOff.hlt.bytes = s.hlt.bytes ∧ s.toOff.hlt.tail = s.hlt.tail ∧ s.toOff.hlt.records = s.hlt.records := by
    unfold State.toOff State.lose
    dsimp only
    exact ⟨rfl, rfl, rfl⟩
  clear_value t
  generalize s.toOff = u at *
  subst ht
  refine ⟨rfl, congrArg Boot.step hboot, congrArg Boot.domains hboot, rfl, fun o ho => ?_, fun k hk => ?_, fun k => ?_,
    himage, htick, hupd, hadm, rfl, (congrArg Boot.status hboot :), (congrArg Boot.cached hboot :), hsbk, hlt.1, hlt.2.1, hlt.2.2,
    hout, hpending⟩
  · rw [hreg, s.storeGet_lostRegs [] ho, List.append_nil]
    rfl
  · rw [hreg, s.storeGet_lostRegs_fail [] (by decide) hk]
  · change storeGet 0 u.mem k = 0
    rw [hmem]
    rfl

/-- R380: the module is ready. -/
theorem exec_moduleReady {s : State} (hstep : s.boot.step = 7) : exec .moduleReady s =
    .next (if s.boot.heldLoad then ({ s with boot := { s.boot with step := 8, heldLoad := false } } : State).load
      else { s with boot := { s.boot with step := 8, heldLoad := false } }) := by
  change execModuleReady s = _
  rw [execModuleReady, if_pos hstep]

/-- The image of a load that begins. -/
theorem State.beginLoad_image (s : State) : s.beginLoad.image.st = .loading ∧ s.beginLoad.boot = s.boot :=
  ⟨rfl, s.beginLoad_evolves.keep .boot (by decide)⟩

theorem exec_lodgeAlive {s : State} (hpow : s.boot.powered = true) (hstep : s.boot.step = 0) : exec .lodgeAlive s =
    .next { s with boot := { s.boot with step := 1 }, out := s.out ++ [.hotJoin] } := by
  change execLodgeAlive s = _
  rw [execLodgeAlive, if_pos ⟨hpow, hstep⟩]
  rfl

theorem exec_trainingRetry {s : State} {p : Fin 16} (htrain : s.boot.training = true)
    (hport : (s.port p).st = portTraining) :
    exec (.trainingRetry p) s = .next { s with out := s.out ++ [.training p] } := by
  change execTrainingRetry p s = _
  rw [execTrainingRetry, if_pos (by simp [htrain, hport])]
  rfl

/-- R379: training open on both sides starts the ports that are off. -/
theorem pyurnTrainingOpen_ports {s : State} (hpow : s.boot.powered = true) (hdom : 2 ≤ s.boot.domains)
    (htrain : s.boot.training = false) : ∃ t, exec .pyurnTrainingOpen s = .next t ∧
      t.boot = { s.boot with training := true } ∧
      (∀ p : Fin 16, (s.port p).st = portOff → (List.range 8).any (laneInService (s.laneMap p)) = true →
        (t.port p).st = portTraining ∧ (t.port p).map = s.laneMap p) ∧
      (∀ p : Fin 16, (s.port p).st ≠ portOff → t.port p = s.port p) ∧ s.touches t [.boot, .pyu] [] := by
  have hopen := s.evolves_boot { s.boot with training := true }
  have hports := ({ s with boot := { s.boot with training := true } } : State).port_freePorts
  have hlaw := ({ s with boot := { s.boot with training := true } } : State).freePorts_evolves
  refine ⟨_, exec_pyurnTrainingOpen hpow hdom htrain, hlaw.keep .boot (by decide), fun p => (hports p).1,
    fun p => (hports p).2, ?_⟩
  exact (((hopen.widen rfl).step hlaw rfl).writes : Writes [.boot, .pyu] [] _ _).touches

/-- The end of training changes the step and the channels in service. -/
theorem State.trained_touches {s u : State} (hboot : u.boot = s.boot)
    (hhbm : u.hbm = { s.hbm with inService := s.wantedMap })
    (hwrites : Writes (.hbm :: Part.signalled) [Reg.MEM_EVENT] s u) :
    let t : State := { u with hbm := { u.hbm with trained := true }, boot := { u.boot with step := 7 } }
    t.boot = { s.boot with step := 7 } ∧ t.hbm = { s.hbm with trained := true, inService := s.wantedMap } ∧
      s.keeps t (.boot :: .hbm :: Part.signalled) ∧ s.sameRegs t [Reg.MEM_EVENT] := by
  have htrained := Evolves.hbm u { u.hbm with trained := true } (P := [.hbm]) rfl
  have hready := ({ u with hbm := { u.hbm with trained := true } } : State).evolves_boot { u.boot with step := 7 }
  have hlaw : Evolves (.boot :: .hbm :: Part.signalled) s
      { u with hbm := { u.hbm with trained := true }, boot := { u.boot with step := 7 } } :=
    ((hwrites.evolves.widen rfl).step htrained rfl).step hready rfl
  exact ⟨by rw [hboot], by rw [hhbm], hlaw.keep, hwrites.regs⟩

/-- R380: the HBM is trained with no channel failed. -/
theorem hbmTrainingDone_trains {s : State} (hstep : s.boot.step = 6) (hok : s.boot.failed = false)
    (hdom : 2 ≤ s.boot.domains) : ∃ t, exec (.hbmTrainingDone []) s = .next t ∧
      t.boot = { s.boot with step := 7 } ∧ t.hbm = { s.hbm with trained := true, inService := s.wantedMap } ∧
      s.keeps t (.boot :: .hbm :: Part.signalled) ∧ s.sameRegs t [Reg.MEM_EVENT] := by
  obtain ⟨hhbm, hwrites⟩ := s.copyMap_parts
  exact ⟨_, exec_hbmTrainingDone_nil hstep hok hdom,
    State.trained_touches (s.copyMap_evolves.keep .boot (by decide)) hhbm hwrites⟩

/-- R380: the module is ready, and a load written before begins. -/
theorem moduleReady_loads {s : State} (hstep : s.boot.step = 7) (hheld : s.boot.heldLoad = true)
    (hempty : s.image.st = .empty) (hidle : s.busy = false) : ∃ t, exec .moduleReady s = .next t ∧
      t.boot.step = 8 ∧ t.boot.heldLoad = false ∧ t.image.st = .loading := by
  have hload := State.load_begins (s := { s with boot := { s.boot with step := 8, heldLoad := false } }) (Nat.le_refl 8)
    (by simp [hempty]) (by simp [hempty]) hidle
  obtain ⟨hst, hboot⟩ := State.beginLoad_image { s with boot := { s.boot with step := 8, heldLoad := false } }
  rw [exec_moduleReady hstep, if_pos hheld, hload]
  exact ⟨_, rfl, by rw [hboot], by rw [hboot], hst⟩

/-- Settles O8: each step of start-up, from the return of the supply on. -/
theorem startUpRuns : Obligations.StartUpRuns := by
  refine ⟨fun perst s hoff => ⟨_, exec_powerValid48v hoff perst, powerUp_starts hoff perst⟩, fun s =>
    ⟨exec_lodgeAlive, pyurnTrainingOpen_ports, fun p => exec_trainingRetry, hbmTrainingDone_trains,
      fun hstep hheld => ?_, moduleReady_loads⟩⟩
  rw [exec_moduleReady hstep, if_neg (by simp [hheld])]

end Sys2Proof.Machine

/-! The registers that the ledger, the seed bank and the counts write. -/

namespace Sys2Proof.Machine

set_option Elab.async false

/-- The registers of the ledger that an append may change. -/
abbrev Reg.ledger : List Nat := [Reg.HLT_EVENT, Reg.HLT_LOST]

theorem State.live_writes (s : State) (off n : Nat) : Writes [.hlt] [] s (s.live off n) := (s.live_evolves off n).writes

theorem State.send_writes (s : State) (x : Output) : Writes [.out] [] s (s.send x) := (s.send_evolves x).writes

theorem State.ledgerLost_writes (s : State) : Writes [.regs] [Reg.HLT_LOST] s s.ledgerLost := s.count_writes _ _ _

theorem State.ledgerWrite_writes (s : State) (ty cls len : Nat) (body : List Byte) :
    Writes (.hlt :: Part.signalled) [Reg.HLT_EVENT] s (s.ledgerWrite ty cls len body) := by
  refine ⟨(s.ledgerWrite_evolves ty cls len body).widen rfl, fun o ho => ?_⟩
  have hevent (t : State) (c : Prop) [Decidable c] (i : Nat) : (if c then t.event Reg.HLT_EVENT i else t).reg o = t.reg o := by
    split <;> [exact t.sameRegs_event _ _ o ho; rfl]
  unfold State.ledgerWrite
  dsimp only
  rw [hevent, hevent, hevent]
  rfl

theorem State.ledgerAppend_writes (s : State) (ty cls len : Nat) (body : List Byte) :
    Writes (.hlt :: Part.signalled) Reg.ledger s (s.ledgerAppend ty cls len body) := by
  unfold State.ledgerAppend
  split
  · exact (s.live_writes _ _).widen.step (State.ledgerLost_writes _)
  · split
    · exact s.ledgerLost_writes.widen
    · exact (s.ledgerWrite_writes ty cls len body).widen

theorem State.ledgerEvent_writes (s : State) (ty cls subject detail : Nat) (data : List Byte) :
    Writes (.hlt :: Part.signalled) Reg.ledger s (s.ledgerEvent ty cls subject detail data) := s.ledgerAppend_writes ..

theorem State.ledgerFatal_writes (s : State) (kind detail : Nat) :
    Writes (.hlt :: Part.signalled) Reg.ledger s (s.ledgerFatal kind detail) := s.ledgerEvent_writes ..

theorem State.frozenHit_writes (s : State) (i : Nat) : Writes [.regs] [Reg.SBK_FROZEN] s (s.frozenHit i) := by
  unfold State.frozenHit
  dsimp only
  split
  · exact s.setBit_writes _ _ _
  · exact ((s.setBit_writes _ _ _).step (State.setFld_writes _ _ _ _ _)).step (State.setBit_writes _ _ _ _)

/-- The registers of the seed bank that a write of it may change. -/
abbrev Reg.seedBank : List Nat := [Reg.SBK_EVENT, Reg.SBK_FROZEN]

theorem State.seedAccept_writes (s : State) (i : Nat) (v : Word) :
    Writes (.sbk :: Part.signalled) Reg.seedBank s (s.seedAccept i v) := by
  refine ⟨(s.seedAccept_evolves i v).widen rfl, ?_⟩
  unfold State.seedAccept
  split
  · exact State.sameRegs_mono (s.frozenHit_writes i).regs
  · split
    · exact State.sameRegs_mono (s.event_writes _ _).regs
    · exact s.sameRegs_of_regs _ _ rfl

end Sys2Proof.Machine

/-! The boot ROM (R381 to R384). -/

namespace Sys2Proof.Machine

set_option Elab.async false

/-! ## What the ROM finds -/

theorem State.bankCode_le (s : State) (raw : Option (List Byte)) : s.bankCode raw ≤ 6 := by
  unfold State.bankCode
  split
  · exact Nat.le_refl 6
  · repeat' split
    all_goals decide

/-- A bank whose checks pass holds an image. -/
theorem State.isSome_of_bankCode {s : State} {raw : Option (List Byte)} (h : s.bankCode raw = 0) : ∃ b, raw = some b := by
  cases raw with
  | none => exact absurd h (Nat.succ_ne_zero 5)
  | some b => exact ⟨b, rfl⟩

/-- R381, R382: out of a wake from A3 the digest does not stand in for the checks. -/
theorem State.bootFind_booted {s : State} (h : s.boot.fromA3 = false) : s.bootFind.booted =
    if s.bankCode (s.bootImage s.activeBank) = 0 then (s.bootImage s.activeBank).map fun b => (s.activeBank, b)
    else if s.bankCode (s.bootImage (1 - s.activeBank)) = 0 then
      (s.bootImage (1 - s.activeBank)).map fun b => (1 - s.activeBank, b)
    else none := by
  unfold State.bootFind State.digestKnown
  simp only [h, Bool.false_and, Bool.false_eq_true, if_false]
  by_cases hact : s.bankCode (s.bootImage s.activeBank) = 0
  · simp only [hact, if_true]
  · simp only [hact, if_false]

/-- The ROM boots bank 0, bank 1 or none, and no code is above 6. -/
theorem State.bootFind_codes (s : State) :
    (s.bootFind.booted.map Prod.fst).getD 2 ≤ 2 ∧ s.bootFind.code0 ≤ 6 ∧ s.bootFind.code1 ≤ 6 := by
  have hact : s.activeBank < 2 := Nat.mod_lt _ (by decide)
  have hcode (c : Prop) [Decidable c] (raw : Option (List Byte)) : (if c then 0 else s.bankCode raw) ≤ 6 := by
    split <;> [exact Nat.zero_le 6; exact s.bankCode_le raw]
  have hbank (raw : Option (List Byte)) {n : Nat} (hn : n ≤ 2) :
      ((raw.map fun b => (n, b)).map Prod.fst).getD 2 ≤ 2 := by
    cases raw <;> [exact Nat.le_refl 2; exact hn]
  unfold State.bootFind byBank
  dsimp only
  generalize hca : (if s.digestKnown (s.bootImage s.activeBank) then 0 else s.bankCode (s.bootImage s.activeBank)) = ca
  have hca6 : ca ≤ 6 := hca ▸ hcode _ _
  refine ⟨?_, ?_⟩
  · by_cases h : ca = 0
    · rw [if_pos h]
      exact hbank _ (by omega)
    · rw [if_neg h, if_neg h]
      split <;> [exact hbank _ (by omega); exact Nat.le_refl 2]
  · split <;> [exact ⟨hca6, hcode _ _⟩; exact ⟨hcode _ _, hca6⟩]

/-- TOP_BOOT's VALID bit stands above the bank and the codes. -/
theorem State.bootBits_eq (s : State) : ∃ n, n < 2 ^ 31 ∧ bootBits s.bootFind = n + 2 ^ 31 := by
  obtain ⟨hbank, hcode0, hcode1⟩ := s.bootFind_codes
  have hback : s.bootFind.fallback.toNat ≤ 1 := Bool.toNat_le _
  exact ⟨_, by omega, rfl⟩

/-! ## The end of the boot -/

theorem State.bootRecord_writes (s : State) (f : BootFound) :
    Writes (.hlt :: Part.signalled) Reg.ledger s (s.bootRecord f) :=
  ⟨(s.bootRecord_evolves f).widen rfl, (s.ledgerEvent_writes ..).regs⟩

theorem State.raiseFloor_writes (s : State) (raw : List Byte) :
    Writes (.sbk :: Part.signalled) Reg.seedBank s (s.raiseFloor raw) := by
  unfold State.raiseFloor
  dsimp only
  split
  · split
    · exact s.seedAccept_writes _ _
    · exact (s.seedAccept_writes _ _).step (State.seedAccept_writes _ _ _) (hl := fun _ h => h)
  · exact Writes.refl s

/-- What the ROM found shows in TOP_BOOT, and Device Readiness Status goes last. -/
theorem State.bootDone_shows {s : State} (hwf : storeWf 0 s.regs = true) (f : BootFound) (hf : bootBits f < 2 ^ 64) :
    (s.bootDone f).boot.step = 6 ∧ (s.bootDone f).boot.failed = f.booted.isNone ∧
      (s.bootDone f).boot.bank = f.booted.map Prod.fst ∧ (s.bootDone f).boot.status = bootBits f ∧
      (s.bootDone f).regN Reg.TOP_BOOT = bootBits f ∧ ∃ l, (s.bootDone f).out = s.out ++ l ++ [.deviceReady] := by
  unfold State.bootDone
  dsimp only
  generalize hu : ({ s with boot := _ } : State) = u
  have hboot := congrArg State.boot hu
  have hregs : u.regs = s.regs := (congrArg State.regs hu).symm
  have hout : u.out = s.out := (congrArg State.out hu).symm
  have hset : (u.setRegN Reg.TOP_BOOT (bootBits f)).regN Reg.TOP_BOOT = bootBits f :=
    u.regN_setRegN _ _ (hregs ▸ hwf) hf
  have hlaw := (u.setRegN_writes Reg.TOP_BOOT (bootBits f)).evolves
  have hrecord := (u.setRegN Reg.TOP_BOOT (bootBits f)).bootRecord_writes f
  generalize u.setRegN Reg.TOP_BOOT (bootBits f) = v at *
  generalize v.bootRecord f = w at *
  suffices h : ∀ x, Writes (.sbk :: Part.signalled) Reg.seedBank w x → (x.send .deviceReady).boot = u.boot ∧
      (x.send .deviceReady).regN Reg.TOP_BOOT = bootBits f ∧
      ∃ l, (x.send .deviceReady).out = s.out ++ l ++ [.deviceReady] by
    split
    · obtain ⟨hb, hshow⟩ := h _ (w.raiseFloor_writes _)
      rw [hb, ← hboot]
      exact ⟨rfl, rfl, rfl, rfl, hshow⟩
    · obtain ⟨hb, hshow⟩ := h _ (Writes.refl w)
      rw [hb, ← hboot]
      exact ⟨rfl, rfl, rfl, rfl, hshow⟩
  intro x hfloor
  obtain ⟨l, hl⟩ := hlaw.out.trans (hrecord.evolves.out.trans hfloor.evolves.out)
  refine ⟨?_, ?_, l, ?_⟩
  · exact (hfloor.evolves.keep .boot (by decide)).trans
      ((hrecord.evolves.keep .boot (by decide)).trans (hlaw.keep .boot (by decide)))
  · exact (hfloor.regN (by decide)).trans ((hrecord.regN (by decide)).trans hset)
  · rw [← hout, hl]
    rfl

theorem exec_bootVerified {s : State} (hpow : s.boot.powered = true) (hstep : s.boot.step = 1) (hps : s.ldg.ps = .a0) :
    exec .bootVerified s = .next (s.bootDone s.bootFind) := by
  change execBootVerified s = _
  rw [execBootVerified, if_pos ⟨hpow, hstep, by simp [hps], by simp [hps]⟩]

/-- Settles O9: the bank booted is the one that `bootFind` names. -/
theorem bootRomPicksBank : Obligations.BootRomPicksBank := by
  intro s hinv hpow hstep hps hfrom
  obtain ⟨n, hn, hbits⟩ := s.bootBits_eq
  obtain ⟨hsix, hfailed, hbank, hstatus, hshow, hready⟩ :=
    State.bootDone_shows hinv.2 s.bootFind (hbits ▸ by omega)
  have hfound := State.bootFind_booted hfrom
  have hlaw := s.bootDone_evolves s.bootFind
  refine ⟨_, exec_bootVerified hpow hstep hps, hsix, ⟨fun hact => ?_, fun hact hoth => ?_, fun hact hoth => ?_⟩, ?_,
    hstatus.trans hshow.symm, hlaw.keep .hbm (by decide), hready, hlaw.keep .upd (by decide), hlaw.keep .image (by decide),
    hlaw.keep .mem (by decide)⟩
  · obtain ⟨b, hb⟩ := State.isSome_of_bankCode hact
    rw [if_pos hact, hb] at hfound
    rw [hfailed, hbank, hfound]
    exact ⟨rfl, rfl⟩
  · obtain ⟨b, hb⟩ := State.isSome_of_bankCode hoth
    rw [if_neg hact, if_pos hoth, hb] at hfound
    rw [hfailed, hbank, hfound]
    exact ⟨rfl, rfl⟩
  · rw [if_neg hact, if_neg hoth] at hfound
    rw [hfailed, hbank, hfound]
    exact ⟨rfl, rfl⟩
  · rw [State.bit_eq_testBit, hshow, hbits, Nat.add_comm, Nat.testBit_two_pow_add_eq, Nat.testBit_lt_two_pow hn]
    rfl

end Sys2Proof.Machine

/-! What a write of device memory and the engines of the DMA write beside it. -/

namespace Sys2Proof.Machine

set_option Elab.async false

theorem State.bel64_writes (s : State) (i n : Nat) : Writes [.bel] [] s (s.bel64 i n) := (s.bel64_evolves i n).writes

theorem State.flushEntry_writes (s : State) (ch : Nat) (e : WcbEntry) : Writes [.mem, .hbm] [] s (s.flushEntry ch e) :=
  (s.flushEntry_evolves ch e).writes

/-- The registers that a write of device memory may change. -/
abbrev Reg.devWrite : List Nat := [Reg.MEM_EVENT, Reg.MEM_WCB_EVICT]

/-- The parts that a write of device memory may change. -/
abbrev Part.devWrite : List Part := [.regs, .mem, .out, .heldOut, .hbm, .host, .bel]

theorem State.partialWrite_writes (s : State) (who : Requester) (ch line off : Nat) (bs : List Byte) :
    Writes Part.devWrite [Reg.MEM_WCB_EVICT] s (s.partialWrite who ch line off bs) := by
  have hset (u : State) (l : List WcbEntry) : Writes [.hbm] [] u (u.setWcb ch l) := (u.setWcb_evolves ch l).writes
  unfold State.partialWrite
  dsimp only
  split
  · exact (hset s _).widen
  · split
    next e es _ =>
      split
      · have hcount := ((s.flushEntry_writes ch e).widen (Q := Part.devWrite) (M := [Reg.MEM_WCB_EVICT])).step
          (State.count_writes _ Reg.MEM_WCB_EVICT 64 1)
        exact (hcount.step (State.bel64_writes _ _ _)).step (hset _ _)
      · exact (hset s _).widen
    next => exact (hset s _).widen

theorem State.linePiece_writes (s : State) (who : Requester) (a : Nat) (bs : List Byte) :
    Writes Part.devWrite Reg.devWrite s (s.linePiece who a bs) := by
  unfold State.linePiece
  split
  · split
    · dsimp only
      split
      · exact (s.bel64_writes _ _).widen.step (State.lineWrite_evolves _ _ _ _).writes
      · exact (s.bel64_writes _ _).widen.step (State.partialWrite_writes _ _ _ _ _ _)
    · exact (s.event_writes _ _).widen
  · split
    · exact (s.putBytes_evolves _ _).writes.widen
    · exact Writes.refl s

theorem State.devWrite_writes (s : State) (who : Requester) (a : Nat) (bs : List Byte) :
    Writes Part.devWrite Reg.devWrite s (s.devWrite who a bs) := by
  unfold State.devWrite
  generalize linePieces a bs.length bs = l
  induction l generalizing s with
  | nil => exact Writes.refl s
  | cons p l ih => exact (s.linePiece_writes who p.1 p.2).step (ih _) (hl := fun _ h => h)

/-! ## Trace records and messages -/

/-- The registers of the Belvedere that a trace record may change. -/
abbrev Reg.trace : List Nat := [Reg.BEL_EVENT, Reg.BEL_RING_LOST_SRC, Reg.BEL_RING_LOST_SRC + 64]

theorem State.trace_writes (s : State) (d : Fin 2) (code source payload : Nat) :
    Writes (.free :: .bel :: Part.signalled) Reg.trace s (s.trace d code source payload) := by
  refine ⟨(s.trace_evolves d code source payload).widen rfl, ?_⟩
  have hlost : Reg.BEL_RING_LOST_SRC + ringOff d ∈ [Reg.BEL_RING_LOST_SRC, Reg.BEL_RING_LOST_SRC + 64] := by
    revert d
    decide
  unfold State.trace
  split
  · dsimp only
    split
    · unfold State.loseSrc
      refine State.sameRegs_trans (t := State.count (s.setRing d _) _ 64 1)
        (State.sameRegs_mono (State.count_writes (s.setRing d _) _ 64 1).regs fun o ho => ?_) (State.event_writes _ _ _).regs
        (by simp)
      rw [List.mem_singleton.mp ho]
      exact List.mem_cons_of_mem _ hlost
    · exact s.sameRegs_of_regs _ _ rfl
  · exact s.sameRegs_refl _

theorem State.toHost_writes (s : State) (x : Output) : Writes [.out, .heldOut] [] s (s.toHost x) := (s.toHost_evolves x).writes

theorem State.signal_writes (s : State) (v : Nat) : Writes [.out, .heldOut, .host] [] s (s.signal v) :=
  (s.signal_evolves v).writes

/-! ## Descriptors -/

/-- The registers that moving bytes writes. -/
abbrev Reg.dmaMove : List Nat := [Reg.PCI_BYTES_IN, Reg.PCI_BYTES_OUT] ++ Reg.devWrite

/-- The registers that a descriptor's status writes. -/
abbrev Reg.dmaHead (e : Nat) : List Nat := dmaReg Reg.PCI_DMA_HEAD e :: Reg.trace

/-- The registers that an engine of the DMA writes. -/
abbrev Reg.dma (e : Nat) : List Nat :=
  [Reg.PCI_EVENT, dmaReg Reg.PCI_DMA_STATUS e] ++ Reg.dmaMove ++ Reg.dmaHead e

/-- The parts that an engine of the DMA may change. -/
abbrev Part.dma : List Part := [.regs, .mem, .free, .out, .heldOut, .hbm, .host, .bel]

theorem State.moveBytes_writes (s : State) (e : Nat) (f : DmaFlight) (n : Nat) (data : List Byte) :
    Writes Part.dma Reg.dmaMove s (s.moveBytes e f n data) := by
  unfold State.moveBytes
  split
  · exact (s.toHost_writes _).widen.step (State.setRegN_writes _ _ _)
  · exact (s.devWrite_writes _ _ _).widen.step (State.setRegN_writes _ _ _)

theorem State.abortMove_writes (s : State) (e : Nat) (moved : List (Fin 8 × Nat × List Byte)) (f : DmaFlight) :
    Writes Part.dma Reg.dmaMove s (s.abortMove e moved f) := by
  unfold State.abortMove
  split
  · exact s.moveBytes_writes e f _ _
  · exact Writes.refl s

theorem State.writeStatus_writes (s : State) (e : Nat) (f : DmaFlight) (code : Nat) :
    Writes Part.dma (Reg.dmaHead e) s (s.writeStatus e f code) := by
  unfold State.writeStatus
  dsimp only
  have hhead := ((s.toHost_writes (.hostWrite (s.regN (dmaReg Reg.PCI_DMA_BASE e) +
    32 * (f.index % 2 ^ s.dmaSize e) + 0x18) (leBytes 4 (code + 2 ^ 31)))).widen (Q := Part.dma)
      (M := [dmaReg Reg.PCI_DMA_HEAD e])).step
        (State.setRegN_writes _ (dmaReg Reg.PCI_DMA_HEAD e) ((f.index + 1) % 65536))
  have htrace := (hhead.widen (Q := Part.dma) (M := Reg.dmaHead e)).step
    (State.trace_writes _ 0 0x13 e (f.index % 65536 + 2 ^ 16 * (code + 2 ^ 31) + 2 ^ 48 * (f.desc.tag % 2 ^ 32)))
  split
  · exact htrace.step (State.signal_writes _ _)
  · exact htrace

theorem State.dmaStop_writes (s : State) (e index code : Nat) :
    Writes Part.dma [Reg.PCI_EVENT, dmaReg Reg.PCI_DMA_STATUS e] s (s.dmaStop e index code) := by
  unfold State.dmaStop
  exact (s.setRegN_writes _ _).widen.step (State.event_writes _ _ _)

/-- A descriptor that is aborted, before the engine's stop. -/
theorem State.abortOne_writes (s : State) (e : Nat) (moved : List (Fin 8 × Nat × List Byte)) (f : DmaFlight) (code : Nat) :
    Writes Part.dma (Reg.dmaMove ++ Reg.dmaHead e) s ((s.abortMove e moved f).writeStatus e f code) :=
  (s.abortMove_writes e moved f).widen.step (State.writeStatus_writes _ e f code)

theorem State.abortFlights_writes (s : State) (e : Nat) (moved : List (Fin 8 × Nat × List Byte)) (fs : List DmaFlight) :
    Writes Part.dma (Reg.dma e) s (s.abortFlights e moved fs) := by
  induction fs generalizing s with
  | nil => exact (s.evolves_host _).writes.widen
  | cons f fs ih =>
    have hstatus := (s.abortOne_writes e moved f (f.status.getD 7)).widen (Q := Part.dma) (M := Reg.dma e)
    unfold State.abortFlights
    dsimp only
    split
    · exact hstatus.step (ih _) (hl := fun _ h => h)
    · exact (hstatus.step (State.dmaStop_writes _ e f.index _)).step (ih _) (hl := fun _ h => h)

end Sys2Proof.Machine

/-! The host link and host-side resets (R318, R339, R340, R365). -/

namespace Sys2Proof.Machine

set_option Elab.async false

/-! ## Events and messages of a link that is up -/

/-- With the link up a message goes out and none is held. -/
theorem State.toHost_of_linkUp {s : State} (h : s.linkUp = true) (x : Output) : s.toHost x = s.send x := by
  rw [State.toHost, if_pos h]

/-- The link is up as its register says. -/
theorem State.linkUp_of_reg {s t : State} (h : t.reg Reg.PCI_LINK = s.reg Reg.PCI_LINK) : t.linkUp = s.linkUp :=
  State.bit_of_reg h 10

theorem State.linkUp_setVec (s : State) (v : Nat) (x : MsixVec) : (s.setVec v x).linkUp = s.linkUp := rfl

theorem State.heldOut_fire {s : State} (v : Nat) (h : s.linkUp = true) : (s.fire v).heldOut = s.heldOut := by
  unfold State.fire
  split
  · rfl
  · rw [State.toHost_of_linkUp ((s.linkUp_setVec v _).trans h)]
    rfl

/-- With the link up an event holds no message. -/
theorem State.heldOut_event {s : State} (o i : Nat) (ho : o ≠ Reg.PCI_LINK) (h : s.linkUp = true) :
    (s.event o i).heldOut = s.heldOut := by
  have hup : (s.setBit o i true).linkUp = true := (State.linkUp_of_reg (s.reg_setBit_ne o i true _ ho.symm)).trans h
  have hheld : (s.setBit o i true).heldOut = s.heldOut := rfl
  unfold State.event
  split
  · rfl
  · split
    · rw [← hheld]
      generalize s.setBit o i true = u at *
      unfold State.signal
      split <;> [rfl; exact State.heldOut_fire _ hup]
    · exact hheld

/-- A bit of an event register that is set stays set as another is. -/
theorem State.bit_event_mono {s : State} (h : storeWf 0 s.regs = true) {o i : Nat} (j : Nat) (hj : j < 64)
    (hset : s.bit o i = true) : (s.event o j).bit o i = true := by
  have hbit : (s.setBit o j true).bit o i = true := by
    rw [State.setBit, s.bit_setFld o _ i h hj]
    split
    next hin =>
      obtain rfl : i = j := by omega
      simp
    next => exact hset
  unfold State.event
  split
  · exact hset
  · split
    · exact (State.bit_of_regs _ _ o i (State.regs_signal _ _)).trans hbit
    · exact hbit

/-! ## The link rises -/

theorem exec_linkUp {s : State} (hpow : s.boot.powered = true) (hdom : 2 ≤ s.boot.domains) (hperst : s.host.perst = false)
    (hdown : s.linkUp = false) (speed width : Nat) (flit : Bool) :
    exec (.linkUp speed width flit) s = .next (s.linkRise speed width flit) := by
  change execLinkUp speed width flit s = _
  rw [execLinkUp, if_pos (by simp [hpow, hdom, hperst, hdown])]

/-- The link as it comes up, before its event: what was held goes out. -/
def State.linkRaised (s : State) (n : Nat) : State :=
  { s.setRegN Reg.PCI_LINK n with out := s.out ++ s.heldOut, heldOut := [], host := { s.host with wasUp := true } }

theorem State.linkRise_eq (s : State) {speed width : Nat} (flit : Bool) (hspeed : speed < 16) (hwidth : width < 32) :
    s.linkRise speed width flit = if s.host.wasUp then
      (s.linkRaised (speed + 16 * width + 512 * flit.toNat + 1024)).event Reg.PCI_EVENT 1
    else s.linkRaised (speed + 16 * width + 512 * flit.toNat + 1024) := by
  unfold State.linkRise
  rw [Nat.mod_eq_of_lt hspeed, Nat.mod_eq_of_lt hwidth]
  rfl

/-- Bit 10 of PCI_LINK shows a link that is up. -/
theorem State.linkUp_linkRaised {s : State} (hwf : storeWf 0 s.regs = true) {n : Nat} (hn : n < 1024) :
    (s.linkRaised (n + 1024)).regN Reg.PCI_LINK = n + 1024 ∧ (s.linkRaised (n + 1024)).linkUp = true := by
  have hset : (s.linkRaised (n + 1024)).regN Reg.PCI_LINK = n + 1024 := s.regN_setRegN Reg.PCI_LINK _ hwf (by omega)
  refine ⟨hset, ?_⟩
  rw [State.linkUp, State.bit_eq_testBit, hset, Nat.add_comm, show (1024 : Nat) = 2 ^ 10 from rfl,
    Nat.testBit_two_pow_add_eq, Nat.testBit_lt_two_pow hn]
  rfl

/-- R339: what shows of a link that has come up. -/
theorem State.linkRise_shows {s : State} (hwf : storeWf 0 s.regs = true) {speed width : Nat} (flit : Bool)
    (hspeed : speed < 16) (hwidth : width < 32) :
    let t := s.linkRise speed width flit
    t.regN Reg.PCI_LINK = speed + 16 * width + 512 * flit.toNat + 1024 ∧ t.linkUp = true ∧
      s.out ++ s.heldOut <+: t.out ∧ t.heldOut = [] ∧ (s.host.wasUp = true → t.bit Reg.PCI_EVENT 1 = true) ∧
      s.touches t Part.signalled [Reg.PCI_LINK, Reg.PCI_EVENT] := by
  intro t
  have hflit : flit.toNat ≤ 1 := Bool.toNat_le _
  obtain ⟨hreg, hup⟩ := State.linkUp_linkRaised hwf (n := speed + 16 * width + 512 * flit.toNat) (by omega)
  have hraised (o : Nat) (ho : o ∉ [Reg.PCI_LINK]) :
      (s.linkRaised (speed + 16 * width + 512 * flit.toNat + 1024)).reg o = s.reg o :=
    (s.setRegN_writes Reg.PCI_LINK _).reg ho
  have hregs : storeWf 0 (s.linkRaised (speed + 16 * width + 512 * flit.toNat + 1024)).regs = true :=
    (s.setRegN_writes Reg.PCI_LINK _).wf hwf
  have hout : (s.linkRaised (speed + 16 * width + 512 * flit.toNat + 1024)).out = s.out ++ s.heldOut := rfl
  have hheld : (s.linkRaised (speed + 16 * width + 512 * flit.toNat + 1024)).heldOut = [] := rfl
  have ht : t = _ := s.linkRise_eq flit hspeed hwidth
  have hlaw : Evolves Part.signalled s t := (s.linkRise_evolves speed width flit).widen rfl
  clear_value t
  generalize s.linkRaised (speed + 16 * width + 512 * flit.toNat + 1024) = v at *
  have hevent := v.event_writes Reg.PCI_EVENT 1
  by_cases hwas : s.host.wasUp = true
  · rw [if_pos hwas] at ht
    subst ht
    refine ⟨(hevent.regN (by decide)).trans hreg, (State.linkUp_of_reg (hevent.reg (by decide))).trans hup,
      hout ▸ hevent.evolves.out, (State.heldOut_event _ _ (by decide) hup).trans hheld,
      fun _ => v.bit_event _ _ hregs (by decide), hlaw.touches ?_ (by decide) (by decide)⟩
    exact State.sameRegs_trans (State.sameRegs_mono hraised) hevent.regs (by simp)
  · rw [if_neg hwas] at ht
    subst ht
    exact ⟨hreg, hup, hout ▸ List.prefix_refl _, hheld, fun h => absurd h hwas,
      hlaw.touches (State.sameRegs_mono hraised) (by decide) (by decide)⟩

/-! ## The link goes down -/

/-- No register of an engine is the event register. -/
theorem dmaReg_ne_event {e : Nat} (he : e < 8) :
    Reg.PCI_EVENT ≠ dmaReg Reg.PCI_DMA_HEAD e ∧ Reg.PCI_EVENT ≠ dmaReg Reg.PCI_DMA_STATUS e := by
  revert e
  decide

/-- An event of the host interface that is set stays set as an engine's descriptors end. -/
theorem State.bit_abortFlights {s : State} (hwf : storeWf 0 s.regs = true) {i : Nat} (hset : s.bit Reg.PCI_EVENT i = true)
    {e : Nat} (he : e < 8) (moved : List (Fin 8 × Nat × List Byte)) (fs : List DmaFlight) :
    (s.abortFlights e moved fs).bit Reg.PCI_EVENT i = true := by
  induction fs generalizing s with
  | nil => exact hset
  | cons f fs ih =>
    have hone := s.abortOne_writes e moved f (f.status.getD 7)
    have hbit := (hone.bit (o := Reg.PCI_EVENT) (by simp [(dmaReg_ne_event he).1, Reg.PCI_EVENT, Reg.BEL_RING_LOST_SRC]) i).trans hset
    unfold State.abortFlights
    dsimp only
    generalize (s.abortMove e moved f).writeStatus e f (f.status.getD 7) = u at *
    have hregs := hone.wf hwf
    split
    · exact ih hregs hbit
    · have hstop := u.dmaStop_writes e f.index (f.status.getD 7)
      refine ih (hstop.wf hregs) ?_
      exact State.bit_event_mono ((u.setRegN_writes _ _).wf hregs) 6 (by decide)
        (((u.setRegN_writes (dmaReg Reg.PCI_DMA_STATUS e) _).bit (by simp [(dmaReg_ne_event he).2]) i).trans hbit)

/-- R339: an engine that is enabled stops as the link is lost. -/
theorem State.engineLoss_stops {s : State} (hwf : storeWf 0 s.regs = true) {i : Nat}
    (hset : s.bit Reg.PCI_EVENT i = true) {e : Nat} (he : e < 8) (moved : List (Fin 8 × Nat × List Byte)) :
    Writes Part.dma (Reg.dma e) s (s.engineLoss moved e) ∧ (s.engineLoss moved e).bit Reg.PCI_EVENT i = true ∧
      (s.bit (dmaReg Reg.PCI_DMA_CTRL e) 0 = true →
        (s.engineLoss moved e).fld (dmaReg Reg.PCI_DMA_STATUS e) 1 0 = 2) := by
  unfold State.engineLoss
  split
  next h =>
    have habort := s.abortFlights_writes e moved (s.flights e)
    have hbit := State.bit_abortFlights hwf hset he moved (s.flights e)
    generalize s.abortFlights e moved (s.flights e) = u at *
    refine ⟨habort.step (u.setFld_writes _ _ _ _), ?_, fun _ => u.fld_setFld _ (habort.wf hwf) (by decide) (by decide)⟩
    exact ((u.setFld_writes (dmaReg Reg.PCI_DMA_STATUS e) _ _ _).bit (by simp [(dmaReg_ne_event he).2]) i).trans hbit
  next h => exact ⟨Writes.refl s, hset, fun h' => absurd h' h⟩

/-- What the engines of a list have done as the link is lost. -/
structure LinkLost (s t : State) (l : List Nat) : Prop where
  evolves : Evolves Part.dma s t
  event : t.bit Reg.PCI_EVENT 0 = true
  link : t.reg Reg.PCI_LINK = s.reg Reg.PCI_LINK
  status : ∀ e < 8, e ∉ l → t.reg (dmaReg Reg.PCI_DMA_STATUS e) = s.reg (dmaReg Reg.PCI_DMA_STATUS e)
  stopped : ∀ e ∈ l, s.bit (dmaReg Reg.PCI_DMA_CTRL e) 0 = true → t.fld (dmaReg Reg.PCI_DMA_STATUS e) 1 0 = 2

/-- The registers of the link and of the engines that no other engine writes. -/
theorem dma_notMem {e k : Nat} (he : e < 8) (hk : k < 8) : Reg.PCI_LINK ∉ Reg.dma e ∧
    dmaReg Reg.PCI_DMA_CTRL k ∉ Reg.dma e ∧ (k ≠ e → dmaReg Reg.PCI_DMA_STATUS k ∉ Reg.dma e) := by
  have hlink : ∀ e < 8, Reg.PCI_LINK ∉ Reg.dma e := by decide
  have hctrl : ∀ e < 8, ∀ k < 8, dmaReg Reg.PCI_DMA_CTRL k ∉ Reg.dma e := by decide
  have hstatus : ∀ e < 8, ∀ k < 8, k ≠ e → dmaReg Reg.PCI_DMA_STATUS k ∉ Reg.dma e := by decide
  exact ⟨hlink e he, hctrl e he k hk, hstatus e he k hk⟩

/-- Each engine of the list stops as the link is lost. -/
theorem State.eachPort_engineLoss {s : State} (hwf : storeWf 0 s.regs = true) (hset : s.bit Reg.PCI_EVENT 0 = true)
    (moved : List (Fin 8 × Nat × List Byte)) {l : List Nat} (hl : l.Nodup) (h8 : ∀ e ∈ l, e < 8) :
    LinkLost s (s.eachPort (fun s e => s.engineLoss moved e) l) l := by
  induction l generalizing s with
  | nil => exact ⟨Evolves.refl s, hset, rfl, fun _ _ _ => rfl, fun _ h => absurd h List.not_mem_nil⟩
  | cons e l ih =>
    obtain ⟨hnot, hl⟩ := List.nodup_cons.mp hl
    have he := h8 e List.mem_cons_self
    obtain ⟨hwrites, hbit, hstop⟩ := State.engineLoss_stops hwf hset he moved
    obtain ⟨evolves, event, link, status, stopped⟩ := ih (hwrites.wf hwf) hbit hl fun k hk => h8 k (List.mem_cons_of_mem e hk)
    refine ⟨hwrites.evolves.step evolves (Evolves.covers_self _), event, link.trans (hwrites.reg (dma_notMem he he).1),
      fun k hk hkl => ?_, fun k hkl hctrl => ?_⟩
    · obtain ⟨hke, hkl⟩ := not_or.mp (mt List.mem_cons.mpr hkl)
      exact (status k hk hkl).trans (hwrites.reg ((dma_notMem he hk).2.2 hke))
    · by_cases hke : k = e
      · subst hke
        exact (State.fld_of_reg (status k he hnot) 1 0).trans (hstop hctrl)
      · have hin := (List.mem_cons.mp hkl).resolve_left hke
        exact stopped k hin ((hwrites.bit (dma_notMem he (h8 k hkl)).2.1 0).trans hctrl)

/-- R339: the link goes down. -/
theorem linkDown_stops {s : State} (hwf : storeWf 0 s.regs = true) (hup : s.linkUp = true)
    (moved : List (Fin 8 × Nat × List Byte)) : ∃ t, exec (.linkDown moved) s = .next t ∧ t.reg Reg.PCI_LINK = 0 ∧
      t.linkUp = false ∧ t.bit Reg.PCI_EVENT 0 = true ∧
      (∀ e : Fin 8, s.bit (Reg.PCI_DMA_CTRL + 32 * e) 0 = true → t.fld (Reg.PCI_DMA_STATUS + 32 * e) 1 0 = 2) ∧
      s.keeps t [.regs, .mem, .free, .out, .heldOut, .hbm, .host, .bel] := by
  have hexec : exec (.linkDown moved) s = .next
      (((s.setReg Reg.PCI_LINK 0).event Reg.PCI_EVENT 0).eachPort (fun s e => s.engineLoss moved e) (List.range 8)) := by
    change execLinkDown moved s = _
    rw [execLinkDown, if_pos hup]
  have hzero := s.reg_setReg Reg.PCI_LINK 0 hwf
  have hlink := s.setReg_writes Reg.PCI_LINK 0
  have hevent := (s.setReg Reg.PCI_LINK 0).event_writes Reg.PCI_EVENT 0
  have hset := (s.setReg Reg.PCI_LINK 0).bit_event Reg.PCI_EVENT 0 (hlink.wf hwf) (by decide)
  have hboth := (hlink.widen (Q := Part.dma) (M := [Reg.PCI_LINK, Reg.PCI_EVENT])).step hevent
  have hdown : ((s.setReg Reg.PCI_LINK 0).event Reg.PCI_EVENT 0).reg Reg.PCI_LINK = 0 := (hevent.reg (by decide)).trans hzero
  generalize (s.setReg Reg.PCI_LINK 0).event Reg.PCI_EVENT 0 = u at *
  obtain ⟨evolves, event, link, _, stopped⟩ := State.eachPort_engineLoss (hboth.wf hwf) hset moved
    (List.nodup_range (n := 8)) (fun e he => List.mem_range.mp he)
  refine ⟨_, hexec, link.trans hdown, ?_, event, fun e hctrl => ?_, (hboth.evolves.step evolves rfl).keep⟩
  · rw [State.linkUp, State.bit, link, hdown]
    rfl
  · refine stopped e (List.mem_range.mpr e.isLt) ((hboth.bit ?_ 0).trans hctrl)
    exact (by decide : ∀ e : Fin 8, dmaReg Reg.PCI_DMA_CTRL e ∉ [Reg.PCI_LINK, Reg.PCI_EVENT]) e

/-! ## Slabs -/

theorem State.sameSlabs_refl (s : State) : s.sameSlabs s := ⟨rfl, rfl, rfl, rfl⟩

theorem State.sameSlabs_trans {s t u : State} (h : s.sameSlabs t) (g : t.sameSlabs u) : s.sameSlabs u := by
  obtain ⟨h1, h2, h3, h4⟩ := h
  obtain ⟨g1, g2, g3, g4⟩ := g
  exact ⟨g1.trans h1, g2.trans h2, g3.trans h3, g4.trans h4⟩

theorem State.sameSlabs_of_upd {s t : State} (h : t.upd = s.upd) : s.sameSlabs t := by
  unfold State.sameSlabs
  rw [h]
  exact ⟨rfl, rfl, rfl, rfl⟩

/-- One more operation that leaves the update units alone. -/
theorem State.sameSlabs.step {P : List Part} {s t u : State} (h : s.sameSlabs t) (g : Evolves P t u)
    (hupd : .upd ∉ P := by decide) : s.sameSlabs u := State.sameSlabs_trans h (State.sameSlabs_of_upd (g.keep .upd hupd))

theorem State.sameSlabs_clearStreams (s : State) : s.sameSlabs s.clearStreams := ⟨rfl, rfl, rfl, rfl⟩

/-- A halt keeps the epoch and both slabs. -/
theorem State.sameSlabs_halt (s : State) : s.sameSlabs s.halt := by
  unfold State.halt
  dsimp only
  have hdone := ((((s.sameSlabs_refl.step (s.completeAll_evolves (bySlot s.adm.accepted))).step
    (State.returnPlots_evolves _ (s.adm.accepted.map fun e => e.2.plots).sum)).step (State.endRun_evolves _)))
  generalize ((s.completeAll (bySlot s.adm.accepted)).returnPlots (s.adm.accepted.map fun e => e.2.plots).sum).endRun = u at *
  refine State.sameSlabs.step (State.sameSlabs.step ?_ (State.unthrottle_evolves _)) (State.event_evolves _ _ _)
  refine State.sameSlabs_trans (State.sameSlabs.step (State.sameSlabs.step (State.sameSlabs.step ?_ (State.endStep_evolves _))
    (State.fillCredits_evolves _)) (State.clearEngines_evolves _)) (State.sameSlabs_clearStreams _)
  refine State.sameSlabs.step ?_ (State.setCommit_evolves _ _)
  exact State.sameSlabs_trans hdone (State.sameSlabs_of_upd rfl)

/-! ## Host-side resets -/

/-- A register that a reset gives one value whatever it held has that value if it is rewritten. -/
theorem State.reg_resetRegsOf {s : State} (hwf : storeWf 0 s.regs = true) {o : Nat} {c : DWord}
    (hc : ∀ v, resetAt o v = c) (l : List Nat) : (s.resetRegsOf l).reg o = if o ∈ l then c else s.reg o := by
  induction l generalizing s with
  | nil => exact (if_neg List.not_mem_nil).symm
  | cons k l ih =>
    rw [State.resetRegsOf, ih (s.regs_setReg k _ hwf)]
    by_cases hk : o = k
    · subst hk
      rw [s.reg_setReg o _ hwf, hc, if_pos List.mem_cons_self, ite_self]
    · rw [s.reg_setReg_ne k o _ hk]
      exact if_congr (by simp [hk]) rfl rfl

theorem storeGet_of_notMem {α : Type} (d : α) {m : List (Nat × α)} {k : Nat} (h : k ∉ m.map Prod.fst) :
    storeGet d m k = d := by
  have happend := storeGet_append_of_notMem d [] h
  rwa [List.append_nil] at happend

/-- R340: every register of the host interface returns to its reset value. -/
theorem State.reg_resetFields {s : State} (hwf : storeWf 0 s.regs = true) {o : Nat} (hlo : 0xF0000 ≤ o)
    (hhi : o < 0x100000) : s.resetFields.reg o = State.reset.reg o := by
  have hreset : State.reset.reg o = storeGet 0 resetRegs o := rfl
  have hval (v : DWord) : resetAt o v = storeGet 0 resetRegs o := by
    unfold resetAt
    rw [if_neg (by simp [keptReg]; omega), if_pos ⟨hlo, hhi⟩]
  rw [State.resetFields, State.reg_resetRegsOf hwf hval, hreset]
  split
  next => rfl
  next hnot =>
    obtain ⟨hregs, hres⟩ := not_or.mp (mt List.mem_append.mpr hnot)
    rw [State.reg, storeGet_of_notMem 0 hregs, storeGet_of_notMem 0 hres]

/-- A module without an image, before its map is copied and its ports train. -/
def State.cleared (s : State) : State :=
  { s with image := { s.image with st := .empty, file := none, passed := [], exchanged := false, childUp := [],
                                   sentUp := false, mapChanged := false, rechecking := none, peerUnresolved := [] },
           adm := { s.adm with epochPeer := false } }

theorem State.toEmpty_eq (s : State) : s.toEmpty = s.cleared.copyMap.freePorts := rfl

/-- R217, R379: the image that is left, and what else a discarded image touches. -/
theorem State.toEmpty_parts (s : State) : s.toEmpty.image = s.cleared.image ∧
    Writes [.regs, .out, .heldOut, .image, .adm, .hbm, .pyu, .host] [Reg.MEM_EVENT] s s.toEmpty := by
  have hclear : Writes [.image, .adm] [] s s.cleared :=
    (((s.evolves_image s.cleared.image).widen rfl).step (State.evolves_adm _ s.cleared.adm) rfl : Evolves [.image, .adm] s _).writes
  rw [s.toEmpty_eq]
  generalize s.cleared = u at *
  obtain ⟨_, hmap⟩ := u.copyMap_parts
  have hports := u.copyMap.freePorts_evolves
  have hmapImage : u.copyMap.image = u.image := hmap.evolves.keep .image (by decide)
  have hportsImage : u.copyMap.freePorts.image = u.copyMap.image := hports.keep .image (by decide)
  exact ⟨hportsImage.trans hmapImage, (hclear.widen.step hmap).step hports.writes⟩

theorem State.toEmpty_image (s : State) : s.toEmpty.image.st = .empty := by
  rw [s.toEmpty_parts.1]
  rfl

/-- The image of a module that a host-side reset stops: what ran halts, and nothing further is reported. -/
def State.resetStop (s : State) : State :=
  (if s.image.st = .running then s.halt.stopReports else s.stopReports).toEmpty

theorem State.resetStop_keeps (s : State) : s.resetStop.image.st = .empty ∧ s.sameSlabs s.resetStop := by
  have hstop (u : State) (h : s.sameSlabs u) : s.sameSlabs u.stopReports.toEmpty :=
    (h.step u.stopReports_evolves).step (State.toEmpty_evolves _)
  unfold State.resetStop
  refine ⟨State.toEmpty_image _, ?_⟩
  split
  · exact hstop _ s.sameSlabs_halt
  · exact hstop _ s.sameSlabs_refl

theorem State.resetStop_evolves (s : State) : Evolves [.regs, .mem, .free, .out, .heldOut, .image, .tick, .adm, .seg, .me, .ve,
    .stl, .hbm, .upd, .clo, .pyu, .pwr, .host, .hlt, .bel] s s.resetStop := by
  unfold State.resetStop
  refine Evolves.step ?_ (State.toEmpty_evolves _) rfl
  split
  · exact (s.halt_evolves.widen rfl).step (State.stopReports_evolves _) rfl
  · exact s.stopReports_evolves.widen rfl

/-- The bytes that the descriptors in flight had moved. -/
def State.resetMoved (s : State) (moved : List (Fin 8 × Nat × List Byte)) : State :=
  s.eachPort (fun s e => s.moveAll moved e) (List.range 8)

theorem State.sameSlabs_resetMoved (s : State) (moved : List (Fin 8 × Nat × List Byte)) : s.sameSlabs (s.resetMoved moved) :=
  s.sameSlabs_refl.step (State.eachPort_evolves s _ _ fun t e => t.moveAll_evolves moved e)

theorem State.resetHostSide_eq (s : State) (kind : ResetKind) (moved : List (Fin 8 × Nat × List Byte)) :
    s.resetHostSide kind moved = (s.resetMoved moved).resetStop.resetFields.clearHost kind := by
  unfold State.resetHostSide State.resetStop State.resetMoved
  dsimp only

/-- R340: what a reset of the host's side leaves. -/
structure HostReset (s t : State) : Prop where
  image : t.image.st = .empty
  bells : t.adm.bells = []
  unread : t.adm.unread = []
  held : t.heldOut = []
  rings : t.bel.rings = []
  waiting : t.host.waitingReset = none
  flights : t.host.flights = []
  regs : ∀ o, 0xF0000 ≤ o → o < 0x100000 → t.reg o = State.reset.reg o
  slabs : s.sameSlabs t
  boot : t.boot = s.boot
  sec : t.sec = s.sec

/-- R340: the registers and the host's side after the image is gone. -/
theorem State.clearHost_resets {s u : State} (hempty : u.image.st = .empty) (hslabs : s.sameSlabs u) (hboot : u.boot = s.boot)
    (hsec : u.sec = s.sec) (hwf : storeWf 0 u.regs = true) (kind : ResetKind) :
    HostReset s (u.resetFields.clearHost kind) := by
  have hregs (o : Nat) (hlo : 0xF0000 ≤ o) (hhi : o < 0x100000) : u.resetFields.reg o = State.reset.reg o :=
    State.reg_resetFields hwf hlo hhi
  have hlaw := u.resetFields_evolves
  have himage : u.resetFields.image = u.image := hlaw.keep .image (by decide)
  have hbooted : u.resetFields.boot = u.boot := hlaw.keep .boot (by decide)
  have hsecond : u.resetFields.sec = u.sec := hlaw.keep .sec (by decide)
  refine ⟨?_, rfl, rfl, rfl, rfl, rfl, rfl, hregs, (hslabs.step hlaw).step (State.clearHost_evolves _ kind),
    hbooted.trans hboot, hsecond.trans hsec⟩
  exact (congrArg ImageSt.st himage).trans hempty

theorem State.resetHostSide_resets {s : State} (hwf : storeWf 0 s.regs = true) (kind : ResetKind)
    (moved : List (Fin 8 × Nat × List Byte)) : HostReset s (s.resetHostSide kind moved) := by
  have hmoved : Evolves Part.dma s (s.resetMoved moved) :=
    State.eachPort_evolves s _ _ fun t e => (t.moveAll_evolves moved e).widen rfl
  have hmovedSlabs := s.sameSlabs_resetMoved moved
  have hmovedBoot : (s.resetMoved moved).boot = s.boot := hmoved.keep .boot (by decide)
  have hmovedSec : (s.resetMoved moved).sec = s.sec := hmoved.keep .sec (by decide)
  rw [State.resetHostSide_eq]
  have h (u : State) (hslabs : s.sameSlabs u) (hboot : u.boot = s.boot) (hsec : u.sec = s.sec)
      (hregs : storeWf 0 u.regs = true) : HostReset s (u.resetStop.resetFields.clearHost kind) := by
    have hlaw := u.resetStop_evolves
    have hstopBoot : u.resetStop.boot = u.boot := hlaw.keep .boot (by decide)
    have hstopSec : u.resetStop.sec = u.sec := hlaw.keep .sec (by decide)
    obtain ⟨hempty, hstop⟩ := u.resetStop_keeps
    exact State.clearHost_resets hempty (State.sameSlabs_trans hslabs hstop) (hstopBoot.trans hboot)
      (hstopSec.trans hsec) (hlaw.regs hregs) kind
  exact h _ hmovedSlabs hmovedBoot hmovedSec (hmoved.regs hwf)

/-! ## The commands of a host-side reset -/

theorem exec_hostSideReset {s : State} {kind : ResetKind} (hpow : s.boot.powered = true)
    (hwait : s.host.waitingReset = none) (moved : List (Fin 8 × Nat × List Byte)) :
    exec (.hostSideReset kind moved) s = .next (if kind = .perst ∧ s.boot.step < 8 then
        ({ s with host := { s.host with perst := true } } : State).setReg Reg.PCI_LINK 0
      else if s.commitOpen then { s with host := { s.host with waitingReset := some kind } }
      else s.hostReset kind moved) := by
  change execHostSideReset kind moved s = _
  rw [execHostSideReset, if_neg (by simp [hpow, hwait])]

/-- R340: the end of a Function Level Reset, which keeps the link as it was. -/
theorem HostReset.flr {s u : State} (h : HostReset s u) (hwf : storeWf 0 u.regs = true) (v : DWord) :
    let t := (u.setReg Reg.PCI_LINK v).send .functionReady
    t.image.st = .empty ∧ t.adm.bells = [] ∧ t.adm.unread = [] ∧ t.heldOut = [] ∧ t.bel.rings = [] ∧
      t.host.waitingReset = none ∧ t.host.flights = [] ∧
      (∀ o, 0xF0000 ≤ o → o < 0x100000 → o ≠ Reg.PCI_LINK → t.reg o = State.reset.reg o) ∧
      t.reg Reg.PCI_LINK = v ∧ s.sameSlabs t ∧ t.boot = s.boot ∧ t.sec = s.sec :=
  ⟨h.image, h.bells, h.unread, h.held, h.rings, h.waiting, h.flights,
    fun o hlo hhi hne => (u.reg_setReg_ne Reg.PCI_LINK o v hne).trans (h.regs o hlo hhi), u.reg_setReg Reg.PCI_LINK v hwf,
    h.slabs, h.boot, h.sec⟩

theorem State.hostReset_flr (s : State) (moved : List (Fin 8 × Nat × List Byte)) : s.hostReset .flr moved =
    ((s.resetHostSide .flr moved).setReg Reg.PCI_LINK (s.reg Reg.PCI_LINK)).send .functionReady := rfl

/-- R340: a Function Level Reset keeps the link as it was, and the other kinds but PERST# end with the host's side reset. -/
theorem State.hostReset_resets {s : State} (hwf : storeWf 0 s.regs = true) {kind : ResetKind} (hkind : kind ≠ .perst)
    (moved : List (Fin 8 × Nat × List Byte)) : let t := s.hostReset kind moved
    t.image.st = .empty ∧ t.adm.bells = [] ∧ t.adm.unread = [] ∧ t.heldOut = [] ∧ t.bel.rings = [] ∧
      t.host.waitingReset = none ∧ t.host.flights = [] ∧
      (∀ o, 0xF0000 ≤ o → o < 0x100000 → (kind = .flr → o ≠ Reg.PCI_LINK) → t.reg o = State.reset.reg o) ∧
      (kind = .flr → t.reg Reg.PCI_LINK = s.reg Reg.PCI_LINK) ∧ s.sameSlabs t ∧ t.boot = s.boot ∧ t.sec = s.sec := by
  obtain ⟨image, bells, unread, held, rings, waiting, flights, regs, slabs, boot, sec⟩ :=
    State.resetHostSide_resets hwf kind moved
  cases kind with
  | perst => exact absurd rfl hkind
  | hotReset => exact ⟨image, bells, unread, held, rings, waiting, flights, fun o hlo hhi _ => regs o hlo hhi,
      fun h => (by cases h), slabs, boot, sec⟩
  | linkDisable => exact ⟨image, bells, unread, held, rings, waiting, flights, fun o hlo hhi _ => regs o hlo hhi,
      fun h => (by cases h), slabs, boot, sec⟩
  | flr =>
    obtain ⟨image, bells, unread, held, rings, waiting, flights, regs, link, slabs, boot, sec⟩ :=
      (State.resetHostSide_resets hwf .flr moved).flr ((s.resetHostSide_evolves .flr moved).regs hwf) (s.reg Reg.PCI_LINK)
    exact ⟨image, bells, unread, held, rings, waiting, flights, fun o hlo hhi hne => regs o hlo hhi (hne rfl),
      fun _ => link, slabs, boot, sec⟩

theorem exec_hostResetAfterCommit {s : State} {kind : ResetKind} (hwait : s.host.waitingReset = some kind)
    (moved : List (Fin 8 × Nat × List Byte)) :
    exec (.hostResetAfterCommit moved) s = .next (s.commitRelease.hostReset kind moved) := by
  change execHostResetAfterCommit moved s = _
  rw [execHostResetAfterCommit, hwait]

/-- R340: a reset that waited for the commit stitch acts after the commit. -/
theorem hostResetAfterCommit_resets {s : State} (hwf : storeWf 0 s.regs = true) {kind : ResetKind}
    (moved : List (Fin 8 × Nat × List Byte)) (hwait : s.host.waitingReset = some kind) (hkind : kind ≠ .perst) :
    ∃ t, exec (.hostResetAfterCommit moved) s = .next t ∧ t.host.waitingReset = none ∧ t.image.st = .empty ∧
      t.adm.bells = [] ∧ t.heldOut = [] ∧ t.boot = s.boot := by
  have hlaw := s.commitRelease_evolves
  have hboot : s.commitRelease.boot = s.boot := hlaw.keep .boot (by decide)
  obtain ⟨image, bells, _, held, _, waiting, _, _, _, _, boot, _⟩ :=
    State.hostReset_resets (hlaw.regs hwf) hkind moved
  exact ⟨_, exec_hostResetAfterCommit hwait moved, waiting, image, bells, held, boot.trans hboot⟩

/-! ## Wake events of a module that sleeps -/

/-- R366: a wake event of a module in A2 sets its cause, is the event acted on, and starts the wake. -/
theorem State.wakeEvent_of_a2 {s : State} {n : Nat} (port : Option Nat) (hwf : storeWf 0 s.regs = true)
    (htrip : s.tripped = false) (hent : s.ldg.entering = none) (hwaking : s.ldg.waking = 0) (hps : s.ldg.ps = .a2)
    (hn : n < 8) :
    (s.wakeEvent n port).ldg.waking = 1 ∧ (s.wakeEvent n port).bit Reg.LDG_WAKE_CAUSE n = true ∧
      (s.wakeEvent n port).fld Reg.LDG_WAKE_CAUSE 10 8 = n ∧
      Writes [.regs, .ldg] [Reg.LDG_WAKE_CAUSE] s (s.wakeEvent n port) := by
  have hdown : s.goingDown = false := by simp [State.goingDown, hent]
  have hevent : s.wakeEvent n port = ((s.noteWake n port).firstWake n).startWake := by
    simp [State.wakeEvent, htrip, hdown, hwaking, hps]
  have hnote : Writes [.regs, .ldg] [Reg.LDG_WAKE_CAUSE] s (s.noteWake n port) :=
    ⟨s.noteWake_evolves n port, fun o ho => s.reg_noteWake_ne n port (by simpa using ho)⟩
  have hfirst : Writes [.regs, .ldg] [Reg.LDG_WAKE_CAUSE] s ((s.noteWake n port).firstWake n) :=
    hnote.step (State.setFld_writes _ Reg.LDG_WAKE_CAUSE 10 8 n)
  have hcause : ((s.noteWake n port).firstWake n).bit Reg.LDG_WAKE_CAUSE n = true := by
    rw [State.bit_firstWake _ n (hnote.wf hwf) hn, s.bit_noteWake port hwf (by omega) (by omega), decide_eq_true rfl,
      Bool.true_or]
  have hfield : ((s.noteWake n port).firstWake n).fld Reg.LDG_WAKE_CAUSE 10 8 = n :=
    State.fld_setFld _ _ (hnote.wf hwf) (by decide) hn
  obtain ⟨seen, hldg⟩ := s.noteWake_ldg n port
  have hps' : ((s.noteWake n port).firstWake n).ldg.ps = .a2 := by
    change (s.noteWake n port).ldg.ps = .a2
    rw [hldg, hps]
  rw [hevent]
  generalize (s.noteWake n port).firstWake n = u at *
  have hstart : u.startWake = u.mapLdg fun l => { l with waking := 1 } := by rw [State.startWake, hps']
  rw [hstart]
  exact ⟨rfl, hcause, hfield, hfirst.step (State.mapLdg_evolves _ _).writes⟩

/-- A module that neither sleeps nor moves ignores a wake event. -/
theorem State.wakeEvent_of_awake {s : State} (h : s.asleep = false) (n : Nat) (port : Option Nat) : s.wakeEvent n port = s := by
  simp only [State.asleep, Bool.or_eq_false_iff, decide_eq_false_iff_not, not_not] at h
  obtain ⟨⟨hps, hdown⟩, hwaking⟩ := h
  unfold State.wakeEvent
  split
  · rfl
  · rw [if_neg (by simp [hdown]), if_neg (not_not.mpr hwaking)]

theorem exec_perstDeassert {s : State} (hperst : s.host.perst = true) :
    exec .perstDeassert s = .next (({ s with host := { s.host with perst := false } } : State).wakeEvent 5 none) := by
  change execPerstDeassert s = _
  rw [execPerstDeassert, if_pos hperst]

/-- R365: PERST# released on a module in A2 is a wake event. -/
theorem perstDeassert_wakes {s : State} (hwf : storeWf 0 s.regs = true) (hperst : s.host.perst = true)
    (htrip : s.tripped = false) (hent : s.ldg.entering = none) (hwaking : s.ldg.waking = 0) (hps : s.ldg.ps = .a2) :
    ∃ t, exec .perstDeassert s = .next t ∧ t.host.perst = false ∧ t.ldg.waking = 1 ∧
      t.bit Reg.LDG_WAKE_CAUSE 5 = true ∧ t.fld Reg.LDG_WAKE_CAUSE 10 8 = 5 ∧
      s.touches t [.regs, .ldg, .host] [Reg.LDG_WAKE_CAUSE] := by
  have hhost := (s.evolves_host { s.host with perst := false }).writes
  have h (u : State) (hu : u.ldg = s.ldg) (hreg : u.regs = s.regs) (hhost : u.host.perst = false)
      (hlaw : Writes [.host] [] s u) : (u.wakeEvent 5 none).host.perst = false ∧ (u.wakeEvent 5 none).ldg.waking = 1 ∧
      (u.wakeEvent 5 none).bit Reg.LDG_WAKE_CAUSE 5 = true ∧ (u.wakeEvent 5 none).fld Reg.LDG_WAKE_CAUSE 10 8 = 5 ∧
      s.touches (u.wakeEvent 5 none) [.regs, .ldg, .host] [Reg.LDG_WAKE_CAUSE] := by
    obtain ⟨hone, hbit, hfld, hwrites⟩ := State.wakeEvent_of_a2 (s := u) (n := 5) none (hreg ▸ hwf)
      ((State.bit_of_regs _ _ _ _ hreg).trans htrip) (by rw [hu, hent]) (by rw [hu, hwaking]) (by rw [hu, hps]) (by decide)
    have hkept : (u.wakeEvent 5 none).host = u.host := hwrites.evolves.keep .host (by decide)
    have hall : Writes [.regs, .ldg, .host] [Reg.LDG_WAKE_CAUSE] s (u.wakeEvent 5 none) := hlaw.widen.step hwrites
    exact ⟨by rw [hkept, hhost], hone, hbit, hfld, hall.touches⟩
  exact ⟨_, exec_perstDeassert hperst, h _ rfl rfl rfl hhost⟩

/-- Settles O10: the link, the resets of the host's side, and the release of PERST#. -/
theorem linkAndResetsAct : Obligations.LinkAndResetsAct := by
  refine ⟨fun s hinv => ⟨fun speed width flit hspeed hwidth hpow hdom hperst hdown =>
      ⟨_, exec_linkUp hpow hdom hperst hdown speed width flit, State.linkRise_shows hinv.2 flit hspeed hwidth⟩,
      fun moved hup => linkDown_stops hinv.2 hup moved⟩,
    fun kind s hinv hpow hwait => ⟨fun hkind hstep moved => ?_, fun hkind hopen moved => ?_, fun hkind hclosed moved =>
      ⟨_, ?_, State.hostReset_resets hinv.2 hkind moved⟩⟩,
    fun s hinv => ⟨fun kind moved => hostResetAfterCommit_resets hinv.2 moved, fun hperst hasleep => ?_,
      perstDeassert_wakes hinv.2⟩⟩
  · rw [exec_hostSideReset hpow hwait, if_pos ⟨hkind, hstep⟩]
  · rw [exec_hostSideReset hpow hwait, if_neg (fun h => hkind h.1), if_pos hopen]
  · rw [exec_hostSideReset hpow hwait, if_neg (fun h => hkind h.1), if_neg (by simp [hclosed])]
  · rw [exec_perstDeassert hperst, State.wakeEvent_of_awake (by exact hasleep)]

end Sys2Proof.Machine

/-! The operations on the held image (R43 to R52). -/

namespace Sys2Proof.Machine

set_option Elab.async false

/-! ## Errors, and a module without an image -/

theorem State.imageError_writes (s : State) (code step : Nat) : Writes [.regs] [Reg.LAST_STATE] s (s.imageError code step) :=
  (s.setFld_writes _ _ _ _).step (State.setFld_writes _ _ _ _ _)

theorem State.putBits_mod (v lo width x : Nat) : putBits v lo width (x % 2 ^ width) = putBits v lo width x := by
  rw [putBits, putBits, Nat.mod_mod]

/-- A field of a register holds the low bits of what is written. -/
theorem State.fld_setFld_mod (s : State) (o : Nat) {hi lo : Nat} (x : Nat) (h : storeWf 0 s.regs = true) (hhi : hi < 64) :
    (s.setFld o hi lo x).fld o hi lo = x % 2 ^ (hi + 1 - lo) := by
  have hmod : s.setFld o hi lo x = s.setFld o hi lo (x % 2 ^ (hi + 1 - lo)) := by
    rw [State.setFld, State.setFld, State.putBits_mod]
  rw [hmod]
  exact s.fld_setFld o h hhi (Nat.mod_lt _ (Nat.two_pow_pos _))

/-- R53, R54: the code and the step of an error. -/
theorem State.fld_imageError {s : State} (h : storeWf 0 s.regs = true) (code step : Nat) :
    (s.imageError code step).fld Reg.LAST_STATE 15 8 = code % 256 ∧
      (s.imageError code step).fld Reg.LAST_STATE 23 16 = step % 256 := by
  have hcode := s.fld_setFld_mod Reg.LAST_STATE (hi := 15) (lo := 8) code h (by decide)
  have hregs := (s.setFld_writes Reg.LAST_STATE 15 8 code).wf h
  refine ⟨?_, State.fld_setFld_mod _ _ _ hregs (by decide)⟩
  exact (State.fld_setFld_ne _ _ _ hregs (by decide) (.inl (by decide))).trans hcode

theorem State.toEmpty_file (s : State) : s.toEmpty.image.file = none := by
  rw [s.toEmpty_parts.1]
  rfl

/-- R54: what a load that fails leaves. -/
theorem State.loadFail_ends {s : State} (h : storeWf 0 s.regs = true) (code step : Nat) :
    (s.loadFail code step).image.st = .empty ∧ (s.loadFail code step).image.file = none ∧
      (s.loadFail code step).fld Reg.LAST_STATE 15 8 = code % 256 ∧
      (s.loadFail code step).fld Reg.LAST_STATE 23 16 = step % 256 ∧ (s.loadFail code step).bit Reg.LAST_EVENT 1 = true ∧
      Writes [.regs, .out, .heldOut, .image, .adm, .hbm, .pyu, .host] [Reg.LAST_STATE, Reg.MEM_EVENT, Reg.LAST_EVENT] s
        (s.loadFail code step) := by
  obtain ⟨hcode, hstep⟩ := State.fld_imageError h code step
  have herror := s.imageError_writes code step
  unfold State.loadFail
  generalize s.imageError code step = u at *
  have hempty := u.toEmpty_parts.2
  have hst := u.toEmpty_image
  have hfile := u.toEmpty_file
  generalize u.toEmpty = v at *
  have hevent := v.event_writes Reg.LAST_EVENT 1
  have himage : (v.event Reg.LAST_EVENT 1).image = v.image := hevent.evolves.keep .image (by decide)
  refine ⟨by rw [himage, hst], by rw [himage, hfile], ?_, ?_, v.bit_event _ _ (hempty.wf (herror.wf h)) (by decide),
    (herror.widen.step hempty).step hevent⟩
  · exact (hevent.fld (by decide) 15 8).trans ((hempty.fld (by decide) 15 8).trans hcode)
  · exact (hevent.fld (by decide) 23 16).trans ((hempty.fld (by decide) 23 16).trans hstep)

/-! ## The image that runs stops -/

theorem State.halt_tick (s : State) : s.halt.tick.ticking = false ∧ s.halt.tick.halted = true := by
  have htail (u : State) : ((u.endStep.fillCredits.clearEngines.clearStreams.unthrottle).event Reg.TICK_EVENT 2).tick =
      { u.tick with step := none } := by
    have h1 : u.endStep.fillCredits.clearEngines.clearStreams.tick = { u.tick with step := none } := rfl
    have h2 : u.endStep.fillCredits.clearEngines.clearStreams.unthrottle.tick =
      u.endStep.fillCredits.clearEngines.clearStreams.tick := (State.unthrottle_evolves _).keep .tick (by decide)
    have h3 : ((u.endStep.fillCredits.clearEngines.clearStreams.unthrottle).event Reg.TICK_EVENT 2).tick =
      u.endStep.fillCredits.clearEngines.clearStreams.unthrottle.tick := (State.event_evolves _ _ _).keep .tick (by decide)
    rw [h3, h2, h1]
  unfold State.halt
  dsimp only
  rw [htail]
  exact ⟨rfl, rfl⟩

/-- R45: of a RUNNING image the job halts and its reports stop; no other image is touched. -/
theorem State.stopImage_stops (s : State) : s.sameSlabs s.stopImage ∧
    (s.image.st = .running → s.stopImage.tick.ticking = false ∧ s.stopImage.tick.halted = true ∧
      s.stopImage.tick.stopped = true) := by
  unfold State.stopImage
  split
  · obtain ⟨hticking, hhalted⟩ := s.halt_tick
    exact ⟨s.sameSlabs_halt.step (State.stopReports_evolves _), fun _ => ⟨hticking, hhalted, rfl⟩⟩
  next h => exact ⟨s.sameSlabs_refl, fun h' => absurd h' h⟩

end Sys2Proof.Machine

/-! Loads (R43 to R47). -/

namespace Sys2Proof.Machine

set_option Elab.async false

/-! ## LOAD -/

theorem exec_load {s : State} (hhost : s.hosted) : exec .load s = .next s.load := by
  change execLoad s = _
  rw [execLoad, State.onHost_of_hosted hhost]

/-- R43: a load in progress goes on. -/
theorem State.load_of_loading {s : State} (hstep : 8 ≤ s.boot.step) (h : s.image.st = .loading ∨ s.image.st = .verifying) :
    s.load = s := by
  rw [State.load, if_neg (Nat.not_lt.mpr hstep)]
  rcases h with h | h <;> rw [h]

theorem State.load_of_busy {s : State} (hstep : 8 ≤ s.boot.step) (hload : s.image.st ≠ .loading)
    (hverify : s.image.st ≠ .verifying) (hbusy : s.busy = true) : s.load = s.imageError 0x10 0 := by
  rw [State.load, if_neg (Nat.not_lt.mpr hstep)]
  split
  next h => exact absurd h hload
  next h => exact absurd h hverify
  next => rw [if_pos hbusy]

/-- The state in which a fetch begins: no image, and no error shows. -/
def State.loadReady (s : State) : State :=
  (s.toEmpty.imageError 0 0).zeroRegs [Reg.LAST_PROGRESS, Reg.LAST_ERR_OFFSET]

theorem State.loadReady_shows {s : State} (h : storeWf 0 s.regs = true) :
    s.loadReady.image.file = none ∧ s.loadReady.regN Reg.LAST_PROGRESS = 0 ∧ s.loadReady.fld Reg.LAST_STATE 15 8 = 0 ∧
      s.loadReady.fld Reg.LAST_STATE 23 16 = 0 ∧
      Evolves [.regs, .out, .heldOut, .image, .adm, .hbm, .pyu, .host] s s.loadReady := by
  have hempty := s.toEmpty_parts.2
  have hfile := s.toEmpty_file
  unfold State.loadReady
  generalize s.toEmpty = u at *
  obtain ⟨hcode, hstep⟩ := State.fld_imageError (hempty.wf h) 0 0
  have herror := u.imageError_writes 0 0
  have himage : (u.imageError 0 0).image = u.image := herror.evolves.keep .image (by decide)
  generalize u.imageError 0 0 = v at *
  have hzero := v.zeroRegs_writes [Reg.LAST_PROGRESS, Reg.LAST_ERR_OFFSET]
  have hkept : (v.zeroRegs [Reg.LAST_PROGRESS, Reg.LAST_ERR_OFFSET]).image = v.image :=
    hzero.evolves.keep .image (by decide)
  refine ⟨by rw [hkept, himage, hfile], ?_, (hzero.fld (by decide) 15 8).trans hcode,
    (hzero.fld (by decide) 23 16).trans hstep, (hempty.evolves.step herror.evolves rfl).step hzero.evolves rfl⟩
  rw [State.regN, v.reg_zeroRegs _ _ (by simp) (herror.wf (hempty.wf h))]
  rfl

theorem State.beginLoad_eq (s : State) : s.beginLoad =
    ({ s.stopImage.loadReady with image := { s.stopImage.loadReady.image with st := .loading } } : State).send
      (.hostFetch (s.regN Reg.LAST_SRC) (s.regN Reg.LAST_LEN)) := by
  unfold State.beginLoad State.loadReady
  dsimp only

/-- R43: a fetch that begins once the image is gone. -/
theorem State.fetch_begins {s v t : State} {x : Output} (hslabs : s.sameSlabs v) (hout : s.out <+: v.out)
    (hstop : s.image.st = .running → v.tick.ticking = false ∧ v.tick.halted = true ∧ v.tick.stopped = true)
    (hfile : v.image.file = none) (hprogress : v.regN Reg.LAST_PROGRESS = 0) (hcode : v.fld Reg.LAST_STATE 15 8 = 0)
    (hstep : v.fld Reg.LAST_STATE 23 16 = 0)
    (ht : t = ({ v with image := { v.image with st := .loading } } : State).send x) :
    t.image.st = .loading ∧ t.image.file = none ∧ t.regN Reg.LAST_PROGRESS = 0 ∧ t.fld Reg.LAST_STATE 15 8 = 0 ∧
      t.fld Reg.LAST_STATE 23 16 = 0 ∧ (∃ l, t.out = s.out ++ l ++ [x]) ∧
      (s.image.st = .running → t.tick.ticking = false ∧ t.tick.halted = true ∧ t.tick.stopped = true) ∧ s.sameSlabs t := by
  obtain ⟨l, hl⟩ := hout
  subst ht
  refine ⟨rfl, hfile, hprogress, hcode, hstep, ⟨l, ?_⟩, hstop, hslabs⟩
  rw [hl]
  rfl

/-- R43: what a load that nothing refuses leaves. -/
theorem load_begins {s : State} (h : storeWf 0 s.regs = true) (hhost : s.hosted) (hstep : 8 ≤ s.boot.step)
    (hload : s.image.st ≠ .loading) (hverify : s.image.st ≠ .verifying) (hidle : s.busy = false) :
    ∃ t, exec .load s = .next t ∧ t.image.st = .loading ∧ t.image.file = none ∧ t.regN Reg.LAST_PROGRESS = 0 ∧
      t.fld Reg.LAST_STATE 15 8 = 0 ∧ t.fld Reg.LAST_STATE 23 16 = 0 ∧
      (∃ l, t.out = s.out ++ l ++ [.hostFetch (s.regN Reg.LAST_SRC) (s.regN Reg.LAST_LEN)]) ∧
      (s.image.st = .running → t.tick.ticking = false ∧ t.tick.halted = true ∧ t.tick.stopped = true) ∧ s.sameSlabs t := by
  obtain ⟨hslabs, hstops⟩ := s.stopImage_stops
  have hlaw := s.stopImage_evolves
  obtain ⟨hfile, hprogress, hcode, hfield, hready⟩ := State.loadReady_shows (hlaw.regs h)
  have htick : s.stopImage.loadReady.tick = s.stopImage.tick := hready.keep .tick (by decide)
  refine ⟨s.beginLoad, ?_, State.fetch_begins (hslabs.step hready) (hlaw.out.trans hready.out) (fun hrun => ?_) hfile
    hprogress hcode hfield s.beginLoad_eq⟩
  · rw [exec_load hhost, State.load_begins hstep hload hverify hidle]
  · rw [htick]
    exact hstops hrun
end Sys2Proof.Machine

/-! Writes of device memory depend on memory and the channels' buffers alone (R215, R218, R233). -/

namespace Sys2Proof.Machine

set_option Elab.async false

/-- Memory and the channels' buffers are the same. -/
def State.memAgrees (s t : State) : Prop := t.mem = s.mem ∧ t.hbm = s.hbm

theorem State.memAgrees_refl (s : State) : s.memAgrees s := ⟨rfl, rfl⟩

theorem State.memAgrees.trans {s t u : State} (h : s.memAgrees t) (g : t.memAgrees u) : s.memAgrees u :=
  ⟨g.1.trans h.1, g.2.trans h.2⟩

theorem State.memAgrees.symm {s t : State} (h : s.memAgrees t) : t.memAgrees s := ⟨h.1.symm, h.2.symm⟩

theorem State.memAgrees.sameBytes {s t : State} (h : s.memAgrees t) : s.sameBytes t := State.sameBytes_of_mem_hbm h.1 h.2

theorem Evolves.memAgrees {P : List Part} {s t : State} (h : Evolves P s t) (hmem : .mem ∉ P := by decide)
    (hhbm : .hbm ∉ P := by decide) : s.memAgrees t := ⟨h.keep .mem hmem, h.keep .hbm hhbm⟩

/-- A state with the memory and the buffers of another. -/
def State.memOnly (s : State) : State := { State.reset with mem := s.mem, hbm := s.hbm }

theorem State.memOnly_eq {s t : State} (h : s.memAgrees t) : t.memOnly = s.memOnly := by
  rw [State.memOnly, State.memOnly, h.1, h.2]

/-- An operation whose effect on memory and the buffers comes from them alone. -/
def OnMemory (f : State → State) : Prop := ∀ s, (f s.memOnly).memAgrees (f s)

theorem OnMemory.agrees {f : State → State} (hf : OnMemory f) {s t : State} (h : s.memAgrees t) : (f s).memAgrees (f t) := by
  have ht := hf t
  rw [State.memOnly_eq h] at ht
  exact (hf s).symm.trans ht

theorem OnMemory.lineWrite (ch line : Nat) (bs : List Byte) : OnMemory fun s => s.lineWrite ch line bs :=
  fun _ => ⟨rfl, rfl⟩

theorem OnMemory.flushEntry (ch : Nat) (e : WcbEntry) : OnMemory fun s => s.flushEntry ch e := fun _ => ⟨rfl, rfl⟩

theorem OnMemory.setWcb (ch : Nat) (l : List WcbEntry) : OnMemory fun s => s.setWcb ch l := fun _ => ⟨rfl, rfl⟩

theorem OnMemory.putBytes (a : Nat) (bs : List Byte) : OnMemory fun s => s.putBytes a bs := fun _ => ⟨rfl, rfl⟩

theorem State.memAgrees.wcb {s t : State} (h : s.memAgrees t) (ch : Nat) : t.wcb ch = s.wcb ch :=
  congrArg (fun x : HbmSt => storeGet [] x.wcb ch) h.2

theorem State.memAgrees.hbmPlace {s t : State} (h : s.memAgrees t) (a : Nat) : t.hbmPlace a = s.hbmPlace a :=
  calc t.hbmPlace a = t.memOnly.hbmPlace a := rfl
    _ = s.memOnly.hbmPlace a := by rw [State.memOnly_eq h]
    _ = s.hbmPlace a := rfl

theorem State.memAgrees.partialWrite {s t : State} (h : s.memAgrees t) (who : Requester) (ch line off : Nat)
    (bs : List Byte) : (s.partialWrite who ch line off bs).memAgrees (t.partialWrite who ch line off bs) := by
  have hset (l : List WcbEntry) : (s.setWcb ch l).memAgrees (t.setWcb ch l) := (OnMemory.setWcb ch l).agrees h
  unfold State.partialWrite
  rw [h.wcb ch]
  dsimp only
  split
  · exact hset _
  · split
    next e es _ =>
      split
      · have hcount (u : State) : u.memAgrees ((u.count Reg.MEM_WCB_EVICT 64 1).bel64 (chanCnt ch 7) 1) := ⟨rfl, rfl⟩
        have hboth := ((hcount (s.flushEntry ch e)).symm.trans ((OnMemory.flushEntry ch e).agrees h)).trans
          (hcount (t.flushEntry ch e))
        rw [hboth.wcb ch]
        exact (OnMemory.setWcb ch _).agrees hboth
      · exact hset _
    next => exact hset _

theorem State.memAgrees.linePiece {s t : State} (h : s.memAgrees t) (who : Requester) (a : Nat) (bs : List Byte) :
    (s.linePiece who a bs).memAgrees (t.linePiece who a bs) := by
  have hevent (u : State) : u.memAgrees u.addrErr := (State.event_evolves _ _ _).memAgrees
  unfold State.linePiece
  rw [h.hbmPlace a]
  split
  · split
    · dsimp only
      have hbel (k : Nat) : (s.bel64 k 1).memAgrees (t.bel64 k 1) := h
      split
      · exact (OnMemory.lineWrite _ _ _).agrees (hbel _)
      · exact (hbel _).partialWrite who _ _ _ bs
    · exact ((hevent s).symm.trans h).trans (hevent t)
  · split
    · exact (OnMemory.putBytes a bs).agrees h
    · exact h

/-- What a write leaves in memory and in the channels' buffers comes from what stood there. -/
theorem State.memAgrees.devWrite {s t : State} (h : s.memAgrees t) (who : Requester) (a : Nat) (bs : List Byte) :
    (s.devWrite who a bs).memAgrees (t.devWrite who a bs) := by
  unfold State.devWrite
  generalize linePieces a bs.length bs = l
  induction l generalizing s t with
  | nil => exact h
  | cons p l ih => exact ih (h.linePiece who p.1 p.2)

end Sys2Proof.Machine

/-! The end of a fetch, and of the checks of an image (R44 to R47). -/

namespace Sys2Proof.Machine

set_option Elab.async false

/-! ## The fetch ends -/

theorem exec_imageFetchDone {s : State} (hload : s.image.st = .loading) (file : ImageFile) :
    exec (.imageFetchDone file) s =
      (let f : ImageFile := { file with raw := file.raw.take (s.regN Reg.LAST_LEN) }
       let u := (s.setRegN Reg.LAST_PROGRESS (s.regN Reg.LAST_LEN)).devWrite .window s.imageStart f.raw
       .next { u with image := { u.image with st := .verifying, file := some f, map := s.hbm.inService } }) := by
  change execImageFetchDone file s = _
  rw [execImageFetchDone, if_pos hload]

/-- A register written with the number of another holds its bits. -/
theorem State.reg_setRegN_regN {s : State} (h : storeWf 0 s.regs = true) (o k : Nat) :
    (s.setRegN o (s.regN k)).reg o = s.reg k := by
  rw [State.setRegN, s.reg_setReg o _ h, State.regN, BitVec.ofNat_toNat, BitVec.setWidth_eq]

/-- R44: what the end of a fetch leaves. -/
theorem State.fetchDone_leaves {s u v : State} {f : ImageFile} (himage : u.image = s.image)
    (hprogress : u.reg Reg.LAST_PROGRESS = s.reg Reg.LAST_LEN) (hmem : v.memAgrees u)
    (hlaw : Evolves Part.devWrite s u) :
    let t : State := { u with image := { u.image with st := .verifying, file := some f, map := s.hbm.inService } }
    t.image = { s.image with st := .verifying, file := some f, map := s.hbm.inService } ∧
      t.reg Reg.LAST_PROGRESS = s.reg Reg.LAST_LEN ∧ (∀ a, t.devByte a = v.devByte a) ∧
      s.keeps t ([.mem, .hbm, .image, .bel] ++ Part.signalled) := by
  have hset := u.evolves_image { u.image with st := .verifying, file := some f, map := s.hbm.inService }
  have hall : Evolves ([.mem, .hbm, .image, .bel] ++ Part.signalled) s
      { u with image := { u.image with st := .verifying, file := some f, map := s.hbm.inService } } :=
    (hlaw.widen rfl).step hset rfl
  exact ⟨by rw [himage], hprogress, (hmem.trans hset.memAgrees).sameBytes, hall.keep⟩

theorem imageFetchDone_verifies {s : State} (h : storeWf 0 s.regs = true) (hload : s.image.st = .loading) (file : ImageFile) :
    let fetched : ImageFile := { file with raw := file.raw.take (s.regN Reg.LAST_LEN) }
    ∃ t, exec (.imageFetchDone file) s = .next t ∧
      t.image = { s.image with st := .verifying, file := some fetched, map := s.hbm.inService } ∧
      t.reg Reg.LAST_PROGRESS = s.reg Reg.LAST_LEN ∧
      (∀ a, t.devByte a = (s.devWrite .window s.imageStart fetched.raw).devByte a) ∧
      s.keeps t ([.mem, .hbm, .image, .bel] ++ Part.signalled) := by
  intro fetched
  have hset := s.setRegN_writes Reg.LAST_PROGRESS (s.regN Reg.LAST_LEN)
  have hwrite := (s.setRegN Reg.LAST_PROGRESS (s.regN Reg.LAST_LEN)).devWrite_writes .window s.imageStart fetched.raw
  have himage : ((s.setRegN Reg.LAST_PROGRESS (s.regN Reg.LAST_LEN)).devWrite .window s.imageStart fetched.raw).image =
      (s.setRegN Reg.LAST_PROGRESS (s.regN Reg.LAST_LEN)).image := hwrite.evolves.keep .image (by decide)
  exact ⟨_, exec_imageFetchDone hload file, State.fetchDone_leaves himage
    ((hwrite.reg (by decide)).trans (State.reg_setRegN_regN h _ _))
    ((hset.evolves.memAgrees (by decide) (by decide)).devWrite .window s.imageStart fetched.raw)
    ((hset.evolves.widen rfl).step hwrite.evolves rfl)⟩

theorem exec_imageFetchDmaError {s : State} (hload : s.image.st = .loading) (n : Nat) :
    exec (.imageFetchDmaError n) s =
      .next (((s.setRegN Reg.LAST_PROGRESS n).setRegN Reg.LAST_ERR_OFFSET n).loadFail 0x12 0) := by
  change execImageFetchDmaError n s = _
  rw [execImageFetchDmaError, if_pos hload]

/-- R44: a DMA error ends the fetch. -/
theorem imageFetchDmaError_ends {s : State} (h : storeWf 0 s.regs = true) (hload : s.image.st = .loading) {n : Nat}
    (hn : n < 2 ^ 64) : ∃ t, exec (.imageFetchDmaError n) s = .next t ∧ t.image.st = .empty ∧ t.image.file = none ∧
      t.regN Reg.LAST_ERR_OFFSET = n ∧ t.regN Reg.LAST_PROGRESS = n ∧ t.fld Reg.LAST_STATE 15 8 = 0x12 ∧
      t.fld Reg.LAST_STATE 23 16 = 0 ∧ t.bit Reg.LAST_EVENT 1 = true ∧ t.upd = s.upd ∧ t.mem = s.mem := by
  have hprogress := s.setRegN_writes Reg.LAST_PROGRESS n
  have hoffset := (s.setRegN Reg.LAST_PROGRESS n).setRegN_writes Reg.LAST_ERR_OFFSET n
  have hshow : ((s.setRegN Reg.LAST_PROGRESS n).setRegN Reg.LAST_ERR_OFFSET n).regN Reg.LAST_PROGRESS = n :=
    (hoffset.regN (by decide)).trans (s.regN_setRegN _ _ h hn)
  have herror := (s.setRegN Reg.LAST_PROGRESS n).regN_setRegN Reg.LAST_ERR_OFFSET n (hprogress.wf h) hn
  obtain ⟨hst, hfile, hcode, hstep, hevent, hwrites⟩ := State.loadFail_ends
    (s := (s.setRegN Reg.LAST_PROGRESS n).setRegN Reg.LAST_ERR_OFFSET n) (hoffset.wf (hprogress.wf h)) 0x12 0
  exact ⟨_, exec_imageFetchDmaError hload n, hst, hfile, (hwrites.regN (by decide)).trans herror,
    (hwrites.regN (by decide)).trans hshow, hcode, hstep, hevent, hwrites.evolves.keep .upd (by decide),
    hwrites.evolves.keep .mem (by decide)⟩

/-! ## The checks end -/

theorem exec_imageChecksDone {s : State} {f : ImageFile} (hst : s.image.st = .verifying) (hfile : s.image.file = some f)
    (hcheck : s.image.rechecking = none) : exec .imageChecksDone s = .next (match s.imageCheck f with
      | some e => (s.errOffset e.offset).loadFail e.code e.step
      | none => s.loaded f) := by
  change execImageChecksDone s = _
  rw [execImageChecksDone, hst, hfile]
  exact congrArg Host.Outcome.next (if_neg (by simp [hcheck]))

theorem State.errOffset_writes (s : State) (o : Option Nat) :
    Writes [.regs, .free] [Reg.LAST_ERR_OFFSET] s (s.errOffset o) := by
  refine ⟨s.errOffset_evolves o, ?_⟩
  cases o <;> exact (State.setRegN_writes _ _ _).regs

/-- R44, R54: a check that fails. -/
theorem imageChecksDone_fails {s : State} {f : ImageFile} (h : storeWf 0 s.regs = true) (hst : s.image.st = .verifying)
    (hfile : s.image.file = some f) (hcheck : s.image.rechecking = none) {e : Failure} (he : s.imageCheck f = some e) :
    ∃ t, exec .imageChecksDone s = .next t ∧ t.image.st = .empty ∧ t.image.file = none ∧
       t.fld Reg.LAST_STATE 15 8 = e.code % 256 ∧ t.fld Reg.LAST_STATE 23 16 = e.step % 256 ∧
       (∀ o, e.offset = some o → t.regN Reg.LAST_ERR_OFFSET = o % 2 ^ 64) ∧ t.bit Reg.LAST_EVENT 1 = true ∧
       t.upd = s.upd := by
  have hoffset := s.errOffset_writes e.offset
  have hupd : (s.errOffset e.offset).upd = s.upd := hoffset.evolves.keep .upd (by decide)
  obtain ⟨hempty, hnone, hcode, hstep, hevent, hwrites⟩ := State.loadFail_ends (hoffset.wf h) e.code e.step
  have hkept : ((s.errOffset e.offset).loadFail e.code e.step).upd = (s.errOffset e.offset).upd :=
    hwrites.evolves.keep .upd (by decide)
  refine ⟨_, (exec_imageChecksDone hst hfile hcheck).trans (by rw [he]), hempty, hnone, hcode, hstep, fun o ho => ?_, hevent,
    hkept.trans hupd⟩
  refine (hwrites.regN (by decide)).trans ?_
  rw [ho, State.errOffset, State.regN, State.setRegN, s.reg_setReg _ _ h, BitVec.toNat_ofNat]

/-! ## The image is LOADED -/

/-- R47, R240: epoch and current slab carry over under the same job alone. -/
theorem State.carryOver_slab (s : State) (same : Bool) :
    (s.carryOver same).upd.epoch = (if same = true then s.upd.epoch else 0) ∧
      (s.carryOver same).upd.slabB = (same && s.upd.slabB) := by
  unfold State.carryOver
  cases same with
  | false => exact ⟨rfl, rfl⟩
  | true =>
    rw [if_pos rfl]
    split <;> exact ⟨rfl, rfl⟩

/-- R46, R143, R153, R169: what a new image finds cleared, and what carries over to it. -/
structure FreshFor (s u : State) (same : Bool) : Prop where
  image : u.image = s.image
  epoch : u.upd.epoch = if same = true then s.upd.epoch else 0
  slabB : u.upd.slabB = (same && s.upd.slabB)
  raised : u.tick.raised = 0
  acc : u.me.acc = []
  regsVe : u.ve.regs = []
  mem : u.mem = s.mem
  regs : u.regs = s.regs

theorem State.freshFor (s : State) (same : Bool) (ps : List PlotDecl) :
    FreshFor s ((s.carryOver same).loadPlots ps).freshImage same := by
  obtain ⟨hepoch, hslab⟩ := s.carryOver_slab same
  have hcarry := s.carryOver_evolves same
  have himage : (s.carryOver same).image = s.image := hcarry.keep .image (by decide)
  have hmem : (s.carryOver same).mem = s.mem := hcarry.keep .mem (by decide)
  have hregs : (s.carryOver same).regs = s.regs := hcarry.keep .regs (by decide)
  have hplots := (s.carryOver same).loadPlots_evolves ps
  have hupd' : ((s.carryOver same).loadPlots ps).upd = (s.carryOver same).upd := hplots.keep .upd (by decide)
  have himage' : ((s.carryOver same).loadPlots ps).image = (s.carryOver same).image := hplots.keep .image (by decide)
  have hmem' : ((s.carryOver same).loadPlots ps).mem = (s.carryOver same).mem := hplots.keep .mem (by decide)
  have hregs' : ((s.carryOver same).loadPlots ps).regs = (s.carryOver same).regs := hplots.keep .regs (by decide)
  have hfresh (u : State) (hi : u.image = s.image) (he : u.upd.epoch = if same = true then s.upd.epoch else 0)
      (hb : u.upd.slabB = (same && s.upd.slabB)) (hm : u.mem = s.mem) (hr : u.regs = s.regs) :
      FreshFor s u.freshImage same := ⟨hi, he, hb, rfl, rfl, rfl, hm, hr⟩
  exact hfresh _ (himage'.trans himage) (by rw [hupd', hepoch]) (by rw [hupd', hslab]) (hmem'.trans hmem)
    (hregs'.trans hregs)

/-- The words of the digest, from the first on. -/
theorem State.regN_showDigest {s : State} (h : storeWf 0 s.regs = true) (d n : Nat) :
    (∀ i, i < n → (s.showDigest d n).regN (Reg.LAST_DIGEST + 4 * i) = bits d (32 * i + 31) (32 * i)) ∧
      storeWf 0 (s.showDigest d n).regs = true := by
  induction n with
  | zero => exact ⟨fun i hi => absurd hi (Nat.not_lt_zero i), h⟩
  | succ n ih =>
    obtain ⟨hwords, hregs⟩ := ih
    have hword : bits d (32 * n + 31) (32 * n) < 2 ^ 64 :=
      lt_of_lt_of_le (Nat.mod_lt _ (Nat.two_pow_pos _)) (Nat.pow_le_pow_right (by decide) (by omega))
    refine ⟨fun i hi => ?_, (State.setRegN_writes _ _ _).wf hregs⟩
    by_cases hin : i = n
    · subst hin
      exact State.regN_setRegN _ _ _ hregs hword
    · exact ((State.setRegN_writes _ (Reg.LAST_DIGEST + 4 * n) _).regN (by simp; omega)).trans (hwords i (by omega))

/-- R47: the registers of an image that reaches LOADED. -/
theorem State.showLoaded {s : State} (h : storeWf 0 s.regs = true) (d key : Nat) :
    let t := (((s.showDigest d 16).setRegN Reg.LAST_KEY key).topoPorts).event Reg.LAST_EVENT 0
    (∀ i, i < 16 → t.regN (Reg.LAST_DIGEST + 4 * i) = bits d (32 * i + 31) (32 * i)) ∧ t.bit Reg.LAST_EVENT 0 = true ∧
      Evolves (.pyu :: Part.signalled) s t := by
  obtain ⟨hwords, hregs⟩ := State.regN_showDigest h d 16
  have hshow := s.showDigest_evolves d 16
  have key (u : State) (hw : ∀ i, i < 16 → u.regN (Reg.LAST_DIGEST + 4 * i) = bits d (32 * i + 31) (32 * i))
      (hr : storeWf 0 u.regs = true) (hlaw : Evolves [.regs] s u) :
      let t := ((u.setRegN Reg.LAST_KEY key).topoPorts).event Reg.LAST_EVENT 0
      (∀ i, i < 16 → t.regN (Reg.LAST_DIGEST + 4 * i) = bits d (32 * i + 31) (32 * i)) ∧ t.bit Reg.LAST_EVENT 0 = true ∧
        Evolves (.pyu :: Part.signalled) s t := by
    have hkey := u.setRegN_writes Reg.LAST_KEY key
    have hports := (u.setRegN Reg.LAST_KEY key).topoPorts_evolves
    have hevent := (u.setRegN Reg.LAST_KEY key).topoPorts.event_writes Reg.LAST_EVENT 0
    have hall : Writes (.pyu :: Part.signalled) [Reg.LAST_KEY, Reg.LAST_EVENT] u _ :=
      (hkey.widen.step hports.writes).step hevent
    have hne : ∀ i, i < 16 → Reg.LAST_DIGEST + 4 * i ∉ [Reg.LAST_KEY, Reg.LAST_EVENT] := by decide
    exact ⟨fun i hi => (hall.regN (hne i hi)).trans (hw i hi),
      State.bit_event _ _ _ (hports.regs (hkey.wf hr)) (by decide), (hlaw.widen rfl).step hall.evolves rfl⟩
  exact key _ hwords hregs hshow

/-- R46, R47: an image that passes its checks is LOADED. -/
theorem imageChecksDone_loads {s : State} {f : ImageFile} (h : storeWf 0 s.regs = true) (hst : s.image.st = .verifying)
    (hfile : s.image.file = some f) (hcheck : s.image.rechecking = none) (hpass : s.imageCheck f = none) :
    ∃ t, exec .imageChecksDone s = .next t ∧ t.image.st = .loaded ∧ t.image.file = some f ∧
      t.image.prevJob = some f.header.jobId ∧ t.upd.epoch = (if s.image.prevJob = some f.header.jobId then s.upd.epoch else 0) ∧
      (t.upd.slabB = true ↔ s.image.prevJob = some f.header.jobId ∧ s.upd.slabB = true) ∧
      (∀ i, i < 16 → t.regN (Reg.LAST_DIGEST + 4 * i) = bits f.digest (32 * i + 31) (32 * i)) ∧
      t.bit Reg.LAST_EVENT 0 = true ∧ t.pwr.stale = false ∧ t.tick.raised = 0 ∧ t.me.acc = [] ∧ t.ve.regs = [] ∧
      t.mem = s.mem := by
  have key (u : State) (key : Nat) (hu : FreshFor s u (decide (s.image.prevJob = some f.header.jobId))) :
      let v : State := { u with
        image := { u.image with st := .loaded, prevJob := some f.header.jobId, mapChanged := false }
        pwr := { u.pwr with stale := false, streak := 0 } }
      let t := (((v.showDigest f.digest 16).setRegN Reg.LAST_KEY key).topoPorts).event Reg.LAST_EVENT 0
      t.image.st = .loaded ∧ t.image.file = some f ∧
      t.image.prevJob = some f.header.jobId ∧ t.upd.epoch = (if s.image.prevJob = some f.header.jobId then s.upd.epoch else 0) ∧
      (t.upd.slabB = true ↔ s.image.prevJob = some f.header.jobId ∧ s.upd.slabB = true) ∧
      (∀ i, i < 16 → t.regN (Reg.LAST_DIGEST + 4 * i) = bits f.digest (32 * i + 31) (32 * i)) ∧
      t.bit Reg.LAST_EVENT 0 = true ∧ t.pwr.stale = false ∧ t.tick.raised = 0 ∧ t.me.acc = [] ∧ t.ve.regs = [] ∧
      t.mem = s.mem := by
    obtain ⟨image, epoch, slabB, raised, acc, regsVe, mem, regs⟩ := hu
    intro v t
    obtain ⟨hwords, hevent, hlaw⟩ := State.showLoaded (s := v) (by rw [← regs] at h; exact h) f.digest key
    have himage : t.image = v.image := hlaw.keep .image (by decide)
    have hupd : t.upd = v.upd := hlaw.keep .upd (by decide)
    have htick : t.tick = v.tick := hlaw.keep .tick (by decide)
    have hme : t.me = v.me := hlaw.keep .me (by decide)
    have hve : t.ve = v.ve := hlaw.keep .ve (by decide)
    have hpwr : t.pwr = v.pwr := hlaw.keep .pwr (by decide)
    have hmem : t.mem = v.mem := hlaw.keep .mem (by decide)
    have hnone : v.image.file = some f := (congrArg ImageSt.file image).trans hfile
    refine ⟨by rw [himage], by rw [himage, hnone], by rw [himage], ?_, ?_, hwords, hevent, by rw [hpwr],
      by rw [htick]; exact raised, by rw [hme]; exact acc, by rw [hve]; exact regsVe, by rw [hmem]; exact mem⟩
    · rw [hupd]
      exact epoch.trans (by simp only [decide_eq_true_eq])
    · rw [hupd]
      exact (Iff.of_eq (congrArg (· = true) slabB)).trans (by simp)
  refine ⟨_, (exec_imageChecksDone hst hfile hcheck).trans (by rw [hpass]), ?_⟩
  exact key _ ((s.keySlot f.keyDigest).getD 0 + 2) (s.freshFor _ f.sections.plot.plots)

/-- Settles O11: a load is held, ignored, refused or begun; its fetch ends; its checks end. -/
theorem loadsEndInAnImage : Obligations.LoadsEndInAnImage := by
  refine ⟨fun s hinv hhost => ⟨fun hstep => ?_, fun hstep hload => ?_, fun hstep hload hverify hbusy => ?_,
      load_begins hinv.2 hhost⟩,
    fun s hinv hload => ⟨imageFetchDone_verifies hinv.2 hload, fun n => imageFetchDmaError_ends hinv.2 hload⟩,
    fun s f hinv hst hfile hcheck => ⟨fun e => imageChecksDone_fails hinv.2 hst hfile hcheck,
      imageChecksDone_loads hinv.2 hst hfile hcheck⟩⟩
  · rw [exec_load hhost, State.load, if_pos hstep]
  · rw [exec_load hhost, State.load_of_loading hstep hload]
  · obtain ⟨hcode, hfield⟩ := State.fld_imageError (s := s) hinv.2 0x10 0
    exact ⟨_, (exec_load hhost).trans (by rw [State.load_of_busy hstep hload hverify hbusy]), hcode, hfield,
      (s.imageError_writes 0x10 0).touches⟩

end Sys2Proof.Machine

/-! The end of an image: UNLOAD, ABORT, retirement and the recheck after A2 (R50 to R52). -/

namespace Sys2Proof.Machine

set_option Elab.async false

/-! ## UNLOAD and ABORT -/

theorem exec_unload {s : State} (hhost : s.hosted) : exec .unload s = .next s.unload := by
  change execUnload s = _
  rw [execUnload, State.onHost_of_hosted hhost]

theorem exec_abort {s : State} (hhost : s.hosted) : exec .abort s = .next s.abort := by
  change execAbort s = _
  rw [execAbort, State.onHost_of_hosted hhost]

/-- R55: an ignored command shows in LAST_EVENT and nowhere else. -/
theorem State.cmdIgnored_shows {s : State} (h : storeWf 0 s.regs = true) :
    s.cmdIgnored.bit Reg.LAST_EVENT 4 = true ∧ s.touches s.cmdIgnored Part.signalled [Reg.LAST_EVENT] :=
  ⟨s.bit_event _ _ h (by decide), (s.event_writes _ _).touches⟩

theorem State.unload_of_loading {s : State} (h : s.image.st = .loading ∨ s.image.st = .verifying) :
    s.unload = s.cmdIgnored := by
  rw [State.unload]
  rcases h with h | h <;> rw [h]

theorem State.unload_of_loaded {s : State} (hload : s.image.st ≠ .loading) (hverify : s.image.st ≠ .verifying) :
    s.unload = if s.busy then s.imageError 0x10 0 else s.stopImage.toEmpty := by
  rw [State.unload]
  split
  next h => exact absurd h hload
  next h => exact absurd h hverify
  next => rfl

/-- A halt without a ticket to complete writes nothing to memory. -/
theorem State.halt_mem {s : State} (h : s.adm.accepted = []) : s.halt.mem = s.mem := by
  unfold State.halt
  rw [h]
  dsimp only
  have hdone (u : State) : ((u.completeAll (bySlot [])).returnPlots 0).endRun.mem = u.mem := by
    have hall : u.completeAll (bySlot []) = u := rfl
    have hplots : (u.returnPlots 0).mem = u.mem := (u.returnPlots_evolves 0).keep .mem (by decide)
    have hend : (u.returnPlots 0).endRun.mem = (u.returnPlots 0).mem := (State.endRun_evolves _).keep .mem (by decide)
    rw [hall, hend, hplots]
  have htail (u : State) : ((u.endStep.fillCredits.clearEngines.clearStreams.unthrottle).event Reg.TICK_EVENT 2).mem =
      u.mem := by
    have hstep : u.endStep.fillCredits.clearEngines.clearStreams.mem = u.mem := rfl
    have hshares : u.endStep.fillCredits.clearEngines.clearStreams.unthrottle.mem =
      u.endStep.fillCredits.clearEngines.clearStreams.mem := (State.unthrottle_evolves _).keep .mem (by decide)
    have hevent : ((u.endStep.fillCredits.clearEngines.clearStreams.unthrottle).event Reg.TICK_EVENT 2).mem =
      u.endStep.fillCredits.clearEngines.clearStreams.unthrottle.mem := (State.event_evolves _ _ _).keep .mem (by decide)
    rw [hevent, hshares, hstep]
  rw [htail]
  exact hdone s

theorem State.stopImage_mem {s : State} (h : s.busy = false) : s.stopImage.mem = s.mem := by
  have hnone : s.adm.accepted = [] := by
    rw [State.busy, Bool.or_eq_false_iff] at h
    simpa using h.1
  unfold State.stopImage
  split
  · exact State.halt_mem hnone
  · rfl

/-- R50: an UNLOAD discards the image. -/
theorem State.unloaded {s : State} (hidle : s.busy = false) : let t := s.stopImage.toEmpty
    t.image.st = .empty ∧ t.image.file = none ∧ (s.image.st = .running → t.tick.halted = true ∧ t.tick.stopped = true) ∧
      s.sameSlabs t ∧ t.mem = s.mem := by
  obtain ⟨hslabs, hstops⟩ := s.stopImage_stops
  have hlaw := s.stopImage.toEmpty_evolves
  have htick : s.stopImage.toEmpty.tick = s.stopImage.tick := hlaw.keep .tick (by decide)
  have hmem : s.stopImage.toEmpty.mem = s.stopImage.mem := hlaw.keep .mem (by decide)
  refine ⟨State.toEmpty_image _, State.toEmpty_file _, fun hrun => ?_, hslabs.step hlaw,
    hmem.trans (State.stopImage_mem hidle)⟩
  rw [htick]
  exact (hstops hrun).2

/-- R50: an ABORT ends a load. -/
theorem State.abort_ends {s : State} (h : storeWf 0 s.regs = true)
    (hload : s.image.st = .loading ∨ s.image.st = .verifying) : s.abort.image.st = .empty ∧ s.abort.image.file = none ∧
      s.abort.fld Reg.LAST_STATE 15 8 = 0x11 ∧ s.abort.bit Reg.LAST_EVENT 1 = true ∧ s.abort.upd = s.upd ∧
      s.abort.mem = s.mem := by
  have key (u : State) (hu : Evolves [.regs, .free] s u) : (u.loadFail 0x11 0).image.st = .empty ∧
      (u.loadFail 0x11 0).image.file = none ∧ (u.loadFail 0x11 0).fld Reg.LAST_STATE 15 8 = 0x11 ∧
      (u.loadFail 0x11 0).bit Reg.LAST_EVENT 1 = true ∧ (u.loadFail 0x11 0).upd = s.upd ∧
      (u.loadFail 0x11 0).mem = s.mem := by
    obtain ⟨hempty, hfile, hcode, _, hevent, hwrites⟩ := State.loadFail_ends (hu.regs h) 0x11 0
    have hall := (hu.widen (Q := [.regs, .free, .out, .heldOut, .image, .adm, .hbm, .pyu, .host]) rfl).step
      hwrites.evolves rfl
    exact ⟨hempty, hfile, hcode, hevent, hall.keep .upd (by decide), hall.keep .mem (by decide)⟩
  unfold State.abort
  rcases hload with hst | hst
  · rw [hst]
    exact key _ (((s.setRegN_evolves _ _).widen rfl).step (State.used_evolves _) rfl)
  · rw [hst]
    exact key s (Evolves.refl s)

theorem State.abort_of_loaded {s : State} (hload : s.image.st ≠ .loading) (hverify : s.image.st ≠ .verifying) :
    s.abort = s.cmdIgnored := by
  rw [State.abort]
  split
  next h => exact absurd h hload
  next h => exact absurd h hverify
  next => rfl

/-! ## Retirement -/

/-- A register of the seed bank comes from the seed bank alone. -/
theorem State.seed_congr {s t : State} (hsbk : t.sbk = s.sbk) (i : Nat) : t.seed i = s.seed i := by
  unfold State.seed State.seedStored State.wear
  rw [hsbk]

/-- The map that the seed bank wants comes from the seed bank and the channels that await a test. -/
theorem State.wantedMap_congr {s t : State} (hsbk : t.sbk = s.sbk) (hin : t.hbm.mapIn = s.hbm.mapIn)
    (hfailed : t.hbm.mapFailed = s.hbm.mapFailed) : t.wantedMap = s.wantedMap := by
  simp only [State.wantedMap, State.seed_congr hsbk, hin, hfailed]

/-- The registers of the idle shares of the channels. -/
abbrev Reg.throttle : List Nat := (List.range 4).map fun i => Reg.MEM_THROTTLE + 4 * i

theorem State.applyShares_writes (s : State) {n : Nat} (hn : n ≤ 8) : Writes [.regs] Reg.throttle s (s.applyShares n) := by
  induction n with
  | zero => exact Writes.refl s
  | succ n ih =>
    refine (ih (by omega)).step (State.setFld_writes _ _ _ _ _) (hl := fun o ho => ?_)
    rw [List.mem_singleton.mp ho]
    exact List.mem_map_of_mem (List.mem_range.mpr (by omega))

/-- A RUNNING image's throttle conditions are over; the shares show what the sensors require. -/
theorem State.unthrottle_parts (s : State) : s.unthrottle.hbm = { s.hbm with cond := [] } ∧
    Writes [.regs, .hbm] Reg.throttle s s.unthrottle := by
  have hset := (Evolves.hbm (P := [.hbm]) s { s.hbm with cond := [] } rfl).writes
  have hshares := ({ s with hbm := { s.hbm with cond := [] } } : State).applyShares_writes (Nat.le_refl 8)
  exact ⟨hshares.evolves.keep .hbm (by decide), hset.widen.step hshares (hl := fun _ h => h)⟩

theorem exec_imageRetire {s : State} (hchanged : s.image.mapChanged = true) (hidle : s.busy = false)
    (hst : s.image.st = .loaded ∨ s.image.st = .armed ∨ s.image.st = .running) : exec .imageRetire s =
      .next ((({ s with
        image := { s.image with st := .retired, mapChanged := false }
        tick := { s.tick with ticking := false, inMaint := false, stopped := true } } : State).unthrottle.copyMap).event
          Reg.LAST_EVENT 3) := by
  change execImageRetire s = _
  rw [execImageRetire, if_pos (by simp [hchanged, hidle])]
  rcases hst with h | h | h <;> rw [h]

/-- R51: what retirement leaves of a state in which the image has stopped. -/
theorem State.retired_leaves {s u : State} (h : storeWf 0 u.regs = true) (hhbm : u.hbm = s.hbm) (hsbk : u.sbk = s.sbk)
    (hlaw : Writes [.image, .tick] [] s u) : let t := (u.unthrottle.copyMap).event Reg.LAST_EVENT 3
    t.image = u.image ∧ t.tick = u.tick ∧ t.hbm = { s.hbm with inService := s.wantedMap, cond := [] } ∧
      t.bit Reg.LAST_EVENT 3 = true ∧ Writes ([.image, .tick, .hbm] ++ Part.signalled)
        ([Reg.LAST_EVENT, Reg.MEM_EVENT] ++ Reg.throttle) s t := by
  obtain ⟨hcond, hshares⟩ := u.unthrottle_parts
  have key (v : State) (hcond : v.hbm = { u.hbm with cond := [] }) (hv : Writes [.regs, .hbm] Reg.throttle u v) :
      let t := v.copyMap.event Reg.LAST_EVENT 3
      t.image = u.image ∧ t.tick = u.tick ∧ t.hbm = { s.hbm with inService := s.wantedMap, cond := [] } ∧
      t.bit Reg.LAST_EVENT 3 = true ∧ Writes ([.image, .tick, .hbm] ++ Part.signalled)
        ([Reg.LAST_EVENT, Reg.MEM_EVENT] ++ Reg.throttle) s t := by
    obtain ⟨hmap, hcopy⟩ := v.copyMap_parts
    have hevent := v.copyMap.event_writes Reg.LAST_EVENT 3
    have hvsbk : v.sbk = u.sbk := hv.evolves.keep .sbk (by decide)
    have hwant : v.wantedMap = s.wantedMap := State.wantedMap_congr (hvsbk.trans hsbk) (by rw [hcond, hhbm])
      (by rw [hcond, hhbm])
    have hdone : Writes (.hbm :: Part.signalled) (Reg.LAST_EVENT :: Reg.MEM_EVENT :: Reg.throttle) u
        (v.copyMap.event Reg.LAST_EVENT 3) := ((hv.widen (hl := by simp_all)).step hcopy).step hevent
    have hend : (v.copyMap.event Reg.LAST_EVENT 3).hbm = v.copyMap.hbm := hevent.evolves.keep .hbm (by decide)
    refine ⟨hdone.evolves.keep .image (by decide), hdone.evolves.keep .tick (by decide), ?_,
      State.bit_event _ _ _ (hcopy.wf (hv.wf h)) (by decide), hlaw.widen.step hdone (hl := fun _ h => h)⟩
    rw [hend, hmap, hwant, hcond, hhbm]
  exact key _ hcond hshares

/-! ## The recheck -/

theorem exec_imageRecheckDone {s : State} {f : ImageFile} {st : ImgState} (hst : s.image.rechecking = some st)
    (hfile : s.image.file = some f) : exec .imageRecheckDone s = .next (if s.regionDigest f = f.digest then
      { s with image := { s.image with st := st, rechecking := none } } else (s.imageError 0x16 0).toEmpty) := by
  change execImageRecheckDone s = _
  rw [execImageRecheckDone, hst, hfile]

/-- R52: an image whose digest has changed is discarded. -/
theorem State.recheck_discards {s : State} (h : storeWf 0 s.regs = true) : let t := (s.imageError 0x16 0).toEmpty
    t.image.st = .empty ∧ t.image.file = none ∧ t.fld Reg.LAST_STATE 15 8 = 0x16 ∧ t.upd = s.upd ∧ t.mem = s.mem := by
  have herror := s.imageError_writes 0x16 0
  have hempty := (s.imageError 0x16 0).toEmpty_parts.2
  have hall := (herror.evolves.widen (Q := [.regs, .out, .heldOut, .image, .adm, .hbm, .pyu, .host]) rfl).step
    hempty.evolves rfl
  exact ⟨State.toEmpty_image _, State.toEmpty_file _, (hempty.fld (by decide) 15 8).trans (State.fld_imageError h 0x16 0).1,
    hall.keep .upd (by decide), hall.keep .mem (by decide)⟩

/-- Settles O13: the commands that end an image, its retirement, and its recheck. -/
theorem imagesEnd : Obligations.ImagesEnd := by
  refine ⟨fun s hinv hhost => ⟨fun hload => ?_, fun hload hverify hbusy => ?_, fun hload hverify hidle => ?_,
      fun hload => ⟨_, exec_abort hhost, State.abort_ends hinv.2 hload⟩, fun hload hverify => ?_⟩,
    fun s hinv => ⟨fun hchanged hidle hst => ?_, fun f st hst hfile => ⟨fun heq => ?_, fun hne => ?_⟩⟩⟩
  · exact ⟨_, (exec_unload hhost).trans (by rw [State.unload_of_loading hload]), State.cmdIgnored_shows hinv.2⟩
  · exact ⟨_, (exec_unload hhost).trans (by rw [State.unload_of_loaded hload hverify, if_pos hbusy]),
      (State.fld_imageError hinv.2 0x10 0).1, (s.imageError_writes 0x10 0).touches⟩
  · exact ⟨_, (exec_unload hhost).trans (by rw [State.unload_of_loaded hload hverify, if_neg (by simp [hidle])]),
      State.unloaded hidle⟩
  · exact ⟨_, (exec_abort hhost).trans (by rw [State.abort_of_loaded hload hverify]), State.cmdIgnored_shows hinv.2⟩
  · obtain ⟨image, tick, hhbm, hevent, hwrites⟩ := State.retired_leaves (s := s) (u := { s with
        image := { s.image with st := .retired, mapChanged := false }
        tick := { s.tick with ticking := false, inMaint := false, stopped := true } }) hinv.2 rfl rfl
      (((s.evolves_image { s.image with st := .retired, mapChanged := false }).widen rfl).step
        (State.evolves_tick _ { s.tick with ticking := false, inMaint := false, stopped := true }) rfl).writes
    exact ⟨_, exec_imageRetire hchanged hidle hst, image, by rw [tick], by rw [tick], hhbm, hevent,
      hwrites.evolves.keep .mem (by decide), hwrites.evolves.keep, hwrites.regs⟩
  · exact (exec_imageRecheckDone hst hfile).trans (by rw [if_pos heq])
  · exact ⟨_, (exec_imageRecheckDone hst hfile).trans (by rw [if_neg hne]), State.recheck_discards hinv.2⟩

end Sys2Proof.Machine

/-! Ticks: the reports of a module (R61, R62, R71), and what a tick opens with (R57, R58, R60, R71). -/

namespace Sys2Proof.Machine

set_option Elab.async false

/-- Operations that leave memory and its buffers alone change no byte read. -/
theorem Evolves.sameBytes {P : List Part} {s t : State} (h : Evolves P s t) (hmem : .mem ∉ P := by decide)
    (hhbm : .hbm ∉ P := by decide) : s.sameBytes t := (h.memAgrees hmem hhbm).sameBytes

/-! ## The image's figures come from the image -/

theorem State.img_congr {s t : State} (h : t.image = s.image) : t.img = s.img := by
  unfold State.img
  rw [h]

theorem State.sections?_congr {s t : State} (h : t.image = s.image) : t.sections? = s.sections? :=
  congrArg (Option.map ImageFile.sections) (State.img_congr h)

theorem State.topo?_congr {s t : State} (h : t.image = s.image) : t.topo? = s.topo? :=
  congrArg (Option.map Sections.topo) (State.sections?_congr h)

theorem State.jobSize_congr {s t : State} (h : t.image = s.image) : t.jobSize = s.jobSize :=
  congrArg (fun f : Option ImageFile => (f.map fun g : ImageFile => g.header.jobSize).getD 0) (State.img_congr h)

/-! ## Reports -/

/-- The registers that a report may change. -/
abbrev Reg.report : List Nat := [Reg.PYU_BEACON_MAX, Reg.TICK_EVENT]

/-- The parts that a report may change. -/
abbrev Part.report : List Part := [.regs, .out, .heldOut, .tick, .pyu, .host, .bel]

theorem State.holdReport_writes (s : State) (b : Beacon) (delay : Nat) :
    Writes Part.report [Reg.PYU_BEACON_MAX] s (s.holdReport b delay) := by
  refine ⟨(s.holdReport_evolves b delay).widen rfl, ?_⟩
  unfold State.holdReport
  have hmax := (s.maxReg_writes Reg.PYU_BEACON_MAX (min delay (2 ^ 32 - 1))).widen (Q := Part.report)
    (M := [Reg.PYU_BEACON_MAX])
  have hdown := hmax.step (State.sendBeaconDown_evolves _ b ((s.topo?.map Topo.beaconChildren).getD [])).writes
  exact (hdown.step (State.evolves_tick _ _).writes).regs

theorem State.tryReport_writes (s : State) (delay : Nat) : Writes Part.report Reg.report s (s.tryReport delay) := by
  unfold State.tryReport
  split
  · split
    · exact Writes.refl s
    · have hsent := (s.evolves_tick { s.tick with sentUp := true }).writes.widen (Q := Part.report) (M := Reg.report)
      dsimp only
      split
      · exact hsent.step (State.sendBeaconUp_evolves _ _ _).writes
      · split
        · exact hsent.step (State.holdReport_writes _ _ _)
        · exact hsent.step (State.event_writes _ _ _)
  · exact Writes.refl s

theorem State.sendReport_writes (s : State) : Writes Part.report Reg.report s s.sendReport := by
  unfold State.sendReport
  split
  · exact Writes.refl s
  · exact ((s.evolves_tick _).writes.widen).step (State.tryReport_writes _ 0) (hl := fun _ h => h)

/-- A combined report is held beside what the tick's part holds. -/
theorem State.holdReport_tick (s : State) (b : Beacon) (delay : Nat) :
    (s.holdReport b delay).tick = { s.tick with held := some b } := by
  unfold State.holdReport
  have hmax := (s.maxReg_writes Reg.PYU_BEACON_MAX (min delay (2 ^ 32 - 1))).evolves
  have hdown := (s.maxReg Reg.PYU_BEACON_MAX (min delay (2 ^ 32 - 1))).sendBeaconDown_evolves b
    ((s.topo?.map Topo.beaconChildren).getD [])
  have htick : ((s.maxReg Reg.PYU_BEACON_MAX (min delay (2 ^ 32 - 1))).sendBeaconDown b
      ((s.topo?.map Topo.beaconChildren).getD [])).tick = s.tick :=
    (hdown.keep .tick (by decide)).trans (hmax.keep .tick (by decide))
  exact congrArg (fun x : TickSt => { x with held := some b }) htick

/-- Of the tick's part a report changes only what was sent and what is held. -/
theorem State.tryReport_tick (s : State) (delay : Nat) :
    ∃ sent held, (s.tryReport delay).tick = { s.tick with sentUp := sent, held := held } := by
  unfold State.tryReport
  split
  · split
    · exact ⟨s.tick.sentUp, s.tick.held, rfl⟩
    · dsimp only
      split
      · exact ⟨true, s.tick.held, (State.sendBeaconUp_evolves _ _ _).keep .tick (by decide)⟩
      · split
        · exact ⟨true, _, State.holdReport_tick _ _ _⟩
        · exact ⟨true, s.tick.held, (State.event_evolves _ _ _).keep .tick (by decide)⟩
  · exact ⟨s.tick.sentUp, s.tick.held, rfl⟩

/-- R61: a module that reports forms its own report. -/
theorem State.sendReport_of_none {s : State} (hstop : s.tick.stopped = false) (hown : s.tick.own = none) :
    s.sendReport = ({ s with tick := { s.tick with own := some s.ownBeacon } } : State).tryReport 0 := by
  rw [State.sendReport, if_neg (by simp [hstop, hown])]

/-- A module that has stopped its reports, or has formed one, sends none. -/
theorem State.sendReport_of_some {s : State} (h : s.tick.stopped = true ∨ s.tick.own.isSome = true) : s.sendReport = s := by
  rw [State.sendReport, if_pos (by simpa using h)]

/-- Of the tick's part `sendReport` changes only what was reported. -/
theorem State.sendReport_tick (s : State) :
    ∃ own sent held, s.sendReport.tick = { s.tick with own := own, sentUp := sent, held := held } := by
  by_cases h : s.tick.stopped = true ∨ s.tick.own.isSome = true
  · exact ⟨s.tick.own, s.tick.sentUp, s.tick.held, by rw [State.sendReport_of_some h]⟩
  · obtain ⟨hstop, hown⟩ := not_or.mp h
    rw [State.sendReport_of_none (by simpa using hstop) (by simpa using hown)]
    obtain ⟨sent, held, htick⟩ :=
      State.tryReport_tick ({ s with tick := { s.tick with own := some s.ownBeacon } } : State) 0
    exact ⟨_, sent, held, htick⟩

/-- R287: a module alone in its job holds its own report as the combination. -/
theorem State.tryReport_alone {s : State} {x : Topo} {own : Beacon} (htopo : s.topo? = some x)
    (hown : s.tick.own = some own) (hcovered : own.covered = 0) (hchildren : x.beaconChildren = [])
    (hparent : x.beaconParent = none) (hsize : s.jobSize = 1) (hsent : s.tick.sentUp = false) (delay : Nat) :
    (s.tryReport delay).tick = { s.tick with sentUp := true, held := some { own with down := true } } := by
  have hkids : s.kidsNow = [] := by
    rw [State.kidsNow, htopo]
    simp [hchildren]
  unfold State.tryReport
  rw [htopo, hown]
  dsimp only
  rw [if_neg (by simp [hsent, hkids, hchildren]), hparent, hkids]
  dsimp only [List.foldl_nil]
  have hall : own.covered + 1 = s.jobSize := by rw [hcovered, hsize]
  exact (congrArg State.tick (if_pos hall)).trans (State.holdReport_tick _ _ _)

/-! ## What a report says -/

theorem State.stitch?_congr {s t : State} (himage : t.image = s.image) (hnow : t.tick.now = s.tick.now)
    (hstep : t.tick.step = s.tick.step) : t.stitch? = s.stitch? := by
  unfold State.stitch? State.stitchIx State.stepLen
  rw [State.sections?_congr himage, State.img_congr himage, hnow, hstep]

theorem State.inCommit_congr {s t : State} (himage : t.image = s.image) (hnow : t.tick.now = s.tick.now)
    (hstep : t.tick.step = s.tick.step) : t.inCommit = s.inCommit := by
  unfold State.inCommit
  rw [State.stitch?_congr himage hnow hstep, hstep]

theorem State.lastOfSlot_congr {s t : State} (himage : t.image = s.image) (hnow : t.tick.now = s.tick.now) :
    t.lastOfSlot = s.lastOfSlot := by
  unfold State.lastOfSlot State.stepLen
  rw [State.img_congr himage, hnow]

theorem State.belowFloor_congr {s t : State} (himage : t.image = s.image) (hsbk : t.sbk = s.sbk) :
    t.belowFloor = s.belowFloor := by
  unfold State.belowFloor State.jobLive State.capFloor State.capSet State.seedStored State.wear
  rw [State.sections?_congr himage, himage, hsbk]

theorem State.localGate_congr {s t : State} (himage : t.image = s.image) (hsbk : t.sbk = s.sbk) (hstl : t.stl = s.stl)
    (hpwr : t.pwr = s.pwr) (hhbm : t.hbm = s.hbm) : t.localGate = s.localGate := by
  unfold State.localGate State.commit
  rw [State.belowFloor_congr himage hsbk, hstl, hpwr, hhbm]

/-- The report that a module forms rests on its tick, its image, and what the gate asks. -/
theorem State.ownBeacon_congr {s t : State} (himage : t.image = s.image) (hgate : t.localGate = s.localGate)
    (hnow : t.tick.now = s.tick.now) (hstep : t.tick.step = s.tick.step) (hlatched : t.tick.latched = s.tick.latched)
    (hreg : t.reg Reg.QNT_AFFECTED = s.reg Reg.QNT_AFFECTED) : t.ownBeacon = s.ownBeacon := by
  unfold State.ownBeacon
  rw [State.inCommit_congr himage hnow hstep, State.lastOfSlot_congr himage hnow, hgate, hnow, hstep, hlatched, hreg]

/-! ## Traces and counters of both dies -/

theorem State.belBoth_writes (s : State) (k n : Nat) : Writes [.bel] [] s (s.belBoth k n) := (s.belBoth_evolves k n).writes

theorem State.traceBoth_writes (s : State) (code payload : Nat) :
    Writes (.free :: .bel :: Part.signalled) Reg.trace s (s.traceBoth code payload) :=
  (s.trace_writes _ _ _ _).step (State.trace_writes _ _ _ _ _) rfl (fun _ h => h)

theorem State.regN_minReg {s : State} (h : storeWf 0 s.regs = true) (o v : Nat) :
    (s.minReg o v).regN o = min (s.regN o) v :=
  s.regN_setRegN o _ h (lt_of_le_of_lt (Nat.min_le_left _ _) (s.reg o).isLt)

end Sys2Proof.Machine

/-! A stitch that is done, that overruns, or that halts the job (R57, R61, R65; O14). -/

namespace Sys2Proof.Machine

set_option Elab.async false

/-! ## Done -/

/-- What a stitch that is done shows before its report. -/
def State.stitchShown (s : State) (cycle : Nat) : State :=
  let slack := s.tickLen - s.maintLen - cycle
  let s1 := (s.minReg Reg.TICK_SLACK_MIN slack).traceBoth 0x02 (s.stitchIx + 2 ^ 32 * slack)
  { s1 with tick := { s1.tick with done := true } }

theorem exec_stitchDone {s : State} (htick : s.tick.ticking = true) (hdone : s.tick.done = false) (cycle : Nat) :
    exec (.stitchDone cycle) s = .next (s.stitchShown cycle).sendReport := by
  change execStitchDone cycle s = _
  rw [execStitchDone, if_pos (by simp [htick, hdone])]
  rfl

theorem State.stitchShown_writes (s : State) (cycle : Nat) :
    Writes ([.free, .tick, .bel] ++ Part.signalled) (Reg.TICK_SLACK_MIN :: Reg.trace) s (s.stitchShown cycle) := by
  unfold State.stitchShown
  have hslack := (s.minReg_writes Reg.TICK_SLACK_MIN (s.tickLen - s.maintLen - cycle)).widen
    (Q := [.free, .tick, .bel] ++ Part.signalled) (M := Reg.TICK_SLACK_MIN :: Reg.trace)
  exact (hslack.step (State.traceBoth_writes _ _ _) rfl (fun _ h => List.mem_cons_of_mem _ h)).step
    (State.evolves_tick _ _).writes

/-- R57, R61: the slack counts if it is the lowest, and of the tick's part only DONE changes. -/
theorem State.stitchShown_shows {s : State} (h : storeWf 0 s.regs = true) (cycle : Nat) :
    (s.stitchShown cycle).regN Reg.TICK_SLACK_MIN =
        min (s.regN Reg.TICK_SLACK_MIN) (s.tickLen - s.maintLen - cycle) ∧
      (s.stitchShown cycle).tick = { s.tick with done := true } ∧ (s.stitchShown cycle).ownBeacon = s.ownBeacon := by
  have hlaw := s.stitchShown_writes cycle
  have htick : (s.stitchShown cycle).tick = { s.tick with done := true } := by
    unfold State.stitchShown
    have hmin := (s.minReg_writes Reg.TICK_SLACK_MIN (s.tickLen - s.maintLen - cycle)).evolves
    have hshown : ((s.minReg Reg.TICK_SLACK_MIN (s.tickLen - s.maintLen - cycle)).traceBoth 0x02
        (s.stitchIx + 2 ^ 32 * (s.tickLen - s.maintLen - cycle))).tick = s.tick :=
      ((State.traceBoth_evolves _ _ _).keep .tick (by decide)).trans (hmin.keep .tick (by decide))
    exact congrArg (fun x : TickSt => { x with done := true }) hshown
  have himage : (s.stitchShown cycle).image = s.image := hlaw.evolves.keep .image (by decide)
  have hgate := State.localGate_congr himage (hlaw.evolves.keep .sbk (by decide)) (hlaw.evolves.keep .stl (by decide))
    (hlaw.evolves.keep .pwr (by decide)) (hlaw.evolves.keep .hbm (by decide))
  refine ⟨?_, htick, State.ownBeacon_congr himage hgate (by rw [htick]) (by rw [htick]) (by rw [htick])
    (hlaw.reg (by decide))⟩
  have hmin := State.regN_minReg h Reg.TICK_SLACK_MIN (s.tickLen - s.maintLen - cycle)
  exact ((State.traceBoth_writes _ _ _).regN (by decide)).trans hmin

/-- R61, R62: the report that follows a stitch that is done. -/
theorem State.reportDone {s u : State} (htick : u.tick = { s.tick with done := true }) (hown : u.ownBeacon = s.ownBeacon)
    (himage : u.image = s.image) :
    let t := u.sendReport
    t.tick.done = true ∧ (s.tick.stopped = false → s.tick.own = none → t.tick.own = some s.ownBeacon) ∧
      ((s.tick.stopped = true ∨ s.tick.own.isSome = true) → t.tick.own = s.tick.own ∧ t.tick.held = s.tick.held) ∧
      (∀ x, s.topo? = some x → x.beaconChildren = [] → x.beaconParent = none → s.jobSize = 1 → s.tick.stopped = false →
        s.tick.own = none → s.tick.sentUp = false → t.tick.held = some { s.ownBeacon with down := true }) ∧
      t.tick.now = s.tick.now ∧ t.tick.step = s.tick.step ∧ t.tick.ticking = s.tick.ticking := by
  have hof (hstop : s.tick.stopped = false) (hnone : s.tick.own = none) :
      u.sendReport = ({ u with tick := { u.tick with own := some s.ownBeacon } } : State).tryReport 0 := by
    rw [← hown]
    exact State.sendReport_of_none (by rw [htick]; exact hstop) (by rw [htick]; exact hnone)
  obtain ⟨own, sent, held, hreport⟩ := u.sendReport_tick
  rw [htick] at hreport
  refine ⟨by rw [hreport], fun hstop hnone => ?_, fun hsome => ?_, fun x htopo hchildren hparent hsize hstop hnone hsent => ?_,
    by rw [hreport], by rw [hreport], by rw [hreport]⟩
  · rw [hof hstop hnone]
    obtain ⟨sent', held', h⟩ := State.tryReport_tick ({ u with tick := { u.tick with own := some s.ownBeacon } } : State) 0
    rw [h]
  · rw [State.sendReport_of_some (by rw [htick]; exact hsome), htick]
    exact ⟨rfl, rfl⟩
  · rw [hof hstop hnone]
    have halone := State.tryReport_alone (s := { u with tick := { u.tick with own := some s.ownBeacon } }) (x := x)
      (own := s.ownBeacon) ((State.topo?_congr himage).trans htopo) rfl rfl hchildren hparent
      ((State.jobSize_congr himage).trans hsize) ((by rw [htick] : u.tick.sentUp = s.tick.sentUp).trans hsent) 0
    rw [halone]

/-! ## Overrun -/

theorem stitchOverrun_shows {s : State} (h : storeWf 0 s.regs = true) (htick : s.tick.ticking = true)
    (hdone : s.tick.done = false) (hover : s.tick.overrun = false) (past : Nat) :
    ∃ t, exec (.stitchOverrun past) s = .next t ∧
       t.tick = { s.tick with overrun := true, maintDue := s.tick.maintDue + 1 } ∧ t.bit Reg.TICK_EVENT 1 = true ∧
       t.reg Reg.TICK_SLACK_MIN = 0 ∧ s.hlt.grows t.hlt ∧ s.keeps t ([.tick, .hlt] ++ Part.signalled) ∧ s.sameBytes t := by
  have hexec : exec (.stitchOverrun past) s = .next
      (let s1 := ((s.event Reg.TICK_EVENT 1).ledgerEvent 0x0E 1 s.stitchIx 0
        (leBytes 8 s.tick.now ++ leBytes 8 past)).minReg Reg.TICK_SLACK_MIN 0
      { s1 with tick := { s1.tick with overrun := true, maintDue := s1.tick.maintDue + 1 } }) := by
    change execStitchOverrun past s = _
    rw [execStitchOverrun, if_pos (by simp [htick, hdone, hover])]
  refine ⟨_, hexec, ?_⟩
  have hevent := s.event_writes Reg.TICK_EVENT 1
  have hbit := s.bit_event Reg.TICK_EVENT 1 h (by decide)
  have hwf := hevent.wf h
  have hledger := (s.event Reg.TICK_EVENT 1).ledgerEvent_writes 0x0E 1 s.stitchIx 0 (leBytes 8 s.tick.now ++ leBytes 8 past)
  generalize (s.event Reg.TICK_EVENT 1).ledgerEvent 0x0E 1 s.stitchIx 0 (leBytes 8 s.tick.now ++ leBytes 8 past) = u at *
  have hslack := u.minReg_writes Reg.TICK_SLACK_MIN 0
  have hzero : (u.minReg Reg.TICK_SLACK_MIN 0).reg Reg.TICK_SLACK_MIN = 0 := by
    refine (u.reg_setReg _ _ (hledger.wf hwf)).trans ?_
    rw [Nat.min_zero]
    rfl
  have hmin := ((hevent.widen (Q := .hlt :: Part.signalled)
    (M := Reg.TICK_EVENT :: Reg.TICK_SLACK_MIN :: Reg.ledger)).step hledger).step hslack
  have hshown : (u.minReg Reg.TICK_SLACK_MIN 0).tick = s.tick := hmin.evolves.keep .tick (by decide)
  have hlaw := (hmin.evolves.widen (Q := [.tick, .hlt] ++ Part.signalled) rfl).step
    (State.evolves_tick (u.minReg Reg.TICK_SLACK_MIN 0) { (u.minReg Reg.TICK_SLACK_MIN 0).tick with
      overrun := true, maintDue := (u.minReg Reg.TICK_SLACK_MIN 0).tick.maintDue + 1 }) rfl
  refine ⟨congrArg (fun x : TickSt => { x with overrun := true, maintDue := x.maintDue + 1 }) hshown, ?_, hzero, hlaw.ledger,
    hlaw.keep, hlaw.sameBytes⟩
  exact (hslack.bit (by decide) 1).trans ((hledger.bit (by decide) 1).trans hbit)

/-! ## The job halts -/

theorem State.complete_adm (s : State) (c : Completion) :
    (s.complete c).adm = { s.adm with unread := s.adm.unread ++ [c] } := by
  unfold State.complete
  have hafter (u : State) (payload : Nat) :
      ((if (u.traceBoth 0x05 payload).queueOn then (u.traceBoth 0x05 payload).cqWrite c else u.traceBoth 0x05 payload).event
        Reg.ADM_EVENT 1).adm = u.adm := by
    have htrace : (u.traceBoth 0x05 payload).adm = u.adm := (u.traceBoth_evolves _ _).keep .adm (by decide)
    have hring : (if (u.traceBoth 0x05 payload).queueOn then (u.traceBoth 0x05 payload).cqWrite c
        else u.traceBoth 0x05 payload).adm = (u.traceBoth 0x05 payload).adm := by
      split
      · exact (State.cqWrite_evolves _ _).keep .adm (by decide)
      · rfl
    exact ((State.event_evolves _ _ _).keep .adm (by decide)).trans (hring.trans htrace)
  exact hafter _ _

theorem State.deadline_congr {s t : State} (himage : t.image = s.image) (k : Nat) : t.deadline k = s.deadline k := by
  unfold State.deadline State.stepLen
  rw [State.img_congr himage]

theorem State.haltStatus_congr {s t : State} (hstep : t.tick = s.tick) (k : Nat) : t.haltStatus k = s.haltStatus k := by
  unfold State.haltStatus
  rw [hstep]

/-- The record of a ticket that completes as the module halts (R65, R74). -/
def State.haltRecord (s : State) (e : Nat × Ticket) : Completion :=
  ⟨e.2.tag, e.2.stepId, s.deadline e.1, (s.haltStatus e.1).1, (s.haltStatus e.1).2⟩

theorem State.haltRecord_congr {s t : State} (himage : t.image = s.image) (htick : t.tick = s.tick) :
    t.haltRecord = s.haltRecord := by
  funext e
  rw [State.haltRecord, State.haltRecord, State.deadline_congr himage, State.haltStatus_congr htick]

/-- R65: tickets complete in order, each with its own record. -/
theorem State.completeAll_adm (l : List (Nat × Ticket)) (s : State) :
    (s.completeAll l).adm = { s.adm with unread := s.adm.unread ++ l.map s.haltRecord } := by
  induction l generalizing s with
  | nil =>
    rw [List.map_nil, List.append_nil]
    rfl
  | cons e rest ih =>
    obtain ⟨k, t⟩ := e
    unfold State.completeAll
    dsimp only
    have hchain : Evolves [.regs, .mem, .free, .out, .heldOut, .hbm, .host, .bel] s
        (if (s.haltStatus k).1 = .clean then s.chainBack s.chainTable s.stl.commit.bound else s) := by
      split
      · exact (State.chainBack_evolves _ _ _).widen rfl
      · exact Evolves.refl s
    generalize (if (s.haltStatus k).1 = .clean then s.chainBack s.chainTable s.stl.commit.bound else s) = u at *
    have hdeadline : s.deadline k = u.deadline k := (State.deadline_congr (hchain.keep .image (by decide)) k).symm
    have hall := (hchain.widen (Q := [.regs, .mem, .free, .out, .heldOut, .hbm, .adm, .host, .bel]) rfl).step
      (u.complete_evolves ⟨t.tag, t.stepId, s.deadline k, (s.haltStatus k).1, (s.haltStatus k).2⟩) rfl
    have hadm : u.adm = s.adm := hchain.keep .adm (by decide)
    rw [ih, State.haltRecord_congr (hall.keep .image (by decide)) (hall.keep .tick (by decide)), State.complete_adm, hadm]
    simp [State.haltRecord]

/-- What a halt leaves once the tickets are complete. -/
def State.haltLeft (s : State) : State :=
  let s2 : State := { s with
    adm := { s.adm with accepted := [], slots := [] }
    image := { s.image with st := if s.image.st = .running then .loaded else s.image.st }
    tick := { s.tick with ticking := false, halted := true, inMaint := false, own := none, kids := [], sentUp := false,
                          held := none, latched := none, raised := 0, clean := [], maintDue := 0 } }
  let s3 := s2.setCommit { s2.commit with bound := [] }
  s3.endStep.fillCredits.clearEngines.clearStreams

/-- The tickets of a job that halts complete. -/
def State.haltDone (s : State) : State :=
  ((s.completeAll (bySlot s.adm.accepted)).returnPlots (s.adm.accepted.map fun e => e.2.plots).sum).endRun

theorem State.halt_eq (s : State) : s.halt = (s.haltDone.haltLeft.unthrottle).event Reg.TICK_EVENT 2 := rfl

theorem State.haltLeft_parts (s : State) :
    s.haltLeft.image = { s.image with st := if s.image.st = .running then .loaded else s.image.st } ∧
      s.haltLeft.adm = { s.adm with accepted := [], slots := [] } ∧
      s.haltLeft.tick = { s.tick with
        ticking := false, halted := true, inMaint := false, own := none, kids := [], sentUp := false, held := none,
        latched := none, step := none, raised := 0, clean := [], maintDue := 0 } ∧
      s.haltLeft.me.acc = [] ∧ s.haltLeft.ve.regs = [] ∧ s.haltLeft.ve.masks = [] ∧ s.haltLeft.ve.bufs = [] ∧
      s.haltLeft.seg.gens = s.seg.gens := ⟨rfl, rfl, rfl, rfl, rfl, rfl, rfl, rfl⟩

theorem State.haltDone_evolves (s : State) :
    Evolves [.regs, .mem, .free, .out, .heldOut, .adm, .hbm, .pwr, .host, .hlt, .bel] s s.haltDone :=
  (((s.completeAll_evolves _).widen rfl).step (State.returnPlots_evolves _ _) rfl).step (State.endRun_evolves _) rfl

theorem State.haltDone_adm (s : State) : s.haltDone.adm = { s.adm with
    unread := s.adm.unread ++ (bySlot s.adm.accepted).map s.haltRecord
    freePlots := s.adm.freePlots + (s.adm.accepted.map fun e => e.2.plots).sum } := by
  have hrun (u : State) (n : Nat) : (u.returnPlots n).endRun.adm = { u.adm with freePlots := u.adm.freePlots + n } :=
    (State.endRun_evolves _).keep .adm (by decide)
  rw [State.haltDone, hrun, State.completeAll_adm]

/-- R65: the job halts. -/
theorem State.halt_ends {s : State} (h : storeWf 0 s.regs = true) :
    s.halt.tick.ticking = false ∧ s.halt.tick.halted = true ∧ s.halt.tick.step = none ∧ s.halt.tick.raised = 0 ∧
      s.halt.bit Reg.TICK_EVENT 2 = true ∧ (s.image.st = .running → s.halt.image = { s.image with st := .loaded }) ∧
      s.halt.adm.accepted = [] ∧ s.halt.adm.unread = s.adm.unread ++ (bySlot s.adm.accepted).map s.haltRecord ∧
      s.halt.adm.freePlots = s.adm.freePlots + (s.adm.accepted.map fun e => e.2.plots).sum ∧
      s.halt.me.acc = [] ∧ s.halt.ve.regs = [] ∧ s.halt.ve.masks = [] ∧ s.halt.ve.bufs = [] ∧
      s.halt.seg.gens = s.seg.gens := by
  have hadm := s.haltDone_adm
  have hdone := s.haltDone_evolves
  rw [State.halt_eq]
  generalize s.haltDone = u at *
  obtain ⟨himage, hleft, htick, hacc, hregs, hmasks, hbufs, hgens⟩ := u.haltLeft_parts
  have hwf : storeWf 0 u.haltLeft.regs = true := (State.endStep_evolves _).regs (hdone.regs h)
  generalize u.haltLeft = v at *
  have htail := ((v.unthrottle_evolves).widen (Q := .hbm :: Part.signalled) rfl).step
    (State.event_evolves v.unthrottle Reg.TICK_EVENT 2) rfl
  have hu : u.image = s.image := hdone.keep .image (by decide)
  have hseg : u.seg = s.seg := hdone.keep .seg (by decide)
  have himage' : (v.unthrottle.event Reg.TICK_EVENT 2).image = v.image := htail.keep .image (by decide)
  have hadm' : (v.unthrottle.event Reg.TICK_EVENT 2).adm = v.adm := htail.keep .adm (by decide)
  have htick' : (v.unthrottle.event Reg.TICK_EVENT 2).tick = v.tick := htail.keep .tick (by decide)
  have hme' : (v.unthrottle.event Reg.TICK_EVENT 2).me = v.me := htail.keep .me (by decide)
  have hve' : (v.unthrottle.event Reg.TICK_EVENT 2).ve = v.ve := htail.keep .ve (by decide)
  have hseg' : (v.unthrottle.event Reg.TICK_EVENT 2).seg = v.seg := htail.keep .seg (by decide)
  have hbit := v.unthrottle.bit_event Reg.TICK_EVENT 2 (v.unthrottle_evolves.regs hwf) (by decide)
  rw [htick', himage', hadm', hme', hve', hseg', htick, himage, hleft, hadm, hu, hacc, hregs, hmasks, hbufs, hgens, hseg]
  exact ⟨rfl, rfl, rfl, rfl, hbit, fun hrun => by rw [if_pos hrun], rfl, rfl, rfl, rfl, rfl, rfl, rfl, rfl⟩

theorem exec_edgeTimeoutHalt {s : State} (htick : s.tick.ticking = true) (hheld : s.tick.held = none) :
    exec .edgeTimeoutHalt s = .next s.halt := by
  change execEdgeTimeoutHalt s = _
  rw [execEdgeTimeoutHalt, if_pos (by simp [htick, hheld])]

/-- Settles O14: a stitch reports as it ends; one that overruns leaves its maintenance work; and a halt completes every
ticket in order of slot. -/
theorem stitchesReportOrHalt : Obligations.StitchesReportOrHalt := by
  unfold Obligations.StitchesReportOrHalt
  refine ⟨fun s cycle hinv htick hdone => ⟨_, exec_stitchDone htick hdone cycle, ?_⟩, fun s hinv htick => ⟨fun past hdone hover =>
    stitchOverrun_shows hinv.2 htick hdone hover past, fun hheld => ⟨_, exec_edgeTimeoutHalt htick hheld, ?_⟩⟩⟩
  · obtain ⟨hslack, hshown, hown⟩ := State.stitchShown_shows hinv.2 cycle
    have hlaw := s.stitchShown_writes cycle
    have hreport := (s.stitchShown cycle).sendReport_writes
    have hall := (hlaw.widen (Q := [.free, .tick, .pyu, .bel] ++ Part.signalled)
      (M := Reg.TICK_SLACK_MIN :: Reg.trace ++ Reg.report)).step hreport
    obtain ⟨hdone', hformed, hsame, halone, hnow, hstep, hticking⟩ :=
      State.reportDone hshown hown (hlaw.evolves.keep .image (by decide))
    exact ⟨hdone', (hreport.regN (by decide)).trans hslack, hformed, hsame, halone, hnow, hstep, hticking.trans htick,
      hall.evolves.keep, hall.evolves.sameBytes⟩
  · obtain ⟨hticking, hhalted, hstep, hraised, hbit, himage, haccepted, hunread, hplots, hengines⟩ := State.halt_ends hinv.2
    obtain ⟨hacc, hregs, hmasks, hbufs, hgens⟩ := hengines
    exact ⟨hticking, hhalted, hstep, hraised, hbit, himage, haccepted, hunread, hplots, hacc, hregs, hmasks, hbufs,
      s.sameSlabs_halt, hgens⟩

end Sys2Proof.Machine

/-! What an edge closes and what a tick opens with (R57, R58, R63, R71 to R74). -/

namespace Sys2Proof.Machine

set_option Elab.async false

/-! ## A ticket completes -/

/-- The registers that a completion may change. -/
abbrev Reg.complete : List Nat := Reg.PCI_CQ_TAIL :: Reg.ADM_EVENT :: Reg.trace ++ Reg.devWrite

theorem State.chainBack_writes (l : List (Nat × Nat)) (s : State) (table : Nat) :
    Writes Part.devWrite Reg.devWrite s (s.chainBack table l) := by
  induction l generalizing s with
  | nil => exact Writes.refl s
  | cons e rest ih =>
    obtain ⟨i, p⟩ := e
    exact (s.devWrite_writes _ _ _).step (ih _) rfl (fun _ h => h)

theorem State.cqWrite_writes (s : State) (c : Completion) : Writes Part.signalled [Reg.PCI_CQ_TAIL] s (s.cqWrite c) := by
  unfold State.cqWrite
  exact (((State.toHost_writes s _).widen).step (State.setRegN_writes _ _ _)).step (State.signal_writes _ _)

theorem State.complete_writes (s : State) (c : Completion) :
    Writes ([.free, .adm, .bel] ++ Part.signalled) Reg.complete s (s.complete c) := by
  unfold State.complete
  have htrace := ((State.evolves_adm s { s.adm with unread := s.adm.unread ++ [c] }).writes.widen
    (Q := [.free, .adm, .bel] ++ Part.signalled) (M := Reg.complete)).step
    (State.traceBoth_writes _ 0x05 (c.tag + 2 ^ 64 * (16 * statusCode c.status + 256 * c.cause)))
  exact (htrace.step (Writes.ite _ (State.cqWrite_writes _ c) (Writes.refl _))).step (State.event_writes _ _ _)

/-- The parts that the end of a slot may change. -/
abbrev Part.complete : List Part := [.free, .adm] ++ Part.devWrite

theorem State.completeSlot_writes (s : State) (k : Nat) : Writes Part.complete Reg.complete s (s.completeSlot k) := by
  unfold State.completeSlot
  split
  · exact Writes.refl s
  · dsimp only
    have hchain (st : StepStatus) : Writes Part.complete Reg.complete s
        (if st = .clean then s.chainBack s.chainTable s.commit.bound else s) :=
      Writes.ite _ ((State.chainBack_writes _ _ _).widen) (Writes.refl s)
    exact (((hchain _).step (State.complete_writes _ _) (hl := fun _ h => h)).step (State.returnPlots_evolves _ _).writes).step
      (State.evolves_adm _ _).writes

/-- R73, R74: the record of the ticket that the edge completes. -/
def State.slotRecord (s : State) (k : Nat) (t : Ticket) : Completion :=
  ⟨t.tag, t.stepId, s.deadline k, (s.slotStatus k).1, (s.slotStatus k).2⟩

theorem State.completeSlot_of_none {s : State} {k : Nat} (h : (s.adm.accepted.find? fun e => e.1 = k) = none) :
    s.completeSlot k = s := by
  unfold State.completeSlot
  split
  · rfl
  · next h' => exact absurd (h.symm.trans h') (by simp)

theorem State.completeSlot_adm {s : State} {k j : Nat} {t : Ticket}
    (h : (s.adm.accepted.find? fun e => e.1 = k) = some (j, t)) : (s.completeSlot k).adm = { s.adm with
      unread := s.adm.unread ++ [s.slotRecord k t], freePlots := s.adm.freePlots + t.plots
      accepted := s.adm.accepted.filter fun e => e.1 ≠ k } := by
  have hchain : (if (s.slotStatus k).1 = .clean then s.chainBack s.chainTable s.commit.bound else s).adm = s.adm := by
    split
    · exact (State.chainBack_evolves _ _ _).keep .adm (by decide)
    · rfl
  have hdone (u : State) (c : Completion) (hu : u.adm = s.adm) : ({ ((u.complete c).returnPlots t.plots) with
      adm := { ((u.complete c).returnPlots t.plots).adm with
        accepted := ((u.complete c).returnPlots t.plots).adm.accepted.filter fun e => e.1 ≠ k } } : State).adm =
      { s.adm with unread := s.adm.unread ++ [c], freePlots := s.adm.freePlots + t.plots
                   accepted := s.adm.accepted.filter fun e => e.1 ≠ k } := by
    rw [← hu]
    exact congrArg (fun a : AdmSt => { a with
      freePlots := a.freePlots + t.plots, accepted := a.accepted.filter fun e => e.1 ≠ k }) (u.complete_adm c)
  unfold State.completeSlot
  split
  · next h' => exact absurd (h.symm.trans h') (by simp)
  · next j' t' h' =>
    obtain ⟨-, rfl⟩ := Prod.mk.inj (Option.some.inj (h.symm.trans h'))
    exact hdone _ (s.slotRecord k t) hchain

/-- Without its ticket a slot leaves the gate alone; the tickets of other slots stay in any case. -/
theorem State.completeSlot_accepted (s : State) (k : Nat) :
    (s.completeSlot k).adm.accepted = s.adm.accepted.filter fun e => e.1 ≠ k := by
  cases h : s.adm.accepted.find? fun e => e.1 = k with
  | none =>
    rw [State.completeSlot_of_none h]
    refine (List.filter_eq_self.mpr fun e he => ?_).symm
    simpa using List.find?_eq_none.mp h e he
  | some e => rw [State.completeSlot_adm h]

/-! ## What an edge closes -/

theorem State.raiseGroup_tick (s : State) (b : Beacon) (g : Nat) : ∃ raised clean raises,
    (s.raiseGroup b g).tick = { s.tick with raised := raised, clean := clean, raises := raises } := by
  unfold State.raiseGroup
  dsimp only
  split
  · exact ⟨_, _, _, rfl⟩
  · split
    · split <;> exact ⟨_, _, s.tick.raises, rfl⟩
    · exact ⟨_, _, _, rfl⟩

theorem State.raiseGroups_tick (s : State) (b : Beacon) : ∃ raised clean raises,
    (s.raiseGroups b).tick = { s.tick with raised := raised, clean := clean, raises := raises } := by
  unfold State.raiseGroups
  induction List.range 64 generalizing s with
  | nil => exact ⟨_, _, _, rfl⟩
  | cons g l ih =>
    obtain ⟨r, c, q, h⟩ := s.raiseGroup_tick b g
    obtain ⟨r', c', q', h'⟩ := ih (s.raiseGroup b g)
    refine ⟨r', c', q', ?_⟩
    rw [List.foldl_cons, h', h]

theorem State.slip_writes (s : State) (late : Nat) : Writes [.regs, .free] [Reg.TICK_SLIP] s (s.slip late) := by
  unfold State.slip
  dsimp only
  split
  · exact (s.setRegN_writes _ _).widen
  · exact ((s.setReg_writes Reg.TICK_SLIP s.fresh).widen (Q := [.regs, .free]) (M := [Reg.TICK_SLIP])).step
      (State.evolves_free _ _).writes

/-- The registers that a late edge may change. -/
abbrev Reg.late : List Nat := [Reg.TICK_SLIP, Reg.TICK_LATE_MAX, Reg.TICK_LATE_COUNT, Reg.TICK_EVENT] ++ Reg.trace

theorem State.lateEdge_writes (s : State) (late : Nat) :
    Writes ([.free, .bel] ++ Part.signalled) Reg.late s (s.lateEdge late) := by
  unfold State.lateEdge
  split
  · exact Writes.refl s
  · have hslip := (s.slip_writes late).widen (Q := [.free, .bel] ++ Part.signalled) (M := Reg.late)
    exact (((((hslip.step (State.maxReg_writes _ _ _)).step (State.count_writes _ _ _ _)).step (State.event_writes _ _ _)).step
      (State.belBoth_writes _ _ _)).step (State.belBoth_writes _ _ _)).step (State.traceBoth_writes _ _ _)

/-- R63: what a late edge counts. -/
theorem State.lateEdge_counts {s : State} (h : storeWf 0 s.regs = true) {late : Nat} (hlate : late ≠ 0) :
    (s.lateEdge late).regN Reg.TICK_LATE_COUNT = min (s.regN Reg.TICK_LATE_COUNT + 1) (2 ^ 32 - 1) ∧
      (s.lateEdge late).regN Reg.TICK_LATE_MAX = max (s.regN Reg.TICK_LATE_MAX) (min late (2 ^ 32 - 1)) ∧
      (s.lateEdge late).bit Reg.TICK_EVENT 0 = true ∧
      (s.regN Reg.TICK_SLIP + late < 2 ^ 64 → (s.lateEdge late).regN Reg.TICK_SLIP = s.regN Reg.TICK_SLIP + late) := by
  have hslip := s.slip_writes late
  have hgrown (hfit : s.regN Reg.TICK_SLIP + late < 2 ^ 64) :
      (s.slip late).regN Reg.TICK_SLIP = s.regN Reg.TICK_SLIP + late := by
    rw [State.slip, if_pos hfit]
    exact s.regN_setRegN _ _ h hfit
  rw [State.lateEdge, if_neg hlate]
  dsimp only
  generalize s.slip late = u at *
  have hmaxw := u.maxReg_writes Reg.TICK_LATE_MAX (min late (2 ^ 32 - 1))
  have hmax := u.regN_setRegN Reg.TICK_LATE_MAX (max (u.regN Reg.TICK_LATE_MAX) (min late (2 ^ 32 - 1))) (hslip.wf h)
    (Nat.max_lt.mpr ⟨(u.reg _).isLt, by omega⟩)
  have hwf := hmaxw.wf (hslip.wf h)
  generalize hv : u.maxReg Reg.TICK_LATE_MAX (min late (2 ^ 32 - 1)) = v at *
  have hcountw := v.count_writes Reg.TICK_LATE_COUNT 32 1
  have hcount := v.regN_count Reg.TICK_LATE_COUNT 32 1 hwf (by decide)
  have hwf' := hcountw.wf hwf
  generalize v.count Reg.TICK_LATE_COUNT 32 1 = w at *
  have hevent := w.event_writes Reg.TICK_EVENT 0
  have hbit := w.bit_event Reg.TICK_EVENT 0 hwf' (by decide)
  generalize w.event Reg.TICK_EVENT 0 = x at *
  have htail := (((x.belBoth_writes 1 1).widen (Q := [.free, .bel] ++ Part.signalled) (M := Reg.trace)).step
    (State.belBoth_writes _ 2 late)).step (State.traceBoth_writes _ 0x03 late)
  have hmax' : v.regN Reg.TICK_LATE_MAX = max (u.regN Reg.TICK_LATE_MAX) (min late (2 ^ 32 - 1)) := by
    rw [← hv]
    exact hmax
  refine ⟨?_, ?_, (htail.bit (by decide) 0).trans hbit, fun hfit => ?_⟩
  · rw [htail.regN (by decide), hevent.regN (by decide), hcount, hmaxw.regN (by decide), hslip.regN (by decide)]
  · rw [htail.regN (by decide), hevent.regN (by decide), hcountw.regN (by decide), hmax', hslip.regN (by decide)]
  · rw [htail.regN (by decide), hevent.regN (by decide), hcountw.regN (by decide), hmaxw.regN (by decide), hgrown hfit]

theorem State.endRun_writes (s : State) : Writes ([.pwr, .hlt] ++ Part.signalled) Reg.ledger s s.endRun := by
  unfold State.endRun
  split
  · exact Writes.refl s
  · exact ((((s.ledgerEvent_writes _ _ _ _ _).widen).step (State.live_writes _ _ _)).step (State.evolves_pwr _ _).writes)

theorem State.divergent_writes (s : State) (m p : Nat) : Writes [.pwr, .hlt] [] s (s.divergent m p) :=
  (s.divergent_evolves m p).writes

theorem State.powerEdge_writes (s : State) (m p : Nat) :
    Writes ([.pwr, .hlt] ++ Part.signalled) Reg.ledger s (s.powerEdge m p) := by
  unfold State.powerEdge
  split
  · exact (s.evolves_pwr _).writes.widen
  · exact (((s.evolves_pwr _).writes).widen).step (Writes.ite _ ((State.divergent_writes _ m p).widen) (State.endRun_writes _))
      (hl := fun _ h => h)

/-- The cap waits for the edge that opens the tick. -/
theorem State.endRun_cap (s : State) : s.endRun.pwr.cap = s.pwr.cap ∧ s.endRun.pwr.capNext = s.pwr.capNext := by
  unfold State.endRun
  split
  · exact ⟨rfl, rfl⟩
  · have hlaw : ((s.ledgerEvent 0x0D 1 0 0 (leBytes 8 s.pwr.runFirst ++ leBytes 8 s.pwr.runLen ++
        leBytes 4 (ratioF s.pwr.worst.1 s.pwr.worst.2).toNat)).live 0xBF8 1).pwr = s.pwr :=
      (State.ledgerEvent_evolves _ _ _ _ _ _).keep .pwr (by decide)
    dsimp only
    rw [hlaw]
    exact ⟨rfl, rfl⟩

theorem State.divergent_cap (s : State) (m p : Nat) :
    (s.divergent m p).pwr.cap = s.pwr.cap ∧ (s.divergent m p).pwr.capNext = s.pwr.capNext := by
  unfold State.divergent
  dsimp only
  split <;> exact ⟨rfl, rfl⟩

theorem State.powerEdge_cap (s : State) (m p : Nat) :
    (s.powerEdge m p).pwr.cap = s.pwr.cap ∧ (s.powerEdge m p).pwr.capNext = s.pwr.capNext := by
  unfold State.powerEdge
  split
  · exact ⟨rfl, rfl⟩
  · dsimp only
    split
    · exact State.divergent_cap _ _ _
    · exact State.endRun_cap _

theorem State.shadowEdge_writes (s : State) : Writes (.upd :: Part.signalled) [Reg.UPD_EVENT] s s.shadowEdge := by
  unfold State.shadowEdge
  exact Writes.ite _ (((s.evolves_upd _).writes.widen).step (State.event_writes _ _ _)) (Writes.refl s)

/-- What an edge closes before the slot: lateness, power, the raised set and the other slab. -/
def State.tickClosed (s : State) (late measured predicted : Nat) (b : Beacon) : State :=
  let s1 := (s.lateEdge late).powerEdge measured predicted
  (if s1.inCommit then s1.raiseGroups b else s1).shadowEdge

/-- The end of a slot. -/
def State.slotClosed (s : State) : State :=
  let s4 := (s.completeSlot s.slotNow).endStep
  s4.setCommit { s4.commit with bound := [] }

theorem State.closeTick_eq (s : State) (late measured predicted : Nat) (b : Beacon) :
    s.closeTick late measured predicted b =
      if (s.tickClosed late measured predicted b).lastOfSlot then (s.tickClosed late measured predicted b).slotClosed
      else s.tickClosed late measured predicted b := rfl

/-- The registers that the close of a tick may change after its lateness. -/
abbrev Reg.closed : List Nat := Reg.UPD_EVENT :: Reg.ledger

/-- The parts that the close of a tick may change, its slot apart. -/
abbrev Part.closed : List Part := [.free, .bel, .pwr, .hlt, .tick, .upd] ++ Part.signalled

theorem State.tickClosed_after (s : State) (late measured predicted : Nat) (b : Beacon) :
    Writes Part.closed Reg.closed (s.lateEdge late) (s.tickClosed late measured predicted b) := by
  unfold State.tickClosed
  have hpower := ((s.lateEdge late).powerEdge_writes measured predicted).widen (Q := Part.closed) (M := Reg.closed)
  exact (hpower.step (Writes.ite _ ((State.raiseGroups_evolves _ b).writes) (Writes.refl _))).step
    (State.shadowEdge_writes _)

theorem State.tickClosed_writes (s : State) (late measured predicted : Nat) (b : Beacon) :
    Writes Part.closed (Reg.late ++ Reg.closed) s (s.tickClosed late measured predicted b) :=
  ((s.lateEdge_writes late).widen).step (s.tickClosed_after late measured predicted b)

/-- Of the tick's part the close changes the raised set alone. -/
theorem State.tickClosed_tick (s : State) (late measured predicted : Nat) (b : Beacon) : ∃ raised clean raises,
    (s.tickClosed late measured predicted b).tick = { s.tick with raised := raised, clean := clean, raises := raises } := by
  unfold State.tickClosed
  dsimp only
  have hlate : (s.lateEdge late).tick = s.tick := (s.lateEdge_writes late).evolves.keep .tick (by decide)
  have hpower : ((s.lateEdge late).powerEdge measured predicted).tick = (s.lateEdge late).tick :=
    (State.powerEdge_evolves _ _ _).keep .tick (by decide)
  generalize (s.lateEdge late).powerEdge measured predicted = u at *
  have hshadow (v : State) : v.shadowEdge.tick = v.tick := v.shadowEdge_evolves.keep .tick (by decide)
  rw [hshadow, ← hlate, ← hpower]
  split
  · exact u.raiseGroups_tick b
  · exact ⟨u.tick.raised, u.tick.clean, u.tick.raises, rfl⟩

theorem State.tickClosed_cap (s : State) (late measured predicted : Nat) (b : Beacon) :
    (s.tickClosed late measured predicted b).pwr.cap = s.pwr.cap ∧
      (s.tickClosed late measured predicted b).pwr.capNext = s.pwr.capNext := by
  unfold State.tickClosed
  dsimp only
  have hlate : (s.lateEdge late).pwr = s.pwr := (s.lateEdge_writes late).evolves.keep .pwr (by decide)
  have hpower := (s.lateEdge late).powerEdge_cap measured predicted
  generalize (s.lateEdge late).powerEdge measured predicted = u at *
  have hraise : (if u.inCommit then u.raiseGroups b else u).pwr = u.pwr := by
    split
    · exact (u.raiseGroups_evolves b).keep .pwr (by decide)
    · rfl
  have hshadow (v : State) : v.shadowEdge.pwr = v.pwr := v.shadowEdge_evolves.keep .pwr (by decide)
  rw [hshadow, hraise, ← hlate]
  exact hpower

theorem State.slotStatus_congr {s t : State} (hstep : t.tick.step = s.tick.step) (k : Nat) :
    t.slotStatus k = s.slotStatus k := by
  unfold State.slotStatus
  rw [hstep]

theorem State.slotNow_congr {s t : State} (himage : t.image = s.image) (hnow : t.tick.now = s.tick.now) :
    t.slotNow = s.slotNow := by
  unfold State.slotNow State.stepLen
  rw [State.img_congr himage, hnow]

theorem State.endStep_writes (s : State) : Writes [.regs, .tick] [Reg.LAST_POSITION] s s.endStep :=
  ((s.evolves_tick _).writes.widen).step (State.setBit_writes _ _ _ _)

theorem State.slotClosed_writes (s : State) : Writes (.tick :: .stl :: Part.complete) (Reg.LAST_POSITION :: Reg.complete) s
    s.slotClosed :=
  (((s.completeSlot_writes _).widen (hl := fun _ h => List.mem_cons_of_mem _ h)).step (State.endStep_writes _)).step
    (State.setCommit_evolves _ _).writes

/-- Of the tick's part the end of a slot ends the step. -/
theorem State.slotClosed_tick (s : State) : s.slotClosed.tick = { s.tick with step := none } := by
  have hdone : (s.completeSlot s.slotNow).tick = s.tick := (s.completeSlot_writes _).evolves.keep .tick (by decide)
  exact congrArg (fun x : TickSt => { x with step := none }) hdone

theorem State.slotClosed_adm (s : State) : s.slotClosed.adm = (s.completeSlot s.slotNow).adm := rfl

/-- What the close of a tick leaves of the tick's part and of the cap. -/
theorem State.closeTick_shows (s : State) (late measured predicted : Nat) (b : Beacon) :
    let t := s.closeTick late measured predicted b
    t.tick.now = s.tick.now ∧ t.tick.ticking = s.tick.ticking ∧ t.tick.latched = s.tick.latched ∧
      t.tick.step = (if s.lastOfSlot then none else s.tick.step) ∧ t.pwr.cap = s.pwr.cap ∧ t.pwr.capNext = s.pwr.capNext ∧
      t.image = s.image ∧ t.sbk = s.sbk ∧ t.adm.epochPeer = s.adm.epochPeer := by
  have hlaw := s.closeTick_evolves late measured predicted b
  have himage : (s.closeTick late measured predicted b).image = s.image := hlaw.keep .image (by decide)
  have hsbk : (s.closeTick late measured predicted b).sbk = s.sbk := hlaw.keep .sbk (by decide)
  have hw := s.tickClosed_writes late measured predicted b
  obtain ⟨hcap, hnext⟩ := s.tickClosed_cap late measured predicted b
  obtain ⟨r, c, q, htick⟩ := s.tickClosed_tick late measured predicted b
  rw [State.closeTick_eq] at himage hsbk ⊢
  generalize s.tickClosed late measured predicted b = u at *
  have hu : u.image = s.image := hw.evolves.keep .image (by decide)
  have hadm : u.adm = s.adm := hw.evolves.keep .adm (by decide)
  have hlast := State.lastOfSlot_congr hu (by rw [htick] : u.tick.now = s.tick.now)
  rw [hlast] at himage hsbk ⊢
  clear hlast
  generalize s.lastOfSlot = last at *
  cases last with
  | false =>
    simp only [Bool.false_eq_true, if_false] at *
    exact ⟨by rw [htick], by rw [htick], by rw [htick], by rw [htick], hcap, hnext, himage, hsbk, by rw [hadm]⟩
  | true =>
    simp only [if_true] at *
    have hpwr : u.slotClosed.pwr = u.pwr := u.slotClosed_writes.evolves.keep .pwr (by decide)
    have hpeer : u.slotClosed.adm.epochPeer = u.adm.epochPeer := by
      rw [State.slotClosed_adm]
      cases h : u.adm.accepted.find? fun e => e.1 = u.slotNow with
      | none => rw [State.completeSlot_of_none h]
      | some e => rw [State.completeSlot_adm h]
    rw [u.slotClosed_tick, hpwr, htick, hpeer, hadm]
    exact ⟨rfl, rfl, rfl, rfl, hcap, hnext, himage, hsbk, rfl⟩

/-- What the close of a tick leaves of the tickets: its own completes at the end of its slot. -/
theorem State.closeTick_tickets (s : State) (late measured predicted : Nat) (b : Beacon) :
    let t := s.closeTick late measured predicted b
    (s.lastOfSlot = false → t.adm = s.adm) ∧
      (s.lastOfSlot = true → t.adm.accepted = s.adm.accepted.filter fun e => e.1 ≠ s.slotNow) ∧
      (∀ j k, s.lastOfSlot = true → s.adm.accepted.find? (fun e => e.1 = s.slotNow) = some (j, k) →
        t.adm.unread = s.adm.unread ++ [s.slotRecord s.slotNow k] ∧ t.adm.freePlots = s.adm.freePlots + k.plots) := by
  have hw := s.tickClosed_writes late measured predicted b
  obtain ⟨r, c, q, htick⟩ := s.tickClosed_tick late measured predicted b
  rw [State.closeTick_eq]
  generalize s.tickClosed late measured predicted b = u at *
  have hu : u.image = s.image := hw.evolves.keep .image (by decide)
  have hadm : u.adm = s.adm := hw.evolves.keep .adm (by decide)
  have hnow : u.tick.now = s.tick.now := by rw [htick]
  have hstep : u.tick.step = s.tick.step := by rw [htick]
  have hrecord (n : Nat) (k : Ticket) : u.slotRecord n k = s.slotRecord n k := by
    rw [State.slotRecord, State.slotRecord, State.deadline_congr hu, State.slotStatus_congr hstep]
  have hlast := State.lastOfSlot_congr hu hnow
  have hslot := State.slotNow_congr hu hnow
  rw [hlast]
  refine ⟨fun h => ?_, fun h => ?_, fun j k h hfind => ?_⟩
  · rw [h, if_neg (by decide)]
    exact hadm
  · rw [h, if_pos rfl, State.slotClosed_adm, State.completeSlot_accepted, hadm, hslot]
  · rw [← hslot, ← hadm] at hfind
    rw [h, if_pos rfl, State.slotClosed_adm, State.completeSlot_adm hfind, hadm, hslot, hrecord]
    exact ⟨rfl, rfl⟩

/-- A register that neither the close of a tick nor the end of a slot writes is as the late edge leaves it. -/
theorem State.closeTick_after (s : State) (late measured predicted : Nat) (b : Beacon) :
    Writes (.stl :: .adm :: .hbm :: .mem :: Part.closed) (Reg.LAST_POSITION :: Reg.complete ++ Reg.closed) (s.lateEdge late)
      (s.closeTick late measured predicted b) := by
  have hclosed := s.tickClosed_after late measured predicted b
  rw [State.closeTick_eq]
  generalize s.tickClosed late measured predicted b = u at *
  have hw : Writes (.stl :: .adm :: .hbm :: .mem :: Part.closed) (Reg.LAST_POSITION :: Reg.complete ++ Reg.closed)
      (s.lateEdge late) u := hclosed.widen (hl := fun _ h => List.mem_append_right _ h)
  split
  · exact hw.step u.slotClosed_writes (hl := fun _ h => List.mem_append_left _ h)
  · exact hw

end Sys2Proof.Machine

/-! What a tick opens with (R57, R58, R60, R69, R71, R72, R351). -/

namespace Sys2Proof.Machine

set_option Elab.async false

/-! ## The tick -/

/-- R351: the waiting cap takes effect. -/
theorem State.capEdge_cap (s : State) :
    s.capEdge.pwr.cap = s.pwr.capNext.getD s.pwr.cap ∧ s.capEdge.pwr.capNext = none := by
  unfold State.capEdge
  dsimp only
  split <;> exact ⟨rfl, rfl⟩

/-- The tick's part as tick `n` opens. -/
def State.tickOpened (s : State) (n : Nat) : TickSt :=
  { s.tick with now := n, inMaint := false, done := false, overrun := false, debited := 0, own := none, sentUp := false,
                held := none, kids := s.tick.kids.filter fun k => n % 2 ^ 48 ≤ k.2.tick }

theorem State.beginTick_eq (s : State) (n : Nat) :
    s.beginTick n = (({ s with tick := s.tickOpened n } : State).applyShares 8).capEdge := rfl

theorem State.beginTick_writes (s : State) (n : Nat) : Writes [.regs, .tick, .pwr] Reg.throttle s (s.beginTick n) := by
  rw [State.beginTick_eq]
  exact (((s.evolves_tick _).writes.widen).step (State.applyShares_writes _ (Nat.le_refl 8))
    (hl := fun _ h => h)).step (State.capEdge_evolves _).writes

theorem State.beginTick_shows (s : State) (n : Nat) : (s.beginTick n).tick = s.tickOpened n ∧
    (s.beginTick n).pwr.cap = s.pwr.capNext.getD s.pwr.cap ∧ (s.beginTick n).pwr.capNext = none := by
  rw [State.beginTick_eq]
  have hshares (u : State) : (u.applyShares 8).tick = u.tick ∧ (u.applyShares 8).pwr = u.pwr :=
    ⟨(u.applyShares_evolves 8).keep .tick (by decide), (u.applyShares_evolves 8).keep .pwr (by decide)⟩
  obtain ⟨htick, hpwr⟩ := hshares { s with tick := s.tickOpened n }
  generalize ({ s with tick := s.tickOpened n } : State).applyShares 8 = u at *
  obtain ⟨hcap, hnext⟩ := u.capEdge_cap
  have hkept : u.capEdge.tick = u.tick := u.capEdge_evolves.keep .tick (by decide)
  exact ⟨hkept.trans htick, by rw [hcap, hpwr], hnext⟩

/-! ## The gate -/

/-- R72: the conditions that an edge latches. -/
def State.gateLatched (s : State) (own job : BitVec 4) : BitVec 8 :=
  gateBits own (job &&& ~~~own) ||| (if s.adm.epochPeer then 2 else 0)

theorem State.latchGate_writes (s : State) (own job : BitVec 4) :
    Writes (.adm :: Part.signalled) [Reg.ADM_EVENT] s (s.latchGate own job) := by
  unfold State.latchGate
  have hadm := (s.evolves_adm { s.adm with gate := s.gateLatched own job }).writes.widen
    (Q := .adm :: Part.signalled) (M := [Reg.ADM_EVENT])
  exact Writes.ite _ (hadm.step (State.event_writes _ _ _)) (Writes.ite _ (hadm.step (State.event_writes _ _ _)) hadm)

theorem State.latchGate_adm (s : State) (own job : BitVec 4) :
    (s.latchGate own job).adm = { s.adm with gate := s.gateLatched own job } := by
  have hevent (u : State) (i : Nat) : (u.event Reg.ADM_EVENT i).adm = u.adm :=
    (u.event_evolves _ _).keep .adm (by decide)
  have heq : s.latchGate own job =
      (if s.adm.gate = 0 ∧ s.gateLatched own job ≠ 0 then
        ({ s with adm := { s.adm with gate := s.gateLatched own job } } : State).event Reg.ADM_EVENT 2
      else if s.adm.gate ≠ 0 ∧ s.gateLatched own job = 0 then
        ({ s with adm := { s.adm with gate := s.gateLatched own job } } : State).event Reg.ADM_EVENT 3
      else { s with adm := { s.adm with gate := s.gateLatched own job } }) := rfl
  rw [heq]
  split
  · exact hevent _ _
  · split
    · exact hevent _ _
    · rfl

/-! ## The slot -/

/-- The registers that the step of a slot may set as it starts. -/
abbrev Reg.startStep : List Nat :=
  [Reg.UPD_T, Reg.UPD_LR, Reg.UPD_CLIP, Reg.UPD_STICKY, Reg.QNT_AFFECTED, Reg.QNT_RAISED, Reg.QNT_RUN_MASK]

/-- The parts that the step of a slot may change as it starts. -/
abbrev Part.startStep : List Part := [.regs, .tick, .seg, .stl, .upd, .clo, .pyu, .pwr, .hlt, .bel]

theorem State.stepCoefficients_writes (s : State) :
    Writes [.regs, .upd] [Reg.UPD_T, Reg.UPD_LR, Reg.UPD_CLIP, Reg.UPD_STICKY] s s.stepCoefficients := by
  unfold State.stepCoefficients
  split
  · exact Writes.refl s
  · dsimp only
    have hset (u : State) (t lr c : Nat) (hu : Evolves [.upd] s u) :
        Writes [.regs, .upd] [Reg.UPD_T, Reg.UPD_LR, Reg.UPD_CLIP, Reg.UPD_STICKY] s
          (((u.setRegN Reg.UPD_T t).setRegN Reg.UPD_LR lr).setRegN Reg.UPD_CLIP c) :=
      (((hu.writes.widen).step (State.setRegN_writes _ _ _)).step (State.setRegN_writes _ _ _)).step
        (State.setRegN_writes _ _ _)
    have hsticky (u : State) (m : DWord)
        (hu : Writes [.regs, .upd] [Reg.UPD_T, Reg.UPD_LR, Reg.UPD_CLIP, Reg.UPD_STICKY] s u) :
        Writes [.regs, .upd] [Reg.UPD_T, Reg.UPD_LR, Reg.UPD_CLIP, Reg.UPD_STICKY] s (u.orReg Reg.UPD_STICKY m) :=
      hu.step (State.orReg_writes _ _ _)
    refine Writes.ite _ (hsticky _ _ (Writes.ite _ (hsticky _ _ ?_) ?_)) (Writes.ite _ (hsticky _ _ ?_) ?_) <;>
      exact hset _ _ _ _ (s.evolves_upd _)

/-- The step of a slot as it starts. -/
def State.stepOf (s : State) (x : Sections) (k : Nat) (t : Ticket) : RunStep :=
  { slot := k, stepId := t.stepId, plots := t.plots, input := t.input, variant := chooseVariant x s.tick.raised }

/-- The state with the step of a slot, before its chains bind. -/
def State.stepPlaced (s : State) (x : Sections) (k : Nat) (t : Ticket) : State :=
  let s1 : State := { s with tick := { s.tick with step := some (s.stepOf x k t) }, pwr := { s.pwr with parked := false } }
  s1.stepStreams.setCommit { s1.commit with
    votes := [], sent := false, combo := none, bound := (List.range t.plots).map fun i => (i, x.plot.poolFirst + i) }

theorem State.startStep_eq (s : State) (x : Sections) (k : Nat) (t : Ticket) : s.startStep x k t =
    (((((s.stepPlaced x k t).bindChains (s.stepPlaced x k t).chainTable x.plot.poolFirst t.plots).stepCoefficients.setReg
      Reg.QNT_AFFECTED 0).setReg Reg.QNT_RAISED s.tick.raised).setReg Reg.QNT_RUN_MASK
        (maskOf x (chooseVariant x s.tick.raised))).live 0x800 1 := rfl

theorem State.stepPlaced_evolves (s : State) (x : Sections) (k : Nat) (t : Ticket) :
    Evolves [.tick, .pwr, .seg, .stl, .clo, .pyu] s (s.stepPlaced x k t) :=
  ((((s.evolves_tick { s.tick with step := some (s.stepOf x k t) }).widen rfl).step
    (State.evolves_pwr _ { s.pwr with parked := false }) rfl).step (State.stepStreams_evolves _) rfl).step
      (State.setCommit_evolves _ _) rfl

theorem State.startStep_writes (s : State) (x : Sections) (k : Nat) (t : Ticket) :
    Writes Part.startStep Reg.startStep s (s.startStep x k t) := by
  rw [State.startStep_eq]
  have hplaced := (s.stepPlaced_evolves x k t).writes.widen (Q := Part.startStep) (M := Reg.startStep)
  generalize s.stepPlaced x k t = u at *
  have hbound := hplaced.step (u.bindChains_evolves u.chainTable x.plot.poolFirst t.plots).writes
  exact ((((hbound.step (State.stepCoefficients_writes _)).step (State.setReg_writes _ _ _)).step
    (State.setReg_writes _ _ _)).step (State.setReg_writes _ _ _)).step (State.live_writes _ _ _)

theorem State.startStep_tick (s : State) (x : Sections) (k : Nat) (t : Ticket) :
    (s.startStep x k t).tick = { s.tick with step := some (s.stepOf x k t) } ∧
      (s.startStep x k t).pwr = { s.pwr with parked := false } := by
  rw [State.startStep_eq]
  have htick : (s.stepPlaced x k t).tick = { s.tick with step := some (s.stepOf x k t) } := rfl
  have hpwr : (s.stepPlaced x k t).pwr = { s.pwr with parked := false } := rfl
  generalize s.stepPlaced x k t = u at *
  have hbound := u.bindChains_evolves u.chainTable x.plot.poolFirst t.plots
  have hlaw := ((((hbound.widen (Q := [.regs, .upd, .stl, .bel, .hlt]) rfl).step (State.stepCoefficients_evolves _) rfl).step
    (State.setReg_evolves _ Reg.QNT_AFFECTED 0) rfl).step (State.setReg_evolves _ Reg.QNT_RAISED s.tick.raised) rfl).step
      (State.setReg_evolves _ Reg.QNT_RUN_MASK (maskOf x (chooseVariant x s.tick.raised))) rfl
  have hall := hlaw.step (State.live_evolves _ 0x800 1) rfl
  exact ⟨Eq.trans (hall.keep .tick (by decide)) htick, Eq.trans (hall.keep .pwr (by decide)) hpwr⟩

/-- The registers that the slot that opens may change. -/
abbrev Reg.openSlot : List Nat := Reg.TICK_EVENT :: Reg.startStep

/-- The parts that the slot that opens may change. -/
abbrev Part.openSlot : List Part := .out :: .heldOut :: .host :: Part.startStep

theorem State.openSlot_writes (s : State) (x : Sections) (b : Beacon) :
    Writes Part.openSlot Reg.openSlot s (s.openSlot x b) := by
  have hevent : Writes Part.openSlot Reg.openSlot s (s.event Reg.TICK_EVENT 3) := (s.event_writes _ _).widen
  unfold State.openSlot
  dsimp only
  split
  · exact Writes.ite _ ((s.startStep_writes _ _ _).widen (hl := fun _ h => List.mem_cons_of_mem _ h)) hevent
  · exact Writes.ite _ hevent (Writes.refl s)

/-- R71: the slot that opens carries the step that every module holds. -/
theorem State.openSlot_holds {s : State} (x : Sections) {b : Beacon} {j : Nat} {k : Ticket} {id : Nat}
    (hfind : (s.adm.accepted.find? fun e => e.1 = s.slotNow) = some (j, k)) (hlatched : s.tick.latched = some id)
    (hholds : b.holds = true) (hmismatch : b.mismatch = false) : s.openSlot x b = s.startStep x s.slotNow k := by
  unfold State.openSlot
  dsimp only
  rw [hfind, hlatched]
  dsimp only
  exact if_pos (by rw [hholds, hmismatch]; rfl)

/-- R71: without a step that every module holds the slot runs empty. -/
theorem State.openSlot_empty {s : State} (x : Sections) {b : Beacon}
    (h : b.holds = false ∨ b.mismatch = true ∨ s.tick.latched = none) : (s.openSlot x b).tick = s.tick := by
  have hevent : (s.event Reg.TICK_EVENT 3).tick = s.tick := (s.event_evolves _ _).keep .tick (by decide)
  unfold State.openSlot
  dsimp only
  split
  · next hlatched =>
    rw [if_neg]
    · exact hevent
    · obtain hnot | hmis | hnone := h
      · simp [hnot]
      · simp [hmis]
      · exact absurd (hlatched.symm.trans hnone) (by simp)
  · split
    · exact hevent
    · rfl

theorem State.openSlot_pwr (s : State) (x : Sections) (b : Beacon) :
    (s.openSlot x b).pwr.cap = s.pwr.cap ∧ (s.openSlot x b).pwr.capNext = s.pwr.capNext := by
  have hevent : (s.event Reg.TICK_EVENT 3).pwr = s.pwr := (s.event_evolves _ _).keep .pwr (by decide)
  have hstep (k : Nat) (t : Ticket) : (s.startStep x k t).pwr = { s.pwr with parked := false } := (s.startStep_tick x k t).2
  unfold State.openSlot
  dsimp only
  split
  · split
    · rw [hstep]
      exact ⟨rfl, rfl⟩
    · rw [hevent]
      exact ⟨rfl, rfl⟩
  · split
    · rw [hevent]
      exact ⟨rfl, rfl⟩
    · exact ⟨rfl, rfl⟩

/-- Of the tick's part the slot that opens sets the step alone. -/
theorem State.openSlot_tick (s : State) (x : Sections) (b : Beacon) :
    ∃ step, (s.openSlot x b).tick = { s.tick with step := step } := by
  have hevent : (s.event Reg.TICK_EVENT 3).tick = s.tick := (s.event_evolves _ _).keep .tick (by decide)
  unfold State.openSlot
  dsimp only
  split
  · split
    · exact ⟨_, (s.startStep_tick x _ _).1⟩
    · exact ⟨s.tick.step, hevent⟩
  · split
    · exact ⟨s.tick.step, hevent⟩
    · exact ⟨s.tick.step, rfl⟩

/-- An event that has been signalled stays so as the slot opens. -/
theorem State.openSlot_bit {s : State} (h : storeWf 0 s.regs = true) (x : Sections) (b : Beacon) {i : Nat} (hi : i < 64)
    (hset : s.bit Reg.TICK_EVENT i = true) : (s.openSlot x b).bit Reg.TICK_EVENT i = true := by
  have hevent : (s.event Reg.TICK_EVENT 3).bit Reg.TICK_EVENT i = true := State.bit_event_mono h 3 (by decide) hset
  unfold State.openSlot
  dsimp only
  split
  · split
    · exact ((s.startStep_writes _ _ _).bit (by decide) i).trans hset
    · exact hevent
  · split
    · exact hevent
    · exact hset

/-! ## The stitch -/

/-- The registers that the start of a stitch may change. -/
abbrev Reg.startStitch : List Nat := Reg.LAST_POSITION :: Reg.TICK_SLACK_MIN :: Reg.trace ++ Reg.report

/-- The parts that the start of a stitch may change. -/
abbrev Part.startStitch : List Part := .free :: Part.report

/-- What a stitch shows as it starts. -/
def State.stitchTraced (s : State) (lay ph : Nat) : State :=
  (s.belBoth 0 1).traceBoth 0x01
    (s.stitchIx + 2 ^ 32 * (s.tick.step.map RunStep.variant).getD 0 + 2 ^ 40 * lay + 2 ^ 48 * ph)

/-- An empty slot's stitch is done as it starts (R60). -/
def State.stitchEmpty (s : State) (slack stitch : Nat) : State :=
  let s2 := ((s.belBoth 4 1).minReg Reg.TICK_SLACK_MIN slack).traceBoth 0x02 (stitch + 2 ^ 32 * slack)
  { s2 with tick := { s2.tick with done := true } }

theorem State.startStitch_eq (s : State) : ∃ lay ph, s.startStitch =
    if s.tick.step.isSome then
      ((s.stitchTraced lay ph).belBoth 3 1).setRegN Reg.LAST_POSITION
        (lay + 16 * ph + 256 * (s.tick.step.map RunStep.variant).getD 0 + 65536)
    else ((s.stitchTraced lay ph).stitchEmpty (s.tickLen - s.maintLen) s.stitchIx).sendReport := by
  unfold State.startStitch State.stitchTraced State.stitchEmpty
  generalize (s.stitch?.map fun st => (st.layout, st.phase)).getD (0, 0) = shown
  obtain ⟨lay, ph⟩ := shown
  exact ⟨lay, ph, rfl⟩

theorem State.stitchTraced_writes (s : State) (lay ph : Nat) :
    Writes (.free :: .bel :: Part.signalled) Reg.trace s (s.stitchTraced lay ph) :=
  ((s.belBoth_writes 0 1).widen).step (State.traceBoth_writes _ _ _) rfl (fun _ h => h)

theorem State.stitchEmpty_writes (s : State) (slack stitch : Nat) :
    Writes (.free :: .bel :: .tick :: Part.signalled) (Reg.TICK_SLACK_MIN :: Reg.trace) s (s.stitchEmpty slack stitch) :=
  ((((s.belBoth_writes 4 1).widen).step (State.minReg_writes _ _ _)).step (State.traceBoth_writes _ _ _)
    (hl := fun _ h => List.mem_cons_of_mem _ h)).step (State.evolves_tick _ _).writes

theorem State.startStitch_writes (s : State) : Writes Part.startStitch Reg.startStitch s s.startStitch := by
  obtain ⟨lay, ph, heq⟩ := s.startStitch_eq
  rw [heq]
  have htraced := (s.stitchTraced_writes lay ph).widen (Q := Part.startStitch) (M := Reg.startStitch)
  refine Writes.ite _ ((htraced.step (State.belBoth_writes _ _ _)).step (State.setRegN_writes _ _ _)) ?_
  exact (htraced.step (State.stitchEmpty_writes _ _ _)).step (State.sendReport_writes _)

/-- Of the tick's part the start of a stitch changes only what was done and reported. -/
theorem State.startStitch_tick (s : State) : ∃ done own sent held,
    s.startStitch.tick = { s.tick with done := done, own := own, sentUp := sent, held := held } := by
  obtain ⟨lay, ph, heq⟩ := s.startStitch_eq
  have htraced : (s.stitchTraced lay ph).tick = s.tick := (s.stitchTraced_writes lay ph).evolves.keep .tick (by decide)
  rw [heq]
  generalize s.stitchTraced lay ph = u at *
  split
  · refine ⟨s.tick.done, s.tick.own, s.tick.sentUp, s.tick.held, Eq.trans ?_ htraced⟩
    exact (((u.belBoth_writes 3 1).widen (Q := [.regs, .bel]) (M := [Reg.LAST_POSITION])).step
      (State.setRegN_writes _ _ _)).evolves.keep .tick (by decide)
  · have hempty : (u.stitchEmpty (s.tickLen - s.maintLen) s.stitchIx).tick = { u.tick with done := true } := by
      have hlaw := ((((u.belBoth_writes 4 1).widen (Q := .free :: .bel :: Part.signalled)
        (M := Reg.TICK_SLACK_MIN :: Reg.trace)).step
        (State.minReg_writes _ Reg.TICK_SLACK_MIN (s.tickLen - s.maintLen))).step
        (State.traceBoth_writes _ 0x02 (s.stitchIx + 2 ^ 32 * (s.tickLen - s.maintLen))))
      exact congrArg (fun x : TickSt => { x with done := true }) (hlaw.evolves.keep .tick (by decide))
    obtain ⟨own, sent, held, hreport⟩ := (u.stitchEmpty (s.tickLen - s.maintLen) s.stitchIx).sendReport_tick
    exact ⟨true, own, sent, held, by rw [hreport, hempty, htraced]⟩

/-- An event that has been signalled stays so as a report goes. -/
theorem State.tryReport_bit {s : State} (h : storeWf 0 s.regs = true) (delay : Nat) {i : Nat}
    (hset : s.bit Reg.TICK_EVENT i = true) : (s.tryReport delay).bit Reg.TICK_EVENT i = true := by
  unfold State.tryReport
  split
  · split
    · exact hset
    · dsimp only
      split
      · exact ((State.sendBeaconUp_evolves _ _ _).writes.bit (by decide) i).trans hset
      · split
        · exact ((State.holdReport_writes _ _ _).bit (by decide) i).trans hset
        · refine State.bit_event_mono ?_ 4 (by decide) ?_
          · exact h
          · exact hset
  · exact hset

theorem State.sendReport_bit {s : State} (h : storeWf 0 s.regs = true) {i : Nat}
    (hset : s.bit Reg.TICK_EVENT i = true) : s.sendReport.bit Reg.TICK_EVENT i = true := by
  unfold State.sendReport
  split
  · exact hset
  · refine State.tryReport_bit ?_ 0 ?_
    · exact h
    · exact hset

theorem State.startStitch_bit {s : State} (h : storeWf 0 s.regs = true) {i : Nat} (hset : s.bit Reg.TICK_EVENT i = true) :
    s.startStitch.bit Reg.TICK_EVENT i = true := by
  obtain ⟨lay, ph, heq⟩ := s.startStitch_eq
  rw [heq]
  have htraced := s.stitchTraced_writes lay ph
  split
  · have hshown := ((htraced.widen (Q := .free :: .bel :: Part.signalled) (M := Reg.LAST_POSITION :: Reg.trace)).step
      (State.belBoth_writes _ 3 1)).step (State.setRegN_writes _ Reg.LAST_POSITION
        (lay + 16 * ph + 256 * (s.tick.step.map RunStep.variant).getD 0 + 65536))
    exact (hshown.bit (by decide) i).trans hset
  · have hempty := (htraced.widen (Q := .free :: .bel :: .tick :: Part.signalled)
      (M := Reg.TICK_SLACK_MIN :: Reg.trace)).step (State.stitchEmpty_writes _ (s.tickLen - s.maintLen) s.stitchIx)
    exact State.sendReport_bit (hempty.wf h) ((hempty.bit (by decide) i).trans hset)

end Sys2Proof.Machine

/-! The edge (R57, R62 to R64, R71 to R74, R351; O15). -/

namespace Sys2Proof.Machine

set_option Elab.async false

/-- The tick that an edge opens, with the gate latched. -/
def State.tickLatched (s : State) (own job : BitVec 4) : State := (s.beginTick (s.tick.now + 1)).latchGate own job

/-- The slot and the stitch of the tick that has opened. -/
def State.tickStarted (s : State) (x : Sections) (b : Beacon) : State :=
  ((if s.tick.now % s.stepLen = 0 then s.openSlot x b else s).loadTable.bindSlot).startStitch

/-- The state as the edge finds it, with the snapshot that waited for it. -/
def State.edgeFound (s : State) : State := if s.bel.snapAtEdge then s.belCopy else s

theorem State.edge_eq (s : State) (x : Sections) (late measured predicted : Nat) (b : Beacon) :
    s.edge x late measured predicted b = ((s.edgeFound.closeTick late measured predicted b).tickLatched
      ((s.edgeFound.tick.own.map Beacon.gate).getD 0) b.gate).tickStarted x b := by
  unfold State.edge State.edgeFound State.tickLatched State.tickStarted
  rfl

theorem exec_tickEdge {s : State} {x : Sections} {b : Beacon} (htick : s.tick.ticking = true) (hx : s.sections? = some x)
    (hb : s.tick.held = some b) (late measured predicted : Nat) :
    exec (.tickEdge late measured predicted) s = .next (s.edge x late measured predicted b) := by
  change execTickEdge late measured predicted s = _
  rw [execTickEdge, hx, hb]
  dsimp only
  rw [if_pos htick]

theorem State.edgeFound_writes (s : State) : Writes [.regs, .bel] [Reg.BEL_SNAP_TICK] s s.edgeFound := by
  unfold State.edgeFound State.belCopy
  exact Writes.ite _ (((s.setRegN_writes Reg.BEL_SNAP_TICK s.stampTick).widen (Q := [.regs, .bel])
    (M := [Reg.BEL_SNAP_TICK])).step (State.evolves_bel _ _).writes) (Writes.refl s)

theorem State.tickLatched_writes (s : State) (own job : BitVec 4) :
    Writes ([.tick, .pwr, .adm] ++ Part.signalled) (Reg.ADM_EVENT :: Reg.throttle) s (s.tickLatched own job) :=
  ((s.beginTick_writes _).widen (hl := fun _ h => List.mem_cons_of_mem _ h)).step (State.latchGate_writes _ _ _)

theorem State.tickLatched_shows (s : State) (own job : BitVec 4) :
    (s.tickLatched own job).tick = s.tickOpened (s.tick.now + 1) ∧
      (s.tickLatched own job).pwr.cap = s.pwr.capNext.getD s.pwr.cap ∧ (s.tickLatched own job).pwr.capNext = none ∧
      (s.tickLatched own job).adm = { s.adm with gate := s.gateLatched own job } := by
  have hbegun := s.beginTick_writes (s.tick.now + 1)
  obtain ⟨htick, hcap, hnext⟩ := s.beginTick_shows (s.tick.now + 1)
  have hadm : (s.beginTick (s.tick.now + 1)).adm = s.adm := hbegun.evolves.keep .adm (by decide)
  unfold State.tickLatched
  generalize s.beginTick (s.tick.now + 1) = u at *
  have hlatch := u.latchGate_writes own job
  have htick' : (u.latchGate own job).tick = u.tick := hlatch.evolves.keep .tick (by decide)
  have hpwr : (u.latchGate own job).pwr = u.pwr := hlatch.evolves.keep .pwr (by decide)
  rw [htick', hpwr, State.latchGate_adm, State.gateLatched, hadm]
  exact ⟨htick, hcap, hnext, rfl⟩

/-- The registers that the opening of a slot and its stitch may change. -/
abbrev Reg.tickStarted : List Nat := Reg.openSlot ++ Reg.startStitch

/-- The parts that the opening of a slot and its stitch may change. -/
abbrev Part.tickStarted : List Part := .free :: .trl :: Part.openSlot

theorem State.tickStarted_writes (s : State) (x : Sections) (b : Beacon) :
    Writes Part.tickStarted Reg.tickStarted s (s.tickStarted x b) := by
  unfold State.tickStarted
  have hopen : Writes Part.tickStarted Reg.tickStarted s (if s.tick.now % s.stepLen = 0 then s.openSlot x b else s) :=
    Writes.ite _ ((s.openSlot_writes x b).widen (hl := fun _ h => List.mem_append_left _ h)) (Writes.refl s)
  exact ((hopen.step (State.loadTable_evolves _).writes).step (State.bindSlot_evolves _).writes).step
    (State.startStitch_writes _) (hl := fun _ h => List.mem_append_right _ h)

/-- Of the tick's part the opening of a slot sets the step, what is bound, and what is reported. -/
theorem State.tickStarted_tick (s : State) (x : Sections) (b : Beacon) : ∃ step latched done own sent held,
    (s.tickStarted x b).tick =
      { s.tick with step := step, latched := latched, done := done, own := own, sentUp := sent, held := held } ∧
    step = if s.tick.now % s.stepLen = 0 then (s.openSlot x b).tick.step else s.tick.step := by
  have hopen : ∃ step, (if s.tick.now % s.stepLen = 0 then s.openSlot x b else s).tick = { s.tick with step := step } ∧
      step = if s.tick.now % s.stepLen = 0 then (s.openSlot x b).tick.step else s.tick.step := by
    split
    · obtain ⟨step, h⟩ := s.openSlot_tick x b
      exact ⟨step, h, by rw [h]⟩
    · exact ⟨s.tick.step, rfl, rfl⟩
  obtain ⟨step, htick, hstep⟩ := hopen
  unfold State.tickStarted
  generalize (if s.tick.now % s.stepLen = 0 then s.openSlot x b else s) = u at *
  have hbound (v : State) : ∃ latched, v.loadTable.bindSlot.tick = { v.tick with latched := latched } := ⟨_, rfl⟩
  obtain ⟨latched, hlatched⟩ := hbound u
  obtain ⟨done, own, sent, held, hstitch⟩ := u.loadTable.bindSlot.startStitch_tick
  exact ⟨step, latched, done, own, sent, held, by rw [hstitch, hlatched, htick], hstep⟩

theorem State.tickStarted_pwr (s : State) (x : Sections) (b : Beacon) :
    (s.tickStarted x b).pwr.cap = s.pwr.cap ∧ (s.tickStarted x b).pwr.capNext = s.pwr.capNext := by
  have hopen : (if s.tick.now % s.stepLen = 0 then s.openSlot x b else s).pwr.cap = s.pwr.cap ∧
      (if s.tick.now % s.stepLen = 0 then s.openSlot x b else s).pwr.capNext = s.pwr.capNext := by
    split
    · exact s.openSlot_pwr x b
    · exact ⟨rfl, rfl⟩
  unfold State.tickStarted
  generalize (if s.tick.now % s.stepLen = 0 then s.openSlot x b else s) = u at *
  have hkept : u.loadTable.bindSlot.startStitch.pwr = u.pwr :=
    Eq.trans ((State.startStitch_evolves _).keep .pwr (by decide)) rfl
  rw [hkept]
  exact hopen

/-- An event of the tick that has been signalled stays so as the slot and its stitch open. -/
theorem State.tickStarted_bit {s : State} (h : storeWf 0 s.regs = true) (x : Sections) (b : Beacon) {i : Nat} (hi : i < 64)
    (hset : s.bit Reg.TICK_EVENT i = true) : (s.tickStarted x b).bit Reg.TICK_EVENT i = true := by
  have hopen : (if s.tick.now % s.stepLen = 0 then s.openSlot x b else s).bit Reg.TICK_EVENT i = true := by
    split
    · exact State.openSlot_bit h x b hi hset
    · exact hset
  have hwf : storeWf 0 (if s.tick.now % s.stepLen = 0 then s.openSlot x b else s).regs = true := by
    split
    · exact (s.openSlot_writes x b).wf h
    · exact h
  unfold State.tickStarted
  generalize (if s.tick.now % s.stepLen = 0 then s.openSlot x b else s) = u at *
  refine State.startStitch_bit ?_ ?_
  · exact hwf
  · exact hopen

/-- The last tick of a slot is the one before the next slot's first. -/
theorem State.lastOfSlot_iff (s : State) : s.lastOfSlot = true ↔ (s.tick.now + 1) % s.stepLen = 0 := by
  rw [State.lastOfSlot, decide_eq_true_iff]

/-- The slot that follows the last tick of a slot. -/
theorem State.slot_after {s : State} (h : s.lastOfSlot = true) : (s.tick.now + 1) / s.stepLen = s.slotNow + 1 := by
  rw [State.lastOfSlot_iff] at h
  rw [State.slotNow]
  obtain ⟨k, hk⟩ := Nat.dvd_of_mod_eq_zero h
  obtain hzero | hpos := Nat.eq_zero_or_pos s.stepLen
  · rw [hzero] at hk
    omega
  · obtain ⟨j, rfl⟩ : ∃ j, k = j + 1 := by
      cases k with
      | zero => omega
      | succ j => exact ⟨j, rfl⟩
    have hnow : s.tick.now = s.stepLen * j + (s.stepLen - 1) := by
      rw [Nat.mul_succ] at hk
      omega
    rw [hk, Nat.mul_div_cancel_left _ hpos, hnow, Nat.mul_add_div hpos, Nat.div_eq_of_lt (by omega)]

/-- The registers that an edge may change after its lateness. -/
abbrev Reg.edge : List Nat :=
  Reg.LAST_POSITION :: Reg.complete ++ Reg.closed ++ (Reg.ADM_EVENT :: Reg.throttle) ++ Reg.tickStarted

/-- The parts that an edge may change after its lateness. -/
abbrev Part.edge : List Part := [.adm, .hbm, .mem] ++ Part.tickStarted

/-- The state with the tick closed and the next one open, before its slot. -/
def State.edgeLatched (s : State) (late measured predicted : Nat) (b : Beacon) : State :=
  (s.edgeFound.closeTick late measured predicted b).tickLatched ((s.edgeFound.tick.own.map Beacon.gate).getD 0) b.gate

theorem State.edgeLatched_writes (s : State) (late measured predicted : Nat) (b : Beacon) :
    Writes Part.edge (Reg.LAST_POSITION :: Reg.complete ++ Reg.closed ++ (Reg.ADM_EVENT :: Reg.throttle))
      (s.edgeFound.lateEdge late) (s.edgeLatched late measured predicted b) :=
  ((s.edgeFound.closeTick_after late measured predicted b).widen (hl := fun _ h => List.mem_append_left _ h)).step
    (State.tickLatched_writes _ _ _) (hl := fun _ h => List.mem_append_right _ h)

theorem State.edge_writes (s : State) (x : Sections) (late measured predicted : Nat) (b : Beacon) :
    Writes Part.edge Reg.edge (s.edgeFound.lateEdge late) (s.edge x late measured predicted b) := by
  rw [State.edge_eq]
  exact ((s.edgeLatched_writes late measured predicted b).widen (hl := fun _ h => List.mem_append_left _ h)).step
    (State.tickStarted_writes _ x b) (hl := fun _ h => List.mem_append_right _ h)

/-- R63: an edge on time changes no count of lateness, and a late one counts. -/
theorem State.edge_counts {s : State} (h : storeWf 0 s.regs = true) (x : Sections) (late measured predicted : Nat) (b : Beacon) :
    let t := s.edge x late measured predicted b
    (late = 0 → t.reg Reg.TICK_SLIP = s.reg Reg.TICK_SLIP ∧ t.reg Reg.TICK_LATE_COUNT = s.reg Reg.TICK_LATE_COUNT) ∧
      (late ≠ 0 → t.regN Reg.TICK_LATE_COUNT = min (s.regN Reg.TICK_LATE_COUNT + 1) (2 ^ 32 - 1) ∧
        t.regN Reg.TICK_LATE_MAX = max (s.regN Reg.TICK_LATE_MAX) (min late (2 ^ 32 - 1)) ∧ t.bit Reg.TICK_EVENT 0 = true ∧
        (s.regN Reg.TICK_SLIP + late < 2 ^ 64 → t.regN Reg.TICK_SLIP = s.regN Reg.TICK_SLIP + late)) := by
  have hfound := s.edgeFound_writes
  have hlaw := s.edge_writes x late measured predicted b
  have hlatched := s.edgeLatched_writes late measured predicted b
  refine ⟨fun hlate => ?_, fun hlate => ?_⟩
  · have hnone : s.edgeFound.lateEdge late = s.edgeFound := by rw [State.lateEdge, if_pos hlate]
    rw [hnone] at hlaw
    exact ⟨(hlaw.reg (by decide)).trans (hfound.reg (by decide)), (hlaw.reg (by decide)).trans (hfound.reg (by decide))⟩
  · obtain ⟨hcount, hmax, hbit, hslip⟩ := State.lateEdge_counts (hfound.wf h) hlate
    have hwf := (s.edgeFound.lateEdge_writes late).wf (hfound.wf h)
    rw [hfound.regN (by decide)] at hcount hmax hslip
    refine ⟨(hlaw.regN (by decide)).trans hcount, (hlaw.regN (by decide)).trans hmax, ?_, fun hfit =>
      (hlaw.regN (by decide)).trans (hslip hfit)⟩
    rw [State.edge_eq]
    exact State.tickStarted_bit (hlatched.wf hwf) x b (by decide) ((hlatched.bit (by decide) 0).trans hbit)

/-- What an edge leaves before its slot opens. -/
theorem State.edgeLatched_shows (s : State) (late measured predicted : Nat) (b : Beacon) :
    let t := s.edgeLatched late measured predicted b
    t.tick.ticking = s.tick.ticking ∧ t.tick.now = s.tick.now + 1 ∧ t.tick.inMaint = false ∧ t.tick.overrun = false ∧
      t.tick.debited = 0 ∧ t.tick.latched = s.tick.latched ∧ t.tick.step = (if s.lastOfSlot then none else s.tick.step) ∧
      t.pwr.capNext = none ∧ t.pwr.cap = s.pwr.capNext.getD s.pwr.cap ∧ t.image = s.image ∧ t.sbk = s.sbk ∧
      t.adm.gate = s.gateLatched ((s.tick.own.map Beacon.gate).getD 0) b.gate ∧
      (s.lastOfSlot = false → t.adm.accepted = s.adm.accepted ∧ t.adm.unread = s.adm.unread) ∧
      (s.lastOfSlot = true → t.adm.accepted = s.adm.accepted.filter fun e => e.1 ≠ s.slotNow) ∧
      (∀ j k, s.lastOfSlot = true → s.adm.accepted.find? (fun e => e.1 = s.slotNow) = some (j, k) →
        t.adm.unread = s.adm.unread ++ [s.slotRecord s.slotNow k] ∧ t.adm.freePlots = s.adm.freePlots + k.plots) := by
  have hfound := s.edgeFound_writes.evolves
  have htick : s.edgeFound.tick = s.tick := hfound.keep .tick (by decide)
  have hadm : s.edgeFound.adm = s.adm := hfound.keep .adm (by decide)
  have hpwr : s.edgeFound.pwr = s.pwr := hfound.keep .pwr (by decide)
  have himage : s.edgeFound.image = s.image := hfound.keep .image (by decide)
  have hsbk : s.edgeFound.sbk = s.sbk := hfound.keep .sbk (by decide)
  unfold State.edgeLatched
  generalize s.edgeFound = u at *
  have hlast := State.lastOfSlot_congr himage (by rw [htick] : u.tick.now = s.tick.now)
  have hslot := State.slotNow_congr himage (by rw [htick] : u.tick.now = s.tick.now)
  have hrecord (k : Ticket) : u.slotRecord s.slotNow k = s.slotRecord s.slotNow k := by
    rw [State.slotRecord, State.slotRecord, State.deadline_congr himage,
      State.slotStatus_congr (by rw [htick] : u.tick.step = s.tick.step)]
  obtain ⟨hnow, hticking, hlatched, hstep, hcap, hnext, himage', hsbk', hpeer⟩ :=
    u.closeTick_shows late measured predicted b
  obtain ⟨hwithin, haccepted, hrecords⟩ := u.closeTick_tickets late measured predicted b
  generalize u.closeTick late measured predicted b = v at *
  have hlaw := (v.tickLatched_writes ((u.tick.own.map Beacon.gate).getD 0) b.gate).evolves
  obtain ⟨htick', hcap', hnext', hadm'⟩ := v.tickLatched_shows ((u.tick.own.map Beacon.gate).getD 0) b.gate
  have himage'' : (v.tickLatched ((u.tick.own.map Beacon.gate).getD 0) b.gate).image = v.image := hlaw.keep .image (by decide)
  have hsbk'' : (v.tickLatched ((u.tick.own.map Beacon.gate).getD 0) b.gate).sbk = v.sbk := hlaw.keep .sbk (by decide)
  rw [hlast] at hstep hwithin haccepted hrecords
  rw [hslot, hadm] at haccepted hrecords
  rw [hadm] at hwithin hpeer
  intro t
  dsimp only [t]
  rw [htick', hadm', hcap', hnext', himage'', hsbk'', State.tickOpened]
  rw [hcap, hnext, hpwr, himage', hsbk', himage, hsbk, hnow, hticking, hlatched, hstep, htick]
  refine ⟨rfl, rfl, rfl, rfl, rfl, rfl, rfl, rfl, rfl, rfl, rfl, ?_, fun h => ?_, haccepted, fun j k h hfind => ?_⟩
  · rw [State.gateLatched, State.gateLatched, hpeer]
  · rw [hwithin h]
    exact ⟨rfl, rfl⟩
  · obtain ⟨hunread, hplots⟩ := hrecords j k h hfind
    rw [hrecord] at hunread
    exact ⟨hunread, hplots⟩

/-- A ticket of another slot is still among those accepted. -/
theorem find?_filter_other {l : List (Nat × Ticket)} {j k : Nat} (h : j ≠ k) :
    (l.filter fun e => e.1 ≠ k).find? (fun e => e.1 = j) = l.find? fun e => e.1 = j := by
  rw [List.find?_filter]
  refine congrArg (fun p => l.find? p) (funext fun e => ?_)
  by_cases he : e.1 = j
  · simp [he, h]
  · simp [he]

/-- Settles O15: the edge closes its tick, completes the ticket whose slot ends, and opens the next. -/
theorem edgeClosesAndOpens : Obligations.EdgeClosesAndOpens := by
  unfold Obligations.EdgeClosesAndOpens
  intro s x b late measured predicted hinv htick hx hb
  refine ⟨_, exec_tickEdge htick hx hb late measured predicted, ?_⟩
  obtain ⟨hontime, hlate⟩ := State.edge_counts hinv.2 x late measured predicted b
  obtain ⟨hticking, hnow, hmaint, hover, hdebited, hlatched, hstep, hnext, hcap, himage, hsbk, hgate, hwithin, haccepted,
    hrecords⟩ := s.edgeLatched_shows late measured predicted b
  have heq : s.edge x late measured predicted b = (s.edgeLatched late measured predicted b).tickStarted x b := s.edge_eq ..
  rw [heq] at hontime hlate ⊢
  generalize s.edgeLatched late measured predicted b = u at *
  have hlaw := (u.tickStarted_writes x b).evolves
  obtain ⟨hcap', hnext'⟩ := u.tickStarted_pwr x b
  obtain ⟨step, latched, done, own, sent, held, htick', hstep'⟩ := u.tickStarted_tick x b
  have hadm' : (u.tickStarted x b).adm = u.adm := hlaw.keep .adm (by decide)
  have himage' : (u.tickStarted x b).image = u.image := hlaw.keep .image (by decide)
  have hsbk' : (u.tickStarted x b).sbk = u.sbk := hlaw.keep .sbk (by decide)
  have hlen : u.stepLen = s.stepLen := by rw [State.stepLen, State.stepLen, State.img_congr himage]
  have hfirst : u.tick.now % u.stepLen = 0 ↔ s.lastOfSlot = true := by rw [hnow, hlen, State.lastOfSlot_iff]
  rw [htick', hadm', hcap', hnext', himage', hsbk']
  refine ⟨hticking.trans htick, hnow, hmaint, hover, hdebited, hnext, hcap, hontime, hlate, hgate, fun h => ?_, haccepted,
    fun k h hfind => hrecords _ k h hfind, fun k id h hfind hid hholds hmismatch => ?_, fun h hempty => ?_, himage, hsbk⟩
  · obtain ⟨hsame, hunread⟩ := hwithin h
    refine ⟨?_, hsame, hunread⟩
    rw [if_neg (by rw [hfirst, h]; decide), hstep, h] at hstep'
    exact hstep'
  · have hslot : u.slotNow = s.slotNow + 1 := by rw [State.slotNow, hnow, hlen, State.slot_after h]
    have hfind' : (u.adm.accepted.find? fun e => e.1 = u.slotNow) = some (s.slotNow + 1, k) := by
      rw [haccepted h, hslot, find?_filter_other (Nat.succ_ne_self _)]
      exact hfind
    rw [if_pos (hfirst.mpr h), State.openSlot_holds x hfind' (hlatched.trans hid) hholds hmismatch,
      (u.startStep_tick x u.slotNow k).1, hslot] at hstep'
    exact ⟨_, hstep', rfl, rfl, rfl, rfl, rfl, rfl⟩
  · rw [if_pos (hfirst.mpr h), State.openSlot_empty x (by rw [hlatched]; exact hempty), hstep, h] at hstep'
    exact hstep'

end Sys2Proof.Machine

/-! The start of a job (R42, R48, R49; O12). -/

namespace Sys2Proof.Machine

set_option Elab.async false

/-! ## What a start rests on -/

theorem State.img_of_armed {s : State} {f : ImageFile} (hst : s.image.st = .armed) (hfile : s.image.file = some f) :
    s.img = some f := by
  rw [State.img, hst]
  exact hfile

theorem State.img_of_loaded {s : State} {f : ImageFile} (hst : s.image.st = .loaded) (hfile : s.image.file = some f) :
    s.img = some f := by
  rw [State.img, hst]
  exact hfile

theorem State.sections?_of_img {s : State} {f : ImageFile} (h : s.img = some f) : s.sections? = some f.sections := by
  rw [State.sections?, h]
  rfl

theorem State.topo?_of_img {s : State} {f : ImageFile} (h : s.img = some f) : s.topo? = some f.sections.topo := by
  rw [State.topo?, State.sections?_of_img h]
  rfl

theorem State.topoUp_congr {s t : State} (htopo : t.topo? = s.topo?) (hports : t.pyu.ports = s.pyu.ports) :
    t.topoUp = s.topoUp := by
  unfold State.topoUp State.isUp State.port
  rw [htopo, hports]

theorem State.exchangeMsg_congr {s t : State} (hupd : t.upd.epoch = s.upd.epoch ∧ t.upd.slabB = s.upd.slabB)
    (hcommit : t.commit.outcome = s.commit.outcome) (f : ImageFile) : t.exchangeMsg f = s.exchangeMsg f := by
  rw [State.exchangeMsg, State.exchangeMsg, hupd.1, hupd.2, hcommit]

/-! ## The exchange -/

theorem State.sendExchange_out (l : List Nat) (s : State) (m : ExchangeMsg) :
    (s.sendExchange m l).out = s.out ++ l.map fun p => .startExchange p m := by
  induction l generalizing s with
  | nil =>
    rw [List.map_nil, List.append_nil]
    rfl
  | cons p ps ih =>
    rw [State.sendExchange, ih]
    simp [State.send]

/-- The exchange goes out once (R285). -/
def State.exchangeSent (s : State) : State :=
  if s.image.exchanged then s else ({ s with image := { s.image with exchanged := true } } : State).exchange

theorem State.exchangeSent_evolves (s : State) : Evolves [.image, .out] s s.exchangeSent := by
  unfold State.exchangeSent
  split
  · exact Evolves.refl s
  · exact ((s.evolves_image _).widen rfl).step (State.exchange_evolves _) rfl

theorem State.exchangeSent_image (s : State) : s.exchangeSent.image = { s.image with exchanged := true } := by
  unfold State.exchangeSent
  split
  · next h => rw [← h]
  · exact (State.exchange_evolves _).keep .image (by decide)

theorem State.exchangeSent_out {s : State} {f : ImageFile} (hst : s.image.st = .armed) (hfile : s.image.file = some f)
    (hfirst : s.image.exchanged = false) :
    s.exchangeSent.out = s.out ++ (topoPeers f.sections.topo).map fun p => .startExchange p (s.exchangeMsg f) := by
  have himg : ({ s with image := { s.image with exchanged := true } } : State).img = some f := State.img_of_armed hst hfile
  rw [State.exchangeSent, if_neg (by simp [hfirst]), State.exchange, himg]
  exact State.sendExchange_out _ _ _

/-! ## The conditions of R49 -/

/-- The start waits: for a peer, for a child's message, or for what it has sent to be answered. -/
def State.startWaits (s : State) (x : Topo) : Bool :=
  s.image.sentUp || !((topoPeers x).all s.image.passed.contains) ||
    !(x.beaconChildren.all fun c => s.image.childUp.any fun e => e.1 = c)

/-- The start goes on: up the tree, or, at the root that covers the job, to tick 0. -/
def State.startGoesOn (s : State) (x : Topo) : State :=
  let s2 : State := { s with image := { s.image with sentUp := true } }
  let covered := (x.beaconChildren.map fun c => storeGet 0 s.image.childUp c + 1).sum
  match x.beaconParent with
  | some p => s2.sendStartUp p covered
  | none =>
    if covered + 1 = s2.jobSize then (s2.sendStartDown x.beaconChildren).openTickZero else s2.event Reg.TICK_EVENT 4

theorem State.progressStart_waiting {s : State} (h : s.image.st ≠ .armed ∨ s.topoUp = false) : s.progressStart = s := by
  unfold State.progressStart
  split
  · next hst _ =>
    obtain hne | hdown := h
    · exact absurd hst hne
    · rw [if_pos (by simp [hdown])]
  · rfl

theorem State.progressStart_up {s : State} {x : Topo} (hst : s.image.st = .armed) (htopo : s.topo? = some x)
    (hup : s.topoUp = true) : s.progressStart =
      if s.exchangeSent.startWaits x then s.exchangeSent else s.exchangeSent.startGoesOn x := by
  unfold State.progressStart
  rw [hst, htopo]
  dsimp only
  rw [if_neg (by simp [hup])]
  rfl

theorem State.startWaits_exchangeSent (s : State) (x : Topo) : s.exchangeSent.startWaits x = s.startWaits x := by
  rw [State.startWaits, State.startWaits, s.exchangeSent_image]

/-- R49: with a peer still to pass the exchange alone goes out. -/
theorem State.progressStart_held {s : State} {x : Topo} (hst : s.image.st = .armed) (htopo : s.topo? = some x)
    (hup : s.topoUp = true) (hwait : s.startWaits x = true) : s.progressStart = s.exchangeSent := by
  rw [State.progressStart_up hst htopo hup, if_pos (by rw [State.startWaits_exchangeSent, hwait])]

theorem State.progressStart_on {s : State} {x : Topo} (hst : s.image.st = .armed) (htopo : s.topo? = some x)
    (hup : s.topoUp = true) (hwait : s.startWaits x = false) : s.progressStart = s.exchangeSent.startGoesOn x := by
  rw [State.progressStart_up hst htopo hup, if_neg (by rw [State.startWaits_exchangeSent, hwait]; decide)]

/-! ## Tick 0 -/

/-- The state in which tick 0 opens. -/
def State.zeroBegun (s : State) : State :=
  let s1 := (s.setReg Reg.TICK_SLIP 0).setBit Reg.LAST_POSITION 16 false
  { s1 with
    image := { s1.image with st := .running, childUp := [] }
    adm := { s1.adm with freePlots := s1.poolSize }
    tick := { s1.tick with ticking := true, maintDue := 0, latched := none, step := none, kids := [] } }

/-- Tick 0 opens with the gate that the module itself asks for. -/
def State.zeroLatched (s : State) : State :=
  let s3 := (s.event Reg.LAST_EVENT 2).beginTick 0
  s3.latchGate s3.localGate s3.localGate

theorem State.openTickZero_eq (s : State) :
    s.openTickZero = (s.zeroBegun.zeroLatched.loadTable.bindSlot).startStitch := rfl

theorem State.zeroBegun_parts (s : State) : s.zeroBegun.image = { s.image with st := .running, childUp := [] } ∧
    s.zeroBegun.adm.freePlots = s.poolSize ∧ s.zeroBegun.tick.ticking = true ∧ s.zeroBegun.tick.step = none :=
  ⟨rfl, rfl, rfl, rfl⟩

theorem State.zeroBegun_evolves (s : State) : Evolves [.regs, .image, .adm, .tick] s s.zeroBegun :=
  (((((State.setReg_evolves s Reg.TICK_SLIP 0).widen rfl).step (State.setBit_evolves _ Reg.LAST_POSITION 16 false) rfl).step
    (State.evolves_image _ { s.image with st := .running, childUp := [] }) rfl).step
      (State.evolves_adm _ { s.adm with freePlots := s.poolSize }) rfl).step
        (State.evolves_tick _ { s.tick with ticking := true, maintDue := 0, latched := none, step := none, kids := [] }) rfl

theorem State.zeroLatched_shows {s : State} (h : storeWf 0 s.regs = true) :
    s.zeroLatched.image = s.image ∧ s.zeroLatched.adm.freePlots = s.adm.freePlots ∧
      s.zeroLatched.tick.ticking = s.tick.ticking ∧ s.zeroLatched.tick.now = 0 ∧ s.zeroLatched.tick.step = s.tick.step ∧
      s.zeroLatched.bit Reg.LAST_EVENT 2 = true := by
  have hevent := s.event_writes Reg.LAST_EVENT 2
  have hbit := s.bit_event Reg.LAST_EVENT 2 h (by decide)
  unfold State.zeroLatched
  dsimp only
  generalize s.event Reg.LAST_EVENT 2 = u at *
  have hbegun := u.beginTick_writes 0
  have htick := (u.beginTick_shows 0).1
  generalize u.beginTick 0 = v at *
  have hlatch := v.latchGate_writes v.localGate v.localGate
  have hadm := v.latchGate_adm v.localGate v.localGate
  have hplots : (v.latchGate v.localGate v.localGate).adm.freePlots = v.adm.freePlots := by rw [hadm]
  generalize v.latchGate v.localGate v.localGate = w at *
  have himage : w.image = s.image := Eq.trans (hlatch.evolves.keep .image (by decide))
    (Eq.trans (hbegun.evolves.keep .image (by decide)) (hevent.evolves.keep .image (by decide)))
  have hvadm : v.adm = s.adm := Eq.trans (hbegun.evolves.keep .adm (by decide)) (hevent.evolves.keep .adm (by decide))
  have hw : w.tick = u.tickOpened 0 := Eq.trans (hlatch.evolves.keep .tick (by decide)) htick
  have hu : u.tick = s.tick := hevent.evolves.keep .tick (by decide)
  rw [hw, State.tickOpened, hu]
  exact ⟨himage, by rw [hplots, hvadm], rfl, rfl, rfl,
    (hlatch.bit (by decide) 2).trans ((hbegun.bit (by decide) 2).trans hbit)⟩

/-- R48, R57, R72: tick 0 opens, and slot 0 runs empty. -/
theorem State.openTickZero_opens {s : State} (h : storeWf 0 s.regs = true) :
    s.openTickZero.image.st = .running ∧ s.openTickZero.tick.ticking = true ∧ s.openTickZero.tick.now = 0 ∧
      s.openTickZero.tick.step = none ∧ s.openTickZero.adm.freePlots = s.poolSize ∧
      s.openTickZero.bit Reg.LAST_EVENT 2 = true := by
  obtain ⟨himage, hplots, hticking, hstep⟩ := s.zeroBegun_parts
  have hwf := s.zeroBegun_evolves.regs h
  rw [State.openTickZero_eq]
  generalize s.zeroBegun = u at *
  obtain ⟨himage', hplots', hticking', hnow', hstep', hbit⟩ := State.zeroLatched_shows hwf
  generalize u.zeroLatched = v at *
  have hbound (w : State) : ∃ latched, w.loadTable.bindSlot.tick = { w.tick with latched := latched } := ⟨_, rfl⟩
  obtain ⟨latched, hlatched⟩ := hbound v
  have hopened : Writes [.trl, .tick] [] v v.loadTable.bindSlot :=
    (((State.loadTable_evolves v).writes).widen).step (State.bindSlot_evolves _).writes
  generalize v.loadTable.bindSlot = w at *
  have hlaw := w.startStitch_writes
  obtain ⟨done, own, sent, held, hstitch⟩ := w.startStitch_tick
  have himage'' : w.startStitch.image = v.image :=
    Eq.trans (hlaw.evolves.keep .image (by decide)) (hopened.evolves.keep .image (by decide))
  have hadm'' : w.startStitch.adm = v.adm :=
    Eq.trans (hlaw.evolves.keep .adm (by decide)) (hopened.evolves.keep .adm (by decide))
  rw [himage'', hadm'', hstitch, hlatched]
  exact ⟨by rw [himage', himage], hticking'.trans hticking, hnow', hstep'.trans hstep, hplots'.trans hplots,
    (hlaw.bit (by decide) 2).trans ((hopened.bit (by decide) 2).trans hbit)⟩

/-! ## START -/

/-- An accepted START before anything is sent. -/
def State.armedWith (s : State) (x : Sections) : State :=
  let s1 : State := { s with
    image := { s.image with st := .armed, passed := [], exchanged := false, sentUp := false, peerUnresolved := [] }
    adm := { s.adm with epochPeer := false }
    seg := { s.seg with gens := seedGens x.seeds }
    tick := { s.tick with halted := false, stopped := false, raised := 0, clean := [], raises := [] } }
  s1.fillCredits.clearEngines.clearStreams

theorem exec_start {s : State} (hhost : s.hosted) : exec .start s = .next s.start := by
  change execStart s = _
  rw [execStart, State.onHost_of_hosted hhost]

theorem State.start_ignored {s : State} (h : s.image.st ≠ .loaded) : s.start = s.cmdIgnored := by
  unfold State.start
  split
  · next hst _ => exact absurd hst h
  · rfl

theorem State.start_accepted {s : State} {f : ImageFile} (hst : s.image.st = .loaded) (hfile : s.image.file = some f) :
    s.start = (s.armedWith f.sections).progressStart := by
  unfold State.start
  rw [hst, State.sections?_of_img (State.img_of_loaded hst hfile)]
  rfl

/-- The parts that an accepted START resets. -/
abbrev Part.armed : List Part := [.image, .adm, .seg, .tick, .stl, .me, .ve, .upd, .clo, .pyu]

theorem State.armedWith_evolves (s : State) (x : Sections) : Evolves Part.armed s (s.armedWith x) :=
  (((((((s.evolves_image { s.image with
      st := .armed, passed := [], exchanged := false, sentUp := false, peerUnresolved := [] }).widen rfl).step
    (State.evolves_adm _ { s.adm with epochPeer := false }) rfl).step
      (State.evolves_seg _ { s.seg with gens := seedGens x.seeds }) rfl).step
        (State.evolves_tick _ { s.tick with halted := false, stopped := false, raised := 0, clean := [], raises := [] }) rfl).step
          (State.fillCredits_evolves _) rfl).step (State.clearEngines_evolves _) rfl).step (State.clearStreams_evolves _) rfl

theorem State.armedWith_parts (s : State) (x : Sections) : (s.armedWith x).image = { s.image with
      st := .armed, passed := [], exchanged := false, sentUp := false, peerUnresolved := [] } ∧
    (s.armedWith x).seg.gens = seedGens x.seeds ∧ (s.armedWith x).tick.raised = 0 ∧ (s.armedWith x).tick.halted = false ∧
    (s.armedWith x).me.acc = [] ∧ s.sameSlabs (s.armedWith x) ∧ (s.armedWith x).pyu.ports = s.pyu.ports ∧
    (s.armedWith x).commit.outcome = s.commit.outcome := ⟨rfl, rfl, rfl, rfl, rfl, ⟨rfl, rfl, rfl, rfl⟩, rfl, rfl⟩

/-- What START finds once it is accepted. -/
theorem State.armedWith_topo {s : State} {f : ImageFile} (hst : s.image.st = .loaded) (hfile : s.image.file = some f) :
    (s.armedWith f.sections).topo? = some f.sections.topo ∧ (s.armedWith f.sections).topoUp = s.topoUp := by
  obtain ⟨himage, -, -, -, -, -, hports, -⟩ := s.armedWith_parts f.sections
  have htopo : (s.armedWith f.sections).topo? = some f.sections.topo :=
    State.topo?_of_img (State.img_of_armed (by rw [himage]) (by rw [himage]; exact hfile))
  exact ⟨htopo, State.topoUp_congr (htopo.trans (State.topo?_of_img (State.img_of_loaded hst hfile)).symm) hports⟩

/-- R48: with a port of TOPO not yet UP a START sends nothing. -/
theorem State.start_waits {s : State} {f : ImageFile} (hst : s.image.st = .loaded) (hfile : s.image.file = some f)
    (hdown : s.topoUp = false) : s.start.image.st = .armed ∧ s.start.image.exchanged = false ∧
      s.start.image.passed = [] ∧ s.start.seg.gens = seedGens f.sections.seeds ∧ s.start.tick.raised = 0 ∧
      s.start.tick.halted = false ∧ s.start.me.acc = [] ∧ s.start.out = s.out ∧ s.sameSlabs s.start ∧
      s.touches s.start Part.armed [] := by
  obtain ⟨himage, hgens, hraised, hhalted, hacc, hslabs, -, -⟩ := s.armedWith_parts f.sections
  have hlaw := s.armedWith_evolves f.sections
  have hdown' := (State.armedWith_topo hst hfile).2.trans hdown
  rw [State.start_accepted hst hfile, State.progressStart_waiting (.inr hdown')]
  exact ⟨by rw [himage], by rw [himage], by rw [himage], hgens, hraised, hhalted, hacc, hlaw.keep .out (by decide), hslabs,
    hlaw.writes.touches⟩

/-- R42, R285: with every port UP the exchange goes to every peer. -/
theorem State.start_exchanges {s : State} {f : ImageFile} (hst : s.image.st = .loaded) (hfile : s.image.file = some f)
    (hup : s.topoUp = true) (hpeers : topoPeers f.sections.topo ≠ []) : s.start.image.st = .armed ∧
      s.start.image.exchanged = true ∧ s.start.seg.gens = seedGens f.sections.seeds ∧
      s.start.out = s.out ++ (topoPeers f.sections.topo).map (fun p => .startExchange p (s.exchangeMsg f)) := by
  obtain ⟨himage, hgens, -, -, -, hslabs, -, houtcome⟩ := s.armedWith_parts f.sections
  have hout : (s.armedWith f.sections).out = s.out := (s.armedWith_evolves f.sections).keep .out (by decide)
  have htopo := State.armedWith_topo hst hfile
  rw [State.start_accepted hst hfile]
  have hmsg := State.exchangeMsg_congr ⟨hslabs.1, hslabs.2.1⟩ houtcome f
  generalize s.armedWith f.sections = u at *
  have hust : u.image.st = .armed := by rw [himage]
  have hwait : u.startWaits f.sections.topo = true := by
    obtain ⟨p, ps, hcons⟩ := List.exists_cons_of_ne_nil hpeers
    simp [State.startWaits, himage, hcons]
  rw [State.progressStart_held hust htopo.1 (htopo.2.trans hup) hwait]
  have hseg : u.exchangeSent.seg = u.seg := u.exchangeSent_evolves.keep .seg (by decide)
  rw [u.exchangeSent_image, hseg, State.exchangeSent_out hust (by rw [himage]; exact hfile) (by rw [himage]), hmsg, hout]
  exact ⟨hust, rfl, hgens, rfl⟩

/-- R48, R49: a job of one module opens tick 0 at its START. -/
theorem State.start_alone {s : State} {f : ImageFile} (h : storeWf 0 s.regs = true) (hst : s.image.st = .loaded)
    (hfile : s.image.file = some f) (hup : s.topoUp = true) (hpeers : topoPeers f.sections.topo = [])
    (hchildren : f.sections.topo.beaconChildren = []) (hparent : f.sections.topo.beaconParent = none)
    (hsize : f.header.jobSize = 1) : s.start.image.st = .running ∧ s.start.tick.ticking = true ∧ s.start.tick.now = 0 ∧
      s.start.tick.step = none ∧ s.start.adm.freePlots = f.sections.plot.poolSize ∧ s.start.bit Reg.LAST_EVENT 2 = true ∧
      s.sameSlabs s.start := by
  obtain ⟨himage, -, -, -, -, hslabs, -, -⟩ := s.armedWith_parts f.sections
  have hwf := (s.armedWith_evolves f.sections).regs h
  have htopo := State.armedWith_topo hst hfile
  rw [State.start_accepted hst hfile]
  generalize s.armedWith f.sections = u at *
  have hust : u.image.st = .armed := by rw [himage]
  have hwait : u.startWaits f.sections.topo = false := by simp [State.startWaits, himage, hpeers, hchildren]
  rw [State.progressStart_on hust htopo.1 (htopo.2.trans hup) hwait]
  have hsent := u.exchangeSent_evolves
  have himage' := u.exchangeSent_image
  generalize u.exchangeSent = v at *
  have himg : ({ v with image := { v.image with sentUp := true } } : State).img = some f := by
    refine State.img_of_armed ?_ ?_
    · exact (congrArg ImageSt.st himage').trans hust
    · refine (congrArg ImageSt.file himage').trans ?_
      rw [himage]
      exact hfile
  have honly : v.startGoesOn f.sections.topo =
      ({ v with image := { v.image with sentUp := true } } : State).openTickZero := by
    have hjob : ({ v with image := { v.image with sentUp := true } } : State).jobSize = 1 := by
      rw [State.jobSize, himg]
      exact hsize
    rw [State.startGoesOn, hparent, hchildren]
    exact if_pos hjob.symm
  rw [honly]
  have hwf' : storeWf 0 ({ v with image := { v.image with sentUp := true } } : State).regs = true := hsent.regs hwf
  obtain ⟨hrun, hticking, hnow, hstep, hplots, hbit⟩ := State.openTickZero_opens hwf'
  have hpool : ({ v with image := { v.image with sentUp := true } } : State).poolSize = f.sections.plot.poolSize := by
    rw [State.poolSize, State.sections?_of_img himg]
    rfl
  refine ⟨hrun, hticking, hnow, hstep, hplots.trans hpool, hbit, ?_⟩
  exact (((hslabs.step hsent).step (State.evolves_image v { v.image with sentUp := true })).step
    (State.openTickZero_evolves _))

/-! ## The exchange is answered -/

theorem exec_startExchangeReply {s : State} {f : ImageFile} (hst : s.image.st = .armed) (hfile : s.image.file = some f)
    (peer : Nat) (reply : ExchangeMsg) : exec (.startExchangeReply peer reply) s = .next
      (if jobDiffers (s.exchangeMsg f) reply then s.startFail 0x15
        else ({ (s.comparePeer f peer reply) with image := { (s.comparePeer f peer reply).image with
          passed := (s.comparePeer f peer reply).image.passed ++ [peer] } } : State).progressStart) := by
  change execStartExchangeReply peer reply s = _
  rw [execStartExchangeReply, State.img_of_armed hst hfile, hst]

/-- R42, R49: what a start that fails leaves. -/
theorem State.startFail_ends {s : State} (h : storeWf 0 s.regs = true) {code : Nat} (hcode : code < 256) :
    (s.startFail code).image.st = .loaded ∧ (s.startFail code).image.exchanged = false ∧
      (s.startFail code).fld Reg.LAST_STATE 15 8 = code ∧ Writes [.regs, .image] [Reg.LAST_STATE] s (s.startFail code) := by
  unfold State.startFail
  have hback := (s.evolves_image { s.image with
    st := .loaded, passed := [], exchanged := false, sentUp := false, childUp := [] }).writes
  have himage (u : State) : (u.imageError code 0).image = u.image := (u.imageError_writes code 0).evolves.keep .image (by decide)
  refine ⟨?_, ?_, (State.fld_imageError (hback.wf h) code 0).1.trans (Nat.mod_eq_of_lt hcode),
    (hback.widen).step (State.imageError_writes _ code 0)⟩ <;> rw [himage]

/-- R42: a peer whose job differs ends the start. -/
theorem startExchangeReply_differs {s : State} {f : ImageFile} (h : storeWf 0 s.regs = true) (hst : s.image.st = .armed)
    (hfile : s.image.file = some f) (peer : Nat) {reply : ExchangeMsg} (hdiffers : jobDiffers (s.exchangeMsg f) reply = true) :
    ∃ t, exec (.startExchangeReply peer reply) s = .next t ∧ t.image.st = .loaded ∧ t.fld Reg.LAST_STATE 15 8 = 0x15 ∧
      s.touches t [.regs, .image] [Reg.LAST_STATE] := by
  obtain ⟨hloaded, -, hcode, hlaw⟩ := State.startFail_ends h (code := 0x15) (by decide)
  refine ⟨_, exec_startExchangeReply hst hfile peer reply, ?_⟩
  rw [if_pos hdiffers]
  exact ⟨hloaded, hcode, hlaw.touches⟩

/-- R42, R315: a peer that agrees is noted. -/
theorem State.comparePeer_notes (s : State) (f : ImageFile) (peer : Nat) (reply : ExchangeMsg) :
    (∃ l, (s.comparePeer f peer reply).image = { s.image with peerUnresolved := l }) ∧
      (reply.unresolved = true ∨ reply.epoch ≠ s.upd.epoch ∨ reply.slabB ≠ s.upd.slabB →
        (s.comparePeer f peer reply).adm.epochPeer = true) := by
  refine ⟨⟨_, rfl⟩, fun hbad => ?_⟩
  have htrue : (reply.unresolved || decide (reply.epoch ≠ (s.exchangeMsg f).epoch) ||
      decide (reply.slabB ≠ (s.exchangeMsg f).slabB)) = true := by
    rw [Bool.or_eq_true, Bool.or_eq_true, decide_eq_true_iff, decide_eq_true_iff, or_assoc]
    exact hbad
  unfold State.comparePeer
  dsimp only
  rw [htrue, if_pos rfl]
  simp

theorem startExchangeReply_agrees {s : State} {f : ImageFile} (hst : s.image.st = .armed) (hfile : s.image.file = some f)
    {peer : Nat} {reply : ExchangeMsg} (hsame : jobDiffers (s.exchangeMsg f) reply = false) (hup : s.topoUp = true)
    (hleft : ∃ p ∈ topoPeers f.sections.topo, p ≠ peer ∧ p ∉ s.image.passed) :
    ∃ t, exec (.startExchangeReply peer reply) s = .next t ∧ t.image.st = .armed ∧
      t.image.passed = s.image.passed ++ [peer] ∧
      (reply.unresolved = true ∨ reply.epoch ≠ s.upd.epoch ∨ reply.slabB ≠ s.upd.slabB → t.adm.epochPeer = true) := by
  refine ⟨_, exec_startExchangeReply hst hfile peer reply, ?_⟩
  rw [if_neg (by simp [hsame])]
  obtain ⟨⟨l, himage⟩, hpeer⟩ := s.comparePeer_notes f peer reply
  have hports : (s.comparePeer f peer reply).pyu = s.pyu := (s.comparePeer_evolves f peer reply).keep .pyu (by decide)
  generalize s.comparePeer f peer reply = u at *
  obtain ⟨v, hv⟩ : ∃ v : State, v = { u with image := { u.image with passed := u.image.passed ++ [peer] } } := ⟨_, rfl⟩
  rw [← hv]
  have hvimage : v.image = { s.image with peerUnresolved := l, passed := s.image.passed ++ [peer] } := by
    rw [hv, himage]
  have hvadm : v.adm = u.adm := by rw [hv]
  have htopo : v.topo? = some f.sections.topo :=
    State.topo?_of_img (State.img_of_armed (by rw [hvimage]; exact hst) (by rw [hvimage]; exact hfile))
  have hvup : v.topoUp = true := by
    refine (State.topoUp_congr (htopo.trans (State.topo?_of_img (State.img_of_armed hst hfile)).symm) ?_).trans hup
    rw [hv]
    exact congrArg PyurnSt.ports hports
  have hwait : v.startWaits f.sections.topo = true := by
    obtain ⟨p, hp, hne, hnot⟩ := hleft
    have hmissing : ((topoPeers f.sections.topo).all v.image.passed.contains) = false := by
      refine List.all_eq_false.mpr ⟨p, hp, ?_⟩
      simp [hvimage, hne, hnot]
    rw [State.startWaits, hmissing]
    simp
  rw [State.progressStart_held (by rw [hvimage]; exact hst) htopo hvup hwait, v.exchangeSent_image]
  have hadm : v.exchangeSent.adm = v.adm := v.exchangeSent_evolves.keep .adm (by decide)
  refine ⟨by rw [hvimage]; exact hst, by rw [hvimage], fun hbad => ?_⟩
  rw [hadm, hvadm]
  exact hpeer hbad

/-! ## The messages of the tree -/

/-- A child's message as it is held (R49). -/
def State.childHeld (s : State) (child n : Nat) : State :=
  { s with image := { s.image with childUp := s.image.childUp.filter (fun e => e.1 ≠ child) ++ [(child, n)] } }

theorem exec_startMessageUp {s : State} (hst : s.image.st = .loaded ∨ s.image.st = .armed) (child n : Nat) :
    exec (.startMessageUp child n) s = .next (s.childHeld child n).progressStart := by
  change execStartMessageUp child n s = _
  obtain h | h := hst <;>
  · rw [execStartMessageUp, h]
    rfl

theorem startMessageUp_held {s : State} (hst : s.image.st = .loaded) (child n : Nat) :
    exec (.startMessageUp child n) s = .next (s.childHeld child n) := by
  rw [exec_startMessageUp (.inl hst), State.progressStart_waiting (.inl ?_)]
  rw [State.childHeld, hst]
  decide

/-- R49: with the last child's message the module's own goes up. -/
theorem startMessageUp_goesUp {s : State} {f : ImageFile} {child p : Nat} (hst : s.image.st = .armed)
    (hfile : s.image.file = some f) (hup : s.topoUp = true) (hexchanged : s.image.exchanged = true)
    (hsent : s.image.sentUp = false) (hpassed : (topoPeers f.sections.topo).all s.image.passed.contains = true)
    (hparent : f.sections.topo.beaconParent = some p) (hchildren : f.sections.topo.beaconChildren = [child])
    (hnone : s.image.childUp = []) (n : Nat) :
    ∃ t, exec (.startMessageUp child n) s = .next t ∧ t.image.sentUp = true ∧ t.image.st = .armed ∧
      t.out = s.out ++ [.startUp p (n + 1)] ∧ s.touches t [.image, .out, .pyu, .bel] [] := by
  refine ⟨_, exec_startMessageUp (.inr hst) child n, ?_⟩
  have himage : (s.childHeld child n).image = { s.image with childUp := [(child, n)] } := by
    rw [State.childHeld, hnone]
    rfl
  have hlaw : Evolves [.image] s (s.childHeld child n) := s.evolves_image _
  have hout : (s.childHeld child n).out = s.out := rfl
  have hpyu : (s.childHeld child n).pyu = s.pyu := rfl
  generalize s.childHeld child n = u at *
  have hust : u.image.st = .armed := by rw [himage]; exact hst
  have htopo : u.topo? = some f.sections.topo :=
    State.topo?_of_img (State.img_of_armed hust (by rw [himage]; exact hfile))
  have huup : u.topoUp = true :=
    (State.topoUp_congr (htopo.trans (State.topo?_of_img (State.img_of_armed hst hfile)).symm)
      (congrArg PyurnSt.ports hpyu)).trans hup
  have hwait : u.startWaits f.sections.topo = false := by
    rw [State.startWaits, himage, hchildren]
    simp [hsent, hpassed]
  have hsame : u.exchangeSent = u := by rw [State.exchangeSent, if_pos (by rw [himage]; exact hexchanged)]
  rw [State.progressStart_on hust htopo huup hwait, hsame]
  have hgoes : u.startGoesOn f.sections.topo =
      ({ u with image := { u.image with sentUp := true } } : State).sendStartUp p (n + 1) := by
    have hcovered : ([child].map fun c => storeGet 0 u.image.childUp c + 1).sum = n + 1 := by
      rw [himage]
      simp [storeGet]
    rw [State.startGoesOn, hparent, hchildren]
    dsimp only
    rw [hcovered]
  rw [hgoes]
  obtain ⟨v, hv⟩ : ∃ v : State, v = { u with image := { u.image with sentUp := true } } := ⟨_, rfl⟩
  have hvimage : v.image = { u.image with sentUp := true } := by rw [hv]
  have hvlaw : Evolves [.image] u v := by
    rw [hv]
    exact u.evolves_image _
  have hvout : v.out = s.out := Eq.trans (hvlaw.keep .out (by decide)) hout
  rw [← hv]
  have hsentUp : (v.sendStartUp p (n + 1)).image = v.image := (v.sendStartUp_evolves p (n + 1)).keep .image (by decide)
  have hup' : (v.sendStartUp p (n + 1)).out = v.out ++ [.startUp p (n + 1)] := by
    rw [State.sendStartUp]
    exact (State.queueBeacon_evolves _ _ _ _).keep .out (by decide)
  have hall := ((hlaw.widen (Q := [.image, .out, .pyu, .bel]) rfl).step hvlaw rfl).step (v.sendStartUp_evolves p (n + 1)) rfl
  rw [hsentUp, hup', hvimage, hvout]
  exact ⟨rfl, hust, rfl, hall.writes.touches⟩

theorem State.sendStartDown_out (l : List Nat) (s : State) {c : Nat} (hc : c ∈ l) : .startDown c ∈ (s.sendStartDown l).out := by
  induction l generalizing s with
  | nil => exact absurd hc List.not_mem_nil
  | cons k ks ih =>
    rw [State.sendStartDown]
    obtain rfl | hks := List.mem_cons.mp hc
    · refine (State.sendStartDown_evolves _ ks).out.subset ?_
      refine (State.queueBeacon_evolves _ _ _ _).out.subset ?_
      simp [State.send]
    · exact ih _ hks

theorem exec_startMessageDown {s : State} {f : ImageFile} (hst : s.image.st = .armed) (hfile : s.image.file = some f)
    (hparent : f.sections.topo.beaconParent.isSome = true) : exec .startMessageDown s =
      .next (s.sendStartDown f.sections.topo.beaconChildren).openTickZero := by
  change execStartMessageDown s = _
  rw [execStartMessageDown, hst, State.topo?_of_img (State.img_of_armed hst hfile)]
  dsimp only
  rw [if_pos hparent]

theorem exec_startTimeout {s : State} (hst : s.image.st = .armed) :
    exec .startTimeout s = .next ((s.startFail 0x17).event Reg.LAST_EVENT 5) := by
  change execStartTimeout s = _
  rw [execStartTimeout, if_pos hst]

/-- R49: a start that is not answered in time fails. -/
theorem startTimeout_ends {s : State} (h : storeWf 0 s.regs = true) (hst : s.image.st = .armed) :
    ∃ t, exec .startTimeout s = .next t ∧ t.image.st = .loaded ∧ t.image.exchanged = false ∧
      t.fld Reg.LAST_STATE 15 8 = 0x17 ∧ t.bit Reg.LAST_EVENT 5 = true ∧
      s.touches t (.image :: Part.signalled) [Reg.LAST_STATE, Reg.LAST_EVENT] := by
  refine ⟨_, exec_startTimeout hst, ?_⟩
  obtain ⟨hloaded, hnone, hcode, hlaw⟩ := State.startFail_ends h (code := 0x17) (by decide)
  generalize s.startFail 0x17 = u at *
  have hevent := u.event_writes Reg.LAST_EVENT 5
  have himage : (u.event Reg.LAST_EVENT 5).image = u.image := hevent.evolves.keep .image (by decide)
  rw [himage]
  exact ⟨hloaded, hnone, (hevent.fld (by decide) 15 8).trans hcode, u.bit_event _ _ (hlaw.wf h) (by decide),
    ((hlaw.widen (Q := .image :: Part.signalled) (M := [Reg.LAST_STATE, Reg.LAST_EVENT])).step hevent).touches⟩

/-- Settles O12: a START arms the image, exchanges with every peer, gathers the tree's messages and opens tick 0. -/
theorem startsRunTheJob : Obligations.StartsRunTheJob := by
  unfold Obligations.StartsRunTheJob
  refine ⟨fun s hinv hhost => ⟨fun hst => ⟨_, exec_start hhost, ?_⟩, fun f hst hfile => ⟨fun hdown => ⟨_, exec_start hhost, ?_⟩,
    fun hup hpeers => ⟨_, exec_start hhost, ?_⟩, fun hup hpeers hchildren hparent hsize => ⟨_, exec_start hhost, ?_⟩⟩⟩,
    fun s f hinv hfile => ⟨fun peer reply hst hdiffers => ?_, fun peer reply hst hsame hup hleft => ?_,
      fun child n hst => startMessageUp_held hst child n,
      fun child n p hst hup hexchanged hsent hpassed hparent hchildren hnone => ?_, fun hst hparent => ?_, fun hst => ?_⟩⟩
  · rw [State.start_ignored hst]
    exact State.cmdIgnored_shows hinv.2
  · exact State.start_waits hst hfile hdown
  · exact State.start_exchanges hst hfile hup hpeers
  · exact State.start_alone hinv.2 hst hfile hup hpeers hchildren hparent hsize
  · exact startExchangeReply_differs hinv.2 hst hfile peer hdiffers
  · exact startExchangeReply_agrees hst hfile hsame hup hleft
  · exact startMessageUp_goesUp hst hfile hup hexchanged hsent hpassed hparent hchildren hnone n
  · refine ⟨_, exec_startMessageDown hst hfile hparent, ?_⟩
    have hdown := s.sendStartDown_evolves f.sections.topo.beaconChildren
    obtain ⟨hrun, hticking, hnow, -, -, hbit⟩ := State.openTickZero_opens (hdown.regs hinv.2)
    have hupd : (s.sendStartDown f.sections.topo.beaconChildren).openTickZero.upd = s.upd :=
      Eq.trans ((State.openTickZero_evolves _).keep .upd (by decide)) (hdown.keep .upd (by decide))
    exact ⟨hrun, hticking, hnow, hbit, fun c hc => (State.openTickZero_evolves _).out.subset (State.sendStartDown_out _ s hc),
      hupd⟩
  · exact startTimeout_ends hinv.2 hst

end Sys2Proof.Machine

/-! Doorbells, their decision and their answer (R66 to R70, R78, R327; O17, O18). -/

namespace Sys2Proof.Machine

set_option Elab.async false

theorem State.regN_setRegN_mod {s : State} (h : storeWf 0 s.regs = true) (o v : Nat) :
    (s.setRegN o v).regN o = v % 2 ^ 64 := by
  rw [State.regN, State.setRegN, s.reg_setReg o _ h, BitVec.toNat_ofNat]

/-! ## The answer -/

/-- The registers that follow an answer's own. -/
abbrev Reg.answered : List Nat := Reg.PCI_AQ_TAIL :: Reg.ADM_EVENT :: Reg.trace

/-- The parts that an answer may change. -/
abbrev Part.answered : List Part := .free :: .bel :: Part.signalled

theorem State.aqWrite_writes (s : State) (tag : Nat) (a : Answer) (seq : Nat) :
    Writes Part.signalled [Reg.PCI_AQ_TAIL] s (s.aqWrite tag a seq) := by
  unfold State.aqWrite
  dsimp only
  exact (((((State.toHost_writes s _).widen).step (State.setRegN_writes _ _ _)).step (State.evolves_host _ _).writes).step
    (State.signal_writes _ _))

theorem State.answer_after (s : State) (tag : Nat) (a : Answer) (seq : Nat) (ring : Bool) :
    Writes Part.answered Reg.answered (s.showAnswer tag a seq) (s.answer tag a seq ring) := by
  unfold State.answer
  dsimp only
  generalize s.showAnswer tag a seq = u
  have htrace := (u.traceBoth_writes 0x04 (tag + 2 ^ 64 * answerBits a seq)).widen (Q := Part.answered) (M := Reg.answered)
  exact (htrace.step (Writes.ite _ (State.aqWrite_writes _ tag a seq) (Writes.refl _))).step (State.event_writes _ _ _)

theorem State.answer_event {s : State} (h : storeWf 0 s.regs = true) (tag : Nat) (a : Answer) (seq : Nat) (ring : Bool) :
    (s.answer tag a seq ring).bit Reg.ADM_EVENT 0 = true := by
  unfold State.answer
  dsimp only
  have hwf := (s.showAnswer_evolves tag a seq).regs h
  generalize s.showAnswer tag a seq = u at *
  refine State.bit_event _ _ _ ?_ (by decide)
  have htrace := (u.traceBoth_writes 0x04 (tag + 2 ^ 64 * answerBits a seq)).wf hwf
  generalize u.traceBoth 0x04 (tag + 2 ^ 64 * answerBits a seq) = v at *
  split
  · exact (v.aqWrite_writes tag a seq).wf htrace
  · exact htrace

/-- R78: what the answer to an accepted ticket shows. -/
theorem State.answer_accept {s : State} (h : storeWf 0 s.regs = true) (tag k dl seq : Nat) (ring : Bool) :
    let t := s.answer tag (.accept k dl) seq ring
    t.regN Reg.ADM_ANSWER = 3 + 65536 * (seq % 65536) ∧ t.regN Reg.ADM_ANS_TAG = tag % 2 ^ 64 ∧
      t.regN Reg.ADM_ANS_SLOT = k % 2 ^ 64 ∧ t.regN Reg.ADM_ANS_DEADLINE = dl % 2 ^ 64 ∧
      t.regN Reg.ADM_ACCEPT_COUNT = min (s.regN Reg.ADM_ACCEPT_COUNT + 1) (2 ^ 32 - 1) := by
  have hafter := s.answer_after tag (.accept k dl) seq ring
  have h1 := s.setRegN_writes Reg.ADM_ANSWER (answerBits (.accept k dl) seq)
  have hanswer := s.regN_setRegN Reg.ADM_ANSWER (answerBits (.accept k dl) seq) h (by
    simp only [answerBits]
    omega)
  have hshow : s.showAnswer tag (.accept k dl) seq =
      ((((s.setRegN Reg.ADM_ANSWER (answerBits (.accept k dl) seq)).setRegN Reg.ADM_ANS_TAG tag).setRegN Reg.ADM_ANS_SLOT
        k).setRegN Reg.ADM_ANS_DEADLINE dl).count Reg.ADM_ACCEPT_COUNT 32 1 := rfl
  rw [hshow] at hafter
  generalize s.setRegN Reg.ADM_ANSWER (answerBits (.accept k dl) seq) = a at *
  have h2 := a.setRegN_writes Reg.ADM_ANS_TAG tag
  have htag := State.regN_setRegN_mod (h1.wf h) Reg.ADM_ANS_TAG tag
  have w2 := h2.wf (h1.wf h)
  generalize a.setRegN Reg.ADM_ANS_TAG tag = b at *
  have h3 := b.setRegN_writes Reg.ADM_ANS_SLOT k
  have hslot := State.regN_setRegN_mod w2 Reg.ADM_ANS_SLOT k
  have w3 := h3.wf w2
  generalize b.setRegN Reg.ADM_ANS_SLOT k = c at *
  have h4 := c.setRegN_writes Reg.ADM_ANS_DEADLINE dl
  have hdeadline := State.regN_setRegN_mod w3 Reg.ADM_ANS_DEADLINE dl
  have w4 := h4.wf w3
  generalize c.setRegN Reg.ADM_ANS_DEADLINE dl = d at *
  have h5 := d.count_writes Reg.ADM_ACCEPT_COUNT 32 1
  have hcount := d.regN_count Reg.ADM_ACCEPT_COUNT 32 1 w4 (by decide)
  generalize d.count Reg.ADM_ACCEPT_COUNT 32 1 = e at *
  refine ⟨?_, ?_, ?_, ?_, ?_⟩
  · rw [hafter.regN (by decide), h5.regN (by decide), h4.regN (by decide), h3.regN (by decide), h2.regN (by decide), hanswer]
    rfl
  · rw [hafter.regN (by decide), h5.regN (by decide), h4.regN (by decide), h3.regN (by decide), htag]
  · rw [hafter.regN (by decide), h5.regN (by decide), h4.regN (by decide), hslot]
  · rw [hafter.regN (by decide), h5.regN (by decide), hdeadline]
  · rw [hafter.regN (by decide), hcount, h4.regN (by decide), h3.regN (by decide), h2.regN (by decide), h1.regN (by decide)]

/-- R78: what a refusal shows. -/
theorem State.answer_refuse {s : State} (h : storeWf 0 s.regs = true) (tag : Nat) {r n : Nat} (hlo : 1 ≤ r) (hhi : r ≤ 6)
    (hn : n ≤ 8) (seq : Nat) (ring : Bool) : let t := s.answer tag (.refuse r n) seq ring
    t.regN Reg.ADM_ANSWER = 1 + 16 * r + 256 * n + 65536 * (seq % 65536) ∧ t.regN Reg.ADM_ANS_TAG = tag % 2 ^ 64 ∧
      t.regN (Reg.ADM_REFUSE + 4 * (r - 1)) = min (s.regN (Reg.ADM_REFUSE + 4 * (r - 1)) + 1) (2 ^ 32 - 1) := by
  have hafter := s.answer_after tag (.refuse r n) seq ring
  have h1 := s.setRegN_writes Reg.ADM_ANSWER (answerBits (.refuse r n) seq)
  have hanswer := s.regN_setRegN Reg.ADM_ANSWER (answerBits (.refuse r n) seq) h (by
    simp only [answerBits]
    omega)
  have hshow : s.showAnswer tag (.refuse r n) seq =
      ((s.setRegN Reg.ADM_ANSWER (answerBits (.refuse r n) seq)).setRegN Reg.ADM_ANS_TAG tag).count
        (Reg.ADM_REFUSE + 4 * (r - 1)) 32 1 := rfl
  rw [hshow] at hafter
  have hplace : ∀ j < 6, Reg.ADM_REFUSE + 4 * j ∉ Reg.ADM_ANSWER :: Reg.ADM_ANS_TAG :: Reg.answered := by decide
  have hne : ∀ j < 6, Reg.ADM_ANSWER ∉ [Reg.ADM_REFUSE + 4 * j] ∧ Reg.ADM_ANS_TAG ∉ [Reg.ADM_REFUSE + 4 * j] := by decide
  have hout := hplace (r - 1) (by omega)
  obtain ⟨hneanswer, hnetag⟩ := hne (r - 1) (by omega)
  generalize Reg.ADM_REFUSE + 4 * (r - 1) = o at *
  obtain ⟨hoanswer, hrest⟩ := not_or.mp (fun h => hout (List.mem_cons.mpr h))
  obtain ⟨hotag, horest⟩ := not_or.mp (fun h => hrest (List.mem_cons.mpr h))
  generalize s.setRegN Reg.ADM_ANSWER (answerBits (.refuse r n) seq) = a at *
  have h2 := a.setRegN_writes Reg.ADM_ANS_TAG tag
  have htag := State.regN_setRegN_mod (h1.wf h) Reg.ADM_ANS_TAG tag
  have w2 := h2.wf (h1.wf h)
  generalize a.setRegN Reg.ADM_ANS_TAG tag = b at *
  have h3 := b.count_writes o 32 1
  have hcount := b.regN_count o 32 1 w2 (by decide)
  generalize b.count o 32 1 = c at *
  refine ⟨?_, ?_, ?_⟩
  · rw [hafter.regN (by decide), h3.regN hneanswer, h2.regN (by decide), hanswer]
    rfl
  · rw [hafter.regN (by decide), h3.regN hnetag, htag]
  · rw [hafter.regN horest, hcount, h2.regN (by simpa using hotag), h1.regN (by simpa using hoanswer)]

/-! ## Doorbells -/

theorem exec_ticketDoorbell {s : State} (hhost : s.hosted) :
    exec .ticketDoorbell s = .next (s.doorbell s.ticketRegs false) := by
  change execTicketDoorbell s = _
  rw [execTicketDoorbell, State.onHost_of_hosted hhost]

/-- A doorbell counts, and makes ADM_ANSWER invalid. -/
def State.rung (s : State) : State :=
  ({ s with adm := { s.adm with seq := s.adm.seq + 1 } } : State).setBit Reg.ADM_ANSWER 0 false

theorem State.rung_writes (s : State) : Writes [.regs, .adm] [Reg.ADM_ANSWER] s s.rung :=
  ((s.evolves_adm { s.adm with seq := s.adm.seq + 1 }).writes.widen).step (State.setBit_writes _ _ _ _)

theorem State.rung_answer {s : State} (h : storeWf 0 s.regs = true) : s.rung.bit Reg.ADM_ANSWER 0 = false := by
  have hbit := State.bit_setFld ({ s with adm := { s.adm with seq := s.adm.seq + 1 } } : State) Reg.ADM_ANSWER (hi := 0)
    (lo := 0) 0 0 h (by decide)
  rw [if_pos ⟨le_refl _, le_refl _⟩] at hbit
  exact hbit

theorem State.doorbell_decided {s : State} (h : s.adm.bells.length < 8) (t : Ticket) (ring : Bool) : s.doorbell t ring =
    { s.rung.acceptTicket t (s.gateDecide t) with adm := { (s.rung.acceptTicket t (s.gateDecide t)).adm with
        bells := (s.rung.acceptTicket t (s.gateDecide t)).adm.bells ++ [⟨t, ring, s.adm.seq + 1, s.gateDecide t⟩] } } := by
  rw [State.doorbell, if_neg (by omega)]
  rfl

theorem State.doorbell_full {s : State} (h : 8 ≤ s.adm.bells.length) (t : Ticket) (ring : Bool) :
    s.doorbell t ring = s.rung.answer t.tag (.refuse 1 6) (s.adm.seq + 1) ring := by
  rw [State.doorbell, if_pos h]
  rfl

/-- R67 to R70: a doorbell is its ticket's decision instant. -/
theorem State.doorbell_decides {s : State} (hwf : storeWf 0 s.regs = true) (h : s.adm.bells.length < 8) (x : Ticket)
    (ring : Bool) : let t := s.doorbell x ring
      t.adm.bells = s.adm.bells ++ [⟨x, ring, s.adm.seq + 1, s.gateDecide x⟩] ∧
      t.adm.seq = s.adm.seq + 1 ∧ t.adm.unread = s.adm.unread ∧ t.adm.gate = s.adm.gate ∧
      (∀ k dl, s.gateDecide x = .accept k dl → t.adm.accepted = s.adm.accepted ++ [(k, x)] ∧
        t.adm.freePlots = s.adm.freePlots - x.plots) ∧
      (∀ r n, s.gateDecide x = .refuse r n → t.adm.accepted = s.adm.accepted ∧ t.adm.freePlots = s.adm.freePlots) ∧
      t.bit Reg.ADM_ANSWER 0 = false ∧ s.touches t [.regs, .adm] [Reg.ADM_ANSWER] := by
  have hbit := State.rung_answer hwf
  have hadm : s.rung.adm = { s.adm with seq := s.adm.seq + 1 } := rfl
  have hrung := s.rung_writes
  rw [State.doorbell_decided h]
  generalize s.rung = u at *
  have hlaw := (hrung.step (u.acceptTicket_evolves x (s.gateDecide x)).writes).step (State.evolves_adm _
    { (u.acceptTicket x (s.gateDecide x)).adm with
        bells := (u.acceptTicket x (s.gateDecide x)).adm.bells ++ [⟨x, ring, s.adm.seq + 1, s.gateDecide x⟩] }).writes
  have hregs : (u.acceptTicket x (s.gateDecide x)).regs = u.regs := (u.acceptTicket_evolves x _).keep .regs (by decide)
  have hbit' : (u.acceptTicket x (s.gateDecide x)).bit Reg.ADM_ANSWER 0 = false :=
    (State.bit_of_regs _ _ _ _ hregs).trans hbit
  cases hdecide : s.gateDecide x with
  | accept k dl =>
    rw [hdecide] at hlaw hbit'
    have hacc : (u.acceptTicket x (.accept k dl)).adm = { u.adm with
      accepted := u.adm.accepted ++ [(k, x)], freePlots := u.adm.freePlots - x.plots } := rfl
    dsimp only
    rw [hacc, hadm]
    refine ⟨rfl, rfl, rfl, rfl, fun k' dl' heq => ?_, fun r n heq => (nomatch heq), hbit', ?_⟩
    · obtain ⟨rfl, rfl⟩ := Answer.accept.inj heq
      exact ⟨rfl, rfl⟩
    · rw [hacc, hadm] at hlaw
      exact hlaw.touches
  | refuse r n =>
    rw [hdecide] at hlaw hbit'
    have hsame : u.acceptTicket x (.refuse r n) = u := rfl
    rw [hsame] at hlaw ⊢
    dsimp only
    rw [hadm]
    refine ⟨rfl, rfl, rfl, rfl, fun k dl heq => (nomatch heq), fun r' n' _ => ⟨rfl, rfl⟩, hbit, ?_⟩
    rw [hadm] at hlaw
    exact hlaw.touches

/-- R67: with eight pending a doorbell is refused at once. -/
theorem State.doorbell_refused {s : State} (hwf : storeWf 0 s.regs = true) (h : 8 ≤ s.adm.bells.length) (ring : Bool) :
    let t := s.doorbell s.ticketRegs ring
    t.adm = { s.adm with seq := s.adm.seq + 1 } ∧ t.fld Reg.ADM_ANSWER 3 0 = 1 ∧ t.fld Reg.ADM_ANSWER 7 4 = 1 ∧
      t.fld Reg.ADM_ANSWER 15 8 = 6 ∧ t.fld Reg.ADM_ANSWER 31 16 = (s.adm.seq + 1) % 65536 ∧
      t.reg Reg.ADM_ANS_TAG = s.reg Reg.ADM_TKT_TAG ∧
      t.regN Reg.ADM_REFUSE = min (s.regN Reg.ADM_REFUSE + 1) (2 ^ 32 - 1) ∧ t.bit Reg.ADM_EVENT 0 = true ∧
      s.keeps t ([.adm, .free, .bel] ++ Part.signalled) := by
  have hrung := s.rung_writes
  have hadm : s.rung.adm = { s.adm with seq := s.adm.seq + 1 } := rfl
  rw [State.doorbell_full h]
  generalize s.rung = u at *
  have hwf' := hrung.wf hwf
  obtain ⟨hanswer, htag, hcount⟩ := State.answer_refuse hwf' s.ticketRegs.tag (r := 1) (n := 6) (by decide) (by decide)
    (by decide) (s.adm.seq + 1) ring
  have hevent := State.answer_event hwf' s.ticketRegs.tag (.refuse 1 6) (s.adm.seq + 1) ring
  have hlaw := u.answer_evolves s.ticketRegs.tag (.refuse 1 6) (s.adm.seq + 1) ring
  generalize u.answer s.ticketRegs.tag (.refuse 1 6) (s.adm.seq + 1) ring = t at *
  have hkept : t.adm = u.adm := hlaw.keep .adm (by decide)
  have hall := (hrung.evolves.widen (Q := [.adm, .free, .bel] ++ Part.signalled) rfl).step hlaw rfl
  refine ⟨hkept.trans hadm, ?_, ?_, ?_, ?_, ?_, ?_, hevent, hall.keep⟩
  · rw [State.fld, hanswer]
    simp only [bits]
    omega
  · rw [State.fld, hanswer]
    simp only [bits]
    omega
  · rw [State.fld, hanswer]
    simp only [bits]
    omega
  · rw [State.fld, hanswer]
    simp only [bits]
    omega
  · exact BitVec.eq_of_toNat_eq (htag.trans (Nat.mod_eq_of_lt (s.reg Reg.ADM_TKT_TAG).isLt))
  · rw [← hrung.regN (by decide)]
    exact hcount

theorem exec_ticketDecision {s : State} {d : Doorbell} {ds : List Doorbell} (h : s.adm.bells = d :: ds) :
    exec .ticketDecision s =
      .next (({ s with adm := { s.adm with bells := ds } } : State).answer d.ticket.tag d.answer d.seq d.ring) := by
  change execTicketDecision s = _
  rw [execTicketDecision, h]

/-- An answer takes its doorbell from those pending and leaves the rest of the gate alone. -/
theorem State.decided_leaves (s : State) (bells : List Doorbell) (tag : Nat) (a : Answer) (seq : Nat) (ring : Bool) :
    (({ s with adm := { s.adm with bells := bells } } : State).answer tag a seq ring).adm = { s.adm with bells := bells } ∧
      s.keeps (({ s with adm := { s.adm with bells := bells } } : State).answer tag a seq ring)
        ([.adm, .free, .bel] ++ Part.signalled) := by
  have hlaw := State.answer_evolves ({ s with adm := { s.adm with bells := bells } } : State) tag a seq ring
  exact ⟨hlaw.keep .adm (by decide), (((s.evolves_adm _).widen rfl).step hlaw rfl).keep⟩

/-- Settles O17: a doorbell is decided at once, and its answer is written in its turn. -/
theorem doorbellsAreDecided : Obligations.DoorbellsAreDecided := by
  unfold Obligations.DoorbellsAreDecided
  refine ⟨fun s hinv hhost => ⟨fun h => ⟨_, exec_ticketDoorbell hhost, State.doorbell_decides hinv.2 h _ _⟩, fun h =>
    ⟨_, exec_ticketDoorbell hhost, State.doorbell_refused hinv.2 h _⟩⟩, fun s d ds hinv hbells => ⟨fun k dl hd => ?_,
      fun r n hd hlo hhi hn => ?_⟩⟩
  · refine ⟨_, exec_ticketDecision hbells, ?_⟩
    rw [hd]
    obtain ⟨hadm, hkeeps⟩ := s.decided_leaves ds d.ticket.tag (.accept k dl) d.seq d.ring
    have hwf : storeWf 0 ({ s with adm := { s.adm with bells := ds } } : State).regs = true := hinv.2
    obtain ⟨hanswer, htag, hslot, hdeadline, hcount⟩ := State.answer_accept hwf d.ticket.tag k dl d.seq d.ring
    exact ⟨hadm, hanswer, htag, hslot, hdeadline, hcount, State.answer_event hwf _ _ _ _, hkeeps⟩
  · refine ⟨_, exec_ticketDecision hbells, ?_⟩
    rw [hd]
    obtain ⟨hadm, hkeeps⟩ := s.decided_leaves ds d.ticket.tag (.refuse r n) d.seq d.ring
    have hwf : storeWf 0 ({ s with adm := { s.adm with bells := ds } } : State).regs = true := hinv.2
    obtain ⟨hanswer, htag, hcount⟩ := State.answer_refuse hwf d.ticket.tag hlo hhi hn d.seq d.ring
    exact ⟨hadm, hanswer, htag, hcount, State.answer_event hwf _ _ _ _, hkeeps⟩

/-! ## The decision -/

theorem ite_some_eq_none {α : Type} {c : Prop} [Decidable c] {a : α} {b : Option α} :
    (if c then some a else b) = none ↔ ¬ c ∧ b = none := by
  split <;> simp [*]

/-- What holds of each value that a chain of tests gives holds of the one it gives. -/
theorem ite_some_imp {α : Type} {c : Prop} [Decidable c] {P : α → Prop} {a x : α} {b : Option α} (ha : P a)
    (hb : b = some x → P x) : (if c then some a else b) = some x → P x := by
  split
  · rintro ⟨⟩
    exact ha
  · exact hb

/-- A ticket that no test of code 3, 6, 4 or 2 refuses has its image RUNNING, and no gate condition. -/
theorem State.gateRefusal_none {s : State} {t : Ticket} (h : s.gateRefusal t = none) : s.image.st = .running ∧
    t.imageId = (s.img.map fun f => f.header.imageId).getD 0 ∧ s.adm.gate = 0 := by
  unfold State.gateRefusal at h
  simp only [ite_some_eq_none] at h
  obtain ⟨hheld, hid, hretired, h0, h1, h2, h3, h4, h5, h6, h7, -⟩ := h
  refine ⟨?_, not_not.mp hid, ?_⟩
  · by_contra hrun
    exact hheld ⟨hrun, hretired⟩
  · refine BitVec.eq_of_getLsbD_eq fun i hi => ?_
    rw [show BitVec.getLsbD (0 : BitVec 8) i = false from BitVec.getLsbD_zero]
    rw [Bool.not_eq_true] at h0 h1 h2 h3 h4 h5 h6 h7
    interval_cases i <;> assumption

/-- The codes and details of R68. -/
def Answer.refused (a : Answer) : Prop := ∃ r n, a = .refuse r n ∧ 1 ≤ r ∧ r ≤ 6 ∧ n ≤ 8

theorem Answer.refused_of (r n : Nat) (h : (1 ≤ r ∧ r ≤ 6) ∧ n ≤ 8) : (Answer.refuse r n).refused :=
  ⟨r, n, rfl, h.1.1, h.1.2, h.2⟩

/-- A refusal of code 3, 6, 4 or 2. -/
theorem State.gateRefusal_refused {s : State} {t : Ticket} {a : Answer} : s.gateRefusal t = some a → a.refused := by
  unfold State.gateRefusal
  dsimp only
  iterate 11 refine ite_some_imp (Answer.refused_of _ _ (by decide)) ?_
  exact fun h => nomatch h

/-- What a slot that carries a ticket meets (R66, R68, R69). -/
structure State.slotFits (s : State) (x : Ticket) (k : Nat) : Prop where
  room : s.adm.unread.length + s.adm.accepted.length < 16
  waiting : s.waitingAfter s.slotNow < 4
  binding : s.tick.now + 1 < k * s.stepLen
  horizon : k ≤ s.slotNow + 5
  free : s.slotTaken k = false
  untested : k ∉ s.heldSlots
  asked : x.slot ≠ 2 ^ 64 - 1 → k = x.slot
  alone : x.slot = 2 ^ 64 - 1 → s.jobSize ≤ 1

theorem State.mem_qualifying {s : State} {c t k : Nat} (h : k ∈ s.qualifying c t) :
    k ≤ c + 5 ∧ t + 1 < k * s.stepLen ∧ s.slotTaken k = false := by
  obtain ⟨hmem, hcond⟩ := List.mem_filter.mp h
  obtain ⟨i, hi, rfl⟩ := List.mem_map.mp hmem
  have := List.mem_range.mp hi
  rw [Bool.and_eq_true, decide_eq_true_iff, Bool.not_eq_true'] at hcond
  exact ⟨by omega, hcond⟩

theorem State.queueCheck_fits {s : State} {x : Ticket} {k : Nat} (h : s.queueCheck x = .inl k) : s.slotFits x k := by
  unfold State.queueCheck earliestFree at h
  dsimp only at h
  split at h
  · cases h
  next halone =>
  split at h
  · cases h
  next hroom =>
  split at h
  · cases h
  next hwaiting =>
  split at h
  next hearliest =>
    split at h
    · next j hfind =>
      obtain rfl := Sum.inl.inj h
      obtain ⟨hhorizon, hbinding, hfree⟩ := State.mem_qualifying (List.mem_of_find?_eq_some hfind)
      have hheld := List.find?_some hfind
      exact ⟨by omega, by omega, hbinding, hhorizon, hfree, by simpa using hheld, fun hne => absurd hearliest hne,
        fun _ => by omega⟩
    · cases h
  next hasked =>
    split at h
    · cases h
    next hbinding =>
    split at h
    · cases h
    next hhorizon =>
    split at h
    · cases h
    next hfree =>
    split at h
    · cases h
    next hheld =>
    obtain rfl := Sum.inl.inj h
    exact ⟨by omega, by omega, by omega, by omega, by simpa using hfree, by simpa using hheld, fun _ => rfl,
      fun heq => absurd heq hasked⟩

/-- A refusal of code 1. -/
theorem State.queueCheck_refused {s : State} {x : Ticket} {a : Answer} (h : s.queueCheck x = .inr a) : a.refused := by
  unfold State.queueCheck at h
  dsimp only at h
  repeat' split at h
  all_goals cases h
  all_goals exact Answer.refused_of _ _ (by decide)

/-- R68 to R70: the gate accepts a ticket that fits a slot, and whose plots are free. -/
theorem State.gateDecide_accept {s : State} {t : Ticket} {k dl : Nat} (h : s.gateDecide t = .accept k dl) :
    s.gateRefusal t = none ∧ s.slotFits t k ∧ t.plots ≤ s.adm.freePlots ∧ dl = s.deadline k := by
  unfold State.gateDecide at h
  split at h
  · next hgate =>
    obtain ⟨r, n, rfl, -⟩ := State.gateRefusal_refused hgate
    cases h
  · next hgate =>
    split at h
    · next hqueue =>
      obtain ⟨r, n, rfl, -⟩ := State.queueCheck_refused hqueue
      cases h
    · next hqueue =>
      split at h
      · cases h
      · next hplots =>
        obtain ⟨rfl, rfl⟩ := Answer.accept.inj h
        exact ⟨hgate, State.queueCheck_fits hqueue, Nat.not_lt.mp hplots, rfl⟩

theorem State.gateDecide_refuse {s : State} {t : Ticket} {r n : Nat} (h : s.gateDecide t = .refuse r n) :
    (Answer.refuse r n).refused := by
  unfold State.gateDecide at h
  split at h
  · next hgate => exact h ▸ State.gateRefusal_refused hgate
  · split at h
    · next hqueue => exact h ▸ State.queueCheck_refused hqueue
    · split at h
      · exact h ▸ Answer.refused_of 5 0 (by decide)
      · cases h

/-- Settles O18: what an accepted ticket meets, and the codes of a refusal. -/
theorem acceptedTicketsFit : Obligations.AcceptedTicketsFit := by
  unfold Obligations.AcceptedTicketsFit
  refine ⟨fun s t k dl h => ?_, fun s t r n h => ?_⟩
  · obtain ⟨hgate, hfits, hplots, rfl⟩ := State.gateDecide_accept h
    obtain ⟨hrun, hid, hnone⟩ := State.gateRefusal_none hgate
    exact ⟨hrun, hid, hnone, hfits.room, hfits.waiting, hfits.binding, hfits.horizon, hfits.free, hfits.untested, hplots, rfl,
      hfits.asked, hfits.alone⟩
  · obtain ⟨r', n', heq, hbounds⟩ := State.gateDecide_refuse h
    obtain ⟨rfl, rfl⟩ := Answer.refuse.inj heq
    exact hbounds

end Sys2Proof.Machine

/-! Completion pops, self-tests and scans (R76, R163, R190, R232, R328; O19). -/

namespace Sys2Proof.Machine

set_option Elab.async false

/-! ## Pops -/

theorem exec_admDonePop {s : State} (hhost : s.hosted) : exec .admDonePop s = .next s.donePop := by
  change execAdmDonePop s = _
  rw [execAdmDonePop, State.onHost_of_hosted hhost]

/-- R78, R328: a pop removes the oldest unread record, and PCI_CQ_HEAD passes it where the ring holds it. -/
theorem State.donePop_pops {s : State} (h : storeWf 0 s.regs = true) (hunread : s.adm.unread ≠ []) :
    s.donePop.adm.unread = s.adm.unread.tail ∧ s.donePop.adm.accepted = s.adm.accepted ∧
      s.donePop.regN Reg.PCI_CQ_HEAD = (if s.regN Reg.PCI_CQ_HEAD = s.regN Reg.PCI_CQ_TAIL then s.regN Reg.PCI_CQ_HEAD
        else (s.regN Reg.PCI_CQ_HEAD + 1) % 65536) ∧ s.touches s.donePop [.regs, .adm] [Reg.PCI_CQ_HEAD] := by
  have hpop : Writes [.regs, .adm] [Reg.PCI_CQ_HEAD] s (s.popUnread 1) := ((s.popUnread_evolves 1).writes).widen
  have hadm : (s.popUnread 1).adm = { s.adm with unread := s.adm.unread.tail } := by
    rw [State.popUnread, List.drop_one]
  have hhead : (s.popUnread 1).regN Reg.PCI_CQ_HEAD = s.regN Reg.PCI_CQ_HEAD := rfl
  rw [State.donePop, if_neg (by simpa using hunread)]
  dsimp only
  generalize s.popUnread 1 = u at *
  split
  · exact ⟨by rw [hadm], by rw [hadm], hhead, hpop.touches⟩
  · refine ⟨?_, ?_, ?_, (hpop.step (State.setRegN_writes _ _ _)).touches⟩
    · rw [State.setRegN_adm, hadm]
    · rw [State.setRegN_adm, hadm]
    · exact u.regN_setRegN _ _ (hpop.wf h) (by omega)

/-! ## The status of a test -/

theorem State.testStatus_congr {s t : State} {h : Held} (hreg : t.reg (testReg h) = s.reg (testReg h)) :
    t.testStatus h = s.testStatus h := State.fld_of_reg hreg 3 1

theorem State.testStatus_set {s : State} (hwf : storeWf 0 s.regs = true) (h : Held) {code : Nat} (hcode : code < 8) :
    (s.setTestStatus h code).testStatus h = code := s.fld_setFld (testReg h) hwf (by decide) hcode

/-- Each test has a register of its own. -/
theorem testReg_inj {g h : Held} (hne : g ≠ h) : testReg g ≠ testReg h := by
  revert g h
  intro g h
  cases g <;> cases h <;> simp [testReg, Reg.ME_TEST_CTRL, Reg.VE_TEST_CTRL, Reg.MEM_TEST_CTRL, Reg.MEM_SCAN_CTRL]

theorem State.setTestStatus_writes (s : State) (h : Held) (code : Nat) :
    Writes [.regs] [testReg h] s (s.setTestStatus h code) := s.setFld_writes _ _ _ _

/-- What the start of a test leaves (R76). -/
theorem State.startTest_starts {s : State} (hwf : storeWf 0 s.regs = true) (h : Held) :
    (s.startTest h).testStatus h = 1 ∧ (s.startTest h).adm.waiting = s.adm.waiting ∧
      (s.image.st ≠ .running → (s.startTest h).adm.slots = s.adm.slots) ∧
      Writes [.regs, .adm] [testReg h] s (s.startTest h) := by
  have hset := (s.setTestStatus_writes h 1).widen (Q := [.regs, .adm]) (M := [testReg h])
  have hstatus := State.testStatus_set hwf h (code := 1) (by decide)
  have hadm : (s.setTestStatus h 1).adm = s.adm := rfl
  unfold State.startTest
  dsimp only
  generalize s.setTestStatus h 1 = u at *
  split
  · next hrun =>
    have hwaiting : u.adm.waiting = s.adm.waiting := by rw [hadm]
    exact ⟨hstatus, hwaiting, fun hne => absurd hrun hne, hset.step (State.evolves_adm _ _).writes⟩
  · exact ⟨hstatus, congrArg AdmSt.waiting hadm, fun _ => congrArg AdmSt.slots hadm, hset⟩

/-- A march test that an image bars is refused (R232). -/
theorem State.refuseMarch_shows {s : State} (hwf : storeWf 0 s.regs = true) :
    s.refuseMarch.testStatus .memTest = 0 ∧ s.refuseMarch.bit Reg.MEM_TEST_CTRL 16 = true ∧
      Writes [.regs] [Reg.MEM_TEST_CTRL] s s.refuseMarch := by
  have hset := s.setTestStatus_writes .memTest 0
  have hstatus := State.testStatus_set hwf .memTest (code := 0) (by decide)
  unfold State.refuseMarch
  generalize s.setTestStatus .memTest 0 = u at *
  refine ⟨(State.fld_setFld_ne _ _ _ (hset.wf hwf) (by decide) (.inl (by decide))).trans hstatus, ?_,
    hset.step (State.setFld_writes _ _ _ _ _) (hl := fun _ h => h)⟩
  have hbit := u.bit_setFld Reg.MEM_TEST_CTRL (hi := 16) (lo := 16) 1 16 (hset.wf hwf) (by decide)
  rw [if_pos ⟨le_refl _, le_refl _⟩] at hbit
  exact hbit

theorem State.marchRefused_congr {s t : State} (himage : t.image = s.image) (hhbm : t.hbm.inService = s.hbm.inService)
    (ctrl : Nat) : t.marchRefused ctrl = s.marchRefused ctrl := by
  unfold State.marchRefused State.touchesInService
  rw [himage, hhbm]

/-- One held request starts, or is a march test that is refused. -/
theorem State.startOne_starts {s : State} (hwf : storeWf 0 s.regs = true) (h : Held) :
    ((h ≠ .memTest ∨ s.marchRefused s.hbm.testCtrl = false) → (s.startOne h).testStatus h = 1) ∧
      (h = .memTest → s.marchRefused s.hbm.testCtrl = true →
        (s.startOne h).testStatus .memTest = 0 ∧ (s.startOne h).bit Reg.MEM_TEST_CTRL 16 = true) ∧
      (s.startOne h).adm.waiting = s.adm.waiting ∧
      (s.image.st ≠ .running → (s.startOne h).adm.slots = s.adm.slots) ∧
      Writes [.regs, .adm] [testReg h] s (s.startOne h) := by
  unfold State.startOne
  split
  · next hrefused =>
    obtain ⟨rfl, hrefused⟩ := hrefused
    obtain ⟨hstatus, hbit, hlaw⟩ := State.refuseMarch_shows hwf
    have hadm : s.refuseMarch.adm = s.adm := rfl
    refine ⟨fun h => ?_, fun _ _ => ⟨hstatus, hbit⟩, congrArg AdmSt.waiting hadm, fun _ => congrArg AdmSt.slots hadm,
      hlaw.widen (hl := fun _ h => h)⟩
    obtain h | h := h
    · exact absurd rfl h
    · exact absurd hrefused (by simp [h])
  · next hstarts =>
    obtain ⟨hstatus, hwaiting, hslots, hlaw⟩ := State.startTest_starts hwf h
    exact ⟨fun _ => hstatus, fun hmem hrefused => absurd ⟨hmem, hrefused⟩ hstarts, hwaiting, hslots, hlaw⟩

/-- The registers of the tests. -/
abbrev Reg.tests : List Nat := [Reg.ME_TEST_CTRL, Reg.VE_TEST_CTRL, Reg.MEM_TEST_CTRL, Reg.MEM_SCAN_CTRL]

theorem testReg_mem (h : Held) : testReg h ∈ Reg.tests := by cases h <;> decide

/-- R76: the held requests start in order. -/
theorem State.startHeld_starts (hs : List Held) {s : State} (hwf : storeWf 0 s.regs = true) :
    (∀ h ∈ hs, (h ≠ .memTest ∨ s.marchRefused s.hbm.testCtrl = false) → (s.startHeld hs).testStatus h = 1) ∧
      (.memTest ∈ hs → s.marchRefused s.hbm.testCtrl = true → (s.startHeld hs).testStatus .memTest = 0 ∧
        (s.startHeld hs).bit Reg.MEM_TEST_CTRL 16 = true) ∧
      (∀ h ∉ hs, (s.startHeld hs).reg (testReg h) = s.reg (testReg h)) ∧
      (s.startHeld hs).adm.waiting = s.adm.waiting ∧
      (s.image.st ≠ .running → (s.startHeld hs).adm.slots = s.adm.slots) ∧
      Writes [.regs, .adm] Reg.tests s (s.startHeld hs) := by
  induction hs generalizing s with
  | nil => exact ⟨fun _ h => absurd h List.not_mem_nil, fun h => absurd h List.not_mem_nil, fun _ _ => rfl, rfl, fun _ => rfl,
      Writes.refl s⟩
  | cons h hs ih =>
    obtain ⟨hone, hrefuse, hwaiting, hslots, hlaw⟩ := State.startOne_starts hwf h
    rw [State.startHeld]
    generalize s.startOne h = u at *
    have himage : u.image = s.image := hlaw.evolves.keep .image (by decide)
    have hhbm : u.hbm = s.hbm := hlaw.evolves.keep .hbm (by decide)
    have hmarch : u.marchRefused u.hbm.testCtrl = s.marchRefused s.hbm.testCtrl := by
      rw [State.marchRefused_congr himage (by rw [hhbm]), hhbm]
    obtain ⟨hall, hmarched, hrest, hwaiting', hslots', hlaw'⟩ := ih (hlaw.wf hwf)
    rw [hmarch] at hall hmarched
    have hreg : ∀ g, g ≠ h → u.reg (testReg g) = s.reg (testReg g) := fun g hg => hlaw.reg (by simpa using testReg_inj hg)
    refine ⟨fun g hg hok => ?_, fun hmem hrefused => ?_, fun g hg => ?_, hwaiting'.trans hwaiting, fun hrun => ?_,
      (hlaw.widen (M := Reg.tests) (hl := fun o ho => by rw [List.mem_singleton.mp ho]; exact testReg_mem h)).step hlaw'
        (hl := fun _ h => h)⟩
    · by_cases hgs : g ∈ hs
      · exact hall g hgs hok
      · obtain rfl : g = h := by simpa [hgs] using hg
        exact (State.testStatus_congr (hrest g hgs)).trans (hone hok)
    · by_cases hgs : .memTest ∈ hs
      · exact hmarched hgs hrefused
      · obtain rfl : Held.memTest = h := by simpa [hgs] using hmem
        obtain ⟨hstatus, hbit⟩ := hrefuse rfl hrefused
        exact ⟨(State.testStatus_congr (hrest _ hgs)).trans hstatus, (State.bit_of_reg (hrest _ hgs) 16).trans hbit⟩
    · obtain ⟨hne, hnot⟩ := not_or.mp (fun h => hg (List.mem_cons.mpr h))
      exact (hrest g hnot).trans (hreg g hne)
    · exact (hslots' (by rw [himage]; exact hrun)).trans (hslots hrun)

theorem exec_deferredRequestStart {s : State} (hidle : s.idle = true) (hstep : 8 ≤ s.boot.step) :
    exec .deferredRequestStart s =
      .next (({ s with adm := { s.adm with waiting := [] } } : State).startHeld s.adm.waiting) := by
  change execDeferredRequestStart s = _
  rw [execDeferredRequestStart, if_pos (by simp [hidle, hstep])]

theorem deferredRequestStart_starts {s : State} (hwf : storeWf 0 s.regs = true) (hidle : s.idle = true) (hstep : 8 ≤ s.boot.step) :
    ∃ t, exec .deferredRequestStart s = .next t ∧ t.adm.waiting = [] ∧
      (∀ h ∈ s.adm.waiting, (h ≠ .memTest ∨ s.marchRefused s.hbm.testCtrl = false) → t.testStatus h = 1) ∧
      (.memTest ∈ s.adm.waiting → s.marchRefused s.hbm.testCtrl = true → t.testStatus .memTest = 0 ∧
        t.bit Reg.MEM_TEST_CTRL 16 = true) ∧ (s.image.st ≠ .running → t.adm.slots = s.adm.slots) ∧
      s.touches t [.regs, .adm] Reg.tests := by
  refine ⟨_, exec_deferredRequestStart hidle hstep, ?_⟩
  have hfreed := (s.evolves_adm { s.adm with waiting := [] }).writes.widen (Q := [.regs, .adm]) (M := Reg.tests)
  obtain ⟨u, hu⟩ : ∃ u : State, u = { s with adm := { s.adm with waiting := [] } } := ⟨_, rfl⟩
  rw [← hu] at hfreed ⊢
  have hadm : u.adm = { s.adm with waiting := [] } := by rw [hu]
  have himage : u.image = s.image := hfreed.evolves.keep .image (by decide)
  have hhbm : u.hbm = s.hbm := hfreed.evolves.keep .hbm (by decide)
  have hmarch : u.marchRefused u.hbm.testCtrl = s.marchRefused s.hbm.testCtrl := by
    rw [State.marchRefused_congr himage (by rw [hhbm]), hhbm]
  obtain ⟨hall, hmarched, -, hwaiting, hslots, hlaw⟩ := State.startHeld_starts s.adm.waiting (hfreed.wf hwf)
  rw [hmarch] at hall hmarched
  rw [himage, hadm] at hslots
  exact ⟨by rw [hwaiting, hadm], hall, hmarched, hslots, (hfreed.step hlaw (hl := fun _ h => h)).touches⟩

/-! ## A request for a test -/

theorem State.deferTest_waits {s : State} (hwf : storeWf 0 s.regs = true) (h : Held) :
    (s.deferTest h).testStatus h = 2 ∧ (s.deferTest h).adm = { s.adm with waiting := s.adm.waiting ++ [h] } ∧
      Writes [.regs, .adm] [testReg h] s (s.deferTest h) := by
  have hset := (s.setTestStatus_writes h 2).widen (Q := [.regs, .adm]) (M := [testReg h])
  have hstatus := State.testStatus_set hwf h (code := 2) (by decide)
  have hadm : (s.setTestStatus h 2).adm = s.adm := rfl
  unfold State.deferTest
  dsimp only
  generalize s.setTestStatus h 2 = u at *
  exact ⟨hstatus, by rw [hadm], hset.step (State.evolves_adm _ _).writes⟩

theorem State.requestTest_ignored {s : State} {h : Held} (hbusy : s.testStatus h = 1 ∨ s.testStatus h = 2) :
    s.requestTest h = s := by
  rw [State.requestTest, if_pos hbusy]

/-- R76: a request starts at once on an idle module that is ready, and waits on any other. -/
theorem State.requestTest_answers {s : State} (hwf : storeWf 0 s.regs = true) {h : Held} (h1 : s.testStatus h ≠ 1)
    (h2 : s.testStatus h ≠ 2) :
    (s.idle = true → 8 ≤ s.boot.step → (s.requestTest h).testStatus h = 1 ∧ (s.requestTest h).adm.waiting = s.adm.waiting) ∧
      ((s.idle = false ∨ s.boot.step < 8) →
        (s.requestTest h).testStatus h = 2 ∧ (s.requestTest h).adm.waiting = s.adm.waiting ++ [h]) ∧
      (s.image.st ≠ .running → (s.requestTest h).adm.slots = s.adm.slots) ∧
      Writes [.regs, .adm] [testReg h] s (s.requestTest h) := by
  have hnot : ¬(s.testStatus h = 1 ∨ s.testStatus h = 2) := not_or.mpr ⟨h1, h2⟩
  unfold State.requestTest
  rw [if_neg hnot]
  split
  · next hready =>
    obtain ⟨hidle, hstep⟩ := Bool.and_eq_true_iff.mp hready
    have hstep' := of_decide_eq_true hstep
    obtain ⟨hstatus, hwaiting, hslots, hlaw⟩ := State.startTest_starts hwf h
    refine ⟨fun _ _ => ⟨hstatus, hwaiting⟩, fun hwait => ?_, hslots, hlaw⟩
    obtain hwait | hwait := hwait
    · exact absurd hidle (by simp [hwait])
    · omega
  · next hready =>
    obtain ⟨hstatus, hadm, hlaw⟩ := State.deferTest_waits hwf h
    refine ⟨fun hidle hstep => absurd (by simp [hidle, hstep]) hready, fun _ => ⟨hstatus, by rw [hadm]⟩,
      fun _ => by rw [hadm], hlaw⟩

theorem exec_testStart {s : State} (hhost : s.hosted) {c : Instr} {h : Held}
    (hc : (c, h) ∈ [(Instr.meTestStart, Held.matrix), (Instr.veTestStart, Held.vector)]) :
    exec c s = .next (s.requestTest h) := by
  obtain heq | heq : (c, h) = (Instr.meTestStart, Held.matrix) ∨ (c, h) = (Instr.veTestStart, Held.vector) := by
    simpa using hc
  · obtain ⟨rfl, rfl⟩ := Prod.mk.inj heq
    change execMeTestStart s = _
    rw [execMeTestStart, State.onHost_of_hosted hhost]
  · obtain ⟨rfl, rfl⟩ := Prod.mk.inj heq
    change execVeTestStart s = _
    rw [execVeTestStart, State.onHost_of_hosted hhost]

/-! ## A request for a memory test -/

/-- A memory request with its operands taken: MODE, ALL and CHANNEL read as written, and the status stays. -/
structure TestTaken (s t : State) (h : Held) (ctrl : Word) : Prop where
  channel : t.fld (testReg h) 15 8 = bits ctrl.toNat 15 8
  all : t.bit (testReg h) 5 = ctrl.getLsbD 5
  status : t.testStatus h = s.testStatus h
  law : Writes [.regs] [testReg h] s t

theorem State.bit_setFld_bits (s : State) (o : Nat) {hi lo : Nat} (v : Word) (h : storeWf 0 s.regs = true) (hhi : hi < 64)
    {i : Nat} (hlo : lo ≤ i) (hle : i ≤ hi) : (s.setFld o hi lo (bits v.toNat hi lo)).bit o i = v.getLsbD i := by
  rw [s.bit_setFld o _ i h hhi, if_pos ⟨hlo, hle⟩, bits, Nat.testBit_mod_two_pow, Nat.testBit_div_two_pow]
  rw [show i - lo + lo = i by omega]
  simp [show i - lo < hi + 1 - lo by omega, BitVec.getLsbD]

/-- A field read beside the one written, for each of the fields of a control register. -/
theorem State.takeCtrl_takes {s : State} (hwf : storeWf 0 s.regs = true) (ctrl : Word) {lo : Nat} (hlo : lo = 4 ∨ lo = 5)
    (h : Held) : TestTaken s
      ((s.setFld (testReg h) 15 8 (bits ctrl.toNat 15 8)).setFld (testReg h) 5 lo (bits ctrl.toNat 5 lo)) h ctrl := by
  have h1 := s.setFld_writes (testReg h) 15 8 (bits ctrl.toNat 15 8)
  have hch := s.fld_setFld (testReg h) (hi := 15) (lo := 8) (x := bits ctrl.toNat 15 8) hwf (by decide)
    (by rw [bits]; exact Nat.mod_lt _ (Nat.two_pow_pos _))
  have hst : (s.setFld (testReg h) 15 8 (bits ctrl.toNat 15 8)).testStatus h = s.testStatus h :=
    s.fld_setFld_ne _ _ hwf (by decide) (.inl (by decide))
  generalize s.setFld (testReg h) 15 8 (bits ctrl.toNat 15 8) = u at *
  have hwf' := h1.wf hwf
  refine ⟨?_, u.bit_setFld_bits _ ctrl hwf' (by decide) (by omega) (by omega), ?_,
    h1.step (u.setFld_writes (testReg h) 5 lo (bits ctrl.toNat 5 lo))⟩
  · exact (u.fld_setFld_ne _ _ hwf' (by decide) (.inr (by decide))).trans hch
  · exact (u.fld_setFld_ne _ _ hwf' (by decide) (.inl (by omega))).trans hst

/-- The operands of a test as its register shows them. -/
def State.hasOperands (s : State) (h : Held) (ctrl : Word) : Prop :=
  s.fld (testReg h) 15 8 = bits ctrl.toNat 15 8 ∧ s.bit (testReg h) 5 = ctrl.getLsbD 5

theorem State.hasOperands_congr {s t : State} {h : Held} {ctrl : Word} (hreg : t.reg (testReg h) = s.reg (testReg h))
    (hs : s.hasOperands h ctrl) : t.hasOperands h ctrl :=
  ⟨(State.fld_of_reg hreg 15 8).trans hs.1, (State.bit_of_reg hreg 5).trans hs.2⟩

/-- A field apart from them leaves the operands. -/
theorem State.hasOperands_setFld {s : State} (hwf : storeWf 0 s.regs = true) {h : Held} {ctrl : Word}
    (hs : s.hasOperands h ctrl) {hi lo : Nat} (x : Nat) (hhi : hi < 64) (hapart : hi < 5 ∨ 15 < lo) :
    (s.setFld (testReg h) hi lo x).hasOperands h ctrl :=
  ⟨(s.fld_setFld_ne _ _ hwf hhi (by omega)).trans hs.1, (s.bit_setFld_ne _ _ hwf hhi (by omega)).trans hs.2⟩

theorem State.hasOperands_setTestStatus {s : State} (hwf : storeWf 0 s.regs = true) {h : Held} {ctrl : Word}
    (hs : s.hasOperands h ctrl) (code : Nat) : (s.setTestStatus h code).hasOperands h ctrl :=
  State.hasOperands_setFld hwf hs _ (by decide) (.inl (by decide))

theorem State.hasOperands_requestTest {s : State} (hwf : storeWf 0 s.regs = true) {h : Held} {ctrl : Word}
    (hs : s.hasOperands h ctrl) : (s.requestTest h).hasOperands h ctrl := by
  unfold State.requestTest
  split
  · exact hs
  · split
    · have hset := State.hasOperands_setTestStatus hwf hs 1
      unfold State.startTest
      dsimp only
      split
      · exact State.hasOperands_congr rfl hset
      · exact hset
    · exact State.hasOperands_congr (s := s.setTestStatus h 2) rfl (State.hasOperands_setTestStatus hwf hs 2)

theorem State.idle_congr {s t : State} (himage : t.image = s.image) (hadm : t.adm = s.adm) (htick : t.tick = s.tick) :
    t.idle = s.idle := by
  unfold State.idle
  rw [himage, hadm, htick]

/-- What a memory request answers, from the state with its operands taken (R76, R232). -/
structure RequestAnswered (s t : State) (h : Held) (ctrl : Word) : Prop where
  operands : t.hasOperands h ctrl
  apart : s.touchesInService ctrl.toNat = false → t.testStatus h = 1 ∧ t.adm = s.adm
  starts : s.touchesInService ctrl.toNat = true → s.idle = true → 8 ≤ s.boot.step → t.testStatus h = 1
  waits : s.touchesInService ctrl.toNat = true → (s.idle = false ∨ s.boot.step < 8) →
    t.testStatus h = 2 ∧ t.adm.waiting = s.adm.waiting ++ [h]
  law : Writes [.regs, .adm] [testReg h] s t

theorem State.memRequest_answers {s : State} (hwf : storeWf 0 s.regs = true) {h : Held} {ctrl : Word}
    (hs : s.hasOperands h ctrl) (h1 : s.testStatus h ≠ 1) (h2 : s.testStatus h ≠ 2) :
    RequestAnswered s (s.memRequest h ctrl.toNat) h ctrl := by
  unfold State.memRequest
  split
  · next htouch =>
    obtain ⟨hstarts, hwaits, -, hlaw⟩ := State.requestTest_answers hwf h1 h2
    exact ⟨State.hasOperands_requestTest hwf hs, fun hnot => absurd htouch (by simp [hnot]),
      fun _ hidle hstep => (hstarts hidle hstep).1, fun _ hwait => hwaits hwait, hlaw⟩
  · next hnot =>
    exact ⟨State.hasOperands_setTestStatus hwf hs 1, fun _ => ⟨State.testStatus_set hwf h (by decide), rfl⟩,
      fun htouch => absurd htouch hnot, fun htouch => absurd htouch hnot,
      (s.setTestStatus_writes h 1).widen (hl := fun _ h => h)⟩

/-- A self-test request that is not ignored holds its operands (R232). -/
theorem State.newMemTest_holds {s : State} (hwf : storeWf 0 s.regs = true) {ctrl : Word} (hs : s.hasOperands .memTest ctrl) :
    (s.newMemTest ctrl.toNat).hasOperands .memTest ctrl ∧ (s.newMemTest ctrl.toNat).testStatus .memTest = s.testStatus .memTest ∧
      (s.newMemTest ctrl.toNat).hbm.inService = s.hbm.inService ∧ s.sameBytes (s.newMemTest ctrl.toNat) ∧
      Writes [.regs, .hbm] [Reg.MEM_TEST_CTRL] s (s.newMemTest ctrl.toNat) := by
  have hset := (s.setFld_writes Reg.MEM_TEST_CTRL 16 16 0).widen (Q := [.regs, .hbm]) (M := [Reg.MEM_TEST_CTRL])
  have hops := State.hasOperands_setFld hwf hs (hi := 16) (lo := 16) 0 (by decide) (.inr (by decide))
  have hst : (s.setFld Reg.MEM_TEST_CTRL 16 16 0).testStatus .memTest = s.testStatus .memTest :=
    s.fld_setFld_ne _ _ hwf (by decide) (.inl (by decide))
  have hhbm : (s.setFld Reg.MEM_TEST_CTRL 16 16 0).hbm = s.hbm := rfl
  unfold State.newMemTest
  refine ⟨State.hasOperands_congr (s := s.setFld Reg.MEM_TEST_CTRL 16 16 0) rfl hops, hst, rfl, fun _ => rfl,
    hset.step (Evolves.hbm _ _ (P := [.hbm]) rfl).writes⟩

theorem State.touchesInService_congr {s t : State} (h : t.hbm.inService = s.hbm.inService) (ctrl : Nat) :
    t.touchesInService ctrl = s.touchesInService ctrl := by
  unfold State.touchesInService
  rw [h]

theorem State.sameBytes_trans {s t u : State} (h : s.sameBytes t) (g : t.sameBytes u) : s.sameBytes u := fun a =>
  (g a).trans (h a)

/-- What a memory request leaves (R76, R232). -/
structure TestRequested (s t : State) (h : Held) (ctrl : Word) : Prop where
  operands : t.hasOperands h ctrl
  ignored : (s.testStatus h = 1 ∨ s.testStatus h = 2) → t.testStatus h = s.testStatus h ∧ t.adm = s.adm
  apart : s.testStatus h ≠ 1 → s.testStatus h ≠ 2 → s.touchesInService ctrl.toNat = false → t.testStatus h = 1 ∧ t.adm = s.adm
  refused : s.testStatus h ≠ 1 → s.testStatus h ≠ 2 → s.touchesInService ctrl.toNat = true → h = .memTest →
    ctrl.getLsbD 4 = true → s.image.st ≠ .empty → t.testStatus h = 0 ∧ t.bit Reg.MEM_TEST_CTRL 16 = true ∧ t.adm = s.adm
  starts : s.testStatus h ≠ 1 → s.testStatus h ≠ 2 → s.touchesInService ctrl.toNat = true →
    (h = .memScan ∨ ctrl.getLsbD 4 = false ∨ s.image.st = .empty) → s.idle = true → 8 ≤ s.boot.step → t.testStatus h = 1
  waits : s.testStatus h ≠ 1 → s.testStatus h ≠ 2 → s.touchesInService ctrl.toNat = true →
    (h = .memScan ∨ ctrl.getLsbD 4 = false ∨ s.image.st = .empty) → (s.idle = false ∨ s.boot.step < 8) →
    t.testStatus h = 2 ∧ t.adm.waiting = s.adm.waiting ++ [h]
  touches : s.touches t [.regs, .adm, .hbm] [testReg h]

theorem State.memScanStart_requests {s : State} (hwf : storeWf 0 s.regs = true) (ctrl : Word) :
    TestRequested s (s.memScanStart ctrl.toNat) .memScan ctrl := by
  have htaken : TestTaken s (s.takeScan ctrl.toNat) .memScan ctrl := State.takeCtrl_takes hwf ctrl (.inr rfl) .memScan
  unfold State.memScanStart
  dsimp only
  generalize s.takeScan ctrl.toNat = u at *
  have hlaw := htaken.law.widen (Q := [.regs, .adm]) (M := [Reg.MEM_SCAN_CTRL]) (hl := fun _ h => h)
  have hadm : u.adm = s.adm := htaken.law.evolves.keep .adm (by decide)
  have himage : u.image = s.image := htaken.law.evolves.keep .image (by decide)
  have hboot : u.boot = s.boot := htaken.law.evolves.keep .boot (by decide)
  have hhbm : u.hbm = s.hbm := htaken.law.evolves.keep .hbm (by decide)
  have htouch : u.touchesInService ctrl.toNat = s.touchesInService ctrl.toNat :=
    State.touchesInService_congr (by rw [hhbm]) _
  have hidle : u.idle = s.idle := State.idle_congr himage hadm (htaken.law.evolves.keep .tick (by decide))
  split
  · next hbusy =>
    have hnot (h1 : s.testStatus .memScan ≠ 1) (h2 : s.testStatus .memScan ≠ 2) : False := hbusy.elim h1 h2
    exact ⟨⟨htaken.channel, htaken.all⟩, fun _ => ⟨htaken.status, hadm⟩, fun h1 h2 => (hnot h1 h2).elim,
      fun h1 h2 => (hnot h1 h2).elim, fun h1 h2 => (hnot h1 h2).elim, fun h1 h2 => (hnot h1 h2).elim,
      (hlaw.widen (Q := [.regs, .adm, .hbm]) (hl := fun _ h => h)).evolves.keep, htaken.law.regs, htaken.law.evolves.sameBytes⟩
  · next hfree =>
    obtain ⟨h1, h2⟩ := not_or.mp hfree
    have hreq := State.memRequest_answers (htaken.law.wf hwf) ⟨htaken.channel, htaken.all⟩
      (by rw [htaken.status]; exact h1) (by rw [htaken.status]; exact h2)
    obtain ⟨hops, hapart, hstarts, hwaits, hlaw'⟩ := hreq
    rw [htouch, hadm] at hapart
    rw [htouch, hidle, hboot] at hstarts
    rw [htouch, hidle, hboot, hadm] at hwaits
    have hall := hlaw.step hlaw' (hl := fun _ h => h)
    exact ⟨hops, fun hbusy => absurd hbusy hfree, fun _ _ => hapart, fun _ _ _ hmem => (nomatch hmem),
      fun _ _ htouch _ => hstarts htouch, fun _ _ htouch _ => hwaits htouch,
      (hall.widen (Q := [.regs, .adm, .hbm]) (hl := fun _ h => h)).evolves.keep, hall.regs, hall.evolves.sameBytes⟩

theorem State.hasOperands_refuseMarch {s : State} (hwf : storeWf 0 s.regs = true) {ctrl : Word}
    (hs : s.hasOperands .memTest ctrl) : s.refuseMarch.hasOperands .memTest ctrl :=
  State.hasOperands_setFld ((s.setTestStatus_writes .memTest 0).wf hwf) (State.hasOperands_setTestStatus hwf hs 0) _ (by decide)
    (.inr (by decide))

/-- R232: a march test is refused where it would touch a channel in service while an image is there. -/
theorem State.marchRefused_iff (s : State) (ctrl : Word) : s.marchRefused ctrl.toNat = true ↔
    ctrl.getLsbD 4 = true ∧ s.touchesInService ctrl.toNat = true ∧ s.image.st ≠ .empty := by
  rw [State.marchRefused, Bool.and_eq_true, Bool.and_eq_true, decide_eq_true_iff, and_assoc]
  rfl

theorem State.memTestStart_requests {s : State} (hwf : storeWf 0 s.regs = true) (ctrl : Word) :
    TestRequested s (s.memTestStart ctrl.toNat) .memTest ctrl := by
  have htaken : TestTaken s (s.takeCtrl Reg.MEM_TEST_CTRL ctrl.toNat) .memTest ctrl :=
    State.takeCtrl_takes hwf ctrl (.inl rfl) .memTest
  unfold State.memTestStart
  dsimp only
  generalize s.takeCtrl Reg.MEM_TEST_CTRL ctrl.toNat = u at *
  have hlaw := htaken.law.widen (Q := [.regs, .adm, .hbm]) (M := [Reg.MEM_TEST_CTRL]) (hl := fun _ h => h)
  have hadm : u.adm = s.adm := htaken.law.evolves.keep .adm (by decide)
  split
  · next hbusy =>
    have hnot (h1 : s.testStatus .memTest ≠ 1) (h2 : s.testStatus .memTest ≠ 2) : False := hbusy.elim h1 h2
    exact ⟨⟨htaken.channel, htaken.all⟩, fun _ => ⟨htaken.status, hadm⟩, fun h1 h2 => (hnot h1 h2).elim,
      fun h1 h2 => (hnot h1 h2).elim, fun h1 h2 => (hnot h1 h2).elim, fun h1 h2 => (hnot h1 h2).elim,
      hlaw.evolves.keep, htaken.law.regs, htaken.law.evolves.sameBytes⟩
  next hfree =>
  obtain ⟨h1, h2⟩ := not_or.mp hfree
  obtain ⟨hops, hst, hservice, hbytes, hnew⟩ := State.newMemTest_holds (htaken.law.wf hwf) ⟨htaken.channel, htaken.all⟩
  have hnewadm : (u.newMemTest ctrl.toNat).adm = u.adm := hnew.evolves.keep .adm (by decide)
  generalize u.newMemTest ctrl.toNat = v at *
  have hlaw2 := hlaw.step hnew
  have hbytes2 := State.sameBytes_trans htaken.law.evolves.sameBytes hbytes
  have hwf2 := hlaw2.wf hwf
  split
  · next hrefused =>
    obtain ⟨hstatus, hbit, hrefuse⟩ := State.refuseMarch_shows hwf2
    have hall := hlaw2.step hrefuse
    have hadm' : v.refuseMarch.adm = s.adm := Eq.trans (hrefuse.evolves.keep .adm (by decide)) (hnewadm.trans hadm)
    obtain ⟨hmarch, htouch, himage⟩ := (s.marchRefused_iff ctrl).mp hrefused
    have hnot (hok : Held.memTest = .memScan ∨ ctrl.getLsbD 4 = false ∨ s.image.st = .empty) : False := by
      obtain hscan | hmode | hempty := hok
      · cases hscan
      · exact absurd (hmode.symm.trans hmarch) (by decide)
      · exact himage hempty
    exact ⟨State.hasOperands_refuseMarch hwf2 hops, fun hbusy => absurd hbusy hfree,
      fun _ _ hno => absurd htouch (by simp [hno]), fun _ _ _ _ _ _ => ⟨hstatus, hbit, hadm'⟩,
      fun _ _ _ hok => (hnot hok).elim, fun _ _ _ hok => (hnot hok).elim, hall.evolves.keep, hall.regs,
      State.sameBytes_trans hbytes2 hrefuse.evolves.sameBytes⟩
  · next hgoes =>
    have hstatus := hst.trans htaken.status
    have himage : v.image = s.image := hlaw2.evolves.keep .image (by decide)
    have hboot : v.boot = s.boot := hlaw2.evolves.keep .boot (by decide)
    have htick : v.tick = s.tick := hlaw2.evolves.keep .tick (by decide)
    have hhbm : u.hbm = s.hbm := htaken.law.evolves.keep .hbm (by decide)
    have htouch : v.touchesInService ctrl.toNat = s.touchesInService ctrl.toNat :=
      State.touchesInService_congr (by rw [hservice, hhbm]) _
    have hidle : v.idle = s.idle := State.idle_congr himage (hnewadm.trans hadm) htick
    obtain ⟨hops', hapart, hstarts, hwaits, hlaw'⟩ := State.memRequest_answers hwf2 hops (by rw [hstatus]; exact h1)
      (by rw [hstatus]; exact h2)
    rw [htouch, hnewadm, hadm] at hapart
    rw [htouch, hidle, hboot] at hstarts
    rw [htouch, hidle, hboot, hnewadm, hadm] at hwaits
    have hall := hlaw2.step hlaw' (hl := fun _ h => h)
    exact ⟨hops', fun hbusy => absurd hbusy hfree, fun _ _ => hapart,
      fun _ _ htouch _ hmarch himage => absurd ((s.marchRefused_iff ctrl).mpr ⟨hmarch, htouch, himage⟩) hgoes,
      fun _ _ htouch _ => hstarts htouch, fun _ _ htouch _ => hwaits htouch, hall.evolves.keep, hall.regs,
      State.sameBytes_trans hbytes2 hlaw'.evolves.sameBytes⟩

theorem exec_memTestStart {s : State} (hhost : s.hosted) (ctrl : Word) :
    exec (.memTestStart ctrl) s = .next (s.memTestStart ctrl.toNat) := by
  change execMemTestStart ctrl s = _
  rw [execMemTestStart, State.onHost_of_hosted hhost]

theorem exec_memScanStart {s : State} (hhost : s.hosted) (ctrl : Word) :
    exec (.memScanStart ctrl) s = .next (s.memScanStart ctrl.toNat) := by
  change execMemScanStart ctrl s = _
  rw [execMemScanStart, State.onHost_of_hosted hhost]

/-! ## The end of a test -/

/-- The end of a test: its status, and its slots free again. -/
theorem State.endTest_ends {s : State} (hwf : storeWf 0 s.regs = true) (h : Held) (fail : Bool) :
    (s.endTest h fail).testStatus h = (if fail then 4 else 3) ∧
      (s.endTest h fail).adm = { s.adm with slots := s.adm.slots.filter fun e => e.1 ≠ h } ∧
      Writes [.regs, .adm] [testReg h] s (s.endTest h fail) := by
  have hset := (s.setTestStatus_writes h (if fail then 4 else 3)).widen (Q := [.regs, .adm]) (M := [testReg h])
  have hstatus := State.testStatus_set hwf h (code := if fail then 4 else 3) (by split <;> decide)
  have hadm : (s.setTestStatus h (if fail then 4 else 3)).adm = s.adm := rfl
  unfold State.endTest
  dsimp only
  generalize s.setTestStatus h (if fail then 4 else 3) = u at *
  exact ⟨hstatus, by rw [hadm], hset.step (State.evolves_adm _ _).writes⟩

theorem State.bit_setBit_mono {s : State} (hwf : storeWf 0 s.regs = true) (o : Nat) {j : Nat} (hj : j < 64) {o' i : Nat}
    (hset : s.bit o' i = true) : (s.setBit o j true).bit o' i = true := by
  by_cases ho : o' = o
  · subst ho
    rw [State.setBit, s.bit_setFld o' _ i hwf hj]
    split
    · next hin =>
      obtain rfl : i = j := by omega
      simp
    · exact hset
  · exact ((s.setBit_writes o j true).bit (by simpa using ho) i).trans hset

/-- The registers that show failed units, from `base` on. -/
abbrev Reg.failed (base n : Nat) : List Nat := (List.range n).map fun k => base + 4 * k

theorem Reg.mem_failed {base n k : Nat} (hk : k < n) : base + 4 * k ∈ Reg.failed base n :=
  List.mem_map.mpr ⟨k, List.mem_range.mpr hk, rfl⟩

theorem Reg.failed_not_ledger : ∀ o ∈ Reg.failed Reg.ME_FAIL 16 ++ Reg.failed Reg.VE_FAIL 4, o ∉ Reg.ledger := by decide

/-- A failed unit is marked, and recorded. -/
theorem State.failUnit_marks {s : State} (hwf : storeWf 0 s.regs = true) {o j : Nat} (hj : j < 64) (ho : o ∉ Reg.ledger)
    (n kind : Nat) : let t := (s.setBit o j true).ledgerEvent 0x07 0 n kind []
    t.bit o j = true ∧ (∀ o' i, o' ∉ Reg.ledger → s.bit o' i = true → t.bit o' i = true) ∧
      Writes (.hlt :: Part.signalled) (o :: Reg.ledger) s t := by
  have hset := s.setBit_writes o j true
  have hbit := s.bit_setBit o j true hwf hj
  have hmono (o' i : Nat) (h : s.bit o' i = true) := State.bit_setBit_mono hwf o hj h
  generalize s.setBit o j true = u at *
  have hledger := u.ledgerEvent_writes 0x07 0 n kind []
  exact ⟨(hledger.bit ho j).trans hbit, fun o' i ho' h => (hledger.bit ho' i).trans (hmono o' i h),
    (hset.widen (M := o :: Reg.ledger)).step hledger⟩

/-- Units marked as failed, each with its record. -/
def State.markFailed (base kind : Nat) (s : State) (es : List Nat) : State :=
  es.foldl (fun s e => (s.setBit (base + 4 * (e / 32)) (e % 32) true).ledgerEvent 0x07 0 e kind []) s

theorem State.failEngines_eq (es : List (Fin 512)) (s : State) :
    s.failEngines es = s.markFailed Reg.ME_FAIL 0 (es.map Fin.val) := by
  induction es generalizing s with
  | nil => rfl
  | cons e es ih => exact ih _

theorem State.failVectors_eq (es : List (Fin 128)) (s : State) :
    s.failVectors es = s.markFailed Reg.VE_FAIL 2 (es.map Fin.val) := by
  induction es generalizing s with
  | nil => rfl
  | cons e es ih => exact ih _

/-- R163, R190: each failed unit is marked. -/
theorem State.markFailed_marks {base n : Nat} (kind : Nat) (hbase : ∀ o ∈ Reg.failed base n, o ∉ Reg.ledger) (es : List Nat)
    (hes : ∀ e ∈ es, e < 32 * n) {s : State} (hwf : storeWf 0 s.regs = true) :
    (∀ e ∈ es, (s.markFailed base kind es).bit (base + 4 * (e / 32)) (e % 32) = true) ∧
      (∀ o i, o ∉ Reg.ledger → s.bit o i = true → (s.markFailed base kind es).bit o i = true) ∧
      Writes (.hlt :: Part.signalled) (Reg.failed base n ++ Reg.ledger) s (s.markFailed base kind es) := by
  induction es generalizing s with
  | nil => exact ⟨fun _ h => absurd h List.not_mem_nil, fun _ _ _ h => h, Writes.refl s⟩
  | cons e es ih =>
    have hmem : base + 4 * (e / 32) ∈ Reg.failed base n := Reg.mem_failed (by have := hes e List.mem_cons_self; omega)
    have hout := hbase _ hmem
    obtain ⟨hbit, hmono, hlaw⟩ := State.failUnit_marks hwf (o := base + 4 * (e / 32)) (j := e % 32) (by omega) hout e kind
    rw [State.markFailed, List.foldl_cons, ← State.markFailed]
    generalize (s.setBit (base + 4 * (e / 32)) (e % 32) true).ledgerEvent 0x07 0 e kind [] = u at *
    obtain ⟨hall, hmono', hlaw'⟩ := ih (fun g hg => hes g (List.mem_cons_of_mem _ hg)) (hlaw.wf hwf)
    refine ⟨fun g hg => ?_, fun o i ho h => hmono' o i ho (hmono o i ho h), (hlaw.widen (hl := fun o ho => ?_)).step hlaw'
      (hl := fun _ h => h)⟩
    · obtain rfl | hgs := List.mem_cons.mp hg
      · exact hmono' _ _ hout hbit
      · exact hall g hgs
    · obtain rfl | ho := List.mem_cons.mp ho
      · exact List.mem_append_left _ hmem
      · exact List.mem_append_right _ ho

theorem State.failEngines_marks (es : List (Fin 512)) {s : State} (hwf : storeWf 0 s.regs = true) :
    (∀ e ∈ es, (s.failEngines es).bit (Reg.ME_FAIL + 4 * (e.val / 32)) (e.val % 32) = true) ∧
      Writes (.hlt :: Part.signalled) (Reg.failed Reg.ME_FAIL 16 ++ Reg.ledger) s (s.failEngines es) := by
  obtain ⟨hall, -, hlaw⟩ := State.markFailed_marks 0 (base := Reg.ME_FAIL) (n := 16)
    (fun o ho => Reg.failed_not_ledger o (List.mem_append_left _ ho)) (es.map Fin.val)
    (fun e he => by obtain ⟨x, -, rfl⟩ := List.mem_map.mp he; exact x.isLt) hwf
  rw [State.failEngines_eq]
  exact ⟨fun e he => hall e.val (List.mem_map_of_mem he), hlaw⟩

theorem State.failVectors_marks (es : List (Fin 128)) {s : State} (hwf : storeWf 0 s.regs = true) :
    (∀ e ∈ es, (s.failVectors es).bit (Reg.VE_FAIL + 4 * (e.val / 32)) (e.val % 32) = true) ∧
      Writes (.hlt :: Part.signalled) (Reg.failed Reg.VE_FAIL 4 ++ Reg.ledger) s (s.failVectors es) := by
  obtain ⟨hall, -, hlaw⟩ := State.markFailed_marks 2 (base := Reg.VE_FAIL) (n := 4)
    (fun o ho => Reg.failed_not_ledger o (List.mem_append_right _ ho)) (es.map Fin.val)
    (fun e he => by obtain ⟨x, -, rfl⟩ := List.mem_map.mp he; exact x.isLt) hwf
  rw [State.failVectors_eq]
  exact ⟨fun e he => hall e.val (List.mem_map_of_mem he), hlaw⟩

theorem State.failPaths_writes (ps : List (Fin 128)) (s : State) :
    Writes (.hlt :: Part.signalled) Reg.ledger s (s.failPaths ps) := by
  induction ps generalizing s with
  | nil => exact Writes.refl s
  | cons p ps ih => exact (s.ledgerEvent_writes _ _ _ _ _).step (ih _) (hl := fun _ h => h)

/-- A test ends with its status, and the number of units that failed. -/
theorem State.testEnded {s : State} (hwf : storeWf 0 s.regs = true) (h : Held) (fail : Bool) {hi lo n : Nat}
    (hn : n < 2 ^ (hi + 1 - lo)) (hhi : hi < 64) (hlo : 3 < lo) {o : Nat} (ho : testReg h = o) :
    let t := (s.endTest h fail).setFld o hi lo n
    t.testStatus h = (if fail then 4 else 3) ∧ t.fld o hi lo = n ∧
      t.adm = { s.adm with slots := s.adm.slots.filter fun e => e.1 ≠ h } ∧ Writes [.regs, .adm] [o] s t := by
  subst ho
  obtain ⟨hstatus, hadm, hlaw⟩ := State.endTest_ends hwf h fail
  generalize s.endTest h fail = u at *
  exact ⟨(u.fld_setFld_ne _ _ (hlaw.wf hwf) hhi (.inl hlo)).trans hstatus, u.fld_setFld _ (hlaw.wf hwf) hhi hn, hadm,
    hlaw.step (State.setFld_writes _ _ _ _ _)⟩

/-! ### Matrix engines -/

theorem exec_meTestDone {s : State} (h : s.testStatus .matrix = 1) (engines : List (Fin 512)) (paths : List (Fin 128)) :
    exec (.meTestDone engines paths) s = .next
      (let n := engines.length + paths.length
      let s1 := (((s.testStores).endTest .matrix (decide (0 < n))).setFld Reg.ME_TEST_CTRL 15 8 (min n 255)).failEngines engines
      let s2 := (s1.failPaths paths).event Reg.ME_EVENT 0
      if 0 < n then s2.event Reg.ME_EVENT 1 else s2.passEngines) := by
  change execMeTestDone engines paths s = _
  rw [execMeTestDone, if_neg (by simp [h])]

theorem State.passEngines_passes {s : State} (hwf : storeWf 0 s.regs = true) :
    (s.me.resetSince = true → ∀ k, k < 16 → s.passEngines.reg (Reg.ME_FAIL + 4 * k) = 0) ∧
      Writes [.regs, .me] (Reg.failed Reg.ME_FAIL 16) s s.passEngines := by
  have hzero := s.zeroRegs_writes (Reg.failed Reg.ME_FAIL 16)
  have hread (k : Nat) (hk : k < 16) := s.reg_zeroRegs (Reg.failed Reg.ME_FAIL 16) (Reg.ME_FAIL + 4 * k) (Reg.mem_failed hk) hwf
  have heq : s.passEngines = if s.me.resetSince then
    { s.zeroRegs (Reg.failed Reg.ME_FAIL 16) with me := { s.me with resetSince := false } } else s := rfl
  rw [heq]
  generalize s.zeroRegs (Reg.failed Reg.ME_FAIL 16) = u at *
  have hme := (u.evolves_me { s.me with resetSince := false }).writes
  split
  · exact ⟨fun _ k hk => (hme.reg List.not_mem_nil).trans (hread k hk), (hzero.widen (hl := fun _ h => h)).step hme⟩
  · next hno => exact ⟨fun hyes => absurd hyes hno, Writes.refl s⟩

/-- The registers that the end of a test of the matrix engines may change. -/
abbrev Reg.meTest : List Nat := Reg.ME_TEST_CTRL :: Reg.ME_EVENT :: (Reg.failed Reg.ME_FAIL 16 ++ Reg.ledger)

theorem Reg.mem_meTest {o : Nat} (h : o ∈ Reg.failed Reg.ME_FAIL 16 ++ Reg.ledger) : o ∈ Reg.meTest :=
  List.mem_cons_of_mem _ (List.mem_cons_of_mem _ h)

/-- R163: the end of a test of the matrix engines. -/
theorem meTestDone_ends {s : State} (hwf : storeWf 0 s.regs = true) (h : s.testStatus .matrix = 1)
    (engines : List (Fin 512)) (paths : List (Fin 128)) : ∃ t, exec (.meTestDone engines paths) s = .next t ∧
      t.testStatus .matrix = (if engines = [] ∧ paths = [] then 3 else 4) ∧
      t.fld Reg.ME_TEST_CTRL 15 8 = min (engines.length + paths.length) 255 ∧
      (∀ e ∈ engines, t.bit (Reg.ME_FAIL + 4 * (e.val / 32)) (e.val % 32) = true) ∧ t.bit Reg.ME_EVENT 0 = true ∧
      (engines ≠ [] → t.bit Reg.ME_EVENT 1 = true) ∧ t.adm.slots = s.adm.slots.filter (fun x => x.1 ≠ .matrix) ∧
      (engines = [] → paths = [] → s.me.resetSince = true → ∀ k, k < 16 → t.reg (Reg.ME_FAIL + 4 * k) = 0) ∧
      s.keeps t ([.adm, .hlt, .me, .free] ++ Part.signalled) ∧ s.sameBytes t := by
  refine ⟨_, exec_meTestDone h engines paths, ?_⟩
  have hstores : Evolves [.free, .me] s s.testStores :=
    ((s.evolves_free (s.free + 1)).widen rfl).step (State.evolves_me _ { s.me with
      banks := [], tile := [], acc := [], flagged := [], rotated := [], bankSeed := 3 * s.free + 1,
      accSeed := 3 * s.free + 2, tileSeed := 3 * s.free + 3 }) rfl
  have hreset : s.testStores.me.resetSince = s.me.resetSince := rfl
  have hadm0 : s.testStores.adm = s.adm := rfl
  dsimp only
  generalize s.testStores = u0 at *
  obtain ⟨hstatus, hcount, hadm, hended⟩ := State.testEnded (hstores.regs hwf) .matrix
    (decide (0 < engines.length + paths.length)) (hi := 15) (lo := 8) (n := min (engines.length + paths.length) 255)
    (by omega) (by decide) (by decide) (o := Reg.ME_TEST_CTRL) rfl
  have hlaw1 : Writes ([.adm, .hlt, .me, .free] ++ Part.signalled) Reg.meTest s ((u0.endTest .matrix
      (decide (0 < engines.length + paths.length))).setFld Reg.ME_TEST_CTRL 15 8 (min (engines.length + paths.length) 255)) :=
    ((hstores.writes).widen).step hended (hl := fun o ho => by rw [List.mem_singleton.mp ho]; exact List.mem_cons_self)
  have hme1 : ((u0.endTest .matrix (decide (0 < engines.length + paths.length))).setFld Reg.ME_TEST_CTRL 15 8
    (min (engines.length + paths.length) 255)).me = u0.me := hended.evolves.keep .me (by decide)
  generalize (u0.endTest .matrix (decide (0 < engines.length + paths.length))).setFld Reg.ME_TEST_CTRL 15 8
    (min (engines.length + paths.length) 255) = u1 at *
  obtain ⟨hmarks, hfail⟩ := State.failEngines_marks engines (hlaw1.wf hwf)
  generalize u1.failEngines engines = u2 at *
  have hpaths := u2.failPaths_writes paths
  have hlaw3 := (hlaw1.step hfail (hl := fun _ ho => Reg.mem_meTest ho)).step hpaths
    (hl := fun _ ho => Reg.mem_meTest (List.mem_append_right _ ho))
  generalize u2.failPaths paths = u3 at *
  have hevent := u3.event_writes Reg.ME_EVENT 0
  have hbit := u3.bit_event Reg.ME_EVENT 0 (hlaw3.wf hwf) (by decide)
  have hlaw4 := hlaw3.step hevent (hl := fun o ho => by rw [List.mem_singleton.mp ho]; decide)
  generalize u3.event Reg.ME_EVENT 0 = u4 at *
  have hfailreg : ∀ k, k < 16 → Reg.ME_FAIL + 4 * k ∉ Reg.ledger ∧ Reg.ME_FAIL + 4 * k ∉ [Reg.ME_EVENT] := by decide
  have hctrl : Reg.ME_TEST_CTRL ∉ Reg.failed Reg.ME_FAIL 16 ++ Reg.ledger := by decide
  have hctrl4 : u4.reg Reg.ME_TEST_CTRL = u1.reg Reg.ME_TEST_CTRL :=
    (hevent.reg (by decide)).trans ((hpaths.reg (by decide)).trans (hfail.reg hctrl))
  have hmarks4 : ∀ e ∈ engines, u4.bit (Reg.ME_FAIL + 4 * (e.val / 32)) (e.val % 32) = true := fun e he => by
    obtain ⟨hl, hev⟩ := hfailreg (e.val / 32) (by omega)
    exact (hevent.bit hev _).trans ((hpaths.bit hl _).trans (hmarks e he))
  have hadm4 : u4.adm = u1.adm := Eq.trans (hevent.evolves.keep .adm (by decide))
    (Eq.trans (hpaths.evolves.keep .adm (by decide)) (hfail.evolves.keep .adm (by decide)))
  have hme4 : u4.me = u1.me := Eq.trans (hevent.evolves.keep .me (by decide))
    (Eq.trans (hpaths.evolves.keep .me (by decide)) (hfail.evolves.keep .me (by decide)))
  have hslots : u1.adm.slots = s.adm.slots.filter (fun x => x.1 ≠ .matrix) := by rw [hadm, hadm0]
  split
  · next hpos =>
    have hlast := u4.event_writes Reg.ME_EVENT 1
    have hall := hlaw4.step hlast (hl := fun o ho => by rw [List.mem_singleton.mp ho]; decide)
    have hadm5 : (u4.event Reg.ME_EVENT 1).adm = u4.adm := hlast.evolves.keep .adm (by decide)
    have hsome : ¬(engines = [] ∧ paths = []) := by
      rintro ⟨rfl, rfl⟩
      exact absurd hpos (by decide)
    refine ⟨?_, ?_, fun e he => ?_, State.bit_event_mono (hlaw4.wf hwf) 1 (by decide) hbit, fun _ =>
      u4.bit_event _ _ (hlaw4.wf hwf) (by decide), by rw [hadm5, hadm4, hslots], fun he hp => absurd ⟨he, hp⟩ hsome,
      hall.evolves.keep, hall.evolves.sameBytes⟩
    · rw [if_neg hsome]
      refine (State.testStatus_congr (h := .matrix) ((hlast.reg (by decide)).trans hctrl4)).trans (hstatus.trans ?_)
      rw [decide_eq_true hpos]
      rfl
    · exact (State.fld_of_reg ((hlast.reg (by decide)).trans hctrl4) 15 8).trans hcount
    · exact (hlast.bit (hfailreg (e.val / 32) (by omega)).2 _).trans (hmarks4 e he)
  · next hnone =>
    obtain ⟨rfl, rfl⟩ : engines = [] ∧ paths = [] := by
      have : engines.length = 0 ∧ paths.length = 0 := by omega
      exact ⟨List.length_eq_zero_iff.mp this.1, List.length_eq_zero_iff.mp this.2⟩
    obtain ⟨hcleared, hpass⟩ := State.passEngines_passes (hlaw4.wf hwf)
    have hall := hlaw4.step hpass (hl := fun _ ho => Reg.mem_meTest (List.mem_append_left _ ho))
    have hadm5 : u4.passEngines.adm = u4.adm := hpass.evolves.keep .adm (by decide)
    refine ⟨?_, ?_, fun e he => absurd he List.not_mem_nil, (hpass.bit (by decide) 0).trans hbit, fun hne => absurd rfl hne,
      by rw [hadm5, hadm4, hslots], fun _ _ hsince => hcleared (by rw [hme4, hme1, hreset]; exact hsince),
      hall.evolves.keep, hall.evolves.sameBytes⟩
    · exact (State.testStatus_congr (h := .matrix) ((hpass.reg (by decide)).trans hctrl4)).trans hstatus
    · exact (State.fld_of_reg ((hpass.reg (by decide)).trans hctrl4) 15 8).trans hcount

/-! ### Vector engines -/

theorem exec_veTestDone {s : State} (h : s.testStatus .vector = 1) (failed : List (Fin 128)) :
    exec (.veTestDone failed) s = .next
      (let n := failed.length
      let s1 := ((s.endTest .vector (decide (0 < n))).setFld Reg.VE_TEST_CTRL 15 8 (min n 128)).failVectors failed
      let s2 := s1.event Reg.VE_EVENT 0
      if 0 < n then s2.event Reg.VE_EVENT 1 else s2) := by
  change execVeTestDone failed s = _
  rw [execVeTestDone, if_neg (by simp [h])]

/-- The end of a test signals, and signals again where a unit failed. -/
theorem State.endSignalled {s : State} (hwf : storeWf 0 s.regs = true) (o : Nat) {i j : Nat} (hi : i < 64) (hj : j < 64) (n : Nat) :
    let t := if 0 < n then (s.event o i).event o j else s.event o i
    t.bit o i = true ∧ (0 < n → t.bit o j = true) ∧ Writes Part.signalled [o] s t := by
  have hfirst := s.event_writes o i
  have hbit := s.bit_event o i hwf hi
  generalize s.event o i = u at *
  have hwf' := hfirst.wf hwf
  dsimp only
  split
  · exact ⟨State.bit_event_mono hwf' j hj hbit, fun _ => u.bit_event o j hwf' hj, hfirst.step (u.event_writes o j)⟩
  · next hno => exact ⟨hbit, fun hyes => absurd hyes hno, hfirst⟩

/-- R190: the end of a test of the vector engines. -/
theorem veTestDone_ends {s : State} (hwf : storeWf 0 s.regs = true) (h : s.testStatus .vector = 1) (failed : List (Fin 128)) :
    ∃ t, exec (.veTestDone failed) s = .next t ∧
      t.testStatus .vector = (if failed = [] then 3 else 4) ∧ t.fld Reg.VE_TEST_CTRL 15 8 = min failed.length 128 ∧
      (∀ e ∈ failed, t.bit (Reg.VE_FAIL + 4 * (e.val / 32)) (e.val % 32) = true) ∧ t.bit Reg.VE_EVENT 0 = true ∧
      (failed ≠ [] → t.bit Reg.VE_EVENT 1 = true) ∧ t.adm.slots = s.adm.slots.filter (fun x => x.1 ≠ .vector) ∧
      s.keeps t ([.adm, .hlt] ++ Part.signalled) ∧ s.sameBytes t := by
  refine ⟨_, exec_veTestDone h failed, ?_⟩
  obtain ⟨hstatus, hcount, hadm, hended⟩ := State.testEnded hwf .vector (decide (0 < failed.length)) (hi := 15) (lo := 8)
    (n := min failed.length 128) (by omega) (by decide) (by decide) (o := Reg.VE_TEST_CTRL) rfl
  dsimp only
  generalize (s.endTest .vector (decide (0 < failed.length))).setFld Reg.VE_TEST_CTRL 15 8 (min failed.length 128) = u1 at *
  obtain ⟨hmarks, hfail⟩ := State.failVectors_marks failed (hended.wf hwf)
  have hlaw2 := (hended.widen (Q := [.adm, .hlt] ++ Part.signalled)
    (M := Reg.VE_TEST_CTRL :: Reg.VE_EVENT :: (Reg.failed Reg.VE_FAIL 4 ++ Reg.ledger))).step hfail
      (hl := fun _ ho => List.mem_cons_of_mem _ (List.mem_cons_of_mem _ ho))
  generalize u1.failVectors failed = u2 at *
  obtain ⟨hbit, hbit1, hsignal⟩ := State.endSignalled (hlaw2.wf hwf) Reg.VE_EVENT (i := 0) (j := 1) (by decide) (by decide)
    failed.length
  generalize (if 0 < failed.length then (u2.event Reg.VE_EVENT 0).event Reg.VE_EVENT 1 else u2.event Reg.VE_EVENT 0) = u3 at *
  have hall := hlaw2.step hsignal
  have hctrl : u3.reg Reg.VE_TEST_CTRL = u1.reg Reg.VE_TEST_CTRL := (hsignal.reg (by decide)).trans (hfail.reg (by decide))
  have hadm3 : u3.adm = u1.adm := Eq.trans (hsignal.evolves.keep .adm (by decide)) (hfail.evolves.keep .adm (by decide))
  have hplace : ∀ k, k < 4 → Reg.VE_FAIL + 4 * k ∉ [Reg.VE_EVENT] := by decide
  refine ⟨?_, (State.fld_of_reg hctrl 15 8).trans hcount, fun e he => (hsignal.bit (hplace (e.val / 32) (by omega)) _).trans
    (hmarks e he), hbit, fun hne => hbit1 (List.length_pos_iff.mpr hne), by rw [hadm3, hadm], hall.evolves.keep,
    hall.evolves.sameBytes⟩
  refine (State.testStatus_congr (h := .vector) hctrl).trans (hstatus.trans ?_)
  by_cases hnil : failed = []
  · rw [if_pos hnil, hnil]
    rfl
  · rw [if_neg hnil, decide_eq_true (List.length_pos_iff.mpr hnil)]
    rfl

/-! ### Suspects -/

/-- The registers that marking a channel suspect may change. -/
abbrev Reg.suspect : List Nat := Reg.failed Reg.MEM_SUSPECT 8 ++ Reg.MEM_EVENT :: Reg.ledger

theorem Reg.suspect_not_ledger : ∀ k < 8, Reg.MEM_SUSPECT + 4 * k ∉ Reg.MEM_EVENT :: Reg.ledger := by decide

/-- R224: a channel becomes suspect; no mark goes. -/
theorem State.suspect_marks {s : State} (hwf : storeWf 0 s.regs = true) {ch : Nat} (hch : ch < 256) (detail : Nat) :
    (s.suspect ch detail).bit (Reg.MEM_SUSPECT + 4 * (ch / 32)) (ch % 32) = true ∧
      (∀ c < 256, s.bit (Reg.MEM_SUSPECT + 4 * (c / 32)) (c % 32) = true →
        (s.suspect ch detail).bit (Reg.MEM_SUSPECT + 4 * (c / 32)) (c % 32) = true) ∧
      Writes (.hlt :: Part.signalled) Reg.suspect s (s.suspect ch detail) := by
  have hset := s.setBit_writes (Reg.MEM_SUSPECT + 4 * (ch / 32)) (ch % 32) true
  have hbit := s.bit_setBit (Reg.MEM_SUSPECT + 4 * (ch / 32)) (ch % 32) true hwf (by omega)
  have hmono (c : Nat) (h : s.bit (Reg.MEM_SUSPECT + 4 * (c / 32)) (c % 32) = true) :=
    State.bit_setBit_mono hwf (Reg.MEM_SUSPECT + 4 * (ch / 32)) (j := ch % 32) (by omega) h
  have hmem : Reg.MEM_SUSPECT + 4 * (ch / 32) ∈ Reg.failed Reg.MEM_SUSPECT 8 := Reg.mem_failed (by omega)
  unfold State.suspect
  split
  · next h => exact ⟨h, fun _ _ h => h, Writes.refl s⟩
  · generalize s.setBit (Reg.MEM_SUSPECT + 4 * (ch / 32)) (ch % 32) true = u at *
    have hrest := ((u.event_writes Reg.MEM_EVENT 0).widen (Q := .hlt :: Part.signalled)
      (M := Reg.MEM_EVENT :: Reg.ledger)).step (State.ledgerEvent_writes _ 0x05 0 ch detail [])
    refine ⟨(hrest.bit (Reg.suspect_not_ledger _ (by omega)) _).trans hbit, fun c hc h =>
      (hrest.bit (Reg.suspect_not_ledger _ (by omega)) _).trans (hmono c h), (hset.widen (hl := fun o ho => ?_)).step hrest
        (hl := fun _ ho => List.mem_append_right _ ho)⟩
    rw [List.mem_singleton.mp ho]
    exact List.mem_append_left _ hmem

theorem State.suspectAll_marks (detail : Nat) (chs : List (Fin 256)) {s : State} (hwf : storeWf 0 s.regs = true) :
    (∀ ch ∈ chs, (s.suspectAll detail chs).bit (Reg.MEM_SUSPECT + 4 * (ch.val / 32)) (ch.val % 32) = true) ∧
      (∀ c < 256, s.bit (Reg.MEM_SUSPECT + 4 * (c / 32)) (c % 32) = true →
        (s.suspectAll detail chs).bit (Reg.MEM_SUSPECT + 4 * (c / 32)) (c % 32) = true) ∧
      Writes (.hlt :: Part.signalled) Reg.suspect s (s.suspectAll detail chs) := by
  induction chs generalizing s with
  | nil => exact ⟨fun _ h => absurd h List.not_mem_nil, fun _ _ h => h, Writes.refl s⟩
  | cons ch chs ih =>
    obtain ⟨hbit, hmono, hlaw⟩ := State.suspect_marks hwf ch.isLt detail
    rw [State.suspectAll]
    generalize s.suspect ch detail = u at *
    obtain ⟨hall, hmono', hlaw'⟩ := ih (hlaw.wf hwf)
    refine ⟨fun g hg => ?_, fun c hc h => hmono' c hc (hmono c hc h), hlaw.step hlaw' (hl := fun _ h => h)⟩
    obtain rfl | hgs := List.mem_cons.mp hg
    · exact hmono' g g.isLt hbit
    · exact hall g hgs

/-! ### Channels -/

/-- Distinct places of HBM have distinct keys. -/
theorem hbmKey_inj {c c' o o' : Nat} (ho : o < 2 ^ 31) (ho' : o' < 2 ^ 31) (h : hbmKey c o = hbmKey c' o') : c = c' ∧ o = o' := by
  unfold hbmKey at h
  omega

/-- A march test leaves zeros in its channel and no other byte changed (R232). -/
theorem State.byteAt_zeroChannel (s : State) {ch c o : Nat} (ho : o < chanBytes) :
    (s.zeroChannel ch).byteAt (hbmKey c o) = if c = ch then 0 else s.byteAt (hbmKey c o) := by
  have hdrop : (s.zeroChannel ch).byteAt (hbmKey c o) =
      storeGet 0 (storeDrop s.mem fun a => hbmKey ch 0 ≤ a && a < hbmKey ch 0 + chanBytes) (hbmKey c o) := rfl
  rw [hdrop, storeGet_storeDrop]
  unfold hbmKey chanBytes at *
  by_cases hc : c = ch
  · rw [if_pos hc, if_pos]
    subst hc
    simp only [Bool.and_eq_true, decide_eq_true_eq]
    omega
  · rw [if_neg hc, if_neg]
    · rfl
    · simp only [Bool.and_eq_true, decide_eq_true_eq]
      omega

theorem State.byteAt_zeroChannels (l : List Nat) (s : State) {c o : Nat} (ho : o < chanBytes) :
    (s.zeroChannels l).byteAt (hbmKey c o) = if c ∈ l then 0 else s.byteAt (hbmKey c o) := by
  induction l generalizing s with
  | nil => rfl
  | cons ch l ih =>
    rw [State.zeroChannels, ih, State.byteAt_zeroChannel s ho]
    by_cases hl : c ∈ l
    · rw [if_pos hl, if_pos (List.mem_cons_of_mem _ hl)]
    · by_cases hc : c = ch
      · rw [if_neg hl, if_pos hc, if_pos (by simp [hc])]
      · rw [if_neg hl, if_neg hc, if_neg (by simp [hc, hl])]

/-! ### The memory test -/

theorem exec_memTestDone {s : State} (h : s.testStatus .memTest = 1) (failed : List (Fin 256)) :
    exec (.memTestDone failed) s = .next
      (let ctrl := s.hbm.testCtrl
      let n := failed.length
      let s1 := if ctrl.testBit 4 then s.zeroChannels (coveredBy ctrl) else s
      let s2 := ((s1.endTest .memTest (decide (0 < n))).setFld Reg.MEM_TEST_CTRL 31 24 (min n 255)).suspectAll 5 failed
      let s3 := s2.event Reg.MEM_EVENT 8
      if 0 < n then s3.event Reg.MEM_EVENT 9 else s3) := by
  change execMemTestDone failed s = _
  rw [execMemTestDone, if_pos h]

/-- R224, R232: the end of a test of the memory. -/
theorem memTestDone_ends {s : State} (hwf : storeWf 0 s.regs = true) (h : s.testStatus .memTest = 1) (failed : List (Fin 256)) :
    ∃ t, exec (.memTestDone failed) s = .next t ∧
      t.testStatus .memTest = (if failed = [] then 3 else 4) ∧ t.fld Reg.MEM_TEST_CTRL 31 24 = min failed.length 255 ∧
      (∀ ch ∈ failed, t.bit (Reg.MEM_SUSPECT + 4 * (ch.val / 32)) (ch.val % 32) = true) ∧ t.bit Reg.MEM_EVENT 8 = true ∧
      (failed ≠ [] → t.bit Reg.MEM_EVENT 9 = true) ∧
      (∀ ch o, ch < 256 → o < 2000000000 → t.byteAt (hbmKey ch o) =
        if s.hbm.testCtrl.testBit 4 ∧ ch ∈ coveredBy s.hbm.testCtrl then 0 else s.byteAt (hbmKey ch o)) ∧
      s.keeps t ([.mem, .adm, .hbm, .hlt] ++ Part.signalled) := by
  refine ⟨_, exec_memTestDone h failed, ?_⟩
  dsimp only
  have hzero : Evolves [.mem, .hbm] s (if s.hbm.testCtrl.testBit 4 then s.zeroChannels (coveredBy s.hbm.testCtrl) else s) := by
    split
    · exact s.zeroChannels_evolves _
    · exact Evolves.refl s
  have hbytes (ch o : Nat) (ho : o < 2000000000) :
      (if s.hbm.testCtrl.testBit 4 then s.zeroChannels (coveredBy s.hbm.testCtrl) else s).byteAt (hbmKey ch o) =
        if s.hbm.testCtrl.testBit 4 ∧ ch ∈ coveredBy s.hbm.testCtrl then 0 else s.byteAt (hbmKey ch o) := by
    by_cases hmode : s.hbm.testCtrl.testBit 4
    · rw [if_pos hmode, State.byteAt_zeroChannels _ s ho]
      simp [hmode]
    · rw [if_neg hmode, if_neg (fun hboth => hmode hboth.1)]
  generalize (if s.hbm.testCtrl.testBit 4 then s.zeroChannels (coveredBy s.hbm.testCtrl) else s) = u0 at *
  obtain ⟨hstatus, hcount, hadm, hended⟩ := State.testEnded (hzero.regs hwf) .memTest (decide (0 < failed.length)) (hi := 31)
    (lo := 24) (n := min failed.length 255) (by omega) (by decide) (by decide) (o := Reg.MEM_TEST_CTRL) rfl
  have hlaw1 := ((hzero.writes).widen (Q := [.mem, .adm, .hbm, .hlt] ++ Part.signalled)
    (M := Reg.MEM_TEST_CTRL :: Reg.suspect)).step hended
  generalize (u0.endTest .memTest (decide (0 < failed.length))).setFld Reg.MEM_TEST_CTRL 31 24 (min failed.length 255) = u1 at *
  obtain ⟨hmarks, -, hsuspect⟩ := State.suspectAll_marks 5 failed (hlaw1.wf hwf)
  have hlaw2 := hlaw1.step hsuspect (hl := fun _ ho => List.mem_cons_of_mem _ ho)
  generalize u1.suspectAll 5 failed = u2 at *
  obtain ⟨hbit, hbit1, hsignal⟩ := State.endSignalled (hlaw2.wf hwf) Reg.MEM_EVENT (i := 8) (j := 9) (by decide) (by decide)
    failed.length
  generalize (if 0 < failed.length then (u2.event Reg.MEM_EVENT 8).event Reg.MEM_EVENT 9 else u2.event Reg.MEM_EVENT 8) = u3 at *
  have hall := hlaw2.step hsignal (hl := fun o ho => by rw [List.mem_singleton.mp ho]; decide)
  have hctrl : u3.reg Reg.MEM_TEST_CTRL = u1.reg Reg.MEM_TEST_CTRL := (hsignal.reg (by decide)).trans (hsuspect.reg (by decide))
  have hmem : u3.mem = u0.mem := Eq.trans (hsignal.evolves.keep .mem (by decide))
    (Eq.trans (hsuspect.evolves.keep .mem (by decide)) (hended.evolves.keep .mem (by decide)))
  refine ⟨?_, (State.fld_of_reg hctrl 31 24).trans hcount, fun ch hch => ?_, hbit,
    fun hne => hbit1 (List.length_pos_iff.mpr hne), fun ch o _ ho => ?_, hall.evolves.keep⟩
  · refine (State.testStatus_congr (h := .memTest) hctrl).trans (hstatus.trans ?_)
    by_cases hnil : failed = []
    · rw [if_pos hnil, hnil]
      rfl
    · rw [if_neg hnil, decide_eq_true (List.length_pos_iff.mpr hnil)]
      rfl
  · have hne : Reg.MEM_SUSPECT + 4 * (ch.val / 32) ∉ [Reg.MEM_EVENT] := fun hmem =>
      Reg.suspect_not_ledger (ch.val / 32) (by omega) (by rw [List.mem_singleton.mp hmem]; exact List.mem_cons_self)
    exact (hsignal.bit hne _).trans (hmarks ch hch)
  · rw [← hbytes ch o ho, State.byteAt, State.byteAt, hmem]

/-! ### The margin scan -/

theorem exec_memScanDone {s : State} (h : s.testStatus .memScan = 1) (results : List ScanResult) :
    exec (.memScanDone results) s = .next (((s.scanAll results).endTest .memScan false).event Reg.MEM_EVENT 8) := by
  change execMemScanDone results s = _
  rw [execMemScanDone, if_pos h]

/-- A register of one unit of a bank is none of those outside the banks. -/
theorem bankKey_ne {off i o : Nat} (hoff : off < 67108864) (ho : o < 67108864) (hne : o ≠ off) : o ≠ bankKey off i := by
  unfold bankKey
  omega

/-- R232: a scan shows its result. -/
theorem memScanDone_ends {s : State} (hwf : storeWf 0 s.regs = true) (h : s.testStatus .memScan = 1) {r : ScanResult}
    (hpin : r.pin < 72) : ∃ t, exec (.memScanDone [r]) s = .next t ∧
      t.testStatus .memScan = 3 ∧ t.bit Reg.MEM_EVENT 8 = true ∧ t.regN (bankKey Reg.MEM_SCAN_RESULT r.channel) =
        min r.timing 255 + 256 * min r.volt 255 + 65536 * r.pin + 2 ^ 31 ∧ t.hlt.scanDue = true ∧
      t.hlt.bytes = s.hlt.bytes ∧ s.keeps t ([.adm, .hlt] ++ Part.signalled) ∧ s.sameBytes t := by
  refine ⟨_, exec_memScanDone h [r], ?_⟩
  have hone : s.scanAll [r] = s.scanOne r := rfl
  rw [hone]
  have hlaw := s.scanOne_evolves r
  have hvalue : (s.scanOne r).regN (bankKey Reg.MEM_SCAN_RESULT r.channel) =
      min r.timing 255 + 256 * min r.volt 255 + 65536 * r.pin + 2 ^ 31 :=
    s.regN_setRegN (bankKey Reg.MEM_SCAN_RESULT r.channel)
      (min r.timing 255 + 2 ^ 8 * min r.volt 255 + 2 ^ 16 * r.pin + 2 ^ 31) hwf (by omega)
  have hdue : (s.scanOne r).hlt.scanDue = true := rfl
  have hbytes : (s.scanOne r).hlt.bytes = s.hlt.bytes := rfl
  generalize s.scanOne r = u at *
  obtain ⟨hstatus, -, hended⟩ := State.endTest_ends (hlaw.regs hwf) .memScan false
  have hlaw1 := (hlaw.widen (Q := [.adm, .hlt] ++ Part.signalled) rfl).step hended.evolves rfl
  generalize u.endTest .memScan false = v at *
  have hevent := v.event_writes Reg.MEM_EVENT 8
  have hall := hlaw1.step hevent.evolves rfl
  have hhlt : (v.event Reg.MEM_EVENT 8).hlt = u.hlt :=
    Eq.trans (hevent.evolves.keep .hlt (by decide)) (hended.evolves.keep .hlt (by decide))
  have hbank (o : Nat) (ho : o < 67108864) (hne : o ≠ Reg.MEM_SCAN_RESULT) : bankKey Reg.MEM_SCAN_RESULT r.channel ∉ [o] :=
    fun hmem => bankKey_ne (by decide) ho hne (List.mem_singleton.mp hmem).symm
  refine ⟨(State.testStatus_congr (h := .memScan) (hevent.reg (by decide))).trans hstatus,
    v.bit_event _ _ (hlaw1.regs hwf) (by decide), ?_, by rw [hhlt]; exact hdue, by rw [hhlt]; exact hbytes, hall.keep,
    hall.sameBytes⟩
  exact (hevent.regN (hbank _ (by decide) (by decide))).trans ((hended.regN (hbank _ (by decide) (by decide))).trans hvalue)

/-- Settles O19: pops remove the oldest record; tests start at once or wait, and report as they end. -/
theorem popsAndTestsRun : Obligations.PopsAndTestsRun := by
  unfold Obligations.PopsAndTestsRun
  refine ⟨fun s hinv => ⟨fun hhost hnone => ?_, fun hhost hsome => ⟨_, exec_admDonePop hhost, State.donePop_pops hinv.2 hsome⟩,
    fun hidle hstep => deferredRequestStart_starts hinv.2 hidle hstep⟩, fun s hinv hhost => ⟨fun p hp => ⟨fun hbusy => ?_,
      fun h1 h2 => ?_⟩, fun ctrl h c hc => ?_⟩, fun s hinv => ⟨fun engines paths h => meTestDone_ends hinv.2 h engines paths,
        fun failed h => veTestDone_ends hinv.2 h failed, fun failed h => memTestDone_ends hinv.2 h failed,
        fun r h hpin => memScanDone_ends hinv.2 h hpin⟩⟩
  · rw [exec_admDonePop hhost, State.donePop, if_pos (by rw [hnone]; rfl)]
  · rw [exec_testStart hhost (c := p.1) (h := p.2) hp, State.requestTest_ignored hbusy]
  · obtain ⟨hstarts, hwaits, hslots, hlaw⟩ := State.requestTest_answers hinv.2 h1 h2
    exact ⟨_, exec_testStart hhost (c := p.1) (h := p.2) hp, hstarts, hwaits, hslots, hlaw.touches⟩
  · have hrequest : ∃ t, exec c s = .next t ∧ TestRequested s t h ctrl := by
      obtain ⟨rfl, rfl⟩ | ⟨rfl, rfl⟩ := hc
      · exact ⟨_, exec_memTestStart hhost ctrl, State.memTestStart_requests hinv.2 ctrl⟩
      · exact ⟨_, exec_memScanStart hhost ctrl, State.memScanStart_requests hinv.2 ctrl⟩
    obtain ⟨t, hexec, hreq⟩ := hrequest
    exact ⟨t, hexec, hreq.operands.1, hreq.operands.2, hreq.ignored, fun h1 h2 => ⟨hreq.apart h1 h2,
      fun htouch => hreq.refused h1 h2 htouch, fun htouch hok => ⟨hreq.starts h1 h2 htouch hok, hreq.waits h1 h2 htouch hok⟩⟩,
      hreq.touches⟩

end Sys2Proof.Machine

/-! Reading back what a write of device memory leaves: every byte of HBM, of the Orangery and of the scratchpads by its memory
key, with the write-combining entries laid over it (R215, R218, R233, R234). -/

namespace Sys2Proof.Machine

set_option Elab.async false

theorem storeGet_storeSetMany_inside {α : Type} [DecidableEq α] (d : α) (vs : List α) (m : List (Nat × α)) (k i : Nat)
    (hw : storeWf d m = true) (h : i < vs.length) : storeGet d (storeSetMany d m k vs) (k + i) = vs.getD i d := by
  induction vs generalizing m k i with
  | nil => exact absurd h (Nat.not_lt_zero _)
  | cons v vs ih =>
    unfold storeSetMany
    cases i with
    | zero => exact (storeGet_storeSetMany_below d vs _ _ _ (by omega)).trans (storeGet_storeSet_same d m k v hw)
    | succ i =>
      have := ih (storeSet d m k v) (k + 1) i (storeWf_storeSet d m k v hw) (Nat.lt_of_succ_lt_succ h)
      rw [show k + (i + 1) = k + 1 + i by omega, this]
      exact (List.getD_cons_succ ..).symm

/-! ### Entries over a line -/

/-- The byte that a channel's entries lay over byte `x` of a line, if any. -/
def laid (es : List WcbEntry) (line x : Nat) : Option Byte :=
  (es.find? fun e => e.line = line ∧ e.mask.getLsbD x).map fun e => e.data.getD x 0

theorem State.mergedByte_eq (s : State) (ch o : Nat) (b : Byte) :
    s.mergedByte ch o b = (laid (s.wcb ch) (o / 64) (o % 64)).getD b := by
  unfold State.mergedByte laid
  cases (s.wcb ch).find? fun e => e.line = o / 64 ∧ e.mask.getLsbD (o % 64) <;> rfl

theorem laid_cons (e : WcbEntry) (es : List WcbEntry) (line x : Nat) : laid (e :: es) line x =
    if e.line = line ∧ e.mask.getLsbD x = true then some (e.data.getD x 0) else laid es line x := by
  unfold laid
  by_cases h : e.line = line ∧ e.mask.getLsbD x = true
  · rw [if_pos h, List.find?_cons_of_pos (by simpa using h)]
    rfl
  · rw [if_neg h, List.find?_cons_of_neg (by simpa using h)]

theorem laid_append (es fs : List WcbEntry) (line x : Nat) : laid (es ++ fs) line x = (laid es line x).or (laid fs line x) := by
  induction es with
  | nil => rfl
  | cons e es ih =>
    rw [List.cons_append, laid_cons, laid_cons, ih]
    split <;> rfl

theorem laid_of_noLine {es : List WcbEntry} {line : Nat} (h : ∀ e ∈ es, e.line ≠ line) (x : Nat) : laid es line x = none := by
  unfold laid
  rw [List.find?_eq_none.mpr fun e he => by simp [h e he]]
  rfl

theorem laid_filter (es : List WcbEntry) (drop line x : Nat) : laid (es.filter fun e => e.line ≠ drop) line x =
    if line = drop then none else laid es line x := by
  split
  · next h => exact laid_of_noLine (fun e he => by simpa [h] using (List.mem_filter.mp he).2) x
  · next h =>
    induction es with
    | nil => rfl
    | cons e es ih =>
      by_cases he : e.line = drop
      · rw [List.filter_cons_of_neg (by simpa using he), ih, laid_cons,
          if_neg fun hl => h (hl.1.symm.trans he)]
      · rw [List.filter_cons_of_pos (by simpa using he), laid_cons, laid_cons, ih]

/-- Where the lines are distinct, a line's entry alone lays bytes over it. -/
theorem laid_of_mem {es : List WcbEntry} (hes : combines es) {e : WcbEntry} (he : e ∈ es) (x : Nat) :
    laid es e.line x = if e.mask.getLsbD x = true then some (e.data.getD x 0) else none := by
  obtain ⟨hnodup, -⟩ := hes
  induction es with
  | nil => exact absurd he List.not_mem_nil
  | cons f es ih =>
    rw [List.map_cons, List.nodup_cons] at hnodup
    rw [laid_cons]
    rcases List.mem_cons.mp he with rfl | he
    · rw [laid_of_noLine (fun g hg hl => hnodup.1 (List.mem_map.mpr ⟨g, hg, hl⟩))]
      simp
    · rw [if_neg fun hl : f.line = e.line ∧ _ => hnodup.1 (List.mem_map.mpr ⟨e, he, hl.1.symm⟩)]
      exact ih he hnodup.2

/-! ### Masks and merged bytes -/

theorem byteMask_getLsbD {off n : Nat} (h : off + n ≤ 64) (x : Nat) :
    (byteMask off n).getLsbD x = decide (off ≤ x ∧ x < off + n) := by
  rw [byteMask, BitVec.getLsbD_ofNat, Nat.testBit_mul_two_pow, Nat.testBit_two_pow_sub_one, Bool.eq_iff_iff]
  simp only [Bool.and_eq_true, decide_eq_true_eq]
  omega

theorem getD_mergeBytes (m : BitVec 64) (old new : List Byte) {x : Nat} (h : x < 64) :
    (mergeBytes m old new).getD x 0 = if m.getLsbD x then new.getD x 0 else old.getD x 0 := by
  rw [mergeBytes, List.getD_eq_getElem _ _ (by simpa using h), List.getElem_map, List.getElem_range]

theorem getD_layBytes {off n : Nat} {bs : List Byte} (hn : bs.length = n) {x : Nat} (hx : x < 64) (hoff : off ≤ x)
    (h : x < off + n) : (layBytes off bs).getD x 0 = bs.getD (x - off) 0 := by
  have hlen : x < (List.replicate off (0 : Byte) ++ bs).length := by simp; omega
  rw [layBytes, padTo, List.getD_eq_getElem?_getD, List.getD_eq_getElem?_getD, List.getElem?_take, if_pos hx,
    List.getElem?_append_left hlen, List.getElem?_append_right (by simpa using hoff), List.length_replicate]

/-- An entry with the bytes of a later partial write of its line. -/
def WcbEntry.merge (e : WcbEntry) (who : Requester) (off : Nat) (bs : List Byte) : WcbEntry :=
  ⟨e.line, who, e.mask ||| byteMask off bs.length, mergeBytes (byteMask off bs.length) e.data (layBytes off bs)⟩

/-- What a partial write lays over its line: its own bytes under its mask, and elsewhere what the entries lay already. -/
def laidOver (es : List WcbEntry) (l off : Nat) (bs : List Byte) (line x : Nat) : Option Byte :=
  if line = l ∧ off ≤ x ∧ x < off + bs.length then some (bs.getD (x - off) 0) else laid es line x

@[simp] theorem WcbEntry.merge_line (e : WcbEntry) (who) (off) (bs) : (e.merge who off bs).line = e.line := rfl
@[simp] theorem WcbEntry.merge_mask (e : WcbEntry) (who) (off) (bs) :
    (e.merge who off bs).mask = e.mask ||| byteMask off bs.length := rfl
@[simp] theorem WcbEntry.merge_data (e : WcbEntry) (who) (off) (bs) :
    (e.merge who off bs).data = mergeBytes (byteMask off bs.length) e.data (layBytes off bs) := rfl

/-- Merged into its line's entry, which is there unless the byte is none of those written. -/
theorem laid_merge {es : List WcbEntry} {l off : Nat} {bs : List Byte} (who : Requester) (hfit : off + bs.length ≤ 64)
    {line x : Nat} (hx : x < 64) (hl : line = l → (∃ e ∈ es, e.line = l) ∨ ¬ (off ≤ x ∧ x < off + bs.length)) :
    laid (es.map fun e => if e.line = l then e.merge who off bs else e) line x = laidOver es l off bs line x := by
  induction es with
  | nil =>
    rw [laidOver, if_neg]
    · rfl
    · exact fun ⟨hline, hin⟩ => (hl hline).elim (fun ⟨_, he, _⟩ => absurd he List.not_mem_nil) (fun hn => hn hin)
  | cons e es ih =>
    rw [List.map_cons, laid_cons, laidOver, laid_cons]
    by_cases he : e.line = l
    · rw [if_pos he]
      rw [WcbEntry.merge_line, WcbEntry.merge_mask, WcbEntry.merge_data]
      rw [BitVec.getLsbD_or, byteMask_getLsbD hfit, getD_mergeBytes _ _ _ hx, byteMask_getLsbD hfit]
      by_cases hline : line = l
      · by_cases hin : off ≤ x ∧ x < off + bs.length
        · rw [if_pos ⟨he.trans hline.symm, by simp [hin]⟩, if_pos (by simpa using hin), if_pos ⟨hline, hin⟩,
            getD_layBytes rfl hx hin.1 hin.2]
        · have hrest := ih fun _ => .inr hin
          rw [laidOver, if_neg fun hc => hin hc.2] at hrest
          rw [hrest, if_neg (c := line = l ∧ _) fun hc => hin hc.2]
          simp [hin]
      · have hne : e.line ≠ line := fun hc => hline (hc.symm.trans he)
        have hrest := ih fun hc => absurd hc hline
        rw [laidOver, if_neg fun hc => hline hc.1] at hrest
        rw [if_neg fun hc => hne hc.1, if_neg fun hc => hline hc.1, if_neg fun hc => hne hc.1, hrest]
    · rw [if_neg he]
      have hrest : laid _ line x = _ := ih fun hc => (hl hc).imp_left fun ⟨f, hf, hfl⟩ =>
        ⟨f, (List.mem_cons.mp hf).resolve_left fun hfe => he (hfe ▸ hfl), hfl⟩
      rw [hrest, laidOver]
      by_cases hov : line = l ∧ off ≤ x ∧ x < off + bs.length
      · rw [if_pos hov, if_pos hov, if_neg fun hc => he (hc.1.trans hov.1)]
      · rw [if_neg hov, if_neg hov]

theorem laid_new {es : List WcbEntry} {l off : Nat} {bs : List Byte} (who : Requester) (hfit : off + bs.length ≤ 64)
    (hl : ∀ e ∈ es, e.line ≠ l) {line x : Nat} (hx : x < 64) :
    laid (es ++ [⟨l, who, byteMask off bs.length, layBytes off bs⟩]) line x = laidOver es l off bs line x := by
  rw [laid_append, laid_cons, byteMask_getLsbD hfit, laidOver]
  dsimp only
  by_cases hline : line = l
  · subst hline
    rw [laid_of_noLine hl]
    by_cases hin : off ≤ x ∧ x < off + bs.length
    · rw [if_pos ⟨rfl, by simpa using hin⟩, if_pos ⟨rfl, hin⟩, getD_layBytes rfl hx hin.1 hin.2]
      rfl
    · rw [if_neg fun hc => hin (by simpa using hc.2), if_neg fun hc => hin hc.2]
      rfl
  · rw [if_neg fun hc => hline hc.1.symm, if_neg fun hc => hline hc.1]
    exact Option.or_none

/-! ### Bytes by memory key -/

/-- The byte at a memory key from 2^39 on, as a read without error returns it. -/
def State.keyByte (s : State) (k : Nat) : Byte :=
  if k < 2 ^ 40 then s.hbmByte ((k - 2 ^ 39) / 2 ^ 31) ((k - 2 ^ 39) % 2 ^ 31) else s.byteAt k

theorem State.keyByte_hbmKey (s : State) {ch o : Nat} (hch : ch < 256) (ho : o < 2 ^ 31) :
    s.keyByte (hbmKey ch o) = s.hbmByte ch o := by
  unfold State.keyByte hbmKey
  rw [if_pos (by omega), show (2 ^ 39 + ch * 2 ^ 31 + o - 2 ^ 39) / 2 ^ 31 = ch by omega,
    show (2 ^ 39 + ch * 2 ^ 31 + o - 2 ^ 39) % 2 ^ 31 = o by omega]

theorem State.keyByte_high (s : State) {k : Nat} (h : 2 ^ 40 ≤ k) : s.keyByte k = s.byteAt k := if_neg (by omega)

/-- A memory key below 2^40 is a place of HBM. -/
theorem hbmKey_of_lt {k : Nat} (h : 2 ^ 39 ≤ k) (hk : k < 2 ^ 40) :
    ∃ ch o, ch < 256 ∧ o < 2 ^ 31 ∧ k = hbmKey ch o :=
  ⟨(k - 2 ^ 39) / 2 ^ 31, (k - 2 ^ 39) % 2 ^ 31, by omega, by omega, by unfold hbmKey; omega⟩

theorem stripe_lt {s : State} {ch : Nat} (h : ch ∈ s.stripe) : ch < 256 := by
  obtain ⟨p, hp, rfl⟩ := List.mem_map.mp (List.mem_filter.mp h).1
  rw [List.mem_range] at hp
  unfold stripeChannel
  omega

theorem stripe_nodup (s : State) : s.stripe.Nodup := by
  refine (List.Nodup.map_on (fun p hp q hq h => ?_) List.nodup_range).filter _
  rw [List.mem_range] at hp hq
  unfold stripeChannel at h
  omega

theorem State.hbmPlace_ch {s : State} {a ch o : Nat} (h : s.hbmPlace a = some (ch, o)) : ch < 256 := by
  simp only [State.hbmPlace] at h
  split at h
  · split at h
    · obtain ⟨c, hc, hco⟩ := Option.map_eq_some_iff.mp h
      obtain ⟨rfl, -⟩ := Prod.mk.inj hco
      exact stripe_lt (List.mem_of_getElem? hc)
    · cases h
  · split at h
    · next hin =>
      obtain ⟨rfl, -⟩ := Prod.mk.inj (Option.some.inj h)
      by_contra hge
      have := BitVec.getLsbD_of_ge s.hbm.inService _ (Nat.le_of_not_lt hge)
      rw [this] at hin
      exact absurd hin.1 Bool.false_ne_true
    · cases h

theorem State.chans_le (s : State) : s.chans ≤ 256 := by
  unfold State.chans State.stripe
  exact (List.length_filter_le _ _).trans (by simp)

theorem State.lt_of_hbmPlace {s : State} {a ch o : Nat} (h : s.hbmPlace a = some (ch, o)) : a < 2 ^ 40 := by
  have hch := State.hbmPlace_ch h
  simp only [State.hbmPlace] at h
  split at h
  · omega
  · split at h
    · obtain ⟨hc, -⟩ := Prod.mk.inj (Option.some.inj h)
      omega
    · cases h

/-- Within 256 bytes the places of HBM follow one another. -/
theorem State.hbmPlace_row {s : State} {a ch o i : Nat} (h : s.hbmPlace a = some (ch, o)) (hi : a % 256 + i < 256) :
    s.hbmPlace (a + i) = some (ch, o + i) ∧ o % 256 = a % 256 := by
  have hlt := State.hbmPlace_lt h
  simp only [State.hbmPlace] at h ⊢
  split at h
  · next ha =>
    split at h
    · next hin =>
      have hk : 0 < s.chans := by
        rcases Nat.eq_zero_or_pos s.chans with h0 | h0
        · rw [h0] at hin; omega
        · exact h0
      have hmul : s.chans * chanBytes = 256 * (s.chans * 7812500) := by unfold chanBytes; ring
      have hg : (a + i) / 1024 = a / 1024 := by omega
      rw [if_pos (by omega), if_pos (by omega), hg]
      obtain ⟨c, hc, hco⟩ := Option.map_eq_some_iff.mp h
      obtain ⟨rfl, rfl⟩ := Prod.mk.inj hco
      rw [hc]
      refine ⟨?_, by omega⟩
      show some (c, _) = some (c, _)
      rw [show (a + i) % 1024 = a % 1024 + i by omega, Nat.add_assoc]
    · cases h
  · next ha =>
    split at h
    · next hin =>
      obtain ⟨rfl, rfl⟩ := Prod.mk.inj (Option.some.inj h)
      have hch : (a + i - 2 ^ 39) / 2 ^ 31 = (a - 2 ^ 39) / 2 ^ 31 := by omega
      have ho : (a + i - 2 ^ 39) % 2 ^ 31 = (a - 2 ^ 39) % 2 ^ 31 + i := by omega
      rw [if_neg (by omega), hch, ho, if_pos]
      · exact ⟨rfl, by omega⟩
      · refine ⟨hin.1, ?_⟩
        have : chanBytes = 256 * 7812500 := rfl
        omega
    · cases h

/-- Within a line the places of HBM follow one another. -/
theorem State.hbmPlace_line {s : State} {a ch o i : Nat} (h : s.hbmPlace a = some (ch, o)) (hi : a % 64 + i < 64) :
    s.hbmPlace (a + i) = some (ch, o + i) ∧ o % 64 = a % 64 := by
  obtain ⟨hplace, hrow⟩ := State.hbmPlace_row h (i := i) (by omega)
  exact ⟨hplace, by omega⟩

/-- On one side of the windows' boundary, places of HBM are those of one address only. -/
theorem State.hbmPlace_inj {s : State} {a b : Nat} {p : Nat × Nat} (ha : s.hbmPlace a = some p) (hb : s.hbmPlace b = some p)
    (hside : a < 2 ^ 39 ↔ b < 2 ^ 39) : a = b := by
  simp only [State.hbmPlace] at ha hb
  by_cases hlow : a < 2 ^ 39
  · rw [if_pos hlow] at ha
    rw [if_pos (hside.mp hlow)] at hb
    split at ha
    · next hain =>
      split at hb
      · next hbin =>
        have hk : 0 < s.chans := by
          rcases Nat.eq_zero_or_pos s.chans with h0 | h0
          · rw [h0] at hain; omega
          · exact h0
        obtain ⟨c, hc, hco⟩ := Option.map_eq_some_iff.mp ha
        obtain ⟨d, hd, hdo⟩ := Option.map_eq_some_iff.mp hb
        obtain ⟨hcd, ho⟩ := Prod.mk.inj (hco.trans hdo.symm)
        have hmod : a / 1024 % s.chans = b / 1024 % s.chans :=
          (List.getElem?_inj (Nat.mod_lt _ hk) (stripe_nodup s)).mp (hc.trans ((congrArg some hcd).trans hd.symm))
        have hdiv : a / 1024 / s.chans = b / 1024 / s.chans := by omega
        have hrow : a / 1024 = b / 1024 := by
          rw [← Nat.div_add_mod (a / 1024) s.chans, ← Nat.div_add_mod (b / 1024) s.chans, hdiv, hmod]
        omega
      · cases hb
    · cases ha
  · rw [if_neg hlow] at ha
    rw [if_neg fun h => hlow (hside.mpr h)] at hb
    split at ha
    · split at hb
      · obtain ⟨h1, h2⟩ := Prod.mk.inj (Option.some.inj (ha.trans hb.symm))
        omega
      · cases hb
    · cases ha

theorem State.devKey_of_hbmPlace {s : State} {a ch o : Nat} (ha : a < 2 ^ 40) (h : s.hbmPlace a = some (ch, o)) :
    s.devKey a = some (hbmKey ch o) := by
  rw [State.devKey, if_pos ha, h]
  rfl

/-- A memory key is that of a place of HBM, or the address itself. -/
theorem State.devKey_cases {s : State} {a k : Nat} (h : s.devKey a = some k) :
    (a < 2 ^ 40 ∧ ∃ ch o, s.hbmPlace a = some (ch, o) ∧ k = hbmKey ch o) ∨
      (2 ^ 40 ≤ a ∧ (inOrangery a || inScratch a) = true ∧ k = a) := by
  unfold State.devKey at h
  split at h
  · next ha =>
    obtain ⟨⟨ch, o⟩, hplace, rfl⟩ := Option.map_eq_some_iff.mp h
    exact .inl ⟨ha, ch, o, hplace, rfl⟩
  · next ha =>
    split at h
    · next hin => exact .inr ⟨by omega, hin, (Option.some.inj h).symm⟩
    · cases h

theorem State.devKey_ge {s : State} {a k : Nat} (h : s.devKey a = some k) : 2 ^ 39 ≤ k := by
  rcases State.devKey_cases h with ⟨-, ch, o, -, rfl⟩ | ⟨ha, -, rfl⟩
  · unfold hbmKey; omega
  · omega

theorem State.hbmKey_lt_of_place {s : State} {a ch o : Nat} (h : s.hbmPlace a = some (ch, o)) : hbmKey ch o < 2 ^ 40 := by
  have hch := State.hbmPlace_ch h
  have ho := State.hbmPlace_lt h
  unfold chanBytes at ho
  unfold hbmKey
  omega

/-- On one side of the windows' boundary a memory key is that of one address only. -/
theorem State.devKey_inj {s : State} {a b k : Nat} (ha : s.devKey a = some k) (hb : s.devKey b = some k)
    (hside : a < 2 ^ 39 ↔ b < 2 ^ 39) : a = b := by
  rcases State.devKey_cases ha with ⟨-, ch, o, hpa, rfl⟩ | ⟨hhi, -, rfl⟩
  · have hlt := State.hbmKey_lt_of_place hpa
    rcases State.devKey_cases hb with ⟨-, ch', o', hpb, hk⟩ | ⟨hhi, -, hk⟩
    · have ho := State.hbmPlace_lt hpa
      have ho' := State.hbmPlace_lt hpb
      unfold chanBytes at ho ho'
      obtain ⟨rfl, rfl⟩ := hbmKey_inj (by omega) (by omega) hk
      exact State.hbmPlace_inj hpa hpb hside
    · omega
  · rcases State.devKey_cases hb with ⟨-, ch', o', hpb, hk⟩ | ⟨-, -, hk⟩
    · have hlt := State.hbmKey_lt_of_place hpb
      omega
    · exact hk

/-- Within a line the memory keys follow one another. -/
theorem State.devKey_line {s : State} {a k i : Nat} (h : s.devKey a = some k) (hi : a % 64 + i < 64) :
    s.devKey (a + i) = some (k + i) := by
  rcases State.devKey_cases h with ⟨hlow, ch, o, hplace, rfl⟩ | ⟨hhi, hin, hk⟩
  · rw [State.devKey_of_hbmPlace (by omega) (State.hbmPlace_line hplace hi).1, hbmKey, hbmKey, Nat.add_assoc, Nat.add_assoc,
      Nat.add_assoc]
  · rw [hk, State.devKey, if_neg (by omega), if_pos]
    unfold inOrangery inScratch at *
    rcases Bool.or_eq_true _ _ ▸ hin with h | h
    · rw [decide_eq_true_eq] at h
      rw [decide_eq_true (p := 2 ^ 40 ≤ a + i ∧ _) (by omega), Bool.true_or]
    · rw [decide_eq_true_eq] at h
      rw [decide_eq_true (p := 2 ^ 40 + 0x20000000 ≤ a + i ∧ _) (by omega), Bool.or_true]

/-- A line has memory keys throughout or nowhere. -/
theorem State.devKey_line_none {s : State} {a i : Nat} (h : s.devKey a = none) (hi : a % 64 + i < 64) :
    s.devKey (a + i) = none := by
  unfold State.devKey at h ⊢
  have hchan : chanBytes = 64 * 31250000 := rfl
  split at h
  · next ha =>
    rw [if_pos (by omega), Option.map_eq_none_iff]
    rw [Option.map_eq_none_iff] at h
    simp only [State.hbmPlace] at h ⊢
    split at h
    · next hlow =>
      have hmul : s.chans * chanBytes = 64 * (s.chans * 31250000) := by unfold chanBytes; ring
      rw [if_pos (by omega)]
      split at h
      · rw [if_pos (by omega), show (a + i) / 1024 = a / 1024 by omega]
        rw [Option.map_eq_none_iff] at h ⊢
        exact h
      · rw [if_neg (by omega)]
    · rw [if_neg (by omega), show (a + i - 2 ^ 39) / 2 ^ 31 = (a - 2 ^ 39) / 2 ^ 31 by omega,
        show (a + i - 2 ^ 39) % 2 ^ 31 = (a - 2 ^ 39) % 2 ^ 31 + i by omega]
      split at h
      · cases h
      · next hout => exact if_neg fun hin => hout ⟨hin.1, by omega⟩
  · next ha =>
    split at h
    · cases h
    · next hout =>
      rw [if_neg (by omega), if_neg]
      unfold inOrangery inScratch at *
      simp only [Bool.or_eq_true, decide_eq_true_eq] at hout ⊢
      omega

theorem State.devByte_eq (s : State) (a : Nat) : s.devByte a = (s.devKey a).elim 0 s.keyByte := by
  unfold State.devByte State.devKey
  by_cases ha : a < 2 ^ 40
  · rw [if_pos ha, if_pos ha]
    rcases hp : s.hbmPlace a with _ | ⟨ch, o⟩
    · rfl
    · have ho := State.hbmPlace_lt hp
      unfold chanBytes at ho
      rw [Option.map_some, Option.elim_some, s.keyByte_hbmKey (State.hbmPlace_ch hp) (by omega)]
  · rw [if_neg ha, if_neg ha]
    split
    · rw [Option.elim_some, s.keyByte_high (by omega)]
    · rfl

theorem State.devByte_of_key {s : State} {a k : Nat} (h : s.devKey a = some k) : s.devByte a = s.keyByte k := by
  rw [State.devByte_eq, h]
  rfl

theorem State.stripe_congr {s t : State} (h : t.hbm.inService = s.hbm.inService) : t.stripe = s.stripe := by
  unfold State.stripe
  rw [h]

theorem State.hbmPlace_congr {s t : State} (h : t.hbm.inService = s.hbm.inService) (a : Nat) : t.hbmPlace a = s.hbmPlace a := by
  unfold State.hbmPlace State.chans
  rw [State.stripe_congr h, h]

theorem State.devKey_congr {s t : State} (h : t.hbm.inService = s.hbm.inService) (a : Nat) : t.devKey a = s.devKey a := by
  unfold State.devKey
  rw [State.hbmPlace_congr h]

theorem State.keyByte_congr {s t : State} (hmem : t.mem = s.mem) (hwcb : t.hbm.wcb = s.hbm.wcb) : t.keyByte = s.keyByte := by
  funext k
  unfold State.keyByte State.hbmByte State.mergedByte State.byteAt State.wcb
  rw [hmem, hwcb]

/-- What every key reads decides what every device address reads. -/
theorem State.sameBytes_of_keys {s t : State} (hin : t.hbm.inService = s.hbm.inService)
    (h : ∀ k, 2 ^ 39 ≤ k → t.keyByte k = s.keyByte k) : s.sameBytes t := by
  intro a
  rw [State.devByte_eq, State.devByte_eq, State.devKey_congr hin]
  cases hk : s.devKey a with
  | none => rfl
  | some k => exact h k (State.devKey_ge hk)

end Sys2Proof.Machine

/-! What each write of device memory changes, by memory key (R215, R218, R221, R233). -/

namespace Sys2Proof.Machine

set_option Elab.async false

theorem Evolves.inv {P : List Part} {s t : State} (h : Evolves P s t) (hinv : s.inv) : t.inv :=
  ⟨h.mem hinv.1, h.regs hinv.2⟩

theorem State.byteAt_putBytes (s : State) (hmem : storeWf 0 s.mem = true) (k : Nat) (bs : List Byte) (j : Nat) :
    (s.putBytes k bs).byteAt j = if k ≤ j ∧ j < k + bs.length then bs.getD (j - k) 0 else s.byteAt j := by
  have hput : (s.putBytes k bs).byteAt j = storeGet 0 (storeSetMany 0 s.mem k bs) j := rfl
  rw [hput]
  split
  · next h =>
    obtain ⟨i, rfl⟩ := Nat.exists_eq_add_of_le h.1
    rw [storeGet_storeSetMany_inside 0 bs s.mem k i hmem (by omega), Nat.add_sub_cancel_left]
  · next h =>
    rcases Nat.lt_or_ge j k with hlt | hge
    · exact storeGet_storeSetMany_below 0 bs s.mem k j hlt
    · exact storeGet_storeSetMany_above 0 bs s.mem k j (by omega)

theorem State.wcb_setWcb (s : State) (hw : storeWf [] s.hbm.wcb = true) (ch : Nat) (es : List WcbEntry) (c : Nat) :
    (s.setWcb ch es).wcb c = if c = ch then es else s.wcb c := by
  have hset : (s.setWcb ch es).wcb c = storeGet [] (storeSet [] s.hbm.wcb ch es) c := rfl
  rw [hset]
  split
  · next h => rw [h]; exact storeGet_storeSet_same _ _ _ _ hw
  · next h => exact storeGet_storeSet_ne _ _ _ _ _ h

theorem State.wcb_lineWrite (s : State) (hw : storeWf [] s.hbm.wcb = true) (ch line : Nat) (bs : List Byte) (c : Nat) :
    (s.lineWrite ch line bs).wcb c = if c = ch then (s.wcb ch).filter (fun e => e.line ≠ line) else s.wcb c :=
  (s.putBytes (hbmKey ch (64 * line)) bs).wcb_setWcb hw ch _ c

theorem State.byteAt_lineWrite (s : State) (ch line : Nat) (bs : List Byte) (j : Nat) :
    (s.lineWrite ch line bs).byteAt j = (s.putBytes (hbmKey ch (64 * line)) bs).byteAt j := rfl

theorem State.hbmByte_eq (s : State) (ch o : Nat) :
    s.hbmByte ch o = (laid (s.wcb ch) (o / 64) (o % 64)).getD (s.byteAt (hbmKey ch o)) := s.mergedByte_eq ch o _

/-! ### Rewriting a span of keys -/

/-- The keys from `k` on read the bytes written, and every other key reads as before. -/
structure Rewrites (s t : State) (k : Nat) (bs : List Byte) : Prop where
  inside : ∀ i, i < bs.length → t.keyByte (k + i) = bs.getD i 0
  outside : ∀ j, 2 ^ 39 ≤ j → (j < k ∨ k + bs.length ≤ j) → t.keyByte j = s.keyByte j
  inService : t.hbm.inService = s.hbm.inService

/-- Every key reads as before. -/
structure ReadsSame (s t : State) : Prop where
  keys : ∀ j, 2 ^ 39 ≤ j → t.keyByte j = s.keyByte j
  inService : t.hbm.inService = s.hbm.inService

theorem ReadsSame.refl (s : State) : ReadsSame s s := ⟨fun _ _ => rfl, rfl⟩

theorem ReadsSame.trans {s t u : State} (h : ReadsSame s t) (g : ReadsSame t u) : ReadsSame s u :=
  ⟨fun j hj => (g.keys j hj).trans (h.keys j hj), g.inService.trans h.inService⟩

theorem ReadsSame.sameBytes {s t : State} (h : ReadsSame s t) : s.sameBytes t := State.sameBytes_of_keys h.inService h.keys

theorem State.memAgrees.readsSame {s t : State} (h : s.memAgrees t) : ReadsSame s t :=
  ⟨fun j _ => congrFun (State.keyByte_congr h.1 (congrArg HbmSt.wcb h.2)) j, congrArg HbmSt.inService h.2⟩

theorem Rewrites.after {s t u : State} {k : Nat} {bs : List Byte} (h : Rewrites t u k bs) (g : ReadsSame s t) :
    Rewrites s u k bs :=
  ⟨h.inside, fun j hj hout => (h.outside j hj hout).trans (g.keys j hj), h.inService.trans g.inService⟩

/-- What is written again as it read changes nothing. -/
theorem Rewrites.readsSame {s t : State} {k : Nat} {bs : List Byte} (h : Rewrites s t k bs)
    (hsame : ∀ i, i < bs.length → bs.getD i 0 = s.keyByte (k + i)) : ReadsSame s t where
  keys j hj := by
    by_cases hin : k ≤ j ∧ j < k + bs.length
    · obtain ⟨i, rfl⟩ := Nat.exists_eq_add_of_le hin.1
      exact (h.inside i (by omega)).trans (hsame i (by omega))
    · exact h.outside j hj (by omega)
  inService := h.inService

/-- A span of one channel, by the bytes of that channel and of the others. -/
theorem Rewrites.of_hbm {s t : State} {ch o : Nat} {bs : List Byte} (hch : ch < 256) (ho : o + bs.length ≤ 2 ^ 31)
    (hin : ∀ i, i < bs.length → t.hbmByte ch (o + i) = bs.getD i 0)
    (hout : ∀ c p, c < 256 → p < 2 ^ 31 → (c = ch → p < o ∨ o + bs.length ≤ p) → t.hbmByte c p = s.hbmByte c p)
    (hhigh : ∀ j, 2 ^ 40 ≤ j → t.byteAt j = s.byteAt j) (hserv : t.hbm.inService = s.hbm.inService) :
    Rewrites s t (hbmKey ch o) bs where
  inside i hi := by
    rw [show hbmKey ch o + i = hbmKey ch (o + i) from Nat.add_assoc _ _ _, t.keyByte_hbmKey hch (by omega)]
    exact hin i hi
  outside j hj hsp := by
    by_cases hlow : j < 2 ^ 40
    · obtain ⟨c, p, hc, hp, rfl⟩ := hbmKey_of_lt hj hlow
      rw [t.keyByte_hbmKey hc hp, s.keyByte_hbmKey hc hp]
      refine hout c p hc hp fun hcc => ?_
      subst hcc
      unfold hbmKey at hsp
      omega
    · rw [t.keyByte_high (by omega), s.keyByte_high (by omega)]
      exact hhigh j (by omega)
  inService := hserv

/-- A line served by the channel reads what was written, and nothing else changes (R221, R234). -/
theorem Rewrites.lineWrite {s : State} (hinv : s.inv) (hok : s.combineOk) {ch line : Nat} (hch : ch < 256)
    (hline : line < 31250000) {bs : List Byte} (hlen : bs.length = 64) :
    Rewrites s (s.lineWrite ch line bs) (hbmKey ch (64 * line)) bs := by
  have hmem : storeWf 0 s.mem = true := hinv.1
  refine Rewrites.of_hbm hch (by omega) (fun i hi => ?_) (fun c p hc hp hout => ?_) (fun j hj => ?_) rfl
  · rw [State.hbmByte_eq, s.wcb_lineWrite hok.1, if_pos rfl, laid_filter, if_pos (by omega), s.byteAt_lineWrite,
      s.byteAt_putBytes hmem, if_pos (by unfold hbmKey; omega)]
    show bs.getD _ 0 = bs.getD i 0
    rw [show hbmKey ch (64 * line + i) - hbmKey ch (64 * line) = i by unfold hbmKey; omega]
  · have hnot : ¬ (hbmKey ch (64 * line) ≤ hbmKey c p ∧ hbmKey c p < hbmKey ch (64 * line) + bs.length) := by
      unfold hbmKey
      rintro ⟨h1, h2⟩
      have hcc : c = ch := by omega
      have := hout hcc
      subst hcc
      omega
    rw [State.hbmByte_eq, State.hbmByte_eq, s.wcb_lineWrite hok.1, s.byteAt_lineWrite, s.byteAt_putBytes hmem, if_neg hnot]
    split
    · next hcc => rw [laid_filter, if_neg (by have := hout hcc; omega), hcc]
    · rfl
  · rw [s.byteAt_lineWrite, s.byteAt_putBytes hmem, if_neg (by unfold hbmKey; omega)]

/-- A flush changes what no read returns (R234). -/
theorem ReadsSame.flushEntry {s : State} (hinv : s.inv) (hok : s.combineOk) {ch : Nat} (hch : ch < 256) {e : WcbEntry}
    (he : e ∈ s.wcb ch) : ReadsSame s (s.flushEntry ch e) := by
  have hes := State.combines_wcb hok ch
  have hline : e.line < 31250000 := (hes.2 e he).1
  refine (Rewrites.lineWrite hinv hok hch hline (mergeBytes_length ..)).readsSame fun i hi => ?_
  rw [mergeBytes_length] at hi
  rw [show hbmKey ch (64 * e.line) + i = hbmKey ch (64 * e.line + i) from Nat.add_assoc _ _ _,
    s.keyByte_hbmKey hch (by omega), State.hbmByte_eq, show (64 * e.line + i) / 64 = e.line by omega,
    show (64 * e.line + i) % 64 = i by omega, laid_of_mem hes he, getD_mergeBytes _ _ _ hi]
  split
  · rfl
  · rw [List.getD_eq_getElem _ _ (by simpa using hi), List.getElem_map, List.getElem_range]
    rfl

/-- Entries laid over with one more piece, on a channel whose bytes stay. -/
theorem Rewrites.setWcb {s : State} (hok : s.combineOk) {ch line off : Nat} (hch : ch < 256) (hline : line < 31250000)
    {bs : List Byte} (hfit : off + bs.length ≤ 64) {es : List WcbEntry}
    (hes : ∀ l x, x < 64 → laid es l x = laidOver (s.wcb ch) line off bs l x) :
    Rewrites s (s.setWcb ch es) (hbmKey ch (64 * line + off)) bs := by
  refine Rewrites.of_hbm hch (by omega) (fun i hi => ?_) (fun c p hc hp hout => ?_) (fun j hj => rfl) rfl
  · rw [State.hbmByte_eq, s.wcb_setWcb hok.1, if_pos rfl, hes _ _ (Nat.mod_lt _ (by omega)), laidOver, if_pos (by omega),
      show (64 * line + off + i) % 64 - off = i by omega]
    rfl
  · have hbyte : (s.setWcb ch es).byteAt (hbmKey c p) = s.byteAt (hbmKey c p) := rfl
    rw [State.hbmByte_eq, State.hbmByte_eq, s.wcb_setWcb hok.1, hbyte]
    split
    · next hcc =>
      rw [hes _ _ (Nat.mod_lt _ (by omega)), laidOver, if_neg (by have := hout hcc; omega), hcc]
    · rfl

/-- A partial write reads back at once, whatever its line's entry (R233). -/
theorem Rewrites.partialWrite {s : State} (hinv : s.inv) (hok : s.combineOk) (who : Requester) {ch line off : Nat}
    (hch : ch < 256) (hline : line < 31250000) {bs : List Byte} (hfit : off + bs.length ≤ 64) :
    Rewrites s (s.partialWrite who ch line off bs) (hbmKey ch (64 * line + off)) bs := by
  unfold State.partialWrite
  dsimp only
  split
  · next e he =>
    refine Rewrites.setWcb hok hch hline hfit fun l x hx => laid_merge who hfit hx fun _ => .inl ⟨e, ?_, ?_⟩
    · exact List.mem_of_find?_eq_some he
    · simpa using List.find?_some he
  · next hnone =>
    have hnew : ∀ e ∈ s.wcb ch, e.line ≠ line := by simpa using List.find?_eq_none.mp hnone
    split
    · next e es heq =>
      split
      · have he : e ∈ s.wcb ch := heq ▸ List.mem_cons_self
        have hflush := ReadsSame.flushEntry hinv hok hch he
        have hform := (State.flushEntry_forms s ch e).combine hok
        have hwcb := State.wcb_flushEntry (ch := ch) e hok.1
        generalize s.flushEntry ch e = u at *
        have hcount : u.memAgrees ((u.count Reg.MEM_WCB_EVICT 64 1).bel64 (chanCnt ch 7) 1) := ⟨rfl, rfl⟩
        have hform' := (((Forms.refl u).aside (State.count_evolves u Reg.MEM_WCB_EVICT 64 1)).aside
          (State.bel64_evolves _ (chanCnt ch 7) 1)).combine hform
        have hwcb' := hcount.wcb ch
        generalize (u.count Reg.MEM_WCB_EVICT 64 1).bel64 (chanCnt ch 7) 1 = v at *
        refine (Rewrites.setWcb hform' hch hline hfit fun l x hx => laid_new who hfit ?_ hx).after
          (hflush.trans hcount.readsSame)
        rw [hwcb', hwcb]
        exact fun f hf => hnew f (List.mem_of_mem_filter hf)
      · rw [← heq]
        exact Rewrites.setWcb hok hch hline hfit fun l x hx => laid_new who hfit hnew hx
    · next heq =>
      refine Rewrites.setWcb hok hch hline hfit fun l x hx => ?_
      rw [heq]
      exact laid_new (es := []) who hfit (fun _ h => absurd h List.not_mem_nil) hx

theorem Rewrites.putBytes {s : State} (hinv : s.inv) {k : Nat} (hk : 2 ^ 40 ≤ k) (bs : List Byte) :
    Rewrites s (s.putBytes k bs) k bs where
  inside i hi := by
    have hmem : storeWf 0 s.mem = true := hinv.1
    rw [State.keyByte_high _ (by omega), s.byteAt_putBytes hmem, if_pos (by omega), Nat.add_sub_cancel_left]
  outside j hj hout := by
    have hmem : storeWf 0 s.mem = true := hinv.1
    by_cases hlow : j < 2 ^ 40
    · obtain ⟨c, p, hc, hp, rfl⟩ := hbmKey_of_lt hj hlow
      have hwcb : (s.putBytes k bs).wcb c = s.wcb c := rfl
      rw [State.keyByte_hbmKey _ hc hp, State.keyByte_hbmKey _ hc hp, State.hbmByte_eq, State.hbmByte_eq,
        s.byteAt_putBytes hmem, if_neg (by omega), hwcb]
    · rw [State.keyByte_high _ (by omega), State.keyByte_high _ (by omega), s.byteAt_putBytes hmem, if_neg (by omega)]
  inService := rfl

/-! ### Spans of device addresses -/

/-- A piece of a line with a memory key reads back. -/
theorem Rewrites.linePiece {s : State} (hinv : s.inv) (hok : s.combineOk) (who : Requester) {a k : Nat} {bs : List Byte}
    (hfit : a % 64 + bs.length ≤ 64) (hk : s.devKey a = some k) : Rewrites s (s.linePiece who a bs) k bs := by
  unfold State.linePiece
  rcases State.devKey_cases hk with ⟨hlow, ch, o, hplace, rfl⟩ | ⟨hhi, hin, rfl⟩
  · rw [if_pos hlow, hplace]
    dsimp only
    have hch := State.hbmPlace_ch hplace
    have hline := State.line_lt_of_hbmPlace hplace
    have hmod : o % 64 = a % 64 := by
      rcases Nat.eq_zero_or_pos bs.length with h0 | h0
      · exact (State.hbmPlace_line (i := 0) hplace (Nat.mod_lt _ (by omega))).2
      · exact (State.hbmPlace_line (i := 0) hplace (by omega)).2
    generalize chanCnt ch _ = q
    have hbel : s.memAgrees (s.bel64 q 1) := ⟨rfl, rfl⟩
    have hinv' : (s.bel64 q 1).inv := (State.bel64_evolves s q 1).inv hinv
    have hok' : (s.bel64 q 1).combineOk := ((Forms.refl s).aside (State.bel64_evolves _ _ _)).combine hok
    generalize s.bel64 q 1 = u at *
    split
    · next hfull =>
      have h := Rewrites.lineWrite hinv' hok' hch hline hfull.2
      rw [show 64 * (o / 64) = o by omega] at h
      exact h.after hbel.readsSame
    · have h := Rewrites.partialWrite hinv' hok' who hch hline (off := o % 64) (bs := bs) (by omega)
      rw [Nat.div_add_mod] at h
      exact h.after hbel.readsSame
  · rw [if_neg (by omega), if_pos hin]
    exact Rewrites.putBytes hinv hhi bs

/-- A piece without a memory key changes nothing. -/
theorem ReadsSame.linePiece {s : State} (who : Requester) {a : Nat} (bs : List Byte) (hk : s.devKey a = none) :
    ReadsSame s (s.linePiece who a bs) := by
  unfold State.linePiece
  unfold State.devKey at hk
  split
  · next hlow =>
    rw [if_pos hlow] at hk
    rw [Option.map_eq_none_iff.mp hk]
    exact (State.addrErr_evolves s).memAgrees.readsSame
  · next hlow =>
    rw [if_neg hlow] at hk
    split
    · next hin => rw [if_pos hin] at hk; cases hk
    · exact ReadsSame.refl s

/-- The keys of a span read the bytes written, and every other key reads as before. -/
structure Wrote (s t : State) (a : Nat) (bs : List Byte) : Prop where
  inside : ∀ i k, i < bs.length → s.devKey (a + i) = some k → t.keyByte k = bs.getD i 0
  outside : ∀ j, 2 ^ 39 ≤ j → (∀ i, i < bs.length → s.devKey (a + i) ≠ some j) → t.keyByte j = s.keyByte j
  inService : t.hbm.inService = s.hbm.inService

theorem Wrote.of_piece {s : State} (hinv : s.inv) (hok : s.combineOk) (who : Requester) {a : Nat} {bs : List Byte}
    (hfit : a % 64 + bs.length ≤ 64) : Wrote s (s.linePiece who a bs) a bs := by
  cases hk : s.devKey a with
  | none =>
    have h := ReadsSame.linePiece who bs hk
    refine ⟨fun i k hi hki => ?_, fun j hj _ => h.keys j hj, h.inService⟩
    have hnone : s.devKey (a + i) = none := State.devKey_line_none hk (by omega)
    rw [hnone] at hki
    cases hki
  | some k =>
    have h := Rewrites.linePiece hinv hok who hfit hk
    refine ⟨fun i k' hi hki => ?_, fun j hj hout => ?_, h.inService⟩
    · rw [State.devKey_line hk (by omega)] at hki
      obtain rfl := Option.some.inj hki
      exact h.inside i hi
    · refine h.outside j hj ?_
      by_contra hin
      refine hout (j - k) (by omega) ?_
      rw [State.devKey_line hk (by omega), show k + (j - k) = j by omega]

/-- A write of a span on one side of the windows' boundary reads back, and no other byte changes (R215, R218). -/
theorem Wrote.devWrite {s : State} (hinv : s.inv) (hok : s.combineOk) (who : Requester) {a : Nat} {bs : List Byte}
    (hside : a + bs.length ≤ 2 ^ 39 ∨ 2 ^ 39 ≤ a) : Wrote s (s.devWrite who a bs) a bs := by
  suffices h : ∀ fuel, bs.length ≤ fuel → Wrote s (s.writePieces who (linePieces a fuel bs)) a bs from h _ le_rfl
  intro fuel
  induction fuel generalizing s a bs with
  | zero =>
    intro hfuel
    obtain rfl := List.length_eq_zero_iff.mp (Nat.le_zero.mp hfuel)
    exact ⟨fun i _ hi => absurd hi (Nat.not_lt_zero i), fun _ _ _ => rfl, rfl⟩
  | succ fuel ih =>
    intro hfuel
    cases bs with
    | nil => exact ⟨fun i _ hi => absurd hi (Nat.not_lt_zero i), fun _ _ _ => rfl, rfl⟩
    | cons b bs =>
      rw [linePieces]
      generalize hbs : b :: bs = cs at *
      have hcs : 0 < cs.length := by rw [← hbs]; exact Nat.succ_pos _
      have hm : a % 64 < 64 := Nat.mod_lt _ (by omega)
      have hfirst := Wrote.of_piece hinv hok who (a := a) (bs := cs.take (64 - a % 64)) (by rw [List.length_take]; omega)
      have hlaw := State.linePiece_evolves s who a (cs.take (64 - a % 64))
      have hok' := (State.linePiece_forms s who a (cs.take (64 - a % 64))).combine hok
      rw [State.writePieces]
      generalize s.linePiece who a (cs.take (64 - a % 64)) = u at *
      have hrest := ih (s := u) (a := a + (64 - a % 64)) (bs := cs.drop (64 - a % 64)) (hlaw.inv hinv) hok'
        (by rw [List.length_drop]; omega) (by rw [List.length_drop]; omega)
      have hkey := State.devKey_congr hfirst.inService
      have htake := List.length_take (i := 64 - a % 64) (l := cs)
      have hdrop := List.length_drop (i := 64 - a % 64) (l := cs)
      refine ⟨fun i k hi hk => ?_, fun j hj hout => ?_, hrest.inService.trans hfirst.inService⟩
      · by_cases hin : i < 64 - a % 64
        · rw [hrest.outside k (State.devKey_ge hk) fun i' hi' hk' => ?_, hfirst.inside i k (by omega) hk,
            List.getD_eq_getElem?_getD, List.getElem?_take, if_pos hin, List.getD_eq_getElem?_getD]
          rw [hkey] at hk'
          have := State.devKey_inj hk hk' (by omega)
          omega
        · have h := hrest.inside (i - (64 - a % 64)) k (by omega)
            (by rw [hkey, show a + (64 - a % 64) + (i - (64 - a % 64)) = a + i by omega]; exact hk)
          rw [h, List.getD_eq_getElem?_getD, List.getElem?_drop, List.getD_eq_getElem?_getD,
            show 64 - a % 64 + (i - (64 - a % 64)) = i by omega]
      · rw [hrest.outside j hj fun i hi hk => ?_, hfirst.outside j hj fun i hi => hout i (by omega)]
        rw [hkey] at hk
        exact hout (64 - a % 64 + i) (by omega) (by rw [← Nat.add_assoc]; exact hk)

theorem Wrote.after {s t u : State} {a : Nat} {bs : List Byte} (h : Wrote t u a bs) (g : ReadsSame s t) : Wrote s u a bs :=
  have hkey := State.devKey_congr g.inService
  ⟨fun i k hi hk => h.inside i k hi ((hkey _).trans hk),
    fun j hj hout => (h.outside j hj fun i hi hk => hout i hi ((hkey _).symm.trans hk)).trans (g.keys j hj),
    h.inService.trans g.inService⟩

/-- What a written span reads by device address, through either window. -/
theorem Wrote.devByte {s t : State} {a : Nat} {bs : List Byte} (h : Wrote s t a bs) {i b : Nat} (hi : i < bs.length)
    (hb : s.devKey b = s.devKey (a + i)) (hback : (s.devKey (a + i)).isSome = true) : t.devByte b = bs.getD i 0 := by
  obtain ⟨k, hk⟩ := Option.isSome_iff_exists.mp hback
  rw [State.devByte_of_key ((State.devKey_congr h.inService b).trans (hb.trans hk))]
  exact h.inside i k hi hk

theorem Wrote.devByte_other {s t : State} {a : Nat} {bs : List Byte} (h : Wrote s t a bs) {b : Nat}
    (hb : ∀ i, i < bs.length → s.devKey b ≠ s.devKey (a + i)) : t.devByte b = s.devByte b := by
  rw [State.devByte_eq, State.devByte_eq, State.devKey_congr h.inService]
  cases hk : s.devKey b with
  | none => rfl
  | some k => exact h.outside k (State.devKey_ge hk) fun i hi hki => hb i hi (hk.trans hki.symm)

/-- A span of backed bytes lies on one side of the windows' boundary. -/
theorem State.side_of_backed {s : State} {a n : Nat} (h : ∀ i, i < n → (s.devKey (a + i)).isSome = true) :
    a + n ≤ 2 ^ 39 ∨ 2 ^ 39 ≤ a := by
  by_contra hcross
  obtain ⟨k, hk⟩ := Option.isSome_iff_exists.mp (h (2 ^ 39 - 1 - a) (by omega))
  rw [show a + (2 ^ 39 - 1 - a) = 2 ^ 39 - 1 by omega] at hk
  rcases State.devKey_cases hk with ⟨-, ch, o, hplace, -⟩ | ⟨hhi, -, -⟩
  · simp only [State.hbmPlace] at hplace
    rw [if_pos (by omega), if_neg] at hplace
    · cases hplace
    · have := s.chans_le
      unfold chanBytes
      omega
  · omega

end Sys2Proof.Machine

/-! Spoil causes (R138), and what the writes of the pattern do. -/

namespace Sys2Proof.Machine

set_option Elab.async false

/-! ### A cause -/

/-- What a spoil cause writes of the state and of the registers. -/
def Part.spoil : List Part := [.regs, .free, .out, .heldOut, .tick, .stl, .host, .bel]

def Reg.spoil : List Nat := Reg.QNT_SPOIL_CAUSES :: Reg.trace

theorem State.spoil_of_none {s : State} (h : s.tick.step = none) (c : Nat) : s.spoil c = s := by
  rw [State.spoil, h]

/-- The step as a cause finds it: its bit set, an element that is not finite noted. -/
def State.causeSet (s : State) (c : Nat) : State :=
  (s.setBit Reg.QNT_SPOIL_CAUSES (c - 1) true).mapStep fun r => { r with nonFinite := r.nonFinite || decide (c = 4) }

theorem State.causeSet_writes (s : State) (c : Nat) : Writes Part.spoil Reg.spoil s (s.causeSet c) :=
  (State.setBit_writes s Reg.QNT_SPOIL_CAUSES (c - 1) true).widen (Q := Part.spoil) (M := Reg.spoil) rfl
    (List.forall_mem_singleton.mpr List.mem_cons_self) |>.step (State.mapStep_evolves _ _).writes rfl (by simp)

theorem State.spoil_of_some {s : State} {r : RunStep} (h : s.tick.step = some r) (c : Nat) : s.spoil c =
    if r.voted then
      if (s.causeSet c).stl.commit.lateCause = 0 then { s.causeSet c with
        stl := { (s.causeSet c).stl with commit := { (s.causeSet c).stl.commit with lateCause := c } } }
      else s.causeSet c
    else if r.cause.isSome then s.causeSet c
    else ((s.causeSet c).mapStep fun r => { r with cause := some (c, s.stitchIx, s.tick.now) }).traceBoth 0x08
      (c + 256 * s.stitchIx) := by
  rw [State.spoil, h]
  dsimp only [State.causeSet]
  cases r.cause <;> rfl

theorem State.spoil_writes (s : State) (c : Nat) : Writes Part.spoil Reg.spoil s (s.spoil c) := by
  rcases h : s.tick.step with _ | r
  · rw [State.spoil_of_none h]
    exact Writes.refl s
  · rw [State.spoil_of_some h]
    have hset := s.causeSet_writes c
    refine Writes.ite _ (Writes.ite _ ?_ hset) (Writes.ite _ hset ?_)
    · exact hset.step (State.evolves_stl _ _).writes rfl (by simp)
    · exact (hset.step (State.mapStep_evolves _ _).writes rfl (by simp)).step (State.traceBoth_writes _ _ _) rfl
        (fun _ h => List.mem_cons_of_mem _ h)

/-- A cause in a running step shows (R138). -/
theorem State.spoil_bit {s : State} (hwf : storeWf 0 s.regs = true) {r : RunStep} (h : s.tick.step = some r) {c : Nat}
    (hc : c ≤ 32) : (s.spoil c).bit Reg.QNT_SPOIL_CAUSES (c - 1) = true := by
  have hset : (s.causeSet c).bit Reg.QNT_SPOIL_CAUSES (c - 1) = true :=
    (State.bit_setBit s _ _ true hwf (by omega)).trans (by simp)
  rw [State.spoil_of_some h]
  split
  · split
    · exact hset
    · exact hset
  · split
    · exact hset
    · exact ((State.traceBoth_writes _ _ _).bit (by decide) _).trans hset

/-- The first cause of a step that has not voted is kept with its place. -/
theorem State.spoil_cause {s : State} {r : RunStep} (h : s.tick.step = some r) (hv : r.voted = false) (hc : r.cause = none)
    (c : Nat) : (s.spoil c).tick.step =
      some { r with nonFinite := r.nonFinite || decide (c = 4), cause := some (c, s.stitchIx, s.tick.now) } := by
  rw [State.spoil_of_some h, hv, hc]
  have htrace (u : State) (a b : Nat) : (u.traceBoth a b).tick = u.tick := (u.traceBoth_evolves a b).keep .tick (by decide)
  simp only [Bool.false_eq_true, if_false, Option.isSome_none, htrace]
  show ((s.tick.step.map _).map _) = _
  rw [h, Option.map_some, Option.map_some, hv]

theorem State.bit_orReg (s : State) (o i : Nat) (m : DWord) (hwf : storeWf 0 s.regs = true) :
    (s.orReg o m).bit o i = (s.bit o i || m.getLsbD i) := by
  unfold State.orReg State.bit
  rw [State.reg_setReg s o _ hwf, BitVec.getLsbD_or]

/-! ### Frozen tensors -/

theorem State.frozenDrop_eq (s : State) (unit blocks : Nat) : ∃ u : State,
    u = ((s.count Reg.UPD_FROZEN_DROPS 32 blocks).bel64 (clusterCnt unit 15) blocks).orReg Reg.UPD_STICKY 1 ∧
    s.frozenDrop unit blocks = if (s.img.map fun f => f.header.flags.testBit 0).getD false then u.spoil 5 else u :=
  ⟨_, rfl, rfl⟩

/-- What a drop of work on a frozen tensor writes (R252). -/
def Reg.frozenDrop : List Nat := Reg.UPD_FROZEN_DROPS :: Reg.UPD_STICKY :: Reg.spoil

theorem State.frozenDrop_counts (s : State) (unit blocks : Nat) :
    Writes Part.spoil [Reg.UPD_FROZEN_DROPS, Reg.UPD_STICKY] s
      (((s.count Reg.UPD_FROZEN_DROPS 32 blocks).bel64 (clusterCnt unit 15) blocks).orReg Reg.UPD_STICKY 1) :=
  (((State.count_writes s Reg.UPD_FROZEN_DROPS 32 blocks).widen (Q := Part.spoil)
      (M := [Reg.UPD_FROZEN_DROPS, Reg.UPD_STICKY])).step
    (State.bel64_evolves _ _ _).writes rfl (by simp)).step (State.orReg_writes _ _ _)

theorem State.frozenDrop_writes (s : State) (unit blocks : Nat) :
    Writes Part.spoil Reg.frozenDrop s (s.frozenDrop unit blocks) := by
  obtain ⟨u, hu, heq⟩ := s.frozenDrop_eq unit blocks
  have hcount : Writes Part.spoil Reg.frozenDrop s u :=
    hu ▸ (s.frozenDrop_counts unit blocks).widen rfl (by decide)
  rw [heq]
  exact Writes.ite _ (hcount.step (u.spoil_writes 5) rfl
    fun _ h => List.mem_cons_of_mem _ (List.mem_cons_of_mem _ h)) hcount

theorem State.frozenDrop_sticky {s : State} (hwf : storeWf 0 s.regs = true) (unit blocks : Nat) :
    (s.frozenDrop unit blocks).bit Reg.UPD_STICKY 0 = true := by
  obtain ⟨u, hu, heq⟩ := s.frozenDrop_eq unit blocks
  have hbit : u.bit Reg.UPD_STICKY 0 = true := by
    subst hu
    rw [State.bit_orReg]
    · simp
    · exact hwf |> (State.count_writes s Reg.UPD_FROZEN_DROPS 32 blocks).wf
  rw [heq]
  split
  · exact ((u.spoil_writes 5).bit (by decide) 0).trans hbit
  · exact hbit

/-! ### Writes of HBM -/

/-- A write of backed bytes reads back through either window, and nothing else reads differently (R215, R218). -/
theorem State.devWrite_reads {s : State} (hinv : s.inv) (hok : s.combineOk) (who : Requester) {a : Nat} {bs : List Byte}
    (hback : ∀ i, i < bs.length → (s.devKey (a + i)).isSome = true) :
    (∀ i b, i < bs.length → s.devKey b = s.devKey (a + i) → (s.devWrite who a bs).devByte b = bs.getD i 0) ∧
    (∀ b, (∀ i, i < bs.length → s.devKey b ≠ s.devKey (a + i)) → (s.devWrite who a bs).devByte b = s.devByte b) ∧
    (s.devWrite who a bs).hbm.inService = s.hbm.inService :=
  have h := Wrote.devWrite hinv hok who (State.side_of_backed hback)
  ⟨fun i _ hi hb => h.devByte hi hb (hback i hi), fun _ hb => h.devByte_other hb, h.inService⟩

theorem exec_hbmWrite_to (a : Nat) (data : List Byte) (s : State) :
    exec (.hbmWrite (.to a) data) s = .next (s.devWrite .scheduled a data) := rfl

theorem exec_hbmWrite_update {s : State} {n : Nat} {te : TensorEntry} {u : UpdateSection} (ht : s.tensor? n = some te)
    (hu : s.updSec? = some u) (off : Nat) (data : List Byte) : exec (.hbmWrite (.update n off) data) s =
      .next (if te.frozen then s.frozenDrop 0 0
        else (if (preBlockOf u n).isNone then s.writing else s).devWrite .scheduled (s.copyBase n te true + off) data) := by
  show Host.Outcome.next (s.hbmWrite data (.update n off)) = _
  rw [State.hbmWrite, ht, hu]

/-- Settles O25: a span of backed bytes has a memory key of its own for each byte, and each piece of it rewrites just its keys. -/
theorem writtenBytesReadBack : Obligations.WrittenBytesReadBack := by
  refine ⟨fun s a data hinv hok hback => ?_, fun s n off te u data hinv hok ht hu => ?_⟩
  · obtain ⟨hin, hout, hserv⟩ := State.devWrite_reads hinv hok .scheduled hback
    exact ⟨_, exec_hbmWrite_to a data s, hin, hout, hserv, ((s.devWrite_evolves _ _ _).widen rfl).keep⟩
  · rw [exec_hbmWrite_update ht hu off data]
    refine ⟨fun hfrozen hback => ⟨_, rfl, ?_⟩, fun hfrozen => ⟨_, rfl, ?_⟩⟩
    · rw [if_neg (by simp [hfrozen])]
      generalize s.copyBase n te true + off = a at *
      have hpre : ∃ v : State, v = (if (preBlockOf u n).isNone then s.writing else s) ∧ Evolves [.upd] s v :=
        ⟨_, rfl, by split; exacts [s.writing_evolves, Evolves.refl s]⟩
      obtain ⟨v, hv, hlaw⟩ := hpre
      rw [← hv]
      have hsame : s.memAgrees v := hlaw.memAgrees
      have hkey (b : Nat) : v.devKey b = s.devKey b := State.devKey_congr hsame.readsSame.inService b
      have hok' : v.combineOk := ((Forms.refl s).aside hlaw).combine hok
      obtain ⟨hin, hout, -⟩ := State.devWrite_reads (hlaw.inv hinv) hok' .scheduled (a := a) (bs := data)
        fun i hi => by rw [hkey]; exact hback i hi
      have hwrite := v.devWrite_evolves .scheduled a data
      have hupd : (v.devWrite .scheduled a data).upd = v.upd := hwrite.keep .upd (by decide)
      have hlong : Evolves ([.mem, .hbm, .upd, .bel] ++ Part.signalled) s (v.devWrite .scheduled a data) :=
        (hlaw.widen rfl).step hwrite rfl
      refine ⟨fun i b hi hb => hin i b hi (by rw [hkey, hkey]; exact hb), fun b hb => ?_, fun hnone => ?_, fun hsome => ?_,
        hlong.keep⟩
      · exact (hout b fun i hi => by rw [hkey, hkey]; exact hb i hi).trans (hsame.sameBytes b)
      · rw [hupd, hv, hnone]
        rfl
      · rw [hupd, hv, if_neg (by simpa [Option.isSome_iff_ne_none] using hsome)]
    · rw [if_pos hfrozen]
      have hlaw := s.frozenDrop_writes 0 0
      exact ⟨State.frozenDrop_sticky hinv.2 0 0, hlaw.evolves.keep .upd (by decide), hlaw.evolves.sameBytes⟩

end Sys2Proof.Machine

/-! Reads of HBM: corrections, uncorrectable lines and what they deliver (R214, R221 to R224). -/

namespace Sys2Proof.Machine

set_option Elab.async false

/-- Marking a channel suspect clears no event. -/
theorem State.suspect_event {s : State} (hwf : storeWf 0 s.regs = true) {i : Nat} (h : s.bit Reg.MEM_EVENT i = true)
    {ch : Nat} (hch : ch < 256) (detail : Nat) : (s.suspect ch detail).bit Reg.MEM_EVENT i = true := by
  have hne : Reg.MEM_EVENT ∉ [Reg.MEM_SUSPECT + 4 * (ch / 32)] := by
    have : ∀ k < 8, Reg.MEM_EVENT ∉ [Reg.MEM_SUSPECT + 4 * k] := by decide
    exact this _ (by omega)
  have hset := s.setBit_writes (Reg.MEM_SUSPECT + 4 * (ch / 32)) (ch % 32) true
  unfold State.suspect
  split
  · exact h
  · generalize s.setBit _ _ _ = u at *
    exact ((State.ledgerEvent_writes _ 0x05 0 ch detail []).bit (by decide) i).trans
      (State.bit_event_mono (hset.wf hwf) 0 (by decide) ((hset.bit hne i).trans h))

/-! ### Corrections -/

theorem bankKey_notMem {off : Nat} {l : List Nat} (hoff : off < 67108864) (hne : off ∉ l) (hl : ∀ o ∈ l, o < 67108864) (i : Nat) :
    bankKey off i ∉ l := by
  intro hmem
  by_cases h : i = 0
  · subst h
    exact hne (by simpa [bankKey] using hmem)
  · have := hl _ hmem
    unfold bankKey at this
    omega

theorem State.setWriteBacks_writeBacks (s : State) (ch : Nat) {q : List (Nat × List Byte)} (hq : q ≠ []) :
    (s.setWriteBacks ch q).writeBacks ch = q := storeGet_storeSet_new [] s.hbm.writeBacks ch q hq

/-- R221: the line is queued for write-back, or dropped behind 64 others. -/
theorem State.queueWriteBack_queues {s : State} (hwf : storeWf 0 s.regs = true) (ch line : Nat) (bytes : List Byte) :
    ((s.writeBacks ch).length < 64 → (s.queueWriteBack ch line bytes).writeBacks ch = s.writeBacks ch ++ [(line, bytes)]) ∧
    (64 ≤ (s.writeBacks ch).length → (s.queueWriteBack ch line bytes).writeBacks ch = s.writeBacks ch ∧
      (s.queueWriteBack ch line bytes).bit Reg.MEM_EVENT 5 = true ∧
      (s.queueWriteBack ch line bytes).regN Reg.MEM_WB_DROP = min (s.regN Reg.MEM_WB_DROP + 1) (2 ^ 32 - 1)) ∧
    (s.queueWriteBack ch line bytes).hbm =
      { s.hbm with writeBacks := (s.queueWriteBack ch line bytes).hbm.writeBacks } ∧
    Writes (.hbm :: Part.signalled) [Reg.MEM_WB_DROP, Reg.MEM_EVENT] s (s.queueWriteBack ch line bytes) := by
  unfold State.queueWriteBack
  by_cases h : 64 ≤ (s.writeBacks ch).length
  · rw [if_pos h]
    have hcount := s.count_writes Reg.MEM_WB_DROP 32 1
    have hdrop := s.regN_count Reg.MEM_WB_DROP 32 1 hwf (by decide)
    generalize s.count Reg.MEM_WB_DROP 32 1 = u at *
    have hevent := u.event_writes Reg.MEM_EVENT 5
    have hhbm : (u.event Reg.MEM_EVENT 5).hbm = s.hbm :=
      Eq.trans (hevent.evolves.keep .hbm (by decide)) (hcount.evolves.keep .hbm (by decide))
    refine ⟨fun hlt => absurd h (by omega), fun _ => ⟨?_, u.bit_event _ _ (hcount.wf hwf) (by decide),
      (hevent.regN (by decide)).trans hdrop⟩, by rw [hhbm], (hcount.widen (Q := .hbm :: Part.signalled)
        (M := [Reg.MEM_WB_DROP, Reg.MEM_EVENT])).step hevent⟩
    unfold State.writeBacks
    rw [hhbm]
  · rw [if_neg h]
    exact ⟨fun _ => s.setWriteBacks_writeBacks ch (by simp), fun hge => absurd hge h, rfl,
      (State.setWriteBacks_evolves _ _ _).writes.widen⟩

/-- The parts that a correction may change. -/
abbrev Part.corrected : List Part := [.regs, .free, .out, .heldOut, .hbm, .host, .hlt, .bel]

/-- The registers that a correction may change beside its channel's count. -/
abbrev Reg.corrected : List Nat := [Reg.MEM_WB_DROP, Reg.MEM_EVENT] ++ Reg.suspect ++ Reg.trace

theorem Reg.corrected_low : ∀ o ∈ Reg.corrected, o < 67108864 := by decide

/-- The counts and the record of a correction, before its write-back. -/
def State.correctedCounts (s : State) (ch o symbols : Nat) : State :=
  (((s.count (bankKey Reg.MEM_CE_COUNT ch) 64 1).bel64 (chanCnt ch 4) 1).live (0x20 + 4 * ch) 1).trace (dieOf ch 128) 0x0E ch
    (windowOffset ch o + 2 ^ 64 * symbols)

theorem State.corrected_eq (s : State) (ch o symbols : Nat) (bytes : List Byte) : ∃ u v : State,
    u = (s.correctedCounts ch o symbols).queueWriteBack ch (o / 64) bytes ∧
    v = (if symbols = 3 then u.suspect ch 2 else u) ∧
    (s.corrected ch o symbols bytes = v ∨ s.corrected ch o symbols bytes = v.suspect ch 3) := by
  refine ⟨_, _, rfl, rfl, ?_⟩
  unfold State.corrected
  exact (ite_eq_or_eq _ _ _).symm

theorem State.correctedCounts_writes (s : State) (ch o symbols : Nat) :
    Writes Part.corrected (bankKey Reg.MEM_CE_COUNT ch :: Reg.trace) s (s.correctedCounts ch o symbols) :=
  ((((State.count_writes s (bankKey Reg.MEM_CE_COUNT ch) 64 1).widen (Q := Part.corrected)
    (M := bankKey Reg.MEM_CE_COUNT ch :: Reg.trace) rfl (by simp)).step (State.bel64_evolves _ _ _).writes rfl (by simp)).step
      (State.live_writes _ _ _) rfl (by simp)).step (State.trace_writes _ _ _ _ _) rfl fun _ h => List.mem_cons_of_mem _ h

/-- A mark that is set or not leaves the channels' buffers, the events and the marks that stand. -/
theorem State.marked_keeps {p q : State} (hp : storeWf 0 p.regs = true) {ch d : Nat} (hch : ch < 256)
    (h : q = p ∨ q = p.suspect ch d) : Writes (.hlt :: Part.signalled) Reg.suspect p q ∧ q.hbm = p.hbm ∧
      (p.bit Reg.MEM_EVENT 5 = true → q.bit Reg.MEM_EVENT 5 = true) ∧
      (p.bit (Reg.MEM_SUSPECT + 4 * (ch / 32)) (ch % 32) = true →
        q.bit (Reg.MEM_SUSPECT + 4 * (ch / 32)) (ch % 32) = true) := by
  rcases h with rfl | rfl
  · exact ⟨Writes.refl q, rfl, id, id⟩
  · obtain ⟨-, hmono, hlaw⟩ := State.suspect_marks hp hch d
    exact ⟨hlaw, hlaw.evolves.keep .hbm (by decide), fun h => State.suspect_event hp h hch d, hmono ch hch⟩

/-- R221, R224: a correction is counted, its line queued for write-back, and its channel suspect when it needed 3 symbols. -/
theorem State.corrected_shows {s : State} (hwf : storeWf 0 s.regs = true) {ch : Nat} (hch : ch < 256) (o symbols : Nat)
    (bytes : List Byte) : ∃ t, s.corrected ch o symbols bytes = t ∧
      t.regN (bankKey Reg.MEM_CE_COUNT ch) = min (s.regN (bankKey Reg.MEM_CE_COUNT ch) + 1) (2 ^ 64 - 1) ∧
      ((s.writeBacks ch).length < 64 → t.writeBacks ch = s.writeBacks ch ++ [(o / 64, bytes)]) ∧
      (64 ≤ (s.writeBacks ch).length → t.writeBacks ch = s.writeBacks ch ∧ t.bit Reg.MEM_EVENT 5 = true ∧
        t.regN Reg.MEM_WB_DROP = min (s.regN Reg.MEM_WB_DROP + 1) (2 ^ 32 - 1)) ∧
      (symbols = 3 → t.bit (Reg.MEM_SUSPECT + 4 * (ch / 32)) (ch % 32) = true) ∧
      t.hbm = { s.hbm with writeBacks := t.hbm.writeBacks } ∧
      Writes Part.corrected (bankKey Reg.MEM_CE_COUNT ch :: Reg.corrected) s t := by
  have hcounts := s.correctedCounts_writes ch o symbols
  have hce : (s.correctedCounts ch o symbols).regN (bankKey Reg.MEM_CE_COUNT ch) =
      min (s.regN (bankKey Reg.MEM_CE_COUNT ch) + 1) (2 ^ 64 - 1) := by
    unfold State.correctedCounts
    refine ((State.trace_writes _ _ _ _ _).regN (bankKey_notMem (by decide) (by decide) (by decide) _)).trans ?_
    exact s.regN_count _ 64 1 hwf (by decide)
  obtain ⟨u, v, hu, hv, ht⟩ := s.corrected_eq ch o symbols bytes
  have hhbm : (s.correctedCounts ch o symbols).hbm = s.hbm := by
    unfold State.correctedCounts
    exact (State.trace_evolves _ _ _ _ _).keep .hbm (by decide)
  generalize s.correctedCounts ch o symbols = c at *
  obtain ⟨hqueue, hdrop, hqhbm, hqlaw⟩ := State.queueWriteBack_queues (hcounts.wf hwf) ch (o / 64) bytes
  rw [← hu] at hqueue hdrop hqhbm hqlaw
  have hwb : c.writeBacks ch = s.writeBacks ch := by rw [State.writeBacks, hhbm, State.writeBacks]
  have hwd : c.regN Reg.MEM_WB_DROP = s.regN Reg.MEM_WB_DROP := hcounts.regN (by
    have : Reg.MEM_WB_DROP ∉ Reg.trace := by decide
    exact fun hmem => (List.mem_cons.mp hmem).elim (bankKey_ne (by decide) (by decide) (by decide)) this)
  rw [hwb] at hqueue hdrop
  rw [hwd] at hdrop
  rw [hhbm] at hqhbm
  have hulaw : Writes Part.corrected (bankKey Reg.MEM_CE_COUNT ch :: Reg.corrected) s u :=
    (hcounts.widen rfl fun x hx => by
      rcases List.mem_cons.mp hx with rfl | hx
      · exact List.mem_cons_self
      · exact List.mem_cons_of_mem _ (List.mem_append_right _ hx)).step hqlaw rfl
      fun x hx => List.mem_cons_of_mem _ (List.mem_append_left _ (List.mem_append_left _ hx))
  have hsus : ∀ x ∈ Reg.suspect, x ∈ bankKey Reg.MEM_CE_COUNT ch :: Reg.corrected := fun x hx =>
    List.mem_cons_of_mem _ (List.mem_append_left _ (List.mem_append_right _ hx))
  have hcekey : bankKey Reg.MEM_CE_COUNT ch ∉ Reg.suspect := bankKey_notMem (by decide) (by decide) (by decide) _
  have huce := (hqlaw.regN (bankKey_notMem (by decide) (by decide) (by decide) _)).trans hce
  have huwf := hulaw.wf hwf
  obtain ⟨hvlaw, hvhbm, hvevent, -⟩ := State.marked_keeps (q := v) (d := 2) huwf hch
    (by rw [hv]; exact (ite_eq_or_eq _ _ _).symm)
  obtain ⟨htlaw, hthbm, htevent, htbit⟩ := State.marked_keeps (hvlaw.wf huwf) hch ht
  refine ⟨_, rfl, (htlaw.regN hcekey).trans ((hvlaw.regN hcekey).trans huce), fun hlt => ?_, fun hge => ?_, fun h3 => htbit ?_,
    ?_, (hulaw.step hvlaw rfl hsus).step htlaw rfl hsus⟩
  · rw [State.writeBacks, hthbm, hvhbm]
    exact hqueue hlt
  · obtain ⟨hsame, hevent, hcount⟩ := hdrop hge
    refine ⟨?_, htevent (hvevent hevent), (htlaw.regN (by decide)).trans ((hvlaw.regN (by decide)).trans hcount)⟩
    rw [State.writeBacks, hthbm, hvhbm]
    exact hsame
  · rw [hv, if_pos h3]
    exact (State.suspect_marks huwf hch 2).1
  · rw [hthbm, hvhbm]
    exact hqhbm

/-! ### Deliveries -/

theorem State.deliver_writes (s : State) (ch o addr : Nat) (who : Requester) (bytes : List Byte) (ue : Bool) :
    Writes [.mem, .hbm, .host] [] s (s.deliver ch o addr who bytes ue) := (s.deliver_evolves ..).writes

/-- A unit of the pattern is given what the read delivered (R214, R222). -/
theorem State.bad_deliver (s : State) (ch o addr : Nat) {who : Requester} (hwho : who = .scheduled ∨ who = .update ∨ who = .image)
    (bytes : List Byte) (ue : Bool) {i : Nat} (hi : i < min 64 bytes.length) :
    (hbmKey ch (o / 64 * 64) + i, bytes.getD i 0) ∈ (s.deliver ch o addr who bytes ue).hbm.bad := by
  have hin : (hbmKey ch (o / 64 * 64) + i, bytes.getD i 0) ∈ addrBytes (hbmKey ch (o / 64 * 64)) (bytes.take 64) := by
    unfold addrBytes
    refine List.mem_map.mpr ⟨(bytes.getD i 0, i), ?_, rfl⟩
    rw [List.mem_zipIdx_iff_getElem?, List.getElem?_take, if_pos (by omega), List.getD_eq_getElem?_getD,
      List.getElem?_eq_getElem (by omega), Option.getD_some]
  rcases hwho with rfl | rfl | rfl <;> exact List.mem_append_right _ hin

/-- A DMA engine keeps what the read delivered with the descriptors in flight (R223). -/
theorem State.flights_setFlights (s : State) (e : Nat) {f : DmaFlight} {fs : List DmaFlight} (h : f ∈ fs) :
    f ∈ (s.setFlights e fs).flights e := by
  have hget : (s.setFlights e fs).flights e = fs :=
    storeGet_storeSet_new [] s.host.flights e fs (List.ne_nil_of_mem h)
  rwa [hget]

theorem State.hbm_deliver (s : State) (ch o addr : Nat) {who : Requester} (h : who ≠ .flush) (bytes : List Byte) (ue : Bool) :
    (s.deliver ch o addr who bytes ue).hbm = { s.hbm with bad := (s.deliver ch o addr who bytes ue).hbm.bad } := by
  cases who with
  | flush => exact absurd rfl h
  | _ => rfl

theorem State.mem_deliver (s : State) (ch o addr : Nat) {who : Requester} (h : who ≠ .flush) (ha : who ≠ .atomic)
    (bytes : List Byte) (ue : Bool) : (s.deliver ch o addr who bytes ue).mem = s.mem := by
  cases who with
  | flush => exact absurd rfl h
  | atomic => exact absurd rfl ha
  | _ => rfl

/-- What bytes reads return comes from memory, the entries and the channels in service. -/
theorem State.readsSame_of_parts {s t : State} (hmem : t.mem = s.mem) (hwcb : t.hbm.wcb = s.hbm.wcb)
    (hin : t.hbm.inService = s.hbm.inService) : ReadsSame s t :=
  ⟨fun j _ => congrFun (State.keyByte_congr hmem hwcb) j, hin⟩

/-- A delivery to any requester but an atomic or a flush changes no byte (R223). -/
theorem State.deliver_readsSame (s : State) (ch o addr : Nat) {who : Requester} (h : who ≠ .flush) (ha : who ≠ .atomic)
    (bytes : List Byte) (ue : Bool) : ReadsSame s (s.deliver ch o addr who bytes ue) := by
  have hhbm := s.hbm_deliver ch o addr h bytes ue
  exact State.readsSame_of_parts (s.mem_deliver ch o addr h ha bytes ue) (by rw [hhbm]) (by rw [hhbm])

/-- Where a requester reaches, the channel is one of the module's. -/
theorem State.readPlace_ch {s : State} {addr : Nat} {who : Requester} {ch o : Nat} (h : s.readPlace addr who = some (ch, o)) :
    ch < 256 := by
  simp only [State.readPlace] at h
  split at h
  · obtain ⟨rfl, -⟩ := Prod.mk.inj (Option.some.inj h)
    omega
  · exact State.hbmPlace_ch h

/-- A corrected read for its requester (R214, R221). -/
theorem State.correctedFor_shows {s : State} (hwf : storeWf 0 s.regs = true) {ch : Nat} (hch : ch < 256) (o addr : Nat)
    (who : Requester) (found : Nat × List Byte) : ∃ t, s.correctedFor ch o addr who found = t ∧
      t.regN (bankKey Reg.MEM_CE_COUNT ch) = min (s.regN (bankKey Reg.MEM_CE_COUNT ch) + 1) (2 ^ 64 - 1) ∧
      (who ≠ .flush → (s.writeBacks ch).length < 64 → t.writeBacks ch = s.writeBacks ch ++ [(o / 64, found.2)]) ∧
      (who ≠ .flush → 64 ≤ (s.writeBacks ch).length → t.writeBacks ch = s.writeBacks ch ∧ t.bit Reg.MEM_EVENT 5 = true ∧
        t.regN Reg.MEM_WB_DROP = min (s.regN Reg.MEM_WB_DROP + 1) (2 ^ 32 - 1)) ∧
      (found.1 = 3 → t.bit (Reg.MEM_SUSPECT + 4 * (ch / 32)) (ch % 32) = true) ∧
      (who = .scheduled ∨ who = .update ∨ who = .image → found.2 ≠ [] → ∀ i, i < min 64 found.2.length →
        (hbmKey ch (o / 64 * 64) + i, found.2.getD i 0) ∈ t.hbm.bad) ∧
      (found.2 = [] ∨ (who ≠ .atomic ∧ who ≠ .flush) → ReadsSame s t) ∧
      Writes (.mem :: Part.corrected) (bankKey Reg.MEM_CE_COUNT ch :: Reg.corrected) s t := by
  obtain ⟨c, hc, hce, hqueue, hdrop, hsus, hhbm, hlaw⟩ := State.corrected_shows hwf hch o found.1 found.2
  have hcsame : ReadsSame s c := State.readsSame_of_parts (hlaw.evolves.keep .mem (by decide)) (by rw [hhbm]) (by rw [hhbm])
  unfold State.correctedFor
  rw [hc]
  dsimp only
  by_cases hnil : found.2 = []
  · rw [if_pos (by rw [hnil]; rfl)]
    exact ⟨c, rfl, hce, fun _ => hqueue, fun _ => hdrop, hsus, fun _ hne => absurd hnil hne, fun _ => hcsame,
      hlaw.widen (hl := fun _ h => h)⟩
  · rw [if_neg (by rwa [List.isEmpty_iff])]
    have hdel := c.deliver_writes ch o addr who found.2 false
    have hwb (h : who ≠ .flush) : (c.deliver ch o addr who found.2 false).writeBacks ch = c.writeBacks ch := by
      rw [State.writeBacks, c.hbm_deliver ch o addr h, State.writeBacks]
    refine ⟨_, rfl, (hdel.regN List.not_mem_nil).trans hce, fun h hlt => (hwb h).trans (hqueue hlt), fun h hge => ?_,
      fun h3 => (hdel.bit List.not_mem_nil _).trans (hsus h3), fun hw _ i hi => c.bad_deliver ch o addr hw found.2 false hi,
      fun h => ?_, (hlaw.widen (hl := fun _ h => h)).step hdel⟩
    · obtain ⟨hsame, hevent, hcount⟩ := hdrop hge
      exact ⟨(hwb h).trans hsame, (hdel.bit List.not_mem_nil _).trans hevent, (hdel.regN List.not_mem_nil).trans hcount⟩
    · obtain ⟨ha, hf⟩ := h.resolve_left hnil
      exact hcsame.trans (c.deliver_readsSame ch o addr hf ha found.2 false)

end Sys2Proof.Machine

/-! Uncorrectable reads of HBM (R222 to R224). -/

namespace Sys2Proof.Machine

set_option Elab.async false

/-! ### The host side but for its vectors -/

/-- The host side is the same but for the MSI-X vectors. -/
def State.msixOnly (s t : State) : Prop := t.host = { s.host with msix := t.host.msix }

theorem State.msixOnly_refl (s : State) : s.msixOnly s := rfl

theorem State.msixOnly.trans {s t u : State} (h : s.msixOnly t) (g : t.msixOnly u) : s.msixOnly u := by
  unfold State.msixOnly at h g ⊢
  rw [g, h]

theorem State.msixOnly_of_host {s t : State} (h : t.host = s.host) : s.msixOnly t := by
  unfold State.msixOnly
  rw [h]

theorem Evolves.msixOnly {P : List Part} {s t : State} (h : Evolves P s t) (hhost : .host ∉ P := by decide) : s.msixOnly t :=
  State.msixOnly_of_host (h.keep .host hhost)

theorem State.setVec_msixOnly (s : State) (v : Nat) (x : MsixVec) : s.msixOnly (s.setVec v x) := rfl

theorem State.signal_msixOnly (s : State) (v : Nat) : s.msixOnly (s.signal v) := by
  unfold State.signal
  split
  · exact s.setVec_msixOnly _ _
  · unfold State.fire
    dsimp only
    split
    · exact s.setVec_msixOnly _ _
    · have hsend (u : State) (x : Output) : u.msixOnly (u.toHost x) := (u.toHost_evolves x).msixOnly
      exact (s.setVec_msixOnly _ _).trans (hsend _ _)

theorem State.event_msixOnly (s : State) (o i : Nat) : s.msixOnly (s.event o i) := by
  have hset : s.msixOnly (s.setBit o i true) := (s.setBit_writes o i true).evolves.msixOnly
  unfold State.event
  split
  · exact s.msixOnly_refl
  · split
    · exact hset.trans (State.signal_msixOnly _ _)
    · exact hset

theorem State.ledgerEvent_msixOnly (s : State) (ty cls subject detail : Nat) (data : List Byte) :
    s.msixOnly (s.ledgerEvent ty cls subject detail data) := by
  have hlost (u : State) : u.msixOnly u.ledgerLost := u.ledgerLost_writes.evolves.msixOnly
  have hevent (u : State) (c : Prop) [Decidable c] (i : Nat) : u.msixOnly (if c then u.event Reg.HLT_EVENT i else u) := by
    split
    · exact u.event_msixOnly _ _
    · exact u.msixOnly_refl
  unfold State.ledgerEvent State.ledgerAppend
  split
  · exact ((s.live_writes _ _).evolves.msixOnly).trans (hlost _)
  · split
    · exact hlost s
    · unfold State.ledgerWrite
      dsimp only
      refine State.msixOnly.trans (State.msixOnly.trans (State.msixOnly.trans ?_ (hevent _ _ _)) (hevent _ _ _)) (hevent _ _ _)
      exact State.msixOnly_of_host rfl

theorem State.trace_msixOnly (s : State) (d : Fin 2) (code source payload : Nat) :
    s.msixOnly (s.trace d code source payload) := by
  unfold State.trace
  split
  · dsimp only
    split
    · unfold State.loseSrc
      exact (State.msixOnly_of_host rfl).trans (State.event_msixOnly _ _ _)
    · exact State.msixOnly_of_host rfl
  · exact s.msixOnly_refl

theorem State.suspect_msixOnly (s : State) (ch detail : Nat) : s.msixOnly (s.suspect ch detail) := by
  unfold State.suspect
  split
  · exact s.msixOnly_refl
  · exact (((s.setBit_writes _ _ _).evolves.msixOnly).trans (State.event_msixOnly _ _ _)).trans
      (State.ledgerEvent_msixOnly _ _ _ _ _ _)

theorem State.spoil_msixOnly (s : State) (c : Nat) : s.msixOnly (s.spoil c) := by
  rcases h : s.tick.step with _ | r
  · rw [State.spoil_of_none h]
    exact s.msixOnly_refl
  · rw [State.spoil_of_some h]
    have hset : s.msixOnly (s.causeSet c) := State.msixOnly_of_host rfl
    split
    · split
      · exact hset
      · exact hset
    · split
      · exact hset
      · exact (hset.trans (State.mapStep_evolves _ _).msixOnly).trans
          ((State.trace_msixOnly _ _ _ _ _).trans (State.trace_msixOnly _ _ _ _ _))

theorem State.msixOnly.flights {s t : State} (h : s.msixOnly t) (e : Nat) : t.flights e = s.flights e := by
  unfold State.msixOnly at h
  unfold State.flights
  rw [h]

end Sys2Proof.Machine

/-! Uncorrectable reads of HBM: what they report and what falls on their requester (R222 to R224). -/

namespace Sys2Proof.Machine

set_option Elab.async false

/-! ### The report -/

/-- What an uncorrectable read counts, records and marks, before its bytes are delivered. -/
def State.ueReported (s : State) (ch o : Nat) (who : Requester) : State :=
  let s1 := ((s.count (bankKey Reg.MEM_UE_COUNT ch) 32 1).bel64 (dieCnt (ch / 128) 17) 1).live (0x420 + ch) 1
  let s2 := ((s1.recordUe ch o who).event Reg.MEM_EVENT 1).ledgerEvent 0x04 0 ch (s.ueInfo who) (leBytes 8 (windowOffset ch o))
  (s2.trace (dieOf ch 128) 0x0F ch (windowOffset ch o + 2 ^ 64 * sourceCode who)).suspect ch 1

theorem State.uncorrectable_eq (s : State) (ch o addr : Nat) (via : Requester) (bytes : List Byte) :
    s.uncorrectable ch o addr via bytes = ((s.ueReported ch o (s.readFor ch o via)).deliver ch o addr via bytes
      true).ueConsequence ch addr bytes via (s.readFor ch o via) := by
  unfold State.uncorrectable State.ueReported
  rfl

/-- The registers of the first uncorrectable read. -/
abbrev Reg.ueInfo : List Nat := [Reg.MEM_UE_ADDR, Reg.MEM_UE_TICK, Reg.MEM_UE_INFO]

/-- The registers that the report may change beside its channel's count. -/
abbrev Reg.ue : List Nat := Reg.ueInfo ++ Reg.suspect ++ Reg.trace

/-- The parts that the report may change. -/
abbrev Part.ue : List Part := [.regs, .free, .out, .heldOut, .host, .hlt, .bel]

theorem State.recordUe_writes (s : State) (ch o : Nat) (who : Requester) : Writes [.regs] Reg.ueInfo s (s.recordUe ch o who) := by
  unfold State.recordUe
  split
  · exact Writes.refl s
  · exact (((s.setRegN_writes _ _).widen (M := Reg.ueInfo)).step (State.setRegN_writes _ _ _)).step (State.setRegN_writes _ _ _)

theorem State.ueInfo_lt (s : State) (who : Requester) : s.ueInfo who < 2 ^ 64 := by
  have hcode : sourceCode who ≤ 6 := by
    cases who with
    | hostDma e => exact (by decide : 2 ≤ 6)
    | _ => decide
  have hstep := (inStepFor s who).toNat_le
  unfold State.ueInfo
  omega

/-- The first uncorrectable read since the last clear is recorded. -/
theorem State.recordUe_first {s : State} (hwf : storeWf 0 s.regs = true) (hfirst : s.bit Reg.MEM_UE_INFO 31 = false) {ch o : Nat}
    (hch : ch < 256) (ho : o < chanBytes) (who : Requester) : (s.recordUe ch o who).regN Reg.MEM_UE_ADDR = windowOffset ch o ∧
      (s.recordUe ch o who).regN Reg.MEM_UE_TICK = s.tick.now % 2 ^ 64 ∧
      (s.recordUe ch o who).regN Reg.MEM_UE_INFO = s.ueInfo who := by
  unfold State.recordUe
  rw [if_neg (by simp [hfirst])]
  have hlt : windowOffset ch o < 2 ^ 64 := by
    unfold windowOffset
    unfold chanBytes at ho
    omega
  have h1 := s.setRegN_writes Reg.MEM_UE_ADDR (windowOffset ch o)
  have haddr := s.regN_setRegN Reg.MEM_UE_ADDR _ hwf hlt
  generalize s.setRegN Reg.MEM_UE_ADDR (windowOffset ch o) = u at *
  have h2 := u.setRegN_writes Reg.MEM_UE_TICK s.tick.now
  have htick := State.regN_setRegN_mod (h1.wf hwf) Reg.MEM_UE_TICK s.tick.now
  generalize u.setRegN Reg.MEM_UE_TICK s.tick.now = v at *
  have h3 := v.setRegN_writes Reg.MEM_UE_INFO (s.ueInfo who)
  exact ⟨(h3.regN (by decide)).trans ((h2.regN (by decide)).trans haddr), (h3.regN (by decide)).trans htick,
    v.regN_setRegN _ _ (h2.wf (h1.wf hwf)) (s.ueInfo_lt who)⟩

theorem State.recordUe_congr {s t : State} (h : t.tick = s.tick) (who : Requester) : t.ueInfo who = s.ueInfo who := by
  unfold State.ueInfo
  have hstep : inStepFor t who = inStepFor s who := by
    have hvote : t.beforeVote = s.beforeVote := by
      unfold State.beforeVote
      rw [h]
    cases who <;> simp only [inStepFor, hvote]
  rw [hstep]

/-- R222 to R224: the report of an uncorrectable read. -/
theorem State.ueReported_shows {s : State} (hwf : storeWf 0 s.regs = true) {ch o : Nat} (hch : ch < 256) (ho : o < chanBytes)
    (who : Requester) : ∃ t, s.ueReported ch o who = t ∧
      t.regN (bankKey Reg.MEM_UE_COUNT ch) = min (s.regN (bankKey Reg.MEM_UE_COUNT ch) + 1) (2 ^ 32 - 1) ∧
      t.bit Reg.MEM_EVENT 1 = true ∧ t.bit (Reg.MEM_SUSPECT + 4 * (ch / 32)) (ch % 32) = true ∧
      (s.bit Reg.MEM_UE_INFO 31 = false → t.regN Reg.MEM_UE_ADDR = windowOffset ch o ∧
        t.regN Reg.MEM_UE_TICK = s.tick.now % 2 ^ 64 ∧ t.regN Reg.MEM_UE_INFO = s.ueInfo who) ∧
      s.msixOnly t ∧ Writes Part.ue (bankKey Reg.MEM_UE_COUNT ch :: Reg.ue) s t := by
  unfold State.ueReported
  dsimp only
  have hcount := State.count_writes s (bankKey Reg.MEM_UE_COUNT ch) 32 1
  have hue := s.regN_count (bankKey Reg.MEM_UE_COUNT ch) 32 1 hwf (by decide)
  generalize s.count (bankKey Reg.MEM_UE_COUNT ch) 32 1 = a at *
  have haside := ((State.bel64_evolves a (dieCnt (ch / 128) 17) 1).writes.widen (Q := [.bel, .hlt]) (M := [])).step
    (State.live_writes _ (0x420 + ch) 1)
  generalize (a.bel64 (dieCnt (ch / 128) 17) 1).live (0x420 + ch) 1 = b at *
  have hb : Writes [.regs, .bel, .hlt] [bankKey Reg.MEM_UE_COUNT ch] s b := hcount.widen.step haside
  have hbwf := hb.wf hwf
  have htick : b.tick = s.tick := hb.evolves.keep .tick (by decide)
  have hrec := b.recordUe_writes ch o who
  have hinfo := fun h => State.recordUe_first (s := b) hbwf h hch ho who
  rw [htick, State.recordUe_congr htick, hb.bit (by
    have h := bankKey_ne (off := Reg.MEM_UE_COUNT) (i := ch) (o := Reg.MEM_UE_INFO) (by decide) (by decide) (by decide)
    simpa using h)] at hinfo
  generalize b.recordUe ch o who = c at *
  have hev := c.event_writes Reg.MEM_EVENT 1
  have hbit := c.bit_event Reg.MEM_EVENT 1 (hrec.wf hbwf) (by decide)
  have hevm := c.event_msixOnly Reg.MEM_EVENT 1
  generalize c.event Reg.MEM_EVENT 1 = d at *
  have hled := d.ledgerEvent_writes 0x04 0 ch (s.ueInfo who) (leBytes 8 (windowOffset ch o))
  have hledm := d.ledgerEvent_msixOnly 0x04 0 ch (s.ueInfo who) (leBytes 8 (windowOffset ch o))
  generalize d.ledgerEvent 0x04 0 ch (s.ueInfo who) (leBytes 8 (windowOffset ch o)) = e at *
  have htr := e.trace_writes (dieOf ch 128) 0x0F ch (windowOffset ch o + 2 ^ 64 * sourceCode who)
  have htrm := e.trace_msixOnly (dieOf ch 128) 0x0F ch (windowOffset ch o + 2 ^ 64 * sourceCode who)
  generalize e.trace (dieOf ch 128) 0x0F ch (windowOffset ch o + 2 ^ 64 * sourceCode who) = f at *
  have hbf : Writes Part.ue Reg.ue b f :=
    (((hrec.widen (Q := Part.ue) (M := Reg.ue) rfl (by decide)).step hev rfl (by decide)).step hled rfl (by decide)).step htr rfl
      (by decide)
  have hfwf := hbf.wf hbwf
  have hfbit : f.bit Reg.MEM_EVENT 1 = true := (htr.bit (by decide) 1).trans ((hled.bit (by decide) 1).trans hbit)
  obtain ⟨hsus, -, hsuslaw⟩ := State.suspect_marks hfwf hch 1
  have hevent := State.suspect_event hfwf hfbit hch 1
  have hsusm := f.suspect_msixOnly ch 1
  generalize f.suspect ch 1 = t at *
  have hkey : bankKey Reg.MEM_UE_COUNT ch ∉ Reg.ue := bankKey_notMem (by decide) (by decide) (by decide) _
  have hbt : Writes Part.ue Reg.ue b t := hbf.step hsuslaw rfl (by decide)
  have hshown {r : Nat} (h : r ∈ Reg.ueInfo) : t.regN r = c.regN r := by
    have h1 : ∀ r ∈ Reg.ueInfo, r ∉ Reg.suspect ∧ r ∉ Reg.trace ∧ r ∉ Reg.ledger ∧ r ∉ [Reg.MEM_EVENT] := by decide
    obtain ⟨a1, a2, a3, a4⟩ := h1 r h
    exact (hsuslaw.regN a1).trans ((htr.regN a2).trans ((hled.regN a3).trans (hev.regN a4)))
  refine ⟨t, rfl, (hbt.regN hkey).trans ((haside.regN List.not_mem_nil).trans hue), hevent, hsus, fun h => ?_, ?_, ?_⟩
  · obtain ⟨h1, h2, h3⟩ := hinfo h
    exact ⟨(hshown (by decide)).trans h1, (hshown (by decide)).trans h2, (hshown (by decide)).trans h3⟩
  · exact ((hb.evolves.msixOnly.trans hrec.evolves.msixOnly).trans (hevm.trans hledm)).trans (htrm.trans hsusm)
  · exact (hb.widen rfl (by simp)).step hbt rfl fun _ h => List.mem_cons_of_mem _ h

/-! ### The consequence -/

/-- The registers that the consequence of an uncorrectable read may change. -/
abbrev Reg.ueConsequence : List Nat := Reg.QNT_SPOIL_CAUSES :: Reg.MEM_EVENT :: Reg.trace ++ Reg.ledger

/-- The parts that it may change. -/
abbrev Part.ueConsequence : List Part := [.regs, .free, .out, .heldOut, .tick, .stl, .host, .hlt, .bel]

theorem State.ueConsequence_image (s : State) (ch addr : Nat) (bytes : List Byte) (via : Requester) :
    s.ueConsequence ch addr bytes via .image = ((s.event Reg.MEM_EVENT 2).ledgerFatal 7 ch).stopReports := rfl

/-- A fatal read: the module's reports stop. -/
theorem State.ueConsequence_fatal {s : State} (hwf : storeWf 0 s.regs = true) (ch addr : Nat) (bytes : List Byte) (via : Requester) :
    ∃ t, s.ueConsequence ch addr bytes via .image = t ∧ t.tick = { s.tick with stopped := true } ∧
      t.bit Reg.MEM_EVENT 2 = true ∧ (s.bit Reg.MEM_EVENT 1 = true → t.bit Reg.MEM_EVENT 1 = true) ∧ s.msixOnly t ∧
      Writes Part.ueConsequence Reg.ueConsequence s t := by
  rw [s.ueConsequence_image]
  have hev := s.event_writes Reg.MEM_EVENT 2
  have hbit := s.bit_event Reg.MEM_EVENT 2 hwf (by decide)
  have hmono := fun h => State.bit_event_mono (s := s) hwf (o := Reg.MEM_EVENT) (i := 1) 2 (by decide) h
  have hevm := s.event_msixOnly Reg.MEM_EVENT 2
  generalize s.event Reg.MEM_EVENT 2 = u at *
  have hled := u.ledgerFatal_writes 7 ch
  have hledm : u.msixOnly (u.ledgerFatal 7 ch) := u.ledgerEvent_msixOnly _ _ _ _ _
  generalize u.ledgerFatal 7 ch = v at *
  have htick : v.tick = s.tick := Eq.trans (hled.evolves.keep .tick (by decide)) (hev.evolves.keep .tick (by decide))
  have hstop := v.stopReports_evolves.writes
  refine ⟨_, rfl, ?_, (hstop.bit List.not_mem_nil 2).trans ((hled.bit (by decide) 2).trans hbit), fun h =>
    (hstop.bit List.not_mem_nil 1).trans ((hled.bit (by decide) 1).trans (hmono h)),
    (hevm.trans hledm).trans v.stopReports_evolves.msixOnly,
    ((hev.widen (Q := Part.ueConsequence) (M := Reg.ueConsequence) rfl (by decide)).step hled rfl (by decide)).step hstop rfl
      (by simp)⟩
  show { v.tick with stopped := true } = _
  rw [htick]

theorem State.ueConsequence_dma (s : State) (ch addr : Nat) (bytes : List Byte) (via : Requester) (e : Fin 8) :
    s.ueConsequence ch addr bytes via (.hostDma e) = if via = .flush then
      s.setFlights e ((s.flights e).map fun f => { f with bad := markedBytes (addr / 64 * 64) true bytes ++ f.bad })
      else s := rfl

theorem State.ueConsequence_dma_writes (s : State) (ch addr : Nat) (bytes : List Byte) (via : Requester) (e : Fin 8) :
    Writes [.host] [] s (s.ueConsequence ch addr bytes via (.hostDma e)) := by
  rw [s.ueConsequence_dma]
  exact Writes.ite _ (s.setFlights_evolves _ _).writes (Writes.refl s)

theorem State.ueConsequence_writes {s : State} (hwf : storeWf 0 s.regs = true) (ch addr : Nat) (bytes : List Byte)
    (via who : Requester) : Writes Part.ueConsequence Reg.ueConsequence s (s.ueConsequence ch addr bytes via who) := by
  have hspoil : Writes Part.ueConsequence Reg.ueConsequence s (s.spoil 1) := (s.spoil_writes 1).widen rfl (by decide)
  cases who with
  | scheduled => exact hspoil
  | update => exact hspoil
  | image =>
    obtain ⟨t, ht, -, -, -, -, hlaw⟩ := State.ueConsequence_fatal hwf ch addr bytes via
    exact ht ▸ hlaw
  | hostDma e => exact (s.ueConsequence_dma_writes ch addr bytes via e).widen rfl (by simp)
  | _ => exact Writes.refl s

/-- The consequence clears no event. -/
theorem State.ueConsequence_event {s : State} (hwf : storeWf 0 s.regs = true) (h : s.bit Reg.MEM_EVENT 1 = true) (ch addr : Nat)
    (bytes : List Byte) (via who : Requester) : (s.ueConsequence ch addr bytes via who).bit Reg.MEM_EVENT 1 = true := by
  have hspoil : (s.spoil 1).bit Reg.MEM_EVENT 1 = true := ((s.spoil_writes 1).bit (by decide) 1).trans h
  cases who with
  | scheduled => exact hspoil
  | update => exact hspoil
  | image =>
    obtain ⟨t, ht, -, -, hmono, -⟩ := State.ueConsequence_fatal hwf ch addr bytes via
    exact ht ▸ hmono h
  | hostDma e => exact ((s.ueConsequence_dma_writes ch addr bytes via e).bit List.not_mem_nil 1).trans h
  | _ => exact h

/-- Only traffic of the step and the fetch of the image have a consequence for the tick. -/
theorem State.ueConsequence_tick (s : State) (ch addr : Nat) (bytes : List Byte) (via : Requester) {who : Requester}
    (h1 : who ≠ .scheduled) (h2 : who ≠ .update) (h3 : who ≠ .image) : (s.ueConsequence ch addr bytes via who).tick = s.tick := by
  cases who with
  | scheduled => exact absurd rfl h1
  | update => exact absurd rfl h2
  | image => exact absurd rfl h3
  | hostDma e => exact (s.ueConsequence_dma_writes ch addr bytes via e).evolves.keep .tick (by decide)
  | _ => rfl

end Sys2Proof.Machine

/-! O27: reads of HBM. -/

namespace Sys2Proof.Machine

set_option Elab.async false

theorem exec_hbmRead_unbacked {s : State} {addr : Nat} {who : Requester} (h : s.readPlace addr who = none) (n : Nat)
    (wrong : Option (Nat × List Byte)) : exec (.hbmRead addr who n wrong) s = .next s.addrErr := by
  show execHbmRead addr who n wrong s = _
  rw [execHbmRead, h]

/-- What a read first takes back: the earlier deliveries of its line, and counts. -/
def State.readBegun (s : State) (ch o : Nat) (who : Requester) : State :=
  (s.dropBad (hbmKey ch (o / 64 * 64)) 64).bel64 (chanCnt ch (if scheduledReq who then 0 else 2)) 1

theorem State.readBegun_writes (s : State) (ch o : Nat) (who : Requester) : Writes [.hbm, .bel] [] s (s.readBegun ch o who) :=
  ((s.dropBad_evolves _ _).writes.widen (Q := [.hbm, .bel]) (M := [])).step (State.bel64_evolves _ _ _).writes

theorem State.readBegun_hbm (s : State) (ch o : Nat) (who : Requester) :
    (s.readBegun ch o who).hbm = { s.hbm with bad := (s.readBegun ch o who).hbm.bad } := rfl

theorem State.readBegun_readsSame (s : State) (ch o : Nat) (who : Requester) : ReadsSame s (s.readBegun ch o who) :=
  State.readsSame_of_parts rfl rfl rfl

theorem exec_hbmRead_clean {s : State} {addr : Nat} {who : Requester} {ch o : Nat} (h : s.readPlace addr who = some (ch, o)) {n : Nat}
    {wrong : Option (Nat × List Byte)} (hn : n = 0 ∨ decodeLine n wrong = none) :
    exec (.hbmRead addr who n wrong) s = .next (s.readBegun ch o who) := by
  show execHbmRead addr who n wrong s = _
  rw [execHbmRead, h]
  rcases hn with rfl | hn
  · rfl
  · dsimp only
    rw [hn]
    rfl

theorem exec_hbmRead_corrected {s : State} {addr : Nat} {who : Requester} {ch o : Nat} (h : s.readPlace addr who = some (ch, o))
    {n : Nat} {wrong : Option (Nat × List Byte)} (hn : 1 ≤ n) {found : Nat × List Byte} (hf : decodeLine n wrong = some found) :
    exec (.hbmRead addr who n wrong) s = .next ((s.readBegun ch o who).correctedFor ch o addr who found) := by
  show execHbmRead addr who n wrong s = _
  rw [execHbmRead, h]
  dsimp only
  rw [hf]
  exact congrArg Host.Outcome.next (if_neg (by omega))

theorem exec_hbmReadRetry_corrected {s : State} {addr : Nat} {who : Requester} {ch o : Nat}
    (h : s.readPlace addr who = some (ch, o)) {n : Nat} {wrong : Option (Nat × List Byte)} {found : Nat × List Byte}
    (hf : decodeLine n wrong = some found) (bytes : List Byte) : exec (.hbmReadRetry addr who n bytes wrong) s =
      .next ((s.correctedFor ch o addr who found).count (bankKey Reg.MEM_RETRY_COUNT ch) 32 1) := by
  show execHbmReadRetry addr who n bytes wrong s = _
  rw [execHbmReadRetry, h]
  dsimp only
  rw [hf]

theorem exec_hbmReadRetry_uncorrectable {s : State} {addr : Nat} {who : Requester} {ch o : Nat}
    (h : s.readPlace addr who = some (ch, o)) {n : Nat} {wrong : Option (Nat × List Byte)}
    (hf : decodeLine n wrong = none) (bytes : List Byte) :
    exec (.hbmReadRetry addr who n bytes wrong) s = .next (s.uncorrectable ch o addr who bytes) := by
  show execHbmReadRetry addr who n bytes wrong s = _
  rw [execHbmReadRetry, h]
  dsimp only
  rw [hf]

/-- What both reads of a line show that the code corrects. -/
structure CorrectedRead (s t : State) (ch o : Nat) (who : Requester) (found : Nat × List Byte) : Prop where
  ce : t.regN (bankKey Reg.MEM_CE_COUNT ch) = min (s.regN (bankKey Reg.MEM_CE_COUNT ch) + 1) (2 ^ 64 - 1)
  queued : who ≠ .flush → (s.writeBacks ch).length < 64 → t.writeBacks ch = s.writeBacks ch ++ [(o / 64, found.2)]
  dropped : who ≠ .flush → 64 ≤ (s.writeBacks ch).length → t.writeBacks ch = s.writeBacks ch ∧ t.bit Reg.MEM_EVENT 5 = true ∧
    t.regN Reg.MEM_WB_DROP = min (s.regN Reg.MEM_WB_DROP + 1) (2 ^ 32 - 1)
  suspect : found.1 = 3 → t.bit (Reg.MEM_SUSPECT + 4 * (ch / 32)) (ch % 32) = true
  bad : who = .scheduled ∨ who = .update ∨ who = .image → found.2 ≠ [] → ∀ i, i < min 64 found.2.length →
    (hbmKey ch (o / 64 * 64) + i, found.2.getD i 0) ∈ t.hbm.bad
  same : found.2 = [] ∨ (who ≠ .atomic ∧ who ≠ .flush) → s.sameBytes t
  keeps : s.keeps t ([.mem, .free, .hbm, .hlt, .bel] ++ Part.signalled)

theorem CorrectedRead.first {s : State} (hwf : storeWf 0 s.regs = true) {ch o : Nat} (hch : ch < 256) (addr : Nat)
    (who : Requester) (found : Nat × List Byte) :
    CorrectedRead s ((s.readBegun ch o who).correctedFor ch o addr who found) ch o who found := by
  have hbegun := s.readBegun_writes ch o who
  have hsame := s.readBegun_readsSame ch o who
  have hwb : (s.readBegun ch o who).writeBacks ch = s.writeBacks ch := rfl
  generalize s.readBegun ch o who = u at *
  obtain ⟨t, ht, hce, hqueue, hdrop, hsus, hbad, hreads, hlaw⟩ :=
    State.correctedFor_shows (hbegun.wf hwf) hch o addr who found
  rw [hwb, hbegun.regN List.not_mem_nil] at hdrop
  rw [hbegun.regN List.not_mem_nil] at hce
  rw [hwb] at hqueue
  rw [ht]
  have hall : Evolves (.mem :: Part.corrected) s t := (hbegun.evolves.widen rfl).step hlaw.evolves rfl
  have hlong : Evolves ([.mem, .free, .hbm, .hlt, .bel] ++ Part.signalled) s t := hall.widen rfl
  exact ⟨hce, hqueue, hdrop, hsus, hbad, fun h => (hsame.trans (hreads h)).sameBytes, hlong.keep⟩

theorem CorrectedRead.retried {s : State} (hwf : storeWf 0 s.regs = true) {ch o : Nat} (hch : ch < 256) (addr : Nat)
    (who : Requester) (found : Nat × List Byte) :
    CorrectedRead s ((s.correctedFor ch o addr who found).count (bankKey Reg.MEM_RETRY_COUNT ch) 32 1) ch o who found ∧
      ((s.correctedFor ch o addr who found).count (bankKey Reg.MEM_RETRY_COUNT ch) 32 1).regN (bankKey Reg.MEM_RETRY_COUNT ch) =
        min (s.regN (bankKey Reg.MEM_RETRY_COUNT ch) + 1) (2 ^ 32 - 1) := by
  obtain ⟨t, ht, hce, hqueue, hdrop, hsus, hbad, hreads, hlaw⟩ := State.correctedFor_shows hwf hch o addr who found
  rw [ht]
  have hcount := t.count_writes (bankKey Reg.MEM_RETRY_COUNT ch) 32 1
  have hretry := t.regN_count (bankKey Reg.MEM_RETRY_COUNT ch) 32 1 (hlaw.wf hwf) (by decide)
  have hlow {r : Nat} (hr : r < 67108864) (hne : r ≠ Reg.MEM_RETRY_COUNT) : r ∉ [bankKey Reg.MEM_RETRY_COUNT ch] := fun h =>
    bankKey_ne (by decide) hr hne (List.mem_singleton.mp h)
  have hkeys : bankKey Reg.MEM_CE_COUNT ch ≠ bankKey Reg.MEM_RETRY_COUNT ch := fun h => by
    have : Reg.MEM_CE_COUNT = Reg.MEM_RETRY_COUNT := Nat.add_right_cancel h
    exact absurd this (by decide)
  have hold : bankKey Reg.MEM_RETRY_COUNT ch ∉ bankKey Reg.MEM_CE_COUNT ch :: Reg.corrected := fun h =>
    (List.mem_cons.mp h).elim (fun h => hkeys h.symm) (bankKey_notMem (by decide) (by decide) (by decide) _)
  have hhbm : (t.count (bankKey Reg.MEM_RETRY_COUNT ch) 32 1).hbm = t.hbm := hcount.evolves.keep .hbm (by decide)
  have hwb : (t.count (bankKey Reg.MEM_RETRY_COUNT ch) 32 1).writeBacks ch = t.writeBacks ch := by
    rw [State.writeBacks, hhbm, State.writeBacks]
  have hmark : Reg.MEM_SUSPECT + 4 * (ch / 32) < 67108864 ∧ Reg.MEM_SUSPECT + 4 * (ch / 32) ≠ Reg.MEM_RETRY_COUNT := by
    have : ∀ k < 8, Reg.MEM_SUSPECT + 4 * k < 67108864 ∧ Reg.MEM_SUSPECT + 4 * k ≠ Reg.MEM_RETRY_COUNT := by decide
    exact this _ (by omega)
  have hsame : t.memAgrees (t.count (bankKey Reg.MEM_RETRY_COUNT ch) 32 1) := hcount.evolves.memAgrees
  have hall : Evolves (.mem :: Part.corrected) s (t.count (bankKey Reg.MEM_RETRY_COUNT ch) 32 1) :=
    hlaw.evolves.step hcount.evolves rfl
  generalize t.count (bankKey Reg.MEM_RETRY_COUNT ch) 32 1 = v at *
  have hlong : Evolves ([.mem, .free, .hbm, .hlt, .bel] ++ Part.signalled) s v := hall.widen rfl
  refine ⟨⟨?_, fun h hlt => hwb.trans (hqueue h hlt), fun h hge => ?_, fun h => ?_, fun hw hne i hi => ?_,
    fun h => ((hreads h).trans hsame.readsSame).sameBytes, ?_⟩, ?_⟩
  · exact (hcount.regN fun h => hkeys (List.mem_singleton.mp h)).trans hce
  · obtain ⟨h1, h2, h3⟩ := hdrop h hge
    exact ⟨hwb.trans h1, (hcount.bit (hlow (by decide) (by decide)) _).trans h2,
      (hcount.regN (hlow (by decide) (by decide))).trans h3⟩
  · exact (hcount.bit (hlow hmark.1 hmark.2) _).trans (hsus h)
  · rw [hhbm]
    exact hbad hw hne i hi
  · exact hlong.keep
  · rw [hretry, hlaw.regN hold]

/-! ### Uncorrectable reads -/

theorem State.readPlace_lt {s : State} {addr : Nat} {who : Requester} {ch o : Nat} (h : s.readPlace addr who = some (ch, o)) :
    o < chanBytes := by
  simp only [State.readPlace] at h
  split at h
  · next hin =>
    obtain ⟨-, rfl⟩ := Prod.mk.inj (Option.some.inj h)
    exact hin.2.2.2
  · exact State.hbmPlace_lt h

/-- A flush merges its entry over what the read delivered (R234). -/
theorem State.deliver_flush {s : State} (hinv : s.inv) (hok : s.combineOk) (ch o addr : Nat) (bytes : List Byte) (ue : Bool)
    {e : WcbEntry} (he : e ∈ s.wcb ch) (hline : e.line = o / 64) :
    (s.deliver ch o addr .flush bytes ue).wcb ch = (s.wcb ch).filter (fun x => x.line ≠ o / 64) ∧
      ∀ i, i < 64 → (s.deliver ch o addr .flush bytes ue).byteAt (hbmKey ch (64 * (o / 64)) + i) =
        (mergeBytes e.mask bytes e.data).getD i 0 := by
  have hfind : ((s.wcb ch).find? fun e => e.line = o / 64) = some e := by
    have hsome : ((s.wcb ch).find? fun e => e.line = o / 64).isSome = true :=
      List.find?_isSome.mpr ⟨e, he, decide_eq_true hline⟩
    obtain ⟨f, hf⟩ := Option.isSome_iff_exists.mp hsome
    have hfl : f.line = o / 64 := by
      have h := List.find?_some hf
      simpa using h
    rw [hf, List.inj_on_of_nodup_map (State.combines_wcb hok ch).1 (List.mem_of_find?_eq_some hf) he (hfl.trans hline.symm)]
  have hdel : s.deliver ch o addr .flush bytes ue = s.flushOver ch e bytes := by
    show (match (s.wcb ch).find? fun e => e.line = o / 64 with | some e => s.flushOver ch e bytes | none => s) = _
    rw [hfind]
  have hmem : storeWf 0 s.mem = true := hinv.1
  rw [hdel, State.flushOver, s.wcb_lineWrite hok.1, if_pos rfl, hline]
  refine ⟨rfl, fun i hi => ?_⟩
  rw [s.byteAt_lineWrite, s.byteAt_putBytes hmem, if_pos (by rw [mergeBytes_length]; omega), Nat.add_sub_cancel_left]

theorem State.host_deliver_flush (s : State) (ch o addr : Nat) (bytes : List Byte) (ue : Bool) :
    (s.deliver ch o addr .flush bytes ue).host = s.host := by
  unfold State.deliver
  dsimp only
  split
  · exact (s.flushOver_evolves ch _ bytes).keep .host (by decide)
  · rfl

/-- R222 to R224, R234: an uncorrectable read, for its requester. -/
theorem uncorrectable_shows {s : State} (hinv : s.inv) (hok : s.combineOk) {ch o : Nat} (hch : ch < 256) (ho : o < chanBytes)
    (addr : Nat) (via : Requester) (bytes : List Byte) : ∃ t u v : State, s.uncorrectable ch o addr via bytes = t ∧
      s.ueReported ch o (s.readFor ch o via) = u ∧ u.deliver ch o addr via bytes true = v ∧
      v.ueConsequence ch addr bytes via (s.readFor ch o via) = t ∧ s.msixOnly u ∧
      Writes Part.ue (bankKey Reg.MEM_UE_COUNT ch :: Reg.ue) s u ∧ Writes [.mem, .hbm, .host] [] u v ∧
      Writes Part.ueConsequence Reg.ueConsequence v t ∧
      u.regN (bankKey Reg.MEM_UE_COUNT ch) = min (s.regN (bankKey Reg.MEM_UE_COUNT ch) + 1) (2 ^ 32 - 1) ∧
      u.bit Reg.MEM_EVENT 1 = true ∧ u.bit (Reg.MEM_SUSPECT + 4 * (ch / 32)) (ch % 32) = true ∧
      (s.bit Reg.MEM_UE_INFO 31 = false → u.regN Reg.MEM_UE_ADDR = windowOffset ch o ∧
        u.regN Reg.MEM_UE_TICK = s.tick.now % 2 ^ 64 ∧ u.regN Reg.MEM_UE_INFO = s.ueInfo (s.readFor ch o via)) := by
  obtain ⟨u, hu, hcount, hevent, hsus, hinfo, hmsix, hlaw⟩ := State.ueReported_shows hinv.2 hch ho (s.readFor ch o via)
  have hdel := u.deliver_writes ch o addr via bytes true
  refine ⟨_, u, _, rfl, hu, rfl, ?_, hmsix, hlaw, hdel, ?_, hcount, hevent, hsus, hinfo⟩
  · rw [s.uncorrectable_eq, hu]
  · rw [s.uncorrectable_eq, hu]
    exact State.ueConsequence_writes (hdel.wf (hlaw.wf hinv.2)) _ _ _ _ _

/-- Settles O27: each read follows the decoder's verdict; what it delivers comes before the consequence for its requester. -/
theorem readsCorrectOrFail : Obligations.ReadsCorrectOrFail := by
  refine ⟨fun addr who s hinv hok => ⟨fun n wrong hplace => ?_, fun n wrong ch o hplace hn => ?_,
    fun n wrong ch o found hplace hn hfound c hc => ?_⟩, fun addr via n ch o bytes wrong s hinv hok hplace hnone => ?_⟩
  · have hev := s.event_writes Reg.MEM_EVENT 10
    exact ⟨_, exec_hbmRead_unbacked hplace n wrong, s.bit_event _ _ hinv.2 (by decide), hev.touches⟩
  · have hlaw := s.readBegun_writes ch o who
    exact ⟨_, exec_hbmRead_clean hplace hn, s.readBegun_hbm ch o who, hlaw.evolves.keep, hlaw.regs,
      (s.readBegun_readsSame ch o who).sameBytes⟩
  · have hch := State.readPlace_ch hplace
    rcases List.mem_cons.mp hc with rfl | hc
    · have h := CorrectedRead.first hinv.2 hch (o := o) addr who found
      exact ⟨_, exec_hbmRead_corrected hplace hn hfound, h.ce, fun h => (nomatch h), h.queued, h.dropped, h.suspect, h.bad, h.keeps,
        h.same⟩
    · obtain rfl := List.mem_singleton.mp hc
      obtain ⟨h, hretry⟩ := CorrectedRead.retried hinv.2 hch (o := o) addr who found
      exact ⟨_, exec_hbmReadRetry_corrected hplace hfound [], h.ce, fun _ => hretry, h.queued, h.dropped, h.suspect, h.bad,
        h.keeps, h.same⟩
  · have hch := State.readPlace_ch hplace
    obtain ⟨t, u, v, ht, hu, hv, hcons, hmsix, hlawu, hlawv, hlawt, hcount, hevent, hsus, hinfo⟩ :=
      uncorrectable_shows hinv hok hch (State.readPlace_lt hplace) addr via bytes
    intro who
    have hwf := hlawv.wf (hlawu.wf hinv.2)
    have hreg {r : Nat} (h : r ∉ Reg.ueConsequence) : t.regN r = u.regN r := (hlawt.regN h).trans (hlawv.regN List.not_mem_nil)
    have hmark : Reg.MEM_SUSPECT + 4 * (ch / 32) ∉ Reg.ueConsequence := by
      have : ∀ k < 8, Reg.MEM_SUSPECT + 4 * k ∉ Reg.ueConsequence := by decide
      exact this _ (by omega)
    have htick : v.tick = s.tick := Eq.trans (hlawv.evolves.keep .tick (by decide)) (hlawu.evolves.keep .tick (by decide))
    have hmem : u.mem = s.mem := hlawu.evolves.keep .mem (by decide)
    have hhbm : u.hbm = s.hbm := hlawu.evolves.keep .hbm (by decide)
    have hmemt : t.mem = v.mem := hlawt.evolves.keep .mem (by decide)
    have hhbmt : t.hbm = v.hbm := hlawt.evolves.keep .hbm (by decide)
    refine ⟨t, (exec_hbmReadRetry_uncorrectable hplace hnone bytes).trans (congrArg _ ht), ?_, ?_, ?_, fun h => ?_, fun h r hr => ?_,
      fun h1 h2 h3 => ?_, fun h => ?_, fun e h f hf => ?_, fun h i hi => ?_, fun h e he hline => ?_, fun ha hf => ?_, ?_⟩
    · exact (hreg (bankKey_notMem (by decide) (by decide) (by decide) _)).trans hcount
    · exact hcons ▸ State.ueConsequence_event hwf ((hlawv.bit List.not_mem_nil 1).trans hevent) ch addr bytes via who
    · exact (hlawt.bit hmark _).trans ((hlawv.bit List.not_mem_nil _).trans hsus)
    · obtain ⟨h1, h2, h3⟩ := hinfo h
      exact ⟨(hreg (by decide)).trans h1, (hreg (by decide)).trans h2, (hreg (by decide)).trans h3⟩
    · have hspoil : t = v.spoil 1 := by
        rw [← hcons]
        rcases h with h | h <;> rw [show s.readFor ch o via = _ from h] <;> rfl
      have hstep : v.tick.step = some r := by rw [htick]; exact hr
      refine ⟨hspoil ▸ State.spoil_bit hwf hstep (by decide), fun hvote hcause => ?_⟩
      have hix : v.stitchIx = s.stitchIx := by
        have himage : v.image = s.image := Eq.trans (hlawv.evolves.keep .image (by decide)) (hlawu.evolves.keep .image (by decide))
        unfold State.stitchIx State.stepLen
        rw [htick, State.img_congr himage]
      rw [hspoil, State.spoil_cause hstep hvote hcause, hix, htick]
      simp
    · rw [← hcons]
      exact (State.ueConsequence_tick v ch addr bytes via h1 h2 h3).trans htick
    · obtain ⟨t', ht', h1, h2, -⟩ := State.ueConsequence_fatal hwf ch addr bytes via
      have hsame : t = t' := hcons.symm.trans ((congrArg (v.ueConsequence ch addr bytes via) h).trans ht')
      rw [hsame, h1, htick]
      exact ⟨rfl, h2⟩
    · rw [← hcons, show s.readFor ch o via = _ from h, v.ueConsequence_dma]
      by_cases hvia : via = .flush
      · rw [if_pos hvia]
        have hfl : v.flights e = s.flights e := by
          rw [← hv, hvia]
          rw [State.flights, u.host_deliver_flush]
          exact hmsix.flights e
        rw [hfl]
        exact v.flights_setFlights e (List.mem_map.mpr ⟨f, hf, rfl⟩)
      · rw [if_neg hvia]
        have hviae : via = .hostDma e := by
          rw [← show s.readFor ch o via = _ from h]
          cases via with
          | flush => exact absurd rfl hvia
          | _ => rfl
        rw [← hv, hviae]
        refine u.flights_setFlights e (List.mem_map.mpr ⟨f, ?_, rfl⟩)
        rw [hmsix.flights e]
        exact hf
    · rw [hhbmt, ← hv]
      exact u.bad_deliver ch o addr h bytes true hi
    · have hw : u.wcb ch = s.wcb ch := State.wcb_of_hbm hhbm
      have hok' : u.combineOk := ((Forms.refl s).aside hlawu.evolves).combine hok
      obtain ⟨h1, h2⟩ := State.deliver_flush (hlawu.evolves.inv hinv) hok' ch o addr bytes true (hw.symm ▸ he) hline
      rw [h] at hv
      rw [hv] at h1 h2
      refine ⟨(State.wcb_of_hbm hhbmt).trans (h1.trans (by rw [hw])), fun i hi => ?_⟩
      rw [State.byteAt, hmemt]
      exact h2 i hi
    · have h1 : ReadsSame s u := State.readsSame_of_parts hmem (by rw [hhbm]) (by rw [hhbm])
      have h2 : ReadsSame u v := hv ▸ u.deliver_readsSame ch o addr hf ha bytes true
      exact ((h1.trans h2).trans (State.readsSame_of_parts hmemt (by rw [hhbmt]) (by rw [hhbmt]))).sameBytes
    · exact Ledger.grows_trans hlawu.evolves.ledger (Ledger.grows_trans hlawv.evolves.ledger hlawt.evolves.ledger)

end Sys2Proof.Machine

/-! O28: write-backs, patrol scrub, rejected writes. -/

namespace Sys2Proof.Machine

set_option Elab.async false

/-! ### Write-backs -/

theorem exec_writeBack_none {s : State} {ch : Fin 256} (h : s.writeBacks ch = []) : exec (.writeBack ch) s = .next s := by
  show execWriteBack ch s = _
  rw [execWriteBack, h]

/-- The oldest write-back served. -/
def State.served (s : State) (ch : Fin 256) (l : Nat) (bytes : List Byte) (q : List (Nat × List Byte)) : State :=
  ((s.setWriteBacks ch q).putBytes (hbmKey ch (64 * l)) (bytes.take 64)).bel64 (chanCnt ch 5) 1

theorem exec_writeBack_some {s : State} {ch : Fin 256} {l : Nat} {bytes : List Byte} {q : List (Nat × List Byte)}
    (h : s.writeBacks ch = (l, bytes) :: q) : exec (.writeBack ch) s = .next (s.served ch l bytes q) := by
  show execWriteBack ch s = _
  rw [execWriteBack, h]
  rfl

/-- R221: the line leaves the queue, and a miscorrected one is written as it was returned. -/
theorem writeBack_serves {s : State} (hinv : s.inv) (hok : s.combineOk) (ch : Fin 256) (l : Nat) (bytes : List Byte)
    (q : List (Nat × List Byte)) : (s.served ch l bytes q).writeBacks ch = q ∧
      s.keeps (s.served ch l bytes q) [.mem, .hbm, .bel] ∧ (bytes = [] → s.sameBytes (s.served ch l bytes q)) ∧
      (∀ i, i < min 64 bytes.length → (s.served ch l bytes q).byteAt (hbmKey ch (64 * l) + i) = bytes.getD i 0) := by
  have hlaw : Evolves [.mem, .hbm, .bel] s (s.served ch l bytes q) :=
    (((s.setWriteBacks_evolves ch q).widen rfl).step (State.putBytes_evolves _ _ _) rfl).step (State.bel64_evolves _ _ _) rfl
  refine ⟨storeGet_storeSet_same [] _ _ _ hok.2.1, hlaw.keep, fun hnil => ?_, fun i hi => ?_⟩
  · subst hnil
    exact (State.readsSame_of_parts rfl rfl rfl).sameBytes
  · have hmem : storeWf 0 s.mem = true := hinv.1
    have hput : (s.served ch l bytes q).byteAt (hbmKey ch (64 * l) + i) =
        (s.putBytes (hbmKey ch (64 * l)) (bytes.take 64)).byteAt (hbmKey ch (64 * l) + i) := rfl
    rw [hput, s.byteAt_putBytes hmem, if_pos (by rw [List.length_take]; omega), Nat.add_sub_cancel_left,
      List.getD_eq_getElem?_getD, List.getElem?_take, if_pos (by omega), List.getD_eq_getElem?_getD]

/-! ### Scrub -/

/-- Patrol scrub has gone on to the next line. -/
def State.scrubbed (s : State) (ch : Fin 256) : State :=
  { s with hbm := { s.hbm with scrub := storeSet 0 s.hbm.scrub ch ((storeGet 0 s.hbm.scrub ch + 1) % chanLines) } }

theorem State.scrubbed_evolves (s : State) (ch : Fin 256) : Evolves [.hbm] s (s.scrubbed ch) := Evolves.hbm s _ (P := [.hbm]) rfl

theorem exec_patrolScrub_out {s : State} {ch : Fin 256} (h : s.hbm.inService.getLsbD ch = false) (n : Nat)
    (wrong : Option (Nat × List Byte)) : exec (.patrolScrub ch n wrong) s = .next s := by
  show execPatrolScrub ch n wrong s = _
  exact congrArg Host.Outcome.next (if_neg (by rw [h]; exact Bool.false_ne_true))

theorem exec_patrolScrub_clean {s : State} {ch : Fin 256} (h : s.hbm.inService.getLsbD ch = true) {n : Nat}
    {wrong : Option (Nat × List Byte)} (hn : ¬ (1 ≤ n ∧ (decodeLine n wrong).isSome)) :
    exec (.patrolScrub ch n wrong) s = .next (s.scrubbed ch) := by
  show execPatrolScrub ch n wrong s = _
  refine congrArg Host.Outcome.next ((if_pos h).trans ?_)
  cases hd : decodeLine n wrong with
  | none => rfl
  | some found => exact if_pos (by rw [hd] at hn; simp at hn; exact hn)

theorem exec_patrolScrub_corrected {s : State} {ch : Fin 256} (h : s.hbm.inService.getLsbD ch = true) {n : Nat}
    {wrong : Option (Nat × List Byte)} (hn : 1 ≤ n) {found : Nat × List Byte} (hd : decodeLine n wrong = some found) :
    exec (.patrolScrub ch n wrong) s =
      .next ((s.scrubbed ch).corrected ch (64 * storeGet 0 s.hbm.scrub ch) found.1 found.2) := by
  show execPatrolScrub ch n wrong s = _
  refine congrArg Host.Outcome.next ((if_pos h).trans ?_)
  dsimp only
  rw [hd]
  exact if_neg (by omega)

/-- R221: scrub reads one line of a channel in service, and corrects it as any read does. -/
theorem patrolScrub_reads {s : State} (hinv : s.inv) (hok : s.combineOk) {ch : Fin 256}
    (h : s.hbm.inService.getLsbD ch = true) (n : Nat) (wrong : Option (Nat × List Byte)) :
    ∃ t, exec (.patrolScrub ch n wrong) s = .next t ∧
      storeGet 0 t.hbm.scrub ch = (storeGet 0 s.hbm.scrub ch + 1) % 31250000 ∧
      t.regN (bankKey Reg.MEM_CE_COUNT ch) = (if 1 ≤ n ∧ (decodeLine n wrong).isSome
        then min (s.regN (bankKey Reg.MEM_CE_COUNT ch) + 1) (2 ^ 64 - 1) else s.regN (bankKey Reg.MEM_CE_COUNT ch)) ∧
      s.keeps t ([.free, .hbm, .hlt, .bel] ++ Part.signalled) ∧ s.sameBytes t := by
  have hscrub : storeGet 0 (s.scrubbed ch).hbm.scrub ch = (storeGet 0 s.hbm.scrub ch + 1) % 31250000 :=
    storeGet_storeSet_same 0 _ _ _ hok.2.2.1
  have hlaw := (s.scrubbed_evolves ch).writes
  have hsame : ReadsSame s (s.scrubbed ch) := State.readsSame_of_parts rfl rfl rfl
  by_cases hn : 1 ≤ n ∧ (decodeLine n wrong).isSome
  · obtain ⟨found, hd⟩ := Option.isSome_iff_exists.mp hn.2
    rw [if_pos hn, exec_patrolScrub_corrected h hn.1 hd]
    generalize s.scrubbed ch = u at *
    obtain ⟨t, ht, hce, -, -, -, hhbm, hlawt⟩ :=
      State.corrected_shows (hlaw.wf hinv.2) ch.isLt (64 * storeGet 0 s.hbm.scrub ch) found.1 found.2
    have hall : Evolves ([.free, .hbm, .hlt, .bel] ++ Part.signalled) s t := (hlaw.evolves.widen rfl).step hlawt.evolves rfl
    refine ⟨t, congrArg _ ht, by rw [hhbm]; exact hscrub, by rw [hce, hlaw.regN List.not_mem_nil], hall.keep,
      (hsame.trans ?_).sameBytes⟩
    exact State.readsSame_of_parts (hlawt.evolves.keep .mem (by decide)) (by rw [hhbm]) (by rw [hhbm])
  · have hall : Evolves ([.free, .hbm, .hlt, .bel] ++ Part.signalled) s (s.scrubbed ch) := hlaw.evolves.widen rfl
    exact ⟨_, exec_patrolScrub_clean h hn, hscrub, by rw [if_neg hn, hlaw.regN List.not_mem_nil], hall.keep, hsame.sameBytes⟩

/-! ### Rejected writes -/

theorem exec_writeCrcReject {s : State} {addr ch o : Nat} (h : s.hbmPlace addr = some (ch, o)) (n : Nat) :
    exec (.writeCrcReject addr n) s = .next (if 9 ≤ n then
      (((s.suspect ch 6).event Reg.MEM_EVENT 4).ledgerFatal 2 ch).stopReports else s) := by
  show execWriteCrcReject addr n s = _
  rw [execWriteCrcReject, h]

/-- R225: a write rejected with all its repeats. -/
theorem writeCrcReject_fatal {s : State} (hinv : s.inv) {ch : Nat} (hch : ch < 256) : ∃ t,
    (((s.suspect ch 6).event Reg.MEM_EVENT 4).ledgerFatal 2 ch).stopReports = t ∧
      t.bit (Reg.MEM_SUSPECT + 4 * (ch / 32)) (ch % 32) = true ∧ t.bit Reg.MEM_EVENT 4 = true ∧
      t.tick = { s.tick with stopped := true } ∧ s.keeps t ([.tick, .hlt] ++ Part.signalled) ∧ s.sameBytes t := by
  obtain ⟨hbit, -, hsus⟩ := State.suspect_marks hinv.2 hch 6
  generalize s.suspect ch 6 = u at *
  have hev := u.event_writes Reg.MEM_EVENT 4
  have h4 := u.bit_event Reg.MEM_EVENT 4 (hsus.wf hinv.2) (by decide)
  generalize u.event Reg.MEM_EVENT 4 = v at *
  have hled := v.ledgerFatal_writes 2 ch
  generalize v.ledgerFatal 2 ch = w at *
  have hstop := w.stopReports_evolves.writes
  have hmark : ∀ k < 8, Reg.MEM_SUSPECT + 4 * k ∉ Reg.MEM_EVENT :: Reg.ledger := by decide
  have hne : Reg.MEM_SUSPECT + 4 * (ch / 32) ∉ Reg.MEM_EVENT :: Reg.ledger := hmark _ (by omega)
  have hall : Evolves ([.tick, .hlt] ++ Part.signalled) s w.stopReports :=
    (((hsus.evolves.widen rfl).step hev.evolves rfl).step hled.evolves rfl).step hstop.evolves rfl
  have htick : w.tick = s.tick := Eq.trans (hled.evolves.keep .tick (by decide)) (Eq.trans (hev.evolves.keep .tick (by decide))
    (hsus.evolves.keep .tick (by decide)))
  refine ⟨_, rfl, (hstop.bit List.not_mem_nil _).trans ((hled.bit (fun h => hne (List.mem_cons_of_mem _ h)) _).trans
    ((hev.bit (fun h => hne (List.mem_singleton.mp h ▸ List.mem_cons_self)) _).trans hbit)),
    (hstop.bit List.not_mem_nil 4).trans ((hled.bit (by decide) 4).trans h4), ?_, hall.keep, hall.sameBytes⟩
  show { w.tick with stopped := true } = _
  rw [htick]

/-- Settles O28: each of the channel's own operations by its law. -/
theorem channelsTendThemselves : Obligations.ChannelsTendThemselves := by
  refine fun s hinv hok => ⟨fun ch h => exec_writeBack_none h, fun ch l bytes q h => ?_, fun ch n wrong h =>
    patrolScrub_reads hinv hok h n wrong, fun ch n wrong h => exec_patrolScrub_out h n wrong, fun addr ch o n h hn => ?_,
    fun addr ch o n h hn => ?_⟩
  · obtain ⟨h1, h2, h3, h4⟩ := writeBack_serves hinv hok ch l bytes q
    exact ⟨_, exec_writeBack_some h, h1, h2, h3, h4⟩
  · obtain ⟨t, ht, hshown⟩ := writeCrcReject_fatal hinv (State.hbmPlace_ch h)
    refine ⟨t, ?_, hshown⟩
    rw [exec_writeCrcReject h, if_pos hn, ht]
  · rw [exec_writeCrcReject h, if_neg (by omega)]

end Sys2Proof.Machine

/-! O29: memory-side atomics (R233 to R235). -/

namespace Sys2Proof.Machine

set_option Elab.async false

/-! ### The flush -/

/-- A flush of lines changes what no read returns, and leaves no entry on them (R234). -/
theorem State.flushLines_flushes {s : State} (hinv : s.inv) (hok : s.combineOk) {ch : Nat} (hch : ch < 256) (line n : Nat) :
    ReadsSame s (s.flushLines ch line n) ∧ (s.flushLines ch line n).inv ∧ (s.flushLines ch line n).combineOk ∧
      (∀ e ∈ (s.flushLines ch line n).wcb ch, e ∈ s.wcb ch ∧ ¬ (line ≤ e.line ∧ e.line < line + n)) := by
  induction n generalizing s line with
  | zero => exact ⟨ReadsSame.refl s, hinv, hok, fun e he => ⟨he, by omega⟩⟩
  | succ n ih =>
    have hrest : ∀ {u : State}, (∀ e ∈ u.wcb ch, e ∈ s.wcb ch ∧ e.line ≠ line) → (∀ e ∈ (u.flushLines ch (line + 1) n).wcb ch,
        e ∈ u.wcb ch ∧ ¬ (line + 1 ≤ e.line ∧ e.line < line + 1 + n)) →
        ∀ e ∈ (u.flushLines ch (line + 1) n).wcb ch, e ∈ s.wcb ch ∧ ¬ (line ≤ e.line ∧ e.line < line + (n + 1)) := by
      intro u h g e he
      obtain ⟨hu, hout⟩ := g e he
      obtain ⟨hs, hne⟩ := h e hu
      exact ⟨hs, by omega⟩
    rw [State.flushLines]
    split
    · next e he =>
      have hmem := List.mem_of_find?_eq_some he
      have hline : e.line = line := by
        have h := List.find?_some he
        simpa using h
      have hsame := ReadsSame.flushEntry hinv hok hch hmem
      have hinv' := (s.flushEntry_evolves ch e).inv hinv
      have hok' := (s.flushEntry_forms ch e).combine hok
      have hwcb := State.wcb_flushEntry (ch := ch) e hok.1
      generalize s.flushEntry ch e = u at *
      obtain ⟨h1, h2, h3, h4⟩ := ih hinv' hok' (line + 1)
      refine ⟨hsame.trans h1, h2, h3, hrest (fun f hf => ?_) h4⟩
      rw [hwcb] at hf
      obtain ⟨hs, hne⟩ := List.mem_filter.mp hf
      exact ⟨hs, fun h => by simp [h, hline] at hne⟩
    · next hnone =>
      obtain ⟨h1, h2, h3, h4⟩ := ih hinv hok (line + 1)
      exact ⟨h1, h2, h3, hrest (fun f hf => ⟨hf, by simpa using List.find?_eq_none.mp hnone f hf⟩) h4⟩

/-- Bytes put where no entry lies over them read back, and nothing else changes. -/
theorem Rewrites.putHbm {s : State} (hinv : s.inv) {ch o : Nat} (hch : ch < 256) {bs : List Byte}
    (ho : o + bs.length ≤ 2 ^ 31) (hfree : ∀ i, i < bs.length → ∀ e ∈ s.wcb ch, e.line ≠ (o + i) / 64) :
    Rewrites s (s.putBytes (hbmKey ch o) bs) (hbmKey ch o) bs := by
  have hmem : storeWf 0 s.mem = true := hinv.1
  have hwcb (c : Nat) : (s.putBytes (hbmKey ch o) bs).wcb c = s.wcb c := rfl
  refine Rewrites.of_hbm hch ho (fun i hi => ?_) (fun c p hc hp hout => ?_) (fun j hj => ?_) rfl
  · rw [State.hbmByte_eq, hwcb, laid_of_noLine (hfree i hi), s.byteAt_putBytes hmem, if_pos (by unfold hbmKey; omega),
      show hbmKey ch (o + i) - hbmKey ch o = i by unfold hbmKey; omega]
    rfl
  · rw [State.hbmByte_eq, State.hbmByte_eq, hwcb, s.byteAt_putBytes hmem, if_neg]
    unfold hbmKey
    rintro ⟨h1, h2⟩
    have hcc : c = ch := by omega
    have := hout hcc
    subst hcc
    omega
  · rw [s.byteAt_putBytes hmem, if_neg (by unfold hbmKey; omega)]

/-! ### The elements -/

theorem length_atomicBytes (op : AtomicOp) (fmt : AtomicFmt) (fuel : Nat) (xs ys : List Byte) (hfuel : ys.length ≤ fuel)
    (hdiv : ys.length % fmt.bytes = 0) : (atomicBytes op fmt fuel xs ys).length = ys.length := by
  have hsize : atomicSize fmt = fmt.bytes := by cases fmt <;> rfl
  have hpos : 0 < fmt.bytes := by cases fmt <;> decide
  induction fuel generalizing xs ys with
  | zero => rw [atomicBytes]; exact (Nat.le_zero.mp hfuel).symm
  | succ fuel ih =>
    cases ys with
    | nil => rfl
    | cons y ys =>
      rw [atomicBytes]
      generalize hzs : y :: ys = zs at *
      have hz : 0 < zs.length := by rw [← hzs]; exact Nat.succ_pos _
      have hle : fmt.bytes ≤ zs.length := Nat.le_of_dvd hz (Nat.dvd_of_mod_eq_zero hdiv)
      rw [hsize, List.length_append, length_leBytes, ih _ _ (by rw [List.length_drop]; omega)
        (by rw [List.length_drop, ← Nat.mod_eq_sub_mod hle]; exact hdiv), List.length_drop]
      omega

/-! ### The atomic -/

/-- An atomic applied over the old bytes of its span. -/
def State.applied (s : State) (ch o n : Nat) (bs : List Byte) : State :=
  let s2 := (s.putBytes (hbmKey ch o) bs).dropBad (hbmKey ch (o / 64 * 64)) (64 * lineCount o n)
  let s3 := s2.setWriteBacks ch ((s2.writeBacks ch).filter fun l => l.1 < o / 64 || o / 64 + lineCount o n ≤ l.1)
  (s3.count Reg.MEM_ATOMICS 64 1).bel64 (chanCnt ch 3) 1

theorem exec_memoryAtomic {s : State} {addr ch o : Nat} (h : s.hbmPlace addr = some (ch, o)) (op : AtomicOp) (fmt : AtomicFmt)
    (data : List Byte) (fetch : Bool) : exec (.memoryAtomic op fmt addr data fetch) s =
      let s1 := s.flushLines ch (o / 64) (lineCount o data.length)
      let old := (List.range data.length).map fun i => s1.byteAt (hbmKey ch (o + i))
      let s4 := s1.applied ch o data.length (atomicBytes op fmt data.length old data)
      .next (if fetch then s4.send (.fetched old) else s4) := by
  show execMemoryAtomic op fmt addr data fetch s = _
  rw [execMemoryAtomic, h]
  rfl

theorem State.applied_evolves (s : State) (ch o n : Nat) (bs : List Byte) :
    Evolves [.regs, .mem, .hbm, .bel] s (s.applied ch o n bs) :=
  (((((s.putBytes_evolves _ _).widen rfl).step (State.dropBad_evolves _ _ _) rfl).step (State.setWriteBacks_evolves _ _ _)
    rfl).step (State.count_evolves _ _ _ _) rfl).step (State.bel64_evolves _ _ _) rfl

theorem State.applied_reads (s : State) (ch o n : Nat) (bs : List Byte) :
    ReadsSame (s.putBytes (hbmKey ch o) bs) (s.applied ch o n bs) := State.readsSame_of_parts rfl rfl rfl

theorem State.applied_counts {s : State} (hwf : storeWf 0 s.regs = true) (ch o n : Nat) (bs : List Byte) :
    (s.applied ch o n bs).regN Reg.MEM_ATOMICS = min (s.regN Reg.MEM_ATOMICS + 1) (2 ^ 64 - 1) :=
  s.regN_count Reg.MEM_ATOMICS 64 1 hwf (by decide)

/-- R234, R235: an atomic within a block of 256 bytes combines with what a read returned, and touches no other byte. -/
theorem memoryAtomic_applies {s : State} (hinv : s.inv) (hok : s.combineOk) {addr ch o n : Nat}
    (h : s.hbmPlace addr = some (ch, o)) (hn : addr % 256 + n ≤ 256) (f : List Byte → List Byte)
    (hf : ∀ xs, (f xs).length = n) : ∃ s1 old,
      s.flushLines ch (o / 64) (lineCount o n) = s1 ∧ ((List.range n).map fun i => s1.byteAt (hbmKey ch (o + i))) = old ∧
      old = s.devBytes addr n ∧ Wrote s (s1.applied ch o n (f old)) addr (f old) ∧
      Evolves [.mem, .hbm] s s1 := by
  have hch := State.hbmPlace_ch h
  have ho := State.hbmPlace_lt h
  unfold chanBytes at ho
  have hrow {i : Nat} (hi : i < n) : s.hbmPlace (addr + i) = some (ch, o + i) := (State.hbmPlace_row h (by omega)).1
  obtain ⟨hreads, hinv1, hok1, hfree⟩ := State.flushLines_flushes hinv hok hch (o / 64) (lineCount o n)
  have hlaw := s.flushLines_evolves ch (o / 64) (lineCount o n)
  generalize s.flushLines ch (o / 64) (lineCount o n) = s1 at *
  have hline {i : Nat} (hi : i < n) : ∀ e ∈ s1.wcb ch, e.line ≠ (o + i) / 64 := fun e he heq => by
    refine (hfree e he).2 ?_
    unfold lineCount
    omega
  have hlim : n = 0 ∨ o + n ≤ 2 ^ 31 := by
    rcases Nat.eq_zero_or_pos n with h0 | h0
    · exact .inl h0
    · have := State.hbmPlace_lt (hrow (i := n - 1) (by omega))
      unfold chanBytes at this
      exact .inr (by omega)
  refine ⟨s1, _, rfl, rfl, ?_, ?_, hlaw⟩
  · refine List.map_congr_left fun i hi => ?_
    rw [List.mem_range] at hi
    have hkey : s1.hbmByte ch (o + i) = s.hbmByte ch (o + i) := by
      have := hreads.keys (hbmKey ch (o + i)) (by unfold hbmKey; omega)
      rwa [State.keyByte_hbmKey _ hch (by omega), State.keyByte_hbmKey _ hch (by omega)] at this
    rw [State.hbmByte_eq, laid_of_noLine (hline hi)] at hkey
    have hlow : addr + i < 2 ^ 40 := State.lt_of_hbmPlace (hrow hi)
    rw [State.devByte, if_pos hlow, hrow hi]
    exact hkey
  · generalize ((List.range n).map fun i => s1.byteAt (hbmKey ch (o + i))) = old
    have hlen := hf old
    have hput : Rewrites s (s1.applied ch o n (f old)) (hbmKey ch o) (f old) := by
      have hplain := (Rewrites.putHbm hinv1 hch (o := o) (bs := f old) (by omega) (by rw [hlen]; exact fun i hi => hline hi)).after
        hreads
      have happ := s1.applied_reads ch o n (f old)
      exact ⟨fun i hi => (happ.keys _ (by unfold hbmKey; omega)).trans (hplain.inside i hi),
        fun j hj hout => (happ.keys j hj).trans (hplain.outside j hj hout), happ.inService.trans hplain.inService⟩
    have hkey {i : Nat} (hi : i < n) : s.devKey (addr + i) = some (hbmKey ch o + i) := by
      rw [State.devKey_of_hbmPlace (State.lt_of_hbmPlace (hrow hi)) (hrow hi), hbmKey, hbmKey,
        Nat.add_assoc, Nat.add_assoc, Nat.add_assoc]
    refine ⟨fun i k hi hk => ?_, fun j hj hout => ?_, hput.inService⟩
    · rw [hkey (hlen ▸ hi)] at hk
      obtain rfl := Option.some.inj hk
      exact hput.inside i hi
    · refine hput.outside j hj ?_
      by_contra hin
      refine hout (j - hbmKey ch o) (by omega) ?_
      rw [hkey (by omega), show hbmKey ch o + (j - hbmKey ch o) = j by omega]

/-- Settles O29: the flush changes no byte read, so the operands are what a read returned. -/
theorem atomicsApplyWhole : Obligations.AtomicsApplyWhole := by
  intro op fmt addr data fetch s ch o hinv hok hwf hplace
  have hwf' : atomicWf op fmt addr data = true := hwf
  rw [atomicWf, Bool.and_eq_true, decide_eq_true_eq] at hwf'
  obtain ⟨⟨-, -, hdiv, -, hblock⟩, -⟩ := hwf'
  obtain ⟨s1, old, hs1, hold, hread, hwrote, hlaw⟩ := memoryAtomic_applies hinv hok hplace hblock
    (fun xs => atomicBytes op fmt data.length xs data) (fun xs => length_atomicBytes op fmt _ xs data le_rfl hdiv)
  have hexec := exec_memoryAtomic hplace op fmt data fetch
  dsimp only at hexec
  rw [hs1, hold] at hexec
  have happ := s1.applied_evolves ch o data.length (atomicBytes op fmt data.length old data)
  have hcount := State.applied_counts (hlaw.regs hinv.2) ch o data.length (atomicBytes op fmt data.length old data)
  have hlen := length_atomicBytes op fmt data.length old data le_rfl hdiv
  have hregs : s1.regs = s.regs := hlaw.keep .regs (by decide)
  have hbase : s1.regN Reg.MEM_ATOMICS = s.regN Reg.MEM_ATOMICS := by rw [State.regN, State.reg, hregs]; rfl
  rw [hbase] at hcount
  generalize s1.applied ch o data.length (atomicBytes op fmt data.length old data) = v at *
  have hv : Evolves [.regs, .mem, .out, .hbm, .bel] s v := (hlaw.widen rfl).step happ rfl
  have hout : v.out = s.out := Eq.trans (happ.keep .out (by decide)) (hlaw.keep .out (by decide))
  have hback {i : Nat} (hi : i < data.length) : (s.devKey (addr + i)).isSome = true := by
    have hrow := (State.hbmPlace_row hplace (i := i) (by omega)).1
    rw [State.devKey_of_hbmPlace (State.lt_of_hbmPlace hrow) hrow]
    rfl
  have hin : ∀ i, i < data.length → v.devByte (addr + i) = (atomicBytes op fmt data.length old data).getD i 0 := fun i hi =>
    hwrote.devByte (by omega) rfl (hback hi)
  have hother : ∀ b, (∀ i, i < data.length → s.devKey b ≠ s.devKey (addr + i)) → v.devByte b = s.devByte b := fun b hb =>
    hwrote.devByte_other fun i hi => hb i (by omega)
  rw [hread] at hin hexec
  cases fetch with
  | false => exact ⟨v, hexec, hin, hother, fun h => absurd h Bool.false_ne_true, fun _ => hout, hcount, hv.keep⟩
  | true =>
    have hsend := v.send_evolves (.fetched (s.devBytes addr data.length))
    have hsame := hsend.memAgrees.sameBytes
    refine ⟨_, hexec, fun i hi => (hsame _).trans (hin i hi), fun b hb => (hsame b).trans (hother b hb), fun _ => ?_,
      fun h => absurd h.symm Bool.false_ne_true, hcount, (hv.step hsend rfl).keep⟩
    show v.out ++ _ = _
    rw [hout]

end Sys2Proof.Machine

/-! O30: the channel map and its tests, and the temperatures (R217, R226 to R230). -/

namespace Sys2Proof.Machine

set_option Elab.async false

/-! ### Writes that the seed bank takes -/

theorem lastWrite_append (i : Nat) (v : Word) (xs ys : List (Nat × Word)) :
    lastWrite i v (xs ++ ys) = lastWrite i (lastWrite i v xs) ys := by
  induction xs generalizing v with
  | nil => rfl
  | cons x xs ih =>
    rw [List.cons_append, lastWrite, lastWrite]
    exact ih _

theorem queued_append (p q : List SeedEntry) : queued (p ++ q) = queued p ++ queued q := List.flatMap_append ..

theorem State.seedAccept_taken {s : State} {i : Nat} (hfrozen : s.frozen i = false) (hroom : (queued s.sbk.queue).length < 16)
    (v : Word) : s.seedAccept i v = { s with sbk := { s.sbk with queue := s.sbk.queue ++ [⟨[(i, v)]⟩] } } := by
  rw [State.seedAccept, hfrozen, if_neg Bool.false_ne_true, if_neg (by omega)]

/-- A write that the seed bank takes reads back at once (R389). -/
theorem State.seed_taken (s : State) (i j : Nat) (v : Word) :
    ({ s with sbk := { s.sbk with queue := s.sbk.queue ++ [⟨[(i, v)]⟩] } } : State).seed j = if j = i then v else s.seed j := by
  have hread : ({ s with sbk := { s.sbk with queue := s.sbk.queue ++ [⟨[(i, v)]⟩] } } : State).seed j =
      lastWrite j (s.seedStored j) (queued (s.sbk.queue ++ [⟨[(i, v)]⟩])) := rfl
  rw [hread, queued_append, lastWrite_append]
  show (if i = j then v else s.seed j) = _
  exact if_congr eq_comm rfl rfl

/-! ### The bits of a map register -/

/-- One bit of a map register: a channel mapped out, mapped in to be tested, or left. -/
def State.mapBit (s : State) (k : Nat) (old new : Word) (b : Nat) : State := s.mapBits k old new [b]

theorem State.mapBits_cons (s : State) (k : Nat) (old new : Word) (b : Nat) (bs : List Nat) :
    s.mapBits k old new (b :: bs) = (s.mapBit k old new b).mapBits k old new bs := rfl

theorem State.mapBit_out {s : State} {k b : Nat} {old new : Word} (hold : old.getLsbD b = true) (hnew : new.getLsbD b = false) :
    s.mapBit k old new b = ({ s with hbm := { s.hbm with
      mapIn := s.hbm.mapIn.filter (· ≠ 32 * k + b), mapFailed := s.hbm.mapFailed.filter (· ≠ 32 * k + b) } } :
        State).ledgerEvent 0x06 0 (32 * k + b) 0 [] := by
  rw [State.mapBit, State.mapBits, State.mapBits, hold, hnew]
  exact if_pos rfl

theorem State.mapBit_in {s : State} {k b : Nat} {old new : Word} (hold : old.getLsbD b = false) (hnew : new.getLsbD b = true) :
    s.mapBit k old new b = { s with hbm := { s.hbm with
      mapIn := s.hbm.mapIn ++ [32 * k + b], mapFailed := s.hbm.mapFailed.filter (· ≠ 32 * k + b) } } := by
  rw [State.mapBit, State.mapBits, State.mapBits, hold, hnew]
  rfl

theorem State.mapBit_same {s : State} {k b : Nat} {old new : Word} (h : old.getLsbD b = new.getLsbD b) :
    s.mapBit k old new b = s := by
  rw [State.mapBit, State.mapBits, State.mapBits, h]
  cases new.getLsbD b <;> rfl

/-- What a bit of a map register changes of the channels that await a test. -/
structure MapMoved (s t : State) (c : Nat) (old new : Bool) : Prop where
  hbm : t.hbm = { s.hbm with mapIn := t.hbm.mapIn, mapFailed := t.hbm.mapFailed }
  other : ∀ d, d ≠ c → (d ∈ t.hbm.mapIn ↔ d ∈ s.hbm.mapIn)
  mapsIn : old = false → new = true → c ∈ t.hbm.mapIn
  mapsOut : old = true → new = false → c ∉ t.hbm.mapIn

theorem State.mapBit_moves (s : State) (k : Nat) (old new : Word) (b : Nat) :
    MapMoved s (s.mapBit k old new b) (32 * k + b) (old.getLsbD b) (new.getLsbD b) := by
  by_cases heq : old.getLsbD b = new.getLsbD b
  · rw [State.mapBit_same heq, heq]
    exact ⟨rfl, fun _ _ => Iff.rfl, fun h g => absurd (h.symm.trans g) Bool.false_ne_true,
      fun h g => absurd (g.symm.trans h) Bool.false_ne_true⟩
  · cases hold : old.getLsbD b with
    | true =>
      have hnew : new.getLsbD b = false := by rw [hold] at heq; simpa using heq
      rw [State.mapBit_out hold hnew, hnew]
      have hhbm : ∀ u : State, (u.ledgerEvent 0x06 0 (32 * k + b) 0 []).hbm = u.hbm := fun u =>
        (u.ledgerEvent_evolves 0x06 0 (32 * k + b) 0 []).keep .hbm (by decide)
      refine ⟨by rw [hhbm], fun d hd => ?_, fun h => absurd h.symm Bool.false_ne_true, fun _ _ => ?_⟩ <;> rw [hhbm]
      · simp [hd]
      · simp
    | false =>
      have hnew : new.getLsbD b = true := by rw [hold] at heq; simpa using heq
      rw [State.mapBit_in hold hnew, hnew]
      refine ⟨rfl, fun d hd => ?_, fun _ _ => ?_, fun h => absurd h Bool.false_ne_true⟩
      · simp [hd]
      · simp

/-- R226: the channels that a write maps in await their test, and those it maps out await none. -/
theorem State.mapBits_moves (s : State) (k : Nat) (old new : Word) {l : List Nat} (hl : l.Nodup) :
    (s.mapBits k old new l).hbm = { s.hbm with
      mapIn := (s.mapBits k old new l).hbm.mapIn, mapFailed := (s.mapBits k old new l).hbm.mapFailed } ∧
    (∀ d, (∀ b ∈ l, d ≠ 32 * k + b) → (d ∈ (s.mapBits k old new l).hbm.mapIn ↔ d ∈ s.hbm.mapIn)) ∧
    (∀ b ∈ l, (old.getLsbD b = false → new.getLsbD b = true → 32 * k + b ∈ (s.mapBits k old new l).hbm.mapIn) ∧
      (old.getLsbD b = true → new.getLsbD b = false → 32 * k + b ∉ (s.mapBits k old new l).hbm.mapIn)) := by
  induction l generalizing s with
  | nil => exact ⟨rfl, fun _ _ => Iff.rfl, fun b hb => absurd hb List.not_mem_nil⟩
  | cons b l ih =>
    obtain ⟨hb, hnodup⟩ := List.nodup_cons.mp hl
    have hmoved := s.mapBit_moves k old new b
    rw [s.mapBits_cons]
    generalize s.mapBit k old new b = u at *
    obtain ⟨h1, h2, h3⟩ := ih u hnodup
    have hkept : 32 * k + b ∈ (u.mapBits k old new l).hbm.mapIn ↔ 32 * k + b ∈ u.hbm.mapIn :=
      h2 _ fun c hc heq => hb (by rwa [show b = c by omega])
    refine ⟨by rw [h1, hmoved.hbm], fun d hd => ?_, fun c hc => ?_⟩
    · rw [h2 d fun c hc => hd c (List.mem_cons_of_mem _ hc), hmoved.other d (hd b List.mem_cons_self)]
    · rcases List.mem_cons.mp hc with rfl | hc
      · exact ⟨fun ho hn => hkept.mpr (hmoved.mapsIn ho hn), fun ho hn h => hmoved.mapsOut ho hn (hkept.mp h)⟩
      · exact h3 c hc

/-! ### The map copied, the image marked -/

theorem State.noteMap_eq (s : State) : s.noteMap.image =
    (if s.image.st = .empty then s.image else { s.image with mapChanged := true }) ∧ Evolves [.image] s s.noteMap := by
  refine ⟨?_, s.noteMap_evolves⟩
  unfold State.noteMap
  split <;> rfl

theorem State.applyMap_held {s : State} (h : s.image.st = .loaded ∨ s.image.st = .armed ∨ s.image.st = .running) :
    s.applyMap = s := by
  rw [State.applyMap]
  rcases h with h | h | h <;> rw [h]

theorem State.applyMap_empty {s : State} (h : s.image.st = .empty) : s.applyMap = s.copyMap := by
  rw [State.applyMap, h]

theorem State.applyMap_hbm (s : State) : s.applyMap.hbm = { s.hbm with inService := s.applyMap.hbm.inService } ∧
    Evolves (.hbm :: Part.signalled) s s.applyMap := by
  refine ⟨?_, s.applyMap_evolves.widen rfl⟩
  unfold State.applyMap
  split
  · rfl
  · rfl
  · rfl
  · rw [s.copyMap_parts.1]

/-- With no image held the map that the seed bank wants is the one in service. -/
theorem State.applyMap_wants {s : State} (h : s.image.st = .empty) : s.applyMap.hbm.inService = s.applyMap.wantedMap := by
  have hmap := (State.copyMap_parts s).1
  have hsbk : s.copyMap.sbk = s.sbk := (State.copyMap_parts s).2.evolves.keep .sbk (by decide)
  rw [State.applyMap_empty h, State.wantedMap_congr hsbk (by rw [hmap]) (by rw [hmap]), hmap]

/-! ### Writes of the map -/

theorem State.mapWrite_taken {s : State} {k : Nat} (hfrozen : s.frozen (8 + k) = false)
    (hroom : (queued s.sbk.queue).length < 16) (v : Word) : ∃ u w : State,
      u = { s with sbk := { s.sbk with queue := s.sbk.queue ++ [⟨[(8 + k, v)]⟩] } } ∧
      w = u.mapBits k (s.seed (8 + k)) v (List.range 32) ∧
      s.mapWrite k v = (if s.seed (8 + k) = v then w else w.noteMap).applyMap := by
  refine ⟨_, _, rfl, rfl, ?_⟩
  rw [State.mapWrite, State.seedAccept_taken hfrozen hroom]
  dsimp only
  rw [if_neg]
  simp

theorem exec_mapWrite {s : State} (h : s.hosted) (k : Fin 8) (v : Word) :
    exec (.mapWrite k v) s = .next (s.mapWrite k v) := congrArg _ (State.onHost_of_hosted h _)

/-- R217, R226: a write of the map that the seed bank takes. -/
theorem mapWrite_shows {s : State} {k : Nat} (hfrozen : s.frozen (8 + k) = false) (hroom : (queued s.sbk.queue).length < 16)
    (v : Word) : ∃ t, s.mapWrite k v = t ∧ t.seed (8 + k) = v ∧
      (∀ b, b < 32 → ((s.seed (8 + k)).getLsbD b = false → v.getLsbD b = true → (32 * k + b) ∈ t.hbm.mapIn) ∧
        ((s.seed (8 + k)).getLsbD b = true → v.getLsbD b = false → (32 * k + b) ∉ t.hbm.mapIn)) ∧
      (s.image.st = .empty → t.hbm.inService = t.wantedMap ∧ t.image = s.image) ∧
      ((s.image.st = .loaded ∨ s.image.st = .armed ∨ s.image.st = .running) → t.hbm.inService = s.hbm.inService ∧
        (v ≠ s.seed (8 + k) → t.image = { s.image with mapChanged := true })) ∧ t.mem = s.mem := by
  obtain ⟨u, w, hu, hw, ht⟩ := State.mapWrite_taken hfrozen hroom v
  obtain ⟨hhbm, -, hbits⟩ := u.mapBits_moves k (s.seed (8 + k)) v (List.nodup_range (n := 32))
  have hlaww := u.mapBits_evolves k (s.seed (8 + k)) v (List.range 32)
  rw [← hw] at hhbm hbits hlaww
  have hus : u.image = s.image ∧ u.mem = s.mem ∧ u.hbm = s.hbm := by rw [hu]; exact ⟨rfl, rfl, rfl⟩
  have hread : u.seed (8 + k) = v := by rw [hu, s.seed_taken, if_pos rfl]
  have himage : w.image = s.image := Eq.trans (hlaww.keep .image (by decide)) hus.1
  obtain ⟨x, hx⟩ : ∃ x, x = (if s.seed (8 + k) = v then w else w.noteMap) := ⟨_, rfl⟩
  rw [← hx] at ht
  have hnote : Evolves [.image] w x := by
    rw [hx]
    split
    · exact Evolves.refl w
    · exact w.noteMap_evolves
  have hximage : x.image = if s.seed (8 + k) = v ∨ s.image.st = .empty then s.image else { s.image with mapChanged := true } := by
    rw [hx]
    by_cases heq : s.seed (8 + k) = v
    · rw [if_pos heq, if_pos (.inl heq), himage]
    · rw [if_neg heq, w.noteMap_eq.1, himage]
      exact if_congr (by simp [heq]) rfl rfl
  have hxst : x.image.st = s.image.st := by
    rw [hximage]
    split <;> rfl
  have hxhbm : x.hbm = w.hbm := hnote.keep .hbm (by decide)
  obtain ⟨hthbm, happ⟩ := x.applyMap_hbm
  have hsbk : x.applyMap.sbk = u.sbk := Eq.trans (happ.keep .sbk (by decide)) (Eq.trans (hnote.keep .sbk (by decide))
    (hlaww.keep .sbk (by decide)))
  have htimage : x.applyMap.image = x.image := happ.keep .image (by decide)
  refine ⟨_, ht, (State.seed_congr hsbk _).trans hread, fun b hb => ?_, fun h => ⟨State.applyMap_wants (hxst.trans h), ?_⟩,
    fun h => ?_, ?_⟩
  · rw [hthbm, hxhbm]
    exact hbits b (List.mem_range.mpr hb)
  · rw [htimage, hximage, if_pos (.inr h)]
  · rw [State.applyMap_held (by rwa [hxst])]
    refine ⟨by rw [hxhbm, hhbm, hus.2.2], fun hne => ?_⟩
    rw [hximage, if_neg]
    rintro (heq | hempty)
    · exact hne heq.symm
    · rw [hempty] at h
      simp at h
  · exact Eq.trans (happ.keep .mem (by decide)) (Eq.trans (hnote.keep .mem (by decide))
      (Eq.trans (hlaww.keep .mem (by decide)) hus.2.1))

/-! ### The end of a channel's test -/

/-- A channel's march test has left zeros, and the channel awaits it no more. -/
def State.marched (s : State) (ch : Nat) : State :=
  let s1 := s.zeroChannel ch
  { s1 with hbm := { s1.hbm with mapIn := s1.hbm.mapIn.filter (· ≠ ch) } }

/-- The channel has failed its test. -/
def State.marchFailed (s : State) (ch : Nat) : State := { s with hbm := { s.hbm with mapFailed := s.hbm.mapFailed ++ [ch] } }

theorem exec_mapInTestDone {s : State} {ch : Fin 256} (h : ch.val ∈ s.hbm.mapIn) (pass : Bool) :
    exec (.mapInTestDone ch pass) s = .next (if pass then ((s.marched ch).ledgerEvent 0x06 0 ch 1 []).applyMap
      else (((((s.marched ch).marchFailed ch).ownMap (ch / 32) ((s.marched ch).seed (8 + ch / 32) &&&
        ~~~(BitVec.ofNat 32 (2 ^ (ch.val % 32))))).event Reg.MEM_EVENT 9).ledgerEvent 0x06 0 ch 3 []).suspect ch 5) := by
  show execMapInTestDone ch pass s = _
  exact congrArg Host.Outcome.next (if_pos (List.contains_iff_mem.mpr h))

theorem State.marched_evolves (s : State) (ch : Nat) : Evolves [.mem, .hbm] s (s.marched ch) :=
  (s.zeroChannel_evolves ch).step (Evolves.hbm _ _ (P := [.hbm]) rfl) rfl

theorem State.marched_parts (s : State) (ch : Nat) : (s.marched ch).hbm.inService = s.hbm.inService ∧
    (s.marched ch).hbm.mapIn = s.hbm.mapIn.filter (· ≠ ch) ∧ (s.marched ch).hbm.mapFailed = s.hbm.mapFailed := ⟨rfl, rfl, rfl⟩

theorem State.byteAt_marched (s : State) {ch c o : Nat} (ho : o < chanBytes) :
    (s.marched ch).byteAt (hbmKey c o) = if c = ch then 0 else s.byteAt (hbmKey c o) := s.byteAt_zeroChannel ho

/-- R232: zeros in the channel tested, and no other byte changed. -/
theorem marched_zeros {s t : State} {ch : Nat} (hmem : t.mem = (s.marched ch).mem) :
    (∀ o, o < 2000000000 → t.byteAt (hbmKey ch o) = 0) ∧
      (∀ c o, c ≠ ch → o < 2000000000 → t.byteAt (hbmKey c o) = s.byteAt (hbmKey c o)) := by
  have hbyte (k : Nat) : t.byteAt k = (s.marched ch).byteAt k := by rw [State.byteAt, hmem, State.byteAt]
  refine ⟨fun o ho => ?_, fun c o hne ho => ?_⟩
  · rw [hbyte, s.byteAt_marched ho, if_pos rfl]
  · rw [hbyte, s.byteAt_marched ho, if_neg hne]

/-- A write of a map register by the module itself, which the seed bank takes (R226, R51). -/
theorem State.ownMap_taken {s : State} {k : Nat} (hfrozen : s.frozen (8 + k) = false) (hroom : (queued s.sbk.queue).length < 16)
    (v : Word) : (s.ownMap k v).seed (8 + k) = v ∧ (s.ownMap k v).image =
      (if s.image.st = .empty ∨ v = s.seed (8 + k) then s.image else { s.image with mapChanged := true }) ∧
      Evolves (.image :: .sbk :: Part.signalled) s (s.ownMap k v) := by
  have hseed := s.seed_taken (8 + k) (8 + k) v
  rw [if_pos rfl] at hseed
  have hlaw := s.seedAccept_evolves (8 + k) v
  rw [State.seedAccept_taken hfrozen hroom] at hlaw
  unfold State.ownMap
  rw [State.seedAccept_taken hfrozen hroom]
  dsimp only
  rw [hseed]
  obtain ⟨u, hu⟩ : ∃ u : State, u = { s with sbk := { s.sbk with queue := s.sbk.queue ++ [⟨[(8 + k, v)]⟩] } } := ⟨_, rfl⟩
  have himage : u.image = s.image := by rw [hu]
  rw [← hu] at hseed hlaw ⊢
  by_cases h : v = s.seed (8 + k)
  · rw [if_pos h, if_pos (.inr h)]
    exact ⟨hseed, himage, hlaw.widen rfl⟩
  · rw [if_neg h]
    obtain ⟨hnote, hnlaw⟩ := u.noteMap_eq
    refine ⟨(State.seed_congr (hnlaw.keep .sbk (by decide)) _).trans hseed, ?_, (hlaw.widen rfl).step hnlaw rfl⟩
    rw [hnote, himage]
    exact if_congr (by simp [h]) rfl rfl

/-- The bit of one channel in a map register. -/
theorem getLsbD_chanBit {b : Nat} (hb : b < 32) (i : Nat) : (BitVec.ofNat 32 (2 ^ b)).getLsbD i = decide (i = b) := by
  rw [BitVec.getLsbD_ofNat, Nat.testBit_two_pow, Bool.eq_iff_iff]
  simp only [Bool.and_eq_true, decide_eq_true_eq]
  omega

theorem and_not_chanBit {v : Word} {b : Nat} (hb : b < 32) :
    (v &&& ~~~(BitVec.ofNat 32 (2 ^ b))).getLsbD b = false ∧ (v &&& ~~~(BitVec.ofNat 32 (2 ^ b)) = v ↔ v.getLsbD b = false) := by
  have hbit (i : Nat) (hi : i < 32) : (v &&& ~~~(BitVec.ofNat 32 (2 ^ b))).getLsbD i = (v.getLsbD i && !decide (i = b)) := by
    rw [BitVec.getLsbD_and, BitVec.getLsbD_not, getLsbD_chanBit hb, decide_eq_true hi, Bool.true_and]
  refine ⟨by rw [hbit b hb]; simp, fun h => ?_, fun h => BitVec.eq_of_getLsbD_eq fun i hi => ?_⟩
  · rw [← h, hbit b hb]
    simp
  · rw [hbit i hi]
    by_cases hib : i = b
    · rw [hib, h]
      rfl
    · simp [hib]

/-- R226: a channel that passes goes into service when no image is held. -/
theorem marched_passes (s : State) (ch : Nat) : ∃ t, ((s.marched ch).ledgerEvent 0x06 0 ch 1 []).applyMap = t ∧
    t.hbm.mapIn = s.hbm.mapIn.filter (· ≠ ch) ∧ t.mem = (s.marched ch).mem ∧ t.image = s.image ∧
    (s.image.st = .empty → t.hbm.inService = t.wantedMap) ∧
    (s.image.st = .running → t.hbm.inService = s.hbm.inService) := by
  have hmarch := s.marched_evolves ch
  obtain ⟨hin, hmapIn, -⟩ := s.marched_parts ch
  have himage : (s.marched ch).image = s.image := hmarch.keep .image (by decide)
  generalize s.marched ch = u at *
  have hled := u.ledgerEvent_evolves 0x06 0 ch 1 []
  have hhbm : (u.ledgerEvent 0x06 0 ch 1 []).hbm = u.hbm := hled.keep .hbm (by decide)
  have himage' : (u.ledgerEvent 0x06 0 ch 1 []).image = s.image := Eq.trans (hled.keep .image (by decide)) himage
  have hmem : (u.ledgerEvent 0x06 0 ch 1 []).mem = u.mem := hled.keep .mem (by decide)
  generalize u.ledgerEvent 0x06 0 ch 1 [] = w at *
  obtain ⟨hthbm, happ⟩ := w.applyMap_hbm
  refine ⟨_, rfl, by rw [hthbm, hhbm, hmapIn], Eq.trans (happ.keep .mem (by decide)) hmem,
    Eq.trans (happ.keep .image (by decide)) himage', fun h => State.applyMap_wants (by rw [himage', h]), fun h => ?_⟩
  rw [State.applyMap_held (.inr (.inr (by rw [himage', h]))), hhbm, hin]

/-- R226, R227: a channel that fails stays out of service and is suspect; its bit is written back to 0. -/
theorem marched_fails {s : State} (hwf : storeWf 0 s.regs = true) {ch : Nat} (hch : ch < 256)
    (hfrozen : s.frozen (8 + ch / 32) = false) (hroom : (queued s.sbk.queue).length < 16) : ∃ t,
    (((((s.marched ch).marchFailed ch).ownMap (ch / 32) ((s.marched ch).seed (8 + ch / 32) &&&
        ~~~(BitVec.ofNat 32 (2 ^ (ch % 32))))).event Reg.MEM_EVENT 9).ledgerEvent 0x06 0 ch 3 []).suspect ch 5 = t ∧
    t.hbm.mapIn = s.hbm.mapIn.filter (· ≠ ch) ∧ t.mem = (s.marched ch).mem ∧
    (t.seed (8 + ch / 32)).getLsbD (ch % 32) = false ∧ t.bit Reg.MEM_EVENT 9 = true ∧
    t.bit (Reg.MEM_SUSPECT + 4 * (ch / 32)) (ch % 32) = true ∧ t.hbm.inService = s.hbm.inService ∧ ch ∈ t.hbm.mapFailed ∧
    t.image = (if s.image.st = .empty ∨ (s.seed (8 + ch / 32)).getLsbD (ch % 32) = false then s.image
      else { s.image with mapChanged := true }) := by
  have hmarch := s.marched_evolves ch
  obtain ⟨hin, hmapIn, hmapFailed⟩ := s.marched_parts ch
  generalize s.marched ch = m at *
  have hfail : Evolves [.hbm] m (m.marchFailed ch) := Evolves.hbm m _ (P := [.hbm]) rfl
  have hfhbm : (m.marchFailed ch).hbm = { m.hbm with mapFailed := m.hbm.mapFailed ++ [ch] } := rfl
  have hseed (i : Nat) : m.seed i = s.seed i := State.seed_congr (hmarch.keep .sbk (by decide)) i
  generalize m.marchFailed ch = f at *
  have hlaw0 : Evolves [.mem, .hbm] s f := hmarch.step hfail rfl
  have hsbk0 : f.sbk = s.sbk := hlaw0.keep .sbk (by decide)
  have hfseed (i : Nat) : f.seed i = s.seed i := State.seed_congr hsbk0 i
  have himage0 : f.image = s.image := hlaw0.keep .image (by decide)
  have hmem0 : f.mem = m.mem := hfail.keep .mem (by decide)
  obtain ⟨hown, hoimage, holaw⟩ := State.ownMap_taken (s := f) (k := ch / 32) (by unfold State.frozen State.wear; rw [hsbk0]; exact
    hfrozen) (by rw [hsbk0]; exact hroom) (m.seed (8 + ch / 32) &&& ~~~(BitVec.ofNat 32 (2 ^ (ch % 32))))
  rw [himage0, hfseed, hseed] at hoimage
  rw [hseed] at hown holaw ⊢
  generalize f.ownMap (ch / 32) (s.seed (8 + ch / 32) &&& ~~~(BitVec.ofNat 32 (2 ^ (ch % 32)))) = w at *
  have hwwf := holaw.regs (hlaw0.regs hwf)
  have hev := w.event_writes Reg.MEM_EVENT 9
  have h9 := w.bit_event Reg.MEM_EVENT 9 hwwf (by decide)
  generalize w.event Reg.MEM_EVENT 9 = x at *
  have hled := x.ledgerEvent_writes 0x06 0 ch 3 []
  generalize x.ledgerEvent 0x06 0 ch 3 [] = y at *
  have hywf := hled.wf (hev.wf hwwf)
  have hy9 : y.bit Reg.MEM_EVENT 9 = true := (hled.bit (by decide) 9).trans h9
  obtain ⟨hsus, -, hslaw⟩ := State.suspect_marks hywf hch 5
  have ht9 := State.suspect_event hywf hy9 hch 5
  generalize y.suspect ch 5 = t at *
  have hlast : Evolves (.hlt :: Part.signalled) w t := ((hev.evolves.widen rfl).step hled.evolves rfl).step hslaw.evolves rfl
  have hhbm : t.hbm = f.hbm := Eq.trans (hlast.keep .hbm (by decide)) (holaw.keep .hbm (by decide))
  obtain ⟨hbit, hsame⟩ := and_not_chanBit (v := s.seed (8 + ch / 32)) (b := ch % 32) (by omega)
  refine ⟨t, rfl, by rw [hhbm, hfhbm]; exact hmapIn, Eq.trans (hlast.keep .mem (by decide)) (Eq.trans
    (holaw.keep .mem (by decide)) hmem0), ?_, ht9, hsus, by rw [hhbm, hfhbm]; exact hin, ?_, ?_⟩
  · rw [State.seed_congr (hlast.keep .sbk (by decide)), hown]
    exact hbit
  · rw [hhbm, hfhbm]
    exact List.mem_append_right _ (List.mem_singleton.mpr rfl)
  · have himage : t.image = w.image := hlast.keep .image (by decide)
    rw [himage, hoimage]
    exact if_congr (or_congr Iff.rfl hsame) rfl rfl

/-! ### Temperatures -/

theorem exec_hbmTempTimer_reads {s : State} (h : s.image.st ≠ .running) (hp : s.ldg.ps = .a0 ∨ s.ldg.ps = .a1) (temps : List Nat) :
    exec (.hbmTempTimer temps) s = .next (s.readTemps 0 (temps.take 8)) := by
  show execHbmTempTimer temps s = _
  exact congrArg Host.Outcome.next (if_pos ⟨h, hp⟩)

theorem exec_hbmTempTimer_quiet {s : State} (h : s.image.st = .running ∨ s.ldg.ps = .a2 ∨ s.ldg.ps = .a3) (temps : List Nat) :
    exec (.hbmTempTimer temps) s = .next s := by
  show execHbmTempTimer temps s = _
  refine congrArg Host.Outcome.next (if_neg fun ⟨hst, hp⟩ => ?_)
  rcases h with h | h | h
  · exact hst h
  · rw [h] at hp
    simp at hp
  · rw [h] at hp
    simp at hp

/-- The registers of the temperatures and of the idle shares. -/
abbrev Reg.heat : List Nat := [Reg.MEM_TEMP0, Reg.MEM_TEMP1] ++ (List.range 4).map fun i => Reg.MEM_THROTTLE + 4 * i

/-- The register that shows a stack's temperature. -/
def tempReg (k : Nat) : Nat := if k < 4 then Reg.MEM_TEMP0 else Reg.MEM_TEMP1

/-- What a stack's reading shows: its temperature, whether it is hot, and its idle share. -/
structure HeatShown (s : State) (k theta req : Nat) : Prop where
  temp : s.fld (tempReg k) (8 * (k % 4) + 7) (8 * (k % 4)) = theta
  hot : s.hbm.hot.getLsbD k = decide (85 ≤ theta)
  share : s.fld (Reg.MEM_THROTTLE + 4 * (k / 2)) (16 * (k % 2) + 9) (16 * (k % 2)) = req % 1024

/-- The reading of a stack without an image RUNNING. -/
theorem State.readTemp_idle {s : State} (h : s.image.st ≠ .running) (k theta : Nat) : ∃ u : State,
    u = s.setFld (tempReg k) (8 * (k % 4) + 7) (8 * (k % 4)) theta ∧
    ∃ hbm : HbmSt, hbm.hot = (if 85 ≤ theta then s.hbm.hot ||| (BitVec.ofNat 8 (2 ^ k))
        else s.hbm.hot &&& ~~~(BitVec.ofNat 8 (2 ^ k))) ∧ hbm.inService = s.hbm.inService ∧ hbm.wcb = s.hbm.wcb ∧
      s.readTemp k theta =
        ({ (({ u with hbm := { u.hbm with hot := hbm.hot } } : State).liveMax (0xBC0 + k) theta) with hbm := hbm } :
          State).showShare k (s.required theta) := by
  refine ⟨_, rfl, { s.hbm with
    hot := (if 85 ≤ theta then s.hbm.hot ||| (BitVec.ofNat 8 (2 ^ k)) else s.hbm.hot &&& ~~~(BitVec.ofNat 8 (2 ^ k)))
    share := storeSet 0 s.hbm.share k (s.required theta)
    cond := storeSet 0 s.hbm.cond k 0 }, rfl, rfl, rfl, ?_⟩
  exact if_neg h

theorem Reg.tempReg_mem (k : Nat) : tempReg k ∈ Reg.heat := by
  unfold tempReg
  split <;> decide

theorem Reg.throttle_mem {k : Nat} (hk : k < 8) : Reg.MEM_THROTTLE + 4 * (k / 2) ∈ Reg.heat :=
  List.mem_append_right _ (List.mem_map.mpr ⟨k / 2, List.mem_range.mpr (by omega), rfl⟩)

theorem Reg.temp_ne_throttle (j k : Nat) (hk : k < 8) : tempReg j ≠ Reg.MEM_THROTTLE + 4 * (k / 2) := by
  have : ∀ i < 4, Reg.MEM_TEMP0 ≠ Reg.MEM_THROTTLE + 4 * i ∧ Reg.MEM_TEMP1 ≠ Reg.MEM_THROTTLE + 4 * i := by decide
  unfold tempReg
  split
  · exact (this _ (by omega)).1
  · exact (this _ (by omega)).2

/-- A field beside the one written, in the same register or in another. -/
theorem State.fld_setFld_other {s : State} (hwf : storeWf 0 s.regs = true) {o o' hi lo hi' lo' : Nat} (x : Nat) (hhi : hi < 64)
    (h : o' = o → hi' < lo ∨ hi < lo') : (s.setFld o hi lo x).fld o' hi' lo' = s.fld o' hi' lo' := by
  by_cases ho : o' = o
  · subst ho
    exact s.fld_setFld_ne o' x hwf hhi (h rfl)
  · exact (s.setFld_writes o hi lo x).fld (by simpa using ho) hi' lo'

theorem getLsbD_stackBit {k : Nat} (hk : k < 8) (i : Nat) : (BitVec.ofNat 8 (2 ^ k)).getLsbD i = decide (i = k) := by
  rw [BitVec.getLsbD_ofNat, Nat.testBit_two_pow, Bool.eq_iff_iff]
  simp only [Bool.and_eq_true, decide_eq_true_eq]
  omega

/-- A stack is marked hot or cool, and the others stay. -/
theorem getLsbD_hot (v : BitVec 8) {k i : Nat} (hk : k < 8) (hi : i < 8) (p : Prop) [Decidable p] :
    (if p then v ||| (BitVec.ofNat 8 (2 ^ k)) else v &&& ~~~(BitVec.ofNat 8 (2 ^ k))).getLsbD i =
      if i = k then decide p else v.getLsbD i := by
  split
  · next h =>
    rw [BitVec.getLsbD_or, getLsbD_stackBit hk, decide_eq_true h]
    split
    · next hik => simp [hik]
    · next hik => simp [hik]
  · next h =>
    rw [BitVec.getLsbD_and, BitVec.getLsbD_not, getLsbD_stackBit hk, decide_eq_true hi, Bool.true_and, decide_eq_false h]
    split
    · next hik => simp [hik]
    · next hik => simp [hik]

/-- R228, R229: one reading shows its stack and leaves the others. -/
theorem readTemp_shows {s : State} (hwf : storeWf 0 s.regs = true) (h : s.image.st ≠ .running) {k : Nat} (hk : k < 8) {theta : Nat}
    (ht : theta < 256) : HeatShown (s.readTemp k theta) k theta (s.required theta) ∧
      (∀ j a b, j < 8 → j ≠ k → HeatShown s j a b → HeatShown (s.readTemp k theta) j a b) ∧
      ReadsSame s (s.readTemp k theta) ∧ Writes [.regs, .hbm, .hlt] Reg.heat s (s.readTemp k theta) := by
  obtain ⟨u, hu, hbm, hhot, hin, hwcb, heq⟩ := State.readTemp_idle h k theta
  have hset := s.setFld_writes (tempReg k) (8 * (k % 4) + 7) (8 * (k % 4)) theta
  have hown := s.fld_setFld (tempReg k) hwf (hi := 8 * (k % 4) + 7) (lo := 8 * (k % 4)) (x := theta) (by omega)
    (by rwa [show 8 * (k % 4) + 7 + 1 - 8 * (k % 4) = 8 by omega])
  have hkept (j : Nat) (hj : j < 8) (hne : j ≠ k) : u.fld (tempReg j) (8 * (j % 4) + 7) (8 * (j % 4)) =
      s.fld (tempReg j) (8 * (j % 4) + 7) (8 * (j % 4)) := by
    rw [hu]
    refine State.fld_setFld_other hwf theta (by omega) fun hreg => ?_
    have hne' : Reg.MEM_TEMP0 ≠ Reg.MEM_TEMP1 := by decide
    have hhalf : j < 4 ↔ k < 4 := by
      unfold tempReg at hreg
      by_cases h1 : j < 4 <;> by_cases h2 : k < 4
      · exact iff_of_true h1 h2
      · rw [if_pos h1, if_neg h2] at hreg; exact absurd hreg hne'
      · rw [if_neg h1, if_pos h2] at hreg; exact absurd hreg.symm hne'
      · exact iff_of_false h1 h2
    omega
  have hushare (j : Nat) (hj : j < 8) (a b : Nat) :
      u.fld (Reg.MEM_THROTTLE + 4 * (j / 2)) a b = s.fld (Reg.MEM_THROTTLE + 4 * (j / 2)) a b := by
    rw [hu]
    exact hset.fld (by simpa using (Reg.temp_ne_throttle k j hj).symm) a b
  rw [← hu] at hset hown
  obtain ⟨v, hv⟩ : ∃ v : State,
      v = { (({ u with hbm := { u.hbm with hot := hbm.hot } } : State).liveMax (0xBC0 + k) theta) with hbm := hbm } := ⟨_, rfl⟩
  have hvlaw : Evolves [.hbm, .hlt] u v := by
    rw [hv]
    exact ((((Evolves.hbm u _ (P := [.hbm]) rfl).widen (Q := [.hbm, .hlt]) rfl).step (State.liveMax_evolves _ _ _) rfl).step
      (Evolves.hbm _ _ (P := [.hbm]) rfl) rfl)
  have hvhbm : v.hbm = hbm := by rw [hv]
  rw [← hv] at heq
  rw [heq]
  have hvw := hvlaw.writes
  have hvwf := hvw.wf (hset.wf hwf)
  have hshare := v.setFld_writes (Reg.MEM_THROTTLE + 4 * (k / 2)) (16 * (k % 2) + 9) (16 * (k % 2)) (s.required theta)
  have hshown := v.fld_setFld_mod (Reg.MEM_THROTTLE + 4 * (k / 2)) (hi := 16 * (k % 2) + 9) (lo := 16 * (k % 2)) (s.required theta)
    hvwf (by omega)
  have hother (j : Nat) (hj : j < 8) (hne : j ≠ k) : (v.showShare k (s.required theta)).fld (Reg.MEM_THROTTLE + 4 * (j / 2))
      (16 * (j % 2) + 9) (16 * (j % 2)) = v.fld (Reg.MEM_THROTTLE + 4 * (j / 2)) (16 * (j % 2) + 9) (16 * (j % 2)) :=
    State.fld_setFld_other hvwf _ (by omega) fun hreg => by omega
  have htemp (j a b : Nat) : (v.showShare k (s.required theta)).fld (tempReg j) a b = u.fld (tempReg j) a b :=
    (hshare.fld (by simpa using Reg.temp_ne_throttle j k hk) a b).trans (hvw.fld List.not_mem_nil a b)
  have hthbm : (v.showShare k (s.required theta)).hbm = hbm := Eq.trans (hshare.evolves.keep .hbm (by decide)) hvhbm
  have hmem : (v.showShare k (s.required theta)).mem = s.mem := Eq.trans (hshare.evolves.keep .mem (by decide))
    (Eq.trans (hvlaw.keep .mem (by decide)) (hset.evolves.keep .mem (by decide)))
  refine ⟨⟨(htemp k _ _).trans hown, ?_, ?_⟩, fun j a b hj hne hs => ⟨(htemp j _ _).trans ((hkept j hj hne).trans hs.temp), ?_,
    (hother j hj hne).trans ((hvw.fld List.not_mem_nil _ _).trans ((hushare j hj _ _).trans hs.share))⟩,
    State.readsSame_of_parts hmem (by rw [hthbm, hwcb]) (by rw [hthbm, hin]), ?_⟩
  · rw [hthbm, hhot, getLsbD_hot _ hk hk, if_pos rfl]
  · rw [show 16 * (k % 2) + 9 + 1 - 16 * (k % 2) = 10 by omega] at hshown
    exact hshown
  · rw [hthbm, hhot, getLsbD_hot _ hk hj, if_neg hne]
    exact hs.hot
  · refine ((hset.widen (Q := [.regs, .hbm, .hlt]) (M := Reg.heat) rfl fun o ho => ?_).step hvw).step hshare rfl fun o ho => ?_
    · rw [List.mem_singleton.mp ho]
      exact Reg.tempReg_mem k
    · rw [List.mem_singleton.mp ho]
      exact Reg.throttle_mem hk

theorem State.required_congr {s t : State} (h : t.sbk = s.sbk) (theta : Nat) : t.required theta = s.required theta := by
  unfold State.required State.throttleAt
  rw [State.seed_congr h]

/-- R228, R229: the readings of the stacks from one on. -/
theorem readTemps_show {s : State} (hwf : storeWf 0 s.regs = true) (h : s.image.st ≠ .running) (k : Nat) (ts : List Nat)
    (hk : k + ts.length ≤ 8) : (∀ j, j < ts.length → HeatShown (s.readTemps k ts) (k + j) (min (ts.getD j 0) 255)
        (s.required (min (ts.getD j 0) 255))) ∧
      (∀ j a b, j < k → HeatShown s j a b → HeatShown (s.readTemps k ts) j a b) ∧
      ReadsSame s (s.readTemps k ts) ∧ Writes [.regs, .hbm, .hlt] Reg.heat s (s.readTemps k ts) := by
  induction ts generalizing s k with
  | nil => exact ⟨fun j hj => absurd hj (Nat.not_lt_zero j), fun _ _ _ _ h => h, ReadsSame.refl s, Writes.refl s⟩
  | cons t ts ih =>
    rw [List.length_cons] at hk
    rw [State.readTemps]
    obtain ⟨hown, hother, hreads, hlaw⟩ := readTemp_shows hwf h (k := k) (by omega) (theta := min t 255) (by omega)
    generalize s.readTemp k (min t 255) = u at *
    have himage : u.image = s.image := hlaw.evolves.keep .image (by decide)
    obtain ⟨h1, h2, h3, h4⟩ := ih (s := u) (hlaw.wf hwf) (by rwa [himage]) (k + 1) (by omega)
    refine ⟨fun j hj => ?_, fun j a b hj hs => h2 j a b (by omega) (hother j a b (by omega) (by omega) hs), hreads.trans h3,
      hlaw.step h4 rfl fun _ h => h⟩
    cases j with
    | zero => exact h2 k _ _ (by omega) hown
    | succ j =>
      have hj' := h1 j (by rw [List.length_cons] at hj; omega)
      rw [State.required_congr (hlaw.evolves.keep .sbk (by decide))] at hj'
      rw [List.getD_cons_succ, show k + (j + 1) = k + 1 + j by omega]
      exact hj'

/-- R226, R232: the end of a channel's test. -/
theorem mapInTest_passes {s : State} {ch : Fin 256} (hin : ch.val ∈ s.hbm.mapIn) : ∃ t,
    exec (.mapInTestDone ch true) s = .next t ∧ ch.val ∉ t.hbm.mapIn ∧
      (∀ o, o < 2000000000 → t.byteAt (hbmKey ch o) = 0) ∧
      (∀ c o, c ≠ ch.val → o < 2000000000 → t.byteAt (hbmKey c o) = s.byteAt (hbmKey c o)) ∧
      (s.image.st = .empty → t.hbm.inService = t.wantedMap) ∧
      (s.image.st = .running → t.hbm.inService = s.hbm.inService) ∧ t.image = s.image := by
  obtain ⟨t, ht, hmapIn, hmem, himage, hempty, hrun⟩ := marched_passes s ch
  obtain ⟨h1, h2⟩ := marched_zeros hmem
  refine ⟨t, (exec_mapInTestDone hin true).trans ?_, ?_, h1, h2, hempty, hrun, himage⟩
  · rw [if_pos rfl, ht]
  · rw [hmapIn]
    simp

theorem mapInTest_fails {s : State} (hwf : storeWf 0 s.regs = true) {ch : Fin 256} (hin : ch.val ∈ s.hbm.mapIn)
    (hfrozen : s.frozen (8 + ch.val / 32) = false) (hroom : (queued s.sbk.queue).length < 16) : ∃ t,
    exec (.mapInTestDone ch false) s = .next t ∧ ch.val ∉ t.hbm.mapIn ∧
      (∀ o, o < 2000000000 → t.byteAt (hbmKey ch o) = 0) ∧
      (∀ c o, c ≠ ch.val → o < 2000000000 → t.byteAt (hbmKey c o) = s.byteAt (hbmKey c o)) ∧
      (t.seed (8 + ch.val / 32)).getLsbD (ch.val % 32) = false ∧ t.bit Reg.MEM_EVENT 9 = true ∧
      t.bit (Reg.MEM_SUSPECT + 4 * (ch.val / 32)) (ch.val % 32) = true ∧ t.hbm.inService = s.hbm.inService ∧
      ch.val ∈ t.hbm.mapFailed ∧
      t.image = (if s.image.st = .empty ∨ (s.seed (8 + ch.val / 32)).getLsbD (ch.val % 32) = false then s.image
        else { s.image with mapChanged := true }) := by
  obtain ⟨t, ht, hmapIn, hmem, hrest⟩ := marched_fails hwf ch.isLt hfrozen hroom
  obtain ⟨h1, h2⟩ := marched_zeros hmem
  refine ⟨t, (exec_mapInTestDone hin false).trans ?_, ?_, h1, h2, hrest⟩
  · rw [if_neg Bool.false_ne_true, ht]
  · rw [hmapIn]
    simp

/-- R228, R229: the readings of all stacks on the timer. -/
theorem tempTimer_reads {s : State} (hwf : storeWf 0 s.regs = true) {temps : List Nat} (hlen : temps.length = 8)
    (hst : s.image.st ≠ .running) (hps : s.ldg.ps = .a0 ∨ s.ldg.ps = .a1) : ∃ t, exec (.hbmTempTimer temps) s = .next t ∧
      (∀ k, k < 8 → HeatShown t k (min (temps.getD k 0) 255) (s.required (min (temps.getD k 0) 255))) ∧
      t.hbm.inService = s.hbm.inService ∧ s.touches t [.regs, .hbm, .hlt] Reg.heat := by
  obtain ⟨hshown, -, hreads, hlaw⟩ := readTemps_show hwf hst 0 temps (by omega)
  refine ⟨_, (exec_hbmTempTimer_reads hst hps temps).trans ?_, fun k hk => ?_, hreads.inService, hlaw.evolves.keep, hlaw.regs,
    hreads.sameBytes⟩
  · rw [List.take_of_length_le (by omega)]
  · have h := hshown k (by omega)
    rwa [Nat.zero_add] at h

/-- Settles O30: the write of the map bit by bit, the two ends of a channel's test, and the readings stack by stack. -/
theorem mapsAndHeatChange : Obligations.MapsAndHeatChange := by
  refine ⟨fun s hinv hok => ⟨fun k v hhost hfrozen hroom => ?_, fun ch pass hin hfrozen hroom => ?_⟩,
    fun temps s hinv hlen => ⟨fun hst hps => ?_, fun h => exec_hbmTempTimer_quiet h temps⟩⟩
  · obtain ⟨t, ht, hshown⟩ := mapWrite_shows hfrozen hroom v
    exact ⟨t, (exec_mapWrite hhost k v).trans (congrArg _ ht), hshown⟩
  · cases pass with
    | true =>
      obtain ⟨t, ht, hout, h1, h2, hempty, hrun, himage⟩ := mapInTest_passes hin
      exact ⟨t, ht, hout, h1, fun c o _ hne => h2 c o fun h => hne (Fin.ext h), fun _ => hempty, fun _ => hrun,
        fun h => absurd h.symm Bool.false_ne_true, fun _ => himage⟩
    | false =>
      obtain ⟨t, ht, hout, h1, h2, hrest⟩ := mapInTest_fails hinv.2 hin hfrozen hroom
      exact ⟨t, ht, hout, h1, fun c o _ hne => h2 c o fun h => hne (Fin.ext h), fun h => absurd h Bool.false_ne_true,
        fun h => absurd h Bool.false_ne_true, fun _ => hrest, fun h => absurd h Bool.false_ne_true⟩
  · obtain ⟨t, ht, hshown, hserv, htouch⟩ := tempTimer_reads hinv.2 hlen hst hps
    exact ⟨t, ht, fun k hk => ⟨(hshown k hk).temp, (hshown k hk).hot, (hshown k hk).share⟩, hserv, htouch⟩

end Sys2Proof.Machine

/-! O16: the maintenance slot (R59, R61, R231, R289). -/

namespace Sys2Proof.Machine

set_option Elab.async false

/-! ### The flush of every channel -/

theorem State.wcb_flushEntry_ne (s : State) {ch c : Nat} (h : c ≠ ch) (e : WcbEntry) : (s.flushEntry ch e).wcb c = s.wcb c :=
  storeGet_storeSet_ne _ _ _ _ _ h

/-- All the entries of a channel flushed, oldest first (R233). -/
theorem State.flushAll_empties {s : State} (hinv : s.inv) (hok : s.combineOk) {ch : Nat} (hch : ch < 256) (es : List WcbEntry)
    (hes : s.wcb ch = es) : ReadsSame s (s.flushAll ch es) ∧ (s.flushAll ch es).wcb ch = [] ∧
      (∀ c, c ≠ ch → (s.flushAll ch es).wcb c = s.wcb c) ∧ (s.flushAll ch es).hbm.calib = s.hbm.calib := by
  induction es generalizing s with
  | nil => exact ⟨ReadsSame.refl s, hes, fun _ _ => rfl, rfl⟩
  | cons e es ih =>
    have hall := State.combines_wcb hok ch
    have hsame := ReadsSame.flushEntry hinv hok hch (e := e) (by rw [hes]; exact List.mem_cons_self)
    have hinv' := (s.flushEntry_evolves ch e).inv hinv
    have hok' := (s.flushEntry_forms ch e).combine hok
    have hrest : (s.flushEntry ch e).wcb ch = es := by
      rw [State.wcb_flushEntry (ch := ch) e hok.1, hes, List.filter_cons_of_neg (by simp)]
      refine List.filter_eq_self.mpr fun f hf => ?_
      rw [hes] at hall
      have hnot := (List.nodup_cons.mp hall.1).1
      exact decide_eq_true fun heq => hnot (List.mem_map.mpr ⟨f, hf, heq⟩)
    have hother := fun c hc => s.wcb_flushEntry_ne (ch := ch) (c := c) hc e
    have hcalib : (s.flushEntry ch e).hbm.calib = s.hbm.calib := rfl
    rw [State.flushAll]
    generalize s.flushEntry ch e = u at *
    obtain ⟨h1, h2, h3, h4⟩ := ih hinv' hok' hrest
    exact ⟨hsame.trans h1, h2, fun c hc => (h3 c hc).trans (hother c hc), h4.trans hcalib⟩

/-- Every channel flushes its buffer; no byte reads differently (R231). -/
theorem State.flushChannels_empties {s : State} (hinv : s.inv) (hok : s.combineOk) {n : Nat} (hn : n ≤ 256) :
    ReadsSame s (s.flushChannels n) ∧ (∀ c, c < n → (s.flushChannels n).wcb c = []) ∧
      (∀ c, n ≤ c → (s.flushChannels n).wcb c = s.wcb c) ∧ (s.flushChannels n).hbm.calib = s.hbm.calib ∧
      (s.flushChannels n).inv ∧ (s.flushChannels n).combineOk := by
  induction n with
  | zero => exact ⟨ReadsSame.refl s, fun c hc => absurd hc (Nat.not_lt_zero c), fun _ _ => rfl, rfl, hinv, hok⟩
  | succ n ih =>
    obtain ⟨h1, h2, h3, h4, h5, h6⟩ := ih (by omega)
    rw [State.flushChannels]
    generalize s.flushChannels n = u at *
    obtain ⟨g1, g2, g3, g4⟩ := State.flushAll_empties h5 h6 (ch := n) (by omega) (s.wcb n) (h3 n le_rfl)
    have g5 := (u.flushAll_evolves n (s.wcb n)).inv h5
    have g6 := (u.flushAll_forms n (s.wcb n)).combine h6
    generalize u.flushAll n (s.wcb n) = v at *
    refine ⟨h1.trans g1, fun c hc => ?_, fun c hc => (g3 c (by omega)).trans (h3 c (by omega)), g4.trans h4, g5, g6⟩
    by_cases hcn : c = n
    · rw [hcn]
      exact g2
    · exact (g3 c hcn).trans (h2 c (by omega))

/-! ### Readings leave the buffers -/

/-- Readings change of the channels only temperatures, shares and conditions. -/
theorem State.readTemp_hbm (s : State) (k theta : Nat) : ∃ hot share cond,
    (s.readTemp k theta).hbm = { s.hbm with hot := hot, share := share, cond := cond } := by
  have hcond (u : State) (req h : Nat) : ∃ cond, (u.throttleCond k theta req h).hbm = { u.hbm with cond := cond } := by
    unfold State.throttleCond
    dsimp only
    split
    · have hev (v : State) : (v.event Reg.MEM_EVENT 3).hbm = v.hbm := (v.event_evolves _ _).keep .hbm (by decide)
      split
      · refine ⟨storeSet 0 u.hbm.cond k 16, ?_⟩
        refine Eq.trans ((State.trace_evolves _ _ _ _ _).keep .hbm (by decide)) ?_
        refine Eq.trans ((State.ledgerEvent_evolves _ _ _ _ _ _).keep .hbm (by decide)) (hev _)
      · exact ⟨storeSet 0 u.hbm.cond k 16, hev _⟩
    · split
      · exact ⟨u.hbm.cond, rfl⟩
      · exact ⟨storeSet 0 u.hbm.cond k (storeGet 0 u.hbm.cond k - 1), rfl⟩
  unfold State.readTemp
  dsimp only
  split
  · obtain ⟨cond, h⟩ := hcond _ _ _
    exact ⟨_, _, cond, h⟩
  · exact ⟨_, _, _, rfl⟩

theorem State.readTemps_hbm (s : State) (k : Nat) (ts : List Nat) : ∃ hot share cond,
    (s.readTemps k ts).hbm = { s.hbm with hot := hot, share := share, cond := cond } := by
  induction ts generalizing s k with
  | nil => exact ⟨_, _, _, rfl⟩
  | cons t ts ih =>
    obtain ⟨_, _, _, h1⟩ := s.readTemp_hbm k (min t 255)
    rw [State.readTemps]
    generalize s.readTemp k (min t 255) = u at *
    obtain ⟨a, b, c, h2⟩ := ih u (k + 1)
    exact ⟨a, b, c, by rw [h2, h1]⟩

/-! ### The ports -/

/-- Of the tick, only whether the module's reports have stopped may differ. -/
def State.tickStops (s t : State) : Prop := t.tick = { s.tick with stopped := t.tick.stopped }

theorem State.tickStops_refl (s : State) : s.tickStops s := rfl

theorem State.tickStops.trans {s t u : State} (h : s.tickStops t) (g : t.tickStops u) : s.tickStops u := by
  unfold State.tickStops at h g ⊢
  rw [g, h]

theorem State.tickStops_of_tick {s t : State} (h : t.tick = s.tick) : s.tickStops t := by
  unfold State.tickStops
  rw [h]

theorem Evolves.tickStops {P : List Part} {s t : State} (h : Evolves P s t) (htick : .tick ∉ P := by decide) : s.tickStops t :=
  State.tickStops_of_tick (h.keep .tick htick)

theorem State.portFail_tickStops (s : State) (p : Nat) : s.tickStops (s.portFail p) := by
  unfold State.portFail
  split
  · exact s.tickStops_refl
  · have hfail : s.tickStops (((s.setPort p { s.port p with st := portFailed }).event Reg.PYU_EVENT 0).ledgerFatal 4 p) :=
      ((s.setPort_evolves _ _).tickStops.trans (State.event_evolves _ _ _).tickStops).trans
        (State.ledgerFatal_writes _ 4 p).evolves.tickStops
    dsimp only
    split
    · exact hfail.trans rfl
    · exact hfail

theorem State.startReplay_tickStops (s : State) (p : Nat) : s.tickStops (s.startReplay p) := by
  unfold State.startReplay
  dsimp only
  split
  · exact s.tickStops_refl
  · split
    · exact s.portFail_tickStops p
    · refine State.tickStops.trans ?_ (State.trace_evolves _ _ _ _ _).tickStops
      refine State.tickStops.trans ?_ (State.event_evolves _ _ _).tickStops
      exact State.tickStops_of_tick rfl

theorem State.calibratePort_tickStops (s : State) (p : Nat) : s.tickStops (s.calibratePort p) := by
  unfold State.calibratePort State.framePeriod
  split
  · exact s.tickStops_refl
  · split
    · exact (s.sendAgain_evolves p _).tickStops
    · split
      · dsimp only
        split
        · exact (s.startReplay_tickStops p).trans (State.sendAgain_evolves _ p 0).tickStops
        · exact s.startReplay_tickStops p
      · exact (s.calibrate_evolves p).tickStops

theorem State.adaptPort_tickStops (s : State) (p : Nat) : s.tickStops (s.adaptPort p) := by
  unfold State.adaptPort
  split
  · exact (s.setPort_evolves p _).tickStops.trans (State.calibratePort_tickStops _ p)
  · exact s.tickStops_refl

theorem State.eachPort_tickStops (s : State) (l : List Nat) : s.tickStops (s.eachPort State.adaptPort l) := by
  induction l generalizing s with
  | nil => exact s.tickStops_refl
  | cons p l ih => exact (s.adaptPort_tickStops p).trans (ih _)

theorem Port.ne_default {x : Port} (h : x.st = portUp) : x ≠ {} := fun hx => by
  rw [hx] at h
  exact absurd h (by decide : portOff ≠ portUp)

/-- A port that is not in a replay and has room sends its frame at once. -/
theorem State.pushFrame_port (s : State) {p : Nat} (hup : (s.port p).st = portUp) (body : Frame) :
    ((s.pushFrame p body).port p).cursor = (s.port p).cursor ∧
      ((s.pushFrame p body).port p).sent.length = (s.port p).sent.length + 1 ∧
      (∀ q, q ≠ p → (s.pushFrame p body).port q = s.port q) := by
  have hkey (x : Port) (j k j' k' : Nat) (o : Output) (hst : x.st = portUp) (hcur : x.cursor = (s.port p).cursor)
      (hsent : x.sent.length = (s.port p).sent.length + 1) :
      (((((s.setPort p x).bel64 j k).bel64 j' k').send o).port p).cursor = (s.port p).cursor ∧
        (((((s.setPort p x).bel64 j k).bel64 j' k').send o).port p).sent.length = (s.port p).sent.length + 1 ∧
        (∀ q, q ≠ p → ((((s.setPort p x).bel64 j k).bel64 j' k').send o).port q = s.port q) := by
    have hport (q : Nat) : ((((s.setPort p x).bel64 j k).bel64 j' k').send o).port q = (s.setPort p x).port q := rfl
    refine ⟨?_, ?_, fun q hq => ?_⟩
    · rw [hport, s.port_setPort_new p (Port.ne_default hst), hcur]
    · rw [hport, s.port_setPort_new p (Port.ne_default hst), hsent]
    · rw [hport, s.port_setPort_ne p x hq]
  unfold State.pushFrame
  dsimp only
  generalize (if (s.port p).txSeq % 8 = 0 then ((s.port p).beacons.headD 0, (s.port p).beacons.drop 1)
    else ((s.port p).beacon, (s.port p).beacons)) = b
  generalize takeReturn (s.port p).returns = r
  obtain ⟨b, bs⟩ := b
  obtain ⟨⟨q, n⟩, rs⟩ := r
  dsimp only
  exact hkey _ _ _ _ _ _ hup rfl (by simp)

/-- A port with room sends its calibration frame, and nothing stops (R289). -/
theorem State.calibratePort_quiet {s : State} {p : Nat} (hup : (s.port p).st = portUp) (hcur : (s.port p).cursor = none)
    (hroom : (s.port p).sent.length < 64) : (s.calibratePort p).tick = s.tick ∧
      ((s.calibratePort p).port p).cursor = none ∧ ((s.calibratePort p).port p).sent.length = (s.port p).sent.length + 1 ∧
      (∀ q, q ≠ p → (s.calibratePort p).port q = s.port q) := by
  have hcal : s.calibratePort p = s.calibrate p := by
    rw [State.calibratePort, State.framePeriod, if_neg (by simp [hup]), hcur]
    exact if_neg (by omega)
  rw [hcal]
  refine ⟨(s.calibrate_evolves p).keep .tick (by decide), ?_⟩
  unfold State.calibrate
  dsimp only
  have huse : ∀ u : State, u = (if (s.port p).prbs = 0 then s.used else s) → ∀ q, u.port q = s.port q := by
    rintro u rfl q
    split <;> rfl
  generalize hu : (if (s.port p).prbs = 0 then s.used else s) = u
  have huport := huse u hu.symm
  generalize (prbsBytes _ 5120) = r
  have hne : ({ s.port p with prbs := r.2 } : Port) ≠ {} := Port.ne_default hup
  have hset := u.port_setPort_new p hne
  have hother := fun q hq => (u.port_setPort_ne p { s.port p with prbs := r.2 } (p := q) hq).trans (huport q)
  generalize u.setPort p { s.port p with prbs := r.2 } = v at *
  obtain ⟨h1, h2, h3⟩ := v.pushFrame_port (p := p) (by rw [hset]; exact hup)
    { idleFrame with kind := 3, flits := 20, payload := r.1 }
  refine ⟨h1.trans (by rw [hset]; exact hcur), h2.trans (by rw [hset]), fun q hq => (h3 q hq).trans (hother q hq)⟩

theorem State.adaptPort_quiet {s : State} {p : Nat} (hcur : (s.port p).cursor = none) (hroom : (s.port p).sent.length < 64) :
    (s.adaptPort p).tick = s.tick ∧ ((s.adaptPort p).port p).cursor = none ∧
      ((s.adaptPort p).port p).sent.length ≤ (s.port p).sent.length + 1 ∧
      (∀ q, q ≠ p → (s.adaptPort p).port q = s.port q) := by
  unfold State.adaptPort
  split
  · next hup =>
    have hne : ({ s.port p with lane := (s.port p).lane + 1 } : Port) ≠ {} := Port.ne_default hup
    have hset := s.port_setPort_new p hne
    have hother := fun q hq => s.port_setPort_ne p { s.port p with lane := (s.port p).lane + 1 } (p := q) hq
    have htick : (s.setPort p { s.port p with lane := (s.port p).lane + 1 }).tick = s.tick := rfl
    generalize s.setPort p { s.port p with lane := (s.port p).lane + 1 } = v at *
    obtain ⟨h1, h2, h3, h4⟩ := State.calibratePort_quiet (s := v) (p := p) (by rw [hset]; exact hup) (by rw [hset]; exact hcur)
      (by rw [hset]; exact hroom)
    exact ⟨h1.trans htick, h2, by rw [h3, hset], fun q hq => (h4 q hq).trans (hother q hq)⟩
  · exact ⟨rfl, hcur, Nat.le_succ _, fun _ _ => rfl⟩

/-- Ports none of which replays, each with at most a number of frames unacknowledged. -/
def State.quietPorts (s : State) (len : Nat → Nat) : Prop := ∀ p, (s.port p).cursor = none ∧ (s.port p).sent.length ≤ len p

theorem State.eachPort_quiet {s : State} {len : Nat → Nat} (h : s.quietPorts len) {l : List Nat} (hl : l.Nodup)
    (hroom : ∀ p ∈ l, len p < 64) : (s.eachPort State.adaptPort l).tick = s.tick ∧
      (s.eachPort State.adaptPort l).quietPorts fun p => len p + 1 := by
  suffices hgen : (s.eachPort State.adaptPort l).tick = s.tick ∧
      (s.eachPort State.adaptPort l).quietPorts fun p => if p ∈ l then len p + 1 else len p by
    refine ⟨hgen.1, fun p => ⟨(hgen.2 p).1, (hgen.2 p).2.trans ?_⟩⟩
    dsimp only
    split
    · exact le_rfl
    · exact Nat.le_succ _
  induction l generalizing s len with
  | nil => exact ⟨rfl, by simpa [State.eachPort] using h⟩
  | cons p l ih =>
    obtain ⟨hp, hnodup⟩ := List.nodup_cons.mp hl
    obtain ⟨hcur, hlen⟩ := h p
    obtain ⟨h1, h2, h3, h4⟩ := State.adaptPort_quiet hcur (lt_of_le_of_lt hlen (hroom p List.mem_cons_self))
    rw [State.eachPort]
    generalize s.adaptPort p = u at *
    have hu : u.quietPorts fun q => if q = p then len p + 1 else len q := by
      intro q
      by_cases hq : q = p
      · subst hq
        exact ⟨h2, by simp only [if_true]; omega⟩
      · rw [h4 q hq]
        exact ⟨(h q).1, (h q).2.trans (le_of_eq (if_neg hq).symm)⟩
    obtain ⟨g1, g2⟩ := ih hu hnodup fun q hq => by
      have hqp : q ≠ p := fun heq => hp (by rwa [← heq])
      exact lt_of_eq_of_lt (if_neg hqp) (hroom q (List.mem_cons_of_mem _ hq))
    refine ⟨g1.trans h1, fun q => ⟨(g2 q).1, (g2 q).2.trans (le_of_eq ?_)⟩⟩
    dsimp only
    by_cases hq : q = p
    · subst hq
      rw [if_neg hp, if_pos rfl, if_pos List.mem_cons_self]
    · rw [if_neg hq]
      exact if_congr (by simp [hq]) rfl rfl

/-! ### The work of a slot -/

/-- The parts that the maintenance work may change. -/
abbrev Part.maint : List Part := [.regs, .mem, .free, .out, .heldOut, .tick, .hbm, .pyu, .host, .hlt, .bel]

/-- What the work of one slot leaves. -/
structure MaintDone (s t : State) (n : Nat) : Prop where
  reads : ReadsSame s t
  flushed : ∀ c, c < 256 → t.wcb c = []
  calib : t.hbm.calib = (s.hbm.calib + n) % 4
  ticks : s.tickStops t
  quiet : ∀ len, s.quietPorts len → (∀ p, len p + n ≤ 64) → t.tick = s.tick ∧ t.quietPorts fun p => len p + n
  evolves : Evolves Part.maint s t
  forms : t.combineOk

theorem State.maintWork_done {s : State} (hinv : s.inv) (hok : s.combineOk) (temps : List Nat) (bad : List (Fin 256)) :
    MaintDone s (s.maintWork temps bad) 1 := by
  obtain ⟨hreads, hempty, -, hcalib, hinv1, hok1⟩ := State.flushChannels_empties hinv hok (n := 256) le_rfl
  have hlaw1 := s.flushChannels_evolves 256
  have hall := s.maintWork_evolves temps bad
  have hforms := (s.maintWork_forms temps bad).combine hok
  unfold State.maintWork at hall hforms ⊢
  dsimp only at hall hforms ⊢
  generalize s.flushChannels 256 = u at *
  have hlaw2 : Evolves [.hbm] u { u with hbm := { u.hbm with calib := (u.hbm.calib + 1) % 4 } } := Evolves.hbm u _ (P := [.hbm]) rfl
  obtain ⟨v, hv⟩ : ∃ v : State, v = { u with hbm := { u.hbm with calib := (u.hbm.calib + 1) % 4 } } := ⟨_, rfl⟩
  have hvhbm : v.hbm = { u.hbm with calib := (u.hbm.calib + 1) % 4 } := by rw [hv]
  rw [← hv] at hlaw2 hall hforms ⊢
  obtain ⟨-, -, hlaw3⟩ := State.suspectAll_marks 4 bad (s := v) (hlaw2.regs hinv1.2)
  generalize v.suspectAll 4 bad = w at *
  have hlaw4 := w.readTemps_evolves 0 (temps.take 8)
  obtain ⟨hot, share, cond, hhbm⟩ := w.readTemps_hbm 0 (temps.take 8)
  generalize w.readTemps 0 (temps.take 8) = x at *
  have hlaw5 := State.eachPort_evolves x State.adaptPort (List.range 16) State.adaptPort_evolves
  have hstops := x.eachPort_tickStops (List.range 16)
  have hquiet := fun len h => State.eachPort_quiet (s := x) (len := len) h (List.nodup_range (n := 16))
  generalize x.eachPort State.adaptPort (List.range 16) = y at *
  have hlaw6 : Evolves [.bel] y ((y.belBoth 18 1).belBoth 19 1) := (State.belBoth_evolves y 18 1).step (State.belBoth_evolves _ 19 1) rfl
  generalize (y.belBoth 18 1).belBoth 19 1 = t at *
  have hwhbm : w.hbm = { u.hbm with calib := (u.hbm.calib + 1) % 4 } := Eq.trans (hlaw3.evolves.keep .hbm (by decide)) hvhbm
  have hthbm : t.hbm = { u.hbm with calib := (u.hbm.calib + 1) % 4, hot := hot, share := share, cond := cond } := by
    refine Eq.trans (hlaw6.keep .hbm (by decide)) (Eq.trans (hlaw5.keep .hbm (by decide)) ?_)
    rw [hhbm, hwhbm]
  have hmem : t.mem = u.mem := Eq.trans (hlaw6.keep .mem (by decide)) (Eq.trans (hlaw5.keep .mem (by decide))
    (Eq.trans (hlaw4.keep .mem (by decide)) (Eq.trans (hlaw3.evolves.keep .mem (by decide)) (hlaw2.keep .mem (by decide)))))
  have hxtick : x.tick = s.tick := Eq.trans (hlaw4.keep .tick (by decide)) (Eq.trans (hlaw3.evolves.keep .tick (by decide))
    (Eq.trans (hlaw2.keep .tick (by decide)) (hlaw1.keep .tick (by decide))))
  have hxpyu : x.pyu = s.pyu := Eq.trans (hlaw4.keep .pyu (by decide)) (Eq.trans (hlaw3.evolves.keep .pyu (by decide))
    (Eq.trans (hlaw2.keep .pyu (by decide)) (hlaw1.keep .pyu (by decide))))
  have htpyu : t.pyu = y.pyu := hlaw6.keep .pyu (by decide)
  have httick : t.tick = y.tick := hlaw6.keep .tick (by decide)
  refine ⟨hreads.trans (State.readsSame_of_parts hmem (by rw [hthbm]) (by rw [hthbm])), fun c hc => ?_, by rw [hthbm, hcalib],
    ((State.tickStops_of_tick hxtick).trans hstops).trans (State.tickStops_of_tick httick), fun len hlen hroom => ?_, hall, hforms⟩
  · have hwcb := hempty c hc
    rw [State.wcb] at hwcb
    rw [State.wcb, hthbm]
    exact hwcb
  · have hxlen : x.quietPorts len := fun p => by
      have := hlen p
      rwa [State.port, hxpyu]
    obtain ⟨h1, h2⟩ := hquiet len hxlen fun p _ => by have := hroom p; omega
    refine ⟨httick.trans (h1.trans hxtick), fun p => ?_⟩
    have := h2 p
    rwa [State.port, htpyu]

/-- The work of a slot and of those whose work was left to it (R61). -/
theorem State.maintMoved_done {s t : State} {n : Nat} (hinv : s.inv) (h : MaintDone s t n) (temps : List Nat) (m : Nat) :
    MaintDone s (t.maintMoved temps m) (n + m) := by
  induction m with
  | zero => exact h
  | succ m ih =>
    rw [State.maintMoved]
    generalize t.maintMoved temps m = u at *
    have hnext := State.maintWork_done (ih.evolves.inv hinv) ih.forms temps []
    refine ⟨ih.reads.trans hnext.reads, hnext.flushed, by rw [hnext.calib, ih.calib]; omega, ih.ticks.trans hnext.ticks,
      fun len hlen hroom => ?_, ih.evolves.step hnext.evolves rfl, hnext.forms⟩
    obtain ⟨h1, h2⟩ := ih.quiet len hlen fun p => by have := hroom p; omega
    obtain ⟨g1, g2⟩ := hnext.quiet _ h2 fun p => by have := hroom p; omega
    exact ⟨g1.trans h1, g2⟩

/-! ### The slot -/

/-- The slot has begun: the routers have the table of the next stitch. -/
def State.maintBegun (s : State) : State := { s with tick := { s.tick with inMaint := true }, trl := { s.trl with table := s.nextTable } }

theorem exec_maintenanceSlot {s : State} (hticking : s.tick.ticking = true) (hmaint : s.tick.inMaint = false)
    (temps : List Nat) (bad : List (Fin 256)) : exec (.maintenanceSlot temps bad) s = .next (if s.tick.overrun then s.maintBegun else
      { ((s.maintBegun.maintWork temps bad).maintMoved temps s.tick.maintDue) with
        tick := { ((s.maintBegun.maintWork temps bad).maintMoved temps s.tick.maintDue).tick with maintDue := 0 } }) := by
  show execMaintenanceSlot temps bad s = _
  refine congrArg Host.Outcome.next ((if_pos ?_).trans rfl)
  rw [hticking, hmaint]
  rfl

theorem State.maintBegun_evolves (s : State) : Evolves [.tick, .trl] s s.maintBegun := by
  have h1 := (s.evolves_tick { s.tick with inMaint := true }).widen (Q := [.tick, .trl]) rfl
  exact h1.step (Evolves.trl { s with tick := { s.tick with inMaint := true } } { s.trl with table := s.nextTable } (P := [.trl]) rfl) rfl

/-- Settles O16: the work of one slot, once more for each slot whose work was left to it. -/
theorem maintenanceSlotWorks : Obligations.MaintenanceSlotWorks := by
  intro s temps bad hinv hok hticking hmaint
  rw [exec_maintenanceSlot hticking hmaint temps bad]
  refine ⟨fun hover => congrArg Host.Outcome.next (if_pos hover), fun hover => ?_⟩
  rw [if_neg (by simp [hover])]
  have hbegun := s.maintBegun_evolves
  have htick : s.maintBegun.tick = { s.tick with inMaint := true } := rfl
  have htrl : s.maintBegun.trl = { s.trl with table := s.nextTable } := rfl
  have hhbm : s.maintBegun.hbm = s.hbm := rfl
  have hport (p : Nat) : s.maintBegun.port p = s.port p := rfl
  generalize s.maintBegun = u at *
  have hok' : u.combineOk := by
    unfold State.combineOk
    rw [hhbm]
    exact hok
  have hdone := State.maintMoved_done (hbegun.inv hinv) (State.maintWork_done (hbegun.inv hinv) hok' temps bad) temps s.tick.maintDue
  generalize (u.maintWork temps bad).maintMoved temps s.tick.maintDue = v at *
  have hlast := v.evolves_tick { v.tick with maintDue := 0 }
  have hall : Evolves (.trl :: Part.maint) s { v with tick := { v.tick with maintDue := 0 } } :=
    ((hbegun.widen rfl).step hdone.evolves rfl).step hlast rfl
  have hreads : ReadsSame s u := State.readsSame_of_parts (hbegun.keep .mem (by decide)) (by rw [hhbm]) (by rw [hhbm])
  have hstops := hdone.ticks
  unfold State.tickStops at hstops
  refine ⟨_, rfl, ?_, fun hroom hcur => ?_, Eq.trans (hdone.evolves.keep .trl (by decide)) htrl, ?_, hdone.flushed,
    (hreads.trans hdone.reads).sameBytes, hdone.reads.inService.trans hreads.inService, hall.keep .image (by decide),
    hall.keep .adm (by decide), hall.keep .upd (by decide)⟩
  · show { v.tick with maintDue := 0 } = _
    rw [hstops, htick]
  · obtain ⟨h1, -⟩ := hdone.quiet (fun p => (s.port p).sent.length) (fun p => ⟨by rw [hport]; exact hcur p, by rw [hport]⟩)
      fun p => by have := hroom p; omega
    show v.tick.stopped = _
    rw [h1, htick]
  · show v.hbm.calib = _
    rw [hdone.calib, hhbm]
    omega

end Sys2Proof.Machine

/-! O24: the Trellis' dynamic arbiter and the seam links (R202 to R204, R211). -/

namespace Sys2Proof.Machine

set_option Elab.async false

/-! ### The requester granted -/

theorem dynIndex_lt (c : DynClass) : dynIndex c < 6 := by cases c <;> decide

theorem dynIndex_inj {c d : DynClass} (h : dynIndex c = dynIndex d) : c = d := by
  have hplace (c : DynClass) : dynOrder.getD (dynIndex c) .cloister = c := by cases c <;> rfl
  rw [← hplace c, h, hplace]

theorem reqKey_inj {p q : TrlReq} (h : reqKey p = reqKey q) : p = q := by
  have hp := dynIndex_lt p.cls
  have hq := dynIndex_lt q.cls
  unfold reqKey at h
  have hport : p.port = q.port := Fin.ext (by omega)
  have hcls : p.cls = q.cls := dynIndex_inj (by omega)
  cases p
  cases q
  simp_all

theorem nextPort_mem {a : Arbiter} {es : List TrlReq} {k : Nat} {q : TrlReq} (h : nextPort a es k = some q) : q ∈ es := by
  obtain ⟨p, -, hp⟩ := List.exists_of_findSome?_eq_some h
  exact List.mem_of_find?_eq_some hp

/-- A class with an eligible requester has a next one. -/
theorem nextPort_isSome {a : Arbiter} {es : List TrlReq} {q : TrlReq} (hq : q ∈ es) :
    (nextPort a es (dynIndex q.cls)).isSome = true := by
  unfold nextPort
  rw [List.findSome?_isSome_iff]
  refine ⟨q.port.val, List.mem_map.mpr ⟨(q.port.val + 8 - storeGet 0 a.ports (dynIndex q.cls) % 8) % 8, ?_, ?_⟩, ?_⟩
  · exact List.mem_range.mpr (Nat.mod_lt _ (by decide))
  · have := q.port.isLt
    omega
  · exact List.find?_isSome.mpr ⟨q, hq, by simp⟩

theorem mem_visits (a : Arbiter) (w : Nat) {k : Nat} (hk : k < 6) : k ∈ visits a w := by
  unfold visits
  refine List.mem_append_right _ (List.mem_map.mpr ⟨(k + 11 - a.cls % 6) % 6, List.mem_range.mpr (Nat.mod_lt _ (by decide)), ?_⟩)
  omega

/-- R202: one of the eligible requesters is granted, the one promoted first if any is promoted. -/
theorem pick_grants (a : Arbiter) {es : List TrlReq} (hes : es ≠ []) (w : Nat) : ∃ q ∈ es, pick a es w = some q ∧
    ∀ p, a.promoted.find? (fun p => es.contains p) = some p → q = p := by
  unfold pick
  cases hfind : a.promoted.find? fun p => es.contains p with
  | some q =>
    have hq := List.find?_some hfind
    exact ⟨q, List.contains_iff_mem.mp hq, rfl, fun p hp => Option.some.inj hp⟩
  | none =>
    obtain ⟨q0, hq0⟩ := List.exists_mem_of_ne_nil es hes
    have hsome : ((visits a w).findSome? (nextPort a es)).isSome = true :=
      List.findSome?_isSome_iff.mpr ⟨dynIndex q0.cls, mem_visits a w (dynIndex_lt _), nextPort_isSome hq0⟩
    obtain ⟨q, hq⟩ := Option.isSome_iff_exists.mp hsome
    obtain ⟨k, -, hk⟩ := List.exists_of_findSome?_eq_some hq
    exact ⟨q, nextPort_mem hk, hq, fun p hp => nomatch hp⟩

theorem pick_nil (a : Arbiter) (w : Nat) : pick a [] w = none := by
  unfold pick
  have hfind : a.promoted.find? (fun q => ([] : List TrlReq).contains q) = none := by simp
  rw [hfind]
  have hnone : ∀ k, nextPort a [] k = none := fun k => by simp [nextPort]
  simp [hnone]

/-! ### What a grant counts -/

/-- Each requester passed over is counted once. -/
theorem passed_counts (others : List TrlReq) (hn : others.Nodup) (m : Counts) (p : TrlReq) :
    storeGet 0 (others.foldl (fun m q => storeSet 0 m (reqKey q) (storeGet 0 m (reqKey q) + 1)) m) (reqKey p) =
      if p ∈ others then storeGet 0 m (reqKey p) + 1 else storeGet 0 m (reqKey p) := by
  induction others generalizing m with
  | nil => simp
  | cons q others ih =>
    obtain ⟨hq, hn⟩ := List.nodup_cons.mp hn
    rw [List.foldl_cons, ih hn]
    by_cases hp : p = q
    · subst hp
      rw [if_neg hq, if_pos List.mem_cons_self]
      exact storeGet_storeSet_new 0 m _ _ (Nat.succ_ne_zero _)
    · have hkey : reqKey p ≠ reqKey q := fun h => hp (reqKey_inj h)
      rw [storeGet_storeSet_ne 0 m _ _ _ hkey]
      exact if_congr (by simp [hp]) rfl rfl

theorem mem_promoted_passOver (a : Arbiter) (others : List TrlReq) (p : TrlReq) : p ∈ (passOver a others).1.promoted ↔
    p ∈ a.promoted ∨ (p ∈ others ∧ 64 ≤ storeGet 0 (passOver a others).1.passed (reqKey p) ∧ p ∉ a.promoted) := by
  unfold passOver
  simp only [List.mem_append, List.mem_insertionSort, List.mem_filter, Bool.and_eq_true, decide_eq_true_eq, Bool.not_eq_true',
    List.contains_eq_mem, decide_eq_false_iff_not]

/-- R202, R204: the grant clears its count and takes its promotion, and counts against the others. -/
theorem granted_counts {a : Arbiter} (ha : storeWf 0 a.passed = true) (q : TrlReq) {es : List TrlReq} (hes : es.Nodup) (w : Nat) :
    storeGet 0 (granted a q es w).1.passed (reqKey q) = 0 ∧ (q ∈ a.promoted → q ∉ (granted a q es w).1.promoted) ∧
      (∀ p ∈ es, p ≠ q → storeGet 0 (granted a q es w).1.passed (reqKey p) = storeGet 0 a.passed (reqKey p) + 1 ∧
        (64 ≤ storeGet 0 (granted a q es w).1.passed (reqKey p) → p ∈ (granted a q es w).1.promoted)) := by
  unfold granted
  dsimp only
  generalize hb : (if a.promoted.contains q then { a with promoted := a.promoted.filter fun p => p ≠ q } else advance a q w) = b
  have hpassed : b.passed = a.passed := by
    rw [← hb]
    split <;> rfl
  have hprom : q ∉ b.promoted ∨ q ∉ a.promoted := by
    by_cases hq : q ∈ a.promoted
    · left
      rw [← hb, if_pos (List.contains_iff_mem.mpr hq)]
      simp
    · exact .inr hq
  have hothers : (es.filter fun p => p ≠ q).Nodup := hes.filter _
  have hcount := fun p => passed_counts (es.filter fun p => p ≠ q) hothers (storeSet 0 b.passed (reqKey q) 0) p
  rw [hpassed] at hcount ⊢
  have hpass (p : TrlReq) : storeGet 0 (passOver { b with passed := storeSet 0 a.passed (reqKey q) 0 }
      (es.filter fun p => p ≠ q)).1.passed (reqKey p) = if p ∈ es.filter (fun p => p ≠ q) then
        storeGet 0 (storeSet 0 a.passed (reqKey q) 0) (reqKey p) + 1 else storeGet 0 (storeSet 0 a.passed (reqKey q) 0) (reqKey p) :=
    hcount p
  refine ⟨?_, fun hq hin => ?_, fun p hp hne => ?_⟩
  · rw [hpass, if_neg (by simp)]
    exact storeGet_storeSet_same 0 _ _ _ ha
  · rcases (mem_promoted_passOver _ _ _).mp hin with h | ⟨h, -⟩
    · exact hprom.elim (fun hn => hn h) (fun hn => hn hq)
    · simp at h
  · have hother : p ∈ es.filter fun p => p ≠ q := List.mem_filter.mpr ⟨hp, by simpa using hne⟩
    refine ⟨?_, fun h64 => (mem_promoted_passOver _ _ _).mpr ?_⟩
    · rw [hpass, if_pos hother, storeGet_storeSet_ne 0 _ _ _ _ fun h => hne (reqKey_inj h)]
    · by_cases hin : p ∈ b.promoted
      · exact .inl hin
      · exact .inr ⟨hother, h64, hin⟩

/-! ### The counters -/

theorem State.regN_maxReg {s : State} (hwf : storeWf 0 s.regs = true) (o : Nat) {v : Nat} (hv : v < 2 ^ 64) :
    (s.maxReg o v).regN o = max (s.regN o) v := by
  refine s.regN_setRegN o _ hwf ?_
  have := (s.reg o).isLt
  exact max_lt this hv

/-- The registers that a grant counts in. -/
def Reg.grant (o : Nat) : List Nat := [Reg.TRL_DYN_GRANTS, Reg.TRL_SLOT_REUSE, Reg.TRL_PROMOTIONS, Reg.TRL_WAIT_MAX].map
  fun r => bankKey r o

theorem bankKey_ne_bank {a b : Nat} (h : a ≠ b) (o : Nat) : bankKey a o ≠ bankKey b o := fun heq => h (Nat.add_right_cancel heq)

/-- R212: a grant and the wait before it are counted. -/
theorem State.countGrant_counts {s : State} (hwf : storeWf 0 s.regs = true) (router port : Nat) (reuse : Bool) (wait n : Nat) :
    (s.countGrant router port reuse wait n).regN (bankKey Reg.TRL_DYN_GRANTS (router * 8 + port)) =
      min (s.regN (bankKey Reg.TRL_DYN_GRANTS (router * 8 + port)) + 1) (2 ^ 64 - 1) ∧
    (s.countGrant router port reuse wait n).regN (bankKey Reg.TRL_WAIT_MAX (router * 8 + port)) =
      max (s.regN (bankKey Reg.TRL_WAIT_MAX (router * 8 + port))) (min wait 65535) ∧
    Writes [.regs, .bel] (Reg.grant (router * 8 + port)) s (s.countGrant router port reuse wait n) := by
  unfold State.countGrant
  generalize router * 8 + port = o
  dsimp only
  have h1 := s.count_writes (bankKey Reg.TRL_DYN_GRANTS o) 64 1
  have hgrant := s.regN_count (bankKey Reg.TRL_DYN_GRANTS o) 64 1 hwf (by decide)
  generalize s.count (bankKey Reg.TRL_DYN_GRANTS o) 64 1 = a at *
  have h2 := a.count_writes (bankKey Reg.TRL_SLOT_REUSE o) 64 reuse.toNat
  generalize a.count (bankKey Reg.TRL_SLOT_REUSE o) 64 reuse.toNat = b at *
  have h3 := b.count_writes (bankKey Reg.TRL_PROMOTIONS o) 64 n
  generalize b.count (bankKey Reg.TRL_PROMOTIONS o) 64 n = c at *
  have hcwf := h3.wf (h2.wf (h1.wf hwf))
  have h4 := c.maxReg_writes (bankKey Reg.TRL_WAIT_MAX o) (min wait 65535)
  have hmax := State.regN_maxReg hcwf (bankKey Reg.TRL_WAIT_MAX o) (v := min wait 65535) (by omega)
  generalize c.maxReg (bankKey Reg.TRL_WAIT_MAX o) (min wait 65535) = d at *
  have h5 : Writes [.bel] [] d (((d.bel64 (clusterCnt router (17 + port)) 1).bel64 (clusterCnt router (33 + port)) reuse.toNat).bel64
      (clusterCnt router (41 + port)) n) :=
    ((State.bel64_evolves d _ _).step (State.bel64_evolves _ _ _) rfl |>.step (State.bel64_evolves _ _ _) rfl).writes
  have hne {x y : Nat} (h : x ≠ y) : bankKey x o ∉ [bankKey y o] := by simpa using bankKey_ne_bank h o
  refine ⟨?_, ?_, ?_⟩
  · exact (h5.regN List.not_mem_nil).trans ((h4.regN (hne (by decide))).trans ((h3.regN (hne (by decide))).trans
      ((h2.regN (hne (by decide))).trans hgrant)))
  · refine (h5.regN List.not_mem_nil).trans (hmax.trans ?_)
    rw [h3.regN (hne (by decide)), h2.regN (hne (by decide)), h1.regN (hne (by decide))]
  · exact ((((h1.widen (Q := [.regs, .bel]) (M := Reg.grant o) rfl (by simp [Reg.grant])).step h2 rfl (by simp [Reg.grant])).step
      h3 rfl (by simp [Reg.grant])).step h4 rfl (by simp [Reg.grant])).step h5 rfl (by simp)

/-! ### The commands -/

/-- The arbiter of an output after a grant. -/
def State.setArbiter (s : State) (o : Nat) (a : Arbiter) : State := { s with trl := { s.trl with arbs := storeSet {} s.trl.arbs o a } }

theorem State.setArbiter_evolves (s : State) (o : Nat) (a : Arbiter) : Evolves [.trl] s (s.setArbiter o a) :=
  Evolves.trl s _ (P := [.trl]) rfl

theorem State.arbiter_passed {s : State} (h : s.enginesOk) (o : Nat) : storeWf 0 (s.arbiter o).passed = true := by
  obtain ⟨-, -, -, -, -, -, -, -, -, -, hpassed⟩ := h
  rcases storeGet_mem {} s.trl.arbs o with h0 | hmem
  · rw [State.arbiter, h0]
    rfl
  · exact hpassed _ hmem

theorem exec_dynamicArbitration_none {router : Fin 16} {port : Fin 8} {eligible : List TrlReq} {s : State}
    (h : (eligible.filter fun q => !(s.tick.inMaint && heldClass q.cls)) = []) (reuse : Bool) (wait : Nat) :
    exec (.dynamicArbitration router port eligible reuse wait) s = .next s := by
  show execDynamicArbitration router port eligible reuse wait s = _
  rw [execDynamicArbitration]
  dsimp only
  rw [h, pick_nil]

theorem exec_dynamicArbitration {router : Fin 16} {port : Fin 8} {eligible : List TrlReq} {s : State} {q : TrlReq} {a : Arbiter}
    {es : List TrlReq} (ha : s.arbiter (router.val * 8 + port.val) = a)
    (hes : (eligible.filter fun q => !(s.tick.inMaint && heldClass q.cls)) = es)
    (h : pick a es (s.weight a.cls) = some q) (reuse : Bool) (wait : Nat) :
    exec (.dynamicArbitration router port eligible reuse wait) s = .next (if waitBound router port < wait then
      ((((s.setArbiter (router.val * 8 + port.val) (granted a q es (s.weight a.cls)).1).countGrant router port reuse wait
        (granted a q es (s.weight a.cls)).2).event Reg.TRL_EVENT 0).ledgerFatal 6 router)
      else (s.setArbiter (router.val * 8 + port.val) (granted a q es (s.weight a.cls)).1).countGrant router port reuse wait
        (granted a q es (s.weight a.cls)).2) := by
  show execDynamicArbitration router port eligible reuse wait s = _
  rw [execDynamicArbitration]
  dsimp only
  rw [hes, ha, h]
  rfl

/-- R211: a flit that failed its CRC. -/
def State.seamFails (s : State) (k n : Nat) : State := { s with trl := { s.trl with fails := storeSet 0 s.trl.fails k n } }

theorem exec_seamCrcFail (die link : Fin 2) (again : Bool) (s : State) :
    exec (.seamCrcFail die link again) s =
      let n := if again then storeGet 0 s.trl.fails (die.val * 2 + link.val) + 1 else 1
      .next (if 16 ≤ n then (((s.seamFails (die.val * 2 + link.val) n).event Reg.TRL_EVENT 2).ledgerFatal 1 link).stopReports
        else ((((s.seamFails (die.val * 2 + link.val) n).count Reg.TRL_SEAM_REPLAY 32 1).event Reg.TRL_EVENT 1).live (0x7E0 + 4 * link)
          1).bel64 (dieCnt die 15) 1) := rfl

theorem seamCrcFail_fatal {s : State} (hwf : storeWf 0 s.regs = true) (k n link : Nat) (hn : n ≠ 0) : ∃ t,
    (((s.seamFails k n).event Reg.TRL_EVENT 2).ledgerFatal 1 link).stopReports = t ∧ storeGet 0 t.trl.fails k = n ∧
      t.bit Reg.TRL_EVENT 2 = true ∧ t.tick = { s.tick with stopped := true } ∧
      s.keeps t ([.tick, .trl, .hlt, .bel] ++ Part.signalled) ∧ s.sameBytes t := by
  have h1 : Evolves [.trl] s (s.seamFails k n) := Evolves.trl s _ (P := [.trl]) rfl
  have hfails : storeGet 0 (s.seamFails k n).trl.fails k = n := storeGet_storeSet_new 0 _ k n hn
  generalize s.seamFails k n = u at *
  have h2 := u.event_writes Reg.TRL_EVENT 2
  have hbit := u.bit_event Reg.TRL_EVENT 2 (h1.regs hwf) (by decide)
  generalize u.event Reg.TRL_EVENT 2 = v at *
  have h3 := v.ledgerFatal_writes 1 link
  generalize v.ledgerFatal 1 link = w at *
  have h4 := w.stopReports_evolves
  have hall : Evolves ([.tick, .trl, .hlt, .bel] ++ Part.signalled) s w.stopReports :=
    (((h1.widen rfl).step h2.evolves rfl).step h3.evolves rfl).step h4 rfl
  have htrl : w.stopReports.trl = u.trl := Eq.trans (h4.keep .trl (by decide)) (Eq.trans (h3.evolves.keep .trl (by decide))
    (h2.evolves.keep .trl (by decide)))
  have htick : w.tick = s.tick := Eq.trans (h3.evolves.keep .tick (by decide)) (Eq.trans (h2.evolves.keep .tick (by decide))
    (h1.keep .tick (by decide)))
  refine ⟨_, rfl, by rw [htrl, hfails], (h4.writes.bit List.not_mem_nil 2).trans ((h3.bit (by decide) 2).trans hbit), ?_, hall.keep,
    hall.sameBytes⟩
  show { w.tick with stopped := true } = _
  rw [htick]

theorem seamCrcFail_replays {s : State} (hwf : storeWf 0 s.regs = true) (k n off cnt : Nat) (hn : n ≠ 0) : ∃ t,
    ((((s.seamFails k n).count Reg.TRL_SEAM_REPLAY 32 1).event Reg.TRL_EVENT 1).live off 1).bel64 cnt 1 = t ∧
      storeGet 0 t.trl.fails k = n ∧ t.regN Reg.TRL_SEAM_REPLAY = min (s.regN Reg.TRL_SEAM_REPLAY + 1) (2 ^ 32 - 1) ∧
      t.bit Reg.TRL_EVENT 1 = true ∧ t.tick = s.tick ∧ s.keeps t ([.tick, .trl, .hlt, .bel] ++ Part.signalled) ∧ s.sameBytes t := by
  have h1 : Evolves [.trl] s (s.seamFails k n) := Evolves.trl s _ (P := [.trl]) rfl
  have hfails : storeGet 0 (s.seamFails k n).trl.fails k = n := storeGet_storeSet_new 0 _ k n hn
  have hbase : (s.seamFails k n).regN Reg.TRL_SEAM_REPLAY = s.regN Reg.TRL_SEAM_REPLAY := rfl
  generalize s.seamFails k n = u at *
  have h2 := u.count_writes Reg.TRL_SEAM_REPLAY 32 1
  have hcount := u.regN_count Reg.TRL_SEAM_REPLAY 32 1 (h1.regs hwf) (by decide)
  generalize u.count Reg.TRL_SEAM_REPLAY 32 1 = v at *
  have h3 := v.event_writes Reg.TRL_EVENT 1
  have hbit := v.bit_event Reg.TRL_EVENT 1 (h2.wf (h1.regs hwf)) (by decide)
  generalize v.event Reg.TRL_EVENT 1 = w at *
  have h4 : Evolves [.hlt, .bel] w ((w.live off 1).bel64 cnt 1) := ((w.live_evolves off 1).widen rfl).step (State.bel64_evolves _ _ _) rfl
  generalize (w.live off 1).bel64 cnt 1 = t at *
  have hall : Evolves ([.tick, .trl, .hlt, .bel] ++ Part.signalled) s t :=
    (((h1.widen rfl).step h2.evolves rfl).step h3.evolves rfl).step h4 rfl
  have htrl : t.trl = u.trl := Eq.trans (h4.keep .trl (by decide)) (Eq.trans (h3.evolves.keep .trl (by decide))
    (h2.evolves.keep .trl (by decide)))
  have htick : t.tick = s.tick := Eq.trans (h4.keep .tick (by decide)) (Eq.trans (h3.evolves.keep .tick (by decide))
    (Eq.trans (h2.evolves.keep .tick (by decide)) (h1.keep .tick (by decide))))
  refine ⟨t, rfl, by rw [htrl, hfails], ?_, (h4.writes.bit List.not_mem_nil 1).trans hbit, htick, hall.keep, hall.sameBytes⟩
  exact (h4.writes.regN List.not_mem_nil).trans ((h3.regN (by decide)).trans (hcount.trans (by rw [hbase])))

/-- R202 to R204, R212: a grant, counted, and with a wait beyond the bound recorded. -/
theorem dynamicArbitration_grants {s : State} (hinv : s.inv) (hok : s.enginesOk) (router : Fin 16) (port : Fin 8) (reuse : Bool)
    (wait n : Nat) (a' : Arbiter) : ∃ t, (if waitBound router port < wait then
      (((s.setArbiter (router.val * 8 + port.val) a').countGrant router port reuse wait n).event Reg.TRL_EVENT 0).ledgerFatal 6 router
      else (s.setArbiter (router.val * 8 + port.val) a').countGrant router port reuse wait n) = t ∧
      t.arbiter (router.val * 8 + port.val) = a' ∧ (∀ k, k ≠ router.val * 8 + port.val → t.arbiter k = s.arbiter k) ∧
      t.regN (bankKey Reg.TRL_DYN_GRANTS (router.val * 8 + port.val)) =
        min (s.regN (bankKey Reg.TRL_DYN_GRANTS (router.val * 8 + port.val)) + 1) (2 ^ 64 - 1) ∧
      t.regN (bankKey Reg.TRL_WAIT_MAX (router.val * 8 + port.val)) =
        max (s.regN (bankKey Reg.TRL_WAIT_MAX (router.val * 8 + port.val))) (min wait 65535) ∧
      (waitBound router port < wait → t.bit Reg.TRL_EVENT 0 = true) ∧
      (wait ≤ waitBound router port → t.hlt = s.hlt ∧ t.out = s.out) ∧
      s.keeps t ([.trl, .hlt, .bel] ++ Part.signalled) ∧ s.sameBytes t := by
  obtain ⟨-, -, -, -, -, -, -, -, -, harbs, -⟩ := hok
  generalize ho : router.val * 8 + port.val = o
  have h1 := s.setArbiter_evolves o a'
  have hself : (s.setArbiter o a').arbiter o = a' := storeGet_storeSet_same _ _ _ _ harbs
  have hother : ∀ k, k ≠ o → (s.setArbiter o a').arbiter k = s.arbiter k := fun k hk => storeGet_storeSet_ne _ _ _ _ _ hk
  have hbase (r : Nat) : (s.setArbiter o a').regN r = s.regN r := rfl
  generalize s.setArbiter o a' = u at *
  obtain ⟨hgrants, hmax, h2⟩ := State.countGrant_counts (h1.regs hinv.2) router.val port.val reuse wait n
  rw [ho, hbase] at hgrants hmax
  rw [ho] at h2
  generalize u.countGrant router port reuse wait n = v at *
  have hvarb : v.trl = u.trl := h2.evolves.keep .trl (by decide)
  have harbiter {t : State} (h : t.trl = v.trl) (k : Nat) : t.arbiter k = u.arbiter k := by
    rw [State.arbiter, h, hvarb, State.arbiter]
  by_cases hw : waitBound router port < wait
  · rw [if_pos hw]
    have h3 := v.event_writes Reg.TRL_EVENT 0
    have hbit := v.bit_event Reg.TRL_EVENT 0 (h2.wf (h1.regs hinv.2)) (by decide)
    generalize v.event Reg.TRL_EVENT 0 = w at *
    have h4 := w.ledgerFatal_writes 6 router
    generalize w.ledgerFatal 6 router = t at *
    have hall : Evolves ([.trl, .hlt, .bel] ++ Part.signalled) s t :=
      (((h1.widen rfl).step h2.evolves rfl).step h3.evolves rfl).step h4.evolves rfl
    have htrl : t.trl = v.trl := Eq.trans (h4.evolves.keep .trl (by decide)) (h3.evolves.keep .trl (by decide))
    have hreg {r : Nat} (hr : r < 0x1000000) (h : r ∉ Reg.TRL_EVENT :: Reg.ledger) : t.regN (bankKey r o) = v.regN (bankKey r o) :=
      (h4.regN (bankKey_notMem (by omega) (fun hm => h (List.mem_cons_of_mem _ hm)) (by decide) o)).trans
        (h3.regN (bankKey_notMem (by omega) (fun hm => h (by rw [List.mem_singleton.mp hm]; exact List.mem_cons_self)) (by decide) o))
    refine ⟨t, rfl, (harbiter htrl o).trans hself, fun k hk => (harbiter htrl k).trans (hother k hk),
      (hreg (by decide) (by decide)).trans hgrants, (hreg (by decide) (by decide)).trans hmax,
      fun _ => (h4.bit (by decide) 0).trans hbit, fun h => absurd hw (by omega), hall.keep, hall.sameBytes⟩
  · rw [if_neg hw]
    have hall : Evolves [.trl, .regs, .bel] s v := (h1.widen rfl).step h2.evolves rfl
    have hlong : Evolves ([.trl, .hlt, .bel] ++ Part.signalled) s v := hall.widen rfl
    exact ⟨v, rfl, (harbiter rfl o).trans hself, fun k hk => (harbiter rfl k).trans (hother k hk), hgrants, hmax, fun h => absurd h hw,
      fun _ => ⟨hall.keep .hlt (by decide), hall.keep .out (by decide)⟩, hlong.keep, hlong.sameBytes⟩

/-- Settles O24: the requester that is picked, what the grant counts, and the seam's failures. -/
theorem trellisArbitrates : Obligations.TrellisArbitrates := by
  refine ⟨fun router port eligible reuse wait s hinv hok hnodup => ?_, fun die link again s hinv => ?_⟩
  · intro o es
    refine ⟨fun h => exec_dynamicArbitration_none h reuse wait, fun h => ?_⟩
    obtain ⟨q, hq, hpick, hfirst⟩ := pick_grants (s.arbiter o) h (s.weight (s.arbiter o).cls)
    obtain ⟨h1, h2, h3⟩ := granted_counts (State.arbiter_passed hok o) q (es := es) (hnodup.filter _) (s.weight (s.arbiter o).cls)
    obtain ⟨t, ht, harb, hrest⟩ := dynamicArbitration_grants hinv hok router port reuse wait
      (granted (s.arbiter o) q es (s.weight (s.arbiter o).cls)).2 (granted (s.arbiter o) q es (s.weight (s.arbiter o).cls)).1
    refine ⟨q, hq, t, (exec_dynamicArbitration rfl rfl hpick reuse wait).trans (congrArg _ ht), hfirst, ?_⟩
    rw [harb]
    exact ⟨h1, h2, h3, hrest⟩
  · intro n
    have hn : n ≠ 0 := by
      dsimp only [n]
      split <;> omega
    rw [exec_seamCrcFail]
    by_cases h16 : 16 ≤ n
    · obtain ⟨t, ht, hfails, hbit, htick, hkeep, hsame⟩ := seamCrcFail_fatal hinv.2 (die.val * 2 + link.val) n link hn
      exact ⟨t, congrArg Host.Outcome.next ((if_pos h16).trans ht), hfails, fun h => absurd h16 (by omega), fun _ => ⟨hbit, htick⟩,
        hkeep, hsame⟩
    · obtain ⟨t, ht, hfails, hcount, hbit, htick, hkeep, hsame⟩ :=
        seamCrcFail_replays hinv.2 (die.val * 2 + link.val) n (0x7E0 + 4 * link) (dieCnt die 15) hn
      exact ⟨t, congrArg Host.Outcome.next ((if_neg h16).trans ht), hfails, fun _ => ⟨hcount, hbit, htick⟩, fun h => absurd h h16,
        hkeep, hsame⟩

end Sys2Proof.Machine

/-! O36: beacon reports combine up the tree and come down (R286, R287). -/

namespace Sys2Proof.Machine

set_option Elab.async false

theorem State.sendBeaconUp_out (s : State) (parent : Nat) (b : Beacon) :
    (s.sendBeaconUp parent b).out = s.out ++ [.beaconUp parent b] := by
  have hq : (s.sendBeaconUp parent b).out = (s.send (.beaconUp parent b)).out :=
    (State.queueBeacon_evolves _ _ _ _).keep .out (by decide)
  rw [hq]
  rfl

theorem State.sendBeaconDown_out (s : State) (b : Beacon) (cs : List Nat) :
    (s.sendBeaconDown b cs).out = s.out ++ cs.map fun c => .beaconDown c b := by
  induction cs generalizing s with
  | nil => exact (List.append_nil _).symm
  | cons c cs ih =>
    have hq : ((s.send (.beaconDown c b)).queueBeacon c (beaconBits b) 18).out = (s.send (.beaconDown c b)).out :=
      (State.queueBeacon_evolves _ _ _ _).keep .out (by decide)
    rw [State.sendBeaconDown, ih, hq, List.map_cons]
    exact List.append_assoc ..

/-- A report held shows, goes to each child, and counts its delay (R287). -/
theorem State.holdReport_shows {s : State} (hwf : storeWf 0 s.regs = true) {x : Topo} (hx : s.topo? = some x) (b : Beacon) (delay : Nat) :
    (s.holdReport b delay).out = s.out ++ x.beaconChildren.map (fun c => .beaconDown c b) ∧
      (s.holdReport b delay).regN Reg.PYU_BEACON_MAX = max (s.regN Reg.PYU_BEACON_MAX) (min delay (2 ^ 32 - 1)) ∧
      Writes [.regs, .tick, .out, .pyu, .bel] [Reg.PYU_BEACON_MAX] s (s.holdReport b delay) := by
  have hregs := (s.holdReport_writes b delay).regs
  have hlaw := s.holdReport_evolves b delay
  have hcopy : ((s.topo?.map Topo.beaconChildren).getD []) = x.beaconChildren := by rw [hx]; rfl
  refine ⟨?_, ?_, hlaw.widen rfl, hregs⟩
  · unfold State.holdReport
    rw [hcopy]
    exact (State.sendBeaconDown_out _ _ _).trans (by rw [State.maxReg_out])
  · unfold State.holdReport
    have hdown := State.sendBeaconDown_evolves (s.maxReg Reg.PYU_BEACON_MAX (min delay (2 ^ 32 - 1))) b
      ((s.topo?.map Topo.beaconChildren).getD [])
    exact ((hdown.writes).regN List.not_mem_nil).trans (State.regN_maxReg hwf _ (by omega))

/-- The reports held of the children, with one more. -/
def State.kidHeld (s : State) (child : Nat) (m : Beacon) : State :=
  { s with tick := { s.tick with kids := s.tick.kids.filter (fun k => k.1 ≠ child ∨ k.2.tick ≠ m.tick) ++ [(child, m)] } }

theorem exec_beaconUp {s : State} (h : s.tick.ticking = true) (child : Nat) (m : Beacon) (delay : Nat) :
    exec (.beaconUp child m delay) s = .next ((s.kidHeld child m).tryReport delay) := by
  show execBeaconUp child m delay s = _
  exact congrArg Host.Outcome.next (if_pos h)

theorem exec_beaconDown {s : State} {x : Topo} (hticking : s.tick.ticking = true) (hx : s.topo? = some x)
    (hparent : x.beaconParent.isSome = true) (hheld : s.tick.held = none) {m : Beacon} (hm : m.tick = s.tick.now % 2 ^ 48)
    (delay : Nat) : exec (.beaconDown m delay) s = .next (s.holdReport m delay) := by
  show execBeaconDown m delay s = _
  rw [execBeaconDown, hx]
  refine congrArg Host.Outcome.next (if_pos ?_)
  rw [hticking, hparent, hheld, decide_eq_true hm]
  rfl

/-- The only child's report of this tick is the one just taken. -/
theorem State.kidsNow_kidHeld {s : State} {x : Topo} (hx : s.topo? = some x) {child : Nat} (hchildren : x.beaconChildren = [child])
    {m : Beacon} (hm : m.tick = s.tick.now % 2 ^ 48) : (s.kidHeld child m).kidsNow = [m] := by
  have htopo : (s.kidHeld child m).topo? = some x := (State.topo?_congr rfl).trans hx
  have hfind : ((s.kidHeld child m).tick.kids.find? fun k => k.1 = child ∧ k.2.tick = (s.kidHeld child m).tick.now % 2 ^ 48) =
      some (child, m) := by
    show ((s.tick.kids.filter (fun k => k.1 ≠ child ∨ k.2.tick ≠ m.tick) ++ [(child, m)]).find?
      fun k => k.1 = child ∧ k.2.tick = s.tick.now % 2 ^ 48) = _
    rw [List.find?_append, List.find?_eq_none.mpr, Option.none_or, List.find?_cons_of_pos]
    · simp [hm]
    · intro k hk
      have := (List.mem_filter.mp hk).2
      simp only [ne_eq, decide_eq_true_eq, Bool.decide_or, Bool.or_eq_true] at this
      simp only [decide_eq_true_eq, ← hm]
      tauto
  unfold State.kidsNow
  rw [htopo, Option.map_some, Option.getD_some, hchildren]
  exact List.filterMap_cons_some (congrArg (Option.map Prod.snd) hfind)

/-- With its own report and its only child's in, the module combines them (R287). -/
theorem State.tryReport_joined {s : State} {x : Topo} (hx : s.topo? = some x) {child : Nat} (hchildren : x.beaconChildren = [child])
    {own m : Beacon} (hown : s.tick.own = some own) (hsent : s.tick.sentUp = false) (hkids : s.kidsNow = [m]) (delay : Nat) :
    s.tryReport delay = (match x.beaconParent with
      | some p => ({ s with tick := { s.tick with sentUp := true } } : State).sendBeaconUp p (joinBeacon own m)
      | none => if (joinBeacon own m).covered + 1 = s.jobSize
        then ({ s with tick := { s.tick with sentUp := true } } : State).holdReport { joinBeacon own m with down := true } delay
        else ({ s with tick := { s.tick with sentUp := true } } : State).event Reg.TICK_EVENT 4) := by
  rw [State.tryReport, hx, hown]
  refine (if_neg (by simp [hsent, hkids, hchildren])).trans ?_
  rw [hkids]
  rfl

/-- What a combination has begun: the module has reported. -/
def State.reported (s : State) : State := { s with tick := { s.tick with sentUp := true } }

theorem State.kidReported_evolves (s : State) (child : Nat) (m : Beacon) : Evolves [.tick] s (s.kidHeld child m).reported :=
  (s.evolves_tick _).step (State.evolves_tick _ _) rfl

/-- The three fates of a combination, by its place in the tree. -/
theorem beaconUp_joins {s : State} (hticking : s.tick.ticking = true) {x : Topo} (hx : s.topo? = some x) {m : Beacon}
    (hm : m.tick = s.tick.now % 2 ^ 48) {child : Nat} (hchildren : x.beaconChildren = [child]) {own : Beacon}
    (hown : s.tick.own = some own) (hsent : s.tick.sentUp = false) (delay : Nat) : ∃ u : State,
      Evolves [.tick] s u ∧ u.tick.sentUp = true ∧ u.tick.held = s.tick.held ∧
      (∀ p, x.beaconParent = some p → exec (.beaconUp child m delay) s = .next (u.sendBeaconUp p (joinBeacon own m))) ∧
      (x.beaconParent = none → (joinBeacon own m).covered + 1 = s.jobSize →
        exec (.beaconUp child m delay) s = .next (u.holdReport { joinBeacon own m with down := true } delay)) ∧
      (x.beaconParent = none → (joinBeacon own m).covered + 1 ≠ s.jobSize →
        exec (.beaconUp child m delay) s = .next (u.event Reg.TICK_EVENT 4)) := by
  have hjoin := State.tryReport_joined (s := s.kidHeld child m) ((State.topo?_congr rfl).trans hx) hchildren hown hsent
    (State.kidsNow_kidHeld hx hchildren hm) delay
  have hsize : (s.kidHeld child m).jobSize = s.jobSize := State.jobSize_congr rfl
  rw [hsize] at hjoin
  refine ⟨(s.kidHeld child m).reported, s.kidReported_evolves child m, rfl, rfl, fun p hp => ?_, fun hp hall => ?_, fun hp hall => ?_⟩
  all_goals rw [exec_beaconUp hticking, hjoin, hp]
  · rfl
  · exact congrArg Host.Outcome.next (if_pos hall)
  · exact congrArg Host.Outcome.next (if_neg hall)

/-- Settles O36: the module's own report joined with its child's, and the report from above. -/
theorem beaconsCombine : Obligations.BeaconsCombine := by
  intro s x m delay hinv hticking hx hm
  refine ⟨fun child own hchildren hown hsent => ?_, fun child hown => ?_, fun hparent hheld => ?_⟩
  · obtain ⟨u, hlaw, hsentUp, huheld, hup, hroot, hpart⟩ := beaconUp_joins hticking hx hm hchildren hown hsent delay
    have hwf := hlaw.regs hinv.2
    have htopo : u.topo? = some x := (State.topo?_congr (hlaw.keep .image (by decide))).trans hx
    have hout : u.out = s.out := hlaw.keep .out (by decide)
    refine ⟨fun parent hp => ?_, fun hp hall => ?_, fun hp hall => ?_⟩
    · have hsend := u.sendBeaconUp_evolves parent (joinBeacon own m)
      have htick : (u.sendBeaconUp parent (joinBeacon own m)).tick = u.tick := hsend.keep .tick (by decide)
      have hall : Evolves [.tick, .out, .pyu, .bel] s (u.sendBeaconUp parent (joinBeacon own m)) := (hlaw.widen rfl).step hsend rfl
      exact ⟨_, hup parent hp, by rw [htick, hsentUp], by rw [u.sendBeaconUp_out, hout], by rw [htick, huheld], hall.writes.touches⟩
    · obtain ⟨h1, h2, h3⟩ := State.holdReport_shows hwf htopo { joinBeacon own m with down := true } delay
      have hw : Writes [.regs, .tick, .out, .pyu, .bel] [Reg.PYU_BEACON_MAX] s
          (u.holdReport { joinBeacon own m with down := true } delay) := hlaw.writes.widen.step h3
      refine ⟨_, hroot hp hall, by rw [State.holdReport_tick], ?_, ?_, hw.touches⟩
      · rw [h1, hout, hchildren]
        rfl
      · rw [h2, hlaw.writes.regN List.not_mem_nil]
    · have hev := u.event_evolves Reg.TICK_EVENT 4
      have htick : (u.event Reg.TICK_EVENT 4).tick = u.tick := hev.keep .tick (by decide)
      exact ⟨_, hpart hp hall, u.bit_event _ _ hwf (by decide), by rw [htick, huheld]⟩
  · have htry : (s.kidHeld child m).tryReport delay = s.kidHeld child m := by
      have hown' : (s.kidHeld child m).tick.own = none := hown
      rw [State.tryReport, hown']
      cases (s.kidHeld child m).topo? <;> rfl
    have hlaw : Evolves [.tick] s (s.kidHeld child m) := s.evolves_tick _
    exact ⟨_, (exec_beaconUp hticking child m delay).trans (congrArg _ htry), List.mem_append_right _ (List.mem_singleton.mpr rfl), rfl,
      hlaw.writes.touches⟩
  · obtain ⟨h1, h2, h3⟩ := State.holdReport_shows hinv.2 hx m delay
    exact ⟨_, exec_beaconDown hticking hx hparent hheld hm delay, State.holdReport_tick _ _ _, h1, h2, h3.touches⟩

end Sys2Proof.Machine

/-! O37: the slot assigner (R293, R294). -/

namespace Sys2Proof.Machine

set_option Elab.async false

/-! ### The assignment -/

/-- What holds after each pair: capacities are kept, each slot given is below its expert's count, and no two pairs of an expert
have the same. -/
structure Assigned (cap : Nat → Nat) (expert : Nat → Word) (a : Assign) : Prop where
  wf : storeWf noSlot a.slots = true
  within : ∀ i, storeGet 0 a.filled i ≤ cap i
  below : ∀ k, storeGet noSlot a.slots k ≠ noSlot → storeGet noSlot a.slots k < storeGet 0 a.filled (expert k).toNat
  inj : ∀ k l, expert k = expert l → storeGet noSlot a.slots k = storeGet noSlot a.slots l → storeGet noSlot a.slots k ≠ noSlot →
    k = l

/-- A pair takes the next slot of its expert. -/
theorem Assigned.give {cap : Nat → Nat} {expert : Nat → Word} {a : Assign} (h : Assigned cap expert a) (key : Nat)
    (hroom : storeGet 0 a.filled (expert key).toNat < cap (expert key).toNat) :
    Assigned cap expert { a with
      filled := storeSet 0 a.filled (expert key).toNat (storeGet 0 a.filled (expert key).toNat + 1)
      slots := storeSet noSlot a.slots key (storeGet 0 a.filled (expert key).toNat)
      routed := a.routed + 1 } := by
  have hfilled (i : Nat) : storeGet 0 (storeSet 0 a.filled (expert key).toNat (storeGet 0 a.filled (expert key).toNat + 1)) i =
      if i = (expert key).toNat then storeGet 0 a.filled i + 1 else storeGet 0 a.filled i := by
    split
    · next hi => rw [hi]; exact storeGet_storeSet_new 0 _ _ _ (Nat.succ_ne_zero _)
    · next hi => exact storeGet_storeSet_ne 0 _ _ _ _ hi
  have hslot (k : Nat) : storeGet noSlot (storeSet noSlot a.slots key (storeGet 0 a.filled (expert key).toNat)) k =
      if k = key then storeGet 0 a.filled (expert key).toNat else storeGet noSlot a.slots k := by
    split
    · next hk => rw [hk]; exact storeGet_storeSet_same noSlot _ _ _ h.wf
    · next hk => exact storeGet_storeSet_ne noSlot _ _ _ _ hk
  refine ⟨storeWf_storeSet _ _ _ _ h.wf, fun i => ?_, fun k hk => ?_, fun k l hkl heq hne => ?_⟩
  · rw [hfilled]
    split
    · next hi => rw [hi]; exact hroom
    · exact h.within i
  · rw [hslot] at hk
    rw [hslot, hfilled]
    by_cases hkey : k = key
    · rw [if_pos hkey, hkey, if_pos rfl]
      exact Nat.lt_succ_self _
    · rw [if_neg hkey] at hk ⊢
      have := h.below k hk
      split <;> omega
  · rw [hslot, hslot] at heq
    rw [hslot] at hne
    by_cases hk : k = key
    · by_cases hl : l = key
      · rw [hk, hl]
      · rw [if_pos hk, if_neg hl] at heq
        rw [if_pos hk, heq] at hne
        have := h.below l hne
        rw [← hkl, hk] at this
        omega
    · rw [if_neg hk] at heq hne
      have hlt := h.below k hne
      by_cases hl : l = key
      · rw [if_pos hl] at heq
        rw [hkl, hl] at hlt
        omega
      · rw [if_neg hl] at heq
        exact h.inj k l hkl heq hne

/-- Each pair keeps the assignment. -/
theorem Assigned.pair {e : ExchangeStream} {rank : Nat} {expert : Nat → Word} {a : Assign}
    (h : Assigned (fun i => (e.capacity.getD rank []).getD i 0) expert a) (key : Nat) :
    Assigned (fun i => (e.capacity.getD rank []).getD i 0) expert (assignPair e rank a key (expert key)) := by
  have hsame (b : Assign) (hf : b.filled = a.filled) (hs : b.slots = a.slots) :
      Assigned (fun i => (e.capacity.getD rank []).getD i 0) expert b := by
    obtain ⟨wf, within, below, inj⟩ := h
    exact ⟨by rwa [hs], by rwa [hf], by rwa [hs, hf], by rwa [hs]⟩
  unfold assignPair
  split
  · exact h
  · dsimp only
    split
    · exact hsame _ rfl rfl
    · split
      · next hroom => exact h.give key hroom
      · exact hsame _ rfl rfl

theorem mem_pairOrder {rule tokens choices : Nat} {p : Nat × Nat} (h : p ∈ pairOrder rule tokens choices) : p.2 < choices := by
  unfold pairOrder at h
  split at h
  · obtain ⟨i, -, hp⟩ := List.mem_flatMap.mp h
    obtain ⟨j, hj, rfl⟩ := List.mem_map.mp hp
    exact List.mem_range.mp hj
  · obtain ⟨j, hj, hp⟩ := List.mem_flatMap.mp h
    obtain ⟨i, -, rfl⟩ := List.mem_map.mp hp
    exact List.mem_range.mp hj

/-- R293, R294: no expert gets more slots than the rank's capacity, and no slot twice. -/
theorem assignAll_assigned (s : State) (e : ExchangeStream) (r : RouteList) :
    Assigned (fun i => (e.capacity.getD s.rank []).getD i 0)
      (fun k => s.routeExpert r.routes e.choices (k / e.choices) (k % e.choices)) (s.assignAll e r) := by
  have hstart : Assigned (fun i => (e.capacity.getD s.rank []).getD i 0)
      (fun k => s.routeExpert r.routes e.choices (k / e.choices) (k % e.choices)) {} :=
    ⟨rfl, fun _ => Nat.zero_le _, fun _ h => absurd rfl h, fun _ _ _ _ h => absurd rfl h⟩
  unfold State.assignAll
  have hpairs : ∀ p ∈ pairOrder e.rule r.tokens e.choices, p.2 < e.choices := fun p hp => mem_pairOrder hp
  generalize pairOrder e.rule r.tokens e.choices = l at hpairs
  generalize ({} : Assign) = a at *
  induction l generalizing a with
  | nil => exact hstart
  | cons p l ih =>
    obtain ⟨i, j⟩ := p
    have hj : j < e.choices := hpairs (i, j) List.mem_cons_self
    have hkey := hstart.pair (i * e.choices + j)
    rw [show (i * e.choices + j) / e.choices = i by
        rw [Nat.mul_comm, Nat.mul_add_div (by omega), Nat.div_eq_of_lt hj, Nat.add_zero],
      show (i * e.choices + j) % e.choices = j by rw [Nat.mul_comm, Nat.mul_add_mod, Nat.mod_eq_of_lt hj]] at hkey
    rw [List.foldl_cons]
    exact ih (fun q hq => hpairs q (List.mem_cons_of_mem _ hq)) _ hkey

/-! ### The counts -/

theorem State.traceDrops_writes (s : State) (cl stream : Nat) (l : Counts) :
    Writes (.free :: .bel :: Part.signalled) Reg.trace s (s.traceDrops cl stream l) := by
  induction l generalizing s with
  | nil => exact Writes.refl s
  | cons p l ih =>
    rw [State.traceDrops]
    exact (s.trace_writes _ _ _ _).step (ih _) (by decide) fun _ h => h

/-- The registers that an assignment counts in. -/
abbrev Reg.assign : List Nat :=
  [Reg.PYU_XCH_ROUTED, Reg.PYU_XCH_DROPS, Reg.PYU_XCH_DROP_MAX, Reg.PYU_XCH_BAD, Reg.PYU_EVENT]

theorem State.countAssign_counts {s : State} (hwf : storeWf 0 s.regs = true) (a : Assign) :
    (s.countAssign a).regN Reg.PYU_XCH_ROUTED = min (s.regN Reg.PYU_XCH_ROUTED + a.routed) (2 ^ 64 - 1) ∧
      (s.countAssign a).regN Reg.PYU_XCH_DROPS = min (s.regN Reg.PYU_XCH_DROPS + a.dropped) (2 ^ 64 - 1) ∧
      (a.dropped ≠ 0 → (s.countAssign a).bit Reg.PYU_EVENT 5 = true) ∧
      (a.bad ≠ 0 → (s.countAssign a).bit Reg.PYU_EVENT 3 = true) ∧
      Writes Part.signalled Reg.assign s (s.countAssign a) := by
  unfold State.countAssign
  dsimp only
  have h1 := s.count_writes Reg.PYU_XCH_ROUTED 64 a.routed
  have hrouted := s.regN_count Reg.PYU_XCH_ROUTED 64 a.routed hwf (by decide)
  generalize s.count Reg.PYU_XCH_ROUTED 64 a.routed = u at *
  have h2 := u.count_writes Reg.PYU_XCH_DROPS 64 a.dropped
  have hdrops := u.regN_count Reg.PYU_XCH_DROPS 64 a.dropped (h1.wf hwf) (by decide)
  generalize u.count Reg.PYU_XCH_DROPS 64 a.dropped = v at *
  have h3 := v.maxReg_writes Reg.PYU_XCH_DROP_MAX (min a.dropped (2 ^ 32 - 1))
  generalize v.maxReg Reg.PYU_XCH_DROP_MAX (min a.dropped (2 ^ 32 - 1)) = w at *
  have hw : Writes Part.signalled Reg.assign s w :=
    ((h1.widen (Q := Part.signalled) (M := Reg.assign)).step h2).step h3
  have hwwf := hw.wf hwf
  have hrouted' : w.regN Reg.PYU_XCH_ROUTED = min (s.regN Reg.PYU_XCH_ROUTED + a.routed) (2 ^ 64 - 1) :=
    (h3.regN (by decide)).trans ((h2.regN (by decide)).trans hrouted)
  have hdrops' : w.regN Reg.PYU_XCH_DROPS = min (s.regN Reg.PYU_XCH_DROPS + a.dropped) (2 ^ 64 - 1) := by
    refine (h3.regN (by decide)).trans (hdrops.trans ?_)
    rw [h1.regN (by decide)]
  obtain ⟨x, hx, hxw, hx3⟩ : ∃ x : State, x = (if a.bad = 0 then w else (w.count Reg.PYU_XCH_BAD 32 a.bad).event Reg.PYU_EVENT 3) ∧
      Writes Part.signalled [Reg.PYU_XCH_BAD, Reg.PYU_EVENT] w x ∧ (a.bad ≠ 0 → x.bit Reg.PYU_EVENT 3 = true) := by
    refine ⟨_, rfl, Writes.ite _ (Writes.refl w) ?_, fun h => ?_⟩
    · exact ((w.count_writes _ _ _).widen (Q := Part.signalled) (M := [Reg.PYU_XCH_BAD, Reg.PYU_EVENT])).step (State.event_writes _ _ _)
    · rw [if_neg h]
      exact State.bit_event _ _ _ ((w.count_writes _ _ _).wf hwwf) (by decide)
  rw [← hx]
  have hxwf := hxw.wf hwwf
  obtain ⟨y, hy, hyw, hy5, hy3⟩ : ∃ y : State, y = (if a.dropped = 0 then x else x.event Reg.PYU_EVENT 5) ∧
      Writes Part.signalled [Reg.PYU_EVENT] x y ∧ (a.dropped ≠ 0 → y.bit Reg.PYU_EVENT 5 = true) ∧
      (x.bit Reg.PYU_EVENT 3 = true → y.bit Reg.PYU_EVENT 3 = true) := by
    refine ⟨_, rfl, Writes.ite _ (Writes.refl x) (x.event_writes _ _), fun h => ?_, fun h => ?_⟩
    · rw [if_neg h]
      exact State.bit_event _ _ _ hxwf (by decide)
    · split
      · exact h
      · exact State.bit_event_mono hxwf 5 (by decide) h
  rw [← hy]
  exact ⟨(hyw.regN (by decide)).trans ((hxw.regN (by decide)).trans hrouted'),
    (hyw.regN (by decide)).trans ((hxw.regN (by decide)).trans hdrops'), hy5, fun h => hy3 (hx3 h), (hw.step hxw).step hyw⟩

theorem exec_slotAssign {s : State} {r : RouteList} {e : ExchangeStream} (h : s.exchangeStream r.stream = some e) :
    exec (.slotAssign r) s = .next ((((s.devWrite .scheduled r.table (slotBytes (s.assignAll e r) (r.tokens * e.choices))).devWrite
      .scheduled r.counts (filledBytes (s.assignAll e r) e.experts.length)).countAssign (s.assignAll e r)).traceDrops e.cluster
        r.stream (s.assignAll e r).drops) := by
  show execSlotAssign r s = _
  rw [execSlotAssign, h]

/-- Settles O37: the assignment's invariant pair by pair, and what the commands write. -/
theorem slotsAssigned : Obligations.SlotsAssigned := by
  intro r s e hinv he hchoices a n expert
  have hassigned := assignAll_assigned s e r
  refine ⟨hassigned.within, fun k l _ _ hexp heq hne => hassigned.inj k l hexp heq hne, _, exec_slotAssign he, ?_⟩
  have h1 := s.devWrite_writes .scheduled r.table (slotBytes a n)
  have h2 := State.devWrite_writes (s.devWrite .scheduled r.table (slotBytes a n)) .scheduled r.counts
    (filledBytes a e.experts.length)
  generalize (s.devWrite .scheduled r.table (slotBytes a n)).devWrite .scheduled r.counts (filledBytes a e.experts.length) = u at *
  have h12 : Writes Part.devWrite Reg.devWrite s u := h1.step h2 (hl := fun _ h => h)
  obtain ⟨hrouted, hdrops, h5, h3, hcount⟩ := State.countAssign_counts (h12.wf hinv.2) a
  have hbase {o : Nat} (h : o ∉ Reg.devWrite) : u.regN o = s.regN o := h12.regN h
  rw [hbase (by decide)] at hrouted hdrops
  have htrace := State.traceDrops_writes (u.countAssign a) e.cluster r.stream a.drops
  have hlast : Writes (.free :: .bel :: Part.signalled) (Reg.assign ++ Reg.trace) u
      ((u.countAssign a).traceDrops e.cluster r.stream a.drops) :=
    (hcount.widen (hl := fun _ h => List.mem_append_left _ h)).step htrace (hl := fun _ h => List.mem_append_right _ h)
  have hall : Evolves ([.mem, .free, .hbm, .bel] ++ Part.signalled) s ((u.countAssign a).traceDrops e.cluster r.stream a.drops) :=
    (h12.evolves.widen rfl).step hlast.evolves rfl
  exact ⟨hlast.evolves.sameBytes, (htrace.regN (by decide)).trans hrouted, (htrace.regN (by decide)).trans hdrops,
    fun h => (htrace.bit (by decide) 5).trans (h5 h), fun h => (htrace.bit (by decide) 3).trans (h3 h), hall.keep⟩

end Sys2Proof.Machine

/-! Class S vectors on their way, and the fatal errors of the cloister. -/

namespace Sys2Proof.Machine

set_option Elab.async false

/-! ### Fatal errors (R260) -/

/-- The parts that a fatal error of the cloister may change. -/
abbrev Part.cloFatal : List Part := .hlt :: .tick :: Part.signalled

/-- The registers that it writes. -/
abbrev Reg.cloFatal : List Nat := [Reg.CLO_FAIL_INFO, Reg.CLO_FAIL_TICK, Reg.CLO_EVENT] ++ Reg.ledger

/-- A fatal error shows, the first with its place, and stops the module's reports. -/
theorem State.cloFatal_shows {s : State} (hwf : storeWf 0 s.regs = true) (kind port plot : Nat) :
    (s.cloFatal kind port plot).bit Reg.CLO_EVENT 1 = true ∧
      (s.cloFatal kind port plot).tick = { s.tick with stopped := true } ∧
      (s.bit Reg.CLO_FAIL_INFO 31 = false → (s.cloFatal kind port plot).regN Reg.CLO_FAIL_INFO =
        (kind + 16 * port + 256 * (plot % 2 ^ 18) + 2 ^ 31) % 2 ^ 64) ∧
      Writes Part.cloFatal Reg.cloFatal s (s.cloFatal kind port plot) := by
  unfold State.cloFatal
  dsimp only
  obtain ⟨u, hu, huw, hinfo⟩ : ∃ u : State, u = (if s.bit Reg.CLO_FAIL_INFO 31 then s
        else (s.setRegN Reg.CLO_FAIL_INFO (kind + 16 * port + 256 * (plot % 2 ^ 18) + 2 ^ 31)).setRegN Reg.CLO_FAIL_TICK
          s.tick.now) ∧ Writes [.regs] [Reg.CLO_FAIL_INFO, Reg.CLO_FAIL_TICK] s u ∧
      (s.bit Reg.CLO_FAIL_INFO 31 = false → u.regN Reg.CLO_FAIL_INFO =
        (kind + 16 * port + 256 * (plot % 2 ^ 18) + 2 ^ 31) % 2 ^ 64) := by
    refine ⟨_, rfl, Writes.ite _ (Writes.refl s) ?_, fun h => ?_⟩
    · exact ((s.setRegN_writes Reg.CLO_FAIL_INFO _).widen (Q := [.regs])
        (M := [Reg.CLO_FAIL_INFO, Reg.CLO_FAIL_TICK])).step (State.setRegN_writes _ Reg.CLO_FAIL_TICK _)
    · rw [if_neg (by simp [h])]
      exact ((State.setRegN_writes _ Reg.CLO_FAIL_TICK _).regN (by decide)).trans (State.regN_setRegN_mod hwf _ _)
  rw [← hu]
  have hevent := u.event_writes Reg.CLO_EVENT 1
  have hbit : (u.event Reg.CLO_EVENT 1).bit Reg.CLO_EVENT 1 = true := State.bit_event u _ _ (huw.wf hwf) (by decide)
  generalize u.event Reg.CLO_EVENT 1 = v at *
  have hfatal := v.ledgerFatal_writes 3 plot
  generalize v.ledgerFatal 3 plot = w at *
  have hall : Writes (.hlt :: Part.signalled) Reg.cloFatal s w :=
    ((huw.widen (Q := .hlt :: Part.signalled) (M := Reg.cloFatal)).step hevent).step hfatal
  have htick : w.tick = s.tick := hall.evolves.keep .tick (by decide)
  refine ⟨(hfatal.bit (by decide) 1).trans hbit, congrArg (fun x : TickSt => { x with stopped := true }) htick, fun h => ?_, ?_⟩
  · exact (hfatal.regN (by decide)).trans ((hevent.regN (by decide)).trans (hinfo h))
  · exact (hall.widen (Q := Part.cloFatal) (hl := fun _ h => h)).step (State.evolves_tick w _).writes

/-! ### Vectors on their way (R270, R279) -/

/-- The registers that the record of a digest may change. -/
abbrev Reg.digest : List Nat := [Reg.CLO_DLOG_HEAD, Reg.CLO_EVENT] ++ Reg.devWrite

/-- The parts that a vector on its way may change. -/
abbrev Part.vector : List Part := .clo :: .pyu :: Part.devWrite

theorem State.digestRecord_writes (s : State) (plot port dir peer : Nat) (d : DigestSt) :
    Writes Part.devWrite Reg.digest s (s.digestRecord plot port dir peer d) := by
  unfold State.digestRecord
  split
  · exact Writes.refl s
  · dsimp only
    have hhead (u : State) (n : Nat) : Writes Part.devWrite Reg.digest u
        (if n = 0 then (u.setRegN Reg.CLO_DLOG_HEAD n).event Reg.CLO_EVENT 4 else u.setRegN Reg.CLO_DLOG_HEAD n) :=
      have hset := (u.setRegN_writes Reg.CLO_DLOG_HEAD n).widen (Q := Part.devWrite) (M := Reg.digest)
      Writes.ite _ (hset.step (State.event_writes _ _ _)) hset
    exact (s.devWrite_writes _ _ _).widen.step (hhead _ _) (hl := fun _ h => h)

theorem State.absorb_writes (s : State) (plot port dir peer : Nat) (bs : List Byte) (last : Bool) :
    Writes (.clo :: Part.devWrite) Reg.digest s (s.absorb plot port dir peer bs last) := by
  unfold State.absorb
  split
  · dsimp only
    split
    · exact (State.evolves_clo s _).writes.widen.step (State.digestRecord_writes _ _ _ _ _ _) (hl := fun _ h => h)
    · exact (State.evolves_clo s _).writes.widen
  · exact Writes.refl s

theorem State.sendVec_writes (s : State) (rank plot : Nat) (v : SVec) :
    Writes Part.vector Reg.digest s (s.sendVec rank plot v) := by
  unfold State.sendVec
  split
  · exact (((State.setTx_evolves _ _ _ _).writes.widen (Q := Part.vector) (M := Reg.digest)).step
      (State.setEnd_evolves _ _ _ _ _).writes).step (State.absorb_writes _ _ _ _ _ _ _) (hl := fun _ h => h)
  · exact Writes.refl s

theorem State.sendDown_writes (s : State) (plot : Nat) (v : SVec) (l : List (Nat × Nat)) :
    Writes Part.vector Reg.digest s (s.sendDown plot v l) := by
  induction l generalizing s with
  | nil => exact Writes.refl s
  | cons c l ih => exact (s.sendVec_writes c.1 plot v).step (ih _) (hl := fun _ h => h)

theorem State.digestMode_congr {s t : State} (h : t.image = s.image) : t.digestMode = s.digestMode := by
  rw [State.digestMode, State.img_congr h]
  rfl

theorem State.portOf_congr {s t : State} (h : t.image = s.image) (rank : Nat) : t.portOf rank = s.portOf rank := by
  rw [State.portOf, State.topo?_congr h]
  rfl

theorem State.tx_setTx (s : State) (plot port : Nat) {x : TxStream} (h : x ≠ {}) : (s.setTx plot port x).tx plot port = x :=
  storeGet_storeSet_new _ _ _ _ h

theorem State.tx_of_pyu {s t : State} (h : t.pyu = s.pyu) (plot port : Nat) : t.tx plot port = s.tx plot port := by
  rw [State.tx, h]
  rfl

theorem State.tx_setEnd (s : State) (plot port : Nat) (recv : Bool) (e : LinkEnd) (pl po : Nat) :
    (s.setEnd plot port recv e).tx pl po = s.tx pl po := rfl

/-- A vector joins the stream of its port. -/
theorem State.sendVec_tx {s : State} {x : Topo} (htopo : s.topo? = some x) {rank port : Nat} (hport : s.portOf rank = some port)
    (plot : Nat) (v : SVec) : (s.sendVec rank plot v).tx plot port =
      { s.tx plot port with vecs := (s.tx plot port).vecs ++ [vecBytes s.digestMode v] } := by
  rw [State.sendVec, htopo, hport]
  dsimp only
  rw [State.tx_of_pyu ((State.absorb_writes _ _ _ _ _ _ _).evolves.keep .pyu (by decide)), State.tx_setEnd]
  refine State.tx_setTx _ _ _ fun h => ?_
  have hvecs := congrArg TxStream.vecs h
  simp at hvecs

/-- A stream that has another key stays. -/
theorem State.sendVec_tx_ne {s : State} {x : Topo} (htopo : s.topo? = some x) {rank port : Nat} (hport : s.portOf rank = some port)
    {plot pl po : Nat} (hne : crossKey pl po ≠ crossKey plot port) (v : SVec) :
    (s.sendVec rank plot v).tx pl po = s.tx pl po := by
  rw [State.sendVec, htopo, hport]
  dsimp only
  rw [State.tx_of_pyu ((State.absorb_writes _ _ _ _ _ _ _).evolves.keep .pyu (by decide)), State.tx_setEnd]
  exact storeGet_storeSet_ne _ _ _ _ _ hne

/-- No vector leaves a stream when another joins one. -/
theorem State.sendVec_keeps (s : State) (rank plot : Nat) (v : SVec) (pl po : Nat) {b : List Byte}
    (h : b ∈ (s.tx pl po).vecs) : b ∈ ((s.sendVec rank plot v).tx pl po).vecs := by
  rcases htopo : s.topo? with _ | x
  · rw [State.sendVec, htopo]
    exact h
  · rcases hport : s.portOf rank with _ | port
    · rw [State.sendVec, htopo, hport]
      exact h
    · by_cases hkey : crossKey pl po = crossKey plot port
      · have hsame (u : State) : u.tx pl po = u.tx plot port := by
          rw [State.tx, hkey]
          rfl
        rw [hsame, State.sendVec_tx htopo hport]
        rw [hsame] at h
        exact List.mem_append_left _ h
      · rwa [State.sendVec_tx_ne htopo hport hkey]

theorem State.sendDown_keeps (s : State) (plot : Nat) (v : SVec) (l : List (Nat × Nat)) (pl po : Nat) {b : List Byte}
    (h : b ∈ (s.tx pl po).vecs) : b ∈ ((s.sendDown plot v l).tx pl po).vecs := by
  induction l generalizing s with
  | nil => exact h
  | cons c l ih => exact ih _ (s.sendVec_keeps c.1 plot v pl po h)

/-- Each child's port has the vector. -/
theorem State.sendDown_sends {s : State} {x : Topo} (htopo : s.topo? = some x) (plot : Nat) (v : SVec) (l : List (Nat × Nat))
    {c : Nat × Nat} (hc : c ∈ l) {port : Nat} (hport : s.portOf c.1 = some port) :
    vecBytes s.digestMode v ∈ ((s.sendDown plot v l).tx plot port).vecs := by
  induction l generalizing s with
  | nil => exact (nomatch hc)
  | cons d l ih =>
    have himage : (s.sendVec d.1 plot v).image = s.image := (s.sendVec_writes d.1 plot v).evolves.keep .image (by decide)
    rcases List.mem_cons.mp hc with rfl | hc
    · refine State.sendDown_keeps _ plot v l plot port ?_
      rw [State.sendVec_tx htopo hport]
      exact List.mem_append_right _ (List.mem_singleton.mpr rfl)
    · have hlater := ih (s := s.sendVec d.1 plot v) ((State.topo?_congr himage).trans htopo) hc
        ((State.portOf_congr himage _).trans hport)
      rwa [State.digestMode_congr himage] at hlater

end Sys2Proof.Machine

/-! O33: Class S reductions at a node (R269 to R271). -/

namespace Sys2Proof.Machine

set_option Elab.async false

/-! ### The end of a reduction -/

theorem State.closeSum_writes (s : State) (x : Topo) (plot : Nat) (v : List DWord) : Writes [.clo] [] s (s.closeSum x plot v) :=
  (s.closeSum_evolves x plot v).writes

/-- A reduction that is over holds its result and the tick of its end. -/
theorem State.sred_closeSum (s : State) (x : Topo) (plot : Nat) (v : List DWord) :
    (s.closeSum x plot v).sred plot =
      { own := [], sent := false, round := (s.sred plot).round + 1, closedAt := some s.tick.now, result := some v } := by
  unfold State.closeSum
  refine storeGet_storeSet_new _ _ _ _ fun h => ?_
  have hclosed := congrArg SRed.closedAt h
  simp at hclosed

/-- A complete result before it is used. -/
def State.sumDone (s : State) (x : Topo) (plot slack : Nat) (v : List DWord) : State :=
  ((((s.count Reg.CLO_S_DONE 32 1).minReg Reg.CLO_S_SLACK_MIN slack).bel64 (dieCnt 0 9) 1).trace 0 0x0D 0
    (plot + 2 ^ 32 * (slack % 2 ^ 32))).closeSum x plot v

/-- A missing result before its step is spoiled. -/
def State.sumMissed (s : State) (x : Topo) (plot : Nat) (v : List DWord) : State :=
  ((((s.count Reg.CLO_S_LATE 32 1).event Reg.CLO_EVENT 2).bel64 (dieCnt 0 10) 1).trace 0 0x0D 0
    (plot + 2 ^ 64)).closeSum x plot v

theorem State.sDone_eq (s : State) (x : Topo) (red : SReduce) (v : List DWord) (slack : Nat) :
    s.sDone x red v slack = (s.sumDone x red.plot slack v).useResult red v := rfl

/-- The parts that the end of a reduction may change, and the registers. -/
abbrev Part.sumEnd : List Part := .free :: .bel :: .clo :: Part.signalled

abbrev Reg.sumDone : List Nat := [Reg.CLO_S_DONE, Reg.CLO_S_SLACK_MIN] ++ Reg.trace

abbrev Reg.sumMissed : List Nat := [Reg.CLO_S_LATE, Reg.CLO_EVENT] ++ Reg.trace

/-- What a result leaves that is complete (R270). -/
theorem State.sumDone_ends {s : State} (hwf : storeWf 0 s.regs = true) (x : Topo) (plot slack : Nat) (v : List DWord) :
    Writes Part.sumEnd Reg.sumDone s (s.sumDone x plot slack v) ∧
      ((s.sumDone x plot slack v).sred plot).result = some v ∧
      ((s.sumDone x plot slack v).sred plot).closedAt = some s.tick.now ∧
      (s.sumDone x plot slack v).regN Reg.CLO_S_DONE = min (s.regN Reg.CLO_S_DONE + 1) (2 ^ 32 - 1) ∧
      (s.sumDone x plot slack v).regN Reg.CLO_S_SLACK_MIN = min (s.regN Reg.CLO_S_SLACK_MIN) slack := by
  unfold State.sumDone
  have h1 := s.count_writes Reg.CLO_S_DONE 32 1
  have hdone := s.regN_count Reg.CLO_S_DONE 32 1 hwf (by decide)
  generalize s.count Reg.CLO_S_DONE 32 1 = u1 at *
  have h2 := u1.minReg_writes Reg.CLO_S_SLACK_MIN slack
  have hslack := State.regN_minReg (h1.wf hwf) Reg.CLO_S_SLACK_MIN slack
  generalize u1.minReg Reg.CLO_S_SLACK_MIN slack = u2 at *
  have h3 := u2.bel64_writes (dieCnt 0 9) 1
  generalize u2.bel64 (dieCnt 0 9) 1 = u3 at *
  have h4 := u3.trace_writes 0 0x0D 0 (plot + 2 ^ 32 * (slack % 2 ^ 32))
  generalize u3.trace 0 0x0D 0 (plot + 2 ^ 32 * (slack % 2 ^ 32)) = u4 at *
  have h14 : Writes Part.sumEnd Reg.sumDone s u4 :=
    (((h1.widen (Q := Part.sumEnd) (M := Reg.sumDone)).step h2).step h3).step h4
  have h5 := u4.closeSum_writes x plot v
  have hsred := u4.sred_closeSum x plot v
  have htick : u4.tick = s.tick := h14.evolves.keep .tick (by decide)
  refine ⟨h14.step h5, by rw [hsred], by rw [hsred, htick], ?_, ?_⟩
  · exact (h5.regN (by decide)).trans ((h4.regN (by decide)).trans ((h3.regN (by decide)).trans
      ((h2.regN (by decide)).trans hdone)))
  · rw [h1.regN (by decide)] at hslack
    exact (h5.regN (by decide)).trans ((h4.regN (by decide)).trans ((h3.regN (by decide)).trans hslack))

/-- What a result leaves that is missing (R271), before the step is spoiled. -/
theorem State.sumMissed_ends {s : State} (hwf : storeWf 0 s.regs = true) (x : Topo) (plot : Nat) (v : List DWord) :
    Writes Part.sumEnd Reg.sumMissed s (s.sumMissed x plot v) ∧
      ((s.sumMissed x plot v).sred plot).result = some v ∧
      ((s.sumMissed x plot v).sred plot).closedAt = some s.tick.now ∧
      (s.sumMissed x plot v).regN Reg.CLO_S_LATE = min (s.regN Reg.CLO_S_LATE + 1) (2 ^ 32 - 1) ∧
      (s.sumMissed x plot v).bit Reg.CLO_EVENT 2 = true := by
  unfold State.sumMissed
  have h1 := s.count_writes Reg.CLO_S_LATE 32 1
  have hlate := s.regN_count Reg.CLO_S_LATE 32 1 hwf (by decide)
  generalize s.count Reg.CLO_S_LATE 32 1 = u1 at *
  have h2 := u1.event_writes Reg.CLO_EVENT 2
  have hbit := State.bit_event u1 Reg.CLO_EVENT 2 (h1.wf hwf) (by decide)
  generalize u1.event Reg.CLO_EVENT 2 = u2 at *
  have h3 := u2.bel64_writes (dieCnt 0 10) 1
  generalize u2.bel64 (dieCnt 0 10) 1 = u3 at *
  have h4 := u3.trace_writes 0 0x0D 0 (plot + 2 ^ 64)
  generalize u3.trace 0 0x0D 0 (plot + 2 ^ 64) = u4 at *
  have h14 : Writes Part.sumEnd Reg.sumMissed s u4 :=
    (((h1.widen (Q := Part.sumEnd) (M := Reg.sumMissed)).step h2).step h3).step h4
  have h5 := u4.closeSum_writes x plot v
  have hsred := u4.sred_closeSum x plot v
  have htick : u4.tick = s.tick := h14.evolves.keep .tick (by decide)
  refine ⟨h14.step h5, by rw [hsred], by rw [hsred, htick], ?_, ?_⟩
  · exact (h5.regN (by decide)).trans ((h4.regN (by decide)).trans ((h3.regN (by decide)).trans
      ((h2.regN (by decide)).trans hlate)))
  · exact (h5.bit (by decide) 2).trans ((h4.bit (by decide) 2).trans ((h3.bit (by decide) 2).trans hbit))

/-- The step and the waiters after a missing result. -/
theorem State.sLate_eq (s : State) (x : Topo) (red : SReduce) :
    s.sLate x red = (match red.use with
      | .stile n => (((s.sumMissed x red.plot (List.replicate red.count (sSubstitute red.op))).spoil 3).useResult red
          (List.replicate red.count (sSubstitute red.op))).releaseStile n
      | _ => ((s.sumMissed x red.plot (List.replicate red.count (sSubstitute red.op))).spoil 3).useResult red
          (List.replicate red.count (sSubstitute red.op))) := rfl

theorem State.sLate_plain (s : State) (x : Topo) {red : SReduce} (h : red.use = .plain) :
    s.sLate x red = (s.sumMissed x red.plot (List.replicate red.count (sSubstitute red.op))).spoil 3 := by
  rw [State.sLate_eq, h]
  dsimp only
  rw [State.useResult, h]

theorem State.spoil_late {s : State} {r : RunStep} (h : s.tick.step = some r) (hv : r.voted = true)
    (hc : s.commit.lateCause = 0) (c : Nat) : (s.spoil c).commit.lateCause = c := by
  rw [State.spoil_of_some h, hv]
  have hcommit : (s.causeSet c).stl.commit.lateCause = 0 := hc
  rw [if_pos rfl, if_pos hcommit]
  rfl

theorem State.stitchIx_congr {s t : State} (himage : t.image = s.image) (hnow : t.tick.now = s.tick.now) :
    t.stitchIx = s.stitchIx := by
  unfold State.stitchIx State.stepLen
  rw [State.img_congr himage, hnow]

/-- The state before a reduction ends keeps what its end reads. -/
abbrev sumSent (s u : State) : Prop := Writes Part.vector Reg.digest s u

/-- The state before a missing result spoils its step (R271). -/
theorem State.sumMissed_late {s v : State} (hwf : storeWf 0 s.regs = true) (hsent : sumSent s v) (x : Topo) (plot : Nat)
    (substitute : List DWord) :
    let u := v.sumMissed x plot substitute
    ((u.sred plot).result = some substitute ∧ (u.sred plot).closedAt = some s.tick.now ∧ u.tick = s.tick) ∧
      u.pyu = v.pyu ∧ u.regN Reg.CLO_S_LATE = min (s.regN Reg.CLO_S_LATE + 1) (2 ^ 32 - 1) ∧ u.bit Reg.CLO_EVENT 2 = true ∧
      u.stl = s.stl ∧ u.image = s.image ∧ storeWf 0 u.regs = true := by
  intro u
  have htick : v.tick = s.tick := hsent.evolves.keep .tick (by decide)
  obtain ⟨hlaw, hresult, hclosed, hlate, hbit⟩ := State.sumMissed_ends (hsent.wf hwf) x plot substitute
  have hutick : u.tick = v.tick := hlaw.evolves.keep .tick (by decide)
  have himage : u.image = s.image := Eq.trans (hlaw.evolves.keep .image (by decide)) (hsent.evolves.keep .image (by decide))
  have hstl : u.stl = s.stl := Eq.trans (hlaw.evolves.keep .stl (by decide)) (hsent.evolves.keep .stl (by decide))
  rw [htick] at hclosed
  rw [hsent.regN (by decide)] at hlate
  exact ⟨⟨hresult, hclosed, hutick.trans htick⟩, hlaw.evolves.keep .pyu (by decide), hlate, hbit, hstl, himage,
    hlaw.wf (hsent.wf hwf)⟩

/-- Cause 3 of a missing result in a running step (R271). -/
theorem State.sumMissed_spoils {s v : State} (hwf : storeWf 0 s.regs = true) (hsent : sumSent s v) (x : Topo) (plot : Nat)
    (substitute : List DWord) {r : RunStep} (hstep : s.tick.step = some r) :
    let t := (v.sumMissed x plot substitute).spoil 3
    t.bit Reg.QNT_SPOIL_CAUSES 2 = true ∧
      (r.voted = false → r.cause = none → t.tick.step = some { r with cause := some (3, s.stitchIx, s.tick.now) }) ∧
      (r.voted = true → s.commit.lateCause = 0 → t.commit.lateCause = 3) := by
  intro t
  obtain ⟨⟨-, -, htick⟩, -, -, -, hstl, himage, huwf⟩ := State.sumMissed_late hwf hsent x plot substitute
  have hustep : (v.sumMissed x plot substitute).tick.step = some r := by rw [htick]; exact hstep
  refine ⟨State.spoil_bit huwf hustep (by decide), fun hvoted hcause => ?_, fun hvoted hc => ?_⟩
  · have hcauses := State.spoil_cause hustep hvoted hcause 3
    rw [State.stitchIx_congr himage (congrArg TickSt.now htick), htick] at hcauses
    simpa using hcauses
  · refine State.spoil_late hustep hvoted ?_ 3
    rw [State.commit, hstl]
    exact hc

/-- A complete result after its node has sent what it sends. -/
theorem State.sumDone_done {s v : State} (hwf : storeWf 0 s.regs = true) (hsent : sumSent s v) (x : Topo) (plot slack : Nat)
    (w : List DWord) :
    let u := v.sumDone x plot slack w
    ((u.sred plot).result = some w ∧ (u.sred plot).closedAt = some s.tick.now ∧ u.tick = s.tick) ∧
      u.pyu = v.pyu ∧ u.regN Reg.CLO_S_DONE = min (s.regN Reg.CLO_S_DONE + 1) (2 ^ 32 - 1) ∧
      u.regN Reg.CLO_S_SLACK_MIN = min (s.regN Reg.CLO_S_SLACK_MIN) slack := by
  intro u
  have htick : v.tick = s.tick := hsent.evolves.keep .tick (by decide)
  obtain ⟨hlaw, hresult, hclosed, hdone, hslack⟩ := State.sumDone_ends (hsent.wf hwf) x plot slack w
  have hutick : u.tick = v.tick := hlaw.evolves.keep .tick (by decide)
  rw [htick] at hclosed
  rw [hsent.regN (by decide)] at hdone hslack
  exact ⟨⟨hresult, hclosed, hutick.trans htick⟩, hlaw.evolves.keep .pyu (by decide), hdone, hslack⟩

/-! ### The commands -/

section

variable {s : State} {red : SReduce} {x : Topo}

theorem exec_classSCombine_differ (htopo : s.topo? = some x) (slack : Nat) :
    exec (.classSCombine red true slack) s = .next (s.cloFatal 4 0 red.plot) := by
  show execClassSCombine red true slack s = _
  rw [execClassSCombine, htopo]
  exact congrArg Host.Outcome.next (if_pos rfl)

theorem exec_classSCombine (htopo : s.topo? = some x) (huse : red.use ≠ .commit) (slack : Nat) :
    exec (.classSCombine red false slack) s = .next (s.combineSum x red slack) := by
  show execClassSCombine red false slack s = _
  rw [execClassSCombine, htopo]
  dsimp only
  rw [if_neg (by decide), if_neg huse]

theorem exec_classSResult_none (htopo : s.topo? = some x) (hnone : s.parentVec x red.plot = none ∨ s.sumOpen red = false)
    (slack : Nat) : exec (.classSResult red slack) s = .next s := by
  show execClassSResult red slack s = _
  rw [execClassSResult, htopo]
  dsimp only
  rcases hv : s.parentVec x red.plot with _ | w
  · rfl
  · rw [hv] at hnone
    have hopen : s.sumOpen red = false := by simpa using hnone
    dsimp only
    rw [if_pos (by simp [hopen])]

theorem exec_classSResult (htopo : s.topo? = some x) (huse : red.use ≠ .commit) (hopen : s.sumOpen red = true) {w : SVec}
    (hw : s.parentVec x red.plot = some w) (slack : Nat) : exec (.classSResult red slack) s =
      .next (if w.incomplete then (s.sendDown red.plot w x.treeChildren).sLate x red
        else (s.sendDown red.plot w x.treeChildren).sDone x red w.data slack) := by
  show execClassSResult red slack s = _
  rw [execClassSResult, htopo]
  dsimp only
  rw [hw]
  dsimp only
  rw [if_neg (by simp [hopen, huse])]

theorem exec_classSDeadline (htopo : s.topo? = some x) (huse : red.use ≠ .commit) :
    exec (.classSDeadline red) s = .next (s.deadlineSum x red) := by
  show execClassSDeadline red s = _
  rw [execClassSDeadline, htopo]
  dsimp only
  rw [if_neg huse]

/-- A combination that is not to be made (R270). -/
theorem State.combineSum_idle (slack : Nat) (h : s.sumOpen red = false ∨ (s.sred red.plot).sent = true ∨
    ¬ (s.ownVector red ≠ [] ∧ s.kidMissing x red.plot = false)) : s.combineSum x red slack = s := by
  unfold State.combineSum
  refine if_pos ?_
  rcases h with h | h | h
  · simp [h]
  · simp [h]
  · by_cases hown : s.ownVector red = []
    · simp [hown]
    · have hkid : s.kidMissing x red.plot = true := by simpa [hown] using h
      simp [hkid]

/-- A combination of all vectors (R270). -/
theorem State.combineSum_whole (slack : Nat) (hopen : s.sumOpen red = true) (hsent : (s.sred red.plot).sent = false)
    (hown : s.ownVector red ≠ []) (hkid : s.kidMissing x red.plot = false) : s.combineSum x red slack =
      match x.treeParent with
      | some p => (s.sendVec p red.plot ⟨s.nodeVector x red, (s.kidParts x red.plot).any fun k => k.2.incomplete⟩).setSred red.plot
          { s.sred red.plot with sent := true }
      | none => if (s.kidParts x red.plot).any fun k => k.2.incomplete then (s.sendDown red.plot
            ⟨s.nodeVector x red, (s.kidParts x red.plot).any fun k => k.2.incomplete⟩ x.treeChildren).sLate x red
          else (s.sendDown red.plot ⟨s.nodeVector x red, (s.kidParts x red.plot).any fun k => k.2.incomplete⟩
            x.treeChildren).sDone x red (s.nodeVector x red) slack := by
  have hempty : (s.ownVector red).isEmpty = false := by simpa using hown
  unfold State.combineSum
  rw [if_neg (by simp [hopen, hsent, hempty, hkid])] <;> rfl

/-- What a node sends at the deadline (R271). -/
def State.deadlineSent (s : State) (x : Topo) (red : SReduce) : State :=
  let w : SVec := ⟨s.nodeVector x red, (s.ownVector red).isEmpty || s.kidMissing x red.plot ||
    (s.kidParts x red.plot).any fun k => k.2.incomplete⟩
  match x.treeParent with
  | some p => if (s.sred red.plot).sent then s else s.sendVec p red.plot w
  | none => s.sendDown red.plot w x.treeChildren

theorem State.deadlineSum_open (hopen : s.sumOpen red = true) :
    s.deadlineSum x red = (s.deadlineSent x red).sLate x red := by
  unfold State.deadlineSum
  rw [if_neg (by simp [hopen])]
  rfl

theorem State.deadlineSum_over (hopen : s.sumOpen red = false) : s.deadlineSum x red = s := by
  unfold State.deadlineSum
  rw [if_pos (by simp [hopen])]

theorem State.deadlineSent_writes (s : State) (x : Topo) (red : SReduce) : sumSent s (s.deadlineSent x red) := by
  unfold State.deadlineSent
  dsimp only
  split
  · exact Writes.ite _ (Writes.refl s) (s.sendVec_writes _ _ _)
  · exact s.sendDown_writes _ _ _

/-- What a node sends up in place of a combination. -/
theorem State.combineSum_up (htopo : s.topo? = some x) (slack : Nat) (hopen : s.sumOpen red = true)
    (hsent : (s.sred red.plot).sent = false) (hown : s.ownVector red ≠ []) (hkid : s.kidMissing x red.plot = false) {p port : Nat}
    (hp : x.treeParent = some p) (hport : s.portOf p = some port) :
    ((s.combineSum x red slack).tx red.plot port).vecs = (s.tx red.plot port).vecs ++
        [vecBytes s.digestMode ⟨s.nodeVector x red, (s.kidParts x red.plot).any fun k => k.2.incomplete⟩] ∧
      ((s.combineSum x red slack).sred red.plot).sent = true ∧ (s.combineSum x red slack).tick = s.tick := by
  rw [State.combineSum_whole slack hopen hsent hown hkid, hp]
  dsimp only
  generalize (⟨s.nodeVector x red, (s.kidParts x red.plot).any fun k => k.2.incomplete⟩ : SVec) = w
  have htx := State.sendVec_tx htopo hport red.plot w
  have hlaw := s.sendVec_writes p red.plot w
  generalize s.sendVec p red.plot w = u at *
  refine ⟨congrArg TxStream.vecs htx, congrArg SRed.sent (storeGet_storeSet_new _ _ _ _ fun h => ?_),
    hlaw.evolves.keep .tick (by decide)⟩
  have hsentAll := congrArg SRed.sent h
  simp at hsentAll

end

/-- Settles O33: each command reduces to what its node sends and to the end of the reduction, complete or missing. -/
theorem classSReduces : Obligations.ClassSReduces := by
  intro red s x hinv htopo huse _ own inc v whole substitute ended down done late
  have hdown (w : SVec) {u : State} (hu : u.pyu = (s.sendDown red.plot w x.treeChildren).pyu) : down u w := by
    intro c hc p hp
    rw [State.tx_of_pyu hu]
    exact State.sendDown_sends htopo red.plot w x.treeChildren hc hp
  have hdone (c : Instr) (w : SVec) (slack : Nat)
      (hexec : exec c s = .next ((s.sendDown red.plot w x.treeChildren).sDone x red w.data slack)) : done c w slack := by
    obtain ⟨hended, hpyu, hcount, hslack⟩ := State.sumDone_done hinv.2 (s.sendDown_writes red.plot w x.treeChildren) x red.plot
      slack w.data
    exact ⟨_, hexec, hended, hdown w hpyu, hcount, hslack⟩
  have hlate (c : Instr) (sent : State → Prop) (u : State) (hu : sumSent s u) (hexec : exec c s = .next (u.sLate x red))
      (hsent : ∀ t : State, t.pyu = u.pyu → sent t) : late c sent := by
    obtain ⟨hended, hpyu, hcount, hevent, -⟩ := State.sumMissed_late hinv.2 hu x red.plot substitute
    refine ⟨_, _, hexec, hended, hsent _ hpyu, hcount, hevent, State.sLate_eq u x red, fun r hplain hstep => ?_⟩
    rw [State.sLate_plain u x hplain]
    exact State.sumMissed_spoils hinv.2 hu x red.plot substitute hstep
  refine ⟨fun slack => ?_, fun slack h => ?_, fun slack hopen hsent hwhole => ⟨fun p port hp hport => ?_, fun hroot => ⟨fun hi => ?_,
    fun hi => ?_⟩⟩, fun slack h => exec_classSResult_none htopo h slack, fun slack w hw hopen => ⟨fun hi => ?_, fun hi => ?_⟩,
    fun hopen => ?_, fun hopen => ?_⟩
  · obtain ⟨hbit, htick, -, hlaw⟩ := State.cloFatal_shows hinv.2 4 0 red.plot
    exact ⟨_, exec_classSCombine_differ htopo slack, hbit, htick, hlaw.evolves.keep .clo (by decide)⟩
  · rw [exec_classSCombine htopo huse, State.combineSum_idle slack h]
  · exact ⟨_, exec_classSCombine htopo huse slack, State.combineSum_up htopo slack hopen hsent hwhole.1 hwhole.2 hp hport⟩
  · refine hdone _ ⟨v, false⟩ slack ?_
    rw [exec_classSCombine htopo huse, State.combineSum_whole slack hopen hsent hwhole.1 hwhole.2, hroot]
    dsimp only
    have hi' : ((s.kidParts x red.plot).any fun k => k.2.incomplete) = false := hi
    rw [hi', if_neg (by decide)]
  · refine hlate _ _ _ (s.sendDown_writes red.plot ⟨v, true⟩ x.treeChildren) ?_ fun t => hdown ⟨v, true⟩
    rw [exec_classSCombine htopo huse, State.combineSum_whole slack hopen hsent hwhole.1 hwhole.2, hroot]
    dsimp only
    have hi' : ((s.kidParts x red.plot).any fun k => k.2.incomplete) = true := hi
    rw [hi', if_pos rfl]
  · refine hdone _ w slack ?_
    rw [exec_classSResult htopo huse hopen hw, hi, if_neg (by decide)]
  · refine hlate _ _ _ (s.sendDown_writes red.plot w x.treeChildren) ?_ fun t => hdown w
    rw [exec_classSResult htopo huse hopen hw, hi, if_pos rfl]
  · rw [exec_classSDeadline htopo huse, State.deadlineSum_over hopen]
  · refine hlate _ _ _ (s.deadlineSent_writes x red) ?_ fun t ht => ⟨fun hroot => ?_, fun p port hp hsent hport => ?_⟩
    · rw [exec_classSDeadline htopo huse, State.deadlineSum_open hopen]
    · refine hdown _ (ht.trans ?_)
      rw [State.deadlineSent, hroot]
    · rw [State.tx_of_pyu ht, State.deadlineSent, hp]
      dsimp only
      rw [hsent, if_neg (by decide), State.sendVec_tx htopo hport]

end Sys2Proof.Machine

/-! O38: stiles and sequence chains (R299 to R306). -/

namespace Sys2Proof.Machine

set_option Elab.async false

/-! ### Releases -/

theorem State.stile_setStile (s : State) (n : Nat) {x : Stile} (h : x ≠ {}) : (s.setStile n x).stile n = x :=
  storeGet_storeSet_new _ _ _ _ h

theorem State.stile_of_stl {s t : State} (h : t.stl.stiles = s.stl.stiles) (n : Nat) : t.stile n = s.stile n := by
  rw [State.stile, h]
  rfl

theorem Stile.ne_default {x : Stile} (h : 0 < x.gen + x.count) : x ≠ {} := fun hx => by
  rw [hx] at h
  exact absurd h (by decide)

theorem State.sendReleases_writes (s : State) (n : Nat) (l : List (Nat × Nat)) : Writes [.out] [] s (s.sendReleases n l) :=
  (s.sendReleases_evolves n l).writes

theorem State.sendReleases_out (s : State) (n : Nat) (l : List (Nat × Nat)) :
    (s.sendReleases n l).out = s.out ++ l.map fun w => .release w.1 n := by
  induction l generalizing s with
  | nil => exact (List.append_nil _).symm
  | cons w l ih =>
    rw [State.sendReleases, ih, List.map_cons]
    exact List.append_assoc _ _ _

/-- The parts and registers of a release. -/
abbrev Part.release : List Part := [.stl, .free, .bel] ++ Part.signalled

abbrev Reg.release : List Nat := Reg.STL_RELEASES :: Reg.trace

/-- A release lets the waiters of its generation go on (R300). -/
theorem State.releaseStile_releases {s : State} (hwf : storeWf 0 s.regs = true) {n : Nat} (hopen : 0 < (s.stile n).gen + (s.stile n).count) :
    (s.releaseStile n).stile n =
        { s.stile n with armed := false, waiters := (s.stile n).waiters.filter fun w => (s.stile n).gen < w.2 } ∧
      (∃ l, (s.releaseStile n).out = s.out ++ l ++
        ((s.stile n).waiters.filter fun w => w.2 ≤ (s.stile n).gen).map fun w => .release w.1 n) ∧
      (s.releaseStile n).regN Reg.STL_RELEASES = min (s.regN Reg.STL_RELEASES + 1) (2 ^ 64 - 1) ∧
      Writes Part.release Reg.release s (s.releaseStile n) := by
  unfold State.releaseStile
  dsimp only
  generalize (s.stile n).waiters.filter (fun w => w.2 ≤ (s.stile n).gen) = go
  generalize n + 2 ^ 32 * ((s.stile n).gen % 2) + 2 ^ 40 * s.stitchIx = payload
  obtain ⟨x, hx⟩ : ∃ x : Stile, x =
    { s.stile n with armed := false, waiters := (s.stile n).waiters.filter fun w => (s.stile n).gen < w.2 } := ⟨_, rfl⟩
  have hxopen : 0 < x.gen + x.count := by rw [hx]; exact hopen
  rw [← hx]
  have h1 : Writes [.stl] [] s (s.setStile n x) := (s.setStile_evolves n x).writes
  have hstile := s.stile_setStile n (Stile.ne_default hxopen)
  have hout1 : (s.setStile n x).out = s.out := rfl
  generalize s.setStile n x = u1 at *
  have h2 := u1.count_writes Reg.STL_RELEASES 64 1
  have hcount := u1.regN_count Reg.STL_RELEASES 64 1 (h1.wf hwf) (by decide)
  have hout2 : (u1.count Reg.STL_RELEASES 64 1).out = u1.out := rfl
  generalize u1.count Reg.STL_RELEASES 64 1 = u2 at *
  have h3 := u2.bel64_writes (dieCnt (stileDie n) 11) 1
  have hout3 : (u2.bel64 (dieCnt (stileDie n) 11) 1).out = u2.out := rfl
  generalize u2.bel64 (dieCnt (stileDie n) 11) 1 = u3 at *
  have h4 := u3.trace_writes (stileDie n) 0x0C 0 payload
  generalize u3.trace (stileDie n) 0x0C 0 payload = u4 at *
  have h5 := u4.sendReleases_writes n go
  have hout5 := u4.sendReleases_out n go
  generalize u4.sendReleases n go = u5 at *
  have h13 : Writes Part.release Reg.release s u3 := ((h1.widen (Q := Part.release) (M := Reg.release)).step h2).step h3
  have h14 : Writes Part.release Reg.release s u4 := h13.step h4 (hl := fun _ h => List.mem_cons_of_mem _ h)
  rw [h1.regN (by decide)] at hcount
  have hkeep : u5.stl.stiles = u1.stl.stiles := by
    have h25 : u5.stl = u1.stl := Eq.trans (h5.evolves.keep .stl (by decide)) (Eq.trans (h4.evolves.keep .stl (by decide))
      (Eq.trans (h3.evolves.keep .stl (by decide)) (h2.evolves.keep .stl (by decide))))
    rw [h25]
  refine ⟨(State.stile_of_stl hkeep n).trans hstile, ?_, ?_, h14.step h5⟩
  · obtain ⟨l, hl⟩ := h4.evolves.out
    refine ⟨l, ?_⟩
    rw [hout5, ← hl, hout3, hout2, hout1]
  · exact (h5.regN (by decide)).trans ((h4.regN (by decide)).trans ((h3.regN (by decide)).trans hcount))

theorem State.stileDecl_congr {s t : State} (h : t.image = s.image) (n : Nat) : t.stileDecl n = s.stileDecl n := by
  rw [State.stileDecl, State.sections?_congr h]
  rfl

theorem State.stileTarget_congr {s t : State} (h : t.image = s.image) (n : Nat) : t.stileTarget n = s.stileTarget n := by
  rw [State.stileTarget, State.stileDecl_congr h, State.jobSize_congr h]
  rfl

theorem State.jobWide_congr {s t : State} (h : t.image = s.image) (n : Nat) : t.jobWide n = s.jobWide n := by
  rw [State.jobWide, State.stileDecl_congr h]
  rfl

/-- A stile short of its target, or job-wide, stays as it is set. -/
theorem State.checkStile_waits {s : State} {n : Nat} {x : Stile} (hx : x ≠ {})
    (h : s.jobWide n = true ∨ x.count < s.stileTarget n) : (s.setStile n x).checkStile n = s.setStile n x := by
  unfold State.checkStile
  rw [State.stile_setStile s n hx, State.stileTarget_congr (s := s) (t := s.setStile n x) rfl,
    State.jobWide_congr (s := s) (t := s.setStile n x) rfl]
  refine if_neg ?_
  rcases h with h | h
  · simp [h]
  · simp [Nat.not_le.mpr h]

/-- A local stile that has reached its target is released. -/
theorem State.checkStile_releases {s : State} {n : Nat} {x : Stile} (hx : x ≠ {}) (harmed : x.armed = true)
    (hlocal : s.jobWide n = false) (h : s.stileTarget n ≤ x.count) :
    (s.setStile n x).checkStile n = (s.setStile n x).releaseStile n := by
  unfold State.checkStile
  rw [State.stile_setStile s n hx, State.stileTarget_congr (s := s) (t := s.setStile n x) rfl,
    State.jobWide_congr (s := s) (t := s.setStile n x) rfl]
  exact if_pos (by simp [harmed, hlocal, h])

/-- One arrival too many is counted. -/
theorem State.overArrival_counts {s : State} (hwf : storeWf 0 s.regs = true) (n : Nat) :
    (s.overArrival n).bit Reg.STL_EVENT 1 = true ∧
      (s.overArrival n).regN Reg.STL_OVER = min (s.regN Reg.STL_OVER + 1) (2 ^ 32 - 1) ∧
      Writes (.bel :: Part.signalled) [Reg.STL_OVER, Reg.STL_EVENT] s (s.overArrival n) := by
  unfold State.overArrival
  have h1 := s.count_writes Reg.STL_OVER 32 1
  have hcount := s.regN_count Reg.STL_OVER 32 1 hwf (by decide)
  generalize s.count Reg.STL_OVER 32 1 = u1 at *
  have h2 := u1.event_writes Reg.STL_EVENT 1
  have hbit := State.bit_event u1 Reg.STL_EVENT 1 (h1.wf hwf) (by decide)
  generalize u1.event Reg.STL_EVENT 1 = u2 at *
  have h3 := u2.bel64_writes (dieCnt (stileDie n) 12) 1
  generalize u2.bel64 (dieCnt (stileDie n) 12) 1 = u3 at *
  exact ⟨(h3.bit (by decide) 1).trans hbit, (h3.regN (by decide)).trans ((h2.regN (by decide)).trans hcount),
    ((h1.widen (Q := .bel :: Part.signalled) (M := [Reg.STL_OVER, Reg.STL_EVENT])).step h2).step h3⟩

theorem State.setStile_touches (s : State) (n : Nat) (x : Stile) : s.touches (s.setStile n x) [.stl] [] :=
  ((s.setStile_evolves n x).writes (P := [.stl])).touches

section

variable {n : Fin 131072} {s : State}

theorem exec_stileArm : exec (.stileArm n) s = .next ((s.setStile n
    { s.stile n with gen := (s.stile n).gen + 1, count := (s.stile n).early, early := 0, armed := true }).checkStile n) := rfl

theorem exec_stileArrive (g : Nat) : exec (.stileArrive n g) s = .next (if g % 2 ≠ (s.stile n).gen % 2 then s.earlyArrival n
    else if (s.stile n).armed then (s.setStile n { s.stile n with count := (s.stile n).count + 1 }).checkStile n
    else s.overArrival n) := rfl

theorem exec_stileWait (g u : Nat) : exec (.stileWait n g u) s =
    .next (if g < (s.stile n).gen ∨ (g = (s.stile n).gen ∧ (s.stile n).armed = false) then s.send (.release u n)
      else s.setStile n { s.stile n with waiters := (s.stile n).waiters ++ [(u, g)] }) := rfl

end

/-- A release of a stile that has just been set, with what it leaves. -/
theorem State.setStile_releases {s : State} (hinv : s.inv) {n : Nat} {x : Stile} (hopen : 0 < x.gen + x.count) :
    ∃ l, ((s.setStile n x).releaseStile n).stile n =
        { x with armed := false, waiters := x.waiters.filter fun w => x.gen < w.2 } ∧
      ((s.setStile n x).releaseStile n).out = s.out ++ l ++ (x.waiters.filter fun w => w.2 ≤ x.gen).map (fun w =>
        .release w.1 n) ∧
      ((s.setStile n x).releaseStile n).regN Reg.STL_RELEASES = min (s.regN Reg.STL_RELEASES + 1) (2 ^ 64 - 1) ∧
      Evolves Part.release s ((s.setStile n x).releaseStile n) := by
  have hset := s.stile_setStile n (Stile.ne_default hopen)
  have hlaw : Writes [.stl] [] s (s.setStile n x) := (s.setStile_evolves n x).writes
  have hout : (s.setStile n x).out = s.out := rfl
  generalize s.setStile n x = u at *
  obtain ⟨hstile, ⟨l, hl⟩, hcount, hrel⟩ := State.releaseStile_releases (hlaw.wf hinv.2) (n := n) (by rw [hset]; exact hopen)
  rw [hset] at hstile hl
  rw [hlaw.regN (by decide)] at hcount
  exact ⟨l, hstile, by rw [hl, hout], hcount, (hlaw.evolves.widen rfl).step hrel.evolves rfl⟩

/-- What arming, an arrival and a wait do to a stile (R300). -/
theorem stiles_run (n : Fin 131072) (s : State) (hinv : s.inv) :
    let x := s.stile n
    let free := fun g => x.waiters.filter (fun w => decide (w.2 ≤ g))
    (s.jobWide n = true ∨ x.early < s.stileTarget n → ∃ t, exec (.stileArm n) s = .next t ∧
      t.stile n = { x with gen := x.gen + 1, count := x.early, early := 0, armed := true } ∧ s.touches t [.stl] []) ∧
    (s.jobWide n = false → s.stileTarget n ≤ x.early → ∃ t l, exec (.stileArm n) s = .next t ∧
      (t.stile n).armed = false ∧ (t.stile n).gen = x.gen + 1 ∧ t.out = s.out ++ l ++ (free (x.gen + 1)).map (fun w =>
        .release w.1 n) ∧ t.regN Reg.STL_RELEASES = min (s.regN Reg.STL_RELEASES + 1) (2 ^ 64 - 1) ∧ s.sameBytes t ∧
      s.keeps t ([.stl, .free, .bel] ++ Part.signalled)) ∧
    (∀ g, g % 2 = x.gen % 2 → x.armed = true → (s.jobWide n = true ∨ x.count + 1 < s.stileTarget n) →
      ∃ t, exec (.stileArrive n g) s = .next t ∧ t.stile n = { x with count := x.count + 1 } ∧ s.touches t [.stl] []) ∧
    (∀ g, g % 2 = x.gen % 2 → x.armed = true → s.jobWide n = false → s.stileTarget n ≤ x.count + 1 →
      ∃ t l, exec (.stileArrive n g) s = .next t ∧ (t.stile n).armed = false ∧ (t.stile n).count = x.count + 1 ∧
        t.out = s.out ++ l ++ (free x.gen).map (fun w => .release w.1 n) ∧ s.sameBytes t) ∧
    (∀ g, g % 2 ≠ x.gen % 2 → x.early < s.stileTarget n → ∃ t, exec (.stileArrive n g) s = .next t ∧
      t.stile n = { x with early := x.early + 1 } ∧ s.touches t [.stl] []) ∧
    (∀ g, ((g % 2 ≠ x.gen % 2 ∧ s.stileTarget n ≤ x.early) ∨ (g % 2 = x.gen % 2 ∧ x.armed = false)) →
      ∃ t, exec (.stileArrive n g) s = .next t ∧ t.stl = s.stl ∧ t.bit Reg.STL_EVENT 1 = true ∧
        t.regN Reg.STL_OVER = min (s.regN Reg.STL_OVER + 1) (2 ^ 32 - 1) ∧
        s.touches t (.bel :: Part.signalled) [Reg.STL_OVER, Reg.STL_EVENT]) ∧
    (∀ g u, (g < x.gen ∨ (g = x.gen ∧ x.armed = false)) →
      exec (.stileWait n g u) s = .next { s with out := s.out ++ [.release u n] }) ∧
    (∀ g u, (x.gen < g ∨ (g = x.gen ∧ x.armed = true)) → ∃ t, exec (.stileWait n g u) s = .next t ∧
      t.stile n = { x with waiters := x.waiters ++ [(u, g)] } ∧ s.touches t [.stl] []) := by
  intro x free
  obtain ⟨opened, hopen⟩ : ∃ y : Stile, y = { x with gen := x.gen + 1, count := x.early, early := 0, armed := true } := ⟨_, rfl⟩
  obtain ⟨more, hmore⟩ : ∃ y : Stile, y = { x with count := x.count + 1 } := ⟨_, rfl⟩
  have harm : 0 < opened.gen + opened.count := by rw [hopen]; exact Nat.add_pos_left (Nat.succ_pos _) _
  have harrive : 0 < more.gen + more.count := by rw [hmore]; exact Nat.add_pos_right _ (Nat.succ_pos _)
  have htight (h : s.stileTarget n ≤ x.count + 1) : s.stileTarget n ≤ more.count := by rw [hmore]; exact h
  refine ⟨fun h => ?_, fun hlocal htarget => ?_, fun g hg harmed h => ?_,
    fun g hg harmed hlocal htarget => ?_, fun g hg hearly => ?_, fun g hg => ?_, fun g u h => ?_, fun g u h => ?_⟩
  · have hexec := exec_stileArm (n := n) (s := s)
    rw [← hopen, State.checkStile_waits (Stile.ne_default harm) (by rw [hopen]; exact h)] at hexec
    rw [← hopen]
    exact ⟨_, hexec, s.stile_setStile n (Stile.ne_default harm), s.setStile_touches n _⟩
  · have hexec := exec_stileArm (n := n) (s := s)
    rw [← hopen, State.checkStile_releases (Stile.ne_default harm) (by rw [hopen]) hlocal (by rw [hopen]; exact htarget)] at hexec
    obtain ⟨l, hstile, hout, hcount, hall⟩ := State.setStile_releases hinv (n := n) harm
    have hgen : opened.gen = x.gen + 1 := by rw [hopen]
    have hwait : opened.waiters = x.waiters := by rw [hopen]
    rw [hgen, hwait] at hout
    exact ⟨_, l, hexec, by rw [hstile], by rw [hstile]; exact hgen, hout, hcount, hall.sameBytes, hall.keep⟩
  · have hexec := exec_stileArrive (n := n) (s := s) g
    rw [if_neg (not_not.mpr hg), if_pos harmed, ← hmore,
      State.checkStile_waits (Stile.ne_default harrive) (by rw [hmore]; exact h)] at hexec
    rw [← hmore]
    exact ⟨_, hexec, s.stile_setStile n (Stile.ne_default harrive), s.setStile_touches n _⟩
  · have hexec := exec_stileArrive (n := n) (s := s) g
    rw [if_neg (not_not.mpr hg), if_pos harmed, ← hmore,
      State.checkStile_releases (Stile.ne_default harrive) (by rw [hmore]; exact harmed) hlocal (htight htarget)] at hexec
    obtain ⟨l, hstile, hout, -, hall⟩ := State.setStile_releases hinv (n := n) harrive
    have hcount : more.count = x.count + 1 := by rw [hmore]
    have hgen : more.gen = x.gen := by rw [hmore]
    have hwait : more.waiters = x.waiters := by rw [hmore]
    rw [hgen, hwait] at hout
    exact ⟨_, l, hexec, by rw [hstile], by rw [hstile]; exact hcount, hout, hall.sameBytes⟩
  · refine ⟨_, exec_stileArrive g, ?_⟩
    rw [if_pos hg, State.earlyArrival, if_neg (Nat.not_le.mpr hearly)]
    refine ⟨s.stile_setStile n fun h => ?_, s.setStile_touches n _⟩
    have hzero := congrArg Stile.early h
    simp at hzero
  · have hexec : exec (.stileArrive n g) s = .next (s.overArrival n) := by
      rw [exec_stileArrive]
      rcases hg with ⟨hg, hearly⟩ | ⟨hg, harmed⟩
      · rw [if_pos hg, State.earlyArrival, if_pos hearly]
      · have harmed' : (s.stile n).armed = false := harmed
        rw [if_neg (not_not.mpr hg), if_neg (by simp [harmed'])]
    obtain ⟨hbit, hcount, hlaw⟩ := State.overArrival_counts hinv.2 n.val
    exact ⟨_, hexec, hlaw.evolves.keep .stl (by decide), hbit, hcount, hlaw.touches⟩
  · rw [exec_stileWait, if_pos h]
    rfl
  · refine ⟨_, exec_stileWait g u, ?_⟩
    have hopen : ¬ (g < x.gen ∨ (g = x.gen ∧ x.armed = false)) := by
      rintro (hlt | ⟨heq, hfalse⟩)
      · omega
      · rcases h with h | ⟨-, harmed⟩
        · omega
        · exact absurd (harmed.symm.trans hfalse) (by decide)
    rw [if_neg hopen]
    refine ⟨s.stile_setStile n fun h => ?_, s.setStile_touches n _⟩
    have hnone := congrArg Stile.waiters h
    simp at hnone

/-! ### Deadlines -/

section

variable {n : Fin 131072} {s : State}

theorem exec_stileTimeout_none (h : s.stileDue n = none) : exec (.stileTimeout n) s = .next s := by
  show execStileTimeout n s = _
  rw [execStileTimeout, h]

theorem exec_stileTimeout {d : StileDecl} {x : Topo} (h : s.stileDue n = some d) (htopo : s.topo? = some x) :
    exec (.stileTimeout n) s = .next (if d.jobWide then s.deadlineSum x (stileSum d)
      else (((s.count Reg.STL_TIMEOUTS 32 1).event Reg.STL_EVENT 0).ledgerFatal 5 n).stopReports) := by
  show execStileTimeout n s = _
  rw [execStileTimeout, h, htopo]

theorem State.stileDue_idle (harmed : (s.stile n).armed = false) (hnone : (s.stile n).waiters = []) : s.stileDue n = none := by
  unfold State.stileDue
  dsimp only
  rw [harmed, hnone]
  rfl

theorem State.stile_of_stileDue {d : StileDecl} (h : s.stileDue n = some d) : d.stile = n := by
  unfold State.stileDue State.stileDecl at h
  dsimp only at h
  split at h
  · obtain ⟨e, hfind, he⟩ := Option.bind_eq_some_iff.mp h
    split at he
    · obtain ⟨y, -, hy⟩ := Option.bind_eq_some_iff.mp hfind
      have hstile := List.find?_some hy
      rw [← Option.some.inj he]
      simpa using hstile
    · exact (nomatch he)
  · exact (nomatch h)

end

/-- A local stile past its deadline (R302). -/
theorem localTimeout {s : State} (hinv : s.inv) (n : Nat) :
    let t := (((s.count Reg.STL_TIMEOUTS 32 1).event Reg.STL_EVENT 0).ledgerFatal 5 n).stopReports
    t.stl = s.stl ∧ t.tick = { s.tick with stopped := true } ∧ t.bit Reg.STL_EVENT 0 = true ∧
      t.regN Reg.STL_TIMEOUTS = min (s.regN Reg.STL_TIMEOUTS + 1) (2 ^ 32 - 1) ∧
      s.keeps t ([.tick, .hlt] ++ Part.signalled) ∧ s.sameBytes t := by
  intro t
  obtain ⟨w, ht⟩ : ∃ w : State, w = ((s.count Reg.STL_TIMEOUTS 32 1).event Reg.STL_EVENT 0).ledgerFatal 5 n := ⟨_, rfl⟩
  have htw : t = w.stopReports := congrArg State.stopReports ht.symm
  have h1 := s.count_writes Reg.STL_TIMEOUTS 32 1
  have hcount := s.regN_count Reg.STL_TIMEOUTS 32 1 hinv.2 (by decide)
  generalize s.count Reg.STL_TIMEOUTS 32 1 = u1 at *
  have h2 := u1.event_writes Reg.STL_EVENT 0
  have hbit := State.bit_event u1 Reg.STL_EVENT 0 (h1.wf hinv.2) (by decide)
  generalize u1.event Reg.STL_EVENT 0 = u2 at *
  have h3 := u2.ledgerFatal_writes 5 n
  rw [← ht] at h3
  have h13 : Writes (.hlt :: Part.signalled) ([Reg.STL_TIMEOUTS, Reg.STL_EVENT] ++ Reg.ledger) s w :=
    ((h1.widen (Q := .hlt :: Part.signalled) (M := [Reg.STL_TIMEOUTS, Reg.STL_EVENT] ++ Reg.ledger)).step h2).step h3
  have htick : w.tick = s.tick := h13.evolves.keep .tick (by decide)
  have hall : Evolves ([.tick, .hlt] ++ Part.signalled) s w.stopReports :=
    (h13.evolves.widen rfl).step (State.evolves_tick w _) rfl
  rw [htw]
  exact ⟨h13.evolves.keep .stl (by decide), congrArg (fun x : TickSt => { x with stopped := true }) htick,
    (h3.bit (by decide) 0).trans hbit, (h3.regN (by decide)).trans ((h2.regN (by decide)).trans hcount), hall.keep,
    hall.sameBytes⟩

theorem State.spoil_stiles (s : State) (c : Nat) : (s.spoil c).stl.stiles = s.stl.stiles := by
  have htrace (u : State) (a b : Nat) : (u.traceBoth a b).stl = u.stl := (u.traceBoth_writes a b).evolves.keep .stl (by decide)
  rcases h : s.tick.step with _ | r
  · rw [State.spoil_of_none h]
  · rw [State.spoil_of_some h]
    split
    · split
      · rfl
      · rfl
    · split
      · rfl
      · rw [htrace]
        rfl

/-- What a release leaves of a stile that was open, or released already in this generation. -/
theorem releaseStile_after {s : State} (hwf : storeWf 0 s.regs = true) {n : Nat} (hgen : 0 < (s.stile n).gen) :
    ((s.releaseStile n).stile n).armed = false ∧
      ((s.releaseStile n).stile n).gen = (s.stile n).gen ∧
      (∀ w ∈ (s.stile n).waiters, w.2 ≤ (s.stile n).gen → .release w.1 n ∈ (s.releaseStile n).out) ∧
      (∀ w ∈ ((s.releaseStile n).stile n).waiters, w ∈ (s.stile n).waiters ∧ (s.stile n).gen < w.2) := by
  obtain ⟨hstile, ⟨l, hl⟩, -, -⟩ := State.releaseStile_releases hwf (n := n) (by omega)
  refine ⟨by rw [hstile], by rw [hstile], fun w hw hle => ?_, fun w hw => ?_⟩
  · rw [hl]
    exact List.mem_append_right _ (List.mem_map.mpr ⟨w, List.mem_filter.mpr ⟨hw, by simpa using hle⟩, rfl⟩)
  · rw [hstile] at hw
    have hmem := List.mem_filter.mp hw
    exact ⟨hmem.1, by simpa using hmem.2⟩

/-- A job-wide stile at its deadline (R302): its waiters go, and the step is spoiled. -/
theorem jobTimeout {s : State} (hinv : s.inv) {n : Fin 131072} {d : StileDecl} (x : Topo) (hd : d.stile = n)
    (hgen : 0 < (s.stile n).gen) :
    let t := (s.deadlineSent x (stileSum d)).sLate x (stileSum d)
    (t.stile n).armed = false ∧
      (∀ w ∈ (s.stile n).waiters, w.2 ≤ (s.stile n).gen → .release w.1 n ∈ t.out ∧ w ∉ (t.stile n).waiters) ∧
      t.regN Reg.CLO_S_LATE = min (s.regN Reg.CLO_S_LATE + 1) (2 ^ 32 - 1) ∧
      (∀ r, s.tick.step = some r → t.bit Reg.QNT_SPOIL_CAUSES 2 = true ∧
        (r.voted = false → r.cause = none → ∃ r', t.tick.step = some r' ∧ r'.cause = some (3, s.stitchIx, s.tick.now))) := by
  intro t
  have hsent := s.deadlineSent_writes x (stileSum d)
  obtain ⟨v, hv⟩ : ∃ v : State, v = s.deadlineSent x (stileSum d) := ⟨_, rfl⟩
  rw [← hv] at hsent
  obtain ⟨-, -, hlate, -, hstl, -, huwf⟩ := State.sumMissed_late hinv.2 hsent x d.plot [0]
  have hspoils (r : RunStep) := State.sumMissed_spoils hinv.2 hsent x d.plot [0] (r := r)
  have ht : t = (((v.sumMissed x d.plot [0]).spoil 3).useResult (stileSum d) [0]).releaseStile n := by
    rw [← hd, hv]
    rfl
  generalize v.sumMissed x d.plot [0] = u at *
  have hspoil := u.spoil_writes 3
  have hstile : (u.spoil 3).stile n = s.stile n := State.stile_of_stl ((u.spoil_stiles 3).trans (by rw [hstl])) n
  have hlate' : (u.spoil 3).regN Reg.CLO_S_LATE = min (s.regN Reg.CLO_S_LATE + 1) (2 ^ 32 - 1) :=
    (hspoil.regN (by decide)).trans hlate
  have hwf := hspoil.wf huwf
  generalize u.spoil 3 = y at *
  have hygen : 0 < (y.stile n).gen := by rw [hstile]; exact hgen
  have hone := releaseStile_after hwf hygen
  obtain ⟨-, -, -, hrel1⟩ := State.releaseStile_releases hwf (n := n) (by omega)
  have huse : y.useResult (stileSum d) [0] = if y.jobSize ≤ 0 then y.releaseStile n else y := by
    rw [← hd]
    rfl
  obtain ⟨z, hz, hzw, hzgen, hzout, hzkeep⟩ : ∃ z : State, z = y.useResult (stileSum d) [0] ∧ Writes Part.release Reg.release y z ∧
      (z.stile n).gen = (y.stile n).gen ∧
      (∀ w ∈ (y.stile n).waiters, w.2 ≤ (y.stile n).gen → .release w.1 n ∈ z.out ∨ w ∈ (z.stile n).waiters) ∧
      (∀ w ∈ (z.stile n).waiters, w ∈ (y.stile n).waiters) := by
    refine ⟨_, rfl, ?_, ?_⟩
    · rw [huse]
      exact Writes.ite _ hrel1 (Writes.refl y)
    · rw [huse]
      split
      · exact ⟨hone.2.1, fun w hw hle => Or.inl (hone.2.2.1 w hw hle), fun w hw => (hone.2.2.2 w hw).1⟩
      · exact ⟨rfl, fun w hw _ => Or.inr hw, fun w hw => hw⟩
  rw [← hz] at ht
  have hzwf := hzw.wf hwf
  have hzgen' : 0 < (z.stile n).gen := by rw [hzgen]; exact hygen
  obtain ⟨harmed, -, hout, hleft⟩ := releaseStile_after hzwf hzgen'
  obtain ⟨-, -, -, hrel2⟩ := State.releaseStile_releases hzwf (n := n) (by omega)
  have hboth : Writes Part.release Reg.release y (z.releaseStile n) := hzw.step hrel2 (hl := fun _ h => h)
  rw [ht]
  refine ⟨harmed, fun w hw hle => ⟨?_, fun hin => ?_⟩, (hboth.regN (by decide)).trans hlate', fun r hr => ?_⟩
  · rw [← hstile] at hw hle
    rcases hzout w hw hle with h | h
    · exact hrel2.evolves.out.subset h
    · exact hout w h (by rw [hzgen]; exact hle)
  · have hlt := (hleft w hin).2
    rw [hzgen, hstile] at hlt
    omega
  · obtain ⟨hbit, hcause, -⟩ := hspoils r hr
    have htick : (z.releaseStile n).tick = y.tick := hboth.evolves.keep .tick (by decide)
    exact ⟨(hboth.bit (by decide) 2).trans hbit, fun hvoted hnone => ⟨_, by rw [htick]; exact hcause hvoted hnone, rfl⟩⟩

/-! ### Sequence chains -/

section

variable {s : State} (chain : Nat)

theorem exec_chainAppend_full {record : List Byte} (h : (s.chain chain).limit < (s.chain chain).used + record.length) :
    exec (.chainAppend chain record) s = .next s.chainFull := by
  show execChainAppend chain record s = _
  unfold execChainAppend
  dsimp only
  rw [if_pos h]

theorem exec_chainAppend {record : List Byte} {p : Nat} (hp : s.chainPlot chain = some p)
    (h : (s.plot p).used + record.length ≤ (s.plot p).limit) : exec (.chainAppend chain record) s =
      .next ((s.devWrite .scheduled ((s.plot p).base + (s.plot p).used) record).setPlot p
        { s.plot p with used := (s.plot p).used + record.length }) := by
  have hchain : s.chain chain = s.plot p := by
    rw [State.chain, hp]
    rfl
  show execChainAppend chain record s = _
  unfold execChainAppend
  dsimp only
  rw [hchain, if_neg (Nat.not_lt.mpr h), hp]

theorem State.chainFull_counts (hwf : storeWf 0 s.regs = true) :
    s.chainFull.bit Reg.PLT_EVENT 0 = true ∧
      s.chainFull.regN Reg.PLT_CHAIN_FULL = min (s.regN Reg.PLT_CHAIN_FULL + 1) (2 ^ 32 - 1) ∧
      s.touches s.chainFull Part.signalled [Reg.PLT_CHAIN_FULL, Reg.PLT_EVENT] := by
  unfold State.chainFull
  have h1 := s.count_writes Reg.PLT_CHAIN_FULL 32 1
  have hcount := s.regN_count Reg.PLT_CHAIN_FULL 32 1 hwf (by decide)
  generalize s.count Reg.PLT_CHAIN_FULL 32 1 = u1 at *
  have h2 := u1.event_writes Reg.PLT_EVENT 0
  exact ⟨State.bit_event u1 Reg.PLT_EVENT 0 (h1.wf hwf) (by decide), (h2.regN (by decide)).trans hcount,
    ((h1.widen (Q := Part.signalled) (M := [Reg.PLT_CHAIN_FULL, Reg.PLT_EVENT])).step h2).touches⟩

end

/-- Settles O38: the stiles' generations, their deadlines, and the chains. -/
theorem stilesAndChains : Obligations.StilesAndChains := by
  refine ⟨stiles_run, fun n s hinv => ⟨fun harmed hnone => exec_stileTimeout_none (State.stileDue_idle harmed hnone),
    exec_stileTimeout_none, fun d x hdue htopo hlocal => ?_, fun d x hdue htopo hwide => ?_⟩,
    fun chain s hinv => ⟨fun p record hp hrecord hroom => ?_, fun record h => ?_, fun offset length => ?_⟩⟩
  · refine ⟨_, exec_stileTimeout hdue htopo, ?_⟩
    rw [if_neg (by simp [hlocal])]
    exact localTimeout hinv n
  · have hexec := exec_stileTimeout hdue htopo
    rw [if_pos hwide] at hexec
    refine ⟨hexec.trans (exec_classSDeadline htopo (red := stileSum d) (by simp [stileSum])).symm, fun hopen hgen => ?_⟩
    rw [State.deadlineSum_open hopen] at hexec
    exact ⟨_, hexec, jobTimeout hinv x (State.stile_of_stileDue hdue) hgen⟩
  · refine ⟨_, exec_chainAppend chain hp hroom, ?_⟩
    have hlaw := s.devWrite_writes .scheduled ((s.plot p).base + (s.plot p).used) record
    generalize s.devWrite .scheduled ((s.plot p).base + (s.plot p).used) record = u at *
    have hset := u.setPlot_evolves p { s.plot p with used := (s.plot p).used + record.length }
    have hall : Evolves ([.mem, .hbm, .stl, .bel] ++ Part.signalled) s
        (u.setPlot p { s.plot p with used := (s.plot p).used + record.length }) := (hlaw.evolves.widen rfl).step hset rfl
    refine ⟨storeGet_storeSet_new _ _ _ _ fun h => ?_, hset.sameBytes, hall.keep⟩
    have hused := congrArg Plot.used h
    have hpos : 0 < record.length := List.length_pos_iff.mpr hrecord
    simp at hused
    exact hrecord hused.2
  · exact ⟨_, exec_chainAppend_full chain h, State.chainFull_counts hinv.2⟩
  · refine ⟨s.chainBytes (s.chain chain) offset length, rfl, by simp [State.chainBytes], fun i hi => ?_⟩
    rw [State.chainBytes, List.getD_eq_getElem _ _ (by simpa using hi), List.getElem_map, List.getElem_range]

end Sys2Proof.Machine

/-! O34: ports train, meet their partner and fail (R275, R276, R282, R285, R290, R291). -/

namespace Sys2Proof.Machine

set_option Elab.async false

theorem Port.ne_default_of_st {x : Port} (h : x.st ≠ portOff) : x ≠ {} := fun hx => h (by rw [hx]; rfl)

/-- The parts and registers of a port's failure. -/
abbrev Part.portFail : List Part := .hlt :: .tick :: .pyu :: Part.signalled

abbrev Reg.portFail : List Nat := Reg.PYU_EVENT :: Reg.ledger

/-- A port that fails shows, and stops the reports of a job (R282). -/
theorem State.portFail_fails {s : State} (hwf : storeWf 0 s.regs = true) {p : Nat} (hst : (s.port p).st ≠ portFailed) :
    (s.portFail p).port p = { s.port p with st := portFailed } ∧ (∀ q, q ≠ p → (s.portFail p).port q = s.port q) ∧
      (s.portFail p).bit Reg.PYU_EVENT 0 = true ∧
      (∀ i, i < 64 → s.bit Reg.PYU_EVENT i = true → (s.portFail p).bit Reg.PYU_EVENT i = true) ∧
      (s.portFail p).tick = { s.tick with stopped := s.tick.stopped || s.jobLive } ∧
      Writes Part.portFail Reg.portFail s (s.portFail p) := by
  unfold State.portFail
  rw [if_neg hst]
  dsimp only
  obtain ⟨x, hx⟩ : ∃ x : Port, x = { s.port p with st := portFailed } := ⟨_, rfl⟩
  have hxne : x ≠ {} := Port.ne_default_of_st (by rw [hx]; exact (by decide : portFailed ≠ portOff))
  rw [← hx]
  have h1 : Writes [.pyu] [] s (s.setPort p x) := (s.setPort_evolves p x).writes
  have hport := s.port_setPort_new p hxne
  have hother (q : Nat) (hq : q ≠ p) := s.port_setPort_ne p x hq
  generalize s.setPort p x = u1 at *
  have h2 := u1.event_writes Reg.PYU_EVENT 0
  have hbit := State.bit_event u1 Reg.PYU_EVENT 0 (h1.wf hwf) (by decide)
  have hmono (i : Nat) (hi : i < 64) := State.bit_event_mono (h1.wf hwf) (o := Reg.PYU_EVENT) (i := i) 0 (by decide)
  generalize u1.event Reg.PYU_EVENT 0 = u2 at *
  have h3 := u2.ledgerFatal_writes 4 p
  generalize u2.ledgerFatal 4 p = u3 at *
  have h13 : Writes (.hlt :: .pyu :: Part.signalled) Reg.portFail s u3 :=
    ((h1.widen (Q := .hlt :: .pyu :: Part.signalled) (M := Reg.portFail)).step h2).step h3
  have hpyu : u3.pyu = u1.pyu := Eq.trans (h3.evolves.keep .pyu (by decide)) (h2.evolves.keep .pyu (by decide))
  have htick : u3.tick = s.tick := h13.evolves.keep .tick (by decide)
  have hlast : ∃ v : State, v = (if s.jobLive = true then u3.stopReports else u3) ∧ v.pyu = u3.pyu ∧
      v.tick = { u3.tick with stopped := u3.tick.stopped || s.jobLive } ∧ Writes [.tick] [] u3 v := by
    refine ⟨_, rfl, ?_⟩
    cases s.jobLive
    · rw [if_neg (by decide)]
      exact ⟨rfl, by rw [Bool.or_false], Writes.refl u3⟩
    · rw [if_pos rfl]
      exact ⟨rfl, by rw [Bool.or_true]; rfl, (State.evolves_tick u3 _).writes⟩
  obtain ⟨v, hv, hvpyu, hvtick, hvw⟩ := hlast
  rw [← hv]
  have hvport (q : Nat) : v.port q = u1.port q := by
    rw [State.port, hvpyu, hpyu]
    rfl
  refine ⟨(hvport p).trans hport, fun q hq => (hvport q).trans (hother q hq), ?_, fun i hi h => ?_, ?_, ?_⟩
  · exact (hvw.bit (by decide) 0).trans ((h3.bit (by decide) 0).trans hbit)
  · exact (hvw.bit (by decide) i).trans ((h3.bit (by decide) i).trans (hmono i hi ((h1.bit (by decide) i).trans h)))
  · rw [hvtick, htick]
  · exact (h13.widen (Q := Part.portFail) (hl := fun _ h => h)).step hvw

/-! ### Training -/

theorem exec_portTrainingDone {p : Fin 16} {lanes : BitVec 8} {s : State} (hst : (s.port p).st = portTraining)
    (hwidth : (s.port p).width ≠ 0)
    (hlanes : (physLanes (s.port p).map (s.port p).width).all (fun l => lanes.getLsbD l) = true) :
    exec (.portTrainingDone p lanes) s =
      .next ((s.setPort p { s.port p with locked := lanes, aligned := true }).pushFrame p (helloFrame p)) := by
  show execPortTrainingDone p lanes s = _
  unfold execPortTrainingDone
  exact congrArg Host.Outcome.next (if_pos ⟨hst, hwidth, hlanes⟩)

/-- The beacon message in progress at a port, and those after it (R286). -/
def Port.message (x : Port) : Nat × List Nat :=
  if x.txSeq % 8 = 0 then (x.beacons.headD 0, x.beacons.drop 1) else (x.beacon, x.beacons)

/-- The new frame of a port (R278). -/
def Port.newFrame (x : Port) (body : Frame) : Frame :=
  { body with
    seq := x.txSeq, ack := x.rxSeq, nak := x.asking, creditPlot := (takeReturn x.returns).1.1,
    creditCount := (takeReturn x.returns).1.2, beacon := BitVec.ofNat 32 (x.message.1 / 2 ^ (32 * (x.txSeq % 8))) }

/-- The port after its new frame. -/
def Port.pushed (x : Port) (body : Frame) : Port :=
  { x with
    txSeq := nextSeq x.txSeq, sent := x.sent ++ [(x.newFrame body, 0)], returns := (takeReturn x.returns).2,
    beacon := x.message.1, beacons := x.message.2 }

theorem State.pushFrame_eq (s : State) (p : Nat) (body : Frame) : s.pushFrame p body =
    (((s.setPort p ((s.port p).pushed body)).bel64 (portCnt p 4) (s.port p).asking.toNat).bel64 (portCnt p 15)
      (takeReturn (s.port p).returns).1.2).send (.frame p ((s.port p).newFrame body)) := rfl

/-- A new frame goes out, and its port notes it (R278). -/
theorem State.pushFrame_sends (s : State) {p : Nat} (hst : (s.port p).st ≠ portOff) (body : Frame) :
    (s.pushFrame p body).out = s.out ++ [.frame p ((s.port p).newFrame body)] ∧
      (s.pushFrame p body).port p = (s.port p).pushed body ∧ ∀ q, q ≠ p → (s.pushFrame p body).port q = s.port q := by
  have hne : (s.port p).pushed body ≠ {} := Port.ne_default_of_st hst
  rw [State.pushFrame_eq]
  generalize (s.port p).pushed body = x at *
  have hport (u : State) (q j k j' k' : Nat) (o : Output) : (((u.bel64 j k).bel64 j' k').send o).port q = u.port q := rfl
  exact ⟨rfl, (hport _ _ _ _ _ _ _).trans (s.port_setPort_new p hne),
    fun q hq => (hport _ _ _ _ _ _ _).trans (s.port_setPort_ne p x hq)⟩

/-! ### Hello -/

section

variable {p : Fin 16} {s : State}

theorem exec_helloFrame (peer : DWord) (peerPort : Fin 16)
    (h : ((s.port p).st = portTraining ∧ (s.port p).aligned = true) ∨ (s.port p).st = portUp) :
    exec (.helloFrame p peer peerPort) s = .next
      (if (s.port p).known && decide ((s.port p).peerId ≠ peer) && s.jobLive then
        ((s.meetPeer p peer peerPort).event Reg.PYU_EVENT 7).portFail p
      else ((s.meetPeer p peer peerPort).setPort p { (s.meetPeer p peer peerPort).port p with st := portUp }).progressStart) := by
  show execHelloFrame p peer peerPort s = _
  unfold execHelloFrame
  exact congrArg Host.Outcome.next (if_pos h)

theorem State.progressStart_idle (h : s.jobLive = false) : s.progressStart = s := by
  have hst : s.image.st ≠ .armed := by
    simp only [State.jobLive, decide_eq_false_iff_not, not_or] at h
    exact h.2
  unfold State.progressStart
  split
  next harmed _ => exact absurd harmed hst
  next => rfl

/-- The partner of a port is recorded. -/
theorem State.port_meetPeer (hst : (s.port p).st ≠ portOff) (peer : DWord) (peerPort : Nat) :
    (s.meetPeer p peer peerPort).port p =
      { s.port p with peerId := peer, peerPort := peerPort, known := true, rxSeq := nextSeq (s.port p).rxSeq } :=
  s.port_setPort_new _ (Port.ne_default_of_st hst)

/-- A hello outside a job (R276). -/
theorem helloFrame_meets (hst : (s.port p).st ≠ portOff) (hlive : s.jobLive = false) (peer : DWord) (peerPort : Nat) :
    let t := ((s.meetPeer p peer peerPort).setPort p { (s.meetPeer p peer peerPort).port p with st := portUp }).progressStart
    (t.port p).st = portUp ∧ (t.port p).peerId = peer ∧ (t.port p).peerPort = peerPort ∧ (t.port p).known = true ∧
      (t.port p).rxSeq = ((s.port p).rxSeq + 1) % 4096 ∧ s.touches t [.pyu] [] := by
  intro t
  have ht : t = (s.meetPeer p peer peerPort).setPort p { (s.meetPeer p peer peerPort).port p with st := portUp } :=
    State.progressStart_idle hlive
  have hport : t.port p = { (s.meetPeer p peer peerPort).port p with st := portUp } := by
    rw [ht]
    exact State.port_setPort_new _ _ (Port.ne_default_of_st (by decide : portUp ≠ portOff))
  rw [State.port_meetPeer hst] at hport
  have hlaw : Writes [.pyu] [] s t := by
    rw [ht]
    exact (s.meetPeer_evolves p peer peerPort).writes.step (State.setPort_evolves _ p _).writes
  rw [hport]
  exact ⟨rfl, rfl, rfl, rfl, rfl, hlaw.touches⟩

/-- A changed identity under a job (R285). -/
theorem helloFrame_fails (hwf : storeWf 0 s.regs = true) (hoff : (s.port p).st ≠ portOff) (hst : (s.port p).st ≠ portFailed)
    (hlive : s.jobLive = true) (peer : DWord) (peerPort : Nat) :
    ∀ t, t = ((s.meetPeer p peer peerPort).event Reg.PYU_EVENT 7).portFail p → (t.port p).st = portFailed ∧ t.bit Reg.PYU_EVENT 7 = true ∧ t.bit Reg.PYU_EVENT 0 = true ∧
      t.tick = { s.tick with stopped := true } ∧ t.image = s.image := by
  intro t ht
  have hmeet := State.port_meetPeer hoff peer peerPort
  have h1 : Writes [.pyu] [] s (s.meetPeer p peer peerPort) := (s.meetPeer_evolves p peer peerPort).writes
  generalize s.meetPeer p peer peerPort = u1 at *
  have h2 := u1.event_writes Reg.PYU_EVENT 7
  have hbit := State.bit_event u1 Reg.PYU_EVENT 7 (h1.wf hwf) (by decide)
  have hport : (u1.event Reg.PYU_EVENT 7).port p = u1.port p := by
    have hpyu : (u1.event Reg.PYU_EVENT 7).pyu = u1.pyu := h2.evolves.keep .pyu (by decide)
    rw [State.port, hpyu]
    rfl
  generalize u1.event Reg.PYU_EVENT 7 = u2 at *
  have h12 : Evolves (.pyu :: Part.signalled) s u2 := (h1.evolves.widen rfl).step h2.evolves rfl
  have htick2 : u2.tick = s.tick := h12.keep .tick (by decide)
  have himage2 : u2.image = s.image := h12.keep .image (by decide)
  have hlive2 : u2.jobLive = true := by
    rw [State.jobLive, himage2]
    exact hlive
  obtain ⟨hfail, -, hzero, hmono, htick, hlaw⟩ := State.portFail_fails (h12.regs hwf) (p := p.val)
    (by rw [hport, hmeet]; exact hst)
  rw [hlive2, htick2, Bool.or_true] at htick
  rw [ht]
  exact ⟨by rw [hfail], hmono 7 (by decide) hbit, hzero, htick, Eq.trans (hlaw.evolves.keep .image (by decide)) himage2⟩

end

/-! ### The loss of a lane -/

theorem exec_laneLockLoss (p : Fin 16) (lane : Fin 8) (s : State) : exec (.laneLockLoss p lane) s = .next
    (if (s.port p).st = portUp ∧ (physLanes (s.port p).map (s.port p).width).contains lane.val then (s.setPort p
      { s.port p with locked := (s.port p).locked &&& ~~~(BitVec.ofNat 8 (2 ^ lane.val)) }).portFail p
    else s.setPort p { s.port p with locked := (s.port p).locked &&& ~~~(BitVec.ofNat 8 (2 ^ lane.val)) }) := rfl

theorem unlocked_getLsbD (l : BitVec 8) (lane : Fin 8) : (l &&& ~~~(BitVec.ofNat 8 (2 ^ lane.val))).getLsbD lane = false := by
  revert l lane
  decide

/-- A lane that loses its lock (R282). -/
theorem laneLockLoss_loses (p : Fin 16) (lane : Fin 8) (s : State) (hinv : s.inv) (hup : (s.port p).st = portUp) :
    ∃ t, exec (.laneLockLoss p lane) s = .next t ∧ (t.port p).locked.getLsbD lane = false ∧
      (lane.val ∈ physLanes (s.port p).map (s.port p).width → (t.port p).st = portFailed ∧ t.bit Reg.PYU_EVENT 0 = true ∧
        t.tick.stopped = (s.tick.stopped || s.jobLive)) ∧
      (lane.val ∉ physLanes (s.port p).map (s.port p).width → (t.port p).st = portUp ∧ s.touches t [.pyu] []) ∧
      (∀ q, q ≠ p.val → t.port q = s.port q) := by
  have hexec := exec_laneLockLoss p lane s
  have hlock := unlocked_getLsbD (s.port p).locked lane
  generalize (s.port p).locked &&& ~~~(BitVec.ofNat 8 (2 ^ lane.val)) = l at *
  have hlaw : Writes [.pyu] [] s (s.setPort p { s.port p with locked := l }) := (s.setPort_evolves p _).writes
  have hport := s.port_setPort_new p (x := { s.port p with locked := l })
    (Port.ne_default_of_st (by rw [hup]; exact (by decide : portUp ≠ portOff)))
  have hother (q : Nat) (hq : q ≠ p.val) := s.port_setPort_ne p { s.port p with locked := l } hq
  have hlive : (s.setPort p { s.port p with locked := l }).jobLive = s.jobLive := rfl
  have htick : (s.setPort p { s.port p with locked := l }).tick = s.tick := rfl
  generalize s.setPort p { s.port p with locked := l } = u at *
  by_cases hin : lane.val ∈ physLanes (s.port p).map (s.port p).width
  · rw [if_pos ⟨hup, by simpa using hin⟩] at hexec
    obtain ⟨hfail, hrest, hzero, -, hstop, -⟩ := State.portFail_fails (hlaw.wf hinv.2) (p := p.val)
      (by rw [hport]; exact fun h => absurd (hup.symm.trans h) (by decide))
    refine ⟨_, hexec, by rw [hfail, hport]; exact hlock, fun _ => ⟨by rw [hfail], hzero, ?_⟩, fun h => absurd hin h,
      fun q hq => (hrest q hq).trans (hother q hq)⟩
    rw [hstop, htick, hlive]
  · rw [if_neg (fun h => hin (by simpa using h.2))] at hexec
    exact ⟨_, hexec, by rw [hport]; exact hlock, fun h => absurd h hin, fun _ => ⟨by rw [hport]; exact hup, hlaw.touches⟩,
      hother⟩

/-! ### The host's commands -/

theorem exec_retrain {s : State} (h : s.hosted) : exec .retrain s = .next s.retrain :=
  congrArg Host.Outcome.next (State.onHost_of_hosted h _)

theorem exec_wakeSend {s : State} (h : s.hosted) : exec .wakeSend s = .next s.wakeSend :=
  congrArg Host.Outcome.next (State.onHost_of_hosted h _)

theorem State.retrain_idle {s : State} (h : s.jobLive = true) : s.retrain = s := by
  unfold State.retrain
  exact if_neg (by simp [h])

theorem State.retrain_trains {s : State} (h : s.jobLive = false) {p : Nat} (hp : s.fld Reg.PYU_SEL 3 0 = p)
    (hst : (s.port p).st = portFailed ∨ (s.port p).st = portUp ∨ (s.port p).st = portTraining) :
    s.retrain = s.trainPort p := by
  unfold State.retrain
  dsimp only
  rw [hp, if_pos (by simp [h, hst])]

/-- A port begins its training afresh (R275, R298). -/
theorem State.trainPort_trains (s : State) (p : Nat) :
    ((s.trainPort p).port p).st = portTraining ∧ ((s.trainPort p).port p).map = s.laneMap p ∧
      ((s.trainPort p).port p).sent = [] ∧ (∀ q, q ≠ p → (s.trainPort p).port q = s.port q) ∧
      s.touches (s.trainPort p) [.pyu] [] := by
  have hlaw : Writes [.pyu] [] s (s.trainPort p) := (s.trainPort_evolves p).writes
  obtain ⟨hst, hmap⟩ := s.port_trainPort p
  refine ⟨hst, hmap, ?_, fun q hq => s.port_setPort_ne p _ hq, hlaw.touches⟩
  rw [State.trainPort, State.port_setPort_new _ _ fun h => absurd (congrArg Port.st h) (by decide : portTraining ≠ portOff)]

/-- Settles O34: the states of a port through training, hello, failure and retraining. -/
theorem portsTrainMeetAndFail : Obligations.PortsTrainMeetAndFail := by
  intro p s hinv
  refine ⟨fun lanes hst hwidth hlanes => ?_, fun peer peerPort hmet => ⟨fun hlive => ?_, fun hlive hknown hpeer => ?_⟩,
    fun lane hup => laneLockLoss_loses p lane s hinv hup, fun hhost hlive => ?_, fun hhost hlive hsel hst => ?_, exec_wakeSend⟩
  · have hexec := exec_portTrainingDone hst hwidth hlanes
    have hset := s.port_setPort_new p (x := { s.port p with locked := lanes, aligned := true })
      (Port.ne_default_of_st (by rw [hst]; exact (by decide : portTraining ≠ portOff)))
    have hother (q : Nat) (hq : q ≠ p.val) := s.port_setPort_ne p { s.port p with locked := lanes, aligned := true } hq
    have hlaw : Writes [.pyu] [] s (s.setPort p { s.port p with locked := lanes, aligned := true }) :=
      (s.setPort_evolves p _).writes
    have hout : (s.setPort p { s.port p with locked := lanes, aligned := true }).out = s.out := rfl
    generalize s.setPort p { s.port p with locked := lanes, aligned := true } = u at *
    obtain ⟨hsend, hpushed, hrest⟩ := u.pushFrame_sends (p := p) (by rw [hset, hst]; decide) (helloFrame p)
    have hall : Writes [.pyu, .out, .bel] [] s (u.pushFrame p (helloFrame p)) :=
      (hlaw.widen rfl).step (u.pushFrame_evolves p (helloFrame p)).writes
    rw [hset] at hsend hpushed
    refine ⟨_, _, hexec, hsend.trans (by rw [hout]), rfl, ?_⟩
    rw [hpushed]
    exact ⟨rfl, rfl, rfl, rfl, hst, rfl, rfl, fun q hq => (hrest q hq).trans (hother q hq),
      hall.touches⟩
  · have hoff : (s.port p).st ≠ portOff := by
      rcases hmet with ⟨h, -⟩ | h
      · rw [h]; decide
      · rw [h]; decide
    have hexec := exec_helloFrame peer peerPort hmet
    rw [if_neg (by simp [hlive])] at hexec
    exact ⟨_, hexec, helloFrame_meets hoff hlive peer peerPort⟩
  · have hst : (s.port p).st ≠ portOff ∧ (s.port p).st ≠ portFailed := by
      rcases hmet with ⟨h, -⟩ | h
      · rw [h]; decide
      · rw [h]; decide
    have hexec := exec_helloFrame peer peerPort hmet
    rw [if_pos (by simp [hlive, hknown, hpeer])] at hexec
    exact ⟨_, hexec, helloFrame_fails hinv.2 hst.1 hst.2 hlive peer peerPort _ rfl⟩
  · rw [exec_retrain hhost, State.retrain_idle hlive]
  · rw [exec_retrain hhost, State.retrain_trains hlive hsel hst]
    exact ⟨_, rfl, s.trainPort_trains p⟩

end Sys2Proof.Machine

/-! O31: the update units (R240, R244 to R253). -/

namespace Sys2Proof.Machine

set_option Elab.async false

/-! ### What a write of new values may change -/

/-- The registers of a tally. -/
abbrev Reg.tally : List Nat :=
  [Reg.FMT_SAT_COUNT, Reg.FMT_FLUSH_COUNT, Reg.FMT_ORPHAN_COUNT, Reg.FMT_STICKY, Reg.QNT_STICKY, Reg.QNT_ZERO_BLOCK_COUNT,
    Reg.QNT_DOMINANT_COUNT, Reg.QNT_EYELET_OUTLIER, Reg.QNT_EYELET_SPECIAL]

/-- The registers of a write of new values. -/
abbrev Reg.scaled : List Nat :=
  [Reg.UPD_STICKY, Reg.QNT_SEG_COUNT, Reg.QNT_BUDGET_OUT_COUNT, Reg.QNT_OUT_TENSOR, Reg.QNT_OUT_SEGMENT, Reg.QNT_OUT_TICK] ++
    Reg.tally ++ Reg.devWrite

/-- The parts of a write of new values. -/
abbrev Part.scaled : List Part := .seg :: .upd :: Part.devWrite

theorem State.tally_writes (s : State) (t : Tally) : Writes [.regs] Reg.tally s (s.tally t) := by
  unfold State.tally
  have h1 := (s.count_writes Reg.FMT_SAT_COUNT 64 t.sat).widen (Q := [.regs]) (M := Reg.tally)
  exact (((((((h1.step (State.count_writes _ _ _ _)).step (State.count_writes _ _ _ _)).step
    (State.orReg_writes _ _ _)).step (State.orReg_writes _ _ _)).step (State.count_writes _ _ _ _)).step
    (State.count_writes _ _ _ _)).step (State.count_writes _ _ _ _)).step (State.count_writes _ _ _ _)

/-- New values written into the other copies: of the update's state, only the segments written so far differ. -/
structure NewValues (s t : State) : Prop where
  writes : Writes Part.scaled Reg.scaled s t
  upd : ∃ segs, t.upd = { s.upd with segs := segs }

theorem NewValues.refl (s : State) : NewValues s s := ⟨Writes.refl s, _, rfl⟩

theorem NewValues.trans {s t u : State} (h : NewValues s t) (g : NewValues t u) : NewValues s u := by
  obtain ⟨segs, hsegs⟩ := h.upd
  obtain ⟨segs', hsegs'⟩ := g.upd
  exact ⟨h.writes.step g.writes (hl := fun _ h => h), segs', by rw [hsegs', hsegs]⟩

theorem NewValues.of_writes {P : List Part} {L : List Nat} {s t : State} (h : Writes P L s t)
    (hp : (P.all fun p => Part.scaled.contains p) = true := by decide) (hl : ∀ o ∈ L, o ∈ Reg.scaled := by simp)
    (hupd : .upd ∉ P := by decide) : NewValues s t :=
  ⟨h.widen hp hl, s.upd.segs, h.evolves.keep .upd hupd⟩

theorem State.devWrite_newValues (s : State) (who : Requester) (a : Nat) (bs : List Byte) : NewValues s (s.devWrite who a bs) :=
  NewValues.of_writes (s.devWrite_writes who a bs)

theorem State.putCodes_newValues (s : State) (v : SegRef) (b p : Nat) (l : List Nat) : NewValues s (s.putCodes v b p l) := by
  induction l generalizing s p with
  | nil => exact NewValues.refl s
  | cons c l ih => exact (s.devWrite_newValues _ _ _).trans (ih _ _)

theorem State.setSegs_newValues (s : State) (segs : List (Nat × UpdSeg)) : NewValues s { s with upd := { s.upd with segs := segs } } :=
  ⟨(State.evolves_upd s _).writes.widen, segs, rfl⟩

theorem State.tally_newValues (s : State) (t : Tally) : NewValues s (s.tally t) :=
  NewValues.of_writes (s.tally_writes t) (by decide) fun _ h => List.mem_append_left _ (List.mem_append_right _ h)

theorem State.writeBlock_newValues (s : State) (seg : Nat) (r : ScaledRef) (b : Nat) (vals : List (Option Word)) :
    NewValues s (s.writeBlock seg r b vals) := by
  unfold State.writeBlock
  dsimp only
  have hend (u : State) (c : Prop) [Decidable c] : NewValues u (if c then u.orReg Reg.UPD_STICKY 4 else u) := by
    split
    · exact NewValues.of_writes (u.orReg_writes _ _)
    · exact NewValues.refl u
  exact ((((s.putCodes_newValues _ _ _ _).trans (State.devWrite_newValues _ _ _ _)).trans (State.setSegs_newValues _ _)).trans
    (State.tally_newValues _ _)).trans (hend _ _)

theorem State.writeBlocks_newValues (s : State) (seg : Nat) (r : ScaledRef) (first : Nat) (xs : List Word) (l : List Nat) :
    NewValues s (s.writeBlocks seg r first xs l) := by
  induction l generalizing s with
  | nil => exact NewValues.refl s
  | cons b l ih => exact (s.writeBlock_newValues seg r b _).trans (ih _)

theorem State.writeHead_newValues (s : State) (seg : Nat) (r : ScaledRef) : NewValues s (s.writeHead seg r) := by
  unfold State.writeHead
  dsimp only
  have hend (u : State) (c : Prop) [Decidable c] : NewValues u (if c then u.orReg Reg.QNT_STICKY 1 else u) := by
    split
    · exact NewValues.of_writes (u.orReg_writes _ _)
    · exact NewValues.refl u
  exact ((s.devWrite_newValues _ _ _).trans (NewValues.of_writes (State.setRung_evolves _ _ _ _).writes)).trans (hend _ _)

theorem State.writeScaled_newValues (s : State) (seg : Nat) (r : ScaledRef) (first : Nat) (xs : List Word) :
    NewValues s (s.writeScaled seg r first xs) := by
  unfold State.writeScaled
  dsimp only
  have hcount (u : State) (c : Prop) [Decidable c] : NewValues u (if c then u.count Reg.QNT_SEG_COUNT 64 1 else u) := by
    split
    · exact NewValues.of_writes (u.count_writes _ _ _)
    · exact NewValues.refl u
  have hfirst (u v : State) (c : Prop) [Decidable c] (h : NewValues u v) : NewValues u (if c then v else
      ((v.setRegN Reg.QNT_OUT_TENSOR (r.tensor % 65536 + 65536 + 2 ^ 31)).setRegN Reg.QNT_OUT_SEGMENT
        (seg % 2 ^ 32)).setRegN Reg.QNT_OUT_TICK v.tick.now) := by
    split
    · exact h
    · exact ((h.trans (NewValues.of_writes (v.setRegN_writes _ _))).trans (NewValues.of_writes (State.setRegN_writes _ _ _))).trans
        (NewValues.of_writes (State.setRegN_writes _ _ _))
  have hend (u : State) (c : Prop) [Decidable c] : NewValues u (if c then
      if (u.count Reg.QNT_BUDGET_OUT_COUNT 32 1).bit Reg.QNT_OUT_TENSOR 31 then u.count Reg.QNT_BUDGET_OUT_COUNT 32 1
      else (((u.count Reg.QNT_BUDGET_OUT_COUNT 32 1).setRegN Reg.QNT_OUT_TENSOR (r.tensor % 65536 + 65536 + 2 ^ 31)).setRegN
        Reg.QNT_OUT_SEGMENT (seg % 2 ^ 32)).setRegN Reg.QNT_OUT_TICK (u.count Reg.QNT_BUDGET_OUT_COUNT 32 1).tick.now
      else u) := by
    split
    · exact hfirst u _ _ (NewValues.of_writes (u.count_writes _ _ _))
    · exact NewValues.refl u
  exact (((s.writeBlocks_newValues _ _ _ _ _).trans (State.writeHead_newValues _ _ _)).trans (hcount _ _)).trans (hend _ _)

theorem State.writeStates_newValues (s : State) (seg first : Nat) (rs : List ScaledRef) (xss : List (List Word)) :
    NewValues s (s.writeStates seg first rs xss) := by
  induction rs generalizing s xss with
  | nil => exact NewValues.refl s
  | cons r rs ih =>
    cases xss with
    | nil => exact NewValues.refl s
    | cons xs xss => exact (s.writeScaled_newValues seg r first xs).trans (ih _ _)

/-! ### Values that are not finite (R253) -/

abbrev Reg.nonFinite : List Nat := [Reg.UPD_STICKY, Reg.UPD_NF_COUNT, Reg.UPD_NF_TENSOR] ++ Reg.spoil

abbrev Part.nonFinite : List Part := .upd :: Part.spoil

/-- A value that is not finite is noted; of the update's state, only that of this step differs. -/
theorem State.updNonFinite_notes (s : State) (tensor unit : Nat) : Writes Part.nonFinite Reg.nonFinite s (s.updNonFinite tensor unit) ∧
    ∃ nf, (s.updNonFinite tensor unit).upd = { s.upd with nfStep := nf } := by
  unfold State.updNonFinite
  dsimp only
  have h1 := s.orReg_writes Reg.UPD_STICKY 2
  generalize s.orReg Reg.UPD_STICKY 2 = u1 at *
  obtain ⟨u2, hu2, h2, nf, hnf⟩ : ∃ u : State, u = (if u1.upd.nfStep then u1
      else ({ u1 with upd := { u1.upd with nfStep := true } } : State).count Reg.UPD_NF_COUNT 32 1) ∧
      Writes [.regs, .upd] [Reg.UPD_NF_COUNT] u1 u ∧ ∃ nf, u.upd = { u1.upd with nfStep := nf } := by
    refine ⟨_, rfl, Writes.ite _ (Writes.refl u1) ?_, ?_⟩
    · exact (State.evolves_upd u1 _).writes.widen.step (State.count_writes _ _ _ _)
    · split
      · exact ⟨u1.upd.nfStep, rfl⟩
      · exact ⟨true, rfl⟩
  rw [← hu2]
  obtain ⟨u3, hu3, h3⟩ : ∃ u : State, u = (if u2.bit Reg.UPD_NF_TENSOR 31 then u2
      else u2.setRegN Reg.UPD_NF_TENSOR (tensor % 65536 + 65536 * unit + 2 ^ 31)) ∧ Writes [.regs] [Reg.UPD_NF_TENSOR] u2 u :=
    ⟨_, rfl, Writes.ite _ (Writes.refl u2) (u2.setRegN_writes _ _)⟩
  rw [← hu3]
  have h4 := u3.spoil_writes 4
  have hupd1 : u1.upd = s.upd := h1.evolves.keep .upd (by decide)
  have hupd4 : (u3.spoil 4).upd = u2.upd := Eq.trans (h4.evolves.keep .upd (by decide)) (h3.evolves.keep .upd (by decide))
  refine ⟨?_, nf, by rw [hupd4, hnf, hupd1]⟩
  exact (((h1.widen (Q := Part.nonFinite) (M := Reg.nonFinite)).step h2 (by decide)).step h3 (by decide)).step h4 (by decide)
    fun _ h => List.mem_append_right _ h

theorem State.nonFinite_if (s : State) (bad : Bool) (tensor unit : Nat) :
    Writes Part.nonFinite Reg.nonFinite s (if bad then s.updNonFinite tensor unit else s) ∧
      ∃ nf, (if bad then s.updNonFinite tensor unit else s).upd = { s.upd with nfStep := nf } := by
  cases bad
  · exact ⟨Writes.refl s, s.upd.nfStep, rfl⟩
  · exact s.updNonFinite_notes tensor unit

/-! ### Refresh -/

theorem State.writeAt_newValues (s : State) (l : List (Nat × List Byte)) : NewValues s (s.writeAt l) := by
  induction l generalizing s with
  | nil => exact NewValues.refl s
  | cons p l ih => exact (s.devWrite_newValues .update p.1 p.2).trans (ih _)

theorem State.writeMatrix_newValues (s : State) (t n : Nat) (m : List (List Word)) (bytes : Word → List Byte) :
    NewValues s (s.writeMatrix t n m bytes) := s.writeAt_newValues _

/-- What a refresh writes beside its matrices (R250). -/
def State.refreshNoted (s : State) (unit resid : Nat) : State :=
  ({ (s.count Reg.UPD_REFRESHED 32 1).bel64 (clusterCnt unit 16) 1 with
    upd := { ((s.count Reg.UPD_REFRESHED 32 1).bel64 (clusterCnt unit 16) 1).upd with refreshed := true } } : State).setRegN
      Reg.UPD_NS_RESID resid

theorem State.refreshNoted_notes {s : State} (hwf : storeWf 0 s.regs = true) (unit resid : Nat) :
    (s.refreshNoted unit resid).regN Reg.UPD_REFRESHED = min (s.regN Reg.UPD_REFRESHED + 1) (2 ^ 32 - 1) ∧
      (s.refreshNoted unit resid).upd = { s.upd with refreshed := true } ∧
      Writes [.regs, .upd, .bel] [Reg.UPD_REFRESHED, Reg.UPD_NS_RESID] s (s.refreshNoted unit resid) := by
  have hcount := s.regN_count Reg.UPD_REFRESHED 32 1 hwf (by decide)
  have h1 := s.count_writes Reg.UPD_REFRESHED 32 1
  have hupd : (s.count Reg.UPD_REFRESHED 32 1).upd = s.upd := rfl
  unfold State.refreshNoted
  generalize s.count Reg.UPD_REFRESHED 32 1 = u1 at *
  have h2 := u1.bel64_writes (clusterCnt unit 16) 1
  have hupd2 : (u1.bel64 (clusterCnt unit 16) 1).upd = u1.upd := rfl
  generalize u1.bel64 (clusterCnt unit 16) 1 = u2 at *
  have h3 : Writes [.upd] [] u2 { u2 with upd := { u2.upd with refreshed := true } } := (State.evolves_upd u2 _).writes
  obtain ⟨u3, hu3⟩ : ∃ u3 : State, u3 = { u2 with upd := { u2.upd with refreshed := true } } := ⟨_, rfl⟩
  have hupd3 : u3.upd = { u2.upd with refreshed := true } := by rw [hu3]
  rw [← hu3] at h3 ⊢
  have h4 := u3.setRegN_writes Reg.UPD_NS_RESID resid
  have hupd4 : (u3.setRegN Reg.UPD_NS_RESID resid).upd = u3.upd := rfl
  refine ⟨?_, ?_, ?_⟩
  · exact (h4.regN (by decide)).trans ((h3.regN (by decide)).trans ((h2.regN (by decide)).trans hcount))
  · rw [hupd4, hupd3, hupd2, hupd]
  · exact (((h1.widen (Q := [.regs, .upd, .bel]) (M := [Reg.UPD_REFRESHED, Reg.UPD_NS_RESID])).step h2).step h3).step h4

/-- A refresh, with its two matrices. -/
theorem State.updRefresh_eq (s : State) (unit tensor : Nat) (x : UpdateSet) (g : GradBlock) (b : PreBlock) (plot wire : Nat) :
    let r := refreshOf x b.d (s.statMatrix b.stat b.d) (s.gradMatrix (s.entryOf tensor) g b plot wire (s.coef x).k)
    let root := r.p.map fun row => row.map fun w => (encode16 .bf16 w false false none).1.code
    ∃ (resid : Nat) (bad : Bool), s.updRefresh unit tensor x g b plot wire =
      if bad then (((s.writeMatrix b.stat 4 r.a fun w => leBytes 4 w.toNat).writeMatrix b.root 2
          (root.map fun row => row.map (BitVec.ofNat 32)) fun w => leBytes 2 w.toNat).refreshNoted unit resid).updNonFinite tensor unit
      else ((s.writeMatrix b.stat 4 r.a fun w => leBytes 4 w.toNat).writeMatrix b.root 2
          (root.map fun row => row.map (BitVec.ofNat 32)) fun w => leBytes 2 w.toNat).refreshNoted unit resid := by
  intro r root
  exact ⟨_, _, rfl⟩

/-! ### Elementwise work -/

/-- Elementwise work of a unit, with the values that it writes. -/
def State.elementWrites (s : State) (unit : Nat) (e : UpdElem) (compensate : Bool) (norm : DWord) (counted : Tally)
    (states : List (List Word)) (errs : List Word) (a : Nat) (codes : List Byte) (ws : List Word) (n blocks : Nat) : State :=
  let s1 : State := { s.writing with upd := { s.writing.upd with norms := storeSet 0 s.upd.norms unit norm } }
  let s4 := (s1.tally counted).writeStates e.segment e.first e.state states
  let s5 := match e.comp with
    | some r => if compensate then s4.writeScaled e.segment r e.first errs else s4
    | none => s4
  let s6 := (s5.devWrite .update a codes).writeScaled e.segment e.if4 e.first ws
  ((s6.count Reg.UPD_PARAMS 64 n).bel64 (clusterCnt unit 13) n).bel64 (clusterCnt unit 14) blocks

theorem State.updElementwise_eq (s : State) (unit tensor : Nat) (e : UpdElem) (x : UpdateSet) (b : Option (GradBlock × PreBlock)) :
    ∃ (counted : Tally) (states : List (List Word)) (errs : List Word) (a : Nat) (codes : List Byte) (ws : List Word)
      (blocks : Nat) (bad : Bool) (t : State), t = s.elementWrites unit e x.compensate
        (normAdd (storeGet 0 s.upd.norms unit) ((s.rawGrads (s.entryOf tensor) e b).map (mulF x.gradScale))) counted states errs a
        codes ws ((List.range e.count).filter fun i =>
          inTensor (segExtents (s.entryOf tensor) e.segment) (e.first + i)).length blocks ∧
      s.updElementwise unit tensor e x b = if bad then t.updNonFinite tensor unit else t := by
  rcases b with _ | ⟨g, b⟩
  · exact ⟨_, _, _, _, _, _, _, _, _, rfl, rfl⟩
  · exact ⟨_, _, _, _, _, _, _, _, _, rfl, rfl⟩

/-- The first update write of a step, with the unit's norm. -/
def State.normed (s : State) (unit : Nat) (norm : DWord) : State :=
  { s.writing with upd := { s.writing.upd with norms := storeSet 0 s.upd.norms unit norm } }

/-- What elementwise work leaves of the update's state and counts (R240, R245). -/
theorem State.elementWrites_leaves {s : State} (hwf : storeWf 0 s.regs = true) (unit : Nat) (e : UpdElem) (compensate : Bool)
    (norm : DWord) (counted : Tally) (states : List (List Word)) (errs : List Word) (a : Nat) (codes : List Byte) (ws : List Word)
    (n blocks : Nat) :
    let t := s.elementWrites unit e compensate norm counted states errs a codes ws n blocks
    t.regN Reg.UPD_PARAMS = min (s.regN Reg.UPD_PARAMS + n) (2 ^ 64 - 1) ∧
      (∃ segs, t.upd = { (s.normed unit norm).upd with segs := segs }) ∧
      Writes (.bel :: Part.scaled) (Reg.UPD_PARAMS :: Reg.scaled) s t := by
  intro t
  have h1 : Writes [.upd] [] s (s.normed unit norm) := (State.evolves_upd s _).writes
  generalize hu1 : s.normed unit norm = u1 at *
  obtain ⟨u6, hu6, h6⟩ : ∃ u6 : State, t = ((u6.count Reg.UPD_PARAMS 64 n).bel64 (clusterCnt unit 13) n).bel64
      (clusterCnt unit 14) blocks ∧ NewValues u1 u6 := by
    refine ⟨_, rfl, ?_⟩
    show NewValues u1 _
    have hcomp (v : State) : NewValues v (match e.comp with
        | some r => if compensate then v.writeScaled e.segment r e.first errs else v
        | none => v) := by
      cases e.comp with
      | none => exact NewValues.refl v
      | some r =>
        dsimp only
        split
        · exact v.writeScaled_newValues _ _ _ _
        · exact NewValues.refl v
    rw [← hu1]
    exact ((((State.tally_newValues _ _).trans (State.writeStates_newValues _ _ _ _ _)).trans (hcomp _)).trans
      (State.devWrite_newValues _ _ _ _)).trans (State.writeScaled_newValues _ _ _ _ _)
  have h16 : Writes Part.scaled Reg.scaled s u6 := (h1.widen (Q := Part.scaled) (M := Reg.scaled)).step h6.writes (hl := fun _ h => h)
  obtain ⟨segs, hsegs⟩ := h6.upd
  have hcount := u6.regN_count Reg.UPD_PARAMS 64 n (h16.wf hwf) (by decide)
  have h7 := u6.count_writes Reg.UPD_PARAMS 64 n
  have hupd7 : (u6.count Reg.UPD_PARAMS 64 n).upd = u6.upd := rfl
  generalize u6.count Reg.UPD_PARAMS 64 n = u7 at *
  have h8 := u7.bel64_writes (clusterCnt unit 13) n
  have h9 := State.bel64_writes (u7.bel64 (clusterCnt unit 13) n) (clusterCnt unit 14) blocks
  have h79 : Writes [.bel] [] u7 t := by
    rw [hu6]
    exact h8.step h9
  have hupd9 : t.upd = u7.upd := h79.evolves.keep .upd (by decide)
  refine ⟨(h79.regN (by decide)).trans ?_, ⟨segs, by rw [hupd9, hupd7, hsegs]⟩, ?_⟩
  · rw [hcount, h16.regN (by decide)]
  · exact ((h16.widen (Q := .bel :: Part.scaled) (M := Reg.UPD_PARAMS :: Reg.scaled)
      (hl := fun _ h => List.mem_cons_of_mem _ h)).step h7).step h79

/-! ### The command -/

theorem exec_updateBlock {s : State} {u : UpdateSection} (hu : s.updSec? = some u) (unit : Fin 16) (tensor : Nat) (w : UpdWork) :
    exec (.updateBlock unit tensor w) s = .next (s.workOrWait u unit tensor w) := by
  show execUpdateBlock unit tensor w s = _
  rw [execUpdateBlock, hu]

theorem State.workOrWait_frozen {s : State} {u : UpdateSection} {unit tensor : Nat} {w : UpdWork}
    (h : s.aimedAtFrozen u tensor w = true) : s.workOrWait u unit tensor w = s.frozenDrop unit (workBlocks w) := if_pos h

theorem State.workOrWait_now {s : State} {u : UpdateSection} {unit tensor : Nat} {w : UpdWork}
    (h : s.aimedAtFrozen u tensor w = false) (hstaged : s.stagedFor u tensor w = true) :
    s.workOrWait u unit tensor w = s.workNow u unit tensor w := by
  unfold State.workOrWait
  rw [if_neg (by simp [h]), if_pos hstaged]

theorem State.workOrWait_waits {s : State} {u : UpdateSection} {unit tensor : Nat} {w : UpdWork}
    (h : s.aimedAtFrozen u tensor w = false) (hstaged : s.stagedFor u tensor w = false) : s.workOrWait u unit tensor w =
      { s with upd := { s.upd with waiting := s.upd.waiting ++ [(unit, tensor, w)] } } := by
  unfold State.workOrWait
  rw [if_neg (by simp [h]), if_neg (by simp [hstaged])]

/-- Work on a frozen tensor is counted, and under the strict flag it spoils the step (R252). -/
theorem State.frozenDrop_shows {s : State} (hwf : storeWf 0 s.regs = true) (unit blocks : Nat) :
    (s.frozenDrop unit blocks).regN Reg.UPD_FROZEN_DROPS = min (s.regN Reg.UPD_FROZEN_DROPS + blocks) (2 ^ 32 - 1) ∧
      ((s.img.map fun f => f.header.flags.testBit 0).getD false = false →
        s.touches (s.frozenDrop unit blocks) [.regs, .bel] [Reg.UPD_STICKY, Reg.UPD_FROZEN_DROPS]) ∧
      ((s.img.map fun f => f.header.flags.testBit 0).getD false = true → s.tick.step.isSome = true →
        (s.frozenDrop unit blocks).bit Reg.QNT_SPOIL_CAUSES 4 = true) := by
  obtain ⟨v, hv, heq⟩ := s.frozenDrop_eq unit blocks
  have hcount := s.regN_count Reg.UPD_FROZEN_DROPS 32 blocks hwf (by decide)
  have h1 := s.count_writes Reg.UPD_FROZEN_DROPS 32 blocks
  generalize s.count Reg.UPD_FROZEN_DROPS 32 blocks = u1 at *
  have h2 := u1.bel64_writes (clusterCnt unit 15) blocks
  generalize u1.bel64 (clusterCnt unit 15) blocks = u2 at *
  have h3 := u2.orReg_writes Reg.UPD_STICKY 1
  rw [← hv] at h3
  have h13 : Writes [.regs, .bel] [Reg.UPD_STICKY, Reg.UPD_FROZEN_DROPS] s v :=
    ((h1.widen (Q := [.regs, .bel]) (M := [Reg.UPD_STICKY, Reg.UPD_FROZEN_DROPS])).step h2).step h3
  have hdrops : v.regN Reg.UPD_FROZEN_DROPS = min (s.regN Reg.UPD_FROZEN_DROPS + blocks) (2 ^ 32 - 1) :=
    (h3.regN (by decide)).trans ((h2.regN (by decide)).trans hcount)
  have htick : v.tick = s.tick := h13.evolves.keep .tick (by decide)
  rw [heq]
  refine ⟨?_, fun hlax => ?_, fun hstrict hstep => ?_⟩
  · split
    · exact ((v.spoil_writes 5).regN (by decide)).trans hdrops
    · exact hdrops
  · rw [if_neg (by rw [hlax]; decide)]
    exact h13.touches
  · rw [if_pos hstrict]
    obtain ⟨r, hr⟩ := Option.isSome_iff_exists.mp hstep
    exact State.spoil_bit (h13.wf hwf) (by rw [htick]; exact hr) (by decide)

/-- A refresh of the step's group (R250, R251). -/
theorem State.updRefresh_refreshes {s : State} (hwf : storeWf 0 s.regs = true) (unit tensor : Nat) (x : UpdateSet) (g : GradBlock)
    (b : PreBlock) (plot wire : Nat) :
    let r := refreshOf x b.d (s.statMatrix b.stat b.d) (s.gradMatrix (s.entryOf tensor) g b plot wire (s.coef x).k)
    let root := r.p.map fun row => row.map fun w => (encode16 .bf16 w false false none).1.code
    let t := s.updRefresh unit tensor x g b plot wire
    (∀ a, t.devByte a = ((s.writeMatrix b.stat 4 r.a fun w => leBytes 4 w.toNat).writeMatrix b.root 2
        (root.map fun row => row.map (BitVec.ofNat 32)) fun w => leBytes 2 w.toNat).devByte a) ∧
      t.regN Reg.UPD_REFRESHED = min (s.regN Reg.UPD_REFRESHED + 1) (2 ^ 32 - 1) ∧ s.sameSlabs t ∧ t.image = s.image := by
  intro r root t
  obtain ⟨resid, bad, ht⟩ := s.updRefresh_eq unit tensor x g b plot wire
  have h12 := (s.writeMatrix_newValues b.stat 4 r.a fun w => leBytes 4 w.toNat).trans
    (State.writeMatrix_newValues _ b.root 2 (root.map fun row => row.map (BitVec.ofNat 32)) fun w => leBytes 2 w.toNat)
  have ht' : t = if bad then (((s.writeMatrix b.stat 4 r.a fun w => leBytes 4 w.toNat).writeMatrix b.root 2
          (root.map fun row => row.map (BitVec.ofNat 32)) fun w => leBytes 2 w.toNat).refreshNoted unit resid).updNonFinite tensor unit
      else ((s.writeMatrix b.stat 4 r.a fun w => leBytes 4 w.toNat).writeMatrix b.root 2
          (root.map fun row => row.map (BitVec.ofNat 32)) fun w => leBytes 2 w.toNat).refreshNoted unit resid := ht
  generalize (s.writeMatrix b.stat 4 r.a fun w => leBytes 4 w.toNat).writeMatrix b.root 2
    (root.map fun row => row.map (BitVec.ofNat 32)) (fun w => leBytes 2 w.toNat) = u at *
  obtain ⟨hcount, hupd, hnoted⟩ := State.refreshNoted_notes (h12.writes.wf hwf) unit resid
  obtain ⟨hend, nf, hnf⟩ := (u.refreshNoted unit resid).nonFinite_if bad tensor unit
  rw [← ht'] at hend hnf
  obtain ⟨segs, hsegs⟩ := h12.upd
  have hsame1 : u.sameBytes (u.refreshNoted unit resid) := hnoted.evolves.sameBytes
  have hsame2 : (u.refreshNoted unit resid).sameBytes t := hend.evolves.sameBytes
  refine ⟨fun a => (hsame2 a).trans (hsame1 a), ?_, ?_, ?_⟩
  · rw [hend.regN (by decide), hcount, h12.writes.regN (by decide)]
  · rw [State.sameSlabs, hnf, hupd, hsegs]
    exact ⟨rfl, rfl, rfl, rfl⟩
  · exact Eq.trans (hend.evolves.keep .image (by decide)) (Eq.trans (hnoted.evolves.keep .image (by decide))
      (h12.writes.evolves.keep .image (by decide)))

/-- Elementwise work on tensors that are not frozen, its block staged (R244 to R249). -/
theorem State.updElementwise_works {s : State} (hwf : storeWf 0 s.regs = true) (hnorms : storeWf 0 s.upd.norms = true)
    (unit tensor : Nat) (e : UpdElem) (x : UpdateSet) (b : Option (GradBlock × PreBlock)) :
    let te := s.entryOf tensor
    let t := s.updElementwise unit tensor e x b
    t.upd.shadow = .writing ∧ t.upd.shadowStep = s.stepId ∧ t.upd.epoch = s.upd.epoch ∧ t.upd.slabB = s.upd.slabB ∧
      storeGet 0 t.upd.norms unit = normAdd (storeGet 0 s.upd.norms unit) ((s.rawGrads te e b).map (mulF x.gradScale)) ∧
      t.regN Reg.UPD_PARAMS = min (s.regN Reg.UPD_PARAMS + ((List.range e.count).filter fun i =>
        inTensor (segExtents te e.segment) (e.first + i)).length) (2 ^ 64 - 1) ∧ t.image = s.image ∧ t.me = s.me := by
  intro te t
  obtain ⟨counted, states, errs, a, codes, ws, blocks, bad, u, hu, ht⟩ := s.updElementwise_eq unit tensor e x b
  obtain ⟨hparams, ⟨segs, hsegs⟩, hlaw⟩ := State.elementWrites_leaves hwf unit e x.compensate
    (normAdd (storeGet 0 s.upd.norms unit) ((s.rawGrads te e b).map (mulF x.gradScale))) counted states errs a codes ws
    ((List.range e.count).filter fun i => inTensor (segExtents te e.segment) (e.first + i)).length blocks
  rw [← hu] at hparams hsegs hlaw
  obtain ⟨hend, nf, hnf⟩ := u.nonFinite_if bad tensor unit
  have ht' : t = if bad then u.updNonFinite tensor unit else u := ht
  rw [← ht'] at hend hnf
  rw [hsegs] at hnf
  refine ⟨by rw [hnf]; rfl, by rw [hnf]; rfl, by rw [hnf]; rfl, by rw [hnf]; rfl, ?_, ?_, ?_, ?_⟩
  · rw [hnf]
    exact storeGet_storeSet_same 0 _ _ _ hnorms
  · exact (hend.regN (by decide)).trans hparams
  · exact Eq.trans (hend.evolves.keep .image (by decide)) (hlaw.evolves.keep .image (by decide))
  · exact Eq.trans (hend.evolves.keep .me (by decide)) (hlaw.evolves.keep .me (by decide))

/-- Settles O31: what becomes of a piece of update work, and what each kind of work writes. -/
theorem updateUnitsWork : Obligations.UpdateUnitsWork := by
  intro unit tensor s u hinv hu
  refine ⟨fun w hfrozen => ⟨_, exec_updateBlock hu unit tensor w, ?_⟩, fun w hfree hunstaged => ?_, fun n hfree => ?_,
    fun k g plot wire x b hx hb hfree hstaged => ?_, fun e x hfree hstaged hx hnorms => ?_⟩
  · rw [State.workOrWait_frozen hfrozen]
    have hlaw := s.frozenDrop_writes unit (workBlocks w)
    obtain ⟨hdrops, hlax, hstrict⟩ := State.frozenDrop_shows hinv.2 unit (workBlocks w)
    exact ⟨State.frozenDrop_sticky hinv.2 _ _, hdrops, hlaw.evolves.keep .upd (by decide), hlaw.evolves.sameBytes, hlax, hstrict⟩
  · rw [exec_updateBlock hu, State.workOrWait_waits hfree hunstaged]
  · rw [exec_updateBlock hu, State.workOrWait_now hfree rfl]
    rfl
  · have hexec := exec_updateBlock hu unit tensor (.refresh k g plot wire)
    rw [State.workOrWait_now hfree hstaged, State.workNow, hx, hb] at hexec
    dsimp only at hexec
    refine ⟨fun hgroup => ?_, fun hgroup => ⟨_, ?_, State.updRefresh_refreshes hinv.2 unit tensor x g b plot wire⟩⟩
    · rw [if_neg hgroup] at hexec
      exact hexec
    · rw [if_pos hgroup] at hexec
      exact hexec
  · have hexec := exec_updateBlock hu unit tensor (.elementwise e)
    rw [State.workOrWait_now hfree hstaged, State.workNow, hx] at hexec
    exact ⟨_, hexec, State.updElementwise_works hinv.2 hnorms unit tensor e x _⟩

end Sys2Proof.Machine

/-! Blocks of the reductions on their way: into a stream, into a plot's buffer, to an update unit (R244, R260 to R267). -/

namespace Sys2Proof.Machine

set_option Elab.async false

/-! ### Fatal errors, with their tick -/

theorem State.cloFatal_tick {s : State} (hwf : storeWf 0 s.regs = true) (kind port plot : Nat)
    (hfirst : s.bit Reg.CLO_FAIL_INFO 31 = false) : (s.cloFatal kind port plot).regN Reg.CLO_FAIL_TICK = s.tick.now % 2 ^ 64 := by
  unfold State.cloFatal
  dsimp only
  rw [if_neg (by simp [hfirst])]
  have hset := State.regN_setRegN_mod
    ((s.setRegN_writes Reg.CLO_FAIL_INFO (kind + 16 * port + 256 * (plot % 2 ^ 18) + 2 ^ 31)).wf hwf) Reg.CLO_FAIL_TICK s.tick.now
  generalize (s.setRegN Reg.CLO_FAIL_INFO (kind + 16 * port + 256 * (plot % 2 ^ 18) + 2 ^ 31)).setRegN Reg.CLO_FAIL_TICK
    s.tick.now = u at *
  have h2 := u.event_writes Reg.CLO_EVENT 1
  generalize u.event Reg.CLO_EVENT 1 = v at *
  have h3 := v.ledgerFatal_writes 3 plot
  have h4 : Writes [.tick] [] (v.ledgerFatal 3 plot) (v.ledgerFatal 3 plot).stopReports := (State.evolves_tick _ _).writes
  exact (h4.regN (by decide)).trans ((h3.regN (by decide)).trans ((h2.regN (by decide)).trans hset))

/-! ### The Cloister's state, but for its digests -/

/-- Of the Cloister's state, only the digests differ. -/
def State.digestsOnly (s t : State) : Prop := ∃ d, t.clo = { s.clo with digests := d }

theorem State.digestsOnly_of_clo {s t : State} (h : t.clo = s.clo) : s.digestsOnly t := ⟨s.clo.digests, h⟩

theorem Evolves.digestsOnly {P : List Part} {s t : State} (h : Evolves P s t) (hclo : .clo ∉ P := by decide) : s.digestsOnly t :=
  State.digestsOnly_of_clo (h.keep .clo hclo)

theorem State.digestsOnly.trans {s t u : State} (h : s.digestsOnly t) (g : t.digestsOnly u) : s.digestsOnly u := by
  obtain ⟨d, hd⟩ := h
  obtain ⟨e, he⟩ := g
  exact ⟨e, by rw [he, hd]⟩

theorem State.digestsOnly.ops {s t : State} (h : s.digestsOnly t) : t.clo.ops = s.clo.ops := by
  obtain ⟨d, hd⟩ := h
  rw [hd]

theorem State.digestsOnly.taken {s t : State} (h : s.digestsOnly t) (plot port : Nat) : t.taken plot port = s.taken plot port := by
  obtain ⟨d, hd⟩ := h
  rw [State.taken, hd]
  rfl

theorem State.absorb_digestsOnly (s : State) (plot port dir peer : Nat) (bs : List Byte) (last : Bool) :
    s.digestsOnly (s.absorb plot port dir peer bs last) := by
  unfold State.absorb
  split
  · dsimp only
    split
    · exact State.digestsOnly.trans ⟨_, rfl⟩ (State.digestRecord_writes _ _ _ _ _ _).evolves.digestsOnly
    · exact ⟨_, rfl⟩
  · exact State.digestsOnly_of_clo rfl

theorem State.absorb_plain {s : State} (h : s.digestMode = false) (plot port dir peer : Nat) (bs : List Byte) (last : Bool) :
    s.absorb plot port dir peer bs last = s := by
  unfold State.absorb
  rw [if_neg (by simp [h])]

/-! ### A stream to the next position (R265) -/

/-- The registers of blocks that join a stream. -/
abbrev Reg.block : List Nat := Reg.CLO_BLOCKS_TX :: Reg.digest

/-- One block moved into its stream. -/
def State.moveBlock (s : State) (plot port peer : Nat) (x : TxStream) (k : Nat) (b : WireBlock) (last : Bool) : State :=
  (((s.setTx plot port x).count Reg.CLO_BLOCKS_TX 64 1).bel64 (portCnt port 19) 1).absorb plot port 0 peer (blockBytes b) last

theorem State.moveBlock_writes (s : State) (plot port peer : Nat) (x : TxStream) (k : Nat) (b : WireBlock) (last : Bool) :
    Writes Part.vector Reg.block s (s.moveBlock plot port peer x k b last) ∧ s.digestsOnly (s.moveBlock plot port peer x k b last) ∧
      (s.digestMode = false → Writes [.regs, .pyu, .bel] [Reg.CLO_BLOCKS_TX] s (s.moveBlock plot port peer x k b last)) ∧
      (s.moveBlock plot port peer x k b last).pyu = (s.setTx plot port x).pyu := by
  unfold State.moveBlock
  have h1 : Writes [.regs, .pyu, .bel] [Reg.CLO_BLOCKS_TX] s
      (((s.setTx plot port x).count Reg.CLO_BLOCKS_TX 64 1).bel64 (portCnt port 19) 1) :=
    (((s.setTx_evolves plot port x).writes.widen (Q := [.regs, .pyu, .bel]) (M := [Reg.CLO_BLOCKS_TX])).step
      (State.count_writes _ _ _ _)).step (State.bel64_writes _ _ _)
  have hpyu : (((s.setTx plot port x).count Reg.CLO_BLOCKS_TX 64 1).bel64 (portCnt port 19) 1).pyu = (s.setTx plot port x).pyu := rfl
  generalize ((s.setTx plot port x).count Reg.CLO_BLOCKS_TX 64 1).bel64 (portCnt port 19) 1 = u at *
  have h2 := u.absorb_writes plot port 0 peer (blockBytes b) last
  refine ⟨(h1.widen (Q := Part.vector) (M := Reg.block)).step h2 (hl := fun _ h => List.mem_cons_of_mem _ h),
    h1.evolves.digestsOnly.trans (u.absorb_digestsOnly _ _ _ _ _ _), fun hmode => ?_,
    Eq.trans (h2.evolves.keep .pyu (by decide)) hpyu⟩
  rw [State.absorb_plain ((State.digestMode_congr (h1.evolves.keep .image (by decide))).trans hmode)]
  exact h1

theorem State.flushBlocks_writes (s : State) (plot port peer total fuel : Nat) :
    Writes Part.vector Reg.block s (s.flushBlocks plot port peer total fuel) ∧
      s.digestsOnly (s.flushBlocks plot port peer total fuel) ∧
      (s.digestMode = false → Writes [.regs, .pyu, .bel] [Reg.CLO_BLOCKS_TX] s (s.flushBlocks plot port peer total fuel)) := by
  induction fuel generalizing s with
  | zero => exact ⟨Writes.refl s, State.digestsOnly_of_clo rfl, fun _ => Writes.refl s⟩
  | succ fuel ih =>
    rw [State.flushBlocks]
    dsimp only
    split
    · exact ⟨Writes.refl s, State.digestsOnly_of_clo rfl, fun _ => Writes.refl s⟩
    · next k b _ =>
      obtain ⟨h1, h2, h3, -⟩ := s.moveBlock_writes plot port peer { s.tx plot port with
        wait := (s.tx plot port).wait.filter (fun e => e.1 ≠ k), next := k + 1,
        bytes := (s.tx plot port).bytes ++ blockBytes b, ended := decide (k + 1 = total) } k b (decide (k + 1 = total))
      obtain ⟨g1, g2, g3⟩ := ih (s.moveBlock plot port peer { s.tx plot port with
        wait := (s.tx plot port).wait.filter (fun e => e.1 ≠ k), next := k + 1,
        bytes := (s.tx plot port).bytes ++ blockBytes b, ended := decide (k + 1 = total) } k b (decide (k + 1 = total)))
      refine ⟨h1.step g1 (hl := fun _ h => h), h2.trans g2, fun hmode => (h3 hmode).step (g3 ?_)⟩
      exact (State.digestMode_congr (h1.evolves.keep .image (by decide))).trans hmode

/-- What a stream becomes depends on the stream alone. -/
theorem State.flushBlocks_tx {s t : State} {plot port : Nat} (h : t.tx plot port = s.tx plot port) (peer total fuel : Nat) :
    (t.flushBlocks plot port peer total fuel).tx plot port = (s.flushBlocks plot port peer total fuel).tx plot port := by
  induction fuel generalizing s t with
  | zero => exact h
  | succ fuel ih =>
    rw [State.flushBlocks, State.flushBlocks]
    dsimp only
    rw [h]
    split
    · exact h
    · next k b _ =>
      have hmove (u : State) : (u.moveBlock plot port peer { s.tx plot port with
          wait := (s.tx plot port).wait.filter (fun e => e.1 ≠ k), next := k + 1,
          bytes := (s.tx plot port).bytes ++ blockBytes b, ended := decide (k + 1 = total) } k b (decide (k + 1 = total))).tx
            plot port = { s.tx plot port with
          wait := (s.tx plot port).wait.filter (fun e => e.1 ≠ k), next := k + 1,
          bytes := (s.tx plot port).bytes ++ blockBytes b, ended := decide (k + 1 = total) } := by
        rw [State.tx_of_pyu (u.moveBlock_writes plot port peer _ k b _).2.2.2]
        refine State.tx_setTx _ _ _ fun h => ?_
        have hnext := congrArg TxStream.next h
        simp at hnext
      exact ih ((hmove t).trans (hmove s).symm)

theorem State.sendBlock_writes (s : State) (g : GReduction) (x : RingShare) (k : Nat) (b : WireBlock) :
    Writes Part.vector Reg.block s (s.sendBlock g x k b) ∧ s.digestsOnly (s.sendBlock g x k b) ∧
      (s.digestMode = false → Writes [.regs, .pyu, .bel] [Reg.CLO_BLOCKS_TX] s (s.sendBlock g x k b)) := by
  unfold State.sendBlock
  dsimp only
  generalize ({ s.tx g.plot x.ring.send with wait := (s.tx g.plot x.ring.send).wait ++ [(k, b)] } : TxStream) = y
  have h1 : Writes [.pyu] [] s (s.setTx g.plot x.ring.send y) := (s.setTx_evolves _ _ _).writes
  have h2 : s.digestsOnly (s.setTx g.plot x.ring.send y) := h1.evolves.digestsOnly
  have hmode : (s.setTx g.plot x.ring.send y).digestMode = s.digestMode := rfl
  generalize s.setTx g.plot x.ring.send y = u at *
  obtain ⟨g1, g2, g3⟩ := u.flushBlocks_writes g.plot x.ring.send (x.ring.ranks.getD ((x.pos + 1) % x.size) 0)
    (x.sent.length + (if g.all then x.finalsSent.length else 0)) ((s.tx g.plot x.ring.send).wait.length + 1)
  exact ⟨h1.widen.step g1 (hl := fun _ h => h), h2.trans g2, fun h => h1.widen.step (g3 (hmode.trans h))⟩

theorem State.sendBlock_tx {s t : State} {g : GReduction} {x : RingShare} (h : t.tx g.plot x.ring.send = s.tx g.plot x.ring.send)
    (k : Nat) (b : WireBlock) : (t.sendBlock g x k b).tx g.plot x.ring.send = (s.sendBlock g x k b).tx g.plot x.ring.send := by
  unfold State.sendBlock
  dsimp only
  rw [h]
  have hset (u : State) : (u.setTx g.plot x.ring.send
      { s.tx g.plot x.ring.send with wait := (s.tx g.plot x.ring.send).wait ++ [(k, b)] }).tx g.plot x.ring.send =
      { s.tx g.plot x.ring.send with wait := (s.tx g.plot x.ring.send).wait ++ [(k, b)] } := by
    refine State.tx_setTx _ _ _ fun h => ?_
    have hwait := congrArg TxStream.wait h
    simp at hwait
  exact State.flushBlocks_tx ((hset t).trans (hset s).symm) _ _ _

theorem State.passFinal_writes (s : State) (g : GReduction) (x : RingShare) (seq : Nat) (b : WireBlock) :
    Writes Part.vector Reg.block s (s.passFinal g x seq b) ∧ s.digestsOnly (s.passFinal g x seq b) ∧
      (s.digestMode = false → Writes [.regs, .pyu, .bel] [Reg.CLO_BLOCKS_TX] s (s.passFinal g x seq b)) := by
  unfold State.passFinal
  split
  · exact s.sendBlock_writes g x _ b
  · exact ⟨Writes.refl s, State.digestsOnly_of_clo rfl, fun _ => Writes.refl s⟩

theorem State.passFinal_tx {s t : State} {g : GReduction} {x : RingShare} (h : t.tx g.plot x.ring.send = s.tx g.plot x.ring.send)
    (seq : Nat) (b : WireBlock) : (t.passFinal g x seq b).tx g.plot x.ring.send = (s.passFinal g x seq b).tx g.plot x.ring.send := by
  unfold State.passFinal
  split
  · exact State.sendBlock_tx h _ b
  · exact h

/-! ### Into a plot's buffer (R244) -/

/-- A block lands in the buffer of its plot. -/
theorem State.landBlock_lands (s : State) (plot k : Nat) (b : WireBlock) : k ∈ ((s.landBlock plot k b).plot plot).landed ∧
    (∀ a, (s.landBlock plot k b).devByte a = (s.devWrite .scheduled (plotBase (s.plot plot) + 66 * k) (blockBytes b)).devByte a) ∧
    Writes (.stl :: Part.devWrite) Reg.devWrite s (s.landBlock plot k b) := by
  unfold State.landBlock
  dsimp only
  have h1 := s.devWrite_writes .scheduled (plotBase (s.plot plot) + 66 * k) (blockBytes b)
  generalize s.devWrite .scheduled (plotBase (s.plot plot) + 66 * k) (blockBytes b) = u at *
  have hin : k ∈ (if (u.plot plot).landed.contains k then (u.plot plot).landed else (u.plot plot).landed ++ [k]) := by
    split
    next h => simpa using h
    next => exact List.mem_append_right _ (List.mem_singleton.mpr rfl)
  generalize (if (u.plot plot).landed.contains k then (u.plot plot).landed else (u.plot plot).landed ++ [k]) = l at *
  have hset := u.setPlot_evolves plot { u.plot plot with landed := l }
  have hsame : u.sameBytes (u.setPlot plot { u.plot plot with landed := l }) := hset.sameBytes
  have hplot : (u.setPlot plot { u.plot plot with landed := l }).plot plot = { u.plot plot with landed := l } := by
    refine storeGet_storeSet_new _ _ _ _ fun h => ?_
    have hnone : l = [] := congrArg Plot.landed h
    rw [hnone] at hin
    exact (nomatch hin)
  exact ⟨by rw [hplot]; exact hin, hsame, h1.widen.step hset.writes⟩

/-! ### Update work that waited -/

abbrev Part.update : List Part := .seg :: .upd :: .mem :: .hbm :: Part.spoil

abbrev Reg.update : List Nat :=
  [Reg.UPD_PARAMS, Reg.UPD_REFRESHED, Reg.UPD_NS_RESID, Reg.UPD_FROZEN_DROPS] ++ Reg.scaled ++ Reg.nonFinite

theorem Reg.update_of_nonFinite {o : Nat} (h : o ∈ Reg.nonFinite) : o ∈ Reg.update := List.mem_append_right _ h

theorem Reg.update_of_scaled {o : Nat} (h : o ∈ Reg.scaled) : o ∈ Reg.update :=
  List.mem_append_left _ (List.mem_append_right _ h)

theorem State.updElementwise_writes {s : State} (hwf : storeWf 0 s.regs = true) (unit tensor : Nat) (e : UpdElem) (x : UpdateSet)
    (b : Option (GradBlock × PreBlock)) : Writes Part.update Reg.update s (s.updElementwise unit tensor e x b) := by
  obtain ⟨counted, states, errs, a, codes, ws, blocks, bad, u, hu, ht⟩ := s.updElementwise_eq unit tensor e x b
  obtain ⟨-, -, hlaw⟩ := State.elementWrites_leaves hwf unit e x.compensate
    (normAdd (storeGet 0 s.upd.norms unit) ((s.rawGrads (s.entryOf tensor) e b).map (mulF x.gradScale))) counted states errs a
    codes ws ((List.range e.count).filter fun i => inTensor (segExtents (s.entryOf tensor) e.segment) (e.first + i)).length blocks
  rw [← hu] at hlaw
  rw [ht]
  refine (hlaw.widen (Q := Part.update) (M := Reg.update) (by decide) fun o h => ?_).step (u.nonFinite_if bad tensor unit).1 (by decide)
    fun _ h => Reg.update_of_nonFinite h
  rcases List.mem_cons.mp h with rfl | h
  · exact List.mem_cons_self
  · exact Reg.update_of_scaled h

theorem State.updRefresh_writes {s : State} (hwf : storeWf 0 s.regs = true) (unit tensor : Nat) (x : UpdateSet) (g : GradBlock)
    (b : PreBlock) (plot wire : Nat) : Writes Part.update Reg.update s (s.updRefresh unit tensor x g b plot wire) := by
  obtain ⟨resid, bad, ht⟩ := s.updRefresh_eq unit tensor x g b plot wire
  have h12 (m m' : List (List Word)) (f f' : Word → List Byte) :=
    (s.writeMatrix_newValues b.stat 4 m f).trans (State.writeMatrix_newValues _ b.root 2 m' f')
  rw [ht]
  have hall (u : State) (h : NewValues s u) : Writes Part.update Reg.update s
      (if bad then (u.refreshNoted unit resid).updNonFinite tensor unit else u.refreshNoted unit resid) := by
    obtain ⟨-, -, hnoted⟩ := State.refreshNoted_notes (h.writes.wf hwf) unit resid
    exact ((h.writes.widen (by decide) fun _ h => Reg.update_of_scaled h).step hnoted (by decide) (by decide)).step
      (State.nonFinite_if _ bad tensor unit).1 (by decide) fun _ h => Reg.update_of_nonFinite h
  exact hall _ (h12 _ _ _ _)

theorem State.workNow_writes {s : State} (hwf : storeWf 0 s.regs = true) (u : UpdateSection) (unit tensor : Nat) (w : UpdWork) :
    Writes Part.update Reg.update s (s.workNow u unit tensor w) := by
  unfold State.workNow
  cases w with
  | stream n => exact Writes.refl s
  | elementwise e =>
    dsimp only
    split
    · exact State.updElementwise_writes hwf unit tensor e _ _
    · exact Writes.refl s
  | refresh k g plot wire =>
    dsimp only
    split
    · exact Writes.ite _ (State.updRefresh_writes hwf unit tensor _ g _ plot wire) (Writes.refl s)
    · exact Writes.refl s

theorem State.workOrWait_writes {s : State} (hwf : storeWf 0 s.regs = true) (u : UpdateSection) (unit tensor : Nat) (w : UpdWork) :
    Writes Part.update Reg.update s (s.workOrWait u unit tensor w) := by
  unfold State.workOrWait
  split
  · exact (s.frozenDrop_writes unit (workBlocks w)).widen (by decide) (by decide)
  · split
    · exact State.workNow_writes hwf u unit tensor w
    · exact (State.evolves_upd s _).writes.widen

theorem State.workAll_writes {s : State} (hwf : storeWf 0 s.regs = true) (u : UpdateSection) (l : List (Nat × Nat × UpdWork)) :
    Writes Part.update Reg.update s (s.workAll u l) := by
  induction l generalizing s with
  | nil => exact Writes.refl s
  | cons w l ih =>
    have h := State.workOrWait_writes hwf u w.1 w.2.1 w.2.2
    exact h.step (ih (h.wf hwf)) (by decide) fun _ h => h

theorem State.workWaiting_writes {s : State} (hwf : storeWf 0 s.regs = true) : Writes Part.update Reg.update s s.workWaiting := by
  unfold State.workWaiting
  split
  next u _ =>
    have h : Writes [.upd] [] s { s with upd := { s.upd with waiting := [] } } := (State.evolves_upd s _).writes
    exact (h.widen (by decide)).step (State.workAll_writes (h.wf hwf) u _) (by decide) fun _ h => h
  next => exact Writes.refl s

/-- With no work waiting, nothing is done. -/
theorem State.workWaiting_none {s : State} (h : s.upd.waiting = []) : Writes [.upd] [] s s.workWaiting := by
  unfold State.workWaiting
  split
  next u _ =>
    rw [h]
    exact (State.evolves_upd s _).writes
  next => exact Writes.refl s

/-! ### A finished sum at its update unit (R244, R260) -/

abbrev Part.final : List Part := .hlt :: Part.update

abbrev Reg.final : List Nat := Reg.cloFatal ++ Reg.update ++ Reg.devWrite

theorem State.takeFinal_writes {s : State} (hwf : storeWf 0 s.regs = true) (g : GReduction) (seq port : Nat) (b : WireBlock) :
    Writes Part.final Reg.final s (s.takeFinal g seq port b) := by
  unfold State.takeFinal
  split
  next kind _ =>
    exact (State.cloFatal_shows hwf kind port g.plot).2.2.2.widen (by decide)
      fun _ h => List.mem_append_left _ (List.mem_append_left _ h)
  next =>
    have h := (s.landBlock_lands g.update (s.finalIndex g seq) b).2.2
    exact (h.widen (by decide) fun _ h => List.mem_append_right _ h).step (State.workWaiting_writes (h.wf hwf)) (by decide)
      fun _ h => List.mem_append_left _ (List.mem_append_right _ h)

/-- A good sum lands in the buffer of the update unit's plot. -/
theorem State.takeFinal_lands {s : State} {g : GReduction} {seq port : Nat} {b : WireBlock} (hgood : s.blockFailure b = none)
    (hidle : s.upd.waiting = []) : s.finalIndex g seq ∈ ((s.takeFinal g seq port b).plot g.update).landed ∧
      (∀ a, (s.takeFinal g seq port b).devByte a = (s.devWrite .scheduled (plotBase (s.plot g.update) + 66 * s.finalIndex g seq)
        (blockBytes b)).devByte a) ∧ (s.takeFinal g seq port b).tick = s.tick := by
  unfold State.takeFinal
  rw [hgood]
  dsimp only
  obtain ⟨hland, hbytes, hlaw⟩ := s.landBlock_lands g.update (s.finalIndex g seq) b
  generalize s.landBlock g.update (s.finalIndex g seq) b = u at *
  have hupd : u.upd = s.upd := hlaw.evolves.keep .upd (by decide)
  have hwork := State.workWaiting_none (s := u) (by rw [hupd]; exact hidle)
  have hplot : u.workWaiting.plot g.update = u.plot g.update := by
    have hstl : u.workWaiting.stl = u.stl := hwork.evolves.keep .stl (by decide)
    rw [State.plot, hstl]
    rfl
  have hsame : u.sameBytes u.workWaiting := hwork.evolves.sameBytes
  exact ⟨by rw [hplot]; exact hland, fun a => (hsame a).trans (hbytes a),
    Eq.trans (hwork.evolves.keep .tick (by decide)) (hlaw.evolves.keep .tick (by decide))⟩

theorem State.blockFailure_congr {s t : State} (h : t.image = s.image) (b : WireBlock) : t.blockFailure b = s.blockFailure b := by
  unfold State.blockFailure
  rw [State.digestMode_congr h]

/-- A failure that a block shows as it arrives is of kind 1 or 5. -/
theorem State.blockFailure_kind {s : State} {b : WireBlock} {kind : Nat} (h : s.blockFailure b = some kind) : kind ≤ 5 := by
  unfold State.blockFailure at h
  split at h
  · rw [← Option.some.inj h]
  · split at h
    · rw [← Option.some.inj h]
      decide
    · exact (nomatch h)

theorem State.gShares_congr {s t : State} (h : t.image = s.image) (g : GReduction) : t.gShares g = s.gShares g := by
  have hpos (r : RingEntry) : t.ringPos r = s.ringPos r := by
    unfold State.ringPos State.rank
    rw [State.img_congr h]
  have hfrom (start : Nat) (rs : List RingEntry) (ns : List Nat) : t.sharesFrom start rs ns = s.sharesFrom start rs ns := by
    induction rs generalizing start ns with
    | nil => rfl
    | cons r rs ih =>
      cases ns with
      | nil => rfl
      | cons n ns => rw [State.sharesFrom, State.sharesFrom, ih, hpos]
  unfold State.gShares
  rw [State.topo?_congr h, hfrom]

theorem State.finalIndex_congr {s t : State} (h : t.image = s.image) (g : GReduction) (seq : Nat) :
    t.finalIndex g seq = s.finalIndex g seq := by
  unfold State.finalIndex
  rw [State.gShares_congr h]

theorem State.plot_of_gReduction {s : State} {plot : Nat} {g : GReduction} (h : s.gReduction plot = some g) : g.plot = plot := by
  obtain ⟨x, -, hx⟩ := Option.bind_eq_some_iff.mp h
  have hplot := List.find?_some hx
  simpa using hplot

end Sys2Proof.Machine

/-! O32: blocks arrive and add (R255 to R267). -/

namespace Sys2Proof.Machine

set_option Elab.async false

/-! ### Arrival -/

/-- The next block of a plot's stream has been taken. -/
def State.blockTaken (s : State) (plot port : Nat) : State :=
  ((s.takeOne plot port).count Reg.CLO_BLOCKS_RX 64 1).bel64 (portCnt port 20) 1

theorem State.blockTaken_takes {s : State} (hwf : storeWf 0 s.regs = true) (plot port : Nat) :
    (s.blockTaken plot port).regN Reg.CLO_BLOCKS_RX = min (s.regN Reg.CLO_BLOCKS_RX + 1) (2 ^ 64 - 1) ∧
      (s.blockTaken plot port).taken plot port = s.taken plot port + 1 ∧ (s.blockTaken plot port).clo.ops = s.clo.ops ∧
      Writes [.regs, .clo, .bel] [Reg.CLO_BLOCKS_RX] s (s.blockTaken plot port) := by
  unfold State.blockTaken
  have h1 : Writes [.clo] [] s (s.takeOne plot port) := (s.takeOne_evolves plot port).writes
  have htaken : (s.takeOne plot port).taken plot port = s.taken plot port + 1 :=
    storeGet_storeSet_new _ _ _ _ (Nat.succ_ne_zero _)
  have hops : (s.takeOne plot port).clo.ops = s.clo.ops := rfl
  generalize s.takeOne plot port = u at *
  have h2 := u.count_writes Reg.CLO_BLOCKS_RX 64 1
  have hcount := u.regN_count Reg.CLO_BLOCKS_RX 64 1 (h1.wf hwf) (by decide)
  have hclo : ((u.count Reg.CLO_BLOCKS_RX 64 1).bel64 (portCnt port 20) 1).clo = u.clo := rfl
  rw [h1.regN (by decide)] at hcount
  have h3 := (u.count Reg.CLO_BLOCKS_RX 64 1).bel64_writes (portCnt port 20) 1
  refine ⟨(h3.regN (by decide)).trans hcount, ?_, by rw [hclo, hops], ?_⟩
  · rw [State.taken, hclo]
    exact htaken
  · exact ((h1.widen (Q := [.regs, .clo, .bel]) (M := [Reg.CLO_BLOCKS_RX])).step h2).step h3

theorem exec_cloisterBlockArrival (op : BlockArrival) (s : State) : exec (.cloisterBlockArrival op) s = .next
    (if (s.linkEnd op.plot op.port true).frames * 5120 < 66 * (s.taken op.plot op.port + 1) then s
    else
      match s.gReduction op.plot with
      | none => (s.blockTaken op.plot op.port).cloFatal 6 op.port op.plot
      | some g =>
        match s.shareIn g op.port with
        | none => (s.blockTaken op.plot op.port).cloFatal 6 op.port op.plot
        | some x =>
          if shareTotal g x ≤ s.taken op.plot op.port then (s.blockTaken op.plot op.port).cloFatal 6 op.port op.plot
          else (s.blockTaken op.plot op.port).arrive g x op.port (s.taken op.plot op.port)
            (s.streamBlock op.plot op.port (s.taken op.plot op.port))) := rfl

/-- What a fatal block leaves (R260). -/
theorem blockFatal {s v : State} (hwf : storeWf 0 s.regs = true) (plot : Nat) (port : Fin 16) {kind : Nat} (hkind : kind ≤ 6)
    (h : Writes (.clo :: Part.devWrite) Reg.digest (s.blockTaken plot port) v) (hd : (s.blockTaken plot port).digestsOnly v) :
    let t := v.cloFatal kind port plot
    t.regN Reg.CLO_BLOCKS_RX = min (s.regN Reg.CLO_BLOCKS_RX + 1) (2 ^ 64 - 1) ∧ t.taken plot port = s.taken plot port + 1 ∧
      t.bit Reg.CLO_EVENT 1 = true ∧ t.tick = { s.tick with stopped := true } ∧ t.clo.ops = s.clo.ops ∧
      (s.bit Reg.CLO_FAIL_INFO 31 = false →
        t.regN Reg.CLO_FAIL_INFO = kind + 16 * port + 256 * (plot % 2 ^ 18) + 2 ^ 31 ∧
          t.regN Reg.CLO_FAIL_TICK = s.tick.now % 2 ^ 64) := by
  intro t
  obtain ⟨hrx, htaken, hops, hlaw⟩ := State.blockTaken_takes hwf plot port.val
  generalize s.blockTaken plot port = u at *
  have hvwf := h.wf (hlaw.wf hwf)
  obtain ⟨hbit, htick, hinfo, hfatal⟩ := State.cloFatal_shows hvwf kind port.val plot
  have htick' : v.tick = s.tick := Eq.trans (h.evolves.keep .tick (by decide)) (hlaw.evolves.keep .tick (by decide))
  have hclo : t.clo = v.clo := hfatal.evolves.keep .clo (by decide)
  refine ⟨(hfatal.regN (by decide)).trans ((h.regN (by decide)).trans hrx), ?_, hbit, by rw [htick, htick'], ?_, fun hfirst => ?_⟩
  · rw [State.taken, hclo]
    exact (hd.taken plot port.val).trans htaken
  · rw [hclo, hd.ops, hops]
  · have hfirst' : v.bit Reg.CLO_FAIL_INFO 31 = false :=
      (h.bit (by decide) 31).trans ((hlaw.bit (by decide) 31).trans hfirst)
    have htime := State.cloFatal_tick hvwf kind port.val plot hfirst'
    rw [htick'] at htime
    refine ⟨(hinfo hfirst').trans ?_, htime⟩
    have hplot := Nat.mod_lt plot (by decide : 0 < 2 ^ 18)
    have hport := port.isLt
    exact Nat.mod_eq_of_lt (by omega)

/-- A block at its place in a share's stream. -/
theorem State.arrive_eq (s : State) (g : GReduction) (x : RingShare) (port k : Nat) (b : WireBlock) :
    ∃ u : State, u = s.absorb g.plot port 1 x.prevRank (blockBytes b) (decide (k + 1 = shareTotal g x)) ∧
      s.arrive g x port k b = match s.blockFailure b with
        | some kind => u.cloFatal kind port g.plot
        | none =>
          if k < x.received.length then u.setRingPlace g.plot (x.received.getD k 0) (k + 1)
          else (u.takeFinal g (x.finals.getD (k - x.received.length) 0) port b).passFinal g x
            (x.finals.getD (k - x.received.length) 0) b := ⟨_, rfl, rfl⟩

/-- A good block of a share (R263 to R267). -/
theorem blockGood {s : State} (hwf : storeWf 0 s.regs = true) {plot : Nat} {g : GReduction} (hplot : g.plot = plot) (port : Fin 16)
    (x : RingShare) (b : WireBlock) (hgood : s.blockFailure b = none) :
    let k := s.taken plot port
    let t := (s.blockTaken plot port).arrive g x port k b
    t.regN Reg.CLO_BLOCKS_RX = min (s.regN Reg.CLO_BLOCKS_RX + 1) (2 ^ 64 - 1) ∧ t.taken plot port = k + 1 ∧
      (k < x.received.length → t.ringPlace plot (x.received.getD k 0) = k + 1 ∧ t.tick = s.tick ∧
        (s.digestMode = false → s.sameBytes t)) ∧
      (x.received.length ≤ k → s.digestMode = false → s.upd.waiting = [] →
        let seq := x.finals.getD (k - x.received.length) 0
        t.tick = s.tick ∧ s.finalIndex g seq ∈ (t.plot g.update).landed ∧
        (∀ a, t.devByte a = (s.devWrite .scheduled (plotBase (s.plot g.update) + 66 * s.finalIndex g seq)
          (blockBytes b)).devByte a) ∧
        t.tx g.plot x.ring.send = (s.passFinal g x seq b).tx g.plot x.ring.send) := by
  intro k t
  obtain ⟨hrx, htaken, -, hlaw⟩ := State.blockTaken_takes hwf plot port.val
  obtain ⟨v, hv, harrive⟩ := (s.blockTaken plot port).arrive_eq g x port k b
  have himage : (s.blockTaken plot port).image = s.image := hlaw.evolves.keep .image (by decide)
  rw [State.blockFailure_congr himage b, hgood] at harrive
  dsimp only at harrive
  have ht : t = _ := harrive
  have habsorb := (s.blockTaken plot port).absorb_writes g.plot port 1 x.prevRank (blockBytes b) (decide (k + 1 = shareTotal g x))
  have hdigest := (s.blockTaken plot port).absorb_digestsOnly g.plot port 1 x.prevRank (blockBytes b)
    (decide (k + 1 = shareTotal g x))
  have hplain (h : s.digestMode = false) := (s.blockTaken plot port).absorb_plain
    ((State.digestMode_congr himage).trans h) g.plot port 1 x.prevRank (blockBytes b) (decide (k + 1 = shareTotal g x))
  rw [← hv] at habsorb hdigest hplain
  generalize s.blockTaken plot port = u at *
  clear harrive hv
  have htick : v.tick = s.tick := Eq.trans (habsorb.evolves.keep .tick (by decide)) (hlaw.evolves.keep .tick (by decide))
  have hvrx : v.regN Reg.CLO_BLOCKS_RX = min (s.regN Reg.CLO_BLOCKS_RX + 1) (2 ^ 64 - 1) := (habsorb.regN (by decide)).trans hrx
  have hvtaken : v.taken plot port = k + 1 := (hdigest.taken plot port.val).trans htaken
  have hvwf := habsorb.wf (hlaw.wf hwf)
  by_cases hk : k < x.received.length
  · rw [if_pos hk] at ht
    have hset : Writes [.clo] [] v (v.setRingPlace g.plot (x.received.getD k 0) (k + 1)) := (v.setRingPlace_evolves _ _ _).writes
    rw [ht]
    refine ⟨(hset.regN (by decide)).trans hvrx, hvtaken, fun _ => ⟨?_, htick, fun hmode => ?_⟩, fun h => absurd hk (Nat.not_lt.mpr h)⟩
    · rw [hplot]
      exact storeGet_storeSet_new _ _ _ _ (Nat.succ_ne_zero _)
    · have hsame : s.sameBytes v := by rw [hplain hmode]; exact hlaw.evolves.sameBytes
      have hsame2 : v.sameBytes (v.setRingPlace g.plot (x.received.getD k 0) (k + 1)) := hset.evolves.sameBytes
      exact fun a => (hsame2 a).trans (hsame a)
  · rw [if_neg hk] at ht
    generalize hseq : x.finals.getD (k - x.received.length) 0 = seq at *
    have hfinal := State.takeFinal_writes hvwf g seq port b
    have hland := State.takeFinal_lands (s := v) (g := g) (seq := seq) (port := port) (b := b)
    generalize v.takeFinal g seq port b = w at *
    obtain ⟨hpass, hpassDigest, hpassPlain⟩ := w.passFinal_writes g x seq b
    rw [← ht] at hpass hpassDigest hpassPlain
    have hclo : w.clo = v.clo := hfinal.evolves.keep .clo (by decide)
    refine ⟨(hpass.regN (by decide)).trans ((hfinal.regN (by decide)).trans hvrx), ?_, fun h => absurd h hk,
      fun _ hmode hidle => ?_⟩
    · rw [hpassDigest.taken, State.taken, hclo]
      exact hvtaken
    · have hvu := hplain hmode
      have hvimage : v.image = s.image := by rw [hvu]; exact himage
      have hvstl : v.plot g.update = s.plot g.update := by
        have hstl : v.stl = s.stl := by rw [hvu]; exact hlaw.evolves.keep .stl (by decide)
        rw [State.plot, hstl]
        rfl
      have hvupd : v.upd = s.upd := by rw [hvu]; exact hlaw.evolves.keep .upd (by decide)
      have hvmem : s.memAgrees v := by rw [hvu]; exact hlaw.evolves.memAgrees
      obtain ⟨hin, hbytes, hwtick⟩ := hland ((State.blockFailure_congr hvimage b).trans hgood) (by rw [hvupd]; exact hidle)
      rw [State.finalIndex_congr hvimage] at hin hbytes
      rw [hvstl] at hbytes
      have hwimage : w.image = s.image := Eq.trans (hfinal.evolves.keep .image (by decide)) hvimage
      have hlast := hpassPlain ((State.digestMode_congr hwimage).trans hmode)
      have hsame : w.sameBytes t := hlast.evolves.sameBytes
      have hwrite := (hvmem.devWrite .scheduled (plotBase (s.plot g.update) + 66 * s.finalIndex g seq) (blockBytes b)).sameBytes
      have htplot : t.plot g.update = w.plot g.update := by
        have hstl : t.stl = w.stl := hlast.evolves.keep .stl (by decide)
        rw [State.plot, hstl]
        rfl
      have hpyu : w.pyu = s.pyu := by
        have hwv : w.pyu = v.pyu := hfinal.evolves.keep .pyu (by decide)
        rw [hwv, hvu]
        exact hlaw.evolves.keep .pyu (by decide)
      refine ⟨Eq.trans (hlast.evolves.keep .tick (by decide)) (hwtick.trans htick), by rw [htplot]; exact hin,
        fun a => (hsame a).trans ((hbytes a).trans (hwrite a)), ?_⟩
      rw [ht]
      exact State.passFinal_tx (State.tx_of_pyu hpyu _ _) seq b

/-! ### Operands -/

/-- Block `seq` leaves the buffers of some plots; nothing else of a plot changes. -/
structure Lifted (seq : Nat) (s t : State) : Prop where
  evolves : Evolves [.stl] s t
  wf : storeWf {} t.stl.plots = true
  buffer : ∀ q, (t.plot q).buffer = (s.plot q).buffer
  gone : ∀ q, seq ∉ (s.plot q).landed → seq ∉ (t.plot q).landed

theorem Lifted.trans {seq : Nat} {s t u : State} (h : Lifted seq s t) (g : Lifted seq t u) : Lifted seq s u :=
  ⟨h.evolves.step g.evolves rfl, g.wf, fun q => (g.buffer q).trans (h.buffer q), fun q hq => g.gone q (h.gone q hq)⟩

/-- A block leaves a plot's buffer. -/
theorem State.liftBlock_lifts {s : State} (hwf : storeWf {} s.stl.plots = true) (p seq : Nat) :
    Lifted seq s (s.liftBlock p seq) ∧ seq ∉ ((s.liftBlock p seq).plot p).landed := by
  have hself : (s.liftBlock p seq).plot p = { s.plot p with landed := (s.plot p).landed.filter (· ≠ seq) } :=
    storeGet_storeSet_same _ _ _ _ hwf
  have hother (q : Nat) (hq : q ≠ p) : (s.liftBlock p seq).plot q = s.plot q := storeGet_storeSet_ne _ _ _ _ _ hq
  have hgone : seq ∉ ((s.liftBlock p seq).plot p).landed := by
    rw [hself]
    simp
  refine ⟨⟨s.liftBlock_evolves p seq, storeWf_storeSet _ _ _ _ hwf, fun q => ?_, fun q h => ?_⟩, hgone⟩
  · by_cases hq : q = p
    · rw [hq, hself]
    · rw [hother q hq]
  · by_cases hq : q = p
    · rw [hq]
      exact hgone
    · rwa [hother q hq]

theorem State.liftAll_lifts {s : State} (hwf : storeWf {} s.stl.plots = true) (seq : Nat) (l : List Nat) :
    Lifted seq s (l.foldl (fun s p => s.liftBlock p seq) s) ∧
      ∀ p ∈ l, seq ∉ ((l.foldl (fun s p => s.liftBlock p seq) s).plot p).landed := by
  induction l generalizing s with
  | nil => exact ⟨⟨Evolves.refl s, hwf, fun _ => rfl, fun _ h => h⟩, fun p hp => (nomatch hp)⟩
  | cons q l ih =>
    obtain ⟨hone, hq⟩ := State.liftBlock_lifts hwf q seq
    obtain ⟨hrest, hl⟩ := ih hone.wf
    refine ⟨hone.trans hrest, fun p hp => ?_⟩
    rcases List.mem_cons.mp hp with rfl | hp
    · exact hrest.gone p hq
    · exact hl p hp

/-- The operands of an addition leave their buffers, and the ring's its place (R262). -/
theorem State.liftOperands_lifts {s : State} (hplots : storeWf {} s.stl.plots = true) (hops : storeWf 0 s.clo.ops = true)
    (op : BlockAdd) :
    Writes [.stl, .clo] [] s (s.liftOperands op) ∧ (∀ q, ((s.liftOperands op).plot q).buffer = (s.plot q).buffer) ∧
      (∀ p ∈ op.locals, op.seq ∉ ((s.liftOperands op).plot p).landed) ∧
      (op.ring = true → (s.liftOperands op).ringPlace op.plot op.seq = 0) := by
  unfold State.liftOperands
  obtain ⟨u, hu, hlaw, hstl, hring⟩ : ∃ u : State, u = (if op.ring then s.setRingPlace op.plot op.seq 0 else s) ∧
      Writes [.clo] [] s u ∧ u.stl = s.stl ∧ (op.ring = true → u.ringPlace op.plot op.seq = 0) := by
    refine ⟨_, rfl, Writes.ite _ (s.setRingPlace_evolves op.plot op.seq 0).writes (Writes.refl s), ?_, fun h => ?_⟩
    · split
      · rfl
      · rfl
    · rw [if_pos h]
      exact storeGet_storeSet_same _ _ _ _ hops
  rw [← hu]
  obtain ⟨hlift, hgone⟩ := State.liftAll_lifts (s := u) (by rw [hstl]; exact hplots) op.seq op.locals
  generalize op.locals.foldl (fun s p => s.liftBlock p op.seq) u = v at *
  refine ⟨hlaw.widen.step hlift.evolves.writes, fun q => ?_, hgone, fun h => ?_⟩
  · rw [hlift.buffer, State.plot, hstl]
    rfl
  · have hclo : v.clo = u.clo := hlift.evolves.keep .clo (by decide)
    rw [State.ringPlace, hclo]
    exact hring h

/-! ### Where a sum goes -/

abbrev Part.place : List Part := .clo :: .pyu :: Part.final

abbrev Reg.place : List Nat := Reg.final ++ Reg.block

theorem State.placeSum_writes {s : State} (hwf : storeWf 0 s.regs = true) (op : BlockAdd) (g : GReduction) (x : RingShare)
    (b : WireBlock) : Writes Part.place Reg.place s (s.placeSum op g x b) ∧ s.digestsOnly (s.placeSum op g x b) := by
  unfold State.placeSum
  split
  next p _ =>
    have h := (s.landBlock_lands p op.seq b).2.2
    exact ⟨h.widen (by decide) fun _ h => List.mem_append_left _ (List.mem_append_right _ h), h.evolves.digestsOnly⟩
  next =>
    split
    · have h := State.takeFinal_writes hwf g op.seq 0 b
      generalize s.takeFinal g op.seq 0 b = u at *
      obtain ⟨hpass, hdigest, -⟩ := u.passFinal_writes g x op.seq b
      exact ⟨(h.widen (by decide) fun _ h => List.mem_append_left _ h).step hpass (by decide) fun _ h => List.mem_append_right _ h,
        h.evolves.digestsOnly.trans hdigest⟩
    · obtain ⟨hsend, hdigest, -⟩ := s.sendBlock_writes g x (x.sent.findIdx (· = op.seq)) b
      exact ⟨hsend.widen (by decide) fun _ h => List.mem_append_right _ h, hdigest⟩

/-- The state from which a sum is placed: what its placing reads is as it was. -/
structure Placing (op : BlockAdd) (s u : State) : Prop where
  tick : u.tick = s.tick
  image : u.image = s.image
  mem : s.memAgrees u
  pyu : u.pyu = s.pyu
  upd : u.upd = s.upd
  buffer : ∀ q, (u.plot q).buffer = (s.plot q).buffer
  gone : ∀ p ∈ op.locals, op.seq ∉ (u.plot p).landed

/-- Where a sum is placed (R256, R266, R267). -/
def Placed (op : BlockAdd) (g : GReduction) (x : RingShare) (s t : State) (b : WireBlock) : Prop :=
  s.digestMode = false → s.upd.waiting = [] →
    (∀ p, op.partialTo = some p → t.tick = s.tick ∧ op.seq ∈ (t.plot p).landed ∧
      ∀ a, t.devByte a = (s.devWrite .scheduled (plotBase (s.plot p) + 66 * op.seq) (blockBytes b)).devByte a) ∧
    (op.partialTo = none → x.owns op.seq = false → t.tick = s.tick ∧ s.sameBytes t ∧
      t.tx g.plot x.ring.send = (s.sendBlock g x (x.sent.findIdx (· = op.seq)) b).tx g.plot x.ring.send ∧
      (∀ p ∈ op.locals, op.seq ∉ (t.plot p).landed)) ∧
    (op.partialTo = none → x.owns op.seq = true → s.blockFailure b = none → t.tick = s.tick ∧
      s.finalIndex g op.seq ∈ (t.plot g.update).landed ∧
      ∀ a, t.devByte a = (s.devWrite .scheduled (plotBase (s.plot g.update) + 66 * s.finalIndex g op.seq) (blockBytes b)).devByte a)

theorem plotBase_of_buffer {x y : Plot} (h : x.buffer = y.buffer) : plotBase x = plotBase y := by
  rw [plotBase, plotBase, h]

theorem Placing.placed {op : BlockAdd} {s u : State} (h : Placing op s u) (g : GReduction) (x : RingShare) (b : WireBlock) :
    Placed op g x s (u.placeSum op g x b) b := by
  intro hmode hidle
  have hwrite (q k : Nat) (a : Nat) : (u.devWrite .scheduled (plotBase (u.plot q) + 66 * k) (blockBytes b)).devByte a =
      (s.devWrite .scheduled (plotBase (s.plot q) + 66 * k) (blockBytes b)).devByte a := by
    rw [plotBase_of_buffer (h.buffer q)]
    exact (h.mem.devWrite _ _ _).sameBytes a
  refine ⟨fun p hp => ?_, fun hp howns => ?_, fun hp howns hgood => ?_⟩
  · rw [State.placeSum, hp]
    obtain ⟨hin, hbytes, hlaw⟩ := u.landBlock_lands p op.seq b
    exact ⟨Eq.trans (hlaw.evolves.keep .tick (by decide)) h.tick, hin, fun a => (hbytes a).trans (hwrite p op.seq a)⟩
  · rw [State.placeSum, hp]
    dsimp only
    rw [if_neg (by simp [howns])]
    obtain ⟨-, -, hplain⟩ := u.sendBlock_writes g x (x.sent.findIdx (· = op.seq)) b
    have hlaw := hplain ((State.digestMode_congr h.image).trans hmode)
    have htx := State.sendBlock_tx (State.tx_of_pyu h.pyu g.plot x.ring.send) (x.sent.findIdx (· = op.seq)) b
    generalize u.sendBlock g x (x.sent.findIdx (· = op.seq)) b = t at *
    have hstl : t.stl = u.stl := hlaw.evolves.keep .stl (by decide)
    have hsame : u.sameBytes t := hlaw.evolves.sameBytes
    refine ⟨Eq.trans (hlaw.evolves.keep .tick (by decide)) h.tick, fun a => (hsame a).trans (h.mem.sameBytes a), htx,
      fun p hp => ?_⟩
    rw [State.plot, hstl]
    exact h.gone p hp
  · rw [State.placeSum, hp]
    dsimp only
    rw [if_pos howns]
    obtain ⟨hin, hbytes, htick⟩ := State.takeFinal_lands (s := u) (g := g) (seq := op.seq) (port := 0) (b := b)
      ((State.blockFailure_congr h.image b).trans hgood) (by rw [h.upd]; exact hidle)
    have himage : (u.takeFinal g op.seq 0 b).image = u.image := (u.takeFinal_evolves g op.seq 0 b).keep .image (by decide)
    generalize u.takeFinal g op.seq 0 b = w at *
    obtain ⟨-, -, hplain⟩ := w.passFinal_writes g x op.seq b
    have hlaw := hplain ((State.digestMode_congr (himage.trans h.image)).trans hmode)
    generalize w.passFinal g x op.seq b = t at *
    have hstl : t.stl = w.stl := hlaw.evolves.keep .stl (by decide)
    have hsame : w.sameBytes t := hlaw.evolves.sameBytes
    rw [State.finalIndex_congr h.image] at hin hbytes
    refine ⟨Eq.trans (hlaw.evolves.keep .tick (by decide)) (htick.trans h.tick), ?_,
      fun a => (hsame a).trans ((hbytes a).trans (hwrite _ _ a))⟩
    rw [State.plot, hstl]
    exact hin

/-- The operands gone, a sum may be placed. -/
theorem State.liftOperands_ready {s : State} (hplots : storeWf {} s.stl.plots = true) (hops : storeWf 0 s.clo.ops = true)
    (op : BlockAdd) : Placing op s (s.liftOperands op) := by
  obtain ⟨hlaw, hbuffer, hgone, -⟩ := State.liftOperands_lifts hplots hops op
  exact ⟨hlaw.evolves.keep .tick (by decide), hlaw.evolves.keep .image (by decide), hlaw.evolves.memAgrees,
    hlaw.evolves.keep .pyu (by decide), hlaw.evolves.keep .upd (by decide), hbuffer, hgone⟩

/-- Counts, events and the like leave a state ready. -/
theorem Placing.step {op : BlockAdd} {s u v : State} (h : Placing op s u) {L : List Nat}
    (g : Writes [.regs, .out, .heldOut, .host, .bel] L u v) : Placing op s v := by
  have hstl : v.stl = u.stl := g.evolves.keep .stl (by decide)
  have hplot (q : Nat) : v.plot q = u.plot q := by
    rw [State.plot, hstl]
    rfl
  exact ⟨Eq.trans (g.evolves.keep .tick (by decide)) h.tick, Eq.trans (g.evolves.keep .image (by decide)) h.image,
    h.mem.trans g.evolves.memAgrees, Eq.trans (g.evolves.keep .pyu (by decide)) h.pyu,
    Eq.trans (g.evolves.keep .upd (by decide)) h.upd, fun q => by rw [hplot]; exact h.buffer q,
    fun p hp => by rw [hplot]; exact h.gone p hp⟩

/-! ### The addition -/

abbrev Reg.sum : List Nat := [Reg.CLO_ADDS, Reg.CLO_RECOMPUTE, Reg.CLO_SAT_COUNT, Reg.CLO_EVENT]

/-- An addition that has passed, before its sum is placed (R262). -/
def State.sumCounted (s : State) (die : Nat) (sat repeated : Bool) : State :=
  let s1 := (s.count Reg.CLO_ADDS 64 1).bel64 (dieCnt die 7) 1
  let s2 := if repeated then ((s1.count Reg.CLO_RECOMPUTE 32 1).event Reg.CLO_EVENT 0).bel64 (dieCnt die 8) 1 else s1
  if sat then s2.cloSat else s2

theorem State.addDone_eq (s : State) (op : BlockAdd) (g : GReduction) (x : RingShare) (t : AddTry) (repeated : Bool) :
    s.addDone op g x t repeated = (s.sumCounted (x.ring.send / 8) t.sat repeated).placeSum op g x t.block := rfl

theorem State.sumCounted_counts {s : State} (hwf : storeWf 0 s.regs = true) (die : Nat) (sat repeated : Bool) :
    let t := s.sumCounted die sat repeated
    t.regN Reg.CLO_ADDS = min (s.regN Reg.CLO_ADDS + 1) (2 ^ 64 - 1) ∧
      t.regN Reg.CLO_SAT_COUNT = (if sat then min (s.regN Reg.CLO_SAT_COUNT + 1) (2 ^ 32 - 1) else s.regN Reg.CLO_SAT_COUNT) ∧
      t.regN Reg.CLO_RECOMPUTE = (if repeated then min (s.regN Reg.CLO_RECOMPUTE + 1) (2 ^ 32 - 1)
        else s.regN Reg.CLO_RECOMPUTE) ∧
      Writes [.regs, .out, .heldOut, .host, .bel] Reg.sum s t := by
  intro t
  have hcount := s.regN_count Reg.CLO_ADDS 64 1 hwf (by decide)
  have h1 := s.count_writes Reg.CLO_ADDS 64 1
  have ht : t = (if sat then (if repeated then (((((s.count Reg.CLO_ADDS 64 1).bel64 (dieCnt die 7) 1).count
      Reg.CLO_RECOMPUTE 32 1).event Reg.CLO_EVENT 0).bel64 (dieCnt die 8) 1) else (s.count Reg.CLO_ADDS 64 1).bel64
      (dieCnt die 7) 1).cloSat else (if repeated then (((((s.count Reg.CLO_ADDS 64 1).bel64 (dieCnt die 7) 1).count
      Reg.CLO_RECOMPUTE 32 1).event Reg.CLO_EVENT 0).bel64 (dieCnt die 8) 1) else (s.count Reg.CLO_ADDS 64 1).bel64
      (dieCnt die 7) 1)) := rfl
  generalize s.count Reg.CLO_ADDS 64 1 = u1 at *
  have h2 := u1.bel64_writes (dieCnt die 7) 1
  generalize u1.bel64 (dieCnt die 7) 1 = u2 at *
  have h12 : Writes [.regs, .out, .heldOut, .host, .bel] Reg.sum s u2 :=
    (h1.widen (Q := [.regs, .out, .heldOut, .host, .bel]) (M := Reg.sum)).step h2
  have hadds2 : u2.regN Reg.CLO_ADDS = min (s.regN Reg.CLO_ADDS + 1) (2 ^ 64 - 1) := (h2.regN (by decide)).trans hcount
  have hsat2 : u2.regN Reg.CLO_SAT_COUNT = s.regN Reg.CLO_SAT_COUNT := (h2.regN (by decide)).trans (h1.regN (by decide))
  have hrec2 : u2.regN Reg.CLO_RECOMPUTE = s.regN Reg.CLO_RECOMPUTE := (h2.regN (by decide)).trans (h1.regN (by decide))
  obtain ⟨u3, hu3, h23, hrec3⟩ : ∃ u3 : State, u3 = (if repeated then (((u2.count Reg.CLO_RECOMPUTE 32 1).event Reg.CLO_EVENT 0).bel64
      (dieCnt die 8) 1) else u2) ∧ Writes [.regs, .out, .heldOut, .host, .bel] [Reg.CLO_RECOMPUTE, Reg.CLO_EVENT] u2 u3 ∧
      u3.regN Reg.CLO_RECOMPUTE = (if repeated then min (s.regN Reg.CLO_RECOMPUTE + 1) (2 ^ 32 - 1)
        else s.regN Reg.CLO_RECOMPUTE) := by
    refine ⟨_, rfl, ?_⟩
    cases repeated
    · exact ⟨Writes.refl u2, hrec2⟩
    · rw [if_pos rfl, if_pos rfl]
      have hagain := u2.regN_count Reg.CLO_RECOMPUTE 32 1 (h12.wf hwf) (by decide)
      have g1 := u2.count_writes Reg.CLO_RECOMPUTE 32 1
      generalize u2.count Reg.CLO_RECOMPUTE 32 1 = v1 at *
      have g2 := v1.event_writes Reg.CLO_EVENT 0
      generalize v1.event Reg.CLO_EVENT 0 = v2 at *
      have g3 := v2.bel64_writes (dieCnt die 8) 1
      refine ⟨((g1.widen (Q := [.regs, .out, .heldOut, .host, .bel]) (M := [Reg.CLO_RECOMPUTE, Reg.CLO_EVENT])).step g2).step g3, ?_⟩
      rw [hrec2] at hagain
      exact (g3.regN (by decide)).trans ((g2.regN (by decide)).trans hagain)
  rw [← hu3] at ht
  have h13 : Writes [.regs, .out, .heldOut, .host, .bel] Reg.sum s u3 := h12.step h23
  have hadds3 := (h23.regN (o := Reg.CLO_ADDS) (by decide)).trans hadds2
  have hsat3 := (h23.regN (o := Reg.CLO_SAT_COUNT) (by decide)).trans hsat2
  rw [ht]
  cases sat
  · exact ⟨hadds3, hsat3, hrec3, h13⟩
  · rw [if_pos rfl, if_pos rfl]
    unfold State.cloSat
    have hagain := u3.regN_count Reg.CLO_SAT_COUNT 32 1 (h13.wf hwf) (by decide)
    have g1 := u3.count_writes Reg.CLO_SAT_COUNT 32 1
    generalize u3.count Reg.CLO_SAT_COUNT 32 1 = v1 at *
    have g2 := v1.event_writes Reg.CLO_EVENT 3
    rw [hsat3] at hagain
    exact ⟨(g2.regN (by decide)).trans ((g1.regN (by decide)).trans hadds3), (g2.regN (by decide)).trans hagain,
      (g2.regN (by decide)).trans ((g1.regN (by decide)).trans hrec3), (h13.step g1).step g2⟩

section

variable {s : State} {op : BlockAdd} {g : GReduction} {x : RingShare}

theorem exec_blockAddition (hg : s.gReduction op.plot = some g) (hx : s.shareOf g op.seq = some x) :
    exec (.blockAddition op) s = .next (if !s.operandsThere op then s
      else match s.localFailure op with
        | some kind => s.cloFatal kind 0 op.plot
        | none => s.addBlocks op g x) := by
  show execBlockAddition op s = _
  rw [execBlockAddition, hg]
  dsimp only
  simp only [hx] <;> rfl

theorem State.addBlocks_one {b : WireBlock} (h : s.addOperands op x = [b]) :
    s.addBlocks op g x = (s.liftOperands op).placeSum op g x b := by
  rw [State.addBlocks, h]

theorem State.addBlocks_many (h : 2 ≤ (s.addOperands op x).length) : s.addBlocks op g x =
    if (addTry s.digestMode (s.addOperands op x) op.first).failed.isNone then
      (s.liftOperands op).addDone op g x (addTry s.digestMode (s.addOperands op x) op.first) false
    else match (addTry s.digestMode (s.addOperands op x) op.again).failed with
      | none => (s.liftOperands op).addDone op g x (addTry s.digestMode (s.addOperands op x) op.again) true
      | some kind => s.cloFatal kind 0 op.plot := by
  unfold State.addBlocks
  generalize s.addOperands op x = bs at *
  match bs, h with
  | [_], h => exact absurd h (by simp)
  | [], h => exact absurd h (by simp)
  | _ :: _ :: _, _ => rfl

/-- A check that fails is of kind 2 or 3. -/
theorem addTry_kind {digest : Bool} {bs : List WireBlock} {f : AddFault} {kind : Nat} (h : (addTry digest bs f).failed = some kind) :
    kind ≤ 5 := by
  unfold addTry at h
  dsimp only at h
  split at h
  · exact (nomatch h)
  · split at h
    · rw [← Option.some.inj h]
      decide
    · split at h
      · rw [← Option.some.inj h]
        decide
      · exact (nomatch h)

/-- A local contribution that fails is of kind 1 or 5. -/
theorem State.localFailure_kind {kind : Nat} (h : s.localFailure op = some kind) : kind ≤ 5 := by
  obtain ⟨p, -, hp⟩ := List.exists_of_findSome?_eq_some h
  exact State.blockFailure_kind hp

/-- A fatal addition (R260, R262). -/
theorem sumFatal (hwf : storeWf 0 s.regs = true) {kind : Nat} (hkind : kind ≤ 5) (plot : Nat) :
    (s.cloFatal kind 0 plot).bit Reg.CLO_EVENT 1 = true ∧ (s.cloFatal kind 0 plot).tick = { s.tick with stopped := true } ∧
      s.sameBytes (s.cloFatal kind 0 plot) ∧ (s.cloFatal kind 0 plot).reg Reg.CLO_ADDS = s.reg Reg.CLO_ADDS ∧
      (s.bit Reg.CLO_FAIL_INFO 31 = false →
        (s.cloFatal kind 0 plot).regN Reg.CLO_FAIL_INFO = kind + 256 * (plot % 2 ^ 18) + 2 ^ 31) := by
  obtain ⟨hbit, htick, hinfo, hlaw⟩ := State.cloFatal_shows hwf kind 0 plot
  refine ⟨hbit, htick, hlaw.evolves.sameBytes, hlaw.reg (by decide), fun h => (hinfo h).trans ?_⟩
  have hplot := Nat.mod_lt plot (by decide : 0 < 2 ^ 18)
  rw [Nat.mul_zero, Nat.add_zero]
  exact Nat.mod_eq_of_lt (by omega)

/-- A sum that has passed is counted, its operands given up, and placed (R262). -/
theorem sumDone (hwf : storeWf 0 s.regs = true) (hplots : storeWf {} s.stl.plots = true) (hops : storeWf 0 s.clo.ops = true)
    (g : GReduction) (x : RingShare) (r : AddTry) (repeated : Bool) :
    let t := (s.liftOperands op).addDone op g x r repeated
    t.regN Reg.CLO_ADDS = min (s.regN Reg.CLO_ADDS + 1) (2 ^ 64 - 1) ∧
      t.regN Reg.CLO_SAT_COUNT = (if r.sat then min (s.regN Reg.CLO_SAT_COUNT + 1) (2 ^ 32 - 1) else s.regN Reg.CLO_SAT_COUNT) ∧
      t.regN Reg.CLO_RECOMPUTE = (if repeated then min (s.regN Reg.CLO_RECOMPUTE + 1) (2 ^ 32 - 1)
        else s.regN Reg.CLO_RECOMPUTE) ∧
      (op.ring = true → t.ringPlace op.plot op.seq = 0) ∧ Placed op g x s t r.block := by
  intro t
  obtain ⟨hlift, -, -, hring⟩ := State.liftOperands_lifts hplots hops op
  have hready := State.liftOperands_ready hplots hops op
  have ht : t = ((s.liftOperands op).sumCounted (x.ring.send / 8) r.sat repeated).placeSum op g x r.block := rfl
  generalize s.liftOperands op = u at *
  obtain ⟨hadds, hsat, hrec, hsum⟩ := State.sumCounted_counts (hlift.wf hwf) (x.ring.send / 8) r.sat repeated
  have hready2 := hready.step hsum
  have hclo : (u.sumCounted (x.ring.send / 8) r.sat repeated).clo = u.clo := hsum.evolves.keep .clo (by decide)
  generalize u.sumCounted (x.ring.send / 8) r.sat repeated = v at *
  obtain ⟨hplace, hdigest⟩ := State.placeSum_writes (hsum.wf (hlift.wf hwf)) op g x r.block
  rw [← ht] at hplace hdigest
  have hbase {o : Nat} (h : o ∉ ([] : List Nat)) : u.regN o = s.regN o := hlift.regN h
  rw [hbase (by simp)] at hadds hsat hrec
  refine ⟨(hplace.regN (by decide)).trans hadds, (hplace.regN (by decide)).trans hsat, (hplace.regN (by decide)).trans hrec,
    fun h => ?_, ht ▸ hready2.placed g x r.block⟩
  rw [State.ringPlace, hdigest.ops, hclo]
  exact hring h

end

/-- Settles O32: a block's way through the checks to its place, and an addition's through its attempts. -/
theorem blocksArriveAndAdd : Obligations.BlocksArriveAndAdd := by
  refine ⟨fun op s hinv => ?_, fun op s g x hinv heng hplots _ hg hx => ?_⟩
  · intro port k b fatal
    have hexec := exec_cloisterBlockArrival op s
    have hself : Writes (.clo :: Part.devWrite) Reg.digest (s.blockTaken op.plot op.port) (s.blockTaken op.plot op.port) :=
      Writes.refl _
    have hnone (h : exec (.cloisterBlockArrival op) s = .next ((s.blockTaken op.plot op.port).cloFatal 6 op.port op.plot)) :
        fatal 6 := ⟨_, h, blockFatal hinv.2 op.plot op.port (by decide) hself (State.digestsOnly_of_clo rfl)⟩
    refine ⟨fun h => ?_, fun hframes => ?_⟩
    · rw [if_pos h] at hexec
      exact hexec
    · rw [if_neg (Nat.not_lt.mpr hframes)] at hexec
      refine ⟨fun hg => ?_, fun g hg => ?_⟩
      · rw [hg] at hexec
        exact hnone hexec
      · have hplot := State.plot_of_gReduction hg
        rw [hg] at hexec
        refine ⟨fun hx => ?_, fun x hx => ?_⟩
        · have hx' : s.shareIn g op.port = none := hx
          simp only [hx'] at hexec
          exact hnone hexec
        · have hx' : s.shareIn g op.port = some x := hx
          simp only [hx'] at hexec
          refine ⟨fun htotal => ?_, fun htotal => ?_⟩
          · rw [if_pos htotal] at hexec
            exact hnone hexec
          · rw [if_neg (Nat.not_le.mpr htotal)] at hexec
            refine ⟨fun kind hkind => ?_, fun hgood => ⟨_, hexec, blockGood hinv.2 hplot op.port x _ hgood⟩⟩
            obtain ⟨v, hv, harrive⟩ := (s.blockTaken op.plot op.port).arrive_eq g x op.port k b
            have himage : (s.blockTaken op.plot op.port).image = s.image :=
              (State.blockTaken_takes hinv.2 op.plot op.port.val).2.2.2.evolves.keep .image (by decide)
            rw [State.blockFailure_congr himage, hkind, hplot] at harrive
            have hfatal : exec (.cloisterBlockArrival op) s = .next (v.cloFatal kind op.port op.plot) :=
              hexec.trans (congrArg Host.Outcome.next harrive)
            rw [hv] at hfatal
            exact ⟨_, hfatal, blockFatal hinv.2 op.plot op.port (Nat.le_succ_of_le (State.blockFailure_kind hkind))
              (State.absorb_writes _ _ _ _ _ _ _) (State.absorb_digestsOnly _ _ _ _ _ _ _)⟩
  · intro bs t1 t2 fatal placed
    obtain ⟨-, -, -, -, -, -, -, -, hops, -, -⟩ := heng
    have hexec := exec_blockAddition hg hx
    have hfatal (kind : Nat) (hkind : kind ≤ 5) (h : exec (.blockAddition op) s = .next (s.cloFatal kind 0 op.plot)) : fatal kind :=
      ⟨_, h, sumFatal hinv.2 hkind op.plot⟩
    refine ⟨fun hthere => ?_, fun hthere => ?_⟩
    · rw [if_pos (by simp [hthere])] at hexec
      exact hexec
    · rw [if_neg (by simp [hthere])] at hexec
      refine ⟨fun kind hkind => ?_, fun hlocal hone => ?_, fun hlocal hmany hpass => ?_, fun hlocal hmany h1 kind h2 => ?_⟩
      · rw [hkind] at hexec
        exact hfatal kind (State.localFailure_kind hkind) hexec
      · rw [hlocal] at hexec
        obtain ⟨b, hb⟩ := List.length_eq_one_iff.mp hone
        have hb' : s.addOperands op x = [b] := hb
        simp only [State.addBlocks_one hb'] at hexec
        have hready := State.liftOperands_ready hplots hops op
        obtain ⟨hlift, -⟩ := State.liftOperands_lifts hplots hops op
        generalize s.liftOperands op = u at *
        obtain ⟨hplace, -⟩ := State.placeSum_writes (hlift.wf hinv.2) op g x b
        refine ⟨_, hexec, (hplace.reg (by decide)).trans (hlift.reg (by simp)), fun c hc => ?_⟩
        have hcb : c = b := by simpa [hb] using hc
        rw [hcb]
        exact hready.placed g x b
      · rw [hlocal] at hexec
        simp only [State.addBlocks_many hmany] at hexec
        by_cases h1 : t1.failed = none
        · have h1' : (addTry s.digestMode (s.addOperands op x) op.first).failed.isNone = true := by rw [Option.isNone_iff_eq_none]; exact h1
          rw [if_pos h1'] at hexec
          rw [if_pos h1]
          obtain ⟨hadds, hsat, hrec, hring, hplaced⟩ := sumDone (op := op) hinv.2 hplots hops g x t1 false
          exact ⟨_, hexec, hadds, hsat, by rw [if_pos h1]; exact hrec, hring, hplaced⟩
        · have h1' : ¬ (addTry s.digestMode (s.addOperands op x) op.first).failed.isNone = true := by
            rw [Option.isNone_iff_eq_none]; exact h1
          have h2 : (addTry s.digestMode (s.addOperands op x) op.again).failed = none := hpass.resolve_left h1
          rw [if_neg h1', h2] at hexec
          rw [if_neg h1]
          obtain ⟨hadds, hsat, hrec, hring, hplaced⟩ := sumDone (op := op) hinv.2 hplots hops g x t2 true
          exact ⟨_, hexec, hadds, hsat, by rw [if_neg h1]; exact hrec, hring, hplaced⟩
      · rw [hlocal] at hexec
        simp only [State.addBlocks_many hmany] at hexec
        have h1' : ¬ (addTry s.digestMode (s.addOperands op x) op.first).failed.isNone = true := by
          rw [Option.isNone_iff_eq_none]
          exact Option.isSome_iff_ne_none.mp h1
        have h2' : (addTry s.digestMode (s.addOperands op x) op.again).failed = some kind := h2
        rw [if_neg h1', h2'] at hexec
        exact hfatal kind (addTry_kind h2') hexec

end Sys2Proof.Machine

/-! O39: votes, decision and release of a commit (R307 to R311). -/

namespace Sys2Proof.Machine

set_option Elab.async false

/-! ### Votes -/

section

variable {s : State} {x : Topo} {r : RunStep}

theorem exec_commitVote (hstep : s.tick.step = some r) (hin : s.inCommit = true) : exec .commitVote s =
    .next (if r.voted then s else if s.upd.shadow = .complete ∧ s.upd.shadowStep = r.stepId then s.castVote r
      else s.stopReports) := by
  show execCommitVote s = _
  rw [execCommitVote, hstep]
  dsimp only
  rw [hin]
  rfl

/-- The combination of this module's vote with those held. -/
def State.voteCombo (s : State) (veto : Bool) : Nat × Bool :=
  (1 + (s.stl.commit.votes.map fun v => v.2.1).sum, veto || s.stl.commit.votes.any fun v => v.2.2)

/-- A combination of votes that is whole goes up, or is held at the coordinator (R308, R309). -/
theorem State.tryVotes_whole (htopo : s.topo? = some x) (hstep : s.tick.step = some r) (hvoted : r.voted = true)
    (hsent : s.commit.sent = false) (hall : x.treeChildren.length ≤ s.commit.votes.length) : s.tryVotes =
      match x.treeParent with
      | some p => (s.setCommit { s.commit with sent := true }).sendVec p s.commitPlot
          ⟨[BitVec.ofNat 64 (s.voteCombo r.veto).1, if (s.voteCombo r.veto).2 then 1 else 0], false⟩
      | none => s.setCommit { s.commit with sent := true, combo := some (s.voteCombo r.veto) } := by
  rw [State.tryVotes, htopo, hstep]
  dsimp only
  rw [if_pos (by simp [hvoted, hsent, hall])] <;> rfl

theorem State.tryVotes_unvoted (htopo : s.topo? = some x) (hstep : s.tick.step = some r) (hvoted : r.voted = false) :
    s.tryVotes = s := by
  rw [State.tryVotes, htopo, hstep]
  dsimp only
  rw [if_neg (by simp [hvoted])]

/-- A vector on its way outside digest mode. -/
theorem State.sendVec_plain (hmode : s.digestMode = false) (rank plot : Nat) (v : SVec) :
    Writes [.pyu] [] s (s.sendVec rank plot v) := by
  unfold State.sendVec
  split
  · dsimp only
    rw [State.absorb_plain (by rw [State.digestMode_congr (s := s) rfl]; exact hmode)]
    exact (s.setTx_evolves _ _ _).writes.step (State.setEnd_evolves _ _ _ _ _).writes
  · exact Writes.refl s

/-- A module's vote (R308). -/
theorem State.castVote_casts (htopo : s.topo? = some x) (hstep : s.tick.step = some r) (hsent : s.stl.commit.sent = false)
    (hall : x.treeChildren.length ≤ s.stl.commit.votes.length) :
    let n := 1 + (s.stl.commit.votes.map fun v => v.2.1).sum
    let veto := r.cause.isSome || s.stl.commit.votes.any fun v => v.2.2
    (s.castVote r).tick.step = some { r with voted := true, veto := r.cause.isSome } ∧
      (s.castVote r).stl.commit.sent = true ∧ (s.digestMode = false → s.touches (s.castVote r) [.tick, .stl, .pyu] []) ∧
      (∀ p port, x.treeParent = some p → s.portOf p = some port → ((s.castVote r).tx s.commitPlot port).vecs =
        (s.tx s.commitPlot port).vecs ++ [vecBytes s.digestMode ⟨[BitVec.ofNat 64 n, if veto then 1 else 0], false⟩]) ∧
      (x.treeParent = none → (s.castVote r).pyu = s.pyu ∧ (s.castVote r).stl.commit.combo = some (n, veto)) := by
  intro n veto
  obtain ⟨u, hu, hcast⟩ : ∃ u : State, u = (s.mapStep fun r' => { r' with voted := true, veto := r.cause.isSome }).setCommit
      { (s.mapStep fun r' => { r' with voted := true, veto := r.cause.isSome }).commit with
        veto := r.cause.isSome, lateCause := 0 } ∧ s.castVote r = u.tryVotes := ⟨_, rfl, rfl⟩
  have hlaw : Writes [.tick, .stl] [] s u := by
    rw [hu]
    exact (State.mapStep_evolves s _).writes.widen.step (State.setCommit_evolves _ _).writes
  have hustep : u.tick.step = some { r with voted := true, veto := r.cause.isSome } := by
    have hmap : u.tick.step = s.tick.step.map fun r' => { r' with voted := true, veto := r.cause.isSome } := by
      rw [hu]
      rfl
    rw [hmap, hstep]
    rfl
  have himage : u.image = s.image := hlaw.evolves.keep .image (by decide)
  have hpyu : u.pyu = s.pyu := hlaw.evolves.keep .pyu (by decide)
  have hvotes : u.commit.votes = s.stl.commit.votes := by
    rw [hu]
    rfl
  have husent : u.commit.sent = false := by
    rw [hu]
    exact hsent
  have hplot : u.commitPlot = s.commitPlot := by
    rw [State.commitPlot, State.sections?_congr himage]
    rfl
  have hcombo : u.voteCombo r.cause.isSome = (n, veto) := by
    have hv : u.stl.commit.votes = s.stl.commit.votes := hvotes
    rw [State.voteCombo, hv]
  have hvotesAll := State.tryVotes_whole (s := u) ((State.topo?_congr himage).trans htopo) hustep rfl husent
    (by rw [hvotes]; exact hall)
  rw [hcast, hvotesAll, hplot]
  dsimp only
  rw [hcombo]
  obtain ⟨w, hw, hwlaw, hwsent, hwpyu⟩ : ∃ w : State, w = u.setCommit { u.commit with sent := true } ∧ Writes [.stl] [] u w ∧
      w.stl.commit.sent = true ∧ w.pyu = u.pyu := ⟨_, rfl, (u.setCommit_evolves _).writes, rfl, rfl⟩
  rcases hparent : x.treeParent with _ | p
  · dsimp only
    have hset : Writes [.stl] [] u (u.setCommit { u.commit with sent := true, combo := some (n, veto) }) :=
      (u.setCommit_evolves _).writes
    exact ⟨hustep, rfl, fun _ => ((hlaw.widen (Q := [.tick, .stl, .pyu]) (M := [])).step hset).touches, fun p port h => (nomatch h),
      fun _ => ⟨hpyu, rfl⟩⟩
  · dsimp only
    rw [← hw]
    have hwimage : w.image = s.image := Eq.trans (hwlaw.evolves.keep .image (by decide)) himage
    have hsend := w.sendVec_writes p s.commitPlot ⟨[BitVec.ofNat 64 n, if veto then 1 else 0], false⟩
    have hstl : (w.sendVec p s.commitPlot ⟨[BitVec.ofNat 64 n, if veto then 1 else 0], false⟩).stl = w.stl :=
      hsend.evolves.keep .stl (by decide)
    have htick : (w.sendVec p s.commitPlot ⟨[BitVec.ofNat 64 n, if veto then 1 else 0], false⟩).tick = u.tick :=
      Eq.trans (hsend.evolves.keep .tick (by decide)) (hwlaw.evolves.keep .tick (by decide))
    refine ⟨by rw [htick]; exact hustep, by rw [hstl]; exact hwsent, fun hmode => ?_, fun q port hq hport => ?_,
      fun h => (nomatch h)⟩
    · have hplain := State.sendVec_plain ((State.digestMode_congr hwimage).trans hmode) p s.commitPlot
        ⟨[BitVec.ofNat 64 n, if veto then 1 else 0], false⟩
      exact ((hlaw.widen (Q := [.tick, .stl, .pyu]) (M := [])).step hwlaw |>.step hplain).touches
    · have hqp : p = q := Option.some.inj hq
      rw [← hqp] at hport
      rw [State.sendVec_tx ((State.topo?_congr hwimage).trans htopo) ((State.portOf_congr hwimage p).trans hport),
        State.digestMode_congr hwimage, State.tx_of_pyu (hwpyu.trans hpyu)]

theorem exec_classSCombine_commit (htopo : s.topo? = some x) {red : SReduce} (huse : red.use = .commit) (slack : Nat) :
    exec (.classSCombine red false slack) s = .next (s.childVotes x) := by
  show execClassSCombine red false slack s = _
  rw [execClassSCombine, htopo]
  dsimp only
  rw [if_neg (by decide), if_pos huse]

/-! ### Decision -/

theorem State.sendDecision_out (s : State) (d : Decision) (l : List (Nat × Nat)) :
    (s.sendDecision d l).out = s.out ++ l.map fun k => .decision k.1 d := by
  induction l generalizing s with
  | nil => exact (List.append_nil _).symm
  | cons c l ih =>
    rw [State.sendDecision, ih, List.map_cons]
    exact List.append_assoc _ _ _

/-- A decision is held, and goes to each child (R309, R310). -/
theorem State.holdDecision_holds (htopo : s.topo? = some x) (hstep : s.tick.step = some r) (d : Decision) :
    (s.holdDecision d).tick.step = some { r with decision := some d } ∧
      (s.holdDecision d).out = s.out ++ x.treeChildren.map (fun k => .decision k.1 d) ∧
      s.touches (s.holdDecision d) [.tick, .out] [] := by
  have hlaw : Writes [.tick, .out] [] s (s.holdDecision d) := (s.holdDecision_evolves d).writes.widen
  unfold State.holdDecision at hlaw ⊢
  rw [htopo] at hlaw ⊢
  have hsend := State.sendDecision_evolves (s.mapStep fun r => { r with decision := some d }) d x.treeChildren
  refine ⟨?_, State.sendDecision_out _ _ _, hlaw.touches⟩
  have htick : ((s.mapStep fun r => { r with decision := some d }).sendDecision d x.treeChildren).tick =
      (s.mapStep fun r => { r with decision := some d }).tick := hsend.keep .tick (by decide)
  have hmap : (s.mapStep fun r => { r with decision := some d }).tick.step =
      s.tick.step.map fun r => { r with decision := some d } := rfl
  have hsome : ((some x).map Topo.treeChildren).getD [] = x.treeChildren := rfl
  rw [hsome, htick, hmap, hstep]
  rfl

theorem State.isCoordinator_eq (htopo : s.topo? = some x) : s.isCoordinator = x.treeParent.isNone := by
  rw [State.isCoordinator, htopo]
  rfl

theorem State.undecided_of (hstep : s.tick.step = some r) (hin : s.inCommit = true) (hd : r.decision = none) (ha : r.acted = none) :
    s.undecided = true := by
  rw [State.undecided, hstep, hin, Option.map_some, hd, ha]
  rfl

theorem State.undecided_acted (hstep : s.tick.step = some r) (ha : r.acted ≠ none) : s.undecided = false := by
  rw [State.undecided, hstep, Option.map_some]
  have hisNone : r.acted.isNone = false := Option.isNone_eq_false_iff.mpr (Option.isSome_iff_ne_none.mpr ha)
  simp [hisNone]

theorem State.verdict_of (s : State) (veto : Bool) (h : s.stl.commit.combo = some (s.jobSize, veto)) :
    s.verdict = some (if veto then .skip false else .commit) := by
  have hcombo : s.commit.combo = some (s.jobSize, veto) := h
  rw [State.verdict, hcombo]
  exact if_pos rfl

theorem State.verdict_none (s : State) (h : ∀ v, s.stl.commit.combo ≠ some (s.jobSize, v)) : s.verdict = none := by
  unfold State.verdict
  split
  next n veto hcombo =>
    refine if_neg fun hn => h veto ?_
    rw [← hn]
    exact hcombo
  next => rfl

theorem exec_commitDecide (hroot : s.isCoordinator = true) (hund : s.undecided = true) {d : Decision} (hd : s.verdict = some d) :
    exec .commitDecide s = .next (s.holdDecision d) := by
  show execCommitDecide s = _
  rw [execCommitDecide, hroot, hund, hd]
  rfl

theorem exec_voteDeadline (hroot : s.isCoordinator = true) (hund : s.undecided = true) :
    exec .voteDeadline s = .next (s.holdDecision (s.verdict.getD (.skip true))) := by
  show execVoteDeadline s = _
  rw [execVoteDeadline, hroot, hund]
  rfl

theorem exec_commitDecisionReceive (d : Decision) : exec (.commitDecisionReceive d) s =
    .next (if !s.isCoordinator && s.undecided then s.holdDecision d else s) := rfl

end

/-! ### Release -/

/-- The outcome of a commit stitch is recorded (R310). -/
theorem State.recordOutcome_records {s : State} (hwf : storeWf 0 s.regs = true) (outcome : Nat) (incomplete : Bool) (r : RunStep) :
    (s.recordOutcome outcome incomplete r).commit =
        { s.commit with outcome := outcome, incomplete := incomplete, resolved := false } ∧
      (s.recordOutcome outcome incomplete r).regN Reg.STL_COMMIT_STEP = r.stepId % 2 ^ 64 ∧
      (s.recordOutcome outcome incomplete r).regN Reg.STL_COMMIT_TICK = s.tick.now % 2 ^ 64 ∧
      Writes ([.stl, .free, .bel] ++ Part.signalled) ([Reg.STL_COMMIT_STEP, Reg.STL_COMMIT_TICK] ++ Reg.trace) s
        (s.recordOutcome outcome incomplete r) := by
  unfold State.recordOutcome
  dsimp only
  obtain ⟨c, hc⟩ : ∃ c : CommitSt, c = { s.commit with outcome := outcome, incomplete := incomplete, resolved := false } := ⟨_, rfl⟩
  rw [← hc]
  have h1 : Writes [.stl] [] s (s.setCommit c) := (s.setCommit_evolves c).writes
  have hcommit : (s.setCommit c).stl.commit = c := rfl
  generalize s.setCommit c = u1 at *
  have h2 := u1.setRegN_writes Reg.STL_COMMIT_STEP r.stepId
  have hstep := State.regN_setRegN_mod (h1.wf hwf) Reg.STL_COMMIT_STEP r.stepId
  have hstl2 : (u1.setRegN Reg.STL_COMMIT_STEP r.stepId).stl = u1.stl := rfl
  generalize u1.setRegN Reg.STL_COMMIT_STEP r.stepId = u2 at *
  have h3 := u2.setRegN_writes Reg.STL_COMMIT_TICK s.tick.now
  have htick := State.regN_setRegN_mod (h2.wf (h1.wf hwf)) Reg.STL_COMMIT_TICK s.tick.now
  have hstl3 : (u2.setRegN Reg.STL_COMMIT_TICK s.tick.now).stl = u2.stl := rfl
  generalize u2.setRegN Reg.STL_COMMIT_TICK s.tick.now = u3 at *
  generalize r.stepId + 2 ^ 64 * (u3.upd.epoch % 2 ^ 32) + 2 ^ 96 * u3.commitBits = payload
  have h4 := u3.traceBoth_writes 0x0B payload
  have hstl4 : (u3.traceBoth 0x0B payload).stl = u3.stl := h4.evolves.keep .stl (by decide)
  refine ⟨?_, (h4.regN (by decide)).trans ((h3.regN (by decide)).trans hstep), (h4.regN (by decide)).trans htick, ?_⟩
  · rw [State.commit, hstl4, hstl3, hstl2, hcommit]
  · exact (((h1.widen (Q := [.stl, .free, .bel] ++ Part.signalled)
      (M := [Reg.STL_COMMIT_STEP, Reg.STL_COMMIT_TICK] ++ Reg.trace)).step h2).step h3).step h4

theorem State.flip_flips {s : State} (hwf : storeWf 0 s.regs = true) :
    s.flip.upd = { s.upd with epoch := (s.upd.epoch + 1) % 2 ^ 64, slabB := !s.upd.slabB, shadow := .stale } ∧
      s.flip.bit Reg.UPD_EVENT 0 = true ∧ Writes (.upd :: Part.signalled) [Reg.UPD_EVENT] s s.flip := by
  unfold State.flip
  obtain ⟨u, hu, hlaw, hupd⟩ : ∃ u : State, u = { s with
      upd := { s.upd with epoch := (s.upd.epoch + 1) % 2 ^ 64, slabB := !s.upd.slabB, shadow := .stale } } ∧
      Writes [.upd] [] s u ∧
      u.upd = { s.upd with epoch := (s.upd.epoch + 1) % 2 ^ 64, slabB := !s.upd.slabB, shadow := .stale } :=
    ⟨_, rfl, (State.evolves_upd s _).writes, rfl⟩
  rw [← hu]
  have hevent := u.event_writes Reg.UPD_EVENT 0
  have hkeep : (u.event Reg.UPD_EVENT 0).upd = u.upd := hevent.evolves.keep .upd (by decide)
  exact ⟨hkeep.trans hupd, State.bit_event _ _ _ (hlaw.wf hwf) (by decide), hlaw.widen.step hevent⟩

/-- A module that acts has its action in the step. -/
theorem State.act_acts (s : State) (st : StepStatus) (c k n : Nat) : ((s.act st c).belBoth k n).tick.step =
      s.tick.step.map (fun r => { r with acted := some (st, c) }) ∧
    ((s.act st c).belBoth k n).upd = s.upd ∧ ((s.act st c).belBoth k n).commit = s.commit ∧
    Writes [.tick, .bel] [] s ((s.act st c).belBoth k n) := by
  have h1 : Writes [.tick] [] s (s.act st c) := (State.mapStep_evolves s _).writes
  have hmap : (s.act st c).tick.step = s.tick.step.map fun r => { r with acted := some (st, c) } := rfl
  have h2 := (s.act st c).belBoth_writes k n
  have htick : ((s.act st c).belBoth k n).tick = (s.act st c).tick := h2.evolves.keep .tick (by decide)
  have hall : Writes [.tick, .bel] [] s ((s.act st c).belBoth k n) := h1.widen.step h2
  have hstl : ((s.act st c).belBoth k n).stl = s.stl := hall.evolves.keep .stl (by decide)
  exact ⟨by rw [htick, hmap], hall.evolves.keep .upd (by decide), by rw [State.commit, hstl]; rfl, hall⟩

section

variable {s : State} {r : RunStep}

/-- The step commits (R238, R310). -/
theorem State.commitStep_commits (hwf : storeWf 0 s.regs = true) (hstep : s.tick.step = some r) :
    (s.commitStep r).upd = { s.upd with epoch := (s.upd.epoch + 1) % 2 ^ 64, slabB := !s.upd.slabB, shadow := .stale } ∧
      (s.commitStep r).stl.commit.outcome = 1 ∧ (s.commitStep r).tick.step = some { r with acted := some (.clean, 0) } ∧
      (s.commitStep r).bit Reg.UPD_EVENT 0 = true ∧ (s.commitStep r).regN Reg.STL_COMMIT_STEP = r.stepId % 2 ^ 64 ∧
      (s.commitStep r).regN Reg.STL_COMMIT_TICK = s.tick.now % 2 ^ 64 ∧
      s.keeps (s.commitStep r) ([.tick, .upd, .stl, .free, .bel] ++ Part.signalled) ∧ s.sameBytes (s.commitStep r) := by
  unfold State.commitStep
  obtain ⟨hupd, hbit, h1⟩ := State.flip_flips hwf
  have htick1 : s.flip.tick = s.tick := h1.evolves.keep .tick (by decide)
  generalize s.flip = u1 at *
  obtain ⟨hcommit, hsteps, hticks, h2⟩ := State.recordOutcome_records (h1.wf hwf) 1 false r
  have htick2 : (u1.recordOutcome 1 false r).tick = s.tick := Eq.trans (h2.evolves.keep .tick (by decide)) htick1
  have hupd2 : (u1.recordOutcome 1 false r).upd = u1.upd := h2.evolves.keep .upd (by decide)
  generalize u1.recordOutcome 1 false r = u2 at *
  obtain ⟨hacted, hupd3, hcommit3, h3⟩ := u2.act_acts .clean 0 5 1
  generalize (u2.act .clean 0).belBoth 5 1 = u3 at *
  have hall : Evolves ([.tick, .upd, .stl, .free, .bel] ++ Part.signalled) s u3 :=
    ((h1.evolves.widen rfl).step h2.evolves rfl).step h3.evolves rfl
  refine ⟨by rw [hupd3, hupd2, hupd], ?_, ?_, ?_, (h3.regN (by simp)).trans hsteps, ?_, hall.keep, hall.sameBytes⟩
  · have hout : u3.commit.outcome = 1 := by rw [hcommit3, hcommit]
    exact hout
  · rw [hacted, htick2, hstep]
    rfl
  · exact (h3.bit (by simp) 0).trans ((h2.bit (by decide) 0).trans hbit)
  · rw [htick1] at hticks
    exact (h3.regN (by simp)).trans hticks

/-- The skip of a step before its outcome is recorded: the cause and its place (R139). -/
def State.skipMarked (s : State) (r : RunStep) (incomplete : Bool) (c ix t : Nat) : State :=
  let s1 := if incomplete then s.setBit Reg.QNT_SPOIL_CAUSES 2 true else s
  let s2 := if c = 6 then s1.setBit Reg.QNT_SPOIL_CAUSES 5 true else s1
  let s3 := if r.cause.isNone then s2.traceBoth 0x08 (c + 256 * ix) else s2
  if incomplete && r.cause.isNone then s3.mapStep fun r => { r with cause := some (3, ix, t) } else s3

/-- The counts of a skip (R139, R145). -/
def State.skipCounted (s : State) (c ix t : Nat) : State :=
  ((((((s.count Reg.QNT_SPOIL_COUNT 32 1).setRegN Reg.QNT_SPOIL_LAST (c + 16 * ix + 2 ^ 31)).setRegN
    Reg.QNT_SPOIL_TICK t).live 0x808 1).live (0x828 + 4 * (c - 1)) 1).belBoth 6 1).event Reg.UPD_EVENT 1

theorem State.skipStep_eq (s : State) (r : RunStep) (i : Bool) : s.skipStep r i =
    (((s.skipMarked r i (s.spoilPlace r i).1 (s.spoilPlace r i).2.1 (s.spoilPlace r i).2.2).skipCounted (s.spoilPlace r i).1
      (s.spoilPlace r i).2.1 (s.spoilPlace r i).2.2).recordOutcome 2 i r).act .spoiled (s.spoilPlace r i).1 := rfl

theorem State.skipMarked_marks (s : State) (r : RunStep) (i : Bool) (c ix t : Nat) :
    Writes ([.tick, .free, .bel] ++ Part.signalled) Reg.spoil s (s.skipMarked r i c ix t) ∧
      (s.tick.step.isSome = true → (s.skipMarked r i c ix t).tick.step.isSome = true) := by
  have hset (u : State) (b : Nat) (p : Prop) [Decidable p] : Writes ([.tick, .free, .bel] ++ Part.signalled) Reg.spoil u
      (if p then u.setBit Reg.QNT_SPOIL_CAUSES b true else u) :=
    Writes.ite _ ((u.setBit_writes _ _ _).widen rfl (by decide)) (Writes.refl u)
  have htrace (u : State) (p : Prop) [Decidable p] : Writes ([.tick, .free, .bel] ++ Part.signalled) Reg.spoil u
      (if p then u.traceBoth 0x08 (c + 256 * ix) else u) :=
    Writes.ite _ ((u.traceBoth_writes _ _).widen rfl (by decide)) (Writes.refl u)
  have hmap (u : State) (p : Prop) [Decidable p] : Writes ([.tick, .free, .bel] ++ Part.signalled) Reg.spoil u
      (if p then u.mapStep fun r => { r with cause := some (3, ix, t) } else u) :=
    Writes.ite _ ((State.mapStep_evolves u _).writes.widen rfl (by decide)) (Writes.refl u)
  have hstep (u : State) (p : Prop) [Decidable p] :
      (if p then u.mapStep fun r => { r with cause := some (3, ix, t) } else u).tick.step.isSome = u.tick.step.isSome := by
    split
    · exact Option.isSome_map
    · rfl
  have hkeep (u : State) (p : Prop) [Decidable p] :
      (if p then u.traceBoth 0x08 (c + 256 * ix) else u).tick = u.tick := by
    split
    · exact (u.traceBoth_writes _ _).evolves.keep .tick (by decide)
    · rfl
  have hbits (u : State) (b : Nat) (p : Prop) [Decidable p] :
      (if p then u.setBit Reg.QNT_SPOIL_CAUSES b true else u).tick = u.tick := by
    split
    · rfl
    · rfl
  unfold State.skipMarked
  dsimp only
  refine ⟨(((hset s 2 _).step (hset _ 5 _) (hl := fun _ h => h)).step (htrace _ _) (hl := fun _ h => h)).step (hmap _ _)
    (hl := fun _ h => h), fun h => ?_⟩
  rw [hstep, hkeep, hbits, hbits]
  exact h

theorem State.skipCounted_counts {s : State} (hwf : storeWf 0 s.regs = true) (c ix t : Nat) :
    (s.skipCounted c ix t).regN Reg.QNT_SPOIL_COUNT = min (s.regN Reg.QNT_SPOIL_COUNT + 1) (2 ^ 32 - 1) ∧
      (s.skipCounted c ix t).bit Reg.UPD_EVENT 1 = true ∧
      Writes ([.hlt, .bel] ++ Part.signalled) [Reg.QNT_SPOIL_COUNT, Reg.QNT_SPOIL_LAST, Reg.QNT_SPOIL_TICK, Reg.UPD_EVENT] s
        (s.skipCounted c ix t) := by
  unfold State.skipCounted
  have h1 := s.count_writes Reg.QNT_SPOIL_COUNT 32 1
  have hcount := s.regN_count Reg.QNT_SPOIL_COUNT 32 1 hwf (by decide)
  generalize s.count Reg.QNT_SPOIL_COUNT 32 1 = u1 at *
  have h2 : Writes [.regs] [Reg.QNT_SPOIL_LAST, Reg.QNT_SPOIL_TICK] u1
      ((u1.setRegN Reg.QNT_SPOIL_LAST (c + 16 * ix + 2 ^ 31)).setRegN Reg.QNT_SPOIL_TICK t) :=
    (u1.setRegN_writes _ _).widen.step (State.setRegN_writes _ _ _)
  generalize (u1.setRegN Reg.QNT_SPOIL_LAST (c + 16 * ix + 2 ^ 31)).setRegN Reg.QNT_SPOIL_TICK t = u2 at *
  have h3 : Writes [.hlt, .bel] [] u2 (((u2.live 0x808 1).live (0x828 + 4 * (c - 1)) 1).belBoth 6 1) :=
    ((u2.live_writes _ _).widen.step (State.live_writes _ _ _)).step (State.belBoth_writes _ _ _)
  generalize ((u2.live 0x808 1).live (0x828 + 4 * (c - 1)) 1).belBoth 6 1 = u3 at *
  have h13 : Writes ([.hlt, .bel] ++ Part.signalled) [Reg.QNT_SPOIL_COUNT, Reg.QNT_SPOIL_LAST, Reg.QNT_SPOIL_TICK, Reg.UPD_EVENT] s
      u3 := ((h1.widen (Q := [.hlt, .bel] ++ Part.signalled)
    (M := [Reg.QNT_SPOIL_COUNT, Reg.QNT_SPOIL_LAST, Reg.QNT_SPOIL_TICK, Reg.UPD_EVENT])).step h2).step h3
  have h4 := u3.event_writes Reg.UPD_EVENT 1
  exact ⟨(h4.regN (by decide)).trans ((h3.regN (by simp)).trans ((h2.regN (by decide)).trans hcount)),
    State.bit_event _ _ _ (h13.wf hwf) (by decide), h13.step h4⟩

/-- The step is skipped (R139, R310). -/
theorem State.skipStep_skips (hwf : storeWf 0 s.regs = true) (hstep : s.tick.step = some r) (i : Bool) :
    ∃ r', (s.skipStep r i).upd = s.upd ∧ (s.skipStep r i).stl.commit.outcome = 2 ∧ (s.skipStep r i).stl.commit.incomplete = i ∧
      (s.skipStep r i).tick.step = some r' ∧
      r'.acted = some (.spoiled, (r.cause.map Prod.fst).getD (if i = true then 3 else 6)) ∧
      (s.skipStep r i).bit Reg.UPD_EVENT 1 = true ∧
      (s.skipStep r i).regN Reg.QNT_SPOIL_COUNT = min (s.regN Reg.QNT_SPOIL_COUNT + 1) (2 ^ 32 - 1) ∧
      s.keeps (s.skipStep r i) ([.tick, .stl, .hlt, .free, .bel] ++ Part.signalled) ∧ s.sameBytes (s.skipStep r i) := by
  have hplace : (s.spoilPlace r i).1 = (r.cause.map Prod.fst).getD (if i = true then 3 else 6) := by
    unfold State.spoilPlace
    cases r.cause <;> rfl
  rw [State.skipStep_eq, hplace]
  generalize (r.cause.map Prod.fst).getD (if i = true then 3 else 6) = c
  generalize (s.spoilPlace r i).2.1 = ix
  generalize (s.spoilPlace r i).2.2 = t
  obtain ⟨h1, hsome⟩ := s.skipMarked_marks r i c ix t
  have hsome1 := hsome (by rw [hstep]; rfl)
  generalize s.skipMarked r i c ix t = u1 at *
  obtain ⟨hcount, hbit, h2⟩ := State.skipCounted_counts (h1.wf hwf) c ix t
  have htick2 : (u1.skipCounted c ix t).tick = u1.tick := h2.evolves.keep .tick (by decide)
  generalize u1.skipCounted c ix t = u2 at *
  obtain ⟨hcommit, -, -, h3⟩ := State.recordOutcome_records (h2.wf (h1.wf hwf)) 2 i r
  have htick3 : (u2.recordOutcome 2 i r).tick = u2.tick := h3.evolves.keep .tick (by decide)
  generalize u2.recordOutcome 2 i r = u3 at *
  have h4 : Writes [.tick] [] u3 (u3.act .spoiled c) := (State.mapStep_evolves u3 _).writes
  have hmap : (u3.act .spoiled c).tick.step = u3.tick.step.map fun r => { r with acted := some (.spoiled, c) } := rfl
  have hcommit4 : (u3.act .spoiled c).commit = u3.commit := rfl
  generalize u3.act .spoiled c = u4 at *
  have hall : Evolves ([.tick, .stl, .hlt, .free, .bel] ++ Part.signalled) s u4 :=
    (((h1.evolves.widen rfl).step h2.evolves rfl).step h3.evolves rfl).step h4.evolves rfl
  rw [h1.regN (by decide)] at hcount
  obtain ⟨q, hq⟩ := Option.isSome_iff_exists.mp hsome1
  have hstep4 : u4.tick.step = some { q with acted := some (.spoiled, c) } := by
    rw [hmap, htick3, htick2, hq]
    rfl
  have hcommit' : u4.commit = { u2.commit with outcome := 2, incomplete := i, resolved := false } := hcommit4.trans hcommit
  refine ⟨{ q with acted := some (.spoiled, c) }, hall.keep .upd (by decide), congrArg CommitSt.outcome hcommit',
    congrArg CommitSt.incomplete hcommit', hstep4, rfl, ?_, ?_, hall.keep, hall.sameBytes⟩
  · exact (h4.bit (by simp) 1).trans ((h3.bit (by decide) 1).trans hbit)
  · exact (h4.regN (by simp)).trans ((h3.regN (by decide)).trans hcount)

/-! ### No decision (R311) -/

/-- The parts of the tickets' completion that a halt does. -/
theorem State.completeAll_writes (l : List (Nat × Ticket)) (s : State) : Writes Part.complete Reg.complete s (s.completeAll l) := by
  induction l generalizing s with
  | nil => exact Writes.refl s
  | cons e l ih =>
    have hchain (st : StepStatus) : Writes Part.complete Reg.complete s
        (if st = .clean then s.chainBack s.chainTable s.stl.commit.bound else s) :=
      Writes.ite _ ((State.chainBack_writes _ _ _).widen) (Writes.refl s)
    exact ((hchain _).step (State.complete_writes _ _) (hl := fun _ h => h)).step (ih _) (hl := fun _ h => h)

/-- A halt keeps the outcome of the commit, and the event of a step that it leaves unresolved. -/
theorem State.halt_commit (s : State) : s.halt.stl.commit.outcome = s.stl.commit.outcome ∧
    s.halt.tick.stopped = s.tick.stopped ∧ s.halt.bit Reg.STL_EVENT 2 = s.bit Reg.STL_EVENT 2 := by
  have hdone : Writes (.pwr :: .hlt :: Part.complete) (Reg.complete ++ Reg.ledger) s s.haltDone := by
    unfold State.haltDone
    have h1 := State.completeAll_writes (bySlot s.adm.accepted) s
    have h2 : Writes [.adm] [] (s.completeAll (bySlot s.adm.accepted))
        ((s.completeAll (bySlot s.adm.accepted)).returnPlots (s.adm.accepted.map fun e => e.2.plots).sum) :=
      (State.returnPlots_evolves _ _).writes
    exact ((h1.widen rfl fun _ h => List.mem_append_left _ h).step h2).step (State.endRun_writes _) rfl
      fun _ h => List.mem_append_right _ h
  have hstl : s.haltDone.stl = s.stl := hdone.evolves.keep .stl (by decide)
  have htick : s.haltDone.tick = s.tick := hdone.evolves.keep .tick (by decide)
  have hbit := hdone.bit (o := Reg.STL_EVENT) (by decide) 2
  rw [State.halt_eq]
  generalize s.haltDone = u at *
  have hleft : u.haltLeft.stl.commit.outcome = u.stl.commit.outcome := rfl
  have hleftTick : u.haltLeft.tick.stopped = u.tick.stopped := rfl
  have hleftBit : u.haltLeft.bit Reg.STL_EVENT 2 = u.bit Reg.STL_EVENT 2 :=
    (u.endStep_writes.bit (o := Reg.STL_EVENT) (by decide) 2).symm ▸ rfl
  generalize u.haltLeft = v at *
  have hend := v.unthrottle_parts.2
  have hevent := v.unthrottle.event_writes Reg.TICK_EVENT 2
  have hstl' : (v.unthrottle.event Reg.TICK_EVENT 2).stl = v.stl :=
    Eq.trans (hevent.evolves.keep .stl (by decide)) (hend.evolves.keep .stl (by decide))
  have htick' : (v.unthrottle.event Reg.TICK_EVENT 2).tick = v.tick :=
    Eq.trans (hevent.evolves.keep .tick (by decide)) (hend.evolves.keep .tick (by decide))
  refine ⟨?_, ?_, ?_⟩
  · rw [hstl', hleft, hstl]
  · rw [htick', hleftTick, htick]
  · exact (hevent.bit (by decide) 2).trans ((hend.bit (by decide) 2).trans (hleftBit.trans hbit))

/-- A step without a decision leaves the module unresolved and halted (R311). -/
theorem State.unresolvedStep_halts (hwf : storeWf 0 s.regs = true) :
    s.sameSlabs (s.unresolvedStep r) ∧ (s.unresolvedStep r).stl.commit.outcome = 3 ∧ (s.unresolvedStep r).tick.ticking = false ∧
      (s.unresolvedStep r).tick.halted = true ∧ (s.unresolvedStep r).tick.stopped = true ∧
      (s.unresolvedStep r).adm.accepted = [] ∧ (s.unresolvedStep r).bit Reg.STL_EVENT 2 = true := by
  unfold State.unresolvedStep
  dsimp only
  obtain ⟨hcommit, -, -, h1⟩ := State.recordOutcome_records hwf 3 false r
  generalize s.recordOutcome 3 false r = u1 at *
  generalize leBytes 8 r.stepId ++ leBytes 8 s.upd.epoch = body
  have h2 := u1.ledgerEvent_writes 0x09 0 0 0 body
  generalize u1.ledgerEvent 0x09 0 0 0 body = u2 at *
  have h3 := u2.event_writes Reg.STL_EVENT 2
  have hbit := State.bit_event u2 Reg.STL_EVENT 2 (h2.wf (h1.wf hwf)) (by decide)
  generalize u2.event Reg.STL_EVENT 2 = u3 at *
  have h4 : Writes [.tick] [] u3 (u3.act .halted 0) := (State.mapStep_evolves u3 _).writes
  generalize u3.act .halted 0 = u4 at *
  have h5 := u4.sendReport_writes
  generalize u4.sendReport = u5 at *
  have h6 : Writes [.tick] [] u5 u5.stopReports := (State.evolves_tick u5 _).writes
  have hstopped : u5.stopReports.tick.stopped = true := rfl
  generalize u5.stopReports = u6 at *
  have h16 : Evolves ([.tick, .stl, .hlt, .free, .bel, .pyu] ++ Part.signalled) s u6 :=
    (((((h1.evolves.widen rfl).step h2.evolves rfl).step h3.evolves rfl).step h4.evolves rfl).step h5.evolves rfl).step
      h6.evolves rfl
  have hstl : u6.stl = u1.stl := Eq.trans (h6.evolves.keep .stl (by decide)) (Eq.trans (h5.evolves.keep .stl (by decide))
    (Eq.trans (h4.evolves.keep .stl (by decide)) (Eq.trans (h3.evolves.keep .stl (by decide))
      (h2.evolves.keep .stl (by decide)))))
  have hslabs : s.sameSlabs u6 := State.sameSlabs_of_upd (h16.keep .upd (by decide))
  obtain ⟨houtcome, hstop, hhaltBit⟩ := u6.halt_commit
  obtain ⟨hticking, hhalted, -, -, -, -, haccepted, -⟩ := State.halt_ends (h16.regs hwf)
  refine ⟨State.sameSlabs_trans hslabs u6.sameSlabs_halt, ?_, hticking, hhalted, hstop.trans hstopped, haccepted, ?_⟩
  · rw [houtcome, hstl]
    exact congrArg CommitSt.outcome hcommit
  · exact hhaltBit.trans ((h6.bit (by simp) 2).trans ((h5.bit (by decide) 2).trans ((h4.bit (by simp) 2).trans hbit)))

theorem exec_commitRelease (hstep : s.tick.step = some r) (hin : s.inCommit = true) (hacted : r.acted = none) :
    exec .commitRelease s = .next (match r.decision with
      | some .commit => s.commitStep r
      | some (.skip i) => s.skipStep r i
      | none => s.unresolvedStep r) := by
  show Host.Outcome.next s.commitRelease = _
  rw [State.commitRelease, hstep]
  dsimp only
  rw [if_neg (by simp [hin, hacted])] <;> rfl

end

/-- Settles O39: the vote, the coordinator's verdict, and the three ends of a commit stitch. -/
theorem commitDecidesAndActs : Obligations.CommitDecidesAndActs := by
  refine ⟨fun s x r hinv htopo hstep hin => ⟨fun hvoted hslab => ?_, fun hvoted => ?_, fun hvoted hshadow hslab hsent hall => ?_,
    fun red slack huse hvoted => ?_, fun hd ha hroot c d hc => ?_, fun d hd ha hparent => ?_, fun d ha => ?_⟩,
    fun s r hinv hstep hin ha => ⟨fun hd => ?_, fun i hd => ?_, fun hd => ?_⟩⟩
  · rw [exec_commitVote hstep hin, if_neg (by simp [hvoted]),
      if_neg (fun h => hslab.elim (fun g => g h.1) fun g => g h.2)]
    rfl
  · rw [exec_commitVote hstep hin, if_pos hvoted]
  · have hexec := exec_commitVote hstep hin
    rw [if_neg (by simp [hvoted]), if_pos ⟨hshadow, hslab⟩] at hexec
    exact ⟨_, hexec, State.castVote_casts htopo hstep hsent hall⟩
  · rw [exec_classSCombine_commit htopo huse, State.childVotes]
    exact congrArg Host.Outcome.next (State.tryVotes_unvoted htopo hstep hvoted)
  · have hcoord : s.isCoordinator = true := by
      rw [State.isCoordinator_eq htopo, hroot]
      rfl
    have hund := State.undecided_of hstep hin hd ha
    have hexec : exec c s = .next (s.holdDecision d) := by
      rcases hc with ⟨rfl, hcombo, rfl⟩ | ⟨rfl, hcombo, rfl⟩ | ⟨rfl, hcombo, rfl⟩ | ⟨rfl, hcombo, rfl⟩ | ⟨rfl, hcombo, rfl⟩
      · exact exec_commitDecide hcoord hund (s.verdict_of false hcombo)
      · exact exec_commitDecide hcoord hund (s.verdict_of true hcombo)
      · rw [exec_voteDeadline hcoord hund, s.verdict_of false hcombo]
        rfl
      · rw [exec_voteDeadline hcoord hund, s.verdict_of true hcombo]
        rfl
      · rw [exec_voteDeadline hcoord hund, s.verdict_none hcombo]
        rfl
    exact ⟨_, hexec, State.holdDecision_holds htopo hstep d⟩
  · have hcoord : s.isCoordinator = false := by
      rw [State.isCoordinator_eq htopo]
      exact Option.isNone_eq_false_iff.mpr (Option.isSome_iff_ne_none.mpr hparent)
    have hexec := exec_commitDecisionReceive (s := s) d
    rw [hcoord, State.undecided_of hstep hin hd ha] at hexec
    exact ⟨_, hexec, State.holdDecision_holds htopo hstep d⟩
  · rw [exec_commitDecisionReceive, State.undecided_acted hstep ha, Bool.and_false]
    rfl
  · have hexec := exec_commitRelease hstep hin ha
    rw [hd] at hexec
    exact ⟨_, hexec, State.commitStep_commits hinv.2 hstep⟩
  · have hexec := exec_commitRelease hstep hin ha
    rw [hd] at hexec
    obtain ⟨r', hskip⟩ := State.skipStep_skips hinv.2 hstep i
    exact ⟨_, r', hexec, hskip⟩
  · have hexec := exec_commitRelease hstep hin ha
    rw [hd] at hexec
    exact ⟨_, hexec, State.unresolvedStep_halts hinv.2⟩

end Sys2Proof.Machine

/-! O40: reconciliation of a step that a commit left unresolved (R314, R315). -/

namespace Sys2Proof.Machine

set_option Elab.async false

section

variable {s : State}

/-- The result of a reconciliation command shows. -/
theorem State.reconResult_shows (hwf : storeWf 0 s.regs = true) {code : Nat} (hcode : code < 8) :
    (s.reconResult code).fld Reg.STL_RECON_CTRL 6 4 = code ∧ (s.reconResult code).bit Reg.STL_EVENT 3 = true ∧
      Writes Part.signalled [Reg.STL_RECON_CTRL, Reg.STL_EVENT] s (s.reconResult code) := by
  unfold State.reconResult
  have h1 := s.setFld_writes Reg.STL_RECON_CTRL 6 4 code
  have hfld := State.fld_setFld s Reg.STL_RECON_CTRL (hi := 6) (lo := 4) (x := code) hwf (by decide) (by simpa using hcode)
  generalize s.setFld Reg.STL_RECON_CTRL 6 4 code = u at *
  have h2 := u.event_writes Reg.STL_EVENT 3
  exact ⟨(h2.fld (by decide) 6 4).trans hfld, State.bit_event _ _ _ (h1.wf hwf) (by decide), h1.widen.step h2⟩

theorem exec_lateCommit (h : s.hosted) : exec .lateCommit s = .next s.lateCommit :=
  congrArg Host.Outcome.next (State.onHost_of_hosted h _)

theorem exec_keep (h : s.hosted) : exec .keep s = .next s.keep := congrArg Host.Outcome.next (State.onHost_of_hosted h _)

theorem exec_adopt (h : s.hosted) : exec .adopt s = .next s.adopt := congrArg Host.Outcome.next (State.onHost_of_hosted h _)

/-- What a command is refused with (R314). -/
theorem State.reconRefusal_of (late : Bool) {code : Nat} (h : (s.busy = true ∧ code = 2) ∨
    (s.busy = false ∧ s.stl.commit.outcome ≠ 3 ∧ code = 3) ∨
    (s.busy = false ∧ s.stl.commit.outcome = 3 ∧ s.upd.epoch ≠ s.regN Reg.STL_RECON_EPOCH ∧ code = 4) ∨
    (late = true ∧ s.busy = false ∧ s.stl.commit.outcome = 3 ∧ s.upd.epoch = s.regN Reg.STL_RECON_EPOCH ∧
      s.upd.shadow ≠ .complete ∧ code = 5)) : s.reconRefusal late = some code := by
  unfold State.reconRefusal State.commit
  rcases h with ⟨hbusy, rfl⟩ | ⟨hbusy, hout, rfl⟩ | ⟨hbusy, hout, hepoch, rfl⟩ | ⟨rfl, hbusy, hout, hepoch, hshadow, rfl⟩
  · rw [if_pos hbusy]
  · rw [if_neg (by simp [hbusy]), if_pos hout]
  · rw [if_neg (by simp [hbusy]), if_neg (not_not.mpr hout), if_pos hepoch]
  · rw [if_neg (by simp [hbusy]), if_neg (not_not.mpr hout), if_neg (not_not.mpr hepoch), if_pos (by simp [hshadow])]

/-- Nothing refuses a command (R314). -/
theorem State.reconRefusal_none (late : Bool) (hbusy : s.busy = false) (hout : s.stl.commit.outcome = 3)
    (hepoch : s.upd.epoch = s.regN Reg.STL_RECON_EPOCH)
    (hlate : late = true → s.upd.shadow = .complete ∧ s.upd.shadowStep = s.regN Reg.STL_RECON_STEP) : s.reconRefusal late = none := by
  unfold State.reconRefusal State.commit
  rw [if_neg (by simp [hbusy]), if_neg (not_not.mpr hout), if_neg (not_not.mpr hepoch)]
  cases late
  · rfl
  · obtain ⟨hshadow, hstep⟩ := hlate rfl
    rw [if_neg (by simp [hshadow]), if_neg (by simp [hstep])]

/-- After a command that acted (R315). -/
theorem State.afterRecon_shows (hwf : storeWf 0 s.regs = true) :
    s.afterRecon.fld Reg.STL_RECON_CTRL 6 4 = 1 ∧ s.afterRecon.bit Reg.STL_EVENT 3 = true ∧
      Writes Part.signalled [Reg.STL_RECON_CTRL, Reg.STL_EVENT] s s.afterRecon := by
  unfold State.afterRecon
  have h1 : Writes [.out] [] s (if s.image.st = .running then s.exchange else s) :=
    Writes.ite _ s.exchange_evolves.writes (Writes.refl s)
  generalize (if s.image.st = .running then s.exchange else s) = u at *
  obtain ⟨hfld, hbit, h2⟩ := State.reconResult_shows (h1.wf hwf) (code := 1) (by decide)
  exact ⟨hfld, hbit, h1.widen.step h2⟩

/-- A late commit flips (R314). -/
theorem State.lateCommit_commits (hwf : storeWf 0 s.regs = true) (h : s.reconRefusal true = none) :
    s.lateCommit.upd = { s.upd with epoch := (s.upd.epoch + 1) % 2 ^ 64, slabB := !s.upd.slabB, shadow := .stale } ∧
      s.lateCommit.stl.commit = { s.stl.commit with outcome := 1, resolved := true } ∧
      s.lateCommit.fld Reg.STL_RECON_CTRL 6 4 = 1 ∧ s.lateCommit.bit Reg.STL_EVENT 3 = true ∧
      s.keeps s.lateCommit ([.upd, .stl] ++ Part.signalled) ∧ s.sameBytes s.lateCommit := by
  unfold State.lateCommit
  rw [h]
  dsimp only
  obtain ⟨hupd, -, h1⟩ := State.flip_flips hwf
  have hstl1 : s.flip.stl = s.stl := h1.evolves.keep .stl (by decide)
  generalize s.flip = u1 at *
  have h2 : Writes [.stl] [] u1 (u1.setCommit { u1.commit with outcome := 1, resolved := true }) := (u1.setCommit_evolves _).writes
  have hcommit2 : (u1.setCommit { u1.commit with outcome := 1, resolved := true }).stl.commit =
      { u1.stl.commit with outcome := 1, resolved := true } := rfl
  generalize u1.setCommit { u1.commit with outcome := 1, resolved := true } = u2 at *
  obtain ⟨hfld, hbit, h3⟩ := State.afterRecon_shows (h2.wf (h1.wf hwf))
  have hupd3 : u2.afterRecon.upd = u1.upd := Eq.trans (h3.evolves.keep .upd (by decide)) (h2.evolves.keep .upd (by decide))
  have hstl3 : u2.afterRecon.stl = u2.stl := h3.evolves.keep .stl (by decide)
  have hall : Evolves ([.upd, .stl] ++ Part.signalled) s u2.afterRecon :=
    ((h1.evolves.widen rfl).step h2.evolves rfl).step h3.evolves rfl
  exact ⟨hupd3.trans hupd, by rw [hstl3, hcommit2, hstl1], hfld, hbit, hall.keep, hall.sameBytes⟩

/-- A keep leaves the slabs (R314). -/
theorem State.keep_keeps (hwf : storeWf 0 s.regs = true) (h : s.reconRefusal false = none) :
    s.keep.stl.commit = { s.stl.commit with outcome := 2, resolved := true } ∧
      s.keep.fld Reg.STL_RECON_CTRL 6 4 = 1 ∧ s.keep.bit Reg.STL_EVENT 3 = true ∧
      s.touches s.keep (.stl :: Part.signalled) [Reg.STL_RECON_CTRL, Reg.STL_EVENT] := by
  unfold State.keep
  rw [h]
  dsimp only
  have h2 : Writes [.stl] [] s (s.setCommit { s.commit with outcome := 2, resolved := true }) := (s.setCommit_evolves _).writes
  have hcommit2 : (s.setCommit { s.commit with outcome := 2, resolved := true }).stl.commit =
      { s.stl.commit with outcome := 2, resolved := true } := rfl
  generalize s.setCommit { s.commit with outcome := 2, resolved := true } = u2 at *
  obtain ⟨hfld, hbit, h3⟩ := State.afterRecon_shows (h2.wf hwf)
  have hstl3 : u2.afterRecon.stl = u2.stl := h3.evolves.keep .stl (by decide)
  exact ⟨by rw [hstl3, hcommit2], hfld, hbit, ((h2.widen (Q := .stl :: Part.signalled)
    (M := [Reg.STL_RECON_CTRL, Reg.STL_EVENT])).step h3).touches⟩

/-- The state that an ADOPT sets (R314). -/
def State.adopted (s : State) : State :=
  ({ s with upd := { s.upd with
      epoch := s.regN Reg.STL_RECON_EPOCH, slabB := s.bit Reg.STL_RECON_CTRL 3, shadow := .stale } } : State).setCommit
    { s.commit with outcome := 0, resolved := false }

theorem State.adopt_adopts (hwf : storeWf 0 s.regs = true) (h : s.image.st = .loaded) :
    s.adopt.upd.epoch = s.regN Reg.STL_RECON_EPOCH ∧ s.adopt.upd.slabB = s.bit Reg.STL_RECON_CTRL 3 ∧
      s.adopt.upd.shadow = .stale ∧ s.adopt.stl.commit.outcome = 0 ∧ s.adopt.fld Reg.STL_RECON_CTRL 6 4 = 1 ∧
      s.touches s.adopt ([.upd, .stl] ++ Part.signalled) [Reg.STL_RECON_CTRL, Reg.STL_EVENT] := by
  have hadopt : s.adopt = s.adopted.reconResult 1 := if_neg (not_not.mpr h)
  have h1 : Writes [.upd, .stl] [] s s.adopted :=
    (State.evolves_upd s _).writes.widen.step (State.setCommit_evolves _ _).writes
  have hepoch : s.adopted.upd.epoch = s.regN Reg.STL_RECON_EPOCH := rfl
  have hslab : s.adopted.upd.slabB = s.bit Reg.STL_RECON_CTRL 3 := rfl
  have hshadow : s.adopted.upd.shadow = .stale := rfl
  have hout : s.adopted.stl.commit.outcome = 0 := rfl
  rw [hadopt]
  generalize s.adopted = u at *
  obtain ⟨hfld, -, h2⟩ := State.reconResult_shows (h1.wf hwf) (code := 1) (by decide)
  have hupd : (u.reconResult 1).upd = u.upd := h2.evolves.keep .upd (by decide)
  have hstl : (u.reconResult 1).stl = u.stl := h2.evolves.keep .stl (by decide)
  exact ⟨by rw [hupd, hepoch], by rw [hupd, hslab], by rw [hupd, hshadow], by rw [hstl, hout], hfld,
    ((h1.widen (Q := [.upd, .stl] ++ Part.signalled) (M := [Reg.STL_RECON_CTRL, Reg.STL_EVENT])).step h2).touches⟩

end

/-- Settles O40: each command either is refused with its code or acts, and shows its result. -/
theorem reconciliationResolves : Obligations.ReconciliationResolves := by
  intro s hinv hhost
  have hresult (code : Nat) (hcode : code < 8) : (s.reconResult code).fld Reg.STL_RECON_CTRL 6 4 = code ∧
      (s.reconResult code).bit Reg.STL_EVENT 3 = true ∧
      s.touches (s.reconResult code) Part.signalled [Reg.STL_RECON_CTRL, Reg.STL_EVENT] := by
    obtain ⟨hfld, hbit, hlaw⟩ := State.reconResult_shows hinv.2 hcode
    exact ⟨hfld, hbit, hlaw.touches⟩
  refine ⟨fun c hc code hwhy => ⟨_, ?_, hresult code ?_⟩, fun hbusy hout hepoch => ⟨fun hshadow hstep => ⟨_, exec_lateCommit hhost,
    State.lateCommit_commits hinv.2 (State.reconRefusal_none true hbusy hout hepoch fun _ => ⟨hshadow, hstep⟩)⟩,
    _, exec_keep hhost, State.keep_keeps hinv.2 (State.reconRefusal_none false hbusy hout hepoch fun h => (nomatch h))⟩,
    fun hloaded => ⟨_, exec_adopt hhost, State.adopt_adopts hinv.2 hloaded⟩, fun hloaded => ⟨_, exec_adopt hhost, ?_⟩⟩
  · rcases hc with rfl | rfl
    · rw [exec_lateCommit hhost, State.lateCommit,
        State.reconRefusal_of true (hwhy.imp_right (.imp_right (.imp_right fun h => ⟨rfl, h.2⟩)))]
    · have hwhy' : s.reconRefusal false = some code := by
        refine State.reconRefusal_of false (hwhy.imp_right (.imp_right (.imp_right fun h => ?_)))
        exact absurd h.1 (by decide)
      rw [exec_keep hhost, State.keep, hwhy']
  · rcases hwhy with ⟨-, rfl⟩ | ⟨-, -, rfl⟩ | ⟨-, -, -, rfl⟩ | ⟨-, -, -, -, -, rfl⟩ <;> decide
  · have hadopt : s.adopt = s.reconResult 6 := if_pos hloaded
    rw [hadopt]
    obtain ⟨hfld, -, htouches⟩ := hresult 6 (by decide)
    exact ⟨hfld, htouches⟩

end Sys2Proof.Machine

/-! O41: the queue set and the MSI-X vectors (R325 to R330, R335, R336, R425). -/

namespace Sys2Proof.Machine

set_option Elab.async false

section

variable {s : State}

/-! ## The queue set -/

/-- The decision on a ticket reads the image, the gate's state and the tick alone. -/
theorem State.gateDecide_congr {t : State} (himage : t.image = s.image) (hadm : t.adm = s.adm) (htick : t.tick = s.tick)
    (x : Ticket) : t.gateDecide x = s.gateDecide x := by
  cases s
  cases t
  subst himage hadm htick
  rfl

theorem State.linkUp_of_hosted (h : s.hosted) : s.linkUp = true := by
  have hserving := h.1
  simp only [State.serving, Bool.and_eq_true] at hserving
  exact hserving.1.1.1

/-- R328: a record moves the tail of the completion ring. -/
theorem State.cqWrite_tail (hwf : storeWf 0 s.regs = true) (c : Completion) :
    (s.cqWrite c).regN Reg.PCI_CQ_TAIL = (s.regN Reg.PCI_CQ_TAIL + 1) % 65536 := by
  unfold State.cqWrite
  rw [(State.signal_writes _ _).regN (by decide)]
  exact State.regN_setRegN _ _ _ ((State.toHost_writes s _).wf hwf) (by omega)

/-- R328, R329: with the link up the record goes to the ring. -/
theorem State.cqWrite_out (hup : s.linkUp = true) (c : Completion) :
    .hostWrite (s.regN Reg.PCI_CQ_BASE + 32 * (s.regN Reg.PCI_CQ_TAIL % 2 ^ s.fld Reg.PCI_QUEUE_CTRL 15 12))
      (leBytes 8 c.tag ++ leBytes 8 c.stepId ++ leBytes 8 c.deadline ++ leBytes 4 (16 * statusCode c.status + 256 * c.cause +
        2 ^ 31 * ringPhase (s.regN Reg.PCI_CQ_TAIL) (s.fld Reg.PCI_QUEUE_CTRL 15 12)) ++ leBytes 4 0) ∈ (s.cqWrite c).out := by
  unfold State.cqWrite
  dsimp only
  rw [State.toHost_of_linkUp hup]
  refine (State.signal_evolves _ 12).out.subset ?_
  exact List.mem_append_right _ (List.mem_singleton_self _)

theorem State.cqAll_writes (l : List Completion) (s : State) : Writes Part.signalled [Reg.PCI_CQ_TAIL] s (s.cqAll l) := by
  induction l generalizing s with
  | nil => exact Writes.refl s
  | cons c rest ih => exact (s.cqWrite_writes c).step (ih _) rfl (fun _ h => h)

theorem State.cqAll_tail (l : List Completion) (hwf : storeWf 0 s.regs = true) (hsmall : s.regN Reg.PCI_CQ_TAIL < 65536) :
    (s.cqAll l).regN Reg.PCI_CQ_TAIL = (s.regN Reg.PCI_CQ_TAIL + l.length) % 65536 := by
  induction l generalizing s with
  | nil => exact (Nat.mod_eq_of_lt hsmall).symm
  | cons c rest ih =>
    have htail := State.cqWrite_tail hwf c
    rw [State.cqAll, ih ((s.cqWrite_writes c).wf hwf) (by omega), htail, List.length_cons]
    omega

/-- R325: an enabled set has the sizes written and pointers at 0, and the unread records are in its completion ring. -/
theorem State.queueEnable_starts (hwf : storeWf 0 s.regs = true) (hup : s.linkUp = true) (hoff : s.queueOn = false)
    (hdrain : s.draining = false) (ctrl : Nat) : let t := s.queueEnable ctrl
      t.fld Reg.PCI_QUEUE_CTRL 15 0 = 16 * bits ctrl 15 4 + 1 ∧
      (∀ o ∈ [Reg.PCI_TQ_TAIL, Reg.PCI_TQ_HEAD, Reg.PCI_AQ_HEAD, Reg.PCI_AQ_TAIL, Reg.PCI_CQ_HEAD], t.reg o = 0) ∧
      t.regN Reg.PCI_CQ_TAIL = s.adm.unread.length % 65536 ∧ t.adm = s.adm ∧
      (∀ c, s.adm.unread = [c] → .hostWrite (s.regN Reg.PCI_CQ_BASE) (leBytes 8 c.tag ++ leBytes 8 c.stepId ++
        leBytes 8 c.deadline ++ leBytes 4 (16 * statusCode c.status + 256 * c.cause + 2 ^ 31) ++ leBytes 4 0) ∈ t.out) ∧
      s.touches t Part.signalled (Reg.PCI_QUEUE_CTRL :: queuePointers) := by
  have hbits : 16 * bits ctrl 15 4 + 1 < 2 ^ 16 := by
    have h : bits ctrl 15 4 < 2 ^ 12 := Nat.mod_lt _ (by decide)
    omega
  unfold State.queueEnable
  rw [if_neg (by simp [hoff, hdrain])]
  have hsizes := State.fld_setFld s Reg.PCI_QUEUE_CTRL (hi := 15) (lo := 0) hwf (by decide) hbits
  have h1 := s.setFld_writes Reg.PCI_QUEUE_CTRL 15 0 (16 * bits ctrl 15 4 + 1)
  generalize s.setFld Reg.PCI_QUEUE_CTRL 15 0 (16 * bits ctrl 15 4 + 1) = a at *
  have h2 := a.zeroRegs_writes queuePointers
  have hzero : ∀ o ∈ queuePointers, (a.zeroRegs queuePointers).reg o = 0 := fun o ho =>
    State.reg_zeroRegs _ _ _ ho (h1.wf hwf)
  have w2 := h2.wf (h1.wf hwf)
  generalize a.zeroRegs queuePointers = b at *
  have hall := (h1.widen (Q := Part.signalled) (M := Reg.PCI_QUEUE_CTRL :: queuePointers)).step h2 rfl
    (fun _ h => List.mem_cons_of_mem _ h)
  have hadm : b.adm = s.adm := hall.evolves.keep .adm (by decide)
  have hout : b.linkUp = true := (hall.bit (by decide) 10).trans hup
  have htail0 : b.regN Reg.PCI_CQ_TAIL = 0 := by
    rw [State.regN, hzero _ (by decide)]
    rfl
  have h3 := b.cqAll_writes s.adm.unread
  have htail := State.cqAll_tail (s := b) s.adm.unread w2 (by omega)
  refine ⟨?_, ?_, ?_, ?_, ?_, ?_⟩
  · rw [h3.fld (by decide), h2.fld (by decide), hsizes]
  · intro o ho
    have hne : ∀ k ∈ [Reg.PCI_TQ_TAIL, Reg.PCI_TQ_HEAD, Reg.PCI_AQ_HEAD, Reg.PCI_AQ_TAIL, Reg.PCI_CQ_HEAD],
        k ∉ [Reg.PCI_CQ_TAIL] ∧ k ∈ queuePointers := by decide
    rw [h3.reg (hne o ho).1, hzero o (hne o ho).2]
  · rw [htail, htail0, Nat.zero_add]
  · exact Eq.trans (h3.evolves.keep .adm (by decide)) hadm
  · intro c hc
    have hrecord := State.cqWrite_out hout c
    have hbase : b.regN Reg.PCI_CQ_BASE = s.regN Reg.PCI_CQ_BASE := hall.regN (by decide)
    rw [htail0, hbase] at hrecord
    rw [hc]
    simpa [State.cqAll, ringPhase] using hrecord
  · exact (hall.step h3 rfl (by decide)).touches

/-- R330: a set that is disabled drains. -/
theorem State.queueDisable_drains (hwf : storeWf 0 s.regs = true) (hon : s.queueOn = true) (ctrl : Nat) :
    (s.queueDisable ctrl).queueOn = false ∧ (s.queueDisable ctrl).draining = true ∧
      s.touches (s.queueDisable ctrl) [.regs] [Reg.PCI_QUEUE_CTRL] := by
  unfold State.queueDisable
  rw [if_pos hon]
  have h1 := s.setBit_writes Reg.PCI_QUEUE_CTRL 0 false
  have hoff := State.bit_setBit s Reg.PCI_QUEUE_CTRL 0 false hwf (by decide)
  generalize s.setBit Reg.PCI_QUEUE_CTRL 0 false = a at *
  have h2 := a.setBit_writes Reg.PCI_QUEUE_CTRL 1 true
  have hkeep := a.bit_setFld Reg.PCI_QUEUE_CTRL (hi := 1) (lo := 1) 1 0 (h1.wf hwf) (by decide)
  have hdrain := State.bit_setBit a Reg.PCI_QUEUE_CTRL 1 true (h1.wf hwf) (by decide)
  rw [if_neg (by decide)] at hkeep
  exact ⟨hkeep.trans hoff, hdrain, (h1.step h2).touches⟩

theorem State.ptrErr_shows (hwf : storeWf 0 s.regs = true) :
    s.ptrErr.bit Reg.PCI_EVENT 5 = true ∧ s.touches s.ptrErr Part.signalled [Reg.PCI_EVENT] :=
  ⟨State.bit_event _ _ _ hwf (by decide), (s.event_writes _ _).touches⟩

/-- A pointer takes the count written. -/
theorem State.pointer_taken (hwf : storeWf 0 s.regs = true) (o n : Nat) :
    (s.setRegN o (n % 65536)).regN o = n % 65536 ∧ s.touches (s.setRegN o (n % 65536)) [.regs] [o] :=
  ⟨State.regN_setRegN _ _ _ hwf (by omega), (s.setRegN_writes _ _).touches⟩

/-- A doorbell that is decided changes the gate's queue and ADM_ANSWER's VALID alone. -/
theorem State.doorbell_writes (h : s.adm.bells.length < 8) (x : Ticket) (ring : Bool) :
    Writes [.regs, .adm] [Reg.ADM_ANSWER] s (s.doorbell x ring) := by
  rw [State.doorbell_decided h]
  exact (s.rung_writes.step (State.acceptTicket_evolves _ x (s.gateDecide x)).writes).step (State.evolves_adm _ _).writes

/-- The ticket at the head is fetched (R326). -/
def State.ticketTaken (s : State) : State :=
  let h := s.regN Reg.PCI_TQ_HEAD
  let t := (s.send (.hostFetch (s.regN Reg.PCI_TQ_BASE + 64 * (h % 2 ^ s.fld Reg.PCI_QUEUE_CTRL 7 4)) 64)).setRegN
    Reg.PCI_TQ_HEAD ((h + 1) % 65536)
  { t with host := { t.host with fetched := t.host.fetched + 1 } }

theorem State.ticketTaken_parts : s.ticketTaken.image = s.image ∧ s.ticketTaken.adm = s.adm ∧ s.ticketTaken.tick = s.tick ∧
    s.ticketTaken.host.fetched = s.host.fetched + 1 ∧ s.ticketTaken.out = s.out ++ [.hostFetch (s.regN Reg.PCI_TQ_BASE +
      64 * (s.regN Reg.PCI_TQ_HEAD % 2 ^ s.fld Reg.PCI_QUEUE_CTRL 7 4)) 64] :=
  ⟨rfl, rfl, rfl, rfl, rfl⟩

theorem State.ticketTaken_writes : Writes [.regs, .out, .host] [Reg.PCI_TQ_HEAD] s s.ticketTaken :=
  (((s.send_evolves _).writes.widen (Q := [.regs, .out, .host]) (M := [Reg.PCI_TQ_HEAD])).step (State.setRegN_writes _ _ _)).step
    (State.evolves_host _ _).writes

theorem State.ticketTaken_head (hwf : storeWf 0 s.regs = true) :
    s.ticketTaken.regN Reg.PCI_TQ_HEAD = (s.regN Reg.PCI_TQ_HEAD + 1) % 65536 :=
  State.regN_setRegN (s.send _) _ _ hwf (by omega)

/-- R326: a ticket that is fetched rings at the gate. -/
theorem exec_ticketFetch (hwf : storeWf 0 s.regs = true) (k : Ticket) (hon : s.queueOn = true) (hup : s.linkUp = true)
    (hne : s.regN Reg.PCI_TQ_HEAD ≠ s.regN Reg.PCI_TQ_TAIL) (hbells : s.adm.bells.length < 8)
    (hroom : s.answerRoom = true) (hps : s.ldg.ps = .a0) : ∃ t, exec (.ticketFetch k) s = .next t ∧
      t.adm.bells = s.adm.bells ++ [⟨k, true, s.adm.seq + 1, s.gateDecide k⟩] ∧ t.host.fetched = s.host.fetched + 1 ∧
      t.regN Reg.PCI_TQ_HEAD = (s.regN Reg.PCI_TQ_HEAD + 1) % 65536 ∧
      t.out = s.out ++ [.hostFetch (s.regN Reg.PCI_TQ_BASE + 64 * (s.regN Reg.PCI_TQ_HEAD %
        2 ^ s.fld Reg.PCI_QUEUE_CTRL 7 4)) 64] ∧
      s.touches t [.regs, .out, .host, .adm] [Reg.PCI_TQ_HEAD, Reg.ADM_ANSWER] := by
  have hexec : exec (.ticketFetch k) s = .next (s.ticketTaken.doorbell k true) :=
    congrArg Host.Outcome.next (if_pos (by simp [hon, hup, hne, hbells, hroom, hps]))
  obtain ⟨himage, hadm, htick, hfetched, hout⟩ := s.ticketTaken_parts
  have hgate := State.gateDecide_congr himage hadm htick k
  have h1 := s.ticketTaken_writes
  have hhead := State.ticketTaken_head hwf
  refine ⟨_, hexec, ?_⟩
  generalize s.ticketTaken = u at *
  rw [← hadm] at hbells
  obtain ⟨hbell, -⟩ := State.doorbell_decides (h1.wf hwf) hbells k true
  have h2 := State.doorbell_writes hbells k true
  generalize u.doorbell k true = t at *
  have hhost : t.host = u.host := h2.evolves.keep .host (by decide)
  have hsent : t.out = u.out := h2.evolves.keep .out (by decide)
  have hall := (h1.widen (Q := [.regs, .out, .host, .adm]) (M := [Reg.PCI_TQ_HEAD, Reg.ADM_ANSWER]) rfl (by decide)).step h2
    rfl (by decide)
  refine ⟨?_, ?_, ?_, ?_, hall.touches⟩
  · rw [hbell, hgate, hadm]
  · rw [hhost, hfetched]
  · rw [h2.regN (by decide), hhead]
  · rw [hsent, hout]

/-! ## MSI-X -/

theorem State.setVec_new (v : Nat) {x : MsixVec} (hx : x ≠ {}) : (s.setVec v x).vec v = x :=
  storeGet_storeSet_new _ _ _ _ hx

theorem State.setVec_writes (v : Nat) (x : MsixVec) : Writes [.host] [] s (s.setVec v x) := (s.setVec_evolves v x).writes

theorem MsixVec.ne_default_of_unmasked {x : MsixVec} (h : x.masked = false) : x ≠ {} := by
  rintro rfl
  exact absurd h (by decide)

/-- R336: an unmasked vector with the link up sends its message. -/
theorem State.fire_sends {v : Nat} (hmask : (s.vec v).masked = false) (hup : s.linkUp = true) :
    (s.fire v).out = s.out ++ [.msix v] ∧ ((s.fire v).vec v).masked = false ∧ ((s.fire v).vec v).pendingBit = false ∧
      ((s.fire v).vec v).due = false ∧ Writes [.out, .host] [] s (s.fire v) := by
  obtain ⟨x, hx⟩ : ∃ x : MsixVec, x = { s.vec v with
    pendingBit := false, due := false, cooling := decide (s.fld Reg.PCI_COALESCE 7 0 ≠ 0) } := ⟨_, rfl⟩
  have hfire : s.fire v = (s.setVec v x).send (.msix v) := by
    rw [State.fire, if_neg (by simp [hmask]), State.toHost_of_linkUp ((s.linkUp_setVec v _).trans hup), hx]
  have hmask' : x.masked = false := by rw [hx]; exact hmask
  have hpend : x.pendingBit = false := by rw [hx]
  have hdue : x.due = false := by rw [hx]
  have hvec : ((s.setVec v x).send (.msix v)).vec v = x := s.setVec_new v (MsixVec.ne_default_of_unmasked hmask')
  have hlaw := ((s.setVec_writes v x).widen (Q := [.out, .host]) (M := [])).step (State.send_evolves _ (.msix v)).writes
  rw [hfire, hvec]
  exact ⟨rfl, hmask', hpend, hdue, hlaw⟩

/-- R336: the message of a masked vector pends. -/
theorem State.fire_pends {v : Nat} (hmask : (s.vec v).masked = true) :
    (s.fire v).vec v = { s.vec v with pendingBit := true, due := false } ∧ Writes [.host] [] s (s.fire v) := by
  unfold State.fire
  rw [if_pos hmask]
  exact ⟨s.setVec_new v (fun h => Bool.noConfusion (congrArg MsixVec.pendingBit h)), s.setVec_writes v _⟩

/-- R425: what a vector reports does not depend on the vectors' own state. -/
theorem State.reports_setVec (v w : Nat) (x : MsixVec) : (s.setVec w x).reports v = s.reports v := rfl

theorem exec_msixCoalesceEnd_cool {v : Fin 32} (h : (s.vec v).cooling = false) : exec (.msixCoalesceEnd v) s = .next s :=
  congrArg Host.Outcome.next (if_neg (by simp [h]))

theorem exec_msixCoalesceEnd_due {v : Fin 32} (hcool : (s.vec v).cooling = true) (hdue : (s.vec v).due = true) :
    exec (.msixCoalesceEnd v) s = .next ((s.setVec v { s.vec v with cooling := false }).fire v) :=
  congrArg Host.Outcome.next ((if_pos hcool).trans (if_pos hdue))

theorem exec_msixCoalesceEnd_quiet {v : Fin 32} (hcool : (s.vec v).cooling = true) (hdue : (s.vec v).due = false) :
    exec (.msixCoalesceEnd v) s = .next (s.setVec v { s.vec v with cooling := false }) :=
  congrArg Host.Outcome.next ((if_pos hcool).trans (if_neg (by simp [hdue])))

/-- R336: a message that fell due in the interval goes at its end. -/
theorem msixCoalesceEnd_sends {v : Fin 32} (hcool : (s.vec v).cooling = true) (hdue : (s.vec v).due = true)
    (hmask : (s.vec v).masked = false) (hup : s.linkUp = true) : ∃ t, exec (.msixCoalesceEnd v) s = .next t ∧
      t.out = s.out ++ [.msix v] ∧ (t.vec v).due = false ∧ s.touches t [.out, .host] [] := by
  refine ⟨_, exec_msixCoalesceEnd_due hcool hdue, ?_⟩
  have h1 := s.setVec_writes v { s.vec v with cooling := false }
  have hvec := s.setVec_new v (MsixVec.ne_default_of_unmasked (x := { s.vec v with cooling := false }) hmask)
  have hout : (s.setVec v { s.vec v with cooling := false }).out = s.out := rfl
  have hup' := (s.linkUp_setVec v { s.vec v with cooling := false }).trans hup
  generalize s.setVec v { s.vec v with cooling := false } = u at *
  obtain ⟨hsent, -, -, hnot, h2⟩ := State.fire_sends (s := u) (v := v) (by rw [hvec]; exact hmask) hup'
  exact ⟨hsent.trans (congrArg (· ++ _) hout), hnot, ((h1.widen (Q := [.out, .host]) (M := [])).step h2).touches⟩

/-- R336: a message that fell due pends while its vector is masked. -/
theorem msixCoalesceEnd_pends {v : Fin 32} (hcool : (s.vec v).cooling = true)
    (hdue : (s.vec v).due = true) (hmask : (s.vec v).masked = true) : ∃ t, exec (.msixCoalesceEnd v) s = .next t ∧
      (t.vec v).pendingBit = true ∧ (t.vec v).due = false ∧ (t.vec v).cooling = false ∧ s.touches t [.host] [] := by
  refine ⟨_, exec_msixCoalesceEnd_due hcool hdue, ?_⟩
  have h1 := s.setVec_writes v { s.vec v with cooling := false }
  have hvec : (s.setVec v { s.vec v with cooling := false }).vec v = { s.vec v with cooling := false } :=
    s.setVec_new v fun h => by
      have hnot : (s.vec v).due = false := congrArg MsixVec.due h
      exact Bool.noConfusion (hdue.symm.trans hnot)
  generalize s.setVec v { s.vec v with cooling := false } = u at *
  obtain ⟨hpend, h2⟩ := State.fire_pends (s := u) (v := v) (by rw [hvec]; exact hmask)
  rw [hpend, hvec]
  exact ⟨rfl, rfl, rfl, (h1.step h2).touches⟩

theorem exec_msixUnmask {v : Fin 32} (h : s.hosted) : exec (.msixUnmask v) s = .next (s.unmask v) :=
  congrArg Host.Outcome.next (State.onHost_of_hosted h _)

/-- The vector after it is unmasked. -/
def State.unmasked (s : State) (v : Nat) : State := s.setVec v { s.vec v with masked := false, pendingBit := false, due := false }

theorem State.unmasked_vec (v : Nat) :
    (s.unmasked v).vec v = { s.vec v with masked := false, pendingBit := false, due := false } :=
  s.setVec_new v (MsixVec.ne_default_of_unmasked rfl)

theorem State.unmask_quiet {v : Nat} (hmask : (s.vec v).masked = true) (hquiet : s.reports v = false) :
    s.unmask v = s.unmasked v := by
  refine (if_pos hmask).trans (if_neg ?_)
  exact fun h => absurd (hquiet.symm.trans h) (by decide)

theorem State.unmask_reports {v : Nat} (hmask : (s.vec v).masked = true) (hreport : s.reports v = true) :
    s.unmask v = (s.unmasked v).signal v := (if_pos hmask).trans (if_pos hreport)

/-- R425: a vector that is unmasked sends one message where its source has something to report. -/
theorem State.unmask_sends {v : Nat} (hmask : (s.vec v).masked = true) (hreport : s.reports v = true) (hup : s.linkUp = true)
    (hcool : (s.vec v).cooling = false ∨ s.fld Reg.PCI_COALESCE 7 0 = 0) : let t := s.unmask v
      (t.vec v).masked = false ∧ (t.vec v).pendingBit = false ∧ t.out = s.out ++ [.msix v] ∧ s.touches t [.out, .host] [] := by
  have h1 := s.setVec_writes v { s.vec v with masked := false, pendingBit := false, due := false }
  have hvec := s.unmasked_vec v
  have hout : (s.unmasked v).out = s.out := rfl
  have hup' : (s.unmasked v).linkUp = true := (s.linkUp_setVec v _).trans hup
  have hfld : (s.unmasked v).fld Reg.PCI_COALESCE 7 0 = s.fld Reg.PCI_COALESCE 7 0 := rfl
  rw [State.unmask_reports hmask hreport]
  change Writes _ _ s (s.unmasked v) at h1
  generalize s.unmasked v = u at *
  have hfire : u.signal v = u.fire v := by
    refine if_neg ?_
    rw [hvec, hfld]
    rcases hcool with h | h <;> simp [h]
  obtain ⟨hsent, hnot, hpend, -, h2⟩ := State.fire_sends (s := u) (v := v) (by rw [hvec]) hup'
  rw [hfire]
  exact ⟨hnot, hpend, hsent.trans (congrArg (· ++ _) hout), ((h1.widen (Q := [.out, .host]) (M := [])).step h2).touches⟩

/-- R336, R425: what the end of an interval and an unmasking do. -/
theorem msixVectors (v : Fin 32) :
     ((s.vec v).cooling = false → exec (.msixCoalesceEnd v) s = .next s) ∧
     ((s.vec v).cooling = true → (s.vec v).due = true → (s.vec v).masked = false → s.linkUp = true →
       ∃ t, exec (.msixCoalesceEnd v) s = .next t ∧ t.out = s.out ++ [.msix v] ∧ (t.vec v).due = false ∧
         s.touches t [.out, .host] []) ∧
     ((s.vec v).cooling = true → (s.vec v).due = true → (s.vec v).masked = true →
       ∃ t, exec (.msixCoalesceEnd v) s = .next t ∧ (t.vec v).pendingBit = true ∧ (t.vec v).due = false ∧
         (t.vec v).cooling = false ∧ s.touches t [.host] []) ∧
     ((s.vec v).cooling = true → (s.vec v).due = false → { s.vec v with cooling := false } ≠ ({} : MsixVec) →
       ∃ t, exec (.msixCoalesceEnd v) s = .next t ∧ t.vec v = { s.vec v with cooling := false } ∧ s.touches t [.host] []) ∧
     (s.hosted → (s.vec v).masked = false → exec (.msixUnmask v) s = .next s) ∧
     (s.hosted → (s.vec v).masked = true → s.reports v = false → ∃ t, exec (.msixUnmask v) s = .next t ∧
       (t.vec v).masked = false ∧ (t.vec v).pendingBit = false ∧ t.out = s.out ∧ s.touches t [.host] []) ∧
     (s.hosted → (s.vec v).masked = true → s.reports v = true →
       ((s.vec v).cooling = false ∨ s.fld Reg.PCI_COALESCE 7 0 = 0) → ∃ t, exec (.msixUnmask v) s = .next t ∧
       (t.vec v).masked = false ∧ (t.vec v).pendingBit = false ∧ t.out = s.out ++ [.msix v] ∧ s.touches t [.out, .host] []) := by
  refine ⟨exec_msixCoalesceEnd_cool, msixCoalesceEnd_sends, msixCoalesceEnd_pends, fun hcool hdue hne => ?_,
    fun hhost hmask => ?_, fun hhost hmask hquiet => ?_, fun hhost hmask hreport hcool => ?_⟩
  · exact ⟨_, exec_msixCoalesceEnd_quiet hcool hdue, s.setVec_new v hne, (s.setVec_writes v _).touches⟩
  · exact (exec_msixUnmask hhost).trans (congrArg Host.Outcome.next (if_neg (by simp [hmask])))
  · refine ⟨_, (exec_msixUnmask hhost).trans (congrArg Host.Outcome.next (State.unmask_quiet hmask hquiet)), ?_⟩
    rw [s.unmasked_vec v]
    exact ⟨rfl, rfl, rfl, (s.setVec_writes v _).touches⟩
  · exact ⟨_, exec_msixUnmask hhost, State.unmask_sends hmask hreport (State.linkUp_of_hosted hhost) hcool⟩

end

/-- Settles O41: the pointers and the queue's control take the values written, the records are written one by one, and a vector
fires when nothing holds its message back. -/
theorem queuesAndVectorsRun : Obligations.QueuesAndVectorsRun := by
  unfold Obligations.QueuesAndVectorsRun
  refine ⟨fun s hinv => ?_, fun v s _ => msixVectors v⟩
  have hwf : storeWf 0 s.regs = true := hinv.2
  refine ⟨fun ctrl h hoff hdrain => ?_, fun h hon => ?_, fun hdrain hzero => ?_, fun v h hin => ?_, fun v h hbeyond => ?_,
    fun k hon hup hne hbells hroom hps => ?_, fun v h hin => ?_, fun v h hin => ?_⟩
  · exact ⟨_, congrArg Host.Outcome.next (State.onHost_of_hosted h _),
      State.queueEnable_starts hwf (State.linkUp_of_hosted h) hoff hdrain _⟩
  · exact ⟨_, congrArg Host.Outcome.next (State.onHost_of_hosted h _), State.queueDisable_drains hwf hon _⟩
  · refine ⟨_, congrArg Host.Outcome.next (if_pos (by simp [hdrain, hzero])), State.bit_setBit _ _ _ _ hwf (by decide), ?_,
      (s.setBit_writes _ _ _).touches⟩
    have hkeep := s.bit_setFld Reg.PCI_QUEUE_CTRL (hi := 1) (lo := 1) 0 0 hwf (by decide)
    rw [if_neg (by decide)] at hkeep
    exact hkeep
  · exact ⟨_, congrArg Host.Outcome.next ((State.onHost_of_hosted h _).trans (if_neg (by omega))),
      State.pointer_taken hwf _ _⟩
  · exact ⟨_, congrArg Host.Outcome.next ((State.onHost_of_hosted h _).trans (if_pos hbeyond)), State.ptrErr_shows hwf⟩
  · exact exec_ticketFetch hwf k hon hup hne hbells (decide_eq_true hroom) hps
  · exact ⟨_, congrArg Host.Outcome.next ((State.onHost_of_hosted h _).trans (if_neg (by omega))),
      State.pointer_taken hwf _ _⟩
  · have hpop := (s.popUnread_evolves (ahead v.toNat (s.regN Reg.PCI_CQ_HEAD))).writes
    have hunread : (s.popUnread (ahead v.toNat (s.regN Reg.PCI_CQ_HEAD))).adm.unread =
      s.adm.unread.drop (ahead v.toNat (s.regN Reg.PCI_CQ_HEAD)) := rfl
    refine ⟨_, congrArg Host.Outcome.next ((State.onHost_of_hosted h _).trans (if_neg (by omega))), ?_⟩
    generalize s.popUnread (ahead v.toNat (s.regN Reg.PCI_CQ_HEAD)) = u at *
    exact ⟨State.regN_setRegN _ _ _ (hpop.wf hwf) (by omega), hunread,
      ((hpop.widen (Q := [.regs, .adm]) (M := [Reg.PCI_CQ_HEAD])).step (State.setRegN_writes _ _ _)).touches⟩

end Sys2Proof.Machine

/-! O42: the engines of the DMA (R331 to R333, R337). -/

namespace Sys2Proof.Machine

set_option Elab.async false

section

variable {s : State} {e : Nat}

/-! ## The registers of an engine -/

/-- An engine's registers and those that the module writes beside them. -/
theorem dmaReg_apart (he : e < 8) : dmaReg Reg.PCI_DMA_HEAD e ∉ Reg.trace ∧
    dmaReg Reg.PCI_DMA_HEAD e ∉ [Reg.PCI_EVENT, dmaReg Reg.PCI_DMA_STATUS e] ∧ dmaReg Reg.PCI_DMA_STATUS e ≠ Reg.PCI_EVENT ∧
    dmaReg Reg.PCI_DMA_STATUS e ∉ Reg.dmaMove ∧ dmaReg Reg.PCI_DMA_STATUS e ∉ Reg.dmaHead e ∧
    dmaReg Reg.PCI_DMA_BASE e ∉ Reg.dmaMove ∧ dmaReg Reg.PCI_DMA_CTRL e ∉ Reg.dmaMove ∧
    dmaReg Reg.PCI_DMA_CTRL e ≠ dmaReg Reg.PCI_DMA_STATUS e ∧ dmaReg Reg.PCI_DMA_CTRL e ≠ Reg.PCI_EVENT ∧
    dmaReg Reg.PCI_DMA_CTRL e ≠ dmaReg Reg.PCI_DMA_HEAD e := by
  revert he
  revert e
  decide

/-! ## Enabling an engine -/

/-- R333: an engine that is enabled starts; the ring's size is taken only while it was not. -/
theorem State.dmaEnable_starts (hwf : storeWf 0 s.regs = true) (he : e < 8) (ctrl : Nat) : let t := s.dmaEnable e ctrl
      t.bit (dmaReg Reg.PCI_DMA_CTRL e) 0 = true ∧ t.fld (dmaReg Reg.PCI_DMA_STATUS e) 1 0 = 0 ∧
      t.dmaSize e = (if s.bit (dmaReg Reg.PCI_DMA_CTRL e) 0 = true then s.dmaSize e else bits ctrl 7 4) ∧
      s.touches t [.regs] [dmaReg Reg.PCI_DMA_CTRL e, dmaReg Reg.PCI_DMA_STATUS e] := by
  obtain ⟨-, -, -, -, -, -, -, hne, -, -⟩ := dmaReg_apart he
  unfold State.dmaEnable State.dmaSize
  dsimp only
  generalize dmaReg Reg.PCI_DMA_CTRL e = o at *
  generalize dmaReg Reg.PCI_DMA_STATUS e = p at *
  have h1 : Writes [.regs] [o] s (if s.bit o 0 = true then s else s.setFld o 7 4 (bits ctrl 7 4)) :=
    Writes.ite _ (Writes.refl s) (s.setFld_writes o 7 4 _)
  have hsize : (if s.bit o 0 = true then s else s.setFld o 7 4 (bits ctrl 7 4)).fld o 7 4 =
      if s.bit o 0 = true then s.fld o 7 4 else bits ctrl 7 4 := by
    split
    · rfl
    · exact State.fld_setFld s o hwf (by decide) (Nat.mod_lt _ (by decide))
  generalize (if s.bit o 0 = true then s else s.setFld o 7 4 (bits ctrl 7 4)) = a at *
  have h2 := a.setBit_writes o 0 true
  have hon := State.bit_setBit a o 0 true (h1.wf hwf) (by decide)
  have hkeep : (a.setBit o 0 true).fld o 7 4 = a.fld o 7 4 :=
    State.fld_setFld_other (h1.wf hwf) 1 (by decide) (fun _ => Or.inr (by decide))
  have h12 := h1.step h2
  generalize a.setBit o 0 true = b at *
  have h3 := b.setFld_writes p 1 0 0
  have hstate := State.fld_setFld b p (hi := 1) (lo := 0) (x := 0) (h12.wf hwf) (by decide) (by decide)
  refine ⟨?_, hstate, ?_, ((h12.widen (Q := [.regs]) (M := [o, p]) rfl (by simp)).step h3 rfl (by simp)).touches⟩
  · rw [h3.bit (by simpa using hne), hon]
  · rw [h3.fld (by simpa using hne), hkeep, hsize]

/-! ## Statuses -/

/-- R332: a status is written into its entry of the ring, and the head moves past it. -/
theorem State.writeStatus_shows (hwf : storeWf 0 s.regs = true) (he : e < 8) (f : DmaFlight) (code : Nat) :
    let t := s.writeStatus e f code;
      (s.linkUp = true → .hostWrite (s.regN (dmaReg Reg.PCI_DMA_BASE e) + 32 * (f.index % 2 ^ s.dmaSize e) + 0x18)
        (leBytes 4 (code + 2 ^ 31)) ∈ t.out) ∧
      t.regN (dmaReg Reg.PCI_DMA_HEAD e) = (f.index + 1) % 65536 := by
  obtain ⟨hhead, -⟩ := dmaReg_apart he
  unfold State.writeStatus
  dsimp only
  have h1 := (s.toHost_writes (.hostWrite (s.regN (dmaReg Reg.PCI_DMA_BASE e) +
    32 * (f.index % 2 ^ s.dmaSize e) + 0x18) (leBytes 4 (code + 2 ^ 31))))
  have hsent (hup : s.linkUp = true) := State.toHost_of_linkUp hup (.hostWrite (s.regN (dmaReg Reg.PCI_DMA_BASE e) +
    32 * (f.index % 2 ^ s.dmaSize e) + 0x18) (leBytes 4 (code + 2 ^ 31)))
  generalize s.toHost (.hostWrite (s.regN (dmaReg Reg.PCI_DMA_BASE e) +
    32 * (f.index % 2 ^ s.dmaSize e) + 0x18) (leBytes 4 (code + 2 ^ 31))) = a at *
  have hout : (a.setRegN (dmaReg Reg.PCI_DMA_HEAD e) ((f.index + 1) % 65536)).out = a.out := rfl
  have hmoved := State.regN_setRegN a (dmaReg Reg.PCI_DMA_HEAD e) ((f.index + 1) % 65536) (h1.wf hwf) (by omega)
  generalize a.setRegN (dmaReg Reg.PCI_DMA_HEAD e) ((f.index + 1) % 65536) = b at *
  have h3 := b.trace_writes 0 0x13 e (f.index % 65536 + 2 ^ 16 * (code + 2 ^ 31) + 2 ^ 48 * (f.desc.tag % 2 ^ 32))
  generalize b.trace 0 0x13 e (f.index % 65536 + 2 ^ 16 * (code + 2 ^ 31) + 2 ^ 48 * (f.desc.tag % 2 ^ 32)) = c at *
  have h4 : Writes [.out, .heldOut, .host] [] c (if f.desc.irq then c.signal (4 + e) else c) :=
    Writes.ite _ (c.signal_writes _) (Writes.refl c)
  refine ⟨fun hup => ?_, ?_⟩
  · refine h4.evolves.out.subset (h3.evolves.out.subset ?_)
    rw [hout, hsent hup]
    exact List.mem_append_right _ (List.mem_singleton_self _)
  · rw [h4.regN (by simp), h3.regN hhead, hmoved]

/-- R333: a code other than 0 shows as the engine stops. -/
theorem State.dmaStop_shows (hwf : storeWf 0 s.regs = true) (he : e < 8) {index code : Nat} (hcode : code < 8) :
    (s.dmaStop e index code).regN (dmaReg Reg.PCI_DMA_STATUS e) = 2 + 16 * code + 65536 * (index % 65536) ∧
      (s.dmaStop e index code).bit Reg.PCI_EVENT 6 = true := by
  obtain ⟨-, -, hne, -⟩ := dmaReg_apart he
  unfold State.dmaStop
  have h1 := s.setRegN_writes (dmaReg Reg.PCI_DMA_STATUS e) (2 + 16 * code + 65536 * (index % 65536))
  have hstatus := State.regN_setRegN s (dmaReg Reg.PCI_DMA_STATUS e) (2 + 16 * code + 65536 * (index % 65536)) hwf (by omega)
  generalize s.setRegN (dmaReg Reg.PCI_DMA_STATUS e) (2 + 16 * code + 65536 * (index % 65536)) = u at *
  exact ⟨((u.event_writes Reg.PCI_EVENT 6).regN (by simpa using hne)).trans hstatus,
    State.bit_event _ _ _ (h1.wf hwf) (by decide)⟩

/-- What goes to the host and a register that counts it leave device memory as it is. -/
theorem State.counted_sameBytes (x : Output) (o n : Nat) : s.sameBytes ((s.toHost x).setRegN o n) :=
  (((s.toHost_evolves x).widen (Q := [.regs, .out, .heldOut]) rfl).step (State.setRegN_writes _ o n).evolves rfl).sameBytes

/-- A descriptor that moves no byte leaves device memory as it is. -/
theorem State.moveBytes_none (e : Nat) (f : DmaFlight) (data : List Byte) : s.sameBytes (s.moveBytes e f 0 data) := by
  unfold State.moveBytes
  split
  · exact State.counted_sameBytes _ _ _
  · rw [List.take_zero]
    exact (s.setRegN_writes Reg.PCI_BYTES_IN _).evolves.sameBytes

/-- Bytes that go to the host leave device memory as it is. -/
theorem State.moveBytes_toHost {f : DmaFlight} (h : f.desc.toHost = true) (e n : Nat) (data : List Byte) :
    s.sameBytes (s.moveBytes e f n data) ∧
      (s.linkUp = true → .hostWrite f.desc.dest (s.readOver f.bad f.desc.source n) ∈ (s.moveBytes e f n data).out) := by
  unfold State.moveBytes
  rw [if_pos h]
  refine ⟨?_, fun hup => ?_⟩
  · exact State.counted_sameBytes _ _ _
  · rw [State.toHost_of_linkUp hup]
    exact List.mem_append_right _ (List.mem_singleton_self _)

/-- Bytes that come from the host are written to device memory. -/
theorem State.moveBytes_fromHost {f : DmaFlight} (h : f.desc.toHost = false) (e : Fin 8) {data : List Byte} (a : Nat) :
    (s.moveBytes e f data.length data).devByte a = (s.devWrite (.hostDma e) f.desc.dest data).devByte a := by
  unfold State.moveBytes
  rw [if_neg (by simp [h]), List.take_length, Fin.ofNat_val_eq_self]
  have hsame := (State.setRegN_writes (s.devWrite (.hostDma e) f.desc.dest data) Reg.PCI_BYTES_IN
    (min (s.regN Reg.PCI_BYTES_IN + data.length) (2 ^ 64 - 1))).evolves.sameBytes
  exact hsame a

/-! ## The end of a descriptor -/

theorem State.flushStatus_done (e : Nat) (f : DmaFlight) :
    s.flushStatus e [{ f with status := some 0 }] = (s.writeStatus e f 0).setFlights e [] := rfl

theorem State.flushStatus_stops (e : Nat) (f : DmaFlight) (c : Nat) : s.flushStatus e [{ f with status := some (c + 1) }] =
    ((s.writeStatus e f (c + 1)).setFlights e []).dmaStop e f.index (c + 1) := rfl

/-- The registers that the status of the last descriptor in flight writes. -/
abbrev Reg.dmaStatus (e : Nat) : List Nat := [Reg.PCI_EVENT, dmaReg Reg.PCI_DMA_STATUS e] ++ Reg.dmaHead e

/-- R332, R333: what the status of the last descriptor in flight shows. -/
theorem State.flushStatus_shows (hwf : storeWf 0 s.regs = true) (he : e < 8) (hup : s.linkUp = true) (f : DmaFlight) {code : Nat}
    (hcode : code < 8) : let t := s.flushStatus e [{ f with status := some code }]
      .hostWrite (s.regN (dmaReg Reg.PCI_DMA_BASE e) + 32 * (f.index % 2 ^ s.dmaSize e) + 0x18)
        (leBytes 4 (code + 2 ^ 31)) ∈ t.out ∧
      t.regN (dmaReg Reg.PCI_DMA_HEAD e) = (f.index + 1) % 65536 ∧
      (code ≠ 0 → t.regN (dmaReg Reg.PCI_DMA_STATUS e) = 2 + 16 * code + 65536 * (f.index % 65536) ∧
        t.bit Reg.PCI_EVENT 6 = true) ∧
      (code = 0 → t.reg (dmaReg Reg.PCI_DMA_STATUS e) = s.reg (dmaReg Reg.PCI_DMA_STATUS e)) := by
  obtain ⟨-, hstop, -, -, hstatus, -⟩ := dmaReg_apart he
  obtain ⟨hsent, hhead⟩ := State.writeStatus_shows hwf he f code
  have h1 := s.writeStatus_writes e f code
  have h2 (u : State) : Writes [.host] [] u (u.setFlights e []) := (u.setFlights_evolves e []).writes
  cases code with
  | zero =>
    dsimp only
    rw [State.flushStatus_done]
    generalize s.writeStatus e f 0 = a at *
    exact ⟨hsent hup, ((h2 a).regN (by simp)).trans hhead, fun h => absurd rfl h,
      fun _ => ((h2 a).reg (by simp)).trans (h1.reg hstatus)⟩
  | succ c =>
    dsimp only
    rw [State.flushStatus_stops]
    generalize s.writeStatus e f (c + 1) = a at *
    have h12 := h1.step (h2 a) rfl (by simp)
    have hout : (a.setFlights e []).out = a.out := rfl
    have hhead' := ((h2 a).regN (by simp)).trans hhead
    generalize a.setFlights e [] = b at *
    have h3 := b.dmaStop_writes e f.index (c + 1)
    refine ⟨?_, (h3.regN hstop).trans hhead', fun _ => State.dmaStop_shows (h12.wf hwf) he hcode, fun h => absurd h (by omega)⟩
    refine (b.dmaStop_evolves e f.index (c + 1)).out.subset ?_
    rw [hout]
    exact hsent hup

/-- What ends a descriptor is one of the codes of R333. -/
theorem State.dmaEnd_code (s : State) (f : DmaFlight) : (s.dmaEnd f).1 < 8 := by
  unfold State.dmaEnd State.dmaRefusal
  split
  next c hc =>
    split at hc
    · obtain rfl := Option.some.inj hc
      decide
    · split at hc
      · obtain rfl := Option.some.inj hc
        decide
      · split at hc
        · obtain rfl := Option.some.inj hc
          decide
        · cases hc
  next =>
    have hbad : (if anyBad f = true then 1 else 0) < 8 := by split <;> decide
    dsimp only
    split <;> [exact hbad; split]
    · exact hbad
    · exact show 4 < 8 by decide
    · exact show 5 < 8 by decide

theorem State.dmaEnd_refused {f : DmaFlight} (h : s.dmaRefusal f.desc ≠ none) : (s.dmaEnd f).2 = 0 := by
  obtain ⟨c, hc⟩ := Option.ne_none_iff_exists'.mp h
  unfold State.dmaEnd
  rw [hc]

theorem State.dmaEnd_toHost {f : DmaFlight} (h : s.dmaRefusal f.desc = none) (hto : f.desc.toHost = true) :
    (s.dmaEnd f).2 = f.desc.length := by
  unfold State.dmaEnd
  rw [h]
  dsimp only
  rw [if_pos hto]

theorem State.dmaEnd_fromHost {f : DmaFlight} (h : s.dmaRefusal f.desc = none) (hto : f.desc.toHost = false)
    (hend : f.hostEnd = .ok) : (s.dmaEnd f).2 = f.desc.length := by
  unfold State.dmaEnd
  rw [h]
  dsimp only
  rw [if_neg (by simp [hto]), hend]

theorem exec_descriptorDone {e : Fin 8} {f : DmaFlight} (hup : s.linkUp = true) (hflight : s.flights e = [f])
    (hstatus : f.status = none) (data : List Byte) : exec (.descriptorDone e f.desc.tag data) s =
      .next ((s.moveBytes e f (s.dmaEnd f).2 data).flushStatus e [{ f with status := some (s.dmaEnd f).1 }]) := by
  have hset : setStatus f.desc.tag (s.dmaEnd f).1 [f] = [{ f with status := some (s.dmaEnd f).1 }] :=
    if_pos ⟨rfl, hstatus⟩
  have hfind : [f].find? (fun g => g.desc.tag = f.desc.tag ∧ g.status = none) = some f := by simp [hstatus]
  change execDescriptorDone _ _ _ s = _
  unfold execDescriptorDone
  dsimp only
  rw [hflight, hfind]
  dsimp only
  rw [if_pos hup, hset]

/-- R332, R333: a descriptor that is done has its status written; its bytes have moved, or none have. -/
theorem descriptorDone_ends (hwf : storeWf 0 s.regs = true) (e : Fin 8) {f : DmaFlight} (hup : s.linkUp = true)
    (hflight : s.flights e = [f]) (hstatus : f.status = none) (hindex : f.index < 65536) (data : List Byte) :
    ∃ t, exec (.descriptorDone e f.desc.tag data) s = .next t ∧
      .hostWrite (s.regN (dmaReg Reg.PCI_DMA_BASE e) + 32 * (f.index % 2 ^ s.dmaSize e) + 0x18)
        (leBytes 4 ((s.dmaEnd f).1 + 2 ^ 31)) ∈ t.out ∧
      t.regN (dmaReg Reg.PCI_DMA_HEAD e) = (f.index + 1) % 65536 ∧
      ((s.dmaEnd f).1 ≠ 0 → t.regN (dmaReg Reg.PCI_DMA_STATUS e) = 2 + 16 * (s.dmaEnd f).1 + 65536 * f.index ∧
        t.bit Reg.PCI_EVENT 6 = true) ∧
      ((s.dmaEnd f).1 = 0 → t.reg (dmaReg Reg.PCI_DMA_STATUS e) = s.reg (dmaReg Reg.PCI_DMA_STATUS e)) ∧
      (s.dmaRefusal f.desc = none → f.desc.toHost = true →
        .hostWrite f.desc.dest (s.readOver f.bad f.desc.source f.desc.length) ∈ t.out) ∧
      ((s.dmaRefusal f.desc ≠ none ∨ f.desc.toHost = true) → s.sameBytes t) ∧
      (s.dmaRefusal f.desc = none → f.desc.toHost = false → f.hostEnd = .ok → data.length = f.desc.length →
        ∀ a, t.devByte a = (s.devWrite (.hostDma e) f.desc.dest data).devByte a) ∧
      s.keeps t ([.mem, .free, .hbm, .bel] ++ Part.signalled) := by
  obtain ⟨-, -, -, hstat, -, hbase, hctrl, -⟩ := dmaReg_apart e.isLt
  refine ⟨_, exec_descriptorDone hup hflight hstatus data, ?_⟩
  have h1 := s.moveBytes_writes e f (s.dmaEnd f).2 data
  have hsize : (s.moveBytes e f (s.dmaEnd f).2 data).dmaSize e = s.dmaSize e := h1.fld hctrl 7 4
  have hplace := h1.regN hbase
  have hkept := h1.reg hstat
  have hup' : (s.moveBytes e f (s.dmaEnd f).2 data).linkUp = true := (h1.bit (by decide) 10).trans hup
  have hnone (h : (s.dmaEnd f).2 = 0) : s.sameBytes (s.moveBytes e f (s.dmaEnd f).2 data) := by
    rw [h]
    exact State.moveBytes_none e f data
  have hto (h : f.desc.toHost = true) := State.moveBytes_toHost (s := s) h e (s.dmaEnd f).2 data
  have hfrom (h : f.desc.toHost = false) (hlen : (s.dmaEnd f).2 = data.length) (a : Nat) :
      (s.moveBytes e f (s.dmaEnd f).2 data).devByte a = (s.devWrite (.hostDma e) f.desc.dest data).devByte a := by
    rw [hlen]
    exact State.moveBytes_fromHost h e a
  generalize s.moveBytes e f (s.dmaEnd f).2 data = u at *
  obtain ⟨hwrite, hhead, hstop, hgo⟩ := State.flushStatus_shows (h1.wf hwf) e.isLt hup' f (s.dmaEnd_code f)
  have h2 := u.flushStatus_evolves e [{ f with status := some (s.dmaEnd f).1 }]
  have hsame : u.sameBytes (u.flushStatus e [{ f with status := some (s.dmaEnd f).1 }]) := h2.sameBytes
  have hout := h2.out
  have hall := (h1.evolves.widen (Q := [.mem, .free, .hbm, .bel] ++ Part.signalled) rfl).step h2 rfl
  rw [hplace, hsize] at hwrite
  rw [Nat.mod_eq_of_lt hindex] at hstop
  refine ⟨hwrite, hhead, hstop, fun h => (hgo h).trans hkept, fun hfree htoHost => ?_, fun h a => ?_,
    fun hfree hnot hend hlen a => ?_, hall.keep⟩
  · obtain ⟨-, hsent⟩ := hto htoHost
    rw [State.dmaEnd_toHost hfree htoHost] at hsent
    exact hout.subset (hsent hup)
  · rw [hsame a]
    rcases h with h | h
    · exact hnone (State.dmaEnd_refused h) a
    · exact (hto h).1 a
  · rw [hsame a]
    exact hfrom hnot ((State.dmaEnd_fromHost hfree hnot hend).trans hlen.symm) a

/-! ## Disabling an engine -/

theorem State.abortMove_none (f : DmaFlight) : s.sameBytes (s.abortMove e [] f) := by
  unfold State.abortMove
  split
  · rw [show min (movedOf [] e f.index).length f.desc.length = 0 from Nat.zero_min _]
    exact State.moveBytes_none e f _
  · exact fun _ => rfl

theorem State.abortFlights_one {f : DmaFlight} (h : f.status = none) (moved : List (Fin 8 × Nat × List Byte)) :
    s.abortFlights e moved [f] = (((s.abortMove e moved f).writeStatus e f 7).dmaStop e f.index 7).setFlights e [] := by
  unfold State.abortFlights
  rw [h]
  rfl

/-- R333: disabling an engine ends what is in flight with code 7. -/
theorem State.dmaDisable_ends (hwf : storeWf 0 s.regs = true) (he : e < 8) (ctrl : Nat) {f : DmaFlight}
    (hon : s.bit (dmaReg Reg.PCI_DMA_CTRL e) 0 = true) (hflight : s.flights e = [f]) (hstatus : f.status = none) :
    let t := s.dmaDisable e ctrl [];
      t.bit (dmaReg Reg.PCI_DMA_CTRL e) 0 = false ∧
      t.regN (dmaReg Reg.PCI_DMA_STATUS e) = 2 + 16 * 7 + 65536 * (f.index % 65536) ∧ t.bit Reg.PCI_EVENT 6 = true ∧
      t.regN (dmaReg Reg.PCI_DMA_HEAD e) = (f.index + 1) % 65536 ∧ s.sameBytes t := by
  obtain ⟨-, hstop, -, -, -, -, -, hctrlStatus, hctrlEvent, hctrlHead⟩ := dmaReg_apart he
  unfold State.dmaDisable
  dsimp only
  rw [if_pos hon, hflight, State.abortFlights_one hstatus]
  have h1 := s.abortMove_writes e [] f
  have hsame1 := s.abortMove_none (e := e) f
  generalize s.abortMove e [] f = a at *
  have h2 := a.writeStatus_writes e f 7
  have hsame2 : a.sameBytes (a.writeStatus e f 7) := (a.writeStatus_evolves e f 7).sameBytes
  obtain ⟨-, hhead⟩ := State.writeStatus_shows (h1.wf hwf) he f 7
  have w2 := h2.wf (h1.wf hwf)
  generalize a.writeStatus e f 7 = b at *
  have h3 := b.dmaStop_writes e f.index 7
  have hsame3 : b.sameBytes (b.dmaStop e f.index 7) := (b.dmaStop_evolves e f.index 7).sameBytes
  obtain ⟨hstat, hevent⟩ := State.dmaStop_shows w2 he (index := f.index) (code := 7) (by decide)
  have hhead' := (h3.regN hstop).trans hhead
  have w3 := h3.wf w2
  generalize b.dmaStop e f.index 7 = c at *
  have h4 : Writes [.host] [] c (c.setFlights e []) := (c.setFlights_evolves e []).writes
  have hsame4 : c.sameBytes (c.setFlights e []) := h4.evolves.sameBytes
  have w4 := h4.wf w3
  generalize c.setFlights e [] = d at *
  have h5 := d.setBit_writes (dmaReg Reg.PCI_DMA_CTRL e) 0 false
  have hsame5 : d.sameBytes (d.setBit (dmaReg Reg.PCI_DMA_CTRL e) 0 false) := h5.evolves.sameBytes
  refine ⟨State.bit_setBit _ _ _ _ w4 (by decide), ?_, ?_, ?_, fun x => ?_⟩
  · rw [h5.regN (by simpa using hctrlStatus.symm), h4.regN (by simp), hstat]
  · rw [h5.bit (by simpa using hctrlEvent.symm), h4.bit (by simp), hevent]
  · rw [h5.regN (by simpa using hctrlHead.symm), h4.regN (by simp), hhead']
  · rw [hsame5 x, hsame4 x, hsame3 x, hsame2 x, hsame1 x]

/-! ## Taking descriptors, and their timeouts -/

/-- What lies in flight is what was put there. -/
theorem State.setFlights_new {fs : List DmaFlight} (h : fs ≠ []) : (s.setFlights e fs).flights e = fs :=
  storeGet_storeSet_new _ _ _ _ h

end

/-- Settles O42: an engine's registers lie apart, one status is written at a time, and moving no byte changes no byte. -/
theorem enginesMoveDescriptors : Obligations.EnginesMoveDescriptors := by
  unfold Obligations.EnginesMoveDescriptors
  intro e s hinv
  have hwf : storeWf 0 s.regs = true := hinv.2
  refine ⟨fun ctrl h => ?_, fun f h hon hflight hstatus => ?_, fun v h hin => ?_, fun v h hbeyond => ?_,
    fun d hon hnext hroom hfence => ?_, fun f data hup hflight hstatus hindex => ?_, fun tag ending hne => ?_⟩
  · exact ⟨_, congrArg Host.Outcome.next (State.onHost_of_hosted h _), State.dmaEnable_starts hwf e.isLt _⟩
  · exact ⟨_, congrArg Host.Outcome.next (State.onHost_of_hosted h _),
      State.dmaDisable_ends hwf e.isLt _ hon hflight hstatus⟩
  · exact ⟨_, congrArg Host.Outcome.next ((State.onHost_of_hosted h _).trans (if_neg (by omega))), State.pointer_taken hwf _ _⟩
  · exact ⟨_, congrArg Host.Outcome.next ((State.onHost_of_hosted h _).trans (if_pos hbeyond)), State.ptrErr_shows hwf⟩
  · refine ⟨_, congrArg Host.Outcome.next (if_pos ?_), State.setFlights_new (by simp), ?_⟩
    · have hclear : (!d.fence || (s.flights e).isEmpty) = true := by
        cases hf : d.fence
        · rfl
        · rw [hfence hf]
          rfl
      simp [hon, hnext, hroom, hclear]
    · exact (((s.send_evolves _).writes.widen (Q := [.host, .out]) (M := [])).step (State.setFlights_evolves _ _ _).writes).touches
  · exact descriptorDone_ends hwf e hup hflight hstatus hindex data
  · refine ⟨_, rfl, State.setFlights_new (by simpa using hne), rfl, ?_⟩
    exact (((s.setFlights_evolves e _).writes.widen (Q := [.host, .out]) (M := [])).step (State.send_evolves _ _).writes).touches

end Sys2Proof.Machine

/-! O43: the memory window and the errors of the link (R323, R324, R337, R338). -/

namespace Sys2Proof.Machine

set_option Elab.async false

section

variable {s : State}

/-! ## What the window reaches -/

theorem State.spanOk_congr {t : State} (h : t.hbm.inService = s.hbm.inService) (a n : Nat) : t.spanOk a n = s.spanOk a n := by
  unfold State.spanOk State.chans
  rw [State.stripe_congr h, h]

theorem State.touchesImage_congr {t : State} (h : t.hbm.inService = s.hbm.inService) (a n : Nat) :
    t.touchesImage a n = s.touchesImage a n := by
  unfold State.touchesImage State.imageStart State.stripedOf State.chans
  rw [State.stripe_congr h, State.hbmPlace_congr h]

/-- A write of device memory takes no channel out of service. -/
theorem State.linePiece_inService (who : Requester) (a : Nat) (bs : List Byte) :
    (s.linePiece who a bs).hbm.inService = s.hbm.inService := by
  have hpartial (u : State) (ch line off : Nat) : (u.partialWrite who ch line off bs).hbm.inService = u.hbm.inService := by
    unfold State.partialWrite
    dsimp only
    split
    · rfl
    · split
      · split <;> rfl
      · rfl
  have hmem {P : List Part} {t : State} (h : Evolves P s t) (hp : .hbm ∉ P := by decide) : t.hbm.inService = s.hbm.inService :=
    by
    have hkeep : t.hbm = s.hbm := h.keep .hbm hp
    rw [hkeep]
  unfold State.linePiece
  split
  · split
    · dsimp only
      split
      · rfl
      · exact (hpartial _ _ _ _).trans rfl
    · exact hmem (s.event_evolves _ _)
  · split
    · exact hmem (s.putBytes_evolves _ _)
    · rfl

/-- A window access that fails is told by PCI_EVENT (R324). -/
theorem State.winErr_writes (a : Nat) : Writes Part.signalled [Reg.PCI_EVENT, Reg.MEM_EVENT] s (s.winErr a) := by
  unfold State.winErr
  exact (Writes.ite _ ((s.event_writes Reg.MEM_EVENT 10).widen) (Writes.refl s)).step (State.event_writes _ _ _)

theorem State.winErr_bit (hwf : storeWf 0 s.regs = true) (a : Nat) : (s.winErr a).bit Reg.PCI_EVENT 2 = true := by
  unfold State.winErr
  refine State.bit_event _ _ _ ?_ (by decide)
  split
  · exact (s.event_writes Reg.MEM_EVENT 10).wf hwf
  · exact hwf

/-! ## Reads -/

/-- The bytes that a window read delivers. -/
def State.windowBytes (s : State) (a n : Nat) : List Byte := (List.range n).map fun i => s.windowByte (a + i)

theorem State.windowBytes_getD (a : Nat) {n i : Nat} (h : i < n) : (s.windowBytes a n).getD i 0 = s.windowByte (a + i) := by
  simp [State.windowBytes, List.getD, h]

theorem State.firstBad_isSome {a n i : Nat} (h : i < n) (hbad : s.spanOk (a + i) 1 = false) : ∃ b, s.firstBad a n = some b := by
  unfold State.firstBad
  cases hf : (List.range n).find? fun i => !s.spanOk (a + i) 1 with
  | some j => exact ⟨_, rfl⟩
  | none =>
    have hall := List.find?_eq_none.mp hf i (List.mem_range.mpr h)
    simp [hbad] at hall

/-- The window's record of what reads delivered is cut. -/
theorem State.evolves_windowBad (l : List (Nat × Byte × Bool)) :
    Writes [.host] [] s { s with host := { s.host with windowBad := l } } :=
  (s.evolves_host { s.host with windowBad := l }).writes

/-- A window read after what it does not reach is told. -/
def State.windowDrained (s : State) (a n : Nat) (bad : List (Nat × Byte × Bool)) : State :=
  let t := if bad.any fun b => b.2.2 && a ≤ b.1 && decide (b.1 < a + n) then s.event Reg.PCI_EVENT 3 else s
  { t with host := { t.host with windowBad := t.host.windowBad.filter fun b => !(a ≤ b.1 && decide (b.1 < a + n)) } }

theorem State.windowDrained_writes (a n : Nat) (bad : List (Nat × Byte × Bool)) :
    Writes Part.signalled [Reg.PCI_EVENT] s (s.windowDrained a n bad) := by
  unfold State.windowDrained
  exact (Writes.ite _ (s.event_writes _ _) (Writes.refl s)).step (State.evolves_windowBad _)

theorem State.windowDrained_bit (hwf : storeWf 0 s.regs = true) (a n : Nat) (bad : List (Nat × Byte × Bool))
    (hset : s.bit Reg.PCI_EVENT 2 = true) : (s.windowDrained a n bad).bit Reg.PCI_EVENT 2 = true := by
  unfold State.windowDrained
  dsimp only
  refine (State.evolves_windowBad _).bit (by simp) 2 |>.trans ?_
  split
  · exact State.bit_event_mono hwf 3 (by decide) hset
  · exact hset

theorem State.windowRead_bad {a n b : Nat} (h : s.firstBad a n = some b) : s.windowRead a n =
    ((s.send (.readData (s.windowBytes a n))).winErr b).windowDrained a n s.host.windowBad := by
  unfold State.windowRead
  rw [h]
  rfl

theorem State.windowRead_good {a n : Nat} (h : s.firstBad a n = none) : s.windowRead a n =
    (s.send (.readData (s.windowBytes a n))).windowDrained a n s.host.windowBad := by
  unfold State.windowRead
  rw [h]
  rfl

/-- R324: a window read delivers its bytes, and PCI_EVENT tells of what it does not reach. -/
theorem State.windowRead_delivers (hwf : storeWf 0 s.regs = true) (a n : Nat) :
    .readData (s.windowBytes a n) ∈ (s.windowRead a n).out ∧
      ((∃ i, i < n ∧ s.spanOk (a + i) 1 = false) → (s.windowRead a n).bit Reg.PCI_EVENT 2 = true) ∧
      s.touches (s.windowRead a n) Part.signalled [Reg.PCI_EVENT, Reg.MEM_EVENT] := by
  have hread (h : s.firstBad a n = none) : ¬∃ i, i < n ∧ s.spanOk (a + i) 1 = false := by
    rintro ⟨i, hi, hbad⟩
    obtain ⟨b, hb⟩ := State.firstBad_isSome hi hbad
    rw [h] at hb
    cases hb
  have h1 := ((s.send_evolves (.readData (s.windowBytes a n))).writes).widen (Q := Part.signalled)
    (M := [Reg.PCI_EVENT, Reg.MEM_EVENT])
  have hout : .readData (s.windowBytes a n) ∈ (s.send (.readData (s.windowBytes a n))).out :=
    List.mem_append_right _ (List.mem_singleton_self _)
  cases hf : s.firstBad a n with
  | none =>
    rw [State.windowRead_good hf]
    generalize s.send (.readData (s.windowBytes a n)) = u at *
    have h2 := u.windowDrained_writes a n s.host.windowBad
    exact ⟨h2.evolves.out.subset hout, fun h => absurd h (hread hf), (h1.step h2).touches⟩
  | some b =>
    rw [State.windowRead_bad hf]
    generalize s.send (.readData (s.windowBytes a n)) = u at *
    have h2 := u.winErr_writes b
    have hbit := State.winErr_bit (h1.wf hwf) b
    have w2 := h2.wf (h1.wf hwf)
    have hout2 := h2.evolves.out.subset hout
    have h12 := h1.step h2 rfl (fun _ h => h)
    generalize u.winErr b = v at *
    have h3 := v.windowDrained_writes a n s.host.windowBad
    exact ⟨h3.evolves.out.subset hout2, fun _ => State.windowDrained_bit w2 a n _ hbit, (h12.step h3).touches⟩

theorem State.asleep_of_hosted (h : s.hosted) : s.asleep = false := by
  have hserving := h.1
  simp only [State.serving, Bool.and_eq_true] at hserving
  simpa using hserving.2

theorem exec_bar2Read {offset length : Nat} (h : s.hosted) (hin : offset + length ≤ 2 ^ s.winLog) :
    exec (.bar2Read offset length) s = .next (s.windowRead (s.winAddr offset) length) := by
  change execBar2Read _ _ s = _
  unfold execBar2Read
  rw [if_neg (by omega), if_neg (by simp [State.asleep_of_hosted h]), State.onHost_of_hosted h]

theorem State.windowByte_plain (h : s.host.windowBad = []) (a : Nat) :
    s.windowByte a = if s.spanOk a 1 = true then s.devByte a else 0 := by
  unfold State.windowByte State.byteOver
  rw [h]
  rfl

/-! ## Writes -/

/-- A piece of a window write that reaches memory the host may write. -/
def State.windowFree (s : State) (q : Nat × List Byte) : Bool :=
  s.spanOk q.1 q.2.length && (decide (s.image.st = .empty) || !s.touchesImage q.1 q.2.length)

theorem State.windowFree_congr {t : State} (hin : t.hbm.inService = s.hbm.inService) (himage : t.image = s.image)
    (q : Nat × List Byte) : t.windowFree q = s.windowFree q := by
  unfold State.windowFree
  rw [State.spanOk_congr hin, State.touchesImage_congr hin, himage]

/-- Pieces that are all free are written as a write of device memory. -/
theorem State.windowPieces_free {l : List (Nat × List Byte)} (h : ∀ q ∈ l, s.windowFree q = true) :
    s.windowPieces l = s.writePieces .window l := by
  induction l generalizing s with
  | nil => rfl
  | cons q rest ih =>
    obtain ⟨a, bs⟩ := q
    have hfree := h (a, bs) (List.mem_cons_self ..)
    unfold State.windowFree at hfree
    simp only [Bool.and_eq_true, Bool.or_eq_true, decide_eq_true_eq, Bool.not_eq_true'] at hfree
    obtain ⟨hspan, himage⟩ := hfree
    have hpiece : s.windowPieces ((a, bs) :: rest) = (s.linePiece .window a bs).windowPieces rest := by
      rw [State.windowPieces, if_neg (by simp [hspan]), if_neg ?_]
      rintro ⟨hst, htouch⟩
      rcases himage with h | h
      · exact hst h
      · exact Bool.noConfusion (h.symm.trans htouch)
    rw [hpiece, State.writePieces]
    refine ih fun q hq => ?_
    have hkeep : (s.linePiece .window a bs).image = s.image := (s.linePiece_writes .window a bs).evolves.keep .image (by decide)
    exact (State.windowFree_congr (s.linePiece_inService .window a bs) hkeep q).trans (h q (List.mem_cons_of_mem _ hq))

/-- A piece that may not be written is told. -/
theorem State.windowPieces_barred {l : List (Nat × List Byte)} (hwf : storeWf 0 s.regs = true)
    (h : ∀ q ∈ l, s.windowFree q = false) (hset : s.bit Reg.PCI_EVENT 2 = true ∨ l ≠ []) :
    (s.windowPieces l).bit Reg.PCI_EVENT 2 = true ∧
      Writes Part.signalled [Reg.PCI_EVENT, Reg.MEM_EVENT] s (s.windowPieces l) := by
  induction l generalizing s with
  | nil => exact ⟨hset.resolve_right (fun h => h rfl), Writes.refl s⟩
  | cons q rest ih =>
    obtain ⟨a, bs⟩ := q
    have hpiece : ∃ t, s.windowPieces ((a, bs) :: rest) = t.windowPieces rest ∧ t.bit Reg.PCI_EVENT 2 = true ∧
        Writes Part.signalled [Reg.PCI_EVENT, Reg.MEM_EVENT] s t := by
      have hbarred := h (a, bs) (List.mem_cons_self ..)
      cases hspan : s.spanOk a bs.length with
      | false =>
        exact ⟨s.winErr a, by rw [State.windowPieces, if_pos (by simp [hspan])], State.winErr_bit hwf a, s.winErr_writes a⟩
      | true =>
        have himage : s.image.st ≠ .empty ∧ s.touchesImage a bs.length = true := by
          simpa [State.windowFree, hspan] using hbarred
        exact ⟨s.event Reg.PCI_EVENT 2, by rw [State.windowPieces, if_neg (by simp [hspan]), if_pos himage],
          State.bit_event _ _ _ hwf (by decide), (s.event_writes _ _).widen⟩
    obtain ⟨t, heq, hbit, hlaw⟩ := hpiece
    have hin : t.hbm.inService = s.hbm.inService := by
      have hkeep : t.hbm = s.hbm := hlaw.evolves.keep .hbm (by decide)
      rw [hkeep]
    have himage : t.image = s.image := hlaw.evolves.keep .image (by decide)
    rw [heq]
    obtain ⟨hlast, hrest⟩ := ih (hlaw.wf hwf)
      (fun q hq => (State.windowFree_congr hin himage q).trans (h q (List.mem_cons_of_mem _ hq))) (Or.inl hbit)
    exact ⟨hlast, hlaw.step hrest rfl (fun _ h => h)⟩

theorem linePieces_ne_nil {bs : List Byte} (h : bs ≠ []) (a : Nat) : linePieces a bs.length bs ≠ [] := by
  cases bs with
  | nil => exact absurd rfl h
  | cons b rest => exact List.cons_ne_nil _ _

theorem exec_bar2Write {offset : Nat} {data : List Byte} (h : s.hosted) (hin : offset + data.length ≤ 2 ^ s.winLog) :
    exec (.bar2Write offset data) s = .next (s.windowPieces (linePieces (s.winAddr offset) data.length data)) :=
  congrArg Host.Outcome.next ((if_neg (by omega)).trans (State.onHost_of_hosted h _))

/-- R337, R338: an access beyond the BAR is an Unsupported Request. -/
theorem exec_bar2_beyond (h : s.hosted) {offset : Nat} :
    (∀ length, 2 ^ s.winLog < offset + length →
      exec (.bar2Read offset length) s = .next { s with out := s.out ++ [.unsupported] }) ∧
    (∀ data, 2 ^ s.winLog < offset + data.length →
      exec (.bar2Write offset data) s = .next { s with out := s.out ++ [.unsupported] }) :=
  ⟨fun _ hlong => congrArg Host.Outcome.next ((if_pos hlong).trans (State.onHost_of_hosted h _)),
    fun _ hlong => congrArg Host.Outcome.next ((if_pos hlong).trans (State.onHost_of_hosted h _))⟩

/-! ## The window's base, and errors of the link -/

theorem exec_pciWinBaseWrite (hwf : storeWf 0 s.regs = true) (h : s.hosted) (v : DWord) :
    (v.toNat % 2 ^ s.winLog = 0 → ∃ t, exec (.pciWinBaseWrite v) s = .next t ∧
      t.reg Reg.PCI_WIN_BASE = v ∧ s.touches t [.regs] [Reg.PCI_WIN_BASE]) ∧
    (v.toNat % 2 ^ s.winLog ≠ 0 → ∃ t, exec (.pciWinBaseWrite v) s = .next t ∧
      t.bit Reg.PCI_EVENT 5 = true ∧ s.touches t Part.signalled [Reg.PCI_EVENT]) := by
  refine ⟨fun haligned => ?_, fun hodd => ?_⟩
  · exact ⟨_, congrArg Host.Outcome.next ((State.onHost_of_hosted h _).trans (if_neg (not_not.mpr haligned))),
      State.reg_setReg _ _ _ hwf, (s.setReg_writes _ _).touches⟩
  · exact ⟨_, congrArg Host.Outcome.next ((State.onHost_of_hosted h _).trans (if_pos hodd)), State.ptrErr_shows hwf⟩

/-- R337: a poisoned write is discarded and reported. -/
theorem poisonedTlp_reports (hwf : storeWf 0 s.regs = true) (h : s.hosted) : ∃ t l, exec .poisonedTlp s = .next t ∧
    t.bit Reg.PCI_EVENT 4 = true ∧ t.out = s.out ++ l ++ [.aer 1] ∧ s.touches t Part.signalled [Reg.PCI_EVENT] := by
  have h1 := s.event_writes Reg.PCI_EVENT 4
  have hbit := State.bit_event s Reg.PCI_EVENT 4 hwf (by decide)
  obtain ⟨l, hl⟩ := h1.evolves.out
  refine ⟨_, l, congrArg Host.Outcome.next (State.onHost_of_hosted h _), ?_⟩
  generalize s.event Reg.PCI_EVENT 4 = u at *
  have h2 := (u.send_evolves (.aer 1)).writes
  exact ⟨(h2.bit (by simp) 4).trans hbit, congrArg (· ++ [Output.aer 1]) hl.symm, (h1.step h2).touches⟩

/-- R338: a correctable error of the link is counted and reported. -/
theorem correctableLinkError_counts (hwf : storeWf 0 s.regs = true) (hup : s.linkUp = true) :
    ∃ t, exec .correctableLinkError s = .next t ∧ t.out = s.out ++ [.aer 0] ∧
      t.regN Reg.PCI_ERR_COUNT = min (s.regN Reg.PCI_ERR_COUNT + 1) (2 ^ 32 - 1) ∧
      s.touches t [.regs, .out] [Reg.PCI_ERR_COUNT] := by
  have h1 := (s.count_writes Reg.PCI_ERR_COUNT 32 1).widen (Q := [.regs, .out]) (M := [Reg.PCI_ERR_COUNT])
  have hcount := State.regN_count s Reg.PCI_ERR_COUNT 32 1 hwf (by decide)
  have hout : (s.count Reg.PCI_ERR_COUNT 32 1).out = s.out := rfl
  refine ⟨_, congrArg Host.Outcome.next (if_pos hup), ?_⟩
  generalize s.count Reg.PCI_ERR_COUNT 32 1 = u at *
  have h2 := (u.send_evolves (.aer 0)).writes
  exact ⟨congrArg (· ++ [Output.aer 0]) hout, (h2.regN (by simp)).trans hcount, (h1.step h2).touches⟩

end

/-- Settles O43: a window write whose pieces are all free is a write of device memory, and one whose pieces are all barred
only tells. -/
theorem windowAndLinkErrors : Obligations.WindowAndLinkErrors := by
  unfold Obligations.WindowAndLinkErrors
  intro s hinv
  have hwf : storeWf 0 s.regs = true := hinv.2
  refine ⟨fun offset length h hin => ?_, fun a h => State.windowByte_plain h a, fun offset length h => (exec_bar2_beyond h).1 length,
    fun offset data h => (exec_bar2_beyond h).2 data, fun offset data h hin => ⟨fun hfree => ?_, fun hbarred hne => ?_⟩,
    fun v h => (exec_pciWinBaseWrite hwf h v).1, fun v h => (exec_pciWinBaseWrite hwf h v).2, poisonedTlp_reports hwf,
    fun hup => ⟨congrArg Host.Outcome.next (if_pos hup), congrArg Host.Outcome.next (if_pos hup),
      correctableLinkError_counts hwf hup⟩⟩
  · obtain ⟨hout, hbit, htouch⟩ := State.windowRead_delivers hwf (s.winAddr offset) length
    exact ⟨_, s.windowBytes (s.winAddr offset) length, exec_bar2Read h hin, hout, by simp [State.windowBytes],
      fun i hi => State.windowBytes_getD _ hi, hbit, htouch⟩
  · refine ⟨_, exec_bar2Write h hin, ?_⟩
    have hlaw := (s.devWrite_writes .window (s.winAddr offset) data).evolves.widen
      (Q := ([.mem, .hbm, .bel] : List Part) ++ Part.signalled) rfl
    rw [State.windowPieces_free hfree]
    exact ⟨fun _ => rfl, hlaw.keep⟩
  · obtain ⟨hbit, hlaw⟩ := State.windowPieces_barred hwf hbarred (Or.inr (linePieces_ne_nil hne _))
    exact ⟨_, exec_bar2Write h hin, hbit, hlaw.touches⟩

end Sys2Proof.Machine

/-! O44: writes of registers, accesses that are ignored, and configuration space (R12 to R14, R320 to R322, R341, R343, R422). -/

namespace Sys2Proof.Machine

set_option Elab.async false

section

variable {s : State}

/-! ## Requests of an awake module -/

theorem State.onLodge_of_hosted (h : s.hosted) (f : State → State) : s.onLodge f = f s := by
  unfold State.onLodge
  rw [if_neg (by simp [State.asleep_of_hosted h]), State.onHost_of_hosted h]

theorem State.onBar0_of_hosted (h : s.hosted) (o : Nat) (f : State → State) : s.onBar0 o f = f s := by
  unfold State.onBar0
  rw [State.onLodge_of_hosted h, State.onHost_of_hosted h, ite_self]

theorem State.onBar0Read_of_hosted (h : s.hosted) (o : Nat) (f : State → State) : s.onBar0Read o f = f s := by
  unfold State.onBar0Read
  rw [if_neg (c := (s.linkUp && s.asleep && decide (6 ≤ s.boot.step) && !s.boot.failed) = true)
    (by simp [State.asleep_of_hosted h]), State.onLodge_of_hosted h, State.onHost_of_hosted h, ite_self]

theorem exec_registerWrite (h : s.hosted) (o size v : Nat) : exec (.registerWrite o size v) s = .next (s.bar0Write o size v) :=
  congrArg Host.Outcome.next (State.onBar0_of_hosted h _ _)

/-! ## Writes of whole registers -/

theorem State.bar0Write_word {o v : Nat} {r : RegRow} {base : Nat} (hreg : regAt o = some (r, base)) (ho : o % 4 = 0)
    (hwidth : r.width ≠ 8) : s.bar0Write o 4 v = s.regWrite r base (BitVec.ofNat 64 (v % 2 ^ 32)) := by
  unfold State.bar0Write
  rw [if_neg (by simp [narrow]), if_pos ⟨rfl, ho⟩]
  unfold State.write4
  rw [hreg]
  exact if_neg hwidth

theorem State.bar0Write_half {o v : Nat} {r : RegRow} {base : Nat} (hreg : regAt o = some (r, base)) (ho : o % 4 = 0)
    (hwidth : r.width = 8) : s.bar0Write o 4 v = s.badAccess o 3 := by
  unfold State.bar0Write
  rw [if_neg (by simp [narrow]), if_pos ⟨rfl, ho⟩]
  unfold State.write4
  rw [hreg]
  exact if_pos hwidth

theorem State.bar0Write_double {o v : Nat} {r : RegRow} {base : Nat} (hreg : regAt o = some (r, base)) (ho : o % 8 = 0)
    (hwidth : r.width = 8) : s.bar0Write o 8 v = s.regWrite r base (BitVec.ofNat 64 v) := by
  unfold State.bar0Write
  rw [if_neg (by simp [narrow]), if_neg (by simp), if_pos ⟨rfl, ho⟩]
  unfold State.write8
  rw [hreg]
  exact if_pos hwidth

/-- R13, R14: a plain register takes a write by its access codes. -/
theorem registerWrite_plain (hwf : storeWf 0 s.regs = true) (h : s.hosted) {o v : Nat} {r : RegRow} {base : Nat}
    (hreg : regAt o = some (r, base)) {size : Nat} {w : DWord}
    (hsize : (size = 4 ∧ o % 4 = 0 ∧ r.width ≠ 8 ∧ w = BitVec.ofNat 64 (v % 2 ^ 32)) ∨
      (size = 8 ∧ o % 8 = 0 ∧ r.width = 8 ∧ w = BitVec.ofNat 64 v))
    (hplain : ∀ p, s.acts r.off (if r.stride = 0 then 0 else (base - r.off) / r.stride) w.toNat p = p) :
    ∃ t, exec (.registerWrite o size v) s = .next t ∧ t.reg (s.writeKey r.off base) =
        ((s.reg (s.writeKey r.off base) &&& ~~~r.rw) ||| (w &&& r.rw)) &&& ~~~(w &&& r.w1c) ∧
      s.touches t [.regs] [s.writeKey r.off base] := by
  have hwrite : s.bar0Write o size v = s.regWrite r base w := by
    rcases hsize with ⟨rfl, ho, hwidth, rfl⟩ | ⟨rfl, ho, hwidth, rfl⟩
    · exact State.bar0Write_word hreg ho hwidth
    · exact State.bar0Write_double hreg ho hwidth
  refine ⟨s.writeFields r (s.writeKey r.off base) w, ?_, State.reg_setReg _ _ _ hwf, (s.setReg_writes _ _).touches⟩
  rw [exec_registerWrite h, hwrite]
  exact congrArg Host.Outcome.next (hplain _)

/-! ## Accesses that are ignored -/

/-- R422: the first access that is ignored is kept. -/
theorem State.badAccess_keeps (hwf : storeWf 0 s.regs = true) (o : Nat) {kind : Nat} (hkind : kind < 4) :
    (s.bit Reg.TOP_ACCESS_ERR 31 = true → s.badAccess o kind = s) ∧
    (s.bit Reg.TOP_ACCESS_ERR 31 = false →
      (s.badAccess o kind).regN Reg.TOP_ACCESS_ERR = o % 2 ^ 26 + 2 ^ 28 * kind + 2 ^ 31) ∧
    Writes [.regs] [Reg.TOP_ACCESS_ERR] s (s.badAccess o kind) := by
  unfold State.badAccess
  refine ⟨fun h => if_pos h, fun h => ?_, Writes.ite _ (Writes.refl s) (s.setRegN_writes _ _)⟩
  rw [if_neg (by simp [h])]
  exact State.regN_setRegN _ _ _ hwf (by omega)

/-- The accesses that R422 ignores, with the kind recorded. -/
theorem exec_ignored (h : s.hosted) {o size v kind : Nat} {c : Instr}
    (hc : (c = .bar0BadAccess o size true ∧ narrow o size = true ∧ kind = 1) ∨
      (c = .bar0BadAccess o size true ∧ narrow o size = false ∧ size = 4 ∧ o % 4 = 0 ∧ kind = 3) ∨
      (c = .bar0BadAccess o size true ∧ narrow o size = false ∧ ¬(size = 4 ∧ o % 4 = 0) ∧ kind = 2) ∨
      (c = .registerWrite o 4 v ∧ o % 4 = 0 ∧ (regAt o).map (fun r => r.1.width) = some 8 ∧ kind = 3) ∨
      (c = .registerWrite o size v ∧ (size = 4 ∨ size = 8) ∧ o % size ≠ 0 ∧ kind = 2 ∧ narrow o size = false)) :
    exec c s = .next (s.badAccess o kind) ∧ kind < 4 := by
  have hbad : exec (.bar0BadAccess o size true) s = .next (s.badWrite o size) :=
    congrArg Host.Outcome.next ((if_pos rfl).trans (State.onBar0_of_hosted h _ _))
  rcases hc with ⟨rfl, hn, rfl⟩ | ⟨rfl, hn, hsize, ho, rfl⟩ | ⟨rfl, hn, hsize, rfl⟩ | ⟨rfl, ho, hreg, rfl⟩ |
    ⟨rfl, hsize, ho, rfl, hn⟩
  · exact ⟨hbad.trans (congrArg Host.Outcome.next (if_pos hn)), by decide⟩
  · refine ⟨hbad.trans (congrArg Host.Outcome.next ((if_neg (by simp [hn])).trans (if_pos ⟨hsize, ho⟩))), by decide⟩
  · refine ⟨hbad.trans (congrArg Host.Outcome.next ((if_neg (by simp [hn])).trans (if_neg hsize))), by decide⟩
  · obtain ⟨⟨r, base⟩, hat, hwidth⟩ := Option.map_eq_some_iff.mp hreg
    exact ⟨(exec_registerWrite h _ _ _).trans (congrArg Host.Outcome.next (State.bar0Write_half hat ho hwidth)), by decide⟩
  · refine ⟨(exec_registerWrite h _ _ _).trans (congrArg Host.Outcome.next ?_), by decide⟩
    unfold State.bar0Write longSpan
    rcases hsize with rfl | rfl <;> rw [if_neg (by simp [hn]), if_neg (by omega), if_neg (by omega), if_neg (by simp)]

/-! ## Reads -/

theorem exec_bar0Read (h : s.hosted) (o size : Nat) : exec (.bar0BadAccess o size false) s = .next (s.bar0Read o size) :=
  congrArg Host.Outcome.next ((if_neg (by decide)).trans (State.onBar0Read_of_hosted h _ _))

/-- R422: a read that is not aligned returns zeros, and is recorded. -/
theorem State.bar0Read_misaligned (hwf : storeWf 0 s.regs = true) {o size : Nat} (hn : narrow o size = false)
    (hsize : ¬((size = 4 ∨ size = 8) ∧ o % size = 0)) (hlong : ¬(8 < size ∧ o % 4 = 0 ∧ size % 4 = 0)) :
    (s.bar0Read o size).out = s.out ++ [.readData (List.replicate size 0)] ∧
      s.touches (s.bar0Read o size) [.regs, .out] [Reg.TOP_ACCESS_ERR] := by
  have hcond : ¬(narrow o size = true ∨ ((size = 4 ∨ size = 8) ∧ o % size = 0) ∨ longSpan o size = true) := by
    rintro (h | h | h)
    · exact Bool.noConfusion (hn.symm.trans h)
    · exact hsize h
    · exact hlong (of_decide_eq_true h)
  unfold State.bar0Read
  rw [if_neg hcond]
  obtain ⟨-, -, h1⟩ := State.badAccess_keeps hwf o (kind := 2) (by decide)
  have hout : (s.badAccess o 2).out = s.out := h1.evolves.keep .out (by decide)
  generalize s.badAccess o 2 = u at *
  exact ⟨congrArg (· ++ [Output.readData (List.replicate size 0)]) hout,
    ((h1.widen (Q := [.regs, .out]) (M := [Reg.TOP_ACCESS_ERR])).step (u.send_evolves _).writes).touches⟩

/-! ## Registers that carry commands -/

/-- Registers of one word that carry a command. -/
abbrev Reg.commands : List Nat :=
  [Reg.LAST_CTRL, Reg.ADM_DOORBELL, Reg.ADM_DONE_POP, Reg.TOP_CTRL, Reg.LDG_PSTATE_CTRL, Reg.HLT_CTRL, Reg.BEL_CTRL,
   Reg.PWR_CTRL, Reg.PCI_TQ_TAIL, Reg.PWR_CAP]

theorem regAt_commands : ∀ o ∈ Reg.commands,
    (regAt o).map (fun r => (r.1.off, r.1.stride, r.1.width, r.2)) = some (o, 0, 4, o) ∧ o % 4 = 0 := by decide

/-- A word written to a register that carries a command is the command's operand. -/
theorem State.bar0Write_command {o : Nat} (ho : o ∈ Reg.commands) {v : Nat} (hv : v < 2 ^ 32) {f : State → State}
    (hact : ∀ (t p : State), t.acts o 0 v p = f t) (s : State) : s.bar0Write o 4 v = f s := by
  obtain ⟨hreg, hmod⟩ := regAt_commands o ho
  obtain ⟨⟨r, base⟩, hat, hrow⟩ := Option.map_eq_some_iff.mp hreg
  obtain ⟨hoff, hrest⟩ := Prod.mk.inj hrow
  obtain ⟨hstride, hrest⟩ := Prod.mk.inj hrest
  obtain ⟨hwidth, -⟩ := Prod.mk.inj hrest
  dsimp only at hoff hstride hwidth
  rw [State.bar0Write_word hat hmod (by omega)]
  unfold State.regWrite
  dsimp only
  rw [hoff, hstride, if_pos rfl, BitVec.toNat_ofNat, Nat.mod_eq_of_lt hv, Nat.mod_eq_of_lt (by omega)]
  exact hact s _

theorem exec_command_host {o : Nat} (ho : o ∈ Reg.commands) (hserved : lodgeServed o = false) {v : Nat} (hv : v < 2 ^ 32)
    {f : State → State} (hact : ∀ (t p : State), t.acts o 0 v p = f t) (s : State) :
    exec (.registerWrite o 4 v) s = .next (s.onHost f) := by
  have heq : (fun t : State => t.bar0Write o 4 v) = f := funext fun t => State.bar0Write_command ho hv hact t
  change Host.Outcome.next (s.onBar0 o fun t => t.bar0Write o 4 v) = _
  rw [heq, State.onBar0, if_neg (by simp [hserved])]

theorem exec_command_lodge {o : Nat} (ho : o ∈ Reg.commands) (hserved : lodgeServed o = true) {v : Nat} (hv : v < 2 ^ 32)
    {f : State → State} (hact : ∀ (t p : State), t.acts o 0 v p = f t) (s : State) :
    exec (.registerWrite o 4 v) s = .next (s.onLodge f) := by
  have heq : (fun t : State => t.bar0Write o 4 v) = f := funext fun t => State.bar0Write_command ho hv hact t
  change Host.Outcome.next (s.onBar0 o fun t => t.bar0Write o 4 v) = _
  rw [heq, State.onBar0, if_pos hserved]

/-- R55, R361, R365, R409, R426: a register that carries a command runs it. -/
theorem registerWrite_commands (s : State) : exec (.registerWrite Reg.LAST_CTRL 4 1) s = exec .load s ∧
     exec (.registerWrite Reg.LAST_CTRL 4 2) s = exec .start s ∧ exec (.registerWrite Reg.LAST_CTRL 4 4) s = exec .unload s ∧
     exec (.registerWrite Reg.LAST_CTRL 4 8) s = exec .abort s ∧
     exec (.registerWrite Reg.ADM_DOORBELL 4 1) s = exec .ticketDoorbell s ∧
     exec (.registerWrite Reg.ADM_DONE_POP 4 1) s = exec .admDonePop s ∧
     exec (.registerWrite Reg.TOP_CTRL 4 1) s = exec (.topClrStats []) s ∧
     exec (.registerWrite Reg.LDG_PSTATE_CTRL 4 2) s = exec .targetA2 s ∧
     exec (.registerWrite Reg.HLT_CTRL 4 1) s = exec .hltSnap s ∧ exec (.registerWrite Reg.BEL_CTRL 4 1) s = exec .belSnap s ∧
     exec (.registerWrite Reg.PWR_CTRL 4 1) s = exec .ackStale s ∧
     ∀ w : Word, exec (.registerWrite Reg.PCI_TQ_TAIL 4 w.toNat) s = exec (.tqTailWrite w) s ∧
       exec (.registerWrite Reg.PWR_CAP 4 w.toNat) s = exec (.capWrite w) s :=
  ⟨exec_command_host (by decide) (by decide) (by decide) (fun _ _ => rfl) s,
    exec_command_host (by decide) (by decide) (by decide) (fun _ _ => rfl) s,
    exec_command_host (by decide) (by decide) (by decide) (fun _ _ => rfl) s,
    exec_command_host (by decide) (by decide) (by decide) (fun _ _ => rfl) s,
    exec_command_host (by decide) (by decide) (by decide) (fun _ _ => rfl) s,
    exec_command_host (by decide) (by decide) (by decide) (fun _ _ => rfl) s,
    exec_command_host (by decide) (by decide) (by decide) (fun _ _ => rfl) s,
    exec_command_lodge (by decide) (by decide) (by decide) (fun _ _ => rfl) s,
    exec_command_lodge (by decide) (by decide) (by decide) (fun _ _ => rfl) s,
    exec_command_host (by decide) (by decide) (by decide) (fun _ _ => rfl) s,
    exec_command_host (by decide) (by decide) (by decide) (fun _ _ => rfl) s,
    fun w => ⟨exec_command_host (by decide) (by decide) w.isLt (fun _ _ => rfl) s,
      exec_command_host (by decide) (by decide) w.isLt (fun _ _ => rfl) s⟩⟩

/-! ## Configuration space -/

theorem exec_configurationRequest_down (h : s.linkUp = false) (q : CfgReq) : exec (.configurationRequest q) s = .next s :=
  congrArg Host.Outcome.next (if_pos (by simp [h]))

theorem exec_configurationRequest_retry (h : s.linkUp = true) (hstep : s.boot.step < 6) (q : CfgReq) :
    exec (.configurationRequest q) s = .next { s with out := s.out ++ [.retryStatus] } :=
  congrArg Host.Outcome.next ((if_neg (by simp [h])).trans (if_pos hstep))

theorem exec_configurationRequest_on (hon : s.configOn = true) (hA1 : s.inA1 = false) (q : CfgReq) :
    exec (.configurationRequest q) s = .next (s.configAct q) := by
  simp only [State.configOn, Bool.and_eq_true, decide_eq_true_eq] at hon
  change execConfigurationRequest q s = _
  unfold execConfigurationRequest
  rw [if_neg (by simp [hon.1]), if_neg (by omega), if_neg (c := s.inA1 = true) (by simp [hA1]), ite_self]

/-- What a dword of configuration space holds after a write. -/
def State.configured (s : State) (o : Nat) (d : Word) : State :=
  { s with host := { s.host with config := storeSet 0 s.host.config o (d.setWidth 64 ||| 0x100000000) } }

theorem State.configAct_write (o : Nat) (d : Word) : s.configAct (.write 0 o d) =
    if (configFixed (o / 4 * 4)).isSome then s else s.configured (o / 4 * 4) d := rfl

theorem State.configured_touches (o : Nat) (d : Word) : s.touches (s.configured o d) [.host] [] :=
  (s.evolves_host { s.host with config := storeSet 0 s.host.config o (d.setWidth 64 ||| 0x100000000) }).writes.touches

theorem written_ne_zero (d : Word) : d.setWidth 64 ||| (0x100000000 : DWord) ≠ 0 := by
  intro h
  have hbit := congrArg (BitVec.getLsbD · 32) h
  simp at hbit

theorem written_setWidth (d : Word) : (d.setWidth 64 ||| (0x100000000 : DWord)).setWidth 32 = d := by
  ext i hi
  simp

/-- A dword that is not fixed reads what was written, under the BARs' masks. -/
theorem State.configWord_configured {o : Nat} (hfixed : configFixed o = none) (ho : o ≠ 0x0C) (d : Word) :
    (s.configured o d).configWord o = s.barBits o d := by
  have hget : storeGet 0 (s.configured o d).host.config o = d.setWidth 64 ||| 0x100000000 :=
    storeGet_storeSet_new _ _ _ _ (written_ne_zero d)
  unfold State.configWord
  rw [hfixed]
  dsimp only
  rw [hget, if_neg (written_ne_zero d), if_neg ho, written_setWidth]
  rfl

/-- The bits of an address above a size of 2^n. -/
theorem getLsbD_above {n i : Nat} (hn : n ≤ 32) (hi : i < 32) :
    (BitVec.ofNat 32 (2 ^ 32 - 2 ^ n)).getLsbD i = decide (n ≤ i) := by
  have hpos : 2 ^ n - 1 < 2 ^ 32 := by
    have hle : 2 ^ n ≤ 2 ^ 32 := Nat.pow_le_pow_right (by decide) hn
    have h1 : 0 < 2 ^ n := Nat.two_pow_pos n
    omega
  have hsplit : 2 ^ 32 - 2 ^ n = 2 ^ 32 - (2 ^ n - 1 + 1) := by
    have h1 : 0 < 2 ^ n := Nat.two_pow_pos n
    omega
  rw [BitVec.getLsbD_ofNat, hsplit, Nat.testBit_two_pow_sub_succ hpos, Nat.testBit_two_pow_sub_one]
  by_cases h : n ≤ i
  · simp [hi, h, Nat.not_lt.mpr h]
  · simp [hi, h, Nat.lt_of_not_le h]

/-- The bits of an address above a size of 2^n, where no size of a dword is left. -/
theorem getLsbD_aboveAll {n i : Nat} (hn : 28 ≤ n) (hi : i < 32) :
    (BitVec.ofNat 32 (2 ^ 32 - 2 ^ n)).getLsbD i = decide (n ≤ i) := by
  by_cases h : n ≤ 32
  · exact getLsbD_above h hi
  · have hle : 2 ^ 32 ≤ 2 ^ n := Nat.pow_le_pow_right (by decide) (by omega)
    rw [Nat.sub_eq_zero_of_le hle]
    simp
    omega

/-- R321, R323, R343: the bits of the BARs. -/
theorem State.barBits_reads (hsize : 28 ≤ s.winLog) (k : Nat) (d : Word) (h4 : 4 ≤ k) (h7 : k ≤ 7) :
    (s.boot.failed = true → s.barBits (k * 4) d = 0) ∧
    (s.boot.failed = false → ∀ i, i < 32 → (s.barBits (k * 4) d).getLsbD i =
      if k = 4 then i = 2 ∨ (26 ≤ i ∧ d.getLsbD i = true)
      else if k = 6 then i = 2 ∨ i = 3 ∨ (s.winLog ≤ i ∧ d.getLsbD i = true)
      else if k = 7 then s.winLog ≤ i + 32 ∧ d.getLsbD i = true else d.getLsbD i = true) := by
  refine ⟨fun hf => if_pos ⟨by omega, by omega, hf⟩, fun hf i hi => ?_⟩
  have hlow : ∀ j < 32, (0xFC000000 : Word).getLsbD j = decide (26 ≤ j) ∧ (4 : Word).getLsbD j = decide (j = 2) ∧
      (12 : Word).getLsbD j = decide (j = 2 ∨ j = 3) := by decide
  obtain ⟨hmask, hfour, htwelve⟩ := hlow i hi
  have hwin : s.winLog < 64 := Nat.mod_lt _ (by decide)
  unfold State.barBits
  change (28 ≤ s.fld Reg.PCI_WIN_SIZE 5 0) at hsize
  unfold State.winLog at hwin ⊢
  generalize s.fld Reg.PCI_WIN_SIZE 5 0 = n at *
  rw [if_neg (by simp [hf])]
  obtain rfl | rfl | rfl | rfl : k = 4 ∨ k = 5 ∨ k = 6 ∨ k = 7 := by omega
  · rw [if_pos rfl, BitVec.getLsbD_or, BitVec.getLsbD_and, hmask, hfour]
    simp [or_comm, and_comm]
  · rw [if_neg (by decide), if_neg (by decide), if_neg (by decide)]
    simp
  · rw [if_neg (by decide), if_pos rfl, BitVec.getLsbD_or, BitVec.getLsbD_and, getLsbD_aboveAll hsize hi, htwelve]
    simp [or_comm, or_assoc, and_comm]
  · rw [if_neg (by decide), if_neg (by decide), if_pos rfl, BitVec.getLsbD_and, getLsbD_above (by omega) hi]
    simp [and_comm]

/-- What configuration space answers once it is on (R320, R321, R343). -/
theorem configuration_answers (hwf : storeWf 0 s.regs = true) (hon : s.configOn = true) (hA1 : s.inA1 = false) :
    (∀ o, exec (.configurationRequest (.read 0 o)) s =
      .next { s with out := s.out ++ [.configData (s.configWord (o / 4 * 4))], free := s.free + 1 }) ∧
    (∀ o d, (o / 4 * 4 = 0 ∨ o / 4 * 4 = 8 ∨ o / 4 * 4 = 0x2C) → exec (.configurationRequest (.write 0 o d)) s = .next s) ∧
    (∀ o d, configFixed (o / 4 * 4) = none → o / 4 ≠ 3 → (o / 4 < 4 ∨ 7 < o / 4) →
      ∃ t, exec (.configurationRequest (.write 0 o d)) s = .next t ∧ t.configWord (o / 4 * 4) = d ∧ s.touches t [.host] []) ∧
    (∀ o d, 4 ≤ o / 4 → o / 4 ≤ 7 → 28 ≤ s.winLog → ∃ t, exec (.configurationRequest (.write 0 o d)) s = .next t ∧
      s.touches t [.host] [] ∧ (s.boot.failed = true → t.configWord (o / 4 * 4) = 0) ∧
      (s.boot.failed = false → ∀ i, i < 32 → (t.configWord (o / 4 * 4)).getLsbD i =
        if o / 4 = 4 then i = 2 ∨ (26 ≤ i ∧ d.getLsbD i = true)
        else if o / 4 = 6 then i = 2 ∨ i = 3 ∨ (s.winLog ≤ i ∧ d.getLsbD i = true)
        else if o / 4 = 7 then s.winLog ≤ i + 32 ∧ d.getLsbD i = true else d.getLsbD i = true)) ∧
    (∀ f o d, f ≠ 0 → exec (.configurationRequest (.write f o d)) s = .next { s with out := s.out ++ [.unsupported] } ∧
      exec (.configurationRequest (.read f o)) s = .next { s with out := s.out ++ [.unsupported] }) ∧
    (∀ n, 28 ≤ n → n ≤ 40 → ∃ t, exec (.configurationRequest (.resize n)) s = .next t ∧
      t.regN Reg.PCI_WIN_SIZE = n ∧ s.touches t [.regs] [Reg.PCI_WIN_SIZE]) := by
  have hact := exec_configurationRequest_on hon hA1
  have hwrite {o : Nat} {d : Word} (h : configFixed (o / 4 * 4) = none) :
      exec (.configurationRequest (.write 0 o d)) s = .next (s.configured (o / 4 * 4) d) :=
    (hact _).trans (congrArg Host.Outcome.next ((s.configAct_write o d).trans (if_neg (by simp [h]))))
  refine ⟨fun o => hact _, fun o d ho => ?_, fun o d hfixed h3 hbars => ?_,
    fun o d h4 h7 hsize => ?_, fun f o d hf => ?_, fun n hlo hhi => ?_⟩
  · have hfixed : (configFixed (o / 4 * 4)).isSome = true := by rcases ho with h | h | h <;> rw [h] <;> rfl
    exact (hact _).trans (congrArg Host.Outcome.next ((s.configAct_write o d).trans (if_pos hfixed)))
  · refine ⟨_, hwrite hfixed, ?_, s.configured_touches _ d⟩
    rw [State.configWord_configured hfixed (by omega)]
    unfold State.barBits
    rw [if_neg (by omega), if_neg (by omega), if_neg (by omega), if_neg (by omega)]
  · have hfixed : configFixed (o / 4 * 4) = none := by
      obtain h | h | h | h : o / 4 = 4 ∨ o / 4 = 5 ∨ o / 4 = 6 ∨ o / 4 = 7 := by omega
      all_goals
        rw [h]
        rfl
    refine ⟨_, hwrite hfixed, s.configured_touches _ d, ?_⟩
    rw [State.configWord_configured hfixed (by omega)]
    exact State.barBits_reads hsize _ d h4 h7
  · exact ⟨(hact _).trans (congrArg Host.Outcome.next (if_pos hf)), (hact _).trans (congrArg Host.Outcome.next (if_neg hf))⟩
  · exact ⟨_, (hact _).trans (congrArg Host.Outcome.next (if_pos ⟨hlo, hhi⟩)), State.regN_setRegN _ _ _ hwf (by omega),
      (s.setRegN_writes _ _).touches⟩

end

/-- Settles O44: a plain register takes its access codes, ignored accesses are kept once, a word for a command register is the
command's operand, and configuration space answers by dword. -/
theorem registersAndHeaderTakeWrites : Obligations.RegistersAndHeaderTakeWrites := by
  unfold Obligations.RegistersAndHeaderTakeWrites
  refine ⟨⟨fun o v r base s hinv h hreg size w hsize hplain => registerWrite_plain hinv.2 h hreg hsize hplain,
    fun o size v kind s c hinv h hc => ?_, fun o size s hinv h => ⟨fun hread => ?_, fun hn hsize hlong => ?_⟩,
    registerWrite_commands⟩, fun s hinv => ⟨fun q hdown => exec_configurationRequest_down hdown q,
    fun q hup hstep => exec_configurationRequest_retry hup hstep q, fun hon hA1 => configuration_answers hinv.2 hon hA1⟩⟩
  · obtain ⟨hexec, hkind⟩ := exec_ignored h hc
    obtain ⟨hkept, hfirst, hlaw⟩ := State.badAccess_keeps hinv.2 o hkind
    exact ⟨fun hvalid => hexec.trans (congrArg Host.Outcome.next (hkept hvalid)),
      fun hvalid => ⟨_, hexec, hfirst hvalid, hlaw.touches⟩⟩
  · have hcond : narrow o size = true ∨ ((size = 4 ∨ size = 8) ∧ o % size = 0) ∨ longSpan o size = true :=
      hread.imp id (Or.imp id decide_eq_true)
    exact (exec_bar0Read h o size).trans (congrArg Host.Outcome.next (if_pos hcond))
  · exact ⟨_, exec_bar0Read h o size, State.bar0Read_misaligned hinv.2 hn hsize hlong⟩

end Sys2Proof.Machine

/-! O45: the DOE mailbox and attestation (R342, R389 to R391). -/

namespace Sys2Proof.Machine

set_option Elab.async false

section

variable {s : State}

/-! ## The mailbox -/

/-- With the link up a vector's message holds nothing back. -/
theorem State.signal_writes_up (hup : s.linkUp = true) (v : Nat) : Writes [.out, .host] [] s (s.signal v) := by
  have hfire : Writes [.out, .host] [] s (s.fire v) := by
    unfold State.fire
    split
    · exact (s.setVec_writes v _).widen
    · rw [State.toHost_of_linkUp ((s.linkUp_setVec v _).trans hup)]
      exact ((s.setVec_writes v _).widen (Q := [.out, .host]) (M := [])).step (State.send_evolves _ _).writes
  unfold State.signal
  exact Writes.ite _ ((s.setVec_writes v _).widen) hfire

theorem State.setVec_doe (v : Nat) (x : MsixVec) : (s.setVec v x).host.doe = s.host.doe := rfl

theorem State.toHost_host (x : Output) : (s.toHost x).host = s.host := (s.toHost_evolves x).keep .host (by decide)

theorem State.signal_doe (v : Nat) : (s.signal v).host.doe = s.host.doe := by
  have hmsix := s.signal_msixOnly v
  rw [hmsix]

/-- What a mailbox that gives an answer shows. -/
def State.gives (s t : State) (a : DoeAnswer) : Prop :=
  t.host.doe = ⟨true, false, some a⟩ ∧ Writes [.out, .host, .sec, .free] [] s t

theorem State.doeAnswer_gives {u : State} (h : Writes [.out, .host, .sec, .free] [] s u) (hup : s.linkUp = true) (a : DoeAnswer) :
    s.gives (u.doeAnswer a) a := by
  unfold State.doeAnswer
  have h1 := h.step (u.evolves_host { u.host with doe := { ready := true, answer := some a } }).writes
  refine ⟨State.signal_doe 25, h1.step (State.signal_writes_up ?_ 25)⟩
  exact (h1.bit (by simp) 10).trans hup

theorem State.doeAnswer_keeps (a : DoeAnswer) : (s.doeAnswer a).sec = s.sec ∧ (s.doeAnswer a).free = s.free :=
  ⟨(s.doeAnswer_evolves a).keep .sec (by decide), (s.doeAnswer_evolves a).keep .free (by decide)⟩

theorem State.linkUp_of_mailed (h : s.mailed) : s.linkUp = true := by
  have hon := h.1
  simp only [State.configOn, Bool.and_eq_true] at hon
  exact hon.1

theorem State.onDoe_of_mailed (h : s.mailed) (f : State → State) : s.onDoe f = f s := by
  obtain ⟨hon, hasleep, hA1⟩ := h
  unfold State.onDoe State.doeBusy
  rw [if_pos (by simp [hon, hasleep]), if_neg (by simp [hA1])]

theorem State.mapSec_writes (f : SecSt → SecSt) : Writes [.sec] [] s (s.mapSec f) := (s.evolves_sec _).writes

/-- A mailbox that only answers. -/
theorem State.answers (h : s.mailed) (a : DoeAnswer) : s.gives (s.doeAnswer a) a :=
  State.doeAnswer_gives (Writes.refl s) (State.linkUp_of_mailed h) a

/-- A mailbox that answers after a step of the exchange. -/
theorem State.answers_after (h : s.mailed) (f : SecSt → SecSt) (a : DoeAnswer) :
    s.gives ((s.mapSec f).doeAnswer a) a ∧ ((s.mapSec f).doeAnswer a).sec = f s.sec :=
  ⟨State.doeAnswer_gives (s.mapSec_writes f).widen (State.linkUp_of_mailed h) a, ((s.mapSec f).doeAnswer_keeps a).1⟩

/-- A mailbox that answers with a fresh nonce. -/
theorem State.answers_fresh (h : s.mailed) (a : DoeAnswer) : s.gives (({ s with free := s.free + 4 } : State).doeAnswer a) a ∧
    (({ s with free := s.free + 4 } : State).doeAnswer a).free = s.free + 4 :=
  ⟨State.doeAnswer_gives (s.evolves_free (s.free + 4)).writes.widen (State.linkUp_of_mailed h) a, (State.doeAnswer_keeps a).2⟩

/-! ## Attestation in order -/

/-- A command of the mailbox is answered by what it gives. -/
theorem gives_of_exec {c : Instr} {t : State} {a : DoeAnswer} (hexec : exec c s = .next t) (h : s.gives t a) :
    ∃ t, exec c s = .next t ∧ t.host.doe = ⟨true, false, some a⟩ ∧ s.touches t [.out, .host, .sec, .free] [] :=
  ⟨t, hexec, h.1, h.2.touches⟩

/-- What holds of the state that a command gives. -/
theorem holds_of_exec {c : Instr} {t : State} (hexec : exec c s = .next t) {p : State → Prop} (hp : p t) :
    ∀ u, exec c s = .next u → p u := by
  rintro u hu
  obtain rfl := Host.Outcome.next.inj (hexec.symm.trans hu)
  exact hp

theorem State.spdmIn_of_algorithms (h : s.mailed) (hspdm : s.sec.spdm = .algorithms) (f : State → State) : s.spdmIn f = f s :=
  (State.onDoe_of_mailed h _).trans (if_pos hspdm)

theorem State.spdmIn_early (h : s.mailed) (hspdm : s.sec.spdm ≠ .algorithms) (f : State → State) :
    s.spdmIn f = s.doeAnswer (.error 4) := (State.onDoe_of_mailed h _).trans (if_neg hspdm)

theorem exec_doeDiscovery (h : s.mailed) {n : Nat} (hn : n ≤ 65536) (i : Nat) :
    exec (.doeDiscovery i n) s = .next (s.doeAnswer (discoveryAnswer i)) :=
  congrArg Host.Outcome.next ((State.onDoe_of_mailed h _).trans (if_neg (by omega)))

theorem exec_getVersion (h : s.mailed) : exec .getVersion s = .next ((s.mapSec fun x =>
    { x with spdm := .version, asym := false, hash := false }).doeAnswer (.version [0x12, 0x13])) :=
  congrArg Host.Outcome.next (State.onDoe_of_mailed h _)

theorem exec_getCapabilities (h : s.mailed) (hspdm : s.sec.spdm ≠ .none) : exec .getCapabilities s =
    .next ((s.mapSec fun x => { x with spdm := .capabilities }).doeAnswer (.capabilities 0x36 20 65536)) :=
  congrArg Host.Outcome.next ((State.onDoe_of_mailed h _).trans (if_neg hspdm))

theorem exec_negotiateAlgorithms (h : s.mailed) (hnone : s.sec.spdm ≠ .none) (hversion : s.sec.spdm ≠ .version)
    (offered : List Nat) : exec (.negotiateAlgorithms offered) s = .next ((s.mapSec fun x =>
      { x with spdm := .algorithms, asym := offered.contains 0xA501, hash := offered.contains 0xA511 }).doeAnswer
      (.algorithms (if offered.contains 0xA501 = true then some 0xA501 else none)
        (if offered.contains 0xA511 = true then some 0xA511 else none) 1)) :=
  congrArg Host.Outcome.next ((State.onDoe_of_mailed h _).trans (if_neg (by simp [hnone, hversion])))

theorem exec_getDigests (h : s.mailed) (hspdm : s.sec.spdm = .algorithms) :
    exec .getDigests s = .next (s.doeAnswer (.digests Config.certDigest)) :=
  congrArg Host.Outcome.next (State.spdmIn_of_algorithms h hspdm _)

theorem exec_getCertificate (h : s.mailed) (hspdm : s.sec.spdm = .algorithms) (o n : Nat) : exec (.getCertificate 0 o n) s =
    .next (s.doeAnswer (if o < Config.certLength then .certificate ((List.range (min n (Config.certLength - o))).map fun i =>
      Config.certByte (o + i)) (Config.certLength - o - min n (Config.certLength - o)) else .error 1)) := by
  refine congrArg Host.Outcome.next ((State.spdmIn_of_algorithms h hspdm _).trans ?_)
  by_cases ho : o < Config.certLength
  · rw [if_neg (by omega), if_pos ho]
  · rw [if_pos (Or.inr (by omega)), if_neg ho]
    rfl

theorem exec_challenge (h : s.mailed) (hspdm : s.sec.spdm = .algorithms) (hsign : s.canSign = true) (nonce : Nat) :
    exec (.challenge 0 nonce) s = .next (({ s with free := s.free + 4 } : State).doeAnswer
      (.challengeAuth Config.certDigest s.nonce nonce
        (Config.deviceSign (leBytes 64 Config.certDigest ++ leBytes 32 s.nonce ++ leBytes 32 nonce)))) :=
  congrArg Host.Outcome.next ((State.spdmIn_of_algorithms h hspdm _).trans ((if_neg (by simp [hsign])).trans (if_neg (by decide))))

/-- A block of the fixed ones is found by its index. -/
theorem State.asked_fixed {b : MeasBlock} (hb : b ∈ s.fixedBlocks) : s.asked b.index = some [b] := by
  simp only [State.fixedBlocks, List.mem_cons, List.not_mem_nil, or_false] at hb
  rcases hb with rfl | rfl | rfl | rfl <;> rfl

theorem exec_getMeasurements (h : s.mailed) (hspdm : s.sec.spdm = .algorithms) {index : Nat} {bs : List MeasBlock}
    (hask : s.asked index = some bs) {signed : Bool} (hsign : signed = true → s.canSign = true) (nonce : Nat) :
    exec (.getMeasurements index signed nonce) s = .next (({ s with free := s.free + 4 } : State).doeAnswer
      (.measurements s.blocks.length bs s.nonce nonce (if signed = true then some (Config.deviceSign
          (bs.flatMap (fun b => leBytes 1 b.index ++ leBytes 1 b.type ++ b.value) ++ leBytes 32 s.nonce ++ leBytes 32 nonce))
        else none))) := by
  have hno : ¬(signed && !s.canSign) = true := by
    intro hno
    simp only [Bool.and_eq_true, Bool.not_eq_true'] at hno
    exact Bool.noConfusion ((hsign hno.1).symm.trans hno.2)
  refine congrArg Host.Outcome.next ((State.spdmIn_of_algorithms h hspdm _).trans ((if_neg hno).trans ?_))
  rw [hask]

end

/-- Settles O45: every answer is put into the mailbox by one operation, in the order of the exchange. -/
theorem attestationAnswers : Obligations.AttestationAnswers := by
  unfold Obligations.AttestationAnswers
  intro s h
  refine ⟨fun n hn => ⟨gives_of_exec (exec_doeDiscovery h hn 0) (State.answers h _),
    gives_of_exec (exec_doeDiscovery h hn 1) (State.answers h _)⟩, fun i n hn => ?_, ?_, ?_, fun hspdm => ?_,
    fun offered hnone hversion => ?_, fun hspdm => ⟨?_, fun o n => ?_, fun x nonce hsign => ⟨?_, ?_⟩, fun signed nonce hsign =>
      ⟨?_, ?_, fun b hb => ?_⟩⟩, fun hspdm a b c d => ?_⟩
  · exact ⟨_, congrArg Host.Outcome.next ((State.onDoe_of_mailed h _).trans (if_pos hn)), rfl,
      (s.evolves_host { s.host with doe := { s.host.doe with error := true } }).writes.touches⟩
  · exact ⟨_, congrArg Host.Outcome.next (if_pos h.1), rfl, (s.evolves_host { s.host with doe := {} }).writes.touches⟩
  · obtain ⟨hgive, hsec⟩ := State.answers_after h (fun x => { x with spdm := .version, asym := false, hash := false })
      (.version [0x12, 0x13])
    exact ⟨gives_of_exec (exec_getVersion h) hgive, holds_of_exec (exec_getVersion h) (by rw [hsec])⟩
  · obtain ⟨hgive, hsec⟩ := State.answers_after h (fun x => { x with spdm := .capabilities }) (.capabilities 0x36 20 65536)
    exact ⟨gives_of_exec (exec_getCapabilities h hspdm) hgive, holds_of_exec (exec_getCapabilities h hspdm) (by rw [hsec])⟩
  · obtain ⟨hgive, hsec⟩ := State.answers_after h
      (fun x => { x with spdm := .algorithms, asym := offered.contains 0xA501, hash := offered.contains 0xA511 })
      (.algorithms (if offered.contains 0xA501 = true then some 0xA501 else none)
        (if offered.contains 0xA511 = true then some 0xA511 else none) 1)
    exact ⟨gives_of_exec (exec_negotiateAlgorithms h hnone hversion offered) hgive,
      holds_of_exec (exec_negotiateAlgorithms h hnone hversion offered) (by
        rw [hsec]
        exact ⟨rfl, rfl, rfl⟩)⟩
  · exact gives_of_exec (exec_getDigests h hspdm) (State.answers h _)
  · exact gives_of_exec (exec_getCertificate h hspdm o n) (State.answers h _)
  · exact gives_of_exec (exec_challenge h hspdm hsign nonce) (State.answers_fresh h _).1
  · rintro t ht rfl
    exact holds_of_exec (exec_challenge h hspdm hsign nonce) (p := fun t => t.free = s.free + 4) (State.answers_fresh h _).2 t ht
  · exact gives_of_exec (exec_getMeasurements h hspdm rfl hsign nonce) (State.answers_fresh h _).1
  · exact gives_of_exec (exec_getMeasurements h hspdm rfl hsign nonce) (State.answers_fresh h _).1
  · exact gives_of_exec (exec_getMeasurements h hspdm (State.asked_fixed hb) hsign nonce) (State.answers_fresh h _).1
  · have hearly (f : State → State) : (.next (s.spdmIn f) : Host.Outcome State Fault Refusal) = .next (s.doeAnswer (.error 4)) :=
      congrArg Host.Outcome.next (State.spdmIn_early h hspdm f)
    exact ⟨gives_of_exec (hearly _) (State.answers h _), gives_of_exec (hearly _) (State.answers h _),
      gives_of_exec (hearly _) (State.answers h _), gives_of_exec (hearly _) (State.answers h _)⟩

end Sys2Proof.Machine

/-! O46: firmware updates and enrollment (R385 to R388, R395). -/

namespace Sys2Proof.Machine

set_option Elab.async false

section

variable {s : State}

/-! ## Writes of a group -/

/-- A group is frozen as one of its registers is. -/
theorem State.groupFrozen_find {ws : List (Nat × Word)} (h : s.groupFrozen ws = true) :
    ∃ w, ws.find? (fun w => s.frozen w.1) = some w := by
  cases hf : ws.find? (fun w => s.frozen w.1) with
  | some w => exact ⟨w, rfl⟩
  | none =>
    obtain ⟨w, hw, hfrozen⟩ := List.any_eq_true.mp h
    exact absurd hfrozen (List.find?_eq_none.mp hf w hw)

/-- A group that no frozen register bars is queued whole. -/
theorem State.seedGroup_taken {ws : List (Nat × Word)} (h : s.groupFrozen ws = false)
    (hroom : (queued s.sbk.queue).length + ws.length ≤ 16) :
    s.seedGroup ws = { s with sbk := { s.sbk with queue := s.sbk.queue ++ [⟨ws⟩] } } := by
  have hfind : ws.find? (fun w => s.frozen w.1) = none :=
    List.find?_eq_none.mpr fun w hw hfrozen => Bool.noConfusion (h.symm.trans (List.any_eq_true.mpr ⟨w, hw, hfrozen⟩))
  unfold State.seedGroup
  rw [hfind]
  exact if_neg (by omega)

/-- A queue of the seed bank takes entries. -/
theorem State.evolves_queue (q : List SeedEntry) : Evolves [.sbk] s { s with sbk := { s.sbk with queue := q } } :=
  ⟨fun p hp => by
    cases p
    case sbk => exact absurd (List.mem_singleton_self _) hp
    all_goals rfl, id, id, List.prefix_refl _, fun _ => Nat.le_refl _, Ledger.grows_refl _⟩

/-- A group that a frozen register bars only tells of it. -/
theorem State.seedGroup_frozen {ws : List (Nat × Word)} (h : s.groupFrozen ws = true) :
    Writes [.regs] [Reg.SBK_FROZEN] s (s.seedGroup ws) := by
  obtain ⟨w, hw⟩ := State.groupFrozen_find h
  unfold State.seedGroup
  rw [hw]
  exact s.frozenHit_writes _

/-- What a register of the seed bank reads once a group is queued. -/
theorem State.seed_group (ws : List (Nat × Word)) (i : Nat) :
    ({ s with sbk := { s.sbk with queue := s.sbk.queue ++ [⟨ws⟩] } } : State).seed i = lastWrite i (s.seed i) ws := by
  have hread : ({ s with sbk := { s.sbk with queue := s.sbk.queue ++ [⟨ws⟩] } } : State).seed i =
      lastWrite i (s.seedStored i) (queued (s.sbk.queue ++ [⟨ws⟩])) := rfl
  have hone : queued [⟨ws⟩] = ws := List.append_nil ws
  rw [hread, queued_append, lastWrite_append, hone]
  rfl

/-! ## Key digests -/

/-- A number is the sum of its words. -/
theorem foldl_words (x n : Nat) :
    (List.range n).foldl (fun a i => a + x / 2 ^ (32 * i) % 2 ^ 32 * 2 ^ (32 * i)) 0 = x % 2 ^ (32 * n) := by
  induction n with
  | zero => simp [Nat.mod_one]
  | succ n ih =>
    rw [List.range_succ, List.foldl_append, ih, Nat.mul_succ, Nat.pow_add, Nat.mod_mul, Nat.mul_comm (2 ^ (32 * n))]
    rfl

/-- The writes of a digest, read word by word. -/
theorem lastWrite_digest (d : BitVec 256) (v : Word) {i : Nat} (h : i < 8) :
    lastWrite (40 + 8 * 0 + i) v (digestWrites 0 d ++ [(56, 1)]) = (d >>> (32 * i)).setWidth 32 := by
  obtain rfl | rfl | rfl | rfl | rfl | rfl | rfl | rfl :
    i = 0 ∨ i = 1 ∨ i = 2 ∨ i = 3 ∨ i = 4 ∨ i = 5 ∨ i = 6 ∨ i = 7 := by omega
  all_goals rfl

theorem lastWrite_enrolled (d : BitVec 256) (v : Word) : lastWrite 56 v (digestWrites 0 d ++ [(56, 1)]) = 1 := rfl

/-- R387: the digest written is the slot's. -/
theorem State.slotDigest_written (d : BitVec 256) : ({ s with sbk := { s.sbk with
    queue := s.sbk.queue ++ [⟨digestWrites 0 d ++ [(56, 1)]⟩] } } : State).slotDigest 0 = d := by
  have hfold : ∀ (l : List Nat) (a : Nat), (∀ i ∈ l, i < 8) → l.foldl (fun a i => a + (({ s with sbk := { s.sbk with
      queue := s.sbk.queue ++ [⟨digestWrites 0 d ++ [(56, 1)]⟩] } } : State).seed (40 + 8 * 0 + i)).toNat * 2 ^ (32 * i)) a =
      l.foldl (fun a i => a + d.toNat / 2 ^ (32 * i) % 2 ^ 32 * 2 ^ (32 * i)) a := by
    intro l
    induction l with
    | nil => exact fun _ _ => rfl
    | cons i rest ih =>
      intro a hall
      rw [List.foldl_cons, List.foldl_cons, ih _ fun j hj => hall j (List.mem_cons_of_mem _ hj), State.seed_group,
        lastWrite_digest d _ (hall i (List.mem_cons_self ..)), BitVec.toNat_setWidth, BitVec.toNat_ushiftRight, Nat.shiftRight_eq_div_pow]
  unfold State.slotDigest
  rw [hfold _ _ fun i hi => List.mem_range.mp hi, foldl_words, Nat.mod_eq_of_lt d.isLt, BitVec.ofNat_toNat, BitVec.setWidth_eq]

/-! ## Records -/

/-- R388: the result of a record's check. -/
theorem State.enrResult_shows (hwf : storeWf 0 s.regs = true) {code : Nat} (hcode : code < 16) :
    (s.enrResult code).enrBusy = false ∧ (s.enrResult code).fld Reg.SBK_ENR_CTRL 7 4 = code ∧
      (s.enrResult code).bit Reg.SBK_ENR_CTRL 8 = true ∧ (s.enrResult code).bit Reg.SBK_EVENT 3 = true ∧
      Writes Part.signalled [Reg.SBK_ENR_CTRL, Reg.SBK_EVENT] s (s.enrResult code) := by
  unfold State.enrResult State.enrBusy
  have h1 := s.setBit_writes Reg.SBK_ENR_CTRL 1 false
  have hidle := State.bit_setBit s Reg.SBK_ENR_CTRL 1 false hwf (by decide)
  generalize s.setBit Reg.SBK_ENR_CTRL 1 false = a at *
  have h2 := a.setFld_writes Reg.SBK_ENR_CTRL 7 4 code
  have hfld := State.fld_setFld a Reg.SBK_ENR_CTRL (hi := 7) (lo := 4) (x := code) (h1.wf hwf) (by decide) (by simpa using hcode)
  have hidle2 := a.bit_setFld Reg.SBK_ENR_CTRL (hi := 7) (lo := 4) code 1 (h1.wf hwf) (by decide)
  rw [if_neg (by decide)] at hidle2
  have h12 := h1.step h2
  generalize a.setFld Reg.SBK_ENR_CTRL 7 4 code = b at *
  have h3 := b.setBit_writes Reg.SBK_ENR_CTRL 8 true
  have hdone := State.bit_setBit b Reg.SBK_ENR_CTRL 8 true (h12.wf hwf) (by decide)
  have hidle3 := b.bit_setFld Reg.SBK_ENR_CTRL (hi := 8) (lo := 8) 1 1 (h12.wf hwf) (by decide)
  rw [if_neg (by decide)] at hidle3
  have hfld3 : (b.setBit Reg.SBK_ENR_CTRL 8 true).fld Reg.SBK_ENR_CTRL 7 4 = b.fld Reg.SBK_ENR_CTRL 7 4 :=
    State.fld_setFld_other (h12.wf hwf) 1 (by decide) (fun _ => Or.inl (by decide))
  change (b.setBit Reg.SBK_ENR_CTRL 8 true).bit Reg.SBK_ENR_CTRL 1 = _ at hidle3
  have h123 := (h12.step h3).widen (Q := Part.signalled) (M := [Reg.SBK_ENR_CTRL, Reg.SBK_EVENT])
  generalize b.setBit Reg.SBK_ENR_CTRL 8 true = c at *
  have h4 := c.event_writes Reg.SBK_EVENT 3
  refine ⟨?_, ?_, ?_, State.bit_event _ _ _ (h123.wf hwf) (by decide), h123.step h4⟩
  · rw [h4.bit (by decide), hidle3, hidle2, hidle]
  · rw [h4.fld (by decide), hfld3, hfld]
  · rw [h4.bit (by decide), hdone]

/-- The codes of a record's check: the last is of a frozen register. -/
theorem State.enrCode_ends : s.enrCode < 16 ∧ (s.enrCode = 8 → s.groupFrozen s.enrWrites = true) ∧
    (s.enrCode = 0 → s.groupFrozen s.enrWrites = false) := by
  unfold State.enrCode
  dsimp only
  split_ifs <;> simp_all

theorem exec_enrollmentCheck_coded (hbusy : s.enrBusy = true) (hload : s.loadRuns = false) (hcode : s.enrCode ≠ 0) :
    exec .enrollmentCheck s =
      .next ((if s.enrCode = 8 then s.seedGroup s.enrWrites else s).enrResult s.enrCode) := by
  refine congrArg Host.Outcome.next ((if_neg (by simp [hbusy, hload])).trans ((if_neg hcode).trans ?_))
  by_cases h : s.enrCode = 8
  · rw [if_pos h, if_pos h, h]
  · rw [if_neg h, if_neg h]

/-- R388: a record that fails a check leaves the seed bank alone. -/
theorem enrollmentCheck_fails (hwf : storeWf 0 s.regs = true) (hbusy : s.enrBusy = true) (hload : s.loadRuns = false)
    (hcode : s.enrCode ≠ 0) : ∃ t, exec .enrollmentCheck s = .next t ∧ t.enrBusy = false ∧
      t.fld Reg.SBK_ENR_CTRL 7 4 = s.enrCode ∧ t.bit Reg.SBK_ENR_CTRL 8 = true ∧ t.bit Reg.SBK_EVENT 3 = true ∧
      s.touches t Part.signalled [Reg.SBK_ENR_CTRL, Reg.SBK_EVENT, Reg.SBK_FROZEN] := by
  obtain ⟨hlt, hfrozen, -⟩ := s.enrCode_ends
  have h1 : Writes [.regs] [Reg.SBK_FROZEN] s (if s.enrCode = 8 then s.seedGroup s.enrWrites else s) := by
    split
    next h => exact State.seedGroup_frozen (hfrozen h)
    next => exact Writes.refl s
  refine ⟨_, exec_enrollmentCheck_coded hbusy hload hcode, ?_⟩
  generalize (if s.enrCode = 8 then s.seedGroup s.enrWrites else s) = u at *
  obtain ⟨hidle, hfld, hdone, hevent, h2⟩ := State.enrResult_shows (h1.wf hwf) hlt
  exact ⟨hidle, hfld, hdone, hevent, ((h1.widen (Q := Part.signalled)
    (M := [Reg.SBK_ENR_CTRL, Reg.SBK_EVENT, Reg.SBK_FROZEN]) rfl (by decide)).step h2 rfl (by decide)).touches⟩

/-- R388, R395: the writes of a record that passes enter the queue together. -/
theorem enrollmentCheck_passes (hwf : storeWf 0 s.regs = true) (hbusy : s.enrBusy = true) (hload : s.loadRuns = false)
    (hcode : s.enrCode = 0) (hroom : (queued s.sbk.queue).length + s.enrWrites.length ≤ 16) :
    ∃ t, exec .enrollmentCheck s = .next t ∧ t.sbk = { s.sbk with queue := s.sbk.queue ++ [⟨s.enrWrites⟩] } ∧
      t.enrBusy = false ∧ t.fld Reg.SBK_ENR_CTRL 7 4 = 0 ∧ t.bit Reg.SBK_ENR_CTRL 8 = true ∧ t.bit Reg.SBK_EVENT 3 = true ∧
      s.touches t (.sbk :: Part.signalled) [Reg.SBK_ENR_CTRL, Reg.SBK_EVENT] := by
  obtain ⟨-, -, hfree⟩ := s.enrCode_ends
  have hexec : exec .enrollmentCheck s = .next ((s.seedGroup s.enrWrites).enrResult 0) :=
    congrArg Host.Outcome.next ((if_neg (by simp [hbusy, hload])).trans ((if_pos hcode).trans (if_pos hroom)))
  refine ⟨_, hexec, ?_⟩
  rw [State.seedGroup_taken (hfree hcode) hroom]
  obtain ⟨u, hu⟩ : ∃ u : State, u = { s with sbk := { s.sbk with queue := s.sbk.queue ++ [⟨s.enrWrites⟩] } } := ⟨_, rfl⟩
  have h1 : Writes [.sbk] [] s u := by
    rw [hu]
    exact (s.evolves_queue _).writes
  have hsbk : u.sbk = { s.sbk with queue := s.sbk.queue ++ [⟨s.enrWrites⟩] } := by rw [hu]
  rw [← hu]
  obtain ⟨hidle, hfld, hdone, hevent, h2⟩ := State.enrResult_shows (h1.wf hwf) (code := 0) (by decide)
  exact ⟨Eq.trans (h2.evolves.keep .sbk (by decide)) hsbk, hidle, hfld, hdone, hevent,
    ((h1.widen (Q := .sbk :: Part.signalled) (M := [Reg.SBK_ENR_CTRL, Reg.SBK_EVENT])).step h2).touches⟩

theorem enrollmentGo_starts (hwf : storeWf 0 s.regs = true) (h : s.hosted) (hidle : s.enrBusy = false) :
    ∃ t, exec .enrollmentGo s = .next t ∧ t.enrBusy = true ∧ t.bit Reg.SBK_ENR_CTRL 8 = false ∧
      s.touches t [.regs] [Reg.SBK_ENR_CTRL] := by
  refine ⟨_, congrArg Host.Outcome.next ((State.onHost_of_hosted h _).trans (if_neg (by simp [hidle]))), ?_⟩
  unfold State.enrBusy
  have h1 := s.setBit_writes Reg.SBK_ENR_CTRL 1 true
  have hbusy := State.bit_setBit s Reg.SBK_ENR_CTRL 1 true hwf (by decide)
  generalize s.setBit Reg.SBK_ENR_CTRL 1 true = a at *
  have h2 := a.setBit_writes Reg.SBK_ENR_CTRL 8 false
  have hkeep := a.bit_setFld Reg.SBK_ENR_CTRL (hi := 8) (lo := 8) 0 1 (h1.wf hwf) (by decide)
  rw [if_neg (by decide)] at hkeep
  exact ⟨hkeep.trans hbusy, State.bit_setBit _ _ _ _ (h1.wf hwf) (by decide), (h1.step h2).touches⟩

theorem State.onI3c_of_managed (haddr : s.ldg.address.isSome = true) (h : s.managed) (f : State → State) : s.onI3c f = f s :=
  (if_pos haddr).trans (State.onMgmt_of_managed h f)

/-- R387: the first key goes into slot 0 while both slots are empty. -/
theorem firstEnrollment_enrolls (d : BitVec 256) (haddr : s.ldg.address.isSome = true) (h : s.managed)
    (h0 : s.enrolled 0 = false) (h1 : s.enrolled 1 = false) (hfree : s.groupFrozen (digestWrites 0 d ++ [(56, 1)]) = false)
    (hroom : (queued s.sbk.queue).length ≤ 7) : ∃ t, exec (.firstEnrollment d) s = .next t ∧
      t.sbk.queue = s.sbk.queue ++ [⟨digestWrites 0 d ++ [(56, 1)]⟩] ∧ t.slotDigest 0 = d ∧ t.enrolled 0 = true ∧
      s.touches t [.sbk, .out] [] := by
  have hlen : (digestWrites 0 d ++ [(56, 1)]).length = 9 := rfl
  have hexec : exec (.firstEnrollment d) s =
      .next ((s.seedGroup (digestWrites 0 d ++ [(56, 1)])).send (.mctp (.vendor 1 []))) :=
    congrArg Host.Outcome.next ((State.onI3c_of_managed haddr h _).trans (if_neg (by simp [h0, h1])))
  rw [State.seedGroup_taken hfree (by omega)] at hexec
  refine ⟨_, hexec, rfl, State.slotDigest_written (s := s) d, ?_,
    (((State.evolves_queue _).writes.widen (Q := [.sbk, .out]) (M := [])).step (State.send_evolves _ _).writes).touches⟩
  have hseed := s.seed_group (digestWrites 0 d ++ [(56, 1)]) 56
  rw [lastWrite_enrolled] at hseed
  exact (congrArg (BitVec.getLsbD · 0) hseed).trans (by decide)

/-! ## Firmware updates -/

theorem exec_pldm (h : s.managed) (f : State → State) : (.next (s.onMgmt f) : Host.Outcome State Fault Refusal) = .next (f s) :=
  congrArg Host.Outcome.next (State.onMgmt_of_managed h f)

/-- What an answer of the update shows: its code and fields, and what the update has become. -/
theorem pldm_answers {c : Instr} (f : SecSt → SecSt) {code : Nat} {fields : List Nat}
    (hexec : exec c s = .next ((s.mapSec f).pldmSend code fields)) :
    (∃ t, exec c s = .next t ∧ t.out = s.out ++ [.mctp (.pldm code fields)] ∧ s.touches t [.sec, .out] []) ∧
      ∀ t, exec c s = .next t → t.sec = f s.sec :=
  ⟨⟨_, hexec, rfl, (((s.mapSec_writes f).widen (Q := [.sec, .out]) (M := [])).step (State.send_evolves _ _).writes).touches⟩,
    holds_of_exec (p := fun t => t.sec = f s.sec) hexec rfl⟩

/-- An answer of the update, and the state that the update is then in. -/
theorem pldm_step {c : Instr} (f : SecSt → SecSt) {code : Nat} {fields : List Nat} {p : PldmState}
    (hexec : exec c s = .next ((s.mapSec f).pldmSend code fields)) (hp : (f s.sec).pldm = p) :
    (∃ t, exec c s = .next t ∧ t.out = s.out ++ [.mctp (.pldm code fields)] ∧ s.touches t [.sec, .out] []) ∧
      ∀ t, exec c s = .next t → t.sec.pldm = p := by
  obtain ⟨hanswer, hsec⟩ := pldm_answers f hexec
  exact ⟨hanswer, fun t ht => (congrArg SecSt.pldm (hsec t ht)).trans hp⟩

/-- R385: an update goes from its request to the apply. -/
theorem exec_pldmIn (h : s.managed) {want : PldmState} (hin : s.sec.pldm = want) (g : State → State) :
    (.next (s.pldmIn want g) : Host.Outcome State Fault Refusal) = .next ((g s).pldmSend 0 []) :=
  (exec_pldm h _).trans (congrArg _ (if_pos hin))

/-- With no update under way a command of it is answered so. -/
theorem exec_pldm_idle (h : s.managed) (hidle : s.sec.pldm = .idle) {c : Instr} (hc : c = .cancelUpdate ∨
    c = .activateFirmware ∨ c = .passComponentTable 0 ∨ c = .updateComponent 0 0) :
    exec c s = .next ((s.mapSec id).pldmSend 0x80 []) := by
  have hnot (p : PldmState) (hp : p ≠ .idle) : s.sec.pldm ≠ p := fun hcon => hp (hcon.symm.trans hidle)
  rcases hc with rfl | rfl | rfl | rfl
  · exact (exec_pldm h _).trans (congrArg _ (if_pos hidle))
  · refine (exec_pldm h _).trans (congrArg _ ((if_neg fun hcon => hnot .ready (by decide) hcon.1).trans ?_))
    rw [if_pos hidle]
    rfl
  · refine (exec_pldm h _).trans (congrArg _ ((if_neg (hnot .learn (by decide))).trans ?_))
    rw [if_pos hidle]
    rfl
  · refine (exec_pldm h _).trans (congrArg _ ((if_neg (hnot .ready (by decide))).trans ?_))
    rw [if_pos hidle]
    rfl

theorem toNat_mod_two (v : Word) : v.toNat % 2 = (v.getLsbD 0).toNat := by
  rw [BitVec.getLsbD, Nat.testBit_zero]
  rcases Nat.mod_two_eq_zero_or_one v.toNat with h | h <;> rw [h] <;> rfl

/-- R385: activation makes the bank that passed the active one. -/
theorem activateFirmware_activates (h : s.managed) (hready : s.sec.pldm = .ready) (hpassed : s.sec.passed = true)
    (hfrozen : s.frozen 32 = false) (hroom : (queued s.sbk.queue).length < 16) :
    ∃ t, exec .activateFirmware s = .next t ∧ t.activeBank = 1 - s.activeBank ∧ t.sec.pldm = .idle ∧
      t.out = s.out ++ [.mctp (.pldm 0 [])] ∧ s.touches t [.sec, .sbk, .out] [] := by
  have hexec := (exec_pldm h (fun s => if s.sec.pldm = .ready ∧ s.sec.passed then
      ((s.seedAccept 32 (s.seed 32 &&& ~~~1#32 ||| BitVec.ofNat 32 s.otherBank)).mapSec fun x =>
        { x with pldm := .idle, passed := false }).pldmSend pldmOk []
    else s.pldmSend (if s.sec.pldm = .idle then pldmNotUpdating else pldmBadState) [])).trans
      (congrArg _ (if_pos ⟨hready, hpassed⟩))
  rw [State.seedAccept_taken hfrozen hroom] at hexec
  refine ⟨_, hexec, ?_, rfl, rfl, ?_⟩
  · have hseed := s.seed_taken 32 32 (s.seed 32 &&& ~~~1#32 ||| BitVec.ofNat 32 s.otherBank)
    rw [if_pos rfl] at hseed
    have hbank : (s.seed 32 &&& ~~~1#32 ||| BitVec.ofNat 32 s.otherBank).toNat % 2 = 1 - s.activeBank := by
      rw [toNat_mod_two]
      unfold State.otherBank
      obtain h0 | h1 : 1 - s.activeBank = 0 ∨ 1 - s.activeBank = 1 := by omega
      · rw [h0]
        simp
      · rw [h1]
        simp
    exact (congrArg (fun v : Word => v.toNat % 2) hseed).trans hbank
  · exact ((((State.evolves_queue _).writes.widen (Q := [.sec, .sbk, .out]) (M := [])).step (State.mapSec_writes _)).step
      (State.send_evolves _ _).writes).touches

end

/-- Settles O46: each command of an update acts in its own state only; the writes of an enrollment form one group of the seed
bank's queue. -/
theorem firmwareAndKeysUpdate : Obligations.FirmwareAndKeysUpdate := by
  unfold Obligations.FirmwareAndKeysUpdate
  refine ⟨fun s h => ?_, fun s hinv => ⟨fun d haddr h h0 h1 hfree hroom => firstEnrollment_enrolls d haddr h h0 h1 hfree hroom,
    fun d haddr h henrolled => ?_, fun h hidle => enrollmentGo_starts hinv.2 h hidle, fun h hbusy => ?_, fun hbusy hload => ?_,
    fun hbusy hload hcode => enrollmentCheck_fails hinv.2 hbusy hload hcode,
    fun hbusy hload hcode hroom => enrollmentCheck_passes hinv.2 hbusy hload hcode hroom⟩⟩
  · refine ⟨?_, ?_, ?_,
      fun n hidle => ?_, fun n hnot => ?_, fun hlearn => ?_, fun n hready hlen => ?_, fun o data hdown => ?_, fun hdown => ?_,
      fun hverify => ?_, fun happly => ?_, activateFirmware_activates h, fun hnot => ?_,
      fun hidle c hc => pldm_step id (exec_pldm_idle h hidle hc) hidle⟩
    · exact (pldm_answers (c := .queryDeviceIdentifiers) id (exec_pldm h _)).1
    · exact (pldm_answers (c := .getFirmwareParameters) id (exec_pldm h _)).1
    · exact (pldm_answers (c := .getStatus) id (exec_pldm h _)).1
    · exact pldm_step (fun x => { x with pldm := .learn, passed := false, length := 0 })
        ((exec_pldm h _).trans (congrArg _ (if_pos hidle))) rfl
    · exact pldm_step id ((exec_pldm h _).trans (congrArg _ (if_neg hnot))) rfl
    · exact pldm_step (fun x => { x with pldm := .ready }) (exec_pldmIn h hlearn _) rfl
    · refine pldm_step (fun x => { x with pldm := .download, passed := false, length := n }) ((exec_pldmIn h hready _).trans ?_) rfl
      rw [if_pos ⟨rfl, hlen⟩]
    · exact ⟨_, (exec_pldm h _).trans (congrArg _ (if_pos hdown)), rfl, hdown, (State.mapSec_writes _).touches⟩
    · exact pldm_step (fun x => { x with pldm := .verify }) ((exec_pldm h _).trans (congrArg _ (if_pos hdown))) rfl
    · have hexec : exec .verifyComplete s = .next ((s.mapSec fun x => { x with
          pldm := if s.bankCode (s.bootImage s.otherBank) = 0 then .apply else .ready,
          passed := decide (s.bankCode (s.bootImage s.otherBank) = 0) }).pldmSend (s.bankCode (s.bootImage s.otherBank)) []) :=
        (exec_pldm h _).trans (congrArg _ (if_pos hverify))
      obtain ⟨hanswer, hsec⟩ := pldm_answers _ hexec
      exact ⟨hanswer, fun t ht => congrArg SecSt.pldm (hsec t ht), fun t ht => congrArg SecSt.passed (hsec t ht)⟩
    · exact pldm_step (fun x => { x with pldm := .ready }) ((exec_pldm h _).trans (congrArg _ (if_pos happly))) rfl
    · exact pldm_step (fun x => { x with pldm := .idle, passed := false }) ((exec_pldm h _).trans (congrArg _ (if_neg hnot))) rfl
  · exact congrArg Host.Outcome.next ((State.onI3c_of_managed haddr h _).trans (if_pos (by simpa using henrolled)))
  · exact congrArg Host.Outcome.next ((State.onHost_of_hosted h _).trans (if_pos hbusy))
  · exact congrArg Host.Outcome.next (if_pos (by simp [hload]))

end Sys2Proof.Machine

/-! O47: entries of the deeper power states (R360 to R363, R365). -/

namespace Sys2Proof.Machine

set_option Elab.async false

section

variable {s : State}

/-! ## Persisting and the host's side -/

theorem State.persistOne_msixOnly (i : Nat) (v : Word) : s.msixOnly (s.persistOne i v) := by
  have hevent (u : State) (k detail : Nat) : u.msixOnly ((u.event Reg.SBK_EVENT k).ledgerEvent 0x0A 0 i detail []) :=
    (u.event_msixOnly _ _).trans (State.ledgerEvent_msixOnly ..)
  unfold State.persistOne
  dsimp only
  obtain ⟨u, hu⟩ : ∃ u : State, u = { s with sbk := ⟨storeSet 0 s.sbk.vals i v, storeSet 0 s.sbk.wear i (s.wear i + 1), s.sbk.queue⟩ } :=
    ⟨_, rfl⟩
  have hcount : s.msixOnly u := by
    rw [hu]
    rfl
  rw [← hu]
  split
  · exact hcount.trans (hevent u 0 0)
  · split
    · exact (hcount.trans (hevent u 1 1)).trans (State.dropFrozen_evolves _ i).msixOnly
    · exact hcount

theorem State.persistAll_msixOnly (ws : List (Nat × Word)) : s.msixOnly (s.persistAll ws) := by
  induction ws generalizing s with
  | nil => exact s.msixOnly_refl
  | cons w ws ih => exact (State.persistOne_msixOnly w.1 w.2).trans ih

theorem State.seedPersist_msixOnly : s.msixOnly s.seedPersist := by
  have htake (q : List SeedEntry) : s.msixOnly { s with sbk := { s.sbk with queue := q } } := rfl
  unfold State.seedPersist
  split
  · exact s.msixOnly_refl
  case h_2 e q _ =>
    have hall := (htake q).trans (State.persistAll_msixOnly e.writes)
    dsimp only
    split
    · exact hall.trans (State.capPersisted_evolves _).msixOnly
    · exact hall

/-! ## Entries that begin -/

/-- R363: an entry begins. -/
theorem State.beginEntry_begins (hwf : storeWf 0 s.regs = true) (p : PState) :
    (s.beginEntry p).reg Reg.LDG_WAKE_CAUSE = 0 ∧ s.keeps (s.beginEntry p) ([.ldg, .sbk, .hlt, .pwr] ++ Part.signalled) ∧
      s.sameBytes (s.beginEntry p) ∧ s.msixOnly (s.beginEntry p) := by
  have hlaw := s.beginEntry_evolves p
  have hwide : Evolves ([.ldg, .sbk, .hlt, .pwr] ++ Part.signalled) s (s.beginEntry p) := hlaw.widen rfl
  refine ⟨?_, hwide.keep, hlaw.sameBytes, ?_⟩
  · refine Eq.trans (State.reg_setFld_ne _ Reg.LDG_STATE 3 3 _ _ (by decide)) ?_
    exact State.reg_setReg _ _ _ (s.seedPersist_evolves.regs hwf)
  · have hpersist := State.seedPersist_msixOnly (s := s)
    unfold State.beginEntry
    generalize s.seedPersist = u at *
    exact hpersist.trans rfl

/-- R362: what a request for a deeper state leaves that begins its entry. -/
theorem State.requestEntry_enters (hwf : storeWf 0 s.regs = true) {p : PState} (h : s.moving = false)
    (hdeep : s.ldg.ps.depth < p.depth) (hrefuse : s.entryRefusal p = none) : let t := s.requestEntry p
      t.ldg.entering = some p ∧ t.ldg.asked = true ∧ t.ldg.latched = false ∧ t.ldg.ps = s.ldg.ps ∧
      t.reg Reg.LDG_WAKE_CAUSE = 0 ∧ s.keeps t ([.ldg, .sbk, .hlt, .pwr] ++ Part.signalled) ∧ s.sameBytes t ∧ s.msixOnly t := by
  obtain ⟨hldg, -⟩ := State.requestEntry_begins h hdeep hrefuse
  obtain ⟨hcause, -, -, hmsix⟩ := s.beginEntry_begins hwf p
  have hlaw := s.requestEntry_evolves p
  have hwide : Evolves ([.ldg, .sbk, .hlt, .pwr] ++ Part.signalled) s (s.requestEntry p) := hlaw.widen rfl
  dsimp only
  rw [hldg]
  refine ⟨rfl, rfl, rfl, rfl, ?_, hwide.keep, hlaw.sameBytes, ?_⟩
  · rw [State.requestEntry_of_admitted h hdeep hrefuse]
    exact hcause
  · rw [State.requestEntry_of_admitted h hdeep hrefuse]
    generalize s.beginEntry p = u at *
    exact hmsix.trans rfl

/-- What refuses an entry is one of the codes of R362. -/
theorem State.entryRefusal_lt {p : PState} {code : Nat} (h : s.entryRefusal p = some code) : code < 6 := by
  unfold State.entryRefusal at h
  split_ifs at h
  all_goals
    obtain rfl := Option.some.inj h
    decide

theorem State.entryResult_shows (hwf : storeWf 0 s.regs = true) {code : Nat} (h : code < 8) :
    (s.entryResult code).fld Reg.LDG_PSTATE_CTRL 6 4 = code ∧
      Writes [.regs] [Reg.LDG_PSTATE_CTRL] s (s.entryResult code) :=
  ⟨State.fld_setFld _ _ hwf (by decide) (by simpa using h), s.setFld_writes _ _ _ _⟩

/-- R362: a request that is refused shows its code. -/
theorem State.requestEntry_refused (hwf : storeWf 0 s.regs = true) {p : PState} {code : Nat} (h : s.moving = false)
    (hdeep : s.ldg.ps.depth < p.depth) (hrefuse : s.entryRefusal p = some code) : let t := s.requestEntry p
      t.fld Reg.LDG_PSTATE_CTRL 6 4 = code ∧ t.bit Reg.LDG_EVENT 2 = true ∧
      Writes Part.signalled [Reg.LDG_PSTATE_CTRL, Reg.LDG_EVENT] s t := by
  have hcode := State.entryRefusal_lt hrefuse
  have hact : s.requestEntry p = (s.entryResult code).event Reg.LDG_EVENT 2 := by
    unfold State.requestEntry
    rw [if_neg (by simp [h]), if_neg (Nat.not_le_of_lt hdeep), hrefuse]
  obtain ⟨hfld, h1⟩ := State.entryResult_shows hwf (code := code) (by omega)
  rw [hact]
  generalize s.entryResult code = u at *
  have h2 := u.event_writes Reg.LDG_EVENT 2
  exact ⟨(h2.fld (by decide) 6 4).trans hfld, State.bit_event _ _ _ (h1.wf hwf) (by decide), h1.widen.step h2⟩

/-- A request for the state that the module is in is answered. -/
theorem State.requestEntry_present {p : PState} (h : s.moving = false) (hps : s.ldg.ps = p) :
    s.requestEntry p = s.entryResult 1 := by
  unfold State.requestEntry
  rw [if_neg (by simp [h]), if_pos (by rw [hps]), if_pos hps.symm]

/-- Requests of a deeper state. -/
theorem exec_entry {c : Instr} {p : PState} (hc : (c = .targetA1 ∧ p = .a1 ∧ s.hosted) ∨ (c = .targetA2 ∧ p = .a2 ∧ s.hosted) ∨
    (c = .mgmtEnterA2 ∧ p = .a2 ∧ s.managed) ∨ (c = .mgmtEnterA3 ∧ p = .a3 ∧ s.managed)) :
    exec c s = .next (s.requestEntry p) := by
  rcases hc with ⟨rfl, rfl, h⟩ | ⟨rfl, rfl, h⟩ | ⟨rfl, rfl, h⟩ | ⟨rfl, rfl, h⟩
  · exact congrArg Host.Outcome.next (State.onLodge_of_hosted h _)
  · exact congrArg Host.Outcome.next (State.onLodge_of_hosted h _)
  · exact exec_mgmtEnter h (Or.inl ⟨rfl, rfl⟩)
  · exact exec_mgmtEnter h (Or.inr ⟨rfl, rfl⟩)

/-! ## D3hot (R362, R364) -/

/-- D3hot is noted. -/
def State.d3hotNoted (s : State) : State := { s with host := { s.host with d3hot := true } }

/-- D3hot waits, or not. -/
def State.d3wait (s : State) (b : Bool) : State := { s with host := { s.host with d3wait := b } }

theorem State.d3wait_writes (b : Bool) : Writes [.host] [] s (s.d3wait b) := (s.evolves_host _).writes

theorem State.d3hotNoted_writes : Writes [.host] [] s s.d3hotNoted := (s.evolves_host _).writes

theorem State.d3hotNoted_entry (p : PState) : s.d3hotNoted.entryRefusal p = s.entryRefusal p ∧ s.d3hotNoted.moving = s.moving ∧
    s.d3hotNoted.ldg = s.ldg := ⟨State.entryRefusal_congr rfl rfl rfl (fun _ _ => rfl) p, rfl, rfl⟩

theorem exec_d3hotWrite (hon : s.configOn = true) : exec .d3hotWrite s = .next ((s.d3hotNoted.requestEntry .a2).d3wait
    (!s.d3hotNoted.moving && (s.d3hotNoted.entryRefusal .a2).isSome)) := congrArg Host.Outcome.next (if_pos hon)

/-- R362, R364: D3hot requests A2. -/
theorem d3hotWrite_enters (hwf : storeWf 0 s.regs = true) (hon : s.configOn = true) (hmove : s.moving = false)
    (hps : s.ldg.ps = .a0) (hfree : s.entryRefusal .a2 = none) : ∃ t, exec .d3hotWrite s = .next t ∧
      t.host.d3hot = true ∧ t.host.d3wait = false ∧ t.ldg.entering = some .a2 ∧ s.sameBytes t := by
  obtain ⟨hrefusal, hmoving, hldg⟩ := s.d3hotNoted_entry .a2
  have h1 := s.d3hotNoted_writes
  have hnoted : s.d3hotNoted.host.d3hot = true := rfl
  have hsame1 : s.sameBytes s.d3hotNoted := h1.evolves.sameBytes
  refine ⟨_, exec_d3hotWrite hon, ?_⟩
  rw [hrefusal, hfree, Option.isSome_none, Bool.and_false]
  generalize s.d3hotNoted = u at *
  obtain ⟨hent, -, -, -, -, -, hsame2, hmsix⟩ := State.requestEntry_enters (h1.wf hwf) (p := .a2) (hmoving.trans hmove)
    (by rw [hldg, hps]; decide) (hrefusal.trans hfree)
  generalize u.requestEntry .a2 = v at *
  refine ⟨?_, rfl, hent, fun a => (hsame2 a).trans (hsame1 a)⟩
  change v.host.d3hot = true
  rw [hmsix]
  exact hnoted

/-- R364: a request that is refused waits. -/
theorem d3hotWrite_waits (hwf : storeWf 0 s.regs = true) {code : Nat} (hon : s.configOn = true) (hmove : s.moving = false)
    (hps : s.ldg.ps = .a0) (hrefuse : s.entryRefusal .a2 = some code) : ∃ t, exec .d3hotWrite s = .next t ∧
      t.host.d3hot = true ∧ t.host.d3wait = true ∧ t.ldg = s.ldg ∧ t.fld Reg.LDG_PSTATE_CTRL 6 4 = code ∧
      t.bit Reg.LDG_EVENT 2 = true := by
  obtain ⟨hrefusal, hmoving, hldg⟩ := s.d3hotNoted_entry .a2
  have h1 := s.d3hotNoted_writes
  have hnoted : s.d3hotNoted.host.d3hot = true := rfl
  refine ⟨_, exec_d3hotWrite hon, ?_⟩
  rw [hrefusal, hrefuse, hmoving, hmove]
  generalize s.d3hotNoted = u at *
  have hact : u.requestEntry .a2 = (u.entryResult code).event Reg.LDG_EVENT 2 := by
    unfold State.requestEntry
    rw [if_neg (by simp [hmoving, hmove]), if_neg (by rw [hldg, hps]; decide), hrefusal, hrefuse]
  obtain ⟨hfld, hbit, h2⟩ := State.requestEntry_refused (h1.wf hwf) (p := .a2) (hmoving.trans hmove)
    (by rw [hldg, hps]; decide) (hrefusal.trans hrefuse)
  have hmsix : u.msixOnly (u.requestEntry .a2) := by
    rw [hact]
    exact Eq.trans ((u.entryResult code).event_msixOnly Reg.LDG_EVENT 2) rfl
  generalize u.requestEntry .a2 = v at *
  have h3 := v.d3wait_writes true
  refine ⟨?_, rfl, ?_, ?_, ?_⟩
  · change v.host.d3hot = true
    rw [hmsix]
    exact hnoted
  · exact Eq.trans (h2.evolves.keep .ldg (by decide)) hldg
  · exact (h3.fld (by simp) 6 4).trans hfld
  · exact (h3.bit (by simp) 2).trans hbit

theorem d3hotDeferredEntry_enters (hwf : storeWf 0 s.regs = true) (hhot : s.host.d3hot = true) (hwait : s.host.d3wait = true)
    (hmove : s.moving = false) (hfree : s.entryRefusal .a2 = none) : ∃ t, exec .d3hotDeferredEntry s = .next t ∧
      t.ldg.entering = some .a2 ∧ t.host.d3wait = false := by
  have hexec : exec .d3hotDeferredEntry s = .next ((s.d3wait false).beginEntry .a2) :=
    congrArg Host.Outcome.next (if_pos (by simp [hhot, hwait, hmove, hfree]))
  have hnot : (s.d3wait false).host.d3wait = false := rfl
  have h1 := s.d3wait_writes false
  refine ⟨_, hexec, ?_⟩
  generalize s.d3wait false = u at *
  obtain ⟨-, -, -, hmsix⟩ := u.beginEntry_begins (h1.wf hwf) .a2
  rw [u.beginEntry_ldg, hmsix]
  exact ⟨rfl, hnot⟩

/-- D0 is written. -/
def State.d0Noted (s : State) : State := { s with host := { s.host with d3hot := false, d3wait := false } }

theorem State.d0Noted_writes : Writes [.host] [] s s.d0Noted := (s.evolves_host _).writes

theorem exec_d0Write (hon : s.configOn = true) : exec .d0Write s = .next (if s.d0Noted.asleep then s.d0Noted.wakeEvent 4 none
    else if s.d0Noted.inA1 then s.d0Noted.leaveA1 else s.d0Noted) := congrArg Host.Outcome.next (if_pos hon)

/-- R362: D0 wakes a module in A2. -/
theorem d0Write_wakes (hwf : storeWf 0 s.regs = true) (hon : s.configOn = true) (hps : s.ldg.ps = .a2)
    (hent : s.ldg.entering = none) (hwaking : s.ldg.waking = 0) (htrip : s.tripped = false) : ∃ t, exec .d0Write s = .next t ∧
      t.host.d3hot = false ∧ t.ldg.waking = 1 ∧ t.bit Reg.LDG_WAKE_CAUSE 4 = true ∧
      s.touches t [.regs, .ldg, .host] [Reg.LDG_WAKE_CAUSE] := by
  have hasleep : s.d0Noted.asleep = true := by
    change (decide (s.ldg.ps = .a2 ∨ s.ldg.ps = .a3) || s.goingDown || decide (s.ldg.waking ≠ 0)) = true
    rw [hps]
    rfl
  have h1 := s.d0Noted_writes
  have hhot : s.d0Noted.host.d3hot = false := rfl
  have hldg : s.d0Noted.ldg = s.ldg := rfl
  refine ⟨_, (exec_d0Write hon).trans (congrArg _ (if_pos hasleep)), ?_⟩
  generalize s.d0Noted = u at *
  obtain ⟨hwake, hcause, -, h2⟩ := State.wakeEvent_of_a2 (s := u) (n := 4) none (h1.wf hwf) ((h1.bit (by simp) 4).trans htrip)
    (by rw [hldg, hent]) (by rw [hldg, hwaking]) (by rw [hldg, hps]) (by decide)
  have hhost : (u.wakeEvent 4 none).host = u.host := h2.evolves.keep .host (by decide)
  refine ⟨by rw [hhost, hhot], hwake, hcause, ?_⟩
  exact ((h1.widen (Q := [.regs, .ldg, .host]) (M := [Reg.LDG_WAKE_CAUSE])).step h2).touches

/-- What requests of power states do (R360 to R365). -/
theorem entries_begin (hwf : storeWf 0 s.regs = true) :
     (∀ c p, (c = .targetA1 ∧ p = .a1 ∧ s.hosted) ∨ (c = .targetA2 ∧ p = .a2 ∧ s.hosted) ∨
         (c = .mgmtEnterA2 ∧ p = .a2 ∧ s.managed) ∨ (c = .mgmtEnterA3 ∧ p = .a3 ∧ s.managed) → s.moving = false →
       (s.ldg.ps.depth < p.depth → s.entryRefusal p = none → ∃ t, exec c s = .next t ∧ t.ldg.entering = some p ∧
         t.ldg.asked = true ∧ t.ldg.latched = false ∧ t.ldg.ps = s.ldg.ps ∧ t.reg Reg.LDG_WAKE_CAUSE = 0 ∧
         s.keeps t ([.ldg, .sbk, .hlt, .pwr] ++ Part.signalled) ∧ s.sameBytes t) ∧
       (∀ code, s.ldg.ps.depth < p.depth → s.entryRefusal p = some code → ∃ t, exec c s = .next t ∧
         t.fld Reg.LDG_PSTATE_CTRL 6 4 = code ∧ t.bit Reg.LDG_EVENT 2 = true ∧
         s.touches t Part.signalled [Reg.LDG_PSTATE_CTRL, Reg.LDG_EVENT]) ∧
       (s.ldg.ps = p → ∃ t, exec c s = .next t ∧ t.fld Reg.LDG_PSTATE_CTRL 6 4 = 1 ∧
         s.touches t [.regs] [Reg.LDG_PSTATE_CTRL])) ∧
     (∀ c p, (c = .mgmtEnterA2 ∧ p = .a2) ∨ (c = .mgmtEnterA3 ∧ p = .a3) → s.managed → s.moving = true →
       ∃ t, exec c s = .next t ∧ t.ldg = { s.ldg with held := some p } ∧ t.fld Reg.LDG_PSTATE_CTRL 6 4 = 6 ∧
         s.touches t [.regs, .ldg] [Reg.LDG_PSTATE_CTRL]) ∧
     (s.hosted → ∃ t, exec .targetA0 s = .next t ∧ t.fld Reg.LDG_PSTATE_CTRL 6 4 = 1 ∧
       s.touches t [.regs] [Reg.LDG_PSTATE_CTRL]) ∧
     (s.boot.powered = true → 2 ≤ s.boot.domains → s.ldg.ps = .a0 → s.moving = false → s.fld Reg.LDG_CFG 15 0 ≠ 0 →
       s.entryRefusal .a1 = none → ∃ t, exec .a1AutoEntry s = .next t ∧ t.ldg.entering = some .a1 ∧
         s.keeps t ([.ldg, .sbk, .hlt, .pwr] ++ Part.signalled) ∧ s.sameBytes t) ∧
     (s.linkUp = true → s.inA1 = true → s.ldg.held = none → exec .a1ReturnRequest s =
       .next { s with ldg := { s.ldg with ps := .a0, entering := none } }) ∧
     (s.configOn = true → s.asleep = false → s.inA1 = false → ∃ t, exec .d0Write s = .next t ∧ t.host.d3hot = false ∧
       t.host.d3wait = false ∧ s.touches t [.host] []) := by
  refine ⟨fun c p hc hmove => ⟨fun hdeep hfree => ?_, fun code hdeep hrefuse => ?_, fun hps => ?_⟩, fun c p hc h hmove => ?_,
    fun h => ?_, fun hpow hdom hps hmove hdelay hfree => ?_, fun hup hA1 hheld => ?_, fun hon hasleep hA1 => ?_⟩
  · obtain ⟨hent, hasked, hlatched, hstay, hcause, hkeep, hsame, -⟩ := State.requestEntry_enters hwf hmove hdeep hfree
    exact ⟨_, exec_entry hc, hent, hasked, hlatched, hstay, hcause, hkeep, hsame⟩
  · obtain ⟨hfld, hbit, hlaw⟩ := State.requestEntry_refused hwf hmove hdeep hrefuse
    exact ⟨_, exec_entry hc, hfld, hbit, hlaw.touches⟩
  · obtain ⟨hfld, hlaw⟩ := State.entryResult_shows hwf (code := 1) (by decide)
    exact ⟨_, (exec_entry hc).trans (congrArg _ (State.requestEntry_present hmove hps)), hfld, hlaw.touches⟩
  · obtain ⟨u, hu⟩ : ∃ u : State, u = s.mapLdg fun l => { l with held := some p } := ⟨_, rfl⟩
    have hldg : u.ldg = { s.ldg with held := some p } := by rw [hu]; rfl
    have h1 : Writes [.ldg] [] s u := by rw [hu]; exact (s.mapLdg_evolves _).writes
    obtain ⟨hfld, h2⟩ := State.entryResult_shows (s := u) (h1.wf hwf) (code := 6) (by decide)
    refine ⟨u.entryResult 6, ?_, Eq.trans (h2.evolves.keep .ldg (by decide)) hldg, hfld,
      ((h1.widen (Q := [.regs, .ldg]) (M := [Reg.LDG_PSTATE_CTRL])).step h2).touches⟩
    rw [exec_mgmtEnter h hc, State.requestEntry_of_moving hmove, hu]
  · obtain ⟨hfld, hlaw⟩ := State.entryResult_shows hwf (code := 1) (by decide)
    exact ⟨_, congrArg Host.Outcome.next ((State.onLodge_of_hosted h _).trans (if_neg (by simp [State.asleep_of_hosted h]))),
      hfld, hlaw.touches⟩
  · obtain ⟨-, hkeep, hsame, -⟩ := s.beginEntry_begins hwf .a1
    refine ⟨_, congrArg Host.Outcome.next (if_pos (by simp [hpow, hdom, hps, hmove, hdelay, State.quiet, hfree])), ?_, hkeep, hsame⟩
    rw [s.beginEntry_ldg]
  · refine congrArg Host.Outcome.next ((if_pos (by simp [hup, hA1])).trans ?_)
    unfold State.leaveA1 State.actHeld
    have hnone : (s.mapLdg fun l => { l with ps := .a0, entering := none }).ldg.held = none := hheld
    rw [hnone] <;> rfl
  · have hawake : s.d0Noted.asleep = false := hasleep
    have hout : s.d0Noted.inA1 = false := hA1
    exact ⟨_, (exec_d0Write hon).trans (congrArg _ ((if_neg (by simp [hawake])).trans (if_neg (by simp [hout])))), rfl, rfl,
      s.d0Noted_writes.touches⟩

/-! ## Entries that end -/

theorem storeGet_append_left {α : Type} (d : α) {m' : List (Nat × α)} {k : Nat} (h : k ∉ m'.map Prod.fst) (m : List (Nat × α)) :
    storeGet d (m ++ m') k = storeGet d m k := by
  induction m with
  | nil =>
    induction m' with
    | nil => rfl
    | cons e m' ih =>
      rw [List.map_cons, List.mem_cons, not_or] at h
      exact (if_neg h.1).trans (ih h.2)
  | cons e m ih =>
    rw [List.cons_append, storeGet, storeGet, ih]

/-- R360: what a loss does not keep reads its reset value. -/
theorem State.reg_lose_reset {o : Nat} (h : keptReg o = false) (hfail : ∀ k, k < 16 → o ≠ Reg.ME_FAIL + 4 * k) :
    s.lose.reg o = State.reset.reg o := by
  have hnot : o ∉ (s.regs.filter fun e => keptReg e.1).map Prod.fst := by
    intro hmem
    obtain ⟨e, he, rfl⟩ := List.mem_map.mp hmem
    exact Bool.noConfusion (h.symm.trans (List.mem_filter.mp he).2)
  rw [State.reg, s.lose_regs, s.storeGet_lostRegs _ hfail, storeGet_append_left 0 hnot]
  rfl

theorem State.reg_lose_fail (hwf : storeWf 0 s.regs = true) {k : Nat} (hk : k < 16) :
    s.lose.reg (Reg.ME_FAIL + 4 * k) = s.reg (Reg.ME_FAIL + 4 * k) := by
  rw [State.reg, s.lose_regs]
  exact s.storeGet_lostRegs_fail _ (s.lose_regs_wf hwf) hk

/-- Registers that are carried over read as they did. -/
theorem State.reg_keepRegs (old : State) (o : Nat) (l : List Nat) (hwf : storeWf 0 s.regs = true) :
    (s.keepRegs old l).reg o = if o ∈ l then old.reg o else s.reg o := by
  induction l generalizing s with
  | nil => simp [State.keepRegs]
  | cons k rest ih =>
    rw [State.keepRegs, ih ((s.setReg_writes k _).wf hwf)]
    by_cases hrest : o ∈ rest
    · simp [hrest]
    · by_cases hk : o = k
      · subst hk
        rw [if_neg hrest, if_pos (List.mem_cons_self ..)]
        exact State.reg_setReg _ _ _ hwf
      · rw [if_neg hrest, if_neg (by simp [hk, hrest])]
        exact State.reg_setReg_ne _ _ _ _ hk

/-- What a loss leaves. -/
theorem State.lose_parts (s : State) : s.lose.mem = [] ∧ s.lose.image = {} ∧ s.lose.upd = {} ∧ s.lose.adm = {} ∧
    s.lose.tick = {} ∧ s.lose.stl = {} ∧ s.lose.sbk = s.sbk ∧ s.lose.hlt.bytes = s.hlt.bytes ∧ s.lose.hlt.tail = s.hlt.tail ∧
    s.lose.boot.cached = s.boot.cached ∧ s.lose.out = s.out := by
  unfold State.lose
  dsimp only
  exact ⟨rfl, rfl, rfl, rfl, rfl, rfl, rfl, rfl, rfl, rfl, rfl⟩

/-- An entry that nobody asked for, nothing interrupted and no request follows. -/
theorem State.afterEntry_quiet (hasked : s.ldg.asked = false) (hlatched : s.ldg.latched = false) (hheld : s.ldg.held = none) :
    s.afterEntry = s := by
  rw [State.afterEntry_of_unasked hasked hlatched, State.actHeld, hheld] <;> rfl

/-- R291: a port listens as PYU_WAKE sets, and a failed one stays. -/
theorem State.port_listen (p : Fin 16) :
    ((s.port p).st ≠ portFailed → (s.bit Reg.PYU_WAKE p = true ∨ s.bit Reg.PYU_WAKE (16 + p) = true) →
      (s.listen.port p).st = portListen) ∧ ((s.port p).st = portFailed → s.listen.port p = s.port p) := by
  obtain ⟨u, hlaw, hport, heq⟩ := (State.port_eachPort (P := [.pyu]) (p := p) (f := State.listenPort)
    (fun s q => s.listenPort_evolves q)
    (fun s q p h => by
      unfold State.listenPort
      split <;> [rfl; exact s.port_setPort_ne q _ h]) s (List.nodup_range (n := 16))).2 (List.mem_range.mpr p.isLt)
  have hregs : u.regs = s.regs := hlaw.keep .regs (by decide)
  have hbit (i : Nat) : u.bit Reg.PYU_WAKE i = s.bit Reg.PYU_WAKE i := State.bit_of_regs _ _ _ _ hregs
  rw [State.listen, heq]
  unfold State.listenPort
  rw [hport, hbit, hbit]
  refine ⟨fun hok hwake => ?_, fun hfailed => ?_⟩
  · have hlisten : (s.bit Reg.PYU_WAKE p || s.bit Reg.PYU_WAKE (16 + p)) = true := by simpa using hwake
    rw [if_neg hok, if_pos hlisten, State.port_setPort_new _ _ fun h => absurd (congrArg Port.st h)
      (by decide : portListen ≠ portOff)]
  · rw [if_pos hfailed, hport]

/-- R360: what the module that reaches A3 keeps, and what it loses. -/
theorem State.toA3_keeps (hwf : storeWf 0 s.regs = true) : let t := s.toA3
    (∀ k, t.byteAt k = 0) ∧ t.image = {} ∧ t.upd = {} ∧ t.adm = {} ∧ t.tick = {} ∧ t.stl = {} ∧
      (∀ o, keptReg o = true → t.reg o = s.reg o) ∧
      (∀ o, keptReg o = false → o ≠ Reg.PYU_WAKE → o ≠ Reg.MEM_TEMP0 → o ≠ Reg.MEM_TEMP1 →
        (∀ k, k < 16 → o ≠ Reg.ME_FAIL + 4 * k) → t.reg o = State.reset.reg o) ∧
      (∀ k, k < 16 → t.reg (Reg.ME_FAIL + 4 * k) = s.reg (Reg.ME_FAIL + 4 * k)) ∧
      t.reg Reg.PYU_WAKE = s.reg Reg.PYU_WAKE ∧ t.reg Reg.MEM_TEMP0 = s.reg Reg.MEM_TEMP0 ∧
      t.reg Reg.MEM_TEMP1 = s.reg Reg.MEM_TEMP1 ∧ t.sbk = s.sbk ∧ t.hlt.bytes = s.hlt.bytes ∧ t.hlt.tail = s.hlt.tail ∧
      t.boot.cached = s.boot.cached ∧ t.out = s.out := by
  obtain ⟨hmem, himage, hupd, hadm, htick, hstl, hsbk, hbytes, htail, hcached, hout⟩ := s.lose_parts
  have hlosewf : storeWf 0 s.lose.regs = true := s.lose_evolves.regs hwf
  have hkept {o : Nat} (h : keptReg o = true) := s.reg_lose h
  have hreset {o : Nat} (h : keptReg o = false) (hfail : ∀ k, k < 16 → o ≠ Reg.ME_FAIL + 4 * k) := s.reg_lose_reset h hfail
  have hfail {k : Nat} (hk : k < 16) := s.reg_lose_fail hwf hk
  have hlist : ∀ o ∈ [Reg.PYU_WAKE, Reg.MEM_TEMP0, Reg.MEM_TEMP1], keptReg o = false ∧ ∀ k < 16, o ≠ Reg.ME_FAIL + 4 * k := by
    decide
  unfold State.toA3
  generalize s.lose = u at *
  have hregs (o : Nat) := u.reg_keepRegs s o [Reg.PYU_WAKE, Reg.MEM_TEMP0, Reg.MEM_TEMP1] hlosewf
  have hall : Evolves [.regs, .pyu, .ldg] u ((u.keepRegs s [Reg.PYU_WAKE, Reg.MEM_TEMP0, Reg.MEM_TEMP1]).listen.mapLdg fun l =>
      { l with ps := .a3, entering := none, waking := 0 }) :=
    (((u.keepRegs_evolves s [Reg.PYU_WAKE, Reg.MEM_TEMP0, Reg.MEM_TEMP1]).widen rfl).step (State.listen_evolves _) rfl).step
      (State.mapLdg_evolves _ _) rfl
  have hlisten : Evolves [.pyu, .ldg] (u.keepRegs s [Reg.PYU_WAKE, Reg.MEM_TEMP0, Reg.MEM_TEMP1])
      ((u.keepRegs s [Reg.PYU_WAKE, Reg.MEM_TEMP0, Reg.MEM_TEMP1]).listen.mapLdg fun l =>
        { l with ps := .a3, entering := none, waking := 0 }) :=
    ((State.listen_evolves _).widen rfl).step (State.mapLdg_evolves _ _) rfl
  generalize ((u.keepRegs s [Reg.PYU_WAKE, Reg.MEM_TEMP0, Reg.MEM_TEMP1]).listen.mapLdg fun l =>
      { l with ps := .a3, entering := none, waking := 0 }) = t at *
  have hreg (o : Nat) : t.reg o = if o ∈ [Reg.PYU_WAKE, Reg.MEM_TEMP0, Reg.MEM_TEMP1] then s.reg o else u.reg o := by
    have hsame : t.regs = (u.keepRegs s [Reg.PYU_WAKE, Reg.MEM_TEMP0, Reg.MEM_TEMP1]).regs := hlisten.keep .regs (by decide)
    rw [← hregs o, State.reg, State.reg, hsame]
  have hout' : t.out = u.out := hall.keep .out (by decide)
  have hmem' : t.mem = u.mem := hall.keep .mem (by decide)
  have hhlt : t.hlt = u.hlt := hall.keep .hlt (by decide)
  have hboot : t.boot = u.boot := hall.keep .boot (by decide)
  refine ⟨fun k => ?_, Eq.trans (hall.keep .image (by decide)) himage, Eq.trans (hall.keep .upd (by decide)) hupd,
    Eq.trans (hall.keep .adm (by decide)) hadm, Eq.trans (hall.keep .tick (by decide)) htick,
    Eq.trans (hall.keep .stl (by decide)) hstl, fun o ho => ?_, fun o ho h1 h2 h3 hnot => ?_, fun k hk => ?_,
    (hreg _).trans (if_pos (by decide)), (hreg _).trans (if_pos (by decide)), (hreg _).trans (if_pos (by decide)),
    Eq.trans (hall.keep .sbk (by decide)) hsbk, by rw [hhlt, hbytes], by rw [hhlt, htail], by rw [hboot, hcached],
    hout'.trans hout⟩
  · rw [State.byteAt, hmem', hmem]
    rfl
  · rw [hreg, if_neg fun hin => Bool.noConfusion ((hlist o hin).1.symm.trans ho), hkept ho]
  · rw [hreg, if_neg (by simp [h1, h2, h3]), hreset ho hnot]
  · rw [hreg, if_neg fun hin => (hlist _ hin).2 k hk rfl, hfail hk]

/-- R360, R363: the ends of an entry that no event and no request follow. -/
theorem entries_end (hwf : storeWf 0 s.regs = true) (hasked : s.ldg.asked = false) (hlatched : s.ldg.latched = false)
    (hheld : s.ldg.held = none) :
     (s.ldg.entering = some .a1 → exec .entryDone s =
       .next { s with ldg := { s.ldg with ps := .a1, entering := none } }) ∧
     (s.ldg.entering = some .a2 → ∃ t, exec .entryDone s = .next t ∧
       t.ldg = { s.ldg with ps := .a2, entering := none } ∧
       (∀ p : Fin 16, (s.port p).st ≠ portFailed → (s.bit Reg.PYU_WAKE p = true ∨ s.bit Reg.PYU_WAKE (16 + p) = true) →
         (t.port p).st = portListen) ∧
       (∀ p : Fin 16, (s.port p).st = portFailed → t.port p = s.port p) ∧ s.touches t [.ldg, .pyu] []) := by
  refine ⟨fun hent => ?_, fun hent => ?_⟩
  · refine (exec_entryDone hent).trans (congrArg Host.Outcome.next (State.afterEntry_quiet ?_ ?_ ?_)) <;> assumption
  · have hldg := s.reachState_a2_ldg
    have hquiet : (s.reachState .a2).afterEntry = s.reachState .a2 :=
      State.afterEntry_quiet (by rw [hldg, hasked]) (by rw [hldg, hlatched]) (by rw [hldg, hheld])
    have hlaw : Writes [.ldg, .pyu] [] s (s.reachState .a2) := by
      rw [s.reachState_a2]
      exact (s.listen_evolves.writes.widen (Q := [.ldg, .pyu]) (M := [])).step (State.mapLdg_evolves _ _).writes
    have hport (p : Fin 16) : (s.reachState .a2).port p = s.listen.port p := by
      have hpyu : (s.reachState .a2).pyu = s.listen.pyu := by
        rw [s.reachState_a2]
        exact (State.mapLdg_evolves _ _).keep .pyu (by decide)
      rw [State.port, State.port, hpyu]
    refine ⟨s.reachState .a2, (exec_entryDone hent).trans (congrArg _ hquiet), hldg, fun p hok hwake => ?_, fun p hfailed => ?_,
      hlaw.touches⟩
    · rw [hport p]
      exact (s.port_listen p).1 hok hwake
    · rw [hport p]
      exact (s.port_listen p).2 hfailed

end

/-- Settles O47: a request begins its entry, is refused or waits; the ends of an entry keep what R360 names. -/
theorem entriesBeginAndEnd : Obligations.EntriesBeginAndEnd := by
  unfold Obligations.EntriesBeginAndEnd
  refine ⟨fun s hinv => ?_, fun s hinv hasked hlatched hheld => ?_⟩
  · have hwf : storeWf 0 s.regs = true := hinv.2
    obtain ⟨hrequest, hheld, ha0, hauto, hreturn, hd0⟩ := entries_begin hwf
    exact ⟨hrequest, hheld, ha0, hauto, hreturn, d3hotWrite_enters hwf, fun code => d3hotWrite_waits hwf,
      d3hotDeferredEntry_enters hwf, hd0, d0Write_wakes hwf⟩
  · obtain ⟨ha1, ha2⟩ := entries_end hinv.2 hasked hlatched hheld
    refine ⟨ha1, ha2, fun hent => ?_⟩
    have hldg := s.reachState_a3_ldg
    have hquiet : (s.reachState .a3).afterEntry = s.reachState .a3 :=
      State.afterEntry_quiet (by rw [hldg, hasked]) (by rw [hldg, hlatched]) (by rw [hldg, hheld])
    exact ⟨_, (exec_entryDone hent).trans (congrArg _ hquiet), by rw [hldg], by rw [hldg], State.toA3_keeps hinv.2⟩

end Sys2Proof.Machine

/-! O48: wakes (R365 to R370). The obligation says of the end of a wake that every FAILED port is FAILED after it. With an image
held, a port that its TOPO does not name is powered down instead, FAILED or not (R275). -/

namespace Sys2Proof.Machine

set_option Elab.async false

/-- Sections of an image whose TOPO names no port. -/
def portlessSections : Sections where
  topo := ⟨[], none, [], none, [], [], [], 0, 0⟩
  pipelines := []
  routes := []
  weights := []
  tensors := []
  classes := []
  rotate := []
  thresh := []
  cleanSteps := []
  plot := ⟨[], 0, 0, 0, 0, 0⟩
  stiles := []
  commits := []
  layouts := []
  primary := []
  layerGroups := []
  primaryMask := 0
  converts := []
  variants := []
  resole := 0
  maint := 0
  memory := 0
  floor := 0
  emptyEstimate := 0
  seeds := []
  update := ⟨0, 0, 0, 0, 0, [], []⟩
  streams := []
  usesExchange := false
  malformed := []

/-- A module in A2, on the last step of its wake, that holds an image whose TOPO names no port, with port 0 FAILED. -/
def wakingPortless : State :=
  { State.reset with
    image := { st := .loaded, file := some ⟨[], portlessSections⟩ }
    ldg := { ps := .a2, waking := 4 }
    pyu := { ports := [(0, { st := portFailed })] } }

theorem wakingPortless_inv : wakingPortless.inv := ⟨by decide, resetRegs_wf⟩

theorem exec_wakingPortless : exec (.wakeDomainReady []) wakingPortless = .next wakingPortless.wakeDone :=
  exec_wakeDomainReady_last rfl rfl []

/-- R275: the wake powers port 0 down. -/
theorem wakingPortless_port : (wakingPortless.wakeDone.port 0).st = portOff := by decide

/-- Refutes O48: a port that is FAILED, and that the held image's TOPO does not name, is powered down as a wake from A2 ends. -/
theorem not_wakesRun : ¬ Obligations.WakesRun := by
  intro h
  obtain ⟨-, -, -, -, -, hlast, -⟩ := h wakingPortless wakingPortless_inv
  obtain ⟨t, hexec, -, -, -, -, hports, -⟩ := hlast [] rfl rfl rfl
  obtain rfl := Host.Outcome.next.inj (exec_wakingPortless.symm.trans hexec)
  have hfailed := hports 0 rfl
  exact absurd (wakingPortless_port.symm.trans hfailed) (by decide)

end Sys2Proof.Machine

/-! O49: the sensors' samples, the loss of the input, and the Lodge's answers (R373 to R380, R394, R401, R403). -/

namespace Sys2Proof.Machine

set_option Elab.async false

section

variable {s : State}

/-! ## The powered time -/

theorem State.powered_ledgerWrite (s : State) (ty cls len : Nat) (body : List Byte) :
    (s.ledgerWrite ty cls len body).hlt.powered = s.hlt.powered := by
  have hevent (u : State) (c : Prop) [Decidable c] (k : Nat) :
      (if c then u.event Reg.HLT_EVENT k else u).hlt.powered = u.hlt.powered := by
    split
    · exact congrArg Ledger.powered ((u.event_evolves Reg.HLT_EVENT k).keep .hlt (by decide))
    · rfl
  unfold State.ledgerWrite
  dsimp only
  rw [hevent, hevent, hevent]

theorem State.powered_ledgerAppend (s : State) (ty cls len : Nat) (body : List Byte) :
    (s.ledgerAppend ty cls len body).hlt.powered = s.hlt.powered := by
  unfold State.ledgerAppend
  split
  · rfl
  · split
    · rfl
    · exact s.powered_ledgerWrite ty cls len body

theorem State.powered_appendSummary (s : State) : s.appendSummary.hlt.powered = s.hlt.powered := by
  have happend := s.powered_ledgerAppend 0x01 2 4096 s.summaryBody
  unfold State.appendSummary
  generalize s.ledgerAppend 0x01 2 4096 s.summaryBody = u at *
  dsimp only
  split
  · exact happend
  · exact happend

theorem State.powered_junctionStats (s : State) (core : Nat) (l : List Nat) :
    (s.junctionStats core l).hlt.powered = s.hlt.powered := by
  induction l generalizing s core with
  | nil => rfl
  | cons t ts ih => exact (ih _ _).trans rfl

theorem State.powered_stackStats (s : State) (k : Nat) (l : List Nat) : (s.stackStats k l).hlt.powered = s.hlt.powered := by
  induction l generalizing s k with
  | nil => rfl
  | cons t ts ih => exact (ih _ _).trans rfl

theorem State.powered_stageStats (s : State) (k : Nat) (l : List Nat) : (s.stageStats k l).hlt.powered = s.hlt.powered := by
  induction l generalizing s k with
  | nil => rfl
  | cons t ts ih => exact (ih _ _).trans rfl

theorem State.powered_sampleStats (s : State) (x : Samples) : (s.sampleStats x).hlt.powered = s.hlt.powered := by
  unfold State.sampleStats
  dsimp only
  rw [State.powered_stageStats, State.powered_stackStats, State.powered_junctionStats]
  split <;> split <;> rfl

theorem State.powered_closing (s : State) (x : Samples) : (s.closing x).hlt.powered = s.hlt.powered := by
  have happend := s.powered_appendSummary
  unfold State.closing
  generalize s.appendSummary = u at *
  split
  · split
    · rfl
    · exact happend
  · rfl

theorem State.appendSummary_writes (s : State) : Writes (.hlt :: Part.signalled) Reg.ledger s s.appendSummary := by
  refine ⟨s.appendSummary_evolves.widen rfl, ?_⟩
  have happend := s.ledgerAppend_writes 0x01 2 4096 s.summaryBody
  unfold State.appendSummary
  generalize s.ledgerAppend 0x01 2 4096 s.summaryBody = u at *
  dsimp only
  split
  · exact happend.regs
  · exact fun o ho => happend.regs o ho

theorem State.closing_writes (s : State) (x : Samples) : Writes (.hlt :: Part.signalled) Reg.ledger s (s.closing x) := by
  refine ⟨(s.closing_evolves x).widen rfl, ?_⟩
  have happend := s.appendSummary_writes.regs
  unfold State.closing
  generalize s.appendSummary = u at *
  split
  · split
    · exact s.sameRegs_refl _
    · exact fun o ho => happend o ho
  · exact fun o ho => rfl

/-! ## The comparison with the limits (R373, R374) -/

/-- What the counts of a sample leave in the Lodge. -/
def State.counted (s : State) (x : Samples) (l : LodgeSt) : LodgeSt :=
  let counts := (List.range 170).map fun i => (i, s.beyondCount x i)
  { l with
    beyond := counts.filter fun c => c.2 ≠ 0
    clear := if counts.all fun c => c.2 = 0 then s.ldg.clear + 1 else 0
    samples := (l.samples ++ [x]).drop (l.samples.length - 1) }

/-- The first sensor whose limit was crossed. -/
def State.crossed (s : State) (x : Samples) : Option Nat := (List.range 170).find? fun i => s.beyondCount x i = crossAfter i

theorem State.crossed_of_first {x : Samples} {i : Nat} (hi : i < 170) (hcross : s.beyondCount x i = crossAfter i)
    (hfirst : ∀ j, j < i → s.beyondCount x j ≠ crossAfter j) : s.crossed x = some i := by
  rw [State.crossed, List.find?_range_eq_some]
  exact ⟨by simpa using hcross, List.mem_range.mpr hi, fun j hj => by simpa using hfirst j hj⟩

theorem State.crossed_lt {x : Samples} {i : Nat} (h : s.crossed x = some i) : i < 170 :=
  List.mem_range.mp (List.mem_of_find?_eq_some h)

theorem State.crossed_of_none {x : Samples} (hnone : ∀ i, i < 170 → s.beyondCount x i ≠ crossAfter i) : s.crossed x = none := by
  rw [State.crossed, List.find?_eq_none]
  exact fun i hi => by simpa using hnone i (List.mem_range.mp hi)

theorem State.crossed_congr {t : State} (hldg : t.ldg = s.ldg) (x : Samples) : t.crossed x = s.crossed x := by
  unfold State.crossed State.beyondCount State.filtered
  rw [hldg]

theorem State.find_counts (s : State) (x : Samples) :
    ((List.range 170).map fun i => (i, s.beyondCount x i)).find? (fun c => c.2 = crossAfter c.1) =
      (s.crossed x).map fun i => (i, s.beyondCount x i) := by
  rw [List.find?_map]
  rfl

theorem State.compare_of_crossed {x : Samples} {i : Nat} (h : s.crossed x = some i) :
    s.compare x = (s.mapLdg (s.counted x)).shutdown i ((s.filtered x i).getD 0) := by
  unfold State.compare
  dsimp only
  rw [State.find_counts, h]
  rfl

theorem State.compare_of_none {x : Samples} (h : s.crossed x = none) :
    s.compare x = s.mapLdg (s.counted x) ∨ s.compare x = (s.mapLdg (s.counted x)).clearTrip := by
  have heq : s.compare x = if s.tripped && !s.bit Reg.LDG_STATE 5 && decide (10000 ≤ (s.counted x s.ldg).clear) then
      (s.mapLdg (s.counted x)).clearTrip else s.mapLdg (s.counted x) := by
    unfold State.compare
    dsimp only
    rw [State.find_counts, h]
    rfl
  rw [heq]
  split
  · exact .inr rfl
  · exact .inl rfl

/-! ## The protective shutdown (R374) -/

/-- LDG_TRIP of a trip: its cause, its sensor, the trips of the hour and the mark that it is valid. -/
theorem tripReg_bits {i recent : Nat} (hi : i < 170) (hrecent : recent ≤ 3) {n : Nat}
    (hn : n = (tripCode i).1 + 16 * (tripCode i).2 + 65536 * recent + 2 ^ 31) :
    n < 2 ^ 64 ∧ n % 16 = (tripCode i).1 ∧ n / 16 % 4096 = (tripCode i).2 ∧ n / 2 ^ 31 % 2 = 1 := by
  have hcode : (tripCode i).1 < 16 ∧ (tripCode i).2 < 4096 := by
    unfold tripCode
    split_ifs <;> simp <;> omega
  generalize tripCode i = c at *
  omega

theorem State.toA3_lodge (s : State) : s.toA3.hlt.powered = s.hlt.powered ∧ s.toA3.ldg.ps = .a3 := by
  have hlose : s.lose.hlt.powered = s.hlt.powered := rfl
  unfold State.toA3
  generalize s.lose = u at *
  have hkeep : Evolves [.regs, .pyu] u (u.keepRegs s [Reg.PYU_WAKE, Reg.MEM_TEMP0, Reg.MEM_TEMP1]).listen :=
    ((u.keepRegs_evolves s _).widen rfl).step (State.listen_evolves _) rfl
  generalize (u.keepRegs s [Reg.PYU_WAKE, Reg.MEM_TEMP0, Reg.MEM_TEMP1]).listen = w at *
  have hhlt : w.hlt = u.hlt := hkeep.keep .hlt (by decide)
  exact ⟨Eq.trans (congrArg Ledger.powered hhlt) hlose, rfl⟩

/-- The registers that show a trip, and what the Lodge notes of it. -/
def State.showTrip (s : State) (n : Nat) (third : Bool) (trips : List Nat) : State :=
  ((((s.setBit Reg.LDG_STATE 4 true).setRegN Reg.LDG_TRIP n).setBit Reg.LDG_STATE 5 third).mapLdg fun l =>
    { l with trips := trips, latched := false, held := none, clear := 0 }).event Reg.LDG_EVENT 3

theorem State.shutdown_eq (s : State) (i v : Nat) : ∃ data recent third trips, recent ≤ 3 ∧ s.shutdown i v =
    ((s.ledgerEvent 0x03 0 (tripCode i).1 (tripCode i).2 data).toA3).showTrip
      ((tripCode i).1 + 16 * (tripCode i).2 + 65536 * recent + 2 ^ 31) third trips :=
  ⟨_, _, _, _, Nat.min_le_right _ 3, rfl⟩

theorem State.showTrip_writes (s : State) (n : Nat) (third : Bool) (trips : List Nat) :
    Writes (.ldg :: Part.signalled) [Reg.LDG_STATE, Reg.LDG_TRIP, Reg.LDG_EVENT] s (s.showTrip n third trips) :=
  (((((s.setBit_writes Reg.LDG_STATE 4 true).widen (Q := .ldg :: Part.signalled)
    (M := [Reg.LDG_STATE, Reg.LDG_TRIP, Reg.LDG_EVENT])).step (State.setRegN_writes _ Reg.LDG_TRIP n)).step
      (State.setBit_writes _ Reg.LDG_STATE 5 third)).step (State.evolves_ldg _ _).writes).step
        (State.event_writes _ Reg.LDG_EVENT 3)

/-- What a trip shows. -/
theorem State.showTrip_shows (hwf : storeWf 0 s.regs = true) {n : Nat} (hn : n < 2 ^ 64) (third : Bool) (trips : List Nat) :
    (s.showTrip n third trips).tripped = true ∧ (s.showTrip n third trips).regN Reg.LDG_TRIP = n ∧
      (s.showTrip n third trips).bit Reg.LDG_EVENT 3 = true ∧ (s.showTrip n third trips).ldg.ps = s.ldg.ps := by
  unfold State.showTrip
  have hset := s.setBit_writes Reg.LDG_STATE 4 true
  have hflag : (s.setBit Reg.LDG_STATE 4 true).bit Reg.LDG_STATE 4 = true := s.bit_setBit _ _ _ hwf (by decide)
  have hps : (s.setBit Reg.LDG_STATE 4 true).ldg = s.ldg := rfl
  generalize s.setBit Reg.LDG_STATE 4 true = u at *
  have hwfu := hset.wf hwf
  have htrip := u.setRegN_writes Reg.LDG_TRIP n
  have hreg : (u.setRegN Reg.LDG_TRIP n).regN Reg.LDG_TRIP = n := u.regN_setRegN _ _ hwfu hn
  have hpsu : (u.setRegN Reg.LDG_TRIP n).ldg = u.ldg := rfl
  generalize u.setRegN Reg.LDG_TRIP n = w at *
  have hwfw := htrip.wf hwfu
  have hthird := w.setBit_writes Reg.LDG_STATE 5 third
  have hfour : (w.setBit Reg.LDG_STATE 5 third).bit Reg.LDG_STATE 4 = w.bit Reg.LDG_STATE 4 :=
    w.bit_setFld_ne _ _ hwfw (by decide) (by decide)
  have hpsw : (w.setBit Reg.LDG_STATE 5 third).ldg = w.ldg := rfl
  generalize w.setBit Reg.LDG_STATE 5 third = x at *
  have hwfx := hthird.wf hwfw
  have hnote := x.mapLdg_evolves fun l => { l with trips := trips, latched := false, held := none, clear := 0 }
  have hnoted : (x.mapLdg fun l => { l with trips := trips, latched := false, held := none, clear := 0 }).ldg.ps = x.ldg.ps := rfl
  generalize (x.mapLdg fun l => { l with trips := trips, latched := false, held := none, clear := 0 }) = y at *
  have hevent := y.event_writes Reg.LDG_EVENT 3
  have hldg : (y.event Reg.LDG_EVENT 3).ldg = y.ldg := hevent.evolves.keep .ldg (by decide)
  have hregs : y.regs = x.regs := hnote.keep .regs (by decide)
  refine ⟨?_, ?_, State.bit_event _ _ _ (hregs ▸ hwfx) (by decide), by rw [hldg, hnoted, hpsw, hpsu, hps]⟩
  · rw [State.tripped, hevent.bit (by decide), State.bit_of_regs _ _ _ _ hregs, hfour, htrip.bit (by decide), hflag]
  · rw [hevent.regN (by decide), show y.regN Reg.LDG_TRIP = x.regN Reg.LDG_TRIP by rw [State.regN, State.reg, hregs]; rfl,
      hthird.regN (by decide), hreg]

/-- What a shutdown shows. -/
theorem State.shutdown_shows (hwf : storeWf 0 s.regs = true) {i : Nat} (hi : i < 170) (v : Nat) : let t := s.shutdown i v
    t.ldg.ps = .a3 ∧ t.tripped = true ∧ t.fld Reg.LDG_TRIP 3 0 = (tripCode i).1 ∧ t.fld Reg.LDG_TRIP 15 4 = (tripCode i).2 ∧
      t.bit Reg.LDG_TRIP 31 = true ∧ t.bit Reg.LDG_EVENT 3 = true ∧ t.image = {} ∧ (∀ k, t.byteAt k = 0) ∧ t.sbk = s.sbk ∧
      t.hlt.powered = s.hlt.powered ∧ t.regN Reg.LDG_UPTIME = s.regN Reg.LDG_UPTIME := by
  obtain ⟨data, recent, third, trips, hrecent, heq⟩ := s.shutdown_eq i v
  obtain ⟨hlt, hcause, hsub, hvalid⟩ := tripReg_bits hi hrecent rfl
  rw [heq]
  generalize (tripCode i).1 + 16 * (tripCode i).2 + 65536 * recent + 2 ^ 31 = n at *
  have hrecord := s.ledgerEvent_writes 0x03 0 (tripCode i).1 (tripCode i).2 data
  have hpowered : (s.ledgerEvent 0x03 0 (tripCode i).1 (tripCode i).2 data).hlt.powered = s.hlt.powered :=
    s.powered_ledgerAppend ..
  generalize s.ledgerEvent 0x03 0 (tripCode i).1 (tripCode i).2 data = u at *
  have hwfu := hrecord.wf hwf
  obtain ⟨hbyte, himage, -, -, -, -, hkept, -, -, -, -, -, hsbk, -⟩ := State.toA3_keeps hwfu
  obtain ⟨hpw, hps⟩ := u.toA3_lodge
  have hwfw : storeWf 0 u.toA3.regs = true := u.toA3_evolves.regs hwfu
  have huptime := hkept Reg.LDG_UPTIME rfl
  generalize u.toA3 = w at *
  obtain ⟨htripped, htrip, hevent, hps'⟩ := State.showTrip_shows hwfw hlt third trips
  have hshow := w.showTrip_writes n third trips
  generalize w.showTrip n third trips = t at *
  have hmem : t.mem = w.mem := hshow.evolves.keep .mem (by decide)
  have hhlt : t.hlt = w.hlt := hshow.evolves.keep .hlt (by decide)
  have hsbk' : t.sbk = w.sbk := hshow.evolves.keep .sbk (by decide)
  have himage' : t.image = w.image := hshow.evolves.keep .image (by decide)
  have hsbku : u.sbk = s.sbk := hrecord.evolves.keep .sbk (by decide)
  refine ⟨hps'.trans hps, htripped, ?_, ?_, ?_, hevent, himage'.trans himage, fun k => ?_,
    hsbk'.trans (hsbk.trans hsbku), ?_, ?_⟩
  · rw [State.fld, htrip, ← hcause, bits, Nat.pow_zero, Nat.div_one]
    rfl
  · rw [State.fld, htrip, ← hsub, bits]
    rfl
  · rw [State.bit_eq_testBit, htrip, Nat.testBit_eq_decide_div_mod_eq, hvalid]
    rfl
  · rw [State.byteAt, hmem]
    exact hbyte k
  · rw [hhlt, hpw, hpowered]
  · rw [hshow.regN (by decide), State.regN, huptime, hrecord.reg (by decide)]
    rfl

theorem State.clearTrip_shows (hwf : storeWf 0 s.regs = true) :
    Writes [.regs] [Reg.LDG_STATE] s s.clearTrip ∧ s.clearTrip.tripped = false := by
  have hfirst := s.setBit_writes Reg.LDG_STATE 4 false
  have hoff : (s.setBit Reg.LDG_STATE 4 false).bit Reg.LDG_STATE 4 = false := s.bit_setBit _ _ _ hwf (by decide)
  unfold State.clearTrip State.tripped
  generalize s.setBit Reg.LDG_STATE 4 false = u at *
  exact ⟨hfirst.step (u.setBit_writes Reg.LDG_STATE 5 false),
    (u.bit_setFld_ne _ _ (hfirst.wf hwf) (by decide) (by decide)).trans hoff⟩

/-! ## A sample -/

theorem State.evolves_powered (s : State) (n : Nat) : Evolves [.hlt] s { s with hlt := { s.hlt with powered := n } } :=
  ⟨fun p hp => by
    cases p
    case hlt => exact absurd (List.mem_singleton_self _) hp
    all_goals rfl, id, id, List.prefix_refl _, fun _ => Nat.le_refl _, Nat.le_refl _, Nat.le_refl _, fun _ _ => rfl⟩

/-- What a sample adds before its comparison: the times, the summary, and the closing of it. -/
def State.beforeCompare (s : State) (x : Samples) : State :=
  let s1 := s.setRegN Reg.LDG_UPTIME (s.regN Reg.LDG_UPTIME + 100);
  (({ s1 with hlt := { s1.hlt with powered := s1.hlt.powered + 100 } } : State).sampleStats x).closing x

theorem exec_sensorSample (hon : s.boot.powered = true) (hstep : 1 ≤ s.boot.step) (x : Samples) :
    exec (.sensorSample x) s = .next ((s.beforeCompare x).compare x) :=
  congrArg Host.Outcome.next (if_pos (by simp [hon, hstep]))

theorem State.beforeCompare_shows (hwf : storeWf 0 s.regs = true) (x : Samples) :
    (s.beforeCompare x).hlt.powered = s.hlt.powered + 100 ∧
      (s.beforeCompare x).regN Reg.LDG_UPTIME = (s.regN Reg.LDG_UPTIME + 100) % 2 ^ 64 ∧
      Writes (.hlt :: Part.signalled) (Reg.LDG_UPTIME :: Reg.ledger) s (s.beforeCompare x) := by
  have htime := s.setRegN_writes Reg.LDG_UPTIME (s.regN Reg.LDG_UPTIME + 100)
  have hreg := State.regN_setRegN_mod hwf Reg.LDG_UPTIME (s.regN Reg.LDG_UPTIME + 100)
  have hhlt : (s.setRegN Reg.LDG_UPTIME (s.regN Reg.LDG_UPTIME + 100)).hlt = s.hlt := rfl
  unfold State.beforeCompare
  generalize s.setRegN Reg.LDG_UPTIME (s.regN Reg.LDG_UPTIME + 100) = a at *
  have hadd := a.evolves_powered (a.hlt.powered + 100)
  obtain ⟨b, hb⟩ : ∃ b : State, b = { a with hlt := { a.hlt with powered := a.hlt.powered + 100 } } := ⟨_, rfl⟩
  have hpowered : b.hlt.powered = s.hlt.powered + 100 := by rw [hb, hhlt]
  dsimp only
  rw [← hb] at hadd ⊢
  have hstats := b.sampleStats_evolves x
  have hkept := b.powered_sampleStats x
  generalize b.sampleStats x = c at *
  have hclose := c.closing_writes x
  have hafter : Writes (.hlt :: Part.signalled) Reg.ledger a (c.closing x) :=
    ((hadd.writes.widen (Q := .hlt :: Part.signalled) (M := Reg.ledger)).step hstats.writes).step hclose
  exact ⟨by rw [c.powered_closing x, hkept, hpowered], (hafter.regN (by decide)).trans hreg,
    (htime.widen (Q := .hlt :: Part.signalled) (M := Reg.LDG_UPTIME :: Reg.ledger)).step hafter⟩

/-- R374: a sample that crosses a limit trips the module. -/
theorem sample_crosses (hwf : storeWf 0 s.regs = true) (x : Samples) {i : Nat} (hi : i < 170) (hcross : s.crossed x = some i) :
    let t := (s.beforeCompare x).compare x;
    t.regN Reg.LDG_UPTIME = (s.regN Reg.LDG_UPTIME + 100) % 2 ^ 64 ∧ t.hlt.powered = s.hlt.powered + 100 ∧
      t.ldg.ps = .a3 ∧ t.tripped = true ∧ t.fld Reg.LDG_TRIP 3 0 = (tripCode i).1 ∧
      t.fld Reg.LDG_TRIP 15 4 = (tripCode i).2 ∧ t.bit Reg.LDG_TRIP 31 = true ∧ t.bit Reg.LDG_EVENT 3 = true ∧
      t.image = {} ∧ (∀ k, t.byteAt k = 0) ∧ t.sbk = s.sbk := by
  obtain ⟨hpowered, hreg, hbefore⟩ := State.beforeCompare_shows hwf x
  generalize s.beforeCompare x = a at *
  have hldg : a.ldg = s.ldg := hbefore.evolves.keep .ldg (by decide)
  have hnote := a.mapLdg_evolves (a.counted x)
  have hhlt : (a.mapLdg (a.counted x)).hlt = a.hlt := rfl
  dsimp only
  rw [State.compare_of_crossed ((State.crossed_congr hldg x).trans hcross)]
  generalize a.mapLdg (a.counted x) = b at *
  have hall : Writes (.ldg :: .hlt :: Part.signalled) (Reg.LDG_UPTIME :: Reg.ledger) s b :=
    (hbefore.widen (hl := fun _ h => h)).step hnote.writes
  have hsbk : b.sbk = s.sbk := hall.evolves.keep .sbk (by decide)
  obtain ⟨hps, htripped, hcause, hsub, hvalid, hevent, himage, hbyte, hkeep, hpw, huptime⟩ :=
    State.shutdown_shows (hall.wf hwf) hi ((a.filtered x i).getD 0)
  exact ⟨by rw [huptime, hnote.writes.regN (by decide : Reg.LDG_UPTIME ∉ ([] : List Nat)), hreg], by rw [hpw, hhlt, hpowered],
    hps, htripped, hcause, hsub, hvalid, hevent, himage, hbyte, hkeep.trans hsbk⟩

/-- R374: a sample without a crossing leaves the module as it is. -/
theorem sample_passes (hwf : storeWf 0 s.regs = true) (x : Samples) (hnone : s.crossed x = none) :
    let t := (s.beforeCompare x).compare x;
    t.regN Reg.LDG_UPTIME = (s.regN Reg.LDG_UPTIME + 100) % 2 ^ 64 ∧ t.hlt.powered = s.hlt.powered + 100 ∧
      t.ldg.ps = s.ldg.ps ∧ (s.tripped = false → t.tripped = false) ∧ s.keeps t ([.ldg, .hlt] ++ Part.signalled) ∧
      s.sameBytes t := by
  obtain ⟨hpowered, hreg, hbefore⟩ := State.beforeCompare_shows hwf x
  generalize s.beforeCompare x = a at *
  have hldg : a.ldg = s.ldg := hbefore.evolves.keep .ldg (by decide)
  have hnote := a.mapLdg_evolves (a.counted x)
  have hhlt : (a.mapLdg (a.counted x)).hlt = a.hlt := rfl
  have hps : (a.mapLdg (a.counted x)).ldg.ps = a.ldg.ps := rfl
  have hcases := State.compare_of_none ((State.crossed_congr hldg x).trans hnone)
  dsimp only
  generalize a.mapLdg (a.counted x) = b at *
  have hall : Writes ([.ldg, .hlt] ++ Part.signalled) (Reg.LDG_STATE :: Reg.LDG_UPTIME :: Reg.ledger) s b :=
    hbefore.widen.step hnote.writes
  have htime : b.regN Reg.LDG_UPTIME = (s.regN Reg.LDG_UPTIME + 100) % 2 ^ 64 := by
    rw [hnote.writes.regN (by decide : Reg.LDG_UPTIME ∉ ([] : List Nat)), hreg]
  have htrip : b.tripped = s.tripped := by
    rw [State.tripped, hnote.writes.bit (by decide : Reg.LDG_STATE ∉ ([] : List Nat)), hbefore.bit (by decide)]
    rfl
  have hpw : b.hlt.powered = s.hlt.powered + 100 := by rw [hhlt, hpowered]
  have hpsb : b.ldg.ps = s.ldg.ps := by rw [hps, hldg]
  rcases hcases with heq | heq
  · rw [heq]
    exact ⟨htime, hpw, hpsb, fun h => htrip.trans h, hall.evolves.keep, hall.evolves.sameBytes⟩
  · rw [heq]
    obtain ⟨hclear, hoff⟩ := State.clearTrip_shows (hall.wf hwf)
    have hlast := hall.step hclear
    have hhlt' : b.clearTrip.hlt = b.hlt := hclear.evolves.keep .hlt (by decide)
    have hldg' : b.clearTrip.ldg = b.ldg := hclear.evolves.keep .ldg (by decide)
    exact ⟨(hclear.regN (by decide)).trans htime, by rw [hhlt', hpw], by rw [hldg', hpsb], fun _ => hoff,
      hlast.evolves.keep, hlast.evolves.sameBytes⟩

/-! ## The loss of the input (R374, R394) -/

/-- The registers that persisting the write queue may change. -/
abbrev Reg.persisting : List Nat := Reg.seedBank ++ Reg.ledger

/-- The parts that persisting the write queue may change. -/
abbrev Part.persisting : List Part := [.regs, .out, .heldOut, .pwr, .host, .sbk, .hlt]

/-- What persisting does: it drops entries of the write queue and tells of wear. -/
def Persists (s t : State) : Prop := Writes Part.persisting Reg.persisting s t ∧ t.sbk.queue.length ≤ s.sbk.queue.length

theorem Persists.trans {t u : State} (h : Persists s t) (g : Persists t u) : Persists s u := ⟨h.1.step g.1, g.2.trans h.2⟩

theorem Writes.persists {L : List Nat} {P : List Part} {t : State} (h : Writes P L s t)
    (hp : (P.all fun p => Part.persisting.contains p) = true := by rfl) (hl : ∀ o ∈ L, o ∈ Reg.persisting := by simp)
    (hsbk : .sbk ∉ P := by decide) : Persists s t := by
  have hkeep : t.sbk = s.sbk := h.evolves.keep .sbk hsbk
  exact ⟨h.widen hp hl, by rw [hkeep]⟩

theorem State.dropFrozen_persists (s : State) (i : Nat) : Persists s (s.dropFrozen i) := by
  obtain ⟨u, hu⟩ : ∃ u : State, u = { s with sbk := { s.sbk with
    queue := s.sbk.queue.filter fun e => !(e.writes.any fun w => decide (w.1 = i)) } } := ⟨_, rfl⟩
  have hdrop : Persists s u := by
    rw [hu]
    exact ⟨(s.evolves_queue _).writes.widen, List.length_filter_le _ _⟩
  unfold State.dropFrozen
  dsimp only
  rw [← hu]
  split
  · exact hdrop.trans (u.frozenHit_writes i).persists
  · exact hdrop

theorem State.wear_persists (s : State) (k i detail : Nat) :
    Persists s ((s.event Reg.SBK_EVENT k).ledgerEvent 0x0A 0 i detail []) :=
  (s.event_writes Reg.SBK_EVENT k).persists.trans (State.ledgerEvent_writes ..).persists

theorem State.persistOne_persists (s : State) (i : Nat) (v : Word) : Persists s (s.persistOne i v) := by
  obtain ⟨u, hu⟩ : ∃ u : State, u = { s with sbk := { s.sbk with
    vals := storeSet 0 s.sbk.vals i v, wear := storeSet 0 s.sbk.wear i (s.wear i + 1) } } := ⟨_, rfl⟩
  have hcount : Persists s u := by
    rw [hu]
    exact ⟨(Evolves.worn s i _).writes.widen, Nat.le_refl _⟩
  unfold State.persistOne
  dsimp only
  rw [← hu]
  split
  · exact hcount.trans (u.wear_persists 0 i 0)
  · split
    · exact (hcount.trans (u.wear_persists 1 i 1)).trans (State.dropFrozen_persists _ i)
    · exact hcount

theorem State.persistAll_persists (s : State) (ws : List (Nat × Word)) : Persists s (s.persistAll ws) := by
  induction ws generalizing s with
  | nil => exact ⟨Writes.refl s, Nat.le_refl _⟩
  | cons w ws ih => exact (s.persistOne_persists w.1 w.2).trans (ih _)

/-- R392: persisting takes the oldest entry from the write queue. -/
theorem State.seedPersist_persists (s : State) : Writes Part.persisting Reg.persisting s s.seedPersist ∧
    s.seedPersist.sbk.queue.length ≤ s.sbk.queue.length - 1 := by
  unfold State.seedPersist
  split
  case h_1 hempty => exact ⟨Writes.refl s, by rw [hempty]; exact Nat.le_refl _⟩
  case h_2 e q hqueue =>
    obtain ⟨u, hu⟩ : ∃ u : State, u = { s with sbk := { s.sbk with queue := q } } := ⟨_, rfl⟩
    have htake : Writes Part.persisting Reg.persisting s u := by
      rw [hu]
      exact (s.evolves_queue q).writes.widen
    have hlen : u.sbk.queue.length = s.sbk.queue.length - 1 := by rw [hu, hqueue]; rfl
    have hall := u.persistAll_persists e.writes
    dsimp only
    rw [← hu]
    split
    · have hcap := hall.trans (State.capPersisted_evolves _).writes.persists
      exact ⟨htake.step hcap.1, hlen ▸ hcap.2⟩
    · exact ⟨htake.step hall.1, hlen ▸ hall.2⟩

/-- R394: as many persists as the queue has entries empty it. -/
theorem State.persistQueue_persists (s : State) (n : Nat) : Writes Part.persisting Reg.persisting s (s.persistQueue n) ∧
    (s.persistQueue n).sbk.queue.length ≤ s.sbk.queue.length - n := by
  induction n generalizing s with
  | zero => exact ⟨Writes.refl s, Nat.le_refl _⟩
  | succ n ih =>
    obtain ⟨hfirst, hlen⟩ := s.seedPersist_persists
    obtain ⟨hrest, hlen'⟩ := ih s.seedPersist
    exact ⟨hfirst.step hrest, by rw [State.persistQueue]; omega⟩

theorem State.toOff_sec (s : State) : s.toOff.sec.banks = s.sec.banks ∧ s.toOff.ldg = {} := ⟨rfl, rfl⟩

/-- R374, R394: the input is lost. -/
theorem exec_lodgeStop (hon : s.boot.powered = true) : ∃ t, exec .lodgeStop s = .next t ∧ t.boot.powered = false ∧
    t.boot.step = 0 ∧ t.sbk.queue = [] ∧ t.image = {} ∧ t.ldg = {} ∧ (∀ k, t.byteAt k = 0) ∧
    (∀ o, (∀ k, k < 16 → o ≠ Reg.ME_FAIL + 4 * k) → t.reg o = State.reset.reg o) ∧
    (∀ k, k < 16 → t.reg (Reg.ME_FAIL + 4 * k) = s.reg (Reg.ME_FAIL + 4 * k)) ∧
    (∀ i, s.wear i ≤ t.wear i) ∧ t.sec.banks = s.sec.banks := by
  obtain ⟨hpersist, hempty⟩ := s.persistQueue_persists s.sbk.queue.length
  have hexec : exec .lodgeStop s = .next (if (s.persistQueue s.sbk.queue.length).hlt.closed then
      s.persistQueue s.sbk.queue.length else (s.persistQueue s.sbk.queue.length).appendSummary).toOff :=
    congrArg Host.Outcome.next (if_pos hon)
  generalize s.persistQueue s.sbk.queue.length = u at *
  have hsum := u.appendSummary_writes
  obtain ⟨w, hw, hclose⟩ : ∃ w, w = (if u.hlt.closed then u else u.appendSummary) ∧
      Writes (.hlt :: Part.signalled) Reg.ledger u w := by
    refine ⟨_, rfl, ?_⟩
    split
    · exact Writes.refl u
    · exact hsum
  rw [← hw] at hexec
  have hall := hpersist.step hclose
  have hqueue : w.sbk = u.sbk := hclose.evolves.keep .sbk (by decide)
  have hsec : w.sec = s.sec := hall.evolves.keep .sec (by decide)
  obtain ⟨hmem, himage, -, -, -, hboot, hregs⟩ := w.toOff_parts
  obtain ⟨hbanks, hldg⟩ := w.toOff_sec
  have hsbk : w.toOff.sbk = w.sbk := w.toOff_evolves.keep .sbk (by decide)
  refine ⟨w.toOff, hexec, by rw [hboot], by rw [hboot], ?_, himage, hldg, fun k => ?_, fun o ho => ?_, fun k hk => ?_,
    fun i => (hall.evolves.wear i).trans (w.toOff_evolves.wear i), by rw [hbanks, hsec]⟩
  · rw [hsbk, hqueue]
    exact List.eq_nil_of_length_eq_zero (by omega)
  · rw [State.byteAt, hmem]
    rfl
  · rw [State.reg, hregs, w.storeGet_lostRegs [] ho, List.append_nil]
    rfl
  · rw [State.reg, hregs, w.storeGet_lostRegs_fail [] (by decide) hk]
    refine hall.reg ?_
    exact (by decide : ∀ k < 16, Reg.ME_FAIL + 4 * k ∉ Reg.persisting) k hk

/-! ## Management messages (R373, R379, R380, R403) -/

/-- R373, R379, R380: the Lodge answers at its address. -/
theorem i3c_answers (h : s.managed) (haddr : s.ldg.address.isSome = true) :
    exec (.mctpI3cRequest .identity) s = .next { s with out := s.out ++
         [.mctp (.identity Config.moduleId 0x04740512 Config.romVersion s.boot.status s.boot.cached)] } ∧
       exec (.mctpI3cRequest .malformed) s = .next s ∧
       exec (.mctpI3cRequest .control) s = .next { s with out := s.out ++ [.mctp .control] } :=
  ⟨congrArg Host.Outcome.next (State.onI3c_of_managed haddr h _), congrArg Host.Outcome.next (State.onI3c_of_managed haddr h _),
    congrArg Host.Outcome.next (State.onI3c_of_managed haddr h _)⟩

/-- R403: reads of the ledger and of a snapshot return up to 192 bytes. -/
theorem ledger_reads (h : s.managed) (o n : Nat) :
    (n ≤ 192 → exec (.ledgerRead o n) s = .next { s with out := s.out ++ [.mctp (.vendor 2 (s.ledgerBytes o n))] } ∧
       exec (.snapshotRead o n) s = .next { s with out := s.out ++ [.mctp (.vendor 3 ((s.snapshotBytes.drop o).take n))] }) ∧
     (192 < n → exec (.ledgerRead o n) s = .next s ∧ exec (.snapshotRead o n) s = .next s) := by
  have hledger : exec (.ledgerRead o n) s = .next (s.mctpReply (.ledgerRead o n)) :=
    congrArg Host.Outcome.next (State.onMgmt_of_managed h _)
  have hsnap : exec (.snapshotRead o n) s = .next (s.mctpReply (.snapshotRead o n)) :=
    congrArg Host.Outcome.next (State.onMgmt_of_managed h _)
  rw [hledger, hsnap]
  unfold State.mctpReply State.mctpAnswer
  dsimp only
  refine ⟨fun hle => ?_, fun hlt => ?_⟩
  · rw [if_pos hle, if_pos hle]
    exact ⟨rfl, rfl⟩
  · rw [if_neg (Nat.not_le.mpr hlt), if_neg (Nat.not_le.mpr hlt)]
    exact ⟨rfl, rfl⟩

/-! ## The mailbox (R377, R403) -/

theorem State.mailboxField_four (s : State) (o : Nat) :
    s.mailboxField o 4 = s.mailboxField o 3 + s.mailboxByte (o + 3) * 2 ^ (8 * 3) := by
  rw [State.mailboxField, List.range_succ, List.foldl_append, List.foldl_cons, List.foldl_nil]
  rfl

theorem State.mailboxByte_lt (s : State) (i : Nat) : s.mailboxByte i < 256 := Nat.mod_lt _ (by decide)

theorem State.mailboxField_three_lt (s : State) (o : Nat) : s.mailboxField o 3 < 2 ^ 24 := by
  have h : s.mailboxField o 3 = s.mailboxByte o * 2 ^ 0 + s.mailboxByte (o + 1) * 2 ^ 8 + s.mailboxByte (o + 2) * 2 ^ 16 := by
    simp [State.mailboxField, List.range_succ]
  have h0 := s.mailboxByte_lt o
  have h1 := s.mailboxByte_lt (o + 1)
  have h2 := s.mailboxByte_lt (o + 2)
  omega

/-- R403, log 59: the request that the mailbox buffer spells. -/
theorem State.mailboxReq_reads (s : State) (q : MctpReq) : (s.mailboxField 0 3 ≠ 0x1F3A7E → s.mailboxReq q = q) ∧
    (s.mailboxField 0 4 = 0x021F3A7E → s.mailboxReq q = .ledgerRead (s.mailboxField 4 8) (s.mailboxField 12 2)) := by
  refine ⟨fun hother => if_neg hother, fun hread => ?_⟩
  have hfour := s.mailboxField_four 0
  have hthree := s.mailboxField_three_lt 0
  rw [Nat.zero_add] at hfour
  have hvendor : s.mailboxField 0 3 = 0x7E + 256 * 0x1F3A := by omega
  have hcommand : s.mailboxByte 3 = 2 := by omega
  unfold State.mailboxReq
  rw [if_pos hvendor, if_pos hcommand]

theorem ofLe_lt (bs : List Byte) : ofLe bs < 256 ^ bs.length := by
  induction bs with
  | nil => exact Nat.one_pos
  | cons b bs ih =>
    rw [ofLe, List.length_cons, Nat.pow_succ]
    have hb := b.isLt
    omega

/-- The registers of the mailbox buffer's words from `k` on. -/
abbrev Reg.mailbox (k n : Nat) : List Nat := (List.range' k n).map fun i => Reg.LDG_MBOX + 4 * i

theorem Reg.mem_mailbox {k n o : Nat} : o ∈ Reg.mailbox k n ↔ ∃ i, k ≤ i ∧ i < k + n ∧ Reg.LDG_MBOX + 4 * i = o := by
  simp [Reg.mailbox, List.mem_range'_1, and_assoc]

theorem State.fillMailbox_writes (s : State) (k n : Nat) (bs : List Byte) :
    Writes [.regs] (Reg.mailbox k n) s (s.fillMailbox k n bs) := by
  induction n generalizing s k bs with
  | zero => exact Writes.refl s
  | succ n ih =>
    unfold State.fillMailbox
    split
    · exact Writes.refl s
    · refine ((s.setRegN_writes _ _).widen (hl := fun o ho => ?_)).step (ih _ _ _) (hl := fun o ho => ?_)
      · exact Reg.mem_mailbox.mpr ⟨k, Nat.le_refl k, by omega, (List.mem_singleton.mp ho).symm⟩
      · obtain ⟨i, hlo, hhi, heq⟩ := Reg.mem_mailbox.mp ho
        exact Reg.mem_mailbox.mpr ⟨i, by omega, by omega, heq⟩

/-- R377: the words of the mailbox buffer hold the bytes laid into it. -/
theorem State.regN_fillMailbox (hwf : storeWf 0 s.regs = true) {k n : Nat} {bs : List Byte} {j : Nat} (hj : 4 * j < bs.length)
    (hn : j < n) : (s.fillMailbox k n bs).regN (Reg.LDG_MBOX + 4 * (k + j)) = ofLe ((bs.drop (4 * j)).take 4) := by
  induction n generalizing s k bs j with
  | zero => exact absurd hn (Nat.not_lt_zero j)
  | succ n ih =>
    unfold State.fillMailbox
    split
    · exact absurd hj (Nat.not_lt_zero _)
    next b rest =>
    have hset := s.setRegN_writes (Reg.LDG_MBOX + 4 * k) (ofLe ((b :: rest).take 4))
    have hlt : ofLe ((b :: rest).take 4) < 2 ^ 64 :=
      (ofLe_lt _).trans_le ((Nat.pow_le_pow_right (by decide) (List.length_take_le 4 _)).trans (by decide))
    have hword := s.regN_setRegN (Reg.LDG_MBOX + 4 * k) _ hwf hlt
    generalize s.setRegN (Reg.LDG_MBOX + 4 * k) (ofLe ((b :: rest).take 4)) = u at *
    cases j with
    | zero =>
      rw [(u.fillMailbox_writes (k + 1) n _).regN fun hin => ?_]
      · exact hword
      · obtain ⟨i, hlo, -, heq⟩ := Reg.mem_mailbox.mp hin
        omega
    | succ j =>
      have hrest := ih (s := u) (hset.wf hwf) (k := k + 1) (bs := (b :: rest).drop 4) (j := j)
        (by rw [List.length_drop]; omega) (by omega)
      rw [List.drop_drop] at hrest
      rw [show k + (j + 1) = k + 1 + j by omega, hrest, show 4 * (j + 1) = 4 + 4 * j by omega]

theorem State.ledgerBytes_part (s : State) (o n a b : Nat) :
    ((s.ledgerBytes o n).drop a).take b = s.ledgerBytes (o + a) (min b (n - a)) := by
  refine List.ext_getElem (by simp [State.ledgerBytes]) fun i h h' => ?_
  simp [State.ledgerBytes, Nat.add_assoc]

theorem State.mailboxReq_of_buffer {t : State} (hkeep : ∀ i, i < 64 → t.regN (Reg.LDG_MBOX + i * 4) = s.regN (Reg.LDG_MBOX + i * 4))
    (q : MctpReq) : t.mailboxReq q = s.mailboxReq q := by
  have hbyte (i : Nat) (hi : i < 256) : t.mailboxByte i = s.mailboxByte i := by
    rw [State.mailboxByte, State.mailboxByte, hkeep (i / 4) (by omega)]
  have hfield (o n : Nat) (hn : o + n ≤ 256) : t.mailboxField o n = s.mailboxField o n :=
    List.foldl_ext _ _ _ fun a i hi => by rw [hbyte (o + i) (by have := List.mem_range.mp hi; omega)]
  unfold State.mailboxReq
  rw [hfield 0 3 (by decide), hbyte 3 (by decide), hfield 4 8 (by decide), hfield 12 2 (by decide)]

theorem Reg.mailbox_apart : ∀ i < 64, Reg.LDG_MBOX + 4 * i ∉ [Reg.LDG_MBOX_CTRL, Reg.LDG_EVENT] := by decide

/-- LENGTH of a write of LDG_MBOX_CTRL is taken. -/
theorem State.mailbox_takes (s : State) (ctrl : Word) (q : MctpReq) : ∃ u, Writes [.regs] [Reg.LDG_MBOX_CTRL] s u ∧
    u.mailboxReq q = s.mailboxReq q ∧ (∀ o n, u.ledgerBytes o n = s.ledgerBytes o n) ∧
    s.mailbox (ctrl.toNat / 2 * 2 + 1) q =
      if bits ctrl.toNat 10 2 = 0 ∨ 256 < bits ctrl.toNat 10 2 then u.setBit Reg.LDG_MBOX_CTRL 12 true
      else match u.mctpAnswer (u.mailboxReq q) with
      | none => u.setBit Reg.LDG_MBOX_CTRL 12 true
      | some a =>
        ((((u.fillMailbox 0 64 (u.mailboxBytes a)).setFld Reg.LDG_MBOX_CTRL 10 2 (u.mailboxBytes a).length).setBit
          Reg.LDG_MBOX_CTRL 12 false).used).event Reg.LDG_EVENT 4 := by
  have hodd : ¬(ctrl.toNat / 2 * 2 + 1) % 2 = 0 := by omega
  have hlen : bits (ctrl.toNat / 2 * 2 + 1) 10 2 = bits ctrl.toNat 10 2 := by
    unfold bits
    rw [show (ctrl.toNat / 2 * 2 + 1) / 2 ^ 2 = ctrl.toNat / 2 ^ 2 by omega]
  have hset := s.setFld_writes Reg.LDG_MBOX_CTRL 10 2 (bits ctrl.toNat 10 2)
  have hbytes (o n : Nat) : (s.setFld Reg.LDG_MBOX_CTRL 10 2 (bits ctrl.toNat 10 2)).ledgerBytes o n = s.ledgerBytes o n := rfl
  refine ⟨s.setFld Reg.LDG_MBOX_CTRL 10 2 (bits ctrl.toNat 10 2), hset, ?_, hbytes, ?_⟩
  · refine State.mailboxReq_of_buffer (fun i hi => hset.regN fun hin => Reg.mailbox_apart i hi ?_) q
    rw [Nat.mul_comm, List.mem_singleton.mp hin]
    exact List.mem_cons_self ..
  · unfold State.mailbox
    rw [hlen]
    dsimp only
    rw [if_neg hodd] <;> rfl

theorem exec_mailboxGo (h : s.hosted) (ctrl : Word) (q : MctpReq) :
    exec (.mailboxGo ctrl q) s = .next (s.mailbox (ctrl.toNat / 2 * 2 + 1) q) :=
  congrArg Host.Outcome.next (State.onLodge_of_hosted h _)

/-- R377: a request that is malformed sets the error bit. -/
theorem mailboxGo_refused (hwf : storeWf 0 s.regs = true) (h : s.hosted) (ctrl : Word) (q : MctpReq)
    (hbad : s.mailboxReq q = .malformed ∨ bits ctrl.toNat 10 2 = 0 ∨ 256 < bits ctrl.toNat 10 2) :
    ∃ t, exec (.mailboxGo ctrl q) s = .next t ∧ t.bit Reg.LDG_MBOX_CTRL 12 = true ∧
      s.touches t [.regs] [Reg.LDG_MBOX_CTRL] := by
  obtain ⟨u, hset, hreq, -, heq⟩ := s.mailbox_takes ctrl q
  refine ⟨u.setBit Reg.LDG_MBOX_CTRL 12 true, (exec_mailboxGo h ctrl q).trans (congrArg Host.Outcome.next (heq.trans ?_)),
    u.bit_setBit _ _ _ (hset.wf hwf) (by decide), (hset.step (u.setBit_writes _ _ _)).touches⟩
  rcases hbad with hbad | hbad
  · rw [hreq, hbad]
    exact ite_self _
  · exact if_pos hbad

/-- R377: the answer replaces the request. -/
theorem State.mailbox_replaced (hwf : storeWf 0 s.regs = true) (bs : List Byte) (hlen : bs.length ≤ 256) :
    let t := ((((s.fillMailbox 0 64 bs).setFld Reg.LDG_MBOX_CTRL 10 2 bs.length).setBit
          Reg.LDG_MBOX_CTRL 12 false).used).event Reg.LDG_EVENT 4;
    t.bit Reg.LDG_EVENT 4 = true ∧ t.bit Reg.LDG_MBOX_CTRL 12 = false ∧ t.fld Reg.LDG_MBOX_CTRL 10 2 = bs.length ∧
      (∀ j, 4 * j < bs.length → t.regN (Reg.LDG_MBOX + 4 * j) = ofLe ((bs.drop (4 * j)).take 4)) ∧
      Evolves (.free :: Part.signalled) s t := by
  have hfill := s.fillMailbox_writes 0 64 bs
  have hword {j : Nat} (hj : 4 * j < bs.length) := State.regN_fillMailbox hwf (k := 0) hj (show j < 64 by omega)
  generalize s.fillMailbox 0 64 bs = a at *
  have hwfa := hfill.wf hwf
  have hset := a.setFld_writes Reg.LDG_MBOX_CTRL 10 2 bs.length
  have hfld : (a.setFld Reg.LDG_MBOX_CTRL 10 2 bs.length).fld Reg.LDG_MBOX_CTRL 10 2 = bs.length :=
    State.fld_setFld a _ hwfa (by decide) (by omega)
  generalize a.setFld Reg.LDG_MBOX_CTRL 10 2 bs.length = b at *
  have hwfb := hset.wf hwfa
  have hbit := b.setBit_writes Reg.LDG_MBOX_CTRL 12 false
  have hclear := b.bit_setBit Reg.LDG_MBOX_CTRL 12 false hwfb (by decide)
  have hkept : (b.setBit Reg.LDG_MBOX_CTRL 12 false).fld Reg.LDG_MBOX_CTRL 10 2 = b.fld Reg.LDG_MBOX_CTRL 10 2 :=
    State.fld_setFld_ne b _ _ hwfb (by decide) (by decide)
  generalize b.setBit Reg.LDG_MBOX_CTRL 12 false = c at *
  have hused := c.used_evolves.writes
  generalize c.used = d at *
  have hevent := d.event_writes Reg.LDG_EVENT 4
  have hshown := d.bit_event Reg.LDG_EVENT 4 (hused.wf (hbit.wf hwfb)) (by decide)
  generalize d.event Reg.LDG_EVENT 4 = t at *
  have hlast : Writes (.free :: Part.signalled) [Reg.LDG_EVENT] c t := (hused.widen (hl := fun _ h => absurd h List.not_mem_nil)).step hevent
  have hafter : Writes (.free :: Part.signalled) [Reg.LDG_MBOX_CTRL, Reg.LDG_EVENT] a t :=
    (hset.widen.step hbit).step hlast
  refine ⟨hshown, (hlast.bit (by decide) 12).trans hclear, ((hlast.fld (by decide) 10 2).trans hkept).trans hfld,
    fun j hj => ?_, (hfill.evolves.widen rfl).step hafter.evolves rfl⟩
  rw [hafter.regN (Reg.mailbox_apart j (by omega)), ← hword hj, Nat.zero_add]

/-- The first word of an answer to a vendor message with command 0x02. -/
theorem mailbox_header : leBytes 1 0x7E ++ leBytes 2 0x1F3A ++ leBytes 1 2 = [0x7E, 0x3A, 0x1F, 2] ∧
    ofLe [0x7E, 0x3A, 0x1F, 2] = 0x021F3A7E := by decide

theorem State.mctpAnswer_ledger {o n : Nat} (hn : n ≤ 192) :
    s.mctpAnswer (.ledgerRead o n) = some (.vendor 2 (s.ledgerBytes o n)) := by
  unfold State.mctpAnswer
  exact if_pos hn

/-- R377, R403: a read of the ledger through the mailbox. -/
theorem mailboxGo_reads (hwf : storeWf 0 s.regs = true) (h : s.hosted) (ctrl : Word) (q : MctpReq) (o n : Nat)
    (hlo : 1 ≤ bits ctrl.toNat 10 2) (hhi : bits ctrl.toNat 10 2 ≤ 256) (hreq : s.mailboxReq q = .ledgerRead o n) (hn : n ≤ 192) :
    ∃ t, exec (.mailboxGo ctrl q) s = .next t ∧ t.bit Reg.LDG_EVENT 4 = true ∧
         t.bit Reg.LDG_MBOX_CTRL 12 = false ∧ t.fld Reg.LDG_MBOX_CTRL 10 2 = n + 4 ∧ t.regN Reg.LDG_MBOX = 0x021F3A7E ∧
         (∀ k, 4 * k < n → t.regN (Reg.LDG_MBOX + 4 * (k + 1)) = ofLe (s.ledgerBytes (o + 4 * k) (min 4 (n - 4 * k)))) ∧
         s.keeps t (.free :: Part.signalled) := by
  obtain ⟨u, hset, hreq', hbytes, heq⟩ := s.mailbox_takes ctrl q
  have hlen : (s.ledgerBytes o n).length = n := by simp [State.ledgerBytes]
  have hanswer : u.mctpAnswer (u.mailboxReq q) = some (.vendor 2 (s.ledgerBytes o n)) := by
    rw [hreq', hreq, ← hbytes, State.mctpAnswer_ledger hn]
  rw [if_neg (by omega), hanswer] at heq
  have hmessage : u.mailboxBytes (.vendor 2 (s.ledgerBytes o n)) = [0x7E, 0x3A, 0x1F, 2] ++ s.ledgerBytes o n := by
    rw [State.mailboxBytes, mailbox_header.1]
  dsimp only at heq
  rw [hmessage] at heq
  generalize hd : s.ledgerBytes o n = data at *
  obtain ⟨hevent, herror, hfld, hword, hkeep⟩ :=
    State.mailbox_replaced (hset.wf hwf) ([0x7E, 0x3A, 0x1F, 2] ++ data) (by simp; omega)
  refine ⟨_, (exec_mailboxGo h ctrl q).trans (congrArg Host.Outcome.next heq), hevent, herror, ?_, ?_, fun k hk => ?_, ?_⟩
  · rw [hfld, List.length_append, hlen, Nat.add_comm]
    rfl
  · have hfirst := hword 0 (by simp)
    rw [Nat.mul_zero, List.drop_zero, List.take_left' (by rfl), mailbox_header.2] at hfirst
    exact hfirst
  · rw [hword (k + 1) (by rw [List.length_append, hlen]; simp; omega), show 4 * (k + 1) = 4 + 4 * k by omega, ← List.drop_drop,
      List.drop_left' (by rfl), ← hd, s.ledgerBytes_part]
  · exact ((hset.evolves.widen (Q := .free :: Part.signalled) rfl).step hkeep rfl).keep

end

/-- Settles O49: the shutdown from its registers, the loss from what Off keeps, the mailbox word by word. -/
theorem lodgeProtectsAndAnswers : Obligations.LodgeProtectsAndAnswers := by
  refine ⟨fun s x hinv => ⟨fun hon hstep => ?_, fun hon => exec_lodgeStop hon, fun hoff => ?_⟩, fun s hinv => ?_⟩
  · obtain ⟨t, hexec, hruns⟩ := exec_answers s (.sensorSample x)
    have hseq := exec_sensorSample hon hstep x
    obtain rfl : t = _ := Host.Outcome.next.inj (hexec.symm.trans hseq)
    have hcross {i : Nat} (hi : i < 170) (h : s.crossed x = some i) := sample_crosses hinv.2 x hi h
    have hpass := sample_passes hinv.2 x
    have hledger := hruns.evolves.ledger
    dsimp only at hcross hpass
    generalize (s.beforeCompare x).compare x = t at *
    have htimes : t.regN Reg.LDG_UPTIME = (s.regN Reg.LDG_UPTIME + 100) % 2 ^ 64 ∧ t.hlt.powered = s.hlt.powered + 100 := by
      cases hc : s.crossed x with
      | none => exact ⟨(hpass hc).1, (hpass hc).2.1⟩
      | some i => exact ⟨(hcross (State.crossed_lt hc) hc).1, (hcross (State.crossed_lt hc) hc).2.1⟩
    exact ⟨t, hseq, htimes.1, htimes.2, hledger,
      fun i hi hat hfirst => (hcross hi (State.crossed_of_first hi hat hfirst)).2.2,
      fun hnone => (hpass (State.crossed_of_none hnone)).2.2⟩
  · exact ⟨congrArg Host.Outcome.next (if_neg (by simp [hoff])), congrArg Host.Outcome.next (if_neg (by simp [hoff]))⟩
  · exact ⟨fun a hon hstep => congrArg Host.Outcome.next (if_pos (by simp [hon, hstep])), i3c_answers,
      fun q hnone => congrArg Host.Outcome.next (if_neg (by simp [hnone])), fun o n h hn => (ledger_reads h o n).1 hn,
      fun o n h hn => (ledger_reads h o n).2 hn, s.mailboxReq_reads,
      fun ctrl q o n h hlo hhi hreq hn => mailboxGo_reads hinv.2 h ctrl q o n hlo hhi hreq hn,
      fun ctrl q h hbad => mailboxGo_refused hinv.2 h ctrl q hbad⟩

end Sys2Proof.Machine

/-! O50: the control period's operating points, droop, the cap and the stale mark (R347 to R356). -/

namespace Sys2Proof.Machine

set_option Elab.async false

section

variable {s : State}

/-! ## The hold of R350 -/

/-- A word put together bit by bit. -/
theorem foldl_bits (f : Nat → Bool) (n : Nat) :
    (List.range n).foldl (fun a c => a + (f c).toNat * 2 ^ c) 0 < 2 ^ n ∧
      ∀ i, ((List.range n).foldl (fun a c => a + (f c).toNat * 2 ^ c) 0).testBit i = (decide (i < n) && f i) := by
  induction n with
  | zero => exact ⟨Nat.one_pos, fun i => by simp⟩
  | succ n ih =>
    obtain ⟨hlt, hbit⟩ := ih
    rw [List.range_succ, List.foldl_append, List.foldl_cons, List.foldl_nil]
    generalize (List.range n).foldl (fun a c => a + (f c).toNat * 2 ^ c) 0 = v at *
    refine ⟨?_, fun i => ?_⟩
    · cases f n
      · simp only [Bool.toNat_false, Nat.zero_mul, Nat.pow_succ]
        omega
      · simp only [Bool.toNat_true, Nat.one_mul, Nat.pow_succ]
        omega
    · rw [Nat.add_comm, Nat.mul_comm, Nat.testBit_two_pow_mul_add _ hlt, hbit]
      by_cases hi : i < n
      · rw [if_pos hi, decide_eq_true hi, decide_eq_true (Nat.lt_succ_of_lt hi)]
      · rw [if_neg hi]
        by_cases heq : i = n
        · subst heq
          cases f i <;> simp
        · rw [decide_eq_false (show ¬i < n + 1 by omega), Bool.false_and]
          obtain ⟨j, hj⟩ : ∃ j, i - n = j + 1 := ⟨i - n - 1, by omega⟩
          rw [hj]
          cases f n <;> simp [Nat.testBit_succ]

theorem getLsbD_hotHold (old : BitVec 128) (temps : List Nat) {c : Nat} (hc : c < 128) :
    (hotHold old temps).getLsbD c = (decide (100 ≤ temps.getD c 0) || (old.getLsbD c && decide (97 < temps.getD c 0))) := by
  unfold hotHold
  rw [BitVec.getLsbD_ofNat, decide_eq_true hc, Bool.true_and, (foldl_bits _ 128).2 c, decide_eq_true hc, Bool.true_and]

/-! ## Operating points -/

/-- The store of the cores' steps. -/
theorem storeGet_zipIdx (steps : List Nat) :
    storeWf 0 (steps.zipIdx.foldl (fun m e => storeSet 0 m e.2 e.1) []) = true ∧
      ∀ c, storeGet 0 (steps.zipIdx.foldl (fun m e => storeSet 0 m e.2 e.1) []) c = steps.getD c 0 := by
  induction steps using List.reverseRecOn with
  | nil => exact ⟨rfl, fun c => rfl⟩
  | append_singleton steps f ih =>
    obtain ⟨hwf, hget⟩ := ih
    rw [List.zipIdx_append, List.foldl_append]
    generalize steps.zipIdx.foldl (fun m e => storeSet 0 m e.2 e.1) [] = m at *
    refine ⟨storeWf_storeSet 0 m _ f hwf, fun c => ?_⟩
    change storeGet 0 (storeSet 0 m (0 + steps.length) f) c = _
    rw [Nat.zero_add]
    rcases Nat.lt_trichotomy c steps.length with hc | hc | hc
    · rw [storeGet_storeSet_ne 0 _ _ _ _ (by omega), hget, List.getD_append _ _ _ _ hc]
    · subst hc
      rw [storeGet_storeSet_same 0 _ _ _ hwf, List.getD_append_right _ _ _ _ (Nat.le_refl _), Nat.sub_self]
      rfl
    · rw [storeGet_storeSet_ne 0 _ _ _ _ (by omega), hget, List.getD_eq_default _ _ (by omega),
        List.getD_eq_default _ _ (by simp; omega)]

/-- No core runs faster than the one that gives up 25 MHz. -/
theorem highest_max (steps : List Nat) (i : Nat) (hi : i < steps.length) :
    highest steps < steps.length ∧ steps.getD i 0 ≤ steps.getD (highest steps) 0 := by
  have hfold (n : Nat) : let b := (List.range n).foldl (fun b i => if steps.getD b 0 ≤ steps.getD i 0 then i else b) 0
      (b = 0 ∨ b < n) ∧ ∀ j, j < n → steps.getD j 0 ≤ steps.getD b 0 := by
    induction n with
    | zero => exact ⟨.inl rfl, fun j hj => absurd hj (Nat.not_lt_zero j)⟩
    | succ n ih =>
      rw [List.range_succ, List.foldl_append, List.foldl_cons, List.foldl_nil]
      generalize (List.range n).foldl (fun b i => if steps.getD b 0 ≤ steps.getD i 0 then i else b) 0 = b at *
      obtain ⟨hb, hmax⟩ := ih
      dsimp only
      split
      · next hle =>
        refine ⟨.inr (Nat.lt_succ_self n), fun j hj => ?_⟩
        rcases Nat.lt_succ_iff_lt_or_eq.mp hj with hlt | rfl
        · exact (hmax j hlt).trans hle
        · exact Nat.le_refl _
      · next hgt =>
        refine ⟨hb.imp id (Nat.lt_succ_of_lt ·), fun j hj => ?_⟩
        rcases Nat.lt_succ_iff_lt_or_eq.mp hj with hlt | rfl
        · exact hmax j hlt
        · exact Nat.le_of_not_le hgt
  obtain ⟨hb, hmax⟩ := hfold steps.length
  refine ⟨?_, hmax i hi⟩
  rcases hb with hb | hb
  · rw [highest, hb]
    omega
  · exact hb

theorem sum_set_pred (l : List Nat) (i : Nat) (hi : 0 < l.getD i 0) : (l.set i (l.getD i 0 - 1)).sum + 1 = l.sum := by
  induction l generalizing i with
  | nil => exact absurd hi (by simp)
  | cons a l ih =>
    cases i with
    | zero =>
      simp at hi ⊢
      omega
    | succ i =>
      have := ih i (by simpa using hi)
      simp at this ⊢
      omega

theorem getD_set_le (l : List Nat) (i c v : Nat) (hv : v ≤ l.getD i 0) : (l.set i v).getD c 0 ≤ l.getD c 0 := by
  rw [List.getD_eq_getElem?_getD, List.getElem?_set]
  split
  · next h =>
    subst h
    split
    · exact hv
    · exact Nat.zero_le _
  · rw [List.getD_eq_getElem?_getD]

/-- R348: 25 MHz at a time, until the budget fits or every core is at the schedule clock. -/
theorem State.fitBudget_fits (s : State) (fuel : Nat) (steps : List Nat) (hfuel : steps.sum ≤ fuel) :
    (s.fitBudget fuel steps).length = steps.length ∧ (∀ c, (s.fitBudget fuel steps).getD c 0 ≤ steps.getD c 0) ∧
      (s.budgetFits (s.fitBudget fuel steps) = true ∨ ∀ c, (s.fitBudget fuel steps).getD c 0 = 0) := by
  have hzero (l : List Nat) (h : ∀ x ∈ l, x = 0) (c : Nat) : l.getD c 0 = 0 := by
    rw [List.getD_eq_getElem?_getD]
    cases hc : l[c]? with
    | none => rfl
    | some x => exact h x (List.mem_of_getElem? hc)
  induction fuel generalizing steps with
  | zero =>
    have hall := List.sum_eq_zero_iff.mp (Nat.le_zero.mp hfuel)
    exact ⟨rfl, fun c => Nat.le_refl _, .inr (hzero steps hall)⟩
  | succ fuel ih =>
    rw [State.fitBudget]
    split
    · next hstop =>
      refine ⟨rfl, fun c => Nat.le_refl _, ?_⟩
      rcases Bool.or_eq_true_iff.mp hstop with hfits | hall
      · exact .inl hfits
      · exact .inr (hzero steps fun x hx => by simpa using List.all_eq_true.mp hall x hx)
    · next hgo =>
      have hpos : 0 < steps.getD (highest steps) 0 := by
        refine Nat.pos_of_ne_zero fun hnone => hgo ?_
        refine Bool.or_eq_true_iff.mpr (.inr (List.all_eq_true.mpr fun x hx => ?_))
        obtain ⟨i, hi, rfl⟩ := List.mem_iff_getElem.mp hx
        have hle := (highest_max steps i hi).2
        rw [List.getD_eq_getElem _ _ hi] at hle
        simp
        omega
      have hsum := sum_set_pred steps _ hpos
      obtain ⟨hlen, hle, hend⟩ := ih (steps.set (highest steps) (steps.getD (highest steps) 0 - 1)) (by omega)
      exact ⟨by rw [hlen, List.length_set], fun c => (hle c).trans (getD_set_le _ _ _ _ (Nat.sub_le _ _)), hend⟩

theorem topStep_le (hot : BitVec 128) (c : Nat) : topStep hot c ≤ 20 ∧ 2400 + 25 * topStep hot c ≤ Config.fusedMhz c ∧
    (hot.getLsbD c = true → topStep hot c = 0) := by
  unfold topStep Config.fusedMhz
  split
  · next h => exact ⟨by decide, by omega, fun _ => rfl⟩
  · next h => exact ⟨by omega, by omega, fun hhot => absurd hhot h⟩

theorem getD_topSteps (hot : BitVec 128) {c : Nat} (hc : c < 128) : ((List.range 128).map (topStep hot)).getD c 0 = topStep hot c := by
  rw [List.getD_eq_getElem _ _ (by simpa using hc)]
  simp

theorem sum_topSteps (hot : BitVec 128) : ((List.range 128).map (topStep hot)).sum ≤ 2560 := by
  refine (List.sum_le_card_nsmul _ 20 fun x hx => ?_).trans (by simp)
  obtain ⟨c, -, rfl⟩ := List.mem_map.mp hx
  exact (topStep_le hot c).1

/-- R348, R350, R356: the points of a control period. -/
theorem State.chooseSteps_fits (s : State) (hot : BitVec 128) : (s.chooseSteps hot).length = 128 ∧
    (∀ c, c < 128 → (s.chooseSteps hot).getD c 0 ≤ topStep hot c) ∧
    (s.jobLive = true → s.pwr.cap < s.capFloor → ∀ c, (s.chooseSteps hot).getD c 0 = 0) ∧
    (¬(s.jobLive = true ∧ s.pwr.cap < s.capFloor) →
      s.budgetFits (s.chooseSteps hot) = true ∨ ∀ c, (s.chooseSteps hot).getD c 0 = 0) := by
  unfold State.chooseSteps
  split
  · next hfloor =>
    have hzero (c : Nat) : (List.replicate 128 0).getD c 0 = 0 := by
      rw [List.getD_eq_getElem?_getD, List.getElem?_replicate]
      split <;> rfl
    exact ⟨List.length_replicate, fun c _ => by rw [hzero]; exact Nat.zero_le _, fun _ _ => hzero, fun hno => absurd hfloor hno⟩
  · next hroom =>
    obtain ⟨hlen, hle, hend⟩ := s.fitBudget_fits 2560 _ (sum_topSteps hot)
    exact ⟨by rw [hlen]; simp, fun c hc => by rw [← getD_topSteps hot hc]; exact hle c, fun hlive hcap => absurd ⟨hlive, hcap⟩ hroom,
      fun _ => hend⟩

/-- R348: every control period in A0. -/
theorem exec_powerControlPeriod (temps : List Nat) (hon : s.boot.powered = true) (hdomains : 2 ≤ s.boot.domains)
    (hps : s.ldg.ps = .a0) : ∃ t, exec (.powerControlPeriod temps) s = .next t ∧ t.pwr.hot = hotHold s.pwr.hot temps ∧
      (∀ c, t.freqStep c = (s.chooseSteps (hotHold s.pwr.hot temps)).getD c 0) ∧ s.touches t [.pwr, .hlt] [] := by
  obtain ⟨u, hu⟩ : ∃ u : State, u = { s with pwr := { s.pwr with
    hot := hotHold s.pwr.hot temps
    freq := (s.chooseSteps (hotHold s.pwr.hot temps)).zipIdx.foldl (fun m e => storeSet 0 m e.2 e.1) [] } } := ⟨_, rfl⟩
  have hset : Writes [.pwr] [] s u := by
    rw [hu]
    exact (s.evolves_pwr _).writes
  have hexec : exec (.powerControlPeriod temps) s = .next (u.countSteps (s.chooseSteps (hotHold s.pwr.hot temps))) := by
    rw [hu]
    exact congrArg Host.Outcome.next (if_pos (by simp [hon, hdomains, hps]))
  have hcount := u.countSteps_evolves (s.chooseSteps (hotHold s.pwr.hot temps))
  have hpwr : (u.countSteps (s.chooseSteps (hotHold s.pwr.hot temps))).pwr = u.pwr := hcount.keep .pwr (by decide)
  refine ⟨_, hexec, by rw [hpwr, hu], fun c => ?_,
    ((hset.widen (Q := [.pwr, .hlt]) (hl := fun _ h => h)).step hcount.writes).touches⟩
  rw [State.freqStep, hpwr, hu]
  exact (storeGet_zipIdx _).2 c

/-! ## Droop (R349) -/

theorem getLsbD_coreBit (c : Fin 128) (k : Nat) : (BitVec.ofNat 128 (2 ^ c.val)).getLsbD k = decide (k = c.val) := by
  rw [BitVec.getLsbD_ofNat, Nat.testBit_two_pow, Bool.eq_iff_iff]
  simp only [Bool.and_eq_true, decide_eq_true_eq]
  omega

theorem droop_trips (c : Fin 128) (hoff : s.pwr.droop.getLsbD c = false) : ∃ t, exec (.droopTrip c) s = .next t ∧
      t.pwr.droop.getLsbD c = true ∧ (∀ k : Fin 128, k ≠ c → t.pwr.droop.getLsbD k = s.pwr.droop.getLsbD k) ∧
      t.coreMhz c = (2400 + 25 * s.freqStep c) / 2 ∧ s.touches t [.pwr, .hlt] [] := by
  have hbit (k : Nat) : (s.pwr.droop ||| BitVec.ofNat 128 (2 ^ c.val)).getLsbD k = (s.pwr.droop.getLsbD k || decide (k = c.val)) := by
    rw [BitVec.getLsbD_or, getLsbD_coreBit]
  have hset := s.evolves_pwr { s.pwr with droop := s.pwr.droop ||| BitVec.ofNat 128 (2 ^ c.val) }
  refine ⟨_, congrArg Host.Outcome.next (if_neg fun h => Bool.noConfusion (hoff.symm.trans h)), (hbit c).trans (by simp), fun k hk => (hbit k).trans ?_, ?_,
    ((hset.writes.widen (Q := [.pwr, .hlt]) (hl := fun _ h => h)).step (State.live_writes _ _ _)).touches⟩
  · rw [decide_eq_false fun h => hk (Fin.ext h), Bool.or_false]
  · exact if_pos ((hbit c).trans (by simp))

theorem droop_releases (c : Fin 128) (n : Nat) (hon : s.pwr.droop.getLsbD c = true) : ∃ t, exec (.droopRelease c n) s = .next t ∧
      t.pwr.droop.getLsbD c = false ∧ t.coreMhz c = 2400 + 25 * s.freqStep c ∧ s.touches t [.pwr, .hlt] [] := by
  have hbit : (s.pwr.droop &&& ~~~(BitVec.ofNat 128 (2 ^ c.val))).getLsbD c = false := by
    rw [BitVec.getLsbD_and, BitVec.getLsbD_not, getLsbD_coreBit]
    simp
  have hset := s.evolves_pwr { s.pwr with droop := s.pwr.droop &&& ~~~(BitVec.ofNat 128 (2 ^ c.val)) }
  refine ⟨_, congrArg Host.Outcome.next (if_pos hon), hbit, ?_,
    ((hset.writes.widen (Q := [.pwr, .hlt]) (hl := fun _ h => h)).step (State.live_writes _ _ _)).touches⟩
  exact if_neg (by
    intro h
    exact Bool.noConfusion (hbit.symm.trans h))

/-! ## The cap and the stale mark (R351, R355) -/

theorem exec_capWrite (h : s.hosted) (v : Word) : exec (.capWrite v) s = .next (s.capWrite v.toNat) :=
  congrArg Host.Outcome.next (State.onHost_of_hosted h _)

/-- R351: a cap of the range is taken. -/
theorem cap_taken (h : s.hosted) (v : Word) (hlo : 1200 ≤ v.toNat % 4096) (hhi : v.toNat % 4096 ≤ 2300) (hfrozen : s.frozen 0 = false)
    (hroom : (queued s.sbk.queue).length < 16) : ∃ t, exec (.capWrite v) s = .next t ∧ (t.seed 0).toNat = v.toNat % 4096 ∧
        (∀ i, i ≠ 0 → t.seed i = s.seed i) ∧ t.pwr = s.pwr ∧ s.touches t [.sbk] [] := by
  have hset : s.capWrite v.toNat = { s with sbk := { s.sbk with
      queue := s.sbk.queue ++ [⟨[(0, BitVec.ofNat 32 (v.toNat % 4096))]⟩] } } := by
    unfold State.capWrite
    dsimp only
    rw [if_pos ⟨hlo, hhi⟩, State.seedAccept_taken hfrozen hroom]
  refine ⟨_, (exec_capWrite h v).trans (congrArg Host.Outcome.next hset), ?_, fun i hi => ?_, rfl, (s.evolves_queue _).writes.touches⟩
  · rw [s.seed_taken, if_pos rfl, BitVec.toNat_ofNat]
    omega
  · rw [s.seed_taken, if_neg hi]

end

/-- Settles O50: the points of a control period come from taking 25 MHz at a time. -/
theorem powerHolds : Obligations.PowerHolds := by
  intro s hinv
  refine ⟨fun temps hon hdomains hps => ?_, fun c hoff => droop_trips c hoff, fun c n hon => droop_releases c n hon,
    fun v h hout => ?_, fun v h hlo hhi hfrozen hroom => cap_taken h v hlo hhi hfrozen hroom, fun h hstale => ?_, fun h hstale => ?_⟩
  · obtain ⟨t, hexec, hhot, hfreq, htouch⟩ := exec_powerControlPeriod temps hon hdomains hps
    obtain ⟨hlen, hle, hfloor, hfits⟩ := s.chooseSteps_fits (hotHold s.pwr.hot temps)
    have htop (c : Nat) := topStep_le (hotHold s.pwr.hot temps) c
    have hmap : (List.range 128).map t.freqStep = s.chooseSteps (hotHold s.pwr.hot temps) := by
      refine List.ext_getElem (by simp [hlen]) fun c hc hc' => ?_
      simp [hfreq, hc']
    refine ⟨t, hexec, fun c hc => by rw [hhot, getLsbD_hotHold _ _ hc], fun c hc => ?_, fun hlive hcap c => by rw [hfreq, hfloor hlive hcap],
      fun hroom => ?_, htouch⟩
    · have hstep := hle c hc
      rw [← hfreq] at hstep
      obtain ⟨-, hmax, hheld⟩ := htop c
      exact ⟨by omega, fun hhold => by have := hheld (hhot ▸ hhold); omega⟩
    · rw [hmap]
      exact (hfits hroom).imp of_decide_eq_true fun hzero c _ => by rw [hfreq, hzero]
  · refine (exec_capWrite h v).trans (congrArg Host.Outcome.next (if_neg ?_))
    omega
  · refine ⟨_, congrArg Host.Outcome.next ((State.onHost_of_hosted h _).trans (if_pos hstale)), rfl, (s.evolves_pwr _).writes.touches⟩
  · exact congrArg Host.Outcome.next ((State.onHost_of_hosted h _).trans (if_neg (by simp [hstale])))

end Sys2Proof.Machine

/-! O51: writes of the seed bank, their wear, and the ledger's summaries and snapshots (R236, R298, R392 to R396, R400 to
R403). -/

namespace Sys2Proof.Machine

set_option Elab.async false

section

variable {s : State}

/-! ## Writes of the host (R392, R393) -/

theorem exec_seedWrite (h : s.hosted) (i : Fin 1024) (v : Word) : exec (.seedWrite i v) s = .next (s.seedWrite i v) :=
  congrArg Host.Outcome.next (State.onHost_of_hosted h _)

theorem and_low_mask {v m : Word} {n : Nat} (hm : m.toNat = 2 ^ n - 1) (hv : v.toNat < 2 ^ n) : v &&& m = v := by
  refine BitVec.eq_of_toNat_eq ?_
  rw [BitVec.toNat_and, hm, Nat.and_two_pow_sub_one_eq_mod, Nat.mod_eq_of_lt hv]

/-- R392: the registers that the host may write, and the values that they take. -/
theorem State.seedWrite_accepted (i : Nat) (v : Word) (h : 512 ≤ i ∨ (i = 1 ∧ 80 ≤ v.toNat ∧ v.toNat ≤ 100) ∨
    (i = 2 ∧ v.toNat < 65536) ∨ (16 ≤ i ∧ i < 32 ∧ lanePermutation v = true)) : s.seedWrite i v = s.seedAccept i v := by
  unfold State.seedWrite
  rcases h with h | ⟨rfl, hlo, hhi⟩ | ⟨rfl, hv⟩ | ⟨hlo, hhi, hperm⟩
  · rw [if_neg (by omega), if_neg (by omega), if_neg (by omega), if_neg (by omega), if_neg (by omega), if_pos h]
  · rw [if_neg (by decide), if_pos rfl, State.thermWrite, if_pos (by omega), and_low_mask (n := 8) rfl (by omega)]
  · rw [if_neg (by decide), if_neg (by decide), if_pos rfl, and_low_mask (n := 16) rfl hv]
  · rw [if_neg (by omega), if_neg (by omega), if_neg (by omega), if_neg (by omega), if_pos ⟨hlo, hhi⟩, State.laneMapWrite,
      if_pos hperm, Nat.add_sub_cancel' hlo]

/-- R392: every other write is ignored. -/
theorem State.seedWrite_ignored (i : Nat) (v : Word) (h : (3 ≤ i ∧ i < 8) ∨ (32 ≤ i ∧ i < 512) ∨
    (i = 1 ∧ (v.toNat % 256 < 80 ∨ 100 < v.toNat % 256)) ∨ (16 ≤ i ∧ i < 32 ∧ lanePermutation v = false)) : s.seedWrite i v = s := by
  unfold State.seedWrite
  rcases h with h | h | ⟨rfl, hv⟩ | ⟨hlo, hhi, hperm⟩
  · rw [if_neg (by omega), if_neg (by omega), if_neg (by omega), if_neg (by omega), if_neg (by omega), if_neg (by omega)]
  · rw [if_neg (by omega), if_neg (by omega), if_neg (by omega), if_neg (by omega), if_neg (by omega), if_neg (by omega)]
  · rw [if_neg (by decide), if_pos rfl, State.thermWrite, if_neg (by omega)]
  · rw [if_neg (by omega), if_neg (by omega), if_neg (by omega), if_neg (by omega), if_pos ⟨hlo, hhi⟩, State.laneMapWrite,
      if_neg (by simp [hperm])]

theorem State.frozenHit_shows (hwf : storeWf 0 s.regs = true) (i : Nat) : (s.frozenHit i).bit Reg.SBK_FROZEN 0 = true := by
  have hset := s.setBit_writes Reg.SBK_FROZEN 0 true
  have hbit := s.bit_setBit Reg.SBK_FROZEN 0 true hwf (by decide)
  unfold State.frozenHit
  dsimp only
  generalize s.setBit Reg.SBK_FROZEN 0 true = u at *
  have hwfu := hset.wf hwf
  split
  · exact hbit
  · have hfirst := (u.bit_setFld_ne Reg.SBK_FROZEN (hi := 25) (lo := 16) i (i := 0) hwfu (by decide) (by decide)).trans hbit
    have hwfw := (u.setFld_writes Reg.SBK_FROZEN 25 16 i).wf hwfu
    generalize u.setFld Reg.SBK_FROZEN 25 16 i = w at *
    exact (w.bit_setFld_ne Reg.SBK_FROZEN _ hwfw (by decide) (by decide)).trans hfirst

/-- R393: a write of the host is queued, or refused by a full queue or a frozen register. -/
theorem seedAccept_answers (hwf : storeWf 0 s.regs = true) (i : Nat) (v : Word) :
    (s.frozen i = false → (queued s.sbk.queue).length < 16 → (s.seedAccept i v).seed i = v ∧
      (∀ j, j ≠ i → (s.seedAccept i v).seed j = s.seed j) ∧
      (s.seedAccept i v).sbk.queue = s.sbk.queue ++ [⟨[(i, v)]⟩] ∧ s.touches (s.seedAccept i v) [.sbk] []) ∧
    (s.frozen i = false → 16 ≤ (queued s.sbk.queue).length → (s.seedAccept i v).bit Reg.SBK_EVENT 2 = true ∧
      s.touches (s.seedAccept i v) Part.signalled [Reg.SBK_EVENT]) ∧
    (s.frozen i = true → (s.seedAccept i v).bit Reg.SBK_FROZEN 0 = true ∧
      s.touches (s.seedAccept i v) [.regs] [Reg.SBK_FROZEN]) := by
  refine ⟨fun hfree hroom => ?_, fun hfree hfull => ?_, fun hfrozen => ?_⟩
  · rw [State.seedAccept_taken hfree hroom]
    exact ⟨by rw [s.seed_taken, if_pos rfl], fun j hj => by rw [s.seed_taken, if_neg hj], rfl, (s.evolves_queue _).writes.touches⟩
  · rw [State.seedAccept, hfree, if_neg Bool.false_ne_true, if_pos hfull]
    exact ⟨s.bit_event _ _ hwf (by decide), (s.event_writes _ _).touches⟩
  · rw [State.seedAccept, if_pos hfrozen]
    exact ⟨State.frozenHit_shows hwf i, (s.frozenHit_writes i).touches⟩

/-! ## Persisting (R394, R395, R396) -/

theorem State.dropFrozen_writes (s : State) (i : Nat) : Writes [.regs, .sbk] [Reg.SBK_FROZEN] s (s.dropFrozen i) := by
  have htake := (s.evolves_queue (s.sbk.queue.filter fun e => !(e.writes.any fun w => decide (w.1 = i)))).writes
  unfold State.dropFrozen
  dsimp only
  split
  · exact (htake.widen (hl := fun _ h => absurd h List.not_mem_nil)).step (State.frozenHit_writes _ i)
  · exact htake.widen (hl := fun _ h => absurd h List.not_mem_nil)

/-- What one write of the seed bank leaves: its value, its wear, and what its wear tells. -/
theorem State.persistOne_shows (hwf : storeWf 0 s.regs = true) (hvals : storeWf 0 s.sbk.vals = true) (i : Nat) (v : Word) :
    let t := s.persistOne i v;
    t.wear i = s.wear i + 1 ∧ (∀ j, j ≠ i → t.wear j = s.wear j) ∧ t.seedStored i = v ∧
      (s.wear i + 1 ≠ 200000 → t.sbk.queue = s.sbk.queue) ∧ (s.wear i + 1 = 180000 → t.bit Reg.SBK_EVENT 0 = true) ∧
      (s.wear i + 1 = 200000 → t.bit Reg.SBK_EVENT 1 = true ∧ t.frozen i = true ∧
        ∀ e ∈ t.sbk.queue, ∀ w ∈ e.writes, w.1 ≠ i) ∧
      Evolves ([.sbk, .hlt] ++ Part.signalled) s t := by
  obtain ⟨u, hu⟩ : ∃ u : State, u = { s with sbk := { s.sbk with
    vals := storeSet 0 s.sbk.vals i v, wear := storeSet 0 s.sbk.wear i (s.wear i + 1) } } := ⟨_, rfl⟩
  have hcount : Evolves [.sbk] s u := by
    rw [hu]
    exact Evolves.worn s i _
  have hwfu := hcount.regs hwf
  have hqueue : u.sbk.queue = s.sbk.queue := by rw [hu]
  have hwear : u.wear i = s.wear i + 1 := by
    rw [hu]
    exact storeGet_storeSet_new 0 _ _ _ (Nat.succ_ne_zero _)
  have hother (j : Nat) (hj : j ≠ i) : u.wear j = s.wear j := by
    rw [hu]
    exact storeGet_storeSet_ne 0 _ _ _ _ hj
  have hstored : storeGet 0 u.sbk.vals i = v := by
    rw [hu]
    exact storeGet_storeSet_same 0 _ _ _ hvals
  have hvalue {t : State} (hv : t.sbk.vals = u.sbk.vals) (hw : t.sbk.wear = u.sbk.wear) : t.wear i = s.wear i + 1 ∧
      (∀ j, j ≠ i → t.wear j = s.wear j) ∧ t.seedStored i = v := by
    have hkept (j : Nat) : t.wear j = u.wear j := by rw [State.wear, State.wear, hw]
    refine ⟨(hkept i).trans hwear, fun j hj => (hkept j).trans (hother j hj), ?_⟩
    rw [State.seedStored, hkept, hwear, if_neg (Nat.succ_ne_zero _), hv, hstored]
  have htell (k detail : Nat) (hk : k < 64) :
      ((u.event Reg.SBK_EVENT k).ledgerEvent 0x0A 0 i detail []).bit Reg.SBK_EVENT k = true ∧
      ((u.event Reg.SBK_EVENT k).ledgerEvent 0x0A 0 i detail []).sbk = u.sbk ∧
      Evolves ([.sbk, .hlt] ++ Part.signalled) s ((u.event Reg.SBK_EVENT k).ledgerEvent 0x0A 0 i detail []) := by
    have hevent := u.event_writes Reg.SBK_EVENT k
    have hbit := u.bit_event Reg.SBK_EVENT k hwfu hk
    generalize u.event Reg.SBK_EVENT k = w at *
    have hrecord := w.ledgerEvent_writes 0x0A 0 i detail []
    have hsbk : w.sbk = u.sbk := hevent.evolves.keep .sbk (by decide)
    exact ⟨(hrecord.bit (by decide) k).trans hbit, Eq.trans (hrecord.evolves.keep .sbk (by decide)) hsbk,
      ((hcount.widen rfl).step hevent.evolves rfl).step hrecord.evolves rfl⟩
  unfold State.persistOne
  dsimp only
  rw [← hu]
  split
  · next h =>
    obtain ⟨hbit, hsbk, hlaw⟩ := htell 0 0 (by decide)
    generalize (u.event Reg.SBK_EVENT 0).ledgerEvent 0x0A 0 i 0 [] = t at *
    obtain ⟨h1, h2, h3⟩ := hvalue (t := t) (by rw [hsbk]) (by rw [hsbk])
    exact ⟨h1, h2, h3, fun _ => by rw [hsbk, hqueue], fun _ => hbit, fun hfreeze => absurd hfreeze (by omega), hlaw⟩
  · next hno =>
    split
    · next h =>
      obtain ⟨hbit, hsbk, hlaw⟩ := htell 1 1 (by decide)
      generalize (u.event Reg.SBK_EVENT 1).ledgerEvent 0x0A 0 i 1 [] = w at *
      have hdrop := w.dropFrozen_sbk i
      have hwrites := w.dropFrozen_writes i
      generalize w.dropFrozen i = t at *
      obtain ⟨h1, h2, h3⟩ := hvalue (t := t) (by rw [hdrop, hsbk]) (by rw [hdrop, hsbk])
      refine ⟨h1, h2, h3, fun hne => absurd h hne, fun hwarn => absurd hwarn hno, fun _ => ⟨(hwrites.bit (by decide) 1).trans hbit,
        decide_eq_true (by omega), fun e he x hx => ?_⟩, hlaw.step hwrites.evolves rfl⟩
      rw [hdrop] at he
      have hnone := (List.mem_filter.mp he).2
      intro hxi
      have hany : (e.writes.any fun w => decide (w.1 = i)) = true := List.any_eq_true.mpr ⟨x, hx, by simpa using hxi⟩
      rw [hany] at hnone
      exact Bool.noConfusion hnone
    · next hne =>
      obtain ⟨h1, h2, h3⟩ := hvalue (t := u) rfl rfl
      exact ⟨h1, h2, h3, fun _ => hqueue, fun hwarn => absurd hwarn hno, fun hfreeze => absurd hfreeze hne, hcount.widen rfl⟩

/-- R394: the oldest write is persisted. -/
theorem exec_seedWritePersist (hwf : storeWf 0 s.regs = true) {i : Nat} {v : Word} {rest : List SeedEntry}
    (hon : s.boot.powered = true) (hqueue : s.sbk.queue = ⟨[(i, v)]⟩ :: rest) (hi : i ≠ 0) (hvals : storeWf 0 s.sbk.vals = true) :
    ∃ t, exec .seedWritePersist s = .next t ∧ t.wear i = s.wear i + 1 ∧ (∀ j, j ≠ i → t.wear j = s.wear j) ∧
         t.seedStored i = v ∧ (s.wear i + 1 ≠ 200000 → t.sbk.queue = rest) ∧
         (s.wear i + 1 = 180000 → t.bit Reg.SBK_EVENT 0 = true) ∧
         (s.wear i + 1 = 200000 → t.bit Reg.SBK_EVENT 1 = true ∧ t.frozen i = true ∧
           ∀ e ∈ t.sbk.queue, ∀ w ∈ e.writes, w.1 ≠ i) ∧
         s.keeps t ([.sbk, .hlt] ++ Part.signalled) ∧ s.sameBytes t := by
  obtain ⟨u, hu⟩ : ∃ u : State, u = { s with sbk := { s.sbk with queue := rest } } := ⟨_, rfl⟩
  have hpersist : s.seedPersist = u.persistOne i v := by
    unfold State.seedPersist
    rw [hqueue]
    dsimp only
    rw [← hu, if_neg (by simpa using hi)]
    rfl
  have htake : Evolves [.sbk] s u := by
    rw [hu]
    exact s.evolves_queue rest
  have hwear (j : Nat) : u.wear j = s.wear j := by rw [hu]; rfl
  obtain ⟨hone, hother, hstored, hkeep, hwarn, hfreeze, hlaw⟩ :=
    State.persistOne_shows (htake.regs hwf) (show storeWf 0 u.sbk.vals = true by rw [hu]; exact hvals) i v
  rw [hwear] at hone hkeep hwarn hfreeze
  have hall : Evolves ([.sbk, .hlt] ++ Part.signalled) s (u.persistOne i v) := (htake.widen rfl).step hlaw rfl
  exact ⟨u.persistOne i v, (congrArg Host.Outcome.next (if_pos hon)).trans (congrArg Host.Outcome.next hpersist), hone,
    fun j hj => (hother j hj).trans (hwear j), hstored, fun h => (hkeep h).trans (by rw [hu]), hwarn, hfreeze, hall.keep,
    hall.sameBytes⟩

/-! ## The ledger (R400 to R403) -/

/-- A record that has its place. -/
theorem State.ledgerWrite_shows (s : State) (ty len : Nat) (body : List Byte) : let t := s.ledgerWrite ty 2 len body;
    t.hlt.tail = s.hlt.tail + len ∧ t.hlt.records = s.hlt.records + 1 ∧ t.hlt.live = s.hlt.live ∧
      t.hlt.scanDue = s.hlt.scanDue := by
  have hevent (u : State) (c : Prop) [Decidable c] (k : Nat) : (if c then u.event Reg.HLT_EVENT k else u).hlt = u.hlt := by
    split
    · exact (u.event_evolves Reg.HLT_EVENT k).keep .hlt (by decide)
    · rfl
  unfold State.ledgerWrite
  dsimp only
  rw [hevent, hevent, hevent]
  exact ⟨rfl, rfl, rfl, rfl⟩

/-- The ledger has room for a summary. -/
theorem State.appendSummary_room (s : State) (hroom : s.hlt.tail + 4096 ≤ 16777216) : let t := s.appendSummary;
    t.hlt.tail = s.hlt.tail + 4096 ∧ t.hlt.records = s.hlt.records + 1 ∧ t.hlt.lastSummary = s.hlt.powered ∧
      (∀ k, 0x800 ≤ k → storeGet 0 t.hlt.live k = 0) ∧ (∀ k, k < 0x800 → storeGet 0 t.hlt.live k = storeGet 0 s.hlt.live k) ∧
      t.hlt.scanDue = s.hlt.scanDue ∧ Writes (.hlt :: Part.signalled) [Reg.HLT_EVENT] s t := by
  have happend : s.ledgerAppend 0x01 2 4096 s.summaryBody = s.ledgerWrite 0x01 2 4096 s.summaryBody := by
    unfold State.ledgerAppend
    rw [if_neg (by simp), if_neg ?_]
    rintro (h | ⟨-, h⟩)
    · unfold ledgerSize at h
      omega
    · exact Bool.noConfusion (h.symm.trans (by decide : reserveType 0x01 = true))
  obtain ⟨htail, hrecords, hlive, hscan⟩ := s.ledgerWrite_shows 0x01 4096 s.summaryBody
  have hpowered := s.powered_ledgerWrite 0x01 2 4096 s.summaryBody
  have hwrites := s.ledgerWrite_writes 0x01 2 4096 s.summaryBody
  have hlaw := s.appendSummary_evolves
  unfold State.appendSummary at hlaw ⊢
  rw [happend] at hlaw ⊢
  generalize s.ledgerWrite 0x01 2 4096 s.summaryBody = u at *
  dsimp only at hlaw ⊢
  rw [if_neg (by omega)] at hlaw ⊢
  refine ⟨htail, hrecords, hpowered, fun k hk => ?_, fun k hk => ?_, hscan, hlaw.widen rfl, fun o ho => hwrites.regs o ho⟩
  · exact (storeGet_storeDrop 0 u.hlt.live (fun k => decide (0x800 ≤ k)) k).trans (if_pos (decide_eq_true hk))
  · refine (storeGet_storeDrop 0 u.hlt.live (fun k => decide (0x800 ≤ k)) k).trans ((if_neg (by simpa using hk)).trans ?_)
    rw [hlive]

/-- R398: a ledger that is full loses the summary. -/
theorem State.appendSummary_full (s : State) (hfull : 16777216 < s.hlt.tail + 4096) : s.appendSummary = s.ledgerLost := by
  have happend : s.ledgerAppend 0x01 2 4096 s.summaryBody = s.ledgerLost := by
    unfold State.ledgerAppend
    rw [if_neg (by simp), if_pos (.inl hfull)]
  have hlost : s.ledgerLost.hlt = s.hlt := rfl
  unfold State.appendSummary
  rw [happend]
  dsimp only
  rw [if_pos (congrArg Ledger.records hlost)]

theorem State.appendScan_none (h : s.hlt.scanDue = false) : s.appendScan = s := if_neg (by simp [h])

/-- R401: the weekly summary. -/
theorem exec_weeklySummary (hwf : storeWf 0 s.regs = true) (hon : s.boot.powered = true) (hscan : s.hlt.scanDue = false) :
    (s.hlt.tail + 4096 ≤ 16777216 → ∃ t, exec .weeklySummary s = .next t ∧
       t.hlt.tail = s.hlt.tail + 4096 ∧ t.hlt.records = s.hlt.records + 1 ∧ t.hlt.lastSummary = s.hlt.powered ∧
       (∀ k, 0x800 ≤ k → storeGet 0 t.hlt.live k = 0) ∧ (∀ k, k < 0x800 → storeGet 0 t.hlt.live k = storeGet 0 s.hlt.live k) ∧
       s.hlt.grows t.hlt ∧ s.touches t (.hlt :: Part.signalled) [Reg.HLT_EVENT]) ∧
    (16777216 < s.hlt.tail + 4096 → ∃ t, exec .weeklySummary s = .next t ∧
       t.hlt = s.hlt ∧ t.regN Reg.HLT_LOST = min (s.regN Reg.HLT_LOST + 1) (2 ^ 32 - 1) ∧
       s.touches t [.regs] [Reg.HLT_LOST]) := by
  have hexec : exec .weeklySummary s = .next s.appendSummary.appendScan := congrArg Host.Outcome.next (if_pos hon)
  refine ⟨fun hroom => ?_, fun hfull => ?_⟩
  · obtain ⟨htail, hrecords, hlast, hhigh, hlow, hdue, hlaw⟩ := s.appendSummary_room hroom
    rw [State.appendScan_none (hdue.trans hscan)] at hexec
    exact ⟨_, hexec, htail, hrecords, hlast, hhigh, hlow, hlaw.evolves.ledger, hlaw.touches⟩
  · have hlost : s.ledgerLost.hlt = s.hlt := rfl
    rw [s.appendSummary_full hfull, State.appendScan_none (hlost ▸ hscan)] at hexec
    exact ⟨_, hexec, hlost, s.regN_count _ 32 1 hwf (by decide), s.ledgerLost_writes.touches⟩

/-- The ledger's other fields are free to change. -/
theorem State.evolves_hlt {l : Ledger} (hbytes : l.bytes = s.hlt.bytes) (htail : l.tail = s.hlt.tail)
    (hrecords : l.records = s.hlt.records) : Evolves [.hlt] s { s with hlt := l } :=
  ⟨fun p hp => by
    cases p
    case hlt => exact absurd (List.mem_singleton_self _) hp
    all_goals rfl, id, id, List.prefix_refl _, fun _ => Nat.le_refl _, Nat.le_of_eq htail.symm, Nat.le_of_eq hrecords.symm,
    fun k _ => congrArg (fun b => storeGet 0 b k) hbytes⟩

/-- R403: a copy of the summary is ready. -/
theorem exec_hltSnapDone (hwf : storeWf 0 s.regs = true) (hbusy : s.hlt.snapBusy = true) : ∃ t, exec .hltSnapDone s = .next t ∧
    t.hlt.snapBusy = false ∧ (∀ k, storeGet 0 t.hlt.snap k = s.snapshotBytes.getD k 0) ∧ t.hlt.bytes = s.hlt.bytes ∧
    t.hlt.tail = s.hlt.tail ∧ t.bit Reg.HLT_EVENT 3 = true ∧ s.touches t (.hlt :: Part.signalled) [Reg.HLT_EVENT] := by
  have hexec : exec .hltSnapDone s = .next (({ s with hlt := { s.hlt with
      snapBusy := false, snap := storeSetMany 0 [] 0 s.snapshotBytes } } : State).event Reg.HLT_EVENT 3) :=
    congrArg Host.Outcome.next (if_pos hbusy)
  generalize hm : storeSetMany 0 [] 0 s.snapshotBytes = m at hexec
  obtain ⟨l, hl⟩ : ∃ l : Ledger, l = { s.hlt with snapBusy := false, snap := m } := ⟨_, rfl⟩
  obtain ⟨hnot, hsnap, hbytes, htail, hrecords⟩ : l.snapBusy = false ∧ l.snap = m ∧ l.bytes = s.hlt.bytes ∧
      l.tail = s.hlt.tail ∧ l.records = s.hlt.records := by
    rw [hl]
    exact ⟨rfl, rfl, rfl, rfl, rfl⟩
  rw [← hl] at hexec
  clear hl
  have hcopy := (s.evolves_hlt hbytes htail hrecords).writes
  obtain ⟨u, hu⟩ : ∃ u : State, u = { s with hlt := l } := ⟨_, rfl⟩
  have hparts : u.hlt = l := by rw [hu]
  rw [← hu] at hexec hcopy
  clear hu
  have hevent := u.event_writes Reg.HLT_EVENT 3
  have hhlt : (u.event Reg.HLT_EVENT 3).hlt = u.hlt := hevent.evolves.keep .hlt (by decide)
  refine ⟨_, hexec, by rw [hhlt, hparts, hnot], fun k => ?_, by rw [hhlt, hparts, hbytes], by rw [hhlt, hparts, htail], u.bit_event _ _ (hcopy.wf hwf) (by decide),
    ((hcopy.widen (Q := .hlt :: Part.signalled) (M := [Reg.HLT_EVENT])).step hevent).touches⟩
  rw [hhlt, hparts, hsnap, ← hm]
  generalize s.snapshotBytes = bs
  rcases Nat.lt_or_ge k bs.length with hk | hk
  · have hin := storeGet_storeSetMany_inside 0 bs [] 0 k rfl hk
    rwa [Nat.zero_add] at hin
  · rw [storeGet_storeSetMany_above 0 bs [] 0 k (by omega), List.getD_eq_default _ _ hk]
    rfl

end

/-- Settles O51: one write of the seed bank and one record of the ledger at a time. -/
theorem seedAndLedgerPersist : Obligations.SeedAndLedgerPersist := by
  refine ⟨fun s hinv => ⟨fun i v h hval => ?_, fun i v h hval => ?_, fun i v rest hon hqueue hi hvals =>
    exec_seedWritePersist hinv.2 hon hqueue hi hvals⟩, fun s hinv => ⟨fun hon hscan => (exec_weeklySummary hinv.2 hon hscan).1,
    fun hon hscan => (exec_weeklySummary hinv.2 hon hscan).2, fun hon => congrArg Host.Outcome.next (if_pos hon), fun h => ?_,
    fun hidle => congrArg Host.Outcome.next (if_neg (by simp [hidle])), exec_hltSnapDone hinv.2⟩⟩
  · have hexec := (exec_seedWrite h i v).trans (congrArg Host.Outcome.next (State.seedWrite_accepted i.val v hval))
    obtain ⟨htaken, hfull, hfrozen⟩ := seedAccept_answers hinv.2 i.val v
    exact ⟨fun hfree hroom => ⟨_, hexec, htaken hfree hroom⟩, fun hfree hlong => ⟨_, hexec, hfull hfree hlong⟩,
      fun hbar => ⟨_, hexec, hfrozen hbar⟩⟩
  · exact (exec_seedWrite h i v).trans (congrArg Host.Outcome.next (State.seedWrite_ignored i.val v hval))
  · refine (congrArg Host.Outcome.next (State.onLodge_of_hosted h _)).trans (congrArg Host.Outcome.next ?_)
    unfold State.hltSnap
    split
    · next hbusy => rw [← hbusy]
    · rfl

end Sys2Proof.Machine

/-! O52: Belvedere snapshots, marks, and the trace rings (R409 to R417). -/

namespace Sys2Proof.Machine

set_option Elab.async false

section

variable {s : State}

/-! ## Snapshots and marks -/

/-- R409: what a copy of the counters leaves. -/
theorem State.belSnapNow_copies (s : State) : s.belSnapNow.bel.snap = s.bel.cnt ∧ s.belSnapNow.bel.cnt = s.bel.cnt ∧
    s.belSnapNow.bel.snapBusy = true ∧ s.touches s.belSnapNow [.regs, .bel] [Reg.BEL_SNAP_TICK] := by
  have hstamp := s.setRegN_writes Reg.BEL_SNAP_TICK s.stampTick
  exact ⟨rfl, rfl, rfl, ((hstamp.widen (Q := [.regs, .bel]) (M := [Reg.BEL_SNAP_TICK])).step (State.evolves_bel _ _).writes).touches⟩

theorem State.belSnap_idle (h : s.bel.snapBusy = false) : s.belSnap = s.belSnapNow := if_neg (by simp [h])

theorem State.belSnapEdge_idle (h : s.bel.snapBusy = false) (hrun : s.image.st ≠ .running) : s.belSnapEdge = s.belSnapNow := by
  unfold State.belSnapEdge
  rw [if_neg (by simp [h]), if_neg hrun]

theorem exec_belSnap (h : s.hosted) : exec .belSnap s = .next s.belSnap := congrArg Host.Outcome.next (State.onHost_of_hosted h _)

theorem exec_belSnapAtEdge (h : s.hosted) : exec .belSnapAtEdge s = .next s.belSnapEdge :=
  congrArg Host.Outcome.next (State.onHost_of_hosted h _)

/-- R409: a snapshot that is done shows its cycle. -/
theorem exec_belSnapDone (hwf : storeWf 0 s.regs = true) (n : Nat) (hbusy : s.bel.snapBusy = true)
    (hedge : s.bel.snapAtEdge = false) : ∃ t, exec (.belSnapDone n) s = .next t ∧
      t.bel = { s.bel with snapBusy := false } ∧ t.regN Reg.BEL_SNAP_CYCLE = n % 2 ^ 25 ∧ t.bit Reg.BEL_EVENT 0 = true ∧
      s.touches t (.bel :: Part.signalled) [Reg.BEL_SNAP_CYCLE, Reg.BEL_EVENT] := by
  obtain ⟨u, hu⟩ : ∃ u : State, u = { s with bel := { s.bel with snapBusy := false } } := ⟨_, rfl⟩
  have hexec : exec (.belSnapDone n) s = .next ((u.setRegN Reg.BEL_SNAP_CYCLE (n % 2 ^ 25)).event Reg.BEL_EVENT 0) := by
    rw [hu]
    exact congrArg Host.Outcome.next (if_pos (by simp [hbusy, hedge]))
  have hdone : Writes [.bel] [] s u := by
    rw [hu]
    exact (s.evolves_bel _).writes
  have hbel : u.bel = { s.bel with snapBusy := false } := by rw [hu]
  clear hu
  have hcycle := u.setRegN_writes Reg.BEL_SNAP_CYCLE (n % 2 ^ 25)
  have hshow := u.regN_setRegN Reg.BEL_SNAP_CYCLE (n % 2 ^ 25) (hdone.wf hwf) (by omega)
  have hkeep : (u.setRegN Reg.BEL_SNAP_CYCLE (n % 2 ^ 25)).bel = u.bel := hcycle.evolves.keep .bel (by decide)
  generalize u.setRegN Reg.BEL_SNAP_CYCLE (n % 2 ^ 25) = w at *
  have hevent := w.event_writes Reg.BEL_EVENT 0
  have hkeep' : (w.event Reg.BEL_EVENT 0).bel = w.bel := hevent.evolves.keep .bel (by decide)
  exact ⟨_, hexec, by rw [hkeep', hkeep, hbel], (hevent.regN (by decide)).trans hshow,
    w.bit_event _ _ (hcycle.wf (hdone.wf hwf)) (by decide),
    (((hdone.widen (Q := .bel :: Part.signalled) (M := [Reg.BEL_SNAP_CYCLE, Reg.BEL_EVENT])).step hcycle).step hevent).touches⟩

/-- R411: a mark is a record in the ring of die 0. -/
theorem belMark_records (h : s.hosted) (v : DWord) (hen : s.bit Reg.BEL_TRACE_EN 0x14 = true) (hnone : (s.ring 0).inflight = []) :
    ∃ t r, exec (.belMark v) s = .next t ∧ (t.ring 0).inflight = [r] ∧ r.code = 0x14 ∧ r.payload = v.toNat ∧
        r.tick = s.stampTick ∧ s.touches t [.free, .bel] [] := by
  obtain ⟨rec, hrec⟩ : ∃ rec : TraceRec, rec = ⟨0, s.stampTick, s.fresh.toNat % 2 ^ 25, 0x14, 0, v.toNat⟩ := ⟨_, rfl⟩
  have htrace : s.trace 0 0x14 0 v.toNat = (s.setRing 0 { s.ring 0 with inflight := [rec] }).used := by
    rw [hrec]
    unfold State.trace
    rw [if_pos hen]
    dsimp only
    have hnil : (s.ring ((0 : Fin 2) : Nat)).inflight = [] := hnone
    rw [if_neg (by simp [hnone]), hnil]
    rfl
  have hring : ((s.setRing 0 { s.ring 0 with inflight := [rec] }).used.ring 0) = { s.ring 0 with inflight := [rec] } :=
    storeGet_storeSet_new _ _ _ _ fun heq => absurd (congrArg TraceRing.inflight heq) (List.cons_ne_nil _ _)
  refine ⟨_, rec, (congrArg Host.Outcome.next (State.onHost_of_hosted h _)).trans (congrArg Host.Outcome.next htrace),
    by rw [hring], by rw [hrec], by rw [hrec], by rw [hrec], ?_⟩
  exact (((s.evolves_bel _).writes.widen (Q := [.free, .bel]) (hl := fun _ h => h)).step (State.used_evolves _).writes).touches

/-! ## Rings -/

/-- R413: a group that is gathered goes to HBM. -/
theorem traceGroupFlush_writes (d : Fin 2) {g : TraceRec} {gs : List TraceRec} (hgroup : (s.ring d).group = g :: gs)
    (hawake : s.asleep = false) (hhost : s.bit (Reg.BEL_RING_CTRL + ringOff d) 1 = false) :
    ∃ t, exec (.traceGroupFlush d false) s = .next t ∧
        (∀ a, t.devByte a = (s.devWrite .window (s.regN (Reg.BEL_RING_BASE + ringOff d) +
          (s.ringTail d - 32 * (g :: gs).length) % s.ringSize d)
          (groupBytes (s.ringSize d) (s.ringTail d - 32 * (g :: gs).length) (g :: gs))).devByte a) ∧
        s.keeps t ([.mem, .hbm, .bel] ++ Part.signalled) := by
  have hlaw := s.writeGroup_evolves d false
  have hwrite : s.writeGroup d false = (s.setRing d { s.ring d with group := [] }).devWrite .window
      (s.regN (Reg.BEL_RING_BASE + ringOff d) + (s.ringTail d - 32 * (g :: gs).length) % s.ringSize d)
      (groupBytes (s.ringSize d) (s.ringTail d - 32 * (g :: gs).length) (g :: gs)) := by
    unfold State.writeGroup
    dsimp only
    rw [hgroup, hhost, if_neg (by simp), if_neg (by simp [hawake]), if_neg (by simp)]
  refine ⟨_, congrArg Host.Outcome.next hwrite, fun a => ?_, ?_⟩
  · exact ((s.evolves_bel _).memAgrees.devWrite _ _ _).sameBytes a
  · rw [hwrite] at hlaw
    exact (hlaw.widen rfl).keep

/-- The ring of a die, once it is set. -/
theorem State.ring_setRing (hwf : storeWf {} s.bel.rings = true) (d : Nat) (r : TraceRing) : (s.setRing d r).ring d = r :=
  storeGet_storeSet_same _ _ _ _ hwf

theorem ring_registers_apart : ∀ d : Fin 2, Reg.BEL_RING_HEAD + ringOff d ∉ [Reg.BEL_RING_TAIL + ringOff d,
    Reg.BEL_RING_RECORDS + ringOff d, Reg.BEL_EVENT] ∧ Reg.BEL_RING_TAIL + ringOff d ∉ [Reg.BEL_RING_RECORDS + ringOff d, Reg.BEL_EVENT] ∧
    Reg.BEL_RING_RECORDS + ringOff d ∉ [Reg.BEL_RING_TAIL + ringOff d] ∧
    Reg.BEL_RING_RECORDS + ringOff d ∉ [Reg.BEL_EVENT] ∧ Reg.BEL_RING_CTRL + ringOff d ∉ [Reg.BEL_EVENT] ∧
    Reg.BEL_RING_BASE + ringOff d ∉ [Reg.BEL_RING_CTRL + ringOff d] ∧
    Reg.BEL_RING_CTRL + ringOff d ∉ [Reg.BEL_RING_HEAD + ringOff d, Reg.BEL_RING_TAIL + ringOff d] ∧
    Reg.BEL_RING_HEAD + ringOff d ∉ [Reg.BEL_RING_TAIL + ringOff d] := by decide

/-- R413: a record is placed at TAIL. -/
theorem State.place_places (hwf : storeWf 0 s.regs = true) (hrings : storeWf {} s.bel.rings = true) (d : Fin 2) (r : TraceRec)
    (hgroup : (s.ringTail d + 32) % 256 ≠ 0) (htail : s.ringTail d + 32 < 2 ^ 64) : let t := s.place d r false;
    t.ring d = { s.ring d with group := (s.ring d).group ++ [r] } ∧ t.ringTail d = s.ringTail d + 32 ∧
      t.ringHead d = s.ringHead d ∧
      t.regN (Reg.BEL_RING_RECORDS + ringOff d) = min (s.regN (Reg.BEL_RING_RECORDS + ringOff d) + 1) (2 ^ 64 - 1) ∧
      s.sameBytes t := by
  obtain ⟨hhead, htailapart, hrecords, hrecords', -⟩ := ring_registers_apart d
  have hset := s.evolves_bel { s.bel with rings := storeSet {} s.bel.rings d { s.ring d with group := (s.ring d).group ++ [r] } }
  have hring := State.ring_setRing hrings d { s.ring d with group := (s.ring d).group ++ [r] }
  unfold State.place
  have hfirst : Writes [.bel] [] s (s.setRing d { s.ring d with group := (s.ring d).group ++ [r] }) := hset.writes
  generalize s.setRing d { s.ring d with group := (s.ring d).group ++ [r] } = a at *
  have hwfa := hfirst.wf hwf
  have hmove := a.setRegN_writes (Reg.BEL_RING_TAIL + ringOff d) (s.ringTail d + 32)
  have hmoved := a.regN_setRegN (Reg.BEL_RING_TAIL + ringOff d) _ hwfa htail
  have hkept : (a.setRegN (Reg.BEL_RING_TAIL + ringOff d) (s.ringTail d + 32)).bel = a.bel := rfl
  dsimp only
  generalize a.setRegN (Reg.BEL_RING_TAIL + ringOff d) (s.ringTail d + 32) = b at *
  have hwfb := hmove.wf hwfa
  have hcount := b.count_writes (Reg.BEL_RING_RECORDS + ringOff d) 64 1
  have hcounted := b.regN_count (Reg.BEL_RING_RECORDS + ringOff d) 64 1 hwfb (by decide)
  have hkept' : (b.count (Reg.BEL_RING_RECORDS + ringOff d) 64 1).bel = b.bel := rfl
  generalize b.count (Reg.BEL_RING_RECORDS + ringOff d) 64 1 = c at *
  have htailc : c.ringTail d = s.ringTail d + 32 := (hcount.regN (by simp)).trans hmoved
  rw [htailc, if_neg hgroup]
  have hall : Writes [.regs, .bel] [Reg.BEL_RING_TAIL + ringOff d, Reg.BEL_RING_RECORDS + ringOff d] s c :=
    ((hfirst.widen (hl := fun _ h => absurd h List.not_mem_nil)).step hmove).step hcount
  have hbel : c.bel = a.bel := hkept'.trans hkept
  obtain ⟨t, ht, hlast⟩ : ∃ t, t = (if s.ringTail d - s.ringHead d < s.ringSize d / 2 ∧
      s.ringSize d / 2 ≤ s.ringTail d - s.ringHead d + 32 then c.event Reg.BEL_EVENT (3 + d) else c) ∧
      Writes Part.signalled [Reg.BEL_EVENT] c t :=
    ⟨_, rfl, Writes.ite _ (c.event_writes _ _) (Writes.refl c)⟩
  rw [← ht]
  have hbel' : t.bel = c.bel := hlast.evolves.keep .bel (by decide)
  have hwide : Writes (.bel :: Part.signalled) [Reg.BEL_RING_TAIL + ringOff d, Reg.BEL_RING_RECORDS + ringOff d, Reg.BEL_EVENT] s t :=
    (hall.widen (hl := fun o ho => by simp at ho ⊢; tauto)).step hlast
  refine ⟨?_, (hlast.regN (by simp at htailapart ⊢; tauto)).trans htailc, hwide.regN hhead, ?_, hwide.evolves.sameBytes⟩
  · rw [State.ring, hbel', hbel]
    exact hring
  · rw [hlast.regN hrecords', hcounted, hmove.regN hrecords, hfirst.regN List.not_mem_nil]

/-- R413: a record that arrives at a ring with room. -/
theorem traceRecordArrival_places (hwf : storeWf 0 s.regs = true) (hrings : storeWf {} s.bel.rings = true) (d : Fin 2)
    {r : TraceRec} {rest : List TraceRec} (hin : (s.ring d).inflight = r :: rest) (hon : s.ringOn d = true)
    (hroom : s.ringTail d + 32 ≤ s.ringHead d + s.ringSize d) (hring : (s.ring d).lostRing = 0) (hsrc : (s.ring d).lostSrc = 0)
    (hgroup : (s.ringTail d + 32) % 256 ≠ 0) (htail : s.ringTail d + 32 < 2 ^ 64) :
    ∃ t, exec (.traceRecordArrival d false) s = .next t ∧ (t.ring d).inflight = rest ∧
        (t.ring d).group = (s.ring d).group ++ [r] ∧ t.ringTail d = s.ringTail d + 32 ∧ t.ringHead d = s.ringHead d ∧
        t.regN (Reg.BEL_RING_RECORDS + ringOff d) = min (s.regN (Reg.BEL_RING_RECORDS + ringOff d) + 1) (2 ^ 64 - 1) ∧
        s.sameBytes t := by
  obtain ⟨u, hu⟩ : ∃ u : State, u = s.setRing d { s.ring d with inflight := rest } := ⟨_, rfl⟩
  have hnew : u.ring d = { s.ring d with inflight := rest } := by
    rw [hu]
    exact State.ring_setRing hrings d _
  have htake : Writes [.bel] [] s u := by
    rw [hu]
    exact (s.evolves_bel _).writes
  have hringsu : storeWf {} u.bel.rings = true := by
    rw [hu]
    exact storeWf_storeSet _ _ _ _ hrings
  have hregN (o : Nat) : u.regN o = s.regN o := htake.regN List.not_mem_nil
  have hfld (o hi lo : Nat) : u.fld o hi lo = s.fld o hi lo := htake.fld List.not_mem_nil hi lo
  have hroomu : u.ringRoom d = true := by
    refine decide_eq_true ?_
    rw [State.ringTail, State.ringHead, State.ringSize, hregN, hregN, hfld]
    exact hroom
  have hexec : exec (.traceRecordArrival d false) s = .next ((u.place d r false).bel64 (dieCnt d 16) 1) := by
    have harrive : u.arriveRec d r false = (u.place d r false).bel64 (dieCnt d 16) 1 := by
      have hnoloss : u.placeLoss d r false = u := by
        unfold State.placeLoss
        rw [hnew]
        exact if_pos ⟨hring, hsrc⟩
      unfold State.arriveRec
      rw [hroomu, if_neg (by decide), hnoloss]
      exact if_pos hroomu
    rw [← harrive]
    refine (congrArg Host.Outcome.next ?_ : _)
    rw [hin]
    dsimp only
    rw [← hu]
    exact if_pos hon
  obtain ⟨hplaced, htailp, hheadp, hrecords, hsame⟩ :=
    State.place_places (htake.wf hwf) hringsu d r (by rwa [State.ringTail, hregN]) (by rwa [State.ringTail, hregN])
  generalize u.place d r false = w at *
  have hcount := w.bel64_evolves (dieCnt d 16) 1
  have hrings' : (w.bel64 (dieCnt d 16) 1).ring d = w.ring d := rfl
  refine ⟨_, hexec, by rw [hrings', hplaced, hnew], by rw [hrings', hplaced, hnew], htailp.trans (congrArg (· + 32) (hregN _)), hheadp.trans (hregN _), ?_,
    fun a => ?_⟩
  · rw [hcount.writes.regN List.not_mem_nil, hrecords, hregN]
  · have h1 : s.sameBytes u := htake.evolves.sameBytes
    have h2 : w.sameBytes (w.bel64 (dieCnt d 16) 1) := hcount.sameBytes
    exact (h2 a).trans ((hsame a).trans (h1 a))

/-- What HOST and SIZE of a ring's control read after a write of them. -/
theorem ringCtrl_bits (host size : Nat) (hhost : host < 2) (hsize : size < 64) :
    (2 * host + 256 * size).testBit 0 = false ∧ (2 * host + 256 * size).testBit 1 = decide (host = 1) ∧
      bits (2 * host + 256 * size) 13 8 = size ∧ 2 * host + 256 * size < 2 ^ 64 := by
  refine ⟨?_, ?_, ?_, by omega⟩
  · rw [Nat.testBit_eq_decide_div_mod_eq]
    exact decide_eq_false (by omega)
  · rw [Nat.testBit_eq_decide_div_mod_eq]
    exact decide_eq_decide.mpr (by omega)
  · unfold bits
    omega

/-- R412: HOST and SIZE are taken while the ring is off. -/
theorem State.ringCtrl_takes (hwf : storeWf 0 s.regs = true) (d : Fin 2) (ctrl : Word) (hoff : s.ringOn d = false)
    (hon : ctrl.getLsbD 0 = true) : ∃ u, Writes [.regs] [Reg.BEL_RING_CTRL + ringOff d] s u ∧ u.ringOn d = false ∧
      u.bit (Reg.BEL_RING_CTRL + ringOff d) 1 = ctrl.getLsbD 1 ∧
      u.fld (Reg.BEL_RING_CTRL + ringOff d) 13 8 = bits ctrl.toNat 13 8 ∧
      s.ringCtrl d ctrl.toNat = if u.ringValid d then
        ((u.setBit (Reg.BEL_RING_CTRL + ringOff d) 0 true).setReg (Reg.BEL_RING_HEAD + ringOff d) 0).setReg
          (Reg.BEL_RING_TAIL + ringOff d) 0
        else u.event Reg.BEL_EVENT 2 := by
  have hhost : bits ctrl.toNat 1 1 < 2 := by
    unfold bits
    omega
  have hsize : bits ctrl.toNat 13 8 < 64 := by
    unfold bits
    omega
  obtain ⟨hzero, hone, hfld, hlt⟩ := ringCtrl_bits _ _ hhost hsize
  have hset := s.setRegN_writes (Reg.BEL_RING_CTRL + ringOff d) (2 * bits ctrl.toNat 1 1 + 256 * bits ctrl.toNat 13 8)
  have hreg := s.regN_setRegN (Reg.BEL_RING_CTRL + ringOff d) _ hwf hlt
  have hodd : ¬ctrl.toNat % 2 = 0 := by
    rw [← BitVec.testBit_toNat, Nat.testBit_eq_decide_div_mod_eq] at hon
    have := of_decide_eq_true hon
    omega
  have heq : s.ringCtrl d ctrl.toNat = if (s.setRegN (Reg.BEL_RING_CTRL + ringOff d)
      (2 * bits ctrl.toNat 1 1 + 256 * bits ctrl.toNat 13 8)).ringValid d then
        (((s.setRegN (Reg.BEL_RING_CTRL + ringOff d) (2 * bits ctrl.toNat 1 1 + 256 * bits ctrl.toNat 13 8)).setBit
          (Reg.BEL_RING_CTRL + ringOff d) 0 true).setReg (Reg.BEL_RING_HEAD + ringOff d) 0).setReg
          (Reg.BEL_RING_TAIL + ringOff d) 0
        else (s.setRegN (Reg.BEL_RING_CTRL + ringOff d) (2 * bits ctrl.toNat 1 1 + 256 * bits ctrl.toNat 13 8)).event
          Reg.BEL_EVENT 2 := by
    have hidle : ¬s.bit (Reg.BEL_RING_CTRL + ringOff d) 0 = true := fun h => Bool.noConfusion (hoff.symm.trans h)
    unfold State.ringCtrl
    dsimp only
    rw [if_neg hidle, if_neg hodd]
  generalize s.setRegN (Reg.BEL_RING_CTRL + ringOff d) (2 * bits ctrl.toNat 1 1 + 256 * bits ctrl.toNat 13 8) = u at *
  refine ⟨u, hset, ?_, ?_, by rw [State.fld, hreg, hfld], heq⟩
  · rw [State.ringOn, State.bit_eq_testBit, hreg, hzero]
  · rw [State.bit_eq_testBit, hreg, hone, ← BitVec.testBit_toNat, Nat.testBit_eq_decide_div_mod_eq]
    refine decide_eq_decide.mpr ?_
    unfold bits
    omega

/-- R412: a ring is enabled over a valid base only. -/
theorem ringEnable_checks (hwf : storeWf 0 s.regs = true) (d : Fin 2) (ctrl : Word) (h : s.hosted) (hoff : s.ringOn d = false)
    (hon : ctrl.getLsbD 0 = true) :
      let host := ctrl.getLsbD 1
      let size := bits ctrl.toNat 13 8
      let base := s.regN (Reg.BEL_RING_BASE + ringOff d)
      let valid := 16 ≤ size ∧ size ≤ 32 ∧ base % 2 ^ size = 0 ∧
        (host = true ∨ (base < 2 ^ 40 ∧ s.spanOk base (2 ^ size) = true ∧ s.touchesImage base (2 ^ size) = false))
      (valid → ∃ t, exec (.ringEnable d ctrl) s = .next t ∧ t.ringOn d = true ∧ t.ringSize d = 2 ^ size ∧
        t.ringHead d = 0 ∧ t.ringTail d = 0 ∧ s.touches t [.regs]
          [Reg.BEL_RING_CTRL + ringOff d, Reg.BEL_RING_HEAD + ringOff d, Reg.BEL_RING_TAIL + ringOff d]) ∧
      (¬valid → ∃ t, exec (.ringEnable d ctrl) s = .next t ∧ t.ringOn d = false ∧ t.bit Reg.BEL_EVENT 2 = true ∧
        s.touches t Part.signalled [Reg.BEL_RING_CTRL + ringOff d, Reg.BEL_EVENT]) := by
  obtain ⟨-, -, -, -, hevent, hbase, hctrl, hhead⟩ := ring_registers_apart d
  obtain ⟨u, hset, hidle, hhost, hsize, heq⟩ := State.ringCtrl_takes hwf d ctrl hoff hon
  have hwfu := hset.wf hwf
  have hexec : exec (.ringEnable d ctrl) s = .next (s.ringCtrl d ctrl.toNat) := congrArg Host.Outcome.next (State.onHost_of_hosted h _)
  have hhbm : u.hbm = s.hbm := hset.evolves.keep .hbm (by decide)
  have hchans : u.hbm.inService = s.hbm.inService := by rw [hhbm]
  intro host size base valid
  have hvalid : u.ringValid d = true ↔ valid := by
    unfold State.ringValid
    dsimp only
    rw [hset.regN hbase, hsize, hhost, State.spanOk_congr hchans, State.touchesImage_congr hchans]
    simp only [Bool.and_eq_true, Bool.or_eq_true, decide_eq_true_eq, Bool.not_eq_true', valid, host, size, base, and_assoc]
  refine ⟨fun hok => ?_, fun hbad => ?_⟩
  · rw [if_pos (hvalid.mpr hok)] at heq
    have hbit := u.setBit_writes (Reg.BEL_RING_CTRL + ringOff d) 0 true
    have henabled := u.bit_setBit (Reg.BEL_RING_CTRL + ringOff d) 0 true hwfu (by decide)
    have hkept : (u.setBit (Reg.BEL_RING_CTRL + ringOff d) 0 true).fld (Reg.BEL_RING_CTRL + ringOff d) 13 8 =
        u.fld (Reg.BEL_RING_CTRL + ringOff d) 13 8 := State.fld_setFld_ne u _ _ hwfu (by decide) (by decide)
    generalize u.setBit (Reg.BEL_RING_CTRL + ringOff d) 0 true = a at *
    have hwfa := hbit.wf hwfu
    have hzero := a.setReg_writes (Reg.BEL_RING_HEAD + ringOff d) 0
    have hheaded := a.reg_setReg (Reg.BEL_RING_HEAD + ringOff d) 0 hwfa
    generalize a.setReg (Reg.BEL_RING_HEAD + ringOff d) 0 = b at *
    have hwfb := hzero.wf hwfa
    have hlast := b.setReg_writes (Reg.BEL_RING_TAIL + ringOff d) 0
    have htailed := b.reg_setReg (Reg.BEL_RING_TAIL + ringOff d) 0 hwfb
    generalize b.setReg (Reg.BEL_RING_TAIL + ringOff d) 0 = t at *
    have hafter : Writes [.regs] [Reg.BEL_RING_HEAD + ringOff d, Reg.BEL_RING_TAIL + ringOff d] a t := hzero.widen.step hlast
    have hall : Writes [.regs] [Reg.BEL_RING_CTRL + ringOff d, Reg.BEL_RING_HEAD + ringOff d, Reg.BEL_RING_TAIL + ringOff d] s t :=
      (hset.widen.step hbit).step hafter (hl := fun o ho => List.mem_cons_of_mem _ ho)
    refine ⟨t, hexec.trans (congrArg Host.Outcome.next heq), (hafter.bit hctrl 0).trans henabled, ?_, ?_, ?_, hall.touches⟩
    · rw [State.ringSize, hafter.fld hctrl, hkept, hsize]
    · rw [State.ringHead, hlast.regN hhead, State.regN, hheaded]
      rfl
    · rw [State.ringTail, State.regN, htailed]
      rfl
  · rw [if_neg (fun hok => hbad (hvalid.mp hok))] at heq
    have htell := u.event_writes Reg.BEL_EVENT 2
    exact ⟨_, hexec.trans (congrArg Host.Outcome.next heq), (htell.bit hevent 0).trans hidle, u.bit_event _ _ hwfu (by decide),
      ((hset.widen (Q := Part.signalled) (M := [Reg.BEL_RING_CTRL + ringOff d, Reg.BEL_EVENT])).step htell).touches⟩

end

/-- Settles O52: one record, one group and one register at a time. -/
theorem snapshotsAndRings : Obligations.SnapshotsAndRings := by
  intro s hinv
  refine ⟨fun c hc h hidle => ?_, fun h hidle hrun => ?_, fun c hc h hbusy => ?_, fun n hbusy hedge => exec_belSnapDone hinv.2 n hbusy hedge,
    fun v h hen hnone => belMark_records h v hen hnone, fun v h hen => ?_,
    fun d r rest hrings hin hon hroom hring hsrc hgroup htail =>
      traceRecordArrival_places hinv.2 hrings d hin hon hroom hring hsrc hgroup htail,
    fun d g gs hgroup hawake hhost => traceGroupFlush_writes d hgroup hawake hhost,
    fun d ctrl h hoff hon => ringEnable_checks hinv.2 d ctrl h hoff hon⟩
  · obtain ⟨hsnap, hcnt, hbusy, htouch⟩ := s.belSnapNow_copies
    rcases hc with rfl | ⟨rfl, hrun⟩
    · exact ⟨_, (exec_belSnap h).trans (congrArg Host.Outcome.next (State.belSnap_idle hidle)), hsnap, hcnt, hbusy, htouch⟩
    · exact ⟨_, (exec_belSnapAtEdge h).trans (congrArg Host.Outcome.next (State.belSnapEdge_idle hidle hrun)), hsnap, hcnt, hbusy, htouch⟩
  · refine (exec_belSnapAtEdge h).trans (congrArg Host.Outcome.next ?_)
    unfold State.belSnapEdge
    rw [if_neg (by simp [hidle]), if_pos hrun]
  · rcases hc with rfl | rfl
    · exact (exec_belSnap h).trans (congrArg Host.Outcome.next (if_pos hbusy))
    · exact (exec_belSnapAtEdge h).trans (congrArg Host.Outcome.next (if_pos hbusy))
  · refine congrArg Host.Outcome.next ((State.onHost_of_hosted h _).trans ?_)
    unfold State.trace
    rw [if_neg (by simp [hen])]

end Sys2Proof.Machine

/-! One frame period of a port: what it leaves alone, and what it counts (R277 to R283). -/

namespace Sys2Proof.Machine

set_option Elab.async false

/-! ## Registers that a selector banks -/

/-- The copy of a register for a unit is none of the registers at other offsets. -/
theorem bank_notMem {off i : Nat} {L : List Nat} (hoff : off < 67108864) (h : ∀ k ∈ L, k % 67108864 ≠ off) : bankKey off i ∉ L :=
  fun hin => h _ hin (by unfold bankKey; omega)

/-- The registers that FEC at a port may write. -/
abbrev Reg.fec (p : Nat) : List Nat :=
  (List.range 8).map (fun l => bankKey Reg.PYU_FEC_CORR (8 * p + l)) ++ [bankKey Reg.PYU_FEC_UNCORR p, Reg.PYU_EVENT]

theorem Reg.mem_fec {p k : Nat} (h : k ∈ Reg.fec p) : k % 67108864 ∈ [Reg.PYU_FEC_CORR, Reg.PYU_FEC_UNCORR, Reg.PYU_EVENT] := by
  rcases List.mem_append.mp h with h | h
  · obtain ⟨l, -, rfl⟩ := List.mem_map.mp h
    rw [bankKey, Nat.add_mul_mod_self_left]
    exact List.mem_cons_self ..
  · rcases List.mem_cons.mp h with rfl | h
    · rw [bankKey, Nat.add_mul_mod_self_left]
      exact List.mem_cons_of_mem _ (List.mem_cons_self ..)
    · rw [List.mem_singleton.mp h]
      exact List.mem_cons_of_mem _ (List.mem_cons_of_mem _ (List.mem_cons_self ..))

section

variable {s : State}

/-- The parts that FEC may change. -/
abbrev Part.fec : List Part := .hlt :: .bel :: Part.signalled

theorem State.fecLanes_writes (s : State) (p l : Nat) (ns : List Nat) (hl : l + ns.length ≤ 8) :
    Writes Part.fec (Reg.fec p) s (s.fecLanes p l ns) := by
  induction ns generalizing s l with
  | nil => exact Writes.refl s
  | cons n ns ih =>
    rw [List.length_cons] at hl
    have hcount := s.count_writes (bankKey Reg.PYU_FEC_CORR (8 * p + l)) 64 n
    have hlane : bankKey Reg.PYU_FEC_CORR (8 * p + l) ∈ Reg.fec p :=
      List.mem_append_left _ (List.mem_map.mpr ⟨l, List.mem_range.mpr (by omega), rfl⟩)
    exact (((hcount.widen (Q := Part.fec) (M := Reg.fec p) (hl := fun o ho => List.mem_singleton.mp ho ▸ hlane)).step
      (State.live_writes _ _ _)).step (State.bel64_evolves _ _ _).writes).step (ih _ _ (by omega)) (hl := fun _ h => h)

/-- R283: what FEC reports of a frame is counted. -/
theorem State.fec_writes (s : State) (p : Nat) (a : FrameIn) : Writes Part.fec (Reg.fec p) s (s.fec p a) := by
  have hlanes := s.fecLanes_writes p 0 (a.corr.take 8) (by rw [List.length_take]; omega)
  have huncorr : bankKey Reg.PYU_FEC_UNCORR p ∈ Reg.fec p := List.mem_append_right _ (List.mem_cons_self ..)
  have hevent : Reg.PYU_EVENT ∈ Reg.fec p := List.mem_append_right _ (List.mem_cons_of_mem _ (List.mem_cons_self ..))
  unfold State.fec
  dsimp only
  generalize s.fecLanes p 0 (a.corr.take 8) = u at *
  split
  · exact hlanes
  · exact (((hlanes.step (u.count_writes (bankKey Reg.PYU_FEC_UNCORR p) 32 a.uncorr)
      (hl := fun o ho => List.mem_singleton.mp ho ▸ huncorr)).step (State.live_writes _ _ _)).step
        (State.bel64_evolves _ _ _).writes).step (State.event_writes _ Reg.PYU_EVENT 2)
          (hl := fun o ho => List.mem_singleton.mp ho ▸ hevent)

/-! ## What a period leaves alone -/

/-- Of what a frame is made of, only the ports differ. -/
def State.portsOnly (s t : State) : Prop := ∃ regs free out held host hlt bel ports, t =
  { s with regs := regs, free := free, out := out, heldOut := held, host := host, hlt := hlt, bel := bel, pyu := { s.pyu with ports := ports } }

theorem State.portsOnly.trans {t u : State} (h : s.portsOnly t) (g : t.portsOnly u) : s.portsOnly u := by
  obtain ⟨_, _, _, _, _, _, _, _, rfl⟩ := h
  obtain ⟨_, _, _, _, _, _, _, _, rfl⟩ := g
  exact ⟨_, _, _, _, _, _, _, _, rfl⟩

theorem State.portsOnly_refl (s : State) : s.portsOnly s := ⟨s.regs, s.free, s.out, s.heldOut, s.host, s.hlt, s.bel, s.pyu.ports, rfl⟩

theorem State.setPort_portsOnly (s : State) (p : Nat) (x : Port) : s.portsOnly (s.setPort p x) :=
  ⟨s.regs, s.free, s.out, s.heldOut, s.host, s.hlt, s.bel, _, rfl⟩

/-- The parts that a period may change besides the ports. -/
abbrev Part.period : List Part := .free :: Part.fec

theorem Evolves.portsOnly {P : List Part} {t : State} (h : Evolves P s t)
    (hp : (P.all fun p => Part.period.contains p) = true := by rfl) : s.portsOnly t := by
  have hall : Evolves Part.period s t := h.widen hp
  have hkeep (p : Part) (hp : p ∉ Part.period) := hall.keep p hp
  have heta : t = ⟨t.pending, t.regs, t.mem, t.free, t.out, t.heldOut, t.boot, t.image, t.tick, t.adm, t.seg, t.me, t.ve, t.stl,
    t.hbm, t.upd, t.clo, t.trl, t.pyu, t.pwr, t.ldg, t.host, t.sec, t.sbk, t.hlt, t.bel⟩ := rfl
  rw [show t.pending = s.pending from hkeep .pending (by decide), show t.mem = s.mem from hkeep .mem (by decide),
    show t.boot = s.boot from hkeep .boot (by decide), show t.image = s.image from hkeep .image (by decide),
    show t.tick = s.tick from hkeep .tick (by decide), show t.adm = s.adm from hkeep .adm (by decide),
    show t.seg = s.seg from hkeep .seg (by decide), show t.me = s.me from hkeep .me (by decide),
    show t.ve = s.ve from hkeep .ve (by decide), show t.stl = s.stl from hkeep .stl (by decide),
    show t.hbm = s.hbm from hkeep .hbm (by decide), show t.upd = s.upd from hkeep .upd (by decide),
    show t.clo = s.clo from hkeep .clo (by decide), show t.trl = s.trl from hkeep .trl (by decide),
    show t.pyu = s.pyu from hkeep .pyu (by decide), show t.pwr = s.pwr from hkeep .pwr (by decide),
    show t.ldg = s.ldg from hkeep .ldg (by decide), show t.sec = s.sec from hkeep .sec (by decide),
    show t.sbk = s.sbk from hkeep .sbk (by decide)] at heta
  exact ⟨t.regs, t.free, t.out, t.heldOut, t.host, t.hlt, t.bel, s.pyu.ports, heta⟩

theorem State.portsOnly.memAgrees {t : State} (h : s.portsOnly t) : s.memAgrees t := by
  obtain ⟨_, _, _, _, _, _, _, _, rfl⟩ := h
  exact ⟨rfl, rfl⟩

theorem State.portsOnly.parts {t : State} (h : s.portsOnly t) : t.tick = s.tick ∧ t.stl = s.stl ∧ t.image = s.image ∧
    t.pyu.ends = s.pyu.ends ∧ t.pyu.xch = s.pyu.xch := by
  obtain ⟨_, _, _, _, _, _, _, _, rfl⟩ := h
  exact ⟨rfl, rfl, rfl, rfl, rfl⟩

theorem State.portsOnly.crosses {t : State} (h : s.portsOnly t) (plot port : Nat) (recv : Bool) :
    t.crosses plot port recv = s.crosses plot port recv := by
  obtain ⟨_, _, _, _, _, _, _, _, rfl⟩ := h
  rfl

theorem State.portsOnly.earlyFrame {t : State} (h : s.portsOnly t) (e : LinkEnd) (pos : Nat) :
    t.earlyFrame e pos = s.earlyFrame e pos := by
  obtain ⟨_, _, _, _, _, _, _, _, rfl⟩ := h
  rfl

/-- R281: what an offer can send does not depend on the ports. -/
theorem State.portsOnly.ready1 {t : State} (h : s.portsOnly t) (p : Nat) (o : Offer) : t.ready1 p o = s.ready1 p o := by
  obtain ⟨_, _, _, _, _, _, _, _, rfl⟩ := h
  rfl

theorem State.linkEnd_congr {t : State} (h : t.pyu.ends = s.pyu.ends) (plot port : Nat) (recv : Bool) :
    t.linkEnd plot port recv = s.linkEnd plot port recv := by
  rw [State.linkEnd, h]
  rfl

theorem State.plot_congr {t : State} (h : t.stl = s.stl) (p : Nat) : t.plot p = s.plot p := by
  rw [State.plot, h]
  rfl

theorem State.port_congr {t : State} (h : t.pyu.ports = s.pyu.ports) (p : Nat) : t.port p = s.port p := by
  rw [State.port, h]
  rfl

theorem State.pushFrame_portsOnly (s : State) (p : Nat) (body : Frame) : s.portsOnly (s.pushFrame p body) := by
  rw [State.pushFrame_eq]
  exact ⟨_, _, _, _, _, _, _, _, rfl⟩

theorem State.pushFrame_writes (s : State) (p : Nat) (body : Frame) : Writes [.pyu, .bel, .out] [] s (s.pushFrame p body) := by
  have hset := (s.setPort_evolves p ((s.port p).pushed body)).writes
  rw [State.pushFrame_eq]
  exact (((hset.widen (Q := [.pyu, .bel, .out]) (hl := fun _ h => h)).step (State.bel64_evolves _ _ _).writes).step
    (State.bel64_evolves _ _ _).writes).step (State.send_writes _ _)

end

end Sys2Proof.Machine

/-! What a good frame delivers: a data frame in its place, and the counts of an exchange (R265, R279, R281, R296, R303). -/

namespace Sys2Proof.Machine

set_option Elab.async false

section

variable {s : State}

/-- R303: a data frame takes its place. -/
theorem State.frameTaken_takes (plot port branch : Nat) (early : Bool) (hkind : (s.plot plot).kind ≠ 0) :
    let t := s.frameTaken plot port branch early;
    (t.plot plot).arrived = (s.plot plot).arrived + 1 ∧ (t.plot plot).branch = branch ∧ (t.plot plot).kind = (s.plot plot).kind ∧
      (ownEnd (s.plot plot) port true = true → (t.plot plot).held = (s.plot plot).held + 1 ∧
        (early = false → (t.plot plot).position = (s.plot plot).position + 1)) ∧
      (early = false → (t.linkEnd plot port true).frames = (s.linkEnd plot port true).frames + 1) ∧
      (early = true → (t.linkEnd plot port true).early = (s.linkEnd plot port true).early + 1) ∧
      t.pyu.ports = s.pyu.ports ∧ t.memAgrees s ∧ Writes [.stl, .pyu] [] s t := by
  obtain ⟨x, hx⟩ : ∃ x : Plot, x = s.plot plot := ⟨_, rfl⟩
  obtain ⟨e, he⟩ : ∃ e : LinkEnd, e = s.linkEnd plot port true := ⟨_, rfl⟩
  obtain ⟨y, hy⟩ : ∃ y : Plot, y = { x with
    arrived := x.arrived + 1, branch := branch, held := if ownEnd x port true then x.held + 1 else x.held,
    position := if ownEnd x port true && !early then x.position + 1 else x.position } := ⟨_, rfl⟩
  obtain ⟨f, hf⟩ : ∃ f : LinkEnd, f = (if early then { e with
      early := e.early + 1, earlySlots := e.earlySlots ++ [x.arrived % max x.credits 1] }
    else { e with frames := e.frames + 1, slots := e.slots ++ [x.arrived % max x.credits 1] }) := ⟨_, rfl⟩
  have hcount : (early = false → f.frames = e.frames + 1) ∧ (early = true → f.early = e.early + 1) := by
    rw [hf]
    cases early
    · exact ⟨fun _ => rfl, fun h => Bool.noConfusion h⟩
    · exact ⟨fun h => Bool.noConfusion h, fun _ => rfl⟩
  obtain ⟨g, hg⟩ : ∃ g : LinkEnd, g = { f with used := if ownEnd x port true then f.used else f.used + 1 } := ⟨_, rfl⟩
  have hgcount : g.frames = f.frames ∧ g.early = f.early := by
    rw [hg]
    exact ⟨rfl, rfl⟩
  have heq : s.frameTaken plot port branch early = (s.setPlot plot y).setEnd plot port true g := by
    rw [hg, hf, hy, he, hx]
    rfl
  have hyne : y ≠ {} := by
    intro h
    have hzero := congrArg Plot.arrived h
    rw [hy] at hzero
    exact Nat.succ_ne_zero _ hzero
  have hgne : g ≠ {} := by
    intro h
    rw [h] at hgcount
    cases early
    · have := hcount.1 rfl
      exact Nat.succ_ne_zero _ (this.symm.trans hgcount.1.symm)
    · have := hcount.2 rfl
      exact Nat.succ_ne_zero _ (this.symm.trans hgcount.2.symm)
  have hplot : ((s.setPlot plot y).setEnd plot port true g).plot plot = y := storeGet_storeSet_new _ _ _ _ hyne
  have hend : ((s.setPlot plot y).setEnd plot port true g).linkEnd plot port true = g := storeGet_storeSet_new _ _ _ _ hgne
  have hset := (s.setPlot_evolves plot y).writes
  have hends := ((s.setPlot plot y).setEnd_evolves plot port true g).writes
  dsimp only
  rw [heq, hplot, hend, ← hx, ← he, hgcount.1, hgcount.2]
  refine ⟨by rw [hy], by rw [hy], by rw [hy], fun hown => ?_, hcount.1, hcount.2, rfl, ⟨rfl, rfl⟩,
    (hset.widen (Q := [.stl, .pyu]) (hl := fun _ h => h)).step hends⟩
  rw [hy]
  exact ⟨if_pos hown, fun hlate => if_pos (by rw [hown, hlate]; rfl)⟩

/-- What the use of a frame leaves as the frame left it. -/
structure Used (plot port : Nat) (s t : State) : Prop where
  stl : t.stl = s.stl
  ports : t.pyu.ports = s.pyu.ports
  frames : (t.linkEnd plot port true).frames = (s.linkEnd plot port true).frames
  early : (t.linkEnd plot port true).early = (s.linkEnd plot port true).early
  counted : t.regN (bankKey Reg.PYU_FRAMES_RX port) = s.regN (bankKey Reg.PYU_FRAMES_RX port)

theorem Used.refl (plot port : Nat) (s : State) : Used plot port s s := ⟨rfl, rfl, rfl, rfl, rfl⟩

theorem Used.trans {plot port : Nat} {t u : State} (h : Used plot port s t) (g : Used plot port t u) : Used plot port s u :=
  ⟨g.stl.trans h.stl, g.ports.trans h.ports, g.frames.trans h.frames, g.early.trans h.early, g.counted.trans h.counted⟩

/-- The parts that leave plots and ports alone. -/
theorem Writes.used {P : List Part} {L : List Nat} {t : State} (h : Writes P L s t) (plot port : Nat)
    (hl : ∀ k ∈ L, k % 67108864 ≠ Reg.PYU_FRAMES_RX := by decide) (hstl : .stl ∉ P := by decide) (hpyu : .pyu ∉ P := by decide) :
    Used plot port s t := by
  have hkeep : t.pyu = s.pyu := h.evolves.keep .pyu hpyu
  have hends : t.linkEnd plot port true = s.linkEnd plot port true := State.linkEnd_congr (by rw [hkeep]) _ _ _
  exact ⟨h.evolves.keep .stl hstl, by rw [hkeep], by rw [hends], by rw [hends], h.regN (bank_notMem (by decide) hl)⟩

theorem State.placeRecords_writes (s : State) (d : ExchangeDest) (counts : List Nat) (fuel off : Nat) (bs : List Byte) :
    Writes Part.devWrite Reg.devWrite s (s.placeRecords d counts fuel off bs) := by
  induction fuel generalizing s off bs with
  | zero => exact Writes.refl s
  | succ fuel ih =>
    unfold State.placeRecords
    split
    · exact Writes.refl s
    · refine Writes.step ?_ (ih _ _ _) (hl := fun _ h => h)
      split
      · exact s.devWrite_writes _ _ _
      · exact Writes.refl s

theorem State.exchangeData_used (s : State) (p plot : Nat) (bs : List Byte) (d : Option ExchangeDest) :
    Used plot p s (s.exchangeData p plot bs d) := by
  have hset (u : State) (x : XchIn) (i n : Nat) : Used plot p u ((u.setXch plot x).bel64 i n) := ⟨rfl, rfl, rfl, rfl, rfl⟩
  unfold State.exchangeData
  split
  · exact Used.refl plot p s
  · split
    · exact Used.refl plot p s
    · exact ((s.placeRecords_writes _ _ _ _ _).used plot p).trans (hset _ _ _ _)

theorem State.setEnd_used (s : State) (plot port : Nat) : Used plot port s
    (s.setEnd plot port true { s.linkEnd plot port true with vecs := (s.linkEnd plot port true).vecs + 1 }) := by
  have hend : (s.setEnd plot port true { s.linkEnd plot port true with vecs := (s.linkEnd plot port true).vecs + 1 }).linkEnd
      plot port true = { s.linkEnd plot port true with vecs := (s.linkEnd plot port true).vecs + 1 } :=
    storeGet_storeSet_new _ _ _ _ fun h => absurd (congrArg LinkEnd.vecs h) (Nat.succ_ne_zero _)
  exact ⟨rfl, rfl, by rw [hend], by rw [hend], rfl⟩

theorem State.takeVec_used (hwf : storeWf 0 s.regs = true) (plot port : Nat) (bs : List Byte) (early : Bool) :
    Used plot port s (s.takeVec plot port bs early) := by
  unfold State.takeVec
  split
  · exact Used.refl plot port s
  next t _ =>
  obtain ⟨v, res⟩ := vecOfBytes bs
  dsimp only
  split
  · obtain ⟨-, -, -, hfatal⟩ := State.cloFatal_shows hwf 1 port plot
    exact hfatal.used plot port
  · split
    · exact (State.evolves_clo s _).writes.used plot port (by simp)
    · have hend := s.setEnd_used plot port
      refine hend.trans ?_
      generalize s.setEnd plot port true _ = u
      have habsorb (peer : Nat) (bytes : List Byte) (last : Bool) := (u.absorb_writes plot port 1 peer bytes last).used plot port
      have hlast (w : State) (hw : Used plot port u w) (c : Prop) [Decidable c] (vs : List SVec) :
          Used plot port u (if c then w.count Reg.CLO_S_DROPS 32 1 else w.setVecs plot port vs) := by
        split
        · exact hw.trans ((w.count_writes Reg.CLO_S_DROPS 32 1).used plot port)
        · exact hw.trans ((State.evolves_clo w _).writes.used plot port (by simp))
      exact hlast _ (habsorb _ _ _) _ _

/-- R279, R303: a data frame in its place is stored and counted. -/
theorem State.dataFrame_takes (hwf : storeWf 0 s.regs = true) (p : Nat) (a : FrameIn)
    (hexp : (s.crosses a.frame.plot p true && (s.earlyFrame (s.linkEnd a.frame.plot p true) a.frame.pos ||
      decide (a.frame.pos = (s.linkEnd a.frame.plot p true).frames % 65536))) = true) :
    let t := s.dataFrame p a;
    let x := s.plot a.frame.plot;
    let early := s.earlyFrame (s.linkEnd a.frame.plot p true) a.frame.pos;
    (t.plot a.frame.plot).arrived = x.arrived + 1 ∧ (t.plot a.frame.plot).branch = a.frame.branch ∧
      (early = false → (t.linkEnd a.frame.plot p true).frames = (s.linkEnd a.frame.plot p true).frames + 1) ∧
      (early = true → (t.linkEnd a.frame.plot p true).early = (s.linkEnd a.frame.plot p true).early + 1) ∧
      (ownEnd x p true = true → (t.plot a.frame.plot).held = x.held + 1 ∧
        (early = false → (t.plot a.frame.plot).position = x.position + 1)) ∧
      t.regN (bankKey Reg.PYU_FRAMES_RX p) = min (s.regN (bankKey Reg.PYU_FRAMES_RX p) + 1) (2 ^ 64 - 1) ∧
      (x.kind = 1 → (s.devWrite .scheduled (frameAt x (x.arrived % max x.credits 1)) (usedBytes a.frame)).sameBytes t) ∧
      t.pyu.ports = s.pyu.ports := by
  have hkind : (s.plot a.frame.plot).kind ≠ 0 := by
    intro h
    have hnone : s.crosses a.frame.plot p true = false := if_pos (.inl h)
    rw [hnone] at hexp
    exact Bool.noConfusion hexp
  dsimp only
  unfold State.dataFrame
  dsimp only
  rw [if_pos hexp]
  generalize s.earlyFrame (s.linkEnd a.frame.plot p true) a.frame.pos = early at *
  obtain ⟨x, hx⟩ : ∃ x, x = s.plot a.frame.plot := ⟨_, rfl⟩
  rw [← hx] at hkind ⊢
  have hwrite := s.devWrite_writes .scheduled (frameAt x (x.arrived % max x.credits 1)) (usedBytes a.frame)
  generalize s.devWrite .scheduled (frameAt x (x.arrived % max x.credits 1)) (usedBytes a.frame) = b at *
  have hplot : b.plot a.frame.plot = x := by
    rw [hx]
    exact State.plot_congr (hwrite.evolves.keep .stl (by decide)) _
  have hpyu : b.pyu = s.pyu := hwrite.evolves.keep .pyu (by decide)
  have hend : b.linkEnd a.frame.plot p true = s.linkEnd a.frame.plot p true := State.linkEnd_congr (by rw [hpyu]) _ _ _
  have htaken := b.frameTaken_takes a.frame.plot p a.frame.branch early (by rw [hplot]; exact hkind)
  dsimp only at htaken
  rw [hplot, hend] at htaken
  generalize b.frameTaken a.frame.plot p a.frame.branch early = c at *
  obtain ⟨harrived, hbranch, -, hheld, hlate, hearly, hports, hmem, hwrites⟩ := htaken
  have hcount := c.count_writes (bankKey Reg.PYU_FRAMES_RX p) 64 1
  have hwfc := hwrites.wf (hwrite.wf hwf)
  have hcounted := c.regN_count (bankKey Reg.PYU_FRAMES_RX p) 64 1 hwfc (by decide)
  have hbefore : c.regN (bankKey Reg.PYU_FRAMES_RX p) = s.regN (bankKey Reg.PYU_FRAMES_RX p) :=
    (hwrites.regN List.not_mem_nil).trans (hwrite.regN (bank_notMem (by decide) (by decide)))
  have hparts : ((c.count (bankKey Reg.PYU_FRAMES_RX p) 64 1).bel64 (portCnt p 1) 1).stl = c.stl ∧
      ((c.count (bankKey Reg.PYU_FRAMES_RX p) 64 1).bel64 (portCnt p 1) 1).pyu = c.pyu ∧
      c.memAgrees ((c.count (bankKey Reg.PYU_FRAMES_RX p) 64 1).bel64 (portCnt p 1) 1) := ⟨rfl, rfl, rfl, rfl⟩
  have hreg : ((c.count (bankKey Reg.PYU_FRAMES_RX p) 64 1).bel64 (portCnt p 1) 1).regN (bankKey Reg.PYU_FRAMES_RX p) =
      (c.count (bankKey Reg.PYU_FRAMES_RX p) 64 1).regN (bankKey Reg.PYU_FRAMES_RX p) := rfl
  have hwfd : storeWf 0 ((c.count (bankKey Reg.PYU_FRAMES_RX p) 64 1).bel64 (portCnt p 1) 1).regs = true := hcount.wf hwfc
  generalize (c.count (bankKey Reg.PYU_FRAMES_RX p) 64 1).bel64 (portCnt p 1) 1 = d at *
  obtain ⟨hstl, hpyud, hsame⟩ := hparts
  obtain ⟨t, ht, hused, hone⟩ : ∃ t, t = (if x.kind = 3 then d.exchangeData p a.frame.plot (usedBytes a.frame) a.dest
      else if x.kind = 2 then d.takeVec a.frame.plot p (usedBytes a.frame) early else d) ∧ Used a.frame.plot p d t ∧
      (x.kind = 1 → t = d) := by
    refine ⟨_, rfl, ?_, fun h => ?_⟩
    · split
      · exact d.exchangeData_used p _ _ _
      · split
        · exact State.takeVec_used hwfd _ p _ early
        · exact Used.refl _ p d
    · rw [if_neg (by omega), if_neg (by omega)]
  rw [← ht]
  have hplott : t.plot a.frame.plot = c.plot a.frame.plot := State.plot_congr (hused.stl.trans hstl) _
  have hendd : d.linkEnd a.frame.plot p true = c.linkEnd a.frame.plot p true := State.linkEnd_congr (by rw [hpyud]) _ _ _
  rw [hplott, hused.frames, hused.early, hendd]
  refine ⟨harrived, hbranch, hlate, hearly, hheld, ?_, fun h => ?_, by rw [hused.ports, hpyud, hports, hpyu]⟩
  · rw [hused.counted, hreg, hcounted, hbefore]
  · rw [hone h]
    exact (hmem.symm.trans hsame).sameBytes

theorem State.memAgrees.padInputs {t : State} (h : s.memAgrees t) (record : Nat) (ins : List (Nat × Nat)) (cs : List Nat) :
    (s.padInputs record ins cs).memAgrees (t.padInputs record ins cs) := by
  induction ins generalizing s t cs with
  | nil => exact h
  | cons i ins ih =>
    cases cs with
    | nil => exact h
    | cons c cs => exact ih (h.devWrite _ _ _) cs

/-- R296: what an occupancy frame leaves comes from the frame, the exchange and memory. -/
theorem State.occupancy_congr {t : State} (h : s.portsOnly t) (a : FrameIn) : (s.occupancy a).memAgrees (t.occupancy a) ∧
    (t.occupancy a).xch a.frame.plot = (s.occupancy a).xch a.frame.plot ∧ (t.occupancy a).pyu.ports = t.pyu.ports := by
  obtain ⟨-, -, -, -, hxch⟩ := h.parts
  have hold : t.xch a.frame.plot = s.xch a.frame.plot := by
    rw [State.xch, hxch]
    rfl
  unfold State.occupancy
  split
  · exact ⟨h.memAgrees, hold, rfl⟩
  next d _ =>
  dsimp only
  rw [hold]
  generalize (if (s.xch a.frame.plot).counts.length < d.inputs.length then s.xch a.frame.plot else {} : XchIn) = x
  generalize counts16 (min 2560 (d.inputs.drop x.counts.length).length) a.frame.payload = cs
  have hpads : (s.padInputs d.record (d.inputs.drop x.counts.length) cs).pyu = s.pyu :=
    (State.padInputs_evolves _ _ _ _).keep .pyu (by decide)
  have hpadt : (t.padInputs d.record (d.inputs.drop x.counts.length) cs).pyu = t.pyu :=
    (State.padInputs_evolves _ _ _ _).keep .pyu (by decide)
  have hmem := h.memAgrees.padInputs d.record (d.inputs.drop x.counts.length) cs
  generalize s.padInputs d.record (d.inputs.drop x.counts.length) cs = u at *
  generalize t.padInputs d.record (d.inputs.drop x.counts.length) cs = w at *
  have hset (v : State) (y : XchIn) : (v.setXch a.frame.plot y).xch a.frame.plot =
      storeGet {} (storeSet {} v.pyu.xch a.frame.plot y) a.frame.plot := rfl
  have hports : w.pyu.ports = t.pyu.ports := by rw [hpadt]
  exact ⟨hmem, by rw [hset, hset, hpadt, hpads, hxch], hports⟩

end

end Sys2Proof.Machine

/-! O35: the frame period of a port, its receiver, its sender and its replays (R277 to R283, R296). -/

namespace Sys2Proof.Machine

set_option Elab.async false

section

variable {s : State} {p : Fin 16}

theorem exec_frameReceive (hup : (s.port p).st = portUp) (a : FrameIn) (hdone : a.done = []) :
    exec (.frameReceive p a) s = .next ((s.receive p a).sendFrame p a.offers) := by
  have hexec : exec (.frameReceive p a) s = .next (((s.receive p a).consumed p a.done).sendFrame p a.offers) :=
    congrArg Host.Outcome.next (if_pos (decide_eq_true hup))
  rw [hexec, hdone]
  rfl

/-! ## The receiver (R280, R283) -/

theorem State.fec_port (s : State) (p q : Nat) (a : FrameIn) : (s.fec p a).port q = s.port q := by
  have hkeep : (s.fec p a).pyu = s.pyu := (s.fec_evolves p a).keep .pyu (by decide)
  exact State.port_congr (by rw [hkeep]) q

theorem State.receive_bad {a : FrameIn} (hbad : a.uncorr ≠ 0 ∨ a.crcBad = true) :
    s.receive p a = ((s.fec p a).setPort p { s.port p with asking := true }).bel64 (portCnt p 5) 1 := by
  unfold State.receive
  dsimp only
  rw [if_pos hbad, s.fec_port]

theorem State.receive_skips {a : FrameIn} (hgood : ¬(a.uncorr ≠ 0 ∨ a.crcBad = true)) (hnext : a.frame.seq ≠ ((s.port p).rxSeq + 1) % 4096) :
    s.receive p a = s.fec p a := by
  unfold State.receive
  dsimp only
  rw [if_neg hgood, s.fec_port]
  exact if_neg hnext

theorem State.receive_takes {a : FrameIn} (hgood : ¬(a.uncorr ≠ 0 ∨ a.crcBad = true)) (hnext : a.frame.seq = ((s.port p).rxSeq + 1) % 4096) :
    s.receive p a = (s.fec p a).goodFrame p a := by
  unfold State.receive
  dsimp only
  rw [if_neg hgood, s.fec_port]
  exact if_pos hnext

/-- The port after a good frame in order. -/
def Port.received (x : Port) (seq : Nat) : Port := { x with rxSeq := seq, asking := false }

/-- A good frame at a port that waits for no acknowledgement. -/
theorem State.goodFrame_idle {a : FrameIn} (hup : (s.port p).st = portUp) (hsent : (s.port p).sent = []) :
    s.goodFrame p a = ((s.setPort p ((s.port p).received a.frame.seq)).creditsBack a.frame.creditPlot p
      a.frame.creditCount).deliverFrame p a := by
  have hport : (s.setPort p ((s.port p).received a.frame.seq)).port p = (s.port p).received a.frame.seq :=
    s.port_setPort_new p (Port.ne_default_of_st (by rw [Port.received, hup]; decide))
  have heq : s.goodFrame p a = ((((s.setPort p ((s.port p).received a.frame.seq)).acked p a.frame.ack).naked p
    a.frame.nak).creditsBack a.frame.creditPlot p a.frame.creditCount).deliverFrame p a := rfl
  rw [heq]
  generalize s.setPort p ((s.port p).received a.frame.seq) = u at *
  have hnone : (u.port p).sent = [] := by rw [hport]; exact hsent
  have hacked : u.acked p a.frame.ack = u := by
    unfold State.acked
    dsimp only
    rw [hnone] <;> rfl
  have hnaked : u.naked p a.frame.nak = u := by
    unfold State.naked State.startReplay
    dsimp only
    rw [hnone]
    exact ite_self _
  rw [hacked, hnaked]

/-! ## The sender (R277, R278, R281) -/

/-- A port with nothing to repeat sends a new frame. -/
theorem State.sendFrame_new (hup : (s.port p).st = portUp) (hsent : (s.port p).sent = []) (hcursor : (s.port p).cursor = none)
    (l : List Offer) : s.sendFrame p l = s.sendNew p l := by
  unfold State.sendFrame State.framePeriod
  rw [if_neg (fun h => h hup), hcursor, hsent]
  rfl

/-- With nothing to go the port sends an idle frame. -/
theorem State.sendFrame_idle (hup : (s.port p).st = portUp) (hsent : (s.port p).sent = []) (hcursor : (s.port p).cursor = none) :
    ∃ t f, s.sendFrame p [] = t ∧ .frame p f ∈ t.out ∧ f.kind = 0 ∧ f.seq = (s.port p).txSeq ∧ f.ack = (t.port p).rxSeq ∧
      f.nak = (t.port p).asking ∧ (t.port p).txSeq = ((s.port p).txSeq + 1) % 4096 ∧ (t.port p).sent = [(f, 0)] ∧
      (t.port p).rxSeq = (s.port p).rxSeq ∧ (t.port p).asking = (s.port p).asking ∧ s.portsOnly t ∧
      Writes [.pyu, .bel, .out] [] s t := by
  have hnew := State.sendFrame_new hup hsent hcursor []
  have hidle : s.sendNew p [] = (s.bel64 (portCnt p 2) 1).pushFrame p idleFrame := rfl
  have hcount := s.bel64_evolves (portCnt p 2) 1
  have hport : (s.bel64 (portCnt p 2) 1).port p = s.port p := rfl
  rw [hidle] at hnew
  generalize s.bel64 (portCnt p 2) 1 = u at *
  obtain ⟨hout, hpush, -⟩ := u.pushFrame_sends (p := p) (by rw [hport, hup]; decide) idleFrame
  have hlaw := u.pushFrame_writes p idleFrame
  have honly := u.pushFrame_portsOnly p idleFrame
  rw [hport] at hout hpush
  rw [hnew]
  generalize u.pushFrame p idleFrame = t at *
  refine ⟨t, (s.port p).newFrame idleFrame, rfl, by rw [hout]; exact List.mem_append_right _ (List.mem_singleton_self _), rfl, rfl, ?_, ?_,
    ?_, ?_, ?_, ?_, hcount.portsOnly.trans honly, (hcount.writes.widen (Q := [.pyu, .bel, .out]) (hl := fun _ h => h)).step hlaw⟩
  · rw [hpush]
    rfl
  · rw [hpush]
    rfl
  · rw [hpush]
    rfl
  · rw [hpush, Port.pushed, hsent]
    rfl
  · rw [hpush]
    rfl
  · rw [hpush]
    rfl

/-! ## A good frame in order (R280, R281, R303) -/

theorem State.creditsBack_none (plot port : Nat) : s.creditsBack plot port 0 = s := by
  unfold State.creditsBack
  exact if_pos rfl

/-- Credits return to their sender. -/
theorem State.creditsBack_returns (hends : storeWf {} s.pyu.ends = true) (q port : Nat) {n : Nat} (hn : n ≠ 0) :
    let t := s.creditsBack q port n;
    (ownEnd (s.plot q) port false = true → (t.plot q).held = min 65535 ((s.plot q).held + n)) ∧
      (ownEnd (s.plot q) port false = false → (t.linkEnd q port false).used = (s.linkEnd q port false).used - n) := by
  dsimp only
  unfold State.creditsBack
  dsimp only
  rw [if_neg hn]
  refine ⟨fun hown => ?_, fun hother => ?_⟩
  · rw [if_pos hown]
    have hset : (s.setPlot q { s.plot q with held := min 65535 ((s.plot q).held + n) }).plot q =
        { s.plot q with held := min 65535 ((s.plot q).held + n) } :=
      storeGet_storeSet_new _ _ _ _ fun h => by
        have hheld : min 65535 ((s.plot q).held + n) = 0 := congrArg Plot.held h
        omega
    rw [hset]
  · rw [if_neg (by simp [hother])]
    have hset : (s.setEnd q port false { s.linkEnd q port false with used := (s.linkEnd q port false).used - n }).linkEnd q port
        false = { s.linkEnd q port false with used := (s.linkEnd q port false).used - n } :=
      storeGet_storeSet_same _ _ _ _ hends
    rw [hset]

theorem State.creditsBack_writes (s : State) (q port n : Nat) : Writes [.stl, .pyu] [] s (s.creditsBack q port n) ∧
    (s.creditsBack q port n).pyu.ports = s.pyu.ports := by
  refine ⟨((s.creditsBack_evolves q port n).widen rfl).writes, ?_⟩
  unfold State.creditsBack
  dsimp only
  split
  · rfl
  · split <;> rfl

/-- What a good frame in order delivers is a frame period apart from the port. -/
structure Delivered (p : Nat) (a : FrameIn) (s t : State) : Prop where
  ports : t.pyu.ports = s.pyu.ports
  credits : a.frame.kind = 0 → a.frame.creditCount ≠ 0 →
    (ownEnd (s.plot a.frame.creditPlot) p false = true →
      (t.plot a.frame.creditPlot).held = min 65535 ((s.plot a.frame.creditPlot).held + a.frame.creditCount)) ∧
    (ownEnd (s.plot a.frame.creditPlot) p false = false → (t.linkEnd a.frame.creditPlot p false).used =
      (s.linkEnd a.frame.creditPlot p false).used - a.frame.creditCount)
  data : a.frame.kind = 1 → a.frame.creditCount = 0 → t = s.dataFrame p a
  counts : a.frame.kind = 4 → a.frame.creditCount = 0 → t = s.occupancy a

theorem State.exchangeData_ports (s : State) (port plot : Nat) (bs : List Byte) (d : Option ExchangeDest) :
    (s.exchangeData port plot bs d).pyu.ports = s.pyu.ports := (s.exchangeData_used port plot bs d).ports

theorem State.dataFrame_ports (hwf : storeWf 0 s.regs = true) (port : Nat) (a : FrameIn) :
    (s.dataFrame port a).pyu.ports = s.pyu.ports := by
  by_cases hexp : (s.crosses a.frame.plot port true && (s.earlyFrame (s.linkEnd a.frame.plot port true) a.frame.pos ||
      decide (a.frame.pos = (s.linkEnd a.frame.plot port true).frames % 65536))) = true
  · obtain ⟨-, -, -, -, -, -, -, hports⟩ := State.dataFrame_takes hwf port a hexp
    exact hports
  · have hfatal : s.dataFrame port a = s.cloFatal 6 port a.frame.plot := by
      unfold State.dataFrame
      exact if_neg hexp
    have hkeep : (s.cloFatal 6 port a.frame.plot).pyu = s.pyu := (s.cloFatal_evolves _ _ _).keep .pyu (by decide)
    rw [hfatal, hkeep]

theorem State.deliverFrame_delivers (hwf : storeWf 0 s.regs = true) (hends : storeWf {} s.pyu.ends = true) (port : Nat) (a : FrameIn) :
    Delivered port a s ((s.creditsBack a.frame.creditPlot port a.frame.creditCount).deliverFrame port a) := by
  obtain ⟨hlaw, hports⟩ := s.creditsBack_writes a.frame.creditPlot port a.frame.creditCount
  refine ⟨?_, fun hkind hn => ?_, fun hkind hn => ?_, fun hkind hn => ?_⟩
  · unfold State.deliverFrame
    split
    · exact (State.dataFrame_ports (hlaw.wf hwf) port a).trans hports
    · split
      · exact (State.occupancy_congr (State.portsOnly_refl _) a).2.2.trans hports
      · exact hports
  · unfold State.deliverFrame
    rw [if_neg (by omega), if_neg (by omega)]
    exact State.creditsBack_returns hends _ port hn
  · rw [hn, State.creditsBack_none]
    exact if_pos hkind
  · rw [hn, State.creditsBack_none]
    unfold State.deliverFrame
    rw [if_neg (by omega), if_pos hkind]

/-- The state in which a good frame in order is acted on. -/
def State.accepted (s : State) (p : Nat) (a : FrameIn) : State := (s.fec p a).setPort p ((s.port p).received a.frame.seq)

theorem State.accepted_portsOnly (s : State) (p : Nat) (a : FrameIn) : s.portsOnly (s.accepted p a) :=
  (s.fec_evolves p a).portsOnly.trans (State.setPort_portsOnly _ _ _)

theorem State.accepted_writes (s : State) (p : Nat) (a : FrameIn) : Writes (.pyu :: Part.fec) (Reg.fec p) s (s.accepted p a) :=
  ((s.fec_writes p a).widen (hl := fun _ h => h)).step (State.setPort_evolves _ _ _).writes

theorem State.receive_delivers {a : FrameIn} (hwf : storeWf 0 s.regs = true) (hends : storeWf {} s.pyu.ends = true)
    (hup : (s.port p).st = portUp) (hsent : (s.port p).sent = []) (hgood : ¬(a.uncorr ≠ 0 ∨ a.crcBad = true))
    (hnext : a.frame.seq = ((s.port p).rxSeq + 1) % 4096) : Delivered p a (s.accepted p a) (s.receive p a) ∧
      (s.receive p a).port p = (s.port p).received a.frame.seq := by
  have hfec := s.fec_port p p a
  have hlaw := s.accepted_writes p a
  have hport : (s.accepted p a).port p = (s.port p).received a.frame.seq :=
    State.port_setPort_new _ _ (Port.ne_default_of_st (by rw [Port.received, hup]; decide))
  obtain ⟨-, -, -, hends', -⟩ := (s.accepted_portsOnly p a).parts
  have hdel := State.deliverFrame_delivers (hlaw.wf hwf) (hends' ▸ hends) p a
  rw [State.receive_takes hgood hnext, State.goodFrame_idle (by rw [hfec, hup]) (by rw [hfec, hsent]), hfec]
  exact ⟨hdel, (State.port_congr hdel.ports p).trans hport⟩

/-- R279, R303: a data frame in its place, at the port that it reached. -/
theorem receive_data {a : FrameIn} (hwf : storeWf 0 s.regs = true)
    (hexp : (s.crosses a.frame.plot p true && (s.earlyFrame (s.linkEnd a.frame.plot p true) a.frame.pos ||
      decide (a.frame.pos = (s.linkEnd a.frame.plot p true).frames % 65536))) = true) :
    let t := (s.accepted p a).dataFrame p a;
    let x := s.plot a.frame.plot;
    let early := s.earlyFrame (s.linkEnd a.frame.plot p true) a.frame.pos;
    (t.plot a.frame.plot).arrived = x.arrived + 1 ∧ (t.plot a.frame.plot).branch = a.frame.branch ∧
      (early = false → (t.linkEnd a.frame.plot p true).frames = (s.linkEnd a.frame.plot p true).frames + 1) ∧
      (early = true → (t.linkEnd a.frame.plot p true).early = (s.linkEnd a.frame.plot p true).early + 1) ∧
      (ownEnd x p true = true → (t.plot a.frame.plot).held = x.held + 1 ∧
        (early = false → (t.plot a.frame.plot).position = x.position + 1)) ∧
      t.regN (bankKey Reg.PYU_FRAMES_RX p) = min (s.regN (bankKey Reg.PYU_FRAMES_RX p) + 1) (2 ^ 64 - 1) ∧
      (x.kind = 1 → (s.devWrite .scheduled (frameAt x (x.arrived % max x.credits 1)) (usedBytes a.frame)).sameBytes t) := by
  have honly := s.accepted_portsOnly p a
  have hlaw := s.accepted_writes p a
  obtain ⟨htick, hstl, himage, hends, -⟩ := honly.parts
  have hplot : (s.accepted p a).plot a.frame.plot = s.plot a.frame.plot := State.plot_congr hstl _
  have hend : (s.accepted p a).linkEnd a.frame.plot p true = s.linkEnd a.frame.plot p true := State.linkEnd_congr hends _ _ _
  have hreg : (s.accepted p a).regN (bankKey Reg.PYU_FRAMES_RX p) = s.regN (bankKey Reg.PYU_FRAMES_RX p) :=
    hlaw.regN (bank_notMem (by decide) fun k hk => by
      have hin := Reg.mem_fec hk
      intro heq
      rw [heq] at hin
      exact absurd hin (by decide))
  have htakes := State.dataFrame_takes (hlaw.wf hwf) p a
  dsimp only at htakes
  rw [honly.crosses, hend, honly.earlyFrame, hplot, hreg] at htakes
  obtain ⟨harrived, hbranch, hlate, hearly, hheld, hcount, hmem, -⟩ := htakes hexp
  exact ⟨harrived, hbranch, hlate, hearly, hheld, hcount, fun hkind b =>
    (hmem hkind b).trans ((honly.memAgrees.devWrite _ _ _).sameBytes b)⟩

/-- R265: a misplaced data frame is fatal. -/
theorem receive_misplaced {a : FrameIn} (hwf : storeWf 0 s.regs = true)
    (hexp : (s.crosses a.frame.plot p true && (s.earlyFrame (s.linkEnd a.frame.plot p true) a.frame.pos ||
      decide (a.frame.pos = (s.linkEnd a.frame.plot p true).frames % 65536))) = false) :
    ((s.accepted p a).dataFrame p a).bit Reg.CLO_EVENT 1 = true ∧ ((s.accepted p a).dataFrame p a).tick.stopped = true ∧
      s.sameBytes ((s.accepted p a).dataFrame p a) := by
  have honly := s.accepted_portsOnly p a
  have hlaw := s.accepted_writes p a
  obtain ⟨-, -, -, hends, -⟩ := honly.parts
  have hend : (s.accepted p a).linkEnd a.frame.plot p true = s.linkEnd a.frame.plot p true := State.linkEnd_congr hends _ _ _
  have hfatal : (s.accepted p a).dataFrame p a = (s.accepted p a).cloFatal 6 p a.frame.plot := by
    unfold State.dataFrame
    dsimp only
    rw [honly.crosses, hend, honly.earlyFrame, hexp]
    exact if_neg (by decide)
  rw [hfatal]
  obtain ⟨hbit, htick, -, hwrites⟩ := State.cloFatal_shows (hlaw.wf hwf) 6 p a.frame.plot
  have hsame := hwrites.evolves.memAgrees
  exact ⟨hbit, by rw [htick], (honly.memAgrees.trans hsame).sameBytes⟩

/-- R280: a frame that is not taken leaves all but the acknowledgement as it was. -/
theorem receive_discards {a : FrameIn} (hup : (s.port p).st = portUp)
    (hskip : (a.uncorr ≠ 0 ∨ a.crcBad = true) ∨ a.frame.seq ≠ ((s.port p).rxSeq + 1) % 4096) :
    (s.receive p a).port p = (if a.uncorr ≠ 0 ∨ a.crcBad = true then { s.port p with asking := true } else s.port p) ∧
      s.portsOnly (s.receive p a) := by
  have hfec := s.fec_port p p a
  have honly := (s.fec_evolves p a).portsOnly
  by_cases hbad : a.uncorr ≠ 0 ∨ a.crcBad = true
  · rw [State.receive_bad hbad, if_pos hbad]
    generalize s.fec p a = u at *
    have hne : { s.port p with asking := true } ≠ ({} : Port) := Port.ne_default_of_st (by simp only [hup]; decide)
    generalize { s.port p with asking := true } = x at *
    exact ⟨u.port_setPort_new p hne, (honly.trans (u.setPort_portsOnly p x)).trans (State.bel64_evolves _ _ _).portsOnly⟩
  · rw [State.receive_skips hbad (hskip.resolve_left hbad), if_neg hbad]
    exact ⟨hfec, honly⟩

/-- A frame period of a port that is UP, with nothing to send but the idle frame. -/
theorem frameReceive_period (hwf : storeWf 0 s.regs = true) (hends : storeWf {} s.pyu.ends = true) {a : FrameIn}
    (hup : (s.port p).st = portUp) (hsent : (s.port p).sent = []) (hcursor : (s.port p).cursor = none) (hdone : a.done = [])
    (hoffers : a.offers = []) : ∃ v t f, v = s.receive p a ∧ exec (.frameReceive p a) s = .next t ∧ .frame p f ∈ t.out ∧ f.kind = 0 ∧
      f.seq = (s.port p).txSeq ∧ f.ack = (t.port p).rxSeq ∧ f.nak = (t.port p).asking ∧
      (t.port p).txSeq = ((s.port p).txSeq + 1) % 4096 ∧ (t.port p).sent = [(f, 0)] ∧
      (t.port p).rxSeq = (v.port p).rxSeq ∧ (t.port p).asking = (v.port p).asking ∧ v.portsOnly t ∧
      Writes [.pyu, .bel, .out] [] v t := by
  obtain ⟨v, hv⟩ : ∃ v, v = s.receive p a := ⟨_, rfl⟩
  have hport : (v.port p).st = portUp ∧ (v.port p).sent = [] ∧ (v.port p).cursor = none ∧ (v.port p).txSeq = (s.port p).txSeq := by
    rw [hv]
    by_cases hskip : (a.uncorr ≠ 0 ∨ a.crcBad = true) ∨ a.frame.seq ≠ ((s.port p).rxSeq + 1) % 4096
    · rw [(receive_discards hup hskip).1]
      split <;> exact ⟨hup, hsent, hcursor, rfl⟩
    · obtain ⟨hgood, hnext⟩ := not_or.mp hskip
      rw [(State.receive_delivers hwf hends hup hsent hgood (not_not.mp hnext)).2]
      exact ⟨hup, hsent, hcursor, rfl⟩
  obtain ⟨hst, hnone, hstill, htx⟩ := hport
  obtain ⟨t, f, ht, hout, hkind, hseq, hack, hnak, htxt, hsentt, hrx, hask, honly, hlaw⟩ :=
    State.sendFrame_idle hst hnone hstill
  have hexec := exec_frameReceive hup a hdone
  rw [hoffers, ← hv, ht] at hexec
  exact ⟨v, t, f, hv, hexec, hout, hkind, hseq.trans htx, hack, hnak, by rw [htxt, htx], hsentt, hrx, hask, honly, hlaw⟩

/-- The receiver's part of O35. -/
theorem frames_received (hwf : storeWf 0 s.regs = true) (hends : storeWf {} s.pyu.ends = true) (a : FrameIn)
    (hup : (s.port p).st = portUp) (hsent : (s.port p).sent = []) (hcursor : (s.port p).cursor = none) (hdone : a.done = [])
    (hoffers : a.offers = []) :
       let bad := a.uncorr ≠ 0 ∨ a.crcBad = true
       let next := a.frame.seq = ((s.port p).rxSeq + 1) % 4096
       let x := s.plot a.frame.plot
       let e := s.linkEnd a.frame.plot p true
       let early := s.earlyFrame e a.frame.pos
       let expected := s.crosses a.frame.plot p true && (early || decide (a.frame.pos = e.frames % 65536))
       ∃ t f, exec (.frameReceive p a) s = .next t ∧ .frame p f ∈ t.out ∧ f.kind = 0 ∧ f.seq = (s.port p).txSeq ∧
         f.ack = (t.port p).rxSeq ∧ f.nak = (t.port p).asking ∧ (t.port p).txSeq = ((s.port p).txSeq + 1) % 4096 ∧
         (t.port p).sent = [(f, 0)] ∧
         (bad → (t.port p).rxSeq = (s.port p).rxSeq ∧ (t.port p).asking = true ∧ s.sameBytes t) ∧
         (¬ bad → ¬ next → (t.port p).rxSeq = (s.port p).rxSeq ∧ (t.port p).asking = (s.port p).asking ∧ s.sameBytes t) ∧
         (¬ bad → next → (t.port p).rxSeq = a.frame.seq ∧ (t.port p).asking = false) ∧
         (¬ bad → next → a.frame.kind = 0 → a.frame.creditCount ≠ 0 →
           let q := a.frame.creditPlot
           (ownEnd (s.plot q) p false = true → (t.plot q).held = min 65535 ((s.plot q).held + a.frame.creditCount)) ∧
           (ownEnd (s.plot q) p false = false → (t.linkEnd q p false).used = (s.linkEnd q p false).used - a.frame.creditCount)) ∧
         (¬ bad → next → a.frame.kind = 1 → a.frame.creditCount = 0 → expected = true →
           (t.plot a.frame.plot).arrived = x.arrived + 1 ∧ (t.plot a.frame.plot).branch = a.frame.branch ∧
           (early = false → (t.linkEnd a.frame.plot p true).frames = e.frames + 1) ∧
           (early = true → (t.linkEnd a.frame.plot p true).early = e.early + 1) ∧
           (ownEnd x p true = true → (t.plot a.frame.plot).held = x.held + 1 ∧
             (early = false → (t.plot a.frame.plot).position = x.position + 1)) ∧
           t.regN (bankKey Reg.PYU_FRAMES_RX p) = min (s.regN (bankKey Reg.PYU_FRAMES_RX p) + 1) (2 ^ 64 - 1) ∧
           (x.kind = 1 → ∀ b, t.devByte b = (s.devWrite .scheduled (frameAt x (x.arrived % max x.credits 1))
             (usedBytes a.frame)).devByte b)) ∧
         (¬ bad → next → a.frame.kind = 1 → a.frame.creditCount = 0 → expected = false →
           t.bit Reg.CLO_EVENT 1 = true ∧ t.tick.stopped = true ∧ s.sameBytes t) ∧
         (¬ bad → next → a.frame.kind = 4 → a.frame.creditCount = 0 →
           t.xch a.frame.plot = (s.occupancy a).xch a.frame.plot ∧ ∀ b, t.devByte b = (s.occupancy a).devByte b) := by
  intro bad next x e early expected
  obtain ⟨v, t, f, hv, hexec, hout, hkind, hseq, hack, hnak, htx, hsentt, hrx, hask, honly, hlaw⟩ :=
    frameReceive_period hwf hends hup hsent hcursor hdone hoffers
  obtain ⟨htick, hstl, -, hendst, hxch⟩ := honly.parts
  have hsame := honly.memAgrees.sameBytes
  have hplot (q : Nat) : t.plot q = v.plot q := State.plot_congr hstl q
  have hend (q r : Nat) (b : Bool) : t.linkEnd q r b = v.linkEnd q r b := State.linkEnd_congr hendst q r b
  have hdel (hgood : ¬bad) (hnext : next) := State.receive_delivers hwf hends hup hsent hgood hnext
  refine ⟨t, f, hexec, hout, hkind, hseq, hack, hnak, htx, hsentt, fun hbad => ?_, fun hgood hskip => ?_, fun hgood hnext => ?_,
    fun hgood hnext hzero hn => ?_, fun hgood hnext hdata hn hexp => ?_, fun hgood hnext hdata hn hexp => ?_,
    fun hgood hnext hocc hn => ?_⟩
  · obtain ⟨hport, hquiet⟩ := receive_discards (p := p) hup (.inl hbad)
    rw [if_pos hbad, ← hv] at hport
    exact ⟨by rw [hrx, hport], by rw [hask, hport], fun b => (hsame b).trans (hv ▸ hquiet.memAgrees.sameBytes b)⟩
  · obtain ⟨hport, hquiet⟩ := receive_discards (p := p) hup (.inr hskip)
    rw [if_neg hgood, ← hv] at hport
    exact ⟨by rw [hrx, hport], by rw [hask, hport], fun b => (hsame b).trans (hv ▸ hquiet.memAgrees.sameBytes b)⟩
  · have hport := (hdel hgood hnext).2
    rw [← hv] at hport
    rw [hrx, hask, hport]
    exact ⟨rfl, rfl⟩
  · have hcredits := (hdel hgood hnext).1.credits hzero hn
    have haccepted := s.accepted_portsOnly p a
    obtain ⟨-, hstl', -, hends', -⟩ := haccepted.parts
    rw [← hv, State.plot_congr hstl', State.linkEnd_congr hends'] at hcredits
    dsimp only
    rw [hplot, hend]
    exact hcredits
  · have hdata' := (hdel hgood hnext).1.data hdata hn
    rw [← hv] at hdata'
    obtain ⟨harrived, hbranch, hlate, hearly, hheld, hcount, hmem⟩ := receive_data (p := p) hwf hexp
    rw [← hdata'] at harrived hbranch hlate hearly hheld hcount hmem
    rw [hplot, hend, hlaw.regN List.not_mem_nil]
    exact ⟨harrived, hbranch, hlate, hearly, hheld, hcount, fun h b => (hsame b).trans (hmem h b)⟩
  · have hdata' := (hdel hgood hnext).1.data hdata hn
    rw [← hv] at hdata'
    obtain ⟨hbit, hstop, hbytes⟩ := receive_misplaced (p := p) hwf hexp
    rw [← hdata'] at hbit hstop hbytes
    exact ⟨(hlaw.bit List.not_mem_nil 1).trans hbit, by rw [htick, hstop], fun b => (hsame b).trans (hbytes b)⟩
  · have hcounts := (hdel hgood hnext).1.counts hocc hn
    rw [← hv] at hcounts
    obtain ⟨hmem, hcount, -⟩ := State.occupancy_congr (s.accepted_portsOnly p a) a
    rw [← hcounts] at hmem hcount
    have hsamexch : t.xch a.frame.plot = v.xch a.frame.plot := by
      rw [State.xch, hxch]
      rfl
    exact ⟨hsamexch.trans hcount, fun b => (hsame b).trans (hmem.sameBytes b)⟩

/-! ## What an offer may send (R205, R268, R281, R289) -/

theorem State.queuedFrame_offer {o : Offer} {port frames : Nat} {r : Ready} (h : s.queuedFrame o port frames = some r) : r.offer = o := by
  unfold State.queuedFrame at h
  dsimp only at h
  split at h
  · rw [← Option.some.inj h]
  · split at h
    · rw [← Option.some.inj h]
    · exact absurd h (by simp)

theorem State.recordFrame_offer {o : Offer} {x : ExchangeSend} {e : ExchangeStream} {te : TensorEntry} {frames : Nat} {r : Ready}
    (h : s.recordFrame o x e te frames = some r) : r.offer = o := by
  unfold State.recordFrame at h
  dsimp only at h
  split at h
  · exact absurd h (by simp)
  · rw [← Option.some.inj h]

theorem State.exchangeFrame_offer {o : Offer} {x : ExchangeSend} {frames : Nat} {r : Ready}
    (h : s.exchangeFrame o x frames = some r) : r.offer = o := by
  unfold State.exchangeFrame at h
  split at h
  · dsimp only at h
    generalize (if storeGet 0 s.pyu.occ o.plot / 4 = x.start + 1 then storeGet 0 s.pyu.occ o.plot % 4 else 0) = n at h
    split at h
    · rw [← Option.some.inj h]
    · exact State.recordFrame_offer h
  · exact absurd h (by simp)

/-- R205, R268, R281, R289: what goes out goes over the plot's stream, outside the maintenance slot, and against a credit. -/
theorem State.ready1_some {o : Offer} {r : Ready} {port : Nat} (h : s.ready1 port o = some r) : r.offer = o ∧
    (r.frame.kind ≠ 4 → 0 < s.creditsAt o.plot port) ∧ s.tick.inMaint = false ∧ s.crosses o.plot port false = true := by
  unfold State.ready1 at h
  dsimp only at h
  split at h
  · exact absurd h (by simp)
  next hopen =>
  obtain ⟨r', hr', hcredit⟩ := Option.bind_eq_some_iff.mp h
  have hkind : r' = r ∧ (r.frame.kind = 4 ∨ 0 < s.creditsAt o.plot port) := by
    split at hcredit
    · next hc =>
      obtain rfl := Option.some.inj hcredit
      exact ⟨rfl, hc⟩
    · exact absurd hcredit (by simp)
  obtain ⟨rfl, hc⟩ := hkind
  obtain ⟨hmaint, hcross⟩ : s.tick.inMaint = false ∧ s.crosses o.plot port false = true := by simpa using hopen
  refine ⟨?_, hc.resolve_left, hmaint, hcross⟩
  split at hr'
  · exact State.queuedFrame_offer hr'
  · split at hr'
    · exact absurd hr' (by simp)
    · rw [← Option.some.inj hr']
  · exact State.exchangeFrame_offer hr'

/-! ## What sending spends (R281, R295, R303) -/

theorem State.bumpBytes_writes (s : State) (l : List Nat) : Writes Part.devWrite Reg.devWrite s (s.bumpBytes l) := by
  induction l generalizing s with
  | nil => exact Writes.refl s
  | cons a l ih => exact (s.devWrite_writes _ _ _).step (ih _) (hl := fun _ h => h)

theorem State.sentOccupancy_ports (s : State) (o : Offer) : (s.sentOccupancy o).pyu.ports = s.pyu.ports := by
  unfold State.sentOccupancy
  split <;> rfl

theorem State.sentVec_parts (s : State) (port : Nat) (o : Offer) : (s.sentVec port o).pyu.ports = s.pyu.ports ∧
    (s.sentVec port o).pyu.ends = s.pyu.ends ∧ (s.sentVec port o).stl = s.stl ∧ (s.sentVec port o).regs = s.regs := by
  unfold State.sentVec
  dsimp only
  split
  · exact ⟨rfl, rfl, rfl, rfl⟩
  · exact ⟨rfl, rfl, rfl, rfl⟩

/-- R281, R303: a data frame that goes out takes its credit and its place. -/
theorem State.frameSent_takes (s : State) (plot port : Nat) : let t := s.frameSent plot port;
    (t.linkEnd plot port false).frames = (s.linkEnd plot port false).frames + 1 ∧
      (ownEnd (s.plot plot) port false = true → (t.plot plot).held = (s.plot plot).held - 1 ∧
        (t.plot plot).position = (s.plot plot).position + 1) ∧ t.pyu.ports = s.pyu.ports ∧ t.regs = s.regs := by
  have hset (u : State) (e : LinkEnd) (n : Nat) (h : e.frames = n + 1) : (u.setEnd plot port false e).linkEnd plot port false = e :=
    storeGet_storeSet_new _ _ _ _ fun hz => absurd (h.symm.trans (congrArg LinkEnd.frames hz)) (Nat.succ_ne_zero n)
  dsimp only
  unfold State.frameSent
  dsimp only
  split
  · next hown =>
    have hplot (y : Plot) (e : LinkEnd) (n : Nat) (h : y.position = n + 1) : ((s.setPlot plot y).setEnd plot port false e).plot plot = y :=
      storeGet_storeSet_new _ _ _ _ fun hz => absurd (h.symm.trans (congrArg Plot.position hz)) (Nat.succ_ne_zero n)
    rw [hset _ _ _ rfl, hplot _ _ _ rfl]
    exact ⟨rfl, fun _ => ⟨rfl, rfl⟩, rfl, rfl⟩
  · next hother =>
    rw [hset _ _ _ rfl]
    exact ⟨rfl, fun hown => absurd hown hother, rfl, rfl⟩

/-- What sending counts besides leaves ports, plots and streams alone. -/
theorem State.spend_rest (s : State) (port : Nat) (r : Ready) : let t :=
      (if r.cut.isEmpty then (if r.left then (s.bel64 (portCnt port 21) r.records).event Reg.PYU_EVENT 4 else s.bel64 (portCnt port 21) r.records)
        else ((if r.left then (s.bel64 (portCnt port 21) r.records).event Reg.PYU_EVENT 4 else s.bel64 (portCnt port 21) r.records).count
          Reg.PYU_XCH_CUT 32 r.cut.length).bumpBytes r.cut);
    Writes Part.devWrite [Reg.PYU_EVENT, Reg.PYU_XCH_CUT, Reg.MEM_EVENT, Reg.MEM_WCB_EVICT] s t := by
  have hcount := (s.bel64_evolves (portCnt port 21) r.records).writes
  dsimp only
  generalize s.bel64 (portCnt port 21) r.records = u at *
  obtain ⟨v, hv, hlaw⟩ : ∃ v, v = (if r.left then u.event Reg.PYU_EVENT 4 else u) ∧
      Writes Part.devWrite [Reg.PYU_EVENT, Reg.PYU_XCH_CUT, Reg.MEM_EVENT, Reg.MEM_WCB_EVICT] s v := by
    refine ⟨_, rfl, ?_⟩
    split
    · exact hcount.widen.step (u.event_writes Reg.PYU_EVENT 4)
    · exact hcount.widen
  rw [← hv]
  split
  · exact hlaw
  · exact (hlaw.step (v.count_writes Reg.PYU_XCH_CUT 32 _)).step (State.bumpBytes_writes _ _)

/-- R281: what sending a frame spends. -/
theorem State.spend_spends (hwf : storeWf 0 s.regs = true) (port : Nat) (r : Ready) : let t := s.spend port r;
    t.pyu.ports = s.pyu.ports ∧ (r.frame.kind ≠ 4 →
      (t.linkEnd r.offer.plot port false).frames = (s.linkEnd r.offer.plot port false).frames + 1 ∧
      (ownEnd (s.plot r.offer.plot) port false = true → (t.plot r.offer.plot).held = (s.plot r.offer.plot).held - 1 ∧
        (t.plot r.offer.plot).position = (s.plot r.offer.plot).position + 1) ∧
      t.regN (bankKey Reg.PYU_FRAMES_TX port) = min (s.regN (bankKey Reg.PYU_FRAMES_TX port) + 1) (2 ^ 64 - 1)) := by
  obtain ⟨u, hu, hports, hspent⟩ : ∃ u, u = (if r.frame.kind = 4 then s.sentOccupancy r.offer
      else (((s.sentVec port r.offer).frameSent r.offer.plot port).count (bankKey Reg.PYU_FRAMES_TX port) 64 1).bel64
        (portCnt port 0) 1) ∧ u.pyu.ports = s.pyu.ports ∧ (r.frame.kind ≠ 4 →
      (u.linkEnd r.offer.plot port false).frames = (s.linkEnd r.offer.plot port false).frames + 1 ∧
      (ownEnd (s.plot r.offer.plot) port false = true → (u.plot r.offer.plot).held = (s.plot r.offer.plot).held - 1 ∧
        (u.plot r.offer.plot).position = (s.plot r.offer.plot).position + 1) ∧
      u.regN (bankKey Reg.PYU_FRAMES_TX port) = min (s.regN (bankKey Reg.PYU_FRAMES_TX port) + 1) (2 ^ 64 - 1)) := by
    refine ⟨_, rfl, ?_⟩
    split
    · next h => exact ⟨s.sentOccupancy_ports r.offer, fun hne => absurd h hne⟩
    · obtain ⟨hports, hends, hstl, hregs⟩ := s.sentVec_parts port r.offer
      generalize s.sentVec port r.offer = b at *
      have htaken := b.frameSent_takes r.offer.plot port
      dsimp only at htaken
      rw [State.linkEnd_congr hends, State.plot_congr hstl] at htaken
      generalize b.frameSent r.offer.plot port = c at *
      obtain ⟨hframes, hown, hportsc, hregsc⟩ := htaken
      have hwfc : storeWf 0 c.regs = true := by rw [hregsc, hregs]; exact hwf
      have hcounted := c.regN_count (bankKey Reg.PYU_FRAMES_TX port) 64 1 hwfc (by decide)
      have hbefore : c.regN (bankKey Reg.PYU_FRAMES_TX port) = s.regN (bankKey Reg.PYU_FRAMES_TX port) := by
        rw [State.regN, State.reg, hregsc, hregs]
        rfl
      rw [hbefore] at hcounted
      have hparts : ((c.count (bankKey Reg.PYU_FRAMES_TX port) 64 1).bel64 (portCnt port 0) 1).pyu = c.pyu ∧
          ((c.count (bankKey Reg.PYU_FRAMES_TX port) 64 1).bel64 (portCnt port 0) 1).stl = c.stl := ⟨rfl, rfl⟩
      have hreg : ((c.count (bankKey Reg.PYU_FRAMES_TX port) 64 1).bel64 (portCnt port 0) 1).regN (bankKey Reg.PYU_FRAMES_TX port) =
          (c.count (bankKey Reg.PYU_FRAMES_TX port) 64 1).regN (bankKey Reg.PYU_FRAMES_TX port) := rfl
      generalize (c.count (bankKey Reg.PYU_FRAMES_TX port) 64 1).bel64 (portCnt port 0) 1 = d at *
      obtain ⟨hpyu, hstld⟩ := hparts
      have hendsd : d.linkEnd r.offer.plot port false = c.linkEnd r.offer.plot port false := State.linkEnd_congr (by rw [hpyu]) _ _ _
      rw [hpyu, hendsd, State.plot_congr hstld, hreg]
      exact ⟨hportsc.trans hports, fun _ => ⟨hframes, hown, hcounted⟩⟩
  dsimp only
  unfold State.spend
  dsimp only
  rw [← hu]
  have hrest := u.spend_rest port r
  dsimp only at hrest
  generalize (if r.cut.isEmpty then (if r.left then (u.bel64 (portCnt port 21) r.records).event Reg.PYU_EVENT 4
      else u.bel64 (portCnt port 21) r.records)
    else ((if r.left then (u.bel64 (portCnt port 21) r.records).event Reg.PYU_EVENT 4 else u.bel64 (portCnt port 21) r.records).count
      Reg.PYU_XCH_CUT 32 r.cut.length).bumpBytes r.cut) = t at *
  have hpyu : t.pyu = u.pyu := hrest.evolves.keep .pyu (by decide)
  have hstl : t.stl = u.stl := hrest.evolves.keep .stl (by decide)
  have hends : t.linkEnd r.offer.plot port false = u.linkEnd r.offer.plot port false := State.linkEnd_congr (by rw [hpyu]) _ _ _
  rw [hpyu, hends, State.plot_congr hstl, hrest.regN (bank_notMem (by decide) (by decide))]
  exact ⟨hports, hspent⟩

/-- The sender's part of O35. -/
theorem frames_sent (hwf : storeWf 0 s.regs = true) (o : Offer) (a : FrameIn) (hup : (s.port p).st = portUp)
    (hsent : (s.port p).sent = []) (hcursor : (s.port p).cursor = none) (hdone : a.done = []) (hoffers : a.offers = [o])
    (huncorr : a.uncorr = 0) (hcrc : a.crcBad = true) :
     (s.ready1 p o = none → ∃ t f, exec (.frameReceive p a) s = .next t ∧ .frame p f ∈ t.out ∧ f.kind = 0 ∧
       t.plot o.plot = s.plot o.plot) ∧
     (∀ r, s.ready1 p o = some r → (r.frame.kind ≠ 4 → 0 < s.creditsAt o.plot p) ∧ s.tick.inMaint = false ∧
       s.crosses o.plot p false = true ∧ ∃ t f, exec (.frameReceive p a) s = .next t ∧ .frame p f ∈ t.out ∧ f.kind = r.frame.kind ∧
       f.plot = r.frame.plot ∧ f.branch = r.frame.branch ∧ f.payload = r.frame.payload ∧ f.pos = r.frame.pos ∧
       f.seq = (s.port p).txSeq ∧
       (r.frame.kind ≠ 4 → (t.linkEnd o.plot p false).frames = (s.linkEnd o.plot p false).frames + 1 ∧
         (ownEnd (s.plot o.plot) p false = true → (t.plot o.plot).held = (s.plot o.plot).held - 1 ∧
           (t.plot o.plot).position = (s.plot o.plot).position + 1) ∧
         t.regN (bankKey Reg.PYU_FRAMES_TX p) = min (s.regN (bankKey Reg.PYU_FRAMES_TX p) + 1) (2 ^ 64 - 1))) := by
  have hbad : a.uncorr ≠ 0 ∨ a.crcBad = true := .inr hcrc
  obtain ⟨hport, honly⟩ := receive_discards (p := p) hup (.inl hbad)
  rw [if_pos hbad] at hport
  have hlaw : Writes (.pyu :: Part.fec) (Reg.fec p) s (s.receive p a) := by
    rw [State.receive_bad hbad]
    exact (((s.fec_writes p a).widen (hl := fun _ h => h)).step (State.setPort_evolves _ _ _).writes).step
      (State.bel64_evolves _ _ _).writes
  have hexec := exec_frameReceive hup a hdone
  generalize s.receive p a = v at *
  have hst : (v.port p).st = portUp := by rw [hport]; exact hup
  rw [State.sendFrame_new hst (by rw [hport]; exact hsent) (by rw [hport]; exact hcursor), hoffers] at hexec
  have hready := honly.ready1 p o
  obtain ⟨-, hstl, -, hends, -⟩ := honly.parts
  refine ⟨fun hnone => ?_, fun r hr => ?_⟩
  · have hidle : v.sendNew p [o] = (v.bel64 (portCnt p 2) 1).pushFrame p idleFrame := by
      unfold State.sendNew
      rw [List.findSome?_cons, hready, hnone]
      rfl
    rw [hidle] at hexec
    have hcount : (v.bel64 (portCnt p 2) 1).port p = v.port p ∧ (v.bel64 (portCnt p 2) 1).stl = v.stl := ⟨rfl, rfl⟩
    generalize v.bel64 (portCnt p 2) 1 = w at *
    obtain ⟨hout, -, -⟩ := w.pushFrame_sends (p := p) (by rw [hcount.1, hst]; decide) idleFrame
    have hstlt : (w.pushFrame p idleFrame).stl = w.stl := (w.pushFrame_writes p idleFrame).evolves.keep .stl (by decide)
    exact ⟨_, (w.port p).newFrame idleFrame, hexec, by rw [hout]; exact List.mem_append_right _ (List.mem_singleton_self _), rfl,
      State.plot_congr (hstlt.trans (hcount.2.trans hstl)) _⟩
  · obtain ⟨hoffer, hcredit, hmaint, hcross⟩ := State.ready1_some hr
    have hsend : v.sendNew p [o] = (v.spend p r).pushFrame p r.frame := by
      unfold State.sendNew
      rw [List.findSome?_cons, hready, hr]
    rw [hsend] at hexec
    obtain ⟨hports, hspent⟩ := State.spend_spends (hlaw.wf hwf) p r
    rw [hoffer, State.linkEnd_congr hends, State.plot_congr hstl, hlaw.regN (bank_notMem (by decide) fun k hk => by
      have hin := Reg.mem_fec hk
      intro heq
      rw [heq] at hin
      exact absurd hin (by decide))] at hspent
    generalize v.spend p r = w at *
    have hportw : w.port p = v.port p := State.port_congr hports p
    obtain ⟨hout, -, -⟩ := w.pushFrame_sends (p := p) (by rw [hportw, hst]; decide) r.frame
    have hpush := w.pushFrame_writes p r.frame
    obtain ⟨-, hstlt, -, hendst, -⟩ := (w.pushFrame_portsOnly p r.frame).parts
    generalize w.pushFrame p r.frame = t at *
    refine ⟨hcredit, hmaint, hcross, t, (w.port p).newFrame r.frame, hexec,
      by rw [hout]; exact List.mem_append_right _ (List.mem_singleton_self _), rfl, rfl, rfl, rfl, rfl, ?_, fun hkind => ?_⟩
    · rw [Port.newFrame, hportw, hport]
    · rw [State.linkEnd_congr hendst, State.plot_congr hstlt, hpush.regN List.not_mem_nil]
      exact hspent hkind

/-! ## Replays (R280) -/

/-- What a port that begins a replay sends in the period. -/
def State.replayed (s : State) (p : Nat) : State :=
  if ((s.startReplay p).port p).st = portUp then (s.startReplay p).sendAgain p 0 else s.startReplay p

/-- R280: the replay buffer of a port goes again from its oldest frame. -/
def Port.replaying (x : Port) : Port := { x with sent := x.sent.map fun e => (e.1, e.2 + 1), cursor := some 0 }

theorem State.startReplay_starts (hwf : storeWf 0 s.regs = true) (port : Nat) {f : Frame} {n : Nat} {rest : List (Frame × Nat)}
    (hup : (s.port port).st = portUp) (hsent : (s.port port).sent = (f, n) :: rest) (hn : n < 16) : let t := s.startReplay port;
    t.port port = (s.port port).replaying ∧ t.bit Reg.PYU_EVENT 1 = true ∧
      t.regN (bankKey Reg.PYU_REPLAYS port) = min (s.regN (bankKey Reg.PYU_REPLAYS port) + 1) (2 ^ 32 - 1) := by
  have heq : s.startReplay port = ((((s.setPort port (s.port port).replaying).count (bankKey Reg.PYU_REPLAYS port) 32 1).live
      (0x7A0 + 4 * port) 1).bel64 (portCnt port 3) 1 |>.event Reg.PYU_EVENT 1).trace (dieOf port 8) 0x11 port
        (f.seq + 2 ^ 16 * (n + 1)) := by
    unfold State.startReplay
    dsimp only
    rw [hsent]
    dsimp only
    rw [if_neg (by omega), Port.replaying, hsent]
  dsimp only
  rw [heq]
  have hne : (s.port port).replaying ≠ {} := Port.ne_default_of_st (by rw [Port.replaying, hup]; decide)
  have hset := (s.setPort_evolves port (s.port port).replaying).writes
  have hport := s.port_setPort_new port hne
  generalize s.setPort port (s.port port).replaying = a at *
  have hwfa := hset.wf hwf
  have hcount := a.count_writes (bankKey Reg.PYU_REPLAYS port) 32 1
  have hcounted := a.regN_count (bankKey Reg.PYU_REPLAYS port) 32 1 hwfa (by decide)
  rw [hset.regN List.not_mem_nil] at hcounted
  generalize a.count (bankKey Reg.PYU_REPLAYS port) 32 1 = b at *
  have hlive := b.live_writes (0x7A0 + 4 * port) 1
  generalize b.live (0x7A0 + 4 * port) 1 = c at *
  have hbel := (c.bel64_evolves (portCnt port 3) 1).writes
  generalize c.bel64 (portCnt port 3) 1 = d at *
  have hevent := d.event_writes Reg.PYU_EVENT 1
  have hwfd := hbel.wf (hlive.wf (hcount.wf hwfa))
  have hbit := d.bit_event Reg.PYU_EVENT 1 hwfd (by decide)
  generalize d.event Reg.PYU_EVENT 1 = e at *
  have htrace := e.trace_writes (dieOf port 8) 0x11 port (f.seq + 2 ^ 16 * (n + 1))
  generalize e.trace (dieOf port 8) 0x11 port (f.seq + 2 ^ 16 * (n + 1)) = t at *
  have hafter : Writes (.free :: .hlt :: .bel :: Part.signalled) (Reg.PYU_EVENT :: Reg.trace) b t :=
    (((hlive.widen (hl := fun _ h => absurd h List.not_mem_nil)).step hbel (hl := fun _ h => absurd h List.not_mem_nil)).step
      hevent).step htrace (hl := fun _ h => List.mem_cons_of_mem _ h)
  have hpyub : b.pyu = a.pyu := hcount.evolves.keep .pyu (by decide)
  have hpyu : t.pyu = b.pyu := hafter.evolves.keep .pyu (by decide)
  refine ⟨(State.port_congr (by rw [hpyu, hpyub]) port).trans hport, (htrace.bit (by decide) 1).trans hbit, ?_⟩
  rw [hafter.regN (bank_notMem (by decide) (by decide)), hcounted]

theorem State.startReplay_fails {port : Nat} {f : Frame} {n : Nat} {rest : List (Frame × Nat)}
    (hsent : (s.port port).sent = (f, n) :: rest) (hn : 16 ≤ n) : s.startReplay port = s.portFail port := by
  unfold State.startReplay
  dsimp only
  rw [hsent]
  exact if_pos hn

theorem State.sendAgain_repeats (port : Nat) {e : Frame × Nat} {rest : List (Frame × Nat)} (hup : (s.port port).st = portUp)
    (hsent : (s.port port).sent = e :: rest) : let t := s.sendAgain port 0;
    .frame port { e.1 with ack := (t.port port).rxSeq, nak := (t.port port).asking } ∈ t.out ∧
      (t.port port).sent = (s.port port).sent ∧ (t.port port).st = portUp ∧ t.regs = s.regs := by
  obtain ⟨x, hx⟩ : ∃ x : Port, x = { s.port port with cursor := if 0 + 1 < (s.port port).sent.length then some (0 + 1) else none } :=
    ⟨_, rfl⟩
  have heq : s.sendAgain port 0 = ((s.setPort port x).bel64 (portCnt port 4) (s.port port).asking.toNat).send
      (.frame port { e.1 with ack := (s.port port).rxSeq, nak := (s.port port).asking }) := by
    rw [hx]
    unfold State.sendAgain
    dsimp only
    rw [hsent]
    rfl
  have hparts : x.st = (s.port port).st ∧ x.sent = (s.port port).sent ∧ x.rxSeq = (s.port port).rxSeq ∧ x.asking = (s.port port).asking := by
    rw [hx]
    exact ⟨rfl, rfl, rfl, rfl⟩
  obtain ⟨hst, hbuffer, hrx, hask⟩ := hparts
  have hport : (((s.setPort port x).bel64 (portCnt port 4) (s.port port).asking.toNat).send
      (.frame port { e.1 with ack := (s.port port).rxSeq, nak := (s.port port).asking })).port port = x :=
    s.port_setPort_new port (Port.ne_default_of_st (by rw [hst, hup]; decide))
  dsimp only
  rw [heq, hport, hrx, hask]
  exact ⟨List.mem_append_right _ (List.mem_singleton_self _), hbuffer, hst.trans hup, rfl⟩

/-- R280: a replay, and the frame that has been replayed 16 times. -/
theorem State.replayed_shows (hwf : storeWf 0 s.regs = true) (port : Nat) {f : Frame} {n : Nat} {rest : List (Frame × Nat)}
    (hup : (s.port port).st = portUp) (hsent : (s.port port).sent = (f, n) :: rest) : let t := s.replayed port;
    (n < 16 → .frame port { f with ack := (t.port port).rxSeq, nak := (t.port port).asking } ∈ t.out ∧
      (t.port port).sent = ((f, n) :: rest).map (fun e => (e.1, e.2 + 1)) ∧ (t.port port).st = portUp ∧
      t.bit Reg.PYU_EVENT 1 = true ∧
      t.regN (bankKey Reg.PYU_REPLAYS port) = min (s.regN (bankKey Reg.PYU_REPLAYS port) + 1) (2 ^ 32 - 1)) ∧
    (16 ≤ n → (t.port port).st = portFailed ∧ t.bit Reg.PYU_EVENT 0 = true ∧ t.tick.stopped = (s.tick.stopped || s.jobLive)) := by
  refine ⟨fun hn => ?_, fun hn => ?_⟩
  · have hstart := State.startReplay_starts hwf port hup hsent hn
    dsimp only at hstart
    unfold State.replayed
    generalize s.startReplay port = u at *
    obtain ⟨hport, hbit, hcount⟩ := hstart
    have hst : (u.port port).st = portUp := by rw [hport]; exact hup
    have hbuffer : (u.port port).sent = ((f, n) :: rest).map fun e => (e.1, e.2 + 1) := by rw [hport, Port.replaying, hsent]
    obtain ⟨hout, hkept, hstill, hregs⟩ := u.sendAgain_repeats port hst hbuffer
    rw [if_pos hst]
    generalize u.sendAgain port 0 = t at *
    refine ⟨hout, hkept.trans hbuffer, hstill, (State.bit_of_regs _ _ _ _ hregs).trans hbit, ?_⟩
    rw [← hcount, State.regN, State.reg, hregs]
    rfl
  · have hfail := State.startReplay_fails hsent hn
    obtain ⟨hport, -, hbit, -, htick, -⟩ := State.portFail_fails hwf (p := port) (by rw [hup]; decide)
    unfold State.replayed
    rw [hfail]
    generalize s.portFail port = t at *
    have hst : (t.port port).st = portFailed := by rw [hport]
    rw [if_neg (by rw [hst]; decide)]
    exact ⟨hst, hbit, by rw [htick]⟩

/-- A state in which port `p` has the replay buffer it had, and a replay is due. -/
structure Due (s u : State) (p : Nat) (f : Frame) (n : Nat) (rest : List (Frame × Nat)) : Prop where
  wf : storeWf 0 u.regs = true
  up : (u.port p).st = portUp
  sent : (u.port p).sent = (f, n) :: rest
  cursor : (u.port p).cursor = none
  only : s.portsOnly u
  replays : u.regN (bankKey Reg.PYU_REPLAYS p) = s.regN (bankKey Reg.PYU_REPLAYS p)

theorem Due.sendFrame {u : State} {port : Nat} {f : Frame} {n : Nat} {rest : List (Frame × Nat)} (h : Due s u port f n rest)
    (hlong : 63 ≤ rest.length) (l : List Offer) : u.sendFrame port l = u.replayed port := by
  unfold State.sendFrame State.framePeriod
  rw [if_neg (fun hne => hne h.up), h.cursor, h.sent]
  exact if_pos (by rw [List.length_cons]; omega)

/-- The replay of O35, for each command that begins one. -/
theorem Due.replays_out {u : State} {f : Frame} {n : Nat} {rest : List (Frame × Nat)} (h : Due s u p f n rest) {c : Instr}
    (hexec : exec c s = .next (u.replayed p)) :
       (n < 16 → ∃ t, exec c s = .next t ∧ .frame p { f with ack := (t.port p).rxSeq, nak := (t.port p).asking } ∈ t.out ∧
         (t.port p).sent = ((f, n) :: rest).map (fun e => (e.1, e.2 + 1)) ∧ (t.port p).st = portUp ∧
         t.bit Reg.PYU_EVENT 1 = true ∧
         t.regN (bankKey Reg.PYU_REPLAYS p) = min (s.regN (bankKey Reg.PYU_REPLAYS p) + 1) (2 ^ 32 - 1)) ∧
       (16 ≤ n → ∃ t, exec c s = .next t ∧ (t.port p).st = portFailed ∧ t.bit Reg.PYU_EVENT 0 = true ∧
         t.tick.stopped = (s.tick.stopped || s.jobLive)) := by
  obtain ⟨hreplay, hfail⟩ := State.replayed_shows h.wf p h.up h.sent
  obtain ⟨htick, -, himage, -, -⟩ := h.only.parts
  have hlive : u.jobLive = s.jobLive := by rw [State.jobLive, himage]; rfl
  rw [h.replays] at hreplay
  rw [htick, hlive] at hfail
  exact ⟨fun hn => ⟨_, hexec, hreplay hn⟩, fun hn => ⟨_, hexec, hfail hn⟩⟩

theorem due_here {f : Frame} {n : Nat} {rest : List (Frame × Nat)} (hwf : storeWf 0 s.regs = true) (hup : (s.port p).st = portUp)
    (hcursor : (s.port p).cursor = none) (hsent : (s.port p).sent = (f, n) :: rest) : Due s s p f n rest :=
  ⟨hwf, hup, hsent, hcursor, s.portsOnly_refl, rfl⟩

theorem bank_replays_fec : bankKey Reg.PYU_REPLAYS p ∉ Reg.fec p :=
  bank_notMem (by decide) fun k hk heq => by
    have hin := Reg.mem_fec hk
    rw [heq] at hin
    exact absurd hin (by decide)

/-- A bad frame that finds 64 frames unacknowledged. -/
theorem due_bad {a : FrameIn} {f : Frame} {n : Nat} {rest : List (Frame × Nat)} (hwf : storeWf 0 s.regs = true)
    (hup : (s.port p).st = portUp) (hcursor : (s.port p).cursor = none) (hsent : (s.port p).sent = (f, n) :: rest)
    (hbad : a.uncorr ≠ 0 ∨ a.crcBad = true) : Due s (s.receive p a) p f n rest := by
  obtain ⟨hport, honly⟩ := receive_discards (p := p) hup (.inl hbad)
  rw [if_pos hbad] at hport
  have hlaw : Writes (.pyu :: Part.fec) (Reg.fec p) s (s.receive p a) := by
    rw [State.receive_bad hbad]
    exact (((s.fec_writes p a).widen (hl := fun _ h => h)).step (State.setPort_evolves _ _ _).writes).step
      (State.bel64_evolves _ _ _).writes
  exact ⟨hlaw.wf hwf, by rw [hport]; exact hup, by rw [hport]; exact hsent, by rw [hport]; exact hcursor, honly,
    hlaw.regN bank_replays_fec⟩

/-- The port after a good frame that acknowledges nothing new. -/
theorem State.acked_nothing {port ack : Nat} {f : Frame} {n : Nat} {rest : List (Frame × Nat)}
    (hsent : (s.port port).sent = (f, n) :: rest) (hcursor : (s.port port).cursor = none) (hseq : f.seq < 4096)
    (hack : (ack + 1) % 4096 = f.seq) : s.acked port ack = s.setPort port (s.port port) := by
  unfold State.acked
  dsimp only
  rw [hsent]
  dsimp only
  have hzero : (ack + 4096 - f.seq + 1) % 4096 = 0 := by omega
  rw [hzero, if_pos (Nat.zero_le _), List.drop_zero, ← hsent, hcursor]
  have heta : { s.port port with cursor := none } = s.port port := by rw [← hcursor]
  exact congrArg (s.setPort port) heta

/-- A NAK of a good frame in order. -/
theorem nak_replays {a : FrameIn} {f : Frame} {n : Nat} {rest : List (Frame × Nat)} (hwf : storeWf 0 s.regs = true)
    (hup : (s.port p).st = portUp) (hcursor : (s.port p).cursor = none) (hsent : (s.port p).sent = (f, n) :: rest)
    (huncorr : a.uncorr = 0) (hcrc : a.crcBad = false) (hdone : a.done = []) (hoffers : a.offers = [])
    (hnext : a.frame.seq = ((s.port p).rxSeq + 1) % 4096) (hnak : a.frame.nak = true) (hkind : a.frame.kind = 0)
    (hcount : a.frame.creditCount = 0) (hseq : f.seq < 4096) (hack : (a.frame.ack + 1) % 4096 = f.seq) :
    ∃ u, Due s u p f n rest ∧ exec (.frameReceive p a) s = .next (u.replayed p) := by
  have hgood : ¬(a.uncorr ≠ 0 ∨ a.crcBad = true) := by simp [huncorr, hcrc]
  have hport : (s.accepted p a).port p = (s.port p).received a.frame.seq :=
    State.port_setPort_new _ _ (Port.ne_default_of_st (by rw [Port.received, hup]; decide))
  have hlaw := s.accepted_writes p a
  have honly := s.accepted_portsOnly p a
  have hfec := s.fec_port p p a
  have hreceive : s.receive p a = ((((s.accepted p a).acked p a.frame.ack).naked p a.frame.nak).creditsBack a.frame.creditPlot p
      a.frame.creditCount).deliverFrame p a := by
    rw [State.receive_takes hgood hnext, State.accepted, Port.received, ← hfec]
    rfl
  have hexec := exec_frameReceive hup a hdone
  rw [hreceive, hnak, hcount, hoffers] at hexec
  generalize s.accepted p a = w at *
  rw [State.acked_nothing (by rw [hport]; exact hsent) (by rw [hport]; exact hcursor) hseq hack] at hexec
  have hsame := w.port_setPort_new p (x := w.port p) (Port.ne_default_of_st (by rw [hport, Port.received, hup]; decide))
  have hset := (w.setPort_evolves p (w.port p)).writes
  have honly' := honly.trans (w.setPort_portsOnly p (w.port p))
  generalize w.setPort p (w.port p) = u at *
  have hbuffer : (u.port p).sent = (f, n) :: rest := by rw [hsame, hport]; exact hsent
  have hstill : (u.port p).cursor = none := by rw [hsame, hport]; exact hcursor
  have hst : (u.port p).st = portUp := by rw [hsame, hport]; exact hup
  refine ⟨u, ⟨hset.wf (hlaw.wf hwf), hst, hbuffer, hstill, honly', ?_⟩, hexec.trans (congrArg Host.Outcome.next ?_)⟩
  · rw [hset.regN List.not_mem_nil, hlaw.regN bank_replays_fec]
  have hnaked : u.naked p true = u.startReplay p := by
    unfold State.naked
    rw [hstill]
    rfl
  have hquiet (v : State) : (v.creditsBack a.frame.creditPlot p 0).deliverFrame p a = v := by
    rw [State.creditsBack_none]
    unfold State.deliverFrame
    rw [if_neg (by omega), if_neg (by omega)]
  rw [hnaked, hquiet]
  unfold State.sendFrame State.framePeriod State.replayed
  by_cases hn : n < 16
  · obtain ⟨hreplaying, -, -⟩ := State.startReplay_starts (hset.wf (hlaw.wf hwf)) p hst hbuffer hn
    generalize u.startReplay p = v at *
    have hstv : (v.port p).st = portUp := by rw [hreplaying]; exact hst
    have hcur : (v.port p).cursor = some 0 := by rw [hreplaying, Port.replaying]
    rw [if_neg (fun hne => hne hstv), if_pos hstv, hcur]
  · obtain ⟨hport', -⟩ := State.portFail_fails (hset.wf (hlaw.wf hwf)) (p := p) (by rw [hst]; decide)
    have hdown : ((u.startReplay p).port p).st ≠ portUp := by
      rw [State.startReplay_fails hbuffer (Nat.le_of_not_lt hn), hport']
      exact (by decide : portFailed ≠ portUp)
    rw [if_pos hdown, if_neg hdown]

end

/-- Settles O35: the receiver by what a frame delivers, the sender by what an offer spends, the replay by its buffer. -/
theorem framesFlowAndReplay : Obligations.FramesFlowAndReplay := by
  refine ⟨fun p a s hinv hends => ⟨fun hdown => ?_, fun hup hsent hcursor hdone hoffers =>
    frames_received hinv.2 hends a hup hsent hcursor hdone hoffers⟩,
    fun p o a s hinv hup hsent hcursor hdone hoffers huncorr hcrc =>
      frames_sent hinv.2 o a hup hsent hcursor hdone hoffers huncorr hcrc, fun p f n rest s hinv hup hcursor hsent c hc => ?_⟩
  · exact congrArg Host.Outcome.next (if_neg (by simpa [State.isUp] using hdown))
  · rcases hc with ⟨rfl, hlong⟩ | ⟨a, rfl, huncorr, hcrc, hdone, hlong⟩ |
      ⟨a, rfl, huncorr, hcrc, hdone, hoffers, hnext, hnak, hkind, hcount, hseq, hack⟩
    · have hdue := due_here hinv.2 hup hcursor hsent
      refine hdue.replays_out ?_
      rw [← hdue.sendFrame hlong []]
      exact congrArg Host.Outcome.next (if_pos ⟨hup, by rw [hsent, List.length_cons]; omega, hcursor⟩)
    · have hdue := due_bad (a := a) hinv.2 hup hcursor hsent (.inr hcrc)
      refine hdue.replays_out ?_
      rw [exec_frameReceive hup a hdone, hdue.sendFrame hlong]
    · obtain ⟨u, hdue, hexec⟩ := nak_replays hinv.2 hup hcursor hsent huncorr hcrc hdone hoffers hnext hnak hkind hcount hseq hack
      exact hdue.replays_out hexec

end Sys2Proof.Machine

/-! O21, O22: the matrix engines (R147 to R161). -/

namespace Sys2Proof.Machine

set_option Elab.async false

/-! ### Words over free values -/

theorem tileWord_zero (m : Words) (k : Nat) : tileWord 0 m k = storeGet 0 m k := by
  unfold tileWord fillWord
  rw [if_pos rfl]
  exact BitVec.xor_zero

theorem tileWord_storeSet (seed : Nat) {m : Words} (hm : storeWf 0 m = true) (j k : Nat) (w : Word) :
    tileWord seed (storeSet 0 m j (w ^^^ fillWord seed j)) k = if k = j then w else tileWord seed m k := by
  unfold tileWord
  split
  next h =>
    rw [h, storeGet_storeSet_same 0 m j _ hm, BitVec.xor_assoc, BitVec.xor_self, BitVec.xor_zero]
  next h => rw [storeGet_storeSet_ne 0 m j k _ h]

/-- One row of a block: `n` words of a store from key `k`, each from its old value. -/
def updateRow (seed : Nat) (m : Words) (k n : Nat) (g : Nat → Word → Word) : Words :=
  (List.range n).foldl (fun m c => storeSet 0 m (k + c) (g c (tileWord seed m (k + c)) ^^^ fillWord seed (k + c))) m

theorem updateRow_succ (seed : Nat) (m : Words) (k n : Nat) (g : Nat → Word → Word) :
    updateRow seed m k (n + 1) g = storeSet 0 (updateRow seed m k n g) (k + n)
      (g n (tileWord seed (updateRow seed m k n g) (k + n)) ^^^ fillWord seed (k + n)) := by
  unfold updateRow
  rw [List.range_succ, List.foldl_append]
  rfl

theorem updateRow_wf (seed : Nat) {m : Words} (hm : storeWf 0 m = true) (k n : Nat) (g : Nat → Word → Word) :
    storeWf 0 (updateRow seed m k n g) = true := by
  induction n with
  | zero => exact hm
  | succ n ih =>
    rw [updateRow_succ]
    exact storeWf_storeSet 0 _ _ _ ih

theorem updateRow_word (seed : Nat) {m : Words} (hm : storeWf 0 m = true) (k n : Nat) (g : Nat → Word → Word) (j : Nat) :
    tileWord seed (updateRow seed m k n g) j =
      if k ≤ j ∧ j < k + n then g (j - k) (tileWord seed m j) else tileWord seed m j := by
  induction n with
  | zero => rw [if_neg (by omega)]; rfl
  | succ n ih =>
    rw [updateRow_succ, tileWord_storeSet seed (updateRow_wf seed hm k n g)]
    by_cases hj : j = k + n
    · subst hj
      rw [ih, if_pos rfl, if_neg (by omega), if_pos (by omega), Nat.add_sub_cancel_left]
    · rw [ih, if_neg hj]
      by_cases h : k ≤ j ∧ j < k + n
      · rw [if_pos h, if_pos (by omega)]
      · rw [if_neg h, if_neg (by omega)]

theorem updateTile_succ (seed : Nat) (m : Words) (k rows cols : Nat) (f : Nat → Nat → Word → Word) :
    updateTile seed m k (rows + 1) cols f =
      updateRow seed (updateTile seed m k rows cols f) (k + rows * 64) cols (f rows) := by
  unfold updateTile updateRow
  rw [List.range_succ, List.foldl_append]
  rfl

/-- What a block's update makes of the word at any key. -/
theorem updateTile_word (seed : Nat) {m : Words} (hm : storeWf 0 m = true) (k rows : Nat) {cols : Nat} (hc : cols ≤ 64)
    (f : Nat → Nat → Word → Word) (j : Nat) :
    tileWord seed (updateTile seed m k rows cols f) j =
      if k ≤ j ∧ j < k + 64 * rows ∧ (j - k) % 64 < cols then f ((j - k) / 64) ((j - k) % 64) (tileWord seed m j)
      else tileWord seed m j := by
  induction rows with
  | zero => rw [if_neg (by omega)]; rfl
  | succ rows ih =>
    rw [updateTile_succ, updateRow_word seed (updateTile_wf seed k rows cols f hm), ih]
    by_cases hrow : k + rows * 64 ≤ j ∧ j < k + rows * 64 + cols
    · have hdiv : (j - k) / 64 = rows := by omega
      have hmod : (j - k) % 64 = j - (k + rows * 64) := by omega
      rw [if_pos hrow, if_neg (by omega), if_pos (by omega), hdiv, hmod]
    · rw [if_neg hrow]
      by_cases h : k ≤ j ∧ j < k + 64 * rows ∧ (j - k) % 64 < cols
      · rw [if_pos h, if_pos (by omega)]
      · rw [if_neg h, if_neg (by omega)]

theorem updateTile_inside (seed : Nat) {m : Words} (hm : storeWf 0 m = true) (k : Nat) {rows cols : Nat} (hc : cols ≤ 64)
    (f : Nat → Nat → Word → Word) {r c : Nat} (hr : r < rows) (hcol : c < cols) :
    tileWord seed (updateTile seed m k rows cols f) (k + r * 64 + c) = f r c (tileWord seed m (k + r * 64 + c)) := by
  have hdiv : (k + r * 64 + c - k) / 64 = r := by omega
  have hmod : (k + r * 64 + c - k) % 64 = c := by omega
  rw [updateTile_word seed hm k rows hc, if_pos (by omega), hdiv, hmod]

theorem updateTile_outside (seed : Nat) {m : Words} (hm : storeWf 0 m = true) (k : Nat) {rows cols : Nat} (hc : cols ≤ 64)
    (f : Nat → Nat → Word → Word) {j : Nat} (hj : ∀ r c, r < rows → c < cols → j ≠ k + r * 64 + c) :
    tileWord seed (updateTile seed m k rows cols f) j = tileWord seed m j := by
  rw [updateTile_word seed hm k rows hc, if_neg]
  rintro ⟨hk, hlt, hmod⟩
  exact hj ((j - k) / 64) ((j - k) % 64) (by omega) hmod (by omega)

/-! ### Copying and clearing a range -/

/-- Setting the pairs of a canonical store one by one: each key of the pairs reads its value, every other key as before. -/
theorem storeGet_foldl_storeSet (src : Words) (lo : Nat) (hs : storeFrom 0 lo src = true) (m : Words) (k : Nat) :
    storeGet 0 (src.foldl (fun m p => storeSet 0 m p.1 p.2) m) k =
      if storeGet 0 src k = 0 then storeGet 0 m k else storeGet 0 src k := by
  induction src generalizing m lo with
  | nil => rfl
  | cons p src ih =>
    obtain ⟨j, v⟩ := p
    simp only [storeFrom, Bool.and_eq_true, decide_eq_true_eq] at hs
    obtain ⟨⟨hlo, hv⟩, hrest⟩ := hs
    have hcons : storeGet 0 ((j, v) :: src) k = if k = j then v else storeGet 0 src k := rfl
    rw [List.foldl_cons, ih _ hrest, hcons]
    by_cases hk : k = j
    · subst hk
      rw [storeGet_below 0 src _ k hrest (by omega), if_pos rfl, if_pos rfl, if_neg hv]
      exact storeGet_storeSet_new 0 m k v hv
    · rw [if_neg hk, storeGet_storeSet_ne 0 m j k v hk]

theorem storeGet_filter (src : Words) (p : Nat → Bool) (k : Nat) :
    storeGet 0 (src.filter fun e => p e.1) k = if p k then storeGet 0 src k else 0 := by
  have h := storeGet_storeDrop 0 src (fun k => !p k) k
  unfold storeDrop at h
  simp only [Bool.not_not] at h
  rw [h]
  cases p k <;> rfl

/-- A range filled word by word is one row. -/
theorem updateRow_const (seed : Nat) (m : Words) (k n : Nat) (g : Nat → Word) :
    updateRow seed m k n (fun c _ => g c) =
      (List.range n).foldl (fun m c => storeSet 0 m (k + c) (g c ^^^ fillWord seed (k + c))) m := rfl

theorem clearRange_word (seed : Nat) {m : Words} (hm : storeWf 0 m = true) (k n j : Nat) :
    tileWord seed (clearRange seed m k n) j = if k ≤ j ∧ j < k + n then 0 else tileWord seed m j := by
  unfold clearRange
  split
  next h =>
    subst h
    rw [tileWord_zero, tileWord_zero, storeGet_storeDrop]
    simp only [Bool.and_eq_true, decide_eq_true_eq]
  next h =>
    have hrow := updateRow_word seed hm k n (fun _ _ => 0) j
    rw [updateRow_const] at hrow
    simp only [BitVec.ofNat_eq_ofNat, BitVec.zero_xor] at hrow
    exact hrow

theorem copyRange_get (seed : Nat) {src dst : Words} (hsrc : storeWf 0 src = true) (hdst : storeWf 0 dst = true) (k n j : Nat) :
    storeGet 0 (copyRange seed src dst k n) j = if k ≤ j ∧ j < k + n then tileWord seed src j else storeGet 0 dst j := by
  unfold copyRange
  have hdrop : storeGet 0 (storeDrop dst fun j => k ≤ j && j < k + n) j =
      if k ≤ j ∧ j < k + n then 0 else storeGet 0 dst j := by
    rw [storeGet_storeDrop]
    simp only [Bool.and_eq_true, decide_eq_true_eq]
  dsimp only
  split
  next h =>
    subst h
    have hwf : storeFrom 0 0 (src.filter fun p => k ≤ p.1 && p.1 < k + n) = true := storeFrom_filter 0 src 0 _ hsrc
    rw [storeGet_foldl_storeSet _ 0 hwf, hdrop, tileWord_zero,
      storeGet_filter src (fun i => decide (k ≤ i) && decide (i < k + n))]
    simp only [Bool.and_eq_true, decide_eq_true_eq]
    by_cases hj : k ≤ j ∧ j < k + n
    · rw [if_pos hj, if_pos hj, if_pos hj]
      split
      next h => exact h.symm
      next => rfl
    · rw [if_neg hj, if_neg hj, if_neg hj, if_pos rfl]
  next h =>
    have hrow := updateRow_word 0 (storeWf_storeDrop 0 dst (fun j => k ≤ j && j < k + n) hdst) k n
      (fun i _ => tileWord seed src (k + i)) j
    rw [updateRow_const, tileWord_zero, tileWord_zero, hdrop] at hrow
    simp only [fillWord, if_true, BitVec.ofNat_eq_ofNat, BitVec.xor_zero] at hrow
    refine hrow.trans ?_
    split
    next hj => rw [Nat.add_sub_cancel' hj.1]
    next => rfl

/-! ### The matrix engines' counters -/

/-- The accumulators after a gathered pass. -/
def State.gatheredAcc (s : State) (op : GatheredPass) : Words :=
  let fmt := joinFmt (s.viewRef op.rowView).fmt (s.viewRef op.colView).fmt
  let rows := (s.cells op.rowView op.rows op.steps).map fun r => r.map fun c => widenCell fmt c.1
  let cols := (s.cells op.colView 64 op.steps).map fun r => r.map fun c => widenCell fmt c.1
  updateTile s.me.accSeed s.me.acc (accKey op.engine 0 0) op.rows 64 fun r c old =>
    gatheredOutput fmt old ((rows.getD r []).zip (cols.getD c []))

/-- What a pass counts after its tally. -/
theorem State.passCounts_evolves (s : State) (counts : Tally) (core lost promoted : Nat) (e : Fin 512) (gathered : Bool)
    (occupied row col corr lag eyelets : Nat) : Evolves ([.regs, .bel] ++ Part.signalled) s
      (((s.tally counts).portShare core lost promoted).countPass e gathered occupied row col corr lag eyelets) :=
  (((s.tally_evolves counts).widen (Q := [.regs, .bel] ++ Part.signalled) rfl).step
    (State.portShare_evolves _ _ _ _) rfl).step (State.countPass_evolves _ _ _ _ _ _ _ _ _) rfl

/-- A gathered pass writes its accumulators; what follows only counts. -/
theorem exec_gatheredPass_shape (op : GatheredPass) (s : State) : ∃ t, exec (.gatheredPass op) s = .next t ∧
    Evolves ([.regs, .bel] ++ Part.signalled) { s with me := { s.me with acc := s.gatheredAcc op } } t :=
  ⟨_, rfl, State.passCounts_evolves _ _ _ _ _ _ _ _ _ _ _ _ _⟩

theorem getD_map_row {α β : Type} (rows : List (List α)) (g : α → β) (i : Nat) :
    (rows.map fun r => r.map g).getD i [] = (rows.getD i []).map g := List.getD_map rows [] (List.map g)

theorem State.gatheredAcc_inside (s : State) (h : s.enginesOk) (op : GatheredPass) {r c : Nat} (hr : r < op.rows) (hc : c < 64) :
    tileWord s.me.accSeed (s.gatheredAcc op) (accKey op.engine r c) =
      gatheredOutput (joinFmt (s.viewRef op.rowView).fmt (s.viewRef op.colView).fmt)
        (tileWord s.me.accSeed s.me.acc (accKey op.engine r c))
        ((((s.cells op.rowView op.rows op.steps).getD r []).map fun c =>
            widenCell (joinFmt (s.viewRef op.rowView).fmt (s.viewRef op.colView).fmt) c.1).zip
          (((s.cells op.colView 64 op.steps).getD c []).map fun x =>
            widenCell (joinFmt (s.viewRef op.rowView).fmt (s.viewRef op.colView).fmt) x.1)) := by
  obtain ⟨-, hacc, -⟩ := h
  have h := updateTile_inside s.me.accSeed hacc (accKey op.engine 0 0) (Nat.le_refl 64) (fun r c old =>
    gatheredOutput (joinFmt (s.viewRef op.rowView).fmt (s.viewRef op.colView).fmt) old
      ((((s.cells op.rowView op.rows op.steps).map fun r => r.map fun c =>
        widenCell (joinFmt (s.viewRef op.rowView).fmt (s.viewRef op.colView).fmt) c.1).getD r []).zip
      (((s.cells op.colView 64 op.steps).map fun r => r.map fun c =>
        widenCell (joinFmt (s.viewRef op.rowView).fmt (s.viewRef op.colView).fmt) c.1).getD c []))) hr hc
  have hkey : accKey op.engine 0 0 + r * 64 + c = accKey op.engine r c := by unfold accKey; omega
  rw [hkey] at h
  refine h.trans ?_
  rw [getD_map_row, getD_map_row]

theorem State.gatheredAcc_outside (s : State) (h : s.enginesOk) (op : GatheredPass) {k : Nat}
    (hk : ∀ r c, r < op.rows → c < 64 → k ≠ accKey op.engine r c) :
    tileWord s.me.accSeed (s.gatheredAcc op) k = tileWord s.me.accSeed s.me.acc k := by
  obtain ⟨-, hacc, -⟩ := h
  have hkeys : ∀ r c, r < op.rows → c < 64 → k ≠ accKey op.engine 0 0 + r * 64 + c := by
    intro r c hr hc
    have hkey : accKey op.engine 0 0 + r * 64 + c = accKey op.engine r c := by unfold accKey; omega
    rw [hkey]
    exact hk r c hr hc
  unfold State.gatheredAcc
  exact updateTile_outside s.me.accSeed hacc _ (Nat.le_refl 64) _ hkeys

theorem exec_gatheredPass (op : GatheredPass) (s : State) (h : s.enginesOk) : ∃ t, exec (.gatheredPass op) s = .next t ∧
    (let fmt := joinFmt (s.viewRef op.rowView).fmt (s.viewRef op.colView).fmt
     let row := fun r => ((s.cells op.rowView op.rows op.steps).getD r []).map fun c => widenCell fmt c.1
     let col := fun c => ((s.cells op.colView 64 op.steps).getD c []).map fun x => widenCell fmt x.1
     ∀ r c, r < op.rows → c < 64 → tileWord t.me.accSeed t.me.acc (accKey op.engine r c) =
       gatheredOutput fmt (tileWord s.me.accSeed s.me.acc (accKey op.engine r c)) ((row r).zip (col c))) ∧
    (∀ k, (∀ r c, r < op.rows → c < 64 → k ≠ accKey op.engine r c) →
      tileWord t.me.accSeed t.me.acc k = tileWord s.me.accSeed s.me.acc k) ∧
    t.me.tile = s.me.tile ∧ t.me.banks = s.me.banks ∧ s.keeps t ([.me, .bel] ++ Part.signalled) ∧ s.sameBytes t := by
  obtain ⟨t, hexec, hcounts⟩ := exec_gatheredPass_shape op s
  have hme : t.me = { s.me with acc := s.gatheredAcc op } := hcounts.keep .me (by decide)
  have hall : Evolves ([.me, .bel] ++ Part.signalled) s t :=
    ((s.evolves_me _).widen (Q := [.me, .bel] ++ Part.signalled) rfl).step hcounts rfl
  refine ⟨t, hexec, ?_, ?_, ?_, ?_, hall.keep, hall.sameBytes⟩
  · intro fmt row col r c hr hc
    rw [hme]
    exact s.gatheredAcc_inside h op hr hc
  · intro k hk
    rw [hme]
    exact s.gatheredAcc_outside h op hk
  · rw [hme]
  · rw [hme]

/-! ### The gathered drain -/

theorem accKey_range {e r c : Nat} (hr : r < 128) (hc : c < 64) :
    accKey e 0 0 ≤ accKey e r c ∧ accKey e r c < accKey e 0 0 + 8192 := by
  unfold accKey
  omega

theorem notMem_accKey {e k : Nat} (hk : ∀ r c, r < 128 → c < 64 → k ≠ accKey e r c) :
    ¬(accKey e 0 0 ≤ k ∧ k < accKey e 0 0 + 8192) := by
  rintro ⟨hlo, hhi⟩
  refine hk ((k - accKey e 0 0) / 64) ((k - accKey e 0 0) % 64) (by omega) (by omega) ?_
  unfold accKey at hlo hhi ⊢
  omega

theorem exec_gatheredDrain (e : Fin 512) (s : State) (h : s.enginesOk) : ∃ t, exec (.gatheredDrain e) s = .next t ∧
    (∀ r c, r < 128 → c < 64 →
      storeGet 0 t.me.leaving (accKey e r c) = tileWord s.me.accSeed s.me.acc (accKey e r c) ∧
      tileWord t.me.accSeed t.me.acc (accKey e r c) = 0) ∧
    (∀ k, (∀ r c, r < 128 → c < 64 → k ≠ accKey e r c) → storeGet 0 t.me.leaving k = storeGet 0 s.me.leaving k ∧
      tileWord t.me.accSeed t.me.acc k = tileWord s.me.accSeed s.me.acc k) ∧
    t.me.tile = s.me.tile ∧ t.me.banks = s.me.banks ∧ s.touches t [.me] [] := by
  obtain ⟨-, hacc, hleaving, -⟩ := h
  have hcopy := copyRange_get s.me.accSeed hacc hleaving (accKey e 0 0) 8192
  have hclear := clearRange_word s.me.accSeed hacc (accKey e 0 0) 8192
  refine ⟨_, rfl, fun r c hr hc => ⟨(hcopy _).trans (if_pos (accKey_range hr hc)),
    (hclear _).trans (if_pos (accKey_range hr hc))⟩, fun k hk => ⟨(hcopy k).trans (if_neg (notMem_accKey hk)),
    (hclear k).trans (if_neg (notMem_accKey hk))⟩, rfl, rfl, (s.evolves_me _).writes.touches⟩

/-! ### Thin products -/

theorem thinKey_eq (core tile i : Nat) : thinKey core tile i = thinKey core 0 0 + tile * 8192 + i := by
  unfold thinKey
  omega

/-- The tiles of a thin product, one after another. -/
def thinTiles (core rows cols : Nat) (f : Nat → Nat → Word) (m : Words) (n : Nat) : Words :=
  (List.range n).foldl (fun m t => updateTile 0 m (thinKey core t 0) rows (min 64 (cols - 64 * t)) fun r c _ => f r (64 * t + c)) m

theorem thinTiles_succ (core rows cols : Nat) (f : Nat → Nat → Word) (m : Words) (n : Nat) :
    thinTiles core rows cols f m (n + 1) =
      updateTile 0 (thinTiles core rows cols f m n) (thinKey core n 0) rows (min 64 (cols - 64 * n))
        fun r c _ => f r (64 * n + c) := by
  unfold thinTiles
  rw [List.range_succ, List.foldl_append]
  rfl

theorem thinTiles_wf (core rows cols : Nat) (f : Nat → Nat → Word) {m : Words} (hm : storeWf 0 m = true) (n : Nat) :
    storeWf 0 (thinTiles core rows cols f m n) = true := by
  induction n with
  | zero => exact hm
  | succ n ih =>
    rw [thinTiles_succ]
    exact updateTile_wf 0 _ _ _ _ ih

/-- What `n` tiles of a thin product leave at any key: the output of that tile, row and column, or the word before. -/
theorem thinTiles_get (core : Nat) {rows : Nat} (cols : Nat) (hrows : rows ≤ 128) (f : Nat → Nat → Word) {m : Words}
    (hm : storeWf 0 m = true) (n : Nat) {k : Nat} (hk : k = thinKey core 0 0) (j : Nat) :
    storeGet 0 (thinTiles core rows cols f m n) j =
      if k ≤ j ∧ (j - k) / 8192 < n ∧ (j - k) % 8192 / 64 < rows ∧ 64 * ((j - k) / 8192) + (j - k) % 64 < cols then
        f ((j - k) % 8192 / 64) (64 * ((j - k) / 8192) + (j - k) % 64)
      else storeGet 0 m j := by
  induction n with
  | zero => rw [if_neg (by omega)]; rfl
  | succ n ih =>
    have hkey : thinKey core n 0 = k + n * 8192 := by have := thinKey_eq core n 0; omega
    have hword := updateTile_word 0 (thinTiles_wf core rows cols f hm n) (k + n * 8192) rows
      (Nat.min_le_left 64 (cols - 64 * n)) (fun r c _ => f r (64 * n + c)) j
    rw [tileWord_zero, tileWord_zero, ih] at hword
    rw [thinTiles_succ, hkey, hword]
    by_cases hrow : k + n * 8192 ≤ j ∧ j < k + n * 8192 + 64 * rows ∧ (j - (k + n * 8192)) % 64 < min 64 (cols - 64 * n)
    · have htile : (j - k) / 8192 = n := by omega
      have hdiv : (j - (k + n * 8192)) / 64 = (j - k) % 8192 / 64 := by omega
      have hmod : (j - (k + n * 8192)) % 64 = (j - k) % 64 := by omega
      rw [if_pos hrow, if_pos (by omega), hdiv, hmod, htile]
    · rw [if_neg hrow]
      by_cases h : k ≤ j ∧ (j - k) / 8192 < n ∧ (j - k) % 8192 / 64 < rows ∧ 64 * ((j - k) / 8192) + (j - k) % 64 < cols
      · rw [if_pos h, if_pos (by omega)]
      · rw [if_neg h, if_neg (by omega)]

/-- One output of a thin product (R161). -/
def State.thinOutput (s : State) (op : MvProduct) (r c : Nat) : Word :=
  (mvParts (op.depth + 1) ((((s.cells op.thin op.rows op.depth).getD r []).map Prod.fst).zip
    (((s.cells op.streamed op.cols op.depth).getD c []).map Prod.fst))).foldl (heldOutput .if4) 0

/-- The tiles of the matrix-vector path after a thin product. -/
def State.thinAfter (s : State) (op : MvProduct) : Words :=
  thinTiles op.core op.rows op.cols (s.thinOutput op) s.me.thin ((op.cols + 63) / 64)

theorem State.thinAfter_inside (s : State) (h : storeWf 0 s.me.thin = true) (op : MvProduct) (hrows : op.rows ≤ 8) {r c : Nat}
    (hr : r < op.rows) (hc : c < op.cols) :
    storeGet 0 (s.thinAfter op) (thinKey op.core (c / 64) (r * 64 + c % 64)) = s.thinOutput op r c := by
  unfold State.thinAfter
  obtain ⟨k, hk⟩ : ∃ k, k = thinKey op.core 0 0 := ⟨_, rfl⟩
  have htile : (k + c / 64 * 8192 + (r * 64 + c % 64) - k) / 8192 = c / 64 := by omega
  have hrow : (k + c / 64 * 8192 + (r * 64 + c % 64) - k) % 8192 / 64 = r := by omega
  have hcol : (k + c / 64 * 8192 + (r * 64 + c % 64) - k) % 64 = c % 64 := by omega
  have hc64 : 64 * (c / 64) + c % 64 = c := by omega
  rw [thinKey_eq op.core (c / 64), ← hk, thinTiles_get _ _ (by omega) _ h _ hk, htile, hrow, hcol, hc64, if_pos (by omega)]

theorem State.thinAfter_outside (s : State) (h : storeWf 0 s.me.thin = true) (op : MvProduct) (hrows : op.rows ≤ 8) {k : Nat}
    (hk : ∀ r c, r < op.rows → c < op.cols → k ≠ thinKey op.core (c / 64) (r * 64 + c % 64)) :
    storeGet 0 (s.thinAfter op) k = storeGet 0 s.me.thin k := by
  unfold State.thinAfter
  obtain ⟨k0, hk0⟩ : ∃ k0, k0 = thinKey op.core 0 0 := ⟨_, rfl⟩
  rw [thinTiles_get _ _ (by omega) _ h _ hk0, if_neg]
  rintro ⟨hlo, htile, hrow, hcol⟩
  refine hk _ _ hrow hcol ?_
  rw [thinKey_eq, ← hk0]
  omega

theorem State.portShare_writes (s : State) (core lost promoted : Nat) :
    Writes [.regs, .bel] [Reg.TRL_SPAD_PROMOTE] s (s.portShare core lost promoted) := by
  have hcount := (s.count_writes Reg.TRL_SPAD_PROMOTE 64 promoted).widen (Q := [.regs, .bel]) (M := [Reg.TRL_SPAD_PROMOTE])
  exact hcount.step (State.bel64_evolves _ _ _).writes

/-- What a thin product counts after its tally. -/
theorem State.thinCounts_writes (s : State) (core busy lost promoted eyelets : Nat) :
    Writes [.regs, .bel] [Reg.TRL_SPAD_PROMOTE] s
      ((((s.bel64 (coreCnt core 17) 1).bel64 (coreCnt core 16) eyelets).bel64 (coreCnt core 18) busy).portShare core lost promoted) := by
  have h1 := (State.bel64_evolves s (coreCnt core 17) 1).writes.widen (Q := [.regs, .bel]) (M := [Reg.TRL_SPAD_PROMOTE])
  exact ((h1.step (State.bel64_evolves _ _ _).writes).step (State.bel64_evolves _ _ _).writes).step (State.portShare_writes _ _ _ _)

/-- An event always shows in its counter, whatever the register file. -/
theorem State.regN_count_one (s : State) (o : Nat) : (s.count o 64 1).regN o = min (s.regN o + 1) (2 ^ 64 - 1) := by
  have hlt : min (s.regN o + 1) (2 ^ 64 - 1) < 2 ^ 64 := by omega
  have hne : BitVec.ofNat 64 (min (s.regN o + 1) (2 ^ 64 - 1)) ≠ 0 := by
    intro h
    have := congrArg BitVec.toNat h
    rw [BitVec.toNat_ofNat, Nat.mod_eq_of_lt hlt] at this
    exact absurd this (by simp)
  show BitVec.toNat ((s.setReg o (BitVec.ofNat 64 (min (s.regN o + 1) (2 ^ 64 - 1)))).reg o) = _
  rw [State.reg_setReg_new _ _ _ hne, BitVec.toNat_ofNat, Nat.mod_eq_of_lt hlt]

/-- A thin product writes its tiles and its operand buffer; then it counts. -/
theorem exec_mvProduct_shape (op : MvProduct) (s : State) : ∃ t operand counts eyelets, exec (.mvProduct op) s = .next t ∧
    t = ((((((({ s with me := { s.me with thin := s.thinAfter op, operand := operand } } : State).tally counts).count
      (bankKey Reg.ME_MV_PRODUCTS op.core) 64 1).bel64 (coreCnt op.core 17) 1).bel64 (coreCnt op.core 16) eyelets).bel64
      (coreCnt op.core 18) op.busy).portShare op.core op.lost op.promoted) := by
  have hthin : s.thinAfter op = (List.range ((op.cols + 63) / 64)).foldl (fun m t =>
      updateTile 0 m (thinKey op.core t 0) op.rows (min 64 (op.cols - 64 * t)) fun r c _ =>
        (mvParts (op.depth + 1) ((((s.cells op.thin op.rows op.depth).map fun r => r.map Prod.fst).getD r []).zip
          (((s.cells op.streamed op.cols op.depth).map fun r => r.map Prod.fst).getD (64 * t + c) []))).foldl
            (heldOutput .if4) 0) s.me.thin := by
    unfold State.thinAfter thinTiles State.thinOutput
    simp only [getD_map_row]
  rw [hthin]
  exact ⟨_, _, _, _, rfl, rfl⟩

theorem exec_mvProduct (op : MvProduct) (s : State) (h : s.enginesOk) (hrows : op.rows ≤ 8) :
    ∃ t, exec (.mvProduct op) s = .next t ∧
      (∀ r c, r < op.rows → c < op.cols →
        storeGet 0 t.me.thin (thinKey op.core (c / 64) (r * 64 + c % 64)) =
          s.thinOutput op r c) ∧
      (∀ k, (∀ r c, r < op.rows → c < op.cols → k ≠ thinKey op.core (c / 64) (r * 64 + c % 64)) →
        storeGet 0 t.me.thin k = storeGet 0 s.me.thin k) ∧
      t.regN (bankKey Reg.ME_MV_PRODUCTS op.core) = min (s.regN (bankKey Reg.ME_MV_PRODUCTS op.core) + 1) (2 ^ 64 - 1) ∧
      t.me.tile = s.me.tile ∧ t.me.acc = s.me.acc ∧ s.keeps t [.regs, .me, .bel] ∧ s.sameBytes t := by
  obtain ⟨-, -, -, hthin, -⟩ := h
  obtain ⟨t, operand, counts, eyelets, hexec, ht⟩ := exec_mvProduct_shape op s
  obtain ⟨u, hu⟩ : ∃ u : State, u = { s with me := { s.me with thin := s.thinAfter op, operand := operand } } := ⟨_, rfl⟩
  rw [← hu] at ht
  have hme : u.me = { s.me with thin := s.thinAfter op, operand := operand } := by rw [hu]
  have hregs : u.regs = s.regs := by rw [hu]
  have htally := u.tally_writes counts
  have hcounts := ((u.tally counts).count (bankKey Reg.ME_MV_PRODUCTS op.core) 64 1).thinCounts_writes op.core op.busy op.lost
    op.promoted eyelets
  rw [← ht] at hcounts
  have hcount : Evolves [.regs, .bel] u t :=
    ((htally.evolves.widen (Q := [.regs, .bel]) rfl).step (State.count_evolves _ _ _ _) rfl).step hcounts.evolves rfl
  have hstores : Evolves [.regs, .me, .bel] s u := by
    rw [hu]
    exact (s.evolves_me _).widen rfl
  have hall : Evolves [.regs, .me, .bel] s t := hstores.step hcount rfl
  have htme : t.me = { s.me with thin := s.thinAfter op, operand := operand } := (hcount.keep .me (by decide)).trans hme
  refine ⟨t, hexec, ?_, ?_, ?_, ?_, ?_, hall.keep, hall.sameBytes⟩
  · intro r c hr hc
    rw [htme]
    exact s.thinAfter_inside hthin op hrows hr hc
  · intro k hk
    rw [htme]
    exact s.thinAfter_outside hthin op hrows hk
  · have hbank : u.regN (bankKey Reg.ME_MV_PRODUCTS op.core) = s.regN (bankKey Reg.ME_MV_PRODUCTS op.core) := by
      unfold State.regN State.reg
      rw [hregs]
    rw [hcounts.regN (bank_notMem (by decide) (by decide)), State.regN_count_one,
      htally.regN (bank_notMem (by decide) (by decide)), hbank]
  · rw [htme]
  · rw [htme]

/-- Settles O22: one block update per store, and counters that leave the stores alone. -/
theorem gatheredAndThinProducts : Obligations.GatheredAndThinProducts := by
  unfold Obligations.GatheredAndThinProducts
  intro s h
  refine ⟨fun op _ => exec_gatheredPass op s h, fun e => exec_gatheredDrain e s h, fun op hwf => ?_⟩
  obtain ⟨-, hrows, -, -⟩ := of_decide_eq_true hwf
  exact exec_mvProduct op s h hrows

end Sys2Proof.Machine

/-! O21: held loads and held passes (R119 to R121, R147 to R151, R154). -/

namespace Sys2Proof.Machine

set_option Elab.async false

/-! ### Held loads -/

/-- The idle bank of an engine. -/
def State.idleBank (s : State) (e : Fin 512) : Nat := 2 * e.val + (1 - s.bankOf e)

/-- The block of a load along the block axis. -/
def State.alongBlock (s : State) (op : HeldLoad) (fmt : Fmt) (depth : Nat) : HeldBlock :=
  ⟨fmt, op.length, op.first, depth, (s.heldCells op op.first depth).map fun r => r.map fun c => widenCell fmt c.1, none, false⟩

/-- The block of a load across the block axis. -/
def State.acrossBlock (s : State) (op : HeldLoad) (fmt : Fmt) (depth : Nat) : HeldBlock :=
  ⟨fmt, op.length, op.first, depth,
    flipCells zeroCell depth (((flipCells (zeroCell, {}) 64 (s.heldCells op op.first depth)).map
      (acrossColumn (s.feedRule op.view.tensor (s.heldFmt op)) (s.heldScale op) op.first)).map fun c =>
        c.map fun x => widenCell fmt x.1), none, false⟩

/-- The windows that a rotated load runs, re-encoded. -/
def State.rotatedRuns (s : State) (op : HeldLoad) (fmt : Fmt) (depth : Nat) (r : Rotation) :
    List (List (Cell × Tally)) × Nat × Bool :=
  let span := windowSpan r op.first depth
  rotateRuns (s.feedRule op.view.tensor fmt) r span.1 op.first depth
    ((flipCells (zeroCell, {}) 64 (s.heldCells op span.1 (span.2 * r.n))).map fun run =>
      (s.heldScale op, run.map fun c => c.1.decode.1))

/-- The block of a rotated load. -/
def State.rotatedBlock (s : State) (op : HeldLoad) (fmt : Fmt) (depth : Nat) (r : Rotation) : HeldBlock :=
  ⟨fmt, op.length, op.first, depth, flipCells zeroCell depth ((s.rotatedRuns op fmt depth r).1.map fun c => c.map Prod.fst),
    some r, (s.rotatedRuns op fmt depth r).2.2⟩

/-- The block that a load writes. -/
def State.loadedBlock (s : State) (op : HeldLoad) : HeldBlock :=
  let fmt := joinFmt (s.heldFmt op) op.partner
  match s.rotationFor op.marked op.view.tensor with
  | some r => s.rotatedBlock op fmt (min (heldDepth fmt) ((op.length + r.n - 1) / r.n * r.n - op.first)) r
  | none =>
    let depth := min (heldDepth fmt) (op.length - op.first)
    if op.across then s.acrossBlock op fmt depth else s.alongBlock op fmt depth

/-- The engines' state once a block is in the idle bank. -/
def State.withIdle (s : State) (e : Fin 512) (b : HeldBlock) : MatrixSt :=
  { s.me with banks := storeSet emptyBlock s.me.banks (s.idleBank e) b }

theorem State.setIdle_me {s u : State} (h : u.me = s.me) (e : Fin 512) (b : HeldBlock) :
    (u.setIdle e b).me = s.withIdle e b := by
  unfold State.setIdle State.withIdle State.idleBank State.bankOf
  dsimp only
  rw [h]

theorem State.loadAlong_me (s : State) (op : HeldLoad) (fmt : Fmt) (depth : Nat) :
    (s.loadAlong op fmt depth).me = s.withIdle op.engine (s.alongBlock op fmt depth) :=
  State.setIdle_me ((State.tally_evolves s _).keep .me (by decide)) op.engine _

theorem State.loadAcross_me (s : State) (op : HeldLoad) (fmt : Fmt) (depth : Nat) :
    (s.loadAcross op fmt depth).me = s.withIdle op.engine (s.acrossBlock op fmt depth) := by
  have hcounts : ∀ (c : Tally) (i : Nat) (runs : List (List Tally)),
      (((s.tally c).bel64 i 1).chargeRuns op.tensor op.segment (s.blockSize op.tensor) op.first runs).me = s.me := fun c i runs =>
    ((((s.tally_evolves c).widen (Q := [.regs, .seg, .bel]) rfl).step (State.bel64_evolves _ i 1) rfl).step
      (State.chargeRuns_evolves _ _ _ _ _ _) rfl).keep .me (by decide)
  exact State.setIdle_me (hcounts _ _ _) op.engine _

theorem State.loadRotated_me (s : State) (op : HeldLoad) (fmt : Fmt) (depth : Nat) (r : Rotation) :
    (s.loadRotated op fmt depth r).me = s.withIdle op.engine (s.rotatedBlock op fmt depth r) := by
  have hcounts : ∀ (c : Tally) (n : Nat) (bad : Bool) (runs : List (List Tally)),
      (((s.tally c).countWindows (engineCore op.engine) n bad).chargeRuns op.tensor op.segment (s.blockSize op.tensor) op.first
        runs).me = s.me := fun c n bad runs =>
    ((((s.tally_evolves c).widen (Q := [.regs, .seg, .bel]) rfl).step (State.countWindows_evolves _ _ n bad) rfl).step
      (State.chargeRuns_evolves _ _ _ _ _ _) rfl).keep .me (by decide)
  exact State.setIdle_me (hcounts _ _ _ _) op.engine _

/-- A held load writes its block into the idle bank, and counts. -/
theorem exec_heldBlockLoad_shape (op : HeldLoad) (s : State) : ∃ t, exec (.heldBlockLoad op) s = .next t ∧
    t.me = s.withIdle op.engine (s.loadedBlock op) ∧ Evolves [.regs, .seg, .me, .bel] s t := by
  obtain ⟨u, hexec, hme, hu⟩ : ∃ u, exec (.heldBlockLoad op) s = .next (u.portShare (engineCore op.engine) op.lost op.promoted) ∧
      u.me = s.withIdle op.engine (s.loadedBlock op) ∧ Evolves [.regs, .seg, .me, .bel] s u := by
    refine ⟨_, rfl, ?_, ?_⟩
    · unfold State.loadedBlock
      dsimp only
      cases s.rotationFor op.marked op.view.tensor with
      | some r => exact s.loadRotated_me op _ _ r
      | none =>
        dsimp only
        split
        next => exact s.loadAcross_me op _ _
        next => exact s.loadAlong_me op _ _
    · dsimp only
      split
      next r _ => exact s.loadRotated_evolves op _ _ r
      next =>
        split
        next => exact s.loadAcross_evolves op _ _
        next => exact (s.loadAlong_evolves op _ _).widen rfl
  have hshare := u.portShare_evolves (engineCore op.engine) op.lost op.promoted
  exact ⟨_, hexec, (hshare.keep .me (by decide)).trans hme, hu.step hshare rfl⟩

theorem State.loadedBlock_length (s : State) (op : HeldLoad) : (s.loadedBlock op).length = op.length := by
  unfold State.loadedBlock
  dsimp only
  cases s.rotationFor op.marked op.view.tensor with
  | some r => rfl
  | none =>
    dsimp only
    split <;> rfl

theorem State.loadedBlock_none {s : State} {op : HeldLoad} (h : s.rotationFor op.marked op.view.tensor = none) :
    s.loadedBlock op =
      if op.across then
        s.acrossBlock op (joinFmt (s.heldFmt op) op.partner)
          (min (heldDepth (joinFmt (s.heldFmt op) op.partner)) (op.length - op.first))
      else
        s.alongBlock op (joinFmt (s.heldFmt op) op.partner)
          (min (heldDepth (joinFmt (s.heldFmt op) op.partner)) (op.length - op.first)) := by
  unfold State.loadedBlock
  rw [h]

theorem State.loadedBlock_some {s : State} {op : HeldLoad} {r : Rotation}
    (h : s.rotationFor op.marked op.view.tensor = some r) :
    s.loadedBlock op = s.rotatedBlock op (joinFmt (s.heldFmt op) op.partner)
      (min (heldDepth (joinFmt (s.heldFmt op) op.partner)) ((op.length + r.n - 1) / r.n * r.n - op.first)) r := by
  unfold State.loadedBlock
  rw [h]

/-- What a block loaded without rotation holds. -/
theorem State.loadedBlock_plain {s : State} {op : HeldLoad} (h : s.rotationFor op.marked op.view.tensor = none) :
    let fmt := joinFmt (s.heldFmt op) op.partner
    let b := s.loadedBlock op
    b.fmt = fmt ∧ b.first = op.first ∧ b.rot = none ∧ b.depth = min (heldDepth fmt) (op.length - op.first) ∧ b.bad = false ∧
      (op.across = false → b.cells = (s.heldCells op op.first b.depth).map fun r => r.map fun c => widenCell fmt c.1) ∧
      (op.across = true → b.cells = flipCells zeroCell b.depth (((flipCells (zeroCell, {}) 64 (s.heldCells op op.first b.depth)).map
        (acrossColumn (s.feedRule op.view.tensor (s.heldFmt op)) (s.heldScale op) op.first)).map fun c =>
          c.map fun x => widenCell fmt x.1)) := by
  dsimp only
  rw [State.loadedBlock_none h]
  split
  next hacross => exact ⟨rfl, rfl, rfl, rfl, rfl, fun hno => absurd hacross (by rw [hno]; decide), fun _ => rfl⟩
  next hacross => exact ⟨rfl, rfl, rfl, rfl, rfl, fun _ => rfl, fun hyes => absurd hyes hacross⟩

theorem exec_heldBlockLoad (op : HeldLoad) (s : State) (hwf : op.first < op.length) :
    ∃ t, exec (.heldBlockLoad op) s = .next t ∧ storeGet emptyBlock t.me.banks (s.idleBank op.engine) = s.loadedBlock op ∧
      (∀ k, k ≠ s.idleBank op.engine → storeGet emptyBlock t.me.banks k = storeGet emptyBlock s.me.banks k) ∧
      t.me.bank = s.me.bank ∧ t.me.tile = s.me.tile ∧ t.me.acc = s.me.acc ∧ t.me.leaving = s.me.leaving ∧
      s.keeps t [.regs, .seg, .me, .bel] ∧ s.sameBytes t := by
  obtain ⟨t, hexec, hme, hall⟩ := exec_heldBlockLoad_shape op s
  have hne : s.loadedBlock op ≠ emptyBlock := by
    intro h
    have hlen : op.length = 0 := (s.loadedBlock_length op).symm.trans (congrArg HeldBlock.length h)
    omega
  refine ⟨t, hexec, ?_, ?_, ?_, ?_, ?_, ?_, hall.keep, hall.sameBytes⟩
  · rw [hme]
    exact storeGet_storeSet_new _ _ _ _ hne
  · intro k hk
    rw [hme]
    exact storeGet_storeSet_ne _ _ _ _ _ hk
  all_goals rw [hme]; rfl

/-- The first clause of O21. -/
theorem heldBlockLoad_fills (op : HeldLoad) (s : State) :
    let fmt := joinFmt (s.heldFmt op) op.partner
    let rot := s.rotationFor op.marked op.view.tensor
    let b := s.loadedBlock op
    b.fmt = fmt ∧ b.length = op.length ∧ b.first = op.first ∧ b.rot = rot ∧
    (rot = none → b.depth = min (heldDepth fmt) (op.length - op.first) ∧ b.bad = false ∧
      (op.across = false → b.cells = (s.heldCells op op.first b.depth).map fun r => r.map fun c => widenCell fmt c.1) ∧
      (op.across = true → b.cells = flipCells zeroCell b.depth (((flipCells (zeroCell, {}) 64 (s.heldCells op op.first b.depth)).map
        (acrossColumn (s.feedRule op.view.tensor (s.heldFmt op)) (s.heldScale op) op.first)).map fun c =>
          c.map fun x => widenCell fmt x.1))) ∧
    (∀ r, rot = some r → b.depth = min (heldDepth fmt) ((op.length + r.n - 1) / r.n * r.n - op.first) ∧
      let out := s.rotatedRuns op fmt b.depth r
      b.bad = out.2.2 ∧ b.cells = flipCells zeroCell b.depth (out.1.map fun c => c.map Prod.fst)) := by
  dsimp only
  cases hrot : s.rotationFor op.marked op.view.tensor with
  | none =>
    obtain ⟨hfmt, hfirst, hb, hrest⟩ := State.loadedBlock_plain hrot
    exact ⟨hfmt, s.loadedBlock_length op, hfirst, hb, fun _ => hrest, fun r h => nomatch h⟩
  | some r =>
    have hblock := State.loadedBlock_some hrot
    refine ⟨by rw [hblock]; rfl, s.loadedBlock_length op, by rw [hblock]; rfl, by rw [hblock]; rfl, (fun h => nomatch h),
      fun r' h => ?_⟩
    obtain rfl := Option.some.inj h
    rw [hblock]
    exact ⟨rfl, rfl, rfl⟩

/-! ### Held passes -/

/-- The bank in use once a pass has swapped the banks, if it does. -/
def State.passBank (s : State) (op : HeldPass) : Nat := if op.swapBank then 1 - s.bankOf op.engine else s.bankOf op.engine

/-- The block that a pass runs against. -/
def State.passBlock (s : State) (op : HeldPass) : HeldBlock := s.heldBlock (2 * op.engine.val + s.passBank op)

/-- The drain tiles after a held pass. -/
def State.passTile (s : State) (op : HeldPass) : Words :=
  let held := s.passBlock op
  let streamed := (s.streamRows op held).1.map fun r => r.map Prod.fst
  let cols := flipCells zeroCell 64 held.cells
  updateTile s.me.tileSeed s.me.tile (tileKey op.engine op.half op.firstRow 0) op.rows 64 fun r c old =>
    heldOutput held.fmt old ((streamed.getD r []).zip (cols.getD c []))

/-- The tile halves' rotations after a held pass. -/
def State.passRotated (s : State) (op : HeldPass) : Counts :=
  storeSet 0 s.me.rotated (2 * op.engine.val + op.half.toNat)
    (((s.passBlock op).rot.map fun r => Nat.log2 r.n + 1).getD 0)

/-- The state of a pass once its engine has swapped banks. -/
def State.swapped (s : State) (op : HeldPass) : State :=
  if op.swapBank then
    { s with me := { s.me with bank := storeSet 0 s.me.bank op.engine (1 - s.bankOf op.engine) } } else s

theorem State.swapped_evolves (s : State) (op : HeldPass) : Evolves [.me] s (s.swapped op) := by
  unfold State.swapped
  split
  · exact s.evolves_me _
  · exact Evolves.refl s

theorem State.swapped_bankOf {s : State} (h : storeWf 0 s.me.bank = true) (op : HeldPass) :
    (s.swapped op).bankOf op.engine = s.passBank op := by
  unfold State.swapped State.passBank
  split
  · exact storeGet_storeSet_same 0 _ _ _ h
  · rfl

theorem State.swapped_me (s : State) (op : HeldPass) : ∃ bank, (s.swapped op).me = { s.me with bank := bank } := by
  unfold State.swapped
  split
  · exact ⟨_, rfl⟩
  · exact ⟨s.me.bank, rfl⟩

theorem State.swapped_heldBlock (s : State) (op : HeldPass) (k : Nat) : (s.swapped op).heldBlock k = s.heldBlock k := by
  unfold State.swapped
  split <;> rfl

theorem State.swapped_streamRows (s : State) (op : HeldPass) (held : HeldBlock) :
    (s.swapped op).streamRows op held = s.streamRows op held := by
  unfold State.swapped
  split <;> rfl

theorem State.flagHalf_me (u : State) (key : Nat) (bad : Bool) : ∃ flagged, (u.flagHalf key bad).me = { u.me with flagged := flagged } := by
  unfold State.flagHalf
  split
  · exact ⟨_, rfl⟩
  · exact ⟨u.me.flagged, rfl⟩

/-- What follows a held pass's products: tally, flag, windows and charges of a rotated block, counters. -/
def State.afterPass (u : State) (op : HeldPass) (counts : Tally) (flag : Bool)
    (rot : Option (Nat × Bool × Nat × Nat × List (List Tally))) (eyelets : Nat) : State :=
  let s2 := (u.tally counts).flagHalf (2 * op.engine.val + op.half.toNat) flag
  let s3 := match rot with
    | some (windows, bad, block, first, runs) =>
      (s2.countWindows (engineCore op.engine) windows bad).chargeRuns op.tensor op.segment block first runs
    | none => s2
  (s3.portShare (engineCore op.engine) op.lost op.promoted).countPass op.engine false op.occupied op.stallRow op.stallCol
    op.stallCorr op.lag eyelets

theorem State.afterPass_some (u : State) (op : HeldPass) (counts : Tally) (flag : Bool) (windows : Nat) (bad : Bool)
    (block first : Nat) (runs : List (List Tally)) (eyelets : Nat) :
    ((((((u.tally counts).flagHalf (2 * op.engine.val + op.half.toNat) flag).countWindows (engineCore op.engine) windows
      bad).chargeRuns op.tensor op.segment block first runs).portShare (engineCore op.engine) op.lost op.promoted).countPass
        op.engine false op.occupied op.stallRow op.stallCol op.stallCorr op.lag eyelets) =
      u.afterPass op counts flag (some (windows, bad, block, first, runs)) eyelets := rfl

theorem State.afterPass_none (u : State) (op : HeldPass) (counts : Tally) (flag : Bool) (eyelets : Nat) :
    ((((u.tally counts).flagHalf (2 * op.engine.val + op.half.toNat) flag).portShare (engineCore op.engine) op.lost
      op.promoted).countPass op.engine false op.occupied op.stallRow op.stallCol op.stallCorr op.lag eyelets) =
      u.afterPass op counts flag none eyelets := rfl

theorem State.afterPass_keeps (u : State) (op : HeldPass) (counts : Tally) (flag : Bool)
    (rot : Option (Nat × Bool × Nat × Nat × List (List Tally))) (eyelets : Nat) :
    (∃ flagged, (u.afterPass op counts flag rot eyelets).me = { u.me with flagged := flagged }) ∧
      Evolves ([.seg, .me, .bel] ++ Part.signalled) u (u.afterPass op counts flag rot eyelets) := by
  have htally := u.tally_evolves counts
  obtain ⟨flagged, hflag⟩ := (u.tally counts).flagHalf_me (2 * op.engine.val + op.half.toNat) flag
  rw [htally.keep .me (by decide)] at hflag
  have h2 : Evolves ([.seg, .me, .bel] ++ Part.signalled) u
      ((u.tally counts).flagHalf (2 * op.engine.val + op.half.toNat) flag) :=
    (htally.widen (Q := [.seg, .me, .bel] ++ Part.signalled) rfl).step (State.flagHalf_evolves _ _ _) rfl
  unfold State.afterPass
  generalize (u.tally counts).flagHalf (2 * op.engine.val + op.half.toNat) flag = s2 at *
  have hrest : Evolves ([.seg, .bel] ++ Part.signalled) s2 (((match rot with
      | some (windows, bad, block, first, runs) =>
        (s2.countWindows (engineCore op.engine) windows bad).chargeRuns op.tensor op.segment block first runs
      | none => s2).portShare (engineCore op.engine) op.lost op.promoted).countPass op.engine false op.occupied op.stallRow
        op.stallCol op.stallCorr op.lag eyelets) := by
    cases rot with
    | none =>
      exact ((State.portShare_evolves s2 _ _ _).widen (Q := [.seg, .bel] ++ Part.signalled) rfl).step
        (State.countPass_evolves _ _ _ _ _ _ _ _ _) rfl
    | some x =>
      obtain ⟨windows, bad, block, first, runs⟩ := x
      exact ((((State.countWindows_evolves s2 _ windows bad).widen (Q := [.seg, .bel] ++ Part.signalled) rfl).step
        (State.chargeRuns_evolves _ _ _ _ _ _) rfl).step (State.portShare_evolves _ _ _ _) rfl).step
          (State.countPass_evolves _ _ _ _ _ _ _ _ _) rfl
  exact ⟨⟨flagged, (hrest.keep .me (by decide)).trans hflag⟩, h2.step hrest rfl⟩

/-- A held pass writes the drain tiles and the rotation of its tile half. -/
theorem exec_heldPass_shape (op : HeldPass) (s : State) (h : storeWf 0 s.me.bank = true) :
    ∃ counts flag rot eyelets, exec (.heldPass op) s = .next (State.afterPass { s.swapped op with
      me := { (s.swapped op).me with tile := s.passTile op, rotated := s.passRotated op } } op counts flag rot eyelets) := by
  have hbank := State.swapped_bankOf h op
  have hheld : (s.swapped op).heldBlock (2 * op.engine.val + (s.swapped op).bankOf op.engine) = s.passBlock op := by
    rw [hbank, State.swapped_heldBlock]
    rfl
  have hrows := State.swapped_streamRows s op (s.passBlock op)
  obtain ⟨bank, hme⟩ := s.swapped_me op
  have htile : (s.swapped op).me.tile = s.me.tile := by rw [hme]
  have hseed : (s.swapped op).me.tileSeed = s.me.tileSeed := by rw [hme]
  have hrot : (s.swapped op).me.rotated = s.me.rotated := by rw [hme]
  show ∃ counts flag rot eyelets, execHeldPass op s = _
  unfold execHeldPass
  have hswapped : (if op.swapBank then
      { s with me := { s.me with bank := storeSet 0 s.me.bank op.engine.val (1 - s.bankOf op.engine.val) } } else s) = s.swapped op := rfl
  dsimp only
  rw [hswapped]
  unfold State.passTile State.passRotated
  dsimp only
  generalize s.swapped op = u at *
  rw [hheld, hrows, htile, hseed, hrot]
  generalize s.passBlock op = held
  generalize s.streamRows op held = streamed
  obtain ⟨rows, windows, bad⟩ := streamed
  dsimp only
  generalize updateTile _ _ _ _ _ _ = tile
  generalize storeSet 0 s.me.rotated _ _ = rotated
  obtain ⟨v, hv⟩ : ∃ v : State, v = { u with
    me := { u.me with tile := tile, rotated := rotated, tileSeed := s.me.tileSeed } } := ⟨_, rfl⟩
  rw [← hv]
  by_cases hsome : held.rot.isSome = true
  · simp only [if_pos hsome]
    exact ⟨_, _, _, _, congrArg Host.Outcome.next (State.afterPass_some v op _ _ _ _ _ _ _ _)⟩
  · simp only [if_neg hsome]
    exact ⟨_, _, _, _, congrArg Host.Outcome.next (State.afterPass_none v op _ _ _)⟩

theorem State.passTile_inside (s : State) (h : s.enginesOk) (op : HeldPass) {r c : Nat} (hr : r < op.rows) (hc : c < 64) :
    tileWord s.me.tileSeed (s.passTile op) (tileKey op.engine op.half (op.firstRow + r) c) =
      heldOutput (s.passBlock op).fmt (tileWord s.me.tileSeed s.me.tile (tileKey op.engine op.half (op.firstRow + r) c))
        (((((s.streamRows op (s.passBlock op)).1.map fun r => r.map Prod.fst).getD r [])).zip
          ((flipCells zeroCell 64 (s.passBlock op).cells).getD c [])) := by
  obtain ⟨htile, -⟩ := h
  have hin := updateTile_inside s.me.tileSeed htile (tileKey op.engine op.half op.firstRow 0) (Nat.le_refl 64) (fun r c old =>
    heldOutput (s.passBlock op).fmt old (((((s.streamRows op (s.passBlock op)).1.map fun r => r.map Prod.fst).getD r [])).zip
      ((flipCells zeroCell 64 (s.passBlock op).cells).getD c []))) hr hc
  have hkey : tileKey op.engine op.half op.firstRow 0 + r * 64 + c = tileKey op.engine op.half (op.firstRow + r) c := by
    unfold tileKey
    omega
  rw [hkey] at hin
  exact hin

theorem State.passTile_outside (s : State) (h : s.enginesOk) (op : HeldPass) {k : Nat}
    (hk : ∀ r c, r < op.rows → c < 64 → k ≠ tileKey op.engine op.half (op.firstRow + r) c) :
    tileWord s.me.tileSeed (s.passTile op) k = tileWord s.me.tileSeed s.me.tile k := by
  obtain ⟨htile, -⟩ := h
  have hkeys : ∀ r c, r < op.rows → c < 64 → k ≠ tileKey op.engine op.half op.firstRow 0 + r * 64 + c := by
    intro r c hr hc
    have hkey : tileKey op.engine op.half op.firstRow 0 + r * 64 + c = tileKey op.engine op.half (op.firstRow + r) c := by
      unfold tileKey
      omega
    rw [hkey]
    exact hk r c hr hc
  unfold State.passTile
  exact updateTile_outside s.me.tileSeed htile _ (Nat.le_refl 64) _ hkeys

theorem exec_heldPass (op : HeldPass) (s : State) (h : s.enginesOk) :
    ∃ t bank flagged, exec (.heldPass op) s = .next t ∧ storeGet 0 bank op.engine.val = s.passBank op ∧
      t.me = { s.me with bank := bank, tile := s.passTile op, rotated := s.passRotated op, flagged := flagged } ∧
      Evolves ([.seg, .me, .bel] ++ Part.signalled) s t := by
  obtain ⟨-, -, -, -, hbank, -⟩ := h
  obtain ⟨counts, flag, rot, eyelets, hexec⟩ := exec_heldPass_shape op s hbank
  obtain ⟨bank, hme⟩ := s.swapped_me op
  have hbankOf := State.swapped_bankOf hbank op
  have hswapped := (s.swapped_evolves op).widen (Q := [.seg, .me, .bel] ++ Part.signalled) rfl
  generalize s.swapped op = u at *
  have hproducts := hswapped.step (u.evolves_me { u.me with tile := s.passTile op, rotated := s.passRotated op }) rfl
  obtain ⟨⟨flagged, hflag⟩, hafter⟩ := State.afterPass_keeps
    { u with me := { u.me with tile := s.passTile op, rotated := s.passRotated op } } op counts flag rot eyelets
  refine ⟨_, bank, flagged, hexec, ?_, ?_, hproducts.step hafter rfl⟩
  · unfold State.bankOf at hbankOf
    rw [hme] at hbankOf
    exact hbankOf
  · refine hflag.trans ?_
    dsimp only
    rw [hme]

/-- The scale of a drain of a tile half whose last pass ran against a rotated block (R120). -/
theorem State.drainScale_rotated (t : State) (e : Fin 512) (half : Bool) (n : Nat)
    (h : storeGet 0 t.me.rotated (2 * e.val + half.toNat) = Nat.log2 n + 1) :
    t.drainScale (.held e half) = pow2F (-(Nat.log2 n : Int)) := by
  unfold State.drainScale
  dsimp only
  rw [h]
  congr 1
  omega

/-- Settles O21: a load writes one block of the idle bank, a pass one block of the drain tiles. -/
theorem heldBlocksMultiply : Obligations.HeldBlocksMultiply := by
  unfold Obligations.HeldBlocksMultiply
  refine ⟨fun op s hwf => ?_, fun op s h hwf => ?_⟩
  · obtain ⟨t, hexec, hblock, hrest⟩ := exec_heldBlockLoad op s (of_decide_eq_true hwf)
    have hfills := heldBlockLoad_fills op s
    rw [← hblock] at hfills
    exact ⟨t, hexec, hfills, hrest⟩
  · obtain ⟨t, bank, flagged, hexec, hbank, hme, hall⟩ := exec_heldPass op s h
    refine ⟨t, hexec, ?_, ?_, ?_, ?_, ?_, ?_, ?_, ?_, hall.keep, hall.sameBytes⟩
    · unfold State.bankOf
      rw [hme]
      exact hbank
    · intro r c hr hc
      rw [hme]
      exact s.passTile_inside h op hr hc
    · intro k hk
      rw [hme]
      exact s.passTile_outside h op hk
    · intro r hr
      refine State.drainScale_rotated t _ _ r.n ?_
      rw [hme]
      unfold State.passRotated
      rw [show (s.passBlock op).rot = some r from hr]
      exact storeGet_storeSet_new 0 _ _ _ (Nat.succ_ne_zero _)
    all_goals rw [hme]

end Sys2Proof.Machine

/-! O23: vector chains (R165 to R191). -/

namespace Sys2Proof.Machine

set_option Elab.async false

/-! ### Issuing -/

theorem State.issueWaiting_one (s : State) (core : Nat) (i : VeIssue) :
    s.issueWaiting core [i] = if s.ready core i then (s.runIssue core i).setVeWaiting core [] else s.setVeWaiting core [i] := rfl

theorem State.issueWaiting_blocked (s : State) (core : Nat) (j : VeIssue) (js : List VeIssue) (h : s.ready core j = false) :
    s.issueWaiting core (j :: js) = s.setVeWaiting core (j :: js) := by
  show (if s.ready core j then _ else _) = _
  rw [h]
  rfl

/-- An issue that is ready, on a core where none waits. -/
theorem exec_vectorChain_runs (core : Fin 128) (i : VeIssue) (s : State) (hempty : s.veWaiting core = [])
    (hready : s.ready core i = true) : exec (.vectorChain core i) s = .next ((s.runIssue core i).setVeWaiting core []) := by
  have hissue : s.issueWaiting core (s.veWaiting core ++ [i]) = (s.runIssue core i).setVeWaiting core [] := by
    rw [hempty]
    exact (s.issueWaiting_one core i).trans (if_pos hready)
  exact congrArg Host.Outcome.next hissue

/-- What waits for a producer keeps back all that comes after it (R172). -/
theorem exec_vectorChain_waits (core : Fin 128) (i : VeIssue) (s : State) :
    (∀ j js, s.veWaiting core = j :: js → s.ready core j = false →
      exec (.vectorChain core i) s = .next (s.setVeWaiting core (j :: js ++ [i]))) ∧
    (s.veWaiting core = [] → s.ready core i = false → exec (.vectorChain core i) s = .next (s.setVeWaiting core [i])) ∧
    (∀ c k n, i = .chain c → c.ready = some (k, n) →
      s.ready core i = decide (n ≤ storeGet 0 s.ve.ready (core.val * 64 + k.val))) := by
  refine ⟨fun j js hq hj => ?_, fun hq hi => ?_, fun c k n hi hc => ?_⟩
  · have hissue : s.issueWaiting core (s.veWaiting core ++ [i]) = s.setVeWaiting core (j :: js ++ [i]) := by
      rw [hq]
      exact s.issueWaiting_blocked core j (js ++ [i]) hj
    exact congrArg Host.Outcome.next hissue
  · have hissue : s.issueWaiting core (s.veWaiting core ++ [i]) = s.setVeWaiting core [i] := by
      rw [hq]
      exact s.issueWaiting_blocked core i [] hi
    exact congrArg Host.Outcome.next hissue
  · subst hi
    unfold State.ready
    dsimp only
    rw [hc]

/-! ### Mask operations -/

/-- The count of an instruction that is no chain, and the empty queue after it. -/
theorem State.maskOp_writes (s : State) (core : Fin 128) :
    Writes [.regs, .ve, .bel] [bankKey Reg.VE_CHAINS core] s ((s.countMaskOp core).setVeWaiting core []) := by
  have hcount := (s.count_writes (bankKey Reg.VE_CHAINS core) 64 1).widen (Q := [.regs, .ve, .bel])
    (M := [bankKey Reg.VE_CHAINS core]) (hl := fun _ h => h)
  have hbel := hcount.step (State.bel64_evolves _ (coreCnt core 19) 1).writes
  exact hbel.step (State.setVeWaiting_evolves _ core []).writes

theorem State.maskOp_ve (s : State) (core : Fin 128) :
    ∃ waiting, ((s.countMaskOp core).setVeWaiting core []).ve = { s.ve with waiting := waiting } := ⟨_, rfl⟩

theorem State.maskOp_counts (s : State) (core : Fin 128) :
    ((s.countMaskOp core).setVeWaiting core []).regN (bankKey Reg.VE_CHAINS core) =
      min (s.regN (bankKey Reg.VE_CHAINS core) + 1) (2 ^ 64 - 1) := s.regN_count_one _

theorem State.vmask_setMask {s : State} (h : storeWf 0 s.ve.masks = true) (core d : Nat) (hd : d ≠ 0) (v : BitVec 256) :
    (s.setMask core d v).vmask core d = v := by
  unfold State.setMask State.vmask
  rw [if_neg hd, if_neg hd]
  exact storeGet_storeSet_same 0 _ _ _ h

theorem State.vmask_setMask_ne (s : State) {core d c k : Nat} (hd : d < 8) (hk : k < 8) (h : c ≠ core ∨ k ≠ d) (v : BitVec 256) :
    (s.setMask core d v).vmask c k = s.vmask c k := by
  unfold State.setMask
  split
  · rfl
  · unfold State.vmask
    split
    · rfl
    · exact storeGet_storeSet_ne 0 _ _ _ _ (by omega)

theorem State.setMask_ve (s : State) (core d : Nat) (v : BitVec 256) : ∃ masks, (s.setMask core d v).ve = { s.ve with masks := masks } := by
  unfold State.setMask
  split
  · exact ⟨s.ve.masks, rfl⟩
  · exact ⟨_, rfl⟩

/-- A mask operation: its result in K1 to K7, one instruction counted (R167, R173, R178). -/
theorem State.maskOp_runs (s : State) (h : s.enginesOk) (core : Fin 128) (d : Fin 8) (v : BitVec 256) :
    let t := ((s.setMask core d v).countMaskOp core).setVeWaiting core []
    (d.val = 0 → t.vmask core 0 = BitVec.allOnes 256) ∧ (d.val ≠ 0 → t.vmask core d = v) ∧
    (∀ c k : Nat, c < 128 → k < 8 → (c ≠ core ∨ k ≠ d) → t.vmask c k = s.vmask c k) ∧ t.ve.regs = s.ve.regs ∧
    t.ve.bufs = s.ve.bufs ∧ t.regN (bankKey Reg.VE_CHAINS core) = min (s.regN (bankKey Reg.VE_CHAINS core) + 1) (2 ^ 64 - 1) ∧
    s.touches t [.regs, .ve, .bel] [bankKey Reg.VE_CHAINS core] := by
  obtain ⟨-, -, -, -, -, -, hmasks, -⟩ := h
  obtain ⟨waiting, hve⟩ := (s.setMask core d v).maskOp_ve core
  obtain ⟨masks, hset⟩ := s.setMask_ve core d v
  have hvmask : ∀ c k : Nat, (((s.setMask core d v).countMaskOp core).setVeWaiting core []).vmask c k =
      (s.setMask core d v).vmask c k := by
    intro c k
    unfold State.vmask
    rw [hve]
  have hwrites := ((s.setMask_evolves core d v).writes.widen (Q := [.regs, .ve, .bel])
    (M := [bankKey Reg.VE_CHAINS core])).step ((s.setMask core d v).maskOp_writes core) (hl := fun _ h => h)
  have hregs := (s.setMask_evolves core d v).writes.regN (o := bankKey Reg.VE_CHAINS core) List.not_mem_nil
  refine ⟨fun _ => rfl, fun hd => (hvmask _ _).trans (State.vmask_setMask hmasks core d hd v),
    fun c k _ hk hne => (hvmask c k).trans (s.vmask_setMask_ne d.isLt hk hne v), ?_, ?_, ?_, hwrites.touches⟩
  · rw [hve, hset]
  · rw [hve, hset]
  · rw [State.maskOp_counts, hregs]

theorem exec_maskOp (s : State) (h : s.enginesOk) (core : Fin 128) (hempty : s.veWaiting core = []) (i : VeIssue) (d : Fin 8)
    (v : BitVec 256) (hi : (∃ a b, i = .kand d a b ∧ v = s.vmask core a &&& s.vmask core b) ∨
      (∃ a b, i = .kor d a b ∧ v = s.vmask core a ||| s.vmask core b) ∨
      (∃ a, i = .knot d a ∧ v = ~~~(s.vmask core a)) ∨
      (∃ o, i = .kld d o ∧ v = BitVec.ofNat 256 (s.opNat (spadAddr core o) 32))) :
    ∃ t, exec (.vectorChain core i) s = .next t ∧ (d.val = 0 → t.vmask core 0 = BitVec.allOnes 256) ∧
      (d.val ≠ 0 → t.vmask core d = v) ∧
      (∀ c k : Nat, c < 128 → k < 8 → (c ≠ core ∨ k ≠ d) → t.vmask c k = s.vmask c k) ∧ t.ve.regs = s.ve.regs ∧
      t.ve.bufs = s.ve.bufs ∧ t.regN (bankKey Reg.VE_CHAINS core) = min (s.regN (bankKey Reg.VE_CHAINS core) + 1) (2 ^ 64 - 1) ∧
      s.touches t [.regs, .ve, .bel] [bankKey Reg.VE_CHAINS core] := by
  have hrun : s.ready core i = true ∧ s.runIssue core i = (s.setMask core d v).countMaskOp core := by
    rcases hi with ⟨a, b, rfl, rfl⟩ | ⟨a, b, rfl, rfl⟩ | ⟨a, rfl, rfl⟩ | ⟨o, rfl, rfl⟩ <;> exact ⟨rfl, rfl⟩
  refine ⟨_, exec_vectorChain_runs core i s hempty hrun.1, ?_⟩
  rw [hrun.2]
  exact s.maskOp_runs h core d v

theorem State.runIssue_kst (s : State) (core : Nat) (a : Fin 8) (o : Nat) : s.runIssue core (.kst a o) =
    (s.devWrite .scheduled (spadAddr core o) (leBytes 32 (s.vmask core a).toNat)).countMaskOp core := rfl

theorem State.runIssue_combine (s : State) (core : Nat) (c : ExpertCombine) :
    s.runIssue core (.combine c) = (s.combineExperts c).countMaskOp core := rfl

theorem exec_maskStore (s : State) (core : Fin 128) (hempty : s.veWaiting core = []) (a : Fin 8) (o : Nat) :
    ∃ t, exec (.vectorChain core (.kst a o)) s = .next t ∧
      (∀ x, t.devByte x = (s.devWrite .scheduled (spadAddr core o) (leBytes 32 (s.vmask core a).toNat)).devByte x) ∧
      t.ve.regs = s.ve.regs ∧ t.ve.masks = s.ve.masks ∧ t.ve.bufs = s.ve.bufs ∧
      s.keeps t ([.mem, .ve, .hbm, .bel] ++ Part.signalled) := by
  refine ⟨_, exec_vectorChain_runs core (.kst a o) s hempty rfl, ?_⟩
  rw [s.runIssue_kst]
  have hwrite := s.devWrite_evolves .scheduled (spadAddr core o) (leBytes 32 (s.vmask core a).toNat)
  generalize s.devWrite .scheduled (spadAddr core o) (leBytes 32 (s.vmask core a).toNat) = u at *
  have hcount := (u.maskOp_writes core).evolves
  obtain ⟨waiting, hve⟩ := u.maskOp_ve core
  have hu : u.ve = s.ve := hwrite.keep .ve (by decide)
  rw [hu] at hve
  have hall := (hwrite.widen (Q := [.mem, .ve, .hbm, .bel] ++ Part.signalled) rfl).step hcount rfl
  exact ⟨hcount.sameBytes, by rw [hve], by rw [hve], by rw [hve], hall.keep⟩

theorem exec_combine (s : State) (core : Fin 128) (hempty : s.veWaiting core = []) (c : ExpertCombine) (e : ExchangeStream)
    (he : s.exchangeStream c.stream = some e) :
    let ref := s.segRef c.tensor 0 (s.plot c.plot).branch false (.near ⟨0, 0, 0⟩)
    ∃ t, exec (.vectorChain core (.combine c)) s = .next t ∧
      (∀ x, t.devByte x = ((List.range c.tokens).foldl (fun a i => a.devWrite .scheduled (c.output + 4 * i * c.record.cols)
        ((List.range c.record.cols).flatMap fun col => leBytes 4 (s.combined c e.choices ref i col).toNat)) s).devByte x) ∧
      t.ve.regs = s.ve.regs ∧ t.ve.masks = s.ve.masks ∧ t.ve.bufs = s.ve.bufs ∧
      s.keeps t ([.mem, .ve, .hbm, .bel] ++ Part.signalled) := by
  dsimp only
  refine ⟨_, exec_vectorChain_runs core (.combine c) s hempty rfl, ?_⟩
  rw [s.runIssue_combine]
  have hcombine := s.combineExperts_evolves c
  have hrows : ∀ x, (s.combineExperts c).devByte x =
      ((List.range c.tokens).foldl (fun a i => a.devWrite .scheduled (c.output + 4 * i * c.record.cols)
        ((List.range c.record.cols).flatMap fun col => leBytes 4 (s.combined c e.choices
          (s.segRef c.tensor 0 (s.plot c.plot).branch false (.near ⟨0, 0, 0⟩)) i col).toNat)) s).devByte x := by
    unfold State.combineExperts
    rw [he]
    exact (State.tally_evolves _ _).sameBytes
  generalize s.combineExperts c = u at *
  have hcount := (u.maskOp_writes core).evolves
  obtain ⟨waiting, hve⟩ := u.maskOp_ve core
  have hu : u.ve = s.ve := hcombine.keep .ve (by decide)
  rw [hu] at hve
  have hall := (hcombine.widen (Q := [.mem, .ve, .hbm, .bel] ++ Part.signalled) rfl).step hcount rfl
  have hsame := hcount.sameBytes
  exact ⟨fun x => (hsame x).trans (hrows x), by rw [hve], by rw [hve], by rw [hve], hall.keep⟩

/-! ### What a chain counts -/

/-- The registers that a chain counts in after its own count. -/
abbrev Reg.chainRest (core : Nat) : List Nat :=
  [Reg.VE_STALL, Reg.VE_WAIT, Reg.VE_TILEBUF, Reg.VE_DRAWS, Reg.VE_FLAGS].map (bankKey · core) ++ Reg.TRL_SPAD_PROMOTE :: Reg.tally

theorem Reg.notMem_chainRest (core : Nat) : bankKey Reg.VE_CHAINS core ∉ Reg.chainRest core := by
  have hbanked : ∀ off ∈ [Reg.VE_STALL, Reg.VE_WAIT, Reg.VE_TILEBUF, Reg.VE_DRAWS, Reg.VE_FLAGS],
      off % 67108864 ≠ Reg.VE_CHAINS := by decide
  have hrest : ∀ k ∈ Reg.TRL_SPAD_PROMOTE :: Reg.tally, k % 67108864 ≠ Reg.VE_CHAINS := by decide
  refine bank_notMem (by decide) fun k hk => ?_
  rcases List.mem_append.mp hk with hk | hk
  · obtain ⟨off, hoff, rfl⟩ := List.mem_map.mp hk
    rw [bankKey, Nat.add_mul_mod_self_left]
    exact hbanked off hoff
  · exact hrest k hk

/-- The flags of a chain are what its counters end with. -/
theorem State.countChain_shape (s : State) (core : Nat) (c : VChain) (v : VRun) :
    ∃ u, s.countChain core c v = u.veFlag core (v.flags % 256) ∧
      Writes [.regs, .bel] (Reg.chainRest core) (s.count (bankKey Reg.VE_CHAINS core) 64 1) u := by
  refine ⟨_, rfl, ?_⟩
  have hstall := (State.count_writes (s.count (bankKey Reg.VE_CHAINS core) 64 1) (bankKey Reg.VE_STALL core) 64 c.stall).widen
    (Q := [.regs, .bel]) (M := Reg.chainRest core)
  have htally := (((hstall.step (State.count_writes _ (bankKey Reg.VE_WAIT core) 64 c.wait)).step
    (State.count_writes _ (bankKey Reg.VE_TILEBUF core) 64 (usesBuf c).toNat)).step
      (State.count_writes _ (bankKey Reg.VE_DRAWS core) 64 v.tally.draws)).step (State.tally_writes _ v.tally)
        (hl := fun _ h => List.mem_append_right _ (List.mem_cons_of_mem _ h))
  exact (((((((htally.step (State.bel64_evolves _ _ _).writes).step (State.bel64_evolves _ _ _).writes).step
    (State.bel64_evolves _ _ _).writes).step (State.bel64_evolves _ _ _).writes).step (State.bel64_evolves _ _ _).writes).step
      (State.portShare_writes _ _ _ _)).step (State.bel64_evolves _ _ _).writes)

theorem State.countChain_counts (s : State) (core : Nat) (c : VChain) (v : VRun) :
    (s.countChain core c v).regN (bankKey Reg.VE_CHAINS core) = min (s.regN (bankKey Reg.VE_CHAINS core) + 1) (2 ^ 64 - 1) := by
  obtain ⟨u, hu, hrest⟩ := s.countChain_shape core c v
  have hflag := (u.orReg_writes (bankKey Reg.VE_FLAGS core) (BitVec.ofNat 64 (v.flags % 256))).regN
    (o := bankKey Reg.VE_CHAINS core) (by rw [List.mem_singleton]; exact bankKey_ne_bank (by decide) core)
  rw [hu]
  exact (hflag.trans (hrest.regN (Reg.notMem_chainRest core))).trans (s.regN_count_one _)

/-- A chain's flags show in VE_FLAGS (R185). -/
theorem State.countChain_flags {s : State} (h : storeWf 0 s.regs = true) (core : Nat) (c : VChain) (v : VRun) {i : Nat}
    (hi : (v.flags % 256).testBit i = true) (h64 : i < 64) :
    (s.countChain core c v).bit (bankKey Reg.VE_FLAGS core) i = true := by
  obtain ⟨u, hu, hrest⟩ := s.countChain_shape core c v
  rw [hu]
  have hwf : storeWf 0 u.regs = true := hrest.wf ((s.count_writes (bankKey Reg.VE_CHAINS core) 64 1).wf h)
  refine (u.bit_orReg _ i _ hwf).trans ?_
  rw [BitVec.getLsbD_ofNat, hi]
  simp [h64]

/-! ### One stage -/

/-- The bits that a stage other than a conversion into 16 bits gives for its operands. -/
def stageBits (f : FpFmt) (o : VOp) (x : (Nat × Nat × Nat) × Nat) : Nat := (stageOp f o x.1.1 x.1.2.1 x.1.2.2).bits

theorem runStage_fst (f : FpFmt) (rule : Fmt → ShortRule) (o : VOp) (mask : BitVec 256) (opnd : Nat → (Nat × Nat × Nat) × Nat)
    (ho : ∀ a, shortTarget o a = none) (v : VRun) (i n : Nat) :
    (runStage f rule o mask opnd v i n).1 =
      (List.range' i n).map fun k => if mask.getLsbD k then stageBits f o (opnd k) else 0 := by
  induction n generalizing v i with
  | zero => rfl
  | succ n ih =>
    rw [List.range'_succ, List.map_cons]
    unfold runStage
    split
    next hmask =>
      rcases hx : opnd i with ⟨⟨a, b, c⟩, fl⟩
      dsimp only
      rw [ho a]
      dsimp only
      rw [ih]
      rfl
    next hmask =>
      dsimp only
      rw [ih]

/-- What the result format stores of a vector: one element after another, masked ones kept or read as 0 (R180). -/
theorem State.finalVector_fst {s : State} {c : VChain} (hfmt : storeFmt c = .fp32) (mask : BitVec 256) (v : VRun) (g : Nat → Nat)
    (i n : Nat) :
    (s.finalVector c mask false v i ((List.range' i n).map g)).1 =
      (List.range' i n).map fun k => if mask.getLsbD k then some (g k) else if c.zero then some 0 else none := by
  induction n generalizing v i with
  | zero => rfl
  | succ n ih =>
    have hbits : ∀ x, s.finalBits c .fp32 false v x = (x, v) := fun x => rfl
    rw [List.range'_succ, List.map_cons, List.map_cons]
    unfold State.finalVector
    rw [hfmt]
    split
    next hmask =>
      rw [hbits]
      dsimp only
      rw [ih]
    next hmask =>
      dsimp only
      rw [ih]

/-! ### Writing a register of FP32 -/

theorem regKey_lt {core n lane : Nat} (hn : n < 32) (hlane : lane < 128) : regKey core n lane = core * 4096 + n * 128 + lane := by
  unfold regKey
  omega

/-- Elements of a register written one after another: what each key of the registers reads after it. -/
theorem State.writeReg_fp32 {core n : Nat} (hn : n < 32) (h : Nat → Option Nat) (s : State) (hwf : storeWf 0 s.ve.regs = true)
    (i m : Nat) (him : i + m ≤ 128) :
    ∃ regs, (s.writeReg .fp32 core n i ((List.range' i m).map h)).ve = { s.ve with regs := regs } ∧
      (∀ j, i ≤ j → j < i + m → storeGet 0 regs (regKey core n j) =
        match h j with | some b => BitVec.ofNat 32 b | none => storeGet 0 s.ve.regs (regKey core n j)) ∧
      (∀ k, (∀ j, i ≤ j → j < i + m → k ≠ regKey core n j) → storeGet 0 regs k = storeGet 0 s.ve.regs k) := by
  induction m generalizing s i with
  | zero => exact ⟨s.ve.regs, rfl, fun j hlo hhi => absurd hhi (by omega), fun k _ => rfl⟩
  | succ m ih =>
    rw [List.range'_succ, List.map_cons]
    have hkeys : ∀ j, i + 1 ≤ j → j < i + 1 + m → regKey core n i ≠ regKey core n j := by
      intro j hlo hhi
      rw [regKey_lt hn (by omega), regKey_lt hn (by omega)]
      omega
    cases hi : h i with
    | none =>
      obtain ⟨regs, hve, hin, hout⟩ := ih s hwf (i + 1) (by omega)
      refine ⟨regs, hve, fun j hlo hhi => ?_, fun k hk => hout k fun j hlo hhi => hk j (by omega) (by omega)⟩
      by_cases hj : j = i
      · subst hj
        rw [hi]
        exact hout _ hkeys
      · exact hin j (by omega) (by omega)
    | some b =>
      have hset : (s.setElem .fp32 core n i b).ve =
          { s.ve with regs := storeSet 0 s.ve.regs (regKey core n i) (BitVec.ofNat 32 b) } := rfl
      have hwf' : storeWf 0 (s.setElem .fp32 core n i b).ve.regs = true := by
        rw [hset]
        exact storeWf_storeSet 0 _ _ _ hwf
      obtain ⟨regs, hve, hin, hout⟩ := ih (s.setElem .fp32 core n i b) hwf' (i + 1) (by omega)
      rw [hset] at hve hin hout
      refine ⟨regs, hve, fun j hlo hhi => ?_, fun k hk => ?_⟩
      · by_cases hj : j = i
        · subst hj
          rw [hi]
          exact (hout _ hkeys).trans (storeGet_storeSet_same 0 _ _ _ hwf)
        · have hne : regKey core n j ≠ regKey core n i := (hkeys j (by omega) (by omega)).symm
          have := hin j (by omega) (by omega)
          rwa [storeGet_storeSet_ne 0 _ _ _ _ hne] at this
      · exact (hout k fun j hlo hhi => hk j (by omega) (by omega)).trans
          (storeGet_storeSet_ne 0 _ _ _ _ (hk i (Nat.le_refl i) (by omega)))

/-! ### A chain of one stage -/

/-- The operands of a stage at an element. -/
def State.stageOperands (s : State) (core : Nat) (c : VChain) (done : List (List Nat)) (st : VStage) (j i : Nat) :
    (Nat × Nat × Nat) × Nat :=
  let f := readFmt c st.op
  let a := s.operand core c f done st.a j i
  let b := if 2 ≤ arity st.op then s.operand core c f done st.b j i else (0, false)
  let d := if 3 ≤ arity st.op then s.operand core c f done st.c j i else (0, false)
  ((a.1, b.1, d.1), a.2.toNat + b.2.toNat + d.2.toNat)

theorem stageBits_operands (s : State) (core : Nat) (c : VChain) (done : List (List Nat)) (st : VStage) (j i : Nat) (f : FpFmt) :
    stageBits f st.op (s.stageOperands core c done st j i) =
      (stageOp f st.op (s.operand core c (readFmt c st.op) done st.a j i).1
        (if 2 ≤ arity st.op then (s.operand core c (readFmt c st.op) done st.b j i).1 else 0)
        (if 3 ≤ arity st.op then (s.operand core c (readFmt c st.op) done st.c j i).1 else 0)).bits := by
  unfold stageBits State.stageOperands
  simp only [apply_ite Prod.fst]

/-- The element that a chain of one stage writes. -/
def State.stageElem (s : State) (core : Nat) (c : VChain) (st : VStage) (i : Nat) : Option Nat :=
  if (s.vmask core c.mask).getLsbD i then
    some (if (s.vmask core c.mask).getLsbD i then stageBits fp32 st.op (s.stageOperands core c [] st 0 i) else 0)
  else if c.zero then some 0 else none

theorem stage_not_wide {c : VChain} {st : VStage} (hfmt : c.fmt = .fp32) (hst : c.stages = [st]) (hfinal : c.final = none)
    (hstore : storeFmt c = .fp32) : resultWide c st.op = false := by
  unfold storeFmt at hstore
  rw [hfinal, hst, hfmt] at hstore
  unfold resultWide
  rw [hfmt]
  split
  next src d stoch hop =>
    refine decide_eq_false fun hd => ?_
    subst hd
    have hlast : ([st].getLast?).map VStage.op = some st.op := rfl
    rw [hlast, hop] at hstore
    exact absurd hstore (by simp [isShort])
  next => rfl

theorem State.runStages_one (s : State) (core : Nat) (c : VChain) (mask : BitVec 256) (j : Nat) (v : VRun) (st : VStage) :
    (s.runStages core c mask j v [] [st]).1 =
      [(runStage (calcFmt c.fmt) (s.shortRule c.cls) st.op mask (s.stageOperands core c [] st j) v 0 (lanesOf c.fmt)).1] := rfl

/-- A position of a chain that writes a register. -/
theorem chainAt_reg {core : Nat} {c : VChain} {n : Fin 32} (hred : c.red = none) (hdst : c.dst = .reg n) (base : Nat) (x : ChainRun)
    (j : Nat) :
    let run := x.s.runStages core c (x.s.vmask core c.mask) j x.v [] c.stages
    let wide := ((c.stages.getLast?).map fun st => resultWide c st.op).getD false
    (chainAt core c base x j).s = x.s.writeReg (storeFmt c) core n 0
      (x.s.finalVector c (x.s.vmask core c.mask) wide run.2 0 (run.1.getLast?.getD [])).1 := by
  dsimp only
  unfold chainAt
  rw [hred, hdst]

/-- The one position of such a chain: its results in the destination register. -/
theorem chainBody_stage {s : State} {core : Nat} {c : VChain} {st : VStage} {n : Fin 32} (hfmt : c.fmt = .fp32)
    (hst : c.stages = [st]) (hred : c.red = none) (hfinal : c.final = none) (hstore : storeFmt c = .fp32) (hdst : c.dst = .reg n)
    (hcount : c.count = 1) (ho : ∀ a, shortTarget st.op a = none) :
    (chainBody s core c).s = s.writeReg .fp32 core n 0 ((List.range' 0 128).map (s.stageElem core c st)) := by
  have hbody : chainBody s core c = chainAt core c 0 (chainStart s core c) 0 := by
    unfold chainBody
    rw [hred, hcount]
    rfl
  have hwide : ((c.stages.getLast?).map fun st => resultWide c st.op).getD false = false := by
    rw [hst]
    exact stage_not_wide hfmt hst hfinal hstore
  have hstages : ∀ v, (s.runStages core c (s.vmask core c.mask) 0 v [] c.stages).1 =
      [(List.range' 0 128).map fun k => if (s.vmask core c.mask).getLsbD k then
        stageBits fp32 st.op (s.stageOperands core c [] st 0 k) else 0] := by
    intro v
    rw [hst, s.runStages_one, hfmt]
    exact congrArg (fun out => [out]) (runStage_fst fp32 _ st.op _ _ ho v 0 128)
  have hat := chainAt_reg (core := core) hred hdst 0 (chainStart s core c) 0
  have hstart : (chainStart s core c).s = s := rfl
  dsimp only at hat
  have hlast : ∀ l : List Nat, ([l].getLast?).getD [] = l := fun _ => rfl
  rw [hstart, hwide, hstages, hstore, hlast, State.finalVector_fst hstore] at hat
  rw [hbody, hat]
  rfl

/-! ### After the last position -/

theorem State.runChain_reg {s : State} {core : Nat} {c : VChain} {n : Fin 32} (hdst : c.dst = .reg n) (hcollide : c.collide = []) :
    s.runChain core c = ((chainBody s core c).s.setGen core (some (chainBody s core c).v.gen)).countChain core c
      (chainBody s core c).v := by
  unfold State.runChain State.chainOut
  rw [hdst, hcollide]
  rfl

/-- A chain whose positions changed registers of its engine only: what is left once it has counted. -/
structure ChainDone (s : State) (core : Nat) (regs : Words) (t : State) : Prop where
  ve : ∃ waiting, t.ve = { s.ve with regs := regs, waiting := waiting }
  counted : t.regN (bankKey Reg.VE_CHAINS core) = min (s.regN (bankKey Reg.VE_CHAINS core) + 1) (2 ^ 64 - 1)
  evolves : Evolves [.regs, .seg, .ve, .bel] s t

theorem ChainDone.of_body {s u : State} {core : Nat} {regs : Words} (hu : Evolves [.ve] s u) (hve : u.ve = { s.ve with regs := regs })
    (c : VChain) (v : VRun) : ChainDone s core regs (((u.setGen core (some v.gen)).countChain core c v).setVeWaiting core []) := by
  have hgen := State.setGen_evolves u core (some v.gen)
  have hbefore := (hu.widen (Q := [.seg, .ve]) rfl).step hgen rfl
  have hregs := hbefore.writes.regN (o := bankKey Reg.VE_CHAINS core) List.not_mem_nil
  have hgve : (u.setGen core (some v.gen)).ve = u.ve := hgen.keep .ve (by decide)
  generalize u.setGen core (some v.gen) = g at *
  have hcount := g.countChain_evolves core c v
  have hcounted := g.countChain_counts core c v
  have hcve : (g.countChain core c v).ve = g.ve := hcount.keep .ve (by decide)
  generalize g.countChain core c v = w at *
  have hwait := w.setVeWaiting_evolves core []
  refine ⟨⟨storeSet [] w.ve.waiting core [], ?_⟩, ?_, ?_⟩
  · show ({ w.ve with waiting := storeSet [] w.ve.waiting core [] } : VectorSt) = _
    rw [hcve, hgve, hve]
  · rw [hwait.writes.regN List.not_mem_nil, hcounted, hregs]
  · exact ((hbefore.widen (Q := [.regs, .seg, .ve, .bel]) rfl).step hcount rfl).step hwait rfl

theorem exec_stageChain (core : Fin 128) (c : VChain) (st : VStage) (n : Fin 32) (s : State) (h : s.enginesOk)
    (hempty : s.veWaiting core = []) (hready : s.ready core (.chain c) = true) (hfmt : c.fmt = .fp32) (hst : c.stages = [st])
    (hred : c.red = none) (hfinal : c.final = none) (hstore : storeFmt c = .fp32) (hdst : c.dst = .reg n) (hcount : c.count = 1)
    (hcollide : c.collide = []) (ho : ∀ a, shortTarget st.op a = none) :
    let operand := fun src i => (s.operand core c (readFmt c st.op) [] src 0 i).1
    let result := fun i => stageOp fp32 st.op (operand st.a i) (if 2 ≤ arity st.op then operand st.b i else 0)
      (if 3 ≤ arity st.op then operand st.c i else 0)
    ∃ t, exec (.vectorChain core (.chain c)) s = .next t ∧
      (∀ i, i < 128 → t.vreg core n i = if (s.vmask core c.mask).getLsbD i then BitVec.ofNat 32 (result i).bits
        else if c.zero then 0 else s.vreg core n i) ∧
      (∀ k, (∀ i, i < 128 → k ≠ regKey core n i) → storeGet 0 t.ve.regs k = storeGet 0 s.ve.regs k) ∧
      t.ve.masks = s.ve.masks ∧ t.ve.bufs = s.ve.bufs ∧ t.ve.ready = s.ve.ready ∧
      t.regN (bankKey Reg.VE_CHAINS core) = min (s.regN (bankKey Reg.VE_CHAINS core) + 1) (2 ^ 64 - 1) ∧
      s.keeps t [.regs, .seg, .ve, .bel] ∧ s.sameBytes t := by
  dsimp only
  obtain ⟨-, -, -, -, -, hregs, -⟩ := h
  obtain ⟨regs, hve, hin, hout⟩ := State.writeReg_fp32 (core := core) n.isLt (s.stageElem core c st) s hregs 0 128 (Nat.le_refl 128)
  have hbody := chainBody_stage (s := s) (core := core) hfmt hst hred hfinal hstore hdst hcount ho
  have hwritten := s.writeReg_evolves .fp32 core n 0 ((List.range' 0 128).map (s.stageElem core c st))
  rw [← hbody] at hve hwritten
  have hrun := State.runChain_reg (s := s) (core := core) hdst hcollide
  have hdone := ChainDone.of_body (core := core) hwritten hve c (chainBody s core c).v
  obtain ⟨waiting, htve⟩ := hdone.ve
  refine ⟨_, (exec_vectorChain_runs core (.chain c) s hempty hready).trans
    (congrArg (fun u : State => Host.Outcome.next (u.setVeWaiting core [])) hrun), fun i hi => ?_, fun k hk => ?_, ?_, ?_, ?_,
    hdone.counted, hdone.evolves.keep, hdone.evolves.sameBytes⟩
  · unfold State.vreg
    rw [htve]
    refine (hin i (Nat.zero_le i) (by omega)).trans ?_
    unfold State.stageElem
    by_cases hmask : (s.vmask core c.mask).getLsbD i = true
    · rw [if_pos hmask, if_pos hmask, if_pos hmask, stageBits_operands]
    · rw [if_neg hmask, if_neg hmask]
      cases c.zero <;> rfl
  · rw [htve]
    exact hout k fun j _ hj => hk j (by omega)
  all_goals rw [htve]

/-! ### Reductions over one vector -/

theorem treeLevel_length (f : FpFmt) (r : Reduction) : ∀ l : List (Option Cand), (treeLevel f r l).length = (l.length + 1) / 2
  | [] => rfl
  | [_] => by simp [treeLevel]
  | a :: b :: cs => by
    have ih := treeLevel_length f r cs
    show (treeLevel f r cs).length + 1 = (cs.length + 1 + 1 + 1) / 2
    omega

theorem treeLevel_none (f : FpFmt) (r : Reduction) :
    ∀ l : List (Option Cand), (∀ x ∈ l, x = none) → ∀ x ∈ treeLevel f r l, x = none
  | [], h => h
  | [_], h => h
  | a :: b :: cs, h => by
    intro x hx
    have ha : a = none := h a (List.mem_cons_self ..)
    have hb : b = none := h b (List.mem_cons_of_mem _ (List.mem_cons_self ..))
    have hrest : ∀ x ∈ cs, x = none := fun x hx => h x (List.mem_cons_of_mem _ (List.mem_cons_of_mem _ hx))
    subst ha hb
    rcases List.mem_cons.mp hx with rfl | hx
    · rfl
    · exact treeLevel_none f r cs hrest x hx

theorem treeLevels_none (f : FpFmt) (r : Reduction) (n : Nat) (l : List (Option Cand)) (h : ∀ x ∈ l, x = none) :
    ∀ x ∈ treeLevels f r n l, x = none := by
  induction n generalizing l with
  | zero => exact h
  | succ n ih => exact ih _ (treeLevel_none f r l h)

/-- Seven levels take the 128 elements of a vector to one result. -/
theorem treeLevels_seven (f : FpFmt) (r : Reduction) {l : List (Option Cand)} (h : l.length = 128) :
    ∃ x, treeLevels f r 7 l = [x] := by
  refine List.length_eq_one_iff.mp ?_
  simp only [treeLevels, treeLevel_length, h]

/-- A position of a chain that ends in a reduction of its vector. -/
theorem chainAt_red {core : Nat} {c : VChain} {r : Reduction} (hred : c.red = some r) (halong : r.along = false) (base : Nat)
    (x : ChainRun) (j : Nat) :
    let mask := x.s.vmask core c.mask
    let run := x.s.runStages core c mask j x.v [] c.stages
    let input := x.s.reduceInput core c r.src mask j run.1 run.2
    let out := treeLevels (calcFmt c.fmt) r (levelsOf c.fmt c.whole) (candidatesOf (calcFmt c.fmt) r mask id input.1)
    let e := if !c.whole then 0 else if isShort c.fmt then 2 * tileColumn c.fmt j else tileColumn c.fmt j
    let w := x.s.writeResults c core (destReg c.dst) r e input.2 out
    (chainAt core c base x j).s = w.1 ∧ (chainAt core c base x j).v = w.2 := by
  dsimp only
  unfold chainAt
  rw [hred]
  dsimp only
  rw [halong]
  exact ⟨rfl, rfl⟩

theorem chainBody_red {s : State} {core : Nat} {c : VChain} {r : Reduction} (hred : c.red = some r) (halong : r.along = false)
    (hcount : c.count = 1) : ∃ base, chainBody s core c = chainAt core c base (chainStart s core c) 0 := by
  unfold chainBody
  rw [hred, hcount]
  dsimp only
  rw [halong]
  exact ⟨_, rfl⟩

/-- The result of a plain reduction in FP32: its bits, and EMPTY among the flags where there is none (R183). -/
theorem State.writeResult_fp32 {c : VChain} {r : Reduction} (hfmt : c.fmt = .fp32) (hfinal : c.final = none)
    (harg : isArg r.op = false) (s : State) (core n e : Nat) (x : Option Cand) (v : VRun) :
    (s.writeResult c core n r e x v).1 = s.setElem .fp32 core n e ((x.map Cand.val).getD (redIdentity fp32 r.int r.op)) ∧
      (s.writeResult c core n r e x v).2.flags = v.flags ||| (x.map Cand.flags).getD 32 := by
  unfold State.writeResult
  rw [hfmt, hfinal, harg]
  cases r.int <;> exact ⟨rfl, rfl⟩

/-- The reduction that a chain makes of its vector. -/
def State.reduced (s : State) (core : Nat) (c : VChain) (r : Reduction) : Option Cand :=
  let mask := s.vmask core c.mask
  let done := (s.runStages core c mask 0 (chainStart s core c).v [] c.stages).1
  let input := (List.range 128).map fun i => (s.operand core c .fp32 done r.src 0 i).1
  (treeLevels fp32 r 7 (candidatesOf fp32 r mask id input)).head?.join

theorem State.reduceInput_fst {c : VChain} (hfmt : c.fmt = .fp32) (s : State) (core : Nat) (src : VSrc) (mask : BitVec 256) (j : Nat)
    (done : List (List Nat)) (v : VRun) :
    (s.reduceInput core c src mask j done v).1 = (List.range 128).map fun i => (s.operand core c .fp32 done src j i).1 := by
  unfold State.reduceInput
  rw [hfmt]
  exact List.map_map

theorem candidatesOf_length (f : FpFmt) (r : Reduction) (mask : BitVec 256) (ix : Nat → Nat) (xs : List Nat) :
    (candidatesOf f r mask ix xs).length = xs.length := by
  unfold candidatesOf
  rw [List.length_map, List.length_zipIdx]

theorem candidatesOf_masked {f : FpFmt} {r : Reduction} {mask : BitVec 256} {ix : Nat → Nat} {xs : List Nat}
    (h : ∀ i, i < xs.length → mask.getLsbD i = false) : ∀ x ∈ candidatesOf f r mask ix xs, x = none := by
  intro x hx
  obtain ⟨⟨y, i⟩, hi, rfl⟩ := List.mem_map.mp hx
  have hlt := List.snd_lt_of_mem_zipIdx hi
  dsimp only at hlt ⊢
  rw [h i (by omega)]
  rfl

/-- A vector whose lanes are all masked has no reduction. -/
theorem State.reduced_masked {s : State} {core : Nat} {c : VChain} {r : Reduction}
    (h : ∀ i, i < 128 → (s.vmask core c.mask).getLsbD i = false) : s.reduced core c r = none := by
  unfold State.reduced
  dsimp only
  obtain ⟨x, hx⟩ := treeLevels_seven fp32 r (l := candidatesOf fp32 r (s.vmask core c.mask) id ((List.range 128).map fun i =>
    (s.operand core c .fp32 (s.runStages core c (s.vmask core c.mask) 0 (chainStart s core c).v [] c.stages).1 r.src 0 i).1))
    (by rw [candidatesOf_length, List.length_map, List.length_range])
  have hnone := treeLevels_none fp32 r 7 _ (candidatesOf_masked (f := fp32) (r := r) (ix := id)
    (xs := (List.range 128).map fun i =>
      (s.operand core c .fp32 (s.runStages core c (s.vmask core c.mask) 0 (chainStart s core c).v [] c.stages).1 r.src 0 i).1)
    (fun i hi => h i (by rwa [List.length_map, List.length_range] at hi)))
  rw [hx] at hnone ⊢
  rw [hnone x (List.mem_singleton_self x)]
  rfl

/-- The one position of a chain that reduces its vector. -/
theorem chainBody_reduction {s : State} {core : Nat} {c : VChain} {r : Reduction} {n : Fin 32} (hfmt : c.fmt = .fp32)
    (hred : c.red = some r) (halong : r.along = false) (harg : isArg r.op = false) (hfinal : c.final = none) (hdst : c.dst = .reg n)
    (hcount : c.count = 1) (hwhole : c.whole = false) :
    (chainBody s core c).s = s.setElem .fp32 core n 0 (((s.reduced core c r).map Cand.val).getD (redIdentity fp32 r.int r.op)) ∧
      ∃ flags, (chainBody s core c).v.flags = flags ||| ((s.reduced core c r).map Cand.flags).getD 32 := by
  obtain ⟨base, hbody⟩ := chainBody_red (s := s) (core := core) hred halong hcount
  obtain ⟨hs, hv⟩ := chainAt_red (core := core) hred halong base (chainStart s core c) 0
  have hstart : (chainStart s core c).s = s := rfl
  rw [hstart] at hs hv
  have hlevels : levelsOf c.fmt c.whole = 7 := by rw [hfmt]; rfl
  have hcalc : calcFmt c.fmt = fp32 := by rw [hfmt]; rfl
  have hreg : destReg c.dst = n := by rw [hdst]; rfl
  rw [hlevels, hcalc, hreg, hwhole, State.reduceInput_fst hfmt] at hs hv
  obtain ⟨x, hx⟩ := treeLevels_seven fp32 r (l := candidatesOf fp32 r (s.vmask core c.mask) id ((List.range 128).map fun i =>
    (s.operand core c .fp32 (s.runStages core c (s.vmask core c.mask) 0 (chainStart s core c).v [] c.stages).1 r.src 0 i).1))
    (by rw [candidatesOf_length, List.length_map, List.length_range])
  have hreduced : s.reduced core c r = x := by
    unfold State.reduced
    dsimp only
    rw [hx]
    rfl
  have hone : ∀ e v, s.writeResults c core n r e v [x] = s.writeResult c core n r e x v := fun e v => rfl
  rw [hx, hone] at hs hv
  obtain ⟨hw, hflags⟩ := State.writeResult_fp32 hfmt hfinal harg s core n 0 x
    (s.reduceInput core c r.src (s.vmask core c.mask) 0
      (s.runStages core c (s.vmask core c.mask) 0 (chainStart s core c).v [] c.stages).1
      (s.runStages core c (s.vmask core c.mask) 0 (chainStart s core c).v [] c.stages).2).2
  rw [hbody, hreduced]
  exact ⟨hs.trans hw, _, (congrArg VRun.flags hv).trans hflags⟩

/-- The word that a chain writes for its reduction (R183). -/
def State.reducedWord (s : State) (core : Nat) (c : VChain) (r : Reduction) : Word :=
  BitVec.ofNat 32 (((s.reduced core c r).map Cand.val).getD (redIdentity fp32 r.int r.op))

theorem exec_reduction (core : Fin 128) (c : VChain) (r : Reduction) (n : Fin 32) (s : State) (hinv : s.inv) (h : s.enginesOk)
    (hempty : s.veWaiting core = []) (hready : s.ready core (.chain c) = true) (hfmt : c.fmt = .fp32) (hred : c.red = some r)
    (halong : r.along = false) (harg : isArg r.op = false) (hfinal : c.final = none) (hdst : c.dst = .reg n) (hcount : c.count = 1)
    (hwhole : c.whole = false) (hcollide : c.collide = []) :
    ∃ t, exec (.vectorChain core (.chain c)) s = .next t ∧
      t.vreg core n 0 = s.reducedWord core c r ∧
      ((∀ i, i < 128 → (s.vmask core c.mask).getLsbD i = false) →
        t.vreg core n 0 = BitVec.ofNat 32 (redIdentity fp32 r.int r.op) ∧ t.bit (bankKey Reg.VE_FLAGS core) 5 = true) ∧
      (∀ k, k ≠ regKey core n 0 → storeGet 0 t.ve.regs k = storeGet 0 s.ve.regs k) ∧
      t.ve.masks = s.ve.masks ∧ t.ve.bufs = s.ve.bufs ∧ s.keeps t [.regs, .seg, .ve, .bel] ∧ s.sameBytes t := by
  obtain ⟨-, -, -, -, -, hregs, -⟩ := h
  obtain ⟨-, hregsWf⟩ := hinv
  obtain ⟨hbody, flags, hflags⟩ := chainBody_reduction (s := s) (core := core) hfmt hred halong harg hfinal hdst hcount hwhole
  have hwritten := s.setElem_evolves .fp32 core n 0 (((s.reduced core c r).map Cand.val).getD (redIdentity fp32 r.int r.op))
  have hve : (chainBody s core c).s.ve = { s.ve with
      regs := storeSet 0 s.ve.regs (regKey core n 0) (s.reducedWord core c r) } := by
    rw [hbody]
    rfl
  rw [← hbody] at hwritten
  have hrun := State.runChain_reg (s := s) (core := core) hdst hcollide
  have hdone := ChainDone.of_body (core := core) hwritten hve c (chainBody s core c).v
  have hvalue : ∀ t : State, (∃ waiting, t.ve = { s.ve with
      regs := storeSet 0 s.ve.regs (regKey core n 0) (s.reducedWord core c r), waiting := waiting }) →
      t.vreg core n 0 = s.reducedWord core c r := by
    rintro t ⟨waiting, ht⟩
    unfold State.vreg
    rw [ht]
    exact storeGet_storeSet_same 0 _ _ _ hregs
  refine ⟨_, (exec_vectorChain_runs core (.chain c) s hempty hready).trans
    (congrArg (fun u : State => Host.Outcome.next (u.setVeWaiting core [])) hrun), hvalue _ hdone.ve, fun hmasked => ⟨?_, ?_⟩,
    fun k hk => ?_, ?_, ?_, hdone.evolves.keep, hdone.evolves.sameBytes⟩
  · rw [hvalue _ hdone.ve, State.reducedWord, State.reduced_masked hmasked]
    rfl
  · have hgen : storeWf 0 ((chainBody s core c).s.setGen core (some (chainBody s core c).v.gen)).regs = true :=
      (State.setGen_evolves _ core (some (chainBody s core c).v.gen)).regs (hwritten.regs hregsWf)
    rw [State.reduced_masked hmasked] at hflags
    refine ((State.setVeWaiting_evolves _ core []).writes.bit List.not_mem_nil 5).trans
      (State.countChain_flags hgen core c (chainBody s core c).v (i := 5) ?_ (by decide))
    have hempty5 : Nat.testBit 32 5 = true := by decide
    rw [hflags, show 256 = 2 ^ 8 from rfl, Nat.testBit_mod_two_pow, Nat.testBit_or]
    simp [hempty5]
  · obtain ⟨waiting, ht⟩ := hdone.ve
    rw [ht]
    exact storeGet_storeSet_ne 0 _ _ _ _ hk
  · obtain ⟨waiting, ht⟩ := hdone.ve
    rw [ht]
  · obtain ⟨waiting, ht⟩ := hdone.ve
    rw [ht]

/-- Settles O23: one rule per issue; a chain's elements follow its stage, a reduction its tree. -/
theorem vectorChainsRun : Obligations.VectorChainsRun := by
  unfold Obligations.VectorChainsRun
  refine ⟨fun core s h hempty => ⟨rfl, fun i d v hi => exec_maskOp s h core hempty i d v hi,
    fun a o => exec_maskStore s core hempty a o, fun c e he => exec_combine s core hempty c e he⟩,
    fun core i s => exec_vectorChain_waits core i s, ?_, ?_⟩
  · intro core c st n s h hempty hready hfmt hst hred hfinal hstore hdst hcount hcollide ho
    exact exec_stageChain core c st n s h hempty hready hfmt hst hred hfinal hstore hdst hcount hcollide ho
  · intro core c r n s hinv h hempty hready hfmt hred halong harg hfinal hdst hcount hwhole hcollide
    exact exec_reduction core c r n s hinv h hempty hready hfmt hred halong harg hfinal hdst hcount hwhole hcollide

end Sys2Proof.Machine

/-! O20: the conversion of a segment whose class has more rungs than a command converts (R127, R128). -/

namespace Sys2Proof.Machine

set_option Elab.async false

/-! ### A state in which every rung crosses its limit and every resole is granted -/

/-- One tensor of one element, of a class with seven rungs, whose layer takes a saturated element in a block as a crossing. -/
def longLadderSections : Sections :=
  { portlessSections with
    tensors := [⟨0, 1, 1, false, none, none, 0, 1, 32, false, 0⟩]
    classes := [⟨List.replicate 7 .bf16, false, [], false, 0, 1⟩]
    thresh := [⟨0, 0, 0xFFFF, 0xFFFF, 1, 0, 0xFFFF, 0xFFFF⟩] }

/-- The conversion of its segment; resoles cost nothing. -/
def longLadderOp : ConvOp := ⟨0, 0, 0, 0, 0, 0, [], [], none, false, 0, 0, none, []⟩

/-- The staged record of the segment: its tile has been drained. -/
def longLadderStaged : Staged := ⟨0, [], 0, 1, none⟩

/-- The segment is staged, and a feeder has charged a saturated element to its block. -/
def longLadder : State :=
  { State.reset with
    image := { st := .loaded, file := some ⟨[], longLadderSections⟩ }
    seg := { staged := [(segKey 0 0, longLadderStaged)], charges := [(chargeKey 0 0 0 0, 1)] } }

/-- What its conversion rests on. -/
def longLadderCtx : SegCtx :=
  ⟨longLadderOp, ⟨0, 1, 1, false, none, none, 0, 1, 32, false, 0⟩, ⟨List.replicate 7 .bf16, false, [], false, 0, 1⟩,
    ⟨0, 0, 0xFFFF, 0xFFFF, 1, 0, 0xFFFF, 0xFFFF⟩, longLadderStaged⟩

theorem longLadder_inv : longLadder.inv := ⟨by decide, resetRegs_wf⟩

theorem longLadder_ctx : longLadder.segCtx longLadderOp = some longLadderCtx := by decide

theorem longLadder_complete : longLadder.segComplete longLadderOp = true := by decide

theorem longLadder_mayGo : longLadder.mayGo longLadderOp = true := by decide

theorem longLadder_firstJob : longLadder.firstJob longLadderOp 0 0 = ⟨0, 0, longLadderOp, 0, 0⟩ := by decide

theorem longLadder_blocks : longLadderCtx.blocks = 1 := by decide

theorem longLadder_elems : 0 < elemCount longLadderCtx.ext := by decide

/-! ### What a granted resole leaves of it -/

/-- What the conversion of the segment rests on is as in that state. -/
structure LongLadder (s : State) : Prop where
  image : s.image = longLadder.image
  staged : s.seg.staged = longLadder.seg.staged
  charges : s.seg.charges = longLadder.seg.charges
  step : s.tick.step = none

theorem longLadder_self : LongLadder longLadder := ⟨rfl, rfl, rfl, rfl⟩

theorem State.segCtx_congr {s t : State} (himage : t.image = s.image) (hstaged : t.seg.staged = s.seg.staged) (op : ConvOp) :
    t.segCtx op = s.segCtx op := by
  unfold State.segCtx State.classFor State.tensor? State.staged
  rw [State.sections?_congr himage, hstaged]

theorem State.segComplete_congr {s t : State} (himage : t.image = s.image) (hstaged : t.seg.staged = s.seg.staged) (op : ConvOp) :
    t.segComplete op = s.segComplete op := by
  unfold State.segComplete State.entryOf State.tensor? State.staged
  rw [State.sections?_congr himage, hstaged]

theorem LongLadder.ctx {s : State} (h : LongLadder s) :
    (if s.segComplete longLadderOp then s.segCtx longLadderOp else none) = some longLadderCtx := by
  rw [State.segComplete_congr h.image h.staged, State.segCtx_congr h.image h.staged, longLadder_complete, longLadder_ctx]
  rfl

/-- The feeder's charge alone crosses the limit, whatever the conversion counts. -/
theorem LongLadder.crosses {s : State} (h : LongLadder s) (c : Converted) :
    segCross longLadderCtx.lim (elemCount longLadderCtx.ext) (s.blockCounts longLadderCtx c) = true := by
  have hcharge : storeGet 0 s.seg.charges (chargeKey 0 0 0 0) = 1 := by
    rw [h.charges]
    decide
  have hcount : 1 ≤ s.blockCount 0 0 c.sats 0 0 := by
    unfold State.blockCount
    rw [hcharge]
    omega
  have hcounts : s.blockCounts longLadderCtx c = [(s.blockCount 0 0 c.sats 0 0, s.blockCount 0 0 c.zeros 0 1)] := by
    unfold State.blockCounts
    rw [longLadder_blocks]
    rfl
  unfold segCross
  rw [hcounts]
  have hany : (decide (longLadderCtx.lim.blockSat ≠ 0) && [(s.blockCount 0 0 c.sats 0 0, s.blockCount 0 0 c.zeros 0 1)].any
      fun x => decide (longLadderCtx.lim.blockSat ≤ x.1)) = true := by
    simp only [List.any_cons, List.any_nil, Bool.or_false, Bool.and_eq_true, decide_eq_true_eq]
    exact ⟨by decide, hcount⟩
  rw [hany, Bool.or_true, Bool.true_or]

theorem State.setGen_seg (s : State) (core : Nat) (g : Option DWord) : ∃ gens, (s.setGen core g).seg = { s.seg with gens := gens } := by
  cases g with
  | none => exact ⟨s.seg.gens, rfl⟩
  | some x => exact ⟨_, rfl⟩

theorem LongLadder.counted {s : State} (h : LongLadder s) (x : SegCtx) (c : Converted) :
    LongLadder ((s.countConv x c).setGen x.st.core c.gen) := by
  have hcount := s.countConv_evolves x c
  have hgen := State.setGen_evolves (s.countConv x c) x.st.core c.gen
  obtain ⟨gens, hseg⟩ := (s.countConv x c).setGen_seg x.st.core c.gen
  rw [show (s.countConv x c).seg = s.seg from hcount.keep .seg (by decide)] at hseg
  have himage : ((s.countConv x c).setGen x.st.core c.gen).image = s.image :=
    (hgen.keep .image (by decide)).trans (hcount.keep .image (by decide))
  have htick : ((s.countConv x c).setGen x.st.core c.gen).tick = s.tick :=
    (hgen.keep .tick (by decide)).trans (hcount.keep .tick (by decide))
  exact ⟨himage.trans h.image, by rw [hseg]; exact h.staged, by rw [hseg]; exact h.charges, by rw [htick]; exact h.step⟩

theorem State.grant_step (s : State) (q : Request) : (s.grant q).tick.step = s.tick.step := by
  have hdebit : (s.debit q.cost).tick.step = s.tick.step := rfl
  have hrest : ∀ u : State, ((u.bel64 (clusterCnt (q.core / 8) (1 + q.kind)) 1).trace (dieOf q.core 64) 0x06 q.core
      (q.payload q.kind)).tick = u.tick := fun u =>
    ((State.trace_evolves _ _ _ _ _).keep .tick (by decide)).trans ((u.bel64_evolves _ _).keep .tick (by decide))
  have hcount : ∀ (u : State) (o a : Nat), ((u.count o 64 1).live a 1).tick = u.tick := fun u o a =>
    ((State.live_evolves _ _ _).keep .tick (by decide)).trans ((u.count_evolves _ _ _).keep .tick (by decide))
  unfold State.grant
  dsimp only
  rw [hrest]
  split
  · rw [hcount]
    exact hdebit
  · rw [hcount]
    exact hdebit

theorem LongLadder.granted {s : State} (h : LongLadder s) (q : Request) : LongLadder (s.grant q) := by
  have hgrant := s.grant_evolves q
  have hseg : (s.grant q).seg = s.seg := hgrant.keep .seg (by decide)
  have himage : (s.grant q).image = s.image := hgrant.keep .image (by decide)
  exact ⟨himage.trans h.image, by rw [hseg]; exact h.staged, by rw [hseg]; exact h.charges, (s.grant_step q).trans h.step⟩

/-- A resole without cost is granted where none has been denied. -/
theorem State.request_free {s : State} (h : s.tick.step = none) (q : Request) (hq : q.cost = 0) : s.request q 0 0 = (s.grant q, true) := by
  have hdenied : s.deniedStep = false := by
    unfold State.deniedStep
    rw [h]
    rfl
  have hgrants : s.grants 0 0 q.cost = true := by
    unfold State.grants
    rw [hq]
    exact decide_eq_true ⟨Nat.zero_le _, Nat.zero_le _⟩
  unfold State.request
  rw [hdenied, hgrants]
  rfl

/-- Below the last rung, a conversion of the segment only asks for the next rung. -/
theorem LongLadder.convJob {s : State} (h : LongLadder s) {rung : Nat} (hr : rung < 6) :
    ∃ t, s.convJob ⟨0, 0, longLadderOp, 0, rung⟩ = (t, [⟨0, 0, longLadderOp, 0, rung + 1⟩]) ∧ LongLadder t := by
  have hcounted := h.counted longLadderCtx (s.convertAt longLadderCtx rung)
  have hladder : ¬ longLadderCtx.fc.ladder.length ≤ rung + 1 := by
    show ¬ 7 ≤ rung + 1
    omega
  unfold State.convJob
  rw [h.ctx]
  dsimp only
  rw [if_pos (hcounted.crosses _), if_neg hladder]
  have hcost : longLadderOp.costs.getD rung 0 = 0 := rfl
  have hrequest := State.request_free hcounted.step ⟨longLadderOp.tensor, longLadderOp.segment, longLadderOp.layer,
    longLadderCtx.st.core, rung + 1, 0, longLadderOp.costs.getD rung 0⟩ hcost
  generalize (s.countConv longLadderCtx (s.convertAt longLadderCtx rung)).setGen longLadderCtx.st.core
    (s.convertAt longLadderCtx rung).gen = u at *
  rw [hrequest]
  exact ⟨_, rfl, hcounted.granted _⟩

/-- A command's six conversions take the segment from rung to rung; it is never released. -/
theorem LongLadder.runJobs (n : Nat) {s : State} (h : LongLadder s) {rung : Nat} (hr : rung + n ≤ 6) :
    LongLadder (s.runJobs n [⟨0, 0, longLadderOp, 0, rung⟩]) := by
  induction n generalizing s rung with
  | zero => exact h
  | succ n ih =>
    obtain ⟨t, hjob, ht⟩ := h.convJob (rung := rung) (by omega)
    have hnext : s.runJobs (n + 1) [⟨0, 0, longLadderOp, 0, rung⟩] = t.runJobs n [⟨0, 0, longLadderOp, 0, rung + 1⟩] := by
      show (let (s1, more) := s.convJob ⟨0, 0, longLadderOp, 0, rung⟩; s1.runJobs n (more ++ [])) = _
      rw [hjob]
      rfl
    rw [hnext]
    exact ih ht (by omega)

theorem exec_longLadder :
    exec (.segmentConversionDone [longLadderOp]) longLadder = .next (longLadder.runJobs 6 [⟨0, 0, longLadderOp, 0, 0⟩]) := by
  show execSegmentConversionDone [longLadderOp] longLadder = _
  unfold execSegmentConversionDone
  have hready : [longLadderOp].filter longLadder.segComplete = [longLadderOp] := List.filter_cons_of_pos longLadder_complete
  have hgo : [longLadderOp].filter longLadder.mayGo = [longLadderOp] := List.filter_cons_of_pos longLadder_mayGo
  have hheld : [longLadderOp].filter (fun o => !longLadder.mayGo o) = [] :=
    List.filter_cons_of_neg (by rw [longLadder_mayGo]; decide)
  dsimp only
  rw [hready, hgo, hheld]
  exact congrArg (fun j => Host.Outcome.next (longLadder.runJobs 6 [j])) longLadder_firstJob

/-- Refutes O20: a command converts a segment at six rungs at most, so one whose class has seven rungs, that crosses its limit at each
of them and is granted each resole, is still staged after it. -/
theorem not_drainsConvertAndRelease : ¬ Obligations.DrainsConvertAndRelease := by
  unfold Obligations.DrainsConvertAndRelease
  rintro ⟨-, -, h⟩
  obtain ⟨t, hexec, hstaged, -⟩ := h longLadderOp longLadder longLadderCtx longLadder_inv (by decide) (by decide) (by decide)
    longLadder_ctx longLadder_complete longLadder_mayGo rfl rfl longLadder_elems
  have ht : longLadder.runJobs 6 [⟨0, 0, longLadderOp, 0, 0⟩] = t := Host.Outcome.next.inj (exec_longLadder.symm.trans hexec)
  have hkept := (longLadder_self.runJobs 6 (rung := 0) (Nat.le_refl 6)).staged
  rw [ht] at hkept
  unfold State.staged at hstaged
  rw [hkept] at hstaged
  exact absurd hstaged (by decide)

end Sys2Proof.Machine

/-! O60: loads, drains, conversions and reductions complete (R43 to R46, R102, R111, R127 to R131, R160, R258 to R271). -/

namespace Sys2Proof.Machine

set_option Elab.async false

/-! ### A tile leaves its source -/

theorem State.sourceWord_congr {s t : State} (h : t.me = s.me) (src : DrainSource) (i : Nat) :
    t.sourceWord src i = s.sourceWord src i := by
  unfold State.sourceWord
  rw [h]

/-- The source of a drained tile reads +0 (R160). -/
theorem State.clearSource_word {s : State} (h : s.enginesOk) (src : DrainSource) {i : Nat} (hi : i < 8192) :
    (s.clearSource src).sourceWord src i = 0 := by
  obtain ⟨htile, -, hleaving, hthin, -⟩ := h
  cases src with
  | held e half =>
    refine (clearRange_word s.me.tileSeed htile (tileKey e half 0 0) 8192 (tileKey e half 0 0 + i)).trans (if_pos ?_)
    omega
  | gathered e =>
    have hclear := clearRange_word 0 hleaving (accKey e 0 0) 8192 (accKey e 0 0 + i)
    rw [tileWord_zero, if_pos (by omega)] at hclear
    exact hclear
  | matrixVector c t =>
    have hclear := clearRange_word 0 hthin (thinKey c t 0) 8192 (thinKey c t i)
    have hkey : thinKey c t i = thinKey c t 0 + i := by
      unfold thinKey
      omega
    rw [tileWord_zero, if_pos (by omega)] at hclear
    exact hclear

/-- A drained tile is delivered once its source is cleared and what is not finite is recorded. -/
theorem exec_tileDrain (op : DrainOp) (s : State) (h : s.enginesOk) : ∃ v,
    exec (.tileDrain op) s = .next (v.deliverTile op (s.drained op) (s.drainedNf op)) ∧
      (∀ i, i < 8192 → v.sourceWord op.source i = 0) ∧ Evolves [.regs, .free, .out, .heldOut, .me, .host, .bel] s v := by
  refine ⟨_, rfl, ?_⟩
  have hclear := s.clearSource_evolves op.source
  have hword := fun i hi => State.clearSource_word h op.source (i := i) hi
  generalize s.clearSource op.source = u at *
  split
  next i _ =>
    have hnf := State.nfTile_evolves u op.tensor op.tile (drainUnit op.source).1 (drainUnit op.source).2 i ((s.drained op).getD i 0)
    refine ⟨fun j hj => ?_, (hclear.widen (Q := [.regs, .free, .out, .heldOut, .me, .host, .bel]) rfl).step hnf rfl⟩
    rw [State.sourceWord_congr (hnf.keep .me (by decide))]
    exact hword j hj
  next => exact ⟨hword, hclear.widen rfl⟩

/-! ### Where the tile goes -/

/-- A tile in staging counts towards its segment (R113). -/
theorem State.stageTile_counts (s : State) (p : StagePlace) (core : Nat) (ws : List Word) (nf : Option Nat) :
    let seg := p.tile / (s.entryOf p.tensor).segTiles
    let t := s.stageTile p core ws nf
    (t.staged p.tensor seg).tiles = (s.staged p.tensor seg).tiles + 1 ∧ (t.staged p.tensor seg).staging = p.staging ∧
      (t.staged p.tensor seg).runAhead = p.runAhead := by
  intro seg t
  obtain ⟨u, x, ht, hu, htiles, hstaging, hrun⟩ : ∃ (u : State) (x : Staged), t = u.setStaged p.tensor seg x ∧ u.seg = s.seg ∧
      x.tiles = (u.staged p.tensor seg).tiles + 1 ∧ x.staging = p.staging ∧ x.runAhead = p.runAhead := by
    refine ⟨_, _, rfl, ?_, rfl, rfl, rfl⟩
    exact (State.devWrite_evolves _ _ _ _).keep .seg (by decide) |>.trans ((State.devWrite_evolves _ _ _ _).keep .seg (by decide))
  have hne : x ≠ emptyStaged := by
    intro h
    rw [h] at htiles
    exact absurd htiles (by simp [emptyStaged])
  have hget : t.staged p.tensor seg = x := by
    rw [ht]
    exact storeGet_storeSet_new _ _ _ _ hne
  have hold : u.staged p.tensor seg = s.staged p.tensor seg := by
    unfold State.staged
    rw [hu]
  rw [hget, htiles, hold]
  exact ⟨rfl, hstaging, hrun⟩

/-- A tile in a scratchpad advances its ready count (R172). -/
theorem State.readyUp_counts {s : State} (h : ∀ c, s.veWaiting c = []) (core i : Nat) :
    storeGet 0 (s.readyUp core i 1).ve.ready (core * 64 + i) = storeGet 0 s.ve.ready (core * 64 + i) + 1 := by
  have hwaiting : ∀ k v, ({ s with ve := { s.ve with ready := storeSet 0 s.ve.ready k v } } : State).veWaiting core = [] :=
    fun _ _ => h core
  unfold State.readyUp
  dsimp only
  rw [hwaiting]
  exact storeGet_storeSet_new 0 _ _ _ (Nat.succ_ne_zero _)

theorem State.landBlock_keeps (s : State) (plot k : Nat) (b : WireBlock) {m : Nat} (h : m ∈ (s.plot plot).landed) :
    m ∈ ((s.landBlock plot k b).plot plot).landed := by
  unfold State.landBlock
  dsimp only
  have hstl := (s.devWrite_evolves .scheduled (plotBase (s.plot plot) + 66 * k) (blockBytes b)).keep .stl (by decide)
  generalize s.devWrite .scheduled (plotBase (s.plot plot) + 66 * k) (blockBytes b) = u at *
  rw [← State.plot_congr hstl plot] at h
  have hin : m ∈ (if (u.plot plot).landed.contains k then (u.plot plot).landed else (u.plot plot).landed ++ [k]) := by
    split
    next => exact h
    next => exact List.mem_append_left _ h
  generalize (if (u.plot plot).landed.contains k then (u.plot plot).landed else (u.plot plot).landed ++ [k]) = l at *
  have hplot : (u.setPlot plot { u.plot plot with landed := l }).plot plot = { u.plot plot with landed := l } := by
    refine storeGet_storeSet_new _ _ _ _ fun heq => ?_
    have hnone : l = [] := congrArg Plot.landed heq
    rw [hnone] at hin
    exact (nomatch hin)
  rw [hplot]
  exact hin

/-- The blocks of a tile land one after another (R255). -/
theorem State.encodeTile_lands (plot cluster : Nat) (zero : Bool) (blocks : List (List Word)) (s : State) (k : Nat) :
    (∀ m, m ∈ (s.plot plot).landed → m ∈ ((s.encodeTile plot cluster zero k blocks).plot plot).landed) ∧
      ∀ j, j < blocks.length → k + j ∈ ((s.encodeTile plot cluster zero k blocks).plot plot).landed := by
  induction blocks generalizing s k with
  | nil => exact ⟨fun m h => h, fun j hj => absurd hj (Nat.not_lt_zero j)⟩
  | cons ws rest ih =>
    obtain ⟨b, u, hu, hnext⟩ : ∃ (b : WireBlock) (u : State), u.stl = (s.landBlock plot k b).stl ∧
        s.encodeTile plot cluster zero k (ws :: rest) = u.encodeTile plot cluster zero (k + 1) rest := by
      refine ⟨(wireBlock s.digestMode zero ws).1, _, ?_, rfl⟩
      exact (Evolves.ite _ (State.cloSat_evolves _) (Evolves.refl _)).keep .stl (by decide)
        |>.trans ((State.bel64_evolves _ _ _).keep .stl (by decide))
    obtain ⟨hkept, hlanded⟩ := ih u (k + 1)
    rw [hnext]
    have hin : ∀ m, m ∈ ((s.landBlock plot k b).plot plot).landed → m ∈ (u.plot plot).landed := fun m h => by
      rwa [State.plot_congr hu plot]
    refine ⟨fun m h => hkept m (hin m (s.landBlock_keeps plot k b h)), fun j hj => ?_⟩
    cases j with
    | zero => exact hkept k (hin k (s.landBlock_lands plot k b).1)
    | succ j =>
      have := hlanded j (by simpa using hj)
      rwa [show k + 1 + j = k + (j + 1) by omega] at this

theorem chunksOf_length (n : Nat) (hn : 0 < n) (fuel : Nat) (ws : List Word) (k : Nat) (hlen : ws.length = n * k) (hfuel : k < fuel) :
    (chunksOf n fuel ws).length = k := by
  induction fuel generalizing ws k with
  | zero => exact absurd hfuel (Nat.not_lt_zero k)
  | succ fuel ih =>
    cases ws with
    | nil =>
      have : k = 0 := by
        rcases Nat.eq_zero_or_pos k with h | h
        · exact h
        · exact absurd hlen (by have := Nat.mul_pos hn h; simp; omega)
      rw [this]
      rfl
    | cons w rest =>
      cases k with
      | zero => exact absurd hlen (by simp)
      | succ k =>
        have hdrop : ((w :: rest).drop n).length = n * k := by
          rw [List.length_drop, hlen, Nat.mul_succ, Nat.add_sub_cancel]
        show (chunksOf n fuel ((w :: rest).drop n)).length + 1 = k + 1
        rw [ih _ k hdrop (by omega)]

theorem State.drained_length (s : State) (op : DrainOp) : (s.drained op).length = 8192 := by
  unfold State.drained tileValues
  rw [List.length_map, List.length_range]

theorem State.spoil_plots (s : State) (c : Nat) : (s.spoil c).stl.plots = s.stl.plots := by
  unfold State.spoil
  split
  next => rfl
  next r _ =>
    dsimp only
    split
    · split <;> rfl
    · split
      · rfl
      · exact congrArg StilePlots.plots ((State.traceBoth_evolves _ _ _).keep .stl (by decide))

/-- Where a drained tile is found (R160). -/
def State.tileThere (s t : State) (op : DrainOp) : Prop :=
  match op.dest with
  | .stage staging runAhead =>
    let seg := op.tile / (s.entryOf op.tensor).segTiles
    (t.staged op.tensor seg).tiles = (s.staged op.tensor seg).tiles + 1 ∧ (t.staged op.tensor seg).staging = staging ∧
      (t.staged op.tensor seg).runAhead = runAhead
  | .scratchpad c _ ready =>
    storeGet 0 t.ve.ready (c.val * 64 + ready.val) = storeGet 0 s.ve.ready (c.val * 64 + ready.val) + 1
  | .encoder plot first => ∀ j, j < 256 → first + j ∈ (t.plot plot).landed

section

variable {s v : State}

/-- A tile towards a scratchpad, with no chain waiting. -/
theorem State.spadTile_ready (hvve : v.ve = s.ve) (hve : ∀ c, s.veWaiting c = []) (op : DrainOp) (c offset ready : Nat)
    (ws : List Word) : storeGet 0 (((v.portShare c op.lost op.promoted).spadTile c offset ws).readyUp c ready 1).ve.ready
      (c * 64 + ready) = storeGet 0 s.ve.ready (c * 64 + ready) + 1 := by
  have hspad := (((v.portShare_evolves c op.lost op.promoted).widen (Q := .mem :: .hbm :: .bel :: Part.signalled) rfl).step
    (State.spadTile_evolves _ c offset ws) rfl).keep .ve (by decide)
  generalize (v.portShare c op.lost op.promoted).spadTile c offset ws = w at *
  have hwaiting : ∀ c, w.veWaiting c = [] := fun c => by
    unfold State.veWaiting
    rw [hspad, hvve]
    exact hve c
  rw [State.readyUp_counts hwaiting, hspad, hvve]

/-- A tile towards a plot, with no update work waiting: its 256 blocks are there. -/
theorem State.encodeTile_there (hvupd : v.upd.waiting = []) (plot cluster first : Nat) (zero : Bool) {ws : List Word}
    (hws : ws.length = 8192) (spoils : Bool) (j : Nat) (hj : j < 256) :
    let u := (v.encodeTile plot cluster zero first (chunksOf 32 257 ws)).workWaiting
    first + j ∈ ((if spoils then u.spoil 4 else u).plot plot).landed := by
  intro u
  have hlen : (chunksOf 32 257 ws).length = 256 := chunksOf_length 32 (by decide) 257 ws 256 hws (by decide)
  have hlands := (State.encodeTile_lands plot cluster zero (chunksOf 32 257 ws) v first).2 j (by rw [hlen]; exact hj)
  have hwupd := (v.encodeTile_evolves plot cluster zero first (chunksOf 32 257 ws)).keep .upd (by decide)
  have hu : u = (v.encodeTile plot cluster zero first (chunksOf 32 257 ws)).workWaiting := rfl
  generalize v.encodeTile plot cluster zero first (chunksOf 32 257 ws) = w at *
  have hnone : w.upd.waiting = [] := (congrArg UpdSt.waiting hwupd).trans hvupd
  have hwork := State.plot_congr ((State.workWaiting_none hnone).evolves.keep .stl (by decide)) plot
  rw [← hu] at hwork
  have hplot : (if spoils then u.spoil 4 else u).plot plot = u.plot plot := by
    unfold State.plot
    split
    · rw [State.spoil_plots]
    · rfl
  rw [hplot, hwork]
  exact hlands

theorem State.deliverTile_stage {op : DrainOp} {staging : Nat} {runAhead : List Nat} (h : op.dest = .stage staging runAhead)
    (ws : List Word) (nf : Option Nat) : v.deliverTile op ws nf =
      v.stageTile ⟨op.tensor, op.tile, staging, runAhead⟩ (drainUnit op.source).1 ws nf := by
  unfold State.deliverTile
  rw [h]

theorem State.deliverTile_scratchpad {op : DrainOp} {c : Fin 128} {offset : Nat} {ready : Fin 64}
    (h : op.dest = .scratchpad c offset ready) (ws : List Word) (nf : Option Nat) : v.deliverTile op ws nf =
      ((v.portShare c op.lost op.promoted).spadTile c offset ws).readyUp c ready 1 := by
  unfold State.deliverTile
  rw [h]

theorem State.deliverTile_encoder {op : DrainOp} {plot first : Nat} (h : op.dest = .encoder plot first)
    (ws : List Word) (nf : Option Nat) : v.deliverTile op ws nf =
      (if nf.isSome then ((v.encodeTile plot ((drainUnit op.source).1 / 8) nf.isSome first (chunksOf 32 257 ws)).workWaiting).spoil 4
      else (v.encodeTile plot ((drainUnit op.source).1 / 8) nf.isSome first (chunksOf 32 257 ws)).workWaiting) := by
  unfold State.deliverTile
  rw [h]

theorem State.deliverTile_there (op : DrainOp) (hv : Evolves [.regs, .free, .out, .heldOut, .me, .host, .bel] s v)
    (hupd : s.upd.waiting = []) (hve : ∀ c, s.veWaiting c = []) {ws : List Word} (hws : ws.length = 8192) (nf : Option Nat) :
    s.tileThere (v.deliverTile op ws nf) op := by
  have hseg : v.seg = s.seg := hv.keep .seg (by decide)
  have himage : v.image = s.image := hv.keep .image (by decide)
  have hvupd : v.upd = s.upd := hv.keep .upd (by decide)
  unfold State.tileThere
  cases hdest : op.dest with
  | stage staging runAhead =>
    have hentry : v.entryOf op.tensor = s.entryOf op.tensor := by
      unfold State.entryOf State.tensor?
      rw [State.sections?_congr himage]
    have hstaged : ∀ seg, v.staged op.tensor seg = s.staged op.tensor seg := fun seg => by
      unfold State.staged
      rw [hseg]
    have hcounts := v.stageTile_counts ⟨op.tensor, op.tile, staging, runAhead⟩ (drainUnit op.source).1 ws nf
    dsimp only at hcounts ⊢
    rw [hentry, hstaged] at hcounts
    rw [State.deliverTile_stage hdest]
    exact hcounts
  | scratchpad c offset ready =>
    dsimp only
    rw [State.deliverTile_scratchpad hdest]
    exact State.spadTile_ready (hv.keep .ve (by decide)) hve op c.val offset ready.val ws
  | encoder plot first =>
    dsimp only
    rw [State.deliverTile_encoder hdest]
    exact fun j hj => State.encodeTile_there (by rw [hvupd]; exact hupd) plot ((drainUnit op.source).1 / 8) first nf.isSome hws
      nf.isSome j hj

end

theorem tileDrain_completes (op : DrainOp) (s : State) (h : s.enginesOk) (hupd : s.upd.waiting = [])
    (hve : ∀ c, s.veWaiting c = []) : ∃ t, exec (.tileDrain op) s = .next t ∧ (∀ i, i < 8192 → t.sourceWord op.source i = 0) ∧
      s.tileThere t op := by
  obtain ⟨v, hexec, hwords, hv⟩ := exec_tileDrain op s h
  have hdeliver := v.deliverTile_evolves op (s.drained op) (s.drainedNf op)
  refine ⟨_, hexec, fun i hi => ?_, State.deliverTile_there op hv hupd hve (s.drained_length op) _⟩
  rw [State.sourceWord_congr (hdeliver.keep .me (by decide))]
  exact hwords i hi

/-! ### A segment within its limits -/

theorem tileExtent_pos {te : TensorEntry} {i : Nat} (h : i < tileCount te) : 0 < (tileExtent te i).1 * (tileExtent te i).2 := by
  have hacross : 0 < tilesAcross te := by
    refine Nat.pos_of_ne_zero fun h0 => ?_
    unfold tileCount at h
    rw [h0] at h
    exact absurd h (Nat.not_lt_zero i)
  have hrow : i / tilesAcross te < (te.rows + 127) / 128 := Nat.div_lt_of_lt_mul (by rwa [Nat.mul_comm])
  have hcol : i % tilesAcross te < tilesAcross te := Nat.mod_lt i hacross
  have hcols : tilesAcross te = (te.cols + 63) / 64 := rfl
  unfold tileExtent
  refine Nat.mul_pos ?_ ?_
  · dsimp only
    omega
  · dsimp only
    omega

/-- A segment that is complete has an element. -/
theorem elemCount_pos {te : TensorEntry} {seg : Nat} (h : 0 < segTileCount te seg) : 0 < elemCount (segExtents te seg) := by
  have hfirst : tileExtent te (seg * te.segTiles + 0) ∈ segExtents te seg :=
    List.mem_map.mpr ⟨0, List.mem_range.mpr h, rfl⟩
  have hlt : seg * te.segTiles + 0 < tileCount te := by
    unfold segTileCount at h
    omega
  exact Nat.lt_of_lt_of_le (tileExtent_pos hlt) (List.single_le_sum (fun _ _ => Nat.zero_le _) _ (List.mem_map.mpr ⟨_, hfirst, rfl⟩))

/-- A layer's totals after a segment is released into it (R125). -/
def State.layerAfter (s : State) (x : SegCtx) (c : Converted) : LayerTot :=
  { s.layer x.op.layerInst with
    sat := (s.layer x.op.layerInst).sat + (sumCounts (s.blockCounts x c)).1
    zero := (s.layer x.op.layerInst).zero + (sumCounts (s.blockCounts x c)).2
    count := (s.layer x.op.layerInst).count + elemCount x.ext }

/-- What a release leaves of the segments' state (R125, R128). -/
theorem State.releaseSeg_seg (s : State) (x : SegCtx) (c : Converted) (rung : Nat) : ∃ charges,
    (s.releaseSeg x c rung).seg = { s.seg with
      staged := storeSet emptyStaged s.seg.staged (segKey x.op.tensor x.op.segment) emptyStaged
      rungs := storeSet 0 s.seg.rungs (segKey x.op.tensor x.op.segment) rung
      layers := storeSet {} s.seg.layers x.op.layerInst (s.layerAfter x c)
      charges := charges } := by
  unfold State.releaseSeg
  dsimp only
  have hflag := (State.flagMade_evolves s x (s.stagedValues x) c x.ext.length).widen (Q := .free :: Part.devWrite) rfl
  have hcounters := hflag.step (State.writeCounters_evolves _ x.survey 0 (s.blockCounts x c)) rfl
  have hwritten := fun d => hcounters.step (State.writeSegment_evolves _ d c (releaseNf x.st c) false) rfl
  have hseg := fun d => (hwritten d).keep .seg (by decide)
  generalize (s.segDest x.op.tensor x.op.segment true ((x.op.places[rung]?).getD (x.op.places.getLast?.getD (.near ⟨0, 0, 0⟩)))) = d
  replace hseg := hseg d
  generalize ((s.flagMade x (s.stagedValues x) c x.ext.length).writeCounters x.survey 0 (s.blockCounts x c)).writeSegment d c
    (releaseNf x.st c) false = u at *
  have hbranch : ∀ v : State, (v.setBranch x.op.plot rung).seg = v.seg := fun v => by
    unfold State.setBranch
    split <;> rfl
  have hkept : u.seg = s.seg := hseg
  rw [hbranch]
  refine ⟨storeDrop u.seg.charges fun j => decide (j / 131072 = segKey x.op.tensor x.op.segment), ?_⟩
  rw [← hkept]
  rfl

theorem State.segCtx_op {s : State} {op : ConvOp} {x : SegCtx} (h : s.segCtx op = some x) : x.op = op ∧
    s.entryOf op.tensor = x.te := by
  unfold State.segCtx at h
  split at h
  next y te fc _ hte _ =>
    obtain rfl := Option.some.inj h
    refine ⟨rfl, ?_⟩
    unfold State.entryOf
    rw [hte]
    rfl
  next => exact (nomatch h)

/-- The elements of a complete segment. -/
theorem State.elems_of_complete {s : State} {op : ConvOp} {x : SegCtx} (h : s.segCtx op = some x)
    (hcomplete : s.segComplete op = true) : 0 < elemCount x.ext := by
  obtain ⟨hop, hte⟩ := State.segCtx_op h
  have hlt := (of_decide_eq_true hcomplete).1
  rw [hte] at hlt
  unfold SegCtx.ext
  rw [hop]
  exact elemCount_pos hlt

theorem State.blockCounts_congr {s t : State} (h : t.seg.charges = s.seg.charges) (x : SegCtx) (c : Converted) :
    t.blockCounts x c = s.blockCounts x c := by
  unfold State.blockCounts State.blockCount
  rw [h]

/-- A conversion within its limits, with no layer ending there, releases its segment and asks for nothing more. -/
theorem State.convJob_clean {s : State} {j : ConvJob} {x : SegCtx} (hctx : s.segCtx j.op = some x)
    (hcomplete : s.segComplete j.op = true) (hend : j.op.instEnd = false) (hwaiting : s.seg.waiting = [])
    (hcross : segCross x.lim (elemCount x.ext) (s.blockCounts x (s.convertAt x j.rung)) = false) :
    ∃ u t : State, s.convJob j = (t, []) ∧ u.seg.charges = s.seg.charges ∧ u.seg.staged = s.seg.staged ∧ u.seg.rungs = s.seg.rungs ∧
      u.seg.layers = s.seg.layers ∧ t.seg = { (u.releaseSeg x (s.convertAt x j.rung) j.rung).seg with waiting := [] } := by
  have hcount := s.countConv_evolves x (s.convertAt x j.rung)
  obtain ⟨gens, hseg⟩ := (s.countConv x (s.convertAt x j.rung)).setGen_seg x.st.core (s.convertAt x j.rung).gen
  rw [show (s.countConv x (s.convertAt x j.rung)).seg = s.seg from hcount.keep .seg (by decide)] at hseg
  unfold State.convJob
  rw [if_pos hcomplete, hctx]
  dsimp only
  generalize s.convertAt x j.rung = c at *
  generalize (s.countConv x c).setGen x.st.core c.gen = u at *
  have hcharges : u.seg.charges = s.seg.charges := by rw [hseg]
  rw [State.blockCounts_congr hcharges, hcross, hend, if_neg (by decide), if_neg (by decide)]
  obtain ⟨charges, hrelease⟩ := u.releaseSeg_seg x c j.rung
  have hnone : (u.releaseSeg x c j.rung).seg.waiting = [] := by
    rw [hrelease]
    show u.seg.waiting = []
    rw [hseg]
    exact hwaiting
  unfold State.freed
  rw [hnone]
  exact ⟨u, _, rfl, hcharges, by rw [hseg], by rw [hseg], by rw [hseg], rfl⟩

/-- A command for one complete segment of which no limit holds anything back runs its first conversion. -/
theorem exec_conversion_one {s t : State} {op : ConvOp} (hcomplete : s.segComplete op = true) (hgo : s.mayGo op = true)
    (hwaiting : s.seg.waiting = []) (hjob : s.convJob (s.firstJob op op.cycle op.remaining) = (t, [])) :
    exec (.segmentConversionDone [op]) s = .next t := by
  have hready : [op].filter s.segComplete = [op] := List.filter_cons_of_pos hcomplete
  have hgoes : [op].filter s.mayGo = [op] := List.filter_cons_of_pos hgo
  have hheld : [op].filter (fun o => !s.mayGo o) = [] := List.filter_cons_of_neg (by rw [hgo]; decide)
  have hself : ({ s with seg := { s.seg with waiting := s.seg.waiting ++ [] } } : State) = s := by rw [List.append_nil]
  have hfuel : s.jobFuel 1 = 6 := by
    unfold State.jobFuel
    rw [hwaiting]
    rfl
  have hrun : s.runJobs 6 [s.firstJob op op.cycle op.remaining] = t := by
    show (let (s1, more) := s.convJob (s.firstJob op op.cycle op.remaining); s1.runJobs 5 (more ++ [])) = t
    rw [hjob]
    rfl
  show execSegmentConversionDone [op] s = _
  unfold execSegmentConversionDone
  dsimp only
  rw [hready, hgoes, hheld, hself]
  refine congrArg Host.Outcome.next (Eq.trans ?_ hrun)
  rw [show [op].length = 1 from rfl, hfuel]
  rfl

theorem conversion_completes {op : ConvOp} {s : State} {x : SegCtx} (hstaged : storeWf emptyStaged s.seg.staged = true)
    (hrungs : storeWf 0 s.seg.rungs = true) (hctx : s.segCtx op = some x) (hcomplete : s.segComplete op = true)
    (hgo : s.mayGo op = true) (hwaiting : s.seg.waiting = []) (hend : op.instEnd = false)
    (hcross : segCross x.lim (elemCount x.ext)
      (s.blockCounts x (s.convertAt x (s.firstJob op op.cycle op.remaining).rung)) = false) :
    ∃ t, exec (.segmentConversionDone [op]) s = .next t ∧ t.staged op.tensor op.segment = emptyStaged ∧
      t.rungOf op.tensor op.segment = (s.firstJob op op.cycle op.remaining).rung ∧
      (t.layer op.layerInst).count = (s.layer op.layerInst).count + elemCount x.ext := by
  obtain ⟨u, t, hjob, -, hustaged, hurungs, hulayers, hseg⟩ := State.convJob_clean (j := s.firstJob op op.cycle op.remaining) hctx
    hcomplete hend hwaiting hcross
  obtain ⟨hop, -⟩ := State.segCtx_op hctx
  have helems := State.elems_of_complete hctx hcomplete
  have hexec := exec_conversion_one hcomplete hgo hwaiting hjob
  clear hjob
  generalize s.firstJob op op.cycle op.remaining = j at *
  obtain ⟨charges, hrelease⟩ := u.releaseSeg_seg x (s.convertAt x j.rung) j.rung
  have hlayer : u.layer op.layerInst = s.layer op.layerInst := by
    unfold State.layer
    rw [hulayers]
  have hafter : (u.layerAfter x (s.convertAt x j.rung)).count = (s.layer op.layerInst).count + elemCount x.ext := by
    show (u.layer x.op.layerInst).count + elemCount x.ext = _
    rw [hop, hlayer]
  have hne : u.layerAfter x (s.convertAt x j.rung) ≠ {} := by
    intro h
    rw [h] at hafter
    exact absurd hafter (Nat.ne_of_lt (by show 0 < _; omega))
  rw [hrelease, hop, hustaged, hurungs, hulayers] at hseg
  refine ⟨t, hexec, ?_, ?_, ?_⟩
  · unfold State.staged
    rw [hseg]
    exact storeGet_storeSet_same _ _ _ _ hstaged
  · unfold State.rungOf
    rw [hseg]
    exact storeGet_storeSet_same _ _ _ _ hrungs
  · unfold State.layer
    rw [hseg]
    refine Eq.trans ?_ hafter
    exact congrArg LayerTot.count (storeGet_storeSet_new _ _ _ _ hne)

/-! ### Blocks and sums -/

/-- A good block of a ring is held for its addition (R258, R261). -/
theorem blockArrival_completes {op : BlockArrival} {s : State} {g : GReduction} {x : RingShare} (hwf : storeWf 0 s.regs = true)
    (hframes : 66 * (s.taken op.plot op.port + 1) ≤ (s.linkEnd op.plot op.port true).frames * 5120)
    (hg : s.gReduction op.plot = some g) (hx : s.shareIn g op.port = some x) (hk : s.taken op.plot op.port < x.received.length)
    (hgood : s.blockFailure (s.streamBlock op.plot op.port (s.taken op.plot op.port)) = none) :
    ∃ t, exec (.cloisterBlockArrival op) s = .next t ∧ t.taken op.plot op.port = s.taken op.plot op.port + 1 ∧
      t.ringPlace g.plot (x.received.getD (s.taken op.plot op.port) 0) = s.taken op.plot op.port + 1 := by
  have hexec := exec_cloisterBlockArrival op s
  have hplot := State.plot_of_gReduction hg
  have htotal : ¬ shareTotal g x ≤ s.taken op.plot op.port := by
    unfold shareTotal
    omega
  rw [if_neg (Nat.not_lt.mpr hframes), hg] at hexec
  simp only [hx, if_neg htotal] at hexec
  obtain ⟨-, htaken, hring, -⟩ := blockGood hwf hplot op.port x _ hgood
  obtain ⟨hplace, -, -⟩ := hring hk
  rw [hplot]
  exact ⟨_, hexec, htaken, hplace⟩

theorem State.liftOperands_ring {s : State} (hops : storeWf 0 s.clo.ops = true) (op : BlockAdd) :
    Writes [.stl, .clo] [] s (s.liftOperands op) ∧ (op.ring = true → (s.liftOperands op).ringPlace op.plot op.seq = 0) := by
  unfold State.liftOperands
  have hplace : Writes [.clo] [] s (if op.ring then s.setRingPlace op.plot op.seq 0 else s) :=
    Writes.ite _ (s.setRingPlace_evolves op.plot op.seq 0).writes (Writes.refl s)
  have hring : op.ring = true → (if op.ring then s.setRingPlace op.plot op.seq 0 else s).ringPlace op.plot op.seq = 0 := fun h => by
    rw [if_pos h]
    exact storeGet_storeSet_same _ _ _ _ hops
  generalize (if op.ring then s.setRingPlace op.plot op.seq 0 else s) = u at *
  have hlift := Evolves.foldl (f := fun (s : State) p => s.liftBlock p op.seq) (fun s p => s.liftBlock_evolves p op.seq) op.locals u
  refine ⟨hplace.widen.step hlift.writes, fun h => ?_⟩
  rw [State.ringPlace, show (op.locals.foldl (fun s p => s.liftBlock p op.seq) u).clo = u.clo from hlift.keep .clo (by decide)]
  exact hring h

/-- An addition of good operands counts and gives up the ring's operand (R262). -/
theorem blockAddition_completes {op : BlockAdd} {s : State} {g : GReduction} {x : RingShare} (hwf : storeWf 0 s.regs = true)
    (hops : storeWf 0 s.clo.ops = true) (hg : s.gReduction op.plot = some g) (hx : s.shareOf g op.seq = some x)
    (hthere : s.operandsThere op = true) (hlocal : s.localFailure op = none) (hmany : 2 ≤ (s.addOperands op x).length)
    (htry : (addTry s.digestMode (s.addOperands op x) op.first).failed = none) :
    ∃ t, exec (.blockAddition op) s = .next t ∧ t.regN Reg.CLO_ADDS = min (s.regN Reg.CLO_ADDS + 1) (2 ^ 64 - 1) ∧
      (op.ring = true → t.ringPlace op.plot op.seq = 0) := by
  have hexec := exec_blockAddition hg hx
  rw [if_neg (by simp [hthere]), hlocal] at hexec
  dsimp only at hexec
  rw [State.addBlocks_many hmany, if_pos (by rw [htry]; rfl)] at hexec
  generalize addTry s.digestMode (s.addOperands op x) op.first = r at *
  obtain ⟨hlift, hring⟩ := State.liftOperands_ring hops op
  have hdone : (s.liftOperands op).addDone op g x r false =
      ((s.liftOperands op).sumCounted (x.ring.send / 8) r.sat false).placeSum op g x r.block := rfl
  rw [hdone] at hexec
  generalize s.liftOperands op = u at *
  obtain ⟨hadds, -, -, hsum⟩ := State.sumCounted_counts (hlift.wf hwf) (x.ring.send / 8) r.sat false
  have hclo : (u.sumCounted (x.ring.send / 8) r.sat false).clo = u.clo := hsum.evolves.keep .clo (by decide)
  generalize u.sumCounted (x.ring.send / 8) r.sat false = v at *
  obtain ⟨hplace, hdigest⟩ := State.placeSum_writes (hsum.wf (hlift.wf hwf)) op g x r.block
  refine ⟨_, hexec, ?_, fun h => ?_⟩
  · rw [hplace.regN (by decide), hadds, hlift.regN List.not_mem_nil]
  · rw [State.ringPlace, hdigest.ops, hclo]
    exact hring h

/-! ### Class S -/

section

variable {s : State} {red : SReduce} {x : Topo}

/-- The result of a plain reduction at its deadline or with a part missing (R271). -/
theorem State.sLate_completes (hwf : storeWf 0 s.regs = true) (huse : red.use = .plain) {v : State} (hsent : sumSent s v) :
    ((v.sLate x red).sred red.plot).result = some (List.replicate red.count (sSubstitute red.op)) ∧
      (v.sLate x red).regN Reg.CLO_S_LATE = min (s.regN Reg.CLO_S_LATE + 1) (2 ^ 32 - 1) := by
  rw [State.sLate_plain v x huse]
  obtain ⟨⟨hresult, -, -⟩, -, hlate, -⟩ := State.sumMissed_late hwf hsent x red.plot (List.replicate red.count (sSubstitute red.op))
  have hspoil := State.spoil_writes (v.sumMissed x red.plot (List.replicate red.count (sSubstitute red.op))) 3
  generalize v.sumMissed x red.plot (List.replicate red.count (sSubstitute red.op)) = u at *
  refine ⟨?_, (hspoil.regN (by decide)).trans hlate⟩
  unfold State.sred
  rw [show (u.spoil 3).clo = u.clo from hspoil.evolves.keep .clo (by decide)]
  exact hresult

/-- The result of a plain reduction that is complete (R270). -/
theorem State.sDone_completes (hwf : storeWf 0 s.regs = true) (huse : red.use = .plain) {v : State} (hsent : sumSent s v)
    (w : List DWord) (slack : Nat) :
    ((v.sDone x red w slack).sred red.plot).result = some w ∧
      (v.sDone x red w slack).regN Reg.CLO_S_DONE = min (s.regN Reg.CLO_S_DONE + 1) (2 ^ 32 - 1) := by
  have hdone : v.sDone x red w slack = v.sumDone x red.plot slack w := by
    show (v.sumDone x red.plot slack w).useResult red w = _
    rw [State.useResult, huse]
  rw [hdone]
  obtain ⟨⟨hresult, -, -⟩, -, hcount, -⟩ := State.sumDone_done hwf hsent x red.plot slack w
  exact ⟨hresult, hcount⟩

theorem classS_completes (hwf : storeWf 0 s.regs = true) (htopo : s.topo? = some x) (huse : red.use = .plain)
    (hopen : s.sumOpen red = true) :
    (∀ slack p port, s.ownVector red ≠ [] → s.kidMissing x red.plot = false → (s.sred red.plot).sent = false →
      x.treeParent = some p → s.portOf p = some port →
      ∃ t, exec (.classSCombine red false slack) s = .next t ∧ (t.sred red.plot).sent = true ∧
        (t.tx red.plot port).vecs = (s.tx red.plot port).vecs ++
          [vecBytes s.digestMode ⟨s.nodeVector x red, (s.kidParts x red.plot).any fun k => k.2.incomplete⟩]) ∧
    (∀ slack, s.ownVector red ≠ [] → s.kidMissing x red.plot = false → (s.sred red.plot).sent = false →
      x.treeParent = none → (s.kidParts x red.plot).any (fun k => k.2.incomplete) = false →
      ∃ t, exec (.classSCombine red false slack) s = .next t ∧ (t.sred red.plot).result = some (s.nodeVector x red) ∧
        t.regN Reg.CLO_S_DONE = min (s.regN Reg.CLO_S_DONE + 1) (2 ^ 32 - 1)) ∧
    (∀ slack w, s.parentVec x red.plot = some w → w.incomplete = false →
      ∃ t, exec (.classSResult red slack) s = .next t ∧ (t.sred red.plot).result = some w.data ∧
        t.regN Reg.CLO_S_DONE = min (s.regN Reg.CLO_S_DONE + 1) (2 ^ 32 - 1)) ∧
    (∃ t, exec (.classSDeadline red) s = .next t ∧
      (t.sred red.plot).result = some (List.replicate red.count (sSubstitute red.op)) ∧
      t.regN Reg.CLO_S_LATE = min (s.regN Reg.CLO_S_LATE + 1) (2 ^ 32 - 1)) := by
  have hcommit : red.use ≠ .commit := by
    rw [huse]
    exact fun h => nomatch h
  refine ⟨fun slack p port hown hkid hsent hp hport => ?_, fun slack hown hkid hsent hroot hparts => ?_, fun slack w hw hi => ?_, ?_⟩
  · obtain ⟨hvecs, hup, -⟩ := State.combineSum_up htopo slack hopen hsent hown hkid hp hport
    exact ⟨_, exec_classSCombine htopo hcommit slack, hup, hvecs⟩
  · refine ⟨_, exec_classSCombine htopo hcommit slack, ?_⟩
    rw [State.combineSum_whole slack hopen hsent hown hkid, hroot]
    dsimp only
    rw [hparts, if_neg (by decide)]
    exact State.sDone_completes hwf huse (s.sendDown_writes _ _ _) _ slack
  · refine ⟨_, exec_classSResult htopo hcommit hopen hw slack, ?_⟩
    rw [hi, if_neg (by decide)]
    exact State.sDone_completes hwf huse (s.sendDown_writes _ _ _) _ slack
  · refine ⟨_, exec_classSDeadline htopo hcommit, ?_⟩
    rw [State.deadlineSum_open hopen]
    exact State.sLate_completes hwf huse (s.deadlineSent_writes x red)

end

/-! ### Loads -/

theorem load_completes {s : State} (hinv : s.inv) (hhost : s.hosted) (hstep : 8 ≤ s.boot.step) (hidle : s.busy = false)
    (hst : s.image.st = .empty ∨ s.image.st = .loaded) :
    ∃ t, exec .load s = .next t ∧ t.image.st = .loading ∧ t.image.file = none ∧ t.regN Reg.LAST_PROGRESS = 0 ∧
      .hostFetch (s.regN Reg.LAST_SRC) (s.regN Reg.LAST_LEN) ∈ t.out := by
  have hload : s.image.st ≠ .loading := by rcases hst with h | h <;> rw [h] <;> decide
  have hverify : s.image.st ≠ .verifying := by rcases hst with h | h <;> rw [h] <;> decide
  obtain ⟨-, -, -, hbegin⟩ := loadsEndInAnImage.1 s hinv hhost
  obtain ⟨t, hexec, himage, hfile, hprogress, -, -, ⟨l, hout⟩, -⟩ := hbegin hstep hload hverify hidle
  refine ⟨t, hexec, himage, hfile, hprogress, ?_⟩
  rw [hout]
  exact List.mem_append_right _ (List.mem_singleton_self _)

theorem fetch_completes {s : State} (hinv : s.inv) (hst : s.image.st = .loading) :
    (∀ file : ImageFile, ∃ t, exec (.imageFetchDone file) s = .next t ∧ t.image.st = .verifying ∧
      t.image.file = some { file with raw := file.raw.take (s.regN Reg.LAST_LEN) } ∧
      t.regN Reg.LAST_PROGRESS = s.regN Reg.LAST_LEN) ∧
    (∀ n, n < 2 ^ 64 → ∃ t, exec (.imageFetchDmaError n) s = .next t ∧ t.image.st = .empty ∧
      t.fld Reg.LAST_STATE 15 8 = 0x12 ∧ t.regN Reg.LAST_ERR_OFFSET = n) := by
  obtain ⟨hdone, herror⟩ := loadsEndInAnImage.2.1 s hinv hst
  refine ⟨fun file => ?_, fun n hn => ?_⟩
  · obtain ⟨t, hexec, himage, hprogress, -⟩ := hdone file
    exact ⟨t, hexec, by rw [himage], by rw [himage], congrArg BitVec.toNat hprogress⟩
  · obtain ⟨t, hexec, himage, -, hoffset, -, hcode, -⟩ := herror n hn
    exact ⟨t, hexec, himage, hcode, hoffset⟩

theorem checks_complete {s : State} {f : ImageFile} (hinv : s.inv) (hst : s.image.st = .verifying) (hfile : s.image.file = some f)
    (hrecheck : s.image.rechecking = none) :
    ∃ t, exec .imageChecksDone s = .next t ∧
      match s.imageCheck f with
      | some e => t.image.st = .empty ∧ t.fld Reg.LAST_STATE 15 8 = e.code % 256 ∧ t.fld Reg.LAST_STATE 23 16 = e.step % 256
      | none => t.image.st = .loaded ∧ t.image.file = some f ∧ t.bit Reg.LAST_EVENT 0 = true := by
  obtain ⟨hbad, hgood⟩ := loadsEndInAnImage.2.2 s f hinv hst hfile hrecheck
  cases hcheck : s.imageCheck f with
  | some e =>
    obtain ⟨t, hexec, himage, -, hcode, hstep, -⟩ := hbad e hcheck
    exact ⟨t, hexec, himage, hcode, hstep⟩
  | none =>
    obtain ⟨t, hexec, himage, hkept, -, -, -, -, hevent, -⟩ := hgood hcheck
    exact ⟨t, hexec, himage, hkept, hevent⟩

/-- Settles O60: each command with nothing in its way, from the rules of its chapter. -/
theorem loadsDrainsAndSumsComplete : Obligations.LoadsDrainsAndSumsComplete := by
  unfold Obligations.LoadsDrainsAndSumsComplete
  refine ⟨fun s hinv hhost hstep hidle hst => load_completes hinv hhost hstep hidle hst, fun s hinv hst => fetch_completes hinv hst,
    fun s f hinv hst hfile hrecheck => checks_complete hinv hst hfile hrecheck,
    fun op s _ heng _ hupd hve => tileDrain_completes op s heng hupd hve, ?_, ?_, ?_, ?_⟩
  · intro op s x _ hstaged hrungs _ hctx hcomplete hgo hwaiting hend r0 hcross
    exact conversion_completes hstaged hrungs hctx hcomplete hgo hwaiting hend hcross
  · intro op s g x hinv k hframes hg hx hk hgood
    exact blockArrival_completes hinv.2 hframes hg hx hk hgood
  · intro op s g x hinv hops _ hg hx hthere hlocal hmany htry
    exact blockAddition_completes hinv.2 hops hg hx hthere hlocal hmany htry
  · intro red s x hinv htopo huse hopen
    exact classS_completes hinv.2 htopo huse hopen

end Sys2Proof.Machine
